-- ==== Sys2Proof/Word.lean ====
section
/-!
DEFINITION. The machine words of the HX4064: byte, half, word and double word, the widths that the register tables and
the memory layouts of the spec use (R1).
-/
namespace Sys2Proof

/-- One byte of memory (R1). -/
abbrev Byte := BitVec 8
/-- A 16-bit field. -/
abbrev W16 := BitVec 16
/-- A 32-bit register or memory word. -/
abbrev W32 := BitVec 32
/-- A 64-bit scalar or a little-endian 8-byte field. -/
abbrev W64 := BitVec 64
/-- A value of the sample frame counter (R46). -/
abbrev Sfc := BitVec 48
/-- A 128-bit tile instruction (section 9.4). -/
abbrev W128 := BitVec 128

end Sys2Proof
end

