-- ==== Sys2Proof/Syntax.lean ====
section
/-!
DEFINITION. The commands of the HX4064: one constructor of `Instr` for each row of spec/opcode_table.json, with the
operands the outside world supplies. A row's docstring cites its rule.
-/
namespace Sys2Proof

/-- The two sides from which registers are reached (R54, R130, R549). -/
inductive Side where
  | bar0
  | mgr
  deriving DecidableEq, Repr

/-- The phase-locked loops of Table 3.5. -/
inductive Pll where
  | spll | dpll | apll | ppll | upll | slpll | aonFll
  | cpll (d : Fin 4)
  | fpll (d : Fin 4)
  deriving DecidableEq, Repr

/-- Resets of the same or a narrower scope that start in the reference cycle of a reset (R70): their causes (Table 3.11) and the dies
that a die reset names. -/
structure AlsoReset where
  causes : BitVec 10
  dies : BitVec 4
  deriving DecidableEq, Repr

/-- The ports of the port reset scope (Table 3.8, Table 3.6). -/
inductive PortId where
  | pcie | usb | spi | aud
  | slp (n : Fin 4)
  deriving DecidableEq, Repr

/-- The blocks with a bit in PMU_AUTOWAKE (Table 5.5). -/
inductive WakeBlock where
  | die (d : Fin 4)
  | cam
  | itk
  | slk (n : Fin 4)
  deriving DecidableEq, Repr

/-- What falls in the reference cycle in which a command timer expires (R44, R75, R191, R192, R194, R427). -/
inductive TimeoutTie where
  | alone
  | completion
  | linkDown
  | dieLost
  | deadline
  | abort
  | checkpoint
  deriving DecidableEq, Repr

/-- The outcome of the header check of a CSI-2 packet (R429). -/
inductive EccResult where
  | good | corrected | uncorrectable
  deriving DecidableEq, Repr

/-- What a read over PCIe returns for a command whose ring lies in host memory (R173): the 64 bytes of the packet and the
bytes of an indirect parameter block; `none` is a failed read. -/
structure HostFetch where
  packet : Option (List (BitVec 8))
  params : Option (List (BitVec 8))
  deriving DecidableEq, Repr

/-- Readings that the power manager adds to the dies' telemetry (R124): temperature in 0.25 °C, voltage in mV, current in 10 mA. -/
structure Reading where
  temp : Int := 0
  mv : Nat := 0
  ma10 : Nat := 0
  deriving DecidableEq, Repr

/-- What IMAGE_LOAD finds in a Ulipel image. The container is outside the spec (section 0.1), so that its structure, its
features and its signature come as the result of reading it; the code segment is placed at `codeBase` (R234). -/
structure ImageDesc where
  formatOk : Bool
  signatureOk : Bool
  usesMpc : Bool
  uses16g : Bool
  usesSysKeys : Bool
  codeBase : Nat
  code : List (BitVec 128)
  entries : List Nat
  deriving DecidableEq, Repr

/-- A write to an association block of a selective IDE stream (R487): address blocks 0 and 1 hold host bus addresses [base, limit), block 2
requester IDs. -/
structure IdeAssoc where
  stream : Fin 2
  block : Fin 3
  base : Nat
  limit : Nat
  deriving DecidableEq, Repr

/-- A change of the PCIe configuration space (R488, R469, R487). -/
structure PcieCfg where
  bar0 : Option (BitVec 64)
  bar2 : Option (BitVec 64)
  memEnable : Option Bool
  busMaster : Option Bool
  msixEnable : Option Bool
  msixLocation : Option Nat
  ideAssoc : Option IdeAssoc
  deriving DecidableEq, Repr

/-- A Shusor frame as received (Table 21.1); `crcOk` is the result of the CRC check. -/
structure LinkFrame where
  ftype : BitVec 8
  vc : BitVec 8
  src : BitVec 8
  dst : BitVec 8
  seq : BitVec 12
  tenant : BitVec 10
  conf : Bool
  payload : List (BitVec 8)
  crcOk : Bool
  deriving DecidableEq, Repr

/-- What a completed training phase found (R503): the lanes with lock, the partner's rate, and in TRAIN_CFG the partner's
NODE_ID and the measured latency. -/
structure PhaseResult where
  lanes : BitVec 4
  partner16g : Bool
  partner : BitVec 6
  latency : BitVec 16
  deriving DecidableEq, Repr

/-- The commands of the block: one constructor per row of spec/opcode_table.json. -/
inductive Instr where
  /-- R70: PORST_N or a VRESET on VDD_AON initialises everything and starts the cold reset sequence. -/
  | coldReset (vresetAon : Bool) (pkg : BitVec 8) (banks : BitVec 4) (also : AlsoReset)
  /-- R35: 8 rc after PORST_N deasserts, BOOT_MODE and NODE_ID are latched into GLB_BOARD_STRAP. -/
  | boardStrapLatch (boot : BitVec 3) (node : BitVec 6)
  /-- R66: A PLL reaches lock, which lets the SFC start counting and the manager core leave reset. -/
  | pllLock (p : Pll)
  /-- R68: A PLL loses lock and causes a warm, die or port reset or an APLL holdover, as the PLL requires. -/
  | pllUnlock (p : Pll) (also : AlsoReset)
  /-- R69: With no REFCLK edge for 2 µs, the part enters warm reset and the Dormouse island saves the SFC and counts RTC ticks. -/
  | refclkLoss (also : AlsoReset)
  /-- R69: After REFCLK has been present for 1 ms, the warm reset ends and the SFC resumes with SFC_SKIP set. -/
  | refclkRestored
  /-- R70: The manager watchdog expires and starts a warm reset. -/
  | watchdogExpiry (also : AlsoReset)
  /-- R70: A JTAG reset cause resets the part and is recorded in GLB_RESET_CAUSE. -/
  | jtagReset (also : AlsoReset)
  /-- R70: The link layer of a port resets that port's logic only. -/
  | portScopeReset (p : PortId)
  /-- R72: A GLB_RESET_CTRL write with the correct KEY and WARM set starts a warm reset, unless the TDI is locked. -/
  | resetCtrlWarm (v : BitVec 32) (also : AlsoReset)
  /-- R72: A GLB_RESET_CTRL write with the correct KEY and one DIE bit set resets that die, unless the TDI is locked. -/
  | resetCtrlDie (v : BitVec 32)
  /-- R26: Main-channel and sideband training of a bridge completes and the bridge enters ID_CHECK. -/
  | bridgeTrainingDone (d : Fin 4)
  /-- R27: Bridge training does not complete within 100 µs; it restarts, and after three failures the bridge enters ERROR with TRAIN_FAIL. -/
  | bridgeTrainTimeout (d : Fin 4)
  /-- R32: The die's position code is checked for parity and against the port; the bridge goes UP with the SFC loaded, or to ERROR. -/
  | bridgePositionReport (d : Fin 4) (code : BitVec 3)
  /-- R29: An unrecovered bridge error sends the bridge to RETRAIN and holds traffic. -/
  | bridgeLinkError (d : Fin 4)
  /-- R29: A bridge retrain reaches UP within 40 µs, and held traffic proceeds in order. -/
  | bridgeRetrainDone (d : Fin 4)
  /-- R29: A bridge retrain misses 40 µs; the bridge becomes LOST, DIE_LOST is set, jobs fail and the cores leave placement. -/
  | bridgeRetrainTimeout (d : Fin 4)
  /-- R46: The SFC increments by one frame and the increment is sent over every sideband. -/
  | sfcTick (words : List (List (List (BitVec 32)))) (lost : BitVec 4)
  /-- R23: Every 65,536 frames the full SFC check value is compared with each die's copy, and SFC_MISMATCH is set on a difference. -/
  | sfcCheck
  /-- R23: At the next frame, a mismatching die's SFC copy is loaded with the check value, which is treated as a jump. -/
  | sfcCheckReload (d : Fin 4)
  /-- R56: A timebase compare reaches its target or is jumped over, and fires once with its late count and SKIPPED flag. -/
  | compareFire (k : Nat)
  /-- R60: A DEADLINE command that has not completed when its value is reached is stopped and completes TIMED_OUT / DEADLINE_PASSED. -/
  | deadlineExpiry (id : Nat)
  /-- R57: A CLC or MPC compare firing reaches its core as a priority wake message within 24 rc. -/
  | compareWakeMessage (core : Fin 64)
  /-- R48: WCLK_IN is declared lost, and the APLL enters holdover on REFCLK with WCLK_LOST set. -/
  | wclkLoss
  /-- R48: After 256 consecutive in-range periods, the APLL relocks to WCLK_IN phase-continuously. -/
  | wclkRelock
  /-- R47: A TB_CTRL write changes the timebase configuration, or is ignored with CTRL_REJECT while a stream is open or a capture is in EXCITE. -/
  | tbCtrlWrite (v : BitVec 32)
  /-- R54: A read of TB_SFC_LO latches SFC bits 47:32 into the reading side's shadow. -/
  | tbSfcLoRead (side : Side)
  /-- R54: A read of TB_MPC_PH latches the MPC cycle count into the reading side's shadow. -/
  | tbMpcPhRead (side : Side)
  /-- R53: The tracking loop advances the MPC phase, and the cycle count increments at a phase wrap. -/
  | mpcTick (steps : BitVec 16)
  /-- R53: With no mains crossing for 2 nominal periods, the MPC starts freewheeling at the last measured frequency. -/
  | mainsLoss
  /-- R53: After 16 freewheel cycles, the MPC holds, MAINS_LOST is set and MPC_LOCK clears. -/
  | mainsHold
  /-- R63: A rack beacon frame marker arrives; the compensated frame edge is followed and the marker is relayed downstream. -/
  | beaconMarker (port : Fin 4)
  /-- R64: A full SFC value arrives from the beacon root and is compared with the local SFC. -/
  | beaconFullValue (port : Fin 4) (f : LinkFrame)
  /-- R64: At the next frame boundary, a differing beacon value is loaded into the SFC with BEACON_SLIP and SFC_SKIP set. -/
  | beaconReload
  /-- R65: With no marker for 8 frame periods, the part enters holdover with BEACON_LOST set. -/
  | beaconLoss
  /-- R85: The frame mover places an input block in the stream's LM buffer and creates the block job on the home core. -/
  | blockDelivery (h : Fin 256)
  /-- R85, R258: At 8 µs before s+2B, the frame mover fetches the result block from LM; `inside`, it meets the core of the block's job within
  the long tile instruction at its PC. -/
  | fetchPoint (h : Fin 256) (tie inside : Bool)
  /-- R99: A follower's clock stops for 4 frames; PORT_CLK_LOST is set, inputs carry zero and outputs are discarded. -/
  | portClkLoss (n : Fin 4)
  /-- R99: A follower's clock returns and data passes again once the elastic buffer has refilled to 2 frames. -/
  | portClkReturn (n : Fin 4)
  /-- R81: An AUD_SPn_CTRL write configures the port, or is ignored with CTRL_REJECT under the slot, encoding and busy rules. -/
  | audSpCtrlWrite (n : Fin 4) (v : BitVec 32)
  /-- R82: An AUD_MCLK_CTRL write sets MCLK_OUT, with a ratio above the limit clamped and CTRL_REJECT set. -/
  | audMclkCtrlWrite (v : BitVec 32)
  /-- R179: An admitted stream starts at its first block boundary and STREAM_OPEN completes SERVED with the handle. -/
  | streamStart (h : Fin 256)
  /-- R93: A stream closes at a block boundary; its final blocks are driven, then its output slots fade and are freed. -/
  | streamCloseBoundary (h : Fin 256)
  /-- R96: A USB SET_CUR request is accepted, or stalled if it names a frequency other than TB_CTRL.RATE. -/
  | usbSetCur (hz : Nat)
  /-- R96: A USB alternate-setting selection is accepted, or refused above 96 kHz. -/
  | usbSetInterface (input : Bool) (alt : BitVec 2)
  /-- R97: An output isochronous packet fills the USB output FIFO; on underflow, zero frames are supplied and USB_UNDERRUN is set. -/
  | usbIsoOut (frames : List (List (BitVec 32)))
  /-- R97: An input isochronous packet drains the USB input FIFO; on overflow, the oldest frames are dropped and USB_OVERRUN is set. -/
  | usbIsoIn (n : Nat)
  /-- R98: USB suspend zeroes the USB inputs of streams and discards their USB outputs, without any fallback. -/
  | usbSuspend
  /-- R118: USB resume sets wake source 9 and wakes the part if that source is enabled. -/
  | usbResume
  /-- R171: A bulk OUT transfer of whole packets is appended to the USB command ring, or NAKed for lack of space. -/
  | usbBulkOut (bytes : List (BitVec 8))
  /-- R170: Bulk IN returns valid completion entries from the USB completion ring and advances its HEAD. -/
  | usbBulkIn (n : Nat)
  /-- R171: SPI frame opcode 0x02 appends commands to the SPI ring, or is ignored with SQ_BAD_TAIL. -/
  | spiFrameWrite (bytes : List (BitVec 8))
  /-- R171: SPI frame opcode 0x0B returns the next valid completion entry, or 32 zero bytes if there is none. -/
  | spiFrameRead
  /-- R171: SPI frame opcode 0x05 returns the free-slot and unread-completion status byte. -/
  | spiFrameStatus
  /-- R559: An SPI frame with any other opcode is ignored. -/
  | spiFrameOther (op : BitVec 8)
  /-- R118: SPI host port chip select asserts and sets wake source 11. -/
  | spiCsAssert
  /-- R112: The POWER_STATE command is checked against Table 5.2; on success it completes SERVED and firmware writes PMU_MODE. -/
  | powerState (id : Nat)
  /-- R113: When the manager core's WAIT retires, the part enters the target state, pre-empting, aborting epochs and self-refreshing LPDDR
  as required. -/
  | powerEntry (pending : Option (Fin 12))
  /-- R119: The wake to RUN completes, PMU_LAST reads WOKE and the part can read commands. -/
  | wakeDone
  /-- R121: A rail falls below VWARN; WARN is set and all compute clocks throttle to quarter rate within 1 µs. -/
  | supplyVwarn (n : Fin 11)
  /-- R121: Once every crossed rail has stayed above VWARN plus hysteresis for 100 µs, the throttle lifts. -/
  | throttleRelease
  /-- R122: A rail crosses VRESET; VRST is set and the rail's reset response of Table 5.4 follows. -/
  | supplyVreset (n : Fin 11) (warn : Bool) (also : AlsoReset)
  /-- R123: Every 50 µs the die manager reads its eight sensors and reports the highest reading. -/
  | thermalSample (d : Fin 4) (temps : List Int)
  /-- R124: Every 50 µs each die manager sends telemetry to the power manager over the sideband. -/
  | telemetryMessage (d : Fin 4) (mv : Nat) (ma10 : Nat)
  /-- R536: Every 1 ms the power manager writes a summary entry into the telemetry log. -/
  | telemetryLogWrite (mw : Nat) (divs : List (Fin 64 × BitVec 2)) (iod : Reading) (aon : Reading)
  /-- R128: A PMU_DVFS_d or PMU_AVS_d write sets the window, or is ignored with LIMIT_REJECT. -/
  | pmuWindowWrite (avs : Bool) (d : Fin 4) (v : BitVec 32)
  /-- R130: An access to a block that is off reads 0x0FF0_0FF0 or drops the write and records OBS_OFFACC. -/
  | offBlockAccess (side : Side) (off : BitVec 25) (w : Option (BitVec 32))
  /-- R131: An access to an off block with AUTOWAKE set stalls while the block wakes, starting bridge bring-up for a die. -/
  | autowakeAccess (side : Side) (off : BitVec 25) (w : Option (BitVec 32))
  /-- R131: The woken block becomes available within 50 µs and the stalled access completes normally. -/
  | autowakeAccessComplete
  /-- R131: A block that is not awake after 50 µs makes the access complete as an access to an off block, while the wake continues. -/
  | autowakeTimeout
  /-- R131: A block woken by AUTOWAKE returns to its previous state after 1 ms with no access. -/
  | autowakeIdleReturn (b : WakeBlock)
  /-- R555: A VDD_CDd regulator reaches VMIN + VWARN after PMBus turn-on, and the die's bring-up can proceed. -/
  | regulatorReady (d : Fin 4)
  /-- R555: A VDD_CDd rail not in range within 2 ms leaves the die OFF and sets WARN for monitor d. -/
  | regulatorStartTimeout (d : Fin 4)
  /-- R144: A deglitched CMP_INST crossing generates an edge or level event, sets the sequencer latch and the wake pending bit. -/
  | cmpInstCrossing (mv : Int)
  /-- R145: A CMP_MAINS crossing generates its event and wake, and on revision 2 drives the MPC tracking loop. -/
  | cmpMainsCrossing (mv : Int)
  /-- R144: A deglitched wake-pin event sets the sequencer latch and its wake pending bit. -/
  | wakePinEvent (n : Fin 4) (high : Bool)
  /-- R142: The AON FLL restarts on an awaited event and locks, and the waiting sequencer resumes. -/
  | fllLock
  /-- R147: The last frame of a PDM block is written; AON_PDM_WPTR advances and the PDM event is raised. -/
  | pdmBlock (dat0 : List Bool) (dat1 : List Bool)
  /-- R147: A PDM_CTRL write enables microphones, or is ignored with CTRL_REJECT for a misaligned ring. -/
  | aonPdmCtrlWrite (v : BitVec 32)
  /-- R148: The RTC counts one 32.768 kHz tick. -/
  | rtcTick
  /-- R148: The RTC count reaches the enabled alarm value, raising the alarm event and wake source. -/
  | rtcAlarm
  /-- R148: An AON_TIMER write sets PERIOD and restarts the count from the write, or stops the timer with PERIOD 0. -/
  | aonTimerWrite (v : BitVec 32)
  /-- R148: Every PERIOD ticks the timer event is raised. -/
  | aonTimerExpiry
  /-- R148: A read of AON_RTC_LO latches RTC bits 47:32 into the shadow. -/
  | aonRtcLoRead (side : Side)
  /-- R157: A read pops the oldest decision FIFO entry and latches its RTC stamp, or returns VALID 0 when the FIFO is empty. -/
  | aonDecHead0Read (side : Side)
  /-- R156: A threshold write sets LEAN and FIRM and resets the detector level, or is ignored with CTRL_REJECT if LEAN exceeds FIRM. -/
  | aonT0ThrWrite (k : Fin 8) (v : BitVec 32)
  /-- R152: A write to AON_MBOX_IN3 sets sequencer event bit 10. -/
  | aonMboxIn3Write (v : BitVec 32)
  /-- R149: RUN rising loads PC from START_PC and starts the sequencer. -/
  | seqStart (v : BitVec 32)
  /-- R149: Clearing RUN halts the sequencer after its current instruction, or at once in WAITEV. -/
  | seqHaltRequest (v : BitVec 32)
  /-- R150: The sequencer executes NOP. -/
  | seqNop
  /-- R150: The sequencer adds two registers modulo 2^32. -/
  | seqAdd
  /-- R150: The sequencer subtracts two registers. -/
  | seqSub
  /-- R150: The sequencer ANDs two registers. -/
  | seqAnd
  /-- R150: The sequencer ORs two registers. -/
  | seqOr
  /-- R150: The sequencer XORs two registers. -/
  | seqXor
  /-- R150: The sequencer shifts left. -/
  | seqShl
  /-- R150: The sequencer shifts right logically. -/
  | seqShr
  /-- R150: The sequencer shifts right arithmetically. -/
  | seqSar
  /-- R150: The sequencer multiplies, keeping the low 32 bits. -/
  | seqMul
  /-- R150: The sequencer takes the signed minimum. -/
  | seqMin
  /-- R150: The sequencer takes the signed maximum. -/
  | seqMax
  /-- R150: The sequencer adds a sign-extended immediate. -/
  | seqAddi
  /-- R150: The sequencer ANDs a zero-extended immediate. -/
  | seqAndi
  /-- R150: The sequencer ORs a zero-extended immediate. -/
  | seqOri
  /-- R150: The sequencer loads IMM shifted left by 14. -/
  | seqLui
  /-- R153: The sequencer loads a word from island SRAM, faulting on misalignment, range or an off bank. -/
  | seqLw
  /-- R150: The sequencer stores a word. -/
  | seqSw
  /-- R150: The sequencer loads a sign-extended halfword. -/
  | seqLh
  /-- R150: The sequencer stores a halfword. -/
  | seqSh
  /-- R150: The sequencer branches if equal. -/
  | seqBeq
  /-- R150: The sequencer branches if not equal. -/
  | seqBne
  /-- R150: The sequencer branches if signed less. -/
  | seqBlt
  /-- R150: The sequencer branches if signed greater or equal. -/
  | seqBge
  /-- R150: The sequencer jumps and links. -/
  | seqJal
  /-- R150: The sequencer jumps to a register. -/
  | seqJr
  /-- R151: The sequencer reads an AON register. -/
  | seqRdio
  /-- R151: The sequencer writes an AON register, ignoring protected ones and raising the mailbox interrupt for MBOX_OUT3. -/
  | seqWrio
  /-- R152: The sequencer consumes latched events in its mask, or gates its clock until one arrives. -/
  | seqWaitev
  /-- R154: The sequencer starts the Shrew engine on a layer list, or returns 1 if the engine is busy. -/
  | seqShrew
  /-- R155: The sequencer computes a detector's tier-0 level and on a change posts a FIFO entry, and on a rise sets the wake and interrupt. -/
  | seqDecide
  /-- R150: The sequencer clears RUN and halts. -/
  | seqHalt
  /-- R154: The Shrew engine finishes or faults on its layer list and raises event 7. -/
  | shrewDone
  /-- R165: A command-ring config write enables the ring with HEAD and TAIL reset, or is ignored with BAD_CFG. -/
  | gcpSqCfgWrite (n : Fin 64) (v : BitVec 32)
  /-- R165: A completion-ring config write enables or disables the ring, or is ignored with BAD_CFG. -/
  | gcpCqCfgWrite (n : Fin 64) (v : BitVec 32)
  /-- R188: A GCP_USB_CFG or GCP_SPI_CFG write binds transport rings, or is ignored with BAD_CFG under a lock. -/
  | gcpTransportCfgWrite (spi : Bool) (v : BitVec 32)
  /-- R166: A doorbell write advances a command ring's TAIL, or is ignored with SQ_BAD_TAIL, and is wake source 8. -/
  | gcpSqTailWrite (n : Fin 64) (v : BitVec 32)
  /-- R166: The host returns consumed completion slots, or the write is ignored with CQ_BAD_HEAD. -/
  | gcpCqHeadWrite (n : Fin 64) (v : BitVec 32)
  /-- R174: The part reads a command from a ring by priority and round-robin, checks its header and starts the opcode. -/
  | commandRead (n : Fin 64) (host : HostFetch)
  /-- R186: A command timer expires; the command completes TIMED_OUT / TIMER and its work stops. -/
  | commandTimeout (id : Nat) (tie : TimeoutTie)
  /-- R174: The NOP command completes SERVED. -/
  | nop (id : Nat)
  /-- R177: ABORT completes matching outstanding commands ABORTED / HOST_ABORT and reports the count. -/
  | abort (id : Nat) (tie : Option Nat)
  /-- R199: TENANT_CREATE creates a tenant with windows, budget, mask and save area after its checks. -/
  | tenantCreate (id : Nat)
  /-- R201: TENANT_DESTROY removes an idle tenant, unloads its images, zeroises its key slot and destroys its pools. -/
  | tenantDestroy (id : Nat)
  /-- R200: TENANT_SET replaces every field of a tenant, applying to jobs at their next dispatch. -/
  | tenantSet (id : Nat)
  /-- R475: SESSION_OPEN draws new keys into a slot and sets VALID last. -/
  | sessionOpen (id : Nat) (tie : Bool)
  /-- R476: SESSION_CLOSE zeroises a valid slot that is not rotating. -/
  | sessionClose (id : Nat)
  /-- R176: IMAGE_LOAD loads a Ulipel image, refusing bad format, IOD-unsupported features or bad signatures. -/
  | imageLoad (id : Nat) (img : ImageDesc)
  /-- R176: IMAGE_UNLOAD removes an image not used by a stream or enabled rule. -/
  | imageUnload (id : Nat)
  /-- R179: STREAM_OPEN is admitted on reading, with its reservation held and slots claimed until the stream starts. -/
  | streamOpen (id : Nat)
  /-- R93: STREAM_CLOSE ends a stream at a block boundary and completes SERVED or FALLBACK. -/
  | streamClose (id : Nat)
  /-- R220: STREAM_MIGRATE checks and admits a move of a stream to other cores or parts at switch value v. -/
  | streamMigrate (id : Nat)
  /-- R89: STREAM_ROUTE switches a stream's routes at a block-aligned SFC value. -/
  | streamRoute (id : Nat)
  /-- R184: STREAM_PATCH applies a parameter block to a stream, at its due tick when it carries AT. -/
  | streamPatch (id : Nat)
  /-- R312: RUN_OP checks an operator block and splits it into jobs for placement. -/
  | runOp (id : Nat)
  /-- R235: RUN_PROGRAM starts a job at an image entry with arguments in a0–a7. -/
  | runProgram (id : Nat)
  /-- R370: KV_POOL_CREATE checks and initialises a KV pool and returns its handle. -/
  | kvPoolCreate (id : Nat)
  /-- R371: KV_POOL_DESTROY removes an unused pool. -/
  | kvPoolDestroy (id : Nat)
  /-- R373: KV_SEQ CREATE marks a sequence in use and empty. -/
  | kvSeqCreate (id : Nat)
  /-- R373: KV_SEQ FORK shares a prefix of a source sequence, incrementing page REFCNTs. -/
  | kvSeqFork (id : Nat)
  /-- R373: KV_SEQ FREE releases a sequence's pages and clears IN_USE. -/
  | kvSeqFree (id : Nat) (tie : Option (Fin 64))
  /-- R373: KV_SEQ TRUNCATE releases blocks beyond a new length. -/
  | kvSeqTruncate (id : Nat) (tie : Option (Fin 64))
  /-- R373: KV_SEQ QUERY returns LEN and FREE_COUNT. -/
  | kvSeqQuery (id : Nat)
  /-- R393: CASCADE_CONFIG PART 0 writes a disabled cascade rule, and for tier 0 its thresholds. -/
  | cascadeConfigRule (id : Nat)
  /-- R393: CASCADE_CONFIG PART 1 writes the halted sequencer's program store. -/
  | cascadeConfigProgram (id : Nat)
  /-- R397: CASCADE_CTRL OPEN opens an epoch slot with a Hoard budget and returns the epoch number. -/
  | epochOpen (id : Nat)
  /-- R398: CASCADE_CTRL BIND makes later commands of a ring member commands of the epoch. -/
  | epochBind (id : Nat)
  /-- R398: CASCADE_CTRL UNBIND ends membership once the ring's earlier commands are read. -/
  | epochUnbind (id : Nat)
  /-- R401: CASCADE_CTRL COMMIT seals the epoch, which then waits for its commit point. -/
  | epochCommit (id : Nat)
  /-- R403: CASCADE_CTRL ABORT aborts the epoch with cause HOST. -/
  | epochAbort (id : Nat)
  /-- R397: CASCADE_CTRL RULE_EN enables or disables a cascade rule. -/
  | ruleEn (id : Nat)
  /-- R397: CASCADE_CTRL SEQ_RUN starts or stops the Dormouse sequencer. -/
  | seqRun (id : Nat)
  /-- R71: The WARM_RESET command aborts outstanding commands and starts a warm reset. -/
  | warmReset (id : Nat) (also : AlsoReset)
  /-- R70: The DIE_RESET command resets the named dies. -/
  | dieReset (id : Nat)
  /-- R70: The CORE_RESET command resets a core. -/
  | coreReset (id : Nat)
  /-- R528: SNAPSHOT raises a Quill trigger now or arms an SFC match, and completes when it latches. -/
  | snapshot (id : Nat)
  /-- R480: REKEY MAP writes and validates a protection descriptor. -/
  | rekeyMap (id : Nat)
  /-- R480: REKEY UNMAP clears a protection descriptor. -/
  | rekeyUnmap (id : Nat)
  /-- R481: REKEY ROTATE generates a rotation key and starts the watermark walk of the slot's units. -/
  | rekeyRotate (id : Nat)
  /-- R480: REKEY INIT starts writing zeros over a range under each unit's winning key. -/
  | rekeyInit (id : Nat)
  /-- R481: The rotation walk finishes, the rotation key replaces the old key and the command completes SERVED. -/
  | rekeyWalkDone (upTo : Option (BitVec 40))
  /-- R484: The INIT walk finishes and clears LOST when it covers the whole lost range. -/
  | rekeyInitDone
  /-- R450: INTAKE_SUBMIT checks a PACK or BATCH command and queues it for the intake engine. -/
  | intakeSubmit (id : Nat)
  /-- R456: The intake engine processes one sample: checks, augments, places it and writes its report entry. -/
  | intakeSample
  /-- R414: CAPTURE_START checks its parameters and routes and queues the capture. -/
  | captureStart (id : Nat)
  /-- R415: At a multiple of 64 frames, EXCITE begins driving the test signal and recording the return. -/
  | exciteStart (k : Nat)
  /-- R415: After LENGTH + 4,800 frames, recording ends and the output slot is released. -/
  | exciteEnd (k : Nat)
  /-- R416: ALIGN finds the loop latency, or fails the capture with CAPTURE_NO_RETURN. -/
  | alignDone (k : Nat)
  /-- R418: One optimiser step completes, with checkpoint, divergence and completion handling at its boundary. -/
  | fitStep (k : Nat)
  /-- R422: CAPTURE_CTRL STATUS reports the phase, step and latest loss. -/
  | captureStatus (id : Nat)
  /-- R422: CAPTURE_CTRL PAUSE pauses FIT at the next step boundary. -/
  | capturePause (id : Nat)
  /-- R422: CAPTURE_CTRL RESUME resumes FIT at the next step boundary. -/
  | captureResume (id : Nat)
  /-- R422: CAPTURE_CTRL STOP ends FIT at a step boundary with a checkpoint. -/
  | captureStop (id : Nat)
  /-- R433: CAMERA_CONFIG START arms the pipeline from the next frame start and sets the owner. -/
  | cameraStart (id : Nat)
  /-- R433: CAMERA_CONFIG STOP lets the current frame finish and completes when the pipeline is idle. -/
  | cameraStop (id : Nat)
  /-- R433: CAMERA_CONFIG UPDATE replaces the tables and statistics flags from the next frame. -/
  | cameraUpdate (id : Nat)
  /-- R52: A frame-start packet advances the CLC frame and resets its line, and starts pipeline frame processing. -/
  | csiFrameStart (vc : BitVec 2)
  /-- R52: A line-start packet advances the CLC line number. -/
  | csiLineStart (vc : BitVec 2)
  /-- R440: A long pixel packet feeds the pipeline, with CRC repair, overflow checks and the CLC advanced in long-packet mode. -/
  | csiLongPacket (vc : BitVec 2) (dt : BitVec 6) (pix : List Nat) (crcOk : Bool) (lineRc : Nat) (behind : Bool)
  /-- R440: A frame-end packet checks the frame size and drops or completes the frame. -/
  | csiFrameEnd (vc : BitVec 2)
  /-- R429: An unsupported data type is discarded and counted, or an uncorrectable header sets ECC_UNCORR. -/
  | csiOtherPacket (vc : BitVec 2) (dt : BitVec 6) (ecc : EccResult)
  /-- R439: A frame's tensor and statistics are written and its header is written with VALID last. -/
  | frameOutputDone
  /-- R442: After TRIG_WIDTH µs, CAM_TRIG returns low. -/
  | trigPulseEnd
  /-- R207: An eligible job is placed on the lowest free core in its mask, or a pre-empted job is restored there. -/
  | jobDispatch (j : Nat)
  /-- R215: The save of a pre-empted context completes and the core is free, with PREEMPT_OVER set if the bound was exceeded. -/
  | preemptSaveDone (core : Fin 64) (rc : Nat)
  /-- R239: A restore completes, with held signals applied and live banks reloaded. -/
  | jobRestoreDone (core : Fin 64)
  /-- R212: An RT_CAP write sets the density cap, or is ignored with CAP_REJECT. -/
  | schCtrlWrite (v : BitVec 32)
  /-- R240: The tile NOP retires with no effect. -/
  | tileNop (core : Fin 64)
  /-- R242: The tile unit adds two scalar registers. -/
  | tileAdd (core : Fin 64)
  /-- R242: The tile unit subtracts two scalar registers. -/
  | tileSub (core : Fin 64)
  /-- R242: The tile unit ANDs two scalar registers. -/
  | tileAnd (core : Fin 64)
  /-- R242: The tile unit ORs two scalar registers. -/
  | tileOr (core : Fin 64)
  /-- R242: The tile unit XORs two scalar registers. -/
  | tileXor (core : Fin 64)
  /-- R242: The tile unit shifts left. -/
  | tileShl (core : Fin 64)
  /-- R242: The tile unit shifts right logically. -/
  | tileShr (core : Fin 64)
  /-- R242: The tile unit shifts right arithmetically. -/
  | tileSar (core : Fin 64)
  /-- R242: The tile unit multiplies, keeping the low 64 bits. -/
  | tileMul (core : Fin 64)
  /-- R242: The tile unit adds an immediate. -/
  | tileAddi (core : Fin 64)
  /-- R242: The tile unit loads an immediate. -/
  | tileMovi (core : Fin 64)
  /-- R242: The tile unit compares two registers into a predicate. -/
  | tileCmp (core : Fin 64)
  /-- R242: The tile unit compares a register with an immediate into a predicate. -/
  | tileCmpi (core : Fin 64)
  /-- R242: The tile unit loads a scalar from LM. -/
  | tileLds (core : Fin 64)
  /-- R242: The tile unit stores a scalar to LM. -/
  | tileSts (core : Fin 64)
  /-- R243: The tile unit branches and pops loops whose body it leaves. -/
  | tileBr (core : Fin 64)
  /-- R243: The tile unit sets up a hardware loop. -/
  | tileLoop (core : Fin 64)
  /-- R237: END ends the job, completing RUN_PROGRAM, marking a block result complete or holding a speculative completion. -/
  | tileEnd (core : Fin 64) (tie : Option (Fin 64))
  /-- R244: The tile unit checks and queues an asynchronous DMA transfer. -/
  | tileDma (core : Fin 64)
  /-- R244: A queued DMA transfer finishes, or a key fault stops the job at the next boundary. -/
  | dmaComplete (core : Fin 64) (tag : Fin 16) (host : List (BitVec 8))
  /-- R244: The tile unit waits until no DMA with a tag in the mask is outstanding. -/
  | tileDmaw (core : Fin 64)
  /-- R245: The cubes accumulate a matrix product, optionally with in-array group rescale. -/
  | tileMma (core : Fin 64)
  /-- R251: The vector unit performs an element-wise FP32 operation. -/
  | tileVop (core : Fin 64)
  /-- R351: The vector unit evaluates a loaded PWL curve. -/
  | tileVpwl (core : Fin 64)
  /-- R299: The vector unit converts formats with scaling and optional error statistics. -/
  | tileVcvt (core : Fin 64)
  /-- R251: The vector unit performs row reductions. -/
  | tileVred (core : Fin 64)
  /-- R350: CURVE loads a curve table into the core. -/
  | tileCurve (core : Fin 64)
  /-- R322: EPI drains accumulators or an LM tensor through a fused chain. -/
  | tileEpi (core : Fin 64)
  /-- R344: WIN computes a sliding-window tile. -/
  | tileWin (core : Fin 64)
  /-- R363: RSTEP computes recurrent steps with whole-step commit of the state. -/
  | tileRstep (core : Fin 64)
  /-- R384: ATTN runs the attention page loop over pages in LM. -/
  | tileAttn (core : Fin 64)
  /-- R262: SIG posts a value to a target sync cell. -/
  | tileSig (core : Fin 64)
  /-- R265: A signal reaches its target and is added to a running context, to a save slot, or dropped. -/
  | signalDelivery (k : Nat)
  /-- R270: SWAIT waits until a sync cell holds VALUE, then consumes it. -/
  | tileSwait (core : Fin 64)
  /-- R271: An SWAIT deadline passes unmet; p[PD] is 0 and the wait retires. -/
  | swaitTimeout (core : Fin 64) (tie : Bool)
  /-- R247: TWAIT arms a timebase compare and waits for it. -/
  | tileTwait (core : Fin 64)
  /-- R248: WAIT waits for events, dozing when DOZE is set. -/
  | tileWait (core : Fin 64) (dozeRc : Nat)
  /-- R249: MODE writes DOZE and optionally seeds the rounding generator. -/
  | tileMode (core : Fin 64)
  /-- R249: LIVE writes LM_LIVE. -/
  | tileLive (core : Fin 64)
  /-- R249: SNAP raises a Quill trigger, or is counted and suppressed in a speculative job. -/
  | tileSnap (core : Fin 64)
  /-- R274: After DL_WINDOW quiet cycles, the detector fires, faults the waiting contexts and raises a Quill. -/
  | deadlockDetect (deadlineNear : Bool) (arrival : Bool)
  /-- R275: A deadlock control write sets or restarts the detector, or is ignored with CTRL_REJECT for WINDOW 0. -/
  | schDlCtrlWrite (v : BitVec 32)
  /-- R400: A SCH_HOARD_d write sizes the Hoard, or is ignored with CTRL_REJECT while a slot is in use. -/
  | schHoardWrite (d : Fin 4) (v : BitVec 32)
  /-- R392: The cascade manager sees a score-word write and updates the levels of the rules on it. -/
  | scoreWordEvaluate (j : Fin 64)
  /-- R395: The cascade manager handles a tier-0 level change and takes the rule action of Table 16.2. -/
  | tier0DecisionHandle
  /-- R395: A rule's confirmation window ends with its epoch still open, which aborts the epoch with cause WINDOW. -/
  | epochWindowExpiry (r : Fin 16) (tie : Bool)
  /-- R401: At the commit point, KV positions commit, verdicts apply, jobs turn non-speculative and write-back starts. -/
  | commitPoint (slot : Fin 64)
  /-- R402: Shadow write-back ends; the held completions, then the COMMIT completion, are posted and the slot is freed. -/
  | epochWritebackDone (slot : Fin 64)
  /-- R403: Every job of an aborted epoch has stopped and its pages are freed; member commands complete discarded. -/
  | epochAbortDone (slot : Fin 64)
  /-- R474: An entropy health test fails; TRNG_FAIL is set and the DRBG stops. -/
  | trngHealthFail
  /-- R474: Every 1 ms the start-up tests repeat, and after three failures the source stays failed. -/
  | trngRetest (pass : Bool)
  /-- R471: Periodic ZQ and WCK2DQ retraining holds LPDDR traffic for at most 1 µs. -/
  | lpddrRetrain
  /-- R470: A host BAR2 access reaches device memory at MEM_BAR2_BASE plus the offset, or is blocked. -/
  | bar2Access (off : BitVec 26) (len : Nat) (w : Option (List (BitVec 8)))
  /-- R489: A MEM_BAR2_BASE write moves the BAR2 window, ignored while the TDI is locked. -/
  | memBar2BaseWrite (v : BitVec 32)
  /-- R489: A KEY_TDI write sets RACK_TRUSTED, ignored while the TDI is locked. -/
  | keyTdiWrite (v : BitVec 32) (lock : Bool)
  /-- R486: The SPDM GET_VERSION request is answered. -/
  | getVersion
  /-- R486: The SPDM GET_CAPABILITIES request is answered. -/
  | getCapabilities
  /-- R486: The SPDM NEGOTIATE_ALGORITHMS request is answered. -/
  | negotiateAlgorithms
  /-- R486: The SPDM GET_DIGESTS request is answered. -/
  | getDigests
  /-- R486: The SPDM GET_CERTIFICATE request is answered. -/
  | getCertificate
  /-- R486: The SPDM CHALLENGE request is answered. -/
  | challenge
  /-- R486: The SPDM GET_MEASUREMENTS request is answered. -/
  | getMeasurements
  /-- R486: SPDM KEY_EXCHANGE starts a session with an ECDHE private value from the DRBG. -/
  | keyExchange
  /-- R486: SPDM FINISH completes session establishment. -/
  | finish
  /-- R486: SPDM END_SESSION ends the session. -/
  | endSession
  /-- R487: The IDE key-management QUERY is answered inside the session. -/
  | ideKmQuery
  /-- R487: IDE KEY_PROG programs a key set of a sub-stream. -/
  | keyProg (stream : Fin 2) (sub : Fin 3) (keySet : Fin 2) (key : BitVec 256)
  /-- R487: IDE K_SET_GO activates a key set. -/
  | kSetGo (stream : Fin 2) (sub : Fin 3) (keySet : Fin 2)
  /-- R487: IDE K_SET_STOP deactivates a key set. -/
  | kSetStop (stream : Fin 2) (sub : Fin 3) (keySet : Fin 2)
  /-- R488: The TDISP GET_TDISP_VERSION request is answered. -/
  | getTdispVersion
  /-- R488: The TDISP GET_TDISP_CAPABILITIES request is answered. -/
  | getTdispCapabilities
  /-- R489: TDISP LOCK_INTERFACE moves the TDI to CONFIG_LOCKED and freezes configuration. -/
  | lockInterface
  /-- R488: TDISP returns the interface report. -/
  | getDeviceInterfaceReport
  /-- R488: TDISP returns the TDI state. -/
  | getDeviceInterfaceState
  /-- R488: TDISP START_INTERFACE moves a locked TDI to RUN when an IDE stream is SECURE. -/
  | startInterface
  /-- R488: TDISP STOP_INTERFACE returns the TDI to CONFIG_UNLOCKED. -/
  | stopInterface
  /-- R488: A configuration-space change to BARs, enables or MSI-X location moves a locked TDI to ERROR. -/
  | pcieConfigWrite (c : PcieCfg)
  /-- R488: An IDE stream in use leaving SECURE moves a locked TDI to ERROR. -/
  | ideStreamInsecure (stream : Fin 2)
  /-- R490: A PCIe hot reset, link-down or FLR resets the port, zeroises CONF slots if the TDI is locked, and unlocks the TDI. -/
  | pciePortReset (linkDown : Bool)
  /-- R190: The boot ROM verifies the fetched image and starts the firmware, retries over USB, or halts. -/
  | firmwareVerify (image : List (BitVec 8)) (sourceOk : Bool)
  /-- R189: During STAGE 1, the host writes the image length, which ends the PCIe load. -/
  | glbBootCtrlWrite (v : BitVec 32)
  /-- R190: The firmware sets READY and the Garast rings may be enabled. -/
  | firmwareReady
  /-- R514: If no port delivers a whole image within 1 s, the boot ROM halts with ERROR 8. -/
  | neighbourBootTimeout
  /-- R501: A Shusor DATA frame is received, acknowledged if in sequence with a good CRC, and delivered. -/
  | dataFrame (port : Fin 4) (f : LinkFrame)
  /-- R515: A proxied command arrives in a CMD frame and is checked and run on this part. -/
  | cmdFrame (port : Fin 4) (f : LinkFrame)
  /-- R515: A proxied completion arrives in a CPL frame and is posted to the named completion ring. -/
  | cplFrame (port : Fin 4) (f : LinkFrame)
  /-- R506: A STATE frame announcing a link change updates the rack view and routes. -/
  | linkStateFrame (port : Fin 4) (f : LinkFrame)
  /-- R273: A STATE frame carries a partner's quiet state for the rack deadlock test. -/
  | quietStateFrame (port : Fin 4) (f : LinkFrame)
  /-- R508: An enumeration proposal sets this part's ID and extents on first receipt and is forwarded. -/
  | enumerationProposal (port : Fin 4) (f : LinkFrame) (lock : Bool)
  /-- R511: A rack QUILL frame arms an SFC compare on its target value on first copy and is forwarded. -/
  | quillFrame (port : Fin 4) (f : LinkFrame)
  /-- R512: A WAKE frame fires wake source 10 on a part in DOZE or TORPOR. -/
  | wakeFrame (port : Fin 4) (f : LinkFrame)
  /-- R501: An acknowledgement releases the acknowledged frame from the sender's replay buffer. -/
  | ackReceived (port : Fin 4) (seq : BitVec 12)
  /-- R501: A negative acknowledgement replays the frame and every later unacknowledged frame. -/
  | nakReceived (port : Fin 4) (seq : BitVec 12)
  /-- R501: No acknowledgement within 5 µs replays the frame, and after the eighth replay the link gives up. -/
  | replayTimeout (port : Fin 4) (tie : Bool)
  /-- R503: A training phase finishes, with lanes, latency and wiring checked, and the port advances or reaches UP. -/
  | shusorPhaseComplete (port : Fin 4) (r : PhaseResult)
  /-- R503: A training phase exceeds 2 ms and the attempt fails, leading to DOWN_NO_PARTNER after three attempts. -/
  | trainingPhaseTimeout (port : Fin 4)
  /-- R503: Every 100 ms, a DOWN_NO_PARTNER port with AUTO_RETRY starts a fresh set of attempts. -/
  | autoRetryTimer (port : Fin 4)
  /-- R505: A partner's retrain or width request control block is accepted, or resolved by the leader rule when simultaneous. -/
  | retrainRequest (port : Fin 4) (width : Option (Fin 5)) (node : BitVec 6)
  /-- R505: The partner's acceptance lets the requested retrain or width change proceed. -/
  | retrainAccept (port : Fin 4)
  /-- R505: A random back-off after an equal-ID clash ends and the request is retried. -/
  | clashBackoffExpiry (port : Fin 4)
  /-- R508: ENUMERATE completes SERVED with the counts of adopting and refusing parts. -/
  | enumerationComplete (id : Nat)
  /-- R516: LINK_CTRL PORT_UP enables and trains a port. -/
  | portUp (id : Nat)
  /-- R516: LINK_CTRL PORT_DOWN discards frames and disables the port. -/
  | portDown (id : Nat)
  /-- R504: LINK_CTRL RETRAIN retrains a port with its traffic held. -/
  | retrain (id : Nat)
  /-- R504: LINK_CTRL SET_WIDTH narrows at a frame boundary or widens by retrain. -/
  | setWidth (id : Nat)
  /-- R516: LINK_CTRL SET_RATE changes the lane rate, refused at 16 Gb/s on revision 1. -/
  | setRate (id : Nat)
  /-- R508: LINK_CTRL SET_NODE_ID overrides this part's active NODE_ID. -/
  | setNodeId (id : Nat) (lock : Bool)
  /-- R508: LINK_CTRL ENUMERATE sets this part's ID and floods proposals. -/
  | enumerate (id : Nat) (lock : Bool)
  /-- R509: LINK_CTRL BEACON_ROOT makes this part the beacon root. -/
  | beaconRoot (id : Nat)
  /-- R509: LINK_CTRL BEACON_JOIN sets SFC_SRC to BEACON. -/
  | beaconJoin (id : Nat)
  /-- R515: LINK_CTRL PROXY_BIND binds a command ring to a remote node. -/
  | proxyBind (id : Nat)
  /-- R515: LINK_CTRL PROXY_UNBIND removes a proxy binding. -/
  | proxyUnbind (id : Nat)
  /-- R516: LINK_CTRL PORT_RESET moves a port in ERROR to DISABLED and clears CLASHES. -/
  | portReset (id : Nat)
  /-- R24: A Quill trigger reaches a die or the IOD over the sideband 4 rc after it was raised. -/
  | quillSidebandArrival (d : Option (Fin 4))
  /-- R531: A write to OBS_QUILL_FIRE raises a HOST Quill trigger, flooded to the rack if RACK is set. -/
  | obsQuillFireWrite (v : BitVec 32)
  /-- R529: A falling edge held 2 rc on the QUILL ball raises a PIN trigger when PIN_EN is set. -/
  | quillPinFall (fire : Option (BitVec 32))
  /-- R533: 1 µs after a latch, the QUILL ball driven low by PIN_OUT is released. -/
  | quillPinOutEnd
  /-- R531: A write of 1 to OBS_QUILL_REARM sets ARMED again. -/
  | obsQuillRearmWrite (v : BitVec 32) (tie : Bool)
  /-- R536: Writing an index copies that telemetry entry into OBS_TLOG_DATA in one cycle. -/
  | obsTlogIdxWrite (side : Side) (v : BitVec 32)
  /-- R7: A read of an RC field returns its value and clears it, keeping any same-cycle event. -/
  | rcRegisterRead (side : Side) (off : BitVec 25) (event : Nat)
  /-- R547: A BAR0 access of another width or alignment reads zero or drops the write, with no other effect. -/
  | bar0BadWidthAccess (off : BitVec 25) (width : Nat) (w : Option (List (BitVec 8)))
  /-- R5: A write to a register with no behaviour of its own acts according to its access code, including W1C and W1S. -/
  | registerWrite (side : Side) (off : BitVec 25) (v : BitVec 32) (hw : BitVec 32)
  /-- R253: A core reset given under FAULT_RESET or CORE_RESET ends, at most 5 µs after it began, and the core becomes available for
  placement again. -/
  | coreResetDone (core : Fin 64)
  /-- R469: The PCIe link comes back up, so the host window is reachable again and HOST_DOWN no longer applies to its accesses. -/
  | pcieLinkUp
  /-- R429: A D-PHY clock or data lane enters or leaves high-speed receive or ULPS, updating LANE_HS and CLK_ACTIVE in CAM_PHY_STATUS. -/
  | csiLaneStateChange (lanes : BitVec 4) (clk : Bool)
  /-- R429: An initial or periodic D-PHY deskew sequence completes on the receiver, setting DESKEW_DONE. -/
  | csiDeskew
  deriving DecidableEq, Repr

end Sys2Proof
end

