-- ==== Sys2Proof/WellFormed.lean ====
section
/-!
DEFINITION. Which operands a command may carry: the lengths and ranges the spec gives what arrives at an interface. Index
operands (core, die, ring, port) are bounded by their types.
-/
namespace Sys2Proof

/-- A Shusor frame carries 0-256 payload bytes, a multiple of 4, and VC 0 or 1 (Table 21.1). -/
def LinkFrame.wellFormed (f : LinkFrame) : Bool :=
  f.payload.length ≤ 256 && f.payload.length % 4 == 0 && f.vc.toNat ≤ 1

/-- A fetched packet is 64 bytes (Table 7.2) and an indirect block 1-65,535 bytes. -/
def HostFetch.wellFormed (h : HostFetch) : Bool :=
  (match h.packet with | none => true | some p => p.length == 64) &&
  (match h.params with | none => true | some p => p.length ≤ 65535)

/-- The operand checks of the commands whose operands are lists or numbers. -/
def Instr.wellFormed : Instr → Bool
  | .sfcTick words _ => words.length ≤ 4 && words.all (fun w => w.all (fun f => f.length ≤ 16))
  | .usbIsoOut fs => fs.all (fun f => f.length ≤ 8)
  | .thermalSample _ ts => ts.length == 8
  | .commandRead _ h => h.wellFormed
  | .bar2Access _ len w => (len == 4 || len == 8 || len == 64) && (match w with | none => true | some b => b.length == len)
  | .csiLongPacket _ _ pix _ _ _ => pix.length ≤ 4096
  | .dataFrame _ f => f.wellFormed
  | .cmdFrame _ f => f.wellFormed
  | .cplFrame _ f => f.wellFormed
  | .linkStateFrame _ f => f.wellFormed
  | .quietStateFrame _ f => f.wellFormed
  | .quillFrame _ f => f.wellFormed
  | .wakeFrame _ f => f.wellFormed
  | .imageLoad _ img => img.entries.all (fun e => e < img.code.length)
  | _ => true

end Sys2Proof
end

