-- ==== Sys2Proof/Config.lean ====
section
/-!
DEFINITION. The free values: what the spec leaves open. Each is an opaque constant without a body, so that no proof can
see a value of it and a statement that mentions one holds for every value (notes/assumptions, log 3).
-/
namespace Sys2Proof.Config

/-- Bytes the spec calls undefined after an event (R315, R461, R360): argument, the counter `fresh` and the index. -/
opaque freeByte : Nat → Nat → BitVec 8
/-- Words the spec leaves open, drawn with the counter `fresh` (R474 DRBG, R415 sweep, R505 back-off). -/
opaque freeWord : Nat → Nat → BitVec 64
/-- The decryption of a unit written under one key and read under another (R476, R477): old key, new key, unit address,
the unit's 64 stored bytes, the byte index. -/
opaque xtsGarbage : Nat → Nat → Nat → List (BitVec 8) → Nat → BitVec 8
/-- exp of an FP32 value, whose relative error the spec only bounds (R317, R356, R382). -/
opaque expFp32 : BitVec 32 → BitVec 32
/-- The sum (false) or the sum of squares (true) that VRED forms of a row, whose order the spec does not give (Table 9.10). -/
opaque vredSum : Bool → List (BitVec 32) → BitVec 32
/-- The number of jobs J of an operator (R313): a function of the operator block alone. -/
opaque opJobs : List (BitVec 8) → Nat
/-- The format code of the intermediate between two linked operators (R324), whose FMT fields are zero: a function of the
parameter block. -/
opaque linkFmt : List (BitVec 8) → Nat
/-- Where the library cuts an operator into slices (R313): the parameter block, the axis (0 batches, 1 rows, 2 columns, 3 the numbers of
slices), the index of the boundary. -/
opaque opCut : List (BitVec 8) → Nat → Nat → Nat
/-- The 16-bit value of an element that an operator rounds stochastically in one of several jobs (R287, R313), which depends on the
library's slicing: the parameter block, the element. -/
opaque opRand : List (BitVec 8) → Nat → BitVec 16
/-- What the block of a training operator says of the learning rate, the step number, G and the rounding (R418), for which the spec gives no
fields: its attribute bytes, the index. -/
opaque trainAttr : List (BitVec 8) → Nat → BitVec 8
/-- A term of the gradient of a parameter of a recurrent cell, whose arithmetic the spec does not give (R417, Table 17.3): the operand bytes, the
parameter, the row or segment, the step. -/
opaque gradTerm : List (BitVec 8) → Nat → Nat → Nat → BitVec 32
/-- The words of the library's sigmoid (false) and tanh (true) tables (R351), whose contents the spec does not give. -/
opaque libCurve : Bool → Nat → BitVec 32
/-- The place of a training segment (R417) among those that a value of the generator may choose: the value. -/
opaque segStart : BitVec 64 → Nat
/-- The DVFS loop's frequency choice of a die (R125, R126) before the window is applied. -/
opaque dvfsChoice : Nat → Nat → Nat
/-- The AVS loop's voltage choice of a die (R125, R126) before the window is applied. -/
opaque avsChoice : Nat → Nat → Nat
/-- The flicker statistics of a frame (R441, Table 18.3), which the spec estimates without giving the arithmetic. -/
opaque flicker : List Nat → Nat → BitVec 8
/-- SHA-384 of bytes (R189), a published standard the spec does not reproduce. -/
opaque sha384 : List (BitVec 8) → List (BitVec 8)
/-- ECDSA P-384 verification (R189, R176): public key, signature, message. -/
opaque ecdsaVerify : List (BitVec 8) → List (BitVec 8) → List (BitVec 8) → Bool
/-- The fused key hash of slot k, the fused minimum SVN and the revoked key slots (R189, Table 7.10). -/
opaque fusedHash : Nat → List (BitVec 8)
/-- The fused minimum SVN (Table 7.10). -/
opaque fusedSvn : Nat
/-- True when fused key hash slot k is revoked (Table 7.10). -/
opaque fusedRevoked : Nat → Bool
/-- One test-signal sample of a capture with SIGNAL 0 (R415): the sweep's arithmetic is not given. Frame, length, rate. -/
opaque sweepSample : Nat → Nat → Nat → Int
/-- An FP32 power with a whole exponent (R418), whose rounding is not given: the base, the exponent. -/
opaque powFp32 : BitVec 32 → Nat → BitVec 32
/-- A sample attenuated by a whole number of dB (R415), whose rounding is not given: dB, sample. -/
opaque attenuate : Nat → Int → Int
/-- The place of an element within a tensor of a Shrew layer (R154), whose layouts the spec does not give: the layer's descriptor, the tensor (0 the
input, 1 the second input of ADD, 2 the weights, 3 the outputs), the element. -/
opaque shrewAt : List (BitVec 8) → Nat → Nat → Nat
/-- The time steps of padding before the input of a Shrew convolution or pool (R154), which the spec does not give: the descriptor. -/
opaque shrewPad : List (BitVec 8) → Nat
/-- The next INT16 state of a Shrew GRU layer (Table 6.4), whose arithmetic the spec does not give: the descriptor, its weights, biases and PWL
table, the input of the time step, the state before it, the index. -/
opaque shrewGru : List (BitVec 8) → List (BitVec 8) → List (BitVec 8) → List (BitVec 16) → Nat → BitVec 16
/-- A log energy of a BANDS layer (Table 6.4), whose arithmetic the spec does not give: the descriptor, the frame, the filter table, the
band. -/
opaque shrewBand : List (BitVec 8) → List (BitVec 8) → List (BitVec 8) → Nat → BitVec 32
/-- The decimated sample `i` of a PDM microphone before its gain (R146), whose filter the spec only bounds: the clock in Hz, what the filter holds of
earlier bits, the bits that the microphone's data line carried on its edge, the index. -/
opaque pdmPcm : Nat → Nat → List Bool → Nat → Int
/-- What the decimation filter of a PDM microphone holds after a block (R146), its delay reaching over blocks: the clock, what it held, the
bits. -/
opaque pdmHold : Nat → Nat → List Bool → Nat
/-- The PWL that a Shrew layer applies after requantisation (Table 6.4), whose table format the spec does not give: the table's
bytes, the value. -/
opaque shrewPwl : List (BitVec 8) → Int → Int
/-- The value of a read of host memory over PCIe (R470), which belongs to the host: the counter, the host bus address. -/
opaque hostByte : Nat → Nat → BitVec 8

end Sys2Proof.Config
end

