-- ==== Sys2Proof/Machine/State.lean ====
section
/-!
DEFINITION. The state of the HX4064: every register, counter, queue, memory and mode that the spec gives the part, as plain
data, with the value each holds right after cold reset (INVENTORY.md lists them with their rules). Arrays indexed by a
number (cores, dies, rings, slots, memory bytes) are sparse tables `Tbl`: an unlisted index holds the reset value.
-/
namespace Sys2Proof.Machine

/-- Why the machine would stop. The part reports every error as state (a sticky bit, a completion, a recorded fault), so
no command raises a fault. -/
inductive Fault where
  /-- Raised by no command: kept so that the type is not empty. Safe. -/
  | none
  deriving DecidableEq, Repr

/-- Why a command has no meaning. -/
inductive Refusal where
  /-- Raised by the dispatcher alone, for a command that has no meaning yet; safe. -/
  | notModelled (mnemonic : String)
  deriving DecidableEq, Repr

/-- A sparse table: index and value, indexes strictly rising, no entry equal to the default. -/
abbrev Tbl (α : Type) := List (Nat × α)

/-- A value held once for BAR0 and once for the manager core (R54, R549). -/
structure Sided (α : Type) where
  bar0 : α
  mgr : α
  deriving DecidableEq, Repr

/-- IOD revisions (Table 2.8). -/
inductive IodRev where
  | rev1
  | rev2
  deriving DecidableEq, Repr

/-- What is fixed when the part is built or boarded: IOD revision (Table 2.8), LPDDR capacity in GiB, type and rate
(Table 20.2). No step changes it. -/
structure Build where
  rev : IodRev := .rev2
  lpddrGib : Nat := 8
  lpddrType : BitVec 2 := 2
  lpddrRate : BitVec 16 := 6400
  lpddrTrains : Bool := true
  deriving DecidableEq, Repr

/-- GLB block: identity, straps, reset cause, boot (Tables 2.6-2.13, 3.10, 3.11, 7.11); `banks` are the general VDDIO banks AUD, HOST,
GEN and CAM (bits 0-3) that detected 3.3 V (R558), `loaded` the bytes of the image that a USB or SPI load has delivered (R189). -/
structure Glb where
  strapLatched : Bool := false
  bootMode : BitVec 3 := 0
  bootRsvd : Bool := false
  nodeStrap : BitVec 6 := 0
  activeId : BitVec 6 := 0
  overridden : Bool := false
  pkgWord : BitVec 8 := 0x3F
  banks : BitVec 4 := 0
  bridgeErr : BitVec 20 := 0
  cause : BitVec 4 := 0
  dieRst : BitVec 4 := 0
  hist : BitVec 10 := 1
  stage : BitVec 4 := 0
  bootError : BitVec 4 := 0
  ready : Bool := false
  source : BitVec 2 := 0
  loadLen : BitVec 24 := 0
  loaded : Nat := 0
  mgrRunning : Bool := false
  resetHeld : Bool := false
  deriving DecidableEq, Repr

/-- Bridge states (Table 2.1). -/
inductive Bridge where
  | off | training | idCheck | up | retrain | error | lost
  deriving DecidableEq, Repr

/-- Die states (R109, PMU_STATE.DIE_d). -/
inductive DieSt where
  | on | sleep | off | waking
  deriving DecidableEq, Repr

/-- A compute die as the IOD and its die manager hold it (R23, R32, R109, R123-R126, R131, R555): `stateOff`, it is down because of a
power state (R31); `seen`, its bridge has been UP since the last cold or warm reset. -/
structure Die where
  bridge : Bridge := .off
  attempts : Nat := 0
  posRaw : BitVec 3 := 0
  sfcCopy : Sfc := 0
  checkVal : Option Sfc := none
  power : DieSt := .off
  autoPrev : Option DieSt := none
  stateOff : Bool := false
  seen : Bool := false
  regulator : Bool := false
  tripped : Bool := false
  maxTemp : Int := 0
  maxTempMs : Int := 0
  sensor : BitVec 3 := 0
  mv : Nat := 0
  avsTarget : Nat := 0
  clk : Nat := 0
  ma10 : Nat := 0
  pinned : Bool := false
  pinDir : Bool := false
  deriving DecidableEq, Repr

/-- The timebases a compare names (Table 3.1, Table 3.3). -/
inductive Timebase where
  | sfc | clc | mpc
  deriving DecidableEq, Repr

/-- Who waits on a compare (section 3.3); `timer` is the timer of a command (R61). -/
inductive Owner where
  | cmd (id : Nat)
  | timer (id : Nat)
  | core (c : Nat)
  | snap (id : Nat)
  | quill (source : Nat) (origin : BitVec 6) (tag : BitVec 16)
  | trig
  deriving DecidableEq, Repr

/-- An armed compare (R55, R56): `hit` holds the late count and SKIPPED from the first value that reached the target. -/
structure Compare where
  tb : Timebase
  target : BitVec 48
  owner : Owner
  hit : Option (Nat × Bool) := none
  deriving DecidableEq, Repr

/-- How the MPC runs (R53). -/
inductive MpcMode where
  | idle | locked | freewheel | hold
  deriving DecidableEq, Repr

/-- TB block and timebases (Table 3.2, R46-R65). -/
structure Tb where
  ctrl : W32 := 0x5
  sfcActive : BitVec 2 := 1
  audLock : Bool := false
  wclkPresent : Bool := false
  beaconLock : Bool := false
  mpcLock : Bool := false
  err : BitVec 6 := 0
  sfc : Sfc := 0
  sfcRunning : Bool := false
  sfcShadow : Sided W16 := ⟨0, 0⟩
  clcFrame : W16 := 0
  clcLine : W16 := 0
  mpc : BitVec 48 := 0
  mpcMode : MpcMode := .idle
  mpcCrossings : Nat := 0
  mainsAt : BitVec 48 := 0
  freewheelCycles : Nat := 0
  mpcShadow : Sided W32 := ⟨0, 0⟩
  comp : W16 := 0
  beaconPending : Option Sfc := none
  carry : Option (Sfc × Nat) := none
  apllLost : Bool := false
  compares : List Compare := []
  deriving DecidableEq, Repr

/-- CLK block (Table 3.7). -/
structure Clk where
  lock : BitVec 17 := 0x10000
  err : BitVec 17 := 0
  deriving DecidableEq, Repr

/-- Device states (Table 5.1). -/
inductive DevSt where
  | run | doze | torpor | hibernate | off
  deriving DecidableEq, Repr

/-- An access that AUTOWAKE stalls (R131). -/
structure Stalled where
  side : Side
  off : BitVec 25
  w : Option W32
  block : WakeBlock
  deriving DecidableEq, Repr

/-- PMU block (Table 5.5) and the supply monitors (Table 5.4); `iodRead` and `aonRead` are the readings of the IOD and of the Dormouse
island (R124). -/
structure Pmu where
  mode : BitVec 3 := 0
  dev : DevSt := .run
  entry : Option DevSt := none
  lastResult : BitVec 2 := 0
  lastState : BitVec 3 := 0
  lastSource : BitVec 4 := 0
  wakeEn : BitVec 12 := 0
  wakePend : BitVec 12 := 0
  wakeSource : Option Nat := none
  levelHeld : BitVec 12 := 0
  retAon : BitVec 9 := 0
  retDm : Tbl (BitVec 12) := []
  autowake : BitVec 10 := 0
  dvfs : Tbl W32 := []
  avs : Tbl W32 := []
  pkgLimit : W16 := 28000
  pkgOver : Bool := false
  supErr : BitVec 31 := 0
  warnC : BitVec 9 := 95
  supmon : Tbl W32 := []
  throttle : Bool := false
  crossed : BitVec 11 := 0
  irq : Bool := false
  stalled : List Stalled := []
  woken : List WakeBlock := []
  resume : Option Nat := none
  pmicEn : Bool := true
  lpddrRefresh : Bool := false
  onDies : BitVec 4 := 0
  iodRead : Reading := {}
  aonRead : Reading := {}
  deriving DecidableEq, Repr

/-- The Dormouse sequencer (R149-R153). -/
structure Seq where
  run : Bool := false
  startPc : BitVec 12 := 0
  pc : Nat := 0
  halted : Bool := true
  waiting : Bool := false
  fault : BitVec 4 := 0
  w : Tbl W32 := []
  prog : Tbl W32 := []
  latch : BitVec 11 := 0
  deriving DecidableEq, Repr

/-- One entry of the tier-0 decision FIFO (R155, R157). -/
structure Decision where
  det : BitVec 3
  level : BitVec 2
  score : Byte
  rtc : BitVec 48
  deriving DecidableEq, Repr

/-- AON block: the Dormouse island (Table 6.5, R140-R164). Of each input (CMP_INST, CMP_MAINS, WAKE0-WAKE3) `raw` is the level before the
deglitching, `glitch` counts the ticks for which it has differed from the recognised level `inputs`; `cmpMv` is a comparator's sense
voltage against its reference (R143). `pdmHeld` is what the decimation filter of each microphone holds (R146), known by identity. `almTick`: a tick has passed since the alarm was written (R148). -/
structure Aon where
  seq : Seq := {}
  cmp : Tbl W32 := []
  wakepin : Tbl W32 := []
  inputs : BitVec 6 := 0
  cmpMv : Tbl Int := []
  raw : BitVec 6 := 0
  glitch : Tbl Nat := []
  pdmCtrl : W32 := 0
  pdmBase : BitVec 19 := 0
  pdmLen : BitVec 19 := 0
  pdmWptr : BitVec 19 := 0
  pdmHeld : Tbl Nat := []
  rtc : BitVec 48 := 0
  rtcShadow : Sided W16 := ⟨0, 0⟩
  almLo : W32 := 0
  almHi : W16 := 0
  almEn : Bool := false
  almFired : Bool := false
  almTick : Bool := false
  period : BitVec 24 := 0
  timerCount : Nat := 0
  shrewFreq : BitVec 2 := 2
  shrewFault : BitVec 4 := 0
  shrewLayer : BitVec 6 := 0
  shrewBusy : Bool := false
  shrewList : Nat := 0
  thr : Tbl W32 := []
  level : Tbl (BitVec 2) := []
  fifo : List Decision := []
  head1 : W32 := 0
  drop : W16 := 0
  mboxIn : Tbl W32 := []
  mboxOut : Tbl W32 := []
  mboxIrq : Bool := false
  decIrq : Bool := false
  err : BitVec 5 := 0
  deriving DecidableEq, Repr

/-- Scheduling classes (Table 7.2). -/
inductive Cls where
  | realtime | interactive | background
  deriving DecidableEq, Repr

/-- Where an outstanding command stands: read, waiting for its due tick, or under way. -/
inductive Phase where
  | read | armed | running
  deriving DecidableEq, Repr

/-- A row of a running ATTENTION operator (R376, R381, R382): its status, LEN + TLEN before the append, the visible positions, and
the page numbers of (block b, head h) at b × HKV + h that it reads through (65,536: none). -/
structure OpRow where
  status : Nat
  base : Nat
  vis : Nat
  pages : List Nat
  deriving DecidableEq, Repr

/-- What a command on a spread KV pool awaits from a part that holds a share of it (R385): the answer, a reason and data. -/
structure Share where
  node : Nat
  ans : Option (Nat × List Byte) := none
  deriving DecidableEq, Repr

/-- An outstanding Garast command (Table 7.2, R174, R185); `id` counts commands in the order they were read, `origin` is the identity that a
proxied command has where it was read; `shares` are the parts that a command on a spread KV pool works with, and `asking` holds the pool for
it until they have all answered (R385). -/
structure Cmd where
  id : Nat
  sq : Nat
  op : Nat
  tag : W16
  tenant : Nat
  cls : Cls
  cq : Nat
  irq : Bool := false
  fence : Bool := false
  due : W64 := 0
  timeout : W32 := 0
  params : List Byte := []
  phase : Phase := .read
  late : Nat := 0
  skipped : Bool := false
  deferred : Bool := false
  preempts : Nat := 0
  timer : Bool := false
  epoch : Option Nat := none
  remote : Option Nat := none
  path : List (Nat × Nat) := []
  proxied : Option Nat := none
  origin : Nat := 0
  opRows : List OpRow := []
  opState : List Byte := []
  opSat : Bool := false
  shares : List Share := []
  asking : Bool := false
  priv : Bool := false
  deriving DecidableEq, Repr

/-- A status entry before its PHASE bit (Table 7.4). -/
structure Status where
  tag : W16
  op : Nat
  tenant : Nat
  outcome : BitVec 3
  reason : W16
  late : Nat := 0
  flags : BitVec 4 := 0
  sq : Nat := 0xFF
  preempts : Nat := 0
  sfc : Sfc := 0
  result : List Byte := []
  irq : Bool := false
  deriving DecidableEq, Repr

/-- A held completion of an epoch (R399, R402, R403). -/
structure Held where
  cq : Nat
  sq : Nat
  st : Status
  own : Bool := false
  deriving DecidableEq, Repr

/-- The leaving of a bound ring (R398): TAIL as UNBIND or COMMIT found it, `none` once every command it held then has been read, and whether
that command has taken effect. -/
structure Unbind where
  tail : Option (BitVec 12)
  go : Bool
  deriving DecidableEq, Repr

/-- A command ring and the completion ring of the same number (Table 7.9). -/
structure Ring where
  sqBase : W64 := 0
  sqCfg : W32 := 0x40
  sqTail : BitVec 12 := 0
  sqHead : BitVec 12 := 0
  cqBase : W64 := 0
  cqCfg : W32 := 0x40
  cqHead : BitVec 12 := 0
  cqTail : BitVec 12 := 0
  phase : Bool := true
  err : BitVec 6 := 0
  held : List Status := []
  lastCq : Option Nat := none
  proxy : Option (BitVec 6) := none
  bound : Option Nat := none
  unbind : Option Unbind := none
  deriving DecidableEq, Repr

/-- GCP block beside the rings (Table 7.9) and the transports (Table 7.1). `owed` and `owedHeld` are the commands and the entries of
epochs that a warm reset has ended and firmware has not completed yet (R71). -/
structure Gcp where
  usbCfg : W32 := 0
  spiCfg : W32 := 0
  lateDrop : W32 := 0
  lastRing : Tbl Nat := []
  nextId : Nat := 1
  usbNak : Bool := false
  owed : List Cmd := []
  owedHeld : List Held := []
  deriving DecidableEq, Repr

/-- A window of a tenant (Table 8.2): page numbers. -/
structure Window where
  perm : BitVec 3
  base : Nat
  limit : Nat
  deriving DecidableEq, Repr

/-- A created tenant (Table 8.1). -/
structure Tenant where
  signed : Bool
  saveSlots : Nat
  rtDensity : Nat
  rtStreams : Nat
  intCores : Nat
  bgCores : Nat
  affinity : W64
  saveBase : Nat
  windows : List Window
  pubkey : List Byte
  slotsUsed : List Nat := []
  deriving DecidableEq, Repr

/-- A loaded Ulipel image (R176, R234). -/
structure Image where
  tenant : Nat
  codeBase : Nat
  codeLen : Nat
  entries : List Nat
  deriving DecidableEq, Repr

/-- What a job runs for (R235, R236, R313, R394, R423). -/
inductive JobKind where
  | program (cmd : Nat)
  | op (cmd : Nat) (slice : Nat)
  | block (h : Nat) (s : Nat)
  | launch (rule : Nat) (k : Nat)
  | fit (cap : Nat)
  deriving DecidableEq, Repr

/-- Where a job stands (R206-R218). -/
inductive JobSt where
  | waiting
  | running (c : Nat)
  | saving (c : Nat)
  | saved
  | restoring (c : Nat)
  deriving DecidableEq, Repr

/-- A loop-stack entry (R243, Table 9.3). -/
structure LoopEnt where
  start : Nat
  stop : Nat
  ctr : Nat
  deriving DecidableEq, Repr

/-- A queued DMA transfer (Table 9.8, Table 9.3); `done` counts the bytes that it has moved. -/
structure Dma where
  tag : Nat
  word : W128
  pc : Nat
  srcDev : Bool
  dstDev : Bool
  src : Nat
  dst : Nat
  sstr : Nat
  dstr : Nat
  len : Nat
  rows : Nat
  done : Nat := 0
  deriving DecidableEq, Repr

/-- A wait in progress (R247, R248, R252, R270, R271). -/
structure Wait where
  op : BitVec 8
  word : W128
  deadline : Option W32 := none
  target : W64 := 0
  deriving DecidableEq, Repr

/-- A loaded curve table: its LM source and its 144 bytes as words (R350). -/
structure Curve where
  src : Nat
  words : List W32
  deriving DecidableEq, Repr

/-- Where a core stands (SCH_CORE_c.STATE). -/
inductive CorePhase where
  | idle | running | saving | restoring | unavailable
  deriving DecidableEq, Repr

/-- A core (Tables 9.1, 9.3, 9.13, 10.3, 11.7). -/
structure Core where
  phase : CorePhase := .idle
  job : Option Nat := none
  pc : Nat := 0
  codeBase : Nat := 0
  codeLen : Nat := 0
  a : Tbl W64 := []
  n : Tbl W32 := []
  p : Tbl Bool := []
  loops : List LoopEnt := []
  doze : Bool := false
  live : BitVec 6 := 0
  rng : W64 := 0
  progress : W64 := 0
  curves : Tbl (Option Curve) := []
  sync : Tbl W32 := []
  dmas : List Dma := []
  wait : Option Wait := none
  events : BitVec 3 := 0
  wakeMsg : Option (Nat × Bool) := none
  lm : List Host.Cell := []
  acc : Tbl W32 := []
  div : BitVec 2 := 0
  faultReset : Bool := false
  fault : Byte := 0
  faultPc : W32 := 0
  err : Bool := false
  qerr : Bool := false
  instrs : W32 := 0
  cubeBusy : W32 := 0
  dozeRc : W32 := 0
  keyFault : Option (Byte × Nat) := none
  deriving DecidableEq, Repr

/-- A job (R206-R218, R235); `prog` is the image that it runs, as it was when the job was made (R182). -/
structure Job where
  kind : JobKind
  tenant : Nat
  cls : Cls
  elig : Nat
  st : JobSt := .waiting
  preempts : Nat := 0
  slot : Option Nat := none
  epoch : Option Nat := none
  image : Nat := 0
  prog : Option Image := none
  entry : Nat := 0
  args : List W64 := []
  deferred : Bool := false
  affCounted : Bool := false
  budgetCounted : Bool := false
  windows : List Window := []
  saved : Option Core := none
  slotAddr : Nat := 0
  tookCore : Bool := false
  cubeCc : Nat := 0
  barred : Bool := false
  deriving DecidableEq, Repr

/-- A block in the frame mover (R85): its first frame, the port-level input frames (for dry-through), whether the result is
complete, the fetched result; of another part's stream `data` is the input that a bridge in RETRAIN holds (R29). -/
structure Block where
  s : Nat
  input : List (List Int)
  route : List Nat
  throttled : Bool := false
  job : Option Nat := none
  delivered : Bool := false
  done : Bool := false
  result : Option (List Byte) := none
  data : List Byte := []
  deriving DecidableEq, Repr

/-- A block ready to be driven (R85, R90): first output frame, samples or fallback. -/
structure OutBlock where
  at_ : Nat
  ok : Bool
  frames : List (List Int)
  dry : List (List Int)
  route : List Nat
  deriving DecidableEq, Repr

/-- A pending migration (R219-R223); `port` is the Shusor port that its traffic uses (R502), `xfer` is the transfer allowance X in 1/32,000
µs, `admitted` says that the destination holds its reservation, `lost` that it was reset, lost or unreachable after v, `fmax` is the FMAX of its
die at the admission (R128, R211). -/
structure Migr where
  cmd : Nat
  node : Option (BitVec 6)
  dest : Nat
  switch_ : Nat
  density : Nat
  densityAfter : Nat
  xfer : Nat := 0
  inBuf : Nat := 0
  outBuf : Nat := 0
  port : Option Nat := none
  path : List (Nat × Nat) := []
  posted : Bool := false
  admitted : Bool := true
  lost : Bool := false
  fmax : Nat := 0
  deriving DecidableEq, Repr

/-- A route switch that a STREAM_ROUTE has registered (R89): its command, its SFC value, the routes. -/
structure RouteSwitch where
  cmd : Nat
  at_ : Nat
  inRoute : List Nat
  outRoute : List Nat
  deriving DecidableEq, Repr

/-- A stream of another part that this part processes (R220-R222): that part, the handle there, the transfer allowance X that its first
block is reserved with, the density of the blocks after that. -/
structure Guest where
  node : BitVec 6
  handle : Nat
  xfer : Nat
  after : Nat
  deriving DecidableEq, Repr

/-- A realtime stream (Table 7.7, R83-R94, R211); `stateFrom`, the part that was asked for the stream's recurrent state and has not sent it yet
(R221). -/
structure Stream where
  tenant : Nat
  image : Nat
  entry : Nat
  bLog2 : Nat
  chIn : Nat
  chOut : Nat
  fp32 : Bool
  holdFade : Bool
  reserve : Nat
  inRoute : List Nat
  outRoute : List Nat
  stateAddr : Nat
  core : Nat
  density : Nat
  fmax : Nat
  openCmd : Option Nat := none
  started : Bool := false
  first : Nat := 0
  collect : List (List Int) := []
  blocks : List Block := []
  outs : List OutBlock := []
  lastOut : List Int := []
  fadeFrom : List Int := []
  fbRun : Option Nat := some 0
  fbZero : Bool := true
  xfade : Option Nat := none
  fbBlocks : W32 := 0
  fbFrames : Nat := 0
  lastReason : W16 := 0
  dieFb : Bool := false
  closeAt : Option Nat := none
  closeCmd : Option Nat := none
  nextRoutes : List RouteSwitch := []
  migr : Option Migr := none
  inBuf : Nat := 0
  outBuf : Nat := 0
  patch : List Byte := []
  ending : Option Nat := none
  remote : Option (BitVec 6) := none
  stateFrom : Option (BitVec 6) := none
  guest : Option Guest := none
  deriving DecidableEq, Repr

/-- An in-flight signal (R262-R269); `target` is the job for whose restore it is held (R266). -/
structure Signal where
  src : Nat
  core : Nat
  cell : Nat
  v : Nat
  tenant : Nat
  node : Option (BitVec 6) := none
  conf : Bool := false
  epoch : Option Nat := none
  target : Option Nat := none
  deriving DecidableEq, Repr

/-- Epoch states (Table 16.3). -/
inductive EpSt where
  | free | opened | sealing | committing | aborting
  deriving DecidableEq, Repr

/-- A shadow page: target page number, die and page index in that die's Hoard (R400). -/
structure Shadow where
  target : Nat
  die : Nat
  page : Nat
  deriving DecidableEq, Repr

/-- An epoch slot (R396-R403, Table 16.7). -/
structure Epoch where
  st : EpSt := .free
  cause : BitVec 4 := 0
  tenant : Nat := 0
  number : W32 := 0
  limit : Nat := 0
  pages : List Shadow := []
  ctxPages : List Shadow := []
  deadline : Option Sfc := none
  held : List Held := []
  commit : Option Nat := none
  abortCmd : Option Nat := none
  waitJobs : Bool := false
  verdict : Option Nat := none
  applied : Nat := 0
  discardCc : Nat := 0
  seqs : List (Nat × Nat) := []
  deriving DecidableEq, Repr

/-- A cascade rule (Table 16.1, R393-R395): `deferred` and `preempts` belong to the launch under way (R205, R216, R394). -/
structure Rule where
  set_ : Bool := false
  enabled : Bool := false
  tier : BitVec 2 := 0
  det : BitVec 3 := 0
  score : Nat := 0
  lean_ : Byte := 0xFF
  firm : Byte := 0xFF
  jobs : Nat := 0
  window : Nat := 0
  tenant : Nat := 0
  image : Nat := 0
  entry : Nat := 0
  hoard : Nat := 0
  cls : Cls := .background
  cq : Nat := 0xFF
  arg0 : W64 := 0
  level : BitVec 2 := 0
  left : Nat := 0
  faults : List (Nat × Nat) := []
  specLaunch : Bool := false
  deferred : Bool := false
  preempts : Nat := 0
  deriving DecidableEq, Repr

/-- A KV pool (Table 15.1); its control area lies in memory. `pins` and `apps` hold by command the pages it pinned (R376) and the
sequences it appends to (R374); `share` names the shares of a spread pool (R385), by the command that created it. -/
structure Pool where
  tenant : Nat
  base : Nat
  ctrl : Nat
  npages : Nat
  fmt : Nat
  hkv : Nat
  d : Nat
  maxSeq : Nat
  maxBlocks : Nat
  spread : Nat
  nodes : List Byte
  pins : List (Nat × List Nat) := []
  apps : List (Nat × List Nat) := []
  share : Nat := 0
  deriving DecidableEq, Repr

/-- A tier-0 level change that the cascade manager has not handled yet (R395): detector, old and new level, whether it found the part
asleep, the rules that have acted on it already (R406). -/
structure T0Change where
  det : Nat
  old : BitVec 2
  new : BitVec 2
  woke : Bool
  done : List Nat := []
  deriving DecidableEq, Repr

/-- A transfer of a job that has ended, which a bridge in RETRAIN holds (R29, R253, R361): the core, the tenant, the windows and the epoch of
the job, and the rows that it still reads from the core's LM. -/
structure HeldDma where
  core : Nat
  tenant : Nat
  windows : List Window
  epoch : Option Nat
  barred : Bool := false
  dma : Dma
  rows : List (List Byte)
  deriving DecidableEq, Repr

/-- SCH block: scheduler, sync, deadlock and speculation registers (Tables 8.5, 10.2, 16.7). -/
structure Sch where
  rtCap : BitVec 10 := 900
  ctxSel : Sided (BitVec 10) := ⟨0, 0⟩
  affWait : W32 := 0
  budgetWait : W32 := 0
  preempts : W32 := 0
  preemptMax : W16 := 0
  err : BitVec 4 := 0
  dlEn : Bool := true
  dlRack : Bool := true
  dlWindow : W16 := 64
  dlHorizon : BitVec 20 := 1000
  dlCount : W16 := 0
  syncErr : BitVec 7 := 0
  dlLast : W64 := 0
  sigDrop : W32 := 0
  hoard : Tbl (BitVec 7) := []
  epSel : Sided (BitVec 6) := ⟨0, 0⟩
  commits : W32 := 0
  aborts : W32 := 0
  discardCc : W32 := 0
  specSnap : W16 := 0
  launchBusy : W16 := 0
  specErr : BitVec 4 := 0
  epochNo : W32 := 1
  nextElig : Nat := 1
  nextJob : Nat := 1
  signals : List Signal := []
  heldDma : List HeldDma := []
  ctxKept : List Shadow := []
  t0 : List T0Change := []
  dir : Tbl (Option Nat) := []
  deriving DecidableEq, Repr

/-- A key slot (R473): key material is known by identity, since no interface reads key bits; 0 is no key. -/
structure KeySlot where
  valid : Bool := false
  conf : Bool := false
  key : Nat := 0
  rot : Option Nat := none
  deriving DecidableEq, Repr

/-- A protection descriptor (R478): BASE and LIMIT as page numbers. -/
structure Desc where
  valid : Bool := false
  base : Nat := 0
  limit : Nat := 0
  slot : Nat := 0
  deriving DecidableEq, Repr

/-- A running ROTATE or INIT walk (R480-R484). -/
structure Walk where
  cmd : Nat
  init : Bool
  slot : Nat
  base : Nat
  limit : Nat
  deriving DecidableEq, Repr

/-- TDI states (Table 20.3). -/
inductive Tdi where
  | unlocked | locked | run | error
  deriving DecidableEq, Repr

/-- SPDM session states (R486). -/
inductive Spdm where
  | none | versioned | capable | negotiated | handshake | established
  deriving DecidableEq, Repr

/-- A selective IDE stream (R487): the keys of its key sets, `none` where not programmed, and the sets active, per sub-stream, and its association
blocks, 0 and 1 of addresses on
the host bus, 2 of requester IDs, each a base and a limit. -/
structure Ide where
  keys : Tbl (Option (BitVec 256)) := []
  active : Tbl Bool := []
  assoc : Tbl (Nat × Nat) := []
  deriving DecidableEq, Repr

/-- KEY block (Table 20.4), DRBG, SPDM, IDE and TDISP state (R473-R490). -/
structure Key where
  slots : Tbl KeySlot := []
  descs : Tbl Desc := []
  slotSel : Sided (BitVec 11) := ⟨0, 0⟩
  descSel : Sided (BitVec 8) := ⟨0, 0⟩
  walk : Option Walk := none
  paused : Bool := false
  wm : BitVec 40 := 0
  lostBase : BitVec 28 := 0
  lostLimit : BitVec 28 := 0
  lost : Bool := false
  tdi : Tdi := .unlocked
  rackTrusted : Bool := false
  err : BitVec 6 := 0
  drbgStopped : Bool := false
  trngRepeats : Nat := 0
  trngDead : Bool := false
  generates : Nat := 0
  nextKey : Nat := 1
  spdm : Spdm := .none
  doeReply : Nat := 0
  ide : Tbl Ide := []
  unitKey : Tbl Nat := []
  deriving DecidableEq, Repr

/-- MEM block (Table 20.5) and the PCIe function's settings (R469, R470, R488). -/
structure Memc where
  trained : Bool := false
  bar2Base : BitVec 14 := 0
  err : BitVec 5 := 0
  faultAddr : BitVec 40 := 0
  linkUp : Bool := true
  busMaster : Bool := false
  memEnable : Bool := false
  msixEnable : Bool := false
  bar0 : BitVec 64 := 0
  bar2 : BitVec 64 := 0
  msixLocation : Nat := 0
  deriving DecidableEq, Repr

/-- A serial audio port (Tables 4.4, 4.5). A follower's elastic buffer holds up to 4 frames of slot words each way (R80): `inBuf` those
received and not latched, `outBuf` those driven and not sent. `latched` is the frame last latched, `drive` the frame that streams drive,
`outLast` the frame last sent, `sdout` the frames that left SDOUT in this frame period. -/
structure AudPort where
  ctrl : W32 := 0x110
  clkOk : Bool := false
  slips : Byte := 0
  lost : Bool := false
  refill : Bool := false
  inBuf : List (List W32) := [[], []]
  outBuf : List (List W32) := [[], []]
  latched : List W32 := []
  outLast : List W32 := []
  drive : List W32 := []
  sdout : List (List W32) := []
  deriving DecidableEq, Repr

/-- The output of a closed stream that still fades (R93): route bytes, the last driven words (left-justified), frames driven. -/
structure Fade where
  route : List Nat
  words : List Int
  idx : Nat
  deriving DecidableEq, Repr

/-- AUD block and the USB audio function (Table 4.5, R95-R98): `mclkHz` is the frequency of MCLK_OUT (R82), `usbFb` the value of the
feedback endpoint in the 16.16 format (R95). -/
structure Aud where
  ports : Tbl AudPort := []
  mclk : W32 := 0x2
  mclkHz : Nat := 0
  err : BitVec 16 := 0
  strmSel : Sided Byte := ⟨0, 0⟩
  usbIn : BitVec 2 := 0
  usbOut : BitVec 2 := 0
  usbSuspended : Bool := false
  usbOutFifo : List (List W32) := []
  usbInFifo : List (List W32) := []
  usbStall : Bool := false
  usbFb : W32 := 0
  fades : List Fade := []
  deriving DecidableEq, Repr

/-- A running capture (R412-R422): `ctl` holds the CAPTURE_CTRL commands (identity, OPER) that wait for the next step boundary. -/
structure Capture where
  cmd : Nat
  outRoute : Nat
  inRoute : Nat
  signal : Nat
  atten : Nat
  length : Nat
  sigAddr : Nat
  work : Nat
  ckpt : Nat
  cell : Nat
  g : Nat
  stochastic : Bool
  h : Nat
  segLen : Nat
  batch : Nat
  ckptEvery : Nat
  steps : Nat
  lr : W32
  rng : W64
  tenant : Nat
  phase : Nat := 0
  exciting : Bool := false
  frame : Nat := 0
  sig : List Int := []
  rec_ : List Int := []
  lag : Nat := 0
  step : Nat := 0
  loss : W32 := 0
  lossSum : List W32 := []
  best : Option (Nat × W32) := none
  badCkpts : Nat := 0
  paused : Bool := false
  ctl : List (Nat × Nat) := []
  weights : List W32 := []
  mom : List W32 := []
  var : List W32 := []
  deriving DecidableEq, Repr

/-- The camera's configuration (Table 18.1). -/
structure CamCfg where
  lanes : Nat := 1
  vc : BitVec 2 := 0
  dt : BitVec 6 := 0
  cfa : Nat := 0
  flags : Byte := 0
  outFmt : Nat := 0
  nbuf : Nat := 1
  inW : Nat := 0
  inH : Nat := 0
  cropX : Nat := 0
  cropY : Nat := 0
  cropW : Nat := 0
  cropH : Nat := 0
  outW : Nat := 0
  outH : Nat := 0
  bilinear : Bool := false
  trigCycles : Nat := 0
  trigPhase : Nat := 0
  trigWidth : Nat := 0
  outBase : Nat := 0
  black : List Nat := []
  wb : List Nat := []
  matrix : List Int := []
  gamma : List Nat := []
  deriving DecidableEq, Repr

/-- A frame in the camera pipeline (R433, R439, R440): `repaired` numbers the lines whose CRC failed. -/
structure CamFrame where
  cfg : CamCfg
  clc : W32
  sfc : Sfc
  mpc : BitVec 48
  mpcValid : Bool
  lines : List (List Nat) := []
  repaired : List Nat := []
  lineRc : Nat := 0
  restart : Bool := false
  deriving DecidableEq, Repr

/-- CAM block and pipeline (Table 18.4, R429-R448). -/
structure Cam where
  running : Bool := false
  stopping : List Nat := []
  owner : BitVec 10 := 0
  cfg : CamCfg := {}
  lanesHs : BitVec 4 := 0
  clkActive : Bool := false
  deskew : Bool := false
  lastSeq : W32 := 0
  seq : W32 := 0
  frameDrop : W32 := 0
  pktDrop : W32 := 0
  eccCorr : W32 := 0
  err : BitVec 7 := 0
  frame : Option CamFrame := none
  output : List CamFrame := []
  buf : Nat := 0
  trigHigh : Bool := false
  history : List (List Nat) := []
  restart : Bool := false
  deriving DecidableEq, Repr

/-- A running or suspended intake command (R449-R460). -/
structure Intake where
  cmd : Nat
  cls : Cls
  elig : Nat
  started : Bool := false
  idx : Nat := 0
  row : Nat := 0
  fill : Nat := 0
  seg : Nat := 0
  corrupt : Nat := 0
  trunc : Nat := 0
  used : Nat := 0
  lastGood : Option (Nat × Nat) := none
  windows : List Window := []
  deriving DecidableEq, Repr

/-- ITK block (Table 19.6): the running command, the suspended ones, the waiting ones. -/
structure Itk where
  run : Option Intake := none
  waiting : List Intake := []
  corrupt : Tbl W32 := []
  trunc : W32 := 0
  samples : W32 := 0
  err : Bool := false
  deriving DecidableEq, Repr

/-- Shusor port states (Table 21.2). -/
inductive SlkSt where
  | disabled | detect | trainBit | trainCfg | up | retrain | downNoPartner | error
  deriving DecidableEq, Repr

/-- A sent frame kept for replay (R501), with the candidate route that it was sent on (R507; 0: a broadcast). -/
structure Unacked where
  frame : LinkFrame
  replays : Nat := 0
  cand : Nat := 0
  deriving DecidableEq, Repr

/-- A Shusor port (Table 21.4, R499-R505). -/
structure SlkPort where
  st : SlkSt := .disabled
  retraining : Bool := false
  width : BitVec 2 := 0
  widthMax : Nat := 4
  rateCfg : Bool := false
  rate16 : Bool := false
  autoRetry : Bool := false
  partner : BitVec 6 := 0
  attempts : BitVec 2 := 0
  clashes : BitVec 3 := 0
  lat : W16 := 0
  replay : W32 := 0
  err : BitVec 6 := 0
  txSeq : BitVec 12 := 0
  rxSeq : BitVec 12 := 0
  unacked : List Unacked := []
  held : List Unacked := []
  reqSent : Option Nat := none
  reqWidth : Bool := false
  backoff : Bool := false
  agreed : Option Nat := none
  cmds : List Nat := []
  powerOff : Bool := false
  gaveUp : Bool := false
  acked : Option Bool := none
  deriving DecidableEq, Repr

/-- SLK block and the rack view (Table 21.4, R500-R515); `markers` counts the beacon markers sent on each port (R62, R510), `parts` holds
the messages that have arrived in part, by frame type times 256 plus source. -/
structure Slk where
  ctrl : W32 := 0x0008013F
  ports : Tbl SlkPort := []
  routeSel : Sided (BitVec 6) := ⟨0, 0⟩
  links : Tbl (BitVec 4) := []
  lats : Tbl W16 := []
  cuts : Tbl (BitVec 4) := []
  root : Bool := false
  rootId : Option (BitVec 6) := none
  rootCmd : Option (Nat × Sfc) := none
  upPort : BitVec 2 := 0
  enumAt : Option Sfc := none
  enumPort : Option (BitVec 2) := none
  enumAdopted : Nat := 0
  enumRefused : Nat := 0
  quillSeen : List (Nat × Nat) := []
  quillSeq : Nat := 0
  quietNodes : BitVec 64 := 0
  quietSent : Bool := false
  delivered : List LinkFrame := []
  markers : Tbl Nat := []
  parts : Tbl (List Byte) := []
  deriving DecidableEq, Repr

/-- A Quill trigger on its way over the sideband (R24, R530). -/
structure Trigger where
  source : BitVec 3
  tag : W16
  rack : Bool
  deriving DecidableEq, Repr

/-- OBS block (Table 22.4) and the Quill latch (R527-R536). -/
structure Obs where
  irqEn : W32 := 0
  err : BitVec 2 := 0
  offValid : Bool := false
  offMgr : Bool := false
  offAddr : BitVec 25 := 0
  offCnt : W32 := 0
  quillCtrl : W32 := 1
  armed : Bool := true
  snapSeq : W32 := 0
  snapSource : BitVec 3 := 0
  snapMask : BitVec 7 := 0
  snapRack : Bool := false
  snapDieOff : BitVec 4 := 0
  snapTag : W16 := 0
  snapOrigin : BitVec 6 := 0
  snapSfc : Sfc := 0
  snapLate : W32 := 0
  missed : W32 := 0
  outcomes : Tbl W32 := []
  tie : W32 := 0
  tlog : Tbl (List Byte) := []
  tlogHead : BitVec 10 := 0
  tlogCount : W32 := 0
  tlogIdx : Sided (BitVec 10) := ⟨0, 0⟩
  tlogData : Sided (List Byte) := ⟨[], []⟩
  copies : Tbl W32 := []
  dieLatch : BitVec 4 := 0
  upTriggers : List Trigger := []
  pinLow : Bool := false
  deriving DecidableEq, Repr

/-- IRQ block (R546): the MSI-X table, its pending bits, and per vector the messages sent. -/
structure Irq where
  table : Tbl W32 := []
  pending : BitVec 64 := 0
  sent : Tbl Nat := []
  deriving DecidableEq, Repr

/-- The state of one HX4064. -/
structure State where
  build : Build := {}
  glb : Glb := {}
  dies : Tbl Die := []
  tb : Tb := {}
  clk : Clk := {}
  pmu : Pmu := {}
  aon : Aon := {}
  rings : Tbl Ring := []
  gcp : Gcp := {}
  cmds : List Cmd := []
  tenants : Tbl (Option Tenant) := []
  images : Tbl (Option Image) := []
  streams : Tbl (Option Stream) := []
  jobs : Tbl (Option Job) := []
  cores : Tbl Core := []
  sch : Sch := {}
  epochs : Tbl Epoch := []
  rules : Tbl Rule := []
  pools : Tbl (Option Pool) := []
  kvShares : List (Nat × Pool) := []
  key : Key := {}
  memc : Memc := {}
  aud : Aud := {}
  caps : Tbl (Option Capture) := []
  cam : Cam := {}
  itk : Itk := {}
  slk : Slk := {}
  obs : Obs := {}
  irq : Irq := {}
  mem : List Host.Cell := []
  hostOut : List Host.Cell := []
  rdata : W64 := 0
  reply : List Byte := []
  fresh : Nat := 0
  pending : List Instr := []
  deriving DecidableEq, Repr

/-- The machine right after a cold reset by PORST_N on IOD revision 2, before the straps are latched: every field at its
default above (R46, R132, R140, Table 3.8, the Reset columns; the model's choices are logs 1, 2, 3, 6, 7). -/
def State.reset : State := {}

end Sys2Proof.Machine
end

