-- ==== Sys2Proof/Machine/Table.lean ====
section
/-!
DEFINITION. Sparse tables, bit fields and byte order: the plain-data helpers that every other file uses. A table lists its
entries by rising index and never lists the default, so that equal tables are equal data.
-/
namespace Sys2Proof.Machine

/-- The value at index `i`: the listed one, or the default `d`. -/
def tget {α : Type} (d : α) : Tbl α → Nat → α
  | [], _ => d
  | (k, v) :: t, i => if k = i then v else tget d t i

/-- The table with the entry `v` listed at index `i`, in its place. -/
def tput {α : Type} : Tbl α → Nat → α → Tbl α
  | [], i, v => [(i, v)]
  | (k, w) :: t, i, v => if k = i then (i, v) :: t else if i < k then (i, v) :: (k, w) :: t else (k, w) :: tput t i v

/-- The table with `v` at index `i`, in canonical form: an entry equal to the default is not listed. -/
def tset {α : Type} [DecidableEq α] (d : α) (t : Tbl α) (i : Nat) (v : α) : Tbl α :=
  if v = d then t.filter (fun e => e.1 ≠ i) else tput t i v

/-- The table with `f` applied at index `i`. -/
def tmod {α : Type} [DecidableEq α] (d : α) (t : Tbl α) (i : Nat) (f : α → α) : Tbl α :=
  tset d t i (f (tget d t i))

/-- Indexes rise strictly, every one above `lo`, and no entry equals the default. -/
def twfFrom {α : Type} [DecidableEq α] (d : α) : Nat → Tbl α → Bool
  | _, [] => true
  | lo, (k, v) :: t => decide (lo ≤ k) && decide (v ≠ d) && twfFrom d (k + 1) t

/-- The canonical form of a table. -/
def twf {α : Type} [DecidableEq α] (d : α) (t : Tbl α) : Bool := twfFrom d 0 t

/-- Folds a step over the numbers `0 … n-1` in rising order. -/
def forN {α : Type} (n : Nat) (f : Nat → α → α) (a : α) : α := (List.range n).foldl (fun x i => f i x) a

/-- The bits `lo … lo+len-1` of a number. -/
def bits (w lo len : Nat) : Nat := (w >>> lo) % 2 ^ len

/-- One bit of a number. -/
def bitN (w i : Nat) : Bool := w.testBit i

/-- The field `lo … lo+len-1` of a bit vector, as a number. -/
def fld {n : Nat} (w : BitVec n) (lo len : Nat) : Nat := bits w.toNat lo len

/-- One bit of a bit vector. -/
def bit {n : Nat} (w : BitVec n) (i : Nat) : Bool := w.getLsbD i

/-- A bit vector with one bit set. -/
def oneBit (n i : Nat) : BitVec n := BitVec.ofNat n (1 <<< i)

/-- A bit vector with bit `i` set as well. -/
def setBit {n : Nat} (w : BitVec n) (i : Nat) : BitVec n := w ||| oneBit n i

/-- A bit vector with bit `i` made `b`. -/
def putBit {n : Nat} (w : BitVec n) (i : Nat) (b : Bool) : BitVec n :=
  if b then w ||| oneBit n i else w &&& ~~~ oneBit n i

/-- A bit vector with the bits set in `m` cleared (W1C, R5). -/
def clearBits {n m : Nat} (w : BitVec n) (mask : BitVec m) : BitVec n := w &&& ~~~ (mask.setWidth n)

/-- A truth value as the bit `i` of a number. -/
def at_ (b : Bool) (i : Nat) : Nat := if b then 1 <<< i else 0

/-- The number of set bits among the lowest `n`. -/
def popcount (w n : Nat) : Nat := ((List.range n).filter (fun i => w.testBit i)).length

/-- Little-endian bytes to a number (R1). -/
def leNat : List Byte → Nat
  | [] => 0
  | b :: t => b.toNat + 256 * leNat t

/-- A number as `n` little-endian bytes (R1). -/
def toLe : Nat → Nat → List Byte
  | 0, _ => []
  | n + 1, v => BitVec.ofNat 8 v :: toLe n (v / 256)

/-- The `n` bytes of a list from offset `o`, zeros past its end. -/
def slice (l : List Byte) (o n : Nat) : List Byte :=
  let t := (l.drop o).take n
  t ++ List.replicate (n - t.length) 0

/-- The little-endian number in the `n` bytes from offset `o`. -/
def leAt (l : List Byte) (o n : Nat) : Nat := leNat (slice l o n)

/-- Are the `n` bytes from offset `o` all zero? -/
def zerosAt (l : List Byte) (o n : Nat) : Bool := (slice l o n).all (· == 0)

/-- A number below 2^n read as a two's complement integer. -/
def sgn (n v : Nat) : Int := if 2 * (v % 2 ^ n) < 2 ^ n then Int.ofNat (v % 2 ^ n) else Int.ofNat (v % 2 ^ n) - Int.ofNat (2 ^ n)

/-- An integer as the number of its `n`-bit two's complement. -/
def unsgn (n : Nat) (v : Int) : Nat := (v % (Int.ofNat (2 ^ n))).toNat

/-- An integer saturated to the signed range of `n` bits. -/
def satS (n : Nat) (v : Int) : Int :=
  let hi : Int := Int.ofNat (2 ^ (n - 1)) - 1
  if v > hi then hi else if v < -hi - 1 then -hi - 1 else v

/-- Rounded division to nearest, ties to even; the divisor is positive. -/
def rneDiv (a : Int) (b : Nat) : Int :=
  let q := a / Int.ofNat b
  let r := 2 * (a % Int.ofNat b)
  if r < Int.ofNat b then q else if r > Int.ofNat b then q + 1 else if q % 2 = 0 then q else q + 1

/-- Rounded-up division. -/
def ceilDiv (a b : Nat) : Nat := (a + b - 1) / b

/-- Replaces the first element that passes the test. -/
def replaceFirst {α : Type} (p : α → Bool) (f : α → α) : List α → List α
  | [] => []
  | x :: t => if p x then f x :: t else x :: replaceFirst p f t

/-- An element put into a sorted list before the first element that it does not come after. -/
def insertBy {α : Type} (le : α → α → Bool) (a : α) : List α → List α
  | [] => [a]
  | b :: t => if le a b then a :: b :: t else b :: insertBy le a t

/-- A list sorted, elements that tie in their order. -/
def sortBy {α : Type} (le : α → α → Bool) (l : List α) : List α := l.foldr (insertBy le) []

/-- The element `i` of a list of numbers, zero past its end. -/
def nthN (l : List Nat) (i : Nat) : Nat := l.getD i 0

/-- The element `i` of a list of integers, zero past its end. -/
def nthI (l : List Int) (i : Nat) : Int := l.getD i 0

end Sys2Proof.Machine
end

