-- ==== Sys2Proof/Machine/Flags.lean ====
section
/-!
DEFINITION. Flags and counters: the numbers that the spec gives outcomes, reason codes and faults; saturating counters; the
groups of OBS_ERR_SUMMARY; the MSI-X signal that a rising group raises.
-/
namespace Sys2Proof.Machine

/-- Outcome codes (Table 7.4). -/
def ocServed : BitVec 3 := 0
/-- SERVED_LATE (Table 7.4). -/
def ocLate : BitVec 3 := 1
/-- FALLBACK (Table 7.4). -/
def ocFallback : BitVec 3 := 2
/-- REFUSED (Table 7.4). -/
def ocRefused : BitVec 3 := 3
/-- FAILED (Table 7.4). -/
def ocFailed : BitVec 3 := 4
/-- TIMED_OUT (Table 7.4). -/
def ocTimedOut : BitVec 3 := 5
/-- ABORTED (Table 7.4). -/
def ocAborted : BitVec 3 := 6

/-! Reason codes (Table 7.6). -/
def rsNone : Nat := 0x0000
def rsBadHeader : Nat := 0x0101
def rsBadOpcode : Nat := 0x0102
def rsNotPrivileged : Nat := 0x0103
def rsNoTenant : Nat := 0x0104
def rsTenantMismatch : Nat := 0x0105
def rsBadClass : Nat := 0x0106
def rsBadParam : Nat := 0x0107
def rsBadDue : Nat := 0x0108
def rsParamFetch : Nat := 0x0109
def rsNoBudget : Nat := 0x0201
def rsTooManyStreams : Nat := 0x0202
def rsDieUnavailable : Nat := 0x0203
def rsNoMemory : Nat := 0x0204
def rsKvNoPage : Nat := 0x0205
def rsBadHandle : Nat := 0x0206
def rsDeadlinePassed : Nat := 0x0301
def rsTimer : Nat := 0x0302
def rsHostAbort : Nat := 0x0303
def rsWarmReset : Nat := 0x0304
def rsHibernate : Nat := 0x0305
def rsStreamOpen : Nat := 0x0401
def rsJobsActive : Nat := 0x0402
def rsNoWakeSource : Nat := 0x0403
def rsSaveNotRetained : Nat := 0x0404
def rsKeysLive : Nat := 0x0405
def rsThermalTrip : Nat := 0x0406
def rsThermalHold : Nat := 0x0407
def rsSupplyThrottle : Nat := 0x0408
def rsUnsupported : Nat := 0x0501
def rsDieLost : Nat := 0x0502
def rsTileFault : Nat := 0x0503
def rsDeadlock : Nat := 0x0504
def rsMemWindow : Nat := 0x0505
def rsConfigLocked : Nat := 0x0601
def rsTdiLocked : Nat := 0x0602
def rsKeyInvalid : Nat := 0x0603
def rsKeyLost : Nat := 0x0604
def rsImageFormat : Nat := 0x0605
def rsImageSignature : Nat := 0x0606
def rsNotRackTrusted : Nat := 0x0607
def rsRemoteLinkDown : Nat := 0x0701
def rsRemoteUnreachable : Nat := 0x0702
def rsOverrun : Nat := 0x0801
def rsBadBlock : Nat := 0x0802
def rsRouteBusy : Nat := 0x0803
def rsRouteInvalid : Nat := 0x0804
def rsNotBlockAligned : Nat := 0x0805
def rsUsbRate : Nat := 0x0806
def rsEpochAborted : Nat := 0x0901
def rsCaptureNoReturn : Nat := 0x0902
def rsCaptureDiverged : Nat := 0x0903

/-- The reason codes that some chapter states with FAILED (R178). -/
def failedReasons : List Nat :=
  [rsBadParam, rsThermalTrip, rsUnsupported, rsDieLost, rsTileFault, rsDeadlock, rsMemWindow, rsKeyInvalid, rsKeyLost] ++
  [rsRemoteLinkDown, rsRemoteUnreachable, rsEpochAborted, rsCaptureNoReturn, rsCaptureDiverged]

/-- The reason that a free word picks for a FAILED completion whose rule states none: one that some chapter states with FAILED
(R178; a free value, log 3). -/
def pickReason (w : Nat) : Nat := failedReasons.getD (w % failedReasons.length) rsDieLost

/-! Tile fault codes (Table 9.12). -/
def ftIllegalOp : Nat := 0x01
def ftRsvdField : Nat := 0x02
def ftFmtReserved : Nat := 0x03
def ftFmtMix : Nat := 0x04
def ftLmRange : Nat := 0x05
def ftLmReserved : Nat := 0x06
def ftAccRange : Nat := 0x07
def ftPcRange : Nat := 0x08
def ftLoopDepth : Nat := 0x09
def ftAlign : Nat := 0x0A
def ftMemWindow : Nat := 0x0B
def ftKeyInvalid : Nat := 0x0C
def ftKeyLost : Nat := 0x0D
def ftTbUnsupported : Nat := 0x0E
def ftCurveUnloaded : Nat := 0x0F
def ftEmptyWait : Nat := 0x10
def ftDesc : Nat := 0x11
def ftSpecViolation : Nat := 0x12

/-- The completion reason of a tile fault (Table 9.12). -/
def faultReason (code : Nat) : Nat :=
  if code = ftMemWindow then rsMemWindow
  else if code = ftKeyInvalid then rsKeyInvalid
  else if code = ftKeyLost then rsKeyLost
  else if code = ftTbUnsupported then rsUnsupported
  else if code = ftSpecViolation then rsEpochAborted
  else rsTileFault

/-- A counter that counts one event and stays at its maximum (R535). -/
def satInc {n : Nat} (w : BitVec n) : BitVec n := if w = BitVec.allOnes n then w else w + 1

/-- A counter that counts `k` events and stays at its maximum (R535). -/
def satAdd {n : Nat} (w : BitVec n) (k : Nat) : BitVec n :=
  if w.toNat + k ≥ 2 ^ n then BitVec.allOnes n else BitVec.ofNat n (w.toNat + k)

/-- A number as an `n`-bit field that saturates. -/
def satN (n k : Nat) : BitVec n := if k ≥ 2 ^ n then BitVec.allOnes n else BitVec.ofNat n k

/-- A core's default state. -/
def State.core (s : State) (c : Nat) : Core := tget {} s.cores c

/-- The device cores with CORE_ERR or CORE_QERR set (R525): the IOD's copy equals the core's own bits, since no access
reaches them while the bridge is not UP. -/
def State.errCores (s : State) : Nat :=
  (s.cores.filter (fun e => e.2.err || e.2.qerr)).foldl (fun m e => m ||| 1 <<< e.1) 0

/-- OBS_ERR_SUMMARY (Table 22.1, R524). -/
def State.summary (s : State) : BitVec 16 :=
  BitVec.ofNat 16 <|
    at_ (s.glb.bridgeErr ≠ 0) 0 + at_ (s.clk.err ≠ 0) 1 + at_ (s.tb.err ≠ 0) 2 + at_ (s.pmu.supErr ≠ 0) 3 +
    at_ (s.aon.err ≠ 0) 4 + at_ (s.rings.any (fun r => r.2.err ≠ 0)) 5 +
    at_ (s.sch.err ≠ 0 || s.sch.syncErr ≠ 0 || s.sch.specErr ≠ 0) 6 +
    at_ (s.cores.any (fun e => e.2.err || e.2.qerr)) 7 + at_ (s.aud.err ≠ 0) 8 + at_ (s.cam.err ≠ 0) 9 +
    at_ s.itk.err 10 + at_ (s.memc.err ≠ 0) 11 + at_ (s.key.err ≠ 0) 12 +
    at_ (s.slk.ports.any (fun p => p.2.err ≠ 0)) 13 + at_ (s.obs.err ≠ 0) 14 + at_ s.obs.offValid 15

/-- The reset value of MSI-X table word `i`: vector control (the fourth word of an entry) resets masked, as the PCI Express
Base Specification defines (R546). PRESUMED, log 15. -/
def msixReset (i : Nat) : W32 := if i % 4 = 3 then 1 else 0

/-- MSI-X table word `i` (R546). -/
def State.msixWord (s : State) (i : Nat) : W32 := tget (msixReset i) s.irq.table i

/-- Can the PCIe function reach the host: the link is up and bus mastering is enabled (R469)? -/
def State.hostUp (s : State) : Bool := s.memc.linkUp && s.memc.busMaster

/-- Signals MSI-X vector `v` (R170, R526, R546): a message where the function may send one, else the pending bit. -/
def State.msix (v : Nat) (s : State) : State :=
  if s.hostUp && s.memc.msixEnable && !bit (s.msixWord (4 * v + 3)) 0 then
    { s with irq.sent := tmod 0 s.irq.sent v (· + 1) }
  else { s with irq.pending := setBit s.irq.pending v }

/-- A group of OBS_ERR_SUMMARY that rose from `s` to `s'` while enabled signals the error vector (R526). -/
def State.rise (s s' : State) : State :=
  if s'.summary &&& ~~~ s.summary &&& s'.obs.irqEn.setWidth 16 ≠ 0 then s'.msix (fld s'.obs.irqEn 16 6) else s'

/-! Setting sticky bits: each sets bit `i` of one error register (RS, R5) and signals the rise (R526). -/

/-- GLB_BRIDGE_ERR (Table 2.13). -/
def State.errGlb (i : Nat) (s : State) : State := s.rise { s with glb.bridgeErr := setBit s.glb.bridgeErr i }
/-- CLK_PLL_ERR (Table 3.7). -/
def State.errClk (i : Nat) (s : State) : State := s.rise { s with clk.err := setBit s.clk.err i }
/-- TB_ERR (Table 3.2). -/
def State.errTb (i : Nat) (s : State) : State := s.rise { s with tb.err := setBit s.tb.err i }
/-- PMU_SUP_ERR (Table 5.5). -/
def State.errPmu (i : Nat) (s : State) : State := s.rise { s with pmu.supErr := setBit s.pmu.supErr i }
/-- AON_ERR (Table 6.5). -/
def State.errAon (i : Nat) (s : State) : State := s.rise { s with aon.err := setBit s.aon.err i }
/-- GCP_RINGn_ERR (Table 7.9). -/
def State.errRing (n i : Nat) (s : State) : State :=
  s.rise { s with rings := tmod {} s.rings n (fun r => { r with err := setBit r.err i }) }
/-- SCH_ERR (Table 8.5). -/
def State.errSch (i : Nat) (s : State) : State := s.rise { s with sch.err := setBit s.sch.err i }
/-- SCH_SYNC_ERR (Table 10.2). -/
def State.errSync (i : Nat) (s : State) : State := s.rise { s with sch.syncErr := setBit s.sch.syncErr i }
/-- SCH_SPEC_ERR (Table 16.7). -/
def State.errSpec (i : Nat) (s : State) : State := s.rise { s with sch.specErr := setBit s.sch.specErr i }
/-- CORE_ERR.FAULT (Table 9.13). -/
def State.errCore (c : Nat) (s : State) : State :=
  s.rise { s with cores := tmod {} s.cores c (fun x => { x with err := true }) }
/-- CORE_QERR (Table 11.7). -/
def State.errQuant (c : Nat) (s : State) : State :=
  s.rise { s with cores := tmod {} s.cores c (fun x => { x with qerr := true }) }
/-- AUD_ERR (Table 4.5). -/
def State.errAud (i : Nat) (s : State) : State := s.rise { s with aud.err := setBit s.aud.err i }
/-- CAM_ERR (Table 18.4). -/
def State.errCam (i : Nat) (s : State) : State := s.rise { s with cam.err := setBit s.cam.err i }
/-- ITK_ERR (Table 19.6). -/
def State.errItk (s : State) : State := s.rise { s with itk.err := true }
/-- MEM_ERR with MEM_FAULT_ADDR (Table 20.5, R469). -/
def State.errMem (i a : Nat) (s : State) : State :=
  s.rise { s with memc.err := setBit s.memc.err i, memc.faultAddr := BitVec.ofNat 40 a }
/-- KEY_ERR (Table 20.4). -/
def State.errKey (i : Nat) (s : State) : State := s.rise { s with key.err := setBit s.key.err i }
/-- SLK_PORTn_ERR (Table 21.4). -/
def State.errSlk (n i : Nat) (s : State) : State :=
  s.rise { s with slk.ports := tmod {} s.slk.ports n (fun p => { p with err := setBit p.err i }) }
/-- OBS_ERR (Table 22.4). -/
def State.errObs (i : Nat) (s : State) : State := s.rise { s with obs.err := setBit s.obs.err i }

/-- One tie resolved in favour of the arrival (R73, R535). -/
def State.tie (s : State) : State := { s with obs.tie := satInc s.obs.tie }

end Sys2Proof.Machine
end

