-- ==== Sys2Proof/Machine/Operands.lean ====
section
/-!
DEFINITION. Operand forms: the 64-byte command packet and its due word (Tables 7.2, 3.3), the opcode table (Table 7.5), stream
routes (Table 7.7), the fields of a 128-bit tile instruction (section 9.5) and of a sequencer instruction (Table 6.1).
-/
namespace Sys2Proof.Machine

/-! ### The command packet -/

/-- SEL of a due word (Table 3.3): 0 none, 1 SFC, 2 CLC, 3 MPC. -/
def dueSel (d : W64) : Nat := fld d 48 2
/-- KIND of a due word (Table 3.3): 0 AT, 1 NOT_BEFORE, 2 DEADLINE. -/
def dueKind (d : W64) : Nat := fld d 50 2
/-- VALUE of a due word (Table 3.3). -/
def dueVal (d : W64) : BitVec 48 := d.setWidth 48

/-- Does the due word name the given kind on some timebase? With SEL none, KIND and VALUE are ignored (R59). -/
def dueIs (d : W64) (kind : Nat) : Bool := dueSel d ≠ 0 && dueKind d == kind

/-- The timebase a due word selects. -/
def dueTb (d : W64) : Timebase := if dueSel d = 2 then .clc else if dueSel d = 3 then .mpc else .sfc

/-- The checks of R59, with the IOD revision for MPC (R39). -/
def dueCheck (rev : IodRev) (d : W64) : Option Nat :=
  if (fld d 52 12 ≠ 0) || (dueSel d ≠ 0 && dueKind d == 3) || (dueSel d == 2 && fld d 32 16 ≠ 0) then some rsBadDue
  else if dueSel d = 3 ∧ rev = .rev1 then some rsUnsupported
  else none

/-- What Table 7.5 says of an opcode: privileged, the classes allowed (bits 0 REALTIME, 1 INTERACTIVE, 2 BACKGROUND), and
whether it needs an existing tenant (DEDUCED, log 10: the opcodes that act on a tenant's own resources). -/
structure OpInfo where
  priv : Bool
  classes : Nat
  tenant : Bool
  deriving DecidableEq, Repr

/-- Table 7.5. -/
def opInfo (op : Nat) : Option OpInfo :=
  if op = 0x0001 ∨ op = 0x0002 ∨ op = 0x0080 then some ⟨false, 7, false⟩
  else if op = 0x0010 then some ⟨true, 7, false⟩
  else if op = 0x0011 ∨ op = 0x0012 then some ⟨true, 7, true⟩
  else if op = 0x0013 ∨ op = 0x0014 ∨ op = 0x00D0 then some ⟨false, 7, true⟩
  else if op = 0x0020 ∨ op = 0x0021 ∨ op = 0x0040 ∨ op = 0x0041 ∨ (0x0050 ≤ op ∧ op ≤ 0x0052) ∨ op = 0x00B0 then
    some ⟨false, 6, true⟩
  else if 0x0030 ≤ op ∧ op ≤ 0x0034 then some ⟨false, 1, true⟩
  else if op = 0x0060 ∨ op = 0x0070 ∨ (0x0071 ≤ op ∧ op ≤ 0x0073) ∨ op = 0x0090 ∨ op = 0x00A0 then some ⟨true, 7, false⟩
  else if op = 0x0061 then some ⟨true, 7, true⟩
  else if op = 0x00C0 ∨ op = 0x00C1 then some ⟨false, 4, true⟩
  else none

/-- The class that bits 11:10 of the tenant word name (Table 7.2). -/
def clsOf (n : Nat) : Cls := if n = 0 then .realtime else if n = 1 then .interactive else .background

/-- The number of a class (Table 7.2). -/
def clsNum : Cls → Nat
  | .realtime => 0
  | .interactive => 1
  | .background => 2

/-- PARAM_INDIRECT of a packet (Table 7.2). -/
def pktIndirect (p : List Byte) : Bool := bitN (leAt p 7 1) 0
/-- PARAM_LEN of a packet (Table 7.2). -/
def pktLen (p : List Byte) : Nat := leAt p 20 2
/-- The address of an indirect parameter block (Table 7.2). -/
def pktAddr (p : List Byte) : Nat := leAt p 24 8
/-- The tenant a packet names (Table 7.2). -/
def pktTenant (p : List Byte) : Nat := bits (leAt p 4 2) 0 10

/-- The header checks of Table 7.3 but its last line, in order; the ring's configuration is `cfg`. -/
def headerCheck (s : State) (cfg : W32) (p : List Byte) : Option Nat :=
  let tc := leAt p 4 2
  if bits tc 12 4 ≠ 0 ∨ bits (leAt p 6 1) 6 2 ≠ 0 ∨ bits (leAt p 7 1) 3 5 ≠ 0 ∨ zerosAt p 22 2 = false
      ∨ (pktIndirect p = false ∧ pktLen p > 40) ∨ bits tc 10 2 = 3
      ∨ (pktIndirect p = true ∧ (pktLen p = 0 ∨ zerosAt p 32 32 = false)) then some rsBadHeader
  else match opInfo (leAt p 0 2) with
    | none => some rsBadOpcode
    | some i =>
      if i.priv && !bit cfg 10 then some rsNotPrivileged
      else if !bit cfg 10 && pktTenant p ≠ fld cfg 16 10 then some rsTenantMismatch
      else if i.tenant && (tget none s.tenants (pktTenant p)).isNone then some rsNoTenant
      else if !bitN i.classes (bits tc 10 2) then some rsBadClass
      else dueCheck s.build.rev (BitVec.ofNat 64 (leAt p 8 8))

/-- The command that a packet from ring `n` spells, with its parameters (Table 7.2). -/
def cmdOf (id n : Nat) (p params : List Byte) : Cmd :=
  { id := id, sq := n, op := leAt p 0 2, tag := BitVec.ofNat 16 (leAt p 2 2), tenant := pktTenant p,
    cls := clsOf (bits (leAt p 4 2) 10 2), cq := bits (leAt p 6 1) 0 6, irq := bitN (leAt p 7 1) 1,
    fence := bitN (leAt p 7 1) 2, due := BitVec.ofNat 64 (leAt p 8 8), timeout := BitVec.ofNat 32 (leAt p 16 4),
    params := params }

/-- The `n`-byte parameter field at offset `o`. -/
def Cmd.p (c : Cmd) (o n : Nat) : Nat := leAt c.params o n

/-! ### Stream routes (Table 7.7) -/

/-- A route byte that names a USB channel. -/
def rtUsb (r : Nat) : Bool := bitN r 7
/-- The serial port of a route byte. -/
def rtPort (r : Nat) : Nat := bits r 4 2
/-- The slot of a route byte. -/
def rtSlot (r : Nat) : Nat := bits r 0 4
/-- The USB channel of a route byte. -/
def rtChan (r : Nat) : Nat := bits r 0 3
/-- Is a route byte well formed: bit 6 zero, and bits 5:3 zero for USB? -/
def rtOk (r : Nat) : Bool := !bitN r 6 && (!rtUsb r || bits r 3 3 == 0)

/-! ### Tile instructions (section 9.5) -/

/-- The opcode of a tile instruction. -/
def tOp (w : W128) : Nat := fld w 0 8
/-- The guard (Table 9.4). -/
def tGuard (w : W128) : Nat := fld w 8 4
/-- The 64-bit immediate of layouts S and Y. -/
def tImm (w : W128) : W64 := BitVec.ofNat 64 (fld w 64 64)

/-- The mask of bits from `lo` to `hi`. -/
def msk (lo hi : Nat) : Nat := (2 ^ (hi + 1 - lo) - 1) <<< lo

/-- The bits that an instruction's layout does not mark zero, opcode and guard included (R240, Tables 9.6 to 9.11, R246); `none` for an
opcode outside Table 9.5. A field that layout S or C gives to other opcodes is not marked zero and is ignored (DEDUCED, log 11). -/
def tLayout (op : Nat) : Option Nat :=
  let og := msk 0 11
  if op = 0x00 ∨ op = 0x12 then some og
  else if (0x01 ≤ op ∧ op ≤ 0x09) ∨ op = 0x0C then some (og + msk 16 45 + msk 64 127)
  else if 0x0A ≤ op ∧ op ≤ 0x0F then some (og + msk 16 31 + msk 40 45 + msk 64 127)
  else if op = 0x10 ∨ op = 0x11 then some (og + msk 12 14 + msk 16 19 + msk 32 47 + msk 64 95)
  else if op = 0x20 then some (og + msk 12 25 + msk 28 35 + msk 40 79)
  else if op = 0x21 then some (og + msk 16 31)
  else if op = 0x30 then some (og + msk 12 93)
  else if op = 0x40 then some (og + msk 12 27 + msk 32 47)
  else if op = 0x41 then some (og + msk 12 23 + msk 32 47)
  else if op = 0x42 then some (og + msk 12 27 + msk 32 56)
  else if op = 0x43 then some (og + msk 12 23 + msk 32 47 + msk 64 79)
  else if op = 0x44 then some (og + msk 12 15 + msk 20 23)
  else if 0x50 ≤ op ∧ op ≤ 0x53 then some (og + msk 12 19)
  else if op = 0x60 then some (og + msk 12 20 + msk 24 29 + msk 32 39 + msk 64 79)
  else if op = 0x61 then some (og + msk 12 13 + msk 16 20 + msk 64 79 + msk 96 127)
  else if op = 0x62 then some (og + msk 12 13 + msk 16 18 + msk 20 27 + msk 64 127)
  else if op = 0x63 then some (og + msk 16 18 + msk 20 21 + msk 24 27 + msk 64 127)
  else if op = 0x64 then some (og + msk 16 17 + msk 20 23)
  else if op = 0x65 then some (og + msk 16 21)
  else if op = 0x66 then some (og + msk 16 32)
  else none

/-- Is a register specifier legal (R242)? -/
def specOk (r : Nat) : Bool := r < 0x14 || (0x18 ≤ r && r < 0x1C)

/-- Reserved encodings that the word alone shows: register specifiers, enumeration values, a LEN of 0 (R240, R242, Tables 9.6
to 9.11). DEDUCED, log 11: like the reserved bits, they are checked before the guard. -/
def tFieldsOk (w : W128) : Bool :=
  let op := tOp w
  let d := fld w 16 8
  let a := fld w 24 8
  if 0x01 ≤ op ∧ op ≤ 0x09 then specOk d && specOk a && specOk (fld w 32 8)
  else if op = 0x0A then specOk d && specOk a
  else if op = 0x0B then specOk d
  else if op = 0x0C then 0x18 ≤ d && specOk d && specOk a && specOk (fld w 32 8) && fld w 40 4 ≤ 5
  else if op = 0x0D then 0x18 ≤ d && specOk d && specOk a && fld w 40 4 ≤ 5
  else if op = 0x0E ∨ op = 0x0F then specOk d && a < 0x10
  else if op = 0x11 then fld w 32 16 ≠ 0
  else if op = 0x20 then fld w 40 24 ≠ 0
  else if op = 0x40 then fld w 12 4 ≤ 6 && fld w 32 16 ≠ 0
  else if op = 0x41 then fld w 12 4 ≤ 7 && fld w 32 16 ≠ 0
  else if op = 0x42 then fld w 52 2 ≤ 2 && fld w 32 16 ≠ 0
  else if op = 0x43 then fld w 12 4 ≤ 2 && fld w 32 16 ≠ 0
  else if op = 0x44 then fld w 12 4 ≤ 7
  else if op = 0x60 then bit w 38 || fld w 32 6 = 0
  else if op = 0x62 then fld w 16 2 ≠ 0
  else if op = 0x63 then !(bit w 17 && fld w 20 2 = 0)
  else true

/-- Format codes 0xB–0xF are reserved (R240): FMT_A, FMT_B of MMA; the formats of VCVT. -/
def tFmtOk (w : W128) : Bool :=
  if tOp w = 0x30 then fld w 12 4 < 0xB && fld w 16 4 < 0xB
  else if tOp w = 0x42 then fld w 12 4 < 0xB && fld w 48 4 < 0xB
  else true

/-- The fault that the encoding alone raises, checked before the guard (R240). -/
def tEncFault (w : W128) : Option Nat :=
  match tLayout (tOp w) with
  | none => some ftIllegalOp
  | some m =>
    if w.toNat &&& m ≠ w.toNat then some ftRsvdField
    else if tGuard w ≠ 0 ∧ tGuard w < 8 then some ftRsvdField
    else if !tFieldsOk w then some ftRsvdField
    else if !tFmtOk w then some ftFmtReserved
    else none

/-! ### Sequencer instructions (Table 6.1) -/

/-- OP of a sequencer instruction. -/
def qOp (w : W32) : Nat := fld w 26 6
/-- D of a sequencer instruction. -/
def qD (w : W32) : Nat := fld w 22 4
/-- A of a sequencer instruction. -/
def qA (w : W32) : Nat := fld w 18 4
/-- B of a sequencer instruction, format R. -/
def qB (w : W32) : Nat := fld w 14 4
/-- IMM of a sequencer instruction, format I. -/
def qImm (w : W32) : Nat := fld w 0 18
/-- IMM sign-extended. -/
def qSext (w : W32) : W32 := BitVec.ofInt 32 (sgn 18 (qImm w))

/-- Does Table 6.2 hold the instruction, with every unused field zero (R150)? -/
def qLegal (w : W32) : Bool :=
  let op := qOp w
  let z := fld w 0 14 = 0
  if op = 0x00 ∨ op = 0x2F then z && qD w = 0 && qA w = 0 && qB w = 0
  else if 0x01 ≤ op ∧ op ≤ 0x0B then z
  else if 0x10 ≤ op ∧ op ≤ 0x12 then true
  else if op = 0x13 then qA w = 0
  else if 0x18 ≤ op ∧ op ≤ 0x1B then true
  else if 0x20 ≤ op ∧ op ≤ 0x23 then true
  else if op = 0x24 ∨ op = 0x28 ∨ op = 0x29 then qA w = 0
  else if op = 0x2C then qA w = 0 && fld w 12 6 = 0
  else if op = 0x25 then z && qD w = 0 && qB w = 0
  else if op = 0x2D then z && qB w = 0
  else if op = 0x2E then z
  else false

end Sys2Proof.Machine
end

