-- ==== Sys2Proof/Machine/Ops.lean ====
section
/-!
DEFINITION. The named operations over the state that the families share: byte memory, table accessors, timebases and compares
(section 3.3), wake sources (R118), routing and frames (section 21.4), status entries and completions (section 7.3). The part
has no exception entry: an error sets a sticky bit, completes a command or records a fault.
-/
namespace Sys2Proof.Machine

/-! ### Byte memory -/

/-- The byte at address `a`; an unlisted byte reads 0 (DESIGN CHOICE, log 2). -/
def mread (m : List Host.Cell) (a : Nat) : Byte := tget 0 m a

/-- The `n` bytes from address `a`. -/
def mreadN (m : List Host.Cell) (a n : Nat) : List Byte := (List.range n).map (fun i => mread m (a + i))

/-- The cells that list bytes from address `a`: zero bytes are not listed. -/
def cellsOf : Nat → List Byte → List Host.Cell
  | _, [] => []
  | a, b :: t => if b = 0 then cellsOf (a + 1) t else (a, b) :: cellsOf (a + 1) t

/-- The memory with bytes `bs` stored from address `a`, in canonical form: every store of the model goes through here. -/
def mwrite (m : List Host.Cell) (a : Nat) (bs : List Byte) : List Host.Cell :=
  m.filter (fun c => c.1 < a) ++ cellsOf a bs ++ m.filter (fun c => a + bs.length ≤ c.1)

/-- The memory with zeros from `a` up to and without `b`. -/
def mzero (m : List Host.Cell) (a b : Nat) : List Host.Cell := m.filter (fun c => c.1 < a || b ≤ c.1)

/-- The canonical form of a memory: addresses rise strictly and no zero byte is listed. -/
def Memory.wf (m : List Host.Cell) : Bool := twf (0 : Byte) m

/-- The little-endian word of `n` bytes at `a`. -/
def mreadLe (m : List Host.Cell) (a n : Nat) : Nat := leNat (mreadN m a n)

/-- A store to the device physical space without checks (hardware and firmware stores). -/
def State.poke (a : Nat) (bs : List Byte) (s : State) : State := { s with mem := mwrite s.mem a bs }

/-! ### The address map (Table 20.1) -/

/-- Where an address lies (Table 20.1). -/
inductive Region where
  | sram
  | dormouse
  | dm (d : Nat)
  | lpddr
  | host
  | none
  deriving DecidableEq, Repr

/-- Base of LPDDR. -/
def lpddrBase : Nat := 0x1000000000
/-- Base of the host window. -/
def hostBase : Nat := 0x8000000000
/-- Base of Dormouse SRAM. -/
def dormBase : Nat := 0x800000
/-- Base of the DM of die `d`. -/
def dmBase (d : Nat) : Nat := 0x1000000 + d * 0x1000000
/-- Bytes of DM on one die. -/
def dmSize : Nat := 0xC00000

/-- Installed LPDDR in bytes: none until training succeeded (R472). -/
def State.lpddrBytes (s : State) : Nat := if s.memc.trained then s.build.lpddrGib * 2 ^ 30 else 0

/-- The first byte past the LPDDR that jobs, engines and BAR2 reach: the highest 4 MiB are the firmware reserve (R116, R469). -/
def State.lpddrEnd (s : State) : Nat := lpddrBase + (s.lpddrBytes - 0x400000)

/-- The region of an address (Table 20.1). -/
def State.region (s : State) (a : Nat) : Region :=
  if a < 0x400000 then .sram
  else if dormBase ≤ a ∧ a < dormBase + 0x80000 then .dormouse
  else if 0x1000000 ≤ a ∧ a < 0x5000000 ∧ a % 0x1000000 < dmSize then .dm (a / 0x1000000 - 1)
  else if lpddrBase ≤ a ∧ a < s.lpddrEnd then .lpddr
  else if hostBase ≤ a ∧ a < 0x10000000000 then .host
  else .none

/-! ### Accessors -/

/-- Compute die `d`. -/
def State.die (s : State) (d : Nat) : Die := tget {} s.dies d
/-- The state with die `d` changed. -/
def State.modDie (d : Nat) (f : Die → Die) (s : State) : State := { s with dies := tmod {} s.dies d f }
/-- The state with core `c` changed. -/
def State.modCore (c : Nat) (f : Core → Core) (s : State) : State := { s with cores := tmod {} s.cores c f }
/-- Ring `n`. -/
def State.ring (s : State) (n : Nat) : Ring := tget {} s.rings n
/-- The state with ring `n` changed. -/
def State.modRing (n : Nat) (f : Ring → Ring) (s : State) : State := { s with rings := tmod {} s.rings n f }
/-- Tenant `t`, if created. -/
def State.tenant (s : State) (t : Nat) : Option Tenant := tget none s.tenants t
/-- Image `h`, if loaded. -/
def State.image (s : State) (h : Nat) : Option Image := tget none s.images h
/-- Stream `h`, if open or opening. -/
def State.stream (s : State) (h : Nat) : Option Stream := tget none s.streams h
/-- The state with stream `h` changed. -/
def State.modStream (h : Nat) (f : Stream → Stream) (s : State) : State :=
  { s with streams := tmod none s.streams h (fun o => o.map f) }
/-- Job `j`, if it exists. -/
def State.job (s : State) (j : Nat) : Option Job := tget none s.jobs j
/-- The state with job `j` changed. -/
def State.modJob (j : Nat) (f : Job → Job) (s : State) : State :=
  { s with jobs := tmod none s.jobs j (fun o => o.map f) }
/-- Epoch slot `e`. -/
def State.epoch (s : State) (e : Nat) : Epoch := tget {} s.epochs e
/-- The state with epoch slot `e` changed. -/
def State.modEpoch (e : Nat) (f : Epoch → Epoch) (s : State) : State := { s with epochs := tmod {} s.epochs e f }
/-- Cascade rule `r`. -/
def State.rule (s : State) (r : Nat) : Rule := tget {} s.rules r
/-- The state with rule `r` changed. -/
def State.modRule (r : Nat) (f : Rule → Rule) (s : State) : State := { s with rules := tmod {} s.rules r f }
/-- KV pool `h`. -/
def State.pool (s : State) (h : Nat) : Option Pool := tget none s.pools h
/-- Capture `k`. -/
def State.cap (s : State) (k : Nat) : Option Capture := tget none s.caps k
/-- The state with capture `k` changed. -/
def State.modCap (k : Nat) (f : Capture → Capture) (s : State) : State :=
  { s with caps := tmod none s.caps k (fun o => o.map f) }
/-- Key slot `i`. -/
def State.slot (s : State) (i : Nat) : KeySlot := tget {} s.key.slots i
/-- The state with key slot `i` changed. -/
def State.modSlot (i : Nat) (f : KeySlot → KeySlot) (s : State) : State :=
  { s with key.slots := tmod {} s.key.slots i f }
/-- Protection descriptor `i`. -/
def State.desc (s : State) (i : Nat) : Desc := tget {} s.key.descs i
/-- Audio port `n`. -/
def State.port (s : State) (n : Nat) : AudPort := tget {} s.aud.ports n
/-- The state with audio port `n` changed. -/
def State.modPort (n : Nat) (f : AudPort → AudPort) (s : State) : State :=
  { s with aud.ports := tmod {} s.aud.ports n f }
/-- Shusor port `n`. -/
def State.slp (s : State) (n : Nat) : SlkPort := tget {} s.slk.ports n
/-- The state with Shusor port `n` changed. -/
def State.modSlp (n : Nat) (f : SlkPort → SlkPort) (s : State) : State :=
  { s with slk.ports := tmod {} s.slk.ports n f }
/-- An outstanding command by identity. -/
def State.cmd (s : State) (id : Nat) : Option Cmd := s.cmds.find? (fun c => c.id == id)
/-- The state with command `id` changed. -/
def State.modCmd (id : Nat) (f : Cmd → Cmd) (s : State) : State :=
  { s with cmds := replaceFirst (fun c => c.id == id) f s.cmds }

/-- A value for the side that accesses (R54, R549). -/
def Sided.get {α : Type} (x : Sided α) : Side → α
  | .bar0 => x.bar0
  | .mgr => x.mgr
/-- A sided value with one side replaced. -/
def Sided.set {α : Type} (x : Sided α) (sd : Side) (v : α) : Sided α :=
  match sd with
  | .bar0 => { x with bar0 := v }
  | .mgr => { x with mgr := v }

/-- Is the build IOD revision 2, which has the MPC, 16 Gb/s lanes and system key slots (Table 2.8)? -/
def State.rev2 (s : State) : Bool := s.build.rev == .rev2
/-- Is the bridge of die `d` UP? -/
def State.dieUp (s : State) (d : Nat) : Bool := (s.die d).bridge == .up
/-- Is the traffic of die `d` held while its bridge retrains (R29)? -/
def State.dieHeld (s : State) (d : Nat) : Bool := (s.die d).bridge == .retrain
/-- Is the TDI CONFIG_LOCKED or RUN (R489)? -/
def State.tdiLocked (s : State) : Bool := s.key.tdi == .locked || s.key.tdi == .run
/-- Is the tenant confidential: its slot VALID with CONF (R479)? -/
def State.confidential (s : State) (t : Nat) : Bool := (s.slot t).valid && (s.slot t).conf
/-- Is any stream open on the part? -/
def State.openStreams (s : State) : Nat := s.streams.length
/-- The tenant's open streams. -/
def State.tenantStreams (s : State) (t : Nat) : List (Nat × Stream) :=
  s.streams.filterMap (fun e => e.2.bind (fun x => if x.tenant = t then some (e.1, x) else none))
/-- Is a capture in EXCITE (R47)? -/
def State.anyExcite (s : State) : Bool :=
  s.caps.any (fun e => match e.2 with | some c => c.exciting | none => false)

/-- The lowest free number from `i` on, among `n`. -/
def freeFrom {α : Type} (t : Tbl (Option α)) : Nat → Nat → Option Nat
  | 0, _ => none
  | n + 1, i => if (tget none t i).isNone then some i else freeFrom t n (i + 1)

/-- The lowest free number below `n` (DEDUCED, log 12: handles are the lowest free). -/
def freeIndex {α : Type} (t : Tbl (Option α)) (n : Nat) : Option Nat := freeFrom t n 0

/-- Draws the next free value: the counter after it (log 3). -/
def State.draw (s : State) : Nat × State := (s.fresh, { s with fresh := s.fresh + 1 })

/-! ### Time -/

/-- Frames per second at TB_CTRL.RATE (Table 3.2); the reserved codes are never stored. -/
def State.rateHz (s : State) : Nat :=
  match fld s.tb.ctrl 2 4 with
  | 0 => 44100
  | 1 => 48000
  | 2 => 88200
  | 3 => 96000
  | 4 => 176400
  | _ => 192000

/-- The width of a timebase in bits (Table 3.1). -/
def tbWidth : Timebase → Nat
  | .sfc => 48
  | .clc => 32
  | .mpc => 48

/-- The value of a timebase in the VALUE format of Table 3.3. -/
def State.tbNow (s : State) : Timebase → Nat
  | .sfc => s.tb.sfc.toNat
  | .clc => s.tb.clcFrame.toNat * 65536 + s.tb.clcLine.toNat
  | .mpc => s.tb.mpc.toNat

/-- The value a compare is evaluated against: SFC compares of a core use its die's copy (R57). -/
def State.tbFor (s : State) (tb : Timebase) (o : Owner) : Nat :=
  match tb, o with
  | .sfc, .core c => (s.die (c / 16)).sfcCopy.toNat
  | _, _ => s.tbNow tb

/-- Has a timebase that holds `now` reached `v` (R55)? -/
def tbReached (tb : Timebase) (now v : Nat) : Bool :=
  match tb with
  | .sfc => v ≤ now
  | .clc => (now + 2 ^ 32 - v % 2 ^ 32) % 2 ^ 32 < 2 ^ 31
  | .mpc => (now + 2 ^ 48 - v % 2 ^ 48) % 2 ^ 48 < 2 ^ 47

/-- The late count of R56: the held value minus `v`, modulo the width of the timebase. -/
def tbLate (tb : Timebase) (now v : Nat) : Nat := (now + 2 ^ tbWidth tb - v % 2 ^ tbWidth tb) % 2 ^ tbWidth tb

/-- Has the target been reached now, seen from the owner? -/
def State.reachedNow (s : State) (tb : Timebase) (o : Owner) (v : Nat) : Bool := tbReached tb (s.tbFor tb o) v

/-- A compare armed: one whose target is reached fires in the reference cycle of arming (R56). -/
def State.arm (tb : Timebase) (v : Nat) (o : Owner) (s : State) : State :=
  let now := s.tbFor tb o
  let v := v % 2 ^ tbWidth tb
  { s with tb.compares := s.tb.compares ++
      [{ tb := tb, target := BitVec.ofNat 48 v, owner := o,
         hit := if tbReached tb now v then some (tbLate tb now v, false) else none }] }

/-- The compares of one owner disarmed. -/
def State.disarm (o : Owner) (s : State) : State :=
  { s with tb.compares := s.tb.compares.filter (fun c => c.owner ≠ o) }

/-- Marks a compare whose timebase has just taken a new value. `exact`: every value up to it was held, so the compare fires
on its own value. -/
def Compare.mark (s : State) (tb : Timebase) (exact jumped : Bool) (c : Compare) : Compare :=
  let now := s.tbFor tb c.owner
  let late := if exact then 0 else tbLate tb now c.target.toNat
  if c.tb = tb ∧ c.hit = none ∧ tbReached tb now c.target.toNat then
    { c with hit := some (late, jumped && late ≠ 0) }
  else c

/-- Every armed compare on a timebase that has just taken a new value is tested against it (R55, R56). -/
def State.mark (tb : Timebase) (exact jumped : Bool) (s : State) : State :=
  { s with tb.compares := s.tb.compares.map (Compare.mark s tb exact jumped) }

/-- The SFC loaded with a value, a jump (R50): the dies with a bridge UP follow, SFC_SKIP is set and the compares are tested. -/
def State.sfcJump (v : Sfc) (s : State) : State :=
  let s1 := forN 4 (fun d s => if s.dieUp d then s.modDie d (fun x => { x with sfcCopy := v }) else s) { s with tb.sfc := v }
  (s1.mark .sfc false true).errTb 3

/-- Frames that pass in `t` RTC ticks (R51, R69). -/
def State.ticksToFrames (s : State) (t : Nat) : Nat := t * s.rateHz / 32768

/-! ### Wake sources (R118) -/

/-- Wake source `i` valid in the device state (Table 5.3). -/
def wakeValid (d : DevSt) (i : Nat) : Bool :=
  match d with
  | .run => false
  | .doze => i < 12
  | .torpor => i < 12
  | .hibernate => i < 12 && i ≠ 8 && i ≠ 10
  | .off => false

/-- A wake source fires: its pending bit sets; outside RUN an enabled source that is valid there starts the wake (R118). In OFF nothing
is powered (R117, R140). -/
def State.wakeFire (i : Nat) (s : State) : State :=
  if s.pmu.dev = .off then s else
  let s1 := { s with pmu.wakePend := setBit s.pmu.wakePend i }
  if s1.pmu.dev ≠ .run ∧ bit s1.pmu.wakeEn i ∧ wakeValid s1.pmu.dev i ∧ s1.pmu.wakeSource = none then
    { s1 with pmu.wakeSource := some i }
  else s1

/-! ### Routes and frames (section 21.4) -/

/-- Rack extents (R500). -/
def State.rackX (s : State) : Nat := fld s.slk.ctrl 0 3 + 1
/-- Rack extents (R500). -/
def State.rackY (s : State) : Nat := fld s.slk.ctrl 3 3 + 1
/-- This part's active NODE_ID. -/
def State.node (s : State) : Nat := s.glb.activeId.toNat

/-- The neighbour of a node in the direction of a port (R500). -/
def State.neighbour (s : State) (n p : Nat) : Nat :=
  let x := n % 8
  let y := n / 8
  if p = 0 then y * 8 + (x + 1) % s.rackX
  else if p = 1 then y * 8 + (x + s.rackX - 1) % s.rackX
  else if p = 2 then ((y + 1) % s.rackY) * 8 + x
  else ((y + s.rackY - 1) % s.rackY) * 8 + x

/-- Is the link on a port of a node UP, as this part knows it (R506)? -/
def State.linkUpAt (s : State) (n p : Nat) : Bool :=
  if n = s.node then (s.slp p).st == .up else bit (tget 0 s.slk.links n) p

/-- The ports and step count along one ring from `a` to `b` of `m` places, the shorter way or the longer (R506). -/
def ringSteps (plus minus a b m : Nat) (long : Bool) : List Nat :=
  let dx := (b + m - a) % m
  if dx = 0 then []
  else if (dx ≤ m - dx) != long then List.replicate dx plus else List.replicate (m - dx) minus

/-- The ports of candidate `k` (1–5) from node `n` to a destination (R506). -/
def State.candPorts (s : State) (n dst k : Nat) : List Nat :=
  let xs := fun l => ringSteps 0 1 (n % 8) (dst % 8) s.rackX l
  let ys := fun l => ringSteps 2 3 (n / 8) (dst / 8) s.rackY l
  if k = 1 then xs false ++ ys false
  else if k = 2 then ys false ++ xs false
  else if k = 3 then xs true ++ ys false
  else if k = 4 then ys true ++ xs false
  else xs true ++ ys true

/-- The nodes a port sequence passes, each with the port left on. -/
def State.hopsOf (s : State) : Nat → List Nat → List (Nat × Nat)
  | _, [] => []
  | n, p :: t => (n, p) :: s.hopsOf (s.neighbour n p) t

/-- Does the port hold its traffic: is it in a retrain that was requested, not in one after a give-up (R502, R504)? -/
def SlkPort.holds (q : SlkPort) : Bool := q.st == .retrain && !q.gaveUp

/-- Candidate `k` to a destination with its hops, when its links are all UP (R506), or (`hold`) the one on a port of this part holds its
traffic (R504). -/
def State.candRoute (s : State) (hold : Bool) (dst k : Nat) : Option (Nat × List (Nat × Nat)) :=
  let h := s.hopsOf s.node (s.candPorts s.node dst k)
  if dst % 8 < s.rackX && dst / 8 < s.rackY && h.all (fun e => s.linkUpAt e.1 e.2 || (hold && e.1 == s.node && (s.slp e.2).holds)) then
    some (k, h)
  else none

/-- The first candidate to a destination (R506). -/
def State.firstRoute (s : State) (hold : Bool) (dst : Nat) : Option (Nat × List (Nat × Nat)) :=
  (List.range 5).findSome? (fun k => s.candRoute hold dst (k + 1))

/-- The candidate that an unacknowledged or held frame of a source and destination pair takes (R504, R507). -/
def State.candInUse (s : State) (src dst : Nat) : Option Nat :=
  (List.range 4).findSome? (fun p => (((s.slp p).unacked ++ (s.slp p).held).find? (fun u =>
    u.cand != 0 && u.frame.src.toNat == src && u.frame.dst.toNat == dst)).map (·.cand))

/-- The route of a pair from this part on: the one in use while a frame of the pair is unacknowledged or held (R504, R507, R523), else the first
candidate whose links are all UP (R506), else one on a port that holds its traffic (R504; DEDUCED, log 136). -/
def State.routeOf (s : State) (src dst : Nat) : Option (Nat × List (Nat × Nat)) :=
  match (s.candInUse src dst).bind (s.candRoute true dst) with
  | some r => some r
  | none => (s.firstRoute false dst).or (s.firstRoute true dst)

/-- The route of this part to a destination. -/
def State.route (s : State) (dst : Nat) : Option (Nat × List (Nat × Nat)) := s.routeOf s.node dst

/-- The route of this part to a destination whose links are all UP (R506, R507). -/
def State.upRoute (s : State) (dst : Nat) : Option (Nat × List (Nat × Nat)) :=
  ((s.candInUse s.node dst).bind (s.candRoute false dst)).or (s.firstRoute false dst)

/-- The hops of the route of another node to a destination, as this part knows the links (R506). -/
def State.hopsFrom (s : State) (n dst : Nat) : Option (List (Nat × Nat)) :=
  (List.range 5).findSome? (fun k =>
    let h := s.hopsOf n (s.candPorts n dst (k + 1))
    if h.all (fun e => s.linkUpAt e.1 e.2) then some h else none)

/-- The links that a command's traffic takes: its route there, and the way back as this part knows the links (R502, R506; DEDUCED, log 128). -/
def State.bothWays (s : State) (n : Nat) (h : List (Nat × Nat)) : List (Nat × Nat) := h ++ (s.hopsFrom n s.node).getD []

/-- The ports in UP whose downstream part routes through this one to the beacon root (R510): its route to `root` begins with the link
back. -/
def State.downstream (s : State) (root : Nat) : List Nat :=
  (List.range 4).filter (fun p => (s.slp p).st == .up &&
    (let m := s.neighbour s.node p
     m ≠ root && (s.hopsFrom m root).any (fun h => h.head? == some (m, if p % 2 = 0 then p + 1 else p - 1))))

/-- The latency of a link in rc. -/
def State.linkLat (s : State) (n p : Nat) : Nat :=
  if n = s.node then (s.slp p).lat.toNat else (tget 0 s.slk.lats (4 * n + p)).toNat

/-- The path latency of R507. -/
def State.pathLat (s : State) (h : List (Nat × Nat)) : Nat :=
  (h.map (fun e => s.linkLat e.1 e.2)).sum + 12 * (h.length - 1)

/-- A frame handed to port `p` on candidate `k`: it takes the next sequence number and is kept until acknowledged (R501); while the
port is in a requested retrain it is held (R504). -/
def State.sendOn (k p : Nat) (f : LinkFrame) (s : State) : State :=
  let q := s.slp p
  let f := { f with seq := q.txSeq }
  if q.st == .up then
    s.modSlp p (fun q => { q with txSeq := q.txSeq + 1, unacked := q.unacked ++ [{ frame := f, cand := k }] })
  else if q.holds then s.modSlp p (fun q => { q with txSeq := q.txSeq + 1, held := q.held ++ [{ frame := f, cand := k }] })
  else s

/-- Does a port sequence cross the wrap link of a ring (R506)? -/
def State.crossesWrap (s : State) (h : List (Nat × Nat)) : Bool :=
  h.any (fun e => (s.neighbour e.1 e.2 < e.1) == (e.2 == 0 || e.2 == 2))

/-- A frame of this part for a destination, on the route's first port; `none` without a route, and for a CONF frame while RACK_TRUSTED is 0
(R513). -/
def State.sendTo (dst : Nat) (ty : Nat) (tenant : Nat) (conf : Bool) (payload : List Byte) (s : State) : Option State :=
  if conf && !s.key.rackTrusted then none else
  (s.route dst).bind (fun r => r.2.head?.map (fun e =>
    s.sendOn r.1 e.2 { ftype := BitVec.ofNat 8 ty, vc := if s.crossesWrap [e] then 1 else 0, src := BitVec.ofNat 8 s.node,
                       dst := BitVec.ofNat 8 dst, seq := 0, tenant := BitVec.ofNat 10 tenant, conf := conf,
                       payload := payload, crcOk := true }))

/-- A message as the payloads of its frames, of at most 256 bytes each (Table 21.1): byte 0 is `b0`, byte 1 holds `flags` in its low bit,
bit 1 while more follows, bit 2 in the first frame (layout: DESIGN CHOICE, log 14). -/
def msgParts (b0 flags : Nat) (body : List Byte) : List (List Byte) :=
  let n := Nat.max 1 (ceilDiv body.length 252)
  (List.range n).map (fun i =>
    let part := (body.drop (252 * i)).take 252
    toLe 1 b0 ++ toLe 1 (flags + at_ (i + 1 < n) 1 + at_ (i == 0) 2) ++ toLe 2 0 ++ part ++
      List.replicate (ceilDiv part.length 4 * 4 - part.length) 0)

/-- A message of this part for a destination, in as many frames as it needs; `none` without a route. -/
def State.sendMsg (dst ty tenant : Nat) (conf : Bool) (b0 flags : Nat) (body : List Byte) (s : State) : Option State :=
  (msgParts b0 flags body).foldl (fun o p => o.bind (State.sendTo dst ty tenant conf p)) (some s)

/-- A message between the part of a stream and the part that processes it (R220-R222; layout: DESIGN CHOICE, log 14): its kind, the handle
on the stream's part, a value, data. Kind 1 asks for admission, 2 answers with a reason (0: admitted) or reports a lost destination, 3 is
a block (the value its first frame), 4 its result, 5 the recurrent state for the destination, 6 the end of the processing (value 0) or a
request for the state (value 1), 7 that state; the kinds from 8 on are of spread KV pools (`tellPool`). -/
def streamMsg (kind h v : Nat) (data : List Byte) : List Byte := toLe 2 kind ++ toLe 2 h ++ toLe 4 0 ++ toLe 8 v ++ data

/-- A stream message sent to a part. -/
def State.sendStream (n : BitVec 6) (tenant kind h v : Nat) (data : List Byte) (s : State) : Option State :=
  s.sendMsg n.toNat 0 tenant (s.confidential tenant) 0 0 (streamMsg kind h v data)

/-- A stream message sent, if there is a route. -/
def State.tellStream (n : BitVec 6) (tenant kind h v : Nat) (data : List Byte) (s : State) : State :=
  (s.sendStream n tenant kind h v data).getD s

/-- A frame of a message: the whole body once its last frame has come. -/
def State.assemble (f : LinkFrame) (s : State) : State × Option (List Byte) :=
  let k := 256 * f.ftype.toNat + f.src.toNat
  let flags := leAt f.payload 1 1
  let body := (if bitN flags 2 then [] else tget [] s.slk.parts k) ++ f.payload.drop 4
  if bitN flags 1 then ({ s with slk.parts := tset [] s.slk.parts k body }, none)
  else ({ s with slk.parts := tset [] s.slk.parts k [] }, some body)

/-- A broadcast frame on virtual channel `vc` flooded over every port but one that is UP or holds its traffic (R504, R506, R511); it changes to VC 1
on the wrap link of a ring (R506). -/
def State.floodVc (vc : BitVec 8) (ty : Nat) (payload : List Byte) (except_ : Option Nat) (src : Nat) (s : State) : State :=
  forN 4 (fun p s => if ((s.slp p).st == .up || (s.slp p).holds) && except_ ≠ some p then
    s.sendOn 0 p { ftype := BitVec.ofNat 8 ty, vc := if s.crossesWrap [(s.node, p)] then 1 else vc, src := BitVec.ofNat 8 src, dst := 0xFF,
                   seq := 0, tenant := 0, conf := false, payload := payload, crcOk := true } else s) s

/-- A broadcast of this part. -/
def State.flood (ty : Nat) (payload : List Byte) (except_ : Option Nat) (src : Nat) (s : State) : State :=
  s.floodVc 0 ty payload except_ src

/-! ### The beacon downstream (R62, R510) -/

/-- A frame marker sent on every port whose downstream part routes through this one to the root (R62, R510): a control block, counted
for each port in the model's own `markers`. -/
def State.sendMarker (root : Nat) (s : State) : State :=
  { s with slk.markers := (s.downstream root).foldl (fun t p => tmod 0 t p (· + 1)) s.slk.markers }

/-- A BEACON_FULL frame with the full SFC value sent the same way to each neighbour (R62, Table 21.1; its path and its payload, the six bytes of the value
and two zero bytes, are a DESIGN CHOICE, log 107). -/
def State.sendFull (root : Nat) (v : Sfc) (s : State) : State :=
  (s.downstream root).foldl (fun s p => s.sendOn 0 p {
    ftype := 7, vc := if s.crossesWrap [(s.node, p)] then 1 else 0, src := BitVec.ofNat 8 root,
    dst := BitVec.ofNat 8 (s.neighbour s.node p), seq := 0, tenant := 0, conf := false,
    payload := toLe 6 v.toNat ++ toLe 2 0, crcOk := true }) s

/-! ### Status entries and completions -/

/-- The 32 bytes of a status entry (Table 7.4). -/
def Status.bytes (st : Status) (phase : Bool) : List Byte :=
  toLe 2 st.tag.toNat ++ toLe 2 st.op ++ toLe 2 (st.tenant + st.outcome.toNat * 1024 + at_ phase 15) ++
  toLe 2 st.reason.toNat ++ toLe 4 (Nat.min st.late 0xFFFFFFFF) ++ toLe 1 st.flags.toNat ++ toLe 1 st.sq ++
  toLe 2 (Nat.min st.preempts 0xFFFF) ++ toLe 6 st.sfc.toNat ++ toLe 2 0 ++ slice st.result 0 8

/-- The slots of a ring whose configuration is `cfg` (R165). -/
def ringSize (cfg : W32) : Nat := 2 ^ fld cfg 4 4

/-- Is the completion ring full: it holds at most size − 1 entries (R166)? -/
def Ring.cqFull (r : Ring) : Bool := (r.cqTail.toNat + 1) % ringSize r.cqCfg == r.cqHead.toNat

/-- The bytes of an entry written at its slot, in system SRAM or host memory (R165, R170); a failed PCIe write sets DMA_ERR. -/
def State.ringStore (cq : Nat) (loc : Bool) (a : Nat) (bs : List Byte) (s : State) : State :=
  if loc then (if a + bs.length ≤ 0x400000 then s.poke a bs else s)
  else if s.hostUp then { s with hostOut := mwrite s.hostOut a bs }
  else s.errRing cq 5

/-- A status entry written at TAIL with PHASE last, then the MSI-X signal (R170). -/
def State.writeEntry (cq : Nat) (st : Status) (s : State) : State :=
  let r := s.ring cq
  let t := (r.cqTail.toNat + 1) % ringSize r.cqCfg
  let s1 := s.ringStore cq (bit r.cqCfg 1) (r.cqBase.toNat + 32 * r.cqTail.toNat) (st.bytes r.phase)
  let s2 := s1.modRing cq (fun r => { r with cqTail := BitVec.ofNat 12 t, phase := if t = 0 then !r.phase else r.phase })
  if bit r.cqCfg 8 || st.irq then s2.msix cq else s2

/-- CQ_FULL_STALL on every command ring whose last-read command named the completion ring (R169). DEDUCED, log 13. -/
def State.stallRings (cq : Nat) (s : State) : State :=
  forN 64 (fun n s => if (s.ring n).lastCq = some cq && bit (s.ring n).sqCfg 0 then s.errRing n 2 else s) s

/-- A status entry produced (R534): discarded with NO_CQ when its ring is not enabled (R168), held when the ring is full
(R169), else written. -/
def State.postStatus (cq : Nat) (st : Status) (s : State) : State :=
  let s := { s with obs.outcomes := tmod 0 s.obs.outcomes st.outcome.toNat satInc }
  let r := s.ring cq
  if !bit r.cqCfg 0 then (if st.sq < 64 then s.errRing st.sq 4 else s)
  else if r.cqFull || !r.held.isEmpty then
    (s.modRing cq (fun r => { r with held := r.held ++ [st] })).stallRings cq
  else s.writeEntry cq st

/-- Held entries written while slots are free (R169). -/
def State.releaseHeld (cq : Nat) : Nat → State → State
  | 0, s => s
  | n + 1, s =>
    let r := s.ring cq
    match r.held with
    | [] => s
    | st :: t =>
      if r.cqFull then s
      else State.releaseHeld cq n ((s.modRing cq (fun r => { r with held := t })).writeEntry cq st)

/-- What a command completes with. -/
structure Done where
  oc : BitVec 3
  rs : Nat := 0
  late : Nat := 0
  skipped : Bool := false
  discarded : Bool := false
  result : List Byte := []
  deriving DecidableEq, Repr

/-- The status entry of a command (Table 7.4, R175). -/
def Cmd.status (c : Cmd) (d : Done) (sfc : Sfc) : Status :=
  { tag := c.tag, op := c.op, tenant := c.tenant, outcome := d.oc, reason := BitVec.ofNat 16 d.rs,
    late := d.late,
    flags := BitVec.ofNat 4 (at_ c.deferred 0 + at_ (c.preempts ≠ 0) 1 + at_ d.discarded 2 + at_ d.skipped 3),
    sq := c.sq, preempts := c.preempts, sfc := sfc, result := d.result, irq := c.irq }

/-- A produced entry of a command goes to its completion ring, or for a command that arrived in a CMD frame back in a CPL
frame whose payload is the ring number (4 bytes), the entry and the identity that the command has where it was read (R515, log 14). -/
def State.deliver (c : Cmd) (st : Status) (s : State) : State :=
  match c.proxied with
  | none => s.postStatus c.cq st
  | some n =>
    let pl := toLe 1 c.cq ++ toLe 3 (at_ c.irq 0) ++ st.bytes true ++ toLe 4 c.origin
    let s := { s with obs.outcomes := tmod 0 s.obs.outcomes st.outcome.toNat satInc }
    match s.sendTo n 3 c.tenant (s.confidential c.tenant) pl with
    | some t => t
    | none => s

/-- Is an epoch slot live (R395)? -/
def Epoch.live (e : Epoch) : Bool := e.st ≠ .free

/-- The command leaves the outstanding ones, with its compares. -/
def State.dropCmd (id : Nat) (s : State) : State :=
  { s with cmds := s.cmds.filter (fun c => c.id ≠ id),
           tb.compares := s.tb.compares.filter (fun c => c.owner ≠ .cmd id ∧ c.owner ≠ .timer id ∧ c.owner ≠ .snap id) }

/-- A command completes (R16): its entry is delivered, or held while its epoch is live and not aborting (R399, R402). -/
def State.finish (c : Cmd) (d : Done) (s : State) : State :=
  let st := c.status d s.tb.sfc
  let s1 := s.dropCmd c.id
  match c.epoch with
  | some e =>
    if (s1.epoch e).live then
      s1.modEpoch e (fun x => { x with held := x.held ++ [{ cq := c.cq, sq := c.sq, st := st, own := false }] })
    else s1.deliver c st
  | none => s1.deliver c st

/-- A command completes with an outcome and a reason and nothing else. -/
def State.complete (c : Cmd) (oc : BitVec 3) (rs : Nat) (s : State) : State := s.finish c { oc := oc, rs := rs }

/-- What a command that took effect completes with: SERVED, or SERVED_LATE when it was late: its AT value had been reached at arming, or a
jump skipped it (Table 3.4, R60, section 3.5's worked example). -/
def Cmd.servedDone (c : Cmd) (result : List Byte) : Done :=
  { oc := if c.late ≠ 0 then ocLate else ocServed, late := c.late, skipped := c.skipped, result := result }

/-- A command that took effect completes. -/
def State.served (c : Cmd) (result : List Byte) (s : State) : State := s.finish c (c.servedDone result)

/-- The CAPTURE_CTRL commands that waited for a step boundary complete (R422, R428). -/
def State.serveCtl (l : List (Nat × Nat)) (s : State) : State :=
  l.foldl (fun s e => match s.cmd e.1 with
    | some c => s.served c []
    | none => s) s

/-- A capture ends: its CAPTURE_START completes, then the CAPTURE_CTRL commands that waited for its next step boundary (R428). -/
def State.capEnd (k : Nat) (d : Cmd → Done) (s : State) : State :=
  match s.cap k with
  | none => s
  | some x =>
    let s1 := { s with caps := tset none s.caps k none }
    let s2 := match s1.cmd x.cmd with
      | some c => s1.finish c (d c)
      | none => s1
    s2.serveCtl x.ctl

/-- RESULT bytes 31:24 with two-byte field `v` at byte 24 (Table 7.5). -/
def res2 (v : Nat) : List Byte := toLe 8 (v % 65536)
/-- RESULT bytes 31:24 with a four-byte field at byte 24. -/
def res4 (v : Nat) : List Byte := toLe 8 (v % 2 ^ 32)

end Sys2Proof.Machine
end

