-- ==== Sys2Proof/Machine/Regs.lean ====
section
/-!
DEFINITION. Reading registers: the BAR0 map of chapter 24 and, for each register, the value a read returns (the register
tables of every chapter). Reading here has no side effect; what a read clears or latches stands in Quill.lean.
-/
namespace Sys2Proof.Machine

/-- A field value placed at bit `lo`. -/
def pl (v lo : Nat) : Nat := v <<< lo

/-- The code of a bridge state (Table 2.1). -/
def bridgeCode : Bridge → Nat
  | .off => 0
  | .training => 1
  | .idCheck => 2
  | .up => 3
  | .retrain => 4
  | .error => 5
  | .lost => 6

/-- The code of a die state (PMU_STATE.DIE_d). -/
def dieCode : DieSt → Nat
  | .on => 0
  | .sleep => 1
  | .off => 2
  | .waking => 3

/-- The code of a device state (PMU_MODE.TARGET). -/
def devCode : DevSt → Nat
  | .run => 0
  | .doze => 1
  | .torpor => 2
  | .hibernate => 3
  | .off => 4

/-- The code of a Shusor port state (Table 21.2). -/
def slkCode : SlkSt → Nat
  | .disabled => 0
  | .detect => 1
  | .trainBit => 2
  | .trainCfg => 3
  | .up => 4
  | .retrain => 5
  | .downNoPartner => 6
  | .error => 7

/-- The code of a TDI state (Table 20.3). -/
def tdiCode : Tdi → Nat
  | .unlocked => 0
  | .locked => 1
  | .run => 2
  | .error => 3

/-- The code of an epoch state (Table 16.3). -/
def epCode : EpSt → Nat
  | .free => 0
  | .opened => 1
  | .sealing => 2
  | .committing => 3
  | .aborting => 4

/-- GLB_CAPS (Table 2.9): 0x0008_3F31 or 0x000F_3F32 with the HX4064's package word. -/
def State.glbCaps (s : State) : Nat :=
  (if s.rev2 then 2 else 1) + pl 3 4 + pl (fld s.glb.pkgWord 0 4) 8 + pl (fld s.glb.pkgWord 4 4) 12 +
  at_ s.rev2 16 + at_ s.rev2 17 + at_ s.rev2 18 + at_ true 19

/-- GLB registers (Tables 2.6 to 2.13, 3.10, 3.11, 7.11). -/
def State.readGlb (s : State) (o : Nat) : Nat :=
  match o with
  | 0x100 => s.glbCaps
  | 0x104 => s.glb.bootMode.toNat + at_ s.glb.bootRsvd 3 + pl s.glb.nodeStrap.toNat 4
  | 0x108 => s.glb.activeId.toNat + at_ s.glb.overridden 8
  | 0x10C => s.glb.pkgWord.toNat
  | 0x110 => ((List.range 4).map (fun d => pl (bridgeCode (s.die d).bridge) (4 * d))).sum
  | 0x114 => s.glb.bridgeErr.toNat
  | 0x118 => s.glb.bridgeErr.toNat
  | 0x120 => s.glb.cause.toNat + pl s.glb.dieRst.toNat 8 + pl s.glb.hist.toNat 16
  | 0x124 => pl s.glb.dieRst.toNat 8 + pl s.glb.hist.toNat 16
  | 0x130 => s.glb.stage.toNat + pl s.glb.bootError.toNat 8 + at_ s.glb.ready 12 + pl s.glb.source.toNat 13
  | _ => 0

/-- TB registers (Table 3.2). The MPC registers read zero on IOD revision 1 (R39). -/
def State.readTb (s : State) (sd : Side) (o : Nat) : Nat :=
  match o with
  | 0x00 => s.tb.ctrl.toNat
  | 0x04 => s.tb.sfcActive.toNat + at_ s.tb.audLock 2 + at_ s.tb.wclkPresent 3 + at_ s.tb.beaconLock 4 + at_ s.tb.mpcLock 5
  | 0x08 => s.tb.err.toNat
  | 0x0C => s.tb.err.toNat
  | 0x10 => s.tb.sfc.toNat % 2 ^ 32
  | 0x14 => (s.tb.sfcShadow.get sd).toNat
  | 0x18 => s.tbNow .clc
  | 0x1C => if s.rev2 then (s.tb.mpcShadow.get sd).toNat else 0
  | 0x20 => if s.rev2 then s.tb.mpc.toNat % 65536 else 0
  | 0x24 => s.tb.comp.toNat
  | _ => 0

/-- CLK registers (Table 3.7). -/
def State.readClk (s : State) (o : Nat) : Nat :=
  match o with
  | 0 => s.clk.lock.toNat
  | 4 => s.clk.err.toNat
  | 8 => s.clk.err.toNat
  | _ => 0

/-- The reset value of PMU_DVFS_d (Table 5.5). -/
def dvfsReset : W32 := 0x3008
/-- The reset value of PMU_AVS_d (Table 5.5). -/
def avsReset : W32 := 0x3C00
/-- The reset value of PMU_SUPMON_n (Table 5.5). -/
def supmonReset : W32 := 0x0A28

/-- PMU registers (Table 5.5). -/
def State.readPmu (s : State) (o : Nat) : Nat :=
  match o with
  | 0x00 => s.pmu.mode.toNat
  | 0x04 => devCode s.pmu.dev + ((List.range 4).map (fun d => pl (dieCode (s.die d).power) (8 + 2 * d))).sum + at_ s.pmu.throttle 16
  | 0x08 => s.pmu.lastResult.toNat + pl s.pmu.lastState.toNat 2 + pl s.pmu.lastSource.toNat 8
  | 0x10 => s.pmu.wakeEn.toNat
  | 0x14 => s.pmu.wakePend.toNat
  | 0x18 => s.pmu.wakePend.toNat
  | 0x1C => s.pmu.retAon.toNat
  | 0x30 => s.pmu.autowake.toNat
  | 0x60 => s.pmu.pkgLimit.toNat
  | 0x64 => ((List.range 4).map (fun d => at_ (s.die d).pinned d + at_ (s.die d).pinDir (4 + d))).sum + at_ s.pmu.pkgOver 8
  | 0x70 => s.pmu.supErr.toNat
  | 0x74 => s.pmu.supErr.toNat
  | 0x80 => s.pmu.warnC.toNat
  | o =>
    if 0x20 ≤ o ∧ o < 0x30 then (tget 0 s.pmu.retDm ((o - 0x20) / 4)).toNat
    else if 0x40 ≤ o ∧ o < 0x60 then
      (if o % 8 = 0 then tget dvfsReset s.pmu.dvfs ((o - 0x40) / 8) else tget avsReset s.pmu.avs ((o - 0x40) / 8)).toNat
    else if 0x100 ≤ o ∧ o < 0x12C then (tget supmonReset s.pmu.supmon ((o - 0x100) / 4)).toNat
    else 0

/-- AON_DEC_HEAD0 as a read returns it: the oldest entry, VALID 0 when the FIFO is empty (R157). -/
def State.decHead (s : State) : Nat :=
  match s.aon.fifo with
  | [] => 0
  | e :: _ => e.det.toNat + pl e.level.toNat 4 + pl e.score.toNat 8 + at_ true 31

/-- The reset value of AON_CMP_INST and AON_CMP_MAINS (Table 6.5). -/
def cmpReset : W32 := 0x80
/-- The reset value of AON_T0_THR_k (Table 6.5). -/
def thrReset : W32 := 0xFFFF

/-- AON registers (Table 6.5). -/
def State.readAon (s : State) (sd : Side) (o : Nat) : Nat :=
  match o with
  | 0x00 => at_ s.aon.seq.run 0 + pl s.aon.seq.startPc.toNat 16
  | 0x04 => s.aon.seq.pc % 4096 + at_ s.aon.seq.halted 12 + at_ s.aon.seq.waiting 13 + pl s.aon.seq.fault.toNat 16
  | 0x10 => (tget cmpReset s.aon.cmp 0).toNat
  | 0x14 => (tget cmpReset s.aon.cmp 1).toNat
  | 0x40 => s.aon.pdmCtrl.toNat
  | 0x44 => s.aon.pdmBase.toNat
  | 0x48 => s.aon.pdmLen.toNat
  | 0x4C => s.aon.pdmWptr.toNat
  | 0x60 => s.aon.rtc.toNat % 2 ^ 32
  | 0x64 => (s.aon.rtcShadow.get sd).toNat
  | 0x68 => s.aon.almLo.toNat
  | 0x6C => s.aon.almHi.toNat + at_ s.aon.almEn 31
  | 0x70 => s.aon.period.toNat
  | 0x80 => s.aon.shrewFreq.toNat
  | 0x84 => s.aon.shrewFault.toNat + pl s.aon.shrewLayer.toNat 8 + at_ s.aon.shrewBusy 16
  | 0x120 => s.decHead
  | 0x124 => s.aon.head1.toNat
  | 0x128 => s.aon.drop.toNat
  | 0x180 => s.aon.err.toNat
  | 0x184 => s.aon.err.toNat
  | o =>
    if 0x20 ≤ o ∧ o < 0x30 then (tget 0 s.aon.wakepin ((o - 0x20) / 4)).toNat
    else if 0x100 ≤ o ∧ o < 0x120 then (tget thrReset s.aon.thr ((o - 0x100) / 4)).toNat
    else if 0x140 ≤ o ∧ o < 0x150 then (tget 0 s.aon.mboxIn ((o - 0x140) / 4)).toNat
    else if 0x150 ≤ o ∧ o < 0x160 then (tget 0 s.aon.mboxOut ((o - 0x150) / 4)).toNat
    else 0

/-- GCP registers (Table 7.9). -/
def State.readGcp (s : State) (o : Nat) : Nat :=
  if o < 0x1000 then
    let r := s.ring (o / 0x40)
    match o % 0x40 with
    | 0x00 => r.sqBase.toNat % 2 ^ 32
    | 0x04 => r.sqBase.toNat / 2 ^ 32
    | 0x08 => r.sqCfg.toNat
    | 0x0C => r.sqTail.toNat
    | 0x10 => r.sqHead.toNat
    | 0x14 => r.cqBase.toNat % 2 ^ 32
    | 0x18 => r.cqBase.toNat / 2 ^ 32
    | 0x1C => r.cqCfg.toNat
    | 0x20 => r.cqHead.toNat
    | 0x24 => r.cqTail.toNat
    | 0x28 => r.err.toNat
    | 0x2C => r.err.toNat
    | _ => 0
  else if o = 0x1000 then s.gcp.usbCfg.toNat
  else if o = 0x1004 then s.gcp.spiCfg.toNat
  else if o = 0x1010 then s.gcp.lateDrop.toNat
  else 0

/-- The density of the streams homed on core `c` of this part, a migration's second reservation included (R210, R220). -/
def State.coreDensity (s : State) (c : Nat) : Nat :=
  (s.streams.map (fun e => match e.2 with
    | none => 0
    | some x => (if x.core = c && x.remote.isNone then x.density else 0) +
        (match x.migr with | some m => if m.node.isNone && m.dest = c then m.density else 0 | none => 0))).sum

/-- The density a tenant uses (SCH_CTX_USED). -/
def State.tenantDensity (s : State) (t : Nat) : Nat :=
  ((s.tenantStreams t).map (fun e => e.2.density +
    (match e.2.migr with | some m => m.density | none => 0))).sum

/-- The frame-mover bytes a stream takes on its core (R233). -/
def Stream.fmBytes (x : Stream) : Nat := 2 ^ x.bLog2 * 4 * (x.chIn + x.chOut)

/-- The migration that moves the block whose input begins at `b` (R221). -/
def Stream.moves (x : Stream) (b : Nat) : Option Migr := x.migr.bind (fun m => if m.admitted ∧ m.switch_ ≤ b then some m else none)

/-- The core that processes block `b` of a stream (R210, R221). -/
def Stream.homeOf (x : Stream) (b : Nat) : Nat :=
  match x.moves b with
  | some m => m.dest
  | none => x.core

/-- The part that processes block `b`, when it is another one (R222). -/
def Stream.nodeOf (x : Stream) (b : Nat) : Option (BitVec 6) :=
  match x.moves b with
  | some m => m.node
  | none => x.remote

/-- Is the place that processes block `b` lost to a die reset, a trip or an unreachable part (R102, R223)? -/
def Stream.lostFor (x : Stream) (b : Nat) : Bool :=
  match x.moves b with
  | some m => m.lost
  | none => x.dieFb

/-- The LM buffers of block `b` (input, output). -/
def Stream.bufsOf (x : Stream) (b : Nat) : Nat × Nat :=
  match x.moves b with
  | some m => (m.inBuf, m.outBuf)
  | none => (x.inBuf, x.outBuf)

/-- CORE_FM_USED (Table 9.13). -/
def State.fmUsed (s : State) (c : Nat) : Nat :=
  (s.streams.map (fun e => match e.2 with
    | none => 0
    | some x => (if x.core = c && x.remote.isNone then x.fmBytes else 0) +
        (match x.migr with | some m => if m.node.isNone && m.dest = c then x.fmBytes else 0 | none => 0))).sum

/-- SCH_CORE_c.STATE (Table 8.5): a core whose bridge is not UP is unavailable; until the die's bridge has been UP or has failed the
register holds its reset value (R4; DEDUCED, log 108). -/
def State.coreState (s : State) (c : Nat) : Nat :=
  let x := s.core c
  if !s.dieUp (c / 16) then (if (s.die (c / 16)).seen then 5 else 0)
  else match x.phase with
    | .idle => 0
    | .running => if x.wait.isSome then 2 else 1
    | .saving => 3
    | .restoring => 4
    | .unavailable => 5

/-- The jobs of an epoch that have not ended. -/
def State.epochJobs (s : State) (e : Nat) : List (Nat × Job) :=
  s.jobs.filterMap (fun x => x.2.bind (fun j => if j.epoch = some e then some (x.1, j) else none))

/-- Hoard pages in use on die `d`. -/
def State.hoardUsed (s : State) (d : Nat) : Nat :=
  ((s.sch.ctxKept ++ s.epochs.flatMap (fun e => e.2.pages ++ e.2.ctxPages)).filter (fun p => p.die == d)).length

/-- Does a job wait within R272: SWAIT, DMAW, or WAIT without the compare event? -/
def Core.waitsQuietly (x : Core) : Bool :=
  x.phase == .running && match x.wait with
  | some w => w.op == 0x61 || w.op == 0x21 || (w.op == 0x63 && !bit w.word 17)
  | none => false

/-- The cores of a die. -/
def dieCores (d : Nat) : List Nat := (List.range 16).map (fun i => 16 * d + i)

/-- A wake of a die's cores within the horizon that the state shows (R272): a CLC or MPC compare, an SFC compare due within
SCH_DL_HORIZON, or an SWAIT deadline no longer than the horizon (log 16). -/
def State.wakeNear (s : State) (d : Nat) : Bool :=
  let us := s.sch.dlHorizon.toNat
  s.tb.compares.any (fun k => match k.owner with
    | .core c => c / 16 == d && (k.tb ≠ .sfc ||
        (k.target.toNat - s.tb.sfc.toNat) * 1000000 ≤ us * s.rateHz)
    | _ => false) ||
  (dieCores d).any (fun c => match (s.core c).wait with
    | some w => (match w.deadline with
      | some t => if bit t 31 then fld t 0 31 * 1000000 ≤ us * s.rateHz else fld t 0 31 ≤ us
      | none => false)
    | none => false)

/-- The context that a signal to core `c` of tenant `t` reaches (R265). -/
def State.sigTarget (s : State) (c t : Nat) : Option Nat :=
  match (s.core c).job.bind (fun j => (s.job j).map (fun x => (j, x))) with
  | some (j, x) => if x.tenant = t then some j else
      (tget none s.sch.dir c).bind (fun k => (s.job k).bind (fun y => if y.tenant = t then some k else none))
  | none => (tget none s.sch.dir c).bind (fun k => (s.job k).bind (fun y => if y.tenant = t then some k else none))

/-- The die to which a signal for a context of this part goes: that of the context's core, of its save slot, or of the core that it names
where it finds no context (R265, R266). -/
def State.sigDie (s : State) (g : Signal) : Option Nat :=
  let j := match g.target with
    | some j => some j
    | none => s.sigTarget g.core g.tenant
  match j.bind s.job with
  | some x => match x.st with
    | .running c => some (c / 16)
    | .saving c => some (c / 16)
    | .restoring c => some (c / 16)
    | _ => match s.region x.slotAddr with
      | .dm d => if x.epoch.isSome then none else some d
      | _ => none
  | none => some (g.core / 16)

/-- A dropped signal (R269): counted, with the bit of its reason. -/
def State.dropSignal (reason : Nat) (s : State) : State :=
  ({ s with sch.sigDrop := satInc s.sch.sigDrop }).errSync reason

/-- The signals on their way to a die whose bridge leaves UP are dropped as UNREACHABLE (R281). -/
def State.dropSignalsTo (d : Nat) (s : State) : State :=
  let hit := fun (g : Signal) => g.node.isNone && s.sigDie g == some d
  (s.sch.signals.filter hit).foldl (fun s _ => s.dropSignal 3) { s with sch.signals := s.sch.signals.filter (fun g => !hit g) }

/-- Does a transfer of core `c` reach the DM of die `d`, and so cross its bridge (R9)? -/
def State.dmaTouches (s : State) (d : Nat) (q : Dma) : Bool :=
  (List.range q.rows).any (fun i => (q.srcDev && s.region (q.src + i * q.sstr) == .dm d) || (q.dstDev && s.region (q.dst + i * q.dstr) == .dm d))

/-- Does save or restore traffic of core `c` reach the DM of die `d` (R272): its job's save slot, or its pages of the Hoard? -/
def State.saveTouches (s : State) (d c : Nat) : Bool :=
  ((s.core c).phase == .saving || (s.core c).phase == .restoring) &&
  ((s.core c).job.bind (fun j => (s.job j).map (fun x => (j, x)))).any (fun e => match e.2.epoch with
    | some k => (tget {} s.epochs k).ctxPages.any (fun p => p.target == e.1 && p.die == d)
    | none => if s.sch.ctxKept.any (fun p => p.target == e.1) then s.sch.ctxKept.any (fun p => p.target == e.1 && p.die == d)
      else s.region e.2.slotAddr == .dm d)

/-- Is die `d` a candidate (R272)? -/
def State.dieCandidate (s : State) (d : Nat) : Bool :=
  s.dieUp d && (dieCores d).any (fun c => (s.core c).waitsQuietly) &&
  (dieCores d).all (fun c => (s.core c).phase == .idle || (s.core c).phase == .unavailable || (s.core c).waitsQuietly) &&
  (dieCores d).all (fun c => (s.core c).dmas.isEmpty) &&
  (List.range 64).all (fun c => (s.core c).dmas.all (fun q => !s.dmaTouches d q) && !s.saveTouches d c) &&
  s.sch.heldDma.all (fun h => h.core / 16 ≠ d && !s.dmaTouches d h.dma) &&
  s.sch.signals.all (fun g => g.src / 16 ≠ d && (g.node.isSome || s.sigDie g ≠ some d)) && !s.wakeNear d

/-- Does die `d` hold no context: it breaks no quiet state (DEDUCED, log 16)? -/
def State.dieEmpty (s : State) (d : Nat) : Bool :=
  (dieCores d).all (fun c => (s.core c).phase == .idle || (s.core c).phase == .unavailable)

/-- The nodes reachable over Shusor. -/
def State.reachable (s : State) : List Nat :=
  (List.range 64).filter (fun n => n ≠ s.node && n % 8 < s.rackX && n / 8 < s.rackY && (s.upRoute n).isSome)

/-- Does a frame count as traffic: every one but the beacon's and the quiet-state exchange (R273, R512)? -/
def isTraffic (f : LinkFrame) : Bool := f.ftype ≠ 7 && !(f.ftype == 4 && f.payload.headD 0 == 1)

/-- Is this part quiet by itself (R273): its dies in ON, its IOD with no signal, bridge traffic that waits for a retrain or engine at work on
memory (a camera frame, an intake sample), its Shusor ports? -/
def State.quietHere (s : State) : Bool :=
  (List.range 4).all (fun d => !s.dieHeld d && (!s.dieUp d || s.dieCandidate d || s.dieEmpty d)) &&
  (List.range 4).any (fun d => s.dieCandidate d) && s.sch.signals.isEmpty && s.sch.heldDma.isEmpty && s.itk.run.isNone && s.cam.output.isEmpty &&
  (List.range 4).all (fun p => (s.slp p).unacked.all (fun u => !isTraffic u.frame) && (s.slp p).held.all (fun u => !isTraffic u.frame))

/-- Does the quiet test span the rack: RACK is set and a port is UP (R273)? -/
def State.quietRack (s : State) : Bool := s.sch.dlRack && (List.range 4).any (fun p => (s.slp p).st == .up)

/-- Is the part quiet (R273)? -/
def State.quiet (s : State) : Bool := s.quietHere && (!s.quietRack || s.reachable.all (fun n => bit s.slk.quietNodes n))

/-- The payload of a quiet-state frame (R273; layout: DESIGN CHOICE, log 14): kind 1, node, quiet. -/
def State.quietPayload (s : State) : List Byte := toLe 1 1 ++ toLe 1 s.node ++ toLe 2 (at_ s.quietHere 0)

/-- This part's quiet state, when it has changed, goes to the other parts, whatever its own RACK is (R273; when it goes is a DESIGN
CHOICE, log 120). -/
def State.tellQuiet (s : State) : State :=
  if (List.range 4).any (fun p => (s.slp p).st == .up) ∧ s.quietHere ≠ s.slk.quietSent then
    State.flood 4 s.quietPayload none s.node { s with slk.quietSent := s.quietHere }
  else s

/-- After a change of a link of the rack every part's quiet state counts as not known and is told anew (R273; log 120). -/
def State.quietAnew (s : State) : State := { s with slk.quietNodes := 0, slk.quietSent := false }

/-- SCH registers (Tables 8.5, 10.2, 16.7). -/
def State.readSch (s : State) (sd : Side) (o : Nat) : Nat :=
  let t := s.tenant (s.sch.ctxSel.get sd).toNat
  let tn := (s.sch.ctxSel.get sd).toNat
  let ep := s.epoch (s.sch.epSel.get sd).toNat
  let en := (s.sch.epSel.get sd).toNat
  match o with
  | 0x00 => s.sch.rtCap.toNat
  | 0x04 => s.openStreams
  | 0x10 => tn
  | 0x14 => match t with
    | none => 0
    | some x => 1 + pl x.slotsUsed.length 1 + pl (s.tenantStreams tn).length 16
  | 0x18 => match t with
    | none => 0
    | some x => x.rtDensity + pl x.intCores 16 + pl x.bgCores 24
  | 0x1C => if t.isSome then s.tenantDensity tn else 0
  | 0x20 => match t with
    | none => 0
    | some x => x.affinity.toNat % 2 ^ 32
  | 0x24 => match t with
    | none => 0
    | some x => x.affinity.toNat / 2 ^ 32
  | 0x200 => s.sch.affWait.toNat
  | 0x204 => s.sch.budgetWait.toNat
  | 0x208 => s.sch.preempts.toNat
  | 0x20C => s.sch.preemptMax.toNat
  | 0x210 => s.sch.err.toNat
  | 0x214 => s.sch.err.toNat
  | 0x300 => at_ s.sch.dlEn 0 + at_ s.sch.dlRack 1 + pl s.sch.dlWindow.toNat 8
  | 0x304 => s.sch.dlHorizon.toNat
  | 0x308 => ((List.range 4).map (fun d => at_ (s.dieCandidate d) d)).sum + at_ s.quiet 4
  | 0x30C => s.sch.dlCount.toNat
  | 0x310 => s.sch.syncErr.toNat
  | 0x314 => s.sch.syncErr.toNat
  | 0x318 => s.sch.dlLast.toNat % 2 ^ 32
  | 0x31C => s.sch.dlLast.toNat / 2 ^ 32
  | 0x320 => s.sch.sigDrop.toNat
  | 0x410 => en
  | 0x414 => epCode ep.st + pl ep.cause.toNat 4 + pl ep.tenant 8 + pl (s.epochJobs en).length 18
  | 0x418 => ep.number.toNat
  | 0x41C => (ep.pages.length + ep.ctxPages.length) + pl ep.limit 16
  | 0x420 => (ep.deadline.getD 0).toNat % 2 ^ 32
  | 0x424 => (ep.deadline.getD 0).toNat / 2 ^ 32
  | 0x430 => ((List.range 16).map (fun r => at_ (s.rule r).enabled r)).sum
  | 0x440 => s.sch.commits.toNat
  | 0x444 => s.sch.aborts.toNat
  | 0x448 => s.sch.discardCc.toNat
  | 0x44C => s.sch.specSnap.toNat
  | 0x450 => s.sch.launchBusy.toNat
  | 0x460 => s.sch.specErr.toNat
  | 0x464 => s.sch.specErr.toNat
  | o =>
    if 0x40 ≤ o ∧ o < 0x80 then
      match t with
      | none => 0
      | some x => match x.windows[(o - 0x40) / 8]? with
        | none => 0
        | some w => if o % 8 = 0 then (w.perm.toNat + w.base * 4096) % 2 ^ 32 else w.limit
    else if 0x100 ≤ o ∧ o < 0x200 then
      let c := (o - 0x100) / 4
      let j := (s.core c).job.bind s.job
      s.coreState c + pl (s.coreDensity c) 6 +
        (match j with | some j => pl (clsNum j.cls) 4 + pl j.tenant 16 | none => 0)
    else if 0x400 ≤ o ∧ o < 0x410 then
      (tget 0 s.sch.hoard ((o - 0x400) / 4)).toNat + pl (s.hoardUsed ((o - 0x400) / 4)) 16
    else 0

/-- KEY registers (Table 20.4). System slots read zero on IOD revision 1 (Table 2.11). -/
def State.readKey (s : State) (sd : Side) (o : Nat) : Nat :=
  let sel := (s.key.slotSel.get sd).toNat
  let k := s.slot sel
  let d := s.desc (s.key.descSel.get sd).toNat
  match o with
  | 0x00 => sel
  | 0x04 => at_ k.valid 0 + at_ k.conf 1 + at_ k.rot.isSome 2
  | 0x10 => (s.key.descSel.get sd).toNat
  | 0x14 => d.base
  | 0x18 => d.limit
  | 0x1C => at_ d.valid 0 + pl d.slot 16
  | 0x20 => match s.key.walk with
    | none => 0
    | some w => 1 + at_ s.key.paused 1 + pl w.slot 16
  | 0x24 => s.key.wm.toNat % 2 ^ 32
  | 0x28 => s.key.wm.toNat / 2 ^ 32
  | 0x30 => s.key.lostBase.toNat + at_ s.key.lost 31
  | 0x34 => s.key.lostLimit.toNat
  | 0x40 => tdiCode s.key.tdi + at_ s.key.rackTrusted 8
  | 0x50 => s.key.err.toNat
  | 0x54 => s.key.err.toNat
  | _ => 0

/-- MEM registers (Table 20.5). -/
def State.readMem (s : State) (o : Nat) : Nat :=
  match o with
  | 0x00 => if s.memc.trained then s.build.lpddrType.toNat + pl s.build.lpddrGib 8 + pl s.build.lpddrRate.toNat 16 else 0
  | 0x10 => s.memc.bar2Base.toNat
  | 0x20 => s.memc.err.toNat
  | 0x24 => s.memc.err.toNat
  | 0x28 => s.memc.faultAddr.toNat % 2 ^ 32
  | 0x2C => s.memc.faultAddr.toNat / 2 ^ 32
  | _ => 0

/-- Is a stream open for AUD_STRM_STATUS: it has started (R179)? -/
def Stream.isOpen (x : Stream) : Bool := x.started && x.guest.isNone

/-- AUD registers (Tables 4.4, 4.5). -/
def State.readAud (s : State) (sd : Side) (o : Nat) : Nat :=
  let h := (s.aud.strmSel.get sd).toNat
  let st := (s.stream h).bind (fun x => if x.isOpen then some x else none)
  if o < 0x80 then
    let p := s.port (o / 0x20)
    if o % 0x20 = 0 then p.ctrl.toNat
    else if o % 0x20 = 4 then at_ p.clkOk 0 + pl p.slips.toNat 8
    else 0
  else match o with
  | 0x100 => s.aud.mclk.toNat
  | 0x110 => s.aud.err.toNat
  | 0x114 => s.aud.err.toNat
  | 0x200 => h
  | 0x204 => match st with
    | none => 0
    | some x => 1 + at_ (x.fbRun.isSome || x.xfade.isSome) 1 + pl x.bLog2 8
  | 0x208 => match st with
    | none => 0
    | some x => x.fbBlocks.toNat
  | 0x20C => match st with
    | none => 0
    | some x => x.lastReason.toNat
  | _ => 0

/-- CAM registers (Table 18.4). -/
def State.readCam (s : State) (o : Nat) : Nat :=
  match o with
  | 0x00 => at_ s.cam.running 0 + pl s.cam.owner.toNat 2
  | 0x04 => s.cam.lanesHs.toNat + at_ s.cam.clkActive 4 + at_ s.cam.deskew 5
  | 0x08 => s.cam.lastSeq.toNat
  | 0x10 => s.cam.frameDrop.toNat
  | 0x14 => s.cam.pktDrop.toNat
  | 0x18 => s.cam.eccCorr.toNat
  | 0x20 => s.cam.err.toNat
  | 0x24 => s.cam.err.toNat
  | _ => 0

/-- ITK registers (Table 19.6). -/
def State.readItk (s : State) (o : Nat) : Nat :=
  match o with
  | 0x00 => match s.itk.run with
    | none => 0
    | some r => 1 + (match s.cmd r.cmd with | some c => pl c.tenant 2 | none => 0)
  | 0x40 => s.itk.trunc.toNat
  | 0x44 => s.itk.samples.toNat
  | 0x50 => at_ s.itk.err 0
  | 0x54 => at_ s.itk.err 0
  | o => if 0x14 ≤ o ∧ o ≤ 0x30 ∧ o % 4 = 0 then (tget 0 s.itk.corrupt ((o - 0x10) / 4)).toNat else 0

/-- SLK registers (Table 21.4). No route leads from the part to itself: SLK_ROUTE reads 0 for its own node (R4; DEDUCED, log 108). -/
def State.readSlk (s : State) (sd : Side) (o : Nat) : Nat :=
  if o = 0 then s.slk.ctrl.toNat
  else if 0x100 ≤ o ∧ o < 0x200 then
    let p := s.slp ((o - 0x100) / 0x40)
    match (o - 0x100) % 0x40 with
    | 0x00 => slkCode p.st + pl p.width.toNat 4 + at_ p.rate16 6 + at_ p.autoRetry 7 + pl p.partner.toNat 8 +
        pl p.attempts.toNat 16 + pl p.clashes.toNat 18
    | 0x04 => p.lat.toNat
    | 0x08 => p.replay.toNat
    | 0x0C => p.err.toNat
    | 0x10 => p.err.toNat
    | _ => 0
  else if o = 0x200 then (s.slk.routeSel.get sd).toNat
  else if o = 0x204 then
    let dst := (s.slk.routeSel.get sd).toNat
    match if dst = s.node then none else s.upRoute dst with
    | none => 0
    | some (k, h) => 1 + pl k 1 + (match h.head? with | some e => pl e.2 4 | none => 0) + pl h.length 8 +
        pl (Nat.min (s.pathLat h) 65535) 16
  else if o = 0x210 then at_ s.slk.root 0 + pl (s.slk.rootId.getD 0).toNat 8 + pl s.slk.upPort.toNat 16
  else if 0x220 ≤ o ∧ o < 0x320 then
    match (s.ring ((o - 0x220) / 4)).proxy with
    | none => 0x7F
    | some n => n.toNat
  else 0

/-- OBS registers (Table 22.4). -/
def State.readObs (s : State) (sd : Side) (o : Nat) : Nat :=
  match o with
  | 0x00 => s.summary.toNat
  | 0x04 => s.obs.irqEn.toNat
  | 0x08 => s.obs.err.toNat
  | 0x0C => s.obs.err.toNat
  | 0x10 => s.errCores % 2 ^ 32
  | 0x14 => s.errCores / 2 ^ 32
  | 0x20 => s.obs.offAddr.toNat / 65536 + at_ s.obs.offMgr 15 + at_ s.obs.offValid 31
  | 0x24 => s.obs.offAddr.toNat
  | 0x28 => s.obs.offCnt.toNat
  | 0x2C => at_ s.obs.offValid 31
  | 0x30 => s.obs.quillCtrl.toNat
  | 0x38 => at_ s.obs.armed 0
  | 0x40 => s.obs.snapSeq.toNat
  | 0x44 => s.obs.snapSource.toNat + pl s.obs.snapMask.toNat 8 + at_ s.obs.snapRack 15 + pl s.obs.snapDieOff.toNat 24
  | 0x48 => s.obs.snapTag.toNat + pl s.obs.snapOrigin.toNat 16
  | 0x4C => s.obs.snapSfc.toNat % 2 ^ 32
  | 0x50 => s.obs.snapSfc.toNat / 2 ^ 32
  | 0x54 => s.obs.snapLate.toNat
  | 0x60 => s.obs.missed.toNat
  | 0x8C => s.obs.tie.toNat
  | 0x90 => s.obs.tlogHead.toNat
  | 0x94 => s.obs.tlogCount.toNat
  | 0x98 => (s.obs.tlogIdx.get sd).toNat
  | o =>
    if 0x70 ≤ o ∧ o < 0x8C then (tget 0 s.obs.outcomes ((o - 0x70) / 4)).toNat
    else if 0xA0 ≤ o ∧ o < 0xC0 then leAt (s.obs.tlogData.get sd) (o - 0xA0) 4
    else 0

/-- IRQ registers: the MSI-X table and its pending bits (R546). -/
def State.readIrq (s : State) (o : Nat) : Nat :=
  if o < 0x400 then (s.msixWord (o / 4)).toNat
  else if o = 0x800 then s.irq.pending.toNat % 2 ^ 32
  else if o = 0x804 then s.irq.pending.toNat / 2 ^ 32
  else 0

/-- CORE_STATUS.WAITING (Table 9.13). -/
def Core.waiting (x : Core) : Nat :=
  match x.wait with
  | none => 0
  | some w => if w.op = 0x21 then 1 else if w.op = 0x61 then 2 else if w.op = 0x62 then 3 else if x.doze then 5 else 4

/-- Core registers (Tables 9.13, 10.3, 11.7). -/
def State.readCore (s : State) (c o : Nat) : Nat :=
  let x := s.core c
  match o with
  | 0x00 => x.div.toNat + at_ x.faultReset 4
  | 0x04 => at_ x.job.isSome 0 + pl x.waiting 1
  | 0x08 => x.pc
  | 0x0C => x.fault.toNat
  | 0x10 => x.faultPc.toNat
  | 0x14 => at_ x.err 0
  | 0x18 => at_ x.err 0
  | 0x20 => s.fmUsed c
  | 0x30 => x.instrs.toNat
  | 0x34 => x.cubeBusy.toNat
  | 0x38 => x.dozeRc.toNat
  | 0x40 => match x.wait with
    | some w => if w.op = 0x61 then fld w.word 16 5 + pl (fld w.word 64 16) 16 else 0
    | none => 0
  | 0x50 => at_ x.qerr 0
  | 0x54 => at_ x.qerr 0
  | o => if 0x80 ≤ o ∧ o < 0x100 ∧ x.job.isSome then (tget 0 x.sync ((o - 0x80) / 4)).toNat else 0

/-- Where a BAR0 offset lies: an IOD block, the CDM of a die, a core, or nothing (R545, R548). -/
inductive Place where
  | iod (b o : Nat)
  | cdm (d o : Nat)
  | core (c o : Nat)
  | none
  deriving DecidableEq, Repr

/-- The place of a BAR0 offset (Table 24.1, R545). -/
def placeOf (a : Nat) : Place :=
  if a < 0x100000 then .iod (a / 0x10000) (a % 0x10000)
  else if a < 0x1100000 then
    let d := (a - 0x100000) / 0x400000
    let r := (a - 0x100000) % 0x400000
    if r < 0x10000 then .cdm d r
    else if 0x100000 ≤ r ∧ r < 0x200000 then .core (16 * d + (r - 0x100000) / 0x10000) (r % 0x10000)
    else .none
  else .none

/-- The value a read of the register at an offset below 0x8000 of its place returns. -/
def State.readPlace (s : State) (sd : Side) (p : Place) : Nat :=
  match p with
  | .iod b o => (match b with
    | 0 => s.readGlb o
    | 1 => s.readTb sd o
    | 2 => s.readClk o
    | 3 => s.readPmu o
    | 5 => s.readAon sd o
    | 6 => s.readGcp o
    | 7 => s.readSch sd o
    | 8 => s.readKey sd o
    | 9 => s.readMem o
    | 10 => s.readAud sd o
    | 11 => s.readCam o
    | 12 => s.readItk o
    | 13 => s.readSlk sd o
    | 14 => s.readObs sd o
    | 15 => s.readIrq o
    | _ => 0)
  | .cdm d o => if o = 0 then (s.die d).posRaw.toNat + pl (fld (s.die d).posRaw 0 2) 3 + pl 3 8 else 0
  | .core c o => s.readCore c o
  | .none => 0

/-- The value a read returns, the snapshot copies included (R529): no off-block test. -/
def State.readRaw (s : State) (sd : Side) (a : Nat) : W32 :=
  match placeOf a with
  | .iod b o => if 0x8000 ≤ o ∧ b ≠ 15 then tget 0 s.obs.copies a else BitVec.ofNat 32 (s.readPlace sd (.iod b o))
  | .cdm d o => if 0x8000 ≤ o then tget 0 s.obs.copies a else BitVec.ofNat 32 (s.readPlace sd (.cdm d o))
  | .core c o => if 0x8000 ≤ o then tget 0 s.obs.copies a else BitVec.ofNat 32 (s.readPlace sd (.core c o))
  | .none => 0

/-! ### Listed offsets (R548) and the blocks that are off (R31, R130) -/

/-- Listed offsets of the IOD blocks (Tables 24.3 to 24.7). -/
def listedIod (b o : Nat) : Bool :=
  o % 4 = 0 &&
  (match b with
  | 0 => [0x100, 0x104, 0x108, 0x10C, 0x110, 0x114, 0x118, 0x120, 0x124, 0x128, 0x130, 0x134].contains o
  | 1 => o ≤ 0x24
  | 2 => o ≤ 8
  | 3 => [0, 4, 8, 0x10, 0x14, 0x18, 0x1C, 0x20, 0x24, 0x28, 0x2C, 0x30, 0x60, 0x64, 0x70, 0x74, 0x80].contains o ||
      (0x40 ≤ o && o < 0x60) || (0x100 ≤ o && o ≤ 0x128)
  | 5 => [0, 4, 0x10, 0x14, 0x20, 0x24, 0x28, 0x2C, 0x40, 0x44, 0x48, 0x4C, 0x60, 0x64, 0x68, 0x6C, 0x70, 0x80, 0x84, 0x120,
      0x124, 0x128, 0x180, 0x184].contains o || (0x100 ≤ o && o < 0x120) || (0x140 ≤ o && o < 0x160)
  | 6 => (o < 0x1000 && o % 0x40 ≤ 0x2C) || o = 0x1000 || o = 0x1004 || o = 0x1010
  | 7 => [0, 4, 0x10, 0x14, 0x18, 0x1C, 0x20, 0x24, 0x200, 0x204, 0x208, 0x20C, 0x210, 0x214, 0x430, 0x440, 0x444, 0x448,
      0x44C, 0x450, 0x460, 0x464].contains o || (0x40 ≤ o && o < 0x80) || (0x100 ≤ o && o < 0x200) ||
      (0x300 ≤ o && o ≤ 0x320) || (0x400 ≤ o && o ≤ 0x424)
  | 8 => [0, 4, 0x10, 0x14, 0x18, 0x1C, 0x20, 0x24, 0x28, 0x30, 0x34, 0x40, 0x50, 0x54].contains o
  | 9 => [0, 0x10, 0x20, 0x24, 0x28, 0x2C].contains o
  | 10 => (o < 0x80 && o % 0x20 ≤ 4) || [0x100, 0x110, 0x114, 0x200, 0x204, 0x208, 0x20C].contains o
  | 11 => [0, 4, 8, 0x10, 0x14, 0x18, 0x20, 0x24].contains o
  | 12 => o = 0 || (0x14 ≤ o && o ≤ 0x30) || [0x40, 0x44, 0x50, 0x54].contains o
  | 13 => o = 0 || (0x100 ≤ o && o < 0x200 && o % 0x40 ≤ 0x10) || [0x200, 0x204, 0x210].contains o || (0x220 ≤ o && o < 0x320)
  | 14 => [0, 4, 8, 0xC, 0x10, 0x14, 0x20, 0x24, 0x28, 0x2C, 0x30, 0x34, 0x38, 0x3C, 0x60, 0x8C, 0x90, 0x94, 0x98].contains o ||
      (0x40 ≤ o && o ≤ 0x54) || (0x70 ≤ o && o < 0x8C) || (0xA0 ≤ o && o < 0xC0)
  | 15 => o < 0x400 || o = 0x800 || o = 0x804
  | _ => false)

/-- Listed offsets of a core region (Table 24.8). -/
def listedCore (o : Nat) : Bool :=
  [0, 4, 8, 0xC, 0x10, 0x14, 0x18, 0x20, 0x30, 0x34, 0x38, 0x40, 0x50, 0x54].contains o || (o % 4 = 0 && 0x80 ≤ o && o < 0x100)

/-- The offset without its snapshot bit (R529); IRQ has no copies (R546). -/
def baseOff (o : Nat) : Nat := if 0x8000 ≤ o then o - 0x8000 else o

/-- Does a table of chapter 24 list the register at a BAR0 offset, or is it the snapshot copy of one? -/
def listed (a : Nat) : Bool :=
  match placeOf a with
  | .iod b o => if b = 15 then listedIod b o else listedIod b (baseOff o)
  | .cdm _ o => baseOff o = 0
  | .core _ o => listedCore (baseOff o)
  | .none => false

/-- Is the block at a BAR0 offset off: a die whose bridge is not UP (R31), or every block in OFF, every block but AON and PMU while
only the Dormouse island is powered (Table 5.1), or CAM_PHY_STATUS while the camera is stopped (R443)? Blocks gated when idle are never off (R130). -/
def State.offAt (s : State) (a : Nat) : Bool :=
  match placeOf a with
  | .iod b o => s.pmu.dev == .off || (s.pmu.dev == .hibernate && b ≠ 5 && b ≠ 3) ||
      (b = 11 && o = 4 && !s.cam.running && !s.pmu.woken.contains .cam)
  | .cdm d _ => !s.dieUp d
  | .core c _ => !s.dieUp (c / 16)
  | .none => false

/-- An access to a block that is off leaves its record (R130, R527). -/
def State.offAccess (sd : Side) (a : Nat) (s : State) : State :=
  if s.obs.offValid then { s with obs.offCnt := satInc s.obs.offCnt }
  else s.rise { s with obs.offValid := true, obs.offMgr := sd == .mgr, obs.offAddr := BitVec.ofNat 25 a }

end Sys2Proof.Machine
end

