-- ==== Sys2Proof/Machine/Quill.lean ====
section
/-!
DEFINITION. The Quill trigger and its latch (sections 22.3, 22.4), reading with its side effects (R5, R7, R54, R157), and the
rack trigger's frame (R511).
-/
namespace Sys2Proof.Machine

/-- Every listed register of the IOD but IRQ (R529, R546), by BAR0 offset. -/
def iodRegs : List Nat :=
  (List.range 15).flatMap (fun b => ((List.range 0x412).filter (fun i => listedIod b (4 * i))).map (fun i => b * 0x10000 + 4 * i))

/-- Every listed register of compute die `d`, by BAR0 offset. -/
def dieRegs (d : Nat) : List Nat :=
  let base := 0x100000 + d * 0x400000
  base :: (List.range 16).flatMap (fun c =>
    ((List.range 64).filter (fun i => listedCore (4 * i))).map (fun i => base + 0x100000 + c * 0x10000 + 4 * i))

/-- The snapshot copies of the given registers take what a read returns in `pre` (R529). -/
def State.latchFrom (s pre : State) (regs : List Nat) : State :=
  { s with obs.copies := regs.foldl (fun t a => tset 0 t (a + 0x8000)
      (BitVec.ofNat 32 (pre.readPlace .bar0 (placeOf a)))) s.obs.copies }

/-- The snapshot copies of the given registers read zero (R532). -/
def State.latchZero (regs : List Nat) (s : State) : State :=
  { s with obs.copies := regs.foldl (fun t a => tset 0 t (a + 0x8000) 0) s.obs.copies }

/-- A Quill trigger at its latch (Table 22.2): source, mask of the sources that take part, tag, originator, whether it spans the
rack, the late count, whether every die latches on its own SFC compare (R530), and the other sources that take part (R538). -/
structure Quill where
  source : Nat
  tag : W16 := 0
  origin : Nat
  rack : Bool := false
  late : Nat := 0
  onCompare : Bool := false
  also : BitVec 7 := 0
  deriving DecidableEq, Repr

/-- The dies whose bridge is not UP (R532). -/
def State.diesOff (s : State) : BitVec 4 :=
  BitVec.ofNat 4 ((List.range 4).map (fun d => at_ (!s.dieUp d) d)).sum

/-- Compute-die copies at a latch: on an SFC compare every die latches with the IOD; a trigger of the IOD reaches the dies
over the sideband (R24, R530); the copies of a die that is off read zero (R532). -/
def State.latchDies (s pre : State) (onCompare : Bool) : State :=
  forN 4 (fun d s =>
    if !pre.dieUp d then s.latchZero (dieRegs d)
    else if onCompare then s.latchFrom pre (dieRegs d)
    else { s with obs.dieLatch := setBit s.obs.dieLatch d }) s

/-- The SNAPSHOT commands that wait for their own trigger. -/
def State.snapWaiters (s : State) : List Nat :=
  s.tb.compares.filterMap (fun c => match c.owner with | .snap id => some id | _ => none)

/-- With ARMED cleared, every SNAPSHOT that still waits completes FAILED / JOBS_ACTIVE (R528). -/
def State.failSnaps (s : State) : State :=
  s.snapWaiters.foldl (fun s id => match s.cmd id with
    | some c => s.complete c ocFailed rsJobsActive
    | none => s) s

/-- The latch of R531: sequence number, record, ARMED, the copies from `pre`, SNAP_OFF (which a stopped
camera does not set, R532; DESIGN CHOICE, log 127), and the QUILL ball (R533). -/
def State.latch (s pre : State) (q : Quill) : State :=
  let off := pre.diesOff
  let s1 := s.latchFrom pre iodRegs
  let s2 := s1.latchDies pre q.onCompare
  let s3 := { s2 with
    obs.snapSeq := s2.obs.snapSeq + 1, obs.snapSource := BitVec.ofNat 3 q.source, obs.snapMask := oneBit 7 q.source ||| q.also,
    obs.snapRack := q.rack, obs.snapDieOff := off, obs.snapTag := q.tag, obs.snapOrigin := BitVec.ofNat 6 q.origin,
    obs.snapSfc := pre.tb.sfc, obs.snapLate := satN 32 q.late,
    obs.armed := !bit s2.obs.quillCtrl 0, obs.pinLow := s2.obs.pinLow || bit s2.obs.quillCtrl 14 }
  if off ≠ 0 then s3.errObs 1 else s3

/-- A trigger: while ARMED is 0 it is counted as missed, else it latches, and a SNAPSHOT that waits for another trigger fails
once ARMED is clear (R528, R531). `pre` is the state before the cycle's events (R529). -/
def State.quill (s pre : State) (q : Quill) : State :=
  if s.obs.armed then
    let t := s.latch pre q
    if t.obs.armed then t else t.failSnaps
  else ({ s with obs.missed := satInc s.obs.missed }).errObs 0

/-- A trigger raised in a compute die is on its way to the IOD over the sideband (R24, R530). -/
def State.quillUp (source : Nat) (tag : W16) (rack : Bool) (s : State) : State :=
  { s with obs.upTriggers := s.obs.upTriggers ++ [{ source := BitVec.ofNat 3 source, tag := tag, rack := rack }] }

/-- The payload of a QUILL frame (R511): originator, tag, sequence number, target (layout: DESIGN CHOICE, log 14). -/
def quillPayload (origin : Nat) (tag : W16) (seq v : Nat) : List Byte :=
  toLe 2 origin ++ toLe 2 tag.toNat ++ toLe 4 seq ++ toLe 6 v ++ toLe 2 0

/-- A rack trigger is flooded with its target value (R511). -/
def State.floodQuill (tag : W16) (v : Nat) (s : State) : State :=
  let s1 := { s with slk.quillSeq := s.slk.quillSeq + 1 }
  s1.flood 5 (quillPayload s.node tag s1.slk.quillSeq v) none s.node

/-- The target of a rack trigger raised now: the SFC plus QUILL_LEAD frames (R511). -/
def State.quillLead (s : State) : Nat := (s.tb.sfc.toNat + fld s.slk.ctrl 16 8) % 2 ^ 48

/-- A trigger of the IOD: rack-wide ones are flooded and latch on the SFC compare of their target (R511, R530), others
latch now. -/
def State.trigger (s pre : State) (source : Nat) (tag : W16) (rack : Bool) : State :=
  if rack then
    (s.floodQuill tag s.quillLead).arm .sfc s.quillLead (.quill source s.glb.activeId tag)
  else s.quill pre { source := source, tag := tag, origin := s.node }

/-- A FAULT trigger of the IOD when FAULT_EN bit `i` is set (Table 22.2). -/
def State.faultTrig (s pre : State) (i : Nat) : State :=
  if bit s.obs.quillCtrl (4 + i) then s.trigger pre 2 0 false else s

/-! ### Accesses that AUTOWAKE stalls (R31, R45, R131) -/

/-- The block of PMU_AUTOWAKE that a BAR0 offset belongs to (Table 5.5). -/
def wakeBlockOf (a : Nat) : Option WakeBlock :=
  match placeOf a with
  | .iod b o =>
    if b = 11 then some .cam
    else if b = 12 then some .itk
    else if b = 13 ∧ 0x100 ≤ baseOff o ∧ baseOff o < 0x200 then some (.slk (Fin.ofNat 4 ((baseOff o - 0x100) / 0x40)))
    else none
  | .cdm d _ => some (.die (Fin.ofNat 4 d))
  | .core c _ => some (.die (Fin.ofNat 4 (c / 16)))
  | .none => none

/-- The bit of a block in PMU_AUTOWAKE (Table 5.5). -/
def wakeBlockBit (b : WakeBlock) : Nat :=
  match b with
  | .die d => d.val
  | .cam => 4
  | .itk => 5
  | .slk n => 6 + n.val

/-- May an access bring die `d` up (R31, R123, R131, R138): it is down because of a power state, or on its way up; it is populated (R34),
has not tripped, and its bridge is not in ERROR or LOST? -/
def State.dieWakes (s : State) (d : Nat) : Bool :=
  let x := s.die d
  (x.stateOff || x.power == .waking) && bit s.glb.pkgWord d && !x.tripped && x.bridge ≠ .error && x.bridge ≠ .lost

/-- The block that an access to an off block wakes, AUTOWAKE being set for it (R31, R131). -/
def State.wakes (s : State) (a : Nat) : Option WakeBlock :=
  (wakeBlockOf a).filter (fun b => bit s.pmu.autowake (wakeBlockBit b) &&
    (match b with | .die d => s.dieWakes d.val | _ => true))

/-- A stalled access completes as an access to an off block (R45, R130). -/
def State.stallFail (a : Stalled) (s : State) : State :=
  let s1 := { s.offAccess a.side a.off.toNat with pmu.stalled := s.pmu.stalled.erase a }
  if a.w.isNone then { s1 with rdata := 0x0FF00FF0 } else s1

/-- The accesses that stall on a die whose bring-up has failed complete as accesses to an off block (R45). -/
def State.stallsFail (d : Nat) (s : State) : State :=
  (s.pmu.stalled.filter (fun a => match a.block with | .die k => k.val == d | _ => false)).foldl (fun s a => s.stallFail a) s

/-- The bridge of a die in a state (Table 2.1): OFF, ERROR and LOST unlock its PLLs; ERROR and LOST end the accesses that wait for the
die (R45). A die that leaves UP is reached by no signal that was on its way (R281). -/
def State.bridgeTo (d : Nat) (b : Bridge) (s : State) : State :=
  let bad : Bool := b == .error || b == .lost
  let s1 := { s.modDie d (fun x => { x with bridge := b, seen := x.seen || bad }) with
      clk.lock := if b = .off ∨ bad then putBit (putBit s.clk.lock (8 + 2 * d) false) (9 + 2 * d) false else s.clk.lock }
  let s2 := if b = .up ∨ b = .retrain then s1 else s1.dropSignalsTo d
  if bad then s2.stallsFail d else s2

/-- A die is brought ON (R28, R109, R555): from OFF its regulator is turned on first; then its bridge trains. A die that the package does
not hold is never powered (R34), a tripped one comes back by POWER_STATE alone (R123), no request restarts a LOST bridge (R31). -/
def State.dieOn (d : Nat) (s : State) : State :=
  let x := s.die d
  if !bit s.glb.pkgWord d ∨ x.tripped ∨ x.power = .on ∨ x.power = .waking ∨ x.bridge = .lost then s
  else if x.regulator then
    (s.bridgeTo d .off).modDie d (fun x => { x with power := .waking, stateOff := false, bridge := .training, attempts := 0 })
  else s.modDie d (fun x => { x with power := .waking, stateOff := false })

/-- A block begins to wake for an access (R31, R131, R138): a die in SLEEP or OFF is brought up and keeps what it returns to. -/
def State.autowake (b : WakeBlock) (s : State) : State :=
  match b with
  | .die d =>
    let x := s.die d.val
    if x.power = .sleep ∨ x.power = .off then (s.dieOn d.val).modDie d.val (fun y => { y with autoPrev := some x.power })
    else s
  | w => if s.pmu.woken.contains w then s else { s with pmu.woken := s.pmu.woken ++ [w] }

/-- An access to an off block that AUTOWAKE covers stalls behind those before it, and the block wakes (R131). -/
def State.stall (sd : Side) (a : Nat) (w : Option W32) (b : WakeBlock) (s : State) : State :=
  State.autowake b { s with pmu.stalled := s.pmu.stalled ++ [{ side := sd, off := BitVec.ofNat 25 a, w := w, block := b }] }

/-! ### Reading with its effects -/

/-- An RC counter after the read: what the event of the same cycle leaves (R7): the counts it adds, or the value that it records. -/
def rcNext {n : Nat} (ev : Nat) : BitVec n := satN n ev

/-- What a read at an offset below 0x8000 clears (RC, R5) or latches (R54, R148, R157). -/
def State.readEffect (sd : Side) (ev : Nat) (p : Place) (s : State) : State :=
  match p with
  | .iod 1 0x10 => { s with tb.sfcShadow := s.tb.sfcShadow.set sd (BitVec.ofNat 16 (s.tb.sfc.toNat / 2 ^ 32)) }
  | .iod 1 0x20 =>
    if s.rev2 then { s with tb.mpcShadow := s.tb.mpcShadow.set sd (BitVec.ofNat 32 (s.tb.mpc.toNat / 65536)) } else s
  | .iod 5 0x60 => { s with aon.rtcShadow := s.aon.rtcShadow.set sd (BitVec.ofNat 16 (s.aon.rtc.toNat / 2 ^ 32)) }
  | .iod 5 0x120 =>
    match s.aon.fifo with
    | [] => s
    | e :: t => { s with aon.fifo := t, aon.head1 := BitVec.ofNat 32 e.rtc.toNat }
  | .iod 5 0x128 => { s with aon.drop := rcNext ev }
  | .iod 6 0x1010 => { s with gcp.lateDrop := rcNext ev }
  | .iod 7 0x200 => { s with sch.affWait := rcNext ev }
  | .iod 7 0x204 => { s with sch.budgetWait := rcNext ev }
  | .iod 7 0x208 => { s with sch.preempts := rcNext ev }
  | .iod 7 0x20C => { s with sch.preemptMax := rcNext ev }
  | .iod 7 0x30C => { s with sch.dlCount := rcNext ev }
  | .iod 7 0x320 => { s with sch.sigDrop := rcNext ev }
  | .iod 7 0x440 => { s with sch.commits := rcNext ev }
  | .iod 7 0x444 => { s with sch.aborts := rcNext ev }
  | .iod 7 0x448 => { s with sch.discardCc := rcNext ev }
  | .iod 7 0x44C => { s with sch.specSnap := rcNext ev }
  | .iod 7 0x450 => { s with sch.launchBusy := rcNext ev }
  | .iod 10 o =>
    if o < 0x80 ∧ o % 0x20 = 4 then s.modPort (o / 0x20) (fun x => { x with slips := rcNext ev }) else s
  | .iod 11 0x10 => { s with cam.frameDrop := rcNext ev }
  | .iod 11 0x14 => { s with cam.pktDrop := rcNext ev }
  | .iod 11 0x18 => { s with cam.eccCorr := rcNext ev }
  | .iod 12 o =>
    if o = 0x40 then { s with itk.trunc := rcNext ev }
    else if o = 0x44 then { s with itk.samples := rcNext ev }
    else if 0x14 ≤ o ∧ o ≤ 0x30 then { s with itk.corrupt := tset 0 s.itk.corrupt ((o - 0x10) / 4) (rcNext ev) }
    else s
  | .iod 13 o =>
    if 0x100 ≤ o ∧ o < 0x200 ∧ o % 0x40 = 8 then s.modSlp ((o - 0x100) / 0x40) (fun x => { x with replay := rcNext ev })
    else s
  | .iod 14 o =>
    if o = 0x28 then { s with obs.offCnt := rcNext ev }
    else if o = 0x60 then { s with obs.missed := rcNext ev }
    else if o = 0x8C then { s with obs.tie := rcNext ev }
    else if 0x70 ≤ o ∧ o < 0x8C then { s with obs.outcomes := tset 0 s.obs.outcomes ((o - 0x70) / 4) (rcNext ev) }
    else s
  | .core c 0x30 => s.modCore c (fun x => { x with instrs := rcNext ev })
  | .core c 0x34 => s.modCore c (fun x => { x with cubeBusy := rcNext ev })
  | .core c 0x38 => s.modCore c (fun x => { x with dozeRc := rcNext ev })
  | _ => s

/-- A read of a register of a block that is accessible: its value is the model's `rdata`, and the read's effects follow. -/
def State.readNow (sd : Side) (a : Nat) (ev : Nat) (s : State) : State :=
  { s.readEffect sd ev (placeOf a) with rdata := (s.readRaw sd a).setWidth 64 }

/-- A 32-bit register read from a side: reserved space reads 0 (R3, R548); an off block that AUTOWAKE covers stalls the access (R31, R131),
any other reads 0x0FF0_0FF0 and clears nothing (R8, R130). -/
def State.regRead (sd : Side) (a : Nat) (ev : Nat) (s : State) : State :=
  if !listed a then { s with rdata := 0 }
  else if s.offAt a then match s.wakes a with
    | some b => s.stall sd a none b
    | none => { s.offAccess sd a with rdata := 0x0FF00FF0 }
  else s.readNow sd a ev

/-- TB_SFC_LO_READ (R54). -/
def execTbSfcLoRead (sd : Side) (s : State) : Host.Outcome State Fault Refusal := .next (s.regRead sd 0x10010 0)

/-- TB_MPC_PH_READ (R54). -/
def execTbMpcPhRead (sd : Side) (s : State) : Host.Outcome State Fault Refusal := .next (s.regRead sd 0x10020 0)

/-- AON_RTC_LO_READ (R148). -/
def execAonRtcLoRead (sd : Side) (s : State) : Host.Outcome State Fault Refusal := .next (s.regRead sd 0x50060 0)

/-- AON_DEC_HEAD0_READ (R157). -/
def execAonDecHead0Read (sd : Side) (s : State) : Host.Outcome State Fault Refusal := .next (s.regRead sd 0x50120 0)

/-- RC_REGISTER_READ (R5, R7): the read of any register; `event` is what an event of the field in the same cycle adds to it (0: none). -/
def execRcRegisterRead (sd : Side) (off : BitVec 25) (event : Nat) (s : State) : Host.Outcome State Fault Refusal :=
  .next (s.regRead sd off.toNat event)

/-- BAR0_BAD_WIDTH_ACCESS (R547): an aligned 32- or 64-bit access is not this row's; any other read returns zero bytes and
any other write is dropped, with no other effect. -/
def execBar0BadWidthAccess (_off : BitVec 25) (width : Nat) (w : Option (List (BitVec 8))) (s : State) :
    Host.Outcome State Fault Refusal :=
  if (width = 4 ∧ _off.toNat % 4 = 0) ∨ (width = 8 ∧ _off.toNat % 8 = 0) then .next s
  else match w with
    | none => .next { s with rdata := 0 }
    | some _ => .next s

/-- OBS_QUILL_FIRE_WRITE (R531): a HOST trigger, over the rack when RACK is set. -/
def execObsQuillFireWrite (v : BitVec 32) (s : State) : Host.Outcome State Fault Refusal :=
  .next (s.trigger s 0 (v.setWidth 16) (bit v 16))

/-- QUILL_PIN_FALL (R529, Table 22.2): a PIN trigger with PIN_EN; the part ignores its own pulse (R533). `fire` is a write to
OBS_QUILL_FIRE in the same cycle: two triggers that latch now make one latch (R538). -/
def execQuillPinFall (fire : Option (BitVec 32)) (s : State) : Host.Outcome State Fault Refusal :=
  .next <|
  let pin : Bool := bit s.obs.quillCtrl 12 && !s.obs.pinLow
  let rack := bit s.obs.quillCtrl 13
  match fire with
  | none => if pin then s.trigger s 4 0 rack else s
  | some v =>
    let tag : W16 := v.setWidth 16
    if pin && !rack && !bit v 16 then s.quill s { source := 0, tag := tag, origin := s.node, also := 0x10 }
    else
      let s1 := s.trigger s 0 tag (bit v 16)
      if pin then s1.trigger s 4 0 rack else s1

/-- QUILL_PIN_OUT_END (R533): the ball is released. -/
def execQuillPinOutEnd (s : State) : Host.Outcome State Fault Refusal := .next { s with obs.pinLow := false }

/-- OBS_QUILL_REARM_WRITE (R531): writing 1 sets ARMED; a trigger in the same cycle (`tie`) is the arrival and latches against
the new arming (R541). The trigger of a tie is a HOST trigger with tag 0 (log 8). -/
def execObsQuillRearmWrite (v : BitVec 32) (tie : Bool) (s : State) : Host.Outcome State Fault Refusal :=
  if bit v 0 then
    let s1 := { s with obs.armed := true }
    if tie then .next ((s1.quill s { source := 0, origin := s.node }).tie) else .next s1
  else .next s

/-- QUILL_SIDEBAND_ARRIVAL (R24): a trigger of the IOD reaches die `d`, whose registers latch; or (`none`) the oldest trigger
raised in a die reaches the IOD, which then broadcasts it. -/
def execQuillSidebandArrival (d : Option (Fin 4)) (s : State) : Host.Outcome State Fault Refusal :=
  match d with
  | some d =>
    if bit s.obs.dieLatch d then
      let s1 := { s with obs.dieLatch := putBit s.obs.dieLatch d false }
      if s.dieUp d then .next (s1.latchFrom s (dieRegs d.val)) else .next s1
    else .next s
  | none =>
    match s.obs.upTriggers with
    | [] => .next s
    | t :: r => .next (({ s with obs.upTriggers := r }).trigger s t.source.toNat t.tag t.rack)

/-- OBS_TLOG_IDX_WRITE (R536): the index is stored and that entry copied in one cycle. -/
def execObsTlogIdxWrite (sd : Side) (v : BitVec 32) (s : State) : Host.Outcome State Fault Refusal :=
  let i : BitVec 10 := v.setWidth 10
  .next { s with obs.tlogIdx := s.obs.tlogIdx.set sd i, obs.tlogData := s.obs.tlogData.set sd (tget [] s.obs.tlog i.toNat) }

end Sys2Proof.Machine
end

