-- ==== Sys2Proof/Machine/JobMem.lean ====
section
/-!
DEFINITION. Accesses to the device physical space by jobs and engines: windows (R202), the Hoard (R400), the address map (R469),
protection descriptors and keys (R477-R479), shadow pages (R399, R400), and the reads and writes that follow.
-/
namespace Sys2Proof.Machine

/-- Who accesses: a tenant's job or engine with the windows it was dispatched with, and its epoch while it is speculative; or
no tenant (BAR2, firmware). -/
structure Agent where
  tenant : Option Nat
  windows : List Window := []
  epoch : Option Nat := none
  barred : Bool := false
  deriving DecidableEq, Repr

/-- Why an access is denied: its fault code, a MEM_ERR bit with the address, a KEY_ERR bit. -/
structure Deny where
  code : Nat
  mem : Option (Nat × Nat) := none
  key : Option Nat := none
  deriving DecidableEq, Repr

/-- The 4 KiB pages that the `n` bytes from `a` touch; every bound of the map, of windows and of descriptors is a page bound. -/
def pagesOf (a n : Nat) : List Nat :=
  if n = 0 then [] else (List.range ((a + n - 1) / 4096 - a / 4096 + 1)).map (fun i => a / 4096 + i)

/-- Does an enabled window grant permission bit `perm` (0 R, 1 W, 2 X) over a page (Table 8.2)? -/
def inWindow (ws : List Window) (perm page : Nat) : Bool :=
  ws.any (fun w => bit w.perm perm && w.base ≤ page && page < w.limit)

/-- Does every byte lie in windows that grant the access (R202)? -/
def windowsAllow (ws : List Window) (perm a n : Nat) : Bool := (pagesOf a n).all (inWindow ws perm)

/-- The Hoard bytes of die `d` (R400). -/
def State.hoardBytes (s : State) (d : Nat) : Nat := (tget 0 s.sch.hoard d).toNat * 65536

/-- The address of Hoard page `p` of die `d`: the Hoard is the top of the die's DM (R400). -/
def State.hoardAddr (s : State) (d p : Nat) : Nat := dmBase d + dmSize - s.hoardBytes d + p * 4096

/-- Is a page part of the Hoard (R400)? -/
def State.inHoard (s : State) (page : Nat) : Bool :=
  match s.region (page * 4096) with
  | .dm d => page * 4096 ≥ s.hoardAddr d 0
  | _ => false

/-- Is traffic to the `n` bytes from `a` held, from the IOD or (`from_`) from a die, because a bridge that it crosses retrains (R9, R29)? -/
def State.pathHeld (s : State) (from_ : Option Nat) (a n : Nat) : Bool :=
  (pagesOf a n).any (fun p => match s.region (p * 4096) with
    | .dm d => some d ≠ from_ && (s.dieHeld d || from_.any s.dieHeld)
    | _ => from_.any s.dieHeld)

/-- The MEM_ERR bit of a page that the map denies (R469); `w` for a write. A die whose bridge retrains is still there (R29). -/
def State.mapDeny (s : State) (w : Bool) (page : Nat) : Option Nat :=
  match s.region (page * 4096) with
  | .none => some 0
  | .dm d => if s.dieUp d || s.dieHeld d then none else some 1
  | .host => if s.hostUp then none else some 2
  | .dormouse => if w then some 3 else none
  | _ => none

/-- The winning descriptor of a page: the valid one of lowest index that contains it (R478). -/
def State.winner (s : State) (page : Nat) : Option Desc :=
  (s.key.descs.find? (fun e => e.2.valid && e.2.base ≤ page && page < e.2.limit)).map (·.2)

/-- Does the lost range hold a page (R484)? -/
def State.isLost (s : State) (page : Nat) : Bool :=
  s.key.lost && s.key.lostBase.toNat ≤ page && page < s.key.lostLimit.toNat

/-- Is a selective IDE stream SECURE (R487): an active key set in each of its three sub-streams (PRESUMED, log 24)? Index: sub-stream
times 2 plus key set. -/
def Ide.secure (x : Ide) : Bool := (List.range 3).all (fun i => tget false x.active (2 * i) || tget false x.active (2 * i + 1))

/-- Does an address association block of the stream contain a whole page of the host window (R470, R479, R487)? -/
def Ide.associates (x : Ide) (page : Nat) : Bool :=
  let a := page * 4096 - hostBase
  (List.range 2).any (fun i => let b := tget (0, 0) x.assoc i; b.1 ≤ a && a + 4096 ≤ b.2)

/-- The key rules of R478, R479, R484 on one page for a tenant. -/
def State.keyDeny (s : State) (t : Nat) (page : Nat) : Option Deny :=
  match s.region (page * 4096) with
  | .lpddr =>
    if s.isLost page then some { code := ftKeyLost, key := some 3 }
    else match s.winner page with
      | none => if s.confidential t then some { code := ftKeyInvalid, key := some 2 } else none
      | some d =>
        if !(s.slot d.slot).valid || (d.slot < 1024 && d.slot ≠ t) then some { code := ftKeyInvalid, key := some 2 } else none
  | .host =>
    if s.confidential t && s.key.tdi == .run && !s.key.ide.any (fun e => e.2.secure && e.2.associates page) then
      some { code := ftMemWindow } else none
  | _ => none

/-- Is the access denied, by window, Hoard, map or key, in this order (R202, R400, R469, R478)? `perm` 0 R, 1 W, 2 X. -/
def State.access (s : State) (g : Agent) (perm a n : Nat) : Option Deny :=
  let spec := g.epoch.isSome && perm = 1
  if g.tenant.isSome && !windowsAllow g.windows perm a n then
    some { code := if spec then ftSpecViolation else ftMemWindow }
  else if (pagesOf a n).any s.inHoard then some { code := if spec then ftSpecViolation else ftMemWindow }
  else if spec && !(pagesOf a n).all (fun p => match s.region (p * 4096) with
      | .dm _ => true | .lpddr => true | .sram => true | _ => false) then some { code := ftSpecViolation }
  else match (pagesOf a n).findSome? (fun p => (s.mapDeny (perm = 1) p).map (fun e => (e, Nat.max a (p * 4096)))) with
    | some e => some { code := ftMemWindow, mem := some e }
    | none => match g.tenant with
      | none => none
      | some t => (pagesOf a n).findSome? (fun p =>
          if g.barred && s.region (p * 4096) == .lpddr && !s.isLost p then some { code := ftKeyInvalid, key := some 2 } else s.keyDeny t p)

/-- The errors a denied access leaves (R469, R478, R484). -/
def State.noteDeny (d : Deny) (s : State) : State :=
  let s1 := match d.mem with | some (b, a) => s.errMem b a | none => s
  match d.key with | some b => s1.errKey b | none => s1

/-! ### LPDDR under keys -/

/-- The identity of the key that applies to the unit at `a` now: 0 is plain; the rotation key below the watermark (R481). -/
def State.unitKeyNow (s : State) (a : Nat) : Nat :=
  match s.region a with
  | .lpddr => match s.winner (a / 4096) with
    | none => 0
    | some d => match (s.slot d.slot).rot with
      | some k => if a / 64 * 64 < s.key.wm.toNat then k else (s.slot d.slot).key
      | none => (s.slot d.slot).key
  | _ => 0

/-- The byte that an LPDDR read returns: the stored data under the key it was written with, an unpredictable value under
another (R477; a free value, log 3). -/
def State.lpByte (s : State) (a : Nat) : Byte :=
  let u := a / 64
  let old := tget 0 s.key.unitKey u
  let now := s.unitKeyNow a
  if old = now then mread s.mem a else Config.xtsGarbage old now (u * 64) (mreadN s.mem (u * 64) 64) (a % 64)

/-- The byte a device read returns, without checks: a host-window read returns what the host holds (a free value, log 3). -/
def State.devByte (s : State) (a : Nat) : Byte :=
  match s.region a with
  | .lpddr => s.lpByte a
  | .host => Config.hostByte s.fresh (a - hostBase)
  | _ => mread s.mem a

/-- The bytes a device read returns. -/
def State.devRead (s : State) (a n : Nat) : List Byte := (List.range n).map (fun i => s.devByte (a + i))

/-- The page boundaries of the valid descriptors, with two more. -/
def State.descPoints (s : State) (a b : Nat) : List Nat := a :: b :: s.key.descs.flatMap (fun e => [e.2.base, e.2.limit])

/-- Does the winning descriptor of a page name slot `i` (R478)? -/
def State.wins (s : State) (i page : Nat) : Bool := (s.winner page).any (fun d => d.slot == i)

/-- A unit of LPDDR decrypted under key `old` and written under key `new` (R481). -/
def State.rewriteUnit (old new u : Nat) (s : State) : State :=
  let was := tget 0 s.key.unitKey u
  let bs := mreadN s.mem (u * 64) 64
  { s with
    mem := if was = old then s.mem else mwrite s.mem (u * 64) ((List.range 64).map (Config.xtsGarbage was old (u * 64) bs)),
    key.unitKey := tset 0 s.key.unitKey u new }

/-- The walk of a ROTATE has rewritten the units of its set from the watermark up to below `b` (R481). -/
def State.walked (w : Walk) (b : Nat) (s : State) : State :=
  let old := (s.slot w.slot).key
  let new := (s.slot w.slot).rot.getD old
  let u0 := s.key.wm.toNat / 64
  forN (b / 64 - u0) (fun i t => if t.wins w.slot ((u0 + i) / 64) then t.rewriteUnit old new (u0 + i) else t) s

/-- The unit of a walk's set that follows address `a`, or the end of the set. -/
def State.walkNext (s : State) (w : Walk) (a : Nat) : Nat :=
  if s.wins w.slot ((a + 64) / 4096) then a + 64
  else (s.descPoints 0 0).foldl (fun b p => if a < p * 4096 && s.wins w.slot p then Nat.min b (p * 4096) else b) w.limit

/-- An access to the unit that a walk is rewriting stalls until it is rewritten, and then uses the rotation key (R481, R493). A paused walk
rewrites nothing (R483). -/
def State.unitDone (a n : Nat) (s : State) : State :=
  let wm := s.key.wm.toNat
  match s.key.walk with
  | none => s
  | some w =>
    if w.init || s.key.paused || n = 0 || wm + 64 ≤ a || a + n ≤ wm || !s.wins w.slot (wm / 4096) then s
    else { s.walked w (wm + 64) with key.wm := BitVec.ofNat 40 (s.walkNext w wm) }

/-- Every unit of the range becomes a unit of its present key: a partial write reads, merges and encrypts the unit (R477). -/
def State.rekeyUnits (a n : Nat) (s : State) : State :=
  if n = 0 then s else
  forN ((a + n - 1) / 64 - a / 64 + 1) (fun i s =>
    let u := a / 64 + i
    if tget 0 s.key.unitKey u = s.unitKeyNow (u * 64) then s
    else
      let bs := (List.range 64).map (fun k => s.lpByte (u * 64 + k))
      { s with mem := mwrite s.mem (u * 64) bs, key.unitKey := tset 0 s.key.unitKey u (s.unitKeyNow (u * 64)) }) s

/-- Bytes stored at a device address, without checks. Host-window bytes go to the host. -/
def State.devWrite (a : Nat) (bs : List Byte) (s : State) : State :=
  match s.region a with
  | .lpddr => ((s.unitDone a bs.length).rekeyUnits a bs.length).poke a bs
  | .host => { s with hostOut := mwrite s.hostOut (a - hostBase) bs }
  | _ => s.poke a bs

/-- Bytes of a tenant that hold undefined values (R315, R461): free values (log 3). The pages that the map or a key denies keep their bytes (R469,
R478). -/
def State.undefine (t : Nat) (r : Nat × Nat) (s : State) : State :=
  (pagesOf r.1 r.2).foldl (fun s p =>
    if (s.mapDeny true p).isSome || (s.keyDeny t p).isSome || s.inHoard p then s
    else
      let lo := Nat.max r.1 (p * 4096)
      let d := s.draw
      d.2.devWrite lo ((List.range (Nat.min (r.1 + r.2) (p * 4096 + 4096) - lo)).map (Config.freeByte d.1))) s

/-- The windows of a tenant. -/
def State.windowsOf (s : State) (t : Nat) : List Window := ((s.tenant t).map (·.windows)).getD []

/-! ### Shadow pages (R400) -/

/-- The lowest free Hoard page of die `d`. -/
def State.freeHoard (s : State) (d : Nat) : Option Nat :=
  let used := ((s.sch.ctxKept ++ s.epochs.flatMap (fun e => e.2.pages ++ e.2.ctxPages)).filter (fun p => p.die == d)).map (·.page)
  (List.range (s.hoardBytes d / 4096)).find? (fun p => !used.contains p)

/-- A Hoard page for epoch `e` from the writing core's die, else from the lowest-numbered die with a free page; `none` beyond
the epoch's limit or without a free page (R400). -/
def State.allocHoard (s : State) (e die : Nat) : Option (Nat × Nat) :=
  let ep := s.epoch e
  if ep.limit ≤ ep.pages.length + ep.ctxPages.length then none
  else (die :: List.range 4).findSome? (fun d => (s.freeHoard d).map (fun p => (d, p)))

/-- The shadow of a target page, if the epoch has one. -/
def State.shadowOf (s : State) (e page : Nat) : Option Shadow := (s.epoch e).pages.find? (fun p => p.target == page)

/-- Where an agent's byte lies: in its epoch's shadow when the page is shadowed (Table 16.5). -/
def State.agentAddr (s : State) (g : Agent) (a : Nat) : Nat :=
  match g.epoch with
  | none => a
  | some e => match s.shadowOf e (a / 4096) with
    | none => a
    | some p => s.hoardAddr p.die p.page + a % 4096

/-- The bytes an agent reads. -/
def State.agentRead (s : State) (g : Agent) (a n : Nat) : List Byte :=
  (List.range n).map (fun i => s.devByte (s.agentAddr g (a + i)))

/-- A page of the epoch's shadow allocated and filled from its target (R400); `none` when no page can be had. -/
def State.shadowPage (s : State) (e die page : Nat) : Option State :=
  match s.shadowOf e page with
  | some _ => some s
  | none => (s.allocHoard e die).map (fun dp =>
    let s1 := s.modEpoch e (fun x => { x with pages := x.pages ++ [{ target := page, die := dp.1, page := dp.2 }] })
    s1.poke (s1.hoardAddr dp.1 dp.2) (s.devRead (page * 4096) 4096))

/-- The bytes an agent on a die writes: to the target, or for a speculative agent to the shadow; `none` when the Hoard is
exhausted (R400). -/
def State.agentWrite (s : State) (g : Agent) (die a : Nat) (bs : List Byte) : Option State :=
  match g.epoch with
  | none => some (s.devWrite a bs)
  | some e =>
    ((pagesOf a bs.length).foldl (fun o p => o.bind (fun s => s.shadowPage e die p)) (some s)).map (fun s =>
      (List.range bs.length).foldl (fun s i => s.poke (s.agentAddr g (a + i)) [bs.getD i 0]) s)

end Sys2Proof.Machine
end

