-- ==== Sys2Proof/Machine/Waits.lean ====
section
/-!
DEFINITION. What ends the wait of a core: retirement with the hardware loops (R243), the events of WAIT (R248), the cells of SWAIT
(R263, R270), the transfers of DMAW (R244), the compare of TWAIT (R247), and the signals that are held for a restore (R266).
-/
namespace Sys2Proof.Machine

/-- The loop-end test at the instruction just executed (R243): entries stand outermost first. `n` bounds the nesting. -/
def loopEnd : Nat → Core → Nat → Core
  | 0, x, _ => { x with pc := x.pc + 1 }
  | k + 1, x, pc =>
    match x.loops.getLast? with
    | none => { x with pc := pc + 1 }
    | some e =>
      if e.stop ≠ pc then { x with pc := pc + 1 }
      else
        let n := (tget 0 x.n e.ctr).toNat
        if 1 < n then { x with n := tset 0 x.n e.ctr (BitVec.ofNat 32 (n - 1)), pc := e.start }
        else loopEnd k { x with n := tset 0 x.n e.ctr 0, loops := x.loops.dropLast } pc

/-- The instruction at the PC retires: counted, the PC moved on or to `pc`. -/
def State.retire (c : Nat) (pc : Option Nat) (s : State) : State :=
  s.modCore c (fun x =>
    let x := { x with instrs := satInc x.instrs, progress := 0 }
    match pc with
    | some t => { x with pc := t }
    | none => loopEnd 5 x x.pc)

/-- Predicate `k` written. -/
def Core.wrP (k : Nat) (b : Bool) (x : Core) : Core := { x with p := tset false x.p k b }

/-- The events that a WAIT includes (R248). -/
def waitEv (w : W128) : BitVec 3 := BitVec.ofNat 3 (fld w 16 3)

/-- A wait of core `c` ends and its instruction retires. A compare of a WAIT that has fired and is still on its way is an event that
stays pending (R248). -/
def State.waitEnds (c : Nat) (s : State) : State :=
  ((s.modCore c (fun x => { x with
    wait := none, wakeMsg := none, events := if x.wakeMsg.isSome then setBit x.events 1 else x.events })).disarm (.core c)).retire c none

/-- Is any outstanding DMA in the tag mask of DMAW? -/
def Core.dmaPending (x : Core) (w : W128) : Bool := x.dmas.any (fun q => bitN (fld w 16 16) q.tag)

/-- SWAIT consumes its value when the cell holds it (R270). -/
def State.trySwait (c : Nat) (w : W128) (s : State) : Option State :=
  let cell := fld w 16 5
  let v := fld w 64 16
  let n := (tget 0 (s.core c).sync cell).toNat
  if v ≤ n then
    some (s.modCore c (fun x => { x with sync := tset 0 x.sync cell (BitVec.ofNat 32 (n - v)) }.wrP (fld w 12 2) true))
  else none

/-- The wait of a running core is evaluated: SWAIT, WAIT and DMAW end when their condition holds (R244, R248, R252, R267, R270). -/
def State.wake (c : Nat) (s : State) : State :=
  let x := s.core c
  if x.phase ≠ .running then s
  else match x.wait with
  | none => s
  | some w =>
    if w.op = 0x61 then
      match s.trySwait c w.word with
      | some t => t.waitEnds c
      | none => s
    else if w.op = 0x63 ∧ x.events &&& waitEv w.word ≠ 0 then
      (s.modCore c (fun x => { x with events := x.events &&& ~~~ waitEv w.word })).waitEnds c
    else if w.op = 0x21 ∧ x.dmaPending w.word = false then s.waitEnds c
    else s

/-- An event of a core becomes pending (R248). -/
def State.coreEvent (c i : Nat) (s : State) : State := (s.modCore c (fun x => { x with events := setBit x.events i })).wake c

/-- A signal's value added to a kept or scratch cell of a core, saturating (R262, R263), and the wake wire fired (R267). -/
def State.addCell (c cell v : Nat) (s : State) : State :=
  let n := (tget 0 (s.core c).sync cell).toNat + v
  let s1 := s.modCore c (fun x => { x with sync := tset 0 x.sync cell (satN 32 n), events := setBit x.events 0 })
  if n > 0xFFFFFFFF then s1.errSync 0 else s1

/-- The signals held for the restore of job `j` (R266). -/
def State.heldFor (s : State) (j : Nat) : List Signal := s.sch.signals.filter (fun g => g.target == some j)

/-- They are held no longer. -/
def State.takeHeld (j : Nat) (s : State) : State :=
  { s with sch.signals := s.sch.signals.filter (fun g => g.target ≠ some j) }

/-- The signals held for the context of job `j`, which ends during its restore, are dropped: UNREACHABLE when the die is not UP (R281),
else NO_TARGET (R265, R266). -/
def State.dropHeld (j c : Nat) (s : State) : State :=
  (s.heldFor j).foldl (fun s _ => s.dropSignal (if s.dieUp (c / 16) then 1 else 3)) (s.takeHeld j)

end Sys2Proof.Machine
end

