-- ==== Sys2Proof/Machine/KvMem.lean ====
section
/-!
DEFINITION. The KV unit's operations on pages, page entries and sequence records, which lie in the pool's memory (Tables 15.2, 15.3,
R369, R372, R375-R378).
-/
namespace Sys2Proof.Machine

/-- Element size of a KV format (R369). -/
def kvElem (f : Nat) : Nat := if f = 6 ∨ f = 7 then 1 else 2
/-- Bytes of a page (R369). -/
def Pool.pb (p : Pool) : Nat := 128 * p.d * kvElem p.fmt
/-- Bytes of a sequence record (R369). -/
def Pool.sr (p : Pool) : Nat := (64 + (p.maxBlocks + 2) * p.hkv * 4 + 63) / 64 * 64
/-- Bytes of the control area (R369). -/
def Pool.ctrlLen (p : Pool) : Nat := 64 + 16 * p.npages + p.maxSeq * p.sr
/-- The pool that a KV_POOL_CREATE describes (Table 15.1). -/
def Cmd.poolOf (c : Cmd) : Pool :=
  { tenant := c.tenant, base := c.p 0 8, ctrl := c.p 8 8, npages := c.p 16 4, fmt := c.p 20 1, hkv := c.p 21 1, d := c.p 22 2,
    maxSeq := c.p 24 2, maxBlocks := c.p 26 2, spread := c.p 28 1, nodes := slice c.params 32 (c.p 29 1) }
/-- Address of page entry `g`. -/
def Pool.ent (p : Pool) (g : Nat) : Nat := p.ctrl + 64 + 16 * g
/-- Address of sequence record `q`. -/
def Pool.seqAt (p : Pool) (q : Nat) : Nat := p.ctrl + 64 + 16 * p.npages + q * p.sr
/-- Address of the committed entry (b, h). -/
def Pool.pt (p : Pool) (q b h : Nat) : Nat := p.seqAt q + 64 + 4 * (b * p.hkv + h)
/-- Address of the tentative entry (i, h). -/
def Pool.tt (p : Pool) (q i h : Nat) : Nat := p.seqAt q + 64 + 4 * ((p.maxBlocks + i) * p.hkv + h)

/-- A little-endian field of the control area. -/
def State.kvR (s : State) (a n : Nat) : Nat := leNat (s.devRead a n)
/-- A field of the control area written. -/
def State.kvW (a n v : Nat) (s : State) : State := s.devWrite a (toLe n v)

/-- Does this part hold entry (b, h) of a spread pool (R385)? -/
def State.kvLocal (s : State) (p : Pool) (b h : Nat) : Bool :=
  if p.spread = 0 then true
  else (p.nodes.getD ((if p.spread = 1 then h else b) % p.nodes.length) 0xFF).toNat == s.node

/-- The page that an entry word names, when valid. -/
def kvPage (w : Nat) : Option Nat := if w.testBit 16 then some (w % 65536) else none
/-- The entry word of a page. -/
def kvWord (g : Nat) : Nat := 65536 + g % 65536

/-- A page pushed at the head of the free list (R372). -/
def State.kvPush (p : Pool) (g : Nat) (s : State) : State :=
  let head := s.kvR p.ctrl 4
  let cnt := s.kvR (p.ctrl + 4) 4
  ((s.devWrite (p.ent g) (toLe 4 head ++ List.replicate 12 0)).kvW p.ctrl 4 g).kvW (p.ctrl + 4) 4 (cnt + 1)

/-- One reference to a page dropped (R372). -/
def State.kvRelease (p : Pool) (g : Nat) (s : State) : State :=
  let r := s.kvR (p.ent g + 4) 2 - 1
  let s1 := s.kvW (p.ent g + 4) 2 r
  if r ≠ 0 then s1
  else if s1.kvR (p.ent g + 6) 2 ≠ 0 then (s1.kvW (p.ent g + 8) 1 3).kvW (p.ent g + 12) 4 0
  else s1.kvPush p g

/-- One pin of a page dropped (R372). -/
def State.kvUnpin (p : Pool) (g : Nat) (s : State) : State :=
  let n := s.kvR (p.ent g + 6) 2 - 1
  let s1 := s.kvW (p.ent g + 6) 2 n
  if n = 0 ∧ s1.kvR (p.ent g + 8) 1 = 3 then s1.kvPush p g else s1

/-- One pin of a page taken (R376). -/
def State.kvPin (p : Pool) (g : Nat) (s : State) : State :=
  s.kvW (p.ent g + 6) 2 (s.kvR (p.ent g + 6) 2 + 1)

/-- A page taken from the free list (R372) with REFCNT 1, a state and an epoch. -/
def State.kvAlloc (p : Pool) (st head ep : Nat) (s : State) : Option (Nat × State) :=
  let g := s.kvR p.ctrl 4
  if g = 0xFFFFFFFF then none
  else
    let nxt := s.kvR (p.ent g) 4
    let cnt := s.kvR (p.ctrl + 4) 4
    let s1 := (s.kvW p.ctrl 4 nxt).kvW (p.ctrl + 4) 4 (cnt - 1)
    some (g, s1.devWrite (p.ent g)
      (toLe 4 0 ++ toLe 2 1 ++ toLe 2 0 ++ toLe 1 st ++ toLe 1 0 ++ toLe 1 head ++ toLe 1 0 ++ toLe 4 ep))

/-- LEN of a sequence. -/
def State.seqLen (s : State) (p : Pool) (q : Nat) : Nat := s.kvR (p.seqAt q) 4
/-- TLEN of a sequence. -/
def State.seqTlen (s : State) (p : Pool) (q : Nat) : Nat := s.kvR (p.seqAt q + 4) 1
/-- IN_USE of a sequence. -/
def State.seqUsed (s : State) (p : Pool) (q : Nat) : Bool := (s.kvR (p.seqAt q + 5) 1).testBit 0
/-- EPOCH of a sequence. -/
def State.seqEpoch (s : State) (p : Pool) (q : Nat) : Nat := s.kvR (p.seqAt q + 8) 4

/-- An entry released: its page loses a reference and the entry becomes invalid. -/
def State.kvDrop (p : Pool) (a : Nat) (s : State) : State :=
  match kvPage (s.kvR a 4) with
  | none => s
  | some g => (s.kvRelease p g).kvW a 4 0

/-- The committed entries of blocks at or beyond `b` released (R373). -/
def State.kvDropFrom (p : Pool) (q b : Nat) (s : State) : State :=
  forN (p.maxBlocks - b) (fun i s => forN p.hkv (fun h s => s.kvDrop p (p.pt q (b + i) h)) s) s

/-- The tentative entries released, TLEN and EPOCH zeroed (R378). -/
def State.kvForget (p : Pool) (q : Nat) (s : State) : State :=
  let s1 := forN 2 (fun i s => forN p.hkv (fun h s => s.kvDrop p (p.tt q i h)) s) s
  (s1.kvW (p.seqAt q + 4) 1 0).kvW (p.seqAt q + 8) 4 0

/-- `k` tentative positions of a sequence committed (R378). -/
def State.kvCommit (p : Pool) (q k : Nat) (s : State) : State :=
  let len := s.seqLen p q
  let nl := len + k
  let s1 := forN 2 (fun i s =>
    let b := len / 64 + i
    if b * 64 < nl then forN p.hkv (fun h s =>
      match kvPage (s.kvR (p.tt q i h) 4) with
      | none => s
      | some g =>
        let s := s.kvDrop p (p.pt q b h)
        let s := (s.kvW (p.pt q b h) 4 (kvWord g)).kvW (p.tt q i h) 4 0
        ((s.kvW (p.ent g + 8) 1 1).kvW (p.ent g + 9) 1 (Nat.min 64 (nl - b * 64))).kvW (p.ent g + 12) 4 0) s
    else s) s
  (s1.kvW (p.seqAt q) 4 nl).kvForget p q

/-- The nodes that hold a share of a spread pool, but this part (R385). -/
def State.poolPeers (s : State) (p : Pool) : List Nat :=
  if p.spread = 0 then [] else ((p.nodes.map (·.toNat)).filter (· ≠ s.node)).eraseDups

/-- A message to a part that holds a share of a spread pool, or from it (R385; layout: DESIGN CHOICE, log 42). Kind 8 asks for a share with the
parameters of KV_POOL_CREATE, 9 ends it, 10 carries out a KV_SEQ, 11 asks what becomes of the rows of an ATTENTION operator, 13 carries
them out, 14 ends the operator; 12 answers with a reason and data. The value is the identity of the command. -/
def State.tellPool (n tenant kind v : Nat) (data : List Byte) (s : State) : State := s.tellStream (BitVec.ofNat 6 n) tenant kind 0 v data

/-- An operator on a spread pool ends on the other parts too (R376, R385). -/
def State.endShares (p : Pool) (id : Nat) (s : State) : State :=
  if p.pins.any (fun x => x.1 = id) then (s.poolPeers p).foldl (fun (s : State) n => s.tellPool n p.tenant 14 id (toLe 8 p.share)) s else s

/-- The pins of a command and its claims as an appender released, in every pool (R374, R376). -/
def State.kvUnpinCmd (id : Nat) (s : State) : State :=
  s.pools.foldl (fun s e => match e.2 with
    | none => s
    | some p =>
      let pages := (p.pins.filter (fun x => x.1 = id)).flatMap (·.2)
      let s1 := pages.foldl (fun s g => s.kvUnpin p g) (s.endShares p id)
      { s1 with pools := tset none s1.pools e.1 (some { p with
        pins := p.pins.filter (fun x => x.1 ≠ id), apps := p.apps.filter (fun x => x.1 ≠ id) }) }) s

/-- A pool is gone (R371) with its shares on other parts (R385): its handle is free, and no epoch has tentative positions in it any more. -/
def State.poolGone (h : Nat) (s : State) : State :=
  let s : State := match s.pool h with
    | some p => (s.poolPeers p).foldl (fun (s : State) n => s.tellPool n p.tenant 9 p.share []) s
    | none => s
  { s with pools := tset none s.pools h none,
           epochs := s.epochs.map (fun (e : Nat × Epoch) => (e.1, { e.2 with seqs := e.2.seqs.filter (fun q => q.1 ≠ h) })) }

/-- The tentative positions of an epoch released in every sequence (R378). -/
def State.kvAbort (seqs : List (Nat × Nat)) (s : State) : State :=
  seqs.foldl (fun s e => match s.pool e.1 with
    | none => s
    | some p => s.kvForget p e.2) s

/-- Is the pool's memory in the DM of a lost or otherwise unreachable die (R391)? -/
def State.kvLost (s : State) (p : Pool) : Bool :=
  [p.base, p.ctrl].any (fun a => match s.region a with
    | .dm d => (s.die d).bridge == .lost
    | _ => false)

end Sys2Proof.Machine
end

