-- ==== Sys2Proof/Machine/Formats.lean ====
section
/-!
DEFINITION. The eleven number formats (Table 11.1): decoding, exact values, the three rounding modes (R285-R289), FP32 arithmetic
by nearest-even, the stochastic-rounding generator (R287) and the conversion statistics (R301). A finite value is exact: sign,
magnitude and a power of two.
-/
namespace Sys2Proof.Machine

/-- An exact value: a NaN, an infinity with its sign, or (−1)^neg × m × 2^e. -/
inductive FV where
  | nan
  | inf (neg : Bool)
  | fin (neg : Bool) (m : Nat) (e : Int)
  deriving DecidableEq, Repr

/-- Two to a non-negative integer power. -/
def pow2 (e : Int) : Nat := 2 ^ e.toNat

/-- Is the format one of the integer formats (Table 11.1)? -/
def fmtInt (f : Nat) : Bool := f ≤ 5
/-- Is the format a float format (Table 11.1)? -/
def fmtFloat (f : Nat) : Bool := 6 ≤ f && f ≤ 0xA

/-- Storage bits of an element (Table 11.1). -/
def fmtBits (f : Nat) : Nat :=
  if f = 0 then 4 else if f = 1 ∨ f = 2 ∨ f = 6 ∨ f = 7 then 8 else if f = 3 ∨ f = 8 ∨ f = 9 then 16 else 32

/-- Bytes that `n` elements take (R282). -/
def fmtBytes (f n : Nat) : Nat := (fmtBits f * n + 7) / 8

/-- Fraction bits of a float format. -/
def fracBits (f : Nat) : Nat := if f = 6 then 3 else if f = 7 then 2 else if f = 8 then 10 else if f = 9 then 7 else 23
/-- Exponent bits of a float format. -/
def expBits (f : Nat) : Nat := if f = 6 then 4 else if f = 7 ∨ f = 8 then 5 else 8
/-- Exponent bias of a float format. -/
def expBias (f : Nat) : Int := if f = 6 then 7 else if f = 7 ∨ f = 8 then 15 else 127
/-- The canonical NaN of a format (R284). -/
def canonNan (f : Nat) : Nat :=
  if f = 6 then 0x7F else if f = 7 then 0x7E else if f = 8 then 0x7E00 else if f = 9 then 0x7FC0 else 0x7FC00000
/-- The significand of the largest finite value (Table 11.1): in E4M3 the top exponent holds finite values too. -/
def maxSig (f : Nat) : Nat := if f = 6 then 14 else 2 ^ (fracBits f + 1) - 1
/-- The exponent of the unit of the largest finite value. -/
def maxExp (f : Nat) : Int :=
  (if f = 6 then 8 else if f = 7 ∨ f = 8 then 15 else 127) - Int.ofNat (fracBits f)

/-- The value that bits of a format encode (Table 11.1, R282, R283). -/
def decodeFmt (f raw : Nat) : FV :=
  if f = 0 then (let v := sgn 4 raw; .fin (v < 0) v.natAbs 0)
  else if f = 1 then (let v := sgn 8 raw; .fin (v < 0) v.natAbs 0)
  else if f = 2 then .fin false (raw % 256) 0
  else if f = 3 then (let v := sgn 16 raw; .fin (v < 0) v.natAbs 0)
  else if f = 4 then (let v := sgn 24 raw; .fin (v < 0) v.natAbs 0)
  else if f = 5 then (let v := sgn 32 raw; .fin (v < 0) v.natAbs 0)
  else
    let fb := fracBits f
    let eb := expBits f
    let s := raw.testBit (fb + eb)
    let ef := bits raw fb eb
    let fr := bits raw 0 fb
    if ef = 0 then .fin s fr (1 - expBias f - Int.ofNat fb)
    else if ef = 2 ^ eb - 1 ∧ f ≠ 6 then (if fr = 0 then .inf s else .nan)
    else if ef = 2 ^ eb - 1 ∧ fr = 7 then .nan
    else .fin s (2 ^ fb + fr) (Int.ofNat ef - expBias f - Int.ofNat fb)

/-- The integer below a magnitude m × 2^e in units of 2^q, and the remainder as a fraction with 16 bits and exactness:
(quotient, floor of 65,536 × rest, is the rest zero, comparison of the rest with one half: 0 below, 1 equal, 2 above). -/
def unitsOf (m : Nat) (e q : Int) : Nat × Nat × Bool × Nat :=
  if q ≤ e then (m * pow2 (e - q), 0, true, 0)
  else
    let d := pow2 (q - e)
    let r := m % d
    (m / d, 65536 * r / d, r = 0, if 2 * r < d then 0 else if 2 * r = d then 1 else 2)

/-- Rounds a magnitude to a whole number of units by mode (R286): 0 nearest-even, 1 stochastic with the 16-bit value `r`,
2 truncate. -/
def roundUnits (mode r : Nat) (m : Nat) (e q : Int) : Nat :=
  let u := unitsOf m e q
  if mode = 2 ∨ u.2.2.1 then u.1
  else if mode = 1 then (if r < u.2.1 then u.1 + 1 else u.1)
  else if u.2.2.2 = 2 ∨ (u.2.2.2 = 1 ∧ u.1 % 2 = 1) then u.1 + 1 else u.1

/-- Is magnitude m × 2^e above n × 2^k? -/
def magAbove (m : Nat) (e : Int) (n : Nat) (k : Int) : Bool :=
  if k ≤ e then n < m * pow2 (e - k) else n * pow2 (k - e) < m

/-- The bits of a finite value in a float format: sign, then the rounded magnitude. `ieee` selects overflow to infinity of an
arithmetic result (R310) against the saturation of a conversion (R288). The truth value says that it saturated. -/
def encodeFloat (f mode r : Nat) (ieee : Bool) (neg : Bool) (m : Nat) (e : Int) : Nat × Bool :=
  let fb := fracBits f
  let sb := if neg then 2 ^ (fb + expBits f) else 0
  let top := sb + (Int.toNat (maxExp f + Int.ofNat fb + expBias f)) * 2 ^ fb + (maxSig f - 2 ^ fb)
  if m = 0 then (sb, false)
  else if ieee && !magAbove (2 * maxSig f + 1) (maxExp f - 1) m e then (sb + (2 ^ expBits f - 1) * 2 ^ fb, true)
  else if magAbove m e (maxSig f) (maxExp f) then (top, true)
  else
    let q := max (Int.ofNat (Nat.log2 m) + e - Int.ofNat fb) (1 - expBias f - Int.ofNat fb)
    let t := roundUnits mode r m e q
    let (t, q) := if t = 2 ^ (fb + 1) then (2 ^ fb, q + 1) else (t, q)
    if t < 2 ^ fb then (sb + t, false)
    else (sb + Int.toNat (q + Int.ofNat fb + expBias f) * 2 ^ fb + (t - 2 ^ fb), false)

/-- The signed range of an integer format (Table 11.1). -/
def intRange (f : Nat) : Int × Int :=
  if f = 0 then (-8, 7) else if f = 1 then (-128, 127) else if f = 2 then (0, 255) else if f = 3 then (-32768, 32767)
  else if f = 4 then (-8388608, 8388607) else (-2147483648, 2147483647)

/-- What a conversion met (R301). -/
inductive Conv where
  | ok
  | sat
  | nan
  deriving DecidableEq, Repr

/-- A conversion into a format (R285-R289): the element's bits and what it met. INT24 is written sign-extended to its 4-byte
container (R282). -/
def convert (f mode r : Nat) (v : FV) : Nat × Conv :=
  if fmtInt f then
    let rg := intRange f
    let w := if f = 4 then 32 else fmtBits f
    match v with
    | .nan => (0, .nan)
    | .inf neg => (unsgn w (if neg then rg.1 else rg.2), .sat)
    | .fin neg m e =>
      let u := Int.ofNat (roundUnits mode r m e 0)
      let x := if neg then -u else u
      if x < rg.1 then (unsgn w rg.1, .sat) else if x > rg.2 then (unsgn w rg.2, .sat) else (unsgn w x, .ok)
  else
    match v with
    | .nan => (canonNan f, .nan)
    | .inf neg =>
      let sb := if neg then 2 ^ (fracBits f + expBits f) else 0
      if f = 6 then (sb + 0x7E, .sat) else (sb + (2 ^ expBits f - 1) * 2 ^ fracBits f, .ok)
    | .fin neg m e =>
      let x := encodeFloat f mode r false neg m e
      (x.1, if x.2 then .sat else .ok)

/-! ### Exact arithmetic and FP32 -/

/-- The exact product; an infinity times zero is a NaN. A product's zero has the product's sign (IEEE 754). -/
def fmulX : FV → FV → FV
  | .nan, _ => .nan
  | _, .nan => .nan
  | .inf a, .inf b => .inf (a != b)
  | .inf a, .fin b m _ => if m = 0 then .nan else .inf (a != b)
  | .fin a m _, .inf b => if m = 0 then .nan else .inf (a != b)
  | .fin a m e, .fin b n k => .fin (a != b) (m * n) (e + k)

/-- The signed integer of a finite value in units of 2^q, q at most its exponent. -/
def unitsI (neg : Bool) (m : Nat) (e q : Int) : Int :=
  let u := Int.ofNat (m * pow2 (e - q))
  if neg then -u else u

/-- The exact sum; infinities of opposite sign give a NaN; an exact zero sum is +0 unless both terms are −0 (IEEE 754). -/
def faddX : FV → FV → FV
  | .nan, _ => .nan
  | _, .nan => .nan
  | .inf a, .inf b => if a = b then .inf a else .nan
  | .inf a, .fin _ _ _ => .inf a
  | .fin _ _ _, .inf b => .inf b
  | .fin a m e, .fin b n k =>
    let q := min e k
    let t := unitsI a m e q + unitsI b n k q
    if t = 0 then .fin (a && b && m = 0 && n = 0) 0 q else .fin (t < 0) t.natAbs q

/-- The value with its sign inverted. -/
def fneg : FV → FV
  | .nan => .nan
  | .inf a => .inf (!a)
  | .fin a m e => .fin (!a) m e

/-- Rounds to FP32 by nearest-even, overflow giving an infinity (R286, R310). -/
def rnd32 : FV → FV
  | .nan => .nan
  | .inf a => .inf a
  | .fin a m e => decodeFmt 0xA (encodeFloat 0xA 0 0 true a m e).1

/-- The FP32 bits of a value that is an FP32 value. -/
def bits32 : FV → Nat
  | .nan => 0x7FC00000
  | .inf a => if a then 0xFF800000 else 0x7F800000
  | .fin a m e => (encodeFloat 0xA 0 0 true a m e).1

/-- The FP32 value of a word. -/
def f32 (w : Nat) : FV := decodeFmt 0xA w

/-- The FP32 sum. -/
def add32 (a b : FV) : FV := rnd32 (faddX a b)
/-- The FP32 difference. -/
def sub32 (a b : FV) : FV := rnd32 (faddX a (fneg b))
/-- The FP32 product. -/
def mul32 (a b : FV) : FV := rnd32 (fmulX a b)

/-- The exact value of an integer. -/
def ofI (v : Int) : FV := .fin (v < 0) v.natAbs 0

/-- Is `a < b` among numbers (no NaN)? -/
def fltX : FV → FV → Bool
  | .nan, _ => false
  | _, .nan => false
  | .inf a, .inf b => a && !b
  | .inf a, .fin _ _ _ => a
  | .fin _ _ _, .inf b => !b
  | .fin a m e, .fin b n k => let q := min e k; unitsI a m e q < unitsI b n k q

/-- Is the value −0? -/
def negZero : FV → Bool
  | .fin true 0 _ => true
  | _ => false

/-- The larger value, the canonical NaN when one is a NaN, −0 below +0 (DEDUCED, log 17). -/
def fmax (a b : FV) : FV := if a = .nan ∨ b = .nan then .nan else if fltX a b || (negZero a && !fltX b a) then b else a
/-- The smaller value, the canonical NaN when one is a NaN, −0 below +0 (DEDUCED, log 17). -/
def fmin (a b : FV) : FV := if a = .nan ∨ b = .nan then .nan else if fltX b a || (negZero b && !fltX a b) then b else a

/-- The FP32 quotient: enough quotient bits for one rounding, with a sticky bit. -/
def div32 : FV → FV → FV
  | .nan, _ => .nan
  | _, .nan => .nan
  | .inf _, .inf _ => .nan
  | .inf a, .fin b _ _ => .inf (a != b)
  | .fin a _ _, .inf b => .fin (a != b) 0 0
  | .fin a m e, .fin b n k =>
    if n = 0 then (if m = 0 then .nan else .inf (a != b))
    else
      let sh := 64 + Nat.log2 n
      let t := m * 2 ^ sh
      rnd32 (.fin (a != b) (2 * (t / n) + (if t % n = 0 then 0 else 1)) (e - k - Int.ofNat sh - 1))

/-- The FP32 square root; of a negative number a NaN. -/
def sqrt32 : FV → FV
  | .nan => .nan
  | .inf a => if a then .nan else .inf false
  | .fin a m e =>
    if m = 0 then .fin a 0 0
    else if a then .nan
    else
      let sh : Nat := if (e % 2 = 0) then 64 else 65
      let t := m * 2 ^ sh
      let r := Nat.sqrt t
      rnd32 (.fin false (2 * r + (if r * r = t then 0 else 1)) ((e - Int.ofNat sh) / 2 - 1))

/-- 2^96 and ln 2 in units of 2^−96. -/
def fix96 : Int × Int := (79228162514264337593543950336, 54916777467707473351141471128)

/-- exp of a number of units of 2^−96: a sum in those units and a power of two, by whole multiples of ln 2 and the series of the rest, far
closer than the bound of R317. -/
def expFix (x : Int) : Nat × Int :=
  let k := (x + fix96.2 / 2) / fix96.2
  let r := x - k * fix96.2
  (((List.range 24).foldl (fun (a : Int × Int) i =>
    let t := a.2 * r / fix96.1 / Int.ofNat (i + 1)
    (a.1 + t, t)) (fix96.1, fix96.1)).1.toNat, k)

/-- exp of a finite value, close to the exact one; beyond ±256 an infinity, or a value below every FP32 value. -/
def expNear (neg : Bool) (m : Nat) (e : Int) : FV :=
  if magAbove m e 256 0 then (if neg then .fin false 1 (-369) else .inf false)
  else
    let u := Int.ofNat (if 0 ≤ e + 96 then m * pow2 (e + 96) else m / pow2 (-(e + 96)))
    let r := expFix (if neg then -u else u)
    .fin false r.1 (r.2 - 96)

/-- Is the relative error of `v` against the exact value `a` below 2^−21 (R317)? -/
def relOk (a v : FV) : Bool :=
  match a, v with
  | .fin _ _ _, .fin false _ _ => match faddX v (fneg a) with
    | .fin _ m e => fltX (.fin false m (e + 21)) a
    | _ => false
  | _, _ => false

/-- Is an FP32 value `v` an exp that R317 allows for the exact value `a`: a relative error below 2^−21, or, where no FP32 value comes so near to
`a` (the least subnormal numbers), an error below 2^−149 (DESIGN CHOICE, log 3)? -/
def expOk (a v : FV) : Bool :=
  relOk a v || (!relOk a (rnd32 a) && (match v with
    | .fin false _ _ => (match faddX v (fneg a) with
      | .fin _ m e => fltX (.fin false m e) (.fin false 1 (-149))
      | _ => false)
    | _ => false))

/-- exp of an FP32 value (R317): a NaN gives a NaN, −infinity gives zero, else a free value within the bound (log 3). -/
def exp32 (x : FV) : FV :=
  match x with
  | .nan => .nan
  | .inf a => if a then .fin false 0 0 else .inf false
  | .fin n m e =>
    let a := expNear n m e
    let v := f32 (Config.expFp32 (BitVec.ofNat 32 (bits32 x))).toNat
    if expOk a v then v else rnd32 a

/-! ### The generator and the statistics -/

/-- One step of the stochastic-rounding generator (R287). -/
def rngStep (s : W64) : W64 :=
  let a := s ^^^ (s <<< 13)
  let b := a ^^^ (a >>> 7)
  b ^^^ (b <<< 17)

/-- The 16-bit value of a generator state (R287). -/
def rngVal (s : W64) : Nat := (s >>> 48).toNat

/-- The generator state at dispatch and for a seed of 0 (R287). -/
def rngSeed : W64 := 0x9E3779B97F4A7C15

/-- The generator after `n` steps from dispatch (R287). -/
def rngAt (n : Nat) : W64 := forN n (fun _ g => rngStep g) rngSeed

/-- A statistics record (Table 11.5). -/
structure Stat where
  sse : FV := .fin false 0 0
  sat : Nat := 0
  nan : Nat := 0
  deriving DecidableEq, Repr

/-- The record that 8 bytes hold. -/
def Stat.ofBytes (b : List Byte) : Stat := { sse := f32 (leAt b 0 4), sat := leAt b 4 2, nan := leAt b 6 2 }
/-- The 8 bytes of a record. -/
def Stat.bytes (s : Stat) : List Byte := toLe 4 (bits32 s.sse) ++ toLe 2 s.sat ++ toLe 2 s.nan

/-- A record with one element added (R301): `x` the exact scaled source, `y` the element written. -/
def Stat.add (s : Stat) (x : FV) (y : FV) (k : Conv) : Stat :=
  match k, x with
  | .nan, _ => { s with nan := Nat.min (s.nan + 1) 0xFFFF }
  | _, .inf _ => { s with sat := Nat.min (s.sat + 1) 0xFFFF }
  | k, x =>
    let d := faddX y (fneg x)
    { s with sse := add32 s.sse (rnd32 (fmulX d d)), sat := if k = .sat then Nat.min (s.sat + 1) 0xFFFF else s.sat }

/-- Two partial records added (R321). -/
def Stat.join (a b : Stat) : Stat :=
  { sse := add32 a.sse b.sse, sat := Nat.min (a.sat + b.sat) 0xFFFF, nan := Nat.min (a.nan + b.nan) 0xFFFF }

/-- Converts a list of scaled source values in ascending order (R285-R289, R301): the generator steps once an element in
stochastic mode. Gives the elements' bits, what each met, and the generator. -/
def convertAll (f mode : Nat) : W64 → List FV → List (Nat × Conv) × W64
  | g, [] => ([], g)
  | g, v :: t =>
    let g' := if mode = 1 then rngStep g else g
    let r := convertAll f mode g' t
    (convert f mode (rngVal g') v :: r.1, r.2)

/-- Element `i` of a byte list in a format (R282): bits 31:24 of an INT24 container are ignored, and an INT24 element that is written shows
copies of its bit 23 there. -/
def elemAt (f : Nat) (b : List Byte) (i : Nat) : Nat :=
  if f = 0 then bits (leAt b (i / 2) 1) (4 * (i % 2)) 4
  else if f = 4 then unsgn 32 (sgn 24 (leAt b (4 * i) 4))
  else leAt b (i * (fmtBits f / 8)) (fmtBits f / 8)

/-- The bytes of a list of elements in a format (R282); INT4 elements are packed in pairs. -/
def packElems (f : Nat) : List Nat → List Byte
  | [] => []
  | [a] => if f = 0 then toLe 1 (a % 16) else toLe (fmtBits f / 8) a
  | a :: b :: t =>
    if f = 0 then toLe 1 (a % 16 + 16 * (b % 16)) ++ packElems f t
    else toLe (fmtBits f / 8) a ++ toLe (fmtBits f / 8) b ++ packElems f t

end Sys2Proof.Machine
end

