-- ==== Sys2Proof/Machine/OpBlock.lean ====
section
/-!
DEFINITION. The operator block of RUN_OP (Tables 12.1, 12.2, 12.5): its tensors, stages and attributes, and which tensors an operator
writes (Tables 12.3, 13.1, 14.2, 15.5, 17.3).
-/
namespace Sys2Proof.Machine

/-- A tensor entry (Table 12.2). -/
structure Tensor where
  addr : Nat
  fmt : Nat
  rank : Nat
  rsv : Nat
  d0 : Nat
  d1 : Nat
  d2 : Nat
  d3 : Nat
  stride : Nat
  deriving DecidableEq, Repr

/-- A stage entry (Table 12.5). -/
structure Stage where
  kind : Nat
  side : Nat
  fmt : Nat
  sel : Nat
  addr : Nat
  arg0 : Nat
  arg1 : Nat
  deriving DecidableEq, Repr

/-- An operator block (Table 12.1). -/
structure OpBlk where
  id : Nat
  nt : Nat
  ns : Nat
  maxCores : Nat
  flags : Nat
  attrLen : Nat
  tensors : List Tensor
  stages : List Stage
  attrs : List Byte
  deriving DecidableEq, Repr

/-- The tensor entry in the 32 bytes from offset `o`. -/
def tensorAt (b : List Byte) (o : Nat) : Tensor :=
  { addr := leAt b o 8, fmt := leAt b (o + 8) 1, rank := leAt b (o + 9) 1, rsv := leAt b (o + 10) 2, d0 := leAt b (o + 12) 4,
    d1 := leAt b (o + 16) 4, d2 := leAt b (o + 20) 4, d3 := leAt b (o + 24) 4, stride := leAt b (o + 28) 4 }

/-- The stage entry in the 16 bytes from offset `o`. -/
def stageAt (b : List Byte) (o : Nat) : Stage :=
  { kind := leAt b o 1, side := leAt b (o + 1) 1, fmt := leAt b (o + 2) 1, sel := leAt b (o + 3) 1, addr := leAt b (o + 4) 4,
    arg0 := leAt b (o + 8) 4, arg1 := leAt b (o + 12) 4 }

/-- The length that a block's counts imply (R311). -/
def blkLen (b : List Byte) : Nat := 16 + 32 * leAt b 2 1 + 16 * leAt b 3 1 + leAt b 6 2

/-- The block at the start of the bytes. -/
def parseBlk (b : List Byte) : OpBlk :=
  let nt := leAt b 2 1
  let ns := leAt b 3 1
  { id := leAt b 0 2, nt := nt, ns := ns, maxCores := leAt b 4 1, flags := leAt b 5 1, attrLen := leAt b 6 2,
    tensors := (List.range nt).map (fun i => tensorAt b (16 + 32 * i)),
    stages := (List.range ns).map (fun i => stageAt b (16 + 32 * nt + 16 * i)),
    attrs := slice b (16 + 32 * nt + 16 * ns) (leAt b 6 2) }

/-- The blocks of a command: the second one follows when LINKED is 1. -/
def opBlocks (b : List Byte) : List OpBlk :=
  let x := parseBlk b
  if bitN x.flags 0 then [x, parseBlk (b.drop (blkLen b))] else [x]

/-- Tensor `i` of a block; a missing one has rank 0. -/
def OpBlk.t (x : OpBlk) (i : Nat) : Tensor := x.tensors.getD i ⟨0, 0xFF, 0, 0, 1, 1, 1, 1, 0⟩

/-- Bytes of one row of DIM0 elements (R282); FMT 0xFF counts raw bytes. -/
def Tensor.rowBytes (t : Tensor) : Nat := if t.fmt = 0xFF then t.d0 else fmtBytes t.fmt t.d0
/-- Rows of DIM0 elements. -/
def Tensor.rows (t : Tensor) : Nat := t.d1 * t.d2 * t.d3
/-- Bytes between rows. -/
def Tensor.step (t : Tensor) : Nat := if t.stride = 0 then t.rowBytes else t.stride
/-- The byte ranges (address, length) that a tensor covers: none for rank 0. -/
def Tensor.ranges (t : Tensor) : List (Nat × Nat) :=
  if t.rank = 0 then []
  else if t.step = t.rowBytes then [(t.addr, t.rowBytes * t.rows)]
  else (List.range t.rows).map (fun i => (t.addr + i * t.step, t.rowBytes))

/-- The tensor indexes that an operator writes (Tables 12.3, 13.1, 14.2, 15.5). For the training operators, whose tensor order
the spec does not give, inputs first, then outputs (DESIGN CHOICE, log 18). -/
def OpBlk.outIdx (x : OpBlk) : List Nat :=
  if x.id = 0x0100 ∨ x.id = 0x0101 ∨ (0x0200 ≤ x.id ∧ x.id ≤ 0x0203) then [2]
  else if x.id = 0x0110 ∨ x.id = 0x0111 ∨ x.id = 0x0112 ∨ (0x0210 ≤ x.id ∧ x.id ≤ 0x0231) then [1]
  else if x.id = 0x0113 then [1, 2]
  else if x.id = 0x0300 ∨ x.id = 0x0301 then [4, 5]
  else if x.id = 0x0302 then [6, 7]
  else if x.id = 0x0400 then [3, 6]
  else
    let k := if x.id = 0x0500 then 9 else if x.id = 0x0501 then 4 else if x.id = 0x0502 then 2 else 1
    (List.range x.nt).filter (fun i => k ≤ i)

/-- Is the stage a REQUANT that gathers statistics (Table 12.5)? -/
def Stage.stat (g : Stage) : Bool := g.kind == 8 && bitN g.sel 2

/-- The tensor indexes of the statistics records. -/
def OpBlk.statIdx (x : OpBlk) : List Nat := (x.stages.filter Stage.stat).map (·.arg0)

/-- The byte ranges that an operator writes: output tensors and statistics records. -/
def OpBlk.outRanges (x : OpBlk) : List (Nat × Nat) := (x.outIdx ++ x.statIdx).flatMap (fun i => (x.t i).ranges)

end Sys2Proof.Machine
end

