-- ==== Sys2Proof/Machine/Jobs.lean ====
section
/-!
DEFINITION. Jobs: creation, placement and dispatch (R206-R209, R213, R235, R236), the ways a job ends (R237, R253, R315, R390,
R394), the abort of an epoch (R403), pre-emption with its save and restore (R214-R218, R238, R239), and JOB_DISPATCH,
PREEMPT_SAVE_DONE, JOB_RESTORE_DONE and CORE_RESET_DONE.
-/
namespace Sys2Proof.Machine

/-! ### Creation -/

/-- A job becomes eligible (R206): its number, its place in the order of eligibility, the image that it runs (R182). -/
def State.newJob (j : Job) (s : State) : State :=
  { s with jobs := tset none s.jobs s.sch.nextJob (some { j with elig := s.sch.nextElig, prog := s.image j.image }),
           sch.nextJob := s.sch.nextJob + 1, sch.nextElig := s.sch.nextElig + 1 }

/-- The command that a job runs for. -/
def JobKind.cmdId : JobKind → Option Nat
  | .program id => some id
  | .op id _ => some id
  | _ => none

/-- The jobs of a command. -/
def State.jobsOf (s : State) (id : Nat) : List Nat :=
  s.jobs.filterMap (fun e => e.2.bind (fun j => if j.kind.cmdId = some id then some e.1 else none))

/-- The access rights of a job: its tenant, the windows it was dispatched with, its epoch. -/
def Job.agent (j : Job) : Agent := { tenant := some j.tenant, windows := j.windows, epoch := j.epoch, barred := j.barred }

/-! ### DMA transfers -/

/-- The bytes of a transfer. -/
def Dma.total (q : Dma) : Nat := q.rows * q.len

/-- The bytes `lo` up to and without `hi` of row `i` that lie between the counts `a` and `b` of the whole transfer. -/
def Dma.part (q : Dma) (a b i : Nat) : Nat × Nat := (Nat.min q.len (a - i * q.len), Nat.min q.len (b - i * q.len))

/-- The bytes from `lo` on of row `i` of a transfer, `n` of them; bytes of the host window are `host`'s where it supplies them. -/
def State.dmaRow (s : State) (c : Nat) (g : Agent) (q : Dma) (host : List Byte) (i lo n : Nat) : List Byte :=
  let a := q.src + i * q.sstr + lo
  if !q.srcDev then mreadN (s.core c).lm a n
  else if s.region a = .host ∧ host ≠ [] then slice host (i * q.len + lo) n
  else s.agentRead g a n

/-- A transfer of core `c` goes on from the bytes it has moved up to `upto` bytes (R239, R244); the truth value says that the Hoard was
exhausted (R400). -/
def State.dmaRun (c : Nat) (g : Agent) (q : Dma) (host : List Byte) (upto : Nat) (s : State) : State × Bool :=
  (List.range q.rows).foldl (fun r i =>
    let b := q.part q.done upto i
    if r.2 || b.2 ≤ b.1 then r
    else
      let s0 := if q.srcDev then r.1.unitDone (q.src + i * q.sstr + b.1) (b.2 - b.1) else r.1
      let bs := s0.dmaRow c g q host i b.1 (b.2 - b.1)
      let a := q.dst + i * q.dstr + b.1
      if q.dstDev then
        match s0.agentWrite g (c / 16) a bs with
        | some s => (s, false)
        | none => (s0, true)
      else (s0.modCore c (fun x => { x with lm := mwrite x.lm a bs }), false)) (s, false)

/-- The rows of a transfer as byte ranges. -/
def Dma.rowsAt (q : Dma) (base str : Nat) : List (Nat × Nat) := (List.range q.rows).map (fun i => (base + i * str, q.len))

/-- The device ranges of a transfer with the permission each needs. -/
def Dma.devRows (q : Dma) : List (Nat × Nat × Nat) :=
  (if q.srcDev then (q.rowsAt q.src q.sstr).map (fun r => (0, r)) else []) ++
  (if q.dstDev then (q.rowsAt q.dst q.dstr).map (fun r => (1, r)) else [])

/-- The first denied device access of a transfer, key faults included. -/
def State.dmaDeny (s : State) (g : Agent) (q : Dma) : Option Deny := q.devRows.findSome? (fun r => s.access g r.1 r.2.1 r.2.2)

/-- The first device access of a transfer that is denied for another reason than its key (R244: what the issue checks). -/
def State.dmaBad (s : State) (g : Agent) (q : Dma) : Option Deny :=
  q.devRows.findSome? (fun r => (s.access g r.1 r.2.1 r.2.2).filter (fun d => d.key.isNone))

/-- Is a transfer of core `c` held because a bridge that it crosses retrains (R29): that of its own die, or of the die of a DM it reaches? -/
def State.dmaHeld (s : State) (c : Nat) (q : Dma) : Bool :=
  q.devRows.any (fun r => s.pathHeld (some (c / 16)) r.2.1 r.2.2)

/-- The epoch aborts with a cause (R403): its members complete at EPOCH_ABORT_DONE. -/
def State.abortEpoch (e : Nat) (cause : BitVec 4) (s : State) : State :=
  if (s.epoch e).st = .opened ∨ (s.epoch e).st = .sealing then
    s.modEpoch e (fun p => { p with st := .aborting, cause := cause })
  else s

/-- An epoch whose Hoard allocation failed aborts (R400). -/
def State.hoardFull (e : Nat) (s : State) : State := (s.errSpec 0).abortEpoch e 4

/-- What an access of an agent leaves when the Hoard had no page for it (R400). -/
def State.hoardOut (g : Agent) (r : State × Bool) : State :=
  match r.2, g.epoch with
  | true, some e => r.1.hoardFull e
  | _, _ => r.1

/-- A transfer carried out with its keys checked (R244, R478): a denied one moves nothing and notes the error; one that the Hoard has no page
for aborts its epoch (R400). -/
def State.dmaEnd (c : Nat) (g : Agent) (q : Dma) (s : State) : State :=
  match s.dmaDeny g q with
  | some d => s.noteDeny d
  | none => State.hoardOut g (s.dmaRun c g q [] q.total)

/-- A transfer that a bridge holds leaves its core with what it still reads from LM (R29). -/
def State.holdDma (c : Nat) (g : Agent) (q : Dma) (s : State) : State :=
  { s with sch.heldDma := s.sch.heldDma ++ [{
      core := c, tenant := g.tenant.getD 0, windows := g.windows, epoch := g.epoch, barred := g.barred, dma := q,
      rows := if q.srcDev then [] else (List.range q.rows).map (fun i => mreadN (s.core c).lm (q.src + i * q.sstr) q.len) }] }

/-- Every queued transfer of a core completes in issue order (R253, R361); from the first one on that a retraining bridge holds, they
complete after it (R29). -/
def State.dmaFlush (c : Nat) (g : Agent) (s : State) : State :=
  ((s.core c).dmas.foldl (fun s q =>
    if s.dmaHeld c q || s.sch.heldDma.any (fun h => h.core == c) then s.holdDma c g q else s.dmaEnd c g q) s).modCore c
      (fun x => { x with dmas := [] })

/-- The agent of a held transfer. -/
def HeldDma.agent (h : HeldDma) : Agent := { tenant := some h.tenant, windows := h.windows, epoch := h.epoch, barred := h.barred }

/-- A held transfer proceeds (R29): into LM there is nothing left to write, its job having ended. -/
def State.dmaGoes (h : HeldDma) (s : State) : State :=
  match s.dmaDeny h.agent h.dma with
  | some d => s.noteDeny d
  | none =>
    if !h.dma.dstDev then s
    else State.hoardOut h.agent ((List.range h.dma.rows).foldl (fun (r : State × Bool) i =>
      let b := h.dma.part h.dma.done h.dma.total i
      if r.2 || b.2 ≤ b.1 then r
      else
        let bs := if h.dma.srcDev then r.1.dmaRow h.core h.agent h.dma [] i b.1 (b.2 - b.1)
          else slice (h.rows.getD i []) b.1 (b.2 - b.1)
        match r.1.agentWrite h.agent (h.core / 16) (h.dma.dst + i * h.dma.dstr + b.1) bs with
        | some s => (s, false)
        | none => (r.1, true)) (s, false))

/-- The held transfers that no bridge holds any more proceed in order, each behind those of its core (R29). Those of an epoch that aborts
are discarded with it (R403). -/
def State.dmaRelease (s : State) : State :=
  s.sch.heldDma.foldl (fun s h =>
    let live : Bool := match h.epoch with | some e => (s.epoch e).st != .aborting && (s.epoch e).st != .free | none => true
    if !live then s
    else if s.dmaHeld h.core h.dma || s.sch.heldDma.any (fun k => k.core == h.core) then
      { s with sch.heldDma := s.sch.heldDma ++ [h] }
    else s.dmaGoes h) { s with sch.heldDma := [] }

/-! ### Leaving the core -/

/-- The core has no context any more: idle, its wait, compares, events and cells gone (R260). -/
def State.freeCore (c : Nat) (s : State) : State :=
  (s.modCore c (fun x => { x with phase := .idle, job := none, wait := none, events := 0, wakeMsg := none, dmas := [],
                                  keyFault := none, doze := false, sync := [], progress := 0 })).disarm (.core c)

/-- The forwarding entries of a job removed (R266). -/
def State.dirDrop (j : Nat) (s : State) : State :=
  { s with sch.dir := forN 64 (fun c t => if tget none t c = some j then tset none t c none else t) s.sch.dir }

/-- The job's save slot freed (R206). -/
def State.slotFree (j : Job) (s : State) : State :=
  match j.slot with
  | none => s
  | some n => { s with tenants := tmod none s.tenants j.tenant (fun o => o.map (fun t =>
      { t with slotsUsed := t.slotsUsed.filter (· ≠ n) })) }

/-- The Hoard pages that hold the saved context of a job are freed (R217, R401). -/
def State.freeCtx (j : Nat) (s : State) : State :=
  s.epochs.foldl (fun s e => s.modEpoch e.1 (fun p => { p with ctxPages := p.ctxPages.filter (fun q => q.target ≠ j) }))
    { s with sch.ctxKept := s.sch.ctxKept.filter (fun q => q.target ≠ j) }

/-- A job ends: its queued transfers complete (`flush`), its core, slot, forwarding entries and Hoard pages are freed, and the
cube cycles of a speculative job are kept for R403. Signals held for a restore that so ends are dropped (R266, R281). -/
def State.endJob (j : Nat) (flush : Bool) (s : State) : State :=
  match s.job j with
  | none => s
  | some x =>
    let s1 := match x.st with
      | .running c => (if flush then s.dmaFlush c x.agent else s).freeCore c
      | .saving c => (if flush then s.dmaFlush c x.agent else s).freeCore c
      | .restoring c => (s.dropHeld j c).freeCore c
      | _ => s
    let s2 := (s1.dirDrop j).slotFree x
    let s3 := match x.epoch with
      | some e => s2.modEpoch e (fun p => { p with discardCc := p.discardCc + x.cubeCc })
      | none => s2
    { s3.freeCtx j with jobs := tset none s3.jobs j none }

/-- The outputs of an operator that does not complete SERVED hold undefined values (R315): free values (log 3). -/
def State.opUndefined (c : Cmd) (s : State) : State :=
  if c.op = 0x0040 ∧ c.epoch = none ∧ c.phase = .running then
    ((opBlocks c.params).flatMap OpBlk.outRanges).foldl (fun s r => s.undefine c.tenant r) s
  else s

/-! ### The end of an epoch's life (R403) -/

/-- A member command that ends its epoch by its own fault, timer or ABORT: its entry is held with SPECULATIVE_DISCARDED (R403). -/
def State.finishOwn (c : Cmd) (d : Done) (s : State) : State :=
  match c.epoch with
  | some e =>
    if (s.epoch e).live then
      (s.dropCmd c.id).modEpoch e (fun x => { x with held := x.held ++
        [{ cq := c.cq, sq := c.sq, st := c.status { d with discarded := true } s.tb.sfc, own := true }] })
    else s.finish c d
  | none => s.finish c d

/-- A command with work under way ends without being served: its jobs stop, its pins are released, its outputs are undefined; a
member's epoch aborts with cause MEMBER (R186, R228, R229, R253, R315, R376, R403). -/
def State.stopOwn (c : Cmd) (d : Done) (flush : Bool) (s : State) : State :=
  let s1 := (s.jobsOf c.id).foldl (fun s j => s.endJob j flush) s
  let s2 := (s1.kvUnpinCmd c.id).opUndefined c
  let s3 := s2.finishOwn c d
  match c.epoch with
  | some e => s3.abortEpoch e 9
  | none => s3

/-- As `stopOwn`; but what would end a member of an epoch that aborts already is not the cause of the abort, and the member completes with the
others, unless its die is lost (R403). -/
def State.stopCmd (c : Cmd) (d : Done) (flush : Bool) (s : State) : State :=
  if c.epoch.any (fun e => (s.epoch e).st == .aborting) && d.rs ≠ rsDieLost then s.modCmd c.id (fun x => { x with timer := false })
  else s.stopOwn c d flush

/-- A block job ends without a result: the block falls back at its fetch point (R90, R253). -/
def State.loseBlock (h fs : Nat) (s : State) : State :=
  s.modStream h (fun x => { x with blocks := x.blocks.map (fun b => if b.s = fs then { b with job := none } else b) })

/-- The status entry of a rule's launch (R175, R394): DEFERRED, PREEMPTED and PREEMPT_COUNT as for a command. -/
def launchEntry (r : Nat) (x : Rule) (oc : BitVec 3) (rs : Nat) (discarded : Bool) (sfc : Sfc) : Status :=
  { tag := BitVec.ofNat 16 (0xF000 + r), op := 0x0061, tenant := x.tenant, outcome := oc, reason := BitVec.ofNat 16 rs,
    flags := BitVec.ofNat 4 (at_ x.deferred 0 + at_ (x.preempts ≠ 0) 1 + at_ discarded 2), preempts := x.preempts, sfc := sfc }

/-- The reason of the lowest-indexed faulting job of a launch. -/
def Rule.failure (x : Rule) : Option Nat :=
  (x.faults.foldl (fun (o : Option (Nat × Nat)) f => match o with
    | none => some f
    | some g => if f.1 < g.1 then some f else some g) none).map (·.2)

/-- A job of a rule's launch ends (R394): `rs` its failure. The last one produces the launch's entry: posted, or for a
speculative launch held until the epoch ends. With CQ 0xFF there is none; a disabled completion ring discards it. -/
def State.launchEnd (r k : Nat) (rs : Option Nat) (s : State) : State :=
  let s1 := s.modRule r (fun x => { x with
    left := x.left - 1, faults := match rs with | some v => x.faults ++ [(k, v)] | none => x.faults })
  let x := s1.rule r
  if x.left ≠ 0 ∨ x.cq = 0xFF then s1
  else
    let e := launchEntry r x (if x.failure.isSome then ocFailed else ocServed) (x.failure.getD 0) false s1.tb.sfc
    if x.specLaunch ∧ (s1.epoch (48 + r)).live then
      s1.modEpoch (48 + r) (fun p => { p with held := p.held ++ [{ cq := x.cq, sq := 0xFF, st := e, own := x.failure.isSome }] })
    else s1.postStatus x.cq e

/-- A job fails with a reason (R253, R218, R274, R29): what it ran for reports it. `result` goes into a RUN_PROGRAM entry;
`cause` is the abort cause for a speculative job's epoch; `flush` completes its queued transfers. -/
def State.failJob (j : Nat) (rs : Nat) (result : List Byte) (cause : BitVec 4) (flush : Bool) (s : State) : State :=
  match s.job j with
  | none => s
  | some x =>
    let own := cause ≠ 3
    let with_ := x.epoch.isSome ∧ (cause = 6 ∨ (x.epoch.any (fun e => (s.epoch e).st == .aborting) ∧ cause ≠ 8))
    let s0 := match x.epoch with
      | some e => s.abortEpoch e cause
      | none => s
    match x.kind with
    | .program id => match s0.cmd id with
      | none => s0.endJob j flush
      | some c =>
        if with_ then s0.endJob j flush
        else s0.stopOwn c { oc := ocFailed, rs := if own then rs else rsEpochAborted, result := result } flush
    | .op id _ => match s0.cmd id with
      | none => s0.endJob j flush
      | some c =>
        if with_ then s0.endJob j flush
        else s0.stopOwn c { oc := ocFailed, rs := if own then rs else rsEpochAborted } flush
    | .block h b => (s0.endJob j flush).loseBlock h b
    | .launch r k => (s0.endJob j flush).launchEnd r k (some rs)
    | .fit k =>
      (s0.endJob j flush).capEnd k (fun _ => { oc := ocFailed, rs := rs })

/-- Every job that passes the test fails (R29, R102, R231); `cause` aborts the epochs of speculative ones. -/
def State.failJobs (p : Job → Bool) (rs : Nat) (cause : BitVec 4) (s : State) : State :=
  (s.jobs.filterMap (fun e => e.2.bind (fun j => if p j then some e.1 else none))).foldl
    (fun s j => s.failJob j rs [] cause false) s

/-- A core records a fault in CORE_FAULT and CORE_ERR (R253). -/
def State.coreFault (c code pc : Nat) (s : State) : State :=
  (s.modCore c (fun x => { x with fault := BitVec.ofNat 8 code, faultPc := BitVec.ofNat 32 pc })).errCore c

/-- With FAULT_RESET the core that faulted is unavailable until its reset ends (R253). -/
def State.faultHold (c : Nat) (s : State) : State :=
  if (s.core c).faultReset then s.modCore c (fun x => { x with phase := .unavailable }) else s

/-- A tile fault (R253): recorded, the job stopped, its work reported, a Quill trigger when FAULT_EN bit 0 is set, and with
FAULT_RESET the core unavailable until its reset ends. -/
def State.tileFault (c code pc : Nat) (s : State) : State :=
  let s1 := s.coreFault c code pc
  let s2 := match (s.core c).job with
    | none => s1
    | some j =>
      let s1 := if code = ftSpecViolation then s1.errSpec 1 else s1
      s1.failJob j (faultReason code) (toLe 1 code ++ toLe 4 pc ++ toLe 3 0) (if code = ftSpecViolation then 3 else 9) true
  (if bit s.obs.quillCtrl 4 then s2.quillUp 2 0 false else s2).faultHold c

/-! ### Placement and dispatch -/

/-- Does the job occupy a core? -/
def Job.onCore (j : Job) : Bool :=
  match j.st with
  | .running _ => true
  | .saving _ => true
  | .restoring _ => true
  | _ => false

/-- Does a BACKGROUND or INTERACTIVE job find a free save slot and room in its core budget (R206), beside the jobs `ps` that are placed
before it? A pre-empted job holds its slot. -/
def State.budgetBeside (s : State) (ps : List Job) (j : Job) : Bool :=
  match s.tenant j.tenant with
  | none => false
  | some t =>
    let lim := if j.cls = .interactive then t.intCores else t.bgCores
    let n := (s.jobs.filter (fun e => match e.2 with
      | some x => x.tenant = j.tenant && x.cls = j.cls && x.onCore
      | none => false)).length + (ps.filter (fun x => x.tenant == j.tenant && x.cls == j.cls)).length
    let k := t.slotsUsed.length + (ps.filter (fun x => x.tenant == j.tenant && x.slot.isNone)).length
    (j.slot.isSome || k < t.saveSlots) && n < lim

/-- Does a job find a save slot and room in its budget (R206)? -/
def State.hasBudget (s : State) (j : Job) : Bool := s.budgetBeside [] j

/-- Is core `c` free: idle on a die whose bridge is UP (R207)? -/
def State.coreFree (s : State) (c : Nat) : Bool := (s.core c).phase == .idle && s.dieUp (c / 16)

/-- The cores of a mask in rising order. -/
def maskCores (m : W64) : List Nat := (List.range 64).filter (fun c => bit m c)

/-- The affinity of a job's tenant (R200: waiting jobs use the present mask). -/
def State.jobMask (s : State) (j : Job) : W64 := (s.tenant j.tenant).elim 0 (·.affinity)

/-- Does a job wait for a core: never dispatched, or pre-empted? -/
def Job.waits (j : Job) : Bool := j.st == .waiting || j.st == .saved

/-- The waiting block jobs of a core with their home and first frame. -/
def State.blockWaits (s : State) (c : Nat) : List (Nat × Nat × Nat) :=
  s.jobs.filterMap (fun e => e.2.bind (fun j => match j.kind with
    | .block h b => (s.stream h).bind (fun x => if j.waits ∧ x.homeOf b = c then some (e.1, b + 2 * 2 ^ x.bLog2, h) else none)
    | _ => none))

/-- The block job that runs next on a core: earliest fetch point, ties by the lower handle (R213). -/
def State.nextBlock (s : State) (c : Nat) : Option Nat :=
  ((s.blockWaits c).foldl (fun (o : Option (Nat × Nat × Nat)) e => match o with
    | none => some e
    | some g => if e.2.1 < g.2.1 ∨ (e.2.1 = g.2.1 ∧ e.2.2 < g.2.2) then some e else some g) none).map (·.1)

/-- Does job `a` come before job `b` in the order of R208? -/
def jobBefore (a b : Job) : Bool :=
  clsNum a.cls < clsNum b.cls || (a.cls = b.cls && a.elig < b.elig)

/-- The cores that block jobs and earlier waiting jobs take, and those earlier jobs, whose places in their budgets they take as well (R206,
R208, R225). -/
def State.claimed (s : State) (j : Job) : List Nat × List Job :=
  let blocks := (List.range 64).filter (fun c => (s.nextBlock c).isSome)
  let ahead := sortBy (fun a b => jobBefore a b || a.elig == b.elig) (s.jobs.filterMap (fun e => e.2.bind (fun x =>
    if x.waits ∧ x.cls ≠ .realtime ∧ jobBefore x j then some x else none)))
  ahead.foldl (fun l x =>
    if !s.budgetBeside l.2 x then l
    else match (maskCores (s.jobMask x)).find? (fun c => s.coreFree c && !l.1.contains c) with
    | some c => (c :: l.1, x :: l.2)
    | none => l) (blocks, [])

/-- The eight argument registers of a job (R235, R236, R394). -/
def argRegs (l : List W64) : Tbl W64 := forN 8 (fun i t => tset 0 t i (l.getD i 0)) []

/-- The lowest free save slot of a tenant. -/
def Tenant.freeSlot (t : Tenant) : Option Nat := (List.range t.saveSlots).find? (fun n => !t.slotsUsed.contains n)

/-- Base of the frame-mover area in LM (R233). -/
def fmBase : Nat := 0xB0000

/-- A context starts on core `c`: the forwarding entry of another context of the same tenant is removed (R266). -/
def State.dirStart (c j tenant : Nat) (s : State) : State :=
  match tget none s.sch.dir c with
  | none => s
  | some k => match s.job k with
    | some x => if k ≠ j ∧ x.tenant = tenant then { s with sch.dir := tset none s.sch.dir c none } else s
    | none => { s with sch.dir := tset none s.sch.dir c none }

/-- Job `j` starts on core `c` with the core as R235 leaves it. -/
def State.startOn (j c : Nat) (x : Job) (s : State) : State :=
  let t := s.tenant x.tenant
  let slot := if x.cls = .realtime then none else t.bind Tenant.freeSlot
  let code := match x.kind with
    | .op _ _ => (0, 0, 0)
    | .fit _ => (0, 0, 0)
    | _ => match x.prog with
      | some i => (i.codeBase, i.codeLen, i.entries.getD x.entry 0)
      | none => (0, 0, 0)
  let area := match t, slot with
    | some t, some n => t.saveBase + n * 0xD1000
    | _, _ => 0
  let s1 := s.modJob j (fun y => { y with
    st := .running c, slot := slot, slotAddr := area, windows := (t.map (·.windows)).getD [] })
  let s2 := match slot with
    | some n => { s1 with tenants := tmod none s1.tenants x.tenant (fun o => o.map (fun (t : Tenant) =>
        { t with slotsUsed := t.slotsUsed ++ [n] })) }
    | none => s1
  (s2.modCore c (fun k => { k with
    phase := .running, job := some j, pc := code.2.2, codeBase := code.1, codeLen := code.2.1, a := argRegs x.args, n := [],
    p := [], loops := [], doze := false, live := 0, rng := rngSeed, progress := 0, curves := [], sync := [], dmas := [],
    wait := none, events := 0, wakeMsg := none, lm := mzero k.lm 0 fmBase, acc := [],
    keyFault := none })).dirStart c j x.tenant

/-- A pre-emption is requested of core `c` (R209, R213, R214). -/
def State.preempt (c : Nat) (s : State) : State :=
  match (s.core c).phase, (s.core c).job with
  | .running, some j =>
    (s.modCore c (fun x => { x with phase := .saving })).modJob j (fun x => { x with st := .saving c })
  | _, _ => s

/-- The class of the job on core `c`. -/
def State.clsOn (s : State) (c : Nat) : Option Cls := ((s.core c).job.bind s.job).map (·.cls)

/-- Has the mask of a tenant no core on a die whose bridge is UP (R30)? -/
def State.noCore (s : State) (t : Nat) : Bool :=
  match s.tenant t with
  | some x => (maskCores x.affinity).all (fun c => !s.dieUp (c / 16))
  | none => false

/-- A job whose mask holds no core of an available die ends its command REFUSED / DIE_UNAVAILABLE (R30), a FIT job that of its capture; one
that has no command, or that has run before, waits. -/
def State.refuseJob (j : Nat) (x : Job) (s : State) : State :=
  match x.kind.cmdId.bind s.cmd with
  | some c =>
    if x.st = .waiting then
      (((s.jobsOf c.id).foldl (fun s j => s.endJob j false) s).kvUnpinCmd c.id).complete c ocRefused rsDieUnavailable
    else s
  | none => match x.kind with
    | .fit k =>
      if x.st = .waiting then (s.endJob j false).capEnd k (fun _ => { oc := ocRefused, rs := rsDieUnavailable }) else s
    | _ => s

/-- JOB_DISPATCH: a waiting job is placed, restored, made to wait or refused (R30, R206-R209, R213, R216, R225); one whose epoch aborts stays
where it is (R403). -/
def execJobDispatch (j : Nat) (s : State) : Host.Outcome State Fault Refusal :=
  .next <| match s.job j with
  | none => s
  | some x =>
    if !x.waits || x.epoch.any (fun e => (s.epoch e).st == .aborting) then s
    else match x.kind with
    | .block h b => match s.stream h with
      | none => s
      | some st =>
        let home := st.homeOf b
        if s.nextBlock home ≠ some j ∨ !s.dieUp (home / 16) then s
        else if (s.core home).phase = .idle then s.startOn j home x
        else if s.clsOn home = some .realtime then s
        else s.preempt home
    | _ =>
      if s.noCore x.tenant then s.refuseJob j x
      else if !s.hasBudget x then
        if x.budgetCounted then s
        else ({ s with sch.budgetWait := satInc s.sch.budgetWait }).modJob j (fun y => { y with budgetCounted := true })
      else
        let mask := maskCores (s.jobMask x)
        let taken := s.claimed x
        match mask.find? (fun c => s.coreFree c && !taken.1.contains c) with
        | some c =>
          if !s.budgetBeside taken.2 x then s
          else if x.st = .saved then
            ((s.modJob j (fun y => { y with st := .restoring c, windows := ((s.tenant x.tenant).map (·.windows)).getD [] })).modCore
              c (fun k => { k with phase := .restoring, job := some j })).dirStart c j x.tenant
          else s.startOn j c x
        | none =>
          let other := (List.range 64).any (fun c => s.coreFree c && !mask.contains c)
          let s1 := if other ∧ !x.affCounted then
              ({ s with sch.affWait := satInc s.sch.affWait }).modJob j (fun y => { y with affCounted := true })
            else s
          if x.cls = .interactive then
            let s2 := if x.st = .waiting ∧ !x.deferred then
                let s2 := s1.modJob j (fun y => { y with deferred := true })
                match x.kind with
                | .launch r _ => s2.modRule r (fun y => { y with deferred := true })
                | k => match k.cmdId with
                  | some id => s2.modCmd id (fun c => { c with deferred := true })
                  | none => s2
              else s1
            if x.tookCore then s2
            else match mask.find? (fun c => s2.clsOn c = some .background && (s2.core c).phase == .running) with
              | some c => (s2.modJob j (fun y => { y with tookCore := true })).preempt c
              | none => s2
          else s1

/-! ### The architected context (Table 9.3) -/

/-- The 16 bytes of loop-stack entry `i`. -/
def loopBytes (l : List LoopEnt) (i : Nat) : List Byte :=
  match l[i]? with
  | some e => toLe 4 e.start ++ toLe 4 e.stop ++ toLe 4 e.ctr ++ toLe 4 1
  | none => List.replicate 16 0

/-- The 32 bytes of DMA queue entry `i`: the instruction, the bytes done, the PC, a valid word (Table 9.3). -/
def dmaBytes (l : List Dma) (i : Nat) : List Byte :=
  match l[i]? with
  | some q => toLe 16 q.word.toNat ++ toLe 8 q.done ++ toLe 4 q.pc ++ toLe 4 1
  | none => List.replicate 32 0

/-- The status word of Table 9.3. -/
def Core.statusWord (x : Core) : Nat :=
  at_ x.doze 0 + ((List.range 8).map (fun k => at_ (tget none x.curves k).isSome (8 + k))).sum + x.live.toNat <<< 16

/-- The pending wait: the instruction, its deadline (4 bytes, then a valid byte at 20), the target of its compare, a valid byte. -/
def waitBytes (w : Option Wait) : List Byte :=
  match w with
  | none => List.replicate 128 0
  | some w => toLe 16 w.word.toNat ++ toLe 4 (w.deadline.getD 0).toNat ++ toLe 4 (at_ w.deadline.isSome 0) ++
      toLe 8 w.target.toNat ++ toLe 8 1 ++ List.replicate 88 0

/-- The first 0x1000 bytes of a context. -/
def Core.head (x : Core) : List Byte :=
  let src := fun k => match tget none x.curves k with | some v => v.src | none => 0
  let b := toLe 4 0xC7A50001 ++ toLe 4 x.pc ++ toLe 8 x.codeBase ++ toLe 8 x.progress.toNat ++ toLe 4 x.statusWord ++ toLe 4 0 ++
    toLe 8 x.rng.toNat ++ (List.range 4).flatMap (loopBytes x.loops) ++ List.replicate 24 0 ++
    (List.range 16).flatMap (fun i => toLe 8 (tget 0 x.a i).toNat) ++ (List.range 4).flatMap (fun i => toLe 4 (tget 0 x.n i).toNat) ++
    toLe 8 ((List.range 4).map (fun i => at_ (tget false x.p i) i)).sum ++
    (List.range 8).flatMap (fun k => toLe 4 (src k)) ++ toLe 8 0 ++
    (List.range 16).flatMap (fun i => toLe 4 (tget 0 x.sync i).toNat) ++ waitBytes x.wait ++
    (List.range 16).flatMap (dmaBytes x.dmas)
  b ++ List.replicate (0x1000 - b.length) 0

/-- The bytes of LM bank `b` that belong to the context (R238). -/
def bankLen (b : Nat) : Nat := if b = 5 then 0x10000 else 0x20000

/-- The parts of a context (offset, bytes): head, accumulators, live LM banks. -/
def Core.context (x : Core) : List (Nat × List Byte) :=
  [(0, x.head), (0x1000, (List.range 16384).flatMap (fun i => toLe 4 (tget 0 x.acc i).toNat))] ++
  ((List.range 6).filter (fun b => bit x.live b)).map (fun b => (0x11000 + b * 0x20000, mreadN x.lm (b * 0x20000) (bankLen b)))

/-- A denied access of the part to a save area under the tenant's key slot (R198, R218). -/
def State.saveDeny (s : State) (t a n : Nat) (w : Bool) : Option Deny :=
  match s.access { tenant := none } (if w then 1 else 0) a n with
  | some d => some d
  | none => (pagesOf a n).findSome? (s.keyDeny t)

/-- The longest save in rc: 22 µs when the save area lies in DM, else 60 µs (R215). -/
def State.saveBound (s : State) (j : Job) : Nat :=
  if j.epoch.isSome then 22 else match s.region j.slotAddr with
    | .dm _ => 22
    | _ => 60

/-- A pre-emption of job `j` counts: for the job, its command or launch, and in SCH_PREEMPTS (R113, R216). -/
def State.countPreempt (j : Nat) (s : State) : State :=
  match s.job j with
  | none => s
  | some x =>
    let s1 := { s.modJob j (fun y => { y with preempts := y.preempts + 1 }) with sch.preempts := satInc s.sch.preempts }
    match x.kind with
    | .fit k => match s1.cap k with
      | some p => s1.modCmd p.cmd (fun d => { d with preempts := d.preempts + 1 })
      | none => s1
    | .launch r _ => s1.modRule r (fun y => { y with preempts := y.preempts + 1 })
    | k => match k.cmdId with
      | some id => s1.modCmd id (fun d => { d with preempts := d.preempts + 1 })
      | none => s1

/-- The core becomes free after a save; the entry of the core forwards to the context (R266), the count advances. -/
def State.saveDone (c j rc : Nat) (saved : Core) (s : State) : State :=
  match s.job j with
  | none => s
  | some x =>
    let s1 := (s.freeCore c).modJob j (fun y => { y with st := .saved, saved := some saved })
    let s2 := { s1 with fresh := s1.fresh + 1, sch.dir := tset none s1.sch.dir c (some j),
                        sch.preemptMax := if s1.sch.preemptMax.toNat < rc then satN 16 rc else s1.sch.preemptMax }
    let s3 := s2.countPreempt j
    if rc * 1000 > s.saveBound x * 24576 then s3.errSch 3 else s3

/-- `n` Hoard pages for a speculative context (R217): each from the core's die, else the lowest with a free page. -/
def State.ctxAlloc (e die j : Nat) : Nat → State → Option State
  | 0, s => some s
  | n + 1, s => (s.allocHoard e die).bind (fun dp =>
      (s.modEpoch e (fun p => { p with ctxPages := p.ctxPages ++ [{ target := j, die := dp.1, page := dp.2 }] })).ctxAlloc e die j n)

/-- The core as a save finds it: the library code of linked operators keeps the intermediate of the slices it has finished in banks that it
marks live (R324, R325); which banks, and the layout, are free values (log 3). -/
def State.savedCore (s : State) (c : Nat) : Core :=
  let x := s.core c
  match (x.job.bind s.job).map Job.kind with
  | some (.op id _) =>
    if (s.cmd id).any (fun k => bitN (leAt k.params 5 1) 0) then
      let live : BitVec 6 := (Config.freeWord s.fresh c).setWidth 6
      let bank := fun (m : List Host.Cell) b =>
        mwrite m (b * 0x20000) ((List.range (bankLen b)).map (fun i => Config.freeByte s.fresh (b * 0x20000 + i)))
      { x with live := live, lm := ((List.range 6).filter (fun b => bit live b)).foldl bank x.lm }
    else x
  | _ => x

/-- The transfers of core `c` stop for a save (R214, R239): the oldest one of each tag has moved a number of bytes that the spec leaves open
(a free value, log 3), unless its key is denied or a bridge holds it. -/
def State.dmaPause (c : Nat) (g : Agent) (s : State) : State :=
  let r := (s.core c).dmas.foldl (fun (r : State × List Dma) q =>
    if r.2.any (fun p => p.tag == q.tag) || r.1.dmaHeld c q || (r.1.dmaDeny g q).isSome then (r.1, r.2 ++ [q])
    else
      let d := r.1.draw
      let n := q.done + (Config.freeWord d.1 0).toNat % (q.total - q.done + 1)
      let t := d.2.dmaRun c g q [] n
      (State.hoardOut g t, r.2 ++ [{ q with done := if t.2 then q.done else n }])) (s, [])
  r.1.modCore c (fun x => { x with dmas := r.2 })

/-- The pre-empted context on core `c` is saved, which took `rc` cycles, and the core is free (R214-R218, R228, R238). A fault that meets
the request is taken, without a save (R255). -/
def State.saveContext (c rc : Nat) (s : State) : State :=
  let z := s.core c
  match z.phase, z.job.bind (fun j => (s.job j).map (fun y => (j, y))) with
  | .saving, some (j, y) =>
    match z.keyFault with
    | some k => s.tileFault c k.1.toNat k.2
    | none =>
    let s := s.dmaPause c y.agent
    let x := s.savedCore c
    match y.epoch with
    | some e =>
      match s.ctxAlloc e (c / 16) j 209 with
      | some t => t.saveDone c j rc x
      | none => (s.hoardFull e).endJob j false
    | none =>
      let parts := x.context
      match parts.findSome? (fun p => s.saveDeny y.tenant (y.slotAddr + p.1) p.2.length true) with
      | some d => ((s.noteDeny d).errSch 0).failJob j (faultReason d.code) [] 9 false
      | none =>
        (parts.foldl (fun s p => s.devWrite (y.slotAddr + p.1) p.2) s).saveDone c j rc { dmas := x.dmas }
  | _, _ => s

/-- Is the save traffic of core `c` held by a bridge that retrains (R29)? -/
def State.saveHeld (s : State) (c : Nat) : Bool :=
  ((s.core c).job.bind s.job).any (fun y =>
    y.epoch.isNone && (y.saved.elim true (fun k => k.job.isNone)) && s.pathHeld (some (c / 16)) y.slotAddr 0xD1000)

/-- PREEMPT_SAVE_DONE: the context is saved and the core is free (R214-R218, R228, R238). -/
def execPreemptSaveDone (core : Fin 64) (rc : Nat) (s : State) : Host.Outcome State Fault Refusal :=
  .next (if s.saveHeld core.val then s else s.saveContext core.val rc)

/-- The save of core `c` completes after a free number of cycles (log 3). -/
def State.saveNow (c : Nat) (s : State) : State :=
  s.draw.2.saveContext c ((Config.freeWord s.draw.1 0).toNat % 65536)

/-- The saves under way of a command's jobs complete before the command ends (R228). -/
def State.finishSaves (id : Nat) (s : State) : State :=
  (s.jobsOf id).foldl (fun s j => match (s.job j).map Job.st with
    | some (JobSt.saving c) => s.saveNow c
    | _ => s) s

/-- A context built back from its 0x1000 head bytes, its accumulators and its banks (R239): a curve table is loaded again when the
address recorded for it lies in a live bank, of which bank 5 holds the bytes below the frame-mover area. -/
def Core.restored (x : Core) (h : List Byte) (acc : List Byte) (lm : List Host.Cell) (dmas : List Dma) : Core :=
  let st := leAt h 0x18 4
  let live : BitVec 6 := BitVec.ofNat 6 (bits st 16 6)
  let curve := fun k =>
    let a := leAt h (0x118 + 4 * k) 4
    if st.testBit (8 + k) && a < fmBase && bit live (a / 0x20000) then
      some { src := a, words := (List.range 36).map (fun i => BitVec.ofNat 32 (mreadLe lm (a + 4 * i) 4)) : Curve }
    else none
  let w := slice h 0x180 128
  { x with
    phase := .running, pc := leAt h 4 4, progress := BitVec.ofNat 64 (leAt h 0x10 8), doze := st.testBit 0, live := live,
    rng := BitVec.ofNat 64 (leAt h 0x20 8),
    loops := (List.range 4).filterMap (fun i => if leAt h (0x28 + 16 * i + 12) 4 = 0 then none else
      some { start := leAt h (0x28 + 16 * i) 4, stop := leAt h (0x2C + 16 * i) 4, ctr := leAt h (0x30 + 16 * i) 4 }),
    a := forN 16 (fun i t => tset 0 t i (BitVec.ofNat 64 (leAt h (0x80 + 8 * i) 8))) [],
    n := forN 4 (fun i t => tset 0 t i (BitVec.ofNat 32 (leAt h (0x100 + 4 * i) 4))) [],
    p := forN 4 (fun i t => tset false t i ((leAt h 0x110 1).testBit i)) [],
    curves := forN 8 (fun k t => tset none t k (curve k)) [],
    sync := forN 16 (fun i t => tset 0 t i (BitVec.ofNat 32 (leAt h (0x140 + 4 * i) 4))) [],
    wait := if leAt w 32 8 = 0 then none else
      some { op := BitVec.ofNat 8 (leAt w 0 1), word := BitVec.ofNat 128 (leAt w 0 16),
             deadline := if leAt w 20 4 = 0 then none else some (BitVec.ofNat 32 (leAt w 16 4)),
             target := BitVec.ofNat 64 (leAt w 24 8) },
    dmas := (List.range dmas.length).filterMap (fun i => dmas[i]?.map (fun q => { q with done := leAt h (0x210 + 32 * i) 8 })),
    events := 0, wakeMsg := none,
    acc := forN 16384 (fun i t => tset 0 t i (BitVec.ofNat 32 (leAt acc (4 * i) 4))) [], lm := lm }

/-- The LM after a restore: live banks from the slot, the others zero, the frame-mover area as it is (R238, R239). -/
def State.restoreLm (s : State) (lm : List Host.Cell) (live : BitVec 6) (a : Nat) : List Host.Cell :=
  forN 6 (fun b m => if bit live b then mwrite m (b * 0x20000) (s.devRead (a + 0x11000 + b * 0x20000) (bankLen b)) else m)
    (mzero lm 0 fmBase)

/-- The timebase that TWAIT or WAIT selects in bits `lo+1:lo`. -/
def selTb (n : Nat) : Timebase := if n = 2 then .clc else if n = 3 then .mpc else .sfc

/-- The compare of a restored TWAIT or WAIT is armed again with its target (R252). -/
def State.rearm (c : Nat) (w : Option Wait) (s : State) : State :=
  match w with
  | none => s
  | some w =>
    if w.op = 0x62 then s.arm (selTb (fld w.word 16 2)) w.target.toNat (.core c)
    else if w.op = 0x63 ∧ bit w.word 17 then s.arm (selTb (fld w.word 20 2)) w.target.toNat (.core c)
    else s

/-- The save slot's address of a job under its tenant's present save area (R198, R200). -/
def State.slotAt (s : State) (y : Job) : Nat :=
  match s.tenant y.tenant, y.slot with
  | some t, some n => t.saveBase + n * 0xD1000
  | _, _ => y.slotAddr

/-- Job `j` runs on core `c` again with context `k` (R252, R266): its later saves use the tenant's present save area (R200), its compare is
armed again, the signals held for it are applied, and its wait is evaluated anew. -/
def State.rejoin (c j : Nat) (k : Core) (s : State) : State :=
  let s1 := ((s.modCore c (fun _ => k)).modJob j (fun z => { z with
    st := .running c, saved := none, slotAddr := s.slotAt z })).rearm c k.wait
  ((s.heldFor j).foldl (fun s g => s.addCell c g.cell g.v) (s1.takeHeld j)).wake c

/-- The context of core `x` restored from the pages that the epoch kept, of which `k` is the content (R400). -/
def Core.fromKept (x k : Core) : Core :=
  Core.restored { x with codeBase := k.codeBase, codeLen := k.codeLen } k.head
    ((List.range 16384).flatMap (fun i => toLe 4 (tget 0 k.acc i).toNat))
    (forN 6 (fun b m => if bit k.live b then mwrite m (b * 0x20000) (mreadN k.lm (b * 0x20000) (bankLen b)) else m)
      (mzero x.lm 0 fmBase)) k.dmas

/-- The live LM banks of the context that the save slot of job `y` holds (Table 9.3). -/
def State.slotLive (s : State) (y : Job) : BitVec 6 := BitVec.ofNat 6 (bits (leAt (s.devRead (y.slotAddr + 0x18) 4) 0 4) 16 6)

/-- The context of core `x` restored from the save slot of job `y` (R238). -/
def State.fromSlot (s : State) (x k : Core) (y : Job) : Core :=
  let h := s.devRead y.slotAddr 0x1000
  Core.restored { x with codeBase := leAt h 8 8, codeLen := (y.prog.map (·.codeLen)).getD 0 } h
    (s.devRead (y.slotAddr + 0x1000) 65536) (s.restoreLm x.lm (s.slotLive y) y.slotAddr) k.dmas

/-- The denial that a restore of job `y` meets in its save slot: the head first, then the live banks in rising order (R238). -/
def State.slotDeny (s : State) (y : Job) : Option Deny :=
  match s.saveDeny y.tenant y.slotAddr 0x11000 false with
  | some d => some d
  | none => (List.range 6).findSome? (fun b => if bit (s.slotLive y) b then
      s.saveDeny y.tenant (y.slotAddr + 0x11000 + b * 0x20000) (bankLen b) false else none)

/-- JOB_RESTORE_DONE: the context runs on its new core, with the signals held for it applied (R218, R239, R266). -/
def execJobRestoreDone (core : Fin 64) (s : State) : Host.Outcome State Fault Refusal :=
  .next <|
  let c := core.val
  let x := s.core c
  match x.phase, x.job.bind (fun j => (s.job j).map (fun y => (j, y))) with
  | .restoring, some (j, y) =>
    if s.saveHeld c then s else
    match y.saved with
    | some k =>
      if k.job.isSome then (s.freeCtx j).rejoin c j (Core.fromKept x k)
      else match s.slotDeny y with
        | some d => ((s.noteDeny d).errSch 1).failJob j (faultReason d.code) [] 9 false
        | none => s.rejoin c j (s.fromSlot x k y)
    | none => s
  | _, _ => s

/-- CORE_RESET_DONE: the core becomes available for placement, with what a core reset clears cleared (R253, R254, R261). -/
def execCoreResetDone (core : Fin 64) (s : State) : Host.Outcome State Fault Refusal :=
  .next <|
  let c := core.val
  if (s.core c).phase = .unavailable then
    s.modCore c (fun x => { x with phase := .idle, faultReset := false, pc := 0, sync := [], lm := [] })
  else s

end Sys2Proof.Machine
end

