-- ==== Sys2Proof/Machine/Tile.lean ====
section
/-!
DEFINITION. The core's control: fetching and checking a tile instruction (R234, R240, R241), its retirement with the hardware loops
(R243), local-memory checks (R232, R233), and the scalar, branch and status instructions (R242, R243, R249). A row acts when
the instruction at the core's PC is its own; an instruction that the encoding or the fetch refuses faults under any row.
-/
namespace Sys2Proof.Machine

/-- What a tile instruction does: fault, take effect with the PC where it goes (`none`: the next one), wait without retiring, or, a long
one (R251), do `n` units of work in order, which take `cc` cycles in all and keep the cubes busy for `cube` of them. -/
inductive TileRes where
  | fault (code : Nat) (deny : Option Deny)
  | retire (s : State) (pc : Option Nat)
  | stay (s : State)
  | work (n cc cube : Nat) (unit : Nat → State → State)

/-- What a core fetches. -/
inductive Fetched where
  | nothing
  | fault (code pc : Nat) (deny : Option Deny)
  | word (w : W128)
  deriving DecidableEq, Repr

/-- Does the job run code of an image? Operator and FIT jobs run library code, which the spec does not give. -/
def Job.hasCode (j : Job) : Bool :=
  match j.kind with
  | .op _ _ => false
  | .fit _ => false
  | _ => true

/-- The job that runs on core `c`. -/
def State.jobOn (s : State) (c : Nat) : Option Job := (s.core c).job.bind s.job

/-- The agent of the job on core `c`. -/
def State.coreAgent (s : State) (c : Nat) : Agent := ((s.jobOn c).map Job.agent).getD { tenant := none }

/-- The fetch of core `c` (R234, R244): a pending key fault comes first, then PC_RANGE, the X permission, the word. -/
def State.fetch (s : State) (c : Nat) : Fetched :=
  let x := s.core c
  match s.jobOn c with
  | none => .nothing
  | some j =>
    if !j.hasCode ∨ (x.phase ≠ .running ∧ x.phase ≠ .saving) then .nothing
    else match x.keyFault with
      | some k => .fault k.1.toNat k.2 none
      | none =>
        if x.wait.isSome then .nothing
        else if x.codeLen ≤ x.pc then .fault ftPcRange x.pc none
        else match s.access j.agent 2 (x.codeBase + 16 * x.pc) 16 with
          | some d => .fault d.code x.pc (some d)
          | none => .word (BitVec.ofNat 128 (leNat (s.agentRead j.agent (x.codeBase + 16 * x.pc) 16)))

/-- Is the guard true (Table 9.4)? -/
def Core.guard (x : Core) (w : W128) : Bool :=
  let g := tGuard w
  if g < 8 then true else tget false x.p (g % 4) == (g < 12)

/-- A fault with the errors that a denied access leaves. -/
def State.faultWith (c code pc : Nat) (d : Option Deny) (s : State) : State :=
  (match d with | some d => s.noteDeny d | none => s).tileFault c code pc

/-- Cube-busy cycles counted on the core and the job (Table 9.13, R403). -/
def State.cubeBusy (c n : Nat) (s : State) : State :=
  let s1 := s.modCore c (fun x => { x with cubeBusy := satAdd x.cubeBusy n })
  match (s.core c).job with
  | some j => s1.modJob j (fun y => { y with cubeCc := y.cubeCc + n })
  | none => s1

/-- The steps into which one unit of a long instruction is divided, so that no step takes more than 4,096 cycles (R251; log 90). -/
def stepsPer (n cc : Nat) : Nat := Nat.max 1 (ceilDiv cc (4096 * n))

/-- The steps `a` up to and without `b` of a long instruction whose units take `p` steps each: a unit has its effect in its last step. -/
def workSteps (unit : Nat → State → State) (p a b : Nat) (s : State) : State :=
  (List.range (b - a)).foldl (fun s i => if (a + i + 1) % p = 0 then unit ((a + i) / p) s else s) s

/-- The part of `total` cycles that the steps `a` up to and without `b` of `N` take. -/
def shareOf (total N a b : Nat) : Nat := total * b / N - total * a / N

/-- A long instruction (R251, R308): a running core does the steps from PROGRESS on, and the instruction retires; a core whose pre-emption
is requested goes on to a pre-emption point inside it, after a free number of steps (log 90), and PROGRESS records the point. An
instruction that takes at most 4,096 cycles has none inside (section 9.8's worked example). -/
def State.longTile (c n cc cube : Nat) (unit : Nat → State → State) (s : State) : State :=
  let p := stepsPer n cc
  let a := (s.core c).progress.toNat
  if (s.core c).phase = .running then
    ((workSteps unit p a (n * p) s).cubeBusy c (shareOf cube (n * p) a (n * p))).retire c none
  else if (s.core c).phase = .saving ∧ 4096 < cc then
    let d := s.draw
    let b := a + (Config.freeWord d.1 0).toNat % (n * p - a)
    ((workSteps unit p a b d.2).cubeBusy c (shareOf cube (n * p) a b)).modCore c (fun x => { x with progress := BitVec.ofNat 64 b })
  else s

/-- Does a bridge in RETRAIN hold a queued transfer of core `c` (R29)? What ends the core's job waits for it (R253, log 118). -/
def State.dmasHeld (s : State) (c : Nat) : Bool := (s.core c).dmas.any (s.dmaHeld c)

/-- Do the jobs of an epoch that aborts stop (R403): is the job on core `c` one of them? -/
def State.stopped (s : State) (c : Nat) : Bool :=
  ((s.jobOn c).bind (·.epoch)).any (fun e => (s.epoch e).st == .aborting)

/-- One row of a tile instruction: `mine` selects its opcode. Encoding faults are taken before the guard (R240); a false guard
retires. While the core saves its context a fault is taken (R255), and a long instruction goes on to its next pre-emption point (R251). A
fault waits for the queued transfers that a retraining bridge holds (R29, R253); a job whose epoch aborts issues nothing any more (R403). -/
def State.tile (c : Nat) (mine : Nat → Bool) (f : W128 → State → TileRes) (s : State) : State :=
  if s.stopped c then s
  else match s.fetch c with
  | .nothing => s
  | .fault code pc d => if s.dmasHeld c then s else s.faultWith c code pc d
  | .word w =>
    let pc := (s.core c).pc
    if tLayout (tOp w) ≠ none ∧ !mine (tOp w) then s
    else match tEncFault w with
      | some code => if s.dmasHeld c then s else s.tileFault c code pc
      | none =>
        let go := if (s.core c).guard w then f w s else .retire s none
        match go with
        | .fault code d => if s.dmasHeld c then s else s.faultWith c code pc d
        | .retire t p => if (s.core c).phase = .running then t.retire c p else s
        | .stay t => if (s.core c).phase = .running then t else s
        | .work n cc cube unit => s.longTile c n cc cube unit

/-! ### Registers (R242) -/

/-- The value of a register specifier. -/
def Core.rd (x : Core) (r : Nat) : W64 :=
  if r < 0x10 then tget 0 x.a r
  else if r < 0x14 then (tget 0 x.n (r - 0x10)).setWidth 64
  else if tget false x.p (r - 0x18) then 1 else 0

/-- A register specifier written. -/
def Core.wr (r : Nat) (v : W64) (x : Core) : Core :=
  if r < 0x10 then { x with a := tset 0 x.a r v }
  else if r < 0x14 then { x with n := tset 0 x.n (r - 0x10) (v.setWidth 32) }
  else { x with p := tset false x.p (r - 0x18) (bit v 0) }

/-- Register a`i` as an address. -/
def Core.ar (x : Core) (i : Nat) : Nat := (tget 0 x.a i).toNat

/-- A three-register operation (layout S). -/
def State.alu (c : Nat) (f : W64 → W64 → W64) (w : W128) (s : State) : TileRes :=
  .retire (s.modCore c (fun x => x.wr (fld w 16 8) (f (x.rd (fld w 24 8)) (x.rd (fld w 32 8))))) none

/-- A condition of CMP and CMPI (Table 9.6). -/
def cmpCond (k : Nat) (a b : W64) : Bool :=
  if k = 0 then a == b
  else if k = 1 then a != b
  else if k = 2 then a.slt b
  else if k = 3 then !a.slt b
  else if k = 4 then a.ult b
  else !a.ult b

/-! ### Local memory (R232, R233, R241) -/

/-- The frame-mover bytes that the job on core `c` may access: a block job's two stream buffers (address, length). -/
def State.ownBufs (s : State) (c : Nat) : List (Nat × Nat) :=
  match (s.jobOn c).map Job.kind with
  | some (.block h b) => match s.stream h with
    | some x => [((x.bufsOf b).1, 2 ^ x.bLog2 * x.chIn * 4), ((x.bufsOf b).2, 2 ^ x.bLog2 * x.chOut * 4)]
    | none => []
  | _ => []

/-- How far the bytes from `p` on lie in the ranges without a gap. -/
def coverTo (l : List (Nat × Nat)) (p : Nat) : Nat :=
  let grow := fun (p : Nat) => l.foldl (fun p b => if b.1 ≤ p ∧ p < b.1 + b.2 then b.1 + b.2 else p) p
  l.foldl (fun p _ => grow p) p

/-- The fault of an LM access of `n` bytes at `a`, if any: every byte lies below the frame-mover area or in a buffer of the job's own stream
(R233). -/
def State.lmFault (s : State) (c a n : Nat) : Option Nat :=
  if n = 0 then none
  else if 0xC0000 < a + n then some ftLmRange
  else if a + n ≤ fmBase then none
  else if a + n ≤ coverTo (s.ownBufs c) (Nat.max a fmBase) then none
  else some ftLmReserved

/-- The first fault of a list of LM accesses (address, length). -/
def State.lmFaults (s : State) (c : Nat) (l : List (Nat × Nat)) : Option Nat := l.findSome? (fun r => s.lmFault c r.1 r.2)

/-- Do two byte ranges (address, length) overlap? -/
def overlap (a b : Nat × Nat) : Bool := a.1 < b.1 + b.2 && b.1 < a.1 + a.2 && a.2 ≠ 0 && b.2 ≠ 0

/-- Must an instruction with these LM reads and writes stall on an outstanding DMA (R241)? -/
def State.lmBusy (s : State) (c : Nat) (rds wrs : List (Nat × Nat)) : Bool :=
  (s.core c).dmas.any (fun q =>
    (!q.dstDev && (q.rowsAt q.dst q.dstr).any (fun r => (rds ++ wrs).any (overlap r))) ||
    (!q.srcDev && (q.rowsAt q.src q.sstr).any (fun r => wrs.any (overlap r))))

/-- Bytes of LM read. -/
def State.lmRd (s : State) (c a n : Nat) : List Byte := mreadN (s.core c).lm a n
/-- Bytes of LM written. -/
def State.lmWr (c a : Nat) (bs : List Byte) (s : State) : State := s.modCore c (fun x => { x with lm := mwrite x.lm a bs })

/-! ### The instructions -/

/-- NOP (R240). -/
def execTileNop (core : Fin 64) (s : State) : Host.Outcome State Fault Refusal :=
  .next (s.tile core.val (· == 0x00) (fun _ s => .retire s none))
/-- ADD (R242). -/
def execTileAdd (core : Fin 64) (s : State) : Host.Outcome State Fault Refusal :=
  .next (s.tile core.val (· == 0x01) (fun w s => s.alu core.val (fun a b => a + b) w))
/-- SUB (R242). -/
def execTileSub (core : Fin 64) (s : State) : Host.Outcome State Fault Refusal :=
  .next (s.tile core.val (· == 0x02) (fun w s => s.alu core.val (fun a b => a - b) w))
/-- AND (R242). -/
def execTileAnd (core : Fin 64) (s : State) : Host.Outcome State Fault Refusal :=
  .next (s.tile core.val (· == 0x03) (fun w s => s.alu core.val (fun a b => a &&& b) w))
/-- OR (R242). -/
def execTileOr (core : Fin 64) (s : State) : Host.Outcome State Fault Refusal :=
  .next (s.tile core.val (· == 0x04) (fun w s => s.alu core.val (fun a b => a ||| b) w))
/-- XOR (R242). -/
def execTileXor (core : Fin 64) (s : State) : Host.Outcome State Fault Refusal :=
  .next (s.tile core.val (· == 0x05) (fun w s => s.alu core.val (fun a b => a ^^^ b) w))
/-- SHL by B[5:0] (R242). -/
def execTileShl (core : Fin 64) (s : State) : Host.Outcome State Fault Refusal :=
  .next (s.tile core.val (· == 0x06) (fun w s => s.alu core.val (fun a b => a <<< (b.toNat % 64)) w))
/-- SHR by B[5:0] (R242). -/
def execTileShr (core : Fin 64) (s : State) : Host.Outcome State Fault Refusal :=
  .next (s.tile core.val (· == 0x07) (fun w s => s.alu core.val (fun a b => a >>> (b.toNat % 64)) w))
/-- SAR by B[5:0] (R242). -/
def execTileSar (core : Fin 64) (s : State) : Host.Outcome State Fault Refusal :=
  .next (s.tile core.val (· == 0x08) (fun w s => s.alu core.val (fun a b => a.sshiftRight (b.toNat % 64)) w))
/-- MUL, the low 64 bits (R242). -/
def execTileMul (core : Fin 64) (s : State) : Host.Outcome State Fault Refusal :=
  .next (s.tile core.val (· == 0x09) (fun w s => s.alu core.val (fun a b => a * b) w))
/-- ADDI (R242). -/
def execTileAddi (core : Fin 64) (s : State) : Host.Outcome State Fault Refusal :=
  .next (s.tile core.val (· == 0x0A) (fun w s => .retire
    (s.modCore core.val (fun x => x.wr (fld w 16 8) (x.rd (fld w 24 8) + tImm w))) none))
/-- MOVI (R242). -/
def execTileMovi (core : Fin 64) (s : State) : Host.Outcome State Fault Refusal :=
  .next (s.tile core.val (· == 0x0B) (fun w s => .retire (s.modCore core.val (fun x => x.wr (fld w 16 8) (tImm w))) none))
/-- CMP (R242). -/
def execTileCmp (core : Fin 64) (s : State) : Host.Outcome State Fault Refusal :=
  .next (s.tile core.val (· == 0x0C) (fun w s => .retire (s.modCore core.val (fun x =>
    x.wrP (fld w 16 8 - 0x18) (cmpCond (fld w 40 4) (x.rd (fld w 24 8)) (x.rd (fld w 32 8))))) none))
/-- CMPI (R242). -/
def execTileCmpi (core : Fin 64) (s : State) : Host.Outcome State Fault Refusal :=
  .next (s.tile core.val (· == 0x0D) (fun w s => .retire (s.modCore core.val (fun x =>
    x.wrP (fld w 16 8 - 0x18) (cmpCond (fld w 40 4) (x.rd (fld w 24 8)) (tImm w)))) none))

/-- The address and size of LDS and STS. -/
def Core.lsAddr (x : Core) (w : W128) : Nat × Nat := ((x.rd (fld w 24 8) + tImm w).toNat, 2 ^ fld w 44 2)

/-- LDS, zero-extended (R242). -/
def execTileLds (core : Fin 64) (s : State) : Host.Outcome State Fault Refusal :=
  .next (s.tile core.val (· == 0x0E) (fun w s =>
    let c := core.val
    let r := (s.core c).lsAddr w
    if r.1 % r.2 ≠ 0 then .fault ftAlign none
    else match s.lmFault c r.1 r.2 with
      | some f => .fault f none
      | none =>
        if s.lmBusy c [r] [] then .stay s
        else .retire (s.modCore c (fun x => x.wr (fld w 16 8) (BitVec.ofNat 64 (mreadLe x.lm r.1 r.2)))) none))

/-- Does STS at `a` name a device physical address (R392, R399): one past LM that the job's windows let it write, or in a speculative job any
address of Table 20.1 past LM (DEDUCED, log 52)? -/
def State.stsOut (s : State) (c a n : Nat) : Bool :=
  let g := s.coreAgent c
  0xC0000 ≤ a && (windowsAllow g.windows 1 a n || (g.epoch.isSome && s.region a ≠ .none))

/-- STS to a device physical address, as a write of DMA (R29, R250, R392, R399, R400). -/
def State.stsDev (c a : Nat) (bs : List Byte) (s : State) : TileRes :=
  let g := s.coreAgent c
  if s.pathHeld (some (c / 16)) a bs.length then .stay s
  else match s.access g 1 a bs.length with
  | some d => .fault d.code (some d)
  | none => match s.agentWrite g (c / 16) a bs with
    | some t => .retire t none
    | none => .retire (State.hoardOut g (s, true)) none

/-- STS (R242, R392, R399). -/
def execTileSts (core : Fin 64) (s : State) : Host.Outcome State Fault Refusal :=
  .next (s.tile core.val (· == 0x0F) (fun w s =>
    let c := core.val
    let r := (s.core c).lsAddr w
    if r.1 % r.2 ≠ 0 then .fault ftAlign none
    else if s.stsOut c r.1 r.2 then s.stsDev c r.1 (toLe r.2 ((s.core c).rd (fld w 16 8)).toNat)
    else match s.lmFault c r.1 r.2 with
      | some f => .fault f none
      | none =>
        if s.lmBusy c [] [r] then .stay s
        else .retire (s.lmWr c r.1 (toLe r.2 ((s.core c).rd (fld w 16 8)).toNat)) none))

/-- The loop stack after a branch to `t`: the first entry, outermost first, whose body `t` leaves is popped with those inside it. -/
def loopsKept (t : Nat) : List LoopEnt → List LoopEnt
  | [] => []
  | e :: l => if e.start ≤ t ∧ t ≤ e.stop then e :: loopsKept t l else []

/-- BR (R243). -/
def execTileBr (core : Fin 64) (s : State) : Host.Outcome State Fault Refusal :=
  .next (s.tile core.val (· == 0x10) (fun w s =>
    let t := (Int.toNat ((Int.ofNat (s.core core.val).pc + sgn 32 (fld w 64 32)) % 2 ^ 32))
    .retire (s.modCore core.val (fun x => { x with loops := loopsKept t x.loops })) (some t)))

/-- LOOP (R243). A count of 0 pushes nothing, so only a pushed fifth entry faults. -/
def execTileLoop (core : Fin 64) (s : State) : Host.Outcome State Fault Refusal :=
  .next (s.tile core.val (· == 0x11) (fun w s =>
    let c := core.val
    let x := s.core c
    let cnt : W32 := if bit w 14 then (tget 0 x.a (fld w 16 4)).setWidth 32 else BitVec.ofNat 32 (fld w 64 32)
    let k := fld w 12 2
    let len := fld w 32 16
    if cnt = 0 then .retire (s.modCore c (fun x => { x with n := tset 0 x.n k 0 })) (some (x.pc + len + 1))
    else if x.loops.length ≥ 4 then .fault ftLoopDepth none
    else .retire (s.modCore c (fun x => { x with
      n := tset 0 x.n k cnt, loops := x.loops ++ [{ start := x.pc + 1, stop := x.pc + len, ctr := k }] })) (some (x.pc + 1))))

/-- MODE (R249): DOZE, and the generator's seed (R287). -/
def execTileMode (core : Fin 64) (s : State) : Host.Outcome State Fault Refusal :=
  .next (s.tile core.val (· == 0x64) (fun w s => .retire (s.modCore core.val (fun x =>
    let v := tget 0 x.a (fld w 20 4)
    { x with doze := bit w 16, rng := if bit w 17 then (if v = 0 then rngSeed else v) else x.rng })) none))

/-- LIVE (R249). -/
def execTileLive (core : Fin 64) (s : State) : Host.Outcome State Fault Refusal :=
  .next (s.tile core.val (· == 0x65) (fun w s => .retire
    (s.modCore core.val (fun x => { x with live := BitVec.ofNat 6 (fld w 16 6) })) none))

/-- SNAP (R249, R250): a Quill trigger, or the suppressed count in a speculative job. -/
def execTileSnap (core : Fin 64) (s : State) : Host.Outcome State Fault Refusal :=
  .next (s.tile core.val (· == 0x66) (fun w s =>
    if ((s.jobOn core.val).bind (·.epoch)).isSome then .retire { s with sch.specSnap := satInc s.sch.specSnap } none
    else .retire (s.quillUp 6 (BitVec.ofNat 16 (fld w 16 16)) (bit w 32)) none))

end Sys2Proof.Machine
end

