-- ==== Sys2Proof/Machine/TileDma.lean ====
section
/-!
DEFINITION. The DMA engine of a core: DMA and DMAW (R244) and the end of a transfer, with the wait it ends and the key fault it may
leave (R244, R253).
-/
namespace Sys2Proof.Machine

/-- The transfer that a DMA instruction spells (Table 9.8). -/
def Core.dmaOf (x : Core) (w : W128) : Dma :=
  let rows := fld w 64 16
  { tag := fld w 12 4, word := w, pc := x.pc, srcDev := bit w 24, dstDev := bit w 25, src := x.ar (fld w 16 4),
    dst := x.ar (fld w 20 4), sstr := if rows = 0 then 0 else x.ar (fld w 28 4),
    dstr := if rows = 0 then 0 else x.ar (fld w 32 4), len := fld w 40 24, rows := rows + 1 }

/-- Are addresses, strides and the row length multiples of 4 (R244)? A LEN that is not is taken as ALIGN (DEDUCED, log 19). -/
def Dma.aligned (q : Dma) : Bool := [q.src, q.dst, q.sstr, q.dstr, q.len].all (· % 4 == 0)

/-- DMA (R244): checked in full at issue, then queued; a full queue stalls. Key faults show during the transfer. -/
def execTileDma (core : Fin 64) (s : State) : Host.Outcome State Fault Refusal :=
  .next (s.tile core.val (· == 0x20) (fun w s =>
    let c := core.val
    let q := (s.core c).dmaOf w
    if !q.aligned then .fault ftAlign none
    else
      let lm := (if q.srcDev then [] else q.rowsAt q.src q.sstr) ++ (if q.dstDev then [] else q.rowsAt q.dst q.dstr)
      match s.dmaBad (s.coreAgent c) q with
      | some d => .fault d.code (some d)
      | none => match s.lmFaults c lm with
        | some f => .fault f none
        | none =>
          if (s.core c).dmas.length ≥ 16 then .stay s
          else .retire (s.modCore c (fun x => { x with dmas := x.dmas ++ [q] })) none))

/-- DMAW (R244): waits until no DMA with a tag in TAGMASK is outstanding. -/
def execTileDmaw (core : Fin 64) (s : State) : Host.Outcome State Fault Refusal :=
  .next (s.tile core.val (· == 0x21) (fun w s =>
    if fld w 16 16 = 0 then .fault ftEmptyWait none
    else if (s.core core.val).dmaPending w then
      .stay (s.modCore core.val (fun x => { x with wait := some { op := 0x21, word := w } }))
    else .retire s none))

/-- DMA_COMPLETE (R244): the oldest transfer with the tag ends; a key fault then stops the job at the next boundary. A transfer that a
retraining bridge holds does not end yet (R29). -/
def execDmaComplete (core : Fin 64) (tag : Fin 16) (host : List (BitVec 8)) (s : State) : Host.Outcome State Fault Refusal :=
  .next <|
  let c := core.val
  let x := s.core c
  if x.phase ≠ .running ∧ x.phase ≠ .saving then s
  else match x.dmas.find? (fun q => q.tag == tag.val) with
  | none => s
  | some q =>
    if s.dmaHeld c q then s else
    let g := s.coreAgent c
    let s0 := s.modCore c (fun x => { x with dmas := x.dmas.erase q })
    let s1 := match s.dmaDeny g q with
      | some d => (s0.noteDeny d).modCore c (fun x => { x with keyFault := some (BitVec.ofNat 8 d.code, q.pc) })
      | none => State.hoardOut g (s0.dmaRun c g q host q.total)
    match (s1.core c).wait with
    | some w => if w.op = 0x21 then s1.wake c else s1
    | none => s1

end Sys2Proof.Machine
end

