-- ==== Sys2Proof/Machine/TileMath.lean ====
section
/-!
DEFINITION. The arithmetic instructions: MMA with its accumulation and in-array rescale (R245, R290-R295), VOP, VPWL, VCVT with its
statistics (R299-R303), VRED and CURVE (R350, R351). A long instruction is a sequence of units with pre-emption points between them (R251).
-/
namespace Sys2Proof.Machine

/-- The integer that a finite whole value is; 0 for any other. -/
def toI : FV → Int
  | .fin neg m e => unitsI neg m e (min e 0)
  | _ => 0

/-- `n` elements of a format at an LM address, as exact values (R282). -/
def State.lmVals (s : State) (c a f n : Nat) : List FV :=
  let b := s.lmRd c a (fmtBytes f n)
  (List.range n).map (fun i => decodeFmt f (elemAt f b i))

/-- Element `i` of a run from `a` written to LM: INT4 keeps the other half of its byte (R282). -/
def putElem (m : List Host.Cell) (f a i raw : Nat) : List Host.Cell :=
  if f = 0 then
    let old := (mread m (a + i / 2)).toNat
    let v := if i % 2 = 0 then old / 16 * 16 + raw % 16 else old % 16 + 16 * (raw % 16)
    mwrite m (a + i / 2) [BitVec.ofNat 8 v]
  else mwrite m (a + i * (fmtBits f / 8)) (toLe (fmtBits f / 8) raw)

/-- Element `i` of a run from `a` written to the LM of a core. -/
def State.lmElem (c f a i raw : Nat) (s : State) : State := s.modCore c (fun x => { x with lm := putElem x.lm f a i raw })

/-- FP32 value `i` of a run from `a` written to the LM of a core. -/
def State.lmElem32 (c a i : Nat) (v : FV) (s : State) : State := s.lmElem c 0xA a i (bits32 v)

/-- Element `i` of a run from `a` in LM (R282). -/
def lmElemOf (m : List Host.Cell) (f a i : Nat) : FV :=
  let w := Nat.max 1 (fmtBits f / 8)
  decodeFmt f (elemAt f (mreadN m (a + (if f = 0 then i / 2 else i * w)) w) (if f = 0 then i % 2 else 0))

/-- FP32 value `i` of a run from `a` in the LM of a core as it stands. -/
def State.lmVal32 (s : State) (c a i : Nat) : FV := lmElemOf (s.core c).lm 0xA a i

/-- FP32 values written to LM. -/
def State.lmPut32 (c a : Nat) (vals : List FV) (s : State) : State := s.lmWr c a (packElems 0xA (vals.map bits32))

/-! ### Accumulation (R291, R292, R295) -/

/-- Is a pair of formats legal (Table 11.3)? -/
def mmaPair (a b : Nat) : Bool :=
  let small := fun f => decide (f ≤ 2)
  if fmtFloat a || fmtFloat b then fmtFloat a && fmtFloat b
  else if a = 5 ∨ b = 5 then false
  else if a = 4 then small b
  else if b = 4 then small a
  else true

/-- Half-cycles per INT8-rate cycle of a format (section 9.5): the rate of Table 1.2. -/
def fmtRate (f : Nat) : Nat :=
  if f = 0 then 1 else if f = 8 ∨ f = 9 then 4 else if f = 3 ∨ f = 4 then 8 else if f = 0xA then 16 else 2

/-- Cycles at the INT8 rate scaled for a pair of formats: the slower one counts (R290). -/
def scaleCc (n fa fb : Nat) : Nat := ceilDiv (n * Nat.max (fmtRate fa) (fmtRate fb)) 2

/-- The INT32 accumulation of R291: each exact product added, saturating; the truth value says that a sum saturated. -/
def intDot : Int × Bool → List FV → List FV → Int × Bool
  | acc, a :: as, b :: bs =>
    let v := acc.1 + toI a * toI b
    intDot (satS 32 v, acc.2 || satS 32 v ≠ v) as bs
  | acc, _, _ => acc

/-- The FP32 accumulation of R292: four exact products to a slice, one rounding each; a shorter last slice takes what is left. -/
def floatDot : FV → List FV → List FV → FV
  | acc, a0 :: a1 :: a2 :: a3 :: as, b0 :: b1 :: b2 :: b3 :: bs =>
    floatDot (rnd32 (faddX (faddX (faddX (faddX acc (fmulX a0 b0)) (fmulX a1 b1)) (fmulX a2 b2)) (fmulX a3 b3))) as bs
  | acc, [a0, a1, a2], [b0, b1, b2] => rnd32 (faddX (faddX (faddX acc (fmulX a0 b0)) (fmulX a1 b1)) (fmulX a2 b2))
  | acc, [a0, a1], [b0, b1] => rnd32 (faddX (faddX acc (fmulX a0 b0)) (fmulX a1 b1))
  | acc, [a0], [b0] => rnd32 (faddX acc (fmulX a0 b0))
  | acc, _, _ => acc

/-- The exact integer dot product of one group (R295 step 1). -/
def exactDot : List FV → List FV → Int
  | a :: as, b :: bs => toI a * toI b + exactDot as bs
  | _, _ => 0

/-- The group rescale of R295: groups of `g` products, ascending; `flt` for float operands. -/
def groupDot (flt : Bool) (g : Nat) : Nat → FV → List FV → List FV → List FV → List FV → FV
  | 0, acc, _, _, _, _ => acc
  | n + 1, acc, as, bs, sa, sb =>
    let p := if flt then floatDot (.fin false 0 0) (as.take g) (bs.take g) else rnd32 (ofI (exactDot (as.take g) (bs.take g)))
    let sc := rnd32 (fmulX (sa.headD .nan) (sb.headD .nan))
    groupDot flt g n (rnd32 (faddX acc (fmulX p sc))) (as.drop g) (bs.drop g) sa.tail sb.tail

/-- One accumulator word after a product row (R291-R295): `g` the group size or 0. -/
def accWord (flt : Bool) (g : Nat) (init : Bool) (old : W32) (as bs sa sb : List FV) : W32 × Bool :=
  if g ≠ 0 then
    (BitVec.ofNat 32 (bits32 (groupDot flt g (as.length / g) (if init then .fin false 0 0 else f32 old.toNat) as bs sa sb)), false)
  else if flt then (BitVec.ofNat 32 (bits32 (floatDot (if init then .fin false 0 0 else f32 old.toNat) as bs)), false)
  else
    let r := intDot (if init then 0 else sgn 32 old.toNat, false) as bs
    (BitVec.ofInt 32 r.1, r.2)

/-- The group size of a G field: none, 32, 64, 128. -/
def grpSize (g : Nat) : Nat := if g = 0 then 0 else 2 ^ (4 + g)

/-- Accumulator word `i` written (R293); a saturating sum sets ACC_SAT in CORE_QERR (R291, R306). -/
def State.accPut (c i : Nat) (r : W32 × Bool) (s : State) : State :=
  let s1 := s.modCore c (fun x => { x with acc := tset 0 x.acc i r.1 })
  if r.2 then s1.errQuant c else s1

/-- MMA: C += A × Bᵀ (R245, R290-R295); its units are the accumulator words. -/
def execTileMma (core : Fin 64) (s : State) : Host.Outcome State Fault Refusal :=
  .next (s.tile core.val (· == 0x30) (fun w s =>
    let c := core.val
    let x := s.core c
    let fa := fld w 12 4
    let fb := fld w 16 4
    let g := grpSize (fld w 32 2)
    let m := 4 * (fld w 48 6 + 1)
    let n := 4 * (fld w 54 6 + 1)
    let k := 4 * (fld w 60 10 + 1)
    let base := 4 * fld w 36 12
    let aA := x.ar (fld w 20 4)
    let bA := x.ar (fld w 24 4)
    let sA := x.ar (fld w 28 4)
    let lda := 16 * fld w 70 12
    let ldb := 16 * fld w 82 12
    let ng := if g = 0 then 0 else k / g
    let rows := (List.range m).map (fun i => (aA + i * lda, fmtBytes fa k)) ++
      (List.range n).map (fun i => (bA + i * ldb, fmtBytes fb k)) ++ (if g = 0 then [] else [(sA, 2 * (m + n) * ng)])
    if !mmaPair fa fb then .fault ftFmtMix none
    else if g ≠ 0 ∧ k % g ≠ 0 then .fault ftRsvdField none
    else if 16384 < base + m * n then .fault ftAccRange none
    else if g ≠ 0 ∧ sA % 2 ≠ 0 then .fault ftAlign none
    else match s.lmFaults c rows with
      | some f => .fault f none
      | none =>
        if s.lmBusy c rows [] then .stay s
        else
          let as := (List.range m).map (fun i => s.lmVals c (aA + i * lda) fa k)
          let bs := (List.range n).map (fun i => s.lmVals c (bA + i * ldb) fb k)
          let sa := (List.range m).map (fun i => s.lmVals c (sA + 2 * i * ng) 8 ng)
          let sb := (List.range n).map (fun i => s.lmVals c (sA + 2 * m * ng + 2 * i * ng) 8 ng)
          let cc := scaleCc (ceilDiv (m / 4 * (n / 4) * (k / 4)) 4) fa fb
          .work (m * n) cc cc (fun e s => s.accPut c (base + e) (accWord (fmtFloat fa) g (bit w 34) (tget 0 x.acc (base + e))
            (as.getD (e / n) []) (bs.getD (e % n) []) (sa.getD (e / n) []) (sb.getD (e % n) [])))))

/-! ### Vector instructions -/

/-- The function of VOP on one element (Table 9.10): FMA is one fused rounding (DEDUCED, log 20). -/
def vopFn (k : Nat) (a b d : FV) : FV :=
  if k = 0 then add32 a b
  else if k = 1 then sub32 a b
  else if k = 2 then mul32 a b
  else if k = 3 then fmax a b
  else if k = 4 then fmin a b
  else if k = 5 then rnd32 (faddX (fmulX a b) d)
  else a

/-- VOP: element-wise FP32 (Table 9.10, R251); its units are the elements. Each element reads its sources as they stand when its turn comes,
also where operands overlap (DESIGN CHOICE, log 121). -/
def execTileVop (core : Fin 64) (s : State) : Host.Outcome State Fault Refusal :=
  .next (s.tile core.val (· == 0x40) (fun w s =>
    let c := core.val
    let x := s.core c
    let k := fld w 12 4
    let n := fld w 32 16
    let d := x.ar (fld w 16 4)
    let a := x.ar (fld w 20 4)
    let b := x.ar (fld w 24 4)
    let rds := [(a, 4 * n)] ++ (if k = 6 then [] else [(b, 4 * n)])
    match s.lmFaults c (rds ++ [(d, 4 * n)]) with
    | some f => .fault f none
    | none =>
      if s.lmBusy c rds [(d, 4 * n)] then .stay s
      else
        .work n (ceilDiv n 32 + 4) 0 (fun i s => s.lmElem32 c d i (vopFn k (s.lmVal32 c a i) (s.lmVal32 c b i) (s.lmVal32 c d i)))))

/-- The FP32 value `i` of a curve table. -/
def curveVal (t : List W32) (i : Nat) : FV := f32 (t.getD i 0).toNat

/-- The segment of R351: floor(16 × (x − XMIN) / (XMAX − XMIN)), formed exactly, at most 15. -/
def curveSeg (x lo hi : FV) : Nat :=
  match faddX x (fneg lo), faddX hi (fneg lo) with
  | .fin _ m e, .fin _ n k =>
    let q := min e k
    let d := n * pow2 (k - q)
    if d = 0 then 15 else Nat.min 15 (16 * (m * pow2 (e - q)) / d)
  | _, _ => 15

/-- A curve evaluated (R351). -/
def curveEval (t : List W32) (x : FV) : FV :=
  let lo := curveVal t 0
  let hi := curveVal t 1
  if x = .nan then .nan
  else if fltX x lo then curveVal t 2
  else if fltX hi x then curveVal t 3
  else
    let j := curveSeg x lo hi
    add32 (mul32 (curveVal t (4 + 2 * j)) x) (curveVal t (5 + 2 * j))

/-- VPWL (R351); its units are the elements. -/
def execTileVpwl (core : Fin 64) (s : State) : Host.Outcome State Fault Refusal :=
  .next (s.tile core.val (· == 0x41) (fun w s =>
    let c := core.val
    let x := s.core c
    let n := fld w 32 16
    let d := x.ar (fld w 16 4)
    let a := x.ar (fld w 20 4)
    match tget none x.curves (fld w 12 4) with
    | none => .fault ftCurveUnloaded none
    | some v => match s.lmFaults c [(a, 4 * n), (d, 4 * n)] with
      | some f => .fault f none
      | none =>
        if s.lmBusy c [(a, 4 * n)] [(d, 4 * n)] then .stay s
        else
          .work n (ceilDiv n 32 + 4) 0 (fun i s => s.lmElem32 c d i (curveEval v.words (s.lmVal32 c a i)))))

/-- CURVE: a table loaded from LM (R350). -/
def execTileCurve (core : Fin 64) (s : State) : Host.Outcome State Fault Refusal :=
  .next (s.tile core.val (· == 0x44) (fun w s =>
    let c := core.val
    let a := (s.core c).ar (fld w 20 4)
    if a % 16 ≠ 0 then .fault ftAlign none
    else match s.lmFault c a 144 with
      | some f => .fault f none
      | none =>
        if s.lmBusy c [(a, 144)] [] then .stay s
        else
          let t := (List.range 36).map (fun i => BitVec.ofNat 32 (mreadLe (s.core c).lm (a + 4 * i) 4))
          match curveVal t 0, curveVal t 1 with
          | .fin n1 m1 e1, .fin n2 m2 e2 =>
            if fltX (.fin n1 m1 e1) (.fin n2 m2 e2) then
              .retire (s.modCore c (fun x => { x with curves := tset none x.curves (fld w 12 4) (some ⟨a, t⟩) })) none
            else .fault ftDesc none
          | _, _ => .fault ftDesc none))

/-- The progress of a conversion of elements: the LM, the generator, and the statistics records where they stand aside until its end
(`none`: they stand in LM). -/
structure Conversion where
  lm : List Host.Cell
  rng : W64
  aside : Option (List Stat) := none

/-- One element converted (R285-R289, R301, R323): `v` written in format `f` as element `i` from `a`, and its record updated, the `k`-th from
`rec`. -/
def Conversion.put (f mode a i : Nat) (rec_ : Option (Nat × Nat)) (v : FV) (r : Conversion) : Conversion :=
  let g := if mode = 1 then rngStep r.rng else r.rng
  let q := convert f mode (rngVal g) v
  let lm := putElem r.lm f a i q.1
  let up := fun (t : Stat) => t.add v (decodeFmt f q.1) q.2
  match rec_ with
  | none => { r with lm := lm, rng := g }
  | some k => match r.aside with
    | some l => { lm := lm, rng := g, aside := some (l.set k.2 (up (l.getD k.2 (Stat.ofBytes [])))) }
    | none => { r with rng := g, lm := mwrite lm (k.1 + 8 * k.2) (up (Stat.ofBytes (mreadN lm (k.1 + 8 * k.2) 8))).bytes }

/-- The `n` records from `a` stand aside (R303, R323): a record that overlaps what the instruction reads or writes is written last. -/
def Conversion.setAside (a n : Nat) (r : Conversion) : Conversion :=
  { r with aside := some ((List.range n).map (fun k => Stat.ofBytes (mreadN r.lm (a + 8 * k) 8))) }

/-- The LM at the end, with the records that stood aside written from `a` (R303, R323). -/
def Conversion.done (a : Nat) (r : Conversion) : List Host.Cell :=
  match r.aside with
  | some l => mwrite r.lm a (l.flatMap Stat.bytes)
  | none => r.lm

/-- A conversion carried out on a core. -/
def State.converts (c : Nat) (f : Conversion → Conversion) (a : Nat) (s : State) : State :=
  s.modCore c (fun x => let r := f ⟨x.lm, x.rng, none⟩; { x with lm := r.done a, rng := r.rng })

/-- VCVT (R299-R303); its units are the elements, whose partial sums stand in their records (R308), or the whole where a record overlaps the
source or the destination (log 121). -/
def execTileVcvt (core : Fin 64) (s : State) : Host.Outcome State Fault Refusal :=
  .next (s.tile core.val (· == 0x42) (fun w s =>
    let c := core.val
    let x := s.core c
    let df := fld w 12 4
    let sf := fld w 48 4
    let n := fld w 32 16
    let g := grpSize (fld w 55 2)
    let d := x.ar (fld w 16 4)
    let a := x.ar (fld w 20 4)
    let b := x.ar (fld w 24 4)
    let ns := if g = 0 then 1 else n / g
    let stat := bit w 54
    let recs := (b + 4 * ns, if stat then 8 * ns else 0)
    let rds := [(a, fmtBytes sf n), (b, 4 * ns)]
    let wrs := [(d, fmtBytes df n), recs]
    if g ≠ 0 ∧ n % g ≠ 0 then .fault ftRsvdField none
    else if b % 4 ≠ 0 then .fault ftAlign none
    else match s.lmFaults c (rds ++ wrs) with
      | some f => .fault f none
      | none =>
        if s.lmBusy c rds wrs then .stay s
        else
          let per := if g = 0 then n else g
          let elem := fun (i : Nat) (r : Conversion) =>
            r.put df (fld w 52 2) d i (if stat then some (recs.1, i / per) else none)
              (fmulX (lmElemOf r.lm sf a i) (lmElemOf r.lm 0xA b (i / per)))
          let cc := ceilDiv n 32 + 4
          if overlap recs (d, fmtBytes df n) || overlap recs (a, fmtBytes sf n) then
            .work 1 cc 0 (fun _ s => s.converts c (fun r => (List.range n).foldl (fun r i => elem i r) (r.setAside recs.1 ns)) recs.1)
          else .work n cc 0 (fun i s => s.converts c (elem i) recs.1)))

/-- One row result of VRED (Table 9.10). A sum of more than two terms, or of more than one square, depends on an order that the
spec does not give: a free value (log 3). -/
def vredRow (k : Nat) (l : List FV) : FV :=
  let free := fun sq => f32 (Config.vredSum sq (l.map (fun v => BitVec.ofNat 32 (bits32 v)))).toNat
  if k = 1 then
    match l with
    | [] => .nan
    | v :: t => t.foldl fmax v
  else if k = 0 then
    match l with
    | [v] => v
    | [u, v] => add32 u v
    | _ => free false
  else
    match l with
    | [v] => mul32 v v
    | _ => free true

/-- VRED: row reductions, one FP32 result a row (Table 9.10); its units are the rows. -/
def execTileVred (core : Fin 64) (s : State) : Host.Outcome State Fault Refusal :=
  .next (s.tile core.val (· == 0x43) (fun w s =>
    let c := core.val
    let x := s.core c
    let n := fld w 32 16
    let rows := fld w 64 16 + 1
    let d := x.ar (fld w 16 4)
    let a := x.ar (fld w 20 4)
    match s.lmFaults c [(a, 4 * n * rows), (d, 4 * rows)] with
    | some f => .fault f none
    | none =>
      if s.lmBusy c [(a, 4 * n * rows)] [(d, 4 * rows)] then .stay s
      else
        .work rows (rows * ceilDiv n 32 + 6) 0
          (fun i s => s.lmElem32 c d i (vredRow (fld w 12 4) (s.lmVals c (a + 4 * n * i) 0xA n)))))

end Sys2Proof.Machine
end

