-- ==== Sys2Proof/Machine/OpMath.lean ====
section
/-!
DEFINITION. The arithmetic that descriptor instructions and operators share: fused chains (R319-R321, Tables 12.5, 12.6), sliding windows
(R333-R340, R346-R348), recurrent steps (R353-R357) and the attention page loop (R382).
-/
namespace Sys2Proof.Machine

/-! ### Fused chains -/

/-- A value in a chain (R320): domain 0 integer, 1 fixed point, 2 FP32. -/
structure ChVal where
  dom : Nat
  v : FV
  deriving DecidableEq, Repr

/-- A stage with its places resolved: `base` the tensor's first byte, `stride` between its rows, `recs` the statistics records,
`curve` the curve table of a PWL stage. -/
structure Stg where
  kind : Nat
  bcast : Bool
  fmt : Nat
  sel : Nat
  base : Nat
  stride : Nat
  recs : Nat
  arg0 : Nat
  arg1 : Nat
  curve : List W32
  deriving DecidableEq, Repr

/-- GRP of a stage. -/
def Stg.grp (g : Stg) : Nat := bits g.sel 3 3
/-- The scale index of element (m, n) (section 12.3). -/
def grpIdx (grp N m n : Nat) : Nat := if grp = 0 then 0 else if grp = 1 then n else (m * N + n) / 2 ^ (3 + grp)
/-- The number of scales of an M × N tensor. -/
def grpCount (grp M N : Nat) : Nat := if grp = 0 then 1 else if grp = 1 then N else M * N / 2 ^ (3 + grp)

/-- An element of a row at `a` in a format, read through `rd`. -/
def rowElem (rd : Nat → Nat → List Byte) (f a i : Nat) : FV :=
  if f = 0 then decodeFmt 0 (bits (leNat (rd (a + i / 2) 1)) (4 * (i % 2)) 4)
  else decodeFmt f (leNat (rd (a + i * (fmtBits f / 8)) (fmtBits f / 8)))

/-- A value carried into FP32 (R320). -/
def ChVal.fp (x : ChVal) : FV := if x.dom = 2 then x.v else rnd32 x.v

/-- An operand of a stage added: exact with an integer tensor, else in FP32 (R320). -/
def ChVal.plus (x : ChVal) (f : Nat) (r : FV) : ChVal :=
  if x.dom < 2 ∧ fmtInt f then { x with v := faddX x.v r } else ⟨2, add32 x.fp (rnd32 r)⟩

/-- CLAMP (Table 12.6): exact comparison, a NaN passes. -/
def clampV (v lo hi : FV) : FV := if v = .nan then v else if fltX v lo then lo else if fltX hi v then hi else v

/-- The rescale of one entry (R296, R297): `none` where the entry is illegal. -/
def rescale (e : List Byte) (x : ChVal) : Option ChVal :=
  if zerosAt e 10 6 = false ∨ 1 < leAt e 9 1 ∨ 63 < leAt e 8 1 then none
  else if leAt e 9 1 = 0 then some ⟨2, mul32 x.fp (f32 (leAt e 0 4))⟩
  else if x.dom ≠ 0 then none
  else some ⟨1, fmulX x.v (fmulX (ofI (sgn 32 (leAt e 4 4))) (.fin false 1 (-(Int.ofNat (leAt e 8 1)))))⟩

/-- Is the FP32 word a number with a fraction? -/
def fracF32 (w : Nat) : Bool :=
  match f32 w with
  | .fin _ m e => e < 0 && m % pow2 (-e) ≠ 0
  | _ => false

/-- A stage but REQUANT on the value at (m, n) of an M × N tensor (Table 12.6); `none` faults with DESC. A CLAMP to a bound with a fraction
leaves a fixed-point value (R319, R320). -/
def Stg.apply (rd : Nat → Nat → List Byte) (N m n : Nat) (g : Stg) (x : ChVal) : Option ChVal :=
  if g.kind = 0 then
    if g.grp ≤ 1 then rescale (rd (g.base + 16 * (if g.grp = 1 then n else 0)) 16) x
    else some ⟨2, mul32 x.fp (rowElem rd 0xA g.base (grpIdx g.grp N m n))⟩
  else if g.kind = 1 then some (x.plus g.fmt (rowElem rd g.fmt g.base n))
  else if g.kind = 2 then some ⟨2, curveEval g.curve x.fp⟩
  else if g.kind = 3 then some (x.plus g.fmt (rowElem rd g.fmt (if g.bcast then g.base else g.base + m * g.stride) n))
  else if g.kind = 4 then
    some ⟨2, mul32 x.fp (rnd32 (rowElem rd g.fmt (if g.bcast then g.base else g.base + m * g.stride) n))⟩
  else if g.kind = 5 then
    some { dom := if x.dom = 0 ∧ (fracF32 g.arg0 ∨ fracF32 g.arg1) then 1 else x.dom, v := clampV x.v (f32 g.arg0) (f32 g.arg1) }
  else some x

/-- All stages before the final conversion. -/
def chainTo (rd : Nat → Nat → List Byte) (N m n : Nat) : List Stg → ChVal → Option ChVal
  | [], x => some x
  | g :: t, x => (g.apply rd N m n x).bind (chainTo rd N m n t)

/-- The REQUANT of a chain, its last stage. -/
def requantOf (l : List Stg) : Option Stg := l.find? (fun g => g.kind == 8)

/-- The exact scaled value that the final conversion places (R321). -/
def finalValue (rd : Nat → Nat → List Byte) (l : List Stg) (N m n : Nat) (x : ChVal) : FV :=
  match requantOf l with
  | some g => fmulX x.v (rowElem rd 0xA g.base (grpIdx g.grp N m n))
  | none => x.v

/-- The rounding mode of the final conversion (R321). -/
def finalMode (l : List Stg) : Nat :=
  match requantOf l with
  | some g => bits g.sel 0 2
  | none => 0

/-- Does the chain gather statistics? -/
def chainStat (l : List Stg) : Bool :=
  match requantOf l with
  | some g => bitN g.sel 2
  | none => false

/-- Is the FP32 word `a` at most `b` (CLAMP)? -/
def leF32 (a b : Nat) : Bool :=
  match f32 a, f32 b with
  | .nan, _ => false
  | _, .nan => false
  | x, y => !fltX y x

/-- The fields of a stage entry (Tables 12.5, 12.6, 13.4). -/
def Stage.ok (g : Stage) (oneD : Bool) : Bool :=
  g.kind ≤ 8 && g.side < 4 &&
  (if g.kind = 0 then g.sel % 8 = 0 && g.sel / 8 ≤ 4
   else if g.kind = 2 then g.sel ≤ 7
   else if g.kind = 8 then g.sel % 4 ≤ 2 && g.sel / 8 ≤ 4
   else g.sel = 0) &&
  (if g.kind = 1 then (g.fmt = 5 || g.fmt = 8 || g.fmt = 9 || g.fmt = 0xA) && !bitN g.side 1
   else if g.kind = 3 ∨ g.kind = 4 then g.fmt ≤ 0xA
   else g.fmt = 0) &&
  (if g.kind = 5 then leF32 g.arg0 g.arg1 else true) &&
  (if g.kind = 7 then g.side = 0 && g.addr = 0 && bits g.arg0 0 8 ≤ 2 && 1 ≤ bits g.arg0 8 8 && bits g.arg0 8 8 ≤ 8 &&
      1 ≤ bits g.arg0 16 8 && bits g.arg0 16 8 ≤ 8 && bits g.arg0 28 4 = 0 &&
      (List.range 4).all (fun i => bits g.arg1 (8 * i) 8 ≤ 7) &&
      (!oneD || (bits g.arg0 8 8 = 1 && bits g.arg0 24 2 = 0 && bits g.arg1 0 16 = 0))
   else if g.kind = 6 then g.side = 0 && g.addr = 0 && bits g.arg0 0 8 ≤ 1 && 1 ≤ bits g.arg0 8 8 && bits g.arg0 8 8 ≤ 8 &&
      1 ≤ bits g.arg0 16 8 && bits g.arg0 16 8 ≤ 8 && bits g.arg0 24 8 = 0 && g.arg1 = 0 &&
      !(bits g.arg0 8 8 = 1 && bits g.arg0 16 8 = 1) && (!oneD || bits g.arg0 8 8 = 1)
   else true)

/-- One side of a chain obeys R319 on tensors of N columns: at most one REQUANT, last; groups divide N. -/
def sideOk (l : List Stage) (N : Nat) : Bool :=
  ((l.dropLast).all (fun g => g.kind ≠ 8)) &&
  l.all (fun g => if g.kind = 0 ∨ g.kind = 8 then g.sel / 8 ≤ 1 || N % 2 ^ (3 + g.sel / 8) = 0 else true)

/-! ### Sliding windows (R333-R340) -/

/-- The parameters of a window over an input of `ih` × `iw` × `c`. -/
structure Win where
  sy : Nat
  sx : Nat
  kh : Nat
  kw : Nat
  dy : Nat
  dx : Nat
  pt : Nat
  pb : Nat
  pl_ : Nat
  pr : Nat
  ih : Nat
  iw : Nat
  c : Nat
  oc : Nat
  groups : Nat
  fillMode : Nat
  fill : FV
  countPad : Bool
  deriving DecidableEq, Repr

/-- An output extent (R332), 0 when the window does not fit. -/
def outExtent (n p q d k st : Nat) : Nat := if n + p + q < d * (k - 1) + 1 then 0 else (n + p + q - d * (k - 1) - 1) / st + 1
/-- OH (R332). -/
def Win.oh (w : Win) : Nat := outExtent w.ih w.pt w.pb w.dy w.kh w.sy
/-- OW (R332). -/
def Win.ow (w : Win) : Nat := outExtent w.iw w.pl_ w.pr w.dx w.kw w.sx

/-- The input position of a tap (R333): clamped position, and whether it lies inside. -/
def Win.tap (w : Win) (oy ox kh kw : Nat) : Nat × Nat × Bool :=
  let y : Int := Int.ofNat (oy * w.sy + kh * w.dy) - Int.ofNat w.pt
  let x : Int := Int.ofNat (ox * w.sx + kw * w.dx) - Int.ofNat w.pl_
  let inn := decide (0 ≤ y ∧ y < Int.ofNat w.ih ∧ 0 ≤ x ∧ x < Int.ofNat w.iw)
  (Nat.min (w.ih - 1) y.toNat, Nat.min (w.iw - 1) x.toNat, inn)

/-- The value of a tap with its fill (R333). -/
def Win.tapVal (w : Win) (px : Nat → Nat → Nat → FV) (oy ox kh kw ch : Nat) : FV :=
  let t := w.tap oy ox kh kw
  if t.2.2 ∨ w.fillMode = 1 then px t.1 t.2.1 ch else if w.fillMode = 2 then w.fill else .fin false 0 0

/-- The taps (kh, kw) in ascending order. -/
def Win.taps (w : Win) : List (Nat × Nat) := (List.range w.kh).flatMap (fun a => (List.range w.kw).map (fun b => (a, b)))

/-- Channels of a group. -/
def Win.icg (w : Win) : Nat := w.c / w.groups

/-- The accumulator word of one convolution output (R335, R336): `px` input, `wt` weights (oc, k), `sa` input scales
(y, x, channel group), `sb` weight scales (oc, group), `g` the group size or 0, `flt` float operands. -/
def Win.conv (w : Win) (flt : Bool) (g : Nat) (init : Bool) (old : W32) (px : Nat → Nat → Nat → FV) (wt : Nat → Nat → FV)
    (sa : Nat → Nat → Nat → FV) (sb : Nat → Nat → FV) (oy ox oc : Nat) : W32 × Bool :=
  let q := oc / (w.oc / w.groups)
  let as := w.taps.flatMap (fun t => (List.range w.icg).map (fun ic => w.tapVal px oy ox t.1 t.2 (q * w.icg + ic)))
  let bs := (List.range as.length).map (wt oc)
  let one : FV := .fin false 1 0
  let sas := if g = 0 then [] else w.taps.flatMap (fun t => (List.range (w.icg / g)).map (fun i =>
    let p := w.tap oy ox t.1 t.2
    if p.2.2 ∨ w.fillMode = 1 then sa p.1 p.2.1 (q * (w.icg / g) + i) else one))
  accWord flt g init old as bs sas ((List.range sas.length).map (sb oc))

/-- A pooled value (R338, R346): `px` FP32 values; max or average. A constant fill is converted to FP32 like an element. -/
def Win.pool (w : Win) (avg : Bool) (px : Nat → Nat → Nat → FV) (oy ox ch : Nat) : FV :=
  let vals := w.taps.filterMap (fun t =>
    if (w.tap oy ox t.1 t.2).2.2 ∨ (avg ∧ w.countPad) then some (rnd32 (w.tapVal px oy ox t.1 t.2 ch)) else none)
  match vals with
  | [] => .fin false 0 0
  | v :: t => if avg then div32 (t.foldl add32 v) (ofI (Int.ofNat vals.length)) else t.foldl fmax v

/-- A source coordinate of UPSAMPLE (R339): lower index, upper index, weight; the weight is rounded to FP32 (DEDUCED, log 21). -/
def upCoord (y f n : Nat) : Nat × Nat × FV :=
  let num : Int := Int.ofNat (2 * y + 1) - Int.ofNat f
  let hi : Int := Int.ofNat (2 * f * (n - 1))
  let t := (if num < 0 then 0 else if hi < num then hi else num).toNat
  let y0 := t / (2 * f)
  (y0, Nat.min (y0 + 1) (n - 1), div32 (ofI (Int.ofNat (t % (2 * f)))) (ofI (Int.ofNat (2 * f))))

/-- An upsampled value (R339). -/
def upsample (bilinear : Bool) (fy fx h w : Nat) (px : Nat → Nat → Nat → FV) (y x ch : Nat) : FV :=
  if !bilinear then px (y / fy) (x / fx) ch
  else
    let a := upCoord y fy h
    let b := upCoord x fx w
    let one : FV := .fin false 1 0
    let mix := fun t p q => add32 (mul32 (sub32 one t) p) (mul32 t q)
    mix a.2.2 (mix b.2.2 (px a.1 b.1 ch) (px a.1 b.2.1 ch)) (mix b.2.2 (px a.2.1 b.1 ch) (px a.2.1 b.2.1 ch))

/-! ### Recurrent steps (R353-R357) -/

/-- What a step meets: an INT32 accumulation saturated, a conversion saturated, a conversion met a NaN (R314, R352). -/
structure OpBits where
  accSat : Bool := false
  sat : Bool := false
  nan : Bool := false
  deriving DecidableEq, Repr

/-- Two sets of bits joined. -/
def OpBits.or (a b : OpBits) : OpBits := ⟨a.accSat || b.accSat, a.sat || b.sat, a.nan || b.nan⟩
/-- The bits of a conversion. -/
def convBits (k : Conv) : OpBits := ⟨false, k == .sat, k == .nan⟩
/-- RESULT byte 26 (R314). -/
def OpBits.byte (b : OpBits) : Nat := at_ b.accSat 0 + at_ b.sat 1 + at_ b.nan 2

/-- A value into Q8.23 (R353). -/
def toQ (v : FV) : FV × OpBits :=
  let r := convert 5 0 0 (fmulX v (.fin false 1 23))
  (fmulX (decodeFmt 5 r.1) (.fin false 1 (-23)), convBits r.2)

/-- A state value formed (R357): each operation rounded to FP32, or exact and rounded once into Q8.23. `a×b + c×d`. -/
def stateSum (q : Bool) (a b c d : FV) : FV × OpBits :=
  if q then toQ (faddX (fmulX a b) (fmulX c d)) else (add32 (mul32 a b) (mul32 c d), {})
/-- A state value that is one product. -/
def stateMul (q : Bool) (a b : FV) : FV × OpBits := if q then toQ (fmulX a b) else (mul32 a b, {})

/-- The parts of a gated cell: X format, widths, weights (block, row, k), bias and DEQ (block, row), tables, scales. -/
structure Cell where
  gru : Bool
  xf : Nat
  wf : Nat
  inN : Nat
  h : Nat
  q : Bool
  hScale : FV
  sig : List W32
  tanh_ : List W32
  deriving DecidableEq, Repr

/-- One step of an LSTM or GRU row (R355, R357): `st` is h, then c for LSTM. -/
def Cell.step (k : Cell) (wt : Nat → Nat → Nat → FV) (bias deq : Nat → Nat → FV) (x st : List FV) : List FV × OpBits :=
  let h := (List.range k.h).map (fun j => st.getD j .nan)
  let hq := h.map (fun v => convert k.xf 0 0 (fmulX v k.hScale))
  let xs := x ++ hq.map (fun r => decodeFmt k.xf r.1)
  let flt := fmtFloat k.xf
  let acc := fun (g j lo hi : Nat) =>
    let as := (xs.drop lo).take (hi - lo)
    let bs := (List.range (hi - lo)).map (fun i => wt g j (lo + i))
    if flt then (floatDot (.fin false 0 0) as bs, false)
    else (let r := intDot (0, false) as bs; (rnd32 (ofI r.1), r.2))
  let n := k.inN + k.h
  let rng := fun (g : Nat) => if k.gru then (if g = 2 then (0, k.inN) else if g = 3 then (k.inN, n) else (0, n)) else (0, n)
  let pre := fun (g j : Nat) =>
    let a := acc g j (rng g).1 (rng g).2
    (add32 (mul32 a.1 (deq g j)) (bias g j), a.2)
  let sg := curveEval k.sig
  let th := curveEval k.tanh_
  let one : FV := .fin false 1 0
  let cell := fun (j : Nat) =>
    let p0 := pre 0 j
    let p1 := pre 1 j
    let p2 := pre 2 j
    let p3 := pre 3 j
    let sat : OpBits := ⟨p0.2 || p1.2 || p2.2 || p3.2, false, false⟩
    if k.gru then
      let z := sg p0.1
      let nn := th (add32 p2.1 (mul32 (sg p1.1) p3.1))
      let r := stateSum k.q z (h.getD j .nan) (sub32 one z) nn
      (r.1, FV.nan, sat.or r.2)
    else
      let c := stateSum k.q (sg p1.1) (st.getD (k.h + j) .nan) (sg p0.1) (th p2.1)
      let r := stateMul k.q (sg p3.1) (th (rnd32 c.1))
      (r.1, c.1, (sat.or c.2).or r.2)
  let all := (List.range k.h).map cell
  (all.map (·.1) ++ (if k.gru then [] else all.map (·.2.1)), all.foldl (fun (b : OpBits) r => b.or r.2.2) {})

/-- One step of a SCAN row (R356, R357): `st` is [D × S], S innermost. Gives the state, y and the bits. -/
def scanStep (q : Bool) (D S : Nat) (a : Nat → Nat → FV) (skip : Nat → FV) (x delta b c : Nat → FV) (st : List FV) :
    List FV × List FV × OpBits :=
  let el := fun (d i : Nat) =>
    let e := mul32 (delta d) (a d i)
    let u := mul32 (mul32 (delta d) (b i)) (x d)
    let old := st.getD (d * S + i) .nan
    if q then toQ (faddX (fmulX (exp32 e) old) u) else (add32 (mul32 (exp32 e) old) u, {})
  let all := (List.range D).map (fun d => (List.range S).map (el d))
  let y := fun (d : Nat) =>
    let ps := (List.range S).map (fun i => mul32 (c i) (rnd32 (((all.getD d []).getD i (.nan, {})).1)))
    let sum := match ps with
      | [] => FV.fin false 0 0
      | v :: t => t.foldl add32 v
    add32 sum (mul32 (skip d) (x d))
  (all.flatten.map (·.1), (List.range D).map y, all.flatten.foldl (fun (t : OpBits) r => t.or r.2) {})

/-- The bits of a state element in its format (R353, R358). -/
def stateBits (q : Bool) (v : FV) : Nat := if q then (convert 5 0 0 (fmulX v (.fin false 1 23))).1 else bits32 v
/-- The value of a state word. -/
def stateVal (q : Bool) (w : Nat) : FV := if q then fmulX (decodeFmt 5 w) (.fin false 1 (-23)) else f32 w

/-! ### The state record (Table 14.3) -/

/-- Is the 64-byte header that of a record with these numbers (R358)? -/
def recordOk (h : List Byte) (cell q rows width depth : Nat) : Bool :=
  leAt h 0 4 = 0xC7A50301 && leAt h 4 1 = cell && leAt h 5 1 = q && zerosAt h 6 2 && leAt h 8 4 = rows && leAt h 12 4 = width &&
  leAt h 16 4 = depth && leAt h 20 4 = 64 + rows * width * depth * 4 && zerosAt h 32 32

/-! ### Attention (R382) -/

/-- The running values of one query vector. -/
structure Attn where
  m : FV := .inf true
  l : FV := .fin false 0 0
  a : List FV := []
  deriving DecidableEq, Repr

/-- Sum in ascending order, zero for none. -/
def sumUp : List FV → FV
  | [] => .fin false 0 0
  | v :: t => t.foldl add32 v

/-- One page of the loop (R382): the visible positions' K and V rows. -/
def Attn.page (D : Nat) (q : List FV) (sc vs : FV) (kv : List (List FV × List FV)) (t : Attn) : Attn :=
  if kv.isEmpty then t
  else
    let s := kv.map (fun r => mul32 sc (floatDot (.fin false 0 0) q r.1))
    let m' := s.foldl fmax t.m
    let c := if t.m = .inf true then .fin false 0 0 else exp32 (sub32 t.m m')
    let e := s.map (fun v => exp32 (sub32 v m'))
    { m := m', l := add32 (mul32 t.l c) (sumUp e),
      a := (List.range D).map (fun d => add32 (mul32 (t.a.getD d (.fin false 0 0)) c)
        (sumUp ((List.zip e kv).map (fun r => mul32 (mul32 r.1 vs) (r.2.2.getD d .nan))))) }

/-- The partial values of a share merged into the running ones, with the same step arithmetic (R385). -/
def Attn.merge (D : Nat) (t u : Attn) : Attn :=
  let m' := fmax t.m u.m
  let c := if t.m = .inf true then .fin false 0 0 else exp32 (sub32 t.m m')
  let e := exp32 (sub32 u.m m')
  { m := m', l := add32 (mul32 t.l c) (mul32 u.l e),
    a := (List.range D).map (fun d => add32 (mul32 (t.a.getD d (.fin false 0 0)) c) (mul32 (u.a.getD d (.fin false 0 0)) e)) }

/-- Partial values as they travel between parts: FP32 words (log 42). -/
def Attn.bytes (D : Nat) (t : Attn) : List Byte :=
  toLe 4 (bits32 t.m) ++ toLe 4 (bits32 t.l) ++ (List.range D).flatMap (fun d => toLe 4 (bits32 (t.a.getD d (.fin false 0 0))))

/-- Partial values read at byte `o`. -/
def Attn.ofBytes (D : Nat) (b : List Byte) (o : Nat) : Attn :=
  { m := f32 (leAt b o 4), l := f32 (leAt b (o + 4) 4), a := (List.range D).map (fun d => f32 (leAt b (o + 8 + 4 * d) 4)) }

/-- The output y = a / l; 0 when no position was visible (R382). -/
def Attn.out (D : Nat) (t : Attn) (seen : Bool) : List FV :=
  (List.range D).map (fun d => if seen then div32 (t.a.getD d (.fin false 0 0)) t.l else .fin false 0 0)

end Sys2Proof.Machine
end

