-- ==== Sys2Proof/Machine/TileDesc.lean ====
section
/-!
DEFINITION. The descriptor instructions: EPI (Table 12.7, R322, R323), WIN (Table 13.5, R344, R345), RSTEP (Table 14.4, R363) and ATTN
(Table 15.6, R384). Each checks everything before it writes (R246) and is a sequence of units (R251).
-/
namespace Sys2Proof.Machine

/-- The descriptor of a layout-X instruction: misaligned faults with DESC, its bytes obey R232 and R233. -/
def State.descOf (s : State) (c : Nat) (w : W128) (k : List Byte → TileRes) : TileRes :=
  let a := (s.core c).ar (fld w 12 4)
  if a % 64 ≠ 0 then .fault ftDesc none
  else match s.lmFault c a 64 with
    | some f => .fault f none
    | none => if s.lmBusy c [(a, 64)] [] then .stay s else k (s.lmRd c a 64)

/-- The shared end of the checks of a descriptor instruction: LM faults of every operand, then the stall of R241. -/
def State.operands (s : State) (c : Nat) (rds wrs : List (Nat × Nat)) (k : TileRes) : TileRes :=
  match s.lmFaults c (rds ++ wrs) with
  | some f => .fault f none
  | none => if s.lmBusy c rds wrs then .stay s else k

/-! ### EPI -/

/-- The stage of an EPI list with its LM places. -/
def epiStg (x : Core) (g : Stage) : Stg :=
  { kind := g.kind, bcast := bitN g.side 1, fmt := g.fmt, sel := g.sel, base := g.addr, stride := g.arg0, recs := g.arg0,
    arg0 := g.arg0, arg1 := g.arg1,
    curve := if g.kind = 2 then ((tget none x.curves (g.sel % 8)).map (·.words)).getD [] else [] }

/-- The LM ranges that a stage reads on an M × N tile, and its statistics records. -/
def Stg.reads (g : Stg) (M N : Nat) : List (Nat × Nat) :=
  if g.kind = 0 then
    if g.grp ≤ 1 then [(g.base, 16 * grpCount g.grp M N)] else [(g.base, 4 * grpCount g.grp M N)]
  else if g.kind = 1 then [(g.base, fmtBytes g.fmt N)]
  else if g.kind = 3 ∨ g.kind = 4 then
    if g.bcast then [(g.base, fmtBytes g.fmt N)] else (List.range M).map (fun m => (g.base + m * g.stride, fmtBytes g.fmt N))
  else if g.kind = 8 then [(g.base, 4 * grpCount g.grp M N)]
  else []

/-- The records of a REQUANT with STAT. -/
def Stg.records (g : Stg) (M N : Nat) : List (Nat × Nat) :=
  if g.kind = 8 ∧ bitN g.sel 2 then [(g.recs, 8 * grpCount g.grp M N)] else []

/-- Is the stage address aligned to its element size, or to 4 for tables, scales and records (R322)? -/
def Stg.aligned (g : Stg) : Bool :=
  if g.kind = 1 ∨ g.kind = 3 ∨ g.kind = 4 then g.base % Nat.max 1 (fmtBits g.fmt / 8) = 0
  else if g.kind = 0 then g.base % 4 = 0
  else if g.kind = 8 then g.base % 4 = 0 && (!bitN g.sel 2 || g.recs % 4 = 0)
  else true

/-- One element of an EPI (R323): sources read from the LM as it stands, converted, written, its record updated; `none` for an illegal
rescale entry. -/
def epiElem (stages : List Stg) (src : List Host.Cell → Nat → Nat → ChVal) (N of_ dst dstr e : Nat) (r : Conversion) :
    Option Conversion :=
  let m := e / N
  let n := e % N
  let rd := fun a k => mreadN r.lm a k
  (chainTo rd N m n (stages.filter (fun g => g.kind ≠ 8)) (src r.lm m n)).map (fun x =>
    r.put of_ (finalMode stages) (dst + m * dstr) n
      (if chainStat stages then (requantOf stages).map (fun t => (t.recs, grpIdx t.grp N m n)) else none) (finalValue rd stages N m n x))

/-- The fields of an EPI descriptor (Table 12.7, R322). -/
def epiOk (d : List Byte) : Bool :=
  let sk := leAt d 1 1
  let inf := leAt d 2 1
  let of_ := leAt d 3 1
  let M := leAt d 4 2
  let N := leAt d 6 2
  let ns := leAt d 24 1
  leAt d 0 1 = 1 && sk ≤ 1 && (if sk = 0 then (inf = 5 || inf = 0xA) && leAt d 12 4 = 0 else inf ≤ 0xA) && of_ ≤ 0xA &&
    1 ≤ M && M ≤ 4096 && 1 ≤ N && N ≤ 4096 && !((of_ = 0 || inf = 0) && N % 2 = 1) && fmtBytes of_ N ≤ leAt d 20 4 && ns ≤ 8 &&
    zerosAt d 25 3 && zerosAt d 32 32 && leAt d 28 4 % 16 = 0 && !(sk = 0 && 16384 < leAt d 8 4 + M * N)

/-- The stage list of an EPI. -/
def State.epiStages (s : State) (c : Nat) (d : List Byte) : List Stage :=
  let ns := leAt d 24 1
  (List.range ns).map (fun i => stageAt (s.lmRd c (leAt d 28 4) (16 * ns)) (16 * i))

/-- The rows that an EPI writes. -/
def epiDsts (d : List Byte) : List (Nat × Nat) :=
  (List.range (leAt d 4 2)).map (fun m => (leAt d 16 4 + m * leAt d 20 4, fmtBytes (leAt d 3 1) (leAt d 6 2)))

/-- What an EPI reads besides its descriptor. -/
def epiReads (d : List Byte) (st : List Stg) : List (Nat × Nat) :=
  (if leAt d 1 1 = 0 then []
   else (List.range (leAt d 4 2)).map (fun m => (leAt d 8 4 + m * leAt d 12 4, fmtBytes (leAt d 2 1) (leAt d 6 2)))) ++
  st.flatMap (fun g => g.reads (leAt d 4 2) (leAt d 6 2)) ++ [(leAt d 28 4, 16 * leAt d 24 1)]

/-- The chain of an EPI obeys R319 and no stage overlaps the destination but element for element (R322), which on a tile of one row a
broadcast vector or any stride does too. -/
def epiLegal (d : List Byte) (raw : List Stage) (st : List Stg) : Bool :=
  let M := leAt d 4 2
  let N := leAt d 6 2
  let dst := leAt d 16 4
  let dstr := leAt d 20 4
  let clash := st.any (fun g =>
    let same := (g.kind = 3 || g.kind = 4) && g.base = dst && (M = 1 || (!g.bcast && g.stride = dstr)) &&
      fmtBits g.fmt = fmtBits (leAt d 3 1)
    (!same && (g.reads M N).any (fun r => (epiDsts d).any (overlap r))) || (g.records M N).any (fun r => (epiDsts d).any (overlap r)))
  raw.all (fun g => g.ok false && g.kind ≠ 6 && g.kind ≠ 7 && !bitN g.side 0) && sideOk raw N && !clash

/-- The source of element (m, n) of an EPI: an accumulator word (R293) or an element of a row in LM. -/
def epiSource (x : Core) (d : List Byte) (lm : List Host.Cell) (m n : Nat) : ChVal :=
  let inf := leAt d 2 1
  if leAt d 1 1 = 0 then
    let word := (tget 0 x.acc (leAt d 8 4 + m * leAt d 6 2 + n)).toNat
    if inf = 5 then ⟨0, ofI (sgn 32 word)⟩ else ⟨2, f32 word⟩
  else ⟨if fmtInt inf then 0 else 2, rowElem (fun a k => mreadN lm a k) inf (leAt d 8 4 + m * leAt d 12 4) n⟩

/-- Element `e` of an EPI on a core's LM and generator. -/
def epiStep (x : Core) (d : List Byte) (st : List Stg) (e : Nat) (r : Conversion) : Option Conversion :=
  epiElem st (epiSource x d) (leAt d 6 2) (leAt d 3 1) (leAt d 16 4) (leAt d 20 4) e r

/-- The elements of an EPI in row-major order from element `p` on (R323); `none` after an illegal rescale entry. -/
def epiRun (x : Core) (d : List Byte) (st : List Stg) (p : Nat) (r : Conversion) : Option Conversion :=
  (List.range (leAt d 4 2 * leAt d 6 2 - p)).foldl (fun (o : Option Conversion) e => o.bind (epiStep x d st (p + e))) (some r)

/-- One unit of an EPI: its element `e` done on the core. -/
def State.epiUnit (c : Nat) (d : List Byte) (st : List Stg) (e : Nat) (s : State) : State :=
  let x := s.core c
  s.converts c (fun r => (epiStep x d st e r).getD r) 0

/-- The records of an EPI: where they lie and how many there are. -/
def epiRecs (d : List Byte) (st : List Stg) : Nat × Nat :=
  match requantOf st with
  | some t => if chainStat st then (t.recs, grpCount t.grp (leAt d 4 2) (leAt d 6 2)) else (0, 0)
  | none => (0, 0)

/-- A whole EPI on a core, its records written last (R323). -/
def State.epiWhole (c : Nat) (d : List Byte) (st : List Stg) (s : State) : State :=
  let x := s.core c
  let q := epiRecs d st
  s.converts c (fun r => (epiRun x d st 0 (r.setAside q.1 q.2)).getD r) q.1

/-- The cycles of an EPI (R323). -/
def epiCc (d : List Byte) (st : List Stg) : Nat :=
  leAt d 4 2 * ceilDiv (leAt d 6 2) 32 * (1 + (st.filter (fun g => (g.kind == 3 || g.kind == 4) && !g.bcast)).length) + 8

/-- EPI: a chain over a tile (Table 12.7, R319-R323); its units are the elements, or the whole where a record overlaps what it reads (log
121). -/
def execTileEpi (core : Fin 64) (s : State) : Host.Outcome State Fault Refusal :=
  .next (s.tile core.val (· == 0x50) (fun w s => s.descOf core.val w (fun d =>
    let c := core.val
    let x := s.core c
    if !epiOk d then .fault ftDesc none
    else match s.lmFault c (leAt d 28 4) (16 * leAt d 24 1) with
      | some f => .fault f none
      | none => if s.lmBusy c [(leAt d 28 4, 16 * leAt d 24 1)] [] then .stay s else
        let raw := s.epiStages c d
        let st := raw.map (epiStg x)
        if !epiLegal d raw st then .fault ftDesc none
        else
          s.operands c (epiReads d st) (epiDsts d ++ st.flatMap (fun g => g.records (leAt d 4 2) (leAt d 6 2))) <|
            if !(st.all Stg.aligned) then .fault ftAlign none
            else if st.any (fun g => g.kind = 2 && (tget none x.curves (g.sel % 8)).isNone) then .fault ftCurveUnloaded none
            else
              let n := leAt d 4 2 * leAt d 6 2
              let cc := epiCc d st
              let q := epiRecs d st
              let aside := (epiReads d st).any (overlap (q.1, 8 * q.2))
              let r0 : Conversion := ⟨x.lm, x.rng, none⟩
              let run := if aside then epiRun x d st 0 (r0.setAside q.1 q.2) else epiRun x d st (x.progress.toNat / stepsPer n cc) r0
              if run.isNone then .fault ftDesc none
              else if aside then .work 1 cc 0 (fun _ => State.epiWhole c d st)
              else .work n cc 0 (State.epiUnit c d st))))

/-! ### WIN -/

/-- The window of a WIN descriptor. -/
def winOf (d : List Byte) : Win :=
  { sy := bits (leAt d 5 1) 0 2 + 1, sx := bits (leAt d 5 1) 2 2 + 1, kh := leAt d 6 1, kw := leAt d 7 1, dy := leAt d 8 2,
    dx := leAt d 10 2, pt := leAt d 12 1, pb := leAt d 13 1, pl_ := leAt d 14 1, pr := leAt d 15 1, ih := leAt d 16 2,
    iw := leAt d 18 2, c := leAt d 20 2, oc := leAt d 22 2, groups := leAt d 24 2, fillMode := bits (leAt d 4 1) 1 2,
    fill := decodeFmt (leAt d 2 1) (leAt d 44 4), countPad := bitN (leAt d 4 1) 6 }

/-- The fields of a WIN descriptor (Table 13.5 with Table 13.2's limits for every WKIND, R330-R332, R336, R338, R348). -/
def winOk (d : List Byte) : Bool :=
  let w := winOf d
  let k := leAt d 1 1
  let fl := leAt d 4 1
  let one := bitN fl 0
  let conv := k ≤ 1
  let fy := leAt d 26 1
  let fx := leAt d 27 1
  let g := grpSize (bits fl 4 2)
  let ring := leAt d 48 4
  leAt d 0 1 = 2 && k ≤ 7 && leAt d 2 1 ≤ 0xA &&
  (if conv then mmaPair (leAt d 2 1) (leAt d 3 1) && leAt d 3 1 ≤ 0xA else leAt d 3 1 = 0) &&
  !bitN fl 7 && w.fillMode ≤ 2 && bits (leAt d 5 1) 4 4 = 0 &&
  1 ≤ w.ih && 1 ≤ w.iw && 1 ≤ w.c && 1 ≤ w.oc && (!one || w.ih = 1) &&
  1 ≤ w.kh && 1 ≤ w.kw && 1 ≤ w.dy && 1 ≤ w.dx && w.dy ≤ 64 &&
  (if one then w.kh = 1 && w.kw ≤ 64 && w.sy = 1 && w.dy = 1 && w.dx ≤ 1024 && w.pt = 0 && w.pb = 0
   else w.kh ≤ 16 && w.kw ≤ 16 && w.dx ≤ 64) &&
  (if k ≤ 3 then 1 ≤ w.oh && 1 ≤ w.ow && fy = 0 && fx = 0 else true) &&
  w.pt ≤ 15 && w.pb ≤ 15 && w.pl_ ≤ 15 && w.pr ≤ 15 &&
  (if conv then
    1 ≤ w.groups && w.c % w.groups = 0 && w.oc % w.groups = 0 && (k = 0 || (w.groups = w.c && w.c = w.oc)) &&
    (g = 0 || w.icg % g = 0) && !(leAt d 3 1 = 0 && w.icg % 2 = 1)
   else w.groups = 1 && leAt d 32 4 = 0 && g = 0) &&
  !(leAt d 2 1 = 0 && w.c % 2 = 1) && (k = 3 || !w.countPad) && (k ≠ 2 || w.fillMode = 0) &&
  (g ≠ 0 || leAt d 40 4 = 0) && (w.fillMode = 2 || leAt d 44 4 = 0) &&
  (if k = 4 ∨ k = 5 then 1 ≤ fy && fy ≤ 8 && 1 ≤ fx && fx ≤ 8 && (!one || fy = 1)
   else if k = 6 ∨ k = 7 then fy = fx && (fy = 2 || fy = 4) else true) &&
  (if k = 6 then w.iw % fx = 0 && (one || w.ih % fx = 0)
   else if k = 7 then w.c % (if one then fx else fx * fx) = 0 else true) &&
  (if ring = 0 then leAt d 52 4 = 0 else conv && one && leAt d 52 4 < ring && w.iw ≤ ring) && zerosAt d 56 8

/-- The input element that output (y, x, channel) of S2D or D2S copies (R340): `one` for the 1-D forms. -/
def regroup (d2s one : Bool) (f c y x ch : Nat) : Nat × Nat × Nat :=
  let fh := if one then 1 else f
  if d2s then
    let co := c / (fh * f)
    (y / fh, x / f, ((y % fh) * f + x % f) * co + ch)
  else
    let t := ch / c
    (y * fh + t / f, x * f + t % f, ch % c)

/-- The output rows, columns and channels of a WIN (R332, R344). -/
def winShape (d : List Byte) : Nat × Nat × Nat :=
  let w := winOf d
  let k := leAt d 1 1
  let one := bitN (leAt d 4 1) 0
  let fy := leAt d 26 1
  let fx := leAt d 27 1
  let ff := if one then fx else fx * fx
  (if k ≤ 3 then w.oh else if k ≤ 5 then w.ih * fy else if one then w.ih else if k = 6 then w.ih / fy else w.ih * fy,
   if k ≤ 3 then w.ow else if k ≤ 5 then w.iw * fx else if k = 6 then w.iw / fx else w.iw * fx,
   if k ≤ 1 then w.oc else if k = 6 then w.c * ff else if k = 7 then w.c / ff else w.c)

/-- The LM bytes that a WIN writes: none for accumulator words. -/
def winOut (d : List Byte) : Nat × Nat :=
  let k := leAt d 1 1
  let n := (winShape d).1 * (winShape d).2.1 * (winShape d).2.2
  if k ≤ 1 then (0, 0) else (leAt d 36 4, if k ≤ 5 then 4 * n else fmtBytes (leAt d 2 1) n)

/-- The LM bytes that a WIN reads besides its descriptor: input tile or ring, weights, scales. -/
def winReads (d : List Byte) : List (Nat × Nat) :=
  let w := winOf d
  let k := leAt d 1 1
  let g := grpSize (bits (leAt d 4 1) 4 2)
  let pix := fmtBytes (leAt d 2 1) w.c
  let taps := w.kh * w.kw * w.icg
  [(leAt d 28 4, if leAt d 48 4 = 0 then w.ih * w.iw * pix else leAt d 48 4 * pix)] ++
  (if k ≤ 1 then [(leAt d 32 4, w.oc * fmtBytes (leAt d 3 1) taps)] else []) ++
  [(leAt d 40 4, if g = 0 then 0 else 2 * (w.ih * w.iw * (w.c / g) + w.oc * (taps / g)))]

/-- WIN: one tile of a window operator (R344, R345); its units are the accumulator words or the output elements. -/
def execTileWin (core : Fin 64) (s : State) : Host.Outcome State Fault Refusal :=
  .next (s.tile core.val (· == 0x51) (fun w0 s => s.descOf core.val w0 (fun d =>
    let c := core.val
    let x := s.core c
    let w := winOf d
    let k := leAt d 1 1
    let fi := leAt d 2 1
    let fw := leAt d 3 1
    let fl := leAt d 4 1
    let one := bitN fl 0
    let g := grpSize (bits fl 4 2)
    let fy := leAt d 26 1
    let fx := leAt d 27 1
    let src := leAt d 28 4
    let wgt := leAt d 32 4
    let dst := leAt d 36 4
    let sc := leAt d 40 4
    let ring := leAt d 48 4
    let rp := leAt d 52 4
    let pix := fmtBytes fi w.c
    let taps := w.kh * w.kw * w.icg
    let wrow := fmtBytes fw taps
    let ng := if g = 0 then 0 else taps / g
    let cg := if g = 0 then 0 else w.c / g
    let sh := winShape d
    let oh := sh.1
    let ow := sh.2.1
    let och := sh.2.2
    let inR := (src, if ring = 0 then w.ih * w.iw * pix else ring * pix)
    let outR := winOut d
    let rds := winReads d
    if !winOk d || (k ≤ 1 && 16384 < dst + oh * ow * w.oc) || rds.any (overlap outR) then .fault ftDesc none
    else s.operands c rds [outR] <|
      let inB := mreadN x.lm inR.1 inR.2
      let wB := mreadN x.lm wgt (if k ≤ 1 then w.oc * wrow else 0)
      let scB := mreadN x.lm sc (if g = 0 then 0 else 2 * (w.ih * w.iw * cg + w.oc * ng))
      let px := fun y xx ch =>
        let f := if ring = 0 then y * w.iw + xx else (rp + xx) % ring
        decodeFmt fi (elemAt fi inB (f * w.c + ch))
      if k ≤ 1 then
        let unit := fun (e : Nat) (s : State) =>
          let p := e / w.oc
          s.accPut c (dst + e) (w.conv (fmtFloat fi) g (bitN fl 3) (tget 0 x.acc (dst + e)) px
            (fun oc i => decodeFmt fw (elemAt fw wB (oc * taps + i))) (fun y xx i => decodeFmt 8 (leAt scB (2 * ((y * w.iw + xx) * cg + i)) 2))
            (fun oc i => decodeFmt 8 (leAt scB (2 * (w.ih * w.iw * cg + oc * ng + i)) 2)) (p / ow) (p % ow) (e % w.oc))
        let P := oh * ow
        let diag := k = 1 || w.icg ≤ 4
        let cc := if diag then ceilDiv (ceilDiv P 4 * ceilDiv w.oc 4 * ceilDiv taps 4) 4
          else w.groups * ceilDiv (ceilDiv P 4 * ceilDiv (w.oc / w.groups) 4 * ceilDiv taps 4) 4
        .work (oh * ow * w.oc) (scaleCc cc fi fw + 8) (scaleCc cc fi fw) unit
      else if k ≤ 5 then
        let fp := fun y xx ch => rnd32 (px y xx ch)
        let per := if k ≤ 3 then w.kh * w.kw else if k = 4 then 1 else 4
        .work (oh * ow * w.c) (ceilDiv (oh * ow * w.c * per) 32 + 8) 0 (fun e s =>
          let p := e / w.c
          s.lmElem32 c dst e (if k ≤ 3 then w.pool (k = 3) fp (p / ow) (p % ow) (e % w.c)
            else upsample (k = 5) fy fx w.ih w.iw fp (p / ow) (p % ow) (e % w.c)))
      else
        .work (oh * ow * och) (ceilDiv (w.ih * w.iw * w.c * fmtBits fi) 1024 + 8) 0 (fun e s =>
          let p := e / och
          let q := regroup (k = 7) one fx w.c (p / ow) (p % ow) (e % och)
          s.lmElem c fi dst e (elemAt fi inB ((q.1 * w.iw + q.2.1) * w.c + q.2.2))))))

/-! ### RSTEP -/

/-- The fields of an RSTEP descriptor (R353-R359). -/
structure Recur where
  cell : Nat
  xf : Nat
  wf : Nat
  q : Bool
  me : Bool
  tb : Nat
  R : Nat
  inN : Nat
  hid : Nat
  T : Nat
  xa : Nat
  wa : Nat
  ba : Nat
  sa : Nat
  ya : Nat
  ma : Nat
  yf : Nat
  ax : Nat
  inv : FV
  ys : FV
  deriving DecidableEq, Repr

/-- The descriptor read (R353). -/
def recurOf (d : List Byte) : Recur where
  cell := leAt d 1 1
  xf := leAt d 2 1
  wf := leAt d 3 1
  q := bitN (leAt d 4 1) 0
  me := bitN (leAt d 4 1) 1
  tb := leAt d 5 1
  R := leAt d 6 2
  inN := leAt d 8 2
  hid := leAt d 10 2
  T := leAt d 12 2
  xa := leAt d 16 4
  wa := leAt d 20 4
  ba := leAt d 24 4
  sa := leAt d 28 4
  ya := leAt d 32 4
  ma := leAt d 36 4
  yf := leAt d 48 1
  ax := leAt d 52 4
  inv := f32 (leAt d 40 4)
  ys := f32 (leAt d 44 4)

/-- A scan, not a gated cell. -/
def Recur.scan (r : Recur) : Bool := r.cell == 2
/-- State values per row and depth. -/
def Recur.width (r : Recur) : Nat := if r.scan then r.inN else r.hid
/-- State vectors per row. -/
def Recur.depth (r : Recur) : Nat := if r.scan then r.hid else if r.cell = 0 then 2 else 1
/-- State values of one row. -/
def Recur.per (r : Recur) : Nat := r.width * r.depth
/-- Bytes of one input row. -/
def Recur.xrow (r : Recur) : Nat := fmtBytes r.xf r.inN
/-- Bytes of one weight row. -/
def Recur.wrow (r : Recur) : Nat := fmtBytes r.wf (r.inN + r.hid)
/-- Bytes of the weights. -/
def Recur.wLen (r : Recur) : Nat := if r.scan then 4 * r.inN * r.hid else 4 * r.hid * r.wrow
/-- Bytes of the biases. -/
def Recur.bLen (r : Recur) : Nat := if r.scan then 4 * r.inN else 32 * r.hid
/-- Bytes of the state record. -/
def Recur.recLen (r : Recur) : Nat := 64 + r.R * r.per * 4
/-- Offset of B in the scan's auxiliary block. -/
def Recur.dB (r : Recur) : Nat := r.R * r.T * fmtBytes r.wf r.inN
/-- Bytes of B in the scan's auxiliary block. -/
def Recur.bB (r : Recur) : Nat := r.R * r.T * fmtBytes r.wf r.hid

/-- Is the descriptor legal (R353-R359)? -/
def Recur.ok (r : Recur) (d : List Byte) : Bool :=
  leAt d 0 1 = 3 && r.cell ≤ 2 && leAt d 4 1 < 4 && bits r.tb 3 1 = 0 && bits r.tb 7 1 = 0 && (!r.scan || r.tb = 0) &&
  (if r.scan then fmtFloat r.xf && fmtFloat r.wf else mmaPair r.xf r.wf && r.xf ≤ 0xA && r.wf ≤ 0xA) &&
  1 ≤ r.R && r.R ≤ 64 && 1 ≤ r.inN && r.inN ≤ (if r.scan then 8192 else 4096) && 1 ≤ r.hid &&
  r.hid ≤ (if r.scan then 64 else 4096) && 1 ≤ r.T && r.T ≤ 256 && zerosAt d 14 2 && (r.me || r.ma = 0) &&
  r.yf ≤ 0xA && zerosAt d 49 3 && (r.scan || r.ax = 0) && zerosAt d 56 8 && r.sa % 64 = 0

/-- What RSTEP reads. -/
def Recur.reads (r : Recur) : List (Nat × Nat) :=
  [(r.xa, r.R * r.T * r.xrow), (r.wa, r.wLen), (r.ba, r.bLen), (r.sa, r.recLen), (r.ma, if r.me then r.R * r.T else 0),
   (r.ax, if r.scan then r.dB + 2 * r.bB else 0)]

/-- Where RSTEP writes its output rows. -/
def Recur.out (r : Recur) : Nat × Nat := (r.ya, r.R * r.T * fmtBytes r.yf r.width)

/-- A vector of format `f` at LM address `a`. -/
def lmVec (lm : List Host.Cell) (f a n : Nat) : List FV :=
  let b := mreadN lm a (fmtBytes f n)
  (List.range n).map (fun i => decodeFmt f (elemAt f b i))

/-- One step of row `row` at time `t` from state `st`: the state after it, the output row, the sticky bits (R354-R358). -/
def Recur.rowStep (r : Recur) (lm : List Host.Cell) (wB bB : List Byte) (kc : Cell) (row t : Nat) (st : List FV) :
    List FV × List FV × OpBits :=
  let st := if r.me && bit (mread lm (r.ma + row * r.T + t)) 0 then List.replicate r.per (.fin false 0 0) else st
  let xv := lmVec lm r.xf (r.xa + (row * r.T + t) * r.xrow) r.inN
  if r.scan then
    let dl := lmVec lm r.wf (r.ax + (row * r.T + t) * fmtBytes r.wf r.inN) r.inN
    let b := lmVec lm r.wf (r.ax + r.dB + (row * r.T + t) * fmtBytes r.wf r.hid) r.hid
    let cc := lmVec lm r.wf (r.ax + r.dB + r.bB + (row * r.T + t) * fmtBytes r.wf r.hid) r.hid
    let o := scanStep r.q r.inN r.hid (fun i j => f32 (leAt wB (4 * (i * r.hid + j)) 4)) (fun i => f32 (leAt bB (4 * i) 4))
      (fun i => xv.getD i .nan) (fun i => dl.getD i .nan) (fun i => b.getD i .nan) (fun i => cc.getD i .nan) st
    (o.1, o.2.1, o.2.2)
  else
    let o := kc.step (fun g j i => decodeFmt r.wf (elemAt r.wf (slice wB ((g * r.hid + j) * r.wrow) r.wrow) i))
      (fun g j => f32 (leAt bB (4 * (g * r.hid + j)) 4))
      (fun g j => f32 (leAt bB (4 * (4 * r.hid + g * r.hid + j)) 4)) xv st
    (o.1, o.1.take r.hid, o.2)

/-- The state of row `row` in the record in LM. -/
def Recur.rowState (r : Recur) (lm : List Host.Cell) (row : Nat) : List FV :=
  (List.range r.per).map (fun i => stateVal r.q (mreadLe lm (r.sa + 64 + 4 * (row * r.per + i)) 4))

/-- Step `t` of every row from the record and the operands in LM: the states after it, the output rows, the sticky bits. -/
def Recur.stepAll (r : Recur) (lm : List Host.Cell) (sig tan_ : List W32) (t : Nat) : List (List FV × List FV × OpBits) :=
  let wB := mreadN lm r.wa r.wLen
  let bB := mreadN lm r.ba r.bLen
  let kc : Cell := ⟨r.cell = 1, r.xf, r.wf, r.inN, r.hid, r.q, r.inv, sig, tan_⟩
  (List.range r.R).map (fun row => r.rowStep lm wB bB kc row t (r.rowState lm row))

/-- The cycles of the element-wise part of one step (R363). -/
def Recur.elemCc (r : Recur) : Nat :=
  if r.scan then 6 * ceilDiv (r.R * r.inN * r.hid) 32 + 16 else 12 * ceilDiv (r.R * r.hid) 32 + 16

/-- The cube cycles of one step before the format's factor (R363). -/
def Recur.cost (r : Recur) : Nat :=
  if r.scan then 0
  else if r.cell = 0 then ceilDiv (ceilDiv r.R 4 * r.hid * ceilDiv (r.inN + r.hid) 4) 4
  else ceilDiv (ceilDiv r.R 4 * ceilDiv r.hid 4 * (2 * ceilDiv (r.inN + r.hid) 4 + ceilDiv r.inN 4 + ceilDiv r.hid 4)) 4

/-- The record and the output rows of step `t` stored, its sticky bit set: the step is committed whole (R363). -/
def State.rstepStore (c : Nat) (r : Recur) (t : Nat) (out : List (List FV × List FV × OpBits)) (s : State) : State :=
  let head := s.lmRd c r.sa 64
  let newHead := slice head 0 24 ++ toLe 8 (leAt head 24 8 + 1) ++ List.replicate 32 0
  let s1 := s.lmWr c r.sa (newHead ++ (out.flatMap (·.1)).flatMap (fun v => toLe 4 (stateBits r.q v)))
  let s2 := (List.range r.R).foldl (fun s row => s.lmWr c (r.ya + (row * r.T + t) * fmtBytes r.yf r.width)
    (packElems r.yf (((out.getD row ([], [], {})).2.1).map (fun v => (convert r.yf 0 0 (fmulX v r.ys)).1)))) s1
  if out.any (·.2.2.accSat) then s2.errQuant c else s2

/-- Step `t` of an RSTEP with its operands as they stand in LM. -/
def State.rstepUnit (c : Nat) (r : Recur) (sig tan_ : List W32) (t : Nat) (s : State) : State :=
  s.rstepStore c r t (r.stepAll (s.core c).lm sig tan_ t)

/-- RSTEP: STEPS steps of a gated cell or a scan for ROWS rows, each step committed whole (R353-R359, R363); its units are the steps, inside
which it stops as well (log 90). -/
def execTileRstep (core : Fin 64) (s : State) : Host.Outcome State Fault Refusal :=
  .next (s.tile core.val (· == 0x52) (fun w0 s => s.descOf core.val w0 (fun d =>
    let c := core.val
    let x := s.core c
    let r := recurOf d
    let sig := tget none x.curves (bits r.tb 0 3)
    let tan_ := tget none x.curves (bits r.tb 4 3)
    if !r.ok d || r.reads.any (overlap r.out) || (!r.scan && (sig.isNone || tan_.isNone)) then .fault ftDesc none
    else s.operands c r.reads [r.out, (r.sa, r.recLen)] <|
      let head := s.lmRd c r.sa 64
      if !recordOk head r.cell (at_ r.q 0) r.R r.width r.depth then .fault ftDesc none
      else
        let cube := scaleCc r.cost r.xf r.wf
        .work r.T (r.T * (cube + r.elemCc)) (r.T * cube)
          (State.rstepUnit c r ((sig.map (·.words)).getD []) ((tan_.map (·.words)).getD [])))))

/-! ### ATTN -/

/-- The fields of an ATTN descriptor (Table 15.6, R384). -/
def attnOk (d : List Byte) : Bool :=
  let fl := leAt d 1 1
  let kf := leAt d 3 1
  let nq := leAt d 4 2
  let D := leAt d 6 2
  let npg := leAt d 8 2
  let lf := leAt d 10 1
  let hg := leAt d 11 1
  leAt d 0 1 = 4 && fl < 8 && fmtFloat (leAt d 2 1) && 6 ≤ kf && kf ≤ 9 && 1 ≤ nq && nq ≤ 64 && 8 ≤ D && D ≤ 128 && D % 8 = 0 &&
    D * (if kf = 6 ∨ kf = 7 then 1 else 2) ≤ 128 && 1 ≤ npg && npg ≤ 64 && 1 ≤ lf && lf ≤ 64 && 1 ≤ hg && hg ≤ 64 && nq % hg = 0 &&
    (bitN fl 1 || leAt d 28 4 = 0) && zerosAt d 40 24

/-- The running values of query vector `i` in the state block of an ATTN at `sa` (Table 15.6). -/
def attnState (lm : List Host.Cell) (sa nq D i : Nat) : Attn :=
  { m := f32 (mreadLe lm (sa + 4 * i) 4), l := f32 (mreadLe lm (sa + 4 * (nq + i)) 4),
    a := (List.range D).map (fun j => f32 (mreadLe lm (sa + 4 * (2 * nq + i * D + j)) 4)) }

/-- Has a query vector seen a position (R382)? Before one m is -infinity and l is 0; a visible position with a score of -infinity leaves a
NaN in l. -/
def Attn.seen (t : Attn) : Bool :=
  match t.m, t.l with
  | .inf true, .fin _ 0 _ => false
  | _, _ => true

/-- The state block of an ATTN and, with `final`, its outputs written. -/
def State.attnPut (c sa da nq D : Nat) (final : Bool) (out : List Attn) (s : State) : State :=
  let zeros : List FV := List.replicate D (.fin false 0 0)
  let s1 := s.lmPut32 c sa (out.map (·.m) ++ out.map (·.l) ++ out.flatMap (fun t => if t.a.isEmpty then zeros else t.a))
  if final then s1.lmPut32 c da (out.flatMap (fun t => t.out D t.seen)) else s1

/-- ATTN: the page loop for NQ query vectors of one KV head (R382, R384); its units are the pages. -/
def execTileAttn (core : Fin 64) (s : State) : Host.Outcome State Fault Refusal :=
  .next (s.tile core.val (· == 0x53) (fun w0 s => s.descOf core.val w0 (fun d =>
    let c := core.val
    let x := s.core c
    let fl := leAt d 1 1
    let qf := leAt d 2 1
    let kf := leAt d 3 1
    let nq := leAt d 4 2
    let D := leAt d 6 2
    let npg := leAt d 8 2
    let lf := leAt d 10 1
    let hg := leAt d 11 1
    let pos0 := leAt d 12 4
    let qa := leAt d 16 4
    let pa := leAt d 20 4
    let sa := leAt d 24 4
    let da := leAt d 28 4
    let e := if kf = 6 ∨ kf = 7 then 1 else 2
    let final := bitN fl 1
    if !attnOk d then .fault ftDesc none
    else match s.lmFault c pa (4 * npg) with
      | some f => .fault f none
      | none => if s.lmBusy c [(pa, 4 * npg)] [] then .stay s else
        let pages := (List.range npg).map (fun i => mreadLe x.lm (pa + 4 * i) 4)
        let stR := (sa, 4 * (2 * nq + nq * D))
        let outR := (da, if final then 4 * nq * D else 0)
        let rds := [(qa, fmtBytes qf (nq * D)), (pa, 4 * npg)] ++ pages.map (fun p => (p, 128 * D * e))
        if rds.any (overlap stR) || rds.any (overlap outR) || overlap stR outR then .fault ftDesc none
        else s.operands c rds [stR, outR] <|
          let qB := s.lmVals c qa qf (nq * D)
          let kv := pages.map (fun p => s.lmVals c p kf (128 * D))
          let vec := fun (lm : List Host.Cell) (pg i : Nat) =>
            let t0 : Attn := if bitN fl 0 ∧ pg = 0 then {} else attnState lm sa nq D i
            let fill := if pg + 1 = npg then lf else 64
            let vis := (List.range fill).filter (fun r => !bitN fl 2 || 64 * pg + r ≤ pos0 + i / hg)
            let b := kv.getD pg []
            t0.page D ((qB.drop (i * D)).take D) (f32 (leAt d 32 4)) (f32 (leAt d 36 4))
              (vis.map (fun r => ((b.drop (r * D)).take D, (b.drop ((64 + r) * D)).take D)))
          let cube := scaleCc (2 * ceilDiv (ceilDiv nq 4 * 16 * npg * ceilDiv D 4) 4) qf kf
          .work npg (cube + 4 * ceilDiv (nq * 64 * npg) 32 + 16) cube (fun pg s => s.attnPut c sa da nq D (final && pg + 1 = npg)
            ((List.range nq).map (vec (s.core c).lm pg))))))

end Sys2Proof.Machine
end

