-- ==== Sys2Proof/Machine/Sync.lean ====
section
/-!
DEFINITION. Sync cells, waits and the deadlock detector (chapter 10, R247, R248, R252): SIG, SWAIT, TWAIT, WAIT, the delivery of a
signal through the sync directory, the compare that reaches a core, and the detector's firing.
-/
namespace Sys2Proof.Machine

/-! ### Compares -/

/-- A compare of core `c` has fired and reached it (R247, R248): an event that no WAIT includes stays pending. -/
def State.coreFired (c late : Nat) (skipped : Bool) (s : State) : State :=
  let x := s.core c
  if x.phase ≠ .running then s
  else match x.wait with
  | none => s.coreEvent c 1
  | some w =>
    if w.op = 0x62 then
      (s.modCore c (fun x => { x with a := tset 0 x.a (fld w.word 24 4) (BitVec.ofNat 64 late) }.wrP
        (fld w.word 12 2) skipped)).waitEnds c
    else s.coreEvent c 1

/-! ### Signals -/

/-- The payload of a SIG frame: core, cell, value (layout: DESIGN CHOICE, log 14). -/
def sigPayload (c cell v : Nat) : List Byte := toLe 1 c ++ toLe 1 cell ++ toLe 2 v

/-- SIG (R262, R269): posted; a speculative job may only signal a context of its own epoch. -/
def execTileSig (core : Fin 64) (s : State) : Host.Outcome State Fault Refusal :=
  .next (s.tile core.val (· == 0x60) (fun w s =>
    let c := core.val
    let v := if bit w 39 then ((s.core c).ar (fld w 12 4)) % 65536 else fld w 64 16
    let cell := fld w 16 5
    let target := fld w 24 6
    let node := fld w 32 6
    let j := s.jobOn c
    let t := (j.map (·.tenant)).getD 0
    let ep := j.bind (·.epoch)
    let remote := bit w 38 && node ≠ s.node
    let sig : Signal := { src := c, core := target, cell := cell, v := v, tenant := t, conf := s.confidential t, epoch := ep,
                          node := if remote then some (BitVec.ofNat 6 node) else none }
    let post : TileRes := .retire { s with sch.signals := s.sch.signals ++ [sig] } none
    match ep with
    | some e =>
      if remote ∨ ((s.sigTarget target t).bind s.job).bind (·.epoch) ≠ some e then .fault ftSpecViolation none else post
    | none => post))

/-- The value added to a kept cell of a saved context: in the slot under the tenant's key (R266), or in the context that the Hoard keeps;
where the slot's write is denied the signal is dropped as UNREACHABLE (R269; DEDUCED, log 64). -/
def State.addSaved (j : Nat) (x : Job) (cell v : Nat) (s : State) : State :=
  let sat := fun (n : Nat) (s : State) => if n > 0xFFFFFFFF then s.errSync 0 else s
  match x.saved.filter (fun k => k.job.isSome) with
  | some k =>
    let n := (tget 0 k.sync cell).toNat + v
    sat n (s.modJob j (fun y => { y with saved := some { k with sync := tset 0 k.sync cell (satN 32 n) } }))
  | none =>
    let a := x.slotAddr + 0x140 + 4 * cell
    match s.saveDeny x.tenant a 4 true with
    | some d => (s.noteDeny d).dropSignal 3
    | none =>
      let n := leNat (s.devRead a 4) + v
      sat n (s.devWrite a (toLe 4 (Nat.min n 0xFFFFFFFF)))

/-- A signal applied to its target on this part (R265-R268, R281), wherever the directory finds the context; `i` its place among those in
flight. Without a target it is UNREACHABLE when the die of the core named is not UP, else it has NO_TARGET; a speculative one finds a target in
its own epoch alone (R269, R399). -/
def State.applySignal (i : Nat) (g : Signal) (s : State) : State :=
  let gone := { s with sch.signals := s.sch.signals.eraseIdx i }
  let onCore := fun (c : Nat) => if s.dieUp (c / 16) then (gone.addCell c g.cell g.v).wake c else gone.dropSignal 3
  let lost := gone.dropSignal (if s.dieUp (g.core / 16) then 1 else 3)
  match s.sigTarget g.core g.tenant with
  | none => lost
  | some j => match s.job j with
    | none => lost
    | some x => if g.epoch.isSome && x.epoch ≠ g.epoch then lost else match x.st with
      | .running c => onCore c
      | .saving c => onCore c
      | .restoring _ => { s with sch.signals := s.sch.signals.set i { g with target := some j } }
      | .saved => if g.cell < 16 then gone.addSaved j x g.cell g.v else gone.dropSignal 2
      | .waiting => lost

/-- Is a signal held because a bridge that it crosses retrains (R29): the sender's, or that of the die its target context is on? -/
def State.sigHeld (s : State) (g : Signal) : Bool :=
  let dst := s.sigDie g
  match g.node with
  | none => dst ≠ some (g.src / 16) && (s.dieHeld (g.src / 16) || dst.any s.dieHeld)
  | some _ => s.dieHeld (g.src / 16)

/-- SIGNAL_DELIVERY: the `k`-th signal in flight reaches its target, after the earlier ones of the same sender and cell (R264); one that a
retraining bridge holds does not arrive yet (R29). -/
def execSignalDelivery (k : Nat) (s : State) : Host.Outcome State Fault Refusal :=
  .next <| match s.sch.signals[k]? with
  | none => s
  | some g =>
    if g.target.isSome ∨ (s.sch.signals.take k).any (fun h => h.target.isNone && h.src == g.src && h.core == g.core && h.cell == g.cell &&
        h.node == g.node) ∨ s.sigHeld g then s
    else match g.node with
    | none => s.applySignal k g
    | some n =>
      let gone := { s with sch.signals := s.sch.signals.eraseIdx k }
      if g.conf ∧ !s.key.rackTrusted then gone.dropSignal 4
      else match gone.sendTo n.toNat 1 g.tenant g.conf (sigPayload g.core g.cell g.v) with
        | some t => t
        | none => gone.dropSignal 3

/-! ### The wait instructions -/

/-- SWAIT (R270): consumes at once, or waits with its deadline (R271). -/
def execTileSwait (core : Fin 64) (s : State) : Host.Outcome State Fault Refusal :=
  .next (s.tile core.val (· == 0x61) (fun w s =>
    let c := core.val
    if fld w 64 16 = 0 then .fault ftEmptyWait none
    else match s.trySwait c w with
      | some t => .retire t none
      | none =>
        let tm : W32 := BitVec.ofNat 32 (fld w 96 32)
        .stay (s.modCore c (fun x => { x with
          wait := some { op := 0x61, word := w, deadline := if tm = 0 then none else some tm } }))))

/-- SWAIT_TIMEOUT: the deadline passes with the condition unmet (R271). With `tie` a signal arrives in the same reference cycle: if it meets
the condition the arrival wins (R277). -/
def execSwaitTimeout (core : Fin 64) (tie : Bool) (s : State) : Host.Outcome State Fault Refusal :=
  .next <|
  let c := core.val
  let x := s.core c
  match x.wait with
  | none => s
  | some w =>
    if w.op ≠ 0x61 ∨ w.deadline = none ∨ x.phase ≠ .running then s
    else if (s.trySwait c w.word).isSome then s.wake c
    else
      let late := (s.modCore c (fun x => x.wrP (fld w.word 12 2) false)).waitEnds c
      if !tie then late
      else match s.sch.signals.findIdx? (fun g => g.target.isNone && g.node == none && s.sigTarget g.core g.tenant == x.job &&
          g.cell == fld w.word 16 5 && !s.sigHeld g) with
        | none => late
        | some i => match s.sch.signals[i]? with
          | none => late
          | some g =>
            let t := s.applySignal i g
            if (t.core c).wait = none then t.tie
            else (t.modCore c (fun x => x.wrP (fld w.word 12 2) false)).waitEnds c

/-- The target of TWAIT and WAIT (R247): modulo the width of the timebase. -/
def State.waitTarget (s : State) (c : Nat) (tb : Timebase) (rel : Bool) (w : W128) (reg : Nat) : Nat :=
  let base := if rel then s.tbFor tb (.core c) else 0
  (base + (s.core c).ar reg + (tImm w).toNat) % 2 ^ tbWidth tb

/-- TWAIT (R247): a compare armed; the wait ends when it fires. -/
def execTileTwait (core : Fin 64) (s : State) : Host.Outcome State Fault Refusal :=
  .next (s.tile core.val (· == 0x62) (fun w s =>
    let c := core.val
    let tb := selTb (fld w 16 2)
    if tb = .mpc ∧ !s.rev2 then .fault ftTbUnsupported none
    else
      let v := s.waitTarget c tb (bit w 18) w (fld w 20 4)
      .stay ((s.arm tb v (.core c)).modCore c (fun x => { x with
        wait := some { op := 0x62, word := w, target := BitVec.ofNat 64 v } }))))

/-- WAIT (R248, R257): retires on a pending event, or on a compare of the die that fires as it is armed (R56); else it waits, and `dozeRc` is
the time it then spends in DOZE. -/
def execTileWait (core : Fin 64) (dozeRc : Nat) (s : State) : Host.Outcome State Fault Refusal :=
  .next (s.tile core.val (· == 0x63) (fun w s =>
    let c := core.val
    let x := s.core c
    let ev := waitEv w
    let tb := selTb (fld w 20 2)
    if ev = 0 then .fault ftEmptyWait none
    else if bit ev 1 ∧ tb = .mpc ∧ !s.rev2 then .fault ftTbUnsupported none
    else if x.events &&& ev ≠ 0 then .retire (s.modCore c (fun x => { x with events := x.events &&& ~~~ ev })) none
    else if bit ev 1 ∧ tb = .sfc ∧ s.reachedNow tb (.core c) (s.waitTarget c tb false w (fld w 24 4)) then .retire s none
    else
      let v := s.waitTarget c tb false w (fld w 24 4)
      let s1 := if bit ev 1 then s.arm tb v (.core c) else s
      .stay (s1.modCore c (fun x => { x with
        wait := some { op := 0x63, word := w, target := if bit ev 1 then BitVec.ofNat 64 v else 0 },
        dozeRc := if x.doze then satAdd x.dozeRc dozeRc else x.dozeRc }))))

/-- COMPARE_WAKE_MESSAGE: a fired CLC or MPC compare reaches its core (R57), once the die's bridge does not hold it (R29). -/
def execCompareWakeMessage (core : Fin 64) (s : State) : Host.Outcome State Fault Refusal :=
  .next <|
  let c := core.val
  match (s.core c).wakeMsg with
  | none => s
  | some m => if s.dieHeld (c / 16) then s else (s.modCore c (fun x => { x with wakeMsg := none })).coreFired c m.1 m.2

/-! ### The deadlock detector -/

/-- DEADLOCK_DETECT: the part has been quiet for DL_WINDOW (R272-R274, R279). `deadlineNear`: a running SWAIT deadline falls within
the horizon; `arrival`: something reaches a core of a candidate die in the firing cycle. -/
def execDeadlockDetect (deadlineNear arrival : Bool) (s : State) : Host.Outcome State Fault Refusal :=
  .next <|
  if !s.sch.dlEn ∨ !s.quiet ∨ deadlineNear then s
  else if arrival then s.tie
  else
    let cs := (List.range 64).filter (fun c => s.dieCandidate (c / 16) && (s.core c).waitsQuietly)
    let s1 := State.trigger s s 3 0 s.sch.dlRack
    let s2 := cs.foldl (fun s c => match (s.core c).job with
      | some j => s.failJob j rsDeadlock [] 6 false
      | none => s) s1
    { s2 with sch.dlLast := BitVec.ofNat 64 (cs.map (fun c => 2 ^ c)).sum, sch.dlCount := satInc s2.sch.dlCount }.errSync 5

/-- A write to SCH_DL_CTRL (R275). -/
def State.writeDlCtrl (v : W32) (s : State) : State :=
  if fld v 8 16 = 0 then s.errSync 6
  else { s with sch.dlEn := bit v 0, sch.dlRack := bit v 1, sch.dlWindow := BitVec.ofNat 16 (fld v 8 16) }

/-- SCH_DL_CTRL_WRITE (R275). -/
def execSchDlCtrlWrite (v : BitVec 32) (s : State) : Host.Outcome State Fault Refusal := .next (s.writeDlCtrl v)

end Sys2Proof.Machine
end

