-- ==== Sys2Proof/Machine/Audio.lean ====
section
/-!
DEFINITION. The audio side of a frame: the SFC increment (R22, R46), the serial ports (R78-R82, R99), the conversion between port
words and stream samples (R86), routes (R87-R89), fallbacks and crossfades (R90-R93), the frame mover (R85), captures in EXCITE
(R415), USB audio (R95-R98), and the USB and SPI command transports (Table 7.1, R171, R559).
-/
namespace Sys2Proof.Machine

/-! ### Port words and stream samples (R86) -/

/-- The word width that WORD selects (Table 4.4). -/
def wordBits (code : Nat) : Nat := if code = 0 then 16 else if code = 1 then 24 else 32

/-- The word width of a routed slot or channel; `input` for a stream input, which USB carries from the host (R95). -/
def State.rtWidth (s : State) (input : Bool) (r : Nat) : Nat :=
  if rtUsb r then (if (if input then s.aud.usbOut else s.aud.usbIn) = 2 then 16 else 24)
  else wordBits (fld (s.port (rtPort r)).ctrl 8 2)

/-- A port word as a stream sample: an INT24 value, or the bits of an FP32 value (R86). -/
def sampleIn (fp32 : Bool) (w : Nat) (x : Int) : Int :=
  if fp32 then Int.ofNat (bits32 (rnd32 (.fin (x < 0) x.natAbs (1 - Int.ofNat w))))
  else if w = 16 then x * 256 else if w = 24 then x else satS 24 (rneDiv x 256)

/-- A stream sample as a port word (R86). -/
def sampleOut (fp32 : Bool) (w : Nat) (v : Int) : Int :=
  if fp32 then
    match f32 (unsgn 32 v) with
    | .nan => 0
    | .inf neg => satS w (if neg then -(2 ^ 40) else 2 ^ 40)
    | .fin neg m e =>
      let u := Int.ofNat (roundUnits 0 0 m (e + Int.ofNat w - 1) 0)
      satS w (if neg then -u else u)
  else
    let x := sgn 24 (unsgn 24 v)
    if w = 16 then satS 16 (rneDiv x 256) else if w = 24 then x else x * 256

/-- A sample of the LM buffers: INT24 sign-extended in 32 bits, or FP32 bits (R86). Of an INT24 word that is not sign-extended the low 24
bits count (DESIGN CHOICE, log 117). -/
def sampleLm (fp32 : Bool) (v : Nat) : Int := if fp32 then Int.ofNat v else sgn 24 v

/-- The rate exceeds 96 kHz (R96). -/
def State.fastRate (s : State) : Bool := s.rateHz > 96000

/-- Does a port pass data: enabled, its clock present and its elastic buffer refilled (R99)? -/
def AudPort.live (p : AudPort) : Bool := bit p.ctrl 0 && !p.lost && !p.refill

/-- Does a USB direction carry data (R98)? -/
def State.usbLive (s : State) (alt : BitVec 2) : Bool := alt ≠ 0 && !s.aud.usbSuspended

/-- The word that a route byte carries in this frame (R87, R98, R99). -/
def State.inWord (s : State) (r : Nat) : Int :=
  let w := s.rtWidth true r
  let raw : W32 :=
    if rtUsb r then (if s.usbLive s.aud.usbOut then ((s.aud.usbOutFifo.headD []).getD (rtChan r) 0) else 0)
    else if (s.port (rtPort r)).live then (s.port (rtPort r)).latched.getD (rtSlot r) 0 else 0
  sgn 32 raw.toNat / Int.ofNat (2 ^ (32 - w))

/-! ### The frames of a stream -/

/-- The block size of a stream. -/
def Stream.b (x : Stream) : Nat := 2 ^ x.bLog2

/-- Does a route switch apply at frame `f`: its value is reached and lies before the stream's close (R89, R93)? -/
def Stream.switches (f : Nat) (x : Stream) (w : RouteSwitch) : Bool := w.at_ ≤ f && x.closeAt.all (fun c => w.at_ < c)

/-- Does a STREAM_CLOSE close stream `h` at frame `f`, whose due value it reaches (R93)? -/
def State.closesAt (s : State) (h f : Nat) : Bool :=
  s.cmds.any (fun c => c.op == 0x0031 && c.phase == .armed && c.p 0 2 == h && c.remote.isNone && (dueIs c.due 0 || dueIs c.due 1) &&
    (dueVal c.due).toNat ≤ f && dueTb c.due == .sfc)

/-- The route switches that frame `f` reaches, in the order of their values, those of one value in the order they were read (R89, R184). -/
def Stream.switchRoute (f : Nat) (x : Stream) : Stream :=
  let x1 := (sortBy (fun a b => a.at_ ≤ b.at_) (x.nextRoutes.filter (x.switches f))).foldl
    (fun x w => { x with inRoute := w.inRoute, outRoute := w.outRoute }) x
  { x1 with nextRoutes := x.nextRoutes.filter (fun w => !x.switches f w) }

/-- An input frame of stream `h` latched at SFC value `f` (R84, R89, R93): the block that it completes waits for the frame mover (R85). At a
value where the stream closes no route switches. -/
def Stream.take (s : State) (f h : Nat) (x : Stream) : Stream :=
  if x.guest.isSome then x else
  let x := if s.closesAt h f then x else x.switchRoute f
  let closed : Bool := match x.closeAt with
    | some c => decide (c ≤ f)
    | none => false
  if f < x.first ∨ closed = true then { x with collect := [] }
  else
    let frame := (x.inRoute.take x.chIn).map (fun r => sampleIn x.fp32 (s.rtWidth true r) (s.inWord r))
    let got := if f % x.b = 0 then [frame] else if x.collect.length = f % x.b then x.collect ++ [frame] else []
    if got.length = x.b then
      { x with collect := [], blocks := x.blocks ++ [{ s := f + 1 - x.b, input := got, route := x.outRoute }] }
    else { x with collect := got }

/-- The hold-and-fade value on the `i`-th frame of a run (R90): `v` is the last driven word at the slot's width, and the quotient is rounded to
nearest even (DESIGN CHOICE, log 61). -/
def holdVal (v : Int) (i : Nat) : Int := if i < 64 then rneDiv (v * Int.ofNat (64 - i)) 64 else 0

/-- The word of a left-justified value at width `w`. -/
def narrow (w : Nat) (v : Int) : Int := v / Int.ofNat (2 ^ (32 - w))

/-- A word of width `w` left-justified in 32 bits (R78). -/
def widen (w : Nat) (v : Int) : Int := v * Int.ofNat (2 ^ (32 - w))

/-- The state of a stream's fallback run at frame `j` of a block whose result is complete (`ok`) or not (R90-R92). -/
def Stream.enter (x : Stream) (ok : Bool) (j : Nat) : Stream :=
  if j ≠ 0 then x
  else if ok then
    (if x.fbRun.isSome && x.xfade.isNone then { x with xfade := some 0 } else x)
  else if x.fbRun.isSome && x.xfade.isNone && !x.fbZero then x
  else { x with fbRun := some 0, fbZero := false, xfade := none, fadeFrom := x.lastOut }

/-- The run and the crossfade one frame on (R91). -/
def Stream.advance (x : Stream) : Stream :=
  match x.xfade with
  | some i => if i ≥ 63 then { x with xfade := none, fbRun := none }
      else { x with xfade := some (i + 1), fbRun := x.fbRun.map (· + 1) }
  | none => { x with fbRun := x.fbRun.map (· + 1) }

/-- The word of output channel `c` on route byte `r` at frame `j` of a block (R90, R91). The crossfade mixes port words at the slot's width, and
its quotient is rounded to nearest even (DESIGN CHOICE, log 61). -/
def State.outWord (s : State) (x : Stream) (o : OutBlock) (j c r : Nat) : Int :=
  let w := s.rtWidth false r
  let p := sampleOut x.fp32 w (nthI (o.frames.getD j []) c)
  let fb :=
    if x.fbZero then 0
    else if x.holdFade then holdVal (narrow w (nthI x.fadeFrom c)) (x.fbRun.getD 0)
    else if c < x.chIn then sampleOut x.fp32 w (nthI (o.dry.getD j []) c) else 0
  match x.xfade, x.fbRun with
  | some i, _ => rneDiv (fb * Int.ofNat (64 - i) + p * Int.ofNat i) 64
  | none, some _ => fb
  | none, none => p

/-- The output of a stream at SFC value `f` as (route byte, left-justified word) pairs, and the stream after it. Frames that no
result block covers after a jump carry free values (log 3). -/
def Stream.drive (s : State) (f : Nat) (x : Stream) : Stream × List (Nat × Int) :=
  if x.guest.isSome then (x, []) else
  let ends : Bool := match x.closeAt with
    | some c => decide (c + 2 * x.b ≤ f)
    | none => false
  let x := if ends && x.ending.isNone then { x with ending := some 0, fadeFrom := x.lastOut } else x
  match x.ending with
  | some i =>
    ({ x with ending := some (i + 1) }, (List.range x.chOut).map (fun c =>
      let r := nthN x.outRoute c
      (r, widen (s.rtWidth false r) (holdVal (narrow (s.rtWidth false r) (nthI x.fadeFrom c)) i))))
  | none =>
    let outs := x.outs.filter (fun o => f < o.at_ + x.b)
    match outs.find? (fun o => o.at_ ≤ f) with
    | none =>
      if f < x.first + 2 * x.b ∨ !x.started then ({ x with outs := outs }, [])
      else ({ x with outs := outs }, (List.range x.chOut).map (fun c => (nthN x.outRoute c,
          sgn 32 (Config.freeWord s.fresh (16 * f + c)).toNat)))
    | some o =>
      let j := f - o.at_
      let x := ({ x with outs := outs }).enter o.ok j
      let ws := (List.range x.chOut).map (fun c =>
        (nthN o.route c, widen (s.rtWidth false (nthN o.route c)) (s.outWord x o j c (nthN o.route c))))
      (({ x with lastOut := ws.map (fun (e : Nat × Int) => e.2) }).advance, ws)

/-- The fading output of closed streams (R93). -/
def Fade.drive (s : State) (x : Fade) : List (Nat × Int) :=
  (List.range x.route.length).map (fun c =>
    let r := nthN x.route c
    (r, widen (s.rtWidth false r) (holdVal (narrow (s.rtWidth false r) (nthI x.words c)) x.idx)))

/-! ### Captures in EXCITE (R415) -/

/-- Is `v` the sample `a` attenuated by `db` decibels, to the nearest units: |v| and |a| × 10^(−db/20) differ by less than 1? -/
def attenOk (db : Nat) (a v : Int) : Bool :=
  (v == 0 || (v < 0) == (a < 0)) && a.natAbs ^ 20 < (v.natAbs + 1) ^ 20 * 10 ^ db && (v.natAbs - 1) ^ 20 * 10 ^ db < a.natAbs ^ 20 + at_ (v == 0) 0

/-- The magnitude of an attenuated sample rounded down, bit by bit from bit `n` − 1. -/
def attenDown (db a : Nat) : Nat → Nat → Nat
  | 0, v => v
  | n + 1, v => attenDown db a n (if (v + 2 ^ n) ^ 20 * 10 ^ db ≤ a ^ 20 then v + 2 ^ n else v)

/-- A sample attenuated (R415): the spec gives no rounding, so that one of the two nearest values is a free choice (log 3). -/
def attenuate (db : Nat) (a : Int) : Int :=
  let v := Config.attenuate db a
  if attenOk db a v then v else (if a < 0 then -1 else 1) * Int.ofNat (attenDown db a.natAbs 24 0)

/-- The generator's sample of frame `t`: the sweep's arithmetic is not given (a free value, log 3), noise takes the top 24 bits
of the generator, the host's signal its INT24 container. -/
def State.capSample (s : State) (k : Capture) : Int × W64 :=
  if k.signal = 0 then (satS 24 (Config.sweepSample k.frame k.length s.rateHz), k.rng)
  else if k.signal = 1 then (sgn 24 ((rngStep k.rng).toNat / 2 ^ 40), rngStep k.rng)
  else (sgn 24 (leNat (s.devRead (k.sigAddr + 4 * k.frame) 4)), k.rng)

/-- The ramps of R91 over the first and the last 64 frames (R415). -/
def rampVal (t n : Nat) (v : Int) : Int :=
  if t < 64 then rneDiv (v * Int.ofNat t) 64
  else if n < t + 64 then rneDiv (v * Int.ofNat (n - t)) 64
  else v

/-- One frame of a capture in EXCITE: the signal at ATTEN on the output slot, the input slot recorded as INT24 (R415). -/
def Capture.excite (s : State) (k : Capture) : Capture × List (Nat × Int) :=
  let wo := s.rtWidth false k.outRoute
  let d := s.capSample k
  let sig := if k.frame < k.length then rampVal k.frame k.length (if k.atten = 0 then d.1 else attenuate k.atten d.1) else 0
  let got := sampleIn false (s.rtWidth true k.inRoute) (s.inWord k.inRoute)
  ({ k with frame := k.frame + 1, rng := if k.frame < k.length then d.2 else k.rng,
            sig := if k.frame < k.length then k.sig ++ [sig] else k.sig,
            rec_ := if k.frame < k.length + 4800 then k.rec_ ++ [got] else k.rec_ },
   [(k.outRoute, widen wo (sampleOut false wo sig))])

/-! ### The frame -/

/-- The last word that a list of drives gives a route byte, as a slot word; zero without a driver (R88). -/
def driven (l : List (Nat × Int)) (r : Nat) : W32 :=
  match l.reverse.find? (fun e => e.1 == r) with
  | some e => BitVec.ofInt 32 e.2
  | none => 0

/-- The frames of slot words that a port receives in a frame period. -/
def framesOf (words : List (List (List W32))) (n : Nat) : List (List W32) := words.getD n []

/-- A port latches a frame (R80): a leader the one it clocks in, a follower the oldest of its elastic buffer, after the `fs` received since
the last edge have gone in. Frames beyond 4 are dropped, the oldest first; an empty buffer repeats the last frame; with the port comes the
number of frames dropped or repeated. Without its clock nothing is latched, and no data pass before a buffer has refilled to 2 frames
(R99). -/
def AudPort.latch (fs : List (List W32)) (p : AudPort) : AudPort × Nat :=
  if !bit p.ctrl 0 ∨ p.lost then (p, 0)
  else if bit p.ctrl 3 then ({ p with latched := fs.headD [] }, 0)
  else
    let q := p.inBuf ++ fs
    if p.refill then ({ p with inBuf := q.drop (q.length - 2) }, 0)
    else match q.drop (q.length - 4) with
      | [] => (p, 1)
      | f :: t => ({ p with latched := f, inBuf := t }, q.length - 4)

/-- The frames that the output side of a follower's buffer drops or repeats when its clock asks for `k` (R80). -/
def AudPort.outSlips (k : Nat) (p : AudPort) : Nat :=
  if !bit p.ctrl 0 ∨ bit p.ctrl 3 ∨ p.lost ∨ p.refill then 0
  else (k - p.outBuf.length) + ((p.outBuf.length - k) + 1 - 4)

/-- The input side of port `n` in a frame. SLIP_CNT and SLIP record the frames dropped or repeated (R80): the two sides of one buffer fill and
drain against each other, so that a slip of both is one (log 112). -/
def State.latchPort (words : List (List (List W32))) (n : Nat) (s : State) : State :=
  let r := (s.port n).latch (framesOf words n)
  let k := Nat.max r.2 ((s.port n).outSlips (framesOf words n).length)
  let s1 := s.modPort n (fun p => { r.1 with slips := satN 8 (p.slips.toNat + k) })
  if k = 0 then s1 else s1.errAud (4 + n)

/-- The output side of a port with the slots that streams drive (R80): a leader sends them; a follower sends one buffered frame for each
frame that its clock asks for (`k`), the last one again when it has none, and drops the oldest beyond 4. While the buffer refills its frames
are discarded; it has refilled once it holds 2 (R99). -/
def AudPort.put (k : Nat) (slots : List W32) (p : AudPort) : AudPort :=
  if bit p.ctrl 3 then { p with drive := slots, sdout := [slots] }
  else if p.refill then { p with drive := [], sdout := [], refill := p.inBuf.length < 2 }
  else
    let sent := p.outBuf.take k
    let last := sent.getLastD p.outLast
    let q := p.outBuf.drop k ++ [slots]
    { p with drive := slots, outLast := last, sdout := sent ++ List.replicate (k - sent.length) last, outBuf := q.drop (q.length - 4) }

/-- Every port drives its slots; a port that is disabled or without a clock sends nothing (R99, R102). -/
def State.drivePorts (words : List (List (List W32))) (l : List (Nat × Int)) (s : State) : State :=
  forN 4 (fun n s => s.modPort n (fun p =>
    if bit p.ctrl 0 && !p.lost then p.put (framesOf words n).length ((List.range (fld p.ctrl 4 4 + 1)).map (fun i => driven l (16 * n + i)))
    else { p with drive := [], sdout := [] })) s

/-- The ports stop driving, as they do outside RUN and DOZE (R101). -/
def State.stopPorts (s : State) : State := forN 4 (fun n s => s.modPort n (fun p => { p with drive := [], sdout := [] })) s

/-- The USB directions at the frame edge (R97, R98): one output frame consumed, one input frame produced; the feedback endpoint holds the
frames per microframe of the rate in the 16.16 format (R95; PRESUMED, log 115). -/
def State.usbFrame (l : List (Nat × Int)) (s : State) : State :=
  let s1 :=
    if s.usbLive s.aud.usbOut then
      (match s.aud.usbOutFifo with
      | [] => s.errAud 13
      | _ :: t => { s with aud.usbOutFifo := t, aud.usbFb := BitVec.ofNat 32 (s.rateHz * 65536 / 8000) })
    else s
  if s1.usbLive s1.aud.usbIn then
    let q := s1.aud.usbInFifo ++ [(List.range 8).map (fun c => driven l (0x80 + c))]
    if q.length > 192 then ({ s1 with aud.usbInFifo := q.drop (q.length - 192) }).errAud 14
    else { s1 with aud.usbInFifo := q }
  else s1

/-- The audio work of the frame that SFC value `f` begins, the ports' input being latched (R85, R88). Before the fade of a closed stream a
slot carries what a stream or a capture drives, so that the fade lasts until the new stream's first output frame at most (R92, R93; DESIGN
CHOICE, log 114). -/
def State.audioFrame (f : Nat) (words : List (List (List W32))) (s : State) : State :=
  let taken : Tbl (Option Stream) := s.streams.map (fun (e : Nat × Option Stream) => (e.1, e.2.map (Stream.take s f e.1)))
  let runs : Tbl (Option (Stream × List (Nat × Int))) :=
    taken.map (fun (e : Nat × Option Stream) => (e.1, e.2.map (Stream.drive s f)))
  let caps : Tbl (Option (Capture × List (Nat × Int))) := s.caps.map (fun (e : Nat × Option Capture) => (e.1, e.2.map (fun k =>
    if k.exciting then Capture.excite s k else (k, []))))
  let outs := s.aud.fades.flatMap (Fade.drive s) ++
    runs.flatMap (fun e => match e.2 with | some r => r.2 | none => []) ++
    caps.flatMap (fun e => match e.2 with | some r => r.2 | none => [])
  let s1 := { s with
    streams := runs.map (fun (e : Nat × Option (Stream × List (Nat × Int))) => (e.1, e.2.map Prod.fst)),
    caps := caps.map (fun (e : Nat × Option (Capture × List (Nat × Int))) => (e.1, e.2.map Prod.fst)),
    aud.fades := (s.aud.fades.map (fun (x : Fade) => { x with idx := x.idx + 1 })).filter (fun x => x.idx < 64),
    fresh := s.fresh + 1 }
  (s1.drivePorts words outs).usbFrame outs

/-- A BEACON_ROOT whose announcement no other root has answered within 200 µs completes: every part has either announcement within
100 µs (R506, R522; DEDUCED, log 49). -/
def State.rootSettle (s : State) : State :=
  match s.slk.rootCmd with
  | none => s
  | some r =>
    if (s.tb.sfc - r.2).toNat * 5000 < s.rateHz then s
    else
      let s1 := { s with slk.rootCmd := none }
      match s1.cmd r.1 with
      | some c => s1.served c []
      | none => s1

/-- The ports and the frame mover run in RUN and DOZE (R101), and the USB audio FIFOs with them (DEDUCED, log 125). -/
def State.frameWork (f : Nat) (words : List (List (List W32))) (s : State) : State :=
  if s.pmu.dev = .run ∨ s.pmu.dev = .doze then (forN 4 (State.latchPort words) s).audioFrame f words else s.stopPorts

/-- The beacon root sends a frame marker each frame and its full SFC value every 1,024 frames (R62). -/
def State.beaconOut (s : State) : State :=
  if s.slk.root then
    let s1 := s.sendMarker s.node
    if s.tb.sfc.toNat % 1024 = 0 then s1.sendFull s.node s.tb.sfc else s1
  else s

/-- SFC_TICK (R10, R22, R46): the SFC and the copies of the dies that receive the increment advance, compares are tested, and in RUN and
DOZE the audio of the new frame is latched and driven (R101). `words` are the frames of slot words that each port has received since the
last frame, `lost` the dies that miss the increment. A die whose copy is about to be reloaded takes no increment: its compares are tested
on the reloaded value, once (R43). -/
def execSfcTick (words : List (List (List (BitVec 32)))) (lost : BitVec 4) (s : State) :
    Host.Outcome State Fault Refusal :=
  .next <|
  if !s.tb.sfcRunning ∨ s.tb.beaconPending.isSome then s
  else
    let v := s.tb.sfc + 1
    let s1 := forN 4 (fun d s => if s.dieUp d && !bit lost d && (s.die d).checkVal.isNone then s.modDie d
      (fun x => { x with sfcCopy := x.sfcCopy + 1 }) else s)
      { s with tb.sfc := v }
    ((s1.mark .sfc true false).beaconOut.frameWork v.toNat words).rootSettle.tellQuiet

/-! ### The frame mover (R85) -/

/-- The bytes of a block in LM: frame-major, one 32-bit word per sample. -/
def blockBytes (frames : List (List Int)) : List Byte := frames.flatMap (fun fr => fr.flatMap (fun v => toLe 4 (unsgn 32 v)))

/-- The job of block `b` of stream `h`, whose input enters the LM buffer of its home core, which gets the frame event (R85, R213, R236, R248).
While the stream is in the fallback of R102 or R223 there is none. -/
def State.blockJob (h b : Nat) (x : Stream) (data : List Byte) (s : State) : State :=
  let c := x.homeOf b
  if x.lostFor b ∨ !s.dieUp (c / 16) then s
  else
    let bufs := x.bufsOf b
    let j := s.sch.nextJob
    let s1 := ((s.modCore c (fun k => { k with lm := mwrite k.lm bufs.1 data })).modStream h (fun x => { x with
      blocks := replaceFirst (fun k => k.s == b) (fun k => { k with job := some j }) x.blocks })).newJob
        { kind := .block h b, tenant := x.tenant, cls := .realtime, elig := 0, image := x.image, entry := x.entry,
          args := [BitVec.ofNat 64 bufs.1, BitVec.ofNat 64 bufs.2, BitVec.ofNat 64 x.stateAddr, BitVec.ofNat 64 b,
            BitVec.ofNat 64 x.b, BitVec.ofNat 64 (match x.guest with | some g => g.handle | none => h)] }
    let s2 := if s1.clsOn c = some .realtime then s1.coreEvent c 2 else s1
    if s2.clsOn c = some .background ∨ s2.clsOn c = some .interactive then s2.preempt c else s2

/-- Does a block wait for the state of the one before it: the first that a migration moves, while a block of the source is outstanding, or any
while another part still holds the state (R221, R364)? -/
def Stream.awaitsState (x : Stream) (b : Nat) : Bool :=
  x.stateFrom.isSome || ((x.moves b).isSome && x.blocks.any (fun k => k.s < b && (x.moves k.s).isNone))

/-- BLOCK_DELIVERY (R85, R213, R221): the oldest undelivered block goes to its home core as a job; a block homed on another part goes over
Shusor (R222). While the bridge of the home die retrains the delivery is held (R29). -/
def execBlockDelivery (h : Fin 256) (s : State) : Host.Outcome State Fault Refusal :=
  .next <| match s.stream h.val with
  | none => s
  | some x =>
    match x.blocks.find? (fun b => !b.delivered) with
    | none => s
    | some b =>
      if (x.guest.isNone ∧ s.tb.sfc.toNat < b.s + x.b) ∨ !x.started ∨ x.awaitsState b.s ∨
          ((x.nodeOf b.s).isNone ∧ s.dieHeld (x.homeOf b.s / 16)) then s
      else
        let data := if x.guest.isSome then b.data else blockBytes b.input
        let s1 := s.modStream h.val (fun x => { x with
          blocks := replaceFirst (fun c => c.s == b.s) (fun c => { c with delivered := true, throttled := s.pmu.throttle }) x.blocks })
        match x.nodeOf b.s with
        | some n => if x.lostFor b.s then s1 else s1.tellStream n x.tenant 3 h.val b.s data
        | none => s1.blockJob h.val b.s x data

/-- The outcome of the command that closes or migrates a stream (R94); without a fallback an AT command that was late is SERVED_LATE
(Table 3.4; DEDUCED, log 113). -/
def Stream.report (x : Stream) (c : Cmd) : Done :=
  if x.fbBlocks = 0 then { oc := if c.late ≠ 0 then ocLate else ocServed, late := c.late, skipped := c.skipped }
  else { oc := ocFallback, rs := x.lastReason.toNat, late := x.fbFrames }

/-- The first destination block `b` of a migration has completed: the command completes, once (R221). -/
def State.migrPost (h b : Nat) (s : State) : State :=
  match (s.stream h).bind (fun x => (x.moves b).map (fun m => (x, m))) with
  | none => s
  | some (x, m) =>
    if m.posted then s
    else
      let s1 := s.modStream h (fun x => { x with migr := some { m with posted := true } })
      match s1.cmd m.cmd with
      | some c => s1.finish c (x.report c)
      | none => s1

/-- The fetch point of the first destination block `b` of a migration (R221): the command completes if that block fell back, the source
reservation is released, on another part too, and later blocks cost the density without the transfer allowance. -/
def State.migrEnds (h b : Nat) (s : State) : State :=
  let s1 := s.migrPost h b
  match (s1.stream h).bind (fun x => (x.moves b).map (fun m => (x, m))) with
  | none => s1
  | some (y, m) =>
    let s2 := match y.remote with
      | some n => if m.node = some n then s1 else s1.tellStream n y.tenant 6 h 0 []
      | none => s1
    s2.modStream h (fun x => { x with
      migr := none, dieFb := m.lost, core := m.dest, remote := m.node, inBuf := m.inBuf, outBuf := m.outBuf, fmax := m.fmax,
      density := if m.node.isSome then 0 else m.densityAfter })

/-- The bytes of a recurrent-state record: LENGTH of the record, or 64 (R220, R358, R362). -/
def State.recordLen (s : State) (a : Nat) : Nat := Nat.max 64 (leNat (s.devRead (a + 20) 4))

/-- The recurrent state of a stream as its memory holds it. -/
def State.record (s : State) (x : Stream) : List Byte := s.devRead x.stateAddr (s.recordLen x.stateAddr)

/-- The state export of R221 after the last source block: from this part's memory to the destination's part, or asked of the part that has
processed the stream. On one part both use the same record. -/
def State.exportState (h b : Nat) (s : State) : State :=
  match s.stream h with
  | none => s
  | some x => match x.migr with
    | none => s
    | some m =>
      if b + x.b ≠ m.switch_ ∨ !m.admitted then s
      else match x.remote, m.node with
        | some n, _ => match s.sendStream n x.tenant 6 h 1 [] with
          | some t => t.modStream h (fun x => { x with stateFrom := some n })
          | none => s
        | none, some n => s.tellStream n x.tenant 5 h 0 (s.record x)
        | none, none => s

/-- Frames before s + 2B at which the fetch point lies: 8 µs. -/
def State.fetchLead (s : State) : Nat := ceilDiv (8 * s.rateHz) 1000000

/-- The frames of a fetched result (R85). -/
def resultFrames (x : Stream) (bs : List Byte) : List (List Int) :=
  (List.range x.b).map (fun i => (List.range x.chOut).map (fun k => sampleLm x.fp32 (leAt bs (4 * (i * x.chOut + k)) 4)))

/-- A block of a stream of another part is over here: later ones cost the density without the transfer allowance (R221). -/
def State.guestBlockEnds (h b : Nat) (s : State) : State :=
  s.modStream h (fun x => { x with
    blocks := x.blocks.filter (fun k => k.s ≠ b), density := x.guest.elim x.density (·.after),
    guest := x.guest.map (fun g => { g with xfer := 0 }) })

/-- The next state of an outcome, or the state itself. -/
def State.after (o : Host.Outcome State Fault Refusal) (s : State) : State :=
  match o with
  | .next t => t
  | _ => s

/-- The core goes on to the next pre-emption point inside the long instruction at its PC (R251, R258). -/
def State.toPoint (c : Fin 64) (s : State) : State :=
  if (s.core c.val).phase ≠ .running then s
  else
    let u := s.modCore c.val (fun x => { x with phase := .saving })
    match u.fetch c.val with
    | .word w =>
      let o := tOp w
      if o = 0x30 then u.after (execTileMma c u)
      else if o = 0x40 then u.after (execTileVop c u)
      else if o = 0x41 then u.after (execTileVpwl c u)
      else if o = 0x42 then u.after (execTileVcvt c u)
      else if o = 0x43 then u.after (execTileVred c u)
      else if o = 0x50 then u.after (execTileEpi c u)
      else if o = 0x51 then u.after (execTileWin c u)
      else if o = 0x52 then u.after (execTileRstep c u)
      else if o = 0x53 then u.after (execTileAttn c u)
      else s
    | _ => s

/-- A block's job stops at the next pre-emption point, where the core is inside a long instruction, or at the instruction boundary, and
nothing of the instruction's remaining work is performed (R204, R258). -/
def State.stopBlock (j : Nat) (inside : Bool) (s : State) : State :=
  let s1 := match inside, (s.job j).map (·.st) with
    | true, some (.running c) => s.toPoint (Fin.ofNat 64 c)
    | _, _ => s
  s1.endJob j true

/-- FETCH_POINT (R85, R90, R94, R104, R204, R221, R258): the oldest block's result is fetched, or the block falls back and its job stops; of a stream of another part only the job stops. A block that an SFC jump has skipped leaves uncounted. A result in LM behind a bridge
that retrains is not there to fetch (R29; DEDUCED, log 118). A block of a die that tripped does not fall back for the throttle (R139; log
119). -/
def execFetchPoint (h : Fin 256) (tie inside : Bool) (s : State) : Host.Outcome State Fault Refusal :=
  .next <| match s.stream h.val with
  | none => s
  | some x =>
    match x.blocks.head? with
    | none => s
    | some b =>
      let now := s.tb.sfc.toNat
      let at_ := b.s + 2 * x.b
      let s0 := match b.job with
        | some j => if b.done then s else s.stopBlock j inside
        | none => s
      let rest := x.blocks.drop 1
      if now + s.fetchLead < at_ then s
      else if x.guest.isSome then s0.guestBlockEnds h.val b.s
      else if at_ ≤ now then ((s0.modStream h.val (fun x => { x with blocks := rest })).exportState h.val b.s).migrEnds h.val b.s
      else
        let c := x.homeOf b.s
        let bufs := x.bufsOf b.s
        let n := x.b * x.chOut * 4
        let raw := match x.nodeOf b.s with
          | some _ => if x.lostFor b.s then none else b.result
          | none => if b.done && !x.lostFor b.s && s.dieUp (c / 16) then some (mreadN (s.core c).lm bufs.2 n) else none
        let s1 := match raw with
          | some bs =>
            let s1 := if tie then s.tie else s
            s1.modStream h.val (fun x => { x with
              blocks := rest,
              outs := x.outs ++ [OutBlock.mk at_ true (resultFrames x bs) b.input b.route] })
          | none =>
            (s0.modStream h.val (fun x => { x with
              blocks := rest,
              outs := x.outs ++ [OutBlock.mk at_ false [] b.input b.route],
              fbBlocks := satInc x.fbBlocks, fbFrames := x.fbFrames + x.b,
              lastReason := BitVec.ofNat 16 (if b.throttled ∧ !(s.die (c / 16)).tripped then rsSupplyThrottle else rsOverrun) })).errAud 12
        (s1.exportState h.val b.s).migrEnds h.val b.s

/-! ### The start and the end of a stream -/

/-- Was the first frame of the stream held: its input is being collected, or its first block is complete? -/
def Stream.begun (x : Stream) (now : Nat) : Bool :=
  x.first ≤ now && now < x.first + x.b && (x.collect.length == now + 1 - x.first || x.blocks.any (fun b => b.s == x.first))

/-- STREAM_CLOSE_BOUNDARY (R93, R94, R107): from c + 2B the stream's slots fade and are free, and the close completes; a pending
migration ends with the same result. -/
def execStreamCloseBoundary (h : Fin 256) (s : State) : Host.Outcome State Fault Refusal :=
  .next <| match s.stream h.val with
  | none => s
  | some x => match x.closeAt with
    | none => s
    | some c =>
      if s.tb.sfc.toNat < c + 2 * x.b ∨ !x.blocks.isEmpty then s
      else
        let fade : Fade := match x.ending with
          | some i => { route := x.outRoute.take x.chOut, words := x.fadeFrom, idx := i }
          | none => { route := x.outRoute.take x.chOut, words := x.lastOut, idx := 0 }
        let s1 := { s with streams := tset none s.streams h.val none,
                           aud.fades := if fade.idx < 64 then s.aud.fades ++ [fade] else s.aud.fades }
        let away := x.remote.toList ++ (x.migr.bind (·.node)).toList
        let s1 := away.foldl (fun s n => s.tellStream n x.tenant 6 h.val 0 []) s1
        let s2 := match (x.migr.map (·.cmd)).bind s1.cmd with
          | some m => s1.finish m (x.report m)
          | none => s1
        match x.closeCmd.bind s2.cmd with
        | some m => s2.finish m (x.report m)
        | none => s2

/-! ### Port and clock control -/

/-- The most slots a port may have at the rate (Table 4.1). -/
def State.maxSlots (s : State) : Nat := if s.rateHz ≤ 48000 then 16 else if s.rateHz ≤ 96000 then 8 else 4

/-- The route bytes that a stream holds: inputs and outputs, those of a pending switch and of blocks in flight (R88, R89). -/
def Stream.inUse (x : Stream) : List Nat :=
  x.inRoute.take x.chIn ++ x.nextRoutes.flatMap (fun w => w.inRoute.take x.chIn)

/-- The output route bytes that a stream drives (R88): none from c + 2B on (R93). -/
def Stream.outUse (x : Stream) : List Nat :=
  if x.ending.isSome then [] else
  x.outRoute.take x.chOut ++ x.nextRoutes.flatMap (fun w => w.outRoute.take x.chOut) ++
  x.blocks.flatMap (fun b => b.route.take x.chOut) ++ x.outs.flatMap (fun o => o.route.take x.chOut)

/-- Does a stream route a slot of port `n`, or a capture in EXCITE use one (R81)? -/
def State.portUsed (s : State) (n : Nat) : Bool :=
  s.streams.any (fun e => match e.2 with
    | some x => (x.inUse ++ x.outUse).any (fun r => !rtUsb r && rtPort r == n)
    | none => false) ||
  s.caps.any (fun e => match e.2 with
    | some k => k.exciting && (rtPort k.outRoute == n || rtPort k.inRoute == n)
    | none => false)

/-- The captures in EXCITE that pass the test end without a return (R425). -/
def State.exciteFail (p : Capture → Bool) (s : State) : State :=
  (s.caps.filterMap (fun e => e.2.bind (fun k => if k.exciting && p k then some e.1 else none))).foldl
    (fun s k => s.capEnd k (fun _ => { oc := ocFailed, rs := rsCaptureNoReturn })) s

/-- A write to AUD_SPn_CTRL (R78, R79, R81): ignored with CTRL_REJECT beyond Table 4.1, for a reserved encoding, for I2S with other than 2
slots (R78 supports no such port; DESIGN CHOICE, log 130), or for a change of another field than EN while the port is in use. EN cleared ends an EXCITE that uses the port (R425). EN rising starts
the elastic buffer half full of zero frames (log 112) and shows the clock present until it is seen to stop (R99; log 68). -/
def State.writeSpCtrl (n : Nat) (v : W32) (s : State) : State :=
  let v := v &&& 0xFFF
  let slots := fld v 4 4 + 1
  let old := (s.port n).ctrl
  if slots > s.maxSlots ∨ fld v 1 2 ≥ 2 ∨ fld v 8 2 = 3 ∨ (fld v 1 2 = 0 ∧ slots ≠ 2) ∨
      (v.toNat / 2 ≠ old.toNat / 2 ∧ s.portUsed n) then s.errAud 15
  else (if bit v 0 then s else s.exciteFail (fun k => rtPort k.outRoute == n || rtPort k.inRoute == n)).modPort n (fun p => { p with
    ctrl := v, clkOk := bit v 0 && !(p.lost && !bit v 3), lost := p.lost && !bit v 3, refill := p.refill && !bit v 3,
    inBuf := if bit v 0 && !bit old 0 then [[], []] else p.inBuf, outBuf := if bit v 0 && !bit old 0 then [[], []] else p.outBuf })

/-- AUD_SP_CTRL_WRITE (R81). -/
def execAudSpCtrlWrite (n : Fin 4) (v : BitVec 32) (s : State) : Host.Outcome State Fault Refusal := .next (s.writeSpCtrl n.val v)

/-- The MCLK ratio of a RATIO code (Table 4.5). -/
def mclkRatio (code : Nat) : Nat := 128 * 2 ^ code

/-- The RATIO code used for a code: the largest legal ratio, at most 49.152 MHz, that is not above it (R82). -/
def State.mclkCode (s : State) (code : Nat) : Nat :=
  if mclkRatio code * s.rateHz ≤ 49152000 then code else if 1 ≤ code ∧ mclkRatio 1 * s.rateHz ≤ 49152000 then 1 else 0

/-- MCLK_OUT runs at the ratio in use times the rate while it is enabled (R82). -/
def State.mclkRun (s : State) : State :=
  { s with aud.mclkHz := if bit s.aud.mclk 0 then mclkRatio (s.mclkCode (fld s.aud.mclk 1 2)) * s.rateHz else 0 }

/-- A write to AUD_MCLK_CTRL (R82): a ratio above 49.152 MHz is clamped to the largest legal one with CTRL_REJECT; a write of the reserved
code is ignored whole with CTRL_REJECT (DESIGN CHOICE, log 116). -/
def State.writeMclk (v : W32) (s : State) : State :=
  let code := fld v 1 2
  if code = 3 then s.errAud 15
  else
    let s1 := ({ s with aud.mclk := BitVec.ofNat 32 (at_ (bit v 0) 0 + 2 * s.mclkCode code) }).mclkRun
    if s.mclkCode code = code then s1 else s1.errAud 15

/-- AUD_MCLK_CTRL_WRITE (R82). -/
def execAudMclkCtrlWrite (v : BitVec 32) (s : State) : Host.Outcome State Fault Refusal := .next (s.writeMclk v)

/-- PORT_CLK_LOSS (R99, R425): a follower's clock has stopped for 4 frames; an EXCITE that records from the port ends. -/
def execPortClkLoss (n : Fin 4) (s : State) : Host.Outcome State Fault Refusal :=
  if bit (s.port n.val).ctrl 0 && !bit (s.port n.val).ctrl 3 then
    .next (((s.exciteFail (fun k => rtPort k.inRoute == n.val)).modPort n.val (fun p => { p with
      clkOk := false, lost := true, refill := false })).errAud n.val)
  else .next s

/-- PORT_CLK_RETURN (R99): the elastic buffer, empty, refills to 2 frames before data pass again. -/
def execPortClkReturn (n : Fin 4) (s : State) : Host.Outcome State Fault Refusal :=
  .next (s.modPort n.val (fun p => if p.lost then { p with clkOk := true, lost := false, refill := true, inBuf := [], outBuf := [[], []] } else p))

/-! ### USB audio (R95-R98) -/

/-- USB_SET_CUR (R95, R96): stalled when it names another frequency than the only one of the clock source, which the reply reports (log
115). -/
def execUsbSetCur (hz : Nat) (s : State) : Host.Outcome State Fault Refusal :=
  .next { s with aud.usbStall := hz ≠ s.rateHz, reply := toLe 4 s.rateHz }

/-- USB_SET_INTERFACE (R95, R96): settings 0 to 2 exist, and only setting 0 above 96 kHz. -/
def execUsbSetInterface (input : Bool) (alt : BitVec 2) (s : State) : Host.Outcome State Fault Refusal :=
  .next <|
  if alt = 3 ∨ (alt ≠ 0 ∧ s.fastRate = true) then { s with aud.usbStall := true }
  else if input then { s with aud.usbStall := false, aud.usbIn := alt }
  else { s with aud.usbStall := false, aud.usbOut := alt }

/-- The 8 words of a USB frame at the width of the setting, left-justified. -/
def usbWords (alt : BitVec 2) (f : List W32) : List W32 :=
  (List.range 8).map (fun c => (f.getD c 0) &&& (if alt = 2 then 0xFFFF0000 else 0xFFFFFF00))

/-- USB_ISO_OUT (R97): the frames enter the output FIFO; those beyond its 192 frames are dropped (DESIGN CHOICE, log 25). -/
def execUsbIsoOut (frames : List (List (BitVec 32))) (s : State) : Host.Outcome State Fault Refusal :=
  if s.usbLive s.aud.usbOut then
    .next { s with aud.usbOutFifo := (s.aud.usbOutFifo ++ frames.map (usbWords s.aud.usbOut)).take 192 }
  else .next s

/-- USB_ISO_IN (R97): the host takes up to `n` frames from the input FIFO. -/
def execUsbIsoIn (n : Nat) (s : State) : Host.Outcome State Fault Refusal :=
  if s.usbLive s.aud.usbIn then
    .next { s with aud.usbInFifo := s.aud.usbInFifo.drop n,
                   reply := (s.aud.usbInFifo.take n).flatMap (fun f => (usbWords s.aud.usbIn f).flatMap (fun w =>
                     if s.aud.usbIn = 2 then toLe 2 (w.toNat / 65536) else toLe 4 w.toNat)) }
  else .next s

/-- USB_SUSPEND (R98). -/
def execUsbSuspend (s : State) : Host.Outcome State Fault Refusal := .next { s with aud.usbSuspended := true }

/-- USB_RESUME (R118): wake source 9. -/
def execUsbResume (s : State) : Host.Outcome State Fault Refusal := .next ({ s with aud.usbSuspended := false }.wakeFire 9)

/-! ### The USB and SPI command transports (Table 7.1, R171, R559) -/

/-- Free slots of a command ring (R166). -/
def Ring.free (r : Ring) : Nat :=
  let z := ringSize r.sqCfg
  z - 1 - (r.sqTail.toNat + z - r.sqHead.toNat) % z

/-- Unread completion entries of a ring. -/
def Ring.unread (r : Ring) : Nat :=
  let z := ringSize r.cqCfg
  (r.cqTail.toNat + z - r.cqHead.toNat) % z

/-- 64-byte packets appended to a command ring in system SRAM, with the implied doorbell (R172). -/
def State.append (n : Nat) (bytes : List Byte) (s : State) : State :=
  (forN (bytes.length / 64) (fun i s =>
    let r := s.ring n
    (s.ringStore n (bit r.sqCfg 1) (r.sqBase.toNat + 64 * r.sqTail.toNat) (slice bytes (64 * i) 64)).modRing n (fun r =>
      { r with sqTail := BitVec.ofNat 12 ((r.sqTail.toNat + 1) % ringSize r.sqCfg) })) s).wakeFire 8

/-- Does a transport's command ring take `n` bytes: enabled, in system SRAM, with the space? -/
def Ring.takes (r : Ring) (n : Nat) : Bool := bit r.sqCfg 0 && bit r.sqCfg 1 && n / 64 ≤ r.free

/-- The next entry of a completion ring for a transport, its HEAD advanced and held entries written (R169). -/
def State.popEntry (n : Nat) (s : State) : Option (List Byte × State) :=
  let r := s.ring n
  if bit r.cqCfg 0 && bit r.cqCfg 1 && r.unread ≠ 0 then
    some (mreadN s.mem (r.cqBase.toNat + 32 * r.cqHead.toNat) 32,
      (s.modRing n (fun r => { r with cqHead := BitVec.ofNat 12 ((r.cqHead.toNat + 1) % ringSize r.cqCfg) })).releaseHeld n 4096)
  else none

/-- Does the boot ROM load the image over the SPI host port (`spi`) or over USB (R189, R190, Table 2.5)? -/
def State.loadsOver (s : State) (spi : Bool) : Bool :=
  s.glb.stage == 1 && s.glb.mgrRunning && (if spi then s.glb.bootMode == 4 else s.glb.bootMode == 3 || (s.glb.bootMode == 1 && s.glb.source == 1))

/-- Bytes of a firmware image that the boot ROM places in system SRAM behind those before them (R189). -/
def State.bootBytes (bytes : List Byte) (s : State) : State :=
  { s.poke s.glb.loaded (bytes.take (0x400000 - s.glb.loaded)) with glb.loaded := Nat.min 0x400000 (s.glb.loaded + bytes.length) }

/-- USB_BULK_OUT (R171, R189): a transfer of the image while the boot ROM loads over USB; else a whole number of packets is appended, or
NAKed for lack of space; a transfer that is no whole number of packets is not one of Table 7.1 and is NAKed (DESIGN CHOICE, log 25). -/
def execUsbBulkOut (bytes : List (BitVec 8)) (s : State) : Host.Outcome State Fault Refusal :=
  let n := fld s.gcp.usbCfg 0 6
  if s.loadsOver false then .next (({ s with gcp.usbNak := false } : State).bootBytes bytes)
  else if bytes.length % 64 = 0 ∧ (s.ring n).takes bytes.length then .next ({ s with gcp.usbNak := false }.append n bytes)
  else .next { s with gcp.usbNak := true }

/-- USB_BULK_IN (Table 7.1): up to `n` valid entries are returned. -/
def execUsbBulkIn (n : Nat) (s : State) : Host.Outcome State Fault Refusal :=
  let cq := fld s.gcp.usbCfg 8 6
  .next (forN (Nat.min n 4096) (fun _ s => match s.popEntry cq with
    | some (bs, t) => { t with reply := t.reply ++ bs }
    | none => s) { s with reply := [] })

/-- SPI_FRAME_WRITE (R171, R189): bytes of the image while the boot ROM loads over SPI; else appended, or ignored with SQ_BAD_TAIL. -/
def execSpiFrameWrite (bytes : List (BitVec 8)) (s : State) : Host.Outcome State Fault Refusal :=
  let n := fld s.gcp.spiCfg 0 6
  if s.loadsOver true then .next (s.bootBytes bytes)
  else if bytes.length % 64 = 0 ∧ (s.ring n).takes bytes.length then .next (s.append n bytes) else .next (s.errRing n 0)

/-- SPI_FRAME_READ (Table 7.1): the next entry, or 32 zero bytes. -/
def execSpiFrameRead (s : State) : Host.Outcome State Fault Refusal :=
  .next <| match s.popEntry (fld s.gcp.spiCfg 8 6) with
  | some (bs, t) => { t with reply := bs }
  | none => { s with reply := List.replicate 32 0 }

/-- SPI_FRAME_STATUS (R171). -/
def execSpiFrameStatus (s : State) : Host.Outcome State Fault Refusal :=
  let q := s.ring (fld s.gcp.spiCfg 0 6)
  let c := s.ring (fld s.gcp.spiCfg 8 6)
  .next { s with reply := [BitVec.ofNat 8 (at_ (bit q.sqCfg 0 && q.free ≠ 0) 0 + at_ (bit c.cqCfg 0 && c.unread ≠ 0) 1)] }

/-- SPI_FRAME_OTHER (R559): ignored. -/
def execSpiFrameOther (_op : BitVec 8) (s : State) : Host.Outcome State Fault Refusal := .next s

/-- SPI_CS_ASSERT (R118): wake source 11. -/
def execSpiCsAssert (s : State) : Host.Outcome State Fault Refusal := .next (s.wakeFire 11)

end Sys2Proof.Machine
end

