-- ==== Sys2Proof/Machine/Work.lean ====
section
/-!
DEFINITION. Stopping work that is under way: what a command leaves when it ends unserved (R179, R186, R223, R422, R464, R482), a
lost or unreachable destination (R223, R502), a die that leaves (R29, R102, R123, R231), and the state that a link change
spreads (R506, R510).
-/
namespace Sys2Proof.Machine

/-! ### Commands that end unserved -/

/-- The bytes that an intake command writes (Table 19.1): OUT, MARKS, REPORT. -/
def Cmd.intakeOut (c : Cmd) : List (Nat × Nat) :=
  let rows := c.p 6 2
  let audio : Bool := c.p 1 1 == 0
  let elems := rows * (if audio then c.p 40 4 else c.p 44 2 * c.p 46 2) * c.p 48 1
  let marks := if c.p 0 1 = 0 then 2 * rows * c.p 40 4 else if audio then 4 * rows else 0
  [(c.p 16 8, fmtBytes (c.p 3 1) elems), (c.p 24 8, marks)] ++ (if c.p 32 8 = 0 then [] else [(c.p 32 8, 16 * c.p 4 2)])

/-- What a running command that ends unserved leaves undefined in memory: an operator's outputs (R315), an intake command's OUT and MARKS
(R461). -/
def State.outUndefined (c : Cmd) (s : State) : State :=
  if c.op = 0x00B0 ∧ c.phase = .running then (c.intakeOut.take 2).foldl (fun s r => s.undefine c.tenant r) s else s.opUndefined c

/-- Does intake command `a` come before `b` (R208, R460)? -/
def intakeBefore (a b : Intake) : Bool := clsNum a.cls < clsNum b.cls || (a.cls = b.cls && a.elig < b.elig)

/-- The command that the engine takes next. -/
def nextIntake : List Intake → Option Intake
  | [] => none
  | a :: t => match nextIntake t with
    | none => some a
    | some b => if intakeBefore b a then some b else some a

/-- An idle engine takes its next command, which keeps the windows it then finds (R460, R466). -/
def State.intakeNext (s : State) : State :=
  match s.itk.run, nextIntake s.itk.waiting with
  | none, some r =>
    let ws := match s.cmd r.cmd with
      | some c => s.windowsOf c.tenant
      | none => []
    { s with itk.run := some (if r.started then r else { r with started := true, windows := ws }),
             itk.waiting := s.itk.waiting.filter (fun x => x.cmd ≠ r.cmd) }
  | _, _ => s

/-- The pending migration of stream `h` is given up; another part that holds its destination hears of it (R220). -/
def State.dropMigr (h : Nat) (s : State) : State :=
  match s.stream h with
  | none => s
  | some x => match x.migr with
    | none => s
    | some m =>
      let s1 := s.modStream h (fun x => { x with migr := none })
      match m.node with
      | some n => s1.tellStream n x.tenant 6 h 0 []
      | none => s1

/-- A stream of another part leaves this one, with the jobs of its blocks (R222). -/
def State.dropGuest (h : Nat) (s : State) : State :=
  match s.stream h with
  | none => s
  | some x =>
    let s1 := (x.blocks.filterMap (fun b => b.job)).foldl (fun s j => s.endJob j true) s
    { s1 with streams := tset none s1.streams h none }

/-- The state that a command holds outside its jobs, released when it stops (R179, R186): an unstarted stream, an unreached close or
route switch, an unfinished migration, its place in an engine. A walk goes on (R482). -/
def State.releaseCmd (c : Cmd) (s : State) : State :=
  let streams := fun (f : Stream → Option Stream) (s : State) =>
    { s with streams := (s.streams.map (fun (e : Nat × Option Stream) => (e.1, e.2.bind f))).filter (fun e => e.2.isSome) }
  if c.op = 0x0030 then streams (fun x => if x.openCmd = some c.id then none else some x) s
  else if c.op = 0x0031 then
    streams (fun x => some (if x.closeCmd = some c.id ∧ x.ending.isNone then
      { x with closeCmd := none, closeAt := if x.closeAt.getD 0 ≤ s.tb.sfc.toNat then x.closeAt else none }
      else if x.closeCmd = some c.id then { x with closeCmd := none } else x)) s
  else if c.op = 0x0032 then
    (s.streams.filter (fun e => e.2.any (fun x => x.migr.any (fun m => m.cmd == c.id)))).foldl (fun s e => s.dropMigr e.1) s
  else if c.op = 0x0033 then s.modStream (c.p 0 2) (fun x => { x with nextRoutes := x.nextRoutes.filter (fun w => w.cmd ≠ c.id) })
  else if c.op = 0x00B0 then
    if s.itk.run.any (fun r => r.cmd == c.id) || s.itk.waiting.any (fun r => r.cmd == c.id) then
      ((c.intakeOut.take 2).foldl (fun (s : State) r => s.undefine c.tenant r) ({ s with
        itk.run := s.itk.run.filter (fun r => r.cmd ≠ c.id), itk.waiting := s.itk.waiting.filter (fun r => r.cmd ≠ c.id) } : State)).intakeNext
    else s
  else if c.op = 0x00C0 then
    let gone := s.caps.filter (fun (e : Nat × Option Capture) => e.2.any (fun (k : Capture) => k.cmd == c.id))
    ({ s with caps := s.caps.filter (fun (e : Nat × Option Capture) => !(e.2.any (fun (k : Capture) => k.cmd == c.id))) }).serveCtl
      (gone.flatMap (fun (e : Nat × Option Capture) => match e.2 with | some k => k.ctl | none => []))
  else if c.op = 0x00C1 then
    { s with caps := s.caps.map (fun (e : Nat × Option Capture) => (e.1, e.2.map (fun (k : Capture) =>
        { k with ctl := k.ctl.filter (fun x => x.1 ≠ c.id) }))) }
  else if c.op = 0x00A0 then
    forN 4 (fun p s => s.modSlp p (fun q => { q with cmds := q.cmds.filter (· ≠ c.id) }))
      (if s.slk.rootCmd.any (fun r => r.1 == c.id) then { s with slk.rootCmd := none } else s)
  else if c.op = 0x00D0 then { s with cam.stopping := s.cam.stopping.filter (· ≠ c.id) }
  else if c.op = 0x0061 then
    forN 64 (fun e s => s.modEpoch e (fun x => { x with
      commit := if x.commit = some c.id then none else x.commit,
      abortCmd := if x.abortCmd = some c.id then none else x.abortCmd })) s
  else s

/-- What a command holds beside its own jobs is released, and the jobs of its capture's FIT end (R177, R186). -/
def State.letGo (c : Cmd) (s : State) : State :=
  let fit := s.jobs.filterMap (fun e => e.2.bind (fun j => match j.kind with
    | .fit k => if (s.cap k).any (fun p => p.cmd == c.id) then some e.1 else none
    | _ => none))
  fit.foldl (fun s j => s.endJob j true) (s.releaseCmd c)

/-- A command with work under way ends with an outcome: its work stops at the next tile instruction (R177, R186). -/
def State.endCmd (c : Cmd) (d : Done) (s : State) : State := (s.letGo c).stopCmd c d true

/-! ### Checkpoints of a capture (R413, R420) -/

/-- The parameter count P for a cell of width `h` (R413). -/
def paramCount (h : Nat) : Nat := 4 * h * (1 + h) + 5 * h + 1
/-- CK for a cell of width `h` (R413). -/
def ckptLen (h : Nat) : Nat := ceilDiv (64 + 4 * paramCount h) 64 * 64
/-- The slot that the next checkpoint goes to: the one that does not hold the lowest loss (R420). -/
def Capture.nextSlot (k : Capture) : Nat :=
  match k.best with
  | some (0, _) => 1
  | _ => 0

/-- A checkpoint write of a capture in FIT is cut short: its slot keeps VALID = 0 (R420, R427). -/
def State.ckptTorn (id : Nat) (s : State) : State :=
  s.caps.foldl (fun s e => match e.2 with
    | some k => if k.cmd = id ∧ k.phase = 2 then s.devWrite (k.ckpt + k.nextSlot * ckptLen k.h + 13) [0] else s
    | none => s) s

/-! ### Lost destinations -/

/-- A pending migration whose destination is lost (R223): before the switch value it is abandoned with the reason given, after it
the stream falls back. -/
def State.migrLost (h : Nat) (rs : Nat) (s : State) : State :=
  match s.stream h with
  | none => s
  | some x => match x.migr with
    | none => s
    | some m =>
      if s.tb.sfc.toNat < m.switch_ then
        let s1 := s.dropMigr h
        match s1.cmd m.cmd with
        | some c => s1.complete c ocFailed rs
        | none => s1
      else s.modStream h (fun x => { x with migr := x.migr.map (fun m => { m with lost := true }) })

/-- Streams whose migration goes to a node without a route, and streams homed on one or whose state is there, which fall back (R223); streams of such a node
leave. -/
def State.migrUnreachable (s : State) : State :=
  let cut := fun (n : BitVec 6) => (s.route n.toNat).isNone
  let s1 := (s.streams.filter (fun e => e.2.any (fun x => x.migr.any (fun m => m.node.any cut)))).foldl
    (fun s e => s.migrLost e.1 rsRemoteLinkDown) s
  let s2 := (s.streams.filter (fun e => e.2.any (fun x => x.remote.any cut))).foldl
    (fun s e => s.modStream e.1 (fun x => { x with dieFb := true })) s1
  let s3 := (s.streams.filter (fun e => e.2.any (fun x => x.stateFrom.any cut))).foldl (fun s e => s.modStream e.1 (fun x => { x with
    dieFb := true, stateFrom := none, migr := x.migr.map (fun m => { m with lost := true }) })) s2
  (s.streams.filter (fun e => e.2.any (fun x => x.guest.any (fun g => cut g.node)))).foldl (fun s e => s.dropGuest e.1) s3

/-- The jobs that a die takes with it: those on its cores, and pre-empted ones whose save slot lies in its DM (R29, R231) or whose context the
Hoard keeps there after a commit (R401). -/
def onDie (d : Nat) (s : State) (j : Job) : Bool :=
  match j.st with
  | .running c => c / 16 == d
  | .saving c => c / 16 == d
  | .restoring c => c / 16 == d
  | .saved => j.epoch.isNone && (if j.saved.any (fun k => k.job.isSome)
      then s.sch.ctxKept.any (fun p => p.die == d && s.job p.target == some j) else s.region j.slotAddr == .dm d)
  | .waiting => false

/-- The streams of a die that leaves fall back from the next fetch point, migrations to it are abandoned, and the part whose stream it
processes hears of it (R102, R223). -/
def State.streamsGone (d rs : Nat) (s : State) : State :=
  s.streams.foldl (fun s e => match e.2 with
    | none => s
    | some x =>
      let s := if x.core / 16 = d ∧ x.remote.isNone then
          let s := s.modStream e.1 (fun x => { x with dieFb := true })
          match x.guest with
          | some g => s.tellStream g.node x.tenant 2 g.handle rs []
          | none => s
        else s
      match x.migr with
      | some m => if m.node.isNone ∧ m.dest / 16 = d then s.migrLost e.1 rs else s
      | none => s) s

/-- The jobs and epochs of a die that leaves end with a reason (R29, R102, R123, R231, Table 16.6), and its streams with it. -/
def State.dieGone (d rs : Nat) (cause : BitVec 4) (s : State) : State :=
  let s1 := s.failJobs (onDie d s) rs cause
  let s2 := (s1.epochs.filter (fun e => (e.2.pages ++ e.2.ctxPages).any (fun p => p.die == d))).foldl
    (fun s e => s.abortEpoch e.1 cause) s1
  s2.streamsGone d rs

/-- The cores, the DM and the CDM of a die initialised (Table 3.8): its caches of SFC and events, and the transfers that its
bridge held, go with it. -/
def State.dieInit (d : Nat) (s : State) : State :=
  { s with cores := s.cores.filter (fun e => e.1 / 16 ≠ d),
           mem := mzero s.mem (dmBase d) (dmBase d + 0x1000000),
           tb.compares := s.tb.compares.filter (fun c => match c.owner with | .core k => k / 16 ≠ d | _ => true),
           sch.heldDma := s.sch.heldDma.filter (fun h => h.core / 16 ≠ d),
           obs.dieLatch := putBit s.obs.dieLatch d false }

/-! ### Links -/

/-- Has a port discarded its traffic (R502, R504)? It is down, or it has given up and not come back to UP. -/
def SlkPort.cut (q : SlkPort) : Bool := q.st != .up && (q.st != .retrain || q.gaveUp)

/-- The payload of a link-state frame (R506; layout: DESIGN CHOICE, log 14): kind 0, node, the ports in UP, those that have discarded their
traffic, the latencies. -/
def State.linkPayload (s : State) : List Byte :=
  toLe 1 0 ++ toLe 1 s.node ++ toLe 1 ((List.range 4).map (fun p => at_ ((s.slp p).st == .up) p)).sum ++
  toLe 1 ((List.range 4).map (fun p => at_ (s.slp p).cut p)).sum ++
  (List.range 4).flatMap (fun p => toLe 2 (s.slp p).lat.toNat)

/-- A part that follows the beacon without markers is in holdover (R65, R510). -/
def State.beaconHold (s : State) : State :=
  if fld s.tb.ctrl 0 2 = 2 then { s with tb.sfcActive := 1, tb.beaconLock := false }.errTb 1 else s

/-- The beacon's route follows the rack's links (R510): the port markers arrive on and the path latency to the root. -/
def State.beaconRoute (s : State) : State :=
  if s.slk.root then s
  else match s.slk.rootId with
    | none => s
    | some r => match s.upRoute r.toNat with
      | some (_, h) => { s with slk.upPort := BitVec.ofNat 2 ((h.head?.map (·.2)).getD 0), tb.comp := satN 16 (s.pathLat h) }
      | none => if s.tb.beaconLock then s.beaconHold else s

/-- A port has entered or left UP (R506): the change is flooded and routes follow it. -/
def State.linkChanged (s : State) : State := ((s.flood 4 s.linkPayload none s.node).migrUnreachable).beaconRoute.quietAnew

/-- The traffic of a migration is lost with its port (R502): its command fails, before v with the migration abandoned, from v on with the
stream in its fallback (R223). -/
def State.migrCut (h : Nat) (s : State) : State :=
  let s1 := s.migrLost h rsRemoteLinkDown
  match (s1.stream h).bind (·.migr) with
  | none => s1
  | some m =>
    if m.posted then s1
    else
      let s2 := s1.modStream h (fun x => { x with migr := some { m with posted := true } })
      match s2.cmd m.cmd with
      | some c => s2.complete c ocFailed rsRemoteLinkDown
      | none => s2

/-- The frames of a port discarded, with what follows for their commands and signals (R502): commands, pool operations among them, and migrations
whose traffic used the port fail, signals count as unreachable. -/
def State.dropFrames (p : Nat) (s : State) : State :=
  let q := s.slp p
  let sigs := (q.unacked ++ q.held).filter (fun u => u.frame.ftype == 1)
  let s1 := s.modSlp p (fun q => { q with unacked := [], held := [] })
  let s2 := sigs.foldl (fun s _ => s.dropSignal 3) s1
  let s3 := (s2.cmds.filter (fun c => c.remote == some p || c.path.any (fun e => e.1 == s.node && e.2 == p))).foldl (fun s c => s.endCmd c { oc := ocFailed, rs := rsRemoteLinkDown }) s2
  (s3.streams.filter (fun e => e.2.any (fun x => x.migr.any (fun m => m.port == some p)))).foldl (fun s e => s.migrCut e.1) s3

/-- Ports of another part have discarded their traffic: the commands and migrations whose traffic takes one of these links fail (R502). -/
def State.cutAt (n : Nat) (ports : BitVec 4) (s : State) : State :=
  let hit := fun (h : List (Nat × Nat)) => h.any (fun e => e.1 == n && bit ports e.2)
  let s1 := (s.cmds.filter (fun c => hit c.path)).foldl (fun s c => s.endCmd c { oc := ocFailed, rs := rsRemoteLinkDown }) s
  (s1.streams.filter (fun e => e.2.any (fun x => x.migr.any (fun m => hit m.path)))).foldl (fun s e => s.migrCut e.1) s1

/-- The LINK_CTRL commands that wait on a port complete. -/
def State.portDone (p : Nat) (d : Cmd → Done) (s : State) : State :=
  (s.slp p).cmds.foldl (fun s id => match s.cmd id with
    | some c => s.finish c (d c)
    | none => s) (s.modSlp p (fun q => { q with cmds := [] }))

/-- They fail with a reason. -/
def State.portFails (p rs : Nat) (s : State) : State := s.portDone p (fun _ => { oc := ocFailed, rs := rs })

/-- They have taken effect, late ones with their late count (R60). -/
def State.portServes (p : Nat) (result : List Byte) (s : State) : State := s.portDone p (fun c => c.servedDone result)

/-- A port enters ERROR (R503, R505): its command fails and held frames are discarded (R504). -/
def State.portError (p i : Nat) (s : State) : State :=
  let s1 := (s.modSlp p (fun q => { q with st := .error, width := 0, retraining := false, reqSent := none, backoff := false, agreed := none })).errSlk p i
  ((s1.dropFrames p).portFails p rsRemoteLinkDown).linkChanged

/-- A port's logic reset (Table 3.8): DISABLED, everything initialised but the error register. -/
def State.slpReset (p : Nat) (s : State) : State :=
  let s1 := (s.dropFrames p).portFails p rsRemoteLinkDown
  (s1.modSlp p (fun q => { err := q.err, replay := 0 })).linkChanged

/-- Key slot `i` zeroised (R476). -/
def State.zeroise (i : Nat) (s : State) : State := s.modSlot i (fun _ => {})

/-- Every slot with CONF set is zeroised, and the jobs of the tenants that were confidential fault with KEY_INVALID at their next LPDDR access
(R490, R498). -/
def State.zeroiseConf (s : State) : State :=
  { s with
    jobs := s.jobs.map (fun (e : Nat × Option Job) => (e.1, e.2.map (fun (x : Job) => { x with barred := x.barred || s.confidential x.tenant }))),
    key.slots := s.key.slots.filter (fun e => !e.2.conf) }

/-- The interface locks (Table 20.3): what LOCK_INTERFACE does, which comes first in the cycle of a NODE_ID override (R42). -/
def State.lockTdi (s : State) : State := if s.key.tdi = .unlocked then { s with key.tdi := .locked } else s

/-- A LOCK_INTERFACE of the session that arrives in this cycle (R42). -/
def State.lockTie (lock : Bool) (s : State) : State := if lock && s.key.spdm == .established then s.lockTdi else s

/-- The TDI enters ERROR (R488, R490). -/
def State.tdiError (s : State) : State :=
  if s.tdiLocked then ({ s with key.tdi := .error }.zeroiseConf).errKey 5 else s

/-- A PCIe port reset (R490, Table 3.8): the port's logic, sessions and configuration space are initialised; from CONFIG_LOCKED, RUN
or ERROR the CONF slots are zeroised; the TDI is unlocked. -/
def State.pcieReset (linkDown : Bool) (s : State) : State :=
  let s1 := if s.key.tdi = .unlocked then s else s.zeroiseConf
  { s1 with key.tdi := .unlocked, key.spdm := .none, key.ide := [], key.doeReply := 0, irq := {},
            memc.linkUp := !linkDown, memc.busMaster := false, memc.memEnable := false, memc.msixEnable := false,
            memc.bar0 := 0, memc.bar2 := 0, memc.msixLocation := 0 }

/-- A port reset of USB: the audio function returns to setting 0 with empty FIFOs. -/
def State.usbReset (s : State) : State :=
  { s with aud.usbIn := 0, aud.usbOut := 0, aud.usbSuspended := false, aud.usbOutFifo := [], aud.usbInFifo := [],
           aud.usbStall := false, gcp.usbNak := false }

/-! ### Frames of the camera (R433, R438-R440) -/

/-- LUMA_ONLY. -/
def CamCfg.luma (g : CamCfg) : Bool := bit g.flags 0
/-- TRIG_EN. -/
def CamCfg.trig (g : CamCfg) : Bool := bit g.flags 3
/-- Bytes of an output element. -/
def CamCfg.elem (g : CamCfg) : Nat := if g.outFmt = 8 then 2 else 1
/-- TB: the bytes of the tensor (R437, R438). -/
def CamCfg.tb (g : CamCfg) : Nat := g.outW * g.outH * (if g.luma then 1 else 3) * g.elem
/-- BS: the bytes from one buffer to the next (R438). -/
def CamCfg.bs (g : CamCfg) : Nat := ceilDiv (576 + g.tb) 64 * 64
/-- The camera is stopped and its pipeline idle: the STOP commands complete with the last SEQ (R433). -/
def State.camIdle (s : State) : State :=
  if s.cam.stopping.isEmpty ∨ s.cam.frame.isSome ∨ !s.cam.output.isEmpty then s
  else
    let s1 := { s with cam.running := false, cam.stopping := [], cam.lanesHs := 0, cam.clkActive := false,
                       cam.deskew := false }.disarm .trig
    s.cam.stopping.foldl (fun s id => match s.cmd id with
      | some c => s.served c (res4 s.cam.lastSeq.toNat)
      | none => s) s1

/-- A frame dropped while it is received: it counts, and the flicker estimate restarts with the next one (R440, R441). -/
def State.camDrop (s : State) : State := { s with cam.frameDrop := satInc s.cam.frameDrop, cam.restart := true }

/-- Bytes stored as DMA writes of the owner; a write that faults, or that meets a bridge which is not UP, sets OUT_FAULT and gives `false`
(R439). -/
def State.camWrite (a : Nat) (bs : List Byte) (s : State) : State × Bool :=
  let t := s.cam.owner.toNat
  if s.pathHeld none a bs.length then (s.errCam 4, false)
  else match s.access { tenant := some t, windows := s.windowsOf t } 1 a bs.length with
  | some d => ((s.noteDeny d).errCam 4, false)
  | none => (s.devWrite a bs, true)

/-- The address of byte 22 of the buffer that the frame takes which is the `i`-th after the oldest unwritten one (R438). -/
def State.camFlagAt (s : State) (i : Nat) : Nat := s.cam.cfg.outBase + (s.cam.buf + i) % Nat.max 1 s.cam.cfg.nbuf * s.cam.cfg.bs + 22

/-- A dropped frame leaves its buffer with VALID = 0 (R440), where the byte can be written. -/
def State.camVoid (i : Nat) (s : State) : State :=
  let w := s.camWrite (s.camFlagAt i) [0]
  if w.2 then w.1 else s

/-- The frame being received is dropped (R440). -/
def State.camLost (s : State) : State := ({ s.camVoid s.cam.output.length with cam.frame := none } : State).camDrop

/-- A port reset of the camera's D-PHY (Tables 3.6, 5.4): its lanes fall back, and a frame in progress is dropped; the pipeline may then be
idle (R433). -/
def State.camPortReset (s : State) : State :=
  let s1 : State := { s with cam.lanesHs := 0, cam.clkActive := false, cam.deskew := false }
  if s.cam.frame.isSome then s1.camLost.camIdle else s1

/-- A port reset of the AUD domain: the serial ports and MCLK are initialised. -/
def State.audReset (s : State) : State := { s with aud.ports := [], aud.mclk := 0x2, aud.mclkHz := 0, aud.fades := [] }

end Sys2Proof.Machine
end

