-- ==== Sys2Proof/Machine/Link.lean ====
section
/-!
DEFINITION. The Shusor link layer and the rack (chapter 21): received frames and their acknowledgement (R501, R502, R513), training,
retrain and width changes (R503-R505), link state and routes (R506), enumeration (R508), the rack Quill, wake and quiet state
(R511, R512, R273).
-/
namespace Sys2Proof.Machine

/-! ### Received frames (R501, R513) -/

/-- What becomes of a received frame. -/
inductive Recv where
  | dropped (s : State)
  | forMe (s : State)
  deriving DecidableEq, Repr

/-- A frame for another part goes on along its route; without one a signal counts as unreachable (R506). -/
def State.forward (f : LinkFrame) (s : State) : State :=
  match (s.routeOf f.src.toNat f.dst.toNat).bind (fun r => r.2.head?.map (fun e => (r.1, e))) with
  | some (k, e) => s.sendOn k e.2 { f with vc := if s.crossesWrap [e] then 1 else f.vc }
  | none => if f.ftype = 1 then s.dropSignal 3 else s

/-- The receiver's checks (R501): a bad CRC or SEQ discards the frame with a negative acknowledgement; a good frame is acknowledged and
advances the expected SEQ. A CONF frame without RACK_TRUSTED is discarded (R513); a frame for another node is forwarded. -/
def State.recv (p : Nat) (f : LinkFrame) (s : State) : Recv :=
  let q := s.slp p
  if q.st ≠ .up then .dropped s
  else if !f.crcOk ∨ f.seq ≠ q.rxSeq then .dropped (s.modSlp p (fun q => { q with acked := some false }))
  else
    let s1 := s.modSlp p (fun q => { q with rxSeq := q.rxSeq + 1, acked := some true })
    if f.conf && !s.key.rackTrusted then .dropped (s1.errSlk p 5)
    else if f.dst = 0xFF ∨ f.dst.toNat = s.node then .forMe s1
    else .dropped (s1.forward f)

/-- The state after a frame that `on` handles when it is for this part. -/
def State.onFrame (p : Nat) (f : LinkFrame) (on : State → State) (s : State) : State :=
  match s.recv p f with
  | .dropped t => t
  | .forMe t => on t

/-- A signal that arrives in a SIG frame is in flight on this part (R262): its sender counts apart from the part's own cores. -/
def State.sigArrives (f : LinkFrame) (s : State) : State :=
  let g : Signal := { src := 64 + f.src.toNat, core := leAt f.payload 0 1 % 64, cell := leAt f.payload 1 1 % 32,
                      v := leAt f.payload 2 2, tenant := f.tenant.toNat, conf := f.conf }
  { s with sch.signals := s.sch.signals ++ [g] }

/-- A broadcast goes on over every other port. -/
def State.refload (p : Nat) (f : LinkFrame) (s : State) : State := s.floodVc f.vc f.ftype.toNat f.payload (some p) f.src.toNat

/-- A BEACON_ROOT that is not settled when this part reverts is refused (R522). -/
def State.rootLost (s : State) : State :=
  match s.slk.rootCmd with
  | none => s
  | some r =>
    let s1 := { s with slk.rootCmd := none }
    match s1.cmd r.1 with
    | some c => s1.complete c ocRefused rsBadParam
    | none => s1

/-- A report of a part that an enumeration has reached (R508): kind 4, the part, whether it adopted an ID, the enumerating part (layout: DESIGN
CHOICE, log 14). -/
def enumReport (n : Nat) (adopted : Bool) (origin : Nat) : List Byte := toLe 1 4 ++ toLe 1 n ++ toLe 1 (at_ adopted 0) ++ toLe 1 origin

/-- A report goes back on the port on which the first proposal came (R508; DESIGN CHOICE, log 14). -/
def State.sendReport (p : Nat) (payload : List Byte) (s : State) : State :=
  s.sendOn 0 p { ftype := 4, vc := if s.crossesWrap [(s.node, p)] then 1 else 0, src := BitVec.ofNat 8 s.node, dst := 0xFF, seq := 0, tenant := 0,
                 conf := false, payload := payload, crcOk := true }

/-- A report arrives: the enumerating part counts it, another one hands it on (R508). -/
def State.reportArrives (payload : List Byte) (s : State) : State :=
  if leAt payload 3 1 % 64 = s.node then
    (if bitN (leAt payload 2 1) 0 then { s with slk.enumAdopted := s.slk.enumAdopted + 1 }
     else { s with slk.enumRefused := s.slk.enumRefused + 1 })
  else match s.slk.enumPort with
    | some p => s.sendReport p.toNat payload
    | none => s

/-- LINK_STATE_FRAME (R502, R506, R508, R509, R522): a change of another part's links (kind 0) enters the view and goes on; an announced root
(kind 3) is recorded unless a lower one is known; a report of an enumeration (kind 4) goes to the part that asked. A frame that changes nothing stops here. -/
def execLinkStateFrame (port : Fin 4) (f : LinkFrame) (s : State) : Host.Outcome State Fault Refusal :=
  .next <|
  if f.ftype ≠ 4 then s
  else s.onFrame port.val f (fun s =>
    let kind := leAt f.payload 0 1
    let n := leAt f.payload 1 1 % 64
    if kind = 0 then
      let links : BitVec 4 := BitVec.ofNat 4 (leAt f.payload 2 1)
      let cuts : BitVec 4 := BitVec.ofNat 4 (leAt f.payload 3 1)
      let was : BitVec 4 := tget 0 s.slk.cuts n
      let lats := (List.range 4).map (fun p => BitVec.ofNat 16 (leAt f.payload (4 + 2 * p) 2))
      let view := (List.range 4).map (fun p => tget 0 s.slk.lats (4 * n + p))
      if n = s.node ∨ (tget 0 s.slk.links n = links ∧ was = cuts ∧ view = lats) then s
      else
        let s1 := { s with slk.links := tset 0 s.slk.links n links, slk.cuts := tset 0 s.slk.cuts n cuts,
                           slk.lats := forN 4 (fun p t => tset 0 t (4 * n + p) (lats.getD p 0)) s.slk.lats }
        let s2 := (((s1.refload port.val f).cutAt n (cuts &&& ~~~ was)).migrUnreachable).beaconRoute
        if tget 0 s.slk.links n = links then s2 else s2.quietAnew
    else if kind = 3 then
      if s.slk.rootId.any (fun r => decide (r.toNat ≤ n)) then s
      else if s.slk.root ∧ s.node < n then s
      else
        (({ s with slk.rootId := some (BitVec.ofNat 6 n), slk.root := false }.rootLost).refload port.val f).beaconRoute
    else if kind = 4 then s.reportArrives f.payload
    else s)

/-- QUIET_STATE_FRAME (R273): another part's quiet state (kind 1: node, quiet). -/
def execQuietStateFrame (port : Fin 4) (f : LinkFrame) (s : State) : Host.Outcome State Fault Refusal :=
  .next <|
  if f.ftype ≠ 4 then s
  else s.onFrame port.val f (fun s =>
    let n := leAt f.payload 1 1 % 64
    let q := leAt f.payload 2 1 ≠ 0
    if leAt f.payload 0 1 ≠ 1 ∨ bit s.slk.quietNodes n = q ∨ n = s.node then s
    else { s with slk.quietNodes := putBit s.slk.quietNodes n q }.refload port.val f)

/-- The port that faces back along the direction of port `p` (R500). -/
def oppPort (p : Nat) : Nat := if p % 2 = 0 then p + 1 else p - 1

/-- The active NODE_ID set by enumeration or command (R508, Table 2.7). -/
def State.setNode (n : Nat) (s : State) : State :=
  { s with glb.activeId := BitVec.ofNat 6 n, glb.overridden := true }

/-- The payload of an enumeration proposal (kind 2): sender, extents minus one, the enumerating part (layout: DESIGN CHOICE, log 14). -/
def State.proposal (s : State) (origin : Nat) : List Byte :=
  toLe 1 2 ++ toLe 1 s.node ++ toLe 1 (fld s.slk.ctrl 0 3) ++ toLe 1 (fld s.slk.ctrl 3 3) ++ toLe 1 origin ++ toLe 3 0

/-- Does a proposal that arrives now belong to the enumeration that this part has seen (R508)? An enumeration completes within 10 ms
(DEDUCED, log 48). -/
def State.enumSeen (s : State) : Bool := s.slk.enumAt.any (fun a => (s.tb.sfc - a).toNat * 100 < s.rateHz)

/-- ENUMERATION_PROPOSAL (R508, R38): the first proposal gives this part the sender's neighbour in the direction opposite the
port's, and the extents; a later one that names another ID sets WIRING; a part that is locked, or locks in this cycle (`lock`, R42), keeps
its ID. Either reports to the enumerating part. -/
def execEnumerationProposal (port : Fin 4) (f : LinkFrame) (lock : Bool) (s : State) : Host.Outcome State Fault Refusal :=
  .next <|
  let p := port.val
  if f.ftype ≠ 4 ∨ leAt f.payload 0 1 ≠ 2 then s.lockTie lock
  else (s.lockTie lock).onFrame p f (fun s =>
    let ext := { s with slk.ctrl := (s.slk.ctrl &&& ~~~ 0x3F#32) ||| BitVec.ofNat 32 (leAt f.payload 2 1 % 8 + 8 * (leAt f.payload 3 1 % 8)) }
    let id := ext.neighbour (leAt f.payload 1 1 % 64) (oppPort p)
    let origin := leAt f.payload 4 1 % 64
    if s.enumSeen then (if id = s.node then s else s.errSlk p 1)
    else if s.tdiLocked then
      { s with slk.enumAt := some s.tb.sfc, slk.enumPort := some (BitVec.ofNat 2 p) }.sendReport p (enumReport s.node false origin)
    else
      let s1 := { ext.setNode id with slk.enumAt := some s.tb.sfc, slk.enumPort := some (BitVec.ofNat 2 p) }
      ((s1.flood 4 (s1.proposal origin) (some p) s1.node).sendReport p (enumReport id true origin)).linkChanged)

/-- QUILL_FRAME (R511): the first copy of an originator and sequence number arms an SFC compare on its target and goes on. -/
def execQuillFrame (port : Fin 4) (f : LinkFrame) (s : State) : Host.Outcome State Fault Refusal :=
  .next <|
  if f.ftype ≠ 5 then s
  else s.onFrame port.val f (fun s =>
    let origin := leAt f.payload 0 2 % 64
    let k := (origin, leAt f.payload 4 4)
    if s.slk.quillSeen.contains k ∨ origin = s.node then s
    else
      ({ s with slk.quillSeen := s.slk.quillSeen ++ [k] }.refload port.val f).arm .sfc (leAt f.payload 8 6)
        (.quill 5 (BitVec.ofNat 6 origin) (BitVec.ofNat 16 (leAt f.payload 2 2))))

/-- WAKE_FRAME (R512): wake source 10 fires on a part in DOZE or TORPOR; a broadcast goes on while it wakes this part. -/
def execWakeFrame (port : Fin 4) (f : LinkFrame) (s : State) : Host.Outcome State Fault Refusal :=
  .next <|
  if f.ftype ≠ 6 then s
  else s.onFrame port.val f (fun s =>
    if s.pmu.dev = .doze ∨ s.pmu.dev = .torpor then
      let s1 := if f.dst = 0xFF ∧ !bit s.pmu.wakePend 10 then s.refload port.val f else s
      s1.wakeFire 10
    else s)

/-! ### Acknowledgement and replay (R501, R502) -/

/-- The first `n` frames leave the replay buffer; the route to the beacon root may follow, none of the pair's frames being outstanding any more
(R507, R510). -/
def State.released (p n : Nat) (s : State) : State := (s.modSlp p (fun q => { q with unacked := q.unacked.drop n })).beaconRoute

/-- ACK_RECEIVED (R501): the frame and every earlier one leave the replay buffer. -/
def execAckReceived (port : Fin 4) (seq : BitVec 12) (s : State) : Host.Outcome State Fault Refusal :=
  .next <| match (s.slp port.val).unacked.findIdx? (fun u => u.frame.seq == seq) with
  | some i => s.released port.val (i + 1)
  | none => s

/-- The link gives up (R502): GAVE_UP, every unacknowledged frame discarded, the port in RETRAIN, a FAULT trigger when FAULT_EN
bit 3 is set. -/
def State.giveUp (p : Nat) (s : State) : State :=
  let s1 := (s.errSlk p 3).modSlp p (fun q => { q with st := .retrain, retraining := false, attempts := 0, gaveUp := true })
  ((s1.dropFrames p).faultTrig s 3).linkChanged

/-- The frames from index `i` on are sent again, each counted (R501); the eighth replay's loss gives up. -/
def State.replayFrom (p i : Nat) (s : State) : State :=
  let q := s.slp p
  if (q.unacked.drop i).any (fun u => u.replays ≥ 8) then s.giveUp p
  else s.modSlp p (fun q => { q with
    unacked := q.unacked.take i ++ (q.unacked.drop i).map (fun (u : Unacked) => { u with replays := u.replays + 1 }),
    replay := satAdd q.replay (q.unacked.drop i).length })

/-- NAK_RECEIVED (R501): the frame and every later unacknowledged one are replayed. -/
def execNakReceived (port : Fin 4) (seq : BitVec 12) (s : State) : Host.Outcome State Fault Refusal :=
  .next <| match (s.slp port.val).unacked.findIdx? (fun u => u.frame.seq == seq) with
  | some i => s.replayFrom port.val i
  | none => s

/-- REPLAY_TIMEOUT (R501, R73): no acknowledgement of the oldest frame within 5 µs; one that arrives in the same cycle (`tie`)
wins. -/
def execReplayTimeout (port : Fin 4) (tie : Bool) (s : State) : Host.Outcome State Fault Refusal :=
  .next <|
  let q := s.slp port.val
  if q.st ≠ .up ∨ q.unacked.isEmpty then s
  else if tie then (s.released port.val 1).tie
  else s.replayFrom port.val 0

/-! ### Training (R503, R504) -/

/-- The field code of a width (Table 21.4). -/
def widthCode (w : Nat) : BitVec 2 := if w = 4 then 3 else if w = 2 then 2 else if w = 1 then 1 else 0
/-- The width of a field code. -/
def widthOf (c : BitVec 2) : Nat := if c = 3 then 4 else if c = 2 then 2 else if c = 1 then 1 else 0

/-- The widest link that the good lanes, contiguous from lane 0, and WIDTH_MAX allow (R503). -/
def goodWidth (lanes : BitVec 4) (max : Nat) : Nat :=
  let n := if lanes = 15 then 4 else if bit lanes 0 && bit lanes 1 then 2 else if bit lanes 0 then 1 else 0
  Nat.min n max

/-- A failed attempt (R503): a new one at DETECT, or at TRAIN_BIT from RETRAIN; after three, DOWN_NO_PARTNER. -/
def State.attemptFails (p : Nat) (s : State) : State :=
  let q := s.slp p
  if q.attempts.toNat + 1 < 3 then
    s.modSlp p (fun q => { q with attempts := q.attempts + 1, retraining := false,
                                  st := if q.st = .retrain then .retrain else .detect })
  else
    let s1 := (s.modSlp p (fun q => { q with
      attempts := 3, st := .downNoPartner, width := 0, retraining := false, agreed := none, reqSent := none, backoff := false })).errSlk p 2
    let s2 := (s1.dropFrames p).portFails p rsRemoteUnreachable
    if q.st = .retrain then s2.linkChanged else s2

/-- A request of this port waits for its back-off to end (R505). -/
def SlkPort.retries (q : SlkPort) : Bool := q.backoff && q.reqSent.isSome

/-- Held frames proceed in order when a port reaches UP, numbered from 0 on both ends (R504; log 26), each with its route and its count of replays
(R501, R507). A request that waits for its back-off stays (R505). -/
def SlkPort.resume (q : SlkPort) : SlkPort :=
  let fs := q.unacked ++ q.held
  let numbered := fs.zipIdx.map (fun e => { e.1 with frame := { e.1.frame with seq := BitVec.ofNat 12 e.2 } })
  { q with st := .up, retraining := false, attempts := 0, unacked := numbered, held := [], rxSeq := 0,
           txSeq := BitVec.ofNat 12 fs.length, powerOff := false, gaveUp := false, agreed := none,
           reqSent := if q.retries then q.reqSent else none, backoff := q.retries }

/-- The widest link that training may reach: WIDTH_MAX, and the width that a change under way has agreed on (R503, R505). -/
def SlkPort.widest (q : SlkPort) : Nat := Nat.min q.widthMax (q.agreed.getD 4)

/-- SHUSOR_PHASE_COMPLETE (R499, R503): the phase ends with what it found, and the port advances, reaches UP, fails the attempt or
enters ERROR on a wiring fault; the boot ROM trains with CHECK_WIRING clear (R514). -/
def execShusorPhaseComplete (port : Fin 4) (r : PhaseResult) (s : State) : Host.Outcome State Fault Refusal :=
  .next <|
  let p := port.val
  let q := s.slp p
  let bitDone := fun (next : SlkPort → SlkPort) =>
    let w := goodWidth r.lanes q.widest
    let s1 := if (List.range q.widest).all (fun i => bit r.lanes i) then s else s.errSlk p 4
    if w = 0 then s1.attemptFails p
    else s1.modSlp p (fun q => next { q with width := widthCode w, rate16 := q.rateCfg && r.partner16g && s.rev2 })
  let cfgDone : Unit → State := fun _ =>
    let s1 := s.modSlp p (fun q => { q with partner := r.partner, lat := r.latency })
    let boot : Bool := s.glb.stage == 1 && s.glb.bootMode == 5
    if bit s.slk.ctrl 8 && !boot && r.partner.toNat ≠ s.neighbour s.node p then s1.portError p 1
    else
      let s2 := (s1.modSlp p SlkPort.resume).linkChanged
      if q.retries then s2 else s2.portServes p (toLe 8 (if q.reqWidth then widthOf q.width else 0))
  match q.st with
  | .detect => s.modSlp p (fun q => { q with st := .trainBit })
  | .trainBit => bitDone (fun q => { q with st := .trainCfg })
  | .trainCfg => cfgDone ()
  | .retrain => if q.retraining then cfgDone () else bitDone (fun q => { q with retraining := true })
  | _ => s

/-- TRAINING_PHASE_TIMEOUT (R503): a phase longer than 2 ms. -/
def execTrainingPhaseTimeout (port : Fin 4) (s : State) : Host.Outcome State Fault Refusal :=
  .next <| match (s.slp port.val).st with
  | .detect => s.attemptFails port.val
  | .trainBit => s.attemptFails port.val
  | .trainCfg => s.attemptFails port.val
  | .retrain => s.attemptFails port.val
  | _ => s

/-- AUTO_RETRY_TIMER (R503). -/
def execAutoRetryTimer (port : Fin 4) (s : State) : Host.Outcome State Fault Refusal :=
  .next (s.modSlp port.val (fun q =>
    if q.st = .downNoPartner ∧ q.autoRetry then { q with st := .detect, attempts := 0 } else q))

/-- The port enters RETRAIN with its traffic held (R504); the agreed width, if the operation has one, limits it. -/
def State.retrainPort (p : Nat) (w : Option Nat) (s : State) : State :=
  (s.modSlp p (fun q => { q with
    st := .retrain, retraining := false, attempts := 0, agreed := w, reqSent := if q.retries then q.reqSent else none })).linkChanged

/-- An agreed retrain (`none`) or width change takes place (R504): a narrowing at the frame boundary, a widening by a retrain. WIDTH_MAX still
limits it (R503, R505). The commands that wait are served by it, but not one whose request waits for its back-off (R505). -/
def State.applyWidth (p : Nat) (w : Option Nat) (s : State) : State :=
  match w with
  | none => s.retrainPort p none
  | some w =>
    let w := Nat.min w (s.slp p).widthMax
    if w ≤ widthOf (s.slp p).width then
      let s1 := s.modSlp p (fun q => { q with width := widthCode w, reqSent := if q.retries then q.reqSent else none })
      if (s.slp p).retries then s1 else s1.portServes p (toLe 8 w)
    else s.retrainPort p (some w)

/-- The request of this part becomes its own setting: a SET_WIDTH sets WIDTH_MAX (R503, R505). -/
def State.ownWidth (p : Nat) (w : Option Nat) (s : State) : State :=
  match w with
  | none => s
  | some w => s.modSlp p (fun q => { q with widthMax := w })

/-- RETRAIN_REQUEST (R505): accepted; or simultaneous with an unanswered request of this part: the lower NODE_ID leads, the
narrower width is taken, equal IDs clash and back off, and the fourth clash is an error. -/
def execRetrainRequest (port : Fin 4) (width : Option (Fin 5)) (node : BitVec 6) (s : State) :
    Host.Outcome State Fault Refusal :=
  .next <|
  let p := port.val
  let q := s.slp p
  let theirs := width.map (·.val)
  if q.st ≠ .up then s
  else match q.reqSent with
  | none => s.applyWidth p theirs
  | some mine =>
    if q.backoff then s.applyWidth p theirs
    else if node.toNat = s.node then
      let s1 := s.modSlp p (fun q => { q with clashes := if q.clashes = 7 then 7 else q.clashes + 1, backoff := true })
      if q.clashes.toNat + 1 ≥ 4 then s1.portError p 0 else s1
    else
      let ours := if q.reqWidth then some mine else none
      let w := match ours, theirs with
        | some a, some b => some (Nat.min a b)
        | some a, none => some a
        | none, b => b
      let lead := if s.node < node.toNat then ours else theirs
      let s1 := s.ownWidth p ours
      match lead, w with
      | none, some b => s1.retrainPort p (some b)
      | _, w => s1.applyWidth p w

/-- RETRAIN_ACCEPT (R505): the requested operation proceeds. -/
def execRetrainAccept (port : Fin 4) (s : State) : Host.Outcome State Fault Refusal :=
  .next <|
  let q := s.slp port.val
  match q.reqSent with
  | some w =>
    let w := if q.reqWidth then some w else none
    if q.st ≠ .up ∨ q.backoff then s else (s.ownWidth port.val w).applyWidth port.val w
  | none => s

/-- CLASH_BACKOFF_EXPIRY (R505): the request is sent again. -/
def execClashBackoffExpiry (port : Fin 4) (s : State) : Host.Outcome State Fault Refusal :=
  .next (s.modSlp port.val (fun q => { q with backoff := false }))

end Sys2Proof.Machine
end

