-- ==== Sys2Proof/Machine/Resets.lean ====
section
/-!
DEFINITION. Resets (section 3.7, R102, R115, R254, R276, R405, R476, R484, R491, R512, R517, R537), clocks (section 3.6), the timebases
(sections 3.1, 3.5) and the package bridges (section 2.3).
-/
namespace Sys2Proof.Machine

/-! ### Reset scopes (Table 3.8) -/

/-- A core reset of `c` (R253, R254): its job ends, LM and sync cells are cleared, and it is unavailable until the reset ends. The
reason that the job's command completes with is not stated: a free value (log 3). -/
def State.coreReset (c : Nat) (s : State) : State :=
  let d := s.draw
  let onIt : Job → Bool := fun j => match j.st with
    | .running k => k == c
    | .saving k => k == c
    | .restoring k => k == c
    | _ => false
  let s1 := d.2.failJobs onIt (pickReason (Config.freeWord d.1 0).toNat) 9
  (s1.freeCore c).modCore c (fun x => { x with phase := .unavailable, faultReset := false, pc := 0, sync := [], lm := [] })

/-- A die reset (Table 3.8, R28, R102): its jobs end with a reason that is not stated (a free value, log 3), its cores and DM are
initialised and, powered and not LOST, its bridge comes up again. -/
def State.dieReset (d : Nat) (s : State) : State :=
  let f := s.draw
  let s0 : State := { f.2 with glb.dieRst := setBit f.2.glb.dieRst d }
  let s1 := ((s0.dropSignalsTo d).dieGone d (pickReason (Config.freeWord f.1 0).toNat) 9).dieInit d
  let x : Die := s1.die d
  let s2 := s1.modDie d (fun x => { x with checkVal := none, attempts := 0, sfcCopy := 0, posRaw := 0 })
  if x.bridge = .lost then s2
  else if x.power = DieSt.on ∨ x.power = DieSt.waking then (s2.bridgeTo d .off).modDie d (fun x => { x with bridge := .training })
  else s2.bridgeTo d .off

/-- Every outstanding command but one completes ABORTED with a reason, epoch members with them (R71, R180, R195), and its work ends. -/
def State.abortAll (rs : Nat) (except_ : Option Nat) (s : State) : State :=
  let held := s.epochs.flatMap (fun e => e.2.held.filter (fun h => h.sq < 64))
  let s1 := { s with epochs := s.epochs.map (fun (e : Nat × Epoch) => (e.1, { e.2 with held := [] })) }
  let s2 := held.foldl (fun s h => s.postStatus h.cq { h.st with
    outcome := ocAborted, reason := BitVec.ofNat 16 rs, sfc := s.tb.sfc }) s1
  let l := s2.cmds.filter (fun c => some c.id ≠ except_)
  let s3 := l.foldl (fun s c => (s.dropCmd c.id).deliver c (c.status { oc := ocAborted, rs := rs } s.tb.sfc)) s2
  l.foldl (fun s c => (((s.jobsOf c.id).foldl (fun s j => s.endJob j true) (s.letGo c)).kvUnpinCmd c.id).opUndefined c) s3

/-- The commands that firmware has read and not completed, and the entries of their epochs, as a warm reset of another cause leaves them:
firmware completes them once it runs again (R71). -/
def State.owe (s : State) : Gcp :=
  { s.gcp with
    usbNak := false, owed := s.gcp.owed ++ s.cmds,
    owedHeld := s.gcp.owedHeld ++ s.epochs.flatMap (fun e => e.2.held.filter (fun h => h.sq < 64)) }

/-- Firmware completes the commands of before the reset ABORTED / WARM_RESET before it reads new ones (R71). -/
def State.payOwed (s : State) : State :=
  let s1 := { s with gcp.owed := [], gcp.owedHeld := [] }
  let s2 := s.gcp.owedHeld.foldl (fun s h => s.postStatus h.cq { h.st with
    outcome := ocAborted, reason := BitVec.ofNat 16 rsWarmReset, sfc := s.tb.sfc }) s1
  s.gcp.owed.foldl (fun s c => (s.outUndefined c).deliver c (c.status { oc := ocAborted, rs := rsWarmReset } s.tb.sfc)) s2

/-- What a warm reset and the exit from HIBERNATE leave of a die: its supply and its sensors. -/
def Die.warm (x : Die) : Die :=
  { regulator := x.regulator, tripped := x.tripped, maxTemp := x.maxTemp, maxTempMs := x.maxTempMs, sensor := x.sensor,
    mv := x.mv }

/-- The lost range that a reset during a walk records (R484). -/
def State.loseWalk (s : State) : State :=
  match s.key.walk with
  | none => s
  | some w => { s with key.walk := none, key.paused := false, key.lost := true, key.lostBase := BitVec.ofNat 28 (w.base / 4096),
                       key.lostLimit := BitVec.ofNat 28 (w.limit / 4096) }.errKey 1

/-- All IOD and compute-die state initialised but what Table 3.8 keeps; `hib` is the exit from HIBERNATE, which clears the RS
registers outside the island and the GCP registers and keeps the port settings (R115, R512). -/
def State.initWarm (hib : Bool) (s : State) : State :=
  let s0 := s.loseWalk
  let dies := forN 4 (fun d t => tset {} t d (tget {} s0.dies d).warm) ([] : Tbl Die)
  let mem := forN 4 (fun d m => mzero m (dmBase d) (dmBase d + 0x1000000)) s0.mem
  let camWas := s0.cam.running
  let slkPorts : Tbl SlkPort := forN 4 (fun p t =>
    let q := s0.slp p
    tset {} t p (if hib then
        { st := if q.powerOff then .detect else .disabled, widthMax := q.widthMax, rateCfg := q.rateCfg, autoRetry := q.autoRetry }
      else { err := q.err })) []
  { s0 with
    glb := { s0.glb with
      bridgeErr := if hib then 0 else s0.glb.bridgeErr, ready := false,
      stage := if s0.glb.stage = 4 then 4 else if s0.glb.stage = 3 then 3 else 0 },
    dies := dies,
    tb := { s0.tb with
      clcFrame := 0, clcLine := 0, sfcShadow := ⟨0, 0⟩, mpcShadow := ⟨0, 0⟩, comp := 0, beaconPending := none,
      compares := [], err := if hib then 0 else s0.tb.err },
    clk := { lock := s0.clk.lock &&& 0x1003F, err := if hib then 0 else s0.clk.err },
    pmu := {
      mode := s0.pmu.mode, lastResult := s0.pmu.lastResult, lastState := s0.pmu.lastState, lastSource := s0.pmu.lastSource,
      lpddrRefresh := if hib then s0.pmu.lpddrRefresh else s0.memc.trained || s0.pmu.lpddrRefresh,
      wakeEn := s0.pmu.wakeEn, wakePend := s0.pmu.wakePend, retAon := s0.pmu.retAon, levelHeld := s0.pmu.levelHeld,
      supErr := if hib then 0 else s0.pmu.supErr, resume := s0.pmu.resume, pmicEn := s0.pmu.pmicEn },
    rings := if hib then [] else s0.rings.map (fun (e : Nat × Ring) => (e.1, { e.2 with
      proxy := none, bound := none, unbind := none })),
    gcp := if hib then { nextId := s0.gcp.nextId } else s0.owe,
    cmds := [], tenants := [], images := [], streams := [], jobs := [], cores := [],
    sch := {
      err := if hib then 0 else s0.sch.err, syncErr := if hib then 0 else s0.sch.syncErr,
      specErr := if hib then 0 else s0.sch.specErr, nextElig := s0.sch.nextElig, nextJob := s0.sch.nextJob },
    epochs := [], rules := [], pools := [], kvShares := [],
    key := {
      wm := s0.key.wm, lostBase := s0.key.lostBase, lostLimit := s0.key.lostLimit, lost := s0.key.lost,
      err := if hib then 0 else s0.key.err, nextKey := s0.key.nextKey, unitKey := s0.key.unitKey },
    memc := { err := if hib then 0 else s0.memc.err, linkUp := s0.memc.linkUp },
    aud := { err := if hib then 0 else s0.aud.err },
    caps := [],
    cam := { err := if hib then 0 else if camWas then setBit s0.cam.err 6 else s0.cam.err },
    itk := { err := !hib && s0.itk.err },
    slk := {
      ctrl := if hib then s0.slk.ctrl else 0x0008013F, ports := slkPorts, root := hib && s0.slk.root,
      rootId := if hib then s0.slk.rootId else none, quillSeq := s0.slk.quillSeq },
    obs := {
      err := if hib then 0 else s0.obs.err,
      offValid := !hib && s0.obs.offValid, offMgr := s0.obs.offMgr, offAddr := s0.obs.offAddr,
      snapSeq := s0.obs.snapSeq, snapSource := s0.obs.snapSource, snapMask := s0.obs.snapMask, snapRack := s0.obs.snapRack,
      snapDieOff := s0.obs.snapDieOff, snapTag := s0.obs.snapTag, snapOrigin := s0.obs.snapOrigin, snapSfc := s0.obs.snapSfc,
      snapLate := s0.obs.snapLate },
    irq := {},
    mem := mem }

/-- The check of a firmware image (Table 7.10): 0, or the code of GLB_BOOT_STATUS.ERROR. An ENTRY outside the payload counts as HEADER
and bytes missing at the end as LENGTH (DEDUCED, log 24). -/
def imageError (b : List Byte) : Nat :=
  let k := leAt b 6 1
  let n := leAt b 0xC 4
  if leAt b 0 4 ≠ 0x31474C4E then 1
  else if leAt b 4 2 ≠ 1 ∨ 3 < k ∨ leAt b 7 1 ≠ 0 ∨ !zerosAt b 0x14 44 ∨ n ≤ leAt b 0x10 4 then 2
  else if Config.fusedRevoked k then 3
  else if Config.sha384 (slice b 0x40 96) ≠ Config.fusedHash k then 4
  else if leAt b 8 4 < Config.fusedSvn then 5
  else if 3 * 2 ^ 20 < n ∨ b.length < 0x100 + n then 6
  else if !Config.ecdsaVerify (slice b 0x40 96) (slice b 0xA0 96) (slice b 0 0xA0 ++ slice b 0x100 n) then 7
  else 0

/-- The boot ROM starts loading, from flash before USB (R190), unless BOOT_MODE holds it (Table 2.5); a load from a neighbour trains every port
(R514). -/
def State.bootLoad (s : State) : State :=
  if s.glb.bootMode = 7 then { s with glb.stage := 0 }
  else
    let s1 := { s with glb.stage := 1, glb.loaded := 0, glb.source := 0 }
    if s.glb.bootMode = 5 then forN 4 (fun p s => s.modSlp p (fun q =>
      if q.st = SlkSt.disabled then { q with st := .detect, attempts := 0 } else q)) s1
    else s1

/-- A manager core that runs starts the boot ROM's load again where no firmware had started. -/
def State.mgrRestart (s : State) : State := if s.glb.mgrRunning && s.glb.stage == 0 then s.bootLoad else s

/-- The other resets that start in the same reference cycle are recorded beside the one that takes place (R70). -/
def State.alsoReset (a : AlsoReset) (s : State) : State :=
  { s with glb.hist := s.glb.hist ||| a.causes, glb.dieRst := s.glb.dieRst ||| a.dies }

/-- The boot ROM stops with a strap fault when the package strap word names another variant than 0x3 (R34). -/
def State.strapCheck (s : State) : State :=
  if fld s.glb.pkgWord 4 4 = 3 then s else { s with glb.cause := 8, glb.hist := setBit s.glb.hist 8, glb.stage := 4 }

/-- A warm reset with its cause and what starts in the same cycle (R70, R71). Before one that the command `self` starts, every other
outstanding command completes ABORTED / WARM_RESET, then `self` SERVED or SERVED_LATE (R60); after any other, firmware completes them when it runs again.
Firmware that ran starts again without a new load. In OFF nothing is powered that could be reset (R117). -/
def State.warm (cause : Nat) (self : Option Nat) (a : AlsoReset) (s : State) : State :=
  if s.pmu.dev = .off then s
  else
    let s2 := match self.bind s.cmd with
      | some c =>
        let s1 := s.abortAll rsWarmReset self
        (s1.dropCmd c.id).deliver c (c.status (c.servedDone []) s1.tb.sfc)
      | none => s
    let s3 := s2.initWarm false
    ({ s3 with glb.cause := BitVec.ofNat 4 cause, glb.hist := setBit s3.glb.hist cause }.alsoReset a).strapCheck.mgrRestart

/-- COLD_RESET (R34, R70, R140, R558, R562, Table 3.8): everything is initialised; the package strap word and the voltage of each general
VDDIO bank are read, and another variant than 0x3 stops the boot ROM with a strap fault. -/
def execColdReset (vresetAon : Bool) (pkg : BitVec 8) (banks : BitVec 4) (also : AlsoReset) (s : State) : Host.Outcome State Fault Refusal :=
  let k := if vresetAon then 1 else 0
  .next (({ State.reset with
    build := s.build, hostOut := s.hostOut, fresh := s.fresh, pending := s.pending, glb.pkgWord := pkg, glb.banks := banks,
    glb.cause := BitVec.ofNat 4 k, glb.hist := oneBit 10 k } : State).alsoReset also).strapCheck

/-- BOARD_STRAP_LATCH (R35, R36, Table 2.5): once after a cold reset. -/
def execBoardStrapLatch (boot : BitVec 3) (node : BitVec 6) (s : State) : Host.Outcome State Fault Refusal :=
  if s.glb.strapLatched then .next s
  else .next { s with glb.strapLatched := true, glb.bootMode := boot, glb.bootRsvd := boot == 6, glb.nodeStrap := node,
                      glb.activeId := node }

/-- WATCHDOG_EXPIRY (R70). -/
def execWatchdogExpiry (also : AlsoReset) (s : State) : Host.Outcome State Fault Refusal := .next (s.warm 4 none also)

/-- JTAG_RESET (R70, R190): the warm scope with cause JTAG, which also leaves the boot halt of R190 (DESIGN CHOICE, log 27), not a strap
fault (R34). -/
def execJtagReset (also : AlsoReset) (s : State) : Host.Outcome State Fault Refusal :=
  let s1 := s.warm 9 none also
  .next (if s.pmu.dev = .off then s
    else if s1.glb.stage = 4 ∧ fld s1.glb.pkgWord 4 4 = 3 then { s1 with glb.stage := 0, glb.bootError := 0 }.mgrRestart else s1)

/-- The port resets of Table 3.8. -/
def State.portReset (p : PortId) (s : State) : State :=
  match p with
  | .pcie => s.pcieReset false
  | .usb => s.usbReset
  | .spi => s
  | .aud => s.audReset
  | .slp n => s.slpReset n.val

/-- PORT_SCOPE_RESET (R70). -/
def execPortScopeReset (p : PortId) (s : State) : Host.Outcome State Fault Refusal := .next (s.portReset p)

/-- A write to GLB_RESET_CTRL (R72, R489): with KEY, at most one request bit and an unlocked TDI it starts the reset it names. -/
def State.writeResetCtrl (v : W32) (a : AlsoReset) (s : State) : State :=
  let n := popcount (fld v 20 4) 4 + at_ (bit v 16) 0
  if s.tdiLocked ∨ fld v 0 16 ≠ 0x5A3C ∨ n ≠ 1 then s
  else if bit v 16 then s.warm 3 none a
  else forN 4 (fun d s => if bit v (20 + d) then s.dieReset d else s) s

/-- RESET_CTRL_WARM (R72). -/
def execResetCtrlWarm (v : BitVec 32) (also : AlsoReset) (s : State) : Host.Outcome State Fault Refusal :=
  .next (s.writeResetCtrl v also)

/-- RESET_CTRL_DIE (R72). -/
def execResetCtrlDie (v : BitVec 32) (s : State) : Host.Outcome State Fault Refusal := .next (s.writeResetCtrl v ⟨0, 0⟩)

/-! ### PLLs and REFCLK (R66-R69) -/

/-- The bit of a PLL in CLK_PLL_STATUS (Table 3.7). -/
def pllBit : Pll → Nat
  | .spll => 0
  | .dpll => 1
  | .apll => 2
  | .ppll => 3
  | .upll => 4
  | .slpll => 5
  | .aonFll => 16
  | .cpll d => 8 + 2 * d.val
  | .fpll d => 9 + 2 * d.val

/-- The manager core leaves reset (Table 3.9): after a cold reset the boot ROM starts loading. -/
def State.mgrStarts (s : State) : State :=
  let s1 := { s with glb.mgrRunning := true }
  if s.glb.stage = 0 then s1.bootLoad else s1

/-- The audio PLL that had lost its lock relocks on REFCLK and enters the holdover of R48 (R68): WCLK_IN counts as lost while it is the
selected source. -/
def State.apllRelock (s : State) : State :=
  if !s.tb.apllLost then s
  else
    let s1 := { s with tb.apllLost := false, tb.sfcActive := 1 }
    if fld s.tb.ctrl 0 2 = 0 then { s1 with tb.wclkPresent := false }.errTb 0 else s1

/-- PLL_LOCK (R46, R66, R68): the status bit; SPLL starts the manager core, unless REFCLK_LOSS holds the reset (R69), APLL the SFC. -/
def execPllLock (p : Pll) (s : State) : Host.Outcome State Fault Refusal :=
  .next <|
  if s.pmu.dev = .off then s else
  let s1 := { s with clk.lock := setBit s.clk.lock (pllBit p) }
  match p with
  | .spll => if s1.glb.resetHeld then s1 else s1.mgrStarts
  | .apll => { s1 with tb.audLock := true, tb.sfcRunning := !s1.glb.resetHeld }.apllRelock
  | _ => s1

/-- PLL_UNLOCK (R68): the error bit and the reset that the PLL requires; the audio PLL enters its holdover once it relocks, the AON FLL
requires nothing. -/
def execPllUnlock (p : Pll) (also : AlsoReset) (s : State) : Host.Outcome State Fault Refusal :=
  .next <|
  if s.pmu.dev = .off then s else
  let s1 := { s with clk.lock := putBit s.clk.lock (pllBit p) false }.errClk (pllBit p)
  match p with
  | .spll => { s1 with glb.mgrRunning := false }.warm 6 none also
  | .dpll => s1.warm 6 none also
  | .apll => { s1 with tb.audLock := false, tb.apllLost := true }
  | .ppll => s1.portReset .pcie
  | .upll => s1.portReset .usb
  | .slpll => forN 4 (fun n s => s.slpReset n) s1
  | .cpll d => s1.dieReset d.val
  | .fpll d => s1.dieReset d.val
  | .aonFll => s1

/-- REFCLK_LOSS (R69): the island saves the SFC and counts RTC ticks; the part stays in the warm reset, and the CLC holds. -/
def execRefclkLoss (also : AlsoReset) (s : State) : Host.Outcome State Fault Refusal :=
  if s.glb.resetHeld ∨ s.pmu.dev = .off then .next s
  else
    let s1 := { s with glb.mgrRunning := false }.warm 5 none also
    .next { s1 with glb.resetHeld := true, tb.carry := some (s1.tb.sfc, 0), tb.sfcRunning := false,
                    tb.clcFrame := s.tb.clcFrame, tb.clcLine := s.tb.clcLine }

/-- The SFC resumes from the carried value (R51, R69). -/
def State.resumeSfc (s : State) : State :=
  match s.tb.carry with
  | some (v, t) => { s with tb.carry := none, tb.sfcRunning := true }.sfcJump (v + BitVec.ofNat 48 (s.ticksToFrames t))
  | none => s

/-- REFCLK_RESTORED (R69): the warm reset ends, and the SFC resumes as a jump; the manager core starts once SPLL has its lock. -/
def execRefclkRestored (s : State) : Host.Outcome State Fault Refusal :=
  if s.glb.resetHeld then
    let s1 : State := { s with glb.resetHeld := false }
    .next ((if bit s.clk.lock 0 then s1.mgrStarts else s1).resumeSfc)
  else .next s

/-! ### Sources of the SFC, the MPC and the beacon (R46-R53, R62-R65) -/

/-- WCLK_LOSS (R48): holdover on REFCLK while WCLK is the selected source. -/
def execWclkLoss (s : State) : Host.Outcome State Fault Refusal :=
  .next (if fld s.tb.ctrl 0 2 = 0 then { s with tb.wclkPresent := false, tb.sfcActive := 1 }.errTb 0
    else { s with tb.wclkPresent := false })

/-- WCLK_RELOCK (R48, R77): WCLK_IN in range again; it is followed only while it is the selected source. -/
def execWclkRelock (s : State) : Host.Outcome State Fault Refusal :=
  .next (if fld s.tb.ctrl 0 2 = 0 then { s with tb.wclkPresent := true, tb.sfcActive := 0 }
    else { s with tb.wclkPresent := true })

/-- The code of RATE whose frames per second a TB_CTRL value selects is legal (Table 3.2). -/
def rateOk (v : W32) : Bool := fld v 2 4 ≤ 5

/-- After a change of RATE every port whose slot count exceeds Table 4.1 gets SLOT_LIMIT and loses EN (R81). -/
def State.slotLimits (s : State) : State :=
  forN 4 (fun n s =>
    if fld (s.port n).ctrl 4 4 + 1 > s.maxSlots then
      (s.modPort n (fun p => { p with ctrl := putBit p.ctrl 0 false, clkOk := false })).errAud (8 + n)
    else s) s

/-- A write to TB_CTRL (R46, R47, R49, R81, R96): while a stream is open or a capture is in EXCITE it is ignored whole, since it writes
SFC_SRC and RATE; a reserved encoding leaves its field and sets CTRL_REJECT (log 99). A rise of RATE above 96 kHz sets the USB function
to setting 0 and keeps what its FIFOs hold (DESIGN CHOICE, log 110). -/
def State.writeTbCtrl (v : W32) (s : State) : State :=
  let old := s.tb.ctrl
  let rej := fld v 0 2 = 3 || !rateOk v
  let src := if fld v 0 2 = 3 then fld old 0 2 else fld v 0 2
  let rate := if rateOk v then fld v 2 4 else fld old 2 4
  if s.openStreams ≠ 0 ∨ s.anyExcite = true then s.errTb 5
  else
    let n : W32 := BitVec.ofNat 32 (src + rate * 4 + fld v 6 3 * 64)
    let s1 := { s with tb.ctrl := n }
    let s2 := if src = fld old 0 2 then s1
      else if src = 0 then { s1 with tb.sfcActive := if s.tb.wclkPresent then 0 else 1, tb.beaconLock := false, tb.beaconPending := none }
      else { s1 with tb.sfcActive := 1, tb.beaconLock := false, tb.beaconPending := none }
    let s3 := if rate = fld old 2 4 then s2 else
      let s3 := s2.slotLimits
      (if s3.fastRate then { s3 with aud.usbIn := 0, aud.usbOut := 0 } else s3).mclkRun
    if rej then s3.errTb 5 else s3

/-- TB_CTRL_WRITE (R47). -/
def execTbCtrlWrite (v : BitVec 32) (s : State) : Host.Outcome State Fault Refusal := .next (s.writeTbCtrl v)

/-- The MPC advances by `n` phase steps, every value held (R53, R57). -/
def State.mpcAdvance (n : Nat) (s : State) : State := { s with tb.mpc := s.tb.mpc + BitVec.ofNat 48 n }.mark .mpc true false

/-- Does the MPC tracking loop run (R53)? On IOD revision 2, outside HIBERNATE and a REFCLK_LOSS reset, in which the island counts
crossings instead (R69). -/
def State.mpcRuns (s : State) : Bool := s.rev2 && !s.glb.resetHeld && s.pmu.dev ≠ .hibernate && s.pmu.dev ≠ .off

/-- MPC_TICK (R53): the loop's phase steps; while crossings arrive the phase does not wrap before the crossing that it is locked to
(DESIGN CHOICE, log 111), while it freewheels it wraps by itself. -/
def execMpcTick (steps : BitVec 16) (s : State) : Host.Outcome State Fault Refusal :=
  .next <|
  let ph := s.tb.mpc.toNat % 65536
  if !s.mpcRuns ∨ s.tb.mpcMode = .hold ∨ (s.tb.mpcMode = .idle ∧ s.tb.mpcCrossings = 0) then s
  else if s.tb.mpcMode = .freewheel then
    let s1 := s.mpcAdvance steps.toNat
    { s1 with tb.freewheelCycles := s1.tb.freewheelCycles + (ph + steps.toNat) / 65536 }
  else s.mpcAdvance (Nat.min steps.toNat (65535 - ph))

/-- MAINS_LOSS (R53): the MPC freewheels at the last measured frequency, whether or not it had locked. -/
def execMainsLoss (s : State) : Host.Outcome State Fault Refusal :=
  .next (if s.mpcRuns ∧ (s.tb.mpcMode = .locked ∨ (s.tb.mpcMode = .idle ∧ s.tb.mpcCrossings ≠ 0)) then
      { s with tb.mpcMode := .freewheel, tb.freewheelCycles := 0, tb.mpcCrossings := 0 }
    else s)

/-- MAINS_HOLD (R53, R57, R442, R447): after 16 freewheel cycles the MPC holds; an MPC compare that has not fired yet waits, and a camera with
TRIG_EN gets no pulse. -/
def execMainsHold (s : State) : Host.Outcome State Fault Refusal :=
  .next (if s.tb.mpcMode = .freewheel ∧ 16 ≤ s.tb.freewheelCycles then
      (let t := { s with tb.mpcMode := .hold, tb.mpcLock := false, tb.compares := s.tb.compares.map (fun (c : Compare) =>
        if c.tb = Timebase.mpc then { c with hit := none } else c) }.errTb 4
       if s.cam.running && bit s.cam.cfg.flags 3 then t.errCam 5 else t) else s)

/-- The root whose beacon this part takes on a port: SFC_SRC is BEACON and the port is that of its route to the root (R510). -/
def State.beaconFrom (s : State) (p : Nat) : Option Nat :=
  if fld s.tb.ctrl 0 2 ≠ 2 ∨ (s.slp p).st ≠ .up ∨ s.slk.upPort.toNat ≠ p then none
  else (s.slk.rootId.map (·.toNat)).filter (fun r => (s.upRoute r).any (fun h => (h.2.head?).any (fun e => e.2 == p)))

/-- BEACON_MARKER (R63, R65, R510): a marker on the port of the route to the root is followed and relayed downstream. -/
def execBeaconMarker (port : Fin 4) (s : State) : Host.Outcome State Fault Refusal :=
  .next <| match s.beaconFrom port.val with
  | some r => { s with tb.sfcActive := 2, tb.beaconLock := true }.sendMarker r
  | none => s

/-- BEACON_FULL_VALUE (R64, R501): a frame of TYPE 7 on the port of the route to the root, relayed downstream like the markers (log 107) and compared with the local SFC; a difference is loaded at the
next frame boundary. -/
def execBeaconFullValue (port : Fin 4) (f : LinkFrame) (s : State) : Host.Outcome State Fault Refusal :=
  .next <|
  if f.ftype ≠ 7 then s
  else s.onFrame port.val f (fun s => match s.beaconFrom port.val with
    | some r =>
      let v : Sfc := BitVec.ofNat 48 (leAt f.payload 0 6)
      { s with tb.beaconPending := if v = s.tb.sfc then none else some v }.sendFull r v
    | none => s)

/-- BEACON_RELOAD (R50, R64, R76). -/
def execBeaconReload (s : State) : Host.Outcome State Fault Refusal :=
  .next <| match s.tb.beaconPending with
  | some v => (({ s with tb.beaconPending := none }).sfcJump v).errTb 2
  | none => s

/-- BEACON_LOSS (R65). -/
def execBeaconLoss (s : State) : Host.Outcome State Fault Refusal := .next s.beaconHold

/-! ### The SFC check (R23) -/

/-- SFC_CHECK (R23): the check value differs from a die's copy. -/
def execSfcCheck (s : State) : Host.Outcome State Fault Refusal :=
  .next (forN 4 (fun d s =>
    if s.dieUp d && (s.die d).sfcCopy ≠ s.tb.sfc then
      (s.modDie d (fun x => { x with checkVal := some s.tb.sfc })).errGlb (12 + d)
    else s) s)

/-- SFC_CHECK_RELOAD (R23, R43, R50): at the next frame the die's copy takes the checked value, which has advanced with the SFC
(DEDUCED, log 28), as a jump; its compares see that value alone in that frame (R43), since SFC_TICK leaves the copy to the reload. -/
def execSfcCheckReload (d : Fin 4) (s : State) : Host.Outcome State Fault Refusal :=
  .next <| match (s.die d.val).checkVal with
  | none => s
  | some _ =>
    if s.dieUp d.val then
      ((s.modDie d.val (fun x => { x with checkVal := none, sfcCopy := s.tb.sfc })).mark .sfc false true).errTb 3
    else s.modDie d.val (fun x => { x with checkVal := none })

/-! ### Bridges (section 2.3) -/

/-- BRIDGE_TRAINING_DONE (R26). -/
def execBridgeTrainingDone (d : Fin 4) (s : State) : Host.Outcome State Fault Refusal :=
  .next (if (s.die d.val).bridge = .training then s.modDie d.val (fun x => { x with bridge := .idCheck }) else s)

/-- BRIDGE_TRAIN_TIMEOUT (R27). -/
def execBridgeTrainTimeout (d : Fin 4) (s : State) : Host.Outcome State Fault Refusal :=
  .next <|
  let x := s.die d.val
  if x.bridge ≠ .training then s
  else if x.attempts + 1 < 3 then s.modDie d.val (fun x => { x with attempts := x.attempts + 1 })
  else ((s.bridgeTo d.val .error).modDie d.val (fun x => { x with attempts := 3 })).errGlb (8 + d.val)

/-- A bridge reaches UP (R23, R26): the die's copy takes the SFC. -/
def State.bridgeUp (d : Nat) (s : State) : State :=
  (s.modDie d (fun x => { x with
    bridge := .up, attempts := 0, power := .on, stateOff := false, seen := true, sfcCopy := s.tb.sfc })).mark .sfc false false

/-- BRIDGE_POSITION_REPORT (R32, R33). -/
def execBridgePositionReport (d : Fin 4) (code : BitVec 3) (s : State) : Host.Outcome State Fault Refusal :=
  .next <|
  if (s.die d.val).bridge ≠ .idCheck then s
  else
    let s1 := s.modDie d.val (fun x => { x with posRaw := code })
    if bit code 2 ≠ (bit code 1 != bit code 0) then (s1.bridgeTo d.val .error).errGlb d.val
    else if fld code 0 2 ≠ d.val then (s1.bridgeTo d.val .error).errGlb (4 + d.val)
    else s1.bridgeUp d.val

/-- BRIDGE_LINK_ERROR (R29): traffic is held in both directions. -/
def execBridgeLinkError (d : Fin 4) (s : State) : Host.Outcome State Fault Refusal :=
  .next (if s.dieUp d.val then s.modDie d.val (fun x => { x with bridge := .retrain }) else s)

/-- BRIDGE_RETRAIN_DONE (R29): held traffic proceeds in order. -/
def execBridgeRetrainDone (d : Fin 4) (s : State) : Host.Outcome State Fault Refusal :=
  .next (if (s.die d.val).bridge = .retrain then (s.bridgeUp d.val).dmaRelease else s)

/-- BRIDGE_RETRAIN_TIMEOUT (R29, R44, R231): the die is lost and held in reset; its work fails with DIE_LOST. -/
def execBridgeRetrainTimeout (d : Fin 4) (s : State) : Host.Outcome State Fault Refusal :=
  .next <|
  if (s.die d.val).bridge ≠ .retrain then s
  else
    let s1 := (s.bridgeTo d.val .lost).errGlb (16 + d.val)
    let s2 := s1.dieGone d.val rsDieLost 8
    ((s2.dieInit d.val).dmaRelease).faultTrig s 1

end Sys2Proof.Machine
end

