-- ==== Sys2Proof/Machine/Garast.lean ====
section
/-!
DEFINITION. The Garast command protocol (chapter 7): ring configuration and doorbells (R165-R172, R188), reading and checking a
command (R173, R174, R181, R398, R515), the order in which commands take effect (R182-R184), due words (R58-R61), command timers
(R185, R186), NOP, ABORT (R177), and the CMD and CPL frames of proxied commands (R515).
-/
namespace Sys2Proof.Machine

/-! ### Registers (R165, R166, R188) -/

/-- A register write reaches its block; one to a block that is off is dropped with its record (R130). -/
def State.onBlock (off : Nat) (f : State → State) (s : State) : State :=
  if s.offAt off then s.offAccess .bar0 off else f s

/-- The TDI lock of R188: the ring has PRIV, or the write would set it, while the TDI is CONFIG_LOCKED or RUN. -/
def State.cfgLocked (s : State) (n : Nat) (setsPriv : Bool) : Bool :=
  s.tdiLocked && (bit (s.ring n).sqCfg 10 || setsPriv)

/-- May a ring with this configuration and base be enabled (R165)? -/
def ringOk (cfg : W32) (base : W64) : Bool :=
  4 ≤ fld cfg 4 4 && fld cfg 4 4 ≤ 12 && base.toNat % 64 == 0

/-- A write to GCP_SQn_CFG (R165, R166, R188, R190): EN rising resets HEAD and TAIL; while EN is 1 only EN changes; a ring is
enabled only once READY is set. -/
def State.writeSqCfg (n : Nat) (v : W32) (s : State) : State :=
  let v := v &&& 0x03FF07F3
  let r := s.ring n
  if s.cfgLocked n (bit v 10) then s.errRing n 3
  else if bit r.sqCfg 0 then
    let s1 := s.modRing n (fun r => { r with sqCfg := putBit r.sqCfg 0 (bit v 0) })
    if v.toNat / 2 ≠ r.sqCfg.toNat / 2 then s1.errRing n 3 else s1
  else if bit v 0 then
    if !ringOk v r.sqBase then s.errRing n 3
    else if !s.glb.ready then s
    else s.modRing n (fun r => { r with sqCfg := v, sqHead := 0, sqTail := 0, lastCq := none })
  else s.modRing n (fun r => { r with sqCfg := v })

/-- A write to GCP_CQn_CFG (R165, R166, R170, R188): EN rising resets HEAD and TAIL, with PHASE 1 on the first pass. -/
def State.writeCqCfg (n : Nat) (v : W32) (s : State) : State :=
  let v := v &&& 0x1F3
  let r := s.ring n
  if s.cfgLocked n false then s.errRing n 3
  else if bit r.cqCfg 0 then
    let s1 := s.modRing n (fun r => { r with cqCfg := putBit r.cqCfg 0 (bit v 0) })
    if v.toNat / 2 ≠ r.cqCfg.toNat / 2 then s1.errRing n 3 else s1
  else if bit v 0 then
    if !ringOk v r.cqBase then s.errRing n 3
    else if !s.glb.ready then s
    else (s.modRing n (fun r => { r with cqCfg := v, cqHead := 0, cqTail := 0, phase := true })).releaseHeld n 4096
  else s.modRing n (fun r => { r with cqCfg := v })

/-- A write to GCP_USB_CFG or GCP_SPI_CFG (R188): the rings concerned are the command rings bound before and after it (DEDUCED,
log 29); BAD_CFG is set in the one that the write names. -/
def State.writeTransport (spi : Bool) (v : W32) (s : State) : State :=
  let v := v &&& 0x3F3F
  let old := if spi then s.gcp.spiCfg else s.gcp.usbCfg
  if s.cfgLocked (fld old 0 6) false || s.cfgLocked (fld v 0 6) false then s.errRing (fld v 0 6) 3
  else if spi then { s with gcp.spiCfg := v } else { s with gcp.usbCfg := v }

/-- A write of half `hi` of GCP_SQn_BASE or (`cq`) GCP_CQn_BASE: ignored with BAD_CFG while the ring is enabled (R165). -/
def State.writeBase (n : Nat) (cq hi : Bool) (v : W32) (s : State) : State :=
  let r := s.ring n
  let put := fun (b : W64) => BitVec.ofNat 64 (if hi then b.toNat % 2 ^ 32 + v.toNat * 2 ^ 32 else b.toNat / 2 ^ 32 * 2 ^ 32 + v.toNat)
  if bit (if cq then r.cqCfg else r.sqCfg) 0 then s.errRing n 3
  else s.modRing n (fun r => if cq then { r with cqBase := put r.cqBase } else { r with sqBase := put r.sqBase })

/-- A doorbell (R166, R172): TAIL advances over free slots only; it is wake source 8. -/
def State.writeTail (n : Nat) (v : W32) (s : State) : State :=
  let r := s.ring n
  let z := ringSize r.sqCfg
  let v := fld v 0 12
  if z ≤ v ∨ r.free < (v + z - r.sqTail.toNat) % z then s.errRing n 0
  else (s.modRing n (fun r => { r with sqTail := BitVec.ofNat 12 v })).wakeFire 8

/-- The host returns completion slots (R166); held entries are written while slots are free (R169). -/
def State.writeCqHead (n : Nat) (v : W32) (s : State) : State :=
  let r := s.ring n
  let z := ringSize r.cqCfg
  let v := fld v 0 12
  if z ≤ v ∨ r.unread < (v + z - r.cqHead.toNat) % z then s.errRing n 1
  else (s.modRing n (fun r => { r with cqHead := BitVec.ofNat 12 v })).releaseHeld n 4096

/-- GCP_SQ_CFG_WRITE (R165). -/
def execGcpSqCfgWrite (n : Fin 64) (v : BitVec 32) (s : State) : Host.Outcome State Fault Refusal :=
  .next (s.onBlock (0x60008 + 0x40 * n.val) (State.writeSqCfg n.val v))

/-- GCP_CQ_CFG_WRITE (R165). -/
def execGcpCqCfgWrite (n : Fin 64) (v : BitVec 32) (s : State) : Host.Outcome State Fault Refusal :=
  .next (s.onBlock (0x6001C + 0x40 * n.val) (State.writeCqCfg n.val v))

/-- GCP_TRANSPORT_CFG_WRITE (R188). -/
def execGcpTransportCfgWrite (spi : Bool) (v : BitVec 32) (s : State) : Host.Outcome State Fault Refusal :=
  .next (s.onBlock 0x61000 (State.writeTransport spi v))

/-- GCP_SQ_TAIL_WRITE (R166). -/
def execGcpSqTailWrite (n : Fin 64) (v : BitVec 32) (s : State) : Host.Outcome State Fault Refusal :=
  .next (s.onBlock (0x6000C + 0x40 * n.val) (State.writeTail n.val v))

/-- GCP_CQ_HEAD_WRITE (R166). -/
def execGcpCqHeadWrite (n : Fin 64) (v : BitVec 32) (s : State) : Host.Outcome State Fault Refusal :=
  .next (s.onBlock (0x60020 + 0x40 * n.val) (State.writeCqHead n.val v))

/-! ### Reading a command (R173, R174, R181) -/

/-- Does ring `n` hold a command that the part may read: the interface is available, the part is in RUN with no entry to another
state pending, no entry is held for the ring that its last command named (R120, R169, R190), and every STREAM_OPEN read before has been
admitted or refused, which belongs to its reading (R106, R179; log 23)? -/
def State.readable (s : State) (n : Nat) : Bool :=
  let r := s.ring n
  s.cmds.all (fun c => c.op ≠ 0x0030 || c.phase ≠ .read) &&
  s.glb.ready && !s.glb.resetHeld && s.pmu.dev == .run && s.pmu.entry.isNone && bit r.sqCfg 0 && r.sqHead ≠ r.sqTail &&
  (match r.lastCq with | some q => (s.ring q).held.isEmpty | none => true)

/-- PRIO of a ring (Table 7.9). -/
def Ring.prio (r : Ring) : Nat := fld r.sqCfg 8 2

/-- The ring read next: the highest PRIO, round-robin among equals (R181). -/
def State.nextRing (s : State) : Option Nat :=
  let ready := (List.range 64).filter s.readable
  let top := ready.foldl (fun m n => Nat.max m (s.ring n).prio) 0
  let last := tget 63 s.gcp.lastRing top
  ((List.range 64).map (fun i => (last + 1 + i) % 64)).find? (fun n => ready.contains n && (s.ring n).prio == top)

/-- Bytes of system SRAM; those past its end are open (a free value, log 3). -/
def State.sramRead (s : State) (a n : Nat) : List Byte :=
  (List.range n).map (fun i => if a + i < 0x400000 then mread s.mem (a + i) else Config.freeByte s.fresh (a + i))

/-- The packet at the ring's HEAD: from system SRAM, or what the read over PCIe returned (R165, R173). -/
def State.packetAt (s : State) (n : Nat) (host : HostFetch) : Option (List Byte) :=
  let r := s.ring n
  if bit r.sqCfg 1 then some (s.sramRead (r.sqBase.toNat + 64 * r.sqHead.toNat) 64)
  else if s.hostUp then host.packet else none

/-- The parameters of a packet: inline, or the indirect block; `none` when it cannot be read (R173). -/
def State.paramsOf (s : State) (n : Nat) (p : List Byte) (host : HostFetch) : Option (List Byte) :=
  if !pktIndirect p then some (slice p 24 (pktLen p))
  else if bit (s.ring n).sqCfg 1 then
    (if pktAddr p + pktLen p ≤ 0x400000 then some (mreadN s.mem (pktAddr p) (pktLen p)) else none)
  else if s.hostUp then host.params.map (fun b => slice b 0 (pktLen p)) else none

/-- Does the command have a timer on this part (Table 7.2)? A proxied command's timer runs where it was read (R515). -/
def Cmd.timed (c : Cmd) : Bool := c.timeout.toNat % 2 ^ 31 ≠ 0 && c.proxied.isNone

/-- The timer starts when the command is read, unless its due word is AT or NOT_BEFORE (R61, R185). -/
def Cmd.timerAtRead (c : Cmd) : Bool := c.timed && !(dueIs c.due 0 || dueIs c.due 1)

/-! ### CASCADE_CTRL as it is read (R396-R398) -/

/-- A ring has read every command that it held and the command that ends the binding has taken effect: it leaves its epoch (R398). -/
def Ring.settle (r : Ring) : Ring :=
  if r.unbind = some { tail := none, go := true } then { r with bound := none, unbind := none } else r

/-- HEAD of a ring advances past the command read; one that so reaches the end of what it held has no more to read (R398). -/
def Ring.advance (r : Ring) : Ring :=
  let h := BitVec.ofNat 12 ((r.sqHead.toNat + 1) % ringSize r.sqCfg)
  Ring.settle { r with sqHead := h, unbind := r.unbind.map (fun u => if u.tail = some h then { u with tail := none } else u) }

/-- The end of a ring's binding to epoch `e`: what the ring holds is noted as the command is read, and `go` says that it takes effect (R398). -/
def State.unbind (n e : Nat) (go : Bool) (s : State) : State :=
  s.modRing n (fun r =>
    if r.bound ≠ some e then r
    else
      let u := r.unbind.getD { tail := if r.sqHead = r.sqTail then none else some r.sqTail, go := false }
      Ring.settle { r with unbind := some { u with go := u.go || go } })

/-- OPER of a CASCADE_CTRL; an undefined one is refused by the row of OPEN. -/
def Cmd.ctrlOper (c : Cmd) : Nat := if c.p 0 1 ≤ 6 then c.p 0 1 else 0

/-- The fields of Table 16.4. -/
def Cmd.ctrlOk (c : Cmd) : Bool :=
  let o := c.p 0 1
  let fl := c.p 3 1
  c.params.length == 16 && o ≤ 6 && c.p 6 2 == 0 &&
  (if o ≤ 4 then c.p 1 1 < 48 else if o = 5 then c.p 1 1 < 16 else c.p 1 1 == 0) &&
  (if o = 1 ∨ o = 2 then c.p 2 1 < 64 else if 5 ≤ o then c.p 2 1 ≤ 1 else c.p 2 1 == 0) &&
  (if o = 3 then fl ≤ 3 else fl == 0) && (if o = 0 then 1 ≤ c.p 4 2 && c.p 4 2 ≤ 4096 else c.p 4 2 == 0) &&
  (if o = 3 ∧ bitN fl 0 then c.p 8 8 < 2 ^ 40 else c.p 8 8 == 0)

/-- SLOT of a CASCADE_CTRL. -/
def Cmd.slotNo (c : Cmd) : Nat := c.p 1 1

/-- Hoard pages configured on the part (R397, R400). -/
def State.hoardPages (s : State) : Nat := ((List.range 4).map (fun d => s.hoardBytes d / 4096)).sum

/-- The checks of CASCADE_CTRL (R397), malformed fields first (DEDUCED, log 44). A slot of another tenant is refused like a FREE one. -/
def checkCtrl (s : State) (c : Cmd) : Option Nat :=
  let o := c.p 0 1
  let e := s.epoch c.slotNo
  let r := s.rule c.slotNo
  let ring := (s.ring (c.p 2 1)).sqCfg
  if !c.ctrlOk then some rsBadParam
  else if o = 0 then
    if e.live then some rsJobsActive else if s.hoardPages < c.p 4 2 then some rsNoMemory else none
  else if o ≤ 4 then
    if !e.live || e.tenant ≠ c.tenant then some rsBadHandle
    else if o = 1 ∧ !bit ring 10 ∧ fld ring 16 10 ≠ e.tenant then some rsTenantMismatch
    else if o = 3 ∧ e.commit ≠ some c.id ∧ (e.commit.isSome ∨ e.st = .sealing ∨ e.st = .committing) then some rsJobsActive
    else none
  else if o = 5 ∧ c.p 2 1 = 1 then
    if r.set_ && (s.tenant r.tenant).isSome && (s.image r.image).any (fun i => i.tenant == r.tenant) then none else some rsBadHandle
  else none

/-- A COMMIT that is read seals its epoch (Table 16.3), and the rings bound to it leave it (R398). One that meets an aborting epoch waits for
its end (R403). -/
def State.seal (c : Cmd) (s : State) : State :=
  let e := c.slotNo
  forN 64 (fun n s => s.unbind n e true) (s.modEpoch e (fun x => { x with
    st := if x.st = .opened then .sealing else x.st, commit := some c.id, waitJobs := bitN (c.p 3 1) 1,
    verdict := if bitN (c.p 3 1) 0 then some (c.p 8 8) else none }))

/-- What the reading of a COMMIT or an UNBIND does at once (R396, R398), behind the earlier commands of its ring that name the slot (R397; those
not yet applied put it off to the command's start). -/
def State.readCtrl (c : Cmd) (s : State) : State :=
  if c.op ≠ 0x0061 ∨ checkCtrl s c ≠ none ∨ s.cmds.any (fun d => d.id < c.id && d.sq == c.sq && d.proxied == c.proxied &&
      d.phase ≠ .running && d.op == 0x0061 && d.ctrlOper ≤ 4 && d.slotNo == c.slotNo) then s
  else if c.ctrlOper = 3 then s.seal c
  else if c.ctrlOper = 2 then s.unbind (c.p 2 1) c.slotNo false
  else s

/-- A command enters the outstanding ones. Its timer starts, or with AT or NOT_BEFORE waits for the tick of its due value, whatever else
the command waits for (R61). -/
def State.addCmd (c : Cmd) (s : State) : State :=
  let s1 := { s with cmds := s.cmds ++ [{ c with timer := c.timerAtRead }] }
  if c.timed ∧ !c.timerAtRead then s1.arm (dueTb c.due) (dueVal c.due).toNat (.timer c.id) else s1

/-- A command of a proxied ring (R515): the checks that concern the ring, then it goes to its node in CMD frames that carry the ring, its
PRIV, its identity here, the packet and the indirect block (layout: DESIGN CHOICE, log 14). Its timer runs here. -/
def State.readProxied (s : State) (c : Cmd) (node : BitVec 6) (cfg : W32) (packet : List Byte) : State :=
  let conf := s.confidential c.tenant
  let body := toLe 4 c.id ++ packet ++ (if pktIndirect packet then c.params else [])
  if ((opInfo c.op).any (fun i => i.priv)) && !bit cfg 10 then s.complete c ocRefused rsNotPrivileged
  else if !bit cfg 10 && c.tenant ≠ fld cfg 16 10 then s.complete c ocRefused rsTenantMismatch
  else if c.op = 0x00A0 then s.complete c ocRefused rsBadParam
  else match s.route node.toNat with
    | none => s.complete c ocRefused rsRemoteUnreachable
    | some (_, h) =>
      if conf && !s.key.rackTrusted then s.complete c ocRefused rsNotRackTrusted
      else match s.sendMsg node.toNat 2 c.tenant conf c.sq (at_ (bit cfg 10) 0) body with
        | none => s.complete c ocRefused rsRemoteUnreachable
        | some t => t.addCmd { c with phase := .running, remote := some ((h.head?.map (·.2)).getD 0), path := s.bothWays node.toNat h }

/-- A command of a ring of this part: Table 7.3, the opcodes that a bound ring allows (R398), the parameter block. -/
def State.readLocal (s : State) (c : Cmd) (cfg : W32) (packet : List Byte) (params : Option (List Byte)) (epoch : Option Nat) : State :=
  match headerCheck s cfg packet with
  | some rs => s.complete c ocRefused rs
  | none =>
    if epoch.isSome ∧ c.op ≠ 0x0001 ∧ c.op ≠ 0x0040 ∧ c.op ≠ 0x0041 then s.complete c ocRefused rsBadParam
    else match params with
      | none => s.complete c ocRefused rsParamFetch
      | some b =>
        let k : Cmd := { c with params := b, epoch := epoch, priv := bit cfg 10 }
        (s.addCmd k).readCtrl k

/-- COMMAND_READ (R174, R181): the part reads the command at HEAD of ring `n`, if that ring is next. A command that names a completion ring
with held entries stalls its ring (R169). A ring read over PCIe that fails
sets DMA_ERR and leaves HEAD (DESIGN CHOICE, log 30). -/
def execCommandRead (n : Fin 64) (host : HostFetch) (s : State) : Host.Outcome State Fault Refusal :=
  .next <|
  if s.nextRing ≠ some n.val then s
  else match s.packetAt n.val host with
  | none => s.errRing n.val 5
  | some p =>
    let r := s.ring n.val
    let params := s.paramsOf n.val p host
    let c := cmdOf s.gcp.nextId n.val p (params.getD [])
    let s1 := { s with gcp.nextId := s.gcp.nextId + 1, gcp.lastRing := tset 63 s.gcp.lastRing r.prio n.val, fresh := s.fresh + 1 }
    let s2 := s1.modRing n.val (fun r => { r.advance with lastCq := some c.cq })
    let s3 := if (s2.ring c.cq).held.isEmpty then s2 else s2.errRing n.val 2
    match r.proxy with
    | some node => s3.readProxied c node r.sqCfg p
    | none => s3.readLocal c r.sqCfg p params r.bound

/-! ### Taking effect (R58-R61, R182-R184) -/

/-- The configured objects that a command names (R182, R397): stream handles (1), KV pools (2), images (3), tenants (4), epoch slots
(5). -/
def Cmd.objects (c : Cmd) : List (Nat × Nat) :=
  if 0x0031 ≤ c.op ∧ c.op ≤ 0x0034 then [(1, c.p 0 2)]
  else if c.op = 0x0030 then [(3, c.p 0 2)]
  else if c.op = 0x0021 ∨ c.op = 0x0041 then [(3, c.p 0 2)]
  else if c.op = 0x0051 then [(2, c.p 0 2)]
  else if c.op = 0x0052 then [(2, c.p 2 2)]
  else if c.op = 0x0040 then (opBlocks c.params).filterMap (fun b => if b.id = 0x0400 then some (2, leAt b.attrs 0 2) else none)
  else if 0x0010 ≤ c.op ∧ c.op ≤ 0x0012 then [(4, c.tenant)]
  else if c.op = 0x0060 then (if c.p 0 1 = 0 then [(3, c.p 14 2)] else [])
  else if c.op = 0x0061 then (if c.p 0 1 ≤ 4 then [(5, c.p 1 1)] else [])
  else []

/-- Has an earlier command not taken effect yet? An operator on a KV pool takes effect as it runs. -/
def Cmd.unapplied (c : Cmd) : Bool := c.phase ≠ .running || c.op = 0x0040

/-- The byte ranges that a RUN_OP touches as it starts: records (R321), a STATE record (R360), what the KV unit reads of an ATTENTION operator. -/
def Cmd.startRanges (c : Cmd) : List (Nat × Nat) :=
  if c.op = 0x0040 then (opBlocks c.params).flatMap (fun x =>
    (x.statIdx ++ (if 0x0300 ≤ x.id ∧ x.id ≤ 0x0302 then [if x.id = 0x0302 then 6 else 4] else if x.id = 0x0400 then [1, 2, 4, 5, 7, 8]
      else [])).flatMap (fun i => (x.t i).ranges))
  else []

/-- Does a bridge in RETRAIN hold the traffic that a command causes as it takes effect (R9, R29): that of an operator's start, that to the control
area which a KV_POOL_CREATE makes or to a pool which the command names? -/
def State.cmdHeld (s : State) (c : Cmd) : Bool :=
  (c.op == 0x0050 && s.pathHeld none c.poolOf.ctrl c.poolOf.ctrlLen) ||
  c.startRanges.any (fun r => s.pathHeld none r.1 r.2) ||
  c.objects.any (fun o => o.1 == 2 && (s.pool o.2).any (fun p => s.pathHeld none p.ctrl p.ctrlLen ||
    (c.op == 0x0040 && s.pathHeld none p.base (p.npages * p.pb))))

/-- Does another command hold a spread pool that `c` names, while the parts with its shares answer (R372, R385)? -/
def State.poolAsked (s : State) (c : Cmd) : Bool :=
  s.cmds.any (fun d => d.asking && d.id ≠ c.id && d.objects.any (fun o => o.1 == 2 && c.objects.contains o))

/-- Is command `c` a route switch at its own value, which takes effect behind `d`, a command on the same stream armed for the same SFC value or an
earlier one (R89, R182)? -/
def Cmd.switchesAfter (d c : Cmd) : Bool :=
  let sfc := fun (x : Cmd) => (dueIs x.due 0 || dueIs x.due 1) && dueTb x.due == .sfc
  c.op == 0x0033 && 0x0031 ≤ d.op && d.op ≤ 0x0034 && d.phase == .armed && sfc d && sfc c && (dueVal d.due).toNat ≤ (dueVal c.due).toNat

/-- May a read command start: FENCE waits for every earlier command of its ring, a shared object for the earlier ones that name it
(R182, R183), the KV unit for a bridge that retrains (R29) or for other parts (R385)? -/
def State.mayStart (s : State) (c : Cmd) : Bool :=
  !s.cmdHeld c && !s.poolAsked c &&
  s.cmds.all (fun d => !(d.id < c.id && d.sq = c.sq && d.proxied = c.proxied) ||
    (!c.fence && (!(d.unapplied && d.objects.any (fun o => c.objects.contains o)) || d.switchesAfter c)))

/-- The command under way, with what its due word found. -/
def State.begin_ (c : Cmd) (apply : Cmd → State → State) (s : State) : State :=
  let c := { c with phase := .running }
  apply c (s.modCmd c.id (fun _ => c))

/-- A command of opcode `op` that has been read starts (R58-R61, R174, R182-R184): its own checks, then by its due word it takes
effect now, is armed for its tick, or has missed its deadline. `sel` tells the row's commands among those of the opcode. -/
def State.command (id op : Nat) (sel : Cmd → Bool) (check : State → Cmd → Option Nat) (apply : Cmd → State → State)
    (s : State) : State :=
  match s.cmd id with
  | none => s
  | some c =>
    if c.op ≠ op ∨ !sel c ∨ c.phase ≠ .read ∨ !s.mayStart c then s
    else match check s c with
      | some rs => s.complete c ocRefused rs
      | none =>
        let tb := dueTb c.due
        let v := (dueVal c.due).toNat
        let now := s.tbNow tb
        if dueIs c.due 0 then
          if tbReached tb now v then
            let late := tbLate tb now v
            s.begin_ { c with late := late, timer := c.timed } apply
          else (s.modCmd id (fun c => { c with phase := .armed })).arm tb v (.cmd id)
        else if dueIs c.due 1 then
          if tbReached tb now v then s.begin_ { c with timer := c.timed } apply
          else (s.modCmd id (fun c => { c with phase := .armed })).arm tb v (.cmd id)
        else if dueIs c.due 2 then
          if tbReached tb now v then s.complete c ocTimedOut rsDeadlinePassed
          else (s.arm tb v (.cmd id)).begin_ c apply
        else s.begin_ c apply

/-- The due tick of an armed command (R60, R61): its timer starts, its checks are made again, and it takes effect. -/
def State.dueTick (c : Cmd) (late : Nat) (skipped : Bool) (check : State → Cmd → Option Nat) (apply : Cmd → State → State)
    (s : State) : State :=
  let c := { c with late := if dueIs c.due 0 then late else 0, skipped := dueIs c.due 0 && skipped,
                    timer := c.timed }
  match check s c with
  | some rs => s.complete c ocRefused rs
  | none => s.begin_ c apply

/-- An opcode without parameters of its own: PARAM_LEN is 0 (Table 7.5). -/
def noParams (_ : State) (c : Cmd) : Option Nat := if c.params = [] then none else some rsBadParam

/-- NOP takes effect (R174). -/
def State.applyNop (c : Cmd) (s : State) : State := s.served c []

/-- NOP (R174). -/
def execNop (id : Nat) (s : State) : Host.Outcome State Fault Refusal :=
  .next (s.command id 0x0001 (fun _ => true) noParams State.applyNop)

/-- The checks of ABORT: SQ ring in byte 0, zero in byte 1, the tag in bytes 3:2 (PARAM_LEN 4: DEDUCED, log 31). -/
def checkAbort (_ : State) (c : Cmd) : Option Nat :=
  if c.params.length = 4 ∧ c.p 0 1 < 64 ∧ c.p 1 1 = 0 then none else some rsBadParam

/-- The commands that an ABORT acts on (R177, R193): not itself, not one whose completion arrives in this cycle (`tie`), not a key
walk (R482). -/
def State.abortTargets (s : State) (c : Cmd) (tie : Option Nat) : List Cmd :=
  s.cmds.filter (fun d => d.id ≠ c.id && d.tenant == c.tenant && d.sq == c.p 0 1 && d.tag.toNat == c.p 2 2 &&
    some d.id ≠ tie && d.proxied == c.proxied && !(s.key.walk.any (fun w => w.cmd == d.id)))

/-- ABORT takes effect: its targets complete ABORTED / HOST_ABORT, and it reports how many. -/
def State.applyAbort (tie : Option Nat) (c : Cmd) (s : State) : State :=
  let l := s.abortTargets c tie
  let s1 := l.foldl (fun s d => match s.cmd d.id with
    | some d => s.endCmd d { oc := ocAborted, rs := rsHostAbort }
    | none => s) s
  s1.served c (res2 (Nat.min l.length 65535))

/-- ABORT (R177, R193). -/
def execAbort (id : Nat) (tie : Option Nat) (s : State) : Host.Outcome State Fault Refusal :=
  .next (s.command id 0x0002 (fun _ => true) checkAbort (State.applyAbort tie))

/-- Does the command's traffic use a Shusor link: a proxied command, a pool operation, or a migration to another part (R502)? -/
def State.overLink (s : State) (c : Cmd) : Bool :=
  c.remote.isSome || !c.path.isEmpty || s.streams.any (fun e => e.2.any (fun x => x.migr.any (fun m => m.cmd == c.id && m.port.isSome)))

/-- A command times out with a reason (R186): the saves under way of its jobs complete first (R228). -/
def State.timesOut (c : Cmd) (rs : Nat) (s : State) : State :=
  let s1 := s.finishSaves c.id
  match s1.cmd c.id with
  | some d => s1.endCmd d { oc := ocTimedOut, rs := rs }
  | none => s1

/-- COMMAND_TIMEOUT (R186): the command stops. In a tie the completion (R191), the lost link (R192), the lost die (R44) or the
deadline (R75) prevails, and the timer prevails over an ABORT (R194); a checkpoint under way stays without VALID (R427). -/
def execCommandTimeout (id : Nat) (tie : TimeoutTie) (s : State) : Host.Outcome State Fault Refusal :=
  .next <| match s.cmd id with
  | none => s
  | some c =>
    if !c.timer then s
    else match tie with
      | .alone => s.timesOut c rsTimer
      | .completion => (s.modCmd id (fun c => { c with timer := false })).tie
      | .linkDown => if s.overLink c then s.endCmd c { oc := ocFailed, rs := rsRemoteLinkDown } else s.timesOut c rsTimer
      | .dieLost => s.endCmd c { oc := ocFailed, rs := rsDieLost }
      | .deadline => s.timesOut c (if dueIs c.due 2 then rsDeadlinePassed else rsTimer)
      | .abort => s.timesOut c rsTimer
      | .checkpoint => (s.ckptTorn id).timesOut c rsTimer

/-- A result that arrives for a command that has ended (R186). -/
def State.lateResult (s : State) : State := { s with gcp.lateDrop := satInc s.gcp.lateDrop }

/-! ### Proxied commands (R515) -/

/-- A CMD frame arrives; with the last of a proxied command come the checks of Table 7.3 that do not concern the ring, then it is
outstanding here without a timer. -/
def State.cmdArrives (f : LinkFrame) (s : State) : State :=
  match s.assemble f with
  | (s, none) => s
  | (s, some b) =>
    let p := slice b 4 64
    let params := if pktIndirect p then slice b 68 (pktLen p) else slice p 24 (pktLen p)
    let c := { cmdOf s.gcp.nextId (leAt f.payload 0 1 % 64) p params with
      proxied := some (f.src.toNat % 64), origin := leAt b 0 4, priv := bitN (leAt f.payload 1 1) 0 }
    let s1 := { s with gcp.nextId := s.gcp.nextId + 1 }
    match headerCheck s 0x400 p with
    | some rs => s1.complete c ocRefused rs
    | none => ({ s1 with cmds := s1.cmds ++ [c] } : State).readCtrl c

/-- CMD_FRAME (R515). -/
def execCmdFrame (port : Fin 4) (f : LinkFrame) (s : State) : Host.Outcome State Fault Refusal :=
  .next (if f.ftype = 2 then s.onFrame port.val f (State.cmdArrives f) else s)

/-- The status entry in a CPL frame, whose payload holds the completion ring, IRQ and the entry. -/
def cplStatus (f : LinkFrame) : Status :=
  let b := f.payload.drop 4
  { tag := BitVec.ofNat 16 (leAt b 0 2), op := leAt b 2 2, tenant := bits (leAt b 4 2) 0 10,
    outcome := BitVec.ofNat 3 (bits (leAt b 4 2) 10 3), reason := BitVec.ofNat 16 (leAt b 6 2), late := leAt b 8 4,
    flags := BitVec.ofNat 4 (leAt b 12 1), sq := leAt b 13 1, preempts := leAt b 14 2, sfc := BitVec.ofNat 48 (leAt b 16 6),
    result := slice b 24 8, irq := bitN (leAt f.payload 1 1) 0 }

/-- A completion arrives: it is posted to the ring its command named, or dropped and counted when that command has ended (R16, R186), whatever
later command has its TAG. -/
def State.cplArrives (f : LinkFrame) (s : State) : State :=
  let st := cplStatus f
  match s.cmds.find? (fun c => c.remote.isSome && c.id % 2 ^ 32 == leAt f.payload 36 4 && c.sq == st.sq && c.tag == st.tag) with
  | some c => (s.dropCmd c.id).postStatus c.cq st
  | none => s.lateResult

/-- CPL_FRAME (R515). -/
def execCplFrame (port : Fin 4) (f : LinkFrame) (s : State) : Host.Outcome State Fault Refusal :=
  .next (if f.ftype = 3 then s.onFrame port.val f (State.cplArrives f) else s)

end Sys2Proof.Machine
end

