-- ==== Sys2Proof/Machine/Power.lean ====
section
/-!
DEFINITION. Power (chapter 5): the POWER_STATE command and its refusals (R111-R114, R180), entry to DOZE, TORPOR, HIBERNATE and OFF
(R113, R117, R120), the wake (R115, R116, R119), die states (R109, R555), supply monitors and the throttle (R121, R122), thermal
protection (R123), telemetry, loops and windows (R124-R129, R536), the AUTOWAKE time-out and return (R131).
-/
namespace Sys2Proof.Machine

/-! ### Dies -/

/-- The epochs with work on a die: jobs on its cores, or pages of its Hoard (R113). -/
def State.epochsOn (s : State) (d : Nat) : List Nat :=
  (s.epochs.filter (fun e => (e.2.pages ++ e.2.ctxPages).any (fun p => p.die == d) ||
    (s.epochJobs e.1).any (fun j => onDie d s j.2))).map (·.1)

/-- The job that is being restored onto core `c` is a saved one again (R113, R266): the entry of the core forwards to it, and the signals held
for it reach its slot. -/
def State.restoreOff (c j : Nat) (s : State) : State :=
  let s1 := ((s.freeCore c).modJob j (fun x => { x with st := .saved })).countPreempt j
  let s2 : State := { s1 with sch.dir := tset none s1.sch.dir c (some j) }
  (s.heldFor j).foldl (fun s g => match s.job j with
    | some x => if g.cell < 16 then s.addSaved j x g.cell g.v else s.dropSignal 2
    | none => s) (s2.takeHeld j)

/-- Every BACKGROUND job on core `c` leaves it for its save area, and its pre-emption count increments (R113). -/
def State.preemptOff (c : Nat) (s : State) : State :=
  match (s.core c).phase, (s.core c).job with
  | .running, _ => if s.clsOn c = some .background then (s.preempt c).saveNow c else s
  | .saving, _ => s.saveNow c
  | .restoring, some j => s.restoreOff c j
  | _, _ => s

/-- The steps 1 and 2 of R113 on a die: its BACKGROUND jobs are pre-empted, its epochs abort with cause POWER. -/
def State.drainDie (d : Nat) (s : State) : State :=
  let es := s.epochsOn d
  es.foldl (fun s e => s.abortEpoch e 7) ((dieCores d).foldl (fun s c => s.preemptOff c) s)

/-- The memory of a die that keeps only the DM banks of a mask (R109). -/
def keepBanks (d : Nat) (banks : BitVec 12) (m : List Host.Cell) : List Host.Cell :=
  m.filter (fun c => c.1 < dmBase d || dmBase (d + 1) ≤ c.1 || bit banks ((c.1 - dmBase d) / 0x100000))

/-- A die leaves ON for SLEEP or OFF (R109, R113): its work leaves it, its cores lose their state, DM keeps the selected banks in SLEEP
alone. -/
def State.dieDown (d : Nat) (st : DieSt) (s : State) : State :=
  if (s.die d).power = st then s
  else
    let s1 := s.drainDie d
    let banks := if st = .sleep then tget 0 s1.pmu.retDm d else 0
    let s2 := { s1.dieInit d with mem := keepBanks d banks s1.mem }
    let lost : Bool := (s.die d).bridge == .lost
    (if lost then s2 else s2.bridgeTo d .off).modDie d (fun x => { x with
      power := st, stateOff := true, regulator := st ≠ .off, sfcCopy := 0, checkVal := none, attempts := 0, posRaw := 0, autoPrev := none })

/-- REGULATOR_READY (R555): the die's bring-up proceeds. -/
def execRegulatorReady (d : Fin 4) (s : State) : Host.Outcome State Fault Refusal :=
  let x := s.die d.val
  if x.power = .waking ∧ !x.regulator then
    .next ((s.bridgeTo d.val .off).modDie d.val (fun x => { x with regulator := true, bridge := .training, attempts := 0 }))
  else .next s

/-- REGULATOR_START_TIMEOUT (R555): the die stays OFF, with WARN of its monitor. -/
def execRegulatorStartTimeout (d : Fin 4) (s : State) : Host.Outcome State Fault Refusal :=
  let x := s.die d.val
  if x.power = .waking ∧ !x.regulator then .next ((s.modDie d.val (fun x => { x with power := .off })).errPmu d.val) else .next s

/-! ### POWER_STATE (Tables 5.2, 7.8) -/

/-- Does a byte range touch the DM of die `d`? -/
def touchesDm (d : Nat) (r : Nat × Nat) : Bool := r.2 ≠ 0 && r.1 < dmBase d + dmSize && dmBase d < r.1 + r.2

/-- Is an INTERACTIVE or REALTIME job running or queued on die `d` (Table 5.2)? A waiting job is queued on every die of its mask
(DEDUCED, log 32); an intake command counts on the dies that hold its outputs (R461). -/
def State.busyDie (s : State) (d : Nat) : Bool :=
  s.jobs.any (fun e => match e.2 with
    | none => false
    | some j => j.cls ≠ .background && (onDie d s j || (match j.kind with
      | .block h b => (s.stream h).any (fun x => j.waits && x.homeOf b / 16 == d)
      | _ => j.waits && (fld (s.jobMask j) (16 * d) 16 ≠ 0)))) ||
  s.cmds.any (fun c => c.op == 0x00B0 && c.cls == .interactive && c.phase == .running && c.intakeOut.any (touchesDm d))

/-- Does a job keep its save area in a bank of die `d` outside the mask? -/
def Job.atRisk (d : Nat) (banks : BitVec 12) (j : Job) : Bool :=
  j.slot.isSome && j.epoch.isNone && (List.range 12).any (fun b => !bit banks b &&
    j.slotAddr < dmBase d + (b + 1) * 0x100000 && dmBase d + b * 0x100000 < j.slotAddr + 0xD1000)

/-- Does a running or pre-empted BACKGROUND job keep its save area in a bank of die `d` outside the mask (Table 5.2)? -/
def State.saveAtRisk (s : State) (d : Nat) (banks : BitVec 12) : Bool :=
  s.jobs.any (fun e => e.2.any (fun j => j.cls == .background && j.atRisk d banks))

/-- Is a stream placed on die `d`, or moving to it? -/
def State.streamOnDie (s : State) (d : Nat) : Bool :=
  s.streams.any (fun e => match e.2 with
    | none => false
    | some x => (x.remote.isNone && x.core / 16 == d) || x.migr.any (fun m => m.node.isNone && m.dest / 16 == d))

/-- The device state that a TARGET names (PMU_MODE). -/
def devOf (n : Nat) : Option DevSt :=
  if n = 0 then some .run else if n = 1 then some .doze else if n = 2 then some .torpor else if n = 3 then some .hibernate
  else if n = 4 then some .off else none

/-- The parameters of POWER_STATE that Table 7.8 does not allow. -/
def checkPower (s : State) (c : Cmd) : Option Nat :=
  if c.params.length ≠ 8 ∨ (c.p 0 1 ≠ 0xFF ∧ 4 < c.p 0 1) ∨ c.p 1 1 ≥ 16 ∨ 2 < c.p 2 1 ∨ 1 < c.p 3 1 ∨ c.p 6 2 ≠ 0 ∨
      (List.range 4).any (fun d => bitN (c.p 1 1) d && !bit s.glb.pkgWord d) then some rsBadParam
  else none

/-- The dies named by a mask. -/
def maskDies (m : Nat) : List Nat := (List.range 4).filter (fun d => bitN m d)

/-- Is a source enabled that is valid in the target state (Table 5.3)? -/
def State.wakeable (s : State) (t : DevSt) : Bool := (List.range 12).any (fun i => bit s.pmu.wakeEn i && wakeValid t i)

/-- Table 5.2 from its second line on, then THERMAL_HOLD (R123; its place after the table is DEDUCED, log 32). -/
def State.powerRefusal (s : State) (c : Cmd) : Option Nat :=
  let dev := if c.p 0 1 = 0xFF then none else devOf (c.p 0 1)
  let deep : Bool := dev == some .torpor || dev == some .hibernate
  let gone : Bool := dev == some .hibernate || dev == some .off
  let down := if c.p 2 1 = 0 then [] else maskDies (c.p 1 1)
  let aff := if deep then (List.range 4).filter (fun d => (s.die d).power ≠ .off || down.contains d) else down
  let kept := fun (d : Nat) => if down.contains d && c.p 2 1 = 2 then (0 : BitVec 12) else tget 0 s.pmu.retDm d
  if (deep || dev == some .doze) && !(dev.any s.wakeable) then some rsNoWakeSource
  else if deep && (s.openStreams ≠ 0 || s.anyExcite) || down.any s.streamOnDie then some rsStreamOpen
  else if aff.any s.busyDie then some rsJobsActive
  else if (dev == some .torpor || !down.isEmpty) &&
      (if dev == some .torpor then aff else down).any (fun d => s.saveAtRisk d (kept d)) then some rsSaveNotRetained
  else if gone && s.key.slots.any (fun e => e.1 < 1024 && e.2.valid) then some rsKeysLive
  else if gone && s.key.walk.isSome then some rsJobsActive
  else if gone && s.tdiLocked then some rsTdiLocked
  else if c.p 2 1 = 0 && (maskDies (c.p 1 1)).any (fun d => (s.die d).tripped && (s.die d).maxTemp > 4 * (Int.ofNat s.pmu.warnC.toNat - 10)) then
    some rsThermalHold
  else none

/-- POWER_STATE takes effect (R111, R112, R114, R180, Table 7.8): WAKE_EN, Table 5.2, the die states, the completion, and for a
device state the write of PMU_MODE, after which firmware executes WAIT. -/
def State.applyPower (c : Cmd) (s : State) : State :=
  let s1 := if c.p 3 1 = 1 then { s with pmu.wakeEn := BitVec.ofNat 12 (c.p 4 2) } else s
  match s1.powerRefusal c with
  | some rs => s1.complete c ocRefused rs
  | none =>
    let st := c.p 2 1
    let s2 := (maskDies (c.p 1 1)).foldl (fun s d =>
      if st = 0 then (s.modDie d (fun x => { x with autoPrev := none, tripped := false })).dieOn d
      else s.dieDown d (if st = 1 then .sleep else .off)) s1
    let s3 := if c.p 0 1 = 3 then s2.abortAll rsHibernate (some c.id) else s2
    let s4 := s3.served c []
    match devOf (c.p 0 1) with
    | none => s4
    | some .run => { s4 with pmu.mode := 0 }
    | some t => { s4 with pmu.mode := BitVec.ofNat 3 (devCode t), pmu.entry := some t }

/-- POWER_STATE (R112). -/
def execPowerState (id : Nat) (s : State) : Host.Outcome State Fault Refusal :=
  .next (s.command id 0x0070 (fun _ => true) checkPower State.applyPower)

/-! ### Entry (R113, R117, R120) -/

/-- The camera stops for a power state (R443, R448): the frame in progress and those not written yet are dropped, and their buffers keep
VALID = 0. -/
def State.camPowerStop (s : State) : State :=
  if !s.cam.running then s
  else
    let n := satAdd s.cam.frameDrop (s.cam.output.length + (if s.cam.frame.isSome then 1 else 0))
    let s0 := forN (s.cam.output.length + (if s.cam.frame.isSome then 1 else 0)) (fun i s => s.camVoid i) s
    let s1 := ({ s0 with
      cam.running := false, cam.stopping := [], cam.frame := none, cam.output := [], cam.lanesHs := 0, cam.clkActive := false,
      cam.deskew := false, cam.frameDrop := n }.disarm .trig).errCam 6
    s.cam.stopping.foldl (fun s id => match s.cmd id with
      | some c => s.served c (res4 s.cam.lastSeq.toNat)
      | none => s) s1

/-- Is a walk paused by the throttle or by TORPOR (R483)? -/
def State.pauseWalk (s : State) : State :=
  { s with key.paused := s.key.walk.isSome && (s.pmu.throttle || s.pmu.dev == .torpor) }

/-- The enabled pending source that aborts the entry to a state (R120), the lowest of several, of which the spec does not say which PMU_LAST
names (DESIGN CHOICE, log 133). -/
def State.pendingFor (s : State) (t : DevSt) : Option Nat :=
  (List.range 12).find? (fun i => bit s.pmu.wakePend i && bit s.pmu.wakeEn i && (t == .off || wakeValid t i))

/-- The entry is aborted (R120): nothing is lost, the source stays pending. -/
def State.entryAborted (t : DevSt) (i : Nat) (s : State) : State :=
  { s with pmu.entry := none, pmu.lastResult := 2, pmu.lastState := BitVec.ofNat 3 (devCode t), pmu.lastSource := BitVec.ofNat 4 i,
           pmu.irq := true }

/-- The Dormouse banks that HIBERNATE does not retain lose their contents (R141). -/
def keepDormouse (banks : BitVec 9) (m : List Host.Cell) : List Host.Cell :=
  m.filter (fun c => !(dormBase ≤ c.1 && c.1 < dormBase + 0x80000) || bit banks ((c.1 - dormBase) / 0x10000))

/-- Base of the firmware reserve in the highest 4 MiB of LPDDR (R116). -/
def State.reserveBase (s : State) : Nat := lpddrBase + s.build.lpddrGib * 2 ^ 30 - 0x400000

/-- TORPOR is reached (R113, R472, R443, R483, R512): ON dies sleep, LPDDR refreshes itself, the camera stops, walks pause. -/
def State.enterTorpor (s : State) : State :=
  let on : BitVec 4 := BitVec.ofNat 4 ((List.range 4).map (fun d => at_ ((s.die d).power == .on || (s.die d).power == .waking) d)).sum
  let s1 := forN 4 (fun d s => if bit on d then s.dieDown d .sleep else s) s
  let s2 := { s1 with pmu.onDies := on, pmu.lpddrRefresh := true, pmu.dev := .torpor, pmu.entry := none,
                      slk.ports := s1.slk.ports.map (fun (e : Nat × SlkPort) => (e.1, { e.2 with powerOff := decide (e.2.st = SlkSt.up) })) }
  s2.camPowerStop.pauseWalk

/-- HIBERNATE is reached (R51, R113, R115, R116, R141, R512): the island saves the SFC; only its retained banks, and LPDDR with
LPDDR_KEEP, keep their contents. -/
def State.enterHibernate (s : State) : State :=
  let keep := bit s.pmu.retAon 8 && s.memc.trained
  let len := 0x100 + leNat (mreadN s.mem (s.reserveBase + 0xC) 4)
  let s1 := forN 64 (fun e s => s.abortEpoch e 7) s.camPowerStop
  let m1 := forN 4 (fun d m => mzero m (dmBase d) (dmBase d + 0x1000000)) (mzero (keepDormouse s1.pmu.retAon s1.mem) 0 0x400000)
  let m2 := if keep then m1 else mzero m1 lpddrBase hostBase
  { s1 with
    pmu.dev := .hibernate, pmu.entry := none, pmu.lpddrRefresh := keep, pmu.resume := if keep then some len else none,
    tb.carry := some (s1.tb.sfc, 0), tb.sfcRunning := false, glb.mgrRunning := false, glb.ready := false,
    mem := m2, key.unitKey := if keep then s1.key.unitKey else [], key.slots := [],
    jobs := [], cores := [], streams := [], caps := [], itk := { err := s1.itk.err }, sch.signals := [], sch.dir := [],
    dies := s1.dies.map (fun (e : Nat × Die) => (e.1, { e.2 with bridge := .off, power := .off, regulator := false })),
    slk.ports := s1.slk.ports.map (fun (e : Nat × SlkPort) => (e.1, { e.2 with powerOff := decide (e.2.st = SlkSt.up), st := .disabled })) }

/-- OFF is reached (R117): PMIC_EN low, nothing is retained. -/
def State.enterOff (s : State) : State :=
  { State.reset with
    build := s.build, hostOut := s.hostOut, fresh := s.fresh, pending := s.pending, pmu.dev := .off, pmu.pmicEn := false,
    memc.linkUp := false, glb.strapLatched := true }

/-- POWER_ENTRY (R111, R113, R120): firmware's WAIT retires. A source already pending aborts the entry at once; one that fires during
it (`pending`) aborts it after the steps of R113. -/
def execPowerEntry (pending : Option (Fin 12)) (s : State) : Host.Outcome State Fault Refusal :=
  .next <| match s.pmu.entry with
  | none => s
  | some t =>
    match s.pendingFor t with
    | some i => s.entryAborted t i
    | none =>
      let s1 := if t = .torpor ∨ t = .hibernate then forN 4 (fun d s => s.drainDie d) s else s
      let s2 := match pending with
        | some i => s1.wakeFire i.val
        | none => s1
      match s2.pendingFor t with
      | some i => s2.entryAborted t i
      | none => match t with
        | .run => { s2 with pmu.entry := none }
        | .doze => { s2 with pmu.entry := none, pmu.dev := .doze }
        | .torpor => s2.enterTorpor
        | .hibernate => s2.enterHibernate
        | .off => s2.enterOff

/-! ### Wake (R115, R116, R119) -/

/-- Naleog firmware is up (R190, R472, R109, Table 3.9): LPDDR is trained or unmapped with TRAIN_FAIL, the image's copy is kept in the
firmware reserve (R116), the populated dies are released (log 33), READY is set, and the commands that a warm reset ended complete
(R71). -/
def State.firmwareUp (s : State) : State :=
  let s1 := if s.build.lpddrTrains then
      let s1 := { s with memc.trained := true, pmu.lpddrRefresh := false }
      { s1 with mem := mwrite s1.mem s1.reserveBase (mreadN s1.mem 0 (0x100 + leNat (mreadN s1.mem 0xC 4))) }
    else { s with memc.trained := false }.rise { s with memc.trained := false, memc.err := setBit s.memc.err 4 }
  let s2 := forN 4 (fun d s => if bit s.glb.pkgWord d && !(s.die d).tripped then s.dieOn d else s) s1
  { s2 with glb.ready := true }.payOwed

/-- The part is in RUN: what a wake from `was` by source `i` records (R119). -/
def State.wokeFrom (was : DevSt) (i : Nat) (s : State) : State :=
  { s with
    pmu.lastResult := 1, pmu.lastState := BitVec.ofNat 3 (devCode was), pmu.lastSource := BitVec.ofNat 4 i, pmu.irq := true,
    pmu.dev := .run, pmu.wakeSource := none }

/-- The firmware after HIBERNATE (R116): the retained copy, verified in full, or a load; a copy that fails leaves its code. -/
def State.restoreFirmware (kept : Option Nat) (s : State) : State :=
  match kept with
  | some len =>
    let image := mreadN s.mem s.reserveBase len
    if imageError image = 0 then { s with mem := mwrite s.mem 0 image, glb.stage := 3, glb.source := 2 }.firmwareUp
    else { s.bootLoad with glb.bootError := BitVec.ofNat 4 (imageError image) }
  | none => s.bootLoad

/-- The exit from HIBERNATE (R115, R136): the rails that have crossed VWARN while the throttle holds keep their WARN bits. -/
def State.leaveHibernate (i : Nat) (s : State) : State :=
  let s0 := s.initWarm true
  ((({ s0 with
    glb.mgrRunning := true, pmu.throttle := s.pmu.throttle, pmu.crossed := s.pmu.crossed, pmu.resume := none,
    pmu.supErr := (if s.pmu.throttle then s.pmu.crossed else 0).setWidth 31 }).wokeFrom .hibernate i).resumeSfc).restoreFirmware
      s.pmu.resume

/-- WAKE_DONE (R115, R116, R119, R136): the wake that a source started reaches RUN. -/
def execWakeDone (s : State) : Host.Outcome State Fault Refusal :=
  .next <| match s.pmu.wakeSource with
  | none => s
  | some i =>
    match s.pmu.dev with
    | .doze => s.wokeFrom .doze i
    | .torpor =>
      let s1 := forN 4 (fun d s => if bit s.pmu.onDies d then s.dieOn d else s) s
      let s2 := { s1.wokeFrom .torpor i with
        pmu.onDies := 0, pmu.lpddrRefresh := false,
        slk.ports := s1.slk.ports.map (fun (e : Nat × SlkPort) =>
          (e.1, if e.2.powerOff then { e.2 with st := .detect, retraining := false, attempts := 0 } else e.2)) }
      s2.pauseWalk.linkChanged
    | .hibernate => s.leaveHibernate i
    | _ => s

/-! ### Supplies (R121, R122, Table 5.4) -/

/-- Is monitor `n` watching its rail (R122)? A rail that a power state has turned off is not monitored; the wake from HIBERNATE turns the
rails of the IOD, LPDDR and the PHYs on (R136). -/
def State.monitored (s : State) (n : Nat) : Bool :=
  match s.pmu.dev with
  | .off => false
  | .hibernate => n == 5 || (s.pmu.lpddrRefresh && 6 ≤ n && n ≤ 8) || (s.pmu.wakeSource.isSome && 4 ≤ n)
  | _ => if n < 4 then (s.die n).regulator || (s.die n).power == .on else true

/-- SUPPLY_VWARN (R121, R483): WARN is set, SUP_WARN is raised (Table 22.2) and the compute clocks run at a quarter; a block under way that
overruns reports SUPPLY_THROTTLE (R94). -/
def State.vwarn (n : Nat) (s : State) : State :=
  let s1 := { s with pmu.throttle := true, pmu.crossed := setBit s.pmu.crossed n, pmu.irq := true }
  let mark := fun (x : Stream) => { x with blocks := x.blocks.map (fun (b : Block) => if b.delivered then { b with throttled := true } else b) }
  let s2 := { s1 with streams := s1.streams.map (fun (e : Nat × Option Stream) => (e.1, e.2.map mark)) }
  ((s2.errPmu n).faultTrig s 4).pauseWalk

/-- SUPPLY_VWARN (R121). -/
def execSupplyVwarn (n : Fin 11) (s : State) : Host.Outcome State Fault Refusal :=
  .next (if s.monitored n.val then s.vwarn n.val else s)

/-- THROTTLE_RELEASE (R121). -/
def execThrottleRelease (s : State) : Host.Outcome State Fault Refusal :=
  .next (({ s with pmu.throttle := false, pmu.crossed := 0 } : State).pauseWalk)

/-- SUPPLY_VRESET (R122, R133, R135, Table 5.4): VRST, with WARN when both levels are crossed at once, then the rail's response. -/
def execSupplyVreset (n : Fin 11) (warn : Bool) (also : AlsoReset) (s : State) : Host.Outcome State Fault Refusal :=
  if !s.monitored n.val then .next s
  else
    let s1 := (if warn then s.vwarn n.val else s).errPmu (11 + n.val)
    if n.val < 4 then .next (s1.dieReset n.val)
    else if n.val = 5 then execColdReset true s.glb.pkgWord s.glb.banks also s1
    else if n.val = 9 ∨ n.val = 10 then
      .next (forN 4 (fun p s => s.slpReset p) ((s1.pcieReset false).usbReset.camPortReset))
    else .next (s1.warm 7 none also)

/-! ### Temperature (R123, R139) -/

/-- The highest of the readings and its sensor (R124), the lowest of several that share it, of which the spec does not say which is reported
(DESIGN CHOICE, log 134). -/
def hottest (l : List Int) : Int × Nat :=
  (l.zipIdx.foldl (fun (o : Option (Int × Nat)) e => match o with
    | none => some e
    | some g => if g.1 < e.1 then some e else some g) none).getD (0, 0)

/-- A thermal trip (R123): the die goes OFF, its jobs fail with THERMAL_TRIP. -/
def State.thermalTrip (d : Nat) (s : State) : State :=
  let s1 := (((s.dropSignalsTo d).dieGone d rsThermalTrip 9).dieInit d).bridgeTo d .off
  (s1.modDie d (fun x => { x with power := .off, regulator := false, tripped := true, sfcCopy := 0, posRaw := 0, checkVal := none,
                                  autoPrev := none })).errPmu (26 + d)

/-- THERMAL_SAMPLE (R123): eight readings in units of 0.25 °C. -/
def execThermalSample (d : Fin 4) (temps : List Int) (s : State) : Host.Outcome State Fault Refusal :=
  .next <|
  let h := hottest temps
  let s1 := s.modDie d.val (fun x => { x with
    maxTemp := h.1, sensor := BitVec.ofNat 3 h.2, maxTempMs := if x.maxTempMs < h.1 then h.1 else x.maxTempMs })
  let s2 := if h.1 > 4 * Int.ofNat s.pmu.warnC.toNat then { s1 with pmu.irq := true }.errPmu (22 + d.val) else s1
  if s.pmu.dev = .off ∨ s.pmu.dev = .hibernate then s
  else if h.1 > 460 ∧ (s2.die d.val).power ≠ .off then s2.thermalTrip d.val else s2

/-! ### Telemetry, loops and windows (R124-R129, R137, R536) -/

/-- What a loop settles on (R125, R126, R137): software limits outrank the loop's choice, which outranks the floors; the value,
whether it is pinned, and up (true) or down. -/
def loopValue (lo hi choice : Nat) : Nat × Bool × Bool :=
  if hi < lo then (hi, true, true)
  else if hi < choice then (hi, true, true)
  else if choice < lo then (lo, true, false)
  else (choice, false, false)

/-- The largest frequency that an open reservation on die `d` was admitted at, a migration's second one included (R128, R211, R220). -/
def State.reservedMax (s : State) (d : Nat) : Nat :=
  s.streams.foldl (fun m e => match e.2 with
    | some x =>
      let m := if x.core / 16 = d ∧ x.remote.isNone then Nat.max m x.fmax else m
      (match x.migr with
      | some g => if g.node.isNone && g.dest / 16 == d then Nat.max m g.fmax else m
      | none => m)
    | none => m) 0

/-- TELEMETRY_MESSAGE (R124-R126, R211): the message's readings, beside the hottest sensor of the last sample, and the loops' choices, which
are free values within the windows (log 3); the frequency that an open reservation was admitted at is a floor as FMIN is. The one
DIR bit of a die shows the DVFS loop's direction where both loops are pinned (DESIGN CHOICE, log 122). -/
def execTelemetryMessage (d : Fin 4) (mv : Nat) (ma10 : Nat) (s : State) : Host.Outcome State Fault Refusal :=
  .next <|
  if s.pmu.dev = .off ∨ s.pmu.dev = .hibernate then s else
  let w := tget dvfsReset s.pmu.dvfs d.val
  let a := tget avsReset s.pmu.avs d.val
  let f := loopValue (Nat.max (fld w 0 6) (s.reservedMax d.val)) (fld w 8 6) (Config.dvfsChoice s.fresh d.val)
  let v := loopValue (fld a 0 6) (fld a 8 6) (Config.avsChoice s.fresh d.val)
  let s1 := s.modDie d.val (fun x => { x with
    mv := mv, ma10 := ma10, clk := f.1, avsTarget := 550 + 5 * v.1,
    pinned := f.2.1 || v.2.1, pinDir := if f.2.1 then f.2.2 else v.2.2 })
  { s1 with fresh := s1.fresh + 1 }

/-- The six bytes of die `d` in a telemetry entry (Table 22.3). -/
def State.dieEntry (s : State) (d : Nat) : List Byte :=
  let x := s.die d
  let fl := toLe 1 (dieCode x.power + at_ s.pmu.throttle 2 + at_ x.pinned 3 + at_ x.pinDir 4)
  if x.power = .off then List.replicate 5 0 ++ fl
  else toLe 2 (unsgn 16 x.maxTempMs) ++ toLe 1 ((x.mv - 550) / 5) ++ toLe 1 x.clk ++ toLe 1 (Nat.min 255 (x.ma10 / 10)) ++ fl

/-- May the power manager lower core `c` to a divider code, which divides by 1, 2 or 4 (R127, Table 9.13): it runs BACKGROUND or INTERACTIVE
work, holds no realtime reservation, and does not fall below FMIN? -/
def State.mayDivide (s : State) (c : Nat) (code : BitVec 2) : Bool :=
  let w := tget dvfsReset s.pmu.dvfs (c / 16)
  code.toNat ≤ 2 && (s.core c).div.toNat < code.toNat && s.coreDensity c == 0 && fld w 0 6 * 2 ^ code.toNat ≤ (s.die (c / 16)).clk && (s.clsOn c).isSome && s.clsOn c ≠ some .realtime

/-- The cores that the power manager lowers next (R127): those with BACKGROUND work that can be lowered a step, with none left those with
INTERACTIVE work. -/
def State.lowerable (s : State) : List Nat :=
  let able := (List.range 64).filter (fun c => s.mayDivide c ((s.core c).div + 1))
  let bg := able.filter (fun c => s.clsOn c = some .background)
  if bg.isEmpty then able else bg

/-- TELEMETRY_LOG_WRITE (R124, R127, R536): the readings of the IOD and the island, and the entry of the millisecond. Over PMU_PKG_LIMIT
the power manager lowers dividers of the cores that come next: those it chooses (`divs`), else the lowest core by one step; with no
core left to lower PKG_OVER is set with every die pinned down. A divider that it has lowered never rises again, of which the spec says
nothing (DESIGN CHOICE, log 132). -/
def execTelemetryLogWrite (mw : Nat) (divs : List (Fin 64 × BitVec 2)) (iod : Reading) (aon : Reading) (s : State) :
    Host.Outcome State Fault Refusal :=
  .next <|
  if s.pmu.dev = .hibernate ∨ s.pmu.dev = .off then s
  else
    let e := toLe 6 s.tb.sfc.toNat ++ toLe 2 (Nat.min mw 65535) ++ (List.range 4).flatMap s.dieEntry
    let s1 := { s with
      obs.tlog := tset [] s.obs.tlog s.obs.tlogHead.toNat e, obs.tlogHead := s.obs.tlogHead + 1, obs.tlogCount := s.obs.tlogCount + 1,
      pmu.iodRead := iod, pmu.aonRead := aon }
    let s2 := forN 4 (fun d s => s.modDie d (fun x => { x with maxTempMs := x.maxTemp })) s1
    if mw ≤ s.pmu.pkgLimit.toNat then { s2 with pmu.pkgOver := false }
    else
      match s2.lowerable with
      | [] =>
        forN 4 (fun d s => if s.dieUp d then s.modDie d (fun x => { x with pinned := true, pinDir := false }) else s)
          { s2 with pmu.pkgOver := true }
      | c :: l =>
        let use := divs.filter (fun p => (c :: l).contains p.1.val && s2.mayDivide p.1.val p.2)
        let s3 : State := { s2 with pmu.pkgOver := false }
        if use.isEmpty then s3.modCore c (fun x => { x with div := x.div + 1 })
        else use.foldl (fun s p => s.modCore p.1.val (fun x => { x with div := p.2 })) s3

/-- A write to PMU_DVFS_d or PMU_AVS_d (R128, R129). -/
def State.writeWindow (avs : Bool) (d : Nat) (v : W32) (s : State) : State :=
  let v := v &&& 0x3F3F
  if avs then
    (if 60 < fld v 8 6 then s.errPmu 30 else { s with pmu.avs := tset avsReset s.pmu.avs d v })
  else if 48 < fld v 8 6 ∨ (fld v 8 6 < fld (tget dvfsReset s.pmu.dvfs d) 8 6 ∧ fld v 8 6 < s.reservedMax d) then s.errPmu 30
  else { s with pmu.dvfs := tset dvfsReset s.pmu.dvfs d v }

/-- PMU_WINDOW_WRITE (R128). -/
def execPmuWindowWrite (avs : Bool) (d : Fin 4) (v : BitVec 32) (s : State) : Host.Outcome State Fault Refusal :=
  .next (s.writeWindow avs d.val v)

/-! ### AUTOWAKE (R131, R138) -/

/-- A woken die returns to state `st` (R131). R113 pre-empts its BACKGROUND jobs; the work that Table 5.2 would protect from a POWER_STATE
command ends as with a die reset: the other jobs and those whose save area is lost fail for a reason that is not stated, and its streams
fall back (DESIGN CHOICE, log 34). -/
def State.dieReturns (d : Nat) (st : DieSt) (s : State) : State :=
  let f := (s.drainDie d).draw
  let rs := pickReason (Config.freeWord f.1 0).toNat
  let banks := if st = .sleep then tget 0 f.2.pmu.retDm d else 0
  let s1 := f.2.failJobs (fun j => (j.st ≠ .saved && onDie d f.2 j) || (j.st == .saved && j.atRisk d banks)) rs 9
  (s1.streamsGone d rs).dieDown d st

/-- AUTOWAKE_IDLE_RETURN (R131): a block woken by AUTOWAKE returns to its previous state. -/
def execAutowakeIdleReturn (b : WakeBlock) (s : State) : Host.Outcome State Fault Refusal :=
  .next <| match b with
  | .die d => match (s.die d.val).autoPrev with
    | some p => if (s.die d.val).power = .on then s.dieReturns d.val p else s
    | none => s
  | w => { s with pmu.woken := s.pmu.woken.filter (fun x => x ≠ w) }

end Sys2Proof.Machine
end

