-- ==== Sys2Proof/Machine/Dormouse.lean ====
section
/-!
DEFINITION. The Dormouse island (chapter 6): comparators and wake pins (R143-R145), PDM microphones (R146, R147), RTC, alarm and timer
(R148), the sequencer (R149-R153), the Shrew engine (R154), tier-0 decisions (R155-R157), and writes to the AON registers.
-/
namespace Sys2Proof.Machine

/-! ### The FLL and the event latch (R142, R152) -/

/-- Does anything need the AON FLL (R142)? -/
def State.fllNeeded (s : State) : Bool :=
  (!s.aon.seq.halted && !s.aon.seq.waiting) || fld s.aon.pdmCtrl 0 4 ≠ 0 || s.aon.shrewBusy

/-- Is the AON FLL locked (CLK_PLL_STATUS bit 16)? -/
def State.fllOn (s : State) : Bool := bit s.clk.lock 16

/-- The FLL runs while something needs it and stops when nothing does (R142). -/
def State.fllUpdate (s : State) : State := { s with clk.lock := putBit s.clk.lock 16 s.fllNeeded }

/-- The sequencer's register `i`: w0 reads 0. -/
def Seq.reg (q : Seq) (i : Nat) : W32 := if i = 0 then 0 else tget 0 q.w i
/-- A write to the sequencer's register `i`: one to w0 is ignored. -/
def Seq.set (q : Seq) (i : Nat) (v : W32) : Seq := if i = 0 then q else { q with w := tset 0 q.w i v }
/-- The instruction at the PC. -/
def Seq.instr (q : Seq) : W32 := tget 0 q.prog q.pc

/-- The event bits that a level event holds set (R144). -/
def State.heldEvents (s : State) : BitVec 11 := s.pmu.levelHeld.setWidth 11

/-- The next PC: one beyond 4,095 faults with PC_RANGE (R153), which clears RUN as every fault does (log 135). -/
def State.seqNext (n : Nat) (s : State) : State :=
  if n < 4096 then { s with aon.seq.pc := n }
  else ({ s with aon.seq.pc := n % 4096, aon.seq.fault := 6, aon.seq.run := false, aon.seq.halted := true, aon.seq.waiting := false }.errAon 0).fllUpdate

/-- WAITEV retires with the latched events of its mask, which are cleared but for those a level holds (R144, R152). -/
def State.seqRetire (s : State) : State :=
  let q := s.aon.seq
  let m : BitVec 11 := BitVec.ofNat 11 (qImm q.instr)
  let got := q.latch &&& m
  let q2 := q.set (qD q.instr) (got.setWidth 32)
  ({ s with aon.seq := { q2 with latch := (q.latch &&& ~~~ m) ||| (got &&& s.heldEvents), waiting := false } } : State).seqNext (q.pc + 1)

/-- Does the sequencer wait in a WAITEV whose mask holds a latched event? -/
def State.seqReady (s : State) : Bool :=
  s.aon.seq.waiting && (s.aon.seq.latch &&& BitVec.ofNat 11 (qImm s.aon.seq.instr)) ≠ 0

/-- Event `i` of Table 6.3: the latch is set; a waiting sequencer resumes at once while the FLL runs, else once it has locked (R142,
R152). -/
def State.seqEvent (i : Nat) (s : State) : State :=
  let s1 := { s with aon.seq.latch := setBit s.aon.seq.latch i }
  if s1.seqReady && s1.fllOn then s1.seqRetire else s1

/-- FLL_LOCK (R142): the FLL has locked again and the waiting sequencer resumes. -/
def execFllLock (s : State) : Host.Outcome State Fault Refusal :=
  if s.seqReady then .next ({ s with clk.lock := setBit s.clk.lock 16 }.seqRetire) else .next s

/-! ### Comparators and wake pins (R143-R145) -/

/-- The configuration of input `i`: CMP_INST, CMP_MAINS, WAKE0-WAKE3. -/
def State.inputCfg (s : State) (i : Nat) : W32 := if i < 2 then tget cmpReset s.aon.cmp i else tget 0 s.aon.wakepin (i - 2)

/-- The wake source and event number of input `i` (Tables 5.3, 6.3). -/
def inputEvent (i : Nat) : Nat := if i < 2 then i else i + 1

/-- Is the level event of input `i` asserted (R144)? -/
def State.levelOn (s : State) (i : Nat) : Bool :=
  let c := s.inputCfg i
  bit c 14 && bit c 10 && (bit s.aon.inputs i != bit c 11)

/-- An input's level event takes its present value: asserted, it holds its latch and its pending bit. -/
def State.levelUpdate (i : Nat) (s : State) : State :=
  let e := inputEvent i
  if s.levelOn i then
    if bit s.pmu.levelHeld e then s
    else (({ s with pmu.levelHeld := setBit s.pmu.levelHeld e } : State).seqEvent e).wakeFire e
  else { s with pmu.levelHeld := putBit s.pmu.levelHeld e false }

/-- Is the time between two rising mains crossings, in RTC ticks, that of 45 to 65 Hz (R53)? -/
def mainsInRange (ticks : Nat) : Bool := 45 * ticks ≤ 32768 && 32768 ≤ 65 * ticks

/-- A rising mains crossing on IOD revision 2 (R53, R145). In HIBERNATE and in the reset of a lost REFCLK the island counts the cycle
(R69). Otherwise a cycle in range ends at the crossing, where the phase wraps, and after 4 consecutive ones MPC_LOCK sets; one out of range
starts the count anew. While the MPC freewheels or holds it follows the crossings again from the lock on (DESIGN CHOICE, log 111). -/
def State.mainsRise (s : State) : State :=
  let s1 : State := { s with tb.mainsAt := s.aon.rtc }
  if !s.rev2 then s
  else if s.pmu.dev = .hibernate ∨ s.glb.resetHeld then { s1 with tb.mpc := s.tb.mpc + 65536 }
  else if s.tb.mpcCrossings = 0 ∨ !mainsInRange (s.aon.rtc - s.tb.mainsAt).toNat then { s1 with tb.mpcCrossings := 1 }
  else
    let wrap := 65536 - s.tb.mpc.toNat % 65536
    if 4 ≤ s.tb.mpcCrossings then
      { s1 with tb.mpcCrossings := 5, tb.mpcMode := .locked, tb.mpcLock := true, tb.freewheelCycles := 0 }.mpcAdvance wrap
    else
      let s2 : State := { s1 with tb.mpcCrossings := s.tb.mpcCrossings + 1 }
      if s.tb.mpcMode = .locked ∨ s.tb.mpcMode = .idle then s2.mpcAdvance wrap else s2

/-- A recognised crossing of input `i` (R144, R145): an edge event, or the level event's new value; a rise of CMP_MAINS reaches the MPC
whatever MODE, POL and EN are. -/
def State.crossing (i : Nat) (high : Bool) (s : State) : State :=
  let s1 : State := { s with aon.inputs := putBit s.aon.inputs i high, aon.glitch := tset 0 s.aon.glitch i 0 }
  let s2 := if i = 1 ∧ high then s1.mainsRise else s1
  let c := s2.inputCfg i
  if !bit c 14 then s2
  else if bit c 10 then s2.levelUpdate i
  else if high != bit c 11 then (s2.seqEvent (inputEvent i)).wakeFire (inputEvent i)
  else s2

/-- The RTC ticks for which an input must stay past its threshold (R143). -/
def deglitch (c : W32) : Nat := [0, 1, 2, 4].getD (fld c 12 2) 0

/-- Input `i` takes a level (R143): without deglitching the crossing is recognised at once, else the ticks are counted anew. -/
def State.inputLevel (i : Nat) (high : Bool) (s : State) : State :=
  if s.pmu.dev = .off ∨ bit s.aon.raw i = high then s
  else
    let s1 : State := { s with aon.raw := putBit s.aon.raw i high }
    if high ≠ bit s.aon.inputs i ∧ deglitch (s.inputCfg i) = 0 then s1.crossing i high
    else { s1 with aon.glitch := tset 0 s.aon.glitch i 0 }

/-- An RTC tick passes for input `i` (R143): a level that has stayed for DEGLITCH ticks is recognised. -/
def State.inputTick (i : Nat) (s : State) : State :=
  if bit s.aon.raw i = bit s.aon.inputs i then s
  else
    let n := tget 0 s.aon.glitch i + 1
    if deglitch (s.inputCfg i) ≤ n then s.crossing i (bit s.aon.raw i)
    else { s with aon.glitch := tset 0 s.aon.glitch i n }

/-- The level of comparator `i` (R143): high above its threshold, low below the threshold less HYST, else as it was. -/
def State.cmpHigh (s : State) (i : Nat) : Bool :=
  let c := s.inputCfg i
  let thr : Int := Int.ofNat (fld c 0 8 * (if i = 0 then 2 else 4))
  let mv := tget 0 s.aon.cmpMv i
  if thr < mv then true
  else if mv < thr - Int.ofNat ([0, 4, 8, 16].getD (fld c 8 2) 0) then false
  else bit s.aon.raw i

/-- The sense input of comparator `i` moves to `mv` mV: INST_SENSE against INST_REF, MAINS_SENSE (R143). -/
def State.cmpInput (i : Nat) (mv : Int) (s : State) : State :=
  let s1 : State := { s with aon.cmpMv := tset 0 s.aon.cmpMv i mv }
  s1.inputLevel i (s1.cmpHigh i)

/-- CMP_INST_CROSSING (R143, R144): INST_SENSE moves to `mv` mV above INST_REF. -/
def execCmpInstCrossing (mv : Int) (s : State) : Host.Outcome State Fault Refusal := .next (s.cmpInput 0 mv)

/-- CMP_MAINS_CROSSING (R143, R145): MAINS_SENSE moves to `mv` mV. -/
def execCmpMainsCrossing (mv : Int) (s : State) : Host.Outcome State Fault Refusal := .next (s.cmpInput 1 mv)

/-- WAKE_PIN_EVENT (R144): the pin takes a level. -/
def execWakePinEvent (n : Fin 4) (high : Bool) (s : State) : Host.Outcome State Fault Refusal := .next (s.inputLevel (2 + n.val) high)

/-! ### PDM (R146, R147, R159) -/

/-- The frequency of PDM_CLK in Hz (R146): none is driven while no microphone is enabled. -/
def pdmClkHz (v : W32) : Nat := if fld v 0 4 = 0 then 0 else [1024000, 2048000, 3072000].getD (fld v 4 2) 0

/-- The microphones that MIC_EN enables, in order. -/
def pdmMics (v : W32) : List Nat := (List.range 4).filter (bit v)

/-- The bits of microphone `m`: data line m / 2, the rising edges for an even and the falling edges for an odd one, which alternate on a
line (R146). -/
def pdmBits (dat0 dat1 : List Bool) (m : Nat) : List Bool :=
  ((if m < 2 then dat0 else dat1).zipIdx.filter (fun e => e.2 % 2 == m % 2)).map (·.1)

/-- Sample `i` of a microphone whose filter holds `held` (R146): the decimated value, a free value, with the digital gain; a step of 6 dB doubles, and the result
saturates to 16 bits (DESIGN CHOICE, log 123). -/
def pdmSample (v : W32) (held : Nat) (bits : List Bool) (i : Nat) : BitVec 16 :=
  BitVec.ofInt 16 (satS 16 (Config.pdmPcm (pdmClkHz v) held bits i * Int.ofNat (2 ^ fld v 6 3)))

/-- The frames of a block (AON_PDM_CTRL.BLK). -/
def pdmFrames (v : W32) : Nat := 16 * 2 ^ fld v 9 2
/-- The bytes of a block: one 16-bit sample per enabled microphone and frame. -/
def pdmBytes (v : W32) : Nat := pdmFrames v * 2 * popcount (fld v 0 4) 4

/-- Is an island SRAM byte powered (R141)? -/
def State.bankOn (s : State) (a : Nat) : Bool := s.pmu.dev ≠ .hibernate || bit s.pmu.retAon (a / 0x10000)

/-- Is every bank powered that `n` island bytes from `a` touch? -/
def State.banksOn (s : State) (a n : Nat) : Bool :=
  n == 0 || (List.range 8).all (fun b => !(a < (b + 1) * 0x10000 && b * 0x10000 < a + n) || s.bankOn (b * 0x10000))

/-- The bytes of a block: the frames in order, in each one sample per enabled microphone (R147). -/
def pdmBlock (v : W32) (held : Tbl Nat) (dat0 dat1 : List Bool) : List Byte :=
  (List.range (pdmFrames v)).flatMap (fun i => (pdmMics v).flatMap (fun m =>
    toLe 2 (pdmSample v (tget 0 held m) (pdmBits dat0 dat1 m) i).toNat))

/-- What the filters of the enabled microphones hold after a block (R146). -/
def pdmHolds (v : W32) (held : Tbl Nat) (dat0 dat1 : List Bool) : Tbl Nat :=
  (pdmMics v).foldl (fun t m => tset 0 t m (Config.pdmHold (pdmClkHz v) (tget 0 held m) (pdmBits dat0 dat1 m))) held

/-- Bytes written into the ring from WPTR on, round its end (R147). The bytes of a ring that runs past 0x7_FFFF are dropped, of which the spec
says nothing (DESIGN CHOICE, log 123). -/
def State.pdmStore (bs : List Byte) (s : State) : State :=
  bs.zipIdx.foldl (fun s e =>
    let a := s.aon.pdmBase.toNat + (s.aon.pdmWptr.toNat + e.2) % s.aon.pdmLen.toNat
    if a < 0x80000 then s.poke (dormBase + a) [e.1] else s) s

/-- PDM_BLOCK (R146, R147, R159): the block that the data lines carried is written into the ring from WPTR on, or dropped with BANK_OFF;
WPTR advances round the ring and the PDM event is raised. That WPTR advances for a dropped block too, and that a block of a ring of length 0
has no effect and raises no event, is a DESIGN CHOICE (log 123). -/
def execPdmBlock (dat0 dat1 : List Bool) (s : State) : Host.Outcome State Fault Refusal :=
  .next <|
  let v := s.aon.pdmCtrl
  let len := s.aon.pdmLen.toNat
  if fld v 0 4 = 0 ∨ len = 0 then s
  else
    let bs := pdmBlock v s.aon.pdmHeld dat0 dat1
    let w := s.aon.pdmWptr.toNat % len
    let k := Nat.min bs.length (len - w)
    let on := s.banksOn (s.aon.pdmBase.toNat + w) k && s.banksOn s.aon.pdmBase.toNat (bs.length - k)
    let s1 := if on then s.pdmStore bs else s.errAon 3
    ({ s1 with aon.pdmWptr := BitVec.ofNat 19 ((w + bs.length) % len),
               aon.pdmHeld := pdmHolds v s.aon.pdmHeld dat0 dat1 } : State).seqEvent 8

/-! ### Register writes -/

/-- A reserved encoding leaves its field (DESIGN CHOICE, log 35). -/
def keepField (old v : W32) (lo n : Nat) (bad : Bool) : W32 :=
  if bad then (v &&& ~~~ BitVec.ofNat 32 ((2 ^ n - 1) * 2 ^ lo)) ||| BitVec.ofNat 32 (fld old lo n * 2 ^ lo) else v

/-- A write to AON_PDM_CTRL (R147): MIC_EN is ignored for a ring that is not aligned or not whole blocks; the blocks of no microphone have
no bytes, so that only the alignment is tested for MIC_EN 0 (DEDUCED, log 123), and a LEN of 0 is whole (DESIGN CHOICE, log 123). A reserved
code of CLK or GAIN leaves its field and sets CTRL_REJECT (DESIGN CHOICE, log 35). -/
def State.writePdm (v : W32) (s : State) : State :=
  let old := s.aon.pdmCtrl
  let v := v &&& 0x7FF
  let res : Bool := fld v 4 2 == 3 || 6 ≤ fld v 6 3
  let v := keepField old (keepField old v 4 2 (fld v 4 2 == 3)) 6 3 (6 ≤ fld v 6 3)
  let bad : Bool := s.aon.pdmBase.toNat % 64 ≠ 0 || (fld v 0 4 ≠ 0 && s.aon.pdmLen.toNat % pdmBytes v ≠ 0)
  let v := keepField old v 0 4 bad
  let s1 := ({ s with aon.pdmCtrl := v } : State).fllUpdate
  if bad || res then s1.errAon 4 else s1

/-- A write to AON_T0_THR_k (R155, R156): the detector's level returns to 0, or LEAN above FIRM is ignored. -/
def State.writeThr (k : Nat) (v : W32) (s : State) : State :=
  if fld v 8 8 < fld v 0 8 then s.errAon 4
  else { s with aon.thr := tset thrReset s.aon.thr k (v &&& 0xFFFF), aon.level := tset 0 s.aon.level k 0 }

/-- A write to AON_SEQ_CTRL (R149): RUN rising starts the sequencer at START_PC; clearing RUN halts it. -/
def State.writeSeqCtrl (v : W32) (s : State) : State :=
  let pc : BitVec 12 := BitVec.ofNat 12 (fld v 16 12)
  if bit v 0 then
    if s.aon.seq.run then { s with aon.seq.startPc := pc }
    else ({ s with aon.seq.startPc := pc, aon.seq.run := true, aon.seq.pc := pc.toNat, aon.seq.halted := false,
                   aon.seq.waiting := false } : State).fllUpdate
  else ({ s with aon.seq.startPc := pc, aon.seq.run := false, aon.seq.halted := true, aon.seq.waiting := false } : State).fllUpdate

/-- A write to AON_TIMER (R148): the count restarts from the write. -/
def State.writeTimer (v : W32) (s : State) : State := { s with aon.period := BitVec.ofNat 24 (fld v 0 24), aon.timerCount := 0 }

/-- A write to AON_MBOX_IN3 sets event 10 (Table 6.3). -/
def State.writeMbox (n : Nat) (v : W32) (s : State) : State :=
  let s1 := { s with aon.mboxIn := tset 0 s.aon.mboxIn n v }
  if n = 3 then s1.seqEvent 10 else s1

/-- A write to a comparator's register (R143, R144): its thresholds and its level event are evaluated anew. -/
def State.writeCmp (i : Nat) (v : W32) (s : State) : State :=
  let s1 := ({ s with aon.cmp := tset cmpReset s.aon.cmp i v } : State).levelUpdate i
  s1.inputLevel i (s1.cmpHigh i)

/-- A write to the AON register at offset `o` from BAR0 or the manager core (Table 6.5). AON_MBOX_OUTn are the sequencer's. -/
def State.writeAon (o : Nat) (v : W32) (s : State) : State :=
  if o = 0 then s.writeSeqCtrl v
  else if o = 0x10 ∨ o = 0x14 then
    s.writeCmp ((o - 0x10) / 4) (v &&& 0x7FFF)
  else if 0x20 ≤ o ∧ o < 0x30 then
    ({ s with aon.wakepin := tset 0 s.aon.wakepin ((o - 0x20) / 4) (v &&& 0x7C00) } : State).levelUpdate (2 + (o - 0x20) / 4)
  else if o = 0x40 then s.writePdm v
  else if o = 0x44 then { s with aon.pdmBase := v.setWidth 19 }
  else if o = 0x48 then { s with aon.pdmLen := v.setWidth 19 }
  else if o = 0x68 then { s with aon.almLo := v, aon.almFired := false, aon.almTick := false }
  else if o = 0x6C then { s with aon.almHi := v.setWidth 16, aon.almEn := bit v 31, aon.almFired := false, aon.almTick := false }
  else if o = 0x70 then s.writeTimer v
  else if o = 0x80 then (if fld v 0 2 = 3 then s.errAon 4 else { s with aon.shrewFreq := v.setWidth 2 })
  else if 0x100 ≤ o ∧ o < 0x120 then s.writeThr ((o - 0x100) / 4) v
  else if 0x140 ≤ o ∧ o < 0x150 then s.writeMbox ((o - 0x140) / 4) v
  else if o = 0x184 then { s with aon.err := clearBits s.aon.err v }
  else s

/-- A write that reaches the island: it runs in every device state but OFF (R140). -/
def State.aonWrite (f : State → State) (s : State) : State := if s.pmu.dev = .off then s else f s

/-- AON_PDM_CTRL_WRITE (R147). -/
def execAonPdmCtrlWrite (v : BitVec 32) (s : State) : Host.Outcome State Fault Refusal := .next (s.aonWrite (State.writePdm v))
/-- AON_T0_THR_WRITE (R156). -/
def execAonT0ThrWrite (k : Fin 8) (v : BitVec 32) (s : State) : Host.Outcome State Fault Refusal :=
  .next (s.aonWrite (State.writeThr k.val v))
/-- AON_MBOX_IN3_WRITE (R152). -/
def execAonMboxIn3Write (v : BitVec 32) (s : State) : Host.Outcome State Fault Refusal := .next (s.aonWrite (State.writeMbox 3 v))
/-- AON_TIMER_WRITE (R148). -/
def execAonTimerWrite (v : BitVec 32) (s : State) : Host.Outcome State Fault Refusal := .next (s.aonWrite (State.writeTimer v))
/-- SEQ_START (R149). -/
def execSeqStart (v : BitVec 32) (s : State) : Host.Outcome State Fault Refusal :=
  .next (s.aonWrite (fun s => if bit v 0 then s.writeSeqCtrl v else s))
/-- SEQ_HALT_REQUEST (R149). -/
def execSeqHaltRequest (v : BitVec 32) (s : State) : Host.Outcome State Fault Refusal :=
  .next (s.aonWrite (fun s => if bit v 0 then s else s.writeSeqCtrl v))

/-! ### RTC, alarm and timer (R148) -/

/-- RTC_TICK (R51, R69, R143, R148): the count; while the SFC is carried, its tick count; the timer's count; the deglitching of the inputs. -/
def execRtcTick (s : State) : Host.Outcome State Fault Refusal :=
  if s.pmu.dev = .off then .next s
  else .next (forN 6 (fun i s => s.inputTick i)
    { s with aon.rtc := s.aon.rtc + 1, tb.carry := s.tb.carry.map (fun c => (c.1, c.2 + 1)),
             aon.almTick := true, aon.timerCount := if s.aon.period = 0 then 0 else s.aon.timerCount + 1 })

/-- RTC_ALARM (R118, R148): the armed alarm's value is reached; an alarm just written fires on the next tick at the earliest. -/
def execRtcAlarm (s : State) : Host.Outcome State Fault Refusal :=
  if s.aon.almEn && !s.aon.almFired && s.aon.almTick && s.aon.almLo.toNat + s.aon.almHi.toNat * 2 ^ 32 ≤ s.aon.rtc.toNat then
    .next ((({ s with aon.almFired := true } : State).seqEvent 2).wakeFire 2)
  else .next s

/-- AON_TIMER_EXPIRY (R148). -/
def execAonTimerExpiry (s : State) : Host.Outcome State Fault Refusal :=
  if s.aon.period ≠ 0 ∧ s.aon.period.toNat ≤ s.aon.timerCount then
    .next (({ s with aon.timerCount := s.aon.timerCount - s.aon.period.toNat } : State).seqEvent 9)
  else .next s

/-! ### The sequencer (Table 6.2) -/

/-- A fault (R153): the sequencer halts with the code and the faulting PC. RUN, which says that the sequencer runs (Table 6.5), clears with it, and
a restart leaves the recorded code, since the spec does not say what becomes of either (DESIGN CHOICE, log 135). -/
def State.seqFault (code : BitVec 4) (s : State) : State :=
  (({ s with aon.seq.fault := code, aon.seq.run := false, aon.seq.halted := true, aon.seq.waiting := false } : State).errAon 0).fllUpdate

/-- The instruction of a row executes: the sequencer runs, does not wait, and the opcode at the PC is the row's. A malformed word
faults with ILLEGAL_OP (R150). -/
def State.seqStep (op : Nat) (body : W32 → State → State) (s : State) : State :=
  let i := s.aon.seq.instr
  if s.aon.seq.halted || s.aon.seq.waiting || qOp i ≠ op then s
  else if !qLegal i then s.seqFault 1
  else body i s

/-- wD written and the PC advanced. -/
def State.seqWrite (i v : W32) (s : State) : State :=
  ({ s with aon.seq := s.aon.seq.set (qD i) v } : State).seqNext (s.aon.seq.pc + 1)

/-- An instruction of two source registers. -/
def State.seqAlu (op : Nat) (f : W32 → W32 → W32) (s : State) : State :=
  s.seqStep op (fun i s => s.seqWrite i (f (s.aon.seq.reg (qA i)) (s.aon.seq.reg (qB i))))

/-- An instruction of one source register and an immediate. -/
def State.seqImm (op : Nat) (f : W32 → W32 → W32) (s : State) : State :=
  s.seqStep op (fun i s => s.seqWrite i (f (s.aon.seq.reg (qA i)) i))

/-- The PC of a branch or jump: the offset counts from the instruction itself; one below 0 or beyond 4,095 is out of range. -/
def State.seqJump (i : W32) (s : State) : State :=
  let t := Int.ofNat s.aon.seq.pc + sgn 18 (qImm i)
  if t < 0 then s.seqNext (t % 4096 + 4096).toNat else s.seqNext t.toNat

/-- A conditional branch. -/
def State.seqBranch (op : Nat) (c : W32 → W32 → Bool) (s : State) : State :=
  s.seqStep op (fun i s =>
    if c (s.aon.seq.reg (qD i)) (s.aon.seq.reg (qA i)) then s.seqJump i else s.seqNext (s.aon.seq.pc + 1))

/-- A load or store of `n` bytes at wA + sext, with the faults of R153; an address both misaligned and out of range is reported as MISALIGNED,
since the spec does not order the two (DESIGN CHOICE, log 135). -/
def State.seqMem (op n : Nat) (body : W32 → Nat → State → State) (s : State) : State :=
  s.seqStep op (fun i s =>
    let a := (s.aon.seq.reg (qA i) + qSext i).toNat
    if a % n ≠ 0 then s.seqFault 2
    else if 0x80000 ≤ a then s.seqFault 3
    else if !s.bankOn a then s.seqFault 4
    else body i a s)

/-- SEQ_NOP (R150): also the row of a word whose opcode is not in Table 6.2, which faults with ILLEGAL_OP. -/
def execSeqNop (s : State) : Host.Outcome State Fault Refusal :=
  let op := qOp s.aon.seq.instr
  let known : Bool := op ≤ 0x0B || (0x10 ≤ op && op ≤ 0x13) || (0x18 ≤ op && op ≤ 0x1B) || (0x20 ≤ op && op ≤ 0x25) ||
    op == 0x28 || op == 0x29 || (0x2C ≤ op && op ≤ 0x2F)
  if !known && !s.aon.seq.halted && !s.aon.seq.waiting then .next (s.seqFault 1)
  else .next (s.seqStep 0x00 (fun _ s => s.seqNext (s.aon.seq.pc + 1)))
/-- SEQ_ADD (R150). -/
def execSeqAdd (s : State) : Host.Outcome State Fault Refusal := .next (s.seqAlu 0x01 (· + ·))
/-- SEQ_SUB (R150). -/
def execSeqSub (s : State) : Host.Outcome State Fault Refusal := .next (s.seqAlu 0x02 (· - ·))
/-- SEQ_AND (R150). -/
def execSeqAnd (s : State) : Host.Outcome State Fault Refusal := .next (s.seqAlu 0x03 (· &&& ·))
/-- SEQ_OR (R150). -/
def execSeqOr (s : State) : Host.Outcome State Fault Refusal := .next (s.seqAlu 0x04 (· ||| ·))
/-- SEQ_XOR (R150). -/
def execSeqXor (s : State) : Host.Outcome State Fault Refusal := .next (s.seqAlu 0x05 (· ^^^ ·))
/-- SEQ_SHL (R150). -/
def execSeqShl (s : State) : Host.Outcome State Fault Refusal := .next (s.seqAlu 0x06 (fun a b => a <<< (b.toNat % 32)))
/-- SEQ_SHR (R150). -/
def execSeqShr (s : State) : Host.Outcome State Fault Refusal := .next (s.seqAlu 0x07 (fun a b => a >>> (b.toNat % 32)))
/-- SEQ_SAR (R150). -/
def execSeqSar (s : State) : Host.Outcome State Fault Refusal := .next (s.seqAlu 0x08 (fun a b => a.sshiftRight (b.toNat % 32)))
/-- SEQ_MUL (R150). -/
def execSeqMul (s : State) : Host.Outcome State Fault Refusal := .next (s.seqAlu 0x09 (· * ·))
/-- SEQ_MIN (R150). -/
def execSeqMin (s : State) : Host.Outcome State Fault Refusal := .next (s.seqAlu 0x0A (fun a b => if a.toInt ≤ b.toInt then a else b))
/-- SEQ_MAX (R150). -/
def execSeqMax (s : State) : Host.Outcome State Fault Refusal := .next (s.seqAlu 0x0B (fun a b => if a.toInt ≤ b.toInt then b else a))
/-- SEQ_ADDI (R150). -/
def execSeqAddi (s : State) : Host.Outcome State Fault Refusal := .next (s.seqImm 0x10 (fun a i => a + qSext i))
/-- SEQ_ANDI (R150). -/
def execSeqAndi (s : State) : Host.Outcome State Fault Refusal := .next (s.seqImm 0x11 (fun a i => a &&& BitVec.ofNat 32 (qImm i)))
/-- SEQ_ORI (R150). -/
def execSeqOri (s : State) : Host.Outcome State Fault Refusal := .next (s.seqImm 0x12 (fun a i => a ||| BitVec.ofNat 32 (qImm i)))
/-- SEQ_LUI (R150). -/
def execSeqLui (s : State) : Host.Outcome State Fault Refusal := .next (s.seqImm 0x13 (fun _ i => BitVec.ofNat 32 (qImm i) <<< 14))
/-- SEQ_LW (R153). -/
def execSeqLw (s : State) : Host.Outcome State Fault Refusal :=
  .next (s.seqMem 0x18 4 (fun i a s => s.seqWrite i (BitVec.ofNat 32 (mreadLe s.mem (dormBase + a) 4))))
/-- SEQ_SW (R150). -/
def execSeqSw (s : State) : Host.Outcome State Fault Refusal :=
  .next (s.seqMem 0x19 4 (fun i a s => (s.poke (dormBase + a) (toLe 4 (s.aon.seq.reg (qD i)).toNat)).seqNext (s.aon.seq.pc + 1)))
/-- SEQ_LH (R150). -/
def execSeqLh (s : State) : Host.Outcome State Fault Refusal :=
  .next (s.seqMem 0x1A 2 (fun i a s => s.seqWrite i (BitVec.ofInt 32 (sgn 16 (mreadLe s.mem (dormBase + a) 2)))))
/-- SEQ_SH (R150). -/
def execSeqSh (s : State) : Host.Outcome State Fault Refusal :=
  .next (s.seqMem 0x1B 2 (fun i a s => (s.poke (dormBase + a) (toLe 2 (s.aon.seq.reg (qD i)).toNat)).seqNext (s.aon.seq.pc + 1)))
/-- SEQ_BEQ (R150). -/
def execSeqBeq (s : State) : Host.Outcome State Fault Refusal := .next (s.seqBranch 0x20 (fun d a => d == a))
/-- SEQ_BNE (R150). -/
def execSeqBne (s : State) : Host.Outcome State Fault Refusal := .next (s.seqBranch 0x21 (fun d a => d != a))
/-- SEQ_BLT (R150). -/
def execSeqBlt (s : State) : Host.Outcome State Fault Refusal := .next (s.seqBranch 0x22 (fun d a => d.toInt < a.toInt))
/-- SEQ_BGE (R150). -/
def execSeqBge (s : State) : Host.Outcome State Fault Refusal := .next (s.seqBranch 0x23 (fun d a => a.toInt ≤ d.toInt))
/-- SEQ_JAL (R150). -/
def execSeqJal (s : State) : Host.Outcome State Fault Refusal :=
  .next (s.seqStep 0x24 (fun i s => ({ s with aon.seq := s.aon.seq.set (qD i) (BitVec.ofNat 32 (s.aon.seq.pc + 1)) } : State).seqJump i))
/-- SEQ_JR (R150). -/
def execSeqJr (s : State) : Host.Outcome State Fault Refusal :=
  .next (s.seqStep 0x25 (fun i s => s.seqNext (fld (s.aon.seq.reg (qA i)) 0 12)))

/-- SEQ_RDIO (R151): the AON register at byte offset IMM, through the manager core's shadows; a misaligned offset faults, one beyond
0x1FC reads 0 (DESIGN CHOICE, log 36). -/
def execSeqRdio (s : State) : Host.Outcome State Fault Refusal :=
  .next (s.seqStep 0x28 (fun i s =>
    let o := qImm i
    if o % 4 ≠ 0 then s.seqFault 2
    else
      let v : W32 := if o ≤ 0x1FC then BitVec.ofNat 32 (s.readAon .mgr o) else 0
      (if o ≤ 0x1FC then s.readEffect .mgr 0 (.iod 5 o) else s).seqWrite i v))

/-- May WRIO write the AON register at an offset (R151)? -/
def wrioOk (o : Nat) : Bool :=
  o ≤ 0x1FC && o ≠ 0 && !(0x100 ≤ o && o < 0x12C) && !(0x140 ≤ o && o < 0x150) && o ≠ 0x184

/-- SEQ_WRIO (R151): a protected register ignores the write; AON_MBOX_OUT3 raises the mailbox interrupt. -/
def execSeqWrio (s : State) : Host.Outcome State Fault Refusal :=
  .next (s.seqStep 0x29 (fun i s =>
    let o := qImm i
    let v := s.aon.seq.reg (qD i)
    if o % 4 ≠ 0 then s.seqFault 2
    else
      let s1 :=
        if 0x150 ≤ o ∧ o < 0x160 then
          { s with aon.mboxOut := tset 0 s.aon.mboxOut ((o - 0x150) / 4) v, aon.mboxIrq := s.aon.mboxIrq || o == 0x15C }
        else if wrioOk o then s.writeAon o v else s
      s1.seqNext (s.aon.seq.pc + 1)))

/-- SEQ_WAITEV (R152, R160): latched events of the mask retire it at once; otherwise the sequencer waits. -/
def execSeqWaitev (s : State) : Host.Outcome State Fault Refusal :=
  .next (s.seqStep 0x2C (fun i s =>
    if qImm i % 4096 = 0 then s.seqFault 5
    else
      let s1 := { s with aon.seq.waiting := true }
      if s1.seqReady then s1.seqRetire else s1.fllUpdate))

/-- SEQ_SHREW (R154, R162). -/
def execSeqShrew (s : State) : Host.Outcome State Fault Refusal :=
  .next (s.seqStep 0x2D (fun i s =>
    if s.aon.shrewBusy then s.seqWrite i 1
    else ({ s with aon.shrewBusy := true, aon.shrewList := (s.aon.seq.reg (qA i)).toNat } : State).seqWrite i 0))

/-- The tier-0 level of a score (R155). -/
def levelOf (thr : W32) (score : Nat) : BitVec 2 := if fld thr 8 8 ≤ score then 2 else if fld thr 0 8 ≤ score then 1 else 0

/-- A tier-0 decision (R155, R157, R163): a changed level posts an entry and reaches the cascade manager (R395), and a rise wakes and
interrupts even when the FIFO is full. -/
def State.decide_ (k : Nat) (score : Byte) (s : State) : State × BitVec 2 :=
  let n := levelOf (tget thrReset s.aon.thr k) score.toNat
  let old := tget 0 s.aon.level k
  if n = old then (s, n)
  else
    let ev : T0Change := { det := k, old := old, new := n, woke := decide (s.pmu.dev ≠ .run) }
    let s1 : State := { s with
      aon.level := tset 0 s.aon.level k n,
      sch.t0 := s.sch.t0 ++ [ev] }
    let s2 := if s1.aon.fifo.length < 16 then
        { s1 with aon.fifo := s1.aon.fifo ++ [{ det := BitVec.ofNat 3 k, level := n, score := score, rtc := s1.aon.rtc }] }
      else { s1 with aon.drop := satInc s1.aon.drop }.errAon 2
    (if old.toNat < n.toNat then ({ s2 with aon.decIrq := true } : State).wakeFire 7 else s2, n)

/-- SEQ_DECIDE (R155). -/
def execSeqDecide (s : State) : Host.Outcome State Fault Refusal :=
  .next (s.seqStep 0x2E (fun i s =>
    let r := s.decide_ (fld (s.aon.seq.reg (qA i)) 0 3) (BitVec.ofNat 8 (fld (s.aon.seq.reg (qB i)) 0 8))
    r.1.seqWrite i (r.2.setWidth 32)))

/-- SEQ_HALT (R150): RUN clears. -/
def execSeqHalt (s : State) : Host.Outcome State Fault Refusal :=
  .next (s.seqStep 0x2F (fun _ s => ({ s with aon.seq.run := false, aon.seq.halted := true } : State).fllUpdate))

/-! ### The Shrew engine (R154, Table 6.4) -/

/-- A range of island SRAM bytes. -/
def State.dormRead (s : State) (a n : Nat) : List Byte := mreadN s.mem (dormBase + a) n

/-- The weights of a layer (Table 6.4; counts: DEDUCED from the names of the kinds, log 36): none for ADD and MAXPOOL1D, one filter per
channel for DWCONV1D, three gates over input and state for GRU, the filter table over 257 bins for BANDS. -/
def shrewWeights (d : List Byte) : Nat :=
  let inCh := leAt d 4 2
  let outCh := leAt d 6 2
  let k := leAt d 3 1
  match leAt d 0 2 with
  | 0 => outCh * inCh
  | 1 => outCh * inCh * k
  | 2 => outCh * k
  | 5 => 3 * outCh * (inCh + outCh)
  | 6 => outCh * 257
  | _ => 0

/-- The input bytes of a layer (log 36): INT8 channels per time step, two tensors for ADD, frames of 512 16-bit samples for BANDS. -/
def shrewInput (d : List Byte) : Nat :=
  match leAt d 0 2 with
  | 3 => 2 * leAt d 8 2 * leAt d 4 2
  | 6 => leAt d 8 2 * 1024
  | _ => leAt d 8 2 * leAt d 4 2

/-- The bias bytes of a layer (log 36): one INT32 per output channel, none for ADD and MAXPOOL1D. -/
def shrewBias (d : List Byte) : Nat :=
  match leAt d 0 2 with
  | 3 => 0
  | 4 => 0
  | _ => 4 * leAt d 6 2

/-- The operand and result ranges of a layer: input, weights, biases, output, and the PWL table that FLAGS or GRU gates select (log 36). -/
def shrewRanges (d : List Byte) : List (Nat × Nat) :=
  let w := shrewWeights d
  let steps := match leAt d 0 2 with
    | 1 => ceilDiv (leAt d 8 2) (leAt d 10 1)
    | 2 => ceilDiv (leAt d 8 2) (leAt d 10 1)
    | 4 => ceilDiv (leAt d 8 2) (leAt d 10 1)
    | _ => leAt d 8 2
  [(leAt d 12 4, shrewInput d), (leAt d 20 4, if bitN (leAt d 2 1) 0 then (w + 1) / 2 else w), (leAt d 24 4, shrewBias d),
   (leAt d 16 4, steps * leAt d 6 2),
   (leAt d 24 4 + 4 * leAt d 6 2, if bitN (leAt d 2 1) 2 || leAt d 0 2 == 5 then 64 else 0)]

/-- The check of a layer (R154): its fault code. -/
def State.shrewCheck (s : State) (d : List Byte) : Option Nat :=
  let kind := leAt d 0 2
  let rs := shrewRanges d
  let w := rs.getD 1 (0, 0)
  let others := [rs.getD 0 (0, 0), rs.getD 2 (0, 0), rs.getD 3 (0, 0), rs.getD 4 (0, 0)]
  let outCh := leAt d 6 2
  if 6 < kind then some 1
  else if 8 ≤ leAt d 2 1 ∨ leAt d 3 1 = 0 ∨ 16 < leAt d 3 1 ∨ leAt d 4 2 = 0 ∨ 256 < leAt d 4 2 ∨ outCh = 0 ∨ 256 < outCh ∨
      (kind = 6 ∧ (outCh < 8 ∨ 64 < outCh)) ∨ leAt d 8 2 = 0 ∨ 1024 < leAt d 8 2 ∨ leAt d 10 1 = 0 ∨ 4 < leAt d 10 1 ∨
      leAt d 11 1 = 0 ∨ 16 < leAt d 11 1 ∨ 31 < leAt d 30 1 ∨ leAt d 31 1 ≠ 0 then some 2
  else if 0x40000 < w.1 + w.2 then some 3
  else if others.any (fun r => 0x80000 < r.1 + r.2) then some 4
  else if rs.any (fun r => !s.banksOn r.1 r.2) then some 5
  else none

/-- Input channel `c` of a layer at time step `p` of the padded input `x` (R154, log 36): zero in the padding and from the end on. -/
def shrewIn (d x : List Byte) (p c : Nat) : Int :=
  let n := leAt d 8 2 * leAt d 4 2
  let t := p - Config.shrewPad d
  if p < Config.shrewPad d ∨ leAt d 8 2 ≤ t ∨ leAt d 4 2 ≤ c then 0
  else sgn 8 (x.getD (Config.shrewAt d 0 (t * leAt d 4 2 + c) % n) 0).toNat

/-- Weight `e` of a layer (R154): INT8, or INT4 when FLAGS selects it. -/
def shrewWeight (d w : List Byte) (e : Nat) : Int :=
  let p := Config.shrewAt d 2 e % Nat.max 1 (shrewWeights d)
  if bitN (leAt d 2 1) 0 then sgn 4 (bits (w.getD (p / 2) 0).toNat (4 * (p % 2)) 4) else sgn 8 (w.getD p 0).toNat

/-- The INT16 state of a GRU layer after `t` time steps (Table 6.4): free at the start of a run, and free in its arithmetic (log 36). -/
def shrewState (k : Nat) (d x par : List Byte) : Nat → List (BitVec 16)
  | 0 => (List.range (leAt d 6 2)).map (fun j => (Config.freeWord k j).setWidth 16)
  | t + 1 =>
    let row := (List.range (leAt d 4 2)).map (fun c => x.getD (Config.shrewAt d 0 (t * leAt d 4 2 + c) % (leAt d 8 2 * leAt d 4 2)) 0)
    let h := shrewState k d x par t
    (List.range (leAt d 6 2)).map (Config.shrewGru d par row h)

/-- The accumulation of output channel `o` at output step `t` of a layer over its input `x`, weights `w`, biases `b` and table (R154; log 36). -/
def shrewAcc (k : Nat) (d x w b table : List Byte) (t o : Nat) : Int :=
  let inCh := leAt d 4 2
  let taps := leAt d 3 1
  let bias := sgn 32 (leAt b (4 * o) 4)
  let at_ := fun (i : Nat) => t * leAt d 10 1 + i * leAt d 11 1
  match leAt d 0 2 with
  | 0 => bias + ((List.range inCh).map (fun c => shrewWeight d w (o * inCh + c) * shrewIn d x (t + Config.shrewPad d) c)).sum
  | 1 => bias + ((List.range taps).flatMap (fun i => (List.range inCh).map (fun c =>
      shrewWeight d w ((o * taps + i) * inCh + c) * shrewIn d x (at_ i) c))).sum
  | 2 => bias + ((List.range taps).map (fun i => shrewWeight d w (o * taps + i) * shrewIn d x (at_ i) o)).sum
  | 3 =>
    let n := leAt d 8 2 * inCh
    shrewIn d x (t + Config.shrewPad d) o + sgn 8 (x.getD (n + Config.shrewAt d 1 (t * inCh + o) % Nat.max 1 n) 0).toNat
  | 4 => ((List.range taps).map (fun i => shrewIn d x (at_ i) o)).foldl (fun m v => if m < v then v else m) (-128)
  | 5 => ((shrewState k d x (w ++ b ++ table) (t + 1)).getD o 0).toInt
  | _ => (Config.shrewBand d (slice x (1024 * t) 1024) w o).toInt

/-- The output at place `p` of a layer (R154): the accumulation requantised with RNE, then ReLU or PWL, then saturated. -/
def shrewOut (k : Nat) (d x w b table : List Byte) (n p : Nat) : Byte :=
  let i := Config.shrewAt d 3 p % Nat.max 1 n
  let acc := shrewAcc k d x w b table (i / leAt d 6 2) (i % leAt d 6 2)
  let q := rneDiv (acc * Int.ofNat (leAt d 28 2)) (2 ^ leAt d 30 1)
  let r := if bitN (leAt d 2 1) 1 then (if q < 0 then 0 else q) else q
  let p := if bitN (leAt d 2 1) 2 then Config.shrewPwl table r else r
  BitVec.ofInt 8 (satS 8 p)

/-- A layer runs. -/
def State.shrewLayer (d : List Byte) (s : State) : State :=
  let rs := shrewRanges d
  let opnd := fun (i : Nat) => s.dormRead (rs.getD i (0, 0)).1 (rs.getD i (0, 0)).2
  let table := s.dormRead (leAt d 24 4 + 4 * leAt d 6 2) 64
  let out := rs.getD 3 (0, 0)
  s.draw.2.poke (dormBase + out.1) ((List.range out.2).map (shrewOut s.draw.1 d (opnd 0) (opnd 1) (opnd 2) table out.2))

/-- The layers from index `i`: the state after them, and the fault (code, layer) that ended them. -/
def State.shrewRun (i : Nat) : Nat → State → State × Option (Nat × Nat)
  | 0, s => (s, some (6, i))
  | n + 1, s =>
    let a := s.aon.shrewList + 32 * i
    if 0x80000 < a + 32 then (s, some (4, i))
    else if !s.banksOn a 32 then (s, some (5, i))
    else
      let d := s.dormRead a 32
      if leAt d 0 2 = 0xFFFF then (s, none)
      else if n = 0 then (s, some (6, i))
      else match s.shrewCheck d with
        | some f => (s, some (f, i))
        | none => State.shrewRun (i + 1) n (s.shrewLayer d)

/-- SHREW_DONE (R154): the list ends, or a layer faults; event 7. -/
def execShrewDone (s : State) : Host.Outcome State Fault Refusal :=
  .next <|
  if !s.aon.shrewBusy then s
  else
    let r := s.shrewRun 0 65
    let s1 := { r.1 with aon.shrewBusy := false }
    let s2 := match r.2 with
      | some f => { s1 with aon.shrewFault := BitVec.ofNat 4 f.1, aon.shrewLayer := BitVec.ofNat 6 f.2 }.errAon 1
      | none => { s1 with aon.shrewFault := 0, aon.shrewLayer := 0 }
    let s3 := s2.seqEvent 7
    if s3.seqReady then s3 else s3.fllUpdate

end Sys2Proof.Machine
end

