-- ==== Sys2Proof/Machine/LinkCtrl.lean ====
section
/-!
DEFINITION. LINK_CTRL (R504-R516, Table 21.3): ports, widths and rates, NODE_ID and enumeration, the beacon root, proxy rings.
-/
namespace Sys2Proof.Machine

/-- The ACTION of a LINK_CTRL. -/
def Cmd.action (c : Cmd) : Nat := c.p 0 1

/-- Is field byte `v` legal: within `ok` where the action uses it, zero where it does not (R516)? -/
def fieldOk (used : Bool) (ok : Bool) (v : Nat) : Bool := if used then ok else v == 0

/-- The parameters of LINK_CTRL that Table 21.3 does not allow. -/
def linkParamsBad (c : Cmd) : Bool :=
  let a := c.action
  let w := c.p 3 1
  !(c.params.length == 16 && a ≤ 11 &&
    fieldOk (a ≤ 4 || a == 11) (c.p 1 1 ≤ 3) (c.p 1 1) &&
    fieldOk (a == 5 || a == 6 || a == 9) (c.p 2 1 ≤ 63) (c.p 2 1) &&
    fieldOk (a == 0 || a == 3) (w == 1 || w == 2 || w == 4) w &&
    fieldOk (a == 0 || a == 4) (c.p 4 1 ≤ 1) (c.p 4 1) &&
    fieldOk (a == 0) (c.p 5 1 ≤ 1) (c.p 5 1) &&
    fieldOk (a == 9 || a == 10) (c.p 6 1 ≤ 63) (c.p 6 1) && c.p 7 1 == 0 &&
    fieldOk (a == 6) (1 ≤ c.p 8 1 && c.p 8 1 ≤ 8) (c.p 8 1) && fieldOk (a == 6) (1 ≤ c.p 9 1 && c.p 9 1 ≤ 8) (c.p 9 1) &&
    zerosAt c.params 10 6)

/-- The checks of LINK_CTRL (R504, R509, R513, R515, R516). -/
def checkLink (s : State) (c : Cmd) : Option Nat :=
  let a := c.action
  if linkParamsBad c then some rsBadParam
  else if c.p 4 1 = 1 && !s.rev2 then some rsUnsupported
  else if s.tdiLocked then some rsConfigLocked
  else if a = 7 then
    (if fld s.tb.ctrl 0 2 = 2 || (s.slk.rootId.isSome && !s.slk.root) then some rsBadParam else none)
  else if a = 8 then
    (if s.openStreams ≠ 0 || s.anyExcite then some rsStreamOpen
     else if s.slk.root || !(s.slk.rootId.any (fun r => (s.route r.toNat).isSome)) then some rsRemoteUnreachable else none)
  else if a = 9 then
    (if (s.route (c.p 2 1)).any (fun r => !r.2.isEmpty) then none else some rsRemoteUnreachable)
  else none

/-- The command waits on its port. -/
def State.waitPort (p : Nat) (c : Cmd) (s : State) : State := s.modSlp p (fun q => { q with cmds := q.cmds ++ [c.id] })

/-- A command on a port that is not UP: it waits for training under way, and fails where the port stays down (R516). -/
def State.portNotUp (p : Nat) (c : Cmd) (s : State) : State :=
  match (s.slp p).st with
  | .downNoPartner => s.complete c ocFailed rsRemoteUnreachable
  | .error => s.complete c ocFailed rsRemoteLinkDown
  | .disabled => s.complete c ocFailed rsRemoteLinkDown
  | _ => s.waitPort p c

/-- A request control block is sent and the command waits (R505). -/
def State.request (p : Nat) (w : Option Nat) (c : Cmd) (s : State) : State :=
  (s.modSlp p (fun q => if q.reqSent.isSome then q else
    { q with reqSent := some (w.getD 0), reqWidth := w.isSome, backoff := false })).waitPort p c

/-- PORT_UP takes effect (R503, R516): the port's settings, then training from DETECT; a port that is UP serves it at once. -/
def State.applyPortUp (c : Cmd) (s : State) : State :=
  let p := c.p 1 1
  let s1 := s.modSlp p (fun q => { q with widthMax := c.p 3 1, rateCfg := c.p 4 1 == 1, autoRetry := c.p 5 1 == 1 })
  match (s.slp p).st with
  | .up => s1.served c []
  | .error => s1.complete c ocFailed rsRemoteLinkDown
  | .disabled => (s1.modSlp p (fun q => { q with st := .detect, attempts := 0, powerOff := false })).waitPort p c
  | .downNoPartner => (s1.modSlp p (fun q => { q with st := .detect, attempts := 0 })).waitPort p c
  | _ => s1.waitPort p c

/-- PORT_DOWN takes effect (R502, R516): the commands that wait on the port fail with REMOTE_LINK_DOWN (DESIGN CHOICE, log 38). -/
def State.applyPortDown (c : Cmd) (s : State) : State :=
  let p := c.p 1 1
  let s1 := s.modSlp p (fun q => { q with
    st := .disabled, width := 0, retraining := false, reqSent := none, backoff := false, attempts := 0 })
  (((s1.dropFrames p).portFails p rsRemoteLinkDown).linkChanged).served c []

/-- RETRAIN takes effect (R504, R505). -/
def State.applyRetrain (c : Cmd) (s : State) : State :=
  let p := c.p 1 1
  if (s.slp p).st = .up then s.request p none c else s.portNotUp p c

/-- SET_WIDTH takes effect (R504, R505). -/
def State.applySetWidth (c : Cmd) (s : State) : State :=
  let p := c.p 1 1
  if (s.slp p).st = .up then s.request p (some (c.p 3 1)) c
  else (s.modSlp p (fun q => { q with widthMax := c.p 3 1 })).portNotUp p c

/-- SET_RATE takes effect (R516): the rate holds from the next training. -/
def State.applySetRate (c : Cmd) (s : State) : State :=
  let p := c.p 1 1
  let s1 := s.modSlp p (fun q => { q with rateCfg := c.p 4 1 == 1 })
  if (s.slp p).st = .up then s1.request p none c else s1.portNotUp p c

/-- SET_NODE_ID takes effect (R508): announced by a STATE frame. -/
def State.applySetNodeId (c : Cmd) (s : State) : State := ((s.setNode (c.p 2 1)).linkChanged).served c []

/-- ENUMERATE takes effect (R508): this part's ID and extents, and proposals over every UP port; the reports count from 0. -/
def State.applyEnumerate (c : Cmd) (s : State) : State :=
  let ext := { s with slk.ctrl := (s.slk.ctrl &&& ~~~ 0x3F#32) ||| BitVec.ofNat 32 (c.p 8 1 - 1 + 8 * (c.p 9 1 - 1)) }
  let s1 := { ext.setNode (c.p 2 1) with
    slk.enumAt := some s.tb.sfc, slk.enumPort := none, slk.enumAdopted := 0, slk.enumRefused := 0 }
  (s1.flood 4 (s1.proposal s1.node) none s1.node).linkChanged

/-- ENUMERATION_COMPLETE (R508): the counts of the parts that have reported. -/
def execEnumerationComplete (id : Nat) (s : State) : Host.Outcome State Fault Refusal :=
  .next <| match s.cmd id with
  | some c =>
    if c.op = 0x00A0 ∧ c.action = 6 ∧ c.phase = .running ∧ c.remote.isNone then
      s.served c (toLe 2 s.slk.enumAdopted ++ toLe 6 (s.slk.enumRefused % 65536))
    else s
  | none => s

/-- BEACON_ROOT takes effect (R509): announced by a STATE frame (kind 3). With a partner that could claim the root too it completes
once that is settled (R522). -/
def State.applyBeaconRoot (c : Cmd) (s : State) : State :=
  let s1 := { s with slk.root := true, slk.rootId := some s.glb.activeId }
  let s2 := s1.flood 4 (toLe 1 3 ++ toLe 3 s1.node) none s1.node
  if (List.range 4).any (fun p => (s.slp p).st == .up) then { s2 with slk.rootCmd := some (c.id, s.tb.sfc) } else s2.served c []

/-- BEACON_JOIN takes effect (R509). -/
def State.applyBeaconJoin (c : Cmd) (s : State) : State :=
  ((s.writeTbCtrl ((s.tb.ctrl &&& ~~~ 3#32) ||| 2#32)).beaconRoute).served c []

/-- PROXY_BIND takes effect (R515). -/
def State.applyProxyBind (c : Cmd) (s : State) : State :=
  (s.modRing (c.p 6 1) (fun r => { r with proxy := some (BitVec.ofNat 6 (c.p 2 1)) })).served c []

/-- PROXY_UNBIND takes effect (R515). -/
def State.applyProxyUnbind (c : Cmd) (s : State) : State :=
  (s.modRing (c.p 6 1) (fun r => { r with proxy := none })).served c []

/-- PORT_RESET takes effect (R516). -/
def State.applyPortReset (c : Cmd) (s : State) : State :=
  (s.modSlp (c.p 1 1) (fun q => { q with st := if q.st = .error then .disabled else q.st, clashes := 0 })).served c []

/-- A LINK_CTRL whose ACTION is `a`; a reserved ACTION falls to PORT_UP's row, which refuses it. -/
def linkSel (a : Nat) (c : Cmd) : Bool := c.action == a || (a == 0 && 11 < c.action)

/-- PORT_UP (R516). -/
def execPortUp (id : Nat) (s : State) : Host.Outcome State Fault Refusal :=
  .next (s.command id 0x00A0 (linkSel 0) checkLink State.applyPortUp)
/-- PORT_DOWN (R516). -/
def execPortDown (id : Nat) (s : State) : Host.Outcome State Fault Refusal :=
  .next (s.command id 0x00A0 (linkSel 1) checkLink State.applyPortDown)
/-- RETRAIN (R504). -/
def execRetrain (id : Nat) (s : State) : Host.Outcome State Fault Refusal :=
  .next (s.command id 0x00A0 (linkSel 2) checkLink State.applyRetrain)
/-- SET_WIDTH (R504). -/
def execSetWidth (id : Nat) (s : State) : Host.Outcome State Fault Refusal :=
  .next (s.command id 0x00A0 (linkSel 3) checkLink State.applySetWidth)
/-- SET_RATE (R516). -/
def execSetRate (id : Nat) (s : State) : Host.Outcome State Fault Refusal :=
  .next (s.command id 0x00A0 (linkSel 4) checkLink State.applySetRate)
/-- SET_NODE_ID (R508); `lock`: the interface locks in the same cycle, which comes first (R42). -/
def execSetNodeId (id : Nat) (lock : Bool) (s : State) : Host.Outcome State Fault Refusal :=
  .next ((s.lockTie lock).command id 0x00A0 (linkSel 5) checkLink State.applySetNodeId)
/-- ENUMERATE (R508); `lock` as for SET_NODE_ID (R42). -/
def execEnumerate (id : Nat) (lock : Bool) (s : State) : Host.Outcome State Fault Refusal :=
  .next ((s.lockTie lock).command id 0x00A0 (linkSel 6) checkLink State.applyEnumerate)
/-- BEACON_ROOT (R509). -/
def execBeaconRoot (id : Nat) (s : State) : Host.Outcome State Fault Refusal :=
  .next (s.command id 0x00A0 (linkSel 7) checkLink State.applyBeaconRoot)
/-- BEACON_JOIN (R509). -/
def execBeaconJoin (id : Nat) (s : State) : Host.Outcome State Fault Refusal :=
  .next (s.command id 0x00A0 (linkSel 8) checkLink State.applyBeaconJoin)
/-- PROXY_BIND (R515). -/
def execProxyBind (id : Nat) (s : State) : Host.Outcome State Fault Refusal :=
  .next (s.command id 0x00A0 (linkSel 9) checkLink State.applyProxyBind)
/-- PROXY_UNBIND (R515). -/
def execProxyUnbind (id : Nat) (s : State) : Host.Outcome State Fault Refusal :=
  .next (s.command id 0x00A0 (linkSel 10) checkLink State.applyProxyUnbind)
/-- PORT_RESET (R516). -/
def execPortReset (id : Nat) (s : State) : Host.Outcome State Fault Refusal :=
  .next (s.command id 0x00A0 (linkSel 11) checkLink State.applyPortReset)

end Sys2Proof.Machine
end

