-- ==== Sys2Proof/Machine/Tenants.lean ====
section
/-!
DEFINITION. Tenants (R197-R202), the densities of realtime streams (R210, R220), images (R176, R234), the RT_CAP register (R212), and
the reset commands (R70, R71).
-/
namespace Sys2Proof.Machine

/-! ### The tenant block (Tables 8.1, 8.2) -/

/-- Bytes of a save slot (R198). -/
def slotBytes : Nat := 0xD1000

/-- Is the window entry of 16 bytes legal (Table 8.2)? -/
def tenWinOk (b : List Byte) : Bool :=
  let lo := leAt b 0 8
  let hi := leAt b 8 8
  bits lo 3 9 == 0 && bits lo 40 24 == 0 && bits hi 0 12 == 0 && bits hi 40 24 == 0 &&
  (bits lo 0 3 == 0 || bits lo 12 28 < bits hi 12 28)

/-- A window entry (Table 8.2). -/
def tenWinOf (b : List Byte) : Window :=
  { perm := BitVec.ofNat 3 (bits (leAt b 0 8) 0 3), base := bits (leAt b 0 8) 12 28, limit := bits (leAt b 8 8) 12 28 }

/-- The tenant that a block describes (Table 8.1). -/
def tenantOf (b : List Byte) : Tenant :=
  { signed := bitN (leAt b 0 1) 0, saveSlots := leAt b 1 1, rtDensity := leAt b 2 2, rtStreams := leAt b 4 2,
    intCores := leAt b 6 1, bgCores := leAt b 7 1, affinity := BitVec.ofNat 64 (leAt b 8 8), saveBase := leAt b 16 8,
    windows := (List.range 8).map (fun i => tenWinOf (slice b (32 + 16 * i) 16)), pubkey := slice b 160 96 }

/-- Does a byte range lie wholly in the DM of one die, or wholly in LPDDR (R198, R234)? -/
def State.inDmOrLpddr (s : State) (a n : Nat) : Bool :=
  match s.region a with
  | .dm d => n ≠ 0 && s.region (a + n - 1) == .dm d
  | .lpddr => n ≠ 0 && s.region (a + n - 1) == .lpddr
  | _ => false

/-- Does a byte range overlap an enabled window? -/
def Window.meets (w : Window) (a n : Nat) : Bool :=
  w.perm ≠ 0 && decide (a < w.limit * 4096) && decide (w.base * 4096 < a + n)

/-- The legality of a tenant block (Tables 8.1, 8.2, R198). -/
def State.tenantBlockOk (s : State) (b : List Byte) : Bool :=
  let t := tenantOf b
  b.length == 256 && leAt b 0 1 ≤ 1 && 1 ≤ t.saveSlots && t.saveSlots ≤ 64 && t.rtDensity ≤ 64000 && t.rtStreams ≤ 256 &&
  t.intCores ≤ 64 && t.bgCores ≤ 64 && t.affinity ≠ 0 && t.saveBase % 4096 == 0 && t.saveBase < 2 ^ 40 && zerosAt b 24 8 &&
  (List.range 8).all (fun i => tenWinOk (slice b (32 + 16 * i) 16)) && (t.signed || zerosAt b 160 96) &&
  s.inDmOrLpddr t.saveBase (t.saveSlots * slotBytes) &&
  !t.windows.any (fun w => w.meets t.saveBase (t.saveSlots * slotBytes))

/-! ### Densities (R210, R220) -/

/-- The pre-emption allowance of core `c` in µs (R210). -/
def State.allowance (s : State) (c : Nat) : Nat :=
  if s.tenants.all (fun e => match e.2 with
    | some t => !bit t.affinity c || (match s.region t.saveBase with | .dm _ => true | _ => false)
    | none => true) then 22 else 60

/-- The density, in ‰, of a stream of block size 2^`bLog2` that needs `us` µs and `x`/32,000 µs more in its processing window of
B frame periods less 16 µs, and less twice the Shusor path latency of `lat` rc (R210); with no window left it exceeds every cap. -/
def State.densityOf (s : State) (bLog2 us x lat : Nat) : Nat :=
  let w := 2 ^ bLog2 * 24576000000 - 16 * 24576 * s.rateHz - 2000 * lat * s.rateHz
  if w = 0 then 1000000 else ceilDiv (24576000 * (us * 32000 + x) * s.rateHz) (32000 * w)

/-- The Shusor path latency to the part of a stream that this one processes, in rc (R222). -/
def State.guestLat (s : State) (n : BitVec 6) : Nat := (s.route n.toNat).elim 0 (fun r => s.pathLat r.2)

/-- A stream with the densities that the present allowances give (R199, R210). -/
def State.density (s : State) (x : Stream) : Stream :=
  let d := fun (c xfer lat : Nat) => s.densityOf x.bLog2 (x.reserve + s.allowance c) xfer lat
  let lat := x.guest.elim 0 (fun g => s.guestLat g.node)
  { x with
    density := if x.remote.isSome then 0 else d x.core (x.guest.elim 0 (·.xfer)) lat,
    guest := x.guest.map (fun g => { g with after := d x.core 0 lat }),
    migr := x.migr.map (fun m => if m.node.isSome then m else { m with
      density := d m.dest m.xfer 0, densityAfter := d m.dest 0 0 }) }

/-- Every stream's density after the tenants changed. -/
def State.densities (s : State) : State :=
  { s with streams := s.streams.map (fun (e : Nat × Option Stream) => (e.1, e.2.map s.density)) }

/-- Does a core of a mask that holds reservations exceed RT_CAP (R199)? -/
def State.overCap (s : State) (m : W64) : Bool :=
  (maskCores m).any (fun c => s.sch.rtCap.toNat < s.coreDensity c)

/-! ### Tenant commands (R197-R201) -/

/-- The tenants with one of them set, and the densities that follow. -/
def State.withTenant (i : Nat) (t : Option Tenant) (s : State) : State :=
  ({ s with tenants := tset none s.tenants i t }).densities

/-- Does a tenant block name a save area that the map denies (R469)? -/
def State.saveAreaDenied (s : State) (b : List Byte) : Bool :=
  let t := tenantOf b
  (pagesOf t.saveBase (t.saveSlots * slotBytes)).any (fun p => (s.mapDeny true p).isSome)

/-- The checks of TENANT_CREATE (R199, R469). -/
def checkTenantCreate (s : State) (c : Cmd) : Option Nat :=
  if (s.tenant c.tenant).isSome || !s.tenantBlockOk c.params then some rsBadParam
  else if s.saveAreaDenied c.params then some rsMemWindow
  else if (s.withTenant c.tenant (some (tenantOf c.params))).overCap (tenantOf c.params).affinity then some rsNoBudget
  else none

/-- TENANT_CREATE takes effect. -/
def State.applyTenantCreate (c : Cmd) (s : State) : State :=
  (s.withTenant c.tenant (some (tenantOf c.params))).served c []

/-- TENANT_CREATE (R199). -/
def execTenantCreate (id : Nat) (s : State) : Host.Outcome State Fault Refusal :=
  .next (s.command id 0x0010 (fun _ => true) checkTenantCreate State.applyTenantCreate)

/-- Do the tenant's open streams break its new budget or mask (R199)? -/
def State.streamsBreak (s : State) (i : Nat) (t : Tenant) : Bool :=
  t.rtDensity < s.tenantDensity i || t.rtStreams < (s.tenantStreams i).length ||
  (s.tenantStreams i).any (fun e =>
    (e.2.remote.isNone && !bit t.affinity e.2.core) || e.2.migr.any (fun m => m.node.isNone && !bit t.affinity m.dest))

/-- The tenant that a TENANT_SET leaves: the block's fields, with the save slots it holds. -/
def Tenant.replaced (old : Tenant) (b : List Byte) : Tenant := { tenantOf b with slotsUsed := old.slotsUsed }

/-- The checks of TENANT_SET (R199). -/
def checkTenantSet (s : State) (c : Cmd) : Option Nat :=
  match s.tenant c.tenant with
  | none => some rsNoTenant
  | some old =>
    let t := old.replaced c.params
    let s1 := s.withTenant c.tenant (some t)
    if !s.tenantBlockOk c.params then some rsBadParam
    else if s.saveAreaDenied c.params then some rsMemWindow
    else if s1.overCap t.affinity || s1.streamsBreak c.tenant t then some rsNoBudget
    else none

/-- TENANT_SET takes effect: every field at once (R197, R200). -/
def State.applyTenantSet (c : Cmd) (s : State) : State :=
  match s.tenant c.tenant with
  | some old => (s.withTenant c.tenant (some (old.replaced c.params))).served c []
  | none => s.complete c ocRefused rsNoTenant

/-- TENANT_SET (R199, R200). -/
def execTenantSet (id : Nat) (s : State) : Host.Outcome State Fault Refusal :=
  .next (s.command id 0x0012 (fun _ => true) checkTenantSet State.applyTenantSet)

/-- The checks of TENANT_DESTROY (R201, R434); it has no parameters. -/
def checkTenantDestroy (s : State) (c : Cmd) : Option Nat :=
  let t := c.tenant
  if c.params ≠ [] then some rsBadParam
  else if s.tenantStreams t ≠ [] then some rsStreamOpen
  else if s.jobs.any (fun e => e.2.any (fun j => j.tenant == t)) || s.rules.any (fun e => e.2.enabled && e.2.tenant == t) ||
      (s.cam.running && s.cam.owner.toNat == t) then some rsJobsActive
  else none

/-- TENANT_DESTROY takes effect (R201, R371, R476): images unloaded, slot zeroised, pools destroyed, descriptors left. -/
def State.applyTenantDestroy (c : Cmd) (s : State) : State :=
  let t := c.tenant
  let s1 := { s with
    images := s.images.filter (fun (e : Nat × Option Image) => !(e.2.any (fun (i : Image) => i.tenant == t))) }
  let s2 := (s.pools.filter (fun e => e.2.any (fun (p : Pool) => p.tenant == t))).foldl (fun s e => s.poolGone e.1) s1
  (({ s2 with kvShares := s2.kvShares.filter (fun e => e.2.tenant ≠ t) }.zeroise t).withTenant t none).served c []

/-- TENANT_DESTROY (R201). -/
def execTenantDestroy (id : Nat) (s : State) : Host.Outcome State Fault Refusal :=
  .next (s.command id 0x0011 (fun _ => true) checkTenantDestroy State.applyTenantDestroy)

/-! ### Images (R176, R234) -/

/-- The bytes of a code segment. -/
def codeBytes (i : ImageDesc) : List Byte := i.code.flatMap (fun w => toLe 16 w.toNat)

/-- The checks of IMAGE_LOAD (R15, R39, R176): SOURCE in bytes 7:0, LENGTH in bytes 15:8 (DESIGN CHOICE, log 22); a source that the map denies is
refused first (R469). The code segment lies 16-byte aligned in DM or LPDDR (R234). -/
def checkImageLoad (img : ImageDesc) (s : State) (c : Cmd) : Option Nat :=
  if c.params.length ≠ 16 then some rsBadParam
  else if 2 ^ 40 < c.p 0 8 + c.p 8 8 || (pagesOf (c.p 0 8) (c.p 8 8)).any (fun p => (s.mapDeny false p).isSome) then some rsMemWindow
  else if c.p 8 8 = 0 || !img.formatOk || img.codeBase % 16 ≠ 0 || !s.inDmOrLpddr img.codeBase (codeBytes img).length then some rsImageFormat
  else if !s.rev2 && (img.usesMpc || img.uses16g || img.usesSysKeys) then some rsUnsupported
  else if (s.tenant c.tenant).any (fun t => t.signed) && !img.signatureOk then some rsImageSignature
  else if (freeIndex s.images 65536).isNone then some rsNoMemory
  else none

/-- IMAGE_LOAD takes effect: the code segment is stored under the tenant's key and the handle returned. -/
def State.applyImageLoad (img : ImageDesc) (c : Cmd) (s : State) : State :=
  match s.saveDeny c.tenant img.codeBase (codeBytes img).length true with
  | some d => (s.noteDeny d).complete c ocFailed (faultReason d.code)
  | none =>
    let h := (freeIndex s.images 65536).getD 0
    ({ s.devWrite img.codeBase (codeBytes img) with
        images := tset none s.images h (some { tenant := c.tenant, codeBase := img.codeBase, codeLen := img.code.length,
                                               entries := img.entries }) }).served c (res2 h)

/-- IMAGE_LOAD (R176): `img` is what the image holds when the command takes effect, which for one with AT or NOT_BEFORE is its due
tick. It waits while a bridge in RETRAIN holds the store (R29). -/
def execImageLoad (id : Nat) (img : ImageDesc) (s : State) : Host.Outcome State Fault Refusal :=
  .next <| if s.pathHeld none img.codeBase (codeBytes img).length then s else
  match s.cmd id, s.tb.compares.find? (fun k => k.owner == .cmd id && k.hit.isSome) with
  | some c, some k =>
    if c.op = 0x0020 ∧ c.phase = .armed then
      (s.disarm (.cmd id)).dueTick c (k.hit.getD (0, false)).1 (k.hit.getD (0, false)).2 (checkImageLoad img) (State.applyImageLoad img)
    else s
  | _, _ => (s.command id 0x0020 (fun _ => true) (checkImageLoad img) (State.applyImageLoad img))

/-- The checks of IMAGE_UNLOAD (R176): the handle in bytes 1:0, bytes 7:2 zero (DESIGN CHOICE, log 22). -/
def checkImageUnload (s : State) (c : Cmd) : Option Nat :=
  let h := c.p 0 2
  if c.params.length ≠ 8 || !zerosAt c.params 2 6 then some rsBadParam
  else if !((s.image h).any (fun i => i.tenant == c.tenant)) || s.streams.any (fun e => e.2.any (fun x => x.image == h)) ||
      s.rules.any (fun e => e.2.enabled && e.2.image == h) then some rsBadHandle
  else none

/-- IMAGE_UNLOAD takes effect. -/
def State.applyImageUnload (c : Cmd) (s : State) : State :=
  ({ s with images := tset none s.images (c.p 0 2) none }).served c []

/-- IMAGE_UNLOAD (R176). -/
def execImageUnload (id : Nat) (s : State) : Host.Outcome State Fault Refusal :=
  .next (s.command id 0x0021 (fun _ => true) checkImageUnload State.applyImageUnload)

/-! ### RT_CAP (R212) -/

/-- A write to SCH_CTRL (R212). -/
def State.writeSchCtrl (v : W32) (s : State) : State :=
  let n := fld v 0 10
  if 1000 < n || (List.range 64).any (fun c => n < s.coreDensity c) then s.errSch 2
  else { s with sch.rtCap := BitVec.ofNat 10 n }

/-- SCH_CTRL_WRITE (R212). -/
def execSchCtrlWrite (v : BitVec 32) (s : State) : Host.Outcome State Fault Refusal :=
  .next (s.onBlock 0x70000 (State.writeSchCtrl v))

/-! ### Reset commands (R70, R71) -/

/-- WARM_RESET takes effect, with what else is reset in the cycle (R70): cause WARM_CMD; the command itself completes last (R71). -/
def State.applyWarmReset (also : AlsoReset) (c : Cmd) (s : State) : State := s.warm 2 (some c.id) also

/-- WARM_RESET (R71). -/
def execWarmReset (id : Nat) (also : AlsoReset) (s : State) : Host.Outcome State Fault Refusal :=
  .next (s.command id 0x0071 (fun _ => true) noParams (State.applyWarmReset also))

/-- The checks of DIE_RESET: the die mask in bits 3:0 of 8 bytes (layout: DESIGN CHOICE, log 22). -/
def checkDieReset (_ : State) (c : Cmd) : Option Nat :=
  if c.params.length = 8 ∧ c.p 0 8 < 16 then none else some rsBadParam

/-- DIE_RESET takes effect. -/
def State.applyDieReset (c : Cmd) (s : State) : State :=
  (forN 4 (fun d s => if bitN (c.p 0 1) d then s.dieReset d else s) s).served c []

/-- DIE_RESET (R70). -/
def execDieReset (id : Nat) (s : State) : Host.Outcome State Fault Refusal :=
  .next (s.command id 0x0072 (fun _ => true) checkDieReset State.applyDieReset)

/-- The checks of CORE_RESET: the core in bits 5:0 of 8 bytes (layout: DESIGN CHOICE, log 22). -/
def checkCoreReset (_ : State) (c : Cmd) : Option Nat :=
  if c.params.length = 8 ∧ c.p 0 8 < 64 then none else some rsBadParam

/-- CORE_RESET takes effect. -/
def State.applyCoreReset (c : Cmd) (s : State) : State := (s.coreReset (c.p 0 1)).served c []

/-- CORE_RESET (R70). -/
def execCoreReset (id : Nat) (s : State) : Host.Outcome State Fault Refusal :=
  .next (s.command id 0x0073 (fun _ => true) checkCoreReset State.applyCoreReset)

end Sys2Proof.Machine
end

