-- ==== Sys2Proof/Machine/Streams.lean ====
section
/-!
DEFINITION. The stream commands: STREAM_OPEN with its checks and admission (R83-R88, R179, R203, R210, R211, R233) and the start of the
stream (R84, R92, R179), STREAM_CLOSE (R93), STREAM_ROUTE (R89), STREAM_PATCH (R184) and STREAM_MIGRATE (R219-R223).
-/
namespace Sys2Proof.Machine

/-! ### Routes (R87, R88, R96, Table 7.7) -/

/-- The route bytes in 8 bytes from offset `o` for `n` channels: well formed, unused bytes zero (Table 7.7). -/
def routesAt (b : List Byte) (o n : Nat) : Option (List Nat) :=
  let l := (List.range 8).map (fun i => leAt b (o + i) 1)
  if (List.range 8).all (fun i => if i < n then rtOk (nthN l i) else nthN l i == 0) then some l else none

/-- Does a route byte name a disabled port, a slot beyond SLOTS, or a USB channel beyond the active setting (R88)? A stream's input
comes from the host, its output goes to it (R95). -/
def State.routeInvalid (s : State) (input : Bool) (r : Nat) : Bool :=
  if rtUsb r then (if input then s.aud.usbOut == 0 else s.aud.usbIn == 0)
  else
    let c := (s.port (rtPort r)).ctrl
    !bit c 0 || fld c 4 4 < rtSlot r

/-- The output route bytes that other streams and captures drive (R88, R93, R415); a capture claims its slot from its acceptance until
EXCITE ends (DEDUCED, log 45). -/
def State.drivenBy (s : State) (except_ : Option Nat) : List Nat :=
  s.streams.flatMap (fun e => if some e.1 = except_ then [] else match e.2 with
    | some x => x.outUse
    | none => []) ++
  s.caps.filterMap (fun e => e.2.bind (fun k => if k.phase = 0 then some k.outRoute else none))

/-- A list without repeats? -/
def distinct : List Nat → Bool
  | [] => true
  | a :: t => !t.contains a && distinct t

/-- The checks of R88 and R96 on the routes of a stream: USB_RATE, ROUTE_INVALID, ROUTE_BUSY (order: DEDUCED, log 23). -/
def State.routeRefusal (s : State) (self : Option Nat) (ins outs : List Nat) : Option Nat :=
  if (ins ++ outs).any rtUsb && s.fastRate then some rsUsbRate
  else if ins.any (s.routeInvalid true) || outs.any (s.routeInvalid false) then some rsRouteInvalid
  else if !distinct outs || outs.any (fun r => (s.drivenBy self).contains r) then some rsRouteBusy
  else none

/-! ### Admission (R210, R211, R220, R233) -/

/-- The frame-mover buffers (address, length) on core `c` (R233). -/
def State.fmBufs (s : State) (c : Nat) : List (Nat × Nat) :=
  s.streams.flatMap (fun e => match e.2 with
    | none => []
    | some x =>
      let ni := x.b * x.chIn * 4
      let no := x.b * x.chOut * 4
      (if x.core = c ∧ x.remote.isNone then [(x.inBuf, ni), (x.outBuf, no)] else []) ++
      (match x.migr with
       | some m => if m.node.isNone ∧ m.dest = c then [(m.inBuf, ni), (m.outBuf, no)] else []
       | none => []))

/-- The highest place for `n` bytes in the frame-mover area beside the buffers in use (R233: from the top downward). -/
def fmPlace (used : List (Nat × Nat)) (n : Nat) : Option Nat :=
  let tops := (0xC0000 :: used.map (·.1)).filter (fun t => fmBase + n ≤ t)
  let ok := (tops.map (fun t => t - n)).filter (fun a => !used.any (overlap (a, n)))
  ok.foldl (fun o a => match o with
    | none => some a
    | some b => some (Nat.max a b)) none

/-- Places for the input and the output buffer of a stream on core `c` (R233). -/
def State.fmPair (s : State) (c ni no : Nat) : Option (Nat × Nat) :=
  (fmPlace (s.fmBufs c) ni).bind (fun a => (fmPlace ((a, ni) :: s.fmBufs c) no).map (fun b => (a, b)))

/-- What an admission reserves: core, density with and without the transfer allowance, buffers. -/
structure Homing where
  core : Nat
  density : Nat
  after : Nat
  inBuf : Nat
  outBuf : Nat
  deriving DecidableEq, Repr

/-- Steps 2 to 4 of R211 for tenant `t` over a mask: `us` µs and `x`/32,000 µs per block, a path latency of `lat` rc, buffers of `ni` and
`no` bytes. Step 2 is made with the allowance of each candidate core in turn (DEDUCED, log 23). -/
def State.admission (s : State) (t : Nat) (mask : W64) (bLog2 us x lat ni no : Nat) : Nat ⊕ Homing :=
  let lim := ((s.tenant t).map (·.rtDensity)).getD 0
  let cands := (maskCores mask).filter (fun c => s.dieUp (c / 16))
  let d := fun c => s.densityOf bLog2 (us + s.allowance c) x lat
  let within := cands.filter (fun c => s.tenantDensity t + d c ≤ lim)
  let fits := within.findSome? (fun c =>
    if s.coreDensity c + d c ≤ s.sch.rtCap.toNat then
      (s.fmPair c ni no).map (fun b => Homing.mk c (d c) (s.densityOf bLog2 (us + s.allowance c) 0 lat) b.1 b.2)
    else none)
  match fits with
  | some h => .inr h
  | none =>
    if !cands.isEmpty && within.isEmpty then .inl rsNoBudget
    else if (maskCores mask).any (fun c => !s.dieUp (c / 16)) then .inl rsDieUnavailable
    else .inl rsNoBudget

/-! ### STREAM_OPEN -/

/-- Is 2^`bLog2` a block size of Table 4.2 at the rate (R83)? -/
def State.blockOk (s : State) (bLog2 : Nat) : Bool :=
  bLog2 ≤ 8 && (if s.rateHz ≤ 48000 then 4 else if s.rateHz ≤ 96000 then 5 else 6) ≤ bLog2

/-- Input channels of a STREAM_OPEN (Table 7.7). -/
def Cmd.chIn (c : Cmd) : Nat := bits (c.p 5 1) 0 3 + 1
/-- Output channels of a STREAM_OPEN (Table 7.7). -/
def Cmd.chOut (c : Cmd) : Nat := bits (c.p 5 1) 3 3 + 1

/-- The admission of a STREAM_OPEN (R211). -/
def State.openAdmit (s : State) (c : Cmd) : Nat ⊕ Homing :=
  let n := fun ch => 2 ^ c.p 4 1 * ch * 4
  match s.tenant c.tenant with
  | none => .inl rsNoTenant
  | some t =>
    if (freeIndex s.streams 256).isNone || t.rtStreams ≤ (s.tenantStreams c.tenant).length then .inl rsTooManyStreams
    else s.admission c.tenant t.affinity (c.p 4 1) (c.p 6 2) 0 0 (n c.chIn) (n c.chOut)

/-- Is the loaded image `h` of a tenant, with program `e`? -/
def State.hasProgram (s : State) (t h e : Nat) : Bool := (s.image h).any (fun i => i.tenant == t && e < i.entries.length)

/-- May a parameter name a byte range, which tenant `t` is to read (`perm` 0) or to write (1): does it lie in the windows, outside the
Hoard, on addresses that the map does not deny (R203, R400, R469)? -/
def State.paramOk (s : State) (t perm : Nat) (r : Nat × Nat) : Bool :=
  windowsAllow (s.windowsOf t) perm r.1 r.2 &&
    (pagesOf r.1 r.2).all (fun p => !s.inHoard p && (s.mapDeny (perm = 1) p).isNone)

/-- A parameter's byte range that is both read and written (R203). -/
def State.paramRw (s : State) (t a n : Nat) : Bool := s.paramOk t 0 (a, n) && s.paramOk t 1 (a, n)

/-- The checks of STREAM_OPEN: parameters (Table 7.7), due field (R84), image, STATE_ADDR over the record's 64-byte header (R203),
block (R83), routes (R88, R96), admission (R211). Order: DEDUCED, log 23. -/
def checkOpen (s : State) (c : Cmd) : Option Nat :=
  match routesAt c.params 8 c.chIn, routesAt c.params 16 c.chOut with
  | some ins, some outs =>
    if c.params.length ≠ 32 ∨ 2 ^ 40 ≤ c.p 24 8 then some rsBadParam
    else if 2 ≤ dueSel c.due then some rsBadDue
    else if !s.hasProgram c.tenant (c.p 0 2) (c.p 2 2) then some rsBadHandle
    else if !s.paramRw c.tenant (c.p 24 8) 64 then some rsMemWindow
    else if !s.blockOk (c.p 4 1) then some rsBadBlock
    else match s.routeRefusal none (ins.take c.chIn) (outs.take c.chOut) with
      | some rs => some rs
      | none => match s.openAdmit c with
        | .inl rs => some rs
        | .inr _ => none
  | _, _ => some rsBadParam

/-- The stream of an admitted STREAM_OPEN whose first block boundary is `first`, on its home (R179, R210, R211). -/
def Cmd.stream (c : Cmd) (s : State) (h : Homing) (first : Nat) : Stream :=
  { tenant := c.tenant, image := c.p 0 2, entry := c.p 2 2, bLog2 := c.p 4 1, chIn := c.chIn, chOut := c.chOut,
    fp32 := bitN (c.p 5 1) 6, holdFade := bitN (c.p 5 1) 7, reserve := c.p 6 2,
    inRoute := (routesAt c.params 8 c.chIn).getD [], outRoute := (routesAt c.params 16 c.chOut).getD [], stateAddr := c.p 24 8,
    core := h.core, density := h.density, fmax := fld (tget dvfsReset s.pmu.dvfs (h.core / 16)) 8 6,
    openCmd := some c.id, first := first, inBuf := h.inBuf, outBuf := h.outBuf,
    lastOut := List.replicate c.chOut 0, fadeFrom := List.replicate c.chOut 0 }

/-- The stream claimed by an open on reading (R179). -/
def State.claimStream (c : Cmd) (first : Nat) (s : State) : State :=
  match s.openAdmit c, freeIndex s.streams 256 with
  | .inr h, some i => { s with streams := tset none s.streams i (some (c.stream s h first)) }
  | _, _ => s

/-- The first block boundary after now. -/
def State.nextBoundary (s : State) (b : Nat) : Nat := (s.tb.sfc.toNat / b + 1) * b

/-- An open is admitted on reading (R179): with AT or NOT_BEFORE it starts at the first block boundary its due value reaches, else at
the first one after (R84); the frame of the reading is latched already, so that a reached value starts at the next boundary
(DEDUCED, log 23). A DEADLINE is armed (R60). -/
def State.readOpen (c : Cmd) (s : State) : State :=
  let b := 2 ^ c.p 4 1
  let v := (dueVal c.due).toNat
  let now := s.tb.sfc.toNat
  if dueIs c.due 0 ∨ dueIs c.due 1 then
    if v ≤ now then
      let late := if dueIs c.due 0 then now - v else 0
      s.begin_ { c with late := late, timer := c.timed } (fun c s => s.claimStream c (s.nextBoundary b))
    else
      (((s.modCmd c.id (fun c => { c with phase := .armed })).claimStream c (ceilDiv v b * b))).arm .sfc v (.cmd c.id)
  else if dueIs c.due 2 then
    if v ≤ now then s.complete c ocTimedOut rsDeadlinePassed
    else (s.arm .sfc v (.cmd c.id)).begin_ c (fun c s => s.claimStream c (s.nextBoundary b))
  else s.begin_ c (fun c s => s.claimStream c (s.nextBoundary b))

/-- The due tick of an armed open (R61, R84): its timer starts; the value at which its compare fired is reached. -/
def State.openTick (c : Cmd) (late : Nat) (skipped : Bool) (s : State) : State :=
  let at_ := dueIs c.due 0
  s.modCmd c.id (fun c => { c with
    phase := .running, timer := c.timed, late := if at_ then late else 0, skipped := at_ && skipped })

/-- A stream command that has been read and may start: refused by its checks, or taken on (R182, R183). -/
def State.readStream (id op : Nat) (check : State → Cmd → Option Nat) (take : Cmd → State → State) (s : State) : State :=
  match s.cmd id with
  | none => s
  | some c =>
    if c.op ≠ op ∨ c.phase ≠ .read ∨ !s.mayStart c then s
    else match check s c with
      | some rs => s.complete c ocRefused rs
      | none => take c s

/-- STREAM_OPEN (R106, R179): it is admitted or refused as part of its reading, before any later command is read. What it shares with
earlier commands of its ring, and FENCE, hold only the start of the stream (DEDUCED, log 23). -/
def execStreamOpen (id : Nat) (s : State) : Host.Outcome State Fault Refusal :=
  .next <| match s.cmd id with
  | none => s
  | some c =>
    if c.op ≠ 0x0030 ∨ c.phase ≠ .read then s
    else match checkOpen s c with
      | some rs => s.complete c ocRefused rs
      | none => s.readOpen c

/-- STREAM_START (R84, R92, R179): at its first block boundary the stream starts and its STREAM_OPEN completes with the handle and
that boundary. When an SFC jump has skipped the boundary, or an earlier command still holds the start (R182, R183), the next one takes its
place (DEDUCED, log 23). -/
def execStreamStart (h : Fin 256) (s : State) : Host.Outcome State Fault Refusal :=
  .next <| match s.stream h.val with
  | none => s
  | some x =>
    let now := s.tb.sfc.toNat
    match x.openCmd with
    | none => s
    | some id =>
      if x.started ∨ now < x.first then s
      else match s.cmd id with
        | none => s
        | some c =>
          if !x.begun now ∨ !s.mayStart c then s.modStream h.val (fun x => { x with
            first := (now / x.b + 1) * x.b, collect := [], blocks := [] })
          else if c.phase = .running then
            (s.modStream h.val (fun x => { x with started := true, openCmd := none })).served c (toLe 2 h.val ++ toLe 6 x.first)
          else s

/-! ### STREAM_CLOSE, STREAM_ROUTE, STREAM_PATCH -/

/-- The open stream that HANDLE names for the command's tenant; a handle is usable once its open has completed (R179), and not while
the stream closes (DEDUCED, log 23). -/
def State.handleOf (s : State) (c : Cmd) : Option Stream :=
  (s.stream (c.p 0 2)).bind (fun x =>
    if x.tenant = c.tenant ∧ x.started ∧ x.guest = none ∧ x.closeAt = none ∧ x.closeCmd = none then some x else none)

/-- The checks of STREAM_CLOSE: HANDLE in bytes 1:0 of 8 (layout: DESIGN CHOICE, log 22). -/
def checkClose (s : State) (c : Cmd) : Option Nat :=
  if c.params.length ≠ 8 ∨ !zerosAt c.params 2 6 then some rsBadParam
  else if (s.handleOf c).isNone then some rsBadHandle else none

/-- STREAM_CLOSE takes effect (R93): the close boundary is the first that its due value reaches, or the first after it is read
(DEDUCED, log 23). -/
def State.applyClose (c : Cmd) (s : State) : State :=
  match s.handleOf c with
  | none => s.complete c ocRefused rsBadHandle
  | some x =>
    let b := if dueIs c.due 0 ∨ dueIs c.due 1 then ceilDiv s.tb.sfc.toNat x.b * x.b else s.nextBoundary x.b
    s.modStream (c.p 0 2) (fun x => { x with closeAt := some b, closeCmd := some c.id })

/-- STREAM_CLOSE (R93). -/
def execStreamClose (id : Nat) (s : State) : Host.Outcome State Fault Refusal :=
  .next (s.command id 0x0031 (fun _ => true) checkClose State.applyClose)

/-- The checks of STREAM_ROUTE (R84, R88, R89): HANDLE in bytes 1:0, IN_ROUTE in 15:8, OUT_ROUTE in 23:16 of 24 (layout: DESIGN CHOICE,
log 22; order: DEDUCED, log 23). The route bytes are well formed for the stream's channels or, where the handle names no stream, for any. -/
def checkRoute (s : State) (c : Cmd) : Option Nat :=
  let x := s.handleOf c
  let n := x.elim (8, 8) (fun x => (x.chIn, x.chOut))
  match routesAt c.params 8 n.1, routesAt c.params 16 n.2 with
  | some ins, some outs =>
    if c.params.length ≠ 24 ∨ !zerosAt c.params 2 6 then some rsBadParam
    else if 2 ≤ dueSel c.due then some rsBadDue
    else match x with
      | none => some rsBadHandle
      | some x =>
        if (dueIs c.due 0 || dueIs c.due 1) && (dueVal c.due).toNat % x.b ≠ 0 then some rsNotBlockAligned
        else s.routeRefusal (some (c.p 0 2)) (ins.take x.chIn) (outs.take x.chOut)
  | _, _ => some rsBadParam

/-- A route switch is registered on reading (R88, R89): it takes effect with the input of frame `v`, at which its compare completes
the command; a value already reached takes the next block boundary (DEDUCED, log 23). R89 speaks of due kind AT alone: that NOT_BEFORE is
taken like AT, and that with DEADLINE or without a due field the route switches at the next block boundary, is a DESIGN CHOICE (log 131). -/
def State.readRoute (c : Cmd) (s : State) : State :=
  match s.handleOf c with
  | none => s.complete c ocRefused rsBadHandle
  | some x =>
    let now := s.tb.sfc.toNat
    let due : Bool := dueIs c.due 0 || dueIs c.due 1
    let v := (dueVal c.due).toNat
    let sw := if due && now < v then v else s.nextBoundary x.b
    let c1 := { c with phase := .armed, late := if dueIs c.due 0 && v ≤ now then now - v else 0,
                       timer := c.timer || (due && v ≤ now && c.timed) }
    if dueIs c.due 2 ∧ v ≤ now then s.complete c ocTimedOut rsDeadlinePassed
    else
      let w : RouteSwitch := { cmd := c.id, at_ := sw, inRoute := (routesAt c.params 8 x.chIn).getD [],
                               outRoute := (routesAt c.params 16 x.chOut).getD [] }
      let s1 := (s.modCmd c.id (fun _ => c1)).modStream (c.p 0 2) (fun x => { x with nextRoutes := x.nextRoutes ++ [w] })
      s1.arm .sfc (if dueIs c.due 2 then Nat.min sw v else sw) (.cmd c.id)

/-- The switch of a STREAM_ROUTE is reached (R89, R105): served, unless the stream closes first (DEDUCED, log 23) or a DEADLINE passes
before the switch (R60). -/
def State.routeTick (c : Cmd) (late : Nat) (skipped : Bool) (s : State) : State :=
  let at_ := dueIs c.due 0
  let drop := fun (s : State) => s.modStream (c.p 0 2) (fun x => { x with nextRoutes := x.nextRoutes.filter (fun w => w.cmd ≠ c.id) })
  match s.stream (c.p 0 2) with
  | none => s.complete c ocRefused rsBadHandle
  | some x =>
    if x.closeAt.any (fun b => b ≤ s.tb.sfc.toNat) then (drop s).complete c ocRefused rsBadHandle
    else if dueIs c.due 2 && x.nextRoutes.any (fun w => w.cmd == c.id) then (drop s).complete c ocTimedOut rsDeadlinePassed
    else s.served { c with late := if at_ then (if c.late ≠ 0 then c.late else late) else 0, skipped := at_ && skipped } []

/-- STREAM_ROUTE (R89). -/
def execStreamRoute (id : Nat) (s : State) : Host.Outcome State Fault Refusal :=
  .next (s.readStream id 0x0033 checkRoute State.readRoute)

/-- The checks of STREAM_PATCH: HANDLE in bytes 1:0, the parameter block from byte 8 (layout: DESIGN CHOICE, log 22). -/
def checkPatch (s : State) (c : Cmd) : Option Nat :=
  if c.params.length < 8 ∨ !zerosAt c.params 2 6 then some rsBadParam
  else if (s.handleOf c).isNone then some rsBadHandle else none

/-- STREAM_PATCH takes effect (R184): the stream takes the block; what a job does with it is the program's (log 22). -/
def State.applyPatch (c : Cmd) (s : State) : State :=
  (s.modStream (c.p 0 2) (fun x => { x with patch := c.params.drop 8 })).served c []

/-- STREAM_PATCH (R184). -/
def execStreamPatch (id : Nat) (s : State) : Host.Outcome State Fault Refusal :=
  .next (s.command id 0x0034 (fun _ => true) checkPatch State.applyPatch)

/-! ### STREAM_MIGRATE (R219-R223) -/

/-- Does NODE name this part: 0xFF, or its own NODE_ID (Table 8.4)? -/
def State.nodeHere (s : State) (n : Nat) : Bool := n == 0xFF || n == s.node

/-- The transfer allowance X on the same part in 1/32,000 µs (R220): 4 µs and S bytes at 32 GB/s. -/
def State.transfer (s : State) (x : Stream) : Nat := 4 * 32000 + s.recordLen x.stateAddr

/-- The transfer allowance X of a state of `n` bytes that comes across parts, in 1/32,000 µs (R220): 60 µs and `n` bytes over 4 lanes at
the rate of the link to the source, 12.5 or 16 Gb/s. -/
def State.transferAcross (s : State) (src n : Nat) : Nat :=
  let fast := (s.route src).any (fun r => r.2.head?.any (fun e => (s.slp e.2).rate16))
  60 * 32000 + (if fast then 4 * n else ceilDiv (128 * n) 25)

/-- The transfer allowance of a migration to this part: within it, or from the part that processes the stream (R220). -/
def State.migrXfer (s : State) (x : Stream) : Nat :=
  match x.remote with
  | some n => s.transferAcross n.toNat (s.recordLen x.stateAddr)
  | none => s.transfer x

/-- The admission of a migration on this part (R220 step 7). -/
def State.migrAdmit (s : State) (c : Cmd) (x : Stream) : Nat ⊕ Homing :=
  s.admission c.tenant (BitVec.ofNat 64 (c.p 8 8)) x.bLog2 x.reserve (s.migrXfer x) 0 (x.b * x.chIn * 4) (x.b * x.chOut * 4)

/-- The parameters of STREAM_MIGRATE that Table 8.4 does not allow, DEST_MASK beyond AFFINITY on this part among them. -/
def State.migrBad (s : State) (c : Cmd) : Bool :=
  c.params.length ≠ 24 || !zerosAt c.params 3 5 || !zerosAt c.params 22 2 || !(c.p 2 1 ≤ 63 || c.p 2 1 == 0xFF) ||
  (s.nodeHere (c.p 2 1) && BitVec.ofNat 64 (c.p 8 8) &&& ~~~ ((s.tenant c.tenant).elim 0 (·.affinity)) ≠ 0)

/-- The checks of STREAM_MIGRATE (Table 8.4, R220, R362); one pending migration excludes a second (DEDUCED, log 23). A state that comes from
another part needs its windows here (R362), judged before the admission (DEDUCED, log 23). Steps 6 and 7 of another part are made there. -/
def checkMigrate (s : State) (c : Cmd) : Option Nat :=
  if s.migrBad c then some rsBadParam
  else match s.handleOf c with
    | none => some rsBadHandle
    | some x =>
      if x.migr.isSome then some rsJobsActive
      else if c.p 16 6 % x.b ≠ 0 then some rsNotBlockAligned
      else if c.p 16 6 < ceilDiv (s.tb.sfc.toNat + 4 * x.b) x.b * x.b then some rsBadParam
      else if s.nodeHere (c.p 2 1) then
        (if !s.hasProgram c.tenant x.image x.entry then some rsBadHandle
         else if x.remote.isSome && !s.paramRw c.tenant x.stateAddr (s.recordLen x.stateAddr) then some rsMemWindow
         else match s.migrAdmit c x with
          | .inl rs => some rs
          | .inr _ => none)
      else if (s.route (c.p 2 1)).isNone then some rsRemoteUnreachable
      else if s.confidential c.tenant && !s.key.rackTrusted then some rsNotRackTrusted
      else none

/-- What a request for admission tells of a stream (layout: DESIGN CHOICE, log 14): block size, channels and format, RESERVE, image and
program, STATE_ADDR, the size of the state, DEST_MASK. -/
def Stream.askData (x : Stream) (size mask : Nat) : List Byte :=
  toLe 1 x.bLog2 ++ toLe 1 (x.chIn - 1 + (x.chOut - 1) * 8 + at_ x.fp32 6) ++ toLe 2 x.reserve ++ toLe 2 x.image ++ toLe 2 x.entry ++
  toLe 8 x.stateAddr ++ toLe 8 size ++ toLe 8 mask

/-- STREAM_MIGRATE takes effect: the destination is reserved (R220), or asked of another part. -/
def State.applyMigrate (c : Cmd) (s : State) : State :=
  match s.handleOf c with
  | none => s.complete c ocRefused rsBadHandle
  | some x =>
    if s.nodeHere (c.p 2 1) then match s.migrAdmit c x with
      | .inl rs => s.complete c ocRefused rs
      | .inr h =>
        let m : Migr := { cmd := c.id, node := none, dest := h.core, switch_ := c.p 16 6, density := h.density,
                          densityAfter := h.after, xfer := s.migrXfer x, inBuf := h.inBuf, outBuf := h.outBuf,
                          fmax := fld (tget dvfsReset s.pmu.dvfs (h.core / 16)) 8 6 }
        s.modStream (c.p 0 2) (fun x => { x with migr := some m })
    else
      let n : BitVec 6 := BitVec.ofNat 6 (c.p 2 1)
      match s.sendStream n c.tenant 1 (c.p 0 2) (c.p 16 6) (x.askData (s.recordLen x.stateAddr) (c.p 8 8)) with
      | none => s.complete c ocRefused rsRemoteUnreachable
      | some t =>
        let path := (s.route n.toNat).elim [] (·.2)
        let m : Migr := { cmd := c.id, node := some n, dest := 0, switch_ := c.p 16 6, density := 0, densityAfter := 0,
                          port := path.head?.map (·.2), path := s.bothWays n.toNat path, admitted := false }
        t.modStream (c.p 0 2) (fun x => { x with migr := some m })

/-- STREAM_MIGRATE (R220). -/
def execStreamMigrate (id : Nat) (s : State) : Host.Outcome State Fault Refusal :=
  .next (s.command id 0x0032 (fun _ => true) checkMigrate State.applyMigrate)

end Sys2Proof.Machine
end

