-- ==== Sys2Proof/Machine/Guests.lean ====
section
/-!
DEFINITION. Streams between parts (R220-R223): what arrives in DATA frames for a stream that another part processes, and for a stream of
another part that this part processes.
-/
namespace Sys2Proof.Machine

/-! ### The part that processes (R220-R222) -/

/-- The stream of part `n` with handle `h` there, as this part processes it. -/
def State.guestOf (s : State) (n : BitVec 6) (h : Nat) : Option (Nat × Stream) :=
  s.streams.findSome? (fun e => e.2.bind (fun x => if x.guest.any (fun g => g.node = n ∧ g.handle = h) then some (e.1, x) else none))

/-- The stream that a request for admission describes, without its place (`askData`'s layout). -/
def askedStream (n : BitVec 6) (tenant h v : Nat) (b : List Byte) : Stream :=
  { tenant := tenant, image := leAt b 4 2, entry := leAt b 6 2, bLog2 := leAt b 0 1 % 16, chIn := bits (leAt b 1 1) 0 3 + 1,
    chOut := bits (leAt b 1 1) 3 3 + 1, fp32 := bitN (leAt b 1 1) 6, holdFade := false, reserve := leAt b 2 2, inRoute := [],
    outRoute := [], stateAddr := leAt b 8 8, core := 0, density := 0, fmax := 0, started := true, first := v,
    guest := some { node := n, handle := h, xfer := 0, after := 0 } }

/-- A request for admission (R220 steps 6 and 7, R362): the image must be loaded here under the same handle (DESIGN CHOICE, log 14), and
STATE_ADDR must lie in windows of the tenant with R and W; a failure of the admission is NO_BUDGET or DIE_UNAVAILABLE. The reservation of an admitted stream is held from now on. -/
def State.askArrives (n : BitVec 6) (tenant h v : Nat) (b : List Byte) (s : State) : State :=
  let x := askedStream n tenant h v b
  let xfer := s.transferAcross n.toNat (leAt b 16 8)
  let full : Bool := match s.tenant tenant with
    | none => true
    | some t => t.rtStreams ≤ (s.tenantStreams tenant).length
  if !s.hasProgram tenant x.image x.entry then s.tellStream n tenant 2 h rsBadHandle []
  else if !s.paramRw tenant x.stateAddr (leAt b 16 8) then s.tellStream n tenant 2 h rsMemWindow []
  else match freeIndex s.streams 256, s.admission tenant (BitVec.ofNat 64 (leAt b 24 8)) x.bLog2 x.reserve xfer (s.guestLat n)
      (x.b * x.chIn * 4) (x.b * x.chOut * 4) with
    | _, .inl rs => s.tellStream n tenant 2 h rs []
    | none, _ => s.tellStream n tenant 2 h rsNoBudget []
    | some i, .inr p =>
      if full then s.tellStream n tenant 2 h rsNoBudget []
      else
        let y := { x with core := p.core, density := p.density, inBuf := p.inBuf, outBuf := p.outBuf,
                          fmax := fld (tget dvfsReset s.pmu.dvfs (p.core / 16)) 8 6,
                          guest := some { node := n, handle := h, xfer := xfer, after := p.after } }
        ({ s with streams := tset none s.streams i (some y) }).tellStream n tenant 2 h 0 []

/-- A block of another part's stream arrives (R222): its job becomes eligible, or while the bridge of its home die retrains it waits for its
delivery (R29). -/
def State.blockArrives (i b : Nat) (x : Stream) (data : List Byte) (s : State) : State :=
  let bytes := data.take (x.b * x.chIn * 4)
  if s.dieHeld (x.homeOf b / 16) ∨ x.blocks.any (fun k => !k.delivered) then
    s.modStream i (fun x => { x with blocks := x.blocks ++ [{ s := b, input := [], route := [], data := bytes }] })
  else
    (s.modStream i (fun x => { x with blocks := x.blocks ++ [{ s := b, input := [], route := [], delivered := true }] })).blockJob i b x bytes

/-- The recurrent state of a stream is imported (R221). -/
def State.importState (x : Stream) (data : List Byte) (s : State) : State :=
  match s.saveDeny x.tenant x.stateAddr data.length true with
  | some d => s.noteDeny d
  | none => s.devWrite x.stateAddr data

/-- The source's part asks for the state, which goes back, or ends the processing here and with it the reservation (R221, R223). -/
def State.guestEnds (i h v : Nat) (n : BitVec 6) (x : Stream) (s : State) : State :=
  if v = 1 then s.tellStream n x.tenant 7 h 0 (s.record x) else s.dropGuest i

/-! ### The part of the stream -/

/-- The destination's answer (R220), or its report of a lost die (R223). An admission that comes at or after v is too late: the
migration is abandoned (DESIGN CHOICE, log 14). -/
def State.answerArrives (h rs : Nat) (n : BitVec 6) (s : State) : State :=
  match s.stream h with
  | none => s
  | some x =>
    match x.migr with
    | some m =>
      if m.node ≠ some n then s
      else if m.admitted then (if rs = 0 then s else s.migrLost h rs)
      else if rs = 0 ∧ s.tb.sfc.toNat < m.switch_ then s.modStream h (fun x => { x with migr := some { m with admitted := true } })
      else
        let s1 := if rs = 0 then s.dropMigr h else s.modStream h (fun x => { x with migr := none })
        match s1.cmd m.cmd with
        | some c => if rs = 0 then s1.complete c ocFailed rsRemoteLinkDown else s1.complete c ocRefused rs
        | none => s1
    | none => if x.remote = some n ∧ rs ≠ 0 then s.modStream h (fun x => { x with dieFb := true }) else s

/-- The result of a block that another part processes enters the block (R222), and a migration whose first destination block it is
completes (R221). -/
def State.resultArrives (h b : Nat) (n : BitVec 6) (data : List Byte) (s : State) : State :=
  match s.stream h with
  | none => s
  | some x =>
    if x.nodeOf b = some n ∧ x.blocks.any (fun k => k.s == b && k.delivered) then
      (s.modStream h (fun x => { x with
        blocks := replaceFirst (fun k => k.s == b) (fun k => { k with result := some data, done := true }) x.blocks })).migrPost h b
    else s

/-- The state of a stream comes back to its part from part `n`: it is kept there, or goes on to the part that processes the stream from now on
(R221). -/
def State.stateReturns (h : Nat) (n : BitVec 6) (data : List Byte) (s : State) : State :=
  match s.stream h with
  | none => s
  | some x =>
    if x.guest.isSome ∨ x.stateFrom ≠ some n then s
    else
      let s1 := s.modStream h (fun x => { x with stateFrom := none })
      match x.migr with
      | some m => (match m.node with
        | some n => s1.tellStream n x.tenant 5 h 0 data
        | none => s1.importState x data)
      | none => match x.remote with
        | some n => s1.tellStream n x.tenant 5 h 0 data
        | none => s1.importState x data

/-! ### DATA frames -/

/-- A stream message has arrived whole (`streamMsg`'s layout); one of no known kind is delivered as it is. -/
def State.msgArrives (f : LinkFrame) (b : List Byte) (s : State) : State :=
  let h := leAt b 2 2
  let v := leAt b 8 8
  let data := b.drop 16
  let n : BitVec 6 := BitVec.ofNat 6 f.src.toNat
  match leAt b 0 2, s.guestOf n h with
  | 1, none => s.askArrives n f.tenant.toNat h v data
  | 2, _ => s.answerArrives h v n
  | 3, some (i, x) => s.blockArrives i v x data
  | 4, _ => s.resultArrives h v n data
  | 5, some (_, x) => s.importState x data
  | 6, some (i, x) => s.guestEnds i h v n x
  | 7, _ => s.stateReturns h n data
  | _, _ => { s with slk.delivered := s.slk.delivered ++ [f] }

end Sys2Proof.Machine
end

