-- ==== Sys2Proof/Machine/Keys.lean ====
section
/-!
DEFINITION. Keys and trusted operation (chapter 20): sessions (R475, R476), REKEY with its walks (R480-R484), the entropy source (R474),
BAR2 (R470, R478), SPDM, IDE and TDISP (R486-R490), PCIe events, and the boot (R189, R190, R514).
-/
namespace Sys2Proof.Machine

/-! ### The DRBG and the key table (R473-R476) -/

/-- A new key from the DRBG (R474), known by identity: a slot's two keys are one pair. The DRBG reseeds after 1,024 requests. -/
def State.newKey (s : State) : Nat × State :=
  (s.key.nextKey, { s with key.nextKey := s.key.nextKey + 1, key.generates := (s.key.generates + 1) % 1024 })

/-- The system slots (R473). -/
def sysSlot (n : Nat) : Bool := 1024 ≤ n && n < 1152

/-- The slot that SLOT of a session command names. -/
def Cmd.keySlot (c : Cmd) : Nat := if c.p 0 2 = 0xFFFF then c.tenant else c.p 0 2

/-- The checks that SESSION_OPEN and SESSION_CLOSE share, in order (R475, R476); `bad` the parameters that break the layout. -/
def sessionCheck (s : State) (c : Cmd) (bad : Bool) : Option Nat :=
  let n := c.p 0 2
  if c.params.length ≠ 8 then some rsBadParam
  else if sysSlot n && !c.priv then some rsNotPrivileged
  else if bad || (n ≠ 0xFFFF && !sysSlot n) then some rsBadParam
  else if sysSlot n && !s.rev2 then some rsUnsupported
  else none

/-- The checks of SESSION_OPEN (R475). -/
def checkSessionOpen (s : State) (c : Cmd) : Option Nat :=
  match sessionCheck s c (1 < c.p 2 1 || !zerosAt c.params 3 5 || (sysSlot (c.p 0 2) && c.p 2 1 = 1)) with
  | some rs => some rs
  | none => if (s.slot c.keySlot).valid then some rsKeysLive else none

/-- SESSION_OPEN takes effect (R475): keys, CONF, and VALID last. -/
def State.applySessionOpen (c : Cmd) (s : State) : State :=
  if s.key.drbgStopped then s.complete c ocFailed rsKeyInvalid
  else
    let k := s.newKey
    (k.2.modSlot c.keySlot (fun _ => { valid := true, conf := c.p 2 1 == 1, key := k.1 })).served c (res2 c.keySlot)

/-- SESSION_OPEN (R475, R494); `tie`: an access by the tenant falls in the cycle that sets VALID, and comes after it. -/
def execSessionOpen (id : Nat) (tie : Bool) (s : State) : Host.Outcome State Fault Refusal :=
  .next (s.command id 0x0013 (fun _ => true) checkSessionOpen (fun c s =>
    let t := s.applySessionOpen c
    if tie && !s.key.drbgStopped then t.tie else t))

/-- Is slot `i` under the running walk (R476): the slot of a ROTATE, or one whose pages an INIT writes? -/
def State.underWalk (s : State) (i : Nat) : Bool :=
  s.key.walk.any (fun w => if w.init then
      (s.descPoints (w.base / 4096) (w.limit / 4096)).any (fun p => w.base / 4096 ≤ p && p < w.limit / 4096 && s.wins i p)
    else w.slot == i)

/-- The checks of SESSION_CLOSE (R476). -/
def checkSessionClose (s : State) (c : Cmd) : Option Nat :=
  match sessionCheck s c (!zerosAt c.params 2 6) with
  | some rs => some rs
  | none => if !(s.slot c.keySlot).valid then some rsBadHandle
    else if s.underWalk c.keySlot then some rsJobsActive else none

/-- SESSION_CLOSE takes effect (R476). -/
def State.applySessionClose (c : Cmd) (s : State) : State := (s.zeroise c.keySlot).served c []

/-- SESSION_CLOSE (R476). -/
def execSessionClose (id : Nat) (s : State) : Host.Outcome State Fault Refusal :=
  .next (s.command id 0x0014 (fun _ => true) checkSessionClose State.applySessionClose)

/-- TRNG_HEALTH_FAIL (R474). -/
def execTrngHealthFail (s : State) : Host.Outcome State Fault Refusal :=
  .next ({ s with key.drbgStopped := true, key.trngRepeats := 0 }.errKey 0)

/-- TRNG_RETEST (R474): the start-up tests repeat; after three failures the source stays failed until warm reset. -/
def execTrngRetest (pass : Bool) (s : State) : Host.Outcome State Fault Refusal :=
  .next (if !s.key.drbgStopped || s.key.trngDead then s
    else if pass then { s with key.drbgStopped := false, key.trngRepeats := 0 }
    else { s with key.trngRepeats := s.key.trngRepeats + 1, key.trngDead := 3 ≤ s.key.trngRepeats + 1 })

/-! ### REKEY (R480-R484) -/

/-- Is [BASE, LIMIT) of a REKEY a range of whole pages inside LPDDR (R478, R480)? -/
def State.rangeOk (s : State) (a b : Nat) : Bool :=
  a % 4096 == 0 && b % 4096 == 0 && lpddrBase ≤ a && a < b && b ≤ s.lpddrEnd

/-- Does an INIT range partly overlap the lost range (R480)? -/
def State.partlyLost (s : State) (a b : Nat) : Bool :=
  let lo := s.key.lostBase.toNat * 4096
  let hi := s.key.lostLimit.toNat * 4096
  s.key.lost && a < hi && lo < b && !(a ≤ lo && hi ≤ b)

/-- The parameters of REKEY that R480 does not allow. -/
def State.rekeyBad (s : State) (c : Cmd) : Bool :=
  let op := c.p 0 1
  let slot := c.p 2 2
  !(c.params.length == 24 && op ≤ 3 && c.p 1 1 == 0 && zerosAt c.params 6 2 &&
    (if op == 0 || op == 2 then slot < 1152 else slot == 0) &&
    (if op == 0 || op == 1 then c.p 4 2 < 256 else c.p 4 2 == 0) &&
    (if op == 0 || op == 3 then s.rangeOk (c.p 8 8) (c.p 16 8) else zerosAt c.params 8 16) &&
    !(op == 0 && (s.desc (c.p 4 2)).valid) && !(op == 3 && s.partlyLost (c.p 8 8) (c.p 16 8)))

/-- The checks of REKEY in the order of R480, then the slot of a ROTATE (R481). -/
def checkRekey (s : State) (c : Cmd) : Option Nat :=
  let op := c.p 0 1
  if s.rekeyBad c then some rsBadParam
  else if sysSlot (c.p 2 2) && !s.rev2 then some rsUnsupported
  else if s.key.walk.isSome then some rsJobsActive
  else if op ≤ 1 && s.tdiLocked then some rsConfigLocked
  else if op = 2 && !(s.slot (c.p 2 2)).valid then some rsKeyInvalid
  else none

/-- A REKEY whose OPER is `a`; a reserved OPER falls to MAP's row, which refuses it. -/
def rekeySel (a : Nat) (c : Cmd) : Bool := c.p 0 1 == a || (a == 0 && 3 < c.p 0 1)

/-- MAP takes effect (R480): the descriptor is written; memory is not transformed. -/
def State.applyMap (c : Cmd) (s : State) : State :=
  let d : Desc := { valid := true, base := c.p 8 8 / 4096, limit := c.p 16 8 / 4096, slot := c.p 2 2 }
  ({ s with key.descs := tset {} s.key.descs (c.p 4 2) d }).served c []

/-- REKEY_MAP (R480). -/
def execRekeyMap (id : Nat) (s : State) : Host.Outcome State Fault Refusal :=
  .next (s.command id 0x0090 (rekeySel 0) checkRekey State.applyMap)

/-- UNMAP takes effect (R480). -/
def State.applyUnmap (c : Cmd) (s : State) : State :=
  ({ s with key.descs := tset {} s.key.descs (c.p 4 2) {} }).served c []

/-- REKEY_UNMAP (R480). -/
def execRekeyUnmap (id : Nat) (s : State) : Host.Outcome State Fault Refusal :=
  .next (s.command id 0x0090 (rekeySel 1) checkRekey State.applyUnmap)

/-- The first page and the page past the last of the LPDDR whose winning descriptor names slot `i` (R481): ranges begin and end at page
boundaries of descriptors. -/
def State.walkSet (s : State) (i : Nat) : Option (Nat × Nat) :=
  let ps := s.descPoints 0 0
  let los := ps.filter (fun p => s.wins i p)
  let his := ps.filter (fun p => 0 < p && s.wins i (p - 1))
  match los with
  | [] => none
  | a :: t => some (t.foldl Nat.min a, his.foldl Nat.max 0)

/-- The rotation key replaces the old key of slot `i` (R481). -/
def State.rotated (i : Nat) (s : State) : State :=
  s.modSlot i (fun k => match k.rot with
    | some n => { k with key := n, rot := none }
    | none => k)

/-- ROTATE takes effect (R481): the rotation key is generated and the walk starts at the lowest unit of its set; an empty set
completes at once. -/
def State.applyRotate (c : Cmd) (s : State) : State :=
  let i := c.p 2 2
  if s.key.drbgStopped then s.complete c ocFailed rsKeyInvalid
  else
    let k := s.newKey
    let s1 := k.2.modSlot i (fun x => { x with rot := some k.1 })
    match s.walkSet i with
    | none => (s1.rotated i).served c []
    | some (a, b) => { s1 with key.walk := some { cmd := c.id, init := false, slot := i, base := a * 4096, limit := b * 4096 },
                               key.wm := BitVec.ofNat 40 (a * 4096) }.pauseWalk

/-- REKEY_ROTATE (R481). -/
def execRekeyRotate (id : Nat) (s : State) : Host.Outcome State Fault Refusal :=
  .next (s.command id 0x0090 (rekeySel 2) checkRekey State.applyRotate)

/-- INIT takes effect (R480): its walk starts. -/
def State.applyInit (c : Cmd) (s : State) : State :=
  { s with key.walk := some { cmd := c.id, init := true, slot := 0, base := c.p 8 8, limit := c.p 16 8 } }.pauseWalk

/-- REKEY_INIT (R480). -/
def execRekeyInit (id : Nat) (s : State) : Host.Outcome State Fault Refusal :=
  .next (s.command id 0x0090 (rekeySel 3) checkRekey State.applyInit)

/-- The command of a walk that has ended completes; a late result is dropped (R482). -/
def State.walkServed (id : Nat) (s : State) : State :=
  match s.cmd id with
  | some c => s.served c []
  | none => s.lateResult

/-- REKEY_WALK_DONE (R481, R482, R483): the walk ends, every unit of its set under the rotation key; or, with `upTo`, it has come as far as
that unit of its set, the watermark. A paused walk does neither. -/
def execRekeyWalkDone (upTo : Option (BitVec 40)) (s : State) : Host.Outcome State Fault Refusal :=
  .next <| match s.key.walk with
  | none => s
  | some w =>
    if w.init ∨ s.key.paused then s
    else
      match upTo with
      | some a =>
        if a.toNat % 64 = 0 ∧ s.key.wm.toNat ≤ a.toNat ∧ s.wins w.slot (a.toNat / 4096) then { s.walked w a.toNat with key.wm := a } else s
      | none => ({ s.walked w w.limit with key.walk := none, key.wm := 0, key.paused := false }.rotated w.slot).walkServed w.cmd

/-- REKEY_INIT_DONE (R480, R484): the range holds zeros, each unit under its winning key; LOST clears when the range contains the whole
lost range. -/
def execRekeyInitDone (s : State) : Host.Outcome State Fault Refusal :=
  .next <| match s.key.walk with
  | none => s
  | some w =>
    if !w.init ∨ s.key.paused then s
    else
      let keys := forN ((w.limit - w.base) / 64) (fun i t => tset 0 t (w.base / 64 + i) (s.unitKeyNow (w.base + 64 * i))) s.key.unitKey
      let covers : Bool := w.base ≤ s.key.lostBase.toNat * 4096 && s.key.lostLimit.toNat * 4096 ≤ w.limit
      let s1 := { s with mem := mzero s.mem w.base w.limit, key.unitKey := keys, key.walk := none, key.paused := false }
      let s2 := if s.key.lost && covers then { s1 with key.lost := false, key.lostBase := 0, key.lostLimit := 0 } else s1
      s2.walkServed w.cmd

/-! ### LPDDR and BAR2 (R470, R471, R478) -/

/-- LPDDR_RETRAIN (R471): traffic is held for at most 1 µs; no state changes. -/
def execLpddrRetrain (s : State) : Host.Outcome State Fault Refusal := .next s

/-- Is an access without a tenant blocked by the keys, and with which KEY_ERR bit (R478, R484)? -/
def State.bar2Deny (s : State) (page : Nat) : Option Nat :=
  match s.region (page * 4096) with
  | .lpddr =>
    if s.isLost page then some 3
    else match s.winner page with
      | none => none
      | some d => if !(s.slot d.slot).valid then some 2 else if (s.slot d.slot).conf then some 4 else none
  | _ => none

/-- What a host read returns. -/
def State.hostReply (bs : List Byte) (s : State) : State := { s with reply := bs, rdata := BitVec.ofNat 64 (leNat (bs.take 8)) }

/-- The bytes of a 32-bit pattern, repeated over `n` bytes. -/
def pattern (w n : Nat) : List Byte := (List.range n).map (fun i => BitVec.ofNat 8 (w / 256 ^ (i % 4)))

/-- BAR2_ACCESS (R130, R470, R478, R493): a read of `len` bytes, or a write. The DM of a die whose bridge is not UP follows R130. -/
def execBar2Access (off : BitVec 26) (len : Nat) (w : Option (List (BitVec 8))) (s : State) : Host.Outcome State Fault Refusal :=
  .next <|
  let a := s.memc.bar2Base.toNat * 2 ^ 26 + off.toNat
  let n := match w with | some bs => bs.length | none => len
  let give := fun (v : Nat) (t : State) => if w.isNone then t.hostReply (pattern v n) else t
  let bad := (pagesOf a n).find? (fun p => match s.region (p * 4096) with
    | .sram => false | .dm _ => false | .lpddr => false | _ => true)
  let off_ := (pagesOf a n).any (fun p => match s.region (p * 4096) with
    | .dm d => !s.dieUp d
    | _ => false)
  match bad with
  | some p => give 0xFFFFFFFF (s.errMem 0 (Nat.max a (p * 4096)))
  | none =>
    if off_ then give 0x0FF00FF0 (s.offAccess .bar0 off.toNat)
    else match (pagesOf a n).findSome? s.bar2Deny with
      | some b => give 0xFFFFFFFF (s.errKey b)
      | none => match w with
        | none => (s.unitDone a n).hostReply ((s.unitDone a n).devRead a n)
        | some bs => s.devWrite a bs

/-- A write to MEM_BAR2_BASE (R489). -/
def State.writeBar2 (v : W32) (s : State) : State := if s.tdiLocked then s else { s with memc.bar2Base := v.setWidth 14 }

/-- MEM_BAR2_BASE_WRITE (R489). -/
def execMemBar2BaseWrite (v : BitVec 32) (s : State) : Host.Outcome State Fault Refusal := .next (s.writeBar2 v)

/-- A write to KEY_TDI (R489). -/
def State.writeTdi (v : W32) (s : State) : State := if s.tdiLocked then s else { s with key.rackTrusted := bit v 8 }

/-- KEY_TDI_WRITE (R489, R497); `lock`: the interface locks in the same reference cycle. -/
def execKeyTdiWrite (v : BitVec 32) (lock : Bool) (s : State) : Host.Outcome State Fault Refusal :=
  .next (if lock then s else s.writeTdi v)

/-! ### SPDM, IDE, TDISP (R486-R490) -/

/-- A message of the DOE mailbox is answered (R486): the reply begins with the response code of the SPDM standard (PRESUMED, log 24). -/
def State.answer (bs : List Byte) (s : State) : State := { s with key.doeReply := s.key.doeReply + 1, reply := bs }

/-- An SPDM request in its place of the connection is answered, else with ERROR, which changes nothing; the order of requests is the SPDM standard's
(PRESUMED, log 24). -/
def State.spdmIf (ok : Bool) (bs : List Byte) (f : State → State) (s : State) : State := if ok then f (s.answer bs) else s.answer [0x7F]

/-- CAPABILITIES (R486), the flags of the SPDM standard (PRESUMED, log 24): certificates, challenge, signed measurements, encryption, MAC and key
exchange; none for mutual authentication, pre-shared keys and HEARTBEAT. -/
def spdmCaps : List Byte := toLe 1 0x61 ++ toLe 4 0x2D6

/-- ALGORITHMS (R486), as the SPDM standard numbers them (PRESUMED, log 24): ECDSA P-384, SHA-384, ECDHE P-384, AES-256-GCM. -/
def spdmAlgs : List Byte := toLe 1 0x63 ++ toLe 4 0x80 ++ toLe 4 2 ++ toLe 2 0x10 ++ toLe 2 2

/-- GET_VERSION (R486): it begins a connection anew; the reply names 1.2 and 1.3. -/
def execGetVersion (s : State) : Host.Outcome State Fault Refusal := .next { s.answer [0x04, 0x12, 0x13] with key.spdm := .versioned }

/-- GET_CAPABILITIES (R486). -/
def execGetCapabilities (s : State) : Host.Outcome State Fault Refusal :=
  .next (s.spdmIf (s.key.spdm == .versioned) spdmCaps (fun s => { s with key.spdm := .capable }))

/-- NEGOTIATE_ALGORITHMS (R486). -/
def execNegotiateAlgorithms (s : State) : Host.Outcome State Fault Refusal :=
  .next (s.spdmIf (s.key.spdm == .capable) spdmAlgs (fun s => { s with key.spdm := .negotiated }))

/-- GET_DIGESTS (R486). -/
def execGetDigests (s : State) : Host.Outcome State Fault Refusal := .next (s.answer [0x01])

/-- GET_CERTIFICATE (R486). -/
def execGetCertificate (s : State) : Host.Outcome State Fault Refusal := .next (s.answer [0x02])

/-- CHALLENGE (R486). -/
def execChallenge (s : State) : Host.Outcome State Fault Refusal := .next (s.answer [0x03])

/-- GET_MEASUREMENTS (R486). -/
def execGetMeasurements (s : State) : Host.Outcome State Fault Refusal := .next (s.answer [0x60])

/-- KEY_EXCHANGE (R474, R486): the ECDHE private value comes from the DRBG. -/
def execKeyExchange (s : State) : Host.Outcome State Fault Refusal :=
  .next (s.spdmIf (s.key.spdm == .negotiated && !s.key.drbgStopped) [0x64] (fun s => { s.newKey.2 with key.spdm := .handshake }))

/-- FINISH (R486). -/
def execFinish (s : State) : Host.Outcome State Fault Refusal :=
  .next (s.spdmIf (s.key.spdm == .handshake) [0x65] (fun s => { s with key.spdm := .established }))

/-- END_SESSION (R486). -/
def execEndSession (s : State) : Host.Outcome State Fault Refusal :=
  .next (s.spdmIf (s.key.spdm == .established) [0x6C] (fun s => { s with key.spdm := .negotiated }))

/-- A message that arrives only inside the SPDM session (R487, R488), with its reply. -/
def State.inSession (bs : List Byte) (f : State → State) (s : State) : State := s.spdmIf (s.key.spdm == .established) bs f

/-- The IDE stream `i` changed. -/
def State.modIde (i : Nat) (f : Ide → Ide) (s : State) : State := { s with key.ide := tmod {} s.key.ide i f }

/-- What the part answers to a QUERY (R487; layout: DESIGN CHOICE, log 24): for each stream whether it is SECURE, the key sets that hold a key and
those active, its two address association blocks and its requester block. -/
def State.ideReport (s : State) : List Byte :=
  (List.range 2).flatMap (fun i =>
    let x := tget {} s.key.ide i
    let sets := fun (f : Nat → Bool) => toLe 1 ((List.range 6).map (fun k => at_ (f k) k)).sum
    toLe 1 (at_ x.secure 0) ++ sets (fun k => (tget none x.keys k).isSome) ++ sets (tget false x.active) ++
    (List.range 3).flatMap (fun b => toLe 8 (tget (0, 0) x.assoc b).1 ++ toLe 8 (tget (0, 0) x.assoc b).2))

/-- IDE_KM_QUERY (R487). -/
def execIdeKmQuery (s : State) : Host.Outcome State Fault Refusal := .next (s.inSession (0x01 :: s.ideReport) id)

/-- KEY_PROG (R487): the PCIe block holds the key. -/
def execKeyProg (stream : Fin 2) (sub : Fin 3) (keySet : Fin 2) (key : BitVec 256) (s : State) : Host.Outcome State Fault Refusal :=
  .next (s.inSession [0x03] (fun s => s.modIde stream.val (fun x => { x with
    keys := tset none x.keys (2 * sub.val + keySet.val) (some key) })))

/-- K_SET_GO (R487): a programmed key set becomes active. -/
def execKSetGo (stream : Fin 2) (sub : Fin 3) (keySet : Fin 2) (s : State) : Host.Outcome State Fault Refusal :=
  .next (s.inSession [0x06] (fun s => s.modIde stream.val (fun x =>
    let k := 2 * sub.val + keySet.val
    if (tget none x.keys k).isSome then { x with active := tset false x.active k true } else x)))

/-- A stream that was SECURE and is no longer is a TDISP error (R488). -/
def State.ideLeft (i : Nat) (was : Bool) (s : State) : State :=
  if was && !(tget {} s.key.ide i).secure then s.tdiError else s

/-- K_SET_STOP (R487, R488). -/
def execKSetStop (stream : Fin 2) (sub : Fin 3) (keySet : Fin 2) (s : State) : Host.Outcome State Fault Refusal :=
  .next (s.inSession [0x06] (fun s =>
    let was := (tget {} s.key.ide stream.val).secure
    (s.modIde stream.val (fun x => { x with active := tset false x.active (2 * sub.val + keySet.val) false })).ideLeft stream.val was))

/-- IDE_STREAM_INSECURE (R488). -/
def execIdeStreamInsecure (stream : Fin 2) (s : State) : Host.Outcome State Fault Refusal :=
  let was := (tget {} s.key.ide stream.val).secure
  .next ((s.modIde stream.val (fun x => { x with active := [] })).ideLeft stream.val was)

/-- GET_TDISP_VERSION (R488): version 1.0 (PRESUMED, log 24). -/
def execGetTdispVersion (s : State) : Host.Outcome State Fault Refusal := .next (s.inSession [0x01, 0x10] id)

/-- GET_TDISP_CAPABILITIES (R488): the seven messages supported, by the low bits of their codes 0x81-0x87 (PRESUMED, log 24). -/
def execGetTdispCapabilities (s : State) : Host.Outcome State Fault Refusal := .next (s.inSession [0x02, 0xFE] id)

/-- LOCK_INTERFACE (Table 20.3, R489). -/
def execLockInterface (s : State) : Host.Outcome State Fault Refusal :=
  .next (s.inSession [0x03] State.lockTdi)

/-- The interface report (R488): BAR0, BAR2, the MSI-X table, RACK_TRUSTED, GLB_CAPS (layout: DESIGN CHOICE, log 24). -/
def State.tdiReport (s : State) : List Byte :=
  toLe 8 s.memc.bar0.toNat ++ toLe 8 s.memc.bar2.toNat ++ toLe 8 s.memc.msixLocation ++ toLe 4 (at_ s.key.rackTrusted 0) ++ toLe 4 s.glbCaps

/-- GET_DEVICE_INTERFACE_REPORT (R488). -/
def execGetDeviceInterfaceReport (s : State) : Host.Outcome State Fault Refusal :=
  .next (s.inSession (0x04 :: s.tdiReport) id)

/-- GET_DEVICE_INTERFACE_STATE (R488): the code of Table 20.3. -/
def execGetDeviceInterfaceState (s : State) : Host.Outcome State Fault Refusal :=
  .next (s.inSession (0x05 :: toLe 1 (tdiCode s.key.tdi)) id)

/-- START_INTERFACE (Table 20.3): with at least one stream SECURE. -/
def execStartInterface (s : State) : Host.Outcome State Fault Refusal :=
  .next (s.inSession [0x06] (fun s =>
    if s.key.tdi = .locked ∧ s.key.ide.any (fun e => e.2.secure) then { s with key.tdi := .run } else s))

/-- STOP_INTERFACE (Table 20.3). -/
def execStopInterface (s : State) : Host.Outcome State Fault Refusal :=
  .next (s.inSession [0x07] (fun s => { s with key.tdi := .unlocked }))

/-! ### PCIe events (R469, R488, R490) -/

/-- PCIE_CONFIG_WRITE (R487, R488): in CONFIG_LOCKED or RUN a change to a BAR, an enable or the MSI-X location is a TDISP error. -/
def execPcieConfigWrite (c : PcieCfg) (s : State) : Host.Outcome State Fault Refusal :=
  let m := { s.memc with
    bar0 := c.bar0.getD s.memc.bar0, bar2 := c.bar2.getD s.memc.bar2, memEnable := c.memEnable.getD s.memc.memEnable, busMaster := c.busMaster.getD s.memc.busMaster,
    msixEnable := c.msixEnable.getD s.memc.msixEnable, msixLocation := c.msixLocation.getD s.memc.msixLocation }
  let frozen : Bool := m.bar0 == s.memc.bar0 && m.bar2 == s.memc.bar2 && m.memEnable == s.memc.memEnable && m.busMaster == s.memc.busMaster &&
    m.msixLocation == s.memc.msixLocation
  let s1 := match c.ideAssoc with
    | some x => { s with memc := m }.modIde x.stream.val (fun e => { e with assoc := tset (0, 0) e.assoc x.block.val (x.base, x.limit) })
    | none => { s with memc := m }
  .next (if frozen then s1 else s1.tdiError)

/-- PCIE_PORT_RESET (R490). -/
def execPciePortReset (linkDown : Bool) (s : State) : Host.Outcome State Fault Refusal := .next (s.pcieReset linkDown)

/-- PCIE_LINK_UP (R469). -/
def execPcieLinkUp (s : State) : Host.Outcome State Fault Refusal := .next { s with memc.linkUp := true }

/-! ### Boot (R189, R190, R472, R514) -/

/-- SOURCE of a load (Table 7.11) under a BOOT_MODE (Table 2.5): flash, host or Shusor; `retry` the USB load of BOOT_MODE 1. -/
def bootSource (mode : BitVec 3) (retry : Bool) : BitVec 2 :=
  if mode = 5 then 3 else if mode = 2 ∨ mode = 3 ∨ mode = 4 ∨ retry then 1 else 0

/-- FIRMWARE_VERIFY (R189, R190): the image that the source delivered into system SRAM is verified and started; a failure halts, or under
BOOT_MODE 1 loads over USB, time and again. A host load over PCIe is verified where BAR2 placed it, at offset 0 (DESIGN CHOICE, log 24), once
its length is written; a load over USB or SPI where its bytes arrived; `image` is what the flash or a neighbour delivered. `sourceOk`: the
source delivered a whole image. -/
def execFirmwareVerify (image : List (BitVec 8)) (sourceOk : Bool) (s : State) : Host.Outcome State Fault Refusal :=
  .next <|
  let pcie : Bool := s.glb.bootMode == 2
  if s.glb.stage ≠ 1 ∨ !s.glb.mgrRunning ∨ s.glb.resetHeld ∨ (pcie = true ∧ s.glb.loadLen = 0) then s
  else
    let host : Bool := s.loadsOver false || s.loadsOver true
    let b := if pcie then mreadN s.mem 0 s.glb.loadLen.toNat else if host then mreadN s.mem 0 s.glb.loaded else image
    let s1 := if pcie ∨ host ∨ !sourceOk then s else s.poke 0 (image.take 0x400000)
    let retry : Bool := s.glb.bootMode == 1 && s.glb.source == 1
    let e := if sourceOk then imageError b else 8
    let s2 := { s1 with glb.bootError := BitVec.ofNat 4 e, glb.source := bootSource s.glb.bootMode retry, glb.loadLen := 0,
                         glb.loaded := 0 }
    if e = 0 then { s2 with glb.stage := 3 }
    else if s.glb.bootMode = 1 then { s2 with glb.source := 1 }
    else { s2 with glb.stage := 4 }

/-- A write to GLB_BOOT_CTRL: ignored outside STAGE 1 (Table 7.11). -/
def State.writeBootCtrl (v : W32) (s : State) : State :=
  if s.glb.stage = 1 then { s with glb.loadLen := v.setWidth 24 } else s

/-- GLB_BOOT_CTRL_WRITE (R189). -/
def execGlbBootCtrlWrite (v : BitVec 32) (s : State) : Host.Outcome State Fault Refusal := .next (s.writeBootCtrl v)

/-- FIRMWARE_READY (R190): firmware that runs sets READY. -/
def execFirmwareReady (s : State) : Host.Outcome State Fault Refusal :=
  .next (if s.glb.stage = 3 ∧ s.glb.mgrRunning ∧ !s.glb.resetHeld ∧ !s.glb.ready then s.firmwareUp else s)

/-- NEIGHBOUR_BOOT_TIMEOUT (R514). -/
def execNeighbourBootTimeout (s : State) : Host.Outcome State Fault Refusal :=
  .next (if s.glb.stage = 1 ∧ s.glb.bootMode = 5 then { s with glb.stage := 4, glb.bootError := 8 } else s)

end Sys2Proof.Machine
end

