-- ==== Sys2Proof/Machine/Kv.lean ====
section
/-!
DEFINITION. KV pools and sequences: KV_POOL_CREATE, KV_POOL_DESTROY and the five operations of KV_SEQ (R368-R374, R385, R391).
-/
namespace Sys2Proof.Machine

/-- The legality of the parameters (Table 15.1, R369). -/
def State.poolOk (s : State) (c : Cmd) : Bool :=
  let p := c.poolOf
  let nn := c.p 29 1
  c.params.length == 96 && p.base % 64 == 0 && p.ctrl % 64 == 0 && p.base < 2 ^ 40 && p.ctrl < 2 ^ 40 && 1 ≤ p.npages &&
  p.npages ≤ 65536 && 6 ≤ p.fmt && p.fmt ≤ 9 && 1 ≤ p.hkv && p.hkv ≤ 64 && 8 ≤ p.d && p.d ≤ 128 && p.d % 8 == 0 &&
  p.d * kvElem p.fmt ≤ 128 && 1 ≤ p.maxSeq && p.maxSeq ≤ 4096 && 1 ≤ p.maxBlocks && p.maxBlocks ≤ 2048 && p.spread ≤ 2 &&
  (if p.spread = 0 then nn == 1 else 2 ≤ nn && nn ≤ 64) && zerosAt c.params 30 2 &&
  (List.range 64).all (fun i => if i < nn then c.p (32 + i) 1 < 64 else c.p (32 + i) 1 == 0xFF) &&
  s.inDmOrLpddr p.base (p.npages * p.pb) && s.inDmOrLpddr p.ctrl p.ctrlLen

/-- The checks of KV_POOL_CREATE (R370), with those of R385 after the windows (DEDUCED, log 39). -/
def checkPoolCreate (s : State) (c : Cmd) : Option Nat :=
  let p := c.poolOf
  if !s.poolOk c then some rsBadParam
  else if !s.paramRw c.tenant p.base (p.npages * p.pb) || !s.paramRw c.tenant p.ctrl p.ctrlLen then some rsMemWindow
  else if !(s.poolPeers p).isEmpty && s.confidential c.tenant && !s.key.rackTrusted then some rsNotRackTrusted
  else if (s.poolPeers p).any (fun n => (s.route n).isNone) then some rsRemoteUnreachable
  else if (freeIndex s.pools 256).isNone then some rsNoMemory
  else none

/-- The control area of a new pool: every page FREE in ascending order, no sequence in use (R370, Tables 15.2, 15.3). -/
def Pool.fresh (p : Pool) : List Byte :=
  toLe 4 0 ++ toLe 4 p.npages ++ List.replicate 56 0 ++
  (List.range p.npages).flatMap (fun g => toLe 4 (if g + 1 < p.npages then g + 1 else 0xFFFFFFFF) ++ List.replicate 12 0) ++
  List.replicate (p.maxSeq * p.sr) 0

/-- A command on a spread pool asks the parts that hold its shares, which its traffic then reaches (R385, R502). -/
def State.askPeers (c : Cmd) (p : Pool) (kind : Nat) (data : List Byte) (s : State) : State :=
  let ns := s.poolPeers p
  let links := fun n => match s.route n with
    | some (_, h) => s.bothWays n h
    | none => []
  (ns.foldl (fun (s : State) n => s.tellPool n c.tenant kind c.id data) s).modCmd c.id (fun d => { d with
    asking := true, shares := ns.map (fun n => { node := n }), path := ns.flatMap links })

/-- A pool is created on this part (R368, R370). A denied access to the control area ends it (R198's rule for the part's own
accesses; DEDUCED, log 39). -/
def State.poolMake (c : Cmd) (s : State) : State :=
  let p := { c.poolOf with share := c.id }
  match s.saveDeny c.tenant p.ctrl p.ctrlLen true, freeIndex s.pools 256 with
  | some d, _ => (s.noteDeny d).complete c ocFailed (faultReason d.code)
  | none, none => s.complete c ocRefused rsNoMemory
  | none, some h =>
    let s1 := s.devWrite p.ctrl p.fresh
    ({ s1 with pools := tset none s1.pools h (some p) }).served c (res2 h)

/-- KV_POOL_CREATE takes effect (R368, R370, R385): with its shares on other parts first, when it is spread. -/
def State.applyPoolCreate (c : Cmd) (s : State) : State :=
  if (s.poolPeers c.poolOf).isEmpty then s.poolMake c else s.askPeers c c.poolOf 8 c.params

/-- KV_POOL_CREATE (R368). -/
def execKvPoolCreate (id : Nat) (s : State) : Host.Outcome State Fault Refusal :=
  .next (s.command id 0x0050 (fun _ => true) checkPoolCreate State.applyPoolCreate)

/-- The pool that a handle names for a tenant (section 15.1). -/
def State.poolFor (s : State) (t h : Nat) : Option Pool := (s.pool h).bind (fun p => if p.tenant = t then some p else none)

/-- Does a running ATTENTION operator name the pool (R371)? -/
def State.poolBusy (s : State) (h : Nat) : Bool :=
  s.cmds.any (fun d => d.op = 0x0040 && d.phase == .running && d.objects.contains (2, h))

/-- The checks of KV_POOL_DESTROY (R371): POOL in bytes 1:0 of 8 (layout: DESIGN CHOICE, log 22). -/
def checkPoolDestroy (s : State) (c : Cmd) : Option Nat :=
  if c.params.length ≠ 8 ∨ !zerosAt c.params 2 6 then some rsBadParam
  else match s.poolFor c.tenant (c.p 0 2) with
    | none => some rsBadHandle
    | some p =>
      if s.kvLost p then none
      else if s.poolBusy (c.p 0 2) || (List.range p.maxSeq).any (fun q => s.seqTlen p q ≠ 0) then some rsJobsActive
      else none

/-- KV_POOL_DESTROY takes effect: the pool's memory is left as it is (R371). -/
def State.applyPoolDestroy (c : Cmd) (s : State) : State :=
  (s.poolGone (c.p 0 2)).served c []

/-- KV_POOL_DESTROY (R371). -/
def execKvPoolDestroy (id : Nat) (s : State) : Host.Outcome State Fault Refusal :=
  .next (s.command id 0x0051 (fun _ => true) checkPoolDestroy State.applyPoolDestroy)

/-! ### KV_SEQ (R373, R374) -/

/-- OPER of a KV_SEQ; an undefined one is refused by the row of CREATE. -/
def Cmd.kvOper (c : Cmd) : Nat := if c.p 0 1 ≤ 4 then c.p 0 1 else 0

/-- The checks of KV_SEQ (Table 15.4, R374). A pool on a lost die passes, and its command completes DIE_LOST (R391). -/
def checkKvSeq (s : State) (c : Cmd) : Option Nat :=
  let oper := c.p 0 1
  let q := c.p 4 2
  let src := c.p 6 2
  let len := c.p 8 4
  if c.params.length ≠ 16 ∨ 4 < oper ∨ !zerosAt c.params 1 1 ∨ !zerosAt c.params 12 4 ∨ (oper ≠ 1 ∧ src ≠ 0) ∨
      (oper ≠ 1 ∧ oper ≠ 3 ∧ len ≠ 0) then some rsBadParam
  else match s.poolFor c.tenant (c.p 2 2) with
    | none => some rsBadHandle
    | some p =>
      if s.kvLost p then none
      else if (2 ≤ oper ∧ (p.maxSeq ≤ q ∨ !s.seqUsed p q)) ∨ (oper = 1 ∧ (p.maxSeq ≤ src ∨ !s.seqUsed p src)) then some rsBadHandle
      else if oper ≤ 1 ∧ (p.maxSeq ≤ q ∨ s.seqUsed p q) then some rsBadParam
      else if (oper = 1 ∧ s.seqLen p src < len) ∨ (oper = 3 ∧ s.seqLen p q < len) then some rsBadParam
      else
        let v := if oper = 1 then src else q
        if (1 ≤ oper ∧ oper ≤ 3) ∧ (p.apps.any (fun a => a.2.contains v) ∨ s.seqTlen p v ≠ 0) then some rsJobsActive
        else none

/-- A sequence record in use with a length and no valid entry (R373). -/
def State.kvNewSeq (p : Pool) (q len : Nat) (s : State) : State :=
  s.devWrite (p.seqAt q) (toLe 4 len ++ [0, 1] ++ List.replicate (p.sr - 6) 0)

/-- CREATE (R373). -/
def State.kvCreate (p : Pool) (c : Cmd) (s : State) : State := s.kvNewSeq p (c.p 4 2) 0

/-- FORK (R373): the prefix's entries copied, every named page with one reference more. -/
def State.kvFork (p : Pool) (c : Cmd) (s : State) : State :=
  let q := c.p 4 2
  let src := c.p 6 2
  let len := c.p 8 4
  forN (ceilDiv len 64) (fun b s => forN p.hkv (fun h s =>
    match kvPage (s.kvR (p.pt src b h) 4) with
    | none => s
    | some g => (s.kvW (p.pt q b h) 4 (kvWord g)).kvW (p.ent g + 4) 2 (s.kvR (p.ent g + 4) 2 + 1)) s) (s.kvNewSeq p q len)

/-- FREE (R373): the pages released, the record no longer in use (its entries invalid: DEDUCED, log 39). -/
def State.kvFree (p : Pool) (c : Cmd) (s : State) : State :=
  let q := c.p 4 2
  (s.kvDropFrom p q 0).devWrite (p.seqAt q) (List.replicate 64 0)

/-- TRUNCATE (R373): later blocks released, the new tail page's FILL set when it is not shared. -/
def State.kvTruncate (p : Pool) (c : Cmd) (s : State) : State :=
  let q := c.p 4 2
  let len := c.p 8 4
  let s1 := (s.kvDropFrom p q (ceilDiv len 64)).kvW (p.seqAt q) 4 len
  if len = 0 then s1 else forN p.hkv (fun h s =>
    match kvPage (s.kvR (p.pt q (ceilDiv len 64 - 1) h) 4) with
    | none => s
    | some g => if s.kvR (p.ent g + 4) 2 = 1 then s.kvW (p.ent g + 9) 1 (if len % 64 = 0 then 64 else len % 64) else s) s1

/-- What a KV_SEQ other than QUERY does to a share of its pool (R373, R385). -/
def State.kvSeqOp (p : Pool) (c : Cmd) (s : State) : State :=
  if c.kvOper = 0 then s.kvCreate p c else if c.kvOper = 1 then s.kvFork p c else if c.kvOper = 2 then s.kvFree p c else s.kvTruncate p c

/-- QUERY (R373): LEN and FREE_COUNT of this part. -/
def State.kvQuery (p : Pool) (c : Cmd) (s : State) : State :=
  s.served c (toLe 4 (s.seqLen p (c.p 4 2)) ++ toLe 4 (s.kvR (p.ctrl + 4) 4))

/-- A KV_SEQ takes effect on its pool: a lost die, a lost route to a share, a denied control area; QUERY is local, and any other operation takes
effect on every share before it completes (R385, R391). -/
def State.applyKvSeq (c : Cmd) (s : State) : State :=
  match s.poolFor c.tenant (c.p 2 2) with
  | none => s.complete c ocRefused rsBadHandle
  | some p =>
    if s.kvLost p then s.complete c ocFailed rsDieLost
    else if (s.poolPeers p).any (fun n => (s.route n).isNone) then s.complete c ocFailed rsRemoteLinkDown
    else match s.saveDeny c.tenant p.ctrl p.ctrlLen true with
      | some d => (s.noteDeny d).complete c ocFailed (faultReason d.code)
      | none =>
        if c.kvOper = 4 then s.kvQuery p c
        else if (s.poolPeers p).isEmpty then (s.kvSeqOp p c).served c []
        else s.askPeers c p 10 (toLe 8 p.share ++ c.params)

/-- KV_SEQ CREATE (R373). -/
def execKvSeqCreate (id : Nat) (s : State) : Host.Outcome State Fault Refusal :=
  .next (s.command id 0x0052 (fun c => c.kvOper == 0) checkKvSeq State.applyKvSeq)

/-- KV_SEQ FORK (R373). -/
def execKvSeqFork (id : Nat) (s : State) : Host.Outcome State Fault Refusal :=
  .next (s.command id 0x0052 (fun c => c.kvOper == 1) checkKvSeq State.applyKvSeq)

/-- KV_SEQ QUERY (R373). -/
def execKvSeqQuery (id : Nat) (s : State) : Host.Outcome State Fault Refusal :=
  .next (s.command id 0x0052 (fun c => c.kvOper == 4) checkKvSeq State.applyKvSeq)

end Sys2Proof.Machine
end

