-- ==== Sys2Proof/Machine/Train.lean ====
section
/-!
DEFINITION. The arithmetic of training: the loss and its gradient (R417), the gradients of the dense output and of the cell (R413, Table 17.3),
the run of the fitted model (R413, R416), and the step of the optimiser (R418).
-/
namespace Sys2Proof.Machine

/-! ### The loss (R417) -/

/-- The differences ŷ − y. -/
def esrErrs (yh y : List FV) : List FV := List.zipWith sub32 yh y

/-- The denominator of the error-to-signal ratio. -/
def esrDen (y : List FV) : FV := add32 (sumUp (y.map (fun v => mul32 v v))) (.fin false 1 (-40))

/-- The error-to-signal ratio. -/
def esr (yh y : List FV) : FV := div32 (sumUp ((esrErrs yh y).map (fun e => mul32 e e))) (esrDen y)

/-- Its gradient by ŷ: 2 × (ŷ − y) over the denominator. -/
def esrGrad (yh y : List FV) : List FV := (esrErrs yh y).map (fun e => div32 (mul32 (.fin false 1 1) e) (esrDen y))

/-! ### Gradients (Table 17.3) -/

/-- The gradient of w_o for the outputs `g` of the frames whose cell outputs are `hs`, in ascending order: each product and each sum rounded to
FP32 (DEDUCED, log 45). -/
def denseGrad (h : Nat) (hs : List (List FV)) (g : List FV) : List FV :=
  (List.range h).map (fun j => sumUp (List.zipWith (fun hv e => mul32 e (hv.getD j .nan)) hs g))

/-- The gradient of parameter `i` of the cell: the FP32 sum of its terms by row and step in ascending order. The terms, which the spec does not
give, are free values of the operands (log 3). -/
def cellGrad (ops : List Byte) (rows steps i : Nat) : FV :=
  sumUp ((List.range (rows * steps)).map (fun t => f32 (Config.gradTerm ops i (t / Nat.max 1 steps) (t % Nat.max 1 steps)).toNat))

/-! ### The fitted model (R413) -/

/-- The cell of a capture: FP32 operands, DEQ 1 (DEDUCED, log 45), the sigmoid and tanh tables those of the library, whose contents the spec does not
give (R351; free values, log 3). -/
def fitCell (gru : Bool) (h : Nat) : Cell :=
  let tab := fun b => (List.range 36).map (fun i => Config.libCurve b i)
  ⟨gru, 0xA, 0xA, 1, h, false, .fin false 1 0, tab false, tab true⟩

/-- The cell's outputs over a segment from a zero state, frame by frame: `w` is W [4 × H × (1 + H)], `b` BIAS [4 × H] (Table 14.2). -/
def fitRun (gru : Bool) (h : Nat) (w b : List FV) (xs : List FV) : List (List FV) :=
  let c := fitCell gru h
  let one : FV := .fin false 1 0
  (xs.foldl (fun (a : List FV × List (List FV)) x =>
    let st := (c.step (fun g j i => w.getD ((g * h + j) * (1 + h) + i) .nan) (fun g j => b.getD (g * h + j) .nan) (fun _ _ => one) [x] a.1).1
    (st, a.2 ++ [st.take h])) (List.replicate (2 * h) (.fin false 0 0), [])).2

/-- The model's output of a frame: w_o · h + b_o + x (R413), the product formed as MMA forms it (DEDUCED, log 45). -/
def fitOut (wo : List FV) (bo x : FV) (hv : List FV) : FV := add32 (add32 (floatDot (.fin false 0 0) hv wo) bo) x

/-! ### The optimiser (R418) -/

/-- The exact power of an FP32 value. -/
def powX (b : FV) (n : Nat) : FV := forN n (fun _ v => fmulX v b) (.fin false 1 0)

/-- Is `v` a power that FP32 arithmetic may form of the exact value `a`: within n × 2^−22 of it, or within 2^−146 where it is that small? -/
def powOk (n : Nat) (a v : FV) : Bool :=
  match faddX v (fneg a) with
  | .fin _ m e => fltX (.fin false m e) (fmulX a (fmulX (ofI (Int.ofNat n)) (.fin false 1 (-22)))) || fltX (.fin false m e) (.fin false 1 (-146))
  | _ => false

/-- A power of an FP32 constant, whose roundings the spec does not give: a free value within those bounds (log 3). -/
def pow32 (b : W32) (n : Nat) : FV :=
  let a := powX (f32 b.toNat) n
  let v := f32 (Config.powFp32 b n).toNat
  if powOk n a v then v else rnd32 a

/-- The FP32 constants 0.9, 0.1, 0.999 and 0.001. -/
def adamConst : FV × FV × FV × FV := (f32 0x3F666666, f32 0x3DCCCCCD, f32 0x3F7FBE77, f32 0x3A83126F)

/-- The step of R418 on one element at step `n`: the weight, the first and the second moment. -/
def adamElem (lr : FV) (n : Nat) (g w m v : FV) : FV × FV × FV :=
  let one : FV := .fin false 1 0
  let m1 := add32 (mul32 adamConst.1 m) (mul32 adamConst.2.1 g)
  let v1 := add32 (mul32 adamConst.2.2.1 v) (mul32 adamConst.2.2.2 (mul32 g g))
  let a := div32 m1 (sub32 one (pow32 0x3F666666 n))
  let b := add32 (sqrt32 (div32 v1 (sub32 one (pow32 0x3F7FBE77 n)))) (.fin false 1 (-20))
  (sub32 w (div32 (mul32 lr a) b), m1, v1)

/-! ### Scales of training state (R304, R305) -/

/-- The largest magnitude of a group as m × 2^e; `none` when an element is infinite or NaN. -/
def groupMax (l : List FV) : Option (Nat × Int) :=
  l.foldl (fun o v => o.bind (fun g => match v with
    | .fin _ m e => some (if magAbove m e g.1 g.2 then (m, e) else g)
    | _ => none)) (some (0, 0))

/-- The exponent of the scale of a group for a largest element `fmax` (R305): ceil(log2(amax / fmax)), 0 for an amax of 0 or below
2^−100, clamped to −24 … 15; `none` for a scale that is NaN. -/
def scaleExp (fmax : Nat) (l : List FV) : Option Int :=
  (groupMax l).map (fun g =>
    if g.1 = 0 ∨ magAbove 1 (-100) g.1 g.2 then 0
    else
      let t0 : Int := g.2 + Int.ofNat (Nat.log2 g.1) - Int.ofNat (Nat.log2 fmax) - 1
      let t := if !magAbove g.1 g.2 fmax t0 then t0 else if !magAbove g.1 g.2 fmax (t0 + 1) then t0 + 1 else t0 + 2
      max (-24) (min 15 t))

/-- A group in a format: its elements' bits with what their conversions met, and its dequantise scale, a NaN for a group with an infinite or NaN element (R305); `r` gives
an element's stochastic value. -/
def packGroup (f fmax mode : Nat) (r : Nat → Nat) (l : List FV) : List (Nat × Conv) × FV :=
  let inv : FV := match scaleExp fmax l with | some t => .fin false 1 (-t) | none => .nan
  ((List.range l.length).map (fun i => convert f mode (r i) (fmulX (l.getD i .nan) inv)),
   match scaleExp fmax l with | some t => .fin false 1 t | none => .nan)

/-- A group stored in a format under its scale, and read back (R304, R305). -/
def quantGroup (f fmax mode : Nat) (r : Nat → Nat) (l : List FV) : Option (List FV) :=
  let p := packGroup f fmax mode r l
  if p.2 = .nan then none else some (p.1.map (fun e => fmulX (decodeFmt f e.1) p.2))

/-- A tensor in groups of `g` elements (0: one group) stored and read back. -/
def quantTensor (f fmax mode g : Nat) (r : Nat → Nat) (l : List FV) : Option (List FV) :=
  let n := if g = 0 then Nat.max 1 l.length else g
  ((List.range (ceilDiv l.length n)).foldr (fun i o => o.bind (fun rest =>
    (quantGroup f fmax mode (fun j => r (i * n + j)) ((l.drop (i * n)).take n)).map (· ++ rest))) (some []))

/-- One tensor's step: weights, moments as FP32 words after requantisation; `none` when an amax is infinite or NaN (R419). `r k i` is
the stochastic value of element `i` in conversion `k`. -/
def adamTensor (mode g : Nat) (lr : FV) (n : Nat) (r : Nat → Nat → Nat) (gr w m v : List FV) : Option (List W32 × List W32 × List W32) :=
  (quantTensor 7 57344 mode g (r 0) gr).bind (fun gq =>
    let o := (List.range w.length).map (fun i => adamElem lr n (gq.getD i .nan) (w.getD i .nan) (m.getD i .nan) (v.getD i .nan))
    (quantTensor 1 127 mode g (r 1) (o.map (·.2.1))).bind (fun mq =>
      (quantTensor 6 448 mode 0 (r 2) (o.map (·.2.2))).map (fun vq =>
        let ws := fun (l : List FV) => l.map (fun e => BitVec.ofNat 32 (bits32 e))
        (ws (o.map (·.1)), ws mq, ws vq))))

/-- The elements of a group (0: the whole tensor of `n`), and the number of groups. -/
def gsGroup (g n : Nat) : Nat := if g = 0 then Nat.max 1 n else g

/-- Bytes of the data of a group-scaled tensor of `n` one-byte elements, padded to a multiple of G and of 64 bytes (R304). -/
def gsData (g n : Nat) : Nat := ceilDiv (if g = 0 then n else ceilDiv n g * g) 64 * 64

/-- Bytes of a group-scaled tensor: its data, then its FP32 scales (R304). -/
def gsLen (g n : Nat) : Nat := gsData g n + 4 * ceilDiv n (gsGroup g n)

/-- The values of a group-scaled tensor of `n` one-byte elements (R304). -/
def gsVals (f g n : Nat) (b : List Byte) : List FV :=
  (List.range n).map (fun i => fmulX (decodeFmt f (leAt b i 1)) (f32 (leAt b (gsData g n + 4 * (i / gsGroup g n)) 4)))

/-- The bytes of a group-scaled tensor of one-byte elements (R304, R305), and what its conversions met (R314). -/
def gsBytes (f fmax mode g : Nat) (r : Nat → Nat) (l : List FV) : List Byte × OpBits :=
  let k := gsGroup g l.length
  let gs := (List.range (ceilDiv l.length k)).map (fun i => packGroup f fmax mode (fun j => r (i * k + j)) ((l.drop (i * k)).take k))
  let data := gs.flatMap (fun p => p.1.flatMap (fun e => toLe 1 e.1))
  (data ++ List.replicate (gsData g l.length - data.length) 0 ++ gs.flatMap (fun p => toLe 4 (bits32 p.2)),
   gs.foldl (fun b p => p.1.foldl (fun b e => b.or (convBits e.2)) b) {})

end Sys2Proof.Machine
end

