-- ==== Sys2Proof/Machine/OpCheck.lean ====
section
/-!
DEFINITION. The checks of RUN_OP (R311, R312): the operator block (Tables 12.1, 12.2), each operator's tensors, dimensions, formats and
attributes (Tables 12.3, 12.4, 13.1-13.3, 14.2, 15.5, 17.3), its chain (R318, R319, R342), linking (R324), overlaps (R329, R349), and the
tenant's windows (R203).
-/
namespace Sys2Proof.Machine

/-! ### Blocks -/

/-- The attribute field of `n` bytes at offset `o`. -/
def OpBlk.a (x : OpBlk) (o n : Nat) : Nat := leAt x.attrs o n

/-- Are the dimensions of a tensor these, outermost last? -/
def Tensor.dims (t : Tensor) (a b c d : Nat) : Bool := t.d0 == a && t.d1 == b && t.d2 == c && t.d3 == d

/-- Elements of a tensor. -/
def Tensor.count (t : Tensor) : Nat := t.d0 * t.rows

/-- Bytes that a tensor holds. -/
def Tensor.size (t : Tensor) : Nat := t.rowBytes * t.rows

/-- The fields of a tensor entry (Table 12.2). -/
def Tensor.ok (t : Tensor) : Bool :=
  t.addr < 2 ^ 40 && t.rsv == 0 && t.rank ≤ 4 && (t.fmt ≤ 0xA || t.fmt == 0xFF) &&
  (t.rank = 0 || (1 ≤ t.d0 && 1 ≤ t.d1 && 1 ≤ t.d2 && 1 ≤ t.d3)) &&
  (t.rank = 0 || ((2 ≤ t.rank || t.d1 == 1) && (3 ≤ t.rank || t.d2 == 1) && (4 ≤ t.rank || t.d3 == 1)))

/-- Is the tensor entry the link operand of R324? -/
def Tensor.link (t : Tensor) : Bool := t.rank = 0 && t.addr = 0 && t.fmt = 0 && t.dims 0 0 0 0

/-- Does a stage name tensor `i`? -/
def OpBlk.staged (x : OpBlk) (i : Nat) : Bool :=
  x.stages.any (fun g => (g.kind ≠ 5 && g.kind ≠ 6 && g.kind ≠ 7 && g.addr = i) || (g.stat && g.arg0 = i))

/-- Is the optional tensor `i` present: an entry of rank 1 or more that no stage names (DEDUCED, log 40)? -/
def OpBlk.has (x : OpBlk) (i : Nat) : Bool := i < x.nt && (x.t i).rank ≠ 0 && !x.staged i

/-- Is the operator a convolution? -/
def OpBlk.conv (x : OpBlk) : Bool := 0x0200 ≤ x.id && x.id ≤ 0x0203
/-- Is the operator a matrix operator? -/
def OpBlk.mat (x : OpBlk) : Bool := x.id = 0x0100 || x.id = 0x0101
/-- Is the operator pooling or upsampling? -/
def OpBlk.poolUp (x : OpBlk) : Bool := x.id = 0x0210 || x.id = 0x0211 || x.id = 0x0220 || x.id = 0x0221
/-- Is the operator one-dimensional? The regrouping operators have no ID of their own for it: an activation of rank 3 or less is 1-D
(DEDUCED, log 40). -/
def OpBlk.oneD (x : OpBlk) : Bool := if x.id = 0x0230 ∨ x.id = 0x0231 then (x.t 0).rank ≤ 3 else x.id % 2 = 1
/-- Is the operator recurrent? -/
def OpBlk.recur (x : OpBlk) : Bool := 0x0300 ≤ x.id && x.id ≤ 0x0302
/-- Is the operator a training operator? -/
def OpBlk.train (x : OpBlk) : Bool := 0x0500 ≤ x.id && x.id ≤ 0x0503

/-- The fields of a block (Table 12.1) and its tensor entries; `last` for the last block of the command. -/
def OpBlk.fieldsOk (x : OpBlk) (rsv : Bool) (last : Bool) : Bool :=
  1 ≤ x.nt && x.nt ≤ 16 && x.ns ≤ 8 && 1 ≤ x.maxCores && x.maxCores ≤ 64 && x.flags == (if last then 0 else 1) &&
  x.attrLen ≤ 64 && x.attrLen % 8 == 0 && rsv && x.tensors.all Tensor.ok

/-- The length of the block or the two blocks of a command (R311). -/
def opLen (b : List Byte) : Nat :=
  if bitN (leAt b 5 1) 0 then blkLen b + blkLen (b.drop (blkLen b)) else blkLen b

/-- The format of a link's intermediate, which the zero FMT fields of R324 leave open: a free value (log 41). -/
def linkFmt (b : List Byte) : Nat := Config.linkFmt b % 11

/-- The number of jobs J of a command (R313): a free value at most MAX_CORES of each block. -/
def opJobs (b : List Byte) : Nat :=
  let m := if bitN (leAt b 5 1) 0 then Nat.min (leAt b 4 1) (leAt b (blkLen b + 4) 1) else leAt b 4 1
  1 + Config.opJobs b % Nat.max 1 m

/-- The numbers of slices along batches, rows and columns (R313, R324, R337, R383): whole-row and linked operators are cut by rows only,
ATTENTION by rows (the batches here) and KV heads (the columns), the others as the library likes (a free choice of divisors of J, log 3). -/
def opGrid (b : List Byte) : Nat × Nat × Nat :=
  let J := opJobs b
  let id := leAt b 0 2
  if bitN (leAt b 5 1) 0 || (0x0110 ≤ id && id ≤ 0x0113) then (1, J, 1)
  else
    let div := fun n k => (let d := 1 + Config.opCut b 3 k % Nat.max 1 n; if n % d = 0 then d else 1)
    let r := if id = 0x0400 then 1 else div J 0
    let c := div (J / r) 1
    (J / r / c, r, c)

/-- The slice of `n` along an axis in which a coordinate lies: the boundaries up to it (R313). -/
def opAxis (b : List Byte) (axis n v : Nat) : Nat := ((List.range (n - 1)).filter (fun j => 1 + Config.opCut b axis j ≤ v)).length

/-- The slice of an operator that computes the element at a batch, a row and a column (R313): batches outermost, columns innermost (DESIGN
CHOICE, log 3). -/
def opSlice (b : List Byte) (i m n : Nat) : Nat :=
  let g := opGrid b
  (opAxis b 0 g.1 i * g.2.1 + opAxis b 1 g.2.1 m) * g.2.2 + opAxis b 2 g.2.2 n

/-! ### Geometry -/

/-- The values that enter the epilogue of an operator: batches of `h` rows of `w` positions with `c` channels; the domain of R320;
`slide` for a sliding-window operator, `pro` where prologue stages may stand, with the columns `k` and the rows of operand A; the
first index that a stage tensor may have. -/
structure Geo where
  b : Nat
  h : Nat
  w : Nat
  c : Nat
  dom : Nat
  slide : Bool
  pro : Bool
  k : Nat
  arows : Nat
  first : Nat
  deriving DecidableEq, Repr

/-- A link operand: rows, columns, format. -/
abbrev Link := Option (Nat × Nat × Nat)

/-- Is a number in 1 … n? -/
def within (v n : Nat) : Bool := 1 ≤ v && v ≤ n

/-- The domain of a product: exact for integers without group scales (R320). -/
def prodDom (fmt G : Nat) : Nat := if G = 0 ∧ fmtInt fmt then 0 else 2

/-- MATMUL and BATCHED_MATMUL (Tables 12.3, 12.4, R316). -/
def OpBlk.matGeo (x : OpBlk) (lk : Link) : Option Geo :=
  let G := grpSize (x.a 0 1)
  let f := x.a 1 1
  let bt := x.a 4 4
  let two := x.id = 0x0101
  let ta := x.t 0
  let tb := x.t 1
  let l := lk.getD (ta.d1, ta.d0, ta.fmt)
  let kn := bitN f 0
  let n := if kn then tb.d0 else tb.d1
  let aB := if bitN f 1 then 1 else bt
  let m := if lk.isSome then l.1 / aB else l.1
  let k := l.2.1
  let bB := if bitN f 2 then 1 else bt
  let scale := fun i rows bb => ((x.t i).fmt == 8 || (x.t i).fmt == 0xA) && (x.t i).rank ≠ 0 && (x.t i).dims (k / G) rows bb 1
  if x.attrLen == 16 && x.a 0 1 ≤ 3 && f < 8 && (two || f < 2) && zerosAt x.attrs 2 2 && zerosAt x.attrs 8 8 &&
     within bt 4096 && (two || bt == 1) && within m 65536 && within n 65536 && within k 65536 &&
     (G == 0 || k % G == 0) && mmaPair l.2.2 tb.fmt && l.2.2 ≤ 0xA && tb.fmt ≤ 0xA && (if lk.isSome then l.1 % aB == 0 else ta.dims k m aB 1) &&
     tb.dims (if kn then n else k) (if kn then k else n) bB 1 && (G == 0 || (5 ≤ x.nt && scale 3 m aB && scale 4 n bB))
  then some { b := bt, h := 1, w := m, c := n, dom := prodDom l.2.2 G, slide := false, pro := true, k := k, arows := m * aB,
              first := if G = 0 then 3 else 5 }
  else none

/-- The window that the attributes of Table 13.2 give over an input of `ih` × `iw` × `c`. -/
def OpBlk.win (x : OpBlk) (ih iw c oc fmt : Nat) : Win :=
  { sy := x.a 2 1, sx := x.a 3 1, kh := x.a 4 1, kw := x.a 5 1, dy := x.a 6 2, dx := x.a 8 2, pt := x.a 10 1, pb := x.a 11 1,
    pl_ := x.a 12 1, pr := x.a 13 1, ih := ih, iw := iw, c := c, oc := oc, groups := x.a 14 2, fillMode := bits (x.a 1 1) 0 2,
    fill := decodeFmt fmt (x.a 16 4), countPad := bitN (x.a 1 1) 2 }

/-- The extents of an activation tensor: channels, columns, rows, batches (R330). -/
def OpBlk.act (x : OpBlk) (t : Tensor) : Nat × Nat × Nat × Nat := if x.oneD then (t.d0, t.d1, 1, t.d2) else (t.d0, t.d1, t.d2, t.d3)

/-- Does the operator read a ring (R334)? -/
def OpBlk.ring (x : OpBlk) : Bool := bitN (x.a 1 1) 3

/-- The input columns of a window operator: for a ring T of R334, 0 when it is not positive or Y has no column. -/
def OpBlk.inCols (x : OpBlk) : Nat :=
  if x.ring ∧ (x.t 2).d1 = 0 then 0
  else if x.ring then ((x.t 2).d1 - 1) * x.a 3 1 + x.a 8 2 * (x.a 5 1 - 1) + 1 - (x.a 12 1 + x.a 13 1) else (x.t 0).d1

/-- The limits of the window attributes (Table 13.2, R331, R334, R338). -/
def OpBlk.winAttrOk (x : OpBlk) : Bool :=
  let w := x.win 1 1 1 1 0
  let fl := x.a 1 1
  let ringOk := x.conv && x.oneD
  x.attrLen == 32 && fl < 16 && w.fillMode ≤ 2 && within w.sy 4 && within w.sx 4 && w.pt ≤ 15 && w.pb ≤ 15 && w.pl_ ≤ 15 &&
  w.pr ≤ 15 && 1 ≤ w.groups && within w.dy 64 && zerosAt x.attrs 28 4 && (w.fillMode == 2 || x.a 16 4 == 0) &&
  (if x.oneD then w.kh == 1 && w.sy == 1 && w.dy == 1 && w.pt == 0 && w.pb == 0 && within w.kw 64 && within w.dx 1024
   else within w.kh 16 && within w.kw 16 && within w.dx 64) &&
  (if x.ring then ringOk && within (x.a 20 4) 65536 && x.a 24 4 < x.a 20 4 else x.a 20 4 == 0 && x.a 24 4 == 0) &&
  (if x.conv then x.a 0 1 ≤ 3 && !w.countPad else x.a 0 1 ≤ 1 && w.groups == 1 && (x.a 0 1 == 1 || fl == 0))

/-- Convolutions (Tables 13.1, 13.2, R330-R336). -/
def OpBlk.convGeo (x : OpBlk) : Option Geo :=
  let G := grpSize (x.a 0 1)
  let tx := x.t 0
  let tw := x.t 1
  let e := x.act tx
  let c := e.1
  let oc := tw.d3
  let iw := x.inCols
  let w := x.win e.2.2.1 iw c oc tx.fmt
  let scale := fun (i : Nat) => ((x.t i).fmt == 8 || (x.t i).fmt == 0xA) && (x.t i).rank ≠ 0
  if x.winAttrOk && within c 65536 && within oc 65536 && within e.2.1 65536 && within e.2.2.1 65536 && within e.2.2.2 4096 &&
     (!x.oneD || tx.d3 == 1) && c % w.groups == 0 && oc % w.groups == 0 && (x.id ≤ 0x0201 || (w.groups == c && c == oc)) &&
     tw.dims w.icg w.kw w.kh oc && !(tx.fmt == 0 && c % 2 == 1) && !(tw.fmt == 0 && w.icg % 2 == 1) && tx.fmt ≤ 0xA && tw.fmt ≤ 0xA &&
     mmaPair tx.fmt tw.fmt && (G == 0 || w.icg % G == 0) && 1 ≤ w.oh && 1 ≤ w.ow && 1 ≤ iw &&
     (!x.ring || (tx.d1 == x.a 20 4 && iw ≤ x.a 20 4)) &&
     (G == 0 || (5 ≤ x.nt && scale 3 && scale 4 && (x.t 4).dims (w.kh * w.kw * w.icg / G) oc 1 1 &&
        (if x.oneD then (x.t 3).dims (c / G) iw e.2.2.2 1 else (x.t 3).dims (c / G) iw e.2.2.1 e.2.2.2)))
  then some { b := e.2.2.2, h := w.oh, w := w.ow, c := oc, dom := prodDom tx.fmt G, slide := true, pro := true, k := c,
              arows := tx.rows, first := if G = 0 then 3 else 5 }
  else none

/-- Pooling and upsampling (Tables 13.1-13.3, R332, R338, R339). -/
def OpBlk.poolGeo (x : OpBlk) : Option Geo :=
  let tx := x.t 0
  let e := x.act tx
  let w := x.win e.2.2.1 e.2.1 e.1 e.1 tx.fmt
  let up := 0x0220 ≤ x.id
  let fy := x.a 1 1
  let fx := x.a 2 1
  let lim := within e.1 65536 && within e.2.1 65536 && within e.2.2.1 65536 && within e.2.2.2 4096 && (!x.oneD || tx.d3 == 1) &&
    tx.fmt ≤ 0xA && !(tx.fmt == 0 && e.1 % 2 == 1)
  let ok := if up then x.attrLen == 8 && x.a 0 1 ≤ 1 && within fy 8 && within fx 8 && !(fy == 1 && fx == 1) && (!x.oneD || fy == 1) &&
      zerosAt x.attrs 3 5
    else x.winAttrOk && 1 ≤ w.oh && 1 ≤ w.ow
  if lim && ok then
    some { b := e.2.2.2, h := if up then e.2.2.1 * fy else w.oh, w := if up then e.2.1 * fx else w.ow, c := e.1, dom := 2,
           slide := true, pro := false, k := 0, arows := 0, first := 2 }
  else none

/-- The extents of SPACE_TO_DEPTH and DEPTH_TO_SPACE: rows, columns, channels of Y (R332, R340). -/
def OpBlk.regrouped (x : OpBlk) : Option (Nat × Nat × Nat) :=
  let e := x.act (x.t 0)
  let f := x.a 0 1
  let fh := if x.oneD then 1 else f
  let ff := f * fh
  if f ≠ 2 ∧ f ≠ 4 then none
  else if x.id = 0x0230 then (if e.2.1 % f = 0 ∧ e.2.2.1 % fh = 0 then some (e.2.2.1 / fh, e.2.1 / f, e.1 * ff) else none)
  else if e.1 % ff = 0 then some (e.2.2.1 * fh, e.2.1 * f, e.1 / ff) else none

/-- Whole-row operators (Tables 12.3, 12.4, R317, R318). -/
def OpBlk.rowGeo (x : OpBlk) : Option Geo :=
  let tx := x.t 0
  let eps := f32 (x.a 0 4)
  let attrs := if x.id = 0x0110 then x.attrLen == 0
    else if x.id = 0x0113 then x.attrLen == 8 && within (x.a 0 2) 256 && x.a 0 2 ≤ tx.d0 && zerosAt x.attrs 2 6 && x.ns == 0
    else x.attrLen == 8 && zerosAt x.attrs 4 4 && fltX (.fin false 0 0) eps && !fltX (.fin false 1 0) eps
  let vec := fun i => !x.has i || ((x.t i).dims tx.d0 1 1 1 && (x.t i).fmt ≤ 0xA)
  if attrs && within tx.d0 65536 && within tx.rows (2 ^ 24) && (tx.fmt == 8 || tx.fmt == 9 || tx.fmt == 0xA) &&
     (x.id ≠ 0x0111 || (vec 2 && vec 3 && (x.has 2 || !x.has 3))) && (x.id ≠ 0x0112 || vec 2) &&
     (x.id ≠ 0x0113 || (3 ≤ x.nt && (x.t 1).dims (x.a 0 2) tx.d1 tx.d2 tx.d3 && (x.t 1).fmt == tx.fmt &&
        (x.t 2).dims (x.a 0 2) tx.d1 tx.d2 tx.d3 && (x.t 2).fmt == 5))
  then some { b := 1, h := 1, w := tx.rows, c := tx.d0, dom := 2, slide := false, pro := false, k := 0, arows := 0,
              first := if x.id = 0x0113 then 3 else 2 }
  else none

/-- ATTENTION without its pool (Table 15.5, R380). -/
def OpBlk.attnGeo (x : OpBlk) : Option Geo :=
  let q := x.t 0
  let nb := q.d3
  let ql := q.d2
  let app := bitN (x.a 2 1) 1
  let hkv := if app then (x.t 1).d1 else 1
  let knew := fun i => if app then (x.t i).rank ≠ 0 && fmtFloat (x.t i).fmt && (x.t i).dims q.d0 hkv ql nb else (x.t i).rank == 0
  let ints := fun i => (x.t i).fmt == 5 && (x.t i).dims nb 1 1 1
  if x.attrLen == 8 && x.a 2 1 ≤ 3 && x.a 3 1 == 0 && 7 ≤ x.nt && fmtFloat q.fmt && within nb 4096 && within ql 64 && within q.d1 256 &&
     knew 1 && knew 2 && (x.t 3).dims q.d0 q.d1 ql nb && ints 4 && ints 5 && ints 6
  then some { b := 1, h := 1, w := nb * ql * q.d1, c := q.d0, dom := 2, slide := false, pro := false, k := 0, arows := 0, first := 9 }
  else none

/-- ATTENTION against its pool (R380). -/
def OpBlk.attnPoolOk (x : OpBlk) (p : Pool) : Bool :=
  let q := x.t 0
  let scale := fun i => (x.t i).rank = 0 || ((x.t i).fmt == 0xA && (x.t i).dims p.hkv 1 1 1)
  q.d0 == p.d && q.d1 % p.hkv == 0 && ((x.t 1).rank = 0 || (x.t 1).d1 == p.hkv) && scale 7 && scale 8

/-- The tensors of LSTM and GRU but MASK (Table 14.2, R352): `dep` the state values of an element. -/
def OpBlk.gatedOk (x : OpBlk) (dep : Nat) : Bool :=
  let tx := x.t 0
  let h := (x.t 1).d1
  within tx.d0 4096 && within h 4096 && 8 ≤ x.nt && tx.fmt ≤ 0xA && (x.t 1).fmt ≤ 0xA && mmaPair tx.fmt (x.t 1).fmt &&
  (x.t 1).dims (tx.d0 + h) h 4 1 && (x.t 2).dims h 4 1 1 && (x.t 2).fmt == 0xA && (x.t 3).dims h 4 1 1 && (x.t 3).fmt == 0xA &&
  (x.t 4).fmt == 0xFF && 64 + tx.d2 * h * dep * 4 ≤ (x.t 4).size && (x.t 4).addr % 64 == 0 && (x.t 5).dims h tx.d1 tx.d2 1 &&
  (x.t 5).fmt ≤ 0xA && (x.t 6).fmt == 0xFF && (x.t 7).fmt == 0xFF && 144 ≤ (x.t 6).size && 144 ≤ (x.t 7).size

/-- Recurrent operators (Table 14.2, R352). -/
def OpBlk.recurOk (x : OpBlk) : Bool :=
  let tx := x.t 0
  let scan := x.id = 0x0302
  let n := tx.d2
  let t := tx.d1
  let mask := fun i => !x.has i || ((x.t i).fmt == 2 && (x.t i).dims t n 1 1)
  x.ns == 0 && x.attrLen == 16 && x.a 0 1 ≤ 1 && zerosAt x.attrs 1 3 && zerosAt x.attrs 12 4 && within n 4096 && within t (2 ^ 20) &&
  tx.d3 == 1 &&
  (if scan then
    let d := tx.d0
    let sN := (x.t 2).d0
    within d 8192 && within sN 64 && x.a 4 4 == 0 && 8 ≤ x.nt && [0, 1, 2, 3].all (fun i => fmtFloat (x.t i).fmt) &&
    (x.t 1).dims d t n 1 && (x.t 2).dims sN t n 1 && (x.t 3).dims sN t n 1 && (x.t 4).dims sN d 1 1 && (x.t 4).fmt == 0xA &&
    (x.t 5).dims d 1 1 1 && (x.t 5).fmt == 0xA && (x.t 6).fmt == 0xFF && 64 + n * d * sN * 4 ≤ (x.t 6).size && (x.t 6).addr % 64 == 0 &&
    (x.t 7).dims d t n 1 && (x.t 7).fmt ≤ 0xA && mask 8
  else x.gatedOk (if x.id = 0x0300 then 2 else 1) && mask 8)

/-- A byte of what a training block says in its attributes, whose fields the spec does not give (a free value, log 18). -/
def OpBlk.trainA (x : OpBlk) (i : Nat) : Nat := (Config.trainAttr x.attrs i).toNat

/-- G of a training block: 32, 64 or 128 (Table 11.6). -/
def OpBlk.trainG (x : OpBlk) : Nat := grpSize (1 + x.trainA 0 % 3)

/-- Is the tensor FP32 with `n` elements? -/
def Tensor.f32n (t : Tensor) (n : Nat) : Bool := t.fmt == 0xA && t.count == n && t.rank ≠ 0

/-- The tensors of DENSE_BWD: h [N × T × H], x, w_o [H] and the gradient by y, then the gradients of w_o, b_o, h and x; those of LOSS_ESR: ŷ and
y, then the loss and the gradient by ŷ (all FP32; DESIGN CHOICE, log 18). -/
def OpBlk.lossTensorsOk (x : OpBlk) : Bool :=
  let h := (x.t 0).d0
  let n := (x.t 0).rows
  if x.id = 0x0501 then
    x.nt == 8 && within h 4096 && (x.t 0).f32n (h * n) && (x.t 1).f32n n && (x.t 2).f32n h && (x.t 3).f32n n && (x.t 4).f32n h && (x.t 5).f32n 1 &&
    (x.t 6).f32n (h * n) && (x.t 7).f32n n
  else
    let m := (x.t 0).count
    x.nt == 4 && within m (2 ^ 20) && (x.t 0).f32n m && (x.t 1).f32n m && (x.t 2).f32n 1 && (x.t 3).f32n m

/-- The tensors of ADAM_STEP: g, w, m and v of one length and of Table 11.6's formats (R418; order DESIGN CHOICE, log 18). -/
def OpBlk.adamTensorsOk (x : OpBlk) : Bool :=
  let n := (x.t 1).count
  let raw := fun i len => (x.t i).fmt == 0xFF && (x.t i).rows == 1 && len ≤ (x.t i).size
  x.nt == 4 && within n (2 ^ 24) && (x.t 1).fmt == 0xA && raw 0 (gsLen x.trainG n) && raw 2 (gsLen x.trainG n) && raw 3 (gsLen 0 n)

/-- Training operators (Table 17.3), whose tensor order the spec does not give: RNN_BWD on the tensors of Table 14.2 with tensors 9 to 11 the
gradients of W, BIAS and X (DESIGN CHOICE, log 18). -/
def OpBlk.trainOk (x : OpBlk) : Bool :=
  let t := x.t 0
  let like := fun i j => (x.t i).dims (x.t j).d0 (x.t j).d1 (x.t j).d2 (x.t j).d3
  x.ns == 0 &&
  (if x.id = 0x0500 then
     x.attrLen == 16 && x.a 0 1 == 0 && zerosAt x.attrs 1 3 && zerosAt x.attrs 12 4 && within t.d1 8192 && within t.d2 64 && t.d3 == 1 &&
     x.gatedOk 1 && 12 ≤ x.nt && (x.t 9).fmt == 0xA && like 9 1 && (x.t 10).fmt == 0xA && like 10 2 && (x.t 11).fmt == 0xA && like 11 0
   else if x.id = 0x0503 then x.adamTensorsOk
   else x.lossTensorsOk)

/-- SPACE_TO_DEPTH and DEPTH_TO_SPACE (Table 13.1, R332, R340). -/
def OpBlk.regroupOk (x : OpBlk) : Bool :=
  let tx := x.t 0
  let e := x.act tx
  x.ns == 0 && x.attrLen == 8 && zerosAt x.attrs 1 7 && tx.fmt ≤ 0xA && (x.t 1).fmt == tx.fmt && !(tx.fmt == 0 && e.1 % 2 == 1) &&
  within e.1 65536 && within e.2.1 65536 && within e.2.2.1 65536 && within e.2.2.2 4096 && (!x.oneD || tx.d3 == 1) &&
  (match x.regrouped with
   | some (h, w, c) => if x.oneD then (x.t 1).dims c w e.2.2.2 1 else (x.t 1).dims c w h e.2.2.2
   | none => false)

/-! ### Chains (R318, R319, R342) -/

/-- The prologue stages. -/
def OpBlk.pro (x : OpBlk) : List Stage := x.stages.filter (fun g => bitN g.side 0)
/-- The epilogue stages. -/
def OpBlk.epi (x : OpBlk) : List Stage := x.stages.filter (fun g => !bitN g.side 0)
/-- Is the stage UPSAMPLE or POOL? -/
def Stage.spatial (g : Stage) : Bool := g.kind == 6 || g.kind == 7
/-- The epilogue stages before the spatial stage, that stage, and those after it (R343). -/
def splitSpatial : List Stage → List Stage × Option Stage × List Stage
  | [] => ([], none, [])
  | g :: t => if g.spatial then ([], some g, t) else (let r := splitSpatial t; (g :: r.1, r.2.1, r.2.2))

/-- The window of a POOL stage (Table 13.4, R343). -/
def Stage.win (g : Stage) (ih iw c : Nat) : Win :=
  { sy := bits g.arg0 24 2 + 1, sx := bits g.arg0 26 2 + 1, kh := bits g.arg0 8 8, kw := bits g.arg0 16 8, dy := 1, dx := 1,
    pt := bits g.arg1 0 8, pb := bits g.arg1 8 8, pl_ := bits g.arg1 16 8, pr := bits g.arg1 24 8, ih := ih, iw := iw, c := c,
    oc := c, groups := 1, fillMode := 0, fill := .fin false 0 0, countPad := bits g.arg0 0 8 == 2 }

/-- Rows and columns after the spatial stage (R332, R343). -/
def Geo.after (g : Geo) (l : List Stage) : Nat × Nat :=
  match (splitSpatial l).2.1 with
  | none => (g.h, g.w)
  | some s =>
    if s.kind = 7 then (let w := s.win g.h g.w g.c; (w.oh, w.ow)) else (g.h * bits s.arg0 8 8, g.w * bits s.arg0 16 8)

/-- The tensors that a stage names on `rows` × `N` elements (Tables 12.5, 12.6); a PWL stage names its table by ADDR (DEDUCED, log
40). -/
def OpBlk.stageTensorsOk (x : OpBlk) (first rows N : Nat) (g : Stage) : Bool :=
  let t := x.t g.addr
  let cnt := grpCount (g.sel / 8) rows N
  let named := first ≤ g.addr && g.addr < x.nt && t.rank ≠ 0
  let r := x.t g.arg0
  (if g.kind = 0 then named && (if g.sel / 8 ≤ 1 then t.fmt == 0xFF && 16 * cnt ≤ t.size else t.fmt == 0xA && cnt ≤ t.count)
   else if g.kind = 1 then named && t.fmt == g.fmt && t.dims N 1 1 1
   else if g.kind = 2 then named && t.fmt == 0xFF && 144 ≤ t.size
   else if g.kind = 3 ∨ g.kind = 4 then named && t.fmt == g.fmt && t.d0 == N && (bitN g.side 1 || t.rows == rows)
   else if g.kind = 8 then named && t.fmt == 0xA && cnt ≤ t.count
   else true) &&
  (!g.stat || (first ≤ g.arg0 && g.arg0 < x.nt && r.rank ≠ 0 && r.fmt == 0xFF && 8 * cnt ≤ r.size))

/-- The chain of an operator (R318, R319, R342, Table 12.5). -/
def OpBlk.chainOk (x : OpBlk) (g : Geo) : Bool :=
  let p := splitSpatial x.epi
  let out := g.after x.epi
  x.stages == x.pro ++ x.epi && x.stages.all (fun s => s.ok x.oneD) && (x.pro.isEmpty || (g.pro && (x.pro.getLast?).any (fun s => s.kind == 8))) &&
  sideOk x.pro g.k && sideOk x.epi g.c && x.pro.all (fun s => !s.spatial) && p.2.2.all (fun s => !s.spatial) &&
  (p.2.1.isNone || (g.slide && 1 ≤ out.1 && 1 ≤ out.2)) &&
  x.pro.all (x.stageTensorsOk g.first g.arows g.k) && p.1.all (x.stageTensorsOk g.first (g.b * g.h * g.w) g.c) &&
  p.2.2.all (x.stageTensorsOk g.first (g.b * out.1 * out.2) g.c)

/-- The index of Y. -/
def OpBlk.yIdx (x : OpBlk) : Nat := x.outIdx.headD 1

/-- Are Y's dimensions and format those of the output (R316, R332)? -/
def OpBlk.yOk (x : OpBlk) (g : Geo) : Bool :=
  let y := x.t x.yIdx
  let out := g.after x.epi
  y.fmt ≤ 0xA && y.rank ≠ 0 &&
  (if x.mat then y.dims g.c g.w g.b 1 && !(y.fmt == 0 && g.c % 2 == 1)
   else if x.id = 0x0113 then true
   else if g.slide then (if x.oneD then y.dims g.c out.2 g.b 1 else y.dims g.c out.2 out.1 g.b)
   else if x.id = 0x0400 then true
   else y.dims g.c (x.t 0).d1 (x.t 0).d2 (x.t 0).d3)

/-! ### The checks -/

/-- The geometry of an operator whose values pass through a chain. -/
def OpBlk.geo (x : OpBlk) (lk : Link) : Option Geo :=
  if x.mat then x.matGeo lk
  else if x.conv then x.convGeo
  else if x.poolUp then x.poolGeo
  else if 0x0110 ≤ x.id ∧ x.id ≤ 0x0113 then x.rowGeo
  else if x.id = 0x0400 then x.attnGeo
  else none

/-- The tensor indexes that may have rank 0 in a block (Tables 12.2, 15.5): another optional tensor is absent when the block has no entry of
its own for it. -/
def OpBlk.mayLack (x : OpBlk) : List Nat := if x.id = 0x0400 then [1, 2, 7, 8] else []

/-- Do byte ranges of two lists overlap? -/
def rangesMeet (a b : List (Nat × Nat)) : Bool :=
  a.any (fun r => b.any (fun q => r.1 < q.1 + q.2 && q.1 < r.1 + r.2 && r.2 ≠ 0 && q.2 ≠ 0))

/-- R329 and R349: records that overlap Y, and for sliding windows Y over X, W or a scale tensor. -/
def OpBlk.overlaps (x : OpBlk) : Bool :=
  let y := (x.t x.yIdx).ranges
  rangesMeet y (x.statIdx.flatMap (fun i => (x.t i).ranges)) ||
  ((x.conv || (0x0210 ≤ x.id && x.id ≤ 0x0231)) &&
    rangesMeet y ((if x.conv then (if x.a 0 1 = 0 then [0, 1] else [0, 1, 3, 4]) else [0]).flatMap (fun i => (x.t i).ranges)))

/-- One block against its operator's limits (R312 item 1): `lk` its link operand, `out` whether its Y is the link. -/
def OpBlk.opOk (x : OpBlk) (lk : Link) (out : Bool) : Bool :=
  let zero := (if lk.isSome then [0] else []) ++ (if out then [x.yIdx] else [])
  let ranks := (List.range x.nt).all (fun i => if zero.contains i then (x.t i).link else (x.t i).rank ≠ 0 || x.mayLack.contains i)
  ranks && !x.overlaps &&
  (match x.geo lk with
   | some g => x.yIdx < x.nt && x.chainOk g && (out || x.yOk g)
   | none =>
     if x.id = 0x0230 ∨ x.id = 0x0231 then x.regroupOk
     else if x.recur then x.recurOk
     else if x.train then x.trainOk
     else false)

/-- Rows, columns and format that the first block of a link hands on: the first operator is a matrix operator or a convolution
(DEDUCED, log 41). -/
def linkOf (b : List Byte) (x : OpBlk) : Link :=
  (x.geo none).bind (fun g => if x.mat || x.conv then
    let o := g.after x.epi
    some (g.b * o.1 * o.2, g.c, linkFmt b) else none)

/-- The row, within its batch, of row `r` of the operand that the first block of a link hands on (R324). -/
def OpBlk.linkRow (x : OpBlk) (r : Nat) : Nat :=
  match x.geo none with
  | some g => if x.mat then r % g.w else (let o := g.after x.epi; r / o.2 % o.1)
  | none => r

/-- Does the intermediate of each slice of a link fit in 384 KiB (R324)? -/
def linkFits (b : List Byte) (x : OpBlk) (l : Nat × Nat × Nat) : Bool :=
  let J := opJobs b
  (List.range J).all (fun k =>
    ((List.range l.1).filter (fun r => opAxis b 1 J (x.linkRow r) == k)).length * fmtBytes l.2.2 l.2.1 ≤ 393216)

/-- Is the block, or the pair of R324, legal (R312 item 1)? The second operator of a link is a matrix operator. -/
def opBlocksOk (b : List Byte) : Bool :=
  b.length == opLen b &&
  (match opBlocks b with
   | [x] => x.fieldsOk (zerosAt b 8 8) true && x.opOk none false
   | [x, y] =>
     let l := linkOf b x
     x.fieldsOk (zerosAt b 8 8) false && y.fieldsOk (zerosAt b (blkLen b + 8) 8) true && y.mat && l.isSome && x.opOk none true &&
     y.opOk l false && l.any (linkFits b x)
   | _ => false)

/-- The tensor of a stage; ARG0 of RESADD and MUL, when not zero, is its row stride (Table 12.6; DEDUCED, log 40). -/
def OpBlk.place (x : OpBlk) (g : Stage) : Tensor :=
  let t := x.t g.addr
  if (g.kind = 3 ∨ g.kind = 4) ∧ g.arg0 ≠ 0 then { t with stride := g.arg0 } else t

/-- The byte ranges that an operator reads: every tensor it does not only write, and the rows of a stage tensor at their stride (R312 item 2,
R360). -/
def OpBlk.inRanges (x : OpBlk) : List (Nat × Nat) :=
  let only := if x.recur then (if x.id = 0x0302 then [7] else [5]) else if x.id = 0x0503 then [] else x.outIdx
  ((List.range x.nt).filter (fun i => !only.contains i)).flatMap (fun i => (x.t i).ranges) ++
    (x.stages.filter (fun g => g.kind = 3 || g.kind = 4)).flatMap (fun g => (x.place g).ranges)

/-- The index of the STATE record of a recurrent operator (Table 14.2). -/
def OpBlk.recIdx (x : OpBlk) : Nat := if x.id = 0x0302 then 6 else 4

/-- The byte ranges of the rescale tables of a block. -/
def OpBlk.tableRanges (x : OpBlk) : List (Nat × Nat) :=
  (x.stages.filter (fun g => g.kind = 0 && g.sel / 8 ≤ 1)).flatMap (fun g => (x.t g.addr).ranges)

end Sys2Proof.Machine
end

