-- ==== Sys2Proof/Machine/OpEval.lean ====
section
/-!
DEFINITION. What an operator of RUN_OP computes: matrix products (R316), whole rows (R317), convolution, pooling, upsampling and regrouping
(R333-R340), recurrent steps (R354-R360), attention (R382), the training operators (R417, R418), and the chain that follows (R319-R321,
R343). Reads go through `rd`; the writes are a list of addresses and bytes.
-/
namespace Sys2Proof.Machine

/-- A device read. -/
abbrev Rd := Nat → Nat → List Byte

/-- Row `i` of a tensor. -/
def Tensor.rowB (t : Tensor) (rd : Rd) (i : Nat) : List Byte := rd (t.addr + i * t.step) t.rowBytes
/-- The raw elements of row `i`. -/
def Tensor.raws (t : Tensor) (rd : Rd) (i : Nat) : List Nat :=
  let b := t.rowB rd i
  (List.range t.d0).map (elemAt t.fmt b)
/-- The values of row `i`. -/
def Tensor.vals (t : Tensor) (rd : Rd) (i : Nat) : List FV := (t.raws rd i).map (decodeFmt t.fmt)
/-- The values of every row. -/
def Tensor.mat (t : Tensor) (rd : Rd) : List (List FV) := (List.range t.rows).map (t.vals rd)
/-- Every byte of a tensor, rows in order. -/
def Tensor.bytes (t : Tensor) (rd : Rd) : List Byte := (List.range t.rows).flatMap (t.rowB rd)
/-- Bytes stored over a tensor's rows in order: addresses and bytes. -/
def Tensor.store (t : Tensor) (bs : List Byte) : List (Nat × List Byte) :=
  (List.range t.rows).filterMap (fun i =>
    let r := (bs.drop (i * t.rowBytes)).take t.rowBytes
    if r.isEmpty then none else some (t.addr + i * t.step, r))

/-- A partial function over a list with indexes from `i`. -/
def mapIdxM {α β : Type} (f : Nat → α → Option β) : Nat → List α → Option (List β)
  | _, [] => some []
  | i, a :: t => (f i a).bind (fun b => (mapIdxM f (i + 1) t).map (b :: ·))

/-! ### Stages at operator level -/

/-- The stages resolved: the tensor of stage `i` is read packed from the place (i + 1) × 2^48 of `stgRead`. -/
def OpBlk.resolve (x : OpBlk) (rd : Rd) (l : List Stage) : List Stg :=
  (List.range l.length).map (fun i =>
    let g := l.getD i ⟨0, 0, 0, 0, 0, 0, 0⟩
    { kind := g.kind, bcast := bitN g.side 1, fmt := g.fmt, sel := g.sel, base := (i + 1) * 2 ^ 48, stride := (x.place g).rowBytes,
      recs := g.arg0, arg0 := g.arg0, arg1 := g.arg1,
      curve := if g.kind = 2 then (let b := (x.t g.addr).bytes rd; (List.range 36).map (fun k => BitVec.ofNat 32 (leAt b (4 * k) 4))) else [] })

/-- A read of the stages' tensors, packed. -/
def stgRead (rd : Rd) (l : List Tensor) : Rd := fun a n =>
  match l[a / 2 ^ 48 - 1]? with
  | none => List.replicate n 0
  | some t =>
    let rb := Nat.max 1 t.rowBytes
    (List.range n).flatMap (fun j => let q := a % 2 ^ 48 + j; rd (t.addr + q / rb * t.step + q % rb) 1)

/-- An element after the final conversion: its bits, what it met, its exact scaled source; `skip` for one that bypasses the chain. -/
structure Elem where
  raw : Nat
  conv : Conv
  v : FV
  skip : Bool := false
  deriving DecidableEq, Repr

/-- The side of a chain that has no spatial stage, on rows of N values (R319-R321): `none` faults with DESC. -/
def chainRows (rdv : Rd) (N m0 : Nat) (l : List Stg) (rows : List (Option (List ChVal))) : Option (List (Option (List ChVal))) :=
  mapIdxM (fun m r => match r with
    | none => some none
    | some vs => (mapIdxM (fun n v => chainTo rdv N m n (l.filter (fun g => g.kind ≠ 8)) v) 0 vs).map some) m0 rows

/-- The final conversion (R321) of rows of N values into a format; `rnd` gives the stochastic value of the i-th element converted. -/
def finishRows (rdv : Rd) (N f : Nat) (rnd : Nat → Nat) (l : List Stg) (rows : List (Option (List ChVal))) : List (List Elem) :=
  (List.range rows.length).map (fun m => match rows.getD m none with
    | none => List.replicate N ⟨0, .ok, .fin false 0 0, true⟩
    | some vs =>
      let m0 := ((rows.take m).filter Option.isSome).length
      (List.range N).map (fun n =>
        let v := finalValue rdv l N m n (vs.getD n ⟨2, .nan⟩)
        let q := convert f (finalMode l) (rnd (m0 * N + n)) v
        ⟨q.1, q.2, v, false⟩))

/-- The stochastic values that a final conversion takes: one for each element that it converts (R287). -/
def randsUsed (N : Nat) (l : List Stg) (rows : List (Option (List ChVal))) : Nat :=
  if finalMode l = 1 then (rows.filter Option.isSome).length * N else 0

/-- How an operator runs: its slices, the slice of a batch, a row and a column, the stochastic value of a conversion (R287, R313). -/
structure Split where
  J : Nat
  cut : Nat → Nat → Nat → Nat
  rnd : Nat → Nat

/-- The same run after `n` stochastic conversions. -/
def Split.skip (p : Split) (n : Nat) : Split := { p with rnd := fun i => p.rnd (n + i) }

/-- The batch, the row and the column to which element (m, n) of a tensor belongs as its operator is cut. -/
abbrev Pos := Nat → Nat → Nat × Nat × Nat

/-- The slice of element (m, n). -/
def Split.at_ (p : Split) (pos : Pos) (m n : Nat) : Nat := (let c := pos m n; p.cut c.1 c.2.1 c.2.2)

/-- The records of the elements that a slice converts, in ascending index (R301). -/
def sliceRecords (inSlice : Nat → Nat → Bool) (N f grp : Nat) (rows : List (List Elem)) : List Stat :=
  (List.range rows.length).foldl (fun (a : List Stat) m =>
    (List.range N).foldl (fun (a : List Stat) n =>
      let e := (rows.getD m []).getD n ⟨0, .ok, .nan, true⟩
      if e.skip || !inSlice m n then a
      else (let j := grpIdx grp N m n; a.set j ((a.getD j {}).add e.v (decodeFmt f e.raw) e.conv))) a)
    (List.replicate (grpCount grp rows.length N) {})

/-- The statistics records of a chain (R301, R321): over several slices a per-tensor or per-channel record is the sum of the slices' own, in
ascending slice order. -/
def statRecords (p : Split) (pos : Pos) (N f : Nat) (l : List Stg) (rows : List (List Elem)) : List Byte :=
  match requantOf l with
  | none => []
  | some g =>
    let parts := if 1 < p.J ∧ g.grp ≤ 1 then (List.range p.J).map (fun i => sliceRecords (fun m n => p.at_ pos m n == i) N f g.grp rows)
      else [sliceRecords (fun _ _ => true) N f g.grp rows]
    (List.range (grpCount g.grp rows.length N)).flatMap (fun j =>
      match parts.map (fun r => r.getD j {}) with
      | [] => []
      | r :: t => (t.foldl Stat.join r).bytes)

/-- What an operator leaves: its stores, the bits of R314, the values of Y (for a link), the reason of R383, the stochastic values that it
took. -/
structure OpOut where
  writes : List (Nat × List Byte)
  bits : OpBits := {}
  y : List (List FV) := []
  rs : Nat := 0
  rands : Nat := 0

/-- The bits of R314 that final conversions set. -/
def elemBits (rows : List (List Elem)) : OpBits :=
  { accSat := false, sat := rows.any (fun r => r.any (fun e => e.conv == .sat)), nan := rows.any (fun r => r.any (fun e => e.conv == .nan)) }

/-- The stores of a chain's statistics records. -/
def OpBlk.recWrites (x : OpBlk) (p : Split) (pos : Pos) (N f : Nat) (src : List Stage) (l : List Stg) (rows : List (List Elem)) : List (Nat × List Byte) :=
  match src.find? Stage.stat with
  | none => []
  | some g => (x.t g.arg0).store (statRecords p pos N f l rows)

/-- Operand A with its prologue (R319): its values, the record stores, the stochastic values that it took; `none` faults with DESC. An element
counts once in the records, in the slice that `pos` gives (DESIGN CHOICE, log 3). -/
def OpBlk.operandA (x : OpBlk) (rd : Rd) (p : Split) (pos : Pos) (f : Nat) (rows : List (List FV)) :
    Option (List (List FV) × List (Nat × List Byte) × Nat) :=
  if x.pro.isEmpty then some (rows, [], 0)
  else
    let l := x.resolve rd x.pro
    let rdv := stgRead rd (x.pro.map x.place)
    let N := (rows.headD []).length
    let start := rows.map (fun r => some (r.map (fun v => (⟨if fmtInt f then 0 else 2, v⟩ : ChVal))))
    (chainRows rdv N 0 l start).map (fun out =>
      let e := finishRows rdv N f p.rnd l out
      (e.map (fun r => r.map (fun z => decodeFmt f z.raw)), x.recWrites p pos N f x.pro l e, randsUsed N l out))

/-- The spatial stage on a whole tensor (R343). -/
def spatialRows (g : Stage) (geo : Geo) (rows : List (Option (List ChVal))) : List (Option (List ChVal)) :=
  let px := fun b (y xx ch : Nat) => (((rows.getD ((b * geo.h + y) * geo.w + xx) none).getD []).getD ch ⟨2, .nan⟩).fp
  let w := g.win geo.h geo.w geo.c
  let mode := bits g.arg0 0 8
  let fy := bits g.arg0 8 8
  let fx := bits g.arg0 16 8
  let oh := if g.kind = 7 then w.oh else geo.h * fy
  let ow := if g.kind = 7 then w.ow else geo.w * fx
  (List.range (geo.b * oh * ow)).map (fun p =>
    let b := p / (oh * ow)
    let y := p / ow % oh
    let xx := p % ow
    some ((List.range geo.c).map (fun ch => (⟨2,
      if g.kind = 7 then w.pool (mode ≠ 0) (px b) y xx ch else upsample (mode = 1) fy fx geo.h geo.w (px b) y xx ch⟩ : ChVal))))

/-- The epilogue, the final conversion and the stores of Y (R319-R321, R343). `yf` is Y's format; `link` keeps Y in LM (R324); `pos` says how the
operator is cut. -/
def OpBlk.tail (x : OpBlk) (rd : Rd) (p : Split) (pos : Pos) (geo : Geo) (yf : Nat) (link : Bool)
    (rows : List (Option (List ChVal))) (sat : Bool) (extra : List (Nat × List Byte)) : Option OpOut :=
  let sp := splitSpatial x.epi
  let pre := x.resolve rd sp.1
  let post := x.resolve rd sp.2.2
  (chainRows (stgRead rd (sp.1.map x.place)) geo.c 0 pre rows).bind (fun r1 =>
    let r2 := match sp.2.1 with | some g => spatialRows g geo r1 | none => r1
    let last := if sp.2.1.isSome then post else pre
    let src := if sp.2.1.isSome then sp.2.2 else sp.1
    let rdv := stgRead rd (src.map x.place)
    ((if sp.2.1.isSome then chainRows rdv geo.c 0 post r2 else some r2)).map (fun r3 =>
      let e := finishRows rdv geo.c yf p.rnd last r3
      let bytes := e.flatMap (fun r => packElems yf (r.map (·.raw)))
      { writes := extra ++ x.recWrites p pos geo.c yf src last e ++ (if link then [] else (x.t x.yIdx).store bytes),
        bits := { elemBits e with accSat := sat }, y := e.map (fun r => r.map (fun z => decodeFmt yf z.raw)),
        rands := randsUsed geo.c last r3 }))

/-! ### Products -/

/-- A group scale, converted to FP16 by nearest-even when it is FP32 (R316). -/
def scale16 (v : FV) : FV := decodeFmt 8 (convert 8 0 0 v).1

/-- The value of an accumulator word in the chain (R320). -/
def accVal (dom : Nat) (w : W32) : ChVal := if dom = 0 then ⟨0, ofI (sgn 32 w.toNat)⟩ else ⟨2, f32 w.toNat⟩

/-- The products of a matrix operator (R316): rows by batch and M. -/
def OpBlk.matRows (x : OpBlk) (rd : Rd) (geo : Geo) (fa : Nat) (a : List (List FV)) : List (List (W32 × Bool)) :=
  let g := grpSize (x.a 0 1)
  let f := x.a 1 1
  let kn := bitN f 0
  let b := (x.t 1).mat rd
  let sa := if g = 0 then [] else (x.t 3).mat rd
  let sb := if g = 0 then [] else (x.t 4).mat rd
  (List.range geo.b).flatMap (fun i =>
    let ia := if bitN f 1 then 0 else i
    let ib := if bitN f 2 then 0 else i
    let col := fun n => if kn then (List.range geo.k).map (fun k => (b.getD (ib * geo.k + k) []).getD n .nan) else b.getD (ib * geo.c + n) []
    (List.range geo.w).map (fun m => (List.range geo.c).map (fun n =>
      accWord (fmtFloat fa) g true 0 (a.getD (ia * geo.w + m) []) (col n)
        ((sa.getD (ia * geo.w + m) []).map scale16) ((sb.getD (ib * geo.c + n) []).map scale16))))

/-- The products of a convolution (R333-R336): rows by batch, output row and output column; `a` the pixels of X. -/
def OpBlk.convRows (x : OpBlk) (rd : Rd) (geo : Geo) (a : List (List FV)) : List (List (W32 × Bool)) :=
  let tx := x.t 0
  let e := x.act tx
  let ih := e.2.2.1
  let iw := x.inCols
  let g := grpSize (x.a 0 1)
  let w := x.win ih iw e.1 geo.c tx.fmt
  let wt := (x.t 1).mat rd
  let sa := if g = 0 then [] else (x.t 3).mat rd
  let sb := if g = 0 then [] else (x.t 4).mat rd
  (List.range geo.b).flatMap (fun b =>
    let px := fun (y xx ch : Nat) =>
      let p := if x.ring then b * tx.d1 + (x.a 24 4 + xx) % tx.d1 else (b * ih + y) * iw + xx
      (a.getD p []).getD ch .nan
    let wv := fun (oc k : Nat) => (wt.getD (oc * (w.kh * w.kw) + k / w.icg) []).getD (k % w.icg) .nan
    let sav := fun (y xx i : Nat) => scale16 ((sa.getD ((b * ih + y) * iw + xx) []).getD i .nan)
    let sbv := fun (oc i : Nat) => scale16 ((sb.getD oc []).getD i .nan)
    (List.range (geo.h * geo.w)).map (fun p => (List.range geo.c).map (fun oc =>
      w.conv (fmtFloat tx.fmt) g true 0 px wv sav sbv (p / geo.w) (p % geo.w) oc)))

/-! ### Other bodies -/

/-- Pooling and upsampling (R338, R339): rows by batch, row and column. -/
def OpBlk.poolRows (x : OpBlk) (rd : Rd) (geo : Geo) : List (List FV) :=
  let tx := x.t 0
  let e := x.act tx
  let a := tx.mat rd
  let w := x.win e.2.2.1 e.2.1 e.1 e.1 tx.fmt
  let up := 0x0220 ≤ x.id
  (List.range geo.b).flatMap (fun b =>
    let px := fun (y xx ch : Nat) => rnd32 ((a.getD ((b * e.2.2.1 + y) * e.2.1 + xx) []).getD ch .nan)
    (List.range (geo.h * geo.w)).map (fun p => (List.range geo.c).map (fun ch =>
      if up then upsample (x.a 0 1 = 1) (x.a 1 1) (x.a 2 1) e.2.2.1 e.2.1 px (p / geo.w) (p % geo.w) ch
      else w.pool (x.a 0 1 = 1) px (p / geo.w) (p % geo.w) ch)))

/-- SOFTMAX of a row (R317). -/
def softmaxRow (v : List FV) : List FV :=
  let m := v.foldl fmax (.inf true)
  if v.any (· == .nan) then v.map (fun _ => .nan)
  else if m = .inf true then v.map (fun _ => .fin false 0 0)
  else
    let e := v.map (fun t => exp32 (sub32 t m))
    let s := sumUp e
    e.map (fun t => div32 t s)

/-- LAYER_NORM of a row (R317). -/
def layerNormRow (eps : FV) (gamma beta : Option (List FV)) (v : List FV) : List FV :=
  let n := ofI (Int.ofNat v.length)
  let mean := div32 (sumUp v) n
  let d := v.map (fun t => sub32 t mean)
  let den := sqrt32 (add32 (div32 (sumUp (d.map (fun t => mul32 t t))) n) eps)
  (List.range v.length).map (fun i =>
    let y := div32 (d.getD i .nan) den
    let y := match gamma with | some g => mul32 y (rnd32 (g.getD i .nan)) | none => y
    match beta with | some b => add32 y (rnd32 (b.getD i .nan)) | none => y)

/-- RMS_NORM of a row (R317). -/
def rmsNormRow (eps : FV) (gamma : Option (List FV)) (v : List FV) : List FV :=
  let den := sqrt32 (add32 (div32 (sumUp (v.map (fun t => mul32 t t))) (ofI (Int.ofNat v.length))) eps)
  (List.range v.length).map (fun i =>
    let y := div32 (v.getD i .nan) den
    match gamma with | some g => mul32 y (rnd32 (g.getD i .nan)) | none => y)

/-- Does element (i, a) come before (j, b) in TOPK: larger first, then the lower index, a NaN last (R317)? -/
def topBefore (p q : Nat × FV) : Bool :=
  if p.2 = .nan then q.2 == .nan && decide (p.1 ≤ q.1)
  else if q.2 = .nan then true
  else fltX q.2 p.2 || (!fltX p.2 q.2 && decide (p.1 ≤ q.1))

/-- The indexes of the k largest elements of a row (R317). -/
def topIdx (k : Nat) (v : List FV) : List Nat :=
  ((sortBy topBefore ((List.range v.length).map (fun i => (i, v.getD i .nan)))).map (·.1)).take k

/-- TOPK (R317). -/
def OpBlk.topk (x : OpBlk) (rd : Rd) : OpOut :=
  let tx := x.t 0
  let rows := (List.range tx.rows).map (fun i => (tx.raws rd i, topIdx (x.a 0 2) (tx.vals rd i)))
  { writes := (x.t 1).store (rows.flatMap (fun r => packElems tx.fmt (r.2.map (fun i => r.1.getD i 0)))) ++
      (x.t 2).store (rows.flatMap (fun r => r.2.flatMap (toLe 4))) }

/-- SPACE_TO_DEPTH and DEPTH_TO_SPACE (R340). -/
def OpBlk.regroupOut (x : OpBlk) (rd : Rd) : OpOut :=
  let tx := x.t 0
  let e := x.act tx
  let f := x.a 0 1
  let o := x.regrouped.getD (0, 0, 0)
  let a := (List.range tx.rows).map (tx.raws rd)
  { writes := (x.t 1).store ((List.range (e.2.2.2 * o.1 * o.2.1)).flatMap (fun p =>
      let b := p / (o.1 * o.2.1)
      packElems tx.fmt ((List.range o.2.2).map (fun ch =>
        let q := regroup (x.id = 0x0231) x.oneD f e.1 (p / o.2.1 % o.1) (p % o.2.1) ch
        (a.getD ((b * e.2.2.1 + q.1) * e.2.1 + q.2.1) []).getD q.2.2 0)))) }

/-- Is the curve table in 144 bytes legal (Table 14.1)? -/
def curveOk (b : List Byte) : Bool :=
  match f32 (leAt b 0 4), f32 (leAt b 4 4) with
  | .fin n1 m1 e1, .fin n2 m2 e2 => fltX (.fin n1 m1 e1) (.fin n2 m2 e2)
  | _, _ => false

/-- The recurrent operators (R354-R360) on a record of the bytes `bs`: Y and the record with STEPS_DONE; `none` where the record's header
disagrees or a table breaks Table 14.1 (R350, R358). -/
def OpBlk.recurOut (x : OpBlk) (rd : Rd) (bs : List Byte) : Option OpOut :=
  let scan := x.id = 0x0302
  let tx := x.t 0
  let n := tx.d2
  let T := tx.d1
  let q := x.a 0 1 = 1
  let sN := (x.t 2).d0
  let h := if scan then tx.d0 else (x.t 1).d1
  let depth := if scan then sN else if x.id = 0x0300 then 2 else 1
  let rec_ := x.t x.recIdx
  let ty := x.t (if scan then 7 else 5)
  let head := slice bs 0 64
  let tab := fun i => slice ((x.t i).bytes rd) 0 144
  let words := fun i => (List.range 36).map (fun k => BitVec.ofNat 32 (leAt (tab i) (4 * k) 4))
  if !recordOk head (x.id - 0x0300) (at_ q 0) n h depth || (!scan && !(curveOk (tab 6) && curveOk (tab 7))) then none
  else
    let xs := tx.mat rd
    let mask := if x.has 8 then (List.range n).map ((x.t 8).raws rd) else []
    let per := h * depth
    let wm := (x.t 1).mat rd
    let t2 := (x.t 2).mat rd
    let t3 := (x.t 3).mat rd
    let am := if scan then (x.t 4).mat rd else []
    let sk := if scan then (x.t 5).vals rd 0 else []
    let ws := if scan then [] else words 6
    let wt := if scan then [] else words 7
    let kc : Cell := ⟨x.id = 0x0301, tx.fmt, (x.t 1).fmt, tx.d0, h, q, f32 (x.a 4 4), ws, wt⟩
    let step := fun (r t : Nat) (st : List FV) =>
      let st := if ((mask.getD r []).getD t 0) % 2 = 1 then List.replicate per (.fin false 0 0) else st
      let row := r * T + t
      let v := fun (l : List (List FV)) i => (l.getD row []).getD i .nan
      if scan then
        let o := scanStep q h sN (fun i j => (am.getD i []).getD j .nan) (fun i => sk.getD i .nan) (v xs) (v wm) (v t2) (v t3) st
        (o.1, o.2.1, o.2.2)
      else
        let o := kc.step (fun g j i => (wm.getD (g * h + j) []).getD i .nan) (fun g j => (t2.getD g []).getD j .nan)
          (fun g j => (t3.getD g []).getD j .nan) (xs.getD row []) st
        (o.1, o.1.take h, o.2)
    let rows := (List.range n).map (fun r =>
      let st0 := (List.range per).map (fun i => stateVal q (leAt bs (64 + 4 * (r * per + i)) 4))
      (List.range T).foldl (fun (a : List FV × List (List FV) × OpBits) t =>
        let o := step r t a.1
        (o.1, a.2.1 ++ [o.2.1], a.2.2.or o.2.2)) (st0, [], {}))
    let ys := f32 (x.a 8 4)
    let conv := rows.map (fun r => r.2.1.map (fun y => y.map (fun v => convert ty.fmt 0 0 (fmulX v ys))))
    let bits := (rows.map (·.2.2)).foldl OpBits.or {}
    let fin := conv.flatten.flatten.foldl (fun (b : OpBits) k => b.or (convBits k.2)) bits
    let head2 := slice head 0 24 ++ toLe 8 (leAt head 24 8 + T) ++ List.replicate 32 0
    some { writes := ty.store (conv.flatMap (fun r => r.flatMap (fun y => packElems ty.fmt (y.map (·.1))))) ++
             rec_.store (head2 ++ rows.flatMap (fun r => r.1.flatMap (fun v => toLe 4 (stateBits q v))) ),
           bits := fin }

/-- ADAM_STEP (R304, R305, R418) on the tensors g (group-scaled FP8-E5M2), w (FP32), m (group-scaled INT8) and v (FP8-E4M3, one scale), in
that order (DESIGN CHOICE, log 18). The spec gives no field for LR, the step number, G and the rounding: free values of the attributes. -/
def OpBlk.adamOut (x : OpBlk) (rd : Rd) : OpOut :=
  let tw := x.t 1
  let n := tw.count
  let G := x.trainG
  let mode := x.trainA 1 % 2
  let word := fun o => leNat ((List.range 4).map (fun i => BitVec.ofNat 8 (x.trainA (o + i))))
  let g := gsVals 7 G n ((x.t 0).bytes rd)
  let m := gsVals 1 G n ((x.t 2).bytes rd)
  let v := gsVals 6 0 n ((x.t 3).bytes rd)
  let w := (tw.mat rd).flatten
  let r := fun (c i : Nat) => x.trainA (16 + 4 * i + 2 * c) + 256 * x.trainA (17 + 4 * i + 2 * c)
  let o := (List.range n).map (fun i => adamElem (f32 (word 2)) (1 + word 6) (g.getD i .nan) (w.getD i .nan) (m.getD i .nan) (v.getD i .nan))
  let mb := gsBytes 1 127 mode G (r 0) (o.map (·.2.1))
  let vb := gsBytes 6 448 mode 0 (r 1) (o.map (·.2.2))
  { writes := tw.store (o.flatMap (fun e => toLe 4 (bits32 e.1))) ++ [((x.t 2).addr, mb.1), ((x.t 3).addr, vb.1)], bits := mb.2.or vb.2 }

/-- FP32 values into tensor `i`, with what their conversion met. -/
def OpBlk.put32 (x : OpBlk) (i : Nat) (l : List FV) : OpOut :=
  let e := l.map (convert 0xA 0 0)
  { writes := (x.t i).store (e.flatMap (fun k => toLe 4 k.1)), bits := e.foldl (fun b k => b.or (convBits k.2)) {} }

/-- Two outputs of one operator. -/
def OpOut.and_ (a b : OpOut) : OpOut := { a with writes := a.writes ++ b.writes, bits := a.bits.or b.bits }

/-- DENSE_BWD and LOSS_ESR (R417, Table 17.3). -/
def OpBlk.lossOut (x : OpBlk) (rd : Rd) : OpOut :=
  let flat := fun i => ((x.t i).mat rd).flatten
  if x.id = 0x0501 then
    let hs := (x.t 0).mat rd
    let wo := flat 2
    let g := flat 3
    (((x.put32 4 (denseGrad (x.t 0).d0 hs g)).and_ (x.put32 5 [sumUp g])).and_
      (x.put32 6 (g.flatMap (fun e => wo.map (fun w => mul32 e w))))).and_ (x.put32 7 g)
  else (x.put32 2 [esr (flat 0) (flat 1)]).and_ (x.put32 3 (esrGrad (flat 0) (flat 1)))

/-- RNN_BWD (Table 17.3): the cell is that of the STATE record (R358); the forward run gives the bit of R314 for INT32 accumulations; the gradients
are FP32 sums of terms that the spec does not give, that of X a term itself (free values, log 3). `none` where the record disagrees. -/
def OpBlk.rnnBwd (x : OpBlk) (rd : Rd) : Option OpOut :=
  let ins := ((List.range x.nt).filter (fun i => !x.outIdx.contains i)).flatMap (fun i => (x.t i).bytes rd)
  let cell := leAt ((x.t 4).rowB rd 0) 4 1
  let n := (x.t 0).d2
  let T := (x.t 0).d1
  if 1 < cell then none
  else (({ x with id := 0x0300 + cell } : OpBlk).recurOut rd ((x.t 4).bytes rd)).map (fun f =>
    let wN := (x.t 9).count
    let o := ((x.put32 9 ((List.range wN).map (cellGrad ins n T))).and_
        (x.put32 10 ((List.range (x.t 10).count).map (fun i => cellGrad ins n T (wN + i))))).and_
      (x.put32 11 ((List.range (x.t 11).count).map (fun i => f32 (Config.gradTerm ins (wN + (x.t 10).count + i) 0 0).toNat)))
    { o with bits := { o.bits with accSat := f.bits.accSat } })

/-- The training operators (R417, R418, Table 17.3). -/
def OpBlk.trainOut (x : OpBlk) (rd : Rd) : Option OpOut :=
  if x.id = 0x0500 then x.rnnBwd rd else some (if x.id = 0x0503 then x.adamOut rd else x.lossOut rd)

/-! ### One block -/

/-- How operand A is cut: by batches and rows (R313, R337). -/
def OpBlk.posA (x : OpBlk) (geo : Geo) : Pos := fun m _ =>
  if x.mat then (m / geo.w, m % geo.w, 0)
  else (let e := x.act (x.t 0); (m / (e.2.2.1 * x.inCols), m / x.inCols % e.2.2.1, 0))

/-- How the output is cut: a matrix by batches, rows and columns, a window operator by batches, output rows and channels, a whole-row operator by
rows (R313, R337). -/
def OpBlk.posY (x : OpBlk) (geo : Geo) : Pos := fun m n =>
  if x.mat then (m / geo.w, m % geo.w, n)
  else if geo.slide then (let o := geo.after x.epi; (m / (o.1 * o.2), m / o.2 % o.1, n))
  else (0, m, 0)

/-- What a block but ATTENTION leaves: `lk` the intermediate of the first of two linked operators, `link` that Y stays in LM, `st` the STATE
record as it was at the operator's start (R360). `none` faults with DESC. -/
def OpBlk.eval (x : OpBlk) (rd : Rd) (st : List Byte) (p : Split) (lk : Option (Nat × List (List FV))) (link : Option Nat) : Option OpOut :=
  let l : Link := lk.map (fun v => (v.2.length, (v.2.headD []).length, v.1))
  match x.geo l with
  | some geo =>
    let yf := link.getD (x.t x.yIdx).fmt
    let some_ := fun (r : List (List ChVal)) => r.map some
    if x.id = 0x0113 then some (x.topk rd)
    else if x.mat ∨ x.conv then
      let fa := (lk.map (·.1)).getD (x.t 0).fmt
      let a0 := match lk with | some v => v.2 | none => (x.t 0).mat rd
      (x.operandA rd p (x.posA geo) fa a0).bind (fun a =>
        let r := if x.mat then x.matRows rd geo fa a.1 else x.convRows rd geo a.1
        (x.tail rd (p.skip a.2.2) (x.posY geo) geo yf link.isSome (some_ (r.map (fun v => v.map (fun e => accVal geo.dom e.1))))
          (r.any (fun v => v.any (·.2))) a.2.1).map (fun o => { o with rands := a.2.2 + o.rands }))
    else
      let vec := fun i => if x.has i then some ((x.t i).vals rd 0) else none
      let eps := f32 (x.a 0 4)
      let body := if x.poolUp then x.poolRows rd geo
        else ((x.t 0).mat rd).map (fun v =>
          if x.id = 0x0110 then softmaxRow v else if x.id = 0x0111 then layerNormRow eps (vec 2) (vec 3) v else rmsNormRow eps (vec 2) v)
      x.tail rd p (x.posY geo) geo yf false (some_ (body.map (fun v => v.map (fun e => (⟨2, e⟩ : ChVal))))) false []
  | none =>
    if x.recur then x.recurOut rd st
    else if x.train then x.trainOut rd
    else some (x.regroupOut rd)

/-! ### Attention (R381-R383) -/

/-- The K and V rows of position `p` of head `h` in the page that a row holds for its block; NaNs where it holds none. -/
def kvRows (s : State) (p : Pool) (r : OpRow) (h pos : Nat) : List FV × List FV :=
  let g := r.pages.getD (pos / 64 * p.hkv + h) 65536
  let rb := p.d * kvElem p.fmt
  if g ≥ 65536 then ([], [])
  else
    let a := p.base + g * p.pb + pos % 64 * rb
    let dec := fun b => (List.range p.d).map (fun i => decodeFmt p.fmt (elemAt p.fmt b i))
    (dec (s.devRead a rb), dec (s.devRead (a + 64 * rb) rb))

/-- Does token `t` of the `q` tokens of a row see position `j` (R382)? -/
def OpBlk.attnSees (x : OpBlk) (r : OpRow) (q t j : Nat) : Bool :=
  let fl := x.a 2 1
  let pos : Int := if bitN fl 1 then Int.ofNat (r.base + t) else Int.ofNat r.vis - Int.ofNat q + Int.ofNat t
  !bitN fl 0 || decide (Int.ofNat j ≤ pos)

/-- The page loop of R382 for row `r`, token `t` of `q`, query head `hq`, over the blocks that `mine` selects. -/
def OpBlk.attnLoop (x : OpBlk) (s : State) (rd : Rd) (p : Pool) (r : OpRow) (q row t hq : Nat) (mine : Nat → Bool) : Attn :=
  let tq := x.t 0
  let h := hq * p.hkv / tq.d1
  let scl := fun i => if (x.t i).rank = 0 then (.fin false 1 0 : FV) else ((x.t i).vals rd 0).getD h .nan
  let qv := tq.vals rd ((row * tq.d2 + t) * tq.d1 + hq)
  ((List.range (ceilDiv r.vis 64)).filter mine).foldl (fun (a : Attn) b =>
    let vis := (List.range (Nat.min 64 (r.vis - 64 * b))).filter (fun j => x.attnSees r q t (64 * b + j))
    a.page p.d qv (mul32 (f32 (x.a 4 4)) (scl 7)) (scl 8) (vis.map (fun j => kvRows s p r h (64 * b + j)))) {}

/-- The share indices of a spread pool that node `n` holds (R385). -/
def Pool.sharesOf (p : Pool) (n : Nat) : List Nat := (List.range p.nodes.length).filter (fun k => (p.nodes.getD k 0xFF).toNat == n)

/-- The blocks of share `k` (R385): every one when the pool is spread by head. -/
def Pool.inShare (p : Pool) (k b : Nat) : Bool := p.spread ≠ 2 || b % p.nodes.length == k

/-- One output vector of ATTENTION (R382, R385): row `r`, token `t` of `q`, query head `hq`; `far k` the partial values of share `k` where another
part holds it. By head the share of the head gives them; by position they are merged in ascending share index. -/
def OpBlk.attnVec (x : OpBlk) (s : State) (rd : Rd) (p : Pool) (r : OpRow) (q row t hq : Nat) (far : Nat → Attn) : List FV :=
  let sees := x.attnSees r q t
  let any := (List.range r.vis).any sees
  let part := fun k => if (p.sharesOf s.node).contains k then x.attnLoop s rd p r q row t hq (p.inShare k) else far k
  if p.spread = 0 then (x.attnLoop s rd p r q row t hq (fun _ => true)).out p.d any
  else if p.spread = 1 then (part (hq * p.hkv / (x.t 0).d1 % p.nodes.length)).out p.d any
  else
    let ks := (List.range p.nodes.length).filter (fun k => (List.range r.vis).any (fun j => sees j && p.inShare k (j / 64)))
    (ks.foldl (fun a k => a.merge p.d (part k)) ({} : Attn)).out p.d any

/-- The partial values of the shares that this part holds (R385), for each vector of the operator. -/
def OpBlk.attnParts (x : OpBlk) (s : State) (rd : Rd) (p : Pool) (rows : List OpRow) : List Byte :=
  let tq := x.t 0
  let qlens := (x.t 5).raws rd 0
  (p.sharesOf s.node).flatMap (fun k => (List.range (tq.d1 * tq.d2 * tq.d3)).flatMap (fun m =>
    let row := m / (tq.d2 * tq.d1)
    let t := m / tq.d1 % tq.d2
    let r := rows.getD row ⟨rsBadHandle, 0, 0, []⟩
    let q := qlens.getD row 0
    let mine : Bool := p.spread = 2 || m % tq.d1 * p.hkv / tq.d1 % p.nodes.length == k
    (if r.status = 0 ∧ t < q ∧ mine then x.attnLoop s rd p r q row t (m % tq.d1) (p.inShare k) else {}).bytes p.d))

/-- The partial values of share `k` for vector `m` as another part has sent them (R385). -/
def OpBlk.attnFar (x : OpBlk) (p : Pool) (l : List Share) (m k : Nat) : Attn :=
  let tq := x.t 0
  let n := (p.nodes.getD k 0xFF).toNat
  match l.find? (fun e => e.node == n) with
  | some e => Attn.ofBytes p.d ((e.ans.map (·.2)).getD []) ((((p.sharesOf n).idxOf k) * (tq.d1 * tq.d2 * tq.d3) + m) * (8 + 4 * p.d))
  | none => {}

/-- ATTENTION's outputs (R381-R383): Y through the chain, padding and failed rows zero, and STATUS. -/
def OpBlk.attnOut (x : OpBlk) (s : State) (rd : Rd) (p : Pool) (rows : List OpRow) (far : List Share) (sp : Split) : Option OpOut :=
  let tq := x.t 0
  let qlens := (x.t 5).raws rd 0
  match x.attnGeo with
  | none => none
  | some geo =>
    let body := (List.range geo.w).map (fun m =>
      let row := m / (tq.d2 * tq.d1)
      let t := m / tq.d1 % tq.d2
      let r := rows.getD row ⟨rsBadHandle, 0, 0, []⟩
      let q := qlens.getD row 0
      if r.status = 0 ∧ t < q then some ((x.attnVec s rd p r q row t (m % tq.d1) (x.attnFar p far m)).map (fun v => (⟨2, v⟩ : ChVal))) else none)
    let status := (x.t 6).store (rows.flatMap (fun r => toLe 4 r.status))
    let rs := if rows.any (fun r => r.status = rsKvNoPage) then rsKvNoPage else if rows.any (fun r => r.status ≠ 0) then rsBadParam else 0
    (x.tail rd sp (fun m _ => (m / (tq.d2 * tq.d1), 0, m % tq.d1 * p.hkv / tq.d1)) geo (x.t 3).fmt false body false []).map (fun o =>
      { o with
          writes := o.writes ++ status, rs := rs })

end Sys2Proof.Machine
end

