-- ==== Sys2Proof/Machine/RunOp.lean ====
section
/-!
DEFINITION. RUN_OP (R311-R315, R324), the start of an ATTENTION operator with its pins and appends (R375-R379, R381), RUN_PROGRAM (R235),
and END, which ends a job of any kind (R237, R313, R314, R221, R394).
-/
namespace Sys2Proof.Machine

/-! ### The checks of RUN_OP -/

/-- The checks of an ATTENTION block against its pool (R380, R398). -/
def State.attnRefusal (s : State) (c : Cmd) (x : OpBlk) : Option Nat :=
  if x.id ≠ 0x0400 then none
  else match s.poolFor c.tenant (x.a 0 2) with
    | none => some rsBadHandle
    | some p => if !x.attnPoolOk p || (c.epoch.isSome && p.spread ≠ 0 && bitN (x.a 2 1) 1) then some rsBadParam else none

/-- Does every table-mode DEQUANT of a block meet an entry that is legal for its value (R297, R319)? -/
def OpBlk.tablesOk (x : OpBlk) (rd : Rd) (lk : Link) : Bool :=
  match x.geo lk with
  | none => true
  | some g =>
    let f := fun (l : List Stage) (dom N : Nat) =>
      !l.any (fun s => s.kind = 0 && s.sel / 8 ≤ 1) ||
      (let st := (x.resolve rd l).filter (fun s => s.kind ≠ 8)
       (List.range N).all (fun n => (chainTo (stgRead rd (l.map x.place)) N 0 n st ⟨dom, .fin false 0 0⟩).isSome))
    let p := splitSpatial x.epi
    let fa := match lk with | some l => l.2.2 | none => (x.t 0).fmt
    f x.pro (if fmtInt fa then 0 else 2) g.k && f p.1 g.dom g.c && f p.2.2 2 g.c

/-- The blocks of a command, each with the link operand it takes. -/
def opLinks (b : List Byte) : List (OpBlk × Link) :=
  match opBlocks b with
  | [x, y] => [(x, none), (y, linkOf b x)]
  | l => l.map (fun x => (x, none))

/-- The checks of RUN_OP in their order (R312, R380, R30); rescale tables are read where the tenant's windows let the part read them (DEDUCED,
log 40). -/
def checkRunOp (s : State) (c : Cmd) : Option Nat :=
  let l := opLinks c.params
  if !opBlocksOk c.params then some rsBadParam
  else match l.findSome? (fun e => s.attnRefusal c e.1) with
    | some rs => some rs
    | none =>
      if l.any (fun e => e.1.tableRanges.all (s.paramOk c.tenant 0) && !e.1.tablesOk s.devRead e.2) then some rsBadParam
      else if l.any (fun e => !e.1.inRanges.all (s.paramOk c.tenant 0) || !e.1.outRanges.all (s.paramOk c.tenant 1)) then some rsMemWindow
      else if s.noCore c.tenant then some rsDieUnavailable
      else none

/-! ### The start of an ATTENTION operator -/

/-- The pages through which a row reads `vis` positions of sequence `q` (R376). -/
def State.rowPages (s : State) (p : Pool) (q vis : Nat) : List Nat :=
  let lb := s.seqLen p q / 64
  (List.range (ceilDiv vis 64 * p.hkv)).map (fun i =>
    let b := i / p.hkv
    let h := i % p.hkv
    let tt := if lb ≤ b ∧ b < lb + 2 then kvPage (s.kvR (p.tt q (b - lb) h) 4) else none
    let pt := if b < p.maxBlocks then kvPage (s.kvR (p.pt q b h) 4) else none
    match tt with
    | some g => g
    | none => pt.getD 65536)

/-- The entry that an append in block `b` of head `h` uses: tentative in an epoch (R375, R377). -/
def State.appEnt (s : State) (p : Pool) (q : Nat) (spec : Bool) (b h : Nat) : Nat :=
  if spec then p.tt q (b - s.seqLen p q / 64) h else p.pt q b h

/-- The (block, head) pairs for which an append of `n` positions from `base` takes a new page (R375, R377). -/
def State.appNeeds (s : State) (p : Pool) (q : Nat) (spec : Bool) (base n : Nat) : List (Nat × Nat) :=
  if n = 0 then [] else
  (List.range ((base + n - 1) / 64 - base / 64 + 1)).flatMap (fun i => (List.range p.hkv).filterMap (fun h =>
    let b := base / 64 + i
    let off := Nat.max base (64 * b) % 64
    let g := kvPage (s.kvR (s.appEnt p q spec b h) 4)
    let inPlace : Bool := match g with
      | none => false
      | some g => spec || (off ≠ 0 && s.kvR (p.ent g + 4) 2 == 1 && s.kvR (p.ent g + 9) 1 == off)
    if !s.kvLocal p b h || inPlace then none else some (b, h)))

/-- The epoch that a reclaim aborts (R379): the lowest number, not the requester's, with TENTATIVE pages in the pool. -/
def State.reclaimable (s : State) (h : Nat) (p : Pool) (own : Option Nat) : Option Nat :=
  ((s.epochs.filter (fun e => some e.1 ≠ own && (e.2.st == .opened || e.2.st == .sealing || e.2.st == .aborting) &&
      e.2.seqs.any (fun q => q.1 = h && s.seqTlen p q.2 ≠ 0))).foldl (fun (o : Option (Nat × W32)) e => match o with
    | none => some (e.1, e.2.number)
    | some g => if e.2.number.toNat < g.2.toNat then some (e.1, e.2.number) else some g) none).map (·.1)

/-- The reclaim (R379): the epoch aborts with cause KV_RECLAIM and its pages are released. -/
def State.reclaim (e : Nat) (s : State) : State :=
  let s1 := (s.abortEpoch e 5).kvAbort (s.epoch e).seqs
  s1.modEpoch e (fun x => { x with seqs := [] })

/-- A page for an append, after as many reclaims as it takes (R379). -/
def State.kvTake (hd : Nat) (p : Pool) (own : Option Nat) (st ep head : Nat) : Nat → State → Option Nat × State
  | 0, s => (none, s)
  | n + 1, s => match s.kvAlloc p st head ep with
    | some r => (some r.1, r.2)
    | none => match s.reclaimable hd p own with
      | none => (none, s)
      | some e => State.kvTake hd p own st ep head n (s.reclaim e)

/-- Every page of a row, or none of them: those already taken go back to the free list (R379). -/
def State.kvTakeAll (hd : Nat) (p : Pool) (own : Option Nat) (st ep : Nat) :
    List (Nat × Nat) → List (Nat × Nat × Nat) → State → Option (List (Nat × Nat × Nat)) × State
  | [], got, s => (some got, s)
  | (b, h) :: t, got, s => match s.kvTake hd p own st ep h 65 with
    | (some g, s1) => State.kvTakeAll hd p own st ep t (got ++ [(b, h, g)]) s1
    | (none, s1) => (none, got.reverse.foldl (fun s e => s.kvPush p e.2.2) s1)

/-- Positions 0 … n−1 of a page copied to another: K rows, then V rows. -/
def State.kvCopy (p : Pool) (src dst n : Nat) (s : State) : State :=
  let rb := p.d * kvElem p.fmt
  let a := p.base + src * p.pb
  let b := p.base + dst * p.pb
  (s.devWrite b (s.devRead a (n * rb))).devWrite (b + 64 * rb) (s.devRead (a + 64 * rb) (n * rb))

/-- A taken page put in its place (R375, R377): copied positions, the entry, the old page released. -/
def State.kvPlace (p : Pool) (q : Nat) (spec : Bool) (base : Nat) (e : Nat × Nat × Nat) (s : State) : State :=
  let b := e.1
  let h := e.2.1
  let g := e.2.2
  let len := s.seqLen p q
  let off := if spec then Nat.min 64 (len - 64 * b) else Nat.max base (64 * b) % 64
  let old := if b < p.maxBlocks then kvPage (s.kvR (p.pt q b h) 4) else none
  let s1 := match old with
    | some o => if off ≠ 0 then s.kvCopy p o g off else s
    | none => s
  let s2 := s1.kvW (s.appEnt p q spec b h) 4 (kvWord g)
  if spec then s2 else match old with
    | some o => s2.kvRelease p o
    | none => s2

/-- The new positions of a row written (R375, R381): token `t` of `n` at position base + t, converted by the quantising scales. -/
def State.kvPut (x : OpBlk) (rd : Rd) (p : Pool) (q row : Nat) (spec : Bool) (base n : Nat) (s : State) : State :=
  let rb := p.d * kvElem p.fmt
  let one : FV := .fin false 1 0
  let scl := fun i h => if (x.t i).rank = 0 then one else div32 one (((x.t i).vals rd 0).getD h .nan)
  forN n (fun t s => forN p.hkv (fun h s =>
    let pos := base + t
    match kvPage (s.kvR (s.appEnt p q spec (pos / 64) h) 4) with
    | none => s
    | some g =>
      if !s.kvLocal p (pos / 64) h then s
      else
        let a := p.base + g * p.pb + pos % 64 * rb
        let quant := fun i k => packElems p.fmt (((x.t i).vals rd ((row * (x.t 0).d2 + t) * p.hkv + h)).map (fun v =>
          (convert p.fmt 0 0 (fmulX v (scl k h))).1))
        ((s.devWrite a (quant 1 7)).devWrite (a + 64 * rb) (quant 2 8)).kvW (p.ent g + 9) 1 (pos % 64 + 1)) s) s

/-- The append of a row (R375-R379): the row's failure, or 0, and the pages it allocated. -/
def State.kvAppend (hd : Nat) (x : OpBlk) (rd : Rd) (p : Pool) (e : Option Nat) (q row n : Nat) (s : State) : Nat × List Nat × State :=
  let spec := e.isSome
  let num := match e with | some k => (s.epoch k).number.toNat | none => 0
  let len := s.seqLen p q
  let tl := s.seqTlen p q
  let base := len + tl
  if n = 0 then (0, [], s)
  else if tl ≠ 0 ∧ s.seqEpoch p q ≠ num then (rsJobsActive, [], s)
  else if (spec ∧ 64 < tl + n) ∨ p.maxBlocks * 64 < base + n then (rsBadParam, [], s)
  else
    match s.kvTakeAll hd p e (if spec then 2 else 1) num (s.appNeeds p q spec base n) [] with
    | (none, s1) => (rsKvNoPage, [], s1)
    | (some got, s1) =>
      let s2 := got.foldl (fun s g => s.kvPlace p q spec base g) s1
      let s3 := s2.kvPut x rd p q row spec base n
      let s4 := match e with
        | some k => ((s3.kvW (p.seqAt q + 4) 1 (tl + n)).kvW (p.seqAt q + 8) 4 num).modEpoch k (fun y =>
            { y with seqs := if y.seqs.contains (hd, q) then y.seqs else y.seqs ++ [(hd, q)] })
        | none => s3.kvW (p.seqAt q) 4 (len + n)
      (0, got.map (fun g => g.2.2), s4)

/-- The rows of an ATTENTION operator as it starts, in ascending index (R376, R379, R381): what each one reads through, the pages
allocated. A row that fails on another share, by the statuses `failed`, fails here (R385). -/
def State.attnRows (hd : Nat) (x : OpBlk) (rd : Rd) (p : Pool) (e : Option Nat) (seqs qlens failed : List Nat) (s : State) :
    List OpRow × List Nat × State :=
  let app := bitN (x.a 2 1) 1
  (List.range seqs.length).foldl (fun (r : List OpRow × List Nat × State) i =>
    let s := r.2.2
    let q := seqs.getD i 0
    let n := qlens.getD i 0
    let bad := fun rs => (r.1 ++ [OpRow.mk rs 0 0 []], r.2.1, s)
    if failed.getD i 0 ≠ 0 then bad (failed.getD i 0)
    else if p.maxSeq ≤ q ∨ !s.seqUsed p q then bad rsBadHandle
    else if (x.t 0).d2 < n ∨ (app ∧ (seqs.take i).contains q) then bad rsBadParam
    else
      let base := s.seqLen p q + s.seqTlen p q
      if !app then (r.1 ++ [OpRow.mk 0 base base (s.rowPages p q base)], r.2.1, s)
      else
        let o := s.kvAppend hd x rd p e q i n
        if o.1 ≠ 0 then (r.1 ++ [OpRow.mk o.1 0 0 []], r.2.1, o.2.2)
        else (r.1 ++ [OpRow.mk 0 base (base + n) (o.2.2.rowPages p q (base + n))], r.2.1 ++ o.2.1, o.2.2)) ([], [], s)

/-- The distinct pages below 65,536 of a list. -/
def pageSet (l : List Nat) : List Nat := (l.filter (· < 65536)).eraseDups

/-- The pages that the committed and the tentative entries of the rows name as the operator starts (R376). -/
def State.startPages (s : State) (p : Pool) (seqs : List Nat) : List Nat :=
  pageSet (seqs.flatMap (fun q => if q < p.maxSeq && s.seqUsed p q then
    (List.range ((p.maxBlocks + 2) * p.hkv)).filterMap (fun i => kvPage (s.kvR (p.seqAt q + 64 + 4 * i) 4)) else []))

/-- The rows of an ATTENTION operator taken on a share (R376, R385): every page of its rows pinned once, its rows appended, the pages it allocated
pinned too; the rows, the pages pinned, the sequences appended to. -/
def State.attnTake (hd : Nat) (x : OpBlk) (rd : Rd) (p : Pool) (e : Option Nat) (failed : List Nat) (s : State) :
    List OpRow × List Nat × List Nat × State :=
  let seqs := (x.t 4).raws rd 0
  let qlens := (x.t 5).raws rd 0
  let pages := s.startPages p seqs
  let s1 := pages.foldl (fun s g => s.kvPin p g) s
  let o := s1.attnRows hd x rd p e seqs qlens failed
  let mine := (pageSet o.2.1).filter (fun g => !pages.contains g)
  let s2 := mine.foldl (fun s g => s.kvPin p g) o.2.2
  (o.1, pages ++ mine, if bitN (x.a 2 1) 1 then seqs else [], s2)

/-- The claims of an operator on a pool (R374, R376). -/
def Pool.claim (p : Pool) (id : Nat) (pages seqs : List Nat) : Pool :=
  { p with pins := p.pins ++ [(id, pages)], apps := if seqs.isEmpty then p.apps else p.apps ++ [(id, seqs)] }

/-- An ATTENTION operator starts on this part (R376). -/
def State.attnStart (c : Cmd) (hd : Nat) (x : OpBlk) (p : Pool) (g : Agent) (failed : List Nat) (s : State) : State :=
  let o := s.attnTake hd x (s.agentRead g) p c.epoch failed
  ({ o.2.2.2 with pools := tmod none o.2.2.2.pools hd (fun v => v.map (fun (p : Pool) => p.claim c.id o.2.1 o.2.2.1)) }).modCmd c.id
    (fun c => { c with opRows := o.1 })

/-- What the parts with the other shares need of an ATTENTION operator (R385): its block, and the bytes of its queries, its new positions, its
sequences and its scales (layout: DESIGN CHOICE, log 42). -/
def State.attnInputs (s : State) (c : Cmd) (x : OpBlk) (g : Agent) : List Byte :=
  toLe 4 c.params.length ++ c.params ++ ([0, 1, 2, 4, 5, 7, 8].flatMap (fun i => (x.t i).ranges)).flatMap (fun r =>
    toLe 8 r.1 ++ toLe 8 r.2 ++ s.agentRead g r.1 r.2)

/-- The statuses of the rows that this part's share gives, before anything changes (R385). -/
def State.attnStatus (hd : Nat) (x : OpBlk) (rd : Rd) (p : Pool) (e : Option Nat) (s : State) : List Nat :=
  (s.attnTake hd x rd p e []).1.map (·.status)

/-! ### RUN_OP and RUN_PROGRAM -/

/-- Is the command a member of an epoch that aborts: none of its jobs starts any more (R403)? -/
def State.dying (s : State) (c : Cmd) : Bool := c.epoch.any (fun e => (s.epoch e).st == .aborting)

/-- The jobs of an operator become eligible (R206, R313). -/
def State.opSpawn (c : Cmd) (s : State) : State :=
  forN (opJobs c.params) (fun i s => s.newJob
    { kind := .op c.id i, tenant := c.tenant, cls := c.cls, elig := 0, epoch := c.epoch }) s

/-- The access that a command under way to reading its rows is denied. -/
def State.startDeny (s : State) (g : Agent) (x : OpBlk) (p : Pool) : Option Deny :=
  match x.inRanges.findSome? (fun r => s.access g 0 r.1 r.2) with
  | some d => some d
  | none => match s.saveDeny p.tenant p.ctrl p.ctrlLen true with
    | some d => some d
    | none => s.saveDeny p.tenant p.base (p.npages * p.pb) true

/-- The rights of a command's accesses: its tenant with the present windows, its epoch. -/
def State.cmdAgent (s : State) (c : Cmd) : Agent := 
  { tenant := some c.tenant, windows := s.windowsOf c.tenant, epoch := c.epoch,
    barred := (s.jobsOf c.id).any (fun j => (s.job j).any (fun x => x.barred)) }

/-- The byte ranges of the statistics records of a command's operator. -/
def Cmd.statRanges (c : Cmd) : List (Nat × Nat) := (opBlocks c.params).flatMap (fun x => x.statIdx.flatMap (fun i => (x.t i).ranges))

/-- The statistics records are zeroed before the operator starts (R321); `none` where the Hoard has no page for it (R400), the lowest die's
being taken first as no core runs yet (DESIGN CHOICE, log 40). A denied record is left to the slices' own accesses. -/
def State.zeroRecs (c : Cmd) (s : State) : Option State :=
  let g := s.cmdAgent c
  c.statRanges.foldl (fun o r => o.bind (fun s =>
    if (s.access g 1 r.1 r.2).isSome then some s else s.agentWrite g 0 r.1 (List.replicate r.2 0))) (some s)

/-- An operator starts: its records are zeroed (R321), the STATE record of a recurrent one is read (R360), and its jobs become eligible. -/
def State.opStart (c : Cmd) (s : State) : State :=
  match s.zeroRecs c with
  | none => c.epoch.elim s (fun e => s.hoardFull e)
  | some s =>
    let st := match opBlocks c.params with
      | [x] => if x.recur then (x.t x.recIdx).bytes (s.agentRead (s.cmdAgent c)) else []
      | _ => []
    (s.modCmd c.id (fun c => { c with opState := st })).opSpawn c

/-- RUN_OP takes effect (R313, R321, R360, R376, R385, R391): the operator starts, an ATTENTION operator with its pins and appends, and the
jobs wait for their cores. -/
def State.applyRunOp (c : Cmd) (s : State) : State :=
  if s.dying c then s
  else match (opBlocks c.params).find? (fun x => x.id == 0x0400) with
    | none => s.opStart c
    | some x => match s.poolFor c.tenant (x.a 0 2) with
      | none => s.complete c ocRefused rsBadHandle
      | some p =>
        let g := s.cmdAgent c
        if s.kvLost p then s.stopCmd c { oc := ocFailed, rs := rsDieLost } false
        else if (s.poolPeers p).any (fun n => (s.route n).isNone) then s.stopCmd c { oc := ocFailed, rs := rsRemoteLinkDown } false
        else match s.startDeny g x p with
          | some d => (s.noteDeny d).stopCmd c { oc := ocFailed, rs := faultReason d.code } false
          | none =>
            if (s.poolPeers p).isEmpty then (s.attnStart c (x.a 0 2) x p g []).opStart c
            else s.askPeers c p 11 (toLe 8 p.share ++ s.attnInputs c x g)

/-- Every part has said what becomes of the rows (R381, R385): a row that fails on one share fails, with the first of their reasons; the operator
then starts on every share. -/
def State.attnGo (c : Cmd) (s : State) : State :=
  match (opBlocks c.params).find? (fun x => x.id == 0x0400) with
  | none => s
  | some x => match s.poolFor c.tenant (x.a 0 2) with
    | none => s.stopCmd c { oc := ocFailed, rs := rsDieLost } false
    | some p =>
      let g := s.cmdAgent c
      let mine := s.attnStatus (x.a 0 2) x (s.agentRead g) p c.epoch
      let theirs := c.shares.map (fun e => (e.ans.map (·.2)).getD [])
      let failed := (List.range mine.length).map (fun i =>
        if mine.getD i 0 ≠ 0 then mine.getD i 0 else (theirs.find? (fun b => leAt b (4 * i) 4 ≠ 0)).elim 0 (fun b => leAt b (4 * i) 4))
      let go := toLe 8 p.share ++ toLe 4 mine.length ++ failed.flatMap (toLe 4) ++ s.attnInputs c x g
      let s1 := (s.poolPeers p).foldl (fun (s : State) n => s.tellPool n c.tenant 13 c.id go) s
      let s2 := s1.modCmd c.id (fun c => { c with asking := false, shares := c.shares.map (fun (e : Share) => { e with ans := none }) })
      (s2.attnStart c (x.a 0 2) x p g failed).opStart c

/-- RUN_OP (R312). -/
def execRunOp (id : Nat) (s : State) : Host.Outcome State Fault Refusal :=
  .next (s.command id 0x0040 (fun _ => true) checkRunOp State.applyRunOp)

/-- The checks of RUN_PROGRAM (R235, R30). -/
def checkRunProgram (s : State) (c : Cmd) : Option Nat :=
  let n := c.params.length
  if n < 8 ∨ 72 < n ∨ n % 8 ≠ 0 ∨ !zerosAt c.params 4 4 then some rsBadParam
  else if !s.hasProgram c.tenant (c.p 0 2) (c.p 2 2) then some rsBadHandle
  else if s.noCore c.tenant then some rsDieUnavailable
  else none

/-- RUN_PROGRAM takes effect: its job becomes eligible with the arguments of Table 9.2 (R206, R235). -/
def State.applyRunProgram (c : Cmd) (s : State) : State :=
  if s.dying c then s
  else s.newJob
    { kind := .program c.id, tenant := c.tenant, cls := c.cls, elig := 0, epoch := c.epoch, image := c.p 0 2, entry := c.p 2 2,
      args := (List.range (c.params.length / 8 - 1)).map (fun j => BitVec.ofNat 64 (c.p (8 + 8 * j) 8)) }

/-- RUN_PROGRAM (R235). -/
def execRunProgram (id : Nat) (s : State) : Host.Outcome State Fault Refusal :=
  .next (s.command id 0x0041 (fun _ => true) checkRunProgram State.applyRunProgram)

/-! ### END -/

/-- The run of an operator (R313): in one job the stochastic values come from its context's generator, in the order of its conversions (R287;
DEDUCED, log 3); over several they depend on the library's slicing, a free value. -/
def opSplit (b : List Byte) : Split :=
  let J := opJobs b
  { J := J, cut := opSlice b, rnd := fun i => if J = 1 then rngVal (rngAt (i + 1)) else (Config.opRand b i).toNat }

/-- The run of the second of two linked operators (R324): it takes the slices of the first one's rows. -/
def Split.linked (p : Split) (x y : OpBlk) (w : Nat) : Split :=
  { p with cut := fun i m _ => p.cut 0 (x.linkRow ((if bitN (y.a 1 1) 1 then 0 else i) * w + m)) 0 }

/-- What a command's operator leaves, read as its last job sees memory (R324; DEDUCED, log 129), with what the other parts have sent of a spread
pool (R385). `none` faults with DESC. -/
def State.opOut (s : State) (g : Agent) (c : Cmd) : Option OpOut :=
  let rd : Rd := s.agentRead g
  let p := opSplit c.params
  match opBlocks c.params with
  | [x, y] => (x.eval rd [] p none (some (linkFmt c.params))).bind (fun a =>
      (y.eval rd [] ((p.skip a.rands).linked x y (a.y.length / (if bitN (y.a 1 1) 1 then 1 else Nat.max 1 (y.a 4 4))))
        (some (linkFmt c.params, a.y)) none).map (fun b =>
        { writes := a.writes ++ b.writes, bits := a.bits.or b.bits }))
  | [x] =>
    if x.id = 0x0400 then match s.poolFor c.tenant (x.a 0 2) with
      | none => none
      | some kv => x.attnOut s rd kv c.opRows c.shares p
    else x.eval rd c.opState p none none
  | _ => none

/-- The faults that the slices of an operator can meet (R253, R315): the accesses that are denied, or DESC; none where it runs well. -/
def State.opFaults (s : State) (g : Agent) (c : Cmd) : List (Option Deny × Nat) :=
  let ds := (opBlocks c.params).flatMap (fun x =>
    x.inRanges.filterMap (fun r => s.access g 0 r.1 r.2) ++ x.outRanges.filterMap (fun r => s.access g 1 r.1 r.2))
  if ds.isEmpty then (if (s.opOut g c).isNone then [(none, ftDesc)] else []) else ds.map (fun d => (some d, d.code))

/-- The fault that the slice on a core meets, which of its operator's and at which program counter being the library's (free values, log 3). -/
def opPick (l : List (Option Deny × Nat)) (fresh core : Nat) : Option Deny × Nat × Nat :=
  let k := l.getD ((Config.freeWord fresh (64 + core)).toNat % Nat.max 1 l.length) (none, ftDesc)
  (k.1, k.2, (Config.freeWord fresh core).toNat)

/-- A fault of library code on a core (R253, R315). -/
def State.opFault (core : Nat) (k : Option Deny × Nat × Nat) (s : State) : State :=
  (match k.1 with
   | some d => s.noteDeny d
   | none => s).tileFault core k.2.1 k.2.2

/-- The core on which another slice of the same operator faults in this cycle (R327). -/
def State.opTie (s : State) (core id : Nat) (tie : Option (Fin 64)) : Option (Nat × Nat) :=
  tie.bind (fun t => if t.val = core ∨ (s.core t.val).phase ≠ .running then none else
    ((s.core t.val).job.bind s.job).bind (fun y => match y.kind with
      | .op i k => if i = id then some (t.val, k) else none
      | _ => none))

/-- The slice `k` on a core faults, `tie` with another one: both cores record their own fault, and the lower slice's gives the reason (R315,
R327; DESIGN CHOICE, log 126). -/
def State.sliceFault (core k : Nat) (tie : Option (Nat × Nat)) (l : List (Option Deny × Nat)) (fresh : Nat) (s : State) : State :=
  match tie with
  | none => s.opFault core (opPick l fresh core)
  | some t =>
    let lo := if k < t.2 then core else t.1
    let hi := if k < t.2 then t.1 else core
    let p := opPick l fresh hi
    let s1 := match p.1 with
      | some d => s.noteDeny d
      | none => s
    ((s1.coreFault hi p.2.1 p.2.2).opFault lo (opPick l fresh lo)).faultHold hi

/-- A command that took effect completes with a result and a reason: SERVED, or SERVED_LATE (R60). -/
def State.servedWith (c : Cmd) (rs : Nat) (result : List Byte) (s : State) : State :=
  s.finish c { oc := if c.late ≠ 0 then ocLate else ocServed, rs := rs, late := c.late, skipped := c.skipped, result := result }

/-- A slice of an operator whose accumulation saturated sets ACC_SAT on its core (R291, R306, R316): which slices met it is a free value (log
3), at least one. -/
def State.opSaturates (core : Nat) (c : Cmd) (last sat : Bool) (fresh : Nat) (s : State) : State :=
  if sat && ((last && !c.opSat) || bit (Config.freeWord fresh 128) 0) then
    (s.errQuant core).modCmd c.id (fun c => { c with opSat := true })
  else s

/-- The last job of an operator ends: the outputs are written and the command completes (R314, R383); an exhausted Hoard aborts the epoch. -/
def State.opLast (core j : Nat) (x : Job) (c : Cmd) (o : OpOut) (s : State) : State :=
  match o.writes.foldl (fun (t : Option State) w => t.bind (fun s => s.agentWrite x.agent (core / 16) w.1 w.2)) (some s) with
  | none => (x.epoch.elim s (fun e => s.hoardFull e)).endJob j false
  | some t => ((t.endJob j false).kvUnpinCmd c.id).servedWith c o.rs (toLe 2 (opJobs c.params) ++ toLe 1 o.bits.byte ++ List.replicate 5 0)

/-- Does a bridge in RETRAIN hold what an operator's slice on a core reads or writes (R9, R29)? -/
def State.opHeld (s : State) (core : Nat) (c : Cmd) : Bool :=
  (opBlocks c.params).any (fun x => (x.inRanges ++ x.outRanges).any (fun r => s.pathHeld (some (core / 16)) r.1 r.2))

/-- Slice `k` of an operator ends on a core (R313). It faults where the operator cannot run well and it is the last one or, a free value (log
3), the part that fails is its own (R315, R327; DESIGN CHOICE, log 126). While a bridge holds its traffic it goes on (R29), and while another part
has not answered (R385); a part that could not carry its share out fails the operator. -/
def State.opEnd (core j : Nat) (x : Job) (id k : Nat) (tie : Option (Fin 64)) (s : State) : State :=
  match s.cmd id with
  | none => s.endJob j false
  | some c =>
    if s.opHeld core c || c.shares.any (fun e => e.ans.isNone) then s else
    match c.shares.findSome? (fun e => e.ans.bind (fun a => if a.1 ≠ 0 then some a.1 else none)) with
    | some rs => s.stopCmd c { oc := ocFailed, rs := rs } false
    | none =>
    let last : Bool := (s.jobsOf id).length ≤ 1
    let d := s.draw
    let l := s.opFaults x.agent c
    if !l.isEmpty then
      if last || (s.opTie core id tie).isSome || bit (Config.freeWord d.1 129) 0 then d.2.sliceFault core k (s.opTie core id tie) l d.1
      else d.2.endJob j false
    else match s.opOut x.agent c with
      | none => d.2.endJob j false
      | some o =>
        let s1 := d.2.opSaturates core c last o.bits.accSat d.1
        if last then s1.opLast core j x c o else s1.endJob j false

/-- The result of a block in the LM output buffer of its home core. -/
def State.blockOut (s : State) (x : Stream) (b : Nat) : List Byte :=
  mreadN (s.core (x.homeOf b)).lm (x.bufsOf b).2 (x.b * x.chOut * 4)

/-- A block job ends: its result is complete for the fetch point, and a migration whose first destination block this is completes
(R221, R237); the result of a block of another part's stream goes back there (R222). -/
def State.blockEnd (j h b : Nat) (s : State) : State :=
  let s1 := s.endJob j true
  match s1.stream h with
  | none => s1
  | some x => match x.guest with
    | some g => (s1.guestBlockEnds h b).tellStream g.node x.tenant 4 g.handle b (s1.blockOut x b)
    | none => (s1.modStream h (fun x => { x with
        blocks := x.blocks.map (fun k => if k.s = b then { k with done := true, job := none } else k) })).migrPost h b

/-- A job that runs code of an image ends (R237, R394). -/
def State.jobDone (core j : Nat) (x : Job) (s : State) : State :=
  match x.kind with
  | .program id =>
    let a0 := (tget 0 (s.core core).a 0).toNat
    let s1 := s.endJob j true
    match s1.cmd id with
    | some c => s1.servedWith c 0 (toLe 8 a0)
    | none => s1
  | .block h b => s.blockEnd j h b
  | .launch r k => (s.endJob j true).launchEnd r k none
  | _ => s

/-- END (R237): the job ends. A completion in the cycle of a pre-emption request wins (R226). An operator's job ends with its library
code, `tie` the core of another slice of it that faults in the same cycle (R327); a FIT job ends by its own rows. The queued transfers that
a retraining bridge holds come first (R29, log 118), and a job whose epoch aborts does not end so (R403). -/
def execTileEnd (core : Fin 64) (tie : Option (Fin 64)) (s : State) : Host.Outcome State Fault Refusal :=
  .next <|
  let c := core.val
  match (s.core c).job.bind (fun j => (s.job j).map (fun x => (j, x))) with
  | none => s
  | some (j, x) =>
    let saving : Bool := (s.core c).phase == .saving
    let s0 := if saving then s.tie else s
    if ((s.core c).phase ≠ .running ∧ !saving) ∨ s.stopped c then s
    else match x.kind with
      | .op id k => s0.opEnd c j x id k tie
      | .fit _ => s
      | _ =>
        if saving then match s.fetch c with
          | .word w =>
            if tOp w = 0x12 ∧ tEncFault w = none ∧ (s.core c).guard w ∧ !s.dmasHeld c then s0.jobDone c j x
            else s.tile c (· == 0x12) (fun _ s => .stay s)
          | _ => s.tile c (· == 0x12) (fun _ s => .stay s)
        else s.tile c (· == 0x12) (fun _ s => if s.dmasHeld c then .stay s else .retire (s.jobDone c j x) (some (s.core c).pc))

/-! ### A release in the cycle of the last unpin (R389) -/

/-- The END of another core's job in this cycle comes before a release of pages, so that a page whose last pin and last reference go together
never reads RELEASING (R389). -/
def State.unpinFirst (tie : Option (Fin 64)) (s : State) : State :=
  match tie with
  | none => s
  | some k => match execTileEnd k none s with
    | .next t => t
    | _ => s

/-- KV_SEQ FREE (R373); `tie` is a core whose END falls in the same cycle (R389). -/
def execKvSeqFree (id : Nat) (tie : Option (Fin 64)) (s : State) : Host.Outcome State Fault Refusal :=
  .next ((s.unpinFirst tie).command id 0x0052 (fun c => c.kvOper == 2) checkKvSeq State.applyKvSeq)

/-- KV_SEQ TRUNCATE (R373); `tie` as for FREE (R389). -/
def execKvSeqTruncate (id : Nat) (tie : Option (Fin 64)) (s : State) : Host.Outcome State Fault Refusal :=
  .next ((s.unpinFirst tie).command id 0x0052 (fun c => c.kvOper == 3) checkKvSeq State.applyKvSeq)

end Sys2Proof.Machine
end

