-- ==== Sys2Proof/Machine/Spread.lean ====
section
/-!
DEFINITION. KV pools spread over parts (R385): what a part does with its share of another part's pool, what the answers do to the command that
asked; DATA_FRAME (R501), which carries them.
-/
namespace Sys2Proof.Machine

/-! ### A share of another part's pool -/

/-- The answer of a share (log 42). -/
def State.shareAnswers (n tenant v rs : Nat) (data : List Byte) (s : State) : State := s.tellPool n tenant 12 v (toLe 2 rs ++ data)

/-- The share of part `n` that carries an identity. -/
def State.shareOf (s : State) (n k : Nat) : Option Pool := (s.kvShares.find? (fun e => e.1 == n && e.2.share == k)).map (·.2)

/-- A share changed. -/
def State.modShare (n k : Nat) (f : Pool → Pool) (s : State) : State :=
  { s with kvShares := s.kvShares.map (fun e => if e.1 == n && e.2.share == k then (e.1, f e.2) else e) }

/-- The reason for which a share cannot be worked on: it is not here, its die is lost, or its memory is denied. -/
def State.shareRefusal (s : State) (p : Option Pool) (pages : Bool) : Option Nat :=
  match p with
  | none => some rsRemoteLinkDown
  | some p =>
    if s.kvLost p then some rsDieLost
    else match s.saveDeny p.tenant p.ctrl p.ctrlLen true with
      | some d => some (faultReason d.code)
      | none => if pages then (s.saveDeny p.tenant p.base (p.npages * p.pb) true).map (fun d => faultReason d.code) else none

/-- The command of another part, as far as its pool operation needs it. -/
def farCmd (op v tenant : Nat) (params : List Byte) : Cmd :=
  { id := v, sq := 0, op := op, tag := 0, tenant := tenant, cls := .background, cq := 0, params := params }

/-- A share is asked for (R369, R385): the windows of the tenant on this part must hold it, at the same BASE and CTRL. -/
def State.shareMake (n v tenant : Nat) (b : List Byte) (s : State) : State :=
  let p := { (farCmd 0x0050 v tenant b).poolOf with share := v }
  if !s.inDmOrLpddr p.base (p.npages * p.pb) || !s.inDmOrLpddr p.ctrl p.ctrlLen || !s.paramRw tenant p.base (p.npages * p.pb) ||
      !s.paramRw tenant p.ctrl p.ctrlLen then s.shareAnswers n tenant v rsMemWindow []
  else match s.shareRefusal (some p) false with
    | some rs => s.shareAnswers n tenant v rs []
    | none =>
      let s1 := s.devWrite p.ctrl p.fresh
      ({ s1 with kvShares := s1.kvShares ++ [(n, p)] }).shareAnswers n tenant v 0 []

/-- A sequence operation takes effect on a share (R385). -/
def State.shareSeq (n v tenant : Nat) (b : List Byte) (s : State) : State :=
  match s.shareOf n (leAt b 0 8), s.shareRefusal (s.shareOf n (leAt b 0 8)) false with
  | some p, none => (s.kvSeqOp p (farCmd 0x0052 v tenant (b.drop 8))).shareAnswers n tenant v 0 []
  | _, r => s.shareAnswers n tenant v (r.getD rsRemoteLinkDown) []

/-- The byte ranges that an operator's message carries (`attnInputs`'s layout); `k` bounds their number. -/
def attnRanges : Nat → List Byte → List (Nat × List Byte)
  | 0, _ => []
  | k + 1, b => if b.length < 16 then [] else (leAt b 0 8, slice b 16 (leAt b 8 8)) :: attnRanges k (b.drop (16 + leAt b 8 8))

/-- A read of what an operator's message carries. -/
def farRead (l : List (Nat × List Byte)) : Rd := fun a n =>
  match l.find? (fun e => e.1 ≤ a && a + n ≤ e.1 + e.2.length) with
  | some e => slice e.2 (a - e.1) n
  | none => List.replicate n 0

/-- The operator of a message: its block and its inputs. -/
def farOp (b : List Byte) : Option OpBlk × Rd :=
  let n := leAt b 0 4
  ((opBlocks (slice b 4 n)).find? (fun x => x.id == 0x0400), farRead (attnRanges b.length (b.drop (4 + n))))

/-- What becomes of an operator's rows on a share is asked (R385). -/
def State.shareAsk (n v tenant : Nat) (b : List Byte) (s : State) : State :=
  let k := leAt b 0 8
  let o := farOp (b.drop 8)
  match s.shareOf n k, o.1, s.shareRefusal (s.shareOf n k) true with
  | some p, some x, none => s.shareAnswers n tenant v 0 ((s.attnStatus 256 x o.2 p none).flatMap (toLe 4))
  | _, _, r => s.shareAnswers n tenant v (r.getD rsRemoteLinkDown) []

/-- An operator is carried out on a share (R376, R382, R385): its pages pinned, its rows appended, its partial values sent. -/
def State.shareGo (n v tenant : Nat) (b : List Byte) (s : State) : State :=
  let k := leAt b 0 8
  let rows := leAt b 8 4
  let failed := (List.range rows).map (fun i => leAt b (12 + 4 * i) 4)
  let o := farOp (b.drop (12 + 4 * rows))
  match s.shareOf n k, o.1, s.shareRefusal (s.shareOf n k) true with
  | some p, some x, none =>
    let r := s.attnTake 256 x o.2 p none failed
    (r.2.2.2.modShare n k (fun p => p.claim v r.2.1 r.2.2.1)).shareAnswers n tenant v 0 (x.attnParts r.2.2.2 o.2 p r.1)
  | _, _, r => s.shareAnswers n tenant v (r.getD rsRemoteLinkDown) []

/-- An operator has ended (R376): a share releases its pins and its claim as an appender. -/
def State.shareEnds (n v k : Nat) (s : State) : State :=
  match s.shareOf n k with
  | none => s
  | some p =>
    let pages := (p.pins.filter (fun x => x.1 = v)).flatMap (·.2)
    (pages.foldl (fun s g => s.kvUnpin p g) s).modShare n k (fun p => { p with
      pins := p.pins.filter (fun x => x.1 ≠ v), apps := p.apps.filter (fun x => x.1 ≠ v) })

/-! ### The command that asked -/

/-- Every part has answered a command (R385): the first reason ends it, with the shares made for a KV_POOL_CREATE given up; else it takes effect
here. -/
def State.sharesDone (c : Cmd) (s : State) : State :=
  let bad := c.shares.findSome? (fun e => e.ans.bind (fun a => if a.1 ≠ 0 then some a.1 else none))
  let s := s.modCmd c.id (fun c => { c with asking := c.op == 0x0040 })
  if c.op = 0x0050 then match bad with
    | some rs => (c.shares.foldl (fun (s : State) e => if e.ans.any (fun a => a.1 = 0) then s.tellPool e.node c.tenant 9 c.id [] else s) s).complete c
        (if rs = rsMemWindow then ocRefused else ocFailed) rs
    | none => s.poolMake c
  else if c.op = 0x0052 then match bad, s.poolFor c.tenant (c.p 2 2) with
    | some rs, _ => s.complete c ocFailed rs
    | none, some p => (s.kvSeqOp p c).served c []
    | none, none => s.complete c ocFailed rsDieLost
  else match bad with
    | some rs => s.stopCmd c { oc := ocFailed, rs := rs } false
    | none => s.attnGo c

/-- A share's answer (R385); one for a command that has ended is dropped (R502). -/
def State.shareAnswered (n v : Nat) (b : List Byte) (s : State) : State :=
  let mine := fun (e : Share) => e.node == n && e.ans.isNone
  match (s.cmd v).filter (fun c => c.shares.any mine) with
  | none => s.lateResult
  | some c =>
    let c1 := { c with shares := c.shares.map (fun e => if mine e then { e with ans := some (leAt b 0 2, b.drop 2) } else e) }
    let s1 := s.modCmd v (fun _ => c1)
    if c1.asking && c1.shares.all (fun e => e.ans.isSome) then s1.sharesDone c1 else s1

/-! ### DATA frames -/

/-- A message has arrived whole: one of a spread pool (`tellPool`'s kinds), or of a stream. -/
def State.wholeArrives (f : LinkFrame) (b : List Byte) (s : State) : State :=
  let n := f.src.toNat % 64
  let t := f.tenant.toNat
  let v := leAt b 8 8
  let data := b.drop 16
  match leAt b 0 2 with
  | 8 => s.shareMake n v t data
  | 9 => { s with kvShares := s.kvShares.filter (fun e => !(e.1 == n && e.2.share == v)) }
  | 10 => s.shareSeq n v t data
  | 11 => s.shareAsk n v t data
  | 12 => s.shareAnswered n v data
  | 13 => s.shareGo n v t data
  | 14 => s.shareEnds n v (leAt data 0 8)
  | _ => s.msgArrives f b

/-- A DATA frame has arrived for this part. -/
def State.dataArrives (f : LinkFrame) (s : State) : State :=
  match s.assemble f with
  | (s1, none) => s1
  | (s1, some b) => s1.wholeArrives f b

/-- DATA_FRAME (R501): a DATA frame, or the SIG frame of a signal, is received and delivered. -/
def execDataFrame (port : Fin 4) (f : LinkFrame) (s : State) : Host.Outcome State Fault Refusal :=
  .next (if f.ftype = 0 then s.onFrame port.val f (State.dataArrives f)
    else if f.ftype = 1 then s.onFrame port.val f (State.sigArrives f) else s)

end Sys2Proof.Machine
end

