-- ==== Sys2Proof/Machine/Cascade.lean ====
section
/-!
DEFINITION. The cascade (chapter 16): rules and their launches (R392-R395), CASCADE_CONFIG and CASCADE_CTRL (R393, R397, R398), the
commit point with its verdict (R401, R404), the end of write-back (R402), the end of an abort (R403), the Hoard's size (R400).
-/
namespace Sys2Proof.Machine

/-! ### Epoch slots -/

/-- The next epoch number: from 1, wrapping past 0 (R396). -/
def State.takeNumber (s : State) : W32 × State :=
  let n := s.sch.epochNo
  (n, { s with sch.epochNo := if n = BitVec.allOnes 32 then 1 else n + 1 })

/-- A slot opens (R396); CAUSE keeps the cause of its last abort (Table 16.7). -/
def State.openSlot (e tenant pages : Nat) (deadline : Option Sfc) (s : State) : State :=
  let r := s.takeNumber
  r.2.modEpoch e (fun x =>
    { st := .opened, cause := x.cause, tenant := tenant, number := r.1, limit := pages, deadline := deadline })

/-- A slot becomes FREE: the rings bound to it are not any more (R398). -/
def State.freeSlot (e : Nat) (s : State) : State :=
  let s1 := s.modEpoch e (fun x => { x with
    st := .free, pages := [], held := [], seqs := [], commit := none, abortCmd := none, waitJobs := false, verdict := none,
    applied := 0, discardCc := 0, deadline := none, limit := 0 })
  forN 64 (fun n s => if (s.ring n).bound = some e then s.modRing n (fun r => { r with bound := none, unbind := none }) else s) s1

/-- The member commands of a slot that are outstanding. -/
def State.members (s : State) (e : Nat) : List Cmd := s.cmds.filter (fun c => c.epoch = some e)

/-- The shadow pages written to their targets (R401). Until it ends every other access to a target stalls, so that the write is made at
the commit point (DEDUCED, log 43). -/
def State.writeBack (e : Nat) (s : State) : State :=
  (s.epoch e).pages.foldl (fun s p => s.devWrite (p.target * 4096) (mreadN s.mem (s.hoardAddr p.die p.page) 4096)) s

/-- Does a bridge that retrains hold the write-back of an epoch (R29)? -/
def State.backHeld (s : State) (e : Nat) : Bool :=
  (s.epoch e).pages.any (fun p => s.dieHeld p.die || s.pathHeld none (p.target * 4096) 4096)

/-- The epoch commits (R401): its tentative positions by the counts that `k` gives, its work and its signals no longer speculative, its contexts
kept in the Hoard outside its limit, its pages written. -/
def State.commitEpoch (e applied : Nat) (k : Nat × Nat → Nat → Nat) (s : State) : State :=
  let x := s.epoch e
  let s1 := x.seqs.foldl (fun s q => match s.pool q.1 with
    | none => s
    | some p => s.kvCommit p q.2 (k q (s.seqTlen p q.2))) s
  let s2 := { s1 with
    sch.ctxKept := s1.sch.ctxKept ++ x.ctxPages,
    sch.signals := s1.sch.signals.map (fun (g : Signal) => if g.epoch = some e then { g with epoch := none } else g),
    sch.heldDma := s1.sch.heldDma.map (fun (h : HeldDma) => if h.epoch = some e then { h with epoch := none } else h),
    cmds := s1.cmds.map (fun (c : Cmd) => if c.epoch = some e then { c with epoch := none } else c),
    jobs := s1.jobs.map (fun (j : Nat × Option Job) => (j.1, j.2.map (fun (y : Job) => if y.epoch = some e then { y with epoch := none } else y))) }
  (s2.writeBack e).modEpoch e (fun y => { y with st := .committing, applied := applied, seqs := [], ctxPages := [] })

/-- A commit that accepts every tentative position. -/
def State.commitAll (e : Nat) (s : State) : State := s.commitEpoch e 0 (fun _ t => t)

/-! ### Rules (R392-R395) -/

/-- Is a rule busy (R395)? -/
def State.ruleBusy (s : State) (r : Nat) : Bool := (s.rule r).left ≠ 0 || (s.epoch (48 + r)).live

/-- A rule launches its jobs (R394, R395): speculatively in its own slot, or not. `woke`: the decision woke the part, so that a die is
brought ON when none of the tenant's cores lies on one (R19). -/
def State.launch (r : Nat) (spec woke : Bool) (s : State) : State :=
  let x := s.rule r
  let s1 := if spec then s.openSlot (48 + r) x.tenant x.hoard (some (s.tb.sfc + BitVec.ofNat 48 x.window)) else s
  let s2 := s1.modRule r (fun y => { y with left := y.jobs, faults := [], specLaunch := spec, deferred := false, preempts := 0 })
  let s3 := forN x.jobs (fun k s => s.newJob
    { kind := .launch r k, tenant := x.tenant, cls := x.cls, elig := 0, epoch := if spec then some (48 + r) else none,
      image := x.image, entry := x.entry, args := [x.arg0, BitVec.ofNat 64 k] }) s2
  let dies := ((s.tenant x.tenant).elim [] (fun t => maskCores t.affinity)).map (· / 16)
  if woke ∧ dies.all (fun d => (s.die d).power ≠ .on) then
    match (List.range 4).find? dies.contains with
    | some d => s3.dieOn d
    | none => s3
  else s3

/-- The action of a rule on a level change (Table 16.2). -/
def State.ruleAction (r : Nat) (old new : BitVec 2) (woke : Bool) (s : State) : State :=
  let e := s.epoch (48 + r)
  if new.toNat ≤ old.toNat then s
  else if s.ruleBusy r then
    if new = 2 ∧ e.st = .opened ∧ e.deadline.all (fun d => s.tb.sfc.toNat < d.toNat) then s.commitAll (48 + r)
    else { s with sch.launchBusy := satInc s.sch.launchBusy }
  else s.launch r (new = 1) woke

/-- TIER0_DECISION_HANDLE (R19, R394, R395): once the part is awake the oldest level change reaches the rules on its detector, but those that
acted on it already. -/
def execTier0DecisionHandle (s : State) : Host.Outcome State Fault Refusal :=
  .next <| match s.sch.t0 with
  | [] => s
  | c :: t =>
    if s.pmu.dev ≠ .run then s
    else forN 16 (fun r s =>
      let x := s.rule r
      if x.set_ && x.tier == 0 && x.det.toNat == c.det && !c.done.contains r then
        let s1 := s.modRule r (fun y => { y with level := c.new })
        if x.enabled then s1.ruleAction r c.old c.new c.woke else s1
      else s) { s with sch.t0 := t }

/-- Address of score word `j` (section 16.1): the last 256 bytes of system SRAM. -/
def scoreAddr (j : Nat) : Nat := 0x3FFF00 + 4 * j

/-- SCORE_WORD_EVALUATE (R392, R395): a score gives every rule on the word its level, and an enabled one acts on a rise; bits 31:8 must be
zero. -/
def execScoreWordEvaluate (j : Fin 64) (s : State) : Host.Outcome State Fault Refusal :=
  .next <|
  let w := mreadLe s.mem (scoreAddr j.val) 4
  if 256 ≤ w then s
  else forN 16 (fun r s =>
    let x := s.rule r
    if x.set_ && x.tier ≠ 0 && x.score == j.val then
      let n : BitVec 2 := if x.firm.toNat ≤ w then 2 else if x.lean_.toNat ≤ w then 1 else 0
      let s1 := s.modRule r (fun y => { y with level := n })
      if x.enabled then s1.ruleAction r x.level n false else s1
    else s) s

/-- EPOCH_WINDOW_EXPIRY (R395, R406): the deadline of a rule's OPEN epoch aborts it; a FIRM rise in the same cycle (`tie`) wins, and the rule has
then acted on its detector's change. -/
def execEpochWindowExpiry (r : Fin 16) (tie : Bool) (s : State) : Host.Outcome State Fault Refusal :=
  .next <|
  let e := 48 + r.val
  if (s.epoch e).st ≠ .opened ∨ (s.epoch e).deadline.all (fun d => s.tb.sfc.toNat < d.toNat) then s
  else if tie then
    (({ s.tie with sch.t0 := s.sch.t0.map (fun (c : T0Change) => if (s.rule r.val).tier == 0 && c.det == (s.rule r.val).det.toNat && c.new == 2 then
        { c with done := c.done ++ [r.val] } else c) }).modRule r.val (fun y => { y with level := 2 })).commitAll e
  else s.abortEpoch e 1

/-! ### CASCADE_CONFIG (R393) -/

/-- The checks of a rule (Table 16.1). -/
def checkRule (s : State) (c : Cmd) : Option Nat :=
  let src := c.p 3 1
  let ok := c.params.length == 48 && c.p 0 1 == 0 && c.p 1 1 < 16 && c.p 2 1 == 0 && bits src 0 2 ≤ 2 && bits src 2 2 == 0 &&
    bits src 7 1 == 0 && (if bits src 0 2 = 0 then c.p 4 1 == 0 else c.p 4 1 < 64) && c.p 5 1 ≤ c.p 6 1 && 1 ≤ c.p 7 1 && c.p 7 1 ≤ 64 &&
    1 ≤ c.p 8 4 && c.p 8 4 ≤ 1048576 && (s.tenant (c.p 12 2)).isSome && s.hasProgram (c.p 12 2) (c.p 14 2) (c.p 16 2) &&
    1 ≤ c.p 18 2 && c.p 18 2 ≤ 4096 && (c.p 20 1 == 1 || c.p 20 1 == 2) && (c.p 21 1 < 64 || c.p 21 1 == 0xFF) &&
    zerosAt c.params 22 2 && zerosAt c.params 32 16
  if !ok then some rsBadParam
  else if (s.rule (c.p 1 1)).enabled then some rsJobsActive
  else none

/-- A rule is written, and for tier 0 the thresholds of its detector (R393). -/
def State.applyRule (c : Cmd) (s : State) : State :=
  let src := c.p 3 1
  let s1 := s.modRule (c.p 1 1) (fun x => { x with
    set_ := true, tier := BitVec.ofNat 2 (bits src 0 2), det := BitVec.ofNat 3 (bits src 4 3), score := c.p 4 1,
    lean_ := BitVec.ofNat 8 (c.p 5 1), firm := BitVec.ofNat 8 (c.p 6 1), jobs := c.p 7 1, window := c.p 8 4, tenant := c.p 12 2,
    image := c.p 14 2, entry := c.p 16 2, hoard := c.p 18 2, cls := clsOf (c.p 20 1), cq := c.p 21 1,
    arg0 := BitVec.ofNat 64 (c.p 24 8), level := 0 })
  let s2 := if bits src 0 2 = 0 then s1.writeThr (bits src 4 3) (BitVec.ofNat 32 (c.p 5 1 + 256 * c.p 6 1)) else s1
  s2.served c []

/-- CASCADE_CONFIG PART 0 (R393); a PART other than 0 and 1 is refused by this row. -/
def execCascadeConfigRule (id : Nat) (s : State) : Host.Outcome State Fault Refusal :=
  .next (s.command id 0x0060 (fun c => c.p 0 1 ≠ 1) checkRule State.applyRule)

/-- The checks of a sequencer program (R393). -/
def checkSeqProgram (s : State) (c : Cmd) : Option Nat :=
  if c.params.length < 8 ∨ c.p 1 1 ≠ 0 ∨ 4096 ≤ c.p 2 2 ∨ c.p 4 4 = 0 ∨ 4096 < c.p 4 4 ∨ c.params.length ≠ 8 + 4 * c.p 4 4 then some rsBadParam
  else if s.aon.seq.run then some rsJobsActive
  else none

/-- The program store is written from instruction 0 (DEDUCED, log 44) and START_PC set (R393). -/
def State.applySeqProgram (c : Cmd) (s : State) : State :=
  ({ s with
      aon.seq.prog := forN (c.p 4 4) (fun i t => tset 0 t i (BitVec.ofNat 32 (c.p (8 + 4 * i) 4))) s.aon.seq.prog,
      aon.seq.startPc := BitVec.ofNat 12 (c.p 2 2) }).served c []

/-- Is the command a program write that is refused because the sequencer runs? -/
def State.programBusy (s : State) (c : Cmd) : Bool := c.op == 0x0060 && c.p 0 1 == 1 && checkSeqProgram s c == some rsJobsActive

/-- A program write while the sequencer runs is refused, and sets CTRL_REJECT (R149, R393). -/
def State.rejectProgram (c : Cmd) (s : State) : State := (s.errAon 4).complete c ocRefused rsJobsActive

/-- CASCADE_CONFIG PART 1 (R149, R393). -/
def execCascadeConfigProgram (id : Nat) (s : State) : Host.Outcome State Fault Refusal :=
  .next <| match (s.cmd id).filter (fun c => c.phase == .read && s.mayStart c && s.programBusy c) with
  | some c => s.rejectProgram c
  | none => s.command id 0x0060 (fun c => c.p 0 1 == 1) checkSeqProgram State.applySeqProgram

/-! ### CASCADE_CTRL (R397) -/

/-- OPEN takes effect (R397). -/
def State.applyOpen (c : Cmd) (s : State) : State :=
  let s1 := s.openSlot c.slotNo c.tenant (c.p 4 2) none
  s1.served c (res4 (s1.epoch c.slotNo).number.toNat)

/-- CASCADE_CTRL OPEN (R397). -/
def execEpochOpen (id : Nat) (s : State) : Host.Outcome State Fault Refusal :=
  .next (s.command id 0x0061 (fun c => c.ctrlOper == 0) checkCtrl State.applyOpen)

/-- BIND takes effect (R398). -/
def State.applyBind (c : Cmd) (s : State) : State :=
  (s.modRing (c.p 2 1) (fun r => { r with bound := some c.slotNo, unbind := none })).served c []

/-- CASCADE_CTRL BIND (R397, R398). -/
def execEpochBind (id : Nat) (s : State) : Host.Outcome State Fault Refusal :=
  .next (s.command id 0x0061 (fun c => c.ctrlOper == 1) checkCtrl State.applyBind)

/-- UNBIND takes effect (R398). -/
def State.applyUnbind (c : Cmd) (s : State) : State := (s.unbind (c.p 2 1) c.slotNo true).served c []

/-- CASCADE_CTRL UNBIND (R397, R398). -/
def execEpochUnbind (id : Nat) (s : State) : Host.Outcome State Fault Refusal :=
  .next (s.command id 0x0061 (fun c => c.ctrlOper == 2) checkCtrl State.applyUnbind)

/-- A COMMIT starts: it has sealed its epoch as it was read, or does so now (Table 16.3, R397, R398). -/
def State.applyCommit (c : Cmd) (s : State) : State :=
  if (s.epoch c.slotNo).commit = some c.id then s else s.seal c

/-- CASCADE_CTRL COMMIT (R397, R401): the due value of a COMMIT with AT holds back the commit point alone. -/
def execEpochCommit (id : Nat) (s : State) : Host.Outcome State Fault Refusal :=
  .next <|
  let sel := fun (c : Cmd) => c.ctrlOper == 3
  match s.cmd id with
  | none => s
  | some c =>
    if dueIs c.due 0 ∧ c.op = 0x0061 ∧ sel c ∧ c.phase = .read ∧ s.mayStart c ∧ checkCtrl s c = none ∧
        !tbReached (dueTb c.due) (s.tbNow (dueTb c.due)) (dueVal c.due).toNat then
      ((s.modCmd id (fun c => { c with phase := .armed })).arm (dueTb c.due) (dueVal c.due).toNat (.cmd id)).applyCommit c
    else s.command id 0x0061 sel checkCtrl State.applyCommit

/-- The due tick of an armed COMMIT (R56, R61, R401): its timer starts, and its commit point may fall; a jump that skipped its value shows in
its entry. -/
def State.commitTick (c : Cmd) (skipped : Bool) (s : State) : State :=
  s.modCmd c.id (fun c => { c with phase := .running, timer := c.timed, skipped := skipped })

/-- ABORT takes effect (R403, R407): an OPEN or SEALING epoch aborts and the command waits for the end; else it reports 0. -/
def State.applyEpochAbort (c : Cmd) (s : State) : State :=
  let e := c.slotNo
  let x := s.epoch e
  if x.st = .committing ∨ x.abortCmd.isSome then s.served c (res2 0)
  else (s.abortEpoch e 2).modEpoch e (fun x => { x with abortCmd := some c.id })

/-- CASCADE_CTRL ABORT (R397, R403). -/
def execEpochAbort (id : Nat) (s : State) : Host.Outcome State Fault Refusal :=
  .next (s.command id 0x0061 (fun c => c.ctrlOper == 4) checkCtrl State.applyEpochAbort)

/-- RULE_EN takes effect (R397). -/
def State.applyRuleEn (c : Cmd) (s : State) : State :=
  (s.modRule c.slotNo (fun x => { x with enabled := c.p 2 1 = 1 })).served c []

/-- CASCADE_CTRL RULE_EN (R397). -/
def execRuleEn (id : Nat) (s : State) : Host.Outcome State Fault Refusal :=
  .next (s.command id 0x0061 (fun c => c.ctrlOper == 5) checkCtrl State.applyRuleEn)

/-- SEQ_RUN takes effect (R149, R397): RUN as ARG says, START_PC unchanged. -/
def State.applySeqRun (c : Cmd) (s : State) : State :=
  (s.writeSeqCtrl (BitVec.ofNat 32 (c.p 2 1 + s.aon.seq.startPc.toNat * 65536))).served c []

/-- CASCADE_CTRL SEQ_RUN (R397). -/
def execSeqRun (id : Nat) (s : State) : Host.Outcome State Fault Refusal :=
  .next (s.command id 0x0061 (fun c => c.ctrlOper == 6) checkCtrl State.applySeqRun)

/-! ### Commit (R401, R402, R404) -/

/-- The verdict record of an epoch: its entries (pool, sequence, K), or the reason of R404. -/
def State.verdict (s : State) (e a : Nat) : Nat ⊕ List (Nat × Nat × Nat) :=
  let x := s.epoch e
  let g : Agent := { tenant := some x.tenant, windows := s.windowsOf x.tenant, epoch := some e }
  let why := fun a n => if windowsAllow g.windows 0 a n && !(pagesOf a n).any s.inHoard then rsBadParam else rsMemWindow
  match s.access g 0 a 8 with
  | some _ => .inl (why a 8)
  | none =>
    let h := s.agentRead g a 8
    let n := leAt h 0 4
    if n = 0 ∨ 32 < n ∨ leAt h 4 4 ≠ 0 then .inl rsBadParam
    else match s.access g 0 (a + 8) (8 * n) with
    | some _ => .inl (why (a + 8) (8 * n))
    | none =>
      let b := s.agentRead g (a + 8) (8 * n)
      if (List.range n).any (fun i => !zerosAt b (8 * i + 5) 3) then .inl rsBadParam
      else .inr ((List.range n).map (fun i => (leAt b (8 * i) 2, leAt b (8 * i + 2) 2, leAt b (8 * i + 4) 1)))

/-- The tentative positions that a sequence of the epoch holds; 0 for any other (R404). -/
def State.epochTlen (s : State) (e : Nat) (q : Nat × Nat) : Nat :=
  if (s.epoch e).seqs.contains q then (s.pool q.1).elim 0 (fun p => s.seqTlen p q.2) else 0

/-- Is a K of a verdict clamped (R404)? -/
def State.clamped (s : State) (e : Nat) (l : List (Nat × Nat × Nat)) : Bool := l.any (fun v => s.epochTlen e (v.1, v.2.1) < v.2.2)

/-- COMMIT_POINT (R401, R404): once the unbind has taken effect, the due value is reached and, with WAIT_JOBS, every member has ended, the
epoch commits; a bad verdict record aborts it instead. -/
def execCommitPoint (slot : Fin 64) (s : State) : Host.Outcome State Fault Refusal :=
  .next <|
  let e := slot.val
  let x := s.epoch e
  match x.commit.bind s.cmd with
  | none => s
  | some c =>
    if x.st ≠ .sealing ∨ c.phase ≠ .running ∨ (List.range 64).any (fun n => (s.ring n).bound == some e) ∨
        (x.waitJobs ∧ (!(s.epochJobs e).isEmpty ∨ !(s.members e).isEmpty)) ∨ s.backHeld e then s
    else
      let late := if dueIs c.due 0 then tbLate (dueTb c.due) (s.tbNow (dueTb c.due)) (dueVal c.due).toNat else 0
      let s0 := s.modCmd c.id (fun c => { c with late := late })
      match x.verdict with
      | none => s0.commitAll e
      | some a => match s.verdict e a with
        | .inl rs => ((s.abortEpoch e 2).modEpoch e (fun y => { y with commit := none })).complete c ocFailed rs
        | .inr l =>
          let s1 := if s.clamped e l then s0.errSpec 3 else s0
          s1.commitEpoch e l.length (fun q t => match l.find? (fun v => (v.1, v.2.1) == q) with
            | some v => Nat.min v.2.2 t
            | none => t)

/-- The held entries of an epoch posted in the order their jobs ended (R402). -/
def State.postHeld (l : List Held) (s : State) : State := l.foldl (fun s h => s.postStatus h.cq h.st) s

/-- EPOCH_WRITEBACK_DONE (R402): the held completions, then the COMMIT's, are posted, and the slot is FREE. -/
def execEpochWritebackDone (slot : Fin 64) (s : State) : Host.Outcome State Fault Refusal :=
  .next <|
  let e := slot.val
  let x := s.epoch e
  if x.st ≠ .committing then s
  else
    let s1 := s.postHeld x.held
    let s2 := match x.commit.bind s1.cmd with
      | some c => s1.served c (res2 x.applied)
      | none => s1
    { s2.freeSlot e with sch.commits := satInc s2.sch.commits }

/-! ### Abort (R403) -/

/-- The entry of a member of an aborted epoch: its own when it caused the abort, else ABORTED / EPOCH_ABORTED; always with
SPECULATIVE_DISCARDED. -/
def Held.discarded (h : Held) : Status :=
  if h.own then { h.st with flags := h.st.flags ||| 4 }
  else { h.st with outcome := ocAborted, reason := BitVec.ofNat 16 rsEpochAborted, late := 0, flags := h.st.flags ||| 4, result := [] }

/-- The entry of a rule's launch whose epoch aborted before its last job ended (R394). -/
def State.launchAborted (e : Nat) (s : State) : State :=
  if e < 48 then s
  else
    let r := e - 48
    let x := s.rule r
    if x.left = 0 ∨ !x.specLaunch then s
    else
      let s1 := s.modRule r (fun y => { y with left := 0 })
      if x.cq = 0xFF then s1
      else s1.postStatus x.cq (match x.failure with
        | some rs => launchEntry r x ocFailed rs true s.tb.sfc
        | none => launchEntry r x ocAborted rsEpochAborted true s.tb.sfc)

/-- The signals of an aborted epoch that are still on their way have lost their targets (R269, R281, R399). -/
def State.dropSignalsOf (e : Nat) (s : State) : State :=
  let mine := s.sch.signals.filter (fun g => g.epoch = some e)
  mine.foldl (fun s _ => s.dropSignal 1) { s with sch.signals := s.sch.signals.filter (fun g => g.epoch ≠ some e) }

/-- EPOCH_ABORT_DONE (R403): every job of the epoch has stopped, its pages and tentative positions are freed, its members complete
discarded, and the slot is FREE. -/
def execEpochAbortDone (slot : Fin 64) (s : State) : Host.Outcome State Fault Refusal :=
  .next <|
  let e := slot.val
  if (s.epoch e).st ≠ .aborting then s
  else
    let s1 := ((s.epochJobs e).foldl (fun s j => s.endJob j.1 false) s).dropSignalsOf e
    let x := s1.epoch e
    let mem := s1.members e
    let s2 := (mem.foldl (fun s c => s.kvUnpinCmd c.id) s1).kvAbort x.seqs
    let s3 := s2.modEpoch e (fun y => { y with held := [], seqs := [] })
    let s4 := x.held.foldl (fun s h => s.postStatus h.cq h.discarded) s3
    let s5 := mem.foldl (fun s c => (s.dropCmd c.id).deliver c
      (c.status { oc := ocAborted, rs := rsEpochAborted, discarded := true } s.tb.sfc)) s4
    let s6 := s5.launchAborted e
    let s7 := match x.commit.bind s6.cmd with
      | some c => s6.complete c ocFailed rsEpochAborted
      | none => s6
    let s8 := match x.abortCmd.bind s7.cmd with
      | some c => s7.served c (res2 ((x.held.filter (fun (h : Held) => h.st.sq < 64)).length + mem.length))
      | none => s7
    { s8.freeSlot e with sch.aborts := satInc s8.sch.aborts, sch.discardCc := satAdd s8.sch.discardCc x.discardCc }

/-! ### The Hoard (R400) -/

/-- A write to SCH_HOARD_d (R400): only while every slot is FREE, at most 64. -/
def State.writeHoard (d : Nat) (v : W32) (s : State) : State :=
  let n := fld v 0 7
  if s.epochs.any (fun e => e.2.live) ∨ 64 < n then s.errSpec 2
  else { s with sch.hoard := tset 0 s.sch.hoard d (BitVec.ofNat 7 n) }

/-- SCH_HOARD_WRITE (R400). -/
def execSchHoardWrite (d : Fin 4) (v : BitVec 32) (s : State) : Host.Outcome State Fault Refusal :=
  .next (s.onBlock (0x70400 + 4 * d.val) (State.writeHoard d.val v))

end Sys2Proof.Machine
end

