-- ==== Sys2Proof/Machine/Capture.lean ====
section
/-!
DEFINITION. Capture (chapter 17): CAPTURE_START with its checks (R412-R414), EXCITE (R415), ALIGN (R416), the optimiser step with its
number formats (R304, R305, R417, R418), divergence (R419), checkpoints (R420), completion (R421), and CAPTURE_CTRL (R422, R428). What
the spec does not give (the sweep, the terms of the cell's gradients, the initial weights, the order of the stochastic draws) are free
values (log 3, log 45).
-/
namespace Sys2Proof.Machine

/-! ### CAPTURE_START -/

/-- H of a CAPTURE_START. -/
def Cmd.capH (c : Cmd) : Nat := c.p 36 2
/-- WORK_LEN (R413). -/
def Cmd.workLen (c : Cmd) : Nat := 8 * c.p 4 4 + 19200 + 16 * paramCount c.capH + 262144

/-- Table 17.2. -/
def Cmd.captureOk (c : Cmd) : Bool :=
  c.params.length == 64 && rtOk (c.p 0 1) && !rtUsb (c.p 0 1) && rtOk (c.p 1 1) && !rtUsb (c.p 1 1) && c.p 2 1 ≤ 2 && c.p 3 1 ≤ 60 &&
  4096 ≤ c.p 4 4 && c.p 4 4 ≤ 4194304 && (c.p 2 1 == 2 || c.p 8 8 == 0) && c.p 16 8 % 64 == 0 && c.p 24 8 % 64 == 0 &&
  c.p 32 1 ≤ 1 && 1 ≤ c.p 33 1 && c.p 33 1 ≤ 3 && c.p 34 1 ≤ 1 && c.p 35 1 == 0 && 4 ≤ c.capH && c.capH ≤ 64 &&
  256 ≤ c.p 38 2 && c.p 38 2 ≤ 8192 && c.p 38 2 % 64 == 0 && 1 ≤ c.p 40 2 && c.p 40 2 ≤ 64 && 1 ≤ c.p 42 2 &&
  1 ≤ c.p 44 4 && c.p 44 4 ≤ 1048576 && 1 ≤ c.p 48 4 && c.p 48 4 ≤ 0x3F800000 && c.p 60 4 == 0

/-- The checks of CAPTURE_START in the order of R414. -/
def checkCapture (s : State) (c : Cmd) : Option Nat :=
  if !c.captureOk then some rsBadParam
  else if !(s.paramRw c.tenant (c.p 16 8) c.workLen && s.paramRw c.tenant (c.p 24 8) (2 * ckptLen c.capH) &&
      (c.p 2 1 ≠ 2 || s.paramRw c.tenant (c.p 8 8) (4 * c.p 4 4))) then some rsMemWindow
  else if s.routeInvalid false (c.p 0 1) || s.routeInvalid true (c.p 1 1) then some rsRouteInvalid
  else if (s.drivenBy none).contains (c.p 0 1) then some rsRouteBusy
  else if 4 ≤ s.caps.length then some rsNoBudget
  else none

/-- The capture that a CAPTURE_START describes; a seed of 0 is the generator's own (R287). -/
def Cmd.capture (c : Cmd) : Capture :=
  { cmd := c.id, outRoute := c.p 0 1, inRoute := c.p 1 1, signal := c.p 2 1, atten := c.p 3 1, length := c.p 4 4,
    sigAddr := c.p 8 8, work := c.p 16 8, ckpt := c.p 24 8, cell := c.p 32 1, g := c.p 33 1, stochastic := c.p 34 1 = 1,
    h := c.capH, segLen := c.p 38 2, batch := c.p 40 2, ckptEvery := c.p 42 2, steps := c.p 44 4, lr := BitVec.ofNat 32 (c.p 48 4),
    rng := if c.p 52 8 = 0 then rngSeed else BitVec.ofNat 64 (c.p 52 8), tenant := c.tenant }

/-- CAPTURE_START takes effect: the capture waits for EXCITE, in the lowest free place. -/
def State.applyCapture (c : Cmd) (s : State) : State :=
  match freeIndex s.caps 4 with
  | some k => { s with caps := tset none s.caps k (some c.capture) }
  | none => s.complete c ocRefused rsNoBudget

/-- CAPTURE_START (R412-R414). -/
def execCaptureStart (id : Nat) (s : State) : Host.Outcome State Fault Refusal :=
  .next (s.command id 0x00C0 (fun _ => true) checkCapture State.applyCapture)

/-! ### EXCITE and ALIGN -/

/-- EXCITE_START (R415): the frame of the next SFC increment, a multiple of 64, is the first one. -/
def execExciteStart (k : Nat) (s : State) : Host.Outcome State Fault Refusal :=
  .next <| match s.cap k with
  | none => s
  | some x => if x.phase = 0 ∧ !x.exciting ∧ (s.tb.sfc.toNat + 1) % 64 = 0 then s.modCap k (fun x => { x with exciting := true }) else s

/-- The rights of a capture's accesses: its tenant with the present windows. -/
def State.capAgent (s : State) (x : Capture) : Agent := { tenant := some x.tenant, windows := s.windowsOf x.tenant }

/-- A capture whose access the part denies completes with the fault's reason (DEDUCED, log 45). -/
def State.capDenied (k : Nat) (d : Deny) (s : State) : State :=
  (s.noteDeny d).capEnd k (fun _ => { oc := ocFailed, rs := faultReason d.code })

/-- Frames that a capture records (R415). -/
def Capture.recFrames (x : Capture) : Nat := 4800 + x.length
/-- Bytes of the signal and the recording in WORK (R413, R415). -/
def Capture.recBytes (x : Capture) : Nat := 19200 + 8 * x.length
/-- WORK_LEN of a running capture (R413). -/
def Capture.workLen (x : Capture) : Nat := 262144 + 16 * paramCount x.h + x.recBytes

/-- The bytes of frames as INT24 containers. -/
def frameBytes (l : List Int) : List Byte := l.flatMap (fun v => toLe 4 (unsgn 32 v))

/-- Is the traffic of a capture's IOD work, to WORK, held by a bridge that retrains (R29)? -/
def State.capHeld (s : State) (x : Capture) : Bool := s.pathHeld none x.work x.recBytes

/-- EXCITE_END (R415): the recording of LENGTH + 4,800 frames is in WORK, from its start, and the signal behind it (DESIGN CHOICE: the spec gives no
layout of the work area, log 45); the output slot is released. -/
def execExciteEnd (k : Nat) (s : State) : Host.Outcome State Fault Refusal :=
  .next <| match s.cap k with
  | none => s
  | some x =>
    if !x.exciting ∨ x.frame < x.recFrames ∨ s.capHeld x then s
    else match s.access (s.capAgent x) 1 x.work x.recBytes with
    | some d => s.capDenied k d
    | none => (s.devWrite x.work (frameBytes (x.rec_ ++ x.sig))).modCap k (fun x => { x with exciting := false, phase := 1 })

/-- The correlation of a recording with a signal at a lag: the sum of products and the recording's energy (R416). -/
def corrAt (sig rec_ : List Int) (lag : Nat) : Int × Int :=
  (sig.zip (rec_.drop lag)).foldl (fun a e => (a.1 + e.1 * e.2, a.2 + e.2 * e.2)) (0, 0)

/-- Is the normalised correlation `a` above `b` for one signal? -/
def corrAbove (a b : Int × Int) : Bool :=
  if a.2 = 0 then false
  else if b.2 = 0 then 0 < a.1
  else a.1 * a.1.natAbs * b.2 > b.1 * b.1.natAbs * a.2

/-- ALIGN on exact sums (R416): the lag of the largest normalised correlation, the lowest among equals; `none` when ρ is below 0.5 or
the recording's RMS is below −60 dB of full scale 2^23 (log 45). -/
def align (sig rec_ : List Int) : Option Nat :=
  let best := (List.range 4800).foldl (fun (o : Nat × Int × Int) i =>
    let v := corrAt sig rec_ (i + 1)
    if corrAbove v o.2 then (i + 1, v) else o) (0, corrAt sig rec_ 0)
  let es := (sig.map (fun v => v * v)).sum
  let er := (rec_.map (fun v => v * v)).sum
  if best.2.1 ≤ 0 ∨ 4 * best.2.1 * best.2.1 < es * best.2.2 ∨ er * 1000000 < Int.ofNat rec_.length * 2 ^ 46 then none else some best.1

/-- ALIGN_DONE (R416): the lag is found and FIT starts as a BACKGROUND job with free initial weights, or the capture fails. -/
def execAlignDone (k : Nat) (s : State) : Host.Outcome State Fault Refusal :=
  .next <| match s.cap k with
  | none => s
  | some x =>
    if x.phase ≠ 1 then s
    else match align x.sig x.rec_ with
      | none => s.capEnd k (fun _ => { oc := ocFailed, rs := rsCaptureNoReturn })
      | some l =>
        let d := s.draw
        let p := paramCount x.h
        (d.2.modCap k (fun x => { x with
          phase := 2, lag := l, weights := (List.range p).map (fun i => (Config.freeWord d.1 i).setWidth 32),
          mom := List.replicate p 0, var := List.replicate p 0 })).newJob
            { kind := .fit k, tenant := x.tenant, cls := .background, elig := 0 }

/-! ### The optimiser step (R417, R418) -/

/-- The lengths of the parameter tensors W, BIAS, w_o, b_o for a width (R413, R420). -/
def paramLens (h : Nat) : List Nat := [4 * h * (1 + h), 4 * h, h, 1]

/-- The parts of a list of the given lengths. -/
def splitLens {α : Type} : List Nat → List α → List (List α)
  | [], _ => []
  | n :: t, l => l.take n :: splitLens t (l.drop n)

/-- The offsets of a step's segments: multiples of 64 that the generator draws, one draw each, which one being a free value of the draw (log 3). -/
def Capture.offsets (x : Capture) : List Nat :=
  ((List.range x.batch).foldl (fun (a : W64 × List Nat) _ =>
    (rngStep a.1, a.2 ++ [64 * (Config.segStart (rngStep a.1) % ((x.length - x.segLen) / 64 + 1))])) (x.rng, [])).2

/-- A sample as a value, full scale 1 (DESIGN CHOICE, log 45). -/
def sampleV (v : Int) : FV := .fin (v < 0) v.natAbs (-23)

/-- The input of FIT over the segment from an offset: x[t] = signal[t] (R416). -/
def Capture.segIn (x : Capture) (o : Nat) : List FV := (List.range x.segLen).map (fun i => sampleV (x.sig.getD (o + i) 0))
/-- Its target: y[t] = recording[t + L] (R416). -/
def Capture.segTarget (x : Capture) (o : Nat) : List FV := (List.range x.segLen).map (fun i => sampleV (x.rec_.getD (o + i + x.lag) 0))

/-- The loss of a step and the gradients of W, BIAS, w_o and b_o over its segments, in ascending segment and frame order (R413, R417). -/
def Capture.lossGrads (x : Capture) : FV × List (List FV) :=
  let p := splitLens (paramLens x.h) (x.weights.map (fun w => f32 w.toNat))
  let w := p.getD 0 []
  let b := p.getD 1 []
  let wo := p.getD 2 []
  let bo := (p.getD 3 []).getD 0 .nan
  let segs := x.offsets
  let hs := segs.map (fun o => fitRun (x.cell = 1) x.h w b (x.segIn o))
  let yh := List.zipWith (fun o h => List.zipWith (fun xv hv => fitOut wo bo xv hv) (x.segIn o) h) segs hs
  let y := segs.flatMap x.segTarget
  let g := esrGrad yh.flatten y
  let ops := x.weights.flatMap (fun v => toLe 4 v.toNat) ++ segs.flatMap (fun o => (x.segIn o ++ x.segTarget o).flatMap (fun v => toLe 4 (bits32 v)))
  let cell := fun base n => (List.range n).map (fun i => cellGrad ops x.batch x.segLen (base + i))
  (esr yh.flatten y, [cell 0 w.length, cell w.length b.length, denseGrad x.h hs.flatten g, [sumUp g]])

/-- The generator after a step: a draw for each segment, and one for each stochastic conversion of g, m and v (R287, R417). -/
def Capture.rngAfter (x : Capture) : W64 :=
  forN (x.batch + (if x.stochastic then 3 * paramCount x.h else 0)) (fun _ g => rngStep g) x.rng

/-- One optimiser step (R417, R418); the order of the stochastic conversions, and so their values, is free (`d`, log 45). `none` when the step
diverges (R419). -/
def Capture.fitStep (x : Capture) (d : Nat) : Option Capture :=
  let vals := fun (l : List W32) => splitLens (paramLens x.h) (l.map (fun w => f32 w.toNat))
  let lg := x.lossGrads
  let grads := lg.2
  let n := x.step + 1
  let loss : W32 := BitVec.ofNat 32 (bits32 lg.1)
  let outs := (List.range 4).foldr (fun i o => o.bind (fun (a : List W32 × List W32 × List W32) =>
    (adamTensor (at_ x.stochastic 0) (grpSize x.g) (f32 x.lr.toNat) n (fun k j => (Config.freeWord d (2 ^ 41 + (4 * k + i) * 2 ^ 30
      + j)).toNat % 65536) (grads.getD i []) ((vals x.weights).getD i [])
      ((vals x.mom).getD i []) ((vals x.var).getD i [])).map (fun b => (b.1 ++ a.1, b.2.1 ++ a.2.1, b.2.2 ++ a.2.2)))) (some ([], [], []))
  match f32 loss.toNat, outs with
  | .fin _ _ _, some o =>
    some { x with step := n, loss := loss, lossSum := x.lossSum ++ [loss], weights := o.1, mom := o.2.1, var := o.2.2,
                  rng := x.rngAfter }
  | _, _ => none

/-! ### Checkpoints (R420) -/

/-- The mean loss since the previous checkpoint: FP32 sums in step order (DEDUCED, log 45). -/
def Capture.meanLoss (x : Capture) : FV :=
  div32 ((x.lossSum.map (fun w => f32 w.toNat)).foldl add32 (.fin false 0 0)) (ofI (Int.ofNat x.lossSum.length))

/-- The bytes of a checkpoint (Table 17.4) with a VALID byte. -/
def Capture.ckptBytes (x : Capture) (valid : Nat) : List Byte :=
  toLe 4 0xC7A50501 ++ toLe 4 x.step ++ toLe 4 (bits32 x.meanLoss) ++ toLe 1 x.cell ++ toLe 1 valid ++ toLe 2 x.h ++ toLe 4 x.lag ++
  List.replicate 44 0 ++ x.weights.flatMap (fun w => toLe 4 w.toNat)

/-- A checkpoint written to the slot without the lowest loss: VALID = 0, the body, VALID = 1 last; the lowest loss and the count of
consecutive ones above four times it follow (R419, R420). -/
def State.checkpoint (k : Nat) (s : State) : State :=
  match s.cap k with
  | none => s
  | some x =>
    let a := x.ckpt + x.nextSlot * ckptLen x.h
    let s1 := ((s.devWrite (a + 13) [0]).devWrite a (x.ckptBytes 0)).devWrite (a + 13) [1]
    let l : W32 := BitVec.ofNat 32 (bits32 x.meanLoss)
    s1.modCap k (fun x => match x.best with
      | none => { x with lossSum := [], best := some (x.nextSlot, l), badCkpts := 0 }
      | some b =>
        let low := f32 b.2.toNat
        if fltX x.meanLoss low then { x with lossSum := [], best := some (x.nextSlot, l), badCkpts := 0 }
        else { x with lossSum := [], badCkpts := if fltX (mul32 low (ofI 4)) x.meanLoss then x.badCkpts + 1 else 0 })

/-- What the capture reports when its steps have run (R421). -/
def Capture.report (x : Capture) (c : Cmd) : Done :=
  let b := x.best.getD (0, 0)
  { oc := if c.late ≠ 0 then ocLate else ocServed, late := c.late, skipped := c.skipped,
    result := toLe 1 b.1 ++ toLe 4 b.2.toNat ++ toLe 3 0 }

/-- The job that fits capture `k`. -/
def State.fitJob (s : State) (k : Nat) : Option (Nat × Job) :=
  s.jobs.findSome? (fun e => e.2.bind (fun j => if j.kind = .fit k then some (e.1, j) else none))

/-- Is the traffic of a fit held by a bridge that retrains (R29)? -/
def State.fitHeld (s : State) (x : Capture) (j : Job) : Bool :=
  match j.st with
  | .running c => s.pathHeld (some (c / 16)) x.work x.workLen || s.pathHeld (some (c / 16)) x.ckpt (2 * ckptLen x.h)
  | _ => false

/-- FIT ends: its job leaves its core and the capture completes. -/
def State.fitEnd (k : Nat) (d : Cmd → Done) (s : State) : State :=
  (match s.fitJob k with
   | some j => s.endJob j.1 true
   | none => s).capEnd k d

/-- A diverged capture (R419). -/
def diverged : Done := { oc := ocFailed, rs := rsCaptureDiverged }

/-- FIT ends with its last checkpoint (R420-R422): one that this step boundary has already stands for it. -/
def State.fitFinish (k : Nat) (s : State) : State :=
  match s.cap k with
  | none => s
  | some x =>
    let s1 := if x.lossSum.isEmpty then s else s.checkpoint k
    match s1.cap k with
    | none => s1
    | some y => s1.fitEnd k (if 3 ≤ y.badCkpts then fun _ => diverged else y.report)

/-- The CAPTURE_CTRL commands act at a step boundary (R422): STOP ends FIT; PAUSE takes the job off its core, RESUME brings one back. -/
def State.fitBoundary (k : Nat) (s : State) : State :=
  match s.cap k with
  | none => s
  | some x =>
    if x.ctl.any (fun e => e.2 = 3) then s.fitFinish k
    else
      let paused := x.ctl.foldl (fun p e => if e.2 = 1 then true else if e.2 = 2 then false else p) x.paused
      let s1 := (s.modCap k (fun x => { x with paused := paused, ctl := [] }))
      let s2 := match s1.fitJob k with
        | some j => if paused then s1.endJob j.1 true else s1
        | none => if paused then s1 else s1.newJob { kind := .fit k, tenant := x.tenant, cls := .background, elig := 0 }
      s2.serveCtl x.ctl

/-- FIT_STEP (R417-R422, R428): a step of a FIT job that runs on a core. Its training state (R304) goes to the work area, whose layout the
spec does not give (free bytes, log 45). Divergence comes first, then the checkpoint, the end of FIT, and the commands that waited for the
boundary. -/
def execFitStep (k : Nat) (s : State) : Host.Outcome State Fault Refusal :=
  .next <| match s.cap k, s.fitJob k with
  | some x, some j =>
    let onCore : Bool := match j.2.st with | .running _ => true | _ => false
    if x.phase ≠ 2 ∨ x.paused ∨ !onCore ∨ s.fitHeld x j.2 then s
    else match s.access j.2.agent 0 x.work x.workLen,
        s.access j.2.agent 1 x.ckpt (2 * ckptLen x.h) with
    | some d, _ => (s.noteDeny d).failJob j.1 (faultReason d.code) [] 9 true
    | none, some d => (s.noteDeny d).failJob j.1 (faultReason d.code) [] 9 true
    | none, none =>
      let d := s.draw
      match x.fitStep d.1 with
      | none => d.2.fitEnd k (fun _ => diverged)
      | some y =>
        let state := (List.range (x.workLen - x.recBytes)).map (fun i => Config.freeByte d.1 (x.recBytes + i))
        let s1 := (d.2.devWrite (x.work + x.recBytes) state).modCap k (fun _ => y)
        let s2 := if y.step % y.ckptEvery = 0 then s1.checkpoint k else s1
        match s2.cap k with
        | none => s2
        | some z =>
          if 3 ≤ z.badCkpts then s2.fitEnd k (fun _ => diverged)
          else if z.steps ≤ z.step then s2.fitFinish k
          else s2.fitBoundary k
  | _, _ => s

/-! ### CAPTURE_CTRL (R422) -/

/-- The running capture that a CAPTURE_CTRL names. -/
def State.ctlCap (s : State) (c : Cmd) : Option (Nat × Capture) :=
  s.caps.findSome? (fun e => e.2.bind (fun k => (s.cmd k.cmd).bind (fun d =>
    if d.tenant = c.tenant ∧ d.sq = c.p 0 1 ∧ d.tag.toNat = c.p 2 2 then some (e.1, k) else none)))

/-- The checks of CAPTURE_CTRL (R422): its 8 bytes, the capture, a PAUSE during EXCITE. -/
def checkCapCtl (s : State) (c : Cmd) : Option Nat :=
  if c.params.length ≠ 8 ∨ c.p 1 1 ≠ 0 ∨ 3 < c.p 4 1 ∨ c.p 5 3 ≠ 0 then some rsBadParam
  else match s.ctlCap c with
  | none => some rsBadHandle
  | some x => if c.p 4 1 = 1 ∧ x.2.phase = 0 then some rsJobsActive else none

/-- STATUS (R422): phase, STEP, the high 24 bits of the latest loss. -/
def State.applyCapStatus (c : Cmd) (s : State) : State :=
  match s.ctlCap c with
  | none => s.complete c ocRefused rsBadHandle
  | some x => s.served c (toLe 1 x.2.phase ++ toLe 4 x.2.step ++ toLe 3 (x.2.loss.toNat / 256))

/-- PAUSE, RESUME or STOP waits for the next step boundary; a paused FIT stands at one. -/
def State.applyCapCtl (c : Cmd) (s : State) : State :=
  match s.ctlCap c with
  | none => s.complete c ocRefused rsBadHandle
  | some x =>
    let s1 := s.modCap x.1 (fun y => { y with ctl := y.ctl ++ [(c.id, c.p 4 1)] })
    if x.2.paused then s1.fitBoundary x.1 else s1

/-- CAPTURE_CTRL of any OPER. -/
def State.applyCtl (c : Cmd) (s : State) : State := if c.p 4 1 = 0 then s.applyCapStatus c else s.applyCapCtl c

/-- CAPTURE_STATUS (R422); an OPER that Table 17.2's command does not have is refused here. -/
def execCaptureStatus (id : Nat) (s : State) : Host.Outcome State Fault Refusal :=
  .next (s.command id 0x00C1 (fun c => c.p 4 1 = 0 || 3 < c.p 4 1) checkCapCtl State.applyCtl)

/-- CAPTURE_PAUSE (R422). -/
def execCapturePause (id : Nat) (s : State) : Host.Outcome State Fault Refusal :=
  .next (s.command id 0x00C1 (fun c => c.p 4 1 = 1) checkCapCtl State.applyCtl)

/-- CAPTURE_RESUME (R422). -/
def execCaptureResume (id : Nat) (s : State) : Host.Outcome State Fault Refusal :=
  .next (s.command id 0x00C1 (fun c => c.p 4 1 = 2) checkCapCtl State.applyCtl)

/-- CAPTURE_STOP (R422). -/
def execCaptureStop (id : Nat) (s : State) : Host.Outcome State Fault Refusal :=
  .next (s.command id 0x00C1 (fun c => c.p 4 1 = 3) checkCapCtl State.applyCtl)

end Sys2Proof.Machine
end

