-- ==== Sys2Proof/Machine/Camera.lean ====
section
/-!
DEFINITION. The camera (chapter 18): CAMERA_CONFIG (R431-R434), the packets and the camera line counter (R52, R429, R430, R440), the
pipeline stages in integers (R435-R437), the buffer ring with its statistics (R438, R439, R441), and CAM_TRIG (R442).
-/
namespace Sys2Proof.Machine

/-! ### CAMERA_CONFIG -/

/-- The opcode of CAMERA_CONFIG is 0x00D0; its OPER. -/
def Cmd.camOper (c : Cmd) : Nat := c.p 0 1

/-- Table 18.1. -/
def Cmd.cameraOk (c : Cmd) : Bool :=
  let even := fun (v : Nat) => v % 2 == 0
  let trig := bitN (c.p 5 1) 3
  c.params.length == 256 && c.camOper ≤ 2 && (c.p 1 1 == 1 || c.p 1 1 == 2 || c.p 1 1 == 4) && c.p 2 1 ≤ 3 &&
  0x2A ≤ c.p 3 1 && c.p 3 1 ≤ 0x2C && c.p 4 1 ≤ 3 && c.p 5 1 < 32 && (c.p 6 1 == 1 || c.p 6 1 == 2 || c.p 6 1 == 8) &&
  1 ≤ c.p 7 1 && c.p 7 1 ≤ 8 && 16 ≤ c.p 8 2 && c.p 8 2 ≤ 4096 && 16 ≤ c.p 10 2 && c.p 10 2 ≤ 3072 && even (c.p 8 2) &&
  even (c.p 10 2) && even (c.p 12 2) && even (c.p 14 2) && even (c.p 16 2) && even (c.p 18 2) && 2 ≤ c.p 16 2 && 2 ≤ c.p 18 2 &&
  c.p 12 2 + c.p 16 2 ≤ c.p 8 2 && c.p 14 2 + c.p 18 2 ≤ c.p 10 2 && 1 ≤ c.p 20 2 && c.p 20 2 ≤ c.p 16 2 && 1 ≤ c.p 22 2 &&
  c.p 22 2 ≤ c.p 18 2 && c.p 16 2 ≤ 16 * c.p 20 2 && c.p 18 2 ≤ 16 * c.p 22 2 && c.p 24 1 ≤ 1 &&
  (if trig then 1 ≤ c.p 25 1 && 1 ≤ c.p 28 2 && c.p 28 2 ≤ 1000 else c.p 25 1 == 0 && c.p 28 2 == 0) && c.p 30 2 == 0 &&
  c.p 32 8 % 64 == 0 && c.p 32 8 < 2 ^ 40 && (List.range 4).all (fun i => c.p (40 + 2 * i) 2 ≤ 4095) && c.p 54 2 == 0 &&
  c.p 74 2 == 0 && zerosAt c.params 206 50

/-- The configuration of a CAMERA_CONFIG (Table 18.1). -/
def Cmd.camCfg (c : Cmd) : CamCfg :=
  { lanes := c.p 1 1, vc := BitVec.ofNat 2 (c.p 2 1), dt := BitVec.ofNat 6 (c.p 3 1), cfa := c.p 4 1, flags := BitVec.ofNat 8 (c.p 5 1),
    outFmt := c.p 6 1, nbuf := c.p 7 1, inW := c.p 8 2, inH := c.p 10 2, cropX := c.p 12 2, cropY := c.p 14 2, cropW := c.p 16 2,
    cropH := c.p 18 2, outW := c.p 20 2, outH := c.p 22 2, bilinear := c.p 24 1 = 1, trigCycles := c.p 25 1, trigPhase := c.p 26 2,
    trigWidth := c.p 28 2, outBase := c.p 32 8, black := (List.range 4).map (fun i => c.p (40 + 2 * i) 2),
    wb := (List.range 3).map (fun i => c.p (48 + 2 * i) 2), matrix := (List.range 9).map (fun i => sgn 16 (c.p (56 + 2 * i) 2)),
    gamma := (List.range 65).map (fun i => c.p (76 + 2 * i) 2) }

/-- What an UPDATE may not change (R432 step 6). -/
def CamCfg.fixed (g : CamCfg) : CamCfg := { g with flags := g.flags &&& 0xB, black := [], wb := [], matrix := [], gamma := [] }

/-- The checks of CAMERA_CONFIG in the order of R432. -/
def checkCamera (s : State) (c : Cmd) : Option Nat :=
  let g := c.camCfg
  if !c.cameraOk then some rsBadParam
  else if g.trig && !s.rev2 then some rsUnsupported
  else if !s.paramRw c.tenant g.outBase (g.nbuf * g.bs) then some rsMemWindow
  else if c.camOper = 0 then (if s.cam.running then some rsJobsActive else none)
  else if !s.cam.running || s.cam.owner.toNat ≠ c.tenant then some rsBadHandle
  else if c.camOper = 2 ∧ g.fixed ≠ s.cam.cfg.fixed then some rsBadParam
  else none

/-- The first trigger compare: the first MPC value after now at phase TRIG_PHASE (R442). -/
def firstTrig (now phase : Nat) : Nat :=
  let v := now / 65536 * 65536 + phase
  if now < v then v else v + 65536

/-- START (R433, R442): the pipeline runs from the next frame start; while the MPC holds after mains loss no pulse comes. -/
def State.camStart (c : Cmd) (s : State) : State :=
  let g := c.camCfg
  let s1 := { s with cam.running := true, cam.owner := BitVec.ofNat 10 c.tenant, cam.cfg := g, cam.seq := 0, cam.buf := 0,
                     cam.frame := none, cam.output := [], cam.history := [], cam.restart := false, cam.stopping := [] }
  let s2 := if g.trig then
      (let t := s1.arm .mpc (firstTrig s1.tb.mpc.toNat g.trigPhase) .trig
       if s.tb.mpcMode = .hold then t.errCam 5 else t)
    else s1
  s2.served c []

/-- STOP (R433, R446): no later frame starts; it completes once the pipeline is idle. -/
def State.camStop (c : Cmd) (s : State) : State := { s with cam.stopping := s.cam.stopping ++ [c.id] }.camIdle

/-- UPDATE (R433, R445): the tables and the two flags of every frame that starts from now on. -/
def State.camUpdate (c : Cmd) (s : State) : State :=
  let g := c.camCfg
  let s1 := { s with cam.cfg := { s.cam.cfg with black := g.black, wb := g.wb, matrix := g.matrix, gamma := g.gamma, flags := g.flags } }
  s1.served c []

/-- CAMERA_CONFIG of any OPER. -/
def State.applyCamera (c : Cmd) (s : State) : State :=
  if c.camOper = 0 then s.camStart c else if c.camOper = 1 then s.camStop c else s.camUpdate c

/-- CAMERA_START (R432, R433); an OPER that Table 18.1 does not have is refused here. -/
def execCameraStart (id : Nat) (s : State) : Host.Outcome State Fault Refusal :=
  .next (s.command id 0x00D0 (fun c => c.camOper = 0 || 2 < c.camOper) checkCamera State.applyCamera)

/-- CAMERA_STOP (R432, R433). -/
def execCameraStop (id : Nat) (s : State) : Host.Outcome State Fault Refusal :=
  .next (s.command id 0x00D0 (fun c => c.camOper = 1) checkCamera State.applyCamera)

/-- CAMERA_UPDATE (R432, R433). -/
def execCameraUpdate (id : Nat) (s : State) : Host.Outcome State Fault Refusal :=
  .next (s.command id 0x00D0 (fun c => c.camOper = 2) checkCamera State.applyCamera)

/-- The frame being received is dropped, with a bit of CAM_ERR (R440). -/
def State.camLose (e : Nat) (s : State) : State := (s.camLost.errCam e).camIdle

/-! ### Packets (R52, R429, R440) -/

/-- The CLC takes a new value (R52); a frame start skips the lines that did not come. -/
def State.clcTo (f l : W16) (jump : Bool) (s : State) : State :=
  { s with tb.clcFrame := f, tb.clcLine := l }.mark .clc (!jump) jump

/-- A frame-start packet of the selected channel: the frame takes the configuration and the time stamps of now, and VALID of its buffer
is cleared before the first write (R433, R439, R446). An unfinished frame does not match IN_H and is dropped (DEDUCED, log 46). -/
def State.frameStart (s : State) : State :=
  if !s.cam.stopping.isEmpty then s
  else
    let s0 := if s.cam.frame.isSome then s.camLose 2 else s
    let g := s0.cam.cfg
    let ok : Bool := s0.rev2 && (s0.tb.mpcLock || s0.tb.mpcMode == .freewheel)
    let clc : W32 := BitVec.ofNat 32 (s0.tb.clcFrame.toNat * 65536)
    let w := s0.camWrite (s0.camFlagAt s0.cam.output.length) [0]
    if w.2 then { w.1 with cam.restart := false, cam.frame := some {
      cfg := g, clc := clc, sfc := s0.tb.sfc, mpc := if ok then s0.tb.mpc else 0, mpcValid := ok, restart := s0.cam.restart } }
    else w.1.camDrop

/-- CSI_FRAME_START (R52, R430, R433): while the receiver is on. -/
def execCsiFrameStart (vc : BitVec 2) (s : State) : Host.Outcome State Fault Refusal :=
  .next <|
  if !s.cam.running then s
  else
    let s1 := if vc.toNat = fld s.tb.ctrl 6 2 then s.clcTo (s.tb.clcFrame + 1) 0 true else s
    if vc = s.cam.cfg.vc then s1.frameStart else s1

/-- CSI_LINE_START (R52). -/
def execCsiLineStart (vc : BitVec 2) (s : State) : Host.Outcome State Fault Refusal :=
  .next (if s.cam.running ∧ vc.toNat = fld s.tb.ctrl 6 2 ∧ bit s.tb.ctrl 8 = false then
    s.clcTo s.tb.clcFrame (s.tb.clcLine + 1) false else s)

/-- A long packet of pixels of the selected channel (R440). -/
def State.pixelLine (dt : BitVec 6) (pix : List Nat) (crcOk : Bool) (lineRc : Nat) (behind : Bool) (s : State) : State :=
  match s.cam.frame with
  | none => s
  | some f =>
    if dt ≠ f.cfg.dt then { s with cam.pktDrop := satInc s.cam.pktDrop }
    else
      let s1 := if crcOk then s else s.errCam 1
      if pix.length ≠ f.cfg.inW then s1.camLose 2
      else if behind then s1.camLose 3
      else { s1 with cam.frame := some { f with
        lines := f.lines ++ [pix], lineRc := lineRc, repaired := if crcOk then f.repaired else f.repaired ++ [f.lines.length] } }

/-- Is a data type one that the receiver discards (R429): neither pixels, a frame or line packet, a generic short packet nor embedded data? -/
def dtDiscarded (d : Nat) : Bool := !(d ≤ 3 || (8 ≤ d && d ≤ 0xF) || d == 0x12 || (0x2A ≤ d && d ≤ 0x2C))

/-- A packet of a discarded type on the selected channel counts (R429, R430). -/
def State.camOther (vc : BitVec 2) (dt : BitVec 6) (s : State) : State :=
  if vc = s.cam.cfg.vc ∧ dtDiscarded dt.toNat then { s with cam.pktDrop := satInc s.cam.pktDrop } else s

/-- CSI_LONG_PACKET (R52, R429, R430, R440): `pix` the pixel values, `lineRc` the measured line period, `behind` whether the output has
fallen more than 8 lines behind. -/
def execCsiLongPacket (vc : BitVec 2) (dt : BitVec 6) (pix : List Nat) (crcOk : Bool) (lineRc : Nat) (behind : Bool) (s : State) :
    Host.Outcome State Fault Refusal :=
  .next <|
  if !s.cam.running then s
  else
    let s1 := if vc.toNat = fld s.tb.ctrl 6 2 ∧ bit s.tb.ctrl 8 = true then s.clcTo s.tb.clcFrame (s.tb.clcLine + 1) false else s
    if dt.toNat < 0x2A ∨ 0x2C < dt.toNat then s1.camOther vc dt
    else if vc = s.cam.cfg.vc then s1.pixelLine dt pix crcOk lineRc behind else s1

/-- CSI_FRAME_END (R440): a frame of IN_H lines goes to the output; one without its start is ignored. -/
def execCsiFrameEnd (vc : BitVec 2) (s : State) : Host.Outcome State Fault Refusal :=
  .next <| match s.cam.frame with
  | none => s
  | some f =>
    if !s.cam.running ∨ vc ≠ f.cfg.vc then s
    else if f.lines.length ≠ f.cfg.inH then s.camLose 2
    else { s with cam.frame := none, cam.output := s.cam.output ++ [f] }

/-- CSI_OTHER_PACKET (R429, R430): an uncorrectable header discards the packet; a corrected one counts, and a packet that the part receives
then comes as its own command; generic short packets and embedded data are ignored, any other data type of the selected channel is discarded.
None of them advances the CLC line (R52; DEDUCED, log 124). -/
def execCsiOtherPacket (vc : BitVec 2) (dt : BitVec 6) (ecc : EccResult) (s : State) : Host.Outcome State Fault Refusal :=
  .next <|
  if !s.cam.running then s
  else match ecc with
    | .uncorrectable => s.errCam 0
    | .corrected => ({ s with cam.eccCorr := satInc s.cam.eccCorr } : State).camOther vc dt
    | .good => s.camOther vc dt

/-- CSI_LANE_STATE_CHANGE (R429, Table 18.4): while the receiver is on. -/
def execCsiLaneStateChange (lanes : BitVec 4) (clk : Bool) (s : State) : Host.Outcome State Fault Refusal :=
  .next (if s.cam.running then { s with cam.lanesHs := lanes, cam.clkActive := clk } else s)

/-- CSI_DESKEW (R429, Table 18.4): a deskew pattern has been followed. -/
def execCsiDeskew (s : State) : Host.Outcome State Fault Refusal :=
  .next (if s.cam.running then { s with cam.deskew := true } else s)

/-! ### The pipeline (R435-R437) -/

/-- The least, the greatest of a number and 0 … 4,095. -/
def clamp12 (v : Int) : Nat := (max 0 (min 4095 v)).toNat

/-- A coordinate clamped into the frame (section 18.3). -/
def clampTo (v : Int) (n : Nat) : Nat := (max 0 (min (Int.ofNat n - 1) v)).toNat

/-- A mean of a list rounded half up. -/
def meanUp (l : List Int) : Int := (2 * l.sum + Int.ofNat l.length) / (2 * Int.ofNat l.length)

/-- The pixel after normalisation and black level (R435 steps 1 and 2); outside the frame the value of the nearest pixel inside. -/
def CamFrame.raw (f : CamFrame) (y x : Int) : Int :=
  let g := f.cfg
  let cy := clampTo y g.inH
  let cx := clampTo x g.inW
  let v := nthN (f.lines.getD cy []) cx
  let n := if g.dt = 0x2A then v * 16 else if g.dt = 0x2B then v * 4 else v
  max 0 (Int.ofNat n - Int.ofNat (nthN g.black ((cy % 2) * 2 + cx % 2)))

/-- The colour of a site: 0 R, 1 G, 2 B (Table 18.1, CFA). -/
def siteColour (cfa : Nat) (y x : Int) : Nat :=
  let p := (y % 2 * 2 + x % 2).toNat
  let q := if cfa = 0 then p else if cfa = 1 then p ^^^ 1 else if cfa = 2 then p ^^^ 2 else 3 - p
  if q = 0 then 0 else if q = 3 then 2 else 1

/-- G at a site (R435 step 3). -/
def CamFrame.green (f : CamFrame) (y x : Int) : Int :=
  if siteColour f.cfg.cfa y x = 1 then f.raw y x
  else
    let l := f.raw y (x - 1)
    let r := f.raw y (x + 1)
    let u := f.raw (y - 1) x
    let d := f.raw (y + 1) x
    if (l - r).natAbs < (u - d).natAbs then meanUp [l, r]
    else if (u - d).natAbs < (l - r).natAbs then meanUp [u, d] else meanUp [l, r, u, d]

/-- R (0) or B (2) at a site: G plus the mean colour difference at the nearest two or four sites of that colour (R435 step 3). -/
def CamFrame.colour (f : CamFrame) (k : Nat) (y x : Int) : Int :=
  let cfa := f.cfg.cfa
  if siteColour cfa y x = k then f.raw y x
  else
    let near : List (Int × Int) :=
      if siteColour cfa y x = 1 then
        (if siteColour cfa y (x + 1) = k then [(y, x - 1), (y, x + 1)] else [(y - 1, x), (y + 1, x)])
      else [(y - 1, x - 1), (y - 1, x + 1), (y + 1, x - 1), (y + 1, x + 1)]
    Int.ofNat (clamp12 (f.green y x + meanUp (near.map (fun p => f.raw p.1 p.2 - f.green p.1 p.2))))

/-- Gamma (R435 step 6). -/
def CamCfg.gammaOf (g : CamCfg) (v : Nat) : Nat :=
  (nthN g.gamma (v / 64) * (64 - v % 64) + nthN g.gamma (v / 64 + 1) * (v % 64) + 32) / 64

/-- R, G and B of a pixel after gamma (R435 steps 1 to 6). -/
def CamFrame.rgb (f : CamFrame) (y x : Nat) : List Nat :=
  let g := f.cfg
  let yy := Int.ofNat y
  let xx := Int.ofNat x
  let c := [f.colour 0 yy xx, f.green yy xx, f.colour 2 yy xx]
  let w := (List.range 3).map (fun i => min 4095 ((nthI c i * Int.ofNat (nthN g.wb i) + 2048) / 4096))
  (List.range 3).map (fun i =>
    g.gammaOf (clamp12 (((List.range 3).map (fun j => nthI g.matrix (3 * i + j) * nthI w j)).sum + 2048 |> (· / 4096))))

/-- A pixel of the output of gamma, with the lines of a failed CRC replaced by the previous output line, zero for line 0 (R440). -/
def CamFrame.pixel (f : CamFrame) : Nat → Nat → List Nat
  | 0, x => if f.repaired.contains 0 then [0, 0, 0] else f.rgb 0 x
  | y + 1, x => if f.repaired.contains (y + 1) then f.pixel y x else f.rgb (y + 1) x

/-- Luma (R435 step 8). -/
def lumaOf (p : List Nat) : Nat := (19595 * nthN p 0 + 38470 * nthN p 1 + 7471 * nthN p 2 + 32768) / 65536

/-- The crop after gamma (R435 step 7): rows of pixels. -/
def CamFrame.crop (f : CamFrame) : List (List (List Nat)) :=
  (List.range f.cfg.cropH).map (fun y => (List.range f.cfg.cropW).map (fun x => f.pixel (f.cfg.cropY + y) (f.cfg.cropX + x)))

/-- The source coordinate of the bilinear scaler (R436): lower index, upper index, weight in 1/256, truncated. -/
def scaleCoord (y out n : Nat) : Nat × Nat × Nat :=
  let num : Int := Int.ofNat ((2 * y + 1) * n) - Int.ofNat out
  let hi : Int := Int.ofNat (2 * out * (n - 1))
  let t := (max 0 (min hi num)).toNat
  (t / (2 * out), Nat.min (t / (2 * out) + 1) (n - 1), t % (2 * out) * 256 / (2 * out))

/-- The scaler on one channel (R436): `px` a value of the crop. -/
def CamCfg.scale (g : CamCfg) (px : Nat → Nat → Nat) (y x : Nat) : Nat :=
  if !g.bilinear then px (y * g.cropH / g.outH) (x * g.cropW / g.outW)
  else
    let a := scaleCoord y g.outH g.cropH
    let b := scaleCoord x g.outW g.cropW
    let mix := fun t p q => (256 - t) * p + t * q
    (rneDiv (Int.ofNat (mix a.2.2 (mix b.2.2 (px a.1 b.1) (px a.1 b.2.1)) (mix b.2.2 (px a.2.1 b.1) (px a.2.1 b.2.1)))) 65536).toNat

/-- v / 65,535 as an exact value for one rounding: 40 fraction bits and a sticky bit. -/
def unitOf (v : Nat) : FV := .fin false (2 * (v * 2 ^ 40 / 65535) + (if v * 2 ^ 40 % 65535 = 0 then 0 else 1)) (-41)

/-- An output element (R437). -/
def CamCfg.outElem (g : CamCfg) (v : Nat) : List Byte :=
  if g.outFmt = 8 then toLe 2 (convert 8 0 0 (unitOf v)).1
  else
    let u := rneDiv (Int.ofNat v) 257
    toLe 1 (unsgn 8 (if g.outFmt = 1 then u - 128 else u))

/-- The tensor (R437): channel-innermost, or planar. -/
def CamFrame.tensor (f : CamFrame) : List Byte :=
  let g := f.cfg
  let crop := f.crop
  let px := fun (c y x : Nat) =>
    let p := (crop.getD y []).getD x []
    if g.luma then lumaOf p else nthN p c
  let cs := List.range (if g.luma then 1 else 3)
  let el := fun y x c => g.outElem (g.scale (px c) y x)
  if bit g.flags 1 then cs.flatMap (fun c => (List.range g.outH).flatMap (fun y => (List.range g.outW).flatMap (fun x => el y x c)))
  else (List.range g.outH).flatMap (fun y => (List.range g.outW).flatMap (fun x => cs.flatMap (fun c => el y x c)))

/-! ### Statistics and headers (R438, R439, R441) -/

/-- A histogram of `n` bins of values by `bin`. -/
def histogram (n : Nat) (bin : Nat → Nat) (l : List Nat) : List Byte :=
  (List.range n).flatMap (fun k => toLe 4 (l.filter (fun v => bin v == k)).length)

/-- The row means of the luma of a crop, times its width, which the flicker estimate is made of (R441). -/
def rowSums (crop : List (List (List Nat))) : List Nat := crop.map (fun r => (r.map lumaOf).sum)

/-- FLK_DEPTH (Table 18.3): peak-to-peak over mean of the row means, in %, saturating at 100; how a fraction is rounded and the depth of rows that
are all zero are free values (log 3). -/
def flickerDepth (rows : List Nat) : Nat :=
  let total := rows.sum
  let num := 100 * rows.length * (rows.foldl Nat.max 0 - rows.foldl Nat.min total)
  Nat.min 100 (if total = 0 then (Config.flicker rows 1).toNat
    else num / total + (if num % total = 0 then 0 else (Config.flicker rows 1).toNat % 2))

/-- The flicker fields (Table 18.3, R441) of the current frame and the three before it: the depth, and estimates that are free values (log 3) within
what the spec says of them. -/
def flickerFields (rows : List Nat) : List Byte :=
  let depth := flickerDepth rows
  toLe 1 (if depth < 2 then 0 else (Config.flicker rows 0).toNat % 3) ++ toLe 1 depth ++
  [Config.flicker rows 2, Config.flicker rows 3, Config.flicker rows 4]

/-- The statistics block (Table 18.3). -/
def CamFrame.stats (f : CamFrame) (history : List (List Nat)) : List Byte :=
  let px := f.crop.flatten
  let chan := fun c => px.map (fun p => nthN p c)
  let rows := (history ++ [rowSums f.crop]).flatten
  (if bit f.cfg.flags 4 then
      histogram 64 (· / 1024) (px.map lumaOf) ++ (List.range 3).flatMap (fun c => histogram 16 (· / 4096) (chan c))
    else List.replicate 448 0) ++
  (if bit f.cfg.flags 2 then flickerFields rows else List.replicate 5 0) ++ List.replicate 3 0 ++ toLe 4 f.lineRc ++ List.replicate 52 0

/-- The buffer header (Table 18.2). -/
def CamFrame.header (f : CamFrame) (seq : Nat) : List Byte :=
  toLe 4 seq ++ toLe 4 f.clc.toNat ++ toLe 6 f.sfc.toNat ++ toLe 2 0 ++ toLe 4 (f.mpc.toNat / 65536) ++ toLe 2 (f.mpc.toNat % 65536) ++
  toLe 1 (1 + at_ (!f.repaired.isEmpty) 1 + at_ f.mpcValid 2) ++ List.replicate 41 0

/-- FRAME_OUTPUT_DONE (R438-R441): the oldest finished frame's statistics and tensor, then its header with VALID; a write that faults, or whose
target die is not UP, drops the frame, and the next one takes its buffer. The flicker estimate restarts with the frame after a dropped one. -/
def execFrameOutputDone (s : State) : Host.Outcome State Fault Refusal :=
  .next <| match s.cam.output with
  | [] => s
  | f :: rest =>
    let a := f.cfg.outBase + s.cam.buf * f.cfg.bs
    let past := if f.restart then [] else s.cam.history
    let s0 := { s with cam.output := rest }
    let w1 := s0.camWrite (a + 22) [0]
    let w2 := if w1.2 then w1.1.camWrite (a + 64) (f.stats past ++ f.tensor) else w1
    let seq := s.cam.seq + 1
    let w3 := if w2.2 then w2.1.camWrite a (f.header seq.toNat) else w2
    if w3.2 then
      { w3.1 with cam.seq := seq, cam.lastSeq := seq, cam.buf := (s.cam.buf + 1) % Nat.max 1 f.cfg.nbuf,
                  cam.history := (past ++ [rowSums f.crop]).drop (past.length + 1 - 3) }.camIdle
    else { w3.1 with cam.frameDrop := satInc w3.1.cam.frameDrop, cam.history := [] }.camIdle

/-! ### CAM_TRIG (R442, R447) -/

/-- A trigger compare fires: one pulse starts and the next compare follows TRIG_CYCLES cycles on. While the MPC holds it waits, with TRIG_STALL. -/
def State.trigFire (target : Nat) (s : State) : State :=
  if s.cam.running && s.cam.cfg.trig then
    if s.tb.mpcMode = .hold then
      ({ s with tb.compares := s.tb.compares ++ [{ tb := Timebase.mpc, target := BitVec.ofNat 48 target, owner := Owner.trig }] } : State).errCam 5
    else { s with cam.trigHigh := true }.arm .mpc (target + s.cam.cfg.trigCycles * 65536) .trig
  else s

/-- TRIG_PULSE_END (R442): after TRIG_WIDTH µs. -/
def execTrigPulseEnd (s : State) : Host.Outcome State Fault Refusal := .next { s with cam.trigHigh := false }

end Sys2Proof.Machine
end

