-- ==== Sys2Proof/Machine/Intake.lean ====
section
/-!
DEFINITION. The intake engine (chapter 19): INTAKE_SUBMIT (R449, R450), the sample checks in the order of Table 19.5 (R454-R456), packed
tensors (R455), augmentation (R453), packing and batching (R451, R452), the corruption policies and reports (R457, R458), completion
(R459), suspension (R460) and memory faults (R461).
-/
namespace Sys2Proof.Machine

/-! ### INTAKE_SUBMIT (Table 19.1) -/

/-- MODE is PACK. -/
def Cmd.itPack (c : Cmd) : Bool := c.p 0 1 == 0
/-- KIND is audio. -/
def Cmd.itAudio (c : Cmd) : Bool := c.p 1 1 == 0
/-- OUT_FMT. -/
def Cmd.itFmt (c : Cmd) : Nat := c.p 3 1
/-- Bytes of an output element. -/
def Cmd.itElem (c : Cmd) : Nat := fmtBits c.itFmt / 8
/-- Bytes of a frame or a pixel of CH channels. -/
def Cmd.itFrame (c : Cmd) : Nat := c.p 48 1 * c.itElem
/-- Frames (or pixels) of an output row. -/
def Cmd.itRowLen (c : Cmd) : Nat := if c.itAudio then c.p 40 4 else c.p 44 2 * c.p 46 2
/-- Bytes of an output row. -/
def Cmd.itRow (c : Cmd) : Nat := c.itRowLen * c.itFrame
/-- Bytes of OUT. -/
def Cmd.itOut (c : Cmd) : Nat := c.p 6 2 * c.itRow

/-- Table 19.1; what MODE and KIND do not use is zero. -/
def Cmd.intakeOk (c : Cmd) : Bool :=
  let f := c.itFmt
  let addr := fun o => c.p o 8 < 2 ^ 40
  c.params.length == 64 && c.p 0 1 ≤ 1 && c.p 1 1 ≤ 1 && c.p 2 1 ≤ 2 && (!c.itPack || (c.itAudio && c.p 2 1 == 0)) &&
  (f == 1 || f == 8 || f == 9 || f == 0xA || (if c.itAudio then f == 3 || f == 4 else f == 2)) &&
  1 ≤ c.p 4 2 && 1 ≤ c.p 6 2 && addr 8 && c.p 8 8 % 32 == 0 && addr 16 && c.p 16 8 % 64 == 0 && addr 24 && addr 32 &&
  c.p 32 8 % 16 == 0 && (c.itAudio || c.p 24 8 == 0) &&
  (if c.itAudio then 1 ≤ c.p 40 4 && c.p 40 4 ≤ 2 ^ 20 && c.p 44 4 == 0 && 1 ≤ c.p 48 1 && c.p 48 1 ≤ 16
   else c.p 40 4 == 0 && 1 ≤ c.p 44 2 && c.p 44 2 ≤ 4096 && 1 ≤ c.p 46 2 && c.p 46 2 ≤ 4096 && (c.p 48 1 == 1 || c.p 48 1 == 3)) &&
  c.p 49 3 == 0 && zerosAt c.params 56 8

/-- LIST, then the ranges written. -/
def Cmd.intakeRanges (c : Cmd) : List (Nat × Nat) := (c.p 8 8, 32 * c.p 4 2) :: c.intakeOut

/-- Do any two of some ranges overlap? -/
def anyOverlap : List (Nat × Nat) → Bool
  | [] => false
  | r :: t => (r.2 ≠ 0 && t.any (fun q => q.2 ≠ 0 && overlap r q)) || anyOverlap t

/-- The checks of INTAKE_SUBMIT (R450). -/
def checkIntake (s : State) (c : Cmd) : Option Nat :=
  let ok := s.paramOk c.tenant
  if !c.intakeOk || anyOverlap c.intakeRanges then some rsBadParam
  else if !ok 0 (c.p 8 8, 32 * c.p 4 2) || !c.intakeOut.all (ok 1) then some rsMemWindow
  else none

/-- INTAKE_SUBMIT takes effect: it waits for the engine; an INTERACTIVE one that waits is DEFERRED (R460). -/
def State.applyIntake (c : Cmd) (s : State) : State :=
  let s1 : State := { s with
    itk.waiting := s.itk.waiting ++ [{ cmd := c.id, cls := c.cls, elig := s.sch.nextElig }], sch.nextElig := s.sch.nextElig + 1 }
  let s2 := s1.intakeNext
  if c.cls = .interactive ∧ s2.itk.run.all (fun r => r.cmd ≠ c.id) then s2.modCmd c.id (fun d => { d with deferred := true }) else s2

/-- INTAKE_SUBMIT (R449, R450). -/
def execIntakeSubmit (id : Nat) (s : State) : Host.Outcome State Fault Refusal :=
  .next (s.command id 0x00B0 (fun _ => true) checkIntake State.applyIntake)

/-! ### Samples (R453-R456) -/

/-- A sample descriptor (Table 19.2). -/
structure Sample where
  addr : Nat
  len : Nat
  fmt : Nat
  flags : Nat
  ch : Nat
  zero : Nat
  d0 : Nat
  d1 : Nat
  aug : Nat
  deriving DecidableEq, Repr

/-- The descriptor that 32 bytes hold. -/
def sampleOf (b : List Byte) : Sample :=
  { addr := leAt b 0 8, len := leAt b 8 4, fmt := leAt b 12 1, flags := leAt b 13 1, ch := leAt b 14 1, zero := leAt b 15 1,
    d0 := leAt b 16 4, d1 := leAt b 20 4, aug := leAt b 24 8 }

/-- PACKED. -/
def Sample.packed (x : Sample) : Bool := bitN x.flags 0
/-- AUG. -/
def Sample.hasAug (x : Sample) : Bool := bitN x.flags 1

/-- A source format that Table 19.2 allows. -/
def srcFmtOk (audio : Bool) (f : Nat) : Bool := if audio then f == 3 || f == 4 || f == 0xA else f == 2 || f == 8

/-- The tokens of a payload (R455): elements of `e` bytes, at most `limit` in all; `none` where the payload runs out inside a token or
overshoots. The first argument bounds the recursion. -/
def rleDecode (e : Nat) : Nat → Nat → List Byte → Option (List Nat)
  | 0, _, b => if b = [] then some [] else none
  | n + 1, limit, b =>
    match b with
    | [] => some []
    | c :: t =>
      if c.toNat < 0x80 then
        let k := c.toNat + 1
        if t.length < k * e ∨ limit < k then none
        else (rleDecode e n (limit - k) (t.drop (k * e))).map ((List.range k).map (fun i => leAt t (i * e) e) ++ ·)
      else
        let k := c.toNat - 0x7F
        if t.length < e ∨ limit < k then none
        else (rleDecode e n (limit - k) (t.drop e)).map (List.replicate k (leAt t 0 e) ++ ·)

/-- Running sums modulo 2^w (DELTA_RLE, R455). -/
def integrate (w : Nat) : Nat → List Nat → List Nat
  | _, [] => []
  | a, v :: t => (a + v) % 2 ^ w :: integrate w ((a + v) % 2 ^ w) t

/-- What a sample holds: its frames (or W and H), its raw elements, and the first reason of Table 19.5 that makes it corrupt (0: none);
`late` says that its only failing checks come after output is written (R456). -/
structure Parsed where
  n : Nat := 0
  w : Nat := 0
  h : Nat := 0
  fmt : Nat := 0
  raws : List Nat := []
  rec_ : List Byte := []
  reason : Nat := 0
  late : Bool := false
  deriving DecidableEq, Repr

/-- An FP32 word that is finite. -/
def finite32 (w : Nat) : Bool := match f32 w with
  | .fin _ _ _ => true
  | _ => false

/-- Crop width and height of an image with a record (Table 19.3). -/
def cropOf (aug : Bool) (b : List Byte) (w h : Nat) : Nat × Nat :=
  if !aug then (w, h) else (if leAt b 4 2 = 0 then w else leAt b 4 2, if leAt b 6 2 = 0 then h else leAt b 6 2)

/-- Table 19.3 for audio of `n` frames. -/
def audioAugOk (b : List Byte) (n : Nat) : Bool :=
  let sh := sgn 32 (leAt b 4 4)
  finite32 (leAt b 0 4) && -(Int.ofNat n) < sh && sh < Int.ofNat n && leAt b 8 2 + leAt b 10 2 ≤ n && leAt b 12 1 ≤ 1 && zerosAt b 13 3

/-- Table 19.3 for an image. -/
def imageAugOk (b : List Byte) (w h : Nat) : Bool :=
  let c := cropOf true b w h
  leAt b 0 2 + c.1 ≤ w && leAt b 2 2 + c.2 ≤ h && leAt b 8 1 ≤ 3 && zerosAt b 9 3 && finite32 (leAt b 12 4) &&
  !(fltX (f32 (leAt b 12 4)) (.fin false 0 0))

/-- A sample read and checked (R454-R456), by reads `rd` and window checks `ok`. -/
def Sample.parse (x : Sample) (c : Cmd) (ok : Nat → Nat → Bool) (rd : Nat → Nat → List Byte) : Parsed :=
  let audio := c.itAudio
  if !ok x.addr x.len || (x.hasAug && !ok x.aug 16) then { reason := 1 }
  else
    let hd := rd x.addr (Nat.min x.len 32)
    let rec_ := if x.hasAug then rd x.aug 16 else []
    let codec := leAt hd 4 1
    let fmt := if x.packed then leAt hd 5 1 else x.fmt
    let plen := leAt hd 20 4
    let dims := [leAt hd 8 4, leAt hd 12 4, leAt hd 16 4]
    let count := if audio then nthN dims 0 * nthN dims 1 else nthN dims 0 * nthN dims 1 * nthN dims 2
    let badCodec : Bool := x.packed && (x.len ≠ 32 + plen || leAt hd 0 4 ≠ 0xC7A50C01 || !(codec == 1 || codec == 2) ||
      (codec == 2 && !fmtInt fmt) || leAt hd 6 1 ≠ (if audio then 2 else 3) || leAt hd 7 1 ≠ 0 || (audio && nthN dims 2 ≠ 0) ||
      plen == 0 || !zerosAt hd 24 8)
    let badDim : Bool := x.packed && (plen * 64 < count || c.itOut < count * c.itElem)
    let e := fmtBits fmt / 8
    let n := if x.packed then nthN dims 1 else x.d0
    let w := if x.packed then nthN dims 1 else x.d0
    let h := if x.packed then nthN dims 2 else x.d1
    let elems := x.ch * (if audio then x.d0 else x.d0 * x.d1)
    let badFmt : Bool := !srcFmtOk audio x.fmt || !srcFmtOk audio fmt || x.ch ≠ c.p 48 1 || (x.packed && nthN dims 0 ≠ c.p 48 1) ||
      3 < x.flags || x.zero ≠ 0 || (!x.hasAug && x.aug ≠ 0) ||
      (if x.packed then x.d0 ≠ 0 || x.d1 ≠ 0 else (audio && x.d1 ≠ 0) || x.len ≠ elems * (fmtBits x.fmt / 8))
    let decoded : Option (List Nat) :=
      if badCodec || badDim then some []
      else if x.packed then
        (match rleDecode e plen count (rd (x.addr + 32) plen) with
         | some l => if l.length = count then some (if codec = 2 then integrate (fmtBits fmt) 0 l else l) else none
         | none => none)
      else if badFmt then some []
      else some ((List.range (x.len / Nat.max 1 e)).map (fun i => leAt (rd (x.addr + i * e) e) 0 e))
    let crop := cropOf x.hasAug rec_ w h
    let badShape : Bool := !audio && (crop.1 ≠ c.p 46 2 || crop.2 ≠ c.p 44 2)
    let badAug : Bool := x.hasAug && !(if audio then audioAugOk rec_ n else imageAugOk rec_ w h)
    let long : Bool := c.itPack && c.p 40 4 < n
    let reason := if badCodec then 2 else if badDim then 3 else if decoded.isNone then 4 else if badFmt then 5 else if badShape then 6
      else if badAug then 7 else if long then 8 else 0
    { n := n, w := w, h := h, fmt := fmt, raws := decoded.getD [], rec_ := rec_, reason := reason,
      late := (reason == 4 || reason == 6) && !badFmt && !badAug && !long }

/-- A ratio limited to 1, in FP32 (R453). -/
def fadeRatio (a b : Nat) : FV := fmin (.fin false 1 0) (div32 (ofI (Int.ofNat a)) (ofI (Int.ofNat b)))

/-- The value of audio frame `i`, channel `k` of a good sample (R453). -/
def Parsed.audio (p : Parsed) (ch i k : Nat) : FV :=
  let src := fun (j : Nat) => decodeFmt p.fmt (nthN p.raws (j * ch + k))
  if p.rec_ = [] then src i
  else
    let j := Int.ofNat i - sgn 32 (leAt p.rec_ 4 4)
    let v0 := if j < 0 ∨ Int.ofNat p.n ≤ j then .fin false 0 0 else src j.toNat
    let v1 := mul32 v0 (f32 (leAt p.rec_ 0 4))
    let v2 := if leAt p.rec_ 12 1 = 1 then fneg v1 else v1
    let fi := leAt p.rec_ 8 2
    let fo := leAt p.rec_ 10 2
    let v3 := if fi ≠ 0 then mul32 v2 (fadeRatio (i + 1) fi) else v2
    if fo ≠ 0 then mul32 v3 (fadeRatio (p.n - i) fo) else v3

/-- The value at (y, x), channel `k` of a good image after crop, flips and BRIGHT (R453). -/
def Parsed.image (p : Parsed) (ch y x k : Nat) : FV :=
  let src := fun (y x : Nat) => decodeFmt p.fmt (nthN p.raws ((y * p.w + x) * ch + k))
  if p.rec_ = [] then src y x
  else
    let c := cropOf true p.rec_ p.w p.h
    let fl := leAt p.rec_ 8 1
    let xx := if bitN fl 0 then c.1 - 1 - x else x
    let yy := if bitN fl 1 then c.2 - 1 - y else y
    mul32 (src (leAt p.rec_ 2 2 + yy) (leAt p.rec_ 0 2 + xx)) (f32 (leAt p.rec_ 12 4))

/-- A value as an output element (R285-R289, nearest-even). -/
def Cmd.itPut (c : Cmd) (v : FV) : List Byte := toLe c.itElem (convert c.itFmt 0 0 v).1

/-- The output bytes of a good sample: its first `m` audio frames, or the image. -/
def Parsed.bytes (p : Parsed) (c : Cmd) (m : Nat) : List Byte :=
  let ch := c.p 48 1
  if c.itAudio then (List.range m).flatMap (fun i => (List.range ch).flatMap (fun k => c.itPut (p.audio ch i k)))
  else (List.range (c.p 44 2)).flatMap (fun y => (List.range (c.p 46 2)).flatMap (fun x =>
    (List.range ch).flatMap (fun k => c.itPut (p.image ch y x k))))

/-- `n` frames of PAD. -/
def Cmd.padFrames (c : Cmd) (n : Nat) : List Byte := (List.replicate (n * c.p 48 1) (slice c.params 52 c.itElem)).flatten

/-! ### Accesses (R449, R461) -/

/-- The state with some ranges written as the command's tenant, or the fault that one meets. -/
def State.itWrite (g : Agent) : List (Nat × List Byte) → State → Deny ⊕ State
  | [], s => .inr s
  | (a, bs) :: t, s =>
    if bs = [] then s.itWrite g t
    else match s.access g 1 a bs.length with
      | some d => .inl d
      | none => (s.devWrite a bs).itWrite g t

/-- The command ends with a memory fault (R461): its outputs are undefined, OUT_FAULT is set, the engine takes the next one (R460). -/
def State.itFault (c : Cmd) (d : Deny) (s : State) : State :=
  ((s.noteDeny d).errItk).endCmd c { oc := ocFailed, rs := faultReason d.code }

/-! ### One sample (R451, R452, R457, R458) -/

/-- What becomes of an entry: the writes to OUT and MARKS, the progress after it, the report (row, offset, frames, action). -/
structure Placed where
  writes : List (Nat × List Byte) := []
  run : Intake
  report : Nat × Nat × Nat × Nat := (0xFFFFFFFF, 0, 0, 1)
  good : Bool := false
  trunc : Bool := false
  deriving DecidableEq, Repr

/-- The address of frame `f` of row `r`. -/
def Cmd.outAt (c : Cmd) (r f : Nat) : Nat := c.p 16 8 + r * c.itRow + f * c.itFrame
/-- The address of a mark. -/
def Cmd.markAt (c : Cmd) (r f : Nat) : Nat := c.p 24 8 + 2 * (r * c.p 40 4 + f)

/-- Frames `f` to `f + n` of a row as padding, marks 0 (R451). -/
def Cmd.padWrites (c : Cmd) (r f n : Nat) : List (Nat × List Byte) :=
  [(c.outAt r f, c.padFrames n), (c.markAt r f, List.replicate (2 * n) 0)]

/-- PACK of one entry (R451, R457): `none` when no row remains for it. -/
def Intake.pack (x : Intake) (c : Cmd) (p : Parsed) : Option Placed :=
  let next := { x with idx := x.idx + 1 }
  if p.reason ≠ 0 && !p.late then some { run := next }
  else
    let fits := x.fill + p.n ≤ c.p 40 4
    let r := if fits then x.row else x.row + 1
    let f := if fits then x.fill else 0
    let sg := if fits then x.seg else 0
    let before := if fits then [] else c.padWrites x.row x.fill (c.p 40 4 - x.fill)
    if c.p 6 2 ≤ r then none
    else if p.reason ≠ 0 then some { writes := before ++ c.padWrites r f p.n, run := { next with row := r, fill := f, seg := sg } }
    else some {
      writes := before ++ [(c.outAt r f, p.bytes c p.n), (c.markAt r f, (List.replicate p.n (toLe 2 (sg + 1))).flatten)],
      run := { next with row := r, fill := f + p.n, seg := sg + 1, used := r + 1 }, report := (r, f, p.n, 0), good := true }

/-- The bytes of a length (BATCH audio). -/
def Cmd.lenWrite (c : Cmd) (r n : Nat) : List (Nat × List Byte) := if c.itAudio then [(c.p 24 8 + 4 * r, toLe 4 n)] else []

/-- BATCH of one entry (R452, R457); `rowBytes` reads a row of OUT. -/
def Intake.batch (x : Intake) (c : Cmd) (p : Parsed) (rowBytes : Nat → List Byte) : Placed :=
  let next := { x with idx := x.idx + 1 }
  let taken := { next with row := x.row + 1, used := x.row + 1 }
  let pad : Placed := { writes := [(c.outAt x.row 0, c.padFrames c.itRowLen)] ++ c.lenWrite x.row 0, run := taken, report := (x.row, 0, 0, 2) }
  if p.reason = 0 then
    let m := if c.itAudio then Nat.min p.n c.itRowLen else c.itRowLen
    let tr := c.itAudio && c.itRowLen < p.n
    { writes := [(c.outAt x.row 0, p.bytes c m ++ c.padFrames (c.itRowLen - m))] ++ c.lenWrite x.row m,
      run := { taken with lastGood := some (x.row, m), trunc := x.trunc + (if tr then 1 else 0) },
      report := (x.row, 0, m, if tr then 0x80 else 0), good := true, trunc := tr }
  else if c.p 2 1 = 0 then { run := next }
  else if c.p 2 1 = 1 then pad
  else match x.lastGood with
    | none => pad
    | some g => { writes := [(c.outAt x.row 0, rowBytes g.1)] ++ c.lenWrite x.row g.2, run := taken, report := (x.row, 0, g.2, 3) }

/-- The report entry (R458). The frames of a row that an image fills are not given (a free value, log 3, log 47). -/
def Cmd.reportBytes (c : Cmd) (d : Nat) (x : Placed) (reason : Nat) : List Byte :=
  toLe 4 x.report.1 ++ toLe 4 x.report.2.1 ++
  (if c.itAudio || x.report.1 = 0xFFFFFFFF then toLe 4 x.report.2.2.1 else (List.range 4).map (Config.freeByte d)) ++
  toLe 1 reason ++ toLe 1 x.report.2.2.2 ++ toLe 2 0

/-- The frames that nothing has filled at the end of a command: PAD, marks and lengths 0 (R451, R452). -/
def Intake.tail (x : Intake) (c : Cmd) : List (Nat × List Byte) :=
  if c.itPack then
    c.padWrites x.row x.fill (c.p 40 4 - x.fill) ++
    ((List.range (c.p 6 2)).filter (fun r => x.row < r)).flatMap (fun r => c.padWrites r 0 (c.p 40 4))
  else ((List.range (c.p 6 2)).filter (fun r => x.row ≤ r)).flatMap (fun r =>
    (c.outAt r 0, c.padFrames c.itRowLen) :: c.lenWrite r 0)

/-- The command of the engine completes (R459), and the engine takes the next one. -/
def State.intakeDone (c : Cmd) (x : Intake) (s : State) : State :=
  match s.itWrite { tenant := some c.tenant, windows := x.windows } (x.tail c) with
  | .inl d => s.itFault c d
  | .inr t =>
    let cap := fun v => toLe 2 (Nat.min v 0xFFFF)
    (({ t with itk.run := none }).served c (cap x.idx ++ cap x.used ++ cap x.corrupt ++ cap x.trunc)).intakeNext

/-- A sample boundary (R460): a BACKGROUND command is suspended for a waiting INTERACTIVE one. -/
def State.intakeSwitch (s : State) : State :=
  match s.itk.run with
  | none => s
  | some r =>
    if r.cls = .background && s.itk.waiting.any (fun x => x.cls == .interactive) then
      (({ s with itk.run := none, itk.waiting := s.itk.waiting ++ [r] }).modCmd r.cmd (fun c => { c with preempts := c.preempts + 1 })).intakeNext
    else s

/-- An entry that is consumed: written, counted and reported; the command ends with its list or its rows (R451, R452, R456-R459). -/
def State.intakePlaced (c : Cmd) (g : Agent) (p : Parsed) (x : Placed) (s : State) : State :=
  let bad := p.reason ≠ 0
  let run := { x.run with corrupt := x.run.corrupt + (if bad then 1 else 0) }
  let d := s.draw
  let rep := if c.p 32 8 = 0 then [] else [(c.p 32 8 + 16 * (run.idx - 1), c.reportBytes d.1 x p.reason)]
  match d.2.itWrite g (x.writes ++ rep) with
  | .inl e => s.itFault c e
  | .inr t =>
    let t1 := { t with
      itk.run := some run,
      itk.corrupt := if bad then tmod 0 t.itk.corrupt p.reason satInc else t.itk.corrupt,
      itk.trunc := if x.trunc then satInc t.itk.trunc else t.itk.trunc,
      itk.samples := if x.good then satInc t.itk.samples else t.itk.samples }
    if c.p 4 2 ≤ run.idx ∨ (!c.itPack ∧ c.p 6 2 ≤ run.row) then t1.intakeDone c run else t1.intakeSwitch

/-- The row of OUT that a corrupt entry repeats under PREV (R457). -/
def Intake.repeats (x : Intake) (c : Cmd) (p : Parsed) : List (Nat × Nat) :=
  if c.itPack || p.reason = 0 || c.p 2 1 ≤ 1 then [] else (x.lastGood.map (fun g => (c.outAt g.1 0, c.itRow))).toList

/-- The first fault of reads that the windows allow: key or map (R461). -/
def State.readFault (s : State) (g : Agent) (l : List (Nat × Nat)) : Option Deny :=
  l.findSome? (fun r => s.access g 0 r.1 r.2)

/-- INTAKE_SAMPLE (R451-R461): the next list entry of the engine's command is checked, augmented and placed. -/
def execIntakeSample (s : State) : Host.Outcome State Fault Refusal :=
  .next <| match s.itk.run with
  | none => s
  | some x => match s.cmd x.cmd with
    | none => { s with itk.run := none }.intakeNext
    | some c =>
      let g : Agent := { tenant := some c.tenant, windows := x.windows }
      let ea := c.p 8 8 + 32 * x.idx
      let ok := fun a n => windowsAllow x.windows 0 a n && !(pagesOf a n).any s.inHoard
      if s.pathHeld none ea 32 || c.intakeOut.any (fun r => s.pathHeld none r.1 r.2) then s else
      match s.access g 0 ea 32 with
      | some d => s.itFault c d
      | none =>
        let sm := sampleOf (s.devRead ea 32)
        let src := (if ok sm.addr sm.len then [(sm.addr, sm.len)] else []) ++
          (if sm.hasAug && ok sm.aug 16 then [(sm.aug, 16)] else [])
        if src.any (fun r => s.pathHeld none r.1 r.2) then s else
        match s.readFault g src with
        | some d => s.itFault c d
        | none =>
          let p := sm.parse c ok s.devRead
          match (x.repeats c p).findSome? (fun r => s.saveDeny c.tenant r.1 r.2 false) with
          | some d => s.itFault c d
          | none =>
          if c.itPack then
            (match x.pack c p with
             | none => s.intakeDone c x
             | some y => s.intakePlaced c g p y)
          else s.intakePlaced c g p (x.batch c p (fun r => s.devRead (c.outAt r 0) c.itRow))

end Sys2Proof.Machine
end

