-- ==== Sys2Proof/Machine/RegWrite.lean ====
section
/-!
DEFINITION. Register writes (R3, R5, R6, R39, R548, R549) by block, accesses to blocks that are off (R130, R131, R527), and SNAPSHOT
(R528). Registers whose write has a rule of its own go to the function of the family that has it.
-/
namespace Sys2Proof.Machine

/-! ### Writes by block -/

/-- A W1C write (R5, R6): the bits written 1 clear; those that hardware sets in the same cycle (`hw`) are set after it. -/
def w1c {n : Nat} (old : BitVec n) (v hw : W32) : BitVec n := clearBits old v ||| hw.setWidth n

/-- A one-bit W1C field (R5, R6). -/
def w1cBit (old : Bool) (i : Nat) (v hw : W32) : Bool := bit hw i || (old && !bit v i)

/-- GLB (Tables 2.13, 3.10, 3.11, 7.11). -/
def State.wrGlb (o : Nat) (v hw : W32) (s : State) : State :=
  if o = 0x118 then { s with glb.bridgeErr := w1c s.glb.bridgeErr v hw }
  else if o = 0x124 then
    { s with glb.dieRst := w1c s.glb.dieRst (v >>> 8) (hw >>> 8), glb.hist := w1c s.glb.hist (v >>> 16) (hw >>> 16) }
  else if o = 0x128 then s.writeResetCtrl v ⟨0, 0⟩
  else if o = 0x134 then s.writeBootCtrl v
  else s

/-- TB (Table 3.2). -/
def State.wrTb (o : Nat) (v hw : W32) (s : State) : State :=
  if o = 0 then s.writeTbCtrl v else if o = 0xC then { s with tb.err := w1c s.tb.err v hw } else s

/-- CLK (Table 3.7). -/
def State.wrClk (o : Nat) (v hw : W32) (s : State) : State := if o = 8 then { s with clk.err := w1c s.clk.err v hw } else s

/-- An enabled pending source outside RUN starts the wake (R118). -/
def State.wakeCheck (s : State) : State :=
  if s.pmu.dev = .run ∨ s.pmu.wakeSource.isSome then s
  else { s with pmu.wakeSource := (List.range 12).find? (fun i => bit s.pmu.wakePend i && bit s.pmu.wakeEn i && wakeValid s.pmu.dev i) }

/-- PMU (Table 5.5): PMU_MODE is the manager core's (R111), and a reserved TARGET leaves it (DESIGN CHOICE, log 109); a pending bit whose
level holds stays set (R144). -/
def State.wrPmu (sd : Side) (o : Nat) (v hw : W32) (s : State) : State :=
  if o = 0 then (if sd = .mgr ∧ fld v 0 3 ≤ 4 then { s with pmu.mode := v.setWidth 3 } else s)
  else if o = 0x10 then ({ s with pmu.wakeEn := v.setWidth 12 } : State).wakeCheck
  else if o = 0x18 then { s with pmu.wakePend := w1c s.pmu.wakePend v hw ||| s.pmu.levelHeld }
  else if o = 0x1C then { s with pmu.retAon := v.setWidth 9 }
  else if 0x20 ≤ o ∧ o < 0x30 then { s with pmu.retDm := tset 0 s.pmu.retDm ((o - 0x20) / 4) (v.setWidth 12) }
  else if o = 0x30 then { s with pmu.autowake := v.setWidth 10 }
  else if 0x40 ≤ o ∧ o < 0x60 then s.writeWindow (o % 8 = 4) ((o - 0x40) / 8) v
  else if o = 0x60 then { s with pmu.pkgLimit := v.setWidth 16 }
  else if o = 0x74 then { s with pmu.supErr := w1c s.pmu.supErr v hw }
  else if o = 0x80 then { s with pmu.warnC := v.setWidth 9 }
  else if 0x100 ≤ o ∧ o ≤ 0x128 then { s with pmu.supmon := tset supmonReset s.pmu.supmon ((o - 0x100) / 4) (v &&& 0xFFF) }
  else s

/-- AON (Table 6.5). -/
def State.wrAon (o : Nat) (v hw : W32) (s : State) : State :=
  if o = 0x184 then { s with aon.err := w1c s.aon.err v hw } else s.writeAon o v

/-- GCP (Table 7.9): offset `o` of ring `n`. -/
def State.wrRing (n o : Nat) (v hw : W32) (s : State) : State :=
  if o = 0 then s.writeBase n false false v
  else if o = 4 then s.writeBase n false true v
  else if o = 8 then s.writeSqCfg n v
  else if o = 0xC then s.writeTail n v
  else if o = 0x14 then s.writeBase n true false v
  else if o = 0x18 then s.writeBase n true true v
  else if o = 0x1C then s.writeCqCfg n v
  else if o = 0x20 then s.writeCqHead n v
  else if o = 0x2C then s.modRing n (fun r => { r with err := w1c r.err v hw })
  else s

/-- GCP (Table 7.9). -/
def State.wrGcp (o : Nat) (v hw : W32) (s : State) : State :=
  if o < 0x1000 then s.wrRing (o / 0x40) (o % 0x40) v hw
  else if o = 0x1000 then s.writeTransport false v
  else if o = 0x1004 then s.writeTransport true v
  else s

/-- SCH (Tables 8.5, 10.2, 16.7). -/
def State.wrSch (sd : Side) (o : Nat) (v hw : W32) (s : State) : State :=
  if o = 0 then s.writeSchCtrl v
  else if o = 0x10 then { s with sch.ctxSel := s.sch.ctxSel.set sd (v.setWidth 10) }
  else if o = 0x214 then { s with sch.err := w1c s.sch.err v hw }
  else if o = 0x300 then s.writeDlCtrl v
  else if o = 0x304 then { s with sch.dlHorizon := v.setWidth 20 }
  else if o = 0x314 then { s with sch.syncErr := w1c s.sch.syncErr v hw }
  else if 0x400 ≤ o ∧ o < 0x410 then s.writeHoard ((o - 0x400) / 4) v
  else if o = 0x410 then { s with sch.epSel := s.sch.epSel.set sd (v.setWidth 6) }
  else if o = 0x464 then { s with sch.specErr := w1c s.sch.specErr v hw }
  else s

/-- KEY (Table 20.4). -/
def State.wrKey (sd : Side) (o : Nat) (v hw : W32) (s : State) : State :=
  if o = 0 then { s with key.slotSel := s.key.slotSel.set sd (v.setWidth 11) }
  else if o = 0x10 then { s with key.descSel := s.key.descSel.set sd (v.setWidth 8) }
  else if o = 0x40 then s.writeTdi v
  else if o = 0x54 then { s with key.err := w1c s.key.err v hw }
  else s

/-- MEM (Table 20.5). -/
def State.wrMem (o : Nat) (v hw : W32) (s : State) : State :=
  if o = 0x10 then s.writeBar2 v else if o = 0x24 then { s with memc.err := w1c s.memc.err v hw } else s

/-- AUD (Table 4.5). -/
def State.wrAud (sd : Side) (o : Nat) (v hw : W32) (s : State) : State :=
  if o < 0x80 then (if o % 0x20 = 0 then s.writeSpCtrl (o / 0x20) v else s)
  else if o = 0x100 then s.writeMclk v
  else if o = 0x114 then { s with aud.err := w1c s.aud.err v hw }
  else if o = 0x200 then { s with aud.strmSel := s.aud.strmSel.set sd (v.setWidth 8) }
  else s

/-- CAM (Table 18.4). -/
def State.wrCam (o : Nat) (v hw : W32) (s : State) : State := if o = 0x24 then { s with cam.err := w1c s.cam.err v hw } else s

/-- ITK (Table 19.6). -/
def State.wrItk (o : Nat) (v hw : W32) (s : State) : State :=
  if o = 0x54 then { s with itk.err := w1cBit s.itk.err 0 v hw } else s

/-- SLK (Table 21.4): SLK_CTRL is frozen while the TDI is CONFIG_LOCKED or RUN (R513). -/
def State.wrSlk (sd : Side) (o : Nat) (v hw : W32) (s : State) : State :=
  if o = 0 then (if s.tdiLocked then s else { s with slk.ctrl := v &&& 0x00FF013F })
  else if 0x100 ≤ o ∧ o < 0x200 then
    (if o % 0x40 = 0x10 then s.modSlp ((o - 0x100) / 0x40) (fun q => { q with err := w1c q.err v hw }) else s)
  else if o = 0x200 then { s with slk.routeSel := s.slk.routeSel.set sd (v.setWidth 6) }
  else s

/-- OBS (Table 22.4). -/
def State.wrObs (sd : Side) (o : Nat) (v hw : W32) (s : State) : State :=
  if o = 4 then { s with obs.irqEn := v &&& 0x3FFFFF }
  else if o = 0xC then { s with obs.err := w1c s.obs.err v hw }
  else if o = 0x2C then { s with obs.offValid := w1cBit s.obs.offValid 31 v hw }
  else if o = 0x30 then { s with obs.quillCtrl := v &&& 0x71F1 }
  else if o = 0x34 then s.trigger s 0 (v.setWidth 16) (bit v 16)
  else if o = 0x3C then (if bit v 0 then { s with obs.armed := true } else s)
  else if o = 0x98 then
    (let i : BitVec 10 := v.setWidth 10
     { s with obs.tlogIdx := s.obs.tlogIdx.set sd i, obs.tlogData := s.obs.tlogData.set sd (tget [] s.obs.tlog i.toNat) })
  else s

/-- IRQ (R546): the MSI-X table, whose Vector Control words hold the mask bit alone (R3); a vector that is unmasked with its pending bit
set sends its message (PRESUMED, log 15). -/
def State.wrIrq (o : Nat) (v : W32) (s : State) : State :=
  if 0x400 ≤ o then s
  else
    let i := o / 4
    let v : W32 := if i % 4 = 3 then v &&& 1 else v
    let s1 := { s with irq.table := tset (msixReset i) s.irq.table i v }
    if i % 4 = 3 ∧ bit s1.irq.pending (i / 4) ∧ s1.hostUp ∧ s1.memc.msixEnable ∧ bit v 0 = false then
      ({ s1 with irq.pending := putBit s1.irq.pending (i / 4) false } : State).msix (i / 4)
    else s1

/-- A core region (Tables 9.13, 11.7). -/
def State.wrCore (c o : Nat) (v hw : W32) (s : State) : State :=
  if o = 0 then s.modCore c (fun x => { x with faultReset := bit v 4 })
  else if o = 0x18 then s.modCore c (fun x => { x with err := w1cBit x.err 0 v hw })
  else if o = 0x54 then s.modCore c (fun x => { x with qerr := w1cBit x.qerr 0 v hw })
  else s

/-- A write to a register of an accessible block, by its place; snapshot copies are read-only (R529). -/
def State.writePlace (sd : Side) (p : Place) (v hw : W32) (s : State) : State :=
  match p with
  | .iod b o => (match b with
    | 0 => s.wrGlb o v hw
    | 1 => s.wrTb o v hw
    | 2 => s.wrClk o v hw
    | 3 => s.wrPmu sd o v hw
    | 5 => s.wrAon o v hw
    | 6 => s.wrGcp o v hw
    | 7 => s.wrSch sd o v hw
    | 8 => s.wrKey sd o v hw
    | 9 => s.wrMem o v hw
    | 10 => s.wrAud sd o v hw
    | 11 => s.wrCam o v hw
    | 12 => s.wrItk o v hw
    | 13 => s.wrSlk sd o v hw
    | 14 => s.wrObs sd o v hw
    | 15 => s.wrIrq o v
    | _ => s)
  | .core c o => s.wrCore c o v hw
  | _ => s

/-- Is the register at a place one that clears its bits (W1C)? -/
def w1cPlace : Place → Bool
  | .iod b o => [(0, 0x118), (0, 0x124), (1, 0xC), (2, 8), (3, 0x18), (3, 0x74), (5, 0x184), (7, 0x214), (7, 0x314), (7, 0x464), (8, 0x54),
      (9, 0x24), (10, 0x114), (11, 0x24), (12, 0x54), (14, 0xC), (14, 0x2C)].contains (b, o) ||
      (b == 6 && o < 0x1000 && o % 0x40 == 0x2C) || (b == 13 && 0x100 ≤ o && o < 0x200 && o % 0x40 == 0x10)
  | .core _ o => o == 0x18 || o == 0x54
  | _ => false

/-- A write to a register of a block that is accessible. The bits that hardware sets in the cycle of a W1C write are events like any
others: a group that rises signals (R6, R526). -/
def State.writeNow (sd : Side) (a : Nat) (v hw : W32) (s : State) : State :=
  let t := s.writePlace sd (placeOf a) v hw
  if w1cPlace (placeOf a) && hw ≠ 0 then s.rise t else t

/-- A 32-bit register write from a side: reserved space ignores it (R3, R548); to an off block it stalls when AUTOWAKE covers it (R31, R131),
else it is dropped with its record (R130). -/
def State.regWrite (sd : Side) (a : Nat) (v hw : W32) (s : State) : State :=
  if !listed a then s
  else if s.offAt a then match s.wakes a with
    | some b => s.stall sd a (some v) b
    | none => s.offAccess sd a
  else s.writeNow sd a v hw

/-- REGISTER_WRITE (R5, R6): `hw` are the bits of the field that hardware sets in the same cycle. -/
def execRegisterWrite (sd : Side) (off : BitVec 25) (v : BitVec 32) (hw : BitVec 32) (s : State) : Host.Outcome State Fault Refusal :=
  .next (s.regWrite sd off.toNat v hw)

/-! ### Accesses to blocks that are off (R31, R45, R130, R131) -/

/-- OFF_BLOCK_ACCESS (R8, R31, R130, R527): a read (`w` none) or write of a listed register of a block that is off and not woken by
the access. -/
def execOffBlockAccess (sd : Side) (off : BitVec 25) (w : Option (BitVec 32)) (s : State) : Host.Outcome State Fault Refusal :=
  .next <|
  let a := off.toNat
  if !listed a || !s.offAt a || (s.wakes a).isSome then s
  else
    let s1 := s.offAccess sd a
    if w.isNone then { s1 with rdata := 0x0FF00FF0 } else s1

/-- AUTOWAKE_ACCESS (R131): the access stalls while the block wakes, behind those that stall already. -/
def execAutowakeAccess (sd : Side) (off : BitVec 25) (w : Option (BitVec 32)) (s : State) : Host.Outcome State Fault Refusal :=
  .next <|
  let a := off.toNat
  match s.wakes a with
  | none => s
  | some b => if !listed a || !s.offAt a then s else s.stall sd a w b

/-- A stalled access whose block is awake completes normally (R131). -/
def State.stallDone (x : Stalled) (s : State) : State :=
  let s1 := { s with pmu.stalled := s.pmu.stalled.erase x }
  match x.w with
  | none => s1.readNow x.side x.off.toNat 0
  | some v => s1.writeNow x.side x.off.toNat v 0

/-- AUTOWAKE_ACCESS_COMPLETE (R131): the oldest stalled access whose block is awake completes. -/
def execAutowakeAccessComplete (s : State) : Host.Outcome State Fault Refusal :=
  .next <| match s.pmu.stalled.find? (fun x => !s.offAt x.off.toNat) with
  | none => s
  | some x => s.stallDone x

/-- AUTOWAKE_TIMEOUT (R45, R131, R563): the bound of the oldest stalled access passes; with its block awake it completes normally, else as
an access to an off block, while the wake goes on. -/
def execAutowakeTimeout (s : State) : Host.Outcome State Fault Refusal :=
  .next <| match s.pmu.stalled with
  | [] => s
  | x :: _ => if s.offAt x.off.toNat then s.stallFail x else s.stallDone x

/-! ### SNAPSHOT (R528) -/

/-- FLAGS.RACK. -/
def Cmd.snapRack (c : Cmd) : Bool := bitN (c.p 2 1) 0
/-- FLAGS.AT. -/
def Cmd.snapAt (c : Cmd) : Bool := bitN (c.p 2 1) 1

/-- The checks of SNAPSHOT (R528). -/
def checkSnap (s : State) (c : Cmd) : Option Nat :=
  if c.params.length ≠ 16 ∨ 4 ≤ c.p 2 1 ∨ c.p 3 1 ≠ 0 ∨ (!c.snapAt ∧ c.p 4 6 ≠ 0) ∨ c.p 10 6 ≠ 0 then some rsBadParam
  else if !s.obs.armed then some rsJobsActive
  else none

/-- The trigger of a SNAPSHOT has latched (R528): its command completes with the sequence number, late where v was already reached at
arming. -/
def State.snapServed (c : Cmd) (late : Nat) (s : State) : State :=
  s.finish c { oc := if late ≠ 0 ∨ c.late ≠ 0 then ocLate else ocServed,
               late := if late ≠ 0 then late else c.late, skipped := c.skipped, result := res4 s.obs.snapSeq.toNat }

/-- SNAPSHOT takes effect: a HOST trigger at once; with AT or over the rack a compare on the SFC, which a rack trigger floods (R511,
R528, R530). -/
def State.applySnap (c : Cmd) (s : State) : State :=
  let tag : W16 := BitVec.ofNat 16 (c.p 0 2)
  let v := if c.snapAt then c.p 4 6 else s.quillLead
  if !c.snapAt ∧ !c.snapRack then
    let t := if s.obs.armed then s.latch s { source := 0, tag := tag, origin := s.node } else s
    let t1 := t.snapServed c 0
    if t1.obs.armed then t1 else t1.failSnaps
  else (if c.snapRack then s.floodQuill tag v else s).arm .sfc v (.snap c.id)

/-- SNAPSHOT (R528). -/
def execSnapshot (id : Nat) (s : State) : Host.Outcome State Fault Refusal :=
  .next (s.command id 0x0080 (fun _ => true) checkSnap State.applySnap)

end Sys2Proof.Machine
end

