-- ==== Sys2Proof/Machine/Due.lean ====
section
/-!
DEFINITION. What a compare's firing does (R55-R57, R60, R61, R74): COMPARE_FIRE, which dispatches on who waits and, for a command, on its
opcode; and DEADLINE_EXPIRY (R60, R75).
-/
namespace Sys2Proof.Machine

/-- An EPOCH_CTRL by its OPER. -/
def State.ctrlMeaning (k : Nat) (c : Cmd) (s : State) : State :=
  match k with
  | 1 => State.applyBind c s
  | 2 => State.applyUnbind c s
  | 3 => State.applyCommit c s
  | 4 => State.applyEpochAbort c s
  | 5 => State.applyRuleEn c s
  | 6 => State.applySeqRun c s
  | _ => State.applyOpen c s

/-- A command's checks and effect. -/
abbrev Meaning := (State → Cmd → Option Nat) × (Cmd → State → State)

/-- The checks and the effect of a command that its opcode and parameters name; IMAGE_LOAD and the stream commands that register on
reading have their own due ticks. -/
def dueMeaning (c : Cmd) : Option Meaning :=
  match c.op with
  | 0x0001 => some (noParams, State.applyNop)
  | 0x0002 => some (checkAbort, State.applyAbort none)
  | 0x0010 => some (checkTenantCreate, State.applyTenantCreate)
  | 0x0011 => some (checkTenantDestroy, State.applyTenantDestroy)
  | 0x0012 => some (checkTenantSet, State.applyTenantSet)
  | 0x0013 => some (checkSessionOpen, State.applySessionOpen)
  | 0x0014 => some (checkSessionClose, State.applySessionClose)
  | 0x0021 => some (checkImageUnload, State.applyImageUnload)
  | 0x0031 => some (checkClose, State.applyClose)
  | 0x0032 => some (checkMigrate, State.applyMigrate)
  | 0x0034 => some (checkPatch, State.applyPatch)
  | 0x0040 => some (checkRunOp, State.applyRunOp)
  | 0x0041 => some (checkRunProgram, State.applyRunProgram)
  | 0x0050 => some (checkPoolCreate, State.applyPoolCreate)
  | 0x0051 => some (checkPoolDestroy, State.applyPoolDestroy)
  | 0x0052 => some (checkKvSeq, State.applyKvSeq)
  | 0x0060 => some (if c.p 0 1 = 1 then (checkSeqProgram, State.applySeqProgram) else (checkRule, State.applyRule))
  | 0x0061 => some (checkCtrl, State.ctrlMeaning c.ctrlOper)
  | 0x0070 => some (checkPower, State.applyPower)
  | 0x0071 => some (noParams, State.applyWarmReset ⟨0, 0⟩)
  | 0x0072 => some (checkDieReset, State.applyDieReset)
  | 0x0073 => some (checkCoreReset, State.applyCoreReset)
  | 0x0080 => some (checkSnap, State.applySnap)
  | 0x0090 => some (checkRekey,
    if rekeySel 1 c then State.applyUnmap else if rekeySel 2 c then State.applyRotate else if rekeySel 3 c then State.applyInit
    else State.applyMap)
  | 0x00A0 => some (checkLink,
    if linkSel 1 c then State.applyPortDown else if linkSel 2 c then State.applyRetrain else if linkSel 3 c then State.applySetWidth
    else if linkSel 4 c then State.applySetRate else if linkSel 5 c then State.applySetNodeId else if linkSel 6 c then State.applyEnumerate
    else if linkSel 7 c then State.applyBeaconRoot else if linkSel 8 c then State.applyBeaconJoin
    else if linkSel 9 c then State.applyProxyBind else if linkSel 10 c then State.applyProxyUnbind
    else if linkSel 11 c then State.applyPortReset else State.applyPortUp)
  | 0x00B0 => some (checkIntake, State.applyIntake)
  | 0x00C0 => some (checkCapture, State.applyCapture)
  | 0x00C1 => some (checkCapCtl, State.applyCtl)
  | 0x00D0 => some (checkCamera, State.applyCamera)
  | _ => none

/-- The due tick of a command (R60, R61): a COMMIT and a STREAM_OPEN that were admitted
become ready, a STREAM_ROUTE completes, any other is checked again and takes effect. -/
def State.cmdTick (c : Cmd) (late : Nat) (skipped : Bool) (s : State) : State :=
  if c.remote.isSome then s
  else if c.op = 0x0030 then s.openTick c late skipped
  else if c.op = 0x0033 then s.routeTick c late skipped
  else if c.op = 0x0061 ∧ c.ctrlOper = 3 ∧ dueIs c.due 0 = true then s.commitTick c skipped
  else if s.programBusy c then s.rejectProgram c
  else match dueMeaning c with
    | some m => s.dueTick c late skipped m.1 m.2
    | none => s

/-- Does the firing of a command's compare belong to another row: a DEADLINE (R60), or IMAGE_LOAD? -/
def State.tickElsewhere (s : State) (c : Cmd) : Bool :=
  (c.op == 0x0020 && c.phase == .armed) ||
  (dueIs c.due 2 && !(c.op == 0x0033 && (s.stream (c.p 0 2)).any (fun x => x.nextRoutes.all (fun w => w.cmd ≠ c.id))))

/-- A compare of the Quill: its source, tag, originator, whether it spans the rack. -/
def State.quillOwner (s : State) (o : Owner) : Option (Nat × W16 × Nat × Bool) :=
  match o with
  | .snap id => (s.cmd id).map (fun c => (if c.snapAt then 1 else 0, BitVec.ofNat 16 (c.p 0 2), s.node, c.snapRack))
  | .quill src origin tag => some (src, tag, origin.toNat, true)
  | _ => none

/-- The compares of the Quill that fire in the same cycle as `k` make one latch: the lowest source, the mask of all (R538). -/
def State.quillGroup (s : State) (k : Compare) : List Compare :=
  s.tb.compares.filter (fun x => x.tb = k.tb && x.target == k.target && x.hit == k.hit && (s.quillOwner x.owner).isSome)

/-- The Quill compares of a cycle fire (R528-R531, R538): one latch, which the SNAPSHOT commands among them report; while ARMED is 0 each
counts as missed. -/
def State.quillFire (k : Compare) (late : Nat) (s : State) : State :=
  let grp := s.quillGroup k
  let os := grp.filterMap (fun x => s.quillOwner x.owner)
  match os.foldl (fun (o : Option (Nat × W16 × Nat × Bool)) q => match o with
      | none => some q
      | some g => if q.1 < g.1 then some q else some g) none with
  | none => s
  | some q =>
    let s1 : State := { s with tb.compares := s.tb.compares.filter (fun x => !grp.contains x) }
    let mask := os.foldl (fun (m : BitVec 7) e => m ||| oneBit 7 e.1) 0
    let snaps := grp.filterMap (fun x => match x.owner with | .snap id => s.cmd id | _ => none)
    if s1.obs.armed then
      let t := s1.latch s { source := q.1, tag := q.2.1, origin := q.2.2.1, rack := os.any (fun e => e.2.2.2), late := late,
                            onCompare := late = 0, also := mask }
      let u := snaps.foldl (fun s c => s.snapServed c (if c.snapAt then late else 0)) t
      if u.obs.armed then u else u.failSnaps
    else
      let t := os.foldl (fun s _ => ({ s with obs.missed := satInc s.obs.missed } : State).errObs 0) s1
      snaps.foldl (fun s c => s.complete c ocFailed rsJobsActive) t

/-- What a command changes (R184): the objects that it names (1 to 5, R182), and beside them the key slots and descriptors (6), the part's power
and reset state (7), a Shusor port (8), the intake engine (9), the captures (10), the camera (11), a cascade rule (12), the sequencer (13), the
Quill latch (14). -/
def Cmd.changes (c : Cmd) : List (Nat × Nat) :=
  c.objects ++
  (if c.op = 0x0013 ∨ c.op = 0x0014 ∨ c.op = 0x0090 then [(6, 0)]
   else if 0x0070 ≤ c.op ∧ c.op ≤ 0x0073 then [(7, 0)]
   else if c.op = 0x00A0 then [(8, c.p 1 1)]
   else if c.op = 0x00B0 then [(9, 0)]
   else if c.op = 0x00C0 ∨ c.op = 0x00C1 then [(10, 0)]
   else if c.op = 0x00D0 then [(11, 0)]
   else if c.op = 0x0060 then (if c.p 0 1 = 0 then [(12, c.p 1 1)] else [(13, 0)])
   else if c.op = 0x0061 ∧ c.ctrlOper = 5 then [(12, c.p 1 1)]
   else if c.op = 0x0061 ∧ c.ctrlOper = 6 then [(13, 0)]
   else if c.op = 0x0080 then [(14, 0)]
   else [])

/-- Which compare fires in the place of one that has been reached: that of the AT command read first among those reached that change what its
command changes (R184). -/
def State.firesFirst (s : State) (x : Compare) : Compare :=
  match x.owner with
  | .cmd id => match s.cmd id with
    | none => x
    | some c => (s.tb.compares.foldl (fun (b : Nat × Compare) y => match y.owner with
        | .cmd e => match s.cmd e with
          | some d => if e < b.1 ∧ y.hit.isSome ∧ dueIs d.due 0 ∧ d.changes.any (fun o => c.changes.contains o) then (e, y) else b
          | none => b
        | _ => b) (id, x)).2
  | _ => x

/-- COMPARE_FIRE (R55-R57, R61, R184, R442, R528): the `k`-th compare that has been reached fires, once, behind those that come before it. A
die's own compares reach its core at once, the IOD's by a wake message. A command's timer starts (R61). -/
def execCompareFire (k : Nat) (s : State) : Host.Outcome State Fault Refusal :=
  .next <| match (s.tb.compares.filter (fun x => x.hit.isSome))[k]? with
  | none => s
  | some y =>
    let x := s.firesFirst y
    let h := x.hit.getD (0, false)
    let s1 : State := { s with tb.compares := s.tb.compares.erase x }
    match x.owner with
    | .core c =>
      if x.tb = .sfc then s1.coreFired c h.1 h.2 else s1.modCore c (fun y => { y with wakeMsg := some h })
    | .trig => s1.trigFire x.target.toNat
    | .timer id => s1.modCmd id (fun c => { c with timer := true })
    | .cmd id => match s.cmd id with
      | none => s1
      | some c => if s.tickElsewhere c || s.cmdHeld c then s else s1.cmdTick c h.1 h.2
    | .snap _ => s.quillFire x h.1
    | .quill _ _ _ => s.quillFire x h.1

/-- DEADLINE_EXPIRY (R60, R75): a DEADLINE command that has not completed when its value is reached stops. A STREAM_ROUTE whose switch
has been made completes by its compare. -/
def execDeadlineExpiry (id : Nat) (s : State) : Host.Outcome State Fault Refusal :=
  .next <| match s.cmd id with
  | none => s
  | some c =>
    if dueIs c.due 2 = false ∨ c.remote.isSome ∨ !tbReached (dueTb c.due) (s.tbNow (dueTb c.due)) (dueVal c.due).toNat then s
    else if c.op = 0x0033 ∧ c.phase = .armed ∧ (s.stream (c.p 0 2)).any (fun x => x.nextRoutes.all (fun w => w.cmd ≠ id)) then s
    else s.endCmd c { oc := ocTimedOut, rs := rsDeadlinePassed }

end Sys2Proof.Machine
end

