-- ==== Sys2Proof/Machine/Dispatch.lean ====
section
/-!
DEFINITION. The dispatcher: one arm for each command, one direct call of its meaning.
-/
namespace Sys2Proof.Machine

/-- The effect of a command on everything but the queue. -/
def exec (i : Instr) (s : State) : Host.Outcome State Fault Refusal :=
  match i with
  | .coldReset vresetAon pkg banks also_ => Sys2Proof.Machine.execColdReset vresetAon pkg banks also_ s
  | .boardStrapLatch boot node => Sys2Proof.Machine.execBoardStrapLatch boot node s
  | .pllLock p => Sys2Proof.Machine.execPllLock p s
  | .pllUnlock p also_ => Sys2Proof.Machine.execPllUnlock p also_ s
  | .refclkLoss also_ => Sys2Proof.Machine.execRefclkLoss also_ s
  | .refclkRestored => Sys2Proof.Machine.execRefclkRestored s
  | .watchdogExpiry also_ => Sys2Proof.Machine.execWatchdogExpiry also_ s
  | .jtagReset also_ => Sys2Proof.Machine.execJtagReset also_ s
  | .portScopeReset p => Sys2Proof.Machine.execPortScopeReset p s
  | .resetCtrlWarm v also_ => Sys2Proof.Machine.execResetCtrlWarm v also_ s
  | .resetCtrlDie v => Sys2Proof.Machine.execResetCtrlDie v s
  | .bridgeTrainingDone d => Sys2Proof.Machine.execBridgeTrainingDone d s
  | .bridgeTrainTimeout d => Sys2Proof.Machine.execBridgeTrainTimeout d s
  | .bridgePositionReport d code => Sys2Proof.Machine.execBridgePositionReport d code s
  | .bridgeLinkError d => Sys2Proof.Machine.execBridgeLinkError d s
  | .bridgeRetrainDone d => Sys2Proof.Machine.execBridgeRetrainDone d s
  | .bridgeRetrainTimeout d => Sys2Proof.Machine.execBridgeRetrainTimeout d s
  | .sfcTick words lost => Sys2Proof.Machine.execSfcTick words lost s
  | .sfcCheck => Sys2Proof.Machine.execSfcCheck s
  | .sfcCheckReload d => Sys2Proof.Machine.execSfcCheckReload d s
  | .compareFire k => Sys2Proof.Machine.execCompareFire k s
  | .deadlineExpiry id => Sys2Proof.Machine.execDeadlineExpiry id s
  | .compareWakeMessage core => Sys2Proof.Machine.execCompareWakeMessage core s
  | .wclkLoss => Sys2Proof.Machine.execWclkLoss s
  | .wclkRelock => Sys2Proof.Machine.execWclkRelock s
  | .tbCtrlWrite v => Sys2Proof.Machine.execTbCtrlWrite v s
  | .tbSfcLoRead side => Sys2Proof.Machine.execTbSfcLoRead side s
  | .tbMpcPhRead side => Sys2Proof.Machine.execTbMpcPhRead side s
  | .mpcTick steps => Sys2Proof.Machine.execMpcTick steps s
  | .mainsLoss => Sys2Proof.Machine.execMainsLoss s
  | .mainsHold => Sys2Proof.Machine.execMainsHold s
  | .beaconMarker port => Sys2Proof.Machine.execBeaconMarker port s
  | .beaconFullValue port f => Sys2Proof.Machine.execBeaconFullValue port f s
  | .beaconReload => Sys2Proof.Machine.execBeaconReload s
  | .beaconLoss => Sys2Proof.Machine.execBeaconLoss s
  | .blockDelivery h => Sys2Proof.Machine.execBlockDelivery h s
  | .fetchPoint h tie inside => Sys2Proof.Machine.execFetchPoint h tie inside s
  | .portClkLoss n => Sys2Proof.Machine.execPortClkLoss n s
  | .portClkReturn n => Sys2Proof.Machine.execPortClkReturn n s
  | .audSpCtrlWrite n v => Sys2Proof.Machine.execAudSpCtrlWrite n v s
  | .audMclkCtrlWrite v => Sys2Proof.Machine.execAudMclkCtrlWrite v s
  | .streamStart h => Sys2Proof.Machine.execStreamStart h s
  | .streamCloseBoundary h => Sys2Proof.Machine.execStreamCloseBoundary h s
  | .usbSetCur hz => Sys2Proof.Machine.execUsbSetCur hz s
  | .usbSetInterface input alt => Sys2Proof.Machine.execUsbSetInterface input alt s
  | .usbIsoOut frames => Sys2Proof.Machine.execUsbIsoOut frames s
  | .usbIsoIn n => Sys2Proof.Machine.execUsbIsoIn n s
  | .usbSuspend => Sys2Proof.Machine.execUsbSuspend s
  | .usbResume => Sys2Proof.Machine.execUsbResume s
  | .usbBulkOut bytes => Sys2Proof.Machine.execUsbBulkOut bytes s
  | .usbBulkIn n => Sys2Proof.Machine.execUsbBulkIn n s
  | .spiFrameWrite bytes => Sys2Proof.Machine.execSpiFrameWrite bytes s
  | .spiFrameRead => Sys2Proof.Machine.execSpiFrameRead s
  | .spiFrameStatus => Sys2Proof.Machine.execSpiFrameStatus s
  | .spiFrameOther op => Sys2Proof.Machine.execSpiFrameOther op s
  | .spiCsAssert => Sys2Proof.Machine.execSpiCsAssert s
  | .powerState id => Sys2Proof.Machine.execPowerState id s
  | .powerEntry pending => Sys2Proof.Machine.execPowerEntry pending s
  | .wakeDone => Sys2Proof.Machine.execWakeDone s
  | .supplyVwarn n => Sys2Proof.Machine.execSupplyVwarn n s
  | .throttleRelease => Sys2Proof.Machine.execThrottleRelease s
  | .supplyVreset n warn also_ => Sys2Proof.Machine.execSupplyVreset n warn also_ s
  | .thermalSample d temps => Sys2Proof.Machine.execThermalSample d temps s
  | .telemetryMessage d mv ma10 => Sys2Proof.Machine.execTelemetryMessage d mv ma10 s
  | .telemetryLogWrite mw divs iod aon => Sys2Proof.Machine.execTelemetryLogWrite mw divs iod aon s
  | .pmuWindowWrite avs d v => Sys2Proof.Machine.execPmuWindowWrite avs d v s
  | .offBlockAccess side off w => Sys2Proof.Machine.execOffBlockAccess side off w s
  | .autowakeAccess side off w => Sys2Proof.Machine.execAutowakeAccess side off w s
  | .autowakeAccessComplete => Sys2Proof.Machine.execAutowakeAccessComplete s
  | .autowakeTimeout => Sys2Proof.Machine.execAutowakeTimeout s
  | .autowakeIdleReturn b => Sys2Proof.Machine.execAutowakeIdleReturn b s
  | .regulatorReady d => Sys2Proof.Machine.execRegulatorReady d s
  | .regulatorStartTimeout d => Sys2Proof.Machine.execRegulatorStartTimeout d s
  | .cmpInstCrossing high => Sys2Proof.Machine.execCmpInstCrossing high s
  | .cmpMainsCrossing high => Sys2Proof.Machine.execCmpMainsCrossing high s
  | .wakePinEvent n high => Sys2Proof.Machine.execWakePinEvent n high s
  | .fllLock => Sys2Proof.Machine.execFllLock s
  | .pdmBlock dat0 dat1 => Sys2Proof.Machine.execPdmBlock dat0 dat1 s
  | .aonPdmCtrlWrite v => Sys2Proof.Machine.execAonPdmCtrlWrite v s
  | .rtcTick => Sys2Proof.Machine.execRtcTick s
  | .rtcAlarm => Sys2Proof.Machine.execRtcAlarm s
  | .aonTimerWrite v => Sys2Proof.Machine.execAonTimerWrite v s
  | .aonTimerExpiry => Sys2Proof.Machine.execAonTimerExpiry s
  | .aonRtcLoRead side => Sys2Proof.Machine.execAonRtcLoRead side s
  | .aonDecHead0Read side => Sys2Proof.Machine.execAonDecHead0Read side s
  | .aonT0ThrWrite k v => Sys2Proof.Machine.execAonT0ThrWrite k v s
  | .aonMboxIn3Write v => Sys2Proof.Machine.execAonMboxIn3Write v s
  | .seqStart v => Sys2Proof.Machine.execSeqStart v s
  | .seqHaltRequest v => Sys2Proof.Machine.execSeqHaltRequest v s
  | .seqNop => Sys2Proof.Machine.execSeqNop s
  | .seqAdd => Sys2Proof.Machine.execSeqAdd s
  | .seqSub => Sys2Proof.Machine.execSeqSub s
  | .seqAnd => Sys2Proof.Machine.execSeqAnd s
  | .seqOr => Sys2Proof.Machine.execSeqOr s
  | .seqXor => Sys2Proof.Machine.execSeqXor s
  | .seqShl => Sys2Proof.Machine.execSeqShl s
  | .seqShr => Sys2Proof.Machine.execSeqShr s
  | .seqSar => Sys2Proof.Machine.execSeqSar s
  | .seqMul => Sys2Proof.Machine.execSeqMul s
  | .seqMin => Sys2Proof.Machine.execSeqMin s
  | .seqMax => Sys2Proof.Machine.execSeqMax s
  | .seqAddi => Sys2Proof.Machine.execSeqAddi s
  | .seqAndi => Sys2Proof.Machine.execSeqAndi s
  | .seqOri => Sys2Proof.Machine.execSeqOri s
  | .seqLui => Sys2Proof.Machine.execSeqLui s
  | .seqLw => Sys2Proof.Machine.execSeqLw s
  | .seqSw => Sys2Proof.Machine.execSeqSw s
  | .seqLh => Sys2Proof.Machine.execSeqLh s
  | .seqSh => Sys2Proof.Machine.execSeqSh s
  | .seqBeq => Sys2Proof.Machine.execSeqBeq s
  | .seqBne => Sys2Proof.Machine.execSeqBne s
  | .seqBlt => Sys2Proof.Machine.execSeqBlt s
  | .seqBge => Sys2Proof.Machine.execSeqBge s
  | .seqJal => Sys2Proof.Machine.execSeqJal s
  | .seqJr => Sys2Proof.Machine.execSeqJr s
  | .seqRdio => Sys2Proof.Machine.execSeqRdio s
  | .seqWrio => Sys2Proof.Machine.execSeqWrio s
  | .seqWaitev => Sys2Proof.Machine.execSeqWaitev s
  | .seqShrew => Sys2Proof.Machine.execSeqShrew s
  | .seqDecide => Sys2Proof.Machine.execSeqDecide s
  | .seqHalt => Sys2Proof.Machine.execSeqHalt s
  | .shrewDone => Sys2Proof.Machine.execShrewDone s
  | .gcpSqCfgWrite n v => Sys2Proof.Machine.execGcpSqCfgWrite n v s
  | .gcpCqCfgWrite n v => Sys2Proof.Machine.execGcpCqCfgWrite n v s
  | .gcpTransportCfgWrite spi v => Sys2Proof.Machine.execGcpTransportCfgWrite spi v s
  | .gcpSqTailWrite n v => Sys2Proof.Machine.execGcpSqTailWrite n v s
  | .gcpCqHeadWrite n v => Sys2Proof.Machine.execGcpCqHeadWrite n v s
  | .commandRead n host => Sys2Proof.Machine.execCommandRead n host s
  | .commandTimeout id tie => Sys2Proof.Machine.execCommandTimeout id tie s
  | .nop id => Sys2Proof.Machine.execNop id s
  | .abort id tie => Sys2Proof.Machine.execAbort id tie s
  | .tenantCreate id => Sys2Proof.Machine.execTenantCreate id s
  | .tenantDestroy id => Sys2Proof.Machine.execTenantDestroy id s
  | .tenantSet id => Sys2Proof.Machine.execTenantSet id s
  | .sessionOpen id tie => Sys2Proof.Machine.execSessionOpen id tie s
  | .sessionClose id => Sys2Proof.Machine.execSessionClose id s
  | .imageLoad id img => Sys2Proof.Machine.execImageLoad id img s
  | .imageUnload id => Sys2Proof.Machine.execImageUnload id s
  | .streamOpen id => Sys2Proof.Machine.execStreamOpen id s
  | .streamClose id => Sys2Proof.Machine.execStreamClose id s
  | .streamMigrate id => Sys2Proof.Machine.execStreamMigrate id s
  | .streamRoute id => Sys2Proof.Machine.execStreamRoute id s
  | .streamPatch id => Sys2Proof.Machine.execStreamPatch id s
  | .runOp id => Sys2Proof.Machine.execRunOp id s
  | .runProgram id => Sys2Proof.Machine.execRunProgram id s
  | .kvPoolCreate id => Sys2Proof.Machine.execKvPoolCreate id s
  | .kvPoolDestroy id => Sys2Proof.Machine.execKvPoolDestroy id s
  | .kvSeqCreate id => Sys2Proof.Machine.execKvSeqCreate id s
  | .kvSeqFork id => Sys2Proof.Machine.execKvSeqFork id s
  | .kvSeqFree id tie => Sys2Proof.Machine.execKvSeqFree id tie s
  | .kvSeqTruncate id tie => Sys2Proof.Machine.execKvSeqTruncate id tie s
  | .kvSeqQuery id => Sys2Proof.Machine.execKvSeqQuery id s
  | .cascadeConfigRule id => Sys2Proof.Machine.execCascadeConfigRule id s
  | .cascadeConfigProgram id => Sys2Proof.Machine.execCascadeConfigProgram id s
  | .epochOpen id => Sys2Proof.Machine.execEpochOpen id s
  | .epochBind id => Sys2Proof.Machine.execEpochBind id s
  | .epochUnbind id => Sys2Proof.Machine.execEpochUnbind id s
  | .epochCommit id => Sys2Proof.Machine.execEpochCommit id s
  | .epochAbort id => Sys2Proof.Machine.execEpochAbort id s
  | .ruleEn id => Sys2Proof.Machine.execRuleEn id s
  | .seqRun id => Sys2Proof.Machine.execSeqRun id s
  | .warmReset id also_ => Sys2Proof.Machine.execWarmReset id also_ s
  | .dieReset id => Sys2Proof.Machine.execDieReset id s
  | .coreReset id => Sys2Proof.Machine.execCoreReset id s
  | .snapshot id => Sys2Proof.Machine.execSnapshot id s
  | .rekeyMap id => Sys2Proof.Machine.execRekeyMap id s
  | .rekeyUnmap id => Sys2Proof.Machine.execRekeyUnmap id s
  | .rekeyRotate id => Sys2Proof.Machine.execRekeyRotate id s
  | .rekeyInit id => Sys2Proof.Machine.execRekeyInit id s
  | .rekeyWalkDone upTo => Sys2Proof.Machine.execRekeyWalkDone upTo s
  | .rekeyInitDone => Sys2Proof.Machine.execRekeyInitDone s
  | .intakeSubmit id => Sys2Proof.Machine.execIntakeSubmit id s
  | .intakeSample => Sys2Proof.Machine.execIntakeSample s
  | .captureStart id => Sys2Proof.Machine.execCaptureStart id s
  | .exciteStart k => Sys2Proof.Machine.execExciteStart k s
  | .exciteEnd k => Sys2Proof.Machine.execExciteEnd k s
  | .alignDone k => Sys2Proof.Machine.execAlignDone k s
  | .fitStep k => Sys2Proof.Machine.execFitStep k s
  | .captureStatus id => Sys2Proof.Machine.execCaptureStatus id s
  | .capturePause id => Sys2Proof.Machine.execCapturePause id s
  | .captureResume id => Sys2Proof.Machine.execCaptureResume id s
  | .captureStop id => Sys2Proof.Machine.execCaptureStop id s
  | .cameraStart id => Sys2Proof.Machine.execCameraStart id s
  | .cameraStop id => Sys2Proof.Machine.execCameraStop id s
  | .cameraUpdate id => Sys2Proof.Machine.execCameraUpdate id s
  | .csiFrameStart vc => Sys2Proof.Machine.execCsiFrameStart vc s
  | .csiLineStart vc => Sys2Proof.Machine.execCsiLineStart vc s
  | .csiLongPacket vc dt pix crcOk lineRc behind => Sys2Proof.Machine.execCsiLongPacket vc dt pix crcOk lineRc behind s
  | .csiFrameEnd vc => Sys2Proof.Machine.execCsiFrameEnd vc s
  | .csiOtherPacket vc dt ecc => Sys2Proof.Machine.execCsiOtherPacket vc dt ecc s
  | .frameOutputDone => Sys2Proof.Machine.execFrameOutputDone s
  | .trigPulseEnd => Sys2Proof.Machine.execTrigPulseEnd s
  | .jobDispatch j => Sys2Proof.Machine.execJobDispatch j s
  | .preemptSaveDone core rc => Sys2Proof.Machine.execPreemptSaveDone core rc s
  | .jobRestoreDone core => Sys2Proof.Machine.execJobRestoreDone core s
  | .schCtrlWrite v => Sys2Proof.Machine.execSchCtrlWrite v s
  | .tileNop core => Sys2Proof.Machine.execTileNop core s
  | .tileAdd core => Sys2Proof.Machine.execTileAdd core s
  | .tileSub core => Sys2Proof.Machine.execTileSub core s
  | .tileAnd core => Sys2Proof.Machine.execTileAnd core s
  | .tileOr core => Sys2Proof.Machine.execTileOr core s
  | .tileXor core => Sys2Proof.Machine.execTileXor core s
  | .tileShl core => Sys2Proof.Machine.execTileShl core s
  | .tileShr core => Sys2Proof.Machine.execTileShr core s
  | .tileSar core => Sys2Proof.Machine.execTileSar core s
  | .tileMul core => Sys2Proof.Machine.execTileMul core s
  | .tileAddi core => Sys2Proof.Machine.execTileAddi core s
  | .tileMovi core => Sys2Proof.Machine.execTileMovi core s
  | .tileCmp core => Sys2Proof.Machine.execTileCmp core s
  | .tileCmpi core => Sys2Proof.Machine.execTileCmpi core s
  | .tileLds core => Sys2Proof.Machine.execTileLds core s
  | .tileSts core => Sys2Proof.Machine.execTileSts core s
  | .tileBr core => Sys2Proof.Machine.execTileBr core s
  | .tileLoop core => Sys2Proof.Machine.execTileLoop core s
  | .tileEnd core tie => Sys2Proof.Machine.execTileEnd core tie s
  | .tileDma core => Sys2Proof.Machine.execTileDma core s
  | .dmaComplete core tag host => Sys2Proof.Machine.execDmaComplete core tag host s
  | .tileDmaw core => Sys2Proof.Machine.execTileDmaw core s
  | .tileMma core => Sys2Proof.Machine.execTileMma core s
  | .tileVop core => Sys2Proof.Machine.execTileVop core s
  | .tileVpwl core => Sys2Proof.Machine.execTileVpwl core s
  | .tileVcvt core => Sys2Proof.Machine.execTileVcvt core s
  | .tileVred core => Sys2Proof.Machine.execTileVred core s
  | .tileCurve core => Sys2Proof.Machine.execTileCurve core s
  | .tileEpi core => Sys2Proof.Machine.execTileEpi core s
  | .tileWin core => Sys2Proof.Machine.execTileWin core s
  | .tileRstep core => Sys2Proof.Machine.execTileRstep core s
  | .tileAttn core => Sys2Proof.Machine.execTileAttn core s
  | .tileSig core => Sys2Proof.Machine.execTileSig core s
  | .signalDelivery k => Sys2Proof.Machine.execSignalDelivery k s
  | .tileSwait core => Sys2Proof.Machine.execTileSwait core s
  | .swaitTimeout core tie => Sys2Proof.Machine.execSwaitTimeout core tie s
  | .tileTwait core => Sys2Proof.Machine.execTileTwait core s
  | .tileWait core dozeRc => Sys2Proof.Machine.execTileWait core dozeRc s
  | .tileMode core => Sys2Proof.Machine.execTileMode core s
  | .tileLive core => Sys2Proof.Machine.execTileLive core s
  | .tileSnap core => Sys2Proof.Machine.execTileSnap core s
  | .deadlockDetect deadlineNear arrival => Sys2Proof.Machine.execDeadlockDetect deadlineNear arrival s
  | .schDlCtrlWrite v => Sys2Proof.Machine.execSchDlCtrlWrite v s
  | .schHoardWrite d v => Sys2Proof.Machine.execSchHoardWrite d v s
  | .scoreWordEvaluate j => Sys2Proof.Machine.execScoreWordEvaluate j s
  | .tier0DecisionHandle => Sys2Proof.Machine.execTier0DecisionHandle s
  | .epochWindowExpiry r tie => Sys2Proof.Machine.execEpochWindowExpiry r tie s
  | .commitPoint slot => Sys2Proof.Machine.execCommitPoint slot s
  | .epochWritebackDone slot => Sys2Proof.Machine.execEpochWritebackDone slot s
  | .epochAbortDone slot => Sys2Proof.Machine.execEpochAbortDone slot s
  | .trngHealthFail => Sys2Proof.Machine.execTrngHealthFail s
  | .trngRetest pass => Sys2Proof.Machine.execTrngRetest pass s
  | .lpddrRetrain => Sys2Proof.Machine.execLpddrRetrain s
  | .bar2Access off len w => Sys2Proof.Machine.execBar2Access off len w s
  | .memBar2BaseWrite v => Sys2Proof.Machine.execMemBar2BaseWrite v s
  | .keyTdiWrite v lock => Sys2Proof.Machine.execKeyTdiWrite v lock s
  | .getVersion => Sys2Proof.Machine.execGetVersion s
  | .getCapabilities => Sys2Proof.Machine.execGetCapabilities s
  | .negotiateAlgorithms => Sys2Proof.Machine.execNegotiateAlgorithms s
  | .getDigests => Sys2Proof.Machine.execGetDigests s
  | .getCertificate => Sys2Proof.Machine.execGetCertificate s
  | .challenge => Sys2Proof.Machine.execChallenge s
  | .getMeasurements => Sys2Proof.Machine.execGetMeasurements s
  | .keyExchange => Sys2Proof.Machine.execKeyExchange s
  | .finish => Sys2Proof.Machine.execFinish s
  | .endSession => Sys2Proof.Machine.execEndSession s
  | .ideKmQuery => Sys2Proof.Machine.execIdeKmQuery s
  | .keyProg stream sub keySet key => Sys2Proof.Machine.execKeyProg stream sub keySet key s
  | .kSetGo stream sub keySet => Sys2Proof.Machine.execKSetGo stream sub keySet s
  | .kSetStop stream sub keySet => Sys2Proof.Machine.execKSetStop stream sub keySet s
  | .getTdispVersion => Sys2Proof.Machine.execGetTdispVersion s
  | .getTdispCapabilities => Sys2Proof.Machine.execGetTdispCapabilities s
  | .lockInterface => Sys2Proof.Machine.execLockInterface s
  | .getDeviceInterfaceReport => Sys2Proof.Machine.execGetDeviceInterfaceReport s
  | .getDeviceInterfaceState => Sys2Proof.Machine.execGetDeviceInterfaceState s
  | .startInterface => Sys2Proof.Machine.execStartInterface s
  | .stopInterface => Sys2Proof.Machine.execStopInterface s
  | .pcieConfigWrite c => Sys2Proof.Machine.execPcieConfigWrite c s
  | .ideStreamInsecure stream => Sys2Proof.Machine.execIdeStreamInsecure stream s
  | .pciePortReset linkDown => Sys2Proof.Machine.execPciePortReset linkDown s
  | .firmwareVerify image sourceOk => Sys2Proof.Machine.execFirmwareVerify image sourceOk s
  | .glbBootCtrlWrite v => Sys2Proof.Machine.execGlbBootCtrlWrite v s
  | .firmwareReady => Sys2Proof.Machine.execFirmwareReady s
  | .neighbourBootTimeout => Sys2Proof.Machine.execNeighbourBootTimeout s
  | .dataFrame port f => Sys2Proof.Machine.execDataFrame port f s
  | .cmdFrame port f => Sys2Proof.Machine.execCmdFrame port f s
  | .cplFrame port f => Sys2Proof.Machine.execCplFrame port f s
  | .linkStateFrame port f => Sys2Proof.Machine.execLinkStateFrame port f s
  | .quietStateFrame port f => Sys2Proof.Machine.execQuietStateFrame port f s
  | .enumerationProposal port f lock => Sys2Proof.Machine.execEnumerationProposal port f lock s
  | .quillFrame port f => Sys2Proof.Machine.execQuillFrame port f s
  | .wakeFrame port f => Sys2Proof.Machine.execWakeFrame port f s
  | .ackReceived port seq => Sys2Proof.Machine.execAckReceived port seq s
  | .nakReceived port seq => Sys2Proof.Machine.execNakReceived port seq s
  | .replayTimeout port tie => Sys2Proof.Machine.execReplayTimeout port tie s
  | .shusorPhaseComplete port r => Sys2Proof.Machine.execShusorPhaseComplete port r s
  | .trainingPhaseTimeout port => Sys2Proof.Machine.execTrainingPhaseTimeout port s
  | .autoRetryTimer port => Sys2Proof.Machine.execAutoRetryTimer port s
  | .retrainRequest port width node => Sys2Proof.Machine.execRetrainRequest port width node s
  | .retrainAccept port => Sys2Proof.Machine.execRetrainAccept port s
  | .clashBackoffExpiry port => Sys2Proof.Machine.execClashBackoffExpiry port s
  | .enumerationComplete id => Sys2Proof.Machine.execEnumerationComplete id s
  | .portUp id => Sys2Proof.Machine.execPortUp id s
  | .portDown id => Sys2Proof.Machine.execPortDown id s
  | .retrain id => Sys2Proof.Machine.execRetrain id s
  | .setWidth id => Sys2Proof.Machine.execSetWidth id s
  | .setRate id => Sys2Proof.Machine.execSetRate id s
  | .setNodeId id lock => Sys2Proof.Machine.execSetNodeId id lock s
  | .enumerate id lock => Sys2Proof.Machine.execEnumerate id lock s
  | .beaconRoot id => Sys2Proof.Machine.execBeaconRoot id s
  | .beaconJoin id => Sys2Proof.Machine.execBeaconJoin id s
  | .proxyBind id => Sys2Proof.Machine.execProxyBind id s
  | .proxyUnbind id => Sys2Proof.Machine.execProxyUnbind id s
  | .portReset id => Sys2Proof.Machine.execPortReset id s
  | .quillSidebandArrival d => Sys2Proof.Machine.execQuillSidebandArrival d s
  | .obsQuillFireWrite v => Sys2Proof.Machine.execObsQuillFireWrite v s
  | .quillPinFall fire => Sys2Proof.Machine.execQuillPinFall fire s
  | .quillPinOutEnd => Sys2Proof.Machine.execQuillPinOutEnd s
  | .obsQuillRearmWrite v tie => Sys2Proof.Machine.execObsQuillRearmWrite v tie s
  | .obsTlogIdxWrite side v => Sys2Proof.Machine.execObsTlogIdxWrite side v s
  | .rcRegisterRead side off event => Sys2Proof.Machine.execRcRegisterRead side off event s
  | .bar0BadWidthAccess off width w => Sys2Proof.Machine.execBar0BadWidthAccess off width w s
  | .registerWrite side off v hw => Sys2Proof.Machine.execRegisterWrite side off v hw s
  | .coreResetDone core => Sys2Proof.Machine.execCoreResetDone core s
  | .pcieLinkUp => Sys2Proof.Machine.execPcieLinkUp s
  | .csiLaneStateChange lanes clk => Sys2Proof.Machine.execCsiLaneStateChange lanes clk s
  | .csiDeskew => Sys2Proof.Machine.execCsiDeskew s

end Sys2Proof.Machine
end

