-- ==== Sys2Proof/Safety.lean ====
section
/-!
DEFINITION. What a safe run is, in the terms that statements use: no command stops the block, the memories stay in canonical form;
when a Garast command may start at once; what a completion may touch; what may differ after a command.
-/
namespace Sys2Proof.Safety
open Sys2Proof.Machine

/-- Does the outcome go on? -/
def goesOn (o : Host.Outcome State Fault Refusal) : Prop := ∃ t, o = .next t

/-- A state from which the next step goes on. -/
def safe (s : State) : Prop := goesOn (step s)

/-- The invariant of every step: both memories are in canonical form. -/
def Inv (s : State) : Prop := Memory.wf s.mem = true ∧ Memory.wf s.hostOut = true

/-- A Garast command of opcode `op` that has been read and takes effect at once: no due word, no earlier command in its way (R58,
R182, R183). -/
structure Ready (s : State) (c : Cmd) (op : Nat) : Prop where
  here : s.cmd c.id = some c
  opcode : c.op = op
  phase : c.phase = .read
  may : s.mayStart c = true
  due : dueSel c.due = 0

/-- The command under way. -/
def going (c : Cmd) : Cmd := { c with phase := .running }

/-- The state in which a command is under way. -/
def begun (s : State) (c : Cmd) : State := s.modCmd c.id (fun _ => going c)

/-- A Garast row takes effect: from every state in which a command of its opcode is ready, carries the row's selector and passes its
checks, the row answers the state after the command's own effect, made under way (R58, R174, R182, R183). -/
def TakesEffect (row : Nat → Instr) (op : Nat) (sel : Cmd → Bool) (check : State → Cmd → Option Nat) (apply : Cmd → State → State) : Prop :=
  ∀ (s : State) (c : Cmd), Ready s c op → sel c = true → check s c = none → exec (row c.id) s = .next (apply (going c) (begun s c))

/-- From `s` to `t` nothing differs but what a completion touches (R16, R168-R170, R399, R515, R534): the outstanding commands and
their compares, the rings, the memory and the host memory that completion rings lie in, the counts of outcomes, the interrupts, the
entries that an epoch holds, and the frames that carry a completion to another part. -/
structure OnlyCompletion (s t : State) : Prop where
  build : t.build = s.build
  glb : t.glb = s.glb
  dies : t.dies = s.dies
  tb : t.tb = { s.tb with compares := t.tb.compares }
  clk : t.clk = s.clk
  pmu : t.pmu = s.pmu
  aon : t.aon = s.aon
  gcp : t.gcp = s.gcp
  tenants : t.tenants = s.tenants
  images : t.images = s.images
  streams : t.streams = s.streams
  jobs : t.jobs = s.jobs
  cores : t.cores = s.cores
  sch : t.sch = s.sch
  rules : t.rules = s.rules
  pools : t.pools = s.pools
  kvShares : t.kvShares = s.kvShares
  key : t.key = s.key
  memc : t.memc = s.memc
  aud : t.aud = s.aud
  caps : t.caps = s.caps
  cam : t.cam = s.cam
  itk : t.itk = s.itk
  slk : t.slk = { s.slk with ports := t.slk.ports }
  obs : t.obs = { s.obs with outcomes := t.obs.outcomes }
  rdata : t.rdata = s.rdata
  reply : t.reply = s.reply
  fresh : t.fresh = s.fresh
  pending : t.pending = s.pending

/-- What a warm reset leaves of `s` (R34, R68-R71, Table 3.8): the cause and its history bit with those that start in the same cycle, a
strap fault where the package strap word names another variant, no command, tenant, image, stream, job, core state, epoch, rule, pool or
capture, no key and an unlocked TDI, the DM of every die zero; the SFC, TB_CTRL, the island and the rings' configuration stay; but
for the WARM_RESET command, which completes the others first, firmware still owes the outstanding commands their completions. -/
structure WarmReset (s t : State) (cause : Nat) (also : AlsoReset) : Prop where
  build : t.build = s.build
  causeIs : fld s.glb.pkgWord 4 4 = 3 → t.glb.cause = BitVec.ofNat 4 cause
  hist : fld s.glb.pkgWord 4 4 = 3 → t.glb.hist = setBit s.glb.hist cause ||| also.causes
  strap : fld s.glb.pkgWord 4 4 ≠ 3 → t.glb.cause = 8 ∧ t.glb.hist = setBit (setBit s.glb.hist cause ||| also.causes) 8 ∧ t.glb.stage = 4
  dieRst : t.glb.dieRst = s.glb.dieRst ||| also.dies
  owed : t.gcp.owed = if cause = 2 then s.gcp.owed else s.gcp.owed ++ s.cmds
  ready : t.glb.ready = false
  cmds : t.cmds = []
  tenants : t.tenants = [] ∧ t.images = [] ∧ t.streams = [] ∧ t.jobs = []
  cores : t.cores = [] ∧ t.epochs = [] ∧ t.rules = [] ∧ t.pools = [] ∧ t.kvShares = [] ∧ t.caps = []
  keys : t.key.slots = [] ∧ t.key.descs = [] ∧ t.key.tdi = .unlocked
  bridges : ∀ d, d < 4 → (t.die d).bridge = .off
  sfc : t.tb.sfc = s.tb.sfc ∧ t.tb.ctrl = s.tb.ctrl ∧ t.tb.compares = []
  aon : t.aon = s.aon
  errors : t.tb.err = s.tb.err ∧ t.clk.err = s.clk.err ∧ t.aud.err = s.aud.err ∧ t.glb.bridgeErr = s.glb.bridgeErr
  dm : ∀ d x, d < 4 → x < 0x1000000 → mread t.mem (dmBase d + x) = 0

/-- Core `k` is at a tile instruction of opcode `op`, well encoded, with a guard that holds, the core runs, and its job is not one of an
epoch that aborts (R403). -/
structure TileAt (s : State) (k : Nat) (w : W128) (op : Nat) : Prop where
  fetch : s.fetch k = .word w
  opcode : tOp w = op
  legal : tEncFault w = none
  guard : (s.core k).guard w = true
  runs : (s.core k).phase = .running
  goes : s.stopped k = false

/-- The core and the opcode of a row of Table 9.5. -/
def tileRow : Instr → Option (Fin 64 × Nat)
  | .tileNop c => some (c, 0x00) | .tileAdd c => some (c, 0x01) | .tileSub c => some (c, 0x02) | .tileAnd c => some (c, 0x03)
  | .tileOr c => some (c, 0x04) | .tileXor c => some (c, 0x05) | .tileShl c => some (c, 0x06) | .tileShr c => some (c, 0x07)
  | .tileSar c => some (c, 0x08) | .tileMul c => some (c, 0x09) | .tileAddi c => some (c, 0x0A) | .tileMovi c => some (c, 0x0B)
  | .tileCmp c => some (c, 0x0C) | .tileCmpi c => some (c, 0x0D) | .tileLds c => some (c, 0x0E) | .tileSts c => some (c, 0x0F)
  | .tileBr c => some (c, 0x10) | .tileLoop c => some (c, 0x11) | .tileDma c => some (c, 0x20)
  | .tileDmaw c => some (c, 0x21) | .tileMma c => some (c, 0x30) | .tileVop c => some (c, 0x40) | .tileVpwl c => some (c, 0x41)
  | .tileVcvt c => some (c, 0x42) | .tileVred c => some (c, 0x43) | .tileCurve c => some (c, 0x44) | .tileEpi c => some (c, 0x50)
  | .tileWin c => some (c, 0x51) | .tileRstep c => some (c, 0x52) | .tileAttn c => some (c, 0x53) | .tileSig c => some (c, 0x60)
  | .tileSwait c => some (c, 0x61) | .tileTwait c => some (c, 0x62) | .tileWait c _ => some (c, 0x63) | .tileMode c => some (c, 0x64)
  | .tileLive c => some (c, 0x65) | .tileSnap c => some (c, 0x66)
  | _ => none

/-- The sequencer is at a well-formed instruction of opcode `op` and executes it (R149, R150). -/
structure SeqAt (s : State) (op : Nat) : Prop where
  running : s.aon.seq.halted = false
  gated : s.aon.seq.waiting = false
  opcode : qOp s.aon.seq.instr = op
  legal : qLegal s.aon.seq.instr = true
  room : s.aon.seq.pc < 4095

/-- The state after an instruction that writes `v` to wD and nothing else but the PC (w0 ignores the write). -/
def seqWrote (s : State) (v : W32) : State :=
  { s with aon.seq := { s.aon.seq with w := if qD s.aon.seq.instr = 0 then s.aon.seq.w else tset 0 s.aon.seq.w (qD s.aon.seq.instr) v,
                                       pc := s.aon.seq.pc + 1 } }

/-- R153: a faulting instruction halts the sequencer with its code; the PC and the registers stay, and SEQ_FAULT is set. RUN clears (the
model's choice, log 135). -/
def SeqFaulted (s t : State) (code : BitVec 4) : Prop :=
  t.aon.seq = { s.aon.seq with fault := code, run := false, halted := true, waiting := false } ∧ t.mem = s.mem ∧ bit t.aon.err 0 = true ∧
  t.glb = s.glb ∧ t.dies = s.dies ∧ t.tb = s.tb ∧ t.cores = s.cores ∧ t.cmds = s.cmds ∧ t.aon.pdmCtrl = s.aon.pdmCtrl ∧
  t.aon.fifo = s.aon.fifo ∧ t.pmu = s.pmu

end Sys2Proof.Safety
end

