-- ==== Sys2Proof/Certificates/Slice0/Obligations.lean ====
section
/-!
DEFINITION. The statements for the provers, by family of commands. A command's statement says the state it answers under hypotheses on
the state and its operands; every other part of that state is as before, since the state is given whole or by a frame.
-/
namespace Sys2Proof
open Sys2Proof.Machine Sys2Proof.Safety

/-! ### Every step -/

/-- Section 7.1 and the block's queue: a step runs the command at the front of the queue on the state with the queue's rest. -/
def Says.StepRunsFront : Prop :=
  ∀ (s : State) (c : Instr) (rest : List Instr), s.pending = c :: rest → step s = exec c { s with pending := rest }

/-- With no command waiting the block idles (the model's choice, log 4). -/
def Says.EmptyQueueIdles : Prop := ∀ s : State, s.pending = [] → step s = .next s

/-- Every command goes on from every state: the part reports an error as state, as a completion or as a recorded fault, and no
command stops it. -/
def Says.EveryCommandGoesOn : Prop := ∀ (c : Instr) (s : State), goesOn (exec c s)

/-- Every command of Table 7.4 completes where the spec has it execute: once it has been read with no due word, nothing holds it (R58, R182,
R183) and its checks pass (R174, R175), it takes its own effect, which the statements of its family spell out. -/
def Says.CommandsTakeEffect : Prop :=
  TakesEffect .nop 0x0001 (fun _ => true) noParams State.applyNop ∧
  TakesEffect .tenantCreate 0x0010 (fun _ => true) checkTenantCreate State.applyTenantCreate ∧
  TakesEffect .tenantDestroy 0x0011 (fun _ => true) checkTenantDestroy State.applyTenantDestroy ∧
  TakesEffect .tenantSet 0x0012 (fun _ => true) checkTenantSet State.applyTenantSet ∧
  TakesEffect .sessionClose 0x0014 (fun _ => true) checkSessionClose State.applySessionClose ∧
  TakesEffect .imageUnload 0x0021 (fun _ => true) checkImageUnload State.applyImageUnload ∧
  TakesEffect .streamClose 0x0031 (fun _ => true) checkClose State.applyClose ∧
  TakesEffect .streamMigrate 0x0032 (fun _ => true) checkMigrate State.applyMigrate ∧
  TakesEffect .streamPatch 0x0034 (fun _ => true) checkPatch State.applyPatch ∧
  TakesEffect .runOp 0x0040 (fun _ => true) checkRunOp State.applyRunOp ∧
  TakesEffect .runProgram 0x0041 (fun _ => true) checkRunProgram State.applyRunProgram ∧
  TakesEffect .kvPoolCreate 0x0050 (fun _ => true) checkPoolCreate State.applyPoolCreate ∧
  TakesEffect .kvPoolDestroy 0x0051 (fun _ => true) checkPoolDestroy State.applyPoolDestroy ∧
  TakesEffect .kvSeqCreate 0x0052 (fun c => c.kvOper == 0) checkKvSeq State.applyKvSeq ∧
  TakesEffect .kvSeqFork 0x0052 (fun c => c.kvOper == 1) checkKvSeq State.applyKvSeq ∧
  TakesEffect .kvSeqQuery 0x0052 (fun c => c.kvOper == 4) checkKvSeq State.applyKvSeq ∧
  TakesEffect .cascadeConfigRule 0x0060 (fun c => c.p 0 1 ≠ 1) checkRule State.applyRule ∧
  TakesEffect .epochOpen 0x0061 (fun c => c.ctrlOper == 0) checkCtrl State.applyOpen ∧
  TakesEffect .epochBind 0x0061 (fun c => c.ctrlOper == 1) checkCtrl State.applyBind ∧
  TakesEffect .epochUnbind 0x0061 (fun c => c.ctrlOper == 2) checkCtrl State.applyUnbind ∧
  TakesEffect .epochAbort 0x0061 (fun c => c.ctrlOper == 4) checkCtrl State.applyEpochAbort ∧
  TakesEffect .ruleEn 0x0061 (fun c => c.ctrlOper == 5) checkCtrl State.applyRuleEn ∧
  TakesEffect .seqRun 0x0061 (fun c => c.ctrlOper == 6) checkCtrl State.applySeqRun ∧
  TakesEffect .powerState 0x0070 (fun _ => true) checkPower State.applyPower ∧
  TakesEffect .dieReset 0x0072 (fun _ => true) checkDieReset State.applyDieReset ∧
  TakesEffect .coreReset 0x0073 (fun _ => true) checkCoreReset State.applyCoreReset ∧
  TakesEffect .snapshot 0x0080 (fun _ => true) checkSnap State.applySnap ∧
  TakesEffect .rekeyMap 0x0090 (rekeySel 0) checkRekey State.applyMap ∧
  TakesEffect .rekeyUnmap 0x0090 (rekeySel 1) checkRekey State.applyUnmap ∧
  TakesEffect .rekeyRotate 0x0090 (rekeySel 2) checkRekey State.applyRotate ∧
  TakesEffect .rekeyInit 0x0090 (rekeySel 3) checkRekey State.applyInit ∧
  TakesEffect .portUp 0x00A0 (linkSel 0) checkLink State.applyPortUp ∧
  TakesEffect .portDown 0x00A0 (linkSel 1) checkLink State.applyPortDown ∧
  TakesEffect .retrain 0x00A0 (linkSel 2) checkLink State.applyRetrain ∧
  TakesEffect .setWidth 0x00A0 (linkSel 3) checkLink State.applySetWidth ∧
  TakesEffect .setRate 0x00A0 (linkSel 4) checkLink State.applySetRate ∧
  TakesEffect .beaconRoot 0x00A0 (linkSel 7) checkLink State.applyBeaconRoot ∧
  TakesEffect .beaconJoin 0x00A0 (linkSel 8) checkLink State.applyBeaconJoin ∧
  TakesEffect .proxyBind 0x00A0 (linkSel 9) checkLink State.applyProxyBind ∧
  TakesEffect .proxyUnbind 0x00A0 (linkSel 10) checkLink State.applyProxyUnbind ∧
  TakesEffect .portReset 0x00A0 (linkSel 11) checkLink State.applyPortReset ∧
  TakesEffect .intakeSubmit 0x00B0 (fun _ => true) checkIntake State.applyIntake ∧
  TakesEffect .captureStart 0x00C0 (fun _ => true) checkCapture State.applyCapture ∧
  TakesEffect .captureStatus 0x00C1 (fun c => c.p 4 1 = 0 || 3 < c.p 4 1) checkCapCtl State.applyCtl ∧
  TakesEffect .capturePause 0x00C1 (fun c => c.p 4 1 = 1) checkCapCtl State.applyCtl ∧
  TakesEffect .captureResume 0x00C1 (fun c => c.p 4 1 = 2) checkCapCtl State.applyCtl ∧
  TakesEffect .captureStop 0x00C1 (fun c => c.p 4 1 = 3) checkCapCtl State.applyCtl ∧
  TakesEffect .cameraStart 0x00D0 (fun c => c.camOper = 0 || 2 < c.camOper) checkCamera State.applyCamera ∧
  TakesEffect .cameraStop 0x00D0 (fun c => c.camOper = 1) checkCamera State.applyCamera ∧
  TakesEffect .cameraUpdate 0x00D0 (fun c => c.camOper = 2) checkCamera State.applyCamera ∧
  TakesEffect (.abort · none) 0x0002 (fun _ => true) checkAbort (State.applyAbort none) ∧
  (∀ d : Nat, TakesEffect (.abort · (some d)) 0x0002 (fun _ => true) checkAbort (State.applyAbort (some d))) ∧
  TakesEffect (.sessionOpen · false) 0x0013 (fun _ => true) checkSessionOpen State.applySessionOpen ∧
  TakesEffect (.kvSeqFree · none) 0x0052 (fun c => c.kvOper == 2) checkKvSeq State.applyKvSeq ∧
  TakesEffect (.kvSeqTruncate · none) 0x0052 (fun c => c.kvOper == 3) checkKvSeq State.applyKvSeq ∧
  TakesEffect .cascadeConfigProgram 0x0060 (fun c => c.p 0 1 == 1) checkSeqProgram State.applySeqProgram ∧
  TakesEffect .epochCommit 0x0061 (fun c => c.ctrlOper == 3) checkCtrl State.applyCommit ∧
  (∀ also : AlsoReset, TakesEffect (.warmReset · also) 0x0071 (fun _ => true) noParams (State.applyWarmReset also)) ∧
  TakesEffect (.setNodeId · false) 0x00A0 (linkSel 5) checkLink State.applySetNodeId ∧
  TakesEffect (.enumerate · false) 0x00A0 (linkSel 6) checkLink State.applyEnumerate ∧
  (∀ (s : State) (c : Cmd) (img : ImageDesc), Ready s c 0x0020 → s.pathHeld none img.codeBase (codeBytes img).length = false →
    s.tb.compares.find? (fun k => k.owner == .cmd c.id && k.hit.isSome) = none → checkImageLoad img s c = none →
    exec (.imageLoad c.id img) s = .next (State.applyImageLoad img (going c) (begun s c))) ∧
  (∀ (s : State) (c : Cmd), Ready s c 0x0030 → checkOpen s c = none →
    exec (.streamOpen c.id) s = .next (State.claimStream (going c) ((begun s c).nextBoundary (2 ^ c.p 4 1)) (begun s c))) ∧
  (∀ (s : State) (c : Cmd), Ready s c 0x0033 → checkRoute s c = none → exec (.streamRoute c.id) s = .next (s.readRoute c))

/-- The invariant of every step: the device memory and the host memory stay in canonical form; a step takes one command off the queue
and never changes the build. -/
def Says.StepKeepsInvariant : Prop :=
  ∀ s t : State, step s = .next t → Inv s → Inv t ∧ t.build = s.build ∧ t.pending = s.pending.tail

/-- The invariant holds right after reset. -/
def Says.ResetInvariant : Prop := Inv State.reset

/-- What reset leaves, register by register, where the spec gives the value: the SFC at zero and stopped until APLL lock (R46), every
die off and its bridge OFF (Table 2.1), the rings disabled with SIZE 4 (Table 7.9), the Quill armed (R527), the TDI unlocked, no
tenant, stream, job or command, every core idle with DIV 0. -/
def Says.ResetValues : Prop :=
  State.reset.tb.sfc = 0 ∧ State.reset.tb.sfcRunning = false ∧ State.reset.tb.ctrl = 0x5 ∧
  (∀ d, (State.reset.die d).bridge = .off ∧ (State.reset.die d).power = .off) ∧
  (∀ n, bit (State.reset.ring n).sqCfg 0 = false ∧ fld (State.reset.ring n).sqCfg 4 4 = 4 ∧
    bit (State.reset.ring n).cqCfg 0 = false ∧ (State.reset.ring n).err = 0) ∧
  (∀ t, State.reset.tenant t = none) ∧ (∀ h, State.reset.stream h = none) ∧ (∀ j, State.reset.job j = none) ∧
  State.reset.cmds = [] ∧ State.reset.pending = [] ∧
  (∀ c, (State.reset.core c).phase = .idle ∧ (State.reset.core c).div = 0 ∧ (State.reset.core c).fault = 0) ∧
  (∀ i, (State.reset.slot i).valid = false ∧ (State.reset.desc i).valid = false) ∧
  State.reset.key.tdi = .unlocked ∧ State.reset.pmu.dev = .run ∧ State.reset.sch.rtCap = 900 ∧
  State.reset.sch.dlWindow = 64 ∧ State.reset.sch.dlHorizon = 1000 ∧ State.reset.obs.armed = true ∧
  State.reset.pmu.pkgLimit = 28000 ∧ (∀ p, (State.reset.slp p).st = .disabled) ∧ (∀ a, mread State.reset.mem a = 0)

/-! ### Memory, error bits, completions -/

/-- Stores and reads of the device memory: a read inside a store gives the stored byte, a read outside it what was there; a cleared
range reads zero; both keep the canonical form, so that equal memories are equal data. -/
def Says.MemoryStores : Prop :=
  ∀ (m : List Host.Cell), Memory.wf m = true → ∀ (a x : Nat) (bs : List Byte) (b : Nat),
    Memory.wf (mwrite m a bs) = true ∧ Memory.wf (mzero m a b) = true ∧
    (∀ i, i < bs.length → mread (mwrite m a bs) (a + i) = bs.getD i 0) ∧
    (x < a ∨ a + bs.length ≤ x → mread (mwrite m a bs) x = mread m x) ∧
    (a ≤ x → x < b → mread (mzero m a b) x = 0) ∧ (x < a ∨ b ≤ x → mread (mzero m a b) x = mread m x)

/-- An error bit that is set touches its own register and, when its group of OBS_ERR_SUMMARY rises, the interrupts (R5, R526). -/
def Says.ErrorBits : Prop :=
  ∀ (s : State) (i n a : Nat),
    s.errGlb i = { s with glb.bridgeErr := setBit s.glb.bridgeErr i, irq := (s.errGlb i).irq } ∧
    s.errClk i = { s with clk.err := setBit s.clk.err i, irq := (s.errClk i).irq } ∧
    s.errTb i = { s with tb.err := setBit s.tb.err i, irq := (s.errTb i).irq } ∧
    s.errPmu i = { s with pmu.supErr := setBit s.pmu.supErr i, irq := (s.errPmu i).irq } ∧
    s.errAon i = { s with aon.err := setBit s.aon.err i, irq := (s.errAon i).irq } ∧
    s.errRing n i = { s.modRing n (fun r => { r with err := setBit r.err i }) with irq := (s.errRing n i).irq } ∧
    s.errSch i = { s with sch.err := setBit s.sch.err i, irq := (s.errSch i).irq } ∧
    s.errSync i = { s with sch.syncErr := setBit s.sch.syncErr i, irq := (s.errSync i).irq } ∧
    s.errSpec i = { s with sch.specErr := setBit s.sch.specErr i, irq := (s.errSpec i).irq } ∧
    s.errCore n = { s.modCore n (fun x => { x with err := true }) with irq := (s.errCore n).irq } ∧
    s.errQuant n = { s.modCore n (fun x => { x with qerr := true }) with irq := (s.errQuant n).irq } ∧
    s.errAud i = { s with aud.err := setBit s.aud.err i, irq := (s.errAud i).irq } ∧
    s.errCam i = { s with cam.err := setBit s.cam.err i, irq := (s.errCam i).irq } ∧
    s.errItk = { s with itk.err := true, irq := s.errItk.irq } ∧
    s.errMem i a = { s with memc.err := setBit s.memc.err i, memc.faultAddr := BitVec.ofNat 40 a, irq := (s.errMem i a).irq } ∧
    s.errKey i = { s with key.err := setBit s.key.err i, irq := (s.errKey i).irq } ∧
    s.errSlk n i = { s.modSlp n (fun p => { p with err := setBit p.err i }) with irq := (s.errSlk n i).irq } ∧
    s.errObs i = { s with obs.err := setBit s.obs.err i, irq := (s.errObs i).irq }

/-- A group of OBS_ERR_SUMMARY that rises while OBS_IRQ_EN enables it signals the vector that OBS_IRQ_EN names, as a message or as its
pending bit; without such a rise nothing is signalled (R526, R546). -/
def Says.SummarySignals : Prop :=
  (∀ s t : State, t.summary &&& ~~~ s.summary &&& t.obs.irqEn.setWidth 16 = 0 → s.rise t = t) ∧
  (∀ s t : State, t.summary &&& ~~~ s.summary &&& t.obs.irqEn.setWidth 16 ≠ 0 → t.hostUp = true → t.memc.msixEnable = true →
    bit (t.msixWord (4 * fld t.obs.irqEn 16 6 + 3)) 0 = false →
    s.rise t = { t with irq.sent := tmod 0 t.irq.sent (fld t.obs.irqEn 16 6) (· + 1) }) ∧
  (∀ s t : State, t.summary &&& ~~~ s.summary &&& t.obs.irqEn.setWidth 16 ≠ 0 →
    (t.hostUp = false ∨ t.memc.msixEnable = false ∨ bit (t.msixWord (4 * fld t.obs.irqEn 16 6 + 3)) 0 = true) →
    s.rise t = { t with irq.pending := setBit t.irq.pending (fld t.obs.irqEn 16 6) })

/-- A command that completes is outstanding no more and its compares are disarmed (R16); its completion touches only the rings, the
memory and the host memory that rings lie in, the counts of outcomes, the interrupts, the entries an epoch holds and the frames to
another part (R168-R170, R399, R515, R534). -/
def Says.CompletionTouches : Prop :=
  ∀ (s : State) (c : Cmd) (d : Done),
    OnlyCompletion s (s.finish c d) ∧ (s.finish c d).cmds = s.cmds.filter (fun x => x.id ≠ c.id) ∧
    (s.finish c d).tb.compares = s.tb.compares.filter (fun k =>
      k.owner ≠ .cmd c.id ∧ k.owner ≠ .timer c.id ∧ k.owner ≠ .snap c.id)

/-- A status entry posted to an enabled ring in system SRAM with a free slot and none held (R165, R170, Table 7.4): the 32 bytes at
BASE + 32·TAIL hold the entry with the PHASE of the pass, every other byte is as before, TAIL advances and PHASE turns over at the
ring's end. -/
def Says.CompletionEntry : Prop :=
  ∀ (s : State) (cq : Nat) (st : Status),
    bit (s.ring cq).cqCfg 0 = true → bit (s.ring cq).cqCfg 1 = true → (s.ring cq).cqFull = false → (s.ring cq).held = [] →
    Memory.wf s.mem = true → (s.ring cq).cqBase.toNat + 32 * (s.ring cq).cqTail.toNat + 32 ≤ 0x400000 →
    let a := (s.ring cq).cqBase.toNat + 32 * (s.ring cq).cqTail.toNat
    let n := ((s.ring cq).cqTail.toNat + 1) % ringSize (s.ring cq).cqCfg
    let t := s.postStatus cq st
    (∀ i, i < 32 → mread t.mem (a + i) = (st.bytes (s.ring cq).phase).getD i 0) ∧
    (∀ x, x < a ∨ a + 32 ≤ x → mread t.mem x = mread s.mem x) ∧ t.hostOut = s.hostOut ∧
    t.ring cq = { s.ring cq with cqTail := BitVec.ofNat 12 n, phase := if n = 0 then !(s.ring cq).phase else (s.ring cq).phase } ∧
    (∀ q, q ≠ cq → t.ring q = s.ring q)

/-- Where an entry does not reach its ring: a ring that is not enabled discards it with NO_CQ in the command's ring (R168); a full ring,
or one with entries held, holds it (R169). -/
def Says.CompletionNotWritten : Prop :=
  (∀ (s : State) (cq : Nat) (st : Status), bit (s.ring cq).cqCfg 0 = false → st.sq < 64 →
    s.postStatus cq st = State.errRing st.sq 4 { s with obs.outcomes := tmod 0 s.obs.outcomes st.outcome.toNat satInc }) ∧
  (∀ (s : State) (cq : Nat) (st : Status), bit (s.ring cq).cqCfg 0 = true → ((s.ring cq).cqFull = true ∨ (s.ring cq).held ≠ []) →
    ((s.postStatus cq st).ring cq).held = (s.ring cq).held ++ [st] ∧ (s.postStatus cq st).mem = s.mem ∧
    ((s.postStatus cq st).ring cq).cqTail = (s.ring cq).cqTail)

/-! ### Resets, clocks, timebases, bridges (chapters 2 and 3) -/

/-- COLD_RESET and the straps: everything at its reset value but the build, with the strap word and the voltage of each general VDDIO bank
read (R558), the cause recorded and the other resets of the same cycle recorded beside it; another variant than 0x3 stops in the boot ROM
with a strap fault (R34, R70); the board straps latch once (R35). -/
def Says.ColdResetAndStraps : Prop :=
  (∀ (s : State) (v : Bool) (pkg : BitVec 8) (banks : BitVec 4) (also : AlsoReset), fld pkg 4 4 = 3 →
    exec (.coldReset v pkg banks also) s = .next { State.reset with
      build := s.build, hostOut := s.hostOut, fresh := s.fresh, pending := s.pending, glb.pkgWord := pkg, glb.banks := banks,
      glb.cause := if v then 1 else 0, glb.hist := (if v then 2 else 1) ||| also.causes, glb.dieRst := also.dies }) ∧
  (∀ (s : State) (v : Bool) (pkg : BitVec 8) (banks : BitVec 4) (also : AlsoReset), fld pkg 4 4 ≠ 3 →
    exec (.coldReset v pkg banks also) s = .next { State.reset with
      build := s.build, hostOut := s.hostOut, fresh := s.fresh, pending := s.pending, glb.pkgWord := pkg, glb.banks := banks,
      glb.cause := 8, glb.hist := (if v then 0x102 else 0x101) ||| also.causes, glb.dieRst := also.dies, glb.stage := 4 }) ∧
  (∀ (s : State) (boot : BitVec 3) (node : BitVec 6), s.glb.strapLatched = false →
    exec (.boardStrapLatch boot node) s = .next { s with
      glb.strapLatched := true, glb.bootMode := boot, glb.bootRsvd := boot == 6, glb.nodeStrap := node, glb.activeId := node }) ∧
  (∀ (s : State) (boot : BitVec 3) (node : BitVec 6), s.glb.strapLatched = true → exec (.boardStrapLatch boot node) s = .next s)

/-- Every cause of a warm reset leaves what a warm reset leaves, with its own cause and with those of the same cycle (R69-R72, Table 3.8);
a lost REFCLK also holds the CLC. In OFF nothing is powered that could be reset (R117). -/
def Says.WarmResets : Prop :=
  (∀ (s : State) (a : AlsoReset), s.pmu.dev ≠ .off → ∃ t, exec (.watchdogExpiry a) s = .next t ∧ WarmReset s t 4 a) ∧
  (∀ (s : State) (a : AlsoReset), s.pmu.dev ≠ .off → ∃ t, exec (.jtagReset a) s = .next t ∧ WarmReset s t 9 a) ∧
  (∀ (s : State) (v : BitVec 32) (a : AlsoReset), s.pmu.dev ≠ .off → s.key.tdi = .unlocked → v = 0x00015A3C →
    ∃ t, exec (.resetCtrlWarm v a) s = .next t ∧ WarmReset s t 3 a) ∧
  (∀ (s : State) (a : AlsoReset), s.pmu.dev ≠ .off → s.glb.resetHeld = false → ∃ t, exec (.refclkLoss a) s = .next t ∧
    WarmReset s t 5 a ∧ t.glb.resetHeld = true ∧ t.glb.mgrRunning = false ∧ t.tb.sfcRunning = false ∧
    t.tb.carry = some (s.tb.sfc, 0) ∧ t.tb.clcFrame = s.tb.clcFrame ∧ t.tb.clcLine = s.tb.clcLine) ∧
  (∀ (s : State) (a : AlsoReset), s.pmu.dev ≠ .off → ∃ t, exec (.pllUnlock .dpll a) s = .next t ∧
    WarmReset (State.errClk 1 { s with clk.lock := putBit s.clk.lock 1 false }) t 6 a) ∧
  (∀ (s : State) (a : AlsoReset), s.pmu.dev ≠ .off → ∃ t, exec (.pllUnlock .spll a) s = .next t ∧ t.glb.mgrRunning = false ∧
    WarmReset (State.errClk 0 { s with clk.lock := putBit s.clk.lock 0 false }) t 6 a) ∧
  (∀ (s : State) (a : AlsoReset) (v : BitVec 32), s.pmu.dev = .off → s.key.tdi = .unlocked → v = 0x00015A3C →
    exec (.watchdogExpiry a) s = .next s ∧ exec (.jtagReset a) s = .next s ∧ exec (.refclkLoss a) s = .next s ∧
    exec (.resetCtrlWarm v a) s = .next s ∧ ∀ p, exec (.pllUnlock p a) s = .next s)

/-- A GLB_RESET_CTRL write whose KEY is not 0x5A3C, that sets more than one request bit, or that finds the TDI locked is ignored
(R72). -/
def Says.ResetCtrlIgnored : Prop :=
  ∀ (s : State) (v : BitVec 32) (a : AlsoReset),
    (fld v 0 16 ≠ 0x5A3C ∨ 1 < popcount (fld v 20 4) 4 + at_ (bit v 16) 0 ∨ s.key.tdi = .locked ∨ s.key.tdi = .run) →
    exec (.resetCtrlWarm v a) s = .next s ∧ exec (.resetCtrlDie v) s = .next s

/-- REFCLK returns: the warm reset ends and the SFC resumes as a jump by the frames that the island's ticks count (R51, R69); the manager core
starts when SPLL is locked, otherwise with its lock (R66). -/
def Says.RefclkReturns : Prop :=
  ∀ (s : State) (v : Sfc) (t : Nat), s.glb.resetHeld = true → s.tb.carry = some (v, t) → s.glb.stage ≠ 0 →
    exec .refclkRestored s = .next (State.sfcJump (v + BitVec.ofNat 48 (t * s.rateHz / 32768)) { s with
      glb.resetHeld := false, glb.mgrRunning := bit s.clk.lock 0 || s.glb.mgrRunning, tb.carry := none, tb.sfcRunning := true })

/-- PLLs: a lock sets its status bit, and APLL lock starts the SFC; the loss of an audio, USB, PCIe, Shusor or island PLL sets its error
bit and resets its port, ends in a holdover at the relock, or requires nothing; that of a die's PLL resets the die (R66, R68). SPLL lock starts the
manager core, but not in a reset that the loss of REFCLK holds (R69). -/
def Says.PllEvents : Prop :=
  (∀ s : State, s.pmu.dev ≠ .off → s.tb.apllLost = false → exec (.pllLock .apll) s = .next { s with
    clk.lock := setBit s.clk.lock 2, tb.audLock := true, tb.sfcRunning := !s.glb.resetHeld }) ∧
  (∀ s : State, s.pmu.dev ≠ .off → s.tb.apllLost = true → fld s.tb.ctrl 0 2 = 0 → exec (.pllLock .apll) s = .next
    (State.errTb 0 { s with
      clk.lock := setBit s.clk.lock 2, tb.audLock := true, tb.sfcRunning := !s.glb.resetHeld, tb.apllLost := false,
      tb.sfcActive := 1, tb.wclkPresent := false })) ∧
  (∀ (s : State) (d : Fin 4), s.pmu.dev ≠ .off →
    exec (.pllLock (.cpll d)) s = .next { s with clk.lock := setBit s.clk.lock (8 + 2 * d.val) }) ∧
  (∀ s : State, s.pmu.dev ≠ .off → s.glb.stage ≠ 0 → exec (.pllLock .spll) s = .next { s with
    clk.lock := setBit s.clk.lock 0, glb.mgrRunning := !s.glb.resetHeld || s.glb.mgrRunning }) ∧
  (∀ (s : State) (a : AlsoReset), s.pmu.dev ≠ .off → exec (.pllUnlock .apll a) s = .next
    { State.errClk 2 { s with clk.lock := putBit s.clk.lock 2 false } with tb.audLock := false, tb.apllLost := true }) ∧
  (∀ (s : State) (a : AlsoReset), s.pmu.dev ≠ .off → exec (.pllUnlock .aonFll a) s = .next
    (State.errClk 16 { s with clk.lock := putBit s.clk.lock 16 false })) ∧
  (∀ (s : State) (a : AlsoReset), s.pmu.dev ≠ .off → exec (.pllUnlock .upll a) s = .next
    (State.errClk 4 { s with clk.lock := putBit s.clk.lock 4 false }).usbReset) ∧
  (∀ (s : State) (a : AlsoReset), s.pmu.dev ≠ .off → exec (.pllUnlock .ppll a) s = .next
    ((State.errClk 3 { s with clk.lock := putBit s.clk.lock 3 false }).pcieReset false)) ∧
  (∀ (s : State) (d : Fin 4) (a : AlsoReset), s.pmu.dev ≠ .off → exec (.pllUnlock (.cpll d) a) s = .next
    ((State.errClk (8 + 2 * d.val) { s with clk.lock := putBit s.clk.lock (8 + 2 * d.val) false }).dieReset d.val))

/-- The port scope (Table 3.8): the serial ports and MCLK return to their reset values; the USB function to setting 0 with empty FIFOs;
a PCIe reset unlocks the TDI and ends its sessions; SPI has no port state; a Shusor port is DISABLED with its error register kept. -/
def Says.PortResets : Prop :=
  (∀ s : State, exec (.portScopeReset .aud) s = .next { s with aud.ports := [], aud.mclk := 2, aud.mclkHz := 0, aud.fades := [] }) ∧
  (∀ s : State, exec (.portScopeReset .usb) s = .next { s with
    aud.usbIn := 0, aud.usbOut := 0, aud.usbSuspended := false, aud.usbOutFifo := [], aud.usbInFifo := [], aud.usbStall := false,
    gcp.usbNak := false }) ∧
  (∀ s : State, exec (.portScopeReset .spi) s = .next s) ∧
  (∀ s : State, s.key.tdi = .unlocked → exec (.portScopeReset .pcie) s = .next { s with
    key.tdi := .unlocked, key.spdm := .none, key.ide := [], key.doeReply := 0, irq := {}, memc.linkUp := true,
    memc.busMaster := false, memc.memEnable := false, memc.msixEnable := false, memc.bar0 := 0, memc.bar2 := 0, memc.msixLocation := 0 }) ∧
  (∀ (s : State) (n : Fin 4), exec (.portScopeReset (.slp n)) s = .next (s.slpReset n.val))

/-- The reset of one die: the command of GLB_RESET_CTRL names it, and its cores and its DM are initialised (R70, R72, Table 3.8). -/
def Says.DieResets : Prop :=
  (∀ (s : State) (v : BitVec 32) (d : Fin 4), s.key.tdi = .unlocked → v = BitVec.ofNat 32 (0x5A3C + 2 ^ (20 + d.val)) →
    exec (.resetCtrlDie v) s = .next (s.dieReset d.val)) ∧
  (∀ (s : State) (d : Nat), d < 4 → (∀ c, c / 16 = d → (s.dieReset d).core c = {}) ∧
    (∀ x, x < 0x1000000 → mread (s.dieReset d).mem (dmBase d + x) = 0))

/-- Bridge bring-up (R26, R27, R32, R33): training done enters ID_CHECK; a third failed training is ERROR with TRAIN_FAIL, an earlier
one restarts; a code with wrong parity or of another port is ERROR with its bit, the port's own code is UP. -/
def Says.BridgeBringUp : Prop :=
  (∀ (s : State) (d : Fin 4), (s.die d.val).bridge = .training →
    exec (.bridgeTrainingDone d) s = .next (s.modDie d.val (fun x => { x with bridge := .idCheck }))) ∧
  (∀ (s : State) (d : Fin 4), (s.die d.val).bridge = .training → (s.die d.val).attempts < 2 →
    exec (.bridgeTrainTimeout d) s = .next (s.modDie d.val (fun x => { x with attempts := x.attempts + 1 }))) ∧
  (∀ (s : State) (d : Fin 4), (s.die d.val).bridge = .training → (s.die d.val).attempts = 2 →
    exec (.bridgeTrainTimeout d) s =
      .next (((s.bridgeTo d.val .error).modDie d.val (fun x => { x with attempts := 3 })).errGlb (8 + d.val))) ∧
  (∀ (s : State) (d : Fin 4) (code : BitVec 3), (s.die d.val).bridge = .idCheck → bit code 2 ≠ (bit code 1 != bit code 0) →
    exec (.bridgePositionReport d code) s =
      .next (((s.modDie d.val (fun x => { x with posRaw := code })).bridgeTo d.val .error).errGlb d.val)) ∧
  (∀ (s : State) (d : Fin 4) (code : BitVec 3), (s.die d.val).bridge = .idCheck → bit code 2 = (bit code 1 != bit code 0) →
    fld code 0 2 ≠ d.val → exec (.bridgePositionReport d code) s =
      .next (((s.modDie d.val (fun x => { x with posRaw := code })).bridgeTo d.val .error).errGlb (4 + d.val))) ∧
  (∀ (s : State) (d : Fin 4) (code : BitVec 3), (s.die d.val).bridge = .idCheck → bit code 2 = (bit code 1 != bit code 0) →
    fld code 0 2 = d.val → exec (.bridgePositionReport d code) s =
      .next ((s.modDie d.val (fun x => { x with posRaw := code })).bridgeUp d.val)) ∧
  (∀ (s : State) (d : Nat), (s.bridgeUp d).die d = { s.die d with
    bridge := .up, attempts := 0, power := .on, stateOff := false, seen := true, sfcCopy := s.tb.sfc })

/-- A bridge error in UP retrains (R29); a retrain in time returns to UP, and what the bridge held proceeds; one that misses its time loses the die:
DIE_LOST is set, its cores and its DM are initialised and its bridge is LOST. -/
def Says.BridgeRetrain : Prop :=
  (∀ (s : State) (d : Fin 4), s.dieUp d.val = true →
    exec (.bridgeLinkError d) s = .next (s.modDie d.val (fun x => { x with bridge := .retrain }))) ∧
  (∀ (s : State) (d : Fin 4), (s.die d.val).bridge = .retrain → exec (.bridgeRetrainDone d) s = .next (s.bridgeUp d.val).dmaRelease) ∧
  (∀ s : State, s.sch.heldDma = [] → s.dmaRelease = s) ∧
  (∀ (s : State) (d : Fin 4), (s.die d.val).bridge = .retrain → exec (.bridgeRetrainTimeout d) s = .next
    (State.faultTrig ((((s.bridgeTo d.val .lost).errGlb (16 + d.val)).dieGone d.val rsDieLost 8).dieInit d.val).dmaRelease s 1))

/-- The SFC check (R23, R43): a die whose copy differs is marked with SFC_MISMATCH, and at the next frame its copy takes the SFC as a
jump. -/
def Says.SfcCheck : Prop :=
  (∀ s : State, (∀ d, d < 4 → s.dieUp d = true → (s.die d).sfcCopy = s.tb.sfc) → exec .sfcCheck s = .next s) ∧
  (∀ s : State, s.dieUp 0 = true → (s.die 0).sfcCopy ≠ s.tb.sfc → s.dieUp 1 = false → s.dieUp 2 = false → s.dieUp 3 = false →
    exec .sfcCheck s = .next ((s.modDie 0 (fun x => { x with checkVal := some s.tb.sfc })).errGlb 12)) ∧
  (∀ (s : State) (d : Fin 4) (v : Sfc), (s.die d.val).checkVal = some v → s.dieUp d.val = true →
    exec (.sfcCheckReload d) s =
      .next (((s.modDie d.val (fun x => { x with checkVal := none, sfcCopy := s.tb.sfc })).mark .sfc false true).errTb 3))

/-- Word clock and beacon (R48, R63-R65): a lost WCLK_IN that is followed starts a holdover with WCLK_LOST; a relock ends it; a marker on
the port of the route to the root is followed and relayed, any other ignored; a full value is checked and acknowledged like any frame (R501),
relayed, and one that differs is loaded at the next boundary with BEACON_SLIP, as a jump; missing markers start a holdover with
BEACON_LOST. -/
def Says.WordClockAndBeacon : Prop :=
  (∀ s : State, fld s.tb.ctrl 0 2 = 0 → exec .wclkLoss s = .next
    (State.errTb 0 { s with tb.wclkPresent := false, tb.sfcActive := 1 })) ∧
  (∀ s : State, fld s.tb.ctrl 0 2 ≠ 0 → exec .wclkLoss s = .next { s with tb.wclkPresent := false }) ∧
  (∀ s : State, fld s.tb.ctrl 0 2 = 0 → exec .wclkRelock s = .next
    { s with tb.wclkPresent := true, tb.sfcActive := 0 }) ∧
  (∀ (s : State) (port : Fin 4) (r : Nat), s.beaconFrom port.val = some r →
    exec (.beaconMarker port) s = .next (State.sendMarker r { s with tb.sfcActive := 2, tb.beaconLock := true })) ∧
  (∀ (s : State) (port : Fin 4), s.beaconFrom port.val = none → exec (.beaconMarker port) s = .next s) ∧
  (∀ (s : State) (port : Fin 4), fld s.tb.ctrl 0 2 ≠ 2 ∨ s.slk.rootId = none → s.beaconFrom port.val = none) ∧
  (∀ (s : State) (port : Fin 4) (f : LinkFrame), (s.slp port.val).st = .up → f.ftype = 7 →
    let got := s.modSlp port.val (fun q => { q with rxSeq := q.rxSeq + 1, acked := some true })
    let v : Sfc := BitVec.ofNat 48 (leAt f.payload 0 6)
    (f.crcOk = false ∨ f.seq ≠ (s.slp port.val).rxSeq →
      exec (.beaconFullValue port f) s = .next (s.modSlp port.val (fun q => { q with acked := some false }))) ∧
    (f.crcOk = true → f.seq = (s.slp port.val).rxSeq → f.conf = false → f.dst.toNat = s.node ∨ f.dst = 0xFF →
      (∀ r, got.beaconFrom port.val = some r → v ≠ s.tb.sfc →
        exec (.beaconFullValue port f) s = .next (State.sendFull r v { got with tb.beaconPending := some v })) ∧
      (∀ r, got.beaconFrom port.val = some r → v = s.tb.sfc →
        exec (.beaconFullValue port f) s = .next (State.sendFull r v { got with tb.beaconPending := none })) ∧
      (got.beaconFrom port.val = none → exec (.beaconFullValue port f) s = .next got))) ∧
  (∀ (s : State) (v : Sfc), s.tb.beaconPending = some v →
    exec .beaconReload s = .next ((State.sfcJump v { s with tb.beaconPending := none }).errTb 2)) ∧
  (∀ s : State, fld s.tb.ctrl 0 2 = 2 → exec .beaconLoss s = .next
    (State.errTb 1 { s with tb.sfcActive := 1, tb.beaconLock := false }))

/-- The MPC (R53): a tick advances the phase, while locked not past the crossing that it is locked to (the model's choice, log 111), while
freewheeling by itself, with its cycles counted; a lost mains freewheels, before the lock too; after 16 freewheel cycles it holds with
MAINS_LOST, its compares wait (R57), and a camera with TRIG_EN gets no pulse and its bit (R447); a held MPC does not move. -/
def Says.MainsCounter : Prop :=
  (∀ (s : State) (n : BitVec 16), s.mpcRuns = true → s.tb.mpcMode = .locked → s.tb.mpc.toNat % 65536 + n.toNat < 65536 →
    exec (.mpcTick n) s = .next (State.mark .mpc true false { s with tb.mpc := s.tb.mpc + BitVec.ofNat 48 n.toNat })) ∧
  (∀ (s : State) (n : BitVec 16), s.mpcRuns = true → s.tb.mpcMode = .locked → 65536 ≤ s.tb.mpc.toNat % 65536 + n.toNat →
    ∃ t, exec (.mpcTick n) s = .next t ∧ t.tb.mpc = s.tb.mpc ||| 0xFFFF) ∧
  (∀ (s : State) (n : BitVec 16), s.mpcRuns = true → s.tb.mpcMode = .freewheel → exec (.mpcTick n) s = .next
    (State.mark .mpc true false { s with
      tb.mpc := s.tb.mpc + BitVec.ofNat 48 n.toNat,
      tb.freewheelCycles := s.tb.freewheelCycles + (s.tb.mpc.toNat % 65536 + n.toNat) / 65536 })) ∧
  (∀ s : State, s.mpcRuns = true → (s.tb.mpcMode = .locked ∨ (s.tb.mpcMode = .idle ∧ s.tb.mpcCrossings ≠ 0)) →
    exec .mainsLoss s = .next { s with tb.mpcMode := .freewheel, tb.freewheelCycles := 0, tb.mpcCrossings := 0 }) ∧
  (∀ s : State, s.tb.mpcMode = .freewheel → 16 ≤ s.tb.freewheelCycles →
    let t := State.errTb 4 { s with
      tb.mpcMode := .hold, tb.mpcLock := false,
      tb.compares := s.tb.compares.map (fun c => if c.tb = .mpc then { c with hit := none } else c) }
    ((s.cam.running = false ∨ bit s.cam.cfg.flags 3 = false) → exec .mainsHold s = .next t) ∧
    (s.cam.running = true → bit s.cam.cfg.flags 3 = true → exec .mainsHold s = .next (t.errCam 5))) ∧
  (∀ s : State, (s.tb.mpcMode ≠ .freewheel ∨ s.tb.freewheelCycles < 16) → exec .mainsHold s = .next s) ∧
  (∀ (s : State) (n : BitVec 16), s.tb.mpcMode = .hold → exec (.mpcTick n) s = .next s)

/-- TB_CTRL (R47): a write while a stream is open or a capture is in EXCITE is ignored with CTRL_REJECT; without one, a write that changes
neither SFC_SRC nor RATE keeps both and takes the rest, and one that selects REFCLK runs on it. -/
def Says.TbCtrlWrites : Prop :=
  (∀ (s : State) (v : BitVec 32), (s.openStreams ≠ 0 ∨ s.anyExcite = true) → exec (.tbCtrlWrite v) s = .next (s.errTb 5)) ∧
  (∀ (s : State) (v : BitVec 32), fld v 0 2 < 3 → fld v 2 4 ≤ 5 → fld v 0 6 = fld s.tb.ctrl 0 6 →
    s.openStreams = 0 → s.anyExcite = false →
    exec (.tbCtrlWrite v) s = .next { s with tb.ctrl := BitVec.ofNat 32 (fld v 0 9) }) ∧
  (∀ (s : State) (v : BitVec 32), fld v 0 2 = 1 → fld s.tb.ctrl 0 2 ≠ 1 → fld v 2 4 ≤ 5 → fld v 2 4 = fld s.tb.ctrl 2 4 →
    s.openStreams = 0 → s.anyExcite = false → exec (.tbCtrlWrite v) s = .next { s with
      tb.ctrl := BitVec.ofNat 32 (fld v 0 9), tb.sfcActive := 1, tb.beaconLock := false,
      tb.beaconPending := none })

/-- Reading half of a timebase latches the other half for the side that reads (R54). -/
def Says.TimebaseShadows : Prop :=
  (∀ (s : State) (sd : Side), s.offAt 0x10010 = false → ∃ t, exec (.tbSfcLoRead sd) s = .next t ∧
    t.tb.sfcShadow = s.tb.sfcShadow.set sd (BitVec.ofNat 16 (s.tb.sfc.toNat / 2 ^ 32)) ∧ t.tb.mpcShadow = s.tb.mpcShadow) ∧
  (∀ (s : State) (sd : Side), s.offAt 0x10020 = false → s.build.rev = .rev2 → ∃ t, exec (.tbMpcPhRead sd) s = .next t ∧
    t.tb.mpcShadow = s.tb.mpcShadow.set sd (BitVec.ofNat 32 (s.tb.mpc.toNat / 2 ^ 16)) ∧ t.tb.sfcShadow = s.tb.sfcShadow)

/-! ### Frames, compares, audio (chapters 3 and 4) -/

/-- SFC_TICK (R22, R43, R46): while the SFC runs and no beacon value is pending, the SFC and the copy of every die that receives the
increment advance by one frame, but for a copy that the SFC check is to reload; memory, cores, jobs and commands are as before where no
new beacon root waits for the rack to settle. Whole: the compares are tested, the beacon's due marker goes out, the frame's audio is latched and
driven, a root that settled takes over and a part's quiet state is told. A stopped SFC does not count. -/
def Says.SfcTicks : Prop :=
  (∀ (s : State) (words : List (List (List (BitVec 32)))) (lost : BitVec 4),
    s.tb.sfcRunning = true → s.tb.beaconPending = none → s.slk.rootCmd = none →
    ∃ t, exec (.sfcTick words lost) s = .next t ∧ t.tb.sfc = s.tb.sfc + 1 ∧
      (∀ d, d < 4 → s.dieUp d = true → bit lost d = false → (s.die d).checkVal = none →
        t.die d = { s.die d with sfcCopy := (s.die d).sfcCopy + 1 }) ∧
      (∀ d, d < 4 → (s.dieUp d = false ∨ bit lost d = true ∨ (s.die d).checkVal ≠ none) → t.die d = s.die d) ∧
      t.mem = s.mem ∧ t.cores = s.cores ∧ t.jobs = s.jobs ∧ t.cmds = s.cmds ∧ t.sch = s.sch ∧ t.glb = s.glb) ∧
  (∀ (s : State) (words : List (List (List (BitVec 32)))) (lost : BitVec 4),
    s.tb.sfcRunning = true → s.tb.beaconPending = none → s.dieUp 0 = true → s.dieUp 1 = false → s.dieUp 2 = false → s.dieUp 3 = false →
    (s.die 0).checkVal = none →
    let s1 : Bool → State := fun lostInc => State.modDie 0 (fun x => if lostInc then x else { x with sfcCopy := x.sfcCopy + 1 })
      { s with tb.sfc := s.tb.sfc + 1 }
    exec (.sfcTick words lost) s = .next ((((s1 (bit lost 0)).mark .sfc true false).beaconOut.frameWork
      (s.tb.sfc + 1).toNat words).rootSettle.tellQuiet)) ∧
  (∀ (s : State) (words : List (List (List (BitVec 32)))) (lost : BitVec 4),
    s.tb.sfcRunning = true → s.tb.beaconPending = none → (∀ d, d < 4 → s.dieUp d = false) →
    exec (.sfcTick words lost) s = .next (((State.mark .sfc true false { s with tb.sfc := s.tb.sfc + 1 }).beaconOut.frameWork
      (s.tb.sfc + 1).toNat words).rootSettle.tellQuiet)) ∧
  (∀ (s : State) (words : List (List (List (BitVec 32)))) (lost : BitVec 4), (s.tb.sfcRunning = false ∨ s.tb.beaconPending ≠ none) →
    exec (.sfcTick words lost) s = .next s)

/-- Arming and testing a compare (R55, R56): one whose value has been reached fires at once with its late count and without SKIPPED; a
timebase that takes a new value marks the compares it reaches, with SKIPPED after a jump past the value, and touches no other. -/
def Says.ComparesFireOnce : Prop :=
  (∀ (s : State) (tb : Timebase) (v : Nat) (o : Owner), v < 2 ^ tbWidth tb → tbReached tb (s.tbFor tb o) v = true →
    (s.arm tb v o).tb.compares = s.tb.compares ++
      [{ tb := tb, target := BitVec.ofNat 48 v, owner := o, hit := some (tbLate tb (s.tbFor tb o) v, false) }]) ∧
  (∀ (s : State) (tb : Timebase) (v : Nat) (o : Owner), v < 2 ^ tbWidth tb → tbReached tb (s.tbFor tb o) v = false →
    (s.arm tb v o).tb.compares = s.tb.compares ++ [{ tb := tb, target := BitVec.ofNat 48 v, owner := o }]) ∧
  (∀ (s : State) (tb : Timebase) (k : Compare), k.tb = tb → k.hit = none →
    tbReached tb (s.tbFor tb k.owner) k.target.toNat = true → tbLate tb (s.tbFor tb k.owner) k.target.toNat ≠ 0 →
    k.mark s tb false true = { k with hit := some (tbLate tb (s.tbFor tb k.owner) k.target.toNat, true) }) ∧
  (∀ (s : State) (tb : Timebase) (exact jumped : Bool) (k : Compare),
    (k.tb ≠ tb ∨ k.hit ≠ none ∨ tbReached tb (s.tbFor tb k.owner) k.target.toNat = false) → k.mark s tb exact jumped = k)

/-- What a fired compare does (R55-R57, R60): one of a core on CLC or MPC goes out as a wake message, one on the SFC reaches the core at
once, and the message ends what the core waits for; the compare is armed no more. -/
def Says.CompareFirings : Prop :=
  (∀ (s : State) (k c late : Nat) (sk : Bool) (x : Compare), (s.tb.compares.filter (fun x => x.hit.isSome))[k]? = some x →
    x.owner = .core c → x.tb ≠ .sfc → x.hit = some (late, sk) →
    exec (.compareFire k) s = .next (State.modCore c (fun y => { y with wakeMsg := some (late, sk) })
      { s with tb.compares := s.tb.compares.erase x })) ∧
  (∀ (s : State) (k c late : Nat) (sk : Bool) (x : Compare), (s.tb.compares.filter (fun x => x.hit.isSome))[k]? = some x →
    x.owner = .core c → x.tb = .sfc → x.hit = some (late, sk) →
    exec (.compareFire k) s = .next (State.coreFired c late sk { s with tb.compares := s.tb.compares.erase x })) ∧
  (∀ (s : State) (core : Fin 64) (late : Nat) (sk : Bool), (s.core core.val).wakeMsg = some (late, sk) →
    s.dieHeld (core.val / 16) = false →
    exec (.compareWakeMessage core) s =
      .next ((s.modCore core.val (fun x => { x with wakeMsg := none })).coreFired core.val late sk)) ∧
  (∀ (s : State) (c late : Nat) (sk : Bool) (w : Wait), (s.core c).phase = .running → (s.core c).wait = some w → w.op = 0x62 →
    s.coreFired c late sk = (s.modCore c (fun x => Core.wrP (fld w.word 12 2) sk { x with
      a := tset 0 x.a (fld w.word 24 4) (BitVec.ofNat 64 late) })).waitEnds c)

/-- A command's due tick and its deadline (R60, R61, R75): an armed NOP takes effect at its tick and completes with its late count; a
DEADLINE command that has not completed when its value is reached stops, TIMED_OUT / DEADLINE_PASSED. -/
def Says.DueTicks : Prop :=
  (∀ (s : State) (k late : Nat) (sk : Bool) (x : Compare) (c : Cmd),
    (s.tb.compares.filter (fun x => x.hit.isSome))[k]? = some x → x.owner = .cmd c.id → x.hit = some (late, sk) →
    s.cmd c.id = some c → c.op = 0x0001 → c.params = [] → c.remote = none → c.phase = .armed → dueIs c.due 0 = true →
    exec (.compareFire k) s = .next (State.served { c with late := late, skipped := sk, timer := c.timed, phase := .running } []
      (State.modCmd c.id (fun _ => { c with late := late, skipped := sk, timer := c.timed, phase := .running })
        { s with tb.compares := s.tb.compares.erase x }))) ∧
  (∀ (s : State) (c : Cmd), s.cmd c.id = some c → dueIs c.due 2 = true → c.remote = none → c.op ≠ 0x0033 →
    tbReached (dueTb c.due) (s.tbNow (dueTb c.due)) (dueVal c.due).toNat = true →
    exec (.deadlineExpiry c.id) s = .next (s.endCmd c { oc := ocTimedOut, rs := rsDeadlinePassed }))

/-- The frame mover brings a block to its place (R85): at the home core the samples lie in the stream's LM buffer and the block's job becomes eligible
in class REALTIME; a block job that runs on the core has the event (R248), a job of another class is pre-empted (R213). A block homed on
another part goes over Shusor (R222), one whose place is lost has no job (R102, R223). While the bridge retrains, before the block is complete, and
while the state it needs is elsewhere, the block waits (R29, R221, R364). -/
def Says.BlocksDelivered : Prop :=
  (∀ (s : State) (h : Fin 256) (x : Stream) (b : Block), s.stream h.val = some x → x.blocks.find? (fun b => !b.delivered) = some b →
    x.started = true → (x.guest ≠ none ∨ b.s + x.b ≤ s.tb.sfc.toNat) → x.awaitsState b.s = false →
    let c := x.homeOf b.s
    let data := if x.guest.isSome then b.data else blockBytes b.input
    let came : Block → Block := fun k => { k with delivered := true, throttled := s.pmu.throttle }
    let s1 := s.modStream h.val (fun x => { x with blocks := replaceFirst (fun k => k.s == b.s) came x.blocks })
    let s2 := s1.modCore c (fun k => { k with lm := mwrite k.lm (x.bufsOf b.s).1 data })
    let put : Block → Block := fun k => { k with job := some s.sch.nextJob }
    let s3 := State.newJob
      { kind := .block h.val b.s, tenant := x.tenant, cls := .realtime, elig := 0, image := x.image, entry := x.entry,
        args := [BitVec.ofNat 64 (x.bufsOf b.s).1, BitVec.ofNat 64 (x.bufsOf b.s).2, BitVec.ofNat 64 x.stateAddr,
          BitVec.ofNat 64 b.s, BitVec.ofNat 64 x.b, BitVec.ofNat 64 ((x.guest.map (·.handle)).getD h.val)] }
      (s2.modStream h.val (fun x => { x with blocks := replaceFirst (fun k => k.s == b.s) put x.blocks }))
    let s4 := s3.coreEvent c 2
    (∀ n, x.nodeOf b.s = some n → x.lostFor b.s = true → exec (.blockDelivery h) s = .next s1) ∧
    (∀ n, x.nodeOf b.s = some n → x.lostFor b.s = false →
      exec (.blockDelivery h) s = .next (s1.tellStream n x.tenant 3 h.val b.s data)) ∧
    (x.nodeOf b.s = none → s.dieHeld (c / 16) = true → exec (.blockDelivery h) s = .next s) ∧
    (x.nodeOf b.s = none → s.dieHeld (c / 16) = false → (x.lostFor b.s = true ∨ s.dieUp (c / 16) = false) →
      exec (.blockDelivery h) s = .next s1) ∧
    (x.nodeOf b.s = none → s.dieUp (c / 16) = true → x.lostFor b.s = false →
      (s3.clsOn c = none → exec (.blockDelivery h) s = .next s3) ∧
      ((s3.clsOn c = some .background ∨ s3.clsOn c = some .interactive) → exec (.blockDelivery h) s = .next (s3.preempt c)) ∧
      (s3.clsOn c = some .realtime → exec (.blockDelivery h) s = .next s4))) ∧
  (∀ (s : State) (h : Fin 256), s.stream h.val = none → exec (.blockDelivery h) s = .next s) ∧
  (∀ (s : State) (h : Fin 256) (x : Stream), s.stream h.val = some x → x.blocks.find? (fun b => !b.delivered) = none →
    exec (.blockDelivery h) s = .next s) ∧
  (∀ (s : State) (h : Fin 256) (x : Stream) (b : Block), s.stream h.val = some x → x.blocks.find? (fun b => !b.delivered) = some b →
    (x.started = false ∨ (x.guest = none ∧ s.tb.sfc.toNat < b.s + x.b) ∨ x.awaitsState b.s = true) →
    exec (.blockDelivery h) s = .next s)

/-- The fetch point (R85, R90): a complete result is fetched from LM, or from the part that processed the block, and will be driven from s + 2B;
a block whose result is not complete falls back: its job stops, the stream's fallback counts advance with reason OVERRUN, or SUPPLY_THROTTLE when
its delivery was throttled (R104, R139), and the fallback bit of AUD_ERR is set. A block that an SFC jump has skipped leaves uncounted; a
migration that this block ends is over (R221). -/
def Says.FetchPoints : Prop :=
  (∀ (s : State) (h : Fin 256) (tie inside : Bool) (x : Stream) (b : Block) (l : List Block), s.stream h.val = some x → x.blocks = b :: l →
    b.s + 2 * x.b ≤ s.tb.sfc.toNat + s.fetchLead →
    let c := x.homeOf b.s
    let got : List Byte → State → State := fun bs s => s.modStream h.val (fun y => { y with
      blocks := l, outs := y.outs ++ [OutBlock.mk (b.s + 2 * x.b) true (resultFrames y bs) b.input b.route] })
    let fell : Nat → State → State := fun rs s => State.errAud 12 (s.modStream h.val (fun y => { y with
      blocks := y.blocks.drop 1, outs := y.outs ++ [OutBlock.mk (b.s + 2 * x.b) false [] b.input b.route],
      fbBlocks := satInc y.fbBlocks, fbFrames := y.fbFrames + y.b, lastReason := BitVec.ofNat 16 rs }))
    let ends : State → State := fun s => (s.exportState h.val b.s).migrEnds h.val b.s
    let won := if tie then s.tie else s
    let rs := if b.throttled = true ∧ (s.die (c / 16)).tripped = false then rsSupplyThrottle else rsOverrun
    let bs := mreadN (s.core c).lm (x.bufsOf b.s).2 (x.b * x.chOut * 4)
    (x.guest = none → s.tb.sfc.toNat < b.s + 2 * x.b → x.nodeOf b.s = none → b.done = true → x.lostFor b.s = false →
      s.dieUp (c / 16) = true → exec (.fetchPoint h tie inside) s = .next (ends (got bs won)) ∧
      (x.migr = none → exec (.fetchPoint h tie inside) s = .next (got bs won))) ∧
    (∀ n r, x.guest = none → s.tb.sfc.toNat < b.s + 2 * x.b → x.nodeOf b.s = some n → x.lostFor b.s = false → b.result = some r →
      exec (.fetchPoint h tie inside) s = .next (ends (got r won))) ∧
    (∀ n, x.guest = none → s.tb.sfc.toNat < b.s + 2 * x.b → x.nodeOf b.s = some n → (x.lostFor b.s = true ∨ b.result = none) →
      b.job = none → exec (.fetchPoint h tie inside) s = .next (ends (fell rs s))) ∧
    (x.guest = none → s.tb.sfc.toNat < b.s + 2 * x.b → x.nodeOf b.s = none →
      (b.done = false ∨ x.lostFor b.s = true ∨ s.dieUp (c / 16) = false) →
      ((b.job = none ∨ b.done = true) → exec (.fetchPoint h tie inside) s = .next (ends (fell rs s)) ∧
        (x.migr = none → exec (.fetchPoint h tie inside) s = .next (fell rs s))) ∧
      (∀ j, b.job = some j → b.done = false → exec (.fetchPoint h tie inside) s = .next (ends (fell rs (s.stopBlock j inside))))) ∧
    (x.guest = none → b.s + 2 * x.b ≤ s.tb.sfc.toNat →
      let left : State → State := fun s => ends (s.modStream h.val (fun y => { y with blocks := l }))
      ((b.job = none ∨ b.done = true) → exec (.fetchPoint h tie inside) s = .next (left s)) ∧
      (∀ j, b.job = some j → b.done = false → exec (.fetchPoint h tie inside) s = .next (left (s.stopBlock j inside)))) ∧
    (x.guest ≠ none → (b.job = none ∨ b.done = true) → exec (.fetchPoint h tie inside) s = .next (s.guestBlockEnds h.val b.s)) ∧
    (∀ j, x.guest ≠ none → b.job = some j → b.done = false →
      exec (.fetchPoint h tie inside) s = .next ((s.stopBlock j inside).guestBlockEnds h.val b.s))) ∧
  (∀ (s : State) (h : Fin 256) (tie inside : Bool) (x : Stream) (b : Block) (l : List Block), s.stream h.val = some x → x.blocks = b :: l →
    s.tb.sfc.toNat + s.fetchLead < b.s + 2 * x.b → exec (.fetchPoint h tie inside) s = .next s) ∧
  (∀ (s : State) (h : Fin 256) (tie inside : Bool), (s.stream h.val = none ∨ ∃ x, s.stream h.val = some x ∧ x.blocks = []) →
    exec (.fetchPoint h tie inside) s = .next s) ∧
  (∀ (s : State) (j : Nat), s.stopBlock j false = s.endJob j true)

/-- A stream starts at its first boundary and its STREAM_OPEN completes with the handle and that boundary (R179); a boundary that an SFC jump
skipped, or that an earlier command still holds, gives way to the next (R182, R183; log 23). From two blocks past its closing boundary its
slots fade and are free, a part that processed it is told, a pending migration ends with the stream, and a close without fallback completes
SERVED (R93, R94). -/
def Says.StreamEnds : Prop :=
  (∀ (s : State) (h : Fin 256) (x : Stream) (c : Cmd), s.stream h.val = some x → x.openCmd = some c.id → x.started = false →
    x.first ≤ s.tb.sfc.toNat → s.cmd c.id = some c →
    (x.begun s.tb.sfc.toNat = true → c.phase = .running → s.mayStart c = true →
      exec (.streamStart h) s = .next ((s.modStream h.val (fun x => { x with started := true, openCmd := none })).served c
        (toLe 2 h.val ++ toLe 6 x.first))) ∧
    ((x.begun s.tb.sfc.toNat = false ∨ s.mayStart c = false) →
      exec (.streamStart h) s = .next (s.modStream h.val (fun y => { y with
        first := (s.tb.sfc.toNat / y.b + 1) * y.b, collect := [], blocks := [] })))) ∧
  (∀ (s : State) (h : Fin 256) (x : Stream), s.stream h.val = some x →
    (x.openCmd = none ∨ x.started = true ∨ s.tb.sfc.toNat < x.first) → exec (.streamStart h) s = .next s) ∧
  (∀ (s : State) (h : Fin 256), s.stream h.val = none →
    exec (.streamStart h) s = .next s ∧ exec (.streamCloseBoundary h) s = .next s) ∧
  (∀ (s : State) (h : Fin 256) (x : Stream) (n : Nat), s.stream h.val = some x → x.closeAt = some n →
    n + 2 * x.b ≤ s.tb.sfc.toNat → x.blocks = [] →
    let idx := x.ending.getD 0
    let fade := Fade.mk (x.outRoute.take x.chOut) (if x.ending = none then x.lastOut else x.fadeFrom) idx
    let s1 := { s with streams := tset none s.streams h.val none, aud.fades := if idx < 64 then s.aud.fades ++ [fade] else s.aud.fades }
    let told : BitVec 6 → State → State := fun k s => s.tellStream k x.tenant 6 h.val 0 []
    (∀ c, x.migr = none → x.closeCmd = some c.id → s.cmd c.id = some c →
      (x.remote = none → exec (.streamCloseBoundary h) s = .next (s1.finish c (x.report c))) ∧
      (∀ k, x.remote = some k → ((told k s1).cmd c.id = some c) →
        exec (.streamCloseBoundary h) s = .next ((told k s1).finish c (x.report c)))) ∧
    (∀ c m mv, x.remote = none → x.migr = some mv → mv.node = none → mv.cmd = m.id → s.cmd m.id = some m → x.closeCmd = some c.id →
      (s1.finish m (x.report m)).cmd c.id = some c →
      exec (.streamCloseBoundary h) s = .next ((s1.finish m (x.report m)).finish c (x.report c))) ∧
    (x.migr = none → x.closeCmd = none → x.remote = none → exec (.streamCloseBoundary h) s = .next s1)) ∧
  (∀ (s : State) (h : Fin 256) (x : Stream), s.stream h.val = some x →
    (x.closeAt = none ∨ (∃ n, x.closeAt = some n ∧ (s.tb.sfc.toNat < n + 2 * x.b ∨ x.blocks ≠ []))) →
    exec (.streamCloseBoundary h) s = .next s) ∧
  (∀ (x : Stream) (c : Cmd), x.fbBlocks = 0 → c.late = 0 → x.report c = { oc := ocServed, skipped := c.skipped }) ∧
  (∀ (x : Stream) (c : Cmd), x.fbBlocks = 0 → c.late ≠ 0 → x.report c = { oc := ocLate, late := c.late, skipped := c.skipped }) ∧
  (∀ (x : Stream) (c : Cmd), x.fbBlocks ≠ 0 → x.report c = { oc := ocFallback, rs := x.lastReason.toNat, late := x.fbFrames })

/-- Serial ports and MCLK (R81, R82, R99): a legal configuration is taken, one with too many slots or a reserved encoding is ignored with
CTRL_REJECT; an MCLK ratio up to 49.152 MHz is taken and gives MCLK_OUT its frequency, the reserved one is ignored with CTRL_REJECT (the
model's choice, log 116); a follower's lost clock is reported, and data pass again after the elastic buffer
has refilled. -/
def Says.SerialPorts : Prop :=
  (∀ (s : State) (n : Fin 4) (v : BitVec 32), fld v 4 4 + 1 ≤ s.maxSlots → fld v 1 2 = 1 → fld v 8 2 ≠ 3 → bit v 0 = true →
    bit v 3 = false → s.portUsed n.val = false →
    exec (.audSpCtrlWrite n v) s = .next (s.modPort n.val (fun p => { p with
      ctrl := v &&& 0xFFF, clkOk := !p.lost, inBuf := if bit (s.port n.val).ctrl 0 then p.inBuf else [[], []],
      outBuf := if bit (s.port n.val).ctrl 0 then p.outBuf else [[], []] }))) ∧
  (∀ (s : State) (n : Fin 4) (v : BitVec 32), (s.maxSlots < fld v 4 4 + 1 ∨ 2 ≤ fld v 1 2 ∨ fld v 8 2 = 3 ∨
    (fld v 1 2 = 0 ∧ fld v 4 4 ≠ 1)) → exec (.audSpCtrlWrite n v) s = .next (s.errAud 15)) ∧
  (∀ (s : State) (v : BitVec 32), fld v 1 2 ≠ 3 → 128 * 2 ^ fld v 1 2 * s.rateHz ≤ 49152000 →
    exec (.audMclkCtrlWrite v) s = .next { s with
      aud.mclk := v &&& 7, aud.mclkHz := if bit v 0 then 128 * 2 ^ fld v 1 2 * s.rateHz else 0 }) ∧
  (∀ (s : State) (v : BitVec 32), fld v 1 2 = 3 → exec (.audMclkCtrlWrite v) s = .next (s.errAud 15)) ∧
  (∀ (s : State) (n : Fin 4), bit (s.port n.val).ctrl 0 = true → bit (s.port n.val).ctrl 3 = false → s.caps = [] →
    exec (.portClkLoss n) s =
      .next ((s.modPort n.val (fun p => { p with clkOk := false, lost := true, refill := false })).errAud n.val)) ∧
  (∀ (s : State) (n : Fin 4), (s.port n.val).lost = true →
    exec (.portClkReturn n) s = .next (s.modPort n.val (fun p => if p.lost then
      { p with clkOk := true, lost := false, refill := true, inBuf := [], outBuf := [[], []] } else p)))

/-- USB audio (R95-R98, R118): SET_CUR stalls for another frequency than the part's, which the clock source reports; settings 0 to 2 exist,
and only 0 above 96 kHz; iso packets fill and drain the FIFOs of 192 frames; suspend and resume, which is wake source 9. -/
def Says.UsbAudio : Prop :=
  (∀ (s : State) (hz : Nat), exec (.usbSetCur hz) s = .next { s with aud.usbStall := hz ≠ s.rateHz, reply := toLe 4 s.rateHz }) ∧
  (∀ (s : State) (alt : BitVec 2), alt ≠ 3 → s.rateHz ≤ 96000 →
    exec (.usbSetInterface true alt) s = .next { s with aud.usbStall := false, aud.usbIn := alt } ∧
    exec (.usbSetInterface false alt) s = .next { s with aud.usbStall := false, aud.usbOut := alt }) ∧
  (∀ (s : State) (input : Bool) (alt : BitVec 2), (alt = 3 ∨ (alt ≠ 0 ∧ 96000 < s.rateHz)) →
    exec (.usbSetInterface input alt) s = .next { s with aud.usbStall := true }) ∧
  (∀ (s : State) (fs : List (List (BitVec 32))), s.aud.usbOut ≠ 0 → s.aud.usbSuspended = false →
    exec (.usbIsoOut fs) s = .next { s with
      aud.usbOutFifo := (s.aud.usbOutFifo ++ fs.map (usbWords s.aud.usbOut)).take 192 }) ∧
  (∀ (s : State) (n : Nat), s.aud.usbIn ≠ 0 → s.aud.usbSuspended = false →
    exec (.usbIsoIn n) s = .next { s with
      aud.usbInFifo := s.aud.usbInFifo.drop n
      reply := (s.aud.usbInFifo.take n).flatMap (fun f => (usbWords s.aud.usbIn f).flatMap
        (fun w => if s.aud.usbIn = 2 then toLe 2 (w.toNat / 65536) else toLe 4 w.toNat)) }) ∧
  (∀ (s : State) (fs : List (List (BitVec 32))) (n : Nat),
    ((s.aud.usbOut = 0 ∨ s.aud.usbSuspended = true) → exec (.usbIsoOut fs) s = .next s) ∧
    ((s.aud.usbIn = 0 ∨ s.aud.usbSuspended = true) → exec (.usbIsoIn n) s = .next s)) ∧
  (∀ s : State, exec .usbSuspend s = .next { s with aud.usbSuspended := true }) ∧
  (∀ s : State, exec .usbResume s = .next (State.wakeFire 9 { s with aud.usbSuspended := false }))

/-- The USB and SPI command transports (Table 7.1, R171, R172, R189, R559): while the boot ROM loads over one, its bytes are the image's;
else whole packets with space are appended to the transport's ring, with
the doorbell's wake; others are NAKed, or ignored with SQ_BAD_TAIL on SPI; an empty completion ring reads as 32 zero bytes over SPI; the
status byte; another SPI opcode is ignored; chip select is wake source 11. -/
def Says.CommandTransports : Prop :=
  (∀ (s : State) (bs : List (BitVec 8)), s.glb.stage = 1 → s.glb.mgrRunning = true → s.glb.loaded + bs.length ≤ 0x400000 →
    (s.glb.bootMode = 3 → exec (.usbBulkOut bs) s = .next { s with
      gcp.usbNak := false, mem := mwrite s.mem s.glb.loaded bs, glb.loaded := s.glb.loaded + bs.length }) ∧
    (s.glb.bootMode = 4 → exec (.spiFrameWrite bs) s = .next { s with
      mem := mwrite s.mem s.glb.loaded bs, glb.loaded := s.glb.loaded + bs.length })) ∧
  (∀ (s : State) (bs : List (BitVec 8)), s.glb.stage ≠ 1 → bs.length % 64 = 0 → (s.ring (fld s.gcp.usbCfg 0 6)).takes bs.length = true →
    exec (.usbBulkOut bs) s = .next (State.append (fld s.gcp.usbCfg 0 6) bs { s with gcp.usbNak := false })) ∧
  (∀ (s : State) (bs : List (BitVec 8)), s.glb.stage ≠ 1 → (s.ring (fld s.gcp.usbCfg 0 6)).takes bs.length = false →
    exec (.usbBulkOut bs) s = .next { s with gcp.usbNak := true }) ∧
  (∀ (s : State) (bs : List (BitVec 8)), s.glb.stage ≠ 1 → bs.length % 64 = 0 → (s.ring (fld s.gcp.spiCfg 0 6)).takes bs.length = true →
    exec (.spiFrameWrite bs) s = .next (s.append (fld s.gcp.spiCfg 0 6) bs)) ∧
  (∀ (s : State) (bs : List (BitVec 8)), s.glb.stage ≠ 1 → (s.ring (fld s.gcp.spiCfg 0 6)).takes bs.length = false →
    exec (.spiFrameWrite bs) s = .next (s.errRing (fld s.gcp.spiCfg 0 6) 0)) ∧
  (∀ (s : State) (r : Ring), s.ring (fld s.gcp.usbCfg 8 6) = r → bit r.cqCfg 0 = true → bit r.cqCfg 1 = true → r.unread ≠ 0 →
    exec (.usbBulkIn 1) s = .next { (State.releaseHeld (fld s.gcp.usbCfg 8 6) 4096 (State.modRing (fld s.gcp.usbCfg 8 6)
      (fun r => { r with cqHead := BitVec.ofNat 12 ((r.cqHead.toNat + 1) % ringSize r.cqCfg) }) { s with reply := [] })) with
      reply := mreadN s.mem (r.cqBase.toNat + 32 * r.cqHead.toNat) 32 }) ∧
  (∀ (s : State) (r : Ring), s.ring (fld s.gcp.spiCfg 8 6) = r → bit r.cqCfg 0 = true → bit r.cqCfg 1 = true → r.unread ≠ 0 →
    exec .spiFrameRead s = .next { (State.releaseHeld (fld s.gcp.spiCfg 8 6) 4096 (s.modRing (fld s.gcp.spiCfg 8 6)
      (fun r => { r with cqHead := BitVec.ofNat 12 ((r.cqHead.toNat + 1) % ringSize r.cqCfg) }))) with
      reply := mreadN s.mem (r.cqBase.toNat + 32 * r.cqHead.toNat) 32 }) ∧
  (∀ s : State, (s.ring (fld s.gcp.spiCfg 8 6)).unread = 0 → exec .spiFrameRead s = .next { s with reply := List.replicate 32 0 }) ∧
  (∀ s : State, bit (s.ring (fld s.gcp.spiCfg 0 6)).sqCfg 0 = true → (s.ring (fld s.gcp.spiCfg 0 6)).free ≠ 0 →
    (s.ring (fld s.gcp.spiCfg 8 6)).unread = 0 → exec .spiFrameStatus s = .next { s with reply := [1] }) ∧
  (∀ (s : State) (op : BitVec 8), exec (.spiFrameOther op) s = .next s) ∧
  (∀ s : State, exec .spiCsAssert s = .next (s.wakeFire 11))

/-! ### Power and supplies (chapter 5) -/

/-- POWER_STATE (R111, R112, R114, Tables 5.2, 7.8): DOZE without an enabled wake source is refused NO_WAKE_SOURCE with nothing changed;
with one, and for each other state that Table 5.2 does not refuse, it completes SERVED, PMU_MODE is written and the entry waits for firmware's
WAIT, HIBERNATE after every other command has been aborted; RUN only writes the mode; a die leaves for SLEEP or OFF, or comes ON, cleared of a
trip (R123); a refusal of Table 5.2 changes nothing; parameters outside Table 7.8 are refused BAD_PARAM. -/
def Says.PowerCommand : Prop :=
  (∀ (s : State) (c : Cmd), Ready s c 0x0070 → c.params = [1, 0, 0, 0, 0, 0, 0, 0] → s.wakeable .doze = true →
    exec (.powerState c.id) s = .next { (begun s c).served (going c) [] with pmu.mode := 1, pmu.entry := some .doze }) ∧
  (∀ (s : State) (c : Cmd), Ready s c 0x0070 → c.params = [1, 0, 0, 0, 0, 0, 0, 0] → s.wakeable .doze = false →
    exec (.powerState c.id) s = .next ((begun s c).complete (going c) ocRefused rsNoWakeSource)) ∧
  (∀ (s : State) (c : Cmd) (n : BitVec 8) (t : DevSt), Ready s c 0x0070 → c.params = [n, 0, 0, 0, 0, 0, 0, 0] →
    devOf n.toNat = some t → n.toNat ≤ 4 → (begun s c).powerRefusal (going c) = none →
    (t = .run → exec (.powerState c.id) s = .next { (begun s c).served (going c) [] with pmu.mode := 0 }) ∧
    (t ≠ .run → t ≠ .hibernate → exec (.powerState c.id) s = .next { (begun s c).served (going c) [] with
      pmu.mode := BitVec.ofNat 3 (devCode t), pmu.entry := some t }) ∧
    (t = .hibernate → exec (.powerState c.id) s = .next { ((begun s c).abortAll rsHibernate (some c.id)).served (going c) [] with
      pmu.mode := 3, pmu.entry := some .hibernate })) ∧
  (∀ (s : State) (c : Cmd) (d : Fin 4), Ready s c 0x0070 → bit s.glb.pkgWord d.val = true → (begun s c).powerRefusal (going c) = none →
    (c.params = [0xFF, BitVec.ofNat 8 (2 ^ d.val), 0, 0, 0, 0, 0, 0] → exec (.powerState c.id) s = .next
      ((((begun s c).modDie d.val (fun x => { x with autoPrev := none, tripped := false })).dieOn d.val).served (going c) [])) ∧
    (c.params = [0xFF, BitVec.ofNat 8 (2 ^ d.val), 1, 0, 0, 0, 0, 0] → exec (.powerState c.id) s = .next
      (((begun s c).dieDown d.val .sleep).served (going c) [])) ∧
    (c.params = [0xFF, BitVec.ofNat 8 (2 ^ d.val), 2, 0, 0, 0, 0, 0] → exec (.powerState c.id) s = .next
      (((begun s c).dieDown d.val .off).served (going c) []))) ∧
  (∀ (s : State) (c : Cmd) (n : BitVec 8) (rs : Nat), Ready s c 0x0070 → c.params = [n, 0, 0, 0, 0, 0, 0, 0] → n.toNat ≤ 4 →
    (begun s c).powerRefusal (going c) = some rs →
    exec (.powerState c.id) s = .next ((begun s c).complete (going c) ocRefused rs)) ∧
  (∀ (s : State) (c : Cmd), Ready s c 0x0070 → c.params.length ≠ 8 →
    exec (.powerState c.id) s = .next (s.complete c ocRefused rsBadParam))

/-- The entry to a power state (R113, R117, R120): a source already pending aborts it and stays pending, and so does one that fires during it;
DOZE, TORPOR, OFF and HIBERNATE are reached, TORPOR with LPDDR in self-refresh and the dies that were ON kept in mind, HIBERNATE with the SFC
saved on the island and stopped, OFF with nothing retained and PMIC_EN low. Without an entry asked for nothing happens. -/
def Says.PowerEntries : Prop :=
  (∀ (s : State) (t : DevSt) (p : Option (Fin 12)) (i : Nat), s.pmu.entry = some t → s.pendingFor t = some i →
    exec (.powerEntry p) s = .next { s with
      pmu.entry := none, pmu.lastResult := 2, pmu.lastState := BitVec.ofNat 3 (devCode t), pmu.lastSource := BitVec.ofNat 4 i,
      pmu.irq := true }) ∧
  (∀ s : State, s.pmu.entry = some .doze → s.pendingFor .doze = none →
    exec (.powerEntry none) s = .next { s with pmu.entry := none, pmu.dev := .doze }) ∧
  (∀ (s : State) (p : Option (Fin 12)), s.pmu.entry = none → exec (.powerEntry p) s = .next s) ∧
  (∀ (s : State) (i : Fin 12), s.pmu.entry = some .doze → s.pmu.dev ≠ .off → s.pendingFor .doze = none → bit s.pmu.wakeEn i.val = true →
    wakeValid .doze i.val = true →
    exec (.powerEntry (some i)) s = .next (State.entryAborted .doze i.val (s.wakeFire i.val))) ∧
  (∀ s : State, s.pmu.entry = some .torpor → s.pendingFor .torpor = none →
    (forN 4 (fun d s => s.drainDie d) s).pendingFor .torpor = none →
    exec (.powerEntry none) s = .next (forN 4 (fun d s => s.drainDie d) s).enterTorpor) ∧
  (∀ s : State, s.enterTorpor.pmu.dev = .torpor ∧ s.enterTorpor.pmu.entry = none ∧ s.enterTorpor.pmu.lpddrRefresh = true ∧
    (∀ d, d < 4 → bit s.enterTorpor.pmu.onDies d = (decide ((s.die d).power = .on ∨ (s.die d).power = .waking)))) ∧
  (∀ s : State, s.pmu.entry = some .off → s.pendingFor .off = none →
    exec (.powerEntry none) s = .next { State.reset with
      build := s.build, hostOut := s.hostOut, fresh := s.fresh, pending := s.pending, pmu.dev := .off, pmu.pmicEn := false,
      memc.linkUp := false, glb.strapLatched := true }) ∧
  (∀ s : State, s.pmu.entry = some .hibernate → s.pendingFor .hibernate = none →
    (forN 4 (fun d s => s.drainDie d) s).pendingFor .hibernate = none →
    ∃ t, exec (.powerEntry none) s = .next t ∧ t.pmu.dev = .hibernate ∧ t.pmu.entry = none ∧ t.tb.sfcRunning = false ∧
      t.glb.ready = false ∧ t.jobs = [] ∧ t.cores = [] ∧ t.key.slots = [] ∧ (∀ a, a < 0x400000 → mread t.mem a = 0))

/-- A wake that a source started reaches RUN (R115, R116, R119): PMU_LAST reads WOKE with the state left and the source; after TORPOR the dies that
were ON train again and self-refresh ends, after HIBERNATE the part boots from what it kept. A source that fires in RUN is pending
only, in OFF nothing is powered (R117). -/
def Says.Wakes : Prop :=
  (∀ (s : State) (i : Nat), s.pmu.wakeSource = some i → s.pmu.dev = .doze →
    exec .wakeDone s = .next { s with
      pmu.lastResult := 1, pmu.lastState := 1, pmu.lastSource := BitVec.ofNat 4 i, pmu.irq := true, pmu.dev := .run,
      pmu.wakeSource := none }) ∧
  (∀ s : State, s.pmu.wakeSource = none → exec .wakeDone s = .next s) ∧
  (∀ (s : State) (i : Nat), s.pmu.wakeSource = some i → s.pmu.dev = .torpor →
    ∃ t, exec .wakeDone s = .next t ∧ t.pmu = { s.pmu with
      lastResult := 1, lastState := 2, lastSource := BitVec.ofNat 4 i, irq := true, dev := .run, wakeSource := none, onDies := 0,
      lpddrRefresh := false } ∧
      (∀ d, d < 4 → bit s.pmu.onDies d = true → bit s.glb.pkgWord d = true → (s.die d).power = .sleep → (s.die d).tripped = false →
        (s.die d).bridge ≠ .lost → (t.die d).power = .waking) ∧
      (∀ d, d < 4 → bit s.pmu.onDies d = false → t.die d = s.die d)) ∧
  (∀ (s : State) (i : Nat), s.pmu.wakeSource = some i → s.pmu.dev = .hibernate → exec .wakeDone s = .next (s.leaveHibernate i)) ∧
  (∀ s : State, (s.pmu.dev = .run ∨ s.pmu.dev = .off) → exec .wakeDone s = .next s) ∧
  (∀ (s : State) (i : Nat), s.pmu.dev = .off → s.wakeFire i = s) ∧
  (∀ (s : State) (i : Nat), i < 12 → s.pmu.dev = .doze → bit s.pmu.wakeEn i = true → s.pmu.wakeSource = none →
    s.wakeFire i = { s with pmu.wakePend := setBit s.pmu.wakePend i, pmu.wakeSource := some i }) ∧
  (∀ (s : State) (i : Nat), s.pmu.dev = .run → s.wakeFire i = { s with pmu.wakePend := setBit s.pmu.wakePend i })

/-- Supplies (R121, R122, Table 5.4): VWARN on a monitored rail sets WARN, throttles and raises SUP_WARN; the throttle lifts; VRESET on
VDD_AON is a cold reset, on a die's rail a die reset, on VDD_IOD a warm reset, on a PHY rail a reset of every PHY port, each with VRST set;
a rail that is off is not monitored. A block under way while the throttle begins is marked, so that its overrun reports it (R94). -/
def Says.Supplies : Prop :=
  (∀ (s : State) (n : Fin 11), s.monitored n.val = true → s.streams = [] →
    exec (.supplyVwarn n) s = .next (State.pauseWalk (State.faultTrig (State.errPmu n.val { s with
      pmu.throttle := true, pmu.crossed := setBit s.pmu.crossed n.val, pmu.irq := true }) s 4))) ∧
  (∀ (s : State) (n : Fin 11), s.monitored n.val = true →
    let slow : Block → Block := fun b => if b.delivered then { b with throttled := true } else b
    exec (.supplyVwarn n) s = .next (State.pauseWalk (State.faultTrig (State.errPmu n.val { s with
      pmu.throttle := true, pmu.crossed := setBit s.pmu.crossed n.val, pmu.irq := true
      streams := s.streams.map (fun e => (e.1, e.2.map (fun x => { x with blocks := x.blocks.map slow }))) }) s 4))) ∧
  (∀ (s : State) (n : Fin 11) (w : Bool) (a : AlsoReset), s.monitored n.val = false →
    exec (.supplyVwarn n) s = .next s ∧ exec (.supplyVreset n w a) s = .next s) ∧
  (∀ s : State, exec .throttleRelease s = .next (State.pauseWalk { s with pmu.throttle := false, pmu.crossed := 0 })) ∧
  (∀ s : State, s.key.walk = none → exec .throttleRelease s = .next { s with
    pmu.throttle := false, pmu.crossed := 0, key.paused := false }) ∧
  (∀ (s : State) (n : Fin 11) (a : AlsoReset), n.val < 4 → s.monitored n.val = true →
    exec (.supplyVreset n false a) s = .next ((s.errPmu (11 + n.val)).dieReset n.val)) ∧
  (∀ (s : State) (a : AlsoReset), s.monitored 5 = true →
    exec (.supplyVreset 5 false a) s = exec (.coldReset true s.glb.pkgWord s.glb.banks a) (s.errPmu 16)) ∧
  (∀ (s : State) (n : Fin 11) (a : AlsoReset), (n.val = 9 ∨ n.val = 10) → s.monitored n.val = true →
    exec (.supplyVreset n false a) s = .next (State.slpReset 3 (State.slpReset 2 (State.slpReset 1 (State.slpReset 0
      (((s.errPmu (11 + n.val)).pcieReset false).usbReset.camPortReset)))))) ∧
  (∀ (s : State) (a : AlsoReset), s.monitored 4 = true →
    ∃ t, exec (.supplyVreset 4 false a) s = .next t ∧ WarmReset (s.errPmu 15) t 7 a)

/-- A die's regulator (R555): ready, the die's bridge trains; not in range in time, the die stays OFF with WARN of its monitor. -/
def Says.Regulators : Prop :=
  (∀ (s : State) (d : Fin 4), (s.die d.val).power = .waking → (s.die d.val).regulator = false →
    exec (.regulatorReady d) s = .next ((s.bridgeTo d.val .off).modDie d.val (fun x => { x with
      regulator := true, bridge := .training, attempts := 0 }))) ∧
  (∀ (s : State) (d : Fin 4), (s.die d.val).power = .waking → (s.die d.val).regulator = false →
    exec (.regulatorStartTimeout d) s = .next ((s.modDie d.val (fun x => { x with power := .off })).errPmu d.val)) ∧
  (∀ (s : State) (d : Fin 4), ((s.die d.val).power ≠ .waking ∨ (s.die d.val).regulator = true) →
    exec (.regulatorReady d) s = .next s ∧ exec (.regulatorStartTimeout d) s = .next s)

/-- Sensors (R123): up to the warning level a sample is recorded, with its maximum of the millisecond; above it TEMP_WARN is set; above
115 °C a die that is not OFF trips: it is OFF with its regulator, marked as tripped with its TRIP bit, its cores as after reset and its
DM zero. -/
def Says.Temperatures : Prop :=
  (∀ (s : State) (d : Fin 4) (l : List Int), s.pmu.dev ≠ .off → s.pmu.dev ≠ .hibernate →
    (hottest l).1 ≤ 4 * Int.ofNat s.pmu.warnC.toNat → (hottest l).1 ≤ 460 → exec (.thermalSample d l) s = .next (s.modDie d.val (fun x => { x with
      maxTemp := (hottest l).1, sensor := BitVec.ofNat 3 (hottest l).2,
      maxTempMs := if x.maxTempMs < (hottest l).1 then (hottest l).1 else x.maxTempMs }))) ∧
  (∀ (s : State) (d : Fin 4) (l : List Int), s.pmu.dev ≠ .off → s.pmu.dev ≠ .hibernate →
    4 * Int.ofNat s.pmu.warnC.toNat < (hottest l).1 → (hottest l).1 ≤ 460 →
      exec (.thermalSample d l) s = .next (State.errPmu (22 + d.val) { s.modDie d.val (fun x => { x with
      maxTemp := (hottest l).1, sensor := BitVec.ofNat 3 (hottest l).2,
      maxTempMs := if x.maxTempMs < (hottest l).1 then (hottest l).1 else x.maxTempMs }) with pmu.irq := true })) ∧
  (∀ (s : State) (d : Fin 4) (l : List Int), s.pmu.dev ≠ .off → s.pmu.dev ≠ .hibernate → 460 < (hottest l).1 →
    (s.die d.val).power ≠ .off → ∃ t, exec (.thermalSample d l) s = .next t ∧ (t.die d.val).power = .off ∧ (t.die d.val).tripped = true ∧
      (t.die d.val).regulator = false ∧ (t.die d.val).bridge = .off ∧ bit t.pmu.supErr (26 + d.val) = true ∧
      (∀ c, c / 16 = d.val → t.core c = {}) ∧ (∀ x, x < 0x1000000 → mread t.mem (dmBase d.val + x) = 0))

/-- Telemetry and the power manager (R124-R129, R536): a message updates its die's readings only, with a frequency inside the window of FMIN, or
the frequency reserved, and FMAX, and a voltage inside VMIN to VMAX (R125); each millisecond the readings of the IOD and of the island are taken,
an entry of 32 bytes is written at HEAD and under the limit PKG_OVER clears; over it the divider of a core that can be lowered rises, and with
none PKG_OVER is set and every die that is up is pinned down (R127); a legal window is taken and a field above its maximum is ignored with
LIMIT_REJECT. -/
def Says.PowerManager : Prop :=
  (∀ (s : State) (d : Fin 4) (mv ma : Nat), s.pmu.dev ≠ .off → s.pmu.dev ≠ .hibernate →
    let w := tget dvfsReset s.pmu.dvfs d.val
    let a := tget avsReset s.pmu.avs d.val
    ∃ f v p q, exec (.telemetryMessage d mv ma) s = .next
    { s.modDie d.val (fun x => { x with
        mv := mv, ma10 := ma, clk := f, avsTarget := 550 + 5 * v, pinned := p, pinDir := q }) with
      fresh := s.fresh + 1 } ∧ f ≤ fld w 8 6 ∧ v ≤ fld a 8 6 ∧
      (Nat.max (fld w 0 6) (s.reservedMax d.val) ≤ fld w 8 6 → Nat.max (fld w 0 6) (s.reservedMax d.val) ≤ f) ∧
      (fld a 0 6 ≤ fld a 8 6 → fld a 0 6 ≤ v)) ∧
  (∀ (s : State) (d : Fin 4) (mv ma mw : Nat) (divs : List (Fin 64 × BitVec 2)) (iod aon : Reading),
    (s.pmu.dev = .off ∨ s.pmu.dev = .hibernate) → exec (.telemetryMessage d mv ma) s = .next s ∧
      exec (.telemetryLogWrite mw divs iod aon) s = .next s) ∧
  (∀ (s : State) (mw : Nat) (iod aon : Reading), s.pmu.dev ≠ .off → s.pmu.dev ≠ .hibernate → s.pmu.pkgLimit.toNat < mw →
    (s.lowerable = [] → ∃ t, exec (.telemetryLogWrite mw [] iod aon) s = .next t ∧
      t.pmu = { s.pmu with pkgOver := true, iodRead := iod, aonRead := aon } ∧ t.cores = s.cores ∧
      (∀ d, d < 4 → s.dieUp d = true → (t.die d).pinned = true ∧ (t.die d).pinDir = false)) ∧
    (∀ c l, s.lowerable = c :: l → ∃ t, exec (.telemetryLogWrite mw [] iod aon) s = .next t ∧
      t.pmu = { s.pmu with pkgOver := false, iodRead := iod, aonRead := aon } ∧
      t.cores = (s.modCore c (fun x => { x with div := x.div + 1 })).cores)) ∧
  (∀ (s : State) (mw : Nat) (divs : List (Fin 64 × BitVec 2)) (iod aon : Reading), s.pmu.dev ≠ .off → s.pmu.dev ≠ .hibernate →
    mw ≤ s.pmu.pkgLimit.toNat →
    ∃ t, exec (.telemetryLogWrite mw divs iod aon) s = .next t ∧ t.pmu = { s.pmu with pkgOver := false, iodRead := iod, aonRead := aon } ∧
      t.obs.tlogHead = s.obs.tlogHead + 1 ∧
      t.obs.tlogCount = s.obs.tlogCount + 1 ∧ t.cores = s.cores ∧ t.mem = s.mem ∧
      tget [] t.obs.tlog s.obs.tlogHead.toNat =
        toLe 6 s.tb.sfc.toNat ++ toLe 2 (Nat.min mw 65535) ++ (List.range 4).flatMap s.dieEntry) ∧
  (∀ (s : State) (d : Fin 4) (v : BitVec 32), fld v 8 6 ≤ 60 → exec (.pmuWindowWrite true d v) s = .next { s with
    pmu.avs := tset avsReset s.pmu.avs d.val (v &&& 0x3F3F) }) ∧
  (∀ (s : State) (d : Fin 4) (v : BitVec 32), fld v 8 6 ≤ 48 →
    (s.reservedMax d.val ≤ fld v 8 6 ∨ fld (tget dvfsReset s.pmu.dvfs d.val) 8 6 ≤ fld v 8 6) → exec (.pmuWindowWrite false d v) s = .next
    { s with pmu.dvfs := tset dvfsReset s.pmu.dvfs d.val (v &&& 0x3F3F) }) ∧
  (∀ (s : State) (d : Fin 4) (v : BitVec 32), fld v 8 6 < fld (tget dvfsReset s.pmu.dvfs d.val) 8 6 → fld v 8 6 < s.reservedMax d.val →
    exec (.pmuWindowWrite false d v) s = .next (s.errPmu 30)) ∧
  (∀ (s : State) (d : Fin 4) (v : BitVec 32), 60 < fld v 8 6 →
    exec (.pmuWindowWrite true d v) s = .next (s.errPmu 30) ∧ exec (.pmuWindowWrite false d v) s = .next (s.errPmu 30))

/-- Accesses to a block that is off (R130, R131): the first leaves its record and the counter counts the later ones; a read returns
0x0FF0_0FF0; with AUTOWAKE each access stalls and the block wakes, and completes when it is available, or as an access to an off block
when it is not in time; a woken camera, intake engine or port returns after its idle time. -/
def Says.OffBlocks : Prop :=
  (∀ (s : State) (sd : Side) (off : BitVec 25), s.offAt off.toNat = true → listed off.toNat = true → s.wakes off.toNat = none →
    s.obs.offValid = true →
    exec (.offBlockAccess sd off none) s = .next { s with obs.offCnt := satInc s.obs.offCnt, rdata := 0x0FF00FF0 } ∧
    ∀ v, exec (.offBlockAccess sd off (some v)) s = .next { s with obs.offCnt := satInc s.obs.offCnt }) ∧
  (∀ (s : State) (sd : Side) (off : BitVec 25), s.offAt off.toNat = true → listed off.toNat = true → s.wakes off.toNat = none →
    s.obs.offValid = false →
    let t := s.rise { s with obs.offValid := true, obs.offMgr := sd == .mgr, obs.offAddr := off }
    exec (.offBlockAccess sd off none) s = .next { t with rdata := 0x0FF00FF0 } ∧
    ∀ v, exec (.offBlockAccess sd off (some v)) s = .next t) ∧
  (∀ (s : State) (sd : Side) (off : BitVec 25) (w : Option (BitVec 32)),
    ((listed off.toNat = false ∨ s.offAt off.toNat = false ∨ s.wakes off.toNat ≠ none) → exec (.offBlockAccess sd off w) s = .next s) ∧
    ((listed off.toNat = false ∨ s.offAt off.toNat = false ∨ s.wakes off.toNat = none) → exec (.autowakeAccess sd off w) s = .next s)) ∧
  (∀ (s : State) (sd : Side) (off : BitVec 25) (w : Option (BitVec 32)) (b : WakeBlock), listed off.toNat = true → s.offAt off.toNat = true →
    s.wakes off.toNat = some b → (∀ d, b ≠ .die d) → exec (.autowakeAccess sd off w) s = .next { s with
      pmu.stalled := s.pmu.stalled ++ [{ side := sd, off := off, w := w, block := b }]
      pmu.woken := if b ∈ s.pmu.woken then s.pmu.woken else s.pmu.woken ++ [b] }) ∧
  (∀ (s : State) (sd : Side) (off : BitVec 25) (w : Option (BitVec 32)) (d : Fin 4), listed off.toNat = true →
    s.offAt off.toNat = true → wakeBlockOf off.toNat = some (.die d) → bit s.pmu.autowake d.val = true →
    (s.die d.val).tripped = false → (s.die d.val).bridge = .off → (s.die d.val).power = .off → (s.die d.val).stateOff = true →
    bit s.glb.pkgWord d.val = true →
    ∃ t, exec (.autowakeAccess sd off w) s = .next t ∧
      t.pmu.stalled = s.pmu.stalled ++ [{ side := sd, off := off, w := w, block := .die d }] ∧ (t.die d.val).power = .waking) ∧
  (∀ (s : State) (a : Stalled) (l : List Stalled), s.pmu.stalled = a :: l → s.offAt a.off.toNat = true → a.w = none →
    s.obs.offValid = true → exec .autowakeTimeout s = .next { s with
      obs.offCnt := satInc s.obs.offCnt, pmu.stalled := l, rdata := 0x0FF00FF0 }) ∧
  (∀ s : State, s.pmu.stalled = [] → exec .autowakeTimeout s = .next s) ∧
  (∀ (s : State) (a : Stalled) (l : List Stalled), s.pmu.stalled = a :: l → s.offAt a.off.toNat = false →
    (a.w = none → exec .autowakeTimeout s = .next (State.readNow a.side a.off.toNat 0 { s with pmu.stalled := l })) ∧
    (∀ v, a.w = some v → exec .autowakeTimeout s = .next (State.writeNow a.side a.off.toNat v 0 { s with pmu.stalled := l }))) ∧
  (∀ (s : State) (b : WakeBlock), (∀ d, b ≠ .die d) →
    exec (.autowakeIdleReturn b) s = .next { s with pmu.woken := s.pmu.woken.filter (fun x => x ≠ b) }) ∧
  (∀ (s : State) (d : Fin 4) (p : DieSt), (s.die d.val).autoPrev = some p → (s.die d.val).power = .on →
    exec (.autowakeIdleReturn (.die d)) s = .next (s.dieReturns d.val p)) ∧
  (∀ (s : State) (d : Fin 4), ((s.die d.val).autoPrev = none ∨ (s.die d.val).power ≠ .on) →
    exec (.autowakeIdleReturn (.die d)) s = .next s)

/-! ### The Dormouse island (chapter 6) -/

/-- Table 6.2, the arithmetic rows: wD and the PC change and nothing else; w0 reads 0 and ignores a write. At the last PC the instruction is
done and the next PC, 4,096, faults with PC_RANGE (R153). -/
def Says.SequencerArithmetic : Prop :=
  ∀ (s : State),
    let i := s.aon.seq.instr
    let a := if qA i = 0 then 0 else tget 0 s.aon.seq.w (qA i)
    let b := if qB i = 0 then 0 else tget 0 s.aon.seq.w (qB i)
    (SeqAt s 0x00 → exec .seqNop s = .next { s with aon.seq.pc := s.aon.seq.pc + 1 }) ∧
    (SeqAt s 0x01 → exec .seqAdd s = .next (seqWrote s (a + b))) ∧
    (SeqAt s 0x02 → exec .seqSub s = .next (seqWrote s (a - b))) ∧
    (SeqAt s 0x03 → exec .seqAnd s = .next (seqWrote s (a &&& b))) ∧
    (SeqAt s 0x04 → exec .seqOr s = .next (seqWrote s (a ||| b))) ∧
    (SeqAt s 0x05 → exec .seqXor s = .next (seqWrote s (a ^^^ b))) ∧
    (SeqAt s 0x06 → exec .seqShl s = .next (seqWrote s (a <<< (b.toNat % 32)))) ∧
    (SeqAt s 0x07 → exec .seqShr s = .next (seqWrote s (a >>> (b.toNat % 32)))) ∧
    (SeqAt s 0x08 → exec .seqSar s = .next (seqWrote s (a.sshiftRight (b.toNat % 32)))) ∧
    (SeqAt s 0x09 → exec .seqMul s = .next (seqWrote s (BitVec.ofNat 32 (a.toNat * b.toNat)))) ∧
    (SeqAt s 0x0A → ∃ v, exec .seqMin s = .next (seqWrote s v) ∧ v.toInt = min a.toInt b.toInt) ∧
    (SeqAt s 0x0B → ∃ v, exec .seqMax s = .next (seqWrote s v) ∧ v.toInt = max a.toInt b.toInt) ∧
    (SeqAt s 0x10 → exec .seqAddi s = .next (seqWrote s (a + ((BitVec.ofNat 18 i.toNat).signExtend 32)))) ∧
    (SeqAt s 0x11 → exec .seqAndi s = .next (seqWrote s (a &&& BitVec.ofNat 32 (i.toNat % 2 ^ 18)))) ∧
    (SeqAt s 0x12 → exec .seqOri s = .next (seqWrote s (a ||| BitVec.ofNat 32 (i.toNat % 2 ^ 18)))) ∧
    (SeqAt s 0x13 → exec .seqLui s = .next (seqWrote s (BitVec.ofNat 32 (i.toNat % 2 ^ 18 * 2 ^ 14)))) ∧
    (s.aon.seq.halted = false → s.aon.seq.waiting = false → qLegal i = true → s.aon.seq.pc = 4095 →
      ∀ op o, (op, o) ∈ [(0x00, exec .seqNop s), (0x01, exec .seqAdd s), (0x02, exec .seqSub s), (0x03, exec .seqAnd s),
          (0x04, exec .seqOr s), (0x05, exec .seqXor s), (0x06, exec .seqShl s), (0x07, exec .seqShr s), (0x08, exec .seqSar s),
          (0x09, exec .seqMul s), (0x0A, exec .seqMin s), (0x0B, exec .seqMax s), (0x10, exec .seqAddi s), (0x11, exec .seqAndi s),
          (0x12, exec .seqOri s), (0x13, exec .seqLui s)] → qOp i = op →
        ∃ t, o = .next t ∧ t.aon.seq.fault = 6 ∧ t.aon.seq.halted = true ∧ t.aon.seq.run = false ∧ bit t.aon.err 0 = true ∧
          (qD i = 0 → t.aon.seq.w = s.aon.seq.w) ∧ t.mem = s.mem)

/-- Loads and stores of the sequencer (Table 6.2, R153): the address is wA + sext; within the SRAM, aligned and in a powered bank it is
accessed, little-endian; otherwise the sequencer faults with the code of R153. -/
def Says.SequencerMemory : Prop :=
  ∀ (s : State),
    let i := s.aon.seq.instr
    let a := ((if qA i = 0 then 0 else tget 0 s.aon.seq.w (qA i)) + (BitVec.ofNat 18 i.toNat).signExtend 32).toNat
    let d := if qD i = 0 then 0 else tget 0 s.aon.seq.w (qD i)
    let here : Prop := a < 0x80000 ∧ s.bankOn a = true
    (SeqAt s 0x18 → a % 4 = 0 → here →
      exec .seqLw s = .next (seqWrote s (BitVec.ofNat 32 (leNat (mreadN s.mem (dormBase + a) 4))))) ∧
    (SeqAt s 0x19 → a % 4 = 0 → here →
      exec .seqSw s = .next { s with mem := mwrite s.mem (dormBase + a) (toLe 4 d.toNat), aon.seq.pc := s.aon.seq.pc + 1 }) ∧
    (SeqAt s 0x1A → a % 2 = 0 → here →
      exec .seqLh s = .next (seqWrote s ((BitVec.ofNat 16 (leNat (mreadN s.mem (dormBase + a) 2))).signExtend 32))) ∧
    (SeqAt s 0x1B → a % 2 = 0 → here →
      exec .seqSh s = .next { s with mem := mwrite s.mem (dormBase + a) (toLe 2 d.toNat), aon.seq.pc := s.aon.seq.pc + 1 }) ∧
    (∀ op n o, (op, n, o) ∈ [(0x18, 4, exec .seqLw s), (0x19, 4, exec .seqSw s), (0x1A, 2, exec .seqLh s), (0x1B, 2, exec .seqSh s)] →
      SeqAt s op →
      (a % n ≠ 0 → ∃ t, o = .next t ∧ SeqFaulted s t 2) ∧
      (a % n = 0 → 0x80000 ≤ a → ∃ t, o = .next t ∧ SeqFaulted s t 3) ∧
      (a % n = 0 → a < 0x80000 → s.bankOn a = false → ∃ t, o = .next t ∧ SeqFaulted s t 4))

/-- Branches and jumps of the sequencer (Table 6.2): offsets count from the branch itself; a PC beyond 4,095 faults with PC_RANGE (R153);
an opcode outside Table 6.2 and a nonzero unused field fault with ILLEGAL_OP (R150). -/
def Says.SequencerFlow : Prop :=
  ∀ (s : State),
    let i := s.aon.seq.instr
    let a := if qA i = 0 then 0 else tget 0 s.aon.seq.w (qA i)
    let d := if qD i = 0 then 0 else tget 0 s.aon.seq.w (qD i)
    let tgt := Int.ofNat s.aon.seq.pc + ((BitVec.ofNat 18 i.toNat).toInt)
    let jump : State := { s with aon.seq.pc := tgt.toNat }
    let nxt : State := { s with aon.seq.pc := s.aon.seq.pc + 1 }
    (0 ≤ tgt → tgt < 4096 →
      (SeqAt s 0x20 → exec .seqBeq s = .next (if d = a then jump else nxt)) ∧
      (SeqAt s 0x21 → exec .seqBne s = .next (if d ≠ a then jump else nxt)) ∧
      (SeqAt s 0x22 → exec .seqBlt s = .next (if d.toInt < a.toInt then jump else nxt)) ∧
      (SeqAt s 0x23 → exec .seqBge s = .next (if a.toInt ≤ d.toInt then jump else nxt)) ∧
      (SeqAt s 0x24 → exec .seqJal s =
        .next { seqWrote s (BitVec.ofNat 32 (s.aon.seq.pc + 1)) with aon.seq.pc := tgt.toNat })) ∧
    (SeqAt s 0x25 → exec .seqJr s = .next { s with aon.seq.pc := a.toNat % 4096 }) ∧
    ((tgt < 0 ∨ 4096 ≤ tgt) → ∀ op (taken : Prop) o, (op, taken, o) ∈ [(0x20, d = a, exec .seqBeq s), (0x21, d ≠ a, exec .seqBne s),
        (0x22, d.toInt < a.toInt, exec .seqBlt s), (0x23, a.toInt ≤ d.toInt, exec .seqBge s)] → SeqAt s op →
      (taken → ∃ t, o = .next t ∧ t.aon.seq.fault = 6 ∧ t.aon.seq.halted = true ∧ t.aon.seq.run = false ∧
        t.aon.seq.w = s.aon.seq.w ∧ bit t.aon.err 0 = true) ∧
      (¬ taken → o = .next nxt)) ∧
    ((tgt < 0 ∨ 4096 ≤ tgt) → SeqAt s 0x24 → ∃ t, exec .seqJal s = .next t ∧ t.aon.seq.fault = 6 ∧ t.aon.seq.halted = true ∧
      t.aon.seq.run = false ∧ t.aon.seq.w = (seqWrote s (BitVec.ofNat 32 (s.aon.seq.pc + 1))).aon.seq.w ∧ bit t.aon.err 0 = true) ∧
    (SeqAt s 0x2F → ∃ t, exec .seqHalt s = .next t ∧ t.aon = { s.aon with seq := { s.aon.seq with run := false, halted := true } } ∧
      t.mem = s.mem ∧ t.clk = { s.clk with lock := t.clk.lock } ∧ t.pmu = s.pmu) ∧
    (s.aon.seq.halted = false → s.aon.seq.waiting = false → qOp i = 0x3F → ∃ t, exec .seqNop s = .next t ∧ SeqFaulted s t 1) ∧
    (s.aon.seq.halted = false → s.aon.seq.waiting = false → qOp i = 0x01 → fld i 0 14 ≠ 0 →
      ∃ t, exec .seqAdd s = .next t ∧ SeqFaulted s t 1)

/-- The sequencer's own instructions (R151, R152, R154, R155, R157, R162): RDIO of a plain register, WRIO of the mailbox and of a
protected register, WAITEV on a latched event, on none and on an empty mask, SHREW on an idle and on a busy engine, and DECIDE that
keeps the level, that lowers it, and that raises it with room in the FIFO and without, where the drop is counted and the rise wakes and
interrupts all the same; the engine's end, at the list's end and with a fault. -/
def Says.SequencerUnits : Prop :=
  ∀ (s : State),
    let i := s.aon.seq.instr
    let a := if qA i = 0 then 0 else tget 0 s.aon.seq.w (qA i)
    let b := if qB i = 0 then 0 else tget 0 s.aon.seq.w (qB i)
    let d := if qD i = 0 then 0 else tget 0 s.aon.seq.w (qD i)
    let o := i.toNat % 2 ^ 18
    let m : BitVec 11 := BitVec.ofNat 11 o
    let k := a.toNat % 8
    let score := b.toNat % 256
    (SeqAt s 0x28 → o = 0x70 → exec .seqRdio s = .next (seqWrote s (s.aon.period.setWidth 32))) ∧
    (SeqAt s 0x28 → o % 4 = 0 → o ≤ 0x1FC →
      exec .seqRdio s = .next (seqWrote (s.readEffect .mgr 0 (.iod 5 o)) (BitVec.ofNat 32 (s.readAon .mgr o)))) ∧
    (SeqAt s 0x28 → o % 4 ≠ 0 → ∃ t, exec .seqRdio s = .next t ∧ SeqFaulted s t 2) ∧
    (SeqAt s 0x29 → o % 4 ≠ 0 → ∃ t, exec .seqWrio s = .next t ∧ SeqFaulted s t 2) ∧
    (SeqAt s 0x29 → o = 0x70 → exec .seqWrio s = .next { s with
      aon.period := d.setWidth 24, aon.timerCount := 0, aon.seq.pc := s.aon.seq.pc + 1 }) ∧
    (SeqAt s 0x29 → (o = 0x150 ∨ o = 0x154 ∨ o = 0x158) →
      exec .seqWrio s = .next { s with aon.mboxOut := tset 0 s.aon.mboxOut ((o - 0x150) / 4) d, aon.seq.pc := s.aon.seq.pc + 1 }) ∧
    (SeqAt s 0x29 → o = 0x15C →
      exec .seqWrio s = .next { s with aon.mboxOut := tset 0 s.aon.mboxOut 3 d, aon.mboxIrq := true, aon.seq.pc := s.aon.seq.pc + 1 }) ∧
    (SeqAt s 0x29 → (o = 0 ∨ o = 0x100 ∨ o = 0x120 ∨ o = 0x140 ∨ o = 0x184) →
      exec .seqWrio s = .next { s with aon.seq.pc := s.aon.seq.pc + 1 }) ∧
    (SeqAt s 0x2C → o % 4096 ≠ 0 → s.aon.seq.latch &&& m ≠ 0 → exec .seqWaitev s = .next
      { seqWrote s ((s.aon.seq.latch &&& m).setWidth 32) with
        aon.seq.latch := (s.aon.seq.latch &&& ~~~m) ||| (s.aon.seq.latch &&& m &&& s.pmu.levelHeld.setWidth 11) }) ∧
    (SeqAt s 0x2C → o % 4096 ≠ 0 → s.aon.seq.latch &&& m = 0 → ∃ t, exec .seqWaitev s = .next t ∧
      t.aon = { s.aon with seq := { s.aon.seq with waiting := true } } ∧ t.mem = s.mem ∧ t.pmu = s.pmu) ∧
    (SeqAt s 0x2C → o % 4096 = 0 → ∃ t, exec .seqWaitev s = .next t ∧ SeqFaulted s t 5) ∧
    (SeqAt s 0x2D → s.aon.shrewBusy = true → exec .seqShrew s = .next (seqWrote s 1)) ∧
    (SeqAt s 0x2D → s.aon.shrewBusy = false →
      exec .seqShrew s = .next { seqWrote s 0 with aon.shrewBusy := true, aon.shrewList := a.toNat }) ∧
    (SeqAt s 0x2E → score < fld (tget thrReset s.aon.thr k) 0 8 → score < fld (tget thrReset s.aon.thr k) 8 8 →
      tget 0 s.aon.level k = 0 → exec .seqDecide s = .next (seqWrote s 0)) ∧
    (SeqAt s 0x2E → s.pmu.dev ≠ .off → fld (tget thrReset s.aon.thr k) 8 8 ≤ score → tget 0 s.aon.level k = 0 → s.aon.fifo.length < 16 →
      ∃ t, exec .seqDecide s = .next t ∧ tget 0 t.aon.level k = 2 ∧
        t.aon.fifo = s.aon.fifo ++ [{ det := BitVec.ofNat 3 k, level := 2, score := BitVec.ofNat 8 score, rtc := s.aon.rtc }] ∧
        t.aon.decIrq = true ∧ t.aon.seq = (seqWrote s 2).aon.seq ∧ t.pmu.wakePend = setBit s.pmu.wakePend 7 ∧
        t.aon.drop = s.aon.drop ∧ t.mem = s.mem) ∧
    (SeqAt s 0x2E → score < fld (tget thrReset s.aon.thr k) 0 8 → score < fld (tget thrReset s.aon.thr k) 8 8 →
      tget 0 s.aon.level k ≠ 0 → s.aon.fifo.length < 16 →
      ∃ t, exec .seqDecide s = .next t ∧ tget 0 t.aon.level k = 0 ∧
        t.aon.fifo = s.aon.fifo ++ [{ det := BitVec.ofNat 3 k, level := 0, score := BitVec.ofNat 8 score, rtc := s.aon.rtc }] ∧
        t.aon.decIrq = s.aon.decIrq ∧ t.aon.seq = (seqWrote s 0).aon.seq ∧ t.pmu = s.pmu ∧ t.mem = s.mem) ∧
    (SeqAt s 0x2E → s.pmu.dev ≠ .off → fld (tget thrReset s.aon.thr k) 8 8 ≤ score → tget 0 s.aon.level k = 0 → 16 ≤ s.aon.fifo.length →
      ∃ t, exec .seqDecide s = .next t ∧ tget 0 t.aon.level k = 2 ∧ t.aon.fifo = s.aon.fifo ∧ t.aon.drop = satInc s.aon.drop ∧
        bit t.aon.err 2 = true ∧ t.aon.decIrq = true ∧ t.pmu.wakePend = setBit s.pmu.wakePend 7 ∧ t.mem = s.mem) ∧
    (s.aon.shrewBusy = false → exec .shrewDone s = .next s) ∧
    (s.aon.shrewBusy = true → s.aon.shrewList + 32 ≤ 0x80000 → s.bankOn s.aon.shrewList = true →
      s.bankOn (s.aon.shrewList + 31) = true → leNat (mreadN s.mem (dormBase + s.aon.shrewList) 2) = 0xFFFF →
      s.aon.seq.waiting = false →
      ∃ t, exec .shrewDone s = .next t ∧ t.aon = { s.aon with
        shrewBusy := false, shrewFault := 0, shrewLayer := 0,
        seq := { s.aon.seq with latch := setBit s.aon.seq.latch 7 } } ∧ t.mem = s.mem) ∧
    (s.aon.shrewBusy = true → 0x80000 < s.aon.shrewList + 32 → s.aon.seq.waiting = false →
      ∃ t, exec .shrewDone s = .next t ∧ t.aon = { s.aon with
        shrewBusy := false, shrewFault := 4, shrewLayer := 0, err := setBit s.aon.err 1,
        seq := { s.aon.seq with latch := setBit s.aon.seq.latch 7 } } ∧ t.mem = s.mem)

/-- CMP_INST (R143, R144): INST_SENSE moves to `mv` mV. Above the threshold of 2 mV steps the comparator is high, below it less HYST low,
between the two as it was. A level that has changed counts the DEGLITCH ticks anew, or, with none asked, is one crossing: with EN an edge in
its polarity is one event, latched for the sequencer and pending for the PMU, an edge of the other polarity and a disabled comparator only
move, a level event holds both. In OFF nothing moves but the sense input. -/
def Says.InstrumentComparator : Prop :=
  ∀ (s : State) (mv : Int),
    let c := tget cmpReset s.aon.cmp 0
    let thr : Int := Int.ofNat (2 * fld c 0 8)
    let hyst : Int := if fld c 8 2 = 0 then 0 else Int.ofNat (2 * 2 ^ fld c 8 2)
    let high : Bool := if thr < mv then true else if mv < thr - hyst then false else bit s.aon.raw 0
    let moved : State := { s with aon.cmpMv := tset 0 s.aon.cmpMv 0 mv }
    let went : State := { moved with aon.raw := putBit s.aon.raw 0 high, aon.glitch := tset 0 s.aon.glitch 0 0 }
    let crossed : State := { went with aon.inputs := putBit s.aon.inputs 0 high }
    (high = bit s.aon.raw 0 → exec (.cmpInstCrossing mv) s = .next moved) ∧
    (s.pmu.dev = .off → exec (.cmpInstCrossing mv) s = .next moved) ∧
    (s.pmu.dev ≠ .off → high ≠ bit s.aon.raw 0 →
      ((fld c 12 2 ≠ 0 ∨ high = bit s.aon.inputs 0) → exec (.cmpInstCrossing mv) s = .next went) ∧
      (fld c 12 2 = 0 → high ≠ bit s.aon.inputs 0 →
        (bit c 14 = false → exec (.cmpInstCrossing mv) s = .next crossed) ∧
        (bit c 14 = true → bit c 10 = false → high = bit c 11 → exec (.cmpInstCrossing mv) s = .next crossed) ∧
        (bit c 14 = true → bit c 10 = false → high ≠ bit c 11 → s.aon.seq.waiting = false → s.pmu.dev = .run →
          exec (.cmpInstCrossing mv) s = .next { crossed with
            aon.seq.latch := setBit s.aon.seq.latch 0, pmu.wakePend := setBit s.pmu.wakePend 0 }) ∧
        (bit c 14 = true → bit c 10 = true → high = bit c 11 →
          exec (.cmpInstCrossing mv) s = .next { crossed with pmu.levelHeld := putBit s.pmu.levelHeld 0 false }) ∧
        (bit c 14 = true → bit c 10 = true → high ≠ bit c 11 → bit s.pmu.levelHeld 0 = true →
          exec (.cmpInstCrossing mv) s = .next crossed) ∧
        (bit c 14 = true → bit c 10 = true → high ≠ bit c 11 → bit s.pmu.levelHeld 0 = false → s.aon.seq.waiting = false →
          s.pmu.dev = .run → exec (.cmpInstCrossing mv) s = .next { crossed with
            aon.seq.latch := setBit s.aon.seq.latch 0, pmu.wakePend := setBit s.pmu.wakePend 0,
            pmu.levelHeld := setBit s.pmu.levelHeld 0 })))

/-- CMP_MAINS and wake pins (R53, R144, R145): a rise of CMP_MAINS on IOD revision 2 that follows the last in range is a mains cycle, which
locks the MPC after four; an enabled edge of a pin in its polarity is one event, latched for the sequencer and pending for the PMU; a
disabled input only moves; a level event holds both. A waiting sequencer resumes when the FLL has locked (R142). -/
def Says.IslandInputs : Prop :=
  (∀ (s : State) (mv : Int), s.rev2 = false → s.pmu.dev ≠ .off → bit (tget cmpReset s.aon.cmp 1) 14 = false →
    fld (tget cmpReset s.aon.cmp 1) 12 2 = 0 → Int.ofNat (4 * fld (tget cmpReset s.aon.cmp 1) 0 8) < mv →
    bit s.aon.raw 1 = false → bit s.aon.inputs 1 = false →
    exec (.cmpMainsCrossing mv) s = .next { s with
      aon.cmpMv := tset 0 s.aon.cmpMv 1 mv, aon.raw := setBit s.aon.raw 1, aon.glitch := tset 0 s.aon.glitch 1 0,
      aon.inputs := setBit s.aon.inputs 1 }) ∧
  (∀ (s : State) (mv : Int), s.rev2 = true → s.pmu.dev = .run → s.glb.resetHeld = false →
    bit (tget cmpReset s.aon.cmp 1) 14 = false → fld (tget cmpReset s.aon.cmp 1) 12 2 = 0 →
    Int.ofNat (4 * fld (tget cmpReset s.aon.cmp 1) 0 8) < mv → bit s.aon.raw 1 = false → bit s.aon.inputs 1 = false →
    4 ≤ s.tb.mpcCrossings → 45 * (s.aon.rtc - s.tb.mainsAt).toNat ≤ 32768 → 32768 ≤ 65 * (s.aon.rtc - s.tb.mainsAt).toNat →
    exec (.cmpMainsCrossing mv) s = .next (State.mpcAdvance (65536 - s.tb.mpc.toNat % 65536) { s with
      aon.cmpMv := tset 0 s.aon.cmpMv 1 mv, aon.raw := setBit s.aon.raw 1, aon.glitch := tset 0 s.aon.glitch 1 0,
      aon.inputs := setBit s.aon.inputs 1, tb.mainsAt := s.aon.rtc, tb.mpcCrossings := 5, tb.mpcMode := .locked,
      tb.mpcLock := true, tb.freewheelCycles := 0 })) ∧
  (∀ (s : State) (n : Fin 4), bit (tget 0 s.aon.wakepin n) 14 = true → bit (tget 0 s.aon.wakepin n) 10 = false →
    bit (tget 0 s.aon.wakepin n) 11 = false → fld (tget 0 s.aon.wakepin n) 12 2 = 0 → bit s.aon.raw (2 + n) = false →
    bit s.aon.inputs (2 + n) = false → s.aon.seq.waiting = false → s.pmu.dev = .run →
    exec (.wakePinEvent n true) s = .next { s with aon.raw := setBit s.aon.raw (2 + n), aon.glitch := tset 0 s.aon.glitch (2 + n) 0,
                                                   aon.inputs := setBit s.aon.inputs (2 + n),
                                                   aon.seq.latch := setBit s.aon.seq.latch (3 + n),
                                                   pmu.wakePend := setBit s.pmu.wakePend (3 + n) }) ∧
  (∀ (s : State) (n : Fin 4), bit (tget 0 s.aon.wakepin n) 14 = true → bit (tget 0 s.aon.wakepin n) 10 = true →
    bit (tget 0 s.aon.wakepin n) 11 = false → fld (tget 0 s.aon.wakepin n) 12 2 = 0 → bit s.aon.raw (2 + n) = false →
    bit s.aon.inputs (2 + n) = false → bit s.pmu.levelHeld (3 + n) = false → s.aon.seq.waiting = false → s.pmu.dev = .run →
    exec (.wakePinEvent n true) s = .next { s with aon.raw := setBit s.aon.raw (2 + n), aon.glitch := tset 0 s.aon.glitch (2 + n) 0,
                                                   aon.inputs := setBit s.aon.inputs (2 + n),
                                                   aon.seq.latch := setBit s.aon.seq.latch (3 + n),
                                                   pmu.levelHeld := setBit s.pmu.levelHeld (3 + n),
                                                   pmu.wakePend := setBit s.pmu.wakePend (3 + n) }) ∧
  (∀ (s : State) (n : Fin 4) (high : Bool),
    let c := tget 0 s.aon.wakepin n
    let went := { s with aon.raw := putBit s.aon.raw (2 + n) high, aon.glitch := tset 0 s.aon.glitch (2 + n) 0 }
    let crossed := { went with aon.inputs := putBit s.aon.inputs (2 + n) high }
    ((s.pmu.dev = .off ∨ bit s.aon.raw (2 + n) = high) → exec (.wakePinEvent n high) s = .next s) ∧
    (s.pmu.dev ≠ .off → bit s.aon.raw (2 + n) ≠ high →
      ((fld c 12 2 ≠ 0 ∨ high = bit s.aon.inputs (2 + n)) → exec (.wakePinEvent n high) s = .next went) ∧
      (fld c 12 2 = 0 → high ≠ bit s.aon.inputs (2 + n) →
        (bit c 14 = false → exec (.wakePinEvent n high) s = .next crossed) ∧
        (bit c 14 = true → bit c 10 = false → high = bit c 11 → exec (.wakePinEvent n high) s = .next crossed) ∧
        (bit c 14 = true → bit c 10 = true → high = bit c 11 →
          exec (.wakePinEvent n high) s = .next { crossed with pmu.levelHeld := putBit s.pmu.levelHeld (3 + n) false })))) ∧
  (∀ (s : State), s.aon.seq.waiting = false → exec .fllLock s = .next s) ∧
  (∀ (s : State), s.aon.seq.waiting = true → s.aon.seq.latch &&& BitVec.ofNat 11 (s.aon.seq.instr.toNat % 2 ^ 18) ≠ 0 →
    s.aon.seq.pc < 4095 →
    ∃ t, exec .fllLock s = .next t ∧ bit t.clk.lock 16 = true ∧ t.aon.seq.waiting = false ∧ t.aon.seq.pc = s.aon.seq.pc + 1 ∧
      t.mem = s.mem ∧ t.pmu = s.pmu)

/-- The island's clocked units and registers (R147-R149, R152, R155-R157): PDM blocks, the RTC, its alarm and timer, and the writes and
reads with an effect of their own. A block whose bank is off is dropped with BANK_OFF (R159); a reserved code of CLK or GAIN leaves its field and
sets CTRL_REJECT (the model's choice, log 35). -/
def Says.IslandUnits : Prop :=
  (∀ (s : State) (dat0 dat1 : List Bool), fld s.aon.pdmCtrl 0 4 ≠ 0 → s.pmu.dev = .run → s.aon.seq.waiting = false →
    Memory.wf s.mem = true → s.aon.pdmBase.toNat + s.aon.pdmLen.toNat ≤ 0x80000 → s.aon.pdmWptr.toNat < s.aon.pdmLen.toNat →
    let bs := pdmBlock s.aon.pdmCtrl s.aon.pdmHeld dat0 dat1
    let place := fun i => s.aon.pdmBase.toNat + (s.aon.pdmWptr.toNat + i) % s.aon.pdmLen.toNat
    bs.length = 16 * 2 ^ fld s.aon.pdmCtrl 9 2 * 2 * popcount (fld s.aon.pdmCtrl 0 4) 4 ∧
    (bs.length ≤ s.aon.pdmLen.toNat → ∃ t, exec (.pdmBlock dat0 dat1) s = .next t ∧
      t.aon = { s.aon with
        pdmWptr := BitVec.ofNat 19 ((s.aon.pdmWptr.toNat + bs.length) % s.aon.pdmLen.toNat),
        pdmHeld := pdmHolds s.aon.pdmCtrl s.aon.pdmHeld dat0 dat1,
        seq := { s.aon.seq with latch := setBit s.aon.seq.latch 8 } } ∧
      (∀ i, i < bs.length → mread t.mem (dormBase + place i) = bs.getD i 0) ∧
      (∀ a, (∀ i, i < bs.length → a ≠ dormBase + place i) → mread t.mem a = mread s.mem a) ∧ t.pmu = s.pmu)) ∧
  (∀ (s : State) (dat0 dat1 : List Bool), (fld s.aon.pdmCtrl 0 4 = 0 ∨ s.aon.pdmLen = 0) → exec (.pdmBlock dat0 dat1) s = .next s) ∧
  (∀ (s : State) (dat0 dat1 : List Bool), fld s.aon.pdmCtrl 0 4 ≠ 0 → s.pmu.dev = .hibernate → s.pmu.retAon = 0 →
    s.aon.seq.waiting = false → s.aon.pdmBase.toNat + s.aon.pdmLen.toNat ≤ 0x80000 → s.aon.pdmWptr.toNat < s.aon.pdmLen.toNat →
    ∃ t, exec (.pdmBlock dat0 dat1) s = .next t ∧ t.mem = s.mem ∧ bit t.aon.err 3 = true ∧ bit t.aon.seq.latch 8 = true) ∧
  (∀ (s : State) (v : W32), s.pmu.dev ≠ .off → (fld v 4 2 = 3 ∨ 6 ≤ fld v 6 3) →
    ∃ t, exec (.aonPdmCtrlWrite v) s = .next t ∧ bit t.aon.err 4 = true ∧
      (fld v 4 2 = 3 → fld t.aon.pdmCtrl 4 2 = fld s.aon.pdmCtrl 4 2) ∧
      (6 ≤ fld v 6 3 → fld t.aon.pdmCtrl 6 3 = fld s.aon.pdmCtrl 6 3)) ∧
  (∀ (s : State) (v : W32), s.pmu.dev ≠ .off → s.aon.pdmBase.toNat % 64 = 0 → fld v 0 4 = 1 → fld v 4 2 ≠ 3 → fld v 6 3 < 6 →
    s.aon.pdmLen.toNat % (32 * 2 ^ fld v 9 2) = 0 →
    ∃ t, exec (.aonPdmCtrlWrite v) s = .next t ∧ t.aon = { s.aon with pdmCtrl := v &&& 0x7FF } ∧ bit t.clk.lock 16 = true ∧ t.mem = s.mem) ∧
  (∀ (s : State) (v : W32), s.pmu.dev ≠ .off → s.aon.pdmBase.toNat % 64 ≠ 0 → fld v 0 4 ≠ 0 → fld s.aon.pdmCtrl 0 4 = 0 →
    ∃ t, exec (.aonPdmCtrlWrite v) s = .next t ∧ fld t.aon.pdmCtrl 0 4 = 0 ∧ bit t.aon.err 4 = true ∧ t.mem = s.mem) ∧
  (∀ (s : State), s.pmu.dev ≠ .off → s.aon.period ≠ 0 → s.tb.carry = none → s.aon.raw = s.aon.inputs →
    exec .rtcTick s = .next { s with aon.rtc := s.aon.rtc + 1, aon.timerCount := s.aon.timerCount + 1, aon.almTick := true }) ∧
  (∀ (s : State), s.pmu.dev = .run → s.aon.period = 0 → s.tb.carry = none → s.aon.seq.waiting = false → bit s.aon.raw 0 = true →
    bit s.aon.inputs 0 = false → (∀ i, 0 < i → i < 6 → bit s.aon.raw i = bit s.aon.inputs i) →
    bit (tget cmpReset s.aon.cmp 0) 14 = true → bit (tget cmpReset s.aon.cmp 0) 10 = false →
    bit (tget cmpReset s.aon.cmp 0) 11 = false → fld (tget cmpReset s.aon.cmp 0) 12 2 = 2 →
    (tget 0 s.aon.glitch 0 = 0 → exec .rtcTick s = .next { s with
      aon.rtc := s.aon.rtc + 1, aon.timerCount := 0, aon.almTick := true, aon.glitch := tset 0 s.aon.glitch 0 1 }) ∧
    (tget 0 s.aon.glitch 0 = 1 → exec .rtcTick s = .next { s with
      aon.rtc := s.aon.rtc + 1, aon.timerCount := 0, aon.almTick := true, aon.glitch := tset 0 s.aon.glitch 0 0,
      aon.inputs := setBit s.aon.inputs 0, aon.seq.latch := setBit s.aon.seq.latch 0,
      pmu.wakePend := setBit s.pmu.wakePend 0 })) ∧
  (∀ (s : State), s.aon.almEn = true → s.aon.almFired = false → s.aon.almTick = true →
    s.aon.almLo.toNat + s.aon.almHi.toNat * 2 ^ 32 ≤ s.aon.rtc.toNat →
    s.aon.seq.waiting = false → s.pmu.dev = .run →
    exec .rtcAlarm s = .next { s with aon.almFired := true, aon.seq.latch := setBit s.aon.seq.latch 2,
                                      pmu.wakePend := setBit s.pmu.wakePend 2 }) ∧
  (∀ (s : State), (s.aon.almEn = false ∨ s.aon.almTick = false ∨ s.aon.rtc.toNat < s.aon.almLo.toNat + s.aon.almHi.toNat * 2 ^ 32) →
    exec .rtcAlarm s = .next s) ∧
  (∀ (s : State) (v : W32), s.pmu.dev ≠ .off → exec (.aonTimerWrite v) s = .next { s with aon.period := v.setWidth 24, aon.timerCount := 0 }) ∧
  (∀ (s : State), s.aon.period ≠ 0 → s.aon.timerCount = s.aon.period.toNat → s.aon.seq.waiting = false →
    exec .aonTimerExpiry s = .next { s with aon.timerCount := 0, aon.seq.latch := setBit s.aon.seq.latch 9 }) ∧
  (∀ (s : State), s.offAt 0x50060 = false → exec (.aonRtcLoRead .bar0) s = .next { s with
    rdata := (s.aon.rtc.setWidth 32).setWidth 64, aon.rtcShadow.bar0 := BitVec.ofNat 16 (s.aon.rtc.toNat / 2 ^ 32) }) ∧
  (∀ (s : State) (sd : Side) (e : Decision) (rest : List Decision), s.offAt 0x50120 = false → s.aon.fifo = e :: rest →
    exec (.aonDecHead0Read sd) s = .next { s with
    rdata := BitVec.ofNat 64 (e.det.toNat + e.level.toNat * 2 ^ 4 + e.score.toNat * 2 ^ 8 + 2 ^ 31),
    aon.fifo := rest, aon.head1 := e.rtc.setWidth 32 }) ∧
  (∀ (s : State) (sd : Side), s.offAt 0x50120 = false → s.aon.fifo = [] → exec (.aonDecHead0Read sd) s = .next { s with rdata := 0 }) ∧
  (∀ (s : State) (k : Fin 8) (v : W32), s.pmu.dev ≠ .off → fld v 0 8 ≤ fld v 8 8 →
    exec (.aonT0ThrWrite k v) s = .next { s with aon.thr := tset thrReset s.aon.thr k (v &&& 0xFFFF), aon.level := tset 0 s.aon.level k 0 }) ∧
  (∀ (s : State) (k : Fin 8) (v : W32), s.pmu.dev ≠ .off → fld v 8 8 < fld v 0 8 → exec (.aonT0ThrWrite k v) s = .next (s.errAon 4)) ∧
  (∀ (s : State) (v : W32), s.pmu.dev ≠ .off → s.aon.seq.waiting = false → exec (.aonMboxIn3Write v) s = .next { s with
    aon.mboxIn := tset 0 s.aon.mboxIn 3 v, aon.seq.latch := setBit s.aon.seq.latch 10 }) ∧
  (∀ (s : State) (v : W32), s.pmu.dev ≠ .off → s.aon.seq.run = false → bit v 0 = true → ∃ t, exec (.seqStart v) s = .next t ∧
    t.aon = { s.aon with seq := { s.aon.seq with run := true, startPc := BitVec.ofNat 12 (v.toNat / 2 ^ 16), pc := v.toNat / 2 ^ 16 % 4096,
                                                 halted := false, waiting := false } } ∧
    bit t.clk.lock 16 = true ∧ t.mem = s.mem) ∧
  (∀ (s : State) (v : W32), s.pmu.dev ≠ .off → bit v 0 = false → ∃ t, exec (.seqHaltRequest v) s = .next t ∧
    t.aon = { s.aon with seq := { s.aon.seq with run := false, startPc := BitVec.ofNat 12 (v.toNat / 2 ^ 16), halted := true,
                                                 waiting := false } } ∧ t.mem = s.mem)

/-! ### The Garast command protocol (chapter 7) -/

/-- Writes of ring registers (R165, R166, R169, R172, R188): enabling, refusing, doorbells and returned slots. -/
def Says.RingWrites : Prop :=
  ∀ (s : State) (n : Fin 64) (v : W32),
    let r := s.ring n
    (s.offAt (0x60008 + 0x40 * n) = false → s.tdiLocked = false →
      (bit r.sqCfg 0 = false → bit v 0 = true → 4 ≤ fld v 4 4 → fld v 4 4 ≤ 12 → r.sqBase.toNat % 64 = 0 → s.glb.ready = true →
        v &&& 0x03FF07F3 = v →
        exec (.gcpSqCfgWrite n v) s = .next (s.modRing n (fun r => { r with sqCfg := v, sqHead := 0, sqTail := 0, lastCq := none }))) ∧
      (bit r.sqCfg 0 = false → bit v 0 = true → (12 < fld v 4 4 ∨ fld v 4 4 < 4 ∨ r.sqBase.toNat % 64 ≠ 0) → v &&& 0x03FF07F3 = v →
        exec (.gcpSqCfgWrite n v) s = .next (s.errRing n 3)) ∧
      (bit r.sqCfg 0 = false → bit v 0 = true → 4 ≤ fld v 4 4 → fld v 4 4 ≤ 12 → r.sqBase.toNat % 64 = 0 → s.glb.ready = false →
        v &&& 0x03FF07F3 = v → exec (.gcpSqCfgWrite n v) s = .next s) ∧
      (bit r.sqCfg 0 = false → bit v 0 = false → v &&& 0x03FF07F3 = v →
        exec (.gcpSqCfgWrite n v) s = .next (s.modRing n (fun r => { r with sqCfg := v }))) ∧
      (bit r.sqCfg 0 = true → bit v 0 = false → v.toNat / 2 = r.sqCfg.toNat / 2 → v &&& 0x03FF07F3 = v →
        exec (.gcpSqCfgWrite n v) s = .next (s.modRing n (fun r => { r with sqCfg := putBit r.sqCfg 0 false }))) ∧
      (bit r.sqCfg 0 = true → bit v 0 = true → v.toNat / 2 ≠ r.sqCfg.toNat / 2 → v &&& 0x03FF07F3 = v →
        exec (.gcpSqCfgWrite n v) s = .next ((s.modRing n (fun r => { r with sqCfg := putBit r.sqCfg 0 true })).errRing n 3))) ∧
    (s.offAt (0x60008 + 0x40 * n) = false → s.tdiLocked = true → (bit r.sqCfg 10 = true ∨ bit (v &&& 0x03FF07F3) 10 = true) →
      exec (.gcpSqCfgWrite n v) s = .next (s.errRing n 3)) ∧
    (s.offAt (0x6001C + 0x40 * n) = false → s.tdiLocked = false →
      (bit r.cqCfg 0 = false → bit v 0 = true → 4 ≤ fld v 4 4 → fld v 4 4 ≤ 12 → r.cqBase.toNat % 64 = 0 → s.glb.ready = true →
        v &&& 0x1F3 = v → r.held = [] →
        exec (.gcpCqCfgWrite n v) s = .next (s.modRing n (fun r => { r with cqCfg := v, cqHead := 0, cqTail := 0, phase := true }))) ∧
      (bit r.cqCfg 0 = false → bit v 0 = true → (12 < fld v 4 4 ∨ fld v 4 4 < 4 ∨ r.cqBase.toNat % 64 ≠ 0) → v &&& 0x1F3 = v →
        exec (.gcpCqCfgWrite n v) s = .next (s.errRing n 3)) ∧
      (bit r.cqCfg 0 = true → bit v 0 = false → v.toNat / 2 = r.cqCfg.toNat / 2 → v &&& 0x1F3 = v →
        exec (.gcpCqCfgWrite n v) s = .next (s.modRing n (fun r => { r with cqCfg := putBit r.cqCfg 0 false }))) ∧
      (bit r.cqCfg 0 = true → v.toNat / 2 ≠ r.cqCfg.toNat / 2 → v &&& 0x1F3 = v →
        exec (.gcpCqCfgWrite n v) s = .next ((s.modRing n (fun r => { r with cqCfg := putBit r.cqCfg 0 (bit v 0) })).errRing n 3)) ∧
      (bit r.cqCfg 0 = false → bit v 0 = false → v &&& 0x1F3 = v →
        exec (.gcpCqCfgWrite n v) s = .next (s.modRing n (fun r => { r with cqCfg := v })))) ∧
    (s.offAt (0x6000C + 0x40 * n) = false →
      let z := ringSize r.sqCfg
      let w := v.toNat % 4096
      (w < z → (w + z - r.sqTail.toNat) % z ≤ r.free → exec (.gcpSqTailWrite n v) s =
        .next (State.wakeFire 8 (s.modRing n (fun r => { r with sqTail := BitVec.ofNat 12 w })))) ∧
      ((z ≤ w ∨ r.free < (w + z - r.sqTail.toNat) % z) → exec (.gcpSqTailWrite n v) s = .next (s.errRing n 0))) ∧
    (s.offAt 0x61000 = false → s.tdiLocked = false →
      exec (.gcpTransportCfgWrite true v) s = .next { s with gcp.spiCfg := v &&& 0x3F3F } ∧
      exec (.gcpTransportCfgWrite false v) s = .next { s with gcp.usbCfg := v &&& 0x3F3F }) ∧
    (s.offAt (0x6000C + 0x40 * n) = false → r.sqTail = r.sqHead → s.pmu.dev = .run →
      let z := ringSize r.sqCfg
      (v.toNat % 4096 < z →
        exec (.gcpSqTailWrite n v) s = .next { s.modRing n (fun r => { r with sqTail := BitVec.ofNat 12 v.toNat }) with
          pmu.wakePend := setBit s.pmu.wakePend 8 }) ∧
      (z ≤ v.toNat % 4096 → exec (.gcpSqTailWrite n v) s = .next (s.errRing n 0))) ∧
    (s.offAt (0x60020 + 0x40 * n) = false → r.held = [] →
      let z := ringSize r.cqCfg
      (v.toNat % 4096 < z → (v.toNat % 4096 + z - r.cqHead.toNat) % z ≤ (r.cqTail.toNat + z - r.cqHead.toNat) % z →
        exec (.gcpCqHeadWrite n v) s = .next (s.modRing n (fun r => { r with cqHead := BitVec.ofNat 12 v.toNat }))) ∧
      ((z ≤ v.toNat % 4096 ∨ (r.cqTail.toNat + z - r.cqHead.toNat) % z < (v.toNat % 4096 + z - r.cqHead.toNat) % z) →
        exec (.gcpCqHeadWrite n v) s = .next (s.errRing n 1)))

/-- Table 7.3: the header checks in their order, each with its reason code (Table 7.6); Table 7.5 gives the opcodes, the privileged
ones and the classes; R59 the due word. -/
def Says.HeaderChecks : Prop :=
  ∀ (s : State) (cfg : W32) (p : List Byte),
    let op := leAt p 0 2
    let tc := leAt p 4 2
    let due : W64 := BitVec.ofNat 64 (leAt p 8 8)
    let clean : Prop := tc / 4096 = 0 ∧ leAt p 6 1 < 64 ∧ leAt p 7 1 < 8 ∧ leAt p 22 2 = 0 ∧ tc / 1024 % 4 ≠ 3 ∧
      leAt p 7 1 % 2 = 0 ∧ leAt p 20 2 ≤ 40
    let known : List Nat := [0x01, 0x02, 0x10, 0x11, 0x12, 0x13, 0x14, 0x20, 0x21, 0x30, 0x31, 0x32, 0x33, 0x34, 0x40, 0x41, 0x50, 0x51,
      0x52, 0x60, 0x61, 0x70, 0x71, 0x72, 0x73, 0x80, 0x90, 0xA0, 0xB0, 0xC0, 0xC1, 0xD0]
    let priv : List Nat := [0x10, 0x11, 0x12, 0x60, 0x61, 0x70, 0x71, 0x72, 0x73, 0x90, 0xA0]
    let realtime : List Nat := [0x30, 0x31, 0x32, 0x33, 0x34]
    let lower : List Nat := [0x20, 0x21, 0x40, 0x41, 0x50, 0x51, 0x52, 0xB0]
    let trusted : Prop := op ∈ known ∧ (op ∈ priv → bit cfg 10 = true) ∧ (bit cfg 10 = true ∨ tc % 1024 = fld cfg 16 10) ∧
      s.tenant (tc % 1024) ≠ none
    let cls := tc / 1024 % 4
    ((tc / 4096 ≠ 0 ∨ 64 ≤ leAt p 6 1 ∨ 8 ≤ leAt p 7 1 ∨ leAt p 22 2 ≠ 0 ∨ tc / 1024 % 4 = 3 ∨
        (leAt p 7 1 % 2 = 0 ∧ 40 < leAt p 20 2)) → headerCheck s cfg p = some 0x0101) ∧
    (clean → op ∉ known → headerCheck s cfg p = some 0x0102) ∧
    (clean → op ∈ priv → bit cfg 10 = false → headerCheck s cfg p = some 0x0103) ∧
    (clean → op ∈ known → op ∉ priv → bit cfg 10 = false → tc % 1024 ≠ fld cfg 16 10 → headerCheck s cfg p = some 0x0105) ∧
    (clean → op ∈ realtime ++ lower → s.tenant (tc % 1024) = none → (bit cfg 10 = true ∨ tc % 1024 = fld cfg 16 10) →
      headerCheck s cfg p = some 0x0104) ∧
    (clean → trusted → ((op ∈ realtime ∧ cls ≠ 0) ∨ (op ∈ lower ∧ cls = 0) ∨ ((op = 0xC0 ∨ op = 0xC1) ∧ cls ≠ 2)) →
      headerCheck s cfg p = some 0x0106) ∧
    (clean → trusted → (op ∈ realtime → cls = 0) → (op ∈ lower → cls ≠ 0) → (op = 0xC0 ∨ op = 0xC1 → cls = 2) →
      headerCheck s cfg p = dueCheck s.build.rev due ∧ (due = 0 → headerCheck s cfg p = none))

/-- R174, R181: the part reads the command at HEAD of the ring that is next; HEAD advances; a refused command has no effect but its
entry, any other is outstanding, and the timer of one that waits for a value starts when that value is reached (R61). A command of a ring bound
to an epoch is its member, if its opcode may be (R398); a COMMIT or an UNBIND samples its ring as it is read (R396, R398). A ring read over
PCIe that fails sets DMA_ERR (log 30), a command that names a completion ring with held entries stalls its ring (R169), one of a proxied
ring goes to its node (R515). A ring that is not next is not read. -/
def Says.CommandReads : Prop :=
  ∀ (s : State) (n : Fin 64) (host : HostFetch),
    let r := s.ring n
    let p := (List.range 64).map (fun i => mread s.mem (r.sqBase.toNat + 64 * r.sqHead.toNat + i))
    let c := cmdOf s.gcp.nextId n p (slice p 24 (pktLen p))
    let s1 : State := { s with gcp.nextId := s.gcp.nextId + 1, gcp.lastRing := tset 63 s.gcp.lastRing (fld r.sqCfg 8 2) n,
                               fresh := s.fresh + 1 }
    let s2 := s1.modRing n (fun r => { r with sqHead := BitVec.ofNat 12 ((r.sqHead.toNat + 1) % ringSize r.sqCfg), lastCq := some c.cq,
                                              bound := none, unbind := none })
    let b1 : Nat → State := fun e => s1.modRing n (fun r => { r with
      sqHead := BitVec.ofNat 12 ((r.sqHead.toNat + 1) % ringSize r.sqCfg), lastCq := some c.cq, bound := some e, unbind := none })
    (s.nextRing = some n.val → s.packetAt n host = none → exec (.commandRead n host) s = .next (s.errRing n 5)) ∧
    (∀ q, s.nextRing = some n.val → s.packetAt n host = some q →
      let params := s.paramsOf n q host
      let d := cmdOf s.gcp.nextId n q (params.getD [])
      let t1 := State.modRing n (fun r => { r.advance with lastCq := some d.cq }) { s with
        gcp.nextId := s.gcp.nextId + 1, gcp.lastRing := tset 63 s.gcp.lastRing (fld r.sqCfg 8 2) n, fresh := s.fresh + 1 }
      let t2 := if (t1.ring d.cq).held = [] then t1 else t1.errRing n 2
      (r.proxy = none → exec (.commandRead n host) s = .next (t2.readLocal d r.sqCfg q params r.bound)) ∧
      (∀ node, r.proxy = some node → exec (.commandRead n host) s = .next (t2.readProxied d node r.sqCfg q))) ∧
    (∀ e, s.nextRing = some n.val → bit r.sqCfg 1 = true → r.sqBase.toNat + 64 * r.sqHead.toNat + 64 ≤ 0x400000 → r.proxy = none →
      r.bound = some e → r.unbind = none → pktIndirect p = false → (s.ring c.cq).held = [] → headerCheck s r.sqCfg p = none →
      ((c.op = 0x0001 ∨ c.op = 0x0040 ∨ c.op = 0x0041) → c.timeout.toNat % 2 ^ 31 = 0 → exec (.commandRead n host) s = .next { b1 e with
        cmds := s.cmds ++ [{ c with epoch := some e, priv := bit r.sqCfg 10, timer := false }] }) ∧
      (c.op ≠ 0x0001 → c.op ≠ 0x0040 → c.op ≠ 0x0041 → exec (.commandRead n host) s = .next ((b1 e).complete c 3 0x0107))) ∧
    (∀ (t : State) (k : Cmd), k.op ≠ 0x0061 → t.readCtrl k = t) ∧
    (s.nextRing = some n.val → bit r.sqCfg 1 = true → r.sqBase.toNat + 64 * r.sqHead.toNat + 64 ≤ 0x400000 → r.proxy = none →
      r.bound = none → r.unbind = none → pktIndirect p = false → (s.ring c.cq).held = [] →
      (headerCheck s r.sqCfg p = none → c.op ≠ 0x0061 →
        let timed : Prop := c.timeout.toNat % 2 ^ 31 ≠ 0
        let waits : Prop := dueIs c.due 0 = true ∨ dueIs c.due 1 = true
        (timed ∧ ¬ waits → exec (.commandRead n host) s = .next { s2 with
          cmds := s.cmds ++ [{ c with priv := bit r.sqCfg 10, timer := true }] }) ∧
        (timed ∧ waits → exec (.commandRead n host) s = .next (State.arm (dueTb c.due) (dueVal c.due).toNat (.timer c.id)
          { s2 with cmds := s.cmds ++ [{ c with priv := bit r.sqCfg 10, timer := false }] })) ∧
        (¬ timed → exec (.commandRead n host) s = .next { s2 with
          cmds := s.cmds ++ [{ c with priv := bit r.sqCfg 10, timer := false }] })) ∧
      (∀ rs, headerCheck s r.sqCfg p = some rs →
        exec (.commandRead n host) s = .next (s2.complete c 3 rs))) ∧
    (s.nextRing ≠ some n.val → exec (.commandRead n host) s = .next s)

/-- NOP completes SERVED (Table 7.5); a command with parameters of a wrong length is refused with BAD_PARAM; ABORT of no other command
completes SERVED with a count of 0 (R177), ABORT of one ends it ABORTED / HOST_ABORT but for a completion in the same cycle and a key walk (R193,
R482); a command that has not been read yet, has gone, or must wait changes nothing (R182, R183). -/
def Says.NopAndAbort : Prop :=
  (∀ (s : State) (c : Cmd), Ready s c 0x0001 → c.params = [] → exec (.nop c.id) s = .next ((begun s c).served (going c) [])) ∧
  (∀ (s : State) (c : Cmd), Ready s c 0x0001 → c.params ≠ [] → exec (.nop c.id) s = .next (s.complete c 3 0x0107)) ∧
  (∀ (s : State) (id : Nat), s.cmd id = none → exec (.nop id) s = .next s ∧ exec (.commandTimeout id .alone) s = .next s) ∧
  (∀ (s : State) (c : Cmd), s.cmd c.id = some c → (c.phase ≠ .read ∨ s.mayStart c = false) → exec (.nop c.id) s = .next s) ∧
  (∀ (s : State) (c : Cmd), Ready s c 0x0002 → c.params.length = 4 → c.p 0 1 < 64 → c.p 1 1 = 0 →
    (∀ d ∈ s.cmds, d.id ≠ c.id → ¬ (d.tenant = c.tenant ∧ d.sq = c.p 0 1 ∧ d.tag.toNat = c.p 2 2)) →
    exec (.abort c.id none) s = .next ((begun s c).served (going c) [0, 0, 0, 0, 0, 0, 0, 0])) ∧
  (∀ (s : State) (c d : Cmd), Ready s c 0x0002 → c.params.length = 4 → c.p 0 1 < 64 → c.p 1 1 = 0 → s.jobs = [] → s.pools = [] →
    s.cmds = [d, c] → d.id ≠ c.id → d.tenant = c.tenant → d.sq = c.p 0 1 → d.tag.toNat = c.p 2 2 → d.proxied = c.proxied →
    s.key.walk = none → d.op = 0x0001 → d.epoch = none → d.opRows = [] →
    ∃ t, exec (.abort c.id none) s = .next t ∧ t.cmds = [] ∧
      t = ((begun s c).complete d 6 0x0303).served (going c) [1, 0, 0, 0, 0, 0, 0, 0]) ∧
  (∀ (s : State) (c : Cmd) (tie : Option Nat), Ready s c 0x0002 → c.params.length = 4 → c.p 0 1 < 64 → c.p 1 1 = 0 →
    let l := s.cmds.filter (fun d => d.id ≠ c.id && d.tenant == c.tenant && d.sq == c.p 0 1 && d.tag.toNat == c.p 2 2 &&
      some d.id ≠ tie && d.proxied == c.proxied && !(s.key.walk.any (fun w => w.cmd == d.id)))
    (∃ t, exec (.abort c.id tie) s = .next t) ∧
    (l = [] → exec (.abort c.id tie) s = .next ((begun s c).served (going c) [0, 0, 0, 0, 0, 0, 0, 0])) ∧
    (∀ d, l = [d] → s.cmd d.id = some d → exec (.abort c.id tie) s =
      .next (((begun s c).endCmd d { oc := 6, rs := 0x0303 }).served (going c) [1, 0, 0, 0, 0, 0, 0, 0]))) ∧
  (∀ (s : State) (c : Cmd) (tie : Option Nat), Ready s c 0x0002 → (c.params.length ≠ 4 ∨ 64 ≤ c.p 0 1 ∨ c.p 1 1 ≠ 0) →
    exec (.abort c.id tie) s = .next (s.complete c 3 0x0107))

/-- The command timer and proxied commands (R186, R191, R192, R44, R75, R194, R515): a command that waits for its tick ends TIMED_OUT / TIMER, after
the saves of its jobs (R228); in the same cycle a completion, a lost link, a lost die and a deadline win; a CMD frame for this part brings a command, once its last part has come, and a CPL frame completes the command it
answers or counts as late, when that one has ended (R16). The layout of the frames is the model's (log 14). -/
def Says.TimersAndProxies : Prop :=
  (∀ (s : State) (c : Cmd), s.cmd c.id = some c → c.timer = true → s.jobs = [] → s.pools = [] → c.op = 0x0001 → c.epoch = none → c.opRows = [] →
    exec (.commandTimeout c.id .alone) s = .next (s.complete c 5 0x0302)) ∧
  (∀ (s : State) (c : Cmd), s.cmd c.id = some c → c.timer = true → exec (.commandTimeout c.id .completion) s = .next
    { s.modCmd c.id (fun c => { c with timer := false }) with obs.tie := satInc s.obs.tie }) ∧
  (∀ (s : State) (c : Cmd), s.cmd c.id = some c → c.timer = true →
    (∀ tie, (tie = .alone ∨ tie = .abort) → exec (.commandTimeout c.id tie) s = .next (s.timesOut c 0x0302)) ∧
    (s.overLink c = true → exec (.commandTimeout c.id .linkDown) s = .next (s.endCmd c { oc := 4, rs := 0x0701 })) ∧
    (s.overLink c = false → exec (.commandTimeout c.id .linkDown) s = .next (s.timesOut c 0x0302)) ∧
    (exec (.commandTimeout c.id .dieLost) s = .next (s.endCmd c { oc := 4, rs := 0x0502 })) ∧
    (dueIs c.due 2 = true → exec (.commandTimeout c.id .deadline) s = .next (s.timesOut c 0x0301)) ∧
    (dueIs c.due 2 = false → exec (.commandTimeout c.id .deadline) s = .next (s.timesOut c 0x0302)) ∧
    (exec (.commandTimeout c.id .checkpoint) s = .next ((s.ckptTorn c.id).timesOut c 0x0302)) ∧
    (s.jobsOf c.id = [] → s.timesOut c 0x0302 = s.endCmd c { oc := 5, rs := 0x0302 })) ∧
  (∀ (s : State) (c : Cmd), s.cmd c.id = some c → c.timer = false → ∀ tie, exec (.commandTimeout c.id tie) s = .next s) ∧
  (∀ (s : State) (port : Fin 4) (f : LinkFrame), (s.slp port).st = .up → f.crcOk = true → f.seq = (s.slp port).rxSeq →
    f.dst.toNat = s.node → f.conf = false →
    let p := slice f.payload 8 64
    let s1 := s.modSlp port (fun q => { q with rxSeq := q.rxSeq + 1, acked := some true })
    (f.ftype = 2 → bitN (leAt f.payload 1 1) 1 = true → bitN (leAt f.payload 1 1) 2 = true → exec (.cmdFrame port f) s =
      .next { s1 with slk.parts := tset [] s.slk.parts (512 + f.src.toNat) (f.payload.drop 4) }) ∧
    (f.ftype = 2 → bitN (leAt f.payload 1 1) 1 = false → bitN (leAt f.payload 1 1) 2 = true → pktIndirect p = false →
      (∀ rs, headerCheck s 0x400 p = some rs → ∃ c, exec (.cmdFrame port f) s = .next (State.complete c 3 rs
        { s1 with slk.parts := tset [] s.slk.parts (512 + f.src.toNat) [], gcp.nextId := s.gcp.nextId + 1 }) ∧
        c.id = s.gcp.nextId ∧ c.proxied = some (f.src.toNat % 64) ∧ c.tag.toNat = leAt p 2 2) ∧
      (headerCheck s 0x400 p = none → ∃ c t, exec (.cmdFrame port f) s = .next (t.readCtrl c) ∧
      t = { s1 with slk.parts := tset [] s.slk.parts (512 + f.src.toNat) [], gcp.nextId := s.gcp.nextId + 1, cmds := s.cmds ++ [c] } ∧
        c.id = s.gcp.nextId ∧ c.op = leAt p 0 2 ∧
      c.tag.toNat = leAt p 2 2 ∧ c.sq = leAt f.payload 0 1 % 64 ∧ c.proxied = some (f.src.toNat % 64) ∧ c.phase = .read ∧
      c.origin = leAt f.payload 4 4 ∧ c.params = slice p 24 (pktLen p) ∧ (c.op ≠ 0x0061 → t.readCtrl c = t))) ∧
    (f.ftype = 3 → (∀ c ∈ s.cmds, c.remote = none ∨ c.id % 2 ^ 32 ≠ leAt f.payload 36 4 ∨ c.tag.toNat ≠ leAt f.payload 4 2) →
      exec (.cplFrame port f) s = .next { s1 with gcp.lateDrop := satInc s.gcp.lateDrop }) ∧
    (f.ftype = 3 → ∀ l c m, s.cmds = l ++ c :: m → (∀ d ∈ l, d.remote = none ∨ d.id % 2 ^ 32 ≠ leAt f.payload 36 4) →
      c.remote.isSome = true → c.id % 2 ^ 32 = leAt f.payload 36 4 → c.sq = leAt f.payload 17 1 → c.tag.toNat = leAt f.payload 4 2 →
      ∃ st, exec (.cplFrame port f) s = .next ((s1.dropCmd c.id).postStatus c.cq st) ∧ st.tag = c.tag ∧ st.sq = c.sq ∧
        st.reason.toNat = leAt f.payload 10 2 ∧ st.result = slice f.payload 28 8))

/-! ### Tenants, images and reset commands (chapters 3, 7, 8) -/

/-- A command's own due word (R58-R61, Table 3.4), on NOP: an AT value that lies ahead arms it, one already reached starts it with its late
count; a
NOT_BEFORE value already reached starts it now; a deadline already reached ends it TIMED_OUT / DEADLINE_PASSED. -/
def Says.DueWords : Prop :=
  ∀ (s : State) (c : Cmd), s.cmd c.id = some c → c.op = 0x0001 → c.phase = .read → s.mayStart c = true → c.params = [] →
    dueSel c.due ≠ 0 →
    let tb := dueTb c.due
    let v := (dueVal c.due).toNat
    let reached := tbReached tb (s.tbNow tb) v
    (dueKind c.due = 0 → reached = false →
      exec (.nop c.id) s = .next ((s.modCmd c.id (fun c => { c with phase := .armed })).arm tb v (.cmd c.id))) ∧
    (dueKind c.due = 0 → reached = true →
      let b := { c with phase := .running, late := tbLate tb (s.tbNow tb) v, timer := c.timed }
      exec (.nop c.id) s = .next ((s.modCmd c.id (fun _ => b)).served b [])) ∧
    (dueKind c.due = 1 → reached = false →
      exec (.nop c.id) s = .next ((s.modCmd c.id (fun c => { c with phase := .armed })).arm tb v (.cmd c.id))) ∧
    (dueKind c.due = 1 → reached = true →
      let b := { c with phase := .running, timer := c.timed }
      exec (.nop c.id) s = .next ((s.modCmd c.id (fun _ => b)).served b [])) ∧
    (dueKind c.due = 2 → reached = true → exec (.nop c.id) s = .next (s.complete c 5 0x0301)) ∧
    (dueKind c.due = 2 → reached = false →
      exec (.nop c.id) s = .next (((s.arm tb v (.cmd c.id)).modCmd c.id (fun _ => going c)).served (going c) []))

/-- Tenants (R197-R201, R371, Tables 8.1, 8.2): a legal block makes or replaces the tenant with every field of the block, and every stream's
density follows; an existing tenant, a bad field, a core over RT_CAP, an open stream and an active job refuse. -/
def Says.TenantCommands : Prop :=
  ∀ (s : State) (c : Cmd),
    let b := c.params
    let t := tenantOf b
    (t.signed = bitN (leAt b 0 1) 0 ∧ t.saveSlots = leAt b 1 1 ∧ t.rtDensity = leAt b 2 2 ∧ t.rtStreams = leAt b 4 2 ∧
      t.intCores = leAt b 6 1 ∧ t.bgCores = leAt b 7 1 ∧ t.affinity = BitVec.ofNat 64 (leAt b 8 8) ∧ t.saveBase = leAt b 16 8 ∧
      t.slotsUsed = [] ∧ t.windows.length = 8) ∧
    (Ready s c 0x0010 → s.tenant c.tenant = none → s.tenantBlockOk b = true → s.saveAreaDenied b = false →
      (s.withTenant c.tenant (some t)).overCap t.affinity = false →
      exec (.tenantCreate c.id) s = .next (((begun s c).withTenant c.tenant (some t)).served (going c) [])) ∧
    (Ready s c 0x0010 → s.tenant c.tenant ≠ none → exec (.tenantCreate c.id) s = .next (s.complete c 3 0x0107)) ∧
    (Ready s c 0x0010 → (b.length ≠ 256 ∨ 1 < leAt b 0 1 ∨ leAt b 1 1 = 0 ∨ 64 < leAt b 1 1 ∨ 64000 < leAt b 2 2 ∨ 256 < leAt b 4 2 ∨
        64 < leAt b 6 1 ∨ 64 < leAt b 7 1 ∨ leAt b 8 8 = 0 ∨ leAt b 16 8 % 4096 ≠ 0 ∨ 2 ^ 40 ≤ leAt b 16 8) →
      exec (.tenantCreate c.id) s = .next (s.complete c 3 0x0107)) ∧
    (Ready s c 0x0010 → s.tenant c.tenant = none → s.tenantBlockOk b = true →
      (s.saveAreaDenied b = true → exec (.tenantCreate c.id) s = .next (s.complete c 3 0x0505)) ∧
      (s.saveAreaDenied b = false → (s.withTenant c.tenant (some t)).overCap t.affinity = true →
        exec (.tenantCreate c.id) s = .next (s.complete c 3 0x0201))) ∧
    (Ready s c 0x0012 → s.tenant c.tenant = none → exec (.tenantSet c.id) s = .next (s.complete c 3 0x0104)) ∧
    (Ready s c 0x0012 → s.tenantBlockOk b = true → s.saveAreaDenied b = false → ∀ old, s.tenant c.tenant = some old →
      (s.withTenant c.tenant (some { t with slotsUsed := old.slotsUsed })).overCap t.affinity = false →
      (s.withTenant c.tenant (some { t with slotsUsed := old.slotsUsed })).streamsBreak c.tenant { t with slotsUsed := old.slotsUsed } = false →
      exec (.tenantSet c.id) s =
        .next (((begun s c).withTenant c.tenant (some { t with slotsUsed := old.slotsUsed })).served (going c) [])) ∧
    (Ready s c 0x0012 → s.tenantBlockOk b = true → s.saveAreaDenied b = false → ∀ old, s.tenant c.tenant = some old →
      ((s.withTenant c.tenant (some { t with slotsUsed := old.slotsUsed })).overCap t.affinity = true ∨
        (s.withTenant c.tenant (some { t with slotsUsed := old.slotsUsed })).streamsBreak c.tenant { t with slotsUsed := old.slotsUsed } = true) →
      exec (.tenantSet c.id) s = .next (s.complete c 3 0x0201)) ∧
    (Ready s c 0x0011 → b = [] → s.tenantStreams c.tenant = [] → (∀ e ∈ s.jobs, ∀ j, e.2 = some j → j.tenant ≠ c.tenant) →
      (∀ e ∈ s.rules, e.2.enabled = true → e.2.tenant ≠ c.tenant) → (s.cam.running = true → s.cam.owner.toNat ≠ c.tenant) →
      ∃ u : State, exec (.tenantDestroy c.id) s = .next (u.served (going c) []) ∧ u.tenant c.tenant = none ∧
        u.slot c.tenant = {} ∧ (∀ i, i ≠ c.tenant → u.tenant i = s.tenant i ∧ u.slot i = s.slot i) ∧
        (∀ e ∈ u.images, ∀ i, e.2 = some i → i.tenant ≠ c.tenant) ∧ (∀ e ∈ u.kvShares, e.2.tenant ≠ c.tenant) ∧
        u.key.descs = s.key.descs ∧ u.mem = s.mem ∧ u.jobs = s.jobs ∧ u.rules = s.rules ∧
        (s.pools = [] → u.epochs = s.epochs ∧ u.cmds = (begun s c).cmds)) ∧
    (Ready s c 0x0011 → b = [] → s.tenantStreams c.tenant ≠ [] →
      exec (.tenantDestroy c.id) s = .next (s.complete c 3 0x0401)) ∧
    (Ready s c 0x0011 → b = [] → s.tenantStreams c.tenant = [] → (s.jobs.any (fun e => e.2.any (fun j => j.tenant == c.tenant))) = true →
      exec (.tenantDestroy c.id) s = .next (s.complete c 3 0x0402)) ∧
    (Ready s c 0x0011 → b = [] → s.tenantStreams c.tenant = [] → (s.cam.running = true ∧ s.cam.owner.toNat = c.tenant ∨
        ∃ e ∈ s.rules, e.2.enabled = true ∧ e.2.tenant = c.tenant) →
      exec (.tenantDestroy c.id) s = .next (s.complete c 3 0x0402)) ∧
    (Ready s c 0x0011 → b ≠ [] → exec (.tenantDestroy c.id) s = .next (s.complete c 3 0x0107)) ∧
    (∀ x, t.affinity ≠ 0 → (s.withTenant x (some t)).tenants = tset none s.tenants x (some t))

/-- The density of a stream (R210, Table 3.1): ceil(1,000 × (C + A) / W) ‰ with W = B frame periods less 16 µs and less twice the path
latency of a stream homed here for another part, in reference cycles; the allowance A is 22 µs when every tenant whose AFFINITY holds the
core saves in DM, and 60 µs otherwise. A stream at 48 kHz with B = 32 that reserves 450 µs with an allowance of 22 µs has the density 726 of
the worked example of section 8.8. -/
def Says.StreamDensity : Prop :=
  (∀ (s : State) (bLog2 us d lat : Nat), 16 * 24576 * s.rateHz + 2000 * lat * s.rateHz < 2 ^ bLog2 * 24576000000 →
    d = s.densityOf bLog2 us 0 lat →
    let w := 2 ^ bLog2 * 24576000000 - 16 * 24576 * s.rateHz - 2000 * lat * s.rateHz
    24576000 * us * s.rateHz ≤ d * w ∧ (d = 0 ∨ (d - 1) * w < 24576000 * us * s.rateHz)) ∧
  (∀ (s : State) (bLog2 us d : Nat), 16 * s.rateHz < 2 ^ bLog2 * 1000000 → d = s.densityOf bLog2 us 0 0 →
    1000 * us * s.rateHz ≤ d * (2 ^ bLog2 * 1000000 - 16 * s.rateHz) ∧
    (d = 0 ∨ (d - 1) * (2 ^ bLog2 * 1000000 - 16 * s.rateHz) < 1000 * us * s.rateHz)) ∧
  (∀ (s : State) (k : Nat), (∀ e ∈ s.tenants, ∀ t, e.2 = some t → bit t.affinity k = true → ∃ d, s.region t.saveBase = .dm d) →
    s.allowance k = 22) ∧
  (∀ (s : State) (k : Nat), ∀ e ∈ s.tenants, ∀ t, e.2 = some t → bit t.affinity k = true → s.region t.saveBase = .lpddr →
    s.allowance k = 60) ∧
  (∀ s : State, s.rateHz = 48000 → s.densityOf 5 472 0 0 = 726)

/-- A write to SCH_CTRL.RT_CAP (R212): above 1,000 or below a core's density it is ignored with CAP_REJECT. -/
def Says.RtCapWrites : Prop :=
  ∀ (s : State) (v : W32), s.offAt 0x70000 = false →
    (v.toNat % 1024 ≤ 1000 → (∀ k, k < 64 → s.coreDensity k ≤ v.toNat % 1024) →
      exec (.schCtrlWrite v) s = .next { s with sch.rtCap := BitVec.ofNat 10 (v.toNat % 1024) }) ∧
    ((1000 < v.toNat % 1024 ∨ ∃ k, k < 64 ∧ v.toNat % 1024 < s.coreDensity k) → exec (.schCtrlWrite v) s = .next (s.errSch 2))

/-- Images (R176, R234): a legal image is stored and given the lowest free handle; a bad structure, a feature that this IOD lacks (R15) and an
unverified signature refuse; an image that a stream or an enabled rule uses stays. The places of the parameters are the model's (log 22). -/
def Says.ImageCommands : Prop :=
  (∀ (s : State) (c : Cmd) (img : ImageDesc) (h : Nat), Ready s c 0x0020 → (∀ k ∈ s.tb.compares, k.owner ≠ .cmd c.id) →
    checkImageLoad img s c = none → s.pathHeld none img.codeBase (codeBytes img).length = false →
    (begun s c).saveDeny c.tenant img.codeBase (codeBytes img).length true = none → freeIndex s.images 65536 = some h →
    exec (.imageLoad c.id img) s = .next (({ (begun s c).devWrite img.codeBase (codeBytes img) with
      images := tset none s.images h (some { tenant := c.tenant, codeBase := img.codeBase, codeLen := img.code.length,
                                             entries := img.entries }) } : State).served (going c) (res2 h))) ∧
  (∀ (s : State) (c : Cmd) (img : ImageDesc) (d : Deny), Ready s c 0x0020 → (∀ k ∈ s.tb.compares, k.owner ≠ .cmd c.id) →
    checkImageLoad img s c = none → s.pathHeld none img.codeBase (codeBytes img).length = false →
    (begun s c).saveDeny c.tenant img.codeBase (codeBytes img).length true = some d →
    exec (.imageLoad c.id img) s = .next (((begun s c).noteDeny d).complete (going c) 4 (faultReason d.code))) ∧
  (∀ (s : State) (id : Nat) (img : ImageDesc), s.pathHeld none img.codeBase (codeBytes img).length = true →
    exec (.imageLoad id img) s = .next s) ∧
  (∀ (s : State) (c : Cmd) (img : ImageDesc), Ready s c 0x0020 → (∀ k ∈ s.tb.compares, k.owner ≠ .cmd c.id) →
    s.pathHeld none img.codeBase (codeBytes img).length = false → c.params.length = 16 →
    let src := leAt c.params 0 8
    let n := leAt c.params 8 8
    ((2 ^ 40 < src + n ∨ ∃ a, src ≤ a ∧ a < src + n ∧ s.mapDeny false (a / 4096) ≠ none) →
      exec (.imageLoad c.id img) s = .next (s.complete c 3 0x0505)) ∧
    (src + n ≤ 2 ^ 40 → (∀ a, src ≤ a → a < src + n → s.mapDeny false (a / 4096) = none) →
      (n = 0 ∨ img.formatOk = false ∨ img.codeBase % 16 ≠ 0 ∨ s.inDmOrLpddr img.codeBase (codeBytes img).length = false →
        exec (.imageLoad c.id img) s = .next (s.complete c 3 0x0605)) ∧
      (n ≠ 0 → img.formatOk = true → img.codeBase % 16 = 0 → s.inDmOrLpddr img.codeBase (codeBytes img).length = true →
      (s.rev2 = false → (img.usesMpc = true ∨ img.uses16g = true ∨ img.usesSysKeys = true) →
        exec (.imageLoad c.id img) s = .next (s.complete c 3 0x0501)) ∧
      (s.rev2 = true → ∀ t, s.tenant c.tenant = some t → t.signed = true → img.signatureOk = false →
        exec (.imageLoad c.id img) s = .next (s.complete c 3 0x0606))))) ∧
  (∀ (s : State) (c : Cmd), Ready s c 0x0021 → c.params.length = 8 → zerosAt c.params 2 6 = true →
    (∀ i, s.image (leAt c.params 0 2) = some i → i.tenant = c.tenant →
      s.streams.any (fun e => e.2.any (fun x => x.image == leAt c.params 0 2)) = false →
      s.rules.any (fun e => e.2.enabled && e.2.image == leAt c.params 0 2) = false →
      exec (.imageUnload c.id) s = .next (({ begun s c with images := tset none s.images (leAt c.params 0 2) none } : State).served (going c) [])) ∧
    (s.image (leAt c.params 0 2) = none → exec (.imageUnload c.id) s = .next (s.complete c 3 0x0206)) ∧
    ((s.streams.any (fun e => e.2.any (fun x => x.image == leAt c.params 0 2)) = true ∨
        s.rules.any (fun e => e.2.enabled && e.2.image == leAt c.params 0 2) = true) →
      exec (.imageUnload c.id) s = .next (s.complete c 3 0x0206)))

/-- The reset commands (R70, R71): WARM_RESET resets the part with cause WARM_CMD and leaves no command outstanding; DIE_RESET resets the dies
of its mask and CORE_RESET one core, and both complete SERVED. -/
def Says.ResetCommands : Prop :=
  (∀ (s : State) (c : Cmd) (a : AlsoReset), Ready s c 0x0071 → c.params = [] → s.pmu.dev ≠ .off →
    ∃ t, exec (.warmReset c.id a) s = .next t ∧ WarmReset (begun s c) t 2 a) ∧
  (∀ (s : State) (c : Cmd), Ready s c 0x0072 → c.params.length = 8 → leAt c.params 0 8 < 16 →
    exec (.dieReset c.id) s = .next ((forN 4 (fun d s => if bitN (leAt c.params 0 1) d then s.dieReset d else s) (begun s c)).served (going c) [])) ∧
  (∀ (s : State) (c : Cmd), Ready s c 0x0073 → c.params.length = 8 → leAt c.params 0 8 < 64 →
    exec (.coreReset c.id) s = .next (((begun s c).coreReset (leAt c.params 0 1)).served (going c) [])) ∧
  (∀ (s : State) (c : Cmd), Ready s c 0x0072 → (c.params.length ≠ 8 ∨ 16 ≤ leAt c.params 0 8) →
    exec (.dieReset c.id) s = .next (s.complete c 3 0x0107)) ∧
  (∀ (s : State) (c : Cmd), Ready s c 0x0073 → (c.params.length ≠ 8 ∨ 64 ≤ leAt c.params 0 8) →
    exec (.coreReset c.id) s = .next (s.complete c 3 0x0107))

/-! ### Keys, memory and trusted operation (chapters 7, 20) -/

/-- Sessions and the entropy source (R473-R476): a new key in a slot that was not VALID, an access of the tenant that comes in the same cycle
after VALID (the operand `tie`, R494), a zeroised slot, the refusals in their order, and what a failed health test and its repeats do. -/
def Says.SessionCommands : Prop :=
  (∀ (s : State) (c : Cmd), Ready s c 0x0013 → c.params.length = 8 → leAt c.params 0 2 = 0xFFFF → leAt c.params 2 1 ≤ 1 →
    zerosAt c.params 3 5 = true →
    ((s.slot c.tenant).valid = false → s.key.drbgStopped = false →
      let t := ({ begun s c with
          key.nextKey := s.key.nextKey + 1, key.generates := (s.key.generates + 1) % 1024,
          key.slots := tmod {} s.key.slots c.tenant (fun _ =>
            { valid := true, conf := leAt c.params 2 1 == 1, key := s.key.nextKey }) } : State).served (going c) (res2 c.tenant)
      exec (.sessionOpen c.id false) s = .next t ∧ exec (.sessionOpen c.id true) s = .next t.tie) ∧
    ((s.slot c.tenant).valid = true → ∀ tie, exec (.sessionOpen c.id tie) s = .next (s.complete c 3 0x0405)) ∧
    ((s.slot c.tenant).valid = false → s.key.drbgStopped = true → ∀ tie,
      exec (.sessionOpen c.id tie) s = .next ((begun s c).complete (going c) 4 0x0603))) ∧
  (∀ (s : State) (c : Cmd), Ready s c 0x0013 → c.params.length = 8 → 1024 ≤ leAt c.params 0 2 → leAt c.params 0 2 < 1152 →
    c.priv = true → s.rev2 = true → zerosAt c.params 2 6 = true → (s.slot (leAt c.params 0 2)).valid = false → s.key.drbgStopped = false →
    exec (.sessionOpen c.id false) s = .next (({ begun s c with
        key.nextKey := s.key.nextKey + 1, key.generates := (s.key.generates + 1) % 1024,
        key.slots := tmod {} s.key.slots (leAt c.params 0 2) (fun _ => { valid := true, conf := false, key := s.key.nextKey })
        } : State).served (going c) (res2 (leAt c.params 0 2)))) ∧
  (∀ (s : State) (c : Cmd), Ready s c 0x0014 → c.params.length = 8 → 1024 ≤ leAt c.params 0 2 → leAt c.params 0 2 < 1152 →
    c.priv = true → s.rev2 = true → zerosAt c.params 2 6 = true → (s.slot (leAt c.params 0 2)).valid = true →
    s.underWalk (leAt c.params 0 2) = false →
    exec (.sessionClose c.id) s = .next (((begun s c).modSlot (leAt c.params 0 2) (fun _ => {})).served (going c) [])) ∧
  (∀ (s : State) (c : Cmd) (i : Instr) (op : Nat), ((∃ tie, i = .sessionOpen c.id tie) ∧ op = 0x0013 ∨ i = .sessionClose c.id ∧ op = 0x0014) →
    Ready s c op → c.params.length = 8 →
    (1024 ≤ leAt c.params 0 2 → leAt c.params 0 2 < 1152 → c.priv = false → exec i s = .next (s.complete c 3 0x0103)) ∧
    ((leAt c.params 0 2 < 1024 ∨ 1152 ≤ leAt c.params 0 2 ∧ leAt c.params 0 2 < 0xFFFF) → exec i s = .next (s.complete c 3 0x0107)) ∧
    (1024 ≤ leAt c.params 0 2 → leAt c.params 0 2 < 1152 → c.priv = true → zerosAt c.params 2 6 = true → s.rev2 = false →
      exec i s = .next (s.complete c 3 0x0501))) ∧
  (∀ (s : State) (c : Cmd), Ready s c 0x0014 → c.params.length = 8 → leAt c.params 0 2 = 0xFFFF → zerosAt c.params 2 6 = true →
    ((s.slot c.tenant).valid = true → s.underWalk c.tenant = false →
      exec (.sessionClose c.id) s = .next (((begun s c).modSlot c.tenant (fun _ => {})).served (going c) [])) ∧
    ((s.slot c.tenant).valid = false → exec (.sessionClose c.id) s = .next (s.complete c 3 0x0206)) ∧
    ((s.slot c.tenant).valid = true → s.underWalk c.tenant = true → exec (.sessionClose c.id) s = .next (s.complete c 3 0x0402))) ∧
  (∀ s : State, exec .trngHealthFail s = .next (({ s with key.drbgStopped := true, key.trngRepeats := 0 } : State).errKey 0)) ∧
  (∀ s : State, s.key.drbgStopped = true → s.key.trngDead = false →
    exec (.trngRetest true) s = .next { s with key.drbgStopped := false, key.trngRepeats := 0 } ∧
    (s.key.trngRepeats < 2 → exec (.trngRetest false) s = .next { s with key.trngRepeats := s.key.trngRepeats + 1 }) ∧
    (s.key.trngRepeats = 2 → exec (.trngRetest false) s = .next { s with key.trngRepeats := 3, key.trngDead := true }))

/-- REKEY and its walks (R480-R482, R484): a descriptor mapped and unmapped, a rotation that begins, an empty one that ends at once, an INIT,
a rotation's progress up to its watermark, the end of each walk, and the refusals. -/
def Says.RekeyCommands : Prop :=
  (∀ (s : State) (c : Cmd), Ready s c 0x0090 → c.params.length = 24 → c.p 1 1 = 0 → zerosAt c.params 6 2 = true →
    (c.p 0 1 = 0 → c.p 2 2 < 1024 → c.p 4 2 < 256 → (s.desc (c.p 4 2)).valid = false → s.rangeOk (c.p 8 8) (c.p 16 8) = true →
      s.key.walk = none →
      let d : Desc := { valid := true, base := c.p 8 8 / 4096, limit := c.p 16 8 / 4096, slot := c.p 2 2 }
      (s.tdiLocked = false → exec (.rekeyMap c.id) s =
        .next (({ begun s c with key.descs := tset {} s.key.descs (c.p 4 2) d } : State).served (going c) [])) ∧
      (s.tdiLocked = true → exec (.rekeyMap c.id) s = .next (s.complete c 3 0x0601))) ∧
    (c.p 0 1 = 0 → (s.desc (c.p 4 2)).valid = true → exec (.rekeyMap c.id) s = .next (s.complete c 3 0x0107)) ∧
    (c.p 0 1 = 1 → c.p 2 2 = 0 → c.p 4 2 < 256 → zerosAt c.params 8 16 = true → s.key.walk = none → s.tdiLocked = false →
      exec (.rekeyUnmap c.id) s = .next (({ begun s c with key.descs := tset {} s.key.descs (c.p 4 2) {} } : State).served (going c) [])) ∧
    (c.p 0 1 = 2 → c.p 2 2 < 1024 → c.p 4 2 = 0 → zerosAt c.params 8 16 = true → s.key.walk = none →
      ((s.slot (c.p 2 2)).valid = false → exec (.rekeyRotate c.id) s = .next (s.complete c 3 0x0603)) ∧
      ((s.slot (c.p 2 2)).valid = true → s.key.drbgStopped = false → ∀ a b, s.walkSet (c.p 2 2) = some (a, b) →
        ∃ t, exec (.rekeyRotate c.id) s = .next t ∧
          t.key.walk = some { cmd := c.id, init := false, slot := c.p 2 2, base := a * 4096, limit := b * 4096 } ∧
          t.key.wm = BitVec.ofNat 40 (a * 4096) ∧ (t.slot (c.p 2 2)).rot = some s.key.nextKey ∧ t.mem = s.mem ∧
          t.cmds = (begun s c).cmds) ∧
      ((s.slot (c.p 2 2)).valid = true → s.key.drbgStopped = false → s.walkSet (c.p 2 2) = none →
        ∃ u : State, exec (.rekeyRotate c.id) s = .next (u.served (going c) []) ∧ (u.slot (c.p 2 2)).key = s.key.nextKey ∧
          (u.slot (c.p 2 2)).rot = none ∧ u.mem = s.mem)) ∧
    (c.p 0 1 = 3 → c.p 2 2 = 0 → c.p 4 2 = 0 → s.rangeOk (c.p 8 8) (c.p 16 8) = true → s.partlyLost (c.p 8 8) (c.p 16 8) = false →
      s.key.walk = none → ∃ t, exec (.rekeyInit c.id) s = .next t ∧
        t.key.walk = some { cmd := c.id, init := true, slot := 0, base := c.p 8 8, limit := c.p 16 8 } ∧ t.mem = s.mem ∧
        t.cmds = (begun s c).cmds) ∧
    (c.p 0 1 = 3 → s.rangeOk (c.p 8 8) (c.p 16 8) = true → s.partlyLost (c.p 8 8) (c.p 16 8) = true →
      exec (.rekeyInit c.id) s = .next (s.complete c 3 0x0107)) ∧
    (c.p 0 1 = 2 → c.p 2 2 < 1024 → c.p 4 2 = 0 → zerosAt c.params 8 16 = true → s.key.walk = none →
      (s.slot (c.p 2 2)).valid = true → s.key.drbgStopped = true →
      exec (.rekeyRotate c.id) s = .next ((begun s c).complete (going c) 4 0x0603)) ∧
    (s.rekeyBad c = true → (c.p 0 1 = 0 ∨ 3 < c.p 0 1) → exec (.rekeyMap c.id) s = .next (s.complete c 3 0x0107)) ∧
    (s.rekeyBad c = false → s.key.walk ≠ none → (c.p 2 2 < 1024 ∨ s.rev2 = true) →
      (c.p 0 1 = 0 → exec (.rekeyMap c.id) s = .next (s.complete c 3 0x0402)) ∧
      (c.p 0 1 = 1 → exec (.rekeyUnmap c.id) s = .next (s.complete c 3 0x0402)) ∧
      (c.p 0 1 = 2 → exec (.rekeyRotate c.id) s = .next (s.complete c 3 0x0402)) ∧
      (c.p 0 1 = 3 → exec (.rekeyInit c.id) s = .next (s.complete c 3 0x0402)))) ∧
  (∀ (s : State) (w : Walk) (c : Cmd) (n : Nat), s.key.walk = some w → w.init = false → s.key.paused = false → s.cmd w.cmd = some c →
    (s.slot w.slot).rot = some n → (s.slot w.slot).valid = true → Memory.wf s.mem = true →
    let old := (s.slot w.slot).key
    let rewrites := fun (u : State) (a : Nat) =>
      (∀ k, tget 0 u.key.unitKey k =
        if s.key.wm.toNat / 64 ≤ k ∧ k < a / 64 ∧ s.wins w.slot (k / 64) = true then n else tget 0 s.key.unitKey k) ∧
      ∀ x, mread u.mem x = if s.key.wm.toNat / 64 ≤ x / 64 ∧ x / 64 < a / 64 ∧ s.wins w.slot (x / 4096) = true ∧
          tget 0 s.key.unitKey (x / 64) ≠ old then
        Config.xtsGarbage (tget 0 s.key.unitKey (x / 64)) old (x / 64 * 64) (mreadN s.mem (x / 64 * 64) 64) (x % 64)
      else mread s.mem x
    (∀ a : BitVec 40, a.toNat % 64 = 0 → s.key.wm.toNat ≤ a.toNat → s.wins w.slot (a.toNat / 4096) = true →
      ∃ t, exec (.rekeyWalkDone (some a)) s = .next t ∧ t.key.wm = a ∧ t.key.walk = some w ∧ t.key.slots = s.key.slots ∧
        t.cmds = s.cmds ∧ rewrites t a.toNat) ∧
    ∃ u : State, exec (.rekeyWalkDone none) s = .next (u.served c []) ∧ (u.slot w.slot).key = n ∧
      (u.slot w.slot).rot = none ∧ u.key.walk = none ∧ u.key.wm = 0 ∧ rewrites u w.limit) ∧
  (∀ (s : State) (w : Walk) (c : Cmd), s.key.walk = some w → w.init = true → s.key.paused = false → s.cmd w.cmd = some c →
    ∃ u : State, exec .rekeyInitDone s = .next (u.served c []) ∧ u.mem = mzero s.mem w.base w.limit ∧ u.key.walk = none ∧
      (u.key.lost = true ↔ s.key.lost = true ∧ ¬ (w.base ≤ s.key.lostBase.toNat * 4096 ∧ s.key.lostLimit.toNat * 4096 ≤ w.limit))) ∧
  (∀ (s : State) (a : Option (BitVec 40)), s.key.walk = none ∨ s.key.paused = true → exec (.rekeyWalkDone a) s = .next s ∧
    exec .rekeyInitDone s = .next s)

/-- Host accesses and PCIe events (R469-R471, R478, R488-R490, R497): BAR2 over system SRAM, an unmapped address, a blocked CONF range; the
frozen registers, also where the lock falls in the write's cycle (`lock`); the IDE address association blocks; the configuration writes and
resets that leave the trusted states. -/
def Says.HostAccesses : Prop :=
  (∀ (s : State) (off : BitVec 26) (n : Nat), s.memc.bar2Base = 0 → 0 < n → off.toNat + n ≤ 0x400000 →
    (s.key.walk = none ∨ 0x400000 ≤ s.key.wm.toNat) →
    (exec (.bar2Access off n none) s = .next { s with
      reply := s.devRead off.toNat n, rdata := BitVec.ofNat 64 (leNat ((s.devRead off.toNat n).take 8)) }) ∧
    (∀ i, i < n → (s.devRead off.toNat n).getD i 0 = mread s.mem (off.toNat + i)) ∧
    (∀ bs : List Byte, bs.length = n → exec (.bar2Access off n (some bs)) s = .next { s with mem := mwrite s.mem off.toNat bs })) ∧
  (∀ (s : State) (off : BitVec 26), s.memc.bar2Base = 0 → off.toNat = 0x400000 →
    ∃ t, exec (.bar2Access off 4 none) s = .next t ∧ t.reply = [0xFF, 0xFF, 0xFF, 0xFF] ∧ bit t.memc.err 0 = true ∧
      t.memc.faultAddr = 0x400000 ∧ t.mem = s.mem) ∧
  (∀ (s : State) (off : BitVec 26) (bs : List Byte) (d : Desc), bs.length = 64 → s.memc.bar2Base = 0x400 → off.toNat % 4096 = 0 →
    s.region (lpddrBase + off.toNat) = .lpddr → s.key.lost = false → s.winner ((lpddrBase + off.toNat) / 4096) = some d →
    (s.slot d.slot).valid = true → (s.slot d.slot).conf = true →
    exec (.bar2Access off 64 (some bs)) s = .next (s.errKey 4) ∧
    ∃ t, exec (.bar2Access off 4 none) s = .next t ∧ t.reply = [0xFF, 0xFF, 0xFF, 0xFF] ∧ t.mem = s.mem) ∧
  (∀ (s : State) (off : BitVec 26), s.memc.bar2Base = 0x400 → off.toNat % 4 = 0 → s.region (lpddrBase + off.toNat) = .lpddr →
    let p := (lpddrBase + off.toNat) / 4096
    let read := exec (.bar2Access off 4 none) s
    (s.isLost p = true → read = .next ((s.errKey 3).hostReply (pattern 0xFFFFFFFF 4))) ∧
    (s.isLost p = false → ∀ d, s.winner p = some d → (s.slot d.slot).valid = false →
      read = .next ((s.errKey 2).hostReply (pattern 0xFFFFFFFF 4))) ∧
    (s.isLost p = false → s.key.walk = none → (∀ d, s.winner p = some d → (s.slot d.slot).valid = true ∧ (s.slot d.slot).conf = false) →
      read = .next (s.hostReply (s.devRead (lpddrBase + off.toNat) 4)) ∧
      ∀ bs : List Byte, bs.length = 4 →
        exec (.bar2Access off 4 (some bs)) s = .next (s.devWrite (lpddrBase + off.toNat) bs))) ∧
  (∀ (s : State) (off : BitVec 26) (d : Nat), s.memc.bar2Base = 0 → off.toNat % 4 = 0 → s.region off.toNat = .dm d →
    (s.dieUp d = false → exec (.bar2Access off 4 none) s = .next ((s.offAccess .bar0 off.toNat).hostReply (pattern 0x0FF00FF0 4)) ∧
      ∀ bs : List Byte, bs.length = 4 → exec (.bar2Access off 4 (some bs)) s = .next (s.offAccess .bar0 off.toNat)) ∧
    (s.dieUp d = true → ∀ bs : List Byte, bs.length = 4 →
      exec (.bar2Access off 4 (some bs)) s = .next { s with mem := mwrite s.mem off.toNat bs })) ∧
  (∀ (s : State) (v : W32), s.tdiLocked = false → exec (.memBar2BaseWrite v) s = .next { s with memc.bar2Base := v.setWidth 14 } ∧
    exec (.keyTdiWrite v false) s = .next { s with key.rackTrusted := bit v 8 }) ∧
  (∀ (s : State) (v : W32), exec (.keyTdiWrite v true) s = .next s) ∧
  (∀ (s : State) (v : W32), s.tdiLocked = true → exec (.memBar2BaseWrite v) s = .next s ∧ exec (.keyTdiWrite v false) s = .next s) ∧
  (∀ s : State, exec .lpddrRetrain s = .next s ∧ exec .pcieLinkUp s = .next { s with memc.linkUp := true }) ∧
  (∀ (s : State) (c : PcieCfg), (s.tdiLocked = false ∨ c.bar0.getD s.memc.bar0 = s.memc.bar0 ∧ c.bar2.getD s.memc.bar2 = s.memc.bar2 ∧
      c.memEnable.getD s.memc.memEnable = s.memc.memEnable ∧ c.busMaster.getD s.memc.busMaster = s.memc.busMaster ∧
      c.msixLocation.getD s.memc.msixLocation = s.memc.msixLocation) → c.ideAssoc = none → exec (.pcieConfigWrite c) s = .next { s with
    memc.bar0 := c.bar0.getD s.memc.bar0, memc.bar2 := c.bar2.getD s.memc.bar2, memc.memEnable := c.memEnable.getD s.memc.memEnable,
    memc.busMaster := c.busMaster.getD s.memc.busMaster, memc.msixEnable := c.msixEnable.getD s.memc.msixEnable,
    memc.msixLocation := c.msixLocation.getD s.memc.msixLocation }) ∧
  (∀ (s : State) (st : Fin 2) (k : Fin 3) (lo hi : Nat),
    exec (.pcieConfigWrite ⟨none, none, none, none, none, none, some ⟨st, k, lo, hi⟩⟩) s = .next { s with
      key.ide := tmod {} s.key.ide st (fun e => { e with assoc := tset (0, 0) e.assoc k (lo, hi) }) }) ∧
  (∀ (s : State) (c : PcieCfg), s.tdiLocked = true → (c.bar0.getD s.memc.bar0 ≠ s.memc.bar0 ∨ c.bar2.getD s.memc.bar2 ≠ s.memc.bar2 ∨
      c.memEnable.getD s.memc.memEnable ≠ s.memc.memEnable ∨ c.busMaster.getD s.memc.busMaster ≠ s.memc.busMaster ∨
      c.msixLocation.getD s.memc.msixLocation ≠ s.memc.msixLocation) →
    ∃ t, exec (.pcieConfigWrite c) s = .next t ∧ t.key.tdi = .error ∧ bit t.key.err 5 = true ∧
      t.key.slots = s.key.slots.filter (fun e => !e.2.conf) ∧ t.memc.busMaster = c.busMaster.getD s.memc.busMaster ∧
      t.memc.bar0 = c.bar0.getD s.memc.bar0 ∧ t.memc.bar2 = c.bar2.getD s.memc.bar2 ∧ t.mem = s.mem) ∧
  (∀ (s : State) (i : Fin 2), s.tdiLocked = true → (tget {} s.key.ide i).secure = true →
    ∃ t, exec (.ideStreamInsecure i) s = .next t ∧ t.key.tdi = .error ∧ bit t.key.err 5 = true ∧
      t.key.slots = s.key.slots.filter (fun e => !e.2.conf) ∧ t.mem = s.mem ∧ t.jobs = s.zeroiseConf.jobs) ∧
  (∀ (s : State) (i : Fin 2), s.tdiLocked = false ∨ (tget {} s.key.ide i).secure = false →
    exec (.ideStreamInsecure i) s = .next { s with key.ide := tmod {} s.key.ide i (fun x => { x with active := [] }) }) ∧
  (∀ (s : State) (j : Nat), s.zeroiseConf.job j = (s.job j).map (fun x => { x with barred := x.barred || s.confidential x.tenant })) ∧
  (∀ (s : State) (b : Bool), ∃ t, exec (.pciePortReset b) s = .next t ∧ t.key.tdi = .unlocked ∧ t.memc.linkUp = !b ∧
    t.memc.busMaster = false ∧ t.key.ide = [] ∧
    t.key.slots = (if s.key.tdi = .unlocked then s.key.slots else s.key.slots.filter (fun e => !e.2.conf)) ∧ t.mem = s.mem ∧
    t.memc.bar0 = 0 ∧ t.memc.bar2 = 0 ∧ t.jobs = (if s.key.tdi = .unlocked then s.jobs else s.zeroiseConf.jobs) ∧ t.cores = s.cores ∧ t.streams = s.streams ∧ t.cmds = s.cmds)

/-- SPDM, IDE key management and TDISP (R486-R489, Table 20.3): the connection in its order and the replies, the messages that need a session,
the keys of a stream, and the TDI's states. The order of SPDM requests, the codes and the layouts of the replies are the standard's or the
model's (log 24). -/
def Says.TrustedSession : Prop :=
  ∀ (s : State),
    exec .getVersion s = .next { s.answer [0x04, 0x12, 0x13] with key.spdm := .versioned } ∧
    exec .getDigests s = .next (s.answer [0x01]) ∧ exec .getCertificate s = .next (s.answer [0x02]) ∧
    exec .challenge s = .next (s.answer [0x03]) ∧ exec .getMeasurements s = .next (s.answer [0x60]) ∧
    (∀ bs, s.answer bs = { s with key.doeReply := s.key.doeReply + 1, reply := bs }) ∧
    (s.key.spdm = .versioned → exec .getCapabilities s = .next { s.answer spdmCaps with key.spdm := .capable }) ∧
    (s.key.spdm = .capable → exec .negotiateAlgorithms s = .next { s.answer spdmAlgs with key.spdm := .negotiated }) ∧
    (s.key.spdm = .negotiated → s.key.drbgStopped = false → exec .keyExchange s = .next { s.answer [0x64] with
      key.spdm := .handshake, key.nextKey := s.key.nextKey + 1, key.generates := (s.key.generates + 1) % 1024 }) ∧
    (s.key.spdm = .handshake → exec .finish s = .next { s.answer [0x65] with key.spdm := .established }) ∧
    (s.key.spdm ≠ .versioned → exec .getCapabilities s = .next (s.answer [0x7F])) ∧
    (s.key.spdm ≠ .capable → exec .negotiateAlgorithms s = .next (s.answer [0x7F])) ∧
    (s.key.spdm ≠ .negotiated ∨ s.key.drbgStopped = true → exec .keyExchange s = .next (s.answer [0x7F])) ∧
    (s.key.spdm ≠ .handshake → exec .finish s = .next (s.answer [0x7F])) ∧
    (s.key.spdm ≠ .established → ∀ i : Instr, i ∈ [.endSession, .ideKmQuery, .getTdispVersion, .getTdispCapabilities, .lockInterface,
      .getDeviceInterfaceReport, .getDeviceInterfaceState, .startInterface, .stopInterface] → exec i s = .next (s.answer [0x7F])) ∧
    (s.key.spdm ≠ .established → ∀ (st : Fin 2) (sub : Fin 3) (k : Fin 2) (v : BitVec 256), exec (.keyProg st sub k v) s = .next (s.answer [0x7F]) ∧
      exec (.kSetGo st sub k) s = .next (s.answer [0x7F]) ∧ exec (.kSetStop st sub k) s = .next (s.answer [0x7F])) ∧
    (s.key.spdm = .established →
      exec .endSession s = .next { s.answer [0x6C] with key.spdm := .negotiated } ∧
      exec .ideKmQuery s = .next (s.answer (0x01 :: s.ideReport)) ∧ s.ideReport.length = 102 ∧
      exec .getTdispVersion s = .next (s.answer [0x01, 0x10]) ∧ exec .getTdispCapabilities s = .next (s.answer [0x02, 0xFE]) ∧
      (∀ (st : Fin 2) (sub : Fin 3) (k : Fin 2) (v : BitVec 256), exec (.keyProg st sub k v) s = .next { s.answer [0x03] with
        key.ide := tmod {} s.key.ide st (fun x => { x with keys := tset none x.keys (2 * sub + k) (some v) }) }) ∧
      (∀ (st : Fin 2) (sub : Fin 3) (k : Fin 2),
        (tget none (tget {} s.key.ide st).keys (2 * sub + k) ≠ none →
          exec (.kSetGo st sub k) s = .next { s.answer [0x06] with key.ide := tmod {} s.key.ide st (fun x =>
            { x with active := tset false x.active (2 * sub + k) true }) }) ∧
        (tget none (tget {} s.key.ide st).keys (2 * sub + k) = none → ∃ t, exec (.kSetGo st sub k) s = .next t ∧
          (∀ i, tget {} t.key.ide i = tget {} s.key.ide i) ∧ { t with key.ide := s.key.ide } = s.answer [0x06]) ∧
        (s.tdiLocked = false ∨ (tget {} s.key.ide st).secure = false →
          exec (.kSetStop st sub k) s = .next { s.answer [0x06] with key.ide := tmod {} s.key.ide st (fun x =>
            { x with active := tset false x.active (2 * sub + k) false }) }) ∧
        (s.tdiLocked = true → (tget {} s.key.ide st).secure = true →
          ({ tget {} s.key.ide st with active := tset false (tget {} s.key.ide st).active (2 * sub + k) false } : Ide).secure = false →
          ∃ t, exec (.kSetStop st sub k) s = .next t ∧ t.key.tdi = .error ∧ bit t.key.err 5 = true)) ∧
      (s.key.tdi = .unlocked → exec .lockInterface s = .next { s.answer [0x03] with key.tdi := .locked }) ∧
      (s.key.tdi ≠ .unlocked → exec .lockInterface s = .next (s.answer [0x03])) ∧
      (s.key.tdi = .locked → s.key.ide.any (fun e => e.2.secure) = true →
        exec .startInterface s = .next { s.answer [0x06] with key.tdi := .run }) ∧
      (s.key.tdi ≠ .locked ∨ s.key.ide = [] → exec .startInterface s = .next (s.answer [0x06])) ∧
      exec .stopInterface s = .next { s.answer [0x07] with key.tdi := .unlocked } ∧
      exec .getDeviceInterfaceState s = .next (s.answer [0x05, BitVec.ofNat 8 (tdiCode s.key.tdi)]) ∧
      exec .getDeviceInterfaceReport s = .next (s.answer (0x04 :: (toLe 8 s.memc.bar0.toNat ++ toLe 8 s.memc.bar2.toNat ++
        toLe 8 s.memc.msixLocation ++ toLe 4 (at_ s.key.rackTrusted 0) ++ toLe 4 s.glbCaps))))

/-- Boot (R189, R190, R514, Tables 7.10, 7.11): a good image starts the firmware, a bad one halts with its code, whether it was loaded
over a transport or brought by the source, but BOOT_MODE 1 tries USB, time and again; READY ends the boot; a neighbour that does not supply the image halts it. -/
def Says.Boot : Prop :=
  (∀ (s : State) (b : List Byte) (ok : Bool), s.glb.stage = 1 → s.glb.mgrRunning = true → s.glb.resetHeld = false →
    let ends := fun (img : List Byte) (m : List Host.Cell) (src : BitVec 2) (again : Bool) =>
      let e := if ok then imageError img else 8
      exec (.firmwareVerify b ok) s = .next { s with
        mem := m, glb.bootError := BitVec.ofNat 4 e, glb.source := if e ≠ 0 ∧ again then 1 else src, glb.loadLen := 0,
        glb.loaded := 0, glb.stage := if e = 0 then 3 else if again then 1 else 4 }
    let stored := if ok then mwrite s.mem 0 (b.take 0x400000) else s.mem
    (s.glb.bootMode = 0 → ends b stored 0 false) ∧
    (s.glb.bootMode = 5 → ends b stored 3 false) ∧
    (s.glb.bootMode = 1 → s.glb.source ≠ 1 → ends b stored 0 true) ∧
    (s.glb.bootMode = 1 → s.glb.source = 1 → ends (mreadN s.mem 0 s.glb.loaded) s.mem 1 true) ∧
    (s.glb.bootMode = 3 ∨ s.glb.bootMode = 4 → ends (mreadN s.mem 0 s.glb.loaded) s.mem 1 false) ∧
    (s.glb.bootMode = 2 → s.glb.loadLen ≠ 0 → ends (mreadN s.mem 0 s.glb.loadLen.toNat) s.mem 1 false) ∧
    (s.glb.bootMode = 2 → s.glb.loadLen = 0 → exec (.firmwareVerify b ok) s = .next s)) ∧
  (∀ b : List Byte, (leAt b 0 4 ≠ 0x31474C4E → imageError b = 1) ∧
    (leAt b 0 4 = 0x31474C4E → (leAt b 4 2 ≠ 1 ∨ 4 ≤ leAt b 6 1 ∨ leAt b 7 1 ≠ 0) → imageError b = 2)) ∧
  (∀ (s : State) (v : W32), (s.glb.stage = 1 → exec (.glbBootCtrlWrite v) s = .next { s with glb.loadLen := v.setWidth 24 }) ∧
    (s.glb.stage ≠ 1 → exec (.glbBootCtrlWrite v) s = .next s)) ∧
  (∀ s : State, s.glb.stage = 3 → s.glb.mgrRunning = true → s.glb.resetHeld = false → s.glb.ready = false → s.build.lpddrTrains = true →
    ∃ t, exec .firmwareReady s = .next t ∧ t.glb.ready = true ∧ t.memc.trained = true ∧ t.tenants = s.tenants ∧ t.cmds = s.cmds ∧
      t.gcp.owed = []) ∧
  (∀ s : State, s.glb.stage = 3 → s.glb.mgrRunning = true → s.glb.resetHeld = false → s.glb.ready = false → s.build.lpddrTrains = false →
    ∃ t, exec .firmwareReady s = .next t ∧ t.glb.ready = true ∧ t.memc.trained = false ∧ bit t.memc.err 4 = true) ∧
  (∀ s : State, s.glb.stage ≠ 1 ∨ s.glb.bootMode ≠ 5 → exec .neighbourBootTimeout s = .next s) ∧
  (∀ (s : State) (b : List Byte) (ok : Bool), s.glb.stage ≠ 1 ∨ s.glb.mgrRunning = false ∨ s.glb.resetHeld = true →
    exec (.firmwareVerify b ok) s = .next s) ∧
  (∀ s : State, s.glb.stage ≠ 3 ∨ s.glb.ready = true → exec .firmwareReady s = .next s) ∧
  (∀ s : State, s.glb.stage = 1 → s.glb.bootMode = 5 → exec .neighbourBootTimeout s = .next { s with glb.stage := 4, glb.bootError := 8 })

/-! ### Stream commands (chapters 4, 7, 8) -/

/-- Admission (R211): the stream is homed on the lowest-numbered core of the mask whose bridge is UP and whose density stays within RT_CAP, and
the tenant's density stays within its RT_DENSITY; with no such core it is refused with NO_BUDGET or DIE_UNAVAILABLE (R30). A core also needs
room in its frame-mover area (R233). -/
def Says.StreamAdmission : Prop :=
  ∀ (s : State) (t : Nat) (ten : Tenant) (mask : W64) (bLog2 us x lat ni no : Nat), s.tenant t = some ten →
    let d := fun c => s.densityOf bLog2 (us + s.allowance c) x lat
    let can := fun c => bit mask c = true ∧ c < 64 ∧ s.dieUp (c / 16) = true ∧ s.tenantDensity t + d c ≤ ten.rtDensity ∧
      s.coreDensity c + d c ≤ s.sch.rtCap.toNat ∧ s.fmPair c ni no ≠ none
    (∀ h, s.admission t mask bLog2 us x lat ni no = .inr h →
      can h.core ∧ h.density = d h.core ∧ s.fmPair h.core ni no = some (h.inBuf, h.outBuf) ∧ ∀ k, k < h.core → ¬ can k) ∧
    ((∀ k, ¬ can k) → (∀ k, k < 64 → bit mask k = true → s.dieUp (k / 16) = true) →
      s.admission t mask bLog2 us x lat ni no = .inl 0x0201) ∧
    ((∀ k, k < 64 → bit mask k = true → s.dieUp (k / 16) = false) → (∃ k, k < 64 ∧ bit mask k = true) →
      s.admission t mask bLog2 us x lat ni no = .inl 0x0203) ∧
    ((∀ k, ¬ can k) → (∃ k, k < 64 ∧ bit mask k = true ∧ s.dieUp (k / 16) = false) → (∃ k, k < 64 ∧ bit mask k = true ∧ s.dieUp (k / 16) = true) →
      let within := ∃ k, k < 64 ∧ bit mask k = true ∧ s.dieUp (k / 16) = true ∧ s.tenantDensity t + d k ≤ ten.rtDensity
      (within → s.admission t mask bLog2 us x lat ni no = .inl 0x0203) ∧ (¬ within → s.admission t mask bLog2 us x lat ni no = .inl 0x0201))

/-- STREAM_OPEN (R83, R84, R88, R179, R211): an admitted open holds its reservation and its output slots from the cycle it is read, and starts
at the next block boundary, or with AT at the first one that its due value reaches; a passed DEADLINE; the refusals by their reasons. -/
def Says.StreamOpens : Prop :=
  (∀ (s : State) (c : Cmd), s.cmd c.id = some c → c.op = 0x0030 → c.phase = .read → checkOpen s c = none → dueSel c.due = 1 →
    let b := 2 ^ leAt c.params 4 1
    let v := (dueVal c.due).toNat
    let now := s.tb.sfc.toNat
    (dueKind c.due = 0 ∨ dueKind c.due = 1 → now < v → exec (.streamOpen c.id) s = .next
      (((s.modCmd c.id (fun c => { c with phase := .armed })).claimStream c (ceilDiv v b * b)).arm .sfc v (.cmd c.id))) ∧
    (dueKind c.due = 0 → v ≤ now → exec (.streamOpen c.id) s =
      .next (s.begin_ { c with late := now - v, timer := c.timed } (fun c s => s.claimStream c ((now / b + 1) * b)))) ∧
    (dueKind c.due = 1 → v ≤ now → exec (.streamOpen c.id) s =
      .next (s.begin_ { c with late := 0, timer := c.timed } (fun c s => s.claimStream c ((now / b + 1) * b)))) ∧
    (dueKind c.due = 2 → now < v → exec (.streamOpen c.id) s =
      .next ((s.arm .sfc v (.cmd c.id)).begin_ c (fun c s => s.claimStream c ((now / b + 1) * b)))) ∧
    (dueKind c.due = 2 → v ≤ now → exec (.streamOpen c.id) s = .next (s.complete c 5 0x0301))) ∧
  (∀ (s : State) (c : Cmd) (h : Homing) (i first : Nat), s.openAdmit c = .inr h → freeIndex s.streams 256 = some i →
    ∃ x : Stream, s.claimStream c first = { s with streams := tset none s.streams i (some x) } ∧ x.tenant = c.tenant ∧ x.first = first ∧
      x.core = h.core ∧ x.density = h.density ∧ x.openCmd = some c.id ∧ x.started = false) ∧
  (∀ (s : State) (c : Cmd), s.cmd c.id = some c → c.op = 0x0030 → c.phase = .read → c.params.length = 32 → leAt c.params 24 8 < 2 ^ 40 →
    (∃ l, routesAt c.params 8 c.chIn = some l) → (∃ l, routesAt c.params 16 c.chOut = some l) → 2 ≤ dueSel c.due →
    exec (.streamOpen c.id) s = .next (s.complete c 3 0x0108)) ∧
  ∀ (s : State) (c : Cmd), Ready s c 0x0030 →
    (∀ (h : Homing) (i : Nat), checkOpen s c = none → (begun s c).openAdmit (going c) = .inr h → freeIndex s.streams 256 = some i →
      ∃ x : Stream, exec (.streamOpen c.id) s = .next { begun s c with streams := tset none s.streams i (some x) } ∧
        x.tenant = c.tenant ∧ x.image = leAt c.params 0 2 ∧ x.entry = leAt c.params 2 2 ∧ x.bLog2 = leAt c.params 4 1 ∧
        x.chIn = leAt c.params 5 1 % 8 + 1 ∧ x.chOut = leAt c.params 5 1 / 8 % 8 + 1 ∧ x.reserve = leAt c.params 6 2 ∧
        x.stateAddr = leAt c.params 24 8 ∧ x.core = h.core ∧ x.density = h.density ∧ x.openCmd = some c.id ∧ x.started = false ∧
        x.first = (s.tb.sfc.toNat / 2 ^ leAt c.params 4 1 + 1) * 2 ^ leAt c.params 4 1) ∧
    (c.params.length ≠ 32 → exec (.streamOpen c.id) s = .next (s.complete c 3 0x0107)) ∧
    (c.params.length = 32 → leAt c.params 24 8 < 2 ^ 40 → (∃ l, routesAt c.params 8 c.chIn = some l) →
      (∃ l, routesAt c.params 16 c.chOut = some l) →
      (s.images = [] → exec (.streamOpen c.id) s = .next (s.complete c 3 0x0206)) ∧
      (s.hasProgram c.tenant (leAt c.params 0 2) (leAt c.params 2 2) = true →
        (s.paramRw c.tenant (leAt c.params 24 8) 64 = false → exec (.streamOpen c.id) s = .next (s.complete c 3 0x0505)) ∧
        (s.paramRw c.tenant (leAt c.params 24 8) 64 = true → (8 < leAt c.params 4 1 ∨ leAt c.params 4 1 < 4) →
          exec (.streamOpen c.id) s = .next (s.complete c 3 0x0802))))

/-- The commands on an open stream (R89, R93, R184, R219, R220): a close boundary, a registered route switch, a parameter block, a reserved
migration; a handle that is not an open stream of the tenant refuses, and so does a value that is not block-aligned. -/
def Says.StreamChanges : Prop :=
  ∀ (s : State) (c : Cmd) (x : Stream), s.stream (leAt c.params 0 2) = some x → x.tenant = c.tenant → x.started = true →
    x.closeAt = none → x.closeCmd = none → x.guest = none →
    (Ready s c 0x0031 → c.params.length = 8 → zerosAt c.params 2 6 = true →
      exec (.streamClose c.id) s = .next ((begun s c).modStream (leAt c.params 0 2) (fun x =>
        { x with closeAt := some ((s.tb.sfc.toNat / x.b + 1) * x.b), closeCmd := some c.id }))) ∧
    (Ready s c 0x0034 → 8 ≤ c.params.length → zerosAt c.params 2 6 = true →
      exec (.streamPatch c.id) s = .next (((begun s c).modStream (leAt c.params 0 2) (fun x =>
        { x with patch := c.params.drop 8 })).served (going c) [])) ∧
    (Ready s c 0x0033 → c.params.length = 24 → zerosAt c.params 2 6 = true → ∀ ins outs, routesAt c.params 8 x.chIn = some ins →
      routesAt c.params 16 x.chOut = some outs →
      (∀ rs, s.routeRefusal (some (leAt c.params 0 2)) (ins.take x.chIn) (outs.take x.chOut) = some rs →
        exec (.streamRoute c.id) s = .next (s.complete c 3 rs)) ∧
      (s.routeRefusal (some (leAt c.params 0 2)) (ins.take x.chIn) (outs.take x.chOut) = none →
        ∃ t, exec (.streamRoute c.id) s = .next t ∧
          t.stream (leAt c.params 0 2) = some { x with nextRoutes := x.nextRoutes ++
            [{ cmd := c.id, at_ := (s.tb.sfc.toNat / x.b + 1) * x.b, inRoute := ins, outRoute := outs }] } ∧
          t.mem = s.mem ∧ t.cores = s.cores ∧ t.jobs = s.jobs)) ∧
    (Ready s c 0x0032 → c.params.length = 24 → zerosAt c.params 3 5 = true → zerosAt c.params 22 2 = true → leAt c.params 2 1 = 0xFF →
      s.migrBad c = false → x.migr = none →
      (leAt c.params 16 6 % x.b ≠ 0 → exec (.streamMigrate c.id) s = .next (s.complete c 3 0x0805)) ∧
      (leAt c.params 16 6 % x.b = 0 → leAt c.params 16 6 < s.tb.sfc.toNat + 4 * x.b →
        exec (.streamMigrate c.id) s = .next (s.complete c 3 0x0107)) ∧
      (checkMigrate s c = none → ∀ h, (begun s c).migrAdmit (going c) x = .inr h →
        ∃ m : Migr, exec (.streamMigrate c.id) s = .next ((begun s c).modStream (leAt c.params 0 2) (fun x => { x with migr := some m })) ∧
          m.dest = h.core ∧ m.switch_ = leAt c.params 16 6 ∧ m.density = h.density ∧ m.node = none ∧ m.cmd = c.id)) ∧
    (Ready s c 0x0032 → checkMigrate s c = none → s.nodeHere (leAt c.params 2 1) = false →
      let n : BitVec 6 := BitVec.ofNat 6 (leAt c.params 2 1)
      let sent := (begun s c).sendStream n c.tenant 1 (leAt c.params 0 2) (leAt c.params 16 6)
        (x.askData ((begun s c).recordLen x.stateAddr) (leAt c.params 8 8))
      ∀ t, sent = some t → ∃ m : Migr,
        exec (.streamMigrate c.id) s = .next (t.modStream (leAt c.params 0 2) (fun x => { x with migr := some m })) ∧
        m.node = some n ∧ m.admitted = false ∧ m.switch_ = leAt c.params 16 6 ∧ m.cmd = c.id ∧ m.density = 0)

/-- A handle that names no open stream of the tenant, or one that closes or is not started, refuses with BAD_HANDLE (R177, R179, R220), after
malformed route bytes and a DEST_MASK beyond the tenant's AFFINITY. -/
def Says.StreamHandles : Prop :=
  ∀ (s : State) (c : Cmd), (∀ x, s.stream (leAt c.params 0 2) = some x →
      x.tenant ≠ c.tenant ∨ x.started = false ∨ x.guest ≠ none ∨ x.closeAt ≠ none ∨ x.closeCmd ≠ none) →
    (Ready s c 0x0031 → c.params.length = 8 → zerosAt c.params 2 6 = true →
      exec (.streamClose c.id) s = .next (s.complete c 3 0x0206)) ∧
    (Ready s c 0x0034 → 8 ≤ c.params.length → zerosAt c.params 2 6 = true →
      exec (.streamPatch c.id) s = .next (s.complete c 3 0x0206)) ∧
    (Ready s c 0x0033 → c.params.length = 24 → zerosAt c.params 2 6 = true →
      ((∃ l, routesAt c.params 8 8 = some l) → (∃ l, routesAt c.params 16 8 = some l) →
        exec (.streamRoute c.id) s = .next (s.complete c 3 0x0206)) ∧
      (routesAt c.params 8 8 = none ∨ routesAt c.params 16 8 = none →
        exec (.streamRoute c.id) s = .next (s.complete c 3 0x0107))) ∧
    (Ready s c 0x0032 → c.params.length = 24 → zerosAt c.params 3 5 = true → zerosAt c.params 22 2 = true → leAt c.params 2 1 = 0xFF →
      (∀ ten, s.tenant c.tenant = some ten → BitVec.ofNat 64 (leAt c.params 8 8) &&& ~~~ ten.affinity = 0 →
        exec (.streamMigrate c.id) s = .next (s.complete c 3 0x0206)) ∧
      (∀ ten, s.tenant c.tenant = some ten → BitVec.ofNat 64 (leAt c.params 8 8) &&& ~~~ ten.affinity ≠ 0 →
        exec (.streamMigrate c.id) s = .next (s.complete c 3 0x0107)))

/-! ### Jobs and their contexts (chapters 8, 9) -/

/-- RUN_PROGRAM (R206, R235, Table 9.2): the job waits with the arguments of its parameters; a wrong length and an unknown image refuse. -/
def Says.RunProgram : Prop :=
  ∀ (s : State) (c : Cmd), Ready s c 0x0041 →
    (∀ k, k ≤ 8 → c.params.length = 8 + 8 * k → zerosAt c.params 4 4 = true →
      (s.hasProgram c.tenant (leAt c.params 0 2) (leAt c.params 2 2) = true → s.noCore c.tenant = false →
        (∀ e, c.epoch = some e → (s.epoch e).st ≠ .aborting) → ∃ (j : Nat) (x : Job), exec (.runProgram c.id) s = .next { begun s c with
            jobs := tset none s.jobs j (some x), sch.nextJob := s.sch.nextJob + 1, sch.nextElig := s.sch.nextElig + 1 } ∧
          x.kind = .program c.id ∧ x.tenant = c.tenant ∧ x.cls = c.cls ∧ x.st = .waiting ∧ x.image = leAt c.params 0 2 ∧
          x.epoch = c.epoch ∧ x.prog = s.image (leAt c.params 0 2) ∧
          x.entry = leAt c.params 2 2 ∧ x.args = (List.range k).map (fun i => BitVec.ofNat 64 (leAt c.params (8 + 8 * i) 8))) ∧
      (s.hasProgram c.tenant (leAt c.params 0 2) (leAt c.params 2 2) = true → s.noCore c.tenant = false →
        ∀ e, c.epoch = some e → (s.epoch e).st = .aborting → exec (.runProgram c.id) s = .next (begun s c)) ∧
      (s.hasProgram c.tenant (leAt c.params 0 2) (leAt c.params 2 2) = false →
        exec (.runProgram c.id) s = .next (s.complete c 3 0x0206)) ∧
      (s.hasProgram c.tenant (leAt c.params 0 2) (leAt c.params 2 2) = true → s.noCore c.tenant = true →
        exec (.runProgram c.id) s = .next (s.complete c 3 0x0203))) ∧
    ((c.params.length < 8 ∨ 72 < c.params.length ∨ c.params.length % 8 ≠ 0) →
      exec (.runProgram c.id) s = .next (s.complete c 3 0x0107))

/-- Placement (R30, R206-R209, R213, R216, R403): a waiting job with a budget takes the lowest free core of its mask that no job before it takes,
unless those use up its budget; a pre-empted one is restored there; without a budget it is counted once; an INTERACTIVE job without a core
pre-empts the BACKGROUND job on the lowest core of its mask; a block job takes its idle home core or pre-empts what runs there; a mask without a
core refuses the command; a job of an aborting epoch stays. -/
def Says.JobDispatches : Prop :=
  (∀ (s : State) (j : Nat), s.job j = none → exec (.jobDispatch j) s = .next s) ∧
  ∀ (s : State) (j : Nat) (x : Job), s.job j = some x →
    (x.st ≠ .waiting → x.st ≠ .saved → exec (.jobDispatch j) s = .next s) ∧
    (∀ e, x.epoch = some e → (s.epoch e).st = .aborting → exec (.jobDispatch j) s = .next s) ∧
    ((∀ e, x.epoch = some e → (s.epoch e).st ≠ .aborting) → x.st = .waiting → s.noCore x.tenant = true →
      (∀ id c, x.kind = .program id → s.cmd id = some c → exec (.jobDispatch j) s =
        .next ((((s.jobsOf c.id).foldl (fun s j => s.endJob j false) s).kvUnpinCmd c.id).complete c 3 0x0203)) ∧
      (∀ k, x.kind = .fit k → exec (.jobDispatch j) s = .next ((s.endJob j false).capEnd k (fun _ => { oc := 3, rs := 0x0203 }))) ∧
      (∀ r n, x.kind = .launch r n → exec (.jobDispatch j) s = .next s)) ∧
    ((∀ e, x.epoch = some e → (s.epoch e).st ≠ .aborting) → x.st = .saved → (∀ h b, x.kind ≠ .block h b) → s.noCore x.tenant = false →
      s.hasBudget x = true → ∀ k, (maskCores (s.jobMask x)).find? (fun c => s.coreFree c && !(s.claimed x).1.contains c) = some k →
        s.budgetBeside (s.claimed x).2 x = true → exec (.jobDispatch j) s = .next (((s.modJob j (fun y => { y with
          st := .restoring k, windows := ((s.tenant x.tenant).map (·.windows)).getD [] })).modCore k (fun z => { z with
          phase := .restoring, job := some j })).dirStart k j x.tenant)) ∧
    ((∀ e, x.epoch = some e → (s.epoch e).st ≠ .aborting) → x.st = .waiting → (∀ h b, x.kind ≠ .block h b) → s.noCore x.tenant = false →
      (s.hasBudget x = true → ∀ k, (maskCores (s.jobMask x)).find? (fun c => s.coreFree c && !(s.claimed x).1.contains c) = some k →
        exec (.jobDispatch j) s = .next (if s.budgetBeside (s.claimed x).2 x then s.startOn j k x else s)) ∧
      (s.hasBudget x = false → x.budgetCounted = false → exec (.jobDispatch j) s = .next
        (({ s with sch.budgetWait := satInc s.sch.budgetWait } : State).modJob j (fun y => { y with budgetCounted := true }))) ∧
      (s.hasBudget x = false → x.budgetCounted = true → exec (.jobDispatch j) s = .next s) ∧
      (s.hasBudget x = true → x.cls = .background → (∀ k, k < 64 → s.coreFree k = false) → exec (.jobDispatch j) s = .next s) ∧
      (s.hasBudget x = true → x.cls = .background → x.affCounted = false → (∀ k, bit (s.jobMask x) k = true → s.coreFree k = false) →
        (∃ k, k < 64 ∧ s.coreFree k = true) → exec (.jobDispatch j) s = .next
          (({ s with sch.affWait := satInc s.sch.affWait } : State).modJob j (fun y => { y with affCounted := true }))) ∧
      (s.hasBudget x = true → x.cls = .interactive → x.deferred = false → (∀ k, k < 64 → s.coreFree k = false) →
        (∀ k, k < 64 → s.clsOn k ≠ some .background) → ∀ id, x.kind = .program id → exec (.jobDispatch j) s = .next
          ((s.modJob j (fun y => { y with deferred := true })).modCmd id (fun c => { c with deferred := true }))) ∧
      (s.hasBudget x = true → x.cls = .interactive → x.deferred = true → x.tookCore = false → (∀ k, k < 64 → s.coreFree k = false) →
        ∀ k, (maskCores (s.jobMask x)).find? (fun c => s.clsOn c = some .background && (s.core c).phase == .running) = some k →
          exec (.jobDispatch j) s = .next ((s.modJob j (fun y => { y with tookCore := true })).preempt k))) ∧
    (∀ h b st, x.kind = .block h b → x.st = .waiting → x.epoch = none → s.stream h = some st → s.nextBlock (st.homeOf b) = some j →
      s.dieUp (st.homeOf b / 16) = true →
      ((s.core (st.homeOf b)).phase = .idle → exec (.jobDispatch j) s = .next (s.startOn j (st.homeOf b) x)) ∧
      ((s.core (st.homeOf b)).phase = .running → s.clsOn (st.homeOf b) = some .background →
        exec (.jobDispatch j) s = .next (s.preempt (st.homeOf b))) ∧
      (s.clsOn (st.homeOf b) = some .realtime → (s.core (st.homeOf b)).phase = .running → exec (.jobDispatch j) s = .next s))

/-- What dispatch leaves (R235, R237): the job runs with a free save slot of its tenant; the core holds the job, its arguments and nothing of
what ran before; every other core is as it was. -/
def Says.DispatchState : Prop :=
  ∀ (s : State) (j k : Nat) (x : Job), s.job j = some x →
    let t := s.startOn j k x
    let c := t.core k
    c.phase = .running ∧ c.job = some j ∧ c.n = [] ∧ c.p = [] ∧ c.loops = [] ∧ c.doze = false ∧ c.live = 0 ∧ c.curves = [] ∧
    c.acc = [] ∧ c.sync = [] ∧ c.wait = none ∧ c.dmas = [] ∧ c.events = 0 ∧
    (∀ i, i < 0xB0000 → mread c.lm i = 0) ∧ (∀ i, 0xB0000 ≤ i → mread c.lm i = mread (s.core k).lm i) ∧
    (∀ i, i < 8 → tget 0 c.a i = x.args.getD i 0) ∧ (∀ i, 8 ≤ i → tget 0 c.a i = 0) ∧
    (∀ q, q ≠ k → t.core q = s.core q) ∧ (∃ y, t.job j = some y ∧ y.st = .running k ∧ y.args = x.args) ∧
    (∀ q, q ≠ j → t.job q = s.job q) ∧ t.mem = s.mem ∧ t.cmds = s.cmds ∧ t.streams = s.streams

/-- Saving and restoring (R214-R218, R238, R239): a save that the tenant's slot admits frees the core and counts the pre-emption; a slot that
its key denies fails the job with SAVE_FAULT or RESTORE_FAULT; a transfer's key fault that meets the request comes before the save (R255);
while a bridge on the way retrains the context waits (R29); a restore runs the job again; a core reset ends. -/
def Says.SavesAndRestores : Prop :=
  (∀ (s : State) (k : Fin 64) (rc j : Nat) (y : Job), (s.core k).phase = .saving → (s.core k).job = some j → s.job j = some y →
    (∀ id b, y.kind ≠ .op id b) → y.epoch = none → (s.core k).keyFault = none → s.saveHeld k = false →
    let u := s.dmaPause k y.agent
    let x := u.core k
    (∀ d, x.context.findSome? (fun p => u.saveDeny y.tenant (y.slotAddr + p.1) p.2.length true) = some d →
      exec (.preemptSaveDone k rc) s = .next (((u.noteDeny d).errSch 0).failJob j (faultReason d.code) [] 9 false)) ∧
    (x.context.findSome? (fun p => u.saveDeny y.tenant (y.slotAddr + p.1) p.2.length true) = none →
      exec (.preemptSaveDone k rc) s =
        .next ((x.context.foldl (fun s p => s.devWrite (y.slotAddr + p.1) p.2) u).saveDone k j rc { dmas := x.dmas }))) ∧
  (∀ (s : State) (k : Fin 64) (rc j e : Nat) (y : Job), (s.core k).phase = .saving → (s.core k).job = some j → s.job j = some y →
    (∀ id b, y.kind ≠ .op id b) → y.epoch = some e → (s.core k).keyFault = none → s.saveHeld k = false →
    let u := s.dmaPause k y.agent
    (u.ctxAlloc e (k / 16) j 209 = none → exec (.preemptSaveDone k rc) s = .next ((u.hoardFull e).endJob j false)) ∧
    (∀ t, u.ctxAlloc e (k / 16) j 209 = some t → exec (.preemptSaveDone k rc) s = .next (t.saveDone k j rc (u.core k)))) ∧
  (∀ (s : State) (k : Fin 64) (rc j : Nat) (y : Job), (s.core k).phase = .saving → (s.core k).job = some j → s.job j = some y →
    (∃ id, y.kind = .program id) → y.epoch = none → (s.core k).keyFault = none → s.saveHeld k = false → (s.core k).dmas = [] →
    (s.core k).context.findSome? (fun p => s.saveDeny y.tenant (y.slotAddr + p.1) p.2.length true) = none →
    ∃ t, exec (.preemptSaveDone k rc) s = .next t ∧ (t.core k).phase = .idle ∧ (t.core k).job = none ∧
      t.sch.preempts = satInc s.sch.preempts ∧ tget none t.sch.dir k = some j ∧
      ∃ z, t.job j = some z ∧ z.st = .saved ∧ z.preempts = y.preempts + 1 ∧ z.slot = y.slot) ∧
  (∀ (s : State) (k : Fin 64) (rc : Nat), (s.core k).phase ≠ .saving → exec (.preemptSaveDone k rc) s = .next s) ∧
  (∀ (s : State) (k : Fin 64) (rc j : Nat) (y : Job) (f : BitVec 8) (pc : Nat), (s.core k).phase = .saving → (s.core k).job = some j →
    s.job j = some y → (s.core k).keyFault = some (f, pc) → s.saveHeld k = false →
    exec (.preemptSaveDone k rc) s = .next (s.tileFault k f.toNat pc)) ∧
  (∀ (s : State) (k : Fin 64) (rc : Nat), s.saveHeld k = true →
    exec (.preemptSaveDone k rc) s = .next s ∧ exec (.jobRestoreDone k) s = .next s) ∧
  (∀ (s : State) (k : Fin 64) (j : Nat) (y : Job) (u : Core), (s.core k).phase = .restoring → (s.core k).job = some j → s.job j = some y →
    y.saved = some u → u.job = none → s.saveHeld k = false →
    (∀ d, s.slotDeny y = some d → exec (.jobRestoreDone k) s =
      .next (((s.noteDeny d).errSch 1).failJob j (faultReason d.code) [] 9 false)) ∧
    (s.slotDeny y = none → exec (.jobRestoreDone k) s = .next (s.rejoin k j (s.fromSlot (s.core k) u y))) ∧
    (s.slotDeny y = none → s.heldFor j = [] → (s.fromSlot (s.core k) u y).wait = none →
      ∃ t, exec (.jobRestoreDone k) s = .next t ∧ t.core k = s.fromSlot (s.core k) u y ∧ t.mem = s.mem ∧
        (∀ q, q ≠ k.val → t.core q = s.core q) ∧ ∃ z, t.job j = some z ∧ z.st = .running k ∧ z.saved = none)) ∧
  (∀ (s : State) (k : Fin 64) (j : Nat) (y : Job) (u : Core), (s.core k).phase = .restoring → (s.core k).job = some j → s.job j = some y →
    y.saved = some u → u.job ≠ none → s.saveHeld k = false →
    exec (.jobRestoreDone k) s = .next ((s.freeCtx j).rejoin k j (Core.fromKept (s.core k) u))) ∧
  (∀ (s : State) (k : Fin 64), (s.core k).phase ≠ .restoring → exec (.jobRestoreDone k) s = .next s) ∧
  (∀ (s : State) (k : Fin 64), (s.core k).phase = .unavailable → exec (.coreResetDone k) s = .next (s.modCore k (fun x =>
    { x with phase := .idle, faultReset := false, pc := 0, sync := [], lm := [] }))) ∧
  (∀ (s : State) (k : Fin 64), (s.core k).phase ≠ .unavailable → exec (.coreResetDone k) s = .next s)

/-- A context that is saved and restored is the context (R214, R238, R239, Table 9.3): the PC, the registers, the predicates, the loops, the
generator, DOZE, LM_LIVE, the pending wait and the queued transfers with the bytes they have moved that the head of a saved context spells are
those it was written from. -/
def Says.ContextRoundTrip : Prop :=
  ∀ (x y : Core) (acc : List Byte) (lm : List Host.Cell), x.pc < 2 ^ 32 → x.loops.length ≤ 4 →
    (∀ l ∈ x.loops, l.start < 2 ^ 32 ∧ l.stop < 2 ^ 32 ∧ l.ctr < 2 ^ 32) → (∀ w, x.wait = some w → w.op = BitVec.ofNat 8 w.word.toNat) →
    x.dmas.length ≤ 16 → (∀ q ∈ x.dmas, q.done < 2 ^ 64) →
    let r := Core.restored y x.head acc lm x.dmas
    x.head.length = 0x1000 ∧ r.phase = .running ∧ r.pc = x.pc ∧ r.rng = x.rng ∧ r.progress = x.progress ∧ r.live = x.live ∧ r.doze = x.doze ∧
    (∀ i, i < 16 → tget 0 r.a i = tget 0 x.a i) ∧ (∀ i, i < 4 → tget 0 r.n i = tget 0 x.n i) ∧
    (∀ i, i < 4 → tget false r.p i = tget false x.p i) ∧ (∀ i, i < 16 → tget 0 r.sync i = tget 0 x.sync i) ∧ r.loops = x.loops ∧
    r.wait = x.wait ∧ r.dmas = x.dmas ∧ r.lm = lm

/-! ### Tile instructions: control, scalar, local memory (chapter 9) -/

/-- The fetch (R234, R240, R253): a key fault that waits comes first, then the PC against the code segment, the X permission, the word. -/
def Says.TileFetch : Prop :=
  ∀ (s : State) (k j : Nat) (x : Job), (s.core k).job = some j → s.job j = some x → (∃ id, x.kind = .program id) →
    (s.core k).phase = .running →
    (∀ code pc, (s.core k).keyFault = some (code, pc) → s.fetch k = .fault code.toNat pc none) ∧
    ((s.core k).keyFault = none → (s.core k).wait = none →
      let a := (s.core k).codeBase + 16 * (s.core k).pc
      ((s.core k).codeLen ≤ (s.core k).pc → s.fetch k = .fault 0x08 (s.core k).pc none) ∧
      ((s.core k).pc < (s.core k).codeLen →
        (∀ d, s.access x.agent 2 a 16 = some d → s.fetch k = .fault d.code (s.core k).pc (some d)) ∧
        (s.access x.agent 2 a 16 = none → s.fetch k = .word (BitVec.ofNat 128 (leNat (s.agentRead x.agent a 16)))))) ∧
    ((s.core k).keyFault = none → (s.core k).wait ≠ none → s.fetch k = .nothing)

/-- Every row of Table 9.5 (R240, R253, R255): it acts when its own opcode is at the PC of its core. An encoding the checks refuse faults
before the guard is read; a false guard retires with no other effect; while the core saves its context nothing retires; a fault waits for the
transfers that a retraining bridge holds (R29), and a job of an aborting epoch issues nothing (R403). -/
def Says.TileBoundary : Prop :=
  ∀ (s : State) (i : Instr) (k : Fin 64) (op : Nat), tileRow i = some (k, op) →
    (s.stopped k = true → exec i s = .next s) ∧
    (s.fetch k = .nothing → exec i s = .next s) ∧
    (s.stopped k = false → ∀ code pc d, s.fetch k = .fault code pc d →
      exec i s = .next (if s.dmasHeld k then s else s.faultWith k code pc d)) ∧
    (s.stopped k = false → ∀ w, s.fetch k = .word w →
      (tOp w ≠ op → tLayout (tOp w) ≠ none → exec i s = .next s) ∧
      (tLayout (tOp w) = none → exec i s = .next (if s.dmasHeld k then s else s.tileFault k 0x01 (s.core k).pc)) ∧
      (tOp w = op → ∀ code, tEncFault w = some code →
        exec i s = .next (if s.dmasHeld k then s else s.tileFault k code (s.core k).pc)) ∧
      (tOp w = op → tEncFault w = none → (s.core k).guard w = false → (s.core k).phase = .running → exec i s = .next (s.retire k none)) ∧
      (tOp w = op → tEncFault w = none → (s.core k).guard w = false → (s.core k).phase = .saving → exec i s = .next s))

/-- What a fault leaves (R253): for a block job the fault registers, the error bit and a freed core, with that block left to fall back; for a
program's job also the end of its command. No other core and no byte of local memory changes. -/
def Says.TileFaults : Prop :=
  ∀ (s : State) (k j code pc : Nat) (x : Job), (s.core k).job = some j → s.job j = some x → x.st = .running k → (s.core k).dmas = [] →
    x.epoch = none → code ≠ 0x12 → (s.core k).faultReset = false → bit s.obs.quillCtrl 4 = false →
    let t := s.tileFault k code pc
    ((∃ h b, x.kind = .block h b) ∨ (∃ id c, x.kind = .program id ∧ s.cmd id = some c ∧ c.epoch = none ∧ c.op ≠ 0x0040 ∧ s.jobsOf id = [j])) →
      (t.core k).fault = BitVec.ofNat 8 code ∧ (t.core k).faultPc = BitVec.ofNat 32 pc ∧ (t.core k).err = true ∧
      (t.core k).phase = .idle ∧ (t.core k).job = none ∧ (t.core k).lm = (s.core k).lm ∧ (t.core k).a = (s.core k).a ∧
      (∀ q, q ≠ k → t.core q = s.core q) ∧ t.job j = none ∧
      (∀ h b y, x.kind = .block h b → s.stream h = some y → t.cmds = s.cmds ∧ t.mem = s.mem ∧
        ∃ z, t.stream h = some z ∧ z.blocks = y.blocks.map (fun e => if e.s = b then { e with job := none } else e)) ∧
      (∀ id, x.kind = .program id → t.cmd id = none ∧ t.streams = s.streams)

/-- The guard (Table 9.4) and the register specifiers (R242): reads zero-extend, writes keep what the register holds, and one register
written leaves the others. -/
def Says.Registers : Prop :=
  ∀ (x : Core) (r : Nat) (v : W64),
    (∀ w, tGuard w = 0 → x.guard w = true) ∧
    (∀ (w : W128) (k : Nat), k < 4 → (tGuard w = 8 + k → x.guard w = tget false x.p k) ∧
      (tGuard w = 12 + k → x.guard w = !tget false x.p k)) ∧
    (r < 0x10 → x.rd r = tget 0 x.a r ∧ (x.wr r v).rd r = v) ∧
    (0x10 ≤ r → r < 0x14 → x.rd r = (tget 0 x.n (r - 0x10)).setWidth 64 ∧ (x.wr r v).rd r = v &&& 0xFFFFFFFF) ∧
    (0x18 ≤ r → r < 0x1C → x.rd r = (if tget false x.p (r - 0x18) then 1 else 0) ∧ (x.wr r v).rd r = v &&& 1) ∧
    (∀ q, q ≠ r → specOk r = true → specOk q = true → (x.wr r v).rd q = x.rd q) ∧
    (specOk r = true ↔ r ≤ 0x0F ∨ (0x10 ≤ r ∧ r ≤ 0x13) ∨ (0x18 ≤ r ∧ r ≤ 0x1B)) ∧
    (x.wr r v).pc = x.pc ∧ (x.wr r v).lm = x.lm ∧ (x.wr r v).sync = x.sync ∧ (x.wr r v).acc = x.acc

/-- Encodings that fault (R240, R242, Tables 9.6 to 9.11): an unused bit, a guard of 1 to 7, a register specifier outside R242, D of a compare
that is no predicate, A of a local-memory access that is no a register, a length of 0, a format code from 0xB. -/
def Says.EncodingFaults : Prop :=
  ∀ (w : W128),
    (tLayout (tOp w) = none → tEncFault w = some 0x01) ∧
    (∀ m, tLayout (tOp w) = some m → (∃ i, w.getLsbD i = true ∧ m.testBit i = false) → tEncFault w = some 0x02) ∧
    (tLayout (tOp w) ≠ none → 0 < tGuard w → tGuard w < 8 → tEncFault w = some 0x02) ∧
    (1 ≤ tOp w → tOp w ≤ 9 → (specOk (fld w 16 8) = false ∨ specOk (fld w 24 8) = false ∨ specOk (fld w 32 8) = false) →
      tEncFault w = some 0x02) ∧
    (tOp w = 0x0C ∨ tOp w = 0x0D → fld w 16 8 < 0x18 → tEncFault w = some 0x02) ∧
    (tOp w = 0x0C ∨ tOp w = 0x0D → 5 < fld w 40 4 → tEncFault w = some 0x02) ∧
    (tOp w = 0x0E ∨ tOp w = 0x0F → 0x10 ≤ fld w 24 8 → tEncFault w = some 0x02) ∧
    (tOp w = 0x11 → fld w 32 16 = 0 → tEncFault w = some 0x02) ∧
    (0x40 ≤ tOp w → tOp w ≤ 0x43 → fld w 32 16 = 0 → tEncFault w = some 0x02) ∧
    (tOp w = 0x30 → w.toNat < 2 ^ 94 → tGuard w = 0 → (0xB ≤ fld w 12 4 ∨ 0xB ≤ fld w 16 4) → tEncFault w = some 0x03) ∧
    (tEncFault w = none → ∀ i, w.getLsbD i = true → ∃ m, tLayout (tOp w) = some m ∧ m.testBit i = true)

/-- The scalar rows (Tables 9.5, 9.6): D is written, the instruction retires, and nothing else changes. -/
def Says.TileScalar : Prop :=
  ∀ (s : State) (k : Fin 64) (w : W128),
    let x := s.core k
    let a := x.rd (fld w 24 8)
    let b := x.rd (fld w 32 8)
    let imm : W64 := BitVec.ofNat 64 (w.toNat / 2 ^ 64)
    let wrote : W64 → Host.Outcome State Fault Refusal := fun v => .next ((s.modCore k (fun x => x.wr (fld w 16 8) v)).retire k none)
    let pred : Bool → Host.Outcome State Fault Refusal := fun v =>
      .next ((s.modCore k (fun x => { x with p := tset false x.p (fld w 16 8 - 0x18) v })).retire k none)
    let holds := fun (b : W64) (c : Nat) => if c = 0 then decide (a = b) else if c = 1 then decide (a ≠ b) else if c = 2 then
      decide (a.toInt < b.toInt) else if c = 3 then decide (b.toInt ≤ a.toInt) else if c = 4 then decide (a.toNat < b.toNat) else
      decide (b.toNat ≤ a.toNat)
    (TileAt s k w 0x00 → exec (.tileNop k) s = .next (s.retire k none)) ∧
    (TileAt s k w 0x01 → exec (.tileAdd k) s = wrote (a + b)) ∧
    (TileAt s k w 0x02 → exec (.tileSub k) s = wrote (a - b)) ∧
    (TileAt s k w 0x03 → exec (.tileAnd k) s = wrote (a &&& b)) ∧
    (TileAt s k w 0x04 → exec (.tileOr k) s = wrote (a ||| b)) ∧
    (TileAt s k w 0x05 → exec (.tileXor k) s = wrote (a ^^^ b)) ∧
    (TileAt s k w 0x06 → exec (.tileShl k) s = wrote (a <<< (b.toNat % 64))) ∧
    (TileAt s k w 0x07 → exec (.tileShr k) s = wrote (a >>> (b.toNat % 64))) ∧
    (TileAt s k w 0x08 → exec (.tileSar k) s = wrote (a.sshiftRight (b.toNat % 64))) ∧
    (TileAt s k w 0x09 → exec (.tileMul k) s = wrote (BitVec.ofNat 64 (a.toNat * b.toNat))) ∧
    (TileAt s k w 0x0A → exec (.tileAddi k) s = wrote (a + imm)) ∧
    (TileAt s k w 0x0B → exec (.tileMovi k) s = wrote imm) ∧
    (TileAt s k w 0x0C → exec (.tileCmp k) s = pred (holds b (fld w 40 4))) ∧
    (TileAt s k w 0x0D → exec (.tileCmpi k) s = pred (holds imm (fld w 40 4)))

/-- Retirement (R243, R251, Table 9.13): the instruction is counted; without a target the PC moves on, and at the last instruction of a
loop's body the counter decides. A long instruction does its steps in order, none over 4,096 cycles: from PROGRESS on where the core runs, up to a
point inside it, which PROGRESS records, where its pre-emption is requested, and both parts together are the whole, with their shares of the cube
cycles. Nothing of another core changes. -/
def Says.TileRetires : Prop :=
  ∀ (s : State) (k : Nat),
    let x := s.core k
    (∀ t, (s.retire k (some t)).core k = { x with instrs := satInc x.instrs, progress := 0, pc := t }) ∧
    (x.loops = [] → (s.retire k none).core k = { x with instrs := satInc x.instrs, progress := 0, pc := x.pc + 1 }) ∧
    (∀ l e, x.loops = l ++ [e] →
      (e.stop ≠ x.pc → (s.retire k none).core k = { x with instrs := satInc x.instrs, progress := 0, pc := x.pc + 1 }) ∧
      (e.stop = x.pc → 1 < (tget 0 x.n e.ctr).toNat → (s.retire k none).core k =
        { x with instrs := satInc x.instrs, progress := 0, pc := e.start, n := tset 0 x.n e.ctr (tget 0 x.n e.ctr - 1) }) ∧
      (e.stop = x.pc → (tget 0 x.n e.ctr).toNat ≤ 1 → (∀ f, l.getLast? = some f → f.stop ≠ x.pc) → (s.retire k none).core k =
        { x with instrs := satInc x.instrs, progress := 0, pc := x.pc + 1, n := tset 0 x.n e.ctr 0, loops := l })) ∧
    (∀ (n cc cube : Nat) (u : Nat → State → State),
      let p := stepsPer n cc
      let a := x.progress.toNat
      (x.phase = .running → s.longTile k n cc cube u =
        ((workSteps u p a (n * p) s).cubeBusy k (shareOf cube (n * p) a (n * p))).retire k none) ∧
      (x.phase = .saving → 4096 < cc → a < n * p → ∃ b, a ≤ b ∧ b < n * p ∧ s.longTile k n cc cube u =
        ((workSteps u p a b { s with fresh := s.fresh + 1 }).cubeBusy k (shareOf cube (n * p) a b)).modCore k
          (fun y => { y with progress := BitVec.ofNat 64 b })) ∧
      (x.phase = .saving → cc ≤ 4096 → s.longTile k n cc cube u = s) ∧
      (0 < n → cc ≤ 4096 * (n * p)) ∧
      (∀ b c, a ≤ b → b ≤ c → workSteps u p b c (workSteps u p a b s) = workSteps u p a c s ∧
        shareOf cube (n * p) a b + shareOf cube (n * p) b c = shareOf cube (n * p) a c) ∧
      (p = 1 → workSteps u p 0 n s = (List.range n).foldl (fun s i => u i s) s)) ∧
    (∀ p q, q ≠ k → (s.retire k p).core q = s.core q) ∧
    (∀ p, (s.retire k p).mem = s.mem ∧ (s.retire k p).jobs = s.jobs ∧ (s.retire k p).cmds = s.cmds)

/-- BR and LOOP (R243), MODE, LIVE and SNAP (R249, R250), END (R237), also where a pre-emption is requested in its cycle (R226). -/
def Says.TileControl : Prop :=
  ∀ (s : State) (k : Fin 64) (w : W128),
    let x := s.core k
    (TileAt s k w 0x10 → ∃ t : Nat, (t : Int) = ((x.pc : Int) + (BitVec.ofNat 32 (fld w 64 32)).toInt) % 4294967296 ∧
      (x.loops = [] → exec (.tileBr k) s = .next (s.retire k (some t))) ∧
      (∀ l e r, x.loops = l ++ e :: r → (∀ f ∈ l, f.start ≤ t ∧ t ≤ f.stop) → (t < e.start ∨ e.stop < t) →
        exec (.tileBr k) s = .next ((s.modCore k (fun x => { x with loops := l })).retire k (some t)))) ∧
    (TileAt s k w 0x11 →
      let cnt : W32 := if bit w 14 then (tget 0 x.a (fld w 16 4)).setWidth 32 else BitVec.ofNat 32 (fld w 64 32)
      (cnt = 0 → exec (.tileLoop k) s = .next ((s.modCore k (fun x => { x with n := tset 0 x.n (fld w 12 2) 0 })).retire k
        (some (x.pc + fld w 32 16 + 1)))) ∧
      (cnt ≠ 0 → x.loops.length < 4 → exec (.tileLoop k) s = .next ((s.modCore k (fun x => { x with
        n := tset 0 x.n (fld w 12 2) cnt,
        loops := x.loops ++ [{ start := x.pc + 1, stop := x.pc + fld w 32 16, ctr := fld w 12 2 }] })).retire k (some (x.pc + 1)))) ∧
      (cnt ≠ 0 → 4 ≤ x.loops.length →
        exec (.tileLoop k) s = .next (if s.dmasHeld k then s else s.tileFault k 0x09 x.pc))) ∧
    (TileAt s k w 0x64 →
      let seed := if tget 0 x.a (fld w 20 4) = 0 then 0x9E3779B97F4A7C15 else tget 0 x.a (fld w 20 4)
      exec (.tileMode k) s = .next ((s.modCore k (fun x =>
        { x with doze := bit w 16, rng := if bit w 17 then seed else x.rng })).retire k none)) ∧
    (TileAt s k w 0x65 → exec (.tileLive k) s =
      .next ((s.modCore k (fun x => { x with live := BitVec.ofNat 6 (fld w 16 6) })).retire k none)) ∧
    (TileAt s k w 0x66 →
      (((s.jobOn k).bind (·.epoch)).isSome = true → exec (.tileSnap k) s =
        .next (({ s with sch.specSnap := satInc s.sch.specSnap } : State).retire k none)) ∧
      ((s.jobOn k).bind (·.epoch) = none → exec (.tileSnap k) s =
        .next ((s.quillUp 6 (BitVec.ofNat 16 (fld w 16 16)) (bit w 32)).retire k none))) ∧
    (∀ j y, TileAt s k w 0x12 → x.job = some j → s.job j = some y →
      ∀ tie, exec (.tileEnd k tie) s = .next (if s.dmasHeld k then s else (s.jobDone k j y).retire k (some x.pc))) ∧
    (∀ j y, x.phase = .saving → s.stopped k = false → x.job = some j → s.job j = some y → s.fetch k = .word w → tOp w = 0x12 →
      tEncFault w = none → x.guard w = true → s.dmasHeld k = false → ∀ tie, exec (.tileEnd k tie) s = .next (s.tie.jobDone k j y))

/-- LDS and STS (R232, R233, R241, R242): the bytes at A + IMM; an address that is no multiple of SIZE faults with ALIGN, bytes past the local
memory with LM_RANGE, frame-mover bytes that are not the job's with LM_RESERVED; an outstanding transfer's bytes make the core wait. An STS to a
device address past the local memory writes as DMA does (R392, R399; log 52). -/
def Says.TileLocalMemory : Prop :=
  ∀ (s : State) (k : Fin 64) (w : W128),
    let x := s.core k
    let a := (x.rd (fld w 24 8) + BitVec.ofNat 64 (w.toNat / 2 ^ 64)).toNat
    let n := 2 ^ fld w 44 2
    let lds := exec (.tileLds k) s
    let sts := exec (.tileSts k) s
    let faults := fun (f : Nat) => Host.Outcome.next (if s.dmasHeld k then s else s.tileFault k f x.pc)
    (∀ c p m, (m = 0 ∨ p + m ≤ 0xB0000 → s.lmFault c p m = none) ∧ (0 < m → 0xC0000 < p + m → s.lmFault c p m = some 0x05) ∧
      (0 < m → 0xB0000 < p + m → p + m ≤ 0xC0000 →
        let own : Prop := ∀ i, p ≤ i → i < p + m → 0xB0000 ≤ i → ∃ b ∈ s.ownBufs c, b.1 ≤ i ∧ i < b.1 + b.2
        (own → s.lmFault c p m = none) ∧ (¬ own → s.lmFault c p m = some 0x06))) ∧
    (TileAt s k w 0x0E → a % n = 0 → s.lmFault k a n = none → s.lmBusy k [(a, n)] [] = false → lds = .next
      ((s.modCore k (fun x => x.wr (fld w 16 8) (BitVec.ofNat 64 (leNat (mreadN x.lm a n))))).retire k none)) ∧
    (TileAt s k w 0x0F → a % n = 0 → s.stsOut k a n = true →
      let g := s.coreAgent k
      let bs := toLe n (x.rd (fld w 16 8)).toNat
      (s.pathHeld (some (k / 16)) a n = true → sts = .next s) ∧
      (s.pathHeld (some (k / 16)) a n = false →
        (∀ d, s.access g 1 a n = some d → sts = .next (if s.dmasHeld k then s else s.faultWith k d.code x.pc (some d))) ∧
        (s.access g 1 a n = none → ∀ t, s.agentWrite g (k / 16) a bs = some t → sts = .next (t.retire k none)) ∧
        (s.access g 1 a n = none → s.agentWrite g (k / 16) a bs = none → sts = .next ((State.hoardOut g (s, true)).retire k none)))) ∧
    (∀ c p m, s.stsOut c p m = true ↔ 0xC0000 ≤ p ∧ (windowsAllow (s.coreAgent c).windows 1 p m = true ∨
      (s.coreAgent c).epoch ≠ none ∧ s.region p ≠ .none)) ∧
    (TileAt s k w 0x0F → a % n = 0 → s.stsOut k a n = false → s.lmFault k a n = none → s.lmBusy k [] [(a, n)] = false → sts = .next
      ((s.modCore k (fun y => { y with lm := mwrite y.lm a (toLe n (x.rd (fld w 16 8)).toNat) })).retire k none)) ∧
    (∀ i o, i = lds ∧ o = (0x0E : Nat) ∨ i = sts ∧ o = 0x0F → TileAt s k w o →
      (a % n ≠ 0 → i = faults 0x0A) ∧
      (a % n = 0 → 0xC0000 < a + n → (o = 0x0F → s.stsOut k a n = false) → i = faults 0x05) ∧
      (a % n = 0 → a + n ≤ 0xC0000 → s.lmFault k a n = some 0x06 → i = faults 0x06) ∧
      (∀ q, a % n = 0 → a + n ≤ 0xB0000 → q ∈ x.dmas → q.dstDev = false → 0 < q.rows → q.dst ≤ a → a < q.dst + q.len →
        i = .next s))

/-- DMA, DMAW and the end of a transfer (R241, R244), which waits while a bridge on its way retrains (R29). A LEN that is no multiple of 4 faults as
an address does (the model's reading, log 19). -/
def Says.TileTransfers : Prop :=
  ∀ (s : State) (k : Fin 64) (w : W128),
    let x := s.core k
    let q := x.dmaOf w
    (q.tag = fld w 12 4 ∧ q.src = (tget 0 x.a (fld w 16 4)).toNat ∧ q.dst = (tget 0 x.a (fld w 20 4)).toNat ∧ q.srcDev = bit w 24 ∧
      q.dstDev = bit w 25 ∧ q.len = fld w 40 24 ∧ q.rows = fld w 64 16 + 1 ∧
      (fld w 64 16 ≠ 0 → q.sstr = (tget 0 x.a (fld w 28 4)).toNat ∧ q.dstr = (tget 0 x.a (fld w 32 4)).toNat)) ∧
    (TileAt s k w 0x20 →
      let lm := (if q.srcDev then [] else q.rowsAt q.src q.sstr) ++ (if q.dstDev then [] else q.rowsAt q.dst q.dstr)
      ((q.src % 4 ≠ 0 ∨ q.dst % 4 ≠ 0 ∨ q.sstr % 4 ≠ 0 ∨ q.dstr % 4 ≠ 0 ∨ q.len % 4 ≠ 0) →
        exec (.tileDma k) s = .next (if s.dmasHeld k then s else s.tileFault k 0x0A x.pc)) ∧
      (q.aligned = true → (∀ d, s.dmaBad (s.coreAgent k) q = some d →
        exec (.tileDma k) s = .next (if s.dmasHeld k then s else s.faultWith k d.code x.pc (some d)))) ∧
      (q.aligned = true → s.dmaBad (s.coreAgent k) q = none →
        (∀ f, s.lmFaults k lm = some f → exec (.tileDma k) s = .next (if s.dmasHeld k then s else s.tileFault k f x.pc)) ∧
        (s.lmFaults k lm = none → x.dmas.length < 16 →
          exec (.tileDma k) s = .next ((s.modCore k (fun x => { x with dmas := x.dmas ++ [q] })).retire k none)) ∧
        (s.lmFaults k lm = none → 16 ≤ x.dmas.length → exec (.tileDma k) s = .next s) ∧
        ((∀ r ∈ lm, r.1 + r.2 ≤ 0xB0000) → s.lmFaults k lm = none))) ∧
    (TileAt s k w 0x21 →
      (fld w 16 16 = 0 → exec (.tileDmaw k) s = .next (if s.dmasHeld k then s else s.tileFault k 0x10 x.pc)) ∧
      (fld w 16 16 ≠ 0 → (∀ d ∈ x.dmas, (fld w 16 16).testBit d.tag = false) → exec (.tileDmaw k) s = .next (s.retire k none)) ∧
      (∀ d ∈ x.dmas, (fld w 16 16).testBit d.tag = true → exec (.tileDmaw k) s =
        .next (s.modCore k (fun x => { x with wait := some { op := 0x21, word := w } })))) ∧
    (∀ (tag : Fin 16) (host : List (BitVec 8)), (x.phase = .running ∨ x.phase = .saving) →
      ((∀ d ∈ x.dmas, d.tag ≠ tag.val) → exec (.dmaComplete k tag host) s = .next s) ∧
      (∀ l d r, x.dmas = l ++ d :: r → (∀ e ∈ l, e.tag ≠ tag.val) → d.tag = tag.val → s.dmaHeld k d = true →
        exec (.dmaComplete k tag host) s = .next s) ∧
      (∀ l d r, x.dmas = l ++ d :: r → (∀ e ∈ l, e.tag ≠ tag.val) → d.tag = tag.val → s.dmaHeld k d = false → x.wait = none →
        let g := s.coreAgent k
        let s0 := s.modCore k (fun x => { x with dmas := l ++ r })
        (s.dmaDeny g d = none → exec (.dmaComplete k tag host) s = .next (State.hoardOut g (s0.dmaRun k g d host d.total))) ∧
        (∀ e, s.dmaDeny g d = some e → exec (.dmaComplete k tag host) s =
          .next ((s0.noteDeny e).modCore k (fun x => { x with keyFault := some (BitVec.ofNat 8 e.code, d.pc) })))) ∧
      (∀ l d r, x.dmas = l ++ d :: r → (∀ e ∈ l, e.tag ≠ tag.val) → d.tag = tag.val → s.dmaHeld k d = false → s.dmaDeny (s.coreAgent k) d = none →
        d.srcDev = true → d.dstDev = false → d.rows = 1 → d.done = 0 → s.key.walk = none → s.region d.src ≠ .host → x.wait = none → (s.coreAgent k).epoch = none →
        ∃ t, exec (.dmaComplete k tag host) s = .next t ∧
          (t.core k).lm = mwrite x.lm d.dst (s.agentRead (s.coreAgent k) d.src d.len) ∧ (t.core k).dmas.length + 1 = x.dmas.length ∧
          t.mem = s.mem ∧ ∀ p, p ≠ k.val → t.core p = s.core p))

/-! ### Formats and tile arithmetic (chapters 9, 11, 14) -/

/-- FP32, FP16, BF16 and the FP8 formats decode to their IEEE values, with E4M3 without infinities (Table 11.1, R282, R283). -/
def Says.FormatValues : Prop :=
  (∀ r, r < 16 → decodeFmt 0 r = .fin (decide (8 ≤ r)) (if 8 ≤ r then 16 - r else r) 0) ∧
  (∀ r, r < 256 → decodeFmt 2 r = .fin false r 0) ∧
  (∀ (v : BitVec 8), decodeFmt 1 v.toNat = .fin (decide (v.toInt < 0)) v.toInt.natAbs 0) ∧
  (∀ (v : BitVec 32), decodeFmt 5 v.toNat = .fin (decide (v.toInt < 0)) v.toInt.natAbs 0) ∧
  (∀ (n : Bool) (e m : Nat), e < 256 → m < 2 ^ 23 → let raw := (if n then 2 ^ 31 else 0) + e * 2 ^ 23 + m
    decodeFmt 0xA raw = (if e = 0 then .fin n m (-149) else if e = 255 then (if m = 0 then .inf n else .nan)
      else .fin n (2 ^ 23 + m) ((e : Int) - 150))) ∧
  (∀ (n : Bool) (e m : Nat), e < 32 → m < 2 ^ 10 → let raw := (if n then 2 ^ 15 else 0) + e * 2 ^ 10 + m
    decodeFmt 8 raw = (if e = 0 then .fin n m (-24) else if e = 31 then (if m = 0 then .inf n else .nan)
      else .fin n (2 ^ 10 + m) ((e : Int) - 25))) ∧
  (∀ (n : Bool) (e m : Nat), e < 256 → m < 2 ^ 7 → let raw := (if n then 2 ^ 15 else 0) + e * 2 ^ 7 + m
    decodeFmt 9 raw = (if e = 0 then .fin n m (-133) else if e = 255 then (if m = 0 then .inf n else .nan)
      else .fin n (2 ^ 7 + m) ((e : Int) - 134))) ∧
  (∀ (n : Bool) (e m : Nat), e < 16 → m < 8 → let raw := (if n then 128 else 0) + e * 8 + m
    decodeFmt 6 raw = (if e = 0 then .fin n m (-9) else if e = 15 ∧ m = 7 then .nan else .fin n (8 + m) ((e : Int) - 10))) ∧
  (∀ (n : Bool) (e m : Nat), e < 32 → m < 4 → let raw := (if n then 128 else 0) + e * 4 + m
    decodeFmt 7 raw = (if e = 0 then .fin n m (-16) else if e = 31 then (if m = 0 then .inf n else .nan)
      else .fin n (4 + m) ((e : Int) - 17)))

/-- The rounding of R286, R287: `roundUnits` gives the unit below or above the magnitude; nearest-even the nearer, and of two as near the even
one; truncation the one below; stochastic the one above when the 16-bit value is below the floor of 65,536 times the rest. -/
def Says.Roundings : Prop :=
  ∀ (m r : Nat) (k : Nat) (e : Int),
    let d := 2 ^ k
    (∀ mode, roundUnits mode r m e e = m) ∧
    roundUnits 2 r m e (e + k) = m / d ∧
    (roundUnits 1 r m e (e + k) = if r < 65536 * (m % d) / d then m / d + 1 else m / d) ∧
    (let u := roundUnits 0 r m e (e + k)
     2 * (u * d) ≤ 2 * m + d ∧ 2 * m ≤ 2 * (u * d) + d ∧ (2 * m = 2 * (u * d) + d ∨ 2 * (u * d) = 2 * m + d → u % 2 = 0))

/-- Conversion into a format (R284, R285, R288): integers saturate at the ends of their range and a NaN gives 0; a float conversion saturates at
the largest finite value; a NaN gives the canonical NaN; an infinity stays one, but in E4M3 saturates. -/
def Says.Conversions : Prop :=
  (∀ f mode r, (f ≤ 5 → convert f mode r .nan = (0, .nan)) ∧
    (6 ≤ f → f ≤ 0xA → convert f mode r .nan = ((if f = 6 then 0x7F else if f = 7 then 0x7E else if f = 8 then 0x7E00 else if f = 9 then 0x7FC0
      else 0x7FC00000), .nan))) ∧
  (∀ mode r (v : Int), -128 ≤ v → v ≤ 127 → convert 1 mode r (ofI v) = ((v % 256).toNat, .ok)) ∧
  (∀ mode r (v : Int), (127 < v → convert 1 mode r (ofI v) = (0x7F, .sat)) ∧ (v < -128 → convert 1 mode r (ofI v) = (0x80, .sat)) ∧
    (255 < v → convert 2 mode r (ofI v) = (0xFF, .sat)) ∧ (v < 0 → convert 2 mode r (ofI v) = (0, .sat)) ∧
    (7 < v → convert 0 mode r (ofI v) = (7, .sat)) ∧ (v < -8 → convert 0 mode r (ofI v) = (8, .sat)) ∧
    (32767 < v → convert 3 mode r (ofI v) = (0x7FFF, .sat)) ∧ (8388607 < v → convert 4 mode r (ofI v) = (0x7FFFFF, .sat)) ∧
    (v < -8388608 → convert 4 mode r (ofI v) = (0xFF800000, .sat)) ∧ (2147483647 < v → convert 5 mode r (ofI v) = (0x7FFFFFFF, .sat))) ∧
  (∀ mode r (n : Bool), convert 6 mode r (.inf n) = ((if n then 0xFE else 0x7E), .sat) ∧
    convert 8 mode r (.inf n) = ((if n then 0xFC00 else 0x7C00), .ok) ∧ convert 0xA mode r (.inf n) = ((if n then 0xFF800000 else 0x7F800000), .ok)) ∧
  (∀ mode r, convert 6 mode r (.fin false 449 0) = (0x7E, .sat) ∧ convert 8 mode r (.fin false 65505 0) = (0x7BFF, .sat) ∧
    convert 6 mode r (.fin false 448 0) = (0x7E, .ok))

/-- An FP32 word is its own rounding (R286, R310): what an arithmetic result is rounded to reads back as that value. -/
def Says.Fp32RoundTrip : Prop :=
  ∀ (w : BitVec 32), f32 w.toNat ≠ .nan → bits32 (f32 w.toNat) = w.toNat ∧ rnd32 (f32 w.toNat) = f32 w.toNat

/-- The generator of stochastic rounding (R287): xorshift by 13, 7 and 17; one step for an element; the rounding value is its upper 16 bits. -/
def Says.StochasticGenerator : Prop :=
  (∀ (g : W64), let a := g ^^^ (g <<< 13); let b := a ^^^ (a >>> 7); rngStep g = b ^^^ (b <<< 17) ∧ rngVal g = g.toNat / 2 ^ 48) ∧
  rngSeed = 0x9E3779B97F4A7C15 ∧
  (∀ f mode g (l : List FV), (convertAll f mode g l).1.length = l.length ∧ (mode ≠ 1 → (convertAll f mode g l).2 = g)) ∧
  (∀ f g v (l : List FV), (convertAll f 1 g (v :: l)).1.head? = some (convert f 1 ((rngStep g).toNat / 2 ^ 48) v) ∧
    (convertAll f 1 g (v :: l)).2 = (convertAll f 1 (rngStep g) l).2)

/-- MMA (R245, R290-R295): what it multiplies, where it accumulates, and where it faults. -/
def Says.TileMma : Prop :=
  ∀ (s : State) (k : Fin 64) (w : W128), TileAt s k w 0x30 →
    let x := s.core k
    let faults := fun (f : Nat) => Host.Outcome.next (if s.dmasHeld k then s else s.tileFault k f x.pc)
    let fa := fld w 12 4
    let fb := fld w 16 4
    let g := if fld w 32 2 = 0 then 0 else 16 * 2 ^ fld w 32 2
    let m := 4 * (fld w 48 6 + 1)
    let n := 4 * (fld w 54 6 + 1)
    let kk := 4 * (fld w 60 10 + 1)
    let base := 4 * fld w 36 12
    let aA := (tget 0 x.a (fld w 20 4)).toNat
    let bA := (tget 0 x.a (fld w 24 4)).toNat
    let sA := (tget 0 x.a (fld w 28 4)).toNat
    let lda := 16 * fld w 70 12
    let ldb := 16 * fld w 82 12
    let ng := if g = 0 then 0 else kk / g
    let rows := (List.range m).map (fun i => (aA + i * lda, fmtBytes fa kk)) ++
      (List.range n).map (fun i => (bA + i * ldb, fmtBytes fb kk)) ++ (if g = 0 then [] else [(sA, 2 * (m + n) * ng)])
    (mmaPair fa fb = false → exec (.tileMma k) s = faults 0x04) ∧
    (mmaPair fa fb = true → (g = 0 ∨ kk % g = 0) → 16384 < base + m * n → exec (.tileMma k) s = faults 0x07) ∧
    (mmaPair fa fb = true → g ≠ 0 → kk % g ≠ 0 → exec (.tileMma k) s = faults 0x02) ∧
    (mmaPair fa fb = true → g ≠ 0 → kk % g = 0 → base + m * n ≤ 16384 → sA % 2 ≠ 0 → exec (.tileMma k) s = faults 0x0A) ∧
    (mmaPair fa fb = true → (g = 0 ∨ kk % g = 0) → base + m * n ≤ 16384 → (g = 0 ∨ sA % 2 = 0) →
      (∀ f, s.lmFaults k rows = some f → exec (.tileMma k) s = faults f) ∧
      (s.lmFaults k rows = none → s.lmBusy k rows [] = true → exec (.tileMma k) s = .next s)) ∧
    (mmaPair fa fb = true → (g = 0 ∨ kk % g = 0) → base + m * n ≤ 16384 → (g = 0 ∨ sA % 2 = 0) → s.lmFaults k rows = none →
      s.lmBusy k rows [] = false → x.progress = 0 →
      ∃ t, exec (.tileMma k) s = .next t ∧ (t.core k).pc = ((s.retire k none).core k).pc ∧
        (∀ i j, i < m → j < n → tget 0 (t.core k).acc (base + i * n + j) = (accWord (fmtFloat fa) g (bit w 34)
          (tget 0 x.acc (base + i * n + j)) (s.lmVals k (aA + i * lda) fa kk) (s.lmVals k (bA + j * ldb) fb kk)
          (s.lmVals k (sA + 2 * i * ng) 8 ng) (s.lmVals k (sA + 2 * m * ng + 2 * j * ng) 8 ng)).1) ∧
        (∀ e, e < base ∨ base + m * n ≤ e → tget 0 (t.core k).acc e = tget 0 x.acc e) ∧
        (t.core k).lm = x.lm ∧ (t.core k).a = x.a ∧ (t.core k).p = x.p ∧ t.mem = s.mem ∧ ∀ q, q ≠ k.val → t.core q = s.core q)

/-- The accumulation (R291, R292, R295): integer products are added one at a time, saturating at 32 bits; float products four to a slice. -/
def Says.Accumulation : Prop :=
  (∀ (init : Bool) (old : W32) (a b : Int), accWord false 0 init old [ofI a] [ofI b] [] [] =
    (let v := (if init then 0 else old.toInt) + a * b
     (BitVec.ofInt 32 (if 2147483647 < v then 2147483647 else if v < -2147483648 then -2147483648 else v),
      decide (2147483647 < v ∨ v < -2147483648)))) ∧
  (∀ acc sat (a b : Int) (as bs : List FV), intDot (acc, sat) (ofI a :: as) (ofI b :: bs) =
    intDot (satS 32 (acc + a * b), sat || decide (satS 32 (acc + a * b) ≠ acc + a * b)) as bs) ∧
  (∀ acc a0 a1 a2 a3 b0 b1 b2 b3 as bs, floatDot acc (a0 :: a1 :: a2 :: a3 :: as) (b0 :: b1 :: b2 :: b3 :: bs) =
    floatDot (rnd32 (faddX (faddX (faddX (faddX acc (fmulX a0 b0)) (fmulX a1 b1)) (fmulX a2 b2)) (fmulX a3 b3))) as bs) ∧
  (∀ flt g init old as bs sa sb, g ≠ 0 → as.length = g → bs.length = g → accWord flt g init old as bs [sa] [sb] =
    (let p := if flt then floatDot (.fin false 0 0) as bs else rnd32 (ofI (exactDot as bs))
     (BitVec.ofNat 32 (bits32 (rnd32 (faddX (if init then .fin false 0 0 else f32 old.toNat) (fmulX p (rnd32 (fmulX sa sb)))))),
      false))) ∧
  (∀ a b, (mmaPair a b = true ↔ (fmtFloat a = true ∧ fmtFloat b = true) ∨ (fmtFloat a = false ∧ fmtFloat b = false ∧ a ≠ 5 ∧ b ≠ 5 ∧
    (a = 4 → b ≤ 2) ∧ (b = 4 → a ≤ 2))))

/-- VOP, VPWL, VRED and CURVE (Table 9.10, R350, R351): the elements written in ascending order, each from its sources as they then stand (the
model's choice where operands overlap, log 121), so from what was there where they do not; nothing else of local memory changes. -/
def Says.TileVectors : Prop :=
  ∀ (s : State) (k : Fin 64) (w : W128),
    let x := s.core k
    let faults := fun (f : Nat) => Host.Outcome.next (if s.dmasHeld k then s else s.tileFault k f x.pc)
    let n := fld w 32 16
    let d := (tget 0 x.a (fld w 16 4)).toNat
    let a := (tget 0 x.a (fld w 20 4)).toNat
    let b := (tget 0 x.a (fld w 24 4)).toNat
    let val := fun (m : List Host.Cell) (p i : Nat) => f32 (leNat (mreadN m (p + 4 * i) 4))
    let at32 := val x.lm
    let seq := fun (rows : Nat) (f : List Host.Cell → Nat → FV) =>
      (List.range rows).foldl (fun m i => mwrite m (d + 4 * i) (toLe 4 (bits32 (f m i)))) x.lm
    let clear := fun (p : Nat) => p = d ∨ p + 4 * n ≤ d ∨ d + 4 * n ≤ p
    let vop := fun (u v e : FV) => if fld w 12 4 = 0 then add32 u v else if fld w 12 4 = 1 then sub32 u v else if fld w 12 4 = 2 then
      mul32 u v else if fld w 12 4 = 3 then fmax u v else if fld w 12 4 = 4 then fmin u v
      else if fld w 12 4 = 5 then rnd32 (faddX (fmulX u v) e) else u
    let only := fun (t : State) (p m : Nat) => (∀ i, i < p ∨ p + m ≤ i → mread (t.core k).lm i = mread x.lm i) ∧ (t.core k).a = x.a ∧
      (t.core k).acc = x.acc ∧ t.mem = s.mem ∧ ∀ q, q ≠ k.val → t.core q = s.core q
    let free := fun rds wrs => s.lmFaults k (rds ++ wrs) = none ∧ s.lmBusy k rds wrs = false ∧ x.progress = 0
    (TileAt s k w 0x40 → free ([(a, 4 * n)] ++ (if fld w 12 4 = 6 then [] else [(b, 4 * n)])) [(d, 4 * n)] →
      ∃ t, exec (.tileVop k) s = .next t ∧ only t d (4 * n) ∧
        (t.core k).lm = seq n (fun m i => vop (val m a i) (val m b i) (val m d i)) ∧
        (clear a → clear b → ∀ i, i < n →
          mreadN (t.core k).lm (d + 4 * i) 4 = toLe 4 (bits32 (vop (at32 a i) (at32 b i) (at32 d i))))) ∧
    (TileAt s k w 0x41 →
      (tget none x.curves (fld w 12 4) = none → exec (.tileVpwl k) s = faults 0x0F) ∧
      (∀ v, tget none x.curves (fld w 12 4) = some v → free [(a, 4 * n)] [(d, 4 * n)] →
        ∃ t, exec (.tileVpwl k) s = .next t ∧ only t d (4 * n) ∧
          (t.core k).lm = seq n (fun m i => curveEval v.words (val m a i)) ∧
          (clear a → ∀ i, i < n → mreadN (t.core k).lm (d + 4 * i) 4 = toLe 4 (bits32 (curveEval v.words (at32 a i)))))) ∧
    (TileAt s k w 0x43 → free [(a, 4 * n * (fld w 64 16 + 1))] [(d, 4 * (fld w 64 16 + 1))] →
      ∃ t, exec (.tileVred k) s = .next t ∧ only t d (4 * (fld w 64 16 + 1)) ∧
        (t.core k).lm = seq (fld w 64 16 + 1) (fun m i => vredRow (fld w 12 4) ((List.range n).map (fun j => val m a (n * i + j))))) ∧
    (∀ (u : FV) (l : List FV), vredRow 1 (u :: l) = l.foldl fmax u ∧ vredRow 0 [u] = u ∧ vredRow 2 [u] = mul32 u u ∧
      ∀ v, vredRow 0 [u, v] = add32 u v) ∧
    (∀ i o rds wrs, i = .tileVop k ∧ o = (0x40 : Nat) ∧ rds = [(a, 4 * n)] ++ (if fld w 12 4 = 6 then [] else [(b, 4 * n)]) ∧ wrs = [(d, 4 * n)] ∨
        i = .tileVpwl k ∧ o = 0x41 ∧ tget none x.curves (fld w 12 4) ≠ none ∧ rds = [(a, 4 * n)] ∧ wrs = [(d, 4 * n)] ∨
        i = .tileVred k ∧ o = 0x43 ∧ rds = [(a, 4 * n * (fld w 64 16 + 1))] ∧ wrs = [(d, 4 * (fld w 64 16 + 1))] → TileAt s k w o →
      (∀ f, s.lmFaults k (rds ++ wrs) = some f → exec i s = faults f) ∧
      (s.lmFaults k (rds ++ wrs) = none → s.lmBusy k rds wrs = true → exec i s = .next s)) ∧
    (TileAt s k w 0x44 →
      (a % 16 ≠ 0 → exec (.tileCurve k) s = faults 0x0A) ∧
      (a % 16 = 0 → free [(a, 144)] [] → (fltX (at32 a 0) (at32 a 1) = false ∨ (∃ n, at32 a 0 = .inf n) ∨ ∃ n, at32 a 1 = .inf n) →
        exec (.tileCurve k) s = faults 0x11) ∧
      (a % 16 = 0 → free [(a, 144)] [] → fltX (at32 a 0) (at32 a 1) = true → (∃ n m e, at32 a 0 = .fin n m e) →
        (∃ n m e, at32 a 1 = .fin n m e) →
        ∃ t, exec (.tileCurve k) s = .next t ∧ (t.core k).lm = x.lm ∧ (t.core k).a = x.a ∧
          tget none (t.core k).curves (fld w 12 4) =
            some ⟨a, (List.range 36).map (fun i => BitVec.ofNat 32 (leNat (mreadN x.lm (a + 4 * i) 4)))⟩))

/-- VCVT (R299-R303): element i is its source times the scale of its group, converted; with STAT each group's record gains what its elements
met, and is written last; the generator steps once an element in stochastic mode. Each element reads its sources as they then stand (the model's
choice where operands overlap, log 121). -/
def Says.TileConverts : Prop :=
  ∀ (s : State) (k : Fin 64) (w : W128), TileAt s k w 0x42 →
    let x := s.core k
    let faults := fun (f : Nat) => Host.Outcome.next (if s.dmasHeld k then s else s.tileFault k f x.pc)
    let df := fld w 12 4
    let sf := fld w 48 4
    let n := fld w 32 16
    let g := if fld w 55 2 = 0 then n else 16 * 2 ^ fld w 55 2
    let d := (tget 0 x.a (fld w 16 4)).toNat
    let a := (tget 0 x.a (fld w 20 4)).toNat
    let b := (tget 0 x.a (fld w 24 4)).toNat
    let stat := bit w 54
    let recs := b + 4 * (n / g)
    let rl := if stat then 8 * (n / g) else 0
    (n % g ≠ 0 → exec (.tileVcvt k) s = faults 0x02) ∧
    (n % g = 0 → b % 4 ≠ 0 → exec (.tileVcvt k) s = faults 0x0A) ∧
    (n % g = 0 → b % 4 = 0 →
      (∀ f, s.lmFaults k [(a, fmtBytes sf n), (b, 4 * (n / g)), (d, fmtBytes df n), (recs, rl)] = some f → exec (.tileVcvt k) s = faults f) ∧
      (s.lmFaults k [(a, fmtBytes sf n), (b, 4 * (n / g)), (d, fmtBytes df n), (recs, rl)] = none →
        s.lmBusy k [(a, fmtBytes sf n), (b, 4 * (n / g))] [(d, fmtBytes df n), (recs, rl)] = true → exec (.tileVcvt k) s = .next s)) ∧
    (n % g = 0 → b % 4 = 0 → s.lmFaults k [(a, fmtBytes sf n), (b, 4 * (n / g)), (d, fmtBytes df n), (recs, rl)] = none →
      s.lmBusy k [(a, fmtBytes sf n), (b, 4 * (n / g))] [(d, fmtBytes df n), (recs, rl)] = false → x.progress = 0 →
      let aside := overlap (recs, rl) (d, fmtBytes df n) || overlap (recs, rl) (a, fmtBytes sf n)
      let start : Conversion := ⟨x.lm, x.rng, none⟩
      let r := (List.range n).foldl (fun (r : Conversion) i => r.put df (fld w 52 2) d i (if stat then some (recs, i / g) else none)
        (fmulX (lmElemOf r.lm sf a i) (lmElemOf r.lm 0xA b (i / g)))) (if aside then start.setAside recs (n / g) else start)
      ∃ t, exec (.tileVcvt k) s = .next t ∧ (t.core k).rng = r.rng ∧ (t.core k).lm = r.done recs ∧
        (t.core k).a = x.a ∧ t.mem = s.mem ∧ ∀ q, q ≠ k.val → t.core q = s.core q) ∧
    (n % g = 0 → b % 4 = 0 → s.lmFaults k [(a, fmtBytes sf n), (b, 4 * (n / g)), (d, fmtBytes df n), (recs, rl)] = none →
      s.lmBusy k [(a, fmtBytes sf n), (b, 4 * (n / g))] [(d, fmtBytes df n), (recs, rl)] = false →
      overlap (d, fmtBytes df n) (recs, rl) = false → overlap (recs, rl) (a, fmtBytes sf n) = false →
      overlap (d, fmtBytes df n) (a, fmtBytes sf n) = false → overlap (d, fmtBytes df n) (b, 4 * (n / g)) = false → x.progress = 0 →
      let vals := (List.range n).map (fun i => fmulX (decodeFmt sf (elemAt sf (mreadN x.lm a (fmtBytes sf n)) i))
        (f32 (leNat (mreadN x.lm (b + 4 * (i / g)) 4))))
      let r := convertAll df (fld w 52 2) x.rng vals
      ∃ t, exec (.tileVcvt k) s = .next t ∧ (t.core k).rng = r.2 ∧
        (∀ i, i < n → elemAt df (mreadN (t.core k).lm d (fmtBytes df n)) i = (r.1.getD i (0, .ok)).1) ∧
        (stat = true → ∀ j, j < n / g → mreadN (t.core k).lm (recs + 8 * j) 8 = Stat.bytes ((List.range g).foldl (fun st i =>
          let e := r.1.getD (j * g + i) (0, .ok)
          st.add (vals.getD (j * g + i) .nan) (decodeFmt df e.1) e.2) (Stat.ofBytes (mreadN x.lm (recs + 8 * j) 8)))) ∧
        (∀ i, (i < d ∨ d + fmtBytes df n ≤ i) → (i < recs ∨ recs + rl ≤ i) → mread (t.core k).lm i = mread x.lm i) ∧
        (t.core k).a = x.a ∧ t.mem = s.mem ∧ ∀ q, q ≠ k.val → t.core q = s.core q)

/-- The piecewise-linear curve (R350, R351): below XMIN and above XMAX the ends' values, between them slope times x plus offset of its segment,
a NaN for a NaN. -/
def Says.Curves : Prop :=
  ∀ (t : List W32) (x : FV),
    let v := fun i => f32 (t.getD i 0).toNat
    (x = .nan → curveEval t x = .nan) ∧
    (x ≠ .nan → fltX x (v 0) = true → curveEval t x = v 2) ∧
    (x ≠ .nan → fltX x (v 0) = false → fltX (v 1) x = true → curveEval t x = v 3) ∧
    (x ≠ .nan → fltX x (v 0) = false → fltX (v 1) x = false → ∃ j, j ≤ 15 ∧ curveEval t x = add32 (mul32 (v (4 + 2 * j)) x) (v (5 + 2 * j))) ∧
    (∀ lo hi q : Nat, lo < hi → lo ≤ q → q ≤ hi → curveSeg (ofI q) (ofI lo) (ofI hi) = min 15 (16 * (q - lo) / (hi - lo)))

/-! ### Descriptor instructions (chapters 9, 12 to 15) -/

/-- The descriptor of EPI, WIN, RSTEP and ATTN (R232, R233, R241, R246): a misaligned one faults with DESC, its own bytes obey the local memory's
rules, and one whose fields the owning chapter does not allow faults with DESC; nothing is written. -/
def Says.Descriptors : Prop :=
  ∀ (s : State) (k : Fin 64) (w : W128),
    let x := s.core k
    let faults := fun (f : Nat) => Host.Outcome.next (if s.dmasHeld k then s else s.tileFault k f x.pc)
    let p := (tget 0 x.a (fld w 12 4)).toNat
    let d := mreadN x.lm p 64
    ∀ i op, (op = 0x50 ∧ i = .tileEpi k) ∨ (op = 0x51 ∧ i = .tileWin k) ∨ (op = 0x52 ∧ i = .tileRstep k) ∨ (op = 0x53 ∧ i = .tileAttn k) →
      TileAt s k w op →
      (p % 64 ≠ 0 → exec i s = faults 0x11) ∧
      (∀ f, p % 64 = 0 → s.lmFault k p 64 = some f → exec i s = faults f) ∧
      (p % 64 = 0 → s.lmFault k p 64 = none → s.lmBusy k [(p, 64)] [] = true → exec i s = .next s) ∧
      (p % 64 = 0 → s.lmFault k p 64 = none → s.lmBusy k [(p, 64)] [] = false →
        (op = 0x50 → epiOk d = false → exec i s = faults 0x11) ∧
        (op = 0x51 → winOk d = false → exec i s = faults 0x11) ∧
        (op = 0x52 → (recurOf d).ok d = false → exec i s = faults 0x11) ∧
        (op = 0x53 → attnOk d = false → exec i s = faults 0x11))

/-- EPI (R319-R323): with a legal chain every element is written in row-major order, as `epiRun` forms it, with the statistics records last; a
drain without stages writes each element's own conversion by nearest-even and nothing outside its rows. An unaligned stage faults with ALIGN, an
unloaded curve with CURVE_UNLOADED, an entry that R297 refuses with DESC. -/
def Says.TileEpi : Prop :=
  ∀ (s : State) (k : Fin 64) (w : W128), TileAt s k w 0x50 →
    let x := s.core k
    let faults := fun (f : Nat) => Host.Outcome.next (if s.dmasHeld k then s else s.tileFault k f x.pc)
    let p := (tget 0 x.a (fld w 12 4)).toNat
    let d := mreadN x.lm p 64
    let raw := s.epiStages k d
    let st := raw.map (epiStg x)
    let wr := epiDsts d ++ st.flatMap (fun g => g.records (leAt d 4 2) (leAt d 6 2))
    let q := epiRecs d st
    let aside := (epiReads d st).any (overlap (q.1, 8 * q.2))
    let start : Conversion := ⟨x.lm, x.rng, none⟩
    let run := epiRun x d st 0 (if aside then start.setAside q.1 q.2 else start)
    p % 64 = 0 → s.lmFault k p 64 = none → s.lmBusy k [(p, 64)] [] = false → epiOk d = true →
    (∀ f, s.lmFault k (leAt d 28 4) (16 * leAt d 24 1) = some f → exec (.tileEpi k) s = faults f) ∧
    (s.lmFault k (leAt d 28 4) (16 * leAt d 24 1) = none → s.lmBusy k [(leAt d 28 4, 16 * leAt d 24 1)] [] = true →
      exec (.tileEpi k) s = .next s) ∧
    (s.lmFault k (leAt d 28 4) (16 * leAt d 24 1) = none → s.lmBusy k [(leAt d 28 4, 16 * leAt d 24 1)] [] = false → x.progress = 0 →
      (epiLegal d raw st = false → exec (.tileEpi k) s = faults 0x11) ∧
      (∀ f, epiLegal d raw st = true → s.lmFaults k (epiReads d st ++ wr) = some f → exec (.tileEpi k) s = faults f) ∧
      (epiLegal d raw st = true → s.lmFaults k (epiReads d st ++ wr) = none → s.lmBusy k (epiReads d st) wr = true →
        exec (.tileEpi k) s = .next s) ∧
      (epiLegal d raw st = true → s.lmFaults k (epiReads d st ++ wr) = none → s.lmBusy k (epiReads d st) wr = false →
        (st.all Stg.aligned = false → exec (.tileEpi k) s = faults 0x0A) ∧
        (st.all Stg.aligned = true → (∃ g ∈ st, g.kind = 2 ∧ tget none x.curves (g.sel % 8) = none) →
          exec (.tileEpi k) s = faults 0x0F) ∧
        (st.all Stg.aligned = true → (∀ g ∈ st, g.kind = 2 → tget none x.curves (g.sel % 8) ≠ none) →
          (run = none → exec (.tileEpi k) s = faults 0x11) ∧
          (∀ r, run = some r → ∃ t, exec (.tileEpi k) s = .next t ∧ (t.core k).lm = r.done q.1 ∧ (t.core k).rng = r.rng ∧
            (t.core k).pc = ((s.retire k none).core k).pc ∧ (t.core k).acc = x.acc ∧ (t.core k).a = x.a ∧ t.mem = s.mem ∧
            ∀ q, q ≠ k.val → t.core q = s.core q) ∧
          (leAt d 24 1 = 0 → leAt d 1 1 = 0 → ∃ r, run = some r ∧ r.rng = x.rng ∧
            (∀ m n, m < leAt d 4 2 → n < leAt d 6 2 →
              elemAt (leAt d 3 1) (mreadN (r.done q.1) (leAt d 16 4 + m * leAt d 20 4) (fmtBytes (leAt d 3 1) (leAt d 6 2))) n =
                (convert (leAt d 3 1) 0 0 (let v := (tget 0 x.acc (leAt d 8 4 + m * leAt d 6 2 + n));
                  if leAt d 2 1 = 5 then ofI v.toInt else f32 v.toNat)).1) ∧
            (∀ i, (∀ m, m < leAt d 4 2 → i < leAt d 16 4 + m * leAt d 20 4 ∨
                leAt d 16 4 + m * leAt d 20 4 + fmtBytes (leAt d 3 1) (leAt d 6 2) ≤ i) → mread (r.done q.1) i = mread x.lm i)))))

/-- The stages of a chain (Table 12.6, R297, R320, R321): what each does to a value in the exact or the FP32 domain, and the final conversion's
scale. -/
def Says.ChainStages : Prop :=
  ∀ (rd : Nat → Nat → List Byte) (N m n : Nat) (g : Stg) (x : ChVal),
    (g.kind = 0 → bits g.sel 3 3 = 0 → ∀ e, e = rd g.base 16 →
      (leAt e 9 1 = 0 → leAt e 8 1 ≤ 63 → zerosAt e 10 6 = true → g.apply rd N m n x = some ⟨2, mul32 x.fp (f32 (leAt e 0 4))⟩) ∧
      (leAt e 9 1 = 1 → leAt e 8 1 ≤ 63 → zerosAt e 10 6 = true → x.dom ≠ 0 → g.apply rd N m n x = none) ∧
      (∀ v : Int, leAt e 9 1 = 1 → leAt e 8 1 ≤ 63 → zerosAt e 10 6 = true → x = ⟨0, ofI v⟩ → ∃ neg q, g.apply rd N m n x =
        some ⟨1, .fin neg q (-(leAt e 8 1 : Int))⟩ ∧ (q : Int) = |v * (BitVec.ofNat 32 (leAt e 4 4)).toInt| ∧
        (v * (BitVec.ofNat 32 (leAt e 4 4)).toInt ≠ 0 → (neg = true ↔ v * (BitVec.ofNat 32 (leAt e 4 4)).toInt < 0)))) ∧
    (∀ v b : Int, g.kind = 1 → g.fmt = 5 → x = ⟨0, ofI v⟩ → leNat (rd (g.base + n * 4) 4) = (b % 4294967296).toNat → -2147483648 ≤ b →
      b ≤ 2147483647 → ∃ y, g.apply rd N m n x = some ⟨0, y⟩ ∧ toI y = v + b) ∧
    (g.kind = 1 → g.fmt = 0xA → g.apply rd N m n x = some ⟨2, add32 x.fp (rnd32 (f32 (leNat (rd (g.base + n * 4) 4))))⟩) ∧
    (g.kind = 2 → g.apply rd N m n x = some ⟨2, curveEval g.curve x.fp⟩) ∧
    (g.kind = 3 → g.fmt = 0xA → g.apply rd N m n x = some ⟨2, add32 x.fp (rnd32 (f32 (leNat
      (rd ((if g.bcast then g.base else g.base + m * g.stride) + n * 4) 4))))⟩) ∧
    (g.kind = 4 → g.fmt = 0xA → g.apply rd N m n x = some ⟨2, mul32 x.fp (rnd32 (f32 (leNat
      (rd ((if g.bcast then g.base else g.base + m * g.stride) + n * 4) 4))))⟩) ∧
    (g.kind = 5 → ∃ y, g.apply rd N m n x = some ⟨if x.dom = 0 ∧ (fracF32 g.arg0 ∨ fracF32 g.arg1) then 1 else x.dom, y⟩ ∧ (x.v = .nan → y = .nan) ∧
      (x.v ≠ .nan → fltX x.v (f32 g.arg0) = true → y = f32 g.arg0) ∧
      (x.v ≠ .nan → fltX x.v (f32 g.arg0) = false → fltX (f32 g.arg1) x.v = true → y = f32 g.arg1) ∧
      (fltX x.v (f32 g.arg0) = false → fltX (f32 g.arg1) x.v = false → y = x.v)) ∧
    (∀ l, finalValue rd l N m n x = (match requantOf l with
      | some g => fmulX x.v (f32 (leNat (rd (g.base + (if g.grp = 0 then 0 else if g.grp = 1 then n else (m * N + n) / 2 ^ (3 + g.grp)) * 4) 4)))
      | none => x.v)) ∧
    (∀ l, requantOf l = none → finalMode l = 0 ∧ chainStat l = false)

/-- WIN (R332, R333, R335, R338, R339, R344): a convolution writes accumulator words, pooling and upsampling FP32 values, regrouping elements; an
output that overlaps its inputs faults with DESC. -/
def Says.TileWin : Prop :=
  ∀ (s : State) (k : Fin 64) (w : W128), TileAt s k w 0x51 →
    let x := s.core k
    let faults := fun (f : Nat) => Host.Outcome.next (if s.dmasHeld k then s else s.tileFault k f x.pc)
    let p := (tget 0 x.a (fld w 12 4)).toNat
    let d := mreadN x.lm p 64
    let v := winOf d
    let kind := leAt d 1 1
    let fi := leAt d 2 1
    let src := leAt d 28 4
    let dst := leAt d 36 4
    let ring := leAt d 48 4
    let px := fun y xx ch => decodeFmt fi (elemAt fi (mreadN x.lm src ((if ring = 0 then v.ih * v.iw else ring) * fmtBytes fi v.c))
      ((if ring = 0 then y * v.iw + xx else (leAt d 52 4 + xx) % ring) * v.c + ch))
    let g := if bits (leAt d 4 1) 4 2 = 0 then 0 else 16 * 2 ^ bits (leAt d 4 1) 4 2
    let taps := v.kh * v.kw * v.icg
    let fp16 := fun i => decodeFmt 8 (leNat (mreadN x.lm (leAt d 40 4 + 2 * i) 2))
    let wrow := fmtBytes (leAt d 3 1) (v.kh * v.kw * v.icg)
    let free := s.lmFaults k (winReads d ++ [winOut d]) = none ∧ s.lmBusy k (winReads d) [winOut d] = false ∧
      (winReads d).any (overlap (winOut d)) = false ∧ x.progress = 0
    p % 64 = 0 → s.lmFault k p 64 = none → s.lmBusy k [(p, 64)] [] = false → winOk d = true →
    ((winReads d).any (overlap (winOut d)) = true → exec (.tileWin k) s = faults 0x11) ∧
    ((2 ≤ kind ∨ dst + v.oh * v.ow * v.oc ≤ 16384) → (winReads d).any (overlap (winOut d)) = false →
      (∀ f, s.lmFaults k (winReads d ++ [winOut d]) = some f → exec (.tileWin k) s = faults f) ∧
      (s.lmFaults k (winReads d ++ [winOut d]) = none → s.lmBusy k (winReads d) [winOut d] = true → exec (.tileWin k) s = .next s)) ∧
    (2 ≤ kind → free → ∃ t, exec (.tileWin k) s = .next t ∧ (t.core k).acc = x.acc ∧ (t.core k).a = x.a ∧ t.mem = s.mem ∧
      (∀ i, i < (winOut d).1 ∨ (winOut d).1 + (winOut d).2 ≤ i → mread (t.core k).lm i = mread x.lm i) ∧
      ∀ q, q ≠ k.val → t.core q = s.core q) ∧
    (kind ≤ 1 → 16384 < dst + v.oh * v.ow * v.oc → exec (.tileWin k) s = faults 0x11) ∧
    (kind ≤ 1 → dst + v.oh * v.ow * v.oc ≤ 16384 → free →
      ∃ t, exec (.tileWin k) s = .next t ∧
        (∀ oy ox oc, oy < v.oh → ox < v.ow → oc < v.oc →
          tget 0 (t.core k).acc (dst + (oy * v.ow + ox) * v.oc + oc) =
          (v.conv (fmtFloat fi) g (bitN (leAt d 4 1) 3) (tget 0 x.acc (dst + (oy * v.ow + ox) * v.oc + oc)) px
            (fun oc i => decodeFmt (leAt d 3 1) (elemAt (leAt d 3 1) (mreadN x.lm (leAt d 32 4) (v.oc * wrow))
              (oc * taps + i))) (fun y xx i => fp16 ((y * v.iw + xx) * (v.c / g) + i))
            (fun oc i => fp16 (v.ih * v.iw * (v.c / g) + oc * (taps / g) + i)) oy ox oc).1) ∧
        (∀ e, e < dst ∨ dst + v.oh * v.ow * v.oc ≤ e → tget 0 (t.core k).acc e = tget 0 x.acc e) ∧
        (t.core k).lm = x.lm ∧ t.mem = s.mem ∧ ∀ q, q ≠ k.val → t.core q = s.core q) ∧
    (kind = 2 ∨ kind = 3 → free → ∀ t, exec (.tileWin k) s = .next t → ∀ oy ox ch, oy < v.oh → ox < v.ow → ch < v.c →
      mreadN (t.core k).lm (dst + 4 * ((oy * v.ow + ox) * v.c + ch)) 4 =
        toLe 4 (bits32 (v.pool (decide (kind = 3)) (fun y xx ch => rnd32 (px y xx ch)) oy ox ch))) ∧
    (kind = 4 ∨ kind = 5 → free → ∀ t, exec (.tileWin k) s = .next t →
      let fy := leAt d 26 1
      let fx := leAt d 27 1
      ∀ y z ch, y < v.ih * fy → z < v.iw * fx → ch < v.c → mreadN (t.core k).lm (dst + 4 * ((y * (v.iw * fx) + z) * v.c + ch)) 4 =
        toLe 4 (bits32 (if kind = 4 then rnd32 (px (y / fy) (z / fx) ch)
          else upsample true fy fx v.ih v.iw (fun y xx ch => rnd32 (px y xx ch)) y z ch))) ∧
    (kind = 6 ∨ kind = 7 → free → ∀ t, exec (.tileWin k) s = .next t →
      let f := leAt d 27 1
      let fh := if bitN (leAt d 4 1) 0 then 1 else f
      let C := if kind = 6 then v.c else v.c / (fh * f)
      let H := if kind = 6 then v.ih else v.ih * fh
      let W := if kind = 6 then v.iw else v.iw * f
      ∀ y z ch, y < H → z < W → ch < C →
        let wide := (y * W + z) * C + ch
        let deep := (y / fh * (W / f) + z / f) * (C * (fh * f)) + (y % fh * f + z % f) * C + ch
        elemAt fi (mreadN (t.core k).lm dst (winOut d).2) (if kind = 6 then deep else wide) =
          elemAt fi (mreadN x.lm src (v.ih * v.iw * fmtBytes fi v.c)) (if kind = 6 then wide else deep))

/-- Windows (R332, R333, R338, R346): the output extent, the position of a tap and its fill, and pooling over a window of padding only. -/
def Says.Windows : Prop :=
  ∀ (v : Win) (px : Nat → Nat → Nat → FV) (oy ox kh kw ch : Nat),
    (∀ n p q dl t st, 1 ≤ st → dl * (t - 1) + 1 ≤ n + p + q → outExtent n p q dl t st = (n + p + q - dl * (t - 1) - 1) / st + 1) ∧
    (v.pt ≤ oy * v.sy + kh * v.dy → oy * v.sy + kh * v.dy - v.pt < v.ih → v.pl_ ≤ ox * v.sx + kw * v.dx → ox * v.sx + kw * v.dx - v.pl_ < v.iw →
      v.tapVal px oy ox kh kw ch = px (oy * v.sy + kh * v.dy - v.pt) (ox * v.sx + kw * v.dx - v.pl_) ch) ∧
    ((oy * v.sy + kh * v.dy < v.pt ∨ v.ih + v.pt ≤ oy * v.sy + kh * v.dy ∨ ox * v.sx + kw * v.dx < v.pl_ ∨ v.iw + v.pl_ ≤ ox * v.sx + kw * v.dx) →
      (v.fillMode = 0 → v.tapVal px oy ox kh kw ch = .fin false 0 0) ∧ (v.fillMode = 2 → v.tapVal px oy ox kh kw ch = v.fill) ∧
      (v.fillMode = 1 → v.tapVal px oy ox kh kw ch = px (min (v.ih - 1) (oy * v.sy + kh * v.dy - v.pt)) (min (v.iw - 1) (ox * v.sx
        + kw * v.dx - v.pl_)) ch)) ∧
    ((∀ a b, a < v.kh → b < v.kw → (v.tap oy ox a b).2.2 = false) → v.pool false px oy ox ch = .fin false 0 0 ∧
      (v.countPad = false → v.pool true px oy ox ch = .fin false 0 0))

/-- RSTEP (R353, R354, R358, R363): the state record advances by STEPS and holds the last states; the output rows are converted; a record that
does not fit the descriptor, an unloaded table or an overlap faults with DESC. -/
def Says.TileRstep : Prop :=
  ∀ (s : State) (k : Fin 64) (w : W128), TileAt s k w 0x52 →
    let x := s.core k
    let faults := fun (f : Nat) => Host.Outcome.next (if s.dmasHeld k then s else s.tileFault k f x.pc)
    let p := (tget 0 x.a (fld w 12 4)).toNat
    let d := mreadN x.lm p 64
    let r := recurOf d
    let sig := tget none x.curves (bits r.tb 0 3)
    let tan_ := tget none x.curves (bits r.tb 4 3)
    let head := mreadN x.lm r.sa 64
    p % 64 = 0 → s.lmFault k p 64 = none → s.lmBusy k [(p, 64)] [] = false → r.ok d = true →
    (r.cell ≠ 2 → (sig = none ∨ tan_ = none) → exec (.tileRstep k) s = faults 0x11) ∧
    (r.reads.any (overlap r.out) = true → exec (.tileRstep k) s = faults 0x11) ∧
    (r.reads.any (overlap r.out) = false → (r.cell = 2 ∨ (sig ≠ none ∧ tan_ ≠ none)) →
      s.lmFaults k (r.reads ++ [r.out, (r.sa, r.recLen)]) = none → s.lmBusy k r.reads [r.out, (r.sa, r.recLen)] = false →
      (recordOk head r.cell (at_ r.q 0) r.R r.width r.depth = false → exec (.tileRstep k) s = faults 0x11) ∧
      (recordOk head r.cell (at_ r.q 0) r.R r.width r.depth = true →
        x.progress = 0 →
        (∃ t, exec (.tileRstep k) s = .next t ∧ (t.core k).pc = ((s.retire k none).core k).pc ∧ t.mem = s.mem ∧
          (t.core k).lm = (((List.range r.T).foldl (fun u n => State.rstepUnit k r ((sig.map (·.words)).getD [])
            ((tan_.map (·.words)).getD []) n u) s).core k).lm) ∧
        ((r.reads.filter (fun q => q ≠ (r.sa, r.recLen))).any (overlap (r.sa, r.recLen)) = false →
        let cell : Cell := ⟨r.cell = 1, r.xf, r.wf, r.inN, r.hid, r.q, r.inv, (sig.map (·.words)).getD [], (tan_.map (·.words)).getD []⟩
        let one := fun (row n : Nat) (v : List FV) => r.rowStep x.lm (mreadN x.lm r.wa r.wLen) (mreadN x.lm r.ba r.bLen) cell row n v
        let held := fun (n row : Nat) => (List.range n).foldl (fun v e => (one row e v).1.map (fun u =>
          stateVal r.q (stateBits r.q u % 2 ^ 32))) (r.rowState x.lm row)
        ∃ t, exec (.tileRstep k) s = .next t ∧
          leNat (mreadN (t.core k).lm (r.sa + 24) 8) = (leNat (mreadN x.lm (r.sa + 24) 8) + r.T) % 2 ^ 64 ∧
          mreadN (t.core k).lm r.sa 24 = mreadN x.lm r.sa 24 ∧
          (∀ row i, row < r.R → i < r.per → mreadN (t.core k).lm (r.sa + 64 + 4 * (row * r.per + i)) 4 =
            toLe 4 (stateBits r.q ((one row (r.T - 1) (held (r.T - 1) row)).1.getD i .nan))) ∧
          (∀ row n, row < r.R → n < r.T → mreadN (t.core k).lm (r.ya + (row * r.T + n) * fmtBytes r.yf r.width) (fmtBytes r.yf r.width) =
            packElems r.yf ((one row n (held n row)).2.1.map (fun v => (convert r.yf 0 0 (fmulX v r.ys)).1))) ∧
          (∀ i, (i < r.sa ∨ r.sa + r.recLen ≤ i) → (i < r.ya ∨ r.ya + r.out.2 ≤ i) → mread (t.core k).lm i = mread x.lm i) ∧
          (t.core k).a = x.a ∧ (t.core k).acc = x.acc ∧ t.mem = s.mem ∧ ∀ q, q ≠ k.val → t.core q = s.core q)))

/-- ATTN (R382, R384) runs to its end on every legal descriptor: m, l and a of every query vector after the page loop; with FINAL the
quotients; an overlap with the state or the output faults with DESC. -/
def Says.TileAttn : Prop :=
  ∀ (s : State) (k : Fin 64) (w : W128), TileAt s k w 0x53 →
    let x := s.core k
    let faults := fun (f : Nat) => Host.Outcome.next (if s.dmasHeld k then s else s.tileFault k f x.pc)
    let p := (tget 0 x.a (fld w 12 4)).toNat
    let d := mreadN x.lm p 64
    let nq := leAt d 4 2
    let D := leAt d 6 2
    let np := leAt d 8 2
    let kf := leAt d 3 1
    let fl := leAt d 1 1
    let sa := leAt d 24 4
    let da := leAt d 28 4
    let e := if kf = 6 ∨ kf = 7 then 1 else 2
    let page := fun i => leNat (mreadN x.lm (leAt d 20 4 + 4 * i) 4)
    let stR := (sa, 4 * (2 * nq + nq * D))
    let outR := (da, if bitN fl 1 then 4 * nq * D else 0)
    let rds := [(leAt d 16 4, fmtBytes (leAt d 2 1) (nq * D)), (leAt d 20 4, 4 * np)] ++ (List.range np).map (fun i => (page i, 128 * D * e))
    p % 64 = 0 → s.lmFault k p 64 = none → s.lmBusy k [(p, 64)] [] = false → attnOk d = true → s.lmFault k (leAt d 20 4) (4 * np) = none →
    s.lmBusy k [(leAt d 20 4, 4 * np)] [] = false →
    ((rds.any (overlap stR) = true ∨ rds.any (overlap outR) = true ∨ overlap stR outR = true) →
      exec (.tileAttn k) s = faults 0x11) ∧
    (rds.any (overlap stR) = false → rds.any (overlap outR) = false → overlap stR outR = false → s.lmFaults k (rds ++ [stR, outR]) = none →
      s.lmBusy k rds [stR, outR] = false → x.progress = 0 →
      let at4 := fun (a : Nat) => f32 (leNat (mreadN x.lm a 4))
      let first := fun (i : Nat) => if bitN fl 0 then ({} : Attn) else
        { m := at4 (sa + 4 * i), l := at4 (sa + 4 * (nq + i)), a := (List.range D).map (fun j => at4 (sa + 4 * (2 * nq + i * D + j))) }
      let again := fun (u : Attn) =>
        ({ m := f32 (bits32 u.m), l := f32 (bits32 u.l), a := (List.range D).map (fun j => f32 (bits32 (u.a.getD j (.fin false 0 0)))) } : Attn)
      let seen := fun (n i r : Nat) => !bitN fl 2 || decide (64 * n + r ≤ leAt d 12 4 + i / leAt d 11 1)
      let rows := fun (n i : Nat) => ((List.range (if n + 1 = np then leAt d 10 1 else 64)).filter (seen n i)).map (fun r =>
        let b := s.lmVals k (page n) kf (128 * D)
        ((b.drop (r * D)).take D, (b.drop ((64 + r) * D)).take D))
      let o := fun (i : Nat) => (List.range np).foldl (fun u n => Attn.page D
        (((s.lmVals k (leAt d 16 4) (leAt d 2 1) (nq * D)).drop (i * D)).take D) (f32 (leAt d 32 4)) (f32 (leAt d 36 4)) (rows n i)
        (if n = 0 then u else again u)) (first i)
      ∃ t, exec (.tileAttn k) s = .next t ∧ (t.core k).pc = ((s.retire k none).core k).pc ∧
        (∀ i, i < nq → mreadN (t.core k).lm (sa + 4 * i) 4 = toLe 4 (bits32 (o i).m) ∧
          mreadN (t.core k).lm (sa + 4 * (nq + i)) 4 = toLe 4 (bits32 (o i).l) ∧
          ∀ j, j < D → mreadN (t.core k).lm (sa + 4 * (2 * nq + i * D + j)) 4 = toLe 4 (bits32 ((o i).a.getD j (.fin false 0 0)))) ∧
        (bitN fl 1 = true → ∀ i j, i < nq → j < D → mreadN (t.core k).lm (da + 4 * (i * D + j)) 4 =
          toLe 4 (bits32 (if (o i).seen then div32 ((o i).a.getD j (.fin false 0 0)) (o i).l else .fin false 0 0))) ∧
        (∀ u : Attn, u.seen = false ↔ u.m = .inf true ∧ ∃ n y, u.l = .fin n 0 y) ∧
        (∀ i, (i < sa ∨ sa + stR.2 ≤ i) → (i < da ∨ da + outR.2 ≤ i) → mread (t.core k).lm i = mread x.lm i) ∧
        (t.core k).a = x.a ∧ (t.core k).acc = x.acc ∧ t.mem = s.mem ∧ ∀ q, q ≠ k.val → t.core q = s.core q)

/-- One page of attention (R382): the running maximum, sum and values; a page without a visible position changes nothing. -/
def Says.AttentionPage : Prop :=
  ∀ (D : Nat) (q : List FV) (sc vs : FV) (t : Attn),
    Attn.page D q sc vs [] t = t ∧
    (∀ kr vr, let s := mul32 sc (floatDot (.fin false 0 0) q kr)
      let u := Attn.page D q sc vs [(kr, vr)] t
      let c := if t.m = .inf true then .fin false 0 0 else exp32 (sub32 t.m (fmax t.m s))
      u.m = fmax t.m s ∧ u.l = add32 (mul32 t.l c) (exp32 (sub32 s (fmax t.m s))) ∧ u.a.length = D ∧
      ∀ j, j < D → u.a.getD j .nan = add32 (mul32 (t.a.getD j (.fin false 0 0)) c)
        (mul32 (mul32 (exp32 (sub32 s (fmax t.m s))) vs) (vr.getD j .nan))) ∧
    (∀ r1 r2, let u := Attn.page D q sc vs [r1, r2] t
      u.m = fmax (fmax t.m (mul32 sc (floatDot (.fin false 0 0) q r1.1))) (mul32 sc (floatDot (.fin false 0 0) q r2.1)))

/-! ### Sync cells, waits, the deadlock detector (chapters 9, 10) -/

/-- SIG (R262, R269): posted with the sender's tenant; a speculative job's signal outside its own epoch faults with SPEC_VIOLATION. -/
def Says.SignalsPosted : Prop :=
  ∀ (s : State) (k : Fin 64) (w : W128) (j : Nat) (x : Job), TileAt s k w 0x60 → (s.core k).job = some j → s.job j = some x →
    let v := if bit w 39 then (tget 0 (s.core k).a (fld w 12 4)).toNat % 65536 else fld w 64 16
    let remote := bit w 38 = true ∧ fld w 32 6 ≠ s.node
    let sig : Signal := { src := k, core := fld w 24 6, cell := fld w 16 5, v := v, tenant := x.tenant, conf := s.confidential x.tenant,
                          epoch := x.epoch, node := if remote then some (BitVec.ofNat 6 (fld w 32 6)) else none }
    let faults := Host.Outcome.next (if s.dmasHeld k then s else s.tileFault k 0x12 (s.core k).pc)
    (x.epoch = none → exec (.tileSig k) s = .next (({ s with sch.signals := s.sch.signals ++ [sig] } : State).retire k none)) ∧
    (∀ e, x.epoch = some e → remote → exec (.tileSig k) s = faults) ∧
    (∀ e, x.epoch = some e → ¬ remote → s.sigTarget (fld w 24 6) x.tenant = none →
      exec (.tileSig k) s = faults) ∧
    (∀ e q y, x.epoch = some e → ¬ remote → s.sigTarget (fld w 24 6) x.tenant = some q → s.job q = some y →
      (y.epoch ≠ some e → exec (.tileSig k) s = faults) ∧
      (y.epoch = some e → exec (.tileSig k) s = .next (({ s with sch.signals := s.sch.signals ++ [sig] } : State).retire k none)))

/-- Where a signal lands (R265, R266): the context of its tenant on the core, else the one that the core forwards to, else nowhere. -/
def Says.SignalTargets : Prop :=
  ∀ (s : State) (c t : Nat),
    (∀ j x, (s.core c).job = some j → s.job j = some x → x.tenant = t → s.sigTarget c t = some j) ∧
    ((s.core c).job = none ∨ (∃ j x, (s.core c).job = some j ∧ s.job j = some x ∧ x.tenant ≠ t) →
      (tget none s.sch.dir c = none → s.sigTarget c t = none) ∧
      (∀ q y, tget none s.sch.dir c = some q → s.job q = some y → s.sigTarget c t = if y.tenant = t then some q else none)) ∧
    (∀ j x, s.sigTarget c t = some j → s.job j = some x → x.tenant = t)

/-- Delivery (R29, R263-R269, R281, R399): in order for one sender and cell; to another part as a frame; here the value is added to the cell of the context that runs, saturating; a saved context gains it in its
slot, or in its copy where the Hoard holds one; without a target, a speculative one outside its epoch, on a scratch cell of a saved context, to a die that is not UP or to a slot it may
not write it is dropped and counted with its reason; a bridge in RETRAIN holds it. -/
def Says.SignalDelivery : Prop :=
  (∀ (s : State) (k : Nat), s.sch.signals[k]? = none → exec (.signalDelivery k) s = .next s) ∧
  (∀ (s : State) (k : Nat) (g : Signal), s.sch.signals[k]? = some g →
    let behind := ∃ h ∈ s.sch.signals.take k, h.target = none ∧ h.src = g.src ∧ h.core = g.core ∧ h.cell = g.cell ∧ h.node = g.node
    (g.target ≠ none ∨ behind ∨ s.sigHeld g = true → exec (.signalDelivery k) s = .next s) ∧
    (g.target = none → ¬ behind → s.sigHeld g = false →
      (g.node = none → exec (.signalDelivery k) s = .next (s.applySignal k g)) ∧
      (∀ n, g.node = some n →
        let gone : State := { s with sch.signals := s.sch.signals.eraseIdx k }
        let sent := gone.sendTo n.toNat 1 g.tenant g.conf (sigPayload g.core g.cell g.v)
        (g.conf = true → s.key.rackTrusted = false → exec (.signalDelivery k) s = .next (gone.dropSignal 4)) ∧
        ((g.conf = false ∨ s.key.rackTrusted = true) →
          (∀ t, sent = some t → exec (.signalDelivery k) s = .next t) ∧
          (sent = none → exec (.signalDelivery k) s = .next (gone.dropSignal 3)))))) ∧
  ∀ (s : State) (g : Signal) (rest : List Signal), s.sch.signals = g :: rest → g.target = none → g.node = none →
    let drop := fun (r : Nat) (t : State) => t.sch.signals = rest ∧ t.sch.sigDrop = satInc s.sch.sigDrop ∧
      t.sch.syncErr = setBit s.sch.syncErr r ∧ t.cores = s.cores ∧ t.mem = s.mem ∧ t.jobs = s.jobs
    (s.sigHeld g = true → exec (.signalDelivery 0) s = .next s) ∧
    (s.dieHeld (g.src / 16) = true → s.sigTarget g.core g.tenant = none → g.core / 16 ≠ g.src / 16 → s.sigHeld g = true) ∧
    (s.sigHeld g = false →
    (s.sigTarget g.core g.tenant = none → ∃ t, exec (.signalDelivery 0) s = .next t ∧ drop (if s.dieUp (g.core / 16) then 1 else 3) t) ∧
    (∀ j x, s.sigTarget g.core g.tenant = some j → s.job j = some x → (g.epoch ≠ none ∧ x.epoch ≠ g.epoch ∨ x.st = .waiting) →
      ∃ t, exec (.signalDelivery 0) s = .next t ∧ drop (if s.dieUp (g.core / 16) then 1 else 3) t) ∧
    (∀ j x c, s.sigTarget g.core g.tenant = some j → s.job j = some x → (g.epoch = none ∨ x.epoch = g.epoch) →
      (x.st = .running c ∨ x.st = .saving c) → s.dieUp (c / 16) = false → ∃ t, exec (.signalDelivery 0) s = .next t ∧ drop 3 t) ∧
    (∀ j x c, s.sigTarget g.core g.tenant = some j → s.job j = some x → (g.epoch = none ∨ x.epoch = g.epoch) →
      (x.st = .running c ∨ x.st = .saving c) → s.dieUp (c / 16) = true →
      exec (.signalDelivery 0) s = .next ((({ s with sch.signals := rest } : State).addCell c g.cell g.v).wake c)) ∧
    (∀ j x c, s.sigTarget g.core g.tenant = some j → s.job j = some x → (g.epoch = none ∨ x.epoch = g.epoch) →
      (x.st = .running c ∨ x.st = .saving c) → s.dieUp (c / 16) = true → (s.core c).wait = none →
      ∃ t, exec (.signalDelivery 0) s = .next t ∧ t.sch.signals = rest ∧ t.mem = s.mem ∧ t.jobs = s.jobs ∧
        t.core c = { s.core c with
          sync := tset 0 (s.core c).sync g.cell (satN 32 ((tget 0 (s.core c).sync g.cell).toNat + g.v))
          events := setBit (s.core c).events 0 } ∧
        (∀ q, q ≠ c → t.core q = s.core q) ∧
        ((tget 0 (s.core c).sync g.cell).toNat + g.v ≤ 0xFFFFFFFF → t.sch.syncErr = s.sch.syncErr) ∧
        (0xFFFFFFFF < (tget 0 (s.core c).sync g.cell).toNat + g.v → t.sch.syncErr = setBit s.sch.syncErr 0)) ∧
    (∀ j x, s.sigTarget g.core g.tenant = some j → s.job j = some x → (g.epoch = none ∨ x.epoch = g.epoch) → x.st = .saved →
      (16 ≤ g.cell → ∃ t, exec (.signalDelivery 0) s = .next t ∧ drop 2 t) ∧
      (∀ y i, g.cell < 16 → x.saved = some y → y.job = some i → ∃ t, exec (.signalDelivery 0) s = .next t ∧ t.sch.signals = rest ∧
        t.cores = s.cores ∧ t.mem = s.mem ∧ t.job j = some { x with
          saved := some { y with sync := tset 0 y.sync g.cell (satN 32 ((tget 0 y.sync g.cell).toNat + g.v)) } }) ∧
      (∀ q, g.cell < 16 → (∀ y, x.saved = some y → y.job = none) → s.saveDeny x.tenant (x.slotAddr + 0x140 + 4 * g.cell) 4 true = some q →
        ∃ t, exec (.signalDelivery 0) s = .next t ∧ t.sch.signals = rest ∧ t.cores = s.cores ∧ t.mem = s.mem ∧ t.jobs = s.jobs ∧
          t.sch.sigDrop = satInc s.sch.sigDrop ∧ t.sch.syncErr = setBit s.sch.syncErr 3) ∧
      (g.cell < 16 → (∀ y, x.saved = some y → y.job = none) → s.saveDeny x.tenant (x.slotAddr + 0x140 + 4 * g.cell) 4 true = none →
        ∃ t, exec (.signalDelivery 0) s = .next t ∧ t.sch.signals = rest ∧ t.cores = s.cores ∧ t.jobs = s.jobs ∧
          (let a := x.slotAddr + 0x140 + 4 * g.cell
           t.mem = (State.devWrite a (toLe 4 (min (leNat (s.devRead a 4) + g.v) 0xFFFFFFFF)) { s with sch.signals := rest }).mem))) ∧
    (∀ j x c, s.sigTarget g.core g.tenant = some j → s.job j = some x → (g.epoch = none ∨ x.epoch = g.epoch) → x.st = .restoring c →
      exec (.signalDelivery 0) s = .next { s with sch.signals := { g with target := some j } :: rest }))

/-- SWAIT (R270, R271, R277): it consumes its value once the cell holds it, at its deadline too; else at its deadline it writes 0 and leaves the
cell, unless a signal that meets it arrives in the same cycle. -/
def Says.SyncWaits : Prop :=
  ∀ (s : State) (k : Fin 64) (w : W128),
    let x := s.core k
    let faults := fun (f : Nat) => Host.Outcome.next (if s.dmasHeld k then s else s.tileFault k f x.pc)
    let cell := fld w 16 5
    let v := fld w 64 16
    let have_ := (tget 0 x.sync cell).toNat
    let took := fun (n : Nat) (x : Core) => { x with sync := tset 0 x.sync cell (BitVec.ofNat 32 (n - v)), p := tset false x.p (fld w 12 2) true }
    (TileAt s k w 0x61 →
      (v = 0 → exec (.tileSwait k) s = faults 0x10) ∧
      (v ≠ 0 → v ≤ have_ → exec (.tileSwait k) s = .next ((s.modCore k (took have_)).retire k none)) ∧
      (v ≠ 0 → have_ < v →
        let dl : Option W32 := if fld w 96 32 = 0 then none else some (BitVec.ofNat 32 (fld w 96 32))
        exec (.tileSwait k) s = .next (s.modCore k (fun x => { x with wait := some { op := 0x61, word := w, deadline := dl } })))) ∧
    (∀ u d, x.wait = some u → u.op = 0x61 → u.deadline = some d → x.phase = .running → u.word = w →
      (v ≤ have_ → ∀ b, exec (.swaitTimeout k b) s = .next ((s.modCore k (took have_)).waitEnds k)) ∧
      (have_ < v →
      exec (.swaitTimeout k false) s = .next ((s.modCore k (fun x => x.wrP (fld w 12 2) false)).waitEnds k) ∧
      (s.sch.signals = [] → exec (.swaitTimeout k true) s = .next ((s.modCore k (fun x => x.wrP (fld w 12 2) false)).waitEnds k)) ∧
      (∀ (j : Nat) (y : Job) (g : Signal), x.job = some j → s.job j = some y → y.st = .running k → s.sch.signals = [g] → g.target = none →
        (g.epoch = none ∨ y.epoch = g.epoch) → g.node = none → g.cell = cell → g.core = k → g.tenant = y.tenant → s.dieUp (k / 16) = true → s.sigHeld g = false →
        x.loops = [] → v ≤ have_ + g.v → have_ + g.v ≤ 0xFFFFFFFF →
        ∃ t, exec (.swaitTimeout k true) s = .next t ∧ tget false (t.core k).p (fld w 12 2) = true ∧ (t.core k).wait = none ∧
          (tget 0 (t.core k).sync cell).toNat = have_ + g.v - v ∧ (t.core k).pc = x.pc + 1 ∧ t.obs.tie = satInc s.obs.tie))) ∧
    (x.wait = none → ∀ b, exec (.swaitTimeout k b) s = .next s)

/-- TWAIT and WAIT (R247, R248): a compare armed on the timebase; when it reaches the core TWAIT writes its late count and SKIPPED; WAIT retires on
a pending event it includes and takes it, or on a compare of the die's that fires as it is armed, or waits; a compare that reaches a core that waits no more, or whose wait ended first, stays pending as
its event. -/
def Says.TimedWaits : Prop :=
  ∀ (s : State) (k : Fin 64) (w : W128),
    let x := s.core k
    let faults := fun (f : Nat) => Host.Outcome.next (if s.dmasHeld k then s else s.tileFault k f x.pc)
    let tb := fun i => if i = 2 then Timebase.clc else if i = 3 then Timebase.mpc else Timebase.sfc
    let target := fun (b : Timebase) (base reg : Nat) => (base + (tget 0 x.a (fld w reg 4)).toNat + w.toNat / 2 ^ 64) %
      (match b with | .sfc => 2 ^ 48 | .clc => 2 ^ 32 | .mpc => 2 ^ 48)
    (TileAt s k w 0x62 → fld w 16 2 ≠ 0 →
      (fld w 16 2 = 3 → s.rev2 = false → exec (.tileTwait k) s = faults 0x0E) ∧
      ((fld w 16 2 = 3 → s.rev2 = true) →
        let b := tb (fld w 16 2)
        let v := target b (if bit w 18 then s.tbFor b (.core k) else 0) 20
        exec (.tileTwait k) s = .next ((s.arm b v (.core k)).modCore k (fun x =>
          { x with wait := some { op := 0x62, word := w, target := BitVec.ofNat 64 v } })))) ∧
    (∀ dz, TileAt s k w 0x63 →
      let ev : BitVec 3 := BitVec.ofNat 3 (fld w 16 3)
      let b := tb (fld w 20 2)
      (ev = 0 → exec (.tileWait k dz) s = faults 0x10) ∧
      (bit ev 1 = true → fld w 20 2 = 3 → s.rev2 = false → exec (.tileWait k dz) s = faults 0x0E) ∧
      (ev ≠ 0 → (bit ev 1 = true → fld w 20 2 = 3 → s.rev2 = true) →
        (x.events &&& ev ≠ 0 → exec (.tileWait k dz) s =
          .next ((s.modCore k (fun x => { x with events := x.events &&& ~~~ ev })).retire k none)) ∧
        (x.events &&& ev = 0 → bit ev 1 = false → exec (.tileWait k dz) s = .next (s.modCore k (fun x =>
          { x with wait := some { op := 0x63, word := w }, dozeRc := if x.doze then satAdd x.dozeRc dz else x.dozeRc }))) ∧
        (x.events &&& ev = 0 → bit ev 1 = true → b = .sfc → s.reachedNow b (.core k) (target b 0 24) = true →
          exec (.tileWait k dz) s = .next (s.retire k none)) ∧
        (x.events &&& ev = 0 → bit ev 1 = true → (b = .sfc → s.reachedNow b (.core k) (target b 0 24) = false) → ∃ t, exec (.tileWait k dz) s = .next t ∧
          t.tb = (s.arm b (target b 0 24) (.core k)).tb ∧ ∃ u, (t.core k).wait = some u ∧ u.op = 0x63 ∧ u.word = w))) ∧
    (∀ late skipped u, x.wakeMsg = some (late, skipped) → s.dieHeld (k / 16) = false → x.phase = .running → x.wait = some u →
      (u.op = 0x62 → u.word = w → exec (.compareWakeMessage k) s = .next ((s.modCore k (fun x => { x with
        wakeMsg := none
        a := tset 0 x.a (fld w 24 4) (BitVec.ofNat 64 late)
        p := tset false x.p (fld w 12 2) skipped })).waitEnds k)) ∧
      (u.op = 0x63 → u.word = w → bit w 17 = true → x.events = 0 → exec (.compareWakeMessage k) s =
        .next ((s.modCore k (fun x => { x with wakeMsg := none, events := 0 })).waitEnds k))) ∧
    (∀ late skipped, x.wakeMsg = some (late, skipped) →
      (s.dieHeld (k / 16) = true → exec (.compareWakeMessage k) s = .next s) ∧
      (s.dieHeld (k / 16) = false → x.phase = .running → x.wait = none → exec (.compareWakeMessage k) s =
        .next (s.modCore k (fun x => { x with wakeMsg := none, events := setBit x.events 1 }))) ∧
      ((s.waitEnds k).core k).events = setBit x.events 1) ∧
    (x.wakeMsg = none → ((s.waitEnds k).core k).events = x.events ∧ exec (.compareWakeMessage k) s = .next s)

/-- The detector (R272-R275, R279): with a quiet part, no deadline near and nothing arriving it fails every waiting context of a candidate die,
records those cores and counts; an arrival in the firing cycle wins; switched off or with traffic it does nothing. -/
def Says.DeadlockDetector : Prop :=
  ∀ (s : State),
    (∀ near arr, (s.sch.dlEn = false ∨ s.quiet = false ∨ near = true) → exec (.deadlockDetect near arr) s = .next s) ∧
    (s.sch.dlEn = true → s.quiet = true → exec (.deadlockDetect false true) s = .next s.tie) ∧
    (s.sch.dlEn = true → s.quiet = true → ∃ (cs : List Nat) (last : W64),
      (∀ c, c ∈ cs ↔ c < 64 ∧ s.dieCandidate (c / 16) = true ∧ (s.core c).waitsQuietly = true) ∧
      (∀ c, c < 64 → (bit last c = true ↔ c ∈ cs)) ∧
      let u := cs.foldl (fun u c => match (u.core c).job with | some j => u.failJob j 0x0504 [] 6 false | none => u)
        (State.trigger s s 3 0 s.sch.dlRack)
      exec (.deadlockDetect false false) s =
        .next ({ u with sch.dlLast := last, sch.dlCount := satInc u.sch.dlCount }.errSync 5)) ∧
    (s.sch.signals ≠ [] → s.quiet = false) ∧
    (∀ d, d < 4 → s.dieHeld d = true → s.quiet = false) ∧
    (s.itk.run ≠ none → s.quiet = false) ∧
    (∀ d c, d < 4 → c / 16 = d → s.dieUp d = true → (s.core c).phase = .running → (s.core c).waitsQuietly = false → s.quiet = false) ∧
    (∀ v : BitVec 32, (fld v 8 16 = 0 → exec (.schDlCtrlWrite v) s = .next (s.errSync 6)) ∧
      (fld v 8 16 ≠ 0 → exec (.schDlCtrlWrite v) s = .next { s with
        sch.dlEn := bit v 0
        sch.dlRack := bit v 1
        sch.dlWindow := BitVec.ofNat 16 (fld v 8 16) }))

/-! ### Operators and the KV cache (chapters 12, 15) -/

/-- RUN_OP (R311-R313, R321, R360, R376, R385, R403): a legal block whose tensors lie in the tenant's windows makes J jobs, at most MAX_CORES,
that wait for cores, once its statistics records are zeroed and the record STATE of a recurrent operator is read; ATTENTION takes its rows
first, and on a spread pool the other shares are asked before; the refusals; a member of an epoch that aborts starts no job. -/
def Says.RunOp : Prop :=
  (∀ (s : State) (c : Cmd), Ready s c 0x0040 →
    let b := begun s c
    let g := going c
    let att := fun (x : OpBlk) => x.id = 0x0400
    (checkRunOp s c = none → s.dying c = true → exec (.runOp c.id) s = .next b) ∧
    (checkRunOp s c = none → s.dying c = false → (∀ x ∈ opBlocks c.params, ¬ att x) →
      (∀ u, b.zeroRecs g = some u → ∃ t st, exec (.runOp c.id) s = .next t ∧ t.sch.nextJob = u.sch.nextJob + opJobs c.params ∧
        t.cmds = (u.modCmd c.id (fun d => { d with opState := st })).cmds ∧ t.mem = u.mem ∧ t.cores = u.cores ∧
        (∀ x, opBlocks c.params = [x] → st = if x.recur then (x.t x.recIdx).bytes (u.agentRead (u.cmdAgent g)) else []) ∧
        (∀ i, i < opJobs c.params → ∃ y, t.job (u.sch.nextJob + i) = some y ∧ y.kind = .op c.id i ∧ y.st = .waiting ∧ y.tenant = c.tenant ∧
          y.cls = c.cls ∧ y.epoch = c.epoch ∧ y.elig = u.sch.nextElig + i) ∧
        (∀ k, k < u.sch.nextJob ∨ u.sch.nextJob + opJobs c.params ≤ k → t.job k = u.job k)) ∧
      (∀ e, c.epoch = some e → b.zeroRecs g = none → exec (.runOp c.id) s = .next (b.hoardFull e))) ∧
    (g.statRanges = [] → b.zeroRecs g = some b) ∧
    (∀ r d, g.statRanges = [r] → c.epoch = none → b.access (b.cmdAgent g) 1 r.1 r.2 = none → b.region r.1 = .dm d →
      b.region (r.1 + r.2) = .dm d → ∃ u, b.zeroRecs g = some u ∧ (∀ i, i < r.2 → u.devByte (r.1 + i) = 0) ∧
        (∀ a, a < r.1 ∨ r.1 + r.2 ≤ a → u.devByte a = b.devByte a)) ∧
    (1 ≤ opJobs c.params ∧ (1 ≤ leAt c.params 4 1 → opJobs c.params ≤ leAt c.params 4 1)) ∧
    (∀ x p, checkRunOp s c = none → s.dying c = false → (opBlocks c.params).find? (fun x => x.id == 0x0400) = some x →
      s.poolFor c.tenant (x.a 0 2) = some p →
      let a := b.cmdAgent g
      (s.kvLost p = true → exec (.runOp c.id) s = .next (b.stopCmd g { oc := 4, rs := 0x0502 } false)) ∧
      (s.kvLost p = false → (∃ n ∈ s.poolPeers p, s.route n = none) →
        exec (.runOp c.id) s = .next (b.stopCmd g { oc := 4, rs := 0x0701 } false)) ∧
      (s.kvLost p = false → (∀ n ∈ s.poolPeers p, s.route n ≠ none) →
        (∀ d, b.startDeny a x p = some d →
          exec (.runOp c.id) s = .next ((b.noteDeny d).stopCmd g { oc := 4, rs := faultReason d.code } false)) ∧
        (b.startDeny a x p = none →
          (s.poolPeers p = [] → exec (.runOp c.id) s = .next ((b.attnStart g (x.a 0 2) x p a []).opStart g)) ∧
          (s.poolPeers p ≠ [] → exec (.runOp c.id) s = .next (b.askPeers g p 11 (toLe 8 p.share ++ b.attnInputs g x a)))))) ∧
    (c.params.length ≠ opLen c.params → exec (.runOp c.id) s = .next (s.complete c 3 0x0107)) ∧
    (opBlocksOk c.params = true → (∃ x ∈ opLinks c.params, att x.1 ∧ s.poolFor c.tenant (x.1.a 0 2) = none) →
      (∀ x ∈ opLinks c.params, att x.1 → s.poolFor c.tenant (x.1.a 0 2) = none) →
      exec (.runOp c.id) s = .next (s.complete c 3 0x0206)) ∧
    (∀ x p, opBlocksOk c.params = true → opLinks c.params = [(x, none)] → att x → s.poolFor c.tenant (x.a 0 2) = some p →
      (x.attnPoolOk p = false ∨ (c.epoch ≠ none ∧ p.spread ≠ 0 ∧ bitN (x.a 2 1) 1 = true)) →
      exec (.runOp c.id) s = .next (s.complete c 3 0x0107)) ∧
    (∀ e ∈ opLinks c.params, opBlocksOk c.params = true → (∀ e ∈ opLinks c.params, s.attnRefusal c e.1 = none) →
      (∀ r ∈ e.1.tableRanges, s.paramOk c.tenant 0 r = true) → e.1.tablesOk s.devRead e.2 = false →
      exec (.runOp c.id) s = .next (s.complete c 3 0x0107)) ∧
    (opBlocksOk c.params = true → (∀ e ∈ opLinks c.params, s.attnRefusal c e.1 = none) →
      (∀ e ∈ opLinks c.params, (∀ r ∈ e.1.tableRanges, s.paramOk c.tenant 0 r = true) → e.1.tablesOk s.devRead e.2 = true) →
      ((∃ e ∈ opLinks c.params, ∃ r ∈ e.1.inRanges, s.paramOk c.tenant 0 r = false) ∨
        (∃ e ∈ opLinks c.params, ∃ r ∈ e.1.outRanges, s.paramOk c.tenant 1 r = false)) →
      exec (.runOp c.id) s = .next (s.complete c 3 0x0505)) ∧
    (opBlocksOk c.params = true → (∀ e ∈ opLinks c.params, s.attnRefusal c e.1 = none ∧ e.1.tablesOk s.devRead e.2 = true ∧
        (∀ r ∈ e.1.inRanges, s.paramOk c.tenant 0 r = true) ∧ (∀ r ∈ e.1.outRanges, s.paramOk c.tenant 1 r = true)) →
      s.noCore c.tenant = true → exec (.runOp c.id) s = .next (s.complete c 3 0x0203))) ∧
  (∀ (s : State) (hd : Nat) (x : OpBlk) (rd : Rd) (p : Pool) (e : Option Nat) (seqs qlens : List Nat) (i : Nat), i < seqs.length →
    bitN (x.a 2 1) 1 = false →
    let q := seqs.getD i 0
    let o := s.attnRows hd x rd p e seqs qlens []
    o.2.2 = s ∧ o.2.1 = [] ∧ o.1.length = seqs.length ∧
    ((p.maxSeq ≤ q ∨ s.seqUsed p q = false) → o.1[i]? = some ⟨0x0206, 0, 0, []⟩) ∧
    (q < p.maxSeq → s.seqUsed p q = true → (x.t 0).d2 < qlens.getD i 0 → o.1[i]? = some ⟨0x0107, 0, 0, []⟩) ∧
    (q < p.maxSeq → s.seqUsed p q = true → qlens.getD i 0 ≤ (x.t 0).d2 →
      let n := s.seqLen p q + s.seqTlen p q
      o.1[i]? = some ⟨0, n, n, s.rowPages p q n⟩)) ∧
  (∀ (s : State) (hd : Nat) (x : OpBlk) (rd : Rd) (p : Pool) (e : Option Nat) (q row n : Nat), 0 < n →
    let len := s.seqLen p q
    let tl := s.seqTlen p q
    let num := match e with | some k => (s.epoch k).number.toNat | none => 0
    (tl ≠ 0 → s.seqEpoch p q ≠ num → s.kvAppend hd x rd p e q row n = (0x0402, [], s)) ∧
    ((tl = 0 ∨ s.seqEpoch p q = num) → ((e ≠ none ∧ 64 < tl + n) ∨ p.maxBlocks * 64 < len + tl + n) →
      s.kvAppend hd x rd p e q row n = (0x0107, [], s)) ∧
    (∀ st ep h k, (∀ r, s.kvAlloc p st h ep = some r → s.kvTake hd p e st ep h (k + 1) = (some r.1, r.2)) ∧
      (s.kvAlloc p st h ep = none →
        (s.reclaimable hd p e = none → s.kvTake hd p e st ep h (k + 1) = (none, s)) ∧
        (∀ f, s.reclaimable hd p e = some f → s.kvTake hd p e st ep h (k + 1) = (s.reclaim f).kvTake hd p e st ep h k))))

/-- The fields of an operator block that R312 refuses: counts outside Table 12.1, a tensor entry outside Table 12.2, an unknown operator. -/
def Says.OperatorBlocks : Prop :=
  ∀ (b : List Byte),
    ((leAt b 2 1 = 0 ∨ 16 < leAt b 2 1 ∨ 8 < leAt b 3 1 ∨ leAt b 4 1 = 0 ∨ 64 < leAt b 4 1 ∨ 1 < leAt b 5 1 ∨ 64 < leAt b 6 2 ∨
      leAt b 6 2 % 8 ≠ 0) → opBlocksOk b = false) ∧
    (zerosAt b 8 8 = false → opBlocksOk b = false) ∧
    (∀ i, i < leAt b 2 1 → (2 ^ 40 ≤ leAt b (16 + 32 * i) 8 ∨ 4 < leAt b (16 + 32 * i + 9) 1 ∨ leAt b (16 + 32 * i + 10) 2 ≠ 0 ∨
      (0xA < leAt b (16 + 32 * i + 8) 1 ∧ leAt b (16 + 32 * i + 8) 1 ≠ 0xFF)) → opBlocksOk b = false) ∧
    ((∀ n ∈ [0x0100, 0x0101, 0x0110, 0x0111, 0x0112, 0x0113, 0x0200, 0x0201, 0x0202, 0x0203, 0x0210, 0x0211, 0x0220, 0x0221, 0x0230, 0x0231,
      0x0300, 0x0301, 0x0302, 0x0400, 0x0500, 0x0501, 0x0502, 0x0503], leAt b 0 2 ≠ n) → leAt b 5 1 = 0 → opBlocksOk b = false)

/-- Matrix operators (R316): an element of the product is what MMA accumulates for its row of A and its row of B, in each layout of B, with
A or B shared by the batch, and in groups. Whole rows (R317): SOFTMAX, TOPK, which gives the k largest in order, the lower index first among
equals and a NaN last, and the exponential, exact on NaN and infinities and within R317's bound elsewhere. -/
def Says.MatrixAndRows : Prop :=
  (∀ (x : OpBlk) (rd : Rd) (geo : Geo) (fa : Nat) (a : List (List FV)), ∀ i m n, i < geo.b → m < geo.w → n < geo.c →
    let f := x.a 1 1
    let g := grpSize (x.a 0 1)
    let ia := if f.testBit 1 then m else i * geo.w + m
    let ib := if f.testBit 2 then 0 else i
    let b := (x.t 1).mat rd
    let col := if f.testBit 0 then (List.range geo.k).map (fun k => (b.getD (ib * geo.k + k) []).getD n .nan) else b.getD (ib * geo.c + n) []
    ((x.matRows rd geo fa a).getD (i * geo.w + m) []).getD n (0, false) =
      accWord (fmtFloat fa) g true 0 (a.getD ia []) col
        (if g = 0 then [] else (((x.t 3).mat rd).getD ia []).map scale16)
        (if g = 0 then [] else (((x.t 4).mat rd).getD (ib * geo.c + n) []).map scale16)) ∧
  (∀ v : List FV, (softmaxRow v).length = v.length ∧ (.nan ∈ v → ∀ y ∈ softmaxRow v, y = .nan) ∧
    ((∀ y ∈ v, y = .inf true) → ∀ y ∈ softmaxRow v, y = .fin false 0 0) ∧
    (.nan ∉ v → (∃ y ∈ v, y ≠ .inf true) →
      let m := v.foldl fmax (.inf true)
      softmaxRow v = (v.map (fun y => exp32 (sub32 y m))).map (fun y => div32 y (sumUp (v.map (fun y => exp32 (sub32 y m))))))) ∧
  (exp32 .nan = .nan ∧ exp32 (.inf true) = .fin false 0 0 ∧ exp32 (.inf false) = .inf false) ∧
  (∀ n m e, expOk (expNear n m e) (exp32 (.fin n m e)) = true ∨ exp32 (.fin n m e) = rnd32 (expNear n m e)) ∧
  (∀ (v : List FV) (k : Nat), k ≤ v.length →
    (topIdx k v).length = k ∧ (topIdx k v).Nodup ∧ (∀ i ∈ topIdx k v, i < v.length) ∧
    (topIdx k v).Pairwise (fun i j => topBefore (i, v.getD i .nan) (j, v.getD j .nan) = true) ∧
    (∀ i ∈ topIdx k v, ∀ j, j < v.length → j ∉ topIdx k v → topBefore (i, v.getD i .nan) (j, v.getD j .nan) = true)) ∧
  (∀ (i j : Nat) (p : FV), topBefore (i, p) (j, p) = decide (i ≤ j) ∧ (p ≠ .nan → topBefore (i, p) (j, .nan) = true ∧
    topBefore (i, .nan) (j, p) = false))

/-- The end of an operator (R226, R291, R306, R313-R315, R327, R383, R385, R400, R403): a job that is not the last only ends; the last one
writes the outputs and the command completes with J and the bits of R314, or its epoch aborts where the Hoard has no page; a saturation sets
ACC_SAT on the core of a slice, at the latest on the last one's; an access that is denied faults on a slice, at the latest on the last one; of
two slices that fault in one cycle both cores record theirs and the lower slice's gives the command's reason. (Which slice meets it, and at
which library instruction, is a free value, log 3.) It waits for a retraining bridge and for the shares of a spread pool, and fails with the
first of a share's reasons; a job whose epoch aborts does not end. -/
def Says.OperatorEnds : Prop :=
  ∀ (s : State) (k : Fin 64) (j id : Nat) (x : Job) (i : Nat) (tie : Option (Fin 64)), (s.core k).job = some j → s.job j = some x →
    x.kind = .op id i → ∀ s0 : State, ((s.core k).phase = .running ∧ s0 = s) ∨ ((s.core k).phase = .saving ∧ s0 = s.tie) →
    let b : State := { s0 with fresh := s0.fresh + 1 }
    (s.stopped k = true → exec (.tileEnd k tie) s = .next s) ∧
    (s.stopped k = false → s0.cmd id = none → exec (.tileEnd k tie) s = .next (s0.endJob j false)) ∧
    (∀ c, s.stopped k = false → s0.cmd id = some c →
      ((s0.opHeld k c = true ∨ ∃ e ∈ c.shares, e.ans = none) → exec (.tileEnd k tie) s = .next s0) ∧
      (s0.opHeld k c = false → (∀ e ∈ c.shares, e.ans ≠ none) →
        (∀ u v e rs d, c.shares = u ++ e :: v → (∀ h ∈ u, ∃ d, h.ans = some (0, d)) → e.ans = some (rs, d) → rs ≠ 0 →
          exec (.tileEnd k tie) s = .next (s0.stopCmd c { oc := 4, rs := rs } false)) ∧
        ((∀ h ∈ c.shares, ∃ d, h.ans = some (0, d)) →
          let marked := (b.errQuant k).modCmd c.id (fun c => { c with opSat := true })
          let l := s0.opFaults x.agent c
          let noted := fun (d : Option Deny) (u : State) => match d with | some d => u.noteDeny d | none => u
          (l = [] → ∃ o u, s0.opOut x.agent c = some o ∧ (u = b ∨ u = marked) ∧ (o.bits.accSat = false → u = b) ∧
            (o.bits.accSat = true → c.opSat = false → (s0.jobsOf id).length = 1 → u = marked) ∧
            (1 < (s0.jobsOf id).length → exec (.tileEnd k tie) s = .next (u.endJob j false)) ∧
            ((s0.jobsOf id).length = 1 →
              let written := o.writes.foldl (fun (t : Option State) w => t.bind (fun s => s.agentWrite x.agent (k / 16) w.1 w.2)) (some u)
              (∀ t, written = some t → exec (.tileEnd k tie) s = .next (((t.endJob j false).kvUnpinCmd c.id).servedWith c o.rs
                (toLe 2 (opJobs c.params) ++ toLe 1 o.bits.byte ++ List.replicate 5 0))) ∧
              (∀ e, x.epoch = some e → written = none → exec (.tileEnd k tie) s = .next ((u.hoardFull e).endJob j false)))) ∧
          (l ≠ [] → s0.opTie k id tie = none → (∃ f ∈ l, ∃ pc, exec (.tileEnd k tie) s = .next ((noted f.1 b).tileFault k f.2 pc)) ∨
            (1 < (s0.jobsOf id).length ∧ exec (.tileEnd k tie) s = .next (b.endJob j false))) ∧
          (∀ q m, l ≠ [] → s0.opTie k id tie = some (q, m) → ∃ f ∈ l, ∃ g ∈ l, ∃ pc pc',
            let lo := if i < m then k.val else q
            let hi := if i < m then q else k.val
            exec (.tileEnd k tie) s = .next (((noted f.1 ((noted g.1 b).coreFault hi g.2 pc')).tileFault lo f.2 pc).faultHold hi)) ∧
          (∀ d ∈ l, ∀ e, d.1 = some e → d.2 = e.code) ∧ (∀ d ∈ l, d.1 = none → d.2 = 0x11))))

/-- KV_POOL_CREATE and KV_POOL_DESTROY (R368-R371, R385): the handle is the lowest free one and the control area is that of an empty pool: every
page FREE, the list ascending, no sequence in use; a spread pool asks the other parts for their shares first; a pool that is gone leaves no
epoch with tentative positions in it; the refusals. -/
def Says.KvPools : Prop :=
  (∀ (s : State) (c : Cmd), Ready s c 0x0050 →
    let p := c.poolOf
    let b := begun s c
    (checkPoolCreate s c = none → s.poolPeers p = [] →
      (∀ h, b.saveDeny c.tenant p.ctrl p.ctrlLen true = none → freeIndex s.pools 256 = some h →
        exec (.kvPoolCreate c.id) s = .next (({ (State.devWrite p.ctrl p.fresh b) with
          pools := tset none s.pools h (some { p with share := c.id }) } : State).served (going c) (res2 h))) ∧
      (∀ d, b.saveDeny c.tenant p.ctrl p.ctrlLen true = some d →
        exec (.kvPoolCreate c.id) s = .next ((b.noteDeny d).complete (going c) 4 (faultReason d.code)))) ∧
    (checkPoolCreate s c = none → s.poolPeers p ≠ [] → exec (.kvPoolCreate c.id) s = .next (b.askPeers (going c) p 8 c.params)) ∧
    ((c.params.length ≠ 96 ∨ leAt c.params 0 8 % 64 ≠ 0 ∨ leAt c.params 16 4 = 0 ∨ 65536 < leAt c.params 16 4 ∨ leAt c.params 20 1 < 6 ∨
      9 < leAt c.params 20 1 ∨ leAt c.params 22 2 % 8 ≠ 0 ∨ 128 < leAt c.params 22 2 ∨ leAt c.params 24 2 = 0 ∨ 2 < leAt c.params 28 1) →
      exec (.kvPoolCreate c.id) s = .next (s.complete c 3 0x0107)) ∧
    (s.poolOk c = true → (s.paramRw c.tenant p.base (p.npages * p.pb) = false ∨ s.paramRw c.tenant p.ctrl p.ctrlLen = false) →
      exec (.kvPoolCreate c.id) s = .next (s.complete c 3 0x0505)) ∧
    (s.poolOk c = true → s.paramRw c.tenant p.base (p.npages * p.pb) = true → s.paramRw c.tenant p.ctrl p.ctrlLen = true →
      (s.poolPeers p ≠ [] → s.confidential c.tenant = true → s.key.rackTrusted = false →
        exec (.kvPoolCreate c.id) s = .next (s.complete c 3 0x0607)) ∧
      ((s.confidential c.tenant = false ∨ s.key.rackTrusted = true) → (∃ n ∈ s.poolPeers p, s.route n = none) →
        exec (.kvPoolCreate c.id) s = .next (s.complete c 3 0x0702)) ∧
      (s.poolPeers p = [] → freeIndex s.pools 256 = none → exec (.kvPoolCreate c.id) s = .next (s.complete c 3 0x0204)))) ∧
  (∀ p : Pool, 1 ≤ p.npages → p.npages ≤ 65536 → p.fresh.length = p.ctrlLen ∧ leAt p.fresh 0 4 = 0 ∧ leAt p.fresh 4 4 = p.npages ∧
    (∀ g, g + 1 < p.npages → leAt p.fresh (64 + 16 * g) 4 = g + 1) ∧ leAt p.fresh (64 + 16 * (p.npages - 1)) 4 = 0xFFFFFFFF ∧
    (∀ g, g < p.npages → leAt p.fresh (64 + 16 * g + 4) 12 = 0) ∧
    (∀ i, 64 + 16 * p.npages ≤ i → p.fresh.getD i 0 = 0)) ∧
  (∀ (s : State) (c : Cmd), Ready s c 0x0051 →
    let h := leAt c.params 0 2
    ((c.params.length ≠ 8 ∨ zerosAt c.params 2 6 = false) → exec (.kvPoolDestroy c.id) s = .next (s.complete c 3 0x0107)) ∧
    (c.params.length = 8 → zerosAt c.params 2 6 = true →
      (s.pool h = none → exec (.kvPoolDestroy c.id) s = .next (s.complete c 3 0x0206)) ∧
      (∀ p, s.pool h = some p → p.tenant ≠ c.tenant → exec (.kvPoolDestroy c.id) s = .next (s.complete c 3 0x0206)) ∧
      (∀ p, s.pool h = some p → p.tenant = c.tenant →
        (s.kvLost p = false → (s.poolBusy h = true ∨ ∃ q, q < p.maxSeq ∧ s.seqTlen p q ≠ 0) →
          exec (.kvPoolDestroy c.id) s = .next (s.complete c 3 0x0402)) ∧
        ((s.kvLost p = true ∨ (s.poolBusy h = false ∧ ∀ q, q < p.maxSeq → s.seqTlen p q = 0)) →
          exec (.kvPoolDestroy c.id) s = .next (((begun s c).poolGone h).served (going c) [])))) ∧
    (∀ p, s.pool h = some p → s.poolPeers p = [] → let t := (begun s c).poolGone h
      t.pools = tset none s.pools h none ∧ t.mem = s.mem ∧
      (∀ e ∈ t.epochs, ∀ q ∈ e.2.seqs, q.1 ≠ h) ∧ t.epochs.length = s.epochs.length))

/-- The operations of KV_SEQ (R373, R374, R385, R389, R391): what each does to the sequence, and when it is refused; a spread pool's shares
take it first; a lost die, a lost route and a denied control area end it; an END in the cycle of FREE or TRUNCATE comes first. -/
def Says.KvSequences : Prop :=
  (∀ (s : State) (c : Cmd) (p : Pool), Ready s c 0x0052 → s.poolFor c.tenant (leAt c.params 2 2) = some p → s.kvLost p = false →
    c.params.length = 16 → zerosAt c.params 1 1 = true → zerosAt c.params 12 4 = true →
    let oper := leAt c.params 0 1
    let q := leAt c.params 4 2
    let src := leAt c.params 6 2
    let len := leAt c.params 8 4
    let b := begun s c
    let idle := fun v => (∀ a ∈ p.apps, v ∉ a.2) ∧ s.seqTlen p v = 0
    let live := fun v => v < p.maxSeq ∧ s.seqUsed p v = true
    let does := fun (one : State) =>
      if s.poolPeers p = [] then Host.Outcome.next (one.served (going c) [])
      else .next (b.askPeers (going c) p 10 (toLe 8 p.share ++ c.params))
    let free := (∀ n ∈ s.poolPeers p, s.route n ≠ none) ∧ b.saveDeny c.tenant p.ctrl p.ctrlLen true = none
    (oper = 0 → src = 0 → len = 0 →
      ((p.maxSeq ≤ q ∨ s.seqUsed p q = true) → exec (.kvSeqCreate c.id) s = .next (s.complete c 3 0x0107)) ∧
      (q < p.maxSeq → s.seqUsed p q = false →
        (free → exec (.kvSeqCreate c.id) s = does (b.kvNewSeq p q 0)) ∧
        ((∃ n ∈ s.poolPeers p, s.route n = none) → exec (.kvSeqCreate c.id) s = .next (b.complete (going c) 4 0x0701)) ∧
        (∀ d, (∀ n ∈ s.poolPeers p, s.route n ≠ none) → b.saveDeny c.tenant p.ctrl p.ctrlLen true = some d →
          exec (.kvSeqCreate c.id) s = .next ((b.noteDeny d).complete (going c) 4 (faultReason d.code))))) ∧
    (oper = 1 →
      (¬ live src → exec (.kvSeqFork c.id) s = .next (s.complete c 3 0x0206)) ∧
      (live src → (p.maxSeq ≤ q ∨ s.seqUsed p q = true ∨ s.seqLen p src < len) → exec (.kvSeqFork c.id) s = .next (s.complete c 3 0x0107)) ∧
      (live src → q < p.maxSeq → s.seqUsed p q = false → len ≤ s.seqLen p src →
        (idle src → free → exec (.kvSeqFork c.id) s = does (b.kvFork p (going c))) ∧
        (¬ idle src → exec (.kvSeqFork c.id) s = .next (s.complete c 3 0x0402)))) ∧
    (oper = 2 → src = 0 → len = 0 →
      (¬ live q → exec (.kvSeqFree c.id none) s = .next (s.complete c 3 0x0206)) ∧
      (live q → ¬ idle q → exec (.kvSeqFree c.id none) s = .next (s.complete c 3 0x0402)) ∧
      (live q → idle q → free → exec (.kvSeqFree c.id none) s = does ((b.kvDropFrom p q 0).devWrite (p.seqAt q) (List.replicate 64 0)))) ∧
    (oper = 3 → src = 0 →
      (¬ live q → exec (.kvSeqTruncate c.id none) s = .next (s.complete c 3 0x0206)) ∧
      (live q → s.seqLen p q < len → exec (.kvSeqTruncate c.id none) s = .next (s.complete c 3 0x0107)) ∧
      (live q → len ≤ s.seqLen p q → ¬ idle q → exec (.kvSeqTruncate c.id none) s = .next (s.complete c 3 0x0402)) ∧
      (live q → len ≤ s.seqLen p q → idle q → free → exec (.kvSeqTruncate c.id none) s = does (b.kvTruncate p (going c)))) ∧
    (oper = 4 → src = 0 → len = 0 →
      (¬ live q → exec (.kvSeqQuery c.id) s = .next (s.complete c 3 0x0206)) ∧
      (live q → free → exec (.kvSeqQuery c.id) s =
        .next (b.served (going c) (toLe 4 (s.seqLen p q) ++ toLe 4 (leNat (s.devRead (p.ctrl + 4) 4)))))) ∧
    (4 < oper → exec (.kvSeqCreate c.id) s = .next (s.complete c 3 0x0107))) ∧
  (∀ (s : State) (c : Cmd) (p : Pool), Ready s c 0x0052 → s.poolFor c.tenant (leAt c.params 2 2) = some p → s.kvLost p = true →
    c.params.length = 16 → zerosAt c.params 1 1 = true → zerosAt c.params 12 4 = true → leAt c.params 6 2 = 0 → leAt c.params 8 4 = 0 →
    let lost := Host.Outcome.next ((begun s c).complete (going c) 4 0x0502)
    (leAt c.params 0 1 = 0 → exec (.kvSeqCreate c.id) s = lost) ∧ (leAt c.params 0 1 = 2 → exec (.kvSeqFree c.id none) s = lost) ∧
    (leAt c.params 0 1 = 3 → exec (.kvSeqTruncate c.id none) s = lost) ∧ (leAt c.params 0 1 = 4 → exec (.kvSeqQuery c.id) s = lost)) ∧
  (∀ (s t : State) (id : Nat) (k : Fin 64), exec (.tileEnd k none) s = .next t →
    exec (.kvSeqFree id (some k)) s = exec (.kvSeqFree id none) t ∧ exec (.kvSeqTruncate id (some k)) s = exec (.kvSeqTruncate id none) t)

/-- Pages of a pool in DM (R372, R376, R389): a release decrements REFCNT and at 0 pushes the page at the head of the free list, or leaves it
RELEASING while it is pinned; the last unpin of a RELEASING page pushes it; an allocation takes the head. -/
def Says.KvPages : Prop :=
  ∀ (s : State) (p : Pool) (g : Nat), g < p.npages → p.npages ≤ 65536 → (∀ i, i < p.ctrlLen → ∃ d, s.region (p.ctrl + i) = .dm d) →
    let ref := s.kvR (p.ent g + 4) 2
    let pins := s.kvR (p.ent g + 6) 2
    let head := s.kvR p.ctrl 4
    let cnt := s.kvR (p.ctrl + 4) 4
    let pushed := fun (t : State) => t.kvR p.ctrl 4 = g ∧ t.kvR (p.ent g) 4 = head ∧ (cnt + 1 < 2 ^ 32 → t.kvR (p.ctrl + 4) 4 = cnt + 1) ∧
      t.kvR (p.ent g + 8) 1 = 0
    (1 < ref → let t := s.kvRelease p g
      t.kvR (p.ent g + 4) 2 = ref - 1 ∧ t.kvR p.ctrl 4 = head ∧ t.kvR (p.ctrl + 4) 4 = cnt ∧ t.kvR (p.ent g + 8) 1 = s.kvR (p.ent g + 8) 1) ∧
    (ref = 1 → pins = 0 → pushed (s.kvRelease p g)) ∧
    (ref = 1 → pins ≠ 0 → let t := s.kvRelease p g
      t.kvR (p.ent g + 4) 2 = 0 ∧ t.kvR (p.ent g + 8) 1 = 3 ∧ t.kvR (p.ent g + 12) 4 = 0 ∧ t.kvR (p.ent g + 6) 2 = pins ∧ t.kvR p.ctrl 4 = head) ∧
    (pins = 1 → s.kvR (p.ent g + 8) 1 = 3 → pushed (s.kvUnpin p g)) ∧
    (1 < pins → let t := s.kvUnpin p g
      t.kvR (p.ent g + 6) 2 = pins - 1 ∧ t.kvR p.ctrl 4 = head ∧ t.kvR (p.ent g + 8) 1 = s.kvR (p.ent g + 8) 1) ∧
    (pins < 65535 → (s.kvPin p g).kvR (p.ent g + 6) 2 = pins + 1) ∧
    (∀ st h ep, head = 0xFFFFFFFF → s.kvAlloc p st h ep = none) ∧
    (∀ st h ep, head = g → 0 < cnt → st < 256 → h < 256 → ep < 2 ^ 32 → ∃ t, s.kvAlloc p st h ep = some (g, t) ∧
      t.kvR p.ctrl 4 = s.kvR (p.ent g) 4 ∧ t.kvR (p.ctrl + 4) 4 = cnt - 1 ∧ t.kvR (p.ent g + 4) 2 = 1 ∧ t.kvR (p.ent g + 6) 2 = 0 ∧
      t.kvR (p.ent g + 8) 1 = st ∧ t.kvR (p.ent g + 10) 1 = h ∧ t.kvR (p.ent g + 12) 4 = ep)

/-! ### The cascade and its epochs (chapter 16) -/

/-- CASCADE_CONFIG (R393, Table 16.1): a well-formed rule is written with its level 0, and for a tier-0 source LEAN and FIRM are written to
the detector, whose level resets; a rule with LEAN above FIRM or of another length is refused with BAD_PARAM, and one that is enabled with
JOBS_ACTIVE. A program is stored from instruction 0 with START_PC (log 44: where it starts is the model's reading), and is refused with
JOBS_ACTIVE, and CTRL_REJECT set, while RUN is 1. RULE_EN sets the rule's enable, refused with BAD_HANDLE for a rule whose tenant does not
exist; SEQ_RUN stops the sequencer or starts it at START_PC, and leaves START_PC (R149, R397). -/
def Says.CascadeConfig : Prop :=
  ∀ (s : State) (c : Cmd),
    let p := c.params
    let r := leAt p 1 1
    let src := leAt p 3 1
    let shape := p.length = 48 ∧ leAt p 0 1 = 0 ∧ r < 16 ∧ leAt p 2 1 = 0 ∧ leAt p 4 1 < 64 ∧ (src % 4 = 1 ∨ src % 4 = 2) ∧ src / 4 % 4 = 0 ∧
      src < 128 ∧ 1 ≤ leAt p 7 1 ∧ leAt p 7 1 ≤ 64 ∧ 1 ≤ leAt p 8 4 ∧ leAt p 8 4 ≤ 1048576 ∧ (∃ t, s.tenant (leAt p 12 2) = some t) ∧
      s.hasProgram (leAt p 12 2) (leAt p 14 2) (leAt p 16 2) = true ∧ 1 ≤ leAt p 18 2 ∧ leAt p 18 2 ≤ 4096 ∧
      (leAt p 20 1 = 1 ∨ leAt p 20 1 = 2) ∧ (leAt p 21 1 < 64 ∨ leAt p 21 1 = 0xFF) ∧ zerosAt p 22 2 = true ∧ zerosAt p 32 16 = true
    (Ready s c 0x0060 → leAt p 0 1 = 0 →
      (p.length ≠ 48 ∨ leAt p 6 1 < leAt p 5 1 → exec (.cascadeConfigRule c.id) s = .next (s.complete c 3 0x0107)) ∧
      (shape → leAt p 5 1 ≤ leAt p 6 1 → (s.rule r).enabled = true →
        exec (.cascadeConfigRule c.id) s = .next (s.complete c 3 0x0402)) ∧
      (shape → leAt p 5 1 ≤ leAt p 6 1 → (s.rule r).enabled = false →
        ∃ y : Rule, exec (.cascadeConfigRule c.id) s = .next (((begun s c).modRule r (fun _ => y)).served (going c) []) ∧
          y.tier.toNat = src % 4 ∧ y.score = leAt p 4 1 ∧ y.lean_.toNat = leAt p 5 1 ∧ y.firm.toNat = leAt p 6 1 ∧ y.jobs = leAt p 7 1 ∧
          y.window = leAt p 8 4 ∧ y.tenant = leAt p 12 2 ∧ y.image = leAt p 14 2 ∧ y.entry = leAt p 16 2 ∧ y.hoard = leAt p 18 2 ∧
          y.cls = (if leAt p 20 1 = 1 then .interactive else .background) ∧ y.cq = leAt p 21 1 ∧ y.arg0 = BitVec.ofNat 64 (leAt p 24 8) ∧
          y.level = 0 ∧ y.enabled = false) ∧
      (p.length = 48 → r < 16 → leAt p 2 1 = 0 → src % 4 = 0 → src / 4 % 4 = 0 → src < 128 → leAt p 4 1 = 0 → leAt p 5 1 ≤ leAt p 6 1 →
        checkRule s c = none → ∃ y : Rule,
          let v : W32 := BitVec.ofNat 32 (leAt p 5 1 + 256 * leAt p 6 1)
          exec (.cascadeConfigRule c.id) s = .next (({ ((begun s c).modRule r (fun _ => y)) with
            aon.thr := tset thrReset s.aon.thr (src / 16) (v &&& 0xFFFF), aon.level := tset 0 s.aon.level (src / 16) 0 } : State).served (going c) []) ∧
          y.tier = 0 ∧ y.det.toNat = src / 16 ∧ y.level = 0 ∧ y.set_ = true)) ∧
    (Ready s c 0x0060 → leAt p 0 1 = 1 → (p.length < 8 ∨ leAt p 1 1 ≠ 0 ∨ 4096 ≤ leAt p 2 2 ∨ leAt p 4 4 = 0 ∨ 4096 < leAt p 4 4 ∨
        p.length ≠ 8 + 4 * leAt p 4 4) → exec (.cascadeConfigProgram c.id) s = .next (s.complete c 3 0x0107)) ∧
    (Ready s c 0x0060 → leAt p 0 1 = 1 → leAt p 1 1 = 0 → leAt p 2 2 < 4096 → 1 ≤ leAt p 4 4 → leAt p 4 4 ≤ 4096 → p.length = 8 + 4 * leAt p 4 4 →
      (s.aon.seq.run = true → exec (.cascadeConfigProgram c.id) s = .next ((s.errAon 4).complete c 3 0x0402)) ∧
      (s.aon.seq.run = false → ∃ l, exec (.cascadeConfigProgram c.id) s = .next
          (({ begun s c with aon.seq := { s.aon.seq with prog := l, startPc := BitVec.ofNat 12 (leAt p 2 2) } } : State).served (going c) []) ∧
        (∀ i, i < leAt p 4 4 → tget 0 l i = BitVec.ofNat 32 (leAt p (8 + 4 * i) 4)) ∧
        (∀ i, leAt p 4 4 ≤ i → tget 0 l i = tget 0 s.aon.seq.prog i))) ∧
    (Ready s c 0x0061 → p.length = 16 → leAt p 0 1 = 5 → r < 16 → leAt p 2 1 ≤ 1 → leAt p 3 1 = 0 → leAt p 4 2 = 0 → leAt p 6 2 = 0 → leAt p 8 8 = 0 →
      (leAt p 2 1 = 1 → (s.tenant (s.rule r).tenant = none ∨ (s.rule r).set_ = false ∨ s.image (s.rule r).image = none ∨
          ∃ i, s.image (s.rule r).image = some i ∧ i.tenant ≠ (s.rule r).tenant) → exec (.ruleEn c.id) s = .next (s.complete c 3 0x0206)) ∧
      (leAt p 2 1 = 0 ∨ ((s.rule r).set_ = true ∧ (∃ t, s.tenant (s.rule r).tenant = some t) ∧
          ∃ i, s.image (s.rule r).image = some i ∧ i.tenant = (s.rule r).tenant) →
        exec (.ruleEn c.id) s = .next (((begun s c).modRule r (fun x => { x with enabled := leAt p 2 1 = 1 })).served (going c) []))) ∧
    (Ready s c 0x0061 → p.length = 16 → leAt p 0 1 = 6 → leAt p 1 1 = 0 → leAt p 3 1 = 0 → leAt p 4 2 = 0 → leAt p 6 2 = 0 → leAt p 8 8 = 0 →
      (leAt p 2 1 = 0 → exec (.seqRun c.id) s = .next
        ((State.fllUpdate { begun s c with aon.seq := { s.aon.seq with run := false, halted := true, waiting := false } }).served (going c) [])) ∧
      (leAt p 2 1 = 1 → s.aon.seq.run = true → exec (.seqRun c.id) s = .next ((begun s c).served (going c) [])) ∧
      (leAt p 2 1 = 1 → s.aon.seq.run = false → exec (.seqRun c.id) s = .next
        ((State.fllUpdate { begun s c with aon.seq :=
          { s.aon.seq with run := true, pc := s.aon.seq.startPc.toNat, halted := false, waiting := false } }).served (going c) [])))

/-- CASCADE_CTRL on the host's slots (R396-R398, R401, R403): OPEN takes the next epoch number and returns it, refused for a slot in use and
beyond the Hoard; the others are refused for a FREE slot, as is every malformed one; BIND is refused for a ring of another tenant, and binds a
privileged one; UNBIND, and COMMIT for every ring, take effect once the commands that the ring held are read; COMMIT seals the epoch, with AT
before its due value too; ABORT aborts it with cause HOST. -/
def Says.EpochControl : Prop :=
  (∀ (s : State) (c : Cmd), Ready s c 0x0061 →
    let e := leAt c.params 1 1
    let n := leAt c.params 2 1
    let x := s.epoch e
    let cfg := (s.ring n).sqCfg
    (c.ctrlOk = false → let bad := Host.Outcome.next (s.complete c 3 0x0107)
      (c.ctrlOper = 0 → exec (.epochOpen c.id) s = bad) ∧ (c.ctrlOper = 1 → exec (.epochBind c.id) s = bad) ∧
      (c.ctrlOper = 2 → exec (.epochUnbind c.id) s = bad) ∧ (c.ctrlOper = 3 → exec (.epochCommit c.id) s = bad) ∧
      (c.ctrlOper = 4 → exec (.epochAbort c.id) s = bad) ∧ (c.ctrlOper = 5 → exec (.ruleEn c.id) s = bad) ∧
      (c.ctrlOper = 6 → exec (.seqRun c.id) s = bad)) ∧
    ((c.params.length ≠ 16 ∨ leAt c.params 6 2 ≠ 0 ∨ 6 < leAt c.params 0 1 ∨ (leAt c.params 0 1 ≤ 4 ∧ 48 ≤ e)) → c.ctrlOk = false) ∧
    (c.ctrlOk = true →
      (leAt c.params 0 1 = 0 →
        (x.st ≠ .free → exec (.epochOpen c.id) s = .next (s.complete c 3 0x0402)) ∧
        (x.st = .free → s.hoardPages < leAt c.params 4 2 → exec (.epochOpen c.id) s = .next (s.complete c 3 0x0204)) ∧
        (x.st = .free → leAt c.params 4 2 ≤ s.hoardPages →
          exec (.epochOpen c.id) s = .next (((({ begun s c with sch.epochNo := if s.sch.epochNo = 0xFFFFFFFF then 1 else s.sch.epochNo + 1 } : State).modEpoch
            e (fun x => { st := .opened, cause := x.cause, tenant := c.tenant, number := s.sch.epochNo, limit := leAt c.params 4 2 })).served
            (going c) (toLe 8 s.sch.epochNo.toNat))))) ∧
      (x.st = .free ∨ x.tenant ≠ c.tenant →
        (leAt c.params 0 1 = 1 → exec (.epochBind c.id) s = .next (s.complete c 3 0x0206)) ∧
        (leAt c.params 0 1 = 2 → exec (.epochUnbind c.id) s = .next (s.complete c 3 0x0206)) ∧
        (leAt c.params 0 1 = 3 → exec (.epochCommit c.id) s = .next (s.complete c 3 0x0206)) ∧
        (leAt c.params 0 1 = 4 → exec (.epochAbort c.id) s = .next (s.complete c 3 0x0206))) ∧
      (x.st ≠ .free → x.tenant = c.tenant →
        (leAt c.params 0 1 = 1 → bit cfg 10 = false → fld cfg 16 10 ≠ c.tenant →
          exec (.epochBind c.id) s = .next (s.complete c 3 0x0105)) ∧
        (leAt c.params 0 1 = 1 → bit cfg 10 = true ∨ fld cfg 16 10 = c.tenant →
          exec (.epochBind c.id) s = .next (((begun s c).modRing n (fun r => { r with bound := some e, unbind := none })).served (going c) [])) ∧
        (leAt c.params 0 1 = 2 →
          let ends := fun (f : Ring → Ring) => exec (.epochUnbind c.id) s = .next (((begun s c).modRing n f).served (going c) [])
          let r := s.ring n
          (r.bound ≠ some e → ends id) ∧
          (r.bound = some e → r.unbind = none → r.sqHead = r.sqTail → ends (fun r => { r with bound := none, unbind := none })) ∧
          (r.bound = some e → r.unbind = none → r.sqHead ≠ r.sqTail → ends (fun r => { r with unbind := some ⟨some r.sqTail, true⟩ })) ∧
          (∀ h g, r.bound = some e → r.unbind = some ⟨some h, g⟩ → ends (fun r => { r with unbind := some ⟨some h, true⟩ })) ∧
          (∀ g, r.bound = some e → r.unbind = some ⟨none, g⟩ → ends (fun r => { r with bound := none, unbind := none }))) ∧
        (leAt c.params 0 1 = 3 →
          (x.commit = some c.id → exec (.epochCommit c.id) s = .next (begun s c)) ∧
          (∀ d, x.commit = some d → d ≠ c.id → exec (.epochCommit c.id) s = .next (s.complete c 3 0x0402)) ∧
          (x.commit = none → x.st = .opened → ∃ t, exec (.epochCommit c.id) s = .next t ∧
            t.epoch e = { x with
              st := .sealing
              commit := some c.id
              waitJobs := (leAt c.params 3 1).testBit 1
              verdict := if (leAt c.params 3 1).testBit 0 then some (leAt c.params 8 8) else none } ∧
            t.cmds = (begun s c).cmds ∧ t.mem = s.mem ∧ t.jobs = s.jobs ∧ (∀ f, f ≠ e → t.epoch f = s.epoch f) ∧
            ∀ m, m < 64 → let r := s.ring m
              (r.bound ≠ some e → t.ring m = r) ∧
              (r.bound = some e → r.unbind = none → r.sqHead = r.sqTail → t.ring m = { r with bound := none, unbind := none }) ∧
              (r.bound = some e → r.unbind = none → r.sqHead ≠ r.sqTail → t.ring m = { r with unbind := some ⟨some r.sqTail, true⟩ }))) ∧
        (leAt c.params 0 1 = 4 →
          (x.st = .committing ∨ x.abortCmd ≠ none → exec (.epochAbort c.id) s = .next ((begun s c).served (going c) (List.replicate 8 0))) ∧
          (x.abortCmd = none → (x.st = .opened ∨ x.st = .sealing) → exec (.epochAbort c.id) s = .next (((begun s c).modEpoch e
            (fun x => { x with st := .aborting, cause := 2 })).modEpoch e (fun x => { x with abortCmd := some c.id }))) ∧
          (x.abortCmd = none → x.st = .aborting → exec (.epochAbort c.id) s = .next ((begun s c).modEpoch e
            (fun x => { x with abortCmd := some c.id }))))))) ∧
  (∀ (s : State) (c : Cmd), s.cmd c.id = some c → c.op = 0x0061 → c.ctrlOper = 3 → c.phase = .read → s.mayStart c = true → checkCtrl s c = none →
    dueIs c.due 0 = true → tbReached (dueTb c.due) (s.tbNow (dueTb c.due)) (dueVal c.due).toNat = false →
    let armed := (s.modCmd c.id (fun c => { c with phase := .armed })).arm (dueTb c.due) (dueVal c.due).toNat (.cmd c.id)
    exec (.epochCommit c.id) s = .next (armed.applyCommit c)) ∧
  (∀ (s : State) (c : Cmd), c.op = 0x0061 → checkCtrl s c = none → s.cmds = [] →
    (c.ctrlOper = 3 → s.readCtrl c = s.seal c) ∧
    (c.ctrlOper = 2 → (s.ring (leAt c.params 2 1)).bound = some (leAt c.params 1 1) → (s.ring (leAt c.params 2 1)).unbind = none →
      s.readCtrl c = s.modRing (leAt c.params 2 1) (fun r =>
        { r with unbind := some ⟨if r.sqHead = r.sqTail then none else some r.sqTail, false⟩ })))

/-- How an epoch ends (R395, R400-R406): the commit point waits for the unbind, the running COMMIT and, with WAIT_JOBS, every member; it frees
the epoch's jobs and commands from it and writes each shadow page to its target (log 43); when write-back is done the held entries are
posted in order, then the COMMIT's, and the slot is FREE; an aborted one posts its members as ABORTED / EPOCH_ABORTED with
SPECULATIVE_DISCARDED; a rule's deadline aborts it with cause WINDOW unless FIRM rises in the same cycle. SCH_HOARD_d is written only while
every slot is FREE. -/
def Says.EpochEnds : Prop :=
  ∀ (s : State) (e : Fin 64),
    let x := s.epoch e
    (∀ (c : Cmd), x.commit = some c.id → s.cmd c.id = some c → x.st = .sealing → c.phase = .running → dueSel c.due = 0 →
      (∀ n, n < 64 → (s.ring n).bound ≠ some e.val) → (x.waitJobs = true → s.epochJobs e = [] ∧ s.members e = []) →
      s.backHeld e = false →
      let s0 := s.modCmd c.id (fun c => { c with late := 0 })
      (x.verdict = none → exec (.commitPoint e) s = .next (s0.commitEpoch e 0 (fun _ t => t))) ∧
      (∀ a l, x.verdict = some a → s.verdict e a = .inr l →
        exec (.commitPoint e) s = .next ((if s.clamped e l then s0.errSpec 3 else s0).commitEpoch e l.length
          (fun q t => match l.find? (fun v => (v.1, v.2.1) == q) with
            | some v => min v.2.2 t
            | none => t))) ∧
      (∀ a r, x.verdict = some a → s.verdict e a = .inl r →
        exec (.commitPoint e) s = .next (((s.modEpoch e (fun y => { y with st := .aborting, cause := 2 })).modEpoch e
          (fun y => { y with commit := none })).complete c 4 r))) ∧
    (∀ (c : Cmd), x.commit = some c.id → s.cmd c.id = some c → x.st = .sealing → c.phase = .running → dueIs c.due 0 = true →
      (∀ n, n < 64 → (s.ring n).bound ≠ some e.val) → x.waitJobs = false → s.backHeld e = false → x.verdict = none →
      exec (.commitPoint e) s = .next ((s.modCmd c.id (fun c => { c with late := tbLate (dueTb c.due) (s.tbNow (dueTb c.due)) (dueVal c.due).toNat })).commitEpoch
        e 0 (fun _ t => t))) ∧
    ((∃ n, n < 64 ∧ (s.ring n).bound = some e.val) ∨ x.st ≠ .sealing ∨ s.backHeld e = true ∨
      (x.waitJobs = true ∧ (s.epochJobs e ≠ [] ∨ s.members e ≠ [])) → exec (.commitPoint e) s = .next s) ∧
    (∀ k, let t := s.commitEpoch e 0 k
      x.seqs = [] → (t.epoch e).st = .committing ∧ (∀ j y, t.job j = some y → y.epoch ≠ some e.val) ∧ (∀ c, c ∈ t.cmds → c.epoch ≠ some e.val) ∧
      (∀ g ∈ t.sch.signals, g.epoch ≠ some e.val) ∧ t.sch.ctxKept = s.sch.ctxKept ++ x.ctxPages ∧
      t.cores = s.cores ∧ t.rings = s.rings ∧ t.aon = s.aon ∧ t.tb = s.tb ∧
      (x.pages = [] → t.mem = s.mem) ∧
      (∀ g i, x.pages = [g] → s.region (g.target * 4096) = .dm 0 → g.target * 4096 + 4096 ≤ s.hoardAddr g.die g.page ∨
          s.hoardAddr g.die g.page + 4096 ≤ g.target * 4096 → i < 4096 →
        mread t.mem (g.target * 4096 + i) = mread s.mem (s.hoardAddr g.die g.page + i))) ∧
    (x.st = .committing → x.commit = none → exec (.epochWritebackDone e) s =
      .next { (s.postHeld x.held).freeSlot e with sch.commits := satInc (s.postHeld x.held).sch.commits }) ∧
    (∀ (c : Cmd), x.st = .committing → x.commit = some c.id → (s.postHeld x.held).cmd c.id = some c →
      exec (.epochWritebackDone e) s = .next (let t := (s.postHeld x.held).served c (toLe 8 (x.applied % 65536))
        { t.freeSlot e with sch.commits := satInc t.sch.commits })) ∧
    (x.st = .aborting → s.epochJobs e = [] → s.members e = [] → x.seqs = [] → e.val < 48 → x.commit = none → x.abortCmd = none →
      ∃ t, exec (.epochAbortDone e) s = .next t ∧ (t.epoch e).st = .free ∧ (t.epoch e).cause = x.cause ∧ (t.epoch e).pages = [] ∧
        t.sch.aborts = satInc s.sch.aborts ∧ t.sch.discardCc = satAdd s.sch.discardCc x.discardCc ∧ t.jobs = s.jobs ∧ t.pools = s.pools ∧
        t.cores = s.cores ∧ t.cmds = s.cmds ∧ (∀ n, n < 64 → (t.ring n).bound ≠ some e.val) ∧
        (∀ g ∈ t.sch.signals, g.epoch ≠ some e.val) ∧
        (x.held = [] → (∀ g ∈ s.sch.signals, g.epoch ≠ some e.val) → t.mem = s.mem ∧ t.obs = s.obs ∧ t.sch.signals = s.sch.signals)) ∧
    (∀ h : Held, h.own = false → (h.discarded).outcome = 6 ∧ (h.discarded).reason.toNat = 0x0901 ∧ bit (h.discarded).flags 2 = true ∧
      (h.discarded).tag = h.st.tag) ∧
    (∀ h : Held, h.own = true → (h.discarded).outcome = h.st.outcome ∧ (h.discarded).reason = h.st.reason ∧ bit (h.discarded).flags 2 = true)

/-- The deadline of a rule's epoch (R395, R406), and SCH_HOARD_d (R400). -/
def Says.EpochWindows : Prop :=
  (∀ (s : State) (r : Fin 16) (d : Sfc), (s.epoch (48 + r)).st = .opened → (s.epoch (48 + r)).deadline = some d →
    (d.toNat ≤ s.tb.sfc.toNat → exec (.epochWindowExpiry r false) s =
      .next (s.modEpoch (48 + r) (fun p => { p with st := .aborting, cause := 1 }))) ∧
    (s.tb.sfc.toNat < d.toNat → exec (.epochWindowExpiry r false) s = .next s) ∧
    (d.toNat ≤ s.tb.sfc.toNat → (s.epoch (48 + r)).seqs = [] → ∃ t, exec (.epochWindowExpiry r true) s = .next t ∧
      (t.epoch (48 + r)).st = .committing ∧ (t.rule r).level = 2 ∧
      t.sch.t0 = s.sch.t0.map (fun c => if (s.rule r).tier = 0 ∧ c.det = (s.rule r).det.toNat ∧ c.new = 2 then { c with done := c.done ++ [r.val] } else c) ∧ t.obs.tie = s.tie.obs.tie ∧ t.cores = s.cores ∧ t.rings = s.rings)) ∧
  (∀ (s : State) (d : Fin 4) (v : W32), s.offAt (0x70400 + 4 * d.val) = false →
    ((∃ e, e ∈ s.epochs ∧ e.2.st ≠ .free) ∨ 64 < v.toNat % 128 → exec (.schHoardWrite d v) s = .next (s.errSpec 2)) ∧
    ((∀ e, e ∈ s.epochs → e.2.st = .free) → v.toNat % 128 ≤ 64 →
      exec (.schHoardWrite d v) s = .next { s with sch.hoard := tset 0 s.sch.hoard d (BitVec.ofNat 7 (v.toNat % 128)) }))

/-- Table 16.2 and R205, R216, R392, R394, R395: what a level rise does to a rule, the flags of its launch's entry, and that a score word
and a tier-0 decision give every rule on their detector its level and make the enabled ones act, and no others; a score with a bit above 7 is ignored. -/
def Says.RuleActions : Prop :=
  (∀ (s : State) (r : Nat) (old new : BitVec 2),
    let x := s.rule r
    let busy := x.left ≠ 0 ∨ (s.epoch (48 + r)).st ≠ .free
    (new.toNat ≤ old.toNat → s.ruleAction r old new false = s) ∧
    (old.toNat < new.toNat → busy → new = 1 ∨ (s.epoch (48 + r)).st ≠ .opened →
      s.ruleAction r old new false = { s with sch.launchBusy := satInc s.sch.launchBusy }) ∧
    (∀ d, old.toNat < new.toNat → busy → (s.epoch (48 + r)).deadline = some d → d.toNat ≤ s.tb.sfc.toNat →
      s.ruleAction r old new false = { s with sch.launchBusy := satInc s.sch.launchBusy }) ∧
    (old.toNat < new.toNat → busy → new = 2 → (s.epoch (48 + r)).st = .opened → (∀ d, (s.epoch (48 + r)).deadline = some d →
      s.tb.sfc.toNat < d.toNat) →
      s.ruleAction r old new false = s.commitEpoch (48 + r) 0 (fun _ t => t)) ∧
    (old.toNat < new.toNat → ¬ busy →
      let t := s.ruleAction r old new false
      (t.rule r).left = x.jobs ∧ (t.rule r).deferred = false ∧ (t.rule r).preempts = 0 ∧ (t.rule r).specLaunch = decide (new = 1) ∧
        t.sch.nextJob = s.sch.nextJob + x.jobs ∧
      (∀ k, k < x.jobs → ∃ j : Job, t.job (s.sch.nextJob + k) = some j ∧ j.kind = .launch r k ∧ j.tenant = x.tenant ∧ j.cls = x.cls ∧
        j.image = x.image ∧ j.entry = x.entry ∧ j.args = [x.arg0, BitVec.ofNat 64 k] ∧ j.st = .waiting ∧
        j.epoch = if new = 1 then some (48 + r) else none) ∧
      (new = 1 → (t.epoch (48 + r)).st = .opened ∧ (t.epoch (48 + r)).number = s.sch.epochNo ∧ (t.epoch (48 + r)).limit = x.hoard ∧
        (t.epoch (48 + r)).deadline = some (s.tb.sfc + BitVec.ofNat 48 x.window)) ∧
      (new ≠ 1 → t.epochs = s.epochs) ∧ t.mem = s.mem ∧ t.cmds = s.cmds ∧ t.cores = s.cores ∧ t.dies = s.dies)) ∧
  (∀ (r : Nat) (x : Rule) (oc : BitVec 3) (rs : Nat) (gone : Bool) (f : Sfc), let e := launchEntry r x oc rs gone f
    bit e.flags 0 = x.deferred ∧ bit e.flags 1 = decide (x.preempts ≠ 0) ∧ bit e.flags 2 = gone ∧ bit e.flags 3 = false ∧
      e.preempts = x.preempts ∧ e.outcome = oc) ∧
  (∀ (s : State) (j : Fin 64),
    (256 ≤ mreadLe s.mem (0x3FFF00 + 4 * j.val) 4 → exec (.scoreWordEvaluate j) s = .next s) ∧
    ((∀ r, r < 16 → ¬ ((s.rule r).set_ = true ∧ (s.rule r).tier ≠ 0 ∧ (s.rule r).score = j.val)) →
      exec (.scoreWordEvaluate j) s = .next s) ∧
    (∀ r, r < 16 → mreadLe s.mem (0x3FFF00 + 4 * j.val) 4 < 256 → (s.rule r).set_ = true → (s.rule r).tier ≠ 0 → (s.rule r).score = j.val →
      (∀ q, q < 16 → q ≠ r → ¬ ((s.rule q).set_ = true ∧ (s.rule q).tier ≠ 0 ∧ (s.rule q).score = j.val)) →
      let v := mreadLe s.mem (0x3FFF00 + 4 * j.val) 4
      let n : BitVec 2 := if (s.rule r).firm.toNat ≤ v then 2 else if (s.rule r).lean_.toNat ≤ v then 1 else 0
      exec (.scoreWordEvaluate j) s = .next (if (s.rule r).enabled then
        (s.modRule r (fun y => { y with level := n })).ruleAction r (s.rule r).level n false else s.modRule r (fun y => { y with level := n })))) ∧
  (∀ (s : State) (c : T0Change) (l : List T0Change), s.sch.t0 = c :: l →
    (s.pmu.dev ≠ .run → exec .tier0DecisionHandle s = .next s) ∧
    (s.pmu.dev = .run → (∀ r, r < 16 → ¬ ((s.rule r).set_ = true ∧ (s.rule r).tier = 0 ∧ (s.rule r).det.toNat = c.det ∧ r ∉ c.done)) →
      exec .tier0DecisionHandle s = .next { s with sch.t0 := l }) ∧
    (∀ r, r < 16 → s.pmu.dev = .run → (s.rule r).set_ = true → (s.rule r).tier = 0 → (s.rule r).det.toNat = c.det → r ∉ c.done →
      (∀ q, q < 16 → q ≠ r → ¬ ((s.rule q).set_ = true ∧ (s.rule q).tier = 0 ∧ (s.rule q).det.toNat = c.det)) →
      let t := ({ s with sch.t0 := l } : State).modRule r (fun y => { y with level := c.new })
      exec .tier0DecisionHandle s = .next (if (s.rule r).enabled then t.ruleAction r c.old c.new c.woke else t)))

/-! ### Capture (chapter 17) -/

/-- CAPTURE_START (R287, R412-R414, Table 17.2): a well-formed one takes the lowest free place with its parameters and the seed; the refusals in
order: a field against the table, bytes outside the windows, a route, a fifth capture. -/
def Says.CaptureStarts : Prop :=
  ∀ (s : State) (c : Cmd), Ready s c 0x00C0 →
    let p := c.params
    let h := leAt p 36 2
    let n := leAt p 4 4
    let pc := 4 * h * (1 + h) + 5 * h + 1
    let ok := p.length = 64 ∧ leAt p 0 1 < 64 ∧ leAt p 1 1 < 64 ∧ leAt p 2 1 ≤ 2 ∧ leAt p 3 1 ≤ 60 ∧ 4096 ≤ n ∧ n ≤ 4194304 ∧
      (leAt p 2 1 ≠ 2 → leAt p 8 8 = 0) ∧ leAt p 16 8 % 64 = 0 ∧ leAt p 24 8 % 64 = 0 ∧ leAt p 32 1 ≤ 1 ∧ 1 ≤ leAt p 33 1 ∧ leAt p 33 1 ≤ 3 ∧
      leAt p 34 1 ≤ 1 ∧ leAt p 35 1 = 0 ∧ 4 ≤ h ∧ h ≤ 64 ∧ 256 ≤ leAt p 38 2 ∧ leAt p 38 2 ≤ 8192 ∧ leAt p 38 2 % 64 = 0 ∧ 1 ≤ leAt p 40 2 ∧
      leAt p 40 2 ≤ 64 ∧ 1 ≤ leAt p 42 2 ∧ 1 ≤ leAt p 44 4 ∧ leAt p 44 4 ≤ 1048576 ∧ 1 ≤ leAt p 48 4 ∧ leAt p 48 4 ≤ 0x3F800000 ∧ leAt p 60 4 = 0
    let mem := s.paramRw c.tenant (leAt p 16 8) (8 * n + 19200 + 16 * pc + 262144) = true ∧
      s.paramRw c.tenant (leAt p 24 8) (2 * ((64 + 4 * pc + 63) / 64 * 64)) = true ∧ (leAt p 2 1 = 2 → s.paramRw c.tenant (leAt p 8 8) (4 * n) = true)
    (¬ ok → exec (.captureStart c.id) s = .next (s.complete c 3 0x0107)) ∧
    (ok → ¬ mem → exec (.captureStart c.id) s = .next (s.complete c 3 0x0505)) ∧
    (ok → mem → s.routeInvalid false (leAt p 0 1) = true ∨ s.routeInvalid true (leAt p 1 1) = true →
      exec (.captureStart c.id) s = .next (s.complete c 3 0x0804)) ∧
    (ok → mem → s.routeInvalid false (leAt p 0 1) = false → s.routeInvalid true (leAt p 1 1) = false →
      (leAt p 0 1 ∈ s.drivenBy none → exec (.captureStart c.id) s = .next (s.complete c 3 0x0803)) ∧
      (leAt p 0 1 ∉ s.drivenBy none → 4 ≤ s.caps.length → exec (.captureStart c.id) s = .next (s.complete c 3 0x0201)) ∧
      (∀ k, leAt p 0 1 ∉ s.drivenBy none → s.caps.length < 4 → freeIndex s.caps 4 = some k →
        ∃ x : Capture, exec (.captureStart c.id) s = .next { begun s c with caps := tset none s.caps k (some x) } ∧
          x.cmd = c.id ∧ x.outRoute = leAt p 0 1 ∧ x.inRoute = leAt p 1 1 ∧ x.signal = leAt p 2 1 ∧ x.atten = leAt p 3 1 ∧ x.length = n ∧
          x.sigAddr = leAt p 8 8 ∧ x.work = leAt p 16 8 ∧ x.ckpt = leAt p 24 8 ∧ x.cell = leAt p 32 1 ∧ x.g = leAt p 33 1 ∧ x.h = h ∧
          x.segLen = leAt p 38 2 ∧ x.batch = leAt p 40 2 ∧ x.ckptEvery = leAt p 42 2 ∧ x.steps = leAt p 44 4 ∧ x.lr.toNat = leAt p 48 4 ∧
          (leAt p 52 8 ≠ 0 → x.rng.toNat = leAt p 52 8) ∧ x.tenant = c.tenant ∧ x.phase = 0 ∧ x.exciting = false ∧ x.step = 0))

/-- The phases before FIT (R415, R416): EXCITE starts at a multiple of 64; with LENGTH + 4,800 frames recorded it ends, and its output slot is
released, the recording and the signal then standing in WORK, once no retraining bridge holds it (their layout there is the model's choice, log
45); a denied WORK fails the capture; ALIGN of a recording without a return fails it with CAPTURE_NO_RETURN, else a BACKGROUND job fits at the
lag found. The lag is the first of the largest normalised correlation. (The first weights are free values, log 45.) -/
def Says.CapturePhases : Prop :=
  (∀ (s : State) (k : Nat) (x : Capture), s.cap k = some x →
    (x.phase = 0 → x.exciting = false → (s.tb.sfc.toNat + 1) % 64 = 0 →
      exec (.exciteStart k) s = .next (s.modCap k (fun x => { x with exciting := true }))) ∧
    ((s.tb.sfc.toNat + 1) % 64 ≠ 0 → exec (.exciteStart k) s = .next s) ∧
    (x.exciting = true → x.frame < x.length + 4800 → exec (.exciteEnd k) s = .next s) ∧
    (x.exciting = true → s.pathHeld none x.work (19200 + 8 * x.length) = true → exec (.exciteEnd k) s = .next s) ∧
    (x.exciting = true → x.length + 4800 ≤ x.frame → s.pathHeld none x.work (19200 + 8 * x.length) = false →
      (∀ d, s.access (s.capAgent x) 1 x.work (19200 + 8 * x.length) = some d →
        exec (.exciteEnd k) s = .next ((s.noteDeny d).capEnd k (fun _ => { oc := 4, rs := faultReason d.code }))) ∧
      (s.access (s.capAgent x) 1 x.work (19200 + 8 * x.length) = none →
        exec (.exciteEnd k) s = .next ((State.devWrite x.work ((x.rec_ ++ x.sig).flatMap (fun v => toLe 4 (unsgn 32 v))) s).modCap k
          (fun x => { x with exciting := false, phase := 1 })))) ∧
    (x.phase = 1 → align x.sig x.rec_ = none → exec (.alignDone k) s = .next (s.capEnd k (fun _ => { oc := 4, rs := 0x0902 }))) ∧
    (∀ n, x.phase = 1 → align x.sig x.rec_ = some n → ∃ t, exec (.alignDone k) s = .next t ∧
      (∃ y : Capture, t.cap k = some y ∧ y.phase = 2 ∧ y.lag = n ∧ y.step = x.step ∧ y.cmd = x.cmd ∧ y.work = x.work ∧ y.ckpt = x.ckpt) ∧
      (∃ j : Job, t.job s.sch.nextJob = some j ∧ j.kind = .fit k ∧ j.cls = .background ∧ j.tenant = x.tenant ∧ j.epoch = none) ∧
      (∀ i, i ≠ s.sch.nextJob → t.job i = s.job i) ∧ t.mem = s.mem ∧ t.cmds = s.cmds ∧ t.rings = s.rings ∧ t.cores = s.cores)) ∧
  (∀ (a b : List Int) (n : Nat), align a b = some n → n ≤ 4800 ∧
    (∀ m, m ≤ 4800 → corrAbove (corrAt a b m) (corrAt a b n) = false) ∧ 0 < (corrAt a b n).1 ∧
    (a.map (fun v => v * v)).sum * (corrAt a b n).2 ≤ 4 * (corrAt a b n).1 * (corrAt a b n).1 ∧
    Int.ofNat b.length * 2 ^ 46 ≤ (b.map (fun v => v * v)).sum * 1000000)

/-- A step of FIT (R29, R417-R422, R428): on a core, not paused and with no bridge in RETRAIN on its way to memory it runs, and leaves what the
spec does not lay out of its work area as free bytes (log 45); divergence comes first and fails the capture with CAPTURE_DIVERGED, after
which waiting commands are served; after CKPT_EVERY steps a checkpoint is written; the last step ends FIT with SERVED and the best slot; a
checkpoint goes to the slot without the lowest loss with VALID written last; its body as Table 17.4 has it. -/
def Says.CaptureFit : Prop :=
  (∀ (s : State) (k : Nat) (x : Capture) (i c : Nat) (j : Job), s.cap k = some x → s.fitJob k = some (i, j) → x.phase = 2 →
    (x.paused = true ∨ (∀ q, j.st ≠ .running q) ∨ s.fitHeld x j = true → exec (.fitStep k) s = .next s) ∧
    (x.paused = false → j.st = .running c → s.fitHeld x j = false → s.access j.agent 0 x.work x.workLen = none →
      s.access j.agent 1 x.ckpt (2 * ckptLen x.h) = none →
      let s0 : State := { s with fresh := s.fresh + 1 }
      (x.fitStep s.fresh = none → exec (.fitStep k) s = .next (s0.fitEnd k (fun _ => { oc := 4, rs := 0x0903 }))) ∧
      (∀ y, x.fitStep s.fresh = some y → ∃ l : List Byte, l.length = x.workLen - x.recBytes ∧
        let s1 := State.devWrite (x.work + x.recBytes) l s0
        y.step = x.step + 1 ∧ y.ckptEvery = x.ckptEvery ∧ y.steps = x.steps ∧ y.ctl = x.ctl ∧
        y.loss.toNat = bits32 x.lossGrads.1 ∧ y.rng = x.rngAfter ∧ y.lossSum = x.lossSum ++ [y.loss] ∧
        ((x.step + 1) % x.ckptEvery ≠ 0 → x.badCkpts < 3 → x.step + 1 < x.steps →
          exec (.fitStep k) s = .next ((s1.modCap k (fun _ => y)).fitBoundary k)) ∧
        ((x.step + 1) % x.ckptEvery ≠ 0 → x.badCkpts < 3 → x.steps ≤ x.step + 1 →
          exec (.fitStep k) s = .next ((s1.modCap k (fun _ => y)).fitFinish k)) ∧
        (∀ z, (x.step + 1) % x.ckptEvery = 0 → ((s1.modCap k (fun _ => y)).checkpoint k).cap k = some z →
          (3 ≤ z.badCkpts → exec (.fitStep k) s = .next (((s1.modCap k (fun _ => y)).checkpoint k).fitEnd k (fun _ => { oc := 4, rs := 0x0903 }))) ∧
          (z.badCkpts < 3 → z.step < z.steps → exec (.fitStep k) s = .next (((s1.modCap k (fun _ => y)).checkpoint k).fitBoundary k)) ∧
          (z.badCkpts < 3 → z.steps ≤ z.step → exec (.fitStep k) s = .next (((s1.modCap k (fun _ => y)).checkpoint k).fitFinish k)))))) ∧
  (∀ (s : State) (k : Nat) (x : Capture), s.cap k = some x → x.weights.length = paramCount x.h → s.region x.ckpt = .sram →
    let slot := if x.best.map (·.1) = some 0 then 1 else 0
    let a := x.ckpt + slot * ((64 + 4 * paramCount x.h + 63) / 64 * 64)
    s.region (a + 13) = .sram → s.region a = .sram →
    let t := s.checkpoint k
    mreadLe t.mem a 4 = 0xC7A50501 ∧ mreadLe t.mem (a + 4) 4 = x.step % 2 ^ 32 ∧ mreadLe t.mem (a + 12) 1 = x.cell % 256 ∧
      mreadLe t.mem (a + 13) 1 = 1 ∧
    mreadLe t.mem (a + 14) 2 = x.h % 65536 ∧ mreadLe t.mem (a + 16) 4 = x.lag % 2 ^ 32 ∧
    (∀ i, i < paramCount x.h → mreadLe t.mem (a + 64 + 4 * i) 4 = (x.weights.getD i 0).toNat) ∧
    (∀ b, (b < a ∨ a + 64 + 4 * paramCount x.h ≤ b) → mread t.mem b = mread s.mem b) ∧
    t.cmds = s.cmds ∧ t.jobs = s.jobs ∧ t.cores = s.cores ∧ t.rings = s.rings)

/-- CAPTURE_CTRL (R422): an unknown capture or a malformed block refuses; STATUS reports the phase, the step and 24 bits of the loss; the
others wait for the step boundary, and a PAUSE during EXCITE is refused with JOBS_ACTIVE. At the boundary STOP ends FIT, PAUSE takes the
job off its core, and each command completes. -/
def Says.CaptureControl : Prop :=
  (∀ (s : State) (c : Cmd), Ready s c 0x00C1 → c.params.length = 8 → leAt c.params 1 1 = 0 → leAt c.params 5 3 = 0 →
    let o := leAt c.params 4 1
    (s.ctlCap c = none →
      (o = 0 → exec (.captureStatus c.id) s = .next (s.complete c 3 0x0206)) ∧ (o = 1 → exec (.capturePause c.id) s = .next (s.complete c 3 0x0206)) ∧
      (o = 2 → exec (.captureResume c.id) s = .next (s.complete c 3 0x0206)) ∧ (o = 3 → exec (.captureStop c.id) s = .next (s.complete c 3 0x0206))) ∧
    (∀ k x, s.ctlCap c = some (k, x) → c.id ≠ x.cmd → s.cap k = some x →
      (o = 0 → exec (.captureStatus c.id) s = .next ((begun s c).served (going c)
        (toLe 1 x.phase ++ toLe 4 x.step ++ toLe 3 (x.loss.toNat / 256)))) ∧
      (o = 1 → x.phase = 0 → exec (.capturePause c.id) s = .next (s.complete c 3 0x0402)) ∧
      (o = 1 → x.phase ≠ 0 → x.paused = false → exec (.capturePause c.id) s =
        .next ((begun s c).modCap k (fun y => { y with ctl := y.ctl ++ [(c.id, 1)] }))) ∧
      (o = 2 → x.paused = false → exec (.captureResume c.id) s =
        .next ((begun s c).modCap k (fun y => { y with ctl := y.ctl ++ [(c.id, 2)] }))) ∧
      (o = 3 → x.paused = false → exec (.captureStop c.id) s =
        .next ((begun s c).modCap k (fun y => { y with ctl := y.ctl ++ [(c.id, 3)] }))))) ∧
  (∀ (s : State) (k : Nat) (x : Capture), s.cap k = some x →
    ((∃ i, (i, 3) ∈ x.ctl) → s.fitBoundary k = s.fitFinish k) ∧
    (x.ctl = [] → x.paused = false → (∃ j, s.fitJob k = some j) → let t := s.fitBoundary k
      t.cap k = some x ∧ t.jobs = s.jobs ∧ t.cmds = s.cmds ∧ t.mem = s.mem) ∧
    (∀ i j, x.ctl = [(i, 1)] → s.cmd i = none → s.fitJob k = some j →
      s.fitBoundary k = (s.modCap k (fun x => { x with paused := true, ctl := [] })).endJob j.1 true) ∧
    (∀ c, x.lossSum = [] → x.badCkpts < 3 → x.ctl = [] → s.fitJob k = none → s.cmd x.cmd = some c → c.late = 0 → c.skipped = false →
      s.fitFinish k = ({ s with caps := tset none s.caps k none } : State).finish c
        { oc := 0, result := toLe 1 (x.best.getD (0, 0)).1 ++ toLe 4 (x.best.getD (0, 0)).2.toNat ++ toLe 3 0 }))

/-! ### The camera (chapter 18) -/

/-- CAMERA_CONFIG (R431-R434, R442, R445, R446): for a well-formed block whose buffers lie in the owner's windows START runs the pipeline
with it and is refused with JOBS_ACTIVE while it runs; a START with TRIG_EN arms the first trigger compare, the first value after now at TRIG_PHASE, with
TRIG_STALL while the MPC holds; STOP of an idle pipeline completes with the last SEQ, and otherwise waits for it;
UPDATE replaces the four tables and the flags; STOP and UPDATE of another tenant or of a stopped camera are refused with BAD_HANDLE, an
UPDATE of a fixed field with BAD_PARAM; TRIG_EN is refused on revision 1; a malformed block is refused first. -/
def Says.CameraConfigs : Prop :=
  (∀ now phase : Nat, phase < 65536 → now < firstTrig now phase ∧ firstTrig now phase ≤ now + 65536 ∧ firstTrig now phase % 65536 = phase) ∧
  ∀ (s : State) (c : Cmd), Ready s c 0x00D0 →
    let p := c.params
    let g := c.camCfg
    let trig := bitN (leAt p 5 1) 3
    let tb := leAt p 20 2 * leAt p 22 2 * (if bitN (leAt p 5 1) 0 then 1 else 3) * (if leAt p 6 1 = 8 then 2 else 1)
    let shape := p.length = 256 ∧ (leAt p 1 1 = 1 ∨ leAt p 1 1 = 2 ∨ leAt p 1 1 = 4) ∧ leAt p 2 1 ≤ 3 ∧ 0x2A ≤ leAt p 3 1 ∧ leAt p 3 1 ≤ 0x2C ∧
      leAt p 4 1 ≤ 3 ∧ leAt p 5 1 < 32 ∧ (leAt p 6 1 = 1 ∨ leAt p 6 1 = 2 ∨ leAt p 6 1 = 8) ∧ 1 ≤ leAt p 7 1 ∧ leAt p 7 1 ≤ 8 ∧
      16 ≤ leAt p 8 2 ∧ leAt p 8 2 ≤ 4096 ∧ 16 ≤ leAt p 10 2 ∧ leAt p 10 2 ≤ 3072 ∧ leAt p 8 2 % 2 = 0 ∧ leAt p 10 2 % 2 = 0 ∧
      leAt p 12 2 % 2 = 0 ∧ leAt p 14 2 % 2 = 0 ∧ leAt p 16 2 % 2 = 0 ∧ leAt p 18 2 % 2 = 0 ∧ 2 ≤ leAt p 16 2 ∧ 2 ≤ leAt p 18 2 ∧
      leAt p 12 2 + leAt p 16 2 ≤ leAt p 8 2 ∧ leAt p 14 2 + leAt p 18 2 ≤ leAt p 10 2 ∧ 1 ≤ leAt p 20 2 ∧ leAt p 20 2 ≤ leAt p 16 2 ∧
      1 ≤ leAt p 22 2 ∧ leAt p 22 2 ≤ leAt p 18 2 ∧ leAt p 16 2 ≤ 16 * leAt p 20 2 ∧ leAt p 18 2 ≤ 16 * leAt p 22 2 ∧ leAt p 24 1 ≤ 1 ∧
      (trig = true → 1 ≤ leAt p 25 1 ∧ 1 ≤ leAt p 28 2 ∧ leAt p 28 2 ≤ 1000) ∧ (trig = false → leAt p 25 1 = 0 ∧ leAt p 28 2 = 0) ∧
      leAt p 30 2 = 0 ∧ leAt p 32 8 % 64 = 0 ∧ leAt p 32 8 < 2 ^ 40 ∧ (∀ i, i < 4 → leAt p (40 + 2 * i) 2 ≤ 4095) ∧ leAt p 54 2 = 0 ∧
      leAt p 74 2 = 0 ∧ zerosAt p 206 50 = true
    let room := s.paramRw c.tenant (leAt p 32 8) (leAt p 7 1 * ((576 + tb + 63) / 64 * 64))
    let row := fun (o : Nat) => if o = 1 then Instr.cameraStop c.id else if o = 2 then Instr.cameraUpdate c.id else Instr.cameraStart c.id
    (¬ (shape ∧ leAt p 0 1 ≤ 2) → exec (row (leAt p 0 1)) s = .next (s.complete c 3 0x0107)) ∧
    (shape → leAt p 0 1 ≤ 2 → trig = true → s.rev2 = false → exec (row (leAt p 0 1)) s = .next (s.complete c 3 0x0501)) ∧
    (shape → leAt p 0 1 ≤ 2 → trig = false ∨ s.rev2 = true →
      (room = false → exec (row (leAt p 0 1)) s = .next (s.complete c 3 0x0505)) ∧
      (room = true →
        (leAt p 0 1 = 0 → s.cam.running = true → exec (.cameraStart c.id) s = .next (s.complete c 3 0x0402)) ∧
        (leAt p 0 1 ≠ 0 → s.cam.running = false ∨ s.cam.owner.toNat ≠ c.tenant →
          exec (row (leAt p 0 1)) s = .next (s.complete c 3 0x0206)) ∧
        (leAt p 0 1 = 2 → s.cam.running = true → s.cam.owner.toNat = c.tenant → g.fixed ≠ s.cam.cfg.fixed →
          exec (.cameraUpdate c.id) s = .next (s.complete c 3 0x0107)) ∧
        (leAt p 0 1 = 2 → s.cam.running = true → s.cam.owner.toNat = c.tenant → g.fixed = s.cam.cfg.fixed →
          exec (.cameraUpdate c.id) s = .next (({ begun s c with cam.cfg :=
            { s.cam.cfg with black := g.black, wb := g.wb, matrix := g.matrix, gamma := g.gamma, flags := g.flags } } : State).served (going c) [])) ∧
        (leAt p 0 1 = 0 → s.cam.running = false → trig = false →
          exec (.cameraStart c.id) s = .next (({ begun s c with cam := { s.cam with
            running := true, owner := BitVec.ofNat 10 c.tenant, cfg := g, seq := 0, buf := 0, frame := none, output := [], history := [],
            restart := false, stopping := [] } } : State).served (going c) [])) ∧
        (leAt p 0 1 = 0 → s.cam.running = false → trig = true →
          let t := ({ begun s c with cam := { s.cam with
            running := true, owner := BitVec.ofNat 10 c.tenant, cfg := g, seq := 0, buf := 0, frame := none, output := [], history := [],
            restart := false, stopping := [] } } : State).arm .mpc (firstTrig s.tb.mpc.toNat (leAt p 26 2)) .trig
          exec (.cameraStart c.id) s = .next ((if s.tb.mpcMode = .hold then t.errCam 5 else t).served (going c) [])) ∧
        (leAt p 0 1 = 1 → s.cam.running = true → s.cam.owner.toNat = c.tenant → s.cam.frame ≠ none ∨ s.cam.output ≠ [] →
          exec (.cameraStop c.id) s = .next { begun s c with cam.stopping := s.cam.stopping ++ [c.id] }) ∧
        (leAt p 0 1 = 1 → s.cam.running = true → s.cam.owner.toNat = c.tenant → s.cam.frame = none → s.cam.output = [] → s.cam.stopping = [] →
          exec (.cameraStop c.id) s = .next ((State.disarm .trig { begun s c with cam := { s.cam with
            running := false, lanesHs := 0, clkActive := false, deskew := false } }).served (going c) (toLe 8 s.cam.lastSeq.toNat)))))

/-- The packets (R52, R429, R430, R433, R440): with the receiver off nothing is received; with it on, a frame start of the counter's channel starts the next CLC frame at
line 0, and its line starts, or its long packets when TB_CTRL says so, advance the line; a long packet of pixels joins the frame of the
selected channel, one of another width drops it with SIZE_MISMATCH, a bad CRC is noted, another data type of that channel counts unless the
receiver ignores it; a frame end with IN_H
lines hands the frame on; a corrected header counts, an uncorrectable one sets ECC_UNCORR; the lane and deskew states follow their commands.
-/
def Says.CameraPackets : Prop :=
  (∀ (s : State) (vc : BitVec 2) (dt : BitVec 6) (pix : List Nat) (crc behind : Bool) (rc : Nat) (e : EccResult) (l : BitVec 4) (k : Bool),
    s.cam.running = false → exec (.csiFrameStart vc) s = .next s ∧ exec (.csiLineStart vc) s = .next s ∧ exec (.csiFrameEnd vc) s = .next s ∧
      exec (.csiLongPacket vc dt pix crc rc behind) s = .next s ∧ exec (.csiOtherPacket vc dt e) s = .next s ∧
      exec (.csiLaneStateChange l k) s = .next s ∧ exec .csiDeskew s = .next s) ∧
  ∀ (s : State), s.cam.running = true →
    let g := s.cam.cfg
    (∀ vc : BitVec 2, vc.toNat = fld s.tb.ctrl 6 2 → vc ≠ g.vc → ∃ t, exec (.csiFrameStart vc) s = .next t ∧ t.tb.clcFrame = s.tb.clcFrame + 1 ∧
      t.tb.clcLine = 0 ∧ t.cam = s.cam ∧ t.mem = s.mem ∧ t.cmds = s.cmds ∧ t.tb.sfc = s.tb.sfc) ∧
    (s.cam.stopping = [] → s.cam.frame = none → g.vc.toNat ≠ fld s.tb.ctrl 6 2 →
      let w := s.camWrite (g.outBase + (s.cam.buf + s.cam.output.length) % max 1 g.nbuf * g.bs + 22) [0]
      (w.2 = true → ∃ f : CamFrame, exec (.csiFrameStart g.vc) s = .next { w.1 with cam.restart := false, cam.frame := some f } ∧
        f.cfg = g ∧ f.sfc = s.tb.sfc ∧ f.clc.toNat = s.tb.clcFrame.toNat * 65536 ∧ f.lines = [] ∧ f.repaired = [] ∧ f.restart = s.cam.restart ∧
        (f.mpcValid = true ↔ s.rev2 = true ∧ (s.tb.mpcLock = true ∨ s.tb.mpcMode = .freewheel)) ∧ (f.mpcValid = true → f.mpc = s.tb.mpc) ∧
        (f.mpcValid = false → f.mpc = 0)) ∧
      (w.2 = false → exec (.csiFrameStart g.vc) s = .next
        { w.1 with cam.frameDrop := satInc w.1.cam.frameDrop, cam.restart := true })) ∧
    (s.cam.stopping = [] → s.cam.frame ≠ none → g.vc.toNat ≠ fld s.tb.ctrl 6 2 →
      exec (.csiFrameStart g.vc) s = exec (.csiFrameStart g.vc) (s.camLose 2)) ∧
    (∀ vc : BitVec 2, s.cam.stopping ≠ [] → vc.toNat ≠ fld s.tb.ctrl 6 2 → exec (.csiFrameStart vc) s = .next s) ∧
    (∀ vc : BitVec 2, bit s.tb.ctrl 8 = false → vc.toNat = fld s.tb.ctrl 6 2 →
      exec (.csiLineStart vc) s = .next (s.clcTo s.tb.clcFrame (s.tb.clcLine + 1) false)) ∧
    (∀ vc : BitVec 2, bit s.tb.ctrl 8 = true ∨ vc.toNat ≠ fld s.tb.ctrl 6 2 → exec (.csiLineStart vc) s = .next s) ∧
    (∀ (f : CamFrame) (pix : List Nat) (crc behind : Bool) (rc : Nat), s.cam.frame = some f → f.cfg.vc = g.vc → 0x2A ≤ f.cfg.dt.toNat →
      f.cfg.dt.toNat ≤ 0x2C →
      bit s.tb.ctrl 8 = false ∨ g.vc.toNat ≠ fld s.tb.ctrl 6 2 →
      (pix.length = f.cfg.inW → behind = false → exec (.csiLongPacket g.vc f.cfg.dt pix crc rc behind) s =
        .next (let t : State := { s with cam.frame := some { f with lines := f.lines ++ [pix], lineRc := rc, repaired := if crc then f.repaired else f.repaired ++ [f.lines.length] } }
          if crc then t else t.errCam 1)) ∧
      (pix.length ≠ f.cfg.inW → ∃ t, exec (.csiLongPacket g.vc f.cfg.dt pix crc rc behind) s = .next t ∧ t.cam.frame = none ∧
        t.cam.frameDrop = satInc s.cam.frameDrop ∧ t.cam.err = setBit (if crc then s.cam.err else setBit s.cam.err 1) 2 ∧
        t.cam.output = s.cam.output ∧ t.cam.seq = s.cam.seq ∧ t.cam.restart = true) ∧
      (pix.length = f.cfg.inW → behind = true → ∃ t, exec (.csiLongPacket g.vc f.cfg.dt pix crc rc behind) s = .next t ∧ t.cam.frame = none ∧
        t.cam.frameDrop = satInc s.cam.frameDrop ∧ t.cam.err = setBit (if crc then s.cam.err else setBit s.cam.err 1) 3 ∧
        t.cam.output = s.cam.output ∧ t.cam.restart = true) ∧
      (∀ dt : BitVec 6, 0x2A ≤ dt.toNat → dt.toNat ≤ 0x2C → dt ≠ f.cfg.dt →
        exec (.csiLongPacket g.vc dt pix crc rc behind) s = .next { s with cam.pktDrop := satInc s.cam.pktDrop }) ∧
      (f.lines.length = f.cfg.inH → exec (.csiFrameEnd g.vc) s = .next { s with cam.frame := none, cam.output := s.cam.output ++ [f] }) ∧
      (f.lines.length ≠ f.cfg.inH → ∃ t, exec (.csiFrameEnd g.vc) s = .next t ∧ t.cam.frame = none ∧ t.cam.output = s.cam.output ∧
        t.cam.frameDrop = satInc s.cam.frameDrop ∧ t.cam.err = setBit s.cam.err 2)) ∧
    (s.cam.frame = none → ∀ vc, exec (.csiFrameEnd vc) s = .next s) ∧
    (∀ (vc : BitVec 2) (dt : BitVec 6) (pix : List Nat) (crc behind : Bool) (rc : Nat), bit s.tb.ctrl 8 = true → vc.toNat = fld s.tb.ctrl 6 2 →
      vc ≠ g.vc → 0x2A ≤ dt.toNat → dt.toNat ≤ 0x2C →
      exec (.csiLongPacket vc dt pix crc rc behind) s = .next (s.clcTo s.tb.clcFrame (s.tb.clcLine + 1) false)) ∧
    (∀ (vc : BitVec 2) (dt : BitVec 6) (pix : List Nat) (crc behind : Bool) (rc : Nat),
      let other := dt.toNat ∉ [0, 1, 2, 3, 0x12, 0x2A, 0x2B, 0x2C] ∧ ¬ (8 ≤ dt.toNat ∧ dt.toNat ≤ 15)
      let drop := fun (t : State) => ({ t with cam.pktDrop := satInc t.cam.pktDrop } : State)
      let corr : State := { s with cam.eccCorr := satInc s.cam.eccCorr }
      exec (.csiOtherPacket vc dt .uncorrectable) s = .next (s.errCam 0) ∧
      (vc ≠ g.vc ∨ ¬ other → exec (.csiOtherPacket vc dt .good) s = .next s ∧ exec (.csiOtherPacket vc dt .corrected) s = .next corr) ∧
      (vc = g.vc → other → exec (.csiOtherPacket vc dt .good) s = .next (drop s) ∧ exec (.csiOtherPacket vc dt .corrected) s = .next (drop corr)) ∧
      (dt.toNat < 0x2A ∨ 0x2C < dt.toNat → bit s.tb.ctrl 8 = false ∨ vc.toNat ≠ fld s.tb.ctrl 6 2 →
        exec (.csiLongPacket vc dt pix crc rc behind) s = exec (.csiOtherPacket vc dt .good) s)) ∧
    (∀ (l : BitVec 4) (k : Bool), exec (.csiLaneStateChange l k) s = .next { s with cam.lanesHs := l, cam.clkActive := k }) ∧
    exec .csiDeskew s = .next { s with cam.deskew := true }

/-- A frame's output (R29, R438-R441, Tables 18.2 and 18.3): the statistics and the tensor at their offsets in the next buffer, then the header
with SEQ and VALID; a write that faults, or that a bridge which is not UP holds, sets OUT_FAULT, counts a drop, restarts the flicker estimate and
keeps the buffer for the next frame. The trigger pulse ends. -/
def Says.CameraFrames : Prop :=
  (∀ (s : State) (f : CamFrame) (l : List CamFrame), s.cam.output = f :: l →
    let a := f.cfg.outBase + s.cam.buf * f.cfg.bs
    let past := if f.restart then [] else s.cam.history
    let w1 := State.camWrite (a + 22) [0] { s with cam.output := l }
    let w2 := w1.1.camWrite (a + 64) (f.stats past ++ f.tensor)
    let w3 := w2.1.camWrite a (f.header (s.cam.seq + 1).toNat)
    let lost := fun (t : State) => State.camIdle { t with cam.frameDrop := satInc t.cam.frameDrop, cam.history := [] }
    (w1.2 = false → exec .frameOutputDone s = .next (lost w1.1)) ∧
    (w1.2 = true → w2.2 = false → exec .frameOutputDone s = .next (lost w2.1)) ∧
    (w1.2 = true → w2.2 = true → w3.2 = false → exec .frameOutputDone s = .next (lost w3.1)) ∧
    (w1.2 = true → w2.2 = true → w3.2 = true → exec .frameOutputDone s = .next
      (State.camIdle { w3.1 with cam.seq := s.cam.seq + 1, cam.lastSeq := s.cam.seq + 1, cam.buf := (s.cam.buf + 1) % max 1 f.cfg.nbuf,
                                 cam.history := (past ++ [rowSums f.crop]).drop (past.length - 2) }))) ∧
  (∀ s : State, s.cam.output = [] → exec .frameOutputDone s = .next s) ∧
  (∀ (s : State) (a : Nat) (b : List Byte), let g : Agent := { tenant := some s.cam.owner.toNat, windows := s.windowsOf s.cam.owner.toNat }
    (s.pathHeld none a b.length = true → s.camWrite a b = (s.errCam 4, false)) ∧
    (s.pathHeld none a b.length = false →
      (s.access g 1 a b.length = none → s.camWrite a b = (s.devWrite a b, true)) ∧
      (∀ d, s.access g 1 a b.length = some d → (s.camWrite a b).2 = false ∧ bit (s.camWrite a b).1.cam.err 4 = true ∧
        (s.camWrite a b).1.mem = s.mem))) ∧
  (∀ (f : CamFrame) (h : List (List Nat)), let b := f.stats h
    b.length = 512 ∧ (bit f.cfg.flags 4 = false → ∀ i, i < 448 → b.getD i 0 = 0) ∧
    (bit f.cfg.flags 2 = false → ∀ i, 448 ≤ i → i < 453 → b.getD i 0 = 0) ∧
    (bit f.cfg.flags 2 = true → leAt b 449 1 ≤ 100 ∧ leAt b 448 1 ≤ 2 ∧ (leAt b 449 1 < 2 → leAt b 448 1 = 0) ∧
      leAt b 449 1 = flickerDepth (h ++ [rowSums f.crop]).flatten) ∧
    leAt b 456 4 = f.lineRc % 2 ^ 32 ∧ (∀ i, 460 ≤ i → b.getD i 0 = 0)) ∧
  (∀ (f : CamFrame) (n : Nat), n < 2 ^ 32 → (f.header n).length = 64 ∧ leAt (f.header n) 0 4 = n ∧ leAt (f.header n) 4 4 = f.clc.toNat ∧
    leAt (f.header n) 8 6 = f.sfc.toNat ∧ leAt (f.header n) 14 2 = 0 ∧ leAt (f.header n) 16 4 = f.mpc.toNat / 65536 ∧
    leAt (f.header n) 20 2 = f.mpc.toNat % 65536 ∧ bitN (leAt (f.header n) 22 1) 0 = true ∧
    (bitN (leAt (f.header n) 22 1) 1 = true ↔ f.repaired ≠ []) ∧ bitN (leAt (f.header n) 22 1) 2 = f.mpcValid ∧ zerosAt (f.header n) 23 41 = true) ∧
  (∀ s : State, exec .trigPulseEnd s = .next { s with cam.trigHigh := false })

/-- The pipeline's arithmetic (R435-R437, R440): black level, demosaic, gamma, luma, the scaler's source pixel, the output formats; a line
with a bad CRC repeats the previous output line, line 0 is zero. -/
def Says.CameraPipeline : Prop :=
  (∀ (f : CamFrame) (y x : Nat), y < f.cfg.inH → x < f.cfg.inW →
    let v := nthN (f.lines.getD y []) x
    let b := nthN f.cfg.black (y % 2 * 2 + x % 2)
    (f.cfg.dt = 0x2A → f.raw y x = max 0 (Int.ofNat (v * 16) - Int.ofNat b)) ∧
    (f.cfg.dt = 0x2B → f.raw y x = max 0 (Int.ofNat (v * 4) - Int.ofNat b)) ∧
    (f.cfg.dt = 0x2C → f.raw y x = max 0 (Int.ofNat v - Int.ofNat b))) ∧
  (∀ (f : CamFrame) (y x : Int), siteColour f.cfg.cfa y x ≠ 1 →
    let l := f.raw y (x - 1)
    let r := f.raw y (x + 1)
    let u := f.raw (y - 1) x
    let d := f.raw (y + 1) x
    ((l - r).natAbs < (u - d).natAbs → f.green y x = (l + r + 1) / 2) ∧ ((u - d).natAbs < (l - r).natAbs → f.green y x = (u + d + 1) / 2) ∧
    ((l - r).natAbs = (u - d).natAbs → f.green y x = (l + r + u + d + 2) / 4)) ∧
  (siteColour 0 0 0 = 0 ∧ siteColour 0 0 1 = 1 ∧ siteColour 0 1 1 = 2 ∧ siteColour 1 0 1 = 0 ∧ siteColour 2 1 0 = 0 ∧ siteColour 3 1 1 = 0 ∧
    siteColour 3 0 0 = 2 ∧ ∀ (k : Nat) (y x : Int), siteColour k (y + 2) x = siteColour k y x ∧ siteColour k y (x + 2) = siteColour k y x) ∧
  (∀ (f : CamFrame) (x : Nat), (0 ∈ f.repaired → f.pixel 0 x = [0, 0, 0]) ∧ (0 ∉ f.repaired → f.pixel 0 x = f.rgb 0 x) ∧
    ∀ y, ((y + 1) ∈ f.repaired → f.pixel (y + 1) x = f.pixel y x) ∧ ((y + 1) ∉ f.repaired → f.pixel (y + 1) x = f.rgb (y + 1) x)) ∧
  (∀ (g : CamCfg) (px : Nat → Nat → Nat) (y x : Nat), g.bilinear = false → g.scale px y x = px (y * g.cropH / g.outH) (x * g.cropW / g.outW)) ∧
  (∀ (g : CamCfg) (px : Nat → Nat → Nat) (y x : Nat), g.bilinear = true → y < g.outH → x < g.outW → g.outH = g.cropH → g.outW = g.cropW →
    g.scale px y x = px y x) ∧
  (∀ (g : CamCfg) (v : Nat), v < 65536 →
    (g.outFmt = 2 → ∃ u : Nat, g.outElem v = toLe 1 u ∧ 2 * 257 * u ≤ 2 * v + 257 ∧ 2 * v ≤ 2 * 257 * u + 257 ∧ u ≤ 255 ∧
      (g.outFmt = 2 → ({ g with outFmt := 1 } : CamCfg).outElem v = toLe 1 ((u + 128) % 256)))) ∧
  (∀ g : CamCfg, g.outFmt = 8 → g.outElem 0 = [0, 0] ∧ g.outElem 65535 = [0x00, 0x3C]) ∧
  (∀ g : CamCfg, g.gamma.length = 65 → ∀ i, i < 64 → g.gammaOf (64 * i) = nthN g.gamma i) ∧
  lumaOf [65535, 65535, 65535] = 65535 ∧ lumaOf [0, 0, 0] = 0

/-! ### The intake engine (chapter 19) -/

/-- INTAKE_SUBMIT (R449, R450, R460, R466): a well-formed one takes the idle engine with the windows its tenant then holds, or waits, DEFERRED when
INTERACTIVE; a malformed one, or ranges that overlap, refuse with BAD_PARAM, and bytes outside the windows with MEM_WINDOW. -/
def Says.IntakeSubmits : Prop :=
  ∀ (s : State) (c : Cmd), Ready s c 0x00B0 →
    let p := c.params
    let audio := leAt p 1 1 = 0
    let esz := if leAt p 3 1 ≤ 2 then 1 else if leAt p 3 1 = 3 ∨ leAt p 3 1 = 8 ∨ leAt p 3 1 = 9 then 2 else 4
    let row := (if leAt p 1 1 = 0 then leAt p 40 4 else leAt p 44 2 * leAt p 46 2) * leAt p 48 1 * esz
    let marks := if leAt p 0 1 = 0 then 2 * leAt p 6 2 * leAt p 40 4 else if leAt p 1 1 = 0 then 4 * leAt p 6 2 else 0
    let shape := p.length = 64 ∧ leAt p 0 1 ≤ 1 ∧ leAt p 1 1 ≤ 1 ∧ leAt p 2 1 ≤ 2 ∧ (leAt p 0 1 = 0 → audio ∧ leAt p 2 1 = 0) ∧
      (leAt p 3 1 ∈ [1, 8, 9, 10] ∨ (audio ∧ leAt p 3 1 ∈ [3, 4]) ∨ (¬ audio ∧ leAt p 3 1 = 2)) ∧ 1 ≤ leAt p 4 2 ∧ 1 ≤ leAt p 6 2 ∧
      leAt p 8 8 < 2 ^ 40 ∧ leAt p 8 8 % 32 = 0 ∧ leAt p 16 8 < 2 ^ 40 ∧ leAt p 16 8 % 64 = 0 ∧ leAt p 24 8 < 2 ^ 40 ∧ leAt p 32 8 < 2 ^ 40 ∧
      leAt p 32 8 % 16 = 0 ∧
      (audio → 1 ≤ leAt p 40 4 ∧ leAt p 40 4 ≤ 2 ^ 20 ∧ leAt p 44 4 = 0 ∧ 1 ≤ leAt p 48 1 ∧ leAt p 48 1 ≤ 16) ∧
      (¬ audio → leAt p 24 8 = 0 ∧ leAt p 40 4 = 0 ∧ 1 ≤ leAt p 44 2 ∧ leAt p 44 2 ≤ 4096 ∧ 1 ≤ leAt p 46 2 ∧ leAt p 46 2 ≤ 4096 ∧
        (leAt p 48 1 = 1 ∨ leAt p 48 1 = 3)) ∧ leAt p 49 3 = 0 ∧ zerosAt p 56 8 = true
    let outs := [(leAt p 16 8, leAt p 6 2 * row), (leAt p 24 8, marks)] ++ (if leAt p 32 8 = 0 then [] else [(leAt p 32 8, 16 * leAt p 4 2)])
    let in_ : Nat × Nat := (leAt p 8 8, 32 * leAt p 4 2)
    let apart := List.Pairwise (fun (a b : Nat × Nat) => a.2 = 0 ∨ b.2 = 0 ∨ a.1 + a.2 ≤ b.1 ∨ b.1 + b.2 ≤ a.1) (in_ :: outs)
    let ok := s.paramOk c.tenant 0 in_ = true ∧ ∀ r, r ∈ outs → s.paramOk c.tenant 1 r = true
    let it : Intake := { cmd := c.id, cls := c.cls, elig := s.sch.nextElig }
    (¬ (shape ∧ apart) → exec (.intakeSubmit c.id) s = .next (s.complete c 3 0x0107)) ∧
    (shape → apart → ¬ ok → exec (.intakeSubmit c.id) s = .next (s.complete c 3 0x0505)) ∧
    (shape → apart → ok →
      (s.itk.run = none → s.itk.waiting = [] → exec (.intakeSubmit c.id) s = .next { begun s c with
        itk.run := some { it with started := true, windows := s.windowsOf c.tenant }, sch.nextElig := s.sch.nextElig + 1 }) ∧
      (s.itk.run ≠ none → c.cls ≠ .interactive → exec (.intakeSubmit c.id) s = .next { begun s c with
        itk.waiting := s.itk.waiting ++ [it], sch.nextElig := s.sch.nextElig + 1 }) ∧
      (s.itk.run ≠ none → c.cls = .interactive → exec (.intakeSubmit c.id) s = .next (({ begun s c with
        itk.waiting := s.itk.waiting ++ [it], sch.nextElig := s.sch.nextElig + 1 } : State).modCmd c.id (fun d => { d with deferred := true }))))

/-- One sample of the engine (R29, R451, R452, R456-R459, R461): the entry read with the command's own windows is placed, or the command
ends where no row remains; a denied read of the list, of a sample or of the row that PREV repeats ends it with a memory fault, and a bridge in
RETRAIN on the way of an access holds it. A corrupt entry counts and follows the policy: SKIP takes no row, PAD a row of padding, PREV the last good row. -/
def Says.IntakeSamples : Prop :=
  (∀ (s : State) (x : Intake) (c : Cmd), s.itk.run = some x → s.cmd x.cmd = some c →
    let g : Agent := { tenant := some c.tenant, windows := x.windows }
    let ea := leAt c.params 8 8 + 32 * x.idx
    let sm := sampleOf (s.devRead ea 32)
    let may := fun a n => windowsAllow x.windows 0 a n && !(pagesOf a n).any s.inHoard
    let rd := (if may sm.addr sm.len then [(sm.addr, sm.len)] else []) ++ (if sm.hasAug && may sm.aug 16 then [(sm.aug, 16)] else [])
    let p := sm.parse c may s.devRead
    let held := fun (l : List (Nat × Nat)) => l.any (fun r => s.pathHeld none r.1 r.2)
    let again := (x.repeats c p).findSome? (fun r => s.saveDeny c.tenant r.1 r.2 false)
    (held ((ea, 32) :: c.intakeOut) = true → exec .intakeSample s = .next s) ∧
    (s.access g 0 ea 32 = none → held rd = true → exec .intakeSample s = .next s) ∧
    (held ((ea, 32) :: c.intakeOut) = false →
    (∀ d, s.access g 0 ea 32 = some d → exec .intakeSample s = .next (s.itFault c d)) ∧
    (∀ d, s.access g 0 ea 32 = none → held rd = false → s.readFault g rd = some d → exec .intakeSample s = .next (s.itFault c d)) ∧
    (∀ d, s.access g 0 ea 32 = none → held rd = false → s.readFault g rd = none → again = some d →
      exec .intakeSample s = .next (s.itFault c d)) ∧
    (s.access g 0 ea 32 = none → held rd = false → s.readFault g rd = none → again = none →
      (leAt c.params 0 1 = 0 → x.pack c p = none → exec .intakeSample s = .next (s.intakeDone c x)) ∧
      (∀ y, leAt c.params 0 1 = 0 → x.pack c p = some y → exec .intakeSample s = .next (s.intakePlaced c g p y)) ∧
      (leAt c.params 0 1 ≠ 0 →
        exec .intakeSample s = .next (s.intakePlaced c g p (x.batch c p (fun r => s.devRead (c.outAt r 0) c.itRow))))))) ∧
  (∀ s : State, s.itk.run = none → exec .intakeSample s = .next s) ∧
  (∀ (x : Intake) (c : Cmd) (p : Parsed), let len := leAt c.params 40 4
    let rows := leAt c.params 6 2
    (p.reason = 0 → x.fill + p.n ≤ len → x.row < rows → ∃ y : Placed, x.pack c p = some y ∧
      y.writes = [(c.outAt x.row x.fill, p.bytes c p.n), (c.markAt x.row x.fill, (List.replicate p.n (toLe 2 (x.seg + 1))).flatten)] ∧
      y.run = { x with idx := x.idx + 1, fill := x.fill + p.n, seg := x.seg + 1, used := x.row + 1 } ∧ y.report = (x.row, x.fill, p.n, 0) ∧
        y.good = true) ∧
    (p.reason = 0 → len < x.fill + p.n → x.row + 1 < rows → ∃ y : Placed, x.pack c p = some y ∧
      y.run = { x with idx := x.idx + 1, row := x.row + 1, fill := p.n, seg := 1, used := x.row + 2 } ∧ y.report = (x.row + 1, 0, p.n, 0)) ∧
    (p.reason = 0 → len < x.fill + p.n → rows ≤ x.row + 1 → x.pack c p = none) ∧
    (p.reason ≠ 0 → p.late = false → x.pack c p = some { run := { x with idx := x.idx + 1 } }) ∧
    (∀ rb, leAt c.params 1 1 = 0 → p.reason = 0 → let m := min p.n len
      let y := x.batch c p rb
      y.writes = [(c.outAt x.row 0, p.bytes c m ++ c.padFrames (len - m)), (leAt c.params 24 8 + 4 * x.row, toLe 4 m)] ∧
      y.run.row = x.row + 1 ∧ y.run.idx = x.idx + 1 ∧ y.run.lastGood = some (x.row, m) ∧ (y.trunc = true ↔ len < p.n) ∧
      y.run.trunc = x.trunc + (if len < p.n then 1 else 0)) ∧
    (∀ rb, p.reason ≠ 0 → leAt c.params 2 1 = 0 → x.batch c p rb = { run := { x with idx := x.idx + 1 } }) ∧
    (∀ rb, p.reason ≠ 0 → (leAt c.params 2 1 = 1 ∨ (leAt c.params 2 1 = 2 ∧ x.lastGood = none)) → let y := x.batch c p rb
      y.report = (x.row, 0, 0, 2) ∧ y.run.row = x.row + 1 ∧ (c.outAt x.row 0, c.padFrames c.itRowLen) ∈ y.writes) ∧
    (∀ rb r m, p.reason ≠ 0 → leAt c.params 2 1 = 2 → x.lastGood = some (r, m) → let y := x.batch c p rb
      y.report = (x.row, 0, m, 3) ∧ y.run.row = x.row + 1 ∧ (c.outAt x.row 0, rb r) ∈ y.writes)) ∧
  (∀ (s t : State) (c : Cmd) (x : Intake), s.itWrite { tenant := some c.tenant, windows := x.windows } (x.tail c) = .inr t →
    let cap := fun v => toLe 2 (min v 0xFFFF)
    s.intakeDone c x = State.intakeNext (State.served c (cap x.idx ++ cap x.used ++ cap x.corrupt ++ cap x.trunc) { t with itk.run := none }))

/-- Packed tensors (R454-R456): a token of literals and a repeat token read as the spec says; a payload yields at most 64 elements a byte
and never more than the count asked for; DELTA_RLE sums modulo the width; an implausible dimension is reason 3 before any decoding, a wrong
length reason 2. -/
def Says.PackedTensors : Prop :=
  (∀ (e n lim : Nat) (l : List Nat) (rest : List Byte), 1 ≤ e → 1 ≤ l.length → l.length ≤ 128 → l.length ≤ lim → (∀ v, v ∈ l → v < 256 ^ e) →
    rleDecode e (n + 1) lim ([BitVec.ofNat 8 (l.length - 1)] ++ l.flatMap (toLe e) ++ rest) = (rleDecode e n (lim - l.length) rest).map (l ++ ·)) ∧
  (∀ (e n lim k v : Nat) (rest : List Byte), 1 ≤ e → 1 ≤ k → k ≤ 128 → k ≤ lim → v < 256 ^ e →
    rleDecode e (n + 1) lim ([BitVec.ofNat 8 (k + 0x7F)] ++ toLe e v ++ rest) = (rleDecode e n (lim - k) rest).map (List.replicate k v ++ ·)) ∧
  (∀ (e n lim : Nat) (b : List Byte) (l : List Nat), 1 ≤ e → rleDecode e n lim b = some l → l.length ≤ 64 * b.length ∧ l.length ≤ lim) ∧
  (∀ (w a : Nat) (l : List Nat) (i : Nat), i < l.length → (integrate w a l).getD i 0 = (a + (l.take (i + 1)).sum) % 2 ^ w) ∧
  (∀ (x : Sample) (c : Cmd) (ok : Nat → Nat → Bool) (rd : Nat → Nat → List Byte), ok x.addr x.len = true → x.hasAug = false → x.packed = true →
    let hd := rd x.addr (min x.len 32)
    let plen := leAt hd 20 4
    leAt c.params 1 1 = 0 → leAt hd 0 4 = 0xC7A50C01 → leAt hd 4 1 = 1 → leAt hd 6 1 = 2 → leAt hd 7 1 = 0 → leAt hd 16 4 = 0 → plen ≠ 0 →
    zerosAt hd 24 8 = true →
    (x.len ≠ 32 + plen → (x.parse c ok rd).reason = 2) ∧
    (x.len = 32 + plen → plen * 64 < leAt hd 8 4 * leAt hd 12 4 → (x.parse c ok rd).reason = 3)) ∧
  (∀ (x : Sample) (c : Cmd) (ok : Nat → Nat → Bool) (rd : Nat → Nat → List Byte), ok x.addr x.len = false → (x.parse c ok rd).reason = 1)

/-! ### The Shusor link (chapter 21) -/

/-- The receiver (R501, R506, R513): with the port UP a frame with a bad CRC or out of order is discarded and negatively acknowledged; a good one
is acknowledged, advances the expected number and is handled; a CONF frame on an untrusted part is discarded with NOT_TRUSTED; a frame
for another node is forwarded. What the handled frames do: the parts of a message are joined, and a message that is none of a remote stream's or
a spread pool's (logs 14, 42) is delivered, a signal goes in flight, a link change and an announced root
enter the view, a report of an enumeration counts at its part, a quiet state is noted, the first copy of a rack Quill arms its compare, a wake
frame fires source 10; a broadcast goes on. -/
def Says.FramesReceived : Prop :=
  ∀ (s : State) (p : Fin 4) (f : LinkFrame),
    let got := s.modSlp p (fun q => { q with rxSeq := q.rxSeq + 1, acked := some true })
    let bad := s.modSlp p (fun q => { q with acked := some false })
    let kind := leAt f.payload 0 1
    let row := if f.ftype = 2 then Instr.cmdFrame p f else if f.ftype = 3 then Instr.cplFrame p f
      else if f.ftype = 4 then (if kind = 1 then Instr.quietStateFrame p f else if kind = 2 then Instr.enumerationProposal p f false
        else Instr.linkStateFrame p f)
      else if f.ftype = 5 then Instr.quillFrame p f else if f.ftype = 6 then Instr.wakeFrame p f
      else if f.ftype = 7 then Instr.beaconFullValue p f else Instr.dataFrame p f
    let n := leAt f.payload 1 1 % 64
    let onward := fun (t : State) => State.floodVc f.vc f.ftype.toNat f.payload (some p.val) f.src.toNat t
    (f.ftype.toNat < 8 →
      ((s.slp p).st ≠ .up → exec row s = .next s) ∧
      ((s.slp p).st = .up →
        (f.crcOk = false ∨ f.seq ≠ (s.slp p).rxSeq → exec row s = .next bad) ∧
        (f.crcOk = true → f.seq = (s.slp p).rxSeq →
          (f.conf = true → s.key.rackTrusted = false → exec row s = .next (got.errSlk p 5)) ∧
          ((f.conf = false ∨ s.key.rackTrusted = true) → f.dst ≠ 0xFF → f.dst.toNat ≠ s.node → exec row s = .next (got.forward f))))) ∧
    ((s.slp p).st = .up → f.crcOk = true → f.seq = (s.slp p).rxSeq → (f.conf = false ∨ s.key.rackTrusted = true) →
      f.dst.toNat = s.node ∨ f.dst = 0xFF →
      (f.ftype = 0 →
        let body := (if bitN (leAt f.payload 1 1) 2 then [] else tget [] s.slk.parts f.src.toNat) ++ f.payload.drop 4
        let last : State := { got with slk.parts := tset [] s.slk.parts f.src.toNat [] }
        (bitN (leAt f.payload 1 1) 1 = true → exec (.dataFrame p f) s = .next { got with slk.parts := tset [] s.slk.parts f.src.toNat body }) ∧
        (bitN (leAt f.payload 1 1) 1 = false → exec (.dataFrame p f) s = .next (last.wholeArrives f body) ∧
          (leAt body 0 2 < 8 → last.wholeArrives f body = last.msgArrives f body) ∧
          (leAt body 0 2 = 0 ∨ 15 ≤ leAt body 0 2 → last.wholeArrives f body = { last with slk.delivered := s.slk.delivered ++ [f] }) ∧
          (leAt body 0 2 = 9 → last.wholeArrives f body =
            { last with kvShares := s.kvShares.filter (fun e => !(e.1 == f.src.toNat % 64 && e.2.share == leAt body 8 8)) }))) ∧
      (f.ftype = 1 → exec (.dataFrame p f) s = .next { got with sch.signals := s.sch.signals ++
        [{ src := 64 + f.src.toNat, core := kind % 64, cell := leAt f.payload 1 1 % 32, v := leAt f.payload 2 2, tenant := f.tenant.toNat,
           conf := f.conf }] }) ∧
      (f.ftype = 4 → kind = 0 → n = s.node → exec (.linkStateFrame p f) s = .next got) ∧
      (f.ftype = 4 → kind = 0 → n ≠ s.node →
        let links : BitVec 4 := BitVec.ofNat 4 (leAt f.payload 2 1)
        let cuts : BitVec 4 := BitVec.ofNat 4 (leAt f.payload 3 1)
        let was : BitVec 4 := tget 0 s.slk.cuts n
        tget 0 s.slk.links n ≠ links ∨ was ≠ cuts → ∃ l, (∀ k, k < 4 → tget 0 l (4 * n + k) = BitVec.ofNat 16 (leAt f.payload (4 + 2 * k) 2)) ∧
          let seen : State := { got with
            slk.links := tset 0 s.slk.links n links
            slk.cuts := tset 0 s.slk.cuts n cuts
            slk.lats := l }
          let t := (((onward seen).cutAt n (cuts &&& ~~~ was)).migrUnreachable).beaconRoute
          exec (.linkStateFrame p f) s = .next (if tget 0 s.slk.links n = links then t else t.quietAnew)) ∧
      (f.ftype = 4 → kind = 3 →
        (∀ r, s.slk.rootId = some r → r.toNat ≤ n → exec (.linkStateFrame p f) s = .next got) ∧
        (s.slk.root = true → s.node < n → exec (.linkStateFrame p f) s = .next got) ∧
        (s.slk.root = false → s.slk.rootCmd = none → (∀ r, s.slk.rootId = some r → n < r.toNat) →
          exec (.linkStateFrame p f) s = .next (State.beaconRoute (onward
            { got with slk.rootId := some (BitVec.ofNat 6 n), slk.root := false })))) ∧
      (f.ftype = 4 → kind = 4 →
        (leAt f.payload 3 1 % 64 = s.node → exec (.linkStateFrame p f) s = .next (if bitN (leAt f.payload 2 1) 0 then
          { got with slk.enumAdopted := s.slk.enumAdopted + 1 } else { got with slk.enumRefused := s.slk.enumRefused + 1 })) ∧
        (leAt f.payload 3 1 % 64 ≠ s.node → s.slk.enumPort = none → exec (.linkStateFrame p f) s = .next got) ∧
        (∀ k, leAt f.payload 3 1 % 64 ≠ s.node → s.slk.enumPort = some k →
          exec (.linkStateFrame p f) s = .next (got.sendReport k.toNat f.payload))) ∧
      (f.ftype = 4 → kind = 1 → n ≠ s.node →
        (bit s.slk.quietNodes n = decide (leAt f.payload 2 1 ≠ 0) → exec (.quietStateFrame p f) s = .next got) ∧
        (bit s.slk.quietNodes n ≠ decide (leAt f.payload 2 1 ≠ 0) → exec (.quietStateFrame p f) s = .next (onward
          { got with slk.quietNodes := putBit s.slk.quietNodes n (decide (leAt f.payload 2 1 ≠ 0)) }))) ∧
      (f.ftype = 5 → leAt f.payload 0 2 % 64 ≠ s.node →
        let k := (leAt f.payload 0 2 % 64, leAt f.payload 4 4)
        (k ∈ s.slk.quillSeen → exec (.quillFrame p f) s = .next got) ∧
        (k ∉ s.slk.quillSeen → exec (.quillFrame p f) s = .next
          ((onward { got with slk.quillSeen := s.slk.quillSeen ++ [k] }).arm .sfc (leAt f.payload 8 6)
            (.quill 5 (BitVec.ofNat 6 k.1) (BitVec.ofNat 16 (leAt f.payload 2 2)))))) ∧
      (f.ftype = 5 → leAt f.payload 0 2 % 64 = s.node → exec (.quillFrame p f) s = .next got) ∧
      (f.ftype = 6 →
        (s.pmu.dev ≠ .doze → s.pmu.dev ≠ .torpor → exec (.wakeFrame p f) s = .next got) ∧
        (s.pmu.dev = .doze ∨ s.pmu.dev = .torpor →
          (f.dst ≠ 0xFF ∨ bit s.pmu.wakePend 10 = true → exec (.wakeFrame p f) s = .next (got.wakeFire 10)) ∧
          (f.dst = 0xFF → bit s.pmu.wakePend 10 = false → exec (.wakeFrame p f) s = .next ((onward got).wakeFire 10)))))

/-- Acknowledgement and replay (R501, R502, R507, R510, R73): an acknowledgement releases its frame and every earlier one, after which the route
to the beacon root may follow; a negative one, or 5 µs without one,
replays from that frame on, counting each; after the eighth replay the link gives up: GAVE_UP, the frames discarded, RETRAIN; an
acknowledgement in the cycle of the time-out wins. -/
def Says.LinkReplay : Prop :=
  ∀ (s : State) (p : Fin 4),
    let q := s.slp p
    (∀ (seq : BitVec 12) (i : Nat), q.unacked.findIdx? (fun u => u.frame.seq == seq) = some i →
      exec (.ackReceived p seq) s = .next (s.modSlp p (fun q => { q with unacked := q.unacked.drop (i + 1) })).beaconRoute ∧
      ((∀ u, u ∈ q.unacked.drop i → u.replays < 8) → exec (.nakReceived p seq) s = .next (s.modSlp p (fun q => { q with
        unacked := q.unacked.take i ++ (q.unacked.drop i).map (fun u => { u with replays := u.replays + 1 }),
        replay := satAdd q.replay (q.unacked.drop i).length }))) ∧
      ((∃ u, u ∈ q.unacked.drop i ∧ 8 ≤ u.replays) → exec (.nakReceived p seq) s = .next (s.giveUp p))) ∧
    (∀ seq : BitVec 12, (∀ u, u ∈ q.unacked → u.frame.seq ≠ seq) →
      exec (.nakReceived p seq) s = .next s ∧ exec (.ackReceived p seq) s = .next s) ∧
    (q.st = .up → q.unacked ≠ [] →
      ((∀ u, u ∈ q.unacked → u.replays < 8) → exec (.replayTimeout p false) s = .next (s.modSlp p (fun q => { q with
        unacked := q.unacked.map (fun u => { u with replays := u.replays + 1 }), replay := satAdd q.replay q.unacked.length }))) ∧
      ((∃ u, u ∈ q.unacked ∧ 8 ≤ u.replays) → exec (.replayTimeout p false) s = .next (s.giveUp p)) ∧
      exec (.replayTimeout p true) s = .next (s.modSlp p (fun q => { q with unacked := q.unacked.drop 1 })).beaconRoute.tie) ∧
    (q.st ≠ .up ∨ q.unacked = [] → ∀ tie, exec (.replayTimeout p tie) s = .next s) ∧
    (bit s.obs.quillCtrl 7 = false → s.cmds = [] → s.streams = [] → (s.giveUp p).slp p = { q with
        err := setBit q.err 3, unacked := [], held := [], st := .retrain, retraining := false, attempts := 0, gaveUp := true }) ∧
    (∀ c, s.cmds = [c] → c.remote = some p.val → c.epoch = none → s.jobs = [] → ∀ d ∈ (s.giveUp p).cmds, d.id ≠ c.id)

/-- Training (R499, R503-R505, R514): each phase's end moves the port on, with the width of the good lanes contiguous from lane 0 within
WIDTH_MAX, and within the width agreed on in a change, and LANE_DROP for a dropped lane; a wrong neighbour is an error when wiring is checked; a
port that reaches UP serves its commands, but not a request that waits for its back-off; a time-out fails the attempt, the third one
gives DOWN_NO_PARTNER with NO_PARTNER; AUTO_RETRY starts a fresh set. -/
def Says.LinkTraining : Prop :=
  ∀ (s : State) (p : Fin 4) (r : PhaseResult),
    let q := s.slp p
    let m := min q.widthMax (q.agreed.getD 4)
    let w := goodWidth r.lanes m
    let boot := s.glb.stage = 1 ∧ s.glb.bootMode = 5
    let lanes := if (∀ i, i < m → bit r.lanes i = true) then s else s.errSlk p 4
    (q.st = .detect → exec (.shusorPhaseComplete p r) s = .next (s.modSlp p (fun q => { q with st := .trainBit }))) ∧
    (q.st = .trainBit → w ≠ 0 → exec (.shusorPhaseComplete p r) s = .next (lanes.modSlp p (fun q => { q with
      st := .trainCfg, width := widthCode w, rate16 := q.rateCfg && r.partner16g && s.rev2 }))) ∧
    (q.st = .retrain → q.retraining = false → w ≠ 0 → exec (.shusorPhaseComplete p r) s = .next (lanes.modSlp p (fun q => { q with
      retraining := true, width := widthCode w, rate16 := q.rateCfg && r.partner16g && s.rev2 }))) ∧
    (q.st = .trainBit ∨ (q.st = .retrain ∧ q.retraining = false) → w = 0 → exec (.shusorPhaseComplete p r) s = .next (lanes.attemptFails p)) ∧
    (q.st = .trainCfg ∨ (q.st = .retrain ∧ q.retraining = true) →
      let found := s.modSlp p (fun q => { q with partner := r.partner, lat := r.latency })
      (bit s.slk.ctrl 8 = true → ¬ boot → r.partner.toNat ≠ s.neighbour s.node p → exec (.shusorPhaseComplete p r) s = .next (found.portError p 1)) ∧
      ((bit s.slk.ctrl 8 = false ∨ boot ∨ r.partner.toNat = s.neighbour s.node p) →
        let up := (found.modSlp p SlkPort.resume).linkChanged
        (q.backoff = true → q.reqSent ≠ none → exec (.shusorPhaseComplete p r) s = .next up) ∧
        (q.backoff = false ∨ q.reqSent = none → exec (.shusorPhaseComplete p r) s = .next
          (up.portServes p (toLe 8 (if q.reqWidth then widthOf q.width else 0)))))) ∧
    (q.resume.st = .up ∧ q.resume.unacked.map (·.frame.payload) = (q.unacked ++ q.held).map (·.frame.payload) ∧ q.resume.held = [] ∧
      q.resume.unacked.map (·.replays) = (q.unacked ++ q.held).map (·.replays) ∧ q.resume.unacked.map (·.cand) = (q.unacked ++ q.held).map (·.cand) ∧
      (∀ i u, q.resume.unacked[i]? = some u → u.frame.seq = BitVec.ofNat 12 i) ∧ q.resume.rxSeq = 0) ∧
    (q.st = .up ∨ q.st = .disabled ∨ q.st = .downNoPartner ∨ q.st = .error → exec (.shusorPhaseComplete p r) s = .next s ∧
      exec (.trainingPhaseTimeout p) s = .next s) ∧
    (q.st = .detect ∨ q.st = .trainBit ∨ q.st = .trainCfg ∨ q.st = .retrain →
      (q.attempts.toNat < 2 → exec (.trainingPhaseTimeout p) s = .next (s.modSlp p (fun q => { q with
        attempts := q.attempts + 1, retraining := false, st := if q.st = .retrain then .retrain else .detect }))) ∧
      (2 ≤ q.attempts.toNat → q.cmds = [] → (∀ c, c ∈ s.cmds → c.remote = none ∧ c.path = []) → s.streams = [] →
        (∀ u, u ∈ q.unacked ++ q.held → u.frame.ftype ≠ 1) →
        ∃ t, exec (.trainingPhaseTimeout p) s = .next t ∧ (t.slp p).st = .downNoPartner ∧ bit (t.slp p).err 2 = true ∧ (t.slp p).width = 0 ∧
          (t.slp p).unacked = [] ∧ t.mem = s.mem ∧ t.cmds = s.cmds ∧ (q.st ≠ .retrain → ∀ k, k < 4 → k ≠ p.val → t.slp k = s.slp k))) ∧
    (q.st = .downNoPartner → q.autoRetry = true →
      exec (.autoRetryTimer p) s = .next (s.modSlp p (fun q => { q with st := .detect, attempts := 0 }))) ∧
    (q.st ≠ .downNoPartner ∨ q.autoRetry = false → ∃ t, exec (.autoRetryTimer p) s = .next t ∧ ∀ k, t.slp k = s.slp k) ∧
    (∀ (l : BitVec 4) (m : Nat), (m = 1 ∨ m = 2 ∨ m = 4) → goodWidth l m ≤ m ∧ goodWidth l m ∈ [0, 1, 2, 4] ∧
      (∀ i, i < goodWidth l m → bit l i = true) ∧ ∀ k, (k = 1 ∨ k = 2 ∨ k = 4) → k ≤ m → (∀ i, i < k → bit l i = true) → k ≤ goodWidth l m)

/-- Retrains and width changes (R503-R505, R518-R520): a request to an idle end, or to one whose own request waits for its back-off, is carried
out; of two simultaneous ones the lower NODE_ID
leads and the narrower width holds; equal IDs clash and back off, the fourth time the port enters ERROR with SL_ID_CLASH; an acceptance
carries out the request; a narrowing takes place at once with the width reached, anything else retrains; WIDTH_MAX stays the limit, and this end's
own SET_WIDTH becomes it. -/
def Says.LinkRetrains : Prop :=
  ∀ (s : State) (p : Fin 4),
    let q := s.slp p
    (q.st ≠ .up → (∀ w n, exec (.retrainRequest p w n) s = .next s) ∧ exec (.retrainAccept p) s = .next s) ∧
    (q.st = .up →
      let own := fun (m : Nat) => s.modSlp p (fun q => { q with widthMax := m })
      (∀ (w : Option (Fin 5)) (n : BitVec 6),
        (q.reqSent = none ∨ q.backoff = true → exec (.retrainRequest p w n) s = .next (s.applyWidth p (w.map (·.val)))) ∧
        (∀ m, q.reqSent = some m → q.backoff = false → n.toNat = s.node →
          let clash := s.modSlp p (fun q => { q with clashes := if q.clashes = 7 then 7 else q.clashes + 1, backoff := true })
          (q.clashes.toNat < 3 → exec (.retrainRequest p w n) s = .next clash) ∧
          (3 ≤ q.clashes.toNat → exec (.retrainRequest p w n) s = .next (clash.portError p 0))) ∧
        (∀ m, q.reqSent = some m → q.backoff = false → n.toNat ≠ s.node →
          (q.reqWidth = false → w = none → exec (.retrainRequest p w n) s = .next (s.retrainPort p none)) ∧
          (∀ v, q.reqWidth = false → w = some v → exec (.retrainRequest p w n) s =
            .next (if s.node < n.toNat then s.retrainPort p (some v.val) else s.applyWidth p (some v.val))) ∧
          (∀ v, q.reqWidth = true → w = some v → exec (.retrainRequest p w n) s = .next ((own m).applyWidth p (some (min m v.val)))) ∧
          (q.reqWidth = true → w = none → exec (.retrainRequest p w n) s =
            .next (if s.node < n.toNat then (own m).applyWidth p (some m) else (own m).retrainPort p (some m))))) ∧
      (∀ m, q.reqSent = some m → q.backoff = false →
        (q.reqWidth = true → exec (.retrainAccept p) s = .next ((own m).applyWidth p (some m))) ∧
        (q.reqWidth = false → exec (.retrainAccept p) s = .next (s.retrainPort p none))) ∧
      (q.reqSent = none ∨ q.backoff = true → exec (.retrainAccept p) s = .next s)) ∧
    exec (.clashBackoffExpiry p) s = .next (s.modSlp p (fun q => { q with backoff := false })) ∧
    s.applyWidth p none = s.retrainPort p none ∧
    (∀ v, let w := min v q.widthMax
      let kept := if q.backoff = true ∧ q.reqSent ≠ none then q.reqSent else none
      let narrow := s.modSlp p (fun q => { q with width := widthCode w, reqSent := kept })
      (w ≤ widthOf q.width → s.applyWidth p (some v) = if q.backoff = true ∧ q.reqSent ≠ none then narrow else narrow.portServes p (toLe 8 w)) ∧
      (widthOf q.width < w → s.applyWidth p (some v) = s.retrainPort p (some w))) ∧
    (∀ v, s.streams = [] → let t := (s.retrainPort p v).slp p
      t = { q with st := .retrain, retraining := false, attempts := 0, agreed := v,
                   reqSent := if q.backoff = true ∧ q.reqSent ≠ none then q.reqSent else none,
                   txSeq := t.txSeq, held := t.held } ∧
      q.held <+: t.held)

/-- Routes (R500, R504, R506, R507): a route's links are all UP, but for one on a port of this part that holds its traffic in a retrain (where no
other is UP, log 136); it ends at its destination; its first candidate whose links are up is taken
unless an unacknowledged or held frame of the pair keeps another; with no candidate left there is none. -/
def Says.LinkRoutes : Prop :=
  (∀ (s : State) (src dst k : Nat) (h : List (Nat × Nat)), s.routeOf src dst = some (k, h) →
    let up := ∀ e, e ∈ h → s.linkUpAt e.1 e.2 = true
    1 ≤ k ∧ h = s.hopsOf s.node (s.candPorts s.node dst k) ∧
    (∀ e, e ∈ h → s.linkUpAt e.1 e.2 = true ∨ (e.1 = s.node ∧ (s.slp e.2).st = .retrain ∧ (s.slp e.2).gaveUp = false)) ∧
    (s.candInUse src dst = none → k ≤ 5 ∧ (up → ∀ j, 1 ≤ j → j < k → s.candRoute false dst j = none) ∧
      (¬ up → ∀ j, 1 ≤ j → j ≤ 5 → s.candRoute false dst j = none))) ∧
  (∀ (s : State) (src dst k : Nat) (h : List (Nat × Nat)), s.candInUse src dst = some k → s.candRoute true dst k = some (k, h) →
    s.routeOf src dst = some (k, h)) ∧
  (∀ (s : State) (src dst : Nat), s.candInUse src dst = none → (∀ k, 1 ≤ k → k ≤ 5 → s.candRoute true dst k = none) → s.routeOf src dst = none) ∧
  (∀ (s : State) (dst k : Nat) (h : List (Nat × Nat)), s.upRoute dst = some (k, h) → ∀ e, e ∈ h → s.linkUpAt e.1 e.2 = true) ∧
  (∀ (s : State) (dst k : Nat), 1 ≤ k → k ≤ 5 → s.node < 64 → dst < 64 → s.node % 8 < s.rackX → s.node / 8 < s.rackY → dst % 8 < s.rackX →
    dst / 8 < s.rackY → s.rackX ≤ 8 → s.rackY ≤ 8 → (s.candPorts s.node dst k).foldl (fun n p => s.neighbour n p) s.node = dst) ∧
  (∀ (s : State) (h : List (Nat × Nat)), s.pathLat h = (h.map (fun e => s.linkLat e.1 e.2)).sum + 12 * (h.length - 1))

/-- Enumeration (R38, R42, R508): the first proposal gives the part the sender's neighbour in the opposite direction and the extents, with
OVERRIDDEN, and goes on; a locked part keeps its ID; either reports back to the part that enumerates; a later one with another ID sets WIRING.
ENUMERATION_COMPLETE gives the counts of the reports. (The proposal's and the report's layout: log 14. A proposal more than 10 ms after the
first belongs to another enumeration: log 48.) A lock of the same cycle comes first. -/
def Says.Enumeration : Prop :=
  (∀ (s : State) (p : Fin 4) (f : LinkFrame), f.ftype = 4 → leAt f.payload 0 1 = 2 → (s.slp p).st = .up → f.crcOk = true →
    f.seq = (s.slp p).rxSeq → (f.conf = false ∨ s.key.rackTrusted = true) → (f.dst = 0xFF ∨ f.dst.toNat = s.node) →
    let got := s.modSlp p (fun q => { q with rxSeq := q.rxSeq + 1, acked := some true })
    let x := leAt f.payload 2 1 % 8
    let y := leAt f.payload 3 1 % 8
    let origin := leAt f.payload 4 1 % 64
    let ext : State := { got with slk.ctrl := (s.slk.ctrl &&& ~~~ 0x3F#32) ||| BitVec.ofNat 32 (x + 8 * y) }
    let id := ext.neighbour (leAt f.payload 1 1 % 64) (if p.val % 2 = 0 then p.val + 1 else p.val - 1)
    (s.enumSeen = false → s.tdiLocked = false →
      let t : State := { ext with
        glb.activeId := BitVec.ofNat 6 id, glb.overridden := true, slk.enumAt := some s.tb.sfc, slk.enumPort := some (BitVec.ofNat 2 p) }
      exec (.enumerationProposal p f false) s = .next (((t.flood 4
        (toLe 1 2 ++ toLe 1 t.node ++ toLe 1 x ++ toLe 1 y ++ toLe 1 origin ++ toLe 3 0) (some p.val) t.node).sendReport p
        (toLe 1 4 ++ toLe 1 id ++ toLe 1 1 ++ toLe 1 origin)).linkChanged)) ∧
    (s.enumSeen = false → s.tdiLocked = true → exec (.enumerationProposal p f false) s = .next
      (State.sendReport p (toLe 1 4 ++ toLe 1 s.node ++ toLe 1 0 ++ toLe 1 origin)
        { got with slk.enumAt := some s.tb.sfc, slk.enumPort := some (BitVec.ofNat 2 p) })) ∧
    (s.enumSeen = true →
      (id ≠ s.node → exec (.enumerationProposal p f false) s = .next (got.errSlk p 1)) ∧
      (id = s.node → exec (.enumerationProposal p f false) s = .next got))) ∧
  (∀ s : State, (s.slk.enumAt = none → s.enumSeen = false) ∧ (s.slk.enumAt = some s.tb.sfc → 0 < s.rateHz → s.enumSeen = true)) ∧
  (∀ (s : State) (p : Fin 4) (f : LinkFrame), exec (.enumerationProposal p f true) s =
    exec (.enumerationProposal p f false) (if s.key.spdm = .established then s.lockTdi else s)) ∧
  (∀ (s : State) (p : Fin 4) (f : LinkFrame), f.ftype ≠ 4 ∨ leAt f.payload 0 1 ≠ 2 → exec (.enumerationProposal p f false) s = .next s) ∧
  (∀ (s : State) (c : Cmd), s.cmd c.id = some c → c.op = 0x00A0 → leAt c.params 0 1 = 6 → c.phase = .running → c.remote = none →
    exec (.enumerationComplete c.id) s = .next (s.served c (toLe 2 s.slk.enumAdopted ++ toLe 6 (s.slk.enumRefused % 65536))))

/-- LINK_CTRL (R42, R504, R508, R509, R513, R515, R516, Table 21.3): the effect of each action of a well-formed block, and its refusals: a
field the action does not use, 16 Gb/s on revision 1, every action while the interface is locked, BEACON_ROOT on a beacon follower, BEACON_JOIN
with a stream open or without a root, a bind to an unreachable node; an override in the cycle of the lock is refused with CONFIG_LOCKED. (Where a
command waits or fails on a port that is not UP is log 38.) -/
def Says.LinkControl : Prop :=
  ∀ (s : State) (c : Cmd), Ready s c 0x00A0 →
    let b := c.params
    let p := leAt b 1 1
    let n := leAt b 2 1
    let w := leAt b 3 1
    let r := leAt b 4 1
    let wOk := w = 1 ∨ w = 2 ∨ w = 4
    let shape := fun (a : Nat) => b.length = 16 ∧ leAt b 0 1 = a ∧ (if a ≤ 4 ∨ a = 11 then p ≤ 3 else p = 0) ∧
      (if a = 5 ∨ a = 6 ∨ a = 9 then n ≤ 63 else n = 0) ∧ (if a = 0 ∨ a = 3 then wOk else w = 0) ∧ (if a = 0 ∨ a = 4 then r ≤ 1 else r = 0) ∧
      (if a = 0 then leAt b 5 1 ≤ 1 else leAt b 5 1 = 0) ∧ (if a = 9 ∨ a = 10 then leAt b 6 1 ≤ 63 else leAt b 6 1 = 0) ∧ leAt b 7 1 = 0 ∧
      (if a = 6 then 1 ≤ leAt b 8 1 ∧ leAt b 8 1 ≤ 8 ∧ 1 ≤ leAt b 9 1 ∧ leAt b 9 1 ≤ 8 else leAt b 8 1 = 0 ∧ leAt b 9 1 = 0) ∧ zerosAt b 10 6 = true
    let row := fun (a : Nat) => match a with
      | 1 => Instr.portDown c.id
      | 2 => .retrain c.id
      | 3 => .setWidth c.id
      | 4 => .setRate c.id
      | 5 => .setNodeId c.id false
      | 6 => .enumerate c.id false
      | 7 => .beaconRoot c.id
      | 8 => .beaconJoin c.id
      | 9 => .proxyBind c.id
      | 10 => .proxyUnbind c.id
      | 11 => .portReset c.id
      | _ => .portUp c.id
    let s1 := begun s c
    let c1 := going c
    let st := (s.slp p).st
    let training := st = .detect ∨ st = .trainBit ∨ st = .trainCfg ∨ st = .retrain
    let rate := r = 0 ∨ s.rev2 = true
    let waits := fun (t : State) => t.modSlp p (fun q => { q with cmds := q.cmds ++ [c.id] })
    (¬ shape (leAt b 0 1) ∨ 11 < leAt b 0 1 → exec (row (leAt b 0 1)) s = .next (s.complete c 3 0x0107)) ∧
    (∀ a, a ≤ 11 → shape a → r = 1 → s.rev2 = false → exec (row a) s = .next (s.complete c 3 0x0501)) ∧
    (∀ a, a ≤ 11 → shape a → rate → s.tdiLocked = true → exec (row a) s = .next (s.complete c 3 0x0601)) ∧
    (s.tdiLocked = false → rate →
      (shape 0 → let set_ := s1.modSlp p (fun q => { q with widthMax := w, rateCfg := r == 1, autoRetry := leAt b 5 1 == 1 })
        (st = .disabled → exec (.portUp c.id) s = .next (waits (set_.modSlp p (fun q => { q with st := .detect, attempts := 0, powerOff := false })))) ∧
        (st = .downNoPartner → exec (.portUp c.id) s = .next (waits (set_.modSlp p (fun q => { q with st := .detect, attempts := 0 })))) ∧
        (training → exec (.portUp c.id) s = .next (waits set_)) ∧
        (st = .error → exec (.portUp c.id) s = .next (set_.complete c1 4 0x0701)) ∧
        (st = .up → exec (.portUp c.id) s = .next (set_.served c1 []))) ∧
      (shape 1 → ∃ t, exec (.portDown c.id) s = .next t ∧ (t.slp p).st = .disabled ∧ (t.slp p).width = 0 ∧
        (s.streams = [] → s.cmds = [c] → (t.slp p).unacked = [] ∧ (t.slp p).held = [])) ∧
      (shape 2 →
        (st = .up → (s.slp p).reqSent = none → exec (.retrain c.id) s = .next (waits (s1.modSlp p (fun q => { q with
          reqSent := some 0, reqWidth := false, backoff := false })))) ∧
        (∀ m, st = .up → (s.slp p).reqSent = some m → ∃ t, exec (.retrain c.id) s = .next t ∧
          t.slp p = { (s.slp p) with cmds := (s.slp p).cmds ++ [c.id] } ∧ t.cmds = s1.cmds) ∧
        (training → exec (.retrain c.id) s = .next (waits s1)) ∧
        (st = .downNoPartner → exec (.retrain c.id) s = .next (s1.complete c1 4 0x0702)) ∧
        (st = .error ∨ st = .disabled → exec (.retrain c.id) s = .next (s1.complete c1 4 0x0701))) ∧
      (shape 3 → let set_ := s1.modSlp p (fun q => { q with widthMax := w })
        (st = .up → (s.slp p).reqSent = none → exec (.setWidth c.id) s = .next (waits (s1.modSlp p (fun q => { q with
          reqSent := some w, reqWidth := true, backoff := false })))) ∧
        (training → exec (.setWidth c.id) s = .next (waits set_)) ∧
        (st = .downNoPartner → exec (.setWidth c.id) s = .next (set_.complete c1 4 0x0702)) ∧
        (st = .error ∨ st = .disabled → exec (.setWidth c.id) s = .next (set_.complete c1 4 0x0701))) ∧
      (shape 4 → let set_ := s1.modSlp p (fun q => { q with rateCfg := r == 1 })
        (st = .up → (s.slp p).reqSent = none → exec (.setRate c.id) s = .next (waits (set_.modSlp p (fun q => { q with
          reqSent := some 0, reqWidth := false, backoff := false })))) ∧
        (training → exec (.setRate c.id) s = .next (waits set_)) ∧
        (st = .downNoPartner → exec (.setRate c.id) s = .next (set_.complete c1 4 0x0702)) ∧
        (st = .error ∨ st = .disabled → exec (.setRate c.id) s = .next (set_.complete c1 4 0x0701))) ∧
      (s.key.spdm = .established →
        (shape 5 → exec (.setNodeId c.id true) s = .next (s.lockTdi.complete c 3 0x0601)) ∧
        (shape 6 → exec (.enumerate c.id true) s = .next (s.lockTdi.complete c 3 0x0601))) ∧
      (shape 5 → exec (.setNodeId c.id false) s =
        .next ((State.linkChanged { s1 with glb.activeId := BitVec.ofNat 6 n, glb.overridden := true }).served c1 [])) ∧
      (shape 6 → exec (.enumerate c.id false) s = .next (let t : State := { s1 with
          slk.ctrl := (s.slk.ctrl &&& ~~~ 0x3F#32) ||| BitVec.ofNat 32 (leAt b 8 1 - 1 + 8 * (leAt b 9 1 - 1)), glb.activeId := BitVec.ofNat 6 n,
          glb.overridden := true, slk.enumAt := some s.tb.sfc, slk.enumPort := none, slk.enumAdopted := 0, slk.enumRefused := 0 }
        (t.flood 4 (t.proposal t.node) none t.node).linkChanged)) ∧
      (shape 7 →
        (fld s.tb.ctrl 0 2 = 2 ∨ (s.slk.root = false ∧ s.slk.rootId ≠ none) → exec (.beaconRoot c.id) s = .next (s.complete c 3 0x0107)) ∧
        (fld s.tb.ctrl 0 2 ≠ 2 → (s.slk.root = true ∨ s.slk.rootId = none) →
          let t : State := { s1 with slk.root := true, slk.rootId := some s.glb.activeId }
          let told := t.flood 4 (toLe 1 3 ++ toLe 3 s.node) none s.node
          ((∃ k, k < 4 ∧ (s.slp k).st = .up) → exec (.beaconRoot c.id) s = .next { told with slk.rootCmd := some (c.id, s.tb.sfc) }) ∧
          ((∀ k, k < 4 → (s.slp k).st ≠ .up) → exec (.beaconRoot c.id) s = .next (told.served c1 [])) ∧
          ((∀ k, k < 4 → (s.slp k).st ≠ .up ∧ (s.slp k).st ≠ .retrain) → told = t))) ∧
      (shape 8 →
        (s.openStreams ≠ 0 ∨ s.anyExcite = true → exec (.beaconJoin c.id) s = .next (s.complete c 3 0x0401)) ∧
        (s.openStreams = 0 → s.anyExcite = false → (s.slk.root = true ∨ s.slk.rootId = none ∨ ∃ m, s.slk.rootId = some m ∧ s.route m.toNat = none) →
          exec (.beaconJoin c.id) s = .next (s.complete c 3 0x0702)) ∧
        (∀ m k, s.openStreams = 0 → s.anyExcite = false → s.slk.root = false → s.slk.rootId = some m → s.route m.toNat = some k →
          exec (.beaconJoin c.id) s = .next (((s1.writeTbCtrl ((s.tb.ctrl &&& ~~~ 3#32) ||| 2#32)).beaconRoute).served c1 []))) ∧
      (shape 9 →
        (s.route n = none ∨ (∃ k, s.route n = some (k, [])) → exec (.proxyBind c.id) s = .next (s.complete c 3 0x0702)) ∧
        (∀ k e l, s.route n = some (k, e :: l) →
          exec (.proxyBind c.id) s = .next ((s1.modRing (leAt b 6 1) (fun q => { q with proxy := some (BitVec.ofNat 6 n) })).served c1 []))) ∧
      (shape 10 → exec (.proxyUnbind c.id) s = .next ((s1.modRing (leAt b 6 1) (fun q => { q with proxy := none })).served c1 [])) ∧
      (shape 11 → exec (.portReset c.id) s = .next ((s1.modSlp p (fun q => { q with
        st := if q.st = .error then .disabled else q.st, clashes := 0 })).served c1 [])))

/-! ### Observability and register access (chapter 22, section 24) -/

/-- SNAPSHOT (R528, R530, R531): a malformed one refuses with BAD_PARAM, one read while ARMED is 0 with JOBS_ACTIVE; without AT it latches at once and
completes with the new sequence number; with AT a compare on its SFC value is armed. -/
def Says.Snapshots : Prop :=
  ∀ (s : State) (c : Cmd), Ready s c 0x0080 →
    let b := c.params
    let shape := b.length = 16 ∧ leAt b 2 1 < 4 ∧ leAt b 3 1 = 0 ∧ (leAt b 2 1 < 2 → leAt b 4 6 = 0) ∧ leAt b 10 6 = 0
    (¬ shape → exec (.snapshot c.id) s = .next (s.complete c 3 0x0107)) ∧
    (shape → s.obs.armed = false → exec (.snapshot c.id) s = .next (s.complete c 3 0x0402)) ∧
    (shape → s.obs.armed = true → leAt b 2 1 = 2 →
      exec (.snapshot c.id) s = .next ((begun s c).arm .sfc (leAt b 4 6) (.snap c.id))) ∧
    (shape → s.obs.armed = true → leAt b 2 1 = 0 → bit s.obs.quillCtrl 0 = false → c.late = 0 →
      let t := (begun s c).latch (begun s c) { source := 0, tag := BitVec.ofNat 16 (leAt b 0 2), origin := s.node }
      exec (.snapshot c.id) s = .next (t.finish (going c) { oc := 0, skipped := c.skipped, result := toLe 8 t.obs.snapSeq.toNat }))

/-- Triggers and the latch (R529-R533, R538, R541): while ARMED is 1 a trigger increments the sequence number, writes the record and, with
HOLD, clears ARMED; copies hold what a read returned before; a die that is off reads 0 in its copies and sets SNAP_OFF; while ARMED is 0 a
trigger is counted as missed. The sources: a write to QUILL_FIRE, the pin with PIN_EN, both at once as one latch, the trigger of a die;
REARM sets ARMED; the ball is released. -/
def Says.QuillTriggers : Prop :=
  (∀ (s pre : State) (q : Quill), s.obs.armed = false → s.quill pre q = State.errObs 0 { s with obs.missed := satInc s.obs.missed }) ∧
  (∀ (s pre : State) (q : Quill), let t := s.latch pre q
    t.obs.snapSeq = s.obs.snapSeq + 1 ∧ t.obs.snapSource = BitVec.ofNat 3 q.source ∧ t.obs.snapTag = q.tag ∧ t.obs.snapRack = q.rack ∧
    t.obs.snapOrigin = BitVec.ofNat 6 q.origin ∧ t.obs.snapSfc = pre.tb.sfc ∧ t.obs.armed = !bit s.obs.quillCtrl 0 ∧
    t.obs.snapLate = satN 32 q.late ∧ (∀ d, d < 4 → (bit t.obs.snapDieOff d = true ↔ pre.dieUp d = false)) ∧
    t.obs.pinLow = (s.obs.pinLow || bit s.obs.quillCtrl 14) ∧ (q.also = 0 → q.source < 7 → t.obs.snapMask = oneBit 7 q.source) ∧
    ((∃ d, d < 4 ∧ pre.dieUp d = false) → bit t.obs.err 1 = true) ∧ t.cmds = s.cmds ∧ t.mem = s.mem ∧ t.tb = s.tb ∧ t.cores = s.cores ∧
    (∀ a, a ∈ iodRegs → tget 0 t.obs.copies (a + 0x8000) = BitVec.ofNat 32 (pre.readPlace .bar0 (placeOf a)))) ∧
  (∀ (s : State) (v : W32), bit v 16 = false →
    exec (.obsQuillFireWrite v) s = .next (s.quill s { source := 0, tag := v.setWidth 16, origin := s.node })) ∧
  (∀ (s : State) (v : W32), bit v 16 = true →
    exec (.obsQuillFireWrite v) s = .next ((s.floodQuill (v.setWidth 16) s.quillLead).arm .sfc s.quillLead (.quill 0 s.glb.activeId
      (v.setWidth 16)))) ∧
  (∀ s : State, (bit s.obs.quillCtrl 12 = false ∨ s.obs.pinLow = true → exec (.quillPinFall none) s = .next s) ∧
    (bit s.obs.quillCtrl 12 = true → s.obs.pinLow = false → bit s.obs.quillCtrl 13 = false →
      exec (.quillPinFall none) s = .next (s.quill s { source := 4, origin := s.node }) ∧
      (∀ v, bit v 16 = false → exec (.quillPinFall (some v)) s =
        .next (s.quill s { source := 0, tag := v.setWidth 16, origin := s.node, also := 0x10 })))) ∧
  (∀ s : State, exec .quillPinOutEnd s = .next { s with obs.pinLow := false }) ∧
  (∀ (s : State) (v : W32) (tie : Bool), (bit v 0 = false → exec (.obsQuillRearmWrite v tie) s = .next s) ∧
    (bit v 0 = true → exec (.obsQuillRearmWrite v false) s = .next { s with obs.armed := true }) ∧
    (bit v 0 = true → exec (.obsQuillRearmWrite v true) s =
      .next ((State.quill { s with obs.armed := true } s { source := 0, origin := s.node }).tie))) ∧
  (∀ (s : State) (t : Trigger) (l : List Trigger), s.obs.upTriggers = t :: l → t.rack = false →
    exec (.quillSidebandArrival none) s =
      .next (State.quill { s with obs.upTriggers := l } { s with obs.upTriggers := l } { source := t.source.toNat, tag := t.tag, origin := s.node })) ∧
  (∀ (s : State) (d : Fin 4), (bit s.obs.dieLatch d = false → exec (.quillSidebandArrival (some d)) s = .next s) ∧
    (bit s.obs.dieLatch d = true → s.dieUp d = true → exec (.quillSidebandArrival (some d)) s =
      .next (State.latchFrom { s with obs.dieLatch := putBit s.obs.dieLatch d false } s (dieRegs d))))

/-- Reads and writes of registers (R3, R5-R8, R54, R130, R527, R536, R547-R549): a read of an accessible register returns its value, a
read-clear counter is left at 0 or at the one event of the cycle; reserved space, an offset that no table lists, reads 0; an off block reads
0x0FF0_0FF0 and keeps a record; a write-1-to-clear register loses the bits written 1 but those that hardware sets, which end 1 even where
they were 0; reserved space ignores a write; the telemetry window copies its entry; an access of another width returns 0 and does nothing.
An access of an off block with its AUTOWAKE bit set stalls, and the stalled accesses complete in order once their block is awake (R131). -/
def Says.RegisterAccess : Prop :=
  (∀ (s : State) (sd : Side) (off : BitVec 25) (ev : Nat),
    (listed off.toNat = false → exec (.rcRegisterRead sd off ev) s = .next { s with rdata := 0 }) ∧
    (listed off.toNat = true → s.offAt off.toNat = true → s.wakes off.toNat = none →
      exec (.rcRegisterRead sd off ev) s = .next { s.offAccess sd off.toNat with rdata := 0x0FF00FF0 }) ∧
    (∀ b, listed off.toNat = true → s.offAt off.toNat = true → s.wakes off.toNat = some b →
      exec (.rcRegisterRead sd off ev) s = .next (s.stall sd off.toNat none b) ∧
      ∀ v hw, exec (.registerWrite sd off v hw) s = .next (s.stall sd off.toNat (some v) b)) ∧
    (listed off.toNat = true → s.offAt off.toNat = false → exec (.rcRegisterRead sd off ev) s =
      .next { s.readEffect sd ev (placeOf off.toNat) with rdata := (s.readRaw sd off.toNat).setWidth 64 })) ∧
  (∀ a : Nat, 0x1100000 ≤ a ∨ (0x100000 ≤ a ∧ 0x200000 ≤ (a - 0x100000) % 0x400000) → listed a = false) ∧
  (∀ (s : State) (sd : Side) (a : Nat) (w : Option W32) (b : WakeBlock), (s.stall sd a w b).pmu.stalled =
      s.pmu.stalled ++ [{ side := sd, off := BitVec.ofNat 25 a, w := w, block := b }]) ∧
  (∀ (s : State) (sd : Side) (ev : Nat), s.readEffect sd ev (.iod 14 0x8C) = { s with obs.tie := satN _ ev } ∧
    s.readEffect sd ev (.iod 7 0x440) = { s with sch.commits := satN _ ev } ∧
    s.readEffect sd ev (.iod 7 0x20C) = { s with sch.preemptMax := satN _ ev } ∧
    s.readEffect sd ev (.iod 7 0x448) = { s with sch.discardCc := satN _ ev } ∧
    s.readEffect sd ev (.iod 6 0x1010) = { s with gcp.lateDrop := satN _ ev } ∧
    s.readEffect sd ev (.iod 11 0x10) = { s with cam.frameDrop := satN _ ev } ∧
    s.readEffect sd ev (.iod 12 0x44) = { s with itk.samples := satN _ ev } ∧
    s.readEffect sd ev (.iod 5 0x128) = { s with aon.drop := satN _ ev } ∧
    (∀ k, k < 7 → s.readEffect sd ev (.iod 14 (0x70 + 4 * k)) = { s with obs.outcomes := tset 0 s.obs.outcomes k (satN _ ev) })) ∧
  (∀ (s : State) (sd : Side) (off : BitVec 25) (v hw : W32),
    (listed off.toNat = false → exec (.registerWrite sd off v hw) s = .next s) ∧
    (listed off.toNat = true → s.offAt off.toNat = true → s.wakes off.toNat = none →
      exec (.registerWrite sd off v hw) s = .next (s.offAccess sd off.toNat)) ∧
    (listed off.toNat = true → s.offAt off.toNat = false → let t := s.writePlace sd (placeOf off.toNat) v hw
      (hw = 0 ∨ w1cPlace (placeOf off.toNat) = false → exec (.registerWrite sd off v hw) s = .next t) ∧
      (hw ≠ 0 → w1cPlace (placeOf off.toNat) = true → exec (.registerWrite sd off v hw) s = .next (s.rise t)))) ∧
  (∀ (s : State) (sd : Side) (v hw : W32),
    s.writePlace sd (.iod 11 0x24) v hw = { s with cam.err := (s.cam.err &&& ~~~ (v.setWidth 7)) ||| hw.setWidth 7 } ∧
    s.writePlace sd (.iod 1 0xC) v hw = { s with tb.err := (s.tb.err &&& ~~~ (v.setWidth 6)) ||| hw.setWidth 6 } ∧
    s.writePlace sd (.iod 14 4) v hw = { s with obs.irqEn := v &&& 0x3FFFFF } ∧
    s.writePlace sd (.iod 14 0x30) v hw = { s with obs.quillCtrl := v &&& 0x71F1 } ∧
    (s.tdiLocked = true → s.writePlace sd (.iod 13 0) v hw = s) ∧
    (s.tdiLocked = false → s.writePlace sd (.iod 13 0) v hw = { s with slk.ctrl := v &&& 0xFF013F })) ∧
  (∀ (s : State) (sd : Side) (v : W32), ∃ t, exec (.obsTlogIdxWrite sd v) s = .next t ∧ t.obs.tlogIdx.get sd = v.setWidth 10 ∧
    t.obs.tlogData.get sd = tget [] s.obs.tlog (v.toNat % 1024) ∧ t.obs.tlog = s.obs.tlog ∧ t.mem = s.mem ∧ t.cmds = s.cmds ∧ t.tb = s.tb) ∧
  (∀ (s : State) (off : BitVec 25) (w : Nat), w ≠ 4 → w ≠ 8 → exec (.bar0BadWidthAccess off w none) s = .next { s with rdata := 0 } ∧
    ∀ b, exec (.bar0BadWidthAccess off w (some b)) s = .next s) ∧
  (∀ s : State, (∀ x ∈ s.pmu.stalled, s.offAt x.off.toNat = true) → exec .autowakeAccessComplete s = .next s) ∧
  (∀ (s : State) (l m : List Stalled) (x : Stalled), s.pmu.stalled = l ++ x :: m → (∀ y ∈ l, s.offAt y.off.toNat = true) →
    s.offAt x.off.toNat = false →
      (x.w = none → exec .autowakeAccessComplete s = .next (State.readNow x.side x.off.toNat 0 { s with pmu.stalled := l ++ m })) ∧
      (∀ v, x.w = some v → exec .autowakeAccessComplete s = .next (State.writeNow x.side x.off.toNat v 0 { s with pmu.stalled := l ++ m })))

end Sys2Proof

open Sys2Proof

/-- A step runs the command at the front of the queue on the queue's rest; an empty queue idles. Clauses may rest on readings that are the
model's own: log 4. -/
def Obligations.StepRunsFront : Prop :=
  Says.StepRunsFront ∧ Says.EmptyQueueIdles

/-- Every command of the table answers a next state in every state, and every Garast command that is ready and passes its checks takes its own
effect. Clauses may rest on readings that are the model's own: log 5, 22, 23. -/
def Obligations.EveryCommandGoesOn : Prop :=
  Says.EveryCommandGoesOn ∧ Says.CommandsTakeEffect

/-- Every step keeps both memories in canonical form, keeps the build, and takes one command off the queue. Clauses may rest on readings that
are the model's own: log 2. -/
def Obligations.StepKeepsInvariant : Prop := Says.StepKeepsInvariant

/-- The state after reset: the invariant, and the registers whose reset value the spec gives. Clauses may rest on readings that are the
model's own: log 2, 6, 108. -/
def Obligations.ResetState : Prop :=
  Says.ResetInvariant ∧ Says.ResetValues

/-- Reads after stores and clears of the device memory, and its canonical form. Clauses may rest on readings that are the model's own: log 2. -/
def Obligations.MemoryStores : Prop := Says.MemoryStores

/-- Error bits, the error summary and its interrupt. Clauses may rest on readings that are the model's own: log 15. -/
def Obligations.ErrorSummary : Prop :=
  Says.ErrorBits ∧ Says.SummarySignals

/-- What a completion touches, the status entry it writes, and the entries that are not written. Clauses may rest on readings that are the
model's own: log 13, 14. -/
def Obligations.Completions : Prop :=
  Says.CompletionTouches ∧ Says.CompletionEntry ∧ Says.CompletionNotWritten

/-- Cold reset, the straps, every cause of a warm reset, and reset requests that are ignored. Clauses may rest on readings that are the
model's own: log 8, 24, 27, 76, 83, 97, 105. -/
def Obligations.ColdAndWarmResets : Prop :=
  Says.ColdResetAndStraps ∧ Says.WarmResets ∧ Says.ResetCtrlIgnored

/-- Port resets, die resets, PLL events and the return of REFCLK. Clauses may rest on readings that are the model's own: log 8, 38. -/
def Obligations.PortAndDieResets : Prop :=
  Says.PortResets ∧ Says.DieResets ∧ Says.PllEvents ∧ Says.RefclkReturns

/-- Bridge bring-up, retrain and loss, and the SFC check of a die. Clauses may rest on readings that are the model's own: log 28, 34, 108,
118. -/
def Obligations.BridgesAndChecks : Prop :=
  Says.BridgeBringUp ∧ Says.BridgeRetrain ∧ Says.SfcCheck

/-- Word clock, beacon, mains counter, TB_CTRL writes and the shadow reads of the timebases. Clauses may rest on readings that are the model's own:
log 8, 29, 37, 99, 107, 111, 139. -/
def Obligations.Timebases : Prop :=
  Says.WordClockAndBeacon ∧ Says.MainsCounter ∧ Says.TbCtrlWrites ∧ Says.TimebaseShadows

/-- The frame tick, blocks brought to their cores, fetch points with their fallbacks, starts and ends of streams. Clauses may rest on readings that
are the model's own: log 9, 23, 61, 65, 67, 90, 110, 112, 114, 115, 118, 119, 120, 125. -/
def Obligations.FrameTicks : Prop :=
  Says.SfcTicks ∧ Says.BlocksDelivered ∧ Says.FetchPoints ∧ Says.StreamEnds

/-- Compares armed, fired and delivered; due words, due ticks and deadlines of a command. Clauses may rest on readings that are the model's
own: log 8, 23, 37, 78. -/
def Obligations.Compares : Prop :=
  Says.ComparesFireOnce ∧ Says.CompareFirings ∧ Says.DueTicks ∧ Says.DueWords

/-- Serial ports, MCLK, USB audio, and the USB and SPI command transports. Clauses may rest on readings that are the model's own: log 25, 29, 61,
68, 110, 112, 115, 116, 117, 130. -/
def Obligations.AudioPorts : Prop :=
  Says.SerialPorts ∧ Says.UsbAudio ∧ Says.CommandTransports

/-- POWER_STATE, the entries to the power states, and the wakes. Clauses may rest on readings that are the model's own: log 32, 76, 77, 96, 104,
133. -/
def Obligations.PowerStates : Prop :=
  Says.PowerCommand ∧ Says.PowerEntries ∧ Says.Wakes

/-- Supplies, regulators, temperatures, telemetry, the power windows, and accesses to blocks that are off. Clauses may rest on readings that are the
model's own: log 8, 34, 78, 87, 104, 109, 119, 122, 132, 134. -/
def Obligations.PowerProtection : Prop :=
  Says.Supplies ∧ Says.Regulators ∧ Says.Temperatures ∧ Says.PowerManager ∧ Says.OffBlocks

/-- The arithmetic rows of the Dormouse sequencer. -/
def Obligations.SequencerArithmetic : Prop := Says.SequencerArithmetic

/-- Memory, flow and unit instructions of the Dormouse sequencer. Clauses may rest on readings that are the model's own: log 36, 92, 101, 135. -/
def Obligations.Sequencer : Prop :=
  Says.SequencerMemory ∧ Says.SequencerFlow ∧ Says.SequencerUnits

/-- The Dormouse island's inputs, its comparators with the instrument's among them, clocked units and registers. Clauses may rest on
readings that are the model's own: log 35, 36, 111, 123. -/
def Obligations.DormouseIsland : Prop :=
  Says.IslandInputs ∧ Says.InstrumentComparator ∧ Says.IslandUnits

/-- Ring registers, the header checks in their order, and the reading of commands. Clauses may rest on readings that are the model's own: log 8, 11,
13, 14, 30, 44, 51, 91, 93, 100. -/
def Obligations.CommandRings : Prop :=
  Says.RingWrites ∧ Says.HeaderChecks ∧ Says.CommandReads

/-- NOP, ABORT, the command timer and proxied commands. Clauses may rest on readings that are the model's own: log 8, 14, 31, 42, 70, 128. -/
def Obligations.NopAbortTimers : Prop :=
  Says.NopAndAbort ∧ Says.TimersAndProxies

/-- Tenants, the density of a stream, and writes to RT_CAP. Clauses may rest on readings that are the model's own: log 10, 22, 81, 82. -/
def Obligations.TenantsAndDensity : Prop :=
  Says.TenantCommands ∧ Says.StreamDensity ∧ Says.RtCapWrites

/-- Images loaded and unloaded, and the reset commands. Clauses may rest on readings that are the model's own: log 22, 24, 80, 89, 97. -/
def Obligations.ImagesAndResets : Prop :=
  Says.ImageCommands ∧ Says.ResetCommands

/-- Sessions, the entropy source, SPDM, IDE key management and TDISP. Clauses may rest on readings that are the model's own: log 3, 8, 24,
102. -/
def Obligations.TrustedOperation : Prop :=
  Says.SessionCommands ∧ Says.TrustedSession

/-- REKEY and its walks, host accesses and PCIe events, and boot. Clauses may rest on readings that are the model's own: log 8, 15, 24, 33, 56, 57,
58, 83, 140. -/
def Obligations.KeysAndHost : Prop :=
  Says.RekeyCommands ∧ Says.HostAccesses ∧ Says.Boot

/-- Admission of a stream to its home core. Clauses may rest on readings that are the model's own: log 12, 23, 81. -/
def Obligations.StreamAdmission : Prop := Says.StreamAdmission

/-- STREAM_OPEN and the commands on an open stream. Clauses may rest on readings that are the model's own: log 22, 23, 70, 113, 131. -/
def Obligations.StreamCommands : Prop :=
  Says.StreamOpens ∧ Says.StreamChanges ∧ Says.StreamHandles

/-- RUN_PROGRAM, the placement of jobs, and what a dispatch leaves. Clauses may rest on readings that are the model's own: log 12, 63, 95, 137. -/
def Obligations.Jobs : Prop :=
  Says.RunProgram ∧ Says.JobDispatches ∧ Says.DispatchState

/-- Saves and restores of contexts, and a context that is saved and restored is the context. Clauses may rest on readings that are the model's own:
log 14, 85, 90, 103, 118, 138. -/
def Obligations.SavedContexts : Prop :=
  Says.SavesAndRestores ∧ Says.ContextRoundTrip

/-- Fetch, boundary, retirement and control flow of the tile instructions. Clauses may rest on readings that are the model's own: log 11, 60, 90,
118, 137. -/
def Obligations.TileFlow : Prop :=
  Says.TileFetch ∧ Says.TileBoundary ∧ Says.TileRetires ∧ Says.TileControl

/-- What a tile fault leaves, and the encodings that fault. Clauses may rest on readings that are the model's own: log 11, 98. -/
def Obligations.TileFaults : Prop :=
  Says.TileFaults ∧ Says.EncodingFaults

/-- Guards, register specifiers and the scalar rows of the tile instructions. -/
def Obligations.TileScalar : Prop :=
  Says.Registers ∧ Says.TileScalar

/-- LDS, STS, DMA and DMAW of the tile instructions. Clauses may rest on readings that are the model's own: log 19, 52, 54, 55, 118. -/
def Obligations.TileMemory : Prop :=
  Says.TileLocalMemory ∧ Says.TileTransfers

/-- The number formats, roundings, conversions and the stochastic generator. Clauses may rest on readings that are the model's own: log 3. -/
def Obligations.NumberFormats : Prop :=
  Says.FormatValues ∧ Says.Roundings ∧ Says.Conversions ∧ Says.StochasticGenerator

/-- An FP32 word is its own rounding and reads back as itself. -/
def Obligations.Fp32RoundTrip : Prop := Says.Fp32RoundTrip

/-- MMA: its operands, its accumulation and its faults. Clauses may rest on readings that are the model's own: log 20, 90, 121. -/
def Obligations.TileMatrix : Prop :=
  Says.TileMma ∧ Says.Accumulation

/-- VOP, VPWL, VCVT, VRED and CURVE, and the piecewise-linear curves. Clauses may rest on readings that are the model's own: log 17, 90,
121. -/
def Obligations.TileVectorUnit : Prop :=
  Says.TileVectors ∧ Says.TileConverts ∧ Says.Curves

/-- Descriptors, EPI, and the stages of a fused chain. Clauses may rest on readings that are the model's own: log 40, 90, 121. -/
def Obligations.FusedChains : Prop :=
  Says.Descriptors ∧ Says.TileEpi ∧ Says.ChainStages

/-- WIN, the windows it slides, and RSTEP. Clauses may rest on readings that are the model's own: log 20, 21, 90. -/
def Obligations.SlidingWindows : Prop :=
  Says.TileWin ∧ Says.Windows ∧ Says.TileRstep

/-- ATTN and one page of attention. Clauses may rest on readings that are the model's own: log 3, 20, 90. -/
def Obligations.AttentionTiles : Prop :=
  Says.TileAttn ∧ Says.AttentionPage

/-- SIG posted, where a signal lands, and its delivery. Clauses may rest on readings that are the model's own: log 14, 64, 118. -/
def Obligations.Signals : Prop :=
  Says.SignalsPosted ∧ Says.SignalTargets ∧ Says.SignalDelivery

/-- SWAIT, TWAIT, WAIT and the deadlock detector. Clauses may rest on readings that are the model's own: log 8, 9, 16, 90, 120. -/
def Obligations.WaitsAndDeadlock : Prop :=
  Says.SyncWaits ∧ Says.TimedWaits ∧ Says.DeadlockDetector

/-- RUN_OP, its blocks, and the end of an operator. Clauses may rest on readings that are the model's own: log 3, 18, 40, 41, 42, 118, 126, 129. -/
def Obligations.Operators : Prop :=
  Says.RunOp ∧ Says.OperatorBlocks ∧ Says.OperatorEnds

/-- Matrix products element by element, SOFTMAX and TOPK. Clauses may rest on readings that are the model's own: log 3, 20, 40. -/
def Obligations.MatrixAndRows : Prop := Says.MatrixAndRows

/-- KV pools, sequences and pages. Clauses may rest on readings that are the model's own: log 8, 22, 39, 42, 84. -/
def Obligations.KvCache : Prop :=
  Says.KvPools ∧ Says.KvSequences ∧ Says.KvPages

/-- CASCADE_CONFIG and the sequencer's rows of it. Clauses may rest on readings that are the model's own: log 44. -/
def Obligations.CascadeConfig : Prop := Says.CascadeConfig

/-- CASCADE_CTRL on the host's epoch slots. Clauses may rest on readings that are the model's own: log 43, 44. -/
def Obligations.EpochControl : Prop := Says.EpochControl

/-- Commit, write-back and abort of an epoch, its deadline, and SCH_HOARD_d. Clauses may rest on readings that are the model's own: log 8, 43, 62,
85, 98, 137, 138. -/
def Obligations.EpochEnds : Prop :=
  Says.EpochEnds ∧ Says.EpochWindows

/-- Level rises, score words and tier-0 decisions at the cascade rules. Clauses may rest on readings that are the model's own: log 44, 62. -/
def Obligations.RuleActions : Prop := Says.RuleActions

/-- CAPTURE_START and the phases of a capture before FIT. Clauses may rest on readings that are the model's own: log 3, 45. -/
def Obligations.CaptureStart : Prop :=
  Says.CaptureStarts ∧ Says.CapturePhases

/-- A step of FIT, its checkpoints, and CAPTURE_CTRL. Clauses may rest on readings that are the model's own: log 3, 45, 118. -/
def Obligations.CaptureFit : Prop :=
  Says.CaptureFit ∧ Says.CaptureControl

/-- CAMERA_CONFIG: START, STOP and UPDATE. Clauses may rest on readings that are the model's own: log 46. -/
def Obligations.CameraConfigs : Prop := Says.CameraConfigs

/-- The packets of the camera and the output of a frame. Clauses may rest on readings that are the model's own: log 46, 118, 124, 139. -/
def Obligations.CameraFrames : Prop :=
  Says.CameraPackets ∧ Says.CameraFrames

/-- The arithmetic of the camera pipeline. Clauses may rest on readings that are the model's own: log 46. -/
def Obligations.CameraPipeline : Prop := Says.CameraPipeline

/-- INTAKE_SUBMIT, one sample of the intake engine, and packed tensors. Clauses may rest on readings that are the model's own: log 22, 47, 118. -/
def Obligations.IntakeEngine : Prop :=
  Says.IntakeSubmits ∧ Says.IntakeSamples ∧ Says.PackedTensors

/-- Frames received on a Shusor port, acknowledgement and replay. Clauses may rest on readings that are the model's own: log 14, 26, 42, 70, 72,
107, 136. -/
def Obligations.LinkFrames : Prop :=
  Says.FramesReceived ∧ Says.LinkReplay

/-- Training, retrains and width changes of a Shusor port. Clauses may rest on readings that are the model's own: log 26, 73. -/
def Obligations.LinkTraining : Prop :=
  Says.LinkTraining ∧ Says.LinkRetrains

/-- Routes, enumeration and LINK_CTRL. Clauses may rest on readings that are the model's own: log 8, 14, 38, 48, 49, 107, 136. -/
def Obligations.LinkControl : Prop :=
  Says.LinkRoutes ∧ Says.Enumeration ∧ Says.LinkControl

/-- SNAPSHOT, the Quill's triggers and its latch. Clauses may rest on readings that are the model's own: log 88, 127. -/
def Obligations.QuillLatch : Prop :=
  Says.Snapshots ∧ Says.QuillTriggers

/-- Reads and writes of registers, reserved space, off blocks and stalled accesses. Clauses may rest on readings that are the model's own:
log 8, 34, 106, 108. -/
def Obligations.RegisterAccess : Prop := Says.RegisterAccess
end

