-- ==== Sys2Proof/Laws/State.lean ====
section
/-!
SUPPORT. What each named update of the state changes and leaves, one lemma per field, so that no later proof unfolds an update.
-/
namespace Sys2Proof.Machine

@[simp] theorem modDie_build (s : State) (d : Nat) (f : Die → Die) : (s.modDie d f).build = s.build := rfl
@[simp] theorem modDie_glb (s : State) (d : Nat) (f : Die → Die) : (s.modDie d f).glb = s.glb := rfl
@[simp] theorem modDie_dies (s : State) (d : Nat) (f : Die → Die) : (s.modDie d f).dies = tmod {} s.dies d f := rfl
@[simp] theorem modDie_tb (s : State) (d : Nat) (f : Die → Die) : (s.modDie d f).tb = s.tb := rfl
@[simp] theorem modDie_clk (s : State) (d : Nat) (f : Die → Die) : (s.modDie d f).clk = s.clk := rfl
@[simp] theorem modDie_pmu (s : State) (d : Nat) (f : Die → Die) : (s.modDie d f).pmu = s.pmu := rfl
@[simp] theorem modDie_aon (s : State) (d : Nat) (f : Die → Die) : (s.modDie d f).aon = s.aon := rfl
@[simp] theorem modDie_rings (s : State) (d : Nat) (f : Die → Die) : (s.modDie d f).rings = s.rings := rfl
@[simp] theorem modDie_gcp (s : State) (d : Nat) (f : Die → Die) : (s.modDie d f).gcp = s.gcp := rfl
@[simp] theorem modDie_cmds (s : State) (d : Nat) (f : Die → Die) : (s.modDie d f).cmds = s.cmds := rfl
@[simp] theorem modDie_tenants (s : State) (d : Nat) (f : Die → Die) : (s.modDie d f).tenants = s.tenants := rfl
@[simp] theorem modDie_images (s : State) (d : Nat) (f : Die → Die) : (s.modDie d f).images = s.images := rfl
@[simp] theorem modDie_streams (s : State) (d : Nat) (f : Die → Die) : (s.modDie d f).streams = s.streams := rfl
@[simp] theorem modDie_jobs (s : State) (d : Nat) (f : Die → Die) : (s.modDie d f).jobs = s.jobs := rfl
@[simp] theorem modDie_cores (s : State) (d : Nat) (f : Die → Die) : (s.modDie d f).cores = s.cores := rfl
@[simp] theorem modDie_sch (s : State) (d : Nat) (f : Die → Die) : (s.modDie d f).sch = s.sch := rfl
@[simp] theorem modDie_epochs (s : State) (d : Nat) (f : Die → Die) : (s.modDie d f).epochs = s.epochs := rfl
@[simp] theorem modDie_rules (s : State) (d : Nat) (f : Die → Die) : (s.modDie d f).rules = s.rules := rfl
@[simp] theorem modDie_pools (s : State) (d : Nat) (f : Die → Die) : (s.modDie d f).pools = s.pools := rfl
@[simp] theorem modDie_kvShares (s : State) (d : Nat) (f : Die → Die) : (s.modDie d f).kvShares = s.kvShares := rfl
@[simp] theorem modDie_key (s : State) (d : Nat) (f : Die → Die) : (s.modDie d f).key = s.key := rfl
@[simp] theorem modDie_memc (s : State) (d : Nat) (f : Die → Die) : (s.modDie d f).memc = s.memc := rfl
@[simp] theorem modDie_aud (s : State) (d : Nat) (f : Die → Die) : (s.modDie d f).aud = s.aud := rfl
@[simp] theorem modDie_caps (s : State) (d : Nat) (f : Die → Die) : (s.modDie d f).caps = s.caps := rfl
@[simp] theorem modDie_cam (s : State) (d : Nat) (f : Die → Die) : (s.modDie d f).cam = s.cam := rfl
@[simp] theorem modDie_itk (s : State) (d : Nat) (f : Die → Die) : (s.modDie d f).itk = s.itk := rfl
@[simp] theorem modDie_slk (s : State) (d : Nat) (f : Die → Die) : (s.modDie d f).slk = s.slk := rfl
@[simp] theorem modDie_obs (s : State) (d : Nat) (f : Die → Die) : (s.modDie d f).obs = s.obs := rfl
@[simp] theorem modDie_irq (s : State) (d : Nat) (f : Die → Die) : (s.modDie d f).irq = s.irq := rfl
@[simp] theorem modDie_mem (s : State) (d : Nat) (f : Die → Die) : (s.modDie d f).mem = s.mem := rfl
@[simp] theorem modDie_hostOut (s : State) (d : Nat) (f : Die → Die) : (s.modDie d f).hostOut = s.hostOut := rfl
@[simp] theorem modDie_rdata (s : State) (d : Nat) (f : Die → Die) : (s.modDie d f).rdata = s.rdata := rfl
@[simp] theorem modDie_reply (s : State) (d : Nat) (f : Die → Die) : (s.modDie d f).reply = s.reply := rfl
@[simp] theorem modDie_fresh (s : State) (d : Nat) (f : Die → Die) : (s.modDie d f).fresh = s.fresh := rfl
@[simp] theorem modDie_pending (s : State) (d : Nat) (f : Die → Die) : (s.modDie d f).pending = s.pending := rfl

@[simp] theorem modCore_build (s : State) (c : Nat) (f : Core → Core) : (s.modCore c f).build = s.build := rfl
@[simp] theorem modCore_glb (s : State) (c : Nat) (f : Core → Core) : (s.modCore c f).glb = s.glb := rfl
@[simp] theorem modCore_dies (s : State) (c : Nat) (f : Core → Core) : (s.modCore c f).dies = s.dies := rfl
@[simp] theorem modCore_tb (s : State) (c : Nat) (f : Core → Core) : (s.modCore c f).tb = s.tb := rfl
@[simp] theorem modCore_clk (s : State) (c : Nat) (f : Core → Core) : (s.modCore c f).clk = s.clk := rfl
@[simp] theorem modCore_pmu (s : State) (c : Nat) (f : Core → Core) : (s.modCore c f).pmu = s.pmu := rfl
@[simp] theorem modCore_aon (s : State) (c : Nat) (f : Core → Core) : (s.modCore c f).aon = s.aon := rfl
@[simp] theorem modCore_rings (s : State) (c : Nat) (f : Core → Core) : (s.modCore c f).rings = s.rings := rfl
@[simp] theorem modCore_gcp (s : State) (c : Nat) (f : Core → Core) : (s.modCore c f).gcp = s.gcp := rfl
@[simp] theorem modCore_cmds (s : State) (c : Nat) (f : Core → Core) : (s.modCore c f).cmds = s.cmds := rfl
@[simp] theorem modCore_tenants (s : State) (c : Nat) (f : Core → Core) : (s.modCore c f).tenants = s.tenants := rfl
@[simp] theorem modCore_images (s : State) (c : Nat) (f : Core → Core) : (s.modCore c f).images = s.images := rfl
@[simp] theorem modCore_streams (s : State) (c : Nat) (f : Core → Core) : (s.modCore c f).streams = s.streams := rfl
@[simp] theorem modCore_jobs (s : State) (c : Nat) (f : Core → Core) : (s.modCore c f).jobs = s.jobs := rfl
@[simp] theorem modCore_cores (s : State) (c : Nat) (f : Core → Core) : (s.modCore c f).cores = tmod {} s.cores c f := rfl
@[simp] theorem modCore_sch (s : State) (c : Nat) (f : Core → Core) : (s.modCore c f).sch = s.sch := rfl
@[simp] theorem modCore_epochs (s : State) (c : Nat) (f : Core → Core) : (s.modCore c f).epochs = s.epochs := rfl
@[simp] theorem modCore_rules (s : State) (c : Nat) (f : Core → Core) : (s.modCore c f).rules = s.rules := rfl
@[simp] theorem modCore_pools (s : State) (c : Nat) (f : Core → Core) : (s.modCore c f).pools = s.pools := rfl
@[simp] theorem modCore_kvShares (s : State) (c : Nat) (f : Core → Core) : (s.modCore c f).kvShares = s.kvShares := rfl
@[simp] theorem modCore_key (s : State) (c : Nat) (f : Core → Core) : (s.modCore c f).key = s.key := rfl
@[simp] theorem modCore_memc (s : State) (c : Nat) (f : Core → Core) : (s.modCore c f).memc = s.memc := rfl
@[simp] theorem modCore_aud (s : State) (c : Nat) (f : Core → Core) : (s.modCore c f).aud = s.aud := rfl
@[simp] theorem modCore_caps (s : State) (c : Nat) (f : Core → Core) : (s.modCore c f).caps = s.caps := rfl
@[simp] theorem modCore_cam (s : State) (c : Nat) (f : Core → Core) : (s.modCore c f).cam = s.cam := rfl
@[simp] theorem modCore_itk (s : State) (c : Nat) (f : Core → Core) : (s.modCore c f).itk = s.itk := rfl
@[simp] theorem modCore_slk (s : State) (c : Nat) (f : Core → Core) : (s.modCore c f).slk = s.slk := rfl
@[simp] theorem modCore_obs (s : State) (c : Nat) (f : Core → Core) : (s.modCore c f).obs = s.obs := rfl
@[simp] theorem modCore_irq (s : State) (c : Nat) (f : Core → Core) : (s.modCore c f).irq = s.irq := rfl
@[simp] theorem modCore_mem (s : State) (c : Nat) (f : Core → Core) : (s.modCore c f).mem = s.mem := rfl
@[simp] theorem modCore_hostOut (s : State) (c : Nat) (f : Core → Core) : (s.modCore c f).hostOut = s.hostOut := rfl
@[simp] theorem modCore_rdata (s : State) (c : Nat) (f : Core → Core) : (s.modCore c f).rdata = s.rdata := rfl
@[simp] theorem modCore_reply (s : State) (c : Nat) (f : Core → Core) : (s.modCore c f).reply = s.reply := rfl
@[simp] theorem modCore_fresh (s : State) (c : Nat) (f : Core → Core) : (s.modCore c f).fresh = s.fresh := rfl
@[simp] theorem modCore_pending (s : State) (c : Nat) (f : Core → Core) : (s.modCore c f).pending = s.pending := rfl

@[simp] theorem modRing_build (s : State) (n : Nat) (f : Ring → Ring) : (s.modRing n f).build = s.build := rfl
@[simp] theorem modRing_glb (s : State) (n : Nat) (f : Ring → Ring) : (s.modRing n f).glb = s.glb := rfl
@[simp] theorem modRing_dies (s : State) (n : Nat) (f : Ring → Ring) : (s.modRing n f).dies = s.dies := rfl
@[simp] theorem modRing_tb (s : State) (n : Nat) (f : Ring → Ring) : (s.modRing n f).tb = s.tb := rfl
@[simp] theorem modRing_clk (s : State) (n : Nat) (f : Ring → Ring) : (s.modRing n f).clk = s.clk := rfl
@[simp] theorem modRing_pmu (s : State) (n : Nat) (f : Ring → Ring) : (s.modRing n f).pmu = s.pmu := rfl
@[simp] theorem modRing_aon (s : State) (n : Nat) (f : Ring → Ring) : (s.modRing n f).aon = s.aon := rfl
@[simp] theorem modRing_rings (s : State) (n : Nat) (f : Ring → Ring) : (s.modRing n f).rings = tmod {} s.rings n f := rfl
@[simp] theorem modRing_gcp (s : State) (n : Nat) (f : Ring → Ring) : (s.modRing n f).gcp = s.gcp := rfl
@[simp] theorem modRing_cmds (s : State) (n : Nat) (f : Ring → Ring) : (s.modRing n f).cmds = s.cmds := rfl
@[simp] theorem modRing_tenants (s : State) (n : Nat) (f : Ring → Ring) : (s.modRing n f).tenants = s.tenants := rfl
@[simp] theorem modRing_images (s : State) (n : Nat) (f : Ring → Ring) : (s.modRing n f).images = s.images := rfl
@[simp] theorem modRing_streams (s : State) (n : Nat) (f : Ring → Ring) : (s.modRing n f).streams = s.streams := rfl
@[simp] theorem modRing_jobs (s : State) (n : Nat) (f : Ring → Ring) : (s.modRing n f).jobs = s.jobs := rfl
@[simp] theorem modRing_cores (s : State) (n : Nat) (f : Ring → Ring) : (s.modRing n f).cores = s.cores := rfl
@[simp] theorem modRing_sch (s : State) (n : Nat) (f : Ring → Ring) : (s.modRing n f).sch = s.sch := rfl
@[simp] theorem modRing_epochs (s : State) (n : Nat) (f : Ring → Ring) : (s.modRing n f).epochs = s.epochs := rfl
@[simp] theorem modRing_rules (s : State) (n : Nat) (f : Ring → Ring) : (s.modRing n f).rules = s.rules := rfl
@[simp] theorem modRing_pools (s : State) (n : Nat) (f : Ring → Ring) : (s.modRing n f).pools = s.pools := rfl
@[simp] theorem modRing_kvShares (s : State) (n : Nat) (f : Ring → Ring) : (s.modRing n f).kvShares = s.kvShares := rfl
@[simp] theorem modRing_key (s : State) (n : Nat) (f : Ring → Ring) : (s.modRing n f).key = s.key := rfl
@[simp] theorem modRing_memc (s : State) (n : Nat) (f : Ring → Ring) : (s.modRing n f).memc = s.memc := rfl
@[simp] theorem modRing_aud (s : State) (n : Nat) (f : Ring → Ring) : (s.modRing n f).aud = s.aud := rfl
@[simp] theorem modRing_caps (s : State) (n : Nat) (f : Ring → Ring) : (s.modRing n f).caps = s.caps := rfl
@[simp] theorem modRing_cam (s : State) (n : Nat) (f : Ring → Ring) : (s.modRing n f).cam = s.cam := rfl
@[simp] theorem modRing_itk (s : State) (n : Nat) (f : Ring → Ring) : (s.modRing n f).itk = s.itk := rfl
@[simp] theorem modRing_slk (s : State) (n : Nat) (f : Ring → Ring) : (s.modRing n f).slk = s.slk := rfl
@[simp] theorem modRing_obs (s : State) (n : Nat) (f : Ring → Ring) : (s.modRing n f).obs = s.obs := rfl
@[simp] theorem modRing_irq (s : State) (n : Nat) (f : Ring → Ring) : (s.modRing n f).irq = s.irq := rfl
@[simp] theorem modRing_mem (s : State) (n : Nat) (f : Ring → Ring) : (s.modRing n f).mem = s.mem := rfl
@[simp] theorem modRing_hostOut (s : State) (n : Nat) (f : Ring → Ring) : (s.modRing n f).hostOut = s.hostOut := rfl
@[simp] theorem modRing_rdata (s : State) (n : Nat) (f : Ring → Ring) : (s.modRing n f).rdata = s.rdata := rfl
@[simp] theorem modRing_reply (s : State) (n : Nat) (f : Ring → Ring) : (s.modRing n f).reply = s.reply := rfl
@[simp] theorem modRing_fresh (s : State) (n : Nat) (f : Ring → Ring) : (s.modRing n f).fresh = s.fresh := rfl
@[simp] theorem modRing_pending (s : State) (n : Nat) (f : Ring → Ring) : (s.modRing n f).pending = s.pending := rfl

@[simp] theorem modStream_build (s : State) (h : Nat) (f : Stream → Stream) : (s.modStream h f).build = s.build := rfl
@[simp] theorem modStream_glb (s : State) (h : Nat) (f : Stream → Stream) : (s.modStream h f).glb = s.glb := rfl
@[simp] theorem modStream_dies (s : State) (h : Nat) (f : Stream → Stream) : (s.modStream h f).dies = s.dies := rfl
@[simp] theorem modStream_tb (s : State) (h : Nat) (f : Stream → Stream) : (s.modStream h f).tb = s.tb := rfl
@[simp] theorem modStream_clk (s : State) (h : Nat) (f : Stream → Stream) : (s.modStream h f).clk = s.clk := rfl
@[simp] theorem modStream_pmu (s : State) (h : Nat) (f : Stream → Stream) : (s.modStream h f).pmu = s.pmu := rfl
@[simp] theorem modStream_aon (s : State) (h : Nat) (f : Stream → Stream) : (s.modStream h f).aon = s.aon := rfl
@[simp] theorem modStream_rings (s : State) (h : Nat) (f : Stream → Stream) : (s.modStream h f).rings = s.rings := rfl
@[simp] theorem modStream_gcp (s : State) (h : Nat) (f : Stream → Stream) : (s.modStream h f).gcp = s.gcp := rfl
@[simp] theorem modStream_cmds (s : State) (h : Nat) (f : Stream → Stream) : (s.modStream h f).cmds = s.cmds := rfl
@[simp] theorem modStream_tenants (s : State) (h : Nat) (f : Stream → Stream) : (s.modStream h f).tenants = s.tenants := rfl
@[simp] theorem modStream_images (s : State) (h : Nat) (f : Stream → Stream) : (s.modStream h f).images = s.images := rfl
@[simp] theorem modStream_streams (s : State) (h : Nat) (f : Stream → Stream) : (s.modStream h f).streams = tmod none s.streams h (fun o => o.map f) := rfl
@[simp] theorem modStream_jobs (s : State) (h : Nat) (f : Stream → Stream) : (s.modStream h f).jobs = s.jobs := rfl
@[simp] theorem modStream_cores (s : State) (h : Nat) (f : Stream → Stream) : (s.modStream h f).cores = s.cores := rfl
@[simp] theorem modStream_sch (s : State) (h : Nat) (f : Stream → Stream) : (s.modStream h f).sch = s.sch := rfl
@[simp] theorem modStream_epochs (s : State) (h : Nat) (f : Stream → Stream) : (s.modStream h f).epochs = s.epochs := rfl
@[simp] theorem modStream_rules (s : State) (h : Nat) (f : Stream → Stream) : (s.modStream h f).rules = s.rules := rfl
@[simp] theorem modStream_pools (s : State) (h : Nat) (f : Stream → Stream) : (s.modStream h f).pools = s.pools := rfl
@[simp] theorem modStream_kvShares (s : State) (h : Nat) (f : Stream → Stream) : (s.modStream h f).kvShares = s.kvShares := rfl
@[simp] theorem modStream_key (s : State) (h : Nat) (f : Stream → Stream) : (s.modStream h f).key = s.key := rfl
@[simp] theorem modStream_memc (s : State) (h : Nat) (f : Stream → Stream) : (s.modStream h f).memc = s.memc := rfl
@[simp] theorem modStream_aud (s : State) (h : Nat) (f : Stream → Stream) : (s.modStream h f).aud = s.aud := rfl
@[simp] theorem modStream_caps (s : State) (h : Nat) (f : Stream → Stream) : (s.modStream h f).caps = s.caps := rfl
@[simp] theorem modStream_cam (s : State) (h : Nat) (f : Stream → Stream) : (s.modStream h f).cam = s.cam := rfl
@[simp] theorem modStream_itk (s : State) (h : Nat) (f : Stream → Stream) : (s.modStream h f).itk = s.itk := rfl
@[simp] theorem modStream_slk (s : State) (h : Nat) (f : Stream → Stream) : (s.modStream h f).slk = s.slk := rfl
@[simp] theorem modStream_obs (s : State) (h : Nat) (f : Stream → Stream) : (s.modStream h f).obs = s.obs := rfl
@[simp] theorem modStream_irq (s : State) (h : Nat) (f : Stream → Stream) : (s.modStream h f).irq = s.irq := rfl
@[simp] theorem modStream_mem (s : State) (h : Nat) (f : Stream → Stream) : (s.modStream h f).mem = s.mem := rfl
@[simp] theorem modStream_hostOut (s : State) (h : Nat) (f : Stream → Stream) : (s.modStream h f).hostOut = s.hostOut := rfl
@[simp] theorem modStream_rdata (s : State) (h : Nat) (f : Stream → Stream) : (s.modStream h f).rdata = s.rdata := rfl
@[simp] theorem modStream_reply (s : State) (h : Nat) (f : Stream → Stream) : (s.modStream h f).reply = s.reply := rfl
@[simp] theorem modStream_fresh (s : State) (h : Nat) (f : Stream → Stream) : (s.modStream h f).fresh = s.fresh := rfl
@[simp] theorem modStream_pending (s : State) (h : Nat) (f : Stream → Stream) : (s.modStream h f).pending = s.pending := rfl

@[simp] theorem modJob_build (s : State) (j : Nat) (f : Job → Job) : (s.modJob j f).build = s.build := rfl
@[simp] theorem modJob_glb (s : State) (j : Nat) (f : Job → Job) : (s.modJob j f).glb = s.glb := rfl
@[simp] theorem modJob_dies (s : State) (j : Nat) (f : Job → Job) : (s.modJob j f).dies = s.dies := rfl
@[simp] theorem modJob_tb (s : State) (j : Nat) (f : Job → Job) : (s.modJob j f).tb = s.tb := rfl
@[simp] theorem modJob_clk (s : State) (j : Nat) (f : Job → Job) : (s.modJob j f).clk = s.clk := rfl
@[simp] theorem modJob_pmu (s : State) (j : Nat) (f : Job → Job) : (s.modJob j f).pmu = s.pmu := rfl
@[simp] theorem modJob_aon (s : State) (j : Nat) (f : Job → Job) : (s.modJob j f).aon = s.aon := rfl
@[simp] theorem modJob_rings (s : State) (j : Nat) (f : Job → Job) : (s.modJob j f).rings = s.rings := rfl
@[simp] theorem modJob_gcp (s : State) (j : Nat) (f : Job → Job) : (s.modJob j f).gcp = s.gcp := rfl
@[simp] theorem modJob_cmds (s : State) (j : Nat) (f : Job → Job) : (s.modJob j f).cmds = s.cmds := rfl
@[simp] theorem modJob_tenants (s : State) (j : Nat) (f : Job → Job) : (s.modJob j f).tenants = s.tenants := rfl
@[simp] theorem modJob_images (s : State) (j : Nat) (f : Job → Job) : (s.modJob j f).images = s.images := rfl
@[simp] theorem modJob_streams (s : State) (j : Nat) (f : Job → Job) : (s.modJob j f).streams = s.streams := rfl
@[simp] theorem modJob_jobs (s : State) (j : Nat) (f : Job → Job) : (s.modJob j f).jobs = tmod none s.jobs j (fun o => o.map f) := rfl
@[simp] theorem modJob_cores (s : State) (j : Nat) (f : Job → Job) : (s.modJob j f).cores = s.cores := rfl
@[simp] theorem modJob_sch (s : State) (j : Nat) (f : Job → Job) : (s.modJob j f).sch = s.sch := rfl
@[simp] theorem modJob_epochs (s : State) (j : Nat) (f : Job → Job) : (s.modJob j f).epochs = s.epochs := rfl
@[simp] theorem modJob_rules (s : State) (j : Nat) (f : Job → Job) : (s.modJob j f).rules = s.rules := rfl
@[simp] theorem modJob_pools (s : State) (j : Nat) (f : Job → Job) : (s.modJob j f).pools = s.pools := rfl
@[simp] theorem modJob_kvShares (s : State) (j : Nat) (f : Job → Job) : (s.modJob j f).kvShares = s.kvShares := rfl
@[simp] theorem modJob_key (s : State) (j : Nat) (f : Job → Job) : (s.modJob j f).key = s.key := rfl
@[simp] theorem modJob_memc (s : State) (j : Nat) (f : Job → Job) : (s.modJob j f).memc = s.memc := rfl
@[simp] theorem modJob_aud (s : State) (j : Nat) (f : Job → Job) : (s.modJob j f).aud = s.aud := rfl
@[simp] theorem modJob_caps (s : State) (j : Nat) (f : Job → Job) : (s.modJob j f).caps = s.caps := rfl
@[simp] theorem modJob_cam (s : State) (j : Nat) (f : Job → Job) : (s.modJob j f).cam = s.cam := rfl
@[simp] theorem modJob_itk (s : State) (j : Nat) (f : Job → Job) : (s.modJob j f).itk = s.itk := rfl
@[simp] theorem modJob_slk (s : State) (j : Nat) (f : Job → Job) : (s.modJob j f).slk = s.slk := rfl
@[simp] theorem modJob_obs (s : State) (j : Nat) (f : Job → Job) : (s.modJob j f).obs = s.obs := rfl
@[simp] theorem modJob_irq (s : State) (j : Nat) (f : Job → Job) : (s.modJob j f).irq = s.irq := rfl
@[simp] theorem modJob_mem (s : State) (j : Nat) (f : Job → Job) : (s.modJob j f).mem = s.mem := rfl
@[simp] theorem modJob_hostOut (s : State) (j : Nat) (f : Job → Job) : (s.modJob j f).hostOut = s.hostOut := rfl
@[simp] theorem modJob_rdata (s : State) (j : Nat) (f : Job → Job) : (s.modJob j f).rdata = s.rdata := rfl
@[simp] theorem modJob_reply (s : State) (j : Nat) (f : Job → Job) : (s.modJob j f).reply = s.reply := rfl
@[simp] theorem modJob_fresh (s : State) (j : Nat) (f : Job → Job) : (s.modJob j f).fresh = s.fresh := rfl
@[simp] theorem modJob_pending (s : State) (j : Nat) (f : Job → Job) : (s.modJob j f).pending = s.pending := rfl

@[simp] theorem modEpoch_build (s : State) (e : Nat) (f : Epoch → Epoch) : (s.modEpoch e f).build = s.build := rfl
@[simp] theorem modEpoch_glb (s : State) (e : Nat) (f : Epoch → Epoch) : (s.modEpoch e f).glb = s.glb := rfl
@[simp] theorem modEpoch_dies (s : State) (e : Nat) (f : Epoch → Epoch) : (s.modEpoch e f).dies = s.dies := rfl
@[simp] theorem modEpoch_tb (s : State) (e : Nat) (f : Epoch → Epoch) : (s.modEpoch e f).tb = s.tb := rfl
@[simp] theorem modEpoch_clk (s : State) (e : Nat) (f : Epoch → Epoch) : (s.modEpoch e f).clk = s.clk := rfl
@[simp] theorem modEpoch_pmu (s : State) (e : Nat) (f : Epoch → Epoch) : (s.modEpoch e f).pmu = s.pmu := rfl
@[simp] theorem modEpoch_aon (s : State) (e : Nat) (f : Epoch → Epoch) : (s.modEpoch e f).aon = s.aon := rfl
@[simp] theorem modEpoch_rings (s : State) (e : Nat) (f : Epoch → Epoch) : (s.modEpoch e f).rings = s.rings := rfl
@[simp] theorem modEpoch_gcp (s : State) (e : Nat) (f : Epoch → Epoch) : (s.modEpoch e f).gcp = s.gcp := rfl
@[simp] theorem modEpoch_cmds (s : State) (e : Nat) (f : Epoch → Epoch) : (s.modEpoch e f).cmds = s.cmds := rfl
@[simp] theorem modEpoch_tenants (s : State) (e : Nat) (f : Epoch → Epoch) : (s.modEpoch e f).tenants = s.tenants := rfl
@[simp] theorem modEpoch_images (s : State) (e : Nat) (f : Epoch → Epoch) : (s.modEpoch e f).images = s.images := rfl
@[simp] theorem modEpoch_streams (s : State) (e : Nat) (f : Epoch → Epoch) : (s.modEpoch e f).streams = s.streams := rfl
@[simp] theorem modEpoch_jobs (s : State) (e : Nat) (f : Epoch → Epoch) : (s.modEpoch e f).jobs = s.jobs := rfl
@[simp] theorem modEpoch_cores (s : State) (e : Nat) (f : Epoch → Epoch) : (s.modEpoch e f).cores = s.cores := rfl
@[simp] theorem modEpoch_sch (s : State) (e : Nat) (f : Epoch → Epoch) : (s.modEpoch e f).sch = s.sch := rfl
@[simp] theorem modEpoch_epochs (s : State) (e : Nat) (f : Epoch → Epoch) : (s.modEpoch e f).epochs = tmod {} s.epochs e f := rfl
@[simp] theorem modEpoch_rules (s : State) (e : Nat) (f : Epoch → Epoch) : (s.modEpoch e f).rules = s.rules := rfl
@[simp] theorem modEpoch_pools (s : State) (e : Nat) (f : Epoch → Epoch) : (s.modEpoch e f).pools = s.pools := rfl
@[simp] theorem modEpoch_kvShares (s : State) (e : Nat) (f : Epoch → Epoch) : (s.modEpoch e f).kvShares = s.kvShares := rfl
@[simp] theorem modEpoch_key (s : State) (e : Nat) (f : Epoch → Epoch) : (s.modEpoch e f).key = s.key := rfl
@[simp] theorem modEpoch_memc (s : State) (e : Nat) (f : Epoch → Epoch) : (s.modEpoch e f).memc = s.memc := rfl
@[simp] theorem modEpoch_aud (s : State) (e : Nat) (f : Epoch → Epoch) : (s.modEpoch e f).aud = s.aud := rfl
@[simp] theorem modEpoch_caps (s : State) (e : Nat) (f : Epoch → Epoch) : (s.modEpoch e f).caps = s.caps := rfl
@[simp] theorem modEpoch_cam (s : State) (e : Nat) (f : Epoch → Epoch) : (s.modEpoch e f).cam = s.cam := rfl
@[simp] theorem modEpoch_itk (s : State) (e : Nat) (f : Epoch → Epoch) : (s.modEpoch e f).itk = s.itk := rfl
@[simp] theorem modEpoch_slk (s : State) (e : Nat) (f : Epoch → Epoch) : (s.modEpoch e f).slk = s.slk := rfl
@[simp] theorem modEpoch_obs (s : State) (e : Nat) (f : Epoch → Epoch) : (s.modEpoch e f).obs = s.obs := rfl
@[simp] theorem modEpoch_irq (s : State) (e : Nat) (f : Epoch → Epoch) : (s.modEpoch e f).irq = s.irq := rfl
@[simp] theorem modEpoch_mem (s : State) (e : Nat) (f : Epoch → Epoch) : (s.modEpoch e f).mem = s.mem := rfl
@[simp] theorem modEpoch_hostOut (s : State) (e : Nat) (f : Epoch → Epoch) : (s.modEpoch e f).hostOut = s.hostOut := rfl
@[simp] theorem modEpoch_rdata (s : State) (e : Nat) (f : Epoch → Epoch) : (s.modEpoch e f).rdata = s.rdata := rfl
@[simp] theorem modEpoch_reply (s : State) (e : Nat) (f : Epoch → Epoch) : (s.modEpoch e f).reply = s.reply := rfl
@[simp] theorem modEpoch_fresh (s : State) (e : Nat) (f : Epoch → Epoch) : (s.modEpoch e f).fresh = s.fresh := rfl
@[simp] theorem modEpoch_pending (s : State) (e : Nat) (f : Epoch → Epoch) : (s.modEpoch e f).pending = s.pending := rfl

@[simp] theorem modRule_build (s : State) (r : Nat) (f : Rule → Rule) : (s.modRule r f).build = s.build := rfl
@[simp] theorem modRule_glb (s : State) (r : Nat) (f : Rule → Rule) : (s.modRule r f).glb = s.glb := rfl
@[simp] theorem modRule_dies (s : State) (r : Nat) (f : Rule → Rule) : (s.modRule r f).dies = s.dies := rfl
@[simp] theorem modRule_tb (s : State) (r : Nat) (f : Rule → Rule) : (s.modRule r f).tb = s.tb := rfl
@[simp] theorem modRule_clk (s : State) (r : Nat) (f : Rule → Rule) : (s.modRule r f).clk = s.clk := rfl
@[simp] theorem modRule_pmu (s : State) (r : Nat) (f : Rule → Rule) : (s.modRule r f).pmu = s.pmu := rfl
@[simp] theorem modRule_aon (s : State) (r : Nat) (f : Rule → Rule) : (s.modRule r f).aon = s.aon := rfl
@[simp] theorem modRule_rings (s : State) (r : Nat) (f : Rule → Rule) : (s.modRule r f).rings = s.rings := rfl
@[simp] theorem modRule_gcp (s : State) (r : Nat) (f : Rule → Rule) : (s.modRule r f).gcp = s.gcp := rfl
@[simp] theorem modRule_cmds (s : State) (r : Nat) (f : Rule → Rule) : (s.modRule r f).cmds = s.cmds := rfl
@[simp] theorem modRule_tenants (s : State) (r : Nat) (f : Rule → Rule) : (s.modRule r f).tenants = s.tenants := rfl
@[simp] theorem modRule_images (s : State) (r : Nat) (f : Rule → Rule) : (s.modRule r f).images = s.images := rfl
@[simp] theorem modRule_streams (s : State) (r : Nat) (f : Rule → Rule) : (s.modRule r f).streams = s.streams := rfl
@[simp] theorem modRule_jobs (s : State) (r : Nat) (f : Rule → Rule) : (s.modRule r f).jobs = s.jobs := rfl
@[simp] theorem modRule_cores (s : State) (r : Nat) (f : Rule → Rule) : (s.modRule r f).cores = s.cores := rfl
@[simp] theorem modRule_sch (s : State) (r : Nat) (f : Rule → Rule) : (s.modRule r f).sch = s.sch := rfl
@[simp] theorem modRule_epochs (s : State) (r : Nat) (f : Rule → Rule) : (s.modRule r f).epochs = s.epochs := rfl
@[simp] theorem modRule_rules (s : State) (r : Nat) (f : Rule → Rule) : (s.modRule r f).rules = tmod {} s.rules r f := rfl
@[simp] theorem modRule_pools (s : State) (r : Nat) (f : Rule → Rule) : (s.modRule r f).pools = s.pools := rfl
@[simp] theorem modRule_kvShares (s : State) (r : Nat) (f : Rule → Rule) : (s.modRule r f).kvShares = s.kvShares := rfl
@[simp] theorem modRule_key (s : State) (r : Nat) (f : Rule → Rule) : (s.modRule r f).key = s.key := rfl
@[simp] theorem modRule_memc (s : State) (r : Nat) (f : Rule → Rule) : (s.modRule r f).memc = s.memc := rfl
@[simp] theorem modRule_aud (s : State) (r : Nat) (f : Rule → Rule) : (s.modRule r f).aud = s.aud := rfl
@[simp] theorem modRule_caps (s : State) (r : Nat) (f : Rule → Rule) : (s.modRule r f).caps = s.caps := rfl
@[simp] theorem modRule_cam (s : State) (r : Nat) (f : Rule → Rule) : (s.modRule r f).cam = s.cam := rfl
@[simp] theorem modRule_itk (s : State) (r : Nat) (f : Rule → Rule) : (s.modRule r f).itk = s.itk := rfl
@[simp] theorem modRule_slk (s : State) (r : Nat) (f : Rule → Rule) : (s.modRule r f).slk = s.slk := rfl
@[simp] theorem modRule_obs (s : State) (r : Nat) (f : Rule → Rule) : (s.modRule r f).obs = s.obs := rfl
@[simp] theorem modRule_irq (s : State) (r : Nat) (f : Rule → Rule) : (s.modRule r f).irq = s.irq := rfl
@[simp] theorem modRule_mem (s : State) (r : Nat) (f : Rule → Rule) : (s.modRule r f).mem = s.mem := rfl
@[simp] theorem modRule_hostOut (s : State) (r : Nat) (f : Rule → Rule) : (s.modRule r f).hostOut = s.hostOut := rfl
@[simp] theorem modRule_rdata (s : State) (r : Nat) (f : Rule → Rule) : (s.modRule r f).rdata = s.rdata := rfl
@[simp] theorem modRule_reply (s : State) (r : Nat) (f : Rule → Rule) : (s.modRule r f).reply = s.reply := rfl
@[simp] theorem modRule_fresh (s : State) (r : Nat) (f : Rule → Rule) : (s.modRule r f).fresh = s.fresh := rfl
@[simp] theorem modRule_pending (s : State) (r : Nat) (f : Rule → Rule) : (s.modRule r f).pending = s.pending := rfl

@[simp] theorem modCap_build (s : State) (k : Nat) (f : Capture → Capture) : (s.modCap k f).build = s.build := rfl
@[simp] theorem modCap_glb (s : State) (k : Nat) (f : Capture → Capture) : (s.modCap k f).glb = s.glb := rfl
@[simp] theorem modCap_dies (s : State) (k : Nat) (f : Capture → Capture) : (s.modCap k f).dies = s.dies := rfl
@[simp] theorem modCap_tb (s : State) (k : Nat) (f : Capture → Capture) : (s.modCap k f).tb = s.tb := rfl
@[simp] theorem modCap_clk (s : State) (k : Nat) (f : Capture → Capture) : (s.modCap k f).clk = s.clk := rfl
@[simp] theorem modCap_pmu (s : State) (k : Nat) (f : Capture → Capture) : (s.modCap k f).pmu = s.pmu := rfl
@[simp] theorem modCap_aon (s : State) (k : Nat) (f : Capture → Capture) : (s.modCap k f).aon = s.aon := rfl
@[simp] theorem modCap_rings (s : State) (k : Nat) (f : Capture → Capture) : (s.modCap k f).rings = s.rings := rfl
@[simp] theorem modCap_gcp (s : State) (k : Nat) (f : Capture → Capture) : (s.modCap k f).gcp = s.gcp := rfl
@[simp] theorem modCap_cmds (s : State) (k : Nat) (f : Capture → Capture) : (s.modCap k f).cmds = s.cmds := rfl
@[simp] theorem modCap_tenants (s : State) (k : Nat) (f : Capture → Capture) : (s.modCap k f).tenants = s.tenants := rfl
@[simp] theorem modCap_images (s : State) (k : Nat) (f : Capture → Capture) : (s.modCap k f).images = s.images := rfl
@[simp] theorem modCap_streams (s : State) (k : Nat) (f : Capture → Capture) : (s.modCap k f).streams = s.streams := rfl
@[simp] theorem modCap_jobs (s : State) (k : Nat) (f : Capture → Capture) : (s.modCap k f).jobs = s.jobs := rfl
@[simp] theorem modCap_cores (s : State) (k : Nat) (f : Capture → Capture) : (s.modCap k f).cores = s.cores := rfl
@[simp] theorem modCap_sch (s : State) (k : Nat) (f : Capture → Capture) : (s.modCap k f).sch = s.sch := rfl
@[simp] theorem modCap_epochs (s : State) (k : Nat) (f : Capture → Capture) : (s.modCap k f).epochs = s.epochs := rfl
@[simp] theorem modCap_rules (s : State) (k : Nat) (f : Capture → Capture) : (s.modCap k f).rules = s.rules := rfl
@[simp] theorem modCap_pools (s : State) (k : Nat) (f : Capture → Capture) : (s.modCap k f).pools = s.pools := rfl
@[simp] theorem modCap_kvShares (s : State) (k : Nat) (f : Capture → Capture) : (s.modCap k f).kvShares = s.kvShares := rfl
@[simp] theorem modCap_key (s : State) (k : Nat) (f : Capture → Capture) : (s.modCap k f).key = s.key := rfl
@[simp] theorem modCap_memc (s : State) (k : Nat) (f : Capture → Capture) : (s.modCap k f).memc = s.memc := rfl
@[simp] theorem modCap_aud (s : State) (k : Nat) (f : Capture → Capture) : (s.modCap k f).aud = s.aud := rfl
@[simp] theorem modCap_caps (s : State) (k : Nat) (f : Capture → Capture) : (s.modCap k f).caps = tmod none s.caps k (fun o => o.map f) := rfl
@[simp] theorem modCap_cam (s : State) (k : Nat) (f : Capture → Capture) : (s.modCap k f).cam = s.cam := rfl
@[simp] theorem modCap_itk (s : State) (k : Nat) (f : Capture → Capture) : (s.modCap k f).itk = s.itk := rfl
@[simp] theorem modCap_slk (s : State) (k : Nat) (f : Capture → Capture) : (s.modCap k f).slk = s.slk := rfl
@[simp] theorem modCap_obs (s : State) (k : Nat) (f : Capture → Capture) : (s.modCap k f).obs = s.obs := rfl
@[simp] theorem modCap_irq (s : State) (k : Nat) (f : Capture → Capture) : (s.modCap k f).irq = s.irq := rfl
@[simp] theorem modCap_mem (s : State) (k : Nat) (f : Capture → Capture) : (s.modCap k f).mem = s.mem := rfl
@[simp] theorem modCap_hostOut (s : State) (k : Nat) (f : Capture → Capture) : (s.modCap k f).hostOut = s.hostOut := rfl
@[simp] theorem modCap_rdata (s : State) (k : Nat) (f : Capture → Capture) : (s.modCap k f).rdata = s.rdata := rfl
@[simp] theorem modCap_reply (s : State) (k : Nat) (f : Capture → Capture) : (s.modCap k f).reply = s.reply := rfl
@[simp] theorem modCap_fresh (s : State) (k : Nat) (f : Capture → Capture) : (s.modCap k f).fresh = s.fresh := rfl
@[simp] theorem modCap_pending (s : State) (k : Nat) (f : Capture → Capture) : (s.modCap k f).pending = s.pending := rfl

@[simp] theorem modSlot_build (s : State) (i : Nat) (f : KeySlot → KeySlot) : (s.modSlot i f).build = s.build := rfl
@[simp] theorem modSlot_glb (s : State) (i : Nat) (f : KeySlot → KeySlot) : (s.modSlot i f).glb = s.glb := rfl
@[simp] theorem modSlot_dies (s : State) (i : Nat) (f : KeySlot → KeySlot) : (s.modSlot i f).dies = s.dies := rfl
@[simp] theorem modSlot_tb (s : State) (i : Nat) (f : KeySlot → KeySlot) : (s.modSlot i f).tb = s.tb := rfl
@[simp] theorem modSlot_clk (s : State) (i : Nat) (f : KeySlot → KeySlot) : (s.modSlot i f).clk = s.clk := rfl
@[simp] theorem modSlot_pmu (s : State) (i : Nat) (f : KeySlot → KeySlot) : (s.modSlot i f).pmu = s.pmu := rfl
@[simp] theorem modSlot_aon (s : State) (i : Nat) (f : KeySlot → KeySlot) : (s.modSlot i f).aon = s.aon := rfl
@[simp] theorem modSlot_rings (s : State) (i : Nat) (f : KeySlot → KeySlot) : (s.modSlot i f).rings = s.rings := rfl
@[simp] theorem modSlot_gcp (s : State) (i : Nat) (f : KeySlot → KeySlot) : (s.modSlot i f).gcp = s.gcp := rfl
@[simp] theorem modSlot_cmds (s : State) (i : Nat) (f : KeySlot → KeySlot) : (s.modSlot i f).cmds = s.cmds := rfl
@[simp] theorem modSlot_tenants (s : State) (i : Nat) (f : KeySlot → KeySlot) : (s.modSlot i f).tenants = s.tenants := rfl
@[simp] theorem modSlot_images (s : State) (i : Nat) (f : KeySlot → KeySlot) : (s.modSlot i f).images = s.images := rfl
@[simp] theorem modSlot_streams (s : State) (i : Nat) (f : KeySlot → KeySlot) : (s.modSlot i f).streams = s.streams := rfl
@[simp] theorem modSlot_jobs (s : State) (i : Nat) (f : KeySlot → KeySlot) : (s.modSlot i f).jobs = s.jobs := rfl
@[simp] theorem modSlot_cores (s : State) (i : Nat) (f : KeySlot → KeySlot) : (s.modSlot i f).cores = s.cores := rfl
@[simp] theorem modSlot_sch (s : State) (i : Nat) (f : KeySlot → KeySlot) : (s.modSlot i f).sch = s.sch := rfl
@[simp] theorem modSlot_epochs (s : State) (i : Nat) (f : KeySlot → KeySlot) : (s.modSlot i f).epochs = s.epochs := rfl
@[simp] theorem modSlot_rules (s : State) (i : Nat) (f : KeySlot → KeySlot) : (s.modSlot i f).rules = s.rules := rfl
@[simp] theorem modSlot_pools (s : State) (i : Nat) (f : KeySlot → KeySlot) : (s.modSlot i f).pools = s.pools := rfl
@[simp] theorem modSlot_kvShares (s : State) (i : Nat) (f : KeySlot → KeySlot) : (s.modSlot i f).kvShares = s.kvShares := rfl
@[simp] theorem modSlot_key (s : State) (i : Nat) (f : KeySlot → KeySlot) : (s.modSlot i f).key = { s.key with slots := tmod {} s.key.slots i f } := rfl
@[simp] theorem modSlot_memc (s : State) (i : Nat) (f : KeySlot → KeySlot) : (s.modSlot i f).memc = s.memc := rfl
@[simp] theorem modSlot_aud (s : State) (i : Nat) (f : KeySlot → KeySlot) : (s.modSlot i f).aud = s.aud := rfl
@[simp] theorem modSlot_caps (s : State) (i : Nat) (f : KeySlot → KeySlot) : (s.modSlot i f).caps = s.caps := rfl
@[simp] theorem modSlot_cam (s : State) (i : Nat) (f : KeySlot → KeySlot) : (s.modSlot i f).cam = s.cam := rfl
@[simp] theorem modSlot_itk (s : State) (i : Nat) (f : KeySlot → KeySlot) : (s.modSlot i f).itk = s.itk := rfl
@[simp] theorem modSlot_slk (s : State) (i : Nat) (f : KeySlot → KeySlot) : (s.modSlot i f).slk = s.slk := rfl
@[simp] theorem modSlot_obs (s : State) (i : Nat) (f : KeySlot → KeySlot) : (s.modSlot i f).obs = s.obs := rfl
@[simp] theorem modSlot_irq (s : State) (i : Nat) (f : KeySlot → KeySlot) : (s.modSlot i f).irq = s.irq := rfl
@[simp] theorem modSlot_mem (s : State) (i : Nat) (f : KeySlot → KeySlot) : (s.modSlot i f).mem = s.mem := rfl
@[simp] theorem modSlot_hostOut (s : State) (i : Nat) (f : KeySlot → KeySlot) : (s.modSlot i f).hostOut = s.hostOut := rfl
@[simp] theorem modSlot_rdata (s : State) (i : Nat) (f : KeySlot → KeySlot) : (s.modSlot i f).rdata = s.rdata := rfl
@[simp] theorem modSlot_reply (s : State) (i : Nat) (f : KeySlot → KeySlot) : (s.modSlot i f).reply = s.reply := rfl
@[simp] theorem modSlot_fresh (s : State) (i : Nat) (f : KeySlot → KeySlot) : (s.modSlot i f).fresh = s.fresh := rfl
@[simp] theorem modSlot_pending (s : State) (i : Nat) (f : KeySlot → KeySlot) : (s.modSlot i f).pending = s.pending := rfl

@[simp] theorem modPort_build (s : State) (n : Nat) (f : AudPort → AudPort) : (s.modPort n f).build = s.build := rfl
@[simp] theorem modPort_glb (s : State) (n : Nat) (f : AudPort → AudPort) : (s.modPort n f).glb = s.glb := rfl
@[simp] theorem modPort_dies (s : State) (n : Nat) (f : AudPort → AudPort) : (s.modPort n f).dies = s.dies := rfl
@[simp] theorem modPort_tb (s : State) (n : Nat) (f : AudPort → AudPort) : (s.modPort n f).tb = s.tb := rfl
@[simp] theorem modPort_clk (s : State) (n : Nat) (f : AudPort → AudPort) : (s.modPort n f).clk = s.clk := rfl
@[simp] theorem modPort_pmu (s : State) (n : Nat) (f : AudPort → AudPort) : (s.modPort n f).pmu = s.pmu := rfl
@[simp] theorem modPort_aon (s : State) (n : Nat) (f : AudPort → AudPort) : (s.modPort n f).aon = s.aon := rfl
@[simp] theorem modPort_rings (s : State) (n : Nat) (f : AudPort → AudPort) : (s.modPort n f).rings = s.rings := rfl
@[simp] theorem modPort_gcp (s : State) (n : Nat) (f : AudPort → AudPort) : (s.modPort n f).gcp = s.gcp := rfl
@[simp] theorem modPort_cmds (s : State) (n : Nat) (f : AudPort → AudPort) : (s.modPort n f).cmds = s.cmds := rfl
@[simp] theorem modPort_tenants (s : State) (n : Nat) (f : AudPort → AudPort) : (s.modPort n f).tenants = s.tenants := rfl
@[simp] theorem modPort_images (s : State) (n : Nat) (f : AudPort → AudPort) : (s.modPort n f).images = s.images := rfl
@[simp] theorem modPort_streams (s : State) (n : Nat) (f : AudPort → AudPort) : (s.modPort n f).streams = s.streams := rfl
@[simp] theorem modPort_jobs (s : State) (n : Nat) (f : AudPort → AudPort) : (s.modPort n f).jobs = s.jobs := rfl
@[simp] theorem modPort_cores (s : State) (n : Nat) (f : AudPort → AudPort) : (s.modPort n f).cores = s.cores := rfl
@[simp] theorem modPort_sch (s : State) (n : Nat) (f : AudPort → AudPort) : (s.modPort n f).sch = s.sch := rfl
@[simp] theorem modPort_epochs (s : State) (n : Nat) (f : AudPort → AudPort) : (s.modPort n f).epochs = s.epochs := rfl
@[simp] theorem modPort_rules (s : State) (n : Nat) (f : AudPort → AudPort) : (s.modPort n f).rules = s.rules := rfl
@[simp] theorem modPort_pools (s : State) (n : Nat) (f : AudPort → AudPort) : (s.modPort n f).pools = s.pools := rfl
@[simp] theorem modPort_kvShares (s : State) (n : Nat) (f : AudPort → AudPort) : (s.modPort n f).kvShares = s.kvShares := rfl
@[simp] theorem modPort_key (s : State) (n : Nat) (f : AudPort → AudPort) : (s.modPort n f).key = s.key := rfl
@[simp] theorem modPort_memc (s : State) (n : Nat) (f : AudPort → AudPort) : (s.modPort n f).memc = s.memc := rfl
@[simp] theorem modPort_aud (s : State) (n : Nat) (f : AudPort → AudPort) : (s.modPort n f).aud = { s.aud with ports := tmod {} s.aud.ports n f } := rfl
@[simp] theorem modPort_caps (s : State) (n : Nat) (f : AudPort → AudPort) : (s.modPort n f).caps = s.caps := rfl
@[simp] theorem modPort_cam (s : State) (n : Nat) (f : AudPort → AudPort) : (s.modPort n f).cam = s.cam := rfl
@[simp] theorem modPort_itk (s : State) (n : Nat) (f : AudPort → AudPort) : (s.modPort n f).itk = s.itk := rfl
@[simp] theorem modPort_slk (s : State) (n : Nat) (f : AudPort → AudPort) : (s.modPort n f).slk = s.slk := rfl
@[simp] theorem modPort_obs (s : State) (n : Nat) (f : AudPort → AudPort) : (s.modPort n f).obs = s.obs := rfl
@[simp] theorem modPort_irq (s : State) (n : Nat) (f : AudPort → AudPort) : (s.modPort n f).irq = s.irq := rfl
@[simp] theorem modPort_mem (s : State) (n : Nat) (f : AudPort → AudPort) : (s.modPort n f).mem = s.mem := rfl
@[simp] theorem modPort_hostOut (s : State) (n : Nat) (f : AudPort → AudPort) : (s.modPort n f).hostOut = s.hostOut := rfl
@[simp] theorem modPort_rdata (s : State) (n : Nat) (f : AudPort → AudPort) : (s.modPort n f).rdata = s.rdata := rfl
@[simp] theorem modPort_reply (s : State) (n : Nat) (f : AudPort → AudPort) : (s.modPort n f).reply = s.reply := rfl
@[simp] theorem modPort_fresh (s : State) (n : Nat) (f : AudPort → AudPort) : (s.modPort n f).fresh = s.fresh := rfl
@[simp] theorem modPort_pending (s : State) (n : Nat) (f : AudPort → AudPort) : (s.modPort n f).pending = s.pending := rfl

@[simp] theorem modSlp_build (s : State) (n : Nat) (f : SlkPort → SlkPort) : (s.modSlp n f).build = s.build := rfl
@[simp] theorem modSlp_glb (s : State) (n : Nat) (f : SlkPort → SlkPort) : (s.modSlp n f).glb = s.glb := rfl
@[simp] theorem modSlp_dies (s : State) (n : Nat) (f : SlkPort → SlkPort) : (s.modSlp n f).dies = s.dies := rfl
@[simp] theorem modSlp_tb (s : State) (n : Nat) (f : SlkPort → SlkPort) : (s.modSlp n f).tb = s.tb := rfl
@[simp] theorem modSlp_clk (s : State) (n : Nat) (f : SlkPort → SlkPort) : (s.modSlp n f).clk = s.clk := rfl
@[simp] theorem modSlp_pmu (s : State) (n : Nat) (f : SlkPort → SlkPort) : (s.modSlp n f).pmu = s.pmu := rfl
@[simp] theorem modSlp_aon (s : State) (n : Nat) (f : SlkPort → SlkPort) : (s.modSlp n f).aon = s.aon := rfl
@[simp] theorem modSlp_rings (s : State) (n : Nat) (f : SlkPort → SlkPort) : (s.modSlp n f).rings = s.rings := rfl
@[simp] theorem modSlp_gcp (s : State) (n : Nat) (f : SlkPort → SlkPort) : (s.modSlp n f).gcp = s.gcp := rfl
@[simp] theorem modSlp_cmds (s : State) (n : Nat) (f : SlkPort → SlkPort) : (s.modSlp n f).cmds = s.cmds := rfl
@[simp] theorem modSlp_tenants (s : State) (n : Nat) (f : SlkPort → SlkPort) : (s.modSlp n f).tenants = s.tenants := rfl
@[simp] theorem modSlp_images (s : State) (n : Nat) (f : SlkPort → SlkPort) : (s.modSlp n f).images = s.images := rfl
@[simp] theorem modSlp_streams (s : State) (n : Nat) (f : SlkPort → SlkPort) : (s.modSlp n f).streams = s.streams := rfl
@[simp] theorem modSlp_jobs (s : State) (n : Nat) (f : SlkPort → SlkPort) : (s.modSlp n f).jobs = s.jobs := rfl
@[simp] theorem modSlp_cores (s : State) (n : Nat) (f : SlkPort → SlkPort) : (s.modSlp n f).cores = s.cores := rfl
@[simp] theorem modSlp_sch (s : State) (n : Nat) (f : SlkPort → SlkPort) : (s.modSlp n f).sch = s.sch := rfl
@[simp] theorem modSlp_epochs (s : State) (n : Nat) (f : SlkPort → SlkPort) : (s.modSlp n f).epochs = s.epochs := rfl
@[simp] theorem modSlp_rules (s : State) (n : Nat) (f : SlkPort → SlkPort) : (s.modSlp n f).rules = s.rules := rfl
@[simp] theorem modSlp_pools (s : State) (n : Nat) (f : SlkPort → SlkPort) : (s.modSlp n f).pools = s.pools := rfl
@[simp] theorem modSlp_kvShares (s : State) (n : Nat) (f : SlkPort → SlkPort) : (s.modSlp n f).kvShares = s.kvShares := rfl
@[simp] theorem modSlp_key (s : State) (n : Nat) (f : SlkPort → SlkPort) : (s.modSlp n f).key = s.key := rfl
@[simp] theorem modSlp_memc (s : State) (n : Nat) (f : SlkPort → SlkPort) : (s.modSlp n f).memc = s.memc := rfl
@[simp] theorem modSlp_aud (s : State) (n : Nat) (f : SlkPort → SlkPort) : (s.modSlp n f).aud = s.aud := rfl
@[simp] theorem modSlp_caps (s : State) (n : Nat) (f : SlkPort → SlkPort) : (s.modSlp n f).caps = s.caps := rfl
@[simp] theorem modSlp_cam (s : State) (n : Nat) (f : SlkPort → SlkPort) : (s.modSlp n f).cam = s.cam := rfl
@[simp] theorem modSlp_itk (s : State) (n : Nat) (f : SlkPort → SlkPort) : (s.modSlp n f).itk = s.itk := rfl
@[simp] theorem modSlp_slk (s : State) (n : Nat) (f : SlkPort → SlkPort) : (s.modSlp n f).slk = { s.slk with ports := tmod {} s.slk.ports n f } := rfl
@[simp] theorem modSlp_obs (s : State) (n : Nat) (f : SlkPort → SlkPort) : (s.modSlp n f).obs = s.obs := rfl
@[simp] theorem modSlp_irq (s : State) (n : Nat) (f : SlkPort → SlkPort) : (s.modSlp n f).irq = s.irq := rfl
@[simp] theorem modSlp_mem (s : State) (n : Nat) (f : SlkPort → SlkPort) : (s.modSlp n f).mem = s.mem := rfl
@[simp] theorem modSlp_hostOut (s : State) (n : Nat) (f : SlkPort → SlkPort) : (s.modSlp n f).hostOut = s.hostOut := rfl
@[simp] theorem modSlp_rdata (s : State) (n : Nat) (f : SlkPort → SlkPort) : (s.modSlp n f).rdata = s.rdata := rfl
@[simp] theorem modSlp_reply (s : State) (n : Nat) (f : SlkPort → SlkPort) : (s.modSlp n f).reply = s.reply := rfl
@[simp] theorem modSlp_fresh (s : State) (n : Nat) (f : SlkPort → SlkPort) : (s.modSlp n f).fresh = s.fresh := rfl
@[simp] theorem modSlp_pending (s : State) (n : Nat) (f : SlkPort → SlkPort) : (s.modSlp n f).pending = s.pending := rfl

@[simp] theorem modCmd_build (s : State) (i : Nat) (f : Cmd → Cmd) : (s.modCmd i f).build = s.build := rfl
@[simp] theorem modCmd_glb (s : State) (i : Nat) (f : Cmd → Cmd) : (s.modCmd i f).glb = s.glb := rfl
@[simp] theorem modCmd_dies (s : State) (i : Nat) (f : Cmd → Cmd) : (s.modCmd i f).dies = s.dies := rfl
@[simp] theorem modCmd_tb (s : State) (i : Nat) (f : Cmd → Cmd) : (s.modCmd i f).tb = s.tb := rfl
@[simp] theorem modCmd_clk (s : State) (i : Nat) (f : Cmd → Cmd) : (s.modCmd i f).clk = s.clk := rfl
@[simp] theorem modCmd_pmu (s : State) (i : Nat) (f : Cmd → Cmd) : (s.modCmd i f).pmu = s.pmu := rfl
@[simp] theorem modCmd_aon (s : State) (i : Nat) (f : Cmd → Cmd) : (s.modCmd i f).aon = s.aon := rfl
@[simp] theorem modCmd_rings (s : State) (i : Nat) (f : Cmd → Cmd) : (s.modCmd i f).rings = s.rings := rfl
@[simp] theorem modCmd_gcp (s : State) (i : Nat) (f : Cmd → Cmd) : (s.modCmd i f).gcp = s.gcp := rfl
@[simp] theorem modCmd_cmds (s : State) (i : Nat) (f : Cmd → Cmd) : (s.modCmd i f).cmds = replaceFirst (fun c => c.id == i) f s.cmds := rfl
@[simp] theorem modCmd_tenants (s : State) (i : Nat) (f : Cmd → Cmd) : (s.modCmd i f).tenants = s.tenants := rfl
@[simp] theorem modCmd_images (s : State) (i : Nat) (f : Cmd → Cmd) : (s.modCmd i f).images = s.images := rfl
@[simp] theorem modCmd_streams (s : State) (i : Nat) (f : Cmd → Cmd) : (s.modCmd i f).streams = s.streams := rfl
@[simp] theorem modCmd_jobs (s : State) (i : Nat) (f : Cmd → Cmd) : (s.modCmd i f).jobs = s.jobs := rfl
@[simp] theorem modCmd_cores (s : State) (i : Nat) (f : Cmd → Cmd) : (s.modCmd i f).cores = s.cores := rfl
@[simp] theorem modCmd_sch (s : State) (i : Nat) (f : Cmd → Cmd) : (s.modCmd i f).sch = s.sch := rfl
@[simp] theorem modCmd_epochs (s : State) (i : Nat) (f : Cmd → Cmd) : (s.modCmd i f).epochs = s.epochs := rfl
@[simp] theorem modCmd_rules (s : State) (i : Nat) (f : Cmd → Cmd) : (s.modCmd i f).rules = s.rules := rfl
@[simp] theorem modCmd_pools (s : State) (i : Nat) (f : Cmd → Cmd) : (s.modCmd i f).pools = s.pools := rfl
@[simp] theorem modCmd_kvShares (s : State) (i : Nat) (f : Cmd → Cmd) : (s.modCmd i f).kvShares = s.kvShares := rfl
@[simp] theorem modCmd_key (s : State) (i : Nat) (f : Cmd → Cmd) : (s.modCmd i f).key = s.key := rfl
@[simp] theorem modCmd_memc (s : State) (i : Nat) (f : Cmd → Cmd) : (s.modCmd i f).memc = s.memc := rfl
@[simp] theorem modCmd_aud (s : State) (i : Nat) (f : Cmd → Cmd) : (s.modCmd i f).aud = s.aud := rfl
@[simp] theorem modCmd_caps (s : State) (i : Nat) (f : Cmd → Cmd) : (s.modCmd i f).caps = s.caps := rfl
@[simp] theorem modCmd_cam (s : State) (i : Nat) (f : Cmd → Cmd) : (s.modCmd i f).cam = s.cam := rfl
@[simp] theorem modCmd_itk (s : State) (i : Nat) (f : Cmd → Cmd) : (s.modCmd i f).itk = s.itk := rfl
@[simp] theorem modCmd_slk (s : State) (i : Nat) (f : Cmd → Cmd) : (s.modCmd i f).slk = s.slk := rfl
@[simp] theorem modCmd_obs (s : State) (i : Nat) (f : Cmd → Cmd) : (s.modCmd i f).obs = s.obs := rfl
@[simp] theorem modCmd_irq (s : State) (i : Nat) (f : Cmd → Cmd) : (s.modCmd i f).irq = s.irq := rfl
@[simp] theorem modCmd_mem (s : State) (i : Nat) (f : Cmd → Cmd) : (s.modCmd i f).mem = s.mem := rfl
@[simp] theorem modCmd_hostOut (s : State) (i : Nat) (f : Cmd → Cmd) : (s.modCmd i f).hostOut = s.hostOut := rfl
@[simp] theorem modCmd_rdata (s : State) (i : Nat) (f : Cmd → Cmd) : (s.modCmd i f).rdata = s.rdata := rfl
@[simp] theorem modCmd_reply (s : State) (i : Nat) (f : Cmd → Cmd) : (s.modCmd i f).reply = s.reply := rfl
@[simp] theorem modCmd_fresh (s : State) (i : Nat) (f : Cmd → Cmd) : (s.modCmd i f).fresh = s.fresh := rfl
@[simp] theorem modCmd_pending (s : State) (i : Nat) (f : Cmd → Cmd) : (s.modCmd i f).pending = s.pending := rfl

@[simp] theorem poke_build (s : State) (a : Nat) (bs : List Byte) : (s.poke a bs).build = s.build := rfl
@[simp] theorem poke_glb (s : State) (a : Nat) (bs : List Byte) : (s.poke a bs).glb = s.glb := rfl
@[simp] theorem poke_dies (s : State) (a : Nat) (bs : List Byte) : (s.poke a bs).dies = s.dies := rfl
@[simp] theorem poke_tb (s : State) (a : Nat) (bs : List Byte) : (s.poke a bs).tb = s.tb := rfl
@[simp] theorem poke_clk (s : State) (a : Nat) (bs : List Byte) : (s.poke a bs).clk = s.clk := rfl
@[simp] theorem poke_pmu (s : State) (a : Nat) (bs : List Byte) : (s.poke a bs).pmu = s.pmu := rfl
@[simp] theorem poke_aon (s : State) (a : Nat) (bs : List Byte) : (s.poke a bs).aon = s.aon := rfl
@[simp] theorem poke_rings (s : State) (a : Nat) (bs : List Byte) : (s.poke a bs).rings = s.rings := rfl
@[simp] theorem poke_gcp (s : State) (a : Nat) (bs : List Byte) : (s.poke a bs).gcp = s.gcp := rfl
@[simp] theorem poke_cmds (s : State) (a : Nat) (bs : List Byte) : (s.poke a bs).cmds = s.cmds := rfl
@[simp] theorem poke_tenants (s : State) (a : Nat) (bs : List Byte) : (s.poke a bs).tenants = s.tenants := rfl
@[simp] theorem poke_images (s : State) (a : Nat) (bs : List Byte) : (s.poke a bs).images = s.images := rfl
@[simp] theorem poke_streams (s : State) (a : Nat) (bs : List Byte) : (s.poke a bs).streams = s.streams := rfl
@[simp] theorem poke_jobs (s : State) (a : Nat) (bs : List Byte) : (s.poke a bs).jobs = s.jobs := rfl
@[simp] theorem poke_cores (s : State) (a : Nat) (bs : List Byte) : (s.poke a bs).cores = s.cores := rfl
@[simp] theorem poke_sch (s : State) (a : Nat) (bs : List Byte) : (s.poke a bs).sch = s.sch := rfl
@[simp] theorem poke_epochs (s : State) (a : Nat) (bs : List Byte) : (s.poke a bs).epochs = s.epochs := rfl
@[simp] theorem poke_rules (s : State) (a : Nat) (bs : List Byte) : (s.poke a bs).rules = s.rules := rfl
@[simp] theorem poke_pools (s : State) (a : Nat) (bs : List Byte) : (s.poke a bs).pools = s.pools := rfl
@[simp] theorem poke_kvShares (s : State) (a : Nat) (bs : List Byte) : (s.poke a bs).kvShares = s.kvShares := rfl
@[simp] theorem poke_key (s : State) (a : Nat) (bs : List Byte) : (s.poke a bs).key = s.key := rfl
@[simp] theorem poke_memc (s : State) (a : Nat) (bs : List Byte) : (s.poke a bs).memc = s.memc := rfl
@[simp] theorem poke_aud (s : State) (a : Nat) (bs : List Byte) : (s.poke a bs).aud = s.aud := rfl
@[simp] theorem poke_caps (s : State) (a : Nat) (bs : List Byte) : (s.poke a bs).caps = s.caps := rfl
@[simp] theorem poke_cam (s : State) (a : Nat) (bs : List Byte) : (s.poke a bs).cam = s.cam := rfl
@[simp] theorem poke_itk (s : State) (a : Nat) (bs : List Byte) : (s.poke a bs).itk = s.itk := rfl
@[simp] theorem poke_slk (s : State) (a : Nat) (bs : List Byte) : (s.poke a bs).slk = s.slk := rfl
@[simp] theorem poke_obs (s : State) (a : Nat) (bs : List Byte) : (s.poke a bs).obs = s.obs := rfl
@[simp] theorem poke_irq (s : State) (a : Nat) (bs : List Byte) : (s.poke a bs).irq = s.irq := rfl
@[simp] theorem poke_mem (s : State) (a : Nat) (bs : List Byte) : (s.poke a bs).mem = mwrite s.mem a bs := rfl
@[simp] theorem poke_hostOut (s : State) (a : Nat) (bs : List Byte) : (s.poke a bs).hostOut = s.hostOut := rfl
@[simp] theorem poke_rdata (s : State) (a : Nat) (bs : List Byte) : (s.poke a bs).rdata = s.rdata := rfl
@[simp] theorem poke_reply (s : State) (a : Nat) (bs : List Byte) : (s.poke a bs).reply = s.reply := rfl
@[simp] theorem poke_fresh (s : State) (a : Nat) (bs : List Byte) : (s.poke a bs).fresh = s.fresh := rfl
@[simp] theorem poke_pending (s : State) (a : Nat) (bs : List Byte) : (s.poke a bs).pending = s.pending := rfl

@[simp] theorem arm_build (s : State) (b : Timebase) (v : Nat) (o : Owner) : (s.arm b v o).build = s.build := rfl
@[simp] theorem arm_glb (s : State) (b : Timebase) (v : Nat) (o : Owner) : (s.arm b v o).glb = s.glb := rfl
@[simp] theorem arm_dies (s : State) (b : Timebase) (v : Nat) (o : Owner) : (s.arm b v o).dies = s.dies := rfl
@[simp] theorem arm_clk (s : State) (b : Timebase) (v : Nat) (o : Owner) : (s.arm b v o).clk = s.clk := rfl
@[simp] theorem arm_pmu (s : State) (b : Timebase) (v : Nat) (o : Owner) : (s.arm b v o).pmu = s.pmu := rfl
@[simp] theorem arm_aon (s : State) (b : Timebase) (v : Nat) (o : Owner) : (s.arm b v o).aon = s.aon := rfl
@[simp] theorem arm_rings (s : State) (b : Timebase) (v : Nat) (o : Owner) : (s.arm b v o).rings = s.rings := rfl
@[simp] theorem arm_gcp (s : State) (b : Timebase) (v : Nat) (o : Owner) : (s.arm b v o).gcp = s.gcp := rfl
@[simp] theorem arm_cmds (s : State) (b : Timebase) (v : Nat) (o : Owner) : (s.arm b v o).cmds = s.cmds := rfl
@[simp] theorem arm_tenants (s : State) (b : Timebase) (v : Nat) (o : Owner) : (s.arm b v o).tenants = s.tenants := rfl
@[simp] theorem arm_images (s : State) (b : Timebase) (v : Nat) (o : Owner) : (s.arm b v o).images = s.images := rfl
@[simp] theorem arm_streams (s : State) (b : Timebase) (v : Nat) (o : Owner) : (s.arm b v o).streams = s.streams := rfl
@[simp] theorem arm_jobs (s : State) (b : Timebase) (v : Nat) (o : Owner) : (s.arm b v o).jobs = s.jobs := rfl
@[simp] theorem arm_cores (s : State) (b : Timebase) (v : Nat) (o : Owner) : (s.arm b v o).cores = s.cores := rfl
@[simp] theorem arm_sch (s : State) (b : Timebase) (v : Nat) (o : Owner) : (s.arm b v o).sch = s.sch := rfl
@[simp] theorem arm_epochs (s : State) (b : Timebase) (v : Nat) (o : Owner) : (s.arm b v o).epochs = s.epochs := rfl
@[simp] theorem arm_rules (s : State) (b : Timebase) (v : Nat) (o : Owner) : (s.arm b v o).rules = s.rules := rfl
@[simp] theorem arm_pools (s : State) (b : Timebase) (v : Nat) (o : Owner) : (s.arm b v o).pools = s.pools := rfl
@[simp] theorem arm_kvShares (s : State) (b : Timebase) (v : Nat) (o : Owner) : (s.arm b v o).kvShares = s.kvShares := rfl
@[simp] theorem arm_key (s : State) (b : Timebase) (v : Nat) (o : Owner) : (s.arm b v o).key = s.key := rfl
@[simp] theorem arm_memc (s : State) (b : Timebase) (v : Nat) (o : Owner) : (s.arm b v o).memc = s.memc := rfl
@[simp] theorem arm_aud (s : State) (b : Timebase) (v : Nat) (o : Owner) : (s.arm b v o).aud = s.aud := rfl
@[simp] theorem arm_caps (s : State) (b : Timebase) (v : Nat) (o : Owner) : (s.arm b v o).caps = s.caps := rfl
@[simp] theorem arm_cam (s : State) (b : Timebase) (v : Nat) (o : Owner) : (s.arm b v o).cam = s.cam := rfl
@[simp] theorem arm_itk (s : State) (b : Timebase) (v : Nat) (o : Owner) : (s.arm b v o).itk = s.itk := rfl
@[simp] theorem arm_slk (s : State) (b : Timebase) (v : Nat) (o : Owner) : (s.arm b v o).slk = s.slk := rfl
@[simp] theorem arm_obs (s : State) (b : Timebase) (v : Nat) (o : Owner) : (s.arm b v o).obs = s.obs := rfl
@[simp] theorem arm_irq (s : State) (b : Timebase) (v : Nat) (o : Owner) : (s.arm b v o).irq = s.irq := rfl
@[simp] theorem arm_mem (s : State) (b : Timebase) (v : Nat) (o : Owner) : (s.arm b v o).mem = s.mem := rfl
@[simp] theorem arm_hostOut (s : State) (b : Timebase) (v : Nat) (o : Owner) : (s.arm b v o).hostOut = s.hostOut := rfl
@[simp] theorem arm_rdata (s : State) (b : Timebase) (v : Nat) (o : Owner) : (s.arm b v o).rdata = s.rdata := rfl
@[simp] theorem arm_reply (s : State) (b : Timebase) (v : Nat) (o : Owner) : (s.arm b v o).reply = s.reply := rfl
@[simp] theorem arm_fresh (s : State) (b : Timebase) (v : Nat) (o : Owner) : (s.arm b v o).fresh = s.fresh := rfl
@[simp] theorem arm_pending (s : State) (b : Timebase) (v : Nat) (o : Owner) : (s.arm b v o).pending = s.pending := rfl

@[simp] theorem disarm_build (s : State) (o : Owner) : (s.disarm o).build = s.build := rfl
@[simp] theorem disarm_glb (s : State) (o : Owner) : (s.disarm o).glb = s.glb := rfl
@[simp] theorem disarm_dies (s : State) (o : Owner) : (s.disarm o).dies = s.dies := rfl
@[simp] theorem disarm_tb (s : State) (o : Owner) : (s.disarm o).tb = { s.tb with compares := s.tb.compares.filter (fun c => c.owner ≠ o) } := rfl
@[simp] theorem disarm_clk (s : State) (o : Owner) : (s.disarm o).clk = s.clk := rfl
@[simp] theorem disarm_pmu (s : State) (o : Owner) : (s.disarm o).pmu = s.pmu := rfl
@[simp] theorem disarm_aon (s : State) (o : Owner) : (s.disarm o).aon = s.aon := rfl
@[simp] theorem disarm_rings (s : State) (o : Owner) : (s.disarm o).rings = s.rings := rfl
@[simp] theorem disarm_gcp (s : State) (o : Owner) : (s.disarm o).gcp = s.gcp := rfl
@[simp] theorem disarm_cmds (s : State) (o : Owner) : (s.disarm o).cmds = s.cmds := rfl
@[simp] theorem disarm_tenants (s : State) (o : Owner) : (s.disarm o).tenants = s.tenants := rfl
@[simp] theorem disarm_images (s : State) (o : Owner) : (s.disarm o).images = s.images := rfl
@[simp] theorem disarm_streams (s : State) (o : Owner) : (s.disarm o).streams = s.streams := rfl
@[simp] theorem disarm_jobs (s : State) (o : Owner) : (s.disarm o).jobs = s.jobs := rfl
@[simp] theorem disarm_cores (s : State) (o : Owner) : (s.disarm o).cores = s.cores := rfl
@[simp] theorem disarm_sch (s : State) (o : Owner) : (s.disarm o).sch = s.sch := rfl
@[simp] theorem disarm_epochs (s : State) (o : Owner) : (s.disarm o).epochs = s.epochs := rfl
@[simp] theorem disarm_rules (s : State) (o : Owner) : (s.disarm o).rules = s.rules := rfl
@[simp] theorem disarm_pools (s : State) (o : Owner) : (s.disarm o).pools = s.pools := rfl
@[simp] theorem disarm_kvShares (s : State) (o : Owner) : (s.disarm o).kvShares = s.kvShares := rfl
@[simp] theorem disarm_key (s : State) (o : Owner) : (s.disarm o).key = s.key := rfl
@[simp] theorem disarm_memc (s : State) (o : Owner) : (s.disarm o).memc = s.memc := rfl
@[simp] theorem disarm_aud (s : State) (o : Owner) : (s.disarm o).aud = s.aud := rfl
@[simp] theorem disarm_caps (s : State) (o : Owner) : (s.disarm o).caps = s.caps := rfl
@[simp] theorem disarm_cam (s : State) (o : Owner) : (s.disarm o).cam = s.cam := rfl
@[simp] theorem disarm_itk (s : State) (o : Owner) : (s.disarm o).itk = s.itk := rfl
@[simp] theorem disarm_slk (s : State) (o : Owner) : (s.disarm o).slk = s.slk := rfl
@[simp] theorem disarm_obs (s : State) (o : Owner) : (s.disarm o).obs = s.obs := rfl
@[simp] theorem disarm_irq (s : State) (o : Owner) : (s.disarm o).irq = s.irq := rfl
@[simp] theorem disarm_mem (s : State) (o : Owner) : (s.disarm o).mem = s.mem := rfl
@[simp] theorem disarm_hostOut (s : State) (o : Owner) : (s.disarm o).hostOut = s.hostOut := rfl
@[simp] theorem disarm_rdata (s : State) (o : Owner) : (s.disarm o).rdata = s.rdata := rfl
@[simp] theorem disarm_reply (s : State) (o : Owner) : (s.disarm o).reply = s.reply := rfl
@[simp] theorem disarm_fresh (s : State) (o : Owner) : (s.disarm o).fresh = s.fresh := rfl
@[simp] theorem disarm_pending (s : State) (o : Owner) : (s.disarm o).pending = s.pending := rfl

@[simp] theorem tie_build (s : State) : (s.tie).build = s.build := rfl
@[simp] theorem tie_glb (s : State) : (s.tie).glb = s.glb := rfl
@[simp] theorem tie_dies (s : State) : (s.tie).dies = s.dies := rfl
@[simp] theorem tie_tb (s : State) : (s.tie).tb = s.tb := rfl
@[simp] theorem tie_clk (s : State) : (s.tie).clk = s.clk := rfl
@[simp] theorem tie_pmu (s : State) : (s.tie).pmu = s.pmu := rfl
@[simp] theorem tie_aon (s : State) : (s.tie).aon = s.aon := rfl
@[simp] theorem tie_rings (s : State) : (s.tie).rings = s.rings := rfl
@[simp] theorem tie_gcp (s : State) : (s.tie).gcp = s.gcp := rfl
@[simp] theorem tie_cmds (s : State) : (s.tie).cmds = s.cmds := rfl
@[simp] theorem tie_tenants (s : State) : (s.tie).tenants = s.tenants := rfl
@[simp] theorem tie_images (s : State) : (s.tie).images = s.images := rfl
@[simp] theorem tie_streams (s : State) : (s.tie).streams = s.streams := rfl
@[simp] theorem tie_jobs (s : State) : (s.tie).jobs = s.jobs := rfl
@[simp] theorem tie_cores (s : State) : (s.tie).cores = s.cores := rfl
@[simp] theorem tie_sch (s : State) : (s.tie).sch = s.sch := rfl
@[simp] theorem tie_epochs (s : State) : (s.tie).epochs = s.epochs := rfl
@[simp] theorem tie_rules (s : State) : (s.tie).rules = s.rules := rfl
@[simp] theorem tie_pools (s : State) : (s.tie).pools = s.pools := rfl
@[simp] theorem tie_kvShares (s : State) : (s.tie).kvShares = s.kvShares := rfl
@[simp] theorem tie_key (s : State) : (s.tie).key = s.key := rfl
@[simp] theorem tie_memc (s : State) : (s.tie).memc = s.memc := rfl
@[simp] theorem tie_aud (s : State) : (s.tie).aud = s.aud := rfl
@[simp] theorem tie_caps (s : State) : (s.tie).caps = s.caps := rfl
@[simp] theorem tie_cam (s : State) : (s.tie).cam = s.cam := rfl
@[simp] theorem tie_itk (s : State) : (s.tie).itk = s.itk := rfl
@[simp] theorem tie_slk (s : State) : (s.tie).slk = s.slk := rfl
@[simp] theorem tie_obs (s : State) : (s.tie).obs = { s.obs with tie := satInc s.obs.tie } := rfl
@[simp] theorem tie_irq (s : State) : (s.tie).irq = s.irq := rfl
@[simp] theorem tie_mem (s : State) : (s.tie).mem = s.mem := rfl
@[simp] theorem tie_hostOut (s : State) : (s.tie).hostOut = s.hostOut := rfl
@[simp] theorem tie_rdata (s : State) : (s.tie).rdata = s.rdata := rfl
@[simp] theorem tie_reply (s : State) : (s.tie).reply = s.reply := rfl
@[simp] theorem tie_fresh (s : State) : (s.tie).fresh = s.fresh := rfl
@[simp] theorem tie_pending (s : State) : (s.tie).pending = s.pending := rfl

/-! A signal to the host and the rise of an error group change the interrupt state alone. -/

@[simp] theorem msix_build (s : State) (v : Nat) : (s.msix v).build = s.build := by
  unfold State.msix
  split <;> rfl
@[simp] theorem msix_glb (s : State) (v : Nat) : (s.msix v).glb = s.glb := by
  unfold State.msix
  split <;> rfl
@[simp] theorem msix_dies (s : State) (v : Nat) : (s.msix v).dies = s.dies := by
  unfold State.msix
  split <;> rfl
@[simp] theorem msix_tb (s : State) (v : Nat) : (s.msix v).tb = s.tb := by
  unfold State.msix
  split <;> rfl
@[simp] theorem msix_clk (s : State) (v : Nat) : (s.msix v).clk = s.clk := by
  unfold State.msix
  split <;> rfl
@[simp] theorem msix_pmu (s : State) (v : Nat) : (s.msix v).pmu = s.pmu := by
  unfold State.msix
  split <;> rfl
@[simp] theorem msix_aon (s : State) (v : Nat) : (s.msix v).aon = s.aon := by
  unfold State.msix
  split <;> rfl
@[simp] theorem msix_rings (s : State) (v : Nat) : (s.msix v).rings = s.rings := by
  unfold State.msix
  split <;> rfl
@[simp] theorem msix_gcp (s : State) (v : Nat) : (s.msix v).gcp = s.gcp := by
  unfold State.msix
  split <;> rfl
@[simp] theorem msix_cmds (s : State) (v : Nat) : (s.msix v).cmds = s.cmds := by
  unfold State.msix
  split <;> rfl
@[simp] theorem msix_tenants (s : State) (v : Nat) : (s.msix v).tenants = s.tenants := by
  unfold State.msix
  split <;> rfl
@[simp] theorem msix_images (s : State) (v : Nat) : (s.msix v).images = s.images := by
  unfold State.msix
  split <;> rfl
@[simp] theorem msix_streams (s : State) (v : Nat) : (s.msix v).streams = s.streams := by
  unfold State.msix
  split <;> rfl
@[simp] theorem msix_jobs (s : State) (v : Nat) : (s.msix v).jobs = s.jobs := by
  unfold State.msix
  split <;> rfl
@[simp] theorem msix_cores (s : State) (v : Nat) : (s.msix v).cores = s.cores := by
  unfold State.msix
  split <;> rfl
@[simp] theorem msix_sch (s : State) (v : Nat) : (s.msix v).sch = s.sch := by
  unfold State.msix
  split <;> rfl
@[simp] theorem msix_epochs (s : State) (v : Nat) : (s.msix v).epochs = s.epochs := by
  unfold State.msix
  split <;> rfl
@[simp] theorem msix_rules (s : State) (v : Nat) : (s.msix v).rules = s.rules := by
  unfold State.msix
  split <;> rfl
@[simp] theorem msix_pools (s : State) (v : Nat) : (s.msix v).pools = s.pools := by
  unfold State.msix
  split <;> rfl
@[simp] theorem msix_kvShares (s : State) (v : Nat) : (s.msix v).kvShares = s.kvShares := by
  unfold State.msix
  split <;> rfl
@[simp] theorem msix_key (s : State) (v : Nat) : (s.msix v).key = s.key := by
  unfold State.msix
  split <;> rfl
@[simp] theorem msix_memc (s : State) (v : Nat) : (s.msix v).memc = s.memc := by
  unfold State.msix
  split <;> rfl
@[simp] theorem msix_aud (s : State) (v : Nat) : (s.msix v).aud = s.aud := by
  unfold State.msix
  split <;> rfl
@[simp] theorem msix_caps (s : State) (v : Nat) : (s.msix v).caps = s.caps := by
  unfold State.msix
  split <;> rfl
@[simp] theorem msix_cam (s : State) (v : Nat) : (s.msix v).cam = s.cam := by
  unfold State.msix
  split <;> rfl
@[simp] theorem msix_itk (s : State) (v : Nat) : (s.msix v).itk = s.itk := by
  unfold State.msix
  split <;> rfl
@[simp] theorem msix_slk (s : State) (v : Nat) : (s.msix v).slk = s.slk := by
  unfold State.msix
  split <;> rfl
@[simp] theorem msix_obs (s : State) (v : Nat) : (s.msix v).obs = s.obs := by
  unfold State.msix
  split <;> rfl
@[simp] theorem msix_mem (s : State) (v : Nat) : (s.msix v).mem = s.mem := by
  unfold State.msix
  split <;> rfl
@[simp] theorem msix_hostOut (s : State) (v : Nat) : (s.msix v).hostOut = s.hostOut := by
  unfold State.msix
  split <;> rfl
@[simp] theorem msix_rdata (s : State) (v : Nat) : (s.msix v).rdata = s.rdata := by
  unfold State.msix
  split <;> rfl
@[simp] theorem msix_reply (s : State) (v : Nat) : (s.msix v).reply = s.reply := by
  unfold State.msix
  split <;> rfl
@[simp] theorem msix_fresh (s : State) (v : Nat) : (s.msix v).fresh = s.fresh := by
  unfold State.msix
  split <;> rfl
@[simp] theorem msix_pending (s : State) (v : Nat) : (s.msix v).pending = s.pending := by
  unfold State.msix
  split <;> rfl

@[simp] theorem rise_build (s t : State) : (s.rise t).build = t.build := by
  unfold State.rise
  split <;> simp
@[simp] theorem rise_glb (s t : State) : (s.rise t).glb = t.glb := by
  unfold State.rise
  split <;> simp
@[simp] theorem rise_dies (s t : State) : (s.rise t).dies = t.dies := by
  unfold State.rise
  split <;> simp
@[simp] theorem rise_tb (s t : State) : (s.rise t).tb = t.tb := by
  unfold State.rise
  split <;> simp
@[simp] theorem rise_clk (s t : State) : (s.rise t).clk = t.clk := by
  unfold State.rise
  split <;> simp
@[simp] theorem rise_pmu (s t : State) : (s.rise t).pmu = t.pmu := by
  unfold State.rise
  split <;> simp
@[simp] theorem rise_aon (s t : State) : (s.rise t).aon = t.aon := by
  unfold State.rise
  split <;> simp
@[simp] theorem rise_rings (s t : State) : (s.rise t).rings = t.rings := by
  unfold State.rise
  split <;> simp
@[simp] theorem rise_gcp (s t : State) : (s.rise t).gcp = t.gcp := by
  unfold State.rise
  split <;> simp
@[simp] theorem rise_cmds (s t : State) : (s.rise t).cmds = t.cmds := by
  unfold State.rise
  split <;> simp
@[simp] theorem rise_tenants (s t : State) : (s.rise t).tenants = t.tenants := by
  unfold State.rise
  split <;> simp
@[simp] theorem rise_images (s t : State) : (s.rise t).images = t.images := by
  unfold State.rise
  split <;> simp
@[simp] theorem rise_streams (s t : State) : (s.rise t).streams = t.streams := by
  unfold State.rise
  split <;> simp
@[simp] theorem rise_jobs (s t : State) : (s.rise t).jobs = t.jobs := by
  unfold State.rise
  split <;> simp
@[simp] theorem rise_cores (s t : State) : (s.rise t).cores = t.cores := by
  unfold State.rise
  split <;> simp
@[simp] theorem rise_sch (s t : State) : (s.rise t).sch = t.sch := by
  unfold State.rise
  split <;> simp
@[simp] theorem rise_epochs (s t : State) : (s.rise t).epochs = t.epochs := by
  unfold State.rise
  split <;> simp
@[simp] theorem rise_rules (s t : State) : (s.rise t).rules = t.rules := by
  unfold State.rise
  split <;> simp
@[simp] theorem rise_pools (s t : State) : (s.rise t).pools = t.pools := by
  unfold State.rise
  split <;> simp
@[simp] theorem rise_kvShares (s t : State) : (s.rise t).kvShares = t.kvShares := by
  unfold State.rise
  split <;> simp
@[simp] theorem rise_key (s t : State) : (s.rise t).key = t.key := by
  unfold State.rise
  split <;> simp
@[simp] theorem rise_memc (s t : State) : (s.rise t).memc = t.memc := by
  unfold State.rise
  split <;> simp
@[simp] theorem rise_aud (s t : State) : (s.rise t).aud = t.aud := by
  unfold State.rise
  split <;> simp
@[simp] theorem rise_caps (s t : State) : (s.rise t).caps = t.caps := by
  unfold State.rise
  split <;> simp
@[simp] theorem rise_cam (s t : State) : (s.rise t).cam = t.cam := by
  unfold State.rise
  split <;> simp
@[simp] theorem rise_itk (s t : State) : (s.rise t).itk = t.itk := by
  unfold State.rise
  split <;> simp
@[simp] theorem rise_slk (s t : State) : (s.rise t).slk = t.slk := by
  unfold State.rise
  split <;> simp
@[simp] theorem rise_obs (s t : State) : (s.rise t).obs = t.obs := by
  unfold State.rise
  split <;> simp
@[simp] theorem rise_mem (s t : State) : (s.rise t).mem = t.mem := by
  unfold State.rise
  split <;> simp
@[simp] theorem rise_hostOut (s t : State) : (s.rise t).hostOut = t.hostOut := by
  unfold State.rise
  split <;> simp
@[simp] theorem rise_rdata (s t : State) : (s.rise t).rdata = t.rdata := by
  unfold State.rise
  split <;> simp
@[simp] theorem rise_reply (s t : State) : (s.rise t).reply = t.reply := by
  unfold State.rise
  split <;> simp
@[simp] theorem rise_fresh (s t : State) : (s.rise t).fresh = t.fresh := by
  unfold State.rise
  split <;> simp
@[simp] theorem rise_pending (s t : State) : (s.rise t).pending = t.pending := by
  unfold State.rise
  split <;> simp

end Sys2Proof.Machine
end

