-- ==== Sys2Proof/Laws/Table.lean ====
section
/-!
SUPPORT. Laws of the sparse tables: reading after writing, and the canonical form that every write keeps.
-/
namespace Sys2Proof.Machine

@[simp] theorem tget_nil {α : Type} (d : α) (i : Nat) : tget d [] i = d := rfl

theorem tget_cons {α : Type} (d v : α) (k i : Nat) (t : Tbl α) :
    tget d ((k, v) :: t) i = if k = i then v else tget d t i := rfl

/-- Below every listed index a table reads its default. -/
theorem tget_of_lt {α : Type} [DecidableEq α] (d : α) {t : Tbl α} {lo i : Nat} (h : twfFrom d lo t) (hi : i < lo) :
    tget d t i = d := by
  induction t generalizing lo with
  | nil => rfl
  | cons e t ih =>
    obtain ⟨k, v⟩ := e
    simp only [twfFrom, Bool.and_eq_true, decide_eq_true_eq] at h
    rw [tget_cons, if_neg (by omega)]
    exact ih h.2 (by omega)

theorem twfFrom_mono {α : Type} [DecidableEq α] (d : α) {t : Tbl α} {lo lo' : Nat} (h : twfFrom d lo t) (hl : lo' ≤ lo) :
    twfFrom d lo' t := by
  cases t with
  | nil => rfl
  | cons e t =>
    obtain ⟨k, v⟩ := e
    simp only [twfFrom, Bool.and_eq_true, decide_eq_true_eq] at h ⊢
    exact ⟨⟨by omega, h.1.2⟩, h.2⟩

theorem tput_wfFrom {α : Type} [DecidableEq α] (d v : α) {t : Tbl α} {lo i : Nat} (h : twfFrom d lo t) (hi : lo ≤ i) (hv : v ≠ d) :
    twfFrom d lo (tput t i v) := by
  induction t generalizing lo with
  | nil => simp [tput, twfFrom, hv, hi]
  | cons e t ih =>
    obtain ⟨k, w⟩ := e
    have h' := h
    simp only [twfFrom, Bool.and_eq_true, decide_eq_true_eq] at h'
    obtain ⟨⟨h1, h2⟩, h3⟩ := h'
    unfold tput
    split
    · subst i; simp_all [twfFrom]
    · split
      · simp_all [twfFrom]
      · simp only [twfFrom, Bool.and_eq_true, decide_eq_true_eq]
        exact ⟨⟨h1, h2⟩, ih h3 (by omega)⟩

theorem filter_wfFrom {α : Type} [DecidableEq α] (d : α) (p : Nat × α → Bool) {t : Tbl α} {lo : Nat} (h : twfFrom d lo t) :
    twfFrom d lo (t.filter p) := by
  induction t generalizing lo with
  | nil => rfl
  | cons e t ih =>
    obtain ⟨k, w⟩ := e
    simp only [twfFrom, Bool.and_eq_true, decide_eq_true_eq] at h
    rw [List.filter_cons]
    split
    · simp only [twfFrom, Bool.and_eq_true, decide_eq_true_eq]; exact ⟨h.1, ih h.2⟩
    · exact twfFrom_mono d (ih h.2) (by omega)

/-- A write keeps the canonical form. -/
theorem tset_wf {α : Type} [DecidableEq α] (d v : α) {t : Tbl α} (i : Nat) (h : twf d t) : twf d (tset d t i v) := by
  unfold tset
  split
  · exact filter_wfFrom d _ h
  · rename_i hv; exact tput_wfFrom d v h (Nat.zero_le i) hv

theorem tmod_wf {α : Type} [DecidableEq α] (d : α) (f : α → α) {t : Tbl α} (i : Nat) (h : twf d t) : twf d (tmod d t i f) :=
  tset_wf d _ i h

theorem tget_tput_self {α : Type} (d v : α) (t : Tbl α) (i : Nat) : tget d (tput t i v) i = v := by
  induction t with
  | nil => simp [tput, tget]
  | cons e t ih =>
    obtain ⟨k, w⟩ := e
    unfold tput
    split
    · simp [tget]
    · rename_i hk
      split
      · simp [tget]
      · rw [tget_cons, if_neg hk]; exact ih

theorem tget_tput_ne {α : Type} (d v : α) (t : Tbl α) {i j : Nat} (hj : j ≠ i) : tget d (tput t i v) j = tget d t j := by
  induction t with
  | nil => simp [tput, tget, Ne.symm hj]
  | cons e t ih =>
    obtain ⟨k, w⟩ := e
    unfold tput
    split
    · subst i; simp [tget, Ne.symm hj]
    · split
      · simp [tget, Ne.symm hj]
      · rw [tget_cons, tget_cons, ih]

theorem tget_without {α : Type} (d : α) (t : Tbl α) (i j : Nat) :
    tget d (t.filter (fun e => e.1 ≠ i)) j = if j = i then d else tget d t j := by
  induction t with
  | nil => simp
  | cons e t ih =>
    obtain ⟨k, w⟩ := e
    rw [List.filter_cons]
    by_cases hk : k = i
    · subst hk
      simp only [ne_eq, not_true_eq_false, decide_false, Bool.false_eq_true, if_false]
      rw [ih]
      by_cases hj : j = k
      · simp [hj]
      · simp [hj, tget, Ne.symm hj]
    · simp only [ne_eq, hk, not_false_eq_true, decide_true, if_true]
      rw [tget_cons, tget_cons, ih]
      by_cases hkj : k = j
      · subst hkj; simp [hk]
      · simp [hkj]

/-- A read after a write to the same index gives the value written. -/
@[simp] theorem tget_tset_self {α : Type} [DecidableEq α] (d v : α) (t : Tbl α) (i : Nat) : tget d (tset d t i v) i = v := by
  unfold tset
  split
  · rename_i hv; rw [tget_without, if_pos rfl, hv]
  · exact tget_tput_self d v t i

/-- A write leaves every other index alone. -/
theorem tget_tset_ne {α : Type} [DecidableEq α] (d v : α) (t : Tbl α) {i j : Nat} (hj : j ≠ i) :
    tget d (tset d t i v) j = tget d t j := by
  unfold tset
  split
  · rw [tget_without, if_neg hj]
  · exact tget_tput_ne d v t hj

theorem forN_zero {α : Type} (f : Nat → α → α) (a : α) : forN 0 f a = a := rfl

theorem forN_succ {α : Type} (n : Nat) (f : Nat → α → α) (a : α) : forN (n + 1) f a = f n (forN n f a) := by
  simp [forN, List.range_succ, List.foldl_append]

/-- What every round of a numbered loop keeps, the loop keeps. -/
theorem forN_keeps {α : Type} {P : α → Prop} (n : Nat) (f : Nat → α → α) (hf : ∀ i x, P x → P (f i x)) {a : α} (h : P a) :
    P (forN n f a) := by
  induction n with
  | zero => exact h
  | succ n ih => rw [forN_succ]; exact hf n _ ih

/-- What every round of a fold keeps, the fold keeps. -/
theorem foldl_keeps {α β : Type} {P : α → Prop} (l : List β) (f : α → β → α) (hf : ∀ x b, P x → P (f x b)) {a : α} (h : P a) :
    P (l.foldl f a) := by
  induction l generalizing a with
  | nil => exact h
  | cons b l ih => exact ih (hf a b h)

/-- Inserting permutes. -/
theorem insertBy_perm {α : Type} (le : α → α → Bool) (a : α) (l : List α) : (insertBy le a l).Perm (a :: l) := by
  induction l with
  | nil => exact .refl _
  | cons b t ih =>
    simp only [insertBy]
    split
    · exact .refl _
    · exact (ih.cons b).trans (.swap a b t)

/-- Sorting permutes. -/
theorem sortBy_perm {α : Type} (le : α → α → Bool) (l : List α) : (sortBy le l).Perm l := by
  induction l with
  | nil => exact .refl _
  | cons a t ih => exact (insertBy_perm le a _).trans (ih.cons a)

/-- Inserting into a sorted list leaves it sorted. -/
theorem insertBy_sorted {α : Type} {le : α → α → Bool} (ht : ∀ a b c, le a b = true → le b c = true → le a c = true)
    (hn : ∀ a b, le a b = false → le b a = true) (a : α) (l : List α) (h : l.Pairwise (fun a b => le a b = true)) :
    (insertBy le a l).Pairwise (fun a b => le a b = true) := by
  induction l with
  | nil => simp [insertBy]
  | cons b t ih =>
    have hb := List.pairwise_cons.1 h
    simp only [insertBy]
    split
    · next hab => exact List.pairwise_cons.2 ⟨fun c hc => by
        rcases List.mem_cons.1 hc with rfl | hc
        · exact hab
        · exact ht _ _ _ hab (hb.1 _ hc), h⟩
    · next hab => exact List.pairwise_cons.2 ⟨fun c hc => by
        rcases List.mem_cons.1 ((insertBy_perm le a t).mem_iff.1 hc) with rfl | hc
        · exact hn _ _ (by simpa using hab)
        · exact hb.1 _ hc, ih hb.2⟩

/-- A sorted list, when the order is transitive and total. -/
theorem sortBy_sorted {α : Type} {le : α → α → Bool} (ht : ∀ a b c, le a b = true → le b c = true → le a c = true)
    (hn : ∀ a b, le a b = false → le b a = true) (l : List α) : (sortBy le l).Pairwise (fun a b => le a b = true) := by
  induction l with
  | nil => exact .nil
  | cons a t ih => exact insertBy_sorted ht hn a _ ih

end Sys2Proof.Machine
end

