-- ==== Sys2Proof/Laws/Completion.lean ====
section
/-!
SUPPORT. What a completion touches, operation by operation, and when a Garast command takes effect, is refused, or is armed.
-/
namespace Sys2Proof.Laws
open Sys2Proof.Machine Sys2Proof.Safety

theorem onlyCompletion_refl (s : State) : OnlyCompletion s s := by constructor <;> rfl

theorem onlyCompletion_trans {s t u : State} (h : OnlyCompletion s t) (k : OnlyCompletion t u) : OnlyCompletion s u where
  build := k.build.trans h.build
  glb := k.glb.trans h.glb
  dies := k.dies.trans h.dies
  tb := by rw [k.tb, h.tb]
  clk := k.clk.trans h.clk
  pmu := k.pmu.trans h.pmu
  aon := k.aon.trans h.aon
  gcp := k.gcp.trans h.gcp
  tenants := k.tenants.trans h.tenants
  images := k.images.trans h.images
  streams := k.streams.trans h.streams
  jobs := k.jobs.trans h.jobs
  cores := k.cores.trans h.cores
  sch := k.sch.trans h.sch
  rules := k.rules.trans h.rules
  pools := k.pools.trans h.pools
  kvShares := k.kvShares.trans h.kvShares
  key := k.key.trans h.key
  memc := k.memc.trans h.memc
  aud := k.aud.trans h.aud
  caps := k.caps.trans h.caps
  cam := k.cam.trans h.cam
  itk := k.itk.trans h.itk
  slk := by rw [k.slk, h.slk]
  obs := by rw [k.obs, h.obs]
  rdata := k.rdata.trans h.rdata
  reply := k.reply.trans h.reply
  fresh := k.fresh.trans h.fresh
  pending := k.pending.trans h.pending

theorem onlyCompletion_ite {s a b : State} {c : Prop} [Decidable c] (ha : OnlyCompletion s a) (hb : OnlyCompletion s b) :
    OnlyCompletion s (if c then a else b) := by
  split <;> assumption

theorem onlyCompletion_msix (s : State) (v : Nat) : OnlyCompletion s (s.msix v) := by constructor <;> simp

theorem onlyCompletion_errRing (s : State) (n i : Nat) : OnlyCompletion s (s.errRing n i) := by
  constructor <;> simp [State.errRing]

theorem onlyCompletion_modRing (s : State) (n : Nat) (f : Ring → Ring) : OnlyCompletion s (s.modRing n f) := by
  constructor <;> simp

theorem onlyCompletion_poke (s : State) (a : Nat) (bs : List Byte) : OnlyCompletion s (s.poke a bs) := by
  constructor <;> simp

theorem onlyCompletion_modEpoch (s : State) (e : Nat) (f : Epoch → Epoch) : OnlyCompletion s (s.modEpoch e f) := by
  constructor <;> simp

theorem onlyCompletion_modSlp (s : State) (n : Nat) (f : SlkPort → SlkPort) : OnlyCompletion s (s.modSlp n f) := by
  constructor <;> simp

theorem onlyCompletion_modCmd (s : State) (i : Nat) (f : Cmd → Cmd) : OnlyCompletion s (s.modCmd i f) := by
  constructor <;> simp

theorem onlyCompletion_arm (s : State) (b : Timebase) (v : Nat) (o : Owner) : OnlyCompletion s (s.arm b v o) := by
  constructor <;> simp [State.arm]

theorem onlyCompletion_dropCmd (s : State) (id : Nat) : OnlyCompletion s (s.dropCmd id) := by
  constructor <;> rfl

theorem onlyCompletion_ringStore (s : State) (cq : Nat) (loc : Bool) (a : Nat) (bs : List Byte) :
    OnlyCompletion s (s.ringStore cq loc a bs) := by
  unfold State.ringStore
  refine onlyCompletion_ite (onlyCompletion_ite (onlyCompletion_poke s a bs) (onlyCompletion_refl s))
    (onlyCompletion_ite ?_ (onlyCompletion_errRing s cq 5))
  constructor <;> rfl

/-- A written entry touches its ring, its 32 bytes and the interrupts. -/
theorem onlyCompletion_writeEntry (s : State) (cq : Nat) (st : Status) : OnlyCompletion s (s.writeEntry cq st) := by
  unfold State.writeEntry
  have h := onlyCompletion_trans (onlyCompletion_ringStore s cq (bit (s.ring cq).cqCfg 1)
    ((s.ring cq).cqBase.toNat + 32 * (s.ring cq).cqTail.toNat) (st.bytes (s.ring cq).phase))
    (onlyCompletion_modRing _ cq (fun r =>
      { r with cqTail := BitVec.ofNat 12 (((s.ring cq).cqTail.toNat + 1) % ringSize (s.ring cq).cqCfg),
               phase := if ((s.ring cq).cqTail.toNat + 1) % ringSize (s.ring cq).cqCfg = 0 then !r.phase else r.phase }))
  exact onlyCompletion_ite (onlyCompletion_trans h (onlyCompletion_msix _ cq)) h

theorem onlyCompletion_stallRings (s : State) (cq : Nat) : OnlyCompletion s (s.stallRings cq) :=
  forN_keeps (P := fun t => OnlyCompletion s t) 64 _
    (fun i x h => onlyCompletion_ite (onlyCompletion_trans h (onlyCompletion_errRing x i 2)) h) (onlyCompletion_refl s)

/-- A produced entry is discarded, held or written (R168, R169, R534). -/
theorem onlyCompletion_postStatus (s : State) (cq : Nat) (st : Status) : OnlyCompletion s (s.postStatus cq st) := by
  have h0 : OnlyCompletion s { s with obs.outcomes := tmod 0 s.obs.outcomes st.outcome.toNat satInc } := by constructor <;> rfl
  unfold State.postStatus
  exact onlyCompletion_ite
    (onlyCompletion_ite (onlyCompletion_trans h0 (onlyCompletion_errRing _ st.sq 4)) h0)
    (onlyCompletion_ite
      (onlyCompletion_trans (onlyCompletion_trans h0 (onlyCompletion_modRing _ cq _)) (onlyCompletion_stallRings _ cq))
      (onlyCompletion_trans h0 (onlyCompletion_writeEntry _ cq st)))

theorem onlyCompletion_sendOn (s : State) (k p : Nat) (f : LinkFrame) : OnlyCompletion s (s.sendOn k p f) := by
  unfold State.sendOn
  exact onlyCompletion_ite (onlyCompletion_modSlp _ _ _) (onlyCompletion_ite (onlyCompletion_modSlp _ _ _) (onlyCompletion_refl s))

theorem onlyCompletion_sendTo {s t : State} {dst ty tenant : Nat} {conf : Bool} {payload : List Byte}
    (e : s.sendTo dst ty tenant conf payload = some t) : OnlyCompletion s t := by
  unfold State.sendTo at e
  split at e
  · cases e
  · simp only [Option.bind_eq_some_iff, Option.map_eq_some_iff] at e
    obtain ⟨r, _, p, _, rfl⟩ := e
    exact onlyCompletion_sendOn s _ _ _

theorem onlyCompletion_deliver (s : State) (c : Cmd) (st : Status) : OnlyCompletion s (s.deliver c st) := by
  have h0 : OnlyCompletion s { s with obs.outcomes := tmod 0 s.obs.outcomes st.outcome.toNat satInc } := by constructor <;> rfl
  unfold State.deliver
  split
  · exact onlyCompletion_postStatus s c.cq st
  · dsimp only
    split
    · rename_i t e
      exact onlyCompletion_trans h0 (onlyCompletion_sendTo e)
    · exact h0

/-- A command that completes touches nothing else. -/
theorem onlyCompletion_finish (s : State) (c : Cmd) (d : Done) : OnlyCompletion s (s.finish c d) := by
  have h := onlyCompletion_dropCmd s c.id
  unfold State.finish
  dsimp only
  split
  · exact onlyCompletion_ite (onlyCompletion_trans h (onlyCompletion_modEpoch _ _ _))
      (onlyCompletion_trans h (onlyCompletion_deliver _ c _))
  · exact onlyCompletion_trans h (onlyCompletion_deliver _ c _)

theorem onlyCompletion_complete (s : State) (c : Cmd) (oc : BitVec 3) (rs : Nat) : OnlyCompletion s (s.complete c oc rs) :=
  onlyCompletion_finish s c _

theorem onlyCompletion_served (s : State) (c : Cmd) (result : List Byte) : OnlyCompletion s (s.served c result) :=
  onlyCompletion_finish s c _

/-! ### What a delivered entry leaves -/

/-- The commands, the timebases and the epochs are as before. -/
def SameCmds (s t : State) : Prop := t.cmds = s.cmds ∧ t.tb = s.tb ∧ t.epochs = s.epochs

theorem sameCmds_refl (s : State) : SameCmds s s := ⟨rfl, rfl, rfl⟩

theorem sameCmds_upd {s x t : State} (h : SameCmds s x) (hc : t.cmds = x.cmds) (ht : t.tb = x.tb) (he : t.epochs = x.epochs) :
    SameCmds s t :=
  ⟨hc.trans h.1, ht.trans h.2.1, he.trans h.2.2⟩

theorem sameCmds_ite {s a b : State} {c : Prop} [Decidable c] (ha : SameCmds s a) (hb : SameCmds s b) :
    SameCmds s (if c then a else b) := by
  split <;> assumption

theorem sameCmds_errRing {s x : State} {n i : Nat} (h : SameCmds s x) : SameCmds s (x.errRing n i) :=
  sameCmds_upd h (by simp [State.errRing]) (by simp [State.errRing]) (by simp [State.errRing])

theorem sameCmds_msix {s x : State} {n : Nat} (h : SameCmds s x) : SameCmds s (x.msix n) :=
  sameCmds_upd h (by simp) (by simp) (by simp)

theorem sameCmds_modRing {s x : State} {n : Nat} {f : Ring → Ring} (h : SameCmds s x) : SameCmds s (x.modRing n f) :=
  sameCmds_upd h rfl rfl rfl

theorem sameCmds_ringStore {s x : State} {cq : Nat} {loc : Bool} {a : Nat} {bs : List Byte} (h : SameCmds s x) :
    SameCmds s (x.ringStore cq loc a bs) := by
  unfold State.ringStore
  exact sameCmds_ite (sameCmds_ite (sameCmds_upd h rfl rfl rfl) h) (sameCmds_ite (sameCmds_upd h rfl rfl rfl) (sameCmds_errRing h))

theorem sameCmds_writeEntry {s x : State} {cq : Nat} {st : Status} (h : SameCmds s x) : SameCmds s (x.writeEntry cq st) := by
  unfold State.writeEntry
  exact sameCmds_ite (sameCmds_msix (sameCmds_modRing (sameCmds_ringStore h))) (sameCmds_modRing (sameCmds_ringStore h))

theorem sameCmds_stallRings {s x : State} {cq : Nat} (h : SameCmds s x) : SameCmds s (x.stallRings cq) :=
  forN_keeps (P := fun t => SameCmds s t) 64 _ (fun _ _ k => sameCmds_ite (sameCmds_errRing k) k) h

theorem sameCmds_postStatus {s x : State} {cq : Nat} {st : Status} (h : SameCmds s x) : SameCmds s (x.postStatus cq st) := by
  have h0 : SameCmds s { x with obs.outcomes := tmod 0 x.obs.outcomes st.outcome.toNat satInc } := sameCmds_upd h rfl rfl rfl
  unfold State.postStatus
  exact sameCmds_ite (sameCmds_ite (sameCmds_errRing h0) h0)
    (sameCmds_ite (sameCmds_stallRings (sameCmds_modRing h0)) (sameCmds_writeEntry h0))

theorem sameCmds_deliver (s : State) (c : Cmd) (st : Status) : SameCmds s (s.deliver c st) := by
  have h0 : SameCmds s { s with obs.outcomes := tmod 0 s.obs.outcomes st.outcome.toNat satInc } := ⟨rfl, rfl, rfl⟩
  unfold State.deliver
  split
  · exact sameCmds_postStatus (sameCmds_refl s)
  · dsimp only
    split
    · rename_i t e
      unfold State.sendTo at e
      split at e
      · cases e
      · simp only [Option.bind_eq_some_iff, Option.map_eq_some_iff] at e
        obtain ⟨r, _, p, _, rfl⟩ := e
        unfold State.sendOn
        exact sameCmds_ite (sameCmds_upd h0 rfl rfl rfl) (sameCmds_ite (sameCmds_upd h0 rfl rfl rfl) h0)
    · exact h0

/-- A command that completes is outstanding no more, and its compares are disarmed. -/
theorem finish_cmds (s : State) (c : Cmd) (d : Done) :
    (s.finish c d).cmds = s.cmds.filter (fun x => x.id ≠ c.id) ∧
    (s.finish c d).tb.compares = s.tb.compares.filter (fun k => k.owner ≠ .cmd c.id ∧ k.owner ≠ .timer c.id ∧ k.owner ≠ .snap c.id) := by
  have h := sameCmds_deliver (s.dropCmd c.id) c (c.status d s.tb.sfc)
  have k : ∀ t, SameCmds (s.dropCmd c.id) t → t.cmds = s.cmds.filter (fun x => x.id ≠ c.id) ∧
      t.tb.compares = s.tb.compares.filter (fun k => k.owner ≠ .cmd c.id ∧ k.owner ≠ .timer c.id ∧ k.owner ≠ .snap c.id) := by
    intro t ht
    rw [ht.1, ht.2.1]
    exact ⟨rfl, rfl⟩
  unfold State.finish
  dsimp only
  split
  · split
    · exact ⟨rfl, rfl⟩
    · exact k _ h
  · exact k _ h

/-! ### When a Garast command takes effect -/

theorem dueIs_none {d : W64} (h : dueSel d = 0) (k : Nat) : dueIs d k = false := by simp [dueIs, h]

/-- A ready command whose checks pass takes effect. -/
theorem command_ready {s : State} {c : Cmd} {op : Nat} {sel : Cmd → Bool} {check : State → Cmd → Option Nat}
    {apply : Cmd → State → State} (h : Ready s c op) (hs : sel c = true) (hc : check s c = none) :
    s.command c.id op sel check apply = apply (going c) (begun s c) := by
  unfold State.command
  simp [h.here, h.opcode, hs, h.phase, h.may, hc, dueIs_none h.due, State.begin_, going, begun]

/-- A ready command that a check stops is refused with the check's reason. -/
theorem command_refused {s : State} {c : Cmd} {op rs : Nat} {sel : Cmd → Bool} {check : State → Cmd → Option Nat}
    {apply : Cmd → State → State} (h : Ready s c op) (hs : sel c = true) (hc : check s c = some rs) :
    s.command c.id op sel check apply = s.complete c ocRefused rs := by
  unfold State.command
  simp [h.here, h.opcode, hs, h.phase, h.may, hc]

end Sys2Proof.Laws
end

