-- ==== Sys2Proof/Laws/Frames.lean ====
section
/-!
SUPPORT. Reading a numbered part after it is changed: the change at its own number, everything as before at any other.
-/
namespace Sys2Proof.Machine

@[simp] theorem die_modDie_self (s : State) (i : Nat) (f : Die → Die) : (s.modDie i f).die i = f (s.die i) := by
  simp only [State.die, State.modDie, tmod]; exact tget_tset_self _ _ _ _
theorem die_modDie_ne (s : State) {i j : Nat} (f : Die → Die) (h : j ≠ i) : (s.modDie i f).die j = s.die j := by
  simp only [State.die, State.modDie, tmod]; exact tget_tset_ne _ _ _ h
@[simp] theorem core_modCore_self (s : State) (i : Nat) (f : Core → Core) : (s.modCore i f).core i = f (s.core i) := by
  simp only [State.core, State.modCore, tmod]; exact tget_tset_self _ _ _ _
theorem core_modCore_ne (s : State) {i j : Nat} (f : Core → Core) (h : j ≠ i) : (s.modCore i f).core j = s.core j := by
  simp only [State.core, State.modCore, tmod]; exact tget_tset_ne _ _ _ h
@[simp] theorem ring_modRing_self (s : State) (i : Nat) (f : Ring → Ring) : (s.modRing i f).ring i = f (s.ring i) := by
  simp only [State.ring, State.modRing, tmod]; exact tget_tset_self _ _ _ _
theorem ring_modRing_ne (s : State) {i j : Nat} (f : Ring → Ring) (h : j ≠ i) : (s.modRing i f).ring j = s.ring j := by
  simp only [State.ring, State.modRing, tmod]; exact tget_tset_ne _ _ _ h
@[simp] theorem stream_modStream_self (s : State) (i : Nat) (f : Stream → Stream) : (s.modStream i f).stream i = (s.stream i).map f := by
  simp only [State.stream, State.modStream, tmod]; exact tget_tset_self _ _ _ _
theorem stream_modStream_ne (s : State) {i j : Nat} (f : Stream → Stream) (h : j ≠ i) : (s.modStream i f).stream j = s.stream j := by
  simp only [State.stream, State.modStream, tmod]; exact tget_tset_ne _ _ _ h
@[simp] theorem job_modJob_self (s : State) (i : Nat) (f : Job → Job) : (s.modJob i f).job i = (s.job i).map f := by
  simp only [State.job, State.modJob, tmod]; exact tget_tset_self _ _ _ _
theorem job_modJob_ne (s : State) {i j : Nat} (f : Job → Job) (h : j ≠ i) : (s.modJob i f).job j = s.job j := by
  simp only [State.job, State.modJob, tmod]; exact tget_tset_ne _ _ _ h
@[simp] theorem epoch_modEpoch_self (s : State) (i : Nat) (f : Epoch → Epoch) : (s.modEpoch i f).epoch i = f (s.epoch i) := by
  simp only [State.epoch, State.modEpoch, tmod]; exact tget_tset_self _ _ _ _
theorem epoch_modEpoch_ne (s : State) {i j : Nat} (f : Epoch → Epoch) (h : j ≠ i) : (s.modEpoch i f).epoch j = s.epoch j := by
  simp only [State.epoch, State.modEpoch, tmod]; exact tget_tset_ne _ _ _ h
@[simp] theorem rule_modRule_self (s : State) (i : Nat) (f : Rule → Rule) : (s.modRule i f).rule i = f (s.rule i) := by
  simp only [State.rule, State.modRule, tmod]; exact tget_tset_self _ _ _ _
theorem rule_modRule_ne (s : State) {i j : Nat} (f : Rule → Rule) (h : j ≠ i) : (s.modRule i f).rule j = s.rule j := by
  simp only [State.rule, State.modRule, tmod]; exact tget_tset_ne _ _ _ h
@[simp] theorem cap_modCap_self (s : State) (i : Nat) (f : Capture → Capture) : (s.modCap i f).cap i = (s.cap i).map f := by
  simp only [State.cap, State.modCap, tmod]; exact tget_tset_self _ _ _ _
theorem cap_modCap_ne (s : State) {i j : Nat} (f : Capture → Capture) (h : j ≠ i) : (s.modCap i f).cap j = s.cap j := by
  simp only [State.cap, State.modCap, tmod]; exact tget_tset_ne _ _ _ h
@[simp] theorem slot_modSlot_self (s : State) (i : Nat) (f : KeySlot → KeySlot) : (s.modSlot i f).slot i = f (s.slot i) := by
  simp only [State.slot, State.modSlot, tmod]; exact tget_tset_self _ _ _ _
theorem slot_modSlot_ne (s : State) {i j : Nat} (f : KeySlot → KeySlot) (h : j ≠ i) : (s.modSlot i f).slot j = s.slot j := by
  simp only [State.slot, State.modSlot, tmod]; exact tget_tset_ne _ _ _ h
@[simp] theorem slp_modSlp_self (s : State) (i : Nat) (f : SlkPort → SlkPort) : (s.modSlp i f).slp i = f (s.slp i) := by
  simp only [State.slp, State.modSlp, tmod]; exact tget_tset_self _ _ _ _
theorem slp_modSlp_ne (s : State) {i j : Nat} (f : SlkPort → SlkPort) (h : j ≠ i) : (s.modSlp i f).slp j = s.slp j := by
  simp only [State.slp, State.modSlp, tmod]; exact tget_tset_ne _ _ _ h

end Sys2Proof.Machine
end

