-- ==== Sys2Proof/Laws/Memory.lean ====
section
/-!
SUPPORT. Laws of byte memory: reading after a store, what a store leaves alone, and the canonical form, which every store keeps.
-/
namespace Sys2Proof.Machine

theorem twfFrom_append {t u : List Host.Cell} {lo m : Nat} (h : twfFrom (0 : Byte) lo t) (hu : twfFrom (0 : Byte) m u)
    (ht : ∀ c ∈ t, c.1 < m) (hl : lo ≤ m) : twfFrom (0 : Byte) lo (t ++ u) := by
  induction t generalizing lo with
  | nil => exact twfFrom_mono _ hu hl
  | cons e t ih =>
    obtain ⟨k, v⟩ := e
    simp only [twfFrom, Bool.and_eq_true, decide_eq_true_eq, List.cons_append] at h ⊢
    have hk : k < m := ht (k, v) (by simp)
    exact ⟨h.1, ih h.2 (fun c hc => ht c (by simp [hc])) (by omega)⟩

theorem twfFrom_filter {t : List Host.Cell} {lo : Nat} (p : Host.Cell → Bool) (h : twfFrom (0 : Byte) lo t) :
    twfFrom (0 : Byte) lo (t.filter p) := by
  induction t generalizing lo with
  | nil => rfl
  | cons e t ih =>
    obtain ⟨k, v⟩ := e
    simp only [twfFrom, Bool.and_eq_true, decide_eq_true_eq] at h
    rw [List.filter_cons]
    split
    · simp only [twfFrom, Bool.and_eq_true, decide_eq_true_eq]
      exact ⟨h.1, ih h.2⟩
    · exact twfFrom_mono _ (ih h.2) (by omega)

theorem twfFrom_filter_ge {t : List Host.Cell} {lo m : Nat} (h : twfFrom (0 : Byte) lo t) :
    twfFrom (0 : Byte) m (t.filter (fun c => decide (m ≤ c.1))) := by
  induction t generalizing lo with
  | nil => rfl
  | cons e t ih =>
    obtain ⟨k, v⟩ := e
    simp only [twfFrom, Bool.and_eq_true, decide_eq_true_eq] at h
    rw [List.filter_cons]
    split
    · rename_i hm
      simp only [twfFrom, Bool.and_eq_true, decide_eq_true_eq]
      refine ⟨⟨by simpa using hm, h.1.2⟩, ?_⟩
      have := twfFrom_filter (fun c => decide (m ≤ c.1)) h.2
      exact this
    · exact ih h.2

theorem cellsOf_wf (a : Nat) (bs : List Byte) : twfFrom (0 : Byte) a (cellsOf a bs) := by
  induction bs generalizing a with
  | nil => rfl
  | cons b bs ih =>
    unfold cellsOf
    split
    · exact twfFrom_mono _ (ih (a + 1)) (by omega)
    · simp only [twfFrom, Bool.and_eq_true, decide_eq_true_eq]
      exact ⟨⟨Nat.le_refl a, by assumption⟩, ih (a + 1)⟩

theorem cellsOf_lt (a : Nat) (bs : List Byte) : ∀ c ∈ cellsOf a bs, c.1 < a + bs.length := by
  induction bs generalizing a with
  | nil => simp [cellsOf]
  | cons b bs ih =>
    intro c hc
    unfold cellsOf at hc
    have key : c ∈ cellsOf (a + 1) bs → c.1 < a + (b :: bs).length := by
      intro h; have := ih (a + 1) c h; simp only [List.length_cons]; omega
    split at hc
    · exact key hc
    · rcases List.mem_cons.mp hc with rfl | h
      · simp
      · exact key h

/-- Every store of the model keeps the canonical form of the memory. -/
theorem mwrite_wf {m : List Host.Cell} (a : Nat) (bs : List Byte) (h : Memory.wf m) : Memory.wf (mwrite m a bs) := by
  have hl : twfFrom (0 : Byte) 0 (m.filter (fun c => decide (c.1 < a))) := twfFrom_filter _ h
  have hg : twfFrom (0 : Byte) (a + bs.length) (m.filter (fun c => decide (a + bs.length ≤ c.1))) := twfFrom_filter_ge h
  have hc := cellsOf_wf a bs
  have h1 : twfFrom (0 : Byte) 0 (m.filter (fun c => decide (c.1 < a)) ++ cellsOf a bs) :=
    twfFrom_append hl hc (by simp) (Nat.zero_le a)
  refine twfFrom_append h1 hg ?_ (Nat.zero_le _)
  intro c hc'
  rcases List.mem_append.mp hc' with h | h
  · have : c.1 < a := by simpa using (List.mem_filter.mp h).2
    omega
  · exact cellsOf_lt a bs c h

/-- Clearing a range keeps the canonical form of the memory. -/
theorem mzero_wf {m : List Host.Cell} (a b : Nat) (h : Memory.wf m) : Memory.wf (mzero m a b) := twfFrom_filter _ h

theorem filter_wf {m : List Host.Cell} (p : Host.Cell → Bool) (h : Memory.wf m) : Memory.wf (m.filter p) := twfFrom_filter _ h

theorem nil_wf : Memory.wf [] := rfl

theorem tget_append {t u : List Host.Cell} (i : Nat) (h : ∀ c ∈ t, c.1 ≠ i) :
    tget (0 : Byte) (t ++ u) i = tget (0 : Byte) u i := by
  induction t with
  | nil => rfl
  | cons e t ih =>
    obtain ⟨k, v⟩ := e
    rw [List.cons_append, tget_cons, if_neg (h (k, v) (by simp))]
    exact ih (fun c hc => h c (by simp [hc]))

theorem tget_append_left {t u : List Host.Cell} (i : Nat) (h : ∀ c ∈ u, c.1 ≠ i) :
    tget (0 : Byte) (t ++ u) i = tget (0 : Byte) t i := by
  induction t with
  | nil =>
    induction u with
    | nil => rfl
    | cons e u ih =>
      obtain ⟨k, v⟩ := e
      rw [List.nil_append, tget_cons, if_neg (h (k, v) (by simp))]
      exact ih (fun c hc => h c (by simp [hc]))
  | cons e t ih =>
    obtain ⟨k, v⟩ := e
    rw [List.cons_append, tget_cons, tget_cons, ih]

theorem tget_filter {t : List Host.Cell} (p : Nat → Bool) (i : Nat) (h : p i) :
    tget (0 : Byte) (t.filter (fun c => p c.1)) i = tget (0 : Byte) t i := by
  induction t with
  | nil => rfl
  | cons e t ih =>
    obtain ⟨k, v⟩ := e
    rw [List.filter_cons, tget_cons]
    split
    · rw [tget_cons, ih]
    · rename_i hk
      rw [ih, if_neg]
      intro he; subst he; exact hk h

theorem tget_filter_out {t : List Host.Cell} (p : Nat → Bool) (i : Nat) (h : p i = false) :
    tget (0 : Byte) (t.filter (fun c => p c.1)) i = 0 := by
  induction t with
  | nil => rfl
  | cons e t ih =>
    obtain ⟨k, v⟩ := e
    rw [List.filter_cons]
    split
    · rename_i hk
      rw [tget_cons, if_neg, ih]
      intro he; subst he; simp_all
    · exact ih

/-- A store leaves every byte outside it alone. -/
theorem mread_mwrite_out {m : List Host.Cell} {a i : Nat} {bs : List Byte} (h : i < a ∨ a + bs.length ≤ i) :
    mread (mwrite m a bs) i = mread m i := by
  unfold mread mwrite
  rcases h with h | h
  · rw [tget_append_left, tget_append_left]
    · exact tget_filter (fun k => decide (k < a)) i (by simpa using h)
    · intro c hc
      have : ∀ lo (t : List Host.Cell), twfFrom (0 : Byte) lo t → ∀ c ∈ t, lo ≤ c.1 := by
        intro lo t
        induction t generalizing lo with
        | nil => simp
        | cons e t ih =>
          obtain ⟨k, v⟩ := e
          intro hw c hc
          simp only [twfFrom, Bool.and_eq_true, decide_eq_true_eq] at hw
          rcases List.mem_cons.mp hc with rfl | hc
          · exact hw.1.1
          · have := ih (k + 1) hw.2 c hc
            omega
      have := this a _ (cellsOf_wf a bs) c hc
      omega
    · intro c hc
      have : a + bs.length ≤ c.1 := by simpa using (List.mem_filter.mp hc).2
      omega
  · rw [tget_append]
    · exact tget_filter (fun k => decide (a + bs.length ≤ k)) i (by simpa using h)
    · intro c hc
      rcases List.mem_append.mp hc with h' | h'
      · have : c.1 < a := by simpa using (List.mem_filter.mp h').2
        omega
      · have := cellsOf_lt a bs c h'
        omega

theorem cellsOf_get (a j : Nat) (bs : List Byte) (hj : j < bs.length) : tget (0 : Byte) (cellsOf a bs) (a + j) = bs.getD j 0 := by
  induction bs generalizing a j with
  | nil => simp at hj
  | cons b bs ih =>
    cases j with
    | zero =>
      unfold cellsOf
      split
      · rename_i hb
        rw [tget_of_lt _ (cellsOf_wf (a + 1) bs) (by omega)]
        simp [hb]
      · simp [tget]
    | succ j =>
      have hj' : j < bs.length := by simpa using hj
      have e : a + (j + 1) = (a + 1) + j := by omega
      unfold cellsOf
      split
      · rw [e, ih (a + 1) j hj']; simp
      · rw [tget_cons, if_neg (by omega), e, ih (a + 1) j hj']; simp

/-- A read after a store gives the byte stored. -/
theorem mread_mwrite_in (m : List Host.Cell) (a j : Nat) (bs : List Byte) (hj : j < bs.length) :
    mread (mwrite m a bs) (a + j) = bs.getD j 0 := by
  unfold mread mwrite
  rw [tget_append_left, tget_append, cellsOf_get a j bs hj]
  · intro c hc
    have : c.1 < a := by simpa using (List.mem_filter.mp hc).2
    omega
  · intro c hc
    have : a + bs.length ≤ c.1 := by simpa using (List.mem_filter.mp hc).2
    omega

/-- Clearing a range leaves every byte outside it alone. -/
theorem mread_mzero_out {m : List Host.Cell} {a b i : Nat} (h : i < a ∨ b ≤ i) : mread (mzero m a b) i = mread m i :=
  tget_filter (fun k => decide (k < a) || decide (b ≤ k)) i (by simpa using h)

/-- Clearing a range leaves zeros in it. -/
theorem mread_mzero_in {m : List Host.Cell} {a b i : Nat} (h1 : a ≤ i) (h2 : i < b) : mread (mzero m a b) i = 0 :=
  tget_filter_out (fun k => decide (k < a) || decide (b ≤ k)) i (by simp; omega)

end Sys2Proof.Machine
end

