-- ==== Sys2Proof/Laws/Keeps.lean ====
section
/-!
SUPPORT. What no command touches, and the canonical form that every store keeps: `Keeps s t` says that the build and the queue are
the same in `t` as in `s` and that both memories keep their canonical form. The lemmas are stated backwards, so that they chain
over the operations that a meaning composes.
-/
namespace Sys2Proof.Laws
open Sys2Proof.Machine

/-- From `s` to `t`: the build and the queue stay, the memories keep their canonical form. -/
structure Keeps (s t : State) : Prop where
  build : t.build = s.build
  pending : t.pending = s.pending
  mem : Memory.wf s.mem → Memory.wf t.mem
  hostOut : Memory.wf s.hostOut → Memory.wf t.hostOut

/-- The outcome goes on, to a state that keeps what `Keeps` says. -/
def KeepsOn (s : State) (o : Host.Outcome State Fault Refusal) : Prop := ∃ t, o = .next t ∧ Keeps s t

theorem keeps_refl (s : State) : Keeps s s := ⟨rfl, rfl, id, id⟩

theorem keepsOn_next {s t : State} (h : Keeps s t) : KeepsOn s (.next t) := ⟨t, rfl, h⟩

/-- An update of other fields. -/
theorem keeps_upd {s x t : State} (h : Keeps s x) (hb : t.build = x.build) (hp : t.pending = x.pending) (hm : t.mem = x.mem)
    (ho : t.hostOut = x.hostOut) : Keeps s t :=
  ⟨hb.trans h.build, hp.trans h.pending, fun w => hm ▸ h.mem w, fun w => ho ▸ h.hostOut w⟩

/-- A store to memory beside an update of other fields. -/
theorem keeps_store {s x t : State} (h : Keeps s x) (hb : t.build = x.build) (hp : t.pending = x.pending)
    (hm : Memory.wf x.mem → Memory.wf t.mem) (ho : t.hostOut = x.hostOut) : Keeps s t :=
  ⟨hb.trans h.build, hp.trans h.pending, fun w => hm (h.mem w), fun w => ho ▸ h.hostOut w⟩

/-- A store to the host beside an update of other fields. -/
theorem keeps_hostStore {s x t : State} (h : Keeps s x) (hb : t.build = x.build) (hp : t.pending = x.pending) (hm : t.mem = x.mem)
    (ho : Memory.wf x.hostOut → Memory.wf t.hostOut) : Keeps s t :=
  ⟨hb.trans h.build, hp.trans h.pending, fun w => hm ▸ h.mem w, fun w => ho (h.hostOut w)⟩

theorem keeps_ite {s a b : State} {c : Prop} [Decidable c] (ha : Keeps s a) (hb : Keeps s b) : Keeps s (if c then a else b) := by
  split <;> assumption

theorem keeps_id {s a : State} (h : Keeps s a) : Keeps s (id a) := h

theorem keeps_cond {s a b : State} {c : Bool} (ha : Keeps s a) (hb : Keeps s b) : Keeps s (bif c then a else b) := by
  cases c <;> assumption

theorem keeps_forN {s a : State} (n : Nat) {f : Nat → State → State} (h : Keeps s a)
    (hf : ∀ i x, Keeps s x → Keeps s (f i x)) : Keeps s (forN n f a) :=
  forN_keeps n f hf h

theorem keeps_foldl {β : Type} {s a : State} {l : List β} {f : State → β → State} (h : Keeps s a)
    (hf : ∀ x b, Keeps s x → Keeps s (f x b)) : Keeps s (l.foldl f a) :=
  foldl_keeps l f hf h

/-- A fold that can stop without an answer. -/
theorem keeps_foldlBind {β : Type} {s0 t : State} {l : List β} {g : State → β → Option State} {o : Option State}
    (hg : ∀ x b u, Keeps s0 x → g x b = some u → Keeps s0 u) (ho : ∀ v, o = some v → Keeps s0 v)
    (e : l.foldl (fun o b => o.bind (fun s => g s b)) o = some t) : Keeps s0 t := by
  induction l generalizing o with
  | nil => exact ho t e
  | cons b l ih =>
    refine ih ?_ e
    intro v hv
    obtain ⟨w, hw, hv⟩ := Option.bind_eq_some_iff.mp hv
    exact hg w b v (ho w hw) hv

/-- A record with other fields. -/
theorem keeps_mk {s x : State} {glb : Glb} {dies : Tbl Die} {tb : Tb} {clk : Clk} {pmu : Pmu} {aon : Aon} {rings : Tbl Ring} {gcp : Gcp} {cmds : List
    Cmd} {tenants : Tbl (Option Tenant)} {images : Tbl (Option Image)} {streams : Tbl (Option Stream)} {jobs : Tbl (Option
    Job)} {cores : Tbl Core} {sch : Sch} {epochs : Tbl Epoch} {rules : Tbl Rule} {pools : Tbl (Option Pool)}
    {kvShares : List (Nat × Pool)} {key : Key}
    {memc : Memc} {aud : Aud} {caps : Tbl (Option Capture)} {cam : Cam} {itk : Itk} {slk : Slk} {obs : Obs} {irq : Irq}
    {rdata : W64} {reply : List Byte} {fresh : Nat}
    (h : Keeps s x) : Keeps s (State.mk x.build glb dies tb clk pmu aon rings gcp cmds tenants images streams jobs cores sch epochs rules
      pools kvShares key memc aud
      caps cam itk slk obs irq x.mem x.hostOut rdata reply fresh x.pending) :=
  keeps_upd h rfl rfl rfl rfl

/-- A record with a store to memory. -/
theorem keeps_mkMem {s x : State} {glb : Glb} {dies : Tbl Die} {tb : Tb} {clk : Clk} {pmu : Pmu} {aon : Aon} {rings : Tbl Ring} {gcp : Gcp}
  {cmds : List
    Cmd} {tenants : Tbl (Option Tenant)} {images : Tbl (Option Image)} {streams : Tbl (Option Stream)} {jobs : Tbl (Option
    Job)} {cores : Tbl Core} {sch : Sch} {epochs : Tbl Epoch} {rules : Tbl Rule} {pools : Tbl (Option Pool)}
    {kvShares : List (Nat × Pool)} {key : Key}
    {memc : Memc} {aud : Aud} {caps : Tbl (Option Capture)} {cam : Cam} {itk : Itk} {slk : Slk} {obs : Obs} {irq : Irq} {mem
    : List Host.Cell} {rdata : W64} {reply : List Byte} {fresh : Nat}
    (h : Keeps s x) (hm : Memory.wf x.mem → Memory.wf mem) : Keeps s (State.mk x.build glb dies tb clk pmu aon rings gcp cmds tenants images
      streams jobs cores sch epochs rules pools kvShares key memc aud
      caps cam itk slk obs irq mem x.hostOut rdata reply fresh x.pending) :=
  keeps_store h rfl rfl hm rfl

/-- A record with a store to the host. -/
theorem keeps_mkHost {s x : State} {glb : Glb} {dies : Tbl Die} {tb : Tb} {clk : Clk} {pmu : Pmu} {aon : Aon} {rings : Tbl Ring} {gcp : Gcp}
  {cmds : List
    Cmd} {tenants : Tbl (Option Tenant)} {images : Tbl (Option Image)} {streams : Tbl (Option Stream)} {jobs : Tbl (Option
    Job)} {cores : Tbl Core} {sch : Sch} {epochs : Tbl Epoch} {rules : Tbl Rule} {pools : Tbl (Option Pool)}
    {kvShares : List (Nat × Pool)} {key : Key}
    {memc : Memc} {aud : Aud} {caps : Tbl (Option Capture)} {cam : Cam} {itk : Itk} {slk : Slk} {obs : Obs} {irq : Irq}
    {hostOut : List Host.Cell} {rdata : W64} {reply : List Byte} {fresh : Nat}
    (h : Keeps s x) (ho : Memory.wf x.hostOut → Memory.wf hostOut) : Keeps s (State.mk x.build glb dies tb clk pmu aon rings gcp cmds tenants
      images streams jobs cores sch epochs rules pools kvShares key memc aud
      caps cam itk slk obs irq x.mem hostOut rdata reply fresh x.pending) :=
  keeps_hostStore h rfl rfl rfl ho

/-- The memories of the dies cleared keep the canonical form. -/
theorem dies_wf {m : List Host.Cell} (h : Memory.wf m) :
    Memory.wf (forN 4 (fun d m => mzero m (dmBase d) (dmBase d + 0x1000000)) m) :=
  forN_keeps (P := fun m => Memory.wf m) 4 _ (fun _ _ w => mzero_wf _ _ w) h

theorem ite_wf {a b : List Host.Cell} {c : Prop} [Decidable c] (ha : Memory.wf a) (hb : Memory.wf b) :
    Memory.wf (if c then a else b) := by
  split <;> assumption

end Sys2Proof.Laws
end

