-- ==== Sys2Proof/Laws/KeepsOps.lean ====
section
/-!
SUPPORT. For each operation of these files: it keeps what `Keeps` says.
-/
namespace Sys2Proof.Laws
open Sys2Proof.Machine

theorem keeps_State_msix {s0 : State} {v : Nat} {s : State}
    (h : Keeps s0 s) :
    Keeps s0 (State.msix v s) := by
  unfold State.msix
  try dsimp only
  repeat' first
    | with_reducible assumption
    | intro _
    | with_reducible apply keeps_ite
    | with_reducible apply keeps_foldl
    | with_reducible apply keeps_forN
    | fail_if_no_progress with_reducible apply keeps_mk

theorem keeps_State_rise {s0 : State} {s : State} {s' : State}
    (h : Keeps s0 s') (hs : Keeps s0 s) :
    Keeps s0 (State.rise s s') := by
  unfold State.rise
  try dsimp only
  repeat' first
    | with_reducible assumption
    | intro _
    | with_reducible apply keeps_State_msix
    | with_reducible apply keeps_ite

theorem keeps_State_errGlb {s0 : State} {i : Nat} {s : State}
    (h : Keeps s0 s) :
    Keeps s0 (State.errGlb i s) := by
  unfold State.errGlb
  try dsimp only
  repeat' first
    | with_reducible assumption
    | intro _
    | with_reducible apply keeps_State_rise
    | with_reducible apply keeps_ite
    | with_reducible apply keeps_foldl
    | with_reducible apply keeps_forN
    | fail_if_no_progress with_reducible apply keeps_mk

theorem keeps_State_errClk {s0 : State} {i : Nat} {s : State}
    (h : Keeps s0 s) :
    Keeps s0 (State.errClk i s) := by
  unfold State.errClk
  try dsimp only
  repeat' first
    | with_reducible assumption
    | intro _
    | with_reducible apply keeps_State_rise
    | with_reducible apply keeps_ite
    | with_reducible apply keeps_foldl
    | with_reducible apply keeps_forN
    | fail_if_no_progress with_reducible apply keeps_mk

theorem keeps_State_errTb {s0 : State} {i : Nat} {s : State}
    (h : Keeps s0 s) :
    Keeps s0 (State.errTb i s) := by
  unfold State.errTb
  try dsimp only
  repeat' first
    | with_reducible assumption
    | intro _
    | with_reducible apply keeps_State_rise
    | with_reducible apply keeps_ite
    | with_reducible apply keeps_foldl
    | with_reducible apply keeps_forN
    | fail_if_no_progress with_reducible apply keeps_mk

theorem keeps_State_errPmu {s0 : State} {i : Nat} {s : State}
    (h : Keeps s0 s) :
    Keeps s0 (State.errPmu i s) := by
  unfold State.errPmu
  try dsimp only
  repeat' first
    | with_reducible assumption
    | intro _
    | with_reducible apply keeps_State_rise
    | with_reducible apply keeps_ite
    | with_reducible apply keeps_foldl
    | with_reducible apply keeps_forN
    | fail_if_no_progress with_reducible apply keeps_mk

theorem keeps_State_errAon {s0 : State} {i : Nat} {s : State}
    (h : Keeps s0 s) :
    Keeps s0 (State.errAon i s) := by
  unfold State.errAon
  try dsimp only
  repeat' first
    | with_reducible assumption
    | intro _
    | with_reducible apply keeps_State_rise
    | with_reducible apply keeps_ite
    | with_reducible apply keeps_foldl
    | with_reducible apply keeps_forN
    | fail_if_no_progress with_reducible apply keeps_mk

theorem keeps_State_errRing {s0 : State} {n : Nat} {i : Nat} {s : State}
    (h : Keeps s0 s) :
    Keeps s0 (State.errRing n i s) := by
  unfold State.errRing
  try dsimp only
  repeat' first
    | with_reducible assumption
    | intro _
    | with_reducible apply keeps_State_rise
    | with_reducible apply keeps_ite
    | with_reducible apply keeps_foldl
    | with_reducible apply keeps_forN
    | fail_if_no_progress with_reducible apply keeps_mk

theorem keeps_State_errSch {s0 : State} {i : Nat} {s : State}
    (h : Keeps s0 s) :
    Keeps s0 (State.errSch i s) := by
  unfold State.errSch
  try dsimp only
  repeat' first
    | with_reducible assumption
    | intro _
    | with_reducible apply keeps_State_rise
    | with_reducible apply keeps_ite
    | with_reducible apply keeps_foldl
    | with_reducible apply keeps_forN
    | fail_if_no_progress with_reducible apply keeps_mk

theorem keeps_State_errSync {s0 : State} {i : Nat} {s : State}
    (h : Keeps s0 s) :
    Keeps s0 (State.errSync i s) := by
  unfold State.errSync
  try dsimp only
  repeat' first
    | with_reducible assumption
    | intro _
    | with_reducible apply keeps_State_rise
    | with_reducible apply keeps_ite
    | with_reducible apply keeps_foldl
    | with_reducible apply keeps_forN
    | fail_if_no_progress with_reducible apply keeps_mk

theorem keeps_State_errSpec {s0 : State} {i : Nat} {s : State}
    (h : Keeps s0 s) :
    Keeps s0 (State.errSpec i s) := by
  unfold State.errSpec
  try dsimp only
  repeat' first
    | with_reducible assumption
    | intro _
    | with_reducible apply keeps_State_rise
    | with_reducible apply keeps_ite
    | with_reducible apply keeps_foldl
    | with_reducible apply keeps_forN
    | fail_if_no_progress with_reducible apply keeps_mk

theorem keeps_State_errCore {s0 : State} {c : Nat} {s : State}
    (h : Keeps s0 s) :
    Keeps s0 (State.errCore c s) := by
  unfold State.errCore
  try dsimp only
  repeat' first
    | with_reducible assumption
    | intro _
    | with_reducible apply keeps_State_rise
    | with_reducible apply keeps_ite
    | with_reducible apply keeps_foldl
    | with_reducible apply keeps_forN
    | fail_if_no_progress with_reducible apply keeps_mk

theorem keeps_State_errQuant {s0 : State} {c : Nat} {s : State}
    (h : Keeps s0 s) :
    Keeps s0 (State.errQuant c s) := by
  unfold State.errQuant
  try dsimp only
  repeat' first
    | with_reducible assumption
    | intro _
    | with_reducible apply keeps_State_rise
    | with_reducible apply keeps_ite
    | with_reducible apply keeps_foldl
    | with_reducible apply keeps_forN
    | fail_if_no_progress with_reducible apply keeps_mk

theorem keeps_State_errAud {s0 : State} {i : Nat} {s : State}
    (h : Keeps s0 s) :
    Keeps s0 (State.errAud i s) := by
  unfold State.errAud
  try dsimp only
  repeat' first
    | with_reducible assumption
    | intro _
    | with_reducible apply keeps_State_rise
    | with_reducible apply keeps_ite
    | with_reducible apply keeps_foldl
    | with_reducible apply keeps_forN
    | fail_if_no_progress with_reducible apply keeps_mk

theorem keeps_State_errCam {s0 : State} {i : Nat} {s : State}
    (h : Keeps s0 s) :
    Keeps s0 (State.errCam i s) := by
  unfold State.errCam
  try dsimp only
  repeat' first
    | with_reducible assumption
    | intro _
    | with_reducible apply keeps_State_rise
    | with_reducible apply keeps_ite
    | with_reducible apply keeps_foldl
    | with_reducible apply keeps_forN
    | fail_if_no_progress with_reducible apply keeps_mk

theorem keeps_State_errItk {s0 : State} {s : State}
    (h : Keeps s0 s) :
    Keeps s0 (State.errItk s) := by
  unfold State.errItk
  try dsimp only
  repeat' first
    | with_reducible assumption
    | intro _
    | with_reducible apply keeps_State_rise
    | with_reducible apply keeps_ite
    | with_reducible apply keeps_foldl
    | with_reducible apply keeps_forN
    | fail_if_no_progress with_reducible apply keeps_mk

theorem keeps_State_errMem {s0 : State} {i : Nat} {a : Nat} {s : State}
    (h : Keeps s0 s) :
    Keeps s0 (State.errMem i a s) := by
  unfold State.errMem
  try dsimp only
  repeat' first
    | with_reducible assumption
    | intro _
    | with_reducible apply keeps_State_rise
    | with_reducible apply keeps_ite
    | with_reducible apply keeps_foldl
    | with_reducible apply keeps_forN
    | fail_if_no_progress with_reducible apply keeps_mk

theorem keeps_State_errKey {s0 : State} {i : Nat} {s : State}
    (h : Keeps s0 s) :
    Keeps s0 (State.errKey i s) := by
  unfold State.errKey
  try dsimp only
  repeat' first
    | with_reducible assumption
    | intro _
    | with_reducible apply keeps_State_rise
    | with_reducible apply keeps_ite
    | with_reducible apply keeps_foldl
    | with_reducible apply keeps_forN
    | fail_if_no_progress with_reducible apply keeps_mk

theorem keeps_State_errSlk {s0 : State} {n : Nat} {i : Nat} {s : State}
    (h : Keeps s0 s) :
    Keeps s0 (State.errSlk n i s) := by
  unfold State.errSlk
  try dsimp only
  repeat' first
    | with_reducible assumption
    | intro _
    | with_reducible apply keeps_State_rise
    | with_reducible apply keeps_ite
    | with_reducible apply keeps_foldl
    | with_reducible apply keeps_forN
    | fail_if_no_progress with_reducible apply keeps_mk

theorem keeps_State_errObs {s0 : State} {i : Nat} {s : State}
    (h : Keeps s0 s) :
    Keeps s0 (State.errObs i s) := by
  unfold State.errObs
  try dsimp only
  repeat' first
    | with_reducible assumption
    | intro _
    | with_reducible apply keeps_State_rise
    | with_reducible apply keeps_ite
    | with_reducible apply keeps_foldl
    | with_reducible apply keeps_forN
    | fail_if_no_progress with_reducible apply keeps_mk

theorem keeps_State_tie {s0 : State} {s : State}
    (h : Keeps s0 s) :
    Keeps s0 (State.tie s) := by
  unfold State.tie
  try dsimp only
  repeat' first
    | with_reducible assumption
    | intro _
    | with_reducible apply keeps_ite
    | with_reducible apply keeps_foldl
    | with_reducible apply keeps_forN
    | fail_if_no_progress with_reducible apply keeps_mk

theorem keeps_State_poke {s0 : State} {a : Nat} {bs : List Byte} {s : State}
    (h : Keeps s0 s) :
    Keeps s0 (State.poke a bs s) := by
  unfold State.poke
  try dsimp only
  repeat' first
    | with_reducible assumption
    | intro _
    | with_reducible refine keeps_mkMem ?_ (mwrite_wf _ _)

theorem keeps_State_modDie {s0 : State} {d : Nat} {f : Die → Die} {s : State}
    (h : Keeps s0 s) :
    Keeps s0 (State.modDie d f s) := by
  unfold State.modDie
  try dsimp only
  repeat' first
    | with_reducible assumption
    | intro _
    | with_reducible apply keeps_ite
    | with_reducible apply keeps_foldl
    | with_reducible apply keeps_forN
    | fail_if_no_progress with_reducible apply keeps_mk

theorem keeps_State_modCore {s0 : State} {c : Nat} {f : Core → Core} {s : State}
    (h : Keeps s0 s) :
    Keeps s0 (State.modCore c f s) := by
  unfold State.modCore
  try dsimp only
  repeat' first
    | with_reducible assumption
    | intro _
    | with_reducible apply keeps_ite
    | with_reducible apply keeps_foldl
    | with_reducible apply keeps_forN
    | fail_if_no_progress with_reducible apply keeps_mk

theorem keeps_State_modRing {s0 : State} {n : Nat} {f : Ring → Ring} {s : State}
    (h : Keeps s0 s) :
    Keeps s0 (State.modRing n f s) := by
  unfold State.modRing
  try dsimp only
  repeat' first
    | with_reducible assumption
    | intro _
    | with_reducible apply keeps_ite
    | with_reducible apply keeps_foldl
    | with_reducible apply keeps_forN
    | fail_if_no_progress with_reducible apply keeps_mk

theorem keeps_State_modStream {s0 : State} {h0 : Nat} {f : Stream → Stream} {s : State}
    (h : Keeps s0 s) :
    Keeps s0 (State.modStream h0 f s) := by
  unfold State.modStream
  try dsimp only
  repeat' first
    | with_reducible assumption
    | intro _
    | with_reducible apply keeps_ite
    | with_reducible apply keeps_foldl
    | with_reducible apply keeps_forN
    | fail_if_no_progress with_reducible apply keeps_mk

theorem keeps_State_modJob {s0 : State} {j : Nat} {f : Job → Job} {s : State}
    (h : Keeps s0 s) :
    Keeps s0 (State.modJob j f s) := by
  unfold State.modJob
  try dsimp only
  repeat' first
    | with_reducible assumption
    | intro _
    | with_reducible apply keeps_ite
    | with_reducible apply keeps_foldl
    | with_reducible apply keeps_forN
    | fail_if_no_progress with_reducible apply keeps_mk

theorem keeps_State_modEpoch {s0 : State} {e : Nat} {f : Epoch → Epoch} {s : State}
    (h : Keeps s0 s) :
    Keeps s0 (State.modEpoch e f s) := by
  unfold State.modEpoch
  try dsimp only
  repeat' first
    | with_reducible assumption
    | intro _
    | with_reducible apply keeps_ite
    | with_reducible apply keeps_foldl
    | with_reducible apply keeps_forN
    | fail_if_no_progress with_reducible apply keeps_mk

theorem keeps_State_modRule {s0 : State} {r : Nat} {f : Rule → Rule} {s : State}
    (h : Keeps s0 s) :
    Keeps s0 (State.modRule r f s) := by
  unfold State.modRule
  try dsimp only
  repeat' first
    | with_reducible assumption
    | intro _
    | with_reducible apply keeps_ite
    | with_reducible apply keeps_foldl
    | with_reducible apply keeps_forN
    | fail_if_no_progress with_reducible apply keeps_mk

theorem keeps_State_modCap {s0 : State} {k : Nat} {f : Capture → Capture} {s : State}
    (h : Keeps s0 s) :
    Keeps s0 (State.modCap k f s) := by
  unfold State.modCap
  try dsimp only
  repeat' first
    | with_reducible assumption
    | intro _
    | with_reducible apply keeps_ite
    | with_reducible apply keeps_foldl
    | with_reducible apply keeps_forN
    | fail_if_no_progress with_reducible apply keeps_mk

theorem keeps_State_modSlot {s0 : State} {i : Nat} {f : KeySlot → KeySlot} {s : State}
    (h : Keeps s0 s) :
    Keeps s0 (State.modSlot i f s) := by
  unfold State.modSlot
  try dsimp only
  repeat' first
    | with_reducible assumption
    | intro _
    | with_reducible apply keeps_ite
    | with_reducible apply keeps_foldl
    | with_reducible apply keeps_forN
    | fail_if_no_progress with_reducible apply keeps_mk

theorem keeps_State_modPort {s0 : State} {n : Nat} {f : AudPort → AudPort} {s : State}
    (h : Keeps s0 s) :
    Keeps s0 (State.modPort n f s) := by
  unfold State.modPort
  try dsimp only
  repeat' first
    | with_reducible assumption
    | intro _
    | with_reducible apply keeps_ite
    | with_reducible apply keeps_foldl
    | with_reducible apply keeps_forN
    | fail_if_no_progress with_reducible apply keeps_mk

theorem keeps_State_modSlp {s0 : State} {n : Nat} {f : SlkPort → SlkPort} {s : State}
    (h : Keeps s0 s) :
    Keeps s0 (State.modSlp n f s) := by
  unfold State.modSlp
  try dsimp only
  repeat' first
    | with_reducible assumption
    | intro _
    | with_reducible apply keeps_ite
    | with_reducible apply keeps_foldl
    | with_reducible apply keeps_forN
    | fail_if_no_progress with_reducible apply keeps_mk

theorem keeps_State_modCmd {s0 : State} {id : Nat} {f : Cmd → Cmd} {s : State}
    (h : Keeps s0 s) :
    Keeps s0 (State.modCmd id f s) := by
  unfold State.modCmd
  try dsimp only
  repeat' first
    | with_reducible assumption
    | intro _
    | with_reducible apply keeps_ite
    | with_reducible apply keeps_foldl
    | with_reducible apply keeps_forN
    | fail_if_no_progress with_reducible apply keeps_mk

theorem keeps_State_draw {s0 : State} {s : State}
    (h : Keeps s0 s) :
    Keeps s0 (State.draw s).2 := by
  unfold State.draw
  try dsimp only
  repeat' first
    | with_reducible assumption
    | intro _
    | with_reducible apply keeps_ite
    | with_reducible apply keeps_foldl
    | with_reducible apply keeps_forN
    | fail_if_no_progress with_reducible apply keeps_mk

theorem keeps_State_draw_eq {s0 : State} {s : State} {a0} {t0}
    (h : Keeps s0 s) (e0 : State.draw s = (a0, t0)) : Keeps s0 t0 := by
  have k := keeps_State_draw (s := s) h
  rw [e0] at k
  exact k

theorem keeps_State_arm {s0 : State} {tb : Timebase} {v : Nat} {o : Owner} {s : State}
    (h : Keeps s0 s) :
    Keeps s0 (State.arm tb v o s) := by
  unfold State.arm
  try dsimp only
  repeat' first
    | with_reducible assumption
    | intro _
    | with_reducible apply keeps_ite
    | with_reducible apply keeps_foldl
    | with_reducible apply keeps_forN
    | fail_if_no_progress with_reducible apply keeps_mk

theorem keeps_State_disarm {s0 : State} {o : Owner} {s : State}
    (h : Keeps s0 s) :
    Keeps s0 (State.disarm o s) := by
  unfold State.disarm
  try dsimp only
  repeat' first
    | with_reducible assumption
    | intro _
    | with_reducible apply keeps_ite
    | with_reducible apply keeps_foldl
    | with_reducible apply keeps_forN
    | fail_if_no_progress with_reducible apply keeps_mk

theorem keeps_State_mark {s0 : State} {tb : Timebase} {exact : Bool} {jumped : Bool} {s : State}
    (h : Keeps s0 s) :
    Keeps s0 (State.mark tb exact jumped s) := by
  unfold State.mark
  try dsimp only
  repeat' first
    | with_reducible assumption
    | intro _
    | with_reducible apply keeps_ite
    | with_reducible apply keeps_foldl
    | with_reducible apply keeps_forN
    | fail_if_no_progress with_reducible apply keeps_mk

theorem keeps_State_sfcJump {s0 : State} {v : Sfc} {s : State}
    (h : Keeps s0 s) :
    Keeps s0 (State.sfcJump v s) := by
  unfold State.sfcJump
  try dsimp only
  repeat' first
    | with_reducible assumption
    | intro _
    | with_reducible apply keeps_State_errTb
    | with_reducible apply keeps_State_modDie
    | with_reducible apply keeps_State_mark
    | with_reducible apply keeps_ite
    | with_reducible apply keeps_foldl
    | with_reducible apply keeps_forN
    | fail_if_no_progress with_reducible apply keeps_mk

theorem keeps_State_wakeFire {s0 : State} {i : Nat} {s : State}
    (h : Keeps s0 s) :
    Keeps s0 (State.wakeFire i s) := by
  unfold State.wakeFire
  try dsimp only
  repeat' first
    | with_reducible assumption
    | intro _
    | with_reducible apply keeps_ite
    | fail_if_no_progress with_reducible apply keeps_mk
    | split

theorem keeps_State_sendOn {s0 : State} {k : Nat} {p : Nat} {f : LinkFrame} {s : State}
    (h : Keeps s0 s) :
    Keeps s0 (State.sendOn k p f s) := by
  unfold State.sendOn
  try dsimp only
  repeat' first
    | with_reducible assumption
    | intro _
    | with_reducible apply keeps_State_modSlp
    | with_reducible apply keeps_ite
    | fail_if_no_progress with_reducible apply keeps_mk
    | split

theorem keeps_State_sendTo {s0 : State} {dst : Nat} {ty : Nat} {tenant : Nat} {conf : Bool} {payload : List Byte} {s : State}
    (h : Keeps s0 s) :
    ∀ t0, State.sendTo dst ty tenant conf payload s = some t0 → Keeps s0 t0 := by
  unfold State.sendTo
  intro t0 e
  split at e
  · cases e
  · simp only [Option.bind_eq_some_iff, Option.map_eq_some_iff] at e
    obtain ⟨r, _, p, _, rfl⟩ := e
    exact keeps_State_sendOn h

theorem keeps_State_sendMsg {s0 : State} {dst ty tenant : Nat} {conf : Bool} {b0 flags : Nat} {body : List Byte} {s : State}
    (h : Keeps s0 s) : ∀ t0, State.sendMsg dst ty tenant conf b0 flags body s = some t0 → Keeps s0 t0 := by
  intro t0 e
  exact keeps_foldlBind (fun x b u hx hu => keeps_State_sendTo hx _ hu) (fun v hv => by cases hv; exact h) e

theorem keeps_State_sendStream {s0 : State} {n : BitVec 6} {tenant kind hd v : Nat} {data : List Byte} {s : State}
    (h : Keeps s0 s) : ∀ t0, State.sendStream n tenant kind hd v data s = some t0 → Keeps s0 t0 :=
  keeps_State_sendMsg h

theorem keeps_State_tellStream {s0 : State} {n : BitVec 6} {tenant kind hd v : Nat} {data : List Byte} {s : State}
    (h : Keeps s0 s) : Keeps s0 (State.tellStream n tenant kind hd v data s) := by
  unfold State.tellStream
  cases e : State.sendStream n tenant kind hd v data s with
  | none => exact h
  | some t => exact keeps_State_sendStream h _ e

theorem keeps_State_assemble {s0 : State} {f : LinkFrame} {s : State} (h : Keeps s0 s) : Keeps s0 (State.assemble f s).1 := by
  unfold State.assemble
  dsimp only
  split <;> exact keeps_upd h rfl rfl rfl rfl

theorem keeps_State_assemble_eq {s0 : State} {f : LinkFrame} {s : State} {a0} {t0} (h : Keeps s0 s)
    (e0 : State.assemble f s = (t0, a0)) : Keeps s0 t0 := by
  have k := keeps_State_assemble (f := f) (s := s) h
  rw [e0] at k
  exact k

theorem keeps_State_floodVc {s0 : State} {vc : BitVec 8} {ty : Nat} {payload : List Byte} {except_ : Option Nat} {src : Nat} {s : State}
    (h : Keeps s0 s) :
    Keeps s0 (State.floodVc vc ty payload except_ src s) := by
  unfold State.floodVc
  try dsimp only
  repeat' first
    | with_reducible assumption
    | intro _
    | with_reducible apply keeps_State_sendOn
    | with_reducible apply keeps_ite
    | with_reducible apply keeps_forN
    | fail_if_no_progress with_reducible apply keeps_mk
    | split

theorem keeps_State_flood {s0 : State} {ty : Nat} {payload : List Byte} {except_ : Option Nat} {src : Nat} {s : State}
    (h : Keeps s0 s) :
    Keeps s0 (State.flood ty payload except_ src s) := by
  unfold State.flood
  try dsimp only
  repeat' first
    | with_reducible assumption
    | intro _
    | with_reducible apply keeps_State_floodVc
    | with_reducible apply keeps_ite
    | split

theorem keeps_State_sendMarker {s0 : State} {root : Nat} {s : State}
    (h : Keeps s0 s) :
    Keeps s0 (State.sendMarker root s) := by
  unfold State.sendMarker
  try dsimp only
  repeat' first
    | with_reducible assumption
    | intro _
    | with_reducible apply keeps_ite
    | with_reducible apply keeps_foldl
    | fail_if_no_progress with_reducible apply keeps_mk
    | split

theorem keeps_State_sendFull {s0 : State} {root : Nat} {v : Sfc} {s : State}
    (h : Keeps s0 s) :
    Keeps s0 (State.sendFull root v s) := by
  unfold State.sendFull
  try dsimp only
  repeat' first
    | with_reducible assumption
    | intro _
    | with_reducible apply keeps_State_sendOn
    | with_reducible apply keeps_ite
    | with_reducible apply keeps_foldl
    | fail_if_no_progress with_reducible apply keeps_mk
    | split

theorem keeps_State_ringStore {s0 : State} {cq : Nat} {loc : Bool} {a : Nat} {bs : List Byte} {s : State}
    (h : Keeps s0 s) :
    Keeps s0 (State.ringStore cq loc a bs s) := by
  unfold State.ringStore
  try dsimp only
  repeat' first
    | with_reducible assumption
    | intro _
    | with_reducible apply keeps_State_poke
    | with_reducible apply keeps_State_errRing
    | with_reducible refine keeps_mkMem ?_ (mwrite_wf _ _)
    | with_reducible refine keeps_mkMem ?_ (mzero_wf _ _)
    | with_reducible refine keeps_mkHost ?_ (mwrite_wf _ _)
    | with_reducible apply keeps_ite

theorem keeps_State_writeEntry {s0 : State} {cq : Nat} {st : Status} {s : State}
    (h : Keeps s0 s) :
    Keeps s0 (State.writeEntry cq st s) := by
  unfold State.writeEntry
  try dsimp only
  repeat' first
    | with_reducible assumption
    | intro _
    | with_reducible apply keeps_State_msix
    | with_reducible apply keeps_State_ringStore
    | with_reducible apply keeps_State_modRing
    | with_reducible apply keeps_ite

theorem keeps_State_stallRings {s0 : State} {cq : Nat} {s : State}
    (h : Keeps s0 s) :
    Keeps s0 (State.stallRings cq s) := by
  unfold State.stallRings
  try dsimp only
  repeat' first
    | with_reducible assumption
    | intro _
    | with_reducible apply keeps_State_errRing
    | with_reducible apply keeps_ite
    | with_reducible apply keeps_foldl
    | with_reducible apply keeps_forN

theorem keeps_State_postStatus {s0 : State} {cq : Nat} {st : Status} {s : State}
    (h : Keeps s0 s) :
    Keeps s0 (State.postStatus cq st s) := by
  unfold State.postStatus
  try dsimp only
  repeat' first
    | with_reducible assumption
    | intro _
    | with_reducible apply keeps_State_stallRings
    | with_reducible apply keeps_State_writeEntry
    | with_reducible apply keeps_State_errRing
    | with_reducible apply keeps_State_modRing
    | with_reducible apply keeps_ite
    | with_reducible apply keeps_foldl
    | with_reducible apply keeps_forN
    | fail_if_no_progress with_reducible apply keeps_mk

theorem keeps_State_releaseHeld {s0 : State} {cq : Nat} {y1 : Nat} {y2 : State}
    (h : Keeps s0 y2) :
    Keeps s0 (State.releaseHeld cq y1 y2) := by
  induction y1 generalizing y2 with
  | zero => exact h
  | succ n ih =>
    unfold State.releaseHeld
    try dsimp only
    repeat' first
      | with_reducible assumption
      | intro _
      | with_reducible apply ih
      | with_reducible apply keeps_State_writeEntry
      | with_reducible apply keeps_State_modRing
      | with_reducible apply keeps_ite
      | with_reducible apply keeps_foldl
      | with_reducible apply keeps_forN
      | fail_if_no_progress with_reducible apply keeps_mk
      | split

theorem keeps_State_deliver {s0 : State} {c : Cmd} {st : Status} {s : State}
    (h : Keeps s0 s) :
    Keeps s0 (State.deliver c st s) := by
  unfold State.deliver
  try dsimp only
  repeat' first
    | with_reducible assumption
    | intro _
    | with_reducible apply keeps_State_postStatus
    | with_reducible refine keeps_State_sendTo ?_ _ (by with_reducible assumption)
    | with_reducible apply keeps_ite
    | fail_if_no_progress with_reducible apply keeps_mk
    | split

theorem keeps_State_dropCmd {s0 : State} {id : Nat} {s : State}
    (h : Keeps s0 s) :
    Keeps s0 (State.dropCmd id s) := by
  unfold State.dropCmd
  try dsimp only
  repeat' first
    | with_reducible assumption
    | intro _
    | with_reducible apply keeps_ite
    | with_reducible apply keeps_id
    | fail_if_no_progress with_reducible apply keeps_mk
    | split

theorem keeps_State_finish {s0 : State} {c : Cmd} {d : Done} {s : State}
    (h : Keeps s0 s) :
    Keeps s0 (State.finish c d s) := by
  unfold State.finish
  try dsimp only
  repeat' first
    | with_reducible assumption
    | intro _
    | with_reducible apply keeps_State_dropCmd
    | with_reducible apply keeps_State_modEpoch
    | with_reducible apply keeps_State_deliver
    | with_reducible apply keeps_ite
    | with_reducible apply keeps_foldl
    | with_reducible apply keeps_forN
    | fail_if_no_progress with_reducible apply keeps_mk
    | split

theorem keeps_State_complete {s0 : State} {c : Cmd} {oc : BitVec 3} {rs : Nat} {s : State}
    (h : Keeps s0 s) :
    Keeps s0 (State.complete c oc rs s) := by
  unfold State.complete
  try dsimp only
  repeat' first
    | with_reducible assumption
    | intro _
    | with_reducible apply keeps_State_finish

theorem keeps_State_served {s0 : State} {c : Cmd} {result : List Byte} {s : State}
    (h : Keeps s0 s) :
    Keeps s0 (State.served c result s) := by
  unfold State.served
  try dsimp only
  repeat' first
    | with_reducible assumption
    | intro _
    | with_reducible apply keeps_State_finish
    | with_reducible apply keeps_ite
    | split

theorem keeps_State_serveCtl {s0 : State} {l : List (Nat × Nat)} {s : State}
    (h : Keeps s0 s) :
    Keeps s0 (State.serveCtl l s) := by
  unfold State.serveCtl
  try dsimp only
  repeat' first
    | with_reducible assumption
    | intro _
    | with_reducible apply keeps_State_served
    | with_reducible apply keeps_ite
    | with_reducible apply keeps_foldl
    | with_reducible apply keeps_forN
    | fail_if_no_progress with_reducible apply keeps_mk
    | split

theorem keeps_State_capEnd {s0 : State} {k : Nat} {d : Cmd → Done} {s : State}
    (h : Keeps s0 s) :
    Keeps s0 (State.capEnd k d s) := by
  unfold State.capEnd
  try dsimp only
  repeat' first
    | with_reducible assumption
    | intro _
    | with_reducible apply keeps_State_finish
    | with_reducible apply keeps_State_serveCtl
    | with_reducible apply keeps_ite
    | with_reducible apply keeps_foldl
    | with_reducible apply keeps_forN
    | fail_if_no_progress with_reducible apply keeps_mk
    | split

theorem keeps_State_dropSignal {s0 : State} {reason : Nat} {s : State}
    (h : Keeps s0 s) :
    Keeps s0 (State.dropSignal reason s) := by
  unfold State.dropSignal
  try dsimp only
  repeat' first
    | with_reducible assumption
    | intro _
    | with_reducible apply keeps_State_errSync
    | with_reducible apply keeps_ite
    | with_reducible apply keeps_foldl
    | with_reducible apply keeps_forN
    | fail_if_no_progress with_reducible apply keeps_mk

theorem keeps_State_dropSignalsTo {s0 : State} {d : Nat} {s : State}
    (h : Keeps s0 s) :
    Keeps s0 (State.dropSignalsTo d s) := by
  unfold State.dropSignalsTo
  try dsimp only
  repeat' first
    | with_reducible assumption
    | intro _
    | with_reducible apply keeps_State_dropSignal
    | with_reducible apply keeps_ite
    | with_reducible apply keeps_foldl
    | fail_if_no_progress with_reducible apply keeps_mk
    | split

theorem keeps_State_tellQuiet {s0 : State} {s : State}
    (h : Keeps s0 s) :
    Keeps s0 (State.tellQuiet s) := by
  unfold State.tellQuiet
  try dsimp only
  repeat' first
    | with_reducible assumption
    | intro _
    | with_reducible apply keeps_State_flood
    | with_reducible apply keeps_ite
    | fail_if_no_progress with_reducible apply keeps_mk
    | split

theorem keeps_State_quietAnew {s0 : State} {s : State}
    (h : Keeps s0 s) :
    Keeps s0 (State.quietAnew s) := by
  unfold State.quietAnew
  try dsimp only
  repeat' first
    | with_reducible assumption
    | intro _
    | with_reducible apply keeps_ite
    | fail_if_no_progress with_reducible apply keeps_mk
    | split

theorem keeps_State_offAccess {s0 : State} {sd : Side} {a : Nat} {s : State}
    (h : Keeps s0 s) :
    Keeps s0 (State.offAccess sd a s) := by
  unfold State.offAccess
  try dsimp only
  repeat' first
    | with_reducible assumption
    | intro _
    | with_reducible apply keeps_State_rise
    | with_reducible apply keeps_ite
    | with_reducible apply keeps_foldl
    | with_reducible apply keeps_forN
    | fail_if_no_progress with_reducible apply keeps_mk

theorem keeps_State_latchFrom {s0 : State} {s : State} {pre : State} {regs : List Nat}
    (h : Keeps s0 pre) (hs : Keeps s0 s) :
    Keeps s0 (State.latchFrom s pre regs) := by
  unfold State.latchFrom
  try dsimp only
  repeat' first
    | with_reducible assumption
    | intro _
    | with_reducible apply keeps_ite
    | with_reducible apply keeps_foldl
    | with_reducible apply keeps_forN
    | fail_if_no_progress with_reducible apply keeps_mk

theorem keeps_State_latchZero {s0 : State} {regs : List Nat} {s : State}
    (h : Keeps s0 s) :
    Keeps s0 (State.latchZero regs s) := by
  unfold State.latchZero
  try dsimp only
  repeat' first
    | with_reducible assumption
    | intro _
    | with_reducible apply keeps_ite
    | with_reducible apply keeps_foldl
    | with_reducible apply keeps_forN
    | fail_if_no_progress with_reducible apply keeps_mk

theorem keeps_State_latchDies {s0 : State} {s : State} {pre : State} {onCompare : Bool}
    (h : Keeps s0 pre) (hs : Keeps s0 s) :
    Keeps s0 (State.latchDies s pre onCompare) := by
  unfold State.latchDies
  try dsimp only
  repeat' first
    | with_reducible assumption
    | intro _
    | with_reducible apply keeps_State_latchZero
    | with_reducible apply keeps_State_latchFrom
    | with_reducible apply keeps_ite
    | with_reducible apply keeps_foldl
    | with_reducible apply keeps_forN
    | fail_if_no_progress with_reducible apply keeps_mk

theorem keeps_State_failSnaps {s0 : State} {s : State}
    (h : Keeps s0 s) :
    Keeps s0 (State.failSnaps s) := by
  unfold State.failSnaps
  try dsimp only
  repeat' first
    | with_reducible assumption
    | intro _
    | with_reducible apply keeps_State_complete
    | with_reducible apply keeps_ite
    | with_reducible apply keeps_foldl
    | with_reducible apply keeps_forN
    | fail_if_no_progress with_reducible apply keeps_mk
    | split

theorem keeps_State_latch {s0 : State} {s : State} {pre : State} {q : Quill}
    (h : Keeps s0 pre) (hs : Keeps s0 s) :
    Keeps s0 (State.latch s pre q) := by
  unfold State.latch
  try dsimp only
  repeat' first
    | with_reducible assumption
    | intro _
    | with_reducible apply keeps_State_latchDies
    | with_reducible apply keeps_State_errObs
    | with_reducible apply keeps_State_latchFrom
    | with_reducible apply keeps_ite
    | with_reducible apply keeps_foldl
    | with_reducible apply keeps_forN
    | fail_if_no_progress with_reducible apply keeps_mk

theorem keeps_State_quill {s0 : State} {s : State} {pre : State} {q : Quill}
    (h : Keeps s0 pre) (hs : Keeps s0 s) :
    Keeps s0 (State.quill s pre q) := by
  unfold State.quill
  try dsimp only
  repeat' first
    | with_reducible assumption
    | intro _
    | with_reducible apply keeps_State_latch
    | with_reducible apply keeps_State_failSnaps
    | with_reducible apply keeps_State_errObs
    | with_reducible apply keeps_ite
    | with_reducible apply keeps_foldl
    | with_reducible apply keeps_forN
    | fail_if_no_progress with_reducible apply keeps_mk

theorem keeps_State_quillUp {s0 : State} {source : Nat} {tag : W16} {rack : Bool} {s : State}
    (h : Keeps s0 s) :
    Keeps s0 (State.quillUp source tag rack s) := by
  unfold State.quillUp
  try dsimp only
  repeat' first
    | with_reducible assumption
    | intro _
    | with_reducible apply keeps_ite
    | with_reducible apply keeps_foldl
    | with_reducible apply keeps_forN
    | fail_if_no_progress with_reducible apply keeps_mk

theorem keeps_State_floodQuill {s0 : State} {tag : W16} {v : Nat} {s : State}
    (h : Keeps s0 s) :
    Keeps s0 (State.floodQuill tag v s) := by
  unfold State.floodQuill
  try dsimp only
  repeat' first
    | with_reducible assumption
    | intro _
    | with_reducible apply keeps_State_flood
    | with_reducible apply keeps_ite
    | with_reducible apply keeps_foldl
    | with_reducible apply keeps_forN
    | fail_if_no_progress with_reducible apply keeps_mk

theorem keeps_State_trigger {s0 : State} {s : State} {pre : State} {source : Nat} {tag : W16} {rack : Bool}
    (h : Keeps s0 pre) (hs : Keeps s0 s) :
    Keeps s0 (State.trigger s pre source tag rack) := by
  unfold State.trigger
  try dsimp only
  repeat' first
    | with_reducible assumption
    | intro _
    | with_reducible apply keeps_State_quill
    | with_reducible apply keeps_State_floodQuill
    | with_reducible apply keeps_State_arm
    | with_reducible apply keeps_ite

theorem keeps_State_faultTrig {s0 : State} {s : State} {pre : State} {i : Nat}
    (h : Keeps s0 pre) (hs : Keeps s0 s) :
    Keeps s0 (State.faultTrig s pre i) := by
  unfold State.faultTrig
  try dsimp only
  repeat' first
    | with_reducible assumption
    | intro _
    | with_reducible apply keeps_State_trigger
    | with_reducible apply keeps_ite

theorem keeps_State_stallFail {s0 : State} {a : Stalled} {s : State}
    (h : Keeps s0 s) :
    Keeps s0 (State.stallFail a s) := by
  unfold State.stallFail
  try dsimp only
  repeat' first
    | with_reducible assumption
    | intro _
    | with_reducible apply keeps_State_offAccess
    | with_reducible apply keeps_ite
    | fail_if_no_progress with_reducible apply keeps_mk
    | split

theorem keeps_State_stallsFail {s0 : State} {d : Nat} {s : State}
    (h : Keeps s0 s) :
    Keeps s0 (State.stallsFail d s) := by
  unfold State.stallsFail
  try dsimp only
  repeat' first
    | with_reducible assumption
    | intro _
    | with_reducible apply keeps_State_stallFail
    | with_reducible apply keeps_ite
    | with_reducible apply keeps_foldl
    | fail_if_no_progress with_reducible apply keeps_mk
    | split

theorem keeps_State_bridgeTo {s0 : State} {d : Nat} {b : Bridge} {s : State}
    (h : Keeps s0 s) :
    Keeps s0 (State.bridgeTo d b s) := by
  unfold State.bridgeTo
  try dsimp only
  repeat' first
    | with_reducible assumption
    | intro _
    | with_reducible apply keeps_State_modDie
    | with_reducible apply keeps_State_dropSignalsTo
    | with_reducible apply keeps_State_stallsFail
    | with_reducible apply keeps_ite
    | fail_if_no_progress with_reducible apply keeps_mk
    | split

theorem keeps_State_dieOn {s0 : State} {d : Nat} {s : State}
    (h : Keeps s0 s) :
    Keeps s0 (State.dieOn d s) := by
  unfold State.dieOn
  try dsimp only
  repeat' first
    | with_reducible assumption
    | intro _
    | with_reducible apply keeps_State_bridgeTo
    | with_reducible apply keeps_State_modDie
    | with_reducible apply keeps_ite
    | fail_if_no_progress with_reducible apply keeps_mk
    | split

theorem keeps_State_autowake {s0 : State} {b : WakeBlock} {s : State}
    (h : Keeps s0 s) :
    Keeps s0 (State.autowake b s) := by
  unfold State.autowake
  try dsimp only
  repeat' first
    | with_reducible assumption
    | intro _
    | with_reducible apply keeps_State_dieOn
    | with_reducible apply keeps_State_modDie
    | with_reducible apply keeps_ite
    | fail_if_no_progress with_reducible apply keeps_mk
    | split

theorem keeps_State_stall {s0 : State} {sd : Side} {a : Nat} {w : Option W32} {b : WakeBlock} {s : State}
    (h : Keeps s0 s) :
    Keeps s0 (State.stall sd a w b s) := by
  unfold State.stall
  try dsimp only
  repeat' first
    | with_reducible assumption
    | intro _
    | with_reducible apply keeps_State_autowake
    | with_reducible apply keeps_ite
    | fail_if_no_progress with_reducible apply keeps_mk
    | split

theorem keeps_State_readEffect {s0 : State} {sd : Side} {ev : Nat} {p : Place} {s : State}
    (h : Keeps s0 s) :
    Keeps s0 (State.readEffect sd ev p s) := by
  unfold State.readEffect
  try dsimp only
  repeat' first
    | with_reducible assumption
    | intro _
    | with_reducible apply keeps_State_modPort
    | with_reducible apply keeps_State_modSlp
    | with_reducible apply keeps_State_tie
    | with_reducible apply keeps_State_modCore
    | with_reducible apply keeps_ite
    | fail_if_no_progress with_reducible apply keeps_mk
    | split

theorem keeps_State_readNow {s0 : State} {sd : Side} {a : Nat} {ev : Nat} {s : State}
    (h : Keeps s0 s) :
    Keeps s0 (State.readNow sd a ev s) := by
  unfold State.readNow
  try dsimp only
  repeat' first
    | with_reducible assumption
    | intro _
    | with_reducible apply keeps_State_readEffect
    | with_reducible apply keeps_ite
    | fail_if_no_progress with_reducible apply keeps_mk
    | split

theorem keeps_State_regRead {s0 : State} {sd : Side} {a : Nat} {ev : Nat} {s : State}
    (h : Keeps s0 s) :
    Keeps s0 (State.regRead sd a ev s) := by
  unfold State.regRead
  try dsimp only
  repeat' first
    | with_reducible assumption
    | intro _
    | with_reducible apply keeps_State_stall
    | with_reducible apply keeps_State_offAccess
    | with_reducible apply keeps_State_readNow
    | with_reducible apply keeps_ite
    | fail_if_no_progress with_reducible apply keeps_mk
    | split

theorem keeps_execTbSfcLoRead {s0 : State} {sd : Side} {s : State}
    (h : Keeps s0 s) :
    KeepsOn s0 (execTbSfcLoRead sd s) := by
  unfold execTbSfcLoRead
  try dsimp only
  repeat' first
    | with_reducible assumption
    | intro _
    | with_reducible apply keepsOn_next
    | with_reducible apply keeps_State_regRead
    | with_reducible apply keeps_ite
    | split

theorem keeps_execTbMpcPhRead {s0 : State} {sd : Side} {s : State}
    (h : Keeps s0 s) :
    KeepsOn s0 (execTbMpcPhRead sd s) := by
  unfold execTbMpcPhRead
  try dsimp only
  repeat' first
    | with_reducible assumption
    | intro _
    | with_reducible apply keepsOn_next
    | with_reducible apply keeps_State_regRead
    | with_reducible apply keeps_ite
    | split

theorem keeps_execAonRtcLoRead {s0 : State} {sd : Side} {s : State}
    (h : Keeps s0 s) :
    KeepsOn s0 (execAonRtcLoRead sd s) := by
  unfold execAonRtcLoRead
  try dsimp only
  repeat' first
    | with_reducible assumption
    | intro _
    | with_reducible apply keepsOn_next
    | with_reducible apply keeps_State_regRead
    | with_reducible apply keeps_ite
    | split

theorem keeps_execAonDecHead0Read {s0 : State} {sd : Side} {s : State}
    (h : Keeps s0 s) :
    KeepsOn s0 (execAonDecHead0Read sd s) := by
  unfold execAonDecHead0Read
  try dsimp only
  repeat' first
    | with_reducible assumption
    | intro _
    | with_reducible apply keepsOn_next
    | with_reducible apply keeps_State_regRead
    | with_reducible apply keeps_ite
    | split

theorem keeps_execRcRegisterRead {s0 : State} {sd : Side} {off : BitVec 25} {event : Nat} {s : State}
    (h : Keeps s0 s) :
    KeepsOn s0 (execRcRegisterRead sd off event s) := by
  unfold execRcRegisterRead
  try dsimp only
  repeat' first
    | with_reducible assumption
    | intro _
    | with_reducible apply keepsOn_next
    | with_reducible apply keeps_State_regRead
    | with_reducible apply keeps_ite
    | split

theorem keeps_execBar0BadWidthAccess {s0 : State} {_off : BitVec 25} {width : Nat} {w : Option (List (BitVec 8))} {s : State}
    (h : Keeps s0 s) :
    KeepsOn s0 (execBar0BadWidthAccess _off width w s) := by
  unfold execBar0BadWidthAccess
  try dsimp only
  repeat' first
    | with_reducible assumption
    | intro _
    | with_reducible apply keepsOn_next
    | with_reducible apply keeps_ite
    | with_reducible apply keeps_foldl
    | with_reducible apply keeps_forN
    | fail_if_no_progress with_reducible apply keeps_mk
    | split

theorem keeps_execObsQuillFireWrite {s0 : State} {v : BitVec 32} {s : State}
    (h : Keeps s0 s) :
    KeepsOn s0 (execObsQuillFireWrite v s) := by
  unfold execObsQuillFireWrite
  try dsimp only
  repeat' first
    | with_reducible assumption
    | intro _
    | with_reducible apply keeps_State_trigger
    | with_reducible apply keepsOn_next

theorem keeps_execQuillPinFall {s0 : State} {fire : Option (BitVec 32)} {s : State}
    (h : Keeps s0 s) :
    KeepsOn s0 (execQuillPinFall fire s) := by
  unfold execQuillPinFall
  try dsimp only
  repeat' first
    | with_reducible assumption
    | intro _
    | with_reducible apply keeps_State_trigger
    | with_reducible apply keeps_State_quill
    | with_reducible apply keepsOn_next
    | with_reducible apply keeps_ite
    | with_reducible apply keeps_foldl
    | with_reducible apply keeps_forN
    | fail_if_no_progress with_reducible apply keeps_mk
    | split

theorem keeps_execQuillPinOutEnd {s0 : State} {s : State}
    (h : Keeps s0 s) :
    KeepsOn s0 (execQuillPinOutEnd s) := by
  unfold execQuillPinOutEnd
  try dsimp only
  repeat' first
    | with_reducible assumption
    | intro _
    | with_reducible apply keepsOn_next
    | with_reducible apply keeps_ite
    | with_reducible apply keeps_foldl
    | with_reducible apply keeps_forN
    | fail_if_no_progress with_reducible apply keeps_mk

theorem keeps_execObsQuillRearmWrite {s0 : State} {v : BitVec 32} {tie : Bool} {s : State}
    (h : Keeps s0 s) :
    KeepsOn s0 (execObsQuillRearmWrite v tie s) := by
  unfold execObsQuillRearmWrite
  try dsimp only
  repeat' first
    | with_reducible assumption
    | intro _
    | with_reducible apply keeps_State_quill
    | with_reducible apply keeps_State_tie
    | with_reducible apply keepsOn_next
    | with_reducible apply keeps_ite
    | with_reducible apply keeps_foldl
    | with_reducible apply keeps_forN
    | fail_if_no_progress with_reducible apply keeps_mk
    | split

theorem keeps_execQuillSidebandArrival {s0 : State} {d : Option (Fin 4)} {s : State}
    (h : Keeps s0 s) :
    KeepsOn s0 (execQuillSidebandArrival d s) := by
  unfold execQuillSidebandArrival
  try dsimp only
  repeat' first
    | with_reducible assumption
    | intro _
    | with_reducible apply keeps_State_trigger
    | with_reducible apply keeps_State_latchFrom
    | with_reducible apply keepsOn_next
    | with_reducible apply keeps_ite
    | with_reducible apply keeps_foldl
    | with_reducible apply keeps_forN
    | fail_if_no_progress with_reducible apply keeps_mk
    | split

theorem keeps_execObsTlogIdxWrite {s0 : State} {sd : Side} {v : BitVec 32} {s : State}
    (h : Keeps s0 s) :
    KeepsOn s0 (execObsTlogIdxWrite sd v s) := by
  unfold execObsTlogIdxWrite
  try dsimp only
  repeat' first
    | with_reducible assumption
    | intro _
    | with_reducible apply keepsOn_next
    | with_reducible apply keeps_ite
    | with_reducible apply keeps_foldl
    | with_reducible apply keeps_forN
    | fail_if_no_progress with_reducible apply keeps_mk

end Sys2Proof.Laws
end

