-- ==== Sys2Proof/Laws/KeepsJobs.lean ====
section
/-!
SUPPORT. For each operation of these files: it keeps what `Keeps` says.
-/
namespace Sys2Proof.Laws
open Sys2Proof.Machine

theorem keeps_State_noteDeny {s0 : State} {d : Deny} {s : State}
    (h : Keeps s0 s) :
    Keeps s0 (State.noteDeny d s) := by
  unfold State.noteDeny
  try dsimp only
  repeat' first
    | with_reducible assumption
    | intro _
    | with_reducible apply keeps_State_errKey
    | with_reducible apply keeps_State_errMem
    | with_reducible apply keeps_ite
    | with_reducible apply keeps_foldl
    | with_reducible apply keeps_forN
    | fail_if_no_progress with_reducible apply keeps_mk
    | split

theorem keeps_State_rewriteUnit {s0 : State} {old : Nat} {new : Nat} {u : Nat} {s : State}
    (h : Keeps s0 s) :
    Keeps s0 (State.rewriteUnit old new u s) := by
  unfold State.rewriteUnit
  try dsimp only
  repeat' first
    | with_reducible assumption
    | intro _
    | with_reducible refine keeps_mkMem ?_ (mwrite_wf _ _)
    | with_reducible refine keeps_mkMem ?_ (mzero_wf _ _)
    | with_reducible refine keeps_mkHost ?_ (mwrite_wf _ _)
    | with_reducible apply keeps_ite
    | fail_if_no_progress with_reducible apply keeps_mk
    | split

theorem keeps_State_walked {s0 : State} {w : Walk} {b : Nat} {s : State}
    (h : Keeps s0 s) :
    Keeps s0 (State.walked w b s) := by
  unfold State.walked
  try dsimp only
  repeat' first
    | with_reducible assumption
    | intro _
    | with_reducible apply keeps_State_rewriteUnit
    | with_reducible apply keeps_ite
    | with_reducible apply keeps_forN
    | split

theorem keeps_State_unitDone {s0 : State} {a : Nat} {n : Nat} {s : State}
    (h : Keeps s0 s) :
    Keeps s0 (State.unitDone a n s) := by
  unfold State.unitDone
  try dsimp only
  repeat' first
    | with_reducible assumption
    | intro _
    | with_reducible apply keeps_State_walked
    | with_reducible apply keeps_ite
    | fail_if_no_progress with_reducible apply keeps_mk
    | split

theorem keeps_State_rekeyUnits {s0 : State} {a : Nat} {n : Nat} {s : State}
    (h : Keeps s0 s) :
    Keeps s0 (State.rekeyUnits a n s) := by
  unfold State.rekeyUnits
  try dsimp only
  repeat' first
    | with_reducible assumption
    | intro _
    | with_reducible refine keeps_mkMem ?_ (mwrite_wf _ _)
    | with_reducible refine keeps_mkMem ?_ (mzero_wf _ _)
    | with_reducible refine keeps_mkHost ?_ (mwrite_wf _ _)
    | with_reducible apply keeps_ite
    | with_reducible apply keeps_foldl
    | with_reducible apply keeps_forN

theorem keeps_State_devWrite {s0 : State} {a : Nat} {bs : List Byte} {s : State}
    (h : Keeps s0 s) :
    Keeps s0 (State.devWrite a bs s) := by
  unfold State.devWrite
  try dsimp only
  repeat' first
    | with_reducible assumption
    | intro _
    | with_reducible apply keeps_State_unitDone
    | with_reducible apply keeps_State_rekeyUnits
    | with_reducible apply keeps_State_poke
    | with_reducible refine keeps_mkMem ?_ (mwrite_wf _ _)
    | with_reducible refine keeps_mkMem ?_ (mzero_wf _ _)
    | with_reducible refine keeps_mkHost ?_ (mwrite_wf _ _)
    | with_reducible apply keeps_ite
    | fail_if_no_progress with_reducible apply keeps_mk
    | split

theorem keeps_State_undefine {s0 : State} {t : Nat} {r : Nat × Nat} {s : State}
    (h : Keeps s0 s) :
    Keeps s0 (State.undefine t r s) := by
  unfold State.undefine
  try dsimp only
  repeat' first
    | with_reducible assumption
    | intro _
    | with_reducible refine keeps_State_draw_eq ?_ (by with_reducible assumption)
    | with_reducible apply keeps_State_draw
    | with_reducible apply keeps_State_devWrite
    | with_reducible apply keeps_ite
    | with_reducible apply keeps_foldl
    | split

theorem keeps_State_shadowPage {s0 : State} {s : State} {e : Nat} {die : Nat} {page : Nat}
    (h : Keeps s0 s) :
    ∀ t0, State.shadowPage s e die page = some t0 → Keeps s0 t0 := by
  unfold State.shadowPage
  intro t0 he
  split at he
  · cases he
    exact h
  · obtain ⟨dp, _, rfl⟩ := Option.map_eq_some_iff.mp he
    exact keeps_State_poke (keeps_State_modEpoch h)

theorem keeps_State_agentWrite {s0 : State} {s : State} {g : Agent} {die : Nat} {a : Nat} {bs : List Byte}
    (h : Keeps s0 s) :
    ∀ t0, State.agentWrite s g die a bs = some t0 → Keeps s0 t0 := by
  unfold State.agentWrite
  intro t0 he
  split at he
  · cases he
    exact keeps_State_devWrite h
  · obtain ⟨u, hu, rfl⟩ := Option.map_eq_some_iff.mp he
    refine keeps_foldl ?_ (fun x b hx => keeps_State_poke hx)
    exact keeps_foldlBind (fun x b u hx hu => keeps_State_shadowPage hx _ hu) (fun v hv => by cases hv; exact h) hu

theorem keeps_State_retire {s0 : State} {c : Nat} {pc : Option Nat} {s : State}
    (h : Keeps s0 s) :
    Keeps s0 (State.retire c pc s) := by
  unfold State.retire
  try dsimp only
  repeat' first
    | with_reducible assumption
    | intro _
    | with_reducible apply keeps_State_modCore

theorem keeps_State_waitEnds {s0 : State} {c : Nat} {s : State}
    (h : Keeps s0 s) :
    Keeps s0 (State.waitEnds c s) := by
  unfold State.waitEnds
  try dsimp only
  repeat' first
    | with_reducible assumption
    | intro _
    | with_reducible apply keeps_State_modCore
    | with_reducible apply keeps_State_disarm
    | with_reducible apply keeps_State_retire
    | with_reducible apply keeps_ite
    | fail_if_no_progress with_reducible apply keeps_mk
    | split

theorem keeps_State_trySwait {s0 : State} {c : Nat} {w : W128} {s : State}
    (h : Keeps s0 s) :
    ∀ t0, State.trySwait c w s = some t0 → Keeps s0 t0 := by
  unfold State.trySwait
  intro t0 he
  try dsimp only at he
  try dsimp only
  repeat' first
    | with_reducible assumption
    | intro _
    | with_reducible apply keeps_State_modCore
    | with_reducible apply keeps_ite
    | with_reducible apply keeps_foldl
    | with_reducible apply keeps_forN
    | fail_if_no_progress with_reducible apply keeps_mk
    | split
    | cases he
    | split at he

theorem keeps_State_wake {s0 : State} {c : Nat} {s : State}
    (h : Keeps s0 s) :
    Keeps s0 (State.wake c s) := by
  unfold State.wake
  try dsimp only
  repeat' first
    | with_reducible assumption
    | intro _
    | with_reducible refine keeps_State_trySwait ?_ _ (by with_reducible assumption)
    | with_reducible apply keeps_State_waitEnds
    | with_reducible apply keeps_State_modCore
    | with_reducible apply keeps_ite
    | fail_if_no_progress with_reducible apply keeps_mk
    | split

theorem keeps_State_coreEvent {s0 : State} {c : Nat} {i : Nat} {s : State}
    (h : Keeps s0 s) :
    Keeps s0 (State.coreEvent c i s) := by
  unfold State.coreEvent
  try dsimp only
  repeat' first
    | with_reducible assumption
    | intro _
    | with_reducible apply keeps_State_wake
    | with_reducible apply keeps_State_modCore

theorem keeps_State_addCell {s0 : State} {c : Nat} {cell : Nat} {v : Nat} {s : State}
    (h : Keeps s0 s) :
    Keeps s0 (State.addCell c cell v s) := by
  unfold State.addCell
  try dsimp only
  repeat' first
    | with_reducible assumption
    | intro _
    | with_reducible apply keeps_State_errSync
    | with_reducible apply keeps_State_modCore
    | with_reducible apply keeps_ite

theorem keeps_State_takeHeld {s0 : State} {j : Nat} {s : State}
    (h : Keeps s0 s) :
    Keeps s0 (State.takeHeld j s) := by
  unfold State.takeHeld
  try dsimp only
  repeat' first
    | with_reducible assumption
    | intro _
    | with_reducible apply keeps_ite
    | fail_if_no_progress with_reducible apply keeps_mk
    | split

theorem keeps_State_dropHeld {s0 : State} {j : Nat} {c : Nat} {s : State}
    (h : Keeps s0 s) :
    Keeps s0 (State.dropHeld j c s) := by
  unfold State.dropHeld
  try dsimp only
  repeat' first
    | with_reducible assumption
    | intro _
    | with_reducible apply keeps_State_dropSignal
    | with_reducible apply keeps_State_takeHeld
    | with_reducible apply keeps_ite
    | with_reducible apply keeps_foldl
    | split

theorem keeps_State_kvW {s0 : State} {a : Nat} {n : Nat} {v : Nat} {s : State}
    (h : Keeps s0 s) :
    Keeps s0 (State.kvW a n v s) := by
  unfold State.kvW
  try dsimp only
  repeat' first
    | with_reducible assumption
    | intro _
    | with_reducible apply keeps_State_devWrite

theorem keeps_State_kvPush {s0 : State} {p : Pool} {g : Nat} {s : State}
    (h : Keeps s0 s) :
    Keeps s0 (State.kvPush p g s) := by
  unfold State.kvPush
  try dsimp only
  repeat' first
    | with_reducible assumption
    | intro _
    | with_reducible apply keeps_State_kvW
    | with_reducible apply keeps_State_devWrite

theorem keeps_State_kvRelease {s0 : State} {p : Pool} {g : Nat} {s : State}
    (h : Keeps s0 s) :
    Keeps s0 (State.kvRelease p g s) := by
  unfold State.kvRelease
  try dsimp only
  repeat' first
    | with_reducible assumption
    | intro _
    | with_reducible apply keeps_State_kvW
    | with_reducible apply keeps_State_kvPush
    | with_reducible apply keeps_ite
    | split

theorem keeps_State_kvUnpin {s0 : State} {p : Pool} {g : Nat} {s : State}
    (h : Keeps s0 s) :
    Keeps s0 (State.kvUnpin p g s) := by
  unfold State.kvUnpin
  try dsimp only
  repeat' first
    | with_reducible assumption
    | intro _
    | with_reducible apply keeps_State_kvPush
    | with_reducible apply keeps_State_kvW
    | with_reducible apply keeps_ite

theorem keeps_State_kvPin {s0 : State} {p : Pool} {g : Nat} {s : State}
    (h : Keeps s0 s) :
    Keeps s0 (State.kvPin p g s) := by
  unfold State.kvPin
  try dsimp only
  repeat' first
    | with_reducible assumption
    | intro _
    | with_reducible apply keeps_State_kvW

theorem keeps_State_kvAlloc {s0 : State} {p : Pool} {st : Nat} {head : Nat} {ep : Nat} {s : State}
    (h : Keeps s0 s) :
    ∀ a0 t0, State.kvAlloc p st head ep s = some (a0, t0) → Keeps s0 t0 := by
  unfold State.kvAlloc
  intro a0 t0 he
  try dsimp only at he
  try dsimp only
  repeat' first
    | with_reducible assumption
    | intro _
    | with_reducible apply keeps_State_kvW
    | with_reducible apply keeps_State_devWrite
    | with_reducible apply keeps_ite
    | with_reducible apply keeps_foldl
    | with_reducible apply keeps_forN
    | fail_if_no_progress with_reducible apply keeps_mk
    | split
    | cases he
    | split at he

theorem keeps_State_kvDrop {s0 : State} {p : Pool} {a : Nat} {s : State}
    (h : Keeps s0 s) :
    Keeps s0 (State.kvDrop p a s) := by
  unfold State.kvDrop
  try dsimp only
  repeat' first
    | with_reducible assumption
    | intro _
    | with_reducible apply keeps_State_kvRelease
    | with_reducible apply keeps_State_kvW
    | with_reducible apply keeps_ite
    | with_reducible apply keeps_foldl
    | with_reducible apply keeps_forN
    | fail_if_no_progress with_reducible apply keeps_mk
    | split

theorem keeps_State_kvDropFrom {s0 : State} {p : Pool} {q : Nat} {b : Nat} {s : State}
    (h : Keeps s0 s) :
    Keeps s0 (State.kvDropFrom p q b s) := by
  unfold State.kvDropFrom
  try dsimp only
  repeat' first
    | with_reducible assumption
    | intro _
    | with_reducible apply keeps_State_kvDrop
    | with_reducible apply keeps_ite
    | with_reducible apply keeps_foldl
    | with_reducible apply keeps_forN

theorem keeps_State_kvForget {s0 : State} {p : Pool} {q : Nat} {s : State}
    (h : Keeps s0 s) :
    Keeps s0 (State.kvForget p q s) := by
  unfold State.kvForget
  try dsimp only
  repeat' first
    | with_reducible assumption
    | intro _
    | with_reducible apply keeps_State_kvW
    | with_reducible apply keeps_State_kvDrop
    | with_reducible apply keeps_ite
    | with_reducible apply keeps_foldl
    | with_reducible apply keeps_forN

theorem keeps_State_kvCommit {s0 : State} {p : Pool} {q : Nat} {k : Nat} {s : State}
    (h : Keeps s0 s) :
    Keeps s0 (State.kvCommit p q k s) := by
  unfold State.kvCommit
  try dsimp only
  repeat' first
    | with_reducible assumption
    | intro _
    | with_reducible apply keeps_State_kvForget
    | with_reducible apply keeps_State_kvW
    | with_reducible apply keeps_State_kvDrop
    | with_reducible apply keeps_ite
    | with_reducible apply keeps_foldl
    | with_reducible apply keeps_forN
    | fail_if_no_progress with_reducible apply keeps_mk
    | split

theorem keeps_State_tellPool {s0 : State} {n : Nat} {tenant : Nat} {kind : Nat} {v : Nat} {data : List Byte} {s : State}
    (h : Keeps s0 s) :
    Keeps s0 (State.tellPool n tenant kind v data s) := by
  unfold State.tellPool
  try dsimp only
  repeat' first
    | with_reducible assumption
    | intro _
    | with_reducible apply keeps_State_tellStream
    | with_reducible apply keeps_ite
    | split

theorem keeps_State_endShares {s0 : State} {p : Pool} {id : Nat} {s : State}
    (h : Keeps s0 s) :
    Keeps s0 (State.endShares p id s) := by
  unfold State.endShares
  try dsimp only
  repeat' first
    | with_reducible assumption
    | intro _
    | with_reducible apply keeps_State_tellPool
    | with_reducible apply keeps_ite
    | with_reducible apply keeps_id
    | with_reducible apply keeps_foldl
    | split

theorem keeps_State_kvUnpinCmd {s0 : State} {id : Nat} {s : State}
    (h : Keeps s0 s) :
    Keeps s0 (State.kvUnpinCmd id s) := by
  unfold State.kvUnpinCmd
  try dsimp only
  repeat' first
    | with_reducible assumption
    | intro _
    | with_reducible apply keeps_State_kvUnpin
    | with_reducible apply keeps_State_endShares
    | with_reducible apply keeps_ite
    | with_reducible apply keeps_id
    | with_reducible apply keeps_foldl
    | fail_if_no_progress with_reducible apply keeps_mk
    | split

theorem keeps_State_poolGone {s0 : State} {hd : Nat} {s : State}
    (h : Keeps s0 s) :
    Keeps s0 (State.poolGone hd s) := by
  unfold State.poolGone
  try dsimp only
  repeat' first
    | with_reducible assumption
    | intro _
    | with_reducible apply keeps_State_tellPool
    | with_reducible apply keeps_ite
    | with_reducible apply keeps_foldl
    | fail_if_no_progress with_reducible apply keeps_mk
    | split

theorem keeps_State_kvAbort {s0 : State} {seqs : List (Nat × Nat)} {s : State}
    (h : Keeps s0 s) :
    Keeps s0 (State.kvAbort seqs s) := by
  unfold State.kvAbort
  try dsimp only
  repeat' first
    | with_reducible assumption
    | intro _
    | with_reducible apply keeps_State_kvForget
    | with_reducible apply keeps_ite
    | with_reducible apply keeps_foldl
    | with_reducible apply keeps_forN
    | fail_if_no_progress with_reducible apply keeps_mk
    | split

theorem keeps_State_newJob {s0 : State} {j : Job} {s : State}
    (h : Keeps s0 s) :
    Keeps s0 (State.newJob j s) := by
  unfold State.newJob
  try dsimp only
  repeat' first
    | with_reducible assumption
    | intro _
    | with_reducible apply keeps_ite
    | fail_if_no_progress with_reducible apply keeps_mk
    | split

theorem keeps_State_dmaRun {s0 : State} {c : Nat} {g : Agent} {q : Dma} {host : List Byte} {upto : Nat} {s : State}
    (h : Keeps s0 s) :
    Keeps s0 (State.dmaRun c g q host upto s).1 := by
  unfold State.dmaRun
  refine foldl_keeps (P := fun r : State × Bool => Keeps s0 r.1) _ _ ?_ h
  intro x b hx
  dsimp only
  have hd : ∀ (p : Prop) [Decidable p] (a n : Nat), Keeps s0 (if p then State.unitDone a n x.1 else x.1) :=
    fun p _ a n => keeps_ite (keeps_State_unitDone hx) hx
  split
  · exact hx
  split
  · split
    · exact keeps_State_agentWrite (hd _ _ _) _ (by with_reducible assumption)
    · exact hd _ _ _
  · exact keeps_State_modCore (hd _ _ _)

theorem keeps_State_dmaRun_eq {s0 : State} {c : Nat} {g : Agent} {q : Dma} {host : List Byte} {upto : Nat} {s : State} {a0} {t0}
    (h : Keeps s0 s) (e0 : State.dmaRun c g q host upto s = (t0, a0)) : Keeps s0 t0 := by
  have k := keeps_State_dmaRun (c := c) (g := g) (q := q) (host := host) (upto := upto) (s := s) h
  rw [e0] at k
  exact k

theorem keeps_State_abortEpoch {s0 : State} {e : Nat} {cause : BitVec 4} {s : State}
    (h : Keeps s0 s) :
    Keeps s0 (State.abortEpoch e cause s) := by
  unfold State.abortEpoch
  try dsimp only
  repeat' first
    | with_reducible assumption
    | intro _
    | with_reducible apply keeps_State_modEpoch
    | with_reducible apply keeps_ite

theorem keeps_State_hoardFull {s0 : State} {e : Nat} {s : State}
    (h : Keeps s0 s) :
    Keeps s0 (State.hoardFull e s) := by
  unfold State.hoardFull
  try dsimp only
  repeat' first
    | with_reducible assumption
    | intro _
    | with_reducible apply keeps_State_errSpec
    | with_reducible apply keeps_State_abortEpoch

theorem keeps_State_hoardOut {s0 : State} {g : Agent} {r : State × Bool} (h : Keeps s0 r.1) :
    Keeps s0 (State.hoardOut g r) := by
  unfold State.hoardOut
  split
  · exact keeps_State_hoardFull h
  · exact h

theorem keeps_State_dmaEnd {s0 : State} {c : Nat} {g : Agent} {q : Dma} {s : State}
    (h : Keeps s0 s) :
    Keeps s0 (State.dmaEnd c g q s) := by
  unfold State.dmaEnd
  try dsimp only
  repeat' first
    | with_reducible assumption
    | intro _
    | with_reducible apply keeps_State_noteDeny
    | with_reducible apply keeps_State_hoardOut (keeps_State_dmaRun (by with_reducible assumption))
    | with_reducible apply keeps_State_hoardOut
    | with_reducible refine keeps_State_dmaRun_eq ?_ (by with_reducible assumption)
    | with_reducible apply keeps_State_dmaRun
    | with_reducible apply keeps_ite
    | fail_if_no_progress with_reducible apply keeps_mk
    | split

theorem keeps_State_holdDma {s0 : State} {c : Nat} {g : Agent} {q : Dma} {s : State}
    (h : Keeps s0 s) :
    Keeps s0 (State.holdDma c g q s) := by
  unfold State.holdDma
  try dsimp only
  repeat' first
    | with_reducible assumption
    | intro _
    | with_reducible apply keeps_ite
    | fail_if_no_progress with_reducible apply keeps_mk
    | split

theorem keeps_State_dmaFlush {s0 : State} {c : Nat} {g : Agent} {s : State}
    (h : Keeps s0 s) :
    Keeps s0 (State.dmaFlush c g s) := by
  unfold State.dmaFlush
  try dsimp only
  repeat' first
    | with_reducible assumption
    | intro _
    | with_reducible apply keeps_State_holdDma
    | with_reducible apply keeps_State_dmaEnd
    | with_reducible apply keeps_State_modCore
    | with_reducible refine keeps_State_dmaRun_eq ?_ (by with_reducible assumption)
    | with_reducible apply keeps_ite
    | with_reducible apply keeps_foldl
    | fail_if_no_progress with_reducible apply keeps_mk
    | split

theorem keeps_State_dmaGoes {s0 : State} {hd : HeldDma} {s : State}
    (h : Keeps s0 s) :
    Keeps s0 (State.dmaGoes hd s) := by
  unfold State.dmaGoes
  split
  · exact keeps_State_noteDeny h
  refine keeps_ite h (keeps_State_hoardOut (foldl_keeps (P := fun r : State × Bool => Keeps s0 r.1) _ _ (fun r i hx => ?_) h))
  dsimp only
  split
  · exact hx
  split
  · exact keeps_State_agentWrite hx _ (by with_reducible assumption)
  · exact hx

theorem keeps_State_dmaRelease {s0 : State} {s : State}
    (h : Keeps s0 s) :
    Keeps s0 (State.dmaRelease s) := by
  unfold State.dmaRelease
  try dsimp only
  repeat' first
    | with_reducible assumption
    | intro _
    | with_reducible apply keeps_State_dmaGoes
    | with_reducible apply keeps_ite
    | with_reducible apply keeps_foldl
    | fail_if_no_progress with_reducible apply keeps_mk
    | split

theorem keeps_State_freeCore {s0 : State} {c : Nat} {s : State}
    (h : Keeps s0 s) :
    Keeps s0 (State.freeCore c s) := by
  unfold State.freeCore
  try dsimp only
  repeat' first
    | with_reducible assumption
    | intro _
    | with_reducible apply keeps_State_modCore
    | with_reducible apply keeps_State_disarm
    | with_reducible apply keeps_ite
    | fail_if_no_progress with_reducible apply keeps_mk
    | split

theorem keeps_State_dirDrop {s0 : State} {j : Nat} {s : State}
    (h : Keeps s0 s) :
    Keeps s0 (State.dirDrop j s) := by
  unfold State.dirDrop
  try dsimp only
  repeat' first
    | with_reducible assumption
    | intro _
    | with_reducible apply keeps_ite
    | with_reducible apply keeps_foldl
    | with_reducible apply keeps_forN
    | fail_if_no_progress with_reducible apply keeps_mk

theorem keeps_State_slotFree {s0 : State} {j : Job} {s : State}
    (h : Keeps s0 s) :
    Keeps s0 (State.slotFree j s) := by
  unfold State.slotFree
  try dsimp only
  repeat' first
    | with_reducible assumption
    | intro _
    | with_reducible apply keeps_ite
    | with_reducible apply keeps_foldl
    | with_reducible apply keeps_forN
    | fail_if_no_progress with_reducible apply keeps_mk
    | split

theorem keeps_State_freeCtx {s0 : State} {j : Nat} {s : State}
    (h : Keeps s0 s) :
    Keeps s0 (State.freeCtx j s) := by
  unfold State.freeCtx
  try dsimp only
  repeat' first
    | with_reducible assumption
    | intro _
    | with_reducible apply keeps_State_modEpoch
    | with_reducible apply keeps_ite
    | with_reducible apply keeps_foldl
    | fail_if_no_progress with_reducible apply keeps_mk
    | split

theorem keeps_State_endJob {s0 : State} {j : Nat} {flush : Bool} {s : State}
    (h : Keeps s0 s) :
    Keeps s0 (State.endJob j flush s) := by
  unfold State.endJob
  try dsimp only
  repeat' first
    | with_reducible assumption
    | intro _
    | with_reducible apply keeps_State_dmaFlush
    | with_reducible apply keeps_State_freeCore
    | with_reducible apply keeps_State_dropHeld
    | with_reducible apply keeps_State_dirDrop
    | with_reducible apply keeps_State_slotFree
    | with_reducible apply keeps_State_modEpoch
    | with_reducible apply keeps_State_freeCtx
    | with_reducible apply keeps_ite
    | fail_if_no_progress with_reducible apply keeps_mk
    | split

theorem keeps_State_opUndefined {s0 : State} {c : Cmd} {s : State}
    (h : Keeps s0 s) :
    Keeps s0 (State.opUndefined c s) := by
  unfold State.opUndefined
  try dsimp only
  repeat' first
    | with_reducible assumption
    | intro _
    | with_reducible apply keeps_State_undefine
    | with_reducible refine keeps_State_draw_eq ?_ (by with_reducible assumption)
    | with_reducible apply keeps_ite
    | with_reducible apply keeps_foldl
    | split

theorem keeps_State_finishOwn {s0 : State} {c : Cmd} {d : Done} {s : State}
    (h : Keeps s0 s) :
    Keeps s0 (State.finishOwn c d s) := by
  unfold State.finishOwn
  try dsimp only
  repeat' first
    | with_reducible assumption
    | intro _
    | with_reducible apply keeps_State_dropCmd
    | with_reducible apply keeps_State_finish
    | with_reducible apply keeps_State_modEpoch
    | with_reducible apply keeps_ite
    | with_reducible apply keeps_foldl
    | with_reducible apply keeps_forN
    | fail_if_no_progress with_reducible apply keeps_mk
    | split

theorem keeps_State_stopOwn {s0 : State} {c : Cmd} {d : Done} {flush : Bool} {s : State}
    (h : Keeps s0 s) :
    Keeps s0 (State.stopOwn c d flush s) := by
  unfold State.stopOwn
  try dsimp only
  repeat' first
    | with_reducible assumption
    | intro _
    | with_reducible apply keeps_State_endJob
    | with_reducible apply keeps_State_kvUnpinCmd
    | with_reducible apply keeps_State_opUndefined
    | with_reducible apply keeps_State_finishOwn
    | with_reducible apply keeps_State_abortEpoch
    | with_reducible apply keeps_ite
    | with_reducible apply keeps_id
    | with_reducible apply keeps_foldl
    | fail_if_no_progress with_reducible apply keeps_mk
    | split

theorem keeps_State_stopCmd {s0 : State} {c : Cmd} {d : Done} {flush : Bool} {s : State}
    (h : Keeps s0 s) :
    Keeps s0 (State.stopCmd c d flush s) := by
  unfold State.stopCmd
  try dsimp only
  repeat' first
    | with_reducible assumption
    | intro _
    | with_reducible apply keeps_State_modCmd
    | with_reducible apply keeps_State_stopOwn
    | with_reducible apply keeps_ite
    | with_reducible apply keeps_id
    | fail_if_no_progress with_reducible apply keeps_mk
    | split

theorem keeps_State_loseBlock {s0 : State} {h0 : Nat} {fs : Nat} {s : State}
    (h : Keeps s0 s) :
    Keeps s0 (State.loseBlock h0 fs s) := by
  unfold State.loseBlock
  try dsimp only
  repeat' first
    | with_reducible assumption
    | intro _
    | with_reducible apply keeps_State_modStream

theorem keeps_State_launchEnd {s0 : State} {r : Nat} {k : Nat} {rs : Option Nat} {s : State}
    (h : Keeps s0 s) :
    Keeps s0 (State.launchEnd r k rs s) := by
  unfold State.launchEnd
  try dsimp only
  repeat' first
    | with_reducible assumption
    | intro _
    | with_reducible apply keeps_State_postStatus
    | with_reducible apply keeps_State_modRule
    | with_reducible apply keeps_State_modEpoch
    | with_reducible apply keeps_ite

theorem keeps_State_failJob {s0 : State} {j : Nat} {rs : Nat} {result : List Byte} {cause : BitVec 4} {flush : Bool} {s : State}
    (h : Keeps s0 s) :
    Keeps s0 (State.failJob j rs result cause flush s) := by
  unfold State.failJob
  try dsimp only
  repeat' first
    | with_reducible assumption
    | intro _
    | with_reducible apply keeps_State_abortEpoch
    | with_reducible apply keeps_State_endJob
    | with_reducible apply keeps_State_stopOwn
    | with_reducible apply keeps_State_loseBlock
    | with_reducible apply keeps_State_launch
    | with_reducible apply keeps_State_launchEnd
    | with_reducible apply keeps_State_capEnd
    | with_reducible apply keeps_ite
    | with_reducible apply keeps_id
    | fail_if_no_progress with_reducible apply keeps_mk
    | split

theorem keeps_State_failJobs {s0 : State} {p : Job → Bool} {rs : Nat} {cause : BitVec 4} {s : State}
    (h : Keeps s0 s) :
    Keeps s0 (State.failJobs p rs cause s) := by
  unfold State.failJobs
  try dsimp only
  repeat' first
    | with_reducible assumption
    | intro _
    | with_reducible apply keeps_State_failJob
    | with_reducible apply keeps_ite
    | with_reducible apply keeps_foldl

theorem keeps_State_coreFault {s0 : State} {c : Nat} {code : Nat} {pc : Nat} {s : State}
    (h : Keeps s0 s) :
    Keeps s0 (State.coreFault c code pc s) := by
  unfold State.coreFault
  try dsimp only
  repeat' first
    | with_reducible assumption
    | intro _
    | with_reducible apply keeps_State_modCore
    | with_reducible apply keeps_State_errCore
    | with_reducible apply keeps_ite
    | fail_if_no_progress with_reducible apply keeps_mk
    | split

theorem keeps_State_faultHold {s0 : State} {c : Nat} {s : State}
    (h : Keeps s0 s) :
    Keeps s0 (State.faultHold c s) := by
  unfold State.faultHold
  try dsimp only
  repeat' first
    | with_reducible assumption
    | intro _
    | with_reducible apply keeps_State_modCore
    | with_reducible apply keeps_ite
    | fail_if_no_progress with_reducible apply keeps_mk
    | split

theorem keeps_State_tileFault {s0 : State} {c : Nat} {code : Nat} {pc : Nat} {s : State}
    (h : Keeps s0 s) :
    Keeps s0 (State.tileFault c code pc s) := by
  unfold State.tileFault
  try dsimp only
  repeat' first
    | with_reducible assumption
    | intro _
    | with_reducible apply keeps_State_coreFault
    | with_reducible apply keeps_State_errSpec
    | with_reducible apply keeps_State_failJob
    | with_reducible apply keeps_State_quillUp
    | with_reducible apply keeps_State_faultHold
    | with_reducible apply keeps_ite
    | fail_if_no_progress with_reducible apply keeps_mk
    | split

theorem keeps_State_dirStart {s0 : State} {c : Nat} {j : Nat} {tenant : Nat} {s : State}
    (h : Keeps s0 s) :
    Keeps s0 (State.dirStart c j tenant s) := by
  unfold State.dirStart
  try dsimp only
  repeat' first
    | with_reducible assumption
    | intro _
    | with_reducible apply keeps_ite
    | with_reducible apply keeps_foldl
    | with_reducible apply keeps_forN
    | fail_if_no_progress with_reducible apply keeps_mk
    | split

theorem keeps_State_startOn {s0 : State} {j : Nat} {c : Nat} {x : Job} {s : State}
    (h : Keeps s0 s) :
    Keeps s0 (State.startOn j c x s) := by
  unfold State.startOn
  try dsimp only
  repeat' first
    | with_reducible assumption
    | intro _
    | with_reducible apply keeps_State_freeSlot
    | with_reducible apply keeps_State_modJob
    | with_reducible apply keeps_State_modCore
    | with_reducible apply keeps_State_dirStart
    | with_reducible refine keeps_mkMem ?_ (mwrite_wf _ _)
    | with_reducible refine keeps_mkMem ?_ (mzero_wf _ _)
    | with_reducible refine keeps_mkHost ?_ (mwrite_wf _ _)
    | with_reducible apply keeps_ite
    | fail_if_no_progress with_reducible apply keeps_mk
    | split

theorem keeps_State_preempt {s0 : State} {c : Nat} {s : State}
    (h : Keeps s0 s) :
    Keeps s0 (State.preempt c s) := by
  unfold State.preempt
  try dsimp only
  repeat' first
    | with_reducible assumption
    | intro _
    | with_reducible apply keeps_State_modCore
    | with_reducible apply keeps_State_modJob
    | with_reducible apply keeps_ite
    | with_reducible apply keeps_foldl
    | with_reducible apply keeps_forN
    | fail_if_no_progress with_reducible apply keeps_mk
    | split

theorem keeps_State_refuseJob {s0 : State} {j : Nat} {x : Job} {s : State}
    (h : Keeps s0 s) :
    Keeps s0 (State.refuseJob j x s) := by
  unfold State.refuseJob
  try dsimp only
  repeat' first
    | with_reducible assumption
    | intro _
    | with_reducible apply keeps_State_endJob
    | with_reducible apply keeps_State_kvUnpinCmd
    | with_reducible apply keeps_State_complete
    | with_reducible apply keeps_State_capEnd
    | with_reducible apply keeps_ite
    | with_reducible apply keeps_id
    | with_reducible apply keeps_foldl
    | fail_if_no_progress with_reducible apply keeps_mk
    | split

theorem keeps_execJobDispatch {s0 : State} {j : Nat} {s : State}
    (h : Keeps s0 s) :
    KeepsOn s0 (execJobDispatch j s) := by
  unfold execJobDispatch
  try dsimp only
  repeat' first
    | with_reducible assumption
    | intro _
    | with_reducible apply keepsOn_next
    | with_reducible apply keeps_State_startOn
    | with_reducible apply keeps_State_preempt
    | with_reducible apply keeps_State_refuseJob
    | with_reducible apply keeps_State_modJob
    | with_reducible apply keeps_State_modCore
    | with_reducible apply keeps_State_dirStart
    | with_reducible apply keeps_State_launch
    | with_reducible apply keeps_State_modRule
    | with_reducible apply keeps_State_modCmd
    | with_reducible apply keeps_id
    | with_reducible apply keeps_ite
    | fail_if_no_progress with_reducible apply keeps_mk
    | split

theorem keeps_State_countPreempt {s0 : State} {j : Nat} {s : State}
    (h : Keeps s0 s) :
    Keeps s0 (State.countPreempt j s) := by
  unfold State.countPreempt
  try dsimp only
  repeat' first
    | with_reducible assumption
    | intro _
    | with_reducible apply keeps_State_modJob
    | with_reducible apply keeps_State_modCmd
    | with_reducible apply keeps_State_launch
    | with_reducible apply keeps_State_modRule
    | with_reducible apply keeps_ite
    | with_reducible apply keeps_id
    | fail_if_no_progress with_reducible apply keeps_mk
    | split

theorem keeps_State_saveDone {s0 : State} {c : Nat} {j : Nat} {rc : Nat} {saved : Core} {s : State}
    (h : Keeps s0 s) :
    Keeps s0 (State.saveDone c j rc saved s) := by
  unfold State.saveDone
  try dsimp only
  repeat' first
    | with_reducible assumption
    | intro _
    | with_reducible apply keeps_State_freeCore
    | with_reducible apply keeps_State_modJob
    | with_reducible apply keeps_State_countPreempt
    | with_reducible apply keeps_State_errSch
    | with_reducible apply keeps_ite
    | fail_if_no_progress with_reducible apply keeps_mk
    | split

theorem keeps_State_ctxAlloc {s0 : State} {e : Nat} {die : Nat} {j : Nat} {y3 : Nat} {y4 : State}
    (h : Keeps s0 y4) :
    ∀ t0, State.ctxAlloc e die j y3 y4 = some t0 → Keeps s0 t0 := by
  induction y3 generalizing y4 with
  | zero => intro t0 he; cases he; exact h
  | succ n ih =>
    intro t0 he
    unfold State.ctxAlloc at he
    obtain ⟨dp, _, he⟩ := Option.bind_eq_some_iff.mp he
    exact ih (keeps_State_modEpoch h) _ he

theorem keeps_State_dmaPause {s0 : State} {c : Nat} {g : Agent} {s : State}
    (h : Keeps s0 s) :
    Keeps s0 (State.dmaPause c g s) := by
  unfold State.dmaPause
  refine keeps_State_modCore (foldl_keeps (P := fun r : State × List Dma => Keeps s0 r.1) _ _ (fun r q hx => ?_) h)
  dsimp only
  split
  · exact hx
  · exact keeps_State_hoardOut (keeps_State_dmaRun (keeps_State_draw hx))

theorem keeps_State_saveContext {s0 : State} {c : Nat} {rc : Nat} {s : State}
    (h : Keeps s0 s) :
    Keeps s0 (State.saveContext c rc s) := by
  unfold State.saveContext
  try dsimp only
  repeat' first
    | with_reducible assumption
    | intro _
    | with_reducible apply keepsRes_fault
    | with_reducible apply keepsRes_retire
    | with_reducible apply keepsRes_stay
    | with_reducible apply keepsRes_work
    | with_reducible apply keepsRes_ite
    | with_reducible apply keeps_State_tileFault
    | with_reducible apply keeps_State_dmaPause
    | with_reducible refine keeps_State_ctxAlloc ?_ _ (by with_reducible assumption)
    | with_reducible apply keeps_State_saveDone
    | with_reducible apply keeps_State_hoardFull
    | with_reducible apply keeps_State_endJob
    | with_reducible apply keeps_State_noteDeny
    | with_reducible apply keeps_State_errSch
    | with_reducible apply keeps_State_failJob
    | with_reducible apply keeps_State_devWrite
    | with_reducible apply keeps_ite
    | with_reducible apply keeps_foldl
    | fail_if_no_progress with_reducible apply keeps_mk
    | split

theorem keeps_execPreemptSaveDone {s0 : State} {core : Fin 64} {rc : Nat} {s : State}
    (h : Keeps s0 s) :
    KeepsOn s0 (execPreemptSaveDone core rc s) := by
  unfold execPreemptSaveDone
  try dsimp only
  repeat' first
    | with_reducible assumption
    | intro _
    | with_reducible apply keepsOn_next
    | with_reducible apply keeps_State_saveContext
    | with_reducible apply keeps_ite
    | split

theorem keeps_State_saveNow {s0 : State} {c : Nat} {s : State}
    (h : Keeps s0 s) :
    Keeps s0 (State.saveNow c s) := by
  unfold State.saveNow
  try dsimp only
  repeat' first
    | with_reducible assumption
    | intro _
    | with_reducible refine keeps_State_draw_eq ?_ (by with_reducible assumption)
    | with_reducible apply keeps_State_draw
    | with_reducible apply keeps_State_saveContext
    | with_reducible apply keeps_ite
    | split

theorem keeps_State_finishSaves {s0 : State} {id : Nat} {s : State}
    (h : Keeps s0 s) :
    Keeps s0 (State.finishSaves id s) := by
  unfold State.finishSaves
  try dsimp only
  repeat' first
    | with_reducible assumption
    | intro _
    | with_reducible apply keeps_State_saveNow
    | with_reducible apply keeps_ite
    | with_reducible apply keeps_id
    | with_reducible apply keeps_foldl
    | fail_if_no_progress with_reducible apply keeps_mk
    | split

theorem keeps_State_rearm {s0 : State} {c : Nat} {w : Option Wait} {s : State}
    (h : Keeps s0 s) :
    Keeps s0 (State.rearm c w s) := by
  unfold State.rearm
  try dsimp only
  repeat' first
    | with_reducible assumption
    | intro _
    | with_reducible apply keeps_State_arm
    | with_reducible apply keeps_ite
    | with_reducible apply keeps_foldl
    | with_reducible apply keeps_forN
    | fail_if_no_progress with_reducible apply keeps_mk
    | split

theorem keeps_State_rejoin {s0 : State} {c : Nat} {j : Nat} {k : Core} {s : State}
    (h : Keeps s0 s) :
    Keeps s0 (State.rejoin c j k s) := by
  unfold State.rejoin
  try dsimp only
  repeat' first
    | with_reducible assumption
    | intro _
    | with_reducible apply keeps_State_modCore
    | with_reducible apply keeps_State_modJob
    | with_reducible apply keeps_State_rearm
    | with_reducible apply keeps_State_addCell
    | with_reducible apply keeps_State_takeHeld
    | with_reducible apply keeps_State_wake
    | with_reducible apply keeps_ite
    | with_reducible apply keeps_foldl
    | fail_if_no_progress with_reducible apply keeps_mk
    | split

theorem keeps_execJobRestoreDone {s0 : State} {core : Fin 64} {s : State}
    (h : Keeps s0 s) :
    KeepsOn s0 (execJobRestoreDone core s) := by
  unfold execJobRestoreDone
  try dsimp only
  repeat' first
    | with_reducible assumption
    | intro _
    | with_reducible apply keepsOn_next
    | with_reducible apply keeps_State_freeCtx
    | with_reducible apply keeps_State_rejoin
    | with_reducible apply keeps_State_noteDeny
    | with_reducible apply keeps_State_errSch
    | with_reducible apply keeps_State_failJob
    | with_reducible apply keeps_ite
    | fail_if_no_progress with_reducible apply keeps_mk
    | split

theorem keeps_execCoreResetDone {s0 : State} {core : Fin 64} {s : State}
    (h : Keeps s0 s) :
    KeepsOn s0 (execCoreResetDone core s) := by
  unfold execCoreResetDone
  try dsimp only
  repeat' first
    | with_reducible assumption
    | intro _
    | with_reducible apply keeps_State_modCore
    | with_reducible apply keepsOn_next
    | with_reducible apply keeps_ite

end Sys2Proof.Laws
end

