-- ==== Sys2Proof/Laws/KeepsRes.lean ====
section
/-!
SUPPORT. `Keeps` for what a tile instruction answers.
-/
namespace Sys2Proof.Laws
open Sys2Proof.Machine

/-- The state that a tile instruction answers keeps what `Keeps` says. -/
inductive KeepsRes (s : State) : TileRes → Prop
  | fault (code : Nat) (d : Option Deny) : KeepsRes s (.fault code d)
  | retire (t : State) (p : Option Nat) (h : Keeps s t) : KeepsRes s (.retire t p)
  | stay (t : State) (h : Keeps s t) : KeepsRes s (.stay t)
  | work (n cc cube : Nat) (unit : Nat → State → State) (hu : ∀ k x, Keeps s x → Keeps s (unit k x)) : KeepsRes s (.work n cc cube unit)

theorem keepsRes_fault {s : State} {code : Nat} {d : Option Deny} : KeepsRes s (.fault code d) := .fault code d

theorem keepsRes_retire {s t : State} {p : Option Nat} (h : Keeps s t) : KeepsRes s (.retire t p) := .retire t p h

theorem keepsRes_stay {s t : State} (h : Keeps s t) : KeepsRes s (.stay t) := .stay t h

theorem keepsRes_work {s : State} {n cc cube : Nat} {unit : Nat → State → State} (hu : ∀ k x, Keeps s x → Keeps s (unit k x)) :
    KeepsRes s (.work n cc cube unit) :=
  .work n cc cube unit hu

theorem keepsRes_ite {s : State} {a b : TileRes} {c : Prop} [Decidable c] (ha : KeepsRes s a) (hb : KeepsRes s b) :
    KeepsRes s (if c then a else b) := by
  split <;> assumption

end Sys2Proof.Laws
end

