-- ==== Sys2Proof/Laws/KeepsTile.lean ====
section
/-!
SUPPORT. For each operation of these files: it keeps what `Keeps` says.
-/
namespace Sys2Proof.Laws
open Sys2Proof.Machine

theorem keeps_State_faultWith {s0 : State} {c : Nat} {code : Nat} {pc : Nat} {d : Option Deny} {s : State}
    (h : Keeps s0 s) :
    Keeps s0 (State.faultWith c code pc d s) := by
  unfold State.faultWith
  try dsimp only
  repeat' first
    | with_reducible assumption
    | intro _
    | with_reducible apply keeps_State_noteDeny
    | with_reducible apply keeps_State_tileFault
    | with_reducible apply keeps_ite
    | with_reducible apply keeps_foldl
    | with_reducible apply keeps_forN
    | fail_if_no_progress with_reducible apply keeps_mk
    | split

theorem keeps_State_cubeBusy {s0 : State} {c : Nat} {n : Nat} {s : State}
    (h : Keeps s0 s) :
    Keeps s0 (State.cubeBusy c n s) := by
  unfold State.cubeBusy
  try dsimp only
  repeat' first
    | with_reducible assumption
    | intro _
    | with_reducible apply keeps_State_modCore
    | with_reducible apply keeps_State_modJob
    | with_reducible apply keeps_ite
    | with_reducible apply keeps_foldl
    | with_reducible apply keeps_forN
    | fail_if_no_progress with_reducible apply keeps_mk
    | split

theorem keeps_workSteps {s0 : State} {unit : Nat → State → State} {p a b : Nat} {s : State} (h : Keeps s0 s)
    (hu : ∀ k x, Keeps s0 x → Keeps s0 (unit k x)) : Keeps s0 (workSteps unit p a b s) :=
  keeps_foldl h (fun _ _ hx => keeps_ite (hu _ _ hx) hx)

theorem keeps_State_longTile {s0 : State} {c n cc cube : Nat} {unit : Nat → State → State} {s : State}
    (h : Keeps s0 s) (hu : ∀ k x, Keeps s0 x → Keeps s0 (unit k x)) :
    Keeps s0 (State.longTile c n cc cube unit s) := by
  unfold State.longTile
  dsimp only
  exact keeps_ite (keeps_State_retire (keeps_State_cubeBusy (keeps_workSteps h hu)))
    (keeps_ite (keeps_State_modCore (keeps_State_cubeBusy (keeps_workSteps (keeps_State_draw h) hu))) h)

theorem keeps_State_tile {s0 : State} {c : Nat} {mine : Nat → Bool} {f : W128 → State → TileRes} {s : State}
    (h : Keeps s0 s) (hf : ∀ v0 v1, Keeps s0 v1 → KeepsRes s0 (f v0 v1)) :
    Keeps s0 (State.tile c mine f s) := by
  unfold State.tile
  refine keeps_ite h ?_
  split
  · exact h
  · exact keeps_ite h (keeps_State_faultWith h)
  · rename_i w _
    refine keeps_ite h ?_
    split
    · exact keeps_ite h (keeps_State_tileFault h)
    · have hg : KeepsRes s0 (if (s.core c).guard w then f w s else .retire s none) :=
        keepsRes_ite (hf w s h) (keepsRes_retire h)
      generalize (if (s.core c).guard w then f w s else TileRes.retire s none) = go at hg
      cases go with
      | fault code d => exact keeps_ite h (keeps_State_faultWith h)
      | retire t p => cases hg with | retire _ _ hg => exact keeps_ite (keeps_State_retire hg) h
      | stay t => cases hg with | stay _ hg => exact keeps_ite hg h
      | work n cc cube unit => cases hg with | work _ _ _ _ hu => exact keeps_State_longTile h hu

theorem keeps_State_alu {s0 : State} {c : Nat} {f : W64 → W64 → W64} {w : W128} {s : State}
    (h : Keeps s0 s) :
    KeepsRes s0 (State.alu c f w s) := by
  unfold State.alu
  try dsimp only
  repeat' first
    | with_reducible assumption
    | intro _
    | with_reducible apply keeps_State_modCore
    | with_reducible apply keepsRes_fault
    | with_reducible apply keepsRes_retire

theorem keeps_State_lmWr {s0 : State} {c : Nat} {a : Nat} {bs : List Byte} {s : State}
    (h : Keeps s0 s) :
    Keeps s0 (State.lmWr c a bs s) := by
  unfold State.lmWr
  try dsimp only
  repeat' first
    | with_reducible assumption
    | intro _
    | with_reducible apply keeps_State_modCore

theorem keeps_execTileNop {s0 : State} {core : Fin 64} {s : State}
    (h : Keeps s0 s) :
    KeepsOn s0 (execTileNop core s) := by
  unfold execTileNop
  try dsimp only
  repeat' first
    | with_reducible assumption
    | intro _
    | with_reducible apply keeps_State_tile
    | with_reducible apply keepsRes_fault
    | with_reducible apply keepsRes_retire
    | with_reducible apply keepsRes_stay
    | with_reducible apply keepsRes_ite
    | with_reducible apply keepsOn_next

theorem keeps_execTileAdd {s0 : State} {core : Fin 64} {s : State}
    (h : Keeps s0 s) :
    KeepsOn s0 (execTileAdd core s) := by
  unfold execTileAdd
  try dsimp only
  repeat' first
    | with_reducible assumption
    | intro _
    | with_reducible apply keeps_State_alu
    | with_reducible apply keeps_State_tile
    | with_reducible apply keepsRes_fault
    | with_reducible apply keepsRes_retire
    | with_reducible apply keepsRes_stay
    | with_reducible apply keepsRes_ite
    | with_reducible apply keepsOn_next

theorem keeps_execTileSub {s0 : State} {core : Fin 64} {s : State}
    (h : Keeps s0 s) :
    KeepsOn s0 (execTileSub core s) := by
  unfold execTileSub
  try dsimp only
  repeat' first
    | with_reducible assumption
    | intro _
    | with_reducible apply keeps_State_alu
    | with_reducible apply keeps_State_tile
    | with_reducible apply keepsRes_fault
    | with_reducible apply keepsRes_retire
    | with_reducible apply keepsRes_stay
    | with_reducible apply keepsRes_ite
    | with_reducible apply keepsOn_next

theorem keeps_execTileAnd {s0 : State} {core : Fin 64} {s : State}
    (h : Keeps s0 s) :
    KeepsOn s0 (execTileAnd core s) := by
  unfold execTileAnd
  try dsimp only
  repeat' first
    | with_reducible assumption
    | intro _
    | with_reducible apply keeps_State_alu
    | with_reducible apply keeps_State_tile
    | with_reducible apply keepsRes_fault
    | with_reducible apply keepsRes_retire
    | with_reducible apply keepsRes_stay
    | with_reducible apply keepsRes_ite
    | with_reducible apply keepsOn_next

theorem keeps_execTileOr {s0 : State} {core : Fin 64} {s : State}
    (h : Keeps s0 s) :
    KeepsOn s0 (execTileOr core s) := by
  unfold execTileOr
  try dsimp only
  repeat' first
    | with_reducible assumption
    | intro _
    | with_reducible apply keeps_State_alu
    | with_reducible apply keeps_State_tile
    | with_reducible apply keepsRes_fault
    | with_reducible apply keepsRes_retire
    | with_reducible apply keepsRes_stay
    | with_reducible apply keepsRes_ite
    | with_reducible apply keepsOn_next

theorem keeps_execTileXor {s0 : State} {core : Fin 64} {s : State}
    (h : Keeps s0 s) :
    KeepsOn s0 (execTileXor core s) := by
  unfold execTileXor
  try dsimp only
  repeat' first
    | with_reducible assumption
    | intro _
    | with_reducible apply keeps_State_alu
    | with_reducible apply keeps_State_tile
    | with_reducible apply keepsRes_fault
    | with_reducible apply keepsRes_retire
    | with_reducible apply keepsRes_stay
    | with_reducible apply keepsRes_ite
    | with_reducible apply keepsOn_next

theorem keeps_execTileShl {s0 : State} {core : Fin 64} {s : State}
    (h : Keeps s0 s) :
    KeepsOn s0 (execTileShl core s) := by
  unfold execTileShl
  try dsimp only
  repeat' first
    | with_reducible assumption
    | intro _
    | with_reducible apply keeps_State_alu
    | with_reducible apply keeps_State_tile
    | with_reducible apply keepsRes_fault
    | with_reducible apply keepsRes_retire
    | with_reducible apply keepsRes_stay
    | with_reducible apply keepsRes_ite
    | with_reducible apply keepsOn_next

theorem keeps_execTileShr {s0 : State} {core : Fin 64} {s : State}
    (h : Keeps s0 s) :
    KeepsOn s0 (execTileShr core s) := by
  unfold execTileShr
  try dsimp only
  repeat' first
    | with_reducible assumption
    | intro _
    | with_reducible apply keeps_State_alu
    | with_reducible apply keeps_State_tile
    | with_reducible apply keepsRes_fault
    | with_reducible apply keepsRes_retire
    | with_reducible apply keepsRes_stay
    | with_reducible apply keepsRes_ite
    | with_reducible apply keepsOn_next

theorem keeps_execTileSar {s0 : State} {core : Fin 64} {s : State}
    (h : Keeps s0 s) :
    KeepsOn s0 (execTileSar core s) := by
  unfold execTileSar
  try dsimp only
  repeat' first
    | with_reducible assumption
    | intro _
    | with_reducible apply keeps_State_alu
    | with_reducible apply keeps_State_tile
    | with_reducible apply keepsRes_fault
    | with_reducible apply keepsRes_retire
    | with_reducible apply keepsRes_stay
    | with_reducible apply keepsRes_ite
    | with_reducible apply keepsOn_next

theorem keeps_execTileMul {s0 : State} {core : Fin 64} {s : State}
    (h : Keeps s0 s) :
    KeepsOn s0 (execTileMul core s) := by
  unfold execTileMul
  try dsimp only
  repeat' first
    | with_reducible assumption
    | intro _
    | with_reducible apply keeps_State_alu
    | with_reducible apply keeps_State_tile
    | with_reducible apply keepsRes_fault
    | with_reducible apply keepsRes_retire
    | with_reducible apply keepsRes_stay
    | with_reducible apply keepsRes_ite
    | with_reducible apply keepsOn_next

theorem keeps_execTileAddi {s0 : State} {core : Fin 64} {s : State}
    (h : Keeps s0 s) :
    KeepsOn s0 (execTileAddi core s) := by
  unfold execTileAddi
  try dsimp only
  repeat' first
    | with_reducible assumption
    | intro _
    | with_reducible apply keeps_State_modCore
    | with_reducible apply keeps_State_tile
    | with_reducible apply keepsRes_fault
    | with_reducible apply keepsRes_retire
    | with_reducible apply keepsRes_stay
    | with_reducible apply keepsRes_ite
    | with_reducible apply keepsOn_next

theorem keeps_execTileMovi {s0 : State} {core : Fin 64} {s : State}
    (h : Keeps s0 s) :
    KeepsOn s0 (execTileMovi core s) := by
  unfold execTileMovi
  try dsimp only
  repeat' first
    | with_reducible assumption
    | intro _
    | with_reducible apply keeps_State_modCore
    | with_reducible apply keeps_State_tile
    | with_reducible apply keepsRes_fault
    | with_reducible apply keepsRes_retire
    | with_reducible apply keepsRes_stay
    | with_reducible apply keepsRes_ite
    | with_reducible apply keepsOn_next

theorem keeps_execTileCmp {s0 : State} {core : Fin 64} {s : State}
    (h : Keeps s0 s) :
    KeepsOn s0 (execTileCmp core s) := by
  unfold execTileCmp
  try dsimp only
  repeat' first
    | with_reducible assumption
    | intro _
    | with_reducible apply keeps_State_modCore
    | with_reducible apply keeps_State_tile
    | with_reducible apply keepsRes_fault
    | with_reducible apply keepsRes_retire
    | with_reducible apply keepsRes_stay
    | with_reducible apply keepsRes_ite
    | with_reducible apply keepsOn_next

theorem keeps_execTileCmpi {s0 : State} {core : Fin 64} {s : State}
    (h : Keeps s0 s) :
    KeepsOn s0 (execTileCmpi core s) := by
  unfold execTileCmpi
  try dsimp only
  repeat' first
    | with_reducible assumption
    | intro _
    | with_reducible apply keeps_State_modCore
    | with_reducible apply keeps_State_tile
    | with_reducible apply keepsRes_fault
    | with_reducible apply keepsRes_retire
    | with_reducible apply keepsRes_stay
    | with_reducible apply keepsRes_ite
    | with_reducible apply keepsOn_next

theorem keeps_execTileLds {s0 : State} {core : Fin 64} {s : State}
    (h : Keeps s0 s) :
    KeepsOn s0 (execTileLds core s) := by
  unfold execTileLds
  try dsimp only
  repeat' first
    | with_reducible assumption
    | intro _
    | with_reducible apply keeps_State_modCore
    | with_reducible apply keeps_State_tile
    | with_reducible apply keepsRes_fault
    | with_reducible apply keepsRes_retire
    | with_reducible apply keepsRes_stay
    | with_reducible apply keepsRes_ite
    | with_reducible apply keepsOn_next
    | with_reducible apply keeps_ite
    | with_reducible apply keeps_foldl
    | with_reducible apply keeps_forN
    | fail_if_no_progress with_reducible apply keeps_mk
    | split

theorem keeps_State_stsDev {s0 : State} {c : Nat} {a : Nat} {bs : List Byte} {s : State}
    (h : Keeps s0 s) :
    KeepsRes s0 (State.stsDev c a bs s) := by
  unfold State.stsDev
  try dsimp only
  repeat' first
    | with_reducible assumption
    | intro _
    | with_reducible apply keepsRes_fault
    | with_reducible apply keepsRes_retire
    | with_reducible apply keepsRes_stay
    | with_reducible apply keepsRes_work
    | with_reducible apply keepsRes_ite
    | with_reducible refine keeps_State_agentWrite ?_ _ (by with_reducible assumption)
    | with_reducible apply keeps_State_retire
    | with_reducible apply keeps_State_hoardOut (keeps_State_dmaRun (by with_reducible assumption))
    | with_reducible apply keeps_State_hoardOut
    | with_reducible apply keeps_ite
    | fail_if_no_progress with_reducible apply keeps_mk
    | split

theorem keeps_execTileSts {s0 : State} {core : Fin 64} {s : State}
    (h : Keeps s0 s) :
    KeepsOn s0 (execTileSts core s) := by
  unfold execTileSts
  try dsimp only
  repeat' first
    | with_reducible assumption
    | intro _
    | with_reducible apply keepsOn_next
    | with_reducible apply keepsRes_fault
    | with_reducible apply keepsRes_retire
    | with_reducible apply keepsRes_stay
    | with_reducible apply keepsRes_work
    | with_reducible apply keepsRes_ite
    | with_reducible apply keeps_State_tile
    | with_reducible apply keeps_State_stsDev
    | with_reducible apply keeps_State_retire
    | with_reducible apply keeps_State_lmWr
    | with_reducible apply keeps_ite
    | fail_if_no_progress with_reducible apply keeps_mk
    | split

theorem keeps_execTileBr {s0 : State} {core : Fin 64} {s : State}
    (h : Keeps s0 s) :
    KeepsOn s0 (execTileBr core s) := by
  unfold execTileBr
  try dsimp only
  repeat' first
    | with_reducible assumption
    | intro _
    | with_reducible apply keeps_State_modCore
    | with_reducible apply keeps_State_tile
    | with_reducible apply keepsRes_fault
    | with_reducible apply keepsRes_retire
    | with_reducible apply keepsRes_stay
    | with_reducible apply keepsRes_ite
    | with_reducible apply keepsOn_next

theorem keeps_execTileLoop {s0 : State} {core : Fin 64} {s : State}
    (h : Keeps s0 s) :
    KeepsOn s0 (execTileLoop core s) := by
  unfold execTileLoop
  try dsimp only
  repeat' first
    | with_reducible assumption
    | intro _
    | with_reducible apply keeps_State_modCore
    | with_reducible apply keeps_State_tile
    | with_reducible apply keepsRes_fault
    | with_reducible apply keepsRes_retire
    | with_reducible apply keepsRes_stay
    | with_reducible apply keepsRes_ite
    | with_reducible apply keepsOn_next

theorem keeps_execTileMode {s0 : State} {core : Fin 64} {s : State}
    (h : Keeps s0 s) :
    KeepsOn s0 (execTileMode core s) := by
  unfold execTileMode
  try dsimp only
  repeat' first
    | with_reducible assumption
    | intro _
    | with_reducible apply keeps_State_modCore
    | with_reducible apply keeps_State_tile
    | with_reducible apply keepsRes_fault
    | with_reducible apply keepsRes_retire
    | with_reducible apply keepsRes_stay
    | with_reducible apply keepsRes_ite
    | with_reducible apply keepsOn_next

theorem keeps_execTileLive {s0 : State} {core : Fin 64} {s : State}
    (h : Keeps s0 s) :
    KeepsOn s0 (execTileLive core s) := by
  unfold execTileLive
  try dsimp only
  repeat' first
    | with_reducible assumption
    | intro _
    | with_reducible apply keeps_State_modCore
    | with_reducible apply keeps_State_tile
    | with_reducible apply keepsRes_fault
    | with_reducible apply keepsRes_retire
    | with_reducible apply keepsRes_stay
    | with_reducible apply keepsRes_ite
    | with_reducible apply keepsOn_next

theorem keeps_execTileSnap {s0 : State} {core : Fin 64} {s : State}
    (h : Keeps s0 s) :
    KeepsOn s0 (execTileSnap core s) := by
  unfold execTileSnap
  try dsimp only
  repeat' first
    | with_reducible assumption
    | intro _
    | with_reducible apply keeps_State_quillUp
    | with_reducible apply keeps_State_tile
    | with_reducible apply keepsRes_fault
    | with_reducible apply keepsRes_retire
    | with_reducible apply keepsRes_stay
    | with_reducible apply keepsRes_ite
    | with_reducible apply keepsOn_next
    | with_reducible apply keeps_ite
    | with_reducible apply keeps_foldl
    | with_reducible apply keeps_forN
    | fail_if_no_progress with_reducible apply keeps_mk

theorem keeps_execTileDma {s0 : State} {core : Fin 64} {s : State}
    (h : Keeps s0 s) :
    KeepsOn s0 (execTileDma core s) := by
  unfold execTileDma
  try dsimp only
  repeat' first
    | with_reducible assumption
    | intro _
    | with_reducible apply keepsOn_next
    | with_reducible apply keepsRes_fault
    | with_reducible apply keepsRes_retire
    | with_reducible apply keepsRes_stay
    | with_reducible apply keepsRes_work
    | with_reducible apply keepsRes_ite
    | with_reducible apply keeps_State_tile
    | with_reducible apply keeps_State_retire
    | with_reducible apply keeps_State_modCore
    | with_reducible apply keeps_ite
    | fail_if_no_progress with_reducible apply keeps_mk
    | split

theorem keeps_execTileDmaw {s0 : State} {core : Fin 64} {s : State}
    (h : Keeps s0 s) :
    KeepsOn s0 (execTileDmaw core s) := by
  unfold execTileDmaw
  try dsimp only
  repeat' first
    | with_reducible assumption
    | intro _
    | with_reducible apply keeps_State_modCore
    | with_reducible apply keeps_State_tile
    | with_reducible apply keepsRes_fault
    | with_reducible apply keepsRes_retire
    | with_reducible apply keepsRes_stay
    | with_reducible apply keepsRes_ite
    | with_reducible apply keepsOn_next

theorem keeps_execDmaComplete {s0 : State} {core : Fin 64} {tag : Fin 16} {host : List (BitVec 8)} {s : State}
    (h : Keeps s0 s) :
    KeepsOn s0 (execDmaComplete core tag host s) := by
  unfold execDmaComplete
  try dsimp only
  repeat' first
    | with_reducible assumption
    | intro _
    | with_reducible apply keepsOn_next
    | with_reducible apply keeps_State_modCore
    | with_reducible apply keeps_State_noteDeny
    | with_reducible apply keeps_State_hoardOut (keeps_State_dmaRun (by with_reducible assumption))
    | with_reducible apply keeps_State_hoardOut
    | with_reducible refine keeps_State_dmaRun_eq ?_ (by with_reducible assumption)
    | with_reducible apply keeps_State_dmaRun
    | with_reducible apply keeps_State_wake
    | with_reducible apply keeps_ite
    | fail_if_no_progress with_reducible apply keeps_mk
    | split

theorem keeps_State_lmElem {s0 : State} {c : Nat} {f : Nat} {a : Nat} {i : Nat} {raw : Nat} {s : State}
    (h : Keeps s0 s) :
    Keeps s0 (State.lmElem c f a i raw s) := by
  unfold State.lmElem
  try dsimp only
  repeat' first
    | with_reducible assumption
    | intro _
    | with_reducible apply keeps_State_modCore
    | with_reducible apply keeps_ite
    | fail_if_no_progress with_reducible apply keeps_mk
    | split

theorem keeps_State_lmElem32 {s0 : State} {c : Nat} {a : Nat} {i : Nat} {v : FV} {s : State}
    (h : Keeps s0 s) :
    Keeps s0 (State.lmElem32 c a i v s) := by
  unfold State.lmElem32
  try dsimp only
  repeat' first
    | with_reducible assumption
    | intro _
    | with_reducible apply keeps_State_lmElem
    | with_reducible apply keeps_ite
    | split

theorem keeps_State_lmPut32 {s0 : State} {c : Nat} {a : Nat} {vals : List FV} {s : State}
    (h : Keeps s0 s) :
    Keeps s0 (State.lmPut32 c a vals s) := by
  unfold State.lmPut32
  try dsimp only
  repeat' first
    | with_reducible assumption
    | intro _
    | with_reducible apply keeps_State_lmWr

theorem keeps_State_accPut {s0 : State} {c : Nat} {i : Nat} {r : W32 × Bool} {s : State}
    (h : Keeps s0 s) :
    Keeps s0 (State.accPut c i r s) := by
  unfold State.accPut
  try dsimp only
  repeat' first
    | with_reducible assumption
    | intro _
    | with_reducible apply keeps_State_modCore
    | with_reducible apply keeps_State_errQuant
    | with_reducible apply keeps_ite
    | fail_if_no_progress with_reducible apply keeps_mk
    | split

theorem keeps_execTileMma {s0 : State} {core : Fin 64} {s : State}
    (h : Keeps s0 s) :
    KeepsOn s0 (execTileMma core s) := by
  unfold execTileMma
  try dsimp only
  repeat' first
    | with_reducible assumption
    | intro _
    | with_reducible apply keepsOn_next
    | with_reducible apply keepsRes_fault
    | with_reducible apply keepsRes_retire
    | with_reducible apply keepsRes_stay
    | with_reducible apply keepsRes_work
    | with_reducible apply keepsRes_ite
    | with_reducible apply keeps_State_tile
    | with_reducible apply keeps_State_accPut
    | with_reducible apply keeps_ite
    | fail_if_no_progress with_reducible apply keeps_mk
    | split

theorem keeps_execTileVop {s0 : State} {core : Fin 64} {s : State}
    (h : Keeps s0 s) :
    KeepsOn s0 (execTileVop core s) := by
  unfold execTileVop
  try dsimp only
  repeat' first
    | with_reducible assumption
    | intro _
    | with_reducible apply keepsOn_next
    | with_reducible apply keepsRes_fault
    | with_reducible apply keepsRes_retire
    | with_reducible apply keepsRes_stay
    | with_reducible apply keepsRes_work
    | with_reducible apply keepsRes_ite
    | with_reducible apply keeps_State_tile
    | with_reducible apply keeps_State_lmElem32
    | with_reducible apply keeps_id
    | with_reducible apply keeps_ite
    | fail_if_no_progress with_reducible apply keeps_mk
    | split

theorem keeps_execTileVpwl {s0 : State} {core : Fin 64} {s : State}
    (h : Keeps s0 s) :
    KeepsOn s0 (execTileVpwl core s) := by
  unfold execTileVpwl
  try dsimp only
  repeat' first
    | with_reducible assumption
    | intro _
    | with_reducible apply keepsOn_next
    | with_reducible apply keepsRes_fault
    | with_reducible apply keepsRes_retire
    | with_reducible apply keepsRes_stay
    | with_reducible apply keepsRes_work
    | with_reducible apply keepsRes_ite
    | with_reducible apply keeps_State_tile
    | with_reducible apply keeps_State_lmElem32
    | with_reducible apply keeps_id
    | with_reducible apply keeps_ite
    | fail_if_no_progress with_reducible apply keeps_mk
    | split

theorem keeps_execTileCurve {s0 : State} {core : Fin 64} {s : State}
    (h : Keeps s0 s) :
    KeepsOn s0 (execTileCurve core s) := by
  unfold execTileCurve
  try dsimp only
  repeat' first
    | with_reducible assumption
    | intro _
    | with_reducible apply keeps_State_modCore
    | with_reducible apply keeps_State_tile
    | with_reducible apply keepsRes_fault
    | with_reducible apply keepsRes_retire
    | with_reducible apply keepsRes_stay
    | with_reducible apply keepsRes_ite
    | with_reducible apply keepsOn_next
    | with_reducible apply keeps_ite
    | with_reducible apply keeps_foldl
    | with_reducible apply keeps_forN
    | fail_if_no_progress with_reducible apply keeps_mk
    | split

theorem keeps_State_converts {s0 : State} {c : Nat} {f : Conversion → Conversion} {a : Nat} {s : State}
    (h : Keeps s0 s) :
    Keeps s0 (State.converts c f a s) := by
  unfold State.converts
  try dsimp only
  repeat' first
    | with_reducible assumption
    | intro _
    | with_reducible apply keeps_State_modCore
    | with_reducible apply keeps_ite
    | fail_if_no_progress with_reducible apply keeps_mk
    | split

theorem keeps_execTileVcvt {s0 : State} {core : Fin 64} {s : State}
    (h : Keeps s0 s) :
    KeepsOn s0 (execTileVcvt core s) := by
  unfold execTileVcvt
  try dsimp only
  repeat' first
    | with_reducible assumption
    | intro _
    | with_reducible apply keepsOn_next
    | with_reducible apply keepsRes_fault
    | with_reducible apply keepsRes_retire
    | with_reducible apply keepsRes_stay
    | with_reducible apply keepsRes_work
    | with_reducible apply keepsRes_ite
    | with_reducible apply keeps_State_tile
    | with_reducible apply keeps_State_converts
    | with_reducible apply keeps_id
    | with_reducible apply keeps_ite
    | with_reducible apply keeps_foldl
    | fail_if_no_progress with_reducible apply keeps_mk
    | split

theorem keeps_execTileVred {s0 : State} {core : Fin 64} {s : State}
    (h : Keeps s0 s) :
    KeepsOn s0 (execTileVred core s) := by
  unfold execTileVred
  try dsimp only
  repeat' first
    | with_reducible assumption
    | intro _
    | with_reducible apply keepsOn_next
    | with_reducible apply keepsRes_fault
    | with_reducible apply keepsRes_retire
    | with_reducible apply keepsRes_stay
    | with_reducible apply keepsRes_work
    | with_reducible apply keepsRes_ite
    | with_reducible apply keeps_State_tile
    | with_reducible apply keeps_State_lmElem32
    | with_reducible apply keeps_id
    | with_reducible apply keeps_ite
    | fail_if_no_progress with_reducible apply keeps_mk
    | split

theorem keeps_State_descOf {s0 : State} {s : State} {c : Nat} {w : W128} {k : List Byte → TileRes}
    (h : Keeps s0 s) (hk : ∀ v0, KeepsRes s0 (k v0)) :
    KeepsRes s0 (State.descOf s c w k) := by
  unfold State.descOf
  try dsimp only
  repeat' first
    | with_reducible assumption
    | intro _
    | with_reducible apply hk
    | with_reducible apply keepsRes_fault
    | with_reducible apply keepsRes_retire
    | with_reducible apply keepsRes_stay
    | with_reducible apply keepsRes_ite
    | with_reducible apply keeps_ite
    | with_reducible apply keeps_foldl
    | with_reducible apply keeps_forN
    | fail_if_no_progress with_reducible apply keeps_mk
    | split

theorem keeps_State_operands {s0 : State} {s : State} {c : Nat} {rds : List (Nat × Nat)} {wrs : List (Nat × Nat)} {k : TileRes}
    (h : Keeps s0 s) (hk : KeepsRes s0 k) :
    KeepsRes s0 (State.operands s c rds wrs k) := by
  unfold State.operands
  try dsimp only
  repeat' first
    | with_reducible assumption
    | intro _
    | with_reducible apply hk
    | with_reducible apply keepsRes_fault
    | with_reducible apply keepsRes_retire
    | with_reducible apply keepsRes_stay
    | with_reducible apply keepsRes_ite
    | with_reducible apply keeps_ite
    | with_reducible apply keeps_foldl
    | with_reducible apply keeps_forN
    | fail_if_no_progress with_reducible apply keeps_mk
    | split

theorem keeps_State_epiUnit {s0 : State} {c : Nat} {d : List Byte} {st : List Stg} {e : Nat} {s : State}
    (h : Keeps s0 s) :
    Keeps s0 (State.epiUnit c d st e s) := by
  unfold State.epiUnit
  try dsimp only
  repeat' first
    | with_reducible assumption
    | intro _
    | with_reducible apply keeps_State_converts
    | with_reducible apply keeps_ite
    | split

theorem keeps_State_epiWhole {s0 : State} {c : Nat} {d : List Byte} {st : List Stg} {s : State}
    (h : Keeps s0 s) :
    Keeps s0 (State.epiWhole c d st s) := by
  unfold State.epiWhole
  try dsimp only
  repeat' first
    | with_reducible assumption
    | intro _
    | with_reducible apply keeps_State_converts
    | with_reducible apply keeps_ite
    | split

theorem keeps_execTileEpi {s0 : State} {core : Fin 64} {s : State}
    (h : Keeps s0 s) :
    KeepsOn s0 (execTileEpi core s) := by
  unfold execTileEpi
  try dsimp only
  repeat' first
    | with_reducible assumption
    | intro _
    | with_reducible apply keepsOn_next
    | with_reducible apply keepsRes_fault
    | with_reducible apply keepsRes_retire
    | with_reducible apply keepsRes_stay
    | with_reducible apply keepsRes_work
    | with_reducible apply keepsRes_ite
    | with_reducible apply keeps_State_tile
    | with_reducible apply keeps_State_descOf
    | with_reducible apply keeps_State_operands
    | with_reducible apply keeps_State_epiWhole
    | with_reducible apply keeps_State_epiUnit
    | with_reducible apply keeps_id
    | with_reducible apply keeps_ite
    | fail_if_no_progress with_reducible apply keeps_mk
    | split

theorem keeps_execTileWin {s0 : State} {core : Fin 64} {s : State}
    (h : Keeps s0 s) :
    KeepsOn s0 (execTileWin core s) := by
  unfold execTileWin
  try dsimp only
  repeat' first
    | with_reducible assumption
    | intro _
    | with_reducible apply keepsOn_next
    | with_reducible apply keepsRes_fault
    | with_reducible apply keepsRes_retire
    | with_reducible apply keepsRes_stay
    | with_reducible apply keepsRes_work
    | with_reducible apply keepsRes_ite
    | with_reducible apply keeps_State_tile
    | with_reducible apply keeps_State_descOf
    | with_reducible apply keeps_State_operands
    | with_reducible apply keeps_State_accPut
    | with_reducible apply keeps_State_lmElem32
    | with_reducible apply keeps_State_lmElem
    | with_reducible apply keeps_id
    | with_reducible apply keeps_ite
    | split

theorem keeps_State_rstepStore {s0 : State} {c : Nat} {r : Recur} {t : Nat} {out : List (List FV × List FV × OpBits)} {s : State}
    (h : Keeps s0 s) :
    Keeps s0 (State.rstepStore c r t out s) := by
  unfold State.rstepStore
  try dsimp only
  repeat' first
    | with_reducible assumption
    | intro _
    | with_reducible apply keeps_State_lmWr
    | with_reducible apply keeps_State_errQuant
    | with_reducible apply keeps_ite
    | with_reducible apply keeps_foldl
    | fail_if_no_progress with_reducible apply keeps_mk
    | split

theorem keeps_State_rstepUnit {s0 : State} {c : Nat} {r : Recur} {sig : List W32} {tan_ : List W32} {t : Nat} {s : State}
    (h : Keeps s0 s) :
    Keeps s0 (State.rstepUnit c r sig tan_ t s) := by
  unfold State.rstepUnit
  try dsimp only
  repeat' first
    | with_reducible assumption
    | intro _
    | with_reducible apply keeps_State_rstepStore
    | with_reducible apply keeps_ite
    | split

theorem keeps_execTileRstep {s0 : State} {core : Fin 64} {s : State}
    (h : Keeps s0 s) :
    KeepsOn s0 (execTileRstep core s) := by
  unfold execTileRstep
  try dsimp only
  repeat' first
    | with_reducible assumption
    | intro _
    | with_reducible apply keepsOn_next
    | with_reducible apply keepsRes_fault
    | with_reducible apply keepsRes_retire
    | with_reducible apply keepsRes_stay
    | with_reducible apply keepsRes_work
    | with_reducible apply keepsRes_ite
    | with_reducible apply keeps_State_tile
    | with_reducible apply keeps_State_descOf
    | with_reducible apply keeps_State_operands
    | with_reducible apply keeps_State_rstepUnit
    | with_reducible apply keeps_ite
    | split

theorem keeps_State_attnPut {s0 : State} {c : Nat} {sa : Nat} {da : Nat} {nq : Nat} {D : Nat} {final : Bool} {out : List Attn} {s : State}
    (h : Keeps s0 s) :
    Keeps s0 (State.attnPut c sa da nq D final out s) := by
  unfold State.attnPut
  try dsimp only
  repeat' first
    | with_reducible assumption
    | intro _
    | with_reducible apply keeps_State_lmPut32
    | with_reducible apply keeps_ite
    | split

theorem keeps_execTileAttn {s0 : State} {core : Fin 64} {s : State}
    (h : Keeps s0 s) :
    KeepsOn s0 (execTileAttn core s) := by
  unfold execTileAttn
  try dsimp only
  repeat' first
    | with_reducible assumption
    | intro _
    | with_reducible apply keepsOn_next
    | with_reducible apply keepsRes_fault
    | with_reducible apply keepsRes_retire
    | with_reducible apply keepsRes_stay
    | with_reducible apply keepsRes_work
    | with_reducible apply keepsRes_ite
    | with_reducible apply keeps_State_tile
    | with_reducible apply keeps_State_descOf
    | with_reducible apply keeps_State_operands
    | with_reducible apply keeps_State_attnPut
    | with_reducible apply keeps_ite
    | fail_if_no_progress with_reducible apply keeps_mk
    | split

theorem keeps_State_coreFired {s0 : State} {c : Nat} {late : Nat} {skipped : Bool} {s : State}
    (h : Keeps s0 s) :
    Keeps s0 (State.coreFired c late skipped s) := by
  unfold State.coreFired
  try dsimp only
  repeat' first
    | with_reducible assumption
    | intro _
    | with_reducible apply keeps_State_coreEvent
    | with_reducible apply keeps_State_modCore
    | with_reducible apply keeps_State_waitEnds
    | with_reducible apply keeps_ite
    | fail_if_no_progress with_reducible apply keeps_mk
    | split

theorem keeps_execTileSig {s0 : State} {core : Fin 64} {s : State}
    (h : Keeps s0 s) :
    KeepsOn s0 (execTileSig core s) := by
  unfold execTileSig
  try dsimp only
  repeat' first
    | with_reducible assumption
    | intro _
    | with_reducible apply keeps_State_tile
    | with_reducible apply keepsRes_fault
    | with_reducible apply keepsRes_retire
    | with_reducible apply keepsRes_stay
    | with_reducible apply keepsRes_ite
    | with_reducible apply keepsOn_next
    | with_reducible apply keeps_ite
    | with_reducible apply keeps_foldl
    | with_reducible apply keeps_forN
    | fail_if_no_progress with_reducible apply keeps_mk
    | split

theorem keeps_State_addSaved {s0 : State} {j : Nat} {x : Job} {cell : Nat} {v : Nat} {s : State}
    (h : Keeps s0 s) :
    Keeps s0 (State.addSaved j x cell v s) := by
  unfold State.addSaved
  try dsimp only
  repeat' first
    | with_reducible assumption
    | intro _
    | with_reducible apply keeps_State_errSync
    | with_reducible apply keeps_State_modJob
    | with_reducible apply keeps_State_noteDeny
    | with_reducible apply keeps_State_dropSignal
    | with_reducible apply keeps_State_devWrite
    | with_reducible apply keeps_ite
    | fail_if_no_progress with_reducible apply keeps_mk
    | split

theorem keeps_State_applySignal {s0 : State} {i : Nat} {g : Signal} {s : State}
    (h : Keeps s0 s) :
    Keeps s0 (State.applySignal i g s) := by
  unfold State.applySignal
  try dsimp only
  repeat' first
    | with_reducible assumption
    | intro _
    | with_reducible apply keeps_State_addCell
    | with_reducible apply keeps_State_wake
    | with_reducible apply keeps_State_dropSignal
    | with_reducible apply keeps_State_addSaved
    | with_reducible apply keeps_ite
    | fail_if_no_progress with_reducible apply keeps_mk
    | split

theorem keeps_execSignalDelivery {s0 : State} {k : Nat} {s : State}
    (h : Keeps s0 s) :
    KeepsOn s0 (execSignalDelivery k s) := by
  unfold execSignalDelivery
  try dsimp only
  repeat' first
    | with_reducible assumption
    | intro _
    | with_reducible apply keepsOn_next
    | with_reducible apply keeps_State_applySignal
    | with_reducible apply keeps_State_dropSignal
    | with_reducible refine keeps_State_sendTo ?_ _ (by with_reducible assumption)
    | with_reducible apply keeps_ite
    | fail_if_no_progress with_reducible apply keeps_mk
    | split

theorem keeps_execTileSwait {s0 : State} {core : Fin 64} {s : State}
    (h : Keeps s0 s) :
    KeepsOn s0 (execTileSwait core s) := by
  unfold execTileSwait
  try dsimp only
  repeat' first
    | with_reducible assumption
    | intro _
    | with_reducible apply keeps_State_modCore
    | with_reducible refine keeps_State_trySwait ?_ _ (by with_reducible assumption)
    | with_reducible apply keeps_State_tile
    | with_reducible apply keepsRes_fault
    | with_reducible apply keepsRes_retire
    | with_reducible apply keepsRes_stay
    | with_reducible apply keepsRes_ite
    | with_reducible apply keepsOn_next
    | with_reducible apply keeps_ite
    | with_reducible apply keeps_foldl
    | with_reducible apply keeps_forN
    | fail_if_no_progress with_reducible apply keeps_mk
    | split

theorem keeps_execSwaitTimeout {s0 : State} {core : Fin 64} {tie : Bool} {s : State}
    (h : Keeps s0 s) :
    KeepsOn s0 (execSwaitTimeout core tie s) := by
  unfold execSwaitTimeout
  try dsimp only
  repeat' first
    | with_reducible assumption
    | intro _
    | with_reducible apply keepsOn_next
    | with_reducible refine keeps_State_trySwait ?_ _ (by with_reducible assumption)
    | with_reducible apply keeps_State_wake
    | with_reducible apply keeps_State_modCore
    | with_reducible apply keeps_State_waitEnds
    | with_reducible apply keeps_State_applySignal
    | with_reducible apply keeps_State_tie
    | with_reducible apply keeps_ite
    | fail_if_no_progress with_reducible apply keeps_mk
    | split

theorem keeps_execTileTwait {s0 : State} {core : Fin 64} {s : State}
    (h : Keeps s0 s) :
    KeepsOn s0 (execTileTwait core s) := by
  unfold execTileTwait
  try dsimp only
  repeat' first
    | with_reducible assumption
    | intro _
    | with_reducible apply keeps_State_modCore
    | with_reducible apply keeps_State_arm
    | with_reducible apply keeps_State_tile
    | with_reducible apply keepsRes_fault
    | with_reducible apply keepsRes_retire
    | with_reducible apply keepsRes_stay
    | with_reducible apply keepsRes_ite
    | with_reducible apply keepsOn_next

theorem keeps_execTileWait {s0 : State} {core : Fin 64} {dozeRc : Nat} {s : State}
    (h : Keeps s0 s) :
    KeepsOn s0 (execTileWait core dozeRc s) := by
  unfold execTileWait
  try dsimp only
  repeat' first
    | with_reducible assumption
    | intro _
    | with_reducible apply keepsOn_next
    | with_reducible apply keepsRes_fault
    | with_reducible apply keepsRes_retire
    | with_reducible apply keepsRes_stay
    | with_reducible apply keepsRes_work
    | with_reducible apply keepsRes_ite
    | with_reducible apply keeps_State_tile
    | with_reducible apply keeps_State_retire
    | with_reducible apply keeps_State_modCore
    | with_reducible apply keeps_State_arm
    | with_reducible apply keeps_ite
    | fail_if_no_progress with_reducible apply keeps_mk
    | split

theorem keeps_execCompareWakeMessage {s0 : State} {core : Fin 64} {s : State}
    (h : Keeps s0 s) :
    KeepsOn s0 (execCompareWakeMessage core s) := by
  unfold execCompareWakeMessage
  try dsimp only
  repeat' first
    | with_reducible assumption
    | intro _
    | with_reducible apply keepsOn_next
    | with_reducible apply keeps_State_modCore
    | with_reducible apply keeps_State_coreFired
    | with_reducible apply keeps_ite
    | fail_if_no_progress with_reducible apply keeps_mk
    | split

theorem keeps_execDeadlockDetect {s0 : State} {deadlineNear : Bool} {arrival : Bool} {s : State}
    (h : Keeps s0 s) :
    KeepsOn s0 (execDeadlockDetect deadlineNear arrival s) := by
  unfold execDeadlockDetect
  try dsimp only
  repeat' first
    | with_reducible assumption
    | intro _
    | with_reducible apply keeps_State_failJob
    | with_reducible apply keeps_State_errSync
    | with_reducible apply keeps_State_trigger
    | with_reducible apply keeps_State_tie
    | with_reducible apply keepsOn_next
    | with_reducible apply keeps_ite
    | with_reducible apply keeps_foldl
    | with_reducible apply keeps_forN
    | fail_if_no_progress with_reducible apply keeps_mk
    | split

theorem keeps_State_writeDlCtrl {s0 : State} {v : W32} {s : State}
    (h : Keeps s0 s) :
    Keeps s0 (State.writeDlCtrl v s) := by
  unfold State.writeDlCtrl
  try dsimp only
  repeat' first
    | with_reducible assumption
    | intro _
    | with_reducible apply keeps_State_errSync
    | with_reducible apply keeps_ite
    | with_reducible apply keeps_foldl
    | with_reducible apply keeps_forN
    | fail_if_no_progress with_reducible apply keeps_mk

theorem keeps_execSchDlCtrlWrite {s0 : State} {v : BitVec 32} {s : State}
    (h : Keeps s0 s) :
    KeepsOn s0 (execSchDlCtrlWrite v s) := by
  unfold execSchDlCtrlWrite
  try dsimp only
  repeat' first
    | with_reducible assumption
    | intro _
    | with_reducible apply keeps_State_writeDlCtrl
    | with_reducible apply keepsOn_next

theorem keeps_State_latchPort {s0 : State} {words : List (List (List W32))} {n : Nat} {s : State}
    (h : Keeps s0 s) :
    Keeps s0 (State.latchPort words n s) := by
  unfold State.latchPort
  try dsimp only
  repeat' first
    | with_reducible assumption
    | intro _
    | with_reducible apply keeps_State_latch
    | with_reducible apply keeps_State_modPort
    | with_reducible apply keeps_State_errAud
    | with_reducible apply keeps_ite
    | fail_if_no_progress with_reducible apply keeps_mk
    | split

theorem keeps_State_drivePorts {s0 : State} {words : List (List (List W32))} {l : List (Nat × Int)} {s : State}
    (h : Keeps s0 s) :
    Keeps s0 (State.drivePorts words l s) := by
  unfold State.drivePorts
  try dsimp only
  repeat' first
    | with_reducible assumption
    | intro _
    | with_reducible apply keeps_State_modPort
    | with_reducible apply keeps_ite
    | with_reducible apply keeps_forN
    | fail_if_no_progress with_reducible apply keeps_mk
    | split

theorem keeps_State_stopPorts {s0 : State} {s : State}
    (h : Keeps s0 s) :
    Keeps s0 (State.stopPorts s) := by
  unfold State.stopPorts
  try dsimp only
  repeat' first
    | with_reducible assumption
    | intro _
    | with_reducible apply keeps_State_modPort
    | with_reducible apply keeps_ite
    | with_reducible apply keeps_forN
    | fail_if_no_progress with_reducible apply keeps_mk
    | split

theorem keeps_State_usbFrame {s0 : State} {l : List (Nat × Int)} {s : State}
    (h : Keeps s0 s) :
    Keeps s0 (State.usbFrame l s) := by
  unfold State.usbFrame
  try dsimp only
  repeat' first
    | with_reducible assumption
    | intro _
    | with_reducible apply keeps_State_errAud
    | with_reducible apply keeps_ite
    | fail_if_no_progress with_reducible apply keeps_mk
    | split

theorem keeps_State_audioFrame {s0 : State} {f : Nat} {words : List (List (List W32))} {s : State}
    (h : Keeps s0 s) :
    Keeps s0 (State.audioFrame f words s) := by
  unfold State.audioFrame
  try dsimp only
  repeat' first
    | with_reducible assumption
    | intro _
    | with_reducible apply keeps_State_drivePorts
    | with_reducible apply keeps_State_usbFrame
    | with_reducible apply keeps_ite
    | fail_if_no_progress with_reducible apply keeps_mk
    | split

theorem keeps_State_rootSettle {s0 : State} {s : State}
    (h : Keeps s0 s) :
    Keeps s0 (State.rootSettle s) := by
  unfold State.rootSettle
  try dsimp only
  repeat' first
    | with_reducible assumption
    | intro _
    | with_reducible apply keeps_State_served
    | with_reducible apply keeps_ite
    | fail_if_no_progress with_reducible apply keeps_mk
    | split

theorem keeps_State_frameWork {s0 : State} {f : Nat} {words : List (List (List W32))} {s : State}
    (h : Keeps s0 s) :
    Keeps s0 (State.frameWork f words s) := by
  unfold State.frameWork
  try dsimp only
  repeat' first
    | with_reducible assumption
    | intro _
    | with_reducible apply keeps_State_latchPort
    | with_reducible apply keeps_State_audioFrame
    | with_reducible apply keeps_State_stopPorts
    | with_reducible apply keeps_ite
    | with_reducible apply keeps_forN
    | split

theorem keeps_State_beaconOut {s0 : State} {s : State}
    (h : Keeps s0 s) :
    Keeps s0 (State.beaconOut s) := by
  unfold State.beaconOut
  try dsimp only
  repeat' first
    | with_reducible assumption
    | intro _
    | with_reducible apply keeps_State_sendMarker
    | with_reducible apply keeps_State_sendFull
    | with_reducible apply keeps_ite
    | split

theorem keeps_execSfcTick {s0 : State} {words : List (List (List (BitVec 32)))} {lost : BitVec 4} {s : State}
    (h : Keeps s0 s) :
    KeepsOn s0 (execSfcTick words lost s) := by
  unfold execSfcTick
  try dsimp only
  repeat' first
    | with_reducible assumption
    | intro _
    | with_reducible apply keepsOn_next
    | with_reducible apply keeps_State_modDie
    | with_reducible apply keeps_State_mark
    | with_reducible apply keeps_State_beaconOut
    | with_reducible apply keeps_State_frameWork
    | with_reducible apply keeps_State_rootSettle
    | with_reducible apply keeps_State_tellQuiet
    | with_reducible apply keeps_ite
    | with_reducible apply keeps_forN
    | fail_if_no_progress with_reducible apply keeps_mk
    | split

theorem keeps_State_blockJob {s0 : State} {hd : Nat} {b : Nat} {x : Stream} {data : List Byte} {s : State}
    (h : Keeps s0 s) :
    Keeps s0 (State.blockJob hd b x data s) := by
  unfold State.blockJob
  have k : ∀ (f : Core → Core) (g : Stream → Stream) (j : Job), Keeps s0 (((s.modCore (x.homeOf b) f).modStream hd g).newJob j) :=
    fun f g j => keeps_State_newJob (keeps_State_modStream (keeps_State_modCore h))
  exact keeps_ite h (keeps_ite (keeps_State_preempt (keeps_ite (keeps_State_coreEvent (k _ _ _)) (k _ _ _)))
    (keeps_ite (keeps_State_coreEvent (k _ _ _)) (k _ _ _)))

theorem keeps_execBlockDelivery {s0 : State} {hd : Fin 256} {s : State}
    (h : Keeps s0 s) :
    KeepsOn s0 (execBlockDelivery hd s) := by
  unfold execBlockDelivery
  try dsimp only
  repeat' first
    | with_reducible assumption
    | intro _
    | with_reducible apply keepsOn_next
    | with_reducible apply keeps_State_modStream
    | with_reducible apply keeps_State_tellStream
    | with_reducible apply keeps_State_blockJob
    | with_reducible refine keeps_State_sendTo ?_ _ (by with_reducible assumption)
    | with_reducible apply keeps_ite
    | fail_if_no_progress with_reducible apply keeps_mk
    | split

theorem keeps_State_migrPost {s0 : State} {hd : Nat} {b : Nat} {s : State}
    (h : Keeps s0 s) :
    Keeps s0 (State.migrPost hd b s) := by
  unfold State.migrPost
  try dsimp only
  repeat' first
    | with_reducible assumption
    | intro _
    | with_reducible apply keeps_State_modStream
    | with_reducible apply keeps_State_finish
    | with_reducible apply keeps_ite
    | fail_if_no_progress with_reducible apply keeps_mk
    | split

theorem keeps_State_migrEnds {s0 : State} {hd : Nat} {b : Nat} {s : State}
    (h : Keeps s0 s) :
    Keeps s0 (State.migrEnds hd b s) := by
  unfold State.migrEnds
  try dsimp only
  repeat' first
    | with_reducible assumption
    | intro _
    | with_reducible apply keeps_State_migrPost
    | with_reducible apply keeps_State_tellStream
    | with_reducible apply keeps_State_modStream
    | with_reducible apply keeps_ite
    | fail_if_no_progress with_reducible apply keeps_mk
    | split

theorem keeps_State_exportState {s0 : State} {hd : Nat} {b : Nat} {s : State}
    (h : Keeps s0 s) :
    Keeps s0 (State.exportState hd b s) := by
  unfold State.exportState
  try dsimp only
  repeat' first
    | with_reducible assumption
    | intro _
    | with_reducible refine keeps_State_sendStream ?_ _ (by with_reducible assumption)
    | with_reducible apply keeps_State_modStream
    | with_reducible apply keeps_State_tellStream
    | with_reducible refine keeps_State_sendTo ?_ _ (by with_reducible assumption)
    | with_reducible apply keeps_ite
    | fail_if_no_progress with_reducible apply keeps_mk
    | split

theorem keeps_State_guestBlockEnds {s0 : State} {hd : Nat} {b : Nat} {s : State}
    (h : Keeps s0 s) :
    Keeps s0 (State.guestBlockEnds hd b s) := by
  unfold State.guestBlockEnds
  try dsimp only
  repeat' first
    | with_reducible assumption
    | intro _
    | with_reducible apply keeps_State_modStream
    | with_reducible apply keeps_ite
    | fail_if_no_progress with_reducible apply keeps_mk
    | split

theorem keeps_State_after {s0 : State} {o : Host.Outcome State Fault Refusal} {s : State} (ho : KeepsOn s0 o) :
    Keeps s0 (State.after o s) := by
  obtain ⟨t, rfl, ht⟩ := ho
  exact ht

theorem keeps_State_toPoint {s0 : State} {c : Fin 64} {s : State}
    (h : Keeps s0 s) :
    Keeps s0 (State.toPoint c s) := by
  unfold State.toPoint
  try dsimp only
  repeat' first
    | with_reducible assumption
    | intro _
    | with_reducible apply keeps_State_modCore
    | with_reducible apply keeps_State_after
    | with_reducible apply keeps_execTileMma
    | with_reducible apply keeps_execTileVop
    | with_reducible apply keeps_execTileVpwl
    | with_reducible apply keeps_execTileVcvt
    | with_reducible apply keeps_execTileVred
    | with_reducible apply keeps_execTileEpi
    | with_reducible apply keeps_execTileWin
    | with_reducible apply keeps_execTileRstep
    | with_reducible apply keeps_execTileAttn
    | with_reducible apply keeps_ite
    | fail_if_no_progress with_reducible apply keeps_mk
    | split

theorem keeps_State_stopBlock {s0 : State} {j : Nat} {inside : Bool} {s : State}
    (h : Keeps s0 s) :
    Keeps s0 (State.stopBlock j inside s) := by
  unfold State.stopBlock
  try dsimp only
  repeat' first
    | with_reducible assumption
    | intro _
    | with_reducible apply keeps_State_toPoint
    | with_reducible apply keeps_State_endJob
    | with_reducible apply keeps_ite
    | fail_if_no_progress with_reducible apply keeps_mk
    | split

theorem keeps_execFetchPoint {s0 : State} {hd : Fin 256} {tie : Bool} {inside : Bool} {s : State}
    (h : Keeps s0 s) :
    KeepsOn s0 (execFetchPoint hd tie inside s) := by
  unfold execFetchPoint
  try dsimp only
  repeat' first
    | with_reducible assumption
    | intro _
    | with_reducible apply keepsOn_next
    | with_reducible apply keeps_State_stopBlock
    | with_reducible apply keeps_State_guestBlockEnds
    | with_reducible apply keeps_State_modStream
    | with_reducible apply keeps_State_exportState
    | with_reducible apply keeps_State_migrEnds
    | with_reducible apply keeps_State_tie
    | with_reducible apply keeps_State_errAud
    | with_reducible apply keeps_ite
    | fail_if_no_progress with_reducible apply keeps_mk
    | split

theorem keeps_execStreamCloseBoundary {s0 : State} {hd : Fin 256} {s : State}
    (h : Keeps s0 s) :
    KeepsOn s0 (execStreamCloseBoundary hd s) := by
  unfold execStreamCloseBoundary
  try dsimp only
  repeat' first
    | with_reducible assumption
    | intro _
    | with_reducible apply keepsOn_next
    | with_reducible apply keeps_State_tellStream
    | with_reducible apply keeps_State_finish
    | with_reducible apply keeps_ite
    | with_reducible apply keeps_foldl
    | fail_if_no_progress with_reducible apply keeps_mk
    | split

theorem keeps_State_exciteFail {s0 : State} {p : Capture → Bool} {s : State}
    (h : Keeps s0 s) :
    Keeps s0 (State.exciteFail p s) := by
  unfold State.exciteFail
  try dsimp only
  repeat' first
    | with_reducible assumption
    | intro _
    | with_reducible apply keeps_State_capEnd
    | with_reducible apply keeps_ite
    | with_reducible apply keeps_foldl

theorem keeps_State_writeSpCtrl {s0 : State} {n : Nat} {v : W32} {s : State}
    (h : Keeps s0 s) :
    Keeps s0 (State.writeSpCtrl n v s) := by
  unfold State.writeSpCtrl
  try dsimp only
  repeat' first
    | with_reducible assumption
    | intro _
    | with_reducible apply keeps_State_errAud
    | with_reducible apply keeps_State_exciteFail
    | with_reducible apply keeps_State_modPort
    | with_reducible apply keeps_ite
    | fail_if_no_progress with_reducible apply keeps_mk
    | split

theorem keeps_execAudSpCtrlWrite {s0 : State} {n : Fin 4} {v : BitVec 32} {s : State}
    (h : Keeps s0 s) :
    KeepsOn s0 (execAudSpCtrlWrite n v s) := by
  unfold execAudSpCtrlWrite
  try dsimp only
  repeat' first
    | with_reducible assumption
    | intro _
    | with_reducible apply keeps_State_writeSpCtrl
    | with_reducible apply keepsOn_next

theorem keeps_State_mclkRun {s0 : State} {s : State}
    (h : Keeps s0 s) :
    Keeps s0 (State.mclkRun s) := by
  unfold State.mclkRun
  try dsimp only
  repeat' first
    | with_reducible assumption
    | intro _
    | with_reducible apply keeps_ite
    | fail_if_no_progress with_reducible apply keeps_mk
    | split

theorem keeps_State_writeMclk {s0 : State} {v : W32} {s : State}
    (h : Keeps s0 s) :
    Keeps s0 (State.writeMclk v s) := by
  unfold State.writeMclk
  try dsimp only
  repeat' first
    | with_reducible assumption
    | intro _
    | with_reducible apply keeps_State_errAud
    | with_reducible apply keeps_State_mclkRun
    | with_reducible apply keeps_ite
    | fail_if_no_progress with_reducible apply keeps_mk
    | split

theorem keeps_execAudMclkCtrlWrite {s0 : State} {v : BitVec 32} {s : State}
    (h : Keeps s0 s) :
    KeepsOn s0 (execAudMclkCtrlWrite v s) := by
  unfold execAudMclkCtrlWrite
  try dsimp only
  repeat' first
    | with_reducible assumption
    | intro _
    | with_reducible apply keeps_State_writeMclk
    | with_reducible apply keepsOn_next

theorem keeps_execPortClkLoss {s0 : State} {n : Fin 4} {s : State}
    (h : Keeps s0 s) :
    KeepsOn s0 (execPortClkLoss n s) := by
  unfold execPortClkLoss
  try dsimp only
  repeat' first
    | with_reducible assumption
    | intro _
    | with_reducible apply keeps_State_modPort
    | with_reducible apply keeps_State_exciteFail
    | with_reducible apply keeps_State_errAud
    | with_reducible apply keepsOn_next
    | with_reducible apply keeps_ite
    | with_reducible apply keeps_foldl
    | with_reducible apply keeps_forN
    | fail_if_no_progress with_reducible apply keeps_mk
    | split

theorem keeps_execPortClkReturn {s0 : State} {n : Fin 4} {s : State}
    (h : Keeps s0 s) :
    KeepsOn s0 (execPortClkReturn n s) := by
  unfold execPortClkReturn
  try dsimp only
  repeat' first
    | with_reducible assumption
    | intro _
    | with_reducible apply keepsOn_next
    | with_reducible apply keeps_State_modPort
    | with_reducible apply keeps_ite
    | fail_if_no_progress with_reducible apply keeps_mk
    | split

theorem keeps_execUsbSetCur {s0 : State} {hz : Nat} {s : State}
    (h : Keeps s0 s) :
    KeepsOn s0 (execUsbSetCur hz s) := by
  unfold execUsbSetCur
  try dsimp only
  repeat' first
    | with_reducible assumption
    | intro _
    | with_reducible apply keepsOn_next
    | with_reducible apply keeps_ite
    | fail_if_no_progress with_reducible apply keeps_mk
    | split

theorem keeps_execUsbSetInterface {s0 : State} {input : Bool} {alt : BitVec 2} {s : State}
    (h : Keeps s0 s) :
    KeepsOn s0 (execUsbSetInterface input alt s) := by
  unfold execUsbSetInterface
  try dsimp only
  repeat' first
    | with_reducible assumption
    | intro _
    | with_reducible apply keepsOn_next
    | with_reducible apply keeps_ite
    | with_reducible apply keeps_foldl
    | with_reducible apply keeps_forN
    | fail_if_no_progress with_reducible apply keeps_mk

theorem keeps_execUsbIsoOut {s0 : State} {frames : List (List (BitVec 32))} {s : State}
    (h : Keeps s0 s) :
    KeepsOn s0 (execUsbIsoOut frames s) := by
  unfold execUsbIsoOut
  try dsimp only
  repeat' first
    | with_reducible assumption
    | intro _
    | with_reducible apply keepsOn_next
    | with_reducible apply keeps_ite
    | with_reducible apply keeps_foldl
    | with_reducible apply keeps_forN
    | fail_if_no_progress with_reducible apply keeps_mk
    | split

theorem keeps_execUsbIsoIn {s0 : State} {n : Nat} {s : State}
    (h : Keeps s0 s) :
    KeepsOn s0 (execUsbIsoIn n s) := by
  unfold execUsbIsoIn
  try dsimp only
  repeat' first
    | with_reducible assumption
    | intro _
    | with_reducible apply keepsOn_next
    | with_reducible apply keeps_ite
    | with_reducible apply keeps_foldl
    | with_reducible apply keeps_forN
    | fail_if_no_progress with_reducible apply keeps_mk
    | split

theorem keeps_execUsbSuspend {s0 : State} {s : State}
    (h : Keeps s0 s) :
    KeepsOn s0 (execUsbSuspend s) := by
  unfold execUsbSuspend
  try dsimp only
  repeat' first
    | with_reducible assumption
    | intro _
    | with_reducible apply keepsOn_next
    | with_reducible apply keeps_ite
    | with_reducible apply keeps_foldl
    | with_reducible apply keeps_forN
    | fail_if_no_progress with_reducible apply keeps_mk

theorem keeps_execUsbResume {s0 : State} {s : State}
    (h : Keeps s0 s) :
    KeepsOn s0 (execUsbResume s) := by
  unfold execUsbResume
  try dsimp only
  repeat' first
    | with_reducible assumption
    | intro _
    | with_reducible apply keeps_State_wakeFire
    | with_reducible apply keepsOn_next
    | with_reducible apply keeps_ite
    | with_reducible apply keeps_foldl
    | with_reducible apply keeps_forN
    | fail_if_no_progress with_reducible apply keeps_mk

theorem keeps_State_append {s0 : State} {n : Nat} {bytes : List Byte} {s : State}
    (h : Keeps s0 s) :
    Keeps s0 (State.append n bytes s) := by
  unfold State.append
  try dsimp only
  repeat' first
    | with_reducible assumption
    | intro _
    | with_reducible apply keeps_State_wakeFire
    | with_reducible apply keeps_State_ringStore
    | with_reducible apply keeps_State_modRing
    | with_reducible apply keeps_ite
    | with_reducible apply keeps_foldl
    | with_reducible apply keeps_forN

theorem keeps_State_popEntry {s0 : State} {n : Nat} {s : State}
    (h : Keeps s0 s) :
    ∀ a0 t0, State.popEntry n s = some (a0, t0) → Keeps s0 t0 := by
  unfold State.popEntry
  intro a0 t0 he
  try dsimp only at he
  try dsimp only
  repeat' first
    | with_reducible assumption
    | intro _
    | with_reducible apply keeps_State_releaseHeld
    | with_reducible apply keeps_State_modRing
    | with_reducible apply keeps_ite
    | with_reducible apply keeps_foldl
    | with_reducible apply keeps_forN
    | fail_if_no_progress with_reducible apply keeps_mk
    | split
    | cases he
    | split at he

theorem keeps_State_bootBytes {s0 : State} {bytes : List Byte} {s : State}
    (h : Keeps s0 s) :
    Keeps s0 (State.bootBytes bytes s) := by
  unfold State.bootBytes
  try dsimp only
  repeat' first
    | with_reducible assumption
    | intro _
    | with_reducible apply keeps_State_poke
    | with_reducible apply keeps_ite
    | fail_if_no_progress with_reducible apply keeps_mk
    | split

theorem keeps_execUsbBulkOut {s0 : State} {bytes : List (BitVec 8)} {s : State}
    (h : Keeps s0 s) :
    KeepsOn s0 (execUsbBulkOut bytes s) := by
  unfold execUsbBulkOut
  try dsimp only
  repeat' first
    | with_reducible assumption
    | intro _
    | with_reducible apply keepsOn_next
    | with_reducible apply keeps_State_bootBytes
    | with_reducible apply keeps_State_append
    | with_reducible apply keeps_ite
    | fail_if_no_progress with_reducible apply keeps_mk
    | split

theorem keeps_execUsbBulkIn {s0 : State} {n : Nat} {s : State}
    (h : Keeps s0 s) :
    KeepsOn s0 (execUsbBulkIn n s) := by
  unfold execUsbBulkIn
  try dsimp only
  repeat' first
    | with_reducible assumption
    | intro _
    | with_reducible refine keeps_State_popEntry ?_ _ _ (by with_reducible assumption)
    | with_reducible apply keepsOn_next
    | with_reducible apply keeps_ite
    | with_reducible apply keeps_foldl
    | with_reducible apply keeps_forN
    | fail_if_no_progress with_reducible apply keeps_mk
    | split

theorem keeps_execSpiFrameWrite {s0 : State} {bytes : List (BitVec 8)} {s : State}
    (h : Keeps s0 s) :
    KeepsOn s0 (execSpiFrameWrite bytes s) := by
  unfold execSpiFrameWrite
  try dsimp only
  repeat' first
    | with_reducible assumption
    | intro _
    | with_reducible apply keepsOn_next
    | with_reducible apply keeps_State_bootBytes
    | with_reducible apply keeps_State_append
    | with_reducible apply keeps_State_errRing
    | with_reducible apply keeps_ite
    | split

theorem keeps_execSpiFrameRead {s0 : State} {s : State}
    (h : Keeps s0 s) :
    KeepsOn s0 (execSpiFrameRead s) := by
  unfold execSpiFrameRead
  try dsimp only
  repeat' first
    | with_reducible assumption
    | intro _
    | with_reducible refine keeps_State_popEntry ?_ _ _ (by with_reducible assumption)
    | with_reducible apply keepsOn_next
    | with_reducible apply keeps_ite
    | with_reducible apply keeps_foldl
    | with_reducible apply keeps_forN
    | fail_if_no_progress with_reducible apply keeps_mk
    | split

theorem keeps_execSpiFrameStatus {s0 : State} {s : State}
    (h : Keeps s0 s) :
    KeepsOn s0 (execSpiFrameStatus s) := by
  unfold execSpiFrameStatus
  try dsimp only
  repeat' first
    | with_reducible assumption
    | intro _
    | with_reducible apply keepsOn_next
    | with_reducible apply keeps_ite
    | with_reducible apply keeps_foldl
    | with_reducible apply keeps_forN
    | fail_if_no_progress with_reducible apply keeps_mk

theorem keeps_execSpiFrameOther {s0 : State} {_op : BitVec 8} {s : State}
    (h : Keeps s0 s) :
    KeepsOn s0 (execSpiFrameOther _op s) := by
  unfold execSpiFrameOther
  try dsimp only
  repeat' first
    | with_reducible assumption
    | intro _
    | with_reducible apply keepsOn_next

theorem keeps_execSpiCsAssert {s0 : State} {s : State}
    (h : Keeps s0 s) :
    KeepsOn s0 (execSpiCsAssert s) := by
  unfold execSpiCsAssert
  try dsimp only
  repeat' first
    | with_reducible assumption
    | intro _
    | with_reducible apply keeps_State_wakeFire
    | with_reducible apply keepsOn_next

end Sys2Proof.Laws
end

