-- ==== Sys2Proof/Laws/KeepsWork.lean ====
section
/-!
SUPPORT. For each operation of these files: it keeps what `Keeps` says.
-/
namespace Sys2Proof.Laws
open Sys2Proof.Machine

theorem keeps_State_outUndefined {s0 : State} {c : Cmd} {s : State}
    (h : Keeps s0 s) :
    Keeps s0 (State.outUndefined c s) := by
  unfold State.outUndefined
  try dsimp only
  repeat' first
    | with_reducible assumption
    | intro _
    | with_reducible apply keeps_State_undefine
    | with_reducible apply keeps_State_opUndefined
    | with_reducible apply keeps_ite
    | with_reducible apply keeps_foldl
    | split

theorem keeps_State_intakeNext {s0 : State} {s : State}
    (h : Keeps s0 s) :
    Keeps s0 (State.intakeNext s) := by
  unfold State.intakeNext
  try dsimp only
  repeat' first
    | with_reducible assumption
    | intro _
    | with_reducible apply keeps_ite
    | with_reducible apply keeps_foldl
    | with_reducible apply keeps_forN
    | fail_if_no_progress with_reducible apply keeps_mk
    | split

theorem keeps_State_dropMigr {s0 : State} {hd : Nat} {s : State}
    (h : Keeps s0 s) :
    Keeps s0 (State.dropMigr hd s) := by
  unfold State.dropMigr
  try dsimp only
  repeat' first
    | with_reducible assumption
    | intro _
    | with_reducible apply keeps_State_modStream
    | with_reducible apply keeps_State_tellStream
    | with_reducible apply keeps_ite
    | fail_if_no_progress with_reducible apply keeps_mk
    | split

theorem keeps_State_dropGuest {s0 : State} {hd : Nat} {s : State}
    (h : Keeps s0 s) :
    Keeps s0 (State.dropGuest hd s) := by
  unfold State.dropGuest
  try dsimp only
  repeat' first
    | with_reducible assumption
    | intro _
    | with_reducible apply keeps_State_endJob
    | with_reducible apply keeps_ite
    | with_reducible apply keeps_foldl
    | fail_if_no_progress with_reducible apply keeps_mk
    | split

theorem keeps_State_releaseCmd {s0 : State} {c : Cmd} {s : State}
    (h : Keeps s0 s) :
    Keeps s0 (State.releaseCmd c s) := by
  unfold State.releaseCmd
  try dsimp only
  repeat' first
    | with_reducible assumption
    | intro _
    | with_reducible apply keeps_State_dropMigr
    | with_reducible apply keeps_State_modStream
    | with_reducible apply keeps_State_undefine
    | with_reducible apply keeps_State_intakeNext
    | with_reducible apply keeps_State_serveCtl
    | with_reducible apply keeps_State_modSlp
    | with_reducible apply keeps_State_modEpoch
    | with_reducible apply keeps_id
    | with_reducible apply keeps_ite
    | with_reducible apply keeps_foldl
    | with_reducible apply keeps_forN
    | fail_if_no_progress with_reducible apply keeps_mk
    | split

theorem keeps_State_letGo {s0 : State} {c : Cmd} {s : State}
    (h : Keeps s0 s) :
    Keeps s0 (State.letGo c s) := by
  unfold State.letGo
  try dsimp only
  repeat' first
    | with_reducible assumption
    | intro _
    | with_reducible apply keeps_State_endJob
    | with_reducible apply keeps_State_releaseCmd
    | with_reducible apply keeps_ite
    | with_reducible apply keeps_id
    | with_reducible apply keeps_foldl
    | fail_if_no_progress with_reducible apply keeps_mk
    | split

theorem keeps_State_endCmd {s0 : State} {c : Cmd} {d : Done} {s : State}
    (h : Keeps s0 s) :
    Keeps s0 (State.endCmd c d s) := by
  unfold State.endCmd
  try dsimp only
  repeat' first
    | with_reducible assumption
    | intro _
    | with_reducible apply keeps_State_letGo
    | with_reducible apply keeps_State_stopCmd
    | with_reducible apply keeps_ite
    | split

theorem keeps_State_ckptTorn {s0 : State} {id : Nat} {s : State}
    (h : Keeps s0 s) :
    Keeps s0 (State.ckptTorn id s) := by
  unfold State.ckptTorn
  try dsimp only
  repeat' first
    | with_reducible assumption
    | intro _
    | with_reducible apply keeps_State_devWrite
    | with_reducible apply keeps_ite
    | with_reducible apply keeps_foldl
    | with_reducible apply keeps_forN
    | fail_if_no_progress with_reducible apply keeps_mk
    | split

theorem keeps_State_migrLost {s0 : State} {hd : Nat} {rs : Nat} {s : State}
    (h : Keeps s0 s) :
    Keeps s0 (State.migrLost hd rs s) := by
  unfold State.migrLost
  try dsimp only
  repeat' first
    | with_reducible assumption
    | intro _
    | with_reducible apply keeps_State_dropMigr
    | with_reducible apply keeps_State_complete
    | with_reducible apply keeps_State_modStream
    | with_reducible apply keeps_ite
    | fail_if_no_progress with_reducible apply keeps_mk
    | split

theorem keeps_State_migrUnreachable {s0 : State} {s : State}
    (h : Keeps s0 s) :
    Keeps s0 (State.migrUnreachable s) := by
  unfold State.migrUnreachable
  try dsimp only
  repeat' first
    | with_reducible assumption
    | intro _
    | with_reducible apply keeps_State_migrLost
    | with_reducible apply keeps_State_modStream
    | with_reducible apply keeps_State_dropGuest
    | with_reducible apply keeps_ite
    | with_reducible apply keeps_foldl
    | fail_if_no_progress with_reducible apply keeps_mk
    | split

theorem keeps_State_streamsGone {s0 : State} {d : Nat} {rs : Nat} {s : State}
    (h : Keeps s0 s) :
    Keeps s0 (State.streamsGone d rs s) := by
  unfold State.streamsGone
  try dsimp only
  repeat' first
    | with_reducible assumption
    | intro _
    | with_reducible apply keeps_State_modStream
    | with_reducible apply keeps_State_tellStream
    | with_reducible apply keeps_State_migrLost
    | with_reducible apply keeps_ite
    | with_reducible apply keeps_foldl
    | fail_if_no_progress with_reducible apply keeps_mk
    | split

theorem keeps_State_dieGone {s0 : State} {d : Nat} {rs : Nat} {cause : BitVec 4} {s : State}
    (h : Keeps s0 s) :
    Keeps s0 (State.dieGone d rs cause s) := by
  unfold State.dieGone
  try dsimp only
  repeat' first
    | with_reducible assumption
    | intro _
    | with_reducible apply keeps_State_failJobs
    | with_reducible apply keeps_State_abortEpoch
    | with_reducible apply keeps_State_streamsGone
    | with_reducible apply keeps_ite
    | with_reducible apply keeps_foldl
    | split

theorem keeps_State_dieInit {s0 : State} {d : Nat} {s : State}
    (h : Keeps s0 s) :
    Keeps s0 (State.dieInit d s) := by
  unfold State.dieInit
  try dsimp only
  repeat' first
    | with_reducible assumption
    | intro _
    | with_reducible refine keeps_mkMem ?_ (mwrite_wf _ _)
    | with_reducible refine keeps_mkMem ?_ (mzero_wf _ _)
    | with_reducible refine keeps_mkHost ?_ (mwrite_wf _ _)
    | with_reducible apply keeps_ite
    | fail_if_no_progress with_reducible apply keeps_mk
    | split

theorem keeps_State_beaconHold {s0 : State} {s : State}
    (h : Keeps s0 s) :
    Keeps s0 (State.beaconHold s) := by
  unfold State.beaconHold
  try dsimp only
  repeat' first
    | with_reducible assumption
    | intro _
    | with_reducible apply keeps_State_errTb
    | with_reducible apply keeps_ite
    | with_reducible apply keeps_foldl
    | with_reducible apply keeps_forN
    | fail_if_no_progress with_reducible apply keeps_mk

theorem keeps_State_beaconRoute {s0 : State} {s : State}
    (h : Keeps s0 s) :
    Keeps s0 (State.beaconRoute s) := by
  unfold State.beaconRoute
  try dsimp only
  repeat' first
    | with_reducible assumption
    | intro _
    | with_reducible apply keeps_State_beaconHold
    | with_reducible apply keeps_ite
    | fail_if_no_progress with_reducible apply keeps_mk
    | split

theorem keeps_State_linkChanged {s0 : State} {s : State}
    (h : Keeps s0 s) :
    Keeps s0 (State.linkChanged s) := by
  unfold State.linkChanged
  try dsimp only
  repeat' first
    | with_reducible assumption
    | intro _
    | with_reducible apply keeps_State_flood
    | with_reducible apply keeps_State_migrUnreachable
    | with_reducible apply keeps_State_beaconRoute
    | with_reducible apply keeps_State_quietAnew
    | with_reducible apply keeps_ite
    | split

theorem keeps_State_migrCut {s0 : State} {hd : Nat} {s : State}
    (h : Keeps s0 s) :
    Keeps s0 (State.migrCut hd s) := by
  unfold State.migrCut
  try dsimp only
  repeat' first
    | with_reducible assumption
    | intro _
    | with_reducible apply keeps_State_migrLost
    | with_reducible apply keeps_State_modStream
    | with_reducible apply keeps_State_complete
    | with_reducible apply keeps_ite
    | fail_if_no_progress with_reducible apply keeps_mk
    | split

theorem keeps_State_dropFrames {s0 : State} {p : Nat} {s : State}
    (h : Keeps s0 s) :
    Keeps s0 (State.dropFrames p s) := by
  unfold State.dropFrames
  try dsimp only
  repeat' first
    | with_reducible assumption
    | intro _
    | with_reducible apply keeps_State_modSlp
    | with_reducible apply keeps_State_dropSignal
    | with_reducible apply keeps_State_endCmd
    | with_reducible apply keeps_State_migrCut
    | with_reducible apply keeps_ite
    | with_reducible apply keeps_foldl
    | fail_if_no_progress with_reducible apply keeps_mk
    | split

theorem keeps_State_cutAt {s0 : State} {n : Nat} {ports : BitVec 4} {s : State}
    (h : Keeps s0 s) :
    Keeps s0 (State.cutAt n ports s) := by
  unfold State.cutAt
  try dsimp only
  repeat' first
    | with_reducible assumption
    | intro _
    | with_reducible apply keeps_State_endCmd
    | with_reducible apply keeps_State_migrCut
    | with_reducible apply keeps_ite
    | with_reducible apply keeps_foldl
    | fail_if_no_progress with_reducible apply keeps_mk
    | split

theorem keeps_State_portDone {s0 : State} {p : Nat} {d : Cmd → Done} {s : State}
    (h : Keeps s0 s) :
    Keeps s0 (State.portDone p d s) := by
  unfold State.portDone
  try dsimp only
  repeat' first
    | with_reducible assumption
    | intro _
    | with_reducible apply keeps_State_finish
    | with_reducible apply keeps_State_modSlp
    | with_reducible apply keeps_ite
    | with_reducible apply keeps_id
    | with_reducible apply keeps_foldl
    | fail_if_no_progress with_reducible apply keeps_mk
    | split

theorem keeps_State_portFails {s0 : State} {p : Nat} {rs : Nat} {s : State}
    (h : Keeps s0 s) :
    Keeps s0 (State.portFails p rs s) := by
  unfold State.portFails
  try dsimp only
  repeat' first
    | with_reducible assumption
    | intro _
    | with_reducible apply keeps_State_portDone
    | with_reducible apply keeps_ite
    | fail_if_no_progress with_reducible apply keeps_mk
    | split

theorem keeps_State_portServes {s0 : State} {p : Nat} {result : List Byte} {s : State}
    (h : Keeps s0 s) :
    Keeps s0 (State.portServes p result s) := by
  unfold State.portServes
  try dsimp only
  repeat' first
    | with_reducible assumption
    | intro _
    | with_reducible apply keeps_State_portDone
    | with_reducible apply keeps_ite
    | split

theorem keeps_State_portError {s0 : State} {p : Nat} {i : Nat} {s : State}
    (h : Keeps s0 s) :
    Keeps s0 (State.portError p i s) := by
  unfold State.portError
  try dsimp only
  repeat' first
    | with_reducible assumption
    | intro _
    | with_reducible apply keeps_State_modSlp
    | with_reducible apply keeps_State_errSlk
    | with_reducible apply keeps_State_dropFrames
    | with_reducible apply keeps_State_portFails
    | with_reducible apply keeps_State_linkChanged
    | with_reducible apply keeps_ite
    | fail_if_no_progress with_reducible apply keeps_mk
    | split

theorem keeps_State_slpReset {s0 : State} {p : Nat} {s : State}
    (h : Keeps s0 s) :
    Keeps s0 (State.slpReset p s) := by
  unfold State.slpReset
  try dsimp only
  repeat' first
    | with_reducible assumption
    | intro _
    | with_reducible apply keeps_State_dropFrames
    | with_reducible apply keeps_State_portFails
    | with_reducible apply keeps_State_modSlp
    | with_reducible apply keeps_State_linkChanged
    | with_reducible apply keeps_ite
    | fail_if_no_progress with_reducible apply keeps_mk
    | split

theorem keeps_State_zeroise {s0 : State} {i : Nat} {s : State}
    (h : Keeps s0 s) :
    Keeps s0 (State.zeroise i s) := by
  unfold State.zeroise
  try dsimp only
  repeat' first
    | with_reducible assumption
    | intro _
    | with_reducible apply keeps_State_modSlot

theorem keeps_State_zeroiseConf {s0 : State} {s : State}
    (h : Keeps s0 s) :
    Keeps s0 (State.zeroiseConf s) := by
  unfold State.zeroiseConf
  try dsimp only
  repeat' first
    | with_reducible assumption
    | intro _
    | with_reducible apply keeps_ite
    | fail_if_no_progress with_reducible apply keeps_mk
    | split

theorem keeps_State_lockTdi {s0 : State} {s : State}
    (h : Keeps s0 s) :
    Keeps s0 (State.lockTdi s) := by
  unfold State.lockTdi
  try dsimp only
  repeat' first
    | with_reducible assumption
    | intro _
    | with_reducible apply keeps_ite
    | fail_if_no_progress with_reducible apply keeps_mk
    | split

theorem keeps_State_lockTie {s0 : State} {lock : Bool} {s : State}
    (h : Keeps s0 s) :
    Keeps s0 (State.lockTie lock s) := by
  unfold State.lockTie
  try dsimp only
  repeat' first
    | with_reducible assumption
    | intro _
    | with_reducible apply keeps_State_lockTdi
    | with_reducible apply keeps_ite
    | split

theorem keeps_State_tdiError {s0 : State} {s : State}
    (h : Keeps s0 s) :
    Keeps s0 (State.tdiError s) := by
  unfold State.tdiError
  try dsimp only
  repeat' first
    | with_reducible assumption
    | intro _
    | with_reducible apply keeps_State_errKey
    | with_reducible apply keeps_State_zeroiseConf
    | with_reducible apply keeps_ite
    | with_reducible apply keeps_foldl
    | with_reducible apply keeps_forN
    | fail_if_no_progress with_reducible apply keeps_mk

theorem keeps_State_pcieReset {s0 : State} {linkDown : Bool} {s : State}
    (h : Keeps s0 s) :
    Keeps s0 (State.pcieReset linkDown s) := by
  unfold State.pcieReset
  try dsimp only
  repeat' first
    | with_reducible assumption
    | intro _
    | with_reducible apply keeps_State_zeroiseConf
    | with_reducible apply keeps_ite
    | fail_if_no_progress with_reducible apply keeps_mk
    | split

theorem keeps_State_usbReset {s0 : State} {s : State}
    (h : Keeps s0 s) :
    Keeps s0 (State.usbReset s) := by
  unfold State.usbReset
  try dsimp only
  repeat' first
    | with_reducible assumption
    | intro _
    | with_reducible apply keeps_ite
    | with_reducible apply keeps_foldl
    | with_reducible apply keeps_forN
    | fail_if_no_progress with_reducible apply keeps_mk

theorem keeps_State_camIdle {s0 : State} {s : State}
    (h : Keeps s0 s) :
    Keeps s0 (State.camIdle s) := by
  unfold State.camIdle
  try dsimp only
  repeat' first
    | with_reducible assumption
    | intro _
    | with_reducible apply keeps_State_disarm
    | with_reducible apply keeps_State_served
    | with_reducible apply keeps_ite
    | with_reducible apply keeps_foldl
    | with_reducible apply keeps_forN
    | fail_if_no_progress with_reducible apply keeps_mk
    | split

theorem keeps_State_camDrop {s0 : State} {s : State}
    (h : Keeps s0 s) :
    Keeps s0 (State.camDrop s) := by
  unfold State.camDrop
  try dsimp only
  repeat' first
    | with_reducible assumption
    | intro _
    | with_reducible apply keeps_ite
    | fail_if_no_progress with_reducible apply keeps_mk
    | split

theorem keeps_State_camWrite {s0 : State} {a : Nat} {bs : List Byte} {s : State}
    (h : Keeps s0 s) :
    Keeps s0 (State.camWrite a bs s).1 := by
  unfold State.camWrite
  dsimp only
  split
  · exact keeps_State_errCam h
  split
  · exact keeps_State_errCam (keeps_State_noteDeny h)
  · exact keeps_State_devWrite h

theorem keeps_State_camWrite_eq {s0 : State} {a : Nat} {bs : List Byte} {s : State} {a0} {t0}
    (h : Keeps s0 s) (e0 : State.camWrite a bs s = (t0, a0)) : Keeps s0 t0 := by
  have k := keeps_State_camWrite (a := a) (bs := bs) (s := s) h
  rw [e0] at k
  exact k

theorem keeps_State_camVoid {s0 : State} {i : Nat} {s : State}
    (h : Keeps s0 s) :
    Keeps s0 (State.camVoid i s) := by
  unfold State.camVoid
  try dsimp only
  repeat' first
    | with_reducible assumption
    | intro _
    | with_reducible refine keeps_State_camWrite_eq ?_ (by with_reducible assumption)
    | with_reducible apply keeps_State_camWrite
    | with_reducible apply keeps_ite
    | split

theorem keeps_State_camLost {s0 : State} {s : State}
    (h : Keeps s0 s) :
    Keeps s0 (State.camLost s) := by
  unfold State.camLost
  try dsimp only
  repeat' first
    | with_reducible assumption
    | intro _
    | with_reducible apply keeps_State_camVoid
    | with_reducible apply keeps_State_camDrop
    | with_reducible apply keeps_ite
    | fail_if_no_progress with_reducible apply keeps_mk
    | split

theorem keeps_State_camPortReset {s0 : State} {s : State}
    (h : Keeps s0 s) :
    Keeps s0 (State.camPortReset s) := by
  unfold State.camPortReset
  try dsimp only
  repeat' first
    | with_reducible assumption
    | intro _
    | with_reducible apply keeps_State_camLost
    | with_reducible apply keeps_State_camIdle
    | with_reducible apply keeps_ite
    | fail_if_no_progress with_reducible apply keeps_mk
    | split

theorem keeps_State_audReset {s0 : State} {s : State}
    (h : Keeps s0 s) :
    Keeps s0 (State.audReset s) := by
  unfold State.audReset
  try dsimp only
  repeat' first
    | with_reducible assumption
    | intro _
    | with_reducible apply keeps_ite
    | fail_if_no_progress with_reducible apply keeps_mk
    | split

theorem keeps_State_forward {s0 : State} {f : LinkFrame} {s : State}
    (h : Keeps s0 s) :
    Keeps s0 (State.forward f s) := by
  unfold State.forward
  try dsimp only
  repeat' first
    | with_reducible assumption
    | intro _
    | with_reducible apply keeps_State_dropSignal
    | with_reducible apply keeps_State_sendOn
    | with_reducible apply keeps_ite
    | with_reducible apply keeps_foldl
    | with_reducible apply keeps_forN
    | fail_if_no_progress with_reducible apply keeps_mk
    | split

theorem keeps_State_onFrame {s0 : State} {p : Nat} {f : LinkFrame} {on : State → State} {s : State}
    (h : Keeps s0 s) (hon : ∀ v0, Keeps s0 v0 → Keeps s0 (on v0)) :
    Keeps s0 (State.onFrame p f on s) := by
  have h1 : Keeps s0 (s.modSlp p (fun q => { q with rxSeq := q.rxSeq + 1, acked := some true })) := keeps_State_modSlp h
  unfold State.onFrame
  split <;> rename_i t e <;> unfold State.recv at e <;> dsimp only at e <;> split at e
  · cases e
    exact h
  · split at e
    · cases e
      exact keeps_State_modSlp h
    · split at e
      · cases e
        exact keeps_State_errSlk h1
      · split at e
        · cases e
        · cases e
          exact keeps_State_forward h1
  · cases e
  · split at e
    · cases e
    · split at e
      · cases e
      · split at e
        · cases e
          exact hon _ h1
        · cases e

theorem keeps_State_sigArrives {s0 : State} {f : LinkFrame} {s : State}
    (h : Keeps s0 s) :
    Keeps s0 (State.sigArrives f s) := by
  unfold State.sigArrives
  try dsimp only
  repeat' first
    | with_reducible assumption
    | intro _
    | with_reducible apply keeps_ite
    | with_reducible apply keeps_foldl
    | with_reducible apply keeps_forN
    | fail_if_no_progress with_reducible apply keeps_mk

theorem keeps_State_refload {s0 : State} {p : Nat} {f : LinkFrame} {s : State}
    (h : Keeps s0 s) :
    Keeps s0 (State.refload p f s) := by
  unfold State.refload
  try dsimp only
  repeat' first
    | with_reducible assumption
    | intro _
    | with_reducible apply keeps_State_floodVc
    | with_reducible apply keeps_ite
    | split

theorem keeps_State_rootLost {s0 : State} {s : State}
    (h : Keeps s0 s) :
    Keeps s0 (State.rootLost s) := by
  unfold State.rootLost
  try dsimp only
  repeat' first
    | with_reducible assumption
    | intro _
    | with_reducible apply keeps_State_complete
    | with_reducible apply keeps_ite
    | fail_if_no_progress with_reducible apply keeps_mk
    | split

theorem keeps_State_sendReport {s0 : State} {p : Nat} {payload : List Byte} {s : State}
    (h : Keeps s0 s) :
    Keeps s0 (State.sendReport p payload s) := by
  unfold State.sendReport
  try dsimp only
  repeat' first
    | with_reducible assumption
    | intro _
    | with_reducible apply keeps_State_sendOn
    | with_reducible apply keeps_ite
    | fail_if_no_progress with_reducible apply keeps_mk
    | split

theorem keeps_State_reportArrives {s0 : State} {payload : List Byte} {s : State}
    (h : Keeps s0 s) :
    Keeps s0 (State.reportArrives payload s) := by
  unfold State.reportArrives
  try dsimp only
  repeat' first
    | with_reducible assumption
    | intro _
    | with_reducible apply keeps_State_sendReport
    | with_reducible apply keeps_ite
    | fail_if_no_progress with_reducible apply keeps_mk
    | split

theorem keeps_execLinkStateFrame {s0 : State} {port : Fin 4} {f : LinkFrame} {s : State}
    (h : Keeps s0 s) :
    KeepsOn s0 (execLinkStateFrame port f s) := by
  unfold execLinkStateFrame
  try dsimp only
  repeat' first
    | with_reducible assumption
    | intro _
    | with_reducible apply keepsOn_next
    | with_reducible apply keeps_State_onFrame
    | with_reducible apply keeps_State_refload
    | with_reducible apply keeps_State_cutAt
    | with_reducible apply keeps_State_migrUnreachable
    | with_reducible apply keeps_State_beaconRoute
    | with_reducible apply keeps_State_quietAnew
    | with_reducible apply keeps_State_rootLost
    | with_reducible apply keeps_State_reportArrives
    | with_reducible apply keeps_ite
    | with_reducible apply keeps_forN
    | fail_if_no_progress with_reducible apply keeps_mk
    | split

theorem keeps_execQuietStateFrame {s0 : State} {port : Fin 4} {f : LinkFrame} {s : State}
    (h : Keeps s0 s) :
    KeepsOn s0 (execQuietStateFrame port f s) := by
  unfold execQuietStateFrame
  try dsimp only
  repeat' first
    | with_reducible assumption
    | intro _
    | with_reducible apply keeps_State_refload
    | with_reducible apply keeps_State_onFrame
    | with_reducible apply keepsOn_next
    | with_reducible apply keeps_ite
    | with_reducible apply keeps_foldl
    | with_reducible apply keeps_forN
    | fail_if_no_progress with_reducible apply keeps_mk

theorem keeps_State_setNode {s0 : State} {n : Nat} {s : State}
    (h : Keeps s0 s) :
    Keeps s0 (State.setNode n s) := by
  unfold State.setNode
  try dsimp only
  repeat' first
    | with_reducible assumption
    | intro _
    | with_reducible apply keeps_ite
    | with_reducible apply keeps_foldl
    | with_reducible apply keeps_forN
    | fail_if_no_progress with_reducible apply keeps_mk

theorem keeps_execEnumerationProposal {s0 : State} {port : Fin 4} {f : LinkFrame} {lock : Bool} {s : State}
    (h : Keeps s0 s) :
    KeepsOn s0 (execEnumerationProposal port f lock s) := by
  unfold execEnumerationProposal
  try dsimp only
  repeat' first
    | with_reducible assumption
    | intro _
    | with_reducible apply keepsOn_next
    | with_reducible apply keeps_State_lockTie
    | with_reducible apply keeps_State_onFrame
    | with_reducible apply keeps_State_errSlk
    | with_reducible apply keeps_State_sendReport
    | with_reducible apply keeps_State_setNode
    | with_reducible apply keeps_State_flood
    | with_reducible apply keeps_State_linkChanged
    | with_reducible apply keeps_id
    | with_reducible apply keeps_ite
    | fail_if_no_progress with_reducible apply keeps_mk
    | split

theorem keeps_execQuillFrame {s0 : State} {port : Fin 4} {f : LinkFrame} {s : State}
    (h : Keeps s0 s) :
    KeepsOn s0 (execQuillFrame port f s) := by
  unfold execQuillFrame
  try dsimp only
  repeat' first
    | with_reducible assumption
    | intro _
    | with_reducible apply keeps_State_refload
    | with_reducible apply keeps_State_onFrame
    | with_reducible apply keeps_State_arm
    | with_reducible apply keepsOn_next
    | with_reducible apply keeps_ite
    | with_reducible apply keeps_foldl
    | with_reducible apply keeps_forN
    | fail_if_no_progress with_reducible apply keeps_mk

theorem keeps_execWakeFrame {s0 : State} {port : Fin 4} {f : LinkFrame} {s : State}
    (h : Keeps s0 s) :
    KeepsOn s0 (execWakeFrame port f s) := by
  unfold execWakeFrame
  try dsimp only
  repeat' first
    | with_reducible assumption
    | intro _
    | with_reducible apply keeps_State_refload
    | with_reducible apply keeps_State_wakeFire
    | with_reducible apply keeps_State_onFrame
    | with_reducible apply keepsOn_next
    | with_reducible apply keeps_ite

theorem keeps_State_released {s0 : State} {p : Nat} {n : Nat} {s : State}
    (h : Keeps s0 s) :
    Keeps s0 (State.released p n s) := by
  unfold State.released
  try dsimp only
  repeat' first
    | with_reducible assumption
    | intro _
    | with_reducible apply keeps_State_modSlp
    | with_reducible apply keeps_State_beaconRoute
    | with_reducible apply keeps_ite
    | fail_if_no_progress with_reducible apply keeps_mk
    | split

theorem keeps_execAckReceived {s0 : State} {port : Fin 4} {seq : BitVec 12} {s : State}
    (h : Keeps s0 s) :
    KeepsOn s0 (execAckReceived port seq s) := by
  unfold execAckReceived
  try dsimp only
  repeat' first
    | with_reducible assumption
    | intro _
    | with_reducible apply keepsOn_next
    | with_reducible apply keeps_State_released
    | with_reducible apply keeps_ite
    | fail_if_no_progress with_reducible apply keeps_mk
    | split

theorem keeps_State_giveUp {s0 : State} {p : Nat} {s : State}
    (h : Keeps s0 s) :
    Keeps s0 (State.giveUp p s) := by
  unfold State.giveUp
  try dsimp only
  repeat' first
    | with_reducible assumption
    | intro _
    | with_reducible apply keeps_State_errSlk
    | with_reducible apply keeps_State_dropFrames
    | with_reducible apply keeps_State_modSlp
    | with_reducible apply keeps_State_faultTrig
    | with_reducible apply keeps_State_linkChanged
    | with_reducible apply keeps_ite
    | fail_if_no_progress with_reducible apply keeps_mk
    | split

theorem keeps_State_replayFrom {s0 : State} {p : Nat} {i : Nat} {s : State}
    (h : Keeps s0 s) :
    Keeps s0 (State.replayFrom p i s) := by
  unfold State.replayFrom
  try dsimp only
  repeat' first
    | with_reducible assumption
    | intro _
    | with_reducible apply keeps_State_giveUp
    | with_reducible apply keeps_State_modSlp
    | with_reducible apply keeps_ite

theorem keeps_execNakReceived {s0 : State} {port : Fin 4} {seq : BitVec 12} {s : State}
    (h : Keeps s0 s) :
    KeepsOn s0 (execNakReceived port seq s) := by
  unfold execNakReceived
  try dsimp only
  repeat' first
    | with_reducible assumption
    | intro _
    | with_reducible apply keeps_State_replayFrom
    | with_reducible apply keepsOn_next
    | with_reducible apply keeps_ite
    | with_reducible apply keeps_foldl
    | with_reducible apply keeps_forN
    | fail_if_no_progress with_reducible apply keeps_mk
    | split

theorem keeps_execReplayTimeout {s0 : State} {port : Fin 4} {tie : Bool} {s : State}
    (h : Keeps s0 s) :
    KeepsOn s0 (execReplayTimeout port tie s) := by
  unfold execReplayTimeout
  try dsimp only
  repeat' first
    | with_reducible assumption
    | intro _
    | with_reducible apply keepsOn_next
    | with_reducible apply keeps_State_released
    | with_reducible apply keeps_State_tie
    | with_reducible apply keeps_State_replayFrom
    | with_reducible apply keeps_ite
    | split

theorem keeps_State_attemptFails {s0 : State} {p : Nat} {s : State}
    (h : Keeps s0 s) :
    Keeps s0 (State.attemptFails p s) := by
  unfold State.attemptFails
  try dsimp only
  repeat' first
    | with_reducible assumption
    | intro _
    | with_reducible apply keeps_State_modSlp
    | with_reducible apply keeps_State_errSlk
    | with_reducible apply keeps_State_dropFrames
    | with_reducible apply keeps_State_portFails
    | with_reducible apply keeps_State_linkChanged
    | with_reducible apply keeps_ite
    | fail_if_no_progress with_reducible apply keeps_mk
    | split

theorem keeps_execShusorPhaseComplete {s0 : State} {port : Fin 4} {r : PhaseResult} {s : State}
    (h : Keeps s0 s) :
    KeepsOn s0 (execShusorPhaseComplete port r s) := by
  unfold execShusorPhaseComplete
  try dsimp only
  repeat' first
    | with_reducible assumption
    | intro _
    | with_reducible apply keepsOn_next
    | with_reducible apply keeps_State_errSlk
    | with_reducible apply keeps_State_attemptFails
    | with_reducible apply keeps_State_modSlp
    | with_reducible apply keeps_State_portError
    | with_reducible apply keeps_State_linkChanged
    | with_reducible apply keeps_State_portServes
    | with_reducible apply keeps_ite
    | fail_if_no_progress with_reducible apply keeps_mk
    | split

theorem keeps_execTrainingPhaseTimeout {s0 : State} {port : Fin 4} {s : State}
    (h : Keeps s0 s) :
    KeepsOn s0 (execTrainingPhaseTimeout port s) := by
  unfold execTrainingPhaseTimeout
  try dsimp only
  repeat' first
    | with_reducible assumption
    | intro _
    | with_reducible apply keeps_State_attemptFails
    | with_reducible apply keepsOn_next
    | with_reducible apply keeps_ite
    | with_reducible apply keeps_foldl
    | with_reducible apply keeps_forN
    | fail_if_no_progress with_reducible apply keeps_mk
    | split

theorem keeps_execAutoRetryTimer {s0 : State} {port : Fin 4} {s : State}
    (h : Keeps s0 s) :
    KeepsOn s0 (execAutoRetryTimer port s) := by
  unfold execAutoRetryTimer
  try dsimp only
  repeat' first
    | with_reducible assumption
    | intro _
    | with_reducible apply keeps_State_modSlp
    | with_reducible apply keepsOn_next

theorem keeps_State_retrainPort {s0 : State} {p : Nat} {w : Option Nat} {s : State}
    (h : Keeps s0 s) :
    Keeps s0 (State.retrainPort p w s) := by
  unfold State.retrainPort
  try dsimp only
  repeat' first
    | with_reducible assumption
    | intro _
    | with_reducible apply keeps_State_modSlp
    | with_reducible apply keeps_State_linkChanged
    | with_reducible apply keeps_ite
    | fail_if_no_progress with_reducible apply keeps_mk
    | split

theorem keeps_State_applyWidth {s0 : State} {p : Nat} {w : Option Nat} {s : State}
    (h : Keeps s0 s) :
    Keeps s0 (State.applyWidth p w s) := by
  unfold State.applyWidth
  try dsimp only
  repeat' first
    | with_reducible assumption
    | intro _
    | with_reducible apply keeps_State_retrainPort
    | with_reducible apply keeps_State_modSlp
    | with_reducible apply keeps_State_portServes
    | with_reducible apply keeps_ite
    | fail_if_no_progress with_reducible apply keeps_mk
    | split

theorem keeps_State_ownWidth {s0 : State} {p : Nat} {w : Option Nat} {s : State}
    (h : Keeps s0 s) :
    Keeps s0 (State.ownWidth p w s) := by
  unfold State.ownWidth
  try dsimp only
  repeat' first
    | with_reducible assumption
    | intro _
    | with_reducible apply keeps_State_modSlp
    | with_reducible apply keeps_ite
    | fail_if_no_progress with_reducible apply keeps_mk
    | split

theorem keeps_execRetrainRequest {s0 : State} {port : Fin 4} {width : Option (Fin 5)} {node : BitVec 6} {s : State}
    (h : Keeps s0 s) :
    KeepsOn s0 (execRetrainRequest port width node s) := by
  unfold execRetrainRequest
  try dsimp only
  repeat' first
    | with_reducible assumption
    | intro _
    | with_reducible apply keepsOn_next
    | with_reducible apply keeps_State_applyWidth
    | with_reducible apply keeps_State_modSlp
    | with_reducible apply keeps_State_portError
    | with_reducible apply keeps_State_ownWidth
    | with_reducible apply keeps_State_retrainPort
    | with_reducible apply keeps_ite
    | fail_if_no_progress with_reducible apply keeps_mk
    | split

theorem keeps_execRetrainAccept {s0 : State} {port : Fin 4} {s : State}
    (h : Keeps s0 s) :
    KeepsOn s0 (execRetrainAccept port s) := by
  unfold execRetrainAccept
  try dsimp only
  repeat' first
    | with_reducible assumption
    | intro _
    | with_reducible apply keepsOn_next
    | with_reducible apply keeps_State_ownWidth
    | with_reducible apply keeps_State_applyWidth
    | with_reducible apply keeps_ite
    | fail_if_no_progress with_reducible apply keeps_mk
    | split

theorem keeps_execClashBackoffExpiry {s0 : State} {port : Fin 4} {s : State}
    (h : Keeps s0 s) :
    KeepsOn s0 (execClashBackoffExpiry port s) := by
  unfold execClashBackoffExpiry
  try dsimp only
  repeat' first
    | with_reducible assumption
    | intro _
    | with_reducible apply keeps_State_modSlp
    | with_reducible apply keepsOn_next

theorem keeps_State_coreReset {s0 : State} {c : Nat} {s : State}
    (h : Keeps s0 s) :
    Keeps s0 (State.coreReset c s) := by
  unfold State.coreReset
  try dsimp only
  repeat' first
    | with_reducible assumption
    | intro _
    | with_reducible refine keeps_State_draw_eq ?_ (by with_reducible assumption)
    | with_reducible apply keeps_State_draw
    | with_reducible apply keeps_State_failJobs
    | with_reducible apply keeps_State_freeCore
    | with_reducible apply keeps_State_modCore
    | with_reducible apply keeps_ite
    | fail_if_no_progress with_reducible apply keeps_mk
    | split

theorem keeps_State_dieReset {s0 : State} {d : Nat} {s : State}
    (h : Keeps s0 s) :
    Keeps s0 (State.dieReset d s) := by
  unfold State.dieReset
  try dsimp only
  repeat' first
    | with_reducible assumption
    | intro _
    | with_reducible refine keeps_State_draw_eq ?_ (by with_reducible assumption)
    | with_reducible apply keeps_State_draw
    | with_reducible apply keeps_State_dropSignalsTo
    | with_reducible apply keeps_State_dieGone
    | with_reducible apply keeps_State_dieInit
    | with_reducible apply keeps_State_modDie
    | with_reducible apply keeps_State_bridgeTo
    | with_reducible apply keeps_ite
    | fail_if_no_progress with_reducible apply keeps_mk
    | split

theorem keeps_State_abortAll {s0 : State} {rs : Nat} {except_ : Option Nat} {s : State}
    (h : Keeps s0 s) :
    Keeps s0 (State.abortAll rs except_ s) := by
  unfold State.abortAll
  try dsimp only
  repeat' first
    | with_reducible assumption
    | intro _
    | with_reducible apply keeps_State_postStatus
    | with_reducible apply keeps_State_dropCmd
    | with_reducible apply keeps_State_deliver
    | with_reducible apply keeps_State_endJob
    | with_reducible apply keeps_State_letGo
    | with_reducible apply keeps_State_kvUnpinCmd
    | with_reducible apply keeps_State_opUndefined
    | with_reducible apply keeps_id
    | with_reducible apply keeps_ite
    | with_reducible apply keeps_foldl
    | fail_if_no_progress with_reducible apply keeps_mk
    | split

theorem keeps_State_payOwed {s0 : State} {s : State}
    (h : Keeps s0 s) :
    Keeps s0 (State.payOwed s) := by
  unfold State.payOwed
  try dsimp only
  repeat' first
    | with_reducible assumption
    | intro _
    | with_reducible apply keeps_State_postStatus
    | with_reducible apply keeps_State_outUndefined
    | with_reducible apply keeps_State_deliver
    | with_reducible apply keeps_ite
    | with_reducible apply keeps_foldl
    | fail_if_no_progress with_reducible apply keeps_mk
    | split

theorem keeps_State_loseWalk {s0 : State} {s : State}
    (h : Keeps s0 s) :
    Keeps s0 (State.loseWalk s) := by
  unfold State.loseWalk
  try dsimp only
  repeat' first
    | with_reducible assumption
    | intro _
    | with_reducible apply keeps_State_errKey
    | with_reducible apply keeps_ite
    | with_reducible apply keeps_foldl
    | with_reducible apply keeps_forN
    | fail_if_no_progress with_reducible apply keeps_mk
    | split

theorem keeps_State_initWarm {s0 : State} {hib : Bool} {s : State}
    (h : Keeps s0 s) :
    Keeps s0 (State.initWarm hib s) := by
  unfold State.initWarm
  try dsimp only
  repeat' first
    | with_reducible assumption
    | intro _
    | with_reducible apply keeps_State_loseWalk
    | with_reducible apply keeps_State_warm
    | with_reducible apply dies_wf
    | with_reducible apply mzero_wf
    | with_reducible apply mwrite_wf
    | with_reducible apply keepBanks_wf
    | with_reducible apply keepDormouse_wf
    | with_reducible apply ite_wf
    | fail_if_no_progress with_reducible apply keeps_mkMem
    | with_reducible refine keeps_mkMem ?_ (mwrite_wf _ _)
    | with_reducible refine keeps_mkMem ?_ (mzero_wf _ _)
    | with_reducible refine keeps_mkHost ?_ (mwrite_wf _ _)
    | with_reducible apply keeps_ite
    | with_reducible apply keeps_forN
    | fail_if_no_progress with_reducible apply keeps_mk
    | split

theorem keeps_State_bootLoad {s0 : State} {s : State}
    (h : Keeps s0 s) :
    Keeps s0 (State.bootLoad s) := by
  unfold State.bootLoad
  try dsimp only
  repeat' first
    | with_reducible assumption
    | intro _
    | with_reducible apply keeps_State_modSlp
    | with_reducible apply keeps_ite
    | with_reducible apply keeps_forN
    | fail_if_no_progress with_reducible apply keeps_mk
    | split

theorem keeps_State_mgrRestart {s0 : State} {s : State}
    (h : Keeps s0 s) :
    Keeps s0 (State.mgrRestart s) := by
  unfold State.mgrRestart
  try dsimp only
  repeat' first
    | with_reducible assumption
    | intro _
    | with_reducible apply keeps_State_bootLoad
    | with_reducible apply keeps_ite

theorem keeps_State_alsoReset {s0 : State} {a : AlsoReset} {s : State}
    (h : Keeps s0 s) :
    Keeps s0 (State.alsoReset a s) := by
  unfold State.alsoReset
  try dsimp only
  repeat' first
    | with_reducible assumption
    | intro _
    | with_reducible apply keeps_ite
    | fail_if_no_progress with_reducible apply keeps_mk
    | split

theorem keeps_State_strapCheck {s0 : State} {s : State}
    (h : Keeps s0 s) :
    Keeps s0 (State.strapCheck s) := by
  unfold State.strapCheck
  try dsimp only
  repeat' first
    | with_reducible assumption
    | intro _
    | with_reducible apply keeps_ite
    | fail_if_no_progress with_reducible apply keeps_mk
    | split

theorem keeps_State_warm {s0 : State} {cause : Nat} {self : Option Nat} {a : AlsoReset} {s : State}
    (h : Keeps s0 s) :
    Keeps s0 (State.warm cause self a s) := by
  unfold State.warm
  try dsimp only
  repeat' first
    | with_reducible assumption
    | intro _
    | with_reducible apply keeps_State_abortAll
    | with_reducible apply keeps_State_dropCmd
    | with_reducible apply keeps_State_deliver
    | with_reducible apply keeps_State_initWarm
    | with_reducible apply keeps_State_alsoReset
    | with_reducible apply keeps_State_strapCheck
    | with_reducible apply keeps_State_mgrRestart
    | with_reducible apply keeps_id
    | with_reducible apply keeps_ite
    | fail_if_no_progress with_reducible apply keeps_mk
    | split

theorem keeps_execColdReset {s0 : State} {vresetAon : Bool} {pkg : BitVec 8} {banks : BitVec 4} {also : AlsoReset} {s : State}
    (h : Keeps s0 s) :
    KeepsOn s0 (execColdReset vresetAon pkg banks also s) := by
  unfold execColdReset
  try dsimp only
  repeat' first
    | with_reducible assumption
    | intro _
    | with_reducible apply keepsOn_next
    | with_reducible apply keeps_State_alsoReset
    | with_reducible apply keeps_State_strapCheck
    | exact nil_wf
    | with_reducible apply dies_wf
    | with_reducible apply mzero_wf
    | with_reducible apply mwrite_wf
    | with_reducible apply keepBanks_wf
    | with_reducible apply keepDormouse_wf
    | with_reducible apply ite_wf
    | fail_if_no_progress with_reducible apply keeps_mkMem
    | with_reducible refine keeps_mkMem ?_ (mwrite_wf _ _)
    | with_reducible refine keeps_mkMem ?_ (mzero_wf _ _)
    | with_reducible refine keeps_mkHost ?_ (mwrite_wf _ _)
    | with_reducible apply keeps_ite
    | fail_if_no_progress with_reducible apply keeps_mk
    | split

theorem keeps_execBoardStrapLatch {s0 : State} {boot : BitVec 3} {node : BitVec 6} {s : State}
    (h : Keeps s0 s) :
    KeepsOn s0 (execBoardStrapLatch boot node s) := by
  unfold execBoardStrapLatch
  try dsimp only
  repeat' first
    | with_reducible assumption
    | intro _
    | with_reducible apply keepsOn_next
    | with_reducible apply keeps_ite
    | with_reducible apply keeps_foldl
    | with_reducible apply keeps_forN
    | fail_if_no_progress with_reducible apply keeps_mk
    | split

theorem keeps_execWatchdogExpiry {s0 : State} {also : AlsoReset} {s : State}
    (h : Keeps s0 s) :
    KeepsOn s0 (execWatchdogExpiry also s) := by
  unfold execWatchdogExpiry
  try dsimp only
  repeat' first
    | with_reducible assumption
    | intro _
    | with_reducible apply keepsOn_next
    | with_reducible apply keeps_State_warm
    | with_reducible apply keeps_ite
    | split

theorem keeps_execJtagReset {s0 : State} {also : AlsoReset} {s : State}
    (h : Keeps s0 s) :
    KeepsOn s0 (execJtagReset also s) := by
  unfold execJtagReset
  try dsimp only
  repeat' first
    | with_reducible assumption
    | intro _
    | with_reducible apply keepsOn_next
    | with_reducible apply keeps_State_warm
    | with_reducible apply keeps_State_mgrRestart
    | with_reducible apply keeps_ite
    | fail_if_no_progress with_reducible apply keeps_mk
    | split

theorem keeps_State_portReset {s0 : State} {p : PortId} {s : State}
    (h : Keeps s0 s) :
    Keeps s0 (State.portReset p s) := by
  unfold State.portReset
  try dsimp only
  repeat' first
    | with_reducible assumption
    | intro _
    | with_reducible apply keeps_State_audReset
    | with_reducible apply keeps_State_pcieReset
    | with_reducible apply keeps_State_slpReset
    | with_reducible apply keeps_State_usbReset
    | with_reducible apply keeps_ite
    | with_reducible apply keeps_foldl
    | with_reducible apply keeps_forN
    | fail_if_no_progress with_reducible apply keeps_mk
    | split

theorem keeps_execPortScopeReset {s0 : State} {p : PortId} {s : State}
    (h : Keeps s0 s) :
    KeepsOn s0 (execPortScopeReset p s) := by
  unfold execPortScopeReset
  try dsimp only
  repeat' first
    | with_reducible assumption
    | intro _
    | with_reducible apply keeps_State_portReset
    | with_reducible apply keepsOn_next

theorem keeps_State_writeResetCtrl {s0 : State} {v : W32} {a : AlsoReset} {s : State}
    (h : Keeps s0 s) :
    Keeps s0 (State.writeResetCtrl v a s) := by
  unfold State.writeResetCtrl
  try dsimp only
  repeat' first
    | with_reducible assumption
    | intro _
    | with_reducible apply keeps_State_warm
    | with_reducible apply keeps_State_dieReset
    | with_reducible apply keeps_ite
    | with_reducible apply keeps_forN
    | split

theorem keeps_execResetCtrlWarm {s0 : State} {v : BitVec 32} {also : AlsoReset} {s : State}
    (h : Keeps s0 s) :
    KeepsOn s0 (execResetCtrlWarm v also s) := by
  unfold execResetCtrlWarm
  try dsimp only
  repeat' first
    | with_reducible assumption
    | intro _
    | with_reducible apply keepsOn_next
    | with_reducible apply keeps_State_writeResetCtrl
    | with_reducible apply keeps_ite
    | split

theorem keeps_execResetCtrlDie {s0 : State} {v : BitVec 32} {s : State}
    (h : Keeps s0 s) :
    KeepsOn s0 (execResetCtrlDie v s) := by
  unfold execResetCtrlDie
  try dsimp only
  repeat' first
    | with_reducible assumption
    | intro _
    | with_reducible apply keepsOn_next
    | with_reducible apply keeps_State_writeResetCtrl
    | with_reducible apply keeps_ite
    | split

theorem keeps_State_mgrStarts {s0 : State} {s : State}
    (h : Keeps s0 s) :
    Keeps s0 (State.mgrStarts s) := by
  unfold State.mgrStarts
  try dsimp only
  repeat' first
    | with_reducible assumption
    | intro _
    | with_reducible apply keeps_State_bootLoad
    | with_reducible apply keeps_ite
    | with_reducible apply keeps_foldl
    | with_reducible apply keeps_forN
    | fail_if_no_progress with_reducible apply keeps_mk

theorem keeps_State_apllRelock {s0 : State} {s : State}
    (h : Keeps s0 s) :
    Keeps s0 (State.apllRelock s) := by
  unfold State.apllRelock
  try dsimp only
  repeat' first
    | with_reducible assumption
    | intro _
    | with_reducible apply keeps_State_errTb
    | with_reducible apply keeps_ite
    | fail_if_no_progress with_reducible apply keeps_mk
    | split

theorem keeps_execPllLock {s0 : State} {p : Pll} {s : State}
    (h : Keeps s0 s) :
    KeepsOn s0 (execPllLock p s) := by
  unfold execPllLock
  try dsimp only
  repeat' first
    | with_reducible assumption
    | intro _
    | with_reducible apply keepsOn_next
    | with_reducible apply keeps_State_mgrStarts
    | with_reducible apply keeps_State_apllRelock
    | with_reducible apply keeps_ite
    | fail_if_no_progress with_reducible apply keeps_mk
    | split

theorem keeps_execPllUnlock {s0 : State} {p : Pll} {also : AlsoReset} {s : State}
    (h : Keeps s0 s) :
    KeepsOn s0 (execPllUnlock p also s) := by
  unfold execPllUnlock
  try dsimp only
  repeat' first
    | with_reducible assumption
    | intro _
    | with_reducible apply keepsOn_next
    | with_reducible apply keeps_State_errClk
    | with_reducible apply keeps_State_warm
    | with_reducible apply keeps_State_portReset
    | with_reducible apply keeps_State_slpReset
    | with_reducible apply keeps_State_dieReset
    | with_reducible apply keeps_ite
    | with_reducible apply keeps_forN
    | fail_if_no_progress with_reducible apply keeps_mk
    | split

theorem keeps_execRefclkLoss {s0 : State} {also : AlsoReset} {s : State}
    (h : Keeps s0 s) :
    KeepsOn s0 (execRefclkLoss also s) := by
  unfold execRefclkLoss
  try dsimp only
  repeat' first
    | with_reducible assumption
    | intro _
    | with_reducible apply keepsOn_next
    | with_reducible apply keeps_State_warm
    | with_reducible apply keeps_ite
    | fail_if_no_progress with_reducible apply keeps_mk
    | split

theorem keeps_State_resumeSfc {s0 : State} {s : State}
    (h : Keeps s0 s) :
    Keeps s0 (State.resumeSfc s) := by
  unfold State.resumeSfc
  try dsimp only
  repeat' first
    | with_reducible assumption
    | intro _
    | with_reducible apply keeps_State_sfcJump
    | with_reducible apply keeps_ite
    | with_reducible apply keeps_foldl
    | with_reducible apply keeps_forN
    | fail_if_no_progress with_reducible apply keeps_mk
    | split

theorem keeps_execRefclkRestored {s0 : State} {s : State}
    (h : Keeps s0 s) :
    KeepsOn s0 (execRefclkRestored s) := by
  unfold execRefclkRestored
  try dsimp only
  repeat' first
    | with_reducible assumption
    | intro _
    | with_reducible apply keepsOn_next
    | with_reducible apply keeps_State_mgrStarts
    | with_reducible apply keeps_State_resumeSfc
    | with_reducible apply keeps_ite
    | fail_if_no_progress with_reducible apply keeps_mk
    | split

theorem keeps_execWclkLoss {s0 : State} {s : State}
    (h : Keeps s0 s) :
    KeepsOn s0 (execWclkLoss s) := by
  unfold execWclkLoss
  try dsimp only
  repeat' first
    | with_reducible assumption
    | intro _
    | with_reducible apply keeps_State_errTb
    | with_reducible apply keepsOn_next
    | with_reducible apply keeps_ite
    | with_reducible apply keeps_foldl
    | with_reducible apply keeps_forN
    | fail_if_no_progress with_reducible apply keeps_mk

theorem keeps_execWclkRelock {s0 : State} {s : State}
    (h : Keeps s0 s) :
    KeepsOn s0 (execWclkRelock s) := by
  unfold execWclkRelock
  try dsimp only
  repeat' first
    | with_reducible assumption
    | intro _
    | with_reducible apply keepsOn_next
    | with_reducible apply keeps_ite
    | with_reducible apply keeps_foldl
    | with_reducible apply keeps_forN
    | fail_if_no_progress with_reducible apply keeps_mk

theorem keeps_State_slotLimits {s0 : State} {s : State}
    (h : Keeps s0 s) :
    Keeps s0 (State.slotLimits s) := by
  unfold State.slotLimits
  try dsimp only
  repeat' first
    | with_reducible assumption
    | intro _
    | with_reducible apply keeps_State_modPort
    | with_reducible apply keeps_State_errAud
    | with_reducible apply keeps_ite
    | with_reducible apply keeps_forN
    | fail_if_no_progress with_reducible apply keeps_mk
    | split

theorem keeps_State_writeTbCtrl {s0 : State} {v : W32} {s : State}
    (h : Keeps s0 s) :
    Keeps s0 (State.writeTbCtrl v s) := by
  unfold State.writeTbCtrl
  try dsimp only
  repeat' first
    | with_reducible assumption
    | intro _
    | with_reducible apply keeps_State_errTb
    | with_reducible apply keeps_State_slotLimits
    | with_reducible apply keeps_State_mclkRun
    | with_reducible apply keeps_ite
    | fail_if_no_progress with_reducible apply keeps_mk
    | split

theorem keeps_execTbCtrlWrite {s0 : State} {v : BitVec 32} {s : State}
    (h : Keeps s0 s) :
    KeepsOn s0 (execTbCtrlWrite v s) := by
  unfold execTbCtrlWrite
  try dsimp only
  repeat' first
    | with_reducible assumption
    | intro _
    | with_reducible apply keeps_State_writeTbCtrl
    | with_reducible apply keepsOn_next

theorem keeps_State_mpcAdvance {s0 : State} {n : Nat} {s : State}
    (h : Keeps s0 s) :
    Keeps s0 (State.mpcAdvance n s) := by
  unfold State.mpcAdvance
  try dsimp only
  repeat' first
    | with_reducible assumption
    | intro _
    | with_reducible apply keeps_State_mark
    | with_reducible apply keeps_ite
    | with_reducible apply keeps_foldl
    | with_reducible apply keeps_forN
    | fail_if_no_progress with_reducible apply keeps_mk

theorem keeps_execMpcTick {s0 : State} {steps : BitVec 16} {s : State}
    (h : Keeps s0 s) :
    KeepsOn s0 (execMpcTick steps s) := by
  unfold execMpcTick
  try dsimp only
  repeat' first
    | with_reducible assumption
    | intro _
    | with_reducible apply keepsOn_next
    | with_reducible apply keeps_State_mpcAdvance
    | with_reducible apply keeps_ite
    | fail_if_no_progress with_reducible apply keeps_mk
    | split

theorem keeps_execMainsLoss {s0 : State} {s : State}
    (h : Keeps s0 s) :
    KeepsOn s0 (execMainsLoss s) := by
  unfold execMainsLoss
  try dsimp only
  repeat' first
    | with_reducible assumption
    | intro _
    | with_reducible apply keepsOn_next
    | with_reducible apply keeps_ite
    | fail_if_no_progress with_reducible apply keeps_mk
    | split

theorem keeps_execMainsHold {s0 : State} {s : State}
    (h : Keeps s0 s) :
    KeepsOn s0 (execMainsHold s) := by
  unfold execMainsHold
  try dsimp only
  repeat' first
    | with_reducible assumption
    | intro _
    | with_reducible apply keepsOn_next
    | with_reducible apply keeps_State_errTb
    | with_reducible apply keeps_State_errCam
    | with_reducible apply keeps_ite
    | fail_if_no_progress with_reducible apply keeps_mk
    | split

theorem keeps_execBeaconMarker {s0 : State} {port : Fin 4} {s : State}
    (h : Keeps s0 s) :
    KeepsOn s0 (execBeaconMarker port s) := by
  unfold execBeaconMarker
  try dsimp only
  repeat' first
    | with_reducible assumption
    | intro _
    | with_reducible apply keepsOn_next
    | with_reducible apply keeps_State_sendMarker
    | with_reducible apply keeps_ite
    | fail_if_no_progress with_reducible apply keeps_mk
    | split

theorem keeps_execBeaconFullValue {s0 : State} {port : Fin 4} {f : LinkFrame} {s : State}
    (h : Keeps s0 s) :
    KeepsOn s0 (execBeaconFullValue port f s) := by
  unfold execBeaconFullValue
  try dsimp only
  repeat' first
    | with_reducible assumption
    | intro _
    | with_reducible apply keepsOn_next
    | with_reducible apply keeps_State_onFrame
    | with_reducible apply keeps_State_sendFull
    | with_reducible apply keeps_ite
    | fail_if_no_progress with_reducible apply keeps_mk
    | split

theorem keeps_execBeaconReload {s0 : State} {s : State}
    (h : Keeps s0 s) :
    KeepsOn s0 (execBeaconReload s) := by
  unfold execBeaconReload
  try dsimp only
  repeat' first
    | with_reducible assumption
    | intro _
    | with_reducible apply keeps_State_errTb
    | with_reducible apply keeps_State_sfcJump
    | with_reducible apply keepsOn_next
    | with_reducible apply keeps_ite
    | with_reducible apply keeps_foldl
    | with_reducible apply keeps_forN
    | fail_if_no_progress with_reducible apply keeps_mk
    | split

theorem keeps_execBeaconLoss {s0 : State} {s : State}
    (h : Keeps s0 s) :
    KeepsOn s0 (execBeaconLoss s) := by
  unfold execBeaconLoss
  try dsimp only
  repeat' first
    | with_reducible assumption
    | intro _
    | with_reducible apply keeps_State_beaconHold
    | with_reducible apply keepsOn_next

theorem keeps_execSfcCheck {s0 : State} {s : State}
    (h : Keeps s0 s) :
    KeepsOn s0 (execSfcCheck s) := by
  unfold execSfcCheck
  try dsimp only
  repeat' first
    | with_reducible assumption
    | intro _
    | with_reducible apply keeps_State_errGlb
    | with_reducible apply keeps_State_modDie
    | with_reducible apply keepsOn_next
    | with_reducible apply keeps_ite
    | with_reducible apply keeps_foldl
    | with_reducible apply keeps_forN

theorem keeps_execSfcCheckReload {s0 : State} {d : Fin 4} {s : State}
    (h : Keeps s0 s) :
    KeepsOn s0 (execSfcCheckReload d s) := by
  unfold execSfcCheckReload
  try dsimp only
  repeat' first
    | with_reducible assumption
    | intro _
    | with_reducible apply keeps_State_errTb
    | with_reducible apply keeps_State_modDie
    | with_reducible apply keeps_State_mark
    | with_reducible apply keepsOn_next
    | with_reducible apply keeps_ite
    | with_reducible apply keeps_foldl
    | with_reducible apply keeps_forN
    | fail_if_no_progress with_reducible apply keeps_mk
    | split

theorem keeps_execBridgeTrainingDone {s0 : State} {d : Fin 4} {s : State}
    (h : Keeps s0 s) :
    KeepsOn s0 (execBridgeTrainingDone d s) := by
  unfold execBridgeTrainingDone
  try dsimp only
  repeat' first
    | with_reducible assumption
    | intro _
    | with_reducible apply keeps_State_modDie
    | with_reducible apply keepsOn_next
    | with_reducible apply keeps_ite

theorem keeps_execBridgeTrainTimeout {s0 : State} {d : Fin 4} {s : State}
    (h : Keeps s0 s) :
    KeepsOn s0 (execBridgeTrainTimeout d s) := by
  unfold execBridgeTrainTimeout
  try dsimp only
  repeat' first
    | with_reducible assumption
    | intro _
    | with_reducible apply keeps_State_errGlb
    | with_reducible apply keeps_State_bridgeTo
    | with_reducible apply keeps_State_modDie
    | with_reducible apply keepsOn_next
    | with_reducible apply keeps_ite

theorem keeps_State_bridgeUp {s0 : State} {d : Nat} {s : State}
    (h : Keeps s0 s) :
    Keeps s0 (State.bridgeUp d s) := by
  unfold State.bridgeUp
  try dsimp only
  repeat' first
    | with_reducible assumption
    | intro _
    | with_reducible apply keeps_State_modDie
    | with_reducible apply keeps_State_mark
    | with_reducible apply keeps_ite
    | fail_if_no_progress with_reducible apply keeps_mk
    | split

theorem keeps_execBridgePositionReport {s0 : State} {d : Fin 4} {code : BitVec 3} {s : State}
    (h : Keeps s0 s) :
    KeepsOn s0 (execBridgePositionReport d code s) := by
  unfold execBridgePositionReport
  try dsimp only
  repeat' first
    | with_reducible assumption
    | intro _
    | with_reducible apply keeps_State_errGlb
    | with_reducible apply keeps_State_bridgeTo
    | with_reducible apply keeps_State_bridgeUp
    | with_reducible apply keeps_State_modDie
    | with_reducible apply keepsOn_next
    | with_reducible apply keeps_ite

theorem keeps_execBridgeLinkError {s0 : State} {d : Fin 4} {s : State}
    (h : Keeps s0 s) :
    KeepsOn s0 (execBridgeLinkError d s) := by
  unfold execBridgeLinkError
  try dsimp only
  repeat' first
    | with_reducible assumption
    | intro _
    | with_reducible apply keeps_State_modDie
    | with_reducible apply keepsOn_next
    | with_reducible apply keeps_ite

theorem keeps_execBridgeRetrainDone {s0 : State} {d : Fin 4} {s : State}
    (h : Keeps s0 s) :
    KeepsOn s0 (execBridgeRetrainDone d s) := by
  unfold execBridgeRetrainDone
  try dsimp only
  repeat' first
    | with_reducible assumption
    | intro _
    | with_reducible apply keepsOn_next
    | with_reducible apply keeps_State_bridgeUp
    | with_reducible apply keeps_State_dmaRelease
    | with_reducible apply keeps_ite
    | split

theorem keeps_execBridgeRetrainTimeout {s0 : State} {d : Fin 4} {s : State}
    (h : Keeps s0 s) :
    KeepsOn s0 (execBridgeRetrainTimeout d s) := by
  unfold execBridgeRetrainTimeout
  try dsimp only
  repeat' first
    | with_reducible assumption
    | intro _
    | with_reducible apply keepsOn_next
    | with_reducible apply keeps_State_bridgeTo
    | with_reducible apply keeps_State_errGlb
    | with_reducible apply keeps_State_dieGone
    | with_reducible apply keeps_State_dieInit
    | with_reducible apply keeps_State_dmaRelease
    | with_reducible apply keeps_State_faultTrig
    | with_reducible apply keeps_ite
    | split

end Sys2Proof.Laws
end

