-- ==== Sys2Proof/Laws/KeepsGarast.lean ====
section
/-!
SUPPORT. For each operation of these files: it keeps what `Keeps` says.
-/
namespace Sys2Proof.Laws
open Sys2Proof.Machine

theorem keeps_State_onBlock {s0 : State} {off : Nat} {f : State → State} {s : State}
    (h : Keeps s0 s) (hf : ∀ v0, Keeps s0 v0 → Keeps s0 (f v0)) :
    Keeps s0 (State.onBlock off f s) := by
  unfold State.onBlock
  try dsimp only
  repeat' first
    | with_reducible assumption
    | intro _
    | with_reducible apply hf
    | with_reducible apply keeps_State_offAccess
    | with_reducible apply keeps_ite

theorem keeps_State_writeSqCfg {s0 : State} {n : Nat} {v : W32} {s : State}
    (h : Keeps s0 s) :
    Keeps s0 (State.writeSqCfg n v s) := by
  unfold State.writeSqCfg
  try dsimp only
  repeat' first
    | with_reducible assumption
    | intro _
    | with_reducible apply keeps_State_errRing
    | with_reducible apply keeps_State_modRing
    | with_reducible apply keeps_ite

theorem keeps_State_writeCqCfg {s0 : State} {n : Nat} {v : W32} {s : State}
    (h : Keeps s0 s) :
    Keeps s0 (State.writeCqCfg n v s) := by
  unfold State.writeCqCfg
  try dsimp only
  repeat' first
    | with_reducible assumption
    | intro _
    | with_reducible apply keeps_State_releaseHeld
    | with_reducible apply keeps_State_errRing
    | with_reducible apply keeps_State_modRing
    | with_reducible apply keeps_ite

theorem keeps_State_writeTransport {s0 : State} {spi : Bool} {v : W32} {s : State}
    (h : Keeps s0 s) :
    Keeps s0 (State.writeTransport spi v s) := by
  unfold State.writeTransport
  try dsimp only
  repeat' first
    | with_reducible assumption
    | intro _
    | with_reducible apply keeps_State_errRing
    | with_reducible apply keeps_ite
    | with_reducible apply keeps_foldl
    | with_reducible apply keeps_forN
    | fail_if_no_progress with_reducible apply keeps_mk

theorem keeps_State_writeBase {s0 : State} {n : Nat} {cq : Bool} {hi : Bool} {v : W32} {s : State}
    (h : Keeps s0 s) :
    Keeps s0 (State.writeBase n cq hi v s) := by
  unfold State.writeBase
  try dsimp only
  repeat' first
    | with_reducible assumption
    | intro _
    | with_reducible apply keeps_State_errRing
    | with_reducible apply keeps_State_modRing
    | with_reducible apply keeps_ite

theorem keeps_State_writeTail {s0 : State} {n : Nat} {v : W32} {s : State}
    (h : Keeps s0 s) :
    Keeps s0 (State.writeTail n v s) := by
  unfold State.writeTail
  try dsimp only
  repeat' first
    | with_reducible assumption
    | intro _
    | with_reducible apply keeps_State_wakeFire
    | with_reducible apply keeps_State_errRing
    | with_reducible apply keeps_State_modRing
    | with_reducible apply keeps_ite

theorem keeps_State_writeCqHead {s0 : State} {n : Nat} {v : W32} {s : State}
    (h : Keeps s0 s) :
    Keeps s0 (State.writeCqHead n v s) := by
  unfold State.writeCqHead
  try dsimp only
  repeat' first
    | with_reducible assumption
    | intro _
    | with_reducible apply keeps_State_releaseHeld
    | with_reducible apply keeps_State_errRing
    | with_reducible apply keeps_State_modRing
    | with_reducible apply keeps_ite

theorem keeps_execGcpSqCfgWrite {s0 : State} {n : Fin 64} {v : BitVec 32} {s : State}
    (h : Keeps s0 s) :
    KeepsOn s0 (execGcpSqCfgWrite n v s) := by
  unfold execGcpSqCfgWrite
  try dsimp only
  repeat' first
    | with_reducible assumption
    | intro _
    | with_reducible apply keeps_State_writeSqCfg
    | with_reducible apply keeps_State_onBlock
    | with_reducible apply keepsOn_next

theorem keeps_execGcpCqCfgWrite {s0 : State} {n : Fin 64} {v : BitVec 32} {s : State}
    (h : Keeps s0 s) :
    KeepsOn s0 (execGcpCqCfgWrite n v s) := by
  unfold execGcpCqCfgWrite
  try dsimp only
  repeat' first
    | with_reducible assumption
    | intro _
    | with_reducible apply keeps_State_onBlock
    | with_reducible apply keeps_State_writeCqCfg
    | with_reducible apply keepsOn_next

theorem keeps_execGcpTransportCfgWrite {s0 : State} {spi : Bool} {v : BitVec 32} {s : State}
    (h : Keeps s0 s) :
    KeepsOn s0 (execGcpTransportCfgWrite spi v s) := by
  unfold execGcpTransportCfgWrite
  try dsimp only
  repeat' first
    | with_reducible assumption
    | intro _
    | with_reducible apply keeps_State_writeTransport
    | with_reducible apply keeps_State_onBlock
    | with_reducible apply keepsOn_next

theorem keeps_execGcpSqTailWrite {s0 : State} {n : Fin 64} {v : BitVec 32} {s : State}
    (h : Keeps s0 s) :
    KeepsOn s0 (execGcpSqTailWrite n v s) := by
  unfold execGcpSqTailWrite
  try dsimp only
  repeat' first
    | with_reducible assumption
    | intro _
    | with_reducible apply keeps_State_onBlock
    | with_reducible apply keeps_State_writeTail
    | with_reducible apply keepsOn_next

theorem keeps_execGcpCqHeadWrite {s0 : State} {n : Fin 64} {v : BitVec 32} {s : State}
    (h : Keeps s0 s) :
    KeepsOn s0 (execGcpCqHeadWrite n v s) := by
  unfold execGcpCqHeadWrite
  try dsimp only
  repeat' first
    | with_reducible assumption
    | intro _
    | with_reducible apply keeps_State_onBlock
    | with_reducible apply keeps_State_writeCqHead
    | with_reducible apply keepsOn_next

theorem keeps_State_unbind {s0 : State} {n : Nat} {e : Nat} {go : Bool} {s : State}
    (h : Keeps s0 s) :
    Keeps s0 (State.unbind n e go s) := by
  unfold State.unbind
  try dsimp only
  repeat' first
    | with_reducible assumption
    | intro _
    | with_reducible apply keeps_State_modRing
    | with_reducible apply keeps_ite
    | fail_if_no_progress with_reducible apply keeps_mk
    | split

theorem keeps_State_seal {s0 : State} {c : Cmd} {s : State}
    (h : Keeps s0 s) :
    Keeps s0 (State.seal c s) := by
  unfold State.seal
  try dsimp only
  repeat' first
    | with_reducible assumption
    | intro _
    | with_reducible apply keeps_State_unbind
    | with_reducible apply keeps_State_modEpoch
    | with_reducible apply keeps_ite
    | with_reducible apply keeps_id
    | with_reducible apply keeps_forN
    | fail_if_no_progress with_reducible apply keeps_mk
    | split

theorem keeps_State_readCtrl {s0 : State} {c : Cmd} {s : State}
    (h : Keeps s0 s) :
    Keeps s0 (State.readCtrl c s) := by
  unfold State.readCtrl
  try dsimp only
  repeat' first
    | with_reducible assumption
    | intro _
    | with_reducible apply keeps_State_seal
    | with_reducible apply keeps_State_unbind
    | with_reducible apply keeps_ite
    | with_reducible apply keeps_id
    | split

theorem keeps_State_addCmd {s0 : State} {c : Cmd} {s : State}
    (h : Keeps s0 s) :
    Keeps s0 (State.addCmd c s) := by
  unfold State.addCmd
  try dsimp only
  repeat' first
    | with_reducible assumption
    | intro _
    | with_reducible apply keeps_State_arm
    | with_reducible apply keeps_ite
    | with_reducible apply keeps_id
    | fail_if_no_progress with_reducible apply keeps_mk
    | split

theorem keeps_State_readProxied {s0 : State} {s : State} {c : Cmd} {node : BitVec 6} {cfg : W32} {packet : List Byte}
    (h : Keeps s0 s) :
    Keeps s0 (State.readProxied s c node cfg packet) := by
  unfold State.readProxied
  try dsimp only
  repeat' first
    | with_reducible assumption
    | intro _
    | with_reducible apply keeps_State_complete
    | with_reducible refine keeps_State_sendMsg ?_ _ (by with_reducible assumption)
    | with_reducible apply keeps_State_addCmd
    | with_reducible refine keeps_State_sendTo ?_ _ (by with_reducible assumption)
    | with_reducible apply keeps_ite
    | with_reducible apply keeps_id
    | fail_if_no_progress with_reducible apply keeps_mk
    | split

theorem keeps_State_readLocal {s0 : State} {s : State} {c : Cmd} {cfg : W32} {packet : List Byte} {params : Option (List Byte)} {epoch
    : Option Nat}
    (h : Keeps s0 s) :
    Keeps s0 (State.readLocal s c cfg packet params epoch) := by
  unfold State.readLocal
  try dsimp only
  repeat' first
    | with_reducible assumption
    | intro _
    | with_reducible apply keeps_State_complete
    | with_reducible apply keeps_State_addCmd
    | with_reducible apply keeps_State_readCtrl
    | with_reducible apply keeps_ite
    | fail_if_no_progress with_reducible apply keeps_mk
    | split

theorem keeps_execCommandRead {s0 : State} {n : Fin 64} {host : HostFetch} {s : State}
    (h : Keeps s0 s) :
    KeepsOn s0 (execCommandRead n host s) := by
  unfold execCommandRead
  try dsimp only
  repeat' first
    | with_reducible assumption
    | intro _
    | with_reducible apply keepsOn_next
    | with_reducible apply keeps_State_errRing
    | with_reducible apply keeps_State_modRing
    | with_reducible apply keeps_State_readProxied
    | with_reducible apply keeps_State_readLocal
    | with_reducible apply keeps_ite
    | fail_if_no_progress with_reducible apply keeps_mk
    | split

theorem keeps_State_begin_ {s0 : State} {c : Cmd} {apply : Cmd → State → State} {s : State}
    (h : Keeps s0 s) (happly : ∀ v0 v1, Keeps s0 v1 → Keeps s0 (apply v0 v1)) :
    Keeps s0 (State.begin_ c apply s) := by
  unfold State.begin_
  try dsimp only
  repeat' first
    | with_reducible assumption
    | intro _
    | with_reducible apply happly
    | with_reducible apply keeps_State_modCmd

theorem keeps_State_command {s0 : State} {id : Nat} {op : Nat} {sel : Cmd → Bool} {check : State → Cmd → Option Nat} {apply : Cmd →
    State → State} {s : State}
    (h : Keeps s0 s) (happly : ∀ v0 v1, Keeps s0 v1 → Keeps s0 (apply v0 v1)) :
    Keeps s0 (State.command id op sel check apply s) := by
  unfold State.command
  try dsimp only
  repeat' first
    | with_reducible assumption
    | intro _
    | with_reducible apply happly
    | with_reducible apply keeps_State_complete
    | with_reducible apply keeps_State_begin_
    | with_reducible apply keeps_State_modCmd
    | with_reducible apply keeps_State_arm
    | with_reducible apply keeps_ite
    | with_reducible apply keeps_id
    | fail_if_no_progress with_reducible apply keeps_mk
    | split

theorem keeps_State_dueTick {s0 : State} {c : Cmd} {late : Nat} {skipped : Bool} {check : State → Cmd → Option Nat} {apply :
    Cmd → State → State} {s : State}
    (h : Keeps s0 s) (happly : ∀ v0 v1, Keeps s0 v1 → Keeps s0 (apply v0 v1)) :
    Keeps s0 (State.dueTick c late skipped check apply s) := by
  unfold State.dueTick
  try dsimp only
  repeat' first
    | with_reducible assumption
    | intro _
    | with_reducible apply happly
    | with_reducible apply keeps_State_complete
    | with_reducible apply keeps_State_begin_
    | with_reducible apply keeps_ite
    | with_reducible apply keeps_foldl
    | with_reducible apply keeps_forN
    | fail_if_no_progress with_reducible apply keeps_mk
    | split

theorem keeps_State_applyNop {s0 : State} {c : Cmd} {s : State}
    (h : Keeps s0 s) :
    Keeps s0 (State.applyNop c s) := by
  unfold State.applyNop
  try dsimp only
  repeat' first
    | with_reducible assumption
    | intro _
    | with_reducible apply keeps_State_served

theorem keeps_execNop {s0 : State} {id : Nat} {s : State}
    (h : Keeps s0 s) :
    KeepsOn s0 (execNop id s) := by
  unfold execNop
  try dsimp only
  repeat' first
    | with_reducible assumption
    | intro _
    | with_reducible apply keeps_State_command
    | with_reducible apply keeps_State_applyNop
    | with_reducible apply keepsOn_next

theorem keeps_State_applyAbort {s0 : State} {tie : Option Nat} {c : Cmd} {s : State}
    (h : Keeps s0 s) :
    Keeps s0 (State.applyAbort tie c s) := by
  unfold State.applyAbort
  try dsimp only
  repeat' first
    | with_reducible assumption
    | intro _
    | with_reducible apply keeps_State_endCmd
    | with_reducible apply keeps_State_served
    | with_reducible apply keeps_ite
    | with_reducible apply keeps_foldl
    | with_reducible apply keeps_forN
    | fail_if_no_progress with_reducible apply keeps_mk
    | split

theorem keeps_execAbort {s0 : State} {id : Nat} {tie : Option Nat} {s : State}
    (h : Keeps s0 s) :
    KeepsOn s0 (execAbort id tie s) := by
  unfold execAbort
  try dsimp only
  repeat' first
    | with_reducible assumption
    | intro _
    | with_reducible apply keeps_State_applyAbort
    | with_reducible apply keeps_State_command
    | with_reducible apply keepsOn_next

theorem keeps_State_timesOut {s0 : State} {c : Cmd} {rs : Nat} {s : State}
    (h : Keeps s0 s) :
    Keeps s0 (State.timesOut c rs s) := by
  unfold State.timesOut
  try dsimp only
  repeat' first
    | with_reducible assumption
    | intro _
    | with_reducible apply keeps_State_finishSaves
    | with_reducible apply keeps_State_endCmd
    | with_reducible apply keeps_ite
    | with_reducible apply keeps_id
    | fail_if_no_progress with_reducible apply keeps_mk
    | split

theorem keeps_execCommandTimeout {s0 : State} {id : Nat} {tie : TimeoutTie} {s : State}
    (h : Keeps s0 s) :
    KeepsOn s0 (execCommandTimeout id tie s) := by
  unfold execCommandTimeout
  try dsimp only
  repeat' first
    | with_reducible assumption
    | intro _
    | with_reducible apply keepsOn_next
    | with_reducible apply keeps_State_timesOut
    | with_reducible apply keeps_State_modCmd
    | with_reducible apply keeps_State_tie
    | with_reducible apply keeps_State_endCmd
    | with_reducible apply keeps_State_checkpoint
    | with_reducible apply keeps_State_ckptTorn
    | with_reducible apply keeps_ite
    | with_reducible apply keeps_id
    | fail_if_no_progress with_reducible apply keeps_mk
    | split

theorem keeps_State_lateResult {s0 : State} {s : State}
    (h : Keeps s0 s) :
    Keeps s0 (State.lateResult s) := by
  unfold State.lateResult
  try dsimp only
  repeat' first
    | with_reducible assumption
    | intro _
    | with_reducible apply keeps_ite
    | with_reducible apply keeps_foldl
    | with_reducible apply keeps_forN
    | fail_if_no_progress with_reducible apply keeps_mk

theorem keeps_State_cmdArrives {s0 : State} {f : LinkFrame} {s : State}
    (h : Keeps s0 s) :
    Keeps s0 (State.cmdArrives f s) := by
  unfold State.cmdArrives
  try dsimp only
  repeat' first
    | with_reducible assumption
    | intro _
    | with_reducible refine keeps_State_assemble_eq ?_ (by with_reducible assumption)
    | with_reducible apply keeps_State_assemble
    | with_reducible apply keeps_State_complete
    | with_reducible apply keeps_State_readCtrl
    | with_reducible apply keeps_ite
    | fail_if_no_progress with_reducible apply keeps_mk
    | split

theorem keeps_execCmdFrame {s0 : State} {port : Fin 4} {f : LinkFrame} {s : State}
    (h : Keeps s0 s) :
    KeepsOn s0 (execCmdFrame port f s) := by
  unfold execCmdFrame
  try dsimp only
  repeat' first
    | with_reducible assumption
    | intro _
    | with_reducible apply keeps_State_cmdArrives
    | with_reducible apply keeps_State_onFrame
    | with_reducible apply keepsOn_next
    | with_reducible apply keeps_ite

theorem keeps_State_cplArrives {s0 : State} {f : LinkFrame} {s : State}
    (h : Keeps s0 s) :
    Keeps s0 (State.cplArrives f s) := by
  unfold State.cplArrives
  try dsimp only
  repeat' first
    | with_reducible assumption
    | intro _
    | with_reducible apply keeps_State_dropCmd
    | with_reducible apply keeps_State_postStatus
    | with_reducible apply keeps_State_lateResult
    | with_reducible apply keeps_ite
    | with_reducible apply keeps_id
    | fail_if_no_progress with_reducible apply keeps_mk
    | split

theorem keeps_execCplFrame {s0 : State} {port : Fin 4} {f : LinkFrame} {s : State}
    (h : Keeps s0 s) :
    KeepsOn s0 (execCplFrame port f s) := by
  unfold execCplFrame
  try dsimp only
  repeat' first
    | with_reducible assumption
    | intro _
    | with_reducible apply keeps_State_cplArrives
    | with_reducible apply keeps_State_onFrame
    | with_reducible apply keepsOn_next
    | with_reducible apply keeps_ite

theorem keeps_State_restoreOff {s0 : State} {c : Nat} {j : Nat} {s : State}
    (h : Keeps s0 s) :
    Keeps s0 (State.restoreOff c j s) := by
  unfold State.restoreOff
  try dsimp only
  repeat' first
    | with_reducible assumption
    | intro _
    | with_reducible apply keeps_State_freeCore
    | with_reducible apply keeps_State_modJob
    | with_reducible apply keeps_State_countPreempt
    | with_reducible apply keeps_State_addSaved
    | with_reducible apply keeps_State_dropSignal
    | with_reducible apply keeps_State_takeHeld
    | with_reducible apply keeps_ite
    | with_reducible apply keeps_foldl
    | fail_if_no_progress with_reducible apply keeps_mk
    | split

theorem keeps_State_preemptOff {s0 : State} {c : Nat} {s : State}
    (h : Keeps s0 s) :
    Keeps s0 (State.preemptOff c s) := by
  unfold State.preemptOff
  try dsimp only
  repeat' first
    | with_reducible assumption
    | intro _
    | with_reducible apply keeps_State_preempt
    | with_reducible apply keeps_State_saveNow
    | with_reducible apply keeps_State_restoreOff
    | with_reducible apply keeps_ite
    | fail_if_no_progress with_reducible apply keeps_mk
    | split

theorem keeps_State_drainDie {s0 : State} {d : Nat} {s : State}
    (h : Keeps s0 s) :
    Keeps s0 (State.drainDie d s) := by
  unfold State.drainDie
  try dsimp only
  repeat' first
    | with_reducible assumption
    | intro _
    | with_reducible apply keeps_State_preemptOff
    | with_reducible apply keeps_State_abortEpoch
    | with_reducible apply keeps_ite
    | with_reducible apply keeps_foldl

theorem keepBanks_wf {m : List Host.Cell} {d : Nat} {b : BitVec 12} (h : Memory.wf m) : Memory.wf (keepBanks d b m) :=
  filter_wf _ h

theorem keepDormouse_wf {m : List Host.Cell} {b : BitVec 9} (h : Memory.wf m) : Memory.wf (keepDormouse b m) :=
  filter_wf _ h

theorem keeps_State_dieDown {s0 : State} {d : Nat} {st : DieSt} {s : State}
    (h : Keeps s0 s) :
    Keeps s0 (State.dieDown d st s) := by
  unfold State.dieDown
  refine keeps_ite h ?_
  have h1 : Keeps s0 (s.drainDie d) := keeps_State_drainDie h
  have h2 : Keeps s0 ((s.drainDie d).dieInit d) := keeps_State_dieInit h1
  have h3 : Keeps s0 { (s.drainDie d).dieInit d with
      mem := keepBanks d (if st = .sleep then tget 0 (s.drainDie d).pmu.retDm d else 0) (s.drainDie d).mem } :=
    ⟨h2.build, h2.pending, fun w => keepBanks_wf (h1.mem w), h2.hostOut⟩
  exact keeps_State_modDie (keeps_ite h3 (keeps_State_bridgeTo h3))

theorem keeps_execRegulatorReady {s0 : State} {d : Fin 4} {s : State}
    (h : Keeps s0 s) :
    KeepsOn s0 (execRegulatorReady d s) := by
  unfold execRegulatorReady
  try dsimp only
  repeat' first
    | with_reducible assumption
    | intro _
    | with_reducible apply keeps_State_bridgeTo
    | with_reducible apply keeps_State_modDie
    | with_reducible apply keepsOn_next
    | with_reducible apply keeps_ite
    | with_reducible apply keeps_foldl
    | with_reducible apply keeps_forN
    | fail_if_no_progress with_reducible apply keeps_mk
    | split

theorem keeps_execRegulatorStartTimeout {s0 : State} {d : Fin 4} {s : State}
    (h : Keeps s0 s) :
    KeepsOn s0 (execRegulatorStartTimeout d s) := by
  unfold execRegulatorStartTimeout
  try dsimp only
  repeat' first
    | with_reducible assumption
    | intro _
    | with_reducible apply keeps_State_modDie
    | with_reducible apply keeps_State_errPmu
    | with_reducible apply keepsOn_next
    | with_reducible apply keeps_ite
    | with_reducible apply keeps_foldl
    | with_reducible apply keeps_forN
    | fail_if_no_progress with_reducible apply keeps_mk
    | split

theorem keeps_State_applyPower {s0 : State} {c : Cmd} {s : State}
    (h : Keeps s0 s) :
    Keeps s0 (State.applyPower c s) := by
  unfold State.applyPower
  try dsimp only
  repeat' first
    | with_reducible assumption
    | intro _
    | with_reducible apply keeps_State_complete
    | with_reducible apply keeps_State_modDie
    | with_reducible apply keeps_State_dieOn
    | with_reducible apply keeps_State_dieDown
    | with_reducible apply keeps_State_abortAll
    | with_reducible apply keeps_State_served
    | with_reducible apply keeps_ite
    | with_reducible apply keeps_id
    | with_reducible apply keeps_foldl
    | fail_if_no_progress with_reducible apply keeps_mk
    | split

theorem keeps_execPowerState {s0 : State} {id : Nat} {s : State}
    (h : Keeps s0 s) :
    KeepsOn s0 (execPowerState id s) := by
  unfold execPowerState
  try dsimp only
  repeat' first
    | with_reducible assumption
    | intro _
    | with_reducible apply keeps_State_command
    | with_reducible apply keeps_State_applyPower
    | with_reducible apply keepsOn_next

theorem keeps_State_camPowerStop {s0 : State} {s : State}
    (h : Keeps s0 s) :
    Keeps s0 (State.camPowerStop s) := by
  unfold State.camPowerStop
  try dsimp only
  repeat' first
    | with_reducible assumption
    | intro _
    | with_reducible apply keeps_State_camVoid
    | with_reducible apply keeps_State_disarm
    | with_reducible apply keeps_State_errCam
    | with_reducible apply keeps_State_served
    | with_reducible apply keeps_id
    | with_reducible apply keeps_ite
    | with_reducible apply keeps_foldl
    | with_reducible apply keeps_forN
    | fail_if_no_progress with_reducible apply keeps_mk
    | split

theorem keeps_State_pauseWalk {s0 : State} {s : State}
    (h : Keeps s0 s) :
    Keeps s0 (State.pauseWalk s) := by
  unfold State.pauseWalk
  try dsimp only
  repeat' first
    | with_reducible assumption
    | intro _
    | with_reducible apply keeps_ite
    | with_reducible apply keeps_foldl
    | with_reducible apply keeps_forN
    | fail_if_no_progress with_reducible apply keeps_mk

theorem keeps_State_entryAborted {s0 : State} {t : DevSt} {i : Nat} {s : State}
    (h : Keeps s0 s) :
    Keeps s0 (State.entryAborted t i s) := by
  unfold State.entryAborted
  try dsimp only
  repeat' first
    | with_reducible assumption
    | intro _
    | with_reducible apply keeps_ite
    | with_reducible apply keeps_foldl
    | with_reducible apply keeps_forN
    | fail_if_no_progress with_reducible apply keeps_mk

theorem keeps_State_enterTorpor {s0 : State} {s : State}
    (h : Keeps s0 s) :
    Keeps s0 (State.enterTorpor s) := by
  unfold State.enterTorpor
  try dsimp only
  repeat' first
    | with_reducible assumption
    | intro _
    | with_reducible apply keeps_State_dieDown
    | with_reducible apply keeps_State_camPowerStop
    | with_reducible apply keeps_State_pauseWalk
    | with_reducible apply keeps_ite
    | with_reducible apply keeps_foldl
    | with_reducible apply keeps_forN
    | fail_if_no_progress with_reducible apply keeps_mk

theorem keeps_State_enterHibernate {s0 : State} {s : State}
    (h : Keeps s0 s) :
    Keeps s0 (State.enterHibernate s) := by
  unfold State.enterHibernate
  try dsimp only
  repeat' first
    | with_reducible assumption
    | intro _
    | with_reducible apply keeps_State_abortEpoch
    | with_reducible apply keeps_State_camPowerStop
    | with_reducible apply dies_wf
    | with_reducible apply mzero_wf
    | with_reducible apply mwrite_wf
    | with_reducible apply keepBanks_wf
    | with_reducible apply keepDormouse_wf
    | with_reducible apply ite_wf
    | with_reducible apply keeps_ite
    | with_reducible apply keeps_foldl
    | with_reducible apply keeps_forN
    | fail_if_no_progress with_reducible apply keeps_mk
    | fail_if_no_progress with_reducible apply keeps_mkMem

theorem keeps_State_enterOff {s0 : State} {s : State}
    (h : Keeps s0 s) :
    Keeps s0 (State.enterOff s) := by
  unfold State.enterOff
  try dsimp only
  repeat' first
    | with_reducible assumption
    | intro _
    | exact nil_wf
    | with_reducible apply dies_wf
    | with_reducible apply mzero_wf
    | with_reducible apply mwrite_wf
    | with_reducible apply keepBanks_wf
    | with_reducible apply keepDormouse_wf
    | with_reducible apply ite_wf
    | fail_if_no_progress with_reducible apply keeps_mkMem
    | with_reducible refine keeps_mkMem ?_ (mwrite_wf _ _)
    | with_reducible refine keeps_mkMem ?_ (mzero_wf _ _)
    | with_reducible refine keeps_mkHost ?_ (mwrite_wf _ _)
    | with_reducible apply keeps_ite
    | fail_if_no_progress with_reducible apply keeps_mk
    | split

theorem keeps_execPowerEntry {s0 : State} {pending : Option (Fin 12)} {s : State}
    (h : Keeps s0 s) :
    KeepsOn s0 (execPowerEntry pending s) := by
  unfold execPowerEntry
  try dsimp only
  repeat' first
    | with_reducible assumption
    | intro _
    | with_reducible apply keeps_State_entryAborted
    | with_reducible apply keeps_State_wakeFire
    | with_reducible apply keeps_State_drainDie
    | with_reducible apply keeps_State_enterHibernate
    | with_reducible apply keeps_State_enterTorpor
    | with_reducible apply keeps_State_enterOff
    | with_reducible apply keepsOn_next
    | with_reducible apply keeps_ite
    | with_reducible apply keeps_foldl
    | with_reducible apply keeps_forN
    | fail_if_no_progress with_reducible apply keeps_mk
    | split

theorem keeps_State_firmwareUp {s0 : State} {s : State}
    (h : Keeps s0 s) :
    Keeps s0 (State.firmwareUp s) := by
  unfold State.firmwareUp
  try dsimp only
  repeat' first
    | with_reducible assumption
    | intro _
    | with_reducible apply keeps_State_rise
    | with_reducible apply keeps_State_dieOn
    | with_reducible apply keeps_State_payOwed
    | with_reducible refine keeps_mkMem ?_ (mwrite_wf _ _)
    | with_reducible refine keeps_mkMem ?_ (mzero_wf _ _)
    | with_reducible refine keeps_mkHost ?_ (mwrite_wf _ _)
    | with_reducible apply keeps_ite
    | with_reducible apply keeps_forN
    | fail_if_no_progress with_reducible apply keeps_mk
    | split

theorem keeps_State_wokeFrom {s0 : State} {was : DevSt} {i : Nat} {s : State}
    (h : Keeps s0 s) :
    Keeps s0 (State.wokeFrom was i s) := by
  unfold State.wokeFrom
  try dsimp only
  repeat' first
    | with_reducible assumption
    | intro _
    | with_reducible apply keeps_ite
    | fail_if_no_progress with_reducible apply keeps_mk
    | split

theorem keeps_State_restoreFirmware {s0 : State} {kept : Option Nat} {s : State}
    (h : Keeps s0 s) :
    Keeps s0 (State.restoreFirmware kept s) := by
  unfold State.restoreFirmware
  split
  · exact keeps_ite (keeps_State_firmwareUp (keeps_mkMem h (mwrite_wf _ _))) (keeps_mk (keeps_State_bootLoad h))
  · exact keeps_State_bootLoad h

theorem keeps_State_leaveHibernate {s0 : State} {i : Nat} {s : State}
    (h : Keeps s0 s) :
    Keeps s0 (State.leaveHibernate i s) := by
  unfold State.leaveHibernate
  try dsimp only
  repeat' first
    | with_reducible assumption
    | intro _
    | with_reducible apply keeps_State_initWarm
    | with_reducible apply keeps_State_wokeFrom
    | with_reducible apply keeps_State_resumeSfc
    | with_reducible apply keeps_State_restoreFirmware
    | with_reducible apply keeps_ite
    | fail_if_no_progress with_reducible apply keeps_mk
    | split

theorem keeps_execWakeDone {s0 : State} {s : State}
    (h : Keeps s0 s) :
    KeepsOn s0 (execWakeDone s) := by
  unfold execWakeDone
  try dsimp only
  repeat' first
    | with_reducible assumption
    | intro _
    | with_reducible apply keepsOn_next
    | with_reducible apply keeps_State_wokeFrom
    | with_reducible apply keeps_State_dieOn
    | with_reducible apply keeps_State_pauseWalk
    | with_reducible apply keeps_State_linkChanged
    | with_reducible apply keeps_State_leaveHibernate
    | with_reducible refine keeps_State_draw_eq ?_ (by with_reducible assumption)
    | with_reducible refine keeps_mkMem ?_ (mwrite_wf _ _)
    | with_reducible refine keeps_mkMem ?_ (mzero_wf _ _)
    | with_reducible refine keeps_mkHost ?_ (mwrite_wf _ _)
    | with_reducible apply keeps_ite
    | with_reducible apply keeps_forN
    | fail_if_no_progress with_reducible apply keeps_mk
    | split

theorem keeps_State_vwarn {s0 : State} {n : Nat} {s : State}
    (h : Keeps s0 s) :
    Keeps s0 (State.vwarn n s) := by
  unfold State.vwarn
  try dsimp only
  repeat' first
    | with_reducible assumption
    | intro _
    | with_reducible apply keeps_State_errPmu
    | with_reducible apply keeps_State_faultTrig
    | with_reducible apply keeps_State_pauseWalk
    | with_reducible apply keeps_ite
    | fail_if_no_progress with_reducible apply keeps_mk
    | split

theorem keeps_execSupplyVwarn {s0 : State} {n : Fin 11} {s : State}
    (h : Keeps s0 s) :
    KeepsOn s0 (execSupplyVwarn n s) := by
  unfold execSupplyVwarn
  try dsimp only
  repeat' first
    | with_reducible assumption
    | intro _
    | with_reducible apply keeps_State_vwarn
    | with_reducible apply keepsOn_next
    | with_reducible apply keeps_ite

theorem keeps_execThrottleRelease {s0 : State} {s : State}
    (h : Keeps s0 s) :
    KeepsOn s0 (execThrottleRelease s) := by
  unfold execThrottleRelease
  try dsimp only
  repeat' first
    | with_reducible assumption
    | intro _
    | with_reducible apply keeps_State_pauseWalk
    | with_reducible apply keepsOn_next
    | with_reducible apply keeps_ite
    | with_reducible apply keeps_foldl
    | with_reducible apply keeps_forN
    | fail_if_no_progress with_reducible apply keeps_mk

theorem keeps_execSupplyVreset {s0 : State} {n : Fin 11} {warn : Bool} {also : AlsoReset} {s : State}
    (h : Keeps s0 s) :
    KeepsOn s0 (execSupplyVreset n warn also s) := by
  unfold execSupplyVreset
  try dsimp only
  repeat' first
    | with_reducible assumption
    | intro _
    | with_reducible apply keepsOn_next
    | with_reducible apply keeps_State_vwarn
    | with_reducible apply keeps_State_errPmu
    | with_reducible apply keeps_State_dieReset
    | with_reducible apply keeps_execColdReset
    | with_reducible apply keeps_State_slpReset
    | with_reducible apply keeps_State_pcieReset
    | with_reducible apply keeps_State_usbReset
    | with_reducible apply keeps_State_camPortReset
    | with_reducible apply keeps_State_warm
    | with_reducible apply keeps_ite
    | with_reducible apply keeps_forN
    | split

theorem keeps_State_thermalTrip {s0 : State} {d : Nat} {s : State}
    (h : Keeps s0 s) :
    Keeps s0 (State.thermalTrip d s) := by
  unfold State.thermalTrip
  try dsimp only
  repeat' first
    | with_reducible assumption
    | intro _
    | with_reducible apply keeps_State_dropSignalsTo
    | with_reducible apply keeps_State_dieGone
    | with_reducible apply keeps_State_dieInit
    | with_reducible apply keeps_State_bridgeTo
    | with_reducible apply keeps_State_modDie
    | with_reducible apply keeps_State_errPmu
    | with_reducible apply keeps_ite
    | fail_if_no_progress with_reducible apply keeps_mk
    | split

theorem keeps_execThermalSample {s0 : State} {d : Fin 4} {temps : List Int} {s : State}
    (h : Keeps s0 s) :
    KeepsOn s0 (execThermalSample d temps s) := by
  unfold execThermalSample
  try dsimp only
  repeat' first
    | with_reducible assumption
    | intro _
    | with_reducible apply keepsOn_next
    | with_reducible apply keeps_State_modDie
    | with_reducible apply keeps_State_errPmu
    | with_reducible apply keeps_State_thermalTrip
    | with_reducible apply keeps_ite
    | fail_if_no_progress with_reducible apply keeps_mk
    | split

theorem keeps_execTelemetryMessage {s0 : State} {d : Fin 4} {mv : Nat} {ma10 : Nat} {s : State}
    (h : Keeps s0 s) :
    KeepsOn s0 (execTelemetryMessage d mv ma10 s) := by
  unfold execTelemetryMessage
  try dsimp only
  repeat' first
    | with_reducible assumption
    | intro _
    | with_reducible apply keepsOn_next
    | with_reducible apply keeps_State_modDie
    | with_reducible apply keeps_ite
    | fail_if_no_progress with_reducible apply keeps_mk
    | split

theorem keeps_execTelemetryLogWrite {s0 : State} {mw : Nat} {divs : List (Fin 64 × BitVec 2)} {iod : Reading} {aon : Reading} {s : State}
    (h : Keeps s0 s) :
    KeepsOn s0 (execTelemetryLogWrite mw divs iod aon s) := by
  unfold execTelemetryLogWrite
  try dsimp only
  repeat' first
    | with_reducible assumption
    | intro _
    | with_reducible apply keepsOn_next
    | with_reducible apply keeps_State_modDie
    | with_reducible apply keeps_State_modCore
    | with_reducible apply keeps_ite
    | with_reducible apply keeps_foldl
    | with_reducible apply keeps_forN
    | fail_if_no_progress with_reducible apply keeps_mk
    | split

theorem keeps_State_writeWindow {s0 : State} {avs : Bool} {d : Nat} {v : W32} {s : State}
    (h : Keeps s0 s) :
    Keeps s0 (State.writeWindow avs d v s) := by
  unfold State.writeWindow
  try dsimp only
  repeat' first
    | with_reducible assumption
    | intro _
    | with_reducible apply keeps_State_errPmu
    | with_reducible apply keeps_ite
    | with_reducible apply keeps_foldl
    | with_reducible apply keeps_forN
    | fail_if_no_progress with_reducible apply keeps_mk

theorem keeps_execPmuWindowWrite {s0 : State} {avs : Bool} {d : Fin 4} {v : BitVec 32} {s : State}
    (h : Keeps s0 s) :
    KeepsOn s0 (execPmuWindowWrite avs d v s) := by
  unfold execPmuWindowWrite
  try dsimp only
  repeat' first
    | with_reducible assumption
    | intro _
    | with_reducible apply keeps_State_writeWindow
    | with_reducible apply keepsOn_next

theorem keeps_State_dieReturns {s0 : State} {d : Nat} {st : DieSt} {s : State}
    (h : Keeps s0 s) :
    Keeps s0 (State.dieReturns d st s) := by
  unfold State.dieReturns
  try dsimp only
  repeat' first
    | with_reducible assumption
    | intro _
    | with_reducible apply keeps_State_drainDie
    | with_reducible refine keeps_State_draw_eq ?_ (by with_reducible assumption)
    | with_reducible apply keeps_State_draw
    | with_reducible apply keeps_State_failJobs
    | with_reducible apply keeps_State_streamsGone
    | with_reducible apply keeps_State_dieDown
    | with_reducible apply keeps_ite
    | split

theorem keeps_execAutowakeIdleReturn {s0 : State} {b : WakeBlock} {s : State}
    (h : Keeps s0 s) :
    KeepsOn s0 (execAutowakeIdleReturn b s) := by
  unfold execAutowakeIdleReturn
  try dsimp only
  repeat' first
    | with_reducible assumption
    | intro _
    | with_reducible apply keepsOn_next
    | with_reducible apply keeps_State_dieReturns
    | with_reducible apply keeps_ite
    | fail_if_no_progress with_reducible apply keeps_mk
    | split

theorem keeps_State_fllUpdate {s0 : State} {s : State}
    (h : Keeps s0 s) :
    Keeps s0 (State.fllUpdate s) := by
  unfold State.fllUpdate
  try dsimp only
  repeat' first
    | with_reducible assumption
    | intro _
    | with_reducible apply keeps_ite
    | with_reducible apply keeps_foldl
    | with_reducible apply keeps_forN
    | fail_if_no_progress with_reducible apply keeps_mk

theorem keeps_State_seqNext {s0 : State} {n : Nat} {s : State}
    (h : Keeps s0 s) :
    Keeps s0 (State.seqNext n s) := by
  unfold State.seqNext
  try dsimp only
  repeat' first
    | with_reducible assumption
    | intro _
    | with_reducible apply keeps_State_errAon
    | with_reducible apply keeps_State_fllUpdate
    | with_reducible apply keeps_ite
    | with_reducible apply keeps_foldl
    | with_reducible apply keeps_forN
    | fail_if_no_progress with_reducible apply keeps_mk

theorem keeps_State_seqRetire {s0 : State} {s : State}
    (h : Keeps s0 s) :
    Keeps s0 (State.seqRetire s) := by
  unfold State.seqRetire
  try dsimp only
  repeat' first
    | with_reducible assumption
    | intro _
    | with_reducible apply keeps_State_seqNext
    | with_reducible apply keeps_ite
    | with_reducible apply keeps_foldl
    | with_reducible apply keeps_forN
    | fail_if_no_progress with_reducible apply keeps_mk

theorem keeps_State_seqEvent {s0 : State} {i : Nat} {s : State}
    (h : Keeps s0 s) :
    Keeps s0 (State.seqEvent i s) := by
  unfold State.seqEvent
  try dsimp only
  repeat' first
    | with_reducible assumption
    | intro _
    | with_reducible apply keeps_State_seqRetire
    | with_reducible apply keeps_ite
    | with_reducible apply keeps_foldl
    | with_reducible apply keeps_forN
    | fail_if_no_progress with_reducible apply keeps_mk

theorem keeps_execFllLock {s0 : State} {s : State}
    (h : Keeps s0 s) :
    KeepsOn s0 (execFllLock s) := by
  unfold execFllLock
  try dsimp only
  repeat' first
    | with_reducible assumption
    | intro _
    | with_reducible apply keeps_State_seqRetire
    | with_reducible apply keepsOn_next
    | with_reducible apply keeps_ite
    | with_reducible apply keeps_foldl
    | with_reducible apply keeps_forN
    | fail_if_no_progress with_reducible apply keeps_mk
    | split

theorem keeps_State_levelUpdate {s0 : State} {i : Nat} {s : State}
    (h : Keeps s0 s) :
    Keeps s0 (State.levelUpdate i s) := by
  unfold State.levelUpdate
  try dsimp only
  repeat' first
    | with_reducible assumption
    | intro _
    | with_reducible apply keeps_State_wakeFire
    | with_reducible apply keeps_State_seqEvent
    | with_reducible apply keeps_ite
    | with_reducible apply keeps_foldl
    | with_reducible apply keeps_forN
    | fail_if_no_progress with_reducible apply keeps_mk

theorem keeps_State_mainsRise {s0 : State} {s : State}
    (h : Keeps s0 s) :
    Keeps s0 (State.mainsRise s) := by
  unfold State.mainsRise
  try dsimp only
  repeat' first
    | with_reducible assumption
    | intro _
    | with_reducible apply keeps_State_mpcAdvance
    | with_reducible apply keeps_ite
    | fail_if_no_progress with_reducible apply keeps_mk
    | split

theorem keeps_State_crossing {s0 : State} {i : Nat} {high : Bool} {s : State}
    (h : Keeps s0 s) :
    Keeps s0 (State.crossing i high s) := by
  unfold State.crossing
  try dsimp only
  repeat' first
    | with_reducible assumption
    | intro _
    | with_reducible apply keeps_State_mainsRise
    | with_reducible apply keeps_State_levelUpdate
    | with_reducible apply keeps_State_seqEvent
    | with_reducible apply keeps_State_wakeFire
    | with_reducible apply keeps_ite
    | fail_if_no_progress with_reducible apply keeps_mk
    | split

theorem keeps_State_inputLevel {s0 : State} {i : Nat} {high : Bool} {s : State}
    (h : Keeps s0 s) :
    Keeps s0 (State.inputLevel i high s) := by
  unfold State.inputLevel
  try dsimp only
  repeat' first
    | with_reducible assumption
    | intro _
    | with_reducible apply keeps_State_crossing
    | with_reducible apply keeps_ite
    | fail_if_no_progress with_reducible apply keeps_mk
    | split

theorem keeps_State_inputTick {s0 : State} {i : Nat} {s : State}
    (h : Keeps s0 s) :
    Keeps s0 (State.inputTick i s) := by
  unfold State.inputTick
  try dsimp only
  repeat' first
    | with_reducible assumption
    | intro _
    | with_reducible apply keeps_State_crossing
    | with_reducible apply keeps_ite
    | fail_if_no_progress with_reducible apply keeps_mk
    | split

theorem keeps_State_cmpInput {s0 : State} {i : Nat} {mv : Int} {s : State}
    (h : Keeps s0 s) :
    Keeps s0 (State.cmpInput i mv s) := by
  unfold State.cmpInput
  try dsimp only
  repeat' first
    | with_reducible assumption
    | intro _
    | with_reducible apply keeps_State_inputLevel
    | with_reducible apply keeps_ite
    | fail_if_no_progress with_reducible apply keeps_mk
    | split

theorem keeps_execCmpInstCrossing {s0 : State} {mv : Int} {s : State}
    (h : Keeps s0 s) :
    KeepsOn s0 (execCmpInstCrossing mv s) := by
  unfold execCmpInstCrossing
  try dsimp only
  repeat' first
    | with_reducible assumption
    | intro _
    | with_reducible apply keepsOn_next
    | with_reducible apply keeps_State_cmpInput
    | with_reducible apply keeps_ite
    | split

theorem keeps_execCmpMainsCrossing {s0 : State} {mv : Int} {s : State}
    (h : Keeps s0 s) :
    KeepsOn s0 (execCmpMainsCrossing mv s) := by
  unfold execCmpMainsCrossing
  try dsimp only
  repeat' first
    | with_reducible assumption
    | intro _
    | with_reducible apply keepsOn_next
    | with_reducible apply keeps_State_cmpInput
    | with_reducible apply keeps_ite
    | split

theorem keeps_execWakePinEvent {s0 : State} {n : Fin 4} {high : Bool} {s : State}
    (h : Keeps s0 s) :
    KeepsOn s0 (execWakePinEvent n high s) := by
  unfold execWakePinEvent
  try dsimp only
  repeat' first
    | with_reducible assumption
    | intro _
    | with_reducible apply keepsOn_next
    | with_reducible apply keeps_State_inputLevel
    | with_reducible apply keeps_ite
    | split

theorem keeps_State_pdmStore {s0 : State} {bs : List Byte} {s : State}
    (h : Keeps s0 s) :
    Keeps s0 (State.pdmStore bs s) := by
  unfold State.pdmStore
  try dsimp only
  repeat' first
    | with_reducible assumption
    | intro _
    | with_reducible apply keeps_State_poke
    | with_reducible apply keeps_ite
    | with_reducible apply keeps_foldl
    | split

theorem keeps_execPdmBlock {s0 : State} {dat0 : List Bool} {dat1 : List Bool} {s : State}
    (h : Keeps s0 s) :
    KeepsOn s0 (execPdmBlock dat0 dat1 s) := by
  unfold execPdmBlock
  try dsimp only
  repeat' first
    | with_reducible assumption
    | intro _
    | with_reducible apply keepsOn_next
    | with_reducible apply keeps_State_pdmStore
    | with_reducible apply keeps_State_errAon
    | with_reducible apply keeps_State_seqEvent
    | with_reducible apply keeps_ite
    | fail_if_no_progress with_reducible apply keeps_mk
    | split

theorem keeps_State_writePdm {s0 : State} {v : W32} {s : State}
    (h : Keeps s0 s) :
    Keeps s0 (State.writePdm v s) := by
  unfold State.writePdm
  try dsimp only
  repeat' first
    | with_reducible assumption
    | intro _
    | with_reducible apply keeps_State_fllUpdate
    | with_reducible apply keeps_State_errAon
    | with_reducible apply keeps_ite
    | fail_if_no_progress with_reducible apply keeps_mk
    | split

theorem keeps_State_writeThr {s0 : State} {k : Nat} {v : W32} {s : State}
    (h : Keeps s0 s) :
    Keeps s0 (State.writeThr k v s) := by
  unfold State.writeThr
  try dsimp only
  repeat' first
    | with_reducible assumption
    | intro _
    | with_reducible apply keeps_State_errAon
    | with_reducible apply keeps_ite
    | with_reducible apply keeps_foldl
    | with_reducible apply keeps_forN
    | fail_if_no_progress with_reducible apply keeps_mk

theorem keeps_State_writeSeqCtrl {s0 : State} {v : W32} {s : State}
    (h : Keeps s0 s) :
    Keeps s0 (State.writeSeqCtrl v s) := by
  unfold State.writeSeqCtrl
  try dsimp only
  repeat' first
    | with_reducible assumption
    | intro _
    | with_reducible apply keeps_State_fllUpdate
    | with_reducible apply keeps_ite
    | with_reducible apply keeps_foldl
    | with_reducible apply keeps_forN
    | fail_if_no_progress with_reducible apply keeps_mk

theorem keeps_State_writeTimer {s0 : State} {v : W32} {s : State}
    (h : Keeps s0 s) :
    Keeps s0 (State.writeTimer v s) := by
  unfold State.writeTimer
  try dsimp only
  repeat' first
    | with_reducible assumption
    | intro _
    | with_reducible apply keeps_ite
    | with_reducible apply keeps_foldl
    | with_reducible apply keeps_forN
    | fail_if_no_progress with_reducible apply keeps_mk

theorem keeps_State_writeMbox {s0 : State} {n : Nat} {v : W32} {s : State}
    (h : Keeps s0 s) :
    Keeps s0 (State.writeMbox n v s) := by
  unfold State.writeMbox
  try dsimp only
  repeat' first
    | with_reducible assumption
    | intro _
    | with_reducible apply keeps_State_seqEvent
    | with_reducible apply keeps_ite
    | with_reducible apply keeps_foldl
    | with_reducible apply keeps_forN
    | fail_if_no_progress with_reducible apply keeps_mk

theorem keeps_State_writeCmp {s0 : State} {i : Nat} {v : W32} {s : State}
    (h : Keeps s0 s) :
    Keeps s0 (State.writeCmp i v s) := by
  unfold State.writeCmp
  try dsimp only
  repeat' first
    | with_reducible assumption
    | intro _
    | with_reducible apply keeps_State_levelUpdate
    | with_reducible apply keeps_State_inputLevel
    | with_reducible apply keeps_ite
    | fail_if_no_progress with_reducible apply keeps_mk
    | split

theorem keeps_State_writeAon {s0 : State} {o : Nat} {v : W32} {s : State}
    (h : Keeps s0 s) :
    Keeps s0 (State.writeAon o v s) := by
  unfold State.writeAon
  try dsimp only
  repeat' first
    | with_reducible assumption
    | intro _
    | with_reducible apply keeps_State_writeSeqCtrl
    | with_reducible apply keeps_State_writeCmp
    | with_reducible apply keeps_State_levelUpdate
    | with_reducible apply keeps_State_writePdm
    | with_reducible apply keeps_State_writeTimer
    | with_reducible apply keeps_State_errAon
    | with_reducible apply keeps_State_writeThr
    | with_reducible apply keeps_State_writeMbox
    | with_reducible apply keeps_ite
    | fail_if_no_progress with_reducible apply keeps_mk
    | split

theorem keeps_State_aonWrite {s0 : State} {f : State → State} {s : State}
    (h : Keeps s0 s) (hf : ∀ v0, Keeps s0 v0 → Keeps s0 (f v0)) :
    Keeps s0 (State.aonWrite f s) := by
  unfold State.aonWrite
  try dsimp only
  repeat' first
    | with_reducible assumption
    | intro _
    | with_reducible apply hf
    | with_reducible apply keeps_ite
    | split

theorem keeps_execAonPdmCtrlWrite {s0 : State} {v : BitVec 32} {s : State}
    (h : Keeps s0 s) :
    KeepsOn s0 (execAonPdmCtrlWrite v s) := by
  unfold execAonPdmCtrlWrite
  try dsimp only
  repeat' first
    | with_reducible assumption
    | intro _
    | with_reducible apply keepsOn_next
    | with_reducible apply keeps_State_aonWrite
    | with_reducible apply keeps_State_writePdm
    | with_reducible apply keeps_ite
    | split

theorem keeps_execAonT0ThrWrite {s0 : State} {k : Fin 8} {v : BitVec 32} {s : State}
    (h : Keeps s0 s) :
    KeepsOn s0 (execAonT0ThrWrite k v s) := by
  unfold execAonT0ThrWrite
  try dsimp only
  repeat' first
    | with_reducible assumption
    | intro _
    | with_reducible apply keepsOn_next
    | with_reducible apply keeps_State_aonWrite
    | with_reducible apply keeps_State_writeThr
    | with_reducible apply keeps_ite
    | split

theorem keeps_execAonMboxIn3Write {s0 : State} {v : BitVec 32} {s : State}
    (h : Keeps s0 s) :
    KeepsOn s0 (execAonMboxIn3Write v s) := by
  unfold execAonMboxIn3Write
  try dsimp only
  repeat' first
    | with_reducible assumption
    | intro _
    | with_reducible apply keepsOn_next
    | with_reducible apply keeps_State_aonWrite
    | with_reducible apply keeps_State_writeMbox
    | with_reducible apply keeps_ite
    | split

theorem keeps_execAonTimerWrite {s0 : State} {v : BitVec 32} {s : State}
    (h : Keeps s0 s) :
    KeepsOn s0 (execAonTimerWrite v s) := by
  unfold execAonTimerWrite
  try dsimp only
  repeat' first
    | with_reducible assumption
    | intro _
    | with_reducible apply keepsOn_next
    | with_reducible apply keeps_State_aonWrite
    | with_reducible apply keeps_State_writeTimer
    | with_reducible apply keeps_ite
    | split

theorem keeps_execSeqStart {s0 : State} {v : BitVec 32} {s : State}
    (h : Keeps s0 s) :
    KeepsOn s0 (execSeqStart v s) := by
  unfold execSeqStart
  try dsimp only
  repeat' first
    | with_reducible assumption
    | intro _
    | with_reducible apply keepsOn_next
    | with_reducible apply keeps_State_aonWrite
    | with_reducible apply keeps_State_writeSeqCtrl
    | with_reducible apply keeps_ite
    | split

theorem keeps_execSeqHaltRequest {s0 : State} {v : BitVec 32} {s : State}
    (h : Keeps s0 s) :
    KeepsOn s0 (execSeqHaltRequest v s) := by
  unfold execSeqHaltRequest
  try dsimp only
  repeat' first
    | with_reducible assumption
    | intro _
    | with_reducible apply keepsOn_next
    | with_reducible apply keeps_State_aonWrite
    | with_reducible apply keeps_State_writeSeqCtrl
    | with_reducible apply keeps_ite
    | split

theorem keeps_execRtcTick {s0 : State} {s : State}
    (h : Keeps s0 s) :
    KeepsOn s0 (execRtcTick s) := by
  unfold execRtcTick
  try dsimp only
  repeat' first
    | with_reducible assumption
    | intro _
    | with_reducible apply keepsOn_next
    | with_reducible apply keeps_State_inputTick
    | with_reducible apply keeps_ite
    | with_reducible apply keeps_forN
    | fail_if_no_progress with_reducible apply keeps_mk
    | split

theorem keeps_execRtcAlarm {s0 : State} {s : State}
    (h : Keeps s0 s) :
    KeepsOn s0 (execRtcAlarm s) := by
  unfold execRtcAlarm
  try dsimp only
  repeat' first
    | with_reducible assumption
    | intro _
    | with_reducible apply keepsOn_next
    | with_reducible apply keeps_State_seqEvent
    | with_reducible apply keeps_State_wakeFire
    | with_reducible apply keeps_ite
    | fail_if_no_progress with_reducible apply keeps_mk
    | split

theorem keeps_execAonTimerExpiry {s0 : State} {s : State}
    (h : Keeps s0 s) :
    KeepsOn s0 (execAonTimerExpiry s) := by
  unfold execAonTimerExpiry
  try dsimp only
  repeat' first
    | with_reducible assumption
    | intro _
    | with_reducible apply keeps_State_seqEvent
    | with_reducible apply keepsOn_next
    | with_reducible apply keeps_ite
    | with_reducible apply keeps_foldl
    | with_reducible apply keeps_forN
    | fail_if_no_progress with_reducible apply keeps_mk
    | split

theorem keeps_State_seqFault {s0 : State} {code : BitVec 4} {s : State}
    (h : Keeps s0 s) :
    Keeps s0 (State.seqFault code s) := by
  unfold State.seqFault
  try dsimp only
  repeat' first
    | with_reducible assumption
    | intro _
    | with_reducible apply keeps_State_errAon
    | with_reducible apply keeps_State_fllUpdate
    | with_reducible apply keeps_ite
    | fail_if_no_progress with_reducible apply keeps_mk
    | split

theorem keeps_State_seqStep {s0 : State} {op : Nat} {body : W32 → State → State} {s : State}
    (h : Keeps s0 s) (hbody : ∀ v0 v1, Keeps s0 v1 → Keeps s0 (body v0 v1)) :
    Keeps s0 (State.seqStep op body s) := by
  unfold State.seqStep
  try dsimp only
  repeat' first
    | with_reducible assumption
    | intro _
    | with_reducible apply hbody
    | with_reducible apply keeps_State_seqFault
    | with_reducible apply keeps_ite

theorem keeps_State_seqWrite {s0 : State} {i : W32} {v : W32} {s : State}
    (h : Keeps s0 s) :
    Keeps s0 (State.seqWrite i v s) := by
  unfold State.seqWrite
  try dsimp only
  repeat' first
    | with_reducible assumption
    | intro _
    | with_reducible apply keeps_State_seqNext
    | with_reducible apply keeps_ite
    | with_reducible apply keeps_foldl
    | with_reducible apply keeps_forN
    | fail_if_no_progress with_reducible apply keeps_mk

theorem keeps_State_seqAlu {s0 : State} {op : Nat} {f : W32 → W32 → W32} {s : State}
    (h : Keeps s0 s) :
    Keeps s0 (State.seqAlu op f s) := by
  unfold State.seqAlu
  try dsimp only
  repeat' first
    | with_reducible assumption
    | intro _
    | with_reducible apply keeps_State_seqStep
    | with_reducible apply keeps_State_seqWrite

theorem keeps_State_seqImm {s0 : State} {op : Nat} {f : W32 → W32 → W32} {s : State}
    (h : Keeps s0 s) :
    Keeps s0 (State.seqImm op f s) := by
  unfold State.seqImm
  try dsimp only
  repeat' first
    | with_reducible assumption
    | intro _
    | with_reducible apply keeps_State_seqStep
    | with_reducible apply keeps_State_seqWrite

theorem keeps_State_seqJump {s0 : State} {i : W32} {s : State}
    (h : Keeps s0 s) :
    Keeps s0 (State.seqJump i s) := by
  unfold State.seqJump
  try dsimp only
  repeat' first
    | with_reducible assumption
    | intro _
    | with_reducible apply keeps_State_seqNext
    | with_reducible apply keeps_ite

theorem keeps_State_seqBranch {s0 : State} {op : Nat} {c : W32 → W32 → Bool} {s : State}
    (h : Keeps s0 s) :
    Keeps s0 (State.seqBranch op c s) := by
  unfold State.seqBranch
  try dsimp only
  repeat' first
    | with_reducible assumption
    | intro _
    | with_reducible apply keeps_State_seqNext
    | with_reducible apply keeps_State_seqStep
    | with_reducible apply keeps_State_seqJump
    | with_reducible apply keeps_ite

theorem keeps_State_seqMem {s0 : State} {op : Nat} {n : Nat} {body : W32 → Nat → State → State} {s : State}
    (h : Keeps s0 s) (hbody : ∀ v0 v1 v2, Keeps s0 v2 → Keeps s0 (body v0 v1 v2)) :
    Keeps s0 (State.seqMem op n body s) := by
  unfold State.seqMem
  try dsimp only
  repeat' first
    | with_reducible assumption
    | intro _
    | with_reducible apply hbody
    | with_reducible apply keeps_State_seqStep
    | with_reducible apply keeps_State_seqFault
    | with_reducible apply keeps_ite

theorem keeps_execSeqNop {s0 : State} {s : State}
    (h : Keeps s0 s) :
    KeepsOn s0 (execSeqNop s) := by
  unfold execSeqNop
  try dsimp only
  repeat' first
    | with_reducible assumption
    | intro _
    | with_reducible apply keeps_State_seqNext
    | with_reducible apply keeps_State_seqStep
    | with_reducible apply keeps_State_seqFault
    | with_reducible apply keepsOn_next
    | with_reducible apply keeps_ite
    | with_reducible apply keeps_foldl
    | with_reducible apply keeps_forN
    | fail_if_no_progress with_reducible apply keeps_mk
    | split

theorem keeps_execSeqAdd {s0 : State} {s : State}
    (h : Keeps s0 s) :
    KeepsOn s0 (execSeqAdd s) := by
  unfold execSeqAdd
  try dsimp only
  repeat' first
    | with_reducible assumption
    | intro _
    | with_reducible apply keeps_State_seqAlu
    | with_reducible apply keepsOn_next

theorem keeps_execSeqSub {s0 : State} {s : State}
    (h : Keeps s0 s) :
    KeepsOn s0 (execSeqSub s) := by
  unfold execSeqSub
  try dsimp only
  repeat' first
    | with_reducible assumption
    | intro _
    | with_reducible apply keeps_State_seqAlu
    | with_reducible apply keepsOn_next

theorem keeps_execSeqAnd {s0 : State} {s : State}
    (h : Keeps s0 s) :
    KeepsOn s0 (execSeqAnd s) := by
  unfold execSeqAnd
  try dsimp only
  repeat' first
    | with_reducible assumption
    | intro _
    | with_reducible apply keeps_State_seqAlu
    | with_reducible apply keepsOn_next

theorem keeps_execSeqOr {s0 : State} {s : State}
    (h : Keeps s0 s) :
    KeepsOn s0 (execSeqOr s) := by
  unfold execSeqOr
  try dsimp only
  repeat' first
    | with_reducible assumption
    | intro _
    | with_reducible apply keeps_State_seqAlu
    | with_reducible apply keepsOn_next

theorem keeps_execSeqXor {s0 : State} {s : State}
    (h : Keeps s0 s) :
    KeepsOn s0 (execSeqXor s) := by
  unfold execSeqXor
  try dsimp only
  repeat' first
    | with_reducible assumption
    | intro _
    | with_reducible apply keeps_State_seqAlu
    | with_reducible apply keepsOn_next

theorem keeps_execSeqShl {s0 : State} {s : State}
    (h : Keeps s0 s) :
    KeepsOn s0 (execSeqShl s) := by
  unfold execSeqShl
  try dsimp only
  repeat' first
    | with_reducible assumption
    | intro _
    | with_reducible apply keeps_State_seqAlu
    | with_reducible apply keepsOn_next

theorem keeps_execSeqShr {s0 : State} {s : State}
    (h : Keeps s0 s) :
    KeepsOn s0 (execSeqShr s) := by
  unfold execSeqShr
  try dsimp only
  repeat' first
    | with_reducible assumption
    | intro _
    | with_reducible apply keeps_State_seqAlu
    | with_reducible apply keepsOn_next

theorem keeps_execSeqSar {s0 : State} {s : State}
    (h : Keeps s0 s) :
    KeepsOn s0 (execSeqSar s) := by
  unfold execSeqSar
  try dsimp only
  repeat' first
    | with_reducible assumption
    | intro _
    | with_reducible apply keeps_State_seqAlu
    | with_reducible apply keepsOn_next

theorem keeps_execSeqMul {s0 : State} {s : State}
    (h : Keeps s0 s) :
    KeepsOn s0 (execSeqMul s) := by
  unfold execSeqMul
  try dsimp only
  repeat' first
    | with_reducible assumption
    | intro _
    | with_reducible apply keeps_State_seqAlu
    | with_reducible apply keepsOn_next

theorem keeps_execSeqMin {s0 : State} {s : State}
    (h : Keeps s0 s) :
    KeepsOn s0 (execSeqMin s) := by
  unfold execSeqMin
  try dsimp only
  repeat' first
    | with_reducible assumption
    | intro _
    | with_reducible apply keeps_State_seqAlu
    | with_reducible apply keepsOn_next

theorem keeps_execSeqMax {s0 : State} {s : State}
    (h : Keeps s0 s) :
    KeepsOn s0 (execSeqMax s) := by
  unfold execSeqMax
  try dsimp only
  repeat' first
    | with_reducible assumption
    | intro _
    | with_reducible apply keeps_State_seqAlu
    | with_reducible apply keepsOn_next

theorem keeps_execSeqAddi {s0 : State} {s : State}
    (h : Keeps s0 s) :
    KeepsOn s0 (execSeqAddi s) := by
  unfold execSeqAddi
  try dsimp only
  repeat' first
    | with_reducible assumption
    | intro _
    | with_reducible apply keeps_State_seqImm
    | with_reducible apply keepsOn_next

theorem keeps_execSeqAndi {s0 : State} {s : State}
    (h : Keeps s0 s) :
    KeepsOn s0 (execSeqAndi s) := by
  unfold execSeqAndi
  try dsimp only
  repeat' first
    | with_reducible assumption
    | intro _
    | with_reducible apply keeps_State_seqImm
    | with_reducible apply keepsOn_next

theorem keeps_execSeqOri {s0 : State} {s : State}
    (h : Keeps s0 s) :
    KeepsOn s0 (execSeqOri s) := by
  unfold execSeqOri
  try dsimp only
  repeat' first
    | with_reducible assumption
    | intro _
    | with_reducible apply keeps_State_seqImm
    | with_reducible apply keepsOn_next

theorem keeps_execSeqLui {s0 : State} {s : State}
    (h : Keeps s0 s) :
    KeepsOn s0 (execSeqLui s) := by
  unfold execSeqLui
  try dsimp only
  repeat' first
    | with_reducible assumption
    | intro _
    | with_reducible apply keeps_State_seqImm
    | with_reducible apply keepsOn_next

theorem keeps_execSeqLw {s0 : State} {s : State}
    (h : Keeps s0 s) :
    KeepsOn s0 (execSeqLw s) := by
  unfold execSeqLw
  try dsimp only
  repeat' first
    | with_reducible assumption
    | intro _
    | with_reducible apply keeps_State_seqMem
    | with_reducible apply keeps_State_seqWrite
    | with_reducible apply keepsOn_next

theorem keeps_execSeqSw {s0 : State} {s : State}
    (h : Keeps s0 s) :
    KeepsOn s0 (execSeqSw s) := by
  unfold execSeqSw
  try dsimp only
  repeat' first
    | with_reducible assumption
    | intro _
    | with_reducible apply keeps_State_seqNext
    | with_reducible apply keeps_State_poke
    | with_reducible apply keeps_State_seqMem
    | with_reducible apply keepsOn_next

theorem keeps_execSeqLh {s0 : State} {s : State}
    (h : Keeps s0 s) :
    KeepsOn s0 (execSeqLh s) := by
  unfold execSeqLh
  try dsimp only
  repeat' first
    | with_reducible assumption
    | intro _
    | with_reducible apply keeps_State_seqMem
    | with_reducible apply keeps_State_seqWrite
    | with_reducible apply keepsOn_next

theorem keeps_execSeqSh {s0 : State} {s : State}
    (h : Keeps s0 s) :
    KeepsOn s0 (execSeqSh s) := by
  unfold execSeqSh
  try dsimp only
  repeat' first
    | with_reducible assumption
    | intro _
    | with_reducible apply keeps_State_seqNext
    | with_reducible apply keeps_State_poke
    | with_reducible apply keeps_State_seqMem
    | with_reducible apply keepsOn_next

theorem keeps_execSeqBeq {s0 : State} {s : State}
    (h : Keeps s0 s) :
    KeepsOn s0 (execSeqBeq s) := by
  unfold execSeqBeq
  try dsimp only
  repeat' first
    | with_reducible assumption
    | intro _
    | with_reducible apply keeps_State_seqBranch
    | with_reducible apply keepsOn_next

theorem keeps_execSeqBne {s0 : State} {s : State}
    (h : Keeps s0 s) :
    KeepsOn s0 (execSeqBne s) := by
  unfold execSeqBne
  try dsimp only
  repeat' first
    | with_reducible assumption
    | intro _
    | with_reducible apply keeps_State_seqBranch
    | with_reducible apply keepsOn_next

theorem keeps_execSeqBlt {s0 : State} {s : State}
    (h : Keeps s0 s) :
    KeepsOn s0 (execSeqBlt s) := by
  unfold execSeqBlt
  try dsimp only
  repeat' first
    | with_reducible assumption
    | intro _
    | with_reducible apply keeps_State_seqBranch
    | with_reducible apply keepsOn_next

theorem keeps_execSeqBge {s0 : State} {s : State}
    (h : Keeps s0 s) :
    KeepsOn s0 (execSeqBge s) := by
  unfold execSeqBge
  try dsimp only
  repeat' first
    | with_reducible assumption
    | intro _
    | with_reducible apply keeps_State_seqBranch
    | with_reducible apply keepsOn_next

theorem keeps_execSeqJal {s0 : State} {s : State}
    (h : Keeps s0 s) :
    KeepsOn s0 (execSeqJal s) := by
  unfold execSeqJal
  try dsimp only
  repeat' first
    | with_reducible assumption
    | intro _
    | with_reducible apply keeps_State_seqStep
    | with_reducible apply keeps_State_seqJump
    | with_reducible apply keepsOn_next
    | with_reducible apply keeps_ite
    | with_reducible apply keeps_foldl
    | with_reducible apply keeps_forN
    | fail_if_no_progress with_reducible apply keeps_mk

theorem keeps_execSeqJr {s0 : State} {s : State}
    (h : Keeps s0 s) :
    KeepsOn s0 (execSeqJr s) := by
  unfold execSeqJr
  try dsimp only
  repeat' first
    | with_reducible assumption
    | intro _
    | with_reducible apply keeps_State_seqNext
    | with_reducible apply keeps_State_seqStep
    | with_reducible apply keepsOn_next

theorem keeps_execSeqRdio {s0 : State} {s : State}
    (h : Keeps s0 s) :
    KeepsOn s0 (execSeqRdio s) := by
  unfold execSeqRdio
  try dsimp only
  repeat' first
    | with_reducible assumption
    | intro _
    | with_reducible apply keepsOn_next
    | with_reducible apply keeps_State_seqStep
    | with_reducible apply keeps_State_seqFault
    | with_reducible apply keeps_State_readEffect
    | with_reducible apply keeps_State_seqWrite
    | with_reducible apply keeps_ite
    | split

theorem keeps_execSeqWrio {s0 : State} {s : State}
    (h : Keeps s0 s) :
    KeepsOn s0 (execSeqWrio s) := by
  unfold execSeqWrio
  try dsimp only
  repeat' first
    | with_reducible assumption
    | intro _
    | with_reducible apply keeps_State_seqNext
    | with_reducible apply keeps_State_seqStep
    | with_reducible apply keeps_State_seqFault
    | with_reducible apply keeps_State_writeAon
    | with_reducible apply keepsOn_next
    | with_reducible apply keeps_ite
    | with_reducible apply keeps_foldl
    | with_reducible apply keeps_forN
    | fail_if_no_progress with_reducible apply keeps_mk

theorem keeps_execSeqWaitev {s0 : State} {s : State}
    (h : Keeps s0 s) :
    KeepsOn s0 (execSeqWaitev s) := by
  unfold execSeqWaitev
  try dsimp only
  repeat' first
    | with_reducible assumption
    | intro _
    | with_reducible apply keeps_State_seqRetire
    | with_reducible apply keeps_State_seqStep
    | with_reducible apply keeps_State_seqFault
    | with_reducible apply keeps_State_fllUpdate
    | with_reducible apply keepsOn_next
    | with_reducible apply keeps_ite
    | with_reducible apply keeps_foldl
    | with_reducible apply keeps_forN
    | fail_if_no_progress with_reducible apply keeps_mk

theorem keeps_execSeqShrew {s0 : State} {s : State}
    (h : Keeps s0 s) :
    KeepsOn s0 (execSeqShrew s) := by
  unfold execSeqShrew
  try dsimp only
  repeat' first
    | with_reducible assumption
    | intro _
    | with_reducible apply keeps_State_seqStep
    | with_reducible apply keeps_State_seqWrite
    | with_reducible apply keepsOn_next
    | with_reducible apply keeps_ite
    | with_reducible apply keeps_foldl
    | with_reducible apply keeps_forN
    | fail_if_no_progress with_reducible apply keeps_mk

theorem keeps_State_decide_ {s0 : State} {k : Nat} {score : Byte} {s : State}
    (h : Keeps s0 s) :
    Keeps s0 (State.decide_ k score s).1 := by
  unfold State.decide_
  try dsimp only
  repeat' first
    | with_reducible assumption
    | intro _
    | with_reducible apply keeps_State_wakeFire
    | with_reducible apply keeps_State_errAon
    | with_reducible apply keeps_ite
    | with_reducible apply keeps_foldl
    | with_reducible apply keeps_forN
    | fail_if_no_progress with_reducible apply keeps_mk
    | split

theorem keeps_State_decide__eq {s0 : State} {k : Nat} {score : Byte} {s : State} {a0} {t0}
    (h : Keeps s0 s) (e0 : State.decide_ k score s = (t0, a0)) : Keeps s0 t0 := by
  have k := keeps_State_decide_ (k := k) (score := score) (s := s) h
  rw [e0] at k
  exact k

theorem keeps_execSeqDecide {s0 : State} {s : State}
    (h : Keeps s0 s) :
    KeepsOn s0 (execSeqDecide s) := by
  unfold execSeqDecide
  try dsimp only
  repeat' first
    | with_reducible assumption
    | intro _
    | with_reducible apply keeps_State_seqStep
    | with_reducible apply keeps_State_seqWrite
    | with_reducible apply keeps_State_decide_
    | with_reducible refine keeps_State_decide__eq ?_ (by with_reducible assumption)
    | with_reducible apply keepsOn_next

theorem keeps_execSeqHalt {s0 : State} {s : State}
    (h : Keeps s0 s) :
    KeepsOn s0 (execSeqHalt s) := by
  unfold execSeqHalt
  try dsimp only
  repeat' first
    | with_reducible assumption
    | intro _
    | with_reducible apply keeps_State_seqStep
    | with_reducible apply keeps_State_fllUpdate
    | with_reducible apply keepsOn_next
    | with_reducible apply keeps_ite
    | with_reducible apply keeps_foldl
    | with_reducible apply keeps_forN
    | fail_if_no_progress with_reducible apply keeps_mk

theorem keeps_State_shrewLayer {s0 : State} {d : List Byte} {s : State}
    (h : Keeps s0 s) :
    Keeps s0 (State.shrewLayer d s) := by
  unfold State.shrewLayer
  try dsimp only
  repeat' first
    | with_reducible assumption
    | intro _
    | with_reducible refine keeps_State_draw_eq ?_ (by with_reducible assumption)
    | with_reducible apply keeps_State_draw
    | with_reducible apply keeps_State_poke
    | with_reducible apply keeps_ite
    | split

theorem keeps_State_shrewRun {s0 : State} {i : Nat} {y1 : Nat} {y2 : State}
    (h : Keeps s0 y2) :
    Keeps s0 (State.shrewRun i y1 y2).1 := by
  induction y1 generalizing i y2 with
  | zero => exact h
  | succ n ih =>
    unfold State.shrewRun
    try dsimp only
    repeat' first
      | with_reducible assumption
      | intro _
      | with_reducible apply ih
      | with_reducible apply keeps_State_shrewLayer
      | with_reducible apply keeps_ite
      | with_reducible apply keeps_foldl
      | with_reducible apply keeps_forN
      | fail_if_no_progress with_reducible apply keeps_mk
      | split

theorem keeps_State_shrewRun_eq {s0 : State} {i : Nat} {y1 : Nat} {y2 : State} {a0} {t0}
    (h : Keeps s0 y2) (e0 : State.shrewRun i y1 y2 = (t0, a0)) : Keeps s0 t0 := by
  have k := keeps_State_shrewRun (i := i) (y1 := y1) (y2 := y2) h
  rw [e0] at k
  exact k

theorem keeps_execShrewDone {s0 : State} {s : State}
    (h : Keeps s0 s) :
    KeepsOn s0 (execShrewDone s) := by
  unfold execShrewDone
  try dsimp only
  repeat' first
    | with_reducible assumption
    | intro _
    | with_reducible apply keeps_State_seqEvent
    | with_reducible apply keeps_State_shrewRun
    | with_reducible refine keeps_State_shrewRun_eq ?_ (by with_reducible assumption)
    | with_reducible apply keeps_State_fllUpdate
    | with_reducible apply keeps_State_errAon
    | with_reducible apply keepsOn_next
    | with_reducible apply keeps_ite
    | with_reducible apply keeps_foldl
    | with_reducible apply keeps_forN
    | fail_if_no_progress with_reducible apply keeps_mk
    | split

end Sys2Proof.Laws
end

