-- ==== Sys2Proof/Laws/KeepsCommands.lean ====
section
/-!
SUPPORT. For each operation of these files: it keeps what `Keeps` says.
-/
namespace Sys2Proof.Laws
open Sys2Proof.Machine

theorem keeps_State_waitPort {s0 : State} {p : Nat} {c : Cmd} {s : State}
    (h : Keeps s0 s) :
    Keeps s0 (State.waitPort p c s) := by
  unfold State.waitPort
  try dsimp only
  repeat' first
    | with_reducible assumption
    | intro _
    | with_reducible apply keeps_State_modSlp

theorem keeps_State_portNotUp {s0 : State} {p : Nat} {c : Cmd} {s : State}
    (h : Keeps s0 s) :
    Keeps s0 (State.portNotUp p c s) := by
  unfold State.portNotUp
  try dsimp only
  repeat' first
    | with_reducible assumption
    | intro _
    | with_reducible apply keeps_State_waitPort
    | with_reducible apply keeps_State_complete
    | with_reducible apply keeps_ite
    | with_reducible apply keeps_foldl
    | with_reducible apply keeps_forN
    | fail_if_no_progress with_reducible apply keeps_mk
    | split

theorem keeps_State_request {s0 : State} {p : Nat} {w : Option Nat} {c : Cmd} {s : State}
    (h : Keeps s0 s) :
    Keeps s0 (State.request p w c s) := by
  unfold State.request
  try dsimp only
  repeat' first
    | with_reducible assumption
    | intro _
    | with_reducible apply keeps_State_waitPort
    | with_reducible apply keeps_State_modSlp

theorem keeps_State_applyPortUp {s0 : State} {c : Cmd} {s : State}
    (h : Keeps s0 s) :
    Keeps s0 (State.applyPortUp c s) := by
  unfold State.applyPortUp
  try dsimp only
  repeat' first
    | with_reducible assumption
    | intro _
    | with_reducible apply keeps_State_waitPort
    | with_reducible apply keeps_State_complete
    | with_reducible apply keeps_State_served
    | with_reducible apply keeps_State_modSlp
    | with_reducible apply keeps_ite
    | with_reducible apply keeps_foldl
    | with_reducible apply keeps_forN
    | fail_if_no_progress with_reducible apply keeps_mk
    | split

theorem keeps_State_applyPortDown {s0 : State} {c : Cmd} {s : State}
    (h : Keeps s0 s) :
    Keeps s0 (State.applyPortDown c s) := by
  unfold State.applyPortDown
  try dsimp only
  repeat' first
    | with_reducible assumption
    | intro _
    | with_reducible apply keeps_State_dropFrames
    | with_reducible apply keeps_State_portFails
    | with_reducible apply keeps_State_modSlp
    | with_reducible apply keeps_State_linkChanged
    | with_reducible apply keeps_State_served
    | with_reducible apply keeps_ite
    | fail_if_no_progress with_reducible apply keeps_mk
    | split

theorem keeps_State_applyRetrain {s0 : State} {c : Cmd} {s : State}
    (h : Keeps s0 s) :
    Keeps s0 (State.applyRetrain c s) := by
  unfold State.applyRetrain
  try dsimp only
  repeat' first
    | with_reducible assumption
    | intro _
    | with_reducible apply keeps_State_portNotUp
    | with_reducible apply keeps_State_request
    | with_reducible apply keeps_ite

theorem keeps_State_applySetWidth {s0 : State} {c : Cmd} {s : State}
    (h : Keeps s0 s) :
    Keeps s0 (State.applySetWidth c s) := by
  unfold State.applySetWidth
  try dsimp only
  repeat' first
    | with_reducible assumption
    | intro _
    | with_reducible apply keeps_State_portNotUp
    | with_reducible apply keeps_State_request
    | with_reducible apply keeps_State_modSlp
    | with_reducible apply keeps_ite

theorem keeps_State_applySetRate {s0 : State} {c : Cmd} {s : State}
    (h : Keeps s0 s) :
    Keeps s0 (State.applySetRate c s) := by
  unfold State.applySetRate
  try dsimp only
  repeat' first
    | with_reducible assumption
    | intro _
    | with_reducible apply keeps_State_portNotUp
    | with_reducible apply keeps_State_request
    | with_reducible apply keeps_State_modSlp
    | with_reducible apply keeps_ite

theorem keeps_State_applySetNodeId {s0 : State} {c : Cmd} {s : State}
    (h : Keeps s0 s) :
    Keeps s0 (State.applySetNodeId c s) := by
  unfold State.applySetNodeId
  try dsimp only
  repeat' first
    | with_reducible assumption
    | intro _
    | with_reducible apply keeps_State_served
    | with_reducible apply keeps_State_linkChanged
    | with_reducible apply keeps_State_setNode

theorem keeps_State_applyEnumerate {s0 : State} {c : Cmd} {s : State}
    (h : Keeps s0 s) :
    Keeps s0 (State.applyEnumerate c s) := by
  unfold State.applyEnumerate
  try dsimp only
  repeat' first
    | with_reducible assumption
    | intro _
    | with_reducible apply keeps_State_setNode
    | with_reducible apply keeps_State_flood
    | with_reducible apply keeps_State_linkChanged
    | with_reducible apply keeps_ite
    | fail_if_no_progress with_reducible apply keeps_mk
    | split

theorem keeps_execEnumerationComplete {s0 : State} {id : Nat} {s : State}
    (h : Keeps s0 s) :
    KeepsOn s0 (execEnumerationComplete id s) := by
  unfold execEnumerationComplete
  try dsimp only
  repeat' first
    | with_reducible assumption
    | intro _
    | with_reducible apply keepsOn_next
    | with_reducible apply keeps_State_served
    | with_reducible apply keeps_ite
    | with_reducible apply keeps_id
    | fail_if_no_progress with_reducible apply keeps_mk
    | split

theorem keeps_State_applyBeaconRoot {s0 : State} {c : Cmd} {s : State}
    (h : Keeps s0 s) :
    Keeps s0 (State.applyBeaconRoot c s) := by
  unfold State.applyBeaconRoot
  try dsimp only
  repeat' first
    | with_reducible assumption
    | intro _
    | with_reducible apply keeps_State_flood
    | with_reducible apply keeps_State_served
    | with_reducible apply keeps_ite
    | with_reducible apply keeps_foldl
    | with_reducible apply keeps_forN
    | fail_if_no_progress with_reducible apply keeps_mk

theorem keeps_State_applyBeaconJoin {s0 : State} {c : Cmd} {s : State}
    (h : Keeps s0 s) :
    Keeps s0 (State.applyBeaconJoin c s) := by
  unfold State.applyBeaconJoin
  try dsimp only
  repeat' first
    | with_reducible assumption
    | intro _
    | with_reducible apply keeps_State_served
    | with_reducible apply keeps_State_writeTbCtrl
    | with_reducible apply keeps_State_beaconRoute

theorem keeps_State_applyProxyBind {s0 : State} {c : Cmd} {s : State}
    (h : Keeps s0 s) :
    Keeps s0 (State.applyProxyBind c s) := by
  unfold State.applyProxyBind
  try dsimp only
  repeat' first
    | with_reducible assumption
    | intro _
    | with_reducible apply keeps_State_served
    | with_reducible apply keeps_State_modRing

theorem keeps_State_applyProxyUnbind {s0 : State} {c : Cmd} {s : State}
    (h : Keeps s0 s) :
    Keeps s0 (State.applyProxyUnbind c s) := by
  unfold State.applyProxyUnbind
  try dsimp only
  repeat' first
    | with_reducible assumption
    | intro _
    | with_reducible apply keeps_State_served
    | with_reducible apply keeps_State_modRing

theorem keeps_State_applyPortReset {s0 : State} {c : Cmd} {s : State}
    (h : Keeps s0 s) :
    Keeps s0 (State.applyPortReset c s) := by
  unfold State.applyPortReset
  try dsimp only
  repeat' first
    | with_reducible assumption
    | intro _
    | with_reducible apply keeps_State_served
    | with_reducible apply keeps_State_modSlp

theorem keeps_execPortUp {s0 : State} {id : Nat} {s : State}
    (h : Keeps s0 s) :
    KeepsOn s0 (execPortUp id s) := by
  unfold execPortUp
  try dsimp only
  repeat' first
    | with_reducible assumption
    | intro _
    | with_reducible apply keeps_State_command
    | with_reducible apply keeps_State_applyPortUp
    | with_reducible apply keepsOn_next

theorem keeps_execPortDown {s0 : State} {id : Nat} {s : State}
    (h : Keeps s0 s) :
    KeepsOn s0 (execPortDown id s) := by
  unfold execPortDown
  try dsimp only
  repeat' first
    | with_reducible assumption
    | intro _
    | with_reducible apply keeps_State_command
    | with_reducible apply keeps_State_applyPortDown
    | with_reducible apply keepsOn_next

theorem keeps_execRetrain {s0 : State} {id : Nat} {s : State}
    (h : Keeps s0 s) :
    KeepsOn s0 (execRetrain id s) := by
  unfold execRetrain
  try dsimp only
  repeat' first
    | with_reducible assumption
    | intro _
    | with_reducible apply keeps_State_applyRetrain
    | with_reducible apply keeps_State_command
    | with_reducible apply keepsOn_next

theorem keeps_execSetWidth {s0 : State} {id : Nat} {s : State}
    (h : Keeps s0 s) :
    KeepsOn s0 (execSetWidth id s) := by
  unfold execSetWidth
  try dsimp only
  repeat' first
    | with_reducible assumption
    | intro _
    | with_reducible apply keeps_State_command
    | with_reducible apply keeps_State_applySetWidth
    | with_reducible apply keepsOn_next

theorem keeps_execSetRate {s0 : State} {id : Nat} {s : State}
    (h : Keeps s0 s) :
    KeepsOn s0 (execSetRate id s) := by
  unfold execSetRate
  try dsimp only
  repeat' first
    | with_reducible assumption
    | intro _
    | with_reducible apply keeps_State_command
    | with_reducible apply keeps_State_applySetRate
    | with_reducible apply keepsOn_next

theorem keeps_execSetNodeId {s0 : State} {id : Nat} {lock : Bool} {s : State}
    (h : Keeps s0 s) :
    KeepsOn s0 (execSetNodeId id lock s) := by
  unfold execSetNodeId
  try dsimp only
  repeat' first
    | with_reducible assumption
    | intro _
    | with_reducible apply keepsOn_next
    | with_reducible apply keeps_State_lockTie
    | with_reducible apply keeps_State_command
    | with_reducible apply keeps_State_applySetNodeId
    | with_reducible apply keeps_ite
    | with_reducible apply keeps_id
    | split

theorem keeps_execEnumerate {s0 : State} {id : Nat} {lock : Bool} {s : State}
    (h : Keeps s0 s) :
    KeepsOn s0 (execEnumerate id lock s) := by
  unfold execEnumerate
  try dsimp only
  repeat' first
    | with_reducible assumption
    | intro _
    | with_reducible apply keepsOn_next
    | with_reducible apply keeps_State_lockTie
    | with_reducible apply keeps_State_command
    | with_reducible apply keeps_State_applyEnumerate
    | with_reducible apply keeps_ite
    | with_reducible apply keeps_id
    | split

theorem keeps_execBeaconRoot {s0 : State} {id : Nat} {s : State}
    (h : Keeps s0 s) :
    KeepsOn s0 (execBeaconRoot id s) := by
  unfold execBeaconRoot
  try dsimp only
  repeat' first
    | with_reducible assumption
    | intro _
    | with_reducible apply keeps_State_command
    | with_reducible apply keeps_State_applyBeaconRoot
    | with_reducible apply keepsOn_next

theorem keeps_execBeaconJoin {s0 : State} {id : Nat} {s : State}
    (h : Keeps s0 s) :
    KeepsOn s0 (execBeaconJoin id s) := by
  unfold execBeaconJoin
  try dsimp only
  repeat' first
    | with_reducible assumption
    | intro _
    | with_reducible apply keeps_State_command
    | with_reducible apply keeps_State_applyBeaconJoin
    | with_reducible apply keepsOn_next

theorem keeps_execProxyBind {s0 : State} {id : Nat} {s : State}
    (h : Keeps s0 s) :
    KeepsOn s0 (execProxyBind id s) := by
  unfold execProxyBind
  try dsimp only
  repeat' first
    | with_reducible assumption
    | intro _
    | with_reducible apply keeps_State_applyProxyBind
    | with_reducible apply keeps_State_command
    | with_reducible apply keepsOn_next

theorem keeps_execProxyUnbind {s0 : State} {id : Nat} {s : State}
    (h : Keeps s0 s) :
    KeepsOn s0 (execProxyUnbind id s) := by
  unfold execProxyUnbind
  try dsimp only
  repeat' first
    | with_reducible assumption
    | intro _
    | with_reducible apply keeps_State_command
    | with_reducible apply keeps_State_applyProxyUnbind
    | with_reducible apply keepsOn_next

theorem keeps_execPortReset {s0 : State} {id : Nat} {s : State}
    (h : Keeps s0 s) :
    KeepsOn s0 (execPortReset id s) := by
  unfold execPortReset
  try dsimp only
  repeat' first
    | with_reducible assumption
    | intro _
    | with_reducible apply keeps_State_command
    | with_reducible apply keeps_State_applyPortReset
    | with_reducible apply keepsOn_next

theorem keeps_State_densities {s0 : State} {s : State}
    (h : Keeps s0 s) :
    Keeps s0 (State.densities s) := by
  unfold State.densities
  try dsimp only
  repeat' first
    | with_reducible assumption
    | intro _
    | with_reducible apply keeps_ite
    | with_reducible apply keeps_foldl
    | with_reducible apply keeps_forN
    | fail_if_no_progress with_reducible apply keeps_mk

theorem keeps_State_withTenant {s0 : State} {i : Nat} {t : Option Tenant} {s : State}
    (h : Keeps s0 s) :
    Keeps s0 (State.withTenant i t s) := by
  unfold State.withTenant
  try dsimp only
  repeat' first
    | with_reducible assumption
    | intro _
    | with_reducible apply keeps_State_densities
    | with_reducible apply keeps_ite
    | with_reducible apply keeps_foldl
    | with_reducible apply keeps_forN
    | fail_if_no_progress with_reducible apply keeps_mk

theorem keeps_State_applyTenantCreate {s0 : State} {c : Cmd} {s : State}
    (h : Keeps s0 s) :
    Keeps s0 (State.applyTenantCreate c s) := by
  unfold State.applyTenantCreate
  try dsimp only
  repeat' first
    | with_reducible assumption
    | intro _
    | with_reducible apply keeps_State_served
    | with_reducible apply keeps_State_withTenant

theorem keeps_execTenantCreate {s0 : State} {id : Nat} {s : State}
    (h : Keeps s0 s) :
    KeepsOn s0 (execTenantCreate id s) := by
  unfold execTenantCreate
  try dsimp only
  repeat' first
    | with_reducible assumption
    | intro _
    | with_reducible apply keeps_State_command
    | with_reducible apply keeps_State_applyTenantCreate
    | with_reducible apply keepsOn_next

theorem keeps_State_applyTenantSet {s0 : State} {c : Cmd} {s : State}
    (h : Keeps s0 s) :
    Keeps s0 (State.applyTenantSet c s) := by
  unfold State.applyTenantSet
  try dsimp only
  repeat' first
    | with_reducible assumption
    | intro _
    | with_reducible apply keeps_State_complete
    | with_reducible apply keeps_State_served
    | with_reducible apply keeps_State_withTenant
    | with_reducible apply keeps_ite
    | with_reducible apply keeps_foldl
    | with_reducible apply keeps_forN
    | fail_if_no_progress with_reducible apply keeps_mk
    | split

theorem keeps_execTenantSet {s0 : State} {id : Nat} {s : State}
    (h : Keeps s0 s) :
    KeepsOn s0 (execTenantSet id s) := by
  unfold execTenantSet
  try dsimp only
  repeat' first
    | with_reducible assumption
    | intro _
    | with_reducible apply keeps_State_command
    | with_reducible apply keeps_State_applyTenantSet
    | with_reducible apply keepsOn_next

theorem keeps_State_applyTenantDestroy {s0 : State} {c : Cmd} {s : State}
    (h : Keeps s0 s) :
    Keeps s0 (State.applyTenantDestroy c s) := by
  unfold State.applyTenantDestroy
  try dsimp only
  repeat' first
    | with_reducible assumption
    | intro _
    | with_reducible apply keeps_State_poolGone
    | with_reducible apply keeps_State_zeroise
    | with_reducible apply keeps_State_withTenant
    | with_reducible apply keeps_State_served
    | with_reducible apply keeps_ite
    | with_reducible apply keeps_foldl
    | fail_if_no_progress with_reducible apply keeps_mk
    | split

theorem keeps_execTenantDestroy {s0 : State} {id : Nat} {s : State}
    (h : Keeps s0 s) :
    KeepsOn s0 (execTenantDestroy id s) := by
  unfold execTenantDestroy
  try dsimp only
  repeat' first
    | with_reducible assumption
    | intro _
    | with_reducible apply keeps_State_command
    | with_reducible apply keeps_State_applyTenantDestroy
    | with_reducible apply keepsOn_next

theorem keeps_State_applyImageLoad {s0 : State} {img : ImageDesc} {c : Cmd} {s : State}
    (h : Keeps s0 s) :
    Keeps s0 (State.applyImageLoad img c s) := by
  unfold State.applyImageLoad
  try dsimp only
  repeat' first
    | with_reducible assumption
    | intro _
    | with_reducible apply keeps_State_noteDeny
    | with_reducible apply keeps_State_complete
    | with_reducible apply keeps_State_served
    | with_reducible apply keeps_State_devWrite
    | with_reducible apply keeps_ite
    | with_reducible apply keeps_foldl
    | with_reducible apply keeps_forN
    | fail_if_no_progress with_reducible apply keeps_mk
    | split

theorem keeps_execImageLoad {s0 : State} {id : Nat} {img : ImageDesc} {s : State}
    (h : Keeps s0 s) :
    KeepsOn s0 (execImageLoad id img s) := by
  unfold execImageLoad
  try dsimp only
  repeat' first
    | with_reducible assumption
    | intro _
    | with_reducible apply keepsOn_next
    | with_reducible apply keeps_State_disarm
    | with_reducible apply keeps_State_dueTick
    | with_reducible apply keeps_State_applyImageLoad
    | with_reducible apply keeps_State_command
    | with_reducible apply keeps_ite
    | with_reducible apply keeps_id
    | fail_if_no_progress with_reducible apply keeps_mk
    | split

theorem keeps_State_applyImageUnload {s0 : State} {c : Cmd} {s : State}
    (h : Keeps s0 s) :
    Keeps s0 (State.applyImageUnload c s) := by
  unfold State.applyImageUnload
  try dsimp only
  repeat' first
    | with_reducible assumption
    | intro _
    | with_reducible apply keeps_State_served
    | with_reducible apply keeps_ite
    | with_reducible apply keeps_foldl
    | with_reducible apply keeps_forN
    | fail_if_no_progress with_reducible apply keeps_mk

theorem keeps_execImageUnload {s0 : State} {id : Nat} {s : State}
    (h : Keeps s0 s) :
    KeepsOn s0 (execImageUnload id s) := by
  unfold execImageUnload
  try dsimp only
  repeat' first
    | with_reducible assumption
    | intro _
    | with_reducible apply keeps_State_command
    | with_reducible apply keeps_State_applyImageUnload
    | with_reducible apply keepsOn_next

theorem keeps_State_writeSchCtrl {s0 : State} {v : W32} {s : State}
    (h : Keeps s0 s) :
    Keeps s0 (State.writeSchCtrl v s) := by
  unfold State.writeSchCtrl
  try dsimp only
  repeat' first
    | with_reducible assumption
    | intro _
    | with_reducible apply keeps_State_errSch
    | with_reducible apply keeps_ite
    | with_reducible apply keeps_foldl
    | with_reducible apply keeps_forN
    | fail_if_no_progress with_reducible apply keeps_mk

theorem keeps_execSchCtrlWrite {s0 : State} {v : BitVec 32} {s : State}
    (h : Keeps s0 s) :
    KeepsOn s0 (execSchCtrlWrite v s) := by
  unfold execSchCtrlWrite
  try dsimp only
  repeat' first
    | with_reducible assumption
    | intro _
    | with_reducible apply keeps_State_writeSchCtrl
    | with_reducible apply keeps_State_onBlock
    | with_reducible apply keepsOn_next

theorem keeps_State_applyWarmReset {s0 : State} {also : AlsoReset} {c : Cmd} {s : State}
    (h : Keeps s0 s) :
    Keeps s0 (State.applyWarmReset also c s) := by
  unfold State.applyWarmReset
  try dsimp only
  repeat' first
    | with_reducible assumption
    | intro _
    | with_reducible apply keeps_State_warm
    | with_reducible apply keeps_ite
    | with_reducible apply keeps_id
    | split

theorem keeps_execWarmReset {s0 : State} {id : Nat} {also : AlsoReset} {s : State}
    (h : Keeps s0 s) :
    KeepsOn s0 (execWarmReset id also s) := by
  unfold execWarmReset
  try dsimp only
  repeat' first
    | with_reducible assumption
    | intro _
    | with_reducible apply keepsOn_next
    | with_reducible apply keeps_State_command
    | with_reducible apply keeps_State_applyWarmReset
    | with_reducible apply keeps_ite
    | with_reducible apply keeps_id
    | split

theorem keeps_State_applyDieReset {s0 : State} {c : Cmd} {s : State}
    (h : Keeps s0 s) :
    Keeps s0 (State.applyDieReset c s) := by
  unfold State.applyDieReset
  try dsimp only
  repeat' first
    | with_reducible assumption
    | intro _
    | with_reducible apply keeps_State_served
    | with_reducible apply keeps_State_dieReset
    | with_reducible apply keeps_ite
    | with_reducible apply keeps_foldl
    | with_reducible apply keeps_forN

theorem keeps_execDieReset {s0 : State} {id : Nat} {s : State}
    (h : Keeps s0 s) :
    KeepsOn s0 (execDieReset id s) := by
  unfold execDieReset
  try dsimp only
  repeat' first
    | with_reducible assumption
    | intro _
    | with_reducible apply keeps_State_command
    | with_reducible apply keeps_State_applyDieReset
    | with_reducible apply keepsOn_next

theorem keeps_State_applyCoreReset {s0 : State} {c : Cmd} {s : State}
    (h : Keeps s0 s) :
    Keeps s0 (State.applyCoreReset c s) := by
  unfold State.applyCoreReset
  try dsimp only
  repeat' first
    | with_reducible assumption
    | intro _
    | with_reducible apply keeps_State_coreReset
    | with_reducible apply keeps_State_served

theorem keeps_execCoreReset {s0 : State} {id : Nat} {s : State}
    (h : Keeps s0 s) :
    KeepsOn s0 (execCoreReset id s) := by
  unfold execCoreReset
  try dsimp only
  repeat' first
    | with_reducible assumption
    | intro _
    | with_reducible apply keeps_State_command
    | with_reducible apply keeps_State_applyCoreReset
    | with_reducible apply keepsOn_next

theorem keeps_State_claimStream {s0 : State} {c : Cmd} {first : Nat} {s : State}
    (h : Keeps s0 s) :
    Keeps s0 (State.claimStream c first s) := by
  unfold State.claimStream
  try dsimp only
  repeat' first
    | with_reducible assumption
    | intro _
    | with_reducible apply keeps_ite
    | with_reducible apply keeps_foldl
    | with_reducible apply keeps_forN
    | fail_if_no_progress with_reducible apply keeps_mk
    | split

theorem keeps_State_readOpen {s0 : State} {c : Cmd} {s : State}
    (h : Keeps s0 s) :
    Keeps s0 (State.readOpen c s) := by
  unfold State.readOpen
  try dsimp only
  repeat' first
    | with_reducible assumption
    | intro _
    | with_reducible apply keeps_State_begin_
    | with_reducible apply keeps_State_claimStream
    | with_reducible apply keeps_State_modCmd
    | with_reducible apply keeps_State_arm
    | with_reducible apply keeps_State_complete
    | with_reducible apply keeps_ite
    | with_reducible apply keeps_id
    | fail_if_no_progress with_reducible apply keeps_mk
    | split

theorem keeps_State_openTick {s0 : State} {c : Cmd} {late : Nat} {skipped : Bool} {s : State}
    (h : Keeps s0 s) :
    Keeps s0 (State.openTick c late skipped s) := by
  unfold State.openTick
  try dsimp only
  repeat' first
    | with_reducible assumption
    | intro _
    | with_reducible apply keeps_State_modCmd

theorem keeps_State_readStream {s0 : State} {id : Nat} {op : Nat} {check : State → Cmd → Option Nat} {take : Cmd → State →
    State} {s : State}
    (h : Keeps s0 s) (htake : ∀ v0 v1, Keeps s0 v1 → Keeps s0 (take v0 v1)) :
    Keeps s0 (State.readStream id op check take s) := by
  unfold State.readStream
  try dsimp only
  repeat' first
    | with_reducible assumption
    | intro _
    | with_reducible apply htake
    | with_reducible apply keeps_State_complete
    | with_reducible apply keeps_ite
    | with_reducible apply keeps_foldl
    | with_reducible apply keeps_forN
    | fail_if_no_progress with_reducible apply keeps_mk
    | split

theorem keeps_execStreamOpen {s0 : State} {id : Nat} {s : State}
    (h : Keeps s0 s) :
    KeepsOn s0 (execStreamOpen id s) := by
  unfold execStreamOpen
  try dsimp only
  repeat' first
    | with_reducible assumption
    | intro _
    | with_reducible apply keepsOn_next
    | with_reducible apply keeps_State_complete
    | with_reducible apply keeps_State_readOpen
    | with_reducible apply keeps_ite
    | with_reducible apply keeps_id
    | fail_if_no_progress with_reducible apply keeps_mk
    | split

theorem keeps_execStreamStart {s0 : State} {hd : Fin 256} {s : State}
    (h : Keeps s0 s) :
    KeepsOn s0 (execStreamStart hd s) := by
  unfold execStreamStart
  try dsimp only
  repeat' first
    | with_reducible assumption
    | intro _
    | with_reducible apply keepsOn_next
    | with_reducible apply keeps_State_modStream
    | with_reducible apply keeps_State_served
    | with_reducible apply keeps_ite
    | with_reducible apply keeps_id
    | fail_if_no_progress with_reducible apply keeps_mk
    | split

theorem keeps_State_applyClose {s0 : State} {c : Cmd} {s : State}
    (h : Keeps s0 s) :
    Keeps s0 (State.applyClose c s) := by
  unfold State.applyClose
  try dsimp only
  repeat' first
    | with_reducible assumption
    | intro _
    | with_reducible apply keeps_State_complete
    | with_reducible apply keeps_State_modStream
    | with_reducible apply keeps_ite
    | with_reducible apply keeps_foldl
    | with_reducible apply keeps_forN
    | fail_if_no_progress with_reducible apply keeps_mk
    | split

theorem keeps_execStreamClose {s0 : State} {id : Nat} {s : State}
    (h : Keeps s0 s) :
    KeepsOn s0 (execStreamClose id s) := by
  unfold execStreamClose
  try dsimp only
  repeat' first
    | with_reducible assumption
    | intro _
    | with_reducible apply keeps_State_command
    | with_reducible apply keeps_State_applyClose
    | with_reducible apply keepsOn_next

theorem keeps_State_readRoute {s0 : State} {c : Cmd} {s : State}
    (h : Keeps s0 s) :
    Keeps s0 (State.readRoute c s) := by
  unfold State.readRoute
  try dsimp only
  repeat' first
    | with_reducible assumption
    | intro _
    | with_reducible apply keeps_State_complete
    | with_reducible apply keeps_State_modCmd
    | with_reducible apply keeps_State_modStream
    | with_reducible apply keeps_State_arm
    | with_reducible apply keeps_ite
    | with_reducible apply keeps_id
    | fail_if_no_progress with_reducible apply keeps_mk
    | split

theorem keeps_State_routeTick {s0 : State} {c : Cmd} {late : Nat} {skipped : Bool} {s : State}
    (h : Keeps s0 s) :
    Keeps s0 (State.routeTick c late skipped s) := by
  unfold State.routeTick
  try dsimp only
  repeat' first
    | with_reducible assumption
    | intro _
    | with_reducible apply keeps_State_modStream
    | with_reducible apply keeps_State_complete
    | with_reducible apply keeps_State_served
    | with_reducible apply keeps_ite
    | with_reducible apply keeps_id
    | fail_if_no_progress with_reducible apply keeps_mk
    | split

theorem keeps_execStreamRoute {s0 : State} {id : Nat} {s : State}
    (h : Keeps s0 s) :
    KeepsOn s0 (execStreamRoute id s) := by
  unfold execStreamRoute
  try dsimp only
  repeat' first
    | with_reducible assumption
    | intro _
    | with_reducible apply keeps_State_readStream
    | with_reducible apply keeps_State_readRoute
    | with_reducible apply keepsOn_next

theorem keeps_State_applyPatch {s0 : State} {c : Cmd} {s : State}
    (h : Keeps s0 s) :
    Keeps s0 (State.applyPatch c s) := by
  unfold State.applyPatch
  try dsimp only
  repeat' first
    | with_reducible assumption
    | intro _
    | with_reducible apply keeps_State_served
    | with_reducible apply keeps_State_modStream

theorem keeps_execStreamPatch {s0 : State} {id : Nat} {s : State}
    (h : Keeps s0 s) :
    KeepsOn s0 (execStreamPatch id s) := by
  unfold execStreamPatch
  try dsimp only
  repeat' first
    | with_reducible assumption
    | intro _
    | with_reducible apply keeps_State_command
    | with_reducible apply keeps_State_applyPatch
    | with_reducible apply keepsOn_next

theorem keeps_State_applyMigrate {s0 : State} {c : Cmd} {s : State}
    (h : Keeps s0 s) :
    Keeps s0 (State.applyMigrate c s) := by
  unfold State.applyMigrate
  try dsimp only
  repeat' first
    | with_reducible assumption
    | intro _
    | with_reducible apply keeps_State_complete
    | with_reducible apply keeps_State_after
    | with_reducible apply keeps_State_modStream
    | with_reducible refine keeps_State_sendStream ?_ _ (by with_reducible assumption)
    | with_reducible refine keeps_State_draw_eq ?_ (by with_reducible assumption)
    | with_reducible apply keeps_id
    | with_reducible apply keeps_ite
    | fail_if_no_progress with_reducible apply keeps_mk
    | split

theorem keeps_execStreamMigrate {s0 : State} {id : Nat} {s : State}
    (h : Keeps s0 s) :
    KeepsOn s0 (execStreamMigrate id s) := by
  unfold execStreamMigrate
  try dsimp only
  repeat' first
    | with_reducible assumption
    | intro _
    | with_reducible apply keeps_State_command
    | with_reducible apply keeps_State_applyMigrate
    | with_reducible apply keepsOn_next

theorem keeps_State_askArrives {s0 : State} {n : BitVec 6} {tenant : Nat} {hd : Nat} {v : Nat} {b : List Byte} {s : State}
    (h : Keeps s0 s) :
    Keeps s0 (State.askArrives n tenant hd v b s) := by
  unfold State.askArrives
  try dsimp only
  repeat' first
    | with_reducible assumption
    | intro _
    | with_reducible apply keeps_State_tellStream
    | with_reducible apply keeps_State_after
    | with_reducible apply keeps_ite
    | fail_if_no_progress with_reducible apply keeps_mk
    | split

theorem keeps_State_blockArrives {s0 : State} {i : Nat} {b : Nat} {x : Stream} {data : List Byte} {s : State}
    (h : Keeps s0 s) :
    Keeps s0 (State.blockArrives i b x data s) := by
  unfold State.blockArrives
  try dsimp only
  repeat' first
    | with_reducible assumption
    | intro _
    | with_reducible apply keeps_State_modStream
    | with_reducible apply keeps_State_blockJob
    | with_reducible apply keeps_ite
    | fail_if_no_progress with_reducible apply keeps_mk
    | split

theorem keeps_State_importState {s0 : State} {x : Stream} {data : List Byte} {s : State}
    (h : Keeps s0 s) :
    Keeps s0 (State.importState x data s) := by
  unfold State.importState
  try dsimp only
  repeat' first
    | with_reducible assumption
    | intro _
    | with_reducible apply keeps_State_noteDeny
    | with_reducible apply keeps_State_devWrite
    | with_reducible apply keeps_ite
    | fail_if_no_progress with_reducible apply keeps_mk
    | split

theorem keeps_State_guestEnds {s0 : State} {i : Nat} {hd : Nat} {v : Nat} {n : BitVec 6} {x : Stream} {s : State}
    (h : Keeps s0 s) :
    Keeps s0 (State.guestEnds i hd v n x s) := by
  unfold State.guestEnds
  try dsimp only
  repeat' first
    | with_reducible assumption
    | intro _
    | with_reducible apply keeps_State_tellStream
    | with_reducible apply keeps_State_dropGuest
    | with_reducible apply keeps_ite
    | split

theorem keeps_State_answerArrives {s0 : State} {hd : Nat} {rs : Nat} {n : BitVec 6} {s : State}
    (h : Keeps s0 s) :
    Keeps s0 (State.answerArrives hd rs n s) := by
  unfold State.answerArrives
  try dsimp only
  repeat' first
    | with_reducible assumption
    | intro _
    | with_reducible apply keeps_State_migrLost
    | with_reducible apply keeps_State_modStream
    | with_reducible apply keeps_State_dropMigr
    | with_reducible apply keeps_State_complete
    | with_reducible apply keeps_ite
    | fail_if_no_progress with_reducible apply keeps_mk
    | split

theorem keeps_State_resultArrives {s0 : State} {hd : Nat} {b : Nat} {n : BitVec 6} {data : List Byte} {s : State}
    (h : Keeps s0 s) :
    Keeps s0 (State.resultArrives hd b n data s) := by
  unfold State.resultArrives
  try dsimp only
  repeat' first
    | with_reducible assumption
    | intro _
    | with_reducible apply keeps_State_modStream
    | with_reducible apply keeps_State_migrPost
    | with_reducible apply keeps_ite
    | fail_if_no_progress with_reducible apply keeps_mk
    | split

theorem keeps_State_stateReturns {s0 : State} {hd : Nat} {n : BitVec 6} {data : List Byte} {s : State}
    (h : Keeps s0 s) :
    Keeps s0 (State.stateReturns hd n data s) := by
  unfold State.stateReturns
  try dsimp only
  repeat' first
    | with_reducible assumption
    | intro _
    | with_reducible apply keeps_State_modStream
    | with_reducible apply keeps_State_tellStream
    | with_reducible apply keeps_State_importState
    | with_reducible apply keeps_ite
    | fail_if_no_progress with_reducible apply keeps_mk
    | split

theorem keeps_State_msgArrives {s0 : State} {f : LinkFrame} {b : List Byte} {s : State}
    (h : Keeps s0 s) :
    Keeps s0 (State.msgArrives f b s) := by
  unfold State.msgArrives
  try dsimp only
  repeat' first
    | with_reducible assumption
    | intro _
    | with_reducible apply keeps_State_askArrives
    | with_reducible apply keeps_State_answerArrives
    | with_reducible apply keeps_State_blockArrives
    | with_reducible apply keeps_State_resultArrives
    | with_reducible apply keeps_State_importState
    | with_reducible apply keeps_State_guestEnds
    | with_reducible apply keeps_State_stateReturns
    | with_reducible apply keeps_ite
    | fail_if_no_progress with_reducible apply keeps_mk
    | split

theorem keeps_State_newKey {s0 : State} {s : State}
    (h : Keeps s0 s) :
    Keeps s0 (State.newKey s).2 := by
  unfold State.newKey
  try dsimp only
  repeat' first
    | with_reducible assumption
    | intro _
    | with_reducible apply keeps_ite
    | with_reducible apply keeps_foldl
    | with_reducible apply keeps_forN
    | fail_if_no_progress with_reducible apply keeps_mk

theorem keeps_State_newKey_eq {s0 : State} {s : State} {a0} {t0}
    (h : Keeps s0 s) (e0 : State.newKey s = (a0, t0)) : Keeps s0 t0 := by
  have k := keeps_State_newKey (s := s) h
  rw [e0] at k
  exact k

theorem keeps_State_applySessionOpen {s0 : State} {c : Cmd} {s : State}
    (h : Keeps s0 s) :
    Keeps s0 (State.applySessionOpen c s) := by
  unfold State.applySessionOpen
  try dsimp only
  repeat' first
    | with_reducible assumption
    | intro _
    | with_reducible apply keeps_State_newKey
    | with_reducible refine keeps_State_newKey_eq ?_ (by with_reducible assumption)
    | with_reducible apply keeps_State_complete
    | with_reducible apply keeps_State_modSlot
    | with_reducible apply keeps_State_served
    | with_reducible apply keeps_ite

theorem keeps_execSessionOpen {s0 : State} {id : Nat} {tie : Bool} {s : State}
    (h : Keeps s0 s) :
    KeepsOn s0 (execSessionOpen id tie s) := by
  unfold execSessionOpen
  try dsimp only
  repeat' first
    | with_reducible assumption
    | intro _
    | with_reducible apply keepsOn_next
    | with_reducible apply keeps_State_command
    | with_reducible apply keeps_State_applySessionOpen
    | with_reducible apply keeps_State_tie
    | with_reducible apply keeps_ite
    | with_reducible apply keeps_id
    | split

theorem keeps_State_applySessionClose {s0 : State} {c : Cmd} {s : State}
    (h : Keeps s0 s) :
    Keeps s0 (State.applySessionClose c s) := by
  unfold State.applySessionClose
  try dsimp only
  repeat' first
    | with_reducible assumption
    | intro _
    | with_reducible apply keeps_State_served
    | with_reducible apply keeps_State_zeroise

theorem keeps_execSessionClose {s0 : State} {id : Nat} {s : State}
    (h : Keeps s0 s) :
    KeepsOn s0 (execSessionClose id s) := by
  unfold execSessionClose
  try dsimp only
  repeat' first
    | with_reducible assumption
    | intro _
    | with_reducible apply keeps_State_command
    | with_reducible apply keeps_State_applySessionClose
    | with_reducible apply keepsOn_next

theorem keeps_execTrngHealthFail {s0 : State} {s : State}
    (h : Keeps s0 s) :
    KeepsOn s0 (execTrngHealthFail s) := by
  unfold execTrngHealthFail
  try dsimp only
  repeat' first
    | with_reducible assumption
    | intro _
    | with_reducible apply keeps_State_errKey
    | with_reducible apply keepsOn_next
    | with_reducible apply keeps_ite
    | with_reducible apply keeps_foldl
    | with_reducible apply keeps_forN
    | fail_if_no_progress with_reducible apply keeps_mk

theorem keeps_execTrngRetest {s0 : State} {pass : Bool} {s : State}
    (h : Keeps s0 s) :
    KeepsOn s0 (execTrngRetest pass s) := by
  unfold execTrngRetest
  try dsimp only
  repeat' first
    | with_reducible assumption
    | intro _
    | with_reducible apply keepsOn_next
    | with_reducible apply keeps_ite
    | with_reducible apply keeps_foldl
    | with_reducible apply keeps_forN
    | fail_if_no_progress with_reducible apply keeps_mk

theorem keeps_State_applyMap {s0 : State} {c : Cmd} {s : State}
    (h : Keeps s0 s) :
    Keeps s0 (State.applyMap c s) := by
  unfold State.applyMap
  try dsimp only
  repeat' first
    | with_reducible assumption
    | intro _
    | with_reducible apply keeps_State_served
    | with_reducible apply keeps_ite
    | with_reducible apply keeps_foldl
    | with_reducible apply keeps_forN
    | fail_if_no_progress with_reducible apply keeps_mk

theorem keeps_execRekeyMap {s0 : State} {id : Nat} {s : State}
    (h : Keeps s0 s) :
    KeepsOn s0 (execRekeyMap id s) := by
  unfold execRekeyMap
  try dsimp only
  repeat' first
    | with_reducible assumption
    | intro _
    | with_reducible apply keeps_State_command
    | with_reducible apply keeps_State_applyMap
    | with_reducible apply keepsOn_next

theorem keeps_State_applyUnmap {s0 : State} {c : Cmd} {s : State}
    (h : Keeps s0 s) :
    Keeps s0 (State.applyUnmap c s) := by
  unfold State.applyUnmap
  try dsimp only
  repeat' first
    | with_reducible assumption
    | intro _
    | with_reducible apply keeps_State_served
    | with_reducible apply keeps_ite
    | with_reducible apply keeps_foldl
    | with_reducible apply keeps_forN
    | fail_if_no_progress with_reducible apply keeps_mk

theorem keeps_execRekeyUnmap {s0 : State} {id : Nat} {s : State}
    (h : Keeps s0 s) :
    KeepsOn s0 (execRekeyUnmap id s) := by
  unfold execRekeyUnmap
  try dsimp only
  repeat' first
    | with_reducible assumption
    | intro _
    | with_reducible apply keeps_State_command
    | with_reducible apply keeps_State_applyUnmap
    | with_reducible apply keepsOn_next

theorem keeps_State_rotated {s0 : State} {i : Nat} {s : State}
    (h : Keeps s0 s) :
    Keeps s0 (State.rotated i s) := by
  unfold State.rotated
  try dsimp only
  repeat' first
    | with_reducible assumption
    | intro _
    | with_reducible apply keeps_State_modSlot

theorem keeps_State_applyRotate {s0 : State} {c : Cmd} {s : State}
    (h : Keeps s0 s) :
    Keeps s0 (State.applyRotate c s) := by
  unfold State.applyRotate
  try dsimp only
  repeat' first
    | with_reducible assumption
    | intro _
    | with_reducible apply keeps_State_rotated
    | with_reducible apply keeps_State_newKey
    | with_reducible refine keeps_State_newKey_eq ?_ (by with_reducible assumption)
    | with_reducible apply keeps_State_complete
    | with_reducible apply keeps_State_modSlot
    | with_reducible apply keeps_State_served
    | with_reducible apply keeps_State_pauseWalk
    | with_reducible apply keeps_ite
    | with_reducible apply keeps_foldl
    | with_reducible apply keeps_forN
    | fail_if_no_progress with_reducible apply keeps_mk
    | dsimp only [id]
    | split

theorem keeps_execRekeyRotate {s0 : State} {id : Nat} {s : State}
    (h : Keeps s0 s) :
    KeepsOn s0 (execRekeyRotate id s) := by
  unfold execRekeyRotate
  try dsimp only
  repeat' first
    | with_reducible assumption
    | intro _
    | with_reducible apply keeps_State_command
    | with_reducible apply keeps_State_applyRotate
    | with_reducible apply keepsOn_next

theorem keeps_State_applyInit {s0 : State} {c : Cmd} {s : State}
    (h : Keeps s0 s) :
    Keeps s0 (State.applyInit c s) := by
  unfold State.applyInit
  try dsimp only
  repeat' first
    | with_reducible assumption
    | intro _
    | with_reducible apply keeps_State_pauseWalk
    | with_reducible apply keeps_ite
    | with_reducible apply keeps_foldl
    | with_reducible apply keeps_forN
    | fail_if_no_progress with_reducible apply keeps_mk

theorem keeps_execRekeyInit {s0 : State} {id : Nat} {s : State}
    (h : Keeps s0 s) :
    KeepsOn s0 (execRekeyInit id s) := by
  unfold execRekeyInit
  try dsimp only
  repeat' first
    | with_reducible assumption
    | intro _
    | with_reducible apply keeps_State_command
    | with_reducible apply keeps_State_applyInit
    | with_reducible apply keepsOn_next

theorem keeps_State_walkServed {s0 : State} {id : Nat} {s : State}
    (h : Keeps s0 s) :
    Keeps s0 (State.walkServed id s) := by
  unfold State.walkServed
  try dsimp only
  repeat' first
    | with_reducible assumption
    | intro _
    | with_reducible apply keeps_State_lateResult
    | with_reducible apply keeps_State_served
    | with_reducible apply keeps_ite
    | with_reducible apply keeps_foldl
    | with_reducible apply keeps_forN
    | fail_if_no_progress with_reducible apply keeps_mk
    | dsimp only [id]
    | split

theorem keeps_execRekeyWalkDone {s0 : State} {upTo : Option (BitVec 40)} {s : State}
    (h : Keeps s0 s) :
    KeepsOn s0 (execRekeyWalkDone upTo s) := by
  unfold execRekeyWalkDone
  try dsimp only
  repeat' first
    | with_reducible assumption
    | intro _
    | with_reducible apply keepsOn_next
    | with_reducible apply keeps_State_walked
    | with_reducible apply keeps_State_rotated
    | with_reducible apply keeps_State_walkServed
    | dsimp only [id]
    | with_reducible apply keeps_ite
    | fail_if_no_progress with_reducible apply keeps_mk
    | split

theorem keeps_execRekeyInitDone {s0 : State} {s : State}
    (h : Keeps s0 s) :
    KeepsOn s0 (execRekeyInitDone s) := by
  unfold execRekeyInitDone
  try dsimp only
  repeat' first
    | with_reducible assumption
    | intro _
    | with_reducible apply keeps_State_walkServed
    | with_reducible apply keepsOn_next
    | with_reducible refine keeps_mkMem ?_ (mwrite_wf _ _)
    | with_reducible refine keeps_mkMem ?_ (mzero_wf _ _)
    | with_reducible refine keeps_mkHost ?_ (mwrite_wf _ _)
    | with_reducible apply keeps_ite
    | with_reducible apply keeps_foldl
    | with_reducible apply keeps_forN
    | fail_if_no_progress with_reducible apply keeps_mk
    | dsimp only [id]
    | split

theorem keeps_execLpddrRetrain {s0 : State} {s : State}
    (h : Keeps s0 s) :
    KeepsOn s0 (execLpddrRetrain s) := by
  unfold execLpddrRetrain
  try dsimp only
  repeat' first
    | with_reducible assumption
    | intro _
    | with_reducible apply keepsOn_next

theorem keeps_State_hostReply {s0 : State} {bs : List Byte} {s : State}
    (h : Keeps s0 s) :
    Keeps s0 (State.hostReply bs s) := by
  unfold State.hostReply
  try dsimp only
  repeat' first
    | with_reducible assumption
    | intro _
    | with_reducible apply keeps_ite
    | with_reducible apply keeps_foldl
    | with_reducible apply keeps_forN
    | fail_if_no_progress with_reducible apply keeps_mk

theorem keeps_execBar2Access {s0 : State} {off : BitVec 26} {len : Nat} {w : Option (List (BitVec 8))} {s : State}
    (h : Keeps s0 s) :
    KeepsOn s0 (execBar2Access off len w s) := by
  unfold execBar2Access
  try dsimp only
  repeat' first
    | with_reducible assumption
    | intro _
    | with_reducible apply keepsOn_next
    | with_reducible apply keeps_State_hostReply
    | with_reducible apply keeps_State_errMem
    | with_reducible apply keeps_State_offAccess
    | with_reducible apply keeps_State_errKey
    | with_reducible apply keeps_State_unitDone
    | with_reducible apply keeps_State_devWrite
    | dsimp only [id]
    | with_reducible apply keeps_ite
    | fail_if_no_progress with_reducible apply keeps_mk
    | split

theorem keeps_State_writeBar2 {s0 : State} {v : W32} {s : State}
    (h : Keeps s0 s) :
    Keeps s0 (State.writeBar2 v s) := by
  unfold State.writeBar2
  try dsimp only
  repeat' first
    | with_reducible assumption
    | intro _
    | with_reducible apply keeps_ite
    | with_reducible apply keeps_foldl
    | with_reducible apply keeps_forN
    | fail_if_no_progress with_reducible apply keeps_mk

theorem keeps_execMemBar2BaseWrite {s0 : State} {v : BitVec 32} {s : State}
    (h : Keeps s0 s) :
    KeepsOn s0 (execMemBar2BaseWrite v s) := by
  unfold execMemBar2BaseWrite
  try dsimp only
  repeat' first
    | with_reducible assumption
    | intro _
    | with_reducible apply keeps_State_writeBar2
    | with_reducible apply keepsOn_next

theorem keeps_State_writeTdi {s0 : State} {v : W32} {s : State}
    (h : Keeps s0 s) :
    Keeps s0 (State.writeTdi v s) := by
  unfold State.writeTdi
  try dsimp only
  repeat' first
    | with_reducible assumption
    | intro _
    | with_reducible apply keeps_ite
    | with_reducible apply keeps_foldl
    | with_reducible apply keeps_forN
    | fail_if_no_progress with_reducible apply keeps_mk

theorem keeps_execKeyTdiWrite {s0 : State} {v : BitVec 32} {lock : Bool} {s : State}
    (h : Keeps s0 s) :
    KeepsOn s0 (execKeyTdiWrite v lock s) := by
  unfold execKeyTdiWrite
  try dsimp only
  repeat' first
    | with_reducible assumption
    | intro _
    | with_reducible apply keepsOn_next
    | with_reducible apply keeps_State_writeTdi
    | with_reducible apply keeps_ite
    | split

theorem keeps_State_answer {s0 : State} {bs : List Byte} {s : State}
    (h : Keeps s0 s) :
    Keeps s0 (State.answer bs s) := by
  unfold State.answer
  try dsimp only
  repeat' first
    | with_reducible assumption
    | intro _
    | with_reducible apply keeps_ite
    | fail_if_no_progress with_reducible apply keeps_mk
    | split

theorem keeps_State_spdmIf {s0 : State} {ok : Bool} {bs : List Byte} {f : State → State} {s : State}
    (h : Keeps s0 s) (hf : ∀ v0, Keeps s0 v0 → Keeps s0 (f v0)) :
    Keeps s0 (State.spdmIf ok bs f s) := by
  unfold State.spdmIf
  try dsimp only
  repeat' first
    | with_reducible assumption
    | intro _
    | with_reducible apply hf
    | with_reducible apply keeps_State_answer
    | with_reducible apply keeps_ite
    | split

theorem keeps_execGetVersion {s0 : State} {s : State}
    (h : Keeps s0 s) :
    KeepsOn s0 (execGetVersion s) := by
  unfold execGetVersion
  try dsimp only
  repeat' first
    | with_reducible assumption
    | intro _
    | with_reducible apply keepsOn_next
    | with_reducible apply keeps_State_answer
    | with_reducible apply keeps_ite
    | fail_if_no_progress with_reducible apply keeps_mk
    | split

theorem keeps_execGetCapabilities {s0 : State} {s : State}
    (h : Keeps s0 s) :
    KeepsOn s0 (execGetCapabilities s) := by
  unfold execGetCapabilities
  try dsimp only
  repeat' first
    | with_reducible assumption
    | intro _
    | with_reducible apply keepsOn_next
    | with_reducible apply keeps_State_spdmIf
    | with_reducible apply keeps_ite
    | fail_if_no_progress with_reducible apply keeps_mk
    | split

theorem keeps_execNegotiateAlgorithms {s0 : State} {s : State}
    (h : Keeps s0 s) :
    KeepsOn s0 (execNegotiateAlgorithms s) := by
  unfold execNegotiateAlgorithms
  try dsimp only
  repeat' first
    | with_reducible assumption
    | intro _
    | with_reducible apply keepsOn_next
    | with_reducible apply keeps_State_spdmIf
    | with_reducible apply keeps_ite
    | fail_if_no_progress with_reducible apply keeps_mk
    | split

theorem keeps_execGetDigests {s0 : State} {s : State}
    (h : Keeps s0 s) :
    KeepsOn s0 (execGetDigests s) := by
  unfold execGetDigests
  try dsimp only
  repeat' first
    | with_reducible assumption
    | intro _
    | with_reducible apply keepsOn_next
    | with_reducible apply keeps_State_answer
    | with_reducible apply keeps_ite
    | split

theorem keeps_execGetCertificate {s0 : State} {s : State}
    (h : Keeps s0 s) :
    KeepsOn s0 (execGetCertificate s) := by
  unfold execGetCertificate
  try dsimp only
  repeat' first
    | with_reducible assumption
    | intro _
    | with_reducible apply keepsOn_next
    | with_reducible apply keeps_State_answer
    | with_reducible apply keeps_ite
    | split

theorem keeps_execChallenge {s0 : State} {s : State}
    (h : Keeps s0 s) :
    KeepsOn s0 (execChallenge s) := by
  unfold execChallenge
  try dsimp only
  repeat' first
    | with_reducible assumption
    | intro _
    | with_reducible apply keepsOn_next
    | with_reducible apply keeps_State_answer
    | with_reducible apply keeps_ite
    | split

theorem keeps_execGetMeasurements {s0 : State} {s : State}
    (h : Keeps s0 s) :
    KeepsOn s0 (execGetMeasurements s) := by
  unfold execGetMeasurements
  try dsimp only
  repeat' first
    | with_reducible assumption
    | intro _
    | with_reducible apply keepsOn_next
    | with_reducible apply keeps_State_answer
    | with_reducible apply keeps_ite
    | split

theorem keeps_execKeyExchange {s0 : State} {s : State}
    (h : Keeps s0 s) :
    KeepsOn s0 (execKeyExchange s) := by
  unfold execKeyExchange
  try dsimp only
  repeat' first
    | with_reducible assumption
    | intro _
    | with_reducible apply keepsOn_next
    | with_reducible apply keeps_State_spdmIf
    | with_reducible refine keeps_State_newKey_eq ?_ (by with_reducible assumption)
    | with_reducible apply keeps_State_newKey
    | with_reducible apply keeps_ite
    | fail_if_no_progress with_reducible apply keeps_mk
    | split

theorem keeps_execFinish {s0 : State} {s : State}
    (h : Keeps s0 s) :
    KeepsOn s0 (execFinish s) := by
  unfold execFinish
  try dsimp only
  repeat' first
    | with_reducible assumption
    | intro _
    | with_reducible apply keepsOn_next
    | with_reducible apply keeps_State_spdmIf
    | with_reducible apply keeps_ite
    | fail_if_no_progress with_reducible apply keeps_mk
    | split

theorem keeps_execEndSession {s0 : State} {s : State}
    (h : Keeps s0 s) :
    KeepsOn s0 (execEndSession s) := by
  unfold execEndSession
  try dsimp only
  repeat' first
    | with_reducible assumption
    | intro _
    | with_reducible apply keepsOn_next
    | with_reducible apply keeps_State_spdmIf
    | with_reducible apply keeps_ite
    | fail_if_no_progress with_reducible apply keeps_mk
    | split

theorem keeps_State_inSession {s0 : State} {bs : List Byte} {f : State → State} {s : State}
    (h : Keeps s0 s) (hf : ∀ v0, Keeps s0 v0 → Keeps s0 (f v0)) :
    Keeps s0 (State.inSession bs f s) := by
  unfold State.inSession
  try dsimp only
  repeat' first
    | with_reducible assumption
    | intro _
    | with_reducible apply hf
    | with_reducible apply keeps_State_spdmIf
    | with_reducible apply keeps_ite
    | split

theorem keeps_State_modIde {s0 : State} {i : Nat} {f : Ide → Ide} {s : State}
    (h : Keeps s0 s) :
    Keeps s0 (State.modIde i f s) := by
  unfold State.modIde
  try dsimp only
  repeat' first
    | with_reducible assumption
    | intro _
    | with_reducible apply keeps_ite
    | with_reducible apply keeps_foldl
    | with_reducible apply keeps_forN
    | fail_if_no_progress with_reducible apply keeps_mk

theorem keeps_execIdeKmQuery {s0 : State} {s : State}
    (h : Keeps s0 s) :
    KeepsOn s0 (execIdeKmQuery s) := by
  unfold execIdeKmQuery
  try dsimp only
  repeat' first
    | with_reducible assumption
    | intro _
    | with_reducible apply keepsOn_next
    | with_reducible apply keeps_State_inSession
    | dsimp only [id]
    | with_reducible apply keeps_ite
    | with_reducible apply keeps_id
    | split

theorem keeps_execKeyProg {s0 : State} {stream : Fin 2} {sub : Fin 3} {keySet : Fin 2} {key : BitVec 256} {s : State}
    (h : Keeps s0 s) :
    KeepsOn s0 (execKeyProg stream sub keySet key s) := by
  unfold execKeyProg
  try dsimp only
  repeat' first
    | with_reducible assumption
    | intro _
    | with_reducible apply keepsOn_next
    | with_reducible apply keeps_State_inSession
    | with_reducible apply keeps_State_modIde
    | with_reducible apply keeps_ite
    | fail_if_no_progress with_reducible apply keeps_mk
    | split

theorem keeps_execKSetGo {s0 : State} {stream : Fin 2} {sub : Fin 3} {keySet : Fin 2} {s : State}
    (h : Keeps s0 s) :
    KeepsOn s0 (execKSetGo stream sub keySet s) := by
  unfold execKSetGo
  try dsimp only
  repeat' first
    | with_reducible assumption
    | intro _
    | with_reducible apply keepsOn_next
    | with_reducible apply keeps_State_inSession
    | with_reducible apply keeps_State_modIde
    | with_reducible apply keeps_ite
    | fail_if_no_progress with_reducible apply keeps_mk
    | split

theorem keeps_State_ideLeft {s0 : State} {i : Nat} {was : Bool} {s : State}
    (h : Keeps s0 s) :
    Keeps s0 (State.ideLeft i was s) := by
  unfold State.ideLeft
  try dsimp only
  repeat' first
    | with_reducible assumption
    | intro _
    | with_reducible apply keeps_State_tdiError
    | with_reducible apply keeps_ite

theorem keeps_execKSetStop {s0 : State} {stream : Fin 2} {sub : Fin 3} {keySet : Fin 2} {s : State}
    (h : Keeps s0 s) :
    KeepsOn s0 (execKSetStop stream sub keySet s) := by
  unfold execKSetStop
  try dsimp only
  repeat' first
    | with_reducible assumption
    | intro _
    | with_reducible apply keepsOn_next
    | with_reducible apply keeps_State_inSession
    | with_reducible apply keeps_State_modIde
    | with_reducible apply keeps_State_ideLeft
    | with_reducible apply keeps_ite
    | fail_if_no_progress with_reducible apply keeps_mk
    | split

theorem keeps_execIdeStreamInsecure {s0 : State} {stream : Fin 2} {s : State}
    (h : Keeps s0 s) :
    KeepsOn s0 (execIdeStreamInsecure stream s) := by
  unfold execIdeStreamInsecure
  try dsimp only
  repeat' first
    | with_reducible assumption
    | intro _
    | with_reducible apply keeps_State_ideLeft
    | with_reducible apply keeps_State_modIde
    | with_reducible apply keepsOn_next

theorem keeps_execGetTdispVersion {s0 : State} {s : State}
    (h : Keeps s0 s) :
    KeepsOn s0 (execGetTdispVersion s) := by
  unfold execGetTdispVersion
  try dsimp only
  repeat' first
    | with_reducible assumption
    | intro _
    | with_reducible apply keepsOn_next
    | with_reducible apply keeps_State_inSession
    | dsimp only [id]
    | with_reducible apply keeps_ite
    | with_reducible apply keeps_id
    | split

theorem keeps_execGetTdispCapabilities {s0 : State} {s : State}
    (h : Keeps s0 s) :
    KeepsOn s0 (execGetTdispCapabilities s) := by
  unfold execGetTdispCapabilities
  try dsimp only
  repeat' first
    | with_reducible assumption
    | intro _
    | with_reducible apply keepsOn_next
    | with_reducible apply keeps_State_inSession
    | dsimp only [id]
    | with_reducible apply keeps_ite
    | with_reducible apply keeps_id
    | split

theorem keeps_execLockInterface {s0 : State} {s : State}
    (h : Keeps s0 s) :
    KeepsOn s0 (execLockInterface s) := by
  unfold execLockInterface
  try dsimp only
  repeat' first
    | with_reducible assumption
    | intro _
    | with_reducible apply keepsOn_next
    | with_reducible apply keeps_State_inSession
    | with_reducible apply keeps_State_lockTdi
    | with_reducible apply keeps_ite
    | split

theorem keeps_execGetDeviceInterfaceReport {s0 : State} {s : State}
    (h : Keeps s0 s) :
    KeepsOn s0 (execGetDeviceInterfaceReport s) := by
  unfold execGetDeviceInterfaceReport
  try dsimp only
  repeat' first
    | with_reducible assumption
    | intro _
    | with_reducible apply keepsOn_next
    | with_reducible apply keeps_State_inSession
    | with_reducible apply keeps_ite
    | with_reducible apply keeps_id
    | split

theorem keeps_execGetDeviceInterfaceState {s0 : State} {s : State}
    (h : Keeps s0 s) :
    KeepsOn s0 (execGetDeviceInterfaceState s) := by
  unfold execGetDeviceInterfaceState
  try dsimp only
  repeat' first
    | with_reducible assumption
    | intro _
    | with_reducible apply keepsOn_next
    | with_reducible apply keeps_State_inSession
    | with_reducible apply keeps_ite
    | with_reducible apply keeps_id
    | split

theorem keeps_execStartInterface {s0 : State} {s : State}
    (h : Keeps s0 s) :
    KeepsOn s0 (execStartInterface s) := by
  unfold execStartInterface
  try dsimp only
  repeat' first
    | with_reducible assumption
    | intro _
    | with_reducible apply keepsOn_next
    | with_reducible apply keeps_State_inSession
    | with_reducible apply keeps_ite
    | fail_if_no_progress with_reducible apply keeps_mk
    | split

theorem keeps_execStopInterface {s0 : State} {s : State}
    (h : Keeps s0 s) :
    KeepsOn s0 (execStopInterface s) := by
  unfold execStopInterface
  try dsimp only
  repeat' first
    | with_reducible assumption
    | intro _
    | with_reducible apply keepsOn_next
    | with_reducible apply keeps_State_inSession
    | with_reducible apply keeps_ite
    | fail_if_no_progress with_reducible apply keeps_mk
    | split

theorem keeps_execPcieConfigWrite {s0 : State} {c : PcieCfg} {s : State}
    (h : Keeps s0 s) :
    KeepsOn s0 (execPcieConfigWrite c s) := by
  unfold execPcieConfigWrite
  try dsimp only
  repeat' first
    | with_reducible assumption
    | intro _
    | with_reducible apply keepsOn_next
    | with_reducible apply keeps_State_modIde
    | with_reducible apply keeps_State_tdiError
    | with_reducible apply keeps_ite
    | fail_if_no_progress with_reducible apply keeps_mk
    | split

theorem keeps_execPciePortReset {s0 : State} {linkDown : Bool} {s : State}
    (h : Keeps s0 s) :
    KeepsOn s0 (execPciePortReset linkDown s) := by
  unfold execPciePortReset
  try dsimp only
  repeat' first
    | with_reducible assumption
    | intro _
    | with_reducible apply keeps_State_pcieReset
    | with_reducible apply keepsOn_next

theorem keeps_execPcieLinkUp {s0 : State} {s : State}
    (h : Keeps s0 s) :
    KeepsOn s0 (execPcieLinkUp s) := by
  unfold execPcieLinkUp
  try dsimp only
  repeat' first
    | with_reducible assumption
    | intro _
    | with_reducible apply keepsOn_next
    | with_reducible apply keeps_ite
    | with_reducible apply keeps_foldl
    | with_reducible apply keeps_forN
    | fail_if_no_progress with_reducible apply keeps_mk

theorem keeps_execFirmwareVerify {s0 : State} {image : List (BitVec 8)} {sourceOk : Bool} {s : State}
    (h : Keeps s0 s) :
    KeepsOn s0 (execFirmwareVerify image sourceOk s) := by
  unfold execFirmwareVerify
  try dsimp only
  repeat' first
    | with_reducible assumption
    | intro _
    | with_reducible apply keepsOn_next
    | with_reducible apply keeps_State_poke
    | with_reducible apply keeps_ite
    | fail_if_no_progress with_reducible apply keeps_mk
    | split

theorem keeps_State_writeBootCtrl {s0 : State} {v : W32} {s : State}
    (h : Keeps s0 s) :
    Keeps s0 (State.writeBootCtrl v s) := by
  unfold State.writeBootCtrl
  try dsimp only
  repeat' first
    | with_reducible assumption
    | intro _
    | with_reducible apply keeps_ite
    | with_reducible apply keeps_foldl
    | with_reducible apply keeps_forN
    | fail_if_no_progress with_reducible apply keeps_mk

theorem keeps_execGlbBootCtrlWrite {s0 : State} {v : BitVec 32} {s : State}
    (h : Keeps s0 s) :
    KeepsOn s0 (execGlbBootCtrlWrite v s) := by
  unfold execGlbBootCtrlWrite
  try dsimp only
  repeat' first
    | with_reducible assumption
    | intro _
    | with_reducible apply keeps_State_writeBootCtrl
    | with_reducible apply keepsOn_next

theorem keeps_execFirmwareReady {s0 : State} {s : State}
    (h : Keeps s0 s) :
    KeepsOn s0 (execFirmwareReady s) := by
  unfold execFirmwareReady
  try dsimp only
  repeat' first
    | with_reducible assumption
    | intro _
    | with_reducible apply keeps_State_firmwareUp
    | with_reducible apply keepsOn_next
    | with_reducible apply keeps_ite

theorem keeps_execNeighbourBootTimeout {s0 : State} {s : State}
    (h : Keeps s0 s) :
    KeepsOn s0 (execNeighbourBootTimeout s) := by
  unfold execNeighbourBootTimeout
  try dsimp only
  repeat' first
    | with_reducible assumption
    | intro _
    | with_reducible apply keepsOn_next
    | with_reducible apply keeps_ite
    | with_reducible apply keeps_foldl
    | with_reducible apply keeps_forN
    | fail_if_no_progress with_reducible apply keeps_mk

theorem keeps_State_askPeers {s0 : State} {c : Cmd} {p : Pool} {kind : Nat} {data : List Byte} {s : State}
    (h : Keeps s0 s) :
    Keeps s0 (State.askPeers c p kind data s) := by
  unfold State.askPeers
  try dsimp only
  repeat' first
    | with_reducible assumption
    | intro _
    | with_reducible apply keeps_State_tellPool
    | with_reducible apply keeps_State_modCmd
    | with_reducible apply keeps_ite
    | with_reducible apply keeps_id
    | with_reducible apply keeps_foldl
    | fail_if_no_progress with_reducible apply keeps_mk
    | split

theorem keeps_State_poolMake {s0 : State} {c : Cmd} {s : State}
    (h : Keeps s0 s) :
    Keeps s0 (State.poolMake c s) := by
  unfold State.poolMake
  try dsimp only
  repeat' first
    | with_reducible assumption
    | intro _
    | with_reducible apply keeps_State_noteDeny
    | with_reducible apply keeps_State_complete
    | with_reducible apply keeps_State_devWrite
    | with_reducible apply keeps_State_served
    | with_reducible apply keeps_ite
    | with_reducible apply keeps_id
    | fail_if_no_progress with_reducible apply keeps_mk
    | split

theorem keeps_State_applyPoolCreate {s0 : State} {c : Cmd} {s : State}
    (h : Keeps s0 s) :
    Keeps s0 (State.applyPoolCreate c s) := by
  unfold State.applyPoolCreate
  try dsimp only
  repeat' first
    | with_reducible assumption
    | intro _
    | with_reducible apply keeps_State_poolMake
    | with_reducible apply keeps_State_askPeers
    | with_reducible apply keeps_ite
    | split

theorem keeps_execKvPoolCreate {s0 : State} {id : Nat} {s : State}
    (h : Keeps s0 s) :
    KeepsOn s0 (execKvPoolCreate id s) := by
  unfold execKvPoolCreate
  try dsimp only
  repeat' first
    | with_reducible assumption
    | intro _
    | with_reducible apply keeps_State_command
    | with_reducible apply keeps_State_applyPoolCreate
    | with_reducible apply keepsOn_next

theorem keeps_State_applyPoolDestroy {s0 : State} {c : Cmd} {s : State}
    (h : Keeps s0 s) :
    Keeps s0 (State.applyPoolDestroy c s) := by
  unfold State.applyPoolDestroy
  try dsimp only
  repeat' first
    | with_reducible assumption
    | intro _
    | with_reducible apply keeps_State_poolGone
    | with_reducible apply keeps_State_served
    | with_reducible apply keeps_ite
    | split

theorem keeps_execKvPoolDestroy {s0 : State} {id : Nat} {s : State}
    (h : Keeps s0 s) :
    KeepsOn s0 (execKvPoolDestroy id s) := by
  unfold execKvPoolDestroy
  try dsimp only
  repeat' first
    | with_reducible assumption
    | intro _
    | with_reducible apply keeps_State_command
    | with_reducible apply keeps_State_applyPoolDestroy
    | with_reducible apply keepsOn_next

theorem keeps_State_kvNewSeq {s0 : State} {p : Pool} {q : Nat} {len : Nat} {s : State}
    (h : Keeps s0 s) :
    Keeps s0 (State.kvNewSeq p q len s) := by
  unfold State.kvNewSeq
  try dsimp only
  repeat' first
    | with_reducible assumption
    | intro _
    | with_reducible apply keeps_State_devWrite

theorem keeps_State_kvCreate {s0 : State} {p : Pool} {c : Cmd} {s : State}
    (h : Keeps s0 s) :
    Keeps s0 (State.kvCreate p c s) := by
  unfold State.kvCreate
  try dsimp only
  repeat' first
    | with_reducible assumption
    | intro _
    | with_reducible apply keeps_State_kvNewSeq
    | with_reducible apply keeps_ite
    | split

theorem keeps_State_kvFork {s0 : State} {p : Pool} {c : Cmd} {s : State}
    (h : Keeps s0 s) :
    Keeps s0 (State.kvFork p c s) := by
  unfold State.kvFork
  try dsimp only
  repeat' first
    | with_reducible assumption
    | intro _
    | with_reducible apply keeps_State_kvW
    | with_reducible apply keeps_State_kvNewSeq
    | with_reducible apply keeps_ite
    | with_reducible apply keeps_forN
    | fail_if_no_progress with_reducible apply keeps_mk
    | split

theorem keeps_State_kvFree {s0 : State} {p : Pool} {c : Cmd} {s : State}
    (h : Keeps s0 s) :
    Keeps s0 (State.kvFree p c s) := by
  unfold State.kvFree
  try dsimp only
  repeat' first
    | with_reducible assumption
    | intro _
    | with_reducible apply keeps_State_kvDropFrom
    | with_reducible apply keeps_State_devWrite
    | with_reducible apply keeps_ite
    | split

theorem keeps_State_kvTruncate {s0 : State} {p : Pool} {c : Cmd} {s : State}
    (h : Keeps s0 s) :
    Keeps s0 (State.kvTruncate p c s) := by
  unfold State.kvTruncate
  try dsimp only
  repeat' first
    | with_reducible assumption
    | intro _
    | with_reducible apply keeps_State_kvDropFrom
    | with_reducible apply keeps_State_kvW
    | with_reducible apply keeps_ite
    | with_reducible apply keeps_forN
    | fail_if_no_progress with_reducible apply keeps_mk
    | split

theorem keeps_State_kvSeqOp {s0 : State} {p : Pool} {c : Cmd} {s : State}
    (h : Keeps s0 s) :
    Keeps s0 (State.kvSeqOp p c s) := by
  unfold State.kvSeqOp
  try dsimp only
  repeat' first
    | with_reducible assumption
    | intro _
    | with_reducible apply keeps_State_kvCreate
    | with_reducible apply keeps_State_kvFork
    | with_reducible apply keeps_State_kvFree
    | with_reducible apply keeps_State_kvTruncate
    | with_reducible apply keeps_ite
    | split

theorem keeps_State_kvQuery {s0 : State} {p : Pool} {c : Cmd} {s : State}
    (h : Keeps s0 s) :
    Keeps s0 (State.kvQuery p c s) := by
  unfold State.kvQuery
  try dsimp only
  repeat' first
    | with_reducible assumption
    | intro _
    | with_reducible apply keeps_State_served

theorem keeps_State_applyKvSeq {s0 : State} {c : Cmd} {s : State}
    (h : Keeps s0 s) :
    Keeps s0 (State.applyKvSeq c s) := by
  unfold State.applyKvSeq
  try dsimp only
  repeat' first
    | with_reducible assumption
    | intro _
    | with_reducible apply keeps_State_complete
    | with_reducible apply keeps_State_noteDeny
    | with_reducible apply keeps_State_kvQuery
    | with_reducible apply keeps_State_kvSeqOp
    | with_reducible apply keeps_State_served
    | with_reducible apply keeps_State_askPeers
    | with_reducible apply hf
    | with_reducible apply keeps_ite
    | fail_if_no_progress with_reducible apply keeps_mk
    | split

theorem keeps_execKvSeqCreate {s0 : State} {id : Nat} {s : State}
    (h : Keeps s0 s) :
    KeepsOn s0 (execKvSeqCreate id s) := by
  unfold execKvSeqCreate
  try dsimp only
  repeat' first
    | with_reducible assumption
    | intro _
    | with_reducible apply keepsOn_next
    | with_reducible apply keeps_State_command
    | with_reducible apply keeps_State_applyKvSeq
    | with_reducible apply keeps_ite
    | with_reducible apply keeps_id
    | split

theorem keeps_execKvSeqFork {s0 : State} {id : Nat} {s : State}
    (h : Keeps s0 s) :
    KeepsOn s0 (execKvSeqFork id s) := by
  unfold execKvSeqFork
  try dsimp only
  repeat' first
    | with_reducible assumption
    | intro _
    | with_reducible apply keepsOn_next
    | with_reducible apply keeps_State_command
    | with_reducible apply keeps_State_applyKvSeq
    | with_reducible apply keeps_ite
    | with_reducible apply keeps_id
    | split

theorem keeps_execKvSeqQuery {s0 : State} {id : Nat} {s : State}
    (h : Keeps s0 s) :
    KeepsOn s0 (execKvSeqQuery id s) := by
  unfold execKvSeqQuery
  try dsimp only
  repeat' first
    | with_reducible assumption
    | intro _
    | with_reducible apply keepsOn_next
    | with_reducible apply keeps_State_command
    | with_reducible apply keeps_State_applyKvSeq
    | with_reducible apply keeps_ite
    | with_reducible apply keeps_id
    | split

end Sys2Proof.Laws
end

