-- ==== Sys2Proof/Laws/KeepsEngines.lean ====
section
/-!
SUPPORT. For each operation of these files: it keeps what `Keeps` says.
-/
namespace Sys2Proof.Laws
open Sys2Proof.Machine

theorem keeps_State_reclaim {s0 : State} {e : Nat} {s : State}
    (h : Keeps s0 s) :
    Keeps s0 (State.reclaim e s) := by
  unfold State.reclaim
  try dsimp only
  repeat' first
    | with_reducible assumption
    | intro _
    | with_reducible apply keeps_State_abortEpoch
    | with_reducible apply keeps_State_modEpoch
    | with_reducible apply keeps_State_kvAbort

theorem keeps_State_kvTake {s0 : State} {hd : Nat} {p : Pool} {own : Option Nat} {st : Nat} {ep : Nat} {head : Nat} {y6 : Nat}
    {y7 : State}
    (h : Keeps s0 y7) :
    Keeps s0 (State.kvTake hd p own st ep head y6 y7).2 := by
  induction y6 generalizing y7 with
  | zero => exact h
  | succ n ih =>
    unfold State.kvTake
    split
    · rename_i r hr
      exact keeps_State_kvAlloc h _ _ hr
    · split
      · exact h
      · exact ih (keeps_State_reclaim h)

theorem keeps_State_kvTake_eq {s0 : State} {hd : Nat} {p : Pool} {own : Option Nat} {st : Nat} {ep : Nat} {head : Nat} {y6 :
    Nat} {y7 : State} {a0} {t0}
    (h : Keeps s0 y7) (e0 : State.kvTake hd p own st ep head y6 y7 = (a0, t0)) : Keeps s0 t0 := by
  have k := keeps_State_kvTake (hd := hd) (p := p) (own := own) (st := st) (ep := ep) (head := head) (y6 := y6) (y7 := y7) h
  rw [e0] at k
  exact k

theorem keeps_State_kvTakeAll {s0 : State} {hd : Nat} {p : Pool} {own : Option Nat} {st ep : Nat} {l : List (Nat × Nat)}
    {got : List (Nat × Nat × Nat)} {s : State} (h : Keeps s0 s) : Keeps s0 (State.kvTakeAll hd p own st ep l got s).2 := by
  induction l generalizing got s with
  | nil => exact h
  | cons e l ih =>
    unfold State.kvTakeAll
    split
    · rename_i g s1 e1
      exact ih (keeps_State_kvTake_eq h e1)
    · rename_i s1 e1
      exact keeps_foldl (keeps_State_kvTake_eq h e1) (fun x b hx => keeps_State_kvPush hx)

theorem keeps_State_kvTakeAll_eq {s0 : State} {hd : Nat} {p : Pool} {own : Option Nat} {st ep : Nat} {l : List (Nat × Nat)}
    {got : List (Nat × Nat × Nat)} {s t0 : State} {a0 : Option (List (Nat × Nat × Nat))} (h : Keeps s0 s)
    (e0 : State.kvTakeAll hd p own st ep l got s = (a0, t0)) : Keeps s0 t0 := by
  have k := keeps_State_kvTakeAll (hd := hd) (p := p) (own := own) (st := st) (ep := ep) (l := l) (got := got) h
  rw [e0] at k
  exact k

theorem keeps_State_kvCopy {s0 : State} {p : Pool} {src : Nat} {dst : Nat} {n : Nat} {s : State}
    (h : Keeps s0 s) :
    Keeps s0 (State.kvCopy p src dst n s) := by
  unfold State.kvCopy
  try dsimp only
  repeat' first
    | with_reducible assumption
    | intro _
    | with_reducible apply keeps_State_devWrite

theorem keeps_State_kvPlace {s0 : State} {p : Pool} {q : Nat} {spec : Bool} {base : Nat} {e : Nat × Nat × Nat} {s : State}
    (h : Keeps s0 s) :
    Keeps s0 (State.kvPlace p q spec base e s) := by
  unfold State.kvPlace
  try dsimp only
  repeat' first
    | with_reducible assumption
    | intro _
    | with_reducible apply keeps_State_kvCopy
    | with_reducible apply keeps_State_kvRelease
    | with_reducible apply keeps_State_kvW
    | with_reducible apply keeps_ite
    | with_reducible apply keeps_foldl
    | with_reducible apply keeps_forN
    | fail_if_no_progress with_reducible apply keeps_mk
    | split

theorem keeps_State_kvPut {s0 : State} {x : OpBlk} {rd : Rd} {p : Pool} {q : Nat} {row : Nat} {spec : Bool} {base : Nat} {n :
    Nat} {s : State}
    (h : Keeps s0 s) :
    Keeps s0 (State.kvPut x rd p q row spec base n s) := by
  unfold State.kvPut
  try dsimp only
  repeat' first
    | with_reducible assumption
    | intro _
    | with_reducible apply keeps_State_kvW
    | with_reducible apply keeps_State_devWrite
    | with_reducible apply keeps_ite
    | with_reducible apply keeps_foldl
    | with_reducible apply keeps_forN
    | fail_if_no_progress with_reducible apply keeps_mk
    | split

theorem keeps_State_kvAppend {s0 : State} {hd : Nat} {x : OpBlk} {rd : Rd} {p : Pool} {e : Option Nat} {q : Nat} {row : Nat}
    {n : Nat} {s : State}
    (h : Keeps s0 s) :
    Keeps s0 (State.kvAppend hd x rd p e q row n s).2.2 := by
  unfold State.kvAppend
  try dsimp only
  repeat' first
    | with_reducible assumption
    | intro _
    | with_reducible apply keeps_State_kvPut
    | with_reducible apply keeps_State_kvW
    | with_reducible apply keeps_State_modEpoch
    | with_reducible refine keeps_State_kvTakeAll_eq ?_ (by with_reducible assumption)
    | with_reducible apply keeps_State_kvPlace
    | with_reducible apply keeps_ite
    | with_reducible apply keeps_foldl
    | with_reducible apply keeps_forN
    | fail_if_no_progress with_reducible apply keeps_mk
    | split

theorem keeps_State_kvAppend_eq {s0 : State} {hd : Nat} {x : OpBlk} {rd : Rd} {p : Pool} {e : Option Nat} {q : Nat} {row :
    Nat} {n : Nat} {s : State} {a0} {b0} {t0}
    (h : Keeps s0 s) (e0 : State.kvAppend hd x rd p e q row n s = (a0, b0, t0)) : Keeps s0 t0 := by
  have k := keeps_State_kvAppend (hd := hd) (x := x) (rd := rd) (p := p) (e := e) (q := q) (row := row) (n := n) (s := s) h
  rw [e0] at k
  exact k

theorem keeps_State_attnRows {s0 : State} {hd : Nat} {x : OpBlk} {rd : Rd} {p : Pool} {e : Option Nat} {seqs : List Nat}
    {qlens failed : List Nat} {s : State}
    (h : Keeps s0 s) :
    Keeps s0 (State.attnRows hd x rd p e seqs qlens failed s).2.2 := by
  unfold State.attnRows
  refine foldl_keeps (P := fun r : List OpRow × List Nat × State => Keeps s0 r.2.2) _ _ ?_ h
  intro r b hx
  dsimp only
  repeat' first
    | with_reducible assumption
    | with_reducible apply keeps_State_kvAppend
    | split

theorem keeps_State_attnTake {s0 : State} {hd : Nat} {x : OpBlk} {rd : Rd} {p : Pool} {e : Option Nat} {failed : List Nat} {s : State}
    (h : Keeps s0 s) :
    Keeps s0 (State.attnTake hd x rd p e failed s).2.2.2 := by
  unfold State.attnTake
  exact keeps_foldl (keeps_State_attnRows (keeps_foldl h (fun _ _ hx => keeps_State_kvPin hx))) (fun _ _ hx => keeps_State_kvPin hx)

theorem keeps_State_attnStart {s0 : State} {c : Cmd} {hd : Nat} {x : OpBlk} {p : Pool} {g : Agent} {failed : List Nat} {s : State}
    (h : Keeps s0 s) :
    Keeps s0 (State.attnStart c hd x p g failed s) := by
  unfold State.attnStart
  try dsimp only
  repeat' first
    | with_reducible assumption
    | intro _
    | with_reducible apply keeps_State_attnTake
    | with_reducible apply keeps_State_modCmd
    | with_reducible refine keeps_State_attnRows_eq ?_ (by with_reducible assumption)
    | with_reducible apply keeps_ite
    | with_reducible apply keeps_id
    | fail_if_no_progress with_reducible apply keeps_mk
    | split

theorem keeps_State_opSpawn {s0 : State} {c : Cmd} {s : State}
    (h : Keeps s0 s) :
    Keeps s0 (State.opSpawn c s) := by
  unfold State.opSpawn
  try dsimp only
  repeat' first
    | with_reducible assumption
    | intro _
    | with_reducible apply keeps_State_newJob
    | with_reducible apply keeps_ite
    | with_reducible apply keeps_foldl
    | with_reducible apply keeps_forN

theorem keeps_State_zeroRecs {s0 : State} {c : Cmd} {s : State} (h : Keeps s0 s) :
    ∀ t0, State.zeroRecs c s = some t0 → Keeps s0 t0 := by
  intro t0 e
  refine keeps_foldlBind (fun x b u hx hu => ?_) (fun v hv => by cases hv; exact h) e
  split at hu
  · cases hu; exact hx
  · exact keeps_State_agentWrite hx _ hu

theorem keeps_State_opStart {s0 : State} {c : Cmd} {s : State}
    (h : Keeps s0 s) :
    Keeps s0 (State.opStart c s) := by
  unfold State.opStart
  split
  · cases c.epoch with
    | none => exact h
    | some e => exact keeps_State_hoardFull h
  · exact keeps_State_opSpawn (keeps_State_modCmd (keeps_State_zeroRecs h _ (by with_reducible assumption)))

theorem keeps_State_applyRunOp {s0 : State} {c : Cmd} {s : State}
    (h : Keeps s0 s) :
    Keeps s0 (State.applyRunOp c s) := by
  unfold State.applyRunOp
  try dsimp only
  repeat' first
    | with_reducible assumption
    | intro _
    | with_reducible apply keeps_State_opStart
    | with_reducible apply keeps_State_complete
    | with_reducible apply keeps_State_stopCmd
    | with_reducible apply keeps_State_noteDeny
    | with_reducible apply keeps_State_attnStart
    | with_reducible apply keeps_State_askPeers
    | with_reducible apply keeps_ite
    | with_reducible apply keeps_id
    | fail_if_no_progress with_reducible apply keeps_mk
    | split

theorem keeps_State_attnGo {s0 : State} {c : Cmd} {s : State}
    (h : Keeps s0 s) :
    Keeps s0 (State.attnGo c s) := by
  unfold State.attnGo
  try dsimp only
  repeat' first
    | with_reducible assumption
    | intro _
    | with_reducible apply keeps_State_stopCmd
    | with_reducible apply keeps_State_tellPool
    | with_reducible apply keeps_State_modCmd
    | with_reducible apply keeps_State_attnStart
    | with_reducible apply keeps_State_opStart
    | with_reducible apply keeps_ite
    | with_reducible apply keeps_id
    | with_reducible apply keeps_foldl
    | fail_if_no_progress with_reducible apply keeps_mk
    | split

theorem keeps_execRunOp {s0 : State} {id : Nat} {s : State}
    (h : Keeps s0 s) :
    KeepsOn s0 (execRunOp id s) := by
  unfold execRunOp
  try dsimp only
  repeat' first
    | with_reducible assumption
    | intro _
    | with_reducible apply keeps_State_command
    | with_reducible apply keeps_State_applyRunOp
    | with_reducible apply keepsOn_next

theorem keeps_State_applyRunProgram {s0 : State} {c : Cmd} {s : State}
    (h : Keeps s0 s) :
    Keeps s0 (State.applyRunProgram c s) := by
  unfold State.applyRunProgram
  try dsimp only
  repeat' first
    | with_reducible assumption
    | intro _
    | with_reducible apply keeps_State_newJob
    | with_reducible apply keeps_ite

theorem keeps_execRunProgram {s0 : State} {id : Nat} {s : State}
    (h : Keeps s0 s) :
    KeepsOn s0 (execRunProgram id s) := by
  unfold execRunProgram
  try dsimp only
  repeat' first
    | with_reducible assumption
    | intro _
    | with_reducible apply keeps_State_command
    | with_reducible apply keeps_State_applyRunProgram
    | with_reducible apply keepsOn_next

theorem keeps_State_opFault {s0 : State} {core : Nat} {k : Option Deny × Nat × Nat} {s : State}
    (h : Keeps s0 s) :
    Keeps s0 (State.opFault core k s) := by
  unfold State.opFault
  try dsimp only
  repeat' first
    | with_reducible assumption
    | intro _
    | with_reducible apply keeps_State_noteDeny
    | with_reducible apply keeps_State_tileFault
    | with_reducible refine keeps_State_draw_eq ?_ (by with_reducible assumption)
    | with_reducible apply keeps_ite
    | fail_if_no_progress with_reducible apply keeps_mk
    | split

theorem keeps_State_sliceFault {s0 : State} {core : Nat} {k : Nat} {tie : Option (Nat × Nat)} {l : List (Option Deny × Nat)} {fresh :
    Nat} {s : State}
    (h : Keeps s0 s) :
    Keeps s0 (State.sliceFault core k tie l fresh s) := by
  unfold State.sliceFault
  try dsimp only
  repeat' first
    | with_reducible assumption
    | intro _
    | with_reducible apply keeps_State_opFault
    | with_reducible apply keeps_State_noteDeny
    | with_reducible apply keeps_State_coreFault
    | with_reducible apply keeps_State_faultHold
    | with_reducible apply keeps_ite
    | fail_if_no_progress with_reducible apply keeps_mk
    | split

theorem keeps_State_servedWith {s0 : State} {c : Cmd} {rs : Nat} {result : List Byte} {s : State}
    (h : Keeps s0 s) :
    Keeps s0 (State.servedWith c rs result s) := by
  unfold State.servedWith
  try dsimp only
  repeat' first
    | with_reducible assumption
    | intro _
    | with_reducible apply keeps_State_finish
    | with_reducible apply keeps_ite
    | fail_if_no_progress with_reducible apply keeps_mk
    | split

theorem keeps_State_opSaturates {s0 : State} {core : Nat} {c : Cmd} {last : Bool} {sat : Bool} {fresh : Nat} {s : State}
    (h : Keeps s0 s) :
    Keeps s0 (State.opSaturates core c last sat fresh s) := by
  unfold State.opSaturates
  try dsimp only
  repeat' first
    | with_reducible assumption
    | intro _
    | with_reducible apply keeps_State_errQuant
    | with_reducible apply keeps_State_modCmd
    | with_reducible apply keeps_ite
    | with_reducible apply keeps_id
    | fail_if_no_progress with_reducible apply keeps_mk
    | split

theorem keeps_State_opLast {s0 : State} {core : Nat} {j : Nat} {x : Job} {c : Cmd} {o : OpOut} {s : State}
    (h : Keeps s0 s) :
    Keeps s0 (State.opLast core j x c o s) := by
  unfold State.opLast
  split
  · refine keeps_State_endJob ?_
    cases x.epoch with
    | none => exact h
    | some e => exact keeps_State_hoardFull h
  · rename_i t e
    exact keeps_State_servedWith (keeps_State_kvUnpinCmd (keeps_State_endJob
      (keeps_foldlBind (fun y b u hy hu => keeps_State_agentWrite hy _ hu) (fun v hv => by cases hv; exact h) e)))

theorem keeps_State_opEnd {s0 : State} {core : Nat} {j : Nat} {x : Job} {id : Nat} {k : Nat} {tie : Option (Fin 64)} {s : State}
    (h : Keeps s0 s) :
    Keeps s0 (State.opEnd core j x id k tie s) := by
  unfold State.opEnd
  try dsimp only
  repeat' first
    | with_reducible assumption
    | intro _
    | with_reducible apply keeps_State_endJob
    | with_reducible apply keeps_State_stopCmd
    | with_reducible refine keeps_State_draw_eq ?_ (by with_reducible assumption)
    | with_reducible apply keeps_State_draw
    | with_reducible apply keeps_State_sliceFault
    | with_reducible apply keeps_State_opSaturates
    | with_reducible apply keeps_State_opLast
    | with_reducible apply keeps_id
    | with_reducible apply keeps_ite
    | fail_if_no_progress with_reducible apply keeps_mk
    | split

theorem keeps_State_blockEnd {s0 : State} {j : Nat} {hd : Nat} {b : Nat} {s : State}
    (h : Keeps s0 s) :
    Keeps s0 (State.blockEnd j hd b s) := by
  unfold State.blockEnd
  try dsimp only
  repeat' first
    | with_reducible assumption
    | intro _
    | with_reducible apply keeps_State_endJob
    | with_reducible apply keeps_State_guestBlockEnds
    | with_reducible apply keeps_State_tellStream
    | with_reducible apply keeps_State_modStream
    | with_reducible apply keeps_State_migrPost
    | with_reducible apply keeps_ite
    | fail_if_no_progress with_reducible apply keeps_mk
    | split

theorem keeps_State_jobDone {s0 : State} {core : Nat} {j : Nat} {x : Job} {s : State}
    (h : Keeps s0 s) :
    Keeps s0 (State.jobDone core j x s) := by
  unfold State.jobDone
  try dsimp only
  repeat' first
    | with_reducible assumption
    | intro _
    | with_reducible apply keeps_State_launchEnd
    | with_reducible apply keeps_State_blockEnd
    | with_reducible apply keeps_State_endJob
    | with_reducible apply keeps_State_servedWith
    | with_reducible apply keeps_ite
    | with_reducible apply keeps_foldl
    | with_reducible apply keeps_forN
    | fail_if_no_progress with_reducible apply keeps_mk
    | split

theorem keeps_execTileEnd {s0 : State} {core : Fin 64} {tie : Option (Fin 64)} {s : State}
    (h : Keeps s0 s) :
    KeepsOn s0 (execTileEnd core tie s) := by
  unfold execTileEnd
  try dsimp only
  repeat' first
    | with_reducible assumption
    | intro _
    | with_reducible apply keepsOn_next
    | with_reducible apply keepsRes_fault
    | with_reducible apply keepsRes_retire
    | with_reducible apply keepsRes_stay
    | with_reducible apply keepsRes_work
    | with_reducible apply keepsRes_ite
    | with_reducible apply keeps_State_tie
    | with_reducible apply keeps_State_opEnd
    | with_reducible apply keeps_State_jobDone
    | with_reducible apply keeps_State_tile
    | with_reducible apply keeps_State_retire
    | with_reducible apply keeps_id
    | with_reducible apply keeps_ite
    | fail_if_no_progress with_reducible apply keeps_mk
    | split

theorem keeps_State_unpinFirst {s0 : State} {tie : Option (Fin 64)} {s : State}
    (h : Keeps s0 s) :
    Keeps s0 (State.unpinFirst tie s) := by
  unfold State.unpinFirst
  cases tie with
  | none => exact h
  | some k =>
    obtain ⟨t, e, ht⟩ := keeps_execTileEnd (core := k) (tie := none) h
    dsimp only
    rw [e]
    exact ht

theorem keeps_execKvSeqFree {s0 : State} {id : Nat} {tie : Option (Fin 64)} {s : State}
    (h : Keeps s0 s) :
    KeepsOn s0 (execKvSeqFree id tie s) := by
  unfold execKvSeqFree
  try dsimp only
  repeat' first
    | with_reducible assumption
    | intro _
    | with_reducible apply keepsOn_next
    | with_reducible apply keeps_State_unpinFirst
    | with_reducible apply keeps_State_command
    | with_reducible apply keeps_State_applyKvSeq
    | with_reducible apply keeps_ite
    | with_reducible apply keeps_id
    | split

theorem keeps_execKvSeqTruncate {s0 : State} {id : Nat} {tie : Option (Fin 64)} {s : State}
    (h : Keeps s0 s) :
    KeepsOn s0 (execKvSeqTruncate id tie s) := by
  unfold execKvSeqTruncate
  try dsimp only
  repeat' first
    | with_reducible assumption
    | intro _
    | with_reducible apply keepsOn_next
    | with_reducible apply keeps_State_unpinFirst
    | with_reducible apply keeps_State_command
    | with_reducible apply keeps_State_applyKvSeq
    | with_reducible apply keeps_ite
    | with_reducible apply keeps_id
    | split

theorem keeps_State_shareAnswers {s0 : State} {n : Nat} {tenant : Nat} {v : Nat} {rs : Nat} {data : List Byte} {s : State}
    (h : Keeps s0 s) :
    Keeps s0 (State.shareAnswers n tenant v rs data s) := by
  unfold State.shareAnswers
  try dsimp only
  repeat' first
    | with_reducible assumption
    | intro _
    | with_reducible apply keeps_State_tellPool
    | with_reducible apply keeps_ite
    | split

theorem keeps_State_modShare {s0 : State} {n : Nat} {k : Nat} {f : Pool → Pool} {s : State}
    (h : Keeps s0 s) :
    Keeps s0 (State.modShare n k f s) := by
  unfold State.modShare
  try dsimp only
  repeat' first
    | with_reducible assumption
    | intro _
    | with_reducible apply keeps_ite
    | fail_if_no_progress with_reducible apply keeps_mk
    | split

theorem keeps_State_shareMake {s0 : State} {n : Nat} {v : Nat} {tenant : Nat} {b : List Byte} {s : State}
    (h : Keeps s0 s) :
    Keeps s0 (State.shareMake n v tenant b s) := by
  unfold State.shareMake
  try dsimp only
  repeat' first
    | with_reducible assumption
    | intro _
    | with_reducible apply keeps_State_shareAnswers
    | with_reducible apply keeps_State_devWrite
    | with_reducible apply keeps_ite
    | fail_if_no_progress with_reducible apply keeps_mk
    | split

theorem keeps_State_shareSeq {s0 : State} {n : Nat} {v : Nat} {tenant : Nat} {b : List Byte} {s : State}
    (h : Keeps s0 s) :
    Keeps s0 (State.shareSeq n v tenant b s) := by
  unfold State.shareSeq
  try dsimp only
  repeat' first
    | with_reducible assumption
    | intro _
    | with_reducible apply keeps_State_kvSeqOp
    | with_reducible apply keeps_State_shareAnswers
    | with_reducible apply keeps_ite
    | fail_if_no_progress with_reducible apply keeps_mk
    | split

theorem keeps_State_shareAsk {s0 : State} {n : Nat} {v : Nat} {tenant : Nat} {b : List Byte} {s : State}
    (h : Keeps s0 s) :
    Keeps s0 (State.shareAsk n v tenant b s) := by
  unfold State.shareAsk
  try dsimp only
  repeat' first
    | with_reducible assumption
    | intro _
    | with_reducible apply keeps_State_shareAnswers
    | with_reducible apply keeps_ite
    | fail_if_no_progress with_reducible apply keeps_mk
    | split

theorem keeps_State_shareGo {s0 : State} {n : Nat} {v : Nat} {tenant : Nat} {b : List Byte} {s : State}
    (h : Keeps s0 s) :
    Keeps s0 (State.shareGo n v tenant b s) := by
  unfold State.shareGo
  try dsimp only
  repeat' first
    | with_reducible assumption
    | intro _
    | with_reducible apply keeps_State_attnTake
    | with_reducible apply keeps_State_modShare
    | with_reducible apply keeps_State_shareAnswers
    | with_reducible apply keeps_ite
    | fail_if_no_progress with_reducible apply keeps_mk
    | split

theorem keeps_State_shareEnds {s0 : State} {n : Nat} {v : Nat} {k : Nat} {s : State}
    (h : Keeps s0 s) :
    Keeps s0 (State.shareEnds n v k s) := by
  unfold State.shareEnds
  try dsimp only
  repeat' first
    | with_reducible assumption
    | intro _
    | with_reducible apply keeps_State_kvUnpin
    | with_reducible apply keeps_State_modShare
    | with_reducible apply keeps_ite
    | with_reducible apply keeps_foldl
    | fail_if_no_progress with_reducible apply keeps_mk
    | split

theorem keeps_State_sharesDone {s0 : State} {c : Cmd} {s : State}
    (h : Keeps s0 s) :
    Keeps s0 (State.sharesDone c s) := by
  unfold State.sharesDone
  try dsimp only
  repeat' first
    | with_reducible assumption
    | intro _
    | with_reducible apply keeps_State_modCmd
    | with_reducible apply keeps_State_tellPool
    | with_reducible apply keeps_State_complete
    | with_reducible apply keeps_State_poolMake
    | with_reducible apply keeps_State_kvSeqOp
    | with_reducible apply keeps_State_served
    | with_reducible apply keeps_State_stopCmd
    | with_reducible apply keeps_State_attnGo
    | with_reducible apply keeps_ite
    | with_reducible apply keeps_id
    | with_reducible apply keeps_foldl
    | fail_if_no_progress with_reducible apply keeps_mk
    | split

theorem keeps_State_shareAnswered {s0 : State} {n : Nat} {v : Nat} {b : List Byte} {s : State}
    (h : Keeps s0 s) :
    Keeps s0 (State.shareAnswered n v b s) := by
  unfold State.shareAnswered
  try dsimp only
  repeat' first
    | with_reducible assumption
    | intro _
    | with_reducible apply keeps_State_lateResult
    | with_reducible apply keeps_State_modCmd
    | with_reducible apply keeps_State_sharesDone
    | with_reducible apply keeps_ite
    | fail_if_no_progress with_reducible apply keeps_mk
    | split

theorem keeps_State_wholeArrives {s0 : State} {f : LinkFrame} {b : List Byte} {s : State}
    (h : Keeps s0 s) :
    Keeps s0 (State.wholeArrives f b s) := by
  unfold State.wholeArrives
  try dsimp only
  repeat' first
    | with_reducible assumption
    | intro _
    | with_reducible apply keeps_State_shareMake
    | with_reducible apply keeps_State_shareSeq
    | with_reducible apply keeps_State_shareAsk
    | with_reducible apply keeps_State_shareAnswered
    | with_reducible apply keeps_State_shareGo
    | with_reducible apply keeps_State_shareEnds
    | with_reducible apply keeps_State_msgArrives
    | with_reducible apply keeps_ite
    | fail_if_no_progress with_reducible apply keeps_mk
    | split

theorem keeps_State_dataArrives {s0 : State} {f : LinkFrame} {s : State}
    (h : Keeps s0 s) :
    Keeps s0 (State.dataArrives f s) := by
  unfold State.dataArrives
  try dsimp only
  repeat' first
    | with_reducible assumption
    | intro _
    | with_reducible refine keeps_State_assemble_eq ?_ (by with_reducible assumption)
    | with_reducible apply keeps_State_assemble
    | with_reducible apply keeps_State_wholeArrives
    | with_reducible apply keeps_ite
    | fail_if_no_progress with_reducible apply keeps_mk
    | split

theorem keeps_execDataFrame {s0 : State} {port : Fin 4} {f : LinkFrame} {s : State}
    (h : Keeps s0 s) :
    KeepsOn s0 (execDataFrame port f s) := by
  unfold execDataFrame
  try dsimp only
  repeat' first
    | with_reducible assumption
    | intro _
    | with_reducible apply keeps_State_sigArrives
    | with_reducible apply keeps_State_onFrame
    | with_reducible apply keeps_State_dataArrives
    | with_reducible apply keepsOn_next
    | with_reducible apply keeps_ite

theorem keeps_State_takeNumber {s0 : State} {s : State}
    (h : Keeps s0 s) :
    Keeps s0 (State.takeNumber s).2 := by
  unfold State.takeNumber
  try dsimp only
  repeat' first
    | with_reducible assumption
    | intro _
    | with_reducible apply keeps_ite
    | with_reducible apply keeps_foldl
    | with_reducible apply keeps_forN
    | fail_if_no_progress with_reducible apply keeps_mk

theorem keeps_State_takeNumber_eq {s0 : State} {s : State} {a0} {t0}
    (h : Keeps s0 s) (e0 : State.takeNumber s = (a0, t0)) : Keeps s0 t0 := by
  have k := keeps_State_takeNumber (s := s) h
  rw [e0] at k
  exact k

theorem keeps_State_openSlot {s0 : State} {e : Nat} {tenant : Nat} {pages : Nat} {deadline : Option Sfc} {s : State}
    (h : Keeps s0 s) :
    Keeps s0 (State.openSlot e tenant pages deadline s) := by
  unfold State.openSlot
  try dsimp only
  repeat' first
    | with_reducible assumption
    | intro _
    | with_reducible apply keeps_State_takeNumber
    | with_reducible refine keeps_State_takeNumber_eq ?_ (by with_reducible assumption)
    | with_reducible apply keeps_State_modEpoch
    | with_reducible apply keeps_ite
    | fail_if_no_progress with_reducible apply keeps_mk
    | split

theorem keeps_State_freeSlot {s0 : State} {e : Nat} {s : State}
    (h : Keeps s0 s) :
    Keeps s0 (State.freeSlot e s) := by
  unfold State.freeSlot
  try dsimp only
  repeat' first
    | with_reducible assumption
    | intro _
    | with_reducible apply keeps_State_modEpoch
    | with_reducible apply keeps_State_modRing
    | with_reducible apply keeps_ite
    | with_reducible apply keeps_forN
    | fail_if_no_progress with_reducible apply keeps_mk
    | split

theorem keeps_State_writeBack {s0 : State} {e : Nat} {s : State}
    (h : Keeps s0 s) :
    Keeps s0 (State.writeBack e s) := by
  unfold State.writeBack
  try dsimp only
  repeat' first
    | with_reducible assumption
    | intro _
    | with_reducible apply keeps_State_devWrite
    | with_reducible apply keeps_ite
    | with_reducible apply keeps_foldl

theorem keeps_State_commitEpoch {s0 : State} {e : Nat} {applied : Nat} {k : Nat × Nat → Nat → Nat} {s : State}
    (h : Keeps s0 s) :
    Keeps s0 (State.commitEpoch e applied k s) := by
  unfold State.commitEpoch
  try dsimp only
  repeat' first
    | with_reducible assumption
    | intro _
    | with_reducible apply keeps_State_kvCommit
    | with_reducible apply keeps_State_writeBack
    | with_reducible apply keeps_State_modEpoch
    | with_reducible apply keeps_ite
    | with_reducible apply keeps_foldl
    | fail_if_no_progress with_reducible apply keeps_mk
    | split

theorem keeps_State_commitAll {s0 : State} {e : Nat} {s : State}
    (h : Keeps s0 s) :
    Keeps s0 (State.commitAll e s) := by
  unfold State.commitAll
  try dsimp only
  repeat' first
    | with_reducible assumption
    | intro _
    | with_reducible apply keeps_State_commitEpoch

theorem keeps_State_launch {s0 : State} {r : Nat} {spec : Bool} {woke : Bool} {s : State}
    (h : Keeps s0 s) :
    Keeps s0 (State.launch r spec woke s) := by
  unfold State.launch
  try dsimp only
  repeat' first
    | with_reducible assumption
    | intro _
    | with_reducible apply keeps_State_openSlot
    | with_reducible apply keeps_State_modRule
    | with_reducible apply keeps_State_newJob
    | with_reducible apply keeps_State_dieOn
    | with_reducible apply keeps_ite
    | with_reducible apply keeps_forN
    | fail_if_no_progress with_reducible apply keeps_mk
    | split

theorem keeps_State_ruleAction {s0 : State} {r : Nat} {old : BitVec 2} {new : BitVec 2} {woke : Bool} {s : State}
    (h : Keeps s0 s) :
    Keeps s0 (State.ruleAction r old new woke s) := by
  unfold State.ruleAction
  try dsimp only
  repeat' first
    | with_reducible assumption
    | intro _
    | with_reducible apply keeps_State_launch
    | with_reducible apply keeps_State_commitAll
    | with_reducible apply keeps_ite
    | with_reducible apply keeps_foldl
    | with_reducible apply keeps_forN
    | fail_if_no_progress with_reducible apply keeps_mk

theorem keeps_execTier0DecisionHandle {s0 : State} {s : State}
    (h : Keeps s0 s) :
    KeepsOn s0 (execTier0DecisionHandle s) := by
  unfold execTier0DecisionHandle
  try dsimp only
  repeat' first
    | with_reducible assumption
    | intro _
    | with_reducible apply keepsOn_next
    | with_reducible apply keeps_State_modRule
    | with_reducible apply keeps_State_ruleAction
    | with_reducible apply keeps_ite
    | with_reducible apply keeps_forN
    | fail_if_no_progress with_reducible apply keeps_mk
    | split

theorem keeps_execScoreWordEvaluate {s0 : State} {j : Fin 64} {s : State}
    (h : Keeps s0 s) :
    KeepsOn s0 (execScoreWordEvaluate j s) := by
  unfold execScoreWordEvaluate
  try dsimp only
  repeat' first
    | with_reducible assumption
    | intro _
    | with_reducible apply keepsOn_next
    | with_reducible apply keeps_State_modRule
    | with_reducible apply keeps_State_ruleAction
    | with_reducible apply keeps_ite
    | with_reducible apply keeps_forN
    | fail_if_no_progress with_reducible apply keeps_mk
    | split

theorem keeps_execEpochWindowExpiry {s0 : State} {r : Fin 16} {tie : Bool} {s : State}
    (h : Keeps s0 s) :
    KeepsOn s0 (execEpochWindowExpiry r tie s) := by
  unfold execEpochWindowExpiry
  try dsimp only
  repeat' first
    | with_reducible assumption
    | intro _
    | with_reducible apply keepsOn_next
    | with_reducible apply keeps_State_tie
    | with_reducible apply keeps_State_modRule
    | with_reducible apply keeps_State_commitAll
    | with_reducible apply keeps_State_abortEpoch
    | with_reducible apply keeps_ite
    | fail_if_no_progress with_reducible apply keeps_mk
    | split

theorem keeps_State_applyRule {s0 : State} {c : Cmd} {s : State}
    (h : Keeps s0 s) :
    Keeps s0 (State.applyRule c s) := by
  unfold State.applyRule
  try dsimp only
  repeat' first
    | with_reducible assumption
    | intro _
    | with_reducible apply keeps_State_modRule
    | with_reducible apply keeps_State_served
    | with_reducible apply keeps_State_writeThr
    | with_reducible apply keeps_ite

theorem keeps_execCascadeConfigRule {s0 : State} {id : Nat} {s : State}
    (h : Keeps s0 s) :
    KeepsOn s0 (execCascadeConfigRule id s) := by
  unfold execCascadeConfigRule
  try dsimp only
  repeat' first
    | with_reducible assumption
    | intro _
    | with_reducible apply keeps_State_command
    | with_reducible apply keeps_State_applyRule
    | with_reducible apply keepsOn_next

theorem keeps_State_applySeqProgram {s0 : State} {c : Cmd} {s : State}
    (h : Keeps s0 s) :
    Keeps s0 (State.applySeqProgram c s) := by
  unfold State.applySeqProgram
  try dsimp only
  repeat' first
    | with_reducible assumption
    | intro _
    | with_reducible apply keeps_State_served
    | with_reducible apply keeps_ite
    | with_reducible apply keeps_foldl
    | with_reducible apply keeps_forN
    | fail_if_no_progress with_reducible apply keeps_mk

theorem keeps_State_rejectProgram {s0 : State} {c : Cmd} {s : State}
    (h : Keeps s0 s) :
    Keeps s0 (State.rejectProgram c s) := by
  unfold State.rejectProgram
  try dsimp only
  repeat' first
    | with_reducible assumption
    | intro _
    | with_reducible apply keeps_State_errAon
    | with_reducible apply keeps_State_complete
    | with_reducible apply keeps_ite
    | split

theorem keeps_execCascadeConfigProgram {s0 : State} {id : Nat} {s : State}
    (h : Keeps s0 s) :
    KeepsOn s0 (execCascadeConfigProgram id s) := by
  unfold execCascadeConfigProgram
  try dsimp only
  repeat' first
    | with_reducible assumption
    | intro _
    | with_reducible apply keepsOn_next
    | with_reducible apply keeps_State_rejectProgram
    | with_reducible apply keeps_State_command
    | with_reducible apply keeps_State_applySeqProgram
    | with_reducible apply keeps_ite
    | with_reducible apply keeps_id
    | fail_if_no_progress with_reducible apply keeps_mk
    | split

theorem keeps_State_applyOpen {s0 : State} {c : Cmd} {s : State}
    (h : Keeps s0 s) :
    Keeps s0 (State.applyOpen c s) := by
  unfold State.applyOpen
  try dsimp only
  repeat' first
    | with_reducible assumption
    | intro _
    | with_reducible apply keeps_State_openSlot
    | with_reducible apply keeps_State_served

theorem keeps_execEpochOpen {s0 : State} {id : Nat} {s : State}
    (h : Keeps s0 s) :
    KeepsOn s0 (execEpochOpen id s) := by
  unfold execEpochOpen
  try dsimp only
  repeat' first
    | with_reducible assumption
    | intro _
    | with_reducible apply keeps_State_command
    | with_reducible apply keeps_State_applyOpen
    | with_reducible apply keepsOn_next

theorem keeps_State_applyBind {s0 : State} {c : Cmd} {s : State}
    (h : Keeps s0 s) :
    Keeps s0 (State.applyBind c s) := by
  unfold State.applyBind
  try dsimp only
  repeat' first
    | with_reducible assumption
    | intro _
    | with_reducible apply keeps_State_modRing
    | with_reducible apply keeps_State_served
    | with_reducible apply keeps_ite
    | fail_if_no_progress with_reducible apply keeps_mk
    | split

theorem keeps_execEpochBind {s0 : State} {id : Nat} {s : State}
    (h : Keeps s0 s) :
    KeepsOn s0 (execEpochBind id s) := by
  unfold execEpochBind
  try dsimp only
  repeat' first
    | with_reducible assumption
    | intro _
    | with_reducible apply keeps_State_command
    | with_reducible apply keeps_State_applyBind
    | with_reducible apply keepsOn_next

theorem keeps_State_applyUnbind {s0 : State} {c : Cmd} {s : State}
    (h : Keeps s0 s) :
    Keeps s0 (State.applyUnbind c s) := by
  unfold State.applyUnbind
  try dsimp only
  repeat' first
    | with_reducible assumption
    | intro _
    | with_reducible apply keeps_State_unbind
    | with_reducible apply keeps_State_served
    | with_reducible apply keeps_ite
    | split

theorem keeps_execEpochUnbind {s0 : State} {id : Nat} {s : State}
    (h : Keeps s0 s) :
    KeepsOn s0 (execEpochUnbind id s) := by
  unfold execEpochUnbind
  try dsimp only
  repeat' first
    | with_reducible assumption
    | intro _
    | with_reducible apply keeps_State_applyUnbind
    | with_reducible apply keeps_State_command
    | with_reducible apply keepsOn_next

theorem keeps_State_applyCommit {s0 : State} {c : Cmd} {s : State}
    (h : Keeps s0 s) :
    Keeps s0 (State.applyCommit c s) := by
  unfold State.applyCommit
  try dsimp only
  repeat' first
    | with_reducible assumption
    | intro _
    | with_reducible apply keeps_State_seal
    | with_reducible apply keeps_ite
    | with_reducible apply keeps_id
    | split

theorem keeps_execEpochCommit {s0 : State} {id : Nat} {s : State}
    (h : Keeps s0 s) :
    KeepsOn s0 (execEpochCommit id s) := by
  unfold execEpochCommit
  try dsimp only
  repeat' first
    | with_reducible assumption
    | intro _
    | with_reducible apply keeps_State_command
    | with_reducible apply keeps_State_applyCommit
    | with_reducible apply keeps_State_arm
    | with_reducible apply keeps_State_modCmd
    | with_reducible apply keepsOn_next
    | with_reducible apply keeps_ite
    | with_reducible apply keeps_foldl
    | with_reducible apply keeps_forN
    | fail_if_no_progress with_reducible apply keeps_mk
    | split

theorem keeps_State_commitTick {s0 : State} {c : Cmd} {skipped : Bool} {s : State}
    (h : Keeps s0 s) :
    Keeps s0 (State.commitTick c skipped s) := by
  unfold State.commitTick
  try dsimp only
  repeat' first
    | with_reducible assumption
    | intro _
    | with_reducible apply keeps_State_modCmd
    | with_reducible apply keeps_ite
    | with_reducible apply keeps_id
    | fail_if_no_progress with_reducible apply keeps_mk
    | split

theorem keeps_State_applyEpochAbort {s0 : State} {c : Cmd} {s : State}
    (h : Keeps s0 s) :
    Keeps s0 (State.applyEpochAbort c s) := by
  unfold State.applyEpochAbort
  try dsimp only
  repeat' first
    | with_reducible assumption
    | intro _
    | with_reducible apply keeps_State_served
    | with_reducible apply keeps_State_abortEpoch
    | with_reducible apply keeps_State_modEpoch
    | with_reducible apply keeps_ite

theorem keeps_execEpochAbort {s0 : State} {id : Nat} {s : State}
    (h : Keeps s0 s) :
    KeepsOn s0 (execEpochAbort id s) := by
  unfold execEpochAbort
  try dsimp only
  repeat' first
    | with_reducible assumption
    | intro _
    | with_reducible apply keeps_State_command
    | with_reducible apply keeps_State_applyEpochAbort
    | with_reducible apply keepsOn_next

theorem keeps_State_applyRuleEn {s0 : State} {c : Cmd} {s : State}
    (h : Keeps s0 s) :
    Keeps s0 (State.applyRuleEn c s) := by
  unfold State.applyRuleEn
  try dsimp only
  repeat' first
    | with_reducible assumption
    | intro _
    | with_reducible apply keeps_State_modRule
    | with_reducible apply keeps_State_served

theorem keeps_execRuleEn {s0 : State} {id : Nat} {s : State}
    (h : Keeps s0 s) :
    KeepsOn s0 (execRuleEn id s) := by
  unfold execRuleEn
  try dsimp only
  repeat' first
    | with_reducible assumption
    | intro _
    | with_reducible apply keeps_State_command
    | with_reducible apply keeps_State_applyRuleEn
    | with_reducible apply keepsOn_next

theorem keeps_State_applySeqRun {s0 : State} {c : Cmd} {s : State}
    (h : Keeps s0 s) :
    Keeps s0 (State.applySeqRun c s) := by
  unfold State.applySeqRun
  try dsimp only
  repeat' first
    | with_reducible assumption
    | intro _
    | with_reducible apply keeps_State_writeSeqCtrl
    | with_reducible apply keeps_State_served

theorem keeps_execSeqRun {s0 : State} {id : Nat} {s : State}
    (h : Keeps s0 s) :
    KeepsOn s0 (execSeqRun id s) := by
  unfold execSeqRun
  try dsimp only
  repeat' first
    | with_reducible assumption
    | intro _
    | with_reducible apply keeps_State_command
    | with_reducible apply keeps_State_applySeqRun
    | with_reducible apply keepsOn_next

theorem keeps_execCommitPoint {s0 : State} {slot : Fin 64} {s : State}
    (h : Keeps s0 s) :
    KeepsOn s0 (execCommitPoint slot s) := by
  unfold execCommitPoint
  try dsimp only
  repeat' first
    | with_reducible assumption
    | intro _
    | with_reducible apply keepsOn_next
    | with_reducible apply keeps_State_modCmd
    | with_reducible apply keeps_State_commitAll
    | with_reducible apply keeps_State_abortEpoch
    | with_reducible apply keeps_State_modEpoch
    | with_reducible apply keeps_State_complete
    | with_reducible apply keeps_State_errSpec
    | with_reducible apply keeps_State_commitEpoch
    | with_reducible apply keeps_ite
    | with_reducible apply keeps_id
    | fail_if_no_progress with_reducible apply keeps_mk
    | split

theorem keeps_State_postHeld {s0 : State} {l : List Held} {s : State}
    (h : Keeps s0 s) :
    Keeps s0 (State.postHeld l s) := by
  unfold State.postHeld
  try dsimp only
  repeat' first
    | with_reducible assumption
    | intro _
    | with_reducible apply keeps_State_postStatus
    | with_reducible apply keeps_ite
    | with_reducible apply keeps_foldl

theorem keeps_execEpochWritebackDone {s0 : State} {slot : Fin 64} {s : State}
    (h : Keeps s0 s) :
    KeepsOn s0 (execEpochWritebackDone slot s) := by
  unfold execEpochWritebackDone
  try dsimp only
  repeat' first
    | with_reducible assumption
    | intro _
    | with_reducible apply keeps_State_served
    | with_reducible apply keeps_State_postHeld
    | with_reducible apply keeps_State_freeSlot
    | with_reducible apply keepsOn_next
    | with_reducible apply keeps_ite
    | with_reducible apply keeps_foldl
    | with_reducible apply keeps_forN
    | fail_if_no_progress with_reducible apply keeps_mk
    | split

theorem keeps_State_launchAborted {s0 : State} {e : Nat} {s : State}
    (h : Keeps s0 s) :
    Keeps s0 (State.launchAborted e s) := by
  unfold State.launchAborted
  try dsimp only
  repeat' first
    | with_reducible assumption
    | intro _
    | with_reducible apply keeps_State_postStatus
    | with_reducible apply keeps_State_modRule
    | with_reducible apply keeps_ite

theorem keeps_State_dropSignalsOf {s0 : State} {e : Nat} {s : State}
    (h : Keeps s0 s) :
    Keeps s0 (State.dropSignalsOf e s) := by
  unfold State.dropSignalsOf
  try dsimp only
  repeat' first
    | with_reducible assumption
    | intro _
    | with_reducible apply keeps_State_dropSignal
    | with_reducible apply keeps_ite
    | with_reducible apply keeps_foldl
    | fail_if_no_progress with_reducible apply keeps_mk
    | split

theorem keeps_execEpochAbortDone {s0 : State} {slot : Fin 64} {s : State}
    (h : Keeps s0 s) :
    KeepsOn s0 (execEpochAbortDone slot s) := by
  unfold execEpochAbortDone
  refine keepsOn_next ?_
  extract_lets e s1 x mem s2 s3 s4 s5 s6 s7 s8
  refine keeps_ite h ?_
  have h1 : Keeps s0 s1 := keeps_State_dropSignalsOf (keeps_foldl h fun _ _ hx => keeps_State_endJob hx)
  have h3 : Keeps s0 s3 := keeps_State_modEpoch (keeps_State_kvAbort (keeps_foldl h1 fun _ _ hx => keeps_State_kvUnpinCmd hx))
  have h4 : Keeps s0 s4 := keeps_foldl h3 fun _ _ hx => keeps_State_postStatus hx
  have h6 : Keeps s0 s6 := keeps_State_launchAborted (keeps_foldl h4 fun _ _ hx => keeps_State_deliver (keeps_State_dropCmd hx))
  have h7 : Keeps s0 s7 := by
    dsimp only [s7]
    split
    · exact keeps_State_complete h6
    · exact h6
  have h8 : Keeps s0 s8 := by
    dsimp only [s8]
    split
    · exact keeps_State_served h7
    · exact h7
  clear_value s8
  exact keeps_mk (keeps_State_freeSlot h8)

theorem keeps_State_writeHoard {s0 : State} {d : Nat} {v : W32} {s : State}
    (h : Keeps s0 s) :
    Keeps s0 (State.writeHoard d v s) := by
  unfold State.writeHoard
  try dsimp only
  repeat' first
    | with_reducible assumption
    | intro _
    | with_reducible apply keeps_State_errSpec
    | with_reducible apply keeps_ite
    | with_reducible apply keeps_foldl
    | with_reducible apply keeps_forN
    | fail_if_no_progress with_reducible apply keeps_mk

theorem keeps_execSchHoardWrite {s0 : State} {d : Fin 4} {v : BitVec 32} {s : State}
    (h : Keeps s0 s) :
    KeepsOn s0 (execSchHoardWrite d v s) := by
  unfold execSchHoardWrite
  try dsimp only
  repeat' first
    | with_reducible assumption
    | intro _
    | with_reducible apply keeps_State_writeHoard
    | with_reducible apply keeps_State_onBlock
    | with_reducible apply keepsOn_next

theorem keeps_State_applyCapture {s0 : State} {c : Cmd} {s : State}
    (h : Keeps s0 s) :
    Keeps s0 (State.applyCapture c s) := by
  unfold State.applyCapture
  try dsimp only
  repeat' first
    | with_reducible assumption
    | intro _
    | with_reducible apply keeps_State_complete
    | with_reducible apply keeps_ite
    | with_reducible apply keeps_foldl
    | with_reducible apply keeps_forN
    | fail_if_no_progress with_reducible apply keeps_mk
    | split

theorem keeps_execCaptureStart {s0 : State} {id : Nat} {s : State}
    (h : Keeps s0 s) :
    KeepsOn s0 (execCaptureStart id s) := by
  unfold execCaptureStart
  try dsimp only
  repeat' first
    | with_reducible assumption
    | intro _
    | with_reducible apply keeps_State_applyCapture
    | with_reducible apply keeps_State_command
    | with_reducible apply keepsOn_next

theorem keeps_execExciteStart {s0 : State} {k : Nat} {s : State}
    (h : Keeps s0 s) :
    KeepsOn s0 (execExciteStart k s) := by
  unfold execExciteStart
  try dsimp only
  repeat' first
    | with_reducible assumption
    | intro _
    | with_reducible apply keeps_State_modCap
    | with_reducible apply keepsOn_next
    | with_reducible apply keeps_ite
    | with_reducible apply keeps_foldl
    | with_reducible apply keeps_forN
    | fail_if_no_progress with_reducible apply keeps_mk
    | split

theorem keeps_State_capDenied {s0 : State} {k : Nat} {d : Deny} {s : State}
    (h : Keeps s0 s) :
    Keeps s0 (State.capDenied k d s) := by
  unfold State.capDenied
  try dsimp only
  repeat' first
    | with_reducible assumption
    | intro _
    | with_reducible apply keeps_State_noteDeny
    | with_reducible apply keeps_State_capEnd

theorem keeps_execExciteEnd {s0 : State} {k : Nat} {s : State}
    (h : Keeps s0 s) :
    KeepsOn s0 (execExciteEnd k s) := by
  unfold execExciteEnd
  try dsimp only
  repeat' first
    | with_reducible assumption
    | intro _
    | with_reducible apply keepsOn_next
    | with_reducible apply keeps_State_capDenied
    | with_reducible apply keeps_State_devWrite
    | with_reducible apply keeps_State_modCap
    | with_reducible refine keeps_State_draw_eq ?_ (by with_reducible assumption)
    | with_reducible apply keeps_ite
    | fail_if_no_progress with_reducible apply keeps_mk
    | split

theorem keeps_execAlignDone {s0 : State} {k : Nat} {s : State}
    (h : Keeps s0 s) :
    KeepsOn s0 (execAlignDone k s) := by
  unfold execAlignDone
  try dsimp only
  repeat' first
    | with_reducible assumption
    | intro _
    | with_reducible apply keeps_State_draw
    | with_reducible refine keeps_State_draw_eq ?_ (by with_reducible assumption)
    | with_reducible apply keeps_State_newJob
    | with_reducible apply keeps_State_modCap
    | with_reducible apply keeps_State_capEnd
    | with_reducible apply keepsOn_next
    | with_reducible apply keeps_ite
    | with_reducible apply keeps_foldl
    | with_reducible apply keeps_forN
    | fail_if_no_progress with_reducible apply keeps_mk
    | split

theorem keeps_State_checkpoint {s0 : State} {k : Nat} {s : State}
    (h : Keeps s0 s) :
    Keeps s0 (State.checkpoint k s) := by
  unfold State.checkpoint
  try dsimp only
  repeat' first
    | with_reducible assumption
    | intro _
    | with_reducible apply keeps_State_modCap
    | with_reducible apply keeps_State_devWrite
    | with_reducible apply keeps_ite
    | with_reducible apply keeps_foldl
    | with_reducible apply keeps_forN
    | fail_if_no_progress with_reducible apply keeps_mk
    | split

theorem keeps_State_fitEnd {s0 : State} {k : Nat} {d : Cmd → Done} {s : State}
    (h : Keeps s0 s) :
    Keeps s0 (State.fitEnd k d s) := by
  unfold State.fitEnd
  try dsimp only
  repeat' first
    | with_reducible assumption
    | intro _
    | with_reducible apply keeps_State_capEnd
    | with_reducible apply keeps_State_endJob
    | with_reducible apply keeps_ite
    | with_reducible apply keeps_foldl
    | with_reducible apply keeps_forN
    | fail_if_no_progress with_reducible apply keeps_mk
    | split

theorem keeps_State_fitFinish {s0 : State} {k : Nat} {s : State}
    (h : Keeps s0 s) :
    Keeps s0 (State.fitFinish k s) := by
  unfold State.fitFinish
  try dsimp only
  repeat' first
    | with_reducible assumption
    | intro _
    | with_reducible apply keeps_State_checkpoint
    | with_reducible apply keeps_State_fitEnd
    | with_reducible apply keeps_ite
    | with_reducible apply keeps_foldl
    | with_reducible apply keeps_forN
    | fail_if_no_progress with_reducible apply keeps_mk
    | split

theorem keeps_State_fitBoundary {s0 : State} {k : Nat} {s : State}
    (h : Keeps s0 s) :
    Keeps s0 (State.fitBoundary k s) := by
  unfold State.fitBoundary
  try dsimp only
  repeat' first
    | with_reducible assumption
    | intro _
    | with_reducible apply keeps_State_newJob
    | with_reducible apply keeps_State_fitFinish
    | with_reducible apply keeps_State_modCap
    | with_reducible apply keeps_State_serveCtl
    | with_reducible apply keeps_State_endJob
    | with_reducible apply keeps_ite
    | with_reducible apply keeps_foldl
    | with_reducible apply keeps_forN
    | fail_if_no_progress with_reducible apply keeps_mk
    | split

theorem keeps_execFitStep {s0 : State} {k : Nat} {s : State}
    (h : Keeps s0 s) :
    KeepsOn s0 (execFitStep k s) := by
  unfold execFitStep
  try dsimp only
  repeat' first
    | with_reducible assumption
    | intro _
    | with_reducible apply keepsOn_next
    | with_reducible apply keeps_State_noteDeny
    | with_reducible apply keeps_State_failJob
    | with_reducible refine keeps_State_draw_eq ?_ (by with_reducible assumption)
    | with_reducible apply keeps_State_draw
    | with_reducible apply keeps_State_fitEnd
    | with_reducible apply keeps_State_devWrite
    | with_reducible apply keeps_State_modCap
    | with_reducible apply keeps_State_checkpoint
    | with_reducible apply keeps_State_fitFinish
    | with_reducible apply keeps_State_fitBoundary
    | with_reducible apply keeps_ite
    | fail_if_no_progress with_reducible apply keeps_mk
    | split

theorem keeps_State_applyCapStatus {s0 : State} {c : Cmd} {s : State}
    (h : Keeps s0 s) :
    Keeps s0 (State.applyCapStatus c s) := by
  unfold State.applyCapStatus
  try dsimp only
  repeat' first
    | with_reducible assumption
    | intro _
    | with_reducible apply keeps_State_complete
    | with_reducible apply keeps_State_served
    | with_reducible apply keeps_ite
    | with_reducible apply keeps_foldl
    | with_reducible apply keeps_forN
    | fail_if_no_progress with_reducible apply keeps_mk
    | split

theorem keeps_State_applyCapCtl {s0 : State} {c : Cmd} {s : State}
    (h : Keeps s0 s) :
    Keeps s0 (State.applyCapCtl c s) := by
  unfold State.applyCapCtl
  try dsimp only
  repeat' first
    | with_reducible assumption
    | intro _
    | with_reducible apply keeps_State_modCap
    | with_reducible apply keeps_State_complete
    | with_reducible apply keeps_State_fitBoundary
    | with_reducible apply keeps_ite
    | with_reducible apply keeps_foldl
    | with_reducible apply keeps_forN
    | fail_if_no_progress with_reducible apply keeps_mk
    | split

theorem keeps_State_applyCtl {s0 : State} {c : Cmd} {s : State}
    (h : Keeps s0 s) :
    Keeps s0 (State.applyCtl c s) := by
  unfold State.applyCtl
  try dsimp only
  repeat' first
    | with_reducible assumption
    | intro _
    | with_reducible apply keeps_State_applyCapCtl
    | with_reducible apply keeps_State_applyCapStatus
    | with_reducible apply keeps_ite

theorem keeps_execCaptureStatus {s0 : State} {id : Nat} {s : State}
    (h : Keeps s0 s) :
    KeepsOn s0 (execCaptureStatus id s) := by
  unfold execCaptureStatus
  try dsimp only
  repeat' first
    | with_reducible assumption
    | intro _
    | with_reducible apply keeps_State_command
    | with_reducible apply keeps_State_applyCtl
    | with_reducible apply keepsOn_next

theorem keeps_execCapturePause {s0 : State} {id : Nat} {s : State}
    (h : Keeps s0 s) :
    KeepsOn s0 (execCapturePause id s) := by
  unfold execCapturePause
  try dsimp only
  repeat' first
    | with_reducible assumption
    | intro _
    | with_reducible apply keeps_State_command
    | with_reducible apply keeps_State_applyCtl
    | with_reducible apply keepsOn_next

theorem keeps_execCaptureResume {s0 : State} {id : Nat} {s : State}
    (h : Keeps s0 s) :
    KeepsOn s0 (execCaptureResume id s) := by
  unfold execCaptureResume
  try dsimp only
  repeat' first
    | with_reducible assumption
    | intro _
    | with_reducible apply keeps_State_command
    | with_reducible apply keeps_State_applyCtl
    | with_reducible apply keepsOn_next

theorem keeps_execCaptureStop {s0 : State} {id : Nat} {s : State}
    (h : Keeps s0 s) :
    KeepsOn s0 (execCaptureStop id s) := by
  unfold execCaptureStop
  try dsimp only
  repeat' first
    | with_reducible assumption
    | intro _
    | with_reducible apply keeps_State_command
    | with_reducible apply keeps_State_applyCtl
    | with_reducible apply keepsOn_next

theorem keeps_State_camStart {s0 : State} {c : Cmd} {s : State}
    (h : Keeps s0 s) :
    Keeps s0 (State.camStart c s) := by
  unfold State.camStart
  try dsimp only
  repeat' first
    | with_reducible assumption
    | intro _
    | with_reducible apply keeps_State_arm
    | with_reducible apply keeps_State_errCam
    | with_reducible apply keeps_State_served
    | with_reducible apply keeps_ite
    | fail_if_no_progress with_reducible apply keeps_mk
    | split

theorem keeps_State_camStop {s0 : State} {c : Cmd} {s : State}
    (h : Keeps s0 s) :
    Keeps s0 (State.camStop c s) := by
  unfold State.camStop
  try dsimp only
  repeat' first
    | with_reducible assumption
    | intro _
    | with_reducible apply keeps_State_camIdle
    | with_reducible apply keeps_ite
    | with_reducible apply keeps_foldl
    | with_reducible apply keeps_forN
    | fail_if_no_progress with_reducible apply keeps_mk

theorem keeps_State_camUpdate {s0 : State} {c : Cmd} {s : State}
    (h : Keeps s0 s) :
    Keeps s0 (State.camUpdate c s) := by
  unfold State.camUpdate
  try dsimp only
  repeat' first
    | with_reducible assumption
    | intro _
    | with_reducible apply keeps_State_served
    | with_reducible apply keeps_ite
    | with_reducible apply keeps_foldl
    | with_reducible apply keeps_forN
    | fail_if_no_progress with_reducible apply keeps_mk

theorem keeps_State_applyCamera {s0 : State} {c : Cmd} {s : State}
    (h : Keeps s0 s) :
    Keeps s0 (State.applyCamera c s) := by
  unfold State.applyCamera
  try dsimp only
  repeat' first
    | with_reducible assumption
    | intro _
    | with_reducible apply keeps_State_camStop
    | with_reducible apply keeps_State_camStart
    | with_reducible apply keeps_State_camUpdate
    | with_reducible apply keeps_ite

theorem keeps_execCameraStart {s0 : State} {id : Nat} {s : State}
    (h : Keeps s0 s) :
    KeepsOn s0 (execCameraStart id s) := by
  unfold execCameraStart
  try dsimp only
  repeat' first
    | with_reducible assumption
    | intro _
    | with_reducible apply keeps_State_command
    | with_reducible apply keeps_State_applyCamera
    | with_reducible apply keepsOn_next

theorem keeps_execCameraStop {s0 : State} {id : Nat} {s : State}
    (h : Keeps s0 s) :
    KeepsOn s0 (execCameraStop id s) := by
  unfold execCameraStop
  try dsimp only
  repeat' first
    | with_reducible assumption
    | intro _
    | with_reducible apply keeps_State_command
    | with_reducible apply keeps_State_applyCamera
    | with_reducible apply keepsOn_next

theorem keeps_execCameraUpdate {s0 : State} {id : Nat} {s : State}
    (h : Keeps s0 s) :
    KeepsOn s0 (execCameraUpdate id s) := by
  unfold execCameraUpdate
  try dsimp only
  repeat' first
    | with_reducible assumption
    | intro _
    | with_reducible apply keeps_State_command
    | with_reducible apply keeps_State_applyCamera
    | with_reducible apply keepsOn_next

theorem keeps_State_camLose {s0 : State} {e : Nat} {s : State}
    (h : Keeps s0 s) :
    Keeps s0 (State.camLose e s) := by
  unfold State.camLose
  try dsimp only
  repeat' first
    | with_reducible assumption
    | intro _
    | with_reducible apply keeps_State_camLost
    | with_reducible apply keeps_State_errCam
    | with_reducible apply keeps_State_camIdle
    | with_reducible apply keeps_ite
    | split

theorem keeps_State_clcTo {s0 : State} {f : W16} {l : W16} {jump : Bool} {s : State}
    (h : Keeps s0 s) :
    Keeps s0 (State.clcTo f l jump s) := by
  unfold State.clcTo
  try dsimp only
  repeat' first
    | with_reducible assumption
    | intro _
    | with_reducible apply keeps_State_mark
    | with_reducible apply keeps_ite
    | with_reducible apply keeps_foldl
    | with_reducible apply keeps_forN
    | fail_if_no_progress with_reducible apply keeps_mk

theorem keeps_State_frameStart {s0 : State} {s : State}
    (h : Keeps s0 s) :
    Keeps s0 (State.frameStart s) := by
  unfold State.frameStart
  try dsimp only
  repeat' first
    | with_reducible assumption
    | intro _
    | with_reducible apply keeps_State_camLose
    | with_reducible refine keeps_State_camWrite_eq ?_ (by with_reducible assumption)
    | with_reducible apply keeps_State_camWrite
    | with_reducible apply keeps_State_camDrop
    | with_reducible apply keeps_ite
    | fail_if_no_progress with_reducible apply keeps_mk
    | split

theorem keeps_execCsiFrameStart {s0 : State} {vc : BitVec 2} {s : State}
    (h : Keeps s0 s) :
    KeepsOn s0 (execCsiFrameStart vc s) := by
  unfold execCsiFrameStart
  try dsimp only
  repeat' first
    | with_reducible assumption
    | intro _
    | with_reducible apply keeps_State_frameStart
    | with_reducible apply keeps_State_clcTo
    | with_reducible apply keepsOn_next
    | with_reducible apply keeps_ite

theorem keeps_execCsiLineStart {s0 : State} {vc : BitVec 2} {s : State}
    (h : Keeps s0 s) :
    KeepsOn s0 (execCsiLineStart vc s) := by
  unfold execCsiLineStart
  try dsimp only
  repeat' first
    | with_reducible assumption
    | intro _
    | with_reducible apply keeps_State_clcTo
    | with_reducible apply keepsOn_next
    | with_reducible apply keeps_ite

theorem keeps_State_pixelLine {s0 : State} {dt : BitVec 6} {pix : List Nat} {crcOk : Bool} {lineRc : Nat} {behind : Bool} {s : State}
    (h : Keeps s0 s) :
    Keeps s0 (State.pixelLine dt pix crcOk lineRc behind s) := by
  unfold State.pixelLine
  try dsimp only
  repeat' first
    | with_reducible assumption
    | intro _
    | with_reducible apply keeps_State_errCam
    | with_reducible apply keeps_State_camLose
    | with_reducible apply keeps_ite
    | fail_if_no_progress with_reducible apply keeps_mk
    | split

theorem keeps_State_camOther {s0 : State} {vc : BitVec 2} {dt : BitVec 6} {s : State}
    (h : Keeps s0 s) :
    Keeps s0 (State.camOther vc dt s) := by
  unfold State.camOther
  try dsimp only
  repeat' first
    | with_reducible assumption
    | intro _
    | with_reducible apply keeps_ite
    | fail_if_no_progress with_reducible apply keeps_mk
    | split

theorem keeps_execCsiLongPacket {s0 : State} {vc : BitVec 2} {dt : BitVec 6} {pix : List Nat} {crcOk : Bool} {lineRc : Nat} {behind :
    Bool} {s : State}
    (h : Keeps s0 s) :
    KeepsOn s0 (execCsiLongPacket vc dt pix crcOk lineRc behind s) := by
  unfold execCsiLongPacket
  try dsimp only
  repeat' first
    | with_reducible assumption
    | intro _
    | with_reducible apply keepsOn_next
    | with_reducible apply keeps_State_clcTo
    | with_reducible apply keeps_State_camOther
    | with_reducible apply keeps_State_pixelLine
    | with_reducible apply keeps_ite
    | split

theorem keeps_execCsiFrameEnd {s0 : State} {vc : BitVec 2} {s : State}
    (h : Keeps s0 s) :
    KeepsOn s0 (execCsiFrameEnd vc s) := by
  unfold execCsiFrameEnd
  try dsimp only
  repeat' first
    | with_reducible assumption
    | intro _
    | with_reducible apply keeps_State_camLose
    | with_reducible apply keepsOn_next
    | with_reducible apply keeps_ite
    | with_reducible apply keeps_foldl
    | with_reducible apply keeps_forN
    | fail_if_no_progress with_reducible apply keeps_mk
    | split

theorem keeps_execCsiOtherPacket {s0 : State} {vc : BitVec 2} {dt : BitVec 6} {ecc : EccResult} {s : State}
    (h : Keeps s0 s) :
    KeepsOn s0 (execCsiOtherPacket vc dt ecc s) := by
  unfold execCsiOtherPacket
  try dsimp only
  repeat' first
    | with_reducible assumption
    | intro _
    | with_reducible apply keepsOn_next
    | with_reducible apply keeps_State_errCam
    | with_reducible apply keeps_State_camOther
    | with_reducible apply keeps_ite
    | fail_if_no_progress with_reducible apply keeps_mk
    | split

theorem keeps_execCsiLaneStateChange {s0 : State} {lanes : BitVec 4} {clk : Bool} {s : State}
    (h : Keeps s0 s) :
    KeepsOn s0 (execCsiLaneStateChange lanes clk s) := by
  unfold execCsiLaneStateChange
  try dsimp only
  repeat' first
    | with_reducible assumption
    | intro _
    | with_reducible apply keepsOn_next
    | with_reducible apply keeps_ite
    | with_reducible apply keeps_foldl
    | with_reducible apply keeps_forN
    | fail_if_no_progress with_reducible apply keeps_mk

theorem keeps_execCsiDeskew {s0 : State} {s : State}
    (h : Keeps s0 s) :
    KeepsOn s0 (execCsiDeskew s) := by
  unfold execCsiDeskew
  try dsimp only
  repeat' first
    | with_reducible assumption
    | intro _
    | with_reducible apply keepsOn_next
    | with_reducible apply keeps_ite
    | with_reducible apply keeps_foldl
    | with_reducible apply keeps_forN
    | fail_if_no_progress with_reducible apply keeps_mk

theorem keeps_execFrameOutputDone {s0 : State} {s : State}
    (h : Keeps s0 s) :
    KeepsOn s0 (execFrameOutputDone s) := by
  unfold execFrameOutputDone
  try dsimp only
  repeat' first
    | with_reducible assumption
    | intro _
    | with_reducible apply keepsOn_next
    | with_reducible refine keeps_State_camWrite_eq ?_ (by with_reducible assumption)
    | with_reducible apply keeps_State_camWrite
    | with_reducible apply keeps_State_camIdle
    | with_reducible apply keeps_ite
    | fail_if_no_progress with_reducible apply keeps_mk
    | split

theorem keeps_State_trigFire {s0 : State} {target : Nat} {s : State}
    (h : Keeps s0 s) :
    Keeps s0 (State.trigFire target s) := by
  unfold State.trigFire
  try dsimp only
  repeat' first
    | with_reducible assumption
    | intro _
    | with_reducible apply keeps_State_errCam
    | with_reducible apply keeps_State_arm
    | with_reducible apply keeps_ite
    | fail_if_no_progress with_reducible apply keeps_mk
    | split

theorem keeps_execTrigPulseEnd {s0 : State} {s : State}
    (h : Keeps s0 s) :
    KeepsOn s0 (execTrigPulseEnd s) := by
  unfold execTrigPulseEnd
  try dsimp only
  repeat' first
    | with_reducible assumption
    | intro _
    | with_reducible apply keepsOn_next
    | with_reducible apply keeps_ite
    | with_reducible apply keeps_foldl
    | with_reducible apply keeps_forN
    | fail_if_no_progress with_reducible apply keeps_mk

theorem keeps_State_applyIntake {s0 : State} {c : Cmd} {s : State}
    (h : Keeps s0 s) :
    Keeps s0 (State.applyIntake c s) := by
  unfold State.applyIntake
  try dsimp only
  repeat' first
    | with_reducible assumption
    | intro _
    | with_reducible apply keeps_State_intakeNext
    | with_reducible apply keeps_State_modCmd
    | with_reducible apply keeps_ite
    | with_reducible apply keeps_id
    | fail_if_no_progress with_reducible apply keeps_mk
    | split

theorem keeps_execIntakeSubmit {s0 : State} {id : Nat} {s : State}
    (h : Keeps s0 s) :
    KeepsOn s0 (execIntakeSubmit id s) := by
  unfold execIntakeSubmit
  try dsimp only
  repeat' first
    | with_reducible assumption
    | intro _
    | with_reducible apply keeps_State_command
    | with_reducible apply keeps_State_applyIntake
    | with_reducible apply keepsOn_next

theorem keeps_State_itWrite {s0 : State} {g : Agent} {y1 : List (Nat × List Byte)} {y2 : State}
    (h : Keeps s0 y2) :
    ∀ t0, State.itWrite g y1 y2 = .inr t0 → Keeps s0 t0 := by
  induction y1 generalizing y2 with
  | nil => intro t0 he; cases he; exact h
  | cons e l ih =>
    intro t0 he
    obtain ⟨a, bs⟩ := e
    unfold State.itWrite at he
    split at he
    · exact ih h _ he
    · split at he
      · cases he
      · exact ih (keeps_State_devWrite h) _ he

theorem keeps_State_itFault {s0 : State} {c : Cmd} {d : Deny} {s : State}
    (h : Keeps s0 s) :
    Keeps s0 (State.itFault c d s) := by
  unfold State.itFault
  try dsimp only
  repeat' first
    | with_reducible assumption
    | intro _
    | with_reducible apply keeps_State_noteDeny
    | with_reducible apply keeps_State_errItk
    | with_reducible apply keeps_State_endCmd
    | with_reducible apply keeps_ite
    | fail_if_no_progress with_reducible apply keeps_mk
    | split

theorem keeps_State_intakeDone {s0 : State} {c : Cmd} {x : Intake} {s : State}
    (h : Keeps s0 s) :
    Keeps s0 (State.intakeDone c x s) := by
  unfold State.intakeDone
  try dsimp only
  repeat' first
    | with_reducible assumption
    | intro _
    | with_reducible apply keeps_State_intakeNext
    | with_reducible apply keeps_State_itFault
    | with_reducible apply keeps_State_served
    | with_reducible refine keeps_State_itWrite ?_ _ (by with_reducible assumption)
    | with_reducible apply keeps_ite
    | with_reducible apply keeps_foldl
    | with_reducible apply keeps_forN
    | fail_if_no_progress with_reducible apply keeps_mk
    | split

theorem keeps_State_intakeSwitch {s0 : State} {s : State}
    (h : Keeps s0 s) :
    Keeps s0 (State.intakeSwitch s) := by
  unfold State.intakeSwitch
  try dsimp only
  repeat' first
    | with_reducible assumption
    | intro _
    | with_reducible apply keeps_State_intakeNext
    | with_reducible apply keeps_State_modCmd
    | with_reducible apply keeps_ite
    | with_reducible apply keeps_foldl
    | with_reducible apply keeps_forN
    | fail_if_no_progress with_reducible apply keeps_mk
    | split

theorem keeps_State_intakePlaced {s0 : State} {c : Cmd} {g : Agent} {p : Parsed} {x : Placed} {s : State}
    (h : Keeps s0 s) :
    Keeps s0 (State.intakePlaced c g p x s) := by
  unfold State.intakePlaced
  try dsimp only
  repeat' first
    | with_reducible assumption
    | intro _
    | with_reducible apply keeps_State_draw
    | with_reducible refine keeps_State_draw_eq ?_ (by with_reducible assumption)
    | with_reducible apply keeps_State_itFault
    | with_reducible apply keeps_State_intakeSwitch
    | with_reducible apply keeps_State_intakeDone
    | with_reducible refine keeps_State_itWrite ?_ _ (by with_reducible assumption)
    | with_reducible apply keeps_ite
    | with_reducible apply keeps_foldl
    | with_reducible apply keeps_forN
    | fail_if_no_progress with_reducible apply keeps_mk
    | split

theorem keeps_execIntakeSample {s0 : State} {s : State}
    (h : Keeps s0 s) :
    KeepsOn s0 (execIntakeSample s) := by
  unfold execIntakeSample
  try dsimp only
  repeat' first
    | with_reducible assumption
    | intro _
    | with_reducible apply keepsOn_next
    | with_reducible apply keeps_State_intakeNext
    | with_reducible apply keeps_State_itFault
    | with_reducible apply keeps_State_intakeDone
    | with_reducible apply keeps_State_intakePlaced
    | with_reducible apply keeps_ite
    | fail_if_no_progress with_reducible apply keeps_mk
    | split

end Sys2Proof.Laws
end

