-- ==== Sys2Proof/Laws/KeepsDue.lean ====
section
/-!
SUPPORT. For each operation of these files: it keeps what `Keeps` says.
-/
namespace Sys2Proof.Laws
open Sys2Proof.Machine

theorem keeps_State_wrGlb {s0 : State} {o : Nat} {v : W32} {hw : W32} {s : State}
    (h : Keeps s0 s) :
    Keeps s0 (State.wrGlb o v hw s) := by
  unfold State.wrGlb
  try dsimp only
  repeat' first
    | with_reducible assumption
    | intro _
    | with_reducible apply keeps_State_writeResetCtrl
    | with_reducible apply keeps_State_writeBootCtrl
    | with_reducible apply keeps_ite
    | fail_if_no_progress with_reducible apply keeps_mk
    | split

theorem keeps_State_wrTb {s0 : State} {o : Nat} {v : W32} {hw : W32} {s : State}
    (h : Keeps s0 s) :
    Keeps s0 (State.wrTb o v hw s) := by
  unfold State.wrTb
  try dsimp only
  repeat' first
    | with_reducible assumption
    | intro _
    | with_reducible apply keeps_State_writeTbCtrl
    | with_reducible apply keeps_ite
    | with_reducible apply keeps_foldl
    | with_reducible apply keeps_forN
    | fail_if_no_progress with_reducible apply keeps_mk

theorem keeps_State_wrClk {s0 : State} {o : Nat} {v : W32} {hw : W32} {s : State}
    (h : Keeps s0 s) :
    Keeps s0 (State.wrClk o v hw s) := by
  unfold State.wrClk
  try dsimp only
  repeat' first
    | with_reducible assumption
    | intro _
    | with_reducible apply keeps_ite
    | with_reducible apply keeps_foldl
    | with_reducible apply keeps_forN
    | fail_if_no_progress with_reducible apply keeps_mk

theorem keeps_State_wakeCheck {s0 : State} {s : State}
    (h : Keeps s0 s) :
    Keeps s0 (State.wakeCheck s) := by
  unfold State.wakeCheck
  try dsimp only
  repeat' first
    | with_reducible assumption
    | intro _
    | with_reducible apply keeps_ite
    | with_reducible apply keeps_foldl
    | with_reducible apply keeps_forN
    | fail_if_no_progress with_reducible apply keeps_mk

theorem keeps_State_wrPmu {s0 : State} {sd : Side} {o : Nat} {v : W32} {hw : W32} {s : State}
    (h : Keeps s0 s) :
    Keeps s0 (State.wrPmu sd o v hw s) := by
  unfold State.wrPmu
  try dsimp only
  repeat' first
    | with_reducible assumption
    | intro _
    | with_reducible apply keeps_State_writeWindow
    | with_reducible apply keeps_State_wakeCheck
    | with_reducible apply keeps_ite
    | with_reducible apply keeps_foldl
    | with_reducible apply keeps_forN
    | fail_if_no_progress with_reducible apply keeps_mk

theorem keeps_State_wrAon {s0 : State} {o : Nat} {v : W32} {hw : W32} {s : State}
    (h : Keeps s0 s) :
    Keeps s0 (State.wrAon o v hw s) := by
  unfold State.wrAon
  try dsimp only
  repeat' first
    | with_reducible assumption
    | intro _
    | with_reducible apply keeps_State_writeAon
    | with_reducible apply keeps_ite
    | with_reducible apply keeps_foldl
    | with_reducible apply keeps_forN
    | fail_if_no_progress with_reducible apply keeps_mk

theorem keeps_State_wrRing {s0 : State} {n : Nat} {o : Nat} {v : W32} {hw : W32} {s : State}
    (h : Keeps s0 s) :
    Keeps s0 (State.wrRing n o v hw s) := by
  unfold State.wrRing
  try dsimp only
  repeat' first
    | with_reducible assumption
    | intro _
    | with_reducible apply keeps_State_writeSqCfg
    | with_reducible apply keeps_State_writeCqCfg
    | with_reducible apply keeps_State_writeBase
    | with_reducible apply keeps_State_writeTail
    | with_reducible apply keeps_State_writeCqHead
    | with_reducible apply keeps_State_modRing
    | with_reducible apply keeps_ite

theorem keeps_State_wrGcp {s0 : State} {o : Nat} {v : W32} {hw : W32} {s : State}
    (h : Keeps s0 s) :
    Keeps s0 (State.wrGcp o v hw s) := by
  unfold State.wrGcp
  try dsimp only
  repeat' first
    | with_reducible assumption
    | intro _
    | with_reducible apply keeps_State_wrRing
    | with_reducible apply keeps_State_writeTransport
    | with_reducible apply keeps_ite

theorem keeps_State_wrSch {s0 : State} {sd : Side} {o : Nat} {v : W32} {hw : W32} {s : State}
    (h : Keeps s0 s) :
    Keeps s0 (State.wrSch sd o v hw s) := by
  unfold State.wrSch
  try dsimp only
  repeat' first
    | with_reducible assumption
    | intro _
    | with_reducible apply keeps_State_writeSchCtrl
    | with_reducible apply keeps_State_writeHoard
    | with_reducible apply keeps_State_writeDlCtrl
    | with_reducible apply keeps_ite
    | with_reducible apply keeps_foldl
    | with_reducible apply keeps_forN
    | fail_if_no_progress with_reducible apply keeps_mk

theorem keeps_State_wrKey {s0 : State} {sd : Side} {o : Nat} {v : W32} {hw : W32} {s : State}
    (h : Keeps s0 s) :
    Keeps s0 (State.wrKey sd o v hw s) := by
  unfold State.wrKey
  try dsimp only
  repeat' first
    | with_reducible assumption
    | intro _
    | with_reducible apply keeps_State_writeTdi
    | with_reducible apply keeps_ite
    | with_reducible apply keeps_foldl
    | with_reducible apply keeps_forN
    | fail_if_no_progress with_reducible apply keeps_mk

theorem keeps_State_wrMem {s0 : State} {o : Nat} {v : W32} {hw : W32} {s : State}
    (h : Keeps s0 s) :
    Keeps s0 (State.wrMem o v hw s) := by
  unfold State.wrMem
  try dsimp only
  repeat' first
    | with_reducible assumption
    | intro _
    | with_reducible apply keeps_State_writeBar2
    | with_reducible apply keeps_ite
    | with_reducible apply keeps_foldl
    | with_reducible apply keeps_forN
    | fail_if_no_progress with_reducible apply keeps_mk

theorem keeps_State_wrAud {s0 : State} {sd : Side} {o : Nat} {v : W32} {hw : W32} {s : State}
    (h : Keeps s0 s) :
    Keeps s0 (State.wrAud sd o v hw s) := by
  unfold State.wrAud
  try dsimp only
  repeat' first
    | with_reducible assumption
    | intro _
    | with_reducible apply keeps_State_writeMclk
    | with_reducible apply keeps_State_writeSpCtrl
    | with_reducible apply keeps_ite
    | with_reducible apply keeps_foldl
    | with_reducible apply keeps_forN
    | fail_if_no_progress with_reducible apply keeps_mk

theorem keeps_State_wrCam {s0 : State} {o : Nat} {v : W32} {hw : W32} {s : State}
    (h : Keeps s0 s) :
    Keeps s0 (State.wrCam o v hw s) := by
  unfold State.wrCam
  try dsimp only
  repeat' first
    | with_reducible assumption
    | intro _
    | with_reducible apply keeps_ite
    | with_reducible apply keeps_foldl
    | with_reducible apply keeps_forN
    | fail_if_no_progress with_reducible apply keeps_mk

theorem keeps_State_wrItk {s0 : State} {o : Nat} {v : W32} {hw : W32} {s : State}
    (h : Keeps s0 s) :
    Keeps s0 (State.wrItk o v hw s) := by
  unfold State.wrItk
  try dsimp only
  repeat' first
    | with_reducible assumption
    | intro _
    | with_reducible apply keeps_ite
    | fail_if_no_progress with_reducible apply keeps_mk
    | split

theorem keeps_State_wrSlk {s0 : State} {sd : Side} {o : Nat} {v : W32} {hw : W32} {s : State}
    (h : Keeps s0 s) :
    Keeps s0 (State.wrSlk sd o v hw s) := by
  unfold State.wrSlk
  try dsimp only
  repeat' first
    | with_reducible assumption
    | intro _
    | with_reducible apply keeps_State_modSlp
    | with_reducible apply keeps_ite
    | with_reducible apply keeps_foldl
    | with_reducible apply keeps_forN
    | fail_if_no_progress with_reducible apply keeps_mk

theorem keeps_State_wrObs {s0 : State} {sd : Side} {o : Nat} {v : W32} {hw : W32} {s : State}
    (h : Keeps s0 s) :
    Keeps s0 (State.wrObs sd o v hw s) := by
  unfold State.wrObs
  try dsimp only
  repeat' first
    | with_reducible assumption
    | intro _
    | with_reducible apply keeps_State_trigger
    | with_reducible apply keeps_ite
    | fail_if_no_progress with_reducible apply keeps_mk
    | split

theorem keeps_State_wrIrq {s0 : State} {o : Nat} {v : W32} {s : State}
    (h : Keeps s0 s) :
    Keeps s0 (State.wrIrq o v s) := by
  unfold State.wrIrq
  try dsimp only
  repeat' first
    | with_reducible assumption
    | intro _
    | with_reducible apply keeps_State_msix
    | with_reducible apply keeps_ite
    | fail_if_no_progress with_reducible apply keeps_mk
    | split

theorem keeps_State_wrCore {s0 : State} {c : Nat} {o : Nat} {v : W32} {hw : W32} {s : State}
    (h : Keeps s0 s) :
    Keeps s0 (State.wrCore c o v hw s) := by
  unfold State.wrCore
  try dsimp only
  repeat' first
    | with_reducible assumption
    | intro _
    | with_reducible apply keeps_State_modCore
    | with_reducible apply keeps_ite
    | fail_if_no_progress with_reducible apply keeps_mk
    | split

theorem keeps_State_writePlace {s0 : State} {sd : Side} {p : Place} {v : W32} {hw : W32} {s : State}
    (h : Keeps s0 s) :
    Keeps s0 (State.writePlace sd p v hw s) := by
  unfold State.writePlace
  try dsimp only
  repeat' first
    | with_reducible assumption
    | intro _
    | with_reducible apply keeps_State_wrCam
    | with_reducible apply keeps_State_wrSlk
    | with_reducible apply keeps_State_wrSch
    | with_reducible apply keeps_State_wrIrq
    | with_reducible apply keeps_State_wrItk
    | with_reducible apply keeps_State_wrTb
    | with_reducible apply keeps_State_wrGlb
    | with_reducible apply keeps_State_wrCore
    | with_reducible apply keeps_State_wrMem
    | with_reducible apply keeps_State_wrGcp
    | with_reducible apply keeps_State_wrAon
    | with_reducible apply keeps_State_wrKey
    | with_reducible apply keeps_State_wrClk
    | with_reducible apply keeps_State_wrAud
    | with_reducible apply keeps_State_wrObs
    | with_reducible apply keeps_State_wrPmu
    | with_reducible apply keeps_ite
    | with_reducible apply keeps_foldl
    | with_reducible apply keeps_forN
    | fail_if_no_progress with_reducible apply keeps_mk
    | split

theorem keeps_State_writeNow {s0 : State} {sd : Side} {a : Nat} {v : W32} {hw : W32} {s : State}
    (h : Keeps s0 s) :
    Keeps s0 (State.writeNow sd a v hw s) := by
  unfold State.writeNow
  try dsimp only
  repeat' first
    | with_reducible assumption
    | intro _
    | with_reducible apply keeps_State_writePlace
    | with_reducible apply keeps_State_rise
    | with_reducible apply keeps_ite
    | split

theorem keeps_State_regWrite {s0 : State} {sd : Side} {a : Nat} {v : W32} {hw : W32} {s : State}
    (h : Keeps s0 s) :
    Keeps s0 (State.regWrite sd a v hw s) := by
  unfold State.regWrite
  try dsimp only
  repeat' first
    | with_reducible assumption
    | intro _
    | with_reducible apply keeps_State_stall
    | with_reducible apply keeps_State_offAccess
    | with_reducible apply keeps_State_writeNow
    | with_reducible apply keeps_ite
    | fail_if_no_progress with_reducible apply keeps_mk
    | split

theorem keeps_execRegisterWrite {s0 : State} {sd : Side} {off : BitVec 25} {v : BitVec 32} {hw : BitVec 32} {s : State}
    (h : Keeps s0 s) :
    KeepsOn s0 (execRegisterWrite sd off v hw s) := by
  unfold execRegisterWrite
  try dsimp only
  repeat' first
    | with_reducible assumption
    | intro _
    | with_reducible apply keeps_State_regWrite
    | with_reducible apply keepsOn_next

theorem keeps_execOffBlockAccess {s0 : State} {sd : Side} {off : BitVec 25} {w : Option (BitVec 32)} {s : State}
    (h : Keeps s0 s) :
    KeepsOn s0 (execOffBlockAccess sd off w s) := by
  unfold execOffBlockAccess
  try dsimp only
  repeat' first
    | with_reducible assumption
    | intro _
    | with_reducible apply keeps_State_offAccess
    | with_reducible apply keepsOn_next
    | with_reducible apply keeps_ite
    | with_reducible apply keeps_foldl
    | with_reducible apply keeps_forN
    | fail_if_no_progress with_reducible apply keeps_mk

theorem keeps_execAutowakeAccess {s0 : State} {sd : Side} {off : BitVec 25} {w : Option (BitVec 32)} {s : State}
    (h : Keeps s0 s) :
    KeepsOn s0 (execAutowakeAccess sd off w s) := by
  unfold execAutowakeAccess
  try dsimp only
  repeat' first
    | with_reducible assumption
    | intro _
    | with_reducible apply keepsOn_next
    | with_reducible apply keeps_State_stall
    | with_reducible apply keeps_ite
    | fail_if_no_progress with_reducible apply keeps_mk
    | split

theorem keeps_State_stallDone {s0 : State} {x : Stalled} {s : State}
    (h : Keeps s0 s) :
    Keeps s0 (State.stallDone x s) := by
  unfold State.stallDone
  try dsimp only
  repeat' first
    | with_reducible assumption
    | intro _
    | with_reducible apply keeps_State_readNow
    | with_reducible apply keeps_State_writeNow
    | with_reducible apply keeps_ite
    | fail_if_no_progress with_reducible apply keeps_mk
    | split

theorem keeps_execAutowakeAccessComplete {s0 : State} {s : State}
    (h : Keeps s0 s) :
    KeepsOn s0 (execAutowakeAccessComplete s) := by
  unfold execAutowakeAccessComplete
  try dsimp only
  repeat' first
    | with_reducible assumption
    | intro _
    | with_reducible apply keepsOn_next
    | with_reducible apply keeps_State_stallDone
    | with_reducible apply keeps_ite
    | fail_if_no_progress with_reducible apply keeps_mk
    | split

theorem keeps_execAutowakeTimeout {s0 : State} {s : State}
    (h : Keeps s0 s) :
    KeepsOn s0 (execAutowakeTimeout s) := by
  unfold execAutowakeTimeout
  try dsimp only
  repeat' first
    | with_reducible assumption
    | intro _
    | with_reducible apply keepsOn_next
    | with_reducible apply keeps_State_stallFail
    | with_reducible apply keeps_State_stallDone
    | with_reducible apply keeps_ite
    | fail_if_no_progress with_reducible apply keeps_mk
    | split

theorem keeps_State_snapServed {s0 : State} {c : Cmd} {late : Nat} {s : State}
    (h : Keeps s0 s) :
    Keeps s0 (State.snapServed c late s) := by
  unfold State.snapServed
  try dsimp only
  repeat' first
    | with_reducible assumption
    | intro _
    | with_reducible apply keeps_State_finish
    | with_reducible apply keeps_ite
    | fail_if_no_progress with_reducible apply keeps_mk
    | split

theorem keeps_State_applySnap {s0 : State} {c : Cmd} {s : State}
    (h : Keeps s0 s) :
    Keeps s0 (State.applySnap c s) := by
  unfold State.applySnap
  try dsimp only
  repeat' first
    | with_reducible assumption
    | intro _
    | with_reducible apply keeps_State_snapServed
    | with_reducible apply keeps_State_latch
    | with_reducible apply keeps_State_floodQuill
    | with_reducible apply keeps_State_arm
    | with_reducible apply keeps_State_failSnaps
    | with_reducible apply keeps_ite

theorem keeps_execSnapshot {s0 : State} {id : Nat} {s : State}
    (h : Keeps s0 s) :
    KeepsOn s0 (execSnapshot id s) := by
  unfold execSnapshot
  try dsimp only
  repeat' first
    | with_reducible assumption
    | intro _
    | with_reducible apply keeps_State_command
    | with_reducible apply keeps_State_applySnap
    | with_reducible apply keepsOn_next

theorem keeps_State_ctrlMeaning {s0 : State} {k : Nat} {c : Cmd} {s : State}
    (h : Keeps s0 s) :
    Keeps s0 (State.ctrlMeaning k c s) := by
  unfold State.ctrlMeaning
  try dsimp only
  repeat' first
    | with_reducible assumption
    | intro _
    | with_reducible apply keeps_State_applyUnbind
    | with_reducible apply keeps_State_applyBind
    | with_reducible apply keeps_State_applyCommit
    | with_reducible apply keeps_State_applyEpochAbort
    | with_reducible apply keeps_State_applySeqRun
    | with_reducible apply keeps_State_applyOpen
    | with_reducible apply keeps_State_applyRuleEn
    | with_reducible apply keeps_ite
    | with_reducible apply keeps_foldl
    | with_reducible apply keeps_forN
    | fail_if_no_progress with_reducible apply keeps_mk
    | split

theorem keeps_dueMeaning {s0 : State} {c : Cmd} {m : Meaning} (e : dueMeaning c = some m)
    {d : Cmd} {x : State} (h : Keeps s0 x) : Keeps s0 (m.2 d x) := by
  unfold dueMeaning at e
  split at e <;> cases e <;> (try dsimp only) <;> repeat' first
    | with_reducible assumption
    | intro _
    | with_reducible apply keeps_State_applyAbort
    | with_reducible apply keeps_State_applyProxyBind
    | with_reducible apply keeps_State_applyRetrain
    | with_reducible apply keeps_State_applyCapture
    | with_reducible apply keeps_State_applySessionOpen
    | with_reducible apply keeps_State_applyImageUnload
    | with_reducible apply keeps_State_applySetWidth
    | with_reducible apply keeps_State_applySeqProgram
    | with_reducible apply keeps_State_applyPatch
    | with_reducible apply keeps_State_applyRunProgram
    | with_reducible apply keeps_State_applyPortUp
    | with_reducible apply keeps_State_applyTenantCreate
    | with_reducible apply keeps_State_applyBeaconJoin
    | with_reducible apply keeps_State_applyEnumerate
    | with_reducible apply keeps_State_applySetRate
    | with_reducible apply keeps_State_applyProxyUnbind
    | with_reducible apply keeps_State_applyCtl
    | with_reducible apply keeps_State_applyIntake
    | with_reducible apply keeps_State_applyPortReset
    | with_reducible apply keeps_State_applyInit
    | with_reducible apply keeps_State_applyPoolCreate
    | with_reducible apply keeps_State_ctrlMeaning
    | with_reducible apply keeps_State_applySnap
    | with_reducible apply keeps_State_applyRule
    | with_reducible apply keeps_State_applyUnmap
    | with_reducible apply keeps_State_applySessionClose
    | with_reducible apply keeps_State_applyBeaconRoot
    | with_reducible apply keeps_State_applyMap
    | with_reducible apply keeps_State_applyTenantSet
    | with_reducible apply keeps_State_applyTenantDestroy
    | with_reducible apply keeps_State_applyRotate
    | with_reducible apply keeps_State_applyMigrate
    | with_reducible apply keeps_State_applyClose
    | with_reducible apply keeps_State_applyCamera
    | with_reducible apply keeps_State_applyRunOp
    | with_reducible apply keeps_State_applyCoreReset
    | with_reducible apply keeps_State_applyDieReset
    | with_reducible apply keeps_State_applySetNodeId
    | with_reducible apply keeps_State_applyPoolDestroy
    | with_reducible apply keeps_State_applyWarmReset
    | with_reducible apply keeps_State_applyPortDown
    | with_reducible apply keeps_State_applyNop
    | with_reducible apply keeps_State_applyPower
    | with_reducible apply keeps_State_applyKvSeq
    | with_reducible apply keeps_State_kvMeaning
    | split

theorem keeps_State_cmdTick {s0 : State} {c : Cmd} {late : Nat} {skipped : Bool} {s : State}
    (h : Keeps s0 s) :
    Keeps s0 (State.cmdTick c late skipped s) := by
  unfold State.cmdTick
  try dsimp only
  repeat' first
    | with_reducible assumption
    | intro _
    | with_reducible refine keeps_dueMeaning (by with_reducible assumption) ?_
    | with_reducible apply keeps_State_openTick
    | with_reducible apply keeps_State_routeTick
    | with_reducible apply keeps_State_commitTick
    | with_reducible apply keeps_State_rejectProgram
    | with_reducible apply keeps_State_dueTick
    | with_reducible apply keeps_ite
    | fail_if_no_progress with_reducible apply keeps_mk
    | split

theorem keeps_State_quillFire {s0 : State} {k : Compare} {late : Nat} {s : State}
    (h : Keeps s0 s) :
    Keeps s0 (State.quillFire k late s) := by
  unfold State.quillFire
  try dsimp only
  repeat' first
    | with_reducible assumption
    | intro _
    | with_reducible apply keeps_State_snapServed
    | with_reducible apply keeps_State_complete
    | with_reducible apply keeps_State_latch
    | with_reducible apply keeps_State_failSnaps
    | with_reducible apply keeps_State_errObs
    | with_reducible apply keeps_ite
    | with_reducible apply keeps_foldl
    | with_reducible apply keeps_forN
    | fail_if_no_progress with_reducible apply keeps_mk
    | split

theorem keeps_execCompareFire {s0 : State} {k : Nat} {s : State}
    (h : Keeps s0 s) :
    KeepsOn s0 (execCompareFire k s) := by
  unfold execCompareFire
  try dsimp only
  repeat' first
    | with_reducible assumption
    | intro _
    | with_reducible apply keepsOn_next
    | with_reducible apply keeps_State_coreFired
    | with_reducible apply keeps_State_modCore
    | with_reducible apply keeps_State_trigFire
    | with_reducible apply keeps_State_modCmd
    | with_reducible apply keeps_State_cmdTick
    | with_reducible apply keeps_State_quillFire
    | with_reducible apply keeps_State_quill
    | with_reducible apply keeps_id
    | with_reducible apply keeps_ite
    | fail_if_no_progress with_reducible apply keeps_mk
    | split

theorem keeps_execDeadlineExpiry {s0 : State} {id : Nat} {s : State}
    (h : Keeps s0 s) :
    KeepsOn s0 (execDeadlineExpiry id s) := by
  unfold execDeadlineExpiry
  try dsimp only
  repeat' first
    | with_reducible assumption
    | intro _
    | with_reducible apply keepsOn_next
    | with_reducible apply keeps_State_endCmd
    | with_reducible apply keeps_ite
    | with_reducible apply keeps_id
    | fail_if_no_progress with_reducible apply keeps_mk
    | split

end Sys2Proof.Laws
end

