-- ==== Sys2Proof/Laws/Tile.lean ====
section
/-!
SUPPORT. What a row of a tile instruction does when it is at a well-encoded instruction of its own whose guard holds.
-/
namespace Sys2Proof.Machine
open Sys2Proof.Safety

theorem tile_at {s k w op} (h : TileAt s k w op) {mine : Nat → Bool} (hm : mine op = true) (f : W128 → State → TileRes) :
    s.tile k mine f = match f w s with
      | .fault code d => if s.dmasHeld k then s else s.faultWith k code (s.core k).pc d
      | .retire t p => t.retire k p
      | .stay t => t
      | .work n cc cube unit => s.longTile k n cc cube unit := by
  unfold State.tile
  simp only [h.fetch, h.opcode, hm, h.legal, h.guard, h.goes]
  cases hf : f w s <;> simp [h.runs]


end Sys2Proof.Machine
end

