-- ==== Sys2Proof/Tests/Slice0.lean ====
section
/-!
SUPPORT. Tests of the model against the worked examples of the spec, a refusal of `Instr.wellFormed` for each of its checks, and for
each statement of `Obligations` with premises, theorems `meets_<part>_<n>` that show states and operands meeting them together, one
or more for each clause. Chapters are the sections of the statements.
-/
set_option maxRecDepth 100000
set_option Elab.async false
namespace Sys2Proof.Tests
open Sys2Proof Sys2Proof.Machine Sys2Proof.Safety

/-! ### States the tests share -/

/-- `n` bytes that hold the fields given as (offset, length, value), zero elsewhere. -/
def bytes (n : Nat) (fs : List (Nat × Nat × Nat)) : List Byte :=
  (List.range n).map (fun i => BitVec.ofNat 8
    ((fs.map (fun f => if f.1 ≤ i ∧ i < f.1 + f.2.1 then f.2.2 / 256 ^ (i - f.1) % 256 else 0)).sum))

/-- A command of tenant 1 that has been read from ring 0. -/
def rd (op n : Nat) (fs : List (Nat × Nat × Nat)) : Cmd :=
  { id := 1, sq := 0, op := op, tag := 7, tenant := 1, cls := .interactive, cq := 0, params := bytes n fs }

/-- The state with one command outstanding. -/
def hold (c : Cmd) (s : State) : State := { s with cmds := [c] }

/-- The state after reset. -/
def r : State := State.reset

/-- Tenant 1: a window with every right over the system SRAM, every core. -/
def ten : Tenant :=
  { signed := false, saveSlots := 2, rtDensity := 500, rtStreams := 4, intCores := 4, bgCores := 2, affinity := BitVec.allOnes 64,
    saveBase := 0x100000, windows := [{ perm := 7, base := 0, limit := 1024 }], pubkey := [] }

/-- After reset with tenant 1 and an image of its with one program at the start of the SRAM. -/
def t1 : State := { r with tenants := [(1, some ten)], images := [(0, some { tenant := 1, codeBase := 0, codeLen := 64, entries := [0] })] }

theorem readyOf {s : State} {c : Cmd} {op : Nat}
    (h : s.cmd c.id = some c ∧ c.op = op ∧ c.phase = .read ∧ s.mayStart c = true ∧ dueSel c.due = 0) : Ready s c op :=
  ⟨h.1, h.2.1, h.2.2.1, h.2.2.2.1, h.2.2.2.2⟩

theorem tileOf {s : State} {k : Nat} {w : W128} {op : Nat}
    (h : s.fetch k = .word w ∧ tOp w = op ∧ tEncFault w = none ∧ (s.core k).guard w = true ∧ (s.core k).phase = .running ∧
      s.stopped k = false) :
    TileAt s k w op := ⟨h.1, h.2.1, h.2.2.1, h.2.2.2.1, h.2.2.2.2.1, h.2.2.2.2.2⟩

theorem seqOf {s : State} {op : Nat}
    (h : s.aon.seq.halted = false ∧ s.aon.seq.waiting = false ∧ qOp s.aon.seq.instr = op ∧ qLegal s.aon.seq.instr = true ∧
      s.aon.seq.pc < 4095) : SeqAt s op := ⟨h.1, h.2.1, h.2.2.1, h.2.2.2.1, h.2.2.2.2⟩

/-- Dies 0 and 3 up. -/
def up (s : State) : State := { s with dies := [(0, { bridge := .up, power := .on }), (3, { bridge := .up, power := .on })] }

/-- A 128-bit tile word from its fields (lowest bit, value). -/
def word (op : Nat) (fs : List (Nat × Nat)) : W128 := BitVec.ofNat 128 (op + (fs.map (fun f => 2 ^ f.1 * f.2)).sum)

/-- A job of tenant 1 that runs a program on core 63. -/
def progJob : Job := { kind := .program 1, tenant := 1, cls := .background, elig := 1, st := .running 63, windows := ten.windows }

/-- Core 63 runs a program whose instruction at the PC is `w`; the code segment lies at 0x100. -/
def tileS (w : W128) (x : Core) (s : State) : State :=
  { s with dies := [(0, { bridge := .up, power := .on }), (3, { bridge := .up, power := .on })], jobs := [(5, some progJob)],
           cores := [(63, { x with phase := .running, job := some 5, codeBase := 0x100, codeLen := 64 })],
           mem := mwrite s.mem (0x100 + 16 * x.pc) (toLe 16 w.toNat) }

namespace Worked

/-- The next state, or the same one. -/
def next (c : Instr) (s : State) : State := match exec c s with | .next t => t | _ => s

/-! ### The worked examples of the spec -/

/-- Section 9.8: the fields of the encoded MMA, and no encoding fault. -/
def mma : W128 := 0x0000000000400403F1C3000665411030
theorem test_mma_fields : tEncFault mma = none ∧ tOp mma = 0x30 ∧ tGuard mma = 0 ∧
    word 0x30 [(12, 1), (16, 1), (20, 4), (24, 5), (28, 6), (33, 3), (48, 3), (54, 7), (60, 63), (70, 16), (82, 16)] = mma := by decide

/-- Section 10.5: core 4 signals cell 2 of core 9 with 1. -/
def sigCores (w : W128) (c : Nat) : State :=
  { t1 with dies := [(0, { bridge := .up, power := .on })],
            jobs := [(5, some { progJob with st := .running 4 }), (6, some { progJob with st := .running 9 })],
            cores := [(4, { phase := .running, job := some 5, codeBase := 0x100, codeLen := 64 }),
              (9, { phase := .running, job := some 6, codeBase := 0x200, codeLen := 64 })],
            mem := mwrite t1.mem (if c = 4 then 0x100 else 0x200) (toLe 16 w.toNat) }
theorem test_sig_sets_the_cell :
    ((next (.signalDelivery 0) (next (.tileSig 4) (sigCores 0x00000000000000010000000009020060 4))).core 9).sync = [(2, 1)] := by decide
theorem test_swait_waits :
    ((next (.tileSwait 9) (sigCores 0x00000000000000010000000000021061 9)).core 9).pc = 0 := by decide

/-- Section 11.8: four FP32 values scaled by 64 to INT8 with statistics. -/
def vcvt : State := tileS 0x0000000000000000004A000403211042
  { a := [(1, 0x500), (2, 0x400), (3, 0x480)],
    lm := mwrite (mwrite [] 0x400 (toLe 4 0x3EC00000 ++ toLe 4 0xBFA00000 ++ toLe 4 0x3C400000 ++ toLe 4 0x40000000)) 0x480
      (toLe 4 0x42800000) } t1
theorem test_vcvt_outputs : mreadN ((next (.tileVcvt 63) vcvt).core 63).lm 0x500 4 = [24, 0xB0, 1, 127] := by decide
theorem test_vcvt_record : mreadN ((next (.tileVcvt 63) vcvt).core 63).lm 0x484 8 = toLe 4 0x3F880000 ++ [1, 0, 0, 0] := by decide

/-- Section 12.5: the exact epilogue with a tie. -/
def epi : State := tileS 0x00000000000000000000000000007050
  { a := [(7, 0x1000)], acc := [(0, 0xFFFFFF38), (1, 1000)],
    lm := [(0x1000, 0x01050001), (0x1004, 0x00020001), (0x1010, 0x1200), (0x1014, 4), (0x1018, 4), (0x101C, 0x1040),
        (0x1040, 0x00050001), (0x1044, 0x1100), (0x1050, 0x08000000), (0x1054, 0x1140), (0x1060, 5), (0x1068, 0xC2800000),
        (0x106C, 0x427E0000), (0x1070, 0x04000008), (0x1074, 0x1180), (0x1078, 0x1190), (0x1100, 20), (0x1104, 20),
        (0x1144, 0x50000000), (0x1148, 0x0120), (0x1154, 0x50000000), (0x1158, 0x0120), (0x1180, 0x40000000)].foldl
      (fun (m : List Host.Cell) (e : Nat × Nat) => mwrite m e.1 (toLe 4 e.2)) [] } t1
theorem test_epi : mreadN ((next (.tileEpi 63) epi).core 63).lm 0x1200 2 = [0x90, 127] ∧
    mreadN ((next (.tileEpi 63) epi).core 63).lm 0x1190 8 = toLe 4 0x3E800000 ++ [0, 0, 0, 0] := by decide

/-- Section 8.8: the densities of the three opens. -/
theorem test_densities : t1.densityOf 5 472 0 0 = 726 ∧ t1.densityOf 6 122 0 0 = 93 ∧ t1.densityOf 5 142 0 0 = 219 := by decide

/-- Section 24.4: where device core 37's registers are. -/
theorem test_core_37_registers : placeOf 0xA50094 = .core 37 0x94 ∧ placeOf 0x70194 = .iod 7 0x194 := by decide

/-- Section 21.11: node 0 routes to node 10 by x then y, and by y then x once link 1 to 2 is down. -/
def rack (l1 : Nat) : State :=
  { r with slk.ctrl := 0x0008010B,
           slk.ports := [0, 1, 2, 3].map (fun p => (p, { r.slp p with st := .up })),
           slk.links := [(1, BitVec.ofNat 4 l1), (2, 15), (3, 15), (8, 15), (9, 15), (10, 15), (11, 15)] }
theorem test_route : (rack 15).route 10 = some (1, [(0, 0), (1, 0), (2, 2)]) ∧
    (rack 14).route 10 = some (2, [(0, 2), (8, 0), (9, 0)]) := by decide

/-- Table 9.6 and R242: an ADD into an n register wraps and keeps the low 32 bits. -/
theorem test_add_keeps_32_bits :
    ((next (.tileAdd 63) (tileS (word 0x01 [(16, 0x10), (24, 2), (32, 3)]) { a := [(2, 0xFFFFFFFFFFFFFFFF), (3, 7)] } t1)).core 63).rd 0x10
      = 6 := by decide

end Worked

/-! ### Every check of `Instr.wellFormed` refuses an ill-formed command -/

namespace WellFormed

/-- A DATA frame of a payload on virtual channel `vc`. -/
def frame (n vc : Nat) : LinkFrame :=
  { ftype := 0, vc := BitVec.ofNat 8 vc, src := 0, dst := 1, seq := 0, tenant := 1, conf := false, payload := List.replicate n 0,
    crcOk := true }
/-- An image of two instructions that starts at `e`. -/
def image (e : Nat) : ImageDesc :=
  { formatOk := true, signatureOk := true, usesMpc := false, uses16g := false, usesSysKeys := false, codeBase := 0, code := [0, 0],
    entries := [e] }

theorem test_sfcTick_words : Instr.wellFormed (.sfcTick (List.replicate 5 []) 0) = false ∧
    Instr.wellFormed (.sfcTick [[List.replicate 17 0]] 0) = false ∧ Instr.wellFormed (.sfcTick [[List.replicate 16 0]] 0) = true := by
  decide
theorem test_usbIsoOut_channels : Instr.wellFormed (.usbIsoOut [List.replicate 9 0]) = false := by decide
theorem test_thermalSample_sensors : Instr.wellFormed (.thermalSample 0 [25]) = false := by decide
theorem test_commandRead_packet : Instr.wellFormed (.commandRead 0 { packet := some [0], params := none }) = false := by decide
theorem test_commandRead_params (p : List (BitVec 8)) (h : 65535 < p.length) :
    Instr.wellFormed (.commandRead 0 { packet := none, params := some p }) = false := by
  simp only [Instr.wellFormed, HostFetch.wellFormed, Bool.true_and]; exact decide_eq_false (Nat.not_le.2 h)
theorem test_bar2Access_length : Instr.wellFormed (.bar2Access 0 16 none) = false ∧
    Instr.wellFormed (.bar2Access 0 4 (some [0])) = false ∧ Instr.wellFormed (.bar2Access 0 64 none) = true := by decide
theorem test_csiLongPacket_pixels (p : List Nat) (h : 4096 < p.length) :
    Instr.wellFormed (.csiLongPacket 0 0 p true 0 false) = false := decide_eq_false (Nat.not_le.2 h)
theorem test_dataFrame_payload : Instr.wellFormed (.dataFrame 0 (frame 260 0)) = false ∧
    Instr.wellFormed (.dataFrame 0 (frame 3 0)) = false ∧ Instr.wellFormed (.dataFrame 0 (frame 256 1)) = true := by decide
theorem test_cmdFrame_vc : Instr.wellFormed (.cmdFrame 0 (frame 4 2)) = false := by decide
theorem test_cplFrame_vc : Instr.wellFormed (.cplFrame 0 (frame 4 2)) = false := by decide
theorem test_linkStateFrame_payload : Instr.wellFormed (.linkStateFrame 0 (frame 2 1)) = false := by decide
theorem test_quietStateFrame_payload : Instr.wellFormed (.quietStateFrame 0 (frame 2 1)) = false := by decide
theorem test_quillFrame_payload : Instr.wellFormed (.quillFrame 0 (frame 1 1)) = false := by decide
theorem test_wakeFrame_vc : Instr.wellFormed (.wakeFrame 0 (frame 0 255)) = false := by decide
theorem test_imageLoad_entry : Instr.wellFormed (.imageLoad 0 (image 2)) = false ∧ Instr.wellFormed (.imageLoad 0 (image 1)) = true := by
  decide

end WellFormed

namespace Part01

def queued : State := { r with pending := [.tileNop 3, .refclkLoss ⟨0, 0⟩] }
def queuedNext : State := { r with pending := [.refclkLoss ⟨0, 0⟩] }
def mem3 : List Host.Cell := [(5, 1), (0x3FFFFF, 2), (0x400000, 9)]
def irqS : State := { r with obs.irqEn := 0x003F0001 }
def irqT : State := { irqS with glb.bridgeErr := 1 }
def irqU : State := { irqT with memc.msixEnable := true, memc.busMaster := true, irq.table := [(4 * 63 + 3, 0)] }
def post : Status := { tag := 5, op := 1, tenant := 1, outcome := 0, reason := 0, sq := 63 }
def cqs (x : Ring) : State := { r with rings := [(63, x)] }
def cqEnd : State := cqs { cqCfg := 0x43, cqBase := 0x3FFE00, cqTail := 15, cqHead := 1 }
def cqOff : State := cqs {}
def cqFull : State := cqs { cqCfg := 0x43, cqHead := 1 }
def cqHeld : State := cqs { cqCfg := 0x43, held := [post] }
def irqV : State := { irqU with glb.bridgeErr := 0 }

theorem meets_StepRunsFront_1 :
    (queued.pending = [Instr.tileNop (3 : Fin 64), Instr.refclkLoss ⟨0, 0⟩]) :=
  by decide

theorem meets_EmptyQueueIdles_1 :
    (r.pending = []) :=
  by decide

theorem meets_StepKeepsInvariant_1 :
    (step queued = Host.Outcome.next queuedNext) ∧
    (Safety.Inv queued) :=
  ⟨rfl, ⟨by decide, by decide⟩⟩

theorem meets_MemoryStores_1 :
    (Memory.wf mem3 = true) :=
  by decide

theorem meets_MemoryStores_2 :
    (Memory.wf mem3 = true) ∧
    (1 < [(7 : Byte), (0 : Byte)].length) :=
  ⟨by decide, by decide⟩

theorem meets_MemoryStores_3 :
    (Memory.wf mem3 = true) ∧
    (4194302 + [(7 : Byte), (0 : Byte)].length ≤ 4194304) :=
  ⟨by decide, by decide⟩

theorem meets_MemoryStores_4 :
    (Memory.wf mem3 = true) ∧
    (4194302 ≤ 4194303) ∧
    (4194303 < 4194304) :=
  ⟨by decide, by decide, by decide⟩

theorem meets_MemoryStores_5 :
    (Memory.wf mem3 = true) ∧
    (4194304 ≤ 4194304) :=
  ⟨by decide, by decide⟩

theorem meets_SummarySignals_1 :
    (r.summary &&& ~~~r.summary &&& BitVec.setWidth 16 r.obs.irqEn = (0 : BitVec 16)) :=
  by decide

theorem meets_SummarySignals_3 :
    (irqT.summary &&& ~~~irqS.summary &&& BitVec.setWidth 16 irqT.obs.irqEn ≠ (0 : BitVec 16)) ∧
    (irqT.memc.msixEnable = false) :=
  ⟨by decide, by decide⟩

theorem meets_CompletionEntry_1 :
    (bit (cqEnd.ring 63).cqCfg 0 = true) ∧
    (bit (cqEnd.ring 63).cqCfg 1 = true) ∧
    ((cqEnd.ring 63).cqFull = false) ∧
    ((cqEnd.ring 63).held = []) ∧
    (Memory.wf cqEnd.mem = true) ∧
    (BitVec.toNat (cqEnd.ring 63).cqBase + 32 * (cqEnd.ring 63).cqTail.toNat + 32 ≤ 4194304) :=
  by and_intros <;> decide

theorem meets_CompletionNotWritten_1 :
    (bit (cqOff.ring 63).cqCfg 0 = false) ∧
    (post.sq < 64) :=
  ⟨by decide, by decide⟩

theorem meets_CompletionNotWritten_2 :
    (bit (cqFull.ring 63).cqCfg 0 = true) ∧
    ((cqFull.ring 63).cqFull = true) :=
  ⟨by decide, by decide⟩

theorem meets_CompletionNotWritten_3 :
    (bit (cqHeld.ring 63).cqCfg 0 = true) ∧
    ((cqHeld.ring 63).held ≠ []) :=
  ⟨by decide, by decide⟩

theorem meets_SummarySignals_2 :
    (irqU.summary &&& ~~~irqV.summary &&& BitVec.setWidth 16 irqU.obs.irqEn ≠ (0 : BitVec 16)) ∧
    (irqU.hostUp = true) ∧
    (irqU.memc.msixEnable = true) ∧
    (bit (irqU.msixWord (4 * fld irqU.obs.irqEn 16 6 + 3)) 0 = false) :=
  ⟨by decide, by decide, by decide, by decide⟩

end Part01

namespace Part02

def strapped : State := { t1 with glb.strapLatched := true }
def locked : State := { t1 with key.tdi := .locked }
def refHeld : State := { t1 with glb.resetHeld := true, glb.stage := 3, tb.carry := some (48000, 32768) }
def booted : State := { t1 with glb.stage := 1 }
def wsrc (n : W32) : State := { t1 with tb.ctrl := n, clk.lock := 0x1FFFF }
def brg (b : Bridge) (a : Nat) : State := { t1 with dies := [(3, { bridge := b, attempts := a, power := .on })] }
def upDie (copy : Sfc) (v : Option Sfc) : State := { t1 with tb.sfc := 9, dies := [(0, { bridge := .up, power := .on, sfcCopy := copy, checkVal := v })] }
def src (n : W32) : State := { t1 with tb.ctrl := n, tb.sfc := 77, slk.upPort := 3, slk.ports := [(3, { st := .up })] }
def beaconWait : State := { t1 with tb.beaconPending := some 1000 }
def mains (m : MpcMode) (n : Nat) : State := { t1 with tb.mpc := 0xFFFF, tb.mpcMode := m, tb.freewheelCycles := n }
def strm : Stream := { tenant := 1, image := 0, entry := 0, bLog2 := 6, chIn := 1, chOut := 1, fp32 := false, holdFade := false, reserve := 0, inRoute := [0], outRoute := [0], stateAddr := 0, core := 0, density := 100, fmax := 1 }
def withStrm : State := { t1 with streams := [(255, strm)] }
def awake : State := { t1 with tb.sfc := 0x123456789ABC }

theorem meets_ColdResetAndStraps_1 :
    (fld (63 : BitVec 8) 4 4 = 3) :=
  by decide

theorem meets_ColdResetAndStraps_2 :
    (fld (79 : BitVec 8) 4 4 ≠ 3) :=
  by decide

theorem meets_ColdResetAndStraps_3 :
    (t1.glb.strapLatched = false) :=
  by decide

theorem meets_ColdResetAndStraps_4 :
    (strapped.glb.strapLatched = true) :=
  by decide

theorem meets_WarmResets_4 :
    (t1.glb.resetHeld = false) :=
  by decide

theorem meets_ResetCtrlIgnored_1 :
    (fld (88637 : BitVec 32) 0 16 ≠ 23100) :=
  by decide

theorem meets_ResetCtrlIgnored_2 :
    (1 < popcount (fld (1137212 : BitVec 32) 20 4) 4 + at_ (bit (1137212 : BitVec 32) 16) 0) :=
  by decide

theorem meets_ResetCtrlIgnored_3 :
    (locked.key.tdi = Tdi.locked) :=
  by decide

theorem meets_RefclkReturns_1 :
    (refHeld.glb.resetHeld = true) ∧
    (refHeld.tb.carry = some ((48000 : Sfc), 32768)) ∧
    (refHeld.glb.stage ≠ (0 : BitVec 4)) :=
  ⟨by decide, by decide, by decide⟩

theorem meets_PllEvents_3 :
    (booted.glb.stage ≠ (0 : BitVec 4)) :=
  by decide

theorem meets_PllEvents_4 :
    (fld (wsrc (5 : W32)).tb.ctrl 0 2 = 1) :=
  by decide

theorem meets_PortResets_4 :
    (t1.key.tdi = Tdi.unlocked) :=
  by decide

theorem meets_DieResets_1 :
    (t1.key.tdi = Tdi.unlocked) ∧
    ((8411708 : BitVec 32) = BitVec.ofNat 32 (23100 + 2 ^ (20 + 3))) :=
  ⟨by decide, by decide⟩

theorem meets_DieResets_2 :
    (3 < 4) ∧
    ((63 / 16 : ℕ) = 3) :=
  ⟨by decide, by decide⟩

theorem meets_DieResets_3 :
    (3 < 4) ∧
    (16777215 < 16777216) :=
  ⟨by decide, by decide⟩

theorem meets_BridgeBringUp_1 :
    (((brg Bridge.training 0).die 3).bridge = Bridge.training) :=
  by decide

theorem meets_BridgeBringUp_2 :
    (((brg Bridge.training 1).die 3).bridge = Bridge.training) ∧
    (((brg Bridge.training 1).die 3).attempts < 2) :=
  ⟨by decide, by decide⟩

theorem meets_BridgeBringUp_3 :
    (((brg Bridge.training 2).die 3).bridge = Bridge.training) ∧
    (((brg Bridge.training 2).die 3).attempts = 2) :=
  ⟨by decide, by decide⟩

theorem meets_BridgeBringUp_4 :
    (((brg Bridge.idCheck 0).die 3).bridge = Bridge.idCheck) ∧
    (bit (4 : BitVec 3) 2 ≠ (bit (4 : BitVec 3) 1 != bit (4 : BitVec 3) 0)) :=
  ⟨by decide, by decide⟩

theorem meets_BridgeBringUp_5 :
    (((brg Bridge.idCheck 0).die 3).bridge = Bridge.idCheck) ∧
    (bit (5 : BitVec 3) 2 = (bit (5 : BitVec 3) 1 != bit (5 : BitVec 3) 0)) ∧
    (fld (5 : BitVec 3) 0 2 ≠ 3) :=
  ⟨by decide, by decide, by decide⟩

theorem meets_BridgeBringUp_6 :
    (((brg Bridge.idCheck 0).die 3).bridge = Bridge.idCheck) ∧
    (bit (3 : BitVec 3) 2 = (bit (3 : BitVec 3) 1 != bit (3 : BitVec 3) 0)) ∧
    (fld (3 : BitVec 3) 0 2 = 3) :=
  ⟨by decide, by decide, by decide⟩

theorem meets_BridgeRetrain_1 :
    ((brg Bridge.up 0).dieUp 3 = true) :=
  by decide

theorem meets_BridgeRetrain_2 :
    (((brg Bridge.retrain 0).die 3).bridge = Bridge.retrain) :=
  by decide

theorem meets_BridgeRetrain_3 :
    (((brg Bridge.retrain 0).die 3).bridge = Bridge.retrain) :=
  by decide

theorem meets_SfcCheck_1 :
    (∀ d < 4, (upDie (9 : Sfc) none).dieUp d = true → ((upDie (9 : Sfc) none).die d).sfcCopy = (upDie (9 : Sfc) none).tb.sfc) :=
  by decide

theorem meets_SfcCheck_2 :
    ((upDie (8 : Sfc) none).dieUp 0 = true) ∧
    (((upDie (8 : Sfc) none).die 0).sfcCopy ≠ (upDie (8 : Sfc) none).tb.sfc) ∧
    ((upDie (8 : Sfc) none).dieUp 1 = false) ∧
    ((upDie (8 : Sfc) none).dieUp 2 = false) ∧
    ((upDie (8 : Sfc) none).dieUp 3 = false) :=
  by and_intros <;> decide

theorem meets_SfcCheck_3 :
    (((upDie (8 : Sfc) (some (5 : Sfc))).die 0).checkVal = some (5 : Sfc)) ∧
    ((upDie (8 : Sfc) (some (5 : Sfc))).dieUp 0 = true) :=
  ⟨by decide, by decide⟩

theorem meets_WordClockAndBeacon_1 :
    (fld (src (4 : W32)).tb.ctrl 0 2 = 0) :=
  by decide

theorem meets_WordClockAndBeacon_2 :
    (fld (src (5 : W32)).tb.ctrl 0 2 ≠ 0) :=
  by decide

theorem meets_WordClockAndBeacon_3 :
    (fld (src (4 : W32)).tb.ctrl 0 2 = 0) :=
  by decide

theorem meets_WordClockAndBeacon_7 :
    (beaconWait.tb.beaconPending = some (1000 : Sfc)) :=
  by decide

theorem meets_MainsCounter_3 :
    ((mains MpcMode.freewheel 16).tb.mpcMode = MpcMode.freewheel) ∧
    (16 ≤ (mains MpcMode.freewheel 16).tb.freewheelCycles) ∧
    ((mains MpcMode.freewheel 16).cam.running = false) :=
  ⟨by decide, by decide, by decide⟩

theorem meets_MainsCounter_4 :
    ((mains MpcMode.hold 16).tb.mpcMode = MpcMode.hold) :=
  by decide

theorem meets_TbCtrlWrites_1 :
    (fld (8 : BitVec 32) 0 2 < 3) ∧
    (fld (8 : BitVec 32) 2 4 ≤ 5) ∧
    (fld (8 : BitVec 32) 0 6 ≠ fld withStrm.tb.ctrl 0 6) ∧
    (withStrm.openStreams ≠ 0) :=
  ⟨by decide, by decide, by decide, by decide⟩

theorem meets_TbCtrlWrites_2 :
    (fld (261 : BitVec 32) 0 2 < 3) ∧
    (fld (261 : BitVec 32) 2 4 ≤ 5) ∧
    (fld (261 : BitVec 32) 0 6 = fld withStrm.tb.ctrl 0 6) :=
  ⟨by decide, by decide, by decide⟩

theorem meets_TbCtrlWrites_3 :
    (fld (261 : BitVec 32) 0 2 = 1) ∧
    (fld (src (6 : W32)).tb.ctrl 0 2 ≠ 1) ∧
    (fld (261 : BitVec 32) 2 4 ≤ 5) ∧
    (fld (261 : BitVec 32) 2 4 = fld (src (6 : W32)).tb.ctrl 2 4) ∧
    ((src (6 : W32)).openStreams = 0) ∧
    ((src (6 : W32)).anyExcite = false) :=
  by and_intros <;> decide

theorem meets_TimebaseShadows_1 :
    (awake.offAt 65552 = false) :=
  by decide

theorem meets_TimebaseShadows_2 :
    (awake.offAt 65568 = false) ∧
    (awake.build.rev = IodRev.rev2) :=
  ⟨by decide, by decide⟩

def offS : State := { t1 with pmu.dev := .off }
def apll (n : W32) : State := { t1 with tb.apllLost := true, tb.ctrl := n }

theorem meets_MainsCounter_5 :
    let s : State := mains MpcMode.locked 0
    let n : BitVec 16 := 0
    (s.mpcRuns = true) ∧
    (s.tb.mpcMode = MpcMode.locked) ∧
    (s.tb.mpc.toNat % 65536 + n.toNat < 65536) :=
  ⟨by decide, by decide, by decide⟩

theorem meets_MainsCounter_6 :
    let s : State := mains MpcMode.locked 0
    let n : BitVec 16 := 1
    (s.mpcRuns = true) ∧
    (s.tb.mpcMode = MpcMode.locked) ∧
    (65536 ≤ s.tb.mpc.toNat % 65536 + n.toNat) :=
  ⟨by decide, by decide, by decide⟩

theorem meets_MainsCounter_7 :
    let s : State := mains MpcMode.freewheel 16
    (s.mpcRuns = true) ∧
    (s.tb.mpcMode = MpcMode.freewheel) :=
  ⟨by decide, by decide⟩

theorem meets_MainsCounter_8 :
    let s : State := mains MpcMode.locked 0
    (s.mpcRuns = true) ∧
    (s.tb.mpcMode = MpcMode.locked ∨ s.tb.mpcMode = MpcMode.idle ∧ s.tb.mpcCrossings ≠ 0) :=
  ⟨by decide, by decide⟩

theorem meets_PllEvents_5 :
    let s : State := t1
    (s.pmu.dev ≠ DevSt.off) ∧
    (s.tb.apllLost = false) :=
  ⟨by decide, by decide⟩

theorem meets_PllEvents_6 :
    let s : State := apll 0
    (s.pmu.dev ≠ DevSt.off) ∧
    (s.tb.apllLost = true) ∧
    (fld s.tb.ctrl 0 2 = 0) :=
  ⟨by decide, by decide, by decide⟩

theorem meets_PllEvents_7 :
    let s : State := t1
    s.pmu.dev ≠ DevSt.off :=
  by decide

theorem meets_PllEvents_8 :
    let s : State := booted
    (s.pmu.dev ≠ DevSt.off) ∧
    (s.glb.stage ≠ 0) :=
  ⟨by decide, by decide⟩

theorem meets_TbCtrlWrites_4 :
    let s : State := withStrm
    s.openStreams ≠ 0 ∨ s.anyExcite = true :=
  by decide

theorem meets_TbCtrlWrites_5 :
    let s : State := src 6
    let v : BitVec 32 := 0x86
    (fld v 0 2 < 3) ∧
    (fld v 2 4 ≤ 5) ∧
    (fld v 0 6 = fld s.tb.ctrl 0 6) ∧
    (s.openStreams = 0) ∧
    (s.anyExcite = false) :=
  by and_intros <;> decide

theorem meets_WarmResets_5 :
    let s : State := t1
    s.pmu.dev ≠ DevSt.off :=
  by decide

theorem meets_WarmResets_6 :
    let s : State := t1
    let v : BitVec 32 := 88636
    (s.pmu.dev ≠ DevSt.off) ∧
    (s.key.tdi = Tdi.unlocked) ∧
    (v = 88636) :=
  ⟨by decide, by decide, by decide⟩

theorem meets_WarmResets_7 :
    let s : State := t1
    (s.pmu.dev ≠ DevSt.off) ∧
    (s.glb.resetHeld = false) :=
  ⟨by decide, by decide⟩

theorem meets_WarmResets_8 :
    let s : State := offS
    let v : BitVec 32 := 88636
    (s.pmu.dev = DevSt.off) ∧
    (s.key.tdi = Tdi.unlocked) ∧
    (v = 88636) :=
  ⟨by decide, by decide, by decide⟩

def bcn : State := { t1 with tb.ctrl := 2, tb.sfc := 77, slk.upPort := 0, slk.rootId := some 1, slk.ports := [(0, { st := .up })] }
def bFr (v : Nat) : LinkFrame := { ftype := 7, vc := 0, src := 1, dst := 0, seq := 0, tenant := 0, conf := false, payload := toLe 6 v, crcOk := true }
def noRoot : State := { bcn with slk.rootId := none }
def camFw : State := { mains .freewheel 16 with cam.running := true, cam.cfg := { r.cam.cfg with flags := 8 } }

theorem meets_BridgeRetrain_4 :
    let s : State := t1
    s.sch.heldDma = [] :=
  by decide +kernel

theorem meets_MainsCounter_9 :
    let s : State := mains MpcMode.freewheel 16
    (s.tb.mpcMode = MpcMode.freewheel) ∧
    (16 ≤ s.tb.freewheelCycles) ∧
    (s.cam.running = false ∨ bit s.cam.cfg.flags 3 = false) :=
  ⟨by decide +kernel, by decide +kernel, by decide +kernel⟩

theorem meets_MainsCounter_10 :
    let s : State := camFw
    (s.tb.mpcMode = MpcMode.freewheel) ∧
    (16 ≤ s.tb.freewheelCycles) ∧
    (s.cam.running = true) ∧
    (bit s.cam.cfg.flags 3 = true) :=
  ⟨by decide +kernel, by decide +kernel, by decide +kernel, by decide +kernel⟩

theorem meets_MainsCounter_11 :
    let s : State := mains MpcMode.freewheel 15
    s.tb.mpcMode ≠ MpcMode.freewheel ∨ s.tb.freewheelCycles < 16 :=
  by decide +kernel

theorem meets_WordClockAndBeacon_9 :
    let s : State := bcn
    let port : Fin 4 := 0
    let r : ℕ := 1
    s.beaconFrom port.val = some r :=
  by decide +kernel

theorem meets_WordClockAndBeacon_10 :
    let s : State := noRoot
    let port : Fin 4 := 0
    s.beaconFrom port.val = none :=
  by decide +kernel

theorem meets_WordClockAndBeacon_11 :
    let s : State := noRoot
    fld s.tb.ctrl 0 2 ≠ 2 ∨ s.slk.rootId = none :=
  by decide +kernel

theorem meets_WordClockAndBeacon_12 :
    let s : State := bcn
    let port : Fin 4 := 0
    let f : LinkFrame := { bFr 77 with crcOk := false }
    ((s.slp port.val).st = SlkSt.up) ∧
    (f.ftype = 7) ∧
    (f.crcOk = false ∨ f.seq ≠ (s.slp port.val).rxSeq) :=
  ⟨by decide +kernel, by decide +kernel, by decide +kernel⟩

theorem meets_WordClockAndBeacon_13 :
    let s : State := bcn
    let port : Fin 4 := 0
    let f : LinkFrame := bFr 78
    let r : ℕ := 1
    ((s.slp port.val).st = SlkSt.up) ∧
    (f.ftype = 7) ∧
    (f.crcOk = true) ∧
    (f.seq = (s.slp port.val).rxSeq) ∧
    (f.conf = false) ∧
    (f.dst.toNat = s.node ∨ f.dst = 255) ∧
    ((State.modSlp port.val (fun q => { q with rxSeq := q.rxSeq + 1, acked := some true }) s).beaconFrom port.val = some r) ∧
    (BitVec.ofNat 48 (leAt f.payload 0 6) ≠ s.tb.sfc) :=
  ⟨by decide +kernel, by decide +kernel, by decide +kernel, by decide +kernel, by decide +kernel, by decide +kernel, by decide +kernel, by decide +kernel⟩

theorem meets_WordClockAndBeacon_14 :
    let s : State := bcn
    let port : Fin 4 := 0
    let f : LinkFrame := bFr 77
    let r : ℕ := 1
    ((s.slp port.val).st = SlkSt.up) ∧
    (f.ftype = 7) ∧
    (f.crcOk = true) ∧
    (f.seq = (s.slp port.val).rxSeq) ∧
    (f.conf = false) ∧
    (f.dst.toNat = s.node ∨ f.dst = 255) ∧
    ((State.modSlp port.val (fun q => { q with rxSeq := q.rxSeq + 1, acked := some true }) s).beaconFrom port.val = some r) ∧
    (BitVec.ofNat 48 (leAt f.payload 0 6) = s.tb.sfc) :=
  ⟨by decide +kernel, by decide +kernel, by decide +kernel, by decide +kernel, by decide +kernel, by decide +kernel, by decide +kernel, by decide +kernel⟩

theorem meets_WordClockAndBeacon_15 :
    let s : State := noRoot
    let port : Fin 4 := 0
    let f : LinkFrame := bFr 77
    ((s.slp port.val).st = SlkSt.up) ∧
    (f.ftype = 7) ∧
    (f.crcOk = true) ∧
    (f.seq = (s.slp port.val).rxSeq) ∧
    (f.conf = false) ∧
    (f.dst.toNat = s.node ∨ f.dst = 255) ∧
    ((State.modSlp port.val (fun q => { q with rxSeq := q.rxSeq + 1, acked := some true }) s).beaconFrom port.val = none) :=
  ⟨by decide +kernel, by decide +kernel, by decide +kernel, by decide +kernel, by decide +kernel, by decide +kernel, by decide +kernel⟩

end Part02

namespace Part03

def running : State := { t1 with tb.sfc := 7, tb.sfcRunning := true, dies := [(0, { bridge := .up, power := .on, sfcCopy := 7 }), (3, { bridge := .up, power := .on, sfcCopy := 7 })] }
def cmp0 : Compare := { tb := .sfc, target := 6, owner := .core 0 }
def cmp1 : Compare := { cmp0 with hit := some (1, true) }
def cmp2 : Compare := { cmp1 with tb := .clc }
def fired (k : Compare) (w : Option Wait) : State := { t1 with tb.compares := [k], cores := [(0, { phase := .running, wait := w, wakeMsg := some (1, true) })] }
def twait1 : Wait := { op := 0x62, word := 0x3003000 }
def nopAt : Cmd := { rd 1 0 [] with due := 0x0001000000000006, phase := .armed, timeout := 9 }
def cmpC : Compare := { cmp1 with owner := .cmd 1 }
def nopDue : State := { hold nopAt t1 with tb.compares := [cmpC] }
def nopDl : Cmd := { rd 1 0 [] with due := 0x0009000000000007, phase := .armed }
def dlHit : State := hold nopDl running
def strm : Stream := { tenant := 1, image := 0, entry := 0, bLog2 := 4, chIn := 1, chOut := 1, fp32 := false, holdFade := false, reserve := 0, inRoute := [0], outRoute := [0], stateAddr := 0, core := 0, density := 100, fmax := 1, inBuf := 0x1000, outBuf := 0x2000, started := true }
def blk (dl dn : Bool) : Block := { s := 16, input := List.replicate 16 [5], route := [0], delivered := dl, done := dn }
def sm (x : Stream) (now : Sfc) : State := { running with tb.sfc := now, streams := [(255, x)], cores := [(0, { lm := [(0x2000, 3)] })] }
def strmB (b : Block) : Stream := { strm with blocks := [b] }
def openC : Cmd := { rd 0x20 0 [] with phase := .running }
def strmO : Stream := { strm with openCmd := some 1, started := false, first := 48, collect := [[5]] }
def smO : State := hold openC (sm strmO 48)
def closeC : Cmd := { rd 0x21 0 [] with phase := .running }
def strmC : Stream := { strm with closeCmd := some 1, closeAt := some 16, lastOut := [5] }
def smC : State := hold closeC (sm strmC 48)
def portOn : State := { t1 with aud.ports := [(3, { ctrl := 0x111, clkOk := true })] }
def portLost : State := { t1 with aud.ports := [(3, { ctrl := 0x111, lost := true })] }
def usbOn : State := { t1 with aud.usbOut := 2, aud.usbIn := 2, aud.usbInFifo := [[1], [2]] }
def ring0 : Ring := { sqCfg := 0x43, sqBase := 0x1000, cqCfg := 0x43, cqBase := 0x2000, sqTail := 15, sqHead := 1, cqTail := 1 }
def ringFull : Ring := { ring0 with sqHead := 0 }
def ringEmpty : Ring := { ring0 with cqTail := 0 }
def usb (x : Ring) : State := { t1 with rings := [(0, x)] }
def ringIdle : Ring := { ringEmpty with sqTail := 15, sqHead := 1 }

theorem meets_ComparesFireOnce_1 :
    (7 < 2 ^ tbWidth Timebase.sfc) ∧
    (tbReached Timebase.sfc (running.tbFor Timebase.sfc (Owner.core 0)) 7 = true) :=
  ⟨by decide, by decide⟩

theorem meets_ComparesFireOnce_2 :
    (8 < 2 ^ tbWidth Timebase.sfc) ∧
    (tbReached Timebase.sfc (running.tbFor Timebase.sfc (Owner.core 0)) 8 = false) :=
  ⟨by decide, by decide⟩

theorem meets_ComparesFireOnce_3 :
    (cmp0.tb = Timebase.sfc) ∧
    (cmp0.hit = none) ∧
    (tbReached Timebase.sfc (running.tbFor Timebase.sfc cmp0.owner) cmp0.target.toNat = true) ∧
    (tbLate Timebase.sfc (running.tbFor Timebase.sfc cmp0.owner) cmp0.target.toNat ≠ 0) :=
  ⟨by decide, by decide, by decide, by decide⟩

theorem meets_ComparesFireOnce_4 :
    (cmp1.hit ≠ none) :=
  by decide

theorem meets_CompareFirings_1 :
    ((List.filter (fun x => x.hit.isSome) (fired cmp2 none).tb.compares)[0]? = some cmp2) ∧
    (cmp2.owner = Owner.core 0) ∧
    (cmp2.tb ≠ Timebase.sfc) ∧
    (cmp2.hit = some (1, true)) :=
  ⟨by decide, by decide, by decide, by decide⟩

theorem meets_CompareFirings_2 :
    ((List.filter (fun x => x.hit.isSome) (fired cmp1 none).tb.compares)[0]? = some cmp1) ∧
    (cmp1.owner = Owner.core 0) ∧
    (cmp1.tb = Timebase.sfc) ∧
    (cmp1.hit = some (1, true)) :=
  ⟨by decide, by decide, by decide, by decide⟩

theorem meets_CompareFirings_3 :
    (((fired cmp1 none).core 0).wakeMsg = some (1, true)) :=
  by decide

theorem meets_CompareFirings_4 :
    (((fired cmp1 (some twait1)).core 0).phase = CorePhase.running) ∧
    (((fired cmp1 (some twait1)).core 0).wait = some twait1) ∧
    (twait1.op = (98 : BitVec 8)) :=
  ⟨by decide, by decide, by decide⟩

theorem meets_DueTicks_1 :
    ((List.filter (fun x => x.hit.isSome) nopDue.tb.compares)[0]? = some cmpC) ∧
    (cmpC.owner = Owner.cmd nopAt.id) ∧
    (cmpC.hit = some (1, true)) ∧
    (nopDue.cmd nopAt.id = some nopAt) ∧
    (nopAt.op = 1) ∧
    (nopAt.params = []) ∧
    (nopAt.remote = none) ∧
    (nopAt.phase = Phase.armed) ∧
    (dueIs nopAt.due 0 = true) :=
  by and_intros <;> decide

theorem meets_DueTicks_2 :
    (dlHit.cmd nopDl.id = some nopDl) ∧
    (dueIs nopDl.due 2 = true) ∧
    (nopDl.remote = none) ∧
    (nopDl.op ≠ 51) ∧
    (tbReached (dueTb nopDl.due) (dlHit.tbNow (dueTb nopDl.due)) (dueVal nopDl.due).toNat = true) :=
  by and_intros <;> decide

theorem meets_SerialPorts_1 :
    (fld (243 : BitVec 32) 4 4 + 1 ≤ t1.maxSlots) ∧
    (fld (243 : BitVec 32) 1 2 = 1) ∧
    (fld (243 : BitVec 32) 8 2 ≠ 3) ∧
    (bit (243 : BitVec 32) 0 = true) ∧
    (bit (243 : BitVec 32) 3 = false) ∧
    (t1.portUsed 3 = false) :=
  by and_intros <;> decide

theorem meets_SerialPorts_2 :
    (fld (241 : BitVec 32) 1 2 = 0 ∧ fld (241 : BitVec 32) 4 4 ≠ 1) :=
  by decide

theorem meets_SerialPorts_3 :
    (fld (5 : BitVec 32) 1 2 ≠ 3) ∧
    (128 * 2 ^ fld (5 : BitVec 32) 1 2 * t1.rateHz ≤ 49152000) :=
  ⟨by decide, by decide⟩

theorem meets_SerialPorts_4 :
    (fld (6 : BitVec 32) 1 2 = 3) :=
  by decide

theorem meets_SerialPorts_5 :
    (bit (portOn.port 3).ctrl 0 = true) ∧
    (bit (portOn.port 3).ctrl 3 = false) ∧
    (portOn.caps = []) :=
  ⟨by decide, by decide, by decide⟩

theorem meets_SerialPorts_6 :
    ((portLost.port 3).lost = true) :=
  by decide

theorem meets_UsbAudio_2 :
    ((2 : BitVec 2) ≠ (3 : BitVec 2)) ∧
    (t1.rateHz ≤ 96000) :=
  ⟨by decide, by decide⟩

theorem meets_UsbAudio_3 :
    ((3 : BitVec 2) = (3 : BitVec 2)) :=
  by decide

theorem meets_UsbAudio_4 :
    (usbOn.aud.usbOut ≠ (0 : BitVec 2)) ∧
    (usbOn.aud.usbSuspended = false) :=
  ⟨by decide, by decide⟩

theorem meets_UsbAudio_5 :
    (usbOn.aud.usbIn ≠ (0 : BitVec 2)) ∧
    (usbOn.aud.usbSuspended = false) :=
  ⟨by decide, by decide⟩

theorem meets_CommandTransports_1 :
    ((List.replicate 64 (1 : BitVec 8)).length % 64 = 0) ∧
    (((usb ring0).ring (fld (usb ring0).gcp.usbCfg 0 6)).takes (List.replicate 64 (1 : BitVec 8)).length = true) :=
  ⟨by decide, by decide⟩

theorem meets_CommandTransports_2 :
    (((usb ringFull).ring (fld (usb ringFull).gcp.usbCfg 0 6)).takes (List.replicate 64 (1 : BitVec 8)).length = false) :=
  by decide

theorem meets_CommandTransports_3 :
    ((List.replicate 64 (1 : BitVec 8)).length % 64 = 0) ∧
    (((usb ring0).ring (fld (usb ring0).gcp.spiCfg 0 6)).takes (List.replicate 64 (1 : BitVec 8)).length = true) :=
  ⟨by decide, by decide⟩

theorem meets_CommandTransports_4 :
    (((usb ringFull).ring (fld (usb ringFull).gcp.spiCfg 0 6)).takes (List.replicate 64 (1 : BitVec 8)).length = false) :=
  by decide

theorem meets_CommandTransports_5 :
    ((usb ring0).ring (fld (usb ring0).gcp.usbCfg 8 6) = ring0) ∧
    (bit ring0.cqCfg 0 = true) ∧
    (bit ring0.cqCfg 1 = true) ∧
    (ring0.unread ≠ 0) :=
  ⟨by decide, by decide, by decide, by decide⟩

theorem meets_CommandTransports_6 :
    ((usb ring0).ring (fld (usb ring0).gcp.spiCfg 8 6) = ring0) ∧
    (bit ring0.cqCfg 0 = true) ∧
    (bit ring0.cqCfg 1 = true) ∧
    (ring0.unread ≠ 0) :=
  ⟨by decide, by decide, by decide, by decide⟩

theorem meets_CommandTransports_7 :
    (((usb ringEmpty).ring (fld (usb ringEmpty).gcp.spiCfg 8 6)).unread = 0) :=
  by decide

theorem meets_CommandTransports_8 :
    (bit ((usb ringIdle).ring (fld (usb ringIdle).gcp.spiCfg 0 6)).sqCfg 0 = true) ∧
    (((usb ringIdle).ring (fld (usb ringIdle).gcp.spiCfg 0 6)).free ≠ 0) ∧
    (((usb ringIdle).ring (fld (usb ringIdle).gcp.spiCfg 8 6)).unread = 0) :=
  ⟨by decide, by decide, by decide⟩

def load0 (n : BitVec 3) : State := { t1 with glb.stage := 1, glb.mgrRunning := true, glb.bootMode := n }
def heldHome : State := { sm (strmB (blk false false)) 32 with dies := [(0, { bridge := .retrain, power := .on })] }
def blkJob : Job := { kind := .block 255 0, tenant := 1, cls := .realtime, elig := 0, st := .running 0 }
def busyBlk : State := { sm (strmB (blk false false)) 32 with jobs := [(77, blkJob)], cores := [(0, { phase := .running, job := some 77, wait := some { op := 0x63, word := 0 } })] }

theorem meets_CommandTransports_9 :
    let s : State := load0 3
    let bs : List (BitVec 8) := [1]
    (s.glb.stage = 1) ∧
    (s.glb.mgrRunning = true) ∧
    (s.glb.loaded + bs.length ≤ 4194304) ∧
    (s.glb.bootMode = 3) :=
  ⟨by decide, by decide, by decide, by decide⟩

theorem meets_CommandTransports_10 :
    let s : State := load0 4
    let bs : List (BitVec 8) := [1]
    (s.glb.stage = 1) ∧
    (s.glb.mgrRunning = true) ∧
    (s.glb.loaded + bs.length ≤ 4194304) ∧
    (s.glb.bootMode = 4) :=
  ⟨by decide, by decide, by decide, by decide⟩

theorem meets_CommandTransports_11 :
    let s : State := usb ring0
    let bs : List (BitVec 8) := List.replicate 64 (1 : BitVec 8)
    (s.glb.stage ≠ 1) ∧
    (bs.length % 64 = 0) ∧
    ((s.ring (fld s.gcp.usbCfg 0 6)).takes bs.length = true) :=
  ⟨by decide, by decide, by decide⟩

theorem meets_CommandTransports_12 :
    let s : State := usb ringFull
    let bs : List (BitVec 8) := List.replicate 64 (1 : BitVec 8)
    (s.glb.stage ≠ 1) ∧
    ((s.ring (fld s.gcp.usbCfg 0 6)).takes bs.length = false) :=
  ⟨by decide, by decide⟩

theorem meets_CommandTransports_13 :
    let s : State := usb ring0
    let bs : List (BitVec 8) := List.replicate 64 (1 : BitVec 8)
    (s.glb.stage ≠ 1) ∧
    (bs.length % 64 = 0) ∧
    ((s.ring (fld s.gcp.spiCfg 0 6)).takes bs.length = true) :=
  ⟨by decide, by decide, by decide⟩

theorem meets_CommandTransports_14 :
    let s : State := usb ringFull
    let bs : List (BitVec 8) := List.replicate 64 (1 : BitVec 8)
    (s.glb.stage ≠ 1) ∧
    ((s.ring (fld s.gcp.spiCfg 0 6)).takes bs.length = false) :=
  ⟨by decide, by decide⟩

theorem meets_CompareFirings_5 :
    let s : State := fired cmp1 none
    let core : Fin 64 := 0
    let late : ℕ := 1
    let sk : Bool := true
    ((s.core core.val).wakeMsg = some (late, sk)) ∧
    (s.dieHeld (core.val / 16) = false) :=
  ⟨by decide, by decide⟩

theorem meets_SfcTicks_3 :
    let s : State := running
    (s.tb.sfcRunning = true) ∧
    (s.tb.beaconPending = none) ∧
    (s.slk.rootCmd = none) :=
  ⟨by decide, by decide, by decide⟩

theorem meets_StreamEnds_3 :
    let s : State := smO
    let h : Fin 256 := 255
    let x : Stream := strmO
    let c : Cmd := openC
    (s.stream h.val = some x) ∧
    (x.openCmd = some c.id) ∧
    (x.started = false) ∧
    (x.first ≤ BitVec.toNat s.tb.sfc) ∧
    (x.begun (BitVec.toNat s.tb.sfc) = true) ∧
    (s.cmd c.id = some c) ∧
    (c.phase = Phase.running) ∧
    (s.mayStart c = true) :=
  by and_intros <;> decide

theorem meets_StreamEnds_4 :
    let s : State := smC
    let h : Fin 256 := 255
    let x : Stream := strmC
    let c : Cmd := closeC
    let n : ℕ := 16
    (s.stream h.val = some x) ∧
    (x.closeAt = some n) ∧
    (n + 2 * x.b ≤ BitVec.toNat s.tb.sfc) ∧
    (x.blocks = []) ∧
    (x.ending = none) ∧
    (x.migr = none) ∧
    (x.remote = none) ∧
    (x.closeCmd = some c.id) ∧
    (x.fbBlocks = 0) ∧
    (s.cmd c.id = some c) ∧
    (c.late = 0) :=
  by and_intros <;> decide

def sRem : Stream := { strmB (blk false false) with remote := some 9 }
def sRemL : Stream := { sRem with dieFb := true }
def bgOn (c : Cls) : State := { sm (strmB (blk false false)) 32 with jobs := [(77, some { progJob with cls := c, st := .running 0 })], cores := [(0, { phase := .running, job := some 77 })] }
def sDone : Stream := { strm with started := false, blocks := [blk false false] }
def blkR : Block := { blk true true with result := some [1] }
def blkJ : Block := { blk true false with job := some 5 }
def gst (b : Block) : Stream := { strmB b with guest := some { node := 9, handle := 3, xfer := 0, after := 0 } }
def dark : State := { running with dies := [] }
def only0 : State := { running with dies := [(0, { bridge := .up, power := .on, sfcCopy := 7 })] }
def strmLate : Stream := { strmO with collect := [] }
def strmR : Stream := { strmC with remote := some 9 }
def mv1 : Migr := { cmd := 2, node := none, dest := 1, switch_ := 16, density := 1, densityAfter := 1 }
def strmM : Stream := { strmC with migr := some mv1 }
def migC : Cmd := { closeC with id := 2, op := 0x32 }
def smM : State := { sm strmM 48 with cmds := [closeC, migC] }
def strmN : Stream := { strmC with closeCmd := none }

theorem meets_BlocksDelivered_5 :
    let s : State := busyBlk
    ∃ h : Fin 256, s.stream h.val = none :=
  by decide +kernel

theorem meets_FetchPoints_5 :
    let s : State := (sm (strmB (blk true true)) 47)
    let h : Fin 256 := 255
    let x : Stream := (strmB (blk true true))
    let b : Block := (blk true true)
    (s.stream h.val = some x) ∧
    (∃ l : List Block, x.blocks = b :: l) ∧
    (b.s + 2 * x.b ≤ BitVec.toNat s.tb.sfc + s.fetchLead) ∧
    (x.guest = none) ∧
    (BitVec.toNat s.tb.sfc < b.s + 2 * x.b) ∧
    (x.nodeOf b.s = none) ∧
    (b.done = true) ∧
    (x.lostFor b.s = false) ∧
    (s.dieUp (x.homeOf b.s / 16) = true) :=
  ⟨by decide +kernel, by exact ⟨_, rfl⟩, by decide +kernel, by decide +kernel, by decide +kernel, by decide +kernel, by decide +kernel, by decide +kernel, by decide +kernel⟩

theorem meets_FetchPoints_6 :
    let s : State := (sm (strmB (blk true true)) 47)
    let h : Fin 256 := 255
    let x : Stream := (strmB (blk true true))
    let b : Block := (blk true true)
    (s.stream h.val = some x) ∧
    (∃ l : List Block, x.blocks = b :: l) ∧
    (b.s + 2 * x.b ≤ BitVec.toNat s.tb.sfc + s.fetchLead) ∧
    (x.guest = none) ∧
    (BitVec.toNat s.tb.sfc < b.s + 2 * x.b) ∧
    (x.nodeOf b.s = none) ∧
    (b.done = true) ∧
    (x.lostFor b.s = false) ∧
    (s.dieUp (x.homeOf b.s / 16) = true) ∧
    (x.migr = none) :=
  ⟨by decide +kernel, by exact ⟨_, rfl⟩, by decide +kernel, by decide +kernel, by decide +kernel, by decide +kernel, by decide +kernel, by decide +kernel, by decide +kernel, by decide +kernel⟩

theorem meets_FetchPoints_7 :
    let s : State := (sm (strmB (blk true false)) 47)
    let h : Fin 256 := 255
    let x : Stream := (strmB (blk true false))
    let b : Block := (blk true false)
    (s.stream h.val = some x) ∧
    (∃ l : List Block, x.blocks = b :: l) ∧
    (b.s + 2 * x.b ≤ BitVec.toNat s.tb.sfc + s.fetchLead) ∧
    (x.guest = none) ∧
    (BitVec.toNat s.tb.sfc < b.s + 2 * x.b) ∧
    (x.nodeOf b.s = none) ∧
    (b.done = false ∨ x.lostFor b.s = true ∨ s.dieUp (x.homeOf b.s / 16) = false) ∧
    (b.job = none ∨ b.done = true) :=
  ⟨by decide +kernel, by exact ⟨_, rfl⟩, by decide +kernel, by decide +kernel, by decide +kernel, by decide +kernel, by decide +kernel, by decide +kernel⟩

theorem meets_FetchPoints_8 :
    let s : State := (sm (strmB (blk true false)) 47)
    let h : Fin 256 := 255
    let x : Stream := (strmB (blk true false))
    let b : Block := (blk true false)
    (s.stream h.val = some x) ∧
    (∃ l : List Block, x.blocks = b :: l) ∧
    (b.s + 2 * x.b ≤ BitVec.toNat s.tb.sfc + s.fetchLead) ∧
    (x.guest = none) ∧
    (BitVec.toNat s.tb.sfc < b.s + 2 * x.b) ∧
    (x.nodeOf b.s = none) ∧
    (b.done = false ∨ x.lostFor b.s = true ∨ s.dieUp (x.homeOf b.s / 16) = false) ∧
    (b.job = none ∨ b.done = true) ∧
    (x.migr = none) :=
  ⟨by decide +kernel, by exact ⟨_, rfl⟩, by decide +kernel, by decide +kernel, by decide +kernel, by decide +kernel, by decide +kernel, by decide +kernel, by decide +kernel⟩

theorem meets_StreamEnds_5 :
    let s : State := smC
    ∃ h : Fin 256, s.stream h.val = none :=
  by decide +kernel

theorem meets_UsbAudio_6 :
    let s : State := { usbOn with aud.usbSuspended := true }
    s.aud.usbOut = 0 ∨ s.aud.usbSuspended = true :=
  by decide +kernel

theorem meets_UsbAudio_7 :
    let s : State := { usbOn with aud.usbSuspended := true }
    s.aud.usbIn = 0 ∨ s.aud.usbSuspended = true :=
  by decide +kernel

theorem meets_BlocksDelivered_6 :
    let s : State := sm sRemL 32
    let h : Fin 256 := 255
    let x : Stream := sRemL
    let b : Block := blk false false
    let n : BitVec 6 := 9
    (s.stream h.val = some x) ∧
    (List.find? (fun b => !b.delivered) x.blocks = some b) ∧
    (x.started = true) ∧
    (x.guest ≠ none ∨ b.s + x.b ≤ BitVec.toNat s.tb.sfc) ∧
    (x.awaitsState b.s = false) ∧
    (x.nodeOf b.s = some n) ∧
    (x.lostFor b.s = true) :=
  ⟨by decide +kernel, by decide +kernel, by decide +kernel, by decide +kernel, by decide +kernel, by decide +kernel, by decide +kernel⟩

theorem meets_BlocksDelivered_7 :
    let s : State := sm sRem 32
    let h : Fin 256 := 255
    let x : Stream := sRem
    let b : Block := blk false false
    let n : BitVec 6 := 9
    (s.stream h.val = some x) ∧
    (List.find? (fun b => !b.delivered) x.blocks = some b) ∧
    (x.started = true) ∧
    (x.guest ≠ none ∨ b.s + x.b ≤ BitVec.toNat s.tb.sfc) ∧
    (x.awaitsState b.s = false) ∧
    (x.nodeOf b.s = some n) ∧
    (x.lostFor b.s = false) :=
  ⟨by decide +kernel, by decide +kernel, by decide +kernel, by decide +kernel, by decide +kernel, by decide +kernel, by decide +kernel⟩

theorem meets_BlocksDelivered_8 :
    let s : State := heldHome
    let h : Fin 256 := 255
    let x : Stream := strmB (blk false false)
    let b : Block := blk false false
    (s.stream h.val = some x) ∧
    (List.find? (fun b => !b.delivered) x.blocks = some b) ∧
    (x.started = true) ∧
    (x.guest ≠ none ∨ b.s + x.b ≤ BitVec.toNat s.tb.sfc) ∧
    (x.awaitsState b.s = false) ∧
    (x.nodeOf b.s = none) ∧
    (s.dieHeld (x.homeOf b.s / 16) = true) :=
  ⟨by decide +kernel, by decide +kernel, by decide +kernel, by decide +kernel, by decide +kernel, by decide +kernel, by decide +kernel⟩

theorem meets_BlocksDelivered_9 :
    let s : State := sm { strmB (blk false false) with dieFb := true } 32
    let h : Fin 256 := 255
    let x : Stream := { strmB (blk false false) with dieFb := true }
    let b : Block := blk false false
    (s.stream h.val = some x) ∧
    (List.find? (fun b => !b.delivered) x.blocks = some b) ∧
    (x.started = true) ∧
    (x.guest ≠ none ∨ b.s + x.b ≤ BitVec.toNat s.tb.sfc) ∧
    (x.awaitsState b.s = false) ∧
    (x.nodeOf b.s = none) ∧
    (s.dieHeld (x.homeOf b.s / 16) = false) ∧
    (x.lostFor b.s = true ∨ s.dieUp (x.homeOf b.s / 16) = false) :=
  ⟨by decide +kernel, by decide +kernel, by decide +kernel, by decide +kernel, by decide +kernel, by decide +kernel, by decide +kernel, by decide +kernel⟩

theorem meets_BlocksDelivered_10 :
    let s : State := sm (strmB (blk false false)) 32
    let h : Fin 256 := 255
    let x : Stream := strmB (blk false false)
    let b : Block := blk false false
    (s.stream h.val = some x) ∧
    (List.find? (fun b => !b.delivered) x.blocks = some b) ∧
    (x.started = true) ∧
    (x.guest ≠ none ∨ b.s + x.b ≤ BitVec.toNat s.tb.sfc) ∧
    (x.awaitsState b.s = false) ∧
    (x.nodeOf b.s = none) ∧
    (s.dieUp (x.homeOf b.s / 16) = true) ∧
    (x.lostFor b.s = false) ∧
    ((State.newJob { kind := JobKind.block h.val b.s, tenant := x.tenant, cls := Cls.realtime, elig := 0, image := x.image, entry := x.entry, args := [BitVec.ofNat 64 (x.bufsOf b.s).1, BitVec.ofNat 64 (x.bufsOf b.s).2, BitVec.ofNat 64 x.stateAddr, BitVec.ofNat 64 b.s, BitVec.ofNat 64 x.b, BitVec.ofNat 64 ((Option.map (fun x => x.handle) x.guest).getD h.val)] } (State.modStream h.val (fun x => { x with blocks := replaceFirst (fun k => k.s == b.s) (fun k => { k with job := some s.sch.nextJob }) x.blocks }) (State.modCore (x.homeOf b.s) (fun k => { k with lm := mwrite k.lm (x.bufsOf b.s).1 (if x.guest.isSome = true then b.data else blockBytes b.input) }) (State.modStream h.val (fun x => { x with blocks := replaceFirst (fun k => k.s == b.s) (fun k => { k with throttled := s.pmu.throttle, delivered := true }) x.blocks }) s)))).clsOn (x.homeOf b.s) = none) :=
  ⟨by decide +kernel, by decide +kernel, by decide +kernel, by decide +kernel, by decide +kernel, by decide +kernel, by decide +kernel, by decide +kernel, by decide +kernel⟩

theorem meets_BlocksDelivered_11 :
    let s : State := bgOn .background
    let h : Fin 256 := 255
    let x : Stream := strmB (blk false false)
    let b : Block := blk false false
    (s.stream h.val = some x) ∧
    (List.find? (fun b => !b.delivered) x.blocks = some b) ∧
    (x.started = true) ∧
    (x.guest ≠ none ∨ b.s + x.b ≤ BitVec.toNat s.tb.sfc) ∧
    (x.awaitsState b.s = false) ∧
    (x.nodeOf b.s = none) ∧
    (s.dieUp (x.homeOf b.s / 16) = true) ∧
    (x.lostFor b.s = false) ∧
    ((State.newJob { kind := JobKind.block h.val b.s, tenant := x.tenant, cls := Cls.realtime, elig := 0, image := x.image, entry := x.entry, args := [BitVec.ofNat 64 (x.bufsOf b.s).1, BitVec.ofNat 64 (x.bufsOf b.s).2, BitVec.ofNat 64 x.stateAddr, BitVec.ofNat 64 b.s, BitVec.ofNat 64 x.b, BitVec.ofNat 64 ((Option.map (fun x => x.handle) x.guest).getD h.val)] } (State.modStream h.val (fun x => { x with blocks := replaceFirst (fun k => k.s == b.s) (fun k => { k with job := some s.sch.nextJob }) x.blocks }) (State.modCore (x.homeOf b.s) (fun k => { k with lm := mwrite k.lm (x.bufsOf b.s).1 (if x.guest.isSome = true then b.data else blockBytes b.input) }) (State.modStream h.val (fun x => { x with blocks := replaceFirst (fun k => k.s == b.s) (fun k => { k with throttled := s.pmu.throttle, delivered := true }) x.blocks }) s)))).clsOn (x.homeOf b.s) = some Cls.background ∨ (State.newJob { kind := JobKind.block h.val b.s, tenant := x.tenant, cls := Cls.realtime, elig := 0, image := x.image, entry := x.entry, args := [BitVec.ofNat 64 (x.bufsOf b.s).1, BitVec.ofNat 64 (x.bufsOf b.s).2, BitVec.ofNat 64 x.stateAddr, BitVec.ofNat 64 b.s, BitVec.ofNat 64 x.b, BitVec.ofNat 64 ((Option.map (fun x => x.handle) x.guest).getD h.val)] } (State.modStream h.val (fun x => { x with blocks := replaceFirst (fun k => k.s == b.s) (fun k => { k with job := some s.sch.nextJob }) x.blocks }) (State.modCore (x.homeOf b.s) (fun k => { k with lm := mwrite k.lm (x.bufsOf b.s).1 (if x.guest.isSome = true then b.data else blockBytes b.input) }) (State.modStream h.val (fun x => { x with blocks := replaceFirst (fun k => k.s == b.s) (fun k => { k with throttled := s.pmu.throttle, delivered := true }) x.blocks }) s)))).clsOn (x.homeOf b.s) = some Cls.interactive) :=
  ⟨by decide +kernel, by decide +kernel, by decide +kernel, by decide +kernel, by decide +kernel, by decide +kernel, by decide +kernel, by decide +kernel, by decide +kernel⟩

theorem meets_BlocksDelivered_12 :
    let s : State := busyBlk
    let h : Fin 256 := 255
    let x : Stream := strmB (blk false false)
    let b : Block := blk false false
    (s.stream h.val = some x) ∧
    (List.find? (fun b => !b.delivered) x.blocks = some b) ∧
    (x.started = true) ∧
    (x.guest ≠ none ∨ b.s + x.b ≤ BitVec.toNat s.tb.sfc) ∧
    (x.awaitsState b.s = false) ∧
    (x.nodeOf b.s = none) ∧
    (s.dieUp (x.homeOf b.s / 16) = true) ∧
    (x.lostFor b.s = false) ∧
    ((State.newJob { kind := JobKind.block h.val b.s, tenant := x.tenant, cls := Cls.realtime, elig := 0, image := x.image, entry := x.entry, args := [BitVec.ofNat 64 (x.bufsOf b.s).1, BitVec.ofNat 64 (x.bufsOf b.s).2, BitVec.ofNat 64 x.stateAddr, BitVec.ofNat 64 b.s, BitVec.ofNat 64 x.b, BitVec.ofNat 64 ((Option.map (fun x => x.handle) x.guest).getD h.val)] } (State.modStream h.val (fun x => { x with blocks := replaceFirst (fun k => k.s == b.s) (fun k => { k with job := some s.sch.nextJob }) x.blocks }) (State.modCore (x.homeOf b.s) (fun k => { k with lm := mwrite k.lm (x.bufsOf b.s).1 (if x.guest.isSome = true then b.data else blockBytes b.input) }) (State.modStream h.val (fun x => { x with blocks := replaceFirst (fun k => k.s == b.s) (fun k => { k with throttled := s.pmu.throttle, delivered := true }) x.blocks }) s)))).clsOn (x.homeOf b.s) = some Cls.realtime) ∧
    ((State.coreEvent (x.homeOf b.s) 2 (State.newJob { kind := JobKind.block h.val b.s, tenant := x.tenant, cls := Cls.realtime, elig := 0, image := x.image, entry := x.entry, args := [BitVec.ofNat 64 (x.bufsOf b.s).1, BitVec.ofNat 64 (x.bufsOf b.s).2, BitVec.ofNat 64 x.stateAddr, BitVec.ofNat 64 b.s, BitVec.ofNat 64 x.b, BitVec.ofNat 64 ((Option.map (fun x => x.handle) x.guest).getD h.val)] } (State.modStream h.val (fun x => { x with blocks := replaceFirst (fun k => k.s == b.s) (fun k => { k with job := some s.sch.nextJob }) x.blocks }) (State.modCore (x.homeOf b.s) (fun k => { k with lm := mwrite k.lm (x.bufsOf b.s).1 (if x.guest.isSome = true then b.data else blockBytes b.input) }) (State.modStream h.val (fun x => { x with blocks := replaceFirst (fun k => k.s == b.s) (fun k => { k with throttled := s.pmu.throttle, delivered := true }) x.blocks }) s))))).clsOn (x.homeOf b.s) ≠ some Cls.background) ∧
    ((State.coreEvent (x.homeOf b.s) 2 (State.newJob { kind := JobKind.block h.val b.s, tenant := x.tenant, cls := Cls.realtime, elig := 0, image := x.image, entry := x.entry, args := [BitVec.ofNat 64 (x.bufsOf b.s).1, BitVec.ofNat 64 (x.bufsOf b.s).2, BitVec.ofNat 64 x.stateAddr, BitVec.ofNat 64 b.s, BitVec.ofNat 64 x.b, BitVec.ofNat 64 ((Option.map (fun x => x.handle) x.guest).getD h.val)] } (State.modStream h.val (fun x => { x with blocks := replaceFirst (fun k => k.s == b.s) (fun k => { k with job := some s.sch.nextJob }) x.blocks }) (State.modCore (x.homeOf b.s) (fun k => { k with lm := mwrite k.lm (x.bufsOf b.s).1 (if x.guest.isSome = true then b.data else blockBytes b.input) }) (State.modStream h.val (fun x => { x with blocks := replaceFirst (fun k => k.s == b.s) (fun k => { k with throttled := s.pmu.throttle, delivered := true }) x.blocks }) s))))).clsOn (x.homeOf b.s) ≠ some Cls.interactive) :=
  ⟨by decide +kernel, by decide +kernel, by decide +kernel, by decide +kernel, by decide +kernel, by decide +kernel, by decide +kernel, by decide +kernel, by decide +kernel, by decide +kernel, by decide +kernel⟩

theorem meets_BlocksDelivered_13 :
    let s : State := sm strm 32
    let h : Fin 256 := 255
    let x : Stream := strm
    (s.stream h.val = some x) ∧
    (List.find? (fun b => !b.delivered) x.blocks = none) :=
  ⟨by decide +kernel, by decide +kernel⟩

theorem meets_BlocksDelivered_14 :
    let s : State := sm (strmB (blk false false)) 31
    let h : Fin 256 := 255
    let x : Stream := strmB (blk false false)
    let b : Block := blk false false
    (s.stream h.val = some x) ∧
    (List.find? (fun b => !b.delivered) x.blocks = some b) ∧
    (x.started = false ∨ x.guest = none ∧ BitVec.toNat s.tb.sfc < b.s + x.b ∨ x.awaitsState b.s = true) :=
  ⟨by decide +kernel, by decide +kernel, by decide +kernel⟩

theorem meets_FetchPoints_9 :
    let s : State := sm { strmB blkR with remote := some 9 } 47
    let h : Fin 256 := 255
    let x : Stream := { strmB blkR with remote := some 9 }
    let b : Block := blkR
    let l : List Block := []
    let n : BitVec 6 := 9
    let r : List Byte := [1]
    (s.stream h.val = some x) ∧
    (x.blocks = b :: l) ∧
    (b.s + 2 * x.b ≤ BitVec.toNat s.tb.sfc + s.fetchLead) ∧
    (x.guest = none) ∧
    (BitVec.toNat s.tb.sfc < b.s + 2 * x.b) ∧
    (x.nodeOf b.s = some n) ∧
    (x.lostFor b.s = false) ∧
    (b.result = some r) :=
  ⟨by decide +kernel, by decide +kernel, by decide +kernel, by decide +kernel, by decide +kernel, by decide +kernel, by decide +kernel, by decide +kernel⟩

theorem meets_FetchPoints_10 :
    let s : State := sm { strmB (blk true false) with remote := some 9 } 47
    let h : Fin 256 := 255
    let x : Stream := { strmB (blk true false) with remote := some 9 }
    let b : Block := blk true false
    let l : List Block := []
    let n : BitVec 6 := 9
    (s.stream h.val = some x) ∧
    (x.blocks = b :: l) ∧
    (b.s + 2 * x.b ≤ BitVec.toNat s.tb.sfc + s.fetchLead) ∧
    (x.guest = none) ∧
    (BitVec.toNat s.tb.sfc < b.s + 2 * x.b) ∧
    (x.nodeOf b.s = some n) ∧
    (x.lostFor b.s = true ∨ b.result = none) ∧
    (b.job = none) :=
  ⟨by decide +kernel, by decide +kernel, by decide +kernel, by decide +kernel, by decide +kernel, by decide +kernel, by decide +kernel, by decide +kernel⟩

theorem meets_FetchPoints_11 :
    let s : State := sm (strmB blkJ) 47
    let h : Fin 256 := 255
    let x : Stream := strmB blkJ
    let b : Block := blkJ
    let l : List Block := []
    let j : ℕ := 5
    (s.stream h.val = some x) ∧
    (x.blocks = b :: l) ∧
    (b.s + 2 * x.b ≤ BitVec.toNat s.tb.sfc + s.fetchLead) ∧
    (x.guest = none) ∧
    (BitVec.toNat s.tb.sfc < b.s + 2 * x.b) ∧
    (x.nodeOf b.s = none) ∧
    (b.done = false ∨ x.lostFor b.s = true ∨ s.dieUp (x.homeOf b.s / 16) = false) ∧
    (b.job = some j) ∧
    (b.done = false) :=
  ⟨by decide +kernel, by decide +kernel, by decide +kernel, by decide +kernel, by decide +kernel, by decide +kernel, by decide +kernel, by decide +kernel, by decide +kernel⟩

theorem meets_FetchPoints_12 :
    let s : State := sm (strmB (blk true true)) 48
    let h : Fin 256 := 255
    let x : Stream := strmB (blk true true)
    let b : Block := blk true true
    let l : List Block := []
    (s.stream h.val = some x) ∧
    (x.blocks = b :: l) ∧
    (b.s + 2 * x.b ≤ BitVec.toNat s.tb.sfc + s.fetchLead) ∧
    (x.guest = none) ∧
    (b.s + 2 * x.b ≤ BitVec.toNat s.tb.sfc) ∧
    (b.job = none ∨ b.done = true) :=
  ⟨by decide +kernel, by decide +kernel, by decide +kernel, by decide +kernel, by decide +kernel, by decide +kernel⟩

theorem meets_FetchPoints_13 :
    let s : State := sm (strmB blkJ) 48
    let h : Fin 256 := 255
    let x : Stream := strmB blkJ
    let b : Block := blkJ
    let l : List Block := []
    let j : ℕ := 5
    (s.stream h.val = some x) ∧
    (x.blocks = b :: l) ∧
    (b.s + 2 * x.b ≤ BitVec.toNat s.tb.sfc + s.fetchLead) ∧
    (x.guest = none) ∧
    (b.s + 2 * x.b ≤ BitVec.toNat s.tb.sfc) ∧
    (b.job = some j) ∧
    (b.done = false) :=
  ⟨by decide +kernel, by decide +kernel, by decide +kernel, by decide +kernel, by decide +kernel, by decide +kernel, by decide +kernel⟩

theorem meets_FetchPoints_14 :
    let s : State := sm (gst (blk true true)) 48
    let h : Fin 256 := 255
    let x : Stream := gst (blk true true)
    let b : Block := blk true true
    let l : List Block := []
    (s.stream h.val = some x) ∧
    (x.blocks = b :: l) ∧
    (b.s + 2 * x.b ≤ BitVec.toNat s.tb.sfc + s.fetchLead) ∧
    (x.guest ≠ none) ∧
    (b.job = none ∨ b.done = true) :=
  ⟨by decide +kernel, by decide +kernel, by decide +kernel, by decide +kernel, by decide +kernel⟩

theorem meets_FetchPoints_15 :
    let s : State := sm (gst blkJ) 48
    let h : Fin 256 := 255
    let x : Stream := gst blkJ
    let b : Block := blkJ
    let l : List Block := []
    let j : ℕ := 5
    (s.stream h.val = some x) ∧
    (x.blocks = b :: l) ∧
    (b.s + 2 * x.b ≤ BitVec.toNat s.tb.sfc + s.fetchLead) ∧
    (x.guest ≠ none) ∧
    (b.job = some j) ∧
    (b.done = false) :=
  ⟨by decide +kernel, by decide +kernel, by decide +kernel, by decide +kernel, by decide +kernel, by decide +kernel⟩

theorem meets_FetchPoints_16 :
    let s : State := sm (strmB (blk true true)) 46
    let h : Fin 256 := 255
    let x : Stream := strmB (blk true true)
    let b : Block := blk true true
    let l : List Block := []
    (s.stream h.val = some x) ∧
    (x.blocks = b :: l) ∧
    (BitVec.toNat s.tb.sfc + s.fetchLead < b.s + 2 * x.b) :=
  ⟨by decide +kernel, by decide +kernel, by decide +kernel⟩

theorem meets_FetchPoints_17 :
    let s : State := sm strm 46
    let h : Fin 256 := 255
    s.stream h.val = none ∨ ∃ x, s.stream h.val = some x ∧ x.blocks = [] :=
  by decide +kernel

theorem meets_SfcTicks_4 :
    let s : State := only0
    (s.tb.sfcRunning = true) ∧
    (s.tb.beaconPending = none) ∧
    (s.dieUp 0 = true) ∧
    (s.dieUp 1 = false) ∧
    (s.dieUp 2 = false) ∧
    (s.dieUp 3 = false) ∧
    ((s.die 0).checkVal = none) :=
  ⟨by decide +kernel, by decide +kernel, by decide +kernel, by decide +kernel, by decide +kernel, by decide +kernel, by decide +kernel⟩

theorem meets_SfcTicks_5 :
    let s : State := dark
    (s.tb.sfcRunning = true) ∧
    (s.tb.beaconPending = none) ∧
    (∀ d < 4, s.dieUp d = false) :=
  ⟨by decide +kernel, by decide +kernel, by decide +kernel⟩

theorem meets_SfcTicks_6 :
    let s : State := t1
    s.tb.sfcRunning = false ∨ s.tb.beaconPending ≠ none :=
  by decide +kernel

theorem meets_StreamEnds_6 :
    let s : State := hold openC (sm strmLate 48)
    let h : Fin 256 := 255
    let x : Stream := strmLate
    let c : Cmd := openC
    (s.stream h.val = some x) ∧
    (x.openCmd = some c.id) ∧
    (x.started = false) ∧
    (x.first ≤ BitVec.toNat s.tb.sfc) ∧
    (s.cmd c.id = some c) ∧
    (x.begun (BitVec.toNat s.tb.sfc) = false ∨ s.mayStart c = false) :=
  ⟨by decide +kernel, by decide +kernel, by decide +kernel, by decide +kernel, by decide +kernel, by decide +kernel⟩

theorem meets_StreamEnds_7 :
    let s : State := sm strm 48
    let h : Fin 256 := 255
    let x : Stream := strm
    (s.stream h.val = some x) ∧
    (x.openCmd = none ∨ x.started = true ∨ BitVec.toNat s.tb.sfc < x.first) :=
  ⟨by decide +kernel, by decide +kernel⟩

theorem meets_StreamEnds_8 :
    let s : State := smC
    let h : Fin 256 := 255
    let x : Stream := strmC
    let n : ℕ := 16
    let c : Cmd := closeC
    (s.stream h.val = some x) ∧
    (x.closeAt = some n) ∧
    (n + 2 * x.b ≤ BitVec.toNat s.tb.sfc) ∧
    (x.blocks = []) ∧
    (x.migr = none) ∧
    (x.closeCmd = some c.id) ∧
    (s.cmd c.id = some c) ∧
    (x.remote = none) :=
  ⟨by decide +kernel, by decide +kernel, by decide +kernel, by decide +kernel, by decide +kernel, by decide +kernel, by decide +kernel, by decide +kernel⟩

theorem meets_StreamEnds_9 :
    let s : State := hold closeC (sm strmR 48)
    let h : Fin 256 := 255
    let x : Stream := strmR
    let n : ℕ := 16
    let c : Cmd := closeC
    let k : BitVec 6 := 9
    (s.stream h.val = some x) ∧
    (x.closeAt = some n) ∧
    (n + 2 * x.b ≤ BitVec.toNat s.tb.sfc) ∧
    (x.blocks = []) ∧
    (x.migr = none) ∧
    (x.closeCmd = some c.id) ∧
    (s.cmd c.id = some c) ∧
    (x.remote = some k) ∧
    ((State.tellStream k x.tenant 6 h.val 0 [] { s with streams := tset none s.streams h.val none, aud := { s.aud with fades := if x.ending.getD 0 < 64 then s.aud.fades ++ [{ route := List.take x.chOut x.outRoute, words := if x.ending = none then x.lastOut else x.fadeFrom, idx := x.ending.getD 0 }] else s.aud.fades } }).cmd c.id = some c) :=
  ⟨by decide +kernel, by decide +kernel, by decide +kernel, by decide +kernel, by decide +kernel, by decide +kernel, by decide +kernel, by decide +kernel, by decide +kernel⟩

theorem meets_StreamEnds_10 :
    let s : State := smM
    let h : Fin 256 := 255
    let x : Stream := strmM
    let n : ℕ := 16
    let c : Cmd := closeC
    let m : Cmd := migC
    let mv : Migr := mv1
    (s.stream h.val = some x) ∧
    (x.closeAt = some n) ∧
    (n + 2 * x.b ≤ BitVec.toNat s.tb.sfc) ∧
    (x.blocks = []) ∧
    (x.remote = none) ∧
    (x.migr = some mv) ∧
    (mv.node = none) ∧
    (mv.cmd = m.id) ∧
    (s.cmd m.id = some m) ∧
    (x.closeCmd = some c.id) ∧
    ((State.finish m (x.report m) { s with streams := tset none s.streams h.val none, aud := { s.aud with fades := if x.ending.getD 0 < 64 then s.aud.fades ++ [{ route := List.take x.chOut x.outRoute, words := if x.ending = none then x.lastOut else x.fadeFrom, idx := x.ending.getD 0 }] else s.aud.fades } }).cmd c.id = some c) :=
  ⟨by decide +kernel, by decide +kernel, by decide +kernel, by decide +kernel, by decide +kernel, by decide +kernel, by decide +kernel, by decide +kernel, by decide +kernel, by decide +kernel, by decide +kernel⟩

theorem meets_StreamEnds_11 :
    let s : State := sm strmN 48
    let h : Fin 256 := 255
    let x : Stream := strmN
    let n : ℕ := 16
    (s.stream h.val = some x) ∧
    (x.closeAt = some n) ∧
    (n + 2 * x.b ≤ BitVec.toNat s.tb.sfc) ∧
    (x.blocks = []) ∧
    (x.migr = none) ∧
    (x.closeCmd = none) ∧
    (x.remote = none) :=
  ⟨by decide +kernel, by decide +kernel, by decide +kernel, by decide +kernel, by decide +kernel, by decide +kernel, by decide +kernel⟩

theorem meets_StreamEnds_12 :
    let s : State := sm strmN 47
    let h : Fin 256 := 255
    let x : Stream := strmN
    (s.stream h.val = some x) ∧
    (x.closeAt = none ∨ ∃ n, x.closeAt = some n ∧ (BitVec.toNat s.tb.sfc < n + 2 * x.b ∨ x.blocks ≠ [])) :=
  ⟨by decide +kernel, by decide +kernel⟩

theorem meets_StreamEnds_13 :
    let x : Stream := strmC
    let c : Cmd := closeC
    (x.fbBlocks = 0) ∧
    (c.late = 0) :=
  ⟨by decide +kernel, by decide +kernel⟩

theorem meets_StreamEnds_14 :
    let x : Stream := strmC
    let c : Cmd := { closeC with late := 1 }
    (x.fbBlocks = 0) ∧
    (c.late ≠ 0) :=
  ⟨by decide +kernel, by decide +kernel⟩

theorem meets_StreamEnds_15 :
    let x : Stream := { strmC with fbBlocks := 1 }
    x.fbBlocks ≠ 0 :=
  by decide +kernel

end Part03

namespace Part04

def wakeAll (s : State) : State := { s with pmu.wakeEn := 0xFFF }
def doze : Cmd := rd 0x70 8 [(0, 1, 1)]
def dozeBad : Cmd := rd 0x70 7 [(0, 1, 1)]
def dozeOk : State := hold doze (wakeAll t1)
def entering (d : DevSt) : State := { t1 with pmu.entry := some d, mem := [(5, 1)], tb.sfcRunning := true }
def enteringPend : State := { entering .torpor with pmu.wakeEn := 0x80, pmu.wakePend := 0x80 }
def dozing : State := { t1 with pmu.dev := .doze, pmu.wakeSource := some 11, pmu.wakeEn := 0x800 }
def dieOn : State := { t1 with dies := [(3, { power := .on, bridge := .up, regulator := true })], cores := [(63, { pc := 5 })] }
def dieWaking : State := { t1 with dies := [(3, { power := .waking })] }
def offOnce : State := { t1 with obs.offValid := true }
def autoDie : State := { t1 with pmu.autowake := 0xF }
def stall : Stalled := { side := .mgr, off := 0xD00000, w := none, block := .die 3 }
def stalledS : State := { offOnce with pmu.stalled := [stall] }

theorem meets_PowerCommand_1 :
    (Ready dozeOk doze 112) ∧
    (doze.params = [(1 : Byte), (0 : Byte), (0 : Byte), (0 : Byte), (0 : Byte), (0 : Byte), (0 : Byte), (0 : Byte)]) ∧
    (dozeOk.wakeable DevSt.doze = true) :=
  ⟨readyOf (by decide), by decide, by decide⟩

theorem meets_PowerCommand_2 :
    (Ready (hold doze t1) doze 112) ∧
    (doze.params = [(1 : Byte), (0 : Byte), (0 : Byte), (0 : Byte), (0 : Byte), (0 : Byte), (0 : Byte), (0 : Byte)]) ∧
    ((hold doze t1).wakeable DevSt.doze = false) :=
  ⟨readyOf (by decide), by decide, by decide⟩

theorem meets_PowerCommand_3 :
    (Ready (hold dozeBad t1) dozeBad 112) ∧
    (dozeBad.params.length ≠ 8) :=
  ⟨readyOf (by decide), by decide⟩

theorem meets_PowerEntries_1 :
    (enteringPend.pmu.entry = some DevSt.torpor) ∧
    (enteringPend.pendingFor DevSt.torpor = some 7) :=
  ⟨by decide, by decide⟩

theorem meets_PowerEntries_2 :
    ((entering DevSt.doze).pmu.entry = some DevSt.doze) ∧
    ((entering DevSt.doze).pendingFor DevSt.doze = none) :=
  ⟨by decide, by decide⟩

theorem meets_PowerEntries_3 :
    ((entering DevSt.off).pmu.entry = some DevSt.off) ∧
    ((entering DevSt.off).pendingFor DevSt.off = none) :=
  ⟨by decide, by decide⟩

theorem meets_PowerEntries_4 :
    ((entering DevSt.hibernate).pmu.entry = some DevSt.hibernate) ∧
    ((entering DevSt.hibernate).pendingFor DevSt.hibernate = none) ∧
    ((forN 4 (fun d s => State.drainDie d s) (entering DevSt.hibernate)).pendingFor DevSt.hibernate = none) :=
  ⟨by decide, by decide, by decide⟩

theorem meets_Wakes_1 :
    (dozing.pmu.wakeSource = some 11) ∧
    (dozing.pmu.dev = DevSt.doze) :=
  ⟨by decide, by decide⟩

theorem meets_Wakes_4 :
    (t1.pmu.dev = DevSt.run) :=
  by decide

theorem meets_Supplies_2 :
    (t1.monitored 3 = false) :=
  by decide

theorem meets_Supplies_3 :
    ({ t1 with pmu.throttle := true : State }.key.walk = none) :=
  by decide

theorem meets_Supplies_4 :
    (3 < 4) ∧
    (dieOn.monitored 3 = true) :=
  ⟨by decide, by decide⟩

theorem meets_Supplies_5 :
    (t1.monitored 5 = true) :=
  by decide

theorem meets_Supplies_6 :
    (t1.monitored 4 = true) :=
  by decide

theorem meets_Regulators_1 :
    ((dieWaking.die 3).power = DieSt.waking) ∧
    ((dieWaking.die 3).regulator = false) :=
  ⟨by decide, by decide⟩

theorem meets_Regulators_2 :
    ((dieWaking.die 3).power = DieSt.waking) ∧
    ((dieWaking.die 3).regulator = false) :=
  ⟨by decide, by decide⟩

theorem meets_Temperatures_1 :
    ((hottest [(380 : ℤ), (379 : ℤ)]).1 ≤ (4 : ℤ) * Int.ofNat dieOn.pmu.warnC.toNat) ∧
    ((hottest [(380 : ℤ), (379 : ℤ)]).1 ≤ (460 : ℤ)) :=
  ⟨by decide, by decide⟩

theorem meets_Temperatures_2 :
    ((4 : ℤ) * Int.ofNat dieOn.pmu.warnC.toNat < (hottest [(381 : ℤ), (460 : ℤ)]).1) ∧
    ((hottest [(381 : ℤ), (460 : ℤ)]).1 ≤ (460 : ℤ)) :=
  ⟨by decide, by decide⟩

theorem meets_PowerManager_3 :
    (fld (15360 : BitVec 32) 8 6 ≤ 60) :=
  by decide

theorem meets_PowerManager_5 :
    (60 < fld (15616 : BitVec 32) 8 6) :=
  by decide

theorem meets_OffBlocks_2 :
    (autoDie.pmu.stalled = []) ∧
    (listed (BitVec.toNat (13631488 : BitVec 25)) = true) ∧
    (autoDie.offAt (BitVec.toNat (13631488 : BitVec 25)) = true) ∧
    (wakeBlockOf (BitVec.toNat (13631488 : BitVec 25)) = some (WakeBlock.die (3 : Fin 4))) ∧
    (bit autoDie.pmu.autowake 3 = true) ∧
    ((autoDie.die 3).tripped = false) ∧
    ((autoDie.die 3).bridge = Bridge.off) ∧
    ((autoDie.die 3).power = DieSt.off) :=
  by and_intros <;> decide

theorem meets_OffBlocks_3 :
    (stalledS.pmu.stalled = [stall]) ∧
    (stall.w = none) ∧
    (stalledS.obs.offValid = true) :=
  ⟨by decide, by decide, by decide⟩

theorem meets_OffBlocks_4 :
    (t1.pmu.stalled = []) :=
  by decide

def dieOff : State := { autoDie with dies := [(3, { stateOff := true })], glb.pkgWord := 0xF }

theorem meets_Temperatures_4 :
    let s : State := dieOn
    let l : List ℤ := [100, 380, -20]
    (s.pmu.dev ≠ DevSt.off) ∧
    (s.pmu.dev ≠ DevSt.hibernate) ∧
    ((hottest l).1 ≤ 4 * Int.ofNat s.pmu.warnC.toNat) ∧
    ((hottest l).1 ≤ 460) :=
  ⟨by decide, by decide, by decide, by decide⟩

theorem meets_Temperatures_5 :
    let s : State := dieOn
    let l : List ℤ := [381]
    (s.pmu.dev ≠ DevSt.off) ∧
    (s.pmu.dev ≠ DevSt.hibernate) ∧
    (4 * Int.ofNat s.pmu.warnC.toNat < (hottest l).1) ∧
    ((hottest l).1 ≤ 460) :=
  ⟨by decide, by decide, by decide, by decide⟩

theorem meets_OffBlocks_5 :
    let s : State := dieOff
    let off : BitVec 25 := 0xD00000
    let d : Fin 4 := 3
    (listed off.toNat = true) ∧
    (s.offAt off.toNat = true) ∧
    (wakeBlockOf off.toNat = some (WakeBlock.die d)) ∧
    (bit s.pmu.autowake d.val = true) ∧
    ((s.die d.val).tripped = false) ∧
    ((s.die d.val).bridge = Bridge.off) ∧
    ((s.die d.val).power = DieSt.off) ∧
    ((s.die d.val).stateOff = true) ∧
    (bit s.glb.pkgWord d.val = true) :=
  by and_intros <;> decide

theorem meets_OffBlocks_6 :
    let s : State := stalledS
    let a : Stalled := stall
    let l : List Stalled := []
    (s.pmu.stalled = a :: l) ∧
    (s.offAt a.off.toNat = true) ∧
    (a.w = none) ∧
    (s.obs.offValid = true) :=
  ⟨by decide, by decide, by decide, by decide⟩

theorem meets_OffBlocks_7 :
    let s : State := t1
    s.pmu.stalled = [] :=
  by decide

theorem meets_PowerManager_6 :
    let s : State := t1
    (s.pmu.dev ≠ DevSt.off) ∧
    (s.pmu.dev ≠ DevSt.hibernate) :=
  ⟨by decide, by decide⟩

theorem meets_Supplies_7 :
    let s : State := t1
    let n : Fin 11 := 10
    (s.monitored n.val = true) ∧
    (s.streams = []) :=
  ⟨by decide, by decide⟩

theorem meets_Supplies_8 :
    let s : State := t1
    let n : Fin 11 := 10
    (n.val = 9 ∨ n.val = 10) ∧
    (s.monitored n.val = true) :=
  ⟨by decide, by decide⟩

theorem meets_Temperatures_6 :
    let s : State := dieOn
    let d : Fin 4 := 3
    let l : List ℤ := [460, 461]
    (s.pmu.dev ≠ DevSt.off) ∧
    (s.pmu.dev ≠ DevSt.hibernate) ∧
    (460 < (hottest l).1) ∧
    ((s.die d.val).power ≠ DieSt.off) :=
  ⟨by decide, by decide, by decide, by decide⟩

def pkg (c : Cmd) : State := hold c (wakeAll { dieOn with glb.pkgWord := 0xF })
def ps (fs : List (Nat × Nat × Nat)) : Cmd := rd 0x70 8 fs
def noWakeDoze : State := hold doze t1
def stallW : Stalled := { stall with w := some 5 }
def upStall (x : Stalled) : State := { dieOn with pmu.stalled := [x] }
def autoBack : State := { t1 with dies := [(3, { power := .on, bridge := .up, autoPrev := some .off })] }
def hibS : State := { t1 with pmu.dev := .hibernate }
def resvS : Stream := { tenant := 1, image := 0, entry := 0, bLog2 := 4, chIn := 1, chOut := 1, fp32 := false, holdFade := false, reserve := 0, inRoute := [0], outRoute := [0], stateAddr := 0, core := 63, density := 100, fmax := 30 }
def resv : State := { dieOn with streams := [(7, some resvS)] }
def wok (t : DevSt) : State := { t1 with pmu.dev := t, pmu.wakeSource := some 11, pmu.wakeEn := 0x800 }
def ent (t : DevSt) : State := wakeAll (entering t)
def oneJob2 : State := { t1 with dies := [(3, { power := .on, bridge := .up, regulator := true, clk := 30 })], jobs := [(5, some { progJob with st := .running 63 })], cores := [(63, { phase := .running, job := some 5 })] }

theorem meets_OffBlocks_8 :
    let s : State := dieOff
    let off : BitVec 25 := 0xD00000
    listed off.toNat = false ∨ s.offAt off.toNat = false ∨ s.wakes off.toNat ≠ none :=
  by decide +kernel

theorem meets_OffBlocks_9 :
    let s : State := t1
    let off : BitVec 25 := 0xD00000
    listed off.toNat = false ∨ s.offAt off.toNat = false ∨ s.wakes off.toNat = none :=
  by decide +kernel

theorem meets_OffBlocks_10 :
    let s : State := t1
    ∃ d : Fin 4, (s.die d.val).autoPrev = none ∨ (s.die d.val).power ≠ DieSt.on :=
  by decide +kernel

theorem meets_PowerManager_7 :
    let s : State := t1
    let mw : ℕ := 28000
    (s.pmu.dev ≠ DevSt.off) ∧
    (s.pmu.dev ≠ DevSt.hibernate) ∧
    (mw ≤ BitVec.toNat s.pmu.pkgLimit) :=
  ⟨by decide +kernel, by decide +kernel, by decide +kernel⟩

theorem meets_Supplies_9 :
    let s : State := t1
    ∃ n : Fin 11, s.monitored n.val = true :=
  by decide +kernel

theorem meets_OffBlocks_11 :
    let s : State := { dieOff with pmu.autowake := 0 }
    let off : BitVec 25 := 0xD00000
    (s.offAt off.toNat = true) ∧
    (listed off.toNat = true) ∧
    (s.wakes off.toNat = none) ∧
    (s.obs.offValid = false) :=
  ⟨by decide +kernel, by decide +kernel, by decide +kernel, by decide +kernel⟩

theorem meets_OffBlocks_12 :
    let s : State := { t1 with pmu.autowake := 0xFFF }
    let off : BitVec 25 := 0xB0004
    let b : WakeBlock := .cam
    (listed off.toNat = true) ∧
    (s.offAt off.toNat = true) ∧
    (s.wakes off.toNat = some b) ∧
    (∀ (d : Fin 4), b ≠ WakeBlock.die d) :=
  ⟨by decide +kernel, by decide +kernel, by decide +kernel, by decide +kernel⟩

theorem meets_OffBlocks_13 :
    let s : State := upStall stall
    let a : Stalled := stall
    let l : List Stalled := []
    (s.pmu.stalled = a :: l) ∧
    (s.offAt a.off.toNat = false) ∧
    (a.w = none) :=
  ⟨by decide +kernel, by decide +kernel, by decide +kernel⟩

theorem meets_OffBlocks_14 :
    let s : State := upStall stallW
    let a : Stalled := stallW
    let l : List Stalled := []
    let v : W32 := 5
    (s.pmu.stalled = a :: l) ∧
    (s.offAt a.off.toNat = false) ∧
    (a.w = some v) :=
  ⟨by decide +kernel, by decide +kernel, by decide +kernel⟩

theorem meets_OffBlocks_15 :
    let b : WakeBlock := .itk
    ∀ (d : Fin 4), b ≠ WakeBlock.die d :=
  by decide +kernel

theorem meets_OffBlocks_16 :
    let s : State := autoBack
    let d : Fin 4 := 3
    let p : DieSt := .off
    ((s.die d.val).autoPrev = some p) ∧
    ((s.die d.val).power = DieSt.on) :=
  ⟨by decide +kernel, by decide +kernel⟩

theorem meets_PowerCommand_4 :
    let s : State := pkg (ps [])
    let c : Cmd := ps []
    let n : BitVec 8 := 0
    let t : DevSt := .run
    (Ready s c 112) ∧
    (c.params = [n, 0, 0, 0, 0, 0, 0, 0]) ∧
    (devOf n.toNat = some t) ∧
    (n.toNat ≤ 4) ∧
    ((begun s c).powerRefusal (going c) = none) ∧
    (t = DevSt.run) :=
  ⟨readyOf (by decide +kernel), by decide +kernel, by decide +kernel, by decide +kernel, by decide +kernel, by decide +kernel⟩

theorem meets_PowerCommand_5 :
    let s : State := dozeOk
    let c : Cmd := doze
    let n : BitVec 8 := 1
    let t : DevSt := .doze
    (Ready s c 112) ∧
    (c.params = [n, 0, 0, 0, 0, 0, 0, 0]) ∧
    (devOf n.toNat = some t) ∧
    (n.toNat ≤ 4) ∧
    ((begun s c).powerRefusal (going c) = none) ∧
    (t ≠ DevSt.run) ∧
    (t ≠ DevSt.hibernate) :=
  ⟨readyOf (by decide +kernel), by decide +kernel, by decide +kernel, by decide +kernel, by decide +kernel, by decide +kernel, by decide +kernel⟩

theorem meets_PowerCommand_6 :
    let s : State := hold (ps [(0, 1, 3)]) (wakeAll t1)
    let c : Cmd := ps [(0, 1, 3)]
    let n : BitVec 8 := 3
    let t : DevSt := .hibernate
    (Ready s c 112) ∧
    (c.params = [n, 0, 0, 0, 0, 0, 0, 0]) ∧
    (devOf n.toNat = some t) ∧
    (n.toNat ≤ 4) ∧
    ((begun s c).powerRefusal (going c) = none) ∧
    (t = DevSt.hibernate) :=
  ⟨readyOf (by decide +kernel), by decide +kernel, by decide +kernel, by decide +kernel, by decide +kernel, by decide +kernel⟩

theorem meets_PowerCommand_7 :
    let s : State := pkg (ps [(0, 1, 255), (1, 1, 8)])
    let c : Cmd := ps [(0, 1, 255), (1, 1, 8)]
    let d : Fin 4 := 3
    (Ready s c 112) ∧
    (bit s.glb.pkgWord d.val = true) ∧
    ((begun s c).powerRefusal (going c) = none) ∧
    (c.params = [255, BitVec.ofNat 8 (2 ^ d.val), 0, 0, 0, 0, 0, 0]) :=
  ⟨readyOf (by decide +kernel), by decide +kernel, by decide +kernel, by decide +kernel⟩

theorem meets_PowerCommand_8 :
    let s : State := pkg (ps [(0, 1, 255), (1, 1, 8), (2, 1, 1)])
    let c : Cmd := ps [(0, 1, 255), (1, 1, 8), (2, 1, 1)]
    let d : Fin 4 := 3
    (Ready s c 112) ∧
    (bit s.glb.pkgWord d.val = true) ∧
    ((begun s c).powerRefusal (going c) = none) ∧
    (c.params = [255, BitVec.ofNat 8 (2 ^ d.val), 1, 0, 0, 0, 0, 0]) :=
  ⟨readyOf (by decide +kernel), by decide +kernel, by decide +kernel, by decide +kernel⟩

theorem meets_PowerCommand_9 :
    let s : State := pkg (ps [(0, 1, 255), (1, 1, 8), (2, 1, 2)])
    let c : Cmd := ps [(0, 1, 255), (1, 1, 8), (2, 1, 2)]
    let d : Fin 4 := 3
    (Ready s c 112) ∧
    (bit s.glb.pkgWord d.val = true) ∧
    ((begun s c).powerRefusal (going c) = none) ∧
    (c.params = [255, BitVec.ofNat 8 (2 ^ d.val), 2, 0, 0, 0, 0, 0]) :=
  ⟨readyOf (by decide +kernel), by decide +kernel, by decide +kernel, by decide +kernel⟩

theorem meets_PowerCommand_10 :
    let s : State := noWakeDoze
    let c : Cmd := doze
    let n : BitVec 8 := 1
    let rs : ℕ := 0x0403
    (Ready s c 112) ∧
    (c.params = [n, 0, 0, 0, 0, 0, 0, 0]) ∧
    (n.toNat ≤ 4) ∧
    ((begun s c).powerRefusal (going c) = some rs) :=
  ⟨readyOf (by decide +kernel), by decide +kernel, by decide +kernel, by decide +kernel⟩

theorem meets_PowerEntries_5 :
    let s : State := t1
    s.pmu.entry = none :=
  by decide +kernel

theorem meets_PowerEntries_6 :
    let s : State := ent .doze
    let i : Fin 12 := 11
    (s.pmu.entry = some DevSt.doze) ∧
    (s.pmu.dev ≠ DevSt.off) ∧
    (s.pendingFor DevSt.doze = none) ∧
    (bit s.pmu.wakeEn i.val = true) ∧
    (wakeValid DevSt.doze i.val = true) :=
  ⟨by decide +kernel, by decide +kernel, by decide +kernel, by decide +kernel, by decide +kernel⟩

theorem meets_PowerEntries_7 :
    let s : State := entering .torpor
    (s.pmu.entry = some DevSt.torpor) ∧
    (s.pendingFor DevSt.torpor = none) ∧
    ((forN 4 (fun d s => State.drainDie d s) s).pendingFor DevSt.torpor = none) :=
  ⟨by decide +kernel, by decide +kernel, by decide +kernel⟩

theorem meets_PowerEntries_8 :
    let d : ℕ := 3
    d < 4 :=
  by decide +kernel

theorem meets_PowerManager_8 :
    let s : State := hibS
    s.pmu.dev = DevSt.off ∨ s.pmu.dev = DevSt.hibernate :=
  by decide +kernel

theorem meets_PowerManager_9 :
    let s : State := t1
    let mw : ℕ := 28001
    (s.pmu.dev ≠ DevSt.off) ∧
    (s.pmu.dev ≠ DevSt.hibernate) ∧
    (BitVec.toNat s.pmu.pkgLimit < mw) ∧
    (s.lowerable = []) :=
  ⟨by decide +kernel, by decide +kernel, by decide +kernel, by decide +kernel⟩

theorem meets_PowerManager_10 :
    let s : State := resv
    let d : Fin 4 := 3
    let v : BitVec 32 := 0x1E06
    (fld v 8 6 ≤ 48) ∧
    (s.reservedMax d.val ≤ fld v 8 6 ∨ fld (tget dvfsReset s.pmu.dvfs d.val) 8 6 ≤ fld v 8 6) :=
  ⟨by decide +kernel, by decide +kernel⟩

theorem meets_PowerManager_11 :
    let s : State := resv
    let d : Fin 4 := 3
    let v : BitVec 32 := 0x1D06
    (fld v 8 6 < fld (tget dvfsReset s.pmu.dvfs d.val) 8 6) ∧
    (fld v 8 6 < s.reservedMax d.val) :=
  ⟨by decide +kernel, by decide +kernel⟩

theorem meets_Regulators_3 :
    let s : State := dieOn
    let d : Fin 4 := 3
    (s.die d.val).power ≠ DieSt.waking ∨ (s.die d.val).regulator = true :=
  by decide +kernel

theorem meets_Wakes_5 :
    let s : State := wok .torpor
    let i : ℕ := 11
    (s.pmu.wakeSource = some i) ∧
    (s.pmu.dev = DevSt.torpor) :=
  ⟨by decide +kernel, by decide +kernel⟩

theorem meets_Wakes_6 :
    let s : State := wok .hibernate
    let i : ℕ := 11
    (s.pmu.wakeSource = some i) ∧
    (s.pmu.dev = DevSt.hibernate) :=
  ⟨by decide +kernel, by decide +kernel⟩

theorem meets_Wakes_7 :
    let s : State := wok .run
    s.pmu.dev = DevSt.run ∨ s.pmu.dev = DevSt.off :=
  by decide +kernel

theorem meets_Wakes_8 :
    let s : State := wok .off
    s.pmu.dev = DevSt.off :=
  by decide +kernel

theorem meets_PowerManager_12 :
    let s : State := oneJob2
    let mw : ℕ := 28001
    let c : ℕ := 63
    let l : List ℕ := []
    (s.pmu.dev ≠ DevSt.off) ∧
    (s.pmu.dev ≠ DevSt.hibernate) ∧
    (BitVec.toNat s.pmu.pkgLimit < mw) ∧
    (s.lowerable = c :: l) :=
  ⟨by decide +kernel, by decide +kernel, by decide +kernel, by decide +kernel⟩

end Part04

namespace Part05

def aonS (i : Nat) : State := { t1 with mem := [], aon.seq := { run := true, halted := false, pc := 4094, w := [(1, 0xFFFFFFFF), (2, 5), (31, 3)], prog := [(4094, BitVec.ofNat 32 i)] } }
/-- A sequencer word. -/
def qw (op d a b : Nat) : Nat := op * 2 ^ 26 + d * 2 ^ 22 + a * 2 ^ 18 + b * 2 ^ 14
theorem meets_SequencerArithmetic : ∀ op ∈ [0x01, 0x02, 0x03, 0x04, 0x05, 0x06, 0x07, 0x08, 0x09, 0x0A, 0x0B], SeqAt (aonS (qw op 3 1 2)) op :=
  fun op h => seqOf ((by decide : ∀ op ∈ [0x01, 0x02, 0x03, 0x04, 0x05, 0x06, 0x07, 0x08, 0x09, 0x0A, 0x0B], (aonS (qw op 3 1 2)).aon.seq.halted = false ∧
    (aonS (qw op 3 1 2)).aon.seq.waiting = false ∧ qOp (aonS (qw op 3 1 2)).aon.seq.instr = op ∧ qLegal (aonS (qw op 3 1 2)).aon.seq.instr = true ∧
    (aonS (qw op 3 1 2)).aon.seq.pc < 4095) op h)
theorem meets_SequencerImmediates : SeqAt (aonS 0) 0x00 ∧ SeqAt (aonS (qw 0x10 3 1 0 + 0x2FFFF)) 0x10 ∧ SeqAt (aonS (qw 0x11 3 1 0 + 0x2FFFF)) 0x11 ∧
    SeqAt (aonS (qw 0x12 3 1 0 + 0x2FFFF)) 0x12 ∧ SeqAt (aonS (qw 0x13 3 0 0 + 0x3FFFF)) 0x13 :=
  ⟨seqOf (by decide), seqOf (by decide), seqOf (by decide), seqOf (by decide), seqOf (by decide)⟩
def lastWord : State := { aonS (qw 0x18 3 1 0 + 0x3FFFD) with aon.seq.w := [(1, 0x7FFFF)], mem := [(0xC00000, 1)] }
def lastHalf (op : Nat) : State := { aonS (qw op 3 1 0 + 0x3FFFF) with aon.seq.w := [(1, 0x7FFFF), (3, 0x12348765)] }
def odd (op : Nat) : State := { aonS (qw op 3 1 0) with aon.seq.w := [(1, 0x7FFFF)] }
def above (op : Nat) : State := { aonS (qw op 3 1 0) with aon.seq.w := [(1, 0x80000)] }
def bankOff7 : State := { lastHalf 0x1B with pmu.dev := .hibernate, pmu.retAon := 0x07F }
def lastSw : State := { aonS (qw 0x19 3 1 0 + 0x3FFFD) with aon.seq.w := [(1, 0x7FFFF), (3, 0x12348765)] }
def br (op off : Nat) : State := aonS (qw op 2 1 0 + off)
def jal0 : State := aonS (qw 0x24 3 0 0 + 0x3F002)
def jr1 : State := aonS (qw 0x25 0 1 0)
def beqOut : State := aonS (qw 0x20 1 1 0 + 2)
def haltS : State := aonS (qw 0x2F 0 0 0)
def illS : State := aonS (qw 0x3F 0 0 0)
def unusedS : State := aonS (qw 0x01 3 1 2 + 1)
def io (op o : Nat) : State := { aonS (qw op 2 0 0 + o) with aon.period := 0xFFFFFF, aon.seq.latch := 0x408, pmu.levelHeld := 0x8 }
def ev (o : Nat) : State := { io 0 0 with aon.seq.prog := [(4094, BitVec.ofNat 32 (qw 0x2C 2 0 0 + o))] }
def shrewS (busy : Bool) : State := { aonS (qw 0x2D 2 1 0) with aon.shrewBusy := busy }
def dec (thr : W32) : State := { aonS (qw 0x2E 4 1 2) with aon.thr := [(7, thr)], aon.rtc := 99, pmu.dev := .run, aon.seq.prog := [(4094, BitVec.ofNat 32 (qw 0x2E 4 1 2))] }
def shrewEnd (a : Nat) : State := { t1 with aon.shrewBusy := true, aon.shrewList := a, mem := [(dormBase + 0x7FFE0, 0xFF), (dormBase + 0x7FFE1, 0xFF)] }
def rev1 : State := { t1 with build := { rev := .rev1 } }
def pin (v : W32) : State := { t1 with aon.wakepin := [(3, v)] }
def waitLatched : State := { ev 0x408 with aon.seq.waiting := true }
def pdm : State := { t1 with aon.pdmCtrl := 1, aon.pdmBase := 0x40, aon.pdmLen := 96, aon.pdmWptr := 32 }
def pdmBad : State := { pdm with aon.pdmCtrl := 0, aon.pdmBase := 0x41 }
def timer : State := { t1 with aon.period := 5, aon.timerCount := 5 }
def alarm (b : Bool) : State := { t1 with aon.almEn := b, aon.almLo := 1, aon.almHi := 1, aon.rtc := 0x100000001 }
def dec1 : Decision := { det := 7, level := 2, score := 0xFF, rtc := 0x123456789ABC }
def fifo1 : State := { t1 with aon.fifo := [dec1] }

theorem meets_SequencerMemory_1 :
    (SeqAt lastWord 24) ∧
    (BitVec.toNat ((if qA lastWord.aon.seq.instr = 0 then (0 : W32) else tget (0 : W32) lastWord.aon.seq.w (qA lastWord.aon.seq.instr)) + BitVec.signExtend 32 (BitVec.ofNat 18 (BitVec.toNat lastWord.aon.seq.instr))) % 4 = 0) ∧
    (BitVec.toNat ((if qA lastWord.aon.seq.instr = 0 then (0 : W32) else tget (0 : W32) lastWord.aon.seq.w (qA lastWord.aon.seq.instr)) + BitVec.signExtend 32 (BitVec.ofNat 18 (BitVec.toNat lastWord.aon.seq.instr))) < 524288 ∧ lastWord.bankOn (BitVec.toNat ((if qA lastWord.aon.seq.instr = 0 then (0 : W32) else tget (0 : W32) lastWord.aon.seq.w (qA lastWord.aon.seq.instr)) + BitVec.signExtend 32 (BitVec.ofNat 18 (BitVec.toNat lastWord.aon.seq.instr)))) = true) :=
  ⟨seqOf (by decide), by decide, by decide⟩

theorem meets_SequencerMemory_2 :
    (SeqAt lastSw 25) ∧
    (BitVec.toNat ((if qA lastSw.aon.seq.instr = 0 then (0 : W32) else tget (0 : W32) lastSw.aon.seq.w (qA lastSw.aon.seq.instr)) + BitVec.signExtend 32 (BitVec.ofNat 18 (BitVec.toNat lastSw.aon.seq.instr))) % 4 = 0) ∧
    (BitVec.toNat ((if qA lastSw.aon.seq.instr = 0 then (0 : W32) else tget (0 : W32) lastSw.aon.seq.w (qA lastSw.aon.seq.instr)) + BitVec.signExtend 32 (BitVec.ofNat 18 (BitVec.toNat lastSw.aon.seq.instr))) < 524288 ∧ lastSw.bankOn (BitVec.toNat ((if qA lastSw.aon.seq.instr = 0 then (0 : W32) else tget (0 : W32) lastSw.aon.seq.w (qA lastSw.aon.seq.instr)) + BitVec.signExtend 32 (BitVec.ofNat 18 (BitVec.toNat lastSw.aon.seq.instr)))) = true) :=
  ⟨seqOf (by decide), by decide, by decide⟩

theorem meets_SequencerMemory_3 :
    (SeqAt (lastHalf 26) 26) ∧
    (BitVec.toNat ((if qA (lastHalf 26).aon.seq.instr = 0 then (0 : W32) else tget (0 : W32) (lastHalf 26).aon.seq.w (qA (lastHalf 26).aon.seq.instr)) + BitVec.signExtend 32 (BitVec.ofNat 18 (BitVec.toNat (lastHalf 26).aon.seq.instr))) % 2 = 0) ∧
    (BitVec.toNat ((if qA (lastHalf 26).aon.seq.instr = 0 then (0 : W32) else tget (0 : W32) (lastHalf 26).aon.seq.w (qA (lastHalf 26).aon.seq.instr)) + BitVec.signExtend 32 (BitVec.ofNat 18 (BitVec.toNat (lastHalf 26).aon.seq.instr))) < 524288 ∧ (lastHalf 26).bankOn (BitVec.toNat ((if qA (lastHalf 26).aon.seq.instr = 0 then (0 : W32) else tget (0 : W32) (lastHalf 26).aon.seq.w (qA (lastHalf 26).aon.seq.instr)) + BitVec.signExtend 32 (BitVec.ofNat 18 (BitVec.toNat (lastHalf 26).aon.seq.instr)))) = true) :=
  ⟨seqOf (by decide), by decide, by decide⟩

theorem meets_SequencerMemory_4 :
    (SeqAt (lastHalf 27) 27) ∧
    (BitVec.toNat ((if qA (lastHalf 27).aon.seq.instr = 0 then (0 : W32) else tget (0 : W32) (lastHalf 27).aon.seq.w (qA (lastHalf 27).aon.seq.instr)) + BitVec.signExtend 32 (BitVec.ofNat 18 (BitVec.toNat (lastHalf 27).aon.seq.instr))) % 2 = 0) ∧
    (BitVec.toNat ((if qA (lastHalf 27).aon.seq.instr = 0 then (0 : W32) else tget (0 : W32) (lastHalf 27).aon.seq.w (qA (lastHalf 27).aon.seq.instr)) + BitVec.signExtend 32 (BitVec.ofNat 18 (BitVec.toNat (lastHalf 27).aon.seq.instr))) < 524288 ∧ (lastHalf 27).bankOn (BitVec.toNat ((if qA (lastHalf 27).aon.seq.instr = 0 then (0 : W32) else tget (0 : W32) (lastHalf 27).aon.seq.w (qA (lastHalf 27).aon.seq.instr)) + BitVec.signExtend 32 (BitVec.ofNat 18 (BitVec.toNat (lastHalf 27).aon.seq.instr)))) = true) :=
  ⟨seqOf (by decide), by decide, by decide⟩

theorem meets_SequencerMemory_5 :
    (SeqAt (odd 24) 24) ∧
    (BitVec.toNat ((if qA (odd 24).aon.seq.instr = 0 then (0 : W32) else tget (0 : W32) (odd 24).aon.seq.w (qA (odd 24).aon.seq.instr)) + BitVec.signExtend 32 (BitVec.ofNat 18 (BitVec.toNat (odd 24).aon.seq.instr))) % 4 ≠ 0) :=
  ⟨seqOf (by decide), by decide⟩

theorem meets_SequencerMemory_6 :
    (SeqAt (odd 25) 25) ∧
    (BitVec.toNat ((if qA (odd 25).aon.seq.instr = 0 then (0 : W32) else tget (0 : W32) (odd 25).aon.seq.w (qA (odd 25).aon.seq.instr)) + BitVec.signExtend 32 (BitVec.ofNat 18 (BitVec.toNat (odd 25).aon.seq.instr))) % 4 ≠ 0) :=
  ⟨seqOf (by decide), by decide⟩

theorem meets_SequencerMemory_7 :
    (SeqAt (above 26) 26) ∧
    (BitVec.toNat ((if qA (above 26).aon.seq.instr = 0 then (0 : W32) else tget (0 : W32) (above 26).aon.seq.w (qA (above 26).aon.seq.instr)) + BitVec.signExtend 32 (BitVec.ofNat 18 (BitVec.toNat (above 26).aon.seq.instr))) % 2 = 0) ∧
    (524288 ≤ BitVec.toNat ((if qA (above 26).aon.seq.instr = 0 then (0 : W32) else tget (0 : W32) (above 26).aon.seq.w (qA (above 26).aon.seq.instr)) + BitVec.signExtend 32 (BitVec.ofNat 18 (BitVec.toNat (above 26).aon.seq.instr)))) :=
  ⟨seqOf (by decide), by decide, by decide⟩

theorem meets_SequencerMemory_8 :
    (SeqAt bankOff7 27) ∧
    (BitVec.toNat ((if qA bankOff7.aon.seq.instr = 0 then (0 : W32) else tget (0 : W32) bankOff7.aon.seq.w (qA bankOff7.aon.seq.instr)) + BitVec.signExtend 32 (BitVec.ofNat 18 (BitVec.toNat bankOff7.aon.seq.instr))) % 2 = 0) ∧
    (BitVec.toNat ((if qA bankOff7.aon.seq.instr = 0 then (0 : W32) else tget (0 : W32) bankOff7.aon.seq.w (qA bankOff7.aon.seq.instr)) + BitVec.signExtend 32 (BitVec.ofNat 18 (BitVec.toNat bankOff7.aon.seq.instr))) < 524288) ∧
    (bankOff7.bankOn (BitVec.toNat ((if qA bankOff7.aon.seq.instr = 0 then (0 : W32) else tget (0 : W32) bankOff7.aon.seq.w (qA bankOff7.aon.seq.instr)) + BitVec.signExtend 32 (BitVec.ofNat 18 (BitVec.toNat bankOff7.aon.seq.instr)))) = false) :=
  ⟨seqOf (by decide), by decide, by decide, by decide⟩

theorem meets_SequencerFlow_1 :
    ((0 : ℤ) ≤ Int.ofNat (br 32 1).aon.seq.pc + (BitVec.ofNat 18 (BitVec.toNat (br 32 1).aon.seq.instr)).toInt) ∧
    (Int.ofNat (br 32 1).aon.seq.pc + (BitVec.ofNat 18 (BitVec.toNat (br 32 1).aon.seq.instr)).toInt < (4096 : ℤ)) ∧
    (SeqAt (br 32 1) 32) :=
  ⟨by decide, by decide, seqOf (by decide)⟩

theorem meets_SequencerFlow_2 :
    ((0 : ℤ) ≤ Int.ofNat (br 33 1).aon.seq.pc + (BitVec.ofNat 18 (BitVec.toNat (br 33 1).aon.seq.instr)).toInt) ∧
    (Int.ofNat (br 33 1).aon.seq.pc + (BitVec.ofNat 18 (BitVec.toNat (br 33 1).aon.seq.instr)).toInt < (4096 : ℤ)) ∧
    (SeqAt (br 33 1) 33) :=
  ⟨by decide, by decide, seqOf (by decide)⟩

theorem meets_SequencerFlow_3 :
    ((0 : ℤ) ≤ Int.ofNat (br 34 1).aon.seq.pc + (BitVec.ofNat 18 (BitVec.toNat (br 34 1).aon.seq.instr)).toInt) ∧
    (Int.ofNat (br 34 1).aon.seq.pc + (BitVec.ofNat 18 (BitVec.toNat (br 34 1).aon.seq.instr)).toInt < (4096 : ℤ)) ∧
    (SeqAt (br 34 1) 34) :=
  ⟨by decide, by decide, seqOf (by decide)⟩

theorem meets_SequencerFlow_4 :
    ((0 : ℤ) ≤ Int.ofNat (br 35 258050).aon.seq.pc + (BitVec.ofNat 18 (BitVec.toNat (br 35 258050).aon.seq.instr)).toInt) ∧
    (Int.ofNat (br 35 258050).aon.seq.pc + (BitVec.ofNat 18 (BitVec.toNat (br 35 258050).aon.seq.instr)).toInt < (4096 : ℤ)) ∧
    (SeqAt (br 35 258050) 35) :=
  ⟨by decide, by decide, seqOf (by decide)⟩

theorem meets_SequencerFlow_5 :
    ((0 : ℤ) ≤ Int.ofNat jal0.aon.seq.pc + (BitVec.ofNat 18 (BitVec.toNat jal0.aon.seq.instr)).toInt) ∧
    (Int.ofNat jal0.aon.seq.pc + (BitVec.ofNat 18 (BitVec.toNat jal0.aon.seq.instr)).toInt < (4096 : ℤ)) ∧
    (SeqAt jal0 36) :=
  ⟨by decide, by decide, seqOf (by decide)⟩

theorem meets_SequencerFlow_6 :
    (SeqAt jr1 37) :=
  seqOf (by decide)

theorem meets_SequencerFlow_7 :
    (SeqAt beqOut 32) ∧
    ((if qD beqOut.aon.seq.instr = 0 then (0 : W32) else tget (0 : W32) beqOut.aon.seq.w (qD beqOut.aon.seq.instr)) = if qA beqOut.aon.seq.instr = 0 then (0 : W32) else tget (0 : W32) beqOut.aon.seq.w (qA beqOut.aon.seq.instr)) ∧
    ((4096 : ℤ) ≤ Int.ofNat beqOut.aon.seq.pc + (BitVec.ofNat 18 (BitVec.toNat beqOut.aon.seq.instr)).toInt) :=
  ⟨seqOf (by decide), by decide, by decide⟩

theorem meets_SequencerFlow_8 :
    (SeqAt haltS 47) :=
  seqOf (by decide)

theorem meets_SequencerFlow_9 :
    (illS.aon.seq.halted = false) ∧
    (illS.aon.seq.waiting = false) ∧
    (qOp illS.aon.seq.instr = 63) :=
  ⟨by decide, by decide, by decide⟩

theorem meets_SequencerFlow_10 :
    (unusedS.aon.seq.halted = false) ∧
    (unusedS.aon.seq.waiting = false) ∧
    (qOp unusedS.aon.seq.instr = 1) ∧
    (fld unusedS.aon.seq.instr 0 14 ≠ 0) :=
  ⟨by decide, by decide, by decide, by decide⟩

theorem meets_SequencerUnits_1 :
    (SeqAt (io 40 112) 40) ∧
    (BitVec.toNat (io 40 112).aon.seq.instr % 2 ^ 18 = 112) :=
  ⟨seqOf (by decide), by decide⟩

theorem meets_SequencerUnits_2 :
    (SeqAt (io 41 348) 41) ∧
    (BitVec.toNat (io 41 348).aon.seq.instr % 2 ^ 18 = 348) :=
  ⟨seqOf (by decide), by decide⟩

theorem meets_SequencerUnits_3 :
    (SeqAt (io 41 388) 41) ∧
    (BitVec.toNat (io 41 388).aon.seq.instr % 2 ^ 18 = 0 ∨ BitVec.toNat (io 41 388).aon.seq.instr % 2 ^ 18 = 256 ∨ BitVec.toNat (io 41 388).aon.seq.instr % 2 ^ 18 = 288 ∨ BitVec.toNat (io 41 388).aon.seq.instr % 2 ^ 18 = 320 ∨ BitVec.toNat (io 41 388).aon.seq.instr % 2 ^ 18 = 388) :=
  ⟨seqOf (by decide), by decide⟩

theorem meets_SequencerUnits_4 :
    (SeqAt (ev 2047) 44) ∧
    (BitVec.toNat (ev 2047).aon.seq.instr % 2 ^ 18 % 4096 ≠ 0) ∧
    ((ev 2047).aon.seq.latch &&& BitVec.ofNat 11 (BitVec.toNat (ev 2047).aon.seq.instr % 2 ^ 18) ≠ (0 : BitVec 11)) :=
  ⟨seqOf (by decide), by decide, by decide⟩

theorem meets_SequencerUnits_5 :
    (SeqAt (ev 1) 44) ∧
    (BitVec.toNat (ev 1).aon.seq.instr % 2 ^ 18 % 4096 ≠ 0) ∧
    ((ev 1).aon.seq.latch &&& BitVec.ofNat 11 (BitVec.toNat (ev 1).aon.seq.instr % 2 ^ 18) = (0 : BitVec 11)) :=
  ⟨seqOf (by decide), by decide, by decide⟩

theorem meets_SequencerUnits_6 :
    (SeqAt (ev 0) 44) ∧
    (BitVec.toNat (ev 0).aon.seq.instr % 2 ^ 18 % 4096 = 0) :=
  ⟨seqOf (by decide), by decide⟩

theorem meets_SequencerUnits_7 :
    (SeqAt (shrewS true) 45) ∧
    ((shrewS true).aon.shrewBusy = true) :=
  ⟨seqOf (by decide), by decide⟩

theorem meets_SequencerUnits_8 :
    (SeqAt (shrewS false) 45) ∧
    ((shrewS false).aon.shrewBusy = false) :=
  ⟨seqOf (by decide), by decide⟩

theorem meets_SequencerUnits_9 :
    (SeqAt (dec (1542 : W32)) 46) ∧
    (BitVec.toNat (if qB (dec (1542 : W32)).aon.seq.instr = 0 then (0 : W32) else tget (0 : W32) (dec (1542 : W32)).aon.seq.w (qB (dec (1542 : W32)).aon.seq.instr)) % 256 < fld (tget thrReset (dec (1542 : W32)).aon.thr (BitVec.toNat (if qA (dec (1542 : W32)).aon.seq.instr = 0 then (0 : W32) else tget (0 : W32) (dec (1542 : W32)).aon.seq.w (qA (dec (1542 : W32)).aon.seq.instr)) % 8)) 0 8) ∧
    (BitVec.toNat (if qB (dec (1542 : W32)).aon.seq.instr = 0 then (0 : W32) else tget (0 : W32) (dec (1542 : W32)).aon.seq.w (qB (dec (1542 : W32)).aon.seq.instr)) % 256 < fld (tget thrReset (dec (1542 : W32)).aon.thr (BitVec.toNat (if qA (dec (1542 : W32)).aon.seq.instr = 0 then (0 : W32) else tget (0 : W32) (dec (1542 : W32)).aon.seq.w (qA (dec (1542 : W32)).aon.seq.instr)) % 8)) 8 8) ∧
    (tget (0 : BitVec 2) (dec (1542 : W32)).aon.level (BitVec.toNat (if qA (dec (1542 : W32)).aon.seq.instr = 0 then (0 : W32) else tget (0 : W32) (dec (1542 : W32)).aon.seq.w (qA (dec (1542 : W32)).aon.seq.instr)) % 8) = (0 : BitVec 2)) :=
  ⟨seqOf (by decide), by decide, by decide, by decide⟩

theorem meets_SequencerUnits_10 :
    (SeqAt (dec (1285 : W32)) 46) ∧
    (fld (tget thrReset (dec (1285 : W32)).aon.thr (BitVec.toNat (if qA (dec (1285 : W32)).aon.seq.instr = 0 then (0 : W32) else tget (0 : W32) (dec (1285 : W32)).aon.seq.w (qA (dec (1285 : W32)).aon.seq.instr)) % 8)) 8 8 ≤ BitVec.toNat (if qB (dec (1285 : W32)).aon.seq.instr = 0 then (0 : W32) else tget (0 : W32) (dec (1285 : W32)).aon.seq.w (qB (dec (1285 : W32)).aon.seq.instr)) % 256) ∧
    (tget (0 : BitVec 2) (dec (1285 : W32)).aon.level (BitVec.toNat (if qA (dec (1285 : W32)).aon.seq.instr = 0 then (0 : W32) else tget (0 : W32) (dec (1285 : W32)).aon.seq.w (qA (dec (1285 : W32)).aon.seq.instr)) % 8) = (0 : BitVec 2)) ∧
    ((dec (1285 : W32)).aon.fifo.length < 16) :=
  ⟨seqOf (by decide), by decide, by decide, by decide⟩

theorem meets_SequencerUnits_11 :
    ((shrewEnd 524256).aon.shrewBusy = true) ∧
    ((shrewEnd 524256).aon.shrewList + 32 ≤ 524288) ∧
    ((shrewEnd 524256).bankOn (shrewEnd 524256).aon.shrewList = true) ∧
    ((shrewEnd 524256).bankOn ((shrewEnd 524256).aon.shrewList + 31) = true) ∧
    (leNat (mreadN (shrewEnd 524256).mem (dormBase + (shrewEnd 524256).aon.shrewList) 2) = 65535) ∧
    ((shrewEnd 524256).aon.seq.waiting = false) :=
  by and_intros <;> decide

theorem meets_SequencerUnits_12 :
    ((shrewEnd 524257).aon.shrewBusy = true) ∧
    (524288 < (shrewEnd 524257).aon.shrewList + 32) ∧
    ((shrewEnd 524257).aon.seq.waiting = false) :=
  ⟨by decide, by decide, by decide⟩

theorem meets_IslandInputs_6 :
    (waitLatched.aon.seq.waiting = true) ∧
    (waitLatched.aon.seq.latch &&& BitVec.ofNat 11 (BitVec.toNat waitLatched.aon.seq.instr % 2 ^ 18) ≠ (0 : BitVec 11)) ∧
    (waitLatched.aon.seq.pc < 4095) :=
  ⟨by decide, by decide, by decide⟩

theorem meets_IslandUnits_4 :
    (timer.pmu.dev ≠ DevSt.off) ∧
    (timer.aon.period ≠ (0 : BitVec 24)) ∧
    (timer.tb.carry = none) :=
  ⟨by decide, by decide, by decide⟩

theorem meets_IslandUnits_6 :
    ((alarm false).aon.almEn = false) :=
  by decide

theorem meets_IslandUnits_9 :
    ((alarm true).offAt 327776 = false) :=
  by decide

theorem meets_IslandUnits_10 :
    (fifo1.offAt 327968 = false) ∧
    (fifo1.aon.fifo = [dec1]) :=
  ⟨by decide, by decide⟩

theorem meets_IslandUnits_11 :
    (t1.offAt 327968 = false) ∧
    (t1.aon.fifo = []) :=
  ⟨by decide, by decide⟩

theorem meets_IslandUnits_12 :
    (fld (1285 : W32) 0 8 ≤ fld (1285 : W32) 8 8) :=
  by decide

theorem meets_IslandUnits_13 :
    (fld (1286 : W32) 8 8 < fld (1286 : W32) 0 8) :=
  by decide

theorem meets_IslandUnits_16 :
    (bit (4294901760 : W32) 0 = false) :=
  by decide

def glitchy (n : Nat) : State := { t1 with aon.cmp := [(0, 0x6080)], aon.raw := 1, aon.glitch := [(0, n)] }
def alarmT (b : Bool) : State := { alarm b with aon.almTick := true }
def crossIn : State := { t1 with tb.mpcCrossings := 4, aon.rtc := 728, build := { rev := .rev2 } }
def offS : State := { t1 with pmu.dev := .off }
def inst (v : W32) (l : BitVec 12) : State := { t1 with aon.cmp := [(0, v)], pmu.levelHeld := l }

theorem meets_IslandInputs_7 :
    let s : State := rev1
    let mv : ℤ := 513
    (s.rev2 = false) ∧
    (s.pmu.dev ≠ DevSt.off) ∧
    (bit (tget cmpReset s.aon.cmp 1) 14 = false) ∧
    (fld (tget cmpReset s.aon.cmp 1) 12 2 = 0) ∧
    (Int.ofNat (4 * fld (tget cmpReset s.aon.cmp 1) 0 8) < mv) ∧
    (bit s.aon.raw 1 = false) ∧
    (bit s.aon.inputs 1 = false) :=
  by and_intros <;> decide

theorem meets_IslandInputs_8 :
    let s : State := crossIn
    let mv : ℤ := 513
    (s.rev2 = true) ∧
    (s.pmu.dev = DevSt.run) ∧
    (s.glb.resetHeld = false) ∧
    (bit (tget cmpReset s.aon.cmp 1) 14 = false) ∧
    (fld (tget cmpReset s.aon.cmp 1) 12 2 = 0) ∧
    (Int.ofNat (4 * fld (tget cmpReset s.aon.cmp 1) 0 8) < mv) ∧
    (bit s.aon.raw 1 = false) ∧
    (bit s.aon.inputs 1 = false) ∧
    (4 ≤ s.tb.mpcCrossings) ∧
    (45 * (s.aon.rtc - s.tb.mainsAt).toNat ≤ 32768) ∧
    (32768 ≤ 65 * (s.aon.rtc - s.tb.mainsAt).toNat) :=
  by and_intros <;> decide

theorem meets_IslandInputs_9 :
    let s : State := pin 0x4000
    let n : Fin 4 := 3
    let e1 := tget 0 s.aon.wakepin n.val
    (bit e1 14 = true) ∧
    (bit e1 10 = false) ∧
    (bit e1 11 = false) ∧
    (fld e1 12 2 = 0) ∧
    (bit s.aon.raw (2 + n.val) = false) ∧
    (bit s.aon.inputs (2 + n.val) = false) ∧
    (s.aon.seq.waiting = false) ∧
    (s.pmu.dev = DevSt.run) :=
  by and_intros <;> decide

theorem meets_IslandInputs_10 :
    let s : State := pin 0x4400
    let n : Fin 4 := 3
    let e1 := tget 0 s.aon.wakepin n.val
    (bit e1 14 = true) ∧
    (bit e1 10 = true) ∧
    (bit e1 11 = false) ∧
    (fld e1 12 2 = 0) ∧
    (bit s.aon.raw (2 + n.val) = false) ∧
    (bit s.aon.inputs (2 + n.val) = false) ∧
    (bit s.pmu.levelHeld (3 + n.val) = false) ∧
    (s.aon.seq.waiting = false) ∧
    (s.pmu.dev = DevSt.run) :=
  by and_intros <;> decide

theorem meets_IslandUnits_17 :
    let s : State := pdm
    (fld s.aon.pdmCtrl 0 4 ≠ 0) ∧
    (s.pmu.dev = DevSt.run) ∧
    (s.aon.seq.waiting = false) ∧
    (Memory.wf s.mem = true) ∧
    (s.aon.pdmBase.toNat + s.aon.pdmLen.toNat ≤ 524288) ∧
    (s.aon.pdmWptr.toNat < s.aon.pdmLen.toNat) :=
  by and_intros <;> decide

theorem meets_IslandUnits_19 :
    let s : State := pdm
    let v : W32 := 1
    (s.pmu.dev ≠ DevSt.off) ∧
    (s.aon.pdmBase.toNat % 64 = 0) ∧
    (fld v 0 4 = 1) ∧
    (fld v 4 2 ≠ 3) ∧
    (fld v 6 3 < 6) ∧
    (s.aon.pdmLen.toNat % (32 * 2 ^ fld v 9 2) = 0) :=
  by and_intros <;> decide

theorem meets_IslandUnits_20 :
    let s : State := pdmBad
    let v : W32 := 1
    (s.pmu.dev ≠ DevSt.off) ∧
    (s.aon.pdmBase.toNat % 64 ≠ 0) ∧
    (fld v 0 4 ≠ 0) ∧
    (fld s.aon.pdmCtrl 0 4 = 0) :=
  ⟨by decide, by decide, by decide, by decide⟩

theorem meets_IslandUnits_21 :
    let s : State := timer
    (s.pmu.dev ≠ DevSt.off) ∧
    (s.aon.period ≠ 0) ∧
    (s.tb.carry = none) ∧
    (s.aon.raw = s.aon.inputs) :=
  ⟨by decide, by decide, by decide, by decide⟩

theorem meets_IslandUnits_22 :
    let s : State := glitchy 0
    (s.pmu.dev = DevSt.run) ∧
    (s.aon.period = 0) ∧
    (s.tb.carry = none) ∧
    (s.aon.seq.waiting = false) ∧
    (bit s.aon.raw 0 = true) ∧
    (bit s.aon.inputs 0 = false) ∧
    (∀ (i : ℕ), 0 < i → i < 6 → bit s.aon.raw i = bit s.aon.inputs i) ∧
    (bit (tget cmpReset s.aon.cmp 0) 14 = true) ∧
    (bit (tget cmpReset s.aon.cmp 0) 10 = false) ∧
    (bit (tget cmpReset s.aon.cmp 0) 11 = false) ∧
    (fld (tget cmpReset s.aon.cmp 0) 12 2 = 2) ∧
    (tget 0 s.aon.glitch 0 = 0) :=
  ⟨by decide, by decide, by decide, by decide, by decide, by decide, by intro i a b; interval_cases i <;> decide, by and_intros <;> decide⟩

theorem meets_IslandUnits_23 :
    let s : State := glitchy 1
    (s.pmu.dev = DevSt.run) ∧
    (s.aon.period = 0) ∧
    (s.tb.carry = none) ∧
    (s.aon.seq.waiting = false) ∧
    (bit s.aon.raw 0 = true) ∧
    (bit s.aon.inputs 0 = false) ∧
    (∀ (i : ℕ), 0 < i → i < 6 → bit s.aon.raw i = bit s.aon.inputs i) ∧
    (bit (tget cmpReset s.aon.cmp 0) 14 = true) ∧
    (bit (tget cmpReset s.aon.cmp 0) 10 = false) ∧
    (bit (tget cmpReset s.aon.cmp 0) 11 = false) ∧
    (fld (tget cmpReset s.aon.cmp 0) 12 2 = 2) ∧
    (tget 0 s.aon.glitch 0 = 1) :=
  ⟨by decide, by decide, by decide, by decide, by decide, by decide, by intro i a b; interval_cases i <;> decide, by and_intros <;> decide⟩

theorem meets_IslandUnits_24 :
    let s : State := alarmT true
    (s.aon.almEn = true) ∧
    (s.aon.almFired = false) ∧
    (s.aon.almTick = true) ∧
    (BitVec.toNat s.aon.almLo + BitVec.toNat s.aon.almHi * 2 ^ 32 ≤ s.aon.rtc.toNat) ∧
    (s.aon.seq.waiting = false) ∧
    (s.pmu.dev = DevSt.run) :=
  by and_intros <;> decide

theorem meets_IslandUnits_25 :
    let s : State := alarm true
    s.aon.almEn = false ∨ s.aon.almTick = false ∨ s.aon.rtc.toNat < BitVec.toNat s.aon.almLo + BitVec.toNat s.aon.almHi * 2 ^ 32 :=
  by decide

theorem meets_IslandUnits_26 :
    let s : State := timer
    s.pmu.dev ≠ DevSt.off :=
  by decide

theorem meets_IslandUnits_27 :
    let s : State := timer
    let v : W32 := 0x0505
    (s.pmu.dev ≠ DevSt.off) ∧
    (fld v 0 8 ≤ fld v 8 8) :=
  ⟨by decide, by decide⟩

theorem meets_IslandUnits_28 :
    let s : State := timer
    let v : W32 := 0x0405
    (s.pmu.dev ≠ DevSt.off) ∧
    (fld v 8 8 < fld v 0 8) :=
  ⟨by decide, by decide⟩

theorem meets_IslandUnits_29 :
    let s : State := pdm
    (s.pmu.dev ≠ DevSt.off) ∧
    (s.aon.seq.waiting = false) :=
  ⟨by decide, by decide⟩

theorem meets_IslandUnits_30 :
    let s : State := timer
    let v : W32 := 1
    (s.pmu.dev ≠ DevSt.off) ∧
    (s.aon.seq.run = false) ∧
    (bit v 0 = true) :=
  ⟨by decide, by decide, by decide⟩

theorem meets_IslandUnits_31 :
    let s : State := timer
    let v : W32 := 0
    (s.pmu.dev ≠ DevSt.off) ∧
    (bit v 0 = false) :=
  ⟨by decide, by decide⟩

theorem meets_SequencerUnits_13 :
    let s : State := dec 1285
    let e1 := BitVec.toNat (if qA s.aon.seq.instr = 0 then 0 else tget 0 s.aon.seq.w (qA s.aon.seq.instr)) % 8
    (SeqAt s 46) ∧
    (s.pmu.dev ≠ DevSt.off) ∧
    (fld (tget thrReset s.aon.thr e1) 8 8 ≤ BitVec.toNat (if qB s.aon.seq.instr = 0 then 0 else tget 0 s.aon.seq.w (qB s.aon.seq.instr)) % 256) ∧
    (tget 0 s.aon.level e1 = 0) ∧
    (s.aon.fifo.length < 16) :=
  ⟨seqOf (by decide), by decide, by decide, by decide, by decide⟩

theorem meets_InstrumentComparator_1 :
    let s : State := t1
    let mv : ℤ := 256
    (if Int.ofNat (2 * fld (tget cmpReset s.aon.cmp 0) 0 8) < mv then true else if mv < Int.ofNat (2 * fld (tget cmpReset s.aon.cmp 0) 0 8) - if fld (tget cmpReset s.aon.cmp 0) 8 2 = 0 then 0 else Int.ofNat (2 * 2 ^ fld (tget cmpReset s.aon.cmp 0) 8 2) then false else bit s.aon.raw 0) = bit s.aon.raw 0 :=
  by decide

theorem meets_InstrumentComparator_2 :
    let s : State := offS
    s.pmu.dev = DevSt.off :=
  by decide

theorem meets_InstrumentComparator_3 :
    let s : State := inst 0x1080 0
    let mv : ℤ := 257
    let e1 := tget cmpReset s.aon.cmp 0
    (s.pmu.dev ≠ DevSt.off) ∧
    ((if Int.ofNat (2 * fld e1 0 8) < mv then true else if mv < Int.ofNat (2 * fld e1 0 8) - if fld e1 8 2 = 0 then 0 else Int.ofNat (2 * 2 ^ fld e1 8 2) then false else bit s.aon.raw 0) ≠ bit s.aon.raw 0) ∧
    (fld e1 12 2 ≠ 0 ∨ (if Int.ofNat (2 * fld e1 0 8) < mv then true else if mv < Int.ofNat (2 * fld e1 0 8) - if fld e1 8 2 = 0 then 0 else Int.ofNat (2 * 2 ^ fld e1 8 2) then false else bit s.aon.raw 0) = bit s.aon.inputs 0) :=
  ⟨by decide, by decide, by decide⟩

theorem meets_InstrumentComparator_4 :
    let s : State := inst 0x80 0
    let mv : ℤ := 257
    let e1 := tget cmpReset s.aon.cmp 0
    (s.pmu.dev ≠ DevSt.off) ∧
    ((if Int.ofNat (2 * fld e1 0 8) < mv then true else if mv < Int.ofNat (2 * fld e1 0 8) - if fld e1 8 2 = 0 then 0 else Int.ofNat (2 * 2 ^ fld e1 8 2) then false else bit s.aon.raw 0) ≠ bit s.aon.raw 0) ∧
    (fld e1 12 2 = 0) ∧
    ((if Int.ofNat (2 * fld e1 0 8) < mv then true else if mv < Int.ofNat (2 * fld e1 0 8) - if fld e1 8 2 = 0 then 0 else Int.ofNat (2 * 2 ^ fld e1 8 2) then false else bit s.aon.raw 0) ≠ bit s.aon.inputs 0) ∧
    (bit e1 14 = false) :=
  by and_intros <;> decide

theorem meets_InstrumentComparator_5 :
    let s : State := inst 0x4880 0
    let mv : ℤ := 257
    let e1 := tget cmpReset s.aon.cmp 0
    (s.pmu.dev ≠ DevSt.off) ∧
    ((if Int.ofNat (2 * fld e1 0 8) < mv then true else if mv < Int.ofNat (2 * fld e1 0 8) - if fld e1 8 2 = 0 then 0 else Int.ofNat (2 * 2 ^ fld e1 8 2) then false else bit s.aon.raw 0) ≠ bit s.aon.raw 0) ∧
    (fld e1 12 2 = 0) ∧
    ((if Int.ofNat (2 * fld e1 0 8) < mv then true else if mv < Int.ofNat (2 * fld e1 0 8) - if fld e1 8 2 = 0 then 0 else Int.ofNat (2 * 2 ^ fld e1 8 2) then false else bit s.aon.raw 0) ≠ bit s.aon.inputs 0) ∧
    (bit e1 14 = true) ∧
    (bit e1 10 = false) ∧
    ((if Int.ofNat (2 * fld e1 0 8) < mv then true else if mv < Int.ofNat (2 * fld e1 0 8) - if fld e1 8 2 = 0 then 0 else Int.ofNat (2 * 2 ^ fld e1 8 2) then false else bit s.aon.raw 0) = bit e1 11) :=
  by and_intros <;> decide

theorem meets_InstrumentComparator_6 :
    let s : State := inst 0x4080 0
    let mv : ℤ := 257
    let e1 := tget cmpReset s.aon.cmp 0
    (s.pmu.dev ≠ DevSt.off) ∧
    ((if Int.ofNat (2 * fld e1 0 8) < mv then true else if mv < Int.ofNat (2 * fld e1 0 8) - if fld e1 8 2 = 0 then 0 else Int.ofNat (2 * 2 ^ fld e1 8 2) then false else bit s.aon.raw 0) ≠ bit s.aon.raw 0) ∧
    (fld e1 12 2 = 0) ∧
    ((if Int.ofNat (2 * fld e1 0 8) < mv then true else if mv < Int.ofNat (2 * fld e1 0 8) - if fld e1 8 2 = 0 then 0 else Int.ofNat (2 * 2 ^ fld e1 8 2) then false else bit s.aon.raw 0) ≠ bit s.aon.inputs 0) ∧
    (bit e1 14 = true) ∧
    (bit e1 10 = false) ∧
    ((if Int.ofNat (2 * fld e1 0 8) < mv then true else if mv < Int.ofNat (2 * fld e1 0 8) - if fld e1 8 2 = 0 then 0 else Int.ofNat (2 * 2 ^ fld e1 8 2) then false else bit s.aon.raw 0) ≠ bit e1 11) ∧
    (s.aon.seq.waiting = false) ∧
    (s.pmu.dev = DevSt.run) :=
  by and_intros <;> decide

theorem meets_InstrumentComparator_7 :
    let s : State := inst 0x4C80 0
    let mv : ℤ := 257
    let e1 := tget cmpReset s.aon.cmp 0
    (s.pmu.dev ≠ DevSt.off) ∧
    ((if Int.ofNat (2 * fld e1 0 8) < mv then true else if mv < Int.ofNat (2 * fld e1 0 8) - if fld e1 8 2 = 0 then 0 else Int.ofNat (2 * 2 ^ fld e1 8 2) then false else bit s.aon.raw 0) ≠ bit s.aon.raw 0) ∧
    (fld e1 12 2 = 0) ∧
    ((if Int.ofNat (2 * fld e1 0 8) < mv then true else if mv < Int.ofNat (2 * fld e1 0 8) - if fld e1 8 2 = 0 then 0 else Int.ofNat (2 * 2 ^ fld e1 8 2) then false else bit s.aon.raw 0) ≠ bit s.aon.inputs 0) ∧
    (bit e1 14 = true) ∧
    (bit e1 10 = true) ∧
    ((if Int.ofNat (2 * fld e1 0 8) < mv then true else if mv < Int.ofNat (2 * fld e1 0 8) - if fld e1 8 2 = 0 then 0 else Int.ofNat (2 * 2 ^ fld e1 8 2) then false else bit s.aon.raw 0) = bit e1 11) :=
  by and_intros <;> decide

theorem meets_InstrumentComparator_8 :
    let s : State := inst 0x4480 1
    let mv : ℤ := 257
    let e1 := tget cmpReset s.aon.cmp 0
    (s.pmu.dev ≠ DevSt.off) ∧
    ((if Int.ofNat (2 * fld e1 0 8) < mv then true else if mv < Int.ofNat (2 * fld e1 0 8) - if fld e1 8 2 = 0 then 0 else Int.ofNat (2 * 2 ^ fld e1 8 2) then false else bit s.aon.raw 0) ≠ bit s.aon.raw 0) ∧
    (fld e1 12 2 = 0) ∧
    ((if Int.ofNat (2 * fld e1 0 8) < mv then true else if mv < Int.ofNat (2 * fld e1 0 8) - if fld e1 8 2 = 0 then 0 else Int.ofNat (2 * 2 ^ fld e1 8 2) then false else bit s.aon.raw 0) ≠ bit s.aon.inputs 0) ∧
    (bit e1 14 = true) ∧
    (bit e1 10 = true) ∧
    ((if Int.ofNat (2 * fld e1 0 8) < mv then true else if mv < Int.ofNat (2 * fld e1 0 8) - if fld e1 8 2 = 0 then 0 else Int.ofNat (2 * 2 ^ fld e1 8 2) then false else bit s.aon.raw 0) ≠ bit e1 11) ∧
    (bit s.pmu.levelHeld 0 = true) :=
  by and_intros <;> decide

theorem meets_InstrumentComparator_9 :
    let s : State := inst 0x4480 0
    let mv : ℤ := 257
    let e1 := tget cmpReset s.aon.cmp 0
    (s.pmu.dev ≠ DevSt.off) ∧
    ((if Int.ofNat (2 * fld e1 0 8) < mv then true else if mv < Int.ofNat (2 * fld e1 0 8) - if fld e1 8 2 = 0 then 0 else Int.ofNat (2 * 2 ^ fld e1 8 2) then false else bit s.aon.raw 0) ≠ bit s.aon.raw 0) ∧
    (fld e1 12 2 = 0) ∧
    ((if Int.ofNat (2 * fld e1 0 8) < mv then true else if mv < Int.ofNat (2 * fld e1 0 8) - if fld e1 8 2 = 0 then 0 else Int.ofNat (2 * 2 ^ fld e1 8 2) then false else bit s.aon.raw 0) ≠ bit s.aon.inputs 0) ∧
    (bit e1 14 = true) ∧
    (bit e1 10 = true) ∧
    ((if Int.ofNat (2 * fld e1 0 8) < mv then true else if mv < Int.ofNat (2 * fld e1 0 8) - if fld e1 8 2 = 0 then 0 else Int.ofNat (2 * 2 ^ fld e1 8 2) then false else bit s.aon.raw 0) ≠ bit e1 11) ∧
    (bit s.pmu.levelHeld 0 = false) ∧
    (s.aon.seq.waiting = false) ∧
    (s.pmu.dev = DevSt.run) :=
  by and_intros <;> decide

def pinR (v : W32) (h : Bool) : State := { pin v with aon.raw := if h then 0x20 else 0 }
def full7 : State := { pdm with pmu.dev := .run }
def pdmHib : State := { pdm with pmu.dev := .hibernate }
def last (i : Nat) : State := { aonS i with aon.seq.pc := 4095, aon.seq.prog := [(4095, BitVec.ofNat 32 i)] }
def offIns (op off : Nat) : State := { aonS (qw op 2 1 0 + off) with mem := [] }
def ioo (op o : Nat) : State := { aonS (qw op 2 0 0 + o) with mem := [] }
def lvl (n : Nat) (thr : W32) (f : List Decision) : State := { dec thr with aon.level := [(7, BitVec.ofNat 2 n)], aon.fifo := f, aon.seq.w := [(1, 7), (2, 5)] }

theorem meets_IslandInputs_11 :
    let s : State := (pin 0x4400)
    let n : Fin 4 := 3
    ∃ high : Bool, s.pmu.dev = DevSt.off ∨ bit s.aon.raw (2 + n.val) = high :=
  by decide +kernel

theorem meets_IslandUnits_32 :
    let s : State := (glitchy 0)
    fld s.aon.pdmCtrl 0 4 = 0 ∨ s.aon.pdmLen = 0 :=
  by decide +kernel

theorem meets_IslandUnits_33 :
    let s : State := (glitchy 0)
    (s.pmu.dev ≠ DevSt.off) ∧
    (∃ v : W32, fld v 4 2 = 3 ∨ 6 ≤ fld v 6 3) :=
  ⟨by decide +kernel, by decide +kernel⟩

theorem meets_IslandInputs_12 :
    let s : State := { pin 0x1000 with aon.raw := 0 }
    let n : Fin 4 := 3
    let high : Bool := true
    (s.pmu.dev ≠ DevSt.off) ∧
    (bit s.aon.raw (2 + n.val) ≠ high) ∧
    (fld (tget 0 s.aon.wakepin n.val) 12 2 ≠ 0 ∨ high = bit s.aon.inputs (2 + n.val)) :=
  ⟨by decide +kernel, by decide +kernel, by decide +kernel⟩

theorem meets_IslandInputs_13 :
    let s : State := pin 0
    let n : Fin 4 := 3
    let high : Bool := true
    (s.pmu.dev ≠ DevSt.off) ∧
    (bit s.aon.raw (2 + n.val) ≠ high) ∧
    (fld (tget 0 s.aon.wakepin n.val) 12 2 = 0) ∧
    (high ≠ bit s.aon.inputs (2 + n.val)) ∧
    (bit (tget 0 s.aon.wakepin n.val) 14 = false) :=
  ⟨by decide +kernel, by decide +kernel, by decide +kernel, by decide +kernel, by decide +kernel⟩

theorem meets_IslandInputs_14 :
    let s : State := pin 0x4800
    let n : Fin 4 := 3
    let high : Bool := true
    let e1 := tget 0 s.aon.wakepin n.val
    (s.pmu.dev ≠ DevSt.off) ∧
    (bit s.aon.raw (2 + n.val) ≠ high) ∧
    (fld e1 12 2 = 0) ∧
    (high ≠ bit s.aon.inputs (2 + n.val)) ∧
    (bit e1 14 = true) ∧
    (bit e1 10 = false) ∧
    (high = bit e1 11) :=
  ⟨by decide +kernel, by decide +kernel, by decide +kernel, by decide +kernel, by decide +kernel, by decide +kernel, by decide +kernel⟩

theorem meets_IslandInputs_15 :
    let s : State := pin 0x4C00
    let n : Fin 4 := 3
    let high : Bool := true
    let e1 := tget 0 s.aon.wakepin n.val
    (s.pmu.dev ≠ DevSt.off) ∧
    (bit s.aon.raw (2 + n.val) ≠ high) ∧
    (fld e1 12 2 = 0) ∧
    (high ≠ bit s.aon.inputs (2 + n.val)) ∧
    (bit e1 14 = true) ∧
    (bit e1 10 = true) ∧
    (high = bit e1 11) :=
  ⟨by decide +kernel, by decide +kernel, by decide +kernel, by decide +kernel, by decide +kernel, by decide +kernel, by decide +kernel⟩

theorem meets_IslandInputs_16 :
    let s : State := t1
    s.aon.seq.waiting = false :=
  by decide +kernel

theorem meets_IslandUnits_34 :
    let s : State := pdm
    let dat0 : List Bool := []
    let dat1 : List Bool := []
    (fld s.aon.pdmCtrl 0 4 ≠ 0) ∧
    (s.pmu.dev = DevSt.run) ∧
    (s.aon.seq.waiting = false) ∧
    (Memory.wf s.mem = true) ∧
    (s.aon.pdmBase.toNat + s.aon.pdmLen.toNat ≤ 524288) ∧
    (s.aon.pdmWptr.toNat < s.aon.pdmLen.toNat) ∧
    ((pdmBlock s.aon.pdmCtrl s.aon.pdmHeld dat0 dat1).length ≤ s.aon.pdmLen.toNat) :=
  ⟨by decide +kernel, by decide +kernel, by decide +kernel, by decide +kernel, by decide +kernel, by decide +kernel, by decide +kernel⟩

theorem meets_IslandUnits_35 :
    let s : State := pdmHib
    (fld s.aon.pdmCtrl 0 4 ≠ 0) ∧
    (s.pmu.dev = DevSt.hibernate) ∧
    (s.pmu.retAon = 0) ∧
    (s.aon.seq.waiting = false) ∧
    (s.aon.pdmBase.toNat + s.aon.pdmLen.toNat ≤ 524288) ∧
    (s.aon.pdmWptr.toNat < s.aon.pdmLen.toNat) :=
  ⟨by decide +kernel, by decide +kernel, by decide +kernel, by decide +kernel, by decide +kernel, by decide +kernel⟩

theorem meets_SequencerArithmetic_1 :
    let s : State := last (qw 0x01 3 1 2)
    let op : ℕ := 1
    let o : Host.Outcome State Fault Refusal := exec .seqAdd (last (qw 0x01 3 1 2))
    (s.aon.seq.halted = false) ∧
    (s.aon.seq.waiting = false) ∧
    (qLegal s.aon.seq.instr = true) ∧
    (s.aon.seq.pc = 4095) ∧
    ((op, o) ∈ [(0, exec Instr.seqNop s), (1, exec Instr.seqAdd s), (2, exec Instr.seqSub s), (3, exec Instr.seqAnd s), (4, exec Instr.seqOr s), (5, exec Instr.seqXor s), (6, exec Instr.seqShl s), (7, exec Instr.seqShr s), (8, exec Instr.seqSar s), (9, exec Instr.seqMul s), (10, exec Instr.seqMin s), (11, exec Instr.seqMax s), (16, exec Instr.seqAddi s), (17, exec Instr.seqAndi s), (18, exec Instr.seqOri s), (19, exec Instr.seqLui s)]) ∧
    (qOp s.aon.seq.instr = op) :=
  ⟨by decide +kernel, by decide +kernel, by decide +kernel, by decide +kernel, by simp, by decide +kernel⟩

theorem meets_SequencerFlow_11 :
    let s : State := aonS (qw 0x24 3 0 0 + 2)
    (Int.ofNat s.aon.seq.pc + (BitVec.ofNat 18 (BitVec.toNat s.aon.seq.instr)).toInt < 0 ∨ 4096 ≤ Int.ofNat s.aon.seq.pc + (BitVec.ofNat 18 (BitVec.toNat s.aon.seq.instr)).toInt) ∧
    (SeqAt s 36) :=
  ⟨by decide +kernel, seqOf (by decide +kernel)⟩

theorem meets_SequencerMemory_9 :
    let s : State := lastHalf 0x18
    let op : ℕ := 0x18
    let n : ℕ := 4
    let o : Host.Outcome State Fault Refusal := exec .seqLw (lastHalf 0x18)
    ((op, n, o) ∈ [(24, 4, exec Instr.seqLw s), (25, 4, exec Instr.seqSw s), (26, 2, exec Instr.seqLh s), (27, 2, exec Instr.seqSh s)]) ∧
    (SeqAt s op) ∧
    (BitVec.toNat ((if qA s.aon.seq.instr = 0 then 0 else tget 0 s.aon.seq.w (qA s.aon.seq.instr)) + BitVec.signExtend 32 (BitVec.ofNat 18 (BitVec.toNat s.aon.seq.instr))) % n ≠ 0) :=
  ⟨by simp, seqOf (by decide +kernel), by decide +kernel⟩

theorem meets_SequencerMemory_10 :
    let s : State := above 0x18
    let op : ℕ := 0x18
    let n : ℕ := 4
    let o : Host.Outcome State Fault Refusal := exec .seqLw (above 0x18)
    ((op, n, o) ∈ [(24, 4, exec Instr.seqLw s), (25, 4, exec Instr.seqSw s), (26, 2, exec Instr.seqLh s), (27, 2, exec Instr.seqSh s)]) ∧
    (SeqAt s op) ∧
    (BitVec.toNat ((if qA s.aon.seq.instr = 0 then 0 else tget 0 s.aon.seq.w (qA s.aon.seq.instr)) + BitVec.signExtend 32 (BitVec.ofNat 18 (BitVec.toNat s.aon.seq.instr))) % n = 0) ∧
    (524288 ≤ BitVec.toNat ((if qA s.aon.seq.instr = 0 then 0 else tget 0 s.aon.seq.w (qA s.aon.seq.instr)) + BitVec.signExtend 32 (BitVec.ofNat 18 (BitVec.toNat s.aon.seq.instr)))) :=
  ⟨by simp, seqOf (by decide +kernel), by decide +kernel, by decide +kernel⟩

theorem meets_SequencerMemory_11 :
    let s : State := bankOff7
    let op : ℕ := 0x1B
    let n : ℕ := 2
    let o : Host.Outcome State Fault Refusal := exec .seqSh bankOff7
    let e1 := BitVec.ofNat 18 (BitVec.toNat s.aon.seq.instr)
    ((op, n, o) ∈ [(24, 4, exec Instr.seqLw s), (25, 4, exec Instr.seqSw s), (26, 2, exec Instr.seqLh s), (27, 2, exec Instr.seqSh s)]) ∧
    (SeqAt s op) ∧
    (BitVec.toNat ((if qA s.aon.seq.instr = 0 then 0 else tget 0 s.aon.seq.w (qA s.aon.seq.instr)) + BitVec.signExtend 32 e1) % n = 0) ∧
    (BitVec.toNat ((if qA s.aon.seq.instr = 0 then 0 else tget 0 s.aon.seq.w (qA s.aon.seq.instr)) + BitVec.signExtend 32 e1) < 524288) ∧
    (s.bankOn (BitVec.toNat ((if qA s.aon.seq.instr = 0 then 0 else tget 0 s.aon.seq.w (qA s.aon.seq.instr)) + BitVec.signExtend 32 e1)) = false) :=
  ⟨by simp, seqOf (by decide +kernel), by decide +kernel, by decide +kernel, by decide +kernel⟩

theorem meets_SequencerUnits_14 :
    let s : State := ioo 0x28 508
    (SeqAt s 40) ∧
    (BitVec.toNat s.aon.seq.instr % 2 ^ 18 % 4 = 0) ∧
    (BitVec.toNat s.aon.seq.instr % 2 ^ 18 ≤ 508) :=
  ⟨seqOf (by decide +kernel), by decide +kernel, by decide +kernel⟩

theorem meets_SequencerUnits_15 :
    let s : State := ioo 0x28 509
    (SeqAt s 40) ∧
    (BitVec.toNat s.aon.seq.instr % 2 ^ 18 % 4 ≠ 0) :=
  ⟨seqOf (by decide +kernel), by decide +kernel⟩

theorem meets_SequencerUnits_16 :
    let s : State := ioo 0x29 1
    (SeqAt s 41) ∧
    (BitVec.toNat s.aon.seq.instr % 2 ^ 18 % 4 ≠ 0) :=
  ⟨seqOf (by decide +kernel), by decide +kernel⟩

theorem meets_SequencerUnits_17 :
    let s : State := ioo 0x29 0x70
    (SeqAt s 41) ∧
    (BitVec.toNat s.aon.seq.instr % 2 ^ 18 = 112) :=
  ⟨seqOf (by decide +kernel), by decide +kernel⟩

theorem meets_SequencerUnits_18 :
    let s : State := ioo 0x29 0x158
    (SeqAt s 41) ∧
    (BitVec.toNat s.aon.seq.instr % 2 ^ 18 = 336 ∨ BitVec.toNat s.aon.seq.instr % 2 ^ 18 = 340 ∨ BitVec.toNat s.aon.seq.instr % 2 ^ 18 = 344) :=
  ⟨seqOf (by decide +kernel), by decide +kernel⟩

theorem meets_SequencerUnits_19 :
    let s : State := lvl 1 0x0706 []
    let e1 := BitVec.toNat (if qA s.aon.seq.instr = 0 then 0 else tget 0 s.aon.seq.w (qA s.aon.seq.instr)) % 8
    (SeqAt s 46) ∧
    (BitVec.toNat (if qB s.aon.seq.instr = 0 then 0 else tget 0 s.aon.seq.w (qB s.aon.seq.instr)) % 256 < fld (tget thrReset s.aon.thr e1) 0 8) ∧
    (BitVec.toNat (if qB s.aon.seq.instr = 0 then 0 else tget 0 s.aon.seq.w (qB s.aon.seq.instr)) % 256 < fld (tget thrReset s.aon.thr e1) 8 8) ∧
    (tget 0 s.aon.level e1 ≠ 0) ∧
    (s.aon.fifo.length < 16) :=
  ⟨seqOf (by decide +kernel), by decide +kernel, by decide +kernel, by decide +kernel, by decide +kernel⟩

theorem meets_SequencerUnits_20 :
    let s : State := lvl 0 0x0403 (List.replicate 16 dec1)
    let e1 := BitVec.toNat (if qA s.aon.seq.instr = 0 then 0 else tget 0 s.aon.seq.w (qA s.aon.seq.instr)) % 8
    (SeqAt s 46) ∧
    (s.pmu.dev ≠ DevSt.off) ∧
    (fld (tget thrReset s.aon.thr e1) 8 8 ≤ BitVec.toNat (if qB s.aon.seq.instr = 0 then 0 else tget 0 s.aon.seq.w (qB s.aon.seq.instr)) % 256) ∧
    (tget 0 s.aon.level e1 = 0) ∧
    (16 ≤ s.aon.fifo.length) :=
  ⟨seqOf (by decide +kernel), by decide +kernel, by decide +kernel, by decide +kernel, by decide +kernel⟩

theorem meets_SequencerUnits_21 :
    let s : State := t1
    s.aon.shrewBusy = false :=
  by decide +kernel

end Part05

namespace Part06

def rg (x : Ring) : State := { t1 with rings := [(63, x)], glb.ready := true }
def lockedT : State := { t1 with key.tdi := .run }
def pk (op tc : Nat) (fs : List (Nat × Nat × Nat)) : List Byte := bytes 64 ([(0, 2, op), (4, 2, tc)] ++ fs)
def sqS : Ring := { sqCfg := 0x00010043, sqBase := 0x1000, sqTail := 0, sqHead := 15, cqCfg := 0x43 }
def reads (tc : Nat) : State := { t1 with rings := [(63, sqS)], mem := [(0x1000 + 64 * 15, 1), (0x1000 + 64 * 15 + 4, 1), (0x1000 + 64 * 15 + 5, BitVec.ofNat 8 tc)], glb.ready := true }
def nop0 : Cmd := rd 1 0 []
def nopBad : Cmd := rd 1 1 []
def nopRun : Cmd := { nop0 with phase := .running }
def abort7 : Cmd := { rd 2 4 [(0, 1, 63), (2, 2, 7)] with id := 2, tag := 8 }
def nop63 : Cmd := { nop0 with sq := 63 }
def aborts : State := { t1 with cmds := [nop63, abort7] }
def abortBad : Cmd := rd 2 5 []
def nopT : Cmd := { nop0 with timer := true, phase := .armed }
def upP : State := { t1 with slk.ports := [(3, { st := .up, rxSeq := 4095 })], glb.activeId := 5, glb.nodeStrap := 5 }
def cmdF : LinkFrame := { ftype := 2, vc := 1, tenant := 1, conf := false, crcOk := true, seq := 4095, src := 9, dst := 5, payload := [63, 0, 0, 0] ++ pk 0x01 0x0401 [(2, 2, 77)] }
def cplF : LinkFrame := { ftype := 3, vc := 1, tenant := 1, conf := false, crcOk := true, seq := 4095, src := 9, dst := 5, payload := bytes 36 [(4, 2, 7), (10, 2, 0x0107), (17, 1, 63), (28, 8, 0x1122)] }
def prox : Cmd := { nop63 with remote := some 9, cq := 255 }
def upC : State := { upP with cmds := [prox] }

theorem meets_RingWrites_1 :
    ((rg { sqBase := (64 : W64), sqTail := (3 : BitVec 12) : Machine.Ring }).offAt (393224 + 64 * 63) = false) ∧
    ((rg { sqBase := (64 : W64), sqTail := (3 : BitVec 12) : Machine.Ring }).tdiLocked = false) ∧
    (bit ((rg { sqBase := (64 : W64), sqTail := (3 : BitVec 12) : Machine.Ring }).ring 63).sqCfg 0 = false) ∧
    (bit (67045313 : W32) 0 = true) ∧
    (4 ≤ fld (67045313 : W32) 4 4) ∧
    (fld (67045313 : W32) 4 4 ≤ 12) ∧
    (BitVec.toNat ((rg { sqBase := (64 : W64), sqTail := (3 : BitVec 12) : Machine.Ring }).ring 63).sqBase % 64 = 0) ∧
    ((rg { sqBase := (64 : W64), sqTail := (3 : BitVec 12) : Machine.Ring }).glb.ready = true) ∧
    ((67045313 : W32) &&& (67045363 : W32) = (67045313 : W32)) :=
  by and_intros <;> decide

theorem meets_RingWrites_2 :
    ((rg { : Machine.Ring }).offAt (393224 + 64 * 63) = false) ∧
    ((rg { : Machine.Ring }).tdiLocked = false) ∧
    (bit ((rg { : Machine.Ring }).ring 63).sqCfg 0 = false) ∧
    (bit (209 : W32) 0 = true) ∧
    (12 < fld (209 : W32) 4 4) ∧
    ((209 : W32) &&& (67045363 : W32) = (209 : W32)) :=
  by and_intros <;> decide

theorem meets_RingWrites_3 :
    ((rg { sqCfg := (67 : W32) : Machine.Ring }).offAt (393224 + 64 * 63) = false) ∧
    ((rg { sqCfg := (67 : W32) : Machine.Ring }).tdiLocked = false) ∧
    (bit ((rg { sqCfg := (67 : W32) : Machine.Ring }).ring 63).sqCfg 0 = true) ∧
    (bit (66 : W32) 0 = false) ∧
    (BitVec.toNat (66 : W32) / 2 = BitVec.toNat ((rg { sqCfg := (67 : W32) : Machine.Ring }).ring 63).sqCfg / 2) ∧
    ((66 : W32) &&& (67045363 : W32) = (66 : W32)) :=
  by and_intros <;> decide

theorem meets_RingWrites_4 :
    ((rg { sqCfg := (67 : W32) : Machine.Ring }).offAt (393224 + 64 * 63) = false) ∧
    ((rg { sqCfg := (67 : W32) : Machine.Ring }).tdiLocked = false) ∧
    (bit ((rg { sqCfg := (67 : W32) : Machine.Ring }).ring 63).sqCfg 0 = true) ∧
    (bit (83 : W32) 0 = true) ∧
    (BitVec.toNat (83 : W32) / 2 ≠ BitVec.toNat ((rg { sqCfg := (67 : W32) : Machine.Ring }).ring 63).sqCfg / 2) ∧
    ((83 : W32) &&& (67045363 : W32) = (83 : W32)) :=
  by and_intros <;> decide

theorem meets_RingWrites_5 :
    (lockedT.offAt (393224 + 64 * 63) = false) ∧
    (lockedT.tdiLocked = true) ∧
    (bit ((1024 : W32) &&& (67045363 : W32)) 10 = true) :=
  ⟨by decide, by decide, by decide⟩

theorem meets_RingWrites_6 :
    ((rg { cqBase := (64 : W64), cqTail := (3 : BitVec 12) : Machine.Ring }).offAt (393244 + 64 * 63) = false) ∧
    ((rg { cqBase := (64 : W64), cqTail := (3 : BitVec 12) : Machine.Ring }).tdiLocked = false) ∧
    (bit ((rg { cqBase := (64 : W64), cqTail := (3 : BitVec 12) : Machine.Ring }).ring 63).cqCfg 0 = false) ∧
    (bit (449 : W32) 0 = true) ∧
    (4 ≤ fld (449 : W32) 4 4) ∧
    (fld (449 : W32) 4 4 ≤ 12) ∧
    (BitVec.toNat ((rg { cqBase := (64 : W64), cqTail := (3 : BitVec 12) : Machine.Ring }).ring 63).cqBase % 64 = 0) ∧
    ((rg { cqBase := (64 : W64), cqTail := (3 : BitVec 12) : Machine.Ring }).glb.ready = true) ∧
    ((449 : W32) &&& (499 : W32) = (449 : W32)) ∧
    (((rg { cqBase := (64 : W64), cqTail := (3 : BitVec 12) : Machine.Ring }).ring 63).held = []) :=
  by and_intros <;> decide

theorem meets_RingWrites_7 :
    ((rg { : Machine.Ring }).offAt (393244 + 64 * 63) = false) ∧
    ((rg { : Machine.Ring }).tdiLocked = false) ∧
    (bit ((rg { : Machine.Ring }).ring 63).cqCfg 0 = false) ∧
    (bit (49 : W32) 0 = true) ∧
    (fld (49 : W32) 4 4 < 4) ∧
    ((49 : W32) &&& (499 : W32) = (49 : W32)) :=
  by and_intros <;> decide

theorem meets_RingWrites_8 :
    ((rg { cqCfg := (67 : W32) : Machine.Ring }).offAt (393244 + 64 * 63) = false) ∧
    ((rg { cqCfg := (67 : W32) : Machine.Ring }).tdiLocked = false) ∧
    (bit ((rg { cqCfg := (67 : W32) : Machine.Ring }).ring 63).cqCfg 0 = true) ∧
    (bit (66 : W32) 0 = false) ∧
    (BitVec.toNat (66 : W32) / 2 = BitVec.toNat ((rg { cqCfg := (67 : W32) : Machine.Ring }).ring 63).cqCfg / 2) ∧
    ((66 : W32) &&& (499 : W32) = (66 : W32)) :=
  by and_intros <;> decide

theorem meets_RingWrites_9 :
    (t1.offAt 397312 = false) ∧
    (t1.tdiLocked = false) :=
  ⟨by decide, by decide⟩

theorem meets_RingWrites_10 :
    ((rg { sqCfg := (67 : W32) : Machine.Ring }).offAt (393228 + 64 * 63) = false) ∧
    (((rg { sqCfg := (67 : W32) : Machine.Ring }).ring 63).sqTail = ((rg { sqCfg := (67 : W32) : Machine.Ring }).ring 63).sqHead) ∧
    ((rg { sqCfg := (67 : W32) : Machine.Ring }).pmu.dev = DevSt.run) ∧
    (BitVec.toNat (15 : W32) % 4096 < ringSize ((rg { sqCfg := (67 : W32) : Machine.Ring }).ring 63).sqCfg) :=
  ⟨by decide, by decide, by decide, by decide⟩

theorem meets_RingWrites_11 :
    ((rg { sqCfg := (67 : W32) : Machine.Ring }).offAt (393228 + 64 * 63) = false) ∧
    (((rg { sqCfg := (67 : W32) : Machine.Ring }).ring 63).sqTail = ((rg { sqCfg := (67 : W32) : Machine.Ring }).ring 63).sqHead) ∧
    ((rg { sqCfg := (67 : W32) : Machine.Ring }).pmu.dev = DevSt.run) ∧
    (ringSize ((rg { sqCfg := (67 : W32) : Machine.Ring }).ring 63).sqCfg ≤ BitVec.toNat (16 : W32) % 4096) :=
  ⟨by decide, by decide, by decide, by decide⟩

theorem meets_RingWrites_12 :
    ((rg { cqCfg := (67 : W32), cqHead := (15 : BitVec 12), cqTail := (3 : BitVec 12) : Machine.Ring }).offAt (393248 + 64 * 63) = false) ∧
    (((rg { cqCfg := (67 : W32), cqHead := (15 : BitVec 12), cqTail := (3 : BitVec 12) : Machine.Ring }).ring 63).held = []) ∧
    (BitVec.toNat (3 : W32) % 4096 < ringSize ((rg { cqCfg := (67 : W32), cqHead := (15 : BitVec 12), cqTail := (3 : BitVec 12) : Machine.Ring }).ring 63).cqCfg) ∧
    ((BitVec.toNat (3 : W32) % 4096 + ringSize ((rg { cqCfg := (67 : W32), cqHead := (15 : BitVec 12), cqTail := (3 : BitVec 12) : Machine.Ring }).ring 63).cqCfg - ((rg { cqCfg := (67 : W32), cqHead := (15 : BitVec 12), cqTail := (3 : BitVec 12) : Machine.Ring }).ring 63).cqHead.toNat) % ringSize ((rg { cqCfg := (67 : W32), cqHead := (15 : BitVec 12), cqTail := (3 : BitVec 12) : Machine.Ring }).ring 63).cqCfg ≤ (((rg { cqCfg := (67 : W32), cqHead := (15 : BitVec 12), cqTail := (3 : BitVec 12) : Machine.Ring }).ring 63).cqTail.toNat + ringSize ((rg { cqCfg := (67 : W32), cqHead := (15 : BitVec 12), cqTail := (3 : BitVec 12) : Machine.Ring }).ring 63).cqCfg - ((rg { cqCfg := (67 : W32), cqHead := (15 : BitVec 12), cqTail := (3 : BitVec 12) : Machine.Ring }).ring 63).cqHead.toNat) % ringSize ((rg { cqCfg := (67 : W32), cqHead := (15 : BitVec 12), cqTail := (3 : BitVec 12) : Machine.Ring }).ring 63).cqCfg) :=
  ⟨by decide, by decide, by decide, by decide⟩

theorem meets_RingWrites_13 :
    ((rg { cqCfg := (67 : W32), cqHead := (15 : BitVec 12), cqTail := (3 : BitVec 12) : Machine.Ring }).offAt (393248 + 64 * 63) = false) ∧
    (((rg { cqCfg := (67 : W32), cqHead := (15 : BitVec 12), cqTail := (3 : BitVec 12) : Machine.Ring }).ring 63).held = []) ∧
    ((((rg { cqCfg := (67 : W32), cqHead := (15 : BitVec 12), cqTail := (3 : BitVec 12) : Machine.Ring }).ring 63).cqTail.toNat + ringSize ((rg { cqCfg := (67 : W32), cqHead := (15 : BitVec 12), cqTail := (3 : BitVec 12) : Machine.Ring }).ring 63).cqCfg - ((rg { cqCfg := (67 : W32), cqHead := (15 : BitVec 12), cqTail := (3 : BitVec 12) : Machine.Ring }).ring 63).cqHead.toNat) % ringSize ((rg { cqCfg := (67 : W32), cqHead := (15 : BitVec 12), cqTail := (3 : BitVec 12) : Machine.Ring }).ring 63).cqCfg < (BitVec.toNat (4 : W32) % 4096 + ringSize ((rg { cqCfg := (67 : W32), cqHead := (15 : BitVec 12), cqTail := (3 : BitVec 12) : Machine.Ring }).ring 63).cqCfg - ((rg { cqCfg := (67 : W32), cqHead := (15 : BitVec 12), cqTail := (3 : BitVec 12) : Machine.Ring }).ring 63).cqHead.toNat) % ringSize ((rg { cqCfg := (67 : W32), cqHead := (15 : BitVec 12), cqTail := (3 : BitVec 12) : Machine.Ring }).ring 63).cqCfg) :=
  ⟨by decide, by decide, by decide⟩

theorem meets_HeaderChecks_1 :
    (leAt (pk 1 4096 []) 4 2 / 4096 ≠ 0) :=
  by decide

theorem meets_HeaderChecks_1b :
    (leAt (pk 1 3073 []) 4 2 / 1024 % 4 = 3) :=
  by decide

theorem meets_HeaderChecks_1c :
    (leAt (pk 1 1025 [(20, 2, 41)]) 7 1 % 2 = 0 ∧ 40 < leAt (pk 1 1025 [(20, 2, 41)]) 20 2) :=
  by decide

theorem meets_HeaderChecks_2 :
    (leAt (pk 3 1025 []) 4 2 / 4096 = 0 ∧ leAt (pk 3 1025 []) 6 1 < 64 ∧ leAt (pk 3 1025 []) 7 1 < 8 ∧ leAt (pk 3 1025 []) 22 2 = 0 ∧ leAt (pk 3 1025 []) 4 2 / 1024 % 4 ≠ 3 ∧ leAt (pk 3 1025 []) 7 1 % 2 = 0 ∧ leAt (pk 3 1025 []) 20 2 ≤ 40) ∧
    (leAt (pk 3 1025 []) 0 2 ∉ [1, 2, 16, 17, 18, 19, 20, 32, 33, 48, 49, 50, 51, 52, 64, 65, 80, 81, 82, 96, 97, 112, 113, 114, 115, 128, 144, 160, 176, 192, 193, 208]) :=
  ⟨by decide, by decide⟩

theorem meets_HeaderChecks_3 :
    (leAt (pk 16 1025 []) 4 2 / 4096 = 0 ∧ leAt (pk 16 1025 []) 6 1 < 64 ∧ leAt (pk 16 1025 []) 7 1 < 8 ∧ leAt (pk 16 1025 []) 22 2 = 0 ∧ leAt (pk 16 1025 []) 4 2 / 1024 % 4 ≠ 3 ∧ leAt (pk 16 1025 []) 7 1 % 2 = 0 ∧ leAt (pk 16 1025 []) 20 2 ≤ 40) ∧
    (leAt (pk 16 1025 []) 0 2 ∈ [16, 17, 18, 96, 97, 112, 113, 114, 115, 144, 160]) ∧
    (bit (65536 : W32) 10 = false) :=
  ⟨by decide, by decide, by decide⟩

theorem meets_HeaderChecks_4 :
    (leAt (pk 1 1025 []) 4 2 / 4096 = 0 ∧ leAt (pk 1 1025 []) 6 1 < 64 ∧ leAt (pk 1 1025 []) 7 1 < 8 ∧ leAt (pk 1 1025 []) 22 2 = 0 ∧ leAt (pk 1 1025 []) 4 2 / 1024 % 4 ≠ 3 ∧ leAt (pk 1 1025 []) 7 1 % 2 = 0 ∧ leAt (pk 1 1025 []) 20 2 ≤ 40) ∧
    (leAt (pk 1 1025 []) 0 2 ∈ [1, 2, 16, 17, 18, 19, 20, 32, 33, 48, 49, 50, 51, 52, 64, 65, 80, 81, 82, 96, 97, 112, 113, 114, 115, 128, 144, 160, 176, 192, 193, 208]) ∧
    (leAt (pk 1 1025 []) 0 2 ∉ [16, 17, 18, 96, 97, 112, 113, 114, 115, 144, 160]) ∧
    (bit (131072 : W32) 10 = false) ∧
    (leAt (pk 1 1025 []) 4 2 % 1024 ≠ fld (131072 : W32) 16 10) :=
  by and_intros <;> decide

theorem meets_HeaderChecks_5 :
    (leAt (pk 48 2 []) 4 2 / 4096 = 0 ∧ leAt (pk 48 2 []) 6 1 < 64 ∧ leAt (pk 48 2 []) 7 1 < 8 ∧ leAt (pk 48 2 []) 22 2 = 0 ∧ leAt (pk 48 2 []) 4 2 / 1024 % 4 ≠ 3 ∧ leAt (pk 48 2 []) 7 1 % 2 = 0 ∧ leAt (pk 48 2 []) 20 2 ≤ 40) ∧
    (leAt (pk 48 2 []) 0 2 ∈ [48, 49, 50, 51, 52] ++ [32, 33, 64, 65, 80, 81, 82, 176]) ∧
    (t1.tenant (leAt (pk 48 2 []) 4 2 % 1024) = none) ∧
    (bit (1024 : W32) 10 = true) :=
  ⟨by decide, by decide, by decide, by decide⟩

theorem meets_HeaderChecks_6 :
    (leAt (pk 48 1025 []) 4 2 / 4096 = 0 ∧ leAt (pk 48 1025 []) 6 1 < 64 ∧ leAt (pk 48 1025 []) 7 1 < 8 ∧ leAt (pk 48 1025 []) 22 2 = 0 ∧ leAt (pk 48 1025 []) 4 2 / 1024 % 4 ≠ 3 ∧ leAt (pk 48 1025 []) 7 1 % 2 = 0 ∧ leAt (pk 48 1025 []) 20 2 ≤ 40) ∧
    (leAt (pk 48 1025 []) 0 2 ∈ [1, 2, 16, 17, 18, 19, 20, 32, 33, 48, 49, 50, 51, 52, 64, 65, 80, 81, 82, 96, 97, 112, 113, 114, 115, 128, 144, 160, 176, 192, 193, 208] ∧ (leAt (pk 48 1025 []) 0 2 ∈ [16, 17, 18, 96, 97, 112, 113, 114, 115, 144, 160] → bit (65536 : W32) 10 = true) ∧ (bit (65536 : W32) 10 = true ∨ leAt (pk 48 1025 []) 4 2 % 1024 = fld (65536 : W32) 16 10) ∧ t1.tenant (leAt (pk 48 1025 []) 4 2 % 1024) ≠ none) ∧
    (leAt (pk 48 1025 []) 0 2 ∈ [48, 49, 50, 51, 52] ∧ leAt (pk 48 1025 []) 4 2 / 1024 % 4 ≠ 0) :=
  ⟨by decide, ⟨by decide, by decide, by decide, by decide⟩, by decide⟩

theorem meets_HeaderChecks_6b :
    (leAt (pk 192 1025 []) 4 2 / 4096 = 0 ∧ leAt (pk 192 1025 []) 6 1 < 64 ∧ leAt (pk 192 1025 []) 7 1 < 8 ∧ leAt (pk 192 1025 []) 22 2 = 0 ∧ leAt (pk 192 1025 []) 4 2 / 1024 % 4 ≠ 3 ∧ leAt (pk 192 1025 []) 7 1 % 2 = 0 ∧ leAt (pk 192 1025 []) 20 2 ≤ 40) ∧
    (leAt (pk 192 1025 []) 0 2 ∈ [1, 2, 16, 17, 18, 19, 20, 32, 33, 48, 49, 50, 51, 52, 64, 65, 80, 81, 82, 96, 97, 112, 113, 114, 115, 128, 144, 160, 176, 192, 193, 208] ∧ (leAt (pk 192 1025 []) 0 2 ∈ [16, 17, 18, 96, 97, 112, 113, 114, 115, 144, 160] → bit (65536 : W32) 10 = true) ∧ (bit (65536 : W32) 10 = true ∨ leAt (pk 192 1025 []) 4 2 % 1024 = fld (65536 : W32) 16 10) ∧ t1.tenant (leAt (pk 192 1025 []) 4 2 % 1024) ≠ none) ∧
    ((leAt (pk 192 1025 []) 0 2 = 192 ∨ leAt (pk 192 1025 []) 0 2 = 193) ∧ leAt (pk 192 1025 []) 4 2 / 1024 % 4 ≠ 2) :=
  ⟨by decide, ⟨by decide, by decide, by decide, by decide⟩, by decide⟩

theorem meets_HeaderChecks_7 :
    (leAt (pk 192 2049 []) 4 2 / 4096 = 0 ∧ leAt (pk 192 2049 []) 6 1 < 64 ∧ leAt (pk 192 2049 []) 7 1 < 8 ∧ leAt (pk 192 2049 []) 22 2 = 0 ∧ leAt (pk 192 2049 []) 4 2 / 1024 % 4 ≠ 3 ∧ leAt (pk 192 2049 []) 7 1 % 2 = 0 ∧ leAt (pk 192 2049 []) 20 2 ≤ 40) ∧
    (leAt (pk 192 2049 []) 0 2 ∈ [1, 2, 16, 17, 18, 19, 20, 32, 33, 48, 49, 50, 51, 52, 64, 65, 80, 81, 82, 96, 97, 112, 113, 114, 115, 128, 144, 160, 176, 192, 193, 208] ∧ (leAt (pk 192 2049 []) 0 2 ∈ [16, 17, 18, 96, 97, 112, 113, 114, 115, 144, 160] → bit (65536 : W32) 10 = true) ∧ (bit (65536 : W32) 10 = true ∨ leAt (pk 192 2049 []) 4 2 % 1024 = fld (65536 : W32) 16 10) ∧ t1.tenant (leAt (pk 192 2049 []) 4 2 % 1024) ≠ none) ∧
    (leAt (pk 192 2049 []) 0 2 ∈ [48, 49, 50, 51, 52] → leAt (pk 192 2049 []) 4 2 / 1024 % 4 = 0) ∧
    (leAt (pk 192 2049 []) 0 2 ∈ [32, 33, 64, 65, 80, 81, 82, 176] → leAt (pk 192 2049 []) 4 2 / 1024 % 4 ≠ 0) ∧
    (leAt (pk 192 2049 []) 0 2 = 192 ∨ leAt (pk 192 2049 []) 0 2 = 193 → leAt (pk 192 2049 []) 4 2 / 1024 % 4 = 2) :=
  ⟨by decide, ⟨by decide, by decide, by decide, by decide⟩, by decide, by decide, by decide⟩

theorem meets_CommandReads_3 :
    ((reads 4).nextRing ≠ some 62) :=
  by decide

theorem meets_NopAndAbort_1 :
    (Ready (hold nop0 t1) nop0 1) ∧
    (nop0.params = []) :=
  ⟨readyOf (by decide), by decide⟩

theorem meets_NopAndAbort_2 :
    (Ready (hold nopBad t1) nopBad 1) ∧
    (nopBad.params ≠ []) :=
  ⟨readyOf (by decide), by decide⟩

theorem meets_NopAndAbort_3 :
    (t1.cmd 1 = none) :=
  by decide

theorem meets_NopAndAbort_4 :
    ((hold nopRun t1).cmd nopRun.id = some nopRun) ∧
    (nopRun.phase ≠ Phase.read) :=
  ⟨by decide, by decide⟩

theorem meets_NopAndAbort_5 :
    (Ready (hold abort7 t1) abort7 2) ∧
    (abort7.params.length = 4) ∧
    (abort7.p 0 1 < 64) ∧
    (abort7.p 1 1 = 0) ∧
    (∀ d ∈ (hold abort7 t1).cmds, d.id ≠ abort7.id → ¬(d.tenant = abort7.tenant ∧ d.sq = abort7.p 0 1 ∧ BitVec.toNat d.tag = abort7.p 2 2)) :=
  ⟨readyOf (by decide), by decide, by decide, by decide, by decide⟩

theorem meets_NopAndAbort_6 :
    (Ready aborts abort7 2) ∧
    (abort7.params.length = 4) ∧
    (abort7.p 0 1 < 64) ∧
    (abort7.p 1 1 = 0) ∧
    (aborts.jobs = []) ∧
    (aborts.pools = []) ∧
    (aborts.cmds = [nop63, abort7]) ∧
    (nop63.id ≠ abort7.id) ∧
    (nop63.tenant = abort7.tenant) ∧
    (nop63.sq = abort7.p 0 1) ∧
    (BitVec.toNat nop63.tag = abort7.p 2 2) ∧
    (nop63.proxied = abort7.proxied) ∧
    (aborts.key.walk = none) ∧
    (nop63.op = 1) ∧
    (nop63.epoch = none) ∧
    (nop63.opRows = []) :=
  ⟨readyOf (by decide), by and_intros <;> decide⟩

theorem meets_NopAndAbort_7 :
    (Ready (hold abortBad t1) abortBad 2) ∧
    (abortBad.params.length ≠ 4) :=
  ⟨readyOf (by decide), by decide⟩

theorem meets_TimersAndProxies_1 :
    ((hold nopT t1).cmd nopT.id = some nopT) ∧
    (nopT.timer = true) ∧
    ((hold nopT t1).jobs = []) ∧
    ((hold nopT t1).pools = []) ∧
    (nopT.op = 1) ∧
    (nopT.epoch = none) ∧
    (nopT.opRows = []) :=
  by and_intros <;> decide

theorem meets_TimersAndProxies_2 :
    ((hold nopT t1).cmd nopT.id = some nopT) ∧
    (nopT.timer = true) :=
  ⟨by decide, by decide⟩

theorem meets_TimersAndProxies_3 :
    ((hold nop0 t1).cmd nop0.id = some nop0) ∧
    (nop0.timer = false) :=
  ⟨by decide, by decide⟩

theorem meets_TimersAndProxies_4 :
    ((upP.slp 3).st = SlkSt.up) ∧
    (cmdF.crcOk = true) ∧
    (cmdF.seq = (upP.slp 3).rxSeq) ∧
    (cmdF.dst.toNat = upP.node) ∧
    (cmdF.conf = false) ∧
    (cmdF.ftype = (2 : BitVec 8)) ∧
    (pktIndirect (slice cmdF.payload 4 64) = false) ∧
    (headerCheck upP (1024 : W32) (slice cmdF.payload 4 64) = none) :=
  by and_intros <;> decide

theorem meets_TimersAndProxies_5 :
    ((upP.slp 3).st = SlkSt.up) ∧
    (cplF.crcOk = true) ∧
    (cplF.seq = (upP.slp 3).rxSeq) ∧
    (cplF.dst.toNat = upP.node) ∧
    (cplF.conf = false) ∧
    (cplF.ftype = (3 : BitVec 8)) ∧
    (∀ c ∈ upP.cmds, c.remote = none) :=
  by and_intros <;> decide

theorem meets_TimersAndProxies_6 :
    ((upC.slp 3).st = SlkSt.up) ∧
    (cplF.crcOk = true) ∧
    (cplF.seq = (upC.slp 3).rxSeq) ∧
    (cplF.dst.toNat = upC.node) ∧
    (cplF.conf = false) ∧
    (cplF.ftype = (3 : BitVec 8)) ∧
    (upC.cmds = [prox]) ∧
    (prox.remote.isSome = true) ∧
    (prox.sq = leAt cplF.payload 17 1) ∧
    (BitVec.toNat prox.tag = leAt cplF.payload 4 2) :=
  by and_intros <;> decide

def readsT (tc o : Nat) (d : Byte) : State := { reads tc with mem := [(0x1000 + 64 * 15, 1), (0x1000 + 64 * 15 + 4, 1), (0x1000 + 64 * 15 + 5, BitVec.ofNat 8 tc), (0x1000 + 64 * 15 + 14, d), (0x1000 + 64 * 15 + o, 1)] }
def cmdMore : LinkFrame := { cmdF with payload := [63, 6, 0, 0] ++ pk 0x01 0x0401 [(2, 2, 77)] }
def cmdOne : LinkFrame := { cmdF with payload := [63, 4, 0, 0] ++ pk 0x01 0x0401 [(2, 2, 77)] }

theorem meets_TimersAndProxies_7 :
    let s : State := upP
    let port : Fin 4 := 3
    let f : LinkFrame := cmdMore
    ((s.slp port.val).st = SlkSt.up) ∧
    (f.crcOk = true) ∧
    (f.seq = (s.slp port.val).rxSeq) ∧
    (f.dst.toNat = s.node) ∧
    (f.conf = false) ∧
    (f.ftype = 2) ∧
    (bitN (leAt f.payload 1 1) 1 = true) ∧
    (bitN (leAt f.payload 1 1) 2 = true) :=
  by and_intros <;> decide

def noHost : HostFetch := { packet := none, params := none }
def pcieRing : State := { reads 4 with rings := [(63, { sqS with sqCfg := 0x00010041 })] }
def pkt0 : List Byte := (reads 4).sramRead (0x1000 + 64 * 15) 64
def pxRing : State := { reads 4 with rings := [(63, { sqS with proxy := some 9 })] }
def boundR (o : Byte) : State := { reads 4 with rings := [(63, { sqS with bound := some 3 })], mem := [(0x1000 + 64 * 15, o), (0x1000 + 64 * 15 + 4, 1), (0x1000 + 64 * 15 + 5, 4)] }
def hdrOf (o : Byte) : List Byte := (boundR o).sramRead (0x1000 + 64 * 15) 64
def lockedCmd : Cmd := { nop0 with timer := true, remote := some 9 }
def dlT : Cmd := { nopT with due := 0x0009000000000007 }
def cmdG : LinkFrame := { cmdF with payload := [63, 4, 0, 0, 0, 0, 0, 0] ++ pk 0x01 0x0401 [(2, 2, 77)] }
def cplG : LinkFrame := { cplF with payload := bytes 40 [(4, 2, 7), (10, 2, 0x0107), (17, 1, 63), (28, 8, 0x1122), (36, 4, 1)] }
def noHost6 : HostFetch := { packet := none, params := none }
def boundR6 (o : Byte) : State := { reads 4 with rings := [(63, { sqS with bound := some 3 })], mem := [(0x1000 + 64 * 15, o), (0x1000 + 64 * 15 + 4, 1), (0x1000 + 64 * 15 + 5, 4)] }

theorem meets_CommandReads_4 :
    let s : State := (readsT 4 16 0)
    let n : Fin 64 := 63
    (s.nextRing = some n.val) ∧
    (bit (s.ring n.val).sqCfg 1 = true) ∧
    (BitVec.toNat (s.ring n.val).sqBase + 64 * (s.ring n.val).sqHead.toNat + 64 ≤ 4194304) ∧
    ((s.ring n.val).proxy = none) ∧
    ((s.ring n.val).bound = none) ∧
    ((s.ring n.val).unbind = none) ∧
    (pktIndirect (List.map (fun i => mread s.mem (BitVec.toNat (s.ring n.val).sqBase + 64 * (s.ring n.val).sqHead.toNat + i)) (List.range 64)) = false) ∧
    ((s.ring (cmdOf s.gcp.nextId n.val (List.map (fun i => mread s.mem (BitVec.toNat (s.ring n.val).sqBase + 64 * (s.ring n.val).sqHead.toNat + i)) (List.range 64)) (slice (List.map (fun i => mread s.mem (BitVec.toNat (s.ring n.val).sqBase + 64 * (s.ring n.val).sqHead.toNat + i)) (List.range 64)) 24 (pktLen (List.map (fun i => mread s.mem (BitVec.toNat (s.ring n.val).sqBase + 64 * (s.ring n.val).sqHead.toNat + i)) (List.range 64))))).cq).held = []) ∧
    (headerCheck s (s.ring n.val).sqCfg (List.map (fun i => mread s.mem (BitVec.toNat (s.ring n.val).sqBase + 64 * (s.ring n.val).sqHead.toNat + i)) (List.range 64)) = none) ∧
    ((cmdOf s.gcp.nextId n.val (List.map (fun i => mread s.mem (BitVec.toNat (s.ring n.val).sqBase + 64 * (s.ring n.val).sqHead.toNat + i)) (List.range 64)) (slice (List.map (fun i => mread s.mem (BitVec.toNat (s.ring n.val).sqBase + 64 * (s.ring n.val).sqHead.toNat + i)) (List.range 64)) 24 (pktLen (List.map (fun i => mread s.mem (BitVec.toNat (s.ring n.val).sqBase + 64 * (s.ring n.val).sqHead.toNat + i)) (List.range 64))))).op ≠ 97) ∧
    (BitVec.toNat (cmdOf s.gcp.nextId n.val (List.map (fun i => mread s.mem (BitVec.toNat (s.ring n.val).sqBase + 64 * (s.ring n.val).sqHead.toNat + i)) (List.range 64)) (slice (List.map (fun i => mread s.mem (BitVec.toNat (s.ring n.val).sqBase + 64 * (s.ring n.val).sqHead.toNat + i)) (List.range 64)) 24 (pktLen (List.map (fun i => mread s.mem (BitVec.toNat (s.ring n.val).sqBase + 64 * (s.ring n.val).sqHead.toNat + i)) (List.range 64))))).timeout % 2 ^ 31 ≠ 0 ∧ ¬(dueIs (cmdOf s.gcp.nextId n.val (List.map (fun i => mread s.mem (BitVec.toNat (s.ring n.val).sqBase + 64 * (s.ring n.val).sqHead.toNat + i)) (List.range 64)) (slice (List.map (fun i => mread s.mem (BitVec.toNat (s.ring n.val).sqBase + 64 * (s.ring n.val).sqHead.toNat + i)) (List.range 64)) 24 (pktLen (List.map (fun i => mread s.mem (BitVec.toNat (s.ring n.val).sqBase + 64 * (s.ring n.val).sqHead.toNat + i)) (List.range 64))))).due 0 = true ∨ dueIs (cmdOf s.gcp.nextId n.val (List.map (fun i => mread s.mem (BitVec.toNat (s.ring n.val).sqBase + 64 * (s.ring n.val).sqHead.toNat + i)) (List.range 64)) (slice (List.map (fun i => mread s.mem (BitVec.toNat (s.ring n.val).sqBase + 64 * (s.ring n.val).sqHead.toNat + i)) (List.range 64)) 24 (pktLen (List.map (fun i => mread s.mem (BitVec.toNat (s.ring n.val).sqBase + 64 * (s.ring n.val).sqHead.toNat + i)) (List.range 64))))).due 1 = true)) :=
  ⟨by decide +kernel, by decide +kernel, by decide +kernel, by decide +kernel, by decide +kernel, by decide +kernel, by decide +kernel, by decide +kernel, by decide +kernel, by decide +kernel, by decide +kernel⟩

theorem meets_CommandReads_5 :
    let s : State := (readsT 4 16 1)
    let n : Fin 64 := 63
    (s.nextRing = some n.val) ∧
    (bit (s.ring n.val).sqCfg 1 = true) ∧
    (BitVec.toNat (s.ring n.val).sqBase + 64 * (s.ring n.val).sqHead.toNat + 64 ≤ 4194304) ∧
    ((s.ring n.val).proxy = none) ∧
    ((s.ring n.val).bound = none) ∧
    ((s.ring n.val).unbind = none) ∧
    (pktIndirect (List.map (fun i => mread s.mem (BitVec.toNat (s.ring n.val).sqBase + 64 * (s.ring n.val).sqHead.toNat + i)) (List.range 64)) = false) ∧
    ((s.ring (cmdOf s.gcp.nextId n.val (List.map (fun i => mread s.mem (BitVec.toNat (s.ring n.val).sqBase + 64 * (s.ring n.val).sqHead.toNat + i)) (List.range 64)) (slice (List.map (fun i => mread s.mem (BitVec.toNat (s.ring n.val).sqBase + 64 * (s.ring n.val).sqHead.toNat + i)) (List.range 64)) 24 (pktLen (List.map (fun i => mread s.mem (BitVec.toNat (s.ring n.val).sqBase + 64 * (s.ring n.val).sqHead.toNat + i)) (List.range 64))))).cq).held = []) ∧
    (headerCheck s (s.ring n.val).sqCfg (List.map (fun i => mread s.mem (BitVec.toNat (s.ring n.val).sqBase + 64 * (s.ring n.val).sqHead.toNat + i)) (List.range 64)) = none) ∧
    ((cmdOf s.gcp.nextId n.val (List.map (fun i => mread s.mem (BitVec.toNat (s.ring n.val).sqBase + 64 * (s.ring n.val).sqHead.toNat + i)) (List.range 64)) (slice (List.map (fun i => mread s.mem (BitVec.toNat (s.ring n.val).sqBase + 64 * (s.ring n.val).sqHead.toNat + i)) (List.range 64)) 24 (pktLen (List.map (fun i => mread s.mem (BitVec.toNat (s.ring n.val).sqBase + 64 * (s.ring n.val).sqHead.toNat + i)) (List.range 64))))).op ≠ 97) ∧
    (BitVec.toNat (cmdOf s.gcp.nextId n.val (List.map (fun i => mread s.mem (BitVec.toNat (s.ring n.val).sqBase + 64 * (s.ring n.val).sqHead.toNat + i)) (List.range 64)) (slice (List.map (fun i => mread s.mem (BitVec.toNat (s.ring n.val).sqBase + 64 * (s.ring n.val).sqHead.toNat + i)) (List.range 64)) 24 (pktLen (List.map (fun i => mread s.mem (BitVec.toNat (s.ring n.val).sqBase + 64 * (s.ring n.val).sqHead.toNat + i)) (List.range 64))))).timeout % 2 ^ 31 ≠ 0 ∧ (dueIs (cmdOf s.gcp.nextId n.val (List.map (fun i => mread s.mem (BitVec.toNat (s.ring n.val).sqBase + 64 * (s.ring n.val).sqHead.toNat + i)) (List.range 64)) (slice (List.map (fun i => mread s.mem (BitVec.toNat (s.ring n.val).sqBase + 64 * (s.ring n.val).sqHead.toNat + i)) (List.range 64)) 24 (pktLen (List.map (fun i => mread s.mem (BitVec.toNat (s.ring n.val).sqBase + 64 * (s.ring n.val).sqHead.toNat + i)) (List.range 64))))).due 0 = true ∨ dueIs (cmdOf s.gcp.nextId n.val (List.map (fun i => mread s.mem (BitVec.toNat (s.ring n.val).sqBase + 64 * (s.ring n.val).sqHead.toNat + i)) (List.range 64)) (slice (List.map (fun i => mread s.mem (BitVec.toNat (s.ring n.val).sqBase + 64 * (s.ring n.val).sqHead.toNat + i)) (List.range 64)) 24 (pktLen (List.map (fun i => mread s.mem (BitVec.toNat (s.ring n.val).sqBase + 64 * (s.ring n.val).sqHead.toNat + i)) (List.range 64))))).due 1 = true)) :=
  ⟨by decide +kernel, by decide +kernel, by decide +kernel, by decide +kernel, by decide +kernel, by decide +kernel, by decide +kernel, by decide +kernel, by decide +kernel, by decide +kernel, by decide +kernel⟩

theorem meets_CommandReads_6 :
    let s : State := (reads 4)
    let n : Fin 64 := 63
    (s.nextRing = some n.val) ∧
    (bit (s.ring n.val).sqCfg 1 = true) ∧
    (BitVec.toNat (s.ring n.val).sqBase + 64 * (s.ring n.val).sqHead.toNat + 64 ≤ 4194304) ∧
    ((s.ring n.val).proxy = none) ∧
    ((s.ring n.val).bound = none) ∧
    ((s.ring n.val).unbind = none) ∧
    (pktIndirect (List.map (fun i => mread s.mem (BitVec.toNat (s.ring n.val).sqBase + 64 * (s.ring n.val).sqHead.toNat + i)) (List.range 64)) = false) ∧
    ((s.ring (cmdOf s.gcp.nextId n.val (List.map (fun i => mread s.mem (BitVec.toNat (s.ring n.val).sqBase + 64 * (s.ring n.val).sqHead.toNat + i)) (List.range 64)) (slice (List.map (fun i => mread s.mem (BitVec.toNat (s.ring n.val).sqBase + 64 * (s.ring n.val).sqHead.toNat + i)) (List.range 64)) 24 (pktLen (List.map (fun i => mread s.mem (BitVec.toNat (s.ring n.val).sqBase + 64 * (s.ring n.val).sqHead.toNat + i)) (List.range 64))))).cq).held = []) ∧
    (headerCheck s (s.ring n.val).sqCfg (List.map (fun i => mread s.mem (BitVec.toNat (s.ring n.val).sqBase + 64 * (s.ring n.val).sqHead.toNat + i)) (List.range 64)) = none) ∧
    ((cmdOf s.gcp.nextId n.val (List.map (fun i => mread s.mem (BitVec.toNat (s.ring n.val).sqBase + 64 * (s.ring n.val).sqHead.toNat + i)) (List.range 64)) (slice (List.map (fun i => mread s.mem (BitVec.toNat (s.ring n.val).sqBase + 64 * (s.ring n.val).sqHead.toNat + i)) (List.range 64)) 24 (pktLen (List.map (fun i => mread s.mem (BitVec.toNat (s.ring n.val).sqBase + 64 * (s.ring n.val).sqHead.toNat + i)) (List.range 64))))).op ≠ 97) ∧
    (¬BitVec.toNat (cmdOf s.gcp.nextId n.val (List.map (fun i => mread s.mem (BitVec.toNat (s.ring n.val).sqBase + 64 * (s.ring n.val).sqHead.toNat + i)) (List.range 64)) (slice (List.map (fun i => mread s.mem (BitVec.toNat (s.ring n.val).sqBase + 64 * (s.ring n.val).sqHead.toNat + i)) (List.range 64)) 24 (pktLen (List.map (fun i => mread s.mem (BitVec.toNat (s.ring n.val).sqBase + 64 * (s.ring n.val).sqHead.toNat + i)) (List.range 64))))).timeout % 2 ^ 31 ≠ 0) :=
  ⟨by decide +kernel, by decide +kernel, by decide +kernel, by decide +kernel, by decide +kernel, by decide +kernel, by decide +kernel, by decide +kernel, by decide +kernel, by decide +kernel, by decide +kernel⟩

theorem meets_CommandReads_7 :
    let s : State := (reads 12)
    let n : Fin 64 := 63
    (s.nextRing = some n.val) ∧
    (bit (s.ring n.val).sqCfg 1 = true) ∧
    (BitVec.toNat (s.ring n.val).sqBase + 64 * (s.ring n.val).sqHead.toNat + 64 ≤ 4194304) ∧
    ((s.ring n.val).proxy = none) ∧
    ((s.ring n.val).bound = none) ∧
    ((s.ring n.val).unbind = none) ∧
    (pktIndirect (List.map (fun i => mread s.mem (BitVec.toNat (s.ring n.val).sqBase + 64 * (s.ring n.val).sqHead.toNat + i)) (List.range 64)) = false) ∧
    ((s.ring (cmdOf s.gcp.nextId n.val (List.map (fun i => mread s.mem (BitVec.toNat (s.ring n.val).sqBase + 64 * (s.ring n.val).sqHead.toNat + i)) (List.range 64)) (slice (List.map (fun i => mread s.mem (BitVec.toNat (s.ring n.val).sqBase + 64 * (s.ring n.val).sqHead.toNat + i)) (List.range 64)) 24 (pktLen (List.map (fun i => mread s.mem (BitVec.toNat (s.ring n.val).sqBase + 64 * (s.ring n.val).sqHead.toNat + i)) (List.range 64))))).cq).held = []) ∧
    (∃ rs : ℕ, headerCheck s (s.ring n.val).sqCfg (List.map (fun i => mread s.mem (BitVec.toNat (s.ring n.val).sqBase + 64 * (s.ring n.val).sqHead.toNat + i)) (List.range 64)) = some rs) :=
  ⟨by decide +kernel, by decide +kernel, by decide +kernel, by decide +kernel, by decide +kernel, by decide +kernel, by decide +kernel, by decide +kernel, by exact ⟨_, rfl⟩⟩

theorem meets_NopAndAbort_8 :
    let s : State := aborts
    let c : Cmd := abort7
    (Ready s c 2) ∧
    (c.params.length = 4) ∧
    (c.p 0 1 < 64) ∧
    (c.p 1 1 = 0) :=
  ⟨readyOf (by decide +kernel), by decide +kernel, by decide +kernel, by decide +kernel⟩

theorem meets_NopAndAbort_9 :
    let s : State := (hold abortBad t1)
    let c : Cmd := abortBad
    (Ready s c 2) ∧
    (c.params.length ≠ 4 ∨ 64 ≤ c.p 0 1 ∨ c.p 1 1 ≠ 0) :=
  ⟨readyOf (by decide +kernel), by decide +kernel⟩

theorem meets_RingWrites_14 :
    let s : State := (rg { sqCfg := (67 : W32) : Machine.Ring })
    let n : Fin 64 := 63
    (s.offAt (393228 + 64 * n.val) = false) ∧
    (∃ v : W32, ringSize (s.ring n.val).sqCfg ≤ BitVec.toNat v % 4096 ∨ (s.ring n.val).free < (BitVec.toNat v % 4096 + ringSize (s.ring n.val).sqCfg - (s.ring n.val).sqTail.toNat) % ringSize (s.ring n.val).sqCfg) :=
  ⟨by decide +kernel, by decide +kernel⟩

theorem meets_TimersAndProxies_9 :
    let s : State := (hold nopT t1)
    let c : Cmd := nopT
    (s.cmd c.id = some c) ∧
    (c.timer = true) ∧
    (∃ tie : TimeoutTie, tie = TimeoutTie.alone ∨ tie = TimeoutTie.abort) :=
  ⟨by decide +kernel, by decide +kernel, by simp⟩

theorem meets_TimersAndProxies_10 :
    let s : State := upP
    let port : Fin 4 := 3
    let f : LinkFrame := cmdOne
    ((s.slp port.val).st = SlkSt.up) ∧
    (f.crcOk = true) ∧
    (f.seq = (s.slp port.val).rxSeq) ∧
    (f.dst.toNat = s.node) ∧
    (f.conf = false) ∧
    (f.ftype = 2) ∧
    (bitN (leAt f.payload 1 1) 1 = false) ∧
    (bitN (leAt f.payload 1 1) 2 = true) ∧
    (pktIndirect (slice f.payload 8 64) = false) ∧
    (∃ rs : ℕ, headerCheck s 1024 (slice f.payload 8 64) = some rs) :=
  ⟨by decide +kernel, by decide +kernel, by decide +kernel, by decide +kernel, by decide +kernel, by decide +kernel, by decide +kernel, by decide +kernel, by decide +kernel, by exact ⟨_, rfl⟩⟩

theorem meets_CommandReads_8 :
    let s : State := pcieRing
    let n : Fin 64 := 63
    let host : HostFetch := noHost
    (s.nextRing = some n.val) ∧
    (s.packetAt n.val host = none) :=
  ⟨by decide +kernel, by decide +kernel⟩

theorem meets_CommandReads_9 :
    let s : State := reads 4
    let n : Fin 64 := 63
    let host : HostFetch := noHost
    let q : List Byte := pkt0
    (s.nextRing = some n.val) ∧
    (s.packetAt n.val host = some q) ∧
    ((s.ring n.val).proxy = none) :=
  ⟨by decide +kernel, by decide +kernel, by decide +kernel⟩

theorem meets_CommandReads_10 :
    let s : State := pxRing
    let n : Fin 64 := 63
    let host : HostFetch := noHost
    let q : List Byte := pkt0
    let node : BitVec 6 := 9
    (s.nextRing = some n.val) ∧
    (s.packetAt n.val host = some q) ∧
    ((s.ring n.val).proxy = some node) :=
  ⟨by decide +kernel, by decide +kernel, by decide +kernel⟩

theorem meets_CommandReads_11 :
    let s : State := boundR 1
    let n : Fin 64 := 63
    let e : ℕ := 3
    (s.nextRing = some n.val) ∧
    (bit (s.ring n.val).sqCfg 1 = true) ∧
    (BitVec.toNat (s.ring n.val).sqBase + 64 * (s.ring n.val).sqHead.toNat + 64 ≤ 4194304) ∧
    ((s.ring n.val).proxy = none) ∧
    ((s.ring n.val).bound = some e) ∧
    ((s.ring n.val).unbind = none) ∧
    (pktIndirect (List.map (fun i => mread s.mem (BitVec.toNat (s.ring n.val).sqBase + 64 * (s.ring n.val).sqHead.toNat + i)) (List.range 64)) = false) ∧
    ((s.ring (cmdOf s.gcp.nextId n.val (List.map (fun i => mread s.mem (BitVec.toNat (s.ring n.val).sqBase + 64 * (s.ring n.val).sqHead.toNat + i)) (List.range 64)) (slice (List.map (fun i => mread s.mem (BitVec.toNat (s.ring n.val).sqBase + 64 * (s.ring n.val).sqHead.toNat + i)) (List.range 64)) 24 (pktLen (List.map (fun i => mread s.mem (BitVec.toNat (s.ring n.val).sqBase + 64 * (s.ring n.val).sqHead.toNat + i)) (List.range 64))))).cq).held = []) ∧
    (headerCheck s (s.ring n.val).sqCfg (List.map (fun i => mread s.mem (BitVec.toNat (s.ring n.val).sqBase + 64 * (s.ring n.val).sqHead.toNat + i)) (List.range 64)) = none) ∧
    ((cmdOf s.gcp.nextId n.val (List.map (fun i => mread s.mem (BitVec.toNat (s.ring n.val).sqBase + 64 * (s.ring n.val).sqHead.toNat + i)) (List.range 64)) (slice (List.map (fun i => mread s.mem (BitVec.toNat (s.ring n.val).sqBase + 64 * (s.ring n.val).sqHead.toNat + i)) (List.range 64)) 24 (pktLen (List.map (fun i => mread s.mem (BitVec.toNat (s.ring n.val).sqBase + 64 * (s.ring n.val).sqHead.toNat + i)) (List.range 64))))).op = 1 ∨ (cmdOf s.gcp.nextId n.val (List.map (fun i => mread s.mem (BitVec.toNat (s.ring n.val).sqBase + 64 * (s.ring n.val).sqHead.toNat + i)) (List.range 64)) (slice (List.map (fun i => mread s.mem (BitVec.toNat (s.ring n.val).sqBase + 64 * (s.ring n.val).sqHead.toNat + i)) (List.range 64)) 24 (pktLen (List.map (fun i => mread s.mem (BitVec.toNat (s.ring n.val).sqBase + 64 * (s.ring n.val).sqHead.toNat + i)) (List.range 64))))).op = 64 ∨ (cmdOf s.gcp.nextId n.val (List.map (fun i => mread s.mem (BitVec.toNat (s.ring n.val).sqBase + 64 * (s.ring n.val).sqHead.toNat + i)) (List.range 64)) (slice (List.map (fun i => mread s.mem (BitVec.toNat (s.ring n.val).sqBase + 64 * (s.ring n.val).sqHead.toNat + i)) (List.range 64)) 24 (pktLen (List.map (fun i => mread s.mem (BitVec.toNat (s.ring n.val).sqBase + 64 * (s.ring n.val).sqHead.toNat + i)) (List.range 64))))).op = 65) ∧
    (BitVec.toNat (cmdOf s.gcp.nextId n.val (List.map (fun i => mread s.mem (BitVec.toNat (s.ring n.val).sqBase + 64 * (s.ring n.val).sqHead.toNat + i)) (List.range 64)) (slice (List.map (fun i => mread s.mem (BitVec.toNat (s.ring n.val).sqBase + 64 * (s.ring n.val).sqHead.toNat + i)) (List.range 64)) 24 (pktLen (List.map (fun i => mread s.mem (BitVec.toNat (s.ring n.val).sqBase + 64 * (s.ring n.val).sqHead.toNat + i)) (List.range 64))))).timeout % 2 ^ 31 = 0) :=
  ⟨by decide +kernel, by decide +kernel, by decide +kernel, by decide +kernel, by decide +kernel, by decide +kernel, by decide +kernel, by decide +kernel, by decide +kernel, by decide +kernel, by decide +kernel⟩

theorem meets_CommandReads_12 :
    let k : Cmd := nop0
    k.op ≠ 97 :=
  by decide +kernel

theorem meets_NopAndAbort_10 :
    let s : State := aborts
    let c : Cmd := abort7
    let tie : Option ℕ := some 1
    (Ready s c 2) ∧
    (c.params.length = 4) ∧
    (c.p 0 1 < 64) ∧
    (c.p 1 1 = 0) ∧
    (List.filter (fun d => decide (d.id ≠ c.id) && d.tenant == c.tenant && d.sq == c.p 0 1 && BitVec.toNat d.tag == c.p 2 2 && decide (some d.id ≠ tie) && d.proxied == c.proxied && !Option.any (fun w => w.cmd == d.id) s.key.walk) s.cmds = []) :=
  ⟨readyOf (by decide +kernel), by decide +kernel, by decide +kernel, by decide +kernel, by decide +kernel⟩

theorem meets_NopAndAbort_11 :
    let s : State := aborts
    let c : Cmd := abort7
    let tie : Option ℕ := none
    let d : Cmd := nop63
    (Ready s c 2) ∧
    (c.params.length = 4) ∧
    (c.p 0 1 < 64) ∧
    (c.p 1 1 = 0) ∧
    (List.filter (fun d => decide (d.id ≠ c.id) && d.tenant == c.tenant && d.sq == c.p 0 1 && BitVec.toNat d.tag == c.p 2 2 && decide (some d.id ≠ tie) && d.proxied == c.proxied && !Option.any (fun w => w.cmd == d.id) s.key.walk) s.cmds = [d]) ∧
    (s.cmd d.id = some d) :=
  ⟨readyOf (by decide +kernel), by decide +kernel, by decide +kernel, by decide +kernel, by decide +kernel, by decide +kernel⟩

theorem meets_RingWrites_15 :
    let s : State := { rg {} with glb.ready := false }
    let n : Fin 64 := 63
    let v : W32 := 0x43
    (s.offAt (393224 + 64 * n.val) = false) ∧
    (s.tdiLocked = false) ∧
    (bit (s.ring n.val).sqCfg 0 = false) ∧
    (bit v 0 = true) ∧
    (4 ≤ fld v 4 4) ∧
    (fld v 4 4 ≤ 12) ∧
    (BitVec.toNat (s.ring n.val).sqBase % 64 = 0) ∧
    (s.glb.ready = false) ∧
    (v &&& 67045363 = v) :=
  ⟨by decide +kernel, by decide +kernel, by decide +kernel, by decide +kernel, by decide +kernel, by decide +kernel, by decide +kernel, by decide +kernel, by decide +kernel⟩

theorem meets_RingWrites_16 :
    let s : State := rg { cqCfg := 0x43 }
    let n : Fin 64 := 63
    let v : W32 := 0x53
    (s.offAt (393244 + 64 * n.val) = false) ∧
    (s.tdiLocked = false) ∧
    (bit (s.ring n.val).cqCfg 0 = true) ∧
    (BitVec.toNat v / 2 ≠ BitVec.toNat (s.ring n.val).cqCfg / 2) ∧
    (v &&& 499 = v) :=
  ⟨by decide +kernel, by decide +kernel, by decide +kernel, by decide +kernel, by decide +kernel⟩

theorem meets_RingWrites_17 :
    let s : State := rg { cqBase := 64, cqTail := 3 }
    let n : Fin 64 := 63
    let v : W32 := 0x42
    (s.offAt (393244 + 64 * n.val) = false) ∧
    (s.tdiLocked = false) ∧
    (bit (s.ring n.val).cqCfg 0 = false) ∧
    (bit v 0 = false) ∧
    (v &&& 499 = v) :=
  ⟨by decide +kernel, by decide +kernel, by decide +kernel, by decide +kernel, by decide +kernel⟩

theorem meets_RingWrites_18 :
    let s : State := rg { sqCfg := 0x43 }
    let n : Fin 64 := 63
    let v : W32 := 15
    (s.offAt (393228 + 64 * n.val) = false) ∧
    (BitVec.toNat v % 4096 < ringSize (s.ring n.val).sqCfg) ∧
    ((BitVec.toNat v % 4096 + ringSize (s.ring n.val).sqCfg - (s.ring n.val).sqTail.toNat) % ringSize (s.ring n.val).sqCfg ≤ (s.ring n.val).free) :=
  ⟨by decide +kernel, by decide +kernel, by decide +kernel⟩

theorem meets_TimersAndProxies_11 :
    let s : State := hold lockedCmd t1
    let c : Cmd := lockedCmd
    (s.cmd c.id = some c) ∧
    (c.timer = true) ∧
    (s.overLink c = true) :=
  ⟨by decide +kernel, by decide +kernel, by decide +kernel⟩

theorem meets_TimersAndProxies_12 :
    let s : State := hold nopT t1
    let c : Cmd := nopT
    (s.cmd c.id = some c) ∧
    (c.timer = true) ∧
    (s.overLink c = false) :=
  ⟨by decide +kernel, by decide +kernel, by decide +kernel⟩

theorem meets_TimersAndProxies_13 :
    let s : State := hold dlT t1
    let c : Cmd := dlT
    (s.cmd c.id = some c) ∧
    (c.timer = true) ∧
    (dueIs c.due 2 = true) :=
  ⟨by decide +kernel, by decide +kernel, by decide +kernel⟩

theorem meets_TimersAndProxies_14 :
    let s : State := hold nopT t1
    let c : Cmd := nopT
    (s.cmd c.id = some c) ∧
    (c.timer = true) ∧
    (dueIs c.due 2 = false) :=
  ⟨by decide +kernel, by decide +kernel, by decide +kernel⟩

theorem meets_TimersAndProxies_15 :
    let s : State := hold nopT t1
    let c : Cmd := nopT
    (s.cmd c.id = some c) ∧
    (c.timer = true) ∧
    (s.jobsOf c.id = []) :=
  ⟨by decide +kernel, by decide +kernel, by decide +kernel⟩

theorem meets_TimersAndProxies_16 :
    let s : State := upP
    let port : Fin 4 := 3
    let f : LinkFrame := cmdG
    ((s.slp port.val).st = SlkSt.up) ∧
    (f.crcOk = true) ∧
    (f.seq = (s.slp port.val).rxSeq) ∧
    (f.dst.toNat = s.node) ∧
    (f.conf = false) ∧
    (f.ftype = 2) ∧
    (bitN (leAt f.payload 1 1) 1 = false) ∧
    (bitN (leAt f.payload 1 1) 2 = true) ∧
    (pktIndirect (slice f.payload 8 64) = false) ∧
    (headerCheck s 1024 (slice f.payload 8 64) = none) :=
  ⟨by decide +kernel, by decide +kernel, by decide +kernel, by decide +kernel, by decide +kernel, by decide +kernel, by decide +kernel, by decide +kernel, by decide +kernel, by decide +kernel⟩

theorem meets_TimersAndProxies_17 :
    let s : State := upP
    let port : Fin 4 := 3
    let f : LinkFrame := cplG
    ((s.slp port.val).st = SlkSt.up) ∧
    (f.crcOk = true) ∧
    (f.seq = (s.slp port.val).rxSeq) ∧
    (f.dst.toNat = s.node) ∧
    (f.conf = false) ∧
    (f.ftype = 3) ∧
    (∀ c ∈ s.cmds, c.remote = none ∨ c.id % 2 ^ 32 ≠ leAt f.payload 36 4 ∨ BitVec.toNat c.tag ≠ leAt f.payload 4 2) :=
  ⟨by decide +kernel, by decide +kernel, by decide +kernel, by decide +kernel, by decide +kernel, by decide +kernel, by decide +kernel⟩

theorem meets_TimersAndProxies_18 :
    let s : State := upC
    let port : Fin 4 := 3
    let f : LinkFrame := cplG
    let l : List Cmd := []
    let c : Cmd := prox
    let m : List Cmd := []
    ((s.slp port.val).st = SlkSt.up) ∧
    (f.crcOk = true) ∧
    (f.seq = (s.slp port.val).rxSeq) ∧
    (f.dst.toNat = s.node) ∧
    (f.conf = false) ∧
    (f.ftype = 3) ∧
    (s.cmds = l ++ c :: m) ∧
    (∀ d ∈ l, d.remote = none ∨ d.id % 2 ^ 32 ≠ leAt f.payload 36 4) ∧
    (c.remote.isSome = true) ∧
    (c.id % 2 ^ 32 = leAt f.payload 36 4) ∧
    (c.sq = leAt f.payload 17 1) ∧
    (BitVec.toNat c.tag = leAt f.payload 4 2) :=
  ⟨by decide +kernel, by decide +kernel, by decide +kernel, by decide +kernel, by decide +kernel, by decide +kernel, by decide +kernel, by decide +kernel, by decide +kernel, by decide +kernel, by decide +kernel, by decide +kernel⟩

theorem meets_CommandReads_13 :
    let s : State := boundR6 0x21
    let n : Fin 64 := 63
    let e : ℕ := 3
    (s.nextRing = some n.val) ∧
    (bit (s.ring n.val).sqCfg 1 = true) ∧
    (BitVec.toNat (s.ring n.val).sqBase + 64 * (s.ring n.val).sqHead.toNat + 64 ≤ 4194304) ∧
    ((s.ring n.val).proxy = none) ∧
    ((s.ring n.val).bound = some e) ∧
    ((s.ring n.val).unbind = none) ∧
    (pktIndirect (List.map (fun i => mread s.mem (BitVec.toNat (s.ring n.val).sqBase + 64 * (s.ring n.val).sqHead.toNat + i)) (List.range 64)) = false) ∧
    ((s.ring (cmdOf s.gcp.nextId n.val (List.map (fun i => mread s.mem (BitVec.toNat (s.ring n.val).sqBase + 64 * (s.ring n.val).sqHead.toNat + i)) (List.range 64)) (slice (List.map (fun i => mread s.mem (BitVec.toNat (s.ring n.val).sqBase + 64 * (s.ring n.val).sqHead.toNat + i)) (List.range 64)) 24 (pktLen (List.map (fun i => mread s.mem (BitVec.toNat (s.ring n.val).sqBase + 64 * (s.ring n.val).sqHead.toNat + i)) (List.range 64))))).cq).held = []) ∧
    (headerCheck s (s.ring n.val).sqCfg (List.map (fun i => mread s.mem (BitVec.toNat (s.ring n.val).sqBase + 64 * (s.ring n.val).sqHead.toNat + i)) (List.range 64)) = none) ∧
    ((cmdOf s.gcp.nextId n.val (List.map (fun i => mread s.mem (BitVec.toNat (s.ring n.val).sqBase + 64 * (s.ring n.val).sqHead.toNat + i)) (List.range 64)) (slice (List.map (fun i => mread s.mem (BitVec.toNat (s.ring n.val).sqBase + 64 * (s.ring n.val).sqHead.toNat + i)) (List.range 64)) 24 (pktLen (List.map (fun i => mread s.mem (BitVec.toNat (s.ring n.val).sqBase + 64 * (s.ring n.val).sqHead.toNat + i)) (List.range 64))))).op ≠ 1) ∧
    ((cmdOf s.gcp.nextId n.val (List.map (fun i => mread s.mem (BitVec.toNat (s.ring n.val).sqBase + 64 * (s.ring n.val).sqHead.toNat + i)) (List.range 64)) (slice (List.map (fun i => mread s.mem (BitVec.toNat (s.ring n.val).sqBase + 64 * (s.ring n.val).sqHead.toNat + i)) (List.range 64)) 24 (pktLen (List.map (fun i => mread s.mem (BitVec.toNat (s.ring n.val).sqBase + 64 * (s.ring n.val).sqHead.toNat + i)) (List.range 64))))).op ≠ 64) ∧
    ((cmdOf s.gcp.nextId n.val (List.map (fun i => mread s.mem (BitVec.toNat (s.ring n.val).sqBase + 64 * (s.ring n.val).sqHead.toNat + i)) (List.range 64)) (slice (List.map (fun i => mread s.mem (BitVec.toNat (s.ring n.val).sqBase + 64 * (s.ring n.val).sqHead.toNat + i)) (List.range 64)) 24 (pktLen (List.map (fun i => mread s.mem (BitVec.toNat (s.ring n.val).sqBase + 64 * (s.ring n.val).sqHead.toNat + i)) (List.range 64))))).op ≠ 65) :=
  ⟨by decide +kernel, by decide +kernel, by decide +kernel, by decide +kernel, by decide +kernel, by decide +kernel, by decide +kernel, by decide +kernel, by decide +kernel, by decide +kernel, by decide +kernel, by decide +kernel⟩

theorem meets_RingWrites_19 :
    let s : State := rg { sqTail := 3 }
    let n : Fin 64 := 63
    let v : W32 := 0x42
    (s.offAt (393224 + 64 * n.val) = false) ∧
    (s.tdiLocked = false) ∧
    (bit (s.ring n.val).sqCfg 0 = false) ∧
    (bit v 0 = false) ∧
    (v &&& 67045363 = v) :=
  ⟨by decide +kernel, by decide +kernel, by decide +kernel, by decide +kernel, by decide +kernel⟩

end Part06

namespace Part07

def nopK (kind : Nat) (v : Nat) : Cmd := { rd 1 0 [] with due := BitVec.ofNat 64 (2 ^ 48 + kind * 2 ^ 50 + v), timeout := 5 }
def at100 (c : Cmd) : State := hold c { t1 with tb.sfc := 100 }
def tcr (op : Nat) (tenant : Nat) (fs : List (Nat × Nat × Nat)) : Cmd :=
  { rd op 256 ([(1, 1, 14), (2, 2, 64000), (4, 2, 256), (6, 1, 64), (7, 1, 64), (8, 8, 2 ^ 64 - 1), (16, 8, 0x1000000)] ++ fs) with tenant := tenant }
def tcr2 : Cmd := tcr 0x10 2 []
def tcr1 : Cmd := tcr 0x10 1 []
def tcrBad : Cmd := tcr 0x10 2 [(0, 1, 2)]
def tset1 : Cmd := tcr 0x12 1 []
def tdel : Cmd := rd 0x11 0 []
def bare : State := { t1 with images := [] }
def strm0 : Stream := { tenant := 1, image := 0, entry := 0, bLog2 := 6, chIn := 1, chOut := 1, fp32 := false, holdFade := false, reserve := 0, inRoute := [0], outRoute := [0], stateAddr := 0, core := 0, density := 100, fmax := 1 }
def st1 : State := { t1 with streams := [(255, some strm0)] }
def job1 : Job := { kind := .fit 0, tenant := 1, cls := .background, elig := 0 }
def jb1 : State := { t1 with jobs := [(4, some job1)] }
def img0 : ImageDesc := { formatOk := true, signatureOk := false, usesMpc := true, uses16g := false, usesSysKeys := false, codeBase := 0x1000000, code := [1, 2], entries := [0] }
def imgBad : ImageDesc := { img0 with formatOk := false }
def tenWin : State := { t1 with dies := [(0, { bridge := .up, power := .on })], tenants := [(1, some { ten with windows := [{ perm := 7, base := 0x1000, limit := 0x1001 }] })] }
def ldc : Cmd := rd 0x20 16 [(8, 8, 64)]
def ldRev1 : State := hold ldc { t1 with build := { rev := .rev1 } }
def tenS : Tenant := { ten with signed := true }
def ldSig : State := hold ldc { t1 with tenants := [(1, some tenS)] }
def uld : Cmd := rd 0x21 8 []
def uldNo : Cmd := rd 0x21 8 [(0, 2, 1)]
def warm : Cmd := rd 0x71 0 []
def dieR : Cmd := rd 0x72 8 [(0, 1, 15)]
def dieRBad : Cmd := rd 0x72 8 [(0, 1, 16)]
def coreR : Cmd := rd 0x73 8 [(0, 1, 63)]
def coreRBad : Cmd := rd 0x73 8 [(1, 1, 1)]

theorem meets_DueWords_1 :
    ((at100 (nopK 0 101)).cmd (nopK 0 101).id = some (nopK 0 101)) ∧
    ((nopK 0 101).op = 1) ∧
    ((nopK 0 101).phase = Phase.read) ∧
    ((at100 (nopK 0 101)).mayStart (nopK 0 101) = true) ∧
    ((nopK 0 101).params = []) ∧
    (dueSel (nopK 0 101).due ≠ 0) ∧
    (dueKind (nopK 0 101).due = 0) ∧
    (tbReached (dueTb (nopK 0 101).due) ((at100 (nopK 0 101)).tbNow (dueTb (nopK 0 101).due)) (dueVal (nopK 0 101).due).toNat = false) :=
  by and_intros <;> decide

theorem meets_DueWords_2 :
    ((at100 (nopK 0 100)).cmd (nopK 0 100).id = some (nopK 0 100)) ∧
    ((nopK 0 100).op = 1) ∧
    ((nopK 0 100).phase = Phase.read) ∧
    ((at100 (nopK 0 100)).mayStart (nopK 0 100) = true) ∧
    ((nopK 0 100).params = []) ∧
    (dueSel (nopK 0 100).due ≠ 0) ∧
    (dueKind (nopK 0 100).due = 0) ∧
    (tbReached (dueTb (nopK 0 100).due) ((at100 (nopK 0 100)).tbNow (dueTb (nopK 0 100).due)) (dueVal (nopK 0 100).due).toNat = true) ∧
    (tbLate (dueTb (nopK 0 100).due) ((at100 (nopK 0 100)).tbNow (dueTb (nopK 0 100).due)) (dueVal (nopK 0 100).due).toNat = 0) :=
  by and_intros <;> decide

theorem meets_DueWords_3 :
    ((at100 (nopK 1 101)).cmd (nopK 1 101).id = some (nopK 1 101)) ∧
    ((nopK 1 101).op = 1) ∧
    ((nopK 1 101).phase = Phase.read) ∧
    ((at100 (nopK 1 101)).mayStart (nopK 1 101) = true) ∧
    ((nopK 1 101).params = []) ∧
    (dueSel (nopK 1 101).due ≠ 0) ∧
    (dueKind (nopK 1 101).due = 1) ∧
    (tbReached (dueTb (nopK 1 101).due) ((at100 (nopK 1 101)).tbNow (dueTb (nopK 1 101).due)) (dueVal (nopK 1 101).due).toNat = false) :=
  by and_intros <;> decide

theorem meets_DueWords_4 :
    ((at100 (nopK 1 100)).cmd (nopK 1 100).id = some (nopK 1 100)) ∧
    ((nopK 1 100).op = 1) ∧
    ((nopK 1 100).phase = Phase.read) ∧
    ((at100 (nopK 1 100)).mayStart (nopK 1 100) = true) ∧
    ((nopK 1 100).params = []) ∧
    (dueSel (nopK 1 100).due ≠ 0) ∧
    (dueKind (nopK 1 100).due = 1) ∧
    (tbReached (dueTb (nopK 1 100).due) ((at100 (nopK 1 100)).tbNow (dueTb (nopK 1 100).due)) (dueVal (nopK 1 100).due).toNat = true) :=
  by and_intros <;> decide

theorem meets_DueWords_5 :
    ((at100 (nopK 2 100)).cmd (nopK 2 100).id = some (nopK 2 100)) ∧
    ((nopK 2 100).op = 1) ∧
    ((nopK 2 100).phase = Phase.read) ∧
    ((at100 (nopK 2 100)).mayStart (nopK 2 100) = true) ∧
    ((nopK 2 100).params = []) ∧
    (dueSel (nopK 2 100).due ≠ 0) ∧
    (dueKind (nopK 2 100).due = 2) ∧
    (tbReached (dueTb (nopK 2 100).due) ((at100 (nopK 2 100)).tbNow (dueTb (nopK 2 100).due)) (dueVal (nopK 2 100).due).toNat = true) :=
  by and_intros <;> decide

theorem meets_DueWords_6 :
    ((at100 (nopK 2 101)).cmd (nopK 2 101).id = some (nopK 2 101)) ∧
    ((nopK 2 101).op = 1) ∧
    ((nopK 2 101).phase = Phase.read) ∧
    ((at100 (nopK 2 101)).mayStart (nopK 2 101) = true) ∧
    ((nopK 2 101).params = []) ∧
    (dueSel (nopK 2 101).due ≠ 0) ∧
    (dueKind (nopK 2 101).due = 2) ∧
    (tbReached (dueTb (nopK 2 101).due) ((at100 (nopK 2 101)).tbNow (dueTb (nopK 2 101).due)) (dueVal (nopK 2 101).due).toNat = false) :=
  by and_intros <;> decide

theorem meets_TenantCommands_1 :
    (Ready (hold tcr2 t1) tcr2 16) ∧
    ((hold tcr2 t1).tenant tcr2.tenant = none) ∧
    ((hold tcr2 t1).tenantBlockOk tcr2.params = true) ∧
    ((State.withTenant tcr2.tenant (some (tenantOf tcr2.params)) (hold tcr2 t1)).overCap (tenantOf tcr2.params).affinity = false) :=
  ⟨readyOf (by decide), by decide, by decide, by decide⟩

theorem meets_TenantCommands_2 :
    (Ready (hold tcr1 t1) tcr1 16) ∧
    ((hold tcr1 t1).tenant tcr1.tenant ≠ none) :=
  ⟨readyOf (by decide), by decide⟩

theorem meets_TenantCommands_3 :
    (Ready (hold tcrBad t1) tcrBad 16) ∧
    (1 < leAt tcrBad.params 0 1) :=
  ⟨readyOf (by decide), by decide⟩

theorem meets_TenantCommands_4 :
    (Ready (hold tset1 t1) tset1 18) ∧
    ((hold tset1 t1).tenantBlockOk tset1.params = true) ∧
    ((hold tset1 t1).tenant tset1.tenant = some ten) ∧
    ((State.withTenant tset1.tenant (some { (tenantOf tset1.params) with slotsUsed := ten.slotsUsed : Tenant }) (hold tset1 t1)).overCap (tenantOf tset1.params).affinity = false) ∧
    ((State.withTenant tset1.tenant (some { (tenantOf tset1.params) with slotsUsed := ten.slotsUsed : Tenant }) (hold tset1 t1)).streamsBreak tset1.tenant { (tenantOf tset1.params) with slotsUsed := ten.slotsUsed : Tenant } = false) :=
  ⟨readyOf (by decide), by decide, by decide, by decide, by decide⟩

theorem meets_TenantCommands_6 :
    (Ready (hold tdel st1) tdel 17) ∧
    (tdel.params = []) ∧
    ((hold tdel st1).tenantStreams tdel.tenant ≠ []) :=
  ⟨readyOf (by decide), by decide, by decide⟩

theorem meets_TenantCommands_7 :
    (Ready (hold tdel jb1) tdel 17) ∧
    (tdel.params = []) ∧
    ((hold tdel jb1).tenantStreams tdel.tenant = []) ∧
    ((List.any (hold tdel jb1).jobs fun e => Option.any (fun j => j.tenant == tdel.tenant) e.2) = true) :=
  ⟨readyOf (by decide), by decide, by decide, by decide⟩

theorem meets_TenantCommands_8 :
    ((tenantOf tcr2.params).affinity ≠ (0 : W64)) :=
  by decide

theorem meets_StreamDensity_1 :
    (16 * t1.rateHz < 2 ^ 4 * 1000000) ∧
    (4 = t1.densityOf 4 1 0 0) :=
  ⟨by decide, by decide⟩

theorem meets_StreamDensity_4 :
    (t1.rateHz = 48000) :=
  by decide

theorem meets_RtCapWrites_1 :
    (st1.offAt 458752 = false) ∧
    (BitVec.toNat (1000 : W32) % 1024 ≤ 1000) ∧
    (∀ k < 64, st1.coreDensity k ≤ BitVec.toNat (1000 : W32) % 1024) :=
  ⟨by decide, by decide, by decide⟩

theorem meets_RtCapWrites_2 :
    (st1.offAt 458752 = false) ∧
    (1000 < BitVec.toNat (1001 : W32) % 1024) :=
  ⟨by decide, by decide⟩

theorem meets_RtCapWrites_3 :
    (st1.offAt 458752 = false) ∧
    (∃ k < 64, BitVec.toNat (99 : W32) % 1024 < st1.coreDensity k) :=
  ⟨by decide, ⟨0, by decide, by decide⟩⟩

theorem meets_ImageCommands_6 :
    (Ready (hold uldNo t1) uldNo 33) ∧
    (uldNo.params.length = 8) ∧
    (zerosAt uldNo.params 2 6 = true) ∧
    ((hold uldNo t1).image (leAt uldNo.params 0 2) = none) :=
  ⟨readyOf (by decide), by decide, by decide, by decide⟩

theorem meets_ImageCommands_7 :
    (Ready (hold uld st1) uld 33) ∧
    (uld.params.length = 8) ∧
    (zerosAt uld.params 2 6 = true) ∧
    ((List.any (hold uld st1).streams fun e => Option.any (fun x => x.image == leAt uld.params 0 2) e.2) = true) :=
  ⟨readyOf (by decide), by decide, by decide, by decide⟩

theorem meets_ResetCommands_1 :
    (Ready (hold warm t1) warm 113) ∧
    (warm.params = []) :=
  ⟨readyOf (by decide), by decide⟩

theorem meets_ResetCommands_2 :
    (Ready (hold dieR t1) dieR 114) ∧
    (dieR.params.length = 8) ∧
    (leAt dieR.params 0 8 < 16) :=
  ⟨readyOf (by decide), by decide, by decide⟩

theorem meets_ResetCommands_3 :
    (Ready (hold coreR t1) coreR 115) ∧
    (coreR.params.length = 8) ∧
    (leAt coreR.params 0 8 < 64) :=
  ⟨readyOf (by decide), by decide, by decide⟩

theorem meets_ResetCommands_4 :
    (Ready (hold dieRBad t1) dieRBad 114) ∧
    (16 ≤ leAt dieRBad.params 0 8) :=
  ⟨readyOf (by decide), by decide⟩

theorem meets_ResetCommands_5 :
    (Ready (hold coreRBad t1) coreRBad 115) ∧
    (64 ≤ leAt coreRBad.params 0 8) :=
  ⟨readyOf (by decide), by decide⟩


theorem meets_DueWords_7 :
    let s : State := at100 (nopK 0 99)
    let c : Cmd := nopK 0 99
    (s.cmd c.id = some c) ∧
    (c.op = 1) ∧
    (c.phase = Phase.read) ∧
    (s.mayStart c = true) ∧
    (c.params = []) ∧
    (dueSel c.due ≠ 0) ∧
    (dueKind c.due = 0) ∧
    (tbReached (dueTb c.due) (s.tbNow (dueTb c.due)) (dueVal c.due).toNat = true) :=
  by and_intros <;> decide

theorem meets_ResetCommands_6 :
    let s : State := hold warm t1
    let c : Cmd := warm
    (Ready s c 113) ∧
    (c.params = []) ∧
    (s.pmu.dev ≠ DevSt.off) :=
  ⟨readyOf (by decide), by decide, by decide⟩

theorem meets_StreamDensity_5 :
    let s : State := t1
    let bLog2 : ℕ := 4
    let us : ℕ := 100
    let d : ℕ := t1.densityOf 4 100 0 158
    let lat : ℕ := 158
    (16 * 24576 * s.rateHz + 2000 * lat * s.rateHz < 2 ^ bLog2 * 24576000000) ∧
    (d = s.densityOf bLog2 us 0 lat) :=
  ⟨by decide, by decide⟩

theorem meets_StreamDensity_6 :
    let s : State := t1
    let bLog2 : ℕ := 4
    let us : ℕ := 100
    let d : ℕ := t1.densityOf 4 100 0 0
    (16 * s.rateHz < 2 ^ bLog2 * 1000000) ∧
    (d = s.densityOf bLog2 us 0 0) :=
  ⟨by decide, by decide⟩

def heldImg : State := { t1 with dies := [(0, { bridge := .retrain, power := .on })] }
def imgOk : ImageDesc := { img0 with usesMpc := false }
def ldcBig : Cmd := rd 0x20 16 [(0, 8, 2 ^ 40), (8, 8, 64)]
def ldE : Cmd := rd 0x20 16 []
def capS : State := up { st1 with sch.rtCap := 45 }
def camOwn : State := { t1 with cam.running := true, cam.owner := 1 }
def tdelBad : Cmd := rd 0x11 1 []
def capS2 : State := { capS with sch.rtCap := 1 }
def capS3 : State := { (up st1) with sch.rtCap := 1 }

theorem meets_ImageCommands_8 :
    let s : State := (hold ldc tenWin)
    let c : Cmd := ldc
    let img : ImageDesc := img0
    (Ready s c 32) ∧
    (∀ k ∈ s.tb.compares, k.owner ≠ Owner.cmd c.id) ∧
    (checkImageLoad img s c = none) ∧
    (s.pathHeld none img.codeBase (codeBytes img).length = false) ∧
    ((begun s c).saveDeny c.tenant img.codeBase (codeBytes img).length true = none) ∧
    (∃ h : ℕ, freeIndex s.images 65536 = some h) :=
  ⟨readyOf (by decide +kernel), by decide +kernel, by decide +kernel, by decide +kernel, by decide +kernel, by exact ⟨_, rfl⟩⟩

theorem meets_ImageCommands_9 :
    let s : State := (hold ldc t1)
    let c : Cmd := ldc
    let img : ImageDesc := img0
    (Ready s c 32) ∧
    (∀ k ∈ s.tb.compares, k.owner ≠ Owner.cmd c.id) ∧
    (checkImageLoad img s c = none) ∧
    (s.pathHeld none img.codeBase (codeBytes img).length = false) ∧
    (∃ d : Deny, (begun s c).saveDeny c.tenant img.codeBase (codeBytes img).length true = some d) :=
  ⟨readyOf (by decide +kernel), by decide +kernel, by decide +kernel, by decide +kernel, by exact ⟨_, rfl⟩⟩

theorem meets_ImageCommands_10 :
    let s : State := heldImg
    let img : ImageDesc := img0
    s.pathHeld none img.codeBase (codeBytes img).length = true :=
  by decide +kernel

theorem meets_ImageCommands_11 :
    let s : State := hold ldcBig (up t1)
    let c : Cmd := ldcBig
    let img : ImageDesc := img0
    (Ready s c 32) ∧
    (∀ k ∈ s.tb.compares, k.owner ≠ Owner.cmd c.id) ∧
    (s.pathHeld none img.codeBase (codeBytes img).length = false) ∧
    (c.params.length = 16) ∧
    (2 ^ 40 < leAt c.params 0 8 + leAt c.params 8 8 ∨ ∃ a, leAt c.params 0 8 ≤ a ∧ a < leAt c.params 0 8 + leAt c.params 8 8 ∧ s.mapDeny false (a / 4096) ≠ none) :=
  ⟨readyOf (by decide +kernel), by decide +kernel, by decide +kernel, by decide +kernel, by exact .inl (by decide +kernel)⟩

theorem meets_ImageCommands_12 :
    let s : State := hold ldE (up t1)
    let c : Cmd := ldE
    let img : ImageDesc := img0
    (Ready s c 32) ∧
    (∀ k ∈ s.tb.compares, k.owner ≠ Owner.cmd c.id) ∧
    (s.pathHeld none img.codeBase (codeBytes img).length = false) ∧
    (c.params.length = 16) ∧
    (leAt c.params 0 8 + leAt c.params 8 8 ≤ 2 ^ 40) ∧
    (∀ (a : ℕ), leAt c.params 0 8 ≤ a → a < leAt c.params 0 8 + leAt c.params 8 8 → s.mapDeny false (a / 4096) = none) ∧
    (leAt c.params 8 8 = 0 ∨ img.formatOk = false ∨ img.codeBase % 16 ≠ 0 ∨ s.inDmOrLpddr img.codeBase (codeBytes img).length = false) :=
  ⟨readyOf (by decide +kernel), by decide +kernel, by decide +kernel, by decide +kernel, by decide +kernel, by decide +kernel, by decide +kernel⟩

theorem meets_ImageCommands_13 :
    let s : State := up ldRev1
    let c : Cmd := ldc
    let img : ImageDesc := img0
    (Ready s c 32) ∧
    (∀ k ∈ s.tb.compares, k.owner ≠ Owner.cmd c.id) ∧
    (s.pathHeld none img.codeBase (codeBytes img).length = false) ∧
    (c.params.length = 16) ∧
    (leAt c.params 0 8 + leAt c.params 8 8 ≤ 2 ^ 40) ∧
    (∀ (a : ℕ), leAt c.params 0 8 ≤ a → a < leAt c.params 0 8 + leAt c.params 8 8 → s.mapDeny false (a / 4096) = none) ∧
    (leAt c.params 8 8 ≠ 0) ∧
    (img.formatOk = true) ∧
    (img.codeBase % 16 = 0) ∧
    (s.inDmOrLpddr img.codeBase (codeBytes img).length = true) ∧
    (s.rev2 = false) ∧
    (img.usesMpc = true ∨ img.uses16g = true ∨ img.usesSysKeys = true) :=
  ⟨readyOf (by decide +kernel), by decide +kernel, by decide +kernel, by decide +kernel, by decide +kernel, by decide +kernel, by decide +kernel, by decide +kernel, by decide +kernel, by decide +kernel, by decide +kernel, by decide +kernel⟩

theorem meets_ImageCommands_14 :
    let s : State := up ldSig
    let c : Cmd := ldc
    let img : ImageDesc := imgOk
    let t : Tenant := tenS
    (Ready s c 32) ∧
    (∀ k ∈ s.tb.compares, k.owner ≠ Owner.cmd c.id) ∧
    (s.pathHeld none img.codeBase (codeBytes img).length = false) ∧
    (c.params.length = 16) ∧
    (leAt c.params 0 8 + leAt c.params 8 8 ≤ 2 ^ 40) ∧
    (∀ (a : ℕ), leAt c.params 0 8 ≤ a → a < leAt c.params 0 8 + leAt c.params 8 8 → s.mapDeny false (a / 4096) = none) ∧
    (leAt c.params 8 8 ≠ 0) ∧
    (img.formatOk = true) ∧
    (img.codeBase % 16 = 0) ∧
    (s.inDmOrLpddr img.codeBase (codeBytes img).length = true) ∧
    (s.rev2 = true) ∧
    (s.tenant c.tenant = some t) ∧
    (t.signed = true) ∧
    (img.signatureOk = false) :=
  ⟨readyOf (by decide +kernel), by decide +kernel, by decide +kernel, by decide +kernel, by decide +kernel, by decide +kernel, by decide +kernel, by decide +kernel, by decide +kernel, by decide +kernel, by decide +kernel, by decide +kernel, by decide +kernel, by decide +kernel⟩

theorem meets_ImageCommands_15 :
    let s : State := hold uld t1
    let c : Cmd := uld
    let i : Image := { tenant := 1, codeBase := 0, codeLen := 64, entries := [0] }
    (Ready s c 33) ∧
    (c.params.length = 8) ∧
    (zerosAt c.params 2 6 = true) ∧
    (s.image (leAt c.params 0 2) = some i) ∧
    (i.tenant = c.tenant) ∧
    ((List.any s.streams fun e => Option.any (fun x => x.image == leAt c.params 0 2) e.2) = false) ∧
    ((List.any s.rules fun e => e.2.enabled && e.2.image == leAt c.params 0 2) = false) :=
  ⟨readyOf (by decide +kernel), by decide +kernel, by decide +kernel, by decide +kernel, by decide +kernel, by decide +kernel, by decide +kernel⟩

theorem meets_ImageCommands_16 :
    let s : State := hold uld st1
    let c : Cmd := uld
    (Ready s c 33) ∧
    (c.params.length = 8) ∧
    (zerosAt c.params 2 6 = true) ∧
    ((List.any s.streams fun e => Option.any (fun x => x.image == leAt c.params 0 2) e.2) = true ∨ (List.any s.rules fun e => e.2.enabled && e.2.image == leAt c.params 0 2) = true) :=
  ⟨readyOf (by decide +kernel), by decide +kernel, by decide +kernel, by decide +kernel⟩

theorem meets_TenantCommands_9 :
    let s : State := hold tcr2 (up t1)
    let c : Cmd := tcr2
    (Ready s c 16) ∧
    (s.tenant c.tenant = none) ∧
    (s.tenantBlockOk c.params = true) ∧
    (s.saveAreaDenied c.params = false) ∧
    ((State.withTenant c.tenant (some (tenantOf c.params)) s).overCap (tenantOf c.params).affinity = false) :=
  ⟨readyOf (by decide +kernel), by decide +kernel, by decide +kernel, by decide +kernel, by decide +kernel⟩

theorem meets_TenantCommands_10 :
    let s : State := hold tcr2 t1
    let c : Cmd := tcr2
    (Ready s c 16) ∧
    (s.tenant c.tenant = none) ∧
    (s.tenantBlockOk c.params = true) ∧
    (s.saveAreaDenied c.params = true) :=
  ⟨readyOf (by decide +kernel), by decide +kernel, by decide +kernel, by decide +kernel⟩

theorem meets_TenantCommands_11 :
    let s : State := hold tcr2 capS
    let c : Cmd := tcr2
    (Ready s c 16) ∧
    (s.tenant c.tenant = none) ∧
    (s.tenantBlockOk c.params = true) ∧
    (s.saveAreaDenied c.params = false) ∧
    ((State.withTenant c.tenant (some (tenantOf c.params)) s).overCap (tenantOf c.params).affinity = true) :=
  ⟨readyOf (by decide +kernel), by decide +kernel, by decide +kernel, by decide +kernel, by decide +kernel⟩

theorem meets_TenantCommands_12 :
    let s : State := hold { tset1 with tenant := 2 } (up t1)
    let c : Cmd := { tset1 with tenant := 2 }
    (Ready s c 18) ∧
    (s.tenant c.tenant = none) :=
  ⟨readyOf (by decide +kernel), by decide +kernel⟩

theorem meets_TenantCommands_13 :
    let s : State := hold tset1 (up t1)
    let c : Cmd := tset1
    let old : Tenant := ten
    let e1 := State.withTenant c.tenant (some { (tenantOf c.params) with slotsUsed := old.slotsUsed }) s
    (Ready s c 18) ∧
    (s.tenantBlockOk c.params = true) ∧
    (s.saveAreaDenied c.params = false) ∧
    (s.tenant c.tenant = some old) ∧
    (e1.overCap (tenantOf c.params).affinity = false) ∧
    (e1.streamsBreak c.tenant { (tenantOf c.params) with slotsUsed := old.slotsUsed } = false) :=
  ⟨readyOf (by decide +kernel), by decide +kernel, by decide +kernel, by decide +kernel, by decide +kernel, by decide +kernel⟩

theorem meets_TenantCommands_14 :
    let s : State := hold tset1 capS2
    let c : Cmd := tset1
    let old : Tenant := ten
    let e1 := State.withTenant c.tenant (some { (tenantOf c.params) with slotsUsed := old.slotsUsed }) s
    (Ready s c 18) ∧
    (s.tenantBlockOk c.params = true) ∧
    (s.saveAreaDenied c.params = false) ∧
    (s.tenant c.tenant = some old) ∧
    (e1.overCap (tenantOf c.params).affinity = true ∨ e1.streamsBreak c.tenant { (tenantOf c.params) with slotsUsed := old.slotsUsed } = true) :=
  ⟨readyOf (by decide +kernel), by decide +kernel, by decide +kernel, by decide +kernel, by decide +kernel⟩

theorem meets_TenantCommands_15 :
    let s : State := hold tdel t1
    let c : Cmd := tdel
    (Ready s c 17) ∧
    (c.params = []) ∧
    (s.tenantStreams c.tenant = []) ∧
    (∀ e ∈ s.jobs, ∀ (j : Job), e.2 = some j → j.tenant ≠ c.tenant) ∧
    (∀ e ∈ s.rules, e.2.enabled = true → e.2.tenant ≠ c.tenant) ∧
    (s.cam.running = true → s.cam.owner.toNat ≠ c.tenant) :=
  ⟨readyOf (by decide +kernel), by decide +kernel, by decide +kernel, by decide +kernel, by decide +kernel, by decide +kernel⟩

theorem meets_TenantCommands_16 :
    let s : State := hold tdel camOwn
    let c : Cmd := tdel
    (Ready s c 17) ∧
    (c.params = []) ∧
    (s.tenantStreams c.tenant = []) ∧
    (s.cam.running = true ∧ s.cam.owner.toNat = c.tenant ∨ ∃ e ∈ s.rules, e.2.enabled = true ∧ e.2.tenant = c.tenant) :=
  ⟨readyOf (by decide +kernel), by decide +kernel, by decide +kernel, by decide +kernel⟩

theorem meets_TenantCommands_17 :
    let s : State := hold tdelBad t1
    let c : Cmd := tdelBad
    (Ready s c 17) ∧
    (c.params ≠ []) :=
  ⟨readyOf (by decide +kernel), by decide +kernel⟩

theorem meets_CommandsTakeEffect_1 :
    let s : State := hold ldc tenWin
    let c : Cmd := ldc
    let img : ImageDesc := img0
    (Ready s c 32) ∧
    (s.pathHeld none img.codeBase (codeBytes img).length = false) ∧
    (List.find? (fun k => k.owner == Owner.cmd c.id && k.hit.isSome) s.tb.compares = none) ∧
    (checkImageLoad img s c = none) :=
  ⟨readyOf (by decide +kernel), by decide +kernel, by decide +kernel, by decide +kernel⟩

end Part07

namespace Part08

def tl : State := { t1 with memc.trained := true }
def ses (op w : Nat) (conf : Nat) (priv : Bool) : Cmd := { rd op 8 [(0, 2, w), (2, 1, conf)] with priv := priv }
def sesO : Cmd := ses 0x13 0xFFFF 1 false
def slotted (x : KeySlot) : State := { tl with key.slots := [(1, x)] }
def vs : KeySlot := { valid := true, conf := true, key := 4 }
def keyed : State := slotted vs
def stopped : State := { tl with key.drbgStopped := true }
def sys1 : Cmd := ses 0x13 1024 0 false
def sys2 : Cmd := ses 0x14 1151 0 true
def sys3 : Cmd := ses 0x14 1152 0 true
def rev1 : State := { tl with build := { rev := .rev1 } }
def sesC : Cmd := ses 0x14 0xFFFF 0 false
def walk1 : Walk := { cmd := 9, init := false, slot := 1, base := 0x1000000000, limit := 0x1000001000 }
def keyedWalk : State := { keyed with key.walk := some walk1 }
def stopped2 : State := { stopped with key.trngRepeats := 2 }
def rk (op slot d lo hi : Nat) : Cmd := rd 0x90 24 [(0, 1, op), (2, 2, slot), (4, 2, d), (8, 8, lo), (16, 8, hi)]
def rmap : Cmd := rk 0 1023 255 0x1000000000 0x1000001000
def tdl : State := { tl with key.tdi := .locked }
def desc1 : Desc := { valid := true, base := 0x1000000, limit := 0x1000001, slot := 1 }
def mapped : State := { keyed with key.descs := [(255, desc1)] }
def runmap : Cmd := rk 1 0 255 0 0
def rrot : Cmd := rk 2 1 0 0 0
def rini : Cmd := rk 3 0 0 0x1000000000 0x1000002000
def lostS (lo hi : BitVec 28) : State := { keyed with key.lost := true, key.lostBase := lo, key.lostLimit := hi }
def wcmd : Cmd := { rrot with id := 9, phase := .running }
def rotW : State := { hold wcmd mapped with key.walk := some walk1, key.slots := [(1, { vs with rot := some 5 })] }
def walkI : Walk := { walk1 with init := true }
def iniW : State := { rotW with key.walk := some walkI, mem := [(0x1000000005, 7), (0x1000001005, 7)], key.lost := true, key.lostBase := 0x1000000, key.lostLimit := 0x1000001 }
def sr : State := { tl with mem := [(0x3FFFFF, 9)] }
def confM : State := { mapped with memc.bar2Base := 0x400, mem := [(0x1000000000, 9)] }
def cfgB : PcieCfg := { bar0 := none, bar2 := none, memEnable := none, busMaster := some true, msixEnable := none, msixLocation := some 5, ideAssoc := none }
def tdk : State := { keyed with key.tdi := .run, key.ide := [(1, { active := [(0, true), (3, true), (4, true)] })] }
def sp (x : Spdm) (t : Tdi) : State := { keyed with key.spdm := x, key.tdi := t }
def ideS : State := { sp .established .unlocked with key.ide := [(1, { keys := [(5, some 7)], active := [(0, true), (3, true), (4, true)] })] }
def ideL : State := { ideS with key.tdi := .locked }
def boot (m : BitVec 3) : State := { r with glb.stage := 1, glb.mgrRunning := true, glb.bootMode := m }
def hdr2 : List Byte := bytes 8 [(0, 4, 0x31474C4E), (4, 2, 1), (6, 1, 4)]
def fwRuns : State := { boot 0 with glb.stage := 3 }

theorem meets_SessionCommands_1 :
    (Ready (hold sesO tl) sesO 19) ∧
    (sesO.params.length = 8) ∧
    (leAt sesO.params 0 2 = 65535) ∧
    (leAt sesO.params 2 1 ≤ 1) ∧
    (zerosAt sesO.params 3 5 = true) ∧
    (((hold sesO tl).slot sesO.tenant).valid = false) ∧
    ((hold sesO tl).key.drbgStopped = false) :=
  ⟨readyOf (by decide), by and_intros <;> decide⟩

theorem meets_SessionCommands_2 :
    (Ready (hold sesO keyed) sesO 19) ∧
    (sesO.params.length = 8) ∧
    (leAt sesO.params 0 2 = 65535) ∧
    (leAt sesO.params 2 1 ≤ 1) ∧
    (zerosAt sesO.params 3 5 = true) ∧
    (((hold sesO keyed).slot sesO.tenant).valid = true) :=
  ⟨readyOf (by decide), by and_intros <;> decide⟩

theorem meets_SessionCommands_3 :
    (Ready (hold sesO stopped) sesO 19) ∧
    (sesO.params.length = 8) ∧
    (leAt sesO.params 0 2 = 65535) ∧
    (leAt sesO.params 2 1 ≤ 1) ∧
    (zerosAt sesO.params 3 5 = true) ∧
    (((hold sesO stopped).slot sesO.tenant).valid = false) ∧
    ((hold sesO stopped).key.drbgStopped = true) :=
  ⟨readyOf (by decide), by and_intros <;> decide⟩

theorem meets_SessionCommands_4 :
    (Instr.sessionOpen 1 true = Instr.sessionOpen sys1.id true ∧ 19 = 19 ∨ Instr.sessionOpen 1 true = Instr.sessionClose sys1.id ∧ 19 = 20) ∧
    (Ready (hold sys1 tl) sys1 19) ∧
    (sys1.params.length = 8) ∧
    (1024 ≤ leAt sys1.params 0 2) ∧
    (leAt sys1.params 0 2 < 1152) ∧
    (sys1.priv = false) :=
  ⟨.inl ⟨rfl, rfl⟩, readyOf (by decide), by decide, by decide, by decide, by decide⟩

theorem meets_SessionCommands_5 :
    (Instr.sessionClose 1 = Instr.sessionOpen sys3.id true ∧ 20 = 19 ∨ Instr.sessionClose 1 = Instr.sessionClose sys3.id ∧ 20 = 20) ∧
    (Ready (hold sys3 tl) sys3 20) ∧
    (sys3.params.length = 8) ∧
    (1152 ≤ leAt sys3.params 0 2 ∧ leAt sys3.params 0 2 < 65535) :=
  ⟨.inr ⟨rfl, rfl⟩, readyOf (by decide), by decide, by decide⟩

theorem meets_SessionCommands_6 :
    (Instr.sessionClose 1 = Instr.sessionOpen sys2.id true ∧ 20 = 19 ∨ Instr.sessionClose 1 = Instr.sessionClose sys2.id ∧ 20 = 20) ∧
    (Ready (hold sys2 rev1) sys2 20) ∧
    (sys2.params.length = 8) ∧
    (1024 ≤ leAt sys2.params 0 2) ∧
    (leAt sys2.params 0 2 < 1152) ∧
    (sys2.priv = true) ∧
    (zerosAt sys2.params 2 6 = true) ∧
    ((hold sys2 rev1).rev2 = false) :=
  ⟨.inr ⟨rfl, rfl⟩, readyOf (by decide), by and_intros <;> decide⟩

theorem meets_SessionCommands_7 :
    (Ready (hold sesC keyed) sesC 20) ∧
    (sesC.params.length = 8) ∧
    (leAt sesC.params 0 2 = 65535) ∧
    (zerosAt sesC.params 2 6 = true) ∧
    (((hold sesC keyed).slot sesC.tenant).valid = true) ∧
    ((hold sesC keyed).key.walk = none) :=
  ⟨readyOf (by decide), by and_intros <;> decide⟩

theorem meets_SessionCommands_8 :
    (Ready (hold sesC tl) sesC 20) ∧
    (sesC.params.length = 8) ∧
    (leAt sesC.params 0 2 = 65535) ∧
    (zerosAt sesC.params 2 6 = true) ∧
    (((hold sesC tl).slot sesC.tenant).valid = false) :=
  ⟨readyOf (by decide), by decide, by decide, by decide, by decide⟩

theorem meets_SessionCommands_9 :
    (Ready (hold sesC keyedWalk) sesC 20) ∧
    (sesC.params.length = 8) ∧
    (leAt sesC.params 0 2 = 65535) ∧
    (zerosAt sesC.params 2 6 = true) ∧
    (((hold sesC keyedWalk).slot sesC.tenant).valid = true) ∧
    ((hold sesC keyedWalk).underWalk sesC.tenant = true) :=
  ⟨readyOf (by decide), by and_intros <;> decide⟩

theorem meets_SessionCommands_11 :
    (stopped.key.drbgStopped = true) ∧
    (stopped.key.trngDead = false) :=
  ⟨by decide, by decide⟩

theorem meets_SessionCommands_12 :
    (stopped2.key.drbgStopped = true) ∧
    (stopped2.key.trngDead = false) ∧
    (stopped2.key.trngRepeats = 2) :=
  ⟨by decide, by decide, by decide⟩

theorem meets_RekeyCommands_1 :
    (Ready (hold rmap tl) rmap 144) ∧
    (rmap.params.length = 24) ∧
    (rmap.p 1 1 = 0) ∧
    (zerosAt rmap.params 6 2 = true) ∧
    (rmap.p 0 1 = 0) ∧
    (rmap.p 2 2 < 1024) ∧
    (rmap.p 4 2 < 256) ∧
    (((hold rmap tl).desc (rmap.p 4 2)).valid = false) ∧
    ((hold rmap tl).rangeOk (rmap.p 8 8) (rmap.p 16 8) = true) ∧
    ((hold rmap tl).key.walk = none) ∧
    ((hold rmap tl).tdiLocked = false) :=
  ⟨readyOf (by decide), by and_intros <;> decide⟩

theorem meets_RekeyCommands_2 :
    (Ready (hold rmap tdl) rmap 144) ∧
    (rmap.params.length = 24) ∧
    (rmap.p 1 1 = 0) ∧
    (zerosAt rmap.params 6 2 = true) ∧
    (rmap.p 0 1 = 0) ∧
    (rmap.p 2 2 < 1024) ∧
    (rmap.p 4 2 < 256) ∧
    (((hold rmap tdl).desc (rmap.p 4 2)).valid = false) ∧
    ((hold rmap tdl).rangeOk (rmap.p 8 8) (rmap.p 16 8) = true) ∧
    ((hold rmap tdl).key.walk = none) ∧
    ((hold rmap tdl).tdiLocked = true) :=
  ⟨readyOf (by decide), by and_intros <;> decide⟩

theorem meets_RekeyCommands_3 :
    (Ready (hold rmap mapped) rmap 144) ∧
    (rmap.params.length = 24) ∧
    (rmap.p 1 1 = 0) ∧
    (zerosAt rmap.params 6 2 = true) ∧
    (rmap.p 0 1 = 0) ∧
    (((hold rmap mapped).desc (rmap.p 4 2)).valid = true) :=
  ⟨readyOf (by decide), by and_intros <;> decide⟩

theorem meets_RekeyCommands_4 :
    (Ready (hold runmap mapped) runmap 144) ∧
    (runmap.params.length = 24) ∧
    (runmap.p 1 1 = 0) ∧
    (zerosAt runmap.params 6 2 = true) ∧
    (runmap.p 0 1 = 1) ∧
    (runmap.p 2 2 = 0) ∧
    (runmap.p 4 2 < 256) ∧
    (zerosAt runmap.params 8 16 = true) ∧
    ((hold runmap mapped).key.walk = none) ∧
    ((hold runmap mapped).tdiLocked = false) :=
  ⟨readyOf (by decide), by and_intros <;> decide⟩

theorem meets_RekeyCommands_5 :
    (Ready (hold rrot tl) rrot 144) ∧
    (rrot.params.length = 24) ∧
    (rrot.p 1 1 = 0) ∧
    (zerosAt rrot.params 6 2 = true) ∧
    (rrot.p 0 1 = 2) ∧
    (rrot.p 2 2 < 1024) ∧
    (rrot.p 4 2 = 0) ∧
    (zerosAt rrot.params 8 16 = true) ∧
    ((hold rrot tl).key.walk = none) ∧
    (((hold rrot tl).slot (rrot.p 2 2)).valid = false) :=
  ⟨readyOf (by decide), by and_intros <;> decide⟩

theorem meets_RekeyCommands_6 :
    (Ready (hold rrot mapped) rrot 144) ∧
    (rrot.params.length = 24) ∧
    (rrot.p 1 1 = 0) ∧
    (zerosAt rrot.params 6 2 = true) ∧
    (rrot.p 0 1 = 2) ∧
    (rrot.p 2 2 < 1024) ∧
    (rrot.p 4 2 = 0) ∧
    (zerosAt rrot.params 8 16 = true) ∧
    ((hold rrot mapped).key.walk = none) ∧
    (((hold rrot mapped).slot (rrot.p 2 2)).valid = true) ∧
    ((hold rrot mapped).key.drbgStopped = false) ∧
    ((hold rrot mapped).walkSet (rrot.p 2 2) = some (16777216, 16777217)) :=
  ⟨readyOf (by decide), by and_intros <;> decide⟩

theorem meets_RekeyCommands_7 :
    (Ready (hold rrot keyed) rrot 144) ∧
    (rrot.params.length = 24) ∧
    (rrot.p 1 1 = 0) ∧
    (zerosAt rrot.params 6 2 = true) ∧
    (rrot.p 0 1 = 2) ∧
    (rrot.p 2 2 < 1024) ∧
    (rrot.p 4 2 = 0) ∧
    (zerosAt rrot.params 8 16 = true) ∧
    ((hold rrot keyed).key.walk = none) ∧
    (((hold rrot keyed).slot (rrot.p 2 2)).valid = true) ∧
    ((hold rrot keyed).key.drbgStopped = false) ∧
    ((hold rrot keyed).walkSet (rrot.p 2 2) = none) :=
  ⟨readyOf (by decide), by and_intros <;> decide⟩

theorem meets_RekeyCommands_8 :
    (Ready (hold rini (lostS (16777216 : BitVec 28) (16777218 : BitVec 28))) rini 144) ∧
    (rini.params.length = 24) ∧
    (rini.p 1 1 = 0) ∧
    (zerosAt rini.params 6 2 = true) ∧
    (rini.p 0 1 = 3) ∧
    (rini.p 2 2 = 0) ∧
    (rini.p 4 2 = 0) ∧
    ((hold rini (lostS (16777216 : BitVec 28) (16777218 : BitVec 28))).rangeOk (rini.p 8 8) (rini.p 16 8) = true) ∧
    ((hold rini (lostS (16777216 : BitVec 28) (16777218 : BitVec 28))).partlyLost (rini.p 8 8) (rini.p 16 8) = false) ∧
    ((hold rini (lostS (16777216 : BitVec 28) (16777218 : BitVec 28))).key.walk = none) :=
  ⟨readyOf (by decide), by and_intros <;> decide⟩

theorem meets_RekeyCommands_9 :
    (Ready (hold rini (lostS (16777217 : BitVec 28) (16777219 : BitVec 28))) rini 144) ∧
    (rini.params.length = 24) ∧
    (rini.p 1 1 = 0) ∧
    (zerosAt rini.params 6 2 = true) ∧
    (rini.p 0 1 = 3) ∧
    ((hold rini (lostS (16777217 : BitVec 28) (16777219 : BitVec 28))).rangeOk (rini.p 8 8) (rini.p 16 8) = true) ∧
    ((hold rini (lostS (16777217 : BitVec 28) (16777219 : BitVec 28))).partlyLost (rini.p 8 8) (rini.p 16 8) = true) :=
  ⟨readyOf (by decide), by and_intros <;> decide⟩

theorem meets_RekeyCommands_11 :
    (iniW.key.walk = some walkI) ∧
    (walkI.init = true) ∧
    (iniW.key.paused = false) ∧
    (iniW.cmd walkI.cmd = some wcmd) :=
  ⟨by decide, by decide, by decide, by decide⟩

theorem meets_RekeyCommands_12 :
    (tl.key.walk = none) :=
  by decide

theorem meets_HostAccesses_2 :
    (sr.memc.bar2Base = (0 : BitVec 14)) ∧
    (BitVec.toNat (4194304 : BitVec 26) = 4194304) :=
  ⟨by decide, by decide⟩

theorem meets_HostAccesses_3 :
    ((List.replicate 64 (1 : Byte)).length = 64) ∧
    (confM.memc.bar2Base = (1024 : BitVec 14)) ∧
    (BitVec.toNat (0 : BitVec 26) % 4096 = 0) ∧
    (confM.region (lpddrBase + BitVec.toNat (0 : BitVec 26)) = Region.lpddr) ∧
    (confM.key.lost = false) ∧
    (confM.winner ((lpddrBase + BitVec.toNat (0 : BitVec 26)) / 4096) = some desc1) ∧
    ((confM.slot desc1.slot).valid = true) ∧
    ((confM.slot desc1.slot).conf = true) :=
  by and_intros <;> decide

theorem meets_HostAccesses_4 :
    (tl.tdiLocked = false) :=
  by decide

theorem meets_HostAccesses_5 :
    (tdl.tdiLocked = true) :=
  by decide

theorem meets_HostAccesses_8 :
    (tdk.tdiLocked = true) ∧
    (cfgB.busMaster = some true) ∧
    (true ≠ tdk.memc.busMaster) :=
  ⟨by decide, by decide, by decide⟩

theorem meets_HostAccesses_9 :
    (tdk.tdiLocked = true) ∧
    ((tget { : Ide } tdk.key.ide 1).secure = true) :=
  ⟨by decide, by decide⟩

theorem meets_TrustedSession_1 :
    ((sp Spdm.versioned Tdi.unlocked).key.spdm = Spdm.versioned) :=
  by decide

theorem meets_TrustedSession_2 :
    ((sp Spdm.capable Tdi.unlocked).key.spdm = Spdm.capable) :=
  by decide

theorem meets_TrustedSession_3 :
    ((sp Spdm.negotiated Tdi.unlocked).key.spdm = Spdm.negotiated) ∧
    ((sp Spdm.negotiated Tdi.unlocked).key.drbgStopped = false) :=
  ⟨by decide, by decide⟩

theorem meets_TrustedSession_4 :
    ((sp Spdm.handshake Tdi.unlocked).key.spdm = Spdm.handshake) :=
  by decide

theorem meets_TrustedSession_5 :
    ((sp Spdm.handshake Tdi.unlocked).key.spdm ≠ Spdm.established) ∧
    (Instr.stopInterface ∈ [Instr.endSession, Instr.ideKmQuery, Instr.getTdispVersion, Instr.getTdispCapabilities, Instr.lockInterface, Instr.getDeviceInterfaceReport, Instr.getDeviceInterfaceState, Instr.startInterface, Instr.stopInterface]) :=
  ⟨by decide, by simp⟩

theorem meets_TrustedSession_6 :
    ((sp Spdm.established Tdi.run).key.spdm = Spdm.established) :=
  by decide

theorem meets_TrustedSession_10 :
    (ideL.key.spdm = Spdm.established) ∧
    (ideL.key.tdi = Tdi.locked) ∧
    ((List.any ideL.key.ide fun e => e.2.secure) = true) :=
  ⟨by decide, by decide, by decide⟩

theorem meets_TrustedSession_11 :
    (ideS.key.spdm = Spdm.established) ∧
    (ideS.key.tdi ≠ Tdi.locked) :=
  ⟨by decide, by decide⟩

theorem meets_TrustedSession_12 :
    ((sp Spdm.established Tdi.run).key.spdm = Spdm.established) ∧
    ((sp Spdm.established Tdi.run).key.tdi = Tdi.run) :=
  ⟨by decide, by decide⟩

theorem meets_Boot_2 :
    ((boot (0 : BitVec 3)).glb.stage = (1 : BitVec 4)) ∧
    ((boot (0 : BitVec 3)).glb.mgrRunning = true) ∧
    ((boot (0 : BitVec 3)).glb.resetHeld = false) ∧
    ((boot (0 : BitVec 3)).glb.bootMode = (0 : BitVec 3)) ∧
    ([(76 : Byte)].length ≤ 4194304) ∧
    (imageError [(76 : Byte)] ≠ 0) :=
  by and_intros <;> decide

theorem meets_Boot_3 :
    ((boot (1 : BitVec 3)).glb.stage = (1 : BitVec 4)) ∧
    ((boot (1 : BitVec 3)).glb.mgrRunning = true) ∧
    ((boot (1 : BitVec 3)).glb.resetHeld = false) ∧
    ((boot (1 : BitVec 3)).glb.bootMode = (1 : BitVec 3)) ∧
    ((boot (1 : BitVec 3)).glb.source = (0 : BitVec 2)) :=
  by and_intros <;> decide

theorem meets_Boot_4 :
    (leAt [(76 : Byte)] 0 4 ≠ 826756174) :=
  by decide

theorem meets_Boot_5 :
    (leAt hdr2 0 4 = 826756174) ∧
    (4 ≤ leAt hdr2 6 1) :=
  ⟨by decide, by decide⟩

theorem meets_Boot_6 :
    ((boot (0 : BitVec 3)).glb.stage = (1 : BitVec 4)) :=
  by decide

theorem meets_Boot_7 :
    (tl.glb.stage ≠ (1 : BitVec 4)) :=
  by decide

theorem meets_Boot_8 :
    (fwRuns.glb.stage = (3 : BitVec 4)) ∧
    (fwRuns.glb.mgrRunning = true) ∧
    (fwRuns.glb.resetHeld = false) ∧
    (fwRuns.glb.ready = false) ∧
    (fwRuns.build.lpddrTrains = true) :=
  by and_intros <;> decide

theorem meets_Boot_9 :
    (tl.glb.stage ≠ (3 : BitVec 4)) :=
  by decide

theorem meets_Boot_10 :
    ((boot (5 : BitVec 3)).glb.stage = (1 : BitVec 4)) ∧
    ((boot (5 : BitVec 3)).glb.bootMode = (5 : BitVec 3)) :=
  ⟨by decide, by decide⟩

theorem meets_Boot_11 :
    let s : State := boot 3
    (s.glb.stage = 1) ∧
    (s.glb.mgrRunning = true) ∧
    (s.glb.resetHeld = false) ∧
    (s.glb.bootMode = 3 ∨ s.glb.bootMode = 4) :=
  ⟨by decide, by decide, by decide, by decide⟩

theorem meets_HostAccesses_10 :
    let s : State := tl
    let c : PcieCfg := cfgB
    (s.key.tdi = Tdi.unlocked) ∧
    (c.ideAssoc = none) :=
  ⟨by decide, by decide⟩

theorem meets_SessionCommands_13 :
    let s : State := hold sys3 tl
    let c : Cmd := sys3
    let i : Instr := .sessionClose 1
    let op : ℕ := 0x14
    ((∃ tie, i = Instr.sessionOpen c.id tie) ∧ op = 19 ∨ i = Instr.sessionClose c.id ∧ op = 20) ∧
    (Ready s c op) ∧
    (c.params.length = 8) ∧
    (leAt c.params 0 2 < 1024 ∨ 1152 ≤ leAt c.params 0 2 ∧ leAt c.params 0 2 < 65535) :=
  ⟨by decide, readyOf (by decide), by decide, by decide⟩

theorem meets_SessionCommands_14 :
    let s : State := hold sys2 rev1
    let c : Cmd := sys2
    let i : Instr := .sessionClose 1
    let op : ℕ := 0x14
    ((∃ tie, i = Instr.sessionOpen c.id tie) ∧ op = 19 ∨ i = Instr.sessionClose c.id ∧ op = 20) ∧
    (Ready s c op) ∧
    (c.params.length = 8) ∧
    (1024 ≤ leAt c.params 0 2) ∧
    (leAt c.params 0 2 < 1152) ∧
    (c.priv = true) ∧
    (zerosAt c.params 2 6 = true) ∧
    (s.rev2 = false) :=
  ⟨by decide, readyOf (by decide), by and_intros <;> decide⟩

theorem meets_SessionCommands_15 :
    let s : State := hold sys1 tl
    let c : Cmd := sys1
    let i : Instr := .sessionOpen 1 false
    let op : ℕ := 0x13
    ((∃ tie, i = Instr.sessionOpen c.id tie) ∧ op = 19 ∨ i = Instr.sessionClose c.id ∧ op = 20) ∧
    (Ready s c op) ∧
    (c.params.length = 8) ∧
    (1024 ≤ leAt c.params 0 2) ∧
    (leAt c.params 0 2 < 1152) ∧
    (c.priv = false) :=
  ⟨by decide, readyOf (by decide), by decide, by decide, by decide, by decide⟩

def src1 : State := { boot 1 with glb.source := 1 }
def load2 (n : Nat) : State := { boot 2 with glb.loadLen := n }
def noTrain : State := { fwRuns with build.lpddrTrains := false }
def lostB : State := { lostS 0x1000000 0x1000001 with memc.bar2Base := 0x400 }
def mapInv : State := { mapped with memc.bar2Base := 0x400, key.slots := [] }
def plainB : State := { tl with memc.bar2Base := 0x400 }
def rotStop : State := hold rrot { keyed with key.drbgStopped := true }
def rbad : Cmd := rk 0 1 256 0x1000000000 0x1000001000
def sys1p : Cmd := ses 0x13 1024 0 true
def sys2S : State := hold sys2 { tl with key.slots := [(1151, vs)] }
def ideR : State := { ideS with key.tdi := .run }

theorem meets_Boot_12 :
    let s : State := (boot (0 : BitVec 3))
    (s.glb.stage = 1) ∧
    (s.glb.mgrRunning = true) ∧
    (s.glb.resetHeld = false) ∧
    (s.glb.bootMode = 0) :=
  ⟨by decide +kernel, by decide +kernel, by decide +kernel, by decide +kernel⟩

theorem meets_Boot_13 :
    let s : State := (boot (1 : BitVec 3))
    (s.glb.stage = 1) ∧
    (s.glb.mgrRunning = true) ∧
    (s.glb.resetHeld = false) ∧
    (s.glb.bootMode = 1) ∧
    (s.glb.source ≠ 1) :=
  ⟨by decide +kernel, by decide +kernel, by decide +kernel, by decide +kernel, by decide +kernel⟩

theorem meets_HostAccesses_11 :
    let s : State := tl
    ∃ i : Fin 2, s.tdiLocked = false ∨ (tget {  } s.key.ide i.val).secure = false :=
  by decide +kernel

theorem meets_RekeyCommands_14 :
    let s : State := rotW
    let w : Walk := walk1
    let c : Cmd := wcmd
    (s.key.walk = some w) ∧
    (w.init = false) ∧
    (s.key.paused = false) ∧
    (s.cmd w.cmd = some c) ∧
    (∃ n : ℕ, (s.slot w.slot).rot = some n) ∧
    ((s.slot w.slot).valid = true) ∧
    (Memory.wf s.mem = true) :=
  ⟨by decide +kernel, by decide +kernel, by decide +kernel, by decide +kernel, by exact ⟨_, rfl⟩, by decide +kernel, by decide +kernel⟩

theorem meets_TrustedSession_13 :
    let s : State := (sp Spdm.handshake Tdi.unlocked)
    s.key.spdm ≠ Spdm.established :=
  by decide +kernel

theorem meets_TrustedSession_14 :
    let s : State := ideL
    (s.key.spdm = Spdm.established) ∧
    (∃ k : Fin 2, ∃ sub : Fin 3, ∃ st : Fin 2, tget none (tget {  } s.key.ide st.val).keys (2 * sub.val + k.val) ≠ none) :=
  ⟨by decide +kernel, by decide +kernel⟩

theorem meets_TrustedSession_15 :
    let s : State := ideL
    (s.key.spdm = Spdm.established) ∧
    (∃ k : Fin 2, ∃ sub : Fin 3, ∃ st : Fin 2, tget none (tget {  } s.key.ide st.val).keys (2 * sub.val + k.val) = none) :=
  ⟨by decide +kernel, by decide +kernel⟩

theorem meets_TrustedSession_16 :
    let s : State := ideL
    (s.key.spdm = Spdm.established) ∧
    (∃ st : Fin 2, s.tdiLocked = false ∨ (tget {  } s.key.ide st.val).secure = false) :=
  ⟨by decide +kernel, by decide +kernel⟩

theorem meets_Boot_14 :
    let s : State := boot 5
    (s.glb.stage = 1) ∧
    (s.glb.mgrRunning = true) ∧
    (s.glb.resetHeld = false) ∧
    (s.glb.bootMode = 5) :=
  ⟨by decide +kernel, by decide +kernel, by decide +kernel, by decide +kernel⟩

theorem meets_Boot_15 :
    let s : State := src1
    (s.glb.stage = 1) ∧
    (s.glb.mgrRunning = true) ∧
    (s.glb.resetHeld = false) ∧
    (s.glb.bootMode = 1) ∧
    (s.glb.source = 1) :=
  ⟨by decide +kernel, by decide +kernel, by decide +kernel, by decide +kernel, by decide +kernel⟩

theorem meets_Boot_16 :
    let s : State := load2 4
    (s.glb.stage = 1) ∧
    (s.glb.mgrRunning = true) ∧
    (s.glb.resetHeld = false) ∧
    (s.glb.bootMode = 2) ∧
    (s.glb.loadLen ≠ 0) :=
  ⟨by decide +kernel, by decide +kernel, by decide +kernel, by decide +kernel, by decide +kernel⟩

theorem meets_Boot_17 :
    let s : State := load2 0
    (s.glb.stage = 1) ∧
    (s.glb.mgrRunning = true) ∧
    (s.glb.resetHeld = false) ∧
    (s.glb.bootMode = 2) ∧
    (s.glb.loadLen = 0) :=
  ⟨by decide +kernel, by decide +kernel, by decide +kernel, by decide +kernel, by decide +kernel⟩

theorem meets_Boot_18 :
    let s : State := noTrain
    (s.glb.stage = 3) ∧
    (s.glb.mgrRunning = true) ∧
    (s.glb.resetHeld = false) ∧
    (s.glb.ready = false) ∧
    (s.build.lpddrTrains = false) :=
  ⟨by decide +kernel, by decide +kernel, by decide +kernel, by decide +kernel, by decide +kernel⟩

theorem meets_Boot_19 :
    let s : State := t1
    s.glb.stage ≠ 1 ∨ s.glb.bootMode ≠ 5 :=
  by decide +kernel

theorem meets_Boot_20 :
    let s : State := t1
    s.glb.stage ≠ 1 ∨ s.glb.mgrRunning = false ∨ s.glb.resetHeld = true :=
  by decide +kernel

theorem meets_HostAccesses_12 :
    let s : State := tl
    let off : BitVec 26 := 0x3FFFFC
    let n : ℕ := 4
    (s.memc.bar2Base = 0) ∧
    (0 < n) ∧
    (off.toNat + n ≤ 4194304) ∧
    (s.key.walk = none ∨ 4194304 ≤ s.key.wm.toNat) :=
  ⟨by decide +kernel, by decide +kernel, by decide +kernel, by decide +kernel⟩

theorem meets_HostAccesses_13 :
    let s : State := tl
    let off : BitVec 26 := 0x3FFFFC
    let n : ℕ := 4
    let i : ℕ := 3
    (s.memc.bar2Base = 0) ∧
    (0 < n) ∧
    (off.toNat + n ≤ 4194304) ∧
    (s.key.walk = none ∨ 4194304 ≤ s.key.wm.toNat) ∧
    (i < n) :=
  ⟨by decide +kernel, by decide +kernel, by decide +kernel, by decide +kernel, by decide +kernel⟩

theorem meets_HostAccesses_14 :
    let s : State := tl
    let off : BitVec 26 := 0x3FFFFC
    let n : ℕ := 4
    let bs : List Byte := [1, 2, 3, 4]
    (s.memc.bar2Base = 0) ∧
    (0 < n) ∧
    (off.toNat + n ≤ 4194304) ∧
    (s.key.walk = none ∨ 4194304 ≤ s.key.wm.toNat) ∧
    (bs.length = n) :=
  ⟨by decide +kernel, by decide +kernel, by decide +kernel, by decide +kernel, by decide +kernel⟩

theorem meets_HostAccesses_15 :
    let s : State := lostB
    let off : BitVec 26 := 0
    (s.memc.bar2Base = 1024) ∧
    (off.toNat % 4 = 0) ∧
    (s.region (lpddrBase + off.toNat) = Region.lpddr) ∧
    (s.isLost ((lpddrBase + off.toNat) / 4096) = true) :=
  ⟨by decide +kernel, by decide +kernel, by decide +kernel, by decide +kernel⟩

theorem meets_HostAccesses_16 :
    let s : State := mapInv
    let off : BitVec 26 := 0
    let d : Desc := desc1
    (s.memc.bar2Base = 1024) ∧
    (off.toNat % 4 = 0) ∧
    (s.region (lpddrBase + off.toNat) = Region.lpddr) ∧
    (s.isLost ((lpddrBase + off.toNat) / 4096) = false) ∧
    (s.winner ((lpddrBase + off.toNat) / 4096) = some d) ∧
    ((s.slot d.slot).valid = false) :=
  ⟨by decide +kernel, by decide +kernel, by decide +kernel, by decide +kernel, by decide +kernel, by decide +kernel⟩

theorem meets_HostAccesses_17 :
    let s : State := plainB
    let off : BitVec 26 := 0
    (s.memc.bar2Base = 1024) ∧
    (off.toNat % 4 = 0) ∧
    (s.region (lpddrBase + off.toNat) = Region.lpddr) ∧
    (s.isLost ((lpddrBase + off.toNat) / 4096) = false) ∧
    (s.key.walk = none) ∧
    (∀ (d : Desc), s.winner ((lpddrBase + off.toNat) / 4096) = some d → (s.slot d.slot).valid = true ∧ (s.slot d.slot).conf = false) :=
  ⟨by decide +kernel, by decide +kernel, by decide +kernel, by decide +kernel, by decide +kernel, by decide +kernel⟩

theorem meets_HostAccesses_18 :
    let s : State := plainB
    let off : BitVec 26 := 0
    let bs : List Byte := [1, 2, 3, 4]
    (s.memc.bar2Base = 1024) ∧
    (off.toNat % 4 = 0) ∧
    (s.region (lpddrBase + off.toNat) = Region.lpddr) ∧
    (s.isLost ((lpddrBase + off.toNat) / 4096) = false) ∧
    (s.key.walk = none) ∧
    (∀ (d : Desc), s.winner ((lpddrBase + off.toNat) / 4096) = some d → (s.slot d.slot).valid = true ∧ (s.slot d.slot).conf = false) ∧
    (bs.length = 4) :=
  ⟨by decide +kernel, by decide +kernel, by decide +kernel, by decide +kernel, by decide +kernel, by decide +kernel, by decide +kernel⟩

theorem meets_HostAccesses_19 :
    let s : State := tl
    let off : BitVec 26 := 0x1000000
    let d : ℕ := 0
    (s.memc.bar2Base = 0) ∧
    (off.toNat % 4 = 0) ∧
    (s.region off.toNat = Region.dm d) ∧
    (s.dieUp d = false) :=
  ⟨by decide +kernel, by decide +kernel, by decide +kernel, by decide +kernel⟩

theorem meets_HostAccesses_20 :
    let s : State := tl
    let off : BitVec 26 := 0x1000000
    let d : ℕ := 0
    let bs : List Byte := [1, 2, 3, 4]
    (s.memc.bar2Base = 0) ∧
    (off.toNat % 4 = 0) ∧
    (s.region off.toNat = Region.dm d) ∧
    (s.dieUp d = false) ∧
    (bs.length = 4) :=
  ⟨by decide +kernel, by decide +kernel, by decide +kernel, by decide +kernel, by decide +kernel⟩

theorem meets_HostAccesses_21 :
    let s : State := up t1
    let off : BitVec 26 := 0x1000000
    let d : ℕ := 0
    let bs : List Byte := [1, 2, 3, 4]
    (s.memc.bar2Base = 0) ∧
    (off.toNat % 4 = 0) ∧
    (s.region off.toNat = Region.dm d) ∧
    (s.dieUp d = true) ∧
    (bs.length = 4) :=
  ⟨by decide +kernel, by decide +kernel, by decide +kernel, by decide +kernel, by decide +kernel⟩

theorem meets_HostAccesses_22 :
    let s : State := tl
    let c : PcieCfg := cfgB
    (s.tdiLocked = false ∨ c.bar0.getD s.memc.bar0 = s.memc.bar0 ∧ c.bar2.getD s.memc.bar2 = s.memc.bar2 ∧ c.memEnable.getD s.memc.memEnable = s.memc.memEnable ∧ c.busMaster.getD s.memc.busMaster = s.memc.busMaster ∧ c.msixLocation.getD s.memc.msixLocation = s.memc.msixLocation) ∧
    (c.ideAssoc = none) :=
  ⟨by decide +kernel, by decide +kernel⟩

theorem meets_HostAccesses_23 :
    let s : State := tdl
    let c : PcieCfg := cfgB
    (s.tdiLocked = true) ∧
    (c.bar0.getD s.memc.bar0 ≠ s.memc.bar0 ∨ c.bar2.getD s.memc.bar2 ≠ s.memc.bar2 ∨ c.memEnable.getD s.memc.memEnable ≠ s.memc.memEnable ∨ c.busMaster.getD s.memc.busMaster ≠ s.memc.busMaster ∨ c.msixLocation.getD s.memc.msixLocation ≠ s.memc.msixLocation) :=
  ⟨by decide +kernel, by decide +kernel⟩

theorem meets_RekeyCommands_15 :
    let s : State := rotStop
    let c : Cmd := rrot
    (Ready s c 144) ∧
    (c.params.length = 24) ∧
    (c.p 1 1 = 0) ∧
    (zerosAt c.params 6 2 = true) ∧
    (c.p 0 1 = 2) ∧
    (c.p 2 2 < 1024) ∧
    (c.p 4 2 = 0) ∧
    (zerosAt c.params 8 16 = true) ∧
    (s.key.walk = none) ∧
    ((s.slot (c.p 2 2)).valid = true) ∧
    (s.key.drbgStopped = true) :=
  ⟨readyOf (by decide +kernel), by decide +kernel, by decide +kernel, by decide +kernel, by decide +kernel, by decide +kernel, by decide +kernel, by decide +kernel, by decide +kernel, by decide +kernel, by decide +kernel⟩

theorem meets_RekeyCommands_16 :
    let s : State := hold rbad keyed
    let c : Cmd := rbad
    (Ready s c 144) ∧
    (c.params.length = 24) ∧
    (c.p 1 1 = 0) ∧
    (zerosAt c.params 6 2 = true) ∧
    (s.rekeyBad c = true) ∧
    (c.p 0 1 = 0 ∨ 3 < c.p 0 1) :=
  ⟨readyOf (by decide +kernel), by decide +kernel, by decide +kernel, by decide +kernel, by decide +kernel, by decide +kernel⟩

theorem meets_RekeyCommands_17 :
    let s : State := hold rmap keyedWalk
    let c : Cmd := rmap
    (Ready s c 144) ∧
    (c.params.length = 24) ∧
    (c.p 1 1 = 0) ∧
    (zerosAt c.params 6 2 = true) ∧
    (s.rekeyBad c = false) ∧
    (s.key.walk ≠ none) ∧
    (c.p 2 2 < 1024 ∨ s.rev2 = true) ∧
    (c.p 0 1 = 0) :=
  ⟨readyOf (by decide +kernel), by decide +kernel, by decide +kernel, by decide +kernel, by decide +kernel, by decide +kernel, by decide +kernel, by decide +kernel⟩

theorem meets_RekeyCommands_18 :
    let s : State := hold runmap keyedWalk
    let c : Cmd := runmap
    (Ready s c 144) ∧
    (c.params.length = 24) ∧
    (c.p 1 1 = 0) ∧
    (zerosAt c.params 6 2 = true) ∧
    (s.rekeyBad c = false) ∧
    (s.key.walk ≠ none) ∧
    (c.p 2 2 < 1024 ∨ s.rev2 = true) ∧
    (c.p 0 1 = 1) :=
  ⟨readyOf (by decide +kernel), by decide +kernel, by decide +kernel, by decide +kernel, by decide +kernel, by decide +kernel, by decide +kernel, by decide +kernel⟩

theorem meets_RekeyCommands_19 :
    let s : State := hold rrot keyedWalk
    let c : Cmd := rrot
    (Ready s c 144) ∧
    (c.params.length = 24) ∧
    (c.p 1 1 = 0) ∧
    (zerosAt c.params 6 2 = true) ∧
    (s.rekeyBad c = false) ∧
    (s.key.walk ≠ none) ∧
    (c.p 2 2 < 1024 ∨ s.rev2 = true) ∧
    (c.p 0 1 = 2) :=
  ⟨readyOf (by decide +kernel), by decide +kernel, by decide +kernel, by decide +kernel, by decide +kernel, by decide +kernel, by decide +kernel, by decide +kernel⟩

theorem meets_RekeyCommands_20 :
    let s : State := hold rini keyedWalk
    let c : Cmd := rini
    (Ready s c 144) ∧
    (c.params.length = 24) ∧
    (c.p 1 1 = 0) ∧
    (zerosAt c.params 6 2 = true) ∧
    (s.rekeyBad c = false) ∧
    (s.key.walk ≠ none) ∧
    (c.p 2 2 < 1024 ∨ s.rev2 = true) ∧
    (c.p 0 1 = 3) :=
  ⟨readyOf (by decide +kernel), by decide +kernel, by decide +kernel, by decide +kernel, by decide +kernel, by decide +kernel, by decide +kernel, by decide +kernel⟩

theorem meets_RekeyCommands_21 :
    let s : State := rotW
    let w : Walk := walk1
    let c : Cmd := wcmd
    let n : ℕ := 5
    let a : BitVec 40 := 0x1000000000
    (s.key.walk = some w) ∧
    (w.init = false) ∧
    (s.key.paused = false) ∧
    (s.cmd w.cmd = some c) ∧
    ((s.slot w.slot).rot = some n) ∧
    ((s.slot w.slot).valid = true) ∧
    (Memory.wf s.mem = true) ∧
    (a.toNat % 64 = 0) ∧
    (s.key.wm.toNat ≤ a.toNat) ∧
    (s.wins w.slot (a.toNat / 4096) = true) :=
  ⟨by decide +kernel, by decide +kernel, by decide +kernel, by decide +kernel, by decide +kernel, by decide +kernel, by decide +kernel, by decide +kernel, by decide +kernel, by decide +kernel⟩

theorem meets_SessionCommands_16 :
    let s : State := hold sys1p tl
    let c : Cmd := sys1p
    (Ready s c 19) ∧
    (c.params.length = 8) ∧
    (1024 ≤ leAt c.params 0 2) ∧
    (leAt c.params 0 2 < 1152) ∧
    (c.priv = true) ∧
    (s.rev2 = true) ∧
    (zerosAt c.params 2 6 = true) ∧
    ((s.slot (leAt c.params 0 2)).valid = false) ∧
    (s.key.drbgStopped = false) :=
  ⟨readyOf (by decide +kernel), by decide +kernel, by decide +kernel, by decide +kernel, by decide +kernel, by decide +kernel, by decide +kernel, by decide +kernel, by decide +kernel⟩

theorem meets_SessionCommands_17 :
    let s : State := sys2S
    let c : Cmd := sys2
    (Ready s c 20) ∧
    (c.params.length = 8) ∧
    (1024 ≤ leAt c.params 0 2) ∧
    (leAt c.params 0 2 < 1152) ∧
    (c.priv = true) ∧
    (s.rev2 = true) ∧
    (zerosAt c.params 2 6 = true) ∧
    ((s.slot (leAt c.params 0 2)).valid = true) ∧
    (s.underWalk (leAt c.params 0 2) = false) :=
  ⟨readyOf (by decide +kernel), by decide +kernel, by decide +kernel, by decide +kernel, by decide +kernel, by decide +kernel, by decide +kernel, by decide +kernel, by decide +kernel⟩

theorem meets_SessionCommands_18 :
    let s : State := hold sesC keyed
    let c : Cmd := sesC
    (Ready s c 20) ∧
    (c.params.length = 8) ∧
    (leAt c.params 0 2 = 65535) ∧
    (zerosAt c.params 2 6 = true) ∧
    ((s.slot c.tenant).valid = true) ∧
    (s.underWalk c.tenant = false) :=
  ⟨readyOf (by decide +kernel), by decide +kernel, by decide +kernel, by decide +kernel, by decide +kernel, by decide +kernel⟩

theorem meets_TrustedSession_17 :
    let s : State := tl
    s.key.spdm ≠ Spdm.versioned :=
  by decide +kernel

theorem meets_TrustedSession_18 :
    let s : State := tl
    s.key.spdm ≠ Spdm.capable :=
  by decide +kernel

theorem meets_TrustedSession_19 :
    let s : State := tl
    s.key.spdm ≠ Spdm.negotiated ∨ s.key.drbgStopped = true :=
  by decide +kernel

theorem meets_TrustedSession_20 :
    let s : State := tl
    s.key.spdm ≠ Spdm.handshake :=
  by decide +kernel

theorem meets_TrustedSession_21 :
    let s : State := ideR
    let st : Fin 2 := 1
    let sub : Fin 3 := 2
    let k : Fin 2 := 0
    (s.key.spdm = Spdm.established) ∧
    (s.tdiLocked = true) ∧
    ((tget {  } s.key.ide st.val).secure = true) ∧
    (({ (tget { } s.key.ide st.val) with active := tset false (tget {  } s.key.ide st.val).active (2 * sub.val + k.val) false } : Ide).secure = false) :=
  ⟨by decide +kernel, by decide +kernel, by decide +kernel, by decide +kernel⟩

theorem meets_TrustedSession_22 :
    let s : State := ideL
    (s.key.spdm = Spdm.established) ∧
    (s.key.tdi ≠ Tdi.unlocked) :=
  ⟨by decide +kernel, by decide +kernel⟩

end Part08

namespace Part09

def up (s : State) : State := { s with dies := [(0, { bridge := .up, power := .on }), (3, { bridge := .up, power := .on })] }
def mask63 : W64 := BitVec.ofNat 64 (2 ^ 63 + 2 ^ 40)
def full63 : State := { up t1 with streams := [(0, some { tenant := 1, image := 0, entry := 0, bLog2 := 6, chIn := 1, chOut := 1, fp32 := false, holdFade := false, reserve := 0, inRoute := [0], outRoute := [0], stateAddr := 0, core := 63, density := 900, fmax := 1 })] }
def adm : Homing := match (up t1).admission 1 mask63 6 100 0 0 256 256 with | .inr h => h | .inl _ => ⟨0, 0, 0, 0, 0⟩
def only63 : W64 := BitVec.ofNat 64 (2 ^ 63)
def only40 : W64 := BitVec.ofNat 64 (2 ^ 40)
def opn (b : Nat) (img : Nat) (addr : Nat) : Cmd := rd 0x30 32 [(0, 2, img), (4, 1, b), (6, 2, 100), (24, 8, addr)]
def opnOk : Cmd := { opn 6 0 0x10000 with cls := .realtime }
def ports : State := { up t1 with aud.ports := [(0, { ctrl := 0x111, clkOk := true })], tb.sfc := 64 }
def opnS : State := hold opnOk ports
def opnH : Homing := match (begun opnS opnOk).openAdmit (going opnOk) with | .inr h => h | .inl _ => ⟨0, 0, 0, 0, 0⟩
def opnBad : Cmd := rd 0x30 33 []
def noImg : State := hold opnOk { ports with images := [] }
def opnWin : Cmd := opn 6 0 0x3FFFF0
def opnBlk : Cmd := opn 9 0 0x10000
def sx : Stream := { tenant := 1, image := 0, entry := 0, bLog2 := 6, chIn := 1, chOut := 1, fp32 := false, holdFade := false, reserve := 100, inRoute := [0], outRoute := [0], stateAddr := 0x10000, core := 0, density := 100, fmax := 1, started := true, inBuf := 0, outBuf := 0x100 }
def withS (c : Cmd) : State := hold c { ports with streams := [(255, some sx)] }
def scl : Cmd := rd 0x31 8 [(0, 2, 255)]
def spa : Cmd := rd 0x34 9 [(0, 2, 255), (8, 1, 7)]
def sro (i : Nat) : Cmd := rd 0x33 24 [(0, 2, 255), (8, 1, i), (16, 1, 1)]
def smi (v : Nat) : Cmd := rd 0x32 24 [(0, 2, 255), (2, 1, 255), (8, 8, 2 ^ 63), (16, 6, v)]
def smH : Homing := match (begun (withS (smi 320)) (smi 320)).migrAdmit (going (smi 320)) sx with | .inr h => h | .inl _ => ⟨0, 0, 0, 0, 0⟩
def bad (c : Cmd) : State := hold c ports

theorem meets_StreamAdmission_1 :
    ((up t1).tenant 1 = some ten) ∧
    ((up t1).admission 1 mask63 6 100 0 0 256 256 = Sum.inr adm) :=
  ⟨by decide, by decide⟩

theorem meets_StreamAdmission_2 :
    (full63.tenant 1 = some ten) ∧
    (∀ (k : ℕ), ¬(fun c => bit only63 c = true ∧ c < 64 ∧ full63.dieUp (c / 16) = true ∧ full63.tenantDensity 1 + (fun c => full63.densityOf 6 (100 + full63.allowance c) 0 0) c ≤ ten.rtDensity ∧ full63.coreDensity c + (fun c => full63.densityOf 6 (100 + full63.allowance c) 0 0) c ≤ full63.sch.rtCap.toNat ∧ full63.fmPair c 256 256 ≠ none) k) ∧
    (∀ k < 64, bit only63 k = true → full63.dieUp (k / 16) = true) :=
  ⟨by decide, by rintro k ⟨h1, h2, h3⟩; revert h1 h3; revert k h2; decide, by decide⟩

theorem meets_StreamAdmission_3 :
    ((up t1).tenant 1 = some ten) ∧
    (∀ k < 64, bit only40 k = true → (up t1).dieUp (k / 16) = false) ∧
    (∃ k < 64, bit only40 k = true) :=
  ⟨by decide, by decide, ⟨40, by decide, by decide⟩⟩

theorem meets_StreamOpens_1 :
    (Ready opnS opnOk 48) ∧
    (checkOpen opnS opnOk = none) ∧
    ((begun opnS opnOk).openAdmit (going opnOk) = Sum.inr opnH) ∧
    (freeIndex opnS.streams 256 = some 0) :=
  ⟨readyOf (by decide), by decide, by decide, by decide⟩

theorem meets_StreamOpens_2 :
    (Ready (hold opnBad ports) opnBad 48) ∧
    (opnBad.params.length ≠ 32) :=
  ⟨readyOf (by decide), by decide⟩

theorem meets_StreamOpens_3 :
    (Ready noImg opnOk 48) ∧
    (opnOk.params.length = 32) ∧
    (leAt opnOk.params 24 8 < 2 ^ 40) ∧
    (∃ l, routesAt opnOk.params 8 opnOk.chIn = some l) ∧
    (∃ l, routesAt opnOk.params 16 opnOk.chOut = some l) ∧
    (noImg.images = []) :=
  ⟨readyOf (by decide), by decide, by decide, ⟨_, rfl⟩, ⟨_, rfl⟩, by decide⟩

theorem meets_StreamOpens_4 :
    (Ready (hold opnWin ports) opnWin 48) ∧
    (opnWin.params.length = 32) ∧
    (leAt opnWin.params 24 8 < 2 ^ 40) ∧
    (∃ l, routesAt opnWin.params 8 opnWin.chIn = some l) ∧
    (∃ l, routesAt opnWin.params 16 opnWin.chOut = some l) ∧
    ((hold opnWin ports).hasProgram opnWin.tenant (leAt opnWin.params 0 2) (leAt opnWin.params 2 2) = true) ∧
    ((hold opnWin ports).paramRw opnWin.tenant (leAt opnWin.params 24 8) 64 = false) :=
  ⟨readyOf (by decide), by decide, by decide, ⟨_, rfl⟩, ⟨_, rfl⟩, by decide, by decide⟩

theorem meets_StreamOpens_5 :
    (Ready (hold opnBlk ports) opnBlk 48) ∧
    (opnBlk.params.length = 32) ∧
    (leAt opnBlk.params 24 8 < 2 ^ 40) ∧
    (∃ l, routesAt opnBlk.params 8 opnBlk.chIn = some l) ∧
    (∃ l, routesAt opnBlk.params 16 opnBlk.chOut = some l) ∧
    ((hold opnBlk ports).hasProgram opnBlk.tenant (leAt opnBlk.params 0 2) (leAt opnBlk.params 2 2) = true) ∧
    ((hold opnBlk ports).paramRw opnBlk.tenant (leAt opnBlk.params 24 8) 64 = true) ∧
    (8 < leAt opnBlk.params 4 1) :=
  ⟨readyOf (by decide), by decide, by decide, ⟨_, rfl⟩, ⟨_, rfl⟩, by decide, by decide, by decide⟩

def smiAff : State := { bad (smi 320) with tenants := [(1, some { ten with affinity := 1 })] }

theorem meets_StreamAdmission_4 :
    let s : State := up t1
    let t : ℕ := 1
    let ten : Tenant := ten
    let mask : W64 := mask63
    let bLog2 : ℕ := 6
    let us : ℕ := 100
    let x : ℕ := 0
    let lat : ℕ := 0
    let ni : ℕ := 256
    let no : ℕ := 256
    let h : Homing := adm
    (s.tenant t = some ten) ∧
    (s.admission t mask bLog2 us x lat ni no = Sum.inr h) :=
  ⟨by decide, by decide⟩

theorem meets_StreamAdmission_5 :
    let s : State := up t1
    let t : ℕ := 1
    let ten : Tenant := ten
    let mask : W64 := mask63
    let bLog2 : ℕ := 6
    let us : ℕ := 100
    let x : ℕ := 0
    let lat : ℕ := 0
    let ni : ℕ := 256
    let no : ℕ := 256
    let h : Homing := adm
    let k : ℕ := 62
    (s.tenant t = some ten) ∧
    (s.admission t mask bLog2 us x lat ni no = Sum.inr h) ∧
    (k < h.core) :=
  ⟨by decide, by decide, by decide⟩

theorem meets_StreamAdmission_6 :
    let s : State := full63
    let t : ℕ := 1
    let ten : Tenant := ten
    let mask : W64 := only63
    let bLog2 : ℕ := 6
    let us : ℕ := 100
    let x : ℕ := 0
    let lat : ℕ := 0
    let ni : ℕ := 256
    let no : ℕ := 256
    (s.tenant t = some ten) ∧
    (∀ (k : ℕ), ¬(bit mask k = true ∧ k < 64 ∧ s.dieUp (k / 16) = true ∧ s.tenantDensity t + s.densityOf bLog2 (us + s.allowance k) x lat ≤ ten.rtDensity ∧ s.coreDensity k + s.densityOf bLog2 (us + s.allowance k) x lat ≤ s.sch.rtCap.toNat ∧ s.fmPair k ni no ≠ none)) ∧
    (∀ k < 64, bit mask k = true → s.dieUp (k / 16) = true) :=
  ⟨by decide, by rintro k ⟨h1, h2, h3⟩; revert h1 h3; revert k h2; decide, by decide⟩

theorem meets_StreamChanges_8 :
    let s : State := withS scl
    let c : Cmd := scl
    let x : Stream := sx
    (s.stream (leAt c.params 0 2) = some x) ∧
    (x.tenant = c.tenant) ∧
    (x.started = true) ∧
    (x.closeAt = none) ∧
    (x.closeCmd = none) ∧
    (x.guest = none) ∧
    (Ready s c 49) ∧
    (c.params.length = 8) ∧
    (zerosAt c.params 2 6 = true) :=
  ⟨by decide, by decide, by decide, by decide, by decide, by decide, readyOf (by decide), by decide, by decide⟩

theorem meets_StreamChanges_9 :
    let s : State := withS spa
    let c : Cmd := spa
    let x : Stream := sx
    (s.stream (leAt c.params 0 2) = some x) ∧
    (x.tenant = c.tenant) ∧
    (x.started = true) ∧
    (x.closeAt = none) ∧
    (x.closeCmd = none) ∧
    (x.guest = none) ∧
    (Ready s c 52) ∧
    (8 ≤ c.params.length) ∧
    (zerosAt c.params 2 6 = true) :=
  ⟨by decide, by decide, by decide, by decide, by decide, by decide, readyOf (by decide), by decide, by decide⟩

theorem meets_StreamChanges_10 :
    let s : State := withS (sro 2)
    let c : Cmd := sro 2
    let x : Stream := sx
    let ins : List ℕ := [2, 0, 0, 0, 0, 0, 0, 0]
    let outs : List ℕ := [1, 0, 0, 0, 0, 0, 0, 0]
    let rs : ℕ := 2052
    (s.stream (leAt c.params 0 2) = some x) ∧
    (x.tenant = c.tenant) ∧
    (x.started = true) ∧
    (x.closeAt = none) ∧
    (x.closeCmd = none) ∧
    (x.guest = none) ∧
    (Ready s c 51) ∧
    (c.params.length = 24) ∧
    (zerosAt c.params 2 6 = true) ∧
    (routesAt c.params 8 x.chIn = some ins) ∧
    (routesAt c.params 16 x.chOut = some outs) ∧
    (s.routeRefusal (some (leAt c.params 0 2)) (List.take x.chIn ins) (List.take x.chOut outs) = some rs) :=
  ⟨by decide, by decide, by decide, by decide, by decide, by decide, readyOf (by decide), by and_intros <;> decide⟩

theorem meets_StreamChanges_11 :
    let s : State := withS (sro 1)
    let c : Cmd := sro 1
    let x : Stream := sx
    let ins : List ℕ := [1, 0, 0, 0, 0, 0, 0, 0]
    let outs : List ℕ := [1, 0, 0, 0, 0, 0, 0, 0]
    (s.stream (leAt c.params 0 2) = some x) ∧
    (x.tenant = c.tenant) ∧
    (x.started = true) ∧
    (x.closeAt = none) ∧
    (x.closeCmd = none) ∧
    (x.guest = none) ∧
    (Ready s c 51) ∧
    (c.params.length = 24) ∧
    (zerosAt c.params 2 6 = true) ∧
    (routesAt c.params 8 x.chIn = some ins) ∧
    (routesAt c.params 16 x.chOut = some outs) ∧
    (s.routeRefusal (some (leAt c.params 0 2)) (List.take x.chIn ins) (List.take x.chOut outs) = none) :=
  ⟨by decide, by decide, by decide, by decide, by decide, by decide, readyOf (by decide), by and_intros <;> decide⟩

theorem meets_StreamChanges_12 :
    let s : State := withS (smi 321)
    let c : Cmd := smi 321
    let x : Stream := sx
    (s.stream (leAt c.params 0 2) = some x) ∧
    (x.tenant = c.tenant) ∧
    (x.started = true) ∧
    (x.closeAt = none) ∧
    (x.closeCmd = none) ∧
    (x.guest = none) ∧
    (Ready s c 50) ∧
    (c.params.length = 24) ∧
    (zerosAt c.params 3 5 = true) ∧
    (zerosAt c.params 22 2 = true) ∧
    (leAt c.params 2 1 = 255) ∧
    (s.migrBad c = false) ∧
    (x.migr = none) ∧
    (leAt c.params 16 6 % x.b ≠ 0) :=
  ⟨by decide, by decide, by decide, by decide, by decide, by decide, readyOf (by decide), by and_intros <;> decide⟩

theorem meets_StreamChanges_13 :
    let s : State := withS (smi 256)
    let c : Cmd := smi 256
    let x : Stream := sx
    (s.stream (leAt c.params 0 2) = some x) ∧
    (x.tenant = c.tenant) ∧
    (x.started = true) ∧
    (x.closeAt = none) ∧
    (x.closeCmd = none) ∧
    (x.guest = none) ∧
    (Ready s c 50) ∧
    (c.params.length = 24) ∧
    (zerosAt c.params 3 5 = true) ∧
    (zerosAt c.params 22 2 = true) ∧
    (leAt c.params 2 1 = 255) ∧
    (s.migrBad c = false) ∧
    (x.migr = none) ∧
    (leAt c.params 16 6 % x.b = 0) ∧
    (leAt c.params 16 6 < BitVec.toNat s.tb.sfc + 4 * x.b) :=
  ⟨by decide, by decide, by decide, by decide, by decide, by decide, readyOf (by decide), by and_intros <;> decide⟩

theorem meets_StreamChanges_14 :
    let s : State := withS (smi 320)
    let c : Cmd := smi 320
    let x : Stream := sx
    let h : Homing := smH
    (s.stream (leAt c.params 0 2) = some x) ∧
    (x.tenant = c.tenant) ∧
    (x.started = true) ∧
    (x.closeAt = none) ∧
    (x.closeCmd = none) ∧
    (x.guest = none) ∧
    (Ready s c 50) ∧
    (c.params.length = 24) ∧
    (zerosAt c.params 3 5 = true) ∧
    (zerosAt c.params 22 2 = true) ∧
    (leAt c.params 2 1 = 255) ∧
    (s.migrBad c = false) ∧
    (x.migr = none) ∧
    (checkMigrate s c = none) ∧
    ((begun s c).migrAdmit (going c) x = Sum.inr h) :=
  ⟨by decide, by decide, by decide, by decide, by decide, by decide, readyOf (by decide), by and_intros <;> decide⟩

theorem meets_StreamHandles_5 :
    let s : State := bad (smi 320)
    let c : Cmd := smi 320
    let ten : Tenant := ten
    (s.stream (leAt c.params 0 2) = none) ∧
    (Ready s c 50) ∧
    (c.params.length = 24) ∧
    (zerosAt c.params 3 5 = true) ∧
    (zerosAt c.params 22 2 = true) ∧
    (leAt c.params 2 1 = 255) ∧
    (s.tenant c.tenant = some ten) ∧
    (BitVec.ofNat 64 (leAt c.params 8 8) &&& ~~~ten.affinity = 0) :=
  ⟨by decide, readyOf (by decide), by and_intros <;> decide⟩

theorem meets_StreamHandles_6 :
    let s : State := smiAff
    let c : Cmd := smi 320
    let ten : Tenant := { ten with affinity := 1 }
    (s.stream (leAt c.params 0 2) = none) ∧
    (Ready s c 50) ∧
    (c.params.length = 24) ∧
    (zerosAt c.params 3 5 = true) ∧
    (zerosAt c.params 22 2 = true) ∧
    (leAt c.params 2 1 = 255) ∧
    (s.tenant c.tenant = some ten) ∧
    (BitVec.ofNat 64 (leAt c.params 8 8) &&& ~~~ten.affinity ≠ 0) :=
  ⟨by decide, readyOf (by decide), by and_intros <;> decide⟩

def downMask : W64 := BitVec.ofNat 64 (2 ^ 63 + 2 ^ 32)
def fullTen : State := { full63 with tenants := [(1, some { ten with rtDensity := 900 })] }
def opnAt (k v : Nat) : Cmd := { opnOk with due := BitVec.ofNat 64 (2 ^ 48 + k * 2 ^ 50 + v) }
def opnTb : Cmd := { opnOk with due := BitVec.ofNat 64 (2 * 2 ^ 48 + 64) }
def closed : State := { withS scl with streams := [(255, some { sx with started := false })] }
def sroBad : Cmd := rd 0x33 24 [(0, 2, 255), (8, 1, 255), (16, 1, 1)]
def smiFar : Cmd := rd 0x32 24 [(0, 2, 255), (2, 1, 1), (8, 8, 1), (16, 6, 320)]
def farS : State := { withS smiFar with slk.ports := [(0, { st := .up })] }
def farT : State := (State.sendStream (BitVec.ofNat 6 (leAt smiFar.params 2 1)) smiFar.tenant 1 (leAt smiFar.params 0 2) (leAt smiFar.params 16 6) (sx.askData ((begun farS smiFar).recordLen sx.stateAddr) (leAt smiFar.params 8 8)) (begun farS smiFar)).getD t1
def up63 : State := { full63 with tenants := [(1, some { ten with rtDensity := 100000000 })] }
def sroOk : Cmd := rd 0x33 24 [(0, 2, 255)]

theorem meets_StreamOpens_6 :
    let s : State := (begun opnS opnOk)
    let c : Cmd := (going opnOk)
    let h : Homing := opnH
    (s.openAdmit c = Sum.inr h) ∧
    (∃ i : ℕ, freeIndex s.streams 256 = some i) :=
  ⟨by decide +kernel, by exact ⟨_, rfl⟩⟩

theorem meets_StreamAdmission_7 :
    let s : State := fullTen
    let t : ℕ := 1
    let ten : Tenant := { ten with rtDensity := 900 }
    let mask : W64 := downMask
    let bLog2 : ℕ := 6
    let us : ℕ := 100
    let x : ℕ := 0
    let lat : ℕ := 0
    let ni : ℕ := 256
    let no : ℕ := 256
    (s.tenant t = some ten) ∧
    (∀ (k : ℕ), ¬(bit mask k = true ∧ k < 64 ∧ s.dieUp (k / 16) = true ∧ s.tenantDensity t + s.densityOf bLog2 (us + s.allowance k) x lat ≤ ten.rtDensity ∧ s.coreDensity k + s.densityOf bLog2 (us + s.allowance k) x lat ≤ s.sch.rtCap.toNat ∧ s.fmPair k ni no ≠ none)) ∧
    (∃ k < 64, bit mask k = true ∧ s.dieUp (k / 16) = false) ∧
    (∃ k < 64, bit mask k = true ∧ s.dieUp (k / 16) = true) ∧
    (¬∃ k < 64, bit mask k = true ∧ s.dieUp (k / 16) = true ∧ s.tenantDensity t + s.densityOf bLog2 (us + s.allowance k) x lat ≤ ten.rtDensity) :=
  ⟨by decide +kernel, by rintro k ⟨h1, h2, h3⟩; revert h1 h3; revert k h2; decide +kernel, by decide +kernel, by decide +kernel, by decide +kernel⟩

theorem meets_StreamChanges_15 :
    let s : State := farS
    let c : Cmd := smiFar
    let x : Stream := sx
    let t : State := farT
    (s.stream (leAt c.params 0 2) = some x) ∧
    (x.tenant = c.tenant) ∧
    (x.started = true) ∧
    (x.closeAt = none) ∧
    (x.closeCmd = none) ∧
    (x.guest = none) ∧
    (Ready s c 50) ∧
    (checkMigrate s c = none) ∧
    (s.nodeHere (leAt c.params 2 1) = false) ∧
    (State.sendStream (BitVec.ofNat 6 (leAt c.params 2 1)) c.tenant 1 (leAt c.params 0 2) (leAt c.params 16 6) (x.askData ((begun s c).recordLen x.stateAddr) (leAt c.params 8 8)) (begun s c) = some t) :=
  ⟨by decide +kernel, by decide +kernel, by decide +kernel, by decide +kernel, by decide +kernel, by decide +kernel, readyOf (by decide +kernel), by decide +kernel, by decide +kernel, by decide +kernel⟩

theorem meets_StreamHandles_7 :
    let s : State := hold scl ports
    let c : Cmd := scl
    (∀ (x : Stream), s.stream (leAt c.params 0 2) = some x → x.tenant ≠ c.tenant ∨ x.started = false ∨ x.guest ≠ none ∨ x.closeAt ≠ none ∨ x.closeCmd ≠ none) ∧
    (Ready s c 49) ∧
    (c.params.length = 8) ∧
    (zerosAt c.params 2 6 = true) :=
  ⟨by decide +kernel, readyOf (by decide +kernel), by decide +kernel, by decide +kernel⟩

theorem meets_StreamHandles_8 :
    let s : State := hold spa ports
    let c : Cmd := spa
    (∀ (x : Stream), s.stream (leAt c.params 0 2) = some x → x.tenant ≠ c.tenant ∨ x.started = false ∨ x.guest ≠ none ∨ x.closeAt ≠ none ∨ x.closeCmd ≠ none) ∧
    (Ready s c 52) ∧
    (8 ≤ c.params.length) ∧
    (zerosAt c.params 2 6 = true) :=
  ⟨by decide +kernel, readyOf (by decide +kernel), by decide +kernel, by decide +kernel⟩

theorem meets_StreamHandles_9 :
    let s : State := hold (sro 1) ports
    let c : Cmd := sro 1
    (∀ (x : Stream), s.stream (leAt c.params 0 2) = some x → x.tenant ≠ c.tenant ∨ x.started = false ∨ x.guest ≠ none ∨ x.closeAt ≠ none ∨ x.closeCmd ≠ none) ∧
    (Ready s c 51) ∧
    (c.params.length = 24) ∧
    (zerosAt c.params 2 6 = true) ∧
    (∃ l, routesAt c.params 8 8 = some l) ∧
    (∃ l, routesAt c.params 16 8 = some l) :=
  ⟨by decide +kernel, readyOf (by decide +kernel), by decide +kernel, by decide +kernel, by exact ⟨_, rfl⟩, by exact ⟨_, rfl⟩⟩

theorem meets_StreamHandles_10 :
    let s : State := hold sroBad ports
    let c : Cmd := sroBad
    (∀ (x : Stream), s.stream (leAt c.params 0 2) = some x → x.tenant ≠ c.tenant ∨ x.started = false ∨ x.guest ≠ none ∨ x.closeAt ≠ none ∨ x.closeCmd ≠ none) ∧
    (Ready s c 51) ∧
    (c.params.length = 24) ∧
    (zerosAt c.params 2 6 = true) ∧
    (routesAt c.params 8 8 = none ∨ routesAt c.params 16 8 = none) :=
  ⟨by decide +kernel, readyOf (by decide +kernel), by decide +kernel, by decide +kernel, by decide +kernel⟩

theorem meets_StreamHandles_11 :
    let s : State := bad (smi 320)
    let c : Cmd := smi 320
    let ten : Tenant := ten
    (∀ (x : Stream), s.stream (leAt c.params 0 2) = some x → x.tenant ≠ c.tenant ∨ x.started = false ∨ x.guest ≠ none ∨ x.closeAt ≠ none ∨ x.closeCmd ≠ none) ∧
    (Ready s c 50) ∧
    (c.params.length = 24) ∧
    (zerosAt c.params 3 5 = true) ∧
    (zerosAt c.params 22 2 = true) ∧
    (leAt c.params 2 1 = 255) ∧
    (s.tenant c.tenant = some ten) ∧
    (BitVec.ofNat 64 (leAt c.params 8 8) &&& ~~~ten.affinity = 0) :=
  ⟨by decide +kernel, readyOf (by decide +kernel), by decide +kernel, by decide +kernel, by decide +kernel, by decide +kernel, by decide +kernel, by decide +kernel⟩

theorem meets_StreamHandles_12 :
    let s : State := smiAff
    let c : Cmd := smi 320
    let ten : Tenant := { ten with affinity := 1 }
    (∀ (x : Stream), s.stream (leAt c.params 0 2) = some x → x.tenant ≠ c.tenant ∨ x.started = false ∨ x.guest ≠ none ∨ x.closeAt ≠ none ∨ x.closeCmd ≠ none) ∧
    (Ready s c 50) ∧
    (c.params.length = 24) ∧
    (zerosAt c.params 3 5 = true) ∧
    (zerosAt c.params 22 2 = true) ∧
    (leAt c.params 2 1 = 255) ∧
    (s.tenant c.tenant = some ten) ∧
    (BitVec.ofNat 64 (leAt c.params 8 8) &&& ~~~ten.affinity ≠ 0) :=
  ⟨by decide +kernel, readyOf (by decide +kernel), by decide +kernel, by decide +kernel, by decide +kernel, by decide +kernel, by decide +kernel, by decide +kernel⟩

theorem meets_StreamOpens_7 :
    let s : State := hold (opnAt 0 65) ports
    let c : Cmd := opnAt 0 65
    (s.cmd c.id = some c) ∧
    (c.op = 48) ∧
    (c.phase = Phase.read) ∧
    (checkOpen s c = none) ∧
    (dueSel c.due = 1) ∧
    (dueKind c.due = 0 ∨ dueKind c.due = 1) ∧
    (BitVec.toNat s.tb.sfc < (dueVal c.due).toNat) :=
  ⟨by decide +kernel, by decide +kernel, by decide +kernel, by decide +kernel, by decide +kernel, by decide +kernel, by decide +kernel⟩

theorem meets_StreamOpens_8 :
    let s : State := hold (opnAt 0 64) ports
    let c : Cmd := opnAt 0 64
    (s.cmd c.id = some c) ∧
    (c.op = 48) ∧
    (c.phase = Phase.read) ∧
    (checkOpen s c = none) ∧
    (dueSel c.due = 1) ∧
    (dueKind c.due = 0) ∧
    ((dueVal c.due).toNat ≤ BitVec.toNat s.tb.sfc) :=
  ⟨by decide +kernel, by decide +kernel, by decide +kernel, by decide +kernel, by decide +kernel, by decide +kernel, by decide +kernel⟩

theorem meets_StreamOpens_9 :
    let s : State := hold (opnAt 1 64) ports
    let c : Cmd := opnAt 1 64
    (s.cmd c.id = some c) ∧
    (c.op = 48) ∧
    (c.phase = Phase.read) ∧
    (checkOpen s c = none) ∧
    (dueSel c.due = 1) ∧
    (dueKind c.due = 1) ∧
    ((dueVal c.due).toNat ≤ BitVec.toNat s.tb.sfc) :=
  ⟨by decide +kernel, by decide +kernel, by decide +kernel, by decide +kernel, by decide +kernel, by decide +kernel, by decide +kernel⟩

theorem meets_StreamOpens_10 :
    let s : State := hold (opnAt 2 65) ports
    let c : Cmd := opnAt 2 65
    (s.cmd c.id = some c) ∧
    (c.op = 48) ∧
    (c.phase = Phase.read) ∧
    (checkOpen s c = none) ∧
    (dueSel c.due = 1) ∧
    (dueKind c.due = 2) ∧
    (BitVec.toNat s.tb.sfc < (dueVal c.due).toNat) :=
  ⟨by decide +kernel, by decide +kernel, by decide +kernel, by decide +kernel, by decide +kernel, by decide +kernel, by decide +kernel⟩

theorem meets_StreamOpens_11 :
    let s : State := hold (opnAt 2 64) ports
    let c : Cmd := opnAt 2 64
    (s.cmd c.id = some c) ∧
    (c.op = 48) ∧
    (c.phase = Phase.read) ∧
    (checkOpen s c = none) ∧
    (dueSel c.due = 1) ∧
    (dueKind c.due = 2) ∧
    ((dueVal c.due).toNat ≤ BitVec.toNat s.tb.sfc) :=
  ⟨by decide +kernel, by decide +kernel, by decide +kernel, by decide +kernel, by decide +kernel, by decide +kernel, by decide +kernel⟩

theorem meets_StreamOpens_12 :
    let s : State := hold opnTb ports
    let c : Cmd := opnTb
    (s.cmd c.id = some c) ∧
    (c.op = 48) ∧
    (c.phase = Phase.read) ∧
    (c.params.length = 32) ∧
    (leAt c.params 24 8 < 2 ^ 40) ∧
    (∃ l, routesAt c.params 8 c.chIn = some l) ∧
    (∃ l, routesAt c.params 16 c.chOut = some l) ∧
    (2 ≤ dueSel c.due) :=
  ⟨by decide +kernel, by decide +kernel, by decide +kernel, by decide +kernel, by decide +kernel, by exact ⟨_, rfl⟩, by exact ⟨_, rfl⟩, by decide +kernel⟩

theorem meets_StreamAdmission_8 :
    let s : State := up63
    let t : ℕ := 1
    let ten : Tenant := { ten with rtDensity := 100000000 }
    let mask : W64 := downMask
    let bLog2 : ℕ := 6
    let us : ℕ := 100
    let x : ℕ := 0
    let lat : ℕ := 0
    let ni : ℕ := 256
    let no : ℕ := 256
    (s.tenant t = some ten) ∧
    (∀ (k : ℕ), ¬(bit mask k = true ∧ k < 64 ∧ s.dieUp (k / 16) = true ∧ s.tenantDensity t + s.densityOf bLog2 (us + s.allowance k) x lat ≤ ten.rtDensity ∧ s.coreDensity k + s.densityOf bLog2 (us + s.allowance k) x lat ≤ s.sch.rtCap.toNat ∧ s.fmPair k ni no ≠ none)) ∧
    (∃ k < 64, bit mask k = true ∧ s.dieUp (k / 16) = false) ∧
    (∃ k < 64, bit mask k = true ∧ s.dieUp (k / 16) = true) ∧
    (∃ k < 64, bit mask k = true ∧ s.dieUp (k / 16) = true ∧ s.tenantDensity t + s.densityOf bLog2 (us + s.allowance k) x lat ≤ ten.rtDensity) :=
  ⟨by decide +kernel, by rintro k ⟨h1, h2, h3⟩; revert h1 h3; revert k h2; decide +kernel, by decide +kernel, by decide +kernel, by decide +kernel⟩

theorem meets_CommandsTakeEffect_2 :
    let s : State := opnS
    let c : Cmd := opnOk
    (Ready s c 48) ∧
    (checkOpen s c = none) :=
  ⟨readyOf (by decide +kernel), by decide +kernel⟩

theorem meets_CommandsTakeEffect_3 :
    let s : State := withS sroOk
    let c : Cmd := sroOk
    (Ready s c 51) ∧
    (checkRoute s c = none) :=
  ⟨readyOf (by decide +kernel), by decide +kernel⟩

end Part09

namespace Part10

def up (s : State) : State := { s with dies := [(0, { bridge := .up, power := .on }), (3, { bridge := .up, power := .on })] }
def rp (n : Nat) (img : Nat) : Cmd := rd 0x41 n [(0, 2, img), (8, 8, 0x1122334455667788), (64, 8, 5)]
def rpOk : Cmd := rp 72 0
def rpNo : Cmd := rp 72 1
def rpBad : Cmd := rp 73 0
def job (cls : Cls) (st : JobSt) (id : Nat) : Job := { kind := .program id, tenant := 1, cls := cls, elig := id, st := st, args := [7] }
def js (x : Job) : State := { up t1 with jobs := [(5, some x)] }
def jb : Job := job .background .waiting 9
def tenNo : Tenant := { ten with bgCores := 0 }
def noBud (x : Job) : State := { js x with tenants := [(1, some tenNo)] }
def jbC : Job := { jb with budgetCounted := true }
def ten48 : Tenant := { ten with affinity := BitVec.ofNat 64 (2 ^ 48), saveSlots := 3 }
def bg : Job := job .background (.running 48) 8
def allBusy (x : Job) : State := { t1 with tenants := [(1, some ten48)], dies := [(3, { bridge := .up, power := .on })], jobs := [(4, some bg), (5, some x)], cores := (List.range 16).map (fun i => (48 + i, { phase := .running, job := some 4 })) }
def ji : Job := { job .interactive .waiting 9 with deferred := true }
def sb : Stream := { tenant := 1, image := 0, entry := 0, bLog2 := 6, chIn := 1, chOut := 1, fp32 := false, holdFade := false, reserve := 0, inRoute := [0], outRoute := [0], stateAddr := 0, core := 48, density := 100, fmax := 1, blocks := [{ s := 64, input := [], route := [], job := some 5, delivered := true }] }
def jblk : Job := { job .realtime .waiting 9 with kind := .block 255 64 }
def jrt : Job := { job .realtime (.running 48) 8 with kind := .block 254 64 }
def blkS (other : Job) (ph : CorePhase) : State := { up t1 with streams := [(255, some sb)], jobs := [(4, some other), (5, some jblk)], cores := [(48, { phase := ph, job := if ph = .idle then none else some 4 })] }
def dirty : State := { js jb with cores := [(0, { a := [(3, 9)], lm := [(5, 1), (0xB0000, 2)] })] }
def jsv : Job := { job .background (.saving 3) 9 with slot := some 1, slotAddr := 0x1000000 }
def coreSv (ph : CorePhase) : Core := { phase := ph, job := some 5, pc := 77, live := 0, a := [(15, 5)], n := [(3, 8)], p := [(2, true)] }
def sav (x : Job) (ph : CorePhase) (d : Bool) : State := { (if d then up t1 else t1) with jobs := [(5, some x)], cores := [(3, coreSv ph)] }
def savOk : State := sav jsv .saving true
def savOff : State := sav jsv .saving false
def savDeny : Deny := ((savOff.core 3).context.findSome? (fun p : Nat × List Byte => savOff.saveDeny jsv.tenant (jsv.slotAddr + p.1) p.2.length true)).getD { code := 0 }
def jrs : Job := { job .background (.restoring 3) 9 with slot := some 1, slotAddr := 0x1000000, saved := some { pc := 77 } }
def rest (d : Bool) : State := sav jrs .restoring d
def restDeny : Deny := ((rest false).slotDeny jrs).getD { code := 0 }
def unav : State := { t1 with cores := [(63, { phase := .unavailable, faultReset := true })] }

theorem meets_RunProgram_2 :
    (Ready (hold rpNo (up t1)) rpNo 65) ∧
    (8 ≤ 8) ∧
    (rpNo.params.length = 8 + 8 * 8) ∧
    (zerosAt rpNo.params 4 4 = true) ∧
    ((hold rpNo (up t1)).hasProgram rpNo.tenant (leAt rpNo.params 0 2) (leAt rpNo.params 2 2) = false) :=
  ⟨readyOf (by decide), by decide, by decide, by decide, by decide⟩

theorem meets_RunProgram_3 :
    (Ready (hold rpOk t1) rpOk 65) ∧
    (8 ≤ 8) ∧
    (rpOk.params.length = 8 + 8 * 8) ∧
    (zerosAt rpOk.params 4 4 = true) ∧
    ((hold rpOk t1).hasProgram rpOk.tenant (leAt rpOk.params 0 2) (leAt rpOk.params 2 2) = true) ∧
    ((hold rpOk t1).noCore rpOk.tenant = true) :=
  ⟨readyOf (by decide), by and_intros <;> decide⟩

theorem meets_RunProgram_4 :
    (Ready (hold rpBad t1) rpBad 65) ∧
    (72 < rpBad.params.length) :=
  ⟨readyOf (by decide), by decide⟩

theorem meets_JobDispatches_1 :
    ((js (job Cls.background (JobSt.running 3) 9)).job 5 = some (job Cls.background (JobSt.running 3) 9)) ∧
    ((job Cls.background (JobSt.running 3) 9).st ≠ JobSt.waiting) ∧
    ((job Cls.background (JobSt.running 3) 9).st ≠ JobSt.saved) :=
  ⟨by decide, by decide, by decide⟩

theorem meets_DispatchState_1 :
    (dirty.job 5 = some jb) :=
  by decide

/-- A number has the bytes it is given. -/

theorem toLe_length : ∀ n v : Nat, (toLe n v).length = n
  | 0, _ => rfl
  | n + 1, v => by simp [toLe, toLe_length n]

/-- Words have four bytes each. -/

theorem words_length (f : Nat → Nat) : ∀ l : List Nat, (l.flatMap (fun i => toLe 4 (f i))).length = 4 * l.length
  | [] => rfl
  | a :: l => by rw [List.flatMap_cons, List.length_append, toLe_length, words_length f l, List.length_cons]; omega

/-- A context with no live LM bank has two parts. -/

theorem context_parts (x : Core) (h : x.live = 0) : x.context = [(0, x.head),
      (0x1000, (List.range 16384).flatMap (fun i => toLe 4 (tget 0 x.acc i).toNat))] := by
  rw [Core.context, h]; rfl

theorem head_length : (savOk.core 3).head.length = 0x1000 := by decide +kernel

theorem head_allowed : savOk.saveDeny jsv.tenant (jsv.slotAddr + 0) 0x1000 true = none := by decide +kernel

theorem acc_allowed : savOk.saveDeny jsv.tenant (jsv.slotAddr + 0x1000) (4 * 16384) true = none := by decide +kernel

/-- Two parts that are allowed. -/

theorem both_allowed (f : Nat → Nat → Option Deny) (m n : Nat) (k l : List Byte) (hk : f m k.length = none) (hl : f n l.length = none) :
    [(m, k), (n, l)].findSome? (fun p => f p.1 p.2.length) = none := by simp [hk, hl]

theorem meets_SavesAndRestores_2 :
    ((savOff.core 3).phase = CorePhase.saving) ∧
    ((savOff.core 3).job = some 5) ∧
    (savOff.job 5 = some jsv) ∧
    (jsv.epoch = none) ∧
    (List.findSome? (fun p => savOff.saveDeny jsv.tenant (jsv.slotAddr + p.1) p.2.length true) (savOff.core 3).context = some savDeny) :=
  ⟨by decide, by decide, by decide, by decide, by decide +kernel⟩

theorem meets_SavesAndRestores_3 :
    ((t1.core 63).phase ≠ CorePhase.saving) :=
  by decide

theorem meets_SavesAndRestores_6 :
    ((unav.core 63).phase = CorePhase.unavailable) :=
  by decide

theorem meets_SavesAndRestores_7 :
    ((t1.core 63).phase ≠ CorePhase.unavailable) :=
  by decide

def jLp : Job := { jsv with slotAddr := 0x1000000000 }
def savHeld : State := { sav jLp .saving true with dies := [(0, { bridge := .retrain, power := .on })] }
def savKey : State := { savOk with cores := [(3, { coreSv .saving with keyFault := some (0x0D, 76) })] }

theorem meets_SavesAndRestores_11 :
    let s : State := savHeld
    let k : Fin 64 := 3
    s.saveHeld k.val = true :=
  by decide

theorem meets_SavesAndRestores_12 :
    let s : State := rest false
    let k : Fin 64 := 3
    let j : ℕ := 5
    let y : Job := jrs
    let u : Core := { pc := 77 }
    let d : Deny := restDeny
    ((s.core k.val).phase = CorePhase.restoring) ∧
    ((s.core k.val).job = some j) ∧
    (s.job j = some y) ∧
    (y.saved = some u) ∧
    (u.job = none) ∧
    (s.saveHeld k.val = false) ∧
    (s.slotDeny y = some d) :=
  by and_intros <;> decide

theorem meets_SavesAndRestores_13 :
    let s : State := rest true
    let k : Fin 64 := 3
    let j : ℕ := 5
    let y : Job := jrs
    let u : Core := { pc := 77 }
    ((s.core k.val).phase = CorePhase.restoring) ∧
    ((s.core k.val).job = some j) ∧
    (s.job j = some y) ∧
    (y.saved = some u) ∧
    (u.job = none) ∧
    (s.saveHeld k.val = false) ∧
    (s.slotDeny y = none) ∧
    (s.sch.signals = []) ∧
    ((s.fromSlot (s.core k.val) u y).wait = none) :=
  by and_intros <;> decide

def jk (k : JobKind) (j : Job) : Job := { j with kind := k }
def coreLp : Core := { coreSv .idle with loops := [{ start := 1, stop := 2, ctr := 3 }], dmas := [] }
def abEp (x : Job) : State := { js { x with epoch := some 3 } with epochs := [(3, { st := .aborting })] }
def noC (x : Job) : State := { t1 with jobs := [(5, some x)], cmds := [{ rd 0x41 0 [] with id := 9, phase := .running }] }
def jsaved : Job := { jb with st := .saved, slot := some 1, slotAddr := 0x1000000, saved := some { pc := 77 } }
def ten1 : Tenant := { ten with affinity := BitVec.ofNat 64 (2 ^ 48) }
def cx3 : Job := { job .background (.running 48) 8 with st := .running 48 }
def affS (x : Job) : State := { up t1 with tenants := [(1, some ten1)], jobs := [(4, some bg), (5, some x)], cores := [(48, { phase := .running, job := some 4 })] }
def ji2 : Job := job .interactive .waiting 9
def rtBusy (x : Job) : State := { allBusy x with jobs := [(4, some jrt), (5, some x)] }
def rpE : Cmd := { rpOk with epoch := some 3 }
def rpES : State := { hold rpE (up t1) with epochs := [(3, { st := .aborting })] }
def jse : Job := { jsv with epoch := some 3 }
def savE (n : Nat) : State := { sav jse .saving true with epochs := [(3, { st := .opened, limit := n })], sch.hoard := [(0, 64)] }
def savET : State := (State.ctxAlloc 3 0 5 209 (State.dmaPause 3 jse.agent (savE 300))).getD t1

theorem meets_ContextRoundTrip_2 :
    let x : Core := (coreSv CorePhase.saving)
    (x.pc < 2 ^ 32) ∧
    (x.loops.length ≤ 4) ∧
    (∀ l ∈ x.loops, l.start < 2 ^ 32 ∧ l.stop < 2 ^ 32 ∧ l.ctr < 2 ^ 32) ∧
    (∀ (w : Wait), x.wait = some w → w.op = BitVec.ofNat 8 (BitVec.toNat w.word)) ∧
    (x.dmas.length ≤ 16) ∧
    (∀ q ∈ x.dmas, q.done < 2 ^ 64) :=
  ⟨by decide +kernel, by decide +kernel, by decide +kernel, by decide +kernel, by decide +kernel, by decide +kernel⟩

theorem meets_SavesAndRestores_14 :
    let s : State := savKey
    let k : Fin 64 := 3
    let j : ℕ := 5
    let y : Job := jsv
    let f : BitVec 8 := 0x0D
    ((s.core k.val).phase = CorePhase.saving) ∧
    ((s.core k.val).job = some j) ∧
    (s.job j = some y) ∧
    (∃ pc : ℕ, (s.core k.val).keyFault = some (f, pc)) ∧
    (s.saveHeld k.val = false) :=
  ⟨by decide +kernel, by decide +kernel, by decide +kernel, by exact ⟨_, rfl⟩, by decide +kernel⟩

theorem meets_SavesAndRestores_15 :
    let s : State := savHeld
    ∃ k : Fin 64, (s.core k.val).phase ≠ CorePhase.restoring :=
  by decide +kernel

theorem meets_ContextRoundTrip_3 :
    let x : Core := coreLp
    let i : ℕ := 15
    (x.pc < 2 ^ 32) ∧
    (x.loops.length ≤ 4) ∧
    (∀ l ∈ x.loops, l.start < 2 ^ 32 ∧ l.stop < 2 ^ 32 ∧ l.ctr < 2 ^ 32) ∧
    (∀ (w : Wait), x.wait = some w → w.op = BitVec.ofNat 8 (BitVec.toNat w.word)) ∧
    (x.dmas.length ≤ 16) ∧
    (∀ q ∈ x.dmas, q.done < 2 ^ 64) ∧
    (i < 16) :=
  ⟨by decide +kernel, by decide +kernel, by decide +kernel, by decide +kernel, by decide +kernel, by decide +kernel, by decide +kernel⟩

theorem meets_ContextRoundTrip_4 :
    let x : Core := coreLp
    let i : ℕ := 3
    (x.pc < 2 ^ 32) ∧
    (x.loops.length ≤ 4) ∧
    (∀ l ∈ x.loops, l.start < 2 ^ 32 ∧ l.stop < 2 ^ 32 ∧ l.ctr < 2 ^ 32) ∧
    (∀ (w : Wait), x.wait = some w → w.op = BitVec.ofNat 8 (BitVec.toNat w.word)) ∧
    (x.dmas.length ≤ 16) ∧
    (∀ q ∈ x.dmas, q.done < 2 ^ 64) ∧
    (i < 4) :=
  ⟨by decide +kernel, by decide +kernel, by decide +kernel, by decide +kernel, by decide +kernel, by decide +kernel, by decide +kernel⟩

theorem meets_JobDispatches_10 :
    let s : State := t1
    let j : ℕ := 5
    s.job j = none :=
  by decide +kernel

theorem meets_JobDispatches_11 :
    let s : State := abEp jb
    let j : ℕ := 5
    let x : Job := { jb with epoch := some 3 }
    let e : ℕ := 3
    (s.job j = some x) ∧
    (x.epoch = some e) ∧
    ((s.epoch e).st = EpSt.aborting) :=
  ⟨by decide +kernel, by decide +kernel, by decide +kernel⟩

theorem meets_JobDispatches_12 :
    let s : State := noC jb
    let j : ℕ := 5
    let x : Job := jb
    let id : ℕ := 9
    let c : Cmd := { rd 0x41 0 [] with id := 9, phase := .running }
    (s.job j = some x) ∧
    (∀ (e : ℕ), x.epoch = some e → (s.epoch e).st ≠ EpSt.aborting) ∧
    (x.st = JobSt.waiting) ∧
    (s.noCore x.tenant = true) ∧
    (x.kind = JobKind.program id) ∧
    (s.cmd id = some c) :=
  ⟨by decide +kernel, by decide +kernel, by decide +kernel, by decide +kernel, by decide +kernel, by decide +kernel⟩

theorem meets_JobDispatches_13 :
    let s : State := noC (jk (.fit 2) jb)
    let j : ℕ := 5
    let x : Job := jk (.fit 2) jb
    let k : ℕ := 2
    (s.job j = some x) ∧
    (∀ (e : ℕ), x.epoch = some e → (s.epoch e).st ≠ EpSt.aborting) ∧
    (x.st = JobSt.waiting) ∧
    (s.noCore x.tenant = true) ∧
    (x.kind = JobKind.fit k) :=
  ⟨by decide +kernel, by decide +kernel, by decide +kernel, by decide +kernel, by decide +kernel⟩

theorem meets_JobDispatches_14 :
    let s : State := noC (jk (.launch 2 3) jb)
    let j : ℕ := 5
    let x : Job := jk (.launch 2 3) jb
    let r : ℕ := 2
    let n : ℕ := 3
    (s.job j = some x) ∧
    (∀ (e : ℕ), x.epoch = some e → (s.epoch e).st ≠ EpSt.aborting) ∧
    (x.st = JobSt.waiting) ∧
    (s.noCore x.tenant = true) ∧
    (x.kind = JobKind.launch r n) :=
  ⟨by decide +kernel, by decide +kernel, by decide +kernel, by decide +kernel, by decide +kernel⟩

theorem meets_JobDispatches_15 :
    let s : State := blkS bg .idle
    let j : ℕ := 5
    let x : Job := jblk
    let h : ℕ := 255
    let b : ℕ := 64
    let st : Stream := sb
    (s.job j = some x) ∧
    (x.kind = JobKind.block h b) ∧
    (x.st = JobSt.waiting) ∧
    (x.epoch = none) ∧
    (s.stream h = some st) ∧
    (s.nextBlock (st.homeOf b) = some j) ∧
    (s.dieUp (st.homeOf b / 16) = true) ∧
    ((s.core (st.homeOf b)).phase = CorePhase.idle) :=
  ⟨by decide +kernel, by decide +kernel, by decide +kernel, by decide +kernel, by decide +kernel, by decide +kernel, by decide +kernel, by decide +kernel⟩

theorem meets_JobDispatches_16 :
    let s : State := blkS bg .running
    let j : ℕ := 5
    let x : Job := jblk
    let h : ℕ := 255
    let b : ℕ := 64
    let st : Stream := sb
    (s.job j = some x) ∧
    (x.kind = JobKind.block h b) ∧
    (x.st = JobSt.waiting) ∧
    (x.epoch = none) ∧
    (s.stream h = some st) ∧
    (s.nextBlock (st.homeOf b) = some j) ∧
    (s.dieUp (st.homeOf b / 16) = true) ∧
    ((s.core (st.homeOf b)).phase = CorePhase.running) ∧
    (s.clsOn (st.homeOf b) = some Cls.background) :=
  ⟨by decide +kernel, by decide +kernel, by decide +kernel, by decide +kernel, by decide +kernel, by decide +kernel, by decide +kernel, by decide +kernel, by decide +kernel⟩

theorem meets_JobDispatches_17 :
    let s : State := blkS jrt .running
    let j : ℕ := 5
    let x : Job := jblk
    let h : ℕ := 255
    let b : ℕ := 64
    let st : Stream := sb
    (s.job j = some x) ∧
    (x.kind = JobKind.block h b) ∧
    (x.st = JobSt.waiting) ∧
    (x.epoch = none) ∧
    (s.stream h = some st) ∧
    (s.nextBlock (st.homeOf b) = some j) ∧
    (s.dieUp (st.homeOf b / 16) = true) ∧
    (s.clsOn (st.homeOf b) = some Cls.realtime) ∧
    ((s.core (st.homeOf b)).phase = CorePhase.running) :=
  ⟨by decide +kernel, by decide +kernel, by decide +kernel, by decide +kernel, by decide +kernel, by decide +kernel, by decide +kernel, by decide +kernel, by decide +kernel⟩

theorem meets_RunProgram_5 :
    let s : State := hold rpOk (up t1)
    let c : Cmd := rpOk
    let k : ℕ := 8
    (Ready s c 65) ∧
    (k ≤ 8) ∧
    (c.params.length = 8 + 8 * k) ∧
    (zerosAt c.params 4 4 = true) ∧
    (s.hasProgram c.tenant (leAt c.params 0 2) (leAt c.params 2 2) = true) ∧
    (s.noCore c.tenant = false) ∧
    (∀ (e : ℕ), c.epoch = some e → (s.epoch e).st ≠ EpSt.aborting) :=
  ⟨readyOf (by decide +kernel), by decide +kernel, by decide +kernel, by decide +kernel, by decide +kernel, by decide +kernel, by decide +kernel⟩

theorem meets_RunProgram_6 :
    let s : State := rpES
    let c : Cmd := rpE
    let k : ℕ := 8
    let e : ℕ := 3
    (Ready s c 65) ∧
    (k ≤ 8) ∧
    (c.params.length = 8 + 8 * k) ∧
    (zerosAt c.params 4 4 = true) ∧
    (s.hasProgram c.tenant (leAt c.params 0 2) (leAt c.params 2 2) = true) ∧
    (s.noCore c.tenant = false) ∧
    (c.epoch = some e) ∧
    ((s.epoch e).st = EpSt.aborting) :=
  ⟨readyOf (by decide +kernel), by decide +kernel, by decide +kernel, by decide +kernel, by decide +kernel, by decide +kernel, by decide +kernel, by decide +kernel⟩

theorem meets_JobDispatches_18 :
    let s : State := js jsaved
    let j : ℕ := 5
    let x : Job := jsaved
    let k : ℕ := 0
    (s.job j = some x) ∧
    (∀ (e : ℕ), x.epoch = some e → (s.epoch e).st ≠ EpSt.aborting) ∧
    (x.st = JobSt.saved) ∧
    (∀ (h b : ℕ), x.kind ≠ JobKind.block h b) ∧
    (s.noCore x.tenant = false) ∧
    (s.hasBudget x = true) ∧
    (List.find? (fun c => s.coreFree c && !(s.claimed x).1.contains c) (maskCores (s.jobMask x)) = some k) ∧
    (s.budgetBeside (s.claimed x).2 x = true) :=
  ⟨by decide +kernel, by decide +kernel, by decide +kernel, by intro h b; nofun, by decide +kernel, by decide +kernel, by decide +kernel, by decide +kernel⟩

theorem meets_JobDispatches_19 :
    let s : State := js jb
    let j : ℕ := 5
    let x : Job := jb
    let k : ℕ := 0
    (s.job j = some x) ∧
    (∀ (e : ℕ), x.epoch = some e → (s.epoch e).st ≠ EpSt.aborting) ∧
    (x.st = JobSt.waiting) ∧
    (∀ (h b : ℕ), x.kind ≠ JobKind.block h b) ∧
    (s.noCore x.tenant = false) ∧
    (s.hasBudget x = true) ∧
    (List.find? (fun c => s.coreFree c && !(s.claimed x).1.contains c) (maskCores (s.jobMask x)) = some k) :=
  ⟨by decide +kernel, by decide +kernel, by decide +kernel, by intro h b; nofun, by decide +kernel, by decide +kernel, by decide +kernel⟩

theorem meets_JobDispatches_20 :
    let s : State := noBud jb
    let j : ℕ := 5
    let x : Job := jb
    (s.job j = some x) ∧
    (∀ (e : ℕ), x.epoch = some e → (s.epoch e).st ≠ EpSt.aborting) ∧
    (x.st = JobSt.waiting) ∧
    (∀ (h b : ℕ), x.kind ≠ JobKind.block h b) ∧
    (s.noCore x.tenant = false) ∧
    (s.hasBudget x = false) ∧
    (x.budgetCounted = false) :=
  ⟨by decide +kernel, by decide +kernel, by decide +kernel, by intro h b; nofun, by decide +kernel, by decide +kernel, by decide +kernel⟩

theorem meets_JobDispatches_21 :
    let s : State := noBud jbC
    let j : ℕ := 5
    let x : Job := jbC
    (s.job j = some x) ∧
    (∀ (e : ℕ), x.epoch = some e → (s.epoch e).st ≠ EpSt.aborting) ∧
    (x.st = JobSt.waiting) ∧
    (∀ (h b : ℕ), x.kind ≠ JobKind.block h b) ∧
    (s.noCore x.tenant = false) ∧
    (s.hasBudget x = false) ∧
    (x.budgetCounted = true) :=
  ⟨by decide +kernel, by decide +kernel, by decide +kernel, by intro h b; nofun, by decide +kernel, by decide +kernel, by decide +kernel⟩

theorem meets_JobDispatches_22 :
    let s : State := allBusy jb
    let j : ℕ := 5
    let x : Job := jb
    (s.job j = some x) ∧
    (∀ (e : ℕ), x.epoch = some e → (s.epoch e).st ≠ EpSt.aborting) ∧
    (x.st = JobSt.waiting) ∧
    (∀ (h b : ℕ), x.kind ≠ JobKind.block h b) ∧
    (s.noCore x.tenant = false) ∧
    (s.hasBudget x = true) ∧
    (x.cls = Cls.background) ∧
    (∀ k < 64, s.coreFree k = false) :=
  ⟨by decide +kernel, by decide +kernel, by decide +kernel, by intro h b; nofun, by decide +kernel, by decide +kernel, by decide +kernel, by decide +kernel⟩

theorem meets_JobDispatches_23 :
    let s : State := affS jb
    let j : ℕ := 5
    let x : Job := jb
    (s.job j = some x) ∧
    (∀ (e : ℕ), x.epoch = some e → (s.epoch e).st ≠ EpSt.aborting) ∧
    (x.st = JobSt.waiting) ∧
    (∀ (h b : ℕ), x.kind ≠ JobKind.block h b) ∧
    (s.noCore x.tenant = false) ∧
    (s.hasBudget x = true) ∧
    (x.cls = Cls.background) ∧
    (x.affCounted = false) ∧
    (∀ (k : ℕ), bit (s.jobMask x) k = true → s.coreFree k = false) ∧
    (∃ k < 64, s.coreFree k = true) :=
  ⟨by decide +kernel, by decide +kernel, by decide +kernel, by intro h b; nofun, by decide +kernel, by decide +kernel, by decide +kernel, by decide +kernel, by intro k hk; rcases Nat.lt_or_ge k 64 with h | h <;> [(revert hk; revert k; decide); (exact absurd hk (by simp [bit, BitVec.getLsbD_of_ge _ _ h]))], by decide +kernel⟩

theorem meets_JobDispatches_24 :
    let s : State := rtBusy ji2
    let j : ℕ := 5
    let x : Job := ji2
    let id : ℕ := 9
    (s.job j = some x) ∧
    (∀ (e : ℕ), x.epoch = some e → (s.epoch e).st ≠ EpSt.aborting) ∧
    (x.st = JobSt.waiting) ∧
    (∀ (h b : ℕ), x.kind ≠ JobKind.block h b) ∧
    (s.noCore x.tenant = false) ∧
    (s.hasBudget x = true) ∧
    (x.cls = Cls.interactive) ∧
    (x.deferred = false) ∧
    (∀ k < 64, s.coreFree k = false) ∧
    (∀ k < 64, s.clsOn k ≠ some Cls.background) ∧
    (x.kind = JobKind.program id) :=
  ⟨by decide +kernel, by decide +kernel, by decide +kernel, by intro h b; nofun, by decide +kernel, by decide +kernel, by decide +kernel, by decide +kernel, by decide +kernel, by decide +kernel, by decide +kernel⟩

theorem meets_JobDispatches_25 :
    let s : State := allBusy ji
    let j : ℕ := 5
    let x : Job := ji
    let k : ℕ := 48
    (s.job j = some x) ∧
    (∀ (e : ℕ), x.epoch = some e → (s.epoch e).st ≠ EpSt.aborting) ∧
    (x.st = JobSt.waiting) ∧
    (∀ (h b : ℕ), x.kind ≠ JobKind.block h b) ∧
    (s.noCore x.tenant = false) ∧
    (s.hasBudget x = true) ∧
    (x.cls = Cls.interactive) ∧
    (x.deferred = true) ∧
    (x.tookCore = false) ∧
    (∀ k < 64, s.coreFree k = false) ∧
    (List.find? (fun c => decide (s.clsOn c = some Cls.background) && (s.core c).phase == CorePhase.running) (maskCores (s.jobMask x)) = some k) :=
  ⟨by decide +kernel, by decide +kernel, by decide +kernel, by intro h b; nofun, by decide +kernel, by decide +kernel, by decide +kernel, by decide +kernel, by decide +kernel, by decide +kernel, by decide +kernel⟩

theorem meets_SavesAndRestores_16 :
    let s : State := savOff
    let k : Fin 64 := 3
    let j : ℕ := 5
    let y : Job := jsv
    let d : Deny := savDeny
    ((s.core k.val).phase = CorePhase.saving) ∧
    ((s.core k.val).job = some j) ∧
    (s.job j = some y) ∧
    (∀ (id b : ℕ), y.kind ≠ JobKind.op id b) ∧
    (y.epoch = none) ∧
    ((s.core k.val).keyFault = none) ∧
    (s.saveHeld k.val = false) ∧
    (List.findSome? (fun p => (State.dmaPause k.val y.agent s).saveDeny y.tenant (y.slotAddr + p.1) p.2.length true) ((State.dmaPause k.val y.agent s).core k.val).context = some d) :=
  ⟨by decide +kernel, by decide +kernel, by decide +kernel, by intro h b; nofun, by decide +kernel, by decide +kernel, by decide +kernel, by decide +kernel⟩

theorem meets_SavesAndRestores_17 :
    let s : State := savOk
    let k : Fin 64 := 3
    let j : ℕ := 5
    let y : Job := jsv
    ((s.core k.val).phase = CorePhase.saving) ∧
    ((s.core k.val).job = some j) ∧
    (s.job j = some y) ∧
    (∀ (id b : ℕ), y.kind ≠ JobKind.op id b) ∧
    (y.epoch = none) ∧
    ((s.core k.val).keyFault = none) ∧
    (s.saveHeld k.val = false) ∧
    (List.findSome? (fun p => (State.dmaPause k.val y.agent s).saveDeny y.tenant (y.slotAddr + p.1) p.2.length true) ((State.dmaPause k.val y.agent s).core k.val).context = none) :=
  ⟨by decide +kernel, by decide +kernel, by decide +kernel, by intro h b; nofun, by decide +kernel, by decide +kernel, by decide +kernel, by decide +kernel⟩

theorem meets_SavesAndRestores_18 :
    let s : State := rest true
    let k : Fin 64 := 3
    let j : ℕ := 5
    let y : Job := jrs
    let u : Core := { pc := 77 }
    ((s.core k.val).phase = CorePhase.restoring) ∧
    ((s.core k.val).job = some j) ∧
    (s.job j = some y) ∧
    (y.saved = some u) ∧
    (u.job = none) ∧
    (s.saveHeld k.val = false) ∧
    (s.slotDeny y = none) :=
  ⟨by decide +kernel, by decide +kernel, by decide +kernel, by decide +kernel, by decide +kernel, by decide +kernel, by decide +kernel⟩

theorem meets_SavesAndRestores_19 :
    let s : State := rest true
    let k : Fin 64 := 3
    let j : ℕ := 5
    let y : Job := jrs
    let u : Core := { pc := 77 }
    ((s.core k.val).phase = CorePhase.restoring) ∧
    ((s.core k.val).job = some j) ∧
    (s.job j = some y) ∧
    (y.saved = some u) ∧
    (u.job = none) ∧
    (s.saveHeld k.val = false) ∧
    (s.slotDeny y = none) ∧
    (s.heldFor j = []) ∧
    ((s.fromSlot (s.core k.val) u y).wait = none) :=
  ⟨by decide +kernel, by decide +kernel, by decide +kernel, by decide +kernel, by decide +kernel, by decide +kernel, by decide +kernel, by decide +kernel, by decide +kernel⟩

theorem meets_SavesAndRestores_20 :
    let s : State := sav { jrs with saved := some { pc := 77, job := some 5 } } .restoring true
    let k : Fin 64 := 3
    let j : ℕ := 5
    let y : Job := { jrs with saved := some { pc := 77, job := some 5 } }
    let u : Core := { pc := 77, job := some 5 }
    ((s.core k.val).phase = CorePhase.restoring) ∧
    ((s.core k.val).job = some j) ∧
    (s.job j = some y) ∧
    (y.saved = some u) ∧
    (u.job ≠ none) ∧
    (s.saveHeld k.val = false) :=
  ⟨by decide +kernel, by decide +kernel, by decide +kernel, by decide +kernel, by decide +kernel, by decide +kernel⟩

theorem meets_SavesAndRestores_21 :
    let s : State := savOk
    let k : Fin 64 := 3
    let j : ℕ := 5
    let y : Job := jsv
    ((s.core k.val).phase = CorePhase.saving) ∧
    ((s.core k.val).job = some j) ∧
    (s.job j = some y) ∧
    (∃ id, y.kind = JobKind.program id) ∧
    (y.epoch = none) ∧
    ((s.core k.val).keyFault = none) ∧
    (s.saveHeld k.val = false) ∧
    ((s.core k.val).dmas = []) ∧
    (List.findSome? (fun p => s.saveDeny y.tenant (y.slotAddr + p.1) p.2.length true) (s.core k.val).context = none) :=
  ⟨by decide +kernel, by decide +kernel, by decide +kernel, by exact ⟨_, rfl⟩, by decide +kernel, by decide +kernel, by decide +kernel, by decide +kernel, by decide +kernel⟩

end Part10

namespace Part11

def nopW : W128 := word 0 []
def addW : W128 := word 1 [(16, 0x0F), (24, 0x13), (32, 0x1B)]
def nopS : State := tileS nopW { pc := 63 } t1
def keyF : State := tileS nopW { keyFault := some (0x0D, 7) } t1
def pastEnd : State := tileS nopW { pc := 64 } t1
def noX : State := { nopS with jobs := [(5, some { progJob with windows := [{ perm := 3, base := 0, limit := 1024 }] })] }
def noXjob : Job := { progJob with windows := [{ perm := 3, base := 0, limit := 1024 }] }
def waitS : State := tileS nopW { wait := some { op := 0x61, word := 0 } } t1
def noXd : Deny := (noX.access noXjob.agent 2 (0x100 + 16 * 63) 16).getD { code := 0 }
def badW : W128 := word 0x7F []
def rsvW : W128 := word 0 [(12, 1)]
def grdW : W128 := word 1 [(8, 8)]
def grdS (ph : CorePhase) : State := { nopS with cores := [(63, { phase := ph, job := some 5, codeBase := 0x100, codeLen := 64, pc := 63 })], mem := mwrite [] (0x100 + 16 * 63) (toLe 16 grdW.toNat) }
def badS : State := tileS badW {} t1
def rsvS : State := tileS rsvW {} t1
def progC : Cmd := { rd 0x41 8 [] with phase := .running }
def fS : State := hold progC (tileS nopW { pc := 63, lm := [(5, 9)], a := [(3, 1)] } t1)
def blkJ : Job := { progJob with kind := .block 255 64, cls := .realtime }
def sb : Stream := { tenant := 1, image := 0, entry := 0, bLog2 := 6, chIn := 1, chOut := 1, fp32 := false, holdFade := false, reserve := 0, inRoute := [0], outRoute := [0], stateAddr := 0, core := 63, density := 100, fmax := 1, blocks := [{ s := 64, input := [], route := [], job := some 5, delivered := true }] }
def fB : State := { fS with jobs := [(5, some blkJ)], streams := [(255, some sb)] }
def sc (op : Nat) (fs : List (Nat × Nat)) : W128 := word op ([(16, 0x03), (24, 0x01), (32, 0x02)] ++ fs)
def scS (w : W128) : State := tileS w { pc := 5, a := [(1, 0xFFFFFFFFFFFFFFFF), (2, 65)] } t1
def addiW : W128 := word 10 [(16, 3), (24, 1), (64, 2 ^ 64 - 1)]
def moviW : W128 := word 11 [(16, 3), (64, 2 ^ 64 - 1)]
def cmpW : W128 := word 12 [(16, 0x1B), (24, 1), (32, 2), (40, 2)]
def cmpiW : W128 := word 13 [(16, 0x1B), (24, 1), (40, 5), (64, 9)]
theorem meets_TileScalar : ∀ op ∈ [1, 2, 3, 4, 5, 6, 7, 8, 9], TileAt (scS (sc op [])) 63 (sc op []) op := fun op h =>
  tileOf ((by decide : ∀ op ∈ [1, 2, 3, 4, 5, 6, 7, 8, 9], (scS (sc op [])).fetch 63 = .word (sc op []) ∧ tOp (sc op []) = op ∧
    tEncFault (sc op []) = none ∧ ((scS (sc op [])).core 63).guard (sc op []) = true ∧ ((scS (sc op [])).core 63).phase = .running ∧
    (scS (sc op [])).stopped 63 = false) op h)
theorem meets_TileScalarImm : TileAt nopS 63 nopW 0 ∧ TileAt (scS addiW) 63 addiW 10 ∧ TileAt (scS moviW) 63 moviW 11 ∧ TileAt (scS cmpW) 63 cmpW 12 ∧
    TileAt (scS cmpiW) 63 cmpiW 13 :=
  ⟨tileOf (by decide), tileOf (by decide), tileOf (by decide), tileOf (by decide), tileOf (by decide)⟩
def lp (e : List LoopEnt) (n : W32) : State := tileS nopW { pc := 7, n := [(2, n)], loops := e } t1
def ent (a b : Nat) : LoopEnt := { start := a, stop := b, ctr := 2 }
def brW (o : Nat) : W128 := word 0x10 [(64, o)]
def brS (o : Nat) (l : List LoopEnt) : State := tileS (brW o) { pc := 7, loops := l } t1
def loW (n : Nat) : W128 := word 0x11 [(12, 2), (32, 3), (64, n)]
def loS (n : Nat) (l : List LoopEnt) : State := tileS (loW n) { pc := 7, loops := l } t1
def moW : W128 := word 0x64 [(16, 3)]
def liW : W128 := word 0x65 [(16, 0x3F)]
def snW : W128 := word 0x66 [(16, 0xABCD), (32, 1)]
def snS : State := tileS snW {} t1
def snE : State := { snS with jobs := [(5, some { progJob with epoch := some 3 })] }
def endW : W128 := word 0x12 []
def endS : State := hold progC (tileS endW {} t1)
def lm (op a sz : Nat) : W128 := word op [(16, 3), (24, 1), (44, sz), (64, a)]
def lmS (w : W128) (q : List Dma) : State := tileS w { pc := 5, a := [(3, 0x1122334455667788)], lm := [(0xAFFF8, 9)], dmas := q } t1
def dq (src dst : Nat) (d : Bool) : Dma := { tag := 15, word := 0, pc := 0, srcDev := true, dstDev := d, src := src, dst := dst, sstr := 0, dstr := 0, len := 8, rows := 1 }
def dmW (fs : List (Nat × Nat)) : W128 := word 0x20 ([(12, 15), (16, 1), (20, 2), (24, 1), (40, 8)] ++ fs)
def dmS (w : W128) (a b : W64) (q : List Dma) : State := tileS w { pc := 5, a := [(1, a), (2, b)], dmas := q } t1
def dmOut : State := dmS (dmW []) 0x1000000 0x1000 []
def dmDeny : Deny := (dmOut.dmaDeny (dmOut.coreAgent 63) ((dmOut.core 63).dmaOf (dmW []))).getD { code := 0 }
def q16 : List Dma := List.replicate 16 (dq 0 0 true)
def wW (m : Nat) : W128 := word 0x21 [(16, m)]
def dq14 : Dma := { dq 0 0 true with tag := 14 }
def dmEnd : State := dmS nopW 0 0 [dq14, dq 0x100 0xAFFF8 false, dq 0 0 true]

theorem meets_TileFetch_1 :
    ((keyF.core 63).job = some 5) ∧
    (keyF.job 5 = some progJob) ∧
    (∃ id, progJob.kind = JobKind.program id) ∧
    ((keyF.core 63).phase = CorePhase.running) ∧
    ((keyF.core 63).keyFault = some ((13 : Byte), 7)) :=
  ⟨by decide, by decide, ⟨1, rfl⟩, by decide, by decide⟩

theorem meets_TileFetch_2 :
    ((pastEnd.core 63).job = some 5) ∧
    (pastEnd.job 5 = some progJob) ∧
    (∃ id, progJob.kind = JobKind.program id) ∧
    ((pastEnd.core 63).phase = CorePhase.running) ∧
    ((pastEnd.core 63).keyFault = none) ∧
    ((pastEnd.core 63).wait = none) ∧
    ((pastEnd.core 63).codeLen ≤ (pastEnd.core 63).pc) :=
  ⟨by decide, by decide, ⟨1, rfl⟩, by decide, by decide, by decide, by decide⟩

theorem meets_TileFetch_3 :
    ((noX.core 63).job = some 5) ∧
    (noX.job 5 = some noXjob) ∧
    (∃ id, noXjob.kind = JobKind.program id) ∧
    ((noX.core 63).phase = CorePhase.running) ∧
    ((noX.core 63).keyFault = none) ∧
    ((noX.core 63).wait = none) ∧
    ((noX.core 63).pc < (noX.core 63).codeLen) ∧
    (noX.access noXjob.agent 2 ((noX.core 63).codeBase + 16 * (noX.core 63).pc) 16 = some noXd) :=
  ⟨by decide, by decide, ⟨1, rfl⟩, by and_intros <;> decide⟩

theorem meets_TileFetch_4 :
    ((waitS.core 63).job = some 5) ∧
    (waitS.job 5 = some progJob) ∧
    (∃ id, progJob.kind = JobKind.program id) ∧
    ((waitS.core 63).phase = CorePhase.running) ∧
    ((waitS.core 63).keyFault = none) ∧
    ((waitS.core 63).wait ≠ none) :=
  ⟨by decide, by decide, ⟨1, rfl⟩, by decide, by decide, by decide⟩

theorem meets_TileBoundary_1 :
    (tileRow (Instr.tileNop (63 : Fin 64)) = some ((63 : Fin 64), 0)) ∧
    (t1.fetch 63 = Fetched.nothing) :=
  ⟨by decide, by decide⟩

theorem meets_TileFaults_1 :
    ((fS.core 63).job = some 5) ∧
    (fS.job 5 = some progJob) ∧
    (progJob.st = JobSt.running 63) ∧
    ((fS.core 63).dmas = []) ∧
    (progJob.epoch = none) ∧
    (11 ≠ 18) ∧
    ((fS.core 63).faultReset = false) ∧
    (bit fS.obs.quillCtrl 4 = false) ∧
    ((∃ h b, progJob.kind = JobKind.block h b) ∨ ∃ id c, progJob.kind = JobKind.program id ∧ fS.cmd id = some c ∧ c.epoch = none ∧ c.op ≠ 64 ∧ fS.jobsOf id = [5]) :=
  ⟨by decide, by decide, by decide, by decide, by decide, by decide, by decide, by decide, .inr ⟨1, progC, rfl, by decide, by decide, by decide, by decide⟩⟩

theorem meets_TileFaults_2 :
    ((fB.core 63).job = some 5) ∧
    (fB.job 5 = some blkJ) ∧
    (blkJ.st = JobSt.running 63) ∧
    ((fB.core 63).dmas = []) ∧
    (blkJ.epoch = none) ∧
    (11 ≠ 18) ∧
    ((fB.core 63).faultReset = false) ∧
    (bit fB.obs.quillCtrl 4 = false) ∧
    ((∃ h b, blkJ.kind = JobKind.block h b) ∨ ∃ id c, blkJ.kind = JobKind.program id ∧ fB.cmd id = some c ∧ c.epoch = none ∧ c.op ≠ 64 ∧ fB.jobsOf id = [5]) :=
  ⟨by decide, by decide, by decide, by decide, by decide, by decide, by decide, by decide, .inl ⟨255, 64, rfl⟩⟩

theorem meets_Registers_1 :
    (tGuard nopW = 0) :=
  by decide

theorem meets_Registers_2 :
    (3 < 4) ∧
    (tGuard (word 1 [(8, 11)]) = 8 + 3) :=
  ⟨by decide, by decide⟩

theorem meets_Registers_3 :
    (3 < 4) ∧
    (tGuard (word 1 [(8, 15)]) = 12 + 3) :=
  ⟨by decide, by decide⟩

theorem meets_EncodingFaults_1 :
    (tLayout (tOp badW) = none) :=
  by decide

theorem meets_EncodingFaults_2 :
    (tLayout (tOp rsvW) = some 4095) ∧
    (∃ i, BitVec.getLsbD rsvW i = true ∧ Nat.testBit 4095 i = false) :=
  ⟨by decide, ⟨12, by decide, by decide⟩⟩

theorem meets_EncodingFaults_3 :
    (tLayout (tOp (word 0 [(8, 7)])) ≠ none) ∧
    (0 < tGuard (word 0 [(8, 7)])) ∧
    (tGuard (word 0 [(8, 7)]) < 8) :=
  ⟨by decide, by decide, by decide⟩

theorem meets_EncodingFaults_4 :
    (1 ≤ tOp (word 9 [(24, 20)])) ∧
    (tOp (word 9 [(24, 20)]) ≤ 9) ∧
    (specOk (fld (word 9 [(24, 20)]) 24 8) = false) :=
  ⟨by decide, by decide, by decide⟩

theorem meets_EncodingFaults_5 :
    (tOp (word 12 [(16, 23)]) = 12) ∧
    (fld (word 12 [(16, 23)]) 16 8 < 24) :=
  ⟨by decide, by decide⟩

theorem meets_EncodingFaults_6 :
    (tOp (word 13 [(16, 24), (40, 6)]) = 13) ∧
    (5 < fld (word 13 [(16, 24), (40, 6)]) 40 4) :=
  ⟨by decide, by decide⟩

theorem meets_EncodingFaults_7 :
    (tOp (word 15 [(24, 16)]) = 15) ∧
    (16 ≤ fld (word 15 [(24, 16)]) 24 8) :=
  ⟨by decide, by decide⟩

theorem meets_EncodingFaults_8 :
    (tOp (word 17 []) = 17) ∧
    (fld (word 17 []) 32 16 = 0) :=
  ⟨by decide, by decide⟩

theorem meets_EncodingFaults_9 :
    (64 ≤ tOp (word 67 [])) ∧
    (tOp (word 67 []) ≤ 67) ∧
    (fld (word 67 []) 32 16 = 0) :=
  ⟨by decide, by decide, by decide⟩

theorem meets_EncodingFaults_10 :
    (tOp (word 48 [(16, 11)]) = 48) ∧
    (BitVec.toNat (word 48 [(16, 11)]) < 2 ^ 94) ∧
    (tGuard (word 48 [(16, 11)]) = 0) ∧
    (11 ≤ fld (word 48 [(16, 11)]) 16 4) :=
  ⟨by decide, by decide, by decide, by decide⟩

theorem meets_EncodingFaults_11 :
    (tEncFault addW = none) :=
  by decide

theorem meets_TileRetires_1 :
    (((lp [] (1 : W32)).core 63).loops = []) :=
  by decide

theorem meets_TileRetires_2 :
    (((lp [ent 3 8] (1 : W32)).core 63).loops = [] ++ [ent 3 8]) ∧
    ((ent 3 8).stop ≠ ((lp [ent 3 8] (1 : W32)).core 63).pc) :=
  ⟨by decide, by decide⟩

theorem meets_TileRetires_3 :
    (((lp [ent 3 7] (2 : W32)).core 63).loops = [] ++ [ent 3 7]) ∧
    ((ent 3 7).stop = ((lp [ent 3 7] (2 : W32)).core 63).pc) ∧
    (1 < BitVec.toNat (tget (0 : W32) ((lp [ent 3 7] (2 : W32)).core 63).n (ent 3 7).ctr)) :=
  ⟨by decide, by decide, by decide⟩

theorem meets_TileRetires_4 :
    (((lp [ent 1 9, ent 3 7] (1 : W32)).core 63).loops = [ent 1 9] ++ [ent 3 7]) ∧
    ((ent 3 7).stop = ((lp [ent 1 9, ent 3 7] (1 : W32)).core 63).pc) ∧
    (BitVec.toNat (tget (0 : W32) ((lp [ent 1 9, ent 3 7] (1 : W32)).core 63).n (ent 3 7).ctr) ≤ 1) ∧
    (∀ (f : LoopEnt), [ent 1 9].getLast? = some f → f.stop ≠ ((lp [ent 1 9, ent 3 7] (1 : W32)).core 63).pc) :=
  ⟨by decide, by decide, by decide, by intro f h; cases h; decide⟩

theorem meets_TileRetires_5 :
    (62 ≠ 63) :=
  by decide

theorem meets_TileControl_1 :
    (TileAt (brS 4294967293 []) (63) (brW 4294967293) 16) ∧
    (((brS 4294967293 []).core 63).loops = []) :=
  ⟨tileOf (by decide), by decide⟩

theorem meets_TileControl_2 :
    (TileAt (brS 3 [ent 1 10, ent 5 9]) (63) (brW 3) 16) ∧
    (((brS 3 [ent 1 10, ent 5 9]).core 63).loops = [ent 1 10] ++ [ent 5 9]) ∧
    (∀ f ∈ [ent 1 10], f.start ≤ 10 ∧ 10 ≤ f.stop) ∧
    ((ent 5 9).stop < 10) :=
  ⟨tileOf (by decide), by decide, by decide, by decide⟩

theorem meets_TileControl_3 :
    (TileAt (loS 0 []) (63) (loW 0) 17) ∧
    ((if bit (loW 0) 14 = true then BitVec.setWidth 32 (tget (0 : W64) ((loS 0 []).core 63).a (fld (loW 0) 16 4)) else BitVec.ofNat 32 (fld (loW 0) 64 32)) = (0 : W32)) :=
  ⟨tileOf (by decide), by decide⟩

theorem meets_TileControl_4 :
    (TileAt (loS 1 [ent 1 20, ent 2 20, ent 3 20]) (63) (loW 1) 17) ∧
    ((if bit (loW 1) 14 = true then BitVec.setWidth 32 (tget (0 : W64) ((loS 1 [ent 1 20, ent 2 20, ent 3 20]).core 63).a (fld (loW 1) 16 4)) else BitVec.ofNat 32 (fld (loW 1) 64 32)) ≠ (0 : W32)) ∧
    (((loS 1 [ent 1 20, ent 2 20, ent 3 20]).core 63).loops.length < 4) :=
  ⟨tileOf (by decide), by decide, by decide⟩

theorem meets_TileControl_5 :
    (TileAt (loS 1 [ent 1 20, ent 2 20, ent 3 20, ent 4 20]) (63) (loW 1) 17) ∧
    ((if bit (loW 1) 14 = true then BitVec.setWidth 32 (tget (0 : W64) ((loS 1 [ent 1 20, ent 2 20, ent 3 20, ent 4 20]).core 63).a (fld (loW 1) 16 4)) else BitVec.ofNat 32 (fld (loW 1) 64 32)) ≠ (0 : W32)) ∧
    (4 ≤ ((loS 1 [ent 1 20, ent 2 20, ent 3 20, ent 4 20]).core 63).loops.length) :=
  ⟨tileOf (by decide), by decide, by decide⟩

theorem meets_TileControl_6 :
    (TileAt (tileS moW { : Core } t1) (63) moW 100) :=
  tileOf (by decide)

theorem meets_TileControl_7 :
    (TileAt (tileS liW { : Core } t1) (63) liW 101) :=
  tileOf (by decide)

theorem meets_TileControl_8 :
    (TileAt snE (63) snW 102) ∧
    (((snE.jobOn 63).bind fun x => x.epoch).isSome = true) :=
  ⟨tileOf (by decide), by decide⟩

theorem meets_TileControl_9 :
    (TileAt snS (63) snW 102) ∧
    (((snS.jobOn 63).bind fun x => x.epoch) = none) :=
  ⟨tileOf (by decide), by decide⟩

theorem meets_TileControl_10 :
    (TileAt endS (63) endW 18) ∧
    ((endS.core 63).job = some 5) ∧
    (endS.job 5 = some progJob) ∧
    (∃ id, progJob.kind = JobKind.program id) :=
  ⟨tileOf (by decide), by decide, by decide, ⟨1, rfl⟩⟩

theorem meets_TileLocalMemory_2 :
    (TileAt (lmS (lm 15 720888 3) []) (63) (lm 15 720888 3) 15) ∧
    (BitVec.toNat (((lmS (lm 15 720888 3) []).core 63).rd (fld (lm 15 720888 3) 24 8) + BitVec.ofNat 64 (BitVec.toNat (lm 15 720888 3) / 2 ^ 64)) % 2 ^ fld (lm 15 720888 3) 44 2 = 0) ∧
    ((lmS (lm 15 720888 3) []).lmFault (63) (BitVec.toNat (((lmS (lm 15 720888 3) []).core 63).rd (fld (lm 15 720888 3) 24 8) + BitVec.ofNat 64 (BitVec.toNat (lm 15 720888 3) / 2 ^ 64))) (2 ^ fld (lm 15 720888 3) 44 2) = none) ∧
    ((lmS (lm 15 720888 3) []).lmBusy 63 [] [(BitVec.toNat (((lmS (lm 15 720888 3) []).core 63).rd (fld (lm 15 720888 3) 24 8) + BitVec.ofNat 64 (BitVec.toNat (lm 15 720888 3) / 2 ^ 64)), 2 ^ fld (lm 15 720888 3) 44 2)] = false) :=
  ⟨tileOf (by decide), by decide, by decide, by decide⟩

theorem meets_TileLocalMemory_3 :
    (TileAt (lmS (lm 15 720889 1) []) (63) (lm 15 720889 1) 15) ∧
    (BitVec.toNat (((lmS (lm 15 720889 1) []).core 63).rd (fld (lm 15 720889 1) 24 8) + BitVec.ofNat 64 (BitVec.toNat (lm 15 720889 1) / 2 ^ 64)) % 2 ^ fld (lm 15 720889 1) 44 2 ≠ 0) :=
  ⟨tileOf (by decide), by decide⟩

theorem meets_TileLocalMemory_6 :
    (TileAt (lmS (lm 14 720895 0) [dq 0 720888 false]) (63) (lm 14 720895 0) 14) ∧
    (BitVec.toNat (((lmS (lm 14 720895 0) [dq 0 720888 false]).core 63).rd (fld (lm 14 720895 0) 24 8) + BitVec.ofNat 64 (BitVec.toNat (lm 14 720895 0) / 2 ^ 64)) % 2 ^ fld (lm 14 720895 0) 44 2 = 0) ∧
    (BitVec.toNat (((lmS (lm 14 720895 0) [dq 0 720888 false]).core 63).rd (fld (lm 14 720895 0) 24 8) + BitVec.ofNat 64 (BitVec.toNat (lm 14 720895 0) / 2 ^ 64)) + 2 ^ fld (lm 14 720895 0) 44 2 ≤ 720896) ∧
    (dq 0 720888 false ∈ ((lmS (lm 14 720895 0) [dq 0 720888 false]).core 63).dmas) ∧
    ((dq 0 720888 false).dstDev = false) ∧
    (0 < (dq 0 720888 false).rows) ∧
    ((dq 0 720888 false).dst ≤ BitVec.toNat (((lmS (lm 14 720895 0) [dq 0 720888 false]).core 63).rd (fld (lm 14 720895 0) 24 8) + BitVec.ofNat 64 (BitVec.toNat (lm 14 720895 0) / 2 ^ 64))) ∧
    (BitVec.toNat (((lmS (lm 14 720895 0) [dq 0 720888 false]).core 63).rd (fld (lm 14 720895 0) 24 8) + BitVec.ofNat 64 (BitVec.toNat (lm 14 720895 0) / 2 ^ 64)) < (dq 0 720888 false).dst + (dq 0 720888 false).len) :=
  ⟨tileOf (by decide), by and_intros <;> decide⟩

theorem meets_TileTransfers_1 :
    (TileAt (dmS (dmW []) (4098 : W64) (4096 : W64) []) (63) (dmW []) 32) ∧
    ((((dmS (dmW []) (4098 : W64) (4096 : W64) []).core 63).dmaOf (dmW [])).src % 4 ≠ 0) :=
  ⟨tileOf (by decide), by decide⟩

theorem meets_TileTransfers_2 :
    (TileAt dmOut (63) (dmW []) 32) ∧
    (((dmOut.core 63).dmaOf (dmW [])).aligned = true) ∧
    (dmOut.dmaDeny (dmOut.coreAgent 63) ((dmOut.core 63).dmaOf (dmW [])) = some dmDeny) ∧
    (dmDeny.key = none) :=
  ⟨tileOf (by decide), by decide, by decide, by decide⟩

theorem meets_TileTransfers_3 :
    (TileAt (dmS (dmW [(25, 1)]) (4096 : W64) (8192 : W64) []) (63) (dmW [(25, 1)]) 32) ∧
    ((((dmS (dmW [(25, 1)]) (4096 : W64) (8192 : W64) []).core 63).dmaOf (dmW [(25, 1)])).aligned = true) ∧
    ((dmS (dmW [(25, 1)]) (4096 : W64) (8192 : W64) []).dmaDeny ((dmS (dmW [(25, 1)]) (4096 : W64) (8192 : W64) []).coreAgent 63) (((dmS (dmW [(25, 1)]) (4096 : W64) (8192 : W64) []).core 63).dmaOf (dmW [(25, 1)])) = none) ∧
    ((((dmS (dmW [(25, 1)]) (4096 : W64) (8192 : W64) []).core 63).dmaOf (dmW [(25, 1)])).srcDev = true) ∧
    ((((dmS (dmW [(25, 1)]) (4096 : W64) (8192 : W64) []).core 63).dmaOf (dmW [(25, 1)])).dstDev = true) ∧
    (((dmS (dmW [(25, 1)]) (4096 : W64) (8192 : W64) []).core 63).dmas.length < 16) :=
  ⟨tileOf (by decide), by and_intros <;> decide⟩

theorem meets_TileTransfers_4 :
    (TileAt (dmS (dmW [(25, 1)]) (4096 : W64) (8192 : W64) q16) (63) (dmW [(25, 1)]) 32) ∧
    ((((dmS (dmW [(25, 1)]) (4096 : W64) (8192 : W64) q16).core 63).dmaOf (dmW [(25, 1)])).aligned = true) ∧
    ((dmS (dmW [(25, 1)]) (4096 : W64) (8192 : W64) q16).dmaDeny ((dmS (dmW [(25, 1)]) (4096 : W64) (8192 : W64) q16).coreAgent 63) (((dmS (dmW [(25, 1)]) (4096 : W64) (8192 : W64) q16).core 63).dmaOf (dmW [(25, 1)])) = none) ∧
    ((((dmS (dmW [(25, 1)]) (4096 : W64) (8192 : W64) q16).core 63).dmaOf (dmW [(25, 1)])).srcDev = true) ∧
    ((((dmS (dmW [(25, 1)]) (4096 : W64) (8192 : W64) q16).core 63).dmaOf (dmW [(25, 1)])).dstDev = true) ∧
    (16 ≤ ((dmS (dmW [(25, 1)]) (4096 : W64) (8192 : W64) q16).core 63).dmas.length) :=
  ⟨tileOf (by decide), by and_intros <;> decide⟩

theorem meets_TileTransfers_5 :
    (TileAt (dmS (dmW []) (4096 : W64) (720888 : W64) []) (63) (dmW []) 32) ∧
    ((((dmS (dmW []) (4096 : W64) (720888 : W64) []).core 63).dmaOf (dmW [])).aligned = true) ∧
    ((dmS (dmW []) (4096 : W64) (720888 : W64) []).dmaDeny ((dmS (dmW []) (4096 : W64) (720888 : W64) []).coreAgent 63) (((dmS (dmW []) (4096 : W64) (720888 : W64) []).core 63).dmaOf (dmW [])) = none) ∧
    ((((dmS (dmW []) (4096 : W64) (720888 : W64) []).core 63).dmaOf (dmW [])).srcDev = true) ∧
    ((((dmS (dmW []) (4096 : W64) (720888 : W64) []).core 63).dmaOf (dmW [])).dstDev = false) ∧
    (∀ i < (((dmS (dmW []) (4096 : W64) (720888 : W64) []).core 63).dmaOf (dmW [])).rows, (((dmS (dmW []) (4096 : W64) (720888 : W64) []).core 63).dmaOf (dmW [])).dst + i * (((dmS (dmW []) (4096 : W64) (720888 : W64) []).core 63).dmaOf (dmW [])).dstr + (((dmS (dmW []) (4096 : W64) (720888 : W64) []).core 63).dmaOf (dmW [])).len ≤ 720896) ∧
    (((dmS (dmW []) (4096 : W64) (720888 : W64) []).core 63).dmas.length < 16) :=
  ⟨tileOf (by decide), by and_intros <;> decide⟩

theorem meets_TileTransfers_6 :
    (TileAt (dmS (wW 0) (0 : W64) (0 : W64) []) (63) (wW 0) 33) ∧
    (fld (wW 0) 16 16 = 0) :=
  ⟨tileOf (by decide), by decide⟩

theorem meets_TileTransfers_7 :
    (TileAt (dmS (wW 32767) (0 : W64) (0 : W64) [dq 0 0 true]) (63) (wW 32767) 33) ∧
    (fld (wW 32767) 16 16 ≠ 0) ∧
    (∀ d ∈ ((dmS (wW 32767) (0 : W64) (0 : W64) [dq 0 0 true]).core 63).dmas, (fld (wW 32767) 16 16).testBit d.tag = false) :=
  ⟨tileOf (by decide), by decide, by decide⟩

theorem meets_TileTransfers_8 :
    (TileAt (dmS (wW 32768) (0 : W64) (0 : W64) [dq 0 0 true]) (63) (wW 32768) 33) ∧
    (dq 0 0 true ∈ ((dmS (wW 32768) (0 : W64) (0 : W64) [dq 0 0 true]).core 63).dmas) ∧
    ((fld (wW 32768) 16 16).testBit (dq 0 0 true).tag = true) :=
  ⟨tileOf (by decide), by decide, by decide⟩

def ownX : Stream := { sb with inBuf := 0xB0000, outBuf := 0xB0100 }
def ownS : State := { fB with streams := [(255, some ownX)] }
def savS (q : Nat) : State := { t1 with cores := [(63, { phase := .saving, job := some 5, progress := BitVec.ofNat _ q })] }
def dmD : Deny := (dmOut.dmaBad (dmOut.coreAgent 63) ((dmOut.core 63).dmaOf (dmW []))).getD { code := 0 }
def dmHeld : State := { dmEnd with dies := [(3, { bridge := .retrain, power := .on })] }

theorem meets_TileLocalMemory_7 :
    let s : State := ownS
    let c : ℕ := 63
    let p : ℕ := 0xAFFFF
    let m : ℕ := 0x201
    (0 < m) ∧
    (720896 < p + m) ∧
    (p + m ≤ 786432) ∧
    (∀ (i : ℕ), p ≤ i → i < p + m → 720896 ≤ i → ∃ b ∈ s.ownBufs c, b.1 ≤ i ∧ i < b.1 + b.2) :=
  ⟨by decide, by decide, by decide, by decide⟩

theorem meets_TileLocalMemory_8 :
    let s : State := ownS
    let c : ℕ := 63
    let p : ℕ := 0xAFFFF
    let m : ℕ := 0x202
    (0 < m) ∧
    (720896 < p + m) ∧
    (p + m ≤ 786432) ∧
    (¬∀ (i : ℕ), p ≤ i → i < p + m → 720896 ≤ i → ∃ b ∈ s.ownBufs c, b.1 ≤ i ∧ i < b.1 + b.2) :=
  ⟨by decide, by decide, by decide, by decide⟩

theorem meets_TileRetires_6 :
    let s : State := nopS
    let k : ℕ := 63
    (s.core k).phase = CorePhase.running :=
  by decide

theorem meets_TileTransfers_11 :
    let s : State := dmOut
    let k : Fin 64 := 63
    let w : W128 := dmW []
    let d : Deny := dmD
    (TileAt s k.val w 32) ∧
    (((s.core k.val).dmaOf w).aligned = true) ∧
    (s.dmaBad (s.coreAgent k.val) ((s.core k.val).dmaOf w) = some d) :=
  ⟨tileOf (by decide), by decide, by decide⟩

theorem meets_TileTransfers_15 :
    let s : State := dmHeld
    let k : Fin 64 := 63
    let tag : Fin 16 := 15
    let l : List Dma := [dq14]
    let d : Dma := dq 0x100 0xAFFF8 false
    let r : List Dma := [dq 0 0 true]
    ((s.core k.val).phase = CorePhase.running) ∧
    ((s.core k.val).dmas = l ++ d :: r) ∧
    (∀ e ∈ l, e.tag ≠ tag.val) ∧
    (d.tag = tag.val) ∧
    (s.dmaHeld k.val d = true) :=
  by and_intros <;> decide

def stp (st : EpSt) : State := { nopS with jobs := [(5, some { progJob with epoch := some 3 })], epochs := [(3, { st := st, tenant := 1, limit := 4 })] }
def endSv : State := { endS with cores := [(63, { (endS.core 63) with phase := .saving })] }
def stO : W128 := lm 15 0xC0000 3
def stOs : State := lmS stO []
def stOsp : State := { stOs with jobs := [(5, some { progJob with epoch := some 3 })], epochs := [(3, { st := .opened, tenant := 1, limit := 0 })] }
def stOhi : W128 := lm 15 0x1000000 3
def stOhS : State := { lmS stOhi [] with jobs := [(5, some { progJob with epoch := some 3 })], epochs := [(3, { st := .opened, tenant := 1, limit := 4 })] }
def stOhD : Deny := (stOhS.access (stOhS.coreAgent 63) 1 0x1000000 8).getD { code := 0 }
def stIn : W128 := lm 15 0xAFFF8 3
def dmBadA : State := dmS (dmW []) 0x1002 0xAFFF8 []
def dmLm : State := dmS (dmW []) 0x1000 0xAFFFC []
def retr (s : State) : State := { s with dies := [(3, { bridge := .retrain, power := .on })] }
def dmX : Dma := { dq 0x1000000 0xAFFF8 false with tag := 15 }
def dmXS : State := dmS nopW 0 0 [dq14, dmX]

theorem meets_TileControl_11 :
    let s : State := endS
    let k : Fin 64 := 63
    let w : W128 := endW
    let j : ℕ := 5
    let y : Job := progJob
    (TileAt s k.val w 18) ∧
    ((s.core k.val).job = some j) ∧
    (s.job j = some y) :=
  ⟨tileOf (by decide +kernel), by decide +kernel, by decide +kernel⟩

theorem meets_TileRetires_10 :
    let n : ℕ := 2
    0 < n :=
  by decide +kernel

theorem meets_TileTransfers_17 :
    let s : State := (dmS (dmW [(25, 1)]) 4096 8192 q16)
    let k : Fin 64 := 63
    let tag : Fin 16 := 14
    ((s.core k.val).phase = CorePhase.running ∨ (s.core k.val).phase = CorePhase.saving) ∧
    (∀ d ∈ (s.core k.val).dmas, d.tag ≠ tag.val) :=
  ⟨by decide +kernel, by decide +kernel⟩

theorem meets_TileTransfers_18 :
    let s : State := dmEnd
    let k : Fin 64 := 63
    let tag : Fin 16 := 15
    let l : List Dma := ([dq14])
    let d : Dma := (dq 0x100 0xAFFF8 false)
    ((s.core k.val).phase = CorePhase.running ∨ (s.core k.val).phase = CorePhase.saving) ∧
    (∃ r : List Dma, (s.core k.val).dmas = l ++ d :: r) ∧
    (∀ e ∈ l, e.tag ≠ tag.val) ∧
    (d.tag = tag.val) ∧
    (s.dmaHeld k.val d = false) ∧
    (s.dmaDeny (s.coreAgent k.val) d = none) ∧
    (d.srcDev = true) ∧
    (d.dstDev = false) ∧
    (d.rows = 1) ∧
    (d.done = 0) ∧
    (s.key.walk = none) ∧
    (s.region d.src ≠ Region.host) ∧
    ((s.core k.val).wait = none) ∧
    ((s.coreAgent k.val).epoch = none) :=
  ⟨by decide +kernel, by exact ⟨_, rfl⟩, by decide +kernel, by decide +kernel, by decide +kernel, by decide +kernel, by decide +kernel, by decide +kernel, by decide +kernel, by decide +kernel, by decide +kernel, by decide +kernel, by decide +kernel, by decide +kernel⟩

theorem meets_TileBoundary_8 :
    let s : State := stp .aborting
    let i : Instr := .tileNop 63
    let k : Fin 64 := 63
    let op : ℕ := 0
    (tileRow i = some (k, op)) ∧
    (s.stopped k.val = true) :=
  ⟨by decide +kernel, by decide +kernel⟩

theorem meets_TileBoundary_9 :
    let s : State := pastEnd
    let i : Instr := .tileWait 63 9
    let k : Fin 64 := 63
    let op : ℕ := 99
    let code : ℕ := 8
    let pc : ℕ := 64
    let d : Option Deny := none
    (tileRow i = some (k, op)) ∧
    (s.stopped k.val = false) ∧
    (s.fetch k.val = Fetched.fault code pc d) :=
  ⟨by decide +kernel, by decide +kernel, by decide +kernel⟩

theorem meets_TileBoundary_10 :
    let s : State := nopS
    let i : Instr := .tileAdd 63
    let k : Fin 64 := 63
    let op : ℕ := 1
    let w : W128 := nopW
    (tileRow i = some (k, op)) ∧
    (s.stopped k.val = false) ∧
    (s.fetch k.val = Fetched.word w) ∧
    (tOp w ≠ op) ∧
    (tLayout (tOp w) ≠ none) :=
  ⟨by decide +kernel, by decide +kernel, by decide +kernel, by decide +kernel, by decide +kernel⟩

theorem meets_TileBoundary_11 :
    let s : State := badS
    let i : Instr := .tileAdd 63
    let k : Fin 64 := 63
    let op : ℕ := 1
    let w : W128 := badW
    (tileRow i = some (k, op)) ∧
    (s.stopped k.val = false) ∧
    (s.fetch k.val = Fetched.word w) ∧
    (tLayout (tOp w) = none) :=
  ⟨by decide +kernel, by decide +kernel, by decide +kernel, by decide +kernel⟩

theorem meets_TileBoundary_12 :
    let s : State := rsvS
    let i : Instr := .tileNop 63
    let k : Fin 64 := 63
    let op : ℕ := 0
    let w : W128 := rsvW
    let code : ℕ := 2
    (tileRow i = some (k, op)) ∧
    (s.stopped k.val = false) ∧
    (s.fetch k.val = Fetched.word w) ∧
    (tOp w = op) ∧
    (tEncFault w = some code) :=
  ⟨by decide +kernel, by decide +kernel, by decide +kernel, by decide +kernel, by decide +kernel⟩

theorem meets_TileBoundary_13 :
    let s : State := grdS .running
    let i : Instr := .tileAdd 63
    let k : Fin 64 := 63
    let op : ℕ := 1
    let w : W128 := grdW
    (tileRow i = some (k, op)) ∧
    (s.stopped k.val = false) ∧
    (s.fetch k.val = Fetched.word w) ∧
    (tOp w = op) ∧
    (tEncFault w = none) ∧
    ((s.core k.val).guard w = false) ∧
    ((s.core k.val).phase = CorePhase.running) :=
  ⟨by decide +kernel, by decide +kernel, by decide +kernel, by decide +kernel, by decide +kernel, by decide +kernel, by decide +kernel⟩

theorem meets_TileBoundary_14 :
    let s : State := grdS .saving
    let i : Instr := .tileAdd 63
    let k : Fin 64 := 63
    let op : ℕ := 1
    let w : W128 := grdW
    (tileRow i = some (k, op)) ∧
    (s.stopped k.val = false) ∧
    (s.fetch k.val = Fetched.word w) ∧
    (tOp w = op) ∧
    (tEncFault w = none) ∧
    ((s.core k.val).guard w = false) ∧
    ((s.core k.val).phase = CorePhase.saving) :=
  ⟨by decide +kernel, by decide +kernel, by decide +kernel, by decide +kernel, by decide +kernel, by decide +kernel, by decide +kernel⟩

theorem meets_TileControl_12 :
    let s : State := endSv
    let k : Fin 64 := 63
    let w : W128 := endW
    let j : ℕ := 5
    let y : Job := progJob
    ((s.core k.val).phase = CorePhase.saving) ∧
    (s.stopped k.val = false) ∧
    ((s.core k.val).job = some j) ∧
    (s.job j = some y) ∧
    (s.fetch k.val = Fetched.word w) ∧
    (tOp w = 18) ∧
    (tEncFault w = none) ∧
    ((s.core k.val).guard w = true) ∧
    (s.dmasHeld k.val = false) :=
  ⟨by decide +kernel, by decide +kernel, by decide +kernel, by decide +kernel, by decide +kernel, by decide +kernel, by decide +kernel, by decide +kernel, by decide +kernel⟩

theorem meets_TileLocalMemory_9 :
    let s : State := retr stOs
    let k : Fin 64 := 63
    let w : W128 := stO
    let e1 := (s.core k.val).rd (fld w 24 8) + BitVec.ofNat 64 (BitVec.toNat w / 2 ^ 64)
    (TileAt s k.val w 15) ∧
    (BitVec.toNat e1 % 2 ^ fld w 44 2 = 0) ∧
    (s.stsOut k.val (BitVec.toNat e1) (2 ^ fld w 44 2) = true) ∧
    (s.pathHeld (some (k.val / 16)) (BitVec.toNat e1) (2 ^ fld w 44 2) = true) :=
  ⟨tileOf (by decide +kernel), by decide +kernel, by decide +kernel, by decide +kernel⟩

theorem meets_TileLocalMemory_10 :
    let s : State := stOhS
    let k : Fin 64 := 63
    let w : W128 := stOhi
    let d : Deny := stOhD
    let e1 := (s.core k.val).rd (fld w 24 8) + BitVec.ofNat 64 (BitVec.toNat w / 2 ^ 64)
    (TileAt s k.val w 15) ∧
    (BitVec.toNat e1 % 2 ^ fld w 44 2 = 0) ∧
    (s.stsOut k.val (BitVec.toNat e1) (2 ^ fld w 44 2) = true) ∧
    (s.pathHeld (some (k.val / 16)) (BitVec.toNat e1) (2 ^ fld w 44 2) = false) ∧
    (s.access (s.coreAgent k.val) 1 (BitVec.toNat e1) (2 ^ fld w 44 2) = some d) :=
  ⟨tileOf (by decide +kernel), by decide +kernel, by decide +kernel, by decide +kernel, by decide +kernel⟩

theorem meets_TileLocalMemory_11 :
    let s : State := stOs
    let k : Fin 64 := 63
    let w : W128 := stO
    let e1 := (s.core k.val).rd (fld w 24 8) + BitVec.ofNat 64 (BitVec.toNat w / 2 ^ 64)
    (TileAt s k.val w 15) ∧
    (BitVec.toNat e1 % 2 ^ fld w 44 2 = 0) ∧
    (s.stsOut k.val (BitVec.toNat e1) (2 ^ fld w 44 2) = true) ∧
    (s.pathHeld (some (k.val / 16)) (BitVec.toNat e1) (2 ^ fld w 44 2) = false) ∧
    (s.access (s.coreAgent k.val) 1 (BitVec.toNat e1) (2 ^ fld w 44 2) = none) ∧
    (∃ t : State, s.agentWrite (s.coreAgent k.val) (k.val / 16) (BitVec.toNat e1) (toLe (2 ^ fld w 44 2) (BitVec.toNat ((s.core k.val).rd (fld w 16 8)))) = some t) :=
  ⟨tileOf (by decide +kernel), by decide +kernel, by decide +kernel, by decide +kernel, by decide +kernel, by exact Option.isSome_iff_exists.mp (by decide +kernel)⟩

theorem meets_TileLocalMemory_12 :
    let s : State := stOsp
    let k : Fin 64 := 63
    let w : W128 := stO
    let e1 := (s.core k.val).rd (fld w 24 8) + BitVec.ofNat 64 (BitVec.toNat w / 2 ^ 64)
    (TileAt s k.val w 15) ∧
    (BitVec.toNat e1 % 2 ^ fld w 44 2 = 0) ∧
    (s.stsOut k.val (BitVec.toNat e1) (2 ^ fld w 44 2) = true) ∧
    (s.pathHeld (some (k.val / 16)) (BitVec.toNat e1) (2 ^ fld w 44 2) = false) ∧
    (s.access (s.coreAgent k.val) 1 (BitVec.toNat e1) (2 ^ fld w 44 2) = none) ∧
    (s.agentWrite (s.coreAgent k.val) (k.val / 16) (BitVec.toNat e1) (toLe (2 ^ fld w 44 2) (BitVec.toNat ((s.core k.val).rd (fld w 16 8)))) = none) :=
  ⟨tileOf (by decide +kernel), by decide +kernel, by decide +kernel, by decide +kernel, by decide +kernel, by decide +kernel⟩

theorem meets_TileLocalMemory_13 :
    let s : State := lmS stIn []
    let k : Fin 64 := 63
    let w : W128 := stIn
    let e1 := (s.core k.val).rd (fld w 24 8) + BitVec.ofNat 64 (BitVec.toNat w / 2 ^ 64)
    (TileAt s k.val w 15) ∧
    (BitVec.toNat e1 % 2 ^ fld w 44 2 = 0) ∧
    (s.stsOut k.val (BitVec.toNat e1) (2 ^ fld w 44 2) = false) ∧
    (s.lmFault k.val (BitVec.toNat e1) (2 ^ fld w 44 2) = none) ∧
    (s.lmBusy k.val [] [(BitVec.toNat e1, 2 ^ fld w 44 2)] = false) :=
  ⟨tileOf (by decide +kernel), by decide +kernel, by decide +kernel, by decide +kernel, by decide +kernel⟩

theorem meets_TileLocalMemory_14 :
    let s : State := lmS (lm 14 786432 0) []
    let k : Fin 64 := 63
    let w : W128 := lm 14 786432 0
    let i : Host.Outcome State Fault Refusal := exec (.tileLds 63) (lmS (lm 14 786432 0) [])
    let o : ℕ := 14
    let e1 := (s.core k.val).rd (fld w 24 8) + BitVec.ofNat 64 (BitVec.toNat w / 2 ^ 64)
    (i = exec (Instr.tileLds k) s ∧ o = 14 ∨ i = exec (Instr.tileSts k) s ∧ o = 15) ∧
    (TileAt s k.val w o) ∧
    (BitVec.toNat e1 % 2 ^ fld w 44 2 = 0) ∧
    (786432 < BitVec.toNat e1 + 2 ^ fld w 44 2) ∧
    (o = 15 → s.stsOut k.val (BitVec.toNat e1) (2 ^ fld w 44 2) = false) :=
  ⟨by exact .inl ⟨rfl, by decide⟩, tileOf (by decide +kernel), by decide +kernel, by decide +kernel, by decide +kernel⟩

theorem meets_TileLocalMemory_15 :
    let s : State := lmS (lm 15 720896 0) []
    let k : Fin 64 := 63
    let w : W128 := lm 15 720896 0
    let i : Host.Outcome State Fault Refusal := exec (.tileSts 63) (lmS (lm 15 720896 0) [])
    let o : ℕ := 15
    let e1 := (s.core k.val).rd (fld w 24 8) + BitVec.ofNat 64 (BitVec.toNat w / 2 ^ 64)
    (i = exec (Instr.tileLds k) s ∧ o = 14 ∨ i = exec (Instr.tileSts k) s ∧ o = 15) ∧
    (TileAt s k.val w o) ∧
    (BitVec.toNat e1 % 2 ^ fld w 44 2 = 0) ∧
    (BitVec.toNat e1 + 2 ^ fld w 44 2 ≤ 786432) ∧
    (s.lmFault k.val (BitVec.toNat e1) (2 ^ fld w 44 2) = some 6) :=
  ⟨by exact .inr ⟨rfl, by decide⟩, tileOf (by decide +kernel), by decide +kernel, by decide +kernel, by decide +kernel⟩

theorem meets_TileRetires_11 :
    let s : State := savS 1
    let k : ℕ := 63
    let n : ℕ := 2
    let cc : ℕ := 9000
    ((s.core k).phase = CorePhase.saving) ∧
    (4096 < cc) ∧
    (BitVec.toNat (s.core k).progress < n * stepsPer n cc) :=
  ⟨by decide +kernel, by decide +kernel, by decide +kernel⟩

theorem meets_TileRetires_12 :
    let s : State := savS 1
    let k : ℕ := 63
    let cc : ℕ := 4096
    ((s.core k).phase = CorePhase.saving) ∧
    (cc ≤ 4096) :=
  ⟨by decide +kernel, by decide +kernel⟩

theorem meets_TileRetires_13 :
    let s : State := savS 1
    let k : ℕ := 63
    let b : ℕ := 1
    let c : ℕ := 2
    (BitVec.toNat (s.core k).progress ≤ b) ∧
    (b ≤ c) :=
  ⟨by decide +kernel, by decide +kernel⟩

theorem meets_TileRetires_14 :
    let n : ℕ := 2
    let cc : ℕ := 8192
    stepsPer n cc = 1 :=
  by decide +kernel

theorem meets_TileTransfers_19 :
    let s : State := dmBadA
    let k : Fin 64 := 63
    let w : W128 := dmW []
    (TileAt s k.val w 32) ∧
    (((s.core k.val).dmaOf w).src % 4 ≠ 0 ∨ ((s.core k.val).dmaOf w).dst % 4 ≠ 0 ∨ ((s.core k.val).dmaOf w).sstr % 4 ≠ 0 ∨ ((s.core k.val).dmaOf w).dstr % 4 ≠ 0 ∨ ((s.core k.val).dmaOf w).len % 4 ≠ 0) :=
  ⟨tileOf (by decide +kernel), by decide +kernel⟩

theorem meets_TileTransfers_20 :
    let s : State := dmLm
    let k : Fin 64 := 63
    let w : W128 := dmW []
    let f : ℕ := 6
    (TileAt s k.val w 32) ∧
    (((s.core k.val).dmaOf w).aligned = true) ∧
    (s.dmaBad (s.coreAgent k.val) ((s.core k.val).dmaOf w) = none) ∧
    (s.lmFaults k.val ((if ((s.core k.val).dmaOf w).srcDev = true then [] else ((s.core k.val).dmaOf w).rowsAt ((s.core k.val).dmaOf w).src ((s.core k.val).dmaOf w).sstr) ++ if ((s.core k.val).dmaOf w).dstDev = true then [] else ((s.core k.val).dmaOf w).rowsAt ((s.core k.val).dmaOf w).dst ((s.core k.val).dmaOf w).dstr) = some f) :=
  ⟨tileOf (by decide +kernel), by decide +kernel, by decide +kernel, by decide +kernel⟩

theorem meets_TileTransfers_21 :
    let s : State := dmS (dmW [(25, 1)]) 4096 8192 []
    let k : Fin 64 := 63
    let w : W128 := dmW [(25, 1)]
    (TileAt s k.val w 32) ∧
    (((s.core k.val).dmaOf w).aligned = true) ∧
    (s.dmaBad (s.coreAgent k.val) ((s.core k.val).dmaOf w) = none) ∧
    (s.lmFaults k.val ((if ((s.core k.val).dmaOf w).srcDev = true then [] else ((s.core k.val).dmaOf w).rowsAt ((s.core k.val).dmaOf w).src ((s.core k.val).dmaOf w).sstr) ++ if ((s.core k.val).dmaOf w).dstDev = true then [] else ((s.core k.val).dmaOf w).rowsAt ((s.core k.val).dmaOf w).dst ((s.core k.val).dmaOf w).dstr) = none) ∧
    ((s.core k.val).dmas.length < 16) :=
  ⟨tileOf (by decide +kernel), by decide +kernel, by decide +kernel, by decide +kernel, by decide +kernel⟩

theorem meets_TileTransfers_22 :
    let s : State := dmS (dmW [(25, 1)]) 4096 8192 q16
    let k : Fin 64 := 63
    let w : W128 := dmW [(25, 1)]
    (TileAt s k.val w 32) ∧
    (((s.core k.val).dmaOf w).aligned = true) ∧
    (s.dmaBad (s.coreAgent k.val) ((s.core k.val).dmaOf w) = none) ∧
    (s.lmFaults k.val ((if ((s.core k.val).dmaOf w).srcDev = true then [] else ((s.core k.val).dmaOf w).rowsAt ((s.core k.val).dmaOf w).src ((s.core k.val).dmaOf w).sstr) ++ if ((s.core k.val).dmaOf w).dstDev = true then [] else ((s.core k.val).dmaOf w).rowsAt ((s.core k.val).dmaOf w).dst ((s.core k.val).dmaOf w).dstr) = none) ∧
    (16 ≤ (s.core k.val).dmas.length) :=
  ⟨tileOf (by decide +kernel), by decide +kernel, by decide +kernel, by decide +kernel, by decide +kernel⟩

theorem meets_TileTransfers_23 :
    let s : State := dmS (dmW []) 0x1000 0xAFFF8 []
    let k : Fin 64 := 63
    let w : W128 := dmW []
    (TileAt s k.val w 32) ∧
    (((s.core k.val).dmaOf w).aligned = true) ∧
    (s.dmaBad (s.coreAgent k.val) ((s.core k.val).dmaOf w) = none) ∧
    (∀ r ∈ (if ((s.core k.val).dmaOf w).srcDev = true then [] else ((s.core k.val).dmaOf w).rowsAt ((s.core k.val).dmaOf w).src ((s.core k.val).dmaOf w).sstr) ++ if ((s.core k.val).dmaOf w).dstDev = true then [] else ((s.core k.val).dmaOf w).rowsAt ((s.core k.val).dmaOf w).dst ((s.core k.val).dmaOf w).dstr, r.1 + r.2 ≤ 720896) :=
  ⟨tileOf (by decide +kernel), by decide +kernel, by decide +kernel, by decide +kernel⟩

theorem meets_TileTransfers_24 :
    let s : State := dmHeld
    let k : Fin 64 := 63
    let tag : Fin 16 := 15
    let l : List Dma := [dq14]
    let d : Dma := dq 0x100 0xAFFF8 false
    let r : List Dma := [dq 0 0 true]
    ((s.core k.val).phase = CorePhase.running ∨ (s.core k.val).phase = CorePhase.saving) ∧
    ((s.core k.val).dmas = l ++ d :: r) ∧
    (∀ e ∈ l, e.tag ≠ tag.val) ∧
    (d.tag = tag.val) ∧
    (s.dmaHeld k.val d = true) :=
  ⟨by decide +kernel, by decide +kernel, by decide +kernel, by decide +kernel, by decide +kernel⟩

theorem meets_TileTransfers_25 :
    let s : State := dmEnd
    let k : Fin 64 := 63
    let tag : Fin 16 := 15
    let l : List Dma := [dq14]
    let d : Dma := dq 0x100 0xAFFF8 false
    let r : List Dma := [dq 0 0 true]
    ((s.core k.val).phase = CorePhase.running ∨ (s.core k.val).phase = CorePhase.saving) ∧
    ((s.core k.val).dmas = l ++ d :: r) ∧
    (∀ e ∈ l, e.tag ≠ tag.val) ∧
    (d.tag = tag.val) ∧
    (s.dmaHeld k.val d = false) ∧
    ((s.core k.val).wait = none) ∧
    (s.dmaDeny (s.coreAgent k.val) d = none) :=
  ⟨by decide +kernel, by decide +kernel, by decide +kernel, by decide +kernel, by decide +kernel, by decide +kernel, by decide +kernel⟩

theorem meets_TileTransfers_26 :
    let s : State := dmXS
    let k : Fin 64 := 63
    let tag : Fin 16 := 15
    let l : List Dma := [dq14]
    let d : Dma := dmX
    let r : List Dma := []
    let e : Deny := (dmXS.dmaDeny (dmXS.coreAgent 63) dmX).getD { code := 0 }
    ((s.core k.val).phase = CorePhase.running ∨ (s.core k.val).phase = CorePhase.saving) ∧
    ((s.core k.val).dmas = l ++ d :: r) ∧
    (∀ e ∈ l, e.tag ≠ tag.val) ∧
    (d.tag = tag.val) ∧
    (s.dmaHeld k.val d = false) ∧
    ((s.core k.val).wait = none) ∧
    (s.dmaDeny (s.coreAgent k.val) d = some e) :=
  ⟨by decide +kernel, by decide +kernel, by decide +kernel, by decide +kernel, by decide +kernel, by decide +kernel, by decide +kernel⟩

end Part11

namespace Part12

def mmW (fs : List (Nat × Nat)) : W128 := word 0x30 ([(20, 1), (24, 2), (28, 3), (48, 0), (54, 0), (60, 0), (70, 1), (82, 1)] ++ fs)
def lmData : List Host.Cell := mwrite (mwrite [] 0x100 ((List.range 64).map (fun i => BitVec.ofNat 8 (i * 7 + 250)))) 0x200 ((List.range 64).map (fun i => BitVec.ofNat 8 (3 * i + 200)))
def mmS (w : W128) : State := tileS w { pc := 5, a := [(1, 0x100), (2, 0x200), (3, 0x300)], lm := lmData, acc := [(5, 0x7FFFFFF0)] } t1
def mm1 : W128 := mmW [(12, 1), (16, 1), (34, 0)]
def mmF : W128 := mmW [(12, 6), (16, 7), (34, 1), (36, 1)]
def mmG : W128 := mmW [(12, 6), (16, 7), (32, 1), (60, 8)]
def mmG2 : W128 := word 0x30 [(12, 6), (16, 7), (20, 1), (24, 2), (28, 3), (32, 1), (60, 7), (70, 2), (82, 2)]
def mmBad : W128 := mmW [(12, 1), (16, 6)]
def mmAcc : W128 := word 0x30 [(12, 1), (16, 1), (20, 1), (24, 2), (36, 4095), (54, 1), (70, 1), (82, 1)]
def fl : List Host.Cell := mwrite (mwrite [] 0x100 ([0x3F800000, 0xC0000000, 0x7F7FFFFF, 0x00000001].flatMap (fun v => toLe 4 v))) 0x200 ([0x40400000, 0x3FC00000, 0x7F7FFFFF, 0x80000001].flatMap (fun v => toLe 4 v))
def vS (w : W128) (c : Tbl (Option Curve)) : State := tileS w { pc := 5, a := [(1, 0x180), (2, 0x100), (3, 0x200)], lm := fl, curves := c, rng := 77 } t1
def vopW (o : Nat) : W128 := word 0x40 [(12, o), (16, 1), (20, 2), (24, 3), (32, 4)]
def vpW : W128 := word 0x41 [(12, 7), (16, 1), (20, 2), (32, 4)]
def cv : Curve := { src := 0x100, words := [0, 0x40000000, 0xBF800000, 0x40A00000] ++ (List.range 32).map (fun i => if i % 2 = 0 then 0x3F800000 else 0x3F000000) }
def vrW (o n q : Nat) : W128 := word 0x43 [(12, o), (16, 1), (20, 2), (32, n), (64, q)]
def cuW : W128 := word 0x44 [(12, 7), (20, 2)]
def cuS (a : W64) (lo hi : Nat) : State := tileS cuW { pc := 5, a := [(2, a)], lm := mwrite (mwrite [] 0x100 (toLe 4 lo)) 0x104 (toLe 4 hi) } t1
def cvW (fs : List (Nat × Nat)) : W128 := word 0x42 ([(12, 1), (48, 0xA), (16, 1), (20, 2), (24, 3), (32, 16)] ++ fs)
def cvS (w : W128) (b : W64) : State := tileS w { pc := 5, a := [(1, 0x180), (2, 0x100), (3, b)], lm := fl, rng := 77 } t1
def cw : List W32 := cv.words

theorem meets_Fp32RoundTrip_1 :
    (f32 (BitVec.toNat (2147483649 : BitVec 32)) ≠ FV.nan) :=
  by decide

theorem meets_Fp32RoundTrip_2 :
    (f32 (BitVec.toNat (2139095039 : BitVec 32)) ≠ FV.nan) :=
  by decide

theorem meets_TileMma_1 :
    (TileAt (mmS mmBad) (63) mmBad 48) ∧
    (mmaPair (fld mmBad 12 4) (fld mmBad 16 4) = false) :=
  ⟨tileOf (by decide), by decide⟩

theorem meets_TileMma_2 :
    (TileAt (mmS mmAcc) (63) mmAcc 48) ∧
    (mmaPair (fld mmAcc 12 4) (fld mmAcc 16 4) = true) ∧
    ((if fld mmAcc 32 2 = 0 then 0 else 16 * 2 ^ fld mmAcc 32 2) = 0) ∧
    (16384 < 4 * fld mmAcc 36 12 + 4 * (fld mmAcc 48 6 + 1) * (4 * (fld mmAcc 54 6 + 1))) :=
  ⟨tileOf (by decide), by decide, by decide, by decide⟩

theorem meets_TileMma_3 :
    (TileAt (mmS mmG) (63) mmG 48) ∧
    (mmaPair (fld mmG 12 4) (fld mmG 16 4) = true) ∧
    ((if fld mmG 32 2 = 0 then 0 else 16 * 2 ^ fld mmG 32 2) ≠ 0) ∧
    ((4 * (fld mmG 60 10 + 1) % if fld mmG 32 2 = 0 then 0 else 16 * 2 ^ fld mmG 32 2) ≠ 0) :=
  ⟨tileOf (by decide), by decide, by decide, by decide⟩

theorem meets_TileMma_4 :
    (TileAt (mmS mm1) (63) mm1 48) ∧
    (mmaPair (fld mm1 12 4) (fld mm1 16 4) = true) ∧
    ((if fld mm1 32 2 = 0 then 0 else 16 * 2 ^ fld mm1 32 2) = 0) ∧
    (4 * fld mm1 36 12 + 4 * (fld mm1 48 6 + 1) * (4 * (fld mm1 54 6 + 1)) ≤ 16384) ∧
    ((if fld mm1 32 2 = 0 then 0 else 16 * 2 ^ fld mm1 32 2) = 0) ∧
    ((mmS mm1).lmFaults (63) (List.map (fun i => (BitVec.toNat (tget (0 : W64) ((mmS mm1).core 63).a (fld mm1 20 4)) + i * (16 * fld mm1 70 12), fmtBytes (fld mm1 12 4) (4 * (fld mm1 60 10 + 1)))) (List.range (4 * (fld mm1 48 6 + 1))) ++ List.map (fun i => (BitVec.toNat (tget (0 : W64) ((mmS mm1).core 63).a (fld mm1 24 4)) + i * (16 * fld mm1 82 12), fmtBytes (fld mm1 16 4) (4 * (fld mm1 60 10 + 1)))) (List.range (4 * (fld mm1 54 6 + 1))) ++ if (if fld mm1 32 2 = 0 then 0 else 16 * 2 ^ fld mm1 32 2) = 0 then [] else [(BitVec.toNat (tget (0 : W64) ((mmS mm1).core 63).a (fld mm1 28 4)), 2 * (4 * (fld mm1 48 6 + 1) + 4 * (fld mm1 54 6 + 1)) * if (if fld mm1 32 2 = 0 then 0 else 16 * 2 ^ fld mm1 32 2) = 0 then 0 else 4 * (fld mm1 60 10 + 1) / if fld mm1 32 2 = 0 then 0 else 16 * 2 ^ fld mm1 32 2)]) = none) ∧
    ((mmS mm1).lmBusy (63) (List.map (fun i => (BitVec.toNat (tget (0 : W64) ((mmS mm1).core 63).a (fld mm1 20 4)) + i * (16 * fld mm1 70 12), fmtBytes (fld mm1 12 4) (4 * (fld mm1 60 10 + 1)))) (List.range (4 * (fld mm1 48 6 + 1))) ++ List.map (fun i => (BitVec.toNat (tget (0 : W64) ((mmS mm1).core 63).a (fld mm1 24 4)) + i * (16 * fld mm1 82 12), fmtBytes (fld mm1 16 4) (4 * (fld mm1 60 10 + 1)))) (List.range (4 * (fld mm1 54 6 + 1))) ++ if (if fld mm1 32 2 = 0 then 0 else 16 * 2 ^ fld mm1 32 2) = 0 then [] else [(BitVec.toNat (tget (0 : W64) ((mmS mm1).core 63).a (fld mm1 28 4)), 2 * (4 * (fld mm1 48 6 + 1) + 4 * (fld mm1 54 6 + 1)) * if (if fld mm1 32 2 = 0 then 0 else 16 * 2 ^ fld mm1 32 2) = 0 then 0 else 4 * (fld mm1 60 10 + 1) / if fld mm1 32 2 = 0 then 0 else 16 * 2 ^ fld mm1 32 2)]) [] = false) :=
  ⟨tileOf (by decide), by and_intros <;> decide⟩

theorem meets_TileMma_5 :
    (TileAt (mmS mmF) (63) mmF 48) ∧
    (mmaPair (fld mmF 12 4) (fld mmF 16 4) = true) ∧
    ((if fld mmF 32 2 = 0 then 0 else 16 * 2 ^ fld mmF 32 2) = 0) ∧
    (4 * fld mmF 36 12 + 4 * (fld mmF 48 6 + 1) * (4 * (fld mmF 54 6 + 1)) ≤ 16384) ∧
    ((if fld mmF 32 2 = 0 then 0 else 16 * 2 ^ fld mmF 32 2) = 0) ∧
    ((mmS mmF).lmFaults (63) (List.map (fun i => (BitVec.toNat (tget (0 : W64) ((mmS mmF).core 63).a (fld mmF 20 4)) + i * (16 * fld mmF 70 12), fmtBytes (fld mmF 12 4) (4 * (fld mmF 60 10 + 1)))) (List.range (4 * (fld mmF 48 6 + 1))) ++ List.map (fun i => (BitVec.toNat (tget (0 : W64) ((mmS mmF).core 63).a (fld mmF 24 4)) + i * (16 * fld mmF 82 12), fmtBytes (fld mmF 16 4) (4 * (fld mmF 60 10 + 1)))) (List.range (4 * (fld mmF 54 6 + 1))) ++ if (if fld mmF 32 2 = 0 then 0 else 16 * 2 ^ fld mmF 32 2) = 0 then [] else [(BitVec.toNat (tget (0 : W64) ((mmS mmF).core 63).a (fld mmF 28 4)), 2 * (4 * (fld mmF 48 6 + 1) + 4 * (fld mmF 54 6 + 1)) * if (if fld mmF 32 2 = 0 then 0 else 16 * 2 ^ fld mmF 32 2) = 0 then 0 else 4 * (fld mmF 60 10 + 1) / if fld mmF 32 2 = 0 then 0 else 16 * 2 ^ fld mmF 32 2)]) = none) ∧
    ((mmS mmF).lmBusy (63) (List.map (fun i => (BitVec.toNat (tget (0 : W64) ((mmS mmF).core 63).a (fld mmF 20 4)) + i * (16 * fld mmF 70 12), fmtBytes (fld mmF 12 4) (4 * (fld mmF 60 10 + 1)))) (List.range (4 * (fld mmF 48 6 + 1))) ++ List.map (fun i => (BitVec.toNat (tget (0 : W64) ((mmS mmF).core 63).a (fld mmF 24 4)) + i * (16 * fld mmF 82 12), fmtBytes (fld mmF 16 4) (4 * (fld mmF 60 10 + 1)))) (List.range (4 * (fld mmF 54 6 + 1))) ++ if (if fld mmF 32 2 = 0 then 0 else 16 * 2 ^ fld mmF 32 2) = 0 then [] else [(BitVec.toNat (tget (0 : W64) ((mmS mmF).core 63).a (fld mmF 28 4)), 2 * (4 * (fld mmF 48 6 + 1) + 4 * (fld mmF 54 6 + 1)) * if (if fld mmF 32 2 = 0 then 0 else 16 * 2 ^ fld mmF 32 2) = 0 then 0 else 4 * (fld mmF 60 10 + 1) / if fld mmF 32 2 = 0 then 0 else 16 * 2 ^ fld mmF 32 2)]) [] = false) :=
  ⟨tileOf (by decide), by and_intros <;> decide⟩

theorem meets_TileMma_6 :
    (TileAt (mmS mmG2) (63) mmG2 48) ∧
    (mmaPair (fld mmG2 12 4) (fld mmG2 16 4) = true) ∧
    ((4 * (fld mmG2 60 10 + 1) % if fld mmG2 32 2 = 0 then 0 else 16 * 2 ^ fld mmG2 32 2) = 0) ∧
    (4 * fld mmG2 36 12 + 4 * (fld mmG2 48 6 + 1) * (4 * (fld mmG2 54 6 + 1)) ≤ 16384) ∧
    (BitVec.toNat (tget (0 : W64) ((mmS mmG2).core 63).a (fld mmG2 28 4)) % 2 = 0) ∧
    ((mmS mmG2).lmFaults (63) (List.map (fun i => (BitVec.toNat (tget (0 : W64) ((mmS mmG2).core 63).a (fld mmG2 20 4)) + i * (16 * fld mmG2 70 12), fmtBytes (fld mmG2 12 4) (4 * (fld mmG2 60 10 + 1)))) (List.range (4 * (fld mmG2 48 6 + 1))) ++ List.map (fun i => (BitVec.toNat (tget (0 : W64) ((mmS mmG2).core 63).a (fld mmG2 24 4)) + i * (16 * fld mmG2 82 12), fmtBytes (fld mmG2 16 4) (4 * (fld mmG2 60 10 + 1)))) (List.range (4 * (fld mmG2 54 6 + 1))) ++ if (if fld mmG2 32 2 = 0 then 0 else 16 * 2 ^ fld mmG2 32 2) = 0 then [] else [(BitVec.toNat (tget (0 : W64) ((mmS mmG2).core 63).a (fld mmG2 28 4)), 2 * (4 * (fld mmG2 48 6 + 1) + 4 * (fld mmG2 54 6 + 1)) * if (if fld mmG2 32 2 = 0 then 0 else 16 * 2 ^ fld mmG2 32 2) = 0 then 0 else 4 * (fld mmG2 60 10 + 1) / if fld mmG2 32 2 = 0 then 0 else 16 * 2 ^ fld mmG2 32 2)]) = none) ∧
    ((mmS mmG2).lmBusy (63) (List.map (fun i => (BitVec.toNat (tget (0 : W64) ((mmS mmG2).core 63).a (fld mmG2 20 4)) + i * (16 * fld mmG2 70 12), fmtBytes (fld mmG2 12 4) (4 * (fld mmG2 60 10 + 1)))) (List.range (4 * (fld mmG2 48 6 + 1))) ++ List.map (fun i => (BitVec.toNat (tget (0 : W64) ((mmS mmG2).core 63).a (fld mmG2 24 4)) + i * (16 * fld mmG2 82 12), fmtBytes (fld mmG2 16 4) (4 * (fld mmG2 60 10 + 1)))) (List.range (4 * (fld mmG2 54 6 + 1))) ++ if (if fld mmG2 32 2 = 0 then 0 else 16 * 2 ^ fld mmG2 32 2) = 0 then [] else [(BitVec.toNat (tget (0 : W64) ((mmS mmG2).core 63).a (fld mmG2 28 4)), 2 * (4 * (fld mmG2 48 6 + 1) + 4 * (fld mmG2 54 6 + 1)) * if (if fld mmG2 32 2 = 0 then 0 else 16 * 2 ^ fld mmG2 32 2) = 0 then 0 else 4 * (fld mmG2 60 10 + 1) / if fld mmG2 32 2 = 0 then 0 else 16 * 2 ^ fld mmG2 32 2)]) [] = false) :=
  ⟨tileOf (by decide), by and_intros <;> decide⟩

theorem meets_Accumulation_4 :
    (2 ≠ 0) ∧
    ([ofI (3 : ℤ), ofI (4 : ℤ)].length = 2) ∧
    ([ofI (5 : ℤ), ofI (6 : ℤ)].length = 2) :=
  ⟨by decide, by decide, by decide⟩

theorem meets_TileVectors_0 :
    (TileAt (vS (vopW 0) []) (63) (vopW 0) 64) ∧
    ((fun rds wrs => (vS (vopW 0) []).lmFaults (63) (rds ++ wrs) = none ∧ (vS (vopW 0) []).lmBusy (63) rds wrs = false) ([(BitVec.toNat (tget (0 : W64) ((vS (vopW 0) []).core 63).a (fld (vopW 0) 20 4)), 4 * fld (vopW 0) 32 16)] ++ if fld (vopW 0) 12 4 = 6 then [] else [(BitVec.toNat (tget (0 : W64) ((vS (vopW 0) []).core 63).a (fld (vopW 0) 24 4)), 4 * fld (vopW 0) 32 16)]) [(BitVec.toNat (tget (0 : W64) ((vS (vopW 0) []).core 63).a (fld (vopW 0) 16 4)), 4 * fld (vopW 0) 32 16)]) :=
  ⟨tileOf (by decide), by decide⟩

theorem meets_TileVectors_5 :
    (TileAt (vS (vopW 5) []) (63) (vopW 5) 64) ∧
    ((fun rds wrs => (vS (vopW 5) []).lmFaults (63) (rds ++ wrs) = none ∧ (vS (vopW 5) []).lmBusy (63) rds wrs = false) ([(BitVec.toNat (tget (0 : W64) ((vS (vopW 5) []).core 63).a (fld (vopW 5) 20 4)), 4 * fld (vopW 5) 32 16)] ++ if fld (vopW 5) 12 4 = 6 then [] else [(BitVec.toNat (tget (0 : W64) ((vS (vopW 5) []).core 63).a (fld (vopW 5) 24 4)), 4 * fld (vopW 5) 32 16)]) [(BitVec.toNat (tget (0 : W64) ((vS (vopW 5) []).core 63).a (fld (vopW 5) 16 4)), 4 * fld (vopW 5) 32 16)]) :=
  ⟨tileOf (by decide), by decide⟩

theorem meets_TileVectors_6 :
    (TileAt (vS (vopW 6) []) (63) (vopW 6) 64) ∧
    ((fun rds wrs => (vS (vopW 6) []).lmFaults (63) (rds ++ wrs) = none ∧ (vS (vopW 6) []).lmBusy (63) rds wrs = false) ([(BitVec.toNat (tget (0 : W64) ((vS (vopW 6) []).core 63).a (fld (vopW 6) 20 4)), 4 * fld (vopW 6) 32 16)] ++ if fld (vopW 6) 12 4 = 6 then [] else [(BitVec.toNat (tget (0 : W64) ((vS (vopW 6) []).core 63).a (fld (vopW 6) 24 4)), 4 * fld (vopW 6) 32 16)]) [(BitVec.toNat (tget (0 : W64) ((vS (vopW 6) []).core 63).a (fld (vopW 6) 16 4)), 4 * fld (vopW 6) 32 16)]) :=
  ⟨tileOf (by decide), by decide⟩

theorem meets_TileVectors_7 :
    (TileAt (vS vpW []) (63) vpW 65) ∧
    (tget none ((vS vpW []).core 63).curves (fld vpW 12 4) = none) :=
  ⟨tileOf (by decide), by decide⟩

theorem meets_TileVectors_8 :
    (TileAt (vS vpW [(7, some cv)]) (63) vpW 65) ∧
    (tget none ((vS vpW [(7, some cv)]).core 63).curves (fld vpW 12 4) = some cv) ∧
    ((fun rds wrs => (vS vpW [(7, some cv)]).lmFaults (63) (rds ++ wrs) = none ∧ (vS vpW [(7, some cv)]).lmBusy (63) rds wrs = false) [(BitVec.toNat (tget (0 : W64) ((vS vpW [(7, some cv)]).core 63).a (fld vpW 20 4)), 4 * fld vpW 32 16)] [(BitVec.toNat (tget (0 : W64) ((vS vpW [(7, some cv)]).core 63).a (fld vpW 16 4)), 4 * fld vpW 32 16)]) :=
  ⟨tileOf (by decide), by decide, by decide⟩

theorem meets_TileVectors_9 :
    (TileAt (vS (vrW 1 2 1) []) (63) (vrW 1 2 1) 67) ∧
    ((fun rds wrs => (vS (vrW 1 2 1) []).lmFaults (63) (rds ++ wrs) = none ∧ (vS (vrW 1 2 1) []).lmBusy (63) rds wrs = false) [(BitVec.toNat (tget (0 : W64) ((vS (vrW 1 2 1) []).core 63).a (fld (vrW 1 2 1) 20 4)), 4 * fld (vrW 1 2 1) 32 16 * (fld (vrW 1 2 1) 64 16 + 1))] [(BitVec.toNat (tget (0 : W64) ((vS (vrW 1 2 1) []).core 63).a (fld (vrW 1 2 1) 16 4)), 4 * (fld (vrW 1 2 1) 64 16 + 1))]) :=
  ⟨tileOf (by decide), by decide⟩

theorem meets_TileVectors_10 :
    (TileAt (vS (vrW 0 2 1) []) (63) (vrW 0 2 1) 67) ∧
    ((fun rds wrs => (vS (vrW 0 2 1) []).lmFaults (63) (rds ++ wrs) = none ∧ (vS (vrW 0 2 1) []).lmBusy (63) rds wrs = false) [(BitVec.toNat (tget (0 : W64) ((vS (vrW 0 2 1) []).core 63).a (fld (vrW 0 2 1) 20 4)), 4 * fld (vrW 0 2 1) 32 16 * (fld (vrW 0 2 1) 64 16 + 1))] [(BitVec.toNat (tget (0 : W64) ((vS (vrW 0 2 1) []).core 63).a (fld (vrW 0 2 1) 16 4)), 4 * (fld (vrW 0 2 1) 64 16 + 1))]) :=
  ⟨tileOf (by decide), by decide⟩

theorem meets_TileVectors_11 :
    (TileAt (vS (vrW 2 1 1) []) (63) (vrW 2 1 1) 67) ∧
    ((fun rds wrs => (vS (vrW 2 1 1) []).lmFaults (63) (rds ++ wrs) = none ∧ (vS (vrW 2 1 1) []).lmBusy (63) rds wrs = false) [(BitVec.toNat (tget (0 : W64) ((vS (vrW 2 1 1) []).core 63).a (fld (vrW 2 1 1) 20 4)), 4 * fld (vrW 2 1 1) 32 16 * (fld (vrW 2 1 1) 64 16 + 1))] [(BitVec.toNat (tget (0 : W64) ((vS (vrW 2 1 1) []).core 63).a (fld (vrW 2 1 1) 16 4)), 4 * (fld (vrW 2 1 1) 64 16 + 1))]) :=
  ⟨tileOf (by decide), by decide⟩

theorem meets_TileVectors_12 :
    (TileAt (cuS (257 : W64) 0 0) (63) cuW 68) ∧
    (BitVec.toNat (tget (0 : W64) ((cuS (257 : W64) 0 0).core 63).a (fld cuW 20 4)) % 16 ≠ 0) :=
  ⟨tileOf (by decide), by decide⟩

theorem meets_TileVectors_13 :
    (TileAt (cuS (256 : W64) 1065353216 1065353216) (63) cuW 68) ∧
    (BitVec.toNat (tget (0 : W64) ((cuS (256 : W64) 1065353216 1065353216).core 63).a (fld cuW 20 4)) % 16 = 0) ∧
    ((fun rds wrs => (cuS (256 : W64) 1065353216 1065353216).lmFaults (63) (rds ++ wrs) = none ∧ (cuS (256 : W64) 1065353216 1065353216).lmBusy (63) rds wrs = false) [(BitVec.toNat (tget (0 : W64) ((cuS (256 : W64) 1065353216 1065353216).core 63).a (fld cuW 20 4)), 144)] []) ∧
    (fltX ((fun p i => f32 (leNat (mreadN ((cuS (256 : W64) 1065353216 1065353216).core 63).lm (p + 4 * i) 4))) (BitVec.toNat (tget (0 : W64) ((cuS (256 : W64) 1065353216 1065353216).core 63).a (fld cuW 20 4))) 0) ((fun p i => f32 (leNat (mreadN ((cuS (256 : W64) 1065353216 1065353216).core 63).lm (p + 4 * i) 4))) (BitVec.toNat (tget (0 : W64) ((cuS (256 : W64) 1065353216 1065353216).core 63).a (fld cuW 20 4))) 1) = false) :=
  ⟨tileOf (by decide), by decide, by decide, by decide⟩

theorem meets_TileVectors_14 :
    (TileAt (cuS (256 : W64) 1065353216 1073741824) (63) cuW 68) ∧
    (BitVec.toNat (tget (0 : W64) ((cuS (256 : W64) 1065353216 1073741824).core 63).a (fld cuW 20 4)) % 16 = 0) ∧
    ((fun rds wrs => (cuS (256 : W64) 1065353216 1073741824).lmFaults (63) (rds ++ wrs) = none ∧ (cuS (256 : W64) 1065353216 1073741824).lmBusy (63) rds wrs = false) [(BitVec.toNat (tget (0 : W64) ((cuS (256 : W64) 1065353216 1073741824).core 63).a (fld cuW 20 4)), 144)] []) ∧
    (fltX ((fun p i => f32 (leNat (mreadN ((cuS (256 : W64) 1065353216 1073741824).core 63).lm (p + 4 * i) 4))) (BitVec.toNat (tget (0 : W64) ((cuS (256 : W64) 1065353216 1073741824).core 63).a (fld cuW 20 4))) 0) ((fun p i => f32 (leNat (mreadN ((cuS (256 : W64) 1065353216 1073741824).core 63).lm (p + 4 * i) 4))) (BitVec.toNat (tget (0 : W64) ((cuS (256 : W64) 1065353216 1073741824).core 63).a (fld cuW 20 4))) 1) = true) ∧
    (∃ n m e, (fun p i => f32 (leNat (mreadN ((cuS (256 : W64) 1065353216 1073741824).core 63).lm (p + 4 * i) 4))) (BitVec.toNat (tget (0 : W64) ((cuS (256 : W64) 1065353216 1073741824).core 63).a (fld cuW 20 4))) 0 = FV.fin n m e) ∧
    (∃ n m e, (fun p i => f32 (leNat (mreadN ((cuS (256 : W64) 1065353216 1073741824).core 63).lm (p + 4 * i) 4))) (BitVec.toNat (tget (0 : W64) ((cuS (256 : W64) 1065353216 1073741824).core 63).a (fld cuW 20 4))) 1 = FV.fin n m e) :=
  ⟨tileOf (by decide), by decide, by decide, by decide, ⟨_, _, _, rfl⟩, ⟨_, _, _, rfl⟩⟩

theorem meets_TileConverts_1 :
    (TileAt (cvS (cvW [(55, 1)]) (512 : W64)) (63) (cvW [(55, 1)]) 66) ∧
    ((fld (cvW [(55, 1)]) 32 16 % if fld (cvW [(55, 1)]) 55 2 = 0 then fld (cvW [(55, 1)]) 32 16 else 16 * 2 ^ fld (cvW [(55, 1)]) 55 2) ≠ 0) :=
  ⟨tileOf (by decide), by decide⟩

theorem meets_TileConverts_2 :
    (TileAt (cvS (cvW []) (514 : W64)) (63) (cvW []) 66) ∧
    ((fld (cvW []) 32 16 % if fld (cvW []) 55 2 = 0 then fld (cvW []) 32 16 else 16 * 2 ^ fld (cvW []) 55 2) = 0) ∧
    (BitVec.toNat (tget (0 : W64) ((cvS (cvW []) (514 : W64)).core 63).a (fld (cvW []) 24 4)) % 4 ≠ 0) :=
  ⟨tileOf (by decide), by decide, by decide⟩

theorem meets_TileConverts_3 :
    (TileAt (cvS (cvW [(54, 1)]) (512 : W64)) (63) (cvW [(54, 1)]) 66) ∧
    ((fld (cvW [(54, 1)]) 32 16 % if fld (cvW [(54, 1)]) 55 2 = 0 then fld (cvW [(54, 1)]) 32 16 else 16 * 2 ^ fld (cvW [(54, 1)]) 55 2) = 0) ∧
    (BitVec.toNat (tget (0 : W64) ((cvS (cvW [(54, 1)]) (512 : W64)).core 63).a (fld (cvW [(54, 1)]) 24 4)) % 4 = 0) ∧
    ((cvS (cvW [(54, 1)]) (512 : W64)).lmFaults 63 [(BitVec.toNat (tget (0 : W64) ((cvS (cvW [(54, 1)]) (512 : W64)).core 63).a (fld (cvW [(54, 1)]) 20 4)), fmtBytes (fld (cvW [(54, 1)]) 48 4) (fld (cvW [(54, 1)]) 32 16)), (BitVec.toNat (tget (0 : W64) ((cvS (cvW [(54, 1)]) (512 : W64)).core 63).a (fld (cvW [(54, 1)]) 24 4)), 4 * (fld (cvW [(54, 1)]) 32 16 / if fld (cvW [(54, 1)]) 55 2 = 0 then fld (cvW [(54, 1)]) 32 16 else 16 * 2 ^ fld (cvW [(54, 1)]) 55 2)), (BitVec.toNat (tget (0 : W64) ((cvS (cvW [(54, 1)]) (512 : W64)).core 63).a (fld (cvW [(54, 1)]) 16 4)), fmtBytes (fld (cvW [(54, 1)]) 12 4) (fld (cvW [(54, 1)]) 32 16)), (BitVec.toNat (tget (0 : W64) ((cvS (cvW [(54, 1)]) (512 : W64)).core 63).a (fld (cvW [(54, 1)]) 24 4)) + 4 * (fld (cvW [(54, 1)]) 32 16 / if fld (cvW [(54, 1)]) 55 2 = 0 then fld (cvW [(54, 1)]) 32 16 else 16 * 2 ^ fld (cvW [(54, 1)]) 55 2), if bit (cvW [(54, 1)]) 54 = true then 8 * (fld (cvW [(54, 1)]) 32 16 / if fld (cvW [(54, 1)]) 55 2 = 0 then fld (cvW [(54, 1)]) 32 16 else 16 * 2 ^ fld (cvW [(54, 1)]) 55 2) else 0)] = none) ∧
    ((cvS (cvW [(54, 1)]) (512 : W64)).lmBusy 63 [(BitVec.toNat (tget (0 : W64) ((cvS (cvW [(54, 1)]) (512 : W64)).core 63).a (fld (cvW [(54, 1)]) 20 4)), fmtBytes (fld (cvW [(54, 1)]) 48 4) (fld (cvW [(54, 1)]) 32 16)), (BitVec.toNat (tget (0 : W64) ((cvS (cvW [(54, 1)]) (512 : W64)).core 63).a (fld (cvW [(54, 1)]) 24 4)), 4 * (fld (cvW [(54, 1)]) 32 16 / if fld (cvW [(54, 1)]) 55 2 = 0 then fld (cvW [(54, 1)]) 32 16 else 16 * 2 ^ fld (cvW [(54, 1)]) 55 2))] [(BitVec.toNat (tget (0 : W64) ((cvS (cvW [(54, 1)]) (512 : W64)).core 63).a (fld (cvW [(54, 1)]) 16 4)), fmtBytes (fld (cvW [(54, 1)]) 12 4) (fld (cvW [(54, 1)]) 32 16)), (BitVec.toNat (tget (0 : W64) ((cvS (cvW [(54, 1)]) (512 : W64)).core 63).a (fld (cvW [(54, 1)]) 24 4)) + 4 * (fld (cvW [(54, 1)]) 32 16 / if fld (cvW [(54, 1)]) 55 2 = 0 then fld (cvW [(54, 1)]) 32 16 else 16 * 2 ^ fld (cvW [(54, 1)]) 55 2), if bit (cvW [(54, 1)]) 54 = true then 8 * (fld (cvW [(54, 1)]) 32 16 / if fld (cvW [(54, 1)]) 55 2 = 0 then fld (cvW [(54, 1)]) 32 16 else 16 * 2 ^ fld (cvW [(54, 1)]) 55 2) else 0)] = false) ∧
    (overlap (BitVec.toNat (tget (0 : W64) ((cvS (cvW [(54, 1)]) (512 : W64)).core 63).a (fld (cvW [(54, 1)]) 16 4)), fmtBytes (fld (cvW [(54, 1)]) 12 4) (fld (cvW [(54, 1)]) 32 16)) (BitVec.toNat (tget (0 : W64) ((cvS (cvW [(54, 1)]) (512 : W64)).core 63).a (fld (cvW [(54, 1)]) 24 4)) + 4 * (fld (cvW [(54, 1)]) 32 16 / if fld (cvW [(54, 1)]) 55 2 = 0 then fld (cvW [(54, 1)]) 32 16 else 16 * 2 ^ fld (cvW [(54, 1)]) 55 2), if bit (cvW [(54, 1)]) 54 = true then 8 * (fld (cvW [(54, 1)]) 32 16 / if fld (cvW [(54, 1)]) 55 2 = 0 then fld (cvW [(54, 1)]) 32 16 else 16 * 2 ^ fld (cvW [(54, 1)]) 55 2) else 0) = false) :=
  ⟨tileOf (by decide), by and_intros <;> decide⟩

theorem meets_Curves_2 :
    (f32 3212836864 ≠ FV.nan) ∧
    (fltX (f32 3212836864) ((fun i => f32 (BitVec.toNat (cw.getD i (0 : W32)))) 0) = true) :=
  ⟨by decide, by decide⟩

theorem meets_Curves_3 :
    (f32 1077936128 ≠ FV.nan) ∧
    (fltX (f32 1077936128) ((fun i => f32 (BitVec.toNat (cw.getD i (0 : W32)))) 0) = false) ∧
    (fltX ((fun i => f32 (BitVec.toNat (cw.getD i (0 : W32)))) 1) (f32 1077936128) = true) :=
  ⟨by decide, by decide, by decide⟩

theorem meets_Curves_4 :
    (f32 1073741824 ≠ FV.nan) ∧
    (fltX (f32 1073741824) ((fun i => f32 (BitVec.toNat (cw.getD i (0 : W32)))) 0) = false) ∧
    (fltX ((fun i => f32 (BitVec.toNat (cw.getD i (0 : W32)))) 1) (f32 1073741824) = false) :=
  ⟨by decide, by decide, by decide⟩

theorem meets_Curves_5 :
    (8 < 24) ∧
    (8 ≤ 24) ∧
    (24 ≤ 24) :=
  ⟨by decide, by decide, by decide⟩

theorem meets_TileConverts_4 :
    let s : State := cvS (cvW [(54, 1)]) 512
    let k : Fin 64 := 63
    let w : W128 := cvW [(54, 1)]
    let e1 := (BitVec.toNat (tget 0 (s.core k.val).a (fld w 24 4)) + 4 * (fld w 32 16 / if fld w 55 2 = 0 then fld w 32 16 else 16 * 2 ^ fld w 55 2), if bit w 54 = true then 8 * (fld w 32 16 / if fld w 55 2 = 0 then fld w 32 16 else 16 * 2 ^ fld w 55 2) else 0)
    let e2 := (BitVec.toNat (tget 0 (s.core k.val).a (fld w 16 4)), fmtBytes (fld w 12 4) (fld w 32 16))
    let e3 := (BitVec.toNat (tget 0 (s.core k.val).a (fld w 24 4)), 4 * (fld w 32 16 / if fld w 55 2 = 0 then fld w 32 16 else 16 * 2 ^ fld w 55 2))
    let e4 := (BitVec.toNat (tget 0 (s.core k.val).a (fld w 20 4)), fmtBytes (fld w 48 4) (fld w 32 16))
    (TileAt s k.val w 66) ∧
    ((fld w 32 16 % if fld w 55 2 = 0 then fld w 32 16 else 16 * 2 ^ fld w 55 2) = 0) ∧
    (BitVec.toNat (tget 0 (s.core k.val).a (fld w 24 4)) % 4 = 0) ∧
    (s.lmFaults k.val [e4, e3, e2, e1] = none) ∧
    (s.lmBusy k.val [e4, e3] [e2, e1] = false) ∧
    (overlap e2 e1 = false) ∧
    ((s.core k.val).progress = 0) :=
  ⟨tileOf (by decide), by and_intros <;> decide⟩

theorem meets_TileMma_7 :
    let s : State := mmS mmG2
    let k : Fin 64 := 63
    let w : W128 := mmG2
    let e1 := (BitVec.toNat (tget 0 (s.core k.val).a (fld w 28 4)), 2 * (4 * (fld w 48 6 + 1) + 4 * (fld w 54 6 + 1)) * if (if fld w 32 2 = 0 then 0 else 16 * 2 ^ fld w 32 2) = 0 then 0 else 4 * (fld w 60 10 + 1) / if fld w 32 2 = 0 then 0 else 16 * 2 ^ fld w 32 2)
    (TileAt s k.val w 48) ∧
    (mmaPair (fld w 12 4) (fld w 16 4) = true) ∧
    ((if fld w 32 2 = 0 then 0 else 16 * 2 ^ fld w 32 2) = 0 ∨ (4 * (fld w 60 10 + 1) % if fld w 32 2 = 0 then 0 else 16 * 2 ^ fld w 32 2) = 0) ∧
    (4 * fld w 36 12 + 4 * (fld w 48 6 + 1) * (4 * (fld w 54 6 + 1)) ≤ 16384) ∧
    ((if fld w 32 2 = 0 then 0 else 16 * 2 ^ fld w 32 2) = 0 ∨ BitVec.toNat (tget 0 (s.core k.val).a (fld w 28 4)) % 2 = 0) ∧
    (s.lmFaults k.val (List.map (fun i => (BitVec.toNat (tget 0 (s.core k.val).a (fld w 20 4)) + i * (16 * fld w 70 12), fmtBytes (fld w 12 4) (4 * (fld w 60 10 + 1)))) (List.range (4 * (fld w 48 6 + 1))) ++ List.map (fun i => (BitVec.toNat (tget 0 (s.core k.val).a (fld w 24 4)) + i * (16 * fld w 82 12), fmtBytes (fld w 16 4) (4 * (fld w 60 10 + 1)))) (List.range (4 * (fld w 54 6 + 1))) ++ if (if fld w 32 2 = 0 then 0 else 16 * 2 ^ fld w 32 2) = 0 then [] else [e1]) = none) ∧
    (s.lmBusy k.val (List.map (fun i => (BitVec.toNat (tget 0 (s.core k.val).a (fld w 20 4)) + i * (16 * fld w 70 12), fmtBytes (fld w 12 4) (4 * (fld w 60 10 + 1)))) (List.range (4 * (fld w 48 6 + 1))) ++ List.map (fun i => (BitVec.toNat (tget 0 (s.core k.val).a (fld w 24 4)) + i * (16 * fld w 82 12), fmtBytes (fld w 16 4) (4 * (fld w 60 10 + 1)))) (List.range (4 * (fld w 54 6 + 1))) ++ if (if fld w 32 2 = 0 then 0 else 16 * 2 ^ fld w 32 2) = 0 then [] else [e1]) [] = false) ∧
    ((s.core k.val).progress = 0) :=
  ⟨tileOf (by decide), by and_intros <;> decide⟩

theorem meets_TileVectors_15 :
    let s : State := vS (vopW 5) []
    let k : Fin 64 := 63
    let w : W128 := vopW 5
    (TileAt s k.val w 64) ∧
    (s.lmFaults k.val (([(BitVec.toNat (tget 0 (s.core k.val).a (fld w 20 4)), 4 * fld w 32 16)] ++ if fld w 12 4 = 6 then [] else [(BitVec.toNat (tget 0 (s.core k.val).a (fld w 24 4)), 4 * fld w 32 16)]) ++ [(BitVec.toNat (tget 0 (s.core k.val).a (fld w 16 4)), 4 * fld w 32 16)]) = none ∧ s.lmBusy k.val ([(BitVec.toNat (tget 0 (s.core k.val).a (fld w 20 4)), 4 * fld w 32 16)] ++ if fld w 12 4 = 6 then [] else [(BitVec.toNat (tget 0 (s.core k.val).a (fld w 24 4)), 4 * fld w 32 16)]) [(BitVec.toNat (tget 0 (s.core k.val).a (fld w 16 4)), 4 * fld w 32 16)] = false ∧ (s.core k.val).progress = 0) :=
  ⟨tileOf (by decide), by decide⟩

theorem meets_TileVectors_16 :
    let s : State := vS vpW [(7, some cv)]
    let k : Fin 64 := 63
    let w : W128 := vpW
    let v : Curve := cv
    (TileAt s k.val w 65) ∧
    (tget none (s.core k.val).curves (fld w 12 4) = some v) ∧
    (s.lmFaults k.val ([(BitVec.toNat (tget 0 (s.core k.val).a (fld w 20 4)), 4 * fld w 32 16)] ++ [(BitVec.toNat (tget 0 (s.core k.val).a (fld w 16 4)), 4 * fld w 32 16)]) = none ∧ s.lmBusy k.val [(BitVec.toNat (tget 0 (s.core k.val).a (fld w 20 4)), 4 * fld w 32 16)] [(BitVec.toNat (tget 0 (s.core k.val).a (fld w 16 4)), 4 * fld w 32 16)] = false ∧ (s.core k.val).progress = 0) :=
  ⟨tileOf (by decide), by decide, by decide⟩

theorem meets_TileVectors_17 :
    let s : State := vS (vrW 2 4 1) []
    let k : Fin 64 := 63
    let w : W128 := vrW 2 4 1
    let e1 := (BitVec.toNat (tget 0 (s.core k.val).a (fld w 20 4)), 4 * fld w 32 16 * (fld w 64 16 + 1))
    let e2 := (BitVec.toNat (tget 0 (s.core k.val).a (fld w 16 4)), 4 * (fld w 64 16 + 1))
    (TileAt s k.val w 67) ∧
    (s.lmFaults k.val ([e1] ++ [e2]) = none ∧ s.lmBusy k.val [e1] [e2] = false ∧ (s.core k.val).progress = 0) :=
  ⟨tileOf (by decide), by decide⟩

theorem meets_TileVectors_18 :
    let s : State := cuS 256 0x7F800000 0x3F800000
    let k : Fin 64 := 63
    let w : W128 := cuW
    let e1 := tget 0 (s.core k.val).a (fld w 20 4)
    (TileAt s k.val w 68) ∧
    (BitVec.toNat e1 % 16 = 0) ∧
    (s.lmFaults k.val ([(BitVec.toNat e1, 144)] ++ []) = none ∧ s.lmBusy k.val [(BitVec.toNat e1, 144)] [] = false ∧ (s.core k.val).progress = 0) ∧
    (fltX (f32 (leNat (mreadN (s.core k.val).lm (BitVec.toNat e1 + 4 * 0) 4))) (f32 (leNat (mreadN (s.core k.val).lm (BitVec.toNat e1 + 4 * 1) 4))) = false ∨ (∃ n, f32 (leNat (mreadN (s.core k.val).lm (BitVec.toNat e1 + 4 * 0) 4)) = FV.inf n) ∨ ∃ n, f32 (leNat (mreadN (s.core k.val).lm (BitVec.toNat e1 + 4 * 1) 4)) = FV.inf n) :=
  ⟨tileOf (by decide), by decide, by decide, by decide⟩

theorem meets_TileVectors_19 :
    let s : State := cuS 256 0xBF800000 0x3F800000
    let k : Fin 64 := 63
    let w : W128 := cuW
    let e1 := tget 0 (s.core k.val).a (fld w 20 4)
    (TileAt s k.val w 68) ∧
    (BitVec.toNat e1 % 16 = 0) ∧
    (s.lmFaults k.val ([(BitVec.toNat e1, 144)] ++ []) = none ∧ s.lmBusy k.val [(BitVec.toNat e1, 144)] [] = false ∧ (s.core k.val).progress = 0) ∧
    (fltX (f32 (leNat (mreadN (s.core k.val).lm (BitVec.toNat e1 + 4 * 0) 4))) (f32 (leNat (mreadN (s.core k.val).lm (BitVec.toNat e1 + 4 * 1) 4))) = true) ∧
    (∃ n m e, f32 (leNat (mreadN (s.core k.val).lm (BitVec.toNat e1 + 4 * 0) 4)) = FV.fin n m e) ∧
    (∃ n m e, f32 (leNat (mreadN (s.core k.val).lm (BitVec.toNat e1 + 4 * 1) 4)) = FV.fin n m e) :=
  ⟨tileOf (by decide), by decide, by decide, by decide, by exact ⟨_, _, _, rfl⟩, by exact ⟨_, _, _, rfl⟩⟩

def bq (d : Nat) : Dma := { tag := 15, word := 0, pc := 0, srcDev := true, dstDev := false, src := 0, dst := d, sstr := 0, dstr := 0, len := 8, rows := 1 }
def busyAt (d : Nat) (s : State) : State := { s with cores := [(63, { (s.core 63) with dmas := [bq d] })] }
def mmOdd : State := tileS mmG2 { pc := 5, a := [(1, 0x100), (2, 0x200), (3, 0x301)], lm := lmData } t1
def mmFar : State := tileS mm1 { pc := 5, a := [(1, 0xB0000), (2, 0x200), (3, 0x300)], lm := lmData } t1
def vFar : State := tileS (vopW 0) { pc := 5, a := [(1, 0xB0000), (2, 0x100), (3, 0x200)], lm := fl } t1

theorem meets_TileConverts_5 :
    let s : State := cvS (cvW [(54, 1)]) 0xB0000
    let k : Fin 64 := 63
    let w : W128 := cvW [(54, 1)]
    let f : ℕ := 6
    (TileAt s k.val w 66) ∧
    ((fld w 32 16 % if fld w 55 2 = 0 then fld w 32 16 else 16 * 2 ^ fld w 55 2) = 0) ∧
    (BitVec.toNat (tget 0 (s.core k.val).a (fld w 24 4)) % 4 = 0) ∧
    (s.lmFaults k.val [(BitVec.toNat (tget 0 (s.core k.val).a (fld w 20 4)), fmtBytes (fld w 48 4) (fld w 32 16)), (BitVec.toNat (tget 0 (s.core k.val).a (fld w 24 4)), 4 * (fld w 32 16 / if fld w 55 2 = 0 then fld w 32 16 else 16 * 2 ^ fld w 55 2)), (BitVec.toNat (tget 0 (s.core k.val).a (fld w 16 4)), fmtBytes (fld w 12 4) (fld w 32 16)), (BitVec.toNat (tget 0 (s.core k.val).a (fld w 24 4)) + 4 * (fld w 32 16 / if fld w 55 2 = 0 then fld w 32 16 else 16 * 2 ^ fld w 55 2), if bit w 54 = true then 8 * (fld w 32 16 / if fld w 55 2 = 0 then fld w 32 16 else 16 * 2 ^ fld w 55 2) else 0)] = some f) :=
  ⟨tileOf (by decide +kernel), by decide +kernel, by decide +kernel, by decide +kernel⟩

theorem meets_TileConverts_6 :
    let s : State := busyAt 0x180 (cvS (cvW [(54, 1)]) 0x200)
    let k : Fin 64 := 63
    let w : W128 := cvW [(54, 1)]
    let e1 := (BitVec.toNat (tget 0 (s.core k.val).a (fld w 24 4)) + 4 * (fld w 32 16 / if fld w 55 2 = 0 then fld w 32 16 else 16 * 2 ^ fld w 55 2), if bit w 54 = true then 8 * (fld w 32 16 / if fld w 55 2 = 0 then fld w 32 16 else 16 * 2 ^ fld w 55 2) else 0)
    let e2 := (BitVec.toNat (tget 0 (s.core k.val).a (fld w 24 4)), 4 * (fld w 32 16 / if fld w 55 2 = 0 then fld w 32 16 else 16 * 2 ^ fld w 55 2))
    let e3 := (BitVec.toNat (tget 0 (s.core k.val).a (fld w 20 4)), fmtBytes (fld w 48 4) (fld w 32 16))
    let e4 := (BitVec.toNat (tget 0 (s.core k.val).a (fld w 16 4)), fmtBytes (fld w 12 4) (fld w 32 16))
    (TileAt s k.val w 66) ∧
    ((fld w 32 16 % if fld w 55 2 = 0 then fld w 32 16 else 16 * 2 ^ fld w 55 2) = 0) ∧
    (BitVec.toNat (tget 0 (s.core k.val).a (fld w 24 4)) % 4 = 0) ∧
    (s.lmFaults k.val [e3, e2, e4, e1] = none) ∧
    (s.lmBusy k.val [e3, e2] [e4, e1] = true) :=
  ⟨tileOf (by decide +kernel), by decide +kernel, by decide +kernel, by decide +kernel, by decide +kernel⟩

theorem meets_TileConverts_7 :
    let s : State := cvS (cvW [(54, 1)]) 0x200
    let k : Fin 64 := 63
    let w : W128 := cvW [(54, 1)]
    let e1 := (BitVec.toNat (tget 0 (s.core k.val).a (fld w 24 4)) + 4 * (fld w 32 16 / if fld w 55 2 = 0 then fld w 32 16 else 16 * 2 ^ fld w 55 2), if bit w 54 = true then 8 * (fld w 32 16 / if fld w 55 2 = 0 then fld w 32 16 else 16 * 2 ^ fld w 55 2) else 0)
    let e2 := (BitVec.toNat (tget 0 (s.core k.val).a (fld w 24 4)), 4 * (fld w 32 16 / if fld w 55 2 = 0 then fld w 32 16 else 16 * 2 ^ fld w 55 2))
    let e3 := (BitVec.toNat (tget 0 (s.core k.val).a (fld w 20 4)), fmtBytes (fld w 48 4) (fld w 32 16))
    let e4 := (BitVec.toNat (tget 0 (s.core k.val).a (fld w 16 4)), fmtBytes (fld w 12 4) (fld w 32 16))
    (TileAt s k.val w 66) ∧
    ((fld w 32 16 % if fld w 55 2 = 0 then fld w 32 16 else 16 * 2 ^ fld w 55 2) = 0) ∧
    (BitVec.toNat (tget 0 (s.core k.val).a (fld w 24 4)) % 4 = 0) ∧
    (s.lmFaults k.val [e3, e2, e4, e1] = none) ∧
    (s.lmBusy k.val [e3, e2] [e4, e1] = false) ∧
    ((s.core k.val).progress = 0) :=
  ⟨tileOf (by decide +kernel), by decide +kernel, by decide +kernel, by decide +kernel, by decide +kernel, by decide +kernel⟩

theorem meets_TileConverts_8 :
    let s : State := cvS (cvW [(54, 1)]) 0x200
    let k : Fin 64 := 63
    let w : W128 := cvW [(54, 1)]
    let e1 := (BitVec.toNat (tget 0 (s.core k.val).a (fld w 24 4)) + 4 * (fld w 32 16 / if fld w 55 2 = 0 then fld w 32 16 else 16 * 2 ^ fld w 55 2), if bit w 54 = true then 8 * (fld w 32 16 / if fld w 55 2 = 0 then fld w 32 16 else 16 * 2 ^ fld w 55 2) else 0)
    let e2 := (BitVec.toNat (tget 0 (s.core k.val).a (fld w 16 4)), fmtBytes (fld w 12 4) (fld w 32 16))
    let e3 := (BitVec.toNat (tget 0 (s.core k.val).a (fld w 24 4)), 4 * (fld w 32 16 / if fld w 55 2 = 0 then fld w 32 16 else 16 * 2 ^ fld w 55 2))
    let e4 := (BitVec.toNat (tget 0 (s.core k.val).a (fld w 20 4)), fmtBytes (fld w 48 4) (fld w 32 16))
    (TileAt s k.val w 66) ∧
    ((fld w 32 16 % if fld w 55 2 = 0 then fld w 32 16 else 16 * 2 ^ fld w 55 2) = 0) ∧
    (BitVec.toNat (tget 0 (s.core k.val).a (fld w 24 4)) % 4 = 0) ∧
    (s.lmFaults k.val [e4, e3, e2, e1] = none) ∧
    (s.lmBusy k.val [e4, e3] [e2, e1] = false) ∧
    (overlap e2 e1 = false) ∧
    (overlap e1 e4 = false) ∧
    (overlap e2 e4 = false) ∧
    (overlap e2 e3 = false) ∧
    ((s.core k.val).progress = 0) :=
  ⟨tileOf (by decide +kernel), by decide +kernel, by decide +kernel, by decide +kernel, by decide +kernel, by decide +kernel, by decide +kernel, by decide +kernel, by decide +kernel, by decide +kernel⟩

theorem meets_TileMma_8 :
    let s : State := mmOdd
    let k : Fin 64 := 63
    let w : W128 := mmG2
    (TileAt s k.val w 48) ∧
    (mmaPair (fld w 12 4) (fld w 16 4) = true) ∧
    ((if fld w 32 2 = 0 then 0 else 16 * 2 ^ fld w 32 2) ≠ 0) ∧
    ((4 * (fld w 60 10 + 1) % if fld w 32 2 = 0 then 0 else 16 * 2 ^ fld w 32 2) = 0) ∧
    (4 * fld w 36 12 + 4 * (fld w 48 6 + 1) * (4 * (fld w 54 6 + 1)) ≤ 16384) ∧
    (BitVec.toNat (tget 0 (s.core k.val).a (fld w 28 4)) % 2 ≠ 0) :=
  ⟨tileOf (by decide +kernel), by decide +kernel, by decide +kernel, by decide +kernel, by decide +kernel, by decide +kernel⟩

theorem meets_TileMma_9 :
    let s : State := mmFar
    let k : Fin 64 := 63
    let w : W128 := mm1
    let f : ℕ := 6
    (TileAt s k.val w 48) ∧
    (mmaPair (fld w 12 4) (fld w 16 4) = true) ∧
    ((if fld w 32 2 = 0 then 0 else 16 * 2 ^ fld w 32 2) = 0 ∨ (4 * (fld w 60 10 + 1) % if fld w 32 2 = 0 then 0 else 16 * 2 ^ fld w 32 2) = 0) ∧
    (4 * fld w 36 12 + 4 * (fld w 48 6 + 1) * (4 * (fld w 54 6 + 1)) ≤ 16384) ∧
    ((if fld w 32 2 = 0 then 0 else 16 * 2 ^ fld w 32 2) = 0 ∨ BitVec.toNat (tget 0 (s.core k.val).a (fld w 28 4)) % 2 = 0) ∧
    (s.lmFaults k.val (List.map (fun i => (BitVec.toNat (tget 0 (s.core k.val).a (fld w 20 4)) + i * (16 * fld w 70 12), fmtBytes (fld w 12 4) (4 * (fld w 60 10 + 1)))) (List.range (4 * (fld w 48 6 + 1))) ++ List.map (fun i => (BitVec.toNat (tget 0 (s.core k.val).a (fld w 24 4)) + i * (16 * fld w 82 12), fmtBytes (fld w 16 4) (4 * (fld w 60 10 + 1)))) (List.range (4 * (fld w 54 6 + 1))) ++ if (if fld w 32 2 = 0 then 0 else 16 * 2 ^ fld w 32 2) = 0 then [] else [(BitVec.toNat (tget 0 (s.core k.val).a (fld w 28 4)), 2 * (4 * (fld w 48 6 + 1) + 4 * (fld w 54 6 + 1)) * if (if fld w 32 2 = 0 then 0 else 16 * 2 ^ fld w 32 2) = 0 then 0 else 4 * (fld w 60 10 + 1) / if fld w 32 2 = 0 then 0 else 16 * 2 ^ fld w 32 2)]) = some f) :=
  ⟨tileOf (by decide +kernel), by decide +kernel, by decide +kernel, by decide +kernel, by decide +kernel, by decide +kernel⟩

theorem meets_TileMma_10 :
    let s : State := busyAt 0x100 (mmS mm1)
    let k : Fin 64 := 63
    let w : W128 := mm1
    let e1 := (BitVec.toNat (tget 0 (s.core k.val).a (fld w 28 4)), 2 * (4 * (fld w 48 6 + 1) + 4 * (fld w 54 6 + 1)) * if (if fld w 32 2 = 0 then 0 else 16 * 2 ^ fld w 32 2) = 0 then 0 else 4 * (fld w 60 10 + 1) / if fld w 32 2 = 0 then 0 else 16 * 2 ^ fld w 32 2)
    (TileAt s k.val w 48) ∧
    (mmaPair (fld w 12 4) (fld w 16 4) = true) ∧
    ((if fld w 32 2 = 0 then 0 else 16 * 2 ^ fld w 32 2) = 0 ∨ (4 * (fld w 60 10 + 1) % if fld w 32 2 = 0 then 0 else 16 * 2 ^ fld w 32 2) = 0) ∧
    (4 * fld w 36 12 + 4 * (fld w 48 6 + 1) * (4 * (fld w 54 6 + 1)) ≤ 16384) ∧
    ((if fld w 32 2 = 0 then 0 else 16 * 2 ^ fld w 32 2) = 0 ∨ BitVec.toNat (tget 0 (s.core k.val).a (fld w 28 4)) % 2 = 0) ∧
    (s.lmFaults k.val (List.map (fun i => (BitVec.toNat (tget 0 (s.core k.val).a (fld w 20 4)) + i * (16 * fld w 70 12), fmtBytes (fld w 12 4) (4 * (fld w 60 10 + 1)))) (List.range (4 * (fld w 48 6 + 1))) ++ List.map (fun i => (BitVec.toNat (tget 0 (s.core k.val).a (fld w 24 4)) + i * (16 * fld w 82 12), fmtBytes (fld w 16 4) (4 * (fld w 60 10 + 1)))) (List.range (4 * (fld w 54 6 + 1))) ++ if (if fld w 32 2 = 0 then 0 else 16 * 2 ^ fld w 32 2) = 0 then [] else [e1]) = none) ∧
    (s.lmBusy k.val (List.map (fun i => (BitVec.toNat (tget 0 (s.core k.val).a (fld w 20 4)) + i * (16 * fld w 70 12), fmtBytes (fld w 12 4) (4 * (fld w 60 10 + 1)))) (List.range (4 * (fld w 48 6 + 1))) ++ List.map (fun i => (BitVec.toNat (tget 0 (s.core k.val).a (fld w 24 4)) + i * (16 * fld w 82 12), fmtBytes (fld w 16 4) (4 * (fld w 60 10 + 1)))) (List.range (4 * (fld w 54 6 + 1))) ++ if (if fld w 32 2 = 0 then 0 else 16 * 2 ^ fld w 32 2) = 0 then [] else [e1]) [] = true) :=
  ⟨tileOf (by decide +kernel), by decide +kernel, by decide +kernel, by decide +kernel, by decide +kernel, by decide +kernel, by decide +kernel⟩

theorem meets_TileVectors_20 :
    let s : State := vFar
    let k : Fin 64 := 63
    let w : W128 := vopW 0
    let i : Instr := .tileVop 63
    let o : ℕ := 64
    let rds : List (ℕ × ℕ) := [(0x100, 16), (0x200, 16)]
    let wrs : List (ℕ × ℕ) := [(0xB0000, 16)]
    let f : ℕ := 6
    (i = Instr.tileVop k ∧ o = 64 ∧ (rds = [(BitVec.toNat (tget 0 (s.core k.val).a (fld w 20 4)), 4 * fld w 32 16)] ++ if fld w 12 4 = 6 then [] else [(BitVec.toNat (tget 0 (s.core k.val).a (fld w 24 4)), 4 * fld w 32 16)]) ∧ wrs = [(BitVec.toNat (tget 0 (s.core k.val).a (fld w 16 4)), 4 * fld w 32 16)] ∨ i = Instr.tileVpwl k ∧ o = 65 ∧ tget none (s.core k.val).curves (fld w 12 4) ≠ none ∧ rds = [(BitVec.toNat (tget 0 (s.core k.val).a (fld w 20 4)), 4 * fld w 32 16)] ∧ wrs = [(BitVec.toNat (tget 0 (s.core k.val).a (fld w 16 4)), 4 * fld w 32 16)] ∨ i = Instr.tileVred k ∧ o = 67 ∧ rds = [(BitVec.toNat (tget 0 (s.core k.val).a (fld w 20 4)), 4 * fld w 32 16 * (fld w 64 16 + 1))] ∧ wrs = [(BitVec.toNat (tget 0 (s.core k.val).a (fld w 16 4)), 4 * (fld w 64 16 + 1))]) ∧
    (TileAt s k.val w o) ∧
    (s.lmFaults k.val (rds ++ wrs) = some f) :=
  ⟨by decide +kernel, tileOf (by decide +kernel), by decide +kernel⟩

theorem meets_TileVectors_21 :
    let s : State := busyAt 0x180 (vS (vopW 0) [])
    let k : Fin 64 := 63
    let w : W128 := vopW 0
    let i : Instr := .tileVop 63
    let o : ℕ := 64
    let rds : List (ℕ × ℕ) := [(0x100, 16), (0x200, 16)]
    let wrs : List (ℕ × ℕ) := [(0x180, 16)]
    (i = Instr.tileVop k ∧ o = 64 ∧ (rds = [(BitVec.toNat (tget 0 (s.core k.val).a (fld w 20 4)), 4 * fld w 32 16)] ++ if fld w 12 4 = 6 then [] else [(BitVec.toNat (tget 0 (s.core k.val).a (fld w 24 4)), 4 * fld w 32 16)]) ∧ wrs = [(BitVec.toNat (tget 0 (s.core k.val).a (fld w 16 4)), 4 * fld w 32 16)] ∨ i = Instr.tileVpwl k ∧ o = 65 ∧ tget none (s.core k.val).curves (fld w 12 4) ≠ none ∧ rds = [(BitVec.toNat (tget 0 (s.core k.val).a (fld w 20 4)), 4 * fld w 32 16)] ∧ wrs = [(BitVec.toNat (tget 0 (s.core k.val).a (fld w 16 4)), 4 * fld w 32 16)] ∨ i = Instr.tileVred k ∧ o = 67 ∧ rds = [(BitVec.toNat (tget 0 (s.core k.val).a (fld w 20 4)), 4 * fld w 32 16 * (fld w 64 16 + 1))] ∧ wrs = [(BitVec.toNat (tget 0 (s.core k.val).a (fld w 16 4)), 4 * (fld w 64 16 + 1))]) ∧
    (TileAt s k.val w o) ∧
    (s.lmFaults k.val (rds ++ wrs) = none) ∧
    (s.lmBusy k.val rds wrs = true) :=
  ⟨by decide +kernel, tileOf (by decide +kernel), by decide +kernel, by decide +kernel⟩

end Part12

namespace Part13

/-- Core 63 at a descriptor instruction whose descriptor lies at `p`. -/
def dsS (op p : Nat) (fs : List (Nat × Nat × Nat)) (lm : List Host.Cell) (x : Core) : State :=
  tileS (word op [(12, 1)]) { x with pc := 5, a := [(1, BitVec.ofNat 64 p)], lm := mwrite lm p (bytes 64 fs) } t1
def dw (op : Nat) : W128 := word op [(12, 1)]
def q5 : Dma := { tag := 15, word := 0, pc := 0, srcDev := true, dstDev := false, src := 0, dst := 0x43F, sstr := 0, dstr := 0, len := 8, rows := 1 }
def epd (o : List (Nat × Nat × Nat)) : List (Nat × Nat × Nat) := [(0, 1, 1), (2, 1, 5), (3, 1, 1), (4, 2, 2), (6, 2, 2), (8, 4, 3), (16, 4, 0x3000), (20, 4, 16)] ++ o
def ac : Tbl W32 := [(3, 127), (4, 128), (5, 0xFFFFFFFF), (6, 0x80000000)]
def ep (o : List (Nat × Nat × Nat)) (st : List Byte) (c : Tbl (Option Curve)) : State := dsS 0x50 0x400 (epd o) (mwrite [] 0x800 st) { acc := ac, curves := c }
def ep0 : State := ep [] [] []
def epSt (o : List (Nat × Nat × Nat)) (st : List Byte) : State := ep ([(24, 1, 1), (28, 4, 0x800)] ++ o) st []
def epIll : State := epSt [] (bytes 16 [(0, 1, 9)])
def epAl : State := epSt [] (bytes 16 [(0, 1, 1), (2, 1, 5), (4, 4, 0x902)])
def epCu : State := epSt [] (bytes 16 [(0, 1, 2), (3, 1, 7)])
def epRes : State := epSt [] (bytes 16 [(0, 1, 0), (4, 4, 0x900)])
def epResBad : State := { epRes with cores := [(63, { (epRes.core 63) with lm := mwrite (epRes.core 63).lm 0x908 [64] })] }
def rdM (m : List Host.Cell) : Nat → Nat → List Byte := fun a n => mreadN m a n
def g0 : Stg := { kind := 0, bcast := false, fmt := 0, sel := 0, base := 0x100, stride := 0, recs := 0, arg0 := 0, arg1 := 0, curve := [] }
def e0 : List Host.Cell := mwrite [] 0x100 (bytes 16 [(0, 4, 0x40000000), (4, 4, 0x80000000), (8, 1, 63)])
def e1 : List Host.Cell := mwrite e0 0x109 [1]
def gB (k f : Nat) (b : Bool) : Stg := { g0 with kind := k, fmt := f, bcast := b, stride := 0x40, sel := 0, curve := [0, 0x40000000, 0xBF800000, 0x40A00000] ++ List.replicate 32 0x3F800000 }
def eI : List Host.Cell := mwrite [] 0x104 (toLe 4 0x80000000)
def lowI : Int := -2147483648
def gC : Stg := { gB 5 0 false with arg0 := 0xBF800000, arg1 := 0x3F800000 }
def px0 : List Host.Cell := mwrite (mwrite [] 0x1000 ((List.range 64).map (fun i => BitVec.ofNat 8 (i * 5 + 240)))) 0x2000 ((List.range 64).map (fun i => BitVec.ofNat 8 (i * 3 + 200)))
def wi (k fi : Nat) (o : List (Nat × Nat × Nat)) : List (Nat × Nat × Nat) :=
  [(0, 1, 2), (1, 1, k), (2, 1, fi), (16, 2, 2), (18, 2, 2), (20, 2, 4), (22, 2, 4), (24, 2, 1), (28, 4, 0x1000), (36, 4, 0x3000)] ++ o
def win22 : List (Nat × Nat × Nat) := [(6, 1, 2), (7, 1, 2), (8, 2, 1), (10, 2, 1)]
def wS (f : List (Nat × Nat × Nat)) : State := dsS 0x51 0x400 f px0 { acc := [(3, 7)] }
def wOver : State := wS ([(0, 1, 2), (1, 1, 2), (2, 1, 1), (16, 2, 2), (18, 2, 2), (20, 2, 4), (22, 2, 4), (24, 2, 1), (28, 4, 0x1000), (36, 4, 0x100C)] ++ win22)
def wMax : State := wS (wi 2 1 ([(12, 1, 1), (14, 1, 1)] ++ win22))
def wAvg : State := wS (wi 3 1 ([(4, 1, 0x42), (12, 1, 1), (14, 1, 1)] ++ win22))
def wConv (dst : Nat) (fl : Nat) : State := wS ([(0, 1, 2), (1, 1, 0), (2, 1, 1), (3, 1, 1), (4, 1, fl), (12, 1, 1), (13, 1, 1), (14, 1, 1), (15, 1, 1), (16, 2, 2), (18, 2, 2), (20, 2, 4), (22, 2, 4), (24, 2, 2), (28, 4, 0x1000), (32, 4, 0x2000), (36, 4, dst)] ++ win22)
def wNear : State := wS (wi 4 1 [(26, 1, 2), (27, 1, 3)])
def wDeep : State := wS (wi 6 1 [(26, 1, 2), (27, 1, 2)])

theorem meets_Descriptors_1 :
    (80 = 80 ∧ Instr.tileEpi (63 : Fin 64) = Instr.tileEpi (63 : Fin 64) ∨ 80 = 81 ∧ Instr.tileEpi (63 : Fin 64) = Instr.tileWin (63 : Fin 64) ∨ 80 = 82 ∧ Instr.tileEpi (63 : Fin 64) = Instr.tileRstep (63 : Fin 64) ∨ 80 = 83 ∧ Instr.tileEpi (63 : Fin 64) = Instr.tileAttn (63 : Fin 64)) ∧
    (TileAt (dsS 80 1025 [] [] { : Core }) (63) (dw 80) 80) ∧
    (BitVec.toNat (tget (0 : W64) ((dsS 80 1025 [] [] { : Core }).core 63).a (fld (dw 80) 12 4)) % 64 ≠ 0) :=
  ⟨.inl ⟨rfl, rfl⟩, tileOf (by decide), by decide⟩

theorem meets_Descriptors_2 :
    (81 = 80 ∧ Instr.tileWin (63 : Fin 64) = Instr.tileEpi (63 : Fin 64) ∨ 81 = 81 ∧ Instr.tileWin (63 : Fin 64) = Instr.tileWin (63 : Fin 64) ∨ 81 = 82 ∧ Instr.tileWin (63 : Fin 64) = Instr.tileRstep (63 : Fin 64) ∨ 81 = 83 ∧ Instr.tileWin (63 : Fin 64) = Instr.tileAttn (63 : Fin 64)) ∧
    (TileAt (dsS 81 786432 [] [] { : Core }) (63) (dw 81) 81) ∧
    (BitVec.toNat (tget (0 : W64) ((dsS 81 786432 [] [] { : Core }).core 63).a (fld (dw 81) 12 4)) % 64 = 0) ∧
    ((dsS 81 786432 [] [] { : Core }).lmFault (63) (BitVec.toNat (tget (0 : W64) ((dsS 81 786432 [] [] { : Core }).core 63).a (fld (dw 81) 12 4))) 64 = some 5) :=
  ⟨.inr (.inl ⟨rfl, rfl⟩), tileOf (by decide), by decide, by decide⟩

theorem meets_Descriptors_3 :
    (82 = 80 ∧ Instr.tileRstep (63 : Fin 64) = Instr.tileEpi (63 : Fin 64) ∨ 82 = 81 ∧ Instr.tileRstep (63 : Fin 64) = Instr.tileWin (63 : Fin 64) ∨ 82 = 82 ∧ Instr.tileRstep (63 : Fin 64) = Instr.tileRstep (63 : Fin 64) ∨ 82 = 83 ∧ Instr.tileRstep (63 : Fin 64) = Instr.tileAttn (63 : Fin 64)) ∧
    (TileAt (dsS 82 1024 [] [] { dmas := [q5] : Core }) (63) (dw 82) 82) ∧
    (BitVec.toNat (tget (0 : W64) ((dsS 82 1024 [] [] { dmas := [q5] : Core }).core 63).a (fld (dw 82) 12 4)) % 64 = 0) ∧
    ((dsS 82 1024 [] [] { dmas := [q5] : Core }).lmFault (63) (BitVec.toNat (tget (0 : W64) ((dsS 82 1024 [] [] { dmas := [q5] : Core }).core 63).a (fld (dw 82) 12 4))) 64 = none) ∧
    ((dsS 82 1024 [] [] { dmas := [q5] : Core }).lmBusy 63 [(BitVec.toNat (tget (0 : W64) ((dsS 82 1024 [] [] { dmas := [q5] : Core }).core 63).a (fld (dw 82) 12 4)), 64)] [] = true) :=
  ⟨.inr (.inr (.inl ⟨rfl, rfl⟩)), tileOf (by decide), by decide, by decide, by decide⟩

theorem meets_Descriptors_4 :
    (80 = 80 ∧ Instr.tileEpi (63 : Fin 64) = Instr.tileEpi (63 : Fin 64) ∨ 80 = 81 ∧ Instr.tileEpi (63 : Fin 64) = Instr.tileWin (63 : Fin 64) ∨ 80 = 82 ∧ Instr.tileEpi (63 : Fin 64) = Instr.tileRstep (63 : Fin 64) ∨ 80 = 83 ∧ Instr.tileEpi (63 : Fin 64) = Instr.tileAttn (63 : Fin 64)) ∧
    (TileAt (dsS 80 1024 [] [] { : Core }) (63) (dw 80) 80) ∧
    (BitVec.toNat (tget (0 : W64) ((dsS 80 1024 [] [] { : Core }).core 63).a (fld (dw 80) 12 4)) % 64 = 0) ∧
    ((dsS 80 1024 [] [] { : Core }).lmFault (63) (BitVec.toNat (tget (0 : W64) ((dsS 80 1024 [] [] { : Core }).core 63).a (fld (dw 80) 12 4))) 64 = none) ∧
    ((dsS 80 1024 [] [] { : Core }).lmBusy 63 [(BitVec.toNat (tget (0 : W64) ((dsS 80 1024 [] [] { : Core }).core 63).a (fld (dw 80) 12 4)), 64)] [] = false) ∧
    (80 = 80) ∧
    (epiOk (mreadN ((dsS 80 1024 [] [] { : Core }).core 63).lm (BitVec.toNat (tget (0 : W64) ((dsS 80 1024 [] [] { : Core }).core 63).a (fld (dw 80) 12 4))) 64) = false) :=
  ⟨.inl ⟨rfl, rfl⟩, tileOf (by decide), by and_intros <;> decide⟩

theorem meets_Descriptors_5 :
    (81 = 80 ∧ Instr.tileWin (63 : Fin 64) = Instr.tileEpi (63 : Fin 64) ∨ 81 = 81 ∧ Instr.tileWin (63 : Fin 64) = Instr.tileWin (63 : Fin 64) ∨ 81 = 82 ∧ Instr.tileWin (63 : Fin 64) = Instr.tileRstep (63 : Fin 64) ∨ 81 = 83 ∧ Instr.tileWin (63 : Fin 64) = Instr.tileAttn (63 : Fin 64)) ∧
    (TileAt (dsS 81 1024 [] [] { : Core }) (63) (dw 81) 81) ∧
    (BitVec.toNat (tget (0 : W64) ((dsS 81 1024 [] [] { : Core }).core 63).a (fld (dw 81) 12 4)) % 64 = 0) ∧
    ((dsS 81 1024 [] [] { : Core }).lmFault (63) (BitVec.toNat (tget (0 : W64) ((dsS 81 1024 [] [] { : Core }).core 63).a (fld (dw 81) 12 4))) 64 = none) ∧
    ((dsS 81 1024 [] [] { : Core }).lmBusy 63 [(BitVec.toNat (tget (0 : W64) ((dsS 81 1024 [] [] { : Core }).core 63).a (fld (dw 81) 12 4)), 64)] [] = false) ∧
    (81 = 81) ∧
    (winOk (mreadN ((dsS 81 1024 [] [] { : Core }).core 63).lm (BitVec.toNat (tget (0 : W64) ((dsS 81 1024 [] [] { : Core }).core 63).a (fld (dw 81) 12 4))) 64) = false) :=
  ⟨.inr (.inl ⟨rfl, rfl⟩), tileOf (by decide), by and_intros <;> decide⟩

theorem meets_Descriptors_6 :
    (82 = 80 ∧ Instr.tileRstep (63 : Fin 64) = Instr.tileEpi (63 : Fin 64) ∨ 82 = 81 ∧ Instr.tileRstep (63 : Fin 64) = Instr.tileWin (63 : Fin 64) ∨ 82 = 82 ∧ Instr.tileRstep (63 : Fin 64) = Instr.tileRstep (63 : Fin 64) ∨ 82 = 83 ∧ Instr.tileRstep (63 : Fin 64) = Instr.tileAttn (63 : Fin 64)) ∧
    (TileAt (dsS 82 1024 [] [] { : Core }) (63) (dw 82) 82) ∧
    (BitVec.toNat (tget (0 : W64) ((dsS 82 1024 [] [] { : Core }).core 63).a (fld (dw 82) 12 4)) % 64 = 0) ∧
    ((dsS 82 1024 [] [] { : Core }).lmFault (63) (BitVec.toNat (tget (0 : W64) ((dsS 82 1024 [] [] { : Core }).core 63).a (fld (dw 82) 12 4))) 64 = none) ∧
    ((dsS 82 1024 [] [] { : Core }).lmBusy 63 [(BitVec.toNat (tget (0 : W64) ((dsS 82 1024 [] [] { : Core }).core 63).a (fld (dw 82) 12 4)), 64)] [] = false) ∧
    (82 = 82) ∧
    ((recurOf (mreadN ((dsS 82 1024 [] [] { : Core }).core 63).lm (BitVec.toNat (tget (0 : W64) ((dsS 82 1024 [] [] { : Core }).core 63).a (fld (dw 82) 12 4))) 64)).ok (mreadN ((dsS 82 1024 [] [] { : Core }).core 63).lm (BitVec.toNat (tget (0 : W64) ((dsS 82 1024 [] [] { : Core }).core 63).a (fld (dw 82) 12 4))) 64) = false) :=
  ⟨.inr (.inr (.inl ⟨rfl, rfl⟩)), tileOf (by decide), by and_intros <;> decide⟩

theorem meets_Descriptors_7 :
    (83 = 80 ∧ Instr.tileAttn (63 : Fin 64) = Instr.tileEpi (63 : Fin 64) ∨ 83 = 81 ∧ Instr.tileAttn (63 : Fin 64) = Instr.tileWin (63 : Fin 64) ∨ 83 = 82 ∧ Instr.tileAttn (63 : Fin 64) = Instr.tileRstep (63 : Fin 64) ∨ 83 = 83 ∧ Instr.tileAttn (63 : Fin 64) = Instr.tileAttn (63 : Fin 64)) ∧
    (TileAt (dsS 83 1024 [] [] { : Core }) (63) (dw 83) 83) ∧
    (BitVec.toNat (tget (0 : W64) ((dsS 83 1024 [] [] { : Core }).core 63).a (fld (dw 83) 12 4)) % 64 = 0) ∧
    ((dsS 83 1024 [] [] { : Core }).lmFault (63) (BitVec.toNat (tget (0 : W64) ((dsS 83 1024 [] [] { : Core }).core 63).a (fld (dw 83) 12 4))) 64 = none) ∧
    ((dsS 83 1024 [] [] { : Core }).lmBusy 63 [(BitVec.toNat (tget (0 : W64) ((dsS 83 1024 [] [] { : Core }).core 63).a (fld (dw 83) 12 4)), 64)] [] = false) ∧
    (83 = 83) ∧
    (attnOk (mreadN ((dsS 83 1024 [] [] { : Core }).core 63).lm (BitVec.toNat (tget (0 : W64) ((dsS 83 1024 [] [] { : Core }).core 63).a (fld (dw 83) 12 4))) 64) = false) :=
  ⟨.inr (.inr (.inr ⟨rfl, rfl⟩)), tileOf (by decide), by and_intros <;> decide⟩

theorem meets_ChainStages_1 :
    (g0.kind = 0) ∧
    (bits g0.sel 3 3 = 0) ∧
    (rdM e0 256 16 = rdM e0 g0.base 16) ∧
    (leAt (rdM e0 256 16) 9 1 = 0) ∧
    (leAt (rdM e0 256 16) 8 1 ≤ 63) ∧
    (zerosAt (rdM e0 256 16) 10 6 = true) :=
  ⟨by decide, by decide, rfl, by decide, by decide, by decide⟩

theorem meets_ChainStages_2 :
    (g0.kind = 0) ∧
    (bits g0.sel 3 3 = 0) ∧
    (rdM e1 256 16 = rdM e1 g0.base 16) ∧
    (leAt (rdM e1 256 16) 9 1 = 1) ∧
    (leAt (rdM e1 256 16) 8 1 ≤ 63) ∧
    (zerosAt (rdM e1 256 16) 10 6 = true) ∧
    ({ dom := 1, v := ofI (5 : ℤ) : ChVal }.dom ≠ 0) :=
  ⟨by decide, by decide, rfl, by decide, by decide, by decide, by decide⟩

theorem meets_ChainStages_3 :
    (g0.kind = 0) ∧
    (bits g0.sel 3 3 = 0) ∧
    (rdM e1 256 16 = rdM e1 g0.base 16) ∧
    (leAt (rdM e1 256 16) 9 1 = 1) ∧
    (leAt (rdM e1 256 16) 8 1 ≤ 63) ∧
    (zerosAt (rdM e1 256 16) 10 6 = true) ∧
    ({ dom := 0, v := ofI (5 : ℤ) : ChVal } = { dom := 0, v := ofI (5 : ℤ) : ChVal }) :=
  ⟨by decide, by decide, rfl, by decide, by decide, by decide, by decide⟩

theorem meets_ChainStages_4 :
    ((gB 1 5 false).kind = 1) ∧
    ((gB 1 5 false).fmt = 5) ∧
    ({ dom := 0, v := ofI (7 : ℤ) : ChVal } = { dom := 0, v := ofI (7 : ℤ) : ChVal }) ∧
    (leNat (rdM eI ((gB 1 5 false).base + 1 * 4) 4) = (lowI % (4294967296 : ℤ)).toNat) ∧
    ((-2147483648 : ℤ) ≤ lowI) ∧
    (lowI ≤ (2147483647 : ℤ)) :=
  by and_intros <;> decide

theorem meets_ChainStages_5 :
    ((gB 1 10 false).kind = 1) ∧
    ((gB 1 10 false).fmt = 10) :=
  ⟨by decide, by decide⟩

theorem meets_ChainStages_6 :
    ((gB 2 0 false).kind = 2) :=
  by decide

theorem meets_ChainStages_7 :
    ((gB 3 10 false).kind = 3) ∧
    ((gB 3 10 false).fmt = 10) :=
  ⟨by decide, by decide⟩

theorem meets_ChainStages_8 :
    ((gB 4 10 true).kind = 4) ∧
    ((gB 4 10 true).fmt = 10) :=
  ⟨by decide, by decide⟩

theorem meets_ChainStages_9 :
    (gC.kind = 5) :=
  by decide

theorem meets_ChainStages_11 :
    (requantOf [gC] = none) :=
  by decide

theorem meets_TileWin_1 :
    (TileAt wOver (63) (dw 81) 81) ∧
    (BitVec.toNat (tget (0 : W64) (wOver.core 63).a (fld (dw 81) 12 4)) % 64 = 0) ∧
    (wOver.lmFault (63) (BitVec.toNat (tget (0 : W64) (wOver.core 63).a (fld (dw 81) 12 4))) 64 = none) ∧
    (wOver.lmBusy 63 [(BitVec.toNat (tget (0 : W64) (wOver.core 63).a (fld (dw 81) 12 4)), 64)] [] = false) ∧
    (winOk (mreadN (wOver.core 63).lm (BitVec.toNat (tget (0 : W64) (wOver.core 63).a (fld (dw 81) 12 4))) 64) = true) ∧
    ((winReads (mreadN (wOver.core 63).lm (BitVec.toNat (tget (0 : W64) (wOver.core 63).a (fld (dw 81) 12 4))) 64)).any (overlap (winOut (mreadN (wOver.core 63).lm (BitVec.toNat (tget (0 : W64) (wOver.core 63).a (fld (dw 81) 12 4))) 64))) = true) :=
  ⟨tileOf (by decide), by and_intros <;> decide⟩

theorem meets_TileWin_2 :
    (TileAt wMax (63) (dw 81) 81) ∧
    (BitVec.toNat (tget (0 : W64) (wMax.core 63).a (fld (dw 81) 12 4)) % 64 = 0) ∧
    (wMax.lmFault (63) (BitVec.toNat (tget (0 : W64) (wMax.core 63).a (fld (dw 81) 12 4))) 64 = none) ∧
    (wMax.lmBusy 63 [(BitVec.toNat (tget (0 : W64) (wMax.core 63).a (fld (dw 81) 12 4)), 64)] [] = false) ∧
    (winOk (mreadN (wMax.core 63).lm (BitVec.toNat (tget (0 : W64) (wMax.core 63).a (fld (dw 81) 12 4))) 64) = true) ∧
    (2 ≤ leAt (mreadN (wMax.core 63).lm (BitVec.toNat (tget (0 : W64) (wMax.core 63).a (fld (dw 81) 12 4))) 64) 1 1) ∧
    (wMax.lmFaults (63) (winReads (mreadN (wMax.core 63).lm (BitVec.toNat (tget (0 : W64) (wMax.core 63).a (fld (dw 81) 12 4))) 64) ++ [winOut (mreadN (wMax.core 63).lm (BitVec.toNat (tget (0 : W64) (wMax.core 63).a (fld (dw 81) 12 4))) 64)]) = none ∧ wMax.lmBusy (63) (winReads (mreadN (wMax.core 63).lm (BitVec.toNat (tget (0 : W64) (wMax.core 63).a (fld (dw 81) 12 4))) 64)) [winOut (mreadN (wMax.core 63).lm (BitVec.toNat (tget (0 : W64) (wMax.core 63).a (fld (dw 81) 12 4))) 64)] = false ∧ (winReads (mreadN (wMax.core 63).lm (BitVec.toNat (tget (0 : W64) (wMax.core 63).a (fld (dw 81) 12 4))) 64)).any (overlap (winOut (mreadN (wMax.core 63).lm (BitVec.toNat (tget (0 : W64) (wMax.core 63).a (fld (dw 81) 12 4))) 64))) = false) :=
  ⟨tileOf (by decide), by and_intros <;> decide⟩

theorem meets_TileWin_3 :
    (TileAt (wConv 16349 0) (63) (dw 81) 81) ∧
    (BitVec.toNat (tget (0 : W64) ((wConv 16349 0).core 63).a (fld (dw 81) 12 4)) % 64 = 0) ∧
    ((wConv 16349 0).lmFault (63) (BitVec.toNat (tget (0 : W64) ((wConv 16349 0).core 63).a (fld (dw 81) 12 4))) 64 = none) ∧
    ((wConv 16349 0).lmBusy 63 [(BitVec.toNat (tget (0 : W64) ((wConv 16349 0).core 63).a (fld (dw 81) 12 4)), 64)] [] = false) ∧
    (winOk (mreadN ((wConv 16349 0).core 63).lm (BitVec.toNat (tget (0 : W64) ((wConv 16349 0).core 63).a (fld (dw 81) 12 4))) 64) = true) ∧
    (leAt (mreadN ((wConv 16349 0).core 63).lm (BitVec.toNat (tget (0 : W64) ((wConv 16349 0).core 63).a (fld (dw 81) 12 4))) 64) 1 1 ≤ 1) ∧
    (16384 < leAt (mreadN ((wConv 16349 0).core 63).lm (BitVec.toNat (tget (0 : W64) ((wConv 16349 0).core 63).a (fld (dw 81) 12 4))) 64) 36 4 + (winOf (mreadN ((wConv 16349 0).core 63).lm (BitVec.toNat (tget (0 : W64) ((wConv 16349 0).core 63).a (fld (dw 81) 12 4))) 64)).oh * (winOf (mreadN ((wConv 16349 0).core 63).lm (BitVec.toNat (tget (0 : W64) ((wConv 16349 0).core 63).a (fld (dw 81) 12 4))) 64)).ow * (winOf (mreadN ((wConv 16349 0).core 63).lm (BitVec.toNat (tget (0 : W64) ((wConv 16349 0).core 63).a (fld (dw 81) 12 4))) 64)).oc) :=
  ⟨tileOf (by decide), by and_intros <;> decide⟩

theorem meets_TileWin_4 :
    (TileAt (wConv 0 0) (63) (dw 81) 81) ∧
    (BitVec.toNat (tget (0 : W64) ((wConv 0 0).core 63).a (fld (dw 81) 12 4)) % 64 = 0) ∧
    ((wConv 0 0).lmFault (63) (BitVec.toNat (tget (0 : W64) ((wConv 0 0).core 63).a (fld (dw 81) 12 4))) 64 = none) ∧
    ((wConv 0 0).lmBusy 63 [(BitVec.toNat (tget (0 : W64) ((wConv 0 0).core 63).a (fld (dw 81) 12 4)), 64)] [] = false) ∧
    (winOk (mreadN ((wConv 0 0).core 63).lm (BitVec.toNat (tget (0 : W64) ((wConv 0 0).core 63).a (fld (dw 81) 12 4))) 64) = true) ∧
    (leAt (mreadN ((wConv 0 0).core 63).lm (BitVec.toNat (tget (0 : W64) ((wConv 0 0).core 63).a (fld (dw 81) 12 4))) 64) 1 1 ≤ 1) ∧
    (leAt (mreadN ((wConv 0 0).core 63).lm (BitVec.toNat (tget (0 : W64) ((wConv 0 0).core 63).a (fld (dw 81) 12 4))) 64) 36 4 + (winOf (mreadN ((wConv 0 0).core 63).lm (BitVec.toNat (tget (0 : W64) ((wConv 0 0).core 63).a (fld (dw 81) 12 4))) 64)).oh * (winOf (mreadN ((wConv 0 0).core 63).lm (BitVec.toNat (tget (0 : W64) ((wConv 0 0).core 63).a (fld (dw 81) 12 4))) 64)).ow * (winOf (mreadN ((wConv 0 0).core 63).lm (BitVec.toNat (tget (0 : W64) ((wConv 0 0).core 63).a (fld (dw 81) 12 4))) 64)).oc ≤ 16384) ∧
    ((wConv 0 0).lmFaults (63) (winReads (mreadN ((wConv 0 0).core 63).lm (BitVec.toNat (tget (0 : W64) ((wConv 0 0).core 63).a (fld (dw 81) 12 4))) 64) ++ [winOut (mreadN ((wConv 0 0).core 63).lm (BitVec.toNat (tget (0 : W64) ((wConv 0 0).core 63).a (fld (dw 81) 12 4))) 64)]) = none ∧ (wConv 0 0).lmBusy (63) (winReads (mreadN ((wConv 0 0).core 63).lm (BitVec.toNat (tget (0 : W64) ((wConv 0 0).core 63).a (fld (dw 81) 12 4))) 64)) [winOut (mreadN ((wConv 0 0).core 63).lm (BitVec.toNat (tget (0 : W64) ((wConv 0 0).core 63).a (fld (dw 81) 12 4))) 64)] = false ∧ (winReads (mreadN ((wConv 0 0).core 63).lm (BitVec.toNat (tget (0 : W64) ((wConv 0 0).core 63).a (fld (dw 81) 12 4))) 64)).any (overlap (winOut (mreadN ((wConv 0 0).core 63).lm (BitVec.toNat (tget (0 : W64) ((wConv 0 0).core 63).a (fld (dw 81) 12 4))) 64))) = false) :=
  ⟨tileOf (by decide), by and_intros <;> decide⟩

theorem meets_TileWin_4b :
    (TileAt (wConv 16348 8) (63) (dw 81) 81) ∧
    (BitVec.toNat (tget (0 : W64) ((wConv 16348 8).core 63).a (fld (dw 81) 12 4)) % 64 = 0) ∧
    ((wConv 16348 8).lmFault (63) (BitVec.toNat (tget (0 : W64) ((wConv 16348 8).core 63).a (fld (dw 81) 12 4))) 64 = none) ∧
    ((wConv 16348 8).lmBusy 63 [(BitVec.toNat (tget (0 : W64) ((wConv 16348 8).core 63).a (fld (dw 81) 12 4)), 64)] [] = false) ∧
    (winOk (mreadN ((wConv 16348 8).core 63).lm (BitVec.toNat (tget (0 : W64) ((wConv 16348 8).core 63).a (fld (dw 81) 12 4))) 64) = true) ∧
    (leAt (mreadN ((wConv 16348 8).core 63).lm (BitVec.toNat (tget (0 : W64) ((wConv 16348 8).core 63).a (fld (dw 81) 12 4))) 64) 1 1 ≤ 1) ∧
    (leAt (mreadN ((wConv 16348 8).core 63).lm (BitVec.toNat (tget (0 : W64) ((wConv 16348 8).core 63).a (fld (dw 81) 12 4))) 64) 36 4 + (winOf (mreadN ((wConv 16348 8).core 63).lm (BitVec.toNat (tget (0 : W64) ((wConv 16348 8).core 63).a (fld (dw 81) 12 4))) 64)).oh * (winOf (mreadN ((wConv 16348 8).core 63).lm (BitVec.toNat (tget (0 : W64) ((wConv 16348 8).core 63).a (fld (dw 81) 12 4))) 64)).ow * (winOf (mreadN ((wConv 16348 8).core 63).lm (BitVec.toNat (tget (0 : W64) ((wConv 16348 8).core 63).a (fld (dw 81) 12 4))) 64)).oc ≤ 16384) ∧
    ((wConv 16348 8).lmFaults (63) (winReads (mreadN ((wConv 16348 8).core 63).lm (BitVec.toNat (tget (0 : W64) ((wConv 16348 8).core 63).a (fld (dw 81) 12 4))) 64) ++ [winOut (mreadN ((wConv 16348 8).core 63).lm (BitVec.toNat (tget (0 : W64) ((wConv 16348 8).core 63).a (fld (dw 81) 12 4))) 64)]) = none ∧ (wConv 16348 8).lmBusy (63) (winReads (mreadN ((wConv 16348 8).core 63).lm (BitVec.toNat (tget (0 : W64) ((wConv 16348 8).core 63).a (fld (dw 81) 12 4))) 64)) [winOut (mreadN ((wConv 16348 8).core 63).lm (BitVec.toNat (tget (0 : W64) ((wConv 16348 8).core 63).a (fld (dw 81) 12 4))) 64)] = false ∧ (winReads (mreadN ((wConv 16348 8).core 63).lm (BitVec.toNat (tget (0 : W64) ((wConv 16348 8).core 63).a (fld (dw 81) 12 4))) 64)).any (overlap (winOut (mreadN ((wConv 16348 8).core 63).lm (BitVec.toNat (tget (0 : W64) ((wConv 16348 8).core 63).a (fld (dw 81) 12 4))) 64))) = false) :=
  ⟨tileOf (by decide), by and_intros <;> decide⟩

theorem meets_TileWin_6 :
    (TileAt wAvg (63) (dw 81) 81) ∧
    (BitVec.toNat (tget (0 : W64) (wAvg.core 63).a (fld (dw 81) 12 4)) % 64 = 0) ∧
    (wAvg.lmFault (63) (BitVec.toNat (tget (0 : W64) (wAvg.core 63).a (fld (dw 81) 12 4))) 64 = none) ∧
    (wAvg.lmBusy 63 [(BitVec.toNat (tget (0 : W64) (wAvg.core 63).a (fld (dw 81) 12 4)), 64)] [] = false) ∧
    (winOk (mreadN (wAvg.core 63).lm (BitVec.toNat (tget (0 : W64) (wAvg.core 63).a (fld (dw 81) 12 4))) 64) = true) ∧
    (2 ≤ leAt (mreadN (wAvg.core 63).lm (BitVec.toNat (tget (0 : W64) (wAvg.core 63).a (fld (dw 81) 12 4))) 64) 1 1) ∧
    (wAvg.lmFaults (63) (winReads (mreadN (wAvg.core 63).lm (BitVec.toNat (tget (0 : W64) (wAvg.core 63).a (fld (dw 81) 12 4))) 64) ++ [winOut (mreadN (wAvg.core 63).lm (BitVec.toNat (tget (0 : W64) (wAvg.core 63).a (fld (dw 81) 12 4))) 64)]) = none ∧ wAvg.lmBusy (63) (winReads (mreadN (wAvg.core 63).lm (BitVec.toNat (tget (0 : W64) (wAvg.core 63).a (fld (dw 81) 12 4))) 64)) [winOut (mreadN (wAvg.core 63).lm (BitVec.toNat (tget (0 : W64) (wAvg.core 63).a (fld (dw 81) 12 4))) 64)] = false ∧ (winReads (mreadN (wAvg.core 63).lm (BitVec.toNat (tget (0 : W64) (wAvg.core 63).a (fld (dw 81) 12 4))) 64)).any (overlap (winOut (mreadN (wAvg.core 63).lm (BitVec.toNat (tget (0 : W64) (wAvg.core 63).a (fld (dw 81) 12 4))) 64))) = false) :=
  ⟨tileOf (by decide), by and_intros <;> decide⟩

theorem meets_TileEpi_7 :
    let s : State := epIll
    let k : Fin 64 := 63
    let w : W128 := dw 80
    let e2 := tget 0 (s.core k.val).a (fld w 12 4)
    let e1 := mreadN (s.core k.val).lm (BitVec.toNat e2) 64
    (TileAt s k.val w 80) ∧
    (BitVec.toNat e2 % 64 = 0) ∧
    (s.lmFault k.val (BitVec.toNat e2) 64 = none) ∧
    (s.lmBusy k.val [(BitVec.toNat e2, 64)] [] = false) ∧
    (epiOk e1 = true) ∧
    (s.lmFault k.val (leAt e1 28 4) (16 * leAt e1 24 1) = none) ∧
    (s.lmBusy k.val [(leAt e1 28 4, 16 * leAt e1 24 1)] [] = false) ∧
    ((s.core k.val).progress = 0) ∧
    (epiLegal e1 (s.epiStages k.val e1) (List.map (epiStg (s.core k.val)) (s.epiStages k.val e1)) = false) :=
  ⟨tileOf (by decide), by and_intros <;> decide⟩

theorem meets_TileEpi_8 :
    let s : State := epAl
    let k : Fin 64 := 63
    let w : W128 := dw 80
    let e3 := tget 0 (s.core k.val).a (fld w 12 4)
    let e1 := mreadN (s.core k.val).lm (BitVec.toNat e3) 64
    let e2 := List.map (epiStg (s.core k.val)) (s.epiStages k.val e1)
    (TileAt s k.val w 80) ∧
    (BitVec.toNat e3 % 64 = 0) ∧
    (s.lmFault k.val (BitVec.toNat e3) 64 = none) ∧
    (s.lmBusy k.val [(BitVec.toNat e3, 64)] [] = false) ∧
    (epiOk e1 = true) ∧
    (s.lmFault k.val (leAt e1 28 4) (16 * leAt e1 24 1) = none) ∧
    (s.lmBusy k.val [(leAt e1 28 4, 16 * leAt e1 24 1)] [] = false) ∧
    ((s.core k.val).progress = 0) ∧
    (epiLegal e1 (s.epiStages k.val e1) e2 = true) ∧
    (s.lmFaults k.val (epiReads e1 e2 ++ (epiDsts e1 ++ List.flatMap (fun g => g.records (leAt e1 4 2) (leAt e1 6 2)) e2)) = none) ∧
    (s.lmBusy k.val (epiReads e1 e2) (epiDsts e1 ++ List.flatMap (fun g => g.records (leAt e1 4 2) (leAt e1 6 2)) e2) = false) ∧
    (e2.all Stg.aligned = false) :=
  ⟨tileOf (by decide), by and_intros <;> decide⟩

theorem meets_TileEpi_9 :
    let s : State := epCu
    let k : Fin 64 := 63
    let w : W128 := dw 80
    let e3 := tget 0 (s.core k.val).a (fld w 12 4)
    let e1 := mreadN (s.core k.val).lm (BitVec.toNat e3) 64
    let e2 := List.map (epiStg (s.core k.val)) (s.epiStages k.val e1)
    (TileAt s k.val w 80) ∧
    (BitVec.toNat e3 % 64 = 0) ∧
    (s.lmFault k.val (BitVec.toNat e3) 64 = none) ∧
    (s.lmBusy k.val [(BitVec.toNat e3, 64)] [] = false) ∧
    (epiOk e1 = true) ∧
    (s.lmFault k.val (leAt e1 28 4) (16 * leAt e1 24 1) = none) ∧
    (s.lmBusy k.val [(leAt e1 28 4, 16 * leAt e1 24 1)] [] = false) ∧
    ((s.core k.val).progress = 0) ∧
    (epiLegal e1 (s.epiStages k.val e1) e2 = true) ∧
    (s.lmFaults k.val (epiReads e1 e2 ++ (epiDsts e1 ++ List.flatMap (fun g => g.records (leAt e1 4 2) (leAt e1 6 2)) e2)) = none) ∧
    (s.lmBusy k.val (epiReads e1 e2) (epiDsts e1 ++ List.flatMap (fun g => g.records (leAt e1 4 2) (leAt e1 6 2)) e2) = false) ∧
    (e2.all Stg.aligned = true) ∧
    (∃ g ∈ List.map (epiStg (s.core k.val)) (s.epiStages k.val e1), g.kind = 2 ∧ tget none (s.core k.val).curves (g.sel % 8) = none) :=
  ⟨tileOf (by decide), by and_intros <;> decide⟩

theorem meets_TileEpi_12 :
    let s : State := ep0
    let k : Fin 64 := 63
    let w : W128 := dw 80
    let e3 := tget 0 (s.core k.val).a (fld w 12 4)
    let e1 := mreadN (s.core k.val).lm (BitVec.toNat e3) 64
    let e2 := List.map (epiStg (s.core k.val)) (s.epiStages k.val e1)
    (TileAt s k.val w 80) ∧
    (BitVec.toNat e3 % 64 = 0) ∧
    (s.lmFault k.val (BitVec.toNat e3) 64 = none) ∧
    (s.lmBusy k.val [(BitVec.toNat e3, 64)] [] = false) ∧
    (epiOk e1 = true) ∧
    (s.lmFault k.val (leAt e1 28 4) (16 * leAt e1 24 1) = none) ∧
    (s.lmBusy k.val [(leAt e1 28 4, 16 * leAt e1 24 1)] [] = false) ∧
    ((s.core k.val).progress = 0) ∧
    (epiLegal e1 (s.epiStages k.val e1) e2 = true) ∧
    (s.lmFaults k.val (epiReads e1 e2 ++ (epiDsts e1 ++ List.flatMap (fun g => g.records (leAt e1 4 2) (leAt e1 6 2)) e2)) = none) ∧
    (s.lmBusy k.val (epiReads e1 e2) (epiDsts e1 ++ List.flatMap (fun g => g.records (leAt e1 4 2) (leAt e1 6 2)) e2) = false) ∧
    (e2.all Stg.aligned = true) ∧
    (∀ g ∈ List.map (epiStg (s.core k.val)) (s.epiStages k.val e1), g.kind = 2 → tget none (s.core k.val).curves (g.sel % 8) ≠ none) ∧
    (leAt e1 24 1 = 0) ∧
    (leAt e1 1 1 = 0) :=
  ⟨tileOf (by decide), by and_intros <;> decide⟩

theorem meets_TileWin_10 :
    let s : State := wMax
    let k : Fin 64 := 63
    let w : W128 := dw 81
    let e2 := tget 0 (s.core k.val).a (fld w 12 4)
    let e1 := mreadN (s.core k.val).lm (BitVec.toNat e2) 64
    (TileAt s k.val w 81) ∧
    (BitVec.toNat e2 % 64 = 0) ∧
    (s.lmFault k.val (BitVec.toNat e2) 64 = none) ∧
    (s.lmBusy k.val [(BitVec.toNat e2, 64)] [] = false) ∧
    (winOk e1 = true) ∧
    (2 ≤ leAt e1 1 1) ∧
    (s.lmFaults k.val (winReads e1 ++ [winOut e1]) = none ∧ s.lmBusy k.val (winReads e1) [winOut e1] = false ∧ (winReads e1).any (overlap (winOut e1)) = false ∧ (s.core k.val).progress = 0) :=
  ⟨tileOf (by decide), by and_intros <;> decide⟩

theorem meets_TileWin_11 :
    let s : State := wConv 0 0
    let k : Fin 64 := 63
    let w : W128 := dw 81
    let e2 := tget 0 (s.core k.val).a (fld w 12 4)
    let e1 := mreadN (s.core k.val).lm (BitVec.toNat e2) 64
    (TileAt s k.val w 81) ∧
    (BitVec.toNat e2 % 64 = 0) ∧
    (s.lmFault k.val (BitVec.toNat e2) 64 = none) ∧
    (s.lmBusy k.val [(BitVec.toNat e2, 64)] [] = false) ∧
    (winOk e1 = true) ∧
    (leAt e1 1 1 ≤ 1) ∧
    (leAt e1 36 4 + (winOf e1).oh * (winOf e1).ow * (winOf e1).oc ≤ 16384) ∧
    (s.lmFaults k.val (winReads e1 ++ [winOut e1]) = none ∧ s.lmBusy k.val (winReads e1) [winOut e1] = false ∧ (winReads e1).any (overlap (winOut e1)) = false ∧ (s.core k.val).progress = 0) :=
  ⟨tileOf (by decide), by and_intros <;> decide⟩

theorem meets_TileWin_12 :
    let s : State := wMax
    let k : Fin 64 := 63
    let w : W128 := dw 81
    let oy : ℕ := 1
    let ox : ℕ := 1
    let ch : ℕ := 3
    let e2 := tget 0 (s.core k.val).a (fld w 12 4)
    let e1 := mreadN (s.core k.val).lm (BitVec.toNat e2) 64
    (TileAt s k.val w 81) ∧
    (BitVec.toNat e2 % 64 = 0) ∧
    (s.lmFault k.val (BitVec.toNat e2) 64 = none) ∧
    (s.lmBusy k.val [(BitVec.toNat e2, 64)] [] = false) ∧
    (winOk e1 = true) ∧
    (leAt e1 1 1 = 2 ∨ leAt e1 1 1 = 3) ∧
    (s.lmFaults k.val (winReads e1 ++ [winOut e1]) = none ∧ s.lmBusy k.val (winReads e1) [winOut e1] = false ∧ (winReads e1).any (overlap (winOut e1)) = false ∧ (s.core k.val).progress = 0) ∧
    (∃ t, exec (Instr.tileWin k) s = Host.Outcome.next t) ∧
    (oy < (winOf e1).oh) ∧
    (ox < (winOf e1).ow) ∧
    (ch < (winOf e1).c) :=
  ⟨tileOf (by decide), by decide, by decide, by decide, by decide, by decide, by decide, by exact ⟨_, rfl⟩, by decide, by decide, by decide⟩

def busyAt (d : Nat) (s : State) : State := { s with cores := [(63, { (s.core 63) with dmas := [{ q5 with dst := d }] })] }
def wIn (dst : Nat) : State := wS ([(0, 1, 2), (1, 1, 2), (2, 1, 1), (3, 1, 1), (12, 1, 1), (13, 1, 1), (14, 1, 1), (15, 1, 1), (16, 2, 2), (18, 2, 2), (20, 2, 4), (22, 2, 4), (24, 2, 1), (28, 4, 0x1000), (36, 4, dst)] ++ win22)

theorem meets_TileEpi_13 :
    let s : State := ep0
    let k : Fin 64 := 63
    let w : W128 := (dw 80)
    let e3 := tget 0 (s.core k.val).a (fld w 12 4)
    let e1 := mreadN (s.core k.val).lm (BitVec.toNat e3) 64
    let e2 := List.map (epiStg (s.core k.val)) (s.epiStages k.val e1)
    (TileAt s k.val w 80) ∧
    (BitVec.toNat e3 % 64 = 0) ∧
    (s.lmFault k.val (BitVec.toNat e3) 64 = none) ∧
    (s.lmBusy k.val [(BitVec.toNat e3, 64)] [] = false) ∧
    (epiOk e1 = true) ∧
    (s.lmFault k.val (leAt e1 28 4) (16 * leAt e1 24 1) = none) ∧
    (s.lmBusy k.val [(leAt e1 28 4, 16 * leAt e1 24 1)] [] = false) ∧
    ((s.core k.val).progress = 0) ∧
    (epiLegal e1 (s.epiStages k.val e1) e2 = true) ∧
    (s.lmFaults k.val (epiReads e1 e2 ++ (epiDsts e1 ++ List.flatMap (fun g => g.records (leAt e1 4 2) (leAt e1 6 2)) e2)) = none) ∧
    (s.lmBusy k.val (epiReads e1 e2) (epiDsts e1 ++ List.flatMap (fun g => g.records (leAt e1 4 2) (leAt e1 6 2)) e2) = false) ∧
    (e2.all Stg.aligned = true) ∧
    (∀ g ∈ List.map (epiStg (s.core k.val)) (s.epiStages k.val e1), g.kind = 2 → tget none (s.core k.val).curves (g.sel % 8) ≠ none) ∧
    (∃ r : Conversion, epiRun (s.core k.val) e1 e2 0 (if (epiReads e1 e2).any (overlap ((epiRecs e1 e2).1, 8 * (epiRecs e1 e2).2)) = true then Conversion.setAside (epiRecs e1 e2).1 (epiRecs e1 e2).2 { lm := (s.core k.val).lm, rng := (s.core k.val).rng } else { lm := (s.core k.val).lm, rng := (s.core k.val).rng }) = some r) :=
  ⟨tileOf (by decide +kernel), by decide +kernel, by decide +kernel, by decide +kernel, by decide +kernel, by decide +kernel, by decide +kernel, by decide +kernel, by decide +kernel, by decide +kernel, by decide +kernel, by decide +kernel, by decide +kernel, by exact ⟨_, rfl⟩⟩

theorem meets_TileEpi_14 :
    let s : State := ep [(24, 1, 1), (28, 4, 0xB0000)] [] []
    let k : Fin 64 := 63
    let w : W128 := dw 80
    let f : ℕ := 6
    let e1 := tget 0 (s.core k.val).a (fld w 12 4)
    let e2 := mreadN (s.core k.val).lm (BitVec.toNat e1) 64
    (TileAt s k.val w 80) ∧
    (BitVec.toNat e1 % 64 = 0) ∧
    (s.lmFault k.val (BitVec.toNat e1) 64 = none) ∧
    (s.lmBusy k.val [(BitVec.toNat e1, 64)] [] = false) ∧
    (epiOk e2 = true) ∧
    (s.lmFault k.val (leAt e2 28 4) (16 * leAt e2 24 1) = some f) :=
  ⟨tileOf (by decide +kernel), by decide +kernel, by decide +kernel, by decide +kernel, by decide +kernel, by decide +kernel⟩

theorem meets_TileEpi_15 :
    let s : State := busyAt 0x808 epIll
    let k : Fin 64 := 63
    let w : W128 := dw 80
    let e2 := tget 0 (s.core k.val).a (fld w 12 4)
    let e1 := mreadN (s.core k.val).lm (BitVec.toNat e2) 64
    (TileAt s k.val w 80) ∧
    (BitVec.toNat e2 % 64 = 0) ∧
    (s.lmFault k.val (BitVec.toNat e2) 64 = none) ∧
    (s.lmBusy k.val [(BitVec.toNat e2, 64)] [] = false) ∧
    (epiOk e1 = true) ∧
    (s.lmFault k.val (leAt e1 28 4) (16 * leAt e1 24 1) = none) ∧
    (s.lmBusy k.val [(leAt e1 28 4, 16 * leAt e1 24 1)] [] = true) :=
  ⟨tileOf (by decide +kernel), by decide +kernel, by decide +kernel, by decide +kernel, by decide +kernel, by decide +kernel, by decide +kernel⟩

theorem meets_TileEpi_16 :
    let s : State := ep [(16, 4, 0xB0000)] [] []
    let k : Fin 64 := 63
    let w : W128 := dw 80
    let f : ℕ := 6
    let e3 := tget 0 (s.core k.val).a (fld w 12 4)
    let e1 := mreadN (s.core k.val).lm (BitVec.toNat e3) 64
    let e2 := List.map (epiStg (s.core k.val)) (s.epiStages k.val e1)
    (TileAt s k.val w 80) ∧
    (BitVec.toNat e3 % 64 = 0) ∧
    (s.lmFault k.val (BitVec.toNat e3) 64 = none) ∧
    (s.lmBusy k.val [(BitVec.toNat e3, 64)] [] = false) ∧
    (epiOk e1 = true) ∧
    (s.lmFault k.val (leAt e1 28 4) (16 * leAt e1 24 1) = none) ∧
    (s.lmBusy k.val [(leAt e1 28 4, 16 * leAt e1 24 1)] [] = false) ∧
    ((s.core k.val).progress = 0) ∧
    (epiLegal e1 (s.epiStages k.val e1) e2 = true) ∧
    (s.lmFaults k.val (epiReads e1 e2 ++ (epiDsts e1 ++ List.flatMap (fun g => g.records (leAt e1 4 2) (leAt e1 6 2)) e2)) = some f) :=
  ⟨tileOf (by decide +kernel), by decide +kernel, by decide +kernel, by decide +kernel, by decide +kernel, by decide +kernel, by decide +kernel, by decide +kernel, by decide +kernel, by decide +kernel⟩

theorem meets_TileEpi_17 :
    let s : State := busyAt 0x3000 ep0
    let k : Fin 64 := 63
    let w : W128 := dw 80
    let e3 := tget 0 (s.core k.val).a (fld w 12 4)
    let e1 := mreadN (s.core k.val).lm (BitVec.toNat e3) 64
    let e2 := List.map (epiStg (s.core k.val)) (s.epiStages k.val e1)
    (TileAt s k.val w 80) ∧
    (BitVec.toNat e3 % 64 = 0) ∧
    (s.lmFault k.val (BitVec.toNat e3) 64 = none) ∧
    (s.lmBusy k.val [(BitVec.toNat e3, 64)] [] = false) ∧
    (epiOk e1 = true) ∧
    (s.lmFault k.val (leAt e1 28 4) (16 * leAt e1 24 1) = none) ∧
    (s.lmBusy k.val [(leAt e1 28 4, 16 * leAt e1 24 1)] [] = false) ∧
    ((s.core k.val).progress = 0) ∧
    (epiLegal e1 (s.epiStages k.val e1) e2 = true) ∧
    (s.lmFaults k.val (epiReads e1 e2 ++ (epiDsts e1 ++ List.flatMap (fun g => g.records (leAt e1 4 2) (leAt e1 6 2)) e2)) = none) ∧
    (s.lmBusy k.val (epiReads e1 e2) (epiDsts e1 ++ List.flatMap (fun g => g.records (leAt e1 4 2) (leAt e1 6 2)) e2) = true) :=
  ⟨tileOf (by decide +kernel), by decide +kernel, by decide +kernel, by decide +kernel, by decide +kernel, by decide +kernel, by decide +kernel, by decide +kernel, by decide +kernel, by decide +kernel, by decide +kernel⟩

theorem meets_TileEpi_18 :
    let s : State := epResBad
    let k : Fin 64 := 63
    let w : W128 := dw 80
    let e3 := tget 0 (s.core k.val).a (fld w 12 4)
    let e1 := mreadN (s.core k.val).lm (BitVec.toNat e3) 64
    let e2 := List.map (epiStg (s.core k.val)) (s.epiStages k.val e1)
    (TileAt s k.val w 80) ∧
    (BitVec.toNat e3 % 64 = 0) ∧
    (s.lmFault k.val (BitVec.toNat e3) 64 = none) ∧
    (s.lmBusy k.val [(BitVec.toNat e3, 64)] [] = false) ∧
    (epiOk e1 = true) ∧
    (s.lmFault k.val (leAt e1 28 4) (16 * leAt e1 24 1) = none) ∧
    (s.lmBusy k.val [(leAt e1 28 4, 16 * leAt e1 24 1)] [] = false) ∧
    ((s.core k.val).progress = 0) ∧
    (epiLegal e1 (s.epiStages k.val e1) e2 = true) ∧
    (s.lmFaults k.val (epiReads e1 e2 ++ (epiDsts e1 ++ List.flatMap (fun g => g.records (leAt e1 4 2) (leAt e1 6 2)) e2)) = none) ∧
    (s.lmBusy k.val (epiReads e1 e2) (epiDsts e1 ++ List.flatMap (fun g => g.records (leAt e1 4 2) (leAt e1 6 2)) e2) = false) ∧
    (e2.all Stg.aligned = true) ∧
    (∀ g ∈ List.map (epiStg (s.core k.val)) (s.epiStages k.val e1), g.kind = 2 → tget none (s.core k.val).curves (g.sel % 8) ≠ none) ∧
    (epiRun (s.core k.val) e1 e2 0 (if (epiReads e1 e2).any (overlap ((epiRecs e1 e2).1, 8 * (epiRecs e1 e2).2)) = true then Conversion.setAside (epiRecs e1 e2).1 (epiRecs e1 e2).2 { lm := (s.core k.val).lm, rng := (s.core k.val).rng } else { lm := (s.core k.val).lm, rng := (s.core k.val).rng }) = none) :=
  ⟨tileOf (by decide +kernel), by decide +kernel, by decide +kernel, by decide +kernel, by decide +kernel, by decide +kernel, by decide +kernel, by decide +kernel, by decide +kernel, by decide +kernel, by decide +kernel, by decide +kernel, by decide +kernel, by decide +kernel⟩

theorem meets_TileWin_13 :
    let s : State := wS (wi 2 1 ([(12, 1, 1), (14, 1, 1), (36, 4, 0xB0000)] ++ win22))
    let k : Fin 64 := 63
    let w : W128 := dw 81
    let f : ℕ := 6
    let e2 := tget 0 (s.core k.val).a (fld w 12 4)
    let e1 := mreadN (s.core k.val).lm (BitVec.toNat e2) 64
    (TileAt s k.val w 81) ∧
    (BitVec.toNat e2 % 64 = 0) ∧
    (s.lmFault k.val (BitVec.toNat e2) 64 = none) ∧
    (s.lmBusy k.val [(BitVec.toNat e2, 64)] [] = false) ∧
    (winOk e1 = true) ∧
    (2 ≤ leAt e1 1 1 ∨ leAt e1 36 4 + (winOf e1).oh * (winOf e1).ow * (winOf e1).oc ≤ 16384) ∧
    ((winReads e1).any (overlap (winOut e1)) = false) ∧
    (s.lmFaults k.val (winReads e1 ++ [winOut e1]) = some f) :=
  ⟨tileOf (by decide +kernel), by decide +kernel, by decide +kernel, by decide +kernel, by decide +kernel, by decide +kernel, by decide +kernel, by decide +kernel⟩

theorem meets_TileWin_14 :
    let s : State := busyAt 0x1000 wMax
    let k : Fin 64 := 63
    let w : W128 := dw 81
    let e2 := tget 0 (s.core k.val).a (fld w 12 4)
    let e1 := mreadN (s.core k.val).lm (BitVec.toNat e2) 64
    (TileAt s k.val w 81) ∧
    (BitVec.toNat e2 % 64 = 0) ∧
    (s.lmFault k.val (BitVec.toNat e2) 64 = none) ∧
    (s.lmBusy k.val [(BitVec.toNat e2, 64)] [] = false) ∧
    (winOk e1 = true) ∧
    (2 ≤ leAt e1 1 1 ∨ leAt e1 36 4 + (winOf e1).oh * (winOf e1).ow * (winOf e1).oc ≤ 16384) ∧
    ((winReads e1).any (overlap (winOut e1)) = false) ∧
    (s.lmFaults k.val (winReads e1 ++ [winOut e1]) = none) ∧
    (s.lmBusy k.val (winReads e1) [winOut e1] = true) :=
  ⟨tileOf (by decide +kernel), by decide +kernel, by decide +kernel, by decide +kernel, by decide +kernel, by decide +kernel, by decide +kernel, by decide +kernel, by decide +kernel⟩

theorem meets_TileWin_15 :
    let s : State := wS (wi 6 1 ([(26, 1, 2), (27, 1, 2)] ++ win22))
    let k : Fin 64 := 63
    let w : W128 := dw 81
    let y : ℕ := 0
    let z : ℕ := 0
    let ch : ℕ := 0
    let e2 := tget 0 (s.core k.val).a (fld w 12 4)
    let e1 := mreadN (s.core k.val).lm (BitVec.toNat e2) 64
    (TileAt s k.val w 81) ∧
    (BitVec.toNat e2 % 64 = 0) ∧
    (s.lmFault k.val (BitVec.toNat e2) 64 = none) ∧
    (s.lmBusy k.val [(BitVec.toNat e2, 64)] [] = false) ∧
    (winOk e1 = true) ∧
    (leAt e1 1 1 = 6 ∨ leAt e1 1 1 = 7) ∧
    (s.lmFaults k.val (winReads e1 ++ [winOut e1]) = none ∧ s.lmBusy k.val (winReads e1) [winOut e1] = false ∧ (winReads e1).any (overlap (winOut e1)) = false ∧ (s.core k.val).progress = 0) ∧
    (∃ t : State, exec (Instr.tileWin k) s = Host.Outcome.next t) ∧
    (y < if leAt e1 1 1 = 6 then (winOf e1).ih else (winOf e1).ih * if bitN (leAt e1 4 1) 0 = true then 1 else leAt e1 27 1) ∧
    (z < if leAt e1 1 1 = 6 then (winOf e1).iw else (winOf e1).iw * leAt e1 27 1) ∧
    (ch < if leAt e1 1 1 = 6 then (winOf e1).c else (winOf e1).c / ((if bitN (leAt e1 4 1) 0 = true then 1 else leAt e1 27 1) * leAt e1 27 1)) :=
  ⟨tileOf (by decide +kernel), by decide +kernel, by decide +kernel, by decide +kernel, by decide +kernel, by decide +kernel, by decide +kernel, by exact ⟨_, rfl⟩, by decide +kernel, by decide +kernel, by decide +kernel⟩

end Part13

namespace Part13b

/-- Core 63 at a descriptor instruction whose descriptor lies at `p`. -/
def dsS (op p : Nat) (fs : List (Nat × Nat × Nat)) (lm : List Host.Cell) (x : Core) : State :=
  tileS (word op [(12, 1)]) { x with pc := 5, a := [(1, BitVec.ofNat 64 p)], lm := mwrite lm p (bytes 64 fs) } t1
def dw (op : Nat) : W128 := word op [(12, 1)]
def wn (m : Nat) : Win := { winOf (bytes 64 [(2, 1, 1), (4, 1, 2 * m), (6, 1, 2), (7, 1, 2), (8, 2, 1), (10, 2, 1), (12, 1, 1), (14, 1, 1), (16, 2, 2), (18, 2, 2), (20, 2, 4), (44, 4, 9)]) with fillMode := m }
def wnOut : Win := { wn 0 with pt := 15, ih := 1 }
def rc (o : List (Nat × Nat × Nat)) : List (Nat × Nat × Nat) := [(0, 1, 3), (1, 1, 2), (2, 1, 0xA), (3, 1, 0xA), (6, 2, 1), (8, 2, 2), (10, 2, 1), (12, 2, 2), (16, 4, 0x1000), (20, 4, 0x2000), (24, 4, 0x2100), (28, 4, 0x3000), (32, 4, 0x4000), (48, 1, 0xA), (52, 4, 0x2200)] ++ o
def rec0 (cell q r w d : Nat) (n : Nat) : List Byte := bytes 64 [(0, 4, 0xC7A50301), (4, 1, cell), (5, 1, q), (8, 4, r), (12, 4, w), (16, 4, d), (20, 4, 64 + r * w * d * 4), (24, 8, n)]
def flo : List Host.Cell := mwrite (mwrite (mwrite [] 0x1000 ([0x3F800000, 0x40000000, 0x3F000000, 0xBF800000].flatMap (fun v => toLe 4 v))) 0x2000 ([0xBF000000, 0xBE800000].flatMap (fun v => toLe 4 v))) 0x2200 ([0x3F800000, 0x3F000000, 0x3E800000, 0x3F800000, 0x3F800000, 0x40000000, 0x3F000000, 0x3F800000].flatMap (fun v => toLe 4 v))
def rcS (o : List (Nat × Nat × Nat)) (rcd : List Byte) : State := dsS 0x52 0x400 (rc o) (mwrite flo 0x3000 rcd) {}
def rcOk : State := rcS [] (rec0 2 0 1 2 1 (2 ^ 64 - 1))
def rcBad : State := rcS [] (rec0 2 0 1 2 2 0)
def rcLap : State := rcS [] (rec0 2 0 1 2 1 0) |> fun s => { s with cores := [(63, { (s.core 63) with lm := mwrite (s.core 63).lm 0x400 (bytes 64 (rc [] |>.map (fun f => if f.1 = 32 then (32, 4, 0x1004) else f))) })] }
def rcG : List (Nat × Nat × Nat) := [(0, 1, 3), (1, 1, 1), (2, 1, 0xA), (3, 1, 0xA), (5, 1, 0x10), (6, 2, 1), (8, 2, 1), (10, 2, 1), (12, 2, 1), (16, 4, 0x1000), (20, 4, 0x2000), (24, 4, 0x2100), (28, 4, 0x3000), (32, 4, 0x4000), (48, 1, 0xA)]
def cvw (n : Nat) : Curve := { src := n, words := [0xC0000000, 0x40000000, 0, 0x3F800000] ++ (List.range 32).map (fun i => if i % 2 = 0 then 0x3E800000 else 0x3F000000) }
def gru (c : Tbl (Option Curve)) : State := dsS 0x52 0x400 rcG (mwrite flo 0x3000 (rec0 1 0 1 1 1 5)) { curves := c }
def atD (fl sa : Nat) : List (Nat × Nat × Nat) := [(0, 1, 4), (1, 1, fl), (2, 1, 9), (3, 1, 9), (4, 2, 1), (6, 2, 8), (8, 2, 1), (10, 1, 2), (11, 1, 1), (16, 4, 0x1000), (20, 4, 0x1100), (24, 4, sa), (28, 4, if fl / 2 % 2 = 1 then 0x3000 else 0), (32, 4, 0x3F000000), (36, 4, 0x3F800000)]
def atM : List Host.Cell := mwrite (mwrite (mwrite [] 0x1000 ((List.range 8).flatMap (fun i => toLe 2 (0x3F80 + 8 * i)))) 0x1100 (toLe 4 0x4000)) 0x4000 ((List.range 24).flatMap (fun i => toLe 2 (0x3F00 + 5 * i)))
def atS (fl sa : Nat) : State := dsS 0x53 0x400 (atD fl sa) atM {}
def atOk : State := atS 3 0x2000

theorem meets_Windows_1 :
    (1 ≤ 2) ∧
    (2 * (3 - 1) + 1 ≤ 5 + 1 + 1) :=
  ⟨by decide, by decide⟩

theorem meets_Windows_2 :
    ((wn 0).pt ≤ 1 * (wn 0).sy + 1 * (wn 0).dy) ∧
    (1 * (wn 0).sy + 1 * (wn 0).dy - (wn 0).pt < (wn 0).ih) ∧
    ((wn 0).pl_ ≤ 1 * (wn 0).sx + 1 * (wn 0).dx) ∧
    (1 * (wn 0).sx + 1 * (wn 0).dx - (wn 0).pl_ < (wn 0).iw) :=
  ⟨by decide, by decide, by decide, by decide⟩

theorem meets_Windows_3 :
    (0 * (wn 0).sy + 0 * (wn 0).dy < (wn 0).pt) ∧
    ((wn 0).fillMode = 0) :=
  ⟨by decide, by decide⟩

theorem meets_Windows_4 :
    (0 * (wn 2).sx + 0 * (wn 2).dx < (wn 2).pl_) ∧
    ((wn 2).fillMode = 2) :=
  ⟨by decide, by decide⟩

theorem meets_Windows_5 :
    ((wn 1).ih + (wn 1).pt ≤ 2 * (wn 1).sy + 1 * (wn 1).dy) ∧
    ((wn 1).fillMode = 1) :=
  ⟨by decide, by decide⟩

theorem meets_Windows_6 :
    (∀ (a b : ℕ), a < wnOut.kh → b < wnOut.kw → (wnOut.tap 0 0 a b).2.2 = false) ∧
    (wnOut.countPad = false) :=
  ⟨by intro a b h1 h2; have h1 : a < 2 := h1; have h2 : b < 2 := h2; revert h1 h2; revert b; revert a; decide, by decide⟩

theorem meets_TileRstep_2 :
    (TileAt rcLap (63) (dw 82) 82) ∧
    (BitVec.toNat (tget (0 : W64) (rcLap.core 63).a (fld (dw 82) 12 4)) % 64 = 0) ∧
    (rcLap.lmFault (63) (BitVec.toNat (tget (0 : W64) (rcLap.core 63).a (fld (dw 82) 12 4))) 64 = none) ∧
    (rcLap.lmBusy 63 [(BitVec.toNat (tget (0 : W64) (rcLap.core 63).a (fld (dw 82) 12 4)), 64)] [] = false) ∧
    ((recurOf (mreadN (rcLap.core 63).lm (BitVec.toNat (tget (0 : W64) (rcLap.core 63).a (fld (dw 82) 12 4))) 64)).ok (mreadN (rcLap.core 63).lm (BitVec.toNat (tget (0 : W64) (rcLap.core 63).a (fld (dw 82) 12 4))) 64) = true) ∧
    ((recurOf (mreadN (rcLap.core 63).lm (BitVec.toNat (tget (0 : W64) (rcLap.core 63).a (fld (dw 82) 12 4))) 64)).reads.any (overlap (recurOf (mreadN (rcLap.core 63).lm (BitVec.toNat (tget (0 : W64) (rcLap.core 63).a (fld (dw 82) 12 4))) 64)).out) = true) :=
  ⟨tileOf (by decide), by and_intros <;> decide⟩

theorem meets_TileRstep_3 :
    (TileAt rcBad (63) (dw 82) 82) ∧
    (BitVec.toNat (tget (0 : W64) (rcBad.core 63).a (fld (dw 82) 12 4)) % 64 = 0) ∧
    (rcBad.lmFault (63) (BitVec.toNat (tget (0 : W64) (rcBad.core 63).a (fld (dw 82) 12 4))) 64 = none) ∧
    (rcBad.lmBusy 63 [(BitVec.toNat (tget (0 : W64) (rcBad.core 63).a (fld (dw 82) 12 4)), 64)] [] = false) ∧
    ((recurOf (mreadN (rcBad.core 63).lm (BitVec.toNat (tget (0 : W64) (rcBad.core 63).a (fld (dw 82) 12 4))) 64)).ok (mreadN (rcBad.core 63).lm (BitVec.toNat (tget (0 : W64) (rcBad.core 63).a (fld (dw 82) 12 4))) 64) = true) ∧
    ((recurOf (mreadN (rcBad.core 63).lm (BitVec.toNat (tget (0 : W64) (rcBad.core 63).a (fld (dw 82) 12 4))) 64)).reads.any (overlap (recurOf (mreadN (rcBad.core 63).lm (BitVec.toNat (tget (0 : W64) (rcBad.core 63).a (fld (dw 82) 12 4))) 64)).out) = false) ∧
    ((recurOf (mreadN (rcBad.core 63).lm (BitVec.toNat (tget (0 : W64) (rcBad.core 63).a (fld (dw 82) 12 4))) 64)).cell = 2 ∨ tget none (rcBad.core 63).curves (bits (recurOf (mreadN (rcBad.core 63).lm (BitVec.toNat (tget (0 : W64) (rcBad.core 63).a (fld (dw 82) 12 4))) 64)).tb 0 3) ≠ none ∧ tget none (rcBad.core 63).curves (bits (recurOf (mreadN (rcBad.core 63).lm (BitVec.toNat (tget (0 : W64) (rcBad.core 63).a (fld (dw 82) 12 4))) 64)).tb 4 3) ≠ none) ∧
    (rcBad.lmFaults (63) ((recurOf (mreadN (rcBad.core 63).lm (BitVec.toNat (tget (0 : W64) (rcBad.core 63).a (fld (dw 82) 12 4))) 64)).reads ++ [(recurOf (mreadN (rcBad.core 63).lm (BitVec.toNat (tget (0 : W64) (rcBad.core 63).a (fld (dw 82) 12 4))) 64)).out, ((recurOf (mreadN (rcBad.core 63).lm (BitVec.toNat (tget (0 : W64) (rcBad.core 63).a (fld (dw 82) 12 4))) 64)).sa, (recurOf (mreadN (rcBad.core 63).lm (BitVec.toNat (tget (0 : W64) (rcBad.core 63).a (fld (dw 82) 12 4))) 64)).recLen)]) = none) ∧
    (rcBad.lmBusy (63) (recurOf (mreadN (rcBad.core 63).lm (BitVec.toNat (tget (0 : W64) (rcBad.core 63).a (fld (dw 82) 12 4))) 64)).reads [(recurOf (mreadN (rcBad.core 63).lm (BitVec.toNat (tget (0 : W64) (rcBad.core 63).a (fld (dw 82) 12 4))) 64)).out, ((recurOf (mreadN (rcBad.core 63).lm (BitVec.toNat (tget (0 : W64) (rcBad.core 63).a (fld (dw 82) 12 4))) 64)).sa, (recurOf (mreadN (rcBad.core 63).lm (BitVec.toNat (tget (0 : W64) (rcBad.core 63).a (fld (dw 82) 12 4))) 64)).recLen)] = false) ∧
    (recordOk (mreadN (rcBad.core 63).lm (recurOf (mreadN (rcBad.core 63).lm (BitVec.toNat (tget (0 : W64) (rcBad.core 63).a (fld (dw 82) 12 4))) 64)).sa 64) (recurOf (mreadN (rcBad.core 63).lm (BitVec.toNat (tget (0 : W64) (rcBad.core 63).a (fld (dw 82) 12 4))) 64)).cell (at_ (recurOf (mreadN (rcBad.core 63).lm (BitVec.toNat (tget (0 : W64) (rcBad.core 63).a (fld (dw 82) 12 4))) 64)).q 0) (recurOf (mreadN (rcBad.core 63).lm (BitVec.toNat (tget (0 : W64) (rcBad.core 63).a (fld (dw 82) 12 4))) 64)).R (recurOf (mreadN (rcBad.core 63).lm (BitVec.toNat (tget (0 : W64) (rcBad.core 63).a (fld (dw 82) 12 4))) 64)).width (recurOf (mreadN (rcBad.core 63).lm (BitVec.toNat (tget (0 : W64) (rcBad.core 63).a (fld (dw 82) 12 4))) 64)).depth = false) :=
  ⟨tileOf (by decide), by decide, by decide, by decide, by decide, by decide, .inl (by decide), by decide, by decide, by decide⟩

theorem meets_TileRstep_4 :
    (TileAt rcOk (63) (dw 82) 82) ∧
    (BitVec.toNat (tget (0 : W64) (rcOk.core 63).a (fld (dw 82) 12 4)) % 64 = 0) ∧
    (rcOk.lmFault (63) (BitVec.toNat (tget (0 : W64) (rcOk.core 63).a (fld (dw 82) 12 4))) 64 = none) ∧
    (rcOk.lmBusy 63 [(BitVec.toNat (tget (0 : W64) (rcOk.core 63).a (fld (dw 82) 12 4)), 64)] [] = false) ∧
    ((recurOf (mreadN (rcOk.core 63).lm (BitVec.toNat (tget (0 : W64) (rcOk.core 63).a (fld (dw 82) 12 4))) 64)).ok (mreadN (rcOk.core 63).lm (BitVec.toNat (tget (0 : W64) (rcOk.core 63).a (fld (dw 82) 12 4))) 64) = true) ∧
    ((recurOf (mreadN (rcOk.core 63).lm (BitVec.toNat (tget (0 : W64) (rcOk.core 63).a (fld (dw 82) 12 4))) 64)).reads.any (overlap (recurOf (mreadN (rcOk.core 63).lm (BitVec.toNat (tget (0 : W64) (rcOk.core 63).a (fld (dw 82) 12 4))) 64)).out) = false) ∧
    ((recurOf (mreadN (rcOk.core 63).lm (BitVec.toNat (tget (0 : W64) (rcOk.core 63).a (fld (dw 82) 12 4))) 64)).cell = 2 ∨ tget none (rcOk.core 63).curves (bits (recurOf (mreadN (rcOk.core 63).lm (BitVec.toNat (tget (0 : W64) (rcOk.core 63).a (fld (dw 82) 12 4))) 64)).tb 0 3) ≠ none ∧ tget none (rcOk.core 63).curves (bits (recurOf (mreadN (rcOk.core 63).lm (BitVec.toNat (tget (0 : W64) (rcOk.core 63).a (fld (dw 82) 12 4))) 64)).tb 4 3) ≠ none) ∧
    (rcOk.lmFaults (63) ((recurOf (mreadN (rcOk.core 63).lm (BitVec.toNat (tget (0 : W64) (rcOk.core 63).a (fld (dw 82) 12 4))) 64)).reads ++ [(recurOf (mreadN (rcOk.core 63).lm (BitVec.toNat (tget (0 : W64) (rcOk.core 63).a (fld (dw 82) 12 4))) 64)).out, ((recurOf (mreadN (rcOk.core 63).lm (BitVec.toNat (tget (0 : W64) (rcOk.core 63).a (fld (dw 82) 12 4))) 64)).sa, (recurOf (mreadN (rcOk.core 63).lm (BitVec.toNat (tget (0 : W64) (rcOk.core 63).a (fld (dw 82) 12 4))) 64)).recLen)]) = none) ∧
    (rcOk.lmBusy (63) (recurOf (mreadN (rcOk.core 63).lm (BitVec.toNat (tget (0 : W64) (rcOk.core 63).a (fld (dw 82) 12 4))) 64)).reads [(recurOf (mreadN (rcOk.core 63).lm (BitVec.toNat (tget (0 : W64) (rcOk.core 63).a (fld (dw 82) 12 4))) 64)).out, ((recurOf (mreadN (rcOk.core 63).lm (BitVec.toNat (tget (0 : W64) (rcOk.core 63).a (fld (dw 82) 12 4))) 64)).sa, (recurOf (mreadN (rcOk.core 63).lm (BitVec.toNat (tget (0 : W64) (rcOk.core 63).a (fld (dw 82) 12 4))) 64)).recLen)] = false) ∧
    (recordOk (mreadN (rcOk.core 63).lm (recurOf (mreadN (rcOk.core 63).lm (BitVec.toNat (tget (0 : W64) (rcOk.core 63).a (fld (dw 82) 12 4))) 64)).sa 64) (recurOf (mreadN (rcOk.core 63).lm (BitVec.toNat (tget (0 : W64) (rcOk.core 63).a (fld (dw 82) 12 4))) 64)).cell (at_ (recurOf (mreadN (rcOk.core 63).lm (BitVec.toNat (tget (0 : W64) (rcOk.core 63).a (fld (dw 82) 12 4))) 64)).q 0) (recurOf (mreadN (rcOk.core 63).lm (BitVec.toNat (tget (0 : W64) (rcOk.core 63).a (fld (dw 82) 12 4))) 64)).R (recurOf (mreadN (rcOk.core 63).lm (BitVec.toNat (tget (0 : W64) (rcOk.core 63).a (fld (dw 82) 12 4))) 64)).width (recurOf (mreadN (rcOk.core 63).lm (BitVec.toNat (tget (0 : W64) (rcOk.core 63).a (fld (dw 82) 12 4))) 64)).depth = true) :=
  ⟨tileOf (by decide), by decide, by decide, by decide, by decide, by decide, .inl (by decide), by decide, by decide, by decide⟩

theorem meets_TileRstep_1 :
    (TileAt (gru [(0, some (cvw 0))]) (63) (dw 82) 82) ∧
    (BitVec.toNat (tget (0 : W64) ((gru [(0, some (cvw 0))]).core 63).a (fld (dw 82) 12 4)) % 64 = 0) ∧
    ((gru [(0, some (cvw 0))]).lmFault (63) (BitVec.toNat (tget (0 : W64) ((gru [(0, some (cvw 0))]).core 63).a (fld (dw 82) 12 4))) 64 = none) ∧
    ((gru [(0, some (cvw 0))]).lmBusy 63 [(BitVec.toNat (tget (0 : W64) ((gru [(0, some (cvw 0))]).core 63).a (fld (dw 82) 12 4)), 64)] [] = false) ∧
    ((recurOf (mreadN ((gru [(0, some (cvw 0))]).core 63).lm (BitVec.toNat (tget (0 : W64) ((gru [(0, some (cvw 0))]).core 63).a (fld (dw 82) 12 4))) 64)).ok (mreadN ((gru [(0, some (cvw 0))]).core 63).lm (BitVec.toNat (tget (0 : W64) ((gru [(0, some (cvw 0))]).core 63).a (fld (dw 82) 12 4))) 64) = true) ∧
    ((recurOf (mreadN ((gru [(0, some (cvw 0))]).core 63).lm (BitVec.toNat (tget (0 : W64) ((gru [(0, some (cvw 0))]).core 63).a (fld (dw 82) 12 4))) 64)).cell ≠ 2) ∧
    (tget none ((gru [(0, some (cvw 0))]).core 63).curves (bits (recurOf (mreadN ((gru [(0, some (cvw 0))]).core 63).lm (BitVec.toNat (tget (0 : W64) ((gru [(0, some (cvw 0))]).core 63).a (fld (dw 82) 12 4))) 64)).tb 4 3) = none) :=
  ⟨tileOf (by decide), by and_intros <;> decide⟩

theorem meets_TileRstep_5 :
    (TileAt (gru [(0, some (cvw 0)), (1, some (cvw 1))]) (63) (dw 82) 82) ∧
    (BitVec.toNat (tget (0 : W64) ((gru [(0, some (cvw 0)), (1, some (cvw 1))]).core 63).a (fld (dw 82) 12 4)) % 64 = 0) ∧
    ((gru [(0, some (cvw 0)), (1, some (cvw 1))]).lmFault (63) (BitVec.toNat (tget (0 : W64) ((gru [(0, some (cvw 0)), (1, some (cvw 1))]).core 63).a (fld (dw 82) 12 4))) 64 = none) ∧
    ((gru [(0, some (cvw 0)), (1, some (cvw 1))]).lmBusy 63 [(BitVec.toNat (tget (0 : W64) ((gru [(0, some (cvw 0)), (1, some (cvw 1))]).core 63).a (fld (dw 82) 12 4)), 64)] [] = false) ∧
    ((recurOf (mreadN ((gru [(0, some (cvw 0)), (1, some (cvw 1))]).core 63).lm (BitVec.toNat (tget (0 : W64) ((gru [(0, some (cvw 0)), (1, some (cvw 1))]).core 63).a (fld (dw 82) 12 4))) 64)).ok (mreadN ((gru [(0, some (cvw 0)), (1, some (cvw 1))]).core 63).lm (BitVec.toNat (tget (0 : W64) ((gru [(0, some (cvw 0)), (1, some (cvw 1))]).core 63).a (fld (dw 82) 12 4))) 64) = true) ∧
    ((recurOf (mreadN ((gru [(0, some (cvw 0)), (1, some (cvw 1))]).core 63).lm (BitVec.toNat (tget (0 : W64) ((gru [(0, some (cvw 0)), (1, some (cvw 1))]).core 63).a (fld (dw 82) 12 4))) 64)).reads.any (overlap (recurOf (mreadN ((gru [(0, some (cvw 0)), (1, some (cvw 1))]).core 63).lm (BitVec.toNat (tget (0 : W64) ((gru [(0, some (cvw 0)), (1, some (cvw 1))]).core 63).a (fld (dw 82) 12 4))) 64)).out) = false) ∧
    ((recurOf (mreadN ((gru [(0, some (cvw 0)), (1, some (cvw 1))]).core 63).lm (BitVec.toNat (tget (0 : W64) ((gru [(0, some (cvw 0)), (1, some (cvw 1))]).core 63).a (fld (dw 82) 12 4))) 64)).cell = 2 ∨ tget none ((gru [(0, some (cvw 0)), (1, some (cvw 1))]).core 63).curves (bits (recurOf (mreadN ((gru [(0, some (cvw 0)), (1, some (cvw 1))]).core 63).lm (BitVec.toNat (tget (0 : W64) ((gru [(0, some (cvw 0)), (1, some (cvw 1))]).core 63).a (fld (dw 82) 12 4))) 64)).tb 0 3) ≠ none ∧ tget none ((gru [(0, some (cvw 0)), (1, some (cvw 1))]).core 63).curves (bits (recurOf (mreadN ((gru [(0, some (cvw 0)), (1, some (cvw 1))]).core 63).lm (BitVec.toNat (tget (0 : W64) ((gru [(0, some (cvw 0)), (1, some (cvw 1))]).core 63).a (fld (dw 82) 12 4))) 64)).tb 4 3) ≠ none) ∧
    ((gru [(0, some (cvw 0)), (1, some (cvw 1))]).lmFaults (63) ((recurOf (mreadN ((gru [(0, some (cvw 0)), (1, some (cvw 1))]).core 63).lm (BitVec.toNat (tget (0 : W64) ((gru [(0, some (cvw 0)), (1, some (cvw 1))]).core 63).a (fld (dw 82) 12 4))) 64)).reads ++ [(recurOf (mreadN ((gru [(0, some (cvw 0)), (1, some (cvw 1))]).core 63).lm (BitVec.toNat (tget (0 : W64) ((gru [(0, some (cvw 0)), (1, some (cvw 1))]).core 63).a (fld (dw 82) 12 4))) 64)).out, ((recurOf (mreadN ((gru [(0, some (cvw 0)), (1, some (cvw 1))]).core 63).lm (BitVec.toNat (tget (0 : W64) ((gru [(0, some (cvw 0)), (1, some (cvw 1))]).core 63).a (fld (dw 82) 12 4))) 64)).sa, (recurOf (mreadN ((gru [(0, some (cvw 0)), (1, some (cvw 1))]).core 63).lm (BitVec.toNat (tget (0 : W64) ((gru [(0, some (cvw 0)), (1, some (cvw 1))]).core 63).a (fld (dw 82) 12 4))) 64)).recLen)]) = none) ∧
    ((gru [(0, some (cvw 0)), (1, some (cvw 1))]).lmBusy (63) (recurOf (mreadN ((gru [(0, some (cvw 0)), (1, some (cvw 1))]).core 63).lm (BitVec.toNat (tget (0 : W64) ((gru [(0, some (cvw 0)), (1, some (cvw 1))]).core 63).a (fld (dw 82) 12 4))) 64)).reads [(recurOf (mreadN ((gru [(0, some (cvw 0)), (1, some (cvw 1))]).core 63).lm (BitVec.toNat (tget (0 : W64) ((gru [(0, some (cvw 0)), (1, some (cvw 1))]).core 63).a (fld (dw 82) 12 4))) 64)).out, ((recurOf (mreadN ((gru [(0, some (cvw 0)), (1, some (cvw 1))]).core 63).lm (BitVec.toNat (tget (0 : W64) ((gru [(0, some (cvw 0)), (1, some (cvw 1))]).core 63).a (fld (dw 82) 12 4))) 64)).sa, (recurOf (mreadN ((gru [(0, some (cvw 0)), (1, some (cvw 1))]).core 63).lm (BitVec.toNat (tget (0 : W64) ((gru [(0, some (cvw 0)), (1, some (cvw 1))]).core 63).a (fld (dw 82) 12 4))) 64)).recLen)] = false) ∧
    (recordOk (mreadN ((gru [(0, some (cvw 0)), (1, some (cvw 1))]).core 63).lm (recurOf (mreadN ((gru [(0, some (cvw 0)), (1, some (cvw 1))]).core 63).lm (BitVec.toNat (tget (0 : W64) ((gru [(0, some (cvw 0)), (1, some (cvw 1))]).core 63).a (fld (dw 82) 12 4))) 64)).sa 64) (recurOf (mreadN ((gru [(0, some (cvw 0)), (1, some (cvw 1))]).core 63).lm (BitVec.toNat (tget (0 : W64) ((gru [(0, some (cvw 0)), (1, some (cvw 1))]).core 63).a (fld (dw 82) 12 4))) 64)).cell (at_ (recurOf (mreadN ((gru [(0, some (cvw 0)), (1, some (cvw 1))]).core 63).lm (BitVec.toNat (tget (0 : W64) ((gru [(0, some (cvw 0)), (1, some (cvw 1))]).core 63).a (fld (dw 82) 12 4))) 64)).q 0) (recurOf (mreadN ((gru [(0, some (cvw 0)), (1, some (cvw 1))]).core 63).lm (BitVec.toNat (tget (0 : W64) ((gru [(0, some (cvw 0)), (1, some (cvw 1))]).core 63).a (fld (dw 82) 12 4))) 64)).R (recurOf (mreadN ((gru [(0, some (cvw 0)), (1, some (cvw 1))]).core 63).lm (BitVec.toNat (tget (0 : W64) ((gru [(0, some (cvw 0)), (1, some (cvw 1))]).core 63).a (fld (dw 82) 12 4))) 64)).width (recurOf (mreadN ((gru [(0, some (cvw 0)), (1, some (cvw 1))]).core 63).lm (BitVec.toNat (tget (0 : W64) ((gru [(0, some (cvw 0)), (1, some (cvw 1))]).core 63).a (fld (dw 82) 12 4))) 64)).depth = true) :=
  ⟨tileOf (by decide), by decide, by decide, by decide, by decide, by decide, .inr ⟨by decide, by decide⟩, by decide, by decide, by decide⟩

theorem meets_TileAttn_1 :
    (TileAt (atS 1 4096) (63) (dw 83) 83) ∧
    (BitVec.toNat (tget (0 : W64) ((atS 1 4096).core 63).a (fld (dw 83) 12 4)) % 64 = 0) ∧
    ((atS 1 4096).lmFault (63) (BitVec.toNat (tget (0 : W64) ((atS 1 4096).core 63).a (fld (dw 83) 12 4))) 64 = none) ∧
    ((atS 1 4096).lmBusy 63 [(BitVec.toNat (tget (0 : W64) ((atS 1 4096).core 63).a (fld (dw 83) 12 4)), 64)] [] = false) ∧
    (attnOk (mreadN ((atS 1 4096).core 63).lm (BitVec.toNat (tget (0 : W64) ((atS 1 4096).core 63).a (fld (dw 83) 12 4))) 64) = true) ∧
    ((atS 1 4096).lmFault (63) (leAt (mreadN ((atS 1 4096).core 63).lm (BitVec.toNat (tget (0 : W64) ((atS 1 4096).core 63).a (fld (dw 83) 12 4))) 64) 20 4) (4 * leAt (mreadN ((atS 1 4096).core 63).lm (BitVec.toNat (tget (0 : W64) ((atS 1 4096).core 63).a (fld (dw 83) 12 4))) 64) 8 2) = none) ∧
    (([(leAt (mreadN ((atS 1 4096).core 63).lm (BitVec.toNat (tget (0 : W64) ((atS 1 4096).core 63).a (fld (dw 83) 12 4))) 64) 16 4, fmtBytes (leAt (mreadN ((atS 1 4096).core 63).lm (BitVec.toNat (tget (0 : W64) ((atS 1 4096).core 63).a (fld (dw 83) 12 4))) 64) 2 1) (leAt (mreadN ((atS 1 4096).core 63).lm (BitVec.toNat (tget (0 : W64) ((atS 1 4096).core 63).a (fld (dw 83) 12 4))) 64) 4 2 * leAt (mreadN ((atS 1 4096).core 63).lm (BitVec.toNat (tget (0 : W64) ((atS 1 4096).core 63).a (fld (dw 83) 12 4))) 64) 6 2)), (leAt (mreadN ((atS 1 4096).core 63).lm (BitVec.toNat (tget (0 : W64) ((atS 1 4096).core 63).a (fld (dw 83) 12 4))) 64) 20 4, 4 * leAt (mreadN ((atS 1 4096).core 63).lm (BitVec.toNat (tget (0 : W64) ((atS 1 4096).core 63).a (fld (dw 83) 12 4))) 64) 8 2)] ++ List.map (fun i => ((fun i => leNat (mreadN ((atS 1 4096).core 63).lm (leAt (mreadN ((atS 1 4096).core 63).lm (BitVec.toNat (tget (0 : W64) ((atS 1 4096).core 63).a (fld (dw 83) 12 4))) 64) 20 4 + 4 * i) 4)) i, 128 * leAt (mreadN ((atS 1 4096).core 63).lm (BitVec.toNat (tget (0 : W64) ((atS 1 4096).core 63).a (fld (dw 83) 12 4))) 64) 6 2 * if leAt (mreadN ((atS 1 4096).core 63).lm (BitVec.toNat (tget (0 : W64) ((atS 1 4096).core 63).a (fld (dw 83) 12 4))) 64) 3 1 = 6 ∨ leAt (mreadN ((atS 1 4096).core 63).lm (BitVec.toNat (tget (0 : W64) ((atS 1 4096).core 63).a (fld (dw 83) 12 4))) 64) 3 1 = 7 then 1 else 2)) (List.range (leAt (mreadN ((atS 1 4096).core 63).lm (BitVec.toNat (tget (0 : W64) ((atS 1 4096).core 63).a (fld (dw 83) 12 4))) 64) 8 2))).any (overlap (leAt (mreadN ((atS 1 4096).core 63).lm (BitVec.toNat (tget (0 : W64) ((atS 1 4096).core 63).a (fld (dw 83) 12 4))) 64) 24 4, 4 * (2 * leAt (mreadN ((atS 1 4096).core 63).lm (BitVec.toNat (tget (0 : W64) ((atS 1 4096).core 63).a (fld (dw 83) 12 4))) 64) 4 2 + leAt (mreadN ((atS 1 4096).core 63).lm (BitVec.toNat (tget (0 : W64) ((atS 1 4096).core 63).a (fld (dw 83) 12 4))) 64) 4 2 * leAt (mreadN ((atS 1 4096).core 63).lm (BitVec.toNat (tget (0 : W64) ((atS 1 4096).core 63).a (fld (dw 83) 12 4))) 64) 6 2))) = true) :=
  ⟨tileOf (by decide), by and_intros <;> decide⟩

theorem meets_TileAttn_2 :
    (TileAt atOk (63) (dw 83) 83) ∧
    (BitVec.toNat (tget (0 : W64) (atOk.core 63).a (fld (dw 83) 12 4)) % 64 = 0) ∧
    (atOk.lmFault (63) (BitVec.toNat (tget (0 : W64) (atOk.core 63).a (fld (dw 83) 12 4))) 64 = none) ∧
    (atOk.lmBusy 63 [(BitVec.toNat (tget (0 : W64) (atOk.core 63).a (fld (dw 83) 12 4)), 64)] [] = false) ∧
    (attnOk (mreadN (atOk.core 63).lm (BitVec.toNat (tget (0 : W64) (atOk.core 63).a (fld (dw 83) 12 4))) 64) = true) ∧
    (atOk.lmFault (63) (leAt (mreadN (atOk.core 63).lm (BitVec.toNat (tget (0 : W64) (atOk.core 63).a (fld (dw 83) 12 4))) 64) 20 4) (4 * leAt (mreadN (atOk.core 63).lm (BitVec.toNat (tget (0 : W64) (atOk.core 63).a (fld (dw 83) 12 4))) 64) 8 2) = none) ∧
    (([(leAt (mreadN (atOk.core 63).lm (BitVec.toNat (tget (0 : W64) (atOk.core 63).a (fld (dw 83) 12 4))) 64) 16 4, fmtBytes (leAt (mreadN (atOk.core 63).lm (BitVec.toNat (tget (0 : W64) (atOk.core 63).a (fld (dw 83) 12 4))) 64) 2 1) (leAt (mreadN (atOk.core 63).lm (BitVec.toNat (tget (0 : W64) (atOk.core 63).a (fld (dw 83) 12 4))) 64) 4 2 * leAt (mreadN (atOk.core 63).lm (BitVec.toNat (tget (0 : W64) (atOk.core 63).a (fld (dw 83) 12 4))) 64) 6 2)), (leAt (mreadN (atOk.core 63).lm (BitVec.toNat (tget (0 : W64) (atOk.core 63).a (fld (dw 83) 12 4))) 64) 20 4, 4 * leAt (mreadN (atOk.core 63).lm (BitVec.toNat (tget (0 : W64) (atOk.core 63).a (fld (dw 83) 12 4))) 64) 8 2)] ++ List.map (fun i => ((fun i => leNat (mreadN (atOk.core 63).lm (leAt (mreadN (atOk.core 63).lm (BitVec.toNat (tget (0 : W64) (atOk.core 63).a (fld (dw 83) 12 4))) 64) 20 4 + 4 * i) 4)) i, 128 * leAt (mreadN (atOk.core 63).lm (BitVec.toNat (tget (0 : W64) (atOk.core 63).a (fld (dw 83) 12 4))) 64) 6 2 * if leAt (mreadN (atOk.core 63).lm (BitVec.toNat (tget (0 : W64) (atOk.core 63).a (fld (dw 83) 12 4))) 64) 3 1 = 6 ∨ leAt (mreadN (atOk.core 63).lm (BitVec.toNat (tget (0 : W64) (atOk.core 63).a (fld (dw 83) 12 4))) 64) 3 1 = 7 then 1 else 2)) (List.range (leAt (mreadN (atOk.core 63).lm (BitVec.toNat (tget (0 : W64) (atOk.core 63).a (fld (dw 83) 12 4))) 64) 8 2))).any (overlap (leAt (mreadN (atOk.core 63).lm (BitVec.toNat (tget (0 : W64) (atOk.core 63).a (fld (dw 83) 12 4))) 64) 24 4, 4 * (2 * leAt (mreadN (atOk.core 63).lm (BitVec.toNat (tget (0 : W64) (atOk.core 63).a (fld (dw 83) 12 4))) 64) 4 2 + leAt (mreadN (atOk.core 63).lm (BitVec.toNat (tget (0 : W64) (atOk.core 63).a (fld (dw 83) 12 4))) 64) 4 2 * leAt (mreadN (atOk.core 63).lm (BitVec.toNat (tget (0 : W64) (atOk.core 63).a (fld (dw 83) 12 4))) 64) 6 2))) = false) ∧
    (([(leAt (mreadN (atOk.core 63).lm (BitVec.toNat (tget (0 : W64) (atOk.core 63).a (fld (dw 83) 12 4))) 64) 16 4, fmtBytes (leAt (mreadN (atOk.core 63).lm (BitVec.toNat (tget (0 : W64) (atOk.core 63).a (fld (dw 83) 12 4))) 64) 2 1) (leAt (mreadN (atOk.core 63).lm (BitVec.toNat (tget (0 : W64) (atOk.core 63).a (fld (dw 83) 12 4))) 64) 4 2 * leAt (mreadN (atOk.core 63).lm (BitVec.toNat (tget (0 : W64) (atOk.core 63).a (fld (dw 83) 12 4))) 64) 6 2)), (leAt (mreadN (atOk.core 63).lm (BitVec.toNat (tget (0 : W64) (atOk.core 63).a (fld (dw 83) 12 4))) 64) 20 4, 4 * leAt (mreadN (atOk.core 63).lm (BitVec.toNat (tget (0 : W64) (atOk.core 63).a (fld (dw 83) 12 4))) 64) 8 2)] ++ List.map (fun i => ((fun i => leNat (mreadN (atOk.core 63).lm (leAt (mreadN (atOk.core 63).lm (BitVec.toNat (tget (0 : W64) (atOk.core 63).a (fld (dw 83) 12 4))) 64) 20 4 + 4 * i) 4)) i, 128 * leAt (mreadN (atOk.core 63).lm (BitVec.toNat (tget (0 : W64) (atOk.core 63).a (fld (dw 83) 12 4))) 64) 6 2 * if leAt (mreadN (atOk.core 63).lm (BitVec.toNat (tget (0 : W64) (atOk.core 63).a (fld (dw 83) 12 4))) 64) 3 1 = 6 ∨ leAt (mreadN (atOk.core 63).lm (BitVec.toNat (tget (0 : W64) (atOk.core 63).a (fld (dw 83) 12 4))) 64) 3 1 = 7 then 1 else 2)) (List.range (leAt (mreadN (atOk.core 63).lm (BitVec.toNat (tget (0 : W64) (atOk.core 63).a (fld (dw 83) 12 4))) 64) 8 2))).any (overlap (leAt (mreadN (atOk.core 63).lm (BitVec.toNat (tget (0 : W64) (atOk.core 63).a (fld (dw 83) 12 4))) 64) 28 4, if bitN (leAt (mreadN (atOk.core 63).lm (BitVec.toNat (tget (0 : W64) (atOk.core 63).a (fld (dw 83) 12 4))) 64) 1 1) 1 = true then 4 * leAt (mreadN (atOk.core 63).lm (BitVec.toNat (tget (0 : W64) (atOk.core 63).a (fld (dw 83) 12 4))) 64) 4 2 * leAt (mreadN (atOk.core 63).lm (BitVec.toNat (tget (0 : W64) (atOk.core 63).a (fld (dw 83) 12 4))) 64) 6 2 else 0)) = false) ∧
    (overlap (leAt (mreadN (atOk.core 63).lm (BitVec.toNat (tget (0 : W64) (atOk.core 63).a (fld (dw 83) 12 4))) 64) 24 4, 4 * (2 * leAt (mreadN (atOk.core 63).lm (BitVec.toNat (tget (0 : W64) (atOk.core 63).a (fld (dw 83) 12 4))) 64) 4 2 + leAt (mreadN (atOk.core 63).lm (BitVec.toNat (tget (0 : W64) (atOk.core 63).a (fld (dw 83) 12 4))) 64) 4 2 * leAt (mreadN (atOk.core 63).lm (BitVec.toNat (tget (0 : W64) (atOk.core 63).a (fld (dw 83) 12 4))) 64) 6 2)) (leAt (mreadN (atOk.core 63).lm (BitVec.toNat (tget (0 : W64) (atOk.core 63).a (fld (dw 83) 12 4))) 64) 28 4, if bitN (leAt (mreadN (atOk.core 63).lm (BitVec.toNat (tget (0 : W64) (atOk.core 63).a (fld (dw 83) 12 4))) 64) 1 1) 1 = true then 4 * leAt (mreadN (atOk.core 63).lm (BitVec.toNat (tget (0 : W64) (atOk.core 63).a (fld (dw 83) 12 4))) 64) 4 2 * leAt (mreadN (atOk.core 63).lm (BitVec.toNat (tget (0 : W64) (atOk.core 63).a (fld (dw 83) 12 4))) 64) 6 2 else 0) = false) ∧
    (atOk.lmFaults (63) ([(leAt (mreadN (atOk.core 63).lm (BitVec.toNat (tget (0 : W64) (atOk.core 63).a (fld (dw 83) 12 4))) 64) 16 4, fmtBytes (leAt (mreadN (atOk.core 63).lm (BitVec.toNat (tget (0 : W64) (atOk.core 63).a (fld (dw 83) 12 4))) 64) 2 1) (leAt (mreadN (atOk.core 63).lm (BitVec.toNat (tget (0 : W64) (atOk.core 63).a (fld (dw 83) 12 4))) 64) 4 2 * leAt (mreadN (atOk.core 63).lm (BitVec.toNat (tget (0 : W64) (atOk.core 63).a (fld (dw 83) 12 4))) 64) 6 2)), (leAt (mreadN (atOk.core 63).lm (BitVec.toNat (tget (0 : W64) (atOk.core 63).a (fld (dw 83) 12 4))) 64) 20 4, 4 * leAt (mreadN (atOk.core 63).lm (BitVec.toNat (tget (0 : W64) (atOk.core 63).a (fld (dw 83) 12 4))) 64) 8 2)] ++ List.map (fun i => ((fun i => leNat (mreadN (atOk.core 63).lm (leAt (mreadN (atOk.core 63).lm (BitVec.toNat (tget (0 : W64) (atOk.core 63).a (fld (dw 83) 12 4))) 64) 20 4 + 4 * i) 4)) i, 128 * leAt (mreadN (atOk.core 63).lm (BitVec.toNat (tget (0 : W64) (atOk.core 63).a (fld (dw 83) 12 4))) 64) 6 2 * if leAt (mreadN (atOk.core 63).lm (BitVec.toNat (tget (0 : W64) (atOk.core 63).a (fld (dw 83) 12 4))) 64) 3 1 = 6 ∨ leAt (mreadN (atOk.core 63).lm (BitVec.toNat (tget (0 : W64) (atOk.core 63).a (fld (dw 83) 12 4))) 64) 3 1 = 7 then 1 else 2)) (List.range (leAt (mreadN (atOk.core 63).lm (BitVec.toNat (tget (0 : W64) (atOk.core 63).a (fld (dw 83) 12 4))) 64) 8 2)) ++ [(leAt (mreadN (atOk.core 63).lm (BitVec.toNat (tget (0 : W64) (atOk.core 63).a (fld (dw 83) 12 4))) 64) 24 4, 4 * (2 * leAt (mreadN (atOk.core 63).lm (BitVec.toNat (tget (0 : W64) (atOk.core 63).a (fld (dw 83) 12 4))) 64) 4 2 + leAt (mreadN (atOk.core 63).lm (BitVec.toNat (tget (0 : W64) (atOk.core 63).a (fld (dw 83) 12 4))) 64) 4 2 * leAt (mreadN (atOk.core 63).lm (BitVec.toNat (tget (0 : W64) (atOk.core 63).a (fld (dw 83) 12 4))) 64) 6 2)), (leAt (mreadN (atOk.core 63).lm (BitVec.toNat (tget (0 : W64) (atOk.core 63).a (fld (dw 83) 12 4))) 64) 28 4, if bitN (leAt (mreadN (atOk.core 63).lm (BitVec.toNat (tget (0 : W64) (atOk.core 63).a (fld (dw 83) 12 4))) 64) 1 1) 1 = true then 4 * leAt (mreadN (atOk.core 63).lm (BitVec.toNat (tget (0 : W64) (atOk.core 63).a (fld (dw 83) 12 4))) 64) 4 2 * leAt (mreadN (atOk.core 63).lm (BitVec.toNat (tget (0 : W64) (atOk.core 63).a (fld (dw 83) 12 4))) 64) 6 2 else 0)]) = none) ∧
    (atOk.lmBusy (63) ([(leAt (mreadN (atOk.core 63).lm (BitVec.toNat (tget (0 : W64) (atOk.core 63).a (fld (dw 83) 12 4))) 64) 16 4, fmtBytes (leAt (mreadN (atOk.core 63).lm (BitVec.toNat (tget (0 : W64) (atOk.core 63).a (fld (dw 83) 12 4))) 64) 2 1) (leAt (mreadN (atOk.core 63).lm (BitVec.toNat (tget (0 : W64) (atOk.core 63).a (fld (dw 83) 12 4))) 64) 4 2 * leAt (mreadN (atOk.core 63).lm (BitVec.toNat (tget (0 : W64) (atOk.core 63).a (fld (dw 83) 12 4))) 64) 6 2)), (leAt (mreadN (atOk.core 63).lm (BitVec.toNat (tget (0 : W64) (atOk.core 63).a (fld (dw 83) 12 4))) 64) 20 4, 4 * leAt (mreadN (atOk.core 63).lm (BitVec.toNat (tget (0 : W64) (atOk.core 63).a (fld (dw 83) 12 4))) 64) 8 2)] ++ List.map (fun i => ((fun i => leNat (mreadN (atOk.core 63).lm (leAt (mreadN (atOk.core 63).lm (BitVec.toNat (tget (0 : W64) (atOk.core 63).a (fld (dw 83) 12 4))) 64) 20 4 + 4 * i) 4)) i, 128 * leAt (mreadN (atOk.core 63).lm (BitVec.toNat (tget (0 : W64) (atOk.core 63).a (fld (dw 83) 12 4))) 64) 6 2 * if leAt (mreadN (atOk.core 63).lm (BitVec.toNat (tget (0 : W64) (atOk.core 63).a (fld (dw 83) 12 4))) 64) 3 1 = 6 ∨ leAt (mreadN (atOk.core 63).lm (BitVec.toNat (tget (0 : W64) (atOk.core 63).a (fld (dw 83) 12 4))) 64) 3 1 = 7 then 1 else 2)) (List.range (leAt (mreadN (atOk.core 63).lm (BitVec.toNat (tget (0 : W64) (atOk.core 63).a (fld (dw 83) 12 4))) 64) 8 2))) [(leAt (mreadN (atOk.core 63).lm (BitVec.toNat (tget (0 : W64) (atOk.core 63).a (fld (dw 83) 12 4))) 64) 24 4, 4 * (2 * leAt (mreadN (atOk.core 63).lm (BitVec.toNat (tget (0 : W64) (atOk.core 63).a (fld (dw 83) 12 4))) 64) 4 2 + leAt (mreadN (atOk.core 63).lm (BitVec.toNat (tget (0 : W64) (atOk.core 63).a (fld (dw 83) 12 4))) 64) 4 2 * leAt (mreadN (atOk.core 63).lm (BitVec.toNat (tget (0 : W64) (atOk.core 63).a (fld (dw 83) 12 4))) 64) 6 2)), (leAt (mreadN (atOk.core 63).lm (BitVec.toNat (tget (0 : W64) (atOk.core 63).a (fld (dw 83) 12 4))) 64) 28 4, if bitN (leAt (mreadN (atOk.core 63).lm (BitVec.toNat (tget (0 : W64) (atOk.core 63).a (fld (dw 83) 12 4))) 64) 1 1) 1 = true then 4 * leAt (mreadN (atOk.core 63).lm (BitVec.toNat (tget (0 : W64) (atOk.core 63).a (fld (dw 83) 12 4))) 64) 4 2 * leAt (mreadN (atOk.core 63).lm (BitVec.toNat (tget (0 : W64) (atOk.core 63).a (fld (dw 83) 12 4))) 64) 6 2 else 0)] = false) :=
  ⟨tileOf (by decide), by and_intros <;> decide⟩

def atLap : State := atS 3 0x1000

theorem meets_TileAttn_3 :
    let s : State := atLap
    let k : Fin 64 := 63
    let w : W128 := dw 83
    let e2 := tget 0 (s.core k.val).a (fld w 12 4)
    let e1 := mreadN (s.core k.val).lm (BitVec.toNat e2) 64
    let e3 := (leAt e1 28 4, if bitN (leAt e1 1 1) 1 = true then 4 * leAt e1 4 2 * leAt e1 6 2 else 0)
    (TileAt s k.val w 83) ∧
    (BitVec.toNat e2 % 64 = 0) ∧
    (s.lmFault k.val (BitVec.toNat e2) 64 = none) ∧
    (s.lmBusy k.val [(BitVec.toNat e2, 64)] [] = false) ∧
    (attnOk e1 = true) ∧
    (s.lmFault k.val (leAt e1 20 4) (4 * leAt e1 8 2) = none) ∧
    (s.lmBusy k.val [(leAt e1 20 4, 4 * leAt e1 8 2)] [] = false) ∧
    (([(leAt e1 16 4, fmtBytes (leAt e1 2 1) (leAt e1 4 2 * leAt e1 6 2)), (leAt e1 20 4, 4 * leAt e1 8 2)] ++ List.map (fun i => (leNat (mreadN (s.core k.val).lm (leAt e1 20 4 + 4 * i) 4), 128 * leAt e1 6 2 * if leAt e1 3 1 = 6 ∨ leAt e1 3 1 = 7 then 1 else 2)) (List.range (leAt e1 8 2))).any (overlap (leAt e1 24 4, 4 * (2 * leAt e1 4 2 + leAt e1 4 2 * leAt e1 6 2))) = true ∨ ([(leAt e1 16 4, fmtBytes (leAt e1 2 1) (leAt e1 4 2 * leAt e1 6 2)), (leAt e1 20 4, 4 * leAt e1 8 2)] ++ List.map (fun i => (leNat (mreadN (s.core k.val).lm (leAt e1 20 4 + 4 * i) 4), 128 * leAt e1 6 2 * if leAt e1 3 1 = 6 ∨ leAt e1 3 1 = 7 then 1 else 2)) (List.range (leAt e1 8 2))).any (overlap e3) = true ∨ overlap (leAt e1 24 4, 4 * (2 * leAt e1 4 2 + leAt e1 4 2 * leAt e1 6 2)) e3 = true) :=
  ⟨tileOf (by decide), by and_intros <;> decide⟩

theorem meets_TileAttn_4 :
    let s : State := atOk
    let k : Fin 64 := 63
    let w : W128 := dw 83
    let e6 := tget 0 (s.core k.val).a (fld w 12 4)
    let e1 := mreadN (s.core k.val).lm (BitVec.toNat e6) 64
    let e2 := (leAt e1 28 4, if bitN (leAt e1 1 1) 1 = true then 4 * leAt e1 4 2 * leAt e1 6 2 else 0)
    let e3 := (leAt e1 16 4, fmtBytes (leAt e1 2 1) (leAt e1 4 2 * leAt e1 6 2))
    let e4 := (leAt e1 24 4, 4 * (2 * leAt e1 4 2 + leAt e1 4 2 * leAt e1 6 2))
    let e5 := (leAt e1 20 4, 4 * leAt e1 8 2)
    (TileAt s k.val w 83) ∧
    (BitVec.toNat e6 % 64 = 0) ∧
    (s.lmFault k.val (BitVec.toNat e6) 64 = none) ∧
    (s.lmBusy k.val [(BitVec.toNat e6, 64)] [] = false) ∧
    (attnOk e1 = true) ∧
    (s.lmFault k.val (leAt e1 20 4) (4 * leAt e1 8 2) = none) ∧
    (s.lmBusy k.val [e5] [] = false) ∧
    (([e3, e5] ++ List.map (fun i => (leNat (mreadN (s.core k.val).lm (leAt e1 20 4 + 4 * i) 4), 128 * leAt e1 6 2 * if leAt e1 3 1 = 6 ∨ leAt e1 3 1 = 7 then 1 else 2)) (List.range (leAt e1 8 2))).any (overlap e4) = false) ∧
    (([e3, e5] ++ List.map (fun i => (leNat (mreadN (s.core k.val).lm (leAt e1 20 4 + 4 * i) 4), 128 * leAt e1 6 2 * if leAt e1 3 1 = 6 ∨ leAt e1 3 1 = 7 then 1 else 2)) (List.range (leAt e1 8 2))).any (overlap e2) = false) ∧
    (overlap e4 e2 = false) ∧
    (s.lmFaults k.val ([e3, e5] ++ List.map (fun i => (leNat (mreadN (s.core k.val).lm (leAt e1 20 4 + 4 * i) 4), 128 * leAt e1 6 2 * if leAt e1 3 1 = 6 ∨ leAt e1 3 1 = 7 then 1 else 2)) (List.range (leAt e1 8 2)) ++ [e4, e2]) = none) ∧
    (s.lmBusy k.val ([e3, e5] ++ List.map (fun i => (leNat (mreadN (s.core k.val).lm (leAt e1 20 4 + 4 * i) 4), 128 * leAt e1 6 2 * if leAt e1 3 1 = 6 ∨ leAt e1 3 1 = 7 then 1 else 2)) (List.range (leAt e1 8 2))) [e4, e2] = false) ∧
    ((s.core k.val).progress = 0) :=
  ⟨tileOf (by decide), by and_intros <;> decide⟩

theorem meets_TileRstep_6 :
    let s : State := rcOk
    let k : Fin 64 := 63
    let w : W128 := dw 82
    let e2 := tget 0 (s.core k.val).a (fld w 12 4)
    let e1 := recurOf (mreadN (s.core k.val).lm (BitVec.toNat e2) 64)
    (TileAt s k.val w 82) ∧
    (BitVec.toNat e2 % 64 = 0) ∧
    (s.lmFault k.val (BitVec.toNat e2) 64 = none) ∧
    (s.lmBusy k.val [(BitVec.toNat e2, 64)] [] = false) ∧
    (e1.ok (mreadN (s.core k.val).lm (BitVec.toNat e2) 64) = true) ∧
    (e1.reads.any (overlap e1.out) = false) ∧
    (e1.cell = 2 ∨ tget none (s.core k.val).curves (bits e1.tb 0 3) ≠ none ∧ tget none (s.core k.val).curves (bits e1.tb 4 3) ≠ none) ∧
    (s.lmFaults k.val (e1.reads ++ [e1.out, (e1.sa, e1.recLen)]) = none) ∧
    (s.lmBusy k.val e1.reads [e1.out, (e1.sa, e1.recLen)] = false) ∧
    (recordOk (mreadN (s.core k.val).lm e1.sa 64) e1.cell (at_ e1.q 0) e1.R e1.width e1.depth = true) ∧
    ((s.core k.val).progress = 0) :=
  ⟨tileOf (by decide), by and_intros <;> decide⟩

theorem meets_TileRstep_7 :
    let s : State := rcOk
    let k : Fin 64 := 63
    let w : W128 := dw 82
    let e2 := tget 0 (s.core k.val).a (fld w 12 4)
    let e1 := recurOf (mreadN (s.core k.val).lm (BitVec.toNat e2) 64)
    (TileAt s k.val w 82) ∧
    (BitVec.toNat e2 % 64 = 0) ∧
    (s.lmFault k.val (BitVec.toNat e2) 64 = none) ∧
    (s.lmBusy k.val [(BitVec.toNat e2, 64)] [] = false) ∧
    (e1.ok (mreadN (s.core k.val).lm (BitVec.toNat e2) 64) = true) ∧
    (e1.reads.any (overlap e1.out) = false) ∧
    (e1.cell = 2 ∨ tget none (s.core k.val).curves (bits e1.tb 0 3) ≠ none ∧ tget none (s.core k.val).curves (bits e1.tb 4 3) ≠ none) ∧
    (s.lmFaults k.val (e1.reads ++ [e1.out, (e1.sa, e1.recLen)]) = none) ∧
    (s.lmBusy k.val e1.reads [e1.out, (e1.sa, e1.recLen)] = false) ∧
    (recordOk (mreadN (s.core k.val).lm e1.sa 64) e1.cell (at_ e1.q 0) e1.R e1.width e1.depth = true) ∧
    ((s.core k.val).progress = 0) ∧
    ((List.filter (fun q => decide (q ≠ (e1.sa, e1.recLen))) e1.reads).any (overlap (e1.sa, e1.recLen)) = false) :=
  ⟨tileOf (by decide +kernel), by decide +kernel, by decide +kernel, by decide +kernel, by decide +kernel, by decide +kernel, by decide +kernel, by decide +kernel, by decide +kernel, by decide +kernel, by decide +kernel, by decide +kernel⟩

end Part13b

namespace Part14

def sgW (fs : List (Nat × Nat)) : W128 := word 0x60 ([(16, 20), (24, 62), (64, 1)] ++ fs)
def sgS (w : W128) (e q : Option Nat) : State :=
  { tileS w { pc := 5 } t1 with jobs := [(5, some { progJob with epoch := e }), (6, some { progJob with st := .saved, epoch := q })],
                                sch.dir := [(62, some 6)] }
def sgJ (e : Option Nat) : Job := { progJob with epoch := e }
def sgQ (e : Option Nat) : Job := { progJob with st := .saved, epoch := e }
def sgR : W128 := sgW [(38, 1), (32, 5)]
def sgC : W128 := word 0x60 [(16, 20), (24, 61), (64, 1)]
def sgn (c cell v : Nat) : Signal := { src := 63, core := c, cell := cell, v := v, tenant := 1 }
def sdS (g : Signal) (j : Job) : State :=
  { tileS (sgW []) { pc := 5, sync := [(20, 0xFFFFFFFE), (3, 7)] } t1 with
    jobs := [(5, some j)], sch.signals := [g], sch.dir := [(62, some 5)],
    cores := [(63, { phase := .running, job := if j.st = .running 63 then some 5 else none, codeBase := 0x100, codeLen := 64, pc := 5, sync := [(20, 0xFFFFFFFE), (3, 7)] })] }
def savJ : Job := { progJob with st := .saved, slotAddr := 0x100000 }
def resJ : Job := { progJob with st := .restoring 63 }
def swW (v dl : Nat) : W128 := word 0x61 [(12, 2), (16, 3), (64, v), (96, dl)]
def swS (w : W128) (x : Core) : State := tileS w { x with pc := 5, job := some 5, sync := [(3, 7)] } t1
def swU : Wait := { op := 0x61, word := swW 8 9, deadline := some 9 }
def swD (g : List Signal) : State := { swS (swW 8 9) { wait := some swU } with sch.signals := g }
def twW (b rel : Nat) : W128 := word 0x62 [(12, 2), (16, b), (18, rel), (20, 3), (24, 4), (64, 100)]
def twS (w : W128) (x : Core) : State := tileS w { x with pc := 5, job := some 5, a := [(3, 50)] } t1
def old (s : State) : State := { s with build.rev := .rev1 }
def waW (ev b : Nat) : W128 := word 0x63 [(16, ev), (20, b), (24, 3), (64, 100)]
def twU (w : W128) (op : Nat) : Wait := { op := op, word := w }
def twM (w : W128) (op : Nat) : State := twS w { wait := some (twU w op), wakeMsg := some (9, true) }
def dlS (en : Bool) : State :=
  { swS (swW 8 0) { wait := some (twU (swW 8 0) 0x61) } with dies := [(3, { bridge := .up, power := .on })], sch.dlEn := en }

theorem meets_SignalsPosted_1 :
    (TileAt (sgS (sgW []) none none) (63) (sgW []) 96) ∧
    (((sgS (sgW []) none none).core 63).job = some 5) ∧
    ((sgS (sgW []) none none).job 5 = some (sgJ none)) ∧
    ((sgJ none).epoch = none) :=
  ⟨tileOf (by decide), by decide, by decide, by decide⟩

theorem meets_SignalsPosted_2 :
    (TileAt (sgS sgR (some 4) none) (63) sgR 96) ∧
    (((sgS sgR (some 4) none).core 63).job = some 5) ∧
    ((sgS sgR (some 4) none).job 5 = some (sgJ (some 4))) ∧
    ((sgJ (some 4)).epoch = some 4) ∧
    (bit sgR 38 = true ∧ fld sgR 32 6 ≠ (sgS sgR (some 4) none).node) :=
  ⟨tileOf (by decide), by decide, by decide, by decide, by decide⟩

theorem meets_SignalsPosted_3 :
    (TileAt (sgS sgC (some 4) none) (63) sgC 96) ∧
    (((sgS sgC (some 4) none).core 63).job = some 5) ∧
    ((sgS sgC (some 4) none).job 5 = some (sgJ (some 4))) ∧
    ((sgJ (some 4)).epoch = some 4) ∧
    (¬(bit sgC 38 = true ∧ fld sgC 32 6 ≠ (sgS sgC (some 4) none).node)) ∧
    ((sgS sgC (some 4) none).sigTarget (fld sgC 24 6) (sgJ (some 4)).tenant = none) :=
  ⟨tileOf (by decide), by and_intros <;> decide⟩

theorem meets_SignalsPosted_4 :
    (TileAt (sgS (sgW []) (some 4) none) (63) (sgW []) 96) ∧
    (((sgS (sgW []) (some 4) none).core 63).job = some 5) ∧
    ((sgS (sgW []) (some 4) none).job 5 = some (sgJ (some 4))) ∧
    ((sgJ (some 4)).epoch = some 4) ∧
    (¬(bit (sgW []) 38 = true ∧ fld (sgW []) 32 6 ≠ (sgS (sgW []) (some 4) none).node)) ∧
    ((sgS (sgW []) (some 4) none).sigTarget (fld (sgW []) 24 6) (sgJ (some 4)).tenant = some 6) ∧
    ((sgS (sgW []) (some 4) none).job 6 = some (sgQ none)) ∧
    ((sgQ none).epoch ≠ some 4) :=
  ⟨tileOf (by decide), by and_intros <;> decide⟩

theorem meets_SignalsPosted_5 :
    (TileAt (sgS (sgW []) (some 4) (some 4)) (63) (sgW []) 96) ∧
    (((sgS (sgW []) (some 4) (some 4)).core 63).job = some 5) ∧
    ((sgS (sgW []) (some 4) (some 4)).job 5 = some (sgJ (some 4))) ∧
    ((sgJ (some 4)).epoch = some 4) ∧
    (¬(bit (sgW []) 38 = true ∧ fld (sgW []) 32 6 ≠ (sgS (sgW []) (some 4) (some 4)).node)) ∧
    ((sgS (sgW []) (some 4) (some 4)).sigTarget (fld (sgW []) 24 6) (sgJ (some 4)).tenant = some 6) ∧
    ((sgS (sgW []) (some 4) (some 4)).job 6 = some (sgQ (some 4))) ∧
    ((sgQ (some 4)).epoch = some 4) :=
  ⟨tileOf (by decide), by and_intros <;> decide⟩

theorem meets_SignalTargets_1 :
    (((sgS (sgW []) none none).core 63).job = some 5) ∧
    ((sgS (sgW []) none none).job 5 = some progJob) ∧
    (progJob.tenant = 1) :=
  ⟨by decide, by decide, by decide⟩

theorem meets_SignalTargets_2 :
    (∃ j x, ((sgS (sgW []) none none).core 63).job = some j ∧ (sgS (sgW []) none none).job j = some x ∧ x.tenant ≠ 2) ∧
    (tget none (sgS (sgW []) none none).sch.dir 63 = none) :=
  ⟨⟨5, progJob, by decide⟩, by decide⟩

theorem meets_SignalTargets_3 :
    (((sgS (sgW []) none none).core 62).job = none) ∧
    (tget none (sgS (sgW []) none none).sch.dir 62 = some 6) ∧
    ((sgS (sgW []) none none).job 6 = some (sgQ none)) :=
  ⟨by decide, by decide, by decide⟩

theorem meets_SignalTargets_4 :
    ((sgS (sgW []) none none).sigTarget 62 1 = some 6) ∧
    ((sgS (sgW []) none none).job 6 = some (sgQ none)) :=
  ⟨by decide, by decide⟩

theorem meets_SyncWaits_1 :
    (TileAt (swS (swW 0 0) { : Core }) (63) (swW 0 0) 97) ∧
    (fld (swW 0 0) 64 16 = 0) :=
  ⟨tileOf (by decide), by decide⟩

theorem meets_SyncWaits_2 :
    (TileAt (swS (swW 7 0) { : Core }) (63) (swW 7 0) 97) ∧
    (fld (swW 7 0) 64 16 ≠ 0) ∧
    (fld (swW 7 0) 64 16 ≤ BitVec.toNat (tget (0 : W32) ((swS (swW 7 0) { : Core }).core 63).sync (fld (swW 7 0) 16 5))) :=
  ⟨tileOf (by decide), by decide, by decide⟩

theorem meets_SyncWaits_3 :
    (TileAt (swS (swW 8 0) { : Core }) (63) (swW 8 0) 97) ∧
    (fld (swW 8 0) 64 16 ≠ 0) ∧
    (BitVec.toNat (tget (0 : W32) ((swS (swW 8 0) { : Core }).core 63).sync (fld (swW 8 0) 16 5)) < fld (swW 8 0) 64 16) :=
  ⟨tileOf (by decide), by decide, by decide⟩

theorem meets_SyncWaits_5 :
    (((swD []).core 63).wait = some swU) ∧
    (swU.op = (97 : BitVec 8)) ∧
    (swU.deadline = some (9 : W32)) ∧
    (((swD []).core 63).phase = CorePhase.running) ∧
    (swU.word = swW 8 9) ∧
    ((swD []).sch.signals = []) :=
  by and_intros <;> decide

theorem meets_SyncWaits_7 :
    (((swS (swW 8 9) { : Core }).core 63).wait = none) :=
  by decide

theorem meets_TimedWaits_1 :
    (TileAt (old (twS (twW 3 0) { : Core })) (63) (twW 3 0) 98) ∧
    (fld (twW 3 0) 16 2 ≠ 0) ∧
    (fld (twW 3 0) 16 2 = 3) ∧
    ((old (twS (twW 3 0) { : Core })).rev2 = false) :=
  ⟨tileOf (by decide), by decide, by decide, by decide⟩

theorem meets_TimedWaits_2 :
    (TileAt (twS (twW 1 1) { : Core }) (63) (twW 1 1) 98) ∧
    (fld (twW 1 1) 16 2 ≠ 0) ∧
    (fld (twW 1 1) 16 2 = 3 → (twS (twW 1 1) { : Core }).rev2 = true) :=
  ⟨tileOf (by decide), by decide, by decide⟩

theorem meets_TimedWaits_3 :
    (TileAt (twS (waW 0 0) { : Core }) (63) (waW 0 0) 99) ∧
    (BitVec.ofNat 3 (fld (waW 0 0) 16 3) = (0 : BitVec 3)) :=
  ⟨tileOf (by decide), by decide⟩

theorem meets_TimedWaits_4 :
    (TileAt (old (twS (waW 2 3) { : Core })) (63) (waW 2 3) 99) ∧
    (bit (BitVec.ofNat 3 (fld (waW 2 3) 16 3)) 1 = true) ∧
    (fld (waW 2 3) 20 2 = 3) ∧
    ((old (twS (waW 2 3) { : Core })).rev2 = false) :=
  ⟨tileOf (by decide), by decide, by decide, by decide⟩

theorem meets_TimedWaits_5 :
    (TileAt (twS (waW 5 1) { events := (5 : BitVec 3) : Core }) (63) (waW 5 1) 99) ∧
    (BitVec.ofNat 3 (fld (waW 5 1) 16 3) ≠ (0 : BitVec 3)) ∧
    (bit (BitVec.ofNat 3 (fld (waW 5 1) 16 3)) 1 = true → fld (waW 5 1) 20 2 = 3 → (twS (waW 5 1) { events := (5 : BitVec 3) : Core }).rev2 = true) ∧
    (((twS (waW 5 1) { events := (5 : BitVec 3) : Core }).core 63).events &&& BitVec.ofNat 3 (fld (waW 5 1) 16 3) ≠ (0 : BitVec 3)) :=
  ⟨tileOf (by decide), by decide, by decide, by decide⟩

theorem meets_TimedWaits_7' :
    (TileAt (twS (waW 7 1) { : Core }) (63) (waW 7 1) 99) ∧
    (BitVec.ofNat 3 (fld (waW 7 1) 16 3) ≠ (0 : BitVec 3)) ∧
    (bit (BitVec.ofNat 3 (fld (waW 7 1) 16 3)) 1 = true → fld (waW 7 1) 20 2 = 3 → (twS (waW 7 1) { : Core }).rev2 = true) ∧
    (((twS (waW 7 1) { : Core }).core 63).events &&& BitVec.ofNat 3 (fld (waW 7 1) 16 3) = (0 : BitVec 3)) ∧
    (bit (BitVec.ofNat 3 (fld (waW 7 1) 16 3)) 1 = true) :=
  ⟨tileOf (by decide), by decide, by decide, by decide, by decide⟩

theorem meets_TimedWaits_10 :
    (((twS (waW 7 1) { : Core }).core 63).wakeMsg = none) :=
  by decide

theorem meets_DeadlockDetector_1 :
    ((dlS false).sch.dlEn = false) :=
  by decide

theorem meets_DeadlockDetector_2 :
    ((dlS true).sch.dlEn = true) ∧
    ((dlS true).quiet = true) :=
  ⟨by decide, by decide⟩

theorem meets_DeadlockDetector_4 :
    ({ (dlS true) with sch.signals := [sgn 63 3 2] : State }.sch.signals ≠ []) :=
  by decide

theorem meets_DeadlockDetector_5 :
    (3 < 4) ∧
    ((63 / 16 : ℕ) = 3) ∧
    ({ (dlS true) with cores := [(63, { phase := CorePhase.running, job := some 5 : Core })] : State }.dieUp 3 = true) ∧
    (({ (dlS true) with cores := [(63, { phase := CorePhase.running, job := some 5 : Core })] : State }.core 63).phase = CorePhase.running) ∧
    (({ (dlS true) with cores := [(63, { phase := CorePhase.running, job := some 5 : Core })] : State }.core 63).waitsQuietly = false) :=
  by and_intros <;> decide

theorem meets_DeadlockDetector_6 :
    (fld (4278190335 : BitVec 32) 8 16 = 0) :=
  by decide

theorem meets_DeadlockDetector_7 :
    (fld (256 : BitVec 32) 8 16 ≠ 0) :=
  by decide

def runningItk : State := { t1 with itk.run := some { cmd := 1, cls := .background, elig := 0 } }
def ret3 (s : State) : State := { s with dies := [(3, { bridge := .retrain, power := .on })] }
def lostDie (s : State) : State := { s with dies := [] }
def savHJ : Job := { savJ with saved := some { job := some 5 } }
def savXJ : Job := { savJ with slotAddr := 0x500000 }
def savXd : Deny := ((sdS (sgn 62 15 2) savXJ).saveDeny savXJ.tenant (savXJ.slotAddr + 0x140 + 4 * 15) 4 true).getD { code := 0 }
def swFull : State := { swD [] with cores := [(63, { phase := .running, job := some 5, codeBase := 0x100, codeLen := 64, pc := 5, sync := [(3, 8)], wait := some swU })] }
def twIdle : State := twS (twW 2 0) { wakeMsg := some (9, true) }

theorem meets_DeadlockDetector_8 :
    let s : State := ret3 t1
    let d : ℕ := 3
    (d < 4) ∧
    (s.dieHeld d = true) :=
  ⟨by decide, by decide⟩

theorem meets_DeadlockDetector_9 :
    let s : State := runningItk
    s.itk.run ≠ none :=
  by decide

theorem meets_SyncWaits_8 :
    let s : State := swFull
    let k : Fin 64 := 63
    let w : W128 := swW 8 9
    let u : Wait := swU
    let d : W32 := 9
    ((s.core k.val).wait = some u) ∧
    (u.op = 97) ∧
    (u.deadline = some d) ∧
    ((s.core k.val).phase = CorePhase.running) ∧
    (u.word = w) ∧
    (fld w 64 16 ≤ BitVec.toNat (tget 0 (s.core k.val).sync (fld w 16 5))) :=
  by and_intros <;> decide

theorem meets_SyncWaits_9 :
    let s : State := swD []
    let k : Fin 64 := 63
    let w : W128 := swW 8 9
    let u : Wait := swU
    let d : W32 := 9
    ((s.core k.val).wait = some u) ∧
    (u.op = 97) ∧
    (u.deadline = some d) ∧
    ((s.core k.val).phase = CorePhase.running) ∧
    (u.word = w) ∧
    (BitVec.toNat (tget 0 (s.core k.val).sync (fld w 16 5)) < fld w 64 16) :=
  by and_intros <;> decide

theorem meets_SyncWaits_10 :
    let s : State := swD []
    let k : Fin 64 := 63
    let w : W128 := swW 8 9
    let u : Wait := swU
    let d : W32 := 9
    ((s.core k.val).wait = some u) ∧
    (u.op = 97) ∧
    (u.deadline = some d) ∧
    ((s.core k.val).phase = CorePhase.running) ∧
    (u.word = w) ∧
    (BitVec.toNat (tget 0 (s.core k.val).sync (fld w 16 5)) < fld w 64 16) ∧
    (s.sch.signals = []) :=
  by and_intros <;> decide

theorem meets_TimedWaits_11 :
    let s : State := twM (twW 2 0) 98
    let k : Fin 64 := 63
    let w : W128 := twW 2 0
    let late : ℕ := 9
    let skipped : Bool := true
    let u : Wait := twU (twW 2 0) 98
    ((s.core k.val).wakeMsg = some (late, skipped)) ∧
    (s.dieHeld (k.val / 16) = false) ∧
    ((s.core k.val).phase = CorePhase.running) ∧
    ((s.core k.val).wait = some u) ∧
    (u.op = 98) ∧
    (u.word = w) :=
  by and_intros <;> decide

theorem meets_TimedWaits_12 :
    let s : State := twM (waW 7 1) 99
    let k : Fin 64 := 63
    let w : W128 := waW 7 1
    let late : ℕ := 9
    let skipped : Bool := true
    let u : Wait := twU (waW 7 1) 99
    ((s.core k.val).wakeMsg = some (late, skipped)) ∧
    (s.dieHeld (k.val / 16) = false) ∧
    ((s.core k.val).phase = CorePhase.running) ∧
    ((s.core k.val).wait = some u) ∧
    (u.op = 99) ∧
    (u.word = w) ∧
    (bit w 17 = true) ∧
    ((s.core k.val).events = 0) :=
  by and_intros <;> decide

theorem meets_TimedWaits_13 :
    let s : State := ret3 (twM (twW 2 0) 98)
    let k : Fin 64 := 63
    let late : ℕ := 9
    let skipped : Bool := true
    ((s.core k.val).wakeMsg = some (late, skipped)) ∧
    (s.dieHeld (k.val / 16) = true) :=
  ⟨by decide, by decide⟩

theorem meets_TimedWaits_14 :
    let s : State := twIdle
    let k : Fin 64 := 63
    let late : ℕ := 9
    let skipped : Bool := true
    ((s.core k.val).wakeMsg = some (late, skipped)) ∧
    (s.dieHeld (k.val / 16) = false) ∧
    ((s.core k.val).phase = CorePhase.running) ∧
    ((s.core k.val).wait = none) :=
  ⟨by decide, by decide, by decide, by decide⟩

theorem meets_TimedWaits_15 :
    let s : State := twIdle
    let k : Fin 64 := 63
    let late : ℕ := 9
    let skipped : Bool := true
    (s.core k.val).wakeMsg = some (late, skipped) :=
  by decide

def twNow : State := { twS (waW 2 1) { pc := 5 } with dies := [(3, { bridge := .up, power := .on, sfcCopy := 200 })] }
def g0 : Signal := sgn 63 20 1
def gHere : Signal := { g0 with src := 16 }
def gNode : Signal := { g0 with node := some 1 }
def gConf : Signal := { gNode with conf := true }
def sUp (g : Signal) : State := { sdS g progJob with slk.ports := [(0, { st := .up })] }
def two : State := { sdS g0 progJob with sch.signals := [g0, g0] }
def toss (g : Signal) (s : State) : State := { s with sch.signals := s.sch.signals.filter (fun x => x != g) }
def gNo : Signal := sgn 61 3 1
def gNoF : Signal := { gNo with src := 17, core := 62, tenant := 2 }
def epJob : Job := { progJob with epoch := some 3 }
def gEp : Signal := { g0 with epoch := some 4 }
def downDie (s : State) : State := { s with dies := [(0, { bridge := .up, power := .on })] }

theorem meets_TimedWaits_16 :
    let s : State := (twS (waW 5 1) { events := (2 : BitVec 3) : Core })
    let k : Fin 64 := 63
    let w : W128 := (waW 5 1)
    (TileAt s k.val w 99) ∧
    (BitVec.ofNat 3 (fld w 16 3) ≠ 0) ∧
    (bit (BitVec.ofNat 3 (fld w 16 3)) 1 = true → fld w 20 2 = 3 → s.rev2 = true) ∧
    ((s.core k.val).events &&& BitVec.ofNat 3 (fld w 16 3) = 0) ∧
    (bit (BitVec.ofNat 3 (fld w 16 3)) 1 = false) :=
  ⟨tileOf (by decide +kernel), by decide +kernel, by decide +kernel, by decide +kernel, by decide +kernel⟩

theorem meets_TimedWaits_17 :
    let s : State := (twS (waW 7 1) { : Core })
    let k : Fin 64 := 63
    let w : W128 := (waW 7 1)
    (TileAt s k.val w 99) ∧
    (BitVec.ofNat 3 (fld w 16 3) ≠ 0) ∧
    (bit (BitVec.ofNat 3 (fld w 16 3)) 1 = true → fld w 20 2 = 3 → s.rev2 = true) ∧
    ((s.core k.val).events &&& BitVec.ofNat 3 (fld w 16 3) = 0) ∧
    (bit (BitVec.ofNat 3 (fld w 16 3)) 1 = true) ∧
    ((if fld w 20 2 = 2 then Timebase.clc else if fld w 20 2 = 3 then Timebase.mpc else Timebase.sfc) = Timebase.sfc → s.reachedNow (if fld w 20 2 = 2 then Timebase.clc else if fld w 20 2 = 3 then Timebase.mpc else Timebase.sfc) (Owner.core k.val) ((0 + BitVec.toNat (tget 0 (s.core k.val).a (fld w 24 4)) + BitVec.toNat w / 2 ^ 64) % match if fld w 20 2 = 2 then Timebase.clc else if fld w 20 2 = 3 then Timebase.mpc else Timebase.sfc with | Timebase.sfc => 2 ^ 48 | Timebase.clc => 2 ^ 32 | Timebase.mpc => 2 ^ 48) = false) :=
  ⟨tileOf (by decide +kernel), by decide +kernel, by decide +kernel, by decide +kernel, by decide +kernel, by decide +kernel⟩

theorem meets_SyncWaits_11 :
    let s : State := swD [{ sgn 63 3 1 with src := 62 }]
    let k : Fin 64 := 63
    let w : W128 := swW 8 9
    let u : Wait := swU
    let d : W32 := 9
    let j : ℕ := 5
    let y : Job := progJob
    let g : Signal := { sgn 63 3 1 with src := 62 }
    let e1 := tget 0 (s.core k.val).sync (fld w 16 5)
    ((s.core k.val).wait = some u) ∧
    (u.op = 97) ∧
    (u.deadline = some d) ∧
    ((s.core k.val).phase = CorePhase.running) ∧
    (u.word = w) ∧
    (BitVec.toNat e1 < fld w 64 16) ∧
    ((s.core k.val).job = some j) ∧
    (s.job j = some y) ∧
    (y.st = JobSt.running k.val) ∧
    (s.sch.signals = [g]) ∧
    (g.target = none) ∧
    (g.epoch = none ∨ y.epoch = g.epoch) ∧
    (g.node = none) ∧
    (g.cell = fld w 16 5) ∧
    (g.core = k.val) ∧
    (g.tenant = y.tenant) ∧
    (s.dieUp (k.val / 16) = true) ∧
    (s.sigHeld g = false) ∧
    ((s.core k.val).loops = []) ∧
    (fld w 64 16 ≤ BitVec.toNat e1 + g.v) ∧
    (BitVec.toNat e1 + g.v ≤ 4294967295) :=
  ⟨by decide +kernel, by decide +kernel, by decide +kernel, by decide +kernel, by decide +kernel, by decide +kernel, by decide +kernel, by decide +kernel, by decide +kernel, by decide +kernel, by decide +kernel, by decide +kernel, by decide +kernel, by decide +kernel, by decide +kernel, by decide +kernel, by decide +kernel, by decide +kernel, by decide +kernel, by decide +kernel, by decide +kernel⟩

theorem meets_TimedWaits_18 :
    let s : State := twNow
    let k : Fin 64 := 63
    let w : W128 := waW 2 1
    (TileAt s k.val w 99) ∧
    (BitVec.ofNat 3 (fld w 16 3) ≠ 0) ∧
    (bit (BitVec.ofNat 3 (fld w 16 3)) 1 = true → fld w 20 2 = 3 → s.rev2 = true) ∧
    ((s.core k.val).events &&& BitVec.ofNat 3 (fld w 16 3) = 0) ∧
    (bit (BitVec.ofNat 3 (fld w 16 3)) 1 = true) ∧
    ((if fld w 20 2 = 2 then Timebase.clc else if fld w 20 2 = 3 then Timebase.mpc else Timebase.sfc) = Timebase.sfc) ∧
    (s.reachedNow (if fld w 20 2 = 2 then Timebase.clc else if fld w 20 2 = 3 then Timebase.mpc else Timebase.sfc) (Owner.core k.val) ((0 + BitVec.toNat (tget 0 (s.core k.val).a (fld w 24 4)) + BitVec.toNat w / 2 ^ 64) % match if fld w 20 2 = 2 then Timebase.clc else if fld w 20 2 = 3 then Timebase.mpc else Timebase.sfc with | Timebase.sfc => 2 ^ 48 | Timebase.clc => 2 ^ 32 | Timebase.mpc => 2 ^ 48) = true) :=
  ⟨tileOf (by decide +kernel), by decide +kernel, by decide +kernel, by decide +kernel, by decide +kernel, by decide +kernel, by decide +kernel⟩

theorem meets_SignalDelivery_1 :
    let s : State := sdS g0 progJob
    let k : ℕ := 1
    s.sch.signals[k]? = none :=
  by decide +kernel

theorem meets_SignalDelivery_2 :
    let s : State := two
    let k : ℕ := 1
    let g : Signal := g0
    (s.sch.signals[k]? = some g) ∧
    (g.target ≠ none ∨ (∃ h ∈ List.take k s.sch.signals, h.target = none ∧ h.src = g.src ∧ h.core = g.core ∧ h.cell = g.cell ∧ h.node = g.node) ∨ s.sigHeld g = true) :=
  ⟨by decide +kernel, by decide +kernel⟩

theorem meets_SignalDelivery_3 :
    let s : State := sdS g0 progJob
    let k : ℕ := 0
    let g : Signal := g0
    (s.sch.signals[k]? = some g) ∧
    (g.target = none) ∧
    (¬∃ h ∈ List.take k s.sch.signals, h.target = none ∧ h.src = g.src ∧ h.core = g.core ∧ h.cell = g.cell ∧ h.node = g.node) ∧
    (s.sigHeld g = false) ∧
    (g.node = none) :=
  ⟨by decide +kernel, by decide +kernel, by decide +kernel, by decide +kernel, by decide +kernel⟩

theorem meets_SignalDelivery_4 :
    let s : State := sdS gConf progJob
    let k : ℕ := 0
    let g : Signal := gConf
    let n : BitVec 6 := 1
    (s.sch.signals[k]? = some g) ∧
    (g.target = none) ∧
    (¬∃ h ∈ List.take k s.sch.signals, h.target = none ∧ h.src = g.src ∧ h.core = g.core ∧ h.cell = g.cell ∧ h.node = g.node) ∧
    (s.sigHeld g = false) ∧
    (g.node = some n) ∧
    (g.conf = true) ∧
    (s.key.rackTrusted = false) :=
  ⟨by decide +kernel, by decide +kernel, by decide +kernel, by decide +kernel, by decide +kernel, by decide +kernel, by decide +kernel⟩

theorem meets_SignalDelivery_5 :
    let s : State := sUp gNode
    let k : ℕ := 0
    let g : Signal := gNode
    let n : BitVec 6 := 1
    (s.sch.signals[k]? = some g) ∧
    (g.target = none) ∧
    (¬∃ h ∈ List.take k s.sch.signals, h.target = none ∧ h.src = g.src ∧ h.core = g.core ∧ h.cell = g.cell ∧ h.node = g.node) ∧
    (s.sigHeld g = false) ∧
    (g.node = some n) ∧
    (g.conf = false ∨ s.key.rackTrusted = true) ∧
    (∃ t : State, State.sendTo n.toNat 1 g.tenant g.conf (sigPayload g.core g.cell g.v) { s with sch := { s.sch with signals := s.sch.signals.eraseIdx k } } = some t) :=
  ⟨by decide +kernel, by decide +kernel, by decide +kernel, by decide +kernel, by decide +kernel, by decide +kernel, by exact Option.isSome_iff_exists.mp (by decide +kernel)⟩

theorem meets_SignalDelivery_6 :
    let s : State := sdS gNode progJob
    let k : ℕ := 0
    let g : Signal := gNode
    let n : BitVec 6 := 1
    (s.sch.signals[k]? = some g) ∧
    (g.target = none) ∧
    (¬∃ h ∈ List.take k s.sch.signals, h.target = none ∧ h.src = g.src ∧ h.core = g.core ∧ h.cell = g.cell ∧ h.node = g.node) ∧
    (s.sigHeld g = false) ∧
    (g.node = some n) ∧
    (g.conf = false ∨ s.key.rackTrusted = true) ∧
    (State.sendTo n.toNat 1 g.tenant g.conf (sigPayload g.core g.cell g.v) { s with sch := { s.sch with signals := s.sch.signals.eraseIdx k } } = none) :=
  ⟨by decide +kernel, by decide +kernel, by decide +kernel, by decide +kernel, by decide +kernel, by decide +kernel, by decide +kernel⟩

theorem meets_SignalDelivery_7 :
    let s : State := ret3 (sdS { gNo with core := 5 } progJob)
    let g : Signal := { gNo with core := 5 }
    let rest : List Signal := []
    (s.sch.signals = g :: rest) ∧
    (g.target = none) ∧
    (g.node = none) ∧
    (s.sigHeld g = true) :=
  ⟨by decide +kernel, by decide +kernel, by decide +kernel, by decide +kernel⟩

theorem meets_SignalDelivery_8 :
    let s : State := ret3 (sdS { gNo with core := 5 } progJob)
    let g : Signal := { gNo with core := 5 }
    let rest : List Signal := []
    (s.sch.signals = g :: rest) ∧
    (g.target = none) ∧
    (g.node = none) ∧
    (s.dieHeld (g.src / 16) = true) ∧
    (s.sigTarget g.core g.tenant = none) ∧
    (g.core / 16 ≠ g.src / 16) :=
  ⟨by decide +kernel, by decide +kernel, by decide +kernel, by decide +kernel, by decide +kernel, by decide +kernel⟩

theorem meets_SignalDelivery_9 :
    let s : State := sdS gNo progJob
    let g : Signal := gNo
    let rest : List Signal := []
    (s.sch.signals = g :: rest) ∧
    (g.target = none) ∧
    (g.node = none) ∧
    (s.sigHeld g = false) ∧
    (s.sigTarget g.core g.tenant = none) :=
  ⟨by decide +kernel, by decide +kernel, by decide +kernel, by decide +kernel, by decide +kernel⟩

theorem meets_SignalDelivery_10 :
    let s : State := sdS gEp epJob
    let g : Signal := gEp
    let rest : List Signal := []
    let j : ℕ := 5
    let x : Job := epJob
    (s.sch.signals = g :: rest) ∧
    (g.target = none) ∧
    (g.node = none) ∧
    (s.sigHeld g = false) ∧
    (s.sigTarget g.core g.tenant = some j) ∧
    (s.job j = some x) ∧
    (g.epoch ≠ none ∧ x.epoch ≠ g.epoch ∨ x.st = JobSt.waiting) :=
  ⟨by decide +kernel, by decide +kernel, by decide +kernel, by decide +kernel, by decide +kernel, by decide +kernel, by decide +kernel⟩

theorem meets_SignalDelivery_11 :
    let s : State := downDie (sdS g0 progJob)
    let g : Signal := g0
    let rest : List Signal := []
    let j : ℕ := 5
    let x : Job := progJob
    let c : ℕ := 63
    (s.sch.signals = g :: rest) ∧
    (g.target = none) ∧
    (g.node = none) ∧
    (s.sigHeld g = false) ∧
    (s.sigTarget g.core g.tenant = some j) ∧
    (s.job j = some x) ∧
    (g.epoch = none ∨ x.epoch = g.epoch) ∧
    (x.st = JobSt.running c ∨ x.st = JobSt.saving c) ∧
    (s.dieUp (c / 16) = false) :=
  ⟨by decide +kernel, by decide +kernel, by decide +kernel, by decide +kernel, by decide +kernel, by decide +kernel, by decide +kernel, by decide +kernel, by decide +kernel⟩

theorem meets_SignalDelivery_12 :
    let s : State := sdS g0 progJob
    let g : Signal := g0
    let rest : List Signal := []
    let j : ℕ := 5
    let x : Job := progJob
    let c : ℕ := 63
    (s.sch.signals = g :: rest) ∧
    (g.target = none) ∧
    (g.node = none) ∧
    (s.sigHeld g = false) ∧
    (s.sigTarget g.core g.tenant = some j) ∧
    (s.job j = some x) ∧
    (g.epoch = none ∨ x.epoch = g.epoch) ∧
    (x.st = JobSt.running c ∨ x.st = JobSt.saving c) ∧
    (s.dieUp (c / 16) = true) :=
  ⟨by decide +kernel, by decide +kernel, by decide +kernel, by decide +kernel, by decide +kernel, by decide +kernel, by decide +kernel, by decide +kernel, by decide +kernel⟩

theorem meets_SignalDelivery_13 :
    let s : State := sdS g0 progJob
    let g : Signal := g0
    let rest : List Signal := []
    let j : ℕ := 5
    let x : Job := progJob
    let c : ℕ := 63
    (s.sch.signals = g :: rest) ∧
    (g.target = none) ∧
    (g.node = none) ∧
    (s.sigHeld g = false) ∧
    (s.sigTarget g.core g.tenant = some j) ∧
    (s.job j = some x) ∧
    (g.epoch = none ∨ x.epoch = g.epoch) ∧
    (x.st = JobSt.running c ∨ x.st = JobSt.saving c) ∧
    (s.dieUp (c / 16) = true) ∧
    ((s.core c).wait = none) :=
  ⟨by decide +kernel, by decide +kernel, by decide +kernel, by decide +kernel, by decide +kernel, by decide +kernel, by decide +kernel, by decide +kernel, by decide +kernel, by decide +kernel⟩

theorem meets_SignalDelivery_14 :
    let s : State := sdS (sgn 62 16 2) savJ
    let g : Signal := sgn 62 16 2
    let rest : List Signal := []
    let j : ℕ := 5
    let x : Job := savJ
    (s.sch.signals = g :: rest) ∧
    (g.target = none) ∧
    (g.node = none) ∧
    (s.sigHeld g = false) ∧
    (s.sigTarget g.core g.tenant = some j) ∧
    (s.job j = some x) ∧
    (g.epoch = none ∨ x.epoch = g.epoch) ∧
    (x.st = JobSt.saved) ∧
    (16 ≤ g.cell) :=
  ⟨by decide +kernel, by decide +kernel, by decide +kernel, by decide +kernel, by decide +kernel, by decide +kernel, by decide +kernel, by decide +kernel, by decide +kernel⟩

theorem meets_SignalDelivery_15 :
    let s : State := sdS (sgn 62 15 2) savHJ
    let g : Signal := sgn 62 15 2
    let rest : List Signal := []
    let j : ℕ := 5
    let x : Job := savHJ
    let y : Core := { job := some 5 }
    let i : ℕ := 5
    (s.sch.signals = g :: rest) ∧
    (g.target = none) ∧
    (g.node = none) ∧
    (s.sigHeld g = false) ∧
    (s.sigTarget g.core g.tenant = some j) ∧
    (s.job j = some x) ∧
    (g.epoch = none ∨ x.epoch = g.epoch) ∧
    (x.st = JobSt.saved) ∧
    (g.cell < 16) ∧
    (x.saved = some y) ∧
    (y.job = some i) :=
  ⟨by decide +kernel, by decide +kernel, by decide +kernel, by decide +kernel, by decide +kernel, by decide +kernel, by decide +kernel, by decide +kernel, by decide +kernel, by decide +kernel, by decide +kernel⟩

theorem meets_SignalDelivery_16 :
    let s : State := sdS (sgn 62 15 2) savXJ
    let g : Signal := sgn 62 15 2
    let rest : List Signal := []
    let j : ℕ := 5
    let x : Job := savXJ
    let q : Deny := savXd
    (s.sch.signals = g :: rest) ∧
    (g.target = none) ∧
    (g.node = none) ∧
    (s.sigHeld g = false) ∧
    (s.sigTarget g.core g.tenant = some j) ∧
    (s.job j = some x) ∧
    (g.epoch = none ∨ x.epoch = g.epoch) ∧
    (x.st = JobSt.saved) ∧
    (g.cell < 16) ∧
    (∀ (y : Core), x.saved = some y → y.job = none) ∧
    (s.saveDeny x.tenant (x.slotAddr + 320 + 4 * g.cell) 4 true = some q) :=
  ⟨by decide +kernel, by decide +kernel, by decide +kernel, by decide +kernel, by decide +kernel, by decide +kernel, by decide +kernel, by decide +kernel, by decide +kernel, by decide +kernel, by decide +kernel⟩

theorem meets_SignalDelivery_17 :
    let s : State := sdS (sgn 62 15 2) savJ
    let g : Signal := sgn 62 15 2
    let rest : List Signal := []
    let j : ℕ := 5
    let x : Job := savJ
    (s.sch.signals = g :: rest) ∧
    (g.target = none) ∧
    (g.node = none) ∧
    (s.sigHeld g = false) ∧
    (s.sigTarget g.core g.tenant = some j) ∧
    (s.job j = some x) ∧
    (g.epoch = none ∨ x.epoch = g.epoch) ∧
    (x.st = JobSt.saved) ∧
    (g.cell < 16) ∧
    (∀ (y : Core), x.saved = some y → y.job = none) ∧
    (s.saveDeny x.tenant (x.slotAddr + 320 + 4 * g.cell) 4 true = none) :=
  ⟨by decide +kernel, by decide +kernel, by decide +kernel, by decide +kernel, by decide +kernel, by decide +kernel, by decide +kernel, by decide +kernel, by decide +kernel, by decide +kernel, by decide +kernel⟩

theorem meets_SignalDelivery_18 :
    let s : State := sdS (sgn 62 20 2) resJ
    let g : Signal := sgn 62 20 2
    let rest : List Signal := []
    let j : ℕ := 5
    let x : Job := resJ
    let c : ℕ := 63
    (s.sch.signals = g :: rest) ∧
    (g.target = none) ∧
    (g.node = none) ∧
    (s.sigHeld g = false) ∧
    (s.sigTarget g.core g.tenant = some j) ∧
    (s.job j = some x) ∧
    (g.epoch = none ∨ x.epoch = g.epoch) ∧
    (x.st = JobSt.restoring c) :=
  ⟨by decide +kernel, by decide +kernel, by decide +kernel, by decide +kernel, by decide +kernel, by decide +kernel, by decide +kernel, by decide +kernel⟩

end Part14

namespace Part15

theorem dm0 (s : State) (a : Nat) (h : a < 0x1C00000) (g : 0x1000000 ≤ a) : s.region a = .dm 0 := by
  have h1 : ¬ a < 0x400000 := by omega
  have h2 : ¬ (dormBase ≤ a ∧ a < dormBase + 0x80000) := by show ¬ (0x800000 ≤ a ∧ a < 0x800000 + 0x80000); omega
  have h3 : 0x1000000 ≤ a ∧ a < 0x5000000 ∧ a % 0x1000000 < dmSize := by show _ ∧ _ ∧ a % 0x1000000 < 0xC00000; omega
  have h4 : a / 0x1000000 - 1 = 0 := by omega
  unfold State.region
  rw [if_neg h1, if_neg h2, if_pos h3, h4]
/-- TOPK with k = 2 over one row of four BF16 values (tensor formats: 8 is BF16, 5 is INT32). -/
def tens (a f r d0 : Nat) : List Byte := toLe 8 a ++ toLe 1 f ++ toLe 1 r ++ toLe 2 0 ++ toLe 4 d0 ++ toLe 4 1 ++ toLe 4 1 ++ toLe 4 1 ++ toLe 4 0
def topk (y : Nat) : List Byte :=
  toLe 2 0x0113 ++ toLe 1 3 ++ toLe 1 0 ++ toLe 1 4 ++ toLe 1 0 ++ toLe 2 8 ++ toLe 8 0 ++ tens 0x1000 8 1 4 ++ tens y 8 1 2 ++ tens 0x3000 5 1 2 ++
  toLe 8 2
def rop (b : List Byte) : Cmd := { id := 1, sq := 0, op := 0x0040, tag := 7, tenant := 1, cls := .interactive, cq := 0, params := b }
def ropS (b : List Byte) : State := hold (rop b) (up t1)
def topkL : List Byte := topk 0x2000 ++ [0]
def setB (b : List Byte) (i v : Nat) : List Byte := b.set i (BitVec.ofNat 8 v)
def mm : OpBlk := { id := 0x0100, nt := 3, ns := 0, maxCores := 1, flags := 0, attrLen := 16, attrs := List.replicate 16 0, stages := [], tensors := [⟨0x1000, 1, 2, 0, 2, 2, 1, 1, 0⟩, ⟨0x2000, 1, 2, 0, 2, 2, 1, 1, 0⟩, ⟨0x3000, 5, 2, 0, 2, 2, 1, 1, 0⟩] }
def mmGeo : Geo := { b := 1, h := 1, w := 2, c := 2, dom := 0, slide := false, pro := true, k := 2, arows := 2, first := 3 }
def vs : List FV := [ofI 3, .nan, ofI 7, .inf true, ofI 3, .inf false]
def opJ : Job := { kind := .op 1 0, tenant := 1, cls := .interactive, elig := 1, st := .running 63, windows := ten.windows }
def oeS (b : List Byte) (l : Tbl (Option Job)) : State :=
  { hold { rop b with phase := .running } (up t1) with
    jobs := l, cores := [(63, { phase := .running, job := some 5 })],
    mem := mwrite [] 0x1000 (toLe 2 0x3F80 ++ toLe 2 0x4040 ++ toLe 2 0xC000 ++ toLe 2 0x4040) }
def oeC (b : List Byte) : Cmd := { rop b with phase := .running }
def oeBad : List Byte := setB (setB (topk 0x2000) 0 0) 1 4
def oeG : State := oeS (topk 0x2000) [(5, some opJ)]
def oeTwo : State := { oeS (topk 0x500000) [(5, some opJ), (6, some { opJ with kind := .op 1 1, st := .running 48 })] with
  cores := [(48, { phase := .running, job := some 6 }), (63, { phase := .running, job := some 5 })] }
theorem oeSome : (oeG.opOut opJ.agent (oeC (topk 0x2000))).isSome = true := by decide
def poolB (base np fmt d : Nat) : List Byte :=
  bytes 32 [(0, 8, base), (8, 8, 0x1002000), (16, 4, np), (20, 1, fmt), (21, 1, 1), (22, 2, d), (24, 2, 2), (26, 2, 1), (29, 1, 1)] ++ [0] ++ List.replicate 63 0xFF
def kvT : Tenant := { ten with windows := [{ perm := 7, base := 0, limit := 1024 }, { perm := 7, base := 0x1000, limit := 0x1004 }] }
def kc (op : Nat) (b : List Byte) : Cmd := { id := 1, sq := 0, op := op, tag := 7, tenant := 1, cls := .interactive, cq := 0, params := b }
def kvS (c : Cmd) : State := hold c { up t1 with tenants := [(1, some kvT)] }
def mkP : Cmd := kc 0x50 (poolB 0x1000000 2 6 8)
def mkB : Cmd := kc 0x50 (poolB 0x1000020 2 6 8)
def mkW : Cmd := kc 0x50 (poolB 0x1004000 2 6 8)
def pl : Pool := mkP.poolOf
def full : State := { kvS mkP with pools := (List.range 256).map (fun i => (i, some pl)) }
def dsC (h : Nat) : Cmd := kc 0x51 (bytes 8 [(0, 2, h)])
def dsS (c : Cmd) (p : Pool) : State := ({ kvS c with pools := [(3, some p)] }).devWrite pl.ctrl pl.fresh
def dsA : State := (dsS (dsC 3) pl).kvW (pl.seqAt 1 + 4) 1 5
def sqC (oper q src len : Nat) : Cmd := kc 0x52 (bytes 16 [(0, 1, oper), (2, 2, 3), (4, 2, q), (6, 2, src), (8, 4, len)])
/-- Sequence 0 in use with `len` positions in page 0 and `tl` tentative ones. -/
def sqS (c : Cmd) (len tl : Nat) : State :=
  (((((dsS c pl).kvW (pl.seqAt 0) 4 len).kvW (pl.seqAt 0 + 4) 1 tl).kvW (pl.seqAt 0 + 5) 1 1).kvW (pl.pt 0 0 0) 4 (kvWord 0)).kvW (pl.ent 0 + 4) 2 1
def S0 : Cmd := sqC 0 0 0 0
def S1 : Cmd := sqC 0 1 0 0
def S2 : Cmd := sqC 1 0 1 0
def S3 : Cmd := sqC 1 1 0 10
def S4 : Cmd := sqC 1 1 0 9
def S5 : Cmd := sqC 2 1 0 0
def S6 : Cmd := sqC 2 0 0 0
def S7 : Cmd := sqC 3 1 0 0
def S8 (n : Nat) : Cmd := sqC 3 0 0 n
def S9 (q : Nat) : Cmd := sqC 4 q 0 0
/-- Page 1 with a reference count, pins and a state. -/
def pgS (ref pins st : Nat) : State := (((dsS mkP pl).kvW (pl.ent 1 + 4) 2 ref).kvW (pl.ent 1 + 6) 2 pins).kvW (pl.ent 1 + 8) 1 st
def emS : State := (dsS mkP pl).kvW pl.ctrl 4 0xFFFFFFFF
def alS : State := dsS mkP pl

theorem meets_RunOp_1 :
    (Ready (ropS (topk 8192)) (rop (topk 8192)) 64) ∧
    (checkRunOp (ropS (topk 8192)) (rop (topk 8192)) = none) ∧
    ((rop (topk 8192)).epoch = none) ∧
    (∀ x ∈ opBlocks (rop (topk 8192)).params, x.id ≠ 1024) :=
  ⟨readyOf (by decide), by decide, by decide, by decide⟩

theorem meets_RunOp_2 :
    (Ready (ropS (topk 8192)) (rop (topk 8192)) 64) ∧
    (1 ≤ leAt (rop (topk 8192)).params 4 1) :=
  ⟨readyOf (by decide), by decide⟩

theorem meets_RunOp_3 :
    (Ready (ropS topkL) (rop topkL) 64) ∧
    ((rop topkL).params.length ≠ opLen (rop topkL).params) :=
  ⟨readyOf (by decide), by decide⟩

theorem meets_RunOp_4 :
    (Ready (ropS (topk 5242880)) (rop (topk 5242880)) 64) ∧
    (opBlocksOk (rop (topk 5242880)).params = true) ∧
    (∀ e ∈ opLinks (rop (topk 5242880)).params, (ropS (topk 5242880)).attnRefusal (rop (topk 5242880)) e.1 = none) ∧
    (∃ e ∈ opLinks (rop (topk 5242880)).params, ∃ r ∈ e.1.outRanges, (ropS (topk 5242880)).paramOk (rop (topk 5242880)).tenant 1 r = false) :=
  ⟨readyOf (by decide), by decide, by decide, by decide⟩

theorem meets_OperatorBlocks_1 :
    (16 < leAt (setB (topk 8192) 2 17) 2 1) :=
  by decide

theorem meets_OperatorBlocks_2 :
    (zerosAt (setB (topk 8192) 15 1) 8 8 = false) :=
  by decide

theorem meets_OperatorBlocks_3 :
    (0 < leAt (setB (topk 8192) 24 11) 2 1) ∧
    (10 < leAt (setB (topk 8192) 24 11) (16 + 32 * 0 + 8) 1 ∧ leAt (setB (topk 8192) 24 11) (16 + 32 * 0 + 8) 1 ≠ 255) :=
  ⟨by decide, by decide⟩

theorem meets_OperatorBlocks_4 :
    (∀ n ∈ [256, 257, 272, 273, 274, 275, 512, 513, 514, 515, 528, 529, 544, 545, 560, 561, 768, 769, 770, 1024, 1280, 1281, 1282, 1283], leAt (setB (topk 8192) 0 20) 0 2 ≠ n) ∧
    (leAt (setB (topk 8192) 0 20) 5 1 = 0) :=
  ⟨by decide, by decide⟩

theorem meets_MatrixAndRows_3 :
    (FV.nan ∈ [ofI (1 : ℤ), FV.nan]) ∧
    (FV.nan ∈ softmaxRow [ofI (1 : ℤ), FV.nan]) :=
  ⟨by decide, by decide⟩

theorem meets_MatrixAndRows_4 :
    (∀ y ∈ [FV.inf true, FV.inf true], y = FV.inf true) ∧
    (FV.fin false 0 (0 : ℤ) ∈ softmaxRow [FV.inf true, FV.inf true]) :=
  ⟨by decide, by decide⟩

theorem meets_MatrixAndRows_5 :
    (4 ≤ vs.length) :=
  by decide

theorem meets_KvPools_2 :
    (Ready (kvS mkB) mkB 80) ∧
    (leAt mkB.params 0 8 % 64 ≠ 0) :=
  ⟨readyOf (by decide), by decide⟩

theorem meets_KvPools_3 :
    (Ready (kvS mkW) mkW 80) ∧
    ((kvS mkW).poolOk mkW = true) ∧
    ((kvS mkW).paramRw mkW.tenant mkW.poolOf.base (mkW.poolOf.npages * mkW.poolOf.pb) = false) :=
  ⟨readyOf (by decide), by decide, by decide⟩

theorem meets_KvPools_4 :
    (Ready full mkP 80) ∧
    (full.poolOk mkP = true) ∧
    (full.paramRw mkP.tenant mkP.poolOf.base (mkP.poolOf.npages * mkP.poolOf.pb) = true) ∧
    (full.paramRw mkP.tenant mkP.poolOf.ctrl mkP.poolOf.ctrlLen = true) ∧
    (mkP.poolOf.spread = 0) ∧
    (freeIndex full.pools 256 = none) :=
  ⟨readyOf (by decide), by and_intros <;> decide⟩

theorem meets_KvPools_5 :
    (1 ≤ pl.npages) ∧
    (pl.npages ≤ 65536) :=
  ⟨by decide, by decide⟩

theorem meets_KvPools_6 :
    (Ready (dsS (dsC 2) pl) (dsC 2) 81) ∧
    ((dsC 2).params.length = 8) ∧
    (zerosAt (dsC 2).params 2 6 = true) ∧
    ((dsS (dsC 2) pl).pool (leAt (dsC 2).params 0 2) = none) :=
  ⟨readyOf (by decide), by decide, by decide, by decide⟩

theorem meets_KvPools_7 :
    (Ready (dsS (dsC 3) { pl with tenant := 2 : Pool }) (dsC 3) 81) ∧
    ((dsC 3).params.length = 8) ∧
    (zerosAt (dsC 3).params 2 6 = true) ∧
    ((dsS (dsC 3) { pl with tenant := 2 : Pool }).pool (leAt (dsC 3).params 0 2) = some { pl with tenant := 2 : Pool }) ∧
    ({ pl with tenant := 2 : Pool }.tenant ≠ (dsC 3).tenant) :=
  ⟨readyOf (by decide), by decide, by decide, by decide, by decide⟩

theorem meets_KvPools_8 :
    (Ready dsA (dsC 3) 81) ∧
    ((dsC 3).params.length = 8) ∧
    (zerosAt (dsC 3).params 2 6 = true) ∧
    (dsA.pool (leAt (dsC 3).params 0 2) = some pl) ∧
    (pl.tenant = (dsC 3).tenant) ∧
    (dsA.kvLost pl = false) ∧
    (∃ q < pl.maxSeq, dsA.seqTlen pl q ≠ 0) :=
  ⟨readyOf (by decide), by decide, by decide, by decide, by decide, by decide, ⟨1, by decide⟩⟩

theorem meets_KvPools_9 :
    (Ready (dsS (dsC 3) pl) (dsC 3) 81) ∧
    ((dsC 3).params.length = 8) ∧
    (zerosAt (dsC 3).params 2 6 = true) ∧
    ((dsS (dsC 3) pl).pool (leAt (dsC 3).params 0 2) = some pl) ∧
    (pl.tenant = (dsC 3).tenant) ∧
    ((dsS (dsC 3) pl).kvLost pl = false) ∧
    ((dsS (dsC 3) pl).poolBusy (leAt (dsC 3).params 0 2) = false) ∧
    (∀ q < pl.maxSeq, (dsS (dsC 3) pl).seqTlen pl q = 0) :=
  ⟨readyOf (by decide), by and_intros <;> decide⟩

theorem meets_KvSequences_1 :
    (Ready (sqS S0 9 0) S0 82) ∧
    ((sqS S0 9 0).poolFor S0.tenant (leAt S0.params 2 2) = some pl) ∧
    ((sqS S0 9 0).kvLost pl = false) ∧
    (pl.spread = 0) ∧
    (S0.params.length = 16) ∧
    (zerosAt S0.params 1 1 = true) ∧
    (zerosAt S0.params 12 4 = true) ∧
    (leAt S0.params 4 2 < pl.maxSeq) ∧
    (leAt S0.params 6 2 < pl.maxSeq) ∧
    ((begun (sqS S0 9 0) S0).saveDeny S0.tenant pl.ctrl pl.ctrlLen true = none) ∧
    (leAt S0.params 0 1 = 0) ∧
    (leAt S0.params 6 2 = 0) ∧
    (leAt S0.params 8 4 = 0) ∧
    ((sqS S0 9 0).seqUsed pl (leAt S0.params 4 2) = true) :=
  ⟨readyOf (by decide), by and_intros <;> decide⟩

theorem meets_KvSequences_2 :
    (Ready (sqS S1 9 0) S1 82) ∧
    ((sqS S1 9 0).poolFor S1.tenant (leAt S1.params 2 2) = some pl) ∧
    ((sqS S1 9 0).kvLost pl = false) ∧
    (pl.spread = 0) ∧
    (S1.params.length = 16) ∧
    (zerosAt S1.params 1 1 = true) ∧
    (zerosAt S1.params 12 4 = true) ∧
    (leAt S1.params 4 2 < pl.maxSeq) ∧
    (leAt S1.params 6 2 < pl.maxSeq) ∧
    ((begun (sqS S1 9 0) S1).saveDeny S1.tenant pl.ctrl pl.ctrlLen true = none) ∧
    (leAt S1.params 0 1 = 0) ∧
    (leAt S1.params 6 2 = 0) ∧
    (leAt S1.params 8 4 = 0) ∧
    ((sqS S1 9 0).seqUsed pl (leAt S1.params 4 2) = false) :=
  ⟨readyOf (by decide), by and_intros <;> decide⟩

theorem meets_KvSequences_3 :
    (Ready (sqS S2 9 0) S2 82) ∧
    ((sqS S2 9 0).poolFor S2.tenant (leAt S2.params 2 2) = some pl) ∧
    ((sqS S2 9 0).kvLost pl = false) ∧
    (pl.spread = 0) ∧
    (S2.params.length = 16) ∧
    (zerosAt S2.params 1 1 = true) ∧
    (zerosAt S2.params 12 4 = true) ∧
    (leAt S2.params 4 2 < pl.maxSeq) ∧
    (leAt S2.params 6 2 < pl.maxSeq) ∧
    ((begun (sqS S2 9 0) S2).saveDeny S2.tenant pl.ctrl pl.ctrlLen true = none) ∧
    (leAt S2.params 0 1 = 1) ∧
    ((sqS S2 9 0).seqUsed pl (leAt S2.params 6 2) = false) :=
  ⟨readyOf (by decide), by and_intros <;> decide⟩

theorem meets_KvSequences_4 :
    (Ready (sqS S3 9 0) S3 82) ∧
    ((sqS S3 9 0).poolFor S3.tenant (leAt S3.params 2 2) = some pl) ∧
    ((sqS S3 9 0).kvLost pl = false) ∧
    (pl.spread = 0) ∧
    (S3.params.length = 16) ∧
    (zerosAt S3.params 1 1 = true) ∧
    (zerosAt S3.params 12 4 = true) ∧
    (leAt S3.params 4 2 < pl.maxSeq) ∧
    (leAt S3.params 6 2 < pl.maxSeq) ∧
    ((begun (sqS S3 9 0) S3).saveDeny S3.tenant pl.ctrl pl.ctrlLen true = none) ∧
    (leAt S3.params 0 1 = 1) ∧
    ((sqS S3 9 0).seqUsed pl (leAt S3.params 6 2) = true) ∧
    ((sqS S3 9 0).seqLen pl (leAt S3.params 6 2) < leAt S3.params 8 4) :=
  ⟨readyOf (by decide), by and_intros <;> decide⟩

theorem meets_KvSequences_5 :
    (Ready (sqS S4 9 0) S4 82) ∧
    ((sqS S4 9 0).poolFor S4.tenant (leAt S4.params 2 2) = some pl) ∧
    ((sqS S4 9 0).kvLost pl = false) ∧
    (pl.spread = 0) ∧
    (S4.params.length = 16) ∧
    (zerosAt S4.params 1 1 = true) ∧
    (zerosAt S4.params 12 4 = true) ∧
    (leAt S4.params 4 2 < pl.maxSeq) ∧
    (leAt S4.params 6 2 < pl.maxSeq) ∧
    ((begun (sqS S4 9 0) S4).saveDeny S4.tenant pl.ctrl pl.ctrlLen true = none) ∧
    (leAt S4.params 0 1 = 1) ∧
    ((sqS S4 9 0).seqUsed pl (leAt S4.params 6 2) = true) ∧
    ((sqS S4 9 0).seqUsed pl (leAt S4.params 4 2) = false) ∧
    (leAt S4.params 8 4 ≤ (sqS S4 9 0).seqLen pl (leAt S4.params 6 2)) ∧
    ((fun v => (∀ a ∈ pl.apps, v ∉ a.2) ∧ (sqS S4 9 0).seqTlen pl v = 0) (leAt S4.params 6 2)) :=
  ⟨readyOf (by decide), by and_intros <;> decide⟩

theorem meets_KvSequences_6 :
    (Ready (sqS S4 9 1) S4 82) ∧
    ((sqS S4 9 1).poolFor S4.tenant (leAt S4.params 2 2) = some pl) ∧
    ((sqS S4 9 1).kvLost pl = false) ∧
    (pl.spread = 0) ∧
    (S4.params.length = 16) ∧
    (zerosAt S4.params 1 1 = true) ∧
    (zerosAt S4.params 12 4 = true) ∧
    (leAt S4.params 4 2 < pl.maxSeq) ∧
    (leAt S4.params 6 2 < pl.maxSeq) ∧
    ((begun (sqS S4 9 1) S4).saveDeny S4.tenant pl.ctrl pl.ctrlLen true = none) ∧
    (leAt S4.params 0 1 = 1) ∧
    ((sqS S4 9 1).seqUsed pl (leAt S4.params 6 2) = true) ∧
    ((sqS S4 9 1).seqUsed pl (leAt S4.params 4 2) = false) ∧
    (leAt S4.params 8 4 ≤ (sqS S4 9 1).seqLen pl (leAt S4.params 6 2)) ∧
    (¬(fun v => (∀ a ∈ pl.apps, v ∉ a.2) ∧ (sqS S4 9 1).seqTlen pl v = 0) (leAt S4.params 6 2)) :=
  ⟨readyOf (by decide), by and_intros <;> decide⟩

theorem meets_KvSequences_7 :
    (Ready (sqS S5 9 1) S5 82) ∧
    ((sqS S5 9 1).poolFor S5.tenant (leAt S5.params 2 2) = some pl) ∧
    ((sqS S5 9 1).kvLost pl = false) ∧
    (pl.spread = 0) ∧
    (S5.params.length = 16) ∧
    (zerosAt S5.params 1 1 = true) ∧
    (zerosAt S5.params 12 4 = true) ∧
    (leAt S5.params 4 2 < pl.maxSeq) ∧
    (leAt S5.params 6 2 < pl.maxSeq) ∧
    ((begun (sqS S5 9 1) S5).saveDeny S5.tenant pl.ctrl pl.ctrlLen true = none) ∧
    (leAt S5.params 0 1 = 2) ∧
    (leAt S5.params 6 2 = 0) ∧
    (leAt S5.params 8 4 = 0) ∧
    ((sqS S5 9 1).seqUsed pl (leAt S5.params 4 2) = false) :=
  ⟨readyOf (by decide), by and_intros <;> decide⟩

theorem meets_KvSequences_8 :
    (Ready (sqS S6 9 1) S6 82) ∧
    ((sqS S6 9 1).poolFor S6.tenant (leAt S6.params 2 2) = some pl) ∧
    ((sqS S6 9 1).kvLost pl = false) ∧
    (pl.spread = 0) ∧
    (S6.params.length = 16) ∧
    (zerosAt S6.params 1 1 = true) ∧
    (zerosAt S6.params 12 4 = true) ∧
    (leAt S6.params 4 2 < pl.maxSeq) ∧
    (leAt S6.params 6 2 < pl.maxSeq) ∧
    ((begun (sqS S6 9 1) S6).saveDeny S6.tenant pl.ctrl pl.ctrlLen true = none) ∧
    (leAt S6.params 0 1 = 2) ∧
    (leAt S6.params 6 2 = 0) ∧
    (leAt S6.params 8 4 = 0) ∧
    ((sqS S6 9 1).seqUsed pl (leAt S6.params 4 2) = true) ∧
    (¬(fun v => (∀ a ∈ pl.apps, v ∉ a.2) ∧ (sqS S6 9 1).seqTlen pl v = 0) (leAt S6.params 4 2)) :=
  ⟨readyOf (by decide), by and_intros <;> decide⟩

theorem meets_KvSequences_9 :
    (Ready (sqS S6 9 0) S6 82) ∧
    ((sqS S6 9 0).poolFor S6.tenant (leAt S6.params 2 2) = some pl) ∧
    ((sqS S6 9 0).kvLost pl = false) ∧
    (pl.spread = 0) ∧
    (S6.params.length = 16) ∧
    (zerosAt S6.params 1 1 = true) ∧
    (zerosAt S6.params 12 4 = true) ∧
    (leAt S6.params 4 2 < pl.maxSeq) ∧
    (leAt S6.params 6 2 < pl.maxSeq) ∧
    ((begun (sqS S6 9 0) S6).saveDeny S6.tenant pl.ctrl pl.ctrlLen true = none) ∧
    (leAt S6.params 0 1 = 2) ∧
    (leAt S6.params 6 2 = 0) ∧
    (leAt S6.params 8 4 = 0) ∧
    ((sqS S6 9 0).seqUsed pl (leAt S6.params 4 2) = true) ∧
    ((fun v => (∀ a ∈ pl.apps, v ∉ a.2) ∧ (sqS S6 9 0).seqTlen pl v = 0) (leAt S6.params 4 2)) :=
  ⟨readyOf (by decide), by and_intros <;> decide⟩

theorem meets_KvSequences_10 :
    (Ready (sqS S7 9 0) S7 82) ∧
    ((sqS S7 9 0).poolFor S7.tenant (leAt S7.params 2 2) = some pl) ∧
    ((sqS S7 9 0).kvLost pl = false) ∧
    (pl.spread = 0) ∧
    (S7.params.length = 16) ∧
    (zerosAt S7.params 1 1 = true) ∧
    (zerosAt S7.params 12 4 = true) ∧
    (leAt S7.params 4 2 < pl.maxSeq) ∧
    (leAt S7.params 6 2 < pl.maxSeq) ∧
    ((begun (sqS S7 9 0) S7).saveDeny S7.tenant pl.ctrl pl.ctrlLen true = none) ∧
    (leAt S7.params 0 1 = 3) ∧
    (leAt S7.params 6 2 = 0) ∧
    ((sqS S7 9 0).seqUsed pl (leAt S7.params 4 2) = false) :=
  ⟨readyOf (by decide), by and_intros <;> decide⟩

theorem meets_KvSequences_11 :
    (Ready (sqS (S8 10) 9 0) (S8 10) 82) ∧
    ((sqS (S8 10) 9 0).poolFor (S8 10).tenant (leAt (S8 10).params 2 2) = some pl) ∧
    ((sqS (S8 10) 9 0).kvLost pl = false) ∧
    (pl.spread = 0) ∧
    ((S8 10).params.length = 16) ∧
    (zerosAt (S8 10).params 1 1 = true) ∧
    (zerosAt (S8 10).params 12 4 = true) ∧
    (leAt (S8 10).params 4 2 < pl.maxSeq) ∧
    (leAt (S8 10).params 6 2 < pl.maxSeq) ∧
    ((begun (sqS (S8 10) 9 0) (S8 10)).saveDeny (S8 10).tenant pl.ctrl pl.ctrlLen true = none) ∧
    (leAt (S8 10).params 0 1 = 3) ∧
    (leAt (S8 10).params 6 2 = 0) ∧
    ((sqS (S8 10) 9 0).seqUsed pl (leAt (S8 10).params 4 2) = true) ∧
    ((sqS (S8 10) 9 0).seqLen pl (leAt (S8 10).params 4 2) < leAt (S8 10).params 8 4) :=
  ⟨readyOf (by decide), by and_intros <;> decide⟩

theorem meets_KvSequences_12 :
    (Ready (sqS (S8 9) 9 1) (S8 9) 82) ∧
    ((sqS (S8 9) 9 1).poolFor (S8 9).tenant (leAt (S8 9).params 2 2) = some pl) ∧
    ((sqS (S8 9) 9 1).kvLost pl = false) ∧
    (pl.spread = 0) ∧
    ((S8 9).params.length = 16) ∧
    (zerosAt (S8 9).params 1 1 = true) ∧
    (zerosAt (S8 9).params 12 4 = true) ∧
    (leAt (S8 9).params 4 2 < pl.maxSeq) ∧
    (leAt (S8 9).params 6 2 < pl.maxSeq) ∧
    ((begun (sqS (S8 9) 9 1) (S8 9)).saveDeny (S8 9).tenant pl.ctrl pl.ctrlLen true = none) ∧
    (leAt (S8 9).params 0 1 = 3) ∧
    (leAt (S8 9).params 6 2 = 0) ∧
    ((sqS (S8 9) 9 1).seqUsed pl (leAt (S8 9).params 4 2) = true) ∧
    (leAt (S8 9).params 8 4 ≤ (sqS (S8 9) 9 1).seqLen pl (leAt (S8 9).params 4 2)) ∧
    (¬(fun v => (∀ a ∈ pl.apps, v ∉ a.2) ∧ (sqS (S8 9) 9 1).seqTlen pl v = 0) (leAt (S8 9).params 4 2)) :=
  ⟨readyOf (by decide), by and_intros <;> decide⟩

theorem meets_KvSequences_13 :
    (Ready (sqS (S8 9) 9 0) (S8 9) 82) ∧
    ((sqS (S8 9) 9 0).poolFor (S8 9).tenant (leAt (S8 9).params 2 2) = some pl) ∧
    ((sqS (S8 9) 9 0).kvLost pl = false) ∧
    (pl.spread = 0) ∧
    ((S8 9).params.length = 16) ∧
    (zerosAt (S8 9).params 1 1 = true) ∧
    (zerosAt (S8 9).params 12 4 = true) ∧
    (leAt (S8 9).params 4 2 < pl.maxSeq) ∧
    (leAt (S8 9).params 6 2 < pl.maxSeq) ∧
    ((begun (sqS (S8 9) 9 0) (S8 9)).saveDeny (S8 9).tenant pl.ctrl pl.ctrlLen true = none) ∧
    (leAt (S8 9).params 0 1 = 3) ∧
    (leAt (S8 9).params 6 2 = 0) ∧
    ((sqS (S8 9) 9 0).seqUsed pl (leAt (S8 9).params 4 2) = true) ∧
    (leAt (S8 9).params 8 4 ≤ (sqS (S8 9) 9 0).seqLen pl (leAt (S8 9).params 4 2)) ∧
    ((fun v => (∀ a ∈ pl.apps, v ∉ a.2) ∧ (sqS (S8 9) 9 0).seqTlen pl v = 0) (leAt (S8 9).params 4 2)) :=
  ⟨readyOf (by decide), by and_intros <;> decide⟩

theorem meets_KvSequences_14 :
    (Ready (sqS (S9 1) 9 0) (S9 1) 82) ∧
    ((sqS (S9 1) 9 0).poolFor (S9 1).tenant (leAt (S9 1).params 2 2) = some pl) ∧
    ((sqS (S9 1) 9 0).kvLost pl = false) ∧
    (pl.spread = 0) ∧
    ((S9 1).params.length = 16) ∧
    (zerosAt (S9 1).params 1 1 = true) ∧
    (zerosAt (S9 1).params 12 4 = true) ∧
    (leAt (S9 1).params 4 2 < pl.maxSeq) ∧
    (leAt (S9 1).params 6 2 < pl.maxSeq) ∧
    ((begun (sqS (S9 1) 9 0) (S9 1)).saveDeny (S9 1).tenant pl.ctrl pl.ctrlLen true = none) ∧
    (leAt (S9 1).params 0 1 = 4) ∧
    (leAt (S9 1).params 6 2 = 0) ∧
    (leAt (S9 1).params 8 4 = 0) ∧
    ((sqS (S9 1) 9 0).seqUsed pl (leAt (S9 1).params 4 2) = false) :=
  ⟨readyOf (by decide), by and_intros <;> decide⟩

theorem meets_KvSequences_15 :
    (Ready (sqS (S9 0) 9 0) (S9 0) 82) ∧
    ((sqS (S9 0) 9 0).poolFor (S9 0).tenant (leAt (S9 0).params 2 2) = some pl) ∧
    ((sqS (S9 0) 9 0).kvLost pl = false) ∧
    (pl.spread = 0) ∧
    ((S9 0).params.length = 16) ∧
    (zerosAt (S9 0).params 1 1 = true) ∧
    (zerosAt (S9 0).params 12 4 = true) ∧
    (leAt (S9 0).params 4 2 < pl.maxSeq) ∧
    (leAt (S9 0).params 6 2 < pl.maxSeq) ∧
    ((begun (sqS (S9 0) 9 0) (S9 0)).saveDeny (S9 0).tenant pl.ctrl pl.ctrlLen true = none) ∧
    (leAt (S9 0).params 0 1 = 4) ∧
    (leAt (S9 0).params 6 2 = 0) ∧
    (leAt (S9 0).params 8 4 = 0) ∧
    ((sqS (S9 0) 9 0).seqUsed pl (leAt (S9 0).params 4 2) = true) :=
  ⟨readyOf (by decide), by and_intros <;> decide⟩

theorem meets_KvPages_1 :
    (1 < pl.npages) ∧
    (pl.npages ≤ 65536) ∧
    (∀ i < pl.ctrlLen, ∃ d, (pgS 2 0 1).region (pl.ctrl + i) = Region.dm d) ∧
    (1 < (pgS 2 0 1).kvR (pl.ent 1 + 4) 2) :=
  ⟨by decide, by decide, fun i h => ⟨0, dm0 _ _ (by have : i < 352 := h; show 0x1002000 + i < 0x1C00000; omega) (by show 0x1000000 ≤ 0x1002000 + i; omega)⟩, by decide⟩

theorem meets_KvPages_2 :
    (1 < pl.npages) ∧
    (pl.npages ≤ 65536) ∧
    (∀ i < pl.ctrlLen, ∃ d, (pgS 1 0 1).region (pl.ctrl + i) = Region.dm d) ∧
    ((pgS 1 0 1).kvR (pl.ent 1 + 4) 2 = 1) ∧
    ((pgS 1 0 1).kvR (pl.ent 1 + 6) 2 = 0) :=
  ⟨by decide, by decide, fun i h => ⟨0, dm0 _ _ (by have : i < 352 := h; show 0x1002000 + i < 0x1C00000; omega) (by show 0x1000000 ≤ 0x1002000 + i; omega)⟩, by decide, by decide⟩

theorem meets_KvPages_3 :
    (1 < pl.npages) ∧
    (pl.npages ≤ 65536) ∧
    (∀ i < pl.ctrlLen, ∃ d, (pgS 1 2 1).region (pl.ctrl + i) = Region.dm d) ∧
    ((pgS 1 2 1).kvR (pl.ent 1 + 4) 2 = 1) ∧
    ((pgS 1 2 1).kvR (pl.ent 1 + 6) 2 ≠ 0) :=
  ⟨by decide, by decide, fun i h => ⟨0, dm0 _ _ (by have : i < 352 := h; show 0x1002000 + i < 0x1C00000; omega) (by show 0x1000000 ≤ 0x1002000 + i; omega)⟩, by decide, by decide⟩

theorem meets_KvPages_4 :
    (1 < pl.npages) ∧
    (pl.npages ≤ 65536) ∧
    (∀ i < pl.ctrlLen, ∃ d, (pgS 0 1 3).region (pl.ctrl + i) = Region.dm d) ∧
    ((pgS 0 1 3).kvR (pl.ent 1 + 6) 2 = 1) ∧
    ((pgS 0 1 3).kvR (pl.ent 1 + 8) 1 = 3) :=
  ⟨by decide, by decide, fun i h => ⟨0, dm0 _ _ (by have : i < 352 := h; show 0x1002000 + i < 0x1C00000; omega) (by show 0x1000000 ≤ 0x1002000 + i; omega)⟩, by decide, by decide⟩

theorem meets_KvPages_5 :
    (1 < pl.npages) ∧
    (pl.npages ≤ 65536) ∧
    (∀ i < pl.ctrlLen, ∃ d, (pgS 0 2 3).region (pl.ctrl + i) = Region.dm d) ∧
    (1 < (pgS 0 2 3).kvR (pl.ent 1 + 6) 2) :=
  ⟨by decide, by decide, fun i h => ⟨0, dm0 _ _ (by have : i < 352 := h; show 0x1002000 + i < 0x1C00000; omega) (by show 0x1000000 ≤ 0x1002000 + i; omega)⟩, by decide⟩

theorem meets_KvPages_6 :
    (1 < pl.npages) ∧
    (pl.npages ≤ 65536) ∧
    (∀ i < pl.ctrlLen, ∃ d, (pgS 1 0 1).region (pl.ctrl + i) = Region.dm d) ∧
    ((pgS 1 0 1).kvR (pl.ent 1 + 6) 2 < 65535) :=
  ⟨by decide, by decide, fun i h => ⟨0, dm0 _ _ (by have : i < 352 := h; show 0x1002000 + i < 0x1C00000; omega) (by show 0x1000000 ≤ 0x1002000 + i; omega)⟩, by decide⟩

theorem meets_KvPages_7 :
    (1 < pl.npages) ∧
    (pl.npages ≤ 65536) ∧
    (∀ i < pl.ctrlLen, ∃ d, emS.region (pl.ctrl + i) = Region.dm d) ∧
    (emS.kvR pl.ctrl 4 = 4294967295) :=
  ⟨by decide, by decide, fun i h => ⟨0, dm0 _ _ (by have : i < 352 := h; show 0x1002000 + i < 0x1C00000; omega) (by show 0x1000000 ≤ 0x1002000 + i; omega)⟩, by decide⟩

theorem meets_KvPages_8 :
    (0 < pl.npages) ∧
    (pl.npages ≤ 65536) ∧
    (∀ i < pl.ctrlLen, ∃ d, alS.region (pl.ctrl + i) = Region.dm d) ∧
    (alS.kvR pl.ctrl 4 = 0) ∧
    (0 < alS.kvR (pl.ctrl + 4) 4) ∧
    (2 < 256) ∧
    (255 < 256) ∧
    (4294967295 < 2 ^ 32) :=
  ⟨by decide, by decide, fun i h => ⟨0, dm0 _ _ (by have : i < 352 := h; show 0x1002000 + i < 0x1C00000; omega) (by show 0x1000000 ≤ 0x1002000 + i; omega)⟩, by and_intros <;> decide⟩

def oeF : Option Deny × Nat := (oeTwo.opFaults opJ.agent (oeC (topk 0x500000))).headD (none, 0)
def oeE : Deny := oeF.1.getD { code := 0 }
def tens2 (a f r d0 d1 : Nat) : List Byte := toLe 8 a ++ toLe 1 f ++ toLe 1 r ++ toLe 2 0 ++ toLe 4 d0 ++ toLe 4 d1 ++ toLe 4 1 ++ toLe 4 1 ++ toLe 4 0
def mmT : List Byte := toLe 2 0x0100 ++ toLe 1 4 ++ toLe 1 1 ++ toLe 1 4 ++ toLe 1 0 ++ toLe 2 16 ++ toLe 8 0 ++ tens2 0x1000 1 2 2 2 ++ tens2 0x2000 1 2 2 2 ++ tens2 0x3000 10 2 2 2 ++ tens2 0x4000 0xFF 1 16 1 ++ (toLe 4 0 ++ toLe 4 3 ++ toLe 8 0) ++ (toLe 4 0 ++ toLe 4 1 ++ toLe 8 0)
def mmTS : State := { ropS mmT with mem := [(0x4008, 64)] }
def mmTe : OpBlk × Link := (parseBlk mmT, none)

theorem meets_RunOp_5 :
    let s : State := ropS (topk 0x500000)
    let c : Cmd := rop (topk 0x500000)
    (Ready s c 64) ∧
    (opBlocksOk c.params = true) ∧
    (∀ e ∈ opLinks c.params, s.attnRefusal c e.1 = none) ∧
    (∀ e ∈ opLinks c.params, (∀ r ∈ e.1.tableRanges, s.paramOk c.tenant 0 r = true) → e.1.tablesOk s.devRead e.2 = true) ∧
    ((∃ e ∈ opLinks c.params, ∃ r ∈ e.1.inRanges, s.paramOk c.tenant 0 r = false) ∨ ∃ e ∈ opLinks c.params, ∃ r ∈ e.1.outRanges, s.paramOk c.tenant 1 r = false) :=
  ⟨readyOf (by decide), by decide, by decide, by decide, by decide⟩

theorem meets_RunOp_6 :
    let s : State := mmTS
    let c : Cmd := rop mmT
    let e : OpBlk × Link := mmTe
    (Ready s c 64) ∧
    (e ∈ opLinks c.params) ∧
    (opBlocksOk c.params = true) ∧
    (∀ e ∈ opLinks c.params, s.attnRefusal c e.1 = none) ∧
    (∀ r ∈ e.1.tableRanges, s.paramOk c.tenant 0 r = true) ∧
    (e.1.tablesOk s.devRead e.2 = false) :=
  ⟨readyOf (by decide), by and_intros <;> decide⟩

def t4 (a f r d0 d1 d2 d3 : Nat) : List Byte := toLe 8 a ++ toLe 1 f ++ toLe 1 r ++ toLe 2 0 ++ toLe 4 d0 ++ toLe 4 d1 ++ toLe 4 d2 ++ toLe 4 d3 ++ toLe 4 0
def stT (a : Nat) : List Byte := toLe 2 0x0100 ++ toLe 1 5 ++ toLe 1 1 ++ toLe 1 1 ++ toLe 1 0 ++ toLe 2 16 ++ toLe 8 0 ++ t4 0x1000 8 2 2 2 1 1 ++ t4 0x2000 8 2 2 2 1 1 ++ t4 0x3000 1 2 2 2 1 1 ++ t4 0x4000 0xA 1 16 1 1 1 ++ t4 a 0xFF 1 16 1 1 1 ++ (toLe 1 8 ++ toLe 1 0 ++ toLe 1 0 ++ toLe 1 4 ++ toLe 4 3 ++ toLe 4 4 ++ toLe 4 0) ++ bytes 16 [(4, 4, 1)]
def kst (c : Cmd) : State := hold c { up t1 with tenants := [(1, some kvT)] }
def ropE (b : List Byte) : Cmd := { rop b with epoch := some 3 }
def ept (s : State) (st : EpSt) (n : Nat) : State := { s with epochs := [(3, { st := st, tenant := 1, limit := n, number := 5 })] }
def atB (fl h : Nat) : List Byte := toLe 2 0x0400 ++ toLe 1 7 ++ toLe 1 0 ++ toLe 1 1 ++ toLe 1 0 ++ toLe 2 8 ++ toLe 8 0 ++ t4 0x1000 8 4 8 1 1 1 ++ t4 0x2000 8 (if fl = 2 then 4 else 0) 8 1 1 1 ++ t4 0x2100 8 (if fl = 2 then 4 else 0) 8 1 1 1 ++ t4 0x3000 8 4 8 1 1 1 ++ t4 0x4000 5 1 1 1 1 1 ++ t4 0x4100 5 1 1 1 1 1 ++ t4 0x4200 5 1 1 1 1 1 ++ bytes 8 [(0, 2, h), (2, 1, fl)]
def atC (fl h : Nat) : Cmd := rop (atB fl h)
def atX (fl h : Nat) : OpBlk := parseBlk (atB fl h)
def atS (c : Cmd) (p : Pool) : State := dsS c p
def atLost (s : State) : State := { s with dies := [(0, { bridge := .lost, power := .on }), (3, { bridge := .up, power := .on })] }
def plS : Pool := { pl with spread := 1, nodes := [0, 1], share := 4 }
def plB : Pool := { pl with d := 16 }
def slk0 (s : State) : State := { s with slk.ports := [(0, { st := .up })] }
def cnfS (s : State) : State := { s with key.slots := [(1, { valid := true, conf := true, key := 4 })], memc.trained := true, build.lpddrGib := 8 }
def poolL (ctrl : Nat) : List Byte := bytes 32 [(0, 8, 0x1000000), (8, 8, ctrl), (16, 4, 2), (20, 1, 6), (21, 1, 1), (22, 2, 8), (24, 2, 2), (26, 2, 1), (29, 1, 1)] ++ [0] ++ List.replicate 63 0xFF
def mkL : Cmd := kc 0x50 (poolL lpddrBase)
def kvTL : Tenant := { kvT with windows := kvT.windows ++ [{ perm := 7, base := lpddrBase / 4096, limit := lpddrBase / 4096 + 16 }] }
def mkLS : State := { cnfS (kvS mkL) with tenants := [(1, some kvTL)] }
def poolSp : List Byte := bytes 32 [(0, 8, 0x1000000), (8, 8, 0x1002000), (16, 4, 2), (20, 1, 6), (21, 1, 1), (22, 2, 8), (24, 2, 2), (26, 2, 1), (28, 1, 1), (29, 1, 2)] ++ [0, 1] ++ List.replicate 62 0xFF
def mkSp : Cmd := kc 0x50 poolSp
def dsL : Cmd := kc 0x51 (bytes 8 [(0, 2, 3), (7, 1, 1)])
def dsE : State := { dsS (dsC 3) pl with epochs := [(7, { st := .opened, tenant := 1, seqs := [(3, 1), (4, 0)] })] }
def sqL (c : Cmd) : State := atLost (sqS c 9 0)
def sqP (c : Cmd) (len tl : Nat) (p : Pool) : State := { sqS c len tl with pools := [(3, some p)] }
def S2x : Cmd := sqC 1 1 1 0
def S3x : Cmd := sqC 1 0 0 10
def S5x : Cmd := sqC 5 0 0 0
def S1s : State := { (sqS S1 9 0) with pools := [(3, some { pl with ctrl := 0x2002000 })] }
def oeShC : Cmd := { oeC (topk 0x2000) with shares := [{ node := 1, ans := some (0, []) }, { node := 2, ans := some (263, []) }] }
def oeSh : State := { oeG with cmds := [oeShC] }

theorem meets_KvPools_10 :
    let s : State := (kvS mkP)
    let c : Cmd := mkP
    (Ready s c 80) ∧
    (checkPoolCreate s c = none) ∧
    (s.poolPeers c.poolOf = []) ∧
    ((begun s c).saveDeny c.tenant c.poolOf.ctrl c.poolOf.ctrlLen true = none) ∧
    (∃ h : ℕ, freeIndex s.pools 256 = some h) :=
  ⟨readyOf (by decide +kernel), by decide +kernel, by decide +kernel, by decide +kernel, by exact ⟨_, rfl⟩⟩

theorem meets_OperatorEnds_6 :
    let s : State := oeTwo
    let k : Fin 64 := 63
    let j : ℕ := 5
    let id : ℕ := 1
    let x : Job := opJ
    let i : ℕ := 0
    let tie : Option (Fin 64) := (some 48)
    let s0 : State := oeTwo
    let c : Cmd := (oeC (topk 0x500000))
    let q : ℕ := 48
    ((s.core k.val).job = some j) ∧
    (s.job j = some x) ∧
    (x.kind = JobKind.op id i) ∧
    ((s.core k.val).phase = CorePhase.running ∧ s0 = s ∨ (s.core k.val).phase = CorePhase.saving ∧ s0 = s.tie) ∧
    (s.stopped k.val = false) ∧
    (s0.cmd id = some c) ∧
    (s0.opHeld k.val c = false) ∧
    (∀ e ∈ c.shares, e.ans ≠ none) ∧
    (∀ h ∈ c.shares, ∃ d, h.ans = some (0, d)) ∧
    (s0.opFaults x.agent c ≠ []) ∧
    (∃ m : ℕ, s0.opTie k.val id tie = some (q, m)) :=
  ⟨by decide +kernel, by decide +kernel, by decide +kernel, by decide +kernel, by decide +kernel, by decide +kernel, by decide +kernel, by decide +kernel, by intro y h; exact absurd h List.not_mem_nil, by decide +kernel, by exact ⟨_, rfl⟩⟩

theorem meets_OperatorEnds_7 :
    let s : State := oeTwo
    let k : Fin 64 := 63
    let j : ℕ := 5
    let id : ℕ := 1
    let x : Job := opJ
    let i : ℕ := 0
    let s0 : State := oeTwo
    let c : Cmd := (oeC (topk 0x500000))
    let d : Option Deny × ℕ := oeF
    ((s.core k.val).job = some j) ∧
    (s.job j = some x) ∧
    (x.kind = JobKind.op id i) ∧
    ((s.core k.val).phase = CorePhase.running ∧ s0 = s ∨ (s.core k.val).phase = CorePhase.saving ∧ s0 = s.tie) ∧
    (s.stopped k.val = false) ∧
    (s0.cmd id = some c) ∧
    (s0.opHeld k.val c = false) ∧
    (∀ e ∈ c.shares, e.ans ≠ none) ∧
    (∀ h ∈ c.shares, ∃ d, h.ans = some (0, d)) ∧
    (d ∈ s0.opFaults x.agent c) ∧
    (∃ e : Deny, d.1 = some e) :=
  ⟨by decide +kernel, by decide +kernel, by decide +kernel, by decide +kernel, by decide +kernel, by decide +kernel, by decide +kernel, by decide +kernel, by intro y h; exact absurd h List.not_mem_nil, by decide +kernel, by exact ⟨_, rfl⟩⟩

theorem meets_RunOp_7 :
    let s : State := (ropS (topk 8192))
    let c : Cmd := (rop (topk 8192))
    (Ready s c 64) ∧
    (checkRunOp s c = none) ∧
    (s.dying c = false) ∧
    (∀ x ∈ opBlocks c.params, ¬x.id = 1024) ∧
    (∃ u : State, State.zeroRecs (going c) (begun s c) = some u) :=
  ⟨readyOf (by decide +kernel), by decide +kernel, by decide +kernel, by decide +kernel, by exact ⟨_, rfl⟩⟩

theorem meets_KvPools_11 :
    let s : State := mkLS
    let c : Cmd := mkL
    let d : Deny := ((begun mkLS mkL).saveDeny 1 mkL.poolOf.ctrl mkL.poolOf.ctrlLen true).getD { code := 0 }
    (Ready s c 80) ∧
    (checkPoolCreate s c = none) ∧
    (s.poolPeers c.poolOf = []) ∧
    ((begun s c).saveDeny c.tenant c.poolOf.ctrl c.poolOf.ctrlLen true = some d) :=
  ⟨readyOf (by decide +kernel), by decide +kernel, by decide +kernel, by decide +kernel⟩

theorem meets_KvPools_12 :
    let s : State := slk0 (kvS mkSp)
    let c : Cmd := mkSp
    (Ready s c 80) ∧
    (checkPoolCreate s c = none) ∧
    (s.poolPeers c.poolOf ≠ []) :=
  ⟨readyOf (by decide +kernel), by decide +kernel, by decide +kernel⟩

theorem meets_KvPools_13 :
    let s : State := kvS mkW
    let c : Cmd := mkW
    (Ready s c 80) ∧
    (s.poolOk c = true) ∧
    (s.paramRw c.tenant c.poolOf.base (c.poolOf.npages * c.poolOf.pb) = false ∨ s.paramRw c.tenant c.poolOf.ctrl c.poolOf.ctrlLen = false) :=
  ⟨readyOf (by decide +kernel), by decide +kernel, by decide +kernel⟩

theorem meets_KvPools_14 :
    let s : State := cnfS (kvS mkSp)
    let c : Cmd := mkSp
    (Ready s c 80) ∧
    (s.poolOk c = true) ∧
    (s.paramRw c.tenant c.poolOf.base (c.poolOf.npages * c.poolOf.pb) = true) ∧
    (s.paramRw c.tenant c.poolOf.ctrl c.poolOf.ctrlLen = true) ∧
    (s.poolPeers c.poolOf ≠ []) ∧
    (s.confidential c.tenant = true) ∧
    (s.key.rackTrusted = false) :=
  ⟨readyOf (by decide +kernel), by decide +kernel, by decide +kernel, by decide +kernel, by decide +kernel, by decide +kernel, by decide +kernel⟩

theorem meets_KvPools_15 :
    let s : State := kvS mkSp
    let c : Cmd := mkSp
    (Ready s c 80) ∧
    (s.poolOk c = true) ∧
    (s.paramRw c.tenant c.poolOf.base (c.poolOf.npages * c.poolOf.pb) = true) ∧
    (s.paramRw c.tenant c.poolOf.ctrl c.poolOf.ctrlLen = true) ∧
    (s.confidential c.tenant = false ∨ s.key.rackTrusted = true) ∧
    (∃ n ∈ s.poolPeers c.poolOf, s.route n = none) :=
  ⟨readyOf (by decide +kernel), by decide +kernel, by decide +kernel, by decide +kernel, by decide +kernel, by decide +kernel⟩

theorem meets_KvPools_16 :
    let s : State := full
    let c : Cmd := mkP
    (Ready s c 80) ∧
    (s.poolOk c = true) ∧
    (s.paramRw c.tenant c.poolOf.base (c.poolOf.npages * c.poolOf.pb) = true) ∧
    (s.paramRw c.tenant c.poolOf.ctrl c.poolOf.ctrlLen = true) ∧
    (s.poolPeers c.poolOf = []) ∧
    (freeIndex s.pools 256 = none) :=
  ⟨readyOf (by decide +kernel), by decide +kernel, by decide +kernel, by decide +kernel, by decide +kernel, by decide +kernel⟩

theorem meets_KvPools_17 :
    let s : State := kvS dsL
    let c : Cmd := dsL
    (Ready s c 81) ∧
    (c.params.length ≠ 8 ∨ zerosAt c.params 2 6 = false) :=
  ⟨readyOf (by decide +kernel), by decide +kernel⟩

theorem meets_KvPools_18 :
    let s : State := dsS (dsC 3) pl
    let c : Cmd := dsC 3
    let p : Pool := pl
    (Ready s c 81) ∧
    (c.params.length = 8) ∧
    (zerosAt c.params 2 6 = true) ∧
    (s.pool (leAt c.params 0 2) = some p) ∧
    (p.tenant = c.tenant) ∧
    (s.kvLost p = true ∨ s.poolBusy (leAt c.params 0 2) = false ∧ ∀ q < p.maxSeq, s.seqTlen p q = 0) :=
  ⟨readyOf (by decide +kernel), by decide +kernel, by decide +kernel, by decide +kernel, by decide +kernel, by decide +kernel⟩

theorem meets_KvPools_19 :
    let s : State := dsS (dsC 3) pl
    let c : Cmd := dsC 3
    let p : Pool := pl
    (Ready s c 81) ∧
    (s.pool (leAt c.params 0 2) = some p) ∧
    (s.poolPeers p = []) :=
  ⟨readyOf (by decide +kernel), by decide +kernel, by decide +kernel⟩

theorem meets_KvPools_20 :
    let s : State := dsE
    let c : Cmd := dsC 3
    let p : Pool := pl
    let e : ℕ × Epoch := (7, { st := .opened, tenant := 1, seqs := [(4, 0)] })
    let q : ℕ × ℕ := (4, 0)
    (Ready s c 81) ∧
    (s.pool (leAt c.params 0 2) = some p) ∧
    (s.poolPeers p = []) ∧
    (e ∈ (State.poolGone (leAt c.params 0 2) (begun s c)).epochs) ∧
    (q ∈ e.2.seqs) :=
  ⟨readyOf (by decide +kernel), by decide +kernel, by decide +kernel, by decide +kernel, by decide +kernel⟩

theorem meets_MatrixAndRows_6 :
    let geo : Geo := mmGeo
    let i : ℕ := 0
    let m : ℕ := 1
    let n : ℕ := 1
    (i < geo.b) ∧
    (m < geo.w) ∧
    (n < geo.c) :=
  ⟨by decide +kernel, by decide +kernel, by decide +kernel⟩

theorem meets_MatrixAndRows_7 :
    let v : List FV := [ofI 1, .inf true]
    (FV.nan ∉ v) ∧
    (∃ y ∈ v, y ≠ FV.inf true) :=
  ⟨by decide +kernel, by decide +kernel⟩

theorem meets_RunOp_8 :
    let s : State := ept (hold (ropE (topk 8192)) (up t1)) .aborting 4
    let c : Cmd := ropE (topk 8192)
    (Ready s c 64) ∧
    (checkRunOp s c = none) ∧
    (s.dying c = true) :=
  ⟨readyOf (by decide +kernel), by decide +kernel, by decide +kernel⟩

theorem meets_RunOp_9 :
    let s : State := ept (kst (ropE (stT 0x1000000))) .opened 0
    let c : Cmd := ropE (stT 0x1000000)
    let e : ℕ := 3
    (Ready s c 64) ∧
    (checkRunOp s c = none) ∧
    (s.dying c = false) ∧
    (∀ x ∈ opBlocks c.params, ¬x.id = 1024) ∧
    (c.epoch = some e) ∧
    (State.zeroRecs (going c) (begun s c) = none) :=
  ⟨readyOf (by decide +kernel), by decide +kernel, by decide +kernel, by decide +kernel, by decide +kernel, by decide +kernel⟩

theorem meets_RunOp_10 :
    let s : State := ropS (topk 8192)
    let c : Cmd := rop (topk 8192)
    (Ready s c 64) ∧
    ((going c).statRanges = []) :=
  ⟨readyOf (by decide +kernel), by decide +kernel⟩

theorem meets_RunOp_11 :
    let s : State := kst (rop (stT 0x1000000))
    let c : Cmd := rop (stT 0x1000000)
    let r : ℕ × ℕ := (0x1000000, 16)
    let d : ℕ := 0
    (Ready s c 64) ∧
    ((going c).statRanges = [r]) ∧
    (c.epoch = none) ∧
    ((begun s c).access ((begun s c).cmdAgent (going c)) 1 r.1 r.2 = none) ∧
    ((begun s c).region r.1 = Region.dm d) ∧
    ((begun s c).region (r.1 + r.2) = Region.dm d) :=
  ⟨readyOf (by decide +kernel), by decide +kernel, by decide +kernel, by decide +kernel, by decide +kernel, by decide +kernel⟩

theorem meets_RunOp_12 :
    let s : State := atLost (atS (atC 0 3) pl)
    let c : Cmd := atC 0 3
    let x : OpBlk := atX 0 3
    let p : Pool := pl
    (Ready s c 64) ∧
    (checkRunOp s c = none) ∧
    (s.dying c = false) ∧
    (List.find? (fun x => x.id == 1024) (opBlocks c.params) = some x) ∧
    (s.poolFor c.tenant (x.a 0 2) = some p) ∧
    (s.kvLost p = true) :=
  ⟨readyOf (by decide +kernel), by decide +kernel, by decide +kernel, by decide +kernel, by decide +kernel, by decide +kernel⟩

theorem meets_RunOp_13 :
    let s : State := atS (atC 0 3) plS
    let c : Cmd := atC 0 3
    let x : OpBlk := atX 0 3
    let p : Pool := plS
    (Ready s c 64) ∧
    (checkRunOp s c = none) ∧
    (s.dying c = false) ∧
    (List.find? (fun x => x.id == 1024) (opBlocks c.params) = some x) ∧
    (s.poolFor c.tenant (x.a 0 2) = some p) ∧
    (s.kvLost p = false) ∧
    (∃ n ∈ s.poolPeers p, s.route n = none) :=
  ⟨readyOf (by decide +kernel), by decide +kernel, by decide +kernel, by decide +kernel, by decide +kernel, by decide +kernel, by decide +kernel⟩

theorem meets_RunOp_14 :
    let s : State := { (atS (atC 0 3) { pl with ctrl := 0x2000000 }) with dies := [(0, { bridge := .up, power := .on }), (3, { bridge := .up, power := .on })] }
    let c : Cmd := atC 0 3
    let x : OpBlk := atX 0 3
    let p : Pool := { pl with ctrl := 0x2000000 }
    let d : Deny := ((begun (atS (atC 0 3) { pl with ctrl := 0x2000000 }) (atC 0 3)).startDeny ((begun (atS (atC 0 3) { pl with ctrl := 0x2000000 }) (atC 0 3)).cmdAgent (going (atC 0 3))) (atX 0 3) { pl with ctrl := 0x2000000 }).getD { code := 0 }
    (Ready s c 64) ∧
    (checkRunOp s c = none) ∧
    (s.dying c = false) ∧
    (List.find? (fun x => x.id == 1024) (opBlocks c.params) = some x) ∧
    (s.poolFor c.tenant (x.a 0 2) = some p) ∧
    (s.kvLost p = false) ∧
    (∀ n ∈ s.poolPeers p, s.route n ≠ none) ∧
    ((begun s c).startDeny ((begun s c).cmdAgent (going c)) x p = some d) :=
  ⟨readyOf (by decide +kernel), by decide +kernel, by decide +kernel, by decide +kernel, by decide +kernel, by decide +kernel, by decide +kernel, by decide +kernel⟩

theorem meets_RunOp_15 :
    let s : State := atS (atC 2 3) pl
    let c : Cmd := atC 2 3
    let x : OpBlk := atX 2 3
    let p : Pool := pl
    (Ready s c 64) ∧
    (checkRunOp s c = none) ∧
    (s.dying c = false) ∧
    (List.find? (fun x => x.id == 1024) (opBlocks c.params) = some x) ∧
    (s.poolFor c.tenant (x.a 0 2) = some p) ∧
    (s.kvLost p = false) ∧
    (∀ n ∈ s.poolPeers p, s.route n ≠ none) ∧
    ((begun s c).startDeny ((begun s c).cmdAgent (going c)) x p = none) ∧
    (s.poolPeers p = []) :=
  ⟨readyOf (by decide +kernel), by decide +kernel, by decide +kernel, by decide +kernel, by decide +kernel, by decide +kernel, by decide +kernel, by decide +kernel, by decide +kernel⟩

theorem meets_RunOp_16 :
    let s : State := slk0 (atS (atC 2 3) plS)
    let c : Cmd := atC 2 3
    let x : OpBlk := atX 2 3
    let p : Pool := plS
    (Ready s c 64) ∧
    (checkRunOp s c = none) ∧
    (s.dying c = false) ∧
    (List.find? (fun x => x.id == 1024) (opBlocks c.params) = some x) ∧
    (s.poolFor c.tenant (x.a 0 2) = some p) ∧
    (s.kvLost p = false) ∧
    (∀ n ∈ s.poolPeers p, s.route n ≠ none) ∧
    ((begun s c).startDeny ((begun s c).cmdAgent (going c)) x p = none) ∧
    (s.poolPeers p ≠ []) :=
  ⟨readyOf (by decide +kernel), by decide +kernel, by decide +kernel, by decide +kernel, by decide +kernel, by decide +kernel, by decide +kernel, by decide +kernel, by decide +kernel⟩

theorem meets_RunOp_17 :
    let s : State := kst (atC 0 5)
    let c : Cmd := atC 0 5
    (Ready s c 64) ∧
    (opBlocksOk c.params = true) ∧
    (∃ x ∈ opLinks c.params, x.1.id = 1024 ∧ s.poolFor c.tenant (x.1.a 0 2) = none) ∧
    (∀ x ∈ opLinks c.params, x.1.id = 1024 → s.poolFor c.tenant (x.1.a 0 2) = none) :=
  ⟨readyOf (by decide +kernel), by decide +kernel, by decide +kernel, by decide +kernel⟩

theorem meets_RunOp_18 :
    let s : State := atS (atC 0 3) plB
    let c : Cmd := atC 0 3
    let x : OpBlk := atX 0 3
    let p : Pool := plB
    (Ready s c 64) ∧
    (opBlocksOk c.params = true) ∧
    (opLinks c.params = [(x, none)]) ∧
    (x.id = 1024) ∧
    (s.poolFor c.tenant (x.a 0 2) = some p) ∧
    (x.attnPoolOk p = false ∨ c.epoch ≠ none ∧ p.spread ≠ 0 ∧ bitN (x.a 2 1) 1 = true) :=
  ⟨readyOf (by decide +kernel), by decide +kernel, by decide +kernel, by decide +kernel, by decide +kernel, by decide +kernel⟩

theorem meets_RunOp_19 :
    let s : State := { (ropS (topk 8192)) with dies := [] }
    let c : Cmd := rop (topk 8192)
    (Ready s c 64) ∧
    (opBlocksOk c.params = true) ∧
    (∀ e ∈ opLinks c.params, s.attnRefusal c e.1 = none ∧ e.1.tablesOk s.devRead e.2 = true ∧ (∀ r ∈ e.1.inRanges, s.paramOk c.tenant 0 r = true) ∧ ∀ r ∈ e.1.outRanges, s.paramOk c.tenant 1 r = true) ∧
    (s.noCore c.tenant = true) :=
  ⟨readyOf (by decide +kernel), by decide +kernel, by decide +kernel, by decide +kernel⟩

theorem meets_RunOp_20 :
    let x : OpBlk := atX 0 3
    let seqs : List ℕ := [0, 1]
    let i : ℕ := 1
    (i < seqs.length) ∧
    (bitN (x.a 2 1) 1 = false) :=
  ⟨by decide +kernel, by decide +kernel⟩

theorem meets_RunOp_21 :
    let s : State := alS
    let x : OpBlk := atX 0 3
    let p : Pool := pl
    let seqs : List ℕ := [0, 2]
    let i : ℕ := 1
    (i < seqs.length) ∧
    (bitN (x.a 2 1) 1 = false) ∧
    (p.maxSeq ≤ seqs.getD i 0 ∨ s.seqUsed p (seqs.getD i 0) = false) :=
  ⟨by decide +kernel, by decide +kernel, by decide +kernel⟩

theorem meets_RunOp_22 :
    let s : State := sqS S0 9 0
    let x : OpBlk := atX 0 3
    let p : Pool := pl
    let seqs : List ℕ := [0]
    let qlens : List ℕ := [2]
    let i : ℕ := 0
    (i < seqs.length) ∧
    (bitN (x.a 2 1) 1 = false) ∧
    (seqs.getD i 0 < p.maxSeq) ∧
    (s.seqUsed p (seqs.getD i 0) = true) ∧
    ((x.t 0).d2 < qlens.getD i 0) :=
  ⟨by decide +kernel, by decide +kernel, by decide +kernel, by decide +kernel, by decide +kernel⟩

theorem meets_RunOp_23 :
    let s : State := sqS S0 9 0
    let x : OpBlk := atX 0 3
    let p : Pool := pl
    let seqs : List ℕ := [0]
    let qlens : List ℕ := [1]
    let i : ℕ := 0
    (i < seqs.length) ∧
    (bitN (x.a 2 1) 1 = false) ∧
    (seqs.getD i 0 < p.maxSeq) ∧
    (s.seqUsed p (seqs.getD i 0) = true) ∧
    (qlens.getD i 0 ≤ (x.t 0).d2) :=
  ⟨by decide +kernel, by decide +kernel, by decide +kernel, by decide +kernel, by decide +kernel⟩

theorem meets_RunOp_24 :
    let s : State := ept (sqS S0 9 1) .opened 4
    let p : Pool := pl
    let e : Option ℕ := some 3
    let q : ℕ := 0
    let n : ℕ := 1
    (0 < n) ∧
    (s.seqTlen p q ≠ 0) ∧
    (s.seqEpoch p q ≠ match e with | some k => BitVec.toNat (s.epoch k).number | none => 0) :=
  ⟨by decide +kernel, by decide +kernel, by decide +kernel⟩

theorem meets_RunOp_25 :
    let s : State := ept (sqS S0 60 0) .opened 4
    let p : Pool := pl
    let e : Option ℕ := none
    let q : ℕ := 0
    let n : ℕ := 5
    (0 < n) ∧
    (s.seqTlen p q = 0 ∨ s.seqEpoch p q = match e with | some k => BitVec.toNat (s.epoch k).number | none => 0) ∧
    (e ≠ none ∧ 64 < s.seqTlen p q + n ∨ p.maxBlocks * 64 < s.seqLen p q + s.seqTlen p q + n) :=
  ⟨by decide +kernel, by decide +kernel, by decide +kernel⟩

theorem meets_RunOp_26 :
    let s : State := alS
    let p : Pool := pl
    let n : ℕ := 1
    let st : ℕ := 1
    let ep : ℕ := 0
    let h : ℕ := 0
    (0 < n) ∧
    (∃ r : ℕ × State, State.kvAlloc p st h ep s = some r) :=
  ⟨by decide +kernel, by exact Option.isSome_iff_exists.mp (by decide +kernel)⟩

theorem meets_RunOp_27 :
    let s : State := emS
    let hd : ℕ := 3
    let p : Pool := pl
    let e : Option ℕ := none
    let n : ℕ := 1
    let st : ℕ := 1
    let ep : ℕ := 0
    let h : ℕ := 0
    (0 < n) ∧
    (State.kvAlloc p st h ep s = none) ∧
    (s.reclaimable hd p e = none) :=
  ⟨by decide +kernel, by decide +kernel, by decide +kernel⟩

theorem meets_RunOp_28 :
    let s : State := { emS.kvW (pl.seqAt 1 + 4) 1 5 with epochs := [(7, { st := .opened, tenant := 1, number := 9, seqs := [(3, 1)] })] }
    let hd : ℕ := 3
    let p : Pool := pl
    let e : Option ℕ := none
    let n : ℕ := 1
    let st : ℕ := 1
    let ep : ℕ := 0
    let h : ℕ := 0
    let f : ℕ := 7
    (0 < n) ∧
    (State.kvAlloc p st h ep s = none) ∧
    (s.reclaimable hd p e = some f) :=
  ⟨by decide +kernel, by decide +kernel, by decide +kernel⟩

theorem meets_KvSequences_16 :
    let s : State := sqS S0 9 0
    let c : Cmd := S0
    let p : Pool := pl
    (Ready s c 82) ∧
    (s.poolFor c.tenant (leAt c.params 2 2) = some p) ∧
    (s.kvLost p = false) ∧
    (c.params.length = 16) ∧
    (zerosAt c.params 1 1 = true) ∧
    (zerosAt c.params 12 4 = true) ∧
    (leAt c.params 0 1 = 0) ∧
    (leAt c.params 6 2 = 0) ∧
    (leAt c.params 8 4 = 0) ∧
    (p.maxSeq ≤ leAt c.params 4 2 ∨ s.seqUsed p (leAt c.params 4 2) = true) :=
  ⟨readyOf (by decide +kernel), by decide +kernel, by decide +kernel, by decide +kernel, by decide +kernel, by decide +kernel, by decide +kernel, by decide +kernel, by decide +kernel, by decide +kernel⟩

theorem meets_KvSequences_17 :
    let s : State := sqS S1 9 0
    let c : Cmd := S1
    let p : Pool := pl
    (Ready s c 82) ∧
    (s.poolFor c.tenant (leAt c.params 2 2) = some p) ∧
    (s.kvLost p = false) ∧
    (c.params.length = 16) ∧
    (zerosAt c.params 1 1 = true) ∧
    (zerosAt c.params 12 4 = true) ∧
    (leAt c.params 0 1 = 0) ∧
    (leAt c.params 6 2 = 0) ∧
    (leAt c.params 8 4 = 0) ∧
    (leAt c.params 4 2 < p.maxSeq) ∧
    (s.seqUsed p (leAt c.params 4 2) = false) ∧
    ((∀ n ∈ s.poolPeers p, s.route n ≠ none) ∧ (begun s c).saveDeny c.tenant p.ctrl p.ctrlLen true = none) :=
  ⟨readyOf (by decide +kernel), by decide +kernel, by decide +kernel, by decide +kernel, by decide +kernel, by decide +kernel, by decide +kernel, by decide +kernel, by decide +kernel, by decide +kernel, by decide +kernel, by decide +kernel⟩

theorem meets_KvSequences_18 :
    let s : State := sqP S1 9 0 plS
    let c : Cmd := S1
    let p : Pool := plS
    (Ready s c 82) ∧
    (s.poolFor c.tenant (leAt c.params 2 2) = some p) ∧
    (s.kvLost p = false) ∧
    (c.params.length = 16) ∧
    (zerosAt c.params 1 1 = true) ∧
    (zerosAt c.params 12 4 = true) ∧
    (leAt c.params 0 1 = 0) ∧
    (leAt c.params 6 2 = 0) ∧
    (leAt c.params 8 4 = 0) ∧
    (leAt c.params 4 2 < p.maxSeq) ∧
    (s.seqUsed p (leAt c.params 4 2) = false) ∧
    (∃ n ∈ s.poolPeers p, s.route n = none) :=
  ⟨readyOf (by decide +kernel), by decide +kernel, by decide +kernel, by decide +kernel, by decide +kernel, by decide +kernel, by decide +kernel, by decide +kernel, by decide +kernel, by decide +kernel, by decide +kernel, by decide +kernel⟩

theorem meets_KvSequences_19 :
    let s : State := S1s
    let c : Cmd := S1
    let p : Pool := { pl with ctrl := 0x2002000 }
    let d : Deny := ((begun S1s S1).saveDeny 1 0x2002000 pl.ctrlLen true).getD { code := 0 }
    (Ready s c 82) ∧
    (s.poolFor c.tenant (leAt c.params 2 2) = some p) ∧
    (s.kvLost p = false) ∧
    (c.params.length = 16) ∧
    (zerosAt c.params 1 1 = true) ∧
    (zerosAt c.params 12 4 = true) ∧
    (leAt c.params 0 1 = 0) ∧
    (leAt c.params 6 2 = 0) ∧
    (leAt c.params 8 4 = 0) ∧
    (leAt c.params 4 2 < p.maxSeq) ∧
    (s.seqUsed p (leAt c.params 4 2) = false) ∧
    (∀ n ∈ s.poolPeers p, s.route n ≠ none) ∧
    ((begun s c).saveDeny c.tenant p.ctrl p.ctrlLen true = some d) :=
  ⟨readyOf (by decide +kernel), by decide +kernel, by decide +kernel, by decide +kernel, by decide +kernel, by decide +kernel, by decide +kernel, by decide +kernel, by decide +kernel, by decide +kernel, by decide +kernel, by decide +kernel, by decide +kernel⟩

theorem meets_KvSequences_20 :
    let s : State := sqS S2 9 0
    let c : Cmd := S2
    let p : Pool := pl
    (Ready s c 82) ∧
    (s.poolFor c.tenant (leAt c.params 2 2) = some p) ∧
    (s.kvLost p = false) ∧
    (c.params.length = 16) ∧
    (zerosAt c.params 1 1 = true) ∧
    (zerosAt c.params 12 4 = true) ∧
    (leAt c.params 0 1 = 1) ∧
    (¬(leAt c.params 6 2 < p.maxSeq ∧ s.seqUsed p (leAt c.params 6 2) = true)) :=
  ⟨readyOf (by decide +kernel), by decide +kernel, by decide +kernel, by decide +kernel, by decide +kernel, by decide +kernel, by decide +kernel, by decide +kernel⟩

theorem meets_KvSequences_21 :
    let s : State := sqS S3 9 0
    let c : Cmd := S3
    let p : Pool := pl
    (Ready s c 82) ∧
    (s.poolFor c.tenant (leAt c.params 2 2) = some p) ∧
    (s.kvLost p = false) ∧
    (c.params.length = 16) ∧
    (zerosAt c.params 1 1 = true) ∧
    (zerosAt c.params 12 4 = true) ∧
    (leAt c.params 0 1 = 1) ∧
    (leAt c.params 6 2 < p.maxSeq ∧ s.seqUsed p (leAt c.params 6 2) = true) ∧
    (p.maxSeq ≤ leAt c.params 4 2 ∨ s.seqUsed p (leAt c.params 4 2) = true ∨ s.seqLen p (leAt c.params 6 2) < leAt c.params 8 4) :=
  ⟨readyOf (by decide +kernel), by decide +kernel, by decide +kernel, by decide +kernel, by decide +kernel, by decide +kernel, by decide +kernel, by decide +kernel, by decide +kernel⟩

theorem meets_KvSequences_22 :
    let s : State := sqS S4 9 0
    let c : Cmd := S4
    let p : Pool := pl
    (Ready s c 82) ∧
    (s.poolFor c.tenant (leAt c.params 2 2) = some p) ∧
    (s.kvLost p = false) ∧
    (c.params.length = 16) ∧
    (zerosAt c.params 1 1 = true) ∧
    (zerosAt c.params 12 4 = true) ∧
    (leAt c.params 0 1 = 1) ∧
    (leAt c.params 6 2 < p.maxSeq ∧ s.seqUsed p (leAt c.params 6 2) = true) ∧
    (leAt c.params 4 2 < p.maxSeq) ∧
    (s.seqUsed p (leAt c.params 4 2) = false) ∧
    (leAt c.params 8 4 ≤ s.seqLen p (leAt c.params 6 2)) ∧
    ((∀ a ∈ p.apps, leAt c.params 6 2 ∉ a.2) ∧ s.seqTlen p (leAt c.params 6 2) = 0) ∧
    ((∀ n ∈ s.poolPeers p, s.route n ≠ none) ∧ (begun s c).saveDeny c.tenant p.ctrl p.ctrlLen true = none) :=
  ⟨readyOf (by decide +kernel), by decide +kernel, by decide +kernel, by decide +kernel, by decide +kernel, by decide +kernel, by decide +kernel, by decide +kernel, by decide +kernel, by decide +kernel, by decide +kernel, by decide +kernel, by decide +kernel⟩

theorem meets_KvSequences_23 :
    let s : State := sqS S4 9 1
    let c : Cmd := S4
    let p : Pool := pl
    (Ready s c 82) ∧
    (s.poolFor c.tenant (leAt c.params 2 2) = some p) ∧
    (s.kvLost p = false) ∧
    (c.params.length = 16) ∧
    (zerosAt c.params 1 1 = true) ∧
    (zerosAt c.params 12 4 = true) ∧
    (leAt c.params 0 1 = 1) ∧
    (leAt c.params 6 2 < p.maxSeq ∧ s.seqUsed p (leAt c.params 6 2) = true) ∧
    (leAt c.params 4 2 < p.maxSeq) ∧
    (s.seqUsed p (leAt c.params 4 2) = false) ∧
    (leAt c.params 8 4 ≤ s.seqLen p (leAt c.params 6 2)) ∧
    (¬((∀ a ∈ p.apps, leAt c.params 6 2 ∉ a.2) ∧ s.seqTlen p (leAt c.params 6 2) = 0)) :=
  ⟨readyOf (by decide +kernel), by decide +kernel, by decide +kernel, by decide +kernel, by decide +kernel, by decide +kernel, by decide +kernel, by decide +kernel, by decide +kernel, by decide +kernel, by decide +kernel, by decide +kernel⟩

theorem meets_KvSequences_24 :
    let s : State := sqS S5 9 1
    let c : Cmd := S5
    let p : Pool := pl
    (Ready s c 82) ∧
    (s.poolFor c.tenant (leAt c.params 2 2) = some p) ∧
    (s.kvLost p = false) ∧
    (c.params.length = 16) ∧
    (zerosAt c.params 1 1 = true) ∧
    (zerosAt c.params 12 4 = true) ∧
    (leAt c.params 0 1 = 2) ∧
    (leAt c.params 6 2 = 0) ∧
    (leAt c.params 8 4 = 0) ∧
    (¬(leAt c.params 4 2 < p.maxSeq ∧ s.seqUsed p (leAt c.params 4 2) = true)) :=
  ⟨readyOf (by decide +kernel), by decide +kernel, by decide +kernel, by decide +kernel, by decide +kernel, by decide +kernel, by decide +kernel, by decide +kernel, by decide +kernel, by decide +kernel⟩

theorem meets_KvSequences_25 :
    let s : State := sqS S6 9 1
    let c : Cmd := S6
    let p : Pool := pl
    (Ready s c 82) ∧
    (s.poolFor c.tenant (leAt c.params 2 2) = some p) ∧
    (s.kvLost p = false) ∧
    (c.params.length = 16) ∧
    (zerosAt c.params 1 1 = true) ∧
    (zerosAt c.params 12 4 = true) ∧
    (leAt c.params 0 1 = 2) ∧
    (leAt c.params 6 2 = 0) ∧
    (leAt c.params 8 4 = 0) ∧
    (leAt c.params 4 2 < p.maxSeq ∧ s.seqUsed p (leAt c.params 4 2) = true) ∧
    (¬((∀ a ∈ p.apps, leAt c.params 4 2 ∉ a.2) ∧ s.seqTlen p (leAt c.params 4 2) = 0)) :=
  ⟨readyOf (by decide +kernel), by decide +kernel, by decide +kernel, by decide +kernel, by decide +kernel, by decide +kernel, by decide +kernel, by decide +kernel, by decide +kernel, by decide +kernel, by decide +kernel⟩

theorem meets_KvSequences_26 :
    let s : State := sqS S6 9 0
    let c : Cmd := S6
    let p : Pool := pl
    (Ready s c 82) ∧
    (s.poolFor c.tenant (leAt c.params 2 2) = some p) ∧
    (s.kvLost p = false) ∧
    (c.params.length = 16) ∧
    (zerosAt c.params 1 1 = true) ∧
    (zerosAt c.params 12 4 = true) ∧
    (leAt c.params 0 1 = 2) ∧
    (leAt c.params 6 2 = 0) ∧
    (leAt c.params 8 4 = 0) ∧
    (leAt c.params 4 2 < p.maxSeq ∧ s.seqUsed p (leAt c.params 4 2) = true) ∧
    ((∀ a ∈ p.apps, leAt c.params 4 2 ∉ a.2) ∧ s.seqTlen p (leAt c.params 4 2) = 0) ∧
    ((∀ n ∈ s.poolPeers p, s.route n ≠ none) ∧ (begun s c).saveDeny c.tenant p.ctrl p.ctrlLen true = none) :=
  ⟨readyOf (by decide +kernel), by decide +kernel, by decide +kernel, by decide +kernel, by decide +kernel, by decide +kernel, by decide +kernel, by decide +kernel, by decide +kernel, by decide +kernel, by decide +kernel, by decide +kernel⟩

theorem meets_KvSequences_27 :
    let s : State := sqS S7 9 0
    let c : Cmd := S7
    let p : Pool := pl
    (Ready s c 82) ∧
    (s.poolFor c.tenant (leAt c.params 2 2) = some p) ∧
    (s.kvLost p = false) ∧
    (c.params.length = 16) ∧
    (zerosAt c.params 1 1 = true) ∧
    (zerosAt c.params 12 4 = true) ∧
    (leAt c.params 0 1 = 3) ∧
    (leAt c.params 6 2 = 0) ∧
    (¬(leAt c.params 4 2 < p.maxSeq ∧ s.seqUsed p (leAt c.params 4 2) = true)) :=
  ⟨readyOf (by decide +kernel), by decide +kernel, by decide +kernel, by decide +kernel, by decide +kernel, by decide +kernel, by decide +kernel, by decide +kernel, by decide +kernel⟩

theorem meets_KvSequences_28 :
    let s : State := sqS (S8 10) 9 0
    let c : Cmd := S8 10
    let p : Pool := pl
    (Ready s c 82) ∧
    (s.poolFor c.tenant (leAt c.params 2 2) = some p) ∧
    (s.kvLost p = false) ∧
    (c.params.length = 16) ∧
    (zerosAt c.params 1 1 = true) ∧
    (zerosAt c.params 12 4 = true) ∧
    (leAt c.params 0 1 = 3) ∧
    (leAt c.params 6 2 = 0) ∧
    (leAt c.params 4 2 < p.maxSeq ∧ s.seqUsed p (leAt c.params 4 2) = true) ∧
    (s.seqLen p (leAt c.params 4 2) < leAt c.params 8 4) :=
  ⟨readyOf (by decide +kernel), by decide +kernel, by decide +kernel, by decide +kernel, by decide +kernel, by decide +kernel, by decide +kernel, by decide +kernel, by decide +kernel, by decide +kernel⟩

theorem meets_KvSequences_29 :
    let s : State := sqS (S8 9) 9 1
    let c : Cmd := S8 9
    let p : Pool := pl
    (Ready s c 82) ∧
    (s.poolFor c.tenant (leAt c.params 2 2) = some p) ∧
    (s.kvLost p = false) ∧
    (c.params.length = 16) ∧
    (zerosAt c.params 1 1 = true) ∧
    (zerosAt c.params 12 4 = true) ∧
    (leAt c.params 0 1 = 3) ∧
    (leAt c.params 6 2 = 0) ∧
    (leAt c.params 4 2 < p.maxSeq ∧ s.seqUsed p (leAt c.params 4 2) = true) ∧
    (leAt c.params 8 4 ≤ s.seqLen p (leAt c.params 4 2)) ∧
    (¬((∀ a ∈ p.apps, leAt c.params 4 2 ∉ a.2) ∧ s.seqTlen p (leAt c.params 4 2) = 0)) :=
  ⟨readyOf (by decide +kernel), by decide +kernel, by decide +kernel, by decide +kernel, by decide +kernel, by decide +kernel, by decide +kernel, by decide +kernel, by decide +kernel, by decide +kernel, by decide +kernel⟩

theorem meets_KvSequences_30 :
    let s : State := sqS (S8 9) 9 0
    let c : Cmd := S8 9
    let p : Pool := pl
    (Ready s c 82) ∧
    (s.poolFor c.tenant (leAt c.params 2 2) = some p) ∧
    (s.kvLost p = false) ∧
    (c.params.length = 16) ∧
    (zerosAt c.params 1 1 = true) ∧
    (zerosAt c.params 12 4 = true) ∧
    (leAt c.params 0 1 = 3) ∧
    (leAt c.params 6 2 = 0) ∧
    (leAt c.params 4 2 < p.maxSeq ∧ s.seqUsed p (leAt c.params 4 2) = true) ∧
    (leAt c.params 8 4 ≤ s.seqLen p (leAt c.params 4 2)) ∧
    ((∀ a ∈ p.apps, leAt c.params 4 2 ∉ a.2) ∧ s.seqTlen p (leAt c.params 4 2) = 0) ∧
    ((∀ n ∈ s.poolPeers p, s.route n ≠ none) ∧ (begun s c).saveDeny c.tenant p.ctrl p.ctrlLen true = none) :=
  ⟨readyOf (by decide +kernel), by decide +kernel, by decide +kernel, by decide +kernel, by decide +kernel, by decide +kernel, by decide +kernel, by decide +kernel, by decide +kernel, by decide +kernel, by decide +kernel, by decide +kernel⟩

theorem meets_KvSequences_31 :
    let s : State := sqS (S9 1) 9 0
    let c : Cmd := S9 1
    let p : Pool := pl
    (Ready s c 82) ∧
    (s.poolFor c.tenant (leAt c.params 2 2) = some p) ∧
    (s.kvLost p = false) ∧
    (c.params.length = 16) ∧
    (zerosAt c.params 1 1 = true) ∧
    (zerosAt c.params 12 4 = true) ∧
    (leAt c.params 0 1 = 4) ∧
    (leAt c.params 6 2 = 0) ∧
    (leAt c.params 8 4 = 0) ∧
    (¬(leAt c.params 4 2 < p.maxSeq ∧ s.seqUsed p (leAt c.params 4 2) = true)) :=
  ⟨readyOf (by decide +kernel), by decide +kernel, by decide +kernel, by decide +kernel, by decide +kernel, by decide +kernel, by decide +kernel, by decide +kernel, by decide +kernel, by decide +kernel⟩

theorem meets_KvSequences_32 :
    let s : State := sqS (S9 0) 9 0
    let c : Cmd := S9 0
    let p : Pool := pl
    (Ready s c 82) ∧
    (s.poolFor c.tenant (leAt c.params 2 2) = some p) ∧
    (s.kvLost p = false) ∧
    (c.params.length = 16) ∧
    (zerosAt c.params 1 1 = true) ∧
    (zerosAt c.params 12 4 = true) ∧
    (leAt c.params 0 1 = 4) ∧
    (leAt c.params 6 2 = 0) ∧
    (leAt c.params 8 4 = 0) ∧
    (leAt c.params 4 2 < p.maxSeq ∧ s.seqUsed p (leAt c.params 4 2) = true) ∧
    ((∀ n ∈ s.poolPeers p, s.route n ≠ none) ∧ (begun s c).saveDeny c.tenant p.ctrl p.ctrlLen true = none) :=
  ⟨readyOf (by decide +kernel), by decide +kernel, by decide +kernel, by decide +kernel, by decide +kernel, by decide +kernel, by decide +kernel, by decide +kernel, by decide +kernel, by decide +kernel, by decide +kernel⟩

theorem meets_KvSequences_33 :
    let s : State := sqS S5x 9 0
    let c : Cmd := S5x
    let p : Pool := pl
    (Ready s c 82) ∧
    (s.poolFor c.tenant (leAt c.params 2 2) = some p) ∧
    (s.kvLost p = false) ∧
    (c.params.length = 16) ∧
    (zerosAt c.params 1 1 = true) ∧
    (zerosAt c.params 12 4 = true) ∧
    (4 < leAt c.params 0 1) :=
  ⟨readyOf (by decide +kernel), by decide +kernel, by decide +kernel, by decide +kernel, by decide +kernel, by decide +kernel, by decide +kernel⟩

theorem meets_KvSequences_34 :
    let s : State := sqL S0
    let c : Cmd := S0
    let p : Pool := pl
    (Ready s c 82) ∧
    (s.poolFor c.tenant (leAt c.params 2 2) = some p) ∧
    (s.kvLost p = true) ∧
    (c.params.length = 16) ∧
    (zerosAt c.params 1 1 = true) ∧
    (zerosAt c.params 12 4 = true) ∧
    (leAt c.params 6 2 = 0) ∧
    (leAt c.params 8 4 = 0) ∧
    (leAt c.params 0 1 = 0) :=
  ⟨readyOf (by decide +kernel), by decide +kernel, by decide +kernel, by decide +kernel, by decide +kernel, by decide +kernel, by decide +kernel, by decide +kernel, by decide +kernel⟩

theorem meets_KvSequences_35 :
    let s : State := sqL S6
    let c : Cmd := S6
    let p : Pool := pl
    (Ready s c 82) ∧
    (s.poolFor c.tenant (leAt c.params 2 2) = some p) ∧
    (s.kvLost p = true) ∧
    (c.params.length = 16) ∧
    (zerosAt c.params 1 1 = true) ∧
    (zerosAt c.params 12 4 = true) ∧
    (leAt c.params 6 2 = 0) ∧
    (leAt c.params 8 4 = 0) ∧
    (leAt c.params 0 1 = 2) :=
  ⟨readyOf (by decide +kernel), by decide +kernel, by decide +kernel, by decide +kernel, by decide +kernel, by decide +kernel, by decide +kernel, by decide +kernel, by decide +kernel⟩

theorem meets_KvSequences_36 :
    let s : State := sqL (sqC 3 0 0 0)
    let c : Cmd := sqC 3 0 0 0
    let p : Pool := pl
    (Ready s c 82) ∧
    (s.poolFor c.tenant (leAt c.params 2 2) = some p) ∧
    (s.kvLost p = true) ∧
    (c.params.length = 16) ∧
    (zerosAt c.params 1 1 = true) ∧
    (zerosAt c.params 12 4 = true) ∧
    (leAt c.params 6 2 = 0) ∧
    (leAt c.params 8 4 = 0) ∧
    (leAt c.params 0 1 = 3) :=
  ⟨readyOf (by decide +kernel), by decide +kernel, by decide +kernel, by decide +kernel, by decide +kernel, by decide +kernel, by decide +kernel, by decide +kernel, by decide +kernel⟩

theorem meets_KvSequences_37 :
    let s : State := sqL (S9 0)
    let c : Cmd := S9 0
    let p : Pool := pl
    (Ready s c 82) ∧
    (s.poolFor c.tenant (leAt c.params 2 2) = some p) ∧
    (s.kvLost p = true) ∧
    (c.params.length = 16) ∧
    (zerosAt c.params 1 1 = true) ∧
    (zerosAt c.params 12 4 = true) ∧
    (leAt c.params 6 2 = 0) ∧
    (leAt c.params 8 4 = 0) ∧
    (leAt c.params 0 1 = 4) :=
  ⟨readyOf (by decide +kernel), by decide +kernel, by decide +kernel, by decide +kernel, by decide +kernel, by decide +kernel, by decide +kernel, by decide +kernel, by decide +kernel⟩

theorem meets_KvSequences_38 :
    let s : State := oeG
    let k : Fin 64 := 63
    ∃ t : State, exec (Instr.tileEnd k none) s = Host.Outcome.next t :=
  by exact ⟨_, rfl⟩

theorem meets_OperatorEnds_8 :
    let s : State := { oeG with jobs := [(5, some { opJ with epoch := some 3 })], epochs := [(3, { st := .aborting })] }
    let k : Fin 64 := 63
    let j : ℕ := 5
    let id : ℕ := 1
    let x : Job := { opJ with epoch := some 3 }
    let i : ℕ := 0
    let s0 : State := { oeG with jobs := [(5, some { opJ with epoch := some 3 })], epochs := [(3, { st := .aborting })] }
    ((s.core k.val).job = some j) ∧
    (s.job j = some x) ∧
    (x.kind = JobKind.op id i) ∧
    ((s.core k.val).phase = CorePhase.running ∧ s0 = s ∨ (s.core k.val).phase = CorePhase.saving ∧ s0 = s.tie) ∧
    (s.stopped k.val = true) :=
  ⟨by decide +kernel, by decide +kernel, by decide +kernel, by decide +kernel, by decide +kernel⟩

theorem meets_OperatorEnds_9 :
    let s : State := { oeG with cmds := [] }
    let k : Fin 64 := 63
    let j : ℕ := 5
    let id : ℕ := 1
    let x : Job := opJ
    let i : ℕ := 0
    let s0 : State := { oeG with cmds := [] }
    ((s.core k.val).job = some j) ∧
    (s.job j = some x) ∧
    (x.kind = JobKind.op id i) ∧
    ((s.core k.val).phase = CorePhase.running ∧ s0 = s ∨ (s.core k.val).phase = CorePhase.saving ∧ s0 = s.tie) ∧
    (s.stopped k.val = false) ∧
    (s0.cmd id = none) :=
  ⟨by decide +kernel, by decide +kernel, by decide +kernel, by decide +kernel, by decide +kernel, by decide +kernel⟩

theorem meets_OperatorEnds_10 :
    let s : State := { oeG with dies := [(3, { bridge := .retrain, power := .on })] }
    let k : Fin 64 := 63
    let j : ℕ := 5
    let id : ℕ := 1
    let x : Job := opJ
    let i : ℕ := 0
    let s0 : State := { oeG with dies := [(3, { bridge := .retrain, power := .on })] }
    let c : Cmd := oeC (topk 0x2000)
    ((s.core k.val).job = some j) ∧
    (s.job j = some x) ∧
    (x.kind = JobKind.op id i) ∧
    ((s.core k.val).phase = CorePhase.running ∧ s0 = s ∨ (s.core k.val).phase = CorePhase.saving ∧ s0 = s.tie) ∧
    (s.stopped k.val = false) ∧
    (s0.cmd id = some c) ∧
    (s0.opHeld k.val c = true ∨ ∃ e ∈ c.shares, e.ans = none) :=
  ⟨by decide +kernel, by decide +kernel, by decide +kernel, by decide +kernel, by decide +kernel, by decide +kernel, by decide +kernel⟩

theorem meets_OperatorEnds_11 :
    let s : State := oeSh
    let k : Fin 64 := 63
    let j : ℕ := 5
    let id : ℕ := 1
    let x : Job := opJ
    let i : ℕ := 0
    let s0 : State := oeSh
    let c : Cmd := oeShC
    let u : List Share := [{ node := 1, ans := some (0, []) }]
    let v : List Share := []
    let e : Share := { node := 2, ans := some (263, []) }
    let rs : ℕ := 263
    let d : List Byte := []
    ((s.core k.val).job = some j) ∧
    (s.job j = some x) ∧
    (x.kind = JobKind.op id i) ∧
    ((s.core k.val).phase = CorePhase.running ∧ s0 = s ∨ (s.core k.val).phase = CorePhase.saving ∧ s0 = s.tie) ∧
    (s.stopped k.val = false) ∧
    (s0.cmd id = some c) ∧
    (s0.opHeld k.val c = false) ∧
    (∀ e ∈ c.shares, e.ans ≠ none) ∧
    (c.shares = u ++ e :: v) ∧
    (∀ h ∈ u, ∃ d, h.ans = some (0, d)) ∧
    (e.ans = some (rs, d)) ∧
    (rs ≠ 0) :=
  ⟨by decide +kernel, by decide +kernel, by decide +kernel, by decide +kernel, by decide +kernel, by decide +kernel, by decide +kernel, by decide +kernel, by decide +kernel, by simp, by decide +kernel, by decide +kernel⟩

theorem meets_OperatorEnds_12 :
    let s : State := oeG
    let k : Fin 64 := 63
    let j : ℕ := 5
    let id : ℕ := 1
    let x : Job := opJ
    let i : ℕ := 0
    let s0 : State := oeG
    let c : Cmd := oeC (topk 0x2000)
    ((s.core k.val).job = some j) ∧
    (s.job j = some x) ∧
    (x.kind = JobKind.op id i) ∧
    ((s.core k.val).phase = CorePhase.running ∧ s0 = s ∨ (s.core k.val).phase = CorePhase.saving ∧ s0 = s.tie) ∧
    (s.stopped k.val = false) ∧
    (s0.cmd id = some c) ∧
    (s0.opHeld k.val c = false) ∧
    (∀ e ∈ c.shares, e.ans ≠ none) ∧
    (∀ h ∈ c.shares, ∃ d, h.ans = some (0, d)) ∧
    (s0.opFaults x.agent c = []) :=
  ⟨by decide +kernel, by decide +kernel, by decide +kernel, by decide +kernel, by decide +kernel, by decide +kernel, by decide +kernel, by decide +kernel, by intro y h; exact absurd h List.not_mem_nil, by decide +kernel⟩

theorem meets_OperatorEnds_13 :
    let s : State := oeTwo
    let k : Fin 64 := 63
    let j : ℕ := 5
    let id : ℕ := 1
    let x : Job := opJ
    let i : ℕ := 0
    let tie : Option (Fin 64) := none
    let s0 : State := oeTwo
    let c : Cmd := oeC (topk 0x500000)
    ((s.core k.val).job = some j) ∧
    (s.job j = some x) ∧
    (x.kind = JobKind.op id i) ∧
    ((s.core k.val).phase = CorePhase.running ∧ s0 = s ∨ (s.core k.val).phase = CorePhase.saving ∧ s0 = s.tie) ∧
    (s.stopped k.val = false) ∧
    (s0.cmd id = some c) ∧
    (s0.opHeld k.val c = false) ∧
    (∀ e ∈ c.shares, e.ans ≠ none) ∧
    (∀ h ∈ c.shares, ∃ d, h.ans = some (0, d)) ∧
    (s0.opFaults x.agent c ≠ []) ∧
    (s0.opTie k.val id tie = none) :=
  ⟨by decide +kernel, by decide +kernel, by decide +kernel, by decide +kernel, by decide +kernel, by decide +kernel, by decide +kernel, by decide +kernel, by intro y h; exact absurd h List.not_mem_nil, by decide +kernel, by decide +kernel⟩

theorem meets_OperatorEnds_14 :
    let s : State := oeS oeBad [(5, some opJ)]
    let k : Fin 64 := 63
    let j : ℕ := 5
    let id : ℕ := 1
    let x : Job := opJ
    let i : ℕ := 0
    let s0 : State := oeS oeBad [(5, some opJ)]
    let c : Cmd := oeC oeBad
    let d : Option Deny × ℕ := (none, 17)
    ((s.core k.val).job = some j) ∧
    (s.job j = some x) ∧
    (x.kind = JobKind.op id i) ∧
    ((s.core k.val).phase = CorePhase.running ∧ s0 = s ∨ (s.core k.val).phase = CorePhase.saving ∧ s0 = s.tie) ∧
    (s.stopped k.val = false) ∧
    (s0.cmd id = some c) ∧
    (s0.opHeld k.val c = false) ∧
    (∀ e ∈ c.shares, e.ans ≠ none) ∧
    (∀ h ∈ c.shares, ∃ d, h.ans = some (0, d)) ∧
    (d ∈ s0.opFaults x.agent c) ∧
    (d.1 = none) :=
  ⟨by decide +kernel, by decide +kernel, by decide +kernel, by decide +kernel, by decide +kernel, by decide +kernel, by decide +kernel, by decide +kernel, by intro y h; exact absurd h List.not_mem_nil, by decide +kernel, by decide +kernel⟩

end Part15

namespace Part16

def ruleP (lean firm : Nat) : Cmd := rd 0x60 48 [(1, 1, 15), (3, 1, 2), (4, 1, 63), (5, 1, lean), (6, 1, firm), (7, 1, 64), (8, 4, 1048576), (12, 2, 1),
  (18, 2, 4096), (20, 1, 2), (21, 1, 0xFF), (24, 8, 5)]
def ruleOk := ruleP 200 200
def ruleBad := ruleP 201 200
def seqP := rd 0x60 12 [(0, 1, 1), (2, 2, 4095), (4, 4, 1), (8, 4, 0xDEADBEEF)]
def ctl (fs : List (Nat × Nat × Nat)) : Cmd := rd 0x61 16 fs
def t1rule : State := { t1 with rules := [(15, { enabled := true })] }
def t1run : State := { t1 with aon.seq.run := true }
def rule3 : State := { t1 with rules := [(3, { set_ := true, tenant := 1, level := 0, jobs := 2, tier := 1, score := 63, lean_ := 10, firm := 200, enabled := true, hoard := 4 })] }
def ren := ctl [(0, 1, 5), (1, 1, 3), (2, 1, 1)]
def srun := ctl [(0, 1, 6), (2, 1, 1)]
def sstop := ctl [(0, 1, 6)]
def opn (p : Nat) := ctl [(1, 1, 47), (4, 2, p)]
def hoard1 (s : State) : State := { s with sch.hoard := [(0, 1)] }
def live (s : State) (st : EpSt) : State := { s with epochs := [(47, { st := st, tenant := 1, number := 5 })] }
def bnd := ctl [(0, 1, 1), (1, 1, 47), (2, 1, 63)]
def unb := ctl [(0, 1, 2), (1, 1, 47), (2, 1, 63)]
def com := ctl [(0, 1, 3), (1, 1, 47)]
def abt := ctl [(0, 1, 4), (1, 1, 47)]
def lv (c : Cmd) : State := hold c (live t1 .opened)
def lvBnd : State := { lv bnd with rings := [(63, { sqCfg := 0x400 })] }
def lvUnb : State := { lv unb with rings := [(63, { bound := some 47, sqTail := 2 })] }
def sealc : Cmd := { ctl [(0, 1, 3), (1, 1, 47)] with phase := .running }
def sealing (v : Option Nat) (m : List Host.Cell) : State := { hold sealc t1 with mem := m, epochs := [(47, { st := .sealing, tenant := 1, number := 5, commit := some 1, verdict := v })] }
def list1 : List Host.Cell := [(0, 1), (8, 5), (10, 2), (12, 3)]
def ep (x : Epoch) (s : State) : State := { s with epochs := [(47, x)] }
def sealing0 : State := sealing none []
def sh2 : Shadow := { page := 1, die := 0, target := 0x1002 }
def shadowed : State := ep { st := .sealing, tenant := 1, pages := [sh2] } { t1 with sch.hoard := [(0, 2)], mem := [(0x1BFF005, 7)] }
def held1 : Held := { cq := 0, sq := 0, own := false, st := { tag := 9, op := 0, tenant := 1, outcome := 0, reason := 0, late := 0 } }
def committing : State := ep { st := .committing, tenant := 1, held := [] } t1
def committing1 : State := ep { st := .committing, tenant := 1, commit := some 1, applied := 65537 } (hold sealc t1)
def aborting : State := ep { st := .aborting, tenant := 1, cause := 9, discardCc := 77, pages := [{ page := 1, die := 0, target := 2 }] } { t1 with rings := [(5, { bound := some 47 })] }
def dl (n : Sfc) : State := { t1 with tb.sfc := 100, epochs := [(63, { st := .opened, tenant := 1, deadline := some n })] }
def opened3 : State := { t1 with epochs := [(3, { st := .opened })] }
def allFree : State := { t1 with epochs := [(3, {})] }
def ruleL (e : Bool) : Rule := { set_ := true, enabled := e, tenant := 1, level := 0, jobs := 2, tier := 1, score := 63, lean_ := 10, firm := 200, hoard := 4, window := 480, entry := 0, arg0 := 0x1234 }
def rs (en : Bool) (left : Nat) (e : Epoch) : State :=
  { t1 with tb.sfc := 100, rules := [(15, { ruleL en with left := left })], epochs := [(63, e)], mem := [(0x3FFF00 + 4 * 63, 10)] }
def rs0 : State := rs true 0 {}
def rsBusy : State := rs true 1 {}
def rsOpen : State := rs true 0 { st := .opened, tenant := 1, deadline := some 101 }
def rsBig : State := { rs0 with mem := [(0x3FFF00 + 4 * 63 + 1, 1)] }
def t0c : T0Change := { det := 2, old := 0, new := 2, woke := false }
def t0s (tier : BitVec 2) (d : DevSt) : State := { t1 with pmu.dev := d, sch.t0 := [t0c], rules := [(15, { ruleL true with tier := tier, det := 2 })] }
def t0run : State := t0s 0 .run
def t0other : State := t0s 1 .run
def t0nap : State := t0s 0 .torpor

theorem meets_CascadeConfig_1 :
    (Ready (hold ruleBad t1) ruleBad 96) ∧
    (leAt ruleBad.params 0 1 = 0) ∧
    (leAt ruleBad.params 6 1 < leAt ruleBad.params 5 1) :=
  ⟨readyOf (by decide), by decide, by decide⟩

theorem meets_CascadeConfig_2 :
    (Ready (hold ruleOk t1rule) ruleOk 96) ∧
    (leAt ruleOk.params 0 1 = 0) ∧
    (ruleOk.params.length = 48 ∧ leAt ruleOk.params 0 1 = 0 ∧ leAt ruleOk.params 1 1 < 16 ∧ leAt ruleOk.params 2 1 = 0 ∧ leAt ruleOk.params 4 1 < 64 ∧ (leAt ruleOk.params 3 1 % 4 = 1 ∨ leAt ruleOk.params 3 1 % 4 = 2) ∧ leAt ruleOk.params 3 1 / 4 % 4 = 0 ∧ leAt ruleOk.params 3 1 < 128 ∧ 1 ≤ leAt ruleOk.params 7 1 ∧ leAt ruleOk.params 7 1 ≤ 64 ∧ 1 ≤ leAt ruleOk.params 8 4 ∧ leAt ruleOk.params 8 4 ≤ 1048576 ∧ (∃ t, (hold ruleOk t1rule).tenant (leAt ruleOk.params 12 2) = some t) ∧ (hold ruleOk t1rule).hasProgram (leAt ruleOk.params 12 2) (leAt ruleOk.params 14 2) (leAt ruleOk.params 16 2) = true ∧ 1 ≤ leAt ruleOk.params 18 2 ∧ leAt ruleOk.params 18 2 ≤ 4096 ∧ (leAt ruleOk.params 20 1 = 1 ∨ leAt ruleOk.params 20 1 = 2) ∧ (leAt ruleOk.params 21 1 < 64 ∨ leAt ruleOk.params 21 1 = 255) ∧ zerosAt ruleOk.params 22 2 = true ∧ zerosAt ruleOk.params 32 16 = true) ∧
    (leAt ruleOk.params 5 1 ≤ leAt ruleOk.params 6 1) ∧
    (((hold ruleOk t1rule).rule (leAt ruleOk.params 1 1)).enabled = true) :=
  ⟨readyOf (by decide), by decide, ⟨by decide, by decide, by decide, by decide, by decide, by decide, by decide, by decide, by decide, by decide, by decide, by decide, ⟨ten, by decide⟩, by and_intros <;> decide⟩, by decide, by decide⟩

theorem meets_CascadeConfig_3 :
    (Ready (hold ruleOk t1) ruleOk 96) ∧
    (leAt ruleOk.params 0 1 = 0) ∧
    (ruleOk.params.length = 48 ∧ leAt ruleOk.params 0 1 = 0 ∧ leAt ruleOk.params 1 1 < 16 ∧ leAt ruleOk.params 2 1 = 0 ∧ leAt ruleOk.params 4 1 < 64 ∧ (leAt ruleOk.params 3 1 % 4 = 1 ∨ leAt ruleOk.params 3 1 % 4 = 2) ∧ leAt ruleOk.params 3 1 / 4 % 4 = 0 ∧ leAt ruleOk.params 3 1 < 128 ∧ 1 ≤ leAt ruleOk.params 7 1 ∧ leAt ruleOk.params 7 1 ≤ 64 ∧ 1 ≤ leAt ruleOk.params 8 4 ∧ leAt ruleOk.params 8 4 ≤ 1048576 ∧ (∃ t, (hold ruleOk t1).tenant (leAt ruleOk.params 12 2) = some t) ∧ (hold ruleOk t1).hasProgram (leAt ruleOk.params 12 2) (leAt ruleOk.params 14 2) (leAt ruleOk.params 16 2) = true ∧ 1 ≤ leAt ruleOk.params 18 2 ∧ leAt ruleOk.params 18 2 ≤ 4096 ∧ (leAt ruleOk.params 20 1 = 1 ∨ leAt ruleOk.params 20 1 = 2) ∧ (leAt ruleOk.params 21 1 < 64 ∨ leAt ruleOk.params 21 1 = 255) ∧ zerosAt ruleOk.params 22 2 = true ∧ zerosAt ruleOk.params 32 16 = true) ∧
    (leAt ruleOk.params 5 1 ≤ leAt ruleOk.params 6 1) ∧
    (((hold ruleOk t1).rule (leAt ruleOk.params 1 1)).enabled = false) :=
  ⟨readyOf (by decide), by decide, ⟨by decide, by decide, by decide, by decide, by decide, by decide, by decide, by decide, by decide, by decide, by decide, by decide, ⟨ten, by decide⟩, by and_intros <;> decide⟩, by decide, by decide⟩

theorem meets_CascadeConfig_4 :
    (Ready (hold seqP t1run) seqP 96) ∧
    (leAt seqP.params 0 1 = 1) ∧
    (leAt seqP.params 1 1 = 0) ∧
    (leAt seqP.params 2 2 < 4096) ∧
    (1 ≤ leAt seqP.params 4 4) ∧
    (leAt seqP.params 4 4 ≤ 4096) ∧
    (seqP.params.length = 8 + 4 * leAt seqP.params 4 4) ∧
    ((hold seqP t1run).aon.seq.run = true) :=
  ⟨readyOf (by decide), by and_intros <;> decide⟩

theorem meets_CascadeConfig_5 :
    (Ready (hold seqP t1) seqP 96) ∧
    (leAt seqP.params 0 1 = 1) ∧
    (leAt seqP.params 1 1 = 0) ∧
    (leAt seqP.params 2 2 < 4096) ∧
    (1 ≤ leAt seqP.params 4 4) ∧
    (leAt seqP.params 4 4 ≤ 4096) ∧
    (seqP.params.length = 8 + 4 * leAt seqP.params 4 4) ∧
    ((hold seqP t1).aon.seq.run = false) :=
  ⟨readyOf (by decide), by and_intros <;> decide⟩

theorem meets_CascadeConfig_6 :
    (Ready (hold ren r) ren 97) ∧
    (ren.params.length = 16) ∧
    (leAt ren.params 0 1 = 5) ∧
    (leAt ren.params 1 1 < 16) ∧
    (leAt ren.params 2 1 ≤ 1) ∧
    (leAt ren.params 3 1 = 0) ∧
    (leAt ren.params 4 2 = 0) ∧
    (leAt ren.params 6 2 = 0) ∧
    (leAt ren.params 8 8 = 0) ∧
    (leAt ren.params 2 1 = 1) ∧
    ((hold ren r).tenant ((hold ren r).rule (leAt ren.params 1 1)).tenant = none) :=
  ⟨readyOf (by decide), by and_intros <;> decide⟩

theorem meets_CascadeConfig_7 :
    (Ready (hold ren rule3) ren 97) ∧
    (ren.params.length = 16) ∧
    (leAt ren.params 0 1 = 5) ∧
    (leAt ren.params 1 1 < 16) ∧
    (leAt ren.params 2 1 ≤ 1) ∧
    (leAt ren.params 3 1 = 0) ∧
    (leAt ren.params 4 2 = 0) ∧
    (leAt ren.params 6 2 = 0) ∧
    (leAt ren.params 8 8 = 0) ∧
    (((hold ren rule3).rule (leAt ren.params 1 1)).set_ = true ∧ (∃ t, (hold ren rule3).tenant ((hold ren rule3).rule (leAt ren.params 1 1)).tenant = some t) ∧ ∃ i, (hold ren rule3).image ((hold ren rule3).rule (leAt ren.params 1 1)).image = some i ∧ i.tenant = ((hold ren rule3).rule (leAt ren.params 1 1)).tenant) :=
  ⟨readyOf (by decide), by decide, by decide, by decide, by decide, by decide, by decide, by decide, by decide, ⟨by decide, ⟨ten, by decide⟩, _, rfl, by decide⟩⟩

theorem meets_CascadeConfig_8 :
    (Ready (hold sstop t1) sstop 97) ∧
    (sstop.params.length = 16) ∧
    (leAt sstop.params 0 1 = 6) ∧
    (leAt sstop.params 1 1 = 0) ∧
    (leAt sstop.params 3 1 = 0) ∧
    (leAt sstop.params 4 2 = 0) ∧
    (leAt sstop.params 6 2 = 0) ∧
    (leAt sstop.params 8 8 = 0) ∧
    (leAt sstop.params 2 1 = 0) :=
  ⟨readyOf (by decide), by and_intros <;> decide⟩

theorem meets_CascadeConfig_9 :
    (Ready (hold srun t1) srun 97) ∧
    (srun.params.length = 16) ∧
    (leAt srun.params 0 1 = 6) ∧
    (leAt srun.params 1 1 = 0) ∧
    (leAt srun.params 3 1 = 0) ∧
    (leAt srun.params 4 2 = 0) ∧
    (leAt srun.params 6 2 = 0) ∧
    (leAt srun.params 8 8 = 0) ∧
    (leAt srun.params 2 1 = 1) ∧
    ((hold srun t1).aon.seq.run = false) :=
  ⟨readyOf (by decide), by and_intros <;> decide⟩

theorem meets_EpochControl_1 :
    (Ready (hold (opn 1) (live t1 EpSt.opened)) (opn 1) 97) ∧
    ((opn 1).params.length = 16) ∧
    (leAt (opn 1).params 6 2 = 0) ∧
    (leAt (opn 1).params 1 1 < 48) ∧
    (leAt (opn 1).params 3 1 = 0 ∧ leAt (opn 1).params 8 8 = 0) ∧
    (leAt (opn 1).params 0 1 = 0) ∧
    (leAt (opn 1).params 2 1 = 0) ∧
    (1 ≤ leAt (opn 1).params 4 2) ∧
    (leAt (opn 1).params 4 2 ≤ 4096) ∧
    (((hold (opn 1) (live t1 EpSt.opened)).epoch (leAt (opn 1).params 1 1)).st ≠ EpSt.free) :=
  ⟨readyOf (by decide), by and_intros <;> decide⟩

theorem meets_EpochControl_2 :
    (Ready (hold (opn 17) (hoard1 t1)) (opn 17) 97) ∧
    ((opn 17).params.length = 16) ∧
    (leAt (opn 17).params 6 2 = 0) ∧
    (leAt (opn 17).params 1 1 < 48) ∧
    (leAt (opn 17).params 3 1 = 0 ∧ leAt (opn 17).params 8 8 = 0) ∧
    (leAt (opn 17).params 0 1 = 0) ∧
    (leAt (opn 17).params 2 1 = 0) ∧
    (1 ≤ leAt (opn 17).params 4 2) ∧
    (leAt (opn 17).params 4 2 ≤ 4096) ∧
    (((hold (opn 17) (hoard1 t1)).epoch (leAt (opn 17).params 1 1)).st = EpSt.free) ∧
    ((hold (opn 17) (hoard1 t1)).hoardPages < leAt (opn 17).params 4 2) :=
  ⟨readyOf (by decide), by and_intros <;> decide⟩

theorem meets_EpochControl_3 :
    (Ready (hold (opn 16) (hoard1 t1)) (opn 16) 97) ∧
    ((opn 16).params.length = 16) ∧
    (leAt (opn 16).params 6 2 = 0) ∧
    (leAt (opn 16).params 1 1 < 48) ∧
    (leAt (opn 16).params 3 1 = 0 ∧ leAt (opn 16).params 8 8 = 0) ∧
    (leAt (opn 16).params 0 1 = 0) ∧
    (leAt (opn 16).params 2 1 = 0) ∧
    (1 ≤ leAt (opn 16).params 4 2) ∧
    (leAt (opn 16).params 4 2 ≤ 4096) ∧
    (((hold (opn 16) (hoard1 t1)).epoch (leAt (opn 16).params 1 1)).st = EpSt.free) ∧
    (leAt (opn 16).params 4 2 ≤ (hold (opn 16) (hoard1 t1)).hoardPages) :=
  ⟨readyOf (by decide), by and_intros <;> decide⟩

theorem meets_EpochControl_4 :
    (Ready (hold bnd t1) bnd 97) ∧
    (bnd.params.length = 16) ∧
    (leAt bnd.params 6 2 = 0) ∧
    (leAt bnd.params 1 1 < 48) ∧
    (((hold bnd t1).epoch (leAt bnd.params 1 1)).st = EpSt.free) ∧
    (leAt bnd.params 4 2 = 0) ∧
    (leAt bnd.params 3 1 = 0 ∧ leAt bnd.params 8 8 = 0) ∧
    (leAt bnd.params 0 1 = 1) ∧
    (leAt bnd.params 2 1 < 64) :=
  ⟨readyOf (by decide), by and_intros <;> decide⟩

theorem meets_EpochControl_5 :
    (Ready (hold unb t1) unb 97) ∧
    (unb.params.length = 16) ∧
    (leAt unb.params 6 2 = 0) ∧
    (leAt unb.params 1 1 < 48) ∧
    (((hold unb t1).epoch (leAt unb.params 1 1)).st = EpSt.free) ∧
    (leAt unb.params 4 2 = 0) ∧
    (leAt unb.params 3 1 = 0 ∧ leAt unb.params 8 8 = 0) ∧
    (leAt unb.params 0 1 = 2) ∧
    (leAt unb.params 2 1 < 64) :=
  ⟨readyOf (by decide), by and_intros <;> decide⟩

theorem meets_EpochControl_6 :
    (Ready (hold com t1) com 97) ∧
    (com.params.length = 16) ∧
    (leAt com.params 6 2 = 0) ∧
    (leAt com.params 1 1 < 48) ∧
    (((hold com t1).epoch (leAt com.params 1 1)).st = EpSt.free) ∧
    (leAt com.params 4 2 = 0) ∧
    (leAt com.params 3 1 = 0 ∧ leAt com.params 8 8 = 0) ∧
    (leAt com.params 0 1 = 3) ∧
    (leAt com.params 2 1 = 0) :=
  ⟨readyOf (by decide), by and_intros <;> decide⟩

theorem meets_EpochControl_7 :
    (Ready (hold abt t1) abt 97) ∧
    (abt.params.length = 16) ∧
    (leAt abt.params 6 2 = 0) ∧
    (leAt abt.params 1 1 < 48) ∧
    (((hold abt t1).epoch (leAt abt.params 1 1)).st = EpSt.free) ∧
    (leAt abt.params 4 2 = 0) ∧
    (leAt abt.params 3 1 = 0 ∧ leAt abt.params 8 8 = 0) ∧
    (leAt abt.params 0 1 = 4) ∧
    (leAt abt.params 2 1 = 0) :=
  ⟨readyOf (by decide), by and_intros <;> decide⟩

theorem meets_EpochControl_8 :
    (Ready (lv bnd) bnd 97) ∧
    (bnd.params.length = 16) ∧
    (leAt bnd.params 6 2 = 0) ∧
    (leAt bnd.params 1 1 < 48) ∧
    (((lv bnd).epoch (leAt bnd.params 1 1)).st = EpSt.opened) ∧
    (((lv bnd).epoch (leAt bnd.params 1 1)).tenant = bnd.tenant) ∧
    (leAt bnd.params 4 2 = 0) ∧
    (leAt bnd.params 3 1 = 0 ∧ leAt bnd.params 8 8 = 0) ∧
    (leAt bnd.params 0 1 = 1) ∧
    (leAt bnd.params 2 1 < 64) ∧
    (bit ((lv bnd).ring (leAt bnd.params 2 1)).sqCfg 10 = false) ∧
    (fld ((lv bnd).ring (leAt bnd.params 2 1)).sqCfg 16 10 ≠ bnd.tenant) :=
  ⟨readyOf (by decide), by and_intros <;> decide⟩

theorem meets_EpochControl_9 :
    (Ready lvBnd bnd 97) ∧
    (bnd.params.length = 16) ∧
    (leAt bnd.params 6 2 = 0) ∧
    (leAt bnd.params 1 1 < 48) ∧
    ((lvBnd.epoch (leAt bnd.params 1 1)).st = EpSt.opened) ∧
    ((lvBnd.epoch (leAt bnd.params 1 1)).tenant = bnd.tenant) ∧
    (leAt bnd.params 4 2 = 0) ∧
    (leAt bnd.params 3 1 = 0 ∧ leAt bnd.params 8 8 = 0) ∧
    (leAt bnd.params 0 1 = 1) ∧
    (leAt bnd.params 2 1 < 64) ∧
    (bit (lvBnd.ring (leAt bnd.params 2 1)).sqCfg 10 = true) :=
  ⟨readyOf (by decide), by and_intros <;> decide⟩

theorem meets_EpochControl_10 :
    (Ready lvUnb unb 97) ∧
    (unb.params.length = 16) ∧
    (leAt unb.params 6 2 = 0) ∧
    (leAt unb.params 1 1 < 48) ∧
    ((lvUnb.epoch (leAt unb.params 1 1)).st = EpSt.opened) ∧
    ((lvUnb.epoch (leAt unb.params 1 1)).tenant = unb.tenant) ∧
    (leAt unb.params 4 2 = 0) ∧
    (leAt unb.params 3 1 = 0 ∧ leAt unb.params 8 8 = 0) ∧
    (leAt unb.params 0 1 = 2) ∧
    (leAt unb.params 2 1 < 64) ∧
    ((lvUnb.ring (leAt unb.params 2 1)).bound = some (leAt unb.params 1 1)) :=
  ⟨readyOf (by decide), by and_intros <;> decide⟩

theorem meets_EpochControl_11 :
    (Ready (lv com) com 97) ∧
    (com.params.length = 16) ∧
    (leAt com.params 6 2 = 0) ∧
    (leAt com.params 1 1 < 48) ∧
    (((lv com).epoch (leAt com.params 1 1)).st = EpSt.opened) ∧
    (((lv com).epoch (leAt com.params 1 1)).tenant = com.tenant) ∧
    (leAt com.params 4 2 = 0) ∧
    (leAt com.params 3 1 = 0 ∧ leAt com.params 8 8 = 0) ∧
    (leAt com.params 0 1 = 3) ∧
    (leAt com.params 2 1 = 0) ∧
    (((lv com).epoch (leAt com.params 1 1)).commit = none) ∧
    (∀ m < 64, ((lv com).ring m).bound ≠ some (leAt com.params 1 1)) :=
  ⟨readyOf (by decide), by and_intros <;> decide⟩

theorem meets_EpochControl_12 :
    (Ready (lv abt) abt 97) ∧
    (abt.params.length = 16) ∧
    (leAt abt.params 6 2 = 0) ∧
    (leAt abt.params 1 1 < 48) ∧
    (((lv abt).epoch (leAt abt.params 1 1)).st = EpSt.opened) ∧
    (((lv abt).epoch (leAt abt.params 1 1)).tenant = abt.tenant) ∧
    (leAt abt.params 4 2 = 0) ∧
    (leAt abt.params 3 1 = 0 ∧ leAt abt.params 8 8 = 0) ∧
    (leAt abt.params 0 1 = 4) ∧
    (leAt abt.params 2 1 = 0) ∧
    (((lv abt).epoch (leAt abt.params 1 1)).abortCmd = none) :=
  ⟨readyOf (by decide), by and_intros <;> decide⟩

theorem meets_EpochEnds_4 :
    ((sealing0.epoch ↑(47 : Fin 64)).seqs = []) :=
  by decide

theorem meets_EpochEnds_5 :
    ((shadowed.epoch ↑(47 : Fin 64)).seqs = []) ∧
    ((shadowed.epoch ↑(47 : Fin 64)).pages = [sh2]) ∧
    (shadowed.region (sh2.target * 4096) = Region.dm 0) ∧
    (sh2.target * 4096 + 4096 ≤ shadowed.hoardAddr sh2.die sh2.page ∨ shadowed.hoardAddr sh2.die sh2.page + 4096 ≤ sh2.target * 4096) ∧
    (0 < 4096) :=
  by and_intros <;> decide

theorem meets_EpochEnds_5b :
    ((sealing0.epoch ↑(47 : Fin 64)).seqs = []) ∧
    ((sealing0.epoch ↑(47 : Fin 64)).pages = []) :=
  ⟨by decide, by decide⟩

theorem meets_EpochEnds_6 :
    ((committing.epoch ↑(47 : Fin 64)).st = EpSt.committing) ∧
    ((committing.epoch ↑(47 : Fin 64)).commit = none) :=
  ⟨by decide, by decide⟩

theorem meets_EpochEnds_7 :
    ((committing1.epoch ↑(47 : Fin 64)).st = EpSt.committing) ∧
    ((committing1.epoch ↑(47 : Fin 64)).commit = some sealc.id) ∧
    ((State.postHeld (committing1.epoch ↑(47 : Fin 64)).held committing1).cmd sealc.id = some sealc) :=
  ⟨by decide, by decide, by decide⟩

theorem meets_EpochEnds_8 :
    ((aborting.epoch ↑(47 : Fin 64)).st = EpSt.aborting) ∧
    (aborting.epochJobs ↑(47 : Fin 64) = []) ∧
    (aborting.members ↑(47 : Fin 64) = []) ∧
    ((aborting.epoch ↑(47 : Fin 64)).seqs = []) ∧
    (↑(47 : Fin 64) < 48) ∧
    ((aborting.epoch ↑(47 : Fin 64)).commit = none) ∧
    ((aborting.epoch ↑(47 : Fin 64)).abortCmd = none) :=
  by and_intros <;> decide

theorem meets_EpochEnds_9 :
    (held1.own = false) :=
  by decide

theorem meets_EpochEnds_10 :
    ({ cq := held1.cq, sq := held1.sq, st := held1.st, own := true : Held }.own = true) :=
  by decide

theorem meets_EpochWindows_1 :
    (((dl (100 : Sfc)).epoch (48 + ↑(15 : Fin 16))).st = EpSt.opened) ∧
    (((dl (100 : Sfc)).epoch (48 + ↑(15 : Fin 16))).deadline = some (100 : Sfc)) ∧
    (BitVec.toNat (100 : Sfc) ≤ BitVec.toNat (dl (100 : Sfc)).tb.sfc) :=
  ⟨by decide, by decide, by decide⟩

theorem meets_EpochWindows_2 :
    (((dl (101 : Sfc)).epoch (48 + ↑(15 : Fin 16))).st = EpSt.opened) ∧
    (((dl (101 : Sfc)).epoch (48 + ↑(15 : Fin 16))).deadline = some (101 : Sfc)) ∧
    (BitVec.toNat (dl (101 : Sfc)).tb.sfc < BitVec.toNat (101 : Sfc)) :=
  ⟨by decide, by decide, by decide⟩

theorem meets_EpochWindows_4 :
    (opened3.offAt (459776 + 4 * ↑(0 : Fin 4)) = false) ∧
    (∃ e ∈ opened3.epochs, e.2.st ≠ EpSt.free) :=
  ⟨by decide, ⟨(3, { st := .opened }), by decide⟩⟩

theorem meets_EpochWindows_5 :
    (t1.offAt (459776 + 4 * ↑(0 : Fin 4)) = false) ∧
    (64 < BitVec.toNat (65 : W32) % 128) :=
  ⟨by decide, by decide⟩

theorem meets_EpochWindows_6 :
    (allFree.offAt (459776 + 4 * ↑(0 : Fin 4)) = false) ∧
    (∀ e ∈ allFree.epochs, e.2.st = EpSt.free) ∧
    (BitVec.toNat (64 : W32) % 128 ≤ 64) :=
  ⟨by decide, by decide, by decide⟩

theorem meets_RuleActions_1 :
    (BitVec.toNat (1 : BitVec 2) ≤ BitVec.toNat (1 : BitVec 2)) :=
  by decide

theorem meets_RuleActions_2 :
    (BitVec.toNat (0 : BitVec 2) < BitVec.toNat (1 : BitVec 2)) ∧
    ((rsBusy.rule 15).left ≠ 0) ∧
    ((1 : BitVec 2) = (1 : BitVec 2)) :=
  ⟨by decide, by decide, by decide⟩

theorem meets_RuleActions_3 :
    (BitVec.toNat (1 : BitVec 2) < BitVec.toNat (2 : BitVec 2)) ∧
    ((rsOpen.epoch (48 + 15)).st ≠ EpSt.free) ∧
    ((2 : BitVec 2) = (2 : BitVec 2)) ∧
    ((rsOpen.epoch (48 + 15)).st = EpSt.opened) ∧
    (∀ (d : Sfc), (rsOpen.epoch (48 + 15)).deadline = some d → BitVec.toNat rsOpen.tb.sfc < BitVec.toNat d) :=
  ⟨by decide, by decide, by decide, by decide, fun d h => Option.some.inj h ▸ by decide⟩

theorem meets_RuleActions_4 :
    (BitVec.toNat (0 : BitVec 2) < BitVec.toNat (1 : BitVec 2)) ∧
    (¬((rs0.rule 15).left ≠ 0 ∨ (rs0.epoch (48 + 15)).st ≠ EpSt.free)) :=
  ⟨by decide, by decide⟩

theorem meets_RuleActions_5 :
    (BitVec.toNat (0 : BitVec 2) < BitVec.toNat (2 : BitVec 2)) ∧
    (¬((rs0.rule 15).left ≠ 0 ∨ (rs0.epoch (48 + 15)).st ≠ EpSt.free)) :=
  ⟨by decide, by decide⟩

theorem meets_RuleActions_5b :
    (BitVec.toNat (0 : BitVec 2) < BitVec.toNat (1 : BitVec 2)) ∧
    (¬((rs0.rule 15).left ≠ 0 ∨ (rs0.epoch (48 + 15)).st ≠ EpSt.free)) ∧
    ((1 : BitVec 2) = (1 : BitVec 2)) :=
  ⟨by decide, by decide, by decide⟩

theorem meets_RuleActions_5c :
    (BitVec.toNat (0 : BitVec 2) < BitVec.toNat (2 : BitVec 2)) ∧
    (¬((rs0.rule 15).left ≠ 0 ∨ (rs0.epoch (48 + 15)).st ≠ EpSt.free)) ∧
    ((2 : BitVec 2) ≠ (1 : BitVec 2)) :=
  ⟨by decide, by decide, by decide⟩

theorem meets_RuleActions_6 :
    (256 ≤ mreadLe rsBig.mem (4194048 + 4 * ↑(63 : Fin 64)) 4) :=
  by decide

theorem meets_RuleActions_7 :
    (∀ r < 16, ¬((rs0.rule r).enabled = true ∧ (rs0.rule r).tier ≠ (0 : BitVec 2) ∧ (rs0.rule r).score = ↑(62 : Fin 64))) :=
  by decide

theorem meets_RuleActions_8 :
    (15 < 16) ∧
    (mreadLe rs0.mem (4194048 + 4 * ↑(63 : Fin 64)) 4 < 256) ∧
    ((rs0.rule 15).enabled = true) ∧
    ((rs0.rule 15).tier ≠ (0 : BitVec 2)) ∧
    ((rs0.rule 15).score = ↑(63 : Fin 64)) ∧
    (∀ q < 16, q ≠ 15 → (rs0.rule q).enabled = false) :=
  by and_intros <;> decide

theorem meets_RuleActions_8b :
    (15 < 16) ∧
    (mreadLe { rs0 with mem := [(4194048 + 4 * 63, (200 : BitVec 8))] : State }.mem (4194048 + 4 * ↑(63 : Fin 64)) 4 < 256) ∧
    (({ rs0 with mem := [(4194048 + 4 * 63, (200 : BitVec 8))] : State }.rule 15).enabled = true) ∧
    (({ rs0 with mem := [(4194048 + 4 * 63, (200 : BitVec 8))] : State }.rule 15).tier ≠ (0 : BitVec 2)) ∧
    (({ rs0 with mem := [(4194048 + 4 * 63, (200 : BitVec 8))] : State }.rule 15).score = ↑(63 : Fin 64)) ∧
    (∀ q < 16, q ≠ 15 → ({ rs0 with mem := [(4194048 + 4 * 63, (200 : BitVec 8))] : State }.rule q).enabled = false) :=
  by and_intros <;> decide

theorem meets_RuleActions_9 :
    (t0nap.sch.t0 = [t0c]) ∧
    (t0nap.pmu.dev ≠ DevSt.run) :=
  ⟨by decide, by decide⟩

theorem meets_RuleActions_10 :
    (t0other.sch.t0 = [t0c]) ∧
    (t0other.pmu.dev = DevSt.run) ∧
    (∀ r < 16, ¬((t0other.rule r).enabled = true ∧ (t0other.rule r).tier = (0 : BitVec 2) ∧ (t0other.rule r).det.toNat = t0c.det)) :=
  ⟨by decide, by decide, by decide⟩

theorem meets_RuleActions_11 :
    (t0run.sch.t0 = [t0c]) ∧
    (15 < 16) ∧
    (t0run.pmu.dev = DevSt.run) ∧
    ((t0run.rule 15).enabled = true) ∧
    ((t0run.rule 15).tier = (0 : BitVec 2)) ∧
    ((t0run.rule 15).det.toNat = t0c.det) ∧
    (∀ q < 16, q ≠ 15 → (t0run.rule q).enabled = false) :=
  by and_intros <;> decide

theorem meets_EpochEnds_11 :
    let s : State := sealing0
    let e : Fin 64 := 47
    let c : Cmd := sealc
    ((s.epoch e.val).commit = some c.id) ∧
    (s.cmd c.id = some c) ∧
    ((s.epoch e.val).st = EpSt.sealing) ∧
    (c.phase = Phase.running) ∧
    (dueSel c.due = 0) ∧
    (∀ n < 64, (s.ring n).bound ≠ some e.val) ∧
    ((s.epoch e.val).waitJobs = true → s.epochJobs e.val = [] ∧ s.members e.val = []) ∧
    (s.backHeld e.val = false) ∧
    ((s.epoch e.val).verdict = none) :=
  by and_intros <;> decide

theorem meets_EpochEnds_12 :
    let s : State := sealing (some 0) list1
    let e : Fin 64 := 47
    let c : Cmd := sealc
    let a : ℕ := 0
    let l : List (ℕ × ℕ × ℕ) := [(5, 2, 3)]
    ((s.epoch e.val).commit = some c.id) ∧
    (s.cmd c.id = some c) ∧
    ((s.epoch e.val).st = EpSt.sealing) ∧
    (c.phase = Phase.running) ∧
    (dueSel c.due = 0) ∧
    (∀ n < 64, (s.ring n).bound ≠ some e.val) ∧
    ((s.epoch e.val).waitJobs = true → s.epochJobs e.val = [] ∧ s.members e.val = []) ∧
    (s.backHeld e.val = false) ∧
    ((s.epoch e.val).verdict = some a) ∧
    (s.verdict e.val a = Sum.inr l) :=
  by and_intros <;> decide

theorem meets_EpochEnds_13 :
    let s : State := sealing (some 0) []
    let e : Fin 64 := 47
    let c : Cmd := sealc
    let a : ℕ := 0
    let r : ℕ := 0x0107
    ((s.epoch e.val).commit = some c.id) ∧
    (s.cmd c.id = some c) ∧
    ((s.epoch e.val).st = EpSt.sealing) ∧
    (c.phase = Phase.running) ∧
    (dueSel c.due = 0) ∧
    (∀ n < 64, (s.ring n).bound ≠ some e.val) ∧
    ((s.epoch e.val).waitJobs = true → s.epochJobs e.val = [] ∧ s.members e.val = []) ∧
    (s.backHeld e.val = false) ∧
    ((s.epoch e.val).verdict = some a) ∧
    (s.verdict e.val a = Sum.inl r) :=
  by and_intros <;> decide

def badC (o : Nat) : Cmd := ctl [(0, 1, o), (1, 1, 47), (7, 1, 1)]
def ruleG : Cmd := rd 0x60 48 [(1, 1, 15), (4, 1, 0), (5, 1, 10), (6, 1, 200), (7, 1, 64), (8, 4, 1048576), (12, 2, 1), (18, 2, 4096), (20, 1, 2), (21, 1, 63)]
def ruleT0 : Cmd := rd 0x60 48 [(1, 1, 15), (5, 1, 10), (6, 1, 200)]
def seqBad : Cmd := rd 0x60 12 [(0, 1, 1), (1, 1, 1), (2, 2, 4095), (4, 4, 1), (8, 4, 0xDEADBEEF)]
def ren15 : Cmd := ctl [(0, 1, 5), (1, 1, 15), (2, 1, 1)]
def ten2 (c : Cmd) : State := { lv c with epochs := [(47, { st := .opened, tenant := 2, number := 5 })] }
def opn1 : Cmd := opn 1
def hoardUp (s : State) : State := { (up s) with sch.hoard := [(0, 1)] }
def unbR (r : Ring) (c : Cmd) : State := { lv c with rings := [(63, r)] }
def withCom (k : Option Nat) (c : Cmd) : State := { lv c with epochs := [(47, { st := if k.isSome then .sealing else .opened, tenant := 1, number := 5, commit := k })] }
def abS (st : EpSt) : State := hold abt (live t1 st)
def comAt : Cmd := { com with due := 0x4000000000000 }
def comLate : Cmd := { ctl [(0, 1, 3), (1, 1, 47)] with due := BitVec.ofNat 64 (2 ^ 48 + 64) }
def rdS (c : Cmd) : State := { (live t1 .opened) with cmds := [], rings := [(63, { bound := some 47, sqTail := 2 })] }
def sealAt : Cmd := { sealc with due := BitVec.ofNat 64 (2 ^ 48 + 64) }
def sealAtS : State := { hold sealAt t1 with epochs := [(47, { st := .sealing, tenant := 1, number := 5, commit := some 1 })] }
def sgE : Signal := { src := 1, core := 2, cell := 3, v := 1, tenant := 1 }
def sgEs : State := { shadowed with sch.signals := [sgE] }
def dlPast : State := { t1 with tb.sfc := 100, rules := [(15, { ruleL true with left := 0 })], epochs := [(63, { st := .opened, tenant := 1, deadline := some 99 })] }
def t0d : T0Change := { det := 3, old := 0, new := 2, woke := false }
def t0ns : State := { t1 with pmu.dev := .run, sch.t0 := [t0d], rules := [(15, { ruleL true with tier := 0, det := 2 })] }

theorem meets_EpochEnds_14 :
    let s : State := (sealing (some 0) [])
    ∃ e : Fin 64, (∃ n < 64, (s.ring n).bound = some e.val) ∨ (s.epoch e.val).st ≠ EpSt.sealing ∨ s.backHeld e.val = true ∨ (s.epoch e.val).waitJobs = true ∧ (s.epochJobs e.val ≠ [] ∨ s.members e.val ≠ []) :=
  by decide +kernel

theorem meets_CascadeConfig_10 :
    let s : State := hold ruleG t1
    let c : Cmd := ruleG
    (Ready s c 96) ∧
    (leAt c.params 0 1 = 0) ∧
    (c.params.length = 48) ∧
    (leAt c.params 1 1 < 16) ∧
    (leAt c.params 2 1 = 0) ∧
    (leAt c.params 3 1 % 4 = 0) ∧
    (leAt c.params 3 1 / 4 % 4 = 0) ∧
    (leAt c.params 3 1 < 128) ∧
    (leAt c.params 4 1 = 0) ∧
    (leAt c.params 5 1 ≤ leAt c.params 6 1) ∧
    (checkRule s c = none) :=
  ⟨readyOf (by decide +kernel), by decide +kernel, by decide +kernel, by decide +kernel, by decide +kernel, by decide +kernel, by decide +kernel, by decide +kernel, by decide +kernel, by decide +kernel, by decide +kernel⟩

theorem meets_CascadeConfig_11 :
    let s : State := hold seqBad t1
    let c : Cmd := seqBad
    (Ready s c 96) ∧
    (leAt c.params 0 1 = 1) ∧
    (c.params.length < 8 ∨ leAt c.params 1 1 ≠ 0 ∨ 4096 ≤ leAt c.params 2 2 ∨ leAt c.params 4 4 = 0 ∨ 4096 < leAt c.params 4 4 ∨ c.params.length ≠ 8 + 4 * leAt c.params 4 4) :=
  ⟨readyOf (by decide +kernel), by decide +kernel, by decide +kernel⟩

theorem meets_CascadeConfig_12 :
    let s : State := hold ren15 t1
    let c : Cmd := ren15
    let e1 := s.rule (leAt c.params 1 1)
    (Ready s c 97) ∧
    (c.params.length = 16) ∧
    (leAt c.params 0 1 = 5) ∧
    (leAt c.params 1 1 < 16) ∧
    (leAt c.params 2 1 ≤ 1) ∧
    (leAt c.params 3 1 = 0) ∧
    (leAt c.params 4 2 = 0) ∧
    (leAt c.params 6 2 = 0) ∧
    (leAt c.params 8 8 = 0) ∧
    (leAt c.params 2 1 = 1) ∧
    (s.tenant e1.tenant = none ∨ e1.set_ = false ∨ s.image e1.image = none ∨ ∃ i, s.image e1.image = some i ∧ i.tenant ≠ e1.tenant) :=
  ⟨readyOf (by decide +kernel), by decide +kernel, by decide +kernel, by decide +kernel, by decide +kernel, by decide +kernel, by decide +kernel, by decide +kernel, by decide +kernel, by decide +kernel, by decide +kernel⟩

theorem meets_CascadeConfig_13 :
    let s : State := hold srun t1run
    let c : Cmd := srun
    (Ready s c 97) ∧
    (c.params.length = 16) ∧
    (leAt c.params 0 1 = 6) ∧
    (leAt c.params 1 1 = 0) ∧
    (leAt c.params 3 1 = 0) ∧
    (leAt c.params 4 2 = 0) ∧
    (leAt c.params 6 2 = 0) ∧
    (leAt c.params 8 8 = 0) ∧
    (leAt c.params 2 1 = 1) ∧
    (s.aon.seq.run = true) :=
  ⟨readyOf (by decide +kernel), by decide +kernel, by decide +kernel, by decide +kernel, by decide +kernel, by decide +kernel, by decide +kernel, by decide +kernel, by decide +kernel, by decide +kernel⟩

theorem meets_EpochControl_13 :
    let s : State := hold (badC 0) t1
    let c : Cmd := badC 0
    (Ready s c 97) ∧
    (c.ctrlOk = false) ∧
    (c.ctrlOper = 0) :=
  ⟨readyOf (by decide +kernel), by decide +kernel, by decide +kernel⟩

theorem meets_EpochControl_14 :
    let s : State := hold (badC 1) t1
    let c : Cmd := badC 1
    (Ready s c 97) ∧
    (c.ctrlOk = false) ∧
    (c.ctrlOper = 1) :=
  ⟨readyOf (by decide +kernel), by decide +kernel, by decide +kernel⟩

theorem meets_EpochControl_15 :
    let s : State := hold (badC 2) t1
    let c : Cmd := badC 2
    (Ready s c 97) ∧
    (c.ctrlOk = false) ∧
    (c.ctrlOper = 2) :=
  ⟨readyOf (by decide +kernel), by decide +kernel, by decide +kernel⟩

theorem meets_EpochControl_16 :
    let s : State := hold (badC 3) t1
    let c : Cmd := badC 3
    (Ready s c 97) ∧
    (c.ctrlOk = false) ∧
    (c.ctrlOper = 3) :=
  ⟨readyOf (by decide +kernel), by decide +kernel, by decide +kernel⟩

theorem meets_EpochControl_17 :
    let s : State := hold (badC 4) t1
    let c : Cmd := badC 4
    (Ready s c 97) ∧
    (c.ctrlOk = false) ∧
    (c.ctrlOper = 4) :=
  ⟨readyOf (by decide +kernel), by decide +kernel, by decide +kernel⟩

theorem meets_EpochControl_18 :
    let s : State := hold (badC 5) t1
    let c : Cmd := badC 5
    (Ready s c 97) ∧
    (c.ctrlOk = false) ∧
    (c.ctrlOper = 5) :=
  ⟨readyOf (by decide +kernel), by decide +kernel, by decide +kernel⟩

theorem meets_EpochControl_19 :
    let s : State := hold (badC 6) t1
    let c : Cmd := badC 6
    (Ready s c 97) ∧
    (c.ctrlOk = false) ∧
    (c.ctrlOper = 6) :=
  ⟨readyOf (by decide +kernel), by decide +kernel, by decide +kernel⟩

theorem meets_EpochControl_20 :
    let s : State := hold (badC 3) t1
    let c : Cmd := badC 3
    (Ready s c 97) ∧
    (c.params.length ≠ 16 ∨ leAt c.params 6 2 ≠ 0 ∨ 6 < leAt c.params 0 1 ∨ leAt c.params 0 1 ≤ 4 ∧ 48 ≤ leAt c.params 1 1) :=
  ⟨readyOf (by decide +kernel), by decide +kernel⟩

theorem meets_EpochControl_21 :
    let s : State := lv opn1
    let c : Cmd := opn1
    (Ready s c 97) ∧
    (c.ctrlOk = true) ∧
    (leAt c.params 0 1 = 0) ∧
    ((s.epoch (leAt c.params 1 1)).st ≠ EpSt.free) :=
  ⟨readyOf (by decide +kernel), by decide +kernel, by decide +kernel, by decide +kernel⟩

theorem meets_EpochControl_22 :
    let s : State := hold opn1 t1
    let c : Cmd := opn1
    (Ready s c 97) ∧
    (c.ctrlOk = true) ∧
    (leAt c.params 0 1 = 0) ∧
    ((s.epoch (leAt c.params 1 1)).st = EpSt.free) ∧
    (s.hoardPages < leAt c.params 4 2) :=
  ⟨readyOf (by decide +kernel), by decide +kernel, by decide +kernel, by decide +kernel, by decide +kernel⟩

theorem meets_EpochControl_23 :
    let s : State := hoardUp (hold opn1 t1)
    let c : Cmd := opn1
    (Ready s c 97) ∧
    (c.ctrlOk = true) ∧
    (leAt c.params 0 1 = 0) ∧
    ((s.epoch (leAt c.params 1 1)).st = EpSt.free) ∧
    (leAt c.params 4 2 ≤ s.hoardPages) :=
  ⟨readyOf (by decide +kernel), by decide +kernel, by decide +kernel, by decide +kernel, by decide +kernel⟩

theorem meets_EpochControl_24 :
    let s : State := hold bnd t1
    let c : Cmd := bnd
    (Ready s c 97) ∧
    (c.ctrlOk = true) ∧
    ((s.epoch (leAt c.params 1 1)).st = EpSt.free ∨ (s.epoch (leAt c.params 1 1)).tenant ≠ c.tenant) ∧
    (leAt c.params 0 1 = 1) :=
  ⟨readyOf (by decide +kernel), by decide +kernel, by decide +kernel, by decide +kernel⟩

theorem meets_EpochControl_25 :
    let s : State := ten2 unb
    let c : Cmd := unb
    (Ready s c 97) ∧
    (c.ctrlOk = true) ∧
    ((s.epoch (leAt c.params 1 1)).st = EpSt.free ∨ (s.epoch (leAt c.params 1 1)).tenant ≠ c.tenant) ∧
    (leAt c.params 0 1 = 2) :=
  ⟨readyOf (by decide +kernel), by decide +kernel, by decide +kernel, by decide +kernel⟩

theorem meets_EpochControl_26 :
    let s : State := ten2 com
    let c : Cmd := com
    (Ready s c 97) ∧
    (c.ctrlOk = true) ∧
    ((s.epoch (leAt c.params 1 1)).st = EpSt.free ∨ (s.epoch (leAt c.params 1 1)).tenant ≠ c.tenant) ∧
    (leAt c.params 0 1 = 3) :=
  ⟨readyOf (by decide +kernel), by decide +kernel, by decide +kernel, by decide +kernel⟩

theorem meets_EpochControl_27 :
    let s : State := ten2 abt
    let c : Cmd := abt
    (Ready s c 97) ∧
    (c.ctrlOk = true) ∧
    ((s.epoch (leAt c.params 1 1)).st = EpSt.free ∨ (s.epoch (leAt c.params 1 1)).tenant ≠ c.tenant) ∧
    (leAt c.params 0 1 = 4) :=
  ⟨readyOf (by decide +kernel), by decide +kernel, by decide +kernel, by decide +kernel⟩

theorem meets_EpochControl_28 :
    let s : State := lv bnd
    let c : Cmd := bnd
    (Ready s c 97) ∧
    (c.ctrlOk = true) ∧
    ((s.epoch (leAt c.params 1 1)).st ≠ EpSt.free) ∧
    ((s.epoch (leAt c.params 1 1)).tenant = c.tenant) ∧
    (leAt c.params 0 1 = 1) ∧
    (bit (s.ring (leAt c.params 2 1)).sqCfg 10 = false) ∧
    (fld (s.ring (leAt c.params 2 1)).sqCfg 16 10 ≠ c.tenant) :=
  ⟨readyOf (by decide +kernel), by decide +kernel, by decide +kernel, by decide +kernel, by decide +kernel, by decide +kernel, by decide +kernel⟩

theorem meets_EpochControl_29 :
    let s : State := lvBnd
    let c : Cmd := bnd
    (Ready s c 97) ∧
    (c.ctrlOk = true) ∧
    ((s.epoch (leAt c.params 1 1)).st ≠ EpSt.free) ∧
    ((s.epoch (leAt c.params 1 1)).tenant = c.tenant) ∧
    (leAt c.params 0 1 = 1) ∧
    (bit (s.ring (leAt c.params 2 1)).sqCfg 10 = true ∨ fld (s.ring (leAt c.params 2 1)).sqCfg 16 10 = c.tenant) :=
  ⟨readyOf (by decide +kernel), by decide +kernel, by decide +kernel, by decide +kernel, by decide +kernel, by decide +kernel⟩

theorem meets_EpochControl_30 :
    let s : State := lv unb
    let c : Cmd := unb
    (Ready s c 97) ∧
    (c.ctrlOk = true) ∧
    ((s.epoch (leAt c.params 1 1)).st ≠ EpSt.free) ∧
    ((s.epoch (leAt c.params 1 1)).tenant = c.tenant) ∧
    (leAt c.params 0 1 = 2) ∧
    ((s.ring (leAt c.params 2 1)).bound ≠ some (leAt c.params 1 1)) :=
  ⟨readyOf (by decide +kernel), by decide +kernel, by decide +kernel, by decide +kernel, by decide +kernel, by decide +kernel⟩

theorem meets_EpochControl_31 :
    let s : State := unbR { bound := some 47, sqTail := 2, sqHead := 2 } unb
    let c : Cmd := unb
    let e1 := s.ring (leAt c.params 2 1)
    (Ready s c 97) ∧
    (c.ctrlOk = true) ∧
    ((s.epoch (leAt c.params 1 1)).st ≠ EpSt.free) ∧
    ((s.epoch (leAt c.params 1 1)).tenant = c.tenant) ∧
    (leAt c.params 0 1 = 2) ∧
    (e1.bound = some (leAt c.params 1 1)) ∧
    (e1.unbind = none) ∧
    (e1.sqHead = e1.sqTail) :=
  ⟨readyOf (by decide +kernel), by decide +kernel, by decide +kernel, by decide +kernel, by decide +kernel, by decide +kernel, by decide +kernel, by decide +kernel⟩

theorem meets_EpochControl_32 :
    let s : State := lvUnb
    let c : Cmd := unb
    let e1 := s.ring (leAt c.params 2 1)
    (Ready s c 97) ∧
    (c.ctrlOk = true) ∧
    ((s.epoch (leAt c.params 1 1)).st ≠ EpSt.free) ∧
    ((s.epoch (leAt c.params 1 1)).tenant = c.tenant) ∧
    (leAt c.params 0 1 = 2) ∧
    (e1.bound = some (leAt c.params 1 1)) ∧
    (e1.unbind = none) ∧
    (e1.sqHead ≠ e1.sqTail) :=
  ⟨readyOf (by decide +kernel), by decide +kernel, by decide +kernel, by decide +kernel, by decide +kernel, by decide +kernel, by decide +kernel, by decide +kernel⟩

theorem meets_EpochControl_33 :
    let s : State := unbR { bound := some 47, sqTail := 2, unbind := some { tail := some 2, go := true } } unb
    let c : Cmd := unb
    let h : BitVec 12 := 2
    let g : Bool := true
    (Ready s c 97) ∧
    (c.ctrlOk = true) ∧
    ((s.epoch (leAt c.params 1 1)).st ≠ EpSt.free) ∧
    ((s.epoch (leAt c.params 1 1)).tenant = c.tenant) ∧
    (leAt c.params 0 1 = 2) ∧
    ((s.ring (leAt c.params 2 1)).bound = some (leAt c.params 1 1)) ∧
    ((s.ring (leAt c.params 2 1)).unbind = some { tail := some h, go := g }) :=
  ⟨readyOf (by decide +kernel), by decide +kernel, by decide +kernel, by decide +kernel, by decide +kernel, by decide +kernel, by decide +kernel⟩

theorem meets_EpochControl_34 :
    let s : State := unbR { bound := some 47, sqTail := 2, unbind := some { tail := none, go := false } } unb
    let c : Cmd := unb
    let g : Bool := false
    (Ready s c 97) ∧
    (c.ctrlOk = true) ∧
    ((s.epoch (leAt c.params 1 1)).st ≠ EpSt.free) ∧
    ((s.epoch (leAt c.params 1 1)).tenant = c.tenant) ∧
    (leAt c.params 0 1 = 2) ∧
    ((s.ring (leAt c.params 2 1)).bound = some (leAt c.params 1 1)) ∧
    ((s.ring (leAt c.params 2 1)).unbind = some { tail := none, go := g }) :=
  ⟨readyOf (by decide +kernel), by decide +kernel, by decide +kernel, by decide +kernel, by decide +kernel, by decide +kernel, by decide +kernel⟩

theorem meets_EpochControl_35 :
    let s : State := withCom (some 1) com
    let c : Cmd := com
    (Ready s c 97) ∧
    (c.ctrlOk = true) ∧
    ((s.epoch (leAt c.params 1 1)).st ≠ EpSt.free) ∧
    ((s.epoch (leAt c.params 1 1)).tenant = c.tenant) ∧
    (leAt c.params 0 1 = 3) ∧
    ((s.epoch (leAt c.params 1 1)).commit = some c.id) :=
  ⟨readyOf (by decide +kernel), by decide +kernel, by decide +kernel, by decide +kernel, by decide +kernel, by decide +kernel⟩

theorem meets_EpochControl_36 :
    let s : State := withCom (some 5) com
    let c : Cmd := com
    let d : ℕ := 5
    (Ready s c 97) ∧
    (c.ctrlOk = true) ∧
    ((s.epoch (leAt c.params 1 1)).st ≠ EpSt.free) ∧
    ((s.epoch (leAt c.params 1 1)).tenant = c.tenant) ∧
    (leAt c.params 0 1 = 3) ∧
    ((s.epoch (leAt c.params 1 1)).commit = some d) ∧
    (d ≠ c.id) :=
  ⟨readyOf (by decide +kernel), by decide +kernel, by decide +kernel, by decide +kernel, by decide +kernel, by decide +kernel, by decide +kernel⟩

theorem meets_EpochControl_37 :
    let s : State := lv com
    let c : Cmd := com
    let e1 := s.epoch (leAt c.params 1 1)
    (Ready s c 97) ∧
    (c.ctrlOk = true) ∧
    (e1.st ≠ EpSt.free) ∧
    (e1.tenant = c.tenant) ∧
    (leAt c.params 0 1 = 3) ∧
    (e1.commit = none) ∧
    (e1.st = EpSt.opened) :=
  ⟨readyOf (by decide +kernel), by decide +kernel, by decide +kernel, by decide +kernel, by decide +kernel, by decide +kernel, by decide +kernel⟩

theorem meets_EpochControl_38 :
    let s : State := abS .committing
    let c : Cmd := abt
    let e1 := s.epoch (leAt c.params 1 1)
    (Ready s c 97) ∧
    (c.ctrlOk = true) ∧
    (e1.st ≠ EpSt.free) ∧
    (e1.tenant = c.tenant) ∧
    (leAt c.params 0 1 = 4) ∧
    (e1.st = EpSt.committing ∨ e1.abortCmd ≠ none) :=
  ⟨readyOf (by decide +kernel), by decide +kernel, by decide +kernel, by decide +kernel, by decide +kernel, by decide +kernel⟩

theorem meets_EpochControl_39 :
    let s : State := lv abt
    let c : Cmd := abt
    let e1 := s.epoch (leAt c.params 1 1)
    (Ready s c 97) ∧
    (c.ctrlOk = true) ∧
    (e1.st ≠ EpSt.free) ∧
    (e1.tenant = c.tenant) ∧
    (leAt c.params 0 1 = 4) ∧
    (e1.abortCmd = none) ∧
    (e1.st = EpSt.opened ∨ e1.st = EpSt.sealing) :=
  ⟨readyOf (by decide +kernel), by decide +kernel, by decide +kernel, by decide +kernel, by decide +kernel, by decide +kernel, by decide +kernel⟩

theorem meets_EpochControl_40 :
    let s : State := abS .aborting
    let c : Cmd := abt
    let e1 := s.epoch (leAt c.params 1 1)
    (Ready s c 97) ∧
    (c.ctrlOk = true) ∧
    (e1.st ≠ EpSt.free) ∧
    (e1.tenant = c.tenant) ∧
    (leAt c.params 0 1 = 4) ∧
    (e1.abortCmd = none) ∧
    (e1.st = EpSt.aborting) :=
  ⟨readyOf (by decide +kernel), by decide +kernel, by decide +kernel, by decide +kernel, by decide +kernel, by decide +kernel, by decide +kernel⟩

theorem meets_EpochControl_41 :
    let s : State := hold comLate (live t1 .opened)
    let c : Cmd := comLate
    (s.cmd c.id = some c) ∧
    (c.op = 97) ∧
    (c.ctrlOper = 3) ∧
    (c.phase = Phase.read) ∧
    (s.mayStart c = true) ∧
    (checkCtrl s c = none) ∧
    (dueIs c.due 0 = true) ∧
    (tbReached (dueTb c.due) (s.tbNow (dueTb c.due)) (dueVal c.due).toNat = false) :=
  ⟨by decide +kernel, by decide +kernel, by decide +kernel, by decide +kernel, by decide +kernel, by decide +kernel, by decide +kernel, by decide +kernel⟩

theorem meets_EpochControl_42 :
    let s : State := rdS com
    let c : Cmd := com
    (c.op = 97) ∧
    (checkCtrl s c = none) ∧
    (s.cmds = []) ∧
    (c.ctrlOper = 3) :=
  ⟨by decide +kernel, by decide +kernel, by decide +kernel, by decide +kernel⟩

theorem meets_EpochControl_43 :
    let s : State := rdS unb
    let c : Cmd := unb
    (c.op = 97) ∧
    (checkCtrl s c = none) ∧
    (s.cmds = []) ∧
    (c.ctrlOper = 2) ∧
    ((s.ring (leAt c.params 2 1)).bound = some (leAt c.params 1 1)) ∧
    ((s.ring (leAt c.params 2 1)).unbind = none) :=
  ⟨by decide +kernel, by decide +kernel, by decide +kernel, by decide +kernel, by decide +kernel, by decide +kernel⟩

theorem meets_EpochEnds_15 :
    let s : State := sealAtS
    let e : Fin 64 := 47
    let c : Cmd := sealAt
    ((s.epoch e.val).commit = some c.id) ∧
    (s.cmd c.id = some c) ∧
    ((s.epoch e.val).st = EpSt.sealing) ∧
    (c.phase = Phase.running) ∧
    (dueIs c.due 0 = true) ∧
    (∀ n < 64, (s.ring n).bound ≠ some e.val) ∧
    ((s.epoch e.val).waitJobs = false) ∧
    (s.backHeld e.val = false) ∧
    ((s.epoch e.val).verdict = none) :=
  ⟨by decide +kernel, by decide +kernel, by decide +kernel, by decide +kernel, by decide +kernel, by decide +kernel, by decide +kernel, by decide +kernel, by decide +kernel⟩

theorem meets_EpochEnds_16 :
    let s : State := sgEs
    let e : Fin 64 := 47
    let k : ℕ × ℕ → ℕ → ℕ := fun _ n => n
    let g : Signal := sgE
    ((s.epoch e.val).seqs = []) ∧
    (g ∈ (State.commitEpoch e.val 0 k s).sch.signals) :=
  ⟨by decide +kernel, by decide +kernel⟩

theorem meets_EpochWindows_7 :
    let s : State := dlPast
    let r : Fin 16 := 15
    let d : Sfc := 99
    ((s.epoch (48 + r.val)).st = EpSt.opened) ∧
    ((s.epoch (48 + r.val)).deadline = some d) ∧
    (BitVec.toNat d ≤ BitVec.toNat s.tb.sfc) ∧
    ((s.epoch (48 + r.val)).seqs = []) :=
  ⟨by decide +kernel, by decide +kernel, by decide +kernel, by decide +kernel⟩

theorem meets_RuleActions_12 :
    let s : State := dlPast
    let r : ℕ := 15
    let old : BitVec 2 := 0
    let new : BitVec 2 := 2
    let d : Sfc := 99
    (old.toNat < new.toNat) ∧
    ((s.rule r).left ≠ 0 ∨ (s.epoch (48 + r)).st ≠ EpSt.free) ∧
    ((s.epoch (48 + r)).deadline = some d) ∧
    (BitVec.toNat d ≤ BitVec.toNat s.tb.sfc) :=
  ⟨by decide +kernel, by decide +kernel, by decide +kernel, by decide +kernel⟩

theorem meets_RuleActions_13 :
    let s : State := rs0
    let j : Fin 64 := 62
    ∀ r < 16, ¬((s.rule r).set_ = true ∧ (s.rule r).tier ≠ 0 ∧ (s.rule r).score = j.val) :=
  by decide +kernel

theorem meets_RuleActions_14 :
    let s : State := rs0
    let j : Fin 64 := 63
    let r : ℕ := 15
    (r < 16) ∧
    (mreadLe s.mem (4194048 + 4 * j.val) 4 < 256) ∧
    ((s.rule r).set_ = true) ∧
    ((s.rule r).tier ≠ 0) ∧
    ((s.rule r).score = j.val) ∧
    (∀ q < 16, q ≠ r → ¬((s.rule q).set_ = true ∧ (s.rule q).tier ≠ 0 ∧ (s.rule q).score = j.val)) :=
  ⟨by decide +kernel, by decide +kernel, by decide +kernel, by decide +kernel, by decide +kernel, by decide +kernel⟩

theorem meets_RuleActions_15 :
    let s : State := t0ns
    let c : T0Change := t0d
    let l : List T0Change := []
    (s.sch.t0 = c :: l) ∧
    (s.pmu.dev = DevSt.run) ∧
    (∀ r < 16, ¬((s.rule r).set_ = true ∧ (s.rule r).tier = 0 ∧ (s.rule r).det.toNat = c.det ∧ r ∉ c.done)) :=
  ⟨by decide +kernel, by decide +kernel, by decide +kernel⟩

theorem meets_RuleActions_16 :
    let s : State := t0run
    let c : T0Change := t0c
    let l : List T0Change := []
    let r : ℕ := 15
    (s.sch.t0 = c :: l) ∧
    (r < 16) ∧
    (s.pmu.dev = DevSt.run) ∧
    ((s.rule r).set_ = true) ∧
    ((s.rule r).tier = 0) ∧
    ((s.rule r).det.toNat = c.det) ∧
    (r ∉ c.done) ∧
    (∀ q < 16, q ≠ r → ¬((s.rule q).set_ = true ∧ (s.rule q).tier = 0 ∧ (s.rule q).det.toNat = c.det)) :=
  ⟨by decide +kernel, by decide +kernel, by decide +kernel, by decide +kernel, by decide +kernel, by decide +kernel, by decide +kernel, by decide +kernel⟩

end Part16

namespace Part17

def capB (fs : List (Nat × Nat × Nat)) : List Byte :=
  bytes 64 ([(1, 1, 16), (4, 4, 4096), (16, 8, 0x10000), (24, 8, 0x200000), (33, 1, 1), (36, 2, 4), (38, 2, 256), (40, 2, 1), (42, 2, 1), (44, 4, 1),
    (48, 4, 1)] ++ fs)
def cc (fs : List (Nat × Nat × Nat)) : Cmd := { id := 1, sq := 0, op := 0x00C0, tag := 7, tenant := 1, cls := .interactive, cq := 0, params := capB fs }
def capS (c : Cmd) : State := hold c { t1 with aud.ports := [(0, { ctrl := 0x111 }), (1, { ctrl := 0x111 })] }
def capC : Capture := (cc []).capture
def okP : Cmd := cc []
def badP : Cmd := cc [(60, 1, 1)]
def winP : Cmd := cc [(16, 8, 0x100000000)]
def rtP : Cmd := cc [(0, 1, 32)]
def busyC : State := { capS okP with caps := [(0, some { capC with cmd := 9 })] }
def fullC : State := { capS okP with caps := (List.range 4).map (fun i => (i, some { capC with cmd := 9, outRoute := 1 + i })) }
def oneC : State := { capS okP with caps := [(0, some { capC with cmd := 9, outRoute := 1 })] }
def run (x : Capture) : State := { hold { okP with id := 9, phase := .running } (up t1) with caps := [(2, some { x with cmd := 9 })] }
def x0 : Capture := { capC with cmd := 9 }
def at63 (s : State) : State := { s with tb.sfc := 63 }
def x1 : Capture := { x0 with exciting := true, length := 4096, frame := 8895 }
def x2 : Capture := { x1 with frame := 8896 }
def x3 : Capture := { x0 with phase := 1, sig := [1000000], rec_ := [8388] }
def x4 : Capture := { x0 with phase := 1, sig := [1000000, -5], rec_ := [0, 0, 8000000, -40] }
def sgL : List Int := [1000000, -5]
def rcL : List Int := [0, 0, 8000000, -40]
def xf : Capture := { x0 with phase := 2, weights := List.replicate 101 0x3F800000, mom := List.replicate 101 0, var := List.replicate 101 0, lag := 5, step := 7, best := some (0, 5) }
def fj : Job := { kind := .fit 2, tenant := 1, cls := .background, elig := 1, st := .running 63, windows := ten.windows }
def fitS (x : Capture) : State := { run x with jobs := [(5, some fj)], cores := [(63, { phase := .running, job := some 5 })] }
theorem meets_CaptureFit_2 : (fitS xf).cap 2 = some xf ∧ (fitS xf).fitJob 2 = some (5, fj) ∧ xf.phase = 2 ∧ xf.paused = false ∧ fj.st = .running 63 ∧
    (fitS xf).fitHeld xf fj = false ∧
    (fitS xf).access fj.agent 0 xf.work xf.workLen = none ∧ (fitS xf).access fj.agent 1 xf.ckpt (2 * ckptLen xf.h) = none ∧
    (xf.fitStep (fitS xf).fresh = none ∨ ∃ y, xf.fitStep (fitS xf).fresh = some y) :=
  ⟨by decide, by decide, by decide, by decide, by decide, by decide, by decide, by decide, by cases xf.fitStep _ <;> simp⟩
def ctC (o t : Nat) : Cmd := { id := 1, sq := 0, op := 0x00C1, tag := 8, tenant := 1, cls := .interactive, cq := 0, params := bytes 8 [(2, 2, t), (4, 1, o)] }
def ctS (x : Capture) (c : Cmd) : State := { fitS x with cmds := [c, { okP with id := 9, phase := .running }] }

theorem meets_CaptureStarts_1 :
    (Ready (capS badP) badP 192) ∧
    (¬(badP.params.length = 64 ∧ leAt badP.params 0 1 < 64 ∧ leAt badP.params 1 1 < 64 ∧ leAt badP.params 2 1 ≤ 2 ∧ leAt badP.params 3 1 ≤ 60 ∧ 4096 ≤ leAt badP.params 4 4 ∧ leAt badP.params 4 4 ≤ 4194304 ∧ (leAt badP.params 2 1 ≠ 2 → leAt badP.params 8 8 = 0) ∧ leAt badP.params 16 8 % 64 = 0 ∧ leAt badP.params 24 8 % 64 = 0 ∧ leAt badP.params 32 1 ≤ 1 ∧ 1 ≤ leAt badP.params 33 1 ∧ leAt badP.params 33 1 ≤ 3 ∧ leAt badP.params 34 1 ≤ 1 ∧ leAt badP.params 35 1 = 0 ∧ 4 ≤ leAt badP.params 36 2 ∧ leAt badP.params 36 2 ≤ 64 ∧ 256 ≤ leAt badP.params 38 2 ∧ leAt badP.params 38 2 ≤ 8192 ∧ leAt badP.params 38 2 % 64 = 0 ∧ 1 ≤ leAt badP.params 40 2 ∧ leAt badP.params 40 2 ≤ 64 ∧ 1 ≤ leAt badP.params 42 2 ∧ 1 ≤ leAt badP.params 44 4 ∧ leAt badP.params 44 4 ≤ 1048576 ∧ 1 ≤ leAt badP.params 48 4 ∧ leAt badP.params 48 4 ≤ 1065353216 ∧ leAt badP.params 60 4 = 0)) :=
  ⟨readyOf (by decide), by decide⟩

theorem meets_CaptureStarts_2 :
    (Ready (capS winP) winP 192) ∧
    (winP.params.length = 64 ∧ leAt winP.params 0 1 < 64 ∧ leAt winP.params 1 1 < 64 ∧ leAt winP.params 2 1 ≤ 2 ∧ leAt winP.params 3 1 ≤ 60 ∧ 4096 ≤ leAt winP.params 4 4 ∧ leAt winP.params 4 4 ≤ 4194304 ∧ (leAt winP.params 2 1 ≠ 2 → leAt winP.params 8 8 = 0) ∧ leAt winP.params 16 8 % 64 = 0 ∧ leAt winP.params 24 8 % 64 = 0 ∧ leAt winP.params 32 1 ≤ 1 ∧ 1 ≤ leAt winP.params 33 1 ∧ leAt winP.params 33 1 ≤ 3 ∧ leAt winP.params 34 1 ≤ 1 ∧ leAt winP.params 35 1 = 0 ∧ 4 ≤ leAt winP.params 36 2 ∧ leAt winP.params 36 2 ≤ 64 ∧ 256 ≤ leAt winP.params 38 2 ∧ leAt winP.params 38 2 ≤ 8192 ∧ leAt winP.params 38 2 % 64 = 0 ∧ 1 ≤ leAt winP.params 40 2 ∧ leAt winP.params 40 2 ≤ 64 ∧ 1 ≤ leAt winP.params 42 2 ∧ 1 ≤ leAt winP.params 44 4 ∧ leAt winP.params 44 4 ≤ 1048576 ∧ 1 ≤ leAt winP.params 48 4 ∧ leAt winP.params 48 4 ≤ 1065353216 ∧ leAt winP.params 60 4 = 0) ∧
    (¬((capS winP).paramRw winP.tenant (leAt winP.params 16 8) (8 * leAt winP.params 4 4 + 19200 + 16 * (4 * leAt winP.params 36 2 * (1 + leAt winP.params 36 2) + 5 * leAt winP.params 36 2 + 1) + 262144) = true ∧ (capS winP).paramRw winP.tenant (leAt winP.params 24 8) (2 * ((64 + 4 * (4 * leAt winP.params 36 2 * (1 + leAt winP.params 36 2) + 5 * leAt winP.params 36 2 + 1) + 63) / 64 * 64)) = true ∧ (leAt winP.params 2 1 = 2 → (capS winP).paramRw winP.tenant (leAt winP.params 8 8) (4 * leAt winP.params 4 4) = true))) :=
  ⟨readyOf (by decide), by decide, by decide⟩

theorem meets_CaptureStarts_3 :
    (Ready (capS rtP) rtP 192) ∧
    (rtP.params.length = 64 ∧ leAt rtP.params 0 1 < 64 ∧ leAt rtP.params 1 1 < 64 ∧ leAt rtP.params 2 1 ≤ 2 ∧ leAt rtP.params 3 1 ≤ 60 ∧ 4096 ≤ leAt rtP.params 4 4 ∧ leAt rtP.params 4 4 ≤ 4194304 ∧ (leAt rtP.params 2 1 ≠ 2 → leAt rtP.params 8 8 = 0) ∧ leAt rtP.params 16 8 % 64 = 0 ∧ leAt rtP.params 24 8 % 64 = 0 ∧ leAt rtP.params 32 1 ≤ 1 ∧ 1 ≤ leAt rtP.params 33 1 ∧ leAt rtP.params 33 1 ≤ 3 ∧ leAt rtP.params 34 1 ≤ 1 ∧ leAt rtP.params 35 1 = 0 ∧ 4 ≤ leAt rtP.params 36 2 ∧ leAt rtP.params 36 2 ≤ 64 ∧ 256 ≤ leAt rtP.params 38 2 ∧ leAt rtP.params 38 2 ≤ 8192 ∧ leAt rtP.params 38 2 % 64 = 0 ∧ 1 ≤ leAt rtP.params 40 2 ∧ leAt rtP.params 40 2 ≤ 64 ∧ 1 ≤ leAt rtP.params 42 2 ∧ 1 ≤ leAt rtP.params 44 4 ∧ leAt rtP.params 44 4 ≤ 1048576 ∧ 1 ≤ leAt rtP.params 48 4 ∧ leAt rtP.params 48 4 ≤ 1065353216 ∧ leAt rtP.params 60 4 = 0) ∧
    ((capS rtP).paramRw rtP.tenant (leAt rtP.params 16 8) (8 * leAt rtP.params 4 4 + 19200 + 16 * (4 * leAt rtP.params 36 2 * (1 + leAt rtP.params 36 2) + 5 * leAt rtP.params 36 2 + 1) + 262144) = true ∧ (capS rtP).paramRw rtP.tenant (leAt rtP.params 24 8) (2 * ((64 + 4 * (4 * leAt rtP.params 36 2 * (1 + leAt rtP.params 36 2) + 5 * leAt rtP.params 36 2 + 1) + 63) / 64 * 64)) = true ∧ (leAt rtP.params 2 1 = 2 → (capS rtP).paramRw rtP.tenant (leAt rtP.params 8 8) (4 * leAt rtP.params 4 4) = true)) ∧
    ((capS rtP).routeInvalid false (leAt rtP.params 0 1) = true) :=
  ⟨readyOf (by decide), by decide, by decide, by decide⟩

theorem meets_CaptureStarts_4 :
    (Ready busyC okP 192) ∧
    (okP.params.length = 64 ∧ leAt okP.params 0 1 < 64 ∧ leAt okP.params 1 1 < 64 ∧ leAt okP.params 2 1 ≤ 2 ∧ leAt okP.params 3 1 ≤ 60 ∧ 4096 ≤ leAt okP.params 4 4 ∧ leAt okP.params 4 4 ≤ 4194304 ∧ (leAt okP.params 2 1 ≠ 2 → leAt okP.params 8 8 = 0) ∧ leAt okP.params 16 8 % 64 = 0 ∧ leAt okP.params 24 8 % 64 = 0 ∧ leAt okP.params 32 1 ≤ 1 ∧ 1 ≤ leAt okP.params 33 1 ∧ leAt okP.params 33 1 ≤ 3 ∧ leAt okP.params 34 1 ≤ 1 ∧ leAt okP.params 35 1 = 0 ∧ 4 ≤ leAt okP.params 36 2 ∧ leAt okP.params 36 2 ≤ 64 ∧ 256 ≤ leAt okP.params 38 2 ∧ leAt okP.params 38 2 ≤ 8192 ∧ leAt okP.params 38 2 % 64 = 0 ∧ 1 ≤ leAt okP.params 40 2 ∧ leAt okP.params 40 2 ≤ 64 ∧ 1 ≤ leAt okP.params 42 2 ∧ 1 ≤ leAt okP.params 44 4 ∧ leAt okP.params 44 4 ≤ 1048576 ∧ 1 ≤ leAt okP.params 48 4 ∧ leAt okP.params 48 4 ≤ 1065353216 ∧ leAt okP.params 60 4 = 0) ∧
    (busyC.paramRw okP.tenant (leAt okP.params 16 8) (8 * leAt okP.params 4 4 + 19200 + 16 * (4 * leAt okP.params 36 2 * (1 + leAt okP.params 36 2) + 5 * leAt okP.params 36 2 + 1) + 262144) = true ∧ busyC.paramRw okP.tenant (leAt okP.params 24 8) (2 * ((64 + 4 * (4 * leAt okP.params 36 2 * (1 + leAt okP.params 36 2) + 5 * leAt okP.params 36 2 + 1) + 63) / 64 * 64)) = true ∧ (leAt okP.params 2 1 = 2 → busyC.paramRw okP.tenant (leAt okP.params 8 8) (4 * leAt okP.params 4 4) = true)) ∧
    (busyC.routeInvalid false (leAt okP.params 0 1) = false) ∧
    (busyC.routeInvalid true (leAt okP.params 1 1) = false) ∧
    (leAt okP.params 0 1 ∈ busyC.drivenBy none) :=
  ⟨readyOf (by decide), by and_intros <;> decide⟩

theorem meets_CaptureStarts_5 :
    (Ready fullC okP 192) ∧
    (okP.params.length = 64 ∧ leAt okP.params 0 1 < 64 ∧ leAt okP.params 1 1 < 64 ∧ leAt okP.params 2 1 ≤ 2 ∧ leAt okP.params 3 1 ≤ 60 ∧ 4096 ≤ leAt okP.params 4 4 ∧ leAt okP.params 4 4 ≤ 4194304 ∧ (leAt okP.params 2 1 ≠ 2 → leAt okP.params 8 8 = 0) ∧ leAt okP.params 16 8 % 64 = 0 ∧ leAt okP.params 24 8 % 64 = 0 ∧ leAt okP.params 32 1 ≤ 1 ∧ 1 ≤ leAt okP.params 33 1 ∧ leAt okP.params 33 1 ≤ 3 ∧ leAt okP.params 34 1 ≤ 1 ∧ leAt okP.params 35 1 = 0 ∧ 4 ≤ leAt okP.params 36 2 ∧ leAt okP.params 36 2 ≤ 64 ∧ 256 ≤ leAt okP.params 38 2 ∧ leAt okP.params 38 2 ≤ 8192 ∧ leAt okP.params 38 2 % 64 = 0 ∧ 1 ≤ leAt okP.params 40 2 ∧ leAt okP.params 40 2 ≤ 64 ∧ 1 ≤ leAt okP.params 42 2 ∧ 1 ≤ leAt okP.params 44 4 ∧ leAt okP.params 44 4 ≤ 1048576 ∧ 1 ≤ leAt okP.params 48 4 ∧ leAt okP.params 48 4 ≤ 1065353216 ∧ leAt okP.params 60 4 = 0) ∧
    (fullC.paramRw okP.tenant (leAt okP.params 16 8) (8 * leAt okP.params 4 4 + 19200 + 16 * (4 * leAt okP.params 36 2 * (1 + leAt okP.params 36 2) + 5 * leAt okP.params 36 2 + 1) + 262144) = true ∧ fullC.paramRw okP.tenant (leAt okP.params 24 8) (2 * ((64 + 4 * (4 * leAt okP.params 36 2 * (1 + leAt okP.params 36 2) + 5 * leAt okP.params 36 2 + 1) + 63) / 64 * 64)) = true ∧ (leAt okP.params 2 1 = 2 → fullC.paramRw okP.tenant (leAt okP.params 8 8) (4 * leAt okP.params 4 4) = true)) ∧
    (fullC.routeInvalid false (leAt okP.params 0 1) = false) ∧
    (fullC.routeInvalid true (leAt okP.params 1 1) = false) ∧
    (leAt okP.params 0 1 ∉ fullC.drivenBy none) ∧
    (4 ≤ List.length fullC.caps) :=
  ⟨readyOf (by decide), by and_intros <;> decide⟩

theorem meets_CaptureStarts_6 :
    (Ready oneC okP 192) ∧
    (okP.params.length = 64 ∧ leAt okP.params 0 1 < 64 ∧ leAt okP.params 1 1 < 64 ∧ leAt okP.params 2 1 ≤ 2 ∧ leAt okP.params 3 1 ≤ 60 ∧ 4096 ≤ leAt okP.params 4 4 ∧ leAt okP.params 4 4 ≤ 4194304 ∧ (leAt okP.params 2 1 ≠ 2 → leAt okP.params 8 8 = 0) ∧ leAt okP.params 16 8 % 64 = 0 ∧ leAt okP.params 24 8 % 64 = 0 ∧ leAt okP.params 32 1 ≤ 1 ∧ 1 ≤ leAt okP.params 33 1 ∧ leAt okP.params 33 1 ≤ 3 ∧ leAt okP.params 34 1 ≤ 1 ∧ leAt okP.params 35 1 = 0 ∧ 4 ≤ leAt okP.params 36 2 ∧ leAt okP.params 36 2 ≤ 64 ∧ 256 ≤ leAt okP.params 38 2 ∧ leAt okP.params 38 2 ≤ 8192 ∧ leAt okP.params 38 2 % 64 = 0 ∧ 1 ≤ leAt okP.params 40 2 ∧ leAt okP.params 40 2 ≤ 64 ∧ 1 ≤ leAt okP.params 42 2 ∧ 1 ≤ leAt okP.params 44 4 ∧ leAt okP.params 44 4 ≤ 1048576 ∧ 1 ≤ leAt okP.params 48 4 ∧ leAt okP.params 48 4 ≤ 1065353216 ∧ leAt okP.params 60 4 = 0) ∧
    (oneC.paramRw okP.tenant (leAt okP.params 16 8) (8 * leAt okP.params 4 4 + 19200 + 16 * (4 * leAt okP.params 36 2 * (1 + leAt okP.params 36 2) + 5 * leAt okP.params 36 2 + 1) + 262144) = true ∧ oneC.paramRw okP.tenant (leAt okP.params 24 8) (2 * ((64 + 4 * (4 * leAt okP.params 36 2 * (1 + leAt okP.params 36 2) + 5 * leAt okP.params 36 2 + 1) + 63) / 64 * 64)) = true ∧ (leAt okP.params 2 1 = 2 → oneC.paramRw okP.tenant (leAt okP.params 8 8) (4 * leAt okP.params 4 4) = true)) ∧
    (oneC.routeInvalid false (leAt okP.params 0 1) = false) ∧
    (oneC.routeInvalid true (leAt okP.params 1 1) = false) ∧
    (leAt okP.params 0 1 ∉ oneC.drivenBy none) ∧
    (List.length oneC.caps < 4) ∧
    (freeIndex oneC.caps 4 = some 1) :=
  ⟨readyOf (by decide), by and_intros <;> decide⟩

theorem meets_CapturePhases_1 :
    ((at63 (run x0)).cap 2 = some x0) ∧
    (x0.phase = 0) ∧
    (x0.exciting = false) ∧
    ((BitVec.toNat (at63 (run x0)).tb.sfc + 1) % 64 = 0) :=
  ⟨by decide, by decide, by decide, by decide⟩

theorem meets_CapturePhases_2 :
    ((run x0).cap 2 = some x0) ∧
    ((BitVec.toNat (run x0).tb.sfc + 1) % 64 ≠ 0) :=
  ⟨by decide, by decide⟩

theorem meets_CapturePhases_3 :
    ((run x1).cap 2 = some x1) ∧
    (x1.exciting = true) ∧
    (x1.frame < x1.length + 4800) :=
  ⟨by decide, by decide, by decide⟩

theorem meets_CapturePhases_4 :
    ((run x2).cap 2 = some x2) ∧
    (x2.exciting = true) ∧
    (x2.length + 4800 ≤ x2.frame) ∧
    ((run x2).access ((run x2).capAgent x2) 1 x2.work (8 * x2.length + 19200) = none) :=
  ⟨by decide, by decide, by decide, by decide⟩

theorem meets_CapturePhases_5 :
    ((run x3).cap 2 = some x3) ∧
    (x3.phase = 1) ∧
    (align x3.sig x3.rec_ = none) :=
  ⟨by decide, by decide, by decide⟩

theorem meets_CapturePhases_6 :
    ((run x4).cap 2 = some x4) ∧
    (x4.phase = 1) ∧
    (align x4.sig x4.rec_ = some 2) :=
  ⟨by decide, by decide, by decide⟩

theorem meets_CapturePhases_7 :
    (align sgL rcL = some 2) :=
  by decide

theorem meets_CaptureFit_1 :
    let x : Capture := { xf with paused := true }
    ((fitS x).cap 2 = some x) ∧
    ((fitS x).fitJob 2 = some (5, fj)) ∧
    (x.phase = 2) ∧
    (x.paused = true ∨ (∀ q : Nat, fj.st ≠ .running q) ∨ (fitS x).fitHeld x fj = true) :=
  ⟨by decide, by decide, by decide, Or.inl rfl⟩

theorem meets_CaptureFit_3 :
    ((fitS xf).cap 2 = some xf) ∧
    (xf.weights.length = paramCount xf.h) ∧
    ((fitS xf).region xf.ckpt = Region.sram) ∧
    ((fitS xf).region (xf.ckpt + (if Option.map (fun x => x.1) xf.best = some 0 then 1 else 0) * ((64 + 4 * paramCount xf.h + 63) / 64 * 64) + 13) = Region.sram) ∧
    ((fitS xf).region (xf.ckpt + (if Option.map (fun x => x.1) xf.best = some 0 then 1 else 0) * ((64 + 4 * paramCount xf.h + 63) / 64 * 64)) = Region.sram) :=
  by and_intros <;> decide

theorem meets_CaptureControl_1 :
    (Ready (ctS xf (ctC 0 6)) (ctC 0 6) 193) ∧
    ((ctC 0 6).params.length = 8) ∧
    (leAt (ctC 0 6).params 1 1 = 0) ∧
    (leAt (ctC 0 6).params 5 3 = 0) ∧
    ((ctS xf (ctC 0 6)).ctlCap (ctC 0 6) = none) ∧
    (leAt (ctC 0 6).params 4 1 = 0) :=
  ⟨readyOf (by decide), by and_intros <;> decide⟩

theorem meets_CaptureControl_2 :
    (Ready (ctS xf (ctC 0 7)) (ctC 0 7) 193) ∧
    ((ctC 0 7).params.length = 8) ∧
    (leAt (ctC 0 7).params 1 1 = 0) ∧
    (leAt (ctC 0 7).params 5 3 = 0) ∧
    ((ctS xf (ctC 0 7)).ctlCap (ctC 0 7) = some (2, xf)) ∧
    ((ctC 0 7).id ≠ xf.cmd) ∧
    ((ctS xf (ctC 0 7)).cap 2 = some xf) ∧
    (leAt (ctC 0 7).params 4 1 = 0) :=
  ⟨readyOf (by decide), by and_intros <;> decide⟩

theorem meets_CaptureControl_3 :
    (Ready (ctS x0 (ctC 1 7)) (ctC 1 7) 193) ∧
    ((ctC 1 7).params.length = 8) ∧
    (leAt (ctC 1 7).params 1 1 = 0) ∧
    (leAt (ctC 1 7).params 5 3 = 0) ∧
    ((ctS x0 (ctC 1 7)).ctlCap (ctC 1 7) = some (2, x0)) ∧
    ((ctC 1 7).id ≠ x0.cmd) ∧
    ((ctS x0 (ctC 1 7)).cap 2 = some x0) ∧
    (leAt (ctC 1 7).params 4 1 = 1) ∧
    (x0.phase = 0) :=
  ⟨readyOf (by decide), by and_intros <;> decide⟩

theorem meets_CaptureControl_4 :
    (Ready (ctS xf (ctC 1 7)) (ctC 1 7) 193) ∧
    ((ctC 1 7).params.length = 8) ∧
    (leAt (ctC 1 7).params 1 1 = 0) ∧
    (leAt (ctC 1 7).params 5 3 = 0) ∧
    ((ctS xf (ctC 1 7)).ctlCap (ctC 1 7) = some (2, xf)) ∧
    ((ctC 1 7).id ≠ xf.cmd) ∧
    ((ctS xf (ctC 1 7)).cap 2 = some xf) ∧
    (leAt (ctC 1 7).params 4 1 = 1) ∧
    (xf.phase ≠ 0) ∧
    (xf.paused = false) :=
  ⟨readyOf (by decide), by and_intros <;> decide⟩

theorem meets_CaptureControl_5 :
    (Ready (ctS xf (ctC 2 7)) (ctC 2 7) 193) ∧
    ((ctC 2 7).params.length = 8) ∧
    (leAt (ctC 2 7).params 1 1 = 0) ∧
    (leAt (ctC 2 7).params 5 3 = 0) ∧
    ((ctS xf (ctC 2 7)).ctlCap (ctC 2 7) = some (2, xf)) ∧
    ((ctC 2 7).id ≠ xf.cmd) ∧
    ((ctS xf (ctC 2 7)).cap 2 = some xf) ∧
    (leAt (ctC 2 7).params 4 1 = 2) ∧
    (xf.paused = false) :=
  ⟨readyOf (by decide), by and_intros <;> decide⟩

theorem meets_CaptureControl_6 :
    (Ready (ctS xf (ctC 3 7)) (ctC 3 7) 193) ∧
    ((ctC 3 7).params.length = 8) ∧
    (leAt (ctC 3 7).params 1 1 = 0) ∧
    (leAt (ctC 3 7).params 5 3 = 0) ∧
    ((ctS xf (ctC 3 7)).ctlCap (ctC 3 7) = some (2, xf)) ∧
    ((ctC 3 7).id ≠ xf.cmd) ∧
    ((ctS xf (ctC 3 7)).cap 2 = some xf) ∧
    (leAt (ctC 3 7).params 4 1 = 3) ∧
    (xf.paused = false) :=
  ⟨readyOf (by decide), by and_intros <;> decide⟩

theorem meets_CaptureControl_7 :
    ((fitS { xf with ctl := [(1, 3)] : Capture }).cap 2 = some { xf with ctl := [(1, 3)] : Capture }) ∧
    (∃ i, (i, 3) ∈ { xf with ctl := [(1, 3)] : Capture }.ctl) :=
  ⟨by decide, ⟨1, by decide⟩⟩

theorem meets_CaptureControl_8 :
    ((fitS xf).cap 2 = some xf) ∧
    (xf.ctl = []) ∧
    (xf.paused = false) ∧
    (∃ j, (fitS xf).fitJob 2 = some j) :=
  ⟨by decide, by decide, by decide, ⟨(5, fj), by decide⟩⟩

theorem meets_CaptureControl_9 :
    ((fitS { xf with ctl := [(1, 1)] : Capture }).cap 2 = some { xf with ctl := [(1, 1)] : Capture }) ∧
    ({ xf with ctl := [(1, 1)] : Capture }.ctl = [(1, 1)]) ∧
    ((fitS { xf with ctl := [(1, 1)] : Capture }).cmd 1 = none) ∧
    ((fitS { xf with ctl := [(1, 1)] : Capture }).fitJob 2 = some (5, fj)) :=
  ⟨by decide, by decide, by decide, by decide⟩

theorem meets_CaptureControl_10 :
    ((run xf).cap 2 = some xf) ∧
    (xf.lossSum = []) ∧
    (xf.badCkpts < 3) ∧
    (xf.ctl = []) ∧
    ((run xf).fitJob 2 = none) ∧
    ((run xf).cmd xf.cmd = some { okP with id := 9, phase := Phase.running : Cmd }) ∧
    ({ okP with id := 9, phase := Phase.running : Cmd }.late = 0) ∧
    ({ okP with id := 9, phase := Phase.running : Cmd }.skipped = false) :=
  by and_intros <;> decide

def x2h : State := { run x2 with dies := [(0, { bridge := .retrain, power := .on }), (3, { bridge := .up, power := .on })] }
def xdm : Capture := { x2 with work := 0x1000000 }
def xdmS : State := { run xdm with dies := [(0, { bridge := .retrain, power := .on }), (3, { bridge := .up, power := .on })] }
def xw : Capture := { x2 with work := 0x2000000 }

theorem meets_CapturePhases_8 :
    let s : State := xdmS
    let k : ℕ := 2
    let x : Capture := xdm
    (s.cap k = some x) ∧
    (x.exciting = true) ∧
    (s.pathHeld none x.work (19200 + 8 * x.length) = true) :=
  ⟨by decide +kernel, by decide +kernel, by decide +kernel⟩

theorem meets_CapturePhases_9 :
    let s : State := run xw
    let k : ℕ := 2
    let x : Capture := xw
    let d : Deny := ((run xw).access ((run xw).capAgent xw) 1 xw.work (19200 + 8 * xw.length)).getD { code := 0 }
    (s.cap k = some x) ∧
    (x.exciting = true) ∧
    (x.length + 4800 ≤ x.frame) ∧
    (s.pathHeld none x.work (19200 + 8 * x.length) = false) ∧
    (s.access (s.capAgent x) 1 x.work (19200 + 8 * x.length) = some d) :=
  ⟨by decide +kernel, by decide +kernel, by decide +kernel, by decide +kernel, by decide +kernel⟩

theorem meets_CapturePhases_10 :
    let s : State := run x2
    let k : ℕ := 2
    let x : Capture := x2
    (s.cap k = some x) ∧
    (x.exciting = true) ∧
    (x.length + 4800 ≤ x.frame) ∧
    (s.pathHeld none x.work (19200 + 8 * x.length) = false) ∧
    (s.access (s.capAgent x) 1 x.work (19200 + 8 * x.length) = none) :=
  ⟨by decide +kernel, by decide +kernel, by decide +kernel, by decide +kernel, by decide +kernel⟩

end Part17

namespace Part18

def camB (fs : List (Nat × Nat × Nat)) : List Byte :=
  bytes 256 ([(1, 1, 1), (3, 1, 0x2A), (6, 1, 1), (7, 1, 1), (8, 2, 16), (10, 2, 16), (16, 2, 16), (18, 2, 16), (20, 2, 16), (22, 2, 16), (32, 8, 0x10000)] ++ fs)
def cg (fs : List (Nat × Nat × Nat)) : Cmd := { id := 1, sq := 0, op := 0x00D0, tag := 7, tenant := 1, cls := .interactive, cq := 0, params := camB fs }
def camIdleS (c : Cmd) : State := hold c { up t1 with cam.lastSeq := 77 }
def cfg0 : CamCfg := (cg []).camCfg
def camRun (c : Cmd) (f : Option CamFrame) : State :=
  { camIdleS c with cam := { running := true, owner := 1, cfg := cfg0, frame := f, lastSeq := 77, seq := 77 } }
def gs : Cmd := cg []
def gbad : Cmd := cg [(255, 1, 1)]
def gtrig : Cmd := cg [(5, 1, 8), (25, 1, 1), (28, 2, 1000)]
def gwin : Cmd := cg [(32, 8, 0x500000)]
def gstop : Cmd := cg [(0, 1, 1)]
def gupd : Cmd := cg [(0, 1, 2), (40, 2, 4095)]
def gupdF : Cmd := cg [(0, 1, 2), (7, 1, 1)]
def oldC (s : State) : State := { s with build.rev := .rev1 }
def crS (c : Cmd) : State := camRun c none
def fr0 : CamFrame := { cfg := cfg0, clc := 0x10000, sfc := 9, mpc := 0x123456789ABC, mpcValid := true }
def cfS (c : Cmd) (f : CamFrame) : State := camRun c (some f)
def pkS (c : W32) (f : Option CamFrame) : State := { camRun gs f with tb.ctrl := c }
def pkStop : State := { pkS 0x40 none with cam.stopping := [9] }
def row16 : List Nat := List.replicate 16 200
def frK : CamFrame := { fr0 with lines := List.replicate 15 row16 }
def frF : CamFrame := { fr0 with lines := List.replicate 16 row16 }
def pk15 : State := pkS 0x40 (some frK)
def pk16 : State := pkS 0x40 (some frF)
def pkL : State := pkS 0x140 none
def outF (b : Nat) : State := { crS gs with cam.output := [{ frF with cfg := { cfg0 with outBase := b } }] }
def oF (b : Nat) : CamFrame := { frF with cfg := { cfg0 with outBase := b } }
def cfDeny : Deny := ((outF 0x10000).access { tenant := some 1, windows := (outF 0x10000).windowsOf 1 } 1 0x3FFFFF 2).getD { code := 0 }
def ppx : CamFrame := { frF with lines := (List.range 16).map (fun y => (List.range 16).map (fun x => (x * x + 17 * y) % 256)), cfg := { cfg0 with black := [4095, 0, 3, 9] } }
def cfgB : CamCfg := { cfg0 with bilinear := true }

theorem meets_CameraConfigs_1 :
    (Ready (camIdleS gbad) gbad 208) ∧
    (¬((gbad.params.length = 256 ∧ (leAt gbad.params 1 1 = 1 ∨ leAt gbad.params 1 1 = 2 ∨ leAt gbad.params 1 1 = 4) ∧ leAt gbad.params 2 1 ≤ 3 ∧ 42 ≤ leAt gbad.params 3 1 ∧ leAt gbad.params 3 1 ≤ 44 ∧ leAt gbad.params 4 1 ≤ 3 ∧ leAt gbad.params 5 1 < 32 ∧ (leAt gbad.params 6 1 = 1 ∨ leAt gbad.params 6 1 = 2 ∨ leAt gbad.params 6 1 = 8) ∧ 1 ≤ leAt gbad.params 7 1 ∧ leAt gbad.params 7 1 ≤ 8 ∧ 16 ≤ leAt gbad.params 8 2 ∧ leAt gbad.params 8 2 ≤ 4096 ∧ 16 ≤ leAt gbad.params 10 2 ∧ leAt gbad.params 10 2 ≤ 3072 ∧ leAt gbad.params 8 2 % 2 = 0 ∧ leAt gbad.params 10 2 % 2 = 0 ∧ leAt gbad.params 12 2 % 2 = 0 ∧ leAt gbad.params 14 2 % 2 = 0 ∧ leAt gbad.params 16 2 % 2 = 0 ∧ leAt gbad.params 18 2 % 2 = 0 ∧ 2 ≤ leAt gbad.params 16 2 ∧ 2 ≤ leAt gbad.params 18 2 ∧ leAt gbad.params 12 2 + leAt gbad.params 16 2 ≤ leAt gbad.params 8 2 ∧ leAt gbad.params 14 2 + leAt gbad.params 18 2 ≤ leAt gbad.params 10 2 ∧ 1 ≤ leAt gbad.params 20 2 ∧ leAt gbad.params 20 2 ≤ leAt gbad.params 16 2 ∧ 1 ≤ leAt gbad.params 22 2 ∧ leAt gbad.params 22 2 ≤ leAt gbad.params 18 2 ∧ leAt gbad.params 16 2 ≤ 16 * leAt gbad.params 20 2 ∧ leAt gbad.params 18 2 ≤ 16 * leAt gbad.params 22 2 ∧ leAt gbad.params 24 1 ≤ 1 ∧ (bitN (leAt gbad.params 5 1) 3 = true → 1 ≤ leAt gbad.params 25 1 ∧ 1 ≤ leAt gbad.params 28 2 ∧ leAt gbad.params 28 2 ≤ 1000) ∧ (bitN (leAt gbad.params 5 1) 3 = false → leAt gbad.params 25 1 = 0 ∧ leAt gbad.params 28 2 = 0) ∧ leAt gbad.params 30 2 = 0 ∧ leAt gbad.params 32 8 % 64 = 0 ∧ leAt gbad.params 32 8 < 2 ^ 40 ∧ (∀ i < 4, leAt gbad.params (40 + 2 * i) 2 ≤ 4095) ∧ leAt gbad.params 54 2 = 0 ∧ leAt gbad.params 74 2 = 0 ∧ zerosAt gbad.params 206 50 = true) ∧ leAt gbad.params 0 1 ≤ 2)) :=
  ⟨readyOf (by decide), by decide⟩

theorem meets_CameraConfigs_2 :
    (Ready (oldC (camIdleS gtrig)) gtrig 208) ∧
    (gtrig.params.length = 256 ∧ (leAt gtrig.params 1 1 = 1 ∨ leAt gtrig.params 1 1 = 2 ∨ leAt gtrig.params 1 1 = 4) ∧ leAt gtrig.params 2 1 ≤ 3 ∧ 42 ≤ leAt gtrig.params 3 1 ∧ leAt gtrig.params 3 1 ≤ 44 ∧ leAt gtrig.params 4 1 ≤ 3 ∧ leAt gtrig.params 5 1 < 32 ∧ (leAt gtrig.params 6 1 = 1 ∨ leAt gtrig.params 6 1 = 2 ∨ leAt gtrig.params 6 1 = 8) ∧ 1 ≤ leAt gtrig.params 7 1 ∧ leAt gtrig.params 7 1 ≤ 8 ∧ 16 ≤ leAt gtrig.params 8 2 ∧ leAt gtrig.params 8 2 ≤ 4096 ∧ 16 ≤ leAt gtrig.params 10 2 ∧ leAt gtrig.params 10 2 ≤ 3072 ∧ leAt gtrig.params 8 2 % 2 = 0 ∧ leAt gtrig.params 10 2 % 2 = 0 ∧ leAt gtrig.params 12 2 % 2 = 0 ∧ leAt gtrig.params 14 2 % 2 = 0 ∧ leAt gtrig.params 16 2 % 2 = 0 ∧ leAt gtrig.params 18 2 % 2 = 0 ∧ 2 ≤ leAt gtrig.params 16 2 ∧ 2 ≤ leAt gtrig.params 18 2 ∧ leAt gtrig.params 12 2 + leAt gtrig.params 16 2 ≤ leAt gtrig.params 8 2 ∧ leAt gtrig.params 14 2 + leAt gtrig.params 18 2 ≤ leAt gtrig.params 10 2 ∧ 1 ≤ leAt gtrig.params 20 2 ∧ leAt gtrig.params 20 2 ≤ leAt gtrig.params 16 2 ∧ 1 ≤ leAt gtrig.params 22 2 ∧ leAt gtrig.params 22 2 ≤ leAt gtrig.params 18 2 ∧ leAt gtrig.params 16 2 ≤ 16 * leAt gtrig.params 20 2 ∧ leAt gtrig.params 18 2 ≤ 16 * leAt gtrig.params 22 2 ∧ leAt gtrig.params 24 1 ≤ 1 ∧ (bitN (leAt gtrig.params 5 1) 3 = true → 1 ≤ leAt gtrig.params 25 1 ∧ 1 ≤ leAt gtrig.params 28 2 ∧ leAt gtrig.params 28 2 ≤ 1000) ∧ (bitN (leAt gtrig.params 5 1) 3 = false → leAt gtrig.params 25 1 = 0 ∧ leAt gtrig.params 28 2 = 0) ∧ leAt gtrig.params 30 2 = 0 ∧ leAt gtrig.params 32 8 % 64 = 0 ∧ leAt gtrig.params 32 8 < 2 ^ 40 ∧ (∀ i < 4, leAt gtrig.params (40 + 2 * i) 2 ≤ 4095) ∧ leAt gtrig.params 54 2 = 0 ∧ leAt gtrig.params 74 2 = 0 ∧ zerosAt gtrig.params 206 50 = true) ∧
    (leAt gtrig.params 0 1 ≤ 2) ∧
    (bitN (leAt gtrig.params 5 1) 3 = true) ∧
    ((oldC (camIdleS gtrig)).rev2 = false) :=
  ⟨readyOf (by decide), by decide, by decide, by decide, by decide⟩

theorem meets_CameraConfigs_3 :
    (Ready (camIdleS gwin) gwin 208) ∧
    (gwin.params.length = 256 ∧ (leAt gwin.params 1 1 = 1 ∨ leAt gwin.params 1 1 = 2 ∨ leAt gwin.params 1 1 = 4) ∧ leAt gwin.params 2 1 ≤ 3 ∧ 42 ≤ leAt gwin.params 3 1 ∧ leAt gwin.params 3 1 ≤ 44 ∧ leAt gwin.params 4 1 ≤ 3 ∧ leAt gwin.params 5 1 < 32 ∧ (leAt gwin.params 6 1 = 1 ∨ leAt gwin.params 6 1 = 2 ∨ leAt gwin.params 6 1 = 8) ∧ 1 ≤ leAt gwin.params 7 1 ∧ leAt gwin.params 7 1 ≤ 8 ∧ 16 ≤ leAt gwin.params 8 2 ∧ leAt gwin.params 8 2 ≤ 4096 ∧ 16 ≤ leAt gwin.params 10 2 ∧ leAt gwin.params 10 2 ≤ 3072 ∧ leAt gwin.params 8 2 % 2 = 0 ∧ leAt gwin.params 10 2 % 2 = 0 ∧ leAt gwin.params 12 2 % 2 = 0 ∧ leAt gwin.params 14 2 % 2 = 0 ∧ leAt gwin.params 16 2 % 2 = 0 ∧ leAt gwin.params 18 2 % 2 = 0 ∧ 2 ≤ leAt gwin.params 16 2 ∧ 2 ≤ leAt gwin.params 18 2 ∧ leAt gwin.params 12 2 + leAt gwin.params 16 2 ≤ leAt gwin.params 8 2 ∧ leAt gwin.params 14 2 + leAt gwin.params 18 2 ≤ leAt gwin.params 10 2 ∧ 1 ≤ leAt gwin.params 20 2 ∧ leAt gwin.params 20 2 ≤ leAt gwin.params 16 2 ∧ 1 ≤ leAt gwin.params 22 2 ∧ leAt gwin.params 22 2 ≤ leAt gwin.params 18 2 ∧ leAt gwin.params 16 2 ≤ 16 * leAt gwin.params 20 2 ∧ leAt gwin.params 18 2 ≤ 16 * leAt gwin.params 22 2 ∧ leAt gwin.params 24 1 ≤ 1 ∧ (bitN (leAt gwin.params 5 1) 3 = true → 1 ≤ leAt gwin.params 25 1 ∧ 1 ≤ leAt gwin.params 28 2 ∧ leAt gwin.params 28 2 ≤ 1000) ∧ (bitN (leAt gwin.params 5 1) 3 = false → leAt gwin.params 25 1 = 0 ∧ leAt gwin.params 28 2 = 0) ∧ leAt gwin.params 30 2 = 0 ∧ leAt gwin.params 32 8 % 64 = 0 ∧ leAt gwin.params 32 8 < 2 ^ 40 ∧ (∀ i < 4, leAt gwin.params (40 + 2 * i) 2 ≤ 4095) ∧ leAt gwin.params 54 2 = 0 ∧ leAt gwin.params 74 2 = 0 ∧ zerosAt gwin.params 206 50 = true) ∧
    (leAt gwin.params 0 1 ≤ 2) ∧
    (bitN (leAt gwin.params 5 1) 3 = false) ∧
    ((camIdleS gwin).paramRw gwin.tenant (leAt gwin.params 32 8) (leAt gwin.params 7 1 * (((576 + (leAt gwin.params 20 2 * leAt gwin.params 22 2 * if bitN (leAt gwin.params 5 1) 0 = true then 1 else 3) * if leAt gwin.params 6 1 = 8 then 2 else 1) + 63) / 64 * 64)) = false) :=
  ⟨readyOf (by decide), by decide, by decide, by decide, by decide⟩

theorem meets_CameraConfigs_4 :
    (Ready (crS gs) gs 208) ∧
    (gs.params.length = 256 ∧ (leAt gs.params 1 1 = 1 ∨ leAt gs.params 1 1 = 2 ∨ leAt gs.params 1 1 = 4) ∧ leAt gs.params 2 1 ≤ 3 ∧ 42 ≤ leAt gs.params 3 1 ∧ leAt gs.params 3 1 ≤ 44 ∧ leAt gs.params 4 1 ≤ 3 ∧ leAt gs.params 5 1 < 32 ∧ (leAt gs.params 6 1 = 1 ∨ leAt gs.params 6 1 = 2 ∨ leAt gs.params 6 1 = 8) ∧ 1 ≤ leAt gs.params 7 1 ∧ leAt gs.params 7 1 ≤ 8 ∧ 16 ≤ leAt gs.params 8 2 ∧ leAt gs.params 8 2 ≤ 4096 ∧ 16 ≤ leAt gs.params 10 2 ∧ leAt gs.params 10 2 ≤ 3072 ∧ leAt gs.params 8 2 % 2 = 0 ∧ leAt gs.params 10 2 % 2 = 0 ∧ leAt gs.params 12 2 % 2 = 0 ∧ leAt gs.params 14 2 % 2 = 0 ∧ leAt gs.params 16 2 % 2 = 0 ∧ leAt gs.params 18 2 % 2 = 0 ∧ 2 ≤ leAt gs.params 16 2 ∧ 2 ≤ leAt gs.params 18 2 ∧ leAt gs.params 12 2 + leAt gs.params 16 2 ≤ leAt gs.params 8 2 ∧ leAt gs.params 14 2 + leAt gs.params 18 2 ≤ leAt gs.params 10 2 ∧ 1 ≤ leAt gs.params 20 2 ∧ leAt gs.params 20 2 ≤ leAt gs.params 16 2 ∧ 1 ≤ leAt gs.params 22 2 ∧ leAt gs.params 22 2 ≤ leAt gs.params 18 2 ∧ leAt gs.params 16 2 ≤ 16 * leAt gs.params 20 2 ∧ leAt gs.params 18 2 ≤ 16 * leAt gs.params 22 2 ∧ leAt gs.params 24 1 ≤ 1 ∧ (bitN (leAt gs.params 5 1) 3 = true → 1 ≤ leAt gs.params 25 1 ∧ 1 ≤ leAt gs.params 28 2 ∧ leAt gs.params 28 2 ≤ 1000) ∧ (bitN (leAt gs.params 5 1) 3 = false → leAt gs.params 25 1 = 0 ∧ leAt gs.params 28 2 = 0) ∧ leAt gs.params 30 2 = 0 ∧ leAt gs.params 32 8 % 64 = 0 ∧ leAt gs.params 32 8 < 2 ^ 40 ∧ (∀ i < 4, leAt gs.params (40 + 2 * i) 2 ≤ 4095) ∧ leAt gs.params 54 2 = 0 ∧ leAt gs.params 74 2 = 0 ∧ zerosAt gs.params 206 50 = true) ∧
    (leAt gs.params 0 1 ≤ 2) ∧
    (bitN (leAt gs.params 5 1) 3 = false) ∧
    ((crS gs).paramRw gs.tenant (leAt gs.params 32 8) (leAt gs.params 7 1 * (((576 + (leAt gs.params 20 2 * leAt gs.params 22 2 * if bitN (leAt gs.params 5 1) 0 = true then 1 else 3) * if leAt gs.params 6 1 = 8 then 2 else 1) + 63) / 64 * 64)) = true) ∧
    (leAt gs.params 0 1 = 0) ∧
    ((crS gs).cam.running = true) :=
  ⟨readyOf (by decide), by and_intros <;> decide⟩

theorem meets_CameraConfigs_5 :
    (Ready (camIdleS gstop) gstop 208) ∧
    (gstop.params.length = 256 ∧ (leAt gstop.params 1 1 = 1 ∨ leAt gstop.params 1 1 = 2 ∨ leAt gstop.params 1 1 = 4) ∧ leAt gstop.params 2 1 ≤ 3 ∧ 42 ≤ leAt gstop.params 3 1 ∧ leAt gstop.params 3 1 ≤ 44 ∧ leAt gstop.params 4 1 ≤ 3 ∧ leAt gstop.params 5 1 < 32 ∧ (leAt gstop.params 6 1 = 1 ∨ leAt gstop.params 6 1 = 2 ∨ leAt gstop.params 6 1 = 8) ∧ 1 ≤ leAt gstop.params 7 1 ∧ leAt gstop.params 7 1 ≤ 8 ∧ 16 ≤ leAt gstop.params 8 2 ∧ leAt gstop.params 8 2 ≤ 4096 ∧ 16 ≤ leAt gstop.params 10 2 ∧ leAt gstop.params 10 2 ≤ 3072 ∧ leAt gstop.params 8 2 % 2 = 0 ∧ leAt gstop.params 10 2 % 2 = 0 ∧ leAt gstop.params 12 2 % 2 = 0 ∧ leAt gstop.params 14 2 % 2 = 0 ∧ leAt gstop.params 16 2 % 2 = 0 ∧ leAt gstop.params 18 2 % 2 = 0 ∧ 2 ≤ leAt gstop.params 16 2 ∧ 2 ≤ leAt gstop.params 18 2 ∧ leAt gstop.params 12 2 + leAt gstop.params 16 2 ≤ leAt gstop.params 8 2 ∧ leAt gstop.params 14 2 + leAt gstop.params 18 2 ≤ leAt gstop.params 10 2 ∧ 1 ≤ leAt gstop.params 20 2 ∧ leAt gstop.params 20 2 ≤ leAt gstop.params 16 2 ∧ 1 ≤ leAt gstop.params 22 2 ∧ leAt gstop.params 22 2 ≤ leAt gstop.params 18 2 ∧ leAt gstop.params 16 2 ≤ 16 * leAt gstop.params 20 2 ∧ leAt gstop.params 18 2 ≤ 16 * leAt gstop.params 22 2 ∧ leAt gstop.params 24 1 ≤ 1 ∧ (bitN (leAt gstop.params 5 1) 3 = true → 1 ≤ leAt gstop.params 25 1 ∧ 1 ≤ leAt gstop.params 28 2 ∧ leAt gstop.params 28 2 ≤ 1000) ∧ (bitN (leAt gstop.params 5 1) 3 = false → leAt gstop.params 25 1 = 0 ∧ leAt gstop.params 28 2 = 0) ∧ leAt gstop.params 30 2 = 0 ∧ leAt gstop.params 32 8 % 64 = 0 ∧ leAt gstop.params 32 8 < 2 ^ 40 ∧ (∀ i < 4, leAt gstop.params (40 + 2 * i) 2 ≤ 4095) ∧ leAt gstop.params 54 2 = 0 ∧ leAt gstop.params 74 2 = 0 ∧ zerosAt gstop.params 206 50 = true) ∧
    (leAt gstop.params 0 1 ≤ 2) ∧
    (bitN (leAt gstop.params 5 1) 3 = false) ∧
    ((camIdleS gstop).paramRw gstop.tenant (leAt gstop.params 32 8) (leAt gstop.params 7 1 * (((576 + (leAt gstop.params 20 2 * leAt gstop.params 22 2 * if bitN (leAt gstop.params 5 1) 0 = true then 1 else 3) * if leAt gstop.params 6 1 = 8 then 2 else 1) + 63) / 64 * 64)) = true) ∧
    (leAt gstop.params 0 1 ≠ 0) ∧
    ((camIdleS gstop).cam.running = false) :=
  ⟨readyOf (by decide), by and_intros <;> decide⟩

theorem meets_CameraConfigs_6 :
    (Ready (crS gupdF) gupdF 208) ∧
    (gupdF.params.length = 256 ∧ (leAt gupdF.params 1 1 = 1 ∨ leAt gupdF.params 1 1 = 2 ∨ leAt gupdF.params 1 1 = 4) ∧ leAt gupdF.params 2 1 ≤ 3 ∧ 42 ≤ leAt gupdF.params 3 1 ∧ leAt gupdF.params 3 1 ≤ 44 ∧ leAt gupdF.params 4 1 ≤ 3 ∧ leAt gupdF.params 5 1 < 32 ∧ (leAt gupdF.params 6 1 = 1 ∨ leAt gupdF.params 6 1 = 2 ∨ leAt gupdF.params 6 1 = 8) ∧ 1 ≤ leAt gupdF.params 7 1 ∧ leAt gupdF.params 7 1 ≤ 8 ∧ 16 ≤ leAt gupdF.params 8 2 ∧ leAt gupdF.params 8 2 ≤ 4096 ∧ 16 ≤ leAt gupdF.params 10 2 ∧ leAt gupdF.params 10 2 ≤ 3072 ∧ leAt gupdF.params 8 2 % 2 = 0 ∧ leAt gupdF.params 10 2 % 2 = 0 ∧ leAt gupdF.params 12 2 % 2 = 0 ∧ leAt gupdF.params 14 2 % 2 = 0 ∧ leAt gupdF.params 16 2 % 2 = 0 ∧ leAt gupdF.params 18 2 % 2 = 0 ∧ 2 ≤ leAt gupdF.params 16 2 ∧ 2 ≤ leAt gupdF.params 18 2 ∧ leAt gupdF.params 12 2 + leAt gupdF.params 16 2 ≤ leAt gupdF.params 8 2 ∧ leAt gupdF.params 14 2 + leAt gupdF.params 18 2 ≤ leAt gupdF.params 10 2 ∧ 1 ≤ leAt gupdF.params 20 2 ∧ leAt gupdF.params 20 2 ≤ leAt gupdF.params 16 2 ∧ 1 ≤ leAt gupdF.params 22 2 ∧ leAt gupdF.params 22 2 ≤ leAt gupdF.params 18 2 ∧ leAt gupdF.params 16 2 ≤ 16 * leAt gupdF.params 20 2 ∧ leAt gupdF.params 18 2 ≤ 16 * leAt gupdF.params 22 2 ∧ leAt gupdF.params 24 1 ≤ 1 ∧ (bitN (leAt gupdF.params 5 1) 3 = true → 1 ≤ leAt gupdF.params 25 1 ∧ 1 ≤ leAt gupdF.params 28 2 ∧ leAt gupdF.params 28 2 ≤ 1000) ∧ (bitN (leAt gupdF.params 5 1) 3 = false → leAt gupdF.params 25 1 = 0 ∧ leAt gupdF.params 28 2 = 0) ∧ leAt gupdF.params 30 2 = 0 ∧ leAt gupdF.params 32 8 % 64 = 0 ∧ leAt gupdF.params 32 8 < 2 ^ 40 ∧ (∀ i < 4, leAt gupdF.params (40 + 2 * i) 2 ≤ 4095) ∧ leAt gupdF.params 54 2 = 0 ∧ leAt gupdF.params 74 2 = 0 ∧ zerosAt gupdF.params 206 50 = true) ∧
    (leAt gupdF.params 0 1 ≤ 2) ∧
    (bitN (leAt gupdF.params 5 1) 3 = false) ∧
    ((crS gupdF).paramRw gupdF.tenant (leAt gupdF.params 32 8) (leAt gupdF.params 7 1 * (((576 + (leAt gupdF.params 20 2 * leAt gupdF.params 22 2 * if bitN (leAt gupdF.params 5 1) 0 = true then 1 else 3) * if leAt gupdF.params 6 1 = 8 then 2 else 1) + 63) / 64 * 64)) = true) ∧
    (leAt gupdF.params 0 1 = 2) ∧
    ((crS gupdF).cam.running = true) ∧
    ((crS gupdF).cam.owner.toNat = gupdF.tenant) ∧
    (gupdF.camCfg.fixed ≠ (crS gupdF).cam.cfg.fixed) :=
  ⟨readyOf (by decide), by decide, by decide, by decide, by decide, by decide, by decide, by decide, by decide +kernel⟩

theorem meets_CameraConfigs_7 :
    (Ready (crS gupd) gupd 208) ∧
    (gupd.params.length = 256 ∧ (leAt gupd.params 1 1 = 1 ∨ leAt gupd.params 1 1 = 2 ∨ leAt gupd.params 1 1 = 4) ∧ leAt gupd.params 2 1 ≤ 3 ∧ 42 ≤ leAt gupd.params 3 1 ∧ leAt gupd.params 3 1 ≤ 44 ∧ leAt gupd.params 4 1 ≤ 3 ∧ leAt gupd.params 5 1 < 32 ∧ (leAt gupd.params 6 1 = 1 ∨ leAt gupd.params 6 1 = 2 ∨ leAt gupd.params 6 1 = 8) ∧ 1 ≤ leAt gupd.params 7 1 ∧ leAt gupd.params 7 1 ≤ 8 ∧ 16 ≤ leAt gupd.params 8 2 ∧ leAt gupd.params 8 2 ≤ 4096 ∧ 16 ≤ leAt gupd.params 10 2 ∧ leAt gupd.params 10 2 ≤ 3072 ∧ leAt gupd.params 8 2 % 2 = 0 ∧ leAt gupd.params 10 2 % 2 = 0 ∧ leAt gupd.params 12 2 % 2 = 0 ∧ leAt gupd.params 14 2 % 2 = 0 ∧ leAt gupd.params 16 2 % 2 = 0 ∧ leAt gupd.params 18 2 % 2 = 0 ∧ 2 ≤ leAt gupd.params 16 2 ∧ 2 ≤ leAt gupd.params 18 2 ∧ leAt gupd.params 12 2 + leAt gupd.params 16 2 ≤ leAt gupd.params 8 2 ∧ leAt gupd.params 14 2 + leAt gupd.params 18 2 ≤ leAt gupd.params 10 2 ∧ 1 ≤ leAt gupd.params 20 2 ∧ leAt gupd.params 20 2 ≤ leAt gupd.params 16 2 ∧ 1 ≤ leAt gupd.params 22 2 ∧ leAt gupd.params 22 2 ≤ leAt gupd.params 18 2 ∧ leAt gupd.params 16 2 ≤ 16 * leAt gupd.params 20 2 ∧ leAt gupd.params 18 2 ≤ 16 * leAt gupd.params 22 2 ∧ leAt gupd.params 24 1 ≤ 1 ∧ (bitN (leAt gupd.params 5 1) 3 = true → 1 ≤ leAt gupd.params 25 1 ∧ 1 ≤ leAt gupd.params 28 2 ∧ leAt gupd.params 28 2 ≤ 1000) ∧ (bitN (leAt gupd.params 5 1) 3 = false → leAt gupd.params 25 1 = 0 ∧ leAt gupd.params 28 2 = 0) ∧ leAt gupd.params 30 2 = 0 ∧ leAt gupd.params 32 8 % 64 = 0 ∧ leAt gupd.params 32 8 < 2 ^ 40 ∧ (∀ i < 4, leAt gupd.params (40 + 2 * i) 2 ≤ 4095) ∧ leAt gupd.params 54 2 = 0 ∧ leAt gupd.params 74 2 = 0 ∧ zerosAt gupd.params 206 50 = true) ∧
    (leAt gupd.params 0 1 ≤ 2) ∧
    (bitN (leAt gupd.params 5 1) 3 = false) ∧
    ((crS gupd).paramRw gupd.tenant (leAt gupd.params 32 8) (leAt gupd.params 7 1 * (((576 + (leAt gupd.params 20 2 * leAt gupd.params 22 2 * if bitN (leAt gupd.params 5 1) 0 = true then 1 else 3) * if leAt gupd.params 6 1 = 8 then 2 else 1) + 63) / 64 * 64)) = true) ∧
    (leAt gupd.params 0 1 = 2) ∧
    ((crS gupd).cam.running = true) ∧
    ((crS gupd).cam.owner.toNat = gupd.tenant) ∧
    (gupd.camCfg.fixed = (crS gupd).cam.cfg.fixed) :=
  ⟨readyOf (by decide), by decide, by decide, by decide, by decide, by decide, by decide, by decide, by decide +kernel⟩

theorem meets_CameraConfigs_8 :
    (Ready (camIdleS gs) gs 208) ∧
    (gs.params.length = 256 ∧ (leAt gs.params 1 1 = 1 ∨ leAt gs.params 1 1 = 2 ∨ leAt gs.params 1 1 = 4) ∧ leAt gs.params 2 1 ≤ 3 ∧ 42 ≤ leAt gs.params 3 1 ∧ leAt gs.params 3 1 ≤ 44 ∧ leAt gs.params 4 1 ≤ 3 ∧ leAt gs.params 5 1 < 32 ∧ (leAt gs.params 6 1 = 1 ∨ leAt gs.params 6 1 = 2 ∨ leAt gs.params 6 1 = 8) ∧ 1 ≤ leAt gs.params 7 1 ∧ leAt gs.params 7 1 ≤ 8 ∧ 16 ≤ leAt gs.params 8 2 ∧ leAt gs.params 8 2 ≤ 4096 ∧ 16 ≤ leAt gs.params 10 2 ∧ leAt gs.params 10 2 ≤ 3072 ∧ leAt gs.params 8 2 % 2 = 0 ∧ leAt gs.params 10 2 % 2 = 0 ∧ leAt gs.params 12 2 % 2 = 0 ∧ leAt gs.params 14 2 % 2 = 0 ∧ leAt gs.params 16 2 % 2 = 0 ∧ leAt gs.params 18 2 % 2 = 0 ∧ 2 ≤ leAt gs.params 16 2 ∧ 2 ≤ leAt gs.params 18 2 ∧ leAt gs.params 12 2 + leAt gs.params 16 2 ≤ leAt gs.params 8 2 ∧ leAt gs.params 14 2 + leAt gs.params 18 2 ≤ leAt gs.params 10 2 ∧ 1 ≤ leAt gs.params 20 2 ∧ leAt gs.params 20 2 ≤ leAt gs.params 16 2 ∧ 1 ≤ leAt gs.params 22 2 ∧ leAt gs.params 22 2 ≤ leAt gs.params 18 2 ∧ leAt gs.params 16 2 ≤ 16 * leAt gs.params 20 2 ∧ leAt gs.params 18 2 ≤ 16 * leAt gs.params 22 2 ∧ leAt gs.params 24 1 ≤ 1 ∧ (bitN (leAt gs.params 5 1) 3 = true → 1 ≤ leAt gs.params 25 1 ∧ 1 ≤ leAt gs.params 28 2 ∧ leAt gs.params 28 2 ≤ 1000) ∧ (bitN (leAt gs.params 5 1) 3 = false → leAt gs.params 25 1 = 0 ∧ leAt gs.params 28 2 = 0) ∧ leAt gs.params 30 2 = 0 ∧ leAt gs.params 32 8 % 64 = 0 ∧ leAt gs.params 32 8 < 2 ^ 40 ∧ (∀ i < 4, leAt gs.params (40 + 2 * i) 2 ≤ 4095) ∧ leAt gs.params 54 2 = 0 ∧ leAt gs.params 74 2 = 0 ∧ zerosAt gs.params 206 50 = true) ∧
    (leAt gs.params 0 1 ≤ 2) ∧
    (bitN (leAt gs.params 5 1) 3 = false) ∧
    ((camIdleS gs).paramRw gs.tenant (leAt gs.params 32 8) (leAt gs.params 7 1 * (((576 + (leAt gs.params 20 2 * leAt gs.params 22 2 * if bitN (leAt gs.params 5 1) 0 = true then 1 else 3) * if leAt gs.params 6 1 = 8 then 2 else 1) + 63) / 64 * 64)) = true) ∧
    (leAt gs.params 0 1 = 0) ∧
    ((camIdleS gs).cam.running = false) ∧
    (bitN (leAt gs.params 5 1) 3 = false) :=
  ⟨readyOf (by decide), by and_intros <;> decide⟩

theorem meets_CameraConfigs_9 :
    (Ready (cfS gstop fr0) gstop 208) ∧
    (gstop.params.length = 256 ∧ (leAt gstop.params 1 1 = 1 ∨ leAt gstop.params 1 1 = 2 ∨ leAt gstop.params 1 1 = 4) ∧ leAt gstop.params 2 1 ≤ 3 ∧ 42 ≤ leAt gstop.params 3 1 ∧ leAt gstop.params 3 1 ≤ 44 ∧ leAt gstop.params 4 1 ≤ 3 ∧ leAt gstop.params 5 1 < 32 ∧ (leAt gstop.params 6 1 = 1 ∨ leAt gstop.params 6 1 = 2 ∨ leAt gstop.params 6 1 = 8) ∧ 1 ≤ leAt gstop.params 7 1 ∧ leAt gstop.params 7 1 ≤ 8 ∧ 16 ≤ leAt gstop.params 8 2 ∧ leAt gstop.params 8 2 ≤ 4096 ∧ 16 ≤ leAt gstop.params 10 2 ∧ leAt gstop.params 10 2 ≤ 3072 ∧ leAt gstop.params 8 2 % 2 = 0 ∧ leAt gstop.params 10 2 % 2 = 0 ∧ leAt gstop.params 12 2 % 2 = 0 ∧ leAt gstop.params 14 2 % 2 = 0 ∧ leAt gstop.params 16 2 % 2 = 0 ∧ leAt gstop.params 18 2 % 2 = 0 ∧ 2 ≤ leAt gstop.params 16 2 ∧ 2 ≤ leAt gstop.params 18 2 ∧ leAt gstop.params 12 2 + leAt gstop.params 16 2 ≤ leAt gstop.params 8 2 ∧ leAt gstop.params 14 2 + leAt gstop.params 18 2 ≤ leAt gstop.params 10 2 ∧ 1 ≤ leAt gstop.params 20 2 ∧ leAt gstop.params 20 2 ≤ leAt gstop.params 16 2 ∧ 1 ≤ leAt gstop.params 22 2 ∧ leAt gstop.params 22 2 ≤ leAt gstop.params 18 2 ∧ leAt gstop.params 16 2 ≤ 16 * leAt gstop.params 20 2 ∧ leAt gstop.params 18 2 ≤ 16 * leAt gstop.params 22 2 ∧ leAt gstop.params 24 1 ≤ 1 ∧ (bitN (leAt gstop.params 5 1) 3 = true → 1 ≤ leAt gstop.params 25 1 ∧ 1 ≤ leAt gstop.params 28 2 ∧ leAt gstop.params 28 2 ≤ 1000) ∧ (bitN (leAt gstop.params 5 1) 3 = false → leAt gstop.params 25 1 = 0 ∧ leAt gstop.params 28 2 = 0) ∧ leAt gstop.params 30 2 = 0 ∧ leAt gstop.params 32 8 % 64 = 0 ∧ leAt gstop.params 32 8 < 2 ^ 40 ∧ (∀ i < 4, leAt gstop.params (40 + 2 * i) 2 ≤ 4095) ∧ leAt gstop.params 54 2 = 0 ∧ leAt gstop.params 74 2 = 0 ∧ zerosAt gstop.params 206 50 = true) ∧
    (leAt gstop.params 0 1 ≤ 2) ∧
    (bitN (leAt gstop.params 5 1) 3 = false) ∧
    ((cfS gstop fr0).paramRw gstop.tenant (leAt gstop.params 32 8) (leAt gstop.params 7 1 * (((576 + (leAt gstop.params 20 2 * leAt gstop.params 22 2 * if bitN (leAt gstop.params 5 1) 0 = true then 1 else 3) * if leAt gstop.params 6 1 = 8 then 2 else 1) + 63) / 64 * 64)) = true) ∧
    (leAt gstop.params 0 1 = 1) ∧
    ((cfS gstop fr0).cam.running = true) ∧
    ((cfS gstop fr0).cam.owner.toNat = gstop.tenant) ∧
    ((cfS gstop fr0).cam.frame ≠ none) :=
  ⟨readyOf (by decide), by and_intros <;> decide⟩

theorem meets_CameraConfigs_10 :
    (Ready (crS gstop) gstop 208) ∧
    (gstop.params.length = 256 ∧ (leAt gstop.params 1 1 = 1 ∨ leAt gstop.params 1 1 = 2 ∨ leAt gstop.params 1 1 = 4) ∧ leAt gstop.params 2 1 ≤ 3 ∧ 42 ≤ leAt gstop.params 3 1 ∧ leAt gstop.params 3 1 ≤ 44 ∧ leAt gstop.params 4 1 ≤ 3 ∧ leAt gstop.params 5 1 < 32 ∧ (leAt gstop.params 6 1 = 1 ∨ leAt gstop.params 6 1 = 2 ∨ leAt gstop.params 6 1 = 8) ∧ 1 ≤ leAt gstop.params 7 1 ∧ leAt gstop.params 7 1 ≤ 8 ∧ 16 ≤ leAt gstop.params 8 2 ∧ leAt gstop.params 8 2 ≤ 4096 ∧ 16 ≤ leAt gstop.params 10 2 ∧ leAt gstop.params 10 2 ≤ 3072 ∧ leAt gstop.params 8 2 % 2 = 0 ∧ leAt gstop.params 10 2 % 2 = 0 ∧ leAt gstop.params 12 2 % 2 = 0 ∧ leAt gstop.params 14 2 % 2 = 0 ∧ leAt gstop.params 16 2 % 2 = 0 ∧ leAt gstop.params 18 2 % 2 = 0 ∧ 2 ≤ leAt gstop.params 16 2 ∧ 2 ≤ leAt gstop.params 18 2 ∧ leAt gstop.params 12 2 + leAt gstop.params 16 2 ≤ leAt gstop.params 8 2 ∧ leAt gstop.params 14 2 + leAt gstop.params 18 2 ≤ leAt gstop.params 10 2 ∧ 1 ≤ leAt gstop.params 20 2 ∧ leAt gstop.params 20 2 ≤ leAt gstop.params 16 2 ∧ 1 ≤ leAt gstop.params 22 2 ∧ leAt gstop.params 22 2 ≤ leAt gstop.params 18 2 ∧ leAt gstop.params 16 2 ≤ 16 * leAt gstop.params 20 2 ∧ leAt gstop.params 18 2 ≤ 16 * leAt gstop.params 22 2 ∧ leAt gstop.params 24 1 ≤ 1 ∧ (bitN (leAt gstop.params 5 1) 3 = true → 1 ≤ leAt gstop.params 25 1 ∧ 1 ≤ leAt gstop.params 28 2 ∧ leAt gstop.params 28 2 ≤ 1000) ∧ (bitN (leAt gstop.params 5 1) 3 = false → leAt gstop.params 25 1 = 0 ∧ leAt gstop.params 28 2 = 0) ∧ leAt gstop.params 30 2 = 0 ∧ leAt gstop.params 32 8 % 64 = 0 ∧ leAt gstop.params 32 8 < 2 ^ 40 ∧ (∀ i < 4, leAt gstop.params (40 + 2 * i) 2 ≤ 4095) ∧ leAt gstop.params 54 2 = 0 ∧ leAt gstop.params 74 2 = 0 ∧ zerosAt gstop.params 206 50 = true) ∧
    (leAt gstop.params 0 1 ≤ 2) ∧
    (bitN (leAt gstop.params 5 1) 3 = false) ∧
    ((crS gstop).paramRw gstop.tenant (leAt gstop.params 32 8) (leAt gstop.params 7 1 * (((576 + (leAt gstop.params 20 2 * leAt gstop.params 22 2 * if bitN (leAt gstop.params 5 1) 0 = true then 1 else 3) * if leAt gstop.params 6 1 = 8 then 2 else 1) + 63) / 64 * 64)) = true) ∧
    (leAt gstop.params 0 1 = 1) ∧
    ((crS gstop).cam.running = true) ∧
    ((crS gstop).cam.owner.toNat = gstop.tenant) ∧
    ((crS gstop).cam.frame = none) ∧
    ((crS gstop).cam.output = []) ∧
    ((crS gstop).cam.stopping = []) :=
  ⟨readyOf (by decide), by and_intros <;> decide⟩

theorem meets_CameraPackets_1 :
    ((pkS (64 : W32) none).cam.running = true) ∧
    (BitVec.toNat (1 : BitVec 2) = fld (pkS (64 : W32) none).tb.ctrl 6 2) ∧
    ((1 : BitVec 2) ≠ (pkS (64 : W32) none).cam.cfg.vc) :=
  ⟨by decide, by decide, by decide⟩

theorem meets_CameraPackets_2 :
    ((pkS (64 : W32) none).cam.running = true) ∧
    ((pkS (64 : W32) none).cam.stopping = []) ∧
    ((pkS (64 : W32) none).cam.frame = none) ∧
    ((pkS (64 : W32) none).cam.output = []) ∧
    ((pkS (64 : W32) none).cam.cfg.vc.toNat ≠ fld (pkS (64 : W32) none).tb.ctrl 6 2) ∧
    ((pkS (64 : W32) none).cam.buf < (pkS (64 : W32) none).cam.cfg.nbuf) ∧
    ((State.camWrite ((pkS (64 : W32) none).cam.cfg.outBase + (pkS (64 : W32) none).cam.buf * (pkS (64 : W32) none).cam.cfg.bs + 22) [(0 : Byte)] (pkS (64 : W32) none)).2 = true) :=
  by and_intros <;> decide

theorem meets_CameraPackets_3 :
    (pkStop.cam.running = true) ∧
    (pkStop.cam.stopping ≠ []) ∧
    (BitVec.toNat (0 : BitVec 2) ≠ fld pkStop.tb.ctrl 6 2) :=
  ⟨by decide, by decide, by decide⟩

theorem meets_CameraPackets_4 :
    ((pkS (64 : W32) none).cam.running = true) ∧
    (bit (pkS (64 : W32) none).tb.ctrl 8 = false) ∧
    (BitVec.toNat (1 : BitVec 2) = fld (pkS (64 : W32) none).tb.ctrl 6 2) :=
  ⟨by decide, by decide, by decide⟩

theorem meets_CameraPackets_5 :
    ((pkS (64 : W32) none).cam.running = true) ∧
    (BitVec.toNat (2 : BitVec 2) ≠ fld (pkS (64 : W32) none).tb.ctrl 6 2) :=
  ⟨by decide, by decide⟩

theorem meets_CameraPackets_6 :
    (pk15.cam.running = true) ∧
    (pk15.cam.frame = some frK) ∧
    (frK.cfg.vc = pk15.cam.cfg.vc) ∧
    (42 ≤ frK.cfg.dt.toNat) ∧
    (frK.cfg.dt.toNat ≤ 44) ∧
    (pk15.cam.cfg.vc.toNat ≠ fld pk15.tb.ctrl 6 2) ∧
    (row16.length = frK.cfg.inW) ∧
    (false = false) :=
  by and_intros <;> decide

theorem meets_CameraPackets_7 :
    (pk15.cam.running = true) ∧
    (pk15.cam.frame = some frK) ∧
    (frK.cfg.vc = pk15.cam.cfg.vc) ∧
    (42 ≤ frK.cfg.dt.toNat) ∧
    (frK.cfg.dt.toNat ≤ 44) ∧
    (pk15.cam.cfg.vc.toNat ≠ fld pk15.tb.ctrl 6 2) ∧
    ([1].length ≠ frK.cfg.inW) :=
  by and_intros <;> decide

theorem meets_CameraPackets_8 :
    (pk15.cam.running = true) ∧
    (pk15.cam.frame = some frK) ∧
    (frK.cfg.vc = pk15.cam.cfg.vc) ∧
    (42 ≤ frK.cfg.dt.toNat) ∧
    (frK.cfg.dt.toNat ≤ 44) ∧
    (pk15.cam.cfg.vc.toNat ≠ fld pk15.tb.ctrl 6 2) ∧
    (row16.length = frK.cfg.inW) ∧
    (true = true) :=
  by and_intros <;> decide

theorem meets_CameraPackets_9 :
    (pk16.cam.running = true) ∧
    (pk16.cam.frame = some frF) ∧
    (frF.cfg.vc = pk16.cam.cfg.vc) ∧
    (42 ≤ frF.cfg.dt.toNat) ∧
    (frF.cfg.dt.toNat ≤ 44) ∧
    (pk16.cam.cfg.vc.toNat ≠ fld pk16.tb.ctrl 6 2) ∧
    (frF.lines.length = frF.cfg.inH) :=
  by and_intros <;> decide

theorem meets_CameraPackets_10 :
    (pk15.cam.running = true) ∧
    (pk15.cam.frame = some frK) ∧
    (frK.cfg.vc = pk15.cam.cfg.vc) ∧
    (42 ≤ frK.cfg.dt.toNat) ∧
    (frK.cfg.dt.toNat ≤ 44) ∧
    (pk15.cam.cfg.vc.toNat ≠ fld pk15.tb.ctrl 6 2) ∧
    (frK.lines.length ≠ frK.cfg.inH) :=
  by and_intros <;> decide

theorem meets_CameraPackets_11 :
    ((pkS (64 : W32) none).cam.running = true) ∧
    ((pkS (64 : W32) none).cam.frame = none) :=
  ⟨by decide, by decide⟩

theorem meets_CameraPackets_12 :
    (pkL.cam.running = true) ∧
    (bit pkL.tb.ctrl 8 = true) ∧
    (BitVec.toNat (1 : BitVec 2) = fld pkL.tb.ctrl 6 2) ∧
    ((1 : BitVec 2) ≠ pkL.cam.cfg.vc) ∧
    (42 ≤ BitVec.toNat (42 : BitVec 6)) ∧
    (BitVec.toNat (42 : BitVec 6) ≤ 44) :=
  by and_intros <;> decide

theorem meets_CameraPackets_14 :
    (pkL.cam.running = true) ∧
    (8 ≤ BitVec.toNat (18 : BitVec 6)) ∧
    (BitVec.toNat (18 : BitVec 6) = 18) :=
  ⟨by decide, by decide, by decide⟩

theorem meets_CameraPackets_15 :
    (pkL.cam.running = true) ∧
    (45 ≤ BitVec.toNat (45 : BitVec 6)) :=
  ⟨by decide, by decide⟩

theorem meets_CameraFrames_1 :
    ((outF 5242880).cam.output = [oF 5242880]) ∧
    ((State.camWrite ((oF 5242880).cfg.outBase + (outF 5242880).cam.buf * (oF 5242880).cfg.bs + 22) [(0 : Byte)] { (outF 5242880) with cam := (outF 5242880).cam : State }).2 = false) :=
  ⟨by decide, by decide⟩

theorem meets_CameraFrames_2 :
    ((outF 65536).cam.output = [oF 65536]) ∧
    ((State.camWrite ((oF 65536).cfg.outBase + (outF 65536).cam.buf * (oF 65536).cfg.bs + 22) [(0 : Byte)] { (outF 65536) with cam := (outF 65536).cam : State }).2 = true) ∧
    ((State.camWrite ((oF 65536).cfg.outBase + (outF 65536).cam.buf * (oF 65536).cfg.bs + 64) ((oF 65536).stats (outF 65536).cam.history ++ (oF 65536).tensor) (State.camWrite ((oF 65536).cfg.outBase + (outF 65536).cam.buf * (oF 65536).cfg.bs + 22) [(0 : Byte)] { (outF 65536) with cam := (outF 65536).cam : State }).1).2 = true) ∧
    ((State.camWrite ((oF 65536).cfg.outBase + (outF 65536).cam.buf * (oF 65536).cfg.bs) ((oF 65536).header (BitVec.toNat ((outF 65536).cam.seq + (1 : W32)))) (State.camWrite ((oF 65536).cfg.outBase + (outF 65536).cam.buf * (oF 65536).cfg.bs + 64) ((oF 65536).stats (outF 65536).cam.history ++ (oF 65536).tensor) (State.camWrite ((oF 65536).cfg.outBase + (outF 65536).cam.buf * (oF 65536).cfg.bs + 22) [(0 : Byte)] { (outF 65536) with cam := (outF 65536).cam : State }).1).1).2 = true) :=
  ⟨by decide, by decide, by decide, by decide⟩

theorem meets_CameraFrames_3 :
    ((outF 65536).access { tenant := some (outF 65536).cam.owner.toNat, windows := (outF 65536).windowsOf (outF 65536).cam.owner.toNat : Agent } 1 4194303 [(1 : Byte)].length = none) :=
  by decide

theorem meets_CameraFrames_4 :
    ((outF 65536).access { tenant := some (outF 65536).cam.owner.toNat, windows := (outF 65536).windowsOf (outF 65536).cam.owner.toNat : Agent } 1 4194303 [(1 : Byte), (2 : Byte)].length = some cfDeny) :=
  by decide

theorem meets_CameraFrames_5 :
    (4294967295 < 2 ^ 32) :=
  by decide

theorem meets_CameraPipeline_1 :
    (15 < ppx.cfg.inH) ∧
    (0 < ppx.cfg.inW) :=
  ⟨by decide, by decide⟩

theorem meets_CameraPipeline_2 :
    (siteColour ppx.cfg.cfa (0 : ℤ) (0 : ℤ) ≠ 1) :=
  by decide

theorem meets_CameraPipeline_5 :
    (cfg0.bilinear = false) :=
  by decide

theorem meets_CameraPipeline_6 :
    (cfgB.bilinear = true) ∧
    (5 < cfgB.outH) ∧
    (7 < cfgB.outW) ∧
    (cfgB.outH = cfgB.cropH) ∧
    (cfgB.outW = cfgB.cropW) :=
  by and_intros <;> decide

theorem meets_CameraPipeline_7 :
    (65535 < 65536) ∧
    ({ cfg0 with outFmt := 2 : CamCfg }.outFmt = 2) :=
  ⟨by decide, by decide⟩

theorem meets_CameraPipeline_9 :
    (cfg0.gamma.length = 65) ∧
    (63 < 64) :=
  ⟨by decide, by decide⟩

def outHeld (b : Nat) : State := { outF b with dies := [(0, { bridge := .retrain, power := .on })] }

def winB (s : State) : State := { s with tenants := [(1, some { ten with windows := [{ perm := 7, base := 1, limit := 1024 }] })] }
def cDeny (b : Nat) : Deny := ((outF b).access { tenant := some (outF b).cam.owner.toNat, windows := (outF b).windowsOf (outF b).cam.owner.toNat } 1 b 1).getD { code := 0 }
def fFlk : CamFrame := { frF with cfg := { cfg0 with flags := 4, wb := [4096, 4096, 4096], matrix := [4096, 0, 0, 0, 4096, 0, 0, 0, 4096], gamma := List.replicate 65 1000 } }
def pkF (c : CamCfg) : State := { pkS 0x40 none with cam := { running := true, owner := 1, cfg := c, lastSeq := 77, seq := 77 } }

theorem meets_CameraPackets_16 :
    let s : State := pk16
    (s.cam.running = true) ∧
    (∃ dt : BitVec 6, ∃ vc : BitVec 2, vc ≠ s.cam.cfg.vc ∨ ¬(dt.toNat ∉ [0, 1, 2, 3, 18, 42, 43, 44] ∧ ¬(8 ≤ dt.toNat ∧ dt.toNat ≤ 15))) :=
  ⟨by decide +kernel, by decide +kernel⟩

theorem meets_CameraPackets_17 :
    let s : State := pk16
    (s.cam.running = true) ∧
    (∃ vc : BitVec 2, vc = s.cam.cfg.vc) ∧
    (∃ dt : BitVec 6, dt.toNat ∉ [0, 1, 2, 3, 18, 42, 43, 44] ∧ ¬(8 ≤ dt.toNat ∧ dt.toNat ≤ 15)) :=
  ⟨by decide +kernel, by decide +kernel, by decide +kernel⟩

theorem meets_CameraPackets_18 :
    let s : State := pk16
    (s.cam.running = true) ∧
    (∃ dt : BitVec 6, dt.toNat < 42 ∨ 44 < dt.toNat) ∧
    (∃ vc : BitVec 2, bit s.tb.ctrl 8 = false ∨ vc.toNat ≠ fld s.tb.ctrl 6 2) :=
  ⟨by decide +kernel, by decide +kernel, by decide +kernel⟩

theorem meets_CameraConfigs_11 :
    let phase : ℕ := 65535
    phase < 65536 :=
  by decide +kernel

theorem meets_CameraConfigs_12 :
    let s : State := camIdleS gtrig
    let c : Cmd := gtrig
    (Ready s c 208) ∧
    (c.params.length = 256 ∧ (leAt c.params 1 1 = 1 ∨ leAt c.params 1 1 = 2 ∨ leAt c.params 1 1 = 4) ∧ leAt c.params 2 1 ≤ 3 ∧ 42 ≤ leAt c.params 3 1 ∧ leAt c.params 3 1 ≤ 44 ∧ leAt c.params 4 1 ≤ 3 ∧ leAt c.params 5 1 < 32 ∧ (leAt c.params 6 1 = 1 ∨ leAt c.params 6 1 = 2 ∨ leAt c.params 6 1 = 8) ∧ 1 ≤ leAt c.params 7 1 ∧ leAt c.params 7 1 ≤ 8 ∧ 16 ≤ leAt c.params 8 2 ∧ leAt c.params 8 2 ≤ 4096 ∧ 16 ≤ leAt c.params 10 2 ∧ leAt c.params 10 2 ≤ 3072 ∧ leAt c.params 8 2 % 2 = 0 ∧ leAt c.params 10 2 % 2 = 0 ∧ leAt c.params 12 2 % 2 = 0 ∧ leAt c.params 14 2 % 2 = 0 ∧ leAt c.params 16 2 % 2 = 0 ∧ leAt c.params 18 2 % 2 = 0 ∧ 2 ≤ leAt c.params 16 2 ∧ 2 ≤ leAt c.params 18 2 ∧ leAt c.params 12 2 + leAt c.params 16 2 ≤ leAt c.params 8 2 ∧ leAt c.params 14 2 + leAt c.params 18 2 ≤ leAt c.params 10 2 ∧ 1 ≤ leAt c.params 20 2 ∧ leAt c.params 20 2 ≤ leAt c.params 16 2 ∧ 1 ≤ leAt c.params 22 2 ∧ leAt c.params 22 2 ≤ leAt c.params 18 2 ∧ leAt c.params 16 2 ≤ 16 * leAt c.params 20 2 ∧ leAt c.params 18 2 ≤ 16 * leAt c.params 22 2 ∧ leAt c.params 24 1 ≤ 1 ∧ (bitN (leAt c.params 5 1) 3 = true → 1 ≤ leAt c.params 25 1 ∧ 1 ≤ leAt c.params 28 2 ∧ leAt c.params 28 2 ≤ 1000) ∧ (bitN (leAt c.params 5 1) 3 = false → leAt c.params 25 1 = 0 ∧ leAt c.params 28 2 = 0) ∧ leAt c.params 30 2 = 0 ∧ leAt c.params 32 8 % 64 = 0 ∧ leAt c.params 32 8 < 2 ^ 40 ∧ (∀ i < 4, leAt c.params (40 + 2 * i) 2 ≤ 4095) ∧ leAt c.params 54 2 = 0 ∧ leAt c.params 74 2 = 0 ∧ zerosAt c.params 206 50 = true) ∧
    (leAt c.params 0 1 ≤ 2) ∧
    (bitN (leAt c.params 5 1) 3 = false ∨ s.rev2 = true) ∧
    (s.paramRw c.tenant (leAt c.params 32 8) (leAt c.params 7 1 * (((576 + (leAt c.params 20 2 * leAt c.params 22 2 * if bitN (leAt c.params 5 1) 0 = true then 1 else 3) * if leAt c.params 6 1 = 8 then 2 else 1) + 63) / 64 * 64)) = true) ∧
    (leAt c.params 0 1 = 0) ∧
    (s.cam.running = false) ∧
    (bitN (leAt c.params 5 1) 3 = true) :=
  ⟨readyOf (by decide +kernel), by decide +kernel, by decide +kernel, by decide +kernel, by decide +kernel, by decide +kernel, by decide +kernel, by decide +kernel⟩

theorem meets_CameraFrames_9 :
    let s : State := outHeld 0x1000000
    let f : CamFrame := oF 0x1000000
    let l : List CamFrame := []
    (s.cam.output = f :: l) ∧
    ((State.camWrite (f.cfg.outBase + s.cam.buf * f.cfg.bs + 22) [0] { s with cam := { s.cam with output := l } }).2 = false) :=
  ⟨by decide +kernel, by decide +kernel⟩

theorem meets_CameraFrames_10 :
    let s : State := outF 0x3FFFC0
    let f : CamFrame := oF 0x3FFFC0
    let l : List CamFrame := []
    let e1 := State.camWrite (f.cfg.outBase + s.cam.buf * f.cfg.bs + 22) [0] { s with cam := { s.cam with output := l } }
    (s.cam.output = f :: l) ∧
    (e1.2 = true) ∧
    ((State.camWrite (f.cfg.outBase + s.cam.buf * f.cfg.bs + 64) (f.stats (if f.restart = true then [] else s.cam.history) ++ f.tensor) e1.1).2 = false) :=
  ⟨by decide +kernel, by decide +kernel, by decide +kernel⟩

theorem meets_CameraFrames_11 :
    let s : State := winB (outF 0xFF6)
    let f : CamFrame := oF 0xFF6
    let l : List CamFrame := []
    let e2 := State.camWrite (f.cfg.outBase + s.cam.buf * f.cfg.bs + 22) [0] { s with cam := { s.cam with output := l } }
    let e1 := State.camWrite (f.cfg.outBase + s.cam.buf * f.cfg.bs + 64) (f.stats (if f.restart = true then [] else s.cam.history) ++ f.tensor) e2.1
    (s.cam.output = f :: l) ∧
    (e2.2 = true) ∧
    (e1.2 = true) ∧
    ((State.camWrite (f.cfg.outBase + s.cam.buf * f.cfg.bs) (f.header (BitVec.toNat (s.cam.seq + 1))) e1.1).2 = false) :=
  ⟨by decide +kernel, by decide +kernel, by decide +kernel, by decide +kernel⟩

theorem meets_CameraFrames_12 :
    let s : State := outF 0x10000
    let f : CamFrame := oF 0x10000
    let l : List CamFrame := []
    let e2 := State.camWrite (f.cfg.outBase + s.cam.buf * f.cfg.bs + 22) [0] { s with cam := { s.cam with output := l } }
    let e1 := State.camWrite (f.cfg.outBase + s.cam.buf * f.cfg.bs + 64) (f.stats (if f.restart = true then [] else s.cam.history) ++ f.tensor) e2.1
    (s.cam.output = f :: l) ∧
    (e2.2 = true) ∧
    (e1.2 = true) ∧
    ((State.camWrite (f.cfg.outBase + s.cam.buf * f.cfg.bs) (f.header (BitVec.toNat (s.cam.seq + 1))) e1.1).2 = true) :=
  ⟨by decide +kernel, by decide +kernel, by decide +kernel, by decide +kernel⟩

theorem meets_CameraFrames_13 :
    let s : State := crS gs
    s.cam.output = [] :=
  by decide +kernel

theorem meets_CameraFrames_14 :
    let s : State := outHeld 0x1000000
    let a : ℕ := 0x1000000
    let b : List Byte := [1]
    s.pathHeld none a b.length = true :=
  by decide +kernel

theorem meets_CameraFrames_15 :
    let s : State := outF 0x10000
    let a : ℕ := 0x3FFFFF
    let b : List Byte := [1]
    (s.pathHeld none a b.length = false) ∧
    (s.access { tenant := some s.cam.owner.toNat, windows := s.windowsOf s.cam.owner.toNat } 1 a b.length = none) :=
  ⟨by decide +kernel, by decide +kernel⟩

theorem meets_CameraFrames_16 :
    let s : State := outF 0x400000
    let a : ℕ := 0x400000
    let b : List Byte := [1]
    let d : Deny := cDeny 0x400000
    (s.pathHeld none a b.length = false) ∧
    (s.access { tenant := some s.cam.owner.toNat, windows := s.windowsOf s.cam.owner.toNat } 1 a b.length = some d) :=
  ⟨by decide +kernel, by decide +kernel⟩

theorem meets_CameraFrames_17 :
    let f : CamFrame := oF 0x10000
    let i : ℕ := 447
    (bit f.cfg.flags 4 = false) ∧
    (i < 448) :=
  ⟨by decide +kernel, by decide +kernel⟩

theorem meets_CameraFrames_18 :
    let f : CamFrame := oF 0x10000
    let i : ℕ := 452
    (bit f.cfg.flags 2 = false) ∧
    (448 ≤ i) ∧
    (i < 453) :=
  ⟨by decide +kernel, by decide +kernel, by decide +kernel⟩

theorem meets_CameraFrames_19 :
    let f : CamFrame := fFlk
    bit f.cfg.flags 2 = true :=
  by decide +kernel

theorem meets_CameraFrames_20 :
    let f : CamFrame := fFlk
    let h : List (List ℕ) := []
    (bit f.cfg.flags 2 = true) ∧
    (leAt (f.stats h) 449 1 < 2) :=
  ⟨by decide +kernel, by decide +kernel⟩

theorem meets_CameraFrames_21 :
    let i : ℕ := 460
    460 ≤ i :=
  by decide +kernel

theorem meets_CameraPackets_19 :
    let s : State := camIdleS gs
    s.cam.running = false :=
  by decide +kernel

theorem meets_CameraPackets_20 :
    let s : State := pkF cfg0
    (s.cam.running = true) ∧
    (s.cam.stopping = []) ∧
    (s.cam.frame = none) ∧
    (s.cam.cfg.vc.toNat ≠ fld s.tb.ctrl 6 2) ∧
    ((State.camWrite (s.cam.cfg.outBase + (s.cam.buf + s.cam.output.length) % max 1 s.cam.cfg.nbuf * s.cam.cfg.bs + 22) [0] s).2 = true) :=
  ⟨by decide +kernel, by decide +kernel, by decide +kernel, by decide +kernel, by decide +kernel⟩

theorem meets_CameraPackets_21 :
    let s : State := pkF { cfg0 with outBase := 0x400000 }
    (s.cam.running = true) ∧
    (s.cam.stopping = []) ∧
    (s.cam.frame = none) ∧
    (s.cam.cfg.vc.toNat ≠ fld s.tb.ctrl 6 2) ∧
    ((State.camWrite (s.cam.cfg.outBase + (s.cam.buf + s.cam.output.length) % max 1 s.cam.cfg.nbuf * s.cam.cfg.bs + 22) [0] s).2 = false) :=
  ⟨by decide +kernel, by decide +kernel, by decide +kernel, by decide +kernel, by decide +kernel⟩

theorem meets_CameraPackets_22 :
    let s : State := pkS 0x40 (some frK)
    (s.cam.running = true) ∧
    (s.cam.stopping = []) ∧
    (s.cam.frame ≠ none) ∧
    (s.cam.cfg.vc.toNat ≠ fld s.tb.ctrl 6 2) :=
  ⟨by decide +kernel, by decide +kernel, by decide +kernel, by decide +kernel⟩

theorem meets_CameraPackets_23 :
    let s : State := pkS 0x40 (some frK)
    let f : CamFrame := frK
    let dt : BitVec 6 := 0x2C
    (s.cam.running = true) ∧
    (s.cam.frame = some f) ∧
    (f.cfg.vc = s.cam.cfg.vc) ∧
    (42 ≤ f.cfg.dt.toNat) ∧
    (f.cfg.dt.toNat ≤ 44) ∧
    (bit s.tb.ctrl 8 = false ∨ s.cam.cfg.vc.toNat ≠ fld s.tb.ctrl 6 2) ∧
    (42 ≤ dt.toNat) ∧
    (dt.toNat ≤ 44) ∧
    (dt ≠ f.cfg.dt) :=
  ⟨by decide +kernel, by decide +kernel, by decide +kernel, by decide +kernel, by decide +kernel, by decide +kernel, by decide +kernel, by decide +kernel, by decide +kernel⟩

end Part18

namespace Part19

/-- PACK of audio: two entries, one row of 8 frames of one INT16 channel (format 3). -/
def itB (fs : List (Nat × Nat × Nat)) : List Byte :=
  bytes 64 ([(3, 1, 3), (4, 2, 2), (6, 2, 1), (8, 8, 0x1000), (16, 8, 0x2000), (24, 8, 0x3000), (40, 4, 8), (48, 1, 1)] ++ fs)
def ic (cl : Cls) (fs : List (Nat × Nat × Nat)) : Cmd := { id := 1, sq := 0, op := 0x00B0, tag := 7, tenant := 1, cls := cl, cq := 0, params := itB fs }
def itS (c : Cmd) : State := hold c t1
def iOk : Cmd := ic .interactive []
def iBg : Cmd := ic .background []
def iBad : Cmd := ic .interactive [(63, 1, 1)]
def iWin : Cmd := ic .interactive [(24, 8, 0x500000)]
def itRun (c : Cmd) : State := { itS c with itk.run := some { cmd := 9, cls := .background, elig := 0 } }
/-- A plain sample entry: address, length, format, channels, frames. -/
def ent (a len f ch d0 : Nat) : List Byte := bytes 32 [(0, 8, a), (8, 4, len), (12, 1, f), (14, 1, ch), (16, 4, d0)]
def isS (c : Cmd) (x : Intake) (e : List Byte) : State :=
  { hold { c with phase := .running } t1 with itk.run := some x, mem := mwrite (mwrite [] 0x1000 e) 0x4000 ((List.range 32).map (fun i => BitVec.ofNat 8 (i * 5))) }
def x0 : Intake := { cmd := 1, cls := .interactive, elig := 0, started := true, windows := ten.windows }
def xNo : Intake := { x0 with windows := [] }
def iGo : Cmd := { iOk with phase := .running }
def e4 : List Byte := ent 0x4000 8 3 1 4
def isDeny : Deny := ((isS iOk xNo e4).access { tenant := some 1, windows := [] } 0 0x1000 32).getD { code := 0 }
def x8 : Intake := { x0 with fill := 6 }
def pars (c : Cmd) (x : Intake) (e : List Byte) : Parsed :=
  (sampleOf ((isS c x e).devRead 0x1000 32)).parse { c with phase := .running } (fun a n => windowsAllow x.windows 0 a n && !(pagesOf a n).any (isS c x e).inHoard) (isS c x e).devRead
def plc (x : Intake) : Placed := (x.pack iGo (pars iOk x e4)).getD { run := x }
def iBat : Cmd := ic .interactive [(0, 1, 1)]
def iBatGo : Cmd := { iBat with phase := .running }
def p4 : Parsed := { n := 4, raws := [1, 2, 3, 4], fmt := 3 }
def pBad : Parsed := { reason := 2 }
def iRows : Cmd := { iOk with params := itB [(6, 2, 2)] }
def iPad : Cmd := ic .interactive [(0, 1, 1), (2, 1, 1)]
def iPrev : Cmd := ic .interactive [(0, 1, 1), (2, 1, 2)]
def doneS : State := isS iOk x8 e4
def doneT : State := match doneS.itWrite { tenant := some 1, windows := x8.windows } (x8.tail iGo) with | .inr t => t | .inl _ => doneS
def smp : Sample := { addr := 0x4000, len := 40, fmt := 3, flags := 1, ch := 1, zero := 0, d0 := 4, d1 := 0, aug := 0 }
def hdr (plen d0 d1 : Nat) : Nat → Nat → List Byte := fun _ n =>
  bytes n [(0, 4, 0xC7A50C01), (4, 1, 1), (5, 1, 3), (6, 1, 2), (8, 4, d0), (12, 4, d1), (20, 4, plen)]

theorem meets_IntakeSubmits_1 :
    (Ready (itS iBad) iBad 176) ∧
    (¬((iBad.params.length = 64 ∧ leAt iBad.params 0 1 ≤ 1 ∧ leAt iBad.params 1 1 ≤ 1 ∧ leAt iBad.params 2 1 ≤ 2 ∧ (leAt iBad.params 0 1 = 0 → leAt iBad.params 1 1 = 0 ∧ leAt iBad.params 2 1 = 0) ∧ (leAt iBad.params 3 1 ∈ [1, 8, 9, 10] ∨ leAt iBad.params 1 1 = 0 ∧ leAt iBad.params 3 1 ∈ [3, 4] ∨ ¬leAt iBad.params 1 1 = 0 ∧ leAt iBad.params 3 1 = 2) ∧ 1 ≤ leAt iBad.params 4 2 ∧ 1 ≤ leAt iBad.params 6 2 ∧ leAt iBad.params 8 8 < 2 ^ 40 ∧ leAt iBad.params 8 8 % 32 = 0 ∧ leAt iBad.params 16 8 < 2 ^ 40 ∧ leAt iBad.params 16 8 % 64 = 0 ∧ leAt iBad.params 24 8 < 2 ^ 40 ∧ leAt iBad.params 32 8 < 2 ^ 40 ∧ leAt iBad.params 32 8 % 16 = 0 ∧ (leAt iBad.params 1 1 = 0 → 1 ≤ leAt iBad.params 40 4 ∧ leAt iBad.params 40 4 ≤ 2 ^ 20 ∧ leAt iBad.params 44 4 = 0 ∧ 1 ≤ leAt iBad.params 48 1 ∧ leAt iBad.params 48 1 ≤ 16) ∧ (¬leAt iBad.params 1 1 = 0 → leAt iBad.params 24 8 = 0 ∧ leAt iBad.params 40 4 = 0 ∧ 1 ≤ leAt iBad.params 44 2 ∧ leAt iBad.params 44 2 ≤ 4096 ∧ 1 ≤ leAt iBad.params 46 2 ∧ leAt iBad.params 46 2 ≤ 4096 ∧ (leAt iBad.params 48 1 = 1 ∨ leAt iBad.params 48 1 = 3)) ∧ leAt iBad.params 49 3 = 0 ∧ zerosAt iBad.params 56 8 = true) ∧ List.Pairwise (fun a b => a.2 = 0 ∨ b.2 = 0 ∨ a.1 + a.2 ≤ b.1 ∨ b.1 + b.2 ≤ a.1) ((leAt iBad.params 8 8, 32 * leAt iBad.params 4 2) :: ([(leAt iBad.params 16 8, leAt iBad.params 6 2 * ((if leAt iBad.params 1 1 = 0 then leAt iBad.params 40 4 else leAt iBad.params 44 2 * leAt iBad.params 46 2) * leAt iBad.params 48 1 * if leAt iBad.params 3 1 ≤ 2 then 1 else if leAt iBad.params 3 1 = 3 ∨ leAt iBad.params 3 1 = 8 ∨ leAt iBad.params 3 1 = 9 then 2 else 4)), (leAt iBad.params 24 8, if leAt iBad.params 0 1 = 0 then 2 * leAt iBad.params 6 2 * leAt iBad.params 40 4 else if leAt iBad.params 1 1 = 0 then 4 * leAt iBad.params 6 2 else 0)] ++ if leAt iBad.params 32 8 = 0 then [] else [(leAt iBad.params 32 8, 16 * leAt iBad.params 4 2)])))) :=
  ⟨readyOf (by decide), by decide⟩

theorem meets_IntakeSubmits_2 :
    (Ready (itS iWin) iWin 176) ∧
    (iWin.params.length = 64 ∧ leAt iWin.params 0 1 ≤ 1 ∧ leAt iWin.params 1 1 ≤ 1 ∧ leAt iWin.params 2 1 ≤ 2 ∧ (leAt iWin.params 0 1 = 0 → leAt iWin.params 1 1 = 0 ∧ leAt iWin.params 2 1 = 0) ∧ (leAt iWin.params 3 1 ∈ [1, 8, 9, 10] ∨ leAt iWin.params 1 1 = 0 ∧ leAt iWin.params 3 1 ∈ [3, 4] ∨ ¬leAt iWin.params 1 1 = 0 ∧ leAt iWin.params 3 1 = 2) ∧ 1 ≤ leAt iWin.params 4 2 ∧ 1 ≤ leAt iWin.params 6 2 ∧ leAt iWin.params 8 8 < 2 ^ 40 ∧ leAt iWin.params 8 8 % 32 = 0 ∧ leAt iWin.params 16 8 < 2 ^ 40 ∧ leAt iWin.params 16 8 % 64 = 0 ∧ leAt iWin.params 24 8 < 2 ^ 40 ∧ leAt iWin.params 32 8 < 2 ^ 40 ∧ leAt iWin.params 32 8 % 16 = 0 ∧ (leAt iWin.params 1 1 = 0 → 1 ≤ leAt iWin.params 40 4 ∧ leAt iWin.params 40 4 ≤ 2 ^ 20 ∧ leAt iWin.params 44 4 = 0 ∧ 1 ≤ leAt iWin.params 48 1 ∧ leAt iWin.params 48 1 ≤ 16) ∧ (¬leAt iWin.params 1 1 = 0 → leAt iWin.params 24 8 = 0 ∧ leAt iWin.params 40 4 = 0 ∧ 1 ≤ leAt iWin.params 44 2 ∧ leAt iWin.params 44 2 ≤ 4096 ∧ 1 ≤ leAt iWin.params 46 2 ∧ leAt iWin.params 46 2 ≤ 4096 ∧ (leAt iWin.params 48 1 = 1 ∨ leAt iWin.params 48 1 = 3)) ∧ leAt iWin.params 49 3 = 0 ∧ zerosAt iWin.params 56 8 = true) ∧
    (List.Pairwise (fun a b => a.2 = 0 ∨ b.2 = 0 ∨ a.1 + a.2 ≤ b.1 ∨ b.1 + b.2 ≤ a.1) ((leAt iWin.params 8 8, 32 * leAt iWin.params 4 2) :: ([(leAt iWin.params 16 8, leAt iWin.params 6 2 * ((if leAt iWin.params 1 1 = 0 then leAt iWin.params 40 4 else leAt iWin.params 44 2 * leAt iWin.params 46 2) * leAt iWin.params 48 1 * if leAt iWin.params 3 1 ≤ 2 then 1 else if leAt iWin.params 3 1 = 3 ∨ leAt iWin.params 3 1 = 8 ∨ leAt iWin.params 3 1 = 9 then 2 else 4)), (leAt iWin.params 24 8, if leAt iWin.params 0 1 = 0 then 2 * leAt iWin.params 6 2 * leAt iWin.params 40 4 else if leAt iWin.params 1 1 = 0 then 4 * leAt iWin.params 6 2 else 0)] ++ if leAt iWin.params 32 8 = 0 then [] else [(leAt iWin.params 32 8, 16 * leAt iWin.params 4 2)]))) ∧
    (¬((fun perm r => windowsAllow ((itS iWin).windowsOf iWin.tenant) perm r.1 r.2 = true ∧ (pagesOf r.1 r.2).any (itS iWin).inHoard = false) 0 (leAt iWin.params 8 8, 32 * leAt iWin.params 4 2) ∧ ∀ r ∈ [(leAt iWin.params 16 8, leAt iWin.params 6 2 * ((if leAt iWin.params 1 1 = 0 then leAt iWin.params 40 4 else leAt iWin.params 44 2 * leAt iWin.params 46 2) * leAt iWin.params 48 1 * if leAt iWin.params 3 1 ≤ 2 then 1 else if leAt iWin.params 3 1 = 3 ∨ leAt iWin.params 3 1 = 8 ∨ leAt iWin.params 3 1 = 9 then 2 else 4)), (leAt iWin.params 24 8, if leAt iWin.params 0 1 = 0 then 2 * leAt iWin.params 6 2 * leAt iWin.params 40 4 else if leAt iWin.params 1 1 = 0 then 4 * leAt iWin.params 6 2 else 0)] ++ if leAt iWin.params 32 8 = 0 then [] else [(leAt iWin.params 32 8, 16 * leAt iWin.params 4 2)], (fun perm r => windowsAllow ((itS iWin).windowsOf iWin.tenant) perm r.1 r.2 = true ∧ (pagesOf r.1 r.2).any (itS iWin).inHoard = false) 1 r)) :=
  ⟨readyOf (by decide), by decide, by decide, by decide⟩

theorem meets_IntakeSubmits_3 :
    (Ready (itS iOk) iOk 176) ∧
    (iOk.params.length = 64 ∧ leAt iOk.params 0 1 ≤ 1 ∧ leAt iOk.params 1 1 ≤ 1 ∧ leAt iOk.params 2 1 ≤ 2 ∧ (leAt iOk.params 0 1 = 0 → leAt iOk.params 1 1 = 0 ∧ leAt iOk.params 2 1 = 0) ∧ (leAt iOk.params 3 1 ∈ [1, 8, 9, 10] ∨ leAt iOk.params 1 1 = 0 ∧ leAt iOk.params 3 1 ∈ [3, 4] ∨ ¬leAt iOk.params 1 1 = 0 ∧ leAt iOk.params 3 1 = 2) ∧ 1 ≤ leAt iOk.params 4 2 ∧ 1 ≤ leAt iOk.params 6 2 ∧ leAt iOk.params 8 8 < 2 ^ 40 ∧ leAt iOk.params 8 8 % 32 = 0 ∧ leAt iOk.params 16 8 < 2 ^ 40 ∧ leAt iOk.params 16 8 % 64 = 0 ∧ leAt iOk.params 24 8 < 2 ^ 40 ∧ leAt iOk.params 32 8 < 2 ^ 40 ∧ leAt iOk.params 32 8 % 16 = 0 ∧ (leAt iOk.params 1 1 = 0 → 1 ≤ leAt iOk.params 40 4 ∧ leAt iOk.params 40 4 ≤ 2 ^ 20 ∧ leAt iOk.params 44 4 = 0 ∧ 1 ≤ leAt iOk.params 48 1 ∧ leAt iOk.params 48 1 ≤ 16) ∧ (¬leAt iOk.params 1 1 = 0 → leAt iOk.params 24 8 = 0 ∧ leAt iOk.params 40 4 = 0 ∧ 1 ≤ leAt iOk.params 44 2 ∧ leAt iOk.params 44 2 ≤ 4096 ∧ 1 ≤ leAt iOk.params 46 2 ∧ leAt iOk.params 46 2 ≤ 4096 ∧ (leAt iOk.params 48 1 = 1 ∨ leAt iOk.params 48 1 = 3)) ∧ leAt iOk.params 49 3 = 0 ∧ zerosAt iOk.params 56 8 = true) ∧
    (List.Pairwise (fun a b => a.2 = 0 ∨ b.2 = 0 ∨ a.1 + a.2 ≤ b.1 ∨ b.1 + b.2 ≤ a.1) ((leAt iOk.params 8 8, 32 * leAt iOk.params 4 2) :: ([(leAt iOk.params 16 8, leAt iOk.params 6 2 * ((if leAt iOk.params 1 1 = 0 then leAt iOk.params 40 4 else leAt iOk.params 44 2 * leAt iOk.params 46 2) * leAt iOk.params 48 1 * if leAt iOk.params 3 1 ≤ 2 then 1 else if leAt iOk.params 3 1 = 3 ∨ leAt iOk.params 3 1 = 8 ∨ leAt iOk.params 3 1 = 9 then 2 else 4)), (leAt iOk.params 24 8, if leAt iOk.params 0 1 = 0 then 2 * leAt iOk.params 6 2 * leAt iOk.params 40 4 else if leAt iOk.params 1 1 = 0 then 4 * leAt iOk.params 6 2 else 0)] ++ if leAt iOk.params 32 8 = 0 then [] else [(leAt iOk.params 32 8, 16 * leAt iOk.params 4 2)]))) ∧
    ((fun perm r => windowsAllow ((itS iOk).windowsOf iOk.tenant) perm r.1 r.2 = true ∧ (pagesOf r.1 r.2).any (itS iOk).inHoard = false) 0 (leAt iOk.params 8 8, 32 * leAt iOk.params 4 2) ∧ ∀ r ∈ [(leAt iOk.params 16 8, leAt iOk.params 6 2 * ((if leAt iOk.params 1 1 = 0 then leAt iOk.params 40 4 else leAt iOk.params 44 2 * leAt iOk.params 46 2) * leAt iOk.params 48 1 * if leAt iOk.params 3 1 ≤ 2 then 1 else if leAt iOk.params 3 1 = 3 ∨ leAt iOk.params 3 1 = 8 ∨ leAt iOk.params 3 1 = 9 then 2 else 4)), (leAt iOk.params 24 8, if leAt iOk.params 0 1 = 0 then 2 * leAt iOk.params 6 2 * leAt iOk.params 40 4 else if leAt iOk.params 1 1 = 0 then 4 * leAt iOk.params 6 2 else 0)] ++ if leAt iOk.params 32 8 = 0 then [] else [(leAt iOk.params 32 8, 16 * leAt iOk.params 4 2)], (fun perm r => windowsAllow ((itS iOk).windowsOf iOk.tenant) perm r.1 r.2 = true ∧ (pagesOf r.1 r.2).any (itS iOk).inHoard = false) 1 r) ∧
    ((itS iOk).itk.run = none) ∧
    ((itS iOk).itk.waiting = []) :=
  ⟨readyOf (by decide), by and_intros <;> decide⟩

theorem meets_IntakeSubmits_4 :
    (Ready (itRun iBg) iBg 176) ∧
    (iBg.params.length = 64 ∧ leAt iBg.params 0 1 ≤ 1 ∧ leAt iBg.params 1 1 ≤ 1 ∧ leAt iBg.params 2 1 ≤ 2 ∧ (leAt iBg.params 0 1 = 0 → leAt iBg.params 1 1 = 0 ∧ leAt iBg.params 2 1 = 0) ∧ (leAt iBg.params 3 1 ∈ [1, 8, 9, 10] ∨ leAt iBg.params 1 1 = 0 ∧ leAt iBg.params 3 1 ∈ [3, 4] ∨ ¬leAt iBg.params 1 1 = 0 ∧ leAt iBg.params 3 1 = 2) ∧ 1 ≤ leAt iBg.params 4 2 ∧ 1 ≤ leAt iBg.params 6 2 ∧ leAt iBg.params 8 8 < 2 ^ 40 ∧ leAt iBg.params 8 8 % 32 = 0 ∧ leAt iBg.params 16 8 < 2 ^ 40 ∧ leAt iBg.params 16 8 % 64 = 0 ∧ leAt iBg.params 24 8 < 2 ^ 40 ∧ leAt iBg.params 32 8 < 2 ^ 40 ∧ leAt iBg.params 32 8 % 16 = 0 ∧ (leAt iBg.params 1 1 = 0 → 1 ≤ leAt iBg.params 40 4 ∧ leAt iBg.params 40 4 ≤ 2 ^ 20 ∧ leAt iBg.params 44 4 = 0 ∧ 1 ≤ leAt iBg.params 48 1 ∧ leAt iBg.params 48 1 ≤ 16) ∧ (¬leAt iBg.params 1 1 = 0 → leAt iBg.params 24 8 = 0 ∧ leAt iBg.params 40 4 = 0 ∧ 1 ≤ leAt iBg.params 44 2 ∧ leAt iBg.params 44 2 ≤ 4096 ∧ 1 ≤ leAt iBg.params 46 2 ∧ leAt iBg.params 46 2 ≤ 4096 ∧ (leAt iBg.params 48 1 = 1 ∨ leAt iBg.params 48 1 = 3)) ∧ leAt iBg.params 49 3 = 0 ∧ zerosAt iBg.params 56 8 = true) ∧
    (List.Pairwise (fun a b => a.2 = 0 ∨ b.2 = 0 ∨ a.1 + a.2 ≤ b.1 ∨ b.1 + b.2 ≤ a.1) ((leAt iBg.params 8 8, 32 * leAt iBg.params 4 2) :: ([(leAt iBg.params 16 8, leAt iBg.params 6 2 * ((if leAt iBg.params 1 1 = 0 then leAt iBg.params 40 4 else leAt iBg.params 44 2 * leAt iBg.params 46 2) * leAt iBg.params 48 1 * if leAt iBg.params 3 1 ≤ 2 then 1 else if leAt iBg.params 3 1 = 3 ∨ leAt iBg.params 3 1 = 8 ∨ leAt iBg.params 3 1 = 9 then 2 else 4)), (leAt iBg.params 24 8, if leAt iBg.params 0 1 = 0 then 2 * leAt iBg.params 6 2 * leAt iBg.params 40 4 else if leAt iBg.params 1 1 = 0 then 4 * leAt iBg.params 6 2 else 0)] ++ if leAt iBg.params 32 8 = 0 then [] else [(leAt iBg.params 32 8, 16 * leAt iBg.params 4 2)]))) ∧
    ((fun perm r => windowsAllow ((itRun iBg).windowsOf iBg.tenant) perm r.1 r.2 = true ∧ (pagesOf r.1 r.2).any (itRun iBg).inHoard = false) 0 (leAt iBg.params 8 8, 32 * leAt iBg.params 4 2) ∧ ∀ r ∈ [(leAt iBg.params 16 8, leAt iBg.params 6 2 * ((if leAt iBg.params 1 1 = 0 then leAt iBg.params 40 4 else leAt iBg.params 44 2 * leAt iBg.params 46 2) * leAt iBg.params 48 1 * if leAt iBg.params 3 1 ≤ 2 then 1 else if leAt iBg.params 3 1 = 3 ∨ leAt iBg.params 3 1 = 8 ∨ leAt iBg.params 3 1 = 9 then 2 else 4)), (leAt iBg.params 24 8, if leAt iBg.params 0 1 = 0 then 2 * leAt iBg.params 6 2 * leAt iBg.params 40 4 else if leAt iBg.params 1 1 = 0 then 4 * leAt iBg.params 6 2 else 0)] ++ if leAt iBg.params 32 8 = 0 then [] else [(leAt iBg.params 32 8, 16 * leAt iBg.params 4 2)], (fun perm r => windowsAllow ((itRun iBg).windowsOf iBg.tenant) perm r.1 r.2 = true ∧ (pagesOf r.1 r.2).any (itRun iBg).inHoard = false) 1 r) ∧
    ((itRun iBg).itk.run ≠ none) ∧
    (iBg.cls ≠ Cls.interactive) :=
  ⟨readyOf (by decide), by and_intros <;> decide⟩

theorem meets_IntakeSubmits_5 :
    (Ready (itRun iOk) iOk 176) ∧
    (iOk.params.length = 64 ∧ leAt iOk.params 0 1 ≤ 1 ∧ leAt iOk.params 1 1 ≤ 1 ∧ leAt iOk.params 2 1 ≤ 2 ∧ (leAt iOk.params 0 1 = 0 → leAt iOk.params 1 1 = 0 ∧ leAt iOk.params 2 1 = 0) ∧ (leAt iOk.params 3 1 ∈ [1, 8, 9, 10] ∨ leAt iOk.params 1 1 = 0 ∧ leAt iOk.params 3 1 ∈ [3, 4] ∨ ¬leAt iOk.params 1 1 = 0 ∧ leAt iOk.params 3 1 = 2) ∧ 1 ≤ leAt iOk.params 4 2 ∧ 1 ≤ leAt iOk.params 6 2 ∧ leAt iOk.params 8 8 < 2 ^ 40 ∧ leAt iOk.params 8 8 % 32 = 0 ∧ leAt iOk.params 16 8 < 2 ^ 40 ∧ leAt iOk.params 16 8 % 64 = 0 ∧ leAt iOk.params 24 8 < 2 ^ 40 ∧ leAt iOk.params 32 8 < 2 ^ 40 ∧ leAt iOk.params 32 8 % 16 = 0 ∧ (leAt iOk.params 1 1 = 0 → 1 ≤ leAt iOk.params 40 4 ∧ leAt iOk.params 40 4 ≤ 2 ^ 20 ∧ leAt iOk.params 44 4 = 0 ∧ 1 ≤ leAt iOk.params 48 1 ∧ leAt iOk.params 48 1 ≤ 16) ∧ (¬leAt iOk.params 1 1 = 0 → leAt iOk.params 24 8 = 0 ∧ leAt iOk.params 40 4 = 0 ∧ 1 ≤ leAt iOk.params 44 2 ∧ leAt iOk.params 44 2 ≤ 4096 ∧ 1 ≤ leAt iOk.params 46 2 ∧ leAt iOk.params 46 2 ≤ 4096 ∧ (leAt iOk.params 48 1 = 1 ∨ leAt iOk.params 48 1 = 3)) ∧ leAt iOk.params 49 3 = 0 ∧ zerosAt iOk.params 56 8 = true) ∧
    (List.Pairwise (fun a b => a.2 = 0 ∨ b.2 = 0 ∨ a.1 + a.2 ≤ b.1 ∨ b.1 + b.2 ≤ a.1) ((leAt iOk.params 8 8, 32 * leAt iOk.params 4 2) :: ([(leAt iOk.params 16 8, leAt iOk.params 6 2 * ((if leAt iOk.params 1 1 = 0 then leAt iOk.params 40 4 else leAt iOk.params 44 2 * leAt iOk.params 46 2) * leAt iOk.params 48 1 * if leAt iOk.params 3 1 ≤ 2 then 1 else if leAt iOk.params 3 1 = 3 ∨ leAt iOk.params 3 1 = 8 ∨ leAt iOk.params 3 1 = 9 then 2 else 4)), (leAt iOk.params 24 8, if leAt iOk.params 0 1 = 0 then 2 * leAt iOk.params 6 2 * leAt iOk.params 40 4 else if leAt iOk.params 1 1 = 0 then 4 * leAt iOk.params 6 2 else 0)] ++ if leAt iOk.params 32 8 = 0 then [] else [(leAt iOk.params 32 8, 16 * leAt iOk.params 4 2)]))) ∧
    ((fun perm r => windowsAllow ((itRun iOk).windowsOf iOk.tenant) perm r.1 r.2 = true ∧ (pagesOf r.1 r.2).any (itRun iOk).inHoard = false) 0 (leAt iOk.params 8 8, 32 * leAt iOk.params 4 2) ∧ ∀ r ∈ [(leAt iOk.params 16 8, leAt iOk.params 6 2 * ((if leAt iOk.params 1 1 = 0 then leAt iOk.params 40 4 else leAt iOk.params 44 2 * leAt iOk.params 46 2) * leAt iOk.params 48 1 * if leAt iOk.params 3 1 ≤ 2 then 1 else if leAt iOk.params 3 1 = 3 ∨ leAt iOk.params 3 1 = 8 ∨ leAt iOk.params 3 1 = 9 then 2 else 4)), (leAt iOk.params 24 8, if leAt iOk.params 0 1 = 0 then 2 * leAt iOk.params 6 2 * leAt iOk.params 40 4 else if leAt iOk.params 1 1 = 0 then 4 * leAt iOk.params 6 2 else 0)] ++ if leAt iOk.params 32 8 = 0 then [] else [(leAt iOk.params 32 8, 16 * leAt iOk.params 4 2)], (fun perm r => windowsAllow ((itRun iOk).windowsOf iOk.tenant) perm r.1 r.2 = true ∧ (pagesOf r.1 r.2).any (itRun iOk).inHoard = false) 1 r) ∧
    ((itRun iOk).itk.run ≠ none) ∧
    (iOk.cls = Cls.interactive) :=
  ⟨readyOf (by decide), by and_intros <;> decide⟩

theorem meets_IntakeSamples_5 :
    (p4.reason = 0) ∧
    ({ x0 with fill := 4 : Intake }.fill + p4.n ≤ leAt iOk.params 40 4) ∧
    ({ x0 with fill := 4 : Intake }.row < leAt iOk.params 6 2) :=
  ⟨by decide, by decide, by decide⟩

theorem meets_IntakeSamples_6 :
    (p4.reason = 0) ∧
    (leAt iRows.params 40 4 < { x0 with fill := 5 : Intake }.fill + p4.n) ∧
    ({ x0 with fill := 5 : Intake }.row + 1 < leAt iRows.params 6 2) :=
  ⟨by decide, by decide, by decide⟩

theorem meets_IntakeSamples_7 :
    (p4.reason = 0) ∧
    (leAt iOk.params 40 4 < { x0 with fill := 5 : Intake }.fill + p4.n) ∧
    (leAt iOk.params 6 2 ≤ { x0 with fill := 5 : Intake }.row + 1) :=
  ⟨by decide, by decide, by decide⟩

theorem meets_IntakeSamples_8 :
    (pBad.reason ≠ 0) ∧
    (pBad.late = false) :=
  ⟨by decide, by decide⟩

theorem meets_IntakeSamples_9 :
    (leAt iBat.params 1 1 = 0) ∧
    (p4.reason = 0) :=
  ⟨by decide, by decide⟩

theorem meets_IntakeSamples_10 :
    (pBad.reason ≠ 0) ∧
    (leAt iBat.params 2 1 = 0) :=
  ⟨by decide, by decide⟩

theorem meets_IntakeSamples_11 :
    (pBad.reason ≠ 0) ∧
    (leAt iPad.params 2 1 = 1) :=
  ⟨by decide, by decide⟩

theorem meets_IntakeSamples_12 :
    (pBad.reason ≠ 0) ∧
    (leAt iPrev.params 2 1 = 2) ∧
    ({ x0 with lastGood := some (0, 5) : Intake }.lastGood = some (0, 5)) :=
  ⟨by decide, by decide, by decide⟩

theorem meets_IntakeSamples_13 :
    (State.itWrite { tenant := some iGo.tenant, windows := x8.windows : Agent } (x8.tail iGo) doneS = Sum.inr doneT) :=
  by decide

theorem meets_PackedTensors_1 :
    (1 ≤ 2) ∧
    (1 ≤ [4660, 65535].length) ∧
    ([4660, 65535].length ≤ 128) ∧
    ([4660, 65535].length ≤ 10) ∧
    (∀ v ∈ [4660, 65535], v < 256 ^ 2) :=
  by and_intros <;> decide

theorem meets_PackedTensors_2 :
    (1 ≤ 2) ∧
    (1 ≤ 128) ∧
    (128 ≤ 128) ∧
    (128 ≤ 128) ∧
    (4660 < 256 ^ 2) :=
  by and_intros <;> decide

theorem meets_PackedTensors_3 :
    (1 ≤ 1) ∧
    (rleDecode 1 5 128 [(255 : Byte), (7 : Byte)] = some (List.replicate 128 7)) :=
  ⟨by decide, by decide⟩

theorem meets_PackedTensors_4 :
    (1 < [600, 5, 7].length) :=
  by decide

theorem meets_PackedTensors_5 :
    (true = true) ∧
    (smp.hasAug = false) ∧
    (smp.packed = true) ∧
    (leAt iOk.params 1 1 = 0) ∧
    (leAt (hdr 9 4 1 smp.addr (min smp.len 32)) 0 4 = 3349482497) ∧
    (leAt (hdr 9 4 1 smp.addr (min smp.len 32)) 4 1 = 1) ∧
    (leAt (hdr 9 4 1 smp.addr (min smp.len 32)) 6 1 = 2) ∧
    (leAt (hdr 9 4 1 smp.addr (min smp.len 32)) 7 1 = 0) ∧
    (leAt (hdr 9 4 1 smp.addr (min smp.len 32)) 16 4 = 0) ∧
    (leAt (hdr 9 4 1 smp.addr (min smp.len 32)) 20 4 ≠ 0) ∧
    (zerosAt (hdr 9 4 1 smp.addr (min smp.len 32)) 24 8 = true) ∧
    (smp.len ≠ 32 + leAt (hdr 9 4 1 smp.addr (min smp.len 32)) 20 4) :=
  by and_intros <;> decide

theorem meets_PackedTensors_6 :
    (true = true) ∧
    (smp.hasAug = false) ∧
    (smp.packed = true) ∧
    (leAt iOk.params 1 1 = 0) ∧
    (leAt (hdr 8 513 1 smp.addr (min smp.len 32)) 0 4 = 3349482497) ∧
    (leAt (hdr 8 513 1 smp.addr (min smp.len 32)) 4 1 = 1) ∧
    (leAt (hdr 8 513 1 smp.addr (min smp.len 32)) 6 1 = 2) ∧
    (leAt (hdr 8 513 1 smp.addr (min smp.len 32)) 7 1 = 0) ∧
    (leAt (hdr 8 513 1 smp.addr (min smp.len 32)) 16 4 = 0) ∧
    (leAt (hdr 8 513 1 smp.addr (min smp.len 32)) 20 4 ≠ 0) ∧
    (zerosAt (hdr 8 513 1 smp.addr (min smp.len 32)) 24 8 = true) ∧
    (smp.len = 32 + leAt (hdr 8 513 1 smp.addr (min smp.len 32)) 20 4) ∧
    (leAt (hdr 8 513 1 smp.addr (min smp.len 32)) 20 4 * 64 < leAt (hdr 8 513 1 smp.addr (min smp.len 32)) 8 4 * leAt (hdr 8 513 1 smp.addr (min smp.len 32)) 12 4) :=
  by and_intros <;> decide

theorem meets_PackedTensors_7 :
    (false = false) :=
  by decide

def retr (s : State) : State := { s with dies := [(0, { bridge := .retrain, power := .on })] }
def iHeld : Cmd := ic .interactive [(8, 8, 0x1000000)]
def iHeldGo : Cmd := { iHeld with phase := .running }
def xAll : Intake := { x0 with windows := [{ perm := 7, base := 0, limit := 0x100000 }] }
def eHeld : List Byte := ent 0x1004000 8 3 1 4
def wide (s : State) : State := { s with tenants := [(1, some { ten with windows := [{ perm := 7, base := 0, limit := 0x100000 }] })] }

theorem meets_IntakeSamples_14 :
    let s : State := retr (isS iHeld x8 e4)
    let x : Intake := x8
    let c : Cmd := iHeldGo
    (s.itk.run = some x) ∧
    (s.cmd x.cmd = some c) ∧
    ((((leAt c.params 8 8 + 32 * x.idx, 32) :: c.intakeOut).any fun r => s.pathHeld none r.1 r.2) = true) :=
  ⟨by decide, by decide, by decide⟩

theorem meets_IntakeSamples_15 :
    let s : State := retr (wide (isS iOk xAll eHeld))
    let x : Intake := xAll
    let c : Cmd := iGo
    let e1 := sampleOf (s.devRead (leAt c.params 8 8 + 32 * x.idx) 32)
    (s.itk.run = some x) ∧
    (s.cmd x.cmd = some c) ∧
    (s.access { tenant := some c.tenant, windows := x.windows } 0 (leAt c.params 8 8 + 32 * x.idx) 32 = none) ∧
    ((((if (windowsAllow x.windows 0 e1.addr e1.len && !(pagesOf e1.addr e1.len).any s.inHoard) = true then [(e1.addr, e1.len)] else []) ++ if (e1.hasAug && (windowsAllow x.windows 0 e1.aug 16 && !(pagesOf e1.aug 16).any s.inHoard)) = true then [(e1.aug, 16)] else []).any fun r => s.pathHeld none r.1 r.2) = true) :=
  ⟨by decide, by decide, by decide, by decide⟩

theorem meets_IntakeSamples_16 :
    let s : State := isS iOk xNo e4
    let x : Intake := xNo
    let c : Cmd := iGo
    let d : Deny := isDeny
    (s.itk.run = some x) ∧
    (s.cmd x.cmd = some c) ∧
    ((((leAt c.params 8 8 + 32 * x.idx, 32) :: c.intakeOut).any fun r => s.pathHeld none r.1 r.2) = false) ∧
    (s.access { tenant := some c.tenant, windows := x.windows } 0 (leAt c.params 8 8 + 32 * x.idx) 32 = some d) :=
  ⟨by decide, by decide, by decide, by decide⟩

theorem meets_IntakeSamples_17 :
    let s : State := isS iOk x8 e4
    let x : Intake := x8
    let c : Cmd := iGo
    let e1 := sampleOf (s.devRead (leAt c.params 8 8 + 32 * x.idx) 32)
    let e2 := e1.hasAug && (windowsAllow x.windows 0 e1.aug 16 && !(pagesOf e1.aug 16).any s.inHoard)
    let e3 := windowsAllow x.windows 0 e1.addr e1.len && !(pagesOf e1.addr e1.len).any s.inHoard
    (s.itk.run = some x) ∧
    (s.cmd x.cmd = some c) ∧
    ((((leAt c.params 8 8 + 32 * x.idx, 32) :: c.intakeOut).any fun r => s.pathHeld none r.1 r.2) = false) ∧
    (s.access { tenant := some c.tenant, windows := x.windows } 0 (leAt c.params 8 8 + 32 * x.idx) 32 = none) ∧
    ((((if e3 = true then [(e1.addr, e1.len)] else []) ++ if e2 = true then [(e1.aug, 16)] else []).any fun r => s.pathHeld none r.1 r.2) = false) ∧
    (∀ r ∈ (if e3 = true then [(e1.addr, e1.len)] else []) ++ if e2 = true then [(e1.aug, 16)] else [], s.access { tenant := some c.tenant, windows := x.windows } 0 r.1 r.2 = none) ∧
    (leAt c.params 0 1 = 0) ∧
    (x.pack c (e1.parse c (fun a n => windowsAllow x.windows 0 a n && !(pagesOf a n).any s.inHoard) s.devRead) = none) :=
  by and_intros <;> decide

theorem meets_IntakeSamples_18 :
    let s : State := isS iOk x0 e4
    let x : Intake := x0
    let c : Cmd := iGo
    let y : Placed := plc x0
    let e1 := sampleOf (s.devRead (leAt c.params 8 8 + 32 * x.idx) 32)
    let e2 := e1.hasAug && (windowsAllow x.windows 0 e1.aug 16 && !(pagesOf e1.aug 16).any s.inHoard)
    let e3 := windowsAllow x.windows 0 e1.addr e1.len && !(pagesOf e1.addr e1.len).any s.inHoard
    (s.itk.run = some x) ∧
    (s.cmd x.cmd = some c) ∧
    ((((leAt c.params 8 8 + 32 * x.idx, 32) :: c.intakeOut).any fun r => s.pathHeld none r.1 r.2) = false) ∧
    (s.access { tenant := some c.tenant, windows := x.windows } 0 (leAt c.params 8 8 + 32 * x.idx) 32 = none) ∧
    ((((if e3 = true then [(e1.addr, e1.len)] else []) ++ if e2 = true then [(e1.aug, 16)] else []).any fun r => s.pathHeld none r.1 r.2) = false) ∧
    (∀ r ∈ (if e3 = true then [(e1.addr, e1.len)] else []) ++ if e2 = true then [(e1.aug, 16)] else [], s.access { tenant := some c.tenant, windows := x.windows } 0 r.1 r.2 = none) ∧
    (leAt c.params 0 1 = 0) ∧
    (x.pack c (e1.parse c (fun a n => windowsAllow x.windows 0 a n && !(pagesOf a n).any s.inHoard) s.devRead) = some y) :=
  by and_intros <;> decide

theorem meets_IntakeSubmits_6 :
    let s : State := itS iWin
    let c : Cmd := iWin
    let e1 := (leAt c.params 16 8, leAt c.params 6 2 * ((if leAt c.params 1 1 = 0 then leAt c.params 40 4 else leAt c.params 44 2 * leAt c.params 46 2) * leAt c.params 48 1 * if leAt c.params 3 1 ≤ 2 then 1 else if leAt c.params 3 1 = 3 ∨ leAt c.params 3 1 = 8 ∨ leAt c.params 3 1 = 9 then 2 else 4))
    let e2 := (leAt c.params 24 8, if leAt c.params 0 1 = 0 then 2 * leAt c.params 6 2 * leAt c.params 40 4 else if leAt c.params 1 1 = 0 then 4 * leAt c.params 6 2 else 0)
    (Ready s c 176) ∧
    (c.params.length = 64 ∧ leAt c.params 0 1 ≤ 1 ∧ leAt c.params 1 1 ≤ 1 ∧ leAt c.params 2 1 ≤ 2 ∧ (leAt c.params 0 1 = 0 → leAt c.params 1 1 = 0 ∧ leAt c.params 2 1 = 0) ∧ (leAt c.params 3 1 ∈ [1, 8, 9, 10] ∨ leAt c.params 1 1 = 0 ∧ leAt c.params 3 1 ∈ [3, 4] ∨ ¬leAt c.params 1 1 = 0 ∧ leAt c.params 3 1 = 2) ∧ 1 ≤ leAt c.params 4 2 ∧ 1 ≤ leAt c.params 6 2 ∧ leAt c.params 8 8 < 2 ^ 40 ∧ leAt c.params 8 8 % 32 = 0 ∧ leAt c.params 16 8 < 2 ^ 40 ∧ leAt c.params 16 8 % 64 = 0 ∧ leAt c.params 24 8 < 2 ^ 40 ∧ leAt c.params 32 8 < 2 ^ 40 ∧ leAt c.params 32 8 % 16 = 0 ∧ (leAt c.params 1 1 = 0 → 1 ≤ leAt c.params 40 4 ∧ leAt c.params 40 4 ≤ 2 ^ 20 ∧ leAt c.params 44 4 = 0 ∧ 1 ≤ leAt c.params 48 1 ∧ leAt c.params 48 1 ≤ 16) ∧ (¬leAt c.params 1 1 = 0 → leAt c.params 24 8 = 0 ∧ leAt c.params 40 4 = 0 ∧ 1 ≤ leAt c.params 44 2 ∧ leAt c.params 44 2 ≤ 4096 ∧ 1 ≤ leAt c.params 46 2 ∧ leAt c.params 46 2 ≤ 4096 ∧ (leAt c.params 48 1 = 1 ∨ leAt c.params 48 1 = 3)) ∧ leAt c.params 49 3 = 0 ∧ zerosAt c.params 56 8 = true) ∧
    (List.Pairwise (fun a b => a.2 = 0 ∨ b.2 = 0 ∨ a.1 + a.2 ≤ b.1 ∨ b.1 + b.2 ≤ a.1) ((leAt c.params 8 8, 32 * leAt c.params 4 2) :: ([e1, e2] ++ if leAt c.params 32 8 = 0 then [] else [(leAt c.params 32 8, 16 * leAt c.params 4 2)]))) ∧
    (¬(s.paramOk c.tenant 0 (leAt c.params 8 8, 32 * leAt c.params 4 2) = true ∧ ∀ r ∈ [e1, e2] ++ if leAt c.params 32 8 = 0 then [] else [(leAt c.params 32 8, 16 * leAt c.params 4 2)], s.paramOk c.tenant 1 r = true)) :=
  ⟨readyOf (by decide), by decide, by decide, by decide⟩

theorem meets_IntakeSubmits_7 :
    let s : State := itS iOk
    let c : Cmd := iOk
    let e1 := (leAt c.params 16 8, leAt c.params 6 2 * ((if leAt c.params 1 1 = 0 then leAt c.params 40 4 else leAt c.params 44 2 * leAt c.params 46 2) * leAt c.params 48 1 * if leAt c.params 3 1 ≤ 2 then 1 else if leAt c.params 3 1 = 3 ∨ leAt c.params 3 1 = 8 ∨ leAt c.params 3 1 = 9 then 2 else 4))
    let e2 := (leAt c.params 24 8, if leAt c.params 0 1 = 0 then 2 * leAt c.params 6 2 * leAt c.params 40 4 else if leAt c.params 1 1 = 0 then 4 * leAt c.params 6 2 else 0)
    (Ready s c 176) ∧
    (c.params.length = 64 ∧ leAt c.params 0 1 ≤ 1 ∧ leAt c.params 1 1 ≤ 1 ∧ leAt c.params 2 1 ≤ 2 ∧ (leAt c.params 0 1 = 0 → leAt c.params 1 1 = 0 ∧ leAt c.params 2 1 = 0) ∧ (leAt c.params 3 1 ∈ [1, 8, 9, 10] ∨ leAt c.params 1 1 = 0 ∧ leAt c.params 3 1 ∈ [3, 4] ∨ ¬leAt c.params 1 1 = 0 ∧ leAt c.params 3 1 = 2) ∧ 1 ≤ leAt c.params 4 2 ∧ 1 ≤ leAt c.params 6 2 ∧ leAt c.params 8 8 < 2 ^ 40 ∧ leAt c.params 8 8 % 32 = 0 ∧ leAt c.params 16 8 < 2 ^ 40 ∧ leAt c.params 16 8 % 64 = 0 ∧ leAt c.params 24 8 < 2 ^ 40 ∧ leAt c.params 32 8 < 2 ^ 40 ∧ leAt c.params 32 8 % 16 = 0 ∧ (leAt c.params 1 1 = 0 → 1 ≤ leAt c.params 40 4 ∧ leAt c.params 40 4 ≤ 2 ^ 20 ∧ leAt c.params 44 4 = 0 ∧ 1 ≤ leAt c.params 48 1 ∧ leAt c.params 48 1 ≤ 16) ∧ (¬leAt c.params 1 1 = 0 → leAt c.params 24 8 = 0 ∧ leAt c.params 40 4 = 0 ∧ 1 ≤ leAt c.params 44 2 ∧ leAt c.params 44 2 ≤ 4096 ∧ 1 ≤ leAt c.params 46 2 ∧ leAt c.params 46 2 ≤ 4096 ∧ (leAt c.params 48 1 = 1 ∨ leAt c.params 48 1 = 3)) ∧ leAt c.params 49 3 = 0 ∧ zerosAt c.params 56 8 = true) ∧
    (List.Pairwise (fun a b => a.2 = 0 ∨ b.2 = 0 ∨ a.1 + a.2 ≤ b.1 ∨ b.1 + b.2 ≤ a.1) ((leAt c.params 8 8, 32 * leAt c.params 4 2) :: ([e1, e2] ++ if leAt c.params 32 8 = 0 then [] else [(leAt c.params 32 8, 16 * leAt c.params 4 2)]))) ∧
    (s.paramOk c.tenant 0 (leAt c.params 8 8, 32 * leAt c.params 4 2) = true ∧ ∀ r ∈ [e1, e2] ++ if leAt c.params 32 8 = 0 then [] else [(leAt c.params 32 8, 16 * leAt c.params 4 2)], s.paramOk c.tenant 1 r = true) ∧
    (s.itk.run = none) ∧
    (s.itk.waiting = []) :=
  ⟨readyOf (by decide), by and_intros <;> decide⟩

theorem meets_IntakeSubmits_8 :
    let s : State := itRun iBg
    let c : Cmd := iBg
    let e1 := (leAt c.params 16 8, leAt c.params 6 2 * ((if leAt c.params 1 1 = 0 then leAt c.params 40 4 else leAt c.params 44 2 * leAt c.params 46 2) * leAt c.params 48 1 * if leAt c.params 3 1 ≤ 2 then 1 else if leAt c.params 3 1 = 3 ∨ leAt c.params 3 1 = 8 ∨ leAt c.params 3 1 = 9 then 2 else 4))
    let e2 := (leAt c.params 24 8, if leAt c.params 0 1 = 0 then 2 * leAt c.params 6 2 * leAt c.params 40 4 else if leAt c.params 1 1 = 0 then 4 * leAt c.params 6 2 else 0)
    (Ready s c 176) ∧
    (c.params.length = 64 ∧ leAt c.params 0 1 ≤ 1 ∧ leAt c.params 1 1 ≤ 1 ∧ leAt c.params 2 1 ≤ 2 ∧ (leAt c.params 0 1 = 0 → leAt c.params 1 1 = 0 ∧ leAt c.params 2 1 = 0) ∧ (leAt c.params 3 1 ∈ [1, 8, 9, 10] ∨ leAt c.params 1 1 = 0 ∧ leAt c.params 3 1 ∈ [3, 4] ∨ ¬leAt c.params 1 1 = 0 ∧ leAt c.params 3 1 = 2) ∧ 1 ≤ leAt c.params 4 2 ∧ 1 ≤ leAt c.params 6 2 ∧ leAt c.params 8 8 < 2 ^ 40 ∧ leAt c.params 8 8 % 32 = 0 ∧ leAt c.params 16 8 < 2 ^ 40 ∧ leAt c.params 16 8 % 64 = 0 ∧ leAt c.params 24 8 < 2 ^ 40 ∧ leAt c.params 32 8 < 2 ^ 40 ∧ leAt c.params 32 8 % 16 = 0 ∧ (leAt c.params 1 1 = 0 → 1 ≤ leAt c.params 40 4 ∧ leAt c.params 40 4 ≤ 2 ^ 20 ∧ leAt c.params 44 4 = 0 ∧ 1 ≤ leAt c.params 48 1 ∧ leAt c.params 48 1 ≤ 16) ∧ (¬leAt c.params 1 1 = 0 → leAt c.params 24 8 = 0 ∧ leAt c.params 40 4 = 0 ∧ 1 ≤ leAt c.params 44 2 ∧ leAt c.params 44 2 ≤ 4096 ∧ 1 ≤ leAt c.params 46 2 ∧ leAt c.params 46 2 ≤ 4096 ∧ (leAt c.params 48 1 = 1 ∨ leAt c.params 48 1 = 3)) ∧ leAt c.params 49 3 = 0 ∧ zerosAt c.params 56 8 = true) ∧
    (List.Pairwise (fun a b => a.2 = 0 ∨ b.2 = 0 ∨ a.1 + a.2 ≤ b.1 ∨ b.1 + b.2 ≤ a.1) ((leAt c.params 8 8, 32 * leAt c.params 4 2) :: ([e1, e2] ++ if leAt c.params 32 8 = 0 then [] else [(leAt c.params 32 8, 16 * leAt c.params 4 2)]))) ∧
    (s.paramOk c.tenant 0 (leAt c.params 8 8, 32 * leAt c.params 4 2) = true ∧ ∀ r ∈ [e1, e2] ++ if leAt c.params 32 8 = 0 then [] else [(leAt c.params 32 8, 16 * leAt c.params 4 2)], s.paramOk c.tenant 1 r = true) ∧
    (s.itk.run ≠ none) ∧
    (c.cls ≠ Cls.interactive) :=
  ⟨readyOf (by decide), by and_intros <;> decide⟩

theorem meets_IntakeSubmits_9 :
    let s : State := itRun iOk
    let c : Cmd := iOk
    let e1 := (leAt c.params 16 8, leAt c.params 6 2 * ((if leAt c.params 1 1 = 0 then leAt c.params 40 4 else leAt c.params 44 2 * leAt c.params 46 2) * leAt c.params 48 1 * if leAt c.params 3 1 ≤ 2 then 1 else if leAt c.params 3 1 = 3 ∨ leAt c.params 3 1 = 8 ∨ leAt c.params 3 1 = 9 then 2 else 4))
    let e2 := (leAt c.params 24 8, if leAt c.params 0 1 = 0 then 2 * leAt c.params 6 2 * leAt c.params 40 4 else if leAt c.params 1 1 = 0 then 4 * leAt c.params 6 2 else 0)
    (Ready s c 176) ∧
    (c.params.length = 64 ∧ leAt c.params 0 1 ≤ 1 ∧ leAt c.params 1 1 ≤ 1 ∧ leAt c.params 2 1 ≤ 2 ∧ (leAt c.params 0 1 = 0 → leAt c.params 1 1 = 0 ∧ leAt c.params 2 1 = 0) ∧ (leAt c.params 3 1 ∈ [1, 8, 9, 10] ∨ leAt c.params 1 1 = 0 ∧ leAt c.params 3 1 ∈ [3, 4] ∨ ¬leAt c.params 1 1 = 0 ∧ leAt c.params 3 1 = 2) ∧ 1 ≤ leAt c.params 4 2 ∧ 1 ≤ leAt c.params 6 2 ∧ leAt c.params 8 8 < 2 ^ 40 ∧ leAt c.params 8 8 % 32 = 0 ∧ leAt c.params 16 8 < 2 ^ 40 ∧ leAt c.params 16 8 % 64 = 0 ∧ leAt c.params 24 8 < 2 ^ 40 ∧ leAt c.params 32 8 < 2 ^ 40 ∧ leAt c.params 32 8 % 16 = 0 ∧ (leAt c.params 1 1 = 0 → 1 ≤ leAt c.params 40 4 ∧ leAt c.params 40 4 ≤ 2 ^ 20 ∧ leAt c.params 44 4 = 0 ∧ 1 ≤ leAt c.params 48 1 ∧ leAt c.params 48 1 ≤ 16) ∧ (¬leAt c.params 1 1 = 0 → leAt c.params 24 8 = 0 ∧ leAt c.params 40 4 = 0 ∧ 1 ≤ leAt c.params 44 2 ∧ leAt c.params 44 2 ≤ 4096 ∧ 1 ≤ leAt c.params 46 2 ∧ leAt c.params 46 2 ≤ 4096 ∧ (leAt c.params 48 1 = 1 ∨ leAt c.params 48 1 = 3)) ∧ leAt c.params 49 3 = 0 ∧ zerosAt c.params 56 8 = true) ∧
    (List.Pairwise (fun a b => a.2 = 0 ∨ b.2 = 0 ∨ a.1 + a.2 ≤ b.1 ∨ b.1 + b.2 ≤ a.1) ((leAt c.params 8 8, 32 * leAt c.params 4 2) :: ([e1, e2] ++ if leAt c.params 32 8 = 0 then [] else [(leAt c.params 32 8, 16 * leAt c.params 4 2)]))) ∧
    (s.paramOk c.tenant 0 (leAt c.params 8 8, 32 * leAt c.params 4 2) = true ∧ ∀ r ∈ [e1, e2] ++ if leAt c.params 32 8 = 0 then [] else [(leAt c.params 32 8, 16 * leAt c.params 4 2)], s.paramOk c.tenant 1 r = true) ∧
    (s.itk.run ≠ none) ∧
    (c.cls = Cls.interactive) :=
  ⟨readyOf (by decide), by and_intros <;> decide⟩

def eDm : List Byte := ent 0x1004000 8 3 1 4
def dmS (c : Cmd) (e : List Byte) : State := { wide (isS c xAll e) with dies := [] }
def iPv : Cmd := ic .interactive [(0, 1, 1), (2, 1, 2), (18, 1, 0x1), (19, 1, 1)]
def iPvGo : Cmd := { iPv with phase := .running }
def xPv : Intake := { xAll with lastGood := some (0, 0), idx := 0 }
def eBad : List Byte := ent 0x4000 8 15 1 4
def pvS : State := { (dmS iPv eBad) with itk.run := some xPv }

theorem meets_IntakeSamples_20 :
    let s : State := (isS iOk x0 e4)
    let x : Intake := x0
    let c : Cmd := iGo
    let e1 := sampleOf (s.devRead (leAt c.params 8 8 + 32 * x.idx) 32)
    let e2 := e1.hasAug && (windowsAllow x.windows 0 e1.aug 16 && !(pagesOf e1.aug 16).any s.inHoard)
    let e3 := windowsAllow x.windows 0 e1.addr e1.len && !(pagesOf e1.addr e1.len).any s.inHoard
    (s.itk.run = some x) ∧
    (s.cmd x.cmd = some c) ∧
    ((((leAt c.params 8 8 + 32 * x.idx, 32) :: c.intakeOut).any fun r => s.pathHeld none r.1 r.2) = false) ∧
    (s.access { tenant := some c.tenant, windows := x.windows } 0 (leAt c.params 8 8 + 32 * x.idx) 32 = none) ∧
    ((((if e3 = true then [(e1.addr, e1.len)] else []) ++ if e2 = true then [(e1.aug, 16)] else []).any fun r => s.pathHeld none r.1 r.2) = false) ∧
    (s.readFault { tenant := some c.tenant, windows := x.windows } ((if e3 = true then [(e1.addr, e1.len)] else []) ++ if e2 = true then [(e1.aug, 16)] else []) = none) ∧
    (List.findSome? (fun r => s.saveDeny c.tenant r.1 r.2 false) (x.repeats c (e1.parse c (fun a n => windowsAllow x.windows 0 a n && !(pagesOf a n).any s.inHoard) s.devRead)) = none) ∧
    (leAt c.params 0 1 = 0) ∧
    (∃ y : Placed, x.pack c (e1.parse c (fun a n => windowsAllow x.windows 0 a n && !(pagesOf a n).any s.inHoard) s.devRead) = some y) :=
  ⟨by decide +kernel, by decide +kernel, by decide +kernel, by decide +kernel, by decide +kernel, by decide +kernel, by decide +kernel, by decide +kernel, by exact ⟨_, rfl⟩⟩

theorem meets_IntakeSamples_21 :
    let s : State := dmS iOk eDm
    let x : Intake := xAll
    let c : Cmd := iGo
    let d : Deny := ((dmS iOk eDm).readFault { tenant := some 1, windows := xAll.windows } [(0x1004000, 8)]).getD { code := 0 }
    let e1 := sampleOf (s.devRead (leAt c.params 8 8 + 32 * x.idx) 32)
    let e2 := e1.hasAug && (windowsAllow x.windows 0 e1.aug 16 && !(pagesOf e1.aug 16).any s.inHoard)
    let e3 := windowsAllow x.windows 0 e1.addr e1.len && !(pagesOf e1.addr e1.len).any s.inHoard
    (s.itk.run = some x) ∧
    (s.cmd x.cmd = some c) ∧
    ((((leAt c.params 8 8 + 32 * x.idx, 32) :: c.intakeOut).any fun r => s.pathHeld none r.1 r.2) = false) ∧
    (s.access { tenant := some c.tenant, windows := x.windows } 0 (leAt c.params 8 8 + 32 * x.idx) 32 = none) ∧
    ((((if e3 = true then [(e1.addr, e1.len)] else []) ++ if e2 = true then [(e1.aug, 16)] else []).any fun r => s.pathHeld none r.1 r.2) = false) ∧
    (s.readFault { tenant := some c.tenant, windows := x.windows } ((if e3 = true then [(e1.addr, e1.len)] else []) ++ if e2 = true then [(e1.aug, 16)] else []) = some d) :=
  ⟨by decide +kernel, by decide +kernel, by decide +kernel, by decide +kernel, by decide +kernel, by decide +kernel⟩

theorem meets_IntakeSamples_22 :
    let s : State := pvS
    let x : Intake := xPv
    let c : Cmd := iPvGo
    let d : Deny := ((xPv.repeats iPvGo ((sampleOf (pvS.devRead 0x1000 32)).parse iPvGo (fun a n => windowsAllow xPv.windows 0 a n && !(pagesOf a n).any pvS.inHoard) pvS.devRead)).findSome? (fun r => pvS.saveDeny 1 r.1 r.2 false)).getD { code := 0 }
    let e1 := sampleOf (s.devRead (leAt c.params 8 8 + 32 * x.idx) 32)
    let e2 := e1.hasAug && (windowsAllow x.windows 0 e1.aug 16 && !(pagesOf e1.aug 16).any s.inHoard)
    let e3 := windowsAllow x.windows 0 e1.addr e1.len && !(pagesOf e1.addr e1.len).any s.inHoard
    (s.itk.run = some x) ∧
    (s.cmd x.cmd = some c) ∧
    ((((leAt c.params 8 8 + 32 * x.idx, 32) :: c.intakeOut).any fun r => s.pathHeld none r.1 r.2) = false) ∧
    (s.access { tenant := some c.tenant, windows := x.windows } 0 (leAt c.params 8 8 + 32 * x.idx) 32 = none) ∧
    ((((if e3 = true then [(e1.addr, e1.len)] else []) ++ if e2 = true then [(e1.aug, 16)] else []).any fun r => s.pathHeld none r.1 r.2) = false) ∧
    (s.readFault { tenant := some c.tenant, windows := x.windows } ((if e3 = true then [(e1.addr, e1.len)] else []) ++ if e2 = true then [(e1.aug, 16)] else []) = none) ∧
    (List.findSome? (fun r => s.saveDeny c.tenant r.1 r.2 false) (x.repeats c (e1.parse c (fun a n => windowsAllow x.windows 0 a n && !(pagesOf a n).any s.inHoard) s.devRead)) = some d) :=
  ⟨by decide +kernel, by decide +kernel, by decide +kernel, by decide +kernel, by decide +kernel, by decide +kernel, by decide +kernel⟩

theorem meets_IntakeSamples_23 :
    let s : State := isS iOk x8 e4
    let x : Intake := x8
    let c : Cmd := iGo
    let e1 := sampleOf (s.devRead (leAt c.params 8 8 + 32 * x.idx) 32)
    let e2 := e1.hasAug && (windowsAllow x.windows 0 e1.aug 16 && !(pagesOf e1.aug 16).any s.inHoard)
    let e3 := windowsAllow x.windows 0 e1.addr e1.len && !(pagesOf e1.addr e1.len).any s.inHoard
    (s.itk.run = some x) ∧
    (s.cmd x.cmd = some c) ∧
    ((((leAt c.params 8 8 + 32 * x.idx, 32) :: c.intakeOut).any fun r => s.pathHeld none r.1 r.2) = false) ∧
    (s.access { tenant := some c.tenant, windows := x.windows } 0 (leAt c.params 8 8 + 32 * x.idx) 32 = none) ∧
    ((((if e3 = true then [(e1.addr, e1.len)] else []) ++ if e2 = true then [(e1.aug, 16)] else []).any fun r => s.pathHeld none r.1 r.2) = false) ∧
    (s.readFault { tenant := some c.tenant, windows := x.windows } ((if e3 = true then [(e1.addr, e1.len)] else []) ++ if e2 = true then [(e1.aug, 16)] else []) = none) ∧
    (List.findSome? (fun r => s.saveDeny c.tenant r.1 r.2 false) (x.repeats c (e1.parse c (fun a n => windowsAllow x.windows 0 a n && !(pagesOf a n).any s.inHoard) s.devRead)) = none) ∧
    (leAt c.params 0 1 = 0) ∧
    (x.pack c (e1.parse c (fun a n => windowsAllow x.windows 0 a n && !(pagesOf a n).any s.inHoard) s.devRead) = none) :=
  ⟨by decide +kernel, by decide +kernel, by decide +kernel, by decide +kernel, by decide +kernel, by decide +kernel, by decide +kernel, by decide +kernel, by decide +kernel⟩

theorem meets_IntakeSamples_24 :
    let s : State := isS iBat x0 e4
    let x : Intake := x0
    let c : Cmd := iBatGo
    let e1 := sampleOf (s.devRead (leAt c.params 8 8 + 32 * x.idx) 32)
    let e2 := e1.hasAug && (windowsAllow x.windows 0 e1.aug 16 && !(pagesOf e1.aug 16).any s.inHoard)
    let e3 := windowsAllow x.windows 0 e1.addr e1.len && !(pagesOf e1.addr e1.len).any s.inHoard
    (s.itk.run = some x) ∧
    (s.cmd x.cmd = some c) ∧
    ((((leAt c.params 8 8 + 32 * x.idx, 32) :: c.intakeOut).any fun r => s.pathHeld none r.1 r.2) = false) ∧
    (s.access { tenant := some c.tenant, windows := x.windows } 0 (leAt c.params 8 8 + 32 * x.idx) 32 = none) ∧
    ((((if e3 = true then [(e1.addr, e1.len)] else []) ++ if e2 = true then [(e1.aug, 16)] else []).any fun r => s.pathHeld none r.1 r.2) = false) ∧
    (s.readFault { tenant := some c.tenant, windows := x.windows } ((if e3 = true then [(e1.addr, e1.len)] else []) ++ if e2 = true then [(e1.aug, 16)] else []) = none) ∧
    (List.findSome? (fun r => s.saveDeny c.tenant r.1 r.2 false) (x.repeats c (e1.parse c (fun a n => windowsAllow x.windows 0 a n && !(pagesOf a n).any s.inHoard) s.devRead)) = none) ∧
    (leAt c.params 0 1 ≠ 0) :=
  ⟨by decide +kernel, by decide +kernel, by decide +kernel, by decide +kernel, by decide +kernel, by decide +kernel, by decide +kernel, by decide +kernel⟩

theorem meets_IntakeSamples_25 :
    let s : State := t1
    s.itk.run = none :=
  by decide +kernel

end Part19

namespace Part21

/-- Port 0 UP with 4095 as the next number to come. -/
def lk (q : SlkPort) : State := { up t1 with slk.ports := [(0, q)] }
def qUp : SlkPort := { st := .up, rxSeq := 4095, width := 3 }
def fr (ty : BitVec 8) (dst : BitVec 8) (pl : List Byte) : LinkFrame :=
  { ftype := ty, vc := 0, src := 9, dst := dst, seq := 4095, tenant := 1, conf := false, payload := pl, crcOk := true }
def fBad : LinkFrame := { fr 6 0 [] with crcOk := false }
def fCnf : LinkFrame := { fr 5 0 [] with conf := true }
def fFwd : LinkFrame := fr 0 1 [1, 2, 3]
def fDat : LinkFrame := fr 0 0 [5, 0, 9]
def fSig : LinkFrame := fr 1 0 [63, 31, 0xFF, 0xFF]
def fRoot : LinkFrame := fr 4 0xFF [3, 7]
def fSelf : LinkFrame := fr 4 0xFF [0, 64]
def fQui : LinkFrame := fr 4 0xFF [1, 9, 1]
def fQl : LinkFrame := fr 5 0xFF (bytes 16 [(0, 2, 9), (2, 2, 77), (4, 4, 3), (8, 6, 0x123456789ABC)])
def fWk : LinkFrame := fr 6 0 []
def lkRoot : State := { lk qUp with slk.root := true }
def lkSeen : State := { lk qUp with slk.quillSeen := [(9, 3)] }
def lkDoze : State := { lk qUp with pmu.dev := .doze }
def ua (n : BitVec 12) (k : Nat) : Unacked := { frame := { fDat with seq := n }, replays := k, cand := 1 }
def lq (l : List Unacked) : State := lk { qUp with unacked := l }
def l7 : List Unacked := [ua 5 7, ua 6 7]
def l8 : List Unacked := [ua 5 7, ua 6 8]
def ph (l : BitVec 4) (n : BitVec 6) : PhaseResult := { lanes := l, partner16g := true, partner := n, latency := 40 }
def tq (st : SlkSt) : SlkPort := { st := st, rateCfg := true }
def tS (st : SlkSt) : State := lk (tq st)
def t2 (st : SlkSt) (n : BitVec 2) : State := lk { tq st with attempts := n }
def tA : State := lk { tq .downNoPartner with autoRetry := true }
def rq (w : Option Nat) (rw bo : Bool) (n : BitVec 3) : State := lk { qUp with reqSent := w, reqWidth := rw, backoff := bo, clashes := n }
def noW : Option (Fin 5) := none
def nar : State := lk { qUp with width := 1 }
def mesh : State := { lk qUp with slk.ports := [(0, qUp), (2, { qUp with unacked := [{ ua 5 0 with cand := 2, frame := { fDat with src := 0, dst := 9 } }] })], slk.links := [(1, 15), (8, 15)] }
def mesh0 : State := { lk qUp with slk.ports := [(0, qUp), (2, qUp)], slk.links := [(1, 15), (8, 15)] }
def hop1 : List (Nat × Nat) := [(0, 0), (1, 2)]
def hop2 : List (Nat × Nat) := [(0, 2), (8, 0)]
def cut : State := { mesh0 with slk.links := [] }
def enS (at_ : Option Sfc) (l : Tdi) : State := { lk qUp with slk.enumAt := at_, key.tdi := l, tb.sfc := 5, slk.ports := [(0, qUp), (2, qUp)] }
def en7 : State := { enS (some 5) .unlocked with glb.activeId := 7 }
def enC : Cmd := { rd 0xA0 16 [(0, 1, 6), (8, 1, 8), (9, 1, 8)] with phase := .running }
def lc (fs : List (Nat × Nat × Nat)) : Cmd := rd 0xA0 16 fs
def lS (c : Cmd) (q : SlkPort) : State := hold c { t1 with slk.ports := [(3, q), (0, {})] }
def old1 (s : State) : State := { s with build.rev := .rev1 }
def cUp : Cmd := lc [(0, 1, 0), (1, 1, 3), (3, 1, 4), (4, 1, 1), (5, 1, 1)]
def cUpB : Cmd := lc [(0, 1, 0), (1, 1, 3), (3, 1, 3)]
def cDn : Cmd := lc [(0, 1, 1), (1, 1, 3)]
def cRt : Cmd := lc [(0, 1, 2), (1, 1, 3)]
def cWi : Cmd := lc [(0, 1, 3), (1, 1, 3), (3, 1, 2)]
def cRa : Cmd := lc [(0, 1, 4), (1, 1, 3), (4, 1, 1)]
def cId : Cmd := lc [(0, 1, 5), (2, 1, 63)]
def cEn : Cmd := lc [(0, 1, 6), (2, 1, 63), (8, 1, 8), (9, 1, 8)]
def cBr : Cmd := lc [(0, 1, 7)]
def fol (s : State) : State := { s with tb.ctrl := 2, slk.rootId := some 9 }
def cJo : Cmd := lc [(0, 1, 8)]
def exc (s : State) : State := { s with caps := [(0, some { (rd 0xC0 64 []).capture with exciting := true })] }
def joS : State := { lS cJo { qUp with st := .up, lat := 50 } with slk.rootId := some 56 }
def cBi : Cmd := lc [(0, 1, 9), (2, 1, 56), (6, 1, 63)]
def cUn : Cmd := lc [(0, 1, 10), (6, 1, 63)]
def cPr : Cmd := lc [(0, 1, 11), (1, 1, 3)]

theorem meets_FramesReceived_1 :
    (((lk qUp).slp 0).st = SlkSt.up) ∧
    (fBad.ftype.toNat ∈ [0, 1, 4, 5, 6]) ∧
    (fBad.crcOk = false) :=
  ⟨by decide, by decide, by decide⟩

theorem meets_FramesReceived_2 :
    (((lk qUp).slp 0).st = SlkSt.up) ∧
    (fCnf.ftype.toNat ∈ [0, 1, 4, 5, 6]) ∧
    (fCnf.crcOk = true) ∧
    (fCnf.seq = ((lk qUp).slp 0).rxSeq) ∧
    (fCnf.conf = true) ∧
    ((lk qUp).key.rackTrusted = false) :=
  by and_intros <;> decide

theorem meets_FramesReceived_3 :
    (((lk qUp).slp 0).st = SlkSt.up) ∧
    (fFwd.ftype.toNat ∈ [0, 1, 4, 5, 6]) ∧
    (fFwd.crcOk = true) ∧
    (fFwd.seq = ((lk qUp).slp 0).rxSeq) ∧
    (fFwd.conf = false) ∧
    (fFwd.dst ≠ (255 : BitVec 8)) ∧
    (fFwd.dst.toNat ≠ (lk qUp).node) :=
  by and_intros <;> decide

theorem meets_FramesReceived_4 :
    (((lk qUp).slp 0).st = SlkSt.up) ∧
    (fDat.crcOk = true) ∧
    (fDat.seq = ((lk qUp).slp 0).rxSeq) ∧
    (fDat.conf = false) ∧
    (fDat.dst.toNat = (lk qUp).node) ∧
    (fDat.ftype = (0 : BitVec 8)) ∧
    ((lk qUp).stream (leAt fDat.payload 0 2) = none) :=
  by and_intros <;> decide

theorem meets_FramesReceived_5 :
    (((lk qUp).slp 0).st = SlkSt.up) ∧
    (fSig.crcOk = true) ∧
    (fSig.seq = ((lk qUp).slp 0).rxSeq) ∧
    (fSig.conf = false) ∧
    (fSig.dst.toNat = (lk qUp).node) ∧
    (fSig.ftype = (1 : BitVec 8)) :=
  by and_intros <;> decide

theorem meets_FramesReceived_6 :
    (((lk qUp).slp 0).st = SlkSt.up) ∧
    (fRoot.crcOk = true) ∧
    (fRoot.seq = ((lk qUp).slp 0).rxSeq) ∧
    (fRoot.conf = false) ∧
    (fRoot.dst = (255 : BitVec 8)) ∧
    (fRoot.ftype = (4 : BitVec 8)) ∧
    (leAt fRoot.payload 0 1 = 3) ∧
    ((lk qUp).slk.root = false) ∧
    ((lk qUp).slk.rootCmd = none) ∧
    ((lk qUp).slk.rootId ≠ some (BitVec.ofNat 6 (leAt fRoot.payload 1 1 % 64))) :=
  by and_intros <;> decide

theorem meets_FramesReceived_7 :
    ((lkRoot.slp 0).st = SlkSt.up) ∧
    (fRoot.crcOk = true) ∧
    (fRoot.seq = (lkRoot.slp 0).rxSeq) ∧
    (fRoot.conf = false) ∧
    (fRoot.dst = (255 : BitVec 8)) ∧
    (fRoot.ftype = (4 : BitVec 8)) ∧
    (leAt fRoot.payload 0 1 = 3) ∧
    (lkRoot.slk.root = true) ∧
    (lkRoot.node < leAt fRoot.payload 1 1 % 64) :=
  by and_intros <;> decide

theorem meets_FramesReceived_8 :
    (((lk qUp).slp 0).st = SlkSt.up) ∧
    (fSelf.crcOk = true) ∧
    (fSelf.seq = ((lk qUp).slp 0).rxSeq) ∧
    (fSelf.conf = false) ∧
    (fSelf.dst = (255 : BitVec 8)) ∧
    (fSelf.ftype = (4 : BitVec 8)) ∧
    (leAt fSelf.payload 0 1 = 0) ∧
    (leAt fSelf.payload 1 1 % 64 = (lk qUp).node) :=
  by and_intros <;> decide

theorem meets_FramesReceived_9 :
    (((lk qUp).slp 0).st = SlkSt.up) ∧
    (fQui.crcOk = true) ∧
    (fQui.seq = ((lk qUp).slp 0).rxSeq) ∧
    (fQui.conf = false) ∧
    (fQui.dst = (255 : BitVec 8)) ∧
    (fQui.ftype = (4 : BitVec 8)) ∧
    (leAt fQui.payload 0 1 = 1) ∧
    (leAt fQui.payload 1 1 % 64 ≠ (lk qUp).node) ∧
    (bit (lk qUp).slk.quietNodes (leAt fQui.payload 1 1 % 64) = false) ∧
    (leAt fQui.payload 2 1 ≠ 0) :=
  by and_intros <;> decide

theorem meets_FramesReceived_10 :
    ((lkSeen.slp 0).st = SlkSt.up) ∧
    (fQl.crcOk = true) ∧
    (fQl.seq = (lkSeen.slp 0).rxSeq) ∧
    (fQl.conf = false) ∧
    (fQl.dst = (255 : BitVec 8)) ∧
    (fQl.ftype = (5 : BitVec 8)) ∧
    (leAt fQl.payload 0 2 % 64 ≠ lkSeen.node) ∧
    ((leAt fQl.payload 0 2 % 64, leAt fQl.payload 4 4) ∈ lkSeen.slk.quillSeen) :=
  by and_intros <;> decide

theorem meets_FramesReceived_11 :
    (((lk qUp).slp 0).st = SlkSt.up) ∧
    (fQl.crcOk = true) ∧
    (fQl.seq = ((lk qUp).slp 0).rxSeq) ∧
    (fQl.conf = false) ∧
    (fQl.dst = (255 : BitVec 8)) ∧
    (fQl.ftype = (5 : BitVec 8)) ∧
    (leAt fQl.payload 0 2 % 64 ≠ (lk qUp).node) ∧
    ((leAt fQl.payload 0 2 % 64, leAt fQl.payload 4 4) ∉ (lk qUp).slk.quillSeen) :=
  by and_intros <;> decide

theorem meets_FramesReceived_12 :
    ((lkDoze.slp 0).st = SlkSt.up) ∧
    (fWk.crcOk = true) ∧
    (fWk.seq = (lkDoze.slp 0).rxSeq) ∧
    (fWk.conf = false) ∧
    (fWk.dst.toNat = lkDoze.node) ∧
    (fWk.ftype = (6 : BitVec 8)) ∧
    (fWk.dst ≠ (255 : BitVec 8)) ∧
    (lkDoze.pmu.dev = DevSt.doze) :=
  by and_intros <;> decide

theorem meets_FramesReceived_13 :
    (((lk qUp).slp 0).st = SlkSt.up) ∧
    (fWk.crcOk = true) ∧
    (fWk.seq = ((lk qUp).slp 0).rxSeq) ∧
    (fWk.conf = false) ∧
    (fWk.dst.toNat = (lk qUp).node) ∧
    (fWk.ftype = (6 : BitVec 8)) ∧
    ((lk qUp).pmu.dev = DevSt.run) :=
  by and_intros <;> decide

theorem meets_LinkReplay_1 :
    (List.findIdx? (fun u => u.frame.seq == (6 : BitVec 12)) ((lq l7).slp 0).unacked = some 1) :=
  by decide

theorem meets_LinkReplay_2 :
    (List.findIdx? (fun u => u.frame.seq == (5 : BitVec 12)) ((lq l7).slp 0).unacked = some 0) ∧
    (∀ u ∈ List.drop 0 ((lq l7).slp 0).unacked, u.replays < 8) :=
  ⟨by decide, by decide⟩

theorem meets_LinkReplay_3 :
    (List.findIdx? (fun u => u.frame.seq == (6 : BitVec 12)) ((lq l8).slp 0).unacked = some 1) ∧
    (∃ u ∈ List.drop 1 ((lq l8).slp 0).unacked, 8 ≤ u.replays) :=
  ⟨by decide, ⟨ua 6 8, by decide⟩⟩

theorem meets_LinkReplay_4 :
    (∀ u ∈ ((lq l7).slp 0).unacked, u.frame.seq ≠ (9 : BitVec 12)) :=
  by decide

theorem meets_LinkReplay_5 :
    (((lq l7).slp 0).st = SlkSt.up) ∧
    (((lq l7).slp 0).unacked ≠ []) ∧
    (∀ u ∈ ((lq l7).slp 0).unacked, u.replays < 8) :=
  ⟨by decide, by decide, by decide⟩

theorem meets_LinkReplay_6 :
    (((lq l8).slp 0).st = SlkSt.up) ∧
    (((lq l8).slp 0).unacked ≠ []) ∧
    (∃ u ∈ ((lq l8).slp 0).unacked, 8 ≤ u.replays) :=
  ⟨by decide, by decide, ⟨ua 6 8, by decide⟩⟩

theorem meets_LinkReplay_8 :
    (((lk qUp).slp 0).unacked = []) :=
  by decide

theorem meets_LinkTraining_1 :
    (((tS SlkSt.detect).slp 0).st = SlkSt.detect) :=
  by decide

theorem meets_LinkTraining_2 :
    (((tS SlkSt.trainBit).slp 0).st = SlkSt.trainBit) ∧
    (∀ i < ((tS SlkSt.trainBit).slp 0).widthMax, bit (ph (15 : BitVec 4) (1 : BitVec 6)).lanes i = true) ∧
    (goodWidth (ph (15 : BitVec 4) (1 : BitVec 6)).lanes ((tS SlkSt.trainBit).slp 0).widthMax ≠ 0) :=
  ⟨by decide, by decide, by decide⟩

theorem meets_LinkTraining_3 :
    (((tS SlkSt.trainBit).slp 0).st = SlkSt.trainBit) ∧
    (∃ i < ((tS SlkSt.trainBit).slp 0).widthMax, bit (ph (7 : BitVec 4) (1 : BitVec 6)).lanes i = false) ∧
    (goodWidth (ph (7 : BitVec 4) (1 : BitVec 6)).lanes ((tS SlkSt.trainBit).slp 0).widthMax ≠ 0) :=
  ⟨by decide, ⟨3, by decide⟩, by decide⟩

theorem meets_LinkTraining_7 :
    (((tS SlkSt.error).slp 0).st = SlkSt.error) :=
  by decide

theorem meets_LinkTraining_8 :
    (((t2 SlkSt.retrain (1 : BitVec 2)).slp 0).st = SlkSt.retrain) ∧
    (((t2 SlkSt.retrain (1 : BitVec 2)).slp 0).attempts.toNat < 2) :=
  ⟨by decide, by decide⟩

theorem meets_LinkTraining_10 :
    ((tA.slp 0).st = SlkSt.downNoPartner) ∧
    ((tA.slp 0).autoRetry = true) :=
  ⟨by decide, by decide⟩

theorem meets_LinkTraining_11 :
    (4 = 1 ∨ 4 = 2 ∨ 4 = 4) :=
  .inr (.inr rfl)

theorem meets_LinkRetrains_4 :
    (((rq (some 0) false false (3 : BitVec 3)).slp 0).st = SlkSt.up) ∧
    (((rq (some 0) false false (3 : BitVec 3)).slp 0).reqSent = some 0) ∧
    (((rq (some 0) false false (3 : BitVec 3)).slp 0).backoff = false) ∧
    (BitVec.toNat (1 : BitVec 6) ≠ (rq (some 0) false false (3 : BitVec 3)).node) ∧
    (((rq (some 0) false false (3 : BitVec 3)).slp 0).reqWidth = false) ∧
    (noW = none) :=
  by and_intros <;> decide

theorem meets_LinkRetrains_5 :
    (((rq (some 2) true false (3 : BitVec 3)).slp 0).st = SlkSt.up) ∧
    (((rq (some 2) true false (3 : BitVec 3)).slp 0).reqSent = some 2) ∧
    (((rq (some 2) true false (3 : BitVec 3)).slp 0).backoff = false) ∧
    (BitVec.toNat (1 : BitVec 6) ≠ (rq (some 2) true false (3 : BitVec 3)).node) ∧
    (((rq (some 2) true false (3 : BitVec 3)).slp 0).reqWidth = true) ∧
    (some (1 : Fin 5) = some (1 : Fin 5)) :=
  by and_intros <;> decide

theorem meets_LinkRetrains_6 :
    (((rq (some 2) true false (3 : BitVec 3)).slp 0).st = SlkSt.up) ∧
    (((rq (some 2) true false (3 : BitVec 3)).slp 0).reqSent = some 2) ∧
    (((rq (some 2) true false (3 : BitVec 3)).slp 0).backoff = false) ∧
    (BitVec.toNat (1 : BitVec 6) ≠ (rq (some 2) true false (3 : BitVec 3)).node) ∧
    (((rq (some 2) true false (3 : BitVec 3)).slp 0).reqWidth = true) ∧
    (noW = none) ∧
    ((rq (some 2) true false (3 : BitVec 3)).node < BitVec.toNat (1 : BitVec 6)) :=
  by and_intros <;> decide

theorem meets_LinkRetrains_11 :
    (((rq none true false (3 : BitVec 3)).slp 0).st = SlkSt.up) ∧
    (4 ≤ widthOf ((rq none true false (3 : BitVec 3)).slp 0).width) :=
  ⟨by decide, by decide⟩

theorem meets_LinkRetrains_12 :
    ((nar.slp 0).st = SlkSt.up) ∧
    (widthOf (nar.slp 0).width < 4) :=
  ⟨by decide, by decide⟩

theorem meets_LinkRoutes_1 :
    (mesh0.routeOf 0 9 = some (1, hop1)) :=
  by decide

theorem meets_LinkRoutes_1' :
    (mesh0.routeOf 0 9 = some (1, hop1)) ∧
    (mesh0.candInUse 0 9 = none) :=
  ⟨by decide, by decide⟩

theorem meets_LinkRoutes_4 :
    (1 ≤ 5) ∧
    (5 ≤ 5) ∧
    (mesh0.node < 64) ∧
    (9 < 64) ∧
    (mesh0.node % 8 < mesh0.rackX) ∧
    (mesh0.node / 8 < mesh0.rackY) ∧
    (9 % 8 < mesh0.rackX) ∧
    ((9 / 8 : ℕ) < mesh0.rackY) ∧
    (mesh0.rackX ≤ 8) ∧
    (mesh0.rackY ≤ 8) :=
  by and_intros <;> decide

theorem meets_LinkControl_3 :
    (Ready (old1 (lS cUp { : SlkPort })) cUp 160) ∧
    ((old1 (lS cUp { : SlkPort })).tdiLocked = false) ∧
    ((fun a => cUp.params.length = 16 ∧ leAt cUp.params 0 1 = a ∧ (if a ≤ 4 ∨ a = 11 then leAt cUp.params 1 1 ≤ 3 else leAt cUp.params 1 1 = 0) ∧ (if a = 5 ∨ a = 6 ∨ a = 9 then leAt cUp.params 2 1 ≤ 63 else leAt cUp.params 2 1 = 0) ∧ (if a = 0 ∨ a = 3 then leAt cUp.params 3 1 = 1 ∨ leAt cUp.params 3 1 = 2 ∨ leAt cUp.params 3 1 = 4 else leAt cUp.params 3 1 = 0) ∧ (if a = 0 ∨ a = 4 then leAt cUp.params 4 1 ≤ 1 else leAt cUp.params 4 1 = 0) ∧ (if a = 0 then leAt cUp.params 5 1 ≤ 1 else leAt cUp.params 5 1 = 0) ∧ (if a = 9 ∨ a = 10 then leAt cUp.params 6 1 ≤ 63 else leAt cUp.params 6 1 = 0) ∧ leAt cUp.params 7 1 = 0 ∧ (if a = 6 then 1 ≤ leAt cUp.params 8 1 ∧ leAt cUp.params 8 1 ≤ 8 ∧ 1 ≤ leAt cUp.params 9 1 ∧ leAt cUp.params 9 1 ≤ 8 else leAt cUp.params 8 1 = 0 ∧ leAt cUp.params 9 1 = 0) ∧ zerosAt cUp.params 10 6 = true) 0) ∧
    (leAt cUp.params 4 1 = 1) ∧
    ((old1 (lS cUp { : SlkPort })).rev2 = false) :=
  ⟨readyOf (by decide), by decide, by decide, by decide, by decide⟩

theorem meets_LinkControl_8 :
    (Ready (lS cRa qUp) cRa 160) ∧
    ((lS cRa qUp).tdiLocked = false) ∧
    ((fun a => cRa.params.length = 16 ∧ leAt cRa.params 0 1 = a ∧ (if a ≤ 4 ∨ a = 11 then leAt cRa.params 1 1 ≤ 3 else leAt cRa.params 1 1 = 0) ∧ (if a = 5 ∨ a = 6 ∨ a = 9 then leAt cRa.params 2 1 ≤ 63 else leAt cRa.params 2 1 = 0) ∧ (if a = 0 ∨ a = 3 then leAt cRa.params 3 1 = 1 ∨ leAt cRa.params 3 1 = 2 ∨ leAt cRa.params 3 1 = 4 else leAt cRa.params 3 1 = 0) ∧ (if a = 0 ∨ a = 4 then leAt cRa.params 4 1 ≤ 1 else leAt cRa.params 4 1 = 0) ∧ (if a = 0 then leAt cRa.params 5 1 ≤ 1 else leAt cRa.params 5 1 = 0) ∧ (if a = 9 ∨ a = 10 then leAt cRa.params 6 1 ≤ 63 else leAt cRa.params 6 1 = 0) ∧ leAt cRa.params 7 1 = 0 ∧ (if a = 6 then 1 ≤ leAt cRa.params 8 1 ∧ leAt cRa.params 8 1 ≤ 8 ∧ 1 ≤ leAt cRa.params 9 1 ∧ leAt cRa.params 9 1 ≤ 8 else leAt cRa.params 8 1 = 0 ∧ leAt cRa.params 9 1 = 0) ∧ zerosAt cRa.params 10 6 = true) 4) ∧
    ((lS cRa qUp).rev2 = true) ∧
    (((lS cRa qUp).slp (leAt cRa.params 1 1)).st = SlkSt.up) ∧
    (((lS cRa qUp).slp (leAt cRa.params 1 1)).reqSent = none) :=
  ⟨readyOf (by decide), by and_intros <;> decide⟩

def fMore : LinkFrame := fr 0 0 [5, 2, 0, 0, 9, 9]
def fOne : LinkFrame := fr 0 0 ([5, 0, 0, 0] ++ toLe 2 3)
def fEnd : LinkFrame := fr 0 0 ([5, 4, 0, 0] ++ toLe 2 8 ++ [1])
def tdiOpen (s : State) : State := { s with key.spdm := .established, key.tdi := .unlocked }

theorem meets_Enumeration_6 :
    let s : State := en7
    let p : Fin 4 := 0
    let n : BitVec 6 := 1
    let x : Fin 8 := 7
    let y : Fin 8 := 7
    ((s.slp p.val).st = SlkSt.up) ∧
    (s.slk.enumAt = some s.tb.sfc) ∧
    ({ s with slk := { s.slk with ctrl := s.slk.ctrl &&& ~~~63#32 ||| BitVec.ofNat 32 (x.val + 8 * y.val) } }.neighbour n.toNat (if p.val % 2 = 0 then p.val + 1 else p.val - 1) ≠ s.node) :=
  ⟨by decide, by decide, by decide⟩

theorem meets_Enumeration_7 :
    let s : State := enS (some 5) .unlocked
    let p : Fin 4 := 0
    let n : BitVec 6 := 1
    let x : Fin 8 := 7
    let y : Fin 8 := 7
    ((s.slp p.val).st = SlkSt.up) ∧
    (s.slk.enumAt = some s.tb.sfc) ∧
    ({ s with slk := { s.slk with ctrl := s.slk.ctrl &&& ~~~63#32 ||| BitVec.ofNat 32 (x.val + 8 * y.val) } }.neighbour n.toNat (if p.val % 2 = 0 then p.val + 1 else p.val - 1) = s.node) :=
  ⟨by decide, by decide, by decide⟩

def enF : LinkFrame := fr 4 0xFF (bytes 8 [(0, 1, 2)])
def dn : State := lk { qUp with st := .detect }
def fX : LinkFrame := { fr 0 1 [1, 2, 3, 4] with conf := false }
def fMe (t : BitVec 8) (p : List Byte) : LinkFrame := fr t 0xFF p
def fLink : LinkFrame := fMe 4 [0, 9, 0xF, 1]
def fClaim (n : Nat) : LinkFrame := fMe 4 (toLe 1 3 ++ toLe 3 n)
def rooted (n : BitVec 6) : State := { lk qUp with slk.rootId := some n }
def fRep (n : Nat) : LinkFrame := fMe 4 (bytes 8 [(0, 1, 4), (1, 1, 5), (2, 1, 1), (3, 1, n)])
def repS : State := { lk qUp with slk.enumPort := some 2 }
def fQu (n v : Nat) : LinkFrame := fMe 4 (bytes 8 [(0, 1, 1), (1, 1, n), (2, 1, v)])
def fQMe : LinkFrame := fr 5 0xFF (bytes 16 [(0, 2, 0), (2, 2, 77), (4, 4, 3), (8, 6, 0x123456789ABC)])
def fWB : LinkFrame := fMe 6 []
def dozeP : State := { lkDoze with pmu.wakePend := 0x400 }
def lO (c : Cmd) (q : SlkPort) : State := tdiOpen (lS c q)
def cBad : Cmd := lc [(0, 1, 5), (2, 1, 64)]
def lcLock (c : Cmd) (q : SlkPort) : State := { lO c q with key.tdi := .locked }
def fstS (c : Cmd) : State := { lO c qUp with streams := [(255, none)] }
def far : State := { lO cBi qUp with slk.ports := [(0, qUp)], slk.links := [(1, 15), (8, 15)] }
def cBi9 : Cmd := lc [(0, 1, 9), (2, 1, 9), (6, 1, 63)]
def farB : State := { hold cBi9 { mesh0 with key.spdm := .established } with key.tdi := .unlocked }
def noS (q : SlkPort) : State := { lk q with streams := [] }
def mesh2 : State := { mesh0 with slk.links := [(8, 15)] }
def meshH : State := { mesh0 with slk.ports := [(0, { qUp with st := .retrain }), (2, { qUp with st := .retrain })] }
def ctl8 (s : State) : State := { s with slk.ctrl := 0x0008013F }

theorem meets_LinkControl_24 :
    let s : State := joS
    let c : Cmd := cJo
    let m : BitVec 6 := (56 : BitVec 6)
    (Ready s c 160) ∧
    (s.tdiLocked = false) ∧
    (leAt c.params 4 1 = 0 ∨ s.rev2 = true) ∧
    (c.params.length = 16 ∧ leAt c.params 0 1 = 8 ∧ (if 8 ≤ 4 ∨ 8 = 11 then leAt c.params 1 1 ≤ 3 else leAt c.params 1 1 = 0) ∧ (if 8 = 5 ∨ 8 = 6 ∨ 8 = 9 then leAt c.params 2 1 ≤ 63 else leAt c.params 2 1 = 0) ∧ (if 8 = 0 ∨ 8 = 3 then leAt c.params 3 1 = 1 ∨ leAt c.params 3 1 = 2 ∨ leAt c.params 3 1 = 4 else leAt c.params 3 1 = 0) ∧ (if 8 = 0 ∨ 8 = 4 then leAt c.params 4 1 ≤ 1 else leAt c.params 4 1 = 0) ∧ (if 8 = 0 then leAt c.params 5 1 ≤ 1 else leAt c.params 5 1 = 0) ∧ (if 8 = 9 ∨ 8 = 10 then leAt c.params 6 1 ≤ 63 else leAt c.params 6 1 = 0) ∧ leAt c.params 7 1 = 0 ∧ (if 8 = 6 then 1 ≤ leAt c.params 8 1 ∧ leAt c.params 8 1 ≤ 8 ∧ 1 ≤ leAt c.params 9 1 ∧ leAt c.params 9 1 ≤ 8 else leAt c.params 8 1 = 0 ∧ leAt c.params 9 1 = 0) ∧ zerosAt c.params 10 6 = true) ∧
    (s.openStreams = 0) ∧
    (s.anyExcite = false) ∧
    (s.slk.root = false) ∧
    (s.slk.rootId = some m) ∧
    (∃ k : ℕ × List (ℕ × ℕ), s.route m.toNat = some k) :=
  ⟨readyOf (by decide +kernel), by decide +kernel, by decide +kernel, by decide +kernel, by decide +kernel, by decide +kernel, by decide +kernel, by decide +kernel, by exact ⟨_, rfl⟩⟩

theorem meets_LinkReplay_10 :
    let s : State := (lq l8)
    (bit s.obs.quillCtrl 7 = false) ∧
    (s.cmds = []) ∧
    (s.streams = []) :=
  ⟨by decide +kernel, by decide +kernel, by decide +kernel⟩

theorem meets_LinkRetrains_13 :
    let s : State := (rq none false false (0 : BitVec 3))
    let p : Fin 4 := 0
    ((s.slp p.val).st = SlkSt.up) ∧
    ((s.slp p.val).reqSent = none ∨ (s.slp p.val).backoff = true) :=
  ⟨by decide +kernel, by decide +kernel⟩

theorem meets_LinkRetrains_14 :
    let s : State := (rq (some 2) true false (3 : BitVec 3))
    let p : Fin 4 := 0
    ((s.slp p.val).st = SlkSt.up) ∧
    (∃ m : ℕ, (s.slp p.val).reqSent = some m) ∧
    ((s.slp p.val).backoff = false) ∧
    (∃ n : BitVec 6, n.toNat = s.node) ∧
    (3 ≤ (s.slp p.val).clashes.toNat) :=
  ⟨by decide +kernel, by exact ⟨_, rfl⟩, by decide +kernel, by decide +kernel, by decide +kernel⟩

theorem meets_LinkRetrains_15 :
    let s : State := (rq (some 0) false false (2 : BitVec 3))
    let p : Fin 4 := 0
    let m : ℕ := 0
    ((s.slp p.val).st = SlkSt.up) ∧
    ((s.slp p.val).reqSent = some m) ∧
    ((s.slp p.val).backoff = false) ∧
    (∃ n : BitVec 6, n.toNat ≠ s.node) ∧
    ((s.slp p.val).reqWidth = false) ∧
    (∃ v : Fin 5, ∃ w : Option (Fin 5), w = some v) :=
  ⟨by decide +kernel, by decide +kernel, by decide +kernel, by decide +kernel, by decide +kernel, by decide +kernel⟩

theorem meets_LinkRetrains_16 :
    let s : State := (rq (some 2) true false (3 : BitVec 3))
    let p : Fin 4 := 0
    let w : Option (Fin 5) := noW
    ((s.slp p.val).st = SlkSt.up) ∧
    (∃ m : ℕ, (s.slp p.val).reqSent = some m) ∧
    ((s.slp p.val).backoff = false) ∧
    (∃ n : BitVec 6, n.toNat ≠ s.node) ∧
    ((s.slp p.val).reqWidth = true) ∧
    (w = none) :=
  ⟨by decide +kernel, by exact ⟨_, rfl⟩, by decide +kernel, by decide +kernel, by decide +kernel, by decide +kernel⟩

theorem meets_LinkRetrains_17 :
    let s : State := (rq (some 2) true false (3 : BitVec 3))
    let p : Fin 4 := 0
    ((s.slp p.val).st = SlkSt.up) ∧
    (∃ m : ℕ, (s.slp p.val).reqSent = some m) ∧
    ((s.slp p.val).backoff = false) ∧
    ((s.slp p.val).reqWidth = true) :=
  ⟨by decide +kernel, by exact ⟨_, rfl⟩, by decide +kernel, by decide +kernel⟩

theorem meets_LinkRetrains_18 :
    let s : State := (rq (some 0) false false (2 : BitVec 3))
    let p : Fin 4 := 0
    ((s.slp p.val).st = SlkSt.up) ∧
    (∃ m : ℕ, (s.slp p.val).reqSent = some m) ∧
    ((s.slp p.val).backoff = false) ∧
    ((s.slp p.val).reqWidth = false) :=
  ⟨by decide +kernel, by exact ⟨_, rfl⟩, by decide +kernel, by decide +kernel⟩

theorem meets_LinkRoutes_5 :
    let s : State := mesh
    let src : ℕ := 0
    let dst : ℕ := 9
    let k : ℕ := 2
    (s.candInUse src dst = some k) ∧
    (∃ h : List (ℕ × ℕ), s.candRoute true dst k = some (k, h)) :=
  ⟨by decide +kernel, by exact ⟨_, rfl⟩⟩

theorem meets_LinkTraining_13 :
    let s : State := (t2 SlkSt.trainBit 2)
    let p : Fin 4 := 0
    ((s.slp p.val).st = SlkSt.detect ∨ (s.slp p.val).st = SlkSt.trainBit ∨ (s.slp p.val).st = SlkSt.trainCfg ∨ (s.slp p.val).st = SlkSt.retrain) ∧
    (2 ≤ (s.slp p.val).attempts.toNat) ∧
    ((s.slp p.val).cmds = []) ∧
    (∀ c ∈ s.cmds, c.remote = none ∧ c.path = []) ∧
    (s.streams = []) ∧
    (∀ u ∈ (s.slp p.val).unacked ++ (s.slp p.val).held, u.frame.ftype ≠ 1) :=
  ⟨by decide +kernel, by decide +kernel, by decide +kernel, by decide +kernel, by decide +kernel, by decide +kernel⟩

theorem meets_LinkTraining_14 :
    let s : State := (t2 SlkSt.trainBit 2)
    let p : Fin 4 := 0
    (s.slp p.val).st ≠ SlkSt.downNoPartner ∨ (s.slp p.val).autoRetry = false :=
  by decide +kernel

theorem meets_Enumeration_8 :
    let s : State := enS none .unlocked
    let p : Fin 4 := 0
    let f : LinkFrame := enF
    (f.ftype = 4) ∧
    (leAt f.payload 0 1 = 2) ∧
    ((s.slp p.val).st = SlkSt.up) ∧
    (f.crcOk = true) ∧
    (f.seq = (s.slp p.val).rxSeq) ∧
    (f.conf = false ∨ s.key.rackTrusted = true) ∧
    (f.dst = 255 ∨ f.dst.toNat = s.node) ∧
    (s.enumSeen = false) ∧
    (s.tdiLocked = false) :=
  ⟨by decide +kernel, by decide +kernel, by decide +kernel, by decide +kernel, by decide +kernel, by decide +kernel, by decide +kernel, by decide +kernel, by decide +kernel⟩

theorem meets_Enumeration_9 :
    let s : State := enS none .locked
    let p : Fin 4 := 0
    let f : LinkFrame := enF
    (f.ftype = 4) ∧
    (leAt f.payload 0 1 = 2) ∧
    ((s.slp p.val).st = SlkSt.up) ∧
    (f.crcOk = true) ∧
    (f.seq = (s.slp p.val).rxSeq) ∧
    (f.conf = false ∨ s.key.rackTrusted = true) ∧
    (f.dst = 255 ∨ f.dst.toNat = s.node) ∧
    (s.enumSeen = false) ∧
    (s.tdiLocked = true) :=
  ⟨by decide +kernel, by decide +kernel, by decide +kernel, by decide +kernel, by decide +kernel, by decide +kernel, by decide +kernel, by decide +kernel, by decide +kernel⟩

theorem meets_Enumeration_10 :
    let s : State := en7
    let p : Fin 4 := 0
    let f : LinkFrame := enF
    (f.ftype = 4) ∧
    (leAt f.payload 0 1 = 2) ∧
    ((s.slp p.val).st = SlkSt.up) ∧
    (f.crcOk = true) ∧
    (f.seq = (s.slp p.val).rxSeq) ∧
    (f.conf = false ∨ s.key.rackTrusted = true) ∧
    (f.dst = 255 ∨ f.dst.toNat = s.node) ∧
    (s.enumSeen = true) ∧
    ({ (State.modSlp p.val (fun q => { q with rxSeq := q.rxSeq + 1, acked := some true }) s) with slk := { (State.modSlp p.val (fun q => { q with rxSeq := q.rxSeq + 1, acked := some true }) s).slk with ctrl := s.slk.ctrl &&& ~~~63#32 ||| BitVec.ofNat 32 (leAt f.payload 2 1 % 8 + 8 * (leAt f.payload 3 1 % 8)) } }.neighbour (leAt f.payload 1 1 % 64) (if p.val % 2 = 0 then p.val + 1 else p.val - 1) ≠ s.node) :=
  ⟨by decide +kernel, by decide +kernel, by decide +kernel, by decide +kernel, by decide +kernel, by decide +kernel, by decide +kernel, by decide +kernel, by decide +kernel⟩

theorem meets_Enumeration_11 :
    let s : State := { enS (some 5) .unlocked with slk.enumPort := some 0 }
    let p : Fin 4 := 0
    let f : LinkFrame := enF
    (f.ftype = 4) ∧
    (leAt f.payload 0 1 = 2) ∧
    ((s.slp p.val).st = SlkSt.up) ∧
    (f.crcOk = true) ∧
    (f.seq = (s.slp p.val).rxSeq) ∧
    (f.conf = false ∨ s.key.rackTrusted = true) ∧
    (f.dst = 255 ∨ f.dst.toNat = s.node) ∧
    (s.enumSeen = true) ∧
    ({ (State.modSlp p.val (fun q => { q with rxSeq := q.rxSeq + 1, acked := some true }) s) with slk := { (State.modSlp p.val (fun q => { q with rxSeq := q.rxSeq + 1, acked := some true }) s).slk with ctrl := s.slk.ctrl &&& ~~~63#32 ||| BitVec.ofNat 32 (leAt f.payload 2 1 % 8 + 8 * (leAt f.payload 3 1 % 8)) } }.neighbour (leAt f.payload 1 1 % 64) (if p.val % 2 = 0 then p.val + 1 else p.val - 1) = s.node) :=
  ⟨by decide +kernel, by decide +kernel, by decide +kernel, by decide +kernel, by decide +kernel, by decide +kernel, by decide +kernel, by decide +kernel, by decide +kernel⟩

theorem meets_Enumeration_12 :
    let s : State := enS none .unlocked
    s.slk.enumAt = none :=
  by decide +kernel

theorem meets_Enumeration_13 :
    let s : State := enS (some 5) .unlocked
    (s.slk.enumAt = some s.tb.sfc) ∧
    (0 < s.rateHz) :=
  ⟨by decide +kernel, by decide +kernel⟩

theorem meets_Enumeration_14 :
    let f : LinkFrame := fRoot
    f.ftype ≠ 4 ∨ leAt f.payload 0 1 ≠ 2 :=
  by decide +kernel

theorem meets_FramesReceived_17 :
    let s : State := dn
    let p : Fin 4 := 0
    let f : LinkFrame := fWk
    (f.ftype.toNat < 8) ∧
    ((s.slp p.val).st ≠ SlkSt.up) :=
  ⟨by decide +kernel, by decide +kernel⟩

theorem meets_FramesReceived_18 :
    let s : State := lk qUp
    let p : Fin 4 := 0
    let f : LinkFrame := fBad
    (f.ftype.toNat < 8) ∧
    ((s.slp p.val).st = SlkSt.up) ∧
    (f.crcOk = false ∨ f.seq ≠ (s.slp p.val).rxSeq) :=
  ⟨by decide +kernel, by decide +kernel, by decide +kernel⟩

theorem meets_FramesReceived_19 :
    let s : State := lk qUp
    let p : Fin 4 := 0
    let f : LinkFrame := fCnf
    (f.ftype.toNat < 8) ∧
    ((s.slp p.val).st = SlkSt.up) ∧
    (f.crcOk = true) ∧
    (f.seq = (s.slp p.val).rxSeq) ∧
    (f.conf = true) ∧
    (s.key.rackTrusted = false) :=
  ⟨by decide +kernel, by decide +kernel, by decide +kernel, by decide +kernel, by decide +kernel, by decide +kernel⟩

theorem meets_FramesReceived_20 :
    let s : State := lk qUp
    let p : Fin 4 := 0
    let f : LinkFrame := fFwd
    (f.ftype.toNat < 8) ∧
    ((s.slp p.val).st = SlkSt.up) ∧
    (f.crcOk = true) ∧
    (f.seq = (s.slp p.val).rxSeq) ∧
    (f.conf = false ∨ s.key.rackTrusted = true) ∧
    (f.dst ≠ 255) ∧
    (f.dst.toNat ≠ s.node) :=
  ⟨by decide +kernel, by decide +kernel, by decide +kernel, by decide +kernel, by decide +kernel, by decide +kernel, by decide +kernel⟩

theorem meets_FramesReceived_21 :
    let s : State := lk qUp
    let p : Fin 4 := 0
    let f : LinkFrame := fMore
    ((s.slp p.val).st = SlkSt.up) ∧
    (f.crcOk = true) ∧
    (f.seq = (s.slp p.val).rxSeq) ∧
    (f.conf = false ∨ s.key.rackTrusted = true) ∧
    (f.dst.toNat = s.node ∨ f.dst = 255) ∧
    (f.ftype = 0) ∧
    (bitN (leAt f.payload 1 1) 1 = true) :=
  ⟨by decide +kernel, by decide +kernel, by decide +kernel, by decide +kernel, by decide +kernel, by decide +kernel, by decide +kernel⟩

theorem meets_FramesReceived_22 :
    let s : State := lk qUp
    let p : Fin 4 := 0
    let f : LinkFrame := fOne
    ((s.slp p.val).st = SlkSt.up) ∧
    (f.crcOk = true) ∧
    (f.seq = (s.slp p.val).rxSeq) ∧
    (f.conf = false ∨ s.key.rackTrusted = true) ∧
    (f.dst.toNat = s.node ∨ f.dst = 255) ∧
    (f.ftype = 0) ∧
    (bitN (leAt f.payload 1 1) 1 = false) :=
  ⟨by decide +kernel, by decide +kernel, by decide +kernel, by decide +kernel, by decide +kernel, by decide +kernel, by decide +kernel⟩

theorem meets_FramesReceived_23 :
    let s : State := lk qUp
    let p : Fin 4 := 0
    let f : LinkFrame := fOne
    ((s.slp p.val).st = SlkSt.up) ∧
    (f.crcOk = true) ∧
    (f.seq = (s.slp p.val).rxSeq) ∧
    (f.conf = false ∨ s.key.rackTrusted = true) ∧
    (f.dst.toNat = s.node ∨ f.dst = 255) ∧
    (f.ftype = 0) ∧
    (bitN (leAt f.payload 1 1) 1 = false) ∧
    (leAt ((if bitN (leAt f.payload 1 1) 2 = true then [] else tget [] s.slk.parts f.src.toNat) ++ List.drop 4 f.payload) 0 2 < 8) :=
  ⟨by decide +kernel, by decide +kernel, by decide +kernel, by decide +kernel, by decide +kernel, by decide +kernel, by decide +kernel, by decide +kernel⟩

theorem meets_FramesReceived_24 :
    let s : State := lk qUp
    let p : Fin 4 := 0
    let f : LinkFrame := fr 0 0 ([5, 4, 0, 0] ++ toLe 2 15 ++ [1])
    ((s.slp p.val).st = SlkSt.up) ∧
    (f.crcOk = true) ∧
    (f.seq = (s.slp p.val).rxSeq) ∧
    (f.conf = false ∨ s.key.rackTrusted = true) ∧
    (f.dst.toNat = s.node ∨ f.dst = 255) ∧
    (f.ftype = 0) ∧
    (bitN (leAt f.payload 1 1) 1 = false) ∧
    (leAt ((if bitN (leAt f.payload 1 1) 2 = true then [] else tget [] s.slk.parts f.src.toNat) ++ List.drop 4 f.payload) 0 2 = 0 ∨ 15 ≤ leAt ((if bitN (leAt f.payload 1 1) 2 = true then [] else tget [] s.slk.parts f.src.toNat) ++ List.drop 4 f.payload) 0 2) :=
  ⟨by decide +kernel, by decide +kernel, by decide +kernel, by decide +kernel, by decide +kernel, by decide +kernel, by decide +kernel, by decide +kernel⟩

theorem meets_FramesReceived_25 :
    let s : State := lk qUp
    let p : Fin 4 := 0
    let f : LinkFrame := fr 0 0 ([5, 4, 0, 0] ++ toLe 2 9 ++ [1])
    ((s.slp p.val).st = SlkSt.up) ∧
    (f.crcOk = true) ∧
    (f.seq = (s.slp p.val).rxSeq) ∧
    (f.conf = false ∨ s.key.rackTrusted = true) ∧
    (f.dst.toNat = s.node ∨ f.dst = 255) ∧
    (f.ftype = 0) ∧
    (bitN (leAt f.payload 1 1) 1 = false) ∧
    (leAt ((if bitN (leAt f.payload 1 1) 2 = true then [] else tget [] s.slk.parts f.src.toNat) ++ List.drop 4 f.payload) 0 2 = 9) :=
  ⟨by decide +kernel, by decide +kernel, by decide +kernel, by decide +kernel, by decide +kernel, by decide +kernel, by decide +kernel, by decide +kernel⟩

theorem meets_FramesReceived_26 :
    let s : State := lk qUp
    let p : Fin 4 := 0
    let f : LinkFrame := fSig
    ((s.slp p.val).st = SlkSt.up) ∧
    (f.crcOk = true) ∧
    (f.seq = (s.slp p.val).rxSeq) ∧
    (f.conf = false ∨ s.key.rackTrusted = true) ∧
    (f.dst.toNat = s.node ∨ f.dst = 255) ∧
    (f.ftype = 1) :=
  ⟨by decide +kernel, by decide +kernel, by decide +kernel, by decide +kernel, by decide +kernel, by decide +kernel⟩

theorem meets_FramesReceived_27 :
    let s : State := lk qUp
    let p : Fin 4 := 0
    let f : LinkFrame := fSelf
    ((s.slp p.val).st = SlkSt.up) ∧
    (f.crcOk = true) ∧
    (f.seq = (s.slp p.val).rxSeq) ∧
    (f.conf = false ∨ s.key.rackTrusted = true) ∧
    (f.dst.toNat = s.node ∨ f.dst = 255) ∧
    (f.ftype = 4) ∧
    (leAt f.payload 0 1 = 0) ∧
    (leAt f.payload 1 1 % 64 = s.node) :=
  ⟨by decide +kernel, by decide +kernel, by decide +kernel, by decide +kernel, by decide +kernel, by decide +kernel, by decide +kernel, by decide +kernel⟩

theorem meets_FramesReceived_28 :
    let s : State := lk qUp
    let p : Fin 4 := 0
    let f : LinkFrame := fLink
    ((s.slp p.val).st = SlkSt.up) ∧
    (f.crcOk = true) ∧
    (f.seq = (s.slp p.val).rxSeq) ∧
    (f.conf = false ∨ s.key.rackTrusted = true) ∧
    (f.dst.toNat = s.node ∨ f.dst = 255) ∧
    (f.ftype = 4) ∧
    (leAt f.payload 0 1 = 0) ∧
    (leAt f.payload 1 1 % 64 ≠ s.node) ∧
    (tget 0 s.slk.links (leAt f.payload 1 1 % 64) ≠ BitVec.ofNat 4 (leAt f.payload 2 1) ∨ tget 0 s.slk.cuts (leAt f.payload 1 1 % 64) ≠ BitVec.ofNat 4 (leAt f.payload 3 1)) :=
  ⟨by decide +kernel, by decide +kernel, by decide +kernel, by decide +kernel, by decide +kernel, by decide +kernel, by decide +kernel, by decide +kernel, by decide +kernel⟩

theorem meets_FramesReceived_29 :
    let s : State := rooted 5
    let p : Fin 4 := 0
    let f : LinkFrame := fClaim 5
    let r : BitVec 6 := 5
    ((s.slp p.val).st = SlkSt.up) ∧
    (f.crcOk = true) ∧
    (f.seq = (s.slp p.val).rxSeq) ∧
    (f.conf = false ∨ s.key.rackTrusted = true) ∧
    (f.dst.toNat = s.node ∨ f.dst = 255) ∧
    (f.ftype = 4) ∧
    (leAt f.payload 0 1 = 3) ∧
    (s.slk.rootId = some r) ∧
    (r.toNat ≤ leAt f.payload 1 1 % 64) :=
  ⟨by decide +kernel, by decide +kernel, by decide +kernel, by decide +kernel, by decide +kernel, by decide +kernel, by decide +kernel, by decide +kernel, by decide +kernel⟩

theorem meets_FramesReceived_30 :
    let s : State := lkRoot
    let p : Fin 4 := 0
    let f : LinkFrame := fClaim 5
    ((s.slp p.val).st = SlkSt.up) ∧
    (f.crcOk = true) ∧
    (f.seq = (s.slp p.val).rxSeq) ∧
    (f.conf = false ∨ s.key.rackTrusted = true) ∧
    (f.dst.toNat = s.node ∨ f.dst = 255) ∧
    (f.ftype = 4) ∧
    (leAt f.payload 0 1 = 3) ∧
    (s.slk.root = true) ∧
    (s.node < leAt f.payload 1 1 % 64) :=
  ⟨by decide +kernel, by decide +kernel, by decide +kernel, by decide +kernel, by decide +kernel, by decide +kernel, by decide +kernel, by decide +kernel, by decide +kernel⟩

theorem meets_FramesReceived_31 :
    let s : State := rooted 9
    let p : Fin 4 := 0
    let f : LinkFrame := fClaim 5
    ((s.slp p.val).st = SlkSt.up) ∧
    (f.crcOk = true) ∧
    (f.seq = (s.slp p.val).rxSeq) ∧
    (f.conf = false ∨ s.key.rackTrusted = true) ∧
    (f.dst.toNat = s.node ∨ f.dst = 255) ∧
    (f.ftype = 4) ∧
    (leAt f.payload 0 1 = 3) ∧
    (s.slk.root = false) ∧
    (s.slk.rootCmd = none) ∧
    (∀ (r : BitVec 6), s.slk.rootId = some r → leAt f.payload 1 1 % 64 < r.toNat) :=
  ⟨by decide +kernel, by decide +kernel, by decide +kernel, by decide +kernel, by decide +kernel, by decide +kernel, by decide +kernel, by decide +kernel, by decide +kernel, by decide +kernel⟩

theorem meets_FramesReceived_32 :
    let s : State := lk qUp
    let p : Fin 4 := 0
    let f : LinkFrame := fRep 0
    ((s.slp p.val).st = SlkSt.up) ∧
    (f.crcOk = true) ∧
    (f.seq = (s.slp p.val).rxSeq) ∧
    (f.conf = false ∨ s.key.rackTrusted = true) ∧
    (f.dst.toNat = s.node ∨ f.dst = 255) ∧
    (f.ftype = 4) ∧
    (leAt f.payload 0 1 = 4) ∧
    (leAt f.payload 3 1 % 64 = s.node) :=
  ⟨by decide +kernel, by decide +kernel, by decide +kernel, by decide +kernel, by decide +kernel, by decide +kernel, by decide +kernel, by decide +kernel⟩

theorem meets_FramesReceived_33 :
    let s : State := lk qUp
    let p : Fin 4 := 0
    let f : LinkFrame := fRep 3
    ((s.slp p.val).st = SlkSt.up) ∧
    (f.crcOk = true) ∧
    (f.seq = (s.slp p.val).rxSeq) ∧
    (f.conf = false ∨ s.key.rackTrusted = true) ∧
    (f.dst.toNat = s.node ∨ f.dst = 255) ∧
    (f.ftype = 4) ∧
    (leAt f.payload 0 1 = 4) ∧
    (leAt f.payload 3 1 % 64 ≠ s.node) ∧
    (s.slk.enumPort = none) :=
  ⟨by decide +kernel, by decide +kernel, by decide +kernel, by decide +kernel, by decide +kernel, by decide +kernel, by decide +kernel, by decide +kernel, by decide +kernel⟩

theorem meets_FramesReceived_34 :
    let s : State := repS
    let p : Fin 4 := 0
    let f : LinkFrame := fRep 3
    let k : BitVec 2 := 2
    ((s.slp p.val).st = SlkSt.up) ∧
    (f.crcOk = true) ∧
    (f.seq = (s.slp p.val).rxSeq) ∧
    (f.conf = false ∨ s.key.rackTrusted = true) ∧
    (f.dst.toNat = s.node ∨ f.dst = 255) ∧
    (f.ftype = 4) ∧
    (leAt f.payload 0 1 = 4) ∧
    (leAt f.payload 3 1 % 64 ≠ s.node) ∧
    (s.slk.enumPort = some k) :=
  ⟨by decide +kernel, by decide +kernel, by decide +kernel, by decide +kernel, by decide +kernel, by decide +kernel, by decide +kernel, by decide +kernel, by decide +kernel⟩

theorem meets_FramesReceived_35 :
    let s : State := lk qUp
    let p : Fin 4 := 0
    let f : LinkFrame := fQu 9 0
    ((s.slp p.val).st = SlkSt.up) ∧
    (f.crcOk = true) ∧
    (f.seq = (s.slp p.val).rxSeq) ∧
    (f.conf = false ∨ s.key.rackTrusted = true) ∧
    (f.dst.toNat = s.node ∨ f.dst = 255) ∧
    (f.ftype = 4) ∧
    (leAt f.payload 0 1 = 1) ∧
    (leAt f.payload 1 1 % 64 ≠ s.node) ∧
    (bit s.slk.quietNodes (leAt f.payload 1 1 % 64) = decide (leAt f.payload 2 1 ≠ 0)) :=
  ⟨by decide +kernel, by decide +kernel, by decide +kernel, by decide +kernel, by decide +kernel, by decide +kernel, by decide +kernel, by decide +kernel, by decide +kernel⟩

theorem meets_FramesReceived_36 :
    let s : State := lk qUp
    let p : Fin 4 := 0
    let f : LinkFrame := fQu 9 1
    ((s.slp p.val).st = SlkSt.up) ∧
    (f.crcOk = true) ∧
    (f.seq = (s.slp p.val).rxSeq) ∧
    (f.conf = false ∨ s.key.rackTrusted = true) ∧
    (f.dst.toNat = s.node ∨ f.dst = 255) ∧
    (f.ftype = 4) ∧
    (leAt f.payload 0 1 = 1) ∧
    (leAt f.payload 1 1 % 64 ≠ s.node) ∧
    (bit s.slk.quietNodes (leAt f.payload 1 1 % 64) ≠ decide (leAt f.payload 2 1 ≠ 0)) :=
  ⟨by decide +kernel, by decide +kernel, by decide +kernel, by decide +kernel, by decide +kernel, by decide +kernel, by decide +kernel, by decide +kernel, by decide +kernel⟩

theorem meets_FramesReceived_37 :
    let s : State := lkSeen
    let p : Fin 4 := 0
    let f : LinkFrame := fQl
    ((s.slp p.val).st = SlkSt.up) ∧
    (f.crcOk = true) ∧
    (f.seq = (s.slp p.val).rxSeq) ∧
    (f.conf = false ∨ s.key.rackTrusted = true) ∧
    (f.dst.toNat = s.node ∨ f.dst = 255) ∧
    (f.ftype = 5) ∧
    (leAt f.payload 0 2 % 64 ≠ s.node) ∧
    ((leAt f.payload 0 2 % 64, leAt f.payload 4 4) ∈ s.slk.quillSeen) :=
  ⟨by decide +kernel, by decide +kernel, by decide +kernel, by decide +kernel, by decide +kernel, by decide +kernel, by decide +kernel, by decide +kernel⟩

theorem meets_FramesReceived_38 :
    let s : State := lk qUp
    let p : Fin 4 := 0
    let f : LinkFrame := fQl
    ((s.slp p.val).st = SlkSt.up) ∧
    (f.crcOk = true) ∧
    (f.seq = (s.slp p.val).rxSeq) ∧
    (f.conf = false ∨ s.key.rackTrusted = true) ∧
    (f.dst.toNat = s.node ∨ f.dst = 255) ∧
    (f.ftype = 5) ∧
    (leAt f.payload 0 2 % 64 ≠ s.node) ∧
    ((leAt f.payload 0 2 % 64, leAt f.payload 4 4) ∉ s.slk.quillSeen) :=
  ⟨by decide +kernel, by decide +kernel, by decide +kernel, by decide +kernel, by decide +kernel, by decide +kernel, by decide +kernel, by decide +kernel⟩

theorem meets_FramesReceived_39 :
    let s : State := lk qUp
    let p : Fin 4 := 0
    let f : LinkFrame := fQMe
    ((s.slp p.val).st = SlkSt.up) ∧
    (f.crcOk = true) ∧
    (f.seq = (s.slp p.val).rxSeq) ∧
    (f.conf = false ∨ s.key.rackTrusted = true) ∧
    (f.dst.toNat = s.node ∨ f.dst = 255) ∧
    (f.ftype = 5) ∧
    (leAt f.payload 0 2 % 64 = s.node) :=
  ⟨by decide +kernel, by decide +kernel, by decide +kernel, by decide +kernel, by decide +kernel, by decide +kernel, by decide +kernel⟩

theorem meets_FramesReceived_40 :
    let s : State := lk qUp
    let p : Fin 4 := 0
    let f : LinkFrame := fWk
    ((s.slp p.val).st = SlkSt.up) ∧
    (f.crcOk = true) ∧
    (f.seq = (s.slp p.val).rxSeq) ∧
    (f.conf = false ∨ s.key.rackTrusted = true) ∧
    (f.dst.toNat = s.node ∨ f.dst = 255) ∧
    (f.ftype = 6) ∧
    (s.pmu.dev ≠ DevSt.doze) ∧
    (s.pmu.dev ≠ DevSt.torpor) :=
  ⟨by decide +kernel, by decide +kernel, by decide +kernel, by decide +kernel, by decide +kernel, by decide +kernel, by decide +kernel, by decide +kernel⟩

theorem meets_FramesReceived_41 :
    let s : State := dozeP
    let p : Fin 4 := 0
    let f : LinkFrame := fWB
    ((s.slp p.val).st = SlkSt.up) ∧
    (f.crcOk = true) ∧
    (f.seq = (s.slp p.val).rxSeq) ∧
    (f.conf = false ∨ s.key.rackTrusted = true) ∧
    (f.dst.toNat = s.node ∨ f.dst = 255) ∧
    (f.ftype = 6) ∧
    (s.pmu.dev = DevSt.doze ∨ s.pmu.dev = DevSt.torpor) ∧
    (f.dst ≠ 255 ∨ bit s.pmu.wakePend 10 = true) :=
  ⟨by decide +kernel, by decide +kernel, by decide +kernel, by decide +kernel, by decide +kernel, by decide +kernel, by decide +kernel, by decide +kernel⟩

theorem meets_FramesReceived_42 :
    let s : State := lkDoze
    let p : Fin 4 := 0
    let f : LinkFrame := fWB
    ((s.slp p.val).st = SlkSt.up) ∧
    (f.crcOk = true) ∧
    (f.seq = (s.slp p.val).rxSeq) ∧
    (f.conf = false ∨ s.key.rackTrusted = true) ∧
    (f.dst.toNat = s.node ∨ f.dst = 255) ∧
    (f.ftype = 6) ∧
    (s.pmu.dev = DevSt.doze ∨ s.pmu.dev = DevSt.torpor) ∧
    (f.dst = 255) ∧
    (bit s.pmu.wakePend 10 = false) :=
  ⟨by decide +kernel, by decide +kernel, by decide +kernel, by decide +kernel, by decide +kernel, by decide +kernel, by decide +kernel, by decide +kernel, by decide +kernel⟩

theorem meets_LinkControl_25 :
    let s : State := lO cBad qUp
    let c : Cmd := cBad
    (Ready s c 160) ∧
    (¬(c.params.length = 16 ∧ leAt c.params 0 1 = leAt c.params 0 1 ∧ (if leAt c.params 0 1 ≤ 4 ∨ leAt c.params 0 1 = 11 then leAt c.params 1 1 ≤ 3 else leAt c.params 1 1 = 0) ∧ (if leAt c.params 0 1 = 5 ∨ leAt c.params 0 1 = 6 ∨ leAt c.params 0 1 = 9 then leAt c.params 2 1 ≤ 63 else leAt c.params 2 1 = 0) ∧ (if leAt c.params 0 1 = 0 ∨ leAt c.params 0 1 = 3 then leAt c.params 3 1 = 1 ∨ leAt c.params 3 1 = 2 ∨ leAt c.params 3 1 = 4 else leAt c.params 3 1 = 0) ∧ (if leAt c.params 0 1 = 0 ∨ leAt c.params 0 1 = 4 then leAt c.params 4 1 ≤ 1 else leAt c.params 4 1 = 0) ∧ (if leAt c.params 0 1 = 0 then leAt c.params 5 1 ≤ 1 else leAt c.params 5 1 = 0) ∧ (if leAt c.params 0 1 = 9 ∨ leAt c.params 0 1 = 10 then leAt c.params 6 1 ≤ 63 else leAt c.params 6 1 = 0) ∧ leAt c.params 7 1 = 0 ∧ (if leAt c.params 0 1 = 6 then 1 ≤ leAt c.params 8 1 ∧ leAt c.params 8 1 ≤ 8 ∧ 1 ≤ leAt c.params 9 1 ∧ leAt c.params 9 1 ≤ 8 else leAt c.params 8 1 = 0 ∧ leAt c.params 9 1 = 0) ∧ zerosAt c.params 10 6 = true) ∨ 11 < leAt c.params 0 1) :=
  ⟨readyOf (by decide +kernel), by decide +kernel⟩

theorem meets_LinkControl_26 :
    let s : State := old1 (lS cUp { : SlkPort })
    let c : Cmd := cUp
    let a : ℕ := 0
    (Ready s c 160) ∧
    (a ≤ 11) ∧
    (c.params.length = 16 ∧ leAt c.params 0 1 = a ∧ (if a ≤ 4 ∨ a = 11 then leAt c.params 1 1 ≤ 3 else leAt c.params 1 1 = 0) ∧ (if a = 5 ∨ a = 6 ∨ a = 9 then leAt c.params 2 1 ≤ 63 else leAt c.params 2 1 = 0) ∧ (if a = 0 ∨ a = 3 then leAt c.params 3 1 = 1 ∨ leAt c.params 3 1 = 2 ∨ leAt c.params 3 1 = 4 else leAt c.params 3 1 = 0) ∧ (if a = 0 ∨ a = 4 then leAt c.params 4 1 ≤ 1 else leAt c.params 4 1 = 0) ∧ (if a = 0 then leAt c.params 5 1 ≤ 1 else leAt c.params 5 1 = 0) ∧ (if a = 9 ∨ a = 10 then leAt c.params 6 1 ≤ 63 else leAt c.params 6 1 = 0) ∧ leAt c.params 7 1 = 0 ∧ (if a = 6 then 1 ≤ leAt c.params 8 1 ∧ leAt c.params 8 1 ≤ 8 ∧ 1 ≤ leAt c.params 9 1 ∧ leAt c.params 9 1 ≤ 8 else leAt c.params 8 1 = 0 ∧ leAt c.params 9 1 = 0) ∧ zerosAt c.params 10 6 = true) ∧
    (leAt c.params 4 1 = 1) ∧
    (s.rev2 = false) :=
  ⟨readyOf (by decide +kernel), by decide +kernel, by decide +kernel, by decide +kernel, by decide +kernel⟩

theorem meets_LinkControl_27 :
    let s : State := lcLock cId qUp
    let c : Cmd := cId
    let a : ℕ := 5
    (Ready s c 160) ∧
    (a ≤ 11) ∧
    (c.params.length = 16 ∧ leAt c.params 0 1 = a ∧ (if a ≤ 4 ∨ a = 11 then leAt c.params 1 1 ≤ 3 else leAt c.params 1 1 = 0) ∧ (if a = 5 ∨ a = 6 ∨ a = 9 then leAt c.params 2 1 ≤ 63 else leAt c.params 2 1 = 0) ∧ (if a = 0 ∨ a = 3 then leAt c.params 3 1 = 1 ∨ leAt c.params 3 1 = 2 ∨ leAt c.params 3 1 = 4 else leAt c.params 3 1 = 0) ∧ (if a = 0 ∨ a = 4 then leAt c.params 4 1 ≤ 1 else leAt c.params 4 1 = 0) ∧ (if a = 0 then leAt c.params 5 1 ≤ 1 else leAt c.params 5 1 = 0) ∧ (if a = 9 ∨ a = 10 then leAt c.params 6 1 ≤ 63 else leAt c.params 6 1 = 0) ∧ leAt c.params 7 1 = 0 ∧ (if a = 6 then 1 ≤ leAt c.params 8 1 ∧ leAt c.params 8 1 ≤ 8 ∧ 1 ≤ leAt c.params 9 1 ∧ leAt c.params 9 1 ≤ 8 else leAt c.params 8 1 = 0 ∧ leAt c.params 9 1 = 0) ∧ zerosAt c.params 10 6 = true) ∧
    (leAt c.params 4 1 = 0 ∨ s.rev2 = true) ∧
    (s.tdiLocked = true) :=
  ⟨readyOf (by decide +kernel), by decide +kernel, by decide +kernel, by decide +kernel, by decide +kernel⟩

theorem meets_LinkControl_28 :
    let s : State := lO cUp { st := .downNoPartner }
    let c : Cmd := cUp
    (Ready s c 160) ∧
    (s.tdiLocked = false) ∧
    (leAt c.params 4 1 = 0 ∨ s.rev2 = true) ∧
    (c.params.length = 16 ∧ leAt c.params 0 1 = 0 ∧ (if 0 ≤ 4 ∨ 0 = 11 then leAt c.params 1 1 ≤ 3 else leAt c.params 1 1 = 0) ∧ (if 0 = 5 ∨ 0 = 6 ∨ 0 = 9 then leAt c.params 2 1 ≤ 63 else leAt c.params 2 1 = 0) ∧ (if 0 = 0 ∨ 0 = 3 then leAt c.params 3 1 = 1 ∨ leAt c.params 3 1 = 2 ∨ leAt c.params 3 1 = 4 else leAt c.params 3 1 = 0) ∧ (if 0 = 0 ∨ 0 = 4 then leAt c.params 4 1 ≤ 1 else leAt c.params 4 1 = 0) ∧ (if 0 = 0 then leAt c.params 5 1 ≤ 1 else leAt c.params 5 1 = 0) ∧ (if 0 = 9 ∨ 0 = 10 then leAt c.params 6 1 ≤ 63 else leAt c.params 6 1 = 0) ∧ leAt c.params 7 1 = 0 ∧ (if 0 = 6 then 1 ≤ leAt c.params 8 1 ∧ leAt c.params 8 1 ≤ 8 ∧ 1 ≤ leAt c.params 9 1 ∧ leAt c.params 9 1 ≤ 8 else leAt c.params 8 1 = 0 ∧ leAt c.params 9 1 = 0) ∧ zerosAt c.params 10 6 = true) ∧
    ((s.slp (leAt c.params 1 1)).st = SlkSt.downNoPartner) :=
  ⟨readyOf (by decide +kernel), by decide +kernel, by decide +kernel, by decide +kernel, by decide +kernel⟩

theorem meets_LinkControl_29 :
    let s : State := lO cUp { st := .trainCfg }
    let c : Cmd := cUp
    (Ready s c 160) ∧
    (s.tdiLocked = false) ∧
    (leAt c.params 4 1 = 0 ∨ s.rev2 = true) ∧
    (c.params.length = 16 ∧ leAt c.params 0 1 = 0 ∧ (if 0 ≤ 4 ∨ 0 = 11 then leAt c.params 1 1 ≤ 3 else leAt c.params 1 1 = 0) ∧ (if 0 = 5 ∨ 0 = 6 ∨ 0 = 9 then leAt c.params 2 1 ≤ 63 else leAt c.params 2 1 = 0) ∧ (if 0 = 0 ∨ 0 = 3 then leAt c.params 3 1 = 1 ∨ leAt c.params 3 1 = 2 ∨ leAt c.params 3 1 = 4 else leAt c.params 3 1 = 0) ∧ (if 0 = 0 ∨ 0 = 4 then leAt c.params 4 1 ≤ 1 else leAt c.params 4 1 = 0) ∧ (if 0 = 0 then leAt c.params 5 1 ≤ 1 else leAt c.params 5 1 = 0) ∧ (if 0 = 9 ∨ 0 = 10 then leAt c.params 6 1 ≤ 63 else leAt c.params 6 1 = 0) ∧ leAt c.params 7 1 = 0 ∧ (if 0 = 6 then 1 ≤ leAt c.params 8 1 ∧ leAt c.params 8 1 ≤ 8 ∧ 1 ≤ leAt c.params 9 1 ∧ leAt c.params 9 1 ≤ 8 else leAt c.params 8 1 = 0 ∧ leAt c.params 9 1 = 0) ∧ zerosAt c.params 10 6 = true) ∧
    ((s.slp (leAt c.params 1 1)).st = SlkSt.detect ∨ (s.slp (leAt c.params 1 1)).st = SlkSt.trainBit ∨ (s.slp (leAt c.params 1 1)).st = SlkSt.trainCfg ∨ (s.slp (leAt c.params 1 1)).st = SlkSt.retrain) :=
  ⟨readyOf (by decide +kernel), by decide +kernel, by decide +kernel, by decide +kernel, by decide +kernel⟩

theorem meets_LinkControl_30 :
    let s : State := lO cUp { st := .error }
    let c : Cmd := cUp
    (Ready s c 160) ∧
    (s.tdiLocked = false) ∧
    (leAt c.params 4 1 = 0 ∨ s.rev2 = true) ∧
    (c.params.length = 16 ∧ leAt c.params 0 1 = 0 ∧ (if 0 ≤ 4 ∨ 0 = 11 then leAt c.params 1 1 ≤ 3 else leAt c.params 1 1 = 0) ∧ (if 0 = 5 ∨ 0 = 6 ∨ 0 = 9 then leAt c.params 2 1 ≤ 63 else leAt c.params 2 1 = 0) ∧ (if 0 = 0 ∨ 0 = 3 then leAt c.params 3 1 = 1 ∨ leAt c.params 3 1 = 2 ∨ leAt c.params 3 1 = 4 else leAt c.params 3 1 = 0) ∧ (if 0 = 0 ∨ 0 = 4 then leAt c.params 4 1 ≤ 1 else leAt c.params 4 1 = 0) ∧ (if 0 = 0 then leAt c.params 5 1 ≤ 1 else leAt c.params 5 1 = 0) ∧ (if 0 = 9 ∨ 0 = 10 then leAt c.params 6 1 ≤ 63 else leAt c.params 6 1 = 0) ∧ leAt c.params 7 1 = 0 ∧ (if 0 = 6 then 1 ≤ leAt c.params 8 1 ∧ leAt c.params 8 1 ≤ 8 ∧ 1 ≤ leAt c.params 9 1 ∧ leAt c.params 9 1 ≤ 8 else leAt c.params 8 1 = 0 ∧ leAt c.params 9 1 = 0) ∧ zerosAt c.params 10 6 = true) ∧
    ((s.slp (leAt c.params 1 1)).st = SlkSt.error) :=
  ⟨readyOf (by decide +kernel), by decide +kernel, by decide +kernel, by decide +kernel, by decide +kernel⟩

theorem meets_LinkControl_31 :
    let s : State := lO cDn qUp
    let c : Cmd := cDn
    (Ready s c 160) ∧
    (s.tdiLocked = false) ∧
    (leAt c.params 4 1 = 0 ∨ s.rev2 = true) ∧
    (c.params.length = 16 ∧ leAt c.params 0 1 = 1 ∧ (if 1 ≤ 4 ∨ 1 = 11 then leAt c.params 1 1 ≤ 3 else leAt c.params 1 1 = 0) ∧ (if 1 = 5 ∨ 1 = 6 ∨ 1 = 9 then leAt c.params 2 1 ≤ 63 else leAt c.params 2 1 = 0) ∧ (if 1 = 0 ∨ 1 = 3 then leAt c.params 3 1 = 1 ∨ leAt c.params 3 1 = 2 ∨ leAt c.params 3 1 = 4 else leAt c.params 3 1 = 0) ∧ (if 1 = 0 ∨ 1 = 4 then leAt c.params 4 1 ≤ 1 else leAt c.params 4 1 = 0) ∧ (if 1 = 0 then leAt c.params 5 1 ≤ 1 else leAt c.params 5 1 = 0) ∧ (if 1 = 9 ∨ 1 = 10 then leAt c.params 6 1 ≤ 63 else leAt c.params 6 1 = 0) ∧ leAt c.params 7 1 = 0 ∧ (if 1 = 6 then 1 ≤ leAt c.params 8 1 ∧ leAt c.params 8 1 ≤ 8 ∧ 1 ≤ leAt c.params 9 1 ∧ leAt c.params 9 1 ≤ 8 else leAt c.params 8 1 = 0 ∧ leAt c.params 9 1 = 0) ∧ zerosAt c.params 10 6 = true) :=
  ⟨readyOf (by decide +kernel), by decide +kernel, by decide +kernel, by decide +kernel⟩

theorem meets_LinkControl_32 :
    let s : State := lO cRt qUp
    let c : Cmd := cRt
    (Ready s c 160) ∧
    (s.tdiLocked = false) ∧
    (leAt c.params 4 1 = 0 ∨ s.rev2 = true) ∧
    (c.params.length = 16 ∧ leAt c.params 0 1 = 2 ∧ (if 2 ≤ 4 ∨ 2 = 11 then leAt c.params 1 1 ≤ 3 else leAt c.params 1 1 = 0) ∧ (if 2 = 5 ∨ 2 = 6 ∨ 2 = 9 then leAt c.params 2 1 ≤ 63 else leAt c.params 2 1 = 0) ∧ (if 2 = 0 ∨ 2 = 3 then leAt c.params 3 1 = 1 ∨ leAt c.params 3 1 = 2 ∨ leAt c.params 3 1 = 4 else leAt c.params 3 1 = 0) ∧ (if 2 = 0 ∨ 2 = 4 then leAt c.params 4 1 ≤ 1 else leAt c.params 4 1 = 0) ∧ (if 2 = 0 then leAt c.params 5 1 ≤ 1 else leAt c.params 5 1 = 0) ∧ (if 2 = 9 ∨ 2 = 10 then leAt c.params 6 1 ≤ 63 else leAt c.params 6 1 = 0) ∧ leAt c.params 7 1 = 0 ∧ (if 2 = 6 then 1 ≤ leAt c.params 8 1 ∧ leAt c.params 8 1 ≤ 8 ∧ 1 ≤ leAt c.params 9 1 ∧ leAt c.params 9 1 ≤ 8 else leAt c.params 8 1 = 0 ∧ leAt c.params 9 1 = 0) ∧ zerosAt c.params 10 6 = true) ∧
    ((s.slp (leAt c.params 1 1)).st = SlkSt.up) ∧
    ((s.slp (leAt c.params 1 1)).reqSent = none) :=
  ⟨readyOf (by decide +kernel), by decide +kernel, by decide +kernel, by decide +kernel, by decide +kernel, by decide +kernel⟩

theorem meets_LinkControl_33 :
    let s : State := lO cRt { qUp with reqSent := some 4 }
    let c : Cmd := cRt
    let m : ℕ := 4
    (Ready s c 160) ∧
    (s.tdiLocked = false) ∧
    (leAt c.params 4 1 = 0 ∨ s.rev2 = true) ∧
    (c.params.length = 16 ∧ leAt c.params 0 1 = 2 ∧ (if 2 ≤ 4 ∨ 2 = 11 then leAt c.params 1 1 ≤ 3 else leAt c.params 1 1 = 0) ∧ (if 2 = 5 ∨ 2 = 6 ∨ 2 = 9 then leAt c.params 2 1 ≤ 63 else leAt c.params 2 1 = 0) ∧ (if 2 = 0 ∨ 2 = 3 then leAt c.params 3 1 = 1 ∨ leAt c.params 3 1 = 2 ∨ leAt c.params 3 1 = 4 else leAt c.params 3 1 = 0) ∧ (if 2 = 0 ∨ 2 = 4 then leAt c.params 4 1 ≤ 1 else leAt c.params 4 1 = 0) ∧ (if 2 = 0 then leAt c.params 5 1 ≤ 1 else leAt c.params 5 1 = 0) ∧ (if 2 = 9 ∨ 2 = 10 then leAt c.params 6 1 ≤ 63 else leAt c.params 6 1 = 0) ∧ leAt c.params 7 1 = 0 ∧ (if 2 = 6 then 1 ≤ leAt c.params 8 1 ∧ leAt c.params 8 1 ≤ 8 ∧ 1 ≤ leAt c.params 9 1 ∧ leAt c.params 9 1 ≤ 8 else leAt c.params 8 1 = 0 ∧ leAt c.params 9 1 = 0) ∧ zerosAt c.params 10 6 = true) ∧
    ((s.slp (leAt c.params 1 1)).st = SlkSt.up) ∧
    ((s.slp (leAt c.params 1 1)).reqSent = some m) :=
  ⟨readyOf (by decide +kernel), by decide +kernel, by decide +kernel, by decide +kernel, by decide +kernel, by decide +kernel⟩

theorem meets_LinkControl_34 :
    let s : State := lO cRt { qUp with st := .retrain }
    let c : Cmd := cRt
    (Ready s c 160) ∧
    (s.tdiLocked = false) ∧
    (leAt c.params 4 1 = 0 ∨ s.rev2 = true) ∧
    (c.params.length = 16 ∧ leAt c.params 0 1 = 2 ∧ (if 2 ≤ 4 ∨ 2 = 11 then leAt c.params 1 1 ≤ 3 else leAt c.params 1 1 = 0) ∧ (if 2 = 5 ∨ 2 = 6 ∨ 2 = 9 then leAt c.params 2 1 ≤ 63 else leAt c.params 2 1 = 0) ∧ (if 2 = 0 ∨ 2 = 3 then leAt c.params 3 1 = 1 ∨ leAt c.params 3 1 = 2 ∨ leAt c.params 3 1 = 4 else leAt c.params 3 1 = 0) ∧ (if 2 = 0 ∨ 2 = 4 then leAt c.params 4 1 ≤ 1 else leAt c.params 4 1 = 0) ∧ (if 2 = 0 then leAt c.params 5 1 ≤ 1 else leAt c.params 5 1 = 0) ∧ (if 2 = 9 ∨ 2 = 10 then leAt c.params 6 1 ≤ 63 else leAt c.params 6 1 = 0) ∧ leAt c.params 7 1 = 0 ∧ (if 2 = 6 then 1 ≤ leAt c.params 8 1 ∧ leAt c.params 8 1 ≤ 8 ∧ 1 ≤ leAt c.params 9 1 ∧ leAt c.params 9 1 ≤ 8 else leAt c.params 8 1 = 0 ∧ leAt c.params 9 1 = 0) ∧ zerosAt c.params 10 6 = true) ∧
    ((s.slp (leAt c.params 1 1)).st = SlkSt.detect ∨ (s.slp (leAt c.params 1 1)).st = SlkSt.trainBit ∨ (s.slp (leAt c.params 1 1)).st = SlkSt.trainCfg ∨ (s.slp (leAt c.params 1 1)).st = SlkSt.retrain) :=
  ⟨readyOf (by decide +kernel), by decide +kernel, by decide +kernel, by decide +kernel, by decide +kernel⟩

theorem meets_LinkControl_35 :
    let s : State := lO cRt { qUp with st := .downNoPartner }
    let c : Cmd := cRt
    (Ready s c 160) ∧
    (s.tdiLocked = false) ∧
    (leAt c.params 4 1 = 0 ∨ s.rev2 = true) ∧
    (c.params.length = 16 ∧ leAt c.params 0 1 = 2 ∧ (if 2 ≤ 4 ∨ 2 = 11 then leAt c.params 1 1 ≤ 3 else leAt c.params 1 1 = 0) ∧ (if 2 = 5 ∨ 2 = 6 ∨ 2 = 9 then leAt c.params 2 1 ≤ 63 else leAt c.params 2 1 = 0) ∧ (if 2 = 0 ∨ 2 = 3 then leAt c.params 3 1 = 1 ∨ leAt c.params 3 1 = 2 ∨ leAt c.params 3 1 = 4 else leAt c.params 3 1 = 0) ∧ (if 2 = 0 ∨ 2 = 4 then leAt c.params 4 1 ≤ 1 else leAt c.params 4 1 = 0) ∧ (if 2 = 0 then leAt c.params 5 1 ≤ 1 else leAt c.params 5 1 = 0) ∧ (if 2 = 9 ∨ 2 = 10 then leAt c.params 6 1 ≤ 63 else leAt c.params 6 1 = 0) ∧ leAt c.params 7 1 = 0 ∧ (if 2 = 6 then 1 ≤ leAt c.params 8 1 ∧ leAt c.params 8 1 ≤ 8 ∧ 1 ≤ leAt c.params 9 1 ∧ leAt c.params 9 1 ≤ 8 else leAt c.params 8 1 = 0 ∧ leAt c.params 9 1 = 0) ∧ zerosAt c.params 10 6 = true) ∧
    ((s.slp (leAt c.params 1 1)).st = SlkSt.downNoPartner) :=
  ⟨readyOf (by decide +kernel), by decide +kernel, by decide +kernel, by decide +kernel, by decide +kernel⟩

theorem meets_LinkControl_36 :
    let s : State := lO cRt { qUp with st := .disabled }
    let c : Cmd := cRt
    (Ready s c 160) ∧
    (s.tdiLocked = false) ∧
    (leAt c.params 4 1 = 0 ∨ s.rev2 = true) ∧
    (c.params.length = 16 ∧ leAt c.params 0 1 = 2 ∧ (if 2 ≤ 4 ∨ 2 = 11 then leAt c.params 1 1 ≤ 3 else leAt c.params 1 1 = 0) ∧ (if 2 = 5 ∨ 2 = 6 ∨ 2 = 9 then leAt c.params 2 1 ≤ 63 else leAt c.params 2 1 = 0) ∧ (if 2 = 0 ∨ 2 = 3 then leAt c.params 3 1 = 1 ∨ leAt c.params 3 1 = 2 ∨ leAt c.params 3 1 = 4 else leAt c.params 3 1 = 0) ∧ (if 2 = 0 ∨ 2 = 4 then leAt c.params 4 1 ≤ 1 else leAt c.params 4 1 = 0) ∧ (if 2 = 0 then leAt c.params 5 1 ≤ 1 else leAt c.params 5 1 = 0) ∧ (if 2 = 9 ∨ 2 = 10 then leAt c.params 6 1 ≤ 63 else leAt c.params 6 1 = 0) ∧ leAt c.params 7 1 = 0 ∧ (if 2 = 6 then 1 ≤ leAt c.params 8 1 ∧ leAt c.params 8 1 ≤ 8 ∧ 1 ≤ leAt c.params 9 1 ∧ leAt c.params 9 1 ≤ 8 else leAt c.params 8 1 = 0 ∧ leAt c.params 9 1 = 0) ∧ zerosAt c.params 10 6 = true) ∧
    ((s.slp (leAt c.params 1 1)).st = SlkSt.error ∨ (s.slp (leAt c.params 1 1)).st = SlkSt.disabled) :=
  ⟨readyOf (by decide +kernel), by decide +kernel, by decide +kernel, by decide +kernel, by decide +kernel⟩

theorem meets_LinkControl_37 :
    let s : State := lO cWi qUp
    let c : Cmd := cWi
    (Ready s c 160) ∧
    (s.tdiLocked = false) ∧
    (leAt c.params 4 1 = 0 ∨ s.rev2 = true) ∧
    (c.params.length = 16 ∧ leAt c.params 0 1 = 3 ∧ (if 3 ≤ 4 ∨ 3 = 11 then leAt c.params 1 1 ≤ 3 else leAt c.params 1 1 = 0) ∧ (if 3 = 5 ∨ 3 = 6 ∨ 3 = 9 then leAt c.params 2 1 ≤ 63 else leAt c.params 2 1 = 0) ∧ (if 3 = 0 ∨ 3 = 3 then leAt c.params 3 1 = 1 ∨ leAt c.params 3 1 = 2 ∨ leAt c.params 3 1 = 4 else leAt c.params 3 1 = 0) ∧ (if 3 = 0 ∨ 3 = 4 then leAt c.params 4 1 ≤ 1 else leAt c.params 4 1 = 0) ∧ (if 3 = 0 then leAt c.params 5 1 ≤ 1 else leAt c.params 5 1 = 0) ∧ (if 3 = 9 ∨ 3 = 10 then leAt c.params 6 1 ≤ 63 else leAt c.params 6 1 = 0) ∧ leAt c.params 7 1 = 0 ∧ (if 3 = 6 then 1 ≤ leAt c.params 8 1 ∧ leAt c.params 8 1 ≤ 8 ∧ 1 ≤ leAt c.params 9 1 ∧ leAt c.params 9 1 ≤ 8 else leAt c.params 8 1 = 0 ∧ leAt c.params 9 1 = 0) ∧ zerosAt c.params 10 6 = true) ∧
    ((s.slp (leAt c.params 1 1)).st = SlkSt.up) ∧
    ((s.slp (leAt c.params 1 1)).reqSent = none) :=
  ⟨readyOf (by decide +kernel), by decide +kernel, by decide +kernel, by decide +kernel, by decide +kernel, by decide +kernel⟩

theorem meets_LinkControl_38 :
    let s : State := lO cWi { qUp with st := .detect }
    let c : Cmd := cWi
    (Ready s c 160) ∧
    (s.tdiLocked = false) ∧
    (leAt c.params 4 1 = 0 ∨ s.rev2 = true) ∧
    (c.params.length = 16 ∧ leAt c.params 0 1 = 3 ∧ (if 3 ≤ 4 ∨ 3 = 11 then leAt c.params 1 1 ≤ 3 else leAt c.params 1 1 = 0) ∧ (if 3 = 5 ∨ 3 = 6 ∨ 3 = 9 then leAt c.params 2 1 ≤ 63 else leAt c.params 2 1 = 0) ∧ (if 3 = 0 ∨ 3 = 3 then leAt c.params 3 1 = 1 ∨ leAt c.params 3 1 = 2 ∨ leAt c.params 3 1 = 4 else leAt c.params 3 1 = 0) ∧ (if 3 = 0 ∨ 3 = 4 then leAt c.params 4 1 ≤ 1 else leAt c.params 4 1 = 0) ∧ (if 3 = 0 then leAt c.params 5 1 ≤ 1 else leAt c.params 5 1 = 0) ∧ (if 3 = 9 ∨ 3 = 10 then leAt c.params 6 1 ≤ 63 else leAt c.params 6 1 = 0) ∧ leAt c.params 7 1 = 0 ∧ (if 3 = 6 then 1 ≤ leAt c.params 8 1 ∧ leAt c.params 8 1 ≤ 8 ∧ 1 ≤ leAt c.params 9 1 ∧ leAt c.params 9 1 ≤ 8 else leAt c.params 8 1 = 0 ∧ leAt c.params 9 1 = 0) ∧ zerosAt c.params 10 6 = true) ∧
    ((s.slp (leAt c.params 1 1)).st = SlkSt.detect ∨ (s.slp (leAt c.params 1 1)).st = SlkSt.trainBit ∨ (s.slp (leAt c.params 1 1)).st = SlkSt.trainCfg ∨ (s.slp (leAt c.params 1 1)).st = SlkSt.retrain) :=
  ⟨readyOf (by decide +kernel), by decide +kernel, by decide +kernel, by decide +kernel, by decide +kernel⟩

theorem meets_LinkControl_39 :
    let s : State := lO cWi { qUp with st := .downNoPartner }
    let c : Cmd := cWi
    (Ready s c 160) ∧
    (s.tdiLocked = false) ∧
    (leAt c.params 4 1 = 0 ∨ s.rev2 = true) ∧
    (c.params.length = 16 ∧ leAt c.params 0 1 = 3 ∧ (if 3 ≤ 4 ∨ 3 = 11 then leAt c.params 1 1 ≤ 3 else leAt c.params 1 1 = 0) ∧ (if 3 = 5 ∨ 3 = 6 ∨ 3 = 9 then leAt c.params 2 1 ≤ 63 else leAt c.params 2 1 = 0) ∧ (if 3 = 0 ∨ 3 = 3 then leAt c.params 3 1 = 1 ∨ leAt c.params 3 1 = 2 ∨ leAt c.params 3 1 = 4 else leAt c.params 3 1 = 0) ∧ (if 3 = 0 ∨ 3 = 4 then leAt c.params 4 1 ≤ 1 else leAt c.params 4 1 = 0) ∧ (if 3 = 0 then leAt c.params 5 1 ≤ 1 else leAt c.params 5 1 = 0) ∧ (if 3 = 9 ∨ 3 = 10 then leAt c.params 6 1 ≤ 63 else leAt c.params 6 1 = 0) ∧ leAt c.params 7 1 = 0 ∧ (if 3 = 6 then 1 ≤ leAt c.params 8 1 ∧ leAt c.params 8 1 ≤ 8 ∧ 1 ≤ leAt c.params 9 1 ∧ leAt c.params 9 1 ≤ 8 else leAt c.params 8 1 = 0 ∧ leAt c.params 9 1 = 0) ∧ zerosAt c.params 10 6 = true) ∧
    ((s.slp (leAt c.params 1 1)).st = SlkSt.downNoPartner) :=
  ⟨readyOf (by decide +kernel), by decide +kernel, by decide +kernel, by decide +kernel, by decide +kernel⟩

theorem meets_LinkControl_40 :
    let s : State := lO cWi { qUp with st := .error }
    let c : Cmd := cWi
    (Ready s c 160) ∧
    (s.tdiLocked = false) ∧
    (leAt c.params 4 1 = 0 ∨ s.rev2 = true) ∧
    (c.params.length = 16 ∧ leAt c.params 0 1 = 3 ∧ (if 3 ≤ 4 ∨ 3 = 11 then leAt c.params 1 1 ≤ 3 else leAt c.params 1 1 = 0) ∧ (if 3 = 5 ∨ 3 = 6 ∨ 3 = 9 then leAt c.params 2 1 ≤ 63 else leAt c.params 2 1 = 0) ∧ (if 3 = 0 ∨ 3 = 3 then leAt c.params 3 1 = 1 ∨ leAt c.params 3 1 = 2 ∨ leAt c.params 3 1 = 4 else leAt c.params 3 1 = 0) ∧ (if 3 = 0 ∨ 3 = 4 then leAt c.params 4 1 ≤ 1 else leAt c.params 4 1 = 0) ∧ (if 3 = 0 then leAt c.params 5 1 ≤ 1 else leAt c.params 5 1 = 0) ∧ (if 3 = 9 ∨ 3 = 10 then leAt c.params 6 1 ≤ 63 else leAt c.params 6 1 = 0) ∧ leAt c.params 7 1 = 0 ∧ (if 3 = 6 then 1 ≤ leAt c.params 8 1 ∧ leAt c.params 8 1 ≤ 8 ∧ 1 ≤ leAt c.params 9 1 ∧ leAt c.params 9 1 ≤ 8 else leAt c.params 8 1 = 0 ∧ leAt c.params 9 1 = 0) ∧ zerosAt c.params 10 6 = true) ∧
    ((s.slp (leAt c.params 1 1)).st = SlkSt.error ∨ (s.slp (leAt c.params 1 1)).st = SlkSt.disabled) :=
  ⟨readyOf (by decide +kernel), by decide +kernel, by decide +kernel, by decide +kernel, by decide +kernel⟩

theorem meets_LinkControl_41 :
    let s : State := lO cRa { qUp with st := .trainBit }
    let c : Cmd := cRa
    (Ready s c 160) ∧
    (s.tdiLocked = false) ∧
    (leAt c.params 4 1 = 0 ∨ s.rev2 = true) ∧
    (c.params.length = 16 ∧ leAt c.params 0 1 = 4 ∧ (if 4 ≤ 4 ∨ 4 = 11 then leAt c.params 1 1 ≤ 3 else leAt c.params 1 1 = 0) ∧ (if 4 = 5 ∨ 4 = 6 ∨ 4 = 9 then leAt c.params 2 1 ≤ 63 else leAt c.params 2 1 = 0) ∧ (if 4 = 0 ∨ 4 = 3 then leAt c.params 3 1 = 1 ∨ leAt c.params 3 1 = 2 ∨ leAt c.params 3 1 = 4 else leAt c.params 3 1 = 0) ∧ (if 4 = 0 ∨ 4 = 4 then leAt c.params 4 1 ≤ 1 else leAt c.params 4 1 = 0) ∧ (if 4 = 0 then leAt c.params 5 1 ≤ 1 else leAt c.params 5 1 = 0) ∧ (if 4 = 9 ∨ 4 = 10 then leAt c.params 6 1 ≤ 63 else leAt c.params 6 1 = 0) ∧ leAt c.params 7 1 = 0 ∧ (if 4 = 6 then 1 ≤ leAt c.params 8 1 ∧ leAt c.params 8 1 ≤ 8 ∧ 1 ≤ leAt c.params 9 1 ∧ leAt c.params 9 1 ≤ 8 else leAt c.params 8 1 = 0 ∧ leAt c.params 9 1 = 0) ∧ zerosAt c.params 10 6 = true) ∧
    ((s.slp (leAt c.params 1 1)).st = SlkSt.detect ∨ (s.slp (leAt c.params 1 1)).st = SlkSt.trainBit ∨ (s.slp (leAt c.params 1 1)).st = SlkSt.trainCfg ∨ (s.slp (leAt c.params 1 1)).st = SlkSt.retrain) :=
  ⟨readyOf (by decide +kernel), by decide +kernel, by decide +kernel, by decide +kernel, by decide +kernel⟩

theorem meets_LinkControl_42 :
    let s : State := lO cRa { qUp with st := .downNoPartner }
    let c : Cmd := cRa
    (Ready s c 160) ∧
    (s.tdiLocked = false) ∧
    (leAt c.params 4 1 = 0 ∨ s.rev2 = true) ∧
    (c.params.length = 16 ∧ leAt c.params 0 1 = 4 ∧ (if 4 ≤ 4 ∨ 4 = 11 then leAt c.params 1 1 ≤ 3 else leAt c.params 1 1 = 0) ∧ (if 4 = 5 ∨ 4 = 6 ∨ 4 = 9 then leAt c.params 2 1 ≤ 63 else leAt c.params 2 1 = 0) ∧ (if 4 = 0 ∨ 4 = 3 then leAt c.params 3 1 = 1 ∨ leAt c.params 3 1 = 2 ∨ leAt c.params 3 1 = 4 else leAt c.params 3 1 = 0) ∧ (if 4 = 0 ∨ 4 = 4 then leAt c.params 4 1 ≤ 1 else leAt c.params 4 1 = 0) ∧ (if 4 = 0 then leAt c.params 5 1 ≤ 1 else leAt c.params 5 1 = 0) ∧ (if 4 = 9 ∨ 4 = 10 then leAt c.params 6 1 ≤ 63 else leAt c.params 6 1 = 0) ∧ leAt c.params 7 1 = 0 ∧ (if 4 = 6 then 1 ≤ leAt c.params 8 1 ∧ leAt c.params 8 1 ≤ 8 ∧ 1 ≤ leAt c.params 9 1 ∧ leAt c.params 9 1 ≤ 8 else leAt c.params 8 1 = 0 ∧ leAt c.params 9 1 = 0) ∧ zerosAt c.params 10 6 = true) ∧
    ((s.slp (leAt c.params 1 1)).st = SlkSt.downNoPartner) :=
  ⟨readyOf (by decide +kernel), by decide +kernel, by decide +kernel, by decide +kernel, by decide +kernel⟩

theorem meets_LinkControl_43 :
    let s : State := lO cRa { qUp with st := .disabled }
    let c : Cmd := cRa
    (Ready s c 160) ∧
    (s.tdiLocked = false) ∧
    (leAt c.params 4 1 = 0 ∨ s.rev2 = true) ∧
    (c.params.length = 16 ∧ leAt c.params 0 1 = 4 ∧ (if 4 ≤ 4 ∨ 4 = 11 then leAt c.params 1 1 ≤ 3 else leAt c.params 1 1 = 0) ∧ (if 4 = 5 ∨ 4 = 6 ∨ 4 = 9 then leAt c.params 2 1 ≤ 63 else leAt c.params 2 1 = 0) ∧ (if 4 = 0 ∨ 4 = 3 then leAt c.params 3 1 = 1 ∨ leAt c.params 3 1 = 2 ∨ leAt c.params 3 1 = 4 else leAt c.params 3 1 = 0) ∧ (if 4 = 0 ∨ 4 = 4 then leAt c.params 4 1 ≤ 1 else leAt c.params 4 1 = 0) ∧ (if 4 = 0 then leAt c.params 5 1 ≤ 1 else leAt c.params 5 1 = 0) ∧ (if 4 = 9 ∨ 4 = 10 then leAt c.params 6 1 ≤ 63 else leAt c.params 6 1 = 0) ∧ leAt c.params 7 1 = 0 ∧ (if 4 = 6 then 1 ≤ leAt c.params 8 1 ∧ leAt c.params 8 1 ≤ 8 ∧ 1 ≤ leAt c.params 9 1 ∧ leAt c.params 9 1 ≤ 8 else leAt c.params 8 1 = 0 ∧ leAt c.params 9 1 = 0) ∧ zerosAt c.params 10 6 = true) ∧
    ((s.slp (leAt c.params 1 1)).st = SlkSt.error ∨ (s.slp (leAt c.params 1 1)).st = SlkSt.disabled) :=
  ⟨readyOf (by decide +kernel), by decide +kernel, by decide +kernel, by decide +kernel, by decide +kernel⟩

theorem meets_LinkControl_44 :
    let s : State := lO cId qUp
    let c : Cmd := cId
    (Ready s c 160) ∧
    (s.tdiLocked = false) ∧
    (leAt c.params 4 1 = 0 ∨ s.rev2 = true) ∧
    (s.key.spdm = Spdm.established) ∧
    (c.params.length = 16 ∧ leAt c.params 0 1 = 5 ∧ (if 5 ≤ 4 ∨ 5 = 11 then leAt c.params 1 1 ≤ 3 else leAt c.params 1 1 = 0) ∧ (if 5 = 5 ∨ 5 = 6 ∨ 5 = 9 then leAt c.params 2 1 ≤ 63 else leAt c.params 2 1 = 0) ∧ (if 5 = 0 ∨ 5 = 3 then leAt c.params 3 1 = 1 ∨ leAt c.params 3 1 = 2 ∨ leAt c.params 3 1 = 4 else leAt c.params 3 1 = 0) ∧ (if 5 = 0 ∨ 5 = 4 then leAt c.params 4 1 ≤ 1 else leAt c.params 4 1 = 0) ∧ (if 5 = 0 then leAt c.params 5 1 ≤ 1 else leAt c.params 5 1 = 0) ∧ (if 5 = 9 ∨ 5 = 10 then leAt c.params 6 1 ≤ 63 else leAt c.params 6 1 = 0) ∧ leAt c.params 7 1 = 0 ∧ (if 5 = 6 then 1 ≤ leAt c.params 8 1 ∧ leAt c.params 8 1 ≤ 8 ∧ 1 ≤ leAt c.params 9 1 ∧ leAt c.params 9 1 ≤ 8 else leAt c.params 8 1 = 0 ∧ leAt c.params 9 1 = 0) ∧ zerosAt c.params 10 6 = true) :=
  ⟨readyOf (by decide +kernel), by decide +kernel, by decide +kernel, by decide +kernel, by decide +kernel⟩

theorem meets_LinkControl_45 :
    let s : State := lO cEn qUp
    let c : Cmd := cEn
    (Ready s c 160) ∧
    (s.tdiLocked = false) ∧
    (leAt c.params 4 1 = 0 ∨ s.rev2 = true) ∧
    (s.key.spdm = Spdm.established) ∧
    (c.params.length = 16 ∧ leAt c.params 0 1 = 6 ∧ (if 6 ≤ 4 ∨ 6 = 11 then leAt c.params 1 1 ≤ 3 else leAt c.params 1 1 = 0) ∧ (if 6 = 5 ∨ 6 = 6 ∨ 6 = 9 then leAt c.params 2 1 ≤ 63 else leAt c.params 2 1 = 0) ∧ (if 6 = 0 ∨ 6 = 3 then leAt c.params 3 1 = 1 ∨ leAt c.params 3 1 = 2 ∨ leAt c.params 3 1 = 4 else leAt c.params 3 1 = 0) ∧ (if 6 = 0 ∨ 6 = 4 then leAt c.params 4 1 ≤ 1 else leAt c.params 4 1 = 0) ∧ (if 6 = 0 then leAt c.params 5 1 ≤ 1 else leAt c.params 5 1 = 0) ∧ (if 6 = 9 ∨ 6 = 10 then leAt c.params 6 1 ≤ 63 else leAt c.params 6 1 = 0) ∧ leAt c.params 7 1 = 0 ∧ (if 6 = 6 then 1 ≤ leAt c.params 8 1 ∧ leAt c.params 8 1 ≤ 8 ∧ 1 ≤ leAt c.params 9 1 ∧ leAt c.params 9 1 ≤ 8 else leAt c.params 8 1 = 0 ∧ leAt c.params 9 1 = 0) ∧ zerosAt c.params 10 6 = true) :=
  ⟨readyOf (by decide +kernel), by decide +kernel, by decide +kernel, by decide +kernel, by decide +kernel⟩

theorem meets_LinkControl_46 :
    let s : State := lO cId qUp
    let c : Cmd := cId
    (Ready s c 160) ∧
    (s.tdiLocked = false) ∧
    (leAt c.params 4 1 = 0 ∨ s.rev2 = true) ∧
    (c.params.length = 16 ∧ leAt c.params 0 1 = 5 ∧ (if 5 ≤ 4 ∨ 5 = 11 then leAt c.params 1 1 ≤ 3 else leAt c.params 1 1 = 0) ∧ (if 5 = 5 ∨ 5 = 6 ∨ 5 = 9 then leAt c.params 2 1 ≤ 63 else leAt c.params 2 1 = 0) ∧ (if 5 = 0 ∨ 5 = 3 then leAt c.params 3 1 = 1 ∨ leAt c.params 3 1 = 2 ∨ leAt c.params 3 1 = 4 else leAt c.params 3 1 = 0) ∧ (if 5 = 0 ∨ 5 = 4 then leAt c.params 4 1 ≤ 1 else leAt c.params 4 1 = 0) ∧ (if 5 = 0 then leAt c.params 5 1 ≤ 1 else leAt c.params 5 1 = 0) ∧ (if 5 = 9 ∨ 5 = 10 then leAt c.params 6 1 ≤ 63 else leAt c.params 6 1 = 0) ∧ leAt c.params 7 1 = 0 ∧ (if 5 = 6 then 1 ≤ leAt c.params 8 1 ∧ leAt c.params 8 1 ≤ 8 ∧ 1 ≤ leAt c.params 9 1 ∧ leAt c.params 9 1 ≤ 8 else leAt c.params 8 1 = 0 ∧ leAt c.params 9 1 = 0) ∧ zerosAt c.params 10 6 = true) :=
  ⟨readyOf (by decide +kernel), by decide +kernel, by decide +kernel, by decide +kernel⟩

theorem meets_LinkControl_47 :
    let s : State := lO cEn qUp
    let c : Cmd := cEn
    (Ready s c 160) ∧
    (s.tdiLocked = false) ∧
    (leAt c.params 4 1 = 0 ∨ s.rev2 = true) ∧
    (c.params.length = 16 ∧ leAt c.params 0 1 = 6 ∧ (if 6 ≤ 4 ∨ 6 = 11 then leAt c.params 1 1 ≤ 3 else leAt c.params 1 1 = 0) ∧ (if 6 = 5 ∨ 6 = 6 ∨ 6 = 9 then leAt c.params 2 1 ≤ 63 else leAt c.params 2 1 = 0) ∧ (if 6 = 0 ∨ 6 = 3 then leAt c.params 3 1 = 1 ∨ leAt c.params 3 1 = 2 ∨ leAt c.params 3 1 = 4 else leAt c.params 3 1 = 0) ∧ (if 6 = 0 ∨ 6 = 4 then leAt c.params 4 1 ≤ 1 else leAt c.params 4 1 = 0) ∧ (if 6 = 0 then leAt c.params 5 1 ≤ 1 else leAt c.params 5 1 = 0) ∧ (if 6 = 9 ∨ 6 = 10 then leAt c.params 6 1 ≤ 63 else leAt c.params 6 1 = 0) ∧ leAt c.params 7 1 = 0 ∧ (if 6 = 6 then 1 ≤ leAt c.params 8 1 ∧ leAt c.params 8 1 ≤ 8 ∧ 1 ≤ leAt c.params 9 1 ∧ leAt c.params 9 1 ≤ 8 else leAt c.params 8 1 = 0 ∧ leAt c.params 9 1 = 0) ∧ zerosAt c.params 10 6 = true) :=
  ⟨readyOf (by decide +kernel), by decide +kernel, by decide +kernel, by decide +kernel⟩

theorem meets_LinkControl_48 :
    let s : State := fol (lO cBr qUp)
    let c : Cmd := cBr
    (Ready s c 160) ∧
    (s.tdiLocked = false) ∧
    (leAt c.params 4 1 = 0 ∨ s.rev2 = true) ∧
    (c.params.length = 16 ∧ leAt c.params 0 1 = 7 ∧ (if 7 ≤ 4 ∨ 7 = 11 then leAt c.params 1 1 ≤ 3 else leAt c.params 1 1 = 0) ∧ (if 7 = 5 ∨ 7 = 6 ∨ 7 = 9 then leAt c.params 2 1 ≤ 63 else leAt c.params 2 1 = 0) ∧ (if 7 = 0 ∨ 7 = 3 then leAt c.params 3 1 = 1 ∨ leAt c.params 3 1 = 2 ∨ leAt c.params 3 1 = 4 else leAt c.params 3 1 = 0) ∧ (if 7 = 0 ∨ 7 = 4 then leAt c.params 4 1 ≤ 1 else leAt c.params 4 1 = 0) ∧ (if 7 = 0 then leAt c.params 5 1 ≤ 1 else leAt c.params 5 1 = 0) ∧ (if 7 = 9 ∨ 7 = 10 then leAt c.params 6 1 ≤ 63 else leAt c.params 6 1 = 0) ∧ leAt c.params 7 1 = 0 ∧ (if 7 = 6 then 1 ≤ leAt c.params 8 1 ∧ leAt c.params 8 1 ≤ 8 ∧ 1 ≤ leAt c.params 9 1 ∧ leAt c.params 9 1 ≤ 8 else leAt c.params 8 1 = 0 ∧ leAt c.params 9 1 = 0) ∧ zerosAt c.params 10 6 = true) ∧
    (fld s.tb.ctrl 0 2 = 2 ∨ s.slk.root = false ∧ s.slk.rootId ≠ none) :=
  ⟨readyOf (by decide +kernel), by decide +kernel, by decide +kernel, by decide +kernel, by decide +kernel⟩

theorem meets_LinkControl_49 :
    let s : State := lO cBr qUp
    let c : Cmd := cBr
    (Ready s c 160) ∧
    (s.tdiLocked = false) ∧
    (leAt c.params 4 1 = 0 ∨ s.rev2 = true) ∧
    (c.params.length = 16 ∧ leAt c.params 0 1 = 7 ∧ (if 7 ≤ 4 ∨ 7 = 11 then leAt c.params 1 1 ≤ 3 else leAt c.params 1 1 = 0) ∧ (if 7 = 5 ∨ 7 = 6 ∨ 7 = 9 then leAt c.params 2 1 ≤ 63 else leAt c.params 2 1 = 0) ∧ (if 7 = 0 ∨ 7 = 3 then leAt c.params 3 1 = 1 ∨ leAt c.params 3 1 = 2 ∨ leAt c.params 3 1 = 4 else leAt c.params 3 1 = 0) ∧ (if 7 = 0 ∨ 7 = 4 then leAt c.params 4 1 ≤ 1 else leAt c.params 4 1 = 0) ∧ (if 7 = 0 then leAt c.params 5 1 ≤ 1 else leAt c.params 5 1 = 0) ∧ (if 7 = 9 ∨ 7 = 10 then leAt c.params 6 1 ≤ 63 else leAt c.params 6 1 = 0) ∧ leAt c.params 7 1 = 0 ∧ (if 7 = 6 then 1 ≤ leAt c.params 8 1 ∧ leAt c.params 8 1 ≤ 8 ∧ 1 ≤ leAt c.params 9 1 ∧ leAt c.params 9 1 ≤ 8 else leAt c.params 8 1 = 0 ∧ leAt c.params 9 1 = 0) ∧ zerosAt c.params 10 6 = true) ∧
    (fld s.tb.ctrl 0 2 ≠ 2) ∧
    (s.slk.root = true ∨ s.slk.rootId = none) ∧
    (∃ k < 4, (s.slp k).st = SlkSt.up) :=
  ⟨readyOf (by decide +kernel), by decide +kernel, by decide +kernel, by decide +kernel, by decide +kernel, by decide +kernel, by decide +kernel⟩

theorem meets_LinkControl_50 :
    let s : State := lO cBr {}
    let c : Cmd := cBr
    (Ready s c 160) ∧
    (s.tdiLocked = false) ∧
    (leAt c.params 4 1 = 0 ∨ s.rev2 = true) ∧
    (c.params.length = 16 ∧ leAt c.params 0 1 = 7 ∧ (if 7 ≤ 4 ∨ 7 = 11 then leAt c.params 1 1 ≤ 3 else leAt c.params 1 1 = 0) ∧ (if 7 = 5 ∨ 7 = 6 ∨ 7 = 9 then leAt c.params 2 1 ≤ 63 else leAt c.params 2 1 = 0) ∧ (if 7 = 0 ∨ 7 = 3 then leAt c.params 3 1 = 1 ∨ leAt c.params 3 1 = 2 ∨ leAt c.params 3 1 = 4 else leAt c.params 3 1 = 0) ∧ (if 7 = 0 ∨ 7 = 4 then leAt c.params 4 1 ≤ 1 else leAt c.params 4 1 = 0) ∧ (if 7 = 0 then leAt c.params 5 1 ≤ 1 else leAt c.params 5 1 = 0) ∧ (if 7 = 9 ∨ 7 = 10 then leAt c.params 6 1 ≤ 63 else leAt c.params 6 1 = 0) ∧ leAt c.params 7 1 = 0 ∧ (if 7 = 6 then 1 ≤ leAt c.params 8 1 ∧ leAt c.params 8 1 ≤ 8 ∧ 1 ≤ leAt c.params 9 1 ∧ leAt c.params 9 1 ≤ 8 else leAt c.params 8 1 = 0 ∧ leAt c.params 9 1 = 0) ∧ zerosAt c.params 10 6 = true) ∧
    (fld s.tb.ctrl 0 2 ≠ 2) ∧
    (s.slk.root = true ∨ s.slk.rootId = none) ∧
    (∀ k < 4, (s.slp k).st ≠ SlkSt.up) :=
  ⟨readyOf (by decide +kernel), by decide +kernel, by decide +kernel, by decide +kernel, by decide +kernel, by decide +kernel, by decide +kernel⟩

theorem meets_LinkControl_51 :
    let s : State := lO cBr {}
    let c : Cmd := cBr
    (Ready s c 160) ∧
    (s.tdiLocked = false) ∧
    (leAt c.params 4 1 = 0 ∨ s.rev2 = true) ∧
    (c.params.length = 16 ∧ leAt c.params 0 1 = 7 ∧ (if 7 ≤ 4 ∨ 7 = 11 then leAt c.params 1 1 ≤ 3 else leAt c.params 1 1 = 0) ∧ (if 7 = 5 ∨ 7 = 6 ∨ 7 = 9 then leAt c.params 2 1 ≤ 63 else leAt c.params 2 1 = 0) ∧ (if 7 = 0 ∨ 7 = 3 then leAt c.params 3 1 = 1 ∨ leAt c.params 3 1 = 2 ∨ leAt c.params 3 1 = 4 else leAt c.params 3 1 = 0) ∧ (if 7 = 0 ∨ 7 = 4 then leAt c.params 4 1 ≤ 1 else leAt c.params 4 1 = 0) ∧ (if 7 = 0 then leAt c.params 5 1 ≤ 1 else leAt c.params 5 1 = 0) ∧ (if 7 = 9 ∨ 7 = 10 then leAt c.params 6 1 ≤ 63 else leAt c.params 6 1 = 0) ∧ leAt c.params 7 1 = 0 ∧ (if 7 = 6 then 1 ≤ leAt c.params 8 1 ∧ leAt c.params 8 1 ≤ 8 ∧ 1 ≤ leAt c.params 9 1 ∧ leAt c.params 9 1 ≤ 8 else leAt c.params 8 1 = 0 ∧ leAt c.params 9 1 = 0) ∧ zerosAt c.params 10 6 = true) ∧
    (fld s.tb.ctrl 0 2 ≠ 2) ∧
    (s.slk.root = true ∨ s.slk.rootId = none) ∧
    (∀ k < 4, (s.slp k).st ≠ SlkSt.up ∧ (s.slp k).st ≠ SlkSt.retrain) :=
  ⟨readyOf (by decide +kernel), by decide +kernel, by decide +kernel, by decide +kernel, by decide +kernel, by decide +kernel, by decide +kernel⟩

theorem meets_LinkControl_52 :
    let s : State := exc (lO cJo qUp)
    let c : Cmd := cJo
    (Ready s c 160) ∧
    (s.tdiLocked = false) ∧
    (leAt c.params 4 1 = 0 ∨ s.rev2 = true) ∧
    (c.params.length = 16 ∧ leAt c.params 0 1 = 8 ∧ (if 8 ≤ 4 ∨ 8 = 11 then leAt c.params 1 1 ≤ 3 else leAt c.params 1 1 = 0) ∧ (if 8 = 5 ∨ 8 = 6 ∨ 8 = 9 then leAt c.params 2 1 ≤ 63 else leAt c.params 2 1 = 0) ∧ (if 8 = 0 ∨ 8 = 3 then leAt c.params 3 1 = 1 ∨ leAt c.params 3 1 = 2 ∨ leAt c.params 3 1 = 4 else leAt c.params 3 1 = 0) ∧ (if 8 = 0 ∨ 8 = 4 then leAt c.params 4 1 ≤ 1 else leAt c.params 4 1 = 0) ∧ (if 8 = 0 then leAt c.params 5 1 ≤ 1 else leAt c.params 5 1 = 0) ∧ (if 8 = 9 ∨ 8 = 10 then leAt c.params 6 1 ≤ 63 else leAt c.params 6 1 = 0) ∧ leAt c.params 7 1 = 0 ∧ (if 8 = 6 then 1 ≤ leAt c.params 8 1 ∧ leAt c.params 8 1 ≤ 8 ∧ 1 ≤ leAt c.params 9 1 ∧ leAt c.params 9 1 ≤ 8 else leAt c.params 8 1 = 0 ∧ leAt c.params 9 1 = 0) ∧ zerosAt c.params 10 6 = true) ∧
    (s.openStreams ≠ 0 ∨ s.anyExcite = true) :=
  ⟨readyOf (by decide +kernel), by decide +kernel, by decide +kernel, by decide +kernel, by decide +kernel⟩

theorem meets_LinkControl_53 :
    let s : State := lO cJo qUp
    let c : Cmd := cJo
    (Ready s c 160) ∧
    (s.tdiLocked = false) ∧
    (leAt c.params 4 1 = 0 ∨ s.rev2 = true) ∧
    (c.params.length = 16 ∧ leAt c.params 0 1 = 8 ∧ (if 8 ≤ 4 ∨ 8 = 11 then leAt c.params 1 1 ≤ 3 else leAt c.params 1 1 = 0) ∧ (if 8 = 5 ∨ 8 = 6 ∨ 8 = 9 then leAt c.params 2 1 ≤ 63 else leAt c.params 2 1 = 0) ∧ (if 8 = 0 ∨ 8 = 3 then leAt c.params 3 1 = 1 ∨ leAt c.params 3 1 = 2 ∨ leAt c.params 3 1 = 4 else leAt c.params 3 1 = 0) ∧ (if 8 = 0 ∨ 8 = 4 then leAt c.params 4 1 ≤ 1 else leAt c.params 4 1 = 0) ∧ (if 8 = 0 then leAt c.params 5 1 ≤ 1 else leAt c.params 5 1 = 0) ∧ (if 8 = 9 ∨ 8 = 10 then leAt c.params 6 1 ≤ 63 else leAt c.params 6 1 = 0) ∧ leAt c.params 7 1 = 0 ∧ (if 8 = 6 then 1 ≤ leAt c.params 8 1 ∧ leAt c.params 8 1 ≤ 8 ∧ 1 ≤ leAt c.params 9 1 ∧ leAt c.params 9 1 ≤ 8 else leAt c.params 8 1 = 0 ∧ leAt c.params 9 1 = 0) ∧ zerosAt c.params 10 6 = true) ∧
    (s.openStreams = 0) ∧
    (s.anyExcite = false) ∧
    (s.slk.root = true ∨ s.slk.rootId = none ∨ ∃ m, s.slk.rootId = some m ∧ s.route m.toNat = none) :=
  ⟨readyOf (by decide +kernel), by decide +kernel, by decide +kernel, by decide +kernel, by decide +kernel, by decide +kernel, by decide +kernel⟩

theorem meets_LinkControl_54 :
    let s : State := lO cBi9 qUp
    let c : Cmd := cBi9
    (Ready s c 160) ∧
    (s.tdiLocked = false) ∧
    (leAt c.params 4 1 = 0 ∨ s.rev2 = true) ∧
    (c.params.length = 16 ∧ leAt c.params 0 1 = 9 ∧ (if 9 ≤ 4 ∨ 9 = 11 then leAt c.params 1 1 ≤ 3 else leAt c.params 1 1 = 0) ∧ (if 9 = 5 ∨ 9 = 6 ∨ 9 = 9 then leAt c.params 2 1 ≤ 63 else leAt c.params 2 1 = 0) ∧ (if 9 = 0 ∨ 9 = 3 then leAt c.params 3 1 = 1 ∨ leAt c.params 3 1 = 2 ∨ leAt c.params 3 1 = 4 else leAt c.params 3 1 = 0) ∧ (if 9 = 0 ∨ 9 = 4 then leAt c.params 4 1 ≤ 1 else leAt c.params 4 1 = 0) ∧ (if 9 = 0 then leAt c.params 5 1 ≤ 1 else leAt c.params 5 1 = 0) ∧ (if 9 = 9 ∨ 9 = 10 then leAt c.params 6 1 ≤ 63 else leAt c.params 6 1 = 0) ∧ leAt c.params 7 1 = 0 ∧ (if 9 = 6 then 1 ≤ leAt c.params 8 1 ∧ leAt c.params 8 1 ≤ 8 ∧ 1 ≤ leAt c.params 9 1 ∧ leAt c.params 9 1 ≤ 8 else leAt c.params 8 1 = 0 ∧ leAt c.params 9 1 = 0) ∧ zerosAt c.params 10 6 = true) ∧
    (s.route (leAt c.params 2 1) = none ∨ ∃ k, s.route (leAt c.params 2 1) = some (k, [])) :=
  ⟨readyOf (by decide +kernel), by decide +kernel, by decide +kernel, by decide +kernel, by exact .inl rfl⟩

theorem meets_LinkControl_55 :
    let s : State := farB
    let c : Cmd := cBi9
    let k : ℕ := 1
    let e : ℕ × ℕ := (0, 0)
    let l : List (ℕ × ℕ) := [(1, 2)]
    (Ready s c 160) ∧
    (s.tdiLocked = false) ∧
    (leAt c.params 4 1 = 0 ∨ s.rev2 = true) ∧
    (c.params.length = 16 ∧ leAt c.params 0 1 = 9 ∧ (if 9 ≤ 4 ∨ 9 = 11 then leAt c.params 1 1 ≤ 3 else leAt c.params 1 1 = 0) ∧ (if 9 = 5 ∨ 9 = 6 ∨ 9 = 9 then leAt c.params 2 1 ≤ 63 else leAt c.params 2 1 = 0) ∧ (if 9 = 0 ∨ 9 = 3 then leAt c.params 3 1 = 1 ∨ leAt c.params 3 1 = 2 ∨ leAt c.params 3 1 = 4 else leAt c.params 3 1 = 0) ∧ (if 9 = 0 ∨ 9 = 4 then leAt c.params 4 1 ≤ 1 else leAt c.params 4 1 = 0) ∧ (if 9 = 0 then leAt c.params 5 1 ≤ 1 else leAt c.params 5 1 = 0) ∧ (if 9 = 9 ∨ 9 = 10 then leAt c.params 6 1 ≤ 63 else leAt c.params 6 1 = 0) ∧ leAt c.params 7 1 = 0 ∧ (if 9 = 6 then 1 ≤ leAt c.params 8 1 ∧ leAt c.params 8 1 ≤ 8 ∧ 1 ≤ leAt c.params 9 1 ∧ leAt c.params 9 1 ≤ 8 else leAt c.params 8 1 = 0 ∧ leAt c.params 9 1 = 0) ∧ zerosAt c.params 10 6 = true) ∧
    (s.route (leAt c.params 2 1) = some (k, e :: l)) :=
  ⟨readyOf (by decide +kernel), by decide +kernel, by decide +kernel, by decide +kernel, by decide +kernel⟩

theorem meets_LinkControl_56 :
    let s : State := lO cUn qUp
    let c : Cmd := cUn
    (Ready s c 160) ∧
    (s.tdiLocked = false) ∧
    (leAt c.params 4 1 = 0 ∨ s.rev2 = true) ∧
    (c.params.length = 16 ∧ leAt c.params 0 1 = 10 ∧ (if 10 ≤ 4 ∨ 10 = 11 then leAt c.params 1 1 ≤ 3 else leAt c.params 1 1 = 0) ∧ (if 10 = 5 ∨ 10 = 6 ∨ 10 = 9 then leAt c.params 2 1 ≤ 63 else leAt c.params 2 1 = 0) ∧ (if 10 = 0 ∨ 10 = 3 then leAt c.params 3 1 = 1 ∨ leAt c.params 3 1 = 2 ∨ leAt c.params 3 1 = 4 else leAt c.params 3 1 = 0) ∧ (if 10 = 0 ∨ 10 = 4 then leAt c.params 4 1 ≤ 1 else leAt c.params 4 1 = 0) ∧ (if 10 = 0 then leAt c.params 5 1 ≤ 1 else leAt c.params 5 1 = 0) ∧ (if 10 = 9 ∨ 10 = 10 then leAt c.params 6 1 ≤ 63 else leAt c.params 6 1 = 0) ∧ leAt c.params 7 1 = 0 ∧ (if 10 = 6 then 1 ≤ leAt c.params 8 1 ∧ leAt c.params 8 1 ≤ 8 ∧ 1 ≤ leAt c.params 9 1 ∧ leAt c.params 9 1 ≤ 8 else leAt c.params 8 1 = 0 ∧ leAt c.params 9 1 = 0) ∧ zerosAt c.params 10 6 = true) :=
  ⟨readyOf (by decide +kernel), by decide +kernel, by decide +kernel, by decide +kernel⟩

theorem meets_LinkControl_57 :
    let s : State := lO cPr qUp
    let c : Cmd := cPr
    (Ready s c 160) ∧
    (s.tdiLocked = false) ∧
    (leAt c.params 4 1 = 0 ∨ s.rev2 = true) ∧
    (c.params.length = 16 ∧ leAt c.params 0 1 = 11 ∧ (if 11 ≤ 4 ∨ 11 = 11 then leAt c.params 1 1 ≤ 3 else leAt c.params 1 1 = 0) ∧ (if 11 = 5 ∨ 11 = 6 ∨ 11 = 9 then leAt c.params 2 1 ≤ 63 else leAt c.params 2 1 = 0) ∧ (if 11 = 0 ∨ 11 = 3 then leAt c.params 3 1 = 1 ∨ leAt c.params 3 1 = 2 ∨ leAt c.params 3 1 = 4 else leAt c.params 3 1 = 0) ∧ (if 11 = 0 ∨ 11 = 4 then leAt c.params 4 1 ≤ 1 else leAt c.params 4 1 = 0) ∧ (if 11 = 0 then leAt c.params 5 1 ≤ 1 else leAt c.params 5 1 = 0) ∧ (if 11 = 9 ∨ 11 = 10 then leAt c.params 6 1 ≤ 63 else leAt c.params 6 1 = 0) ∧ leAt c.params 7 1 = 0 ∧ (if 11 = 6 then 1 ≤ leAt c.params 8 1 ∧ leAt c.params 8 1 ≤ 8 ∧ 1 ≤ leAt c.params 9 1 ∧ leAt c.params 9 1 ≤ 8 else leAt c.params 8 1 = 0 ∧ leAt c.params 9 1 = 0) ∧ zerosAt c.params 10 6 = true) :=
  ⟨readyOf (by decide +kernel), by decide +kernel, by decide +kernel, by decide +kernel⟩

theorem meets_LinkRetrains_19 :
    let s : State := dn
    let p : Fin 4 := 0
    (s.slp p.val).st ≠ SlkSt.up :=
  by decide +kernel

theorem meets_LinkRetrains_20 :
    let s : State := lk qUp
    let p : Fin 4 := 0
    let v : ℕ := 4
    min v (s.slp p.val).widthMax ≤ widthOf (s.slp p.val).width :=
  by decide +kernel

theorem meets_LinkRetrains_21 :
    let s : State := nar
    let p : Fin 4 := 0
    let v : ℕ := 4
    widthOf (s.slp p.val).width < min v (s.slp p.val).widthMax :=
  by decide +kernel

theorem meets_LinkRetrains_22 :
    let s : State := lk qUp
    s.streams = [] :=
  by decide +kernel

theorem meets_LinkRoutes_6 :
    let s : State := mesh2
    let src : ℕ := 0
    let dst : ℕ := 9
    let k : ℕ := 2
    let h : List (ℕ × ℕ) := hop2
    let j : ℕ := 1
    (s.routeOf src dst = some (k, h)) ∧
    (s.candInUse src dst = none) ∧
    (∀ e ∈ h, s.linkUpAt e.1 e.2 = true) ∧
    (1 ≤ j) ∧
    (j < k) :=
  ⟨by decide +kernel, by decide +kernel, by decide +kernel, by decide +kernel, by decide +kernel⟩

theorem meets_LinkRoutes_7 :
    let s : State := meshH
    let src : ℕ := 0
    let dst : ℕ := 9
    let k : ℕ := 1
    let h : List (ℕ × ℕ) := hop1
    let j : ℕ := 5
    (s.routeOf src dst = some (k, h)) ∧
    (s.candInUse src dst = none) ∧
    (¬∀ e ∈ h, s.linkUpAt e.1 e.2 = true) ∧
    (1 ≤ j) ∧
    (j ≤ 5) :=
  ⟨by decide +kernel, by decide +kernel, by decide +kernel, by decide +kernel, by decide +kernel⟩

theorem meets_LinkRoutes_8 :
    let s : State := cut
    let src : ℕ := 0
    let dst : ℕ := 9
    (s.candInUse src dst = none) ∧
    (∀ (k : ℕ), 1 ≤ k → k ≤ 5 → s.candRoute true dst k = none) :=
  ⟨by decide +kernel, by decide +kernel⟩

theorem meets_LinkRoutes_9 :
    let s : State := mesh0
    let dst : ℕ := 9
    let k : ℕ := 1
    let h : List (ℕ × ℕ) := hop1
    let e : ℕ × ℕ := (1, 2)
    (s.upRoute dst = some (k, h)) ∧
    (e ∈ h) :=
  ⟨by decide +kernel, by decide +kernel⟩

theorem meets_LinkTraining_15 :
    let s : State := tS .trainBit
    let p : Fin 4 := 0
    let r : PhaseResult := ph 0xF 5
    ((s.slp p.val).st = SlkSt.trainBit) ∧
    (goodWidth r.lanes (min (s.slp p.val).widthMax ((s.slp p.val).agreed.getD 4)) ≠ 0) :=
  ⟨by decide +kernel, by decide +kernel⟩

theorem meets_LinkTraining_16 :
    let s : State := lk { qUp with st := .retrain }
    let p : Fin 4 := 0
    let r : PhaseResult := ph 1 5
    ((s.slp p.val).st = SlkSt.retrain) ∧
    ((s.slp p.val).retraining = false) ∧
    (goodWidth r.lanes (min (s.slp p.val).widthMax ((s.slp p.val).agreed.getD 4)) ≠ 0) :=
  ⟨by decide +kernel, by decide +kernel, by decide +kernel⟩

theorem meets_LinkTraining_17 :
    let s : State := lk { qUp with st := .retrain }
    let p : Fin 4 := 0
    let r : PhaseResult := ph 0 5
    ((s.slp p.val).st = SlkSt.trainBit ∨ (s.slp p.val).st = SlkSt.retrain ∧ (s.slp p.val).retraining = false) ∧
    (goodWidth r.lanes (min (s.slp p.val).widthMax ((s.slp p.val).agreed.getD 4)) = 0) :=
  ⟨by decide +kernel, by decide +kernel⟩

theorem meets_LinkTraining_18 :
    let s : State := ctl8 (tS .trainCfg)
    let p : Fin 4 := 0
    let r : PhaseResult := ph 0xF 63
    ((s.slp p.val).st = SlkSt.trainCfg ∨ (s.slp p.val).st = SlkSt.retrain ∧ (s.slp p.val).retraining = true) ∧
    (bit s.slk.ctrl 8 = true) ∧
    (¬(s.glb.stage = 1 ∧ s.glb.bootMode = 5)) ∧
    (r.partner.toNat ≠ s.neighbour s.node p.val) :=
  ⟨by decide +kernel, by decide +kernel, by decide +kernel, by decide +kernel⟩

theorem meets_LinkTraining_19 :
    let s : State := lk { qUp with st := .trainCfg, backoff := true, reqSent := some 4 }
    let p : Fin 4 := 0
    let r : PhaseResult := ph 0xF 1
    ((s.slp p.val).st = SlkSt.trainCfg ∨ (s.slp p.val).st = SlkSt.retrain ∧ (s.slp p.val).retraining = true) ∧
    (bit s.slk.ctrl 8 = false ∨ s.glb.stage = 1 ∧ s.glb.bootMode = 5 ∨ r.partner.toNat = s.neighbour s.node p.val) ∧
    ((s.slp p.val).backoff = true) ∧
    ((s.slp p.val).reqSent ≠ none) :=
  ⟨by decide +kernel, by decide +kernel, by decide +kernel, by decide +kernel⟩

theorem meets_LinkTraining_20 :
    let s : State := tS .trainCfg
    let p : Fin 4 := 0
    let r : PhaseResult := ph 0xF 1
    ((s.slp p.val).st = SlkSt.trainCfg ∨ (s.slp p.val).st = SlkSt.retrain ∧ (s.slp p.val).retraining = true) ∧
    (bit s.slk.ctrl 8 = false ∨ s.glb.stage = 1 ∧ s.glb.bootMode = 5 ∨ r.partner.toNat = s.neighbour s.node p.val) ∧
    ((s.slp p.val).backoff = false ∨ (s.slp p.val).reqSent = none) :=
  ⟨by decide +kernel, by decide +kernel, by decide +kernel⟩

theorem meets_LinkTraining_21 :
    let s : State := lq l7
    let p : Fin 4 := 0
    let i : ℕ := 1
    let u : Unacked := { ua 1 7 with frame := { fDat with seq := 1 } }
    (s.slp p.val).resume.unacked[i]? = some u :=
  by decide +kernel

end Part21

namespace Part22

def sn (fs : List (Nat × Nat × Nat)) : Cmd := rd 0x80 16 fs
def sn0 : Cmd := sn [(0, 2, 0xBEEF)]
def snA : Cmd := sn [(2, 1, 2), (4, 6, 0x123456789ABC)]
def snB : Cmd := sn [(2, 1, 1), (4, 6, 5)]
def unarm (s : State) : State := { s with obs.armed := false }
def noHold (s : State) : State := { s with obs.quillCtrl := s.obs.quillCtrl &&& ~~~ 1 }
def qu : Quill := { source := 3, tag := 9, origin := 5, late := 0x1FFFFFFFF }
def pre1 : State := { up t1 with tb.sfc := 99 }
def pinEn : State := { t1 with obs.quillCtrl := 0x1000 }
def tr1 : Trigger := { source := 2, tag := 7, rack := false }
def trS : State := { t1 with obs.upTriggers := [tr1] }
def dl : State := { up t1 with obs.dieLatch := 8 }
def w1c : State := { up t1 with cam.err := 0x7F, tb.err := 0x3F }
def w1cL : State := { w1c with key.tdi := .run }
def stl (off : BitVec 25) (w : Option W32) : State := { t1 with pmu.stalled := [{ side := .bar0, off := off, w := w, block := .cam }] }
def stx (off : BitVec 25) (w : Option W32) : Stalled := { side := .bar0, off := off, w := w, block := .cam }
def stv : State := stl 0xB0024 (some 3)
def stw : Stalled := stx 0xB0024 (some 3)

theorem meets_Snapshots_1 :
    (Ready (hold snB t1) snB 128) ∧
    (¬(snB.params.length = 16 ∧ leAt snB.params 2 1 < 4 ∧ leAt snB.params 3 1 = 0 ∧ (leAt snB.params 2 1 < 2 → leAt snB.params 4 6 = 0) ∧ leAt snB.params 10 6 = 0)) :=
  ⟨readyOf (by decide), by decide⟩

theorem meets_Snapshots_2 :
    (Ready (unarm (hold sn0 t1)) sn0 128) ∧
    (sn0.params.length = 16 ∧ leAt sn0.params 2 1 < 4 ∧ leAt sn0.params 3 1 = 0 ∧ (leAt sn0.params 2 1 < 2 → leAt sn0.params 4 6 = 0) ∧ leAt sn0.params 10 6 = 0) ∧
    ((unarm (hold sn0 t1)).obs.armed = false) :=
  ⟨readyOf (by decide), by decide, by decide⟩

theorem meets_Snapshots_3 :
    (Ready (hold snA t1) snA 128) ∧
    (snA.params.length = 16 ∧ leAt snA.params 2 1 < 4 ∧ leAt snA.params 3 1 = 0 ∧ (leAt snA.params 2 1 < 2 → leAt snA.params 4 6 = 0) ∧ leAt snA.params 10 6 = 0) ∧
    ((hold snA t1).obs.armed = true) ∧
    (leAt snA.params 2 1 = 2) :=
  ⟨readyOf (by decide), by decide, by decide, by decide⟩

theorem meets_Snapshots_4 :
    (Ready (noHold (hold sn0 t1)) sn0 128) ∧
    (sn0.params.length = 16 ∧ leAt sn0.params 2 1 < 4 ∧ leAt sn0.params 3 1 = 0 ∧ (leAt sn0.params 2 1 < 2 → leAt sn0.params 4 6 = 0) ∧ leAt sn0.params 10 6 = 0) ∧
    ((noHold (hold sn0 t1)).obs.armed = true) ∧
    (leAt sn0.params 2 1 = 0) ∧
    (bit (noHold (hold sn0 t1)).obs.quillCtrl 0 = false) ∧
    (sn0.late = 0) :=
  ⟨readyOf (by decide), by and_intros <;> decide⟩

theorem meets_QuillTriggers_1 :
    ((unarm t1).obs.armed = false) :=
  by decide

theorem meets_QuillTriggers_2d :
    (qu.also = (0 : BitVec 7)) ∧
    (qu.source < 7) :=
  ⟨by decide, by decide⟩

theorem meets_QuillTriggers_2e :
    (∃ d < 4, pre1.dieUp d = false) :=
  ⟨1, by decide⟩

theorem meets_QuillTriggers_3 :
    (bit (4294901759 : W32) 16 = false) :=
  by decide

theorem meets_QuillTriggers_4 :
    (bit (131071 : W32) 16 = true) :=
  by decide

theorem meets_QuillTriggers_5 :
    (bit t1.obs.quillCtrl 12 = false) :=
  by decide

theorem meets_QuillTriggers_6 :
    (bit pinEn.obs.quillCtrl 12 = true) ∧
    (pinEn.obs.pinLow = false) ∧
    (bit pinEn.obs.quillCtrl 13 = false) ∧
    (bit (65535 : BitVec 32) 16 = false) :=
  ⟨by decide, by decide, by decide, by decide⟩

theorem meets_QuillTriggers_9 :
    (bit (3 : W32) 0 = true) :=
  by decide

theorem meets_QuillTriggers_10 :
    (trS.obs.upTriggers = [tr1]) ∧
    (tr1.rack = false) :=
  ⟨by decide, by decide⟩

theorem meets_QuillTriggers_11 :
    (bit (up t1).obs.dieLatch 3 = false) :=
  by decide

theorem meets_QuillTriggers_12 :
    (bit dl.obs.dieLatch 3 = true) ∧
    (dl.dieUp 3 = true) :=
  ⟨by decide, by decide⟩

theorem meets_RegisterAccess_0 :
    (listed (BitVec.toNat (33554431 : BitVec 25)) = false) :=
  by decide

theorem meets_RegisterAccess_1 :
    (listed (BitVec.toNat (5242880 : BitVec 25)) = true) ∧
    ((up t1).offAt (BitVec.toNat (5242880 : BitVec 25)) = true) :=
  ⟨by decide, by decide⟩

theorem meets_RegisterAccess_01 :
    (1048576 ≤ 3145728 ∧ 2097152 ≤ (3145728 - 1048576) % 4194304) :=
  by decide

theorem meets_RegisterAccess_2 :
    (listed (BitVec.toNat (917644 : BitVec 25)) = true) ∧
    ((up t1).offAt (BitVec.toNat (917644 : BitVec 25)) = false) :=
  ⟨by decide, by decide⟩

theorem meets_RegisterAccess_4 :
    (listed (BitVec.toNat (33554431 : BitVec 25)) = false) :=
  by decide

theorem meets_RegisterAccess_5 :
    (listed (BitVec.toNat (5242880 : BitVec 25)) = true) ∧
    ((up t1).offAt (BitVec.toNat (5242880 : BitVec 25)) = true) :=
  ⟨by decide, by decide⟩

theorem meets_RegisterAccess_6 :
    (listed (BitVec.toNat (917508 : BitVec 25)) = true) ∧
    ((up t1).offAt (BitVec.toNat (917508 : BitVec 25)) = false) :=
  ⟨by decide, by decide⟩

theorem meets_RegisterAccess_8 :
    (w1cL.tdiLocked = true) :=
  by decide

theorem meets_RegisterAccess_10 :
    (1 ≠ 4) ∧
    (1 ≠ 8) :=
  ⟨by decide, by decide⟩

theorem meets_RegisterAccess_11 :
    ((stl (720900 : BitVec 25) none).pmu.stalled = [stx (720900 : BitVec 25) none]) ∧
    ((stl (720900 : BitVec 25) none).offAt (stx (720900 : BitVec 25) none).off.toNat = true) :=
  ⟨by decide, by decide⟩

def wakeCam : State := { up t1 with pmu.autowake := 0xFFFFFFFF }
def offCam : BitVec 25 := 0xB0004

theorem meets_RegisterAccess_14 :
    let s : State := up t1
    let off : BitVec 25 := offCam
    (listed off.toNat = true) ∧
    (s.offAt off.toNat = true) ∧
    (s.wakes off.toNat = none) :=
  ⟨by decide, by decide, by decide⟩

theorem meets_RegisterAccess_15 :
    let s : State := wakeCam
    let off : BitVec 25 := offCam
    let b : WakeBlock := .cam
    (listed off.toNat = true) ∧
    (s.offAt off.toNat = true) ∧
    (s.wakes off.toNat = some b) :=
  ⟨by decide, by decide, by decide⟩

theorem meets_RegisterAccess_16 :
    let s : State := up t1
    let off : BitVec 25 := 917508
    let hw : W32 := 0
    (listed off.toNat = true) ∧
    (s.offAt off.toNat = false) ∧
    (hw = 0 ∨ w1cPlace (placeOf off.toNat) = false) :=
  ⟨by decide, by decide, by decide⟩

theorem meets_RegisterAccess_17 :
    let s : State := w1c
    let off : BitVec 25 := 0xB0024
    let hw : W32 := 1
    (listed off.toNat = true) ∧
    (s.offAt off.toNat = false) ∧
    (hw ≠ 0) ∧
    (w1cPlace (placeOf off.toNat) = true) :=
  ⟨by decide, by decide, by decide, by decide⟩

theorem meets_RegisterAccess_18 :
    let s : State := stl 0xB0004 none
    ∀ x ∈ s.pmu.stalled, s.offAt x.off.toNat = true :=
  by decide

theorem meets_RegisterAccess_19 :
    let s : State := stl 0xB0010 none
    let l : List Stalled := []
    let m : List Stalled := []
    let x : Stalled := stx 0xB0010 none
    (s.pmu.stalled = l ++ x :: m) ∧
    (∀ y ∈ l, s.offAt y.off.toNat = true) ∧
    (s.offAt x.off.toNat = false) ∧
    (x.w = none) :=
  ⟨by decide, by decide, by decide, by decide⟩

theorem meets_RegisterAccess_20 :
    let s : State := stv
    let l : List Stalled := []
    let m : List Stalled := []
    let x : Stalled := stw
    let v : W32 := 3
    (s.pmu.stalled = l ++ x :: m) ∧
    (∀ y ∈ l, s.offAt y.off.toNat = true) ∧
    (s.offAt x.off.toNat = false) ∧
    (x.w = some v) :=
  ⟨by decide, by decide, by decide, by decide⟩

end Part22

end Sys2Proof.Tests
end

section
/-!
SUPPORT. The rules of the sequencer's shared operations (chapter 6): what a fault, the next PC, a write of wD, a branch and an access of
the island's SRAM do at a well-formed instruction, and what a change of a tier-0 level does.
-/
namespace Sys2Proof.Machine
open Sys2Proof.Safety

/-! ### Bits and signed fields -/

theorem bit_setBit_self {n : Nat} (w : BitVec n) {i : Nat} (hi : i < n) : bit (setBit w i) i = true := by
  simp [bit, setBit, oneBit, BitVec.getLsbD_ofNat, hi]

/-- A field read as a two's complement number is the integer of its bit vector. -/
theorem sgn_eq_toInt (n v : Nat) : sgn n v = (BitVec.ofNat n v).toInt := by
  rw [BitVec.toInt_eq_toNat_cond, BitVec.toNat_ofNat]
  rfl

theorem qImm_eq (i : W32) : qImm i = i.toNat % 2 ^ 18 := by
  simp [qImm, fld, bits]

theorem ofNat_qImm (i : W32) : BitVec.ofNat 18 (qImm i) = BitVec.ofNat 18 i.toNat := by
  rw [qImm_eq]
  exact BitVec.eq_of_toNat_eq (by simp)

theorem sgn_qImm (i : W32) : sgn 18 (qImm i) = (BitVec.ofNat 18 i.toNat).toInt := by
  rw [sgn_eq_toInt, ofNat_qImm]

theorem qSext_eq (i : W32) : qSext i = (BitVec.ofNat 18 i.toNat).signExtend 32 := by
  rw [qSext, sgn_qImm]
  rfl

/-! ### Error bits, the FLL and wake sources -/

@[simp] theorem errAon_aon (s : State) (i : Nat) : (s.errAon i).aon = { s.aon with err := setBit s.aon.err i } := by
  simp [State.errAon]
@[simp] theorem errAon_mem (s : State) (i : Nat) : (s.errAon i).mem = s.mem := by simp [State.errAon]
@[simp] theorem errAon_pmu (s : State) (i : Nat) : (s.errAon i).pmu = s.pmu := by simp [State.errAon]
@[simp] theorem errAon_glb (s : State) (i : Nat) : (s.errAon i).glb = s.glb := by simp [State.errAon]
@[simp] theorem errAon_dies (s : State) (i : Nat) : (s.errAon i).dies = s.dies := by simp [State.errAon]
@[simp] theorem errAon_tb (s : State) (i : Nat) : (s.errAon i).tb = s.tb := by simp [State.errAon]
@[simp] theorem errAon_cores (s : State) (i : Nat) : (s.errAon i).cores = s.cores := by simp [State.errAon]
@[simp] theorem errAon_cmds (s : State) (i : Nat) : (s.errAon i).cmds = s.cmds := by simp [State.errAon]

@[simp] theorem fllUpdate_aon (s : State) : s.fllUpdate.aon = s.aon := rfl
@[simp] theorem fllUpdate_mem (s : State) : s.fllUpdate.mem = s.mem := rfl
@[simp] theorem fllUpdate_pmu (s : State) : s.fllUpdate.pmu = s.pmu := rfl
@[simp] theorem fllUpdate_glb (s : State) : s.fllUpdate.glb = s.glb := rfl
@[simp] theorem fllUpdate_dies (s : State) : s.fllUpdate.dies = s.dies := rfl
@[simp] theorem fllUpdate_tb (s : State) : s.fllUpdate.tb = s.tb := rfl
@[simp] theorem fllUpdate_cores (s : State) : s.fllUpdate.cores = s.cores := rfl
@[simp] theorem fllUpdate_cmds (s : State) : s.fllUpdate.cmds = s.cmds := rfl

@[simp] theorem wakeFire_aon (s : State) (i : Nat) : (s.wakeFire i).aon = s.aon := by
  simp only [State.wakeFire]
  split
  · rfl
  · split <;> rfl
@[simp] theorem wakeFire_mem (s : State) (i : Nat) : (s.wakeFire i).mem = s.mem := by
  simp only [State.wakeFire]
  split
  · rfl
  · split <;> rfl
theorem wakeFire_wakePend (s : State) (i : Nat) (h : s.pmu.dev ≠ .off) :
    (s.wakeFire i).pmu.wakePend = setBit s.pmu.wakePend i := by
  simp only [State.wakeFire, if_neg h]
  split <;> rfl

/-! ### One instruction -/

theorem seqStep_at {s : State} {op : Nat} (h : SeqAt s op) (body : W32 → State → State) :
    s.seqStep op body = body s.aon.seq.instr s := by
  simp [State.seqStep, h.running, h.gated, h.opcode, h.legal]

/-- R150: a word that Table 6.2 does not hold faults with ILLEGAL_OP. -/
theorem seqStep_illegal {s : State} {op : Nat} (hh : s.aon.seq.halted = false) (hw : s.aon.seq.waiting = false)
    (ho : qOp s.aon.seq.instr = op) (hl : qLegal s.aon.seq.instr = false) (body : W32 → State → State) :
    s.seqStep op body = s.seqFault 1 := by
  simp [State.seqStep, hh, hw, ho, hl]

theorem seqFaulted_seqFault (s : State) (code : BitVec 4) : SeqFaulted s (s.seqFault code) code := by
  simp [SeqFaulted, State.seqFault, bit_setBit_self]

theorem seqNext_of_lt {n : Nat} (h : n < 4096) (s : State) : s.seqNext n = { s with aon.seq.pc := n } :=
  if_pos h

/-- R153: from `s` to `t` the sequencer has halted with PC_RANGE and kept its registers. -/
def PcRangeFaulted (s t : State) : Prop :=
  t.aon.seq.fault = 6 ∧ t.aon.seq.halted = true ∧ t.aon.seq.run = false ∧ t.aon.seq.w = s.aon.seq.w ∧ bit t.aon.err 0 = true

theorem seqNext_of_ge {n : Nat} (h : 4096 ≤ n) (s : State) : PcRangeFaulted s (s.seqNext n) := by
  simp [PcRangeFaulted, State.seqNext, Nat.not_lt.2 h, bit_setBit_self]

theorem seqNext_succ {s : State} (h : s.aon.seq.pc < 4095) :
    s.seqNext (s.aon.seq.pc + 1) = { s with aon.seq.pc := s.aon.seq.pc + 1 } :=
  seqNext_of_lt (by omega) s

theorem seqSet_eq (q : Seq) (i : Nat) (v : W32) : q.set i v = { q with w := if i = 0 then q.w else tset 0 q.w i v } := by
  unfold Seq.set
  split <;> rfl

theorem seqWrite_eq {s : State} (h : s.aon.seq.pc < 4095) (v : W32) : s.seqWrite s.aon.seq.instr v = seqWrote s v := by
  rw [State.seqWrite, seqNext_of_lt (by omega), seqSet_eq]
  rfl

/-! ### Branches and jumps -/

/-- The target of a branch or jump: its offset counts from the instruction itself (R150). -/
def State.seqTarget (s : State) : Int := Int.ofNat s.aon.seq.pc + (BitVec.ofNat 18 s.aon.seq.instr.toNat).toInt

theorem seqJump_eq (s : State) :
    s.seqJump s.aon.seq.instr =
      if s.seqTarget < 0 then s.seqNext (s.seqTarget % 4096 + 4096).toNat else s.seqNext s.seqTarget.toNat := by
  rw [State.seqJump, sgn_qImm]
  rfl

theorem seqJump_inRange {s : State} (h0 : 0 ≤ s.seqTarget) (h1 : s.seqTarget < 4096) :
    s.seqJump s.aon.seq.instr = { s with aon.seq.pc := s.seqTarget.toNat } := by
  rw [seqJump_eq, if_neg (not_lt.2 h0)]
  exact seqNext_of_lt (by omega) s

theorem seqJump_outOfRange {s : State} (h : s.seqTarget < 0 ∨ 4096 ≤ s.seqTarget) :
    PcRangeFaulted s (s.seqJump s.aon.seq.instr) := by
  rw [seqJump_eq]
  split
  · exact seqNext_of_ge (by omega) s
  · exact seqNext_of_ge (by omega) s

theorem seqBranch_at {s : State} {op : Nat} (h : SeqAt s op) (c : W32 → W32 → Bool) :
    s.seqBranch op c =
      if c (s.aon.seq.reg (qD s.aon.seq.instr)) (s.aon.seq.reg (qA s.aon.seq.instr)) then s.seqJump s.aon.seq.instr
      else { s with aon.seq.pc := s.aon.seq.pc + 1 } := by
  rw [State.seqBranch, seqStep_at h, seqNext_succ h.room]

/-- A branch whose target lies in the program store. -/
theorem seqBranch_inRange {s : State} {op : Nat} (h : SeqAt s op) (h0 : 0 ≤ s.seqTarget) (h1 : s.seqTarget < 4096)
    {c : W32 → W32 → Bool} {p : Prop} [Decidable p]
    (hc : c (s.aon.seq.reg (qD s.aon.seq.instr)) (s.aon.seq.reg (qA s.aon.seq.instr)) = true ↔ p) :
    s.seqBranch op c =
      if p then { s with aon.seq.pc := s.seqTarget.toNat } else { s with aon.seq.pc := s.aon.seq.pc + 1 } := by
  rw [seqBranch_at h, seqJump_inRange h0 h1]
  exact if_congr hc rfl rfl

/-- A branch whose target lies outside the program store faults when it is taken, and only then. -/
theorem seqBranch_outOfRange {s : State} {op : Nat} (h : SeqAt s op) (ht : s.seqTarget < 0 ∨ 4096 ≤ s.seqTarget)
    {c : W32 → W32 → Bool} {p : Prop}
    (hc : c (s.aon.seq.reg (qD s.aon.seq.instr)) (s.aon.seq.reg (qA s.aon.seq.instr)) = true ↔ p) :
    (p → ∃ t, Host.Outcome.next (s.seqBranch op c) = (.next t : Host.Outcome State Fault Refusal) ∧ PcRangeFaulted s t) ∧
    (¬ p → Host.Outcome.next (s.seqBranch op c) =
      (.next { s with aon.seq.pc := s.aon.seq.pc + 1 } : Host.Outcome State Fault Refusal)) := by
  rw [seqBranch_at h]
  constructor
  · intro hp
    exact ⟨_, rfl, by rw [if_pos (hc.2 hp)]; exact seqJump_outOfRange ht⟩
  · intro hp
    rw [if_neg (fun hc' => hp (hc.1 hc'))]

/-! ### Loads and stores -/

/-- The address of a load or store: wA + sext (Table 6.2). -/
def State.seqAddr (s : State) : Nat :=
  (s.aon.seq.reg (qA s.aon.seq.instr) + (BitVec.ofNat 18 s.aon.seq.instr.toNat).signExtend 32).toNat

/-- The faults of an access in the order in which R153 and log 135 name them, and the access itself. -/
theorem seqMem_at {s : State} {op : Nat} (h : SeqAt s op) (n : Nat) (body : W32 → Nat → State → State) :
    s.seqMem op n body =
      if s.seqAddr % n ≠ 0 then s.seqFault 2
      else if 0x80000 ≤ s.seqAddr then s.seqFault 3
      else if !s.bankOn s.seqAddr then s.seqFault 4
      else body s.aon.seq.instr s.seqAddr s := by
  rw [State.seqMem, seqStep_at h, qSext_eq]
  rfl

theorem seqMem_access {s : State} {op n : Nat} (h : SeqAt s op) (ha : s.seqAddr % n = 0)
    (hb : s.seqAddr < 0x80000 ∧ s.bankOn s.seqAddr = true) (body : W32 → Nat → State → State) :
    s.seqMem op n body = body s.aon.seq.instr s.seqAddr s := by
  obtain ⟨hr, hon⟩ := hb
  simp [seqMem_at h, ha, hr, hon]

theorem seqMem_faults {s : State} {op : Nat} (h : SeqAt s op) (n : Nat) (body : W32 → Nat → State → State) :
    (s.seqAddr % n ≠ 0 → SeqFaulted s (s.seqMem op n body) 2) ∧
    (s.seqAddr % n = 0 → 0x80000 ≤ s.seqAddr → SeqFaulted s (s.seqMem op n body) 3) ∧
    (s.seqAddr % n = 0 → s.seqAddr < 0x80000 → s.bankOn s.seqAddr = false → SeqFaulted s (s.seqMem op n body) 4) := by
  rw [seqMem_at h]
  refine ⟨fun ha => ?_, fun ha hr => ?_, fun ha hr hoff => ?_⟩
  · rw [if_pos ha]
    exact seqFaulted_seqFault s 2
  · rw [if_neg (not_not.2 ha), if_pos hr]
    exact seqFaulted_seqFault s 3
  · rw [if_neg (not_not.2 ha), if_neg (not_le.2 hr), if_pos (by simp [hoff])]
    exact seqFaulted_seqFault s 4

theorem seqStore_eq {s : State} (h : s.aon.seq.pc < 4095) (a : Nat) (bs : List Byte) :
    (s.poke a bs).seqNext (s.aon.seq.pc + 1) = { s with mem := mwrite s.mem a bs, aon.seq.pc := s.aon.seq.pc + 1 } :=
  seqNext_of_lt (by omega) _

end Sys2Proof.Machine
end

section
/-!
SUPPORT. The memory and flow rows of Table 6.2: what `exec` answers at a well-formed instruction, and the two parts of the statement.
-/
namespace Sys2Proof.Machine
open Sys2Proof.Safety

/-! ### Loads and stores -/

theorem exec_seqLw {s : State} (h : SeqAt s 0x18) (ha : s.seqAddr % 4 = 0) (hb : s.seqAddr < 0x80000 ∧ s.bankOn s.seqAddr = true) :
    exec .seqLw s = .next (seqWrote s (BitVec.ofNat 32 (leNat (mreadN s.mem (dormBase + s.seqAddr) 4)))) := by
  change execSeqLw s = _
  rw [execSeqLw, seqMem_access h ha hb, seqWrite_eq h.room, mreadLe]

theorem exec_seqSw {s : State} (h : SeqAt s 0x19) (ha : s.seqAddr % 4 = 0) (hb : s.seqAddr < 0x80000 ∧ s.bankOn s.seqAddr = true) :
    exec .seqSw s = .next { s with
      mem := mwrite s.mem (dormBase + s.seqAddr) (toLe 4 (s.aon.seq.reg (qD s.aon.seq.instr)).toNat), aon.seq.pc := s.aon.seq.pc + 1 } := by
  change execSeqSw s = _
  rw [execSeqSw, seqMem_access h ha hb, seqStore_eq h.room]

theorem exec_seqLh {s : State} (h : SeqAt s 0x1A) (ha : s.seqAddr % 2 = 0) (hb : s.seqAddr < 0x80000 ∧ s.bankOn s.seqAddr = true) :
    exec .seqLh s =
      .next (seqWrote s ((BitVec.ofNat 16 (leNat (mreadN s.mem (dormBase + s.seqAddr) 2))).signExtend 32)) := by
  change execSeqLh s = _
  rw [execSeqLh, seqMem_access h ha hb, seqWrite_eq h.room, sgn_eq_toInt, mreadLe]
  rfl

theorem exec_seqSh {s : State} (h : SeqAt s 0x1B) (ha : s.seqAddr % 2 = 0) (hb : s.seqAddr < 0x80000 ∧ s.bankOn s.seqAddr = true) :
    exec .seqSh s = .next { s with
      mem := mwrite s.mem (dormBase + s.seqAddr) (toLe 2 (s.aon.seq.reg (qD s.aon.seq.instr)).toNat), aon.seq.pc := s.aon.seq.pc + 1 } := by
  change execSeqSh s = _
  rw [execSeqSh, seqMem_access h ha hb, seqStore_eq h.room]

/-- What a load or store that does not reach its bytes does, as an outcome. -/
theorem seqMem_faultOutcomes {s : State} {op : Nat} (h : SeqAt s op) (n : Nat) (body : W32 → Nat → State → State) :
    let o : Host.Outcome State Fault Refusal := .next (s.seqMem op n body)
    (s.seqAddr % n ≠ 0 → ∃ t, o = .next t ∧ SeqFaulted s t 2) ∧
    (s.seqAddr % n = 0 → 0x80000 ≤ s.seqAddr → ∃ t, o = .next t ∧ SeqFaulted s t 3) ∧
    (s.seqAddr % n = 0 → s.seqAddr < 0x80000 → s.bankOn s.seqAddr = false → ∃ t, o = .next t ∧ SeqFaulted s t 4) := by
  obtain ⟨hmis, hrange, hoff⟩ := seqMem_faults h n body
  exact ⟨fun ha => ⟨_, rfl, hmis ha⟩, fun ha hr => ⟨_, rfl, hrange ha hr⟩, fun ha hr hb => ⟨_, rfl, hoff ha hr hb⟩⟩

theorem says_sequencerMemory : Says.SequencerMemory := by
  intro s
  refine ⟨exec_seqLw, exec_seqSw, exec_seqLh, exec_seqSh, ?_⟩
  intro op n o hrow h
  simp only [List.mem_cons, Prod.mk.injEq, List.not_mem_nil, or_false] at hrow
  obtain ⟨rfl, rfl, rfl⟩ | ⟨rfl, rfl, rfl⟩ | ⟨rfl, rfl, rfl⟩ | ⟨rfl, rfl, rfl⟩ := hrow
  · exact seqMem_faultOutcomes h 4 _
  · exact seqMem_faultOutcomes h 4 _
  · exact seqMem_faultOutcomes h 2 _
  · exact seqMem_faultOutcomes h 2 _

/-! ### Branches and jumps -/

theorem exec_seqJal {s : State} (h : SeqAt s 0x24) :
    exec .seqJal s = .next (State.seqJump s.aon.seq.instr
      { s with aon.seq.w := (seqWrote s (BitVec.ofNat 32 (s.aon.seq.pc + 1))).aon.seq.w }) := by
  change execSeqJal s = _
  rw [execSeqJal, seqStep_at h, seqSet_eq]
  rfl

theorem exec_seqJr {s : State} (h : SeqAt s 0x25) :
    exec .seqJr s = .next { s with aon.seq.pc := (s.aon.seq.reg (qA s.aon.seq.instr)).toNat % 4096 } := by
  change execSeqJr s = _
  rw [execSeqJr, seqStep_at h, seqNext_of_lt (by simp [fld, bits]; omega)]
  rfl

theorem exec_seqHalt {s : State} (h : SeqAt s 0x2F) :
    exec .seqHalt s = .next ({ s with aon.seq.run := false, aon.seq.halted := true } : State).fllUpdate := by
  change execSeqHalt s = _
  rw [execSeqHalt, seqStep_at h]

/-- An opcode outside Table 6.2 (R150). -/
theorem exec_seqNop_unknown {s : State} (hh : s.aon.seq.halted = false) (hw : s.aon.seq.waiting = false)
    (ho : qOp s.aon.seq.instr = 0x3F) : exec .seqNop s = .next (s.seqFault 1) := by
  change execSeqNop s = _
  simp [execSeqNop, hh, hw, ho]

/-- A nonzero unused field (R150). -/
theorem exec_seqAdd_unused {s : State} (hh : s.aon.seq.halted = false) (hw : s.aon.seq.waiting = false)
    (ho : qOp s.aon.seq.instr = 0x01) (hz : fld s.aon.seq.instr 0 14 ≠ 0) : exec .seqAdd s = .next (s.seqFault 1) := by
  have hl : qLegal s.aon.seq.instr = false := by simp [qLegal, ho, hz]
  change execSeqAdd s = _
  rw [execSeqAdd, State.seqAlu, seqStep_illegal hh hw ho hl]

theorem says_sequencerFlow : Says.SequencerFlow := by
  intro s
  refine ⟨fun h0 h1 => ⟨fun h => ?_, fun h => ?_, fun h => ?_, fun h => ?_, fun h => ?_⟩, exec_seqJr, ?_, ?_, ?_,
    fun hh hw ho => ⟨_, exec_seqNop_unknown hh hw ho, seqFaulted_seqFault s 1⟩,
    fun hh hw ho hz => ⟨_, exec_seqAdd_unused hh hw ho hz, seqFaulted_seqFault s 1⟩⟩
  · exact congrArg _ (seqBranch_inRange h h0 h1 beq_iff_eq)
  · exact congrArg _ (seqBranch_inRange h h0 h1 bne_iff_ne)
  · exact congrArg _ (seqBranch_inRange h h0 h1 decide_eq_true_iff)
  · exact congrArg _ (seqBranch_inRange h h0 h1 decide_eq_true_iff)
  · rw [exec_seqJal h]
    exact congrArg _ (seqJump_inRange (s := { s with aon.seq.w := _ }) h0 h1)
  · intro ht op taken o hrow h
    simp only [List.mem_cons, Prod.mk.injEq, List.not_mem_nil, or_false] at hrow
    obtain ⟨rfl, rfl, rfl⟩ | ⟨rfl, rfl, rfl⟩ | ⟨rfl, rfl, rfl⟩ | ⟨rfl, rfl, rfl⟩ := hrow
    · exact seqBranch_outOfRange h ht beq_iff_eq
    · exact seqBranch_outOfRange h ht bne_iff_ne
    · exact seqBranch_outOfRange h ht decide_eq_true_iff
    · exact seqBranch_outOfRange h ht decide_eq_true_iff
  · intro ht h
    exact ⟨_, exec_seqJal h, seqJump_outOfRange (s := { s with aon.seq.w := _ }) ht⟩
  · intro h
    exact ⟨_, exec_seqHalt h, rfl, rfl, rfl, rfl⟩

end Sys2Proof.Machine
end

section
/-!
SUPPORT. What the units of the island do for the sequencer: register access, events, tier-0 decisions and the end of the Shrew engine.
-/
namespace Sys2Proof.Machine
open Sys2Proof.Safety

/-- The byte offset or event mask in an instruction: IMM, not extended. -/
def State.seqOffset (s : State) : Nat := s.aon.seq.instr.toNat % 2 ^ 18

theorem qImm_instr (s : State) : qImm s.aon.seq.instr = s.seqOffset := qImm_eq _

theorem seqWrote_seq_congr {s t : State} (h : t.aon.seq = s.aon.seq) (v : W32) :
    (seqWrote t v).aon.seq = (seqWrote s v).aon.seq := by
  simp only [seqWrote, h]

/-! ### Register access -/

/-- A read of an AON register leaves the sequencer as it is. -/
theorem readEffect_aon_seq (s : State) (sd : Side) (ev o : Nat) : (s.readEffect sd ev (.iod 5 o)).aon.seq = s.aon.seq := by
  unfold State.readEffect
  split <;> try (next otherBlock => cases otherBlock)
  · rfl
  · split <;> rfl
  · rfl
  · rfl

/-! ### Events -/

theorem seqReady_of_not_waiting {s : State} (h : s.aon.seq.waiting = false) : s.seqReady = false := by
  simp [State.seqReady, h]

theorem seqEvent_of_not_waiting {s : State} (h : s.aon.seq.waiting = false) (i : Nat) :
    s.seqEvent i = { s with aon.seq.latch := setBit s.aon.seq.latch i } := by
  have hr : ({ s with aon.seq.latch := setBit s.aon.seq.latch i } : State).seqReady = false := seqReady_of_not_waiting h
  simp [State.seqEvent, hr]

/-- R152, R144: WAITEV of an executing sequencer takes the latched events of its mask. -/
theorem seqRetire_at {s : State} {op : Nat} (h : SeqAt s op) :
    State.seqRetire { s with aon.seq.waiting := true } =
      { seqWrote s ((s.aon.seq.latch &&& BitVec.ofNat 11 s.seqOffset).setWidth 32) with
        aon.seq.latch := (s.aon.seq.latch &&& ~~~BitVec.ofNat 11 s.seqOffset) |||
          (s.aon.seq.latch &&& BitVec.ofNat 11 s.seqOffset &&& s.pmu.levelHeld.setWidth 11) } := by
  have hpc := h.room
  rw [State.seqRetire, seqNext_of_lt (by simp; omega), seqSet_eq]
  simp only [← qImm_instr, seqWrote, h.gated]
  rfl

/-! ### Tier-0 decisions -/

/-- The state after a tier-0 level has changed, before a rise is told: the level, the cascade manager's event, and the FIFO entry or its
drop (R155, R157). -/
def State.t0Changed (k : Nat) (n : BitVec 2) (score : Byte) (s : State) : State :=
  let s1 : State := { s with
    aon.level := tset 0 s.aon.level k n,
    sch.t0 := s.sch.t0 ++ [{ det := k, old := tget 0 s.aon.level k, new := n, woke := decide (s.pmu.dev ≠ .run) }] }
  if s.aon.fifo.length < 16 then
    { s1 with aon.fifo := s.aon.fifo ++ [{ det := BitVec.ofNat 3 k, level := n, score := score, rtc := s.aon.rtc }] }
  else { s1 with aon.drop := satInc s.aon.drop }.errAon 2

@[simp] theorem t0Changed_mem (k : Nat) (n : BitVec 2) (score : Byte) (s : State) : (s.t0Changed k n score).mem = s.mem := by
  unfold State.t0Changed
  split <;> simp

@[simp] theorem t0Changed_pmu (k : Nat) (n : BitVec 2) (score : Byte) (s : State) : (s.t0Changed k n score).pmu = s.pmu := by
  unfold State.t0Changed
  split <;> simp

theorem t0Changed_aon_room {s : State} (h : s.aon.fifo.length < 16) (k : Nat) (n : BitVec 2) (score : Byte) :
    (s.t0Changed k n score).aon = { s.aon with
      level := tset 0 s.aon.level k n,
      fifo := s.aon.fifo ++ [{ det := BitVec.ofNat 3 k, level := n, score := score, rtc := s.aon.rtc }] } := by
  rw [State.t0Changed, if_pos h]

theorem t0Changed_aon_full {s : State} (h : 16 ≤ s.aon.fifo.length) (k : Nat) (n : BitVec 2) (score : Byte) :
    (s.t0Changed k n score).aon = { s.aon with
      level := tset 0 s.aon.level k n, drop := satInc s.aon.drop, err := setBit s.aon.err 2 } := by
  rw [State.t0Changed, if_neg (not_lt.2 h), errAon_aon]

@[simp] theorem t0Changed_aon_seq (k : Nat) (n : BitVec 2) (score : Byte) (s : State) :
    (s.t0Changed k n score).aon.seq = s.aon.seq := by
  obtain h | h := Nat.lt_or_ge s.aon.fifo.length 16
  · rw [t0Changed_aon_room h]
  · rw [t0Changed_aon_full h]

@[simp] theorem t0Changed_aon_decIrq (k : Nat) (n : BitVec 2) (score : Byte) (s : State) :
    (s.t0Changed k n score).aon.decIrq = s.aon.decIrq := by
  obtain h | h := Nat.lt_or_ge s.aon.fifo.length 16
  · rw [t0Changed_aon_room h]
  · rw [t0Changed_aon_full h]

/-- A level has risen: it interrupts and wakes, whether the FIFO took its entry or not (R157). -/
def State.t0Risen (k : Nat) (n : BitVec 2) (score : Byte) (s : State) : State :=
  State.wakeFire 7 { s.t0Changed k n score with aon.decIrq := true }

@[simp] theorem t0Risen_aon (k : Nat) (n : BitVec 2) (score : Byte) (s : State) :
    (s.t0Risen k n score).aon = { (s.t0Changed k n score).aon with decIrq := true } :=
  wakeFire_aon _ 7

theorem t0Risen_aon_seq (k : Nat) (n : BitVec 2) (score : Byte) (s : State) : (s.t0Risen k n score).aon.seq = s.aon.seq := by
  rw [t0Risen_aon, t0Changed_aon_seq]

@[simp] theorem t0Risen_mem (k : Nat) (n : BitVec 2) (score : Byte) (s : State) : (s.t0Risen k n score).mem = s.mem :=
  (wakeFire_mem _ 7).trans (t0Changed_mem k n score s)

theorem t0Risen_wakePend {s : State} (h : s.pmu.dev ≠ .off) (k : Nat) (n : BitVec 2) (score : Byte) :
    (s.t0Risen k n score).pmu.wakePend = setBit s.pmu.wakePend 7 := by
  rw [← t0Changed_pmu k n score s] at h ⊢
  exact wakeFire_wakePend _ 7 h

/-- A decision of level `n` (R155). -/
theorem decide_eq {s : State} {k : Nat} {score : Byte} {n : BitVec 2}
    (hn : levelOf (tget thrReset s.aon.thr k) score.toNat = n) :
    s.decide_ k score =
      if n = tget 0 s.aon.level k then (s, n)
      else (if (tget 0 s.aon.level k).toNat < n.toNat then s.t0Risen k n score else s.t0Changed k n score, n) := by
  subst hn
  rfl

theorem levelOf_firm {thr : W32} {score : Nat} (h : fld thr 8 8 ≤ score) : levelOf thr score = 2 := if_pos h

theorem levelOf_none {thr : W32} {score : Nat} (hl : score < fld thr 0 8) (hf : score < fld thr 8 8) : levelOf thr score = 0 := by
  rw [levelOf, if_neg (not_le.2 hf), if_neg (not_le.2 hl)]

/-! ### The end of the Shrew engine -/

/-- The first bytes of a range that is read. -/
theorem slice_mreadN {n k : Nat} (h : n ≤ k) (m : List Host.Cell) (a : Nat) : slice (mreadN m a k) 0 n = mreadN m a n := by
  simp [slice, mreadN, ← List.map_take, List.take_range, h]

theorem bankOn_eq_of_bank {s : State} {a b : Nat} (h : a / 0x10000 = b / 0x10000) : s.bankOn a = s.bankOn b := by
  rw [State.bankOn, State.bankOn, h]

/-- A range no longer than a bank lies in the banks of its first and its last byte. -/
theorem banksOn_of_ends {s : State} {a n : Nat} (hn : n ≤ 0x10000) (h0 : s.bankOn a = true) (h1 : s.bankOn (a + (n - 1)) = true) :
    s.banksOn a n = true := by
  simp only [State.banksOn, Bool.or_eq_true, List.all_eq_true, Bool.not_eq_true', Bool.and_eq_false_iff, decide_eq_false_iff_not]
  refine Or.inr (fun b _ => ?_)
  by_cases hb : b = a / 0x10000
  · exact Or.inr (h0 ▸ bankOn_eq_of_bank (by omega))
  by_cases hb' : b = (a + (n - 1)) / 0x10000
  · exact Or.inr (h1 ▸ bankOn_eq_of_bank (by omega))
  · exact Or.inl (by omega)

/-- A list whose first descriptor is the end. -/
theorem shrewRun_listEnd {s : State} (hin : s.aon.shrewList + 32 ≤ 0x80000) (h0 : s.bankOn s.aon.shrewList = true)
    (h1 : s.bankOn (s.aon.shrewList + 31) = true) (hend : leNat (mreadN s.mem (dormBase + s.aon.shrewList) 2) = 0xFFFF) (n : Nat) :
    s.shrewRun 0 (n + 1) = (s, none) := by
  have hon : s.banksOn s.aon.shrewList 32 = true := banksOn_of_ends (by decide) h0 h1
  have hkind : leAt (s.dormRead s.aon.shrewList 32) 0 2 = 0xFFFF := by
    rw [leAt, State.dormRead, slice_mreadN (by decide), hend]
  simp only [State.shrewRun, Nat.mul_zero, Nat.add_zero]
  rw [if_neg (not_lt.2 hin), if_neg (by simp [hon]), if_pos hkind]

/-- A list whose first descriptor does not lie in the SRAM. -/
theorem shrewRun_beyond {s : State} (h : 0x80000 < s.aon.shrewList + 32) (n : Nat) : s.shrewRun 0 (n + 1) = (s, some (4, 0)) := by
  simp only [State.shrewRun, Nat.mul_zero, Nat.add_zero]
  rw [if_pos h]

/-- The engine idle with the status that the list's end (`none`) or a fault in a layer leaves (R154). -/
def State.shrewEnded (f : Option (Nat × Nat)) (s : State) : State :=
  match f with
  | some (code, layer) =>
    { s with aon.shrewBusy := false, aon.shrewFault := BitVec.ofNat 4 code, aon.shrewLayer := BitVec.ofNat 6 layer }.errAon 1
  | none => { s with aon.shrewBusy := false, aon.shrewFault := 0, aon.shrewLayer := 0 }

@[simp] theorem shrewEnded_aon_none (s : State) :
    (s.shrewEnded none).aon = { s.aon with shrewBusy := false, shrewFault := 0, shrewLayer := 0 } := rfl

@[simp] theorem shrewEnded_aon_some (s : State) (code layer : Nat) :
    (s.shrewEnded (some (code, layer))).aon = { s.aon with
      shrewBusy := false, shrewFault := BitVec.ofNat 4 code, shrewLayer := BitVec.ofNat 6 layer, err := setBit s.aon.err 1 } :=
  errAon_aon _ 1

@[simp] theorem shrewEnded_aon_seq (f : Option (Nat × Nat)) (s : State) : (s.shrewEnded f).aon.seq = s.aon.seq := by
  obtain _ | ⟨code, layer⟩ := f
  · rfl
  · rw [shrewEnded_aon_some]

@[simp] theorem shrewEnded_mem (f : Option (Nat × Nat)) (s : State) : (s.shrewEnded f).mem = s.mem := by
  cases f with
  | none => rfl
  | some f => exact errAon_mem _ 1

end Sys2Proof.Machine
end

section
/-!
SUPPORT. The rows of Table 6.2 that use the island's units, the end of the Shrew engine, and the third part of the statement.
-/
namespace Sys2Proof.Machine
open Sys2Proof.Safety

/-! ### Register access -/

theorem exec_seqRdio {s : State} (h : SeqAt s 0x28) (ha : s.seqOffset % 4 = 0) (hr : s.seqOffset ≤ 0x1FC) :
    exec .seqRdio s = .next (seqWrote (s.readEffect .mgr 0 (.iod 5 s.seqOffset)) (BitVec.ofNat 32 (s.readAon .mgr s.seqOffset))) := by
  have hseq := readEffect_aon_seq s .mgr 0 s.seqOffset
  change execSeqRdio s = _
  rw [execSeqRdio, seqStep_at h, qImm_instr]
  simp only [ha, hr, ne_eq, not_true_eq_false, if_true, if_false]
  rw [← seqWrite_eq (by rw [hseq]; exact h.room), hseq]

theorem exec_seqRdio_timer {s : State} (h : SeqAt s 0x28) (ho : s.seqOffset = 0x70) :
    exec .seqRdio s = .next (seqWrote s (s.aon.period.setWidth 32)) := by
  rw [exec_seqRdio h (by rw [ho]) (by rw [ho]; decide), ho, ← BitVec.ofNat_toNat]
  rfl

theorem exec_seqRdio_misaligned {s : State} (h : SeqAt s 0x28) (ha : s.seqOffset % 4 ≠ 0) :
    exec .seqRdio s = .next (s.seqFault 2) := by
  change execSeqRdio s = _
  rw [execSeqRdio, seqStep_at h, qImm_instr, if_pos ha]

theorem exec_seqWrio_misaligned {s : State} (h : SeqAt s 0x29) (ha : s.seqOffset % 4 ≠ 0) :
    exec .seqWrio s = .next (s.seqFault 2) := by
  change execSeqWrio s = _
  rw [execSeqWrio, seqStep_at h, qImm_instr, if_pos ha]

/-- The write of a WRIO at an aligned offset (R151). -/
def wrioWrite (o : Nat) (v : W32) (s : State) : State :=
  if 0x150 ≤ o ∧ o < 0x160 then
    { s with aon.mboxOut := tset 0 s.aon.mboxOut ((o - 0x150) / 4) v, aon.mboxIrq := s.aon.mboxIrq || o == 0x15C }
  else if wrioOk o then s.writeAon o v else s

theorem exec_seqWrio {s : State} (h : SeqAt s 0x29) (ha : s.seqOffset % 4 = 0) :
    exec .seqWrio s =
      .next { wrioWrite s.seqOffset (s.aon.seq.reg (qD s.aon.seq.instr)) s with aon.seq.pc := s.aon.seq.pc + 1 } := by
  have hpc := h.room
  change execSeqWrio s = _
  rw [execSeqWrio, seqStep_at h, qImm_instr]
  simp only [ha, ne_eq, not_true_eq_false, if_false]
  rw [seqNext_of_lt (by omega)]
  rfl

theorem wrioWrite_timer (v : W32) (s : State) :
    wrioWrite 0x70 v s = { s with aon.period := v.setWidth 24, aon.timerCount := 0 } := by
  have hv : v.setWidth 24 = BitVec.ofNat 24 (fld v 0 24) := by
    apply BitVec.eq_of_toNat_eq
    simp [fld, bits]
  rw [hv]
  rfl

theorem wrioWrite_mbox {o : Nat} (ho : o = 0x150 ∨ o = 0x154 ∨ o = 0x158) (v : W32) (s : State) :
    wrioWrite o v s = { s with aon.mboxOut := tset 0 s.aon.mboxOut ((o - 0x150) / 4) v } := by
  have hirq : (s.aon.mboxIrq || o == 0x15C) = s.aon.mboxIrq := by
    rw [beq_false_of_ne (by omega), Bool.or_false]
  rw [wrioWrite, if_pos (by omega), hirq]

theorem wrioWrite_mbox3 (v : W32) (s : State) :
    wrioWrite 0x15C v s = { s with aon.mboxOut := tset 0 s.aon.mboxOut 3 v, aon.mboxIrq := true } := by
  rw [wrioWrite, if_pos (by decide), beq_self_eq_true, Bool.or_true]

theorem wrioWrite_protected {o : Nat} (ho : o = 0 ∨ o = 0x100 ∨ o = 0x120 ∨ o = 0x140 ∨ o = 0x184) (v : W32) (s : State) :
    wrioWrite o v s = s := by
  obtain rfl | rfl | rfl | rfl | rfl := ho <;> rfl

theorem exec_seqWrio_timer {s : State} (h : SeqAt s 0x29) (ho : s.seqOffset = 0x70) :
    exec .seqWrio s = .next { s with
      aon.period := (s.aon.seq.reg (qD s.aon.seq.instr)).setWidth 24, aon.timerCount := 0, aon.seq.pc := s.aon.seq.pc + 1 } := by
  rw [exec_seqWrio h (by rw [ho]), ho, wrioWrite_timer]

theorem exec_seqWrio_mbox {s : State} (h : SeqAt s 0x29) (ho : s.seqOffset = 0x150 ∨ s.seqOffset = 0x154 ∨ s.seqOffset = 0x158) :
    exec .seqWrio s = .next { s with
      aon.mboxOut := tset 0 s.aon.mboxOut ((s.seqOffset - 0x150) / 4) (s.aon.seq.reg (qD s.aon.seq.instr)),
      aon.seq.pc := s.aon.seq.pc + 1 } := by
  rw [exec_seqWrio h (by omega), wrioWrite_mbox ho]

theorem exec_seqWrio_mbox3 {s : State} (h : SeqAt s 0x29) (ho : s.seqOffset = 0x15C) :
    exec .seqWrio s = .next { s with
      aon.mboxOut := tset 0 s.aon.mboxOut 3 (s.aon.seq.reg (qD s.aon.seq.instr)), aon.mboxIrq := true,
      aon.seq.pc := s.aon.seq.pc + 1 } := by
  rw [exec_seqWrio h (by rw [ho]), ho, wrioWrite_mbox3]

theorem exec_seqWrio_protected {s : State} (h : SeqAt s 0x29)
    (ho : s.seqOffset = 0 ∨ s.seqOffset = 0x100 ∨ s.seqOffset = 0x120 ∨ s.seqOffset = 0x140 ∨ s.seqOffset = 0x184) :
    exec .seqWrio s = .next { s with aon.seq.pc := s.aon.seq.pc + 1 } := by
  rw [exec_seqWrio h (by omega), wrioWrite_protected ho]

/-! ### Events -/

theorem exec_seqWaitev_latched {s : State} (h : SeqAt s 0x2C) (ho : s.seqOffset % 4096 ≠ 0)
    (hm : s.aon.seq.latch &&& BitVec.ofNat 11 s.seqOffset ≠ 0) :
    exec .seqWaitev s = .next { seqWrote s ((s.aon.seq.latch &&& BitVec.ofNat 11 s.seqOffset).setWidth 32) with
      aon.seq.latch := (s.aon.seq.latch &&& ~~~BitVec.ofNat 11 s.seqOffset) |||
        (s.aon.seq.latch &&& BitVec.ofNat 11 s.seqOffset &&& s.pmu.levelHeld.setWidth 11) } := by
  have hready : ({ s with aon.seq.waiting := true } : State).seqReady = true := by
    rw [← qImm_instr] at hm
    exact decide_eq_true hm
  change execSeqWaitev s = _
  rw [execSeqWaitev, seqStep_at h, qImm_instr, if_neg ho, if_pos hready, seqRetire_at h]

theorem exec_seqWaitev_none {s : State} (h : SeqAt s 0x2C) (ho : s.seqOffset % 4096 ≠ 0)
    (hm : s.aon.seq.latch &&& BitVec.ofNat 11 s.seqOffset = 0) :
    exec .seqWaitev s = .next ({ s with aon.seq.waiting := true } : State).fllUpdate := by
  have hready : ({ s with aon.seq.waiting := true } : State).seqReady = false := by
    rw [← qImm_instr] at hm
    exact decide_eq_false (not_not.2 hm)
  change execSeqWaitev s = _
  rw [execSeqWaitev, seqStep_at h, qImm_instr, if_neg ho]
  simp only [hready, Bool.false_eq_true, if_false]

theorem exec_seqWaitev_empty {s : State} (h : SeqAt s 0x2C) (ho : s.seqOffset % 4096 = 0) :
    exec .seqWaitev s = .next (s.seqFault 5) := by
  change execSeqWaitev s = _
  rw [execSeqWaitev, seqStep_at h, qImm_instr, if_pos ho]

/-! ### The Shrew engine -/

theorem exec_seqShrew_busy {s : State} (h : SeqAt s 0x2D) (hb : s.aon.shrewBusy = true) :
    exec .seqShrew s = .next (seqWrote s 1) := by
  change execSeqShrew s = _
  rw [execSeqShrew, seqStep_at h, if_pos hb, seqWrite_eq h.room]

theorem exec_seqShrew_idle {s : State} (h : SeqAt s 0x2D) (hb : s.aon.shrewBusy = false) :
    exec .seqShrew s =
      .next { seqWrote s 0 with aon.shrewBusy := true, aon.shrewList := (s.aon.seq.reg (qA s.aon.seq.instr)).toNat } := by
  change execSeqShrew s = _
  rw [execSeqShrew, seqStep_at h, if_neg (by simp [hb])]
  exact congrArg _ (seqWrite_eq (s := { s with aon.shrewBusy := true, aon.shrewList := _ }) h.room 0)

theorem exec_shrewDone_idle {s : State} (hb : s.aon.shrewBusy = false) : exec .shrewDone s = .next s := by
  change execShrewDone s = _
  simp only [execShrewDone, hb, Bool.not_false, if_true]

/-- The end of a list that has stored nothing latches event 7 for a sequencer that does not wait (R152, R154). -/
theorem exec_shrewDone {s : State} (hb : s.aon.shrewBusy = true) (hw : s.aon.seq.waiting = false) {f : Option (Nat × Nat)}
    (hr : s.shrewRun 0 65 = (s, f)) :
    exec .shrewDone s =
      .next (State.fllUpdate { s.shrewEnded f with aon.seq.latch := setBit (s.shrewEnded f).aon.seq.latch 7 }) := by
  have hw' : (s.shrewEnded f).aon.seq.waiting = false := by rw [shrewEnded_aon_seq, hw]
  have hready : ((s.shrewEnded f).seqEvent 7).seqReady = false := by
    rw [seqEvent_of_not_waiting hw']
    exact seqReady_of_not_waiting hw'
  have hdone : execShrewDone s =
      .next (if ((s.shrewEnded f).seqEvent 7).seqReady then (s.shrewEnded f).seqEvent 7
        else ((s.shrewEnded f).seqEvent 7).fllUpdate) := by
    rw [execShrewDone, if_neg (by simp [hb]), hr]
    cases f <;> rfl
  change execShrewDone s = _
  rw [hdone, if_neg (by simp [hready]), seqEvent_of_not_waiting hw']

/-! ### Tier-0 decisions -/

/-- The detector of a DECIDE. -/
def State.decideDet (s : State) : Nat := (s.aon.seq.reg (qA s.aon.seq.instr)).toNat % 8
/-- The score of a DECIDE. -/
def State.decideScore (s : State) : Nat := (s.aon.seq.reg (qB s.aon.seq.instr)).toNat % 256

theorem decideScore_toNat (s : State) : (BitVec.ofNat 8 s.decideScore).toNat = s.decideScore := by
  rw [BitVec.toNat_ofNat]
  exact Nat.mod_mod _ _

/-- A DECIDE whose score reaches level `n`, decided in state `t`. -/
theorem exec_seqDecide {s t : State} (h : SeqAt s 0x2E) {n : BitVec 2}
    (hd : s.decide_ s.decideDet (BitVec.ofNat 8 s.decideScore) = (t, n)) (ht : t.aon.seq = s.aon.seq) :
    exec .seqDecide s = .next (seqWrote t (n.setWidth 32)) := by
  have hk : fld (s.aon.seq.reg (qA s.aon.seq.instr)) 0 3 = s.decideDet := by simp [fld, bits, State.decideDet]
  have hb : fld (s.aon.seq.reg (qB s.aon.seq.instr)) 0 8 = s.decideScore := by simp [fld, bits, State.decideScore]
  change execSeqDecide s = _
  rw [execSeqDecide, seqStep_at h]
  simp only [hk, hb, hd]
  rw [← seqWrite_eq (by rw [ht]; exact h.room), ht]

theorem levelOf_decideScore_none {s : State} (hl : s.decideScore < fld (tget thrReset s.aon.thr s.decideDet) 0 8)
    (hf : s.decideScore < fld (tget thrReset s.aon.thr s.decideDet) 8 8) :
    levelOf (tget thrReset s.aon.thr s.decideDet) (BitVec.ofNat 8 s.decideScore).toNat = 0 := by
  rw [decideScore_toNat]
  exact levelOf_none hl hf

theorem exec_seqDecide_kept {s : State} (h : SeqAt s 0x2E) (hl : s.decideScore < fld (tget thrReset s.aon.thr s.decideDet) 0 8)
    (hf : s.decideScore < fld (tget thrReset s.aon.thr s.decideDet) 8 8) (h0 : tget 0 s.aon.level s.decideDet = 0) :
    exec .seqDecide s = .next (seqWrote s 0) := by
  refine exec_seqDecide (n := 0) h ?_ rfl
  rw [decide_eq (levelOf_decideScore_none hl hf), h0, if_pos rfl]

theorem exec_seqDecide_lowered {s : State} (h : SeqAt s 0x2E) (hl : s.decideScore < fld (tget thrReset s.aon.thr s.decideDet) 0 8)
    (hf : s.decideScore < fld (tget thrReset s.aon.thr s.decideDet) 8 8) (h0 : tget 0 s.aon.level s.decideDet ≠ 0) :
    exec .seqDecide s = .next (seqWrote (s.t0Changed s.decideDet 0 (BitVec.ofNat 8 s.decideScore)) 0) := by
  refine exec_seqDecide (n := 0) h ?_ (t0Changed_aon_seq _ _ _ s)
  rw [decide_eq (levelOf_decideScore_none hl hf), if_neg h0.symm, if_neg (by simp)]

theorem exec_seqDecide_firm {s : State} (h : SeqAt s 0x2E) (hf : fld (tget thrReset s.aon.thr s.decideDet) 8 8 ≤ s.decideScore)
    (h0 : tget 0 s.aon.level s.decideDet = 0) :
    exec .seqDecide s = .next (seqWrote (s.t0Risen s.decideDet 2 (BitVec.ofNat 8 s.decideScore)) 2) := by
  have hlevel : levelOf (tget thrReset s.aon.thr s.decideDet) (BitVec.ofNat 8 s.decideScore).toNat = 2 := by
    rw [decideScore_toNat]
    exact levelOf_firm hf
  refine exec_seqDecide (n := 2) h ?_ (t0Risen_aon_seq _ _ _ s)
  rw [decide_eq hlevel, h0, if_neg (by decide), if_pos (by decide)]

/-! ### The statement's parts together -/

theorem says_sequencerUnits : Says.SequencerUnits := by
  intro s
  refine ⟨exec_seqRdio_timer, exec_seqRdio, fun h ha => ⟨_, exec_seqRdio_misaligned h ha, seqFaulted_seqFault s 2⟩,
    fun h ha => ⟨_, exec_seqWrio_misaligned h ha, seqFaulted_seqFault s 2⟩, exec_seqWrio_timer, exec_seqWrio_mbox,
    exec_seqWrio_mbox3, exec_seqWrio_protected, exec_seqWaitev_latched,
    fun h ho hm => ⟨_, exec_seqWaitev_none h ho hm, rfl, rfl, rfl⟩,
    fun h ho => ⟨_, exec_seqWaitev_empty h ho, seqFaulted_seqFault s 5⟩, exec_seqShrew_busy, exec_seqShrew_idle,
    exec_seqDecide_kept, fun h hdev hf h0 hroom => ?_, fun h hl hf h0 hroom => ?_, fun h hdev hf h0 hfull => ?_,
    exec_shrewDone_idle, fun hb hin h0 h1 hend hw => ?_, fun hb hout hw => ?_⟩
  · refine ⟨_, exec_seqDecide_firm h hf h0, ?_, ?_, ?_, seqWrote_seq_congr (t0Risen_aon_seq _ _ _ s) 2,
      t0Risen_wakePend hdev _ _ _, ?_, t0Risen_mem _ _ _ s⟩
    all_goals simp [seqWrote, t0Changed_aon_room hroom, State.decideDet, State.decideScore, Seq.reg]
  · refine ⟨_, exec_seqDecide_lowered h hl hf h0, ?_, ?_, ?_, seqWrote_seq_congr (t0Changed_aon_seq _ _ _ s) 0,
      t0Changed_pmu _ _ _ s, t0Changed_mem _ _ _ s⟩
    all_goals simp [seqWrote, t0Changed_aon_room hroom, State.decideDet, State.decideScore, Seq.reg]
  · refine ⟨_, exec_seqDecide_firm h hf h0, ?_, ?_, ?_, ?_, ?_, t0Risen_wakePend hdev _ _ _, t0Risen_mem _ _ _ s⟩
    all_goals simp [seqWrote, t0Changed_aon_full hfull, State.decideDet, Seq.reg, bit_setBit_self]
  · exact ⟨_, exec_shrewDone hb hw (shrewRun_listEnd hin h0 h1 hend 64), rfl, rfl⟩
  · refine ⟨_, exec_shrewDone hb hw (shrewRun_beyond hout 64), ?_, shrewEnded_mem _ s⟩
    simp

/-- Settles O18: the memory, flow and unit rows of the sequencer, each from the rule of the operation it shares with other rows. -/
theorem sequencer : Obligations.Sequencer :=
  ⟨says_sequencerMemory, says_sequencerFlow, says_sequencerUnits⟩

end Sys2Proof.Machine
end

section
/-!
SUPPORT. The density of a stream (R210), the pre-emption allowance of a core, and writes to RT_CAP (R212): the second and the third part
of the statement on tenants.
-/
namespace Sys2Proof.Machine

/-! ### Division rounded up -/

/-- The quotient rounded up is the least number that reaches the dividend. -/
theorem ceilDiv_le_iff {a b d : Nat} (hb : 0 < b) : ceilDiv a b ≤ d ↔ a ≤ d * b := by
  rw [ceilDiv, ← Nat.ceilDiv_eq_add_pred_div, ceilDiv_le_iff_le_mul hb, Nat.mul_comm]

/-- A least number that reaches `a` in steps of `b` reaches it, and the number before it does not. -/
theorem reaches_of_least {a b m : Nat} (h : ∀ d, m ≤ d ↔ a ≤ d * b) : a ≤ m * b ∧ (m = 0 ∨ (m - 1) * b < a) := by
  refine ⟨(h m).1 le_rfl, ?_⟩
  by_cases hm : m = 0
  · exact .inl hm
  · exact .inr (not_le.1 (mt (h (m - 1)).2 (by omega)))

/-! ### The density of a stream (R210) -/

/-- The processing window of R210 for a path latency of `lat` rc, scaled by the rate and by 24,576,000,000 to a whole number. -/
def State.scaledWindow (s : State) (bLog2 lat : Nat) : Nat :=
  2 ^ bLog2 * 24576000000 - 16 * 24576 * s.rateHz - 2000 * lat * s.rateHz

/-- In a window that is left, the density is the least one whose share of the window holds `us`. -/
theorem densityOf_le_iff {s : State} {bLog2 lat : Nat} (us d : Nat) (hw : 0 < s.scaledWindow bLog2 lat) :
    s.densityOf bLog2 us 0 lat ≤ d ↔ 24576000 * us * s.rateHz ≤ d * s.scaledWindow bLog2 lat := by
  have hdensity : s.densityOf bLog2 us 0 lat =
      ceilDiv (24576000 * (us * 32000 + 0) * s.rateHz) (32000 * s.scaledWindow bLog2 lat) := if_neg hw.ne'
  have hneed : 24576000 * (us * 32000 + 0) * s.rateHz = 32000 * (24576000 * us * s.rateHz) := by ring
  have hshare : d * (32000 * s.scaledWindow bLog2 lat) = 32000 * (d * s.scaledWindow bLog2 lat) := by ring
  rw [hdensity, ceilDiv_le_iff (Nat.mul_pos (by decide) hw), hneed, hshare]
  exact Nat.mul_le_mul_left_iff (by decide)

/-- On this part the path latency is none, and the window is B frame periods less 16 µs. -/
theorem scaledWindow_local (s : State) (bLog2 : Nat) :
    s.scaledWindow bLog2 0 = 24576 * (2 ^ bLog2 * 1000000 - 16 * s.rateHz) := by
  rw [State.scaledWindow]
  omega

theorem densityOf_local_le_iff {s : State} {bLog2 : Nat} (us d : Nat) (hw : 16 * s.rateHz < 2 ^ bLog2 * 1000000) :
    s.densityOf bLog2 us 0 0 ≤ d ↔ 1000 * us * s.rateHz ≤ d * (2 ^ bLog2 * 1000000 - 16 * s.rateHz) := by
  have hlocal := scaledWindow_local s bLog2
  have hleft : 0 < s.scaledWindow bLog2 0 := by omega
  have hneed : 24576000 * us * s.rateHz = 24576 * (1000 * us * s.rateHz) := by ring
  rw [densityOf_le_iff us d hleft, hlocal, hneed, Nat.mul_left_comm d]
  exact Nat.mul_le_mul_left_iff (by decide)

/-- The first open of the worked example of section 8.8. -/
theorem densityOf_example {s : State} (h : s.rateHz = 48000) : s.densityOf 5 472 0 0 = 726 := by
  rw [State.densityOf, h]
  rfl

/-! ### The allowance of a core (R210) -/

theorem allowance_dm {s : State} {k : Nat}
    (h : ∀ e ∈ s.tenants, ∀ t, e.2 = some t → bit t.affinity k = true → ∃ d, s.region t.saveBase = .dm d) : s.allowance k = 22 := by
  refine if_pos (List.all_eq_true.2 fun e he => ?_)
  obtain ⟨i, _ | t⟩ := e
  · rfl
  · cases hk : bit t.affinity k with
    | false => simp [hk]
    | true =>
      obtain ⟨d, hd⟩ := h _ he t rfl hk
      simp [hd]

theorem allowance_lpddr {s : State} {k : Nat} {e : Nat × Option Tenant} (he : e ∈ s.tenants) {t : Tenant} (ht : e.2 = some t)
    (hk : bit t.affinity k = true) (hr : s.region t.saveBase = .lpddr) : s.allowance k = 60 := by
  refine if_neg fun hall => ?_
  have hsaved := List.all_eq_true.1 hall e he
  simp [ht, hk, hr] at hsaved

theorem says_streamDensity : Says.StreamDensity := by
  refine ⟨?_, ?_, fun _ _ => allowance_dm, fun _ _ _ he _ => allowance_lpddr he, fun _ => densityOf_example⟩
  · rintro s bLog2 us d lat hw rfl
    exact reaches_of_least fun d => densityOf_le_iff us d (by rw [State.scaledWindow]; omega)
  · rintro s bLog2 us d hw rfl
    exact reaches_of_least fun d => densityOf_local_le_iff us d hw

/-! ### RT_CAP (R212) -/

/-- Is `n` a cap that R212 admits: at most 1,000 and no core's density above it? -/
def State.capFits (s : State) (n : Nat) : Prop := n ≤ 1000 ∧ ∀ k, k < 64 → s.coreDensity k ≤ n

/-- A write of RT_CAP takes a cap that fits, and records any other. -/
theorem exec_schCtrlWrite {s : State} {v : W32} (h : s.offAt 0x70000 = false) :
    (s.capFits (v.toNat % 1024) → exec (.schCtrlWrite v) s = .next { s with sch.rtCap := BitVec.ofNat 10 (v.toNat % 1024) }) ∧
    (¬ s.capFits (v.toNat % 1024) → exec (.schCtrlWrite v) s = .next (s.errSch 2)) := by
  have hfld : fld v 0 10 = v.toNat % 1024 := by simp [fld, bits]
  have hcap : (1000 < v.toNat % 1024 || (List.range 64).any (fun c => v.toNat % 1024 < s.coreDensity c)) = true ↔
      ¬ s.capFits (v.toNat % 1024) := by
    simp only [State.capFits, not_and_or, not_le, not_forall, Bool.or_eq_true, decide_eq_true_eq, List.any_eq_true, List.mem_range,
      exists_prop]
  have hexec : exec (.schCtrlWrite v) s = .next (s.writeSchCtrl v) := by
    change execSchCtrlWrite v s = _
    rw [execSchCtrlWrite, State.onBlock, if_neg (by simp [h])]
  rw [hexec, State.writeSchCtrl, hfld]
  exact ⟨fun hfit => by rw [if_neg (mt hcap.1 (not_not.2 hfit))], fun hno => by rw [if_pos (hcap.2 hno)]⟩

theorem says_rtCapWrites : Says.RtCapWrites := by
  intro s v h
  obtain ⟨htaken, hignored⟩ := exec_schCtrlWrite (v := v) h
  refine ⟨fun hmax hcores => htaken ⟨hmax, hcores⟩, fun hbad => hignored fun ⟨hmax, hcores⟩ => ?_⟩
  obtain hover | ⟨k, hk, hunder⟩ := hbad
  · omega
  · exact absurd (hcores k hk) (by omega)

end Sys2Proof.Machine
end

section
/-!
SUPPORT. TENANT_CREATE and TENANT_SET (R197-R200): what a legal block says of its fields, what the checks answer, and what the commands
answer then.
-/
namespace Sys2Proof.Machine
open Sys2Proof.Safety Sys2Proof.Laws

/-! ### The block (Table 8.1) -/

/-- A legal block is 256 bytes long with its fields in range. -/
theorem fields_of_tenantBlockOk {s : State} {b : List Byte} (h : s.tenantBlockOk b = true) :
    b.length = 256 ∧ leAt b 0 1 ≤ 1 ∧ 1 ≤ leAt b 1 1 ∧ leAt b 1 1 ≤ 64 ∧ leAt b 2 2 ≤ 64000 ∧ leAt b 4 2 ≤ 256 ∧
      leAt b 6 1 ≤ 64 ∧ leAt b 7 1 ≤ 64 ∧ BitVec.ofNat 64 (leAt b 8 8) ≠ 0 ∧ leAt b 16 8 % 4096 = 0 ∧ leAt b 16 8 < 2 ^ 40 := by
  simp only [State.tenantBlockOk, Bool.and_eq_true, decide_eq_true_eq, beq_iff_eq] at h
  obtain ⟨⟨⟨⟨⟨⟨⟨⟨⟨⟨⟨⟨⟨⟨⟨hlen, hflags⟩, hslots⟩, hslots'⟩, hdensity⟩, hstreams⟩, hint⟩, hbg⟩, hmask⟩, halign⟩, hbase⟩, -⟩, -⟩, -⟩, -⟩,
    -⟩ := h
  exact ⟨hlen, hflags, hslots, hslots', hdensity, hstreams, hint, hbg, hmask, halign, hbase⟩

theorem tenantBlockOk_bad_field {s : State} {b : List Byte}
    (h : b.length ≠ 256 ∨ 1 < leAt b 0 1 ∨ leAt b 1 1 = 0 ∨ 64 < leAt b 1 1 ∨ 64000 < leAt b 2 2 ∨ 256 < leAt b 4 2 ∨
      64 < leAt b 6 1 ∨ 64 < leAt b 7 1 ∨ leAt b 8 8 = 0 ∨ leAt b 16 8 % 4096 ≠ 0 ∨ 2 ^ 40 ≤ leAt b 16 8) :
    s.tenantBlockOk b = false := by
  rw [Bool.eq_false_iff]
  intro hok
  obtain ⟨hlen, hflags, hslots, hslots', hdensity, hstreams, hint, hbg, hmask, halign, hbase⟩ := fields_of_tenantBlockOk hok
  have hmask' : leAt b 8 8 ≠ 0 := fun h0 => hmask (by rw [h0]; rfl)
  omega

/-! ### TENANT_CREATE (R199) -/

section Create
variable {s : State} {c : Cmd} (h : Ready s c 0x0010)
include h

theorem exec_tenantCreate_served (hc : checkTenantCreate s c = none) :
    exec (.tenantCreate c.id) s =
      .next (((begun s c).withTenant c.tenant (some (tenantOf c.params))).served (going c) []) :=
  congrArg _ (command_ready h rfl hc)

theorem exec_tenantCreate_refused {rs : Nat} (hc : checkTenantCreate s c = some rs) :
    exec (.tenantCreate c.id) s = .next (s.complete c 3 rs) :=
  congrArg _ (command_refused h rfl hc)

end Create

theorem checkTenantCreate_bad {s : State} {c : Cmd} (h : s.tenant c.tenant ≠ none ∨ s.tenantBlockOk c.params = false) :
    checkTenantCreate s c = some 0x0107 := by
  refine if_pos ?_
  obtain h | h := h
  · simp [Option.isSome_iff_ne_none, h]
  · simp [h]

/-- A new tenant with a legal block is checked for its save area, then for the cap. -/
theorem checkTenantCreate_new {s : State} {c : Cmd} (hn : s.tenant c.tenant = none) (hb : s.tenantBlockOk c.params = true) :
    checkTenantCreate s c = if s.saveAreaDenied c.params then some 0x0505
      else if (s.withTenant c.tenant (some (tenantOf c.params))).overCap (tenantOf c.params).affinity then some 0x0201 else none :=
  if_neg (by simp [hn, hb])

/-! ### TENANT_SET (R199, R200) -/

section Set
variable {s : State} {c : Cmd} (h : Ready s c 0x0012)
include h

theorem exec_tenantSet_served (hc : checkTenantSet s c = none) {old : Tenant} (ho : s.tenant c.tenant = some old) :
    exec (.tenantSet c.id) s =
      .next (((begun s c).withTenant c.tenant (some (old.replaced c.params))).served (going c) []) := by
  have ho' : (begun s c).tenant (going c).tenant = some old := ho
  have happly : State.applyTenantSet (going c) (begun s c) =
      ((begun s c).withTenant c.tenant (some (old.replaced c.params))).served (going c) [] := by
    rw [State.applyTenantSet, ho']
    rfl
  exact congrArg _ ((command_ready h rfl hc).trans happly)

theorem exec_tenantSet_refused {rs : Nat} (hc : checkTenantSet s c = some rs) :
    exec (.tenantSet c.id) s = .next (s.complete c 3 rs) :=
  congrArg _ (command_refused h rfl hc)

end Set

theorem checkTenantSet_none {s : State} {c : Cmd} (hn : s.tenant c.tenant = none) : checkTenantSet s c = some 0x0104 := by
  rw [checkTenantSet, hn]
  rfl

/-- A legal block for a tenant is checked for the cap and for the tenant's streams. -/
theorem checkTenantSet_some {s : State} {c : Cmd} {old : Tenant} (ho : s.tenant c.tenant = some old)
    (hb : s.tenantBlockOk c.params = true) (hd : s.saveAreaDenied c.params = false) :
    checkTenantSet s c =
      if (s.withTenant c.tenant (some (old.replaced c.params))).overCap (tenantOf c.params).affinity ||
        (s.withTenant c.tenant (some (old.replaced c.params))).streamsBreak c.tenant (old.replaced c.params)
      then some 0x0201 else none := by
  rw [checkTenantSet, ho]
  simp only [hb, hd, Bool.not_true, Bool.false_eq_true, if_false]
  rfl

end Sys2Proof.Machine
end

section
/-!
SUPPORT. TENANT_DESTROY (R201, R371, R476): what the end of a tenant's pools leaves, what the end of the tenant leaves, and the statement
on tenants with its three parts.
-/
namespace Sys2Proof.Machine
open Sys2Proof.Safety Sys2Proof.Laws

/-! ### The end of pools (R371, R385) -/

/-- From `s` to `t` only the link's frames, the pools and the epochs differ. -/
def OnlyPools (s t : State) : Prop := ∃ slk pools epochs, t = { s with slk := slk, pools := pools, epochs := epochs }

theorem onlyPools_refl (s : State) : OnlyPools s s := ⟨_, _, _, rfl⟩

theorem onlyPools_trans {s t u : State} (h : OnlyPools s t) (k : OnlyPools t u) : OnlyPools s u := by
  obtain ⟨_, _, _, rfl⟩ := h
  obtain ⟨_, _, _, rfl⟩ := k
  exact ⟨_, _, _, rfl⟩

theorem onlyPools_sendOn (s : State) (k p : Nat) (f : LinkFrame) : OnlyPools s (s.sendOn k p f) := by
  unfold State.sendOn
  dsimp only
  split
  · exact ⟨_, _, _, rfl⟩
  · split
    · exact ⟨_, _, _, rfl⟩
    · exact onlyPools_refl s

theorem onlyPools_sendTo {s t : State} {dst ty tenant : Nat} {conf : Bool} {payload : List Byte}
    (e : s.sendTo dst ty tenant conf payload = some t) : OnlyPools s t := by
  unfold State.sendTo at e
  split at e
  · cases e
  · simp only [Option.bind_eq_some_iff, Option.map_eq_some_iff] at e
    obtain ⟨r, _, p, _, rfl⟩ := e
    exact onlyPools_sendOn s _ _ _

theorem onlyPools_sendMsg {s t : State} {dst ty tenant : Nat} {conf : Bool} {b0 flags : Nat} {body : List Byte}
    (e : s.sendMsg dst ty tenant conf b0 flags body = some t) : OnlyPools s t := by
  refine foldl_keeps (P := fun (o : Option State) => ∀ u, o = some u → OnlyPools s u) _ _ ?_ ?_ t e
  · intro o part ho u hu
    obtain ⟨x, hx, hsent⟩ := Option.bind_eq_some_iff.1 hu
    exact onlyPools_trans (ho x hx) (onlyPools_sendTo hsent)
  · rintro u ⟨⟩
    exact onlyPools_refl s

theorem onlyPools_tellPool (s : State) (n tenant kind v : Nat) (data : List Byte) : OnlyPools s (s.tellPool n tenant kind v data) := by
  unfold State.tellPool State.tellStream
  cases e : s.sendStream (BitVec.ofNat 6 n) tenant kind 0 v data with
  | none => exact onlyPools_refl s
  | some t => exact onlyPools_sendMsg e

theorem onlyPools_poolGone (s : State) (g : Nat) : OnlyPools s (s.poolGone g) := by
  have htold : OnlyPools s (match s.pool g with
      | some p => (s.poolPeers p).foldl (fun (s : State) n => s.tellPool n p.tenant 9 p.share []) s
      | none => s) := by
    split
    · exact foldl_keeps _ _ (fun x n hx => onlyPools_trans hx (onlyPools_tellPool x _ _ _ _ _)) (onlyPools_refl s)
    · exact onlyPools_refl s
  exact onlyPools_trans htold ⟨_, _, _, rfl⟩

/-- A tenant's pools are gone. -/
def State.poolsEnded (i : Nat) (s : State) : State :=
  (s.pools.filter (fun e => e.2.any (fun (p : Pool) => p.tenant == i))).foldl (fun s e => s.poolGone e.1) s

theorem onlyPools_poolsEnded (i : Nat) (s : State) : OnlyPools s (s.poolsEnded i) :=
  foldl_keeps _ _ (fun x e hx => onlyPools_trans hx (onlyPools_poolGone x e.1)) (onlyPools_refl s)

theorem poolsEnded_of_no_pools {i : Nat} {s : State} (h : s.pools = []) : s.poolsEnded i = s := by
  rw [State.poolsEnded, h]
  rfl

/-! ### The end of a tenant (R201, R476) -/

theorem withTenant_tenant_self (s : State) (i : Nat) (t : Option Tenant) : (s.withTenant i t).tenant i = t :=
  tget_tset_self none t s.tenants i

theorem withTenant_tenant_ne (s : State) {i j : Nat} (t : Option Tenant) (hj : j ≠ i) : (s.withTenant i t).tenant j = s.tenant j :=
  tget_tset_ne none t s.tenants hj

/-- A tenant's images are unloaded. -/
def State.imagesUnloaded (i : Nat) (s : State) : State :=
  { s with images := s.images.filter (fun (e : Nat × Option Image) => !(e.2.any (fun (m : Image) => m.tenant == i))) }

/-- The shares that a tenant holds for other parts' pools are dropped. -/
def State.sharesDropped (i : Nat) (s : State) : State := { s with kvShares := s.kvShares.filter (fun e => e.2.tenant ≠ i) }

/-- A tenant's images are unloaded, its pools destroyed, its shares dropped, its key slot zeroised, and its number is free. -/
def State.tenantEnded (i : Nat) (s : State) : State :=
  ((((s.imagesUnloaded i).poolsEnded i).sharesDropped i).zeroise i).withTenant i none

theorem applyTenantDestroy_eq (c : Cmd) (s : State) : State.applyTenantDestroy c s = (s.tenantEnded c.tenant).served c [] := rfl

/-- The end of a tenant, but for the link's frames, the pools and the epochs. -/
theorem tenantEnded_eq (i : Nat) (s : State) : ∃ slk pools epochs, s.tenantEnded i =
    ((({ s.imagesUnloaded i with slk := slk, pools := pools, epochs := epochs } : State).sharesDropped i).zeroise i).withTenant i none := by
  obtain ⟨slk, pools, epochs, h⟩ := onlyPools_poolsEnded i (s.imagesUnloaded i)
  exact ⟨slk, pools, epochs, by rw [State.tenantEnded, h]⟩

theorem tenantEnded_tenant (i : Nat) (s : State) : (s.tenantEnded i).tenant i = none := by
  obtain ⟨slk, pools, epochs, h⟩ := tenantEnded_eq i s
  rw [h]
  exact withTenant_tenant_self _ _ _

theorem tenantEnded_tenant_ne {i j : Nat} (hj : j ≠ i) (s : State) : (s.tenantEnded i).tenant j = s.tenant j := by
  obtain ⟨slk, pools, epochs, h⟩ := tenantEnded_eq i s
  rw [h]
  exact withTenant_tenant_ne _ _ hj

theorem tenantEnded_slot (i : Nat) (s : State) : (s.tenantEnded i).slot i = {} := by
  obtain ⟨slk, pools, epochs, h⟩ := tenantEnded_eq i s
  rw [h]
  exact slot_modSlot_self _ _ _

theorem tenantEnded_slot_ne {i j : Nat} (hj : j ≠ i) (s : State) : (s.tenantEnded i).slot j = s.slot j := by
  obtain ⟨slk, pools, epochs, h⟩ := tenantEnded_eq i s
  rw [h]
  exact slot_modSlot_ne _ _ hj

theorem tenantEnded_images {i : Nat} {s : State} {e : Nat × Option Image} (he : e ∈ (s.tenantEnded i).images) {m : Image}
    (hm : e.2 = some m) : m.tenant ≠ i := by
  obtain ⟨slk, pools, epochs, h⟩ := tenantEnded_eq i s
  rw [h] at he
  have hkept := (List.mem_filter.1 he).2
  simpa [hm] using hkept

theorem tenantEnded_kvShares {i : Nat} {s : State} {e : Nat × Pool} (he : e ∈ (s.tenantEnded i).kvShares) : e.2.tenant ≠ i := by
  obtain ⟨slk, pools, epochs, h⟩ := tenantEnded_eq i s
  rw [h] at he
  exact of_decide_eq_true (List.mem_filter.1 he).2

/-- The end of a tenant leaves the descriptors, the memory, the jobs and the rules. -/
theorem tenantEnded_frame (i : Nat) (s : State) :
    (s.tenantEnded i).key.descs = s.key.descs ∧ (s.tenantEnded i).mem = s.mem ∧ (s.tenantEnded i).jobs = s.jobs ∧
      (s.tenantEnded i).rules = s.rules := by
  obtain ⟨slk, pools, epochs, h⟩ := tenantEnded_eq i s
  rw [h]
  exact ⟨rfl, rfl, rfl, rfl⟩

theorem tenantEnded_of_no_pools {i : Nat} {s : State} (hp : s.pools = []) :
    (s.tenantEnded i).epochs = s.epochs ∧ (s.tenantEnded i).cmds = s.cmds := by
  have hkept : (s.imagesUnloaded i).poolsEnded i = s.imagesUnloaded i := poolsEnded_of_no_pools hp
  rw [State.tenantEnded, hkept]
  exact ⟨rfl, rfl⟩

/-! ### TENANT_DESTROY (R201) -/

/-- Is the tenant in use: by a job, an enabled cascade rule or the camera (R201, R434)? -/
def State.tenantBusy (s : State) (i : Nat) : Bool :=
  s.jobs.any (fun e => e.2.any (fun j => j.tenant == i)) || s.rules.any (fun e => e.2.enabled && e.2.tenant == i) ||
    (s.cam.running && s.cam.owner.toNat == i)

theorem tenantBusy_of_rule {s : State} {i : Nat} (h : ∃ e ∈ s.rules, e.2.enabled = true ∧ e.2.tenant = i) :
    s.tenantBusy i = true := by
  have hrule : s.rules.any (fun e => e.2.enabled && e.2.tenant == i) = true := by simpa using h
  simp [State.tenantBusy, hrule]

theorem tenantBusy_eq_false {s : State} {i : Nat} (hj : ∀ e ∈ s.jobs, ∀ j, e.2 = some j → j.tenant ≠ i)
    (hr : ∀ e ∈ s.rules, e.2.enabled = true → e.2.tenant ≠ i) (hc : s.cam.running = true → s.cam.owner.toNat ≠ i) :
    s.tenantBusy i = false := by
  have hjobs : s.jobs.any (fun e => e.2.any (fun j => j.tenant == i)) = false := by
    simpa [Option.any_eq_false] using hj
  have hrules : s.rules.any (fun e => e.2.enabled && e.2.tenant == i) = false := by simpa using hr
  have hcam : (s.cam.running && s.cam.owner.toNat == i) = false := by simpa using hc
  rw [State.tenantBusy, hjobs, hrules, hcam]
  rfl

theorem checkTenantDestroy_params {s : State} {c : Cmd} (h : c.params ≠ []) : checkTenantDestroy s c = some 0x0107 := if_pos h

theorem checkTenantDestroy_streams {s : State} {c : Cmd} (hb : c.params = []) (hs : s.tenantStreams c.tenant ≠ []) :
    checkTenantDestroy s c = some 0x0401 :=
  (if_neg (not_not.2 hb)).trans (if_pos hs)

theorem checkTenantDestroy_no_streams {s : State} {c : Cmd} (hb : c.params = []) (hs : s.tenantStreams c.tenant = []) :
    checkTenantDestroy s c = if s.tenantBusy c.tenant then some 0x0402 else none :=
  (if_neg (not_not.2 hb)).trans (if_neg (not_not.2 hs))

section Destroy
variable {s : State} {c : Cmd} (h : Ready s c 0x0011)
include h

theorem exec_tenantDestroy_served (hc : checkTenantDestroy s c = none) :
    exec (.tenantDestroy c.id) s = .next (((begun s c).tenantEnded c.tenant).served (going c) []) :=
  congrArg _ ((command_ready h rfl hc).trans (applyTenantDestroy_eq _ _))

theorem exec_tenantDestroy_refused {rs : Nat} (hc : checkTenantDestroy s c = some rs) :
    exec (.tenantDestroy c.id) s = .next (s.complete c 3 rs) :=
  congrArg _ (command_refused h rfl hc)

theorem exec_tenantDestroy_busy (hb : c.params = []) (hs : s.tenantStreams c.tenant = []) (hbusy : s.tenantBusy c.tenant = true) :
    exec (.tenantDestroy c.id) s = .next (s.complete c 3 0x0402) :=
  exec_tenantDestroy_refused h (by rw [checkTenantDestroy_no_streams hb hs, if_pos hbusy])

end Destroy

/-! ### The statement's parts together -/

theorem says_tenantCommands : Says.TenantCommands := by
  intro s c
  refine ⟨⟨rfl, rfl, rfl, rfl, rfl, rfl, rfl, rfl, rfl, rfl⟩, ?create, ?alreadyThere, ?badField, ?createDenied, ?noTenant, ?set,
    ?setRefused, ?destroy, ?openStream, ?activeJob, ?activeUse, ?params, fun _ _ => rfl⟩
  case create =>
    intro h hn hb hd hcap
    exact exec_tenantCreate_served h (by rw [checkTenantCreate_new hn hb, hd, hcap]; rfl)
  case alreadyThere =>
    intro h hn
    exact exec_tenantCreate_refused h (checkTenantCreate_bad (.inl hn))
  case badField =>
    intro h hbad
    exact exec_tenantCreate_refused h (checkTenantCreate_bad (.inr (tenantBlockOk_bad_field hbad)))
  case createDenied =>
    intro h hn hb
    refine ⟨fun hd => exec_tenantCreate_refused h ?_, fun hd hcap => exec_tenantCreate_refused h ?_⟩
    · rw [checkTenantCreate_new hn hb, if_pos hd]
    · rw [checkTenantCreate_new hn hb, hd, hcap]
      rfl
  case noTenant =>
    intro h hn
    exact exec_tenantSet_refused h (checkTenantSet_none hn)
  case set =>
    intro h hb hd old ho hcap hbreak
    refine exec_tenantSet_served h ((checkTenantSet_some ho hb hd).trans (if_neg ?_)) ho
    rw [Tenant.replaced, hcap, hbreak]
    decide
  case setRefused =>
    intro h hb hd old ho hbad
    exact exec_tenantSet_refused h ((checkTenantSet_some ho hb hd).trans (if_pos (Bool.or_eq_true_iff.2 hbad)))
  case destroy =>
    intro h hb hs hj hr hc
    have hfree := checkTenantDestroy_no_streams hb hs
    rw [tenantBusy_eq_false hj hr hc] at hfree
    obtain ⟨hdescs, hmem, hjobs, hrules⟩ := tenantEnded_frame c.tenant (begun s c)
    exact ⟨_, exec_tenantDestroy_served h hfree, tenantEnded_tenant _ _, tenantEnded_slot _ _,
      fun i hi => ⟨tenantEnded_tenant_ne hi _, tenantEnded_slot_ne hi _⟩, fun e he m hm => tenantEnded_images he hm,
      fun e he => tenantEnded_kvShares he, hdescs, hmem, hjobs, hrules, fun hp => tenantEnded_of_no_pools hp⟩
  case openStream =>
    intro h hb hs
    exact exec_tenantDestroy_refused h (checkTenantDestroy_streams hb hs)
  case activeJob =>
    intro h hb hs hj
    exact exec_tenantDestroy_busy h hb hs (by simp [State.tenantBusy, hj])
  case activeUse =>
    rintro h hb hs (⟨hrun, hown⟩ | hrule)
    · exact exec_tenantDestroy_busy h hb hs (by simp [State.tenantBusy, hrun, hown])
    · exact exec_tenantDestroy_busy h hb hs (tenantBusy_of_rule hrule)
  case params =>
    intro h hb
    exact exec_tenantDestroy_refused h (checkTenantDestroy_params hb)

/-- Settles O22: the tenant commands by what their checks answer, the density as the least share of the window that holds the reserve, and
the cap by the one test of R212. -/
theorem tenantsAndDensity : Obligations.TenantsAndDensity :=
  ⟨says_tenantCommands, says_streamDensity, says_rtCapWrites⟩

end Sys2Proof.Machine
end

section
/-!
SUPPORT. The rules of a core that waits (chapters 9 and 10): two changes of one core in turn, the end of a wait, and what wakes SWAIT and
WAIT.
-/
namespace Sys2Proof.Machine
open Sys2Proof.Safety

/-! ### Two changes of one core -/

theorem tput_tput {α : Type} (t : Tbl α) (i : Nat) (v v' : α) : tput (tput t i v) i v' = tput t i v' := by
  induction t with
  | nil => simp [tput]
  | cons e t ih =>
    obtain ⟨k, w⟩ := e
    by_cases hk : k = i
    · simp [tput, hk]
    · by_cases hlt : i < k
      · simp [tput, hk, hlt]
      · simp [tput, hk, hlt, ih]

theorem filter_tput {α : Type} (t : Tbl α) (i : Nat) (v : α) :
    (tput t i v).filter (fun e => e.1 ≠ i) = t.filter (fun e => e.1 ≠ i) := by
  induction t with
  | nil => simp [tput]
  | cons e t ih =>
    obtain ⟨k, w⟩ := e
    by_cases hk : k = i
    · simp [tput, hk]
    · by_cases hlt : i < k
      · simp [tput, hk, hlt]
      · simpa [tput, hk, hlt] using ih

/-- Of two writes at one index the second stays. A default written first would drop entries of a table that is not canonical. -/
theorem tset_tset {α : Type} [DecidableEq α] {d v : α} (t : Tbl α) (i : Nat) (hv : v ≠ d) (v' : α) :
    tset d (tset d t i v) i v' = tset d t i v' := by
  simp only [tset, if_neg hv, tput_tput, filter_tput]

theorem modCore_modCore {s : State} {c : Nat} {f : Core → Core} (h : f (s.core c) ≠ {}) (g : Core → Core) :
    (s.modCore c f).modCore c g = s.modCore c (fun x => g (f x)) := by
  have hcores : tmod {} (tmod {} s.cores c f) c g = tmod {} s.cores c (fun x => g (f x)) := by
    simp only [tmod, tget_tset_self]
    exact tset_tset _ _ h _
  simp only [State.modCore, hcores]

theorem modCore_congr {s : State} {c : Nat} {f g : Core → Core} (h : f (s.core c) = g (s.core c)) :
    s.modCore c f = s.modCore c g :=
  congrArg (fun x => { s with cores := tset {} s.cores c x }) h

theorem ne_default_of_waits {x : Core} {u : Wait} (h : x.wait = some u) : x ≠ {} := by
  rintro rfl
  cases h

theorem ne_default_of_runs {x : Core} (h : x.phase = .running) : x ≠ {} := by
  rintro rfl
  cases h

/-! ### The end of a wait -/

/-- The loop-end test changes the PC, the loop counters and the stack of loops alone. -/
theorem loopEnd_frame (k : Nat) (x : Core) (pc : Nat) :
    ∃ pc' n loops, loopEnd k x pc = { x with pc := pc', n := n, loops := loops } := by
  induction k generalizing x with
  | zero => exact ⟨_, _, _, rfl⟩
  | succ k ih =>
    rw [loopEnd]
    split
    · exact ⟨_, _, _, rfl⟩
    · split
      · exact ⟨_, _, _, rfl⟩
      · dsimp only
        split
        · exact ⟨_, _, _, rfl⟩
        · obtain ⟨pc', n, loops, h⟩ := ih _
          exact ⟨pc', n, loops, h⟩

theorem loopEnd_no_loops {x : Core} (h : x.loops = []) (k pc : Nat) : loopEnd (k + 1) x pc = { x with pc := pc + 1 } := by
  simp [loopEnd, h]

@[simp] theorem core_disarm (s : State) (o : Owner) (c : Nat) : (s.disarm o).core c = s.core c := rfl

theorem core_retire_next (s : State) (c : Nat) : (s.retire c none).core c =
    loopEnd 5 { s.core c with instrs := satInc (s.core c).instrs, progress := 0 } (s.core c).pc :=
  core_modCore_self s c _

/-- A core whose wait has ended, before its PC moves on (R248). -/
def Core.released (x : Core) : Core :=
  { x with
    wait := none, wakeMsg := none, events := if x.wakeMsg.isSome then setBit x.events 1 else x.events
    instrs := satInc x.instrs, progress := 0 }

theorem core_waitEnds (s : State) (c : Nat) :
    (s.waitEnds c).core c = loopEnd 5 (s.core c).released (s.core c).pc := by
  rw [State.waitEnds, core_retire_next, core_disarm, core_modCore_self]
  rfl

theorem core_waitEnds_frame (s : State) (c : Nat) :
    ∃ pc n loops, (s.waitEnds c).core c = { (s.core c).released with pc := pc, n := n, loops := loops } := by
  rw [core_waitEnds]
  exact loopEnd_frame 5 _ _

@[simp] theorem waitEnds_events (s : State) (c : Nat) : ((s.waitEnds c).core c).events =
    if (s.core c).wakeMsg.isSome then setBit (s.core c).events 1 else (s.core c).events := by
  obtain ⟨_, _, _, h⟩ := core_waitEnds_frame s c
  rw [h]
  rfl
@[simp] theorem waitEnds_wait (s : State) (c : Nat) : ((s.waitEnds c).core c).wait = none := by
  obtain ⟨_, _, _, h⟩ := core_waitEnds_frame s c
  rw [h]
  rfl
@[simp] theorem waitEnds_p (s : State) (c : Nat) : ((s.waitEnds c).core c).p = (s.core c).p := by
  obtain ⟨_, _, _, h⟩ := core_waitEnds_frame s c
  rw [h]
  rfl
@[simp] theorem waitEnds_sync (s : State) (c : Nat) : ((s.waitEnds c).core c).sync = (s.core c).sync := by
  obtain ⟨_, _, _, h⟩ := core_waitEnds_frame s c
  rw [h]
  rfl
theorem waitEnds_pc {s : State} {c : Nat} (h : (s.core c).loops = []) :
    ((s.waitEnds c).core c).pc = (s.core c).pc + 1 := by
  have hreleased : (s.core c).released.loops = [] := h
  rw [core_waitEnds, loopEnd_no_loops hreleased]
@[simp] theorem waitEnds_obs (s : State) (c : Nat) : (s.waitEnds c).obs = s.obs := rfl

/-! ### SWAIT's test and the wake of a wait -/

/-- SWAIT consumes its value from a cell that holds it and writes 1 (R270). -/
def Core.took (w : W128) (x : Core) : Core :=
  { x with
    sync := tset 0 x.sync (fld w 16 5) (BitVec.ofNat 32 ((tget 0 x.sync (fld w 16 5)).toNat - fld w 64 16))
    p := tset false x.p (fld w 12 2) true }

theorem trySwait_of_le {s : State} {c : Nat} {w : W128} (h : fld w 64 16 ≤ (tget 0 (s.core c).sync (fld w 16 5)).toNat) :
    s.trySwait c w = some (s.modCore c (Core.took w)) :=
  if_pos h

theorem trySwait_of_lt {s : State} {c : Nat} {w : W128} (h : (tget 0 (s.core c).sync (fld w 16 5)).toNat < fld w 64 16) :
    s.trySwait c w = none :=
  if_neg (Nat.not_le.2 h)

theorem wake_of_no_wait {s : State} {c : Nat} (h : (s.core c).wait = none) : s.wake c = s := by
  rw [State.wake]
  split
  · rfl
  · rw [h]

theorem wake_swait {s : State} {c : Nat} {u : Wait} (hu : (s.core c).wait = some u) (hop : u.op = 0x61)
    (hrun : (s.core c).phase = .running) (h : fld u.word 64 16 ≤ (tget 0 (s.core c).sync (fld u.word 16 5)).toNat) :
    s.wake c = (s.modCore c (Core.took u.word)).waitEnds c := by
  simp [State.wake, hrun, hu, hop, trySwait_of_le h]

theorem wake_wait {s : State} {c : Nat} {u : Wait} (hu : (s.core c).wait = some u) (hop : u.op = 0x63)
    (hrun : (s.core c).phase = .running) (h : (s.core c).events &&& waitEv u.word ≠ 0) :
    s.wake c = (s.modCore c (fun x => { x with events := x.events &&& ~~~ waitEv u.word })).waitEnds c := by
  rw [State.wake, if_neg (not_not.2 hrun), hu]
  simp only [hop, h, ne_eq, not_false_eq_true, and_self, if_true]
  rfl

end Sys2Proof.Machine
end

section
/-!
SUPPORT. SWAIT (R270, R271, R277): what `exec` answers at the instruction and at its deadline, a signal that reaches the waiting core in the
cycle of the deadline, and the statement's part.
-/
namespace Sys2Proof.Machine
open Sys2Proof.Safety

/-! ### The instruction (R270) -/

section Issue
variable {s : State} {k : Fin 64} {w : W128} (h : TileAt s k w 0x61)
include h

theorem exec_tileSwait_empty (hv : fld w 64 16 = 0) :
    exec (.tileSwait k) s = .next (if s.dmasHeld k then s else s.tileFault k 0x10 (s.core k).pc) := by
  refine congrArg _ ((tile_at h rfl _).trans ?_)
  rw [if_pos hv]
  rfl

theorem exec_tileSwait_met (hv : fld w 64 16 ≠ 0) (hle : fld w 64 16 ≤ (tget 0 (s.core k).sync (fld w 16 5)).toNat) :
    exec (.tileSwait k) s = .next ((s.modCore k (Core.took w)).retire k none) := by
  refine congrArg _ ((tile_at h rfl _).trans ?_)
  rw [if_neg hv, trySwait_of_le hle]

theorem exec_tileSwait_waits (hv : fld w 64 16 ≠ 0) (hlt : (tget 0 (s.core k).sync (fld w 16 5)).toNat < fld w 64 16) :
    exec (.tileSwait k) s = .next (s.modCore k (fun x => { x with
      wait := some {
        op := 0x61, word := w, deadline := if fld w 96 32 = 0 then none else some (BitVec.ofNat 32 (fld w 96 32)) } })) := by
  have hdeadline : BitVec.ofNat 32 (fld w 96 32) = 0 ↔ fld w 96 32 = 0 := by
    simp [← BitVec.toNat_inj, fld, bits]
  refine congrArg _ ((tile_at h rfl _).trans ?_)
  rw [if_neg hv, trySwait_of_lt hlt]
  simp only [hdeadline]

end Issue

/-! ### A signal that reaches a running core -/

theorem sigTarget_of_job {s : State} {c j : Nat} {y : Job} (hj : (s.core c).job = some j) (hy : s.job j = some y) :
    s.sigTarget c y.tenant = some j := by
  simp [State.sigTarget, hj, hy]

/-- The state with the `i`-th signal in flight arrived. -/
def State.arrived (i : Nat) (s : State) : State := { s with sch.signals := s.sch.signals.eraseIdx i }

@[simp] theorem core_tie (s : State) (c : Nat) : s.tie.core c = s.core c := rfl
@[simp] theorem core_arrived (s : State) (i c : Nat) : (s.arrived i).core c = s.core c := rfl
@[simp] theorem arrived_obs (s : State) (i : Nat) : (s.arrived i).obs = s.obs := rfl

theorem applySignal_running {s : State} {g : Signal} {c j : Nat} {y : Job} (i : Nat) (ht : s.sigTarget g.core g.tenant = some j)
    (hy : s.job j = some y) (hep : g.epoch = none ∨ y.epoch = g.epoch) (hst : y.st = .running c) (hup : s.dieUp (c / 16) = true) :
    s.applySignal i g = ((s.arrived i).addCell c g.cell g.v).wake c := by
  have hown : (g.epoch.isSome && y.epoch ≠ g.epoch) = false := by
    obtain he | he := hep
    · simp [he]
    · simp [he]
  simp only [State.applySignal, ht, hy, hown, hst, hup, if_true, Bool.false_eq_true, if_false]
  rfl

/-- A core's cell gains a value that it can hold, and the wake wire fires (R263, R267). -/
def Core.gained (cell v : Nat) (x : Core) : Core :=
  { x with sync := tset 0 x.sync cell (BitVec.ofNat 32 ((tget 0 x.sync cell).toNat + v)), events := setBit x.events 0 }

theorem gained_cell {x : Core} {cell v : Nat} (h : (tget 0 x.sync cell).toNat + v ≤ 0xFFFFFFFF) :
    (tget 0 (x.gained cell v).sync cell).toNat = (tget 0 x.sync cell).toNat + v := by
  rw [Core.gained, tget_tset_self, BitVec.toNat_ofNat]
  exact Nat.mod_eq_of_lt (by omega)

theorem took_cell (w : W128) (x : Core) : (tget 0 (x.took w).sync (fld w 16 5)).toNat =
    ((tget 0 x.sync (fld w 16 5)).toNat - fld w 64 16) % 2 ^ 32 := by
  rw [Core.took, tget_tset_self, BitVec.toNat_ofNat]

theorem addCell_of_le {s : State} {c cell v : Nat} (h : (tget 0 (s.core c).sync cell).toNat + v ≤ 0xFFFFFFFF) :
    s.addCell c cell v = s.modCore c (Core.gained cell v) := by
  have hsat : satN 32 ((tget 0 (s.core c).sync cell).toNat + v) = BitVec.ofNat 32 ((tget 0 (s.core c).sync cell).toNat + v) :=
    if_neg (by omega)
  rw [State.addCell, hsat]
  exact (if_neg (Nat.not_lt.2 h)).trans (modCore_congr rfl)

/-- A value that meets the SWAIT of a running core: SWAIT consumes its own from the sum, and the wait ends (R267, R270). -/
theorem wake_addCell {s : State} {c v : Nat} {u : Wait} (hu : (s.core c).wait = some u) (hop : u.op = 0x61)
    (hrun : (s.core c).phase = .running)
    (hmeets : fld u.word 64 16 ≤ (tget 0 (s.core c).sync (fld u.word 16 5)).toNat + v)
    (hfits : (tget 0 (s.core c).sync (fld u.word 16 5)).toNat + v ≤ 0xFFFFFFFF) :
    (s.addCell c (fld u.word 16 5) v).wake c =
      ((s.modCore c (Core.gained (fld u.word 16 5) v)).modCore c (Core.took u.word)).waitEnds c := by
  rw [addCell_of_le hfits]
  refine wake_swait ?_ hop ?_ ?_
  · simpa [Core.gained] using hu
  · simpa [Core.gained] using hrun
  · rw [core_modCore_self, gained_cell hfits]
    exact hmeets

/-! ### The deadline (R271, R277) -/

/-- SWAIT's deadline passes with its condition unmet: 0 in the predicate, the cell left, the wait over (R271). -/
def State.swaitLate (k : Nat) (w : W128) (s : State) : State := (s.modCore k (fun x => x.wrP (fld w 12 2) false)).waitEnds k

theorem exec_swaitTimeout_no_wait {s : State} {k : Fin 64} (h : (s.core k).wait = none) (b : Bool) :
    exec (.swaitTimeout k b) s = .next s := by
  change Host.Outcome.next (match (s.core k).wait with | none => s | some _ => _) = _
  rw [h]

section Deadline
variable {s : State} {k : Fin 64} {u : Wait} (hu : (s.core k).wait = some u) (hop : u.op = 0x61) (hdl : u.deadline ≠ none)
  (hrun : (s.core k).phase = .running)
include hu hop hdl hrun

theorem exec_swaitTimeout_met (hle : fld u.word 64 16 ≤ (tget 0 (s.core k).sync (fld u.word 16 5)).toNat) (b : Bool) :
    exec (.swaitTimeout k b) s = .next ((s.modCore k (Core.took u.word)).waitEnds k) := by
  rw [← wake_swait hu hop hrun hle]
  simp [exec, execSwaitTimeout, hu, hop, hdl, hrun, trySwait_of_le hle]

section Unmet
variable (hlt : (tget 0 (s.core k).sync (fld u.word 16 5)).toNat < fld u.word 64 16)
include hlt

theorem exec_swaitTimeout_late : exec (.swaitTimeout k false) s = .next (s.swaitLate k u.word) := by
  simp [exec, execSwaitTimeout, hu, hop, hdl, hrun, trySwait_of_lt hlt, State.swaitLate]

theorem exec_swaitTimeout_no_signal (hsig : s.sch.signals = []) :
    exec (.swaitTimeout k true) s = .next (s.swaitLate k u.word) := by
  simp [exec, execSwaitTimeout, hu, hop, hdl, hrun, trySwait_of_lt hlt, State.swaitLate, hsig]

/-- The one signal in flight, for this cell of this context, reaches it in the cycle of the deadline and ends its wait. -/
theorem exec_swaitTimeout_arrival {g : Signal} (hsig : s.sch.signals = [g]) (hfree : g.target = none) (hnode : g.node = none)
    (htarget : s.sigTarget g.core g.tenant = (s.core k).job) (hcell : g.cell = fld u.word 16 5) (hheld : s.sigHeld g = false)
    (hends : ((s.applySignal 0 g).core k).wait = none) :
    exec (.swaitTimeout k true) s = .next (s.applySignal 0 g).tie := by
  simp [exec, execSwaitTimeout, hu, hop, hdl, hrun, trySwait_of_lt hlt, hsig, hfree, hnode, htarget, hcell, hheld, hends]

end Unmet
end Deadline

/-- The one signal in flight is for `cell` of the context `y` that runs on core `k`, and it can be delivered there: it is for this part and
held for no restore, of the context's tenant, of its epoch or none, and its bridge lets it through (R265-R269). -/
structure SoleSignal (s : State) (k j : Nat) (y : Job) (g : Signal) (cell : Nat) : Prop where
  job : (s.core k).job = some j
  entry : s.job j = some y
  runs : y.st = .running k
  only : s.sch.signals = [g]
  free : g.target = none
  epoch : g.epoch = none ∨ y.epoch = g.epoch
  here : g.node = none
  cell : g.cell = cell
  core : g.core = k
  tenant : g.tenant = y.tenant
  up : s.dieUp (k / 16) = true
  passes : s.sigHeld g = false

theorem SoleSignal.target {s : State} {k j : Nat} {y : Job} {g : Signal} {cell : Nat} (hg : SoleSignal s k j y g cell) :
    s.sigTarget g.core g.tenant = some j := by
  rw [hg.core, hg.tenant, sigTarget_of_job hg.job hg.entry]

/-- A signal that meets the wait arrives in the cycle of the deadline, and wins (R277). -/
theorem exec_swaitTimeout_meets {s : State} {k : Fin 64} {u : Wait} {j : Nat} {y : Job} {g : Signal} (hu : (s.core k).wait = some u)
    (hop : u.op = 0x61) (hdl : u.deadline ≠ none) (hrun : (s.core k).phase = .running)
    (hlt : (tget 0 (s.core k).sync (fld u.word 16 5)).toNat < fld u.word 64 16) (hg : SoleSignal s k j y g (fld u.word 16 5))
    (hmeets : fld u.word 64 16 ≤ (tget 0 (s.core k).sync (fld u.word 16 5)).toNat + g.v)
    (hfits : (tget 0 (s.core k).sync (fld u.word 16 5)).toNat + g.v ≤ 0xFFFFFFFF) :
    exec (.swaitTimeout k true) s = .next
      ((((s.arrived 0).modCore k (Core.gained (fld u.word 16 5) g.v)).modCore k (Core.took u.word)).waitEnds k).tie := by
  have happlied : s.applySignal 0 g =
      (((s.arrived 0).modCore k (Core.gained (fld u.word 16 5) g.v)).modCore k (Core.took u.word)).waitEnds k := by
    rw [applySignal_running 0 hg.target hg.entry hg.epoch hg.runs hg.up, hg.cell]
    exact wake_addCell hu hop hrun hmeets hfits
  have hends : ((s.applySignal 0 g).core k).wait = none := by rw [happlied, waitEnds_wait]
  rw [exec_swaitTimeout_arrival hu hop hdl hrun hlt hg.only hg.free hg.here (hg.target.trans hg.job.symm) hg.cell hg.passes hends,
    happlied]

/-! ### The statement's part -/

theorem says_syncWaits : Says.SyncWaits := by
  intro s k w
  refine ⟨fun h => ⟨exec_tileSwait_empty h, exec_tileSwait_met h, exec_tileSwait_waits h⟩, ?deadline, exec_swaitTimeout_no_wait⟩
  rintro u d hu hop hd hrun rfl
  have hdl : u.deadline ≠ none := by simp [hd]
  refine ⟨exec_swaitTimeout_met hu hop hdl hrun, fun hlt => ⟨exec_swaitTimeout_late hu hop hdl hrun hlt,
    exec_swaitTimeout_no_signal hu hop hdl hrun hlt, ?arrival⟩⟩
  intro j y g hj hy hst hsig hfree hep hnode hcell hcore hten hup hheld hloops hmeets hfits
  have hg : SoleSignal s k j y g (fld u.word 16 5) := ⟨hj, hy, hst, hsig, hfree, hep, hnode, hcell, hcore, hten, hup, hheld⟩
  refine ⟨_, exec_swaitTimeout_meets hu hop hdl hrun hlt hg hmeets hfits, ?predicate, ?wait, ?cell, ?pc, ?tie⟩
  case predicate => simp [Core.took]
  case wait => rw [core_tie, waitEnds_wait]
  case cell =>
    rw [core_tie, waitEnds_sync, core_modCore_self, core_modCore_self, core_arrived, took_cell, gained_cell hfits]
    exact Nat.mod_eq_of_lt (by omega)
  case pc =>
    rw [core_tie, waitEnds_pc (by simpa [Core.took, Core.gained] using hloops)]
    simp [Core.took, Core.gained]
  case tie => simp [State.tie]

end Sys2Proof.Machine
end

section
/-!
SUPPORT. TWAIT, WAIT and the compare that reaches a core (R247, R248): what `exec` answers, and the statement's part.
-/
namespace Sys2Proof.Machine
open Sys2Proof.Safety

/-! ### Timebases and targets -/

theorem selTb_eq_mpc {n : Nat} : selTb n = .mpc ↔ n = 3 := by
  rw [selTb]
  split
  · simp; omega
  · split <;> simp [*]

theorem toNat_tImm (w : W128) : (tImm w).toNat = w.toNat / 2 ^ 64 := by
  have hw := w.isLt
  rw [tImm, BitVec.toNat_ofNat, fld, bits, Nat.shiftRight_eq_div_pow, Nat.mod_mod]
  exact Nat.mod_eq_of_lt (by omega)

/-- A target is its base, A and IMM added up, modulo the width of the timebase (R247, Table 3.1). -/
theorem waitTarget_eq (s : State) (c : Nat) (tb : Timebase) (rel : Bool) (w : W128) (reg : Nat) :
    s.waitTarget c tb rel w reg =
      ((if rel then s.tbFor tb (.core c) else 0) + (tget 0 (s.core c).a reg).toNat + w.toNat / 2 ^ 64) %
        (match tb with | .sfc => 2 ^ 48 | .clc => 2 ^ 32 | .mpc => 2 ^ 48) := by
  rw [State.waitTarget, toNat_tImm]
  cases tb <;> rfl

/-! ### TWAIT (R247) -/

/-- TB of TWAIT. -/
abbrev twaitTb (w : W128) : Timebase := selTb (fld w 16 2)

/-- The target of the TWAIT `w` on core `c`. -/
abbrev State.twaitsFor (s : State) (c : Nat) (w : W128) : Nat := s.waitTarget c (twaitTb w) (bit w 18) w (fld w 20 4)

section Twait
variable {s : State} {k : Fin 64} {w : W128} (h : TileAt s k w 0x62)
include h

theorem exec_tileTwait_unsupported (htb : fld w 16 2 = 3) (hrev : s.rev2 = false) :
    exec (.tileTwait k) s = .next (if s.dmasHeld k then s else s.tileFault k 0x0E (s.core k).pc) := by
  refine congrArg _ ((tile_at h rfl _).trans ?_)
  dsimp only
  rw [if_pos ⟨selTb_eq_mpc.2 htb, by simp [hrev]⟩]
  rfl

theorem exec_tileTwait_arms (hrev : fld w 16 2 = 3 → s.rev2 = true) :
    exec (.tileTwait k) s = .next
      ((s.arm (twaitTb w) (s.twaitsFor k w) (.core k)).modCore k (fun x =>
        { x with wait := some { op := 0x62, word := w, target := BitVec.ofNat 64 (s.twaitsFor k w) } })) := by
  refine congrArg _ ((tile_at h rfl _).trans ?_)
  dsimp only
  rw [if_neg (fun hu => by simp [hrev (selTb_eq_mpc.1 hu.1)] at hu)]

end Twait

/-! ### WAIT (R248) -/

/-- TB of WAIT. -/
abbrev waitTb (w : W128) : Timebase := selTb (fld w 20 2)

/-- The target of the compare that the WAIT `w` on core `c` includes. -/
abbrev State.waitsFor (s : State) (c : Nat) (w : W128) : Nat := s.waitTarget c (waitTb w) false w (fld w 24 4)

section Wait
variable {s : State} {k : Fin 64} {w : W128} (h : TileAt s k w 0x63) (dz : Nat)
include h

theorem exec_tileWait_empty (hev : waitEv w = 0) :
    exec (.tileWait k dz) s = .next (if s.dmasHeld k then s else s.tileFault k 0x10 (s.core k).pc) := by
  refine congrArg _ ((tile_at h rfl _).trans ?_)
  dsimp only
  rw [if_pos hev]
  rfl

theorem exec_tileWait_unsupported (hcmp : bit (waitEv w) 1 = true) (htb : fld w 20 2 = 3) (hrev : s.rev2 = false) :
    exec (.tileWait k dz) s = .next (if s.dmasHeld k then s else s.tileFault k 0x0E (s.core k).pc) := by
  have hev : waitEv w ≠ 0 := fun h0 => by simp [h0, bit] at hcmp
  refine congrArg _ ((tile_at h rfl _).trans ?_)
  dsimp only
  rw [if_neg hev, if_pos ⟨hcmp, selTb_eq_mpc.2 htb, by simp [hrev]⟩]
  rfl

section Supported
variable (hev : waitEv w ≠ 0) (hrev : bit (waitEv w) 1 = true → fld w 20 2 = 3 → s.rev2 = true)
include hev hrev

/-- WAIT past its faults: a pending event, a compare that fires as it is armed, or a wait. -/
theorem exec_tileWait_supported : exec (.tileWait k dz) s = .next
    (if (s.core k).events &&& waitEv w ≠ 0 then
      (s.modCore k (fun x => { x with events := x.events &&& ~~~ waitEv w })).retire k none
    else if bit (waitEv w) 1 ∧ waitTb w = .sfc ∧ s.reachedNow (waitTb w) (.core k) (s.waitsFor k w) then s.retire k none
    else (if bit (waitEv w) 1 then s.arm (waitTb w) (s.waitsFor k w) (.core k) else s).modCore k (fun x => { x with
        wait := some { op := 0x63, word := w, target := if bit (waitEv w) 1 then BitVec.ofNat 64 (s.waitsFor k w) else 0 }
        dozeRc := if x.doze then satAdd x.dozeRc dz else x.dozeRc })) := by
  refine congrArg _ ((tile_at h rfl _).trans ?_)
  dsimp only
  rw [if_neg hev, if_neg (fun ⟨hcmp, htb, hu⟩ => by simp [hrev hcmp (selTb_eq_mpc.1 htb)] at hu)]
  by_cases hpend : (s.core k).events &&& waitEv w ≠ 0
  · rw [if_pos hpend, if_pos hpend]
  by_cases hnow : bit (waitEv w) 1 ∧ waitTb w = .sfc ∧ s.reachedNow (waitTb w) (.core k) (s.waitsFor k w)
  · rw [if_neg hpend, if_neg hpend, if_pos hnow, if_pos hnow]
  · rw [if_neg hpend, if_neg hpend, if_neg hnow, if_neg hnow]

theorem exec_tileWait_pending (hpend : (s.core k).events &&& waitEv w ≠ 0) : exec (.tileWait k dz) s =
    .next ((s.modCore k (fun x => { x with events := x.events &&& ~~~ waitEv w })).retire k none) := by
  rw [exec_tileWait_supported h dz hev hrev, if_pos hpend]

theorem exec_tileWait_no_compare (hpend : (s.core k).events &&& waitEv w = 0) (hcmp : bit (waitEv w) 1 = false) :
    exec (.tileWait k dz) s = .next (s.modCore k (fun x =>
      { x with wait := some { op := 0x63, word := w }, dozeRc := if x.doze then satAdd x.dozeRc dz else x.dozeRc })) := by
  rw [exec_tileWait_supported h dz hev hrev, if_neg (not_not.2 hpend), if_neg (by simp [hcmp])]
  simp only [hcmp, Bool.false_eq_true, if_false]

section Compare
variable (hpend : (s.core k).events &&& waitEv w = 0) (hcmp : bit (waitEv w) 1 = true)
include hpend hcmp

theorem exec_tileWait_reached (htb : waitTb w = .sfc) (hnow : s.reachedNow (waitTb w) (.core k) (s.waitsFor k w) = true) :
    exec (.tileWait k dz) s = .next (s.retire k none) := by
  rw [exec_tileWait_supported h dz hev hrev, if_neg (not_not.2 hpend), if_pos ⟨hcmp, htb, hnow⟩]

theorem exec_tileWait_arms (hnow : waitTb w = .sfc → s.reachedNow (waitTb w) (.core k) (s.waitsFor k w) = false) :
    exec (.tileWait k dz) s = .next
      ((s.arm (waitTb w) (s.waitsFor k w) (.core k)).modCore k (fun x => { x with
        wait := some { op := 0x63, word := w, target := BitVec.ofNat 64 (s.waitsFor k w) }
        dozeRc := if x.doze then satAdd x.dozeRc dz else x.dozeRc })) := by
  rw [exec_tileWait_supported h dz hev hrev, if_neg (not_not.2 hpend),
    if_neg (fun ⟨_, htb, hreached⟩ => by simp [hnow htb] at hreached)]
  simp only [hcmp, if_true]

end Compare
end Supported
end Wait

/-! ### A compare that reaches its core (R57, R248) -/

/-- An event for a core that waits for nothing stays pending. -/
theorem coreFired_no_wait {s : State} {c : Nat} (hrun : (s.core c).phase = .running) (hw : (s.core c).wait = none) (late : Nat)
    (skipped : Bool) : s.coreFired c late skipped = s.modCore c (fun x => { x with events := setBit x.events 1 }) := by
  rw [State.coreFired, if_neg (not_not.2 hrun), hw]
  exact wake_of_no_wait (by simpa using hw)

theorem coreFired_twait {s : State} {c : Nat} {u : Wait} (hrun : (s.core c).phase = .running) (hu : (s.core c).wait = some u)
    (hop : u.op = 0x62) (late : Nat) (skipped : Bool) : s.coreFired c late skipped =
      (s.modCore c (fun x => { x with
        a := tset 0 x.a (fld u.word 24 4) (BitVec.ofNat 64 late), p := tset false x.p (fld u.word 12 2) skipped })).waitEnds c := by
  rw [State.coreFired, if_neg (not_not.2 hrun), hu]
  exact if_pos hop

/-- Bit 1 of the events that a WAIT includes is EV's (R248). -/
theorem bit_waitEv_one (w : W128) : bit (waitEv w) 1 = bit w 17 := by
  have hfield : (w.toNat >>> 16 % 2 ^ 3).testBit 1 = w.toNat.testBit 17 := by
    rw [Nat.testBit_mod_two_pow, Nat.testBit_shiftRight]
    rfl
  rw [waitEv, bit, BitVec.getLsbD_ofNat]
  exact hfield

/-- The compare's event alone is taken whole by a WAIT that includes it. -/
theorem compareEvent_taken : ∀ e : BitVec 3, bit e 1 = true → setBit 0 1 &&& e ≠ 0 ∧ setBit 0 1 &&& ~~~ e = 0 := by decide

/-- The compare's event ends a WAIT that includes it, which takes it. -/
theorem coreFired_wait {s : State} {c : Nat} {u : Wait} (hrun : (s.core c).phase = .running) (hu : (s.core c).wait = some u)
    (hop : u.op = 0x63) (hinc : bit u.word 17 = true) (hev : (s.core c).events = 0) (late : Nat) (skipped : Bool) :
    s.coreFired c late skipped = (s.modCore c (fun x => { x with events := 0 })).waitEnds c := by
  obtain ⟨hends, hnone⟩ := compareEvent_taken (waitEv u.word) ((bit_waitEv_one _).trans hinc)
  have hfires : s.coreFired c late skipped = s.coreEvent c 1 := by
    rw [State.coreFired, if_neg (not_not.2 hrun), hu]
    simp [hop]
  rw [hfires, State.coreEvent, wake_wait (by simpa using hu) hop (by simpa using hrun) (by simpa [hev] using hends),
    modCore_modCore (ne_default_of_waits hu)]
  refine congrArg _ (modCore_congr ?_)
  rw [hev, hnone]

theorem exec_compareWakeMessage_none {s : State} {k : Fin 64} (h : (s.core k).wakeMsg = none) :
    exec (.compareWakeMessage k) s = .next s := by
  simp [exec, execCompareWakeMessage, h]

section Message
variable {s : State} {k : Fin 64} {late : Nat} {skipped : Bool} (hm : (s.core k).wakeMsg = some (late, skipped))
include hm

theorem exec_compareWakeMessage_held (hheld : s.dieHeld (k / 16) = true) : exec (.compareWakeMessage k) s = .next s := by
  simp [exec, execCompareWakeMessage, hm, hheld]

variable (hfree : s.dieHeld (k / 16) = false) (hrun : (s.core k).phase = .running)
include hfree

theorem exec_compareWakeMessage_arrives : exec (.compareWakeMessage k) s =
    .next ((s.modCore k (fun x => { x with wakeMsg := none })).coreFired k late skipped) := by
  simp [exec, execCompareWakeMessage, hm, hfree]

include hrun

theorem exec_compareWakeMessage_no_wait (hw : (s.core k).wait = none) : exec (.compareWakeMessage k) s =
    .next (s.modCore k (fun x => { x with wakeMsg := none, events := setBit x.events 1 })) := by
  rw [exec_compareWakeMessage_arrives hm hfree, coreFired_no_wait (by simpa using hrun) (by simpa using hw),
    modCore_modCore (ne_default_of_runs hrun)]

variable {u : Wait} (hu : (s.core k).wait = some u)
include hu

theorem exec_compareWakeMessage_twait (hop : u.op = 0x62) : exec (.compareWakeMessage k) s =
    .next ((s.modCore k (fun x => { x with
      wakeMsg := none
      a := tset 0 x.a (fld u.word 24 4) (BitVec.ofNat 64 late)
      p := tset false x.p (fld u.word 12 2) skipped })).waitEnds k) := by
  rw [exec_compareWakeMessage_arrives hm hfree, coreFired_twait (by simpa using hrun) (by simpa using hu) hop,
    modCore_modCore (ne_default_of_waits hu)]

theorem exec_compareWakeMessage_wait (hop : u.op = 0x63) (hinc : bit u.word 17 = true) (hev : (s.core k).events = 0) :
    exec (.compareWakeMessage k) s = .next ((s.modCore k (fun x => { x with wakeMsg := none, events := 0 })).waitEnds k) := by
  rw [exec_compareWakeMessage_arrives hm hfree, coreFired_wait (by simpa using hrun) (by simpa using hu) hop hinc (by simpa using hev),
    modCore_modCore (ne_default_of_waits hu)]

end Message

/-! ### The statement's part -/

theorem says_timedWaits : Says.TimedWaits := by
  intro s k w
  refine ⟨?twait, ?wait, ?arrives, ?pending, ?noMessage⟩
  case twait =>
    intro h _
    refine ⟨exec_tileTwait_unsupported h, fun hrev => ?_⟩
    rw [exec_tileTwait_arms h hrev, State.twaitsFor, waitTarget_eq]
    rfl
  case wait =>
    intro dz h
    refine ⟨exec_tileWait_empty h dz, exec_tileWait_unsupported h dz, fun hev hrev => ⟨exec_tileWait_pending h dz hev hrev,
      exec_tileWait_no_compare h dz hev hrev, ?reached, ?arms⟩⟩
    case reached =>
      intro hpend hcmp htb hnow
      refine exec_tileWait_reached h dz hev hrev hpend hcmp htb ?_
      rw [State.waitsFor, waitTarget_eq]
      exact hnow
    case arms =>
      intro hpend hcmp hnow
      refine ⟨_, exec_tileWait_arms h dz hev hrev hpend hcmp (by rw [State.waitsFor, waitTarget_eq]; exact hnow), ?_, _,
        congrArg Core.wait (core_modCore_self _ _ _), rfl, rfl⟩
      rw [State.waitsFor, waitTarget_eq]
      rfl
  case arrives =>
    rintro late skipped u hm hfree hrun hu
    refine ⟨?_, ?_⟩
    · rintro hop rfl
      exact exec_compareWakeMessage_twait hm hfree hrun hu hop
    · rintro hop rfl hinc hev
      exact exec_compareWakeMessage_wait hm hfree hrun hu hop hinc hev
  case pending =>
    intro late skipped hm
    exact ⟨exec_compareWakeMessage_held hm, exec_compareWakeMessage_no_wait hm, by simp [hm]⟩
  case noMessage =>
    intro hm
    exact ⟨by simp [hm], exec_compareWakeMessage_none hm⟩

end Sys2Proof.Machine
end

section
/-!
SUPPORT. The deadlock detector (R272-R275, R279): what keeps a part from being quiet, what a firing answers, and the statement on waits
with its three parts.
-/
namespace Sys2Proof.Machine
open Sys2Proof.Safety

/-! ### The quiet state (R272, R273) -/

/-- The quiet state of a part: its IOD carries no signal, its intake engine is at rest, no die is held, and a die that is UP is a candidate
or holds no context. -/
theorem parts_of_quiet {s : State} (h : s.quiet = true) :
    s.sch.signals = [] ∧ s.itk.run = none ∧
      ∀ d, d < 4 → s.dieHeld d = false ∧ (s.dieUp d = true → s.dieCandidate d = true ∨ s.dieEmpty d = true) := by
  simp only [State.quiet, State.quietHere, Bool.and_eq_true, List.isEmpty_iff, Option.isNone_iff_eq_none, List.all_eq_true,
    List.mem_range] at h
  obtain ⟨⟨⟨⟨⟨⟨⟨hdies, -⟩, hsig⟩, -⟩, hitk⟩, -⟩, -⟩, -⟩ := h
  refine ⟨hsig, hitk, fun d hd => ?_⟩
  have hdie := hdies d hd
  simp only [Bool.or_eq_true, Bool.not_eq_true'] at hdie
  obtain ⟨hheld, hstate⟩ := hdie
  refine ⟨hheld, fun hup => ?_⟩
  simpa [hup] using hstate

theorem mem_dieCores {c d : Nat} : c ∈ dieCores d ↔ c / 16 = d := by
  simp only [dieCores, List.mem_map, List.mem_range]
  exact ⟨by omega, fun h => ⟨c % 16, by omega, by omega⟩⟩

/-- A core of a candidate die, or of one that holds no context, that runs waits quietly. -/
theorem waitsQuietly_of_running {s : State} {c : Nat} (h : s.dieCandidate (c / 16) = true ∨ s.dieEmpty (c / 16) = true)
    (hrun : (s.core c).phase = .running) : (s.core c).waitsQuietly = true := by
  have hmem : c ∈ dieCores (c / 16) := mem_dieCores.2 rfl
  obtain hcand | hempty := h
  · simp only [State.dieCandidate, Bool.and_eq_true, List.all_eq_true] at hcand
    obtain ⟨⟨⟨⟨⟨⟨-, hcores⟩, -⟩, -⟩, -⟩, -⟩, -⟩ := hcand
    simpa [hrun] using hcores c hmem
  · simpa [hrun] using List.all_eq_true.1 hempty c hmem

/-! ### The cores of a firing (R274) -/

/-- The cores whose contexts a firing faults: those of candidate dies that wait under R272. -/
def State.deadlocked (s : State) : List Nat :=
  (List.range 64).filter (fun c => s.dieCandidate (c / 16) && (s.core c).waitsQuietly)

theorem mem_deadlocked {s : State} {c : Nat} :
    c ∈ s.deadlocked ↔ c < 64 ∧ s.dieCandidate (c / 16) = true ∧ (s.core c).waitsQuietly = true := by
  simp [State.deadlocked]

/-- The mask of a rising list of cores has the bits of its members. -/
theorem bit_coreMask {cs : List Nat} (h : cs.SortedLT) {c : Nat} (hc : c < 64) :
    bit (BitVec.ofNat 64 (cs.map (fun c => 2 ^ c)).sum) c = true ↔ c ∈ cs := by
  rw [bit, BitVec.getLsbD_ofNat, decide_eq_true hc, Bool.true_and, ← Nat.mem_bitIndices, Nat.bitIndices_sum_map_two_pow h]

theorem deadlocked_sorted (s : State) : s.deadlocked.SortedLT :=
  (List.pairwise_lt_range.filter _).sortedLT

/-! ### The detector (R274, R275, R279) -/

theorem exec_deadlockDetect_off {s : State} {near : Bool} (h : s.sch.dlEn = false ∨ s.quiet = false ∨ near = true) (arr : Bool) :
    exec (.deadlockDetect near arr) s = .next s := by
  refine congrArg Host.Outcome.next (if_pos ?_)
  simpa using h

section Firing
variable {s : State} (hen : s.sch.dlEn = true) (hq : s.quiet = true)
include hen hq

theorem exec_deadlockDetect_arrival : exec (.deadlockDetect false true) s = .next s.tie :=
  congrArg Host.Outcome.next ((if_neg (by simp [hen, hq])).trans (if_pos rfl))

theorem exec_deadlockDetect_fires :
    let u := s.deadlocked.foldl (fun u c => match (u.core c).job with | some j => u.failJob j 0x0504 [] 6 false | none => u)
      (State.trigger s s 3 0 s.sch.dlRack)
    exec (.deadlockDetect false false) s =
      .next ({ u with
        sch.dlLast := BitVec.ofNat 64 (s.deadlocked.map (fun c => 2 ^ c)).sum, sch.dlCount := satInc u.sch.dlCount }.errSync 5) :=
  congrArg Host.Outcome.next ((if_neg (by simp [hen, hq])).trans (if_neg Bool.false_ne_true))

end Firing

theorem exec_schDlCtrlWrite_rejected {s : State} {v : BitVec 32} (h : fld v 8 16 = 0) :
    exec (.schDlCtrlWrite v) s = .next (s.errSync 6) :=
  congrArg Host.Outcome.next (if_pos h)

theorem exec_schDlCtrlWrite_taken {s : State} {v : BitVec 32} (h : fld v 8 16 ≠ 0) : exec (.schDlCtrlWrite v) s =
    .next { s with sch.dlEn := bit v 0, sch.dlRack := bit v 1, sch.dlWindow := BitVec.ofNat 16 (fld v 8 16) } :=
  congrArg Host.Outcome.next (if_neg h)

/-! ### The statement's parts together -/

theorem says_deadlockDetector : Says.DeadlockDetector := by
  intro s
  refine ⟨fun near arr h => exec_deadlockDetect_off h arr, exec_deadlockDetect_arrival, ?fires, ?signals, ?held, ?intake, ?busy,
    fun v => ⟨exec_schDlCtrlWrite_rejected, exec_schDlCtrlWrite_taken⟩⟩
  case fires =>
    exact fun hen hq => ⟨s.deadlocked, _, fun c => mem_deadlocked, fun c hc => bit_coreMask (deadlocked_sorted s) hc,
      exec_deadlockDetect_fires hen hq⟩
  all_goals simp only [← Bool.not_eq_true]
  case signals => exact fun hsig hq => hsig (parts_of_quiet hq).1
  case held =>
    intro d hd hheld hq
    obtain ⟨-, -, hdies⟩ := parts_of_quiet hq
    obtain ⟨hfree, -⟩ := hdies d hd
    simp [hfree] at hheld
  case intake =>
    intro hrun hq
    obtain ⟨-, hitk, -⟩ := parts_of_quiet hq
    exact hrun hitk
  case busy =>
    rintro d c hd rfl hup hrun hbusy hq
    obtain ⟨-, -, hdies⟩ := parts_of_quiet hq
    obtain ⟨-, hstate⟩ := hdies _ hd
    simp [waitsQuietly_of_running (hstate hup) hrun] at hbusy

/-- Settles O42: a wait by its rules of the core that waits, each end of it through the one rule of `waitEnds`, and the detector by the
parts of the quiet state. -/
theorem waitsAndDeadlock : Obligations.WaitsAndDeadlock :=
  ⟨says_syncWaits, says_timedWaits, says_deadlockDetector⟩

end Sys2Proof.Machine
end

section
/-!
SUPPORT. Accesses of registers (section 24.2, R130, R131, R548): what a read and a write do to reserved space, to a block that is off, to one
that AUTOWAKE wakes and to one that is accessible, the queue of stalled accesses, and the statement on register access.
-/
namespace Sys2Proof.Machine

/-! ### Reserved space (R548) -/

theorem listed_of_placeOf_none {a : Nat} (h : placeOf a = .none) : listed a = false := by
  rw [listed, h]

theorem placeOf_beyondDies {a : Nat} (h : 0x1100000 ≤ a) : placeOf a = .none := by
  rw [placeOf, if_neg (by omega), if_neg (by omega)]

/-- The upper half of a die's region holds no core. -/
theorem placeOf_beyondCores {a : Nat} (h0 : 0x100000 ≤ a) (h : 0x200000 ≤ (a - 0x100000) % 0x400000) : placeOf a = .none := by
  rw [placeOf, if_neg (by omega)]
  split
  · exact (if_neg (by omega)).trans (if_neg (by omega))
  · rfl

/-! ### A 32-bit access by what lies at its offset -/

section Access
variable {s : State} {sd : Side} {a : Nat}

theorem regRead_reserved (h : listed a = false) (ev : Nat) : s.regRead sd a ev = { s with rdata := 0 } :=
  if_pos (by simp [h])

theorem regWrite_reserved (h : listed a = false) (v hw : W32) : s.regWrite sd a v hw = s :=
  if_pos (by simp [h])

section Listed
variable (hl : listed a = true)
include hl

theorem regRead_off (ho : s.offAt a = true) (hw : s.wakes a = none) (ev : Nat) :
    s.regRead sd a ev = { s.offAccess sd a with rdata := 0x0FF00FF0 } := by
  simp [State.regRead, hl, ho, hw]

theorem regRead_waking {b : WakeBlock} (ho : s.offAt a = true) (hb : s.wakes a = some b) (ev : Nat) :
    s.regRead sd a ev = s.stall sd a none b := by
  simp [State.regRead, hl, ho, hb]

theorem regRead_accessible (ho : s.offAt a = false) (ev : Nat) : s.regRead sd a ev = s.readNow sd a ev := by
  simp [State.regRead, hl, ho]

theorem regWrite_off (ho : s.offAt a = true) (hn : s.wakes a = none) (v hw : W32) :
    s.regWrite sd a v hw = s.offAccess sd a := by
  simp [State.regWrite, hl, ho, hn]

theorem regWrite_waking {b : WakeBlock} (ho : s.offAt a = true) (hb : s.wakes a = some b) (v hw : W32) :
    s.regWrite sd a v hw = s.stall sd a (some v) b := by
  simp [State.regWrite, hl, ho, hb]

theorem regWrite_accessible (ho : s.offAt a = false) (v hw : W32) : s.regWrite sd a v hw = s.writeNow sd a v hw := by
  simp [State.regWrite, hl, ho]

end Listed

/-- A write in whose cycle hardware sets no W1C bit signals nothing of its own (R6, R526). -/
theorem writeNow_noEvent {v hw : W32} (h : hw = 0 ∨ w1cPlace (placeOf a) = false) :
    s.writeNow sd a v hw = s.writePlace sd (placeOf a) v hw := by
  refine if_neg ?_
  obtain rfl | h := h
  · simp
  · simp [h]

/-- Hardware sets W1C bits in the cycle of the write (R6, R526). -/
theorem writeNow_event {v hw : W32} (hne : hw ≠ 0) (h : w1cPlace (placeOf a) = true) :
    s.writeNow sd a v hw = s.rise (s.writePlace sd (placeOf a) v hw) :=
  if_pos (by rw [h, Bool.true_and]; exact decide_eq_true hne)

end Access

/-! ### Effects of a read or a write at its place -/

/-- A read clears the outcome counter of its offset and no other (Table 22.4). -/
theorem readEffect_outcomeCounter {k : Nat} (hk : k < 7) (s : State) (sd : Side) (ev : Nat) :
    s.readEffect sd ev (.iod 14 (0x70 + 4 * k)) = { s with obs.outcomes := tset 0 s.obs.outcomes k (satN _ ev) } := by
  have hindex : (0x70 + 4 * k - 0x70) / 4 = k := by omega
  simp only [State.readEffect]
  rw [if_neg (by omega), if_neg (by omega), if_neg (by omega), if_pos (by omega), hindex]
  rfl

/-- R513: SLK_CTRL is frozen while the TDI is locked. -/
theorem writePlace_slkCtrl_locked {s : State} (h : s.tdiLocked = true) (sd : Side) (v hw : W32) :
    s.writePlace sd (.iod 13 0) v hw = s :=
  if_pos h

theorem writePlace_slkCtrl_unlocked {s : State} (h : s.tdiLocked = false) (sd : Side) (v hw : W32) :
    s.writePlace sd (.iod 13 0) v hw = { s with slk.ctrl := v &&& 0xFF013F } :=
  if_neg (by simp [h])

@[simp] theorem sided_get_set_self {α : Type} (x : Sided α) (sd : Side) (v : α) : (x.set sd v).get sd = v := by
  cases sd <;> rfl

/-- R547: an access of another width returns 0 when it reads. -/
theorem exec_bar0BadWidthAccess_read {w : Nat} (h4 : w ≠ 4) (h8 : w ≠ 8) (off : BitVec 25) (s : State) :
    exec (.bar0BadWidthAccess off w none) s = .next { s with rdata := 0 } :=
  if_neg (by simp [h4, h8])

/-- R547: an access of another width does nothing when it writes. -/
theorem exec_bar0BadWidthAccess_write {w : Nat} (h4 : w ≠ 4) (h8 : w ≠ 8) (off : BitVec 25) (bs : List Byte) (s : State) :
    exec (.bar0BadWidthAccess off w (some bs)) s = .next s :=
  if_neg (by simp [h4, h8])

/-! ### The queue of stalled accesses (R131) -/

@[simp] theorem dropSignal_pmu (reason : Nat) (s : State) : (s.dropSignal reason).pmu = s.pmu := by
  simp [State.dropSignal, State.errSync]

@[simp] theorem dropSignalsTo_pmu (d : Nat) (s : State) : (s.dropSignalsTo d).pmu = s.pmu := by
  unfold State.dropSignalsTo
  refine foldl_keeps (P := fun t => t.pmu = s.pmu) _ _ (fun t _ ht => (dropSignal_pmu 3 t).trans ht) ?_
  rfl

/-- A bridge that goes to OFF ends no stalled access: ERROR and LOST alone do (R45). -/
@[simp] theorem bridgeTo_off_pmu (d : Nat) (s : State) : (s.bridgeTo d .off).pmu = s.pmu :=
  dropSignalsTo_pmu d _

@[simp] theorem dieOn_pmu (d : Nat) (s : State) : (s.dieOn d).pmu = s.pmu := by
  simp only [State.dieOn]
  split
  · rfl
  · split
    · rw [modDie_pmu, bridgeTo_off_pmu]
    · rfl

theorem autowake_stalled (b : WakeBlock) (s : State) : (s.autowake b).pmu.stalled = s.pmu.stalled := by
  cases b with
  | die d =>
    simp only [State.autowake]
    split
    · rw [modDie_pmu, dieOn_pmu]
    · rfl
  | cam | itk | slk =>
    simp only [State.autowake]
    split <;> rfl

/-- A stalled access waits behind those that stalled before it. -/
theorem stall_stalled (s : State) (sd : Side) (a : Nat) (w : Option W32) (b : WakeBlock) : (s.stall sd a w b).pmu.stalled =
    s.pmu.stalled ++ [{ side := sd, off := BitVec.ofNat 25 a, w := w, block := b }] :=
  autowake_stalled b _

theorem exec_autowakeAccessComplete_allOff {s : State} (h : ∀ x ∈ s.pmu.stalled, s.offAt x.off.toNat = true) :
    exec .autowakeAccessComplete s = .next s := by
  have hnone : s.pmu.stalled.find? (fun x => !s.offAt x.off.toNat) = none :=
    List.find?_eq_none.2 (fun x hx => by simp [h x hx])
  change execAutowakeAccessComplete s = _
  rw [execAutowakeAccessComplete, hnone]

section FirstAwake
variable {s : State} {l m : List Stalled} {x : Stalled} (hq : s.pmu.stalled = l ++ x :: m)
  (hl : ∀ y ∈ l, s.offAt y.off.toNat = true) (hx : s.offAt x.off.toNat = false)
include hq hl hx

/-- The oldest stalled access whose block is awake completes, whatever stalls before it. -/
theorem exec_autowakeAccessComplete_firstAwake : exec .autowakeAccessComplete s = .next (s.stallDone x) := by
  have hfind : s.pmu.stalled.find? (fun y => !s.offAt y.off.toNat) = some x := by
    rw [List.find?_eq_some_iff_append]
    exact ⟨by simp [hx], l, m, hq, fun y hy => by simp [hl y hy]⟩
  change execAutowakeAccessComplete s = _
  rw [execAutowakeAccessComplete, hfind]

/-- The completed access alone leaves the queue: none before it equals it, as their blocks are off. -/
theorem erase_firstAwake : s.pmu.stalled.erase x = l ++ m := by
  have hnot : x ∉ l := fun hmem => by simp [hl x hmem] at hx
  rw [hq, List.erase_append_right _ hnot, List.erase_cons_head]

theorem exec_autowakeAccessComplete_read (hw : x.w = none) : exec .autowakeAccessComplete s =
    .next (State.readNow x.side x.off.toNat 0 { s with pmu.stalled := l ++ m }) := by
  rw [exec_autowakeAccessComplete_firstAwake hq hl hx, State.stallDone, hw, erase_firstAwake hq hl hx]

theorem exec_autowakeAccessComplete_write {v : W32} (hw : x.w = some v) : exec .autowakeAccessComplete s =
    .next (State.writeNow x.side x.off.toNat v 0 { s with pmu.stalled := l ++ m }) := by
  rw [exec_autowakeAccessComplete_firstAwake hq hl hx, State.stallDone, hw, erase_firstAwake hq hl hx]

end FirstAwake

/-! ### The statement -/

theorem says_registerAccess : Says.RegisterAccess := by
  refine ⟨?reads, ?reserved, stall_stalled, ?readEffects, ?writes, ?writeEffects, ?telemetry, ?widths,
    fun s => exec_autowakeAccessComplete_allOff, ?completion⟩
  case reads =>
    exact fun s sd off ev =>
      ⟨fun hl => congrArg _ (regRead_reserved hl ev), fun hl ho hn => congrArg _ (regRead_off hl ho hn ev),
        fun b hl ho hb =>
          ⟨congrArg _ (regRead_waking hl ho hb ev), fun v hw => congrArg _ (regWrite_waking hl ho hb v hw)⟩,
        fun hl ho => congrArg _ (regRead_accessible hl ho ev)⟩
  case reserved =>
    rintro a (h | ⟨h0, h⟩)
    · exact listed_of_placeOf_none (placeOf_beyondDies h)
    · exact listed_of_placeOf_none (placeOf_beyondCores h0 h)
  case readEffects =>
    exact fun s sd ev => ⟨rfl, rfl, rfl, rfl, rfl, rfl, rfl, rfl, fun k hk => readEffect_outcomeCounter hk s sd ev⟩
  case writes =>
    intro s sd off v hw
    refine ⟨fun hl => congrArg _ (regWrite_reserved hl v hw), fun hl ho hn => congrArg _ (regWrite_off hl ho hn v hw), ?_⟩
    intro hl ho
    have hnow : exec (.registerWrite sd off v hw) s = .next (s.writeNow sd off.toNat v hw) :=
      congrArg _ (regWrite_accessible hl ho v hw)
    exact ⟨fun h => hnow.trans (congrArg _ (writeNow_noEvent h)), fun hne h => hnow.trans (congrArg _ (writeNow_event hne h))⟩
  case writeEffects =>
    exact fun s sd v hw =>
      ⟨rfl, rfl, rfl, rfl, (writePlace_slkCtrl_locked · sd v hw), (writePlace_slkCtrl_unlocked · sd v hw)⟩
  case telemetry =>
    intro s sd v
    have hentry : (v.setWidth 10).toNat = v.toNat % 1024 := BitVec.toNat_setWidth 10 v
    exact ⟨_, rfl, sided_get_set_self _ sd _, by rw [← hentry]; exact sided_get_set_self _ sd _, rfl, rfl, rfl, rfl⟩
  case widths =>
    exact fun s off w h4 h8 =>
      ⟨exec_bar0BadWidthAccess_read h4 h8 off s, fun bs => exec_bar0BadWidthAccess_write h4 h8 off bs s⟩
  case completion =>
    exact fun s l m x hq hl hx =>
      ⟨exec_autowakeAccessComplete_read hq hl hx, fun v => exec_autowakeAccessComplete_write hq hl hx⟩

/-- Settles O60: an access by what lies at its offset, its effects by its place, and the queue of stalled accesses by its first one whose
block is awake. -/
theorem registerAccess : Obligations.RegisterAccess := says_registerAccess

end Sys2Proof.Machine
end
